-- ==== Sys2Proof/Word.lean ====
section
/-!
DEFINITION. The word types and their plainest arithmetic: two's complement readings, saturation, wrapping, bit tests.
-/

namespace Sys2Proof

/-- A 32-bit register word (R64). -/
abbrev Word := BitVec 32

/-- A byte of module DRAM or of a stream. -/
abbrev Byte := BitVec 8

namespace Word

/-- The low `w` bits of `n` read as two's complement. -/
def signed (w n : Nat) : Int :=
  let m := n % 2 ^ w
  if m < 2 ^ (w - 1) then (m : Int) else (m : Int) - (2 ^ w : Nat)

/-- An integer wrapped into `w` bits, two's complement. -/
def wrap (w : Nat) (z : Int) : Nat := (z % ((2 ^ w : Nat) : Int)).toNat

/-- `n` saturated to an unsigned field of `w` bits. -/
def satU (w n : Nat) : Nat := min n (2 ^ w - 1)

/-- `z` saturated to a signed field of `w` bits, in two's complement. -/
def satS (w : Nat) (z : Int) : Nat :=
  wrap w (max (-((2 ^ (w - 1) : Nat) : Int)) (min z (((2 ^ (w - 1) : Nat) : Int) - 1)))

/-- `z` limited to [lo, hi]. -/
def clampI (lo hi z : Int) : Int := max lo (min hi z)

/-- `n` limited to [lo, hi]. -/
def clamp (lo hi n : Nat) : Nat := max lo (min hi n)

/-- Bit `i` of `n`. -/
def bit (n i : Nat) : Bool := n.testBit i

/-- `n` with bit `i` set. -/
def setBit (n i : Nat) : Nat := n ||| 2 ^ i

/-- `n` with bit `i` cleared. -/
def clearBit (n i : Nat) : Nat := if n.testBit i then n - 2 ^ i else n

/-- The bits [lo + w - 1 : lo] of `n`. -/
def bits (n lo w : Nat) : Nat := n / 2 ^ lo % 2 ^ w

/-- A Bool as 0 or 1. -/
def ofBool (b : Bool) : Nat := if b then 1 else 0

/-- Division rounding towards minus infinity. -/
def fdiv (a : Int) (b : Nat) : Int := Int.fdiv a (b : Int)

/-- Division rounding up. -/
def cdiv (a b : Nat) : Nat := (a + b - 1) / b

/-- Little-endian value of a list of bytes. -/
def le : List Byte → Nat
  | [] => 0
  | b :: bs => b.toNat + 256 * le bs

/-- The low `n` bytes of `v`, least significant first. -/
def toLe : Nat → Nat → List Byte
  | 0, _ => []
  | n + 1, v => BitVec.ofNat 8 v :: toLe n (v / 256)

/-- Sequence numbers modulo 2^32: `a` has reached `b` (R265). -/
def reached (a b : Nat) : Bool := decide ((a + 2 ^ 32 - b % 2 ^ 32) % 2 ^ 32 < 2 ^ 31)

end Word
end Sys2Proof
end

