-- ==== Sys2Proof/Types.lean ====
section
/-!
DEFINITION. The operand types the commands carry (what a requester writes, what a sensor, a link, a stream or a timer
brings), each from the rule it cites.
-/

namespace Sys2Proof

/-- Who makes a register access or holds a lock: the host over BAR0, the caretaker, the partner over the pair link (R65). -/
inductive Req where
  | host | caretaker | partner
  deriving DecidableEq, Repr

/-- The code of a requester in CTL_BUSERR_INFO.REQ: 0b01 host, 0b10 caretaker, 0b11 partner. -/
def Req.code : Req → Nat
  | .host => 1
  | .caretaker => 2
  | .partner => 3

/-- Timings of CTL_UPDATE.WHEN (R83). -/
inductive When where
  | immediate | nextSubframe | nextFrame | atTime
  deriving DecidableEq, Repr

/-- The two power sources of a POR (Table 2.2). -/
inductive PorSource where
  | supplyMonitor | mainsGood
  deriving DecidableEq, Repr

/-- One crack-loop conversion (R375): the ohms read; whether the voltage lay below the range; whether it lay above it. -/
structure CrackRead where
  ohm : Nat
  below : Bool
  above : Bool
  deriving DecidableEq, Repr

/-- NOTICE types of Table 15.3. -/
inductive Notice where
  | fail | handover | panelFault | mirrorDown
  deriving DecidableEq, Repr

/-- Why a NOTICE is sent (R454 and R453). The spec numbers none of them. -/
inductive NoticeCause where
  | coreEntry | sysEntry | memFreeze | thermal | sparesOut | railFault (channel : Nat) | powerFail | groupLost | handover
  | divergence | crack | fitness
  deriving DecidableEq, Repr

/-- One tephra entry of Table 21.1, CHECK left out (it is computed from the rest). `rung` 0 to 4; `sev` 0 to 3. -/
structure TEntry where
  time : Nat
  seq : Nat
  src : Nat
  sev : Nat
  rung : Nat
  injected : Bool
  unlocked : Bool
  partner : Bool
  code : Nat
  a0 : Nat
  a1 : Nat
  a2 : Nat
  deriving DecidableEq, Repr

/-- What a codec-compressed DELTA names (R449): tiles whose STATIC changed, groups made usable with their members, groups
invalidated, written blocks of registered buffers (address, bytes); `okR255`: it decompressed without an error. -/
structure DeltaMsg where
  commit : Nat
  statics : List (Nat × Bool)
  usable : List (Nat × List Nat)
  invalidated : List Nat
  blocks : List (Nat × List Byte)
  okR255 : Bool
  whole : Bool
  deriving DecidableEq, Repr

/-- A resynchronisation SNAPSHOT (R452): mirrored registers (effect and staged), registered-buffer bytes, compositor
statics and groups. -/
structure SnapshotMsg where
  regs : List (Nat × Word)
  staged : List (Nat × Word)
  buffers : List (Nat × List Byte)
  statics : List Nat
  groups : List (Nat × List Nat)
  deriving DecidableEq, Repr

/-- TIME packet kinds (R477, R488, Table 16.3): a SYNC with its number and the sender's departure time t1, a REPLY with the number it answers,
t2 and t3, and the anchor of a launch. -/
inductive TimeKind where
  | sync (id t1 : Nat)
  | reply (id t2 t3 : Nat)
  | launch (anchor : Nat)
  deriving DecidableEq, Repr

/-- The FLAGS and HOPS a TIME packet carries beside its stamps (Table 16.3). -/
structure TimeInfo where
  hops : Nat
  locked : Bool
  stepPend : Bool
  deriving DecidableEq, Repr

/-- Payloads of the pair packets of Table 15.3. -/
inductive PairMsg where
  | heartbeat (time sf state fit cause : Nat)
  | notice (kind : Notice) (cause : Nat) (target : Nat)
  | ack (seq : Nat)
  | signatures (sf : Nat) (sigs : List Nat) (excused : List Bool)
  | katResult (tested failed : List Nat)
  | write (off : Nat) (data : Word)
  | strobe (value : Word) (time : Bool) (target : Nat) (digest : List Byte) (act : Bool)
  | time (k : TimeKind) (i : TimeInfo)
  | mailbox (m : Nat) (word : Word) (ack : Bool) (ret : Nat) (seq : Nat)
  | delta (d : DeltaMsg)
  | snapshot (s : SnapshotMsg)
  | tephra (e : TEntry)
  | tephraGap (first count : Nat)
  deriving DecidableEq, Repr

/-- The sequenced packets of an array port (Table 16.1). -/
inductive ArrayMsg where
  | hello (x y : Nat) (valid : Bool) (letter serial : Nat)
  | status (source : Nat) (locked : Bool) (hops gm : Nat)
  deriving DecidableEq, Repr

/-- A token flit (Table 5.3): tag, virtual channel, poison mark, 112 payload bits. -/
structure Token where
  tag : Nat
  vc : Nat
  poison : Bool
  payload : Nat
  deriving DecidableEq, Repr

/-- What brings a token to a port of a tile (R133, R136, R143): the oldest flit in flight to it; the reply of fetch port `p` to its oldest
request, of which it is the last token or not; a token of the intake. -/
inductive Arrival where
  | mesh
  | reply (p : Nat) (tok : Token) (last : Bool)
  | intake (tok : Token)
  deriving DecidableEq, Repr

/-- What one tile rendered of a row band, in the order it rendered it (R19): `w` pixel columns from `x` of a row. -/
structure Share where
  tile : Nat
  row : Nat
  x : Nat
  w : Nat
  deriving DecidableEq, Repr

/-- A place in a ray's walk: row, subpixel column, entry of its stack. Of a ray unfinished when its band was sent (R26) the entries it had
walked; of a poisoned plane-sample the entry sampled (R145). -/
structure RayAt where
  row : Nat
  col : Nat
  entry : Nat
  deriving DecidableEq, Repr

/-- What a tile's clock generator and the voltage loop measure over an interval (R149 to R151): the tile, the lowest frequency its replica
allowed and its mean frequency over the last subframe in MHz, the voltage in mV at which it just meets its target. -/
structure TileClock where
  tile : Nat
  replica : Nat
  mean : Nat
  want : Nat
  deriving DecidableEq, Repr

/-- The event kinds of a tile's SRAM that report an uncorrectable error (Table 5.7), and the retry that failed. -/
inductive TileErr where
  | localMemory | programStore | dispatchTable | configPlane | residue
  deriving DecidableEq, Repr

/-- What a plane-sample is charged to (R185): an ordinary plane, an overlay, or the sinter background. -/
inductive SampleKind where
  | ordinary | overlay | background
  deriving DecidableEq, Repr

/-- A plane-sample as the lane reads it (R182): the four texels of the footprint, 00, 10, 01, 11, for colour and alpha; the
fractions; whether the data are poisoned; what it is charged to. -/
structure TexelQuad where
  c00 : Nat
  c10 : Nat
  c01 : Nat
  c11 : Nat
  a00 : Nat
  a10 : Nat
  a01 : Nat
  a11 : Nat
  fx : Nat
  fy : Nat
  poison : Bool
  kind : SampleKind
  deriving DecidableEq, Repr

/-! ### Streams -/

/-- A destination address: IPv4, or IPv6 as its four words, the most significant first (R202). -/
inductive IpDst where
  | v4 (a : Nat)
  | v6 (words : List Nat)
  deriving DecidableEq, Repr

/-- A UDP datagram that carries an RTP packet (R202): Ethernet port, destination address, UDP destination port, and the bytes of the RTP packet
(RFC 3550). -/
structure RtpPacket where
  port : Nat
  dst : IpDst
  udp : Nat
  bytes : List Byte
  deriving DecidableEq, Repr

/-- A decoded picture (R226): size in luma samples, bits per component, log2 of the horizontal and vertical chroma subsampling,
whether it has chroma, the range flag, whether it is a random-access picture, and its components in raster order. -/
structure Picture where
  width : Nat
  height : Nat
  bits : Nat
  subX : Nat
  subY : Nat
  mono : Bool
  full : Bool
  random : Bool
  c0 : List Nat
  c1 : List Nat
  c2 : List Nat
  deriving DecidableEq, Repr

/-- A feature a bitstream uses, of those Table 7.11 speaks of (R224): tools outside the profile listed; a level, times ten; field or interlaced
coding; multi-layer coding; screen-content coding; SEI messages; an AV1 operating point; large-scale tiles; film grain; length-delimited
format. -/
inductive PicFeature where
  | otherProfile
  | level (tenths : Nat)
  | interlaced
  | multiLayer
  | screenContent
  | sei
  | operatingPoint (n : Nat)
  | largeScaleTile
  | filmGrain
  | lengthDelimited
  deriving DecidableEq, Repr

/-- How the decoding of a coded picture ends (R224, R233): with the picture its bitstream codes and the features it uses, or corrupt. -/
inductive PicResult where
  | ok (p : Picture) (uses : List PicFeature)
  | corrupt
  deriving DecidableEq, Repr

/-- A picture of the DisplayPort source (R501, R502): the picture, whether its components are YCbCr, the transfer its colorimetry
signals (16 PQ, 18 HLG, with BT.2020; any other is taken as BT.709 SDR), its rate in Hz as a fraction, and whether it is progressive. -/
structure DpPicture where
  pic : Picture
  ycc : Bool
  transfer : Nat
  rateNum : Nat
  rateDen : Nat
  progressive : Bool
  deriving DecidableEq, Repr

/-! ### Codec, compositor, sequencer -/

/-- A job of the module's own (R254, Table 8.6): class 1, 2, 3 or 5, OP, FORMAT; and how it ends: source bytes used, bytes written, code of
Table 8.5, stream offset of an error. -/
structure InnerJob where
  cls : Nat
  op : Nat
  format : Nat
  used : Nat
  written : Nat
  err : Nat
  offset : Nat
  deriving DecidableEq, Repr

/-- A triple of a row band as the fabric finishes it (R189, R284): row of the panel, pixel column, the composited values of subpixels
3x, 3x + 1 and 3x + 2 in 20 bits, how many of its rays the budget cut, and how many were finished against black. -/
structure Ray where
  row : Nat
  x : Nat
  r : Nat
  g : Nat
  b : Nat
  cut : Nat
  black : Nat
  deriving DecidableEq, Repr

/-- A rectangle of the panel, in subpixel columns and rows, with its waveform length (R346). -/
structure Rect where
  x : Nat
  y : Nat
  w : Nat
  h : Nat
  wave : Nat
  deriving DecidableEq, Repr

/-- One decoded block of a uniformity map (Table 11.4): 4,096 gains and offsets, and whether its CRC held. -/
structure UnifBlock where
  gains : List Nat
  offsets : List Int
  crcOk : Bool
  deriving DecidableEq, Repr

/-- A uniformity map (R341): temperature, serial, size, blocks in raster order. -/
structure UnifMap where
  temp : Int
  serial : Nat
  blocksX : Nat
  totalLen : Nat
  blocks : List UnifBlock
  deriving DecidableEq, Repr

/-- A region's VCOM error report of one blanking interval (R353): region, error in mV. -/
structure VcomErr where
  region : Nat
  err : Int
  deriving DecidableEq, Repr

/-- A transmitting lane: its scrambler's last 58 bits (bit 0 the latest), blocks since its last MARKER, the count of its next (R385, R387);
the blocks it has sent since the last idle step, newest first: sync header, scrambled payload, whose bit 0 goes out first. -/
structure TxLane where
  scr : Nat
  since : Nat
  marks : Nat
  sent : List (Nat × Nat)
  deriving DecidableEq, Repr

/-- A PRBS checker that runs (R405): its receive lane, the bits it has seen, and those since its last error, up to 64. -/
structure PrbsRun where
  lane : Nat
  seen : Nat
  clean : Nat
  deriving DecidableEq, Repr

/-- What training leaves on one data lane (R389, R390): the eye the far receiver reports (or this one measures) and the settings
reached. -/
structure LaneEye where
  lane : Nat
  height : Nat
  width : Nat
  pre : Nat
  post : Nat
  ctle : Nat
  dfe : Nat
  deriving DecidableEq, Repr

/-- What the ECC logic finds in the words of a request (R415, R430): nothing; a corrected single-bit error; an uncorrectable
data error with its syndrome; a command or address parity error; an error in a fetch port of the channel. -/
inductive EccOutcome where
  | clean
  | single
  | double (syndrome : Nat)
  | parity
  | fetchPort
  deriving DecidableEq, Repr

/-- A memory request (R413): requester number of Table 14.2, for the lossless engines the class of the job (1 to 5, Table 8.6),
address, bytes to write or the number of bytes to read, and the ECC outcome. -/
structure MemReq where
  requester : Nat
  jobClass : Nat
  addr : Nat
  write : Option (List Byte)
  len : Nat
  ecc : EccOutcome
  deriving DecidableEq, Repr

/-- What a channel's mode register 4 asks for (R420): refresh at less than the base rate, at the base rate, between that and twice,
or at twice the base rate or more. -/
inductive Mr4Rate where
  | slow | base | above | twice
  deriving DecidableEq, Repr

/-- What training finds on a channel (R423): the widths of read 0, write 0, read 1 and write 1 in 1/64 UI, and their centres. -/
structure ChanTrain where
  ch : Nat
  widths : List Nat
  centres : List Int
  deriving DecidableEq, Repr

/-- PTP messages (Table 16.4), with what the servo and the best master clock algorithm use of them. `stamp` is the hardware
time stamp of the event message; `ranking` the Announce fields in the order they are compared. -/
inductive PtpMsg where
  | announce (master : Nat) (ranking : List Nat) (domain : Nat)
  | sync (master seq : Nat) (twoStep : Bool) (origin : Nat) (stamp : Nat) (domain : Nat)
  | followUp (master seq : Nat) (origin : Nat) (domain : Nat)
  | delayReqSent (stamp : Nat)
  | delayResp (master seq : Nat) (received : Nat) (domain : Nat)
  | other
  deriving DecidableEq, Repr


/-! ### Ethernet -/

/-- A message of the protocols the caretaker handles (R498, Table 17.4): an ARP request for an address; an echo request over IPv4 or IPv6; a
neighbour solicitation for an address (four words); a router advertisement with a prefix of 64 bits for stateless addresses, if any; an
IGMP or MLD query; one that needs no answer (a redirect, which is ignored, an unreachable, DHCP, whose outcomes are commands). -/
inductive CareMsg where
  | arp (target : Nat)
  | echo (v6 : Bool)
  | solicit (target : List Nat)
  | router (prefix64 : Option Nat)
  | query (v6 : Bool)
  | silent
  deriving DecidableEq, Repr

/-- What a received Ethernet frame carries (R498): a PTP message, an RTP packet, a message of the caretaker's protocols, or anything
else. -/
inductive EthKind where
  | ptp (m : PtpMsg)
  | rtp (p : RtpPacket)
  | care (m : CareMsg)
  | other
  deriving DecidableEq, Repr

/-- A received Ethernet frame (R497, R498): whether its FCS holds, whether it is a pause frame, its length in bytes, its VLAN (0:
untagged), what it carries. -/
structure EthFrame where
  fcsOk : Bool
  pause : Bool
  len : Nat
  vlan : Nat
  kind : EthKind
  deriving DecidableEq, Repr

/-- The parties of the mailboxes and locks (Table 18.1, R525): host, caretaker, partner (its caretaker), and the fabric's placement
controller. -/
inductive Party where
  | host | caretaker | partner | fabric
  deriving DecidableEq, Repr

/-- The owner number of a party (R525). -/
def Party.owner : Party → Nat
  | .host => 1
  | .caretaker => 2
  | .partner => 3
  | .fabric => 4

end Sys2Proof
end

