-- ==== Sys2Proof/Syntax.lean ====
section
/-!
DEFINITION. The commands the block takes: one constructor of Instr per row of spec/opcode_table.json, in its order. The table
gives its rows no bits and no operands: the operands are the inputs the rule of each row names (who writes, what is written,
what a sensor, a link, a stream or a timer brings).
-/

namespace Sys2Proof

/-- The commands, one per row of spec/opcode_table.json, in its order. -/
inductive Instr where
  /-- POR_ASSERT (R36). A supply monitor or mains power-good source asserts POR, which clears everything. -/
  | porAssert (src : PorSource)
  /-- RESET_PIN (R36). RESET_N held low for at least 1 µs asserts a SYS reset source and sets RST_CAUSE.PIN. -/
  | resetPin
  /-- TAMPER_EVENT (R36). TAMPER_N low, or an internal tamper sensor, asserts a SYS reset source and sets RST_CAUSE.TAMPER. -/
  | tamperEvent
  /-- WATCHDOG_EXPIRY (R511). The caretaker watchdog is not serviced within 2,000 ms and asserts a SYS reset source. -/
  | watchdogExpiry
  /-- RST_REQ_CORE (R39). A keyed write of RST_REQ with LEVEL CORE requests a CORE reset as a 1 µs pulse. -/
  | rstReqCore (r : Req) (key : Nat)
  /-- RST_REQ_SYS (R39). A keyed write of RST_REQ with LEVEL SYS requests a SYS reset as a 1 µs pulse. -/
  | rstReqSys (r : Req) (key : Nat)
  /-- FABRIC_FATAL (R166). An uncontained fabric error with no spare left asserts the fatal fabric error, a CORE source. -/
  | fabricFatal
  /-- SYS_TAKES_HOLD (R32). The all-gates-on power-off run on SYS entry ends and the SYS reset takes hold. -/
  | sysTakesHold
  /-- CORE_TAKES_HOLD (R33). After the subframe in flight ends, or at once for a fatal error, CORE takes hold and the panel link sends hold symbols. -/
  | coreTakesHold
  /-- RESET_RELEASE (R38). Every source of a reset level releases and the module leaves that level, possibly straight into a narrower one. -/
  | resetRelease
  /-- TRIM_LOAD_DONE (R40). The option and trim load ends, having read OTP, trims and the CFG_SENSE strap. -/
  | trimLoadDone (reading : Nat)
  /-- FIRMWARE_VERIFY_DONE (R533). The boot ROM finishes verifying a caretaker firmware slot and starts it, falls back to the other slot, or stays in the ROM. -/
  | firmwareVerifyDone (slot0 : List Byte) (slot1 : List Byte)
  /-- DRAM_TRAINING_DONE (R423). Training of all channels ends and failing channels are mapped out. -/
  | dramTrainingDone (l : List ChanTrain)
  /-- DRAM_INIT_DONE (R424). Zero-initialisation of the data space ends and the caretaker writes the region table. -/
  | dramInitDone (maps : Option (List Byte × List Byte))
  /-- PANEL_DESCRIPTOR_VERIFIED (R318). The panel descriptor has been read over the sideband and both signatures checked. -/
  | panelDescriptorVerified (bytes : Option (List Byte)) (ports : List Nat)
  /-- PANEL_RETRY_TIMER (R59). The 1,000 ms retry timer for an absent or unverified panel expires. -/
  | panelRetryTimer
  /-- BASELINE_LOAD (R128). At stage 0x08 the caretaker loads the baseline personality into slot 0 and activates it. -/
  | baselineLoad (file : List Byte) (failed : List Nat)
  /-- ETH_BRINGUP (R54). The caretaker brings up cage QSFP0 in decreasing speeds and joins the default groups for stand-alone play. -/
  | ethBringup (mode : Option Nat) (links : List Nat) (lease : Option Nat)
  /-- DHCP_TIMEOUT (R54). No DHCP lease arrives within 1,500 ms and a link-local IPv4 address is taken. -/
  | dhcpTimeout (addr : Nat)
  /-- HOST_BOOT_TIMEOUT (R60). The boot ROM's 20 s wait for a host image expires and the module boots from flash. -/
  | hostBootTimeout (slot0 : List Byte) (slot1 : List Byte)
  /-- INPUT_IDLE_TIMEOUT (R53). No new frame arrives for 5 s in stand-alone play and the module returns to the identification pattern. -/
  | inputIdleTimeout
  /-- REGISTER_WRITE (R70). A write to a register without behaviour of its own takes effect, or is staged, in order. -/
  | registerWrite (r : Req) (off : Nat) (width : Nat) (data : Nat) (readings : List CrackRead) (others : List (Req × Nat)) (adv : Bool)
  /-- PAIR_LO_READ (R73). A read of the LO half of a 64-bit pair latches the HI half into the requester's shadow. -/
  | pairLoRead (r : Req) (off : Nat)
  /-- PAIR_HI_READ (R74). A read of the HI half returns the valid shadow and invalidates it, or the live bits. -/
  | pairHiRead (r : Req) (off : Nat) (width : Nat)
  /-- PAIR_LO_WRITE (R75). A write of the LO half places the data in the requester's holding register. -/
  | pairLoWrite (r : Req) (off : Nat) (data : Word)
  /-- PAIR_HI_WRITE (R76). A write of the HI half commits both halves in one cycle. -/
  | pairHiWrite (r : Req) (off : Nat) (data : Word) (adv : Bool)
  /-- PAIR_ACCESS_64 (R77). An aligned 64-bit access to a pair performs LO then HI indivisibly. -/
  | pairAccess64 (r : Req) (off : Nat) (data : Option Nat) (adv : Bool)
  /-- UPDATE_IMMEDIATE (R83). CTL_UPDATE with WHEN immediate makes the named groups pending for application within 2 µs. -/
  | updateImmediate (r : Req) (groups : Nat)
  /-- UPDATE_NEXT_SUBFRAME (R83). CTL_UPDATE with WHEN next subframe makes the named groups pending for the next subframe boundary. -/
  | updateNextSubframe (r : Req) (groups : Nat)
  /-- UPDATE_NEXT_FRAME (R83). CTL_UPDATE with WHEN next light-field frame makes the named groups pending for the next frame boundary. -/
  | updateNextFrame (r : Req) (groups : Nat)
  /-- UPDATE_AT_TIME (R84). CTL_UPDATE with WHEN at time reads CTL_UPDATE_TIME and makes the groups pending for that instant. -/
  | updateAtTime (r : Req) (groups : Nat)
  /-- STROBE_APPLY (R87). A pending strobe reaches its permitted point and copies the staged values of its groups into effect. -/
  | strobeApply (g : Nat)
  /-- MSIX_PENDING_SEND (R91). A pending MSI-X message is sent once the vector and function are unmasked and enabled. -/
  | msixPendingSend (enable : Bool) (mask : Bool)
  /-- SUBFRAME_LAUNCH (R322). The launch grid reaches a subframe launch and the sequencer starts the subframe, skipping points before the earliest launch. -/
  | subframeLaunch
  /-- FABRIC_FRAME_START (R605). The fabric begins the first row band of a light-field frame, applying activation, presets, strobes, stream modes and the mode check. -/
  | fabricFrameStart
  /-- VIEW_CTRL_WRITE (R200). A write to VIEW_CTRL is held and takes effect at the next light-field frame boundary. -/
  | viewCtrlWrite (r : Req) (data : Nat)
  /-- PERS_SLOT_LOAD (R110). The LOAD command queues or starts a copy and check of a personality file into a slot. -/
  | persSlotLoad (slot : Nat)
  /-- PERS_SLOT_PRELOAD (R113). The PRELOAD command writes a slot's planes into the standby planes of every tile. -/
  | persSlotPreload (slot : Nat)
  /-- PERS_SLOT_EVICT (R112). The EVICT command empties a slot that is not active or busy. -/
  | persSlotEvict (slot : Nat)
  /-- PERS_LOAD_BEGIN (R112). A load waiting behind another slot's load begins and its slot becomes LOADING. -/
  | persLoadBegin
  /-- PERS_LOAD_DONE (R110). A load ends with the slot VERIFIED, or REJECTED with an error code and offset. -/
  | persLoadDone
  /-- PERS_PRELOAD_DONE (R113). A preload ends with the slot STAGED, or stops with SPARES_SHORT. -/
  | persPreloadDone
  /-- PERS_ACT_NEXT_FRAME (R116). PERS_ACT with WHEN next frame requests activation of a slot at the next allowed boundary. -/
  | persActNextFrame (r : Req) (slot : Nat)
  /-- PERS_ACT_AT_TIME (R117). PERS_ACT with WHEN at time requests activation at the first boundary at or after PERS_ACT_TIME. -/
  | persActAtTime (r : Req) (slot : Nat)
  /-- PERS_ACT_CANCEL (R116). PERS_ACT with WHEN cancel removes the pending activation. -/
  | persActCancel (r : Req)
  /-- ACT_SLIP (R126). Migration writes unfinished 50 µs before an activation boundary make the activation slip one frame. -/
  | actSlip
  /-- BOUNDARY_TOKEN_ARRIVE (R120). A boundary token arrives on a tile port; once on all inputs the tile swaps planes and forwards it. -/
  | boundaryTokenArrive (n : Nat) (port : Nat)
  /-- SWAP_TIMEOUT (R122). A tile has not swapped 40 µs after the boundary and is retired with its function migrated. -/
  | swapTimeout (n : Nat)
  /-- SUBFRAME_TOKEN_ARRIVE (R141). A subframe boundary token arrives; once on every input the tile forwards it and updates its health. -/
  | subframeTokenArrive (n : Nat) (port : Nat)
  /-- DRAIN_MARKER_ARRIVE (R159). A drain marker arrives on an input port and releases the port to the spare. -/
  | drainMarkerArrive (n : Nat) (port : Nat)
  /-- TOKEN_DISPATCH (R143). A tile accepts a token and drops, runs or forwards it as its dispatch entry says. -/
  | tokenDispatch (n : Nat) (port : Nat) (arrive : Option Arrival)
  /-- TOKEN_FORWARD_RETRY (R144). A held forward succeeds once the output port has room and the input port is released. -/
  | tokenForwardRetry (n : Nat) (port : Nat)
  /-- THREAD_START_HELD (R143). A token held for want of a thread starts one when a thread becomes free. -/
  | threadStartHeld (n : Nat) (port : Nat)
  /-- END (R147). The END instruction ends the thread. -/
  | endThread (n : Nat) (t : Nat)
  /-- ADD (R147). The ADD instruction adds registers A and B into D. -/
  | add (n : Nat) (t : Nat)
  /-- SUB (R147). The SUB instruction subtracts register B from A into D. -/
  | sub (n : Nat) (t : Nat)
  /-- MUL (R147). The MUL instruction multiplies registers A and B into D. -/
  | mul (n : Nat) (t : Nat)
  /-- AND (R147). The AND instruction ANDs registers A and B into D. -/
  | and (n : Nat) (t : Nat)
  /-- OR (R147). The OR instruction ORs registers A and B into D. -/
  | or (n : Nat) (t : Nat)
  /-- XOR (R147). The XOR instruction XORs registers A and B into D. -/
  | xor (n : Nat) (t : Nat)
  /-- SHIFT (R147). The SHIFT instruction shifts register A by B[4:0] into D. -/
  | shift (n : Nat) (t : Nat)
  /-- LDI (R147). The LDI instruction loads a sign-extended immediate into D. -/
  | ldi (n : Nat) (t : Nat)
  /-- FSTEP (R147). The FSTEP instruction adds A and B as 16.8 fixed point into D. -/
  | fstep (n : Nat) (t : Nat)
  /-- SAMPLE (R147). The SAMPLE instruction issues a plane-sample to a lane. -/
  | sample (n : Nat) (t : Nat)
  /-- LANE_SAMPLE_DONE (R183). A lane completes a bilinear plane-sample and composites it into the ray's accumulators. -/
  | laneSampleDone (n : Nat) (lane : Nat) (q : TexelQuad) (lines : List Nat)
  /-- LD (R147). The LD instruction loads D from local memory. -/
  | ld (n : Nat) (t : Nat)
  /-- ST (R147). The ST instruction stores D to local memory. -/
  | st (n : Nat) (t : Nat)
  /-- EMIT (R147). The EMIT instruction sends a token, dropping it if the tag belongs to the fabric. -/
  | emit (n : Nat) (t : Nat)
  /-- BR (R147). The BR instruction branches when register A is not 0. -/
  | br (n : Nat) (t : Nat)
  /-- WAIT (R147). The WAIT instruction waits for the named lanes. -/
  | wait (n : Nat) (t : Nat)
  /-- CONST (R147). The CONST instruction loads a CONFIG constant into D. -/
  | const (n : Nat) (t : Nat)
  /-- BUDGET (R147). The BUDGET instruction loads the plane budget in effect into D. -/
  | budget (n : Nat) (t : Nat)
  /-- PARAM (R147). The PARAM instruction loads a personality parameter in effect into D. -/
  | param (n : Nat) (t : Nat)
  /-- BAD_OP (R147). An undefined opcode ends the thread and drops its token. -/
  | badOp (n : Nat) (t : Nat)
  /-- DROOP_DETECT (R149). The droop detector fires and the clock generator stretches the next cycle. -/
  | droopDetect (n : Nat)
  /-- QUAD_VOLTAGE_LOOP (R151). Every 50 µs a quadrant's voltage loop moves its rail one 5 mV step. -/
  | quadVoltageLoop (q : Nat) (clocks : List TileClock)
  /-- ECC_CORRECT (R153). A single-bit error in tile SRAM or a flit is corrected and charged to health. -/
  | eccCorrect (n : Nat) (flit : Bool)
  /-- CACHE_REFETCH (R153). A double-bit error in a texel cache line discards and refetches the line. -/
  | cacheRefetch (n : Nat) (line : Nat)
  /-- FLIT_POISON (R153). A double-bit error in an accepted flit makes the token poisoned. -/
  | flitPoison (n : Nat) (port : Nat)
  /-- RESIDUE_RETRY (R153). A residue mismatch runs the operation again once. -/
  | residueRetry (n : Nat) (again : Bool)
  /-- MARGIN_ALARM (R153). A timing-margin alarm after stretching is charged to health. -/
  | marginAlarm (n : Nat)
  /-- TILE_UNCORRECTABLE (R162). A tile reports an uncorrectable error, zeroes its score, sinks tokens and starts a migration. -/
  | tileUncorrectable (n : Nat) (err : TileErr)
  /-- SPARE_KAT (R155). Once per KAT_PERIOD each spare runs a known-answer test in vertical blanking and is retired on failure. -/
  | spareKat (periodic : Bool) (failed : List Nat)
  /-- TILE_CTRL_KAT (R155). FAB_TILE CTRL.KAT requests a known-answer test in the next vertical blanking. -/
  | tileCtrlKat (r : Req) (key : Nat) (n : Nat)
  /-- TILE_CTRL_MIGRATE (R164). FAB_TILE CTRL.MIGRATE requests migration of an active tile or retires a spare. -/
  | tileCtrlMigrate (r : Req) (key : Nat) (n : Nat)
  /-- TILE_INJECT (R169). A write to FAB_TILE INJECT injects a test error handled as a real one. -/
  | tileInject (n : Nat) (kind : Nat)
  /-- MIGRATION_COPY_DONE (R158). The partial frame has been written and read back, or the read-back fails and the migration restarts. -/
  | migrationCopyDone (n : Nat) (good : Bool)
  /-- MIGRATION_REDIRECT (R158). At the first subframe boundary 10 µs after the copy the spare swaps and upstream routes change. -/
  | migrationRedirect (n : Nat)
  /-- MIGRATION_DRAIN_DONE (R158). The failing tile finishes its old tokens, sends the drain marker and is retired. -/
  | migrationDrainDone (n : Nat)
  /-- DRAIN_TIMEOUT (R160). The drain has not ended 200 µs after the redirect and held tokens are dropped. -/
  | drainTimeout (n : Nat)
  /-- ROW_BAND_COMPLETE (R194). The fabric completes a row band into its buffer. -/
  | rowBandComplete (own : List Ray) (shares : List Share) (poisoned : List RayAt)
  /-- ROW_BAND_DEADLINE (R194). The panel begins the line at which a row band must be complete and the sequencer sends it. -/
  | rowBandDeadline (own : List Ray) (shares : List Share) (late : List Nat) (poisoned unfinished : List RayAt)
  /-- SIGNATURE_CHECK (R295). A region's signature is computed in its phase's subframe and compared with EXPECT. -/
  | signatureCheck (r : Nat)
  /-- SIG_LEARN (R294). COMP_SIG CTRL.LEARN makes the next signature of the region its EXPECT. -/
  | sigLearn (r : Req) (k : Nat)
  /-- SAFE_RELEASE (R297). COMP_SAFE_CTRL.RELEASE returns the stack at the next commit and resets mismatch counts. -/
  | safeRelease (r : Req)
  /-- SAFE_FORCE (R297). COMP_SAFE_CTRL.FORCE substitutes the safe image at the next commit. -/
  | safeForce (r : Req)
  /-- RTP_PACKET (R202). An RTP packet arrives, is filtered, SSRC-locked and its fragment placed into its unit. -/
  | rtpPacket (p : RtpPacket)
  /-- SSRC_TIMEOUT (R203). No packet of the locked SSRC arrives for 2,000 ms and the lock is released. -/
  | ssrcTimeout
  /-- DMA_HEAD_WRITE (R206). The host writes INTK_DMA_HEAD, queuing descriptors or failing with BAD_HEAD. -/
  | dmaHeadWrite (r : Req) (v : Nat)
  /-- DMA_START (R206). INTK_DMA_CTRL.START starts the intake ring. -/
  | dmaStart (r : Req)
  /-- DMA_RESTART (R208). INTK_DMA_CTRL.RESTART clears ERR and HALTED and resumes a halted ring. -/
  | dmaRestart (r : Req)
  /-- DMA_STOP (R206). INTK_DMA_CTRL.STOP stops the ring after the descriptor in flight. -/
  | dmaStop (r : Req)
  /-- DMA_DESCRIPTOR_PROCESS (R208). The module checks the next descriptor and starts moving its bytes, or halts the ring. -/
  | dmaDescriptorProcess (d : Option (List Byte))
  /-- DMA_DESCRIPTOR_DONE (R206). All bytes of a descriptor are in the intake buffer; TAIL advances and is written back. -/
  | dmaDescriptorDone (bytes : List Byte) (abort : Bool)
  /-- DMA_RING_RESUME (R207). A ring stalled on a full intake buffer resumes once frames are displayed. -/
  | dmaRingResume (d : Option (List Byte))
  /-- SEQUENCE_HEADER (R215). A sequence header unit is checked and begins a new sequence, or is ignored as a repeat, or refused. -/
  | sequenceHeader
  /-- FRAME_HEADER (R216). A frame header unit sets the frame's timing, counts and depth table and is checked against the window. -/
  | frameHeader
  /-- PLANE_ATLAS (R217). A plane atlas unit is decrypted and its picture sent to the track's decoder. -/
  | planeAtlas
  /-- MASK_SECTION (R220). A mask section unit is decoded and its alpha tiles written. -/
  | maskSection
  /-- RESIDUAL_SET (R221). A residual set unit is decoded and checked for its frame. -/
  | residualSet
  /-- OVERLAY_CUE (R222). An overlay cue unit is submitted to the blitter or discarded. -/
  | overlayCue
  /-- SIGNATURE_CUE (R222). A signature cue unit hands expected values to the compositor or is discarded. -/
  | signatureCue
  /-- KEY_CUE (R222). A key cue binds key indices to KIDs from its frame onwards. -/
  | keyCue
  /-- PRIVATE_UNIT (R213). A private unit is skipped. -/
  | privateUnit
  /-- REFUSED_UNIT (R213). A unit of an undefined type, or breaking its limits, is discarded and counted. -/
  | refusedUnit
  /-- PICTURE_DECODED (R226). A decoder finishes a picture, converts it and writes its regions, or keeps it only as reference if late. -/
  | pictureDecoded (e : Nat) (r : PicResult)
  /-- DECODE_DEADLINE (R227). A frame's decode deadline passes; late units are discarded and a frame without header is lost. -/
  | decodeDeadline (f : Nat)
  /-- DP_PICTURE (R209). A DisplayPort picture is widened and written directly as plane 0 with its depth table. -/
  | dpPicture (d : DpPicture)
  /-- DP_TIMING_CHANGE (R504). The DisplayPort source changes timing and the next picture starts a new sequence. -/
  | dpTimingChange (w h mhz bits enc curve : Nat) (limited : Bool)
  /-- DP_LINK_LOSS (R504). The DisplayPort link or HPD is lost and the last frame repeats. -/
  | dpLinkLoss
  /-- LZC_HEAD_WRITE (R244). The host writes LZC_RING_HEAD, queuing codec jobs or setting ERR 0x24. -/
  | lzcHeadWrite (r : Req) (v : Nat)
  /-- LZC_RING_START (R244). LZC_RING_CTRL.START starts the codec ring. -/
  | lzcRingStart (r : Req)
  /-- LZC_RING_RESTART (R244). LZC_RING_CTRL.RESTART clears ERR and HALTED. -/
  | lzcRingRestart (r : Req)
  /-- LZC_RING_STOP (R244). LZC_RING_CTRL.STOP stops the ring after the jobs taken. -/
  | lzcRingStop (r : Req)
  /-- LZC_JOB_TAKE (R254). A free engine takes the waiting job of the highest class and checks its descriptor. -/
  | lzcJobTake (e : Nat)
  /-- LZC_JOB_END (R243). A codec job ends DONE, SUSPENDED, NEED_INPUT or ERROR and its completion words are written. -/
  | lzcJobEnd (e : Nat)
  /-- LZC_ABORT (R252). A keyed LZC_ENG CTRL.ABORT ends the running job with ERR 0x3B. -/
  | lzcAbort (r : Req) (e : Nat) (key : Nat)
  /-- SINTER_FLATTEN_START (R270). The compositor starts flattening a candidate group that is static and meets the disparity bound. -/
  | sinterFlattenStart (region k0 k1 : Nat)
  /-- SINTER_FLATTEN_DONE (R272). A flattening and its expansion complete and the group becomes usable at the next commit. -/
  | sinterFlattenDone (ref : Nat) (ok : Bool)
  /-- BUF_REGISTER (R279). Writing COMP_BUF FMT with VALID registers a guarded buffer or fails with a code. -/
  | bufRegister (r : Req) (b data : Nat)
  /-- GUARDED_WRITE (R281). A write into a registered buffer completes, is counted or is held by the use guard. -/
  | guardedWrite (blt : Bool) (a : Nat) (bytes : List Byte)
  /-- HELD_WRITE_RELEASE (R283). A buffer becomes FREE, or GUARD leaves HOLD, and held writes complete in order. -/
  | heldWriteRelease
  /-- GUARD_EXPIRY (R282). A write held one light-field frame period completes at once and is counted as expired. -/
  | guardExpiry
  /-- CAL_INDEX_WRITE (R258). A write to COMP_CAL_INDEX latches a caldera descriptor into COMP_CAL_DATA. -/
  | calIndexWrite (r : Req) (data : Nat)
  /-- READY_TIMEOUT (R299). READY is still 0 2,000 ms after CORE exit and the stack plays as it stands. -/
  | readyTimeout
  /-- BLT_HEAD_WRITE (R303). The host writes BLT_RING_HEAD, queuing commands or setting ERR 0x24. -/
  | bltHeadWrite (r : Req) (v : Nat)
  /-- BLT_RING_START (R303). BLT_RING_CTRL.START starts the blitter ring. -/
  | bltRingStart (r : Req)
  /-- BLT_RING_RESTART (R303). BLT_RING_CTRL.RESTART clears ERR and HALTED. -/
  | bltRingRestart (r : Req)
  /-- BLT_RING_STOP (R303). BLT_RING_CTRL.STOP stops the ring after the command in flight. -/
  | bltRingStop (r : Req)
  /-- NOP (R305). A NOP command is checked and ends DONE with no pixels. -/
  | nop
  /-- COPY (R308). A COPY command converts and copies a source rectangle into the destination. -/
  | copy
  /-- FILL (R307). A FILL command writes COLOR into every destination pixel. -/
  | fill
  /-- DRAW (R309). A DRAW command composites the source over the destination. -/
  | draw
  /-- BLT_COMMAND_DONE (R303). A blitter command's last pixel is in DRAM and its completion words are written. -/
  | bltCommandDone
  /-- BLT_ABORT (R304). A keyed BLT_CTRL.ABORT ends the command in flight with ERR 0x55. -/
  | bltAbort (r : Req) (key : Nat)
  /-- CUE_DRAW (R311). The blitter performs an overlay cue as a COPY ahead of host commands, or discards it. -/
  | cueDraw
  /-- WM_ARM (R315). Writing BLT_WM CFG with ARM arms a watermark on an overlay line. -/
  | wmArm (r : Req) (w : Nat) (data : Nat)
  /-- LAUNCH_HANDOVER (R488). The earliest launch queue entry is handed to the sequencer 1 ms ahead, or dropped as late. -/
  | launchHandover
  /-- PANEL_TEMP_READING (R334). Panel sensor readings arrive in blanking and the band temperature and band are updated. -/
  | panelTempReading (readings : List (Nat × Nat × Int))
  /-- PANEL_TEMP_TIMEOUT (R334). No valid panel reading arrives for 16 subframes and the coldplate sensor is used. -/
  | panelTempTimeout
  /-- LENS_STEP (R331). Each 1/32 of a subframe every lens segment drives the next waveform step of its slot. -/
  | lensStep
  /-- RECT_SUBMIT (R349). A write to PSEQ_RECT_SUBMIT queues a host rectangle in FLAT partial mode. -/
  | rectSubmit (r : Req) (data : Nat)
  /-- BLANKING_START (R378). A blanking interval begins and the converter serves crack, VCOM and calibration work in order. -/
  | blankingStart (crack : CrackRead) (vref : Nat) (volts : List Nat)
  /-- VCOM_ERROR_REPORT (R353). Column drivers return each region's VCOM error and after each window the code steps. -/
  | vcomErrorReport (l : List VcomErr)
  /-- PATTERN_SELECT (R356). A write to PSEQ_PATTERN replaces the rays with a pattern from the next launch. -/
  | patternSelect (r : Req) (data : Nat)
  /-- POWER_FAIL_WARNING (R357). The supply warns of power failure; PWR_FAIL_N falls, rectangles are abandoned and power-off begins. -/
  | powerFailWarning
  /-- RAIL_POWER_GOOD (R363). A rail reports power-good and the next rail starts, or all are ON. -/
  | railPowerGood (ch : Nat) (mv : Int) (ma : Nat)
  /-- RAIL_PG_TIMEOUT (R363). A rail is not power-good within twice its soft-start and raises an undervoltage fault. -/
  | railPgTimeout (ch : Nat)
  /-- RAIL_CMD_ON (R380). RAIL_CMD.ON powers the rails on from OFF. -/
  | railCmdOn (r : Req) (key : Nat) (readings : List CrackRead)
  /-- RAIL_CMD_OFF (R365). RAIL_CMD.OFF starts an orderly power-off. -/
  | railCmdOff (r : Req) (key : Nat)
  /-- RAIL_CMD_RESTART (R370). RAIL_CMD.RESTART measures the loops and powers on from LOCKED_OFF. -/
  | railCmdRestart (r : Req) (key : Nat) (readings : List CrackRead)
  /-- RAIL_CMD_RELEARN (R376). RAIL_CMD.RELEARN makes the crack baselines be learnt at the next power-on. -/
  | railCmdRelearn (r : Req) (key : Nat)
  /-- DISCHARGE_START (R365). The subframe lines end or the cap expires and the all-gates-on discharge begins. -/
  | dischargeStart (atLineEnd : Bool)
  /-- POWER_OFF_PHASE_END (R366). A timed phase of the power-off sequence ends and the next rail falls. -/
  | powerOffPhaseEnd
  /-- RAIL_FAULT_UV (R369). A rail below its undervoltage threshold for 20 µs causes a fast power-off. -/
  | railFaultUv (chs : List Nat)
  /-- RAIL_FAULT_OC (R369). A rail at its current limit for 1 ms causes a fast power-off. -/
  | railFaultOc (chs : List Nat)
  /-- RAIL_FAULT_SHORT (R369). A rail at its limit and below half its nominal for 10 µs causes a fast power-off. -/
  | railFaultShort (chs : List Nat)
  /-- RAIL_FAULT_OV (R369). A rail above its overvoltage threshold for 5 µs causes a fast power-off and LOCKED_OFF. -/
  | railFaultOv (chs : List Nat)
  /-- RAIL_FAULT_TEMP (R369). A converter's sensor above 140 °C causes a fast power-off. -/
  | railFaultTemp (chs : List Nat)
  /-- VCOM_OC (R362). A VCOM buffer at 50 mA for 1 ms raises an overcurrent fault on its region. -/
  | vcomOc (region : Nat) (sink : Bool)
  /-- RAIL_RETRY_TIMER (R370). 1,000 ms after a fault's power-off the rails power on again if retries remain. -/
  | railRetryTimer (readings : List CrackRead)
  /-- RETRY_COUNT_RESET (R370). After 60 s ON without a fault the retry count returns to 0. -/
  | retryCountReset
  /-- LOAD_TRANSFER_DONE (R373). After a drive claim the rail load transfer completes within 50 µs. -/
  | loadTransferDone
  /-- CRACK_TIMER (R375). While rails are off or ramping each crack loop is measured every 10 ms. -/
  | crackTimer (reading : CrackRead) (outer : Bool)
  /-- LANE_DETECT_CHECK (R392). Every 100 ms a group in DETECT checks for far-end termination. -/
  | laneDetectCheck (j : Nat) (terminated : Bool)
  /-- LANE_TRAIN_DONE (R390). A group's training ends with its eyes meeting the limits. -/
  | laneTrainDone (j : Nat) (eyes : List LaneEye)
  /-- LANE_TRAIN_TIMEOUT (R392). A stage exceeds its limit and the group retrains one generation lower or fails. -/
  | laneTrainTimeout (j : Nat)
  /-- LANE_LOCK_DONE (R392). Every data lane has bit lock, valid headers and deskew. -/
  | laneLockDone (j : Nat) (at_ : List (Nat × Nat))
  /-- LANE_EXCHANGE (R393). The ends exchange generation offers and agree, or retrain at the lower offer. -/
  | laneExchange (j : Nat) (offer : Nat)
  /-- LANE_FAILED_RETRY (R392). A FAILED group returns to DETECT every 1,000 ms. -/
  | laneFailedRetry (j : Nat)
  /-- EQ_TRACK_STEP (R390). Every millisecond an ACTIVE transmitter moves a tap at most one unit. -/
  | eqTrackStep (n : Nat) (post : Bool) (up : Bool)
  /-- LANE_INVALID_HEADER (R388). A block with an invalid header is counted and the panel holds that block's drive. -/
  | laneInvalidHeader (n header ty : Nat)
  /-- LANE_LINK_LOST (R397). An ACTIVE group loses its link and retrains at its current generation. -/
  | laneLinkLost (j : Nat)
  /-- LANE_RETRAIN (R395). LANE_GRP CMD.RETRAIN reruns bring-up from TRAIN at the ceiling. -/
  | laneRetrain (r : Req) (key : Nat) (j : Nat)
  /-- LANE_TEST (R404). LANE_GRP CMD.TEST puts a DISABLED or FAILED group into TEST. -/
  | laneTest (r : Req) (key : Nat) (j : Nat)
  /-- LANE_TEST_EXIT (R404). LANE_GRP CMD.TEST_EXIT returns the group to DISABLED. -/
  | laneTestExit (r : Req) (key : Nat) (j : Nat)
  /-- LANE_LOOP_WRITE (R406). A write to LANE LOOP selects a loopback in TEST, or is ignored and recorded. -/
  | laneLoopWrite (r : Req) (n : Nat) (mode : Nat)
  /-- INJECT_ONE (R405). LANE INJECT.ONE adds a single PRBS bit error. -/
  | injectOne (n : Nat)
  /-- INJECT_RATE (R405). LANE INJECT.RATE sets a recurring PRBS error rate. -/
  | injectRate (n : Nat) (k : Nat)
  /-- LANE_POWER_DOWN (R402). A transmitter enters IDLE or SLEEP after 4 IDLE blocks within the allowed depth. -/
  | lanePowerDown (j : Nat) (tx : Bool) (pwr : Nat) (agreed : Bool)
  /-- LANE_WAKE (R402). A lane wakes to ACTIVE and sends 16 WAKE blocks. -/
  | laneWake (j : Nat) (tx : Bool)
  /-- MEM_REQUEST (R413). A controller serves a ready request in class order, correcting single-bit errors. -/
  | memRequest (c : Nat) (arrive : Option MemReq) (pass : Bool)
  /-- RH_WINDOW_END (R421). The 32 ms refresh window ends and activation counts and throttles reset. -/
  | rhWindowEnd
  /-- SCRUB_READ (R416). The patrol scrubber reads and corrects the data space as class B traffic. -/
  | scrubRead (addr : Nat) (ecc : EccOutcome)
  /-- PAGE_IDLE_CLOSE (R417). A bank idle for MEM_POLICY.IDLE × 8 ns closes its page. -/
  | pageIdleClose (ch : Nat) (bank : Nat)
  /-- REFRESH_DUE (R418). A channel's refresh falls due and is issued, or postponed while class P is ready. -/
  | refreshDue (ch : Nat) (postpone : Bool)
  /-- GEYSER_BURST (R419). With no class P ready the channel pays its whole refresh debt back to back. -/
  | geyserBurst (ch : Nat)
  /-- MR4_READ (R420). Every 16 ms mode register 4 is read and the channel enters or leaves the hot range. -/
  | mr4Read (ch : Nat) (code : Nat) (rate : Mr4Rate)
  /-- EYE_TRACK (R425). Every 4 ms each channel checks its eyes and moves a delay one step. -/
  | eyeTrack (ch : Nat) (r0 : Nat) (w0 : Nat) (r1 : Nat) (w1 : Nat) (centres : List Int)
  /-- MEM_FREQ_REQUEST (R426). A write of MEM_FREQ.REQ requests a data-rate change, held or refused. -/
  | memFreqRequest (v : Nat)
  /-- MEM_FREQ_CHANGE_START (R427). At the end of a subframe's active lines all controllers begin the rate change. -/
  | memFreqChangeStart
  /-- MEM_FREQ_CHANGE_DONE (R427). The rate change ends, held requests are served and EFF reads the new rate. -/
  | memFreqChangeDone
  /-- MEM_UNFREEZE (R433). A keyed caretaker MEM_C CMD.UNFREEZE during CORE releases a frozen controller. -/
  | memUnfreeze (r : Req) (key : Nat) (c : Nat)
  /-- FREEZE_CORE_TIMEOUT (R432). No CORE has begun DELAY_MS after a freeze and the caretaker requests CORE itself. -/
  | freezeCoreTimeout
  /-- REGION_WRITE (R434). A caretaker write to a region table entry takes effect or is refused. -/
  | regionWrite (r : Req) (e : Nat) (k : Nat) (data : Word)
  /-- PAIR_HELLO (R438). PAIR_HELLO is exchanged and each module settles its letter. -/
  | pairHello (role : Nat) (serial : Nat)
  /-- ROLE_SETTLE (R440). Before stage 0x05 the module settles ACTIVE, MIRROR, SOLO or DETACHED. -/
  | roleSettle (otherHolds : Bool) (port : Nat)
  /-- DRIVE_GRANT_REPORT (R442). The return channel reports the panel's port switch and the losing module yields. -/
  | driveGrantReport (own : Bool)
  /-- HEARTBEAT_SEND (R445). Every 25 µs the pair link sends a HEARTBEAT. -/
  | heartbeatSend
  /-- HEARTBEAT (R445). A HEARTBEAT packet arrives and updates the partner's state and fitness. -/
  | heartbeat (time : Nat) (sf : Nat) (state : Nat) (fit : Nat) (cause : Nat)
  /-- HEARTBEAT_MISS (R454). No HEARTBEAT arrives for HB_MISS intervals; a MIRROR takes the drive, an ACTIVE sets PARTNER_LOST. -/
  | heartbeatMiss
  /-- PAIR_ACK_SEND (R444). The receiver sends an ACK at least every 1 µs while sequenced packets arrive. -/
  | pairAckSend
  /-- PAIR_ACK (R444). An ACK packet arrives acknowledging sequenced packets. -/
  | pairAck (link : Option Nat) (seq : Nat)
  /-- PAIR_RESEND_TIMEOUT (R444). 4 µs without an ACK resends from the first unacknowledged packet, or loses the link. -/
  | pairResendTimeout (link : Option Nat)
  /-- NOTICE_FAIL (R454). A NOTICE FAIL arrives and the MIRROR takes the drive. -/
  | noticeFail (cause : NoticeCause)
  /-- NOTICE_HANDOVER (R458). A NOTICE HANDOVER arrives and the MIRROR claims at the named boundary. -/
  | noticeHandover (cause : NoticeCause) (sf : Nat)
  /-- NOTICE_PANEL_FAULT (R379). A NOTICE PANEL_FAULT arrives and neither module claims the drive. -/
  | noticePanelFault (cause : NoticeCause)
  /-- NOTICE_MIRROR_DOWN (R453). A NOTICE MIRROR_DOWN arrives and the ACTIVE records it. -/
  | noticeMirrorDown (cause : NoticeCause)
  /-- PANEL_PORT_LOST_REPORT (R454). The panel reports that the driving port lost its link and the MIRROR takes the drive. -/
  | panelPortLostReport
  /-- MIRROR_WRITE (R446). A forwarded WRITE packet is applied on the MIRROR as a partner access. -/
  | mirrorWrite (off : Nat) (data : Word)
  /-- MIRROR_STROBE (R447). A forwarded STROBE packet schedules a strobe or activation at its target point. -/
  | mirrorStrobe (value : Word) (time : Bool) (target : Nat) (digest : List Byte) (act : Bool)
  /-- DELTA (R449). A DELTA packet of compositor decisions is received and applied at its commit. -/
  | delta (d : DeltaMsg)
  /-- SNAPSHOT (R452). A SNAPSHOT packet arrives and the MIRROR applies it at the next commit. -/
  | snapshot (d : SnapshotMsg) (digest : List Byte)
  /-- PAIR_CMD_HANDOVER (R458). PAIR_CMD.HANDOVER on the ACTIVE hands over the drive or is refused. -/
  | pairCmdHandover (r : Req) (key : Nat)
  /-- PAIR_CMD_RESYNC (R452). PAIR_CMD.RESYNC on the ACTIVE starts a new snapshot. -/
  | pairCmdResync (r : Req) (key : Nat)
  /-- SIGNATURES (R461). A SIGNATURES packet arrives and band signatures are compared for divergence. -/
  | signatures (sf : Nat) (sigs : List Nat) (excused : List Bool)
  /-- DIVERGENCE_KAT (R461). After persistent mismatches both modules test the mapped tiles in the next blanking. -/
  | divergenceKat (failed : List Nat)
  /-- KAT_RESULT (R462). A KAT_RESULT packet arrives and the divergence outcome is acted on. -/
  | katResult (tested : List Nat) (failed : List Nat)
  /-- TIME_PACKET (R477). A TIME packet arrives and a SYNC is answered or an offset and delay computed. -/
  | timePacket (link : Option Nat) (k : TimeKind) (info : TimeInfo)
  /-- LAUNCH_PACKET (R489). A TIME packet of KIND LAUNCH gives the MIRROR the ACTIVE's launched anchor. -/
  | launchPacket (anchor : Nat)
  /-- MAILBOX_PACKET (R518). A MAILBOX packet posts or acknowledges a partner mailbox, ignoring a repeated SEQ. -/
  | mailboxPacket (m : Nat) (word : Word) (ack : Bool) (ret : Nat) (seq : Nat)
  /-- TEPHRA_PACKET (R578). A TEPHRA packet stores a partner entry in the partner ring. -/
  | tephraPacket (e : TEntry)
  /-- ARRAY_HELLO (R468). An array HELLO arrives and the neighbour's position is checked for conflict. -/
  | arrayHello (a : Nat) (x : Nat) (y : Nat) (valid : Bool) (letter : Nat) (serial : Nat)
  /-- ARRAY_STATUS (R469). An array STATUS packet updates the neighbour's source, lock and hop count. -/
  | arrayStatus (a : Nat) (src : Nat) (locked : Bool) (hops : Nat) (gm : Nat)
  /-- ARRAY_STATUS_SEND (R469). A STATUS packet is sent on change and at least every 100 ms. -/
  | arrayStatusSend
  /-- ARRAY_BAD_PACKET (R469). An array packet of an unlisted type is discarded and counted. -/
  | arrayBadPacket (a : Nat)
  /-- ARRAY_TIME_EXCHANGE (R478). Every millisecond each ACTIVE array port starts a SYNC and REPLY exchange. -/
  | arrayTimeExchange (a : Nat)
  /-- PAIR_TIME_EXCHANGE (R480). Every 125 µs the MIRROR exchanges time with the ACTIVE over the pair link. -/
  | pairTimeExchange
  /-- PTP_MESSAGE (R476). A PTP event or general message is processed by the caretaker's protocol and servo. -/
  | ptpMessage (port : Nat) (v6 : Bool) (m : PtpMsg)
  /-- SOURCE_TIMEOUT (R473). The chosen time source gives nothing for 3 s and the clock enters holdover. -/
  | sourceTimeout
  /-- TIME_CMD_ACCEPT (R482). TIME_CMD.ACCEPT applies the pending step at once. -/
  | timeCmdAccept (r : Req) (key : Nat)
  /-- TIME_CMD_SLEW (R482). TIME_CMD.SLEW starts absorbing the pending step by a rate offset. -/
  | timeCmdSlew (r : Req) (key : Nat)
  /-- TIME_CMD_DISCARD (R482). TIME_CMD.DISCARD drops the pending step and resumes the source. -/
  | timeCmdDiscard (r : Req) (key : Nat)
  /-- SLEW_DONE (R482). The slewed step has been absorbed and the source resumes. -/
  | slewDone
  /-- PPS_OUT_EDGE (R486). TIME reaches a whole second and PPS_OUT rises for WIDTH_MS. -/
  | ppsOutEdge
  /-- PPS_IN_EDGE (R486). A rising PPS_IN edge is stamped, unless within 100 ms of the last. -/
  | ppsInEdge
  /-- TIME_LAUNCH_WRITE (R487). A write to TIME_LAUNCH queues a frame launch at the extended time. -/
  | timeLaunchWrite (r : Req) (short : Nat)
  /-- TIME_LAUNCH_FLUSH (R487). TIME_LAUNCH_CTRL.FLUSH empties the launch queue. -/
  | timeLaunchFlush (r : Req) (data : Nat)
  /-- TCXO_TRIM (R562). Once per second the caretaker trims the TCXO from its temperature table. -/
  | tcxoTrim (table : Int)
  /-- HOST_PORT_RESET (R496). A fundamental reset, hot reset or link down resets only the PCI Express port. -/
  | hostPortReset
  /-- FUNCTION_LEVEL_RESET (R496). A Function Level Reset resets the function's configuration with the link up. -/
  | functionLevelReset
  /-- BAR2_ACCESS (R495). A BAR2 access is region-checked and reaches module DRAM, or fails and is captured. -/
  | bar2Access (off : Nat) (len : Nat) (data : Option (List Byte)) (ecc : EccOutcome)
  /-- ETH_FRAME (R498). A received Ethernet frame is stamped and routed to the caretaker, the intake or dropped. -/
  | ethFrame (p : Nat) (f : EthFrame)
  /-- CAGE_RETRAIN_DONE (R497). After a MODE change the cage's links finish retraining. -/
  | cageRetrainDone (k : Nat) (links : List Nat)
  /-- QSFP_PLUG (R497). A QSFP module is plugged or unplugged and its power class read. -/
  | qsfpPlug (k : Nat) (plugged : Option (Nat × Nat))
  /-- PREVIEW_FRAME (R505). A preview frame begins and shows the latest complete capture. -/
  | previewFrame
  /-- PREVIEW_CAPTURE_DONE (R505). The output stage completes a view capture into a preview buffer. -/
  | previewCaptureDone
  /-- MBX_POST (R513). A write to a mailbox DATA stores the word and rings the receiver, or is rejected. -/
  | mbxPost (p : Party) (m : Nat) (word : Word)
  /-- MBX_ACK (R514). A write to a mailbox ACK clears FULL, stores the code and rings the sender. -/
  | mbxAck (p : Party) (m : Nat) (ret : Nat)
  /-- MBX_WITHDRAW (R515). Mailbox CTRL.WITHDRAW ends a sender's wait with code 0xFFFF. -/
  | mbxWithdraw (p : Party) (m : Nat)
  /-- CMD_PERS_LOAD (R520). The PERS_LOAD command loads a personality into a slot. -/
  | cmdPersLoad
  /-- CMD_PERS_ACTIVATE (R520). The PERS_ACTIVATE command requests activation of a slot. -/
  | cmdPersActivate
  /-- CMD_HEALTH (R520). The HEALTH command returns the health bar and status words at once. -/
  | cmdHealth
  /-- CMD_KEY_LOAD (R544). The KEY_LOAD command unseals a key blob into a key slot. -/
  | cmdKeyLoad
  /-- CMD_ATTEST (R541). The ATTEST command writes a signed attestation report for a nonce. -/
  | cmdAttest
  /-- CMD_CALIBRATE (R565). The CALIBRATE command runs the named calibration subjects. -/
  | cmdCalibrate
  /-- CMD_TEPHRA_EXPORT (R579). The TEPHRA_EXPORT command writes a gzip snapshot of the rings. -/
  | cmdTephraExport
  /-- CMD_ROLE (R458). The ROLE command hands the drive over to the partner. -/
  | cmdRole
  /-- CMD_KEY_ENROLL (R535). The KEY_ENROLL command enrols or closes an owner key slot. -/
  | cmdKeyEnroll
  /-- CMD_DEBUG_CHALLENGE (R546). The DEBUG_CHALLENGE command writes a fresh debug challenge. -/
  | cmdDebugChallenge
  /-- CMD_RESTART (R560). The RESTART command permits a restart after a thermal shutdown. -/
  | cmdRestart
  /-- CMD_BOOT (R524). The BOOT command makes the boot ROM verify and run a host-placed image. -/
  | cmdBoot (slot0 : List Byte) (slot1 : List Byte)
  /-- CMD_UNKNOWN (R522). An undefined OP or unused mailbox post is acknowledged with UNKNOWN_OP. -/
  | cmdUnknown (m : Nat)
  /-- LOCK_CLAIM (R525). A write of 1 to CARE_LOCK claims a free lock or fails. -/
  | lockClaim (p : Party) (k : Nat)
  /-- LOCK_RELEASE (R526). A write of 0 by the owner releases the lock. -/
  | lockRelease (p : Party) (k : Nat)
  /-- SVN_COMMIT_FW (R538). SEC_SVN_COMMIT.FW raises the firmware counter to the running firmware's version. -/
  | svnCommitFw (r : Req) (key : Nat)
  /-- SVN_COMMIT_PERS (R538). SEC_SVN_COMMIT.PERS raises the personality counter to the active slot's version. -/
  | svnCommitPers (r : Req) (key : Nat)
  /-- SVN_COMMIT_DONE (R539). OTP programming of a commit ends and lower slots become REJECTED. -/
  | svnCommitDone
  /-- DBG_SUBMIT (R547). SEC_DBG_CMD.SUBMIT checks a debug response and unlocks debug or fails. -/
  | dbgSubmit (r : Req) (key : Nat)
  /-- DBG_LOCK (R548). SEC_DBG_CMD.LOCK locks debug again. -/
  | dbgLock (r : Req) (key : Nat)
  /-- CHALLENGE_EXPIRY (R546). A pending debug challenge expires 300 s after issue. -/
  | challengeExpiry
  /-- KEY_EXPIRY (R545). A key slot's NOT_AFTER passes and the slot is cleared. -/
  | keyExpiry (n : Nat)
  /-- SENSOR_SAMPLE (R552). Sensors are sampled at 1 or 20 kHz, judged broken or not, and the throttle level recomputed. -/
  | sensorSample (l : List (Option (Nat × Int)))
  /-- THERMAL_CUT (R559). A 155 °C comparator trips and the module cuts power to all but AO and RAILS. -/
  | thermalCut (n : Nat) (reading : Int)
  /-- RESTART_ALLOWED (R560). Every zone stays below START for 10 s and a restart is made or awaited. -/
  | restartAllowed
  /-- SENS_REARM (R553). A keyed THM_SENS_REARM write clears a sensor's broken state. -/
  | sensRearm (r : Req) (key : Nat) (n : Nat)
  /-- VCORE_LOOP (R563). Every 1 ms the VCORE loop moves VCORE by 5 mV. -/
  | vcoreLoop (want : Nat)
  /-- CAL_REQ (R565). A keyed CAL_REQ write schedules the named calibration subjects. -/
  | calReq (r : Req) (key : Nat) (mask : Nat)
  /-- CAL_SCHEDULE (R565). A subject's temperature drift or period elapses and it is scheduled. -/
  | calSchedule
  /-- CAL_RUN_DONE (R566). A calibration run ends and records its reference temperature. -/
  | calRunDone (k : Nat)
  /-- CAL_TIMEOUT (R566). A run unfinished after 10 s is abandoned keeping its steps. -/
  | calTimeout (k : Nat)
  /-- TEPHRA_WRITE (R572). The recorder writes the next queued entry into the ring, arming or completing a freeze. -/
  | tephraWrite
  /-- TEPHRA_LOST_ENTRY (R573). Once the queue has room the recorder writes one LOST entry counting lost entries. -/
  | tephraLostEntry
  /-- TEPH_FREEZE (R575). TEPH_CMD.FREEZE writes a FREEZE_CMD marker and treats it as a trigger. -/
  | tephFreeze (r : Req) (key : Nat)
  /-- TEPH_RESUME (R576). TEPH_CMD.RESUME ends a freeze or cancels a post count. -/
  | tephResume (r : Req) (key : Nat)
  /-- TEPH_CLEAR (R574). TEPH_CMD.CLEAR empties the ring and ends any freeze. -/
  | tephClear (r : Req) (key : Nat)
  /-- TEPHRA_SAVE (R577). At the cutoff after a power-fail warning or shutdown the caretaker saves a window to flash. -/
  | tephraSave
  /-- CORR_SUMMARY (R582). Each whole second on RAW the caretaker writes correction summaries. -/
  | corrSummary
  /-- ALERT_TIMEOUT (R588). 100 ms after the last assertion ALERT_N is released. -/
  | alertTimeout
  /-- AO_SUPPLY_FALL (R589). The AO supply falls below 2.9 V and PWR_FAIL_N becomes high-impedance. -/
  | aoSupplyFall
  /-- MAINS_RETURN (R594). Mains returns after a warning; the sequence ends and the bus is held off 100 ms before POR. -/
  | mainsReturn
  /-- ETH_LINK_CHANGE (R497). An Ethernet port's link goes up or down on its own, setting ETH_IRQ_STATUS.LINK, and a lost intake link starts the 5 s return to the pattern. -/
  | ethLinkChange (p : Nat) (up : Bool)
  /-- HOST_LINK_UP (R496). The PCI Express link finishes training from Detect and reaches DL_UP, setting HOST_IRQ_STATUS.LINK_CHANGE. -/
  | hostLinkUp (gen : Nat) (width : Nat)
  /-- DP_LINK_TRAINED (R501). A DisplayPort source trains the receiver's link, which reaches stage 0x09 for stand-alone DisplayPort play and sets DPRX_IRQ_STATUS.LINK. -/
  | dpLinkTrained (rate : Nat) (lanes : Nat)
  /-- HDCP_STATE_CHANGE (R503). HDCP authentication with the source moves DPRX_STAT.HDCP through authenticating, authenticated and encrypted, which switches preview protection. -/
  | hdcpStateChange (v : Nat)
  /-- DPTX_HOTPLUG (R509). A monitor asserts or drops HPD on DP_OUT, and DPTX trains it, reads its EDID and chooses 10- or 8-bit output. -/
  | dptxHotplug (hpd : Bool) (rate : Nat) (lanes : Nat) (ten : Bool) (edid : List Byte)
  /-- PTP_ANNOUNCE_TIMEOUT (R476). The announce receipt timeout of 3 intervals expires and the best master clock algorithm drops the chosen master. -/
  | ptpAnnounceTimeout
  /-- DHCP_LEASE_TIMER (R499). A DHCPv4 lease reaches its renewal, rebinding or expiry time and the caretaker renews it or drops the address. -/
  | dhcpLeaseTimer (p : Nat) (renewed : Option Nat) (expired : Bool)
  /-- STANDBY_RAIL_SENSE (R372). A module not holding the drive senses the panel rails at power-good and brings up its own rails to the standby level. -/
  | standbyRailSense (panelUp : Bool)
  /-- RAIL_CONVERTER_COOLED (R369). A converter that faulted on TEMP cools below 120 °C and its automatic retry is allowed. -/
  | railConverterCooled (ch : Nat)
  deriving DecidableEq, Repr

end Sys2Proof
end

