-- ==== Sys2Proof/Decode.lean ====
section
/-!
DEFINITION. The decoder over the table's bits. spec/opcode_table.json gives no row of this block any bits or fields: its commands are named
events and accesses, so no word spells one.
-/

namespace Sys2Proof

/-- The command that the bits of a word spell: none, because the table gives its rows no bits. -/
def decodeTableWord (_nbits _w : Nat) : Option Instr := none

end Sys2Proof
end

