-- ==== Sys2Proof/Config.lean ====
section
/-!
DEFINITION. What the model does not fix: free values (each an opaque constant with no body, named in notes/assumptions/)
and the standard algorithms the spec only names.
-/

namespace Sys2Proof

/-- The n-th free value, `w` bits wide: a value the spec leaves undefined or does not state (log entry 1). -/
opaque Config.freeValue : (w : Nat) → Nat → BitVec w

/-- SHA-384 of a byte string (R97; FIPS 180-4 is outside the spec; log entry 2). -/
opaque Config.sha384 : List Byte → List Byte

/-- ECDSA P-384 verification: public key, digest, signature (R97; log entry 2). -/
opaque Config.ecdsaVerify : List Byte → List Byte → List Byte → Bool

/-- HSS/LMS verification: public key, digest, signature (R97; log entry 2). -/
opaque Config.hssVerify : List Byte → List Byte → List Byte → Bool

/-- The Dravuc public key pair written at manufacture: 96 bytes ECDSA, 60 bytes HSS (Table 19.1; log entry 2). -/
opaque Config.dravucKeys : List Byte

/-- The byte that stands for a notice's cause (Table 15.3 gives its width, no values; log entry 3). -/
opaque Config.noticeCauseCode : Nat → BitVec 5

/-- What SHIFT makes of register A and register B: R147 gives no direction and no rule for large amounts (log entry 17). -/
opaque Config.shift : BitVec 32 → BitVec 32 → BitVec 32

/-- The hash of a 3-byte string that chooses its chain (R240 names none; log entry 18). -/
opaque Config.hash3 : Byte → Byte → Byte → BitVec 15

/-- How the symbols of a stretch, (0, byte) or (length, distance), are cut into DEFLATE blocks at a level: of each the number of symbols, the
kind (0 stored, 1 fixed, 2 dynamic) and the header bits (R238 leaves it to the engine; log entry 18). -/
opaque Config.blockPlan : Nat → List (Nat × Nat) → List (Nat × Nat × List Bool)

/-- The kind and content of a Zstandard block of these symbols at a level (R238 leaves it to the engine; log entry 18). -/
opaque Config.zstdBlock : Nat → List (Nat × Nat) → BitVec 2 × List Byte

/-- FLEVEL of a level; MTIME and XFL of a level; the width code of a frame content size (R238 gives none; log entry 18). -/
opaque Config.flevel : Nat → BitVec 2
opaque Config.gzipTime : Nat → BitVec 40
opaque Config.sizeFlag : Nat → BitVec 2

/-- At which byte of a bad Zstandard block its badness is detected (R252; log entry 18). -/
opaque Config.badByte : List Byte → BitVec 17

/-- Light of a PQ code from 0 to 1 in cd/m², and the PQ code of a light (R285, R287; SMPTE ST 2084; log entry 19). -/
opaque Config.pqLight : Rat → Rat
opaque Config.pqCode : Rat → Rat

/-- Light in cd/m² of an HLG triple of values from 0 to 1 for a nominal peak (R285; BT.2100; log entry 19). -/
opaque Config.hlgLight : Nat → Rat × Rat × Rat → Rat × Rat × Rat

/-- x to the power 2.4 (R285; BT.1886; log entry 19). -/
opaque Config.sdrPower : Rat → Rat

/-- By how much, less 16, a channel of a tone-mapped triple lies above the exact value (R288): settings, triple, channel in (log entry 19). -/
opaque Config.toneError : List Nat → Nat × Nat × Nat → Nat → Fin 33

/-- The unique device secret, 48 bytes (Table 19.1; log entry 2). -/
opaque Config.uds : List Byte

/-- HKDF-SHA-384: input, salt, label, bytes wanted; HMAC-SHA-384: key, message (R540, R544; log entry 2). -/
opaque Config.hkdf : List Byte → List Byte → List Byte → Nat → List Byte
opaque Config.hmac : List Byte → List Byte → List Byte

/-- The P-384 public key, 96 bytes, of a key derived from these bytes; its ECDSA signature, r then s, of a digest; its ECDH with a public key,
none for one that is not on the curve (R540, R541, R544; log entry 2). -/
opaque Config.ecPublic : List Byte → List Byte
opaque Config.ecSign : List Byte → List Byte → List Byte
opaque Config.ecdh : List Byte → List Byte → Option (List Byte)

/-- The HSS signature of a digest, 5,076 bytes, by a key derived from these bytes, with an index (R540, R541; log entry 2). -/
opaque Config.hssSign : List Byte → Nat → List Byte → List Byte

/-- The opening of AES-256-GCM: key, IV, additional data, ciphertext, tag; none when the tag fails (R544; log entry 2). -/
opaque Config.gcmOpen : List Byte → List Byte → List Byte → List Byte → List Byte → Option (List Byte)

/-- AES-128 of one block, and its inverse (R231; FIPS 197 is outside the spec): key, block (log entry 2). -/
opaque Config.aesEncrypt : BitVec 128 → BitVec 128 → BitVec 128
opaque Config.aesDecrypt : BitVec 128 → BitVec 128 → BitVec 128

/-- Sizes in pixels that R52 does not give: width and height of the text block, rows between it and the health bar, width and height of the
bar (log entry 1). -/
opaque Config.idSizes : Nat × Nat × Nat × Nat × Nat

/-- The glyphs of the text block: what it says, row and column inside the block (log entry 1). -/
opaque Config.idText : List Nat → Nat → Nat → Bool

/-- The 12-bit values of the pattern's colours by channel: 0 the mid-grey field, 1 the text, 2 the green, 3 the amber, 4 the red of the health
bar (log entry 1). -/
opaque Config.idColour : Nat → Nat → BitVec 12

/-- The row of a channel address (R410 names row and column bits and gives no positions; log entry 89). -/
opaque Config.rowOf : Nat → BitVec 18

/-- The column bits of a channel address that R410 takes the low row bits XORed with (log entry 89). -/
opaque Config.columnAbove : Nat → BitVec 4

/-- The upper edge, in 0.1 °C, of the temperature range a refresh-rate code names; whether a code lies above the device's operating limit (R551;
the codes are the device's; log entry 93). -/
opaque Config.refreshEdge : Nat → Int
opaque Config.refreshOver : Nat → Bool

/-- What a DELTA packet carries (R449 names its content and gives no layout; log entry 95). -/
opaque Config.deltaBytes : DeltaMsg → List Byte

/-- What a SNAPSHOT packet carries (R452; log entry 95). -/
opaque Config.snapshotBytes : SnapshotMsg → List Byte

/-- The payload bytes of a CLAIM block (Table 13.3), which the spec leaves open (log entry 95). -/
opaque Config.claimBytes : List Nat

end Sys2Proof
end

