-- ==== Sys2Proof/Machine/RegMap.lean ====
section
/-!
DEFINITION. The BAR0 register map: one row per register (or array of registers) of the field tables of spec/02 to
spec/21, in offset order, and one field constant per field (R8, R62, R63, Table 0.3, Table 3.1, Table 3.3, Table 15.4).
-/

namespace Sys2Proof.Machine

/-- How the reset value of a register depends on its index (CTL_IRQ_ROUTE[b] = b; FAB_TILE[n].STAT.QUAD; Table 6.2's
steering defaults; the IPv6 group words; the tone table; the lane identity of Table 13.1). -/
inductive ResetKind where
  | const | index | quad | steer | mcast6 | lut | laneId
  deriving DecidableEq, Repr

/-- A 32-bit register on its own, or the LO or HI half of a 64-bit pair (R72). -/
inductive Half where
  | one | lo | hi
  deriving DecidableEq, Repr

/-- Whether Table 15.4 mirrors the register: never, always, while the depth source is the host (R199), or with a strobe
that names a group holding mirrored fields (R447). -/
inductive Mirrored where
  | no | yes | hostDepth | strobe
  deriving DecidableEq, Repr

/-- One row of the register map: name; offset of element 0; count and stride of the first and second index; the masks of
its RW, RWS, W1C, CNT, RWH and WO bits (every other bit is RO or reserved); update group (16: none); pair half; reset word;
index dependence of the reset; mirroring; the bits a SYS reset keeps; the bits a CORE reset keeps. -/
structure RegInfo where
  name : String
  base : Nat
  n1 : Nat
  s1 : Nat
  n2 : Nat
  s2 : Nat
  rw : Nat
  rws : Nat
  w1c : Nat
  cnt : Nat
  rwh : Nat
  wo : Nat
  group : Nat
  half : Half
  reset : Nat
  kind : ResetKind
  mir : Mirrored
  sysKeep : Nat
  coreKeep : Nat
  deriving DecidableEq, Repr

/-- A register field: offset of its register (element 0), strides of the two indices, lowest bit and width, and how many elements the
two indices count. A field wider than its 32-bit word, or above bit 31, spans a 64-bit pair. -/
structure Fld where
  base : Nat
  s1 : Nat
  s2 : Nat
  lsb : Nat
  width : Nat
  n1 : Nat
  n2 : Nat
  deriving DecidableEq, Repr

/-- Rows of the CTL window, 0x000000 to 0x00FFFF. -/
def regsCtl : List RegInfo := [
  ⟨"CTL_ID", 0x000000, 1, 0x4, 1, 0x4, 0, 0, 0, 0, 0, 0, 16, .one, 0x41540960, .const, .no, 0x0, 0xFFFFFFFF⟩,
  ⟨"CTL_REV", 0x000004, 1, 0x4, 1, 0x4, 0, 0, 0, 0, 0, 0, 16, .one, 0x30100, .const, .no, 0x0, 0xFFFFFF⟩,
  ⟨"CTL_SCRATCH", 0x000008, 1, 0x4, 1, 0x4, 0xFFFFFFFF, 0, 0, 0, 0, 0, 16, .one, 0x0, .const, .no, 0x0, 0xFFFFFFFF⟩,
  ⟨"CTL_UPDATE", 0x000010, 1, 0x4, 1, 0x4, 0, 0, 0, 0, 0, 0x3FFFF, 16, .one, 0x0, .const, .strobe, 0x0, 0x3FFFF⟩,
  ⟨"CTL_UPDATE_TIME", 0x000014, 1, 0x4, 1, 0x4, 0xFFFFFFFF, 0, 0, 0, 0, 0, 16, .one, 0x0, .const, .strobe, 0x0, 0xFFFFFFFF⟩,
  ⟨"CTL_UPDATE_STAT", 0x000018, 1, 0x4, 1, 0x4, 0, 0, 0xFFFF0000, 0, 0, 0, 16, .one, 0x0, .const, .no, 0x0, 0xFFFFFFFF⟩,
  ⟨"CTL_UPDATE_LATE", 0x00001C, 1, 0x4, 1, 0x4, 0, 0, 0xFFFFFFFF, 0, 0, 0, 16, .one, 0x0, .const, .no, 0x0, 0xFFFFFFFF⟩,
  ⟨"CTL_BUSERR_ADDR", 0x000030, 1, 0x4, 1, 0x4, 0, 0, 0, 0, 0, 0, 16, .one, 0x0, .const, .no, 0x0, 0xFFFFFF⟩,
  ⟨"CTL_BUSERR_INFO", 0x000034, 1, 0x4, 1, 0x4, 0, 0, 0x80000040, 0, 0, 0, 16, .one, 0x0, .const, .no, 0x0, 0x8000007F⟩,
  ⟨"CTL_BUSERR_COUNT", 0x000038, 1, 0x4, 1, 0x4, 0, 0, 0, 0xFFFFFFFF, 0, 0, 16, .one, 0x0, .const, .no, 0x0, 0xFFFFFFFF⟩,
  ⟨"CTL_IRQ_STATUS", 0x000040, 1, 0x4, 1, 0x4, 0, 0, 0xF, 0, 0, 0, 16, .one, 0x0, .const, .no, 0x0, 0xF⟩,
  ⟨"CTL_IRQ_MASK", 0x000044, 1, 0x4, 1, 0x4, 0xF, 0, 0, 0, 0, 0, 16, .one, 0x0, .const, .no, 0x0, 0xF⟩,
  ⟨"CTL_IRQ_ROUTE", 0x000100, 24, 0x4, 1, 0x4, 0x3F, 0, 0, 0, 0, 0, 16, .one, 0x0, .index, .no, 0x0, 0x3F⟩]

/-- Rows of the RST window, 0x010000 to 0x01FFFF. -/
def regsRst : List RegInfo := [
  ⟨"RST_CAUSE", 0x010000, 1, 0x4, 1, 0x4, 0, 0, 0xFF, 0xFFFF0000, 0, 0, 16, .one, 0x1, .const, .no, 0xFFFF00FF, 0xFFFF00FF⟩,
  ⟨"RST_REQ", 0x010004, 1, 0x4, 1, 0x4, 0, 0, 0, 0, 0, 0xFFFF0003, 16, .one, 0x0, .const, .no, 0x0, 0xFFFF0003⟩,
  ⟨"RST_STRAP", 0x010008, 1, 0x4, 1, 0x4, 0, 0, 0, 0, 0, 0, 16, .one, 0x0, .const, .no, 0x7FF03FF, 0x7FF03FF⟩,
  ⟨"RST_STAGE", 0x01000C, 1, 0x4, 1, 0x4, 0, 0, 0, 0xFFFF0000, 0, 0, 16, .one, 0x0, .const, .no, 0xFFFF01FF, 0xFFFF01FF⟩]

/-- Rows of the CARE window, 0x020000 to 0x02FFFF. -/
def regsCare : List RegInfo := [
  ⟨"CARE_STAT", 0x020000, 1, 0x4, 1, 0x4, 0, 0, 0, 0, 0, 0, 16, .one, 0x1, .const, .no, 0x0, 0xFFFF0003⟩,
  ⟨"CARE_MBX.DATA", 0x020100, 32, 0x10, 1, 0x10, 0xFFFFFFFF, 0, 0, 0, 0, 0, 16, .one, 0x0, .const, .no, 0xFFFFFFFF, 0xFFFFFFFF⟩,
  ⟨"CARE_MBX.STAT", 0x020104, 32, 0x10, 1, 0x10, 0, 0, 0x2, 0, 0, 0, 16, .one, 0x0, .const, .no, 0xFFFF0007, 0xFFFF0007⟩,
  ⟨"CARE_MBX.ACK", 0x020108, 32, 0x10, 1, 0x10, 0, 0, 0, 0, 0, 0xFFFF, 16, .one, 0x0, .const, .no, 0xFFFF, 0xFFFF⟩,
  ⟨"CARE_MBX.CTRL", 0x02010C, 32, 0x10, 1, 0x10, 0, 0, 0, 0, 0, 0x1, 16, .one, 0x0, .const, .no, 0x1, 0x1⟩,
  ⟨"CARE_MBX_FULL", 0x020400, 1, 0x4, 1, 0x4, 0, 0, 0, 0, 0, 0, 16, .one, 0x0, .const, .no, 0xFFFFFFFF, 0xFFFFFFFF⟩,
  ⟨"CARE_MBX_COUNT", 0x020404, 1, 0x4, 1, 0x4, 0, 0, 0, 0xFFFFFFFF, 0, 0, 16, .one, 0x0, .const, .no, 0xFFFFFFFF, 0xFFFFFFFF⟩,
  ⟨"CARE_ARG", 0x020500, 8, 0x4, 1, 0x4, 0xFFFFFFFF, 0, 0, 0, 0, 0, 16, .one, 0x0, .const, .no, 0xFFFFFFFF, 0xFFFFFFFF⟩,
  ⟨"CARE_RES", 0x020520, 8, 0x4, 1, 0x4, 0, 0, 0, 0, 0, 0, 16, .one, 0x0, .const, .no, 0xFFFFFFFF, 0xFFFFFFFF⟩,
  ⟨"CARE_RES_TAG", 0x020540, 1, 0x4, 1, 0x4, 0, 0, 0, 0, 0, 0, 16, .one, 0x0, .const, .no, 0xFF, 0xFF⟩,
  ⟨"CARE_LOCK", 0x020600, 16, 0x4, 1, 0x4, 0x7, 0, 0, 0, 0, 0, 16, .one, 0x0, .const, .no, 0x7, 0x7⟩,
  ⟨"CARE_LOCK_STAT", 0x020680, 1, 0x4, 1, 0x4, 0, 0, 0, 0xFFFFFFFF, 0, 0, 16, .one, 0x0, .const, .no, 0x0, 0xFFFFFFFF⟩,
  ⟨"CARE_IRQ_STATUS", 0x020700, 1, 0x4, 1, 0x4, 0, 0, 0xF, 0, 0, 0, 16, .one, 0x0, .const, .no, 0x0, 0xF⟩,
  ⟨"CARE_IRQ_MASK", 0x020704, 1, 0x4, 1, 0x4, 0xF, 0, 0, 0, 0, 0, 16, .one, 0x0, .const, .no, 0x0, 0xF⟩]

/-- Rows of the SEC window, 0x030000 to 0x03FFFF. -/
def regsSec : List RegInfo := [
  ⟨"SEC_STAT", 0x030000, 1, 0x4, 1, 0x4, 0, 0, 0, 0, 0, 0, 16, .one, 0x0, .const, .no, 0x7, 0x3FF1F⟩,
  ⟨"SEC_SVN_FW_LO", 0x030008, 1, 0x4, 1, 0x4, 0, 0, 0, 0, 0, 0, 16, .lo, 0x0, .const, .no, 0x0, 0xFFFFFFFF⟩,
  ⟨"SEC_SVN_FW_HI", 0x03000C, 1, 0x4, 1, 0x4, 0, 0, 0, 0, 0, 0, 16, .hi, 0x0, .const, .no, 0x0, 0xFFFFFFFF⟩,
  ⟨"SEC_SVN_PERS_LO", 0x030010, 1, 0x4, 1, 0x4, 0, 0, 0, 0, 0, 0, 16, .lo, 0x0, .const, .no, 0x0, 0xFFFFFFFF⟩,
  ⟨"SEC_SVN_PERS_HI", 0x030014, 1, 0x4, 1, 0x4, 0, 0, 0, 0, 0, 0, 16, .hi, 0x0, .const, .no, 0x0, 0xFFFFFFFF⟩,
  ⟨"SEC_SVN_ROWS", 0x030018, 1, 0x4, 1, 0x4, 0, 0, 0, 0, 0, 0, 16, .one, 0x0, .const, .no, 0x0, 0x7F7F⟩,
  ⟨"SEC_SVN_COMMIT", 0x03001C, 1, 0x4, 1, 0x4, 0, 0, 0, 0, 0, 0xFFFF0003, 16, .one, 0x0, .const, .no, 0x0, 0xFFFF0003⟩,
  ⟨"SEC_SVN_RESULT", 0x030020, 1, 0x4, 1, 0x4, 0, 0, 0, 0, 0, 0, 16, .one, 0x0, .const, .no, 0x0, 0x1FF⟩,
  ⟨"SEC_FW_SVN_LO", 0x030028, 1, 0x4, 1, 0x4, 0, 0, 0, 0, 0, 0, 16, .lo, 0x0, .const, .no, 0x0, 0xFFFFFFFF⟩,
  ⟨"SEC_FW_SVN_HI", 0x03002C, 1, 0x4, 1, 0x4, 0, 0, 0, 0, 0, 0, 16, .hi, 0x0, .const, .no, 0x0, 0xFFFFFFFF⟩,
  ⟨"SEC_FW_DIGEST", 0x030030, 12, 0x4, 1, 0x4, 0, 0, 0, 0, 0, 0, 16, .one, 0x0, .const, .no, 0x0, 0xFFFFFFFF⟩,
  ⟨"SEC_HSS_INDEX", 0x030060, 1, 0x4, 1, 0x4, 0, 0, 0, 0, 0, 0, 16, .one, 0x0, .const, .no, 0x0, 0x1FFFFF⟩,
  ⟨"SEC_HSS_LEFT", 0x030064, 1, 0x4, 1, 0x4, 0, 0, 0, 0, 0, 0, 16, .one, 0x0, .const, .no, 0x0, 0x1FFFFF⟩,
  ⟨"SEC_DBG_ADDR_LO", 0x030070, 1, 0x4, 1, 0x4, 0xFFFFFFFF, 0, 0, 0, 0, 0, 16, .lo, 0x0, .const, .no, 0x0, 0xFFFFFFFF⟩,
  ⟨"SEC_DBG_ADDR_HI", 0x030074, 1, 0x4, 1, 0x4, 0xFFFFFFFF, 0, 0, 0, 0, 0, 16, .hi, 0x0, .const, .no, 0x0, 0xFFFFFFFF⟩,
  ⟨"SEC_DBG_LEN", 0x030078, 1, 0x4, 1, 0x4, 0xFFFF, 0, 0, 0, 0, 0, 16, .one, 0x0, .const, .no, 0x0, 0xFFFF⟩,
  ⟨"SEC_DBG_CMD", 0x03007C, 1, 0x4, 1, 0x4, 0, 0, 0, 0, 0, 0xFFFF0003, 16, .one, 0x0, .const, .no, 0x0, 0xFFFF0003⟩,
  ⟨"SEC_DBG_STAT", 0x030080, 1, 0x4, 1, 0x4, 0, 0, 0, 0xFFFF0000, 0, 0, 16, .one, 0x0, .const, .no, 0x0, 0xFFFFFFFF⟩,
  ⟨"SEC_IRQ_STATUS", 0x030100, 1, 0x4, 1, 0x4, 0, 0, 0x1F, 0, 0, 0, 16, .one, 0x0, .const, .no, 0x0, 0x1F⟩,
  ⟨"SEC_IRQ_MASK", 0x030104, 1, 0x4, 1, 0x4, 0x1F, 0, 0, 0, 0, 0, 16, .one, 0x0, .const, .no, 0x0, 0x1F⟩]

/-- Rows of the THM window, 0x040000 to 0x04FFFF. -/
def regsThm : List RegInfo := [
  ⟨"THM_CAP", 0x040000, 1, 0x4, 1, 0x4, 0, 0, 0, 0, 0, 0, 16, .one, 0x1C0846, .const, .no, 0x0, 0x1F0F7F⟩,
  ⟨"THM_CTRL", 0x040004, 1, 0x4, 1, 0x4, 0, 0x1, 0, 0, 0, 0, 10, .one, 0x0, .const, .no, 0x0, 0x1⟩,
  ⟨"THM_THRESH", 0x040008, 1, 0x4, 1, 0x4, 0, 0xFFFFFF, 0, 0, 0, 0, 10, .one, 0x968C82, .const, .no, 0x0, 0xFFFFFF⟩,
  ⟨"THM_STAT", 0x04000C, 1, 0x4, 1, 0x4, 0, 0, 0, 0, 0, 0, 16, .one, 0x0, .const, .no, 0x0, 0x3FFFFFFF⟩,
  ⟨"THM_THROTTLE", 0x040010, 1, 0x4, 1, 0x4, 0, 0, 0, 0, 0, 0, 16, .one, 0x0, .const, .no, 0x0, 0x3FF7FF7F⟩,
  ⟨"THM_COUNT", 0x040014, 1, 0x4, 1, 0x4, 0, 0, 0, 0xFFFFFFFF, 0, 0, 16, .one, 0x0, .const, .no, 0x0, 0xFFFFFFFF⟩,
  ⟨"THM_VCORE", 0x040018, 1, 0x4, 1, 0x4, 0, 0, 0, 0, 0, 0, 16, .one, 0x0, .const, .no, 0x0, 0x3FF⟩,
  ⟨"THM_TCXO", 0x04001C, 1, 0x4, 1, 0x4, 0, 0, 0, 0, 0, 0, 16, .one, 0x0, .const, .no, 0x0, 0xFFFF⟩,
  ⟨"THM_SENS_REARM", 0x040020, 1, 0x4, 1, 0x4, 0, 0, 0, 0, 0, 0xFFFF007F, 16, .one, 0x0, .const, .no, 0x0, 0xFFFF007F⟩,
  ⟨"THM_PWR_STAT", 0x040030, 1, 0x4, 1, 0x4, 0, 0, 0, 0, 0, 0, 16, .one, 0x0, .const, .no, 0x0, 0xFFFFFFF⟩,
  ⟨"THM_SENS", 0x040100, 70, 0x4, 1, 0x4, 0, 0, 0, 0, 0, 0, 16, .one, 0x0, .const, .no, 0x0, 0xF7FFFF⟩,
  ⟨"THM_ZONE", 0x040300, 8, 0x4, 1, 0x4, 0, 0, 0, 0, 0, 0, 16, .one, 0x0, .const, .no, 0x0, 0xFFFFF⟩,
  ⟨"THM_IRQ_STATUS", 0x040600, 1, 0x4, 1, 0x4, 0, 0, 0x1F, 0, 0, 0, 16, .one, 0x0, .const, .no, 0x0, 0x1F⟩,
  ⟨"THM_IRQ_MASK", 0x040604, 1, 0x4, 1, 0x4, 0x1F, 0, 0, 0, 0, 0, 16, .one, 0x0, .const, .no, 0x0, 0x1F⟩]

/-- Rows of the CAL window, 0x050000 to 0x05FFFF. -/
def regsCal : List RegInfo := [
  ⟨"CAL_CTRL", 0x050000, 1, 0x4, 1, 0x4, 0, 0xFFF03FF, 0, 0, 0, 0, 10, .one, 0x3C004F, .const, .no, 0x0, 0xFFF03FF⟩,
  ⟨"CAL_STAT", 0x050004, 1, 0x4, 1, 0x4, 0, 0, 0, 0, 0, 0, 16, .one, 0x0, .const, .no, 0x0, 0xF0F⟩,
  ⟨"CAL_REQ", 0x050008, 1, 0x4, 1, 0x4, 0, 0, 0, 0, 0, 0xFFFF000F, 16, .one, 0x0, .const, .no, 0x0, 0xFFFF000F⟩,
  ⟨"CAL_SUBJ.LAST", 0x050010, 4, 0x10, 1, 0x10, 0, 0, 0, 0, 0, 0, 16, .one, 0x0, .const, .no, 0x0, 0xFFFFFFFF⟩,
  ⟨"CAL_SUBJ.COUNT", 0x050014, 4, 0x10, 1, 0x10, 0, 0, 0, 0xFFFFFFFF, 0, 0, 16, .one, 0x0, .const, .no, 0x0, 0xFFFFFFFF⟩,
  ⟨"CAL_IRQ_STATUS", 0x050100, 1, 0x4, 1, 0x4, 0, 0, 0x3, 0, 0, 0, 16, .one, 0x0, .const, .no, 0x0, 0x3⟩,
  ⟨"CAL_IRQ_MASK", 0x050104, 1, 0x4, 1, 0x4, 0x3, 0, 0, 0, 0, 0, 16, .one, 0x0, .const, .no, 0x0, 0x3⟩]

/-- Rows of the TIME window, 0x060000 to 0x06FFFF. -/
def regsTime0 : List RegInfo := [
  ⟨"TIME_CTRL", 0x060000, 1, 0x4, 1, 0x4, 0, 0x1F, 0, 0, 0, 0, 11, .one, 0xD, .const, .no, 0x0, 0x1F⟩,
  ⟨"TIME_STAT", 0x060004, 1, 0x4, 1, 0x4, 0, 0, 0, 0, 0, 0, 16, .one, 0x3F000, .const, .no, 0x0, 0x3FF7F⟩,
  ⟨"TIME_NOW_LO", 0x060008, 1, 0x4, 1, 0x4, 0, 0, 0, 0, 0, 0, 16, .lo, 0x0, .const, .no, 0x0, 0xFFFFFFFF⟩,
  ⟨"TIME_NOW_HI", 0x06000C, 1, 0x4, 1, 0x4, 0, 0, 0, 0, 0, 0, 16, .hi, 0x0, .const, .no, 0x0, 0xFFFFFFFF⟩,
  ⟨"TIME_SHORT", 0x060010, 1, 0x4, 1, 0x4, 0, 0, 0, 0, 0, 0, 16, .one, 0x0, .const, .no, 0x0, 0xFFFFFFFF⟩,
  ⟨"TIME_RAW_LO", 0x060018, 1, 0x4, 1, 0x4, 0, 0, 0, 0, 0, 0, 16, .lo, 0x0, .const, .no, 0x0, 0xFFFFFFFF⟩,
  ⟨"TIME_RAW_HI", 0x06001C, 1, 0x4, 1, 0x4, 0, 0, 0, 0, 0, 0, 16, .hi, 0x0, .const, .no, 0x0, 0xFFFFFFFF⟩,
  ⟨"TIME_RATE_LO", 0x060020, 1, 0x4, 1, 0x4, 0, 0, 0, 0, 0, 0, 16, .lo, 0x0, .const, .no, 0x0, 0xFFFFFFFF⟩,
  ⟨"TIME_RATE_HI", 0x060024, 1, 0x4, 1, 0x4, 0, 0, 0, 0, 0, 0, 16, .hi, 0x0, .const, .no, 0x0, 0xFFFFFFFF⟩,
  ⟨"TIME_ADJ_RATE_LO", 0x060028, 1, 0x4, 1, 0x4, 0, 0xFFFFFFFF, 0, 0, 0, 0, 11, .lo, 0x0, .const, .no, 0x0, 0xFFFFFFFF⟩,
  ⟨"TIME_ADJ_RATE_HI", 0x06002C, 1, 0x4, 1, 0x4, 0, 0xFFFFFFFF, 0, 0, 0, 0, 11, .hi, 0x0, .const, .no, 0x0, 0xFFFFFFFF⟩,
  ⟨"TIME_ADJ_STEP_LO", 0x060030, 1, 0x4, 1, 0x4, 0, 0xFFFFFFFF, 0, 0, 0, 0, 11, .lo, 0x0, .const, .no, 0x0, 0xFFFFFFFF⟩,
  ⟨"TIME_ADJ_STEP_HI", 0x060034, 1, 0x4, 1, 0x4, 0, 0xFFFFFFFF, 0, 0, 0, 0, 11, .hi, 0x0, .const, .no, 0x0, 0xFFFFFFFF⟩,
  ⟨"TIME_ADJ_FRAC", 0x060038, 1, 0x4, 1, 0x4, 0, 0xFFFF, 0, 0, 0, 0, 11, .one, 0x0, .const, .no, 0x0, 0xFFFF⟩,
  ⟨"TIME_JUMP_LIM", 0x060040, 1, 0x4, 1, 0x4, 0, 0xFFFFFFFF, 0, 0, 0, 0, 11, .one, 0x3E8, .const, .no, 0x0, 0xFFFFFFFF⟩,
  ⟨"TIME_CMD", 0x060044, 1, 0x4, 1, 0x4, 0, 0, 0, 0, 0, 0xFFFF0007, 16, .one, 0x0, .const, .no, 0x0, 0xFFFF0007⟩,
  ⟨"TIME_JUMP_PEND_LO", 0x060048, 1, 0x4, 1, 0x4, 0, 0, 0, 0, 0, 0, 16, .lo, 0x0, .const, .no, 0x0, 0xFFFFFFFF⟩,
  ⟨"TIME_JUMP_PEND_HI", 0x06004C, 1, 0x4, 1, 0x4, 0, 0, 0, 0, 0, 0, 16, .hi, 0x0, .const, .no, 0x0, 0xFFFFFFFF⟩,
  ⟨"TIME_SLEW", 0x060050, 1, 0x4, 1, 0x4, 0x7F, 0, 0, 0, 0, 0, 16, .one, 0x64, .const, .no, 0x0, 0x7F⟩,
  ⟨"TIME_LOCK", 0x060054, 1, 0x4, 1, 0x4, 0xFFFF, 0, 0, 0, 0, 0, 16, .one, 0x64, .const, .no, 0x0, 0xFFFF⟩,
  ⟨"TIME_PTP", 0x060060, 1, 0x4, 1, 0x4, 0, 0x3FF07, 0, 0, 0, 0, 11, .one, 0x0, .const, .no, 0x0, 0x3FF07⟩,
  ⟨"TIME_PTP_STAT", 0x060064, 1, 0x4, 1, 0x4, 0, 0, 0, 0, 0, 0, 16, .one, 0x0, .const, .no, 0x0, 0xFFFFFF03⟩,
  ⟨"TIME_PTP_GM_LO", 0x060068, 1, 0x4, 1, 0x4, 0, 0, 0, 0, 0, 0, 16, .lo, 0x0, .const, .no, 0x0, 0xFFFFFFFF⟩,
  ⟨"TIME_PTP_GM_HI", 0x06006C, 1, 0x4, 1, 0x4, 0, 0, 0, 0, 0, 0, 16, .hi, 0x0, .const, .no, 0x0, 0xFFFFFFFF⟩]

/-- Rows of the TIME window, 0x060000 to 0x06FFFF. -/
def regsTime1 : List RegInfo := [
  ⟨"TIME_PTP_OFFSET", 0x060070, 1, 0x4, 1, 0x4, 0, 0, 0, 0, 0, 0, 16, .one, 0x0, .const, .no, 0x0, 0xFFFFFFFF⟩,
  ⟨"TIME_PPS", 0x060080, 1, 0x4, 1, 0x4, 0x3FF, 0, 0, 0, 0, 0, 16, .one, 0x64, .const, .no, 0x0, 0x3FF⟩,
  ⟨"TIME_PPS_CAP_LO", 0x060088, 1, 0x4, 1, 0x4, 0, 0, 0, 0, 0, 0, 16, .lo, 0x0, .const, .no, 0x0, 0xFFFFFFFF⟩,
  ⟨"TIME_PPS_CAP_HI", 0x06008C, 1, 0x4, 1, 0x4, 0, 0, 0, 0, 0, 0, 16, .hi, 0x0, .const, .no, 0x0, 0xFFFFFFFF⟩,
  ⟨"TIME_LAUNCH", 0x060100, 1, 0x4, 1, 0x4, 0, 0, 0, 0, 0, 0xFFFFFFFF, 16, .one, 0x0, .const, .no, 0x0, 0xFFFFFFFF⟩,
  ⟨"TIME_LAUNCH_CTRL", 0x060104, 1, 0x4, 1, 0x4, 0, 0, 0, 0, 0, 0x1, 16, .one, 0x0, .const, .no, 0x0, 0x1⟩,
  ⟨"TIME_LAUNCH_STAT", 0x060108, 1, 0x4, 1, 0x4, 0, 0, 0, 0xFFFF0000, 0, 0, 16, .one, 0x0, .const, .no, 0x0, 0xFFFF000F⟩,
  ⟨"TIME_LAUNCH_LAST_LO", 0x060110, 1, 0x4, 1, 0x4, 0, 0, 0, 0, 0, 0, 16, .lo, 0x0, .const, .no, 0x0, 0xFFFFFFFF⟩,
  ⟨"TIME_LAUNCH_LAST_HI", 0x060114, 1, 0x4, 1, 0x4, 0, 0, 0, 0, 0, 0, 16, .hi, 0x0, .const, .no, 0x0, 0xFFFFFFFF⟩,
  ⟨"TIME_IRQ_STATUS", 0x060200, 1, 0x4, 1, 0x4, 0, 0, 0xFF, 0, 0, 0, 16, .one, 0x0, .const, .no, 0x0, 0xFF⟩,
  ⟨"TIME_IRQ_MASK", 0x060204, 1, 0x4, 1, 0x4, 0xFF, 0, 0, 0, 0, 0, 16, .one, 0x0, .const, .no, 0x0, 0xFF⟩]

/-- All rows of the TIME window. -/
def regsTime : List RegInfo := regsTime0 ++ regsTime1

/-- Rows of the PERS window, 0x080000 to 0x0FFFFF. -/
def regsPers : List RegInfo := [
  ⟨"PERS_CAP", 0x080000, 1, 0x4, 1, 0x4, 0, 0, 0, 0, 0, 0, 16, .one, 0x1408, .const, .no, 0x0, 0xFFFF⟩,
  ⟨"PERS_STATE", 0x080004, 1, 0x4, 1, 0x4, 0, 0, 0, 0, 0, 0, 16, .one, 0x20000000, .const, .no, 0x0, 0x3FFF1FFF⟩,
  ⟨"PERS_ACT", 0x080008, 1, 0x4, 1, 0x4, 0, 0, 0, 0, 0, 0x37, 16, .one, 0x0, .const, .yes, 0x0, 0x37⟩,
  ⟨"PERS_ACT_TIME", 0x08000C, 1, 0x4, 1, 0x4, 0xFFFFFFFF, 0, 0, 0, 0, 0, 16, .one, 0x0, .const, .yes, 0x0, 0xFFFFFFFF⟩,
  ⟨"PERS_CTRL", 0x080010, 1, 0x4, 1, 0x4, 0x1, 0, 0, 0, 0, 0, 16, .one, 0x1, .const, .no, 0x0, 0x1⟩,
  ⟨"PERS_LAST", 0x080014, 1, 0x4, 1, 0x4, 0, 0, 0, 0xFFFF0000, 0, 0, 16, .one, 0x0, .const, .no, 0x0, 0xFFFFFF07⟩,
  ⟨"PERS_CONTENTION", 0x080018, 1, 0x4, 1, 0x4, 0, 0, 0, 0xFFFFFFFF, 0, 0, 16, .one, 0x0, .const, .no, 0x0, 0xFFFFFFFF⟩,
  ⟨"PERS_PARTIAL_COUNT", 0x08001C, 1, 0x4, 1, 0x4, 0, 0, 0, 0xFFFFFFFF, 0, 0, 16, .one, 0x0, .const, .no, 0x0, 0xFFFFFFFF⟩,
  ⟨"PERS_IRQ_STATUS", 0x080020, 1, 0x4, 1, 0x4, 0, 0, 0xFF, 0, 0, 0, 16, .one, 0x0, .const, .no, 0x0, 0xFF⟩,
  ⟨"PERS_IRQ_MASK", 0x080024, 1, 0x4, 1, 0x4, 0xFF, 0, 0, 0, 0, 0, 16, .one, 0x0, .const, .no, 0x0, 0xFF⟩,
  ⟨"PERS_PARAM", 0x080400, 64, 0x4, 1, 0x4, 0, 0xFFFFFFFF, 0, 0, 0, 0, 14, .one, 0x0, .const, .yes, 0x0, 0xFFFFFFFF⟩,
  ⟨"PERS_SLOT.SRC_LO", 0x081000, 8, 0x100, 1, 0x100, 0xFFFFFFFF, 0, 0, 0, 0, 0, 16, .lo, 0x0, .const, .no, 0x0, 0xFFFFFFFF⟩,
  ⟨"PERS_SLOT.SRC_HI", 0x081004, 8, 0x100, 1, 0x100, 0xFFFFFFFF, 0, 0, 0, 0, 0, 16, .hi, 0x0, .const, .no, 0x0, 0xFFFFFFFF⟩,
  ⟨"PERS_SLOT.LEN", 0x081008, 8, 0x100, 1, 0x100, 0xFFFFFFFF, 0, 0, 0, 0, 0, 16, .one, 0x0, .const, .no, 0x0, 0xFFFFFFFF⟩,
  ⟨"PERS_SLOT.CMD", 0x08100C, 8, 0x100, 1, 0x100, 0, 0, 0, 0, 0, 0xF, 16, .one, 0x0, .const, .no, 0x0, 0xF⟩,
  ⟨"PERS_SLOT.STAT", 0x081010, 8, 0x100, 1, 0x100, 0, 0, 0, 0, 0, 0, 16, .one, 0x0, .const, .no, 0x0, 0xFFFF07⟩,
  ⟨"PERS_SLOT.ERR_OFFSET", 0x081014, 8, 0x100, 1, 0x100, 0, 0, 0, 0, 0, 0, 16, .one, 0x0, .const, .no, 0x0, 0xFFFFFFFF⟩,
  ⟨"PERS_SLOT.ID_LO", 0x081018, 8, 0x100, 1, 0x100, 0, 0, 0, 0, 0, 0, 16, .lo, 0x0, .const, .no, 0x0, 0xFFFFFFFF⟩,
  ⟨"PERS_SLOT.ID_HI", 0x08101C, 8, 0x100, 1, 0x100, 0, 0, 0, 0, 0, 0, 16, .hi, 0x0, .const, .no, 0x0, 0xFFFFFFFF⟩,
  ⟨"PERS_SLOT.FMT_LO", 0x081020, 8, 0x100, 1, 0x100, 0, 0, 0, 0, 0, 0, 16, .lo, 0x0, .const, .no, 0x0, 0xFFFFFFFF⟩,
  ⟨"PERS_SLOT.FMT_HI", 0x081024, 8, 0x100, 1, 0x100, 0, 0, 0, 0, 0, 0, 16, .hi, 0x0, .const, .no, 0x0, 0xFFFFFFFF⟩,
  ⟨"PERS_SLOT.COVER", 0x081028, 8, 0x100, 1, 0x100, 0, 0, 0, 0, 0, 0, 16, .one, 0x0, .const, .no, 0x0, 0x10F077F⟩,
  ⟨"PERS_SLOT.SV_LO", 0x081030, 8, 0x100, 1, 0x100, 0, 0, 0, 0, 0, 0, 16, .lo, 0x0, .const, .no, 0x0, 0xFFFFFFFF⟩,
  ⟨"PERS_SLOT.SV_HI", 0x081034, 8, 0x100, 1, 0x100, 0, 0, 0, 0, 0, 0, 16, .hi, 0x0, .const, .no, 0x0, 0xFFFFFFFF⟩]

/-- Rows of the FAB_TILE window, 0x100000 to 0x163FFF. -/
def regsFabTile : List RegInfo := [
  ⟨"FAB_TILE.STAT", 0x100000, 400, 0x400, 1, 0x400, 0, 0, 0, 0, 0, 0, 16, .one, 0x1FF3FF0, .quad, .no, 0x0, 0x0⟩,
  ⟨"FAB_TILE.HEALTH", 0x100004, 400, 0x400, 1, 0x400, 0, 0, 0, 0, 0, 0, 16, .one, 0xFF, .const, .no, 0x0, 0x0⟩,
  ⟨"FAB_TILE.ERR", 0x100008, 400, 0x400, 1, 0x400, 0, 0, 0, 0xFFFFFFFF, 0, 0, 16, .one, 0x0, .const, .no, 0x0, 0x0⟩,
  ⟨"FAB_TILE.MARGIN", 0x10000C, 400, 0x400, 1, 0x400, 0, 0, 0, 0xFFFFFFFF, 0, 0, 16, .one, 0x0, .const, .no, 0x0, 0x0⟩,
  ⟨"FAB_TILE.CLK", 0x100010, 400, 0x400, 1, 0x400, 0, 0, 0, 0, 0, 0, 16, .one, 0x0, .const, .no, 0x0, 0x0⟩,
  ⟨"FAB_TILE.BUDGET", 0x100014, 400, 0x400, 1, 0x400, 0, 0, 0, 0, 0, 0, 16, .one, 0x0, .const, .no, 0x0, 0x0⟩,
  ⟨"FAB_TILE.TOKENS_LO", 0x100018, 400, 0x400, 1, 0x400, 0, 0, 0, 0xFFFFFFFF, 0, 0, 16, .lo, 0x0, .const, .no, 0x0, 0x0⟩,
  ⟨"FAB_TILE.TOKENS_HI", 0x10001C, 400, 0x400, 1, 0x400, 0, 0, 0, 0xFFFFFFFF, 0, 0, 16, .hi, 0x0, .const, .no, 0x0, 0x0⟩,
  ⟨"FAB_TILE.DROP", 0x100020, 400, 0x400, 1, 0x400, 0, 0, 0, 0xFFFFFFFF, 0, 0, 16, .one, 0x0, .const, .no, 0x0, 0x0⟩,
  ⟨"FAB_TILE.ERRX", 0x100024, 400, 0x400, 1, 0x400, 0, 0, 0, 0xFFFFFFFF, 0, 0, 16, .one, 0x0, .const, .no, 0x0, 0x0⟩,
  ⟨"FAB_TILE.EVENT", 0x100028, 400, 0x400, 1, 0x400, 0, 0, 0x7F, 0, 0, 0, 16, .one, 0x0, .const, .no, 0x0, 0x0⟩,
  ⟨"FAB_TILE.CTRL", 0x10002C, 400, 0x400, 1, 0x400, 0, 0, 0, 0, 0, 0xFFFF0003, 16, .one, 0x0, .const, .no, 0x0, 0x0⟩,
  ⟨"FAB_TILE.INJECT", 0x100030, 400, 0x400, 1, 0x400, 0, 0, 0, 0, 0, 0x7, 16, .one, 0x0, .const, .no, 0x0, 0x0⟩,
  ⟨"FAB_TILE.KAT", 0x100034, 400, 0x400, 1, 0x400, 0, 0, 0, 0, 0, 0, 16, .one, 0x0, .const, .no, 0x0, 0x0⟩]

/-- Rows of the FAB window, 0x1F0000 to 0x1FFFFF. -/
def regsFab : List RegInfo := [
  ⟨"FAB_CAP", 0x1F0000, 1, 0x4, 1, 0x4, 0, 0, 0, 0, 0, 0, 16, .one, 0x31190, .const, .no, 0x0, 0x0⟩,
  ⟨"FAB_CTRL", 0x1F0004, 1, 0x4, 1, 0x4, 0xFF01, 0, 0, 0, 0, 0, 16, .one, 0xA00, .const, .no, 0x0, 0x0⟩,
  ⟨"FAB_STAT", 0x1F0008, 1, 0x4, 1, 0x4, 0, 0, 0, 0, 0, 0, 16, .one, 0x0, .const, .no, 0x0, 0x0⟩,
  ⟨"FAB_HEALTH_WEIGHT", 0x1F000C, 1, 0x4, 1, 0x4, 0xFFFFFFFF, 0, 0, 0, 0, 0, 16, .one, 0x4080401, .const, .no, 0x0, 0x0⟩,
  ⟨"FAB_MIG_COUNT", 0x1F0010, 1, 0x4, 1, 0x4, 0, 0, 0, 0xFFFFFFFF, 0, 0, 16, .one, 0x0, .const, .no, 0x0, 0x0⟩,
  ⟨"FAB_MIG_LAST", 0x1F0014, 1, 0x4, 1, 0x4, 0, 0, 0, 0, 0, 0, 16, .one, 0x0, .const, .no, 0x0, 0x0⟩,
  ⟨"FAB_IRQ_STATUS", 0x1F0020, 1, 0x4, 1, 0x4, 0, 0, 0xF, 0, 0, 0, 16, .one, 0x0, .const, .no, 0x0, 0xF⟩,
  ⟨"FAB_IRQ_MASK", 0x1F0024, 1, 0x4, 1, 0x4, 0xF, 0, 0, 0, 0, 0, 16, .one, 0x0, .const, .no, 0x0, 0xF⟩,
  ⟨"FAB_QUAD.VOLT", 0x1F0100, 4, 0x10, 1, 0x10, 0, 0, 0, 0, 0, 0, 16, .one, 0x0, .const, .no, 0x0, 0x0⟩,
  ⟨"FAB_QUAD.FREQ", 0x1F0104, 4, 0x10, 1, 0x10, 0, 0, 0, 0, 0, 0, 16, .one, 0x0, .const, .no, 0x0, 0x0⟩,
  ⟨"FAB_QUAD.LIMIT", 0x1F0108, 4, 0x10, 1, 0x10, 0, 0, 0x1, 0xFFFF0000, 0, 0, 16, .one, 0x0, .const, .no, 0x0, 0x0⟩,
  ⟨"FAB_EVENT_MAP", 0x1F0200, 13, 0x4, 1, 0x4, 0, 0, 0, 0, 0, 0, 16, .one, 0x0, .const, .no, 0x0, 0x0⟩]

/-- Rows of the VIEW window, 0x200000 to 0x23FFFF. -/
def regsView : List RegInfo := [
  ⟨"VIEW_MODE", 0x200000, 1, 0x4, 1, 0x4, 0, 0x3FF, 0, 0, 0, 0, 0, .one, 0x132, .const, .yes, 0x0, 0x3FF⟩,
  ⟨"VIEW_MODE_EFF", 0x200004, 1, 0x4, 1, 0x4, 0, 0, 0, 0, 0, 0, 16, .one, 0x20810132, .const, .no, 0x0, 0xFFFF07FF⟩,
  ⟨"VIEW_CTRL", 0x200008, 1, 0x4, 1, 0x4, 0x73, 0, 0, 0, 0, 0, 16, .one, 0x63, .const, .yes, 0x0, 0x73⟩,
  ⟨"VIEW_REFUSE", 0x20000C, 1, 0x4, 1, 0x4, 0, 0, 0, 0xFFFF0000, 0, 0, 16, .one, 0x0, .const, .no, 0x0, 0xFFFF73FF⟩,
  ⟨"VIEW_IGNORED", 0x200010, 1, 0x4, 1, 0x4, 0, 0, 0, 0xFFFFFFFF, 0, 0, 16, .one, 0x0, .const, .no, 0x0, 0xFFFFFFFF⟩,
  ⟨"VIEW_LENS", 0x200020, 1, 0x4, 1, 0x4, 0, 0, 0, 0, 0, 0, 16, .one, 0x1010103, .const, .no, 0x0, 0x1F1F1F7F⟩,
  ⟨"VIEW_FOCAL_FULL", 0x200024, 1, 0x4, 1, 0x4, 0, 0xFFFFFFFF, 0, 0, 0, 0, 1, .one, 0x10001000, .const, .yes, 0x0, 0xFFFFFFFF⟩,
  ⟨"VIEW_FOCAL_HORIZ", 0x200028, 1, 0x4, 1, 0x4, 0, 0xFFFFFFFF, 0, 0, 0, 0, 1, .one, 0x555, .const, .yes, 0x0, 0xFFFFFFFF⟩,
  ⟨"VIEW_STEER", 0x200040, 4, 0x10, 4, 0x4, 0, 0xFFFFFFFF, 0, 0, 0, 0, 1, .one, 0x0, .steer, .yes, 0x0, 0xFFFFFFFF⟩,
  ⟨"VIEW_DEPTH_COUNT", 0x200080, 1, 0x4, 1, 0x4, 0, 0x7F, 0, 0, 0, 0, 1, .one, 0x0, .const, .hostDepth, 0x0, 0x7F⟩,
  ⟨"VIEW_RESID", 0x200084, 1, 0x4, 1, 0x4, 0, 0x1FF, 0, 0, 0, 0, 1, .one, 0x22, .const, .hostDepth, 0x0, 0x1FF⟩,
  ⟨"VIEW_RAYS_LO", 0x200100, 1, 0x4, 1, 0x4, 0, 0, 0, 0xFFFFFFFF, 0, 0, 16, .lo, 0x0, .const, .no, 0x0, 0xFFFFFFFF⟩,
  ⟨"VIEW_RAYS_HI", 0x200104, 1, 0x4, 1, 0x4, 0, 0, 0, 0xFFFFFFFF, 0, 0, 16, .hi, 0x0, .const, .no, 0x0, 0xFFFFFFFF⟩,
  ⟨"VIEW_CUT", 0x200108, 1, 0x4, 1, 0x4, 0, 0, 0, 0xFFFFFFFF, 0, 0, 16, .one, 0x0, .const, .no, 0x0, 0xFFFFFFFF⟩,
  ⟨"VIEW_BLACK", 0x20010C, 1, 0x4, 1, 0x4, 0, 0, 0, 0xFFFFFFFF, 0, 0, 16, .one, 0x0, .const, .no, 0x0, 0xFFFFFFFF⟩,
  ⟨"VIEW_BAND", 0x200110, 1, 0x4, 1, 0x4, 0, 0, 0, 0, 0, 0, 16, .one, 0x0, .const, .no, 0x0, 0xFFFF007F⟩,
  ⟨"VIEW_IRQ_STATUS", 0x200200, 1, 0x4, 1, 0x4, 0, 0, 0x3F, 0, 0, 0, 16, .one, 0x0, .const, .no, 0x0, 0x3F⟩,
  ⟨"VIEW_IRQ_MASK", 0x200204, 1, 0x4, 1, 0x4, 0x3F, 0, 0, 0, 0, 0, 16, .one, 0x0, .const, .no, 0x0, 0x3F⟩,
  ⟨"VIEW_DEPTH.Z", 0x201000, 64, 0x20, 1, 0x20, 0, 0xFFFFFFFF, 0, 0, 0, 0, 1, .one, 0x0, .const, .hostDepth, 0x0, 0xFFFFFFFF⟩,
  ⟨"VIEW_DEPTH.ORG_X", 0x201004, 64, 0x20, 1, 0x20, 0, 0xFFFFFFFF, 0, 0, 0, 0, 1, .one, 0x0, .const, .hostDepth, 0x0, 0xFFFFFFFF⟩,
  ⟨"VIEW_DEPTH.ORG_Y", 0x201008, 64, 0x20, 1, 0x20, 0, 0xFFFFFFFF, 0, 0, 0, 0, 1, .one, 0x0, .const, .hostDepth, 0x0, 0xFFFFFFFF⟩,
  ⟨"VIEW_DEPTH.SCALE", 0x20100C, 64, 0x20, 1, 0x20, 0, 0xFFFFFF, 0, 0, 0, 0, 1, .one, 0x0, .const, .hostDepth, 0x0, 0xFFFFFF⟩,
  ⟨"VIEW_DEPTH.SIZE", 0x201010, 64, 0x20, 1, 0x20, 0, 0xFFFF, 0, 0, 0, 0, 1, .one, 0x0, .const, .hostDepth, 0x0, 0xFFFF⟩,
  ⟨"VIEW_DEPTH.FLAGS", 0x201014, 64, 0x20, 1, 0x20, 0, 0x3, 0, 0, 0, 0, 1, .one, 0x0, .const, .hostDepth, 0x0, 0x3⟩]

/-- Rows of the INTK window, 0x240000 to 0x27FFFF. -/
def regsIntk : List RegInfo := [
  ⟨"INTK_CTRL", 0x240000, 1, 0x4, 1, 0x4, 0, 0xFF, 0, 0, 0, 0, 8, .one, 0x63, .const, .yes, 0x0, 0xFF⟩,
  ⟨"INTK_STAT", 0x240004, 1, 0x4, 1, 0x4, 0, 0, 0, 0, 0, 0, 16, .one, 0x3F, .const, .no, 0x0, 0x0⟩,
  ⟨"INTK_RTP", 0x240008, 1, 0x4, 1, 0x4, 0, 0xFFFFFF, 0, 0, 0, 0, 8, .one, 0xE01748, .const, .yes, 0x0, 0xFFFFFF⟩,
  ⟨"INTK_MCAST4", 0x24000C, 1, 0x4, 1, 0x4, 0, 0xFFFFFFFF, 0, 0, 0, 0, 8, .one, 0xEFC0093C, .const, .yes, 0x0, 0xFFFFFFFF⟩,
  ⟨"INTK_MCAST6", 0x240010, 4, 0x4, 1, 0x4, 0, 0xFFFFFFFF, 0, 0, 0, 0, 8, .one, 0x0, .mcast6, .yes, 0x0, 0xFFFFFFFF⟩,
  ⟨"INTK_WINDOW", 0x240020, 1, 0x4, 1, 0x4, 0, 0xFFFF, 0, 0, 0, 0, 8, .one, 0x7D0, .const, .yes, 0x0, 0xFFFF⟩,
  ⟨"INTK_SSRC", 0x240024, 1, 0x4, 1, 0x4, 0, 0, 0, 0, 0, 0, 16, .one, 0x0, .const, .no, 0x0, 0x0⟩,
  ⟨"INTK_DMA_BASE_LO", 0x240100, 1, 0x4, 1, 0x4, 0xFFFFF000, 0, 0, 0, 0, 0, 16, .lo, 0x0, .const, .no, 0x0, 0xFFFFF000⟩,
  ⟨"INTK_DMA_BASE_HI", 0x240104, 1, 0x4, 1, 0x4, 0xFFFFFFFF, 0, 0, 0, 0, 0, 16, .hi, 0x0, .const, .no, 0x0, 0xFFFFFFFF⟩,
  ⟨"INTK_DMA_SIZE", 0x240108, 1, 0x4, 1, 0x4, 0xF, 0, 0, 0, 0, 0, 16, .one, 0x0, .const, .no, 0x0, 0xF⟩,
  ⟨"INTK_DMA_HEAD", 0x24010C, 1, 0x4, 1, 0x4, 0xFFF, 0, 0, 0, 0, 0, 16, .one, 0x0, .const, .no, 0x0, 0x0⟩,
  ⟨"INTK_DMA_TAIL", 0x240110, 1, 0x4, 1, 0x4, 0, 0, 0, 0, 0, 0, 16, .one, 0x0, .const, .no, 0x0, 0x0⟩,
  ⟨"INTK_DMA_STAT", 0x240114, 1, 0x4, 1, 0x4, 0, 0, 0, 0, 0, 0, 16, .one, 0x0, .const, .no, 0x0, 0x0⟩,
  ⟨"INTK_DMA_CTRL", 0x240118, 1, 0x4, 1, 0x4, 0, 0, 0, 0, 0, 0x7, 16, .one, 0x0, .const, .no, 0x0, 0x0⟩,
  ⟨"INTK_DMA_WB_LO", 0x240120, 1, 0x4, 1, 0x4, 0xFFFFFFFF, 0, 0, 0, 0, 0, 16, .lo, 0x0, .const, .no, 0x0, 0xFFFFFFFF⟩,
  ⟨"INTK_DMA_WB_HI", 0x240124, 1, 0x4, 1, 0x4, 0xFFFFFFFF, 0, 0, 0, 0, 0, 16, .hi, 0x0, .const, .no, 0x0, 0xFFFFFFFF⟩,
  ⟨"INTK_CONCEAL", 0x240200, 14, 0x4, 1, 0x4, 0, 0, 0, 0xFFFFFFFF, 0, 0, 16, .one, 0x0, .const, .no, 0x0, 0x0⟩,
  ⟨"INTK_IRQ_STATUS", 0x240300, 1, 0x4, 1, 0x4, 0, 0, 0xFF, 0, 0, 0, 16, .one, 0x0, .const, .no, 0x0, 0xFF⟩,
  ⟨"INTK_IRQ_MASK", 0x240304, 1, 0x4, 1, 0x4, 0xFF, 0, 0, 0, 0, 0, 16, .one, 0x0, .const, .no, 0x0, 0xFF⟩,
  ⟨"INTK_KEY.KID", 0x241000, 64, 0x20, 4, 0x4, 0, 0, 0, 0, 0, 0, 16, .one, 0x0, .const, .no, 0x0, 0x0⟩,
  ⟨"INTK_KEY.STAT", 0x241010, 64, 0x20, 1, 0x20, 0, 0, 0, 0, 0, 0, 16, .one, 0x0, .const, .no, 0x0, 0x0⟩]

/-- Rows of the TDEC window, 0x280000 to 0x2BFFFF. -/
def regsTdec : List RegInfo := [
  ⟨"TDEC_CAP", 0x280000, 4, 0x10000, 1, 0x10000, 0, 0, 0, 0, 0, 0, 16, .one, 0x10B60407, .const, .no, 0x0, 0x0⟩,
  ⟨"TDEC_CTRL", 0x280004, 4, 0x10000, 1, 0x10000, 0, 0x1, 0, 0, 0, 0, 9, .one, 0x1, .const, .no, 0x0, 0x1⟩,
  ⟨"TDEC_STAT", 0x280008, 4, 0x10000, 1, 0x10000, 0, 0, 0, 0, 0, 0, 16, .one, 0x0, .const, .no, 0x0, 0x0⟩,
  ⟨"TDEC_ERR", 0x28000C, 4, 0x10000, 1, 0x10000, 0, 0, 0, 0xFFFFFFFF, 0, 0, 16, .one, 0x0, .const, .no, 0x0, 0x0⟩,
  ⟨"TDEC_PICS_LO", 0x280010, 4, 0x10000, 1, 0x10000, 0, 0, 0, 0xFFFFFFFF, 0, 0, 16, .lo, 0x0, .const, .no, 0x0, 0x0⟩,
  ⟨"TDEC_PICS_HI", 0x280014, 4, 0x10000, 1, 0x10000, 0, 0, 0, 0xFFFFFFFF, 0, 0, 16, .hi, 0x0, .const, .no, 0x0, 0x0⟩,
  ⟨"TDEC_LATE", 0x280018, 4, 0x10000, 1, 0x10000, 0, 0, 0, 0xFFFFFFFF, 0, 0, 16, .one, 0x0, .const, .no, 0x0, 0x0⟩,
  ⟨"TDEC_IRQ_STATUS", 0x28F000, 1, 0x4, 1, 0x4, 0, 0, 0xFF, 0, 0, 0, 16, .one, 0x0, .const, .no, 0x0, 0xFF⟩,
  ⟨"TDEC_IRQ_MASK", 0x28F004, 1, 0x4, 1, 0x4, 0xFF, 0, 0, 0, 0, 0, 16, .one, 0x0, .const, .no, 0x0, 0xFF⟩]

/-- Rows of the LZC window, 0x2C0000 to 0x2FFFFF. -/
def regsLzc : List RegInfo := [
  ⟨"LZC_CAP", 0x2C0000, 1, 0x4, 1, 0x4, 0, 0, 0, 0, 0, 0, 16, .one, 0x1A17F2, .const, .no, 0x0, 0x0⟩,
  ⟨"LZC_CTRL", 0x2C0004, 1, 0x4, 1, 0x4, 0, 0x3, 0, 0, 0, 0, 9, .one, 0x3, .const, .no, 0x0, 0x0⟩,
  ⟨"LZC_RING_BASE_LO", 0x2C0100, 1, 0x4, 1, 0x4, 0xFFFFF000, 0, 0, 0, 0, 0, 16, .lo, 0x0, .const, .no, 0x0, 0xFFFFF000⟩,
  ⟨"LZC_RING_BASE_HI", 0x2C0104, 1, 0x4, 1, 0x4, 0xFFFFFFFF, 0, 0, 0, 0, 0, 16, .hi, 0x0, .const, .no, 0x0, 0xFFFFFFFF⟩,
  ⟨"LZC_RING_SIZE", 0x2C0108, 1, 0x4, 1, 0x4, 0xF, 0, 0, 0, 0, 0, 16, .one, 0x0, .const, .no, 0x0, 0xF⟩,
  ⟨"LZC_RING_HEAD", 0x2C010C, 1, 0x4, 1, 0x4, 0xFFF, 0, 0, 0, 0, 0, 16, .one, 0x0, .const, .no, 0x0, 0xFFF⟩,
  ⟨"LZC_RING_TAIL", 0x2C0110, 1, 0x4, 1, 0x4, 0, 0, 0, 0, 0, 0, 16, .one, 0x0, .const, .no, 0x0, 0xFFF⟩,
  ⟨"LZC_RING_STAT", 0x2C0114, 1, 0x4, 1, 0x4, 0, 0, 0, 0, 0, 0, 16, .one, 0x0, .const, .no, 0x0, 0x3FF⟩,
  ⟨"LZC_RING_CTRL", 0x2C0118, 1, 0x4, 1, 0x4, 0, 0, 0, 0, 0, 0x7, 16, .one, 0x0, .const, .no, 0x0, 0x7⟩,
  ⟨"LZC_DONE_COUNT", 0x2C0200, 1, 0x4, 1, 0x4, 0, 0, 0, 0xFFFFFFFF, 0, 0, 16, .one, 0x0, .const, .no, 0x0, 0x0⟩,
  ⟨"LZC_ERR_COUNT", 0x2C0204, 1, 0x4, 1, 0x4, 0, 0, 0, 0xFFFFFFFF, 0, 0, 16, .one, 0x0, .const, .no, 0x0, 0x0⟩,
  ⟨"LZC_LAST_ERR", 0x2C0208, 1, 0x4, 1, 0x4, 0, 0, 0, 0, 0, 0, 16, .one, 0x0, .const, .no, 0x0, 0x0⟩,
  ⟨"LZC_LAST_ERR_OFF_LO", 0x2C0210, 1, 0x4, 1, 0x4, 0, 0, 0, 0, 0, 0, 16, .lo, 0x0, .const, .no, 0x0, 0x0⟩,
  ⟨"LZC_LAST_ERR_OFF_HI", 0x2C0214, 1, 0x4, 1, 0x4, 0, 0, 0, 0, 0, 0, 16, .hi, 0x0, .const, .no, 0x0, 0x0⟩,
  ⟨"LZC_IRQ_STATUS", 0x2C0300, 1, 0x4, 1, 0x4, 0, 0, 0xF, 0, 0, 0, 16, .one, 0x0, .const, .no, 0x0, 0xF⟩,
  ⟨"LZC_IRQ_MASK", 0x2C0304, 1, 0x4, 1, 0x4, 0xF, 0, 0, 0, 0, 0, 16, .one, 0x0, .const, .no, 0x0, 0xF⟩,
  ⟨"LZC_ENG.STAT", 0x2C1000, 2, 0x100, 1, 0x100, 0, 0, 0, 0, 0, 0, 16, .one, 0x0, .const, .no, 0x0, 0x0⟩,
  ⟨"LZC_ENG.IN_LO", 0x2C1008, 2, 0x100, 1, 0x100, 0, 0, 0, 0xFFFFFFFF, 0, 0, 16, .lo, 0x0, .const, .no, 0x0, 0x0⟩,
  ⟨"LZC_ENG.IN_HI", 0x2C100C, 2, 0x100, 1, 0x100, 0, 0, 0, 0xFFFFFFFF, 0, 0, 16, .hi, 0x0, .const, .no, 0x0, 0x0⟩,
  ⟨"LZC_ENG.OUT_LO", 0x2C1010, 2, 0x100, 1, 0x100, 0, 0, 0, 0xFFFFFFFF, 0, 0, 16, .lo, 0x0, .const, .no, 0x0, 0x0⟩,
  ⟨"LZC_ENG.OUT_HI", 0x2C1014, 2, 0x100, 1, 0x100, 0, 0, 0, 0xFFFFFFFF, 0, 0, 16, .hi, 0x0, .const, .no, 0x0, 0x0⟩,
  ⟨"LZC_ENG.JOBS", 0x2C1018, 2, 0x100, 1, 0x100, 0, 0, 0, 0xFFFFFFFF, 0, 0, 16, .one, 0x0, .const, .no, 0x0, 0x0⟩,
  ⟨"LZC_ENG.CTRL", 0x2C101C, 2, 0x100, 1, 0x100, 0, 0, 0, 0, 0, 0xFFFF0001, 16, .one, 0x0, .const, .no, 0x0, 0x0⟩]

/-- Rows of the COMP window, 0x300000 to 0x33FFFF. -/
def regsComp0 : List RegInfo := [
  ⟨"COMP_CAP", 0x300000, 1, 0x4, 1, 0x4, 0, 0, 0, 0, 0, 0, 16, .one, 0x1084, .const, .no, 0x0, 0x0⟩,
  ⟨"COMP_CTRL", 0x300004, 1, 0x4, 1, 0x4, 0xF7, 0, 0, 0, 0, 0, 16, .one, 0x86, .const, .yes, 0x0, 0xF7⟩,
  ⟨"COMP_SEQ", 0x300008, 1, 0x4, 1, 0x4, 0, 0, 0, 0, 0, 0, 16, .one, 0x0, .const, .no, 0x0, 0x0⟩,
  ⟨"COMP_SEQ_DONE", 0x30000C, 1, 0x4, 1, 0x4, 0, 0, 0, 0, 0, 0, 16, .one, 0x0, .const, .no, 0x0, 0x0⟩,
  ⟨"COMP_STAT", 0x300010, 1, 0x4, 1, 0x4, 0, 0, 0, 0, 0, 0, 16, .one, 0x155555, .const, .no, 0x0, 0x0⟩,
  ⟨"COMP_POOL_SHORT", 0x300014, 1, 0x4, 1, 0x4, 0, 0, 0, 0xFFFFFFFF, 0, 0, 16, .one, 0x0, .const, .no, 0x0, 0x0⟩,
  ⟨"COMP_CAL_INDEX", 0x300020, 1, 0x4, 1, 0x4, 0xFFFFF, 0, 0, 0, 0, 0, 16, .one, 0x0, .const, .no, 0x0, 0x0⟩,
  ⟨"COMP_CAL_DATA", 0x300024, 4, 0x4, 1, 0x4, 0, 0, 0, 0, 0, 0, 16, .one, 0x0, .const, .no, 0x0, 0x0⟩,
  ⟨"COMP_STATIC_TILES", 0x300040, 1, 0x4, 1, 0x4, 0, 0, 0, 0, 0, 0, 16, .one, 0x0, .const, .no, 0x0, 0x0⟩,
  ⟨"COMP_SINTER_STAT", 0x300044, 1, 0x4, 1, 0x4, 0, 0, 0, 0, 0, 0, 16, .one, 0x0, .const, .no, 0x0, 0x0⟩,
  ⟨"COMP_SINTER_COUNT", 0x300048, 1, 0x4, 1, 0x4, 0, 0, 0, 0xFFFFFFFF, 0, 0, 16, .one, 0x0, .const, .no, 0x0, 0x0⟩,
  ⟨"COMP_SINTER_CAP", 0x30004C, 1, 0x4, 1, 0x4, 0, 0, 0, 0, 0, 0, 16, .one, 0x0, .const, .no, 0x0, 0x0⟩,
  ⟨"COMP_GUARD_COUNT", 0x300050, 1, 0x4, 1, 0x4, 0, 0, 0, 0xFFFFFFFF, 0, 0, 16, .one, 0x0, .const, .no, 0x0, 0x0⟩,
  ⟨"COMP_TONE", 0x300100, 1, 0x4, 1, 0x4, 0, 0xFFFF000F, 0, 0, 0, 0, 2, .one, 0xCB0008, .const, .yes, 0x0, 0xFFFF000F⟩,
  ⟨"COMP_TONE_LIN", 0x300104, 1, 0x4, 1, 0x4, 0, 0x7FFFFF, 0, 0, 0, 0, 2, .one, 0x3C2710, .const, .yes, 0x0, 0x7FFFFF⟩,
  ⟨"COMP_TONE_EFF", 0x300108, 1, 0x4, 1, 0x4, 0, 0, 0, 0, 0, 0, 16, .one, 0x0, .const, .no, 0x0, 0x0⟩,
  ⟨"COMP_PANEL_RANGE", 0x30010C, 1, 0x4, 1, 0x4, 0, 0, 0, 0, 0, 0, 16, .one, 0x0, .const, .no, 0x0, 0x0⟩,
  ⟨"COMP_SAFE_CFG", 0x300200, 1, 0x4, 1, 0x4, 0, 0x1F, 0, 0, 0, 0, 3, .one, 0x0, .const, .yes, 0x0, 0x1F⟩,
  ⟨"COMP_SAFE_CTRL", 0x300204, 1, 0x4, 1, 0x4, 0, 0, 0, 0, 0, 0x3, 16, .one, 0x0, .const, .yes, 0x0, 0x0⟩,
  ⟨"COMP_SAFE_STAT", 0x300208, 1, 0x4, 1, 0x4, 0, 0, 0, 0xFFFF0000, 0, 0, 16, .one, 0x0, .const, .no, 0x0, 0x0⟩,
  ⟨"COMP_OVLY.CFG", 0x300300, 4, 0x20, 1, 0x20, 0, 0x7FF, 0, 0, 0, 0, 4, .one, 0x2, .const, .yes, 0x0, 0x7FF⟩,
  ⟨"COMP_OVLY.SRC", 0x300304, 4, 0x20, 1, 0x20, 0, 0xFFFFFFFF, 0, 0, 0, 0, 4, .one, 0x0, .const, .yes, 0x0, 0xFFFFFFFF⟩,
  ⟨"COMP_OVLY.STAT", 0x300308, 4, 0x20, 1, 0x20, 0, 0, 0, 0, 0, 0, 16, .one, 0x0, .const, .no, 0x0, 0x0⟩,
  ⟨"COMP_BUF.BASE_LO", 0x300400, 16, 0x20, 1, 0x20, 0xFFFFFFFF, 0, 0, 0, 0, 0, 16, .lo, 0x0, .const, .yes, 0x0, 0xFFFFFFFF⟩]

/-- Rows of the COMP window, 0x300000 to 0x33FFFF. -/
def regsComp1 : List RegInfo := [
  ⟨"COMP_BUF.BASE_HI", 0x300404, 16, 0x20, 1, 0x20, 0xFFFFFFFF, 0, 0, 0, 0, 0, 16, .hi, 0x0, .const, .yes, 0x0, 0xFFFFFFFF⟩,
  ⟨"COMP_BUF.PITCH", 0x300408, 16, 0x20, 1, 0x20, 0xFFFFF, 0, 0, 0, 0, 0, 16, .one, 0x0, .const, .yes, 0x0, 0xFFFFF⟩,
  ⟨"COMP_BUF.SIZE", 0x30040C, 16, 0x20, 1, 0x20, 0xFFFFFFFF, 0, 0, 0, 0, 0, 16, .one, 0x0, .const, .yes, 0x0, 0xFFFFFFFF⟩,
  ⟨"COMP_BUF.FMT", 0x300410, 16, 0x20, 1, 0x20, 0x80000001, 0, 0, 0, 0, 0, 16, .one, 0x0, .const, .yes, 0x0, 0x80000001⟩,
  ⟨"COMP_BUF.STAT", 0x300414, 16, 0x20, 1, 0x20, 0, 0, 0, 0, 0, 0, 16, .one, 0x3, .const, .no, 0x0, 0x0⟩,
  ⟨"COMP_BUF.RELEASE_SEQ", 0x300418, 16, 0x20, 1, 0x20, 0, 0, 0, 0, 0, 0, 16, .one, 0x0, .const, .no, 0x0, 0x0⟩,
  ⟨"COMP_BUF.GUARD", 0x30041C, 16, 0x20, 1, 0x20, 0, 0, 0, 0xFFFFFFFF, 0, 0, 16, .one, 0x0, .const, .no, 0x0, 0x0⟩,
  ⟨"COMP_IRQ_STATUS", 0x300600, 1, 0x4, 1, 0x4, 0, 0, 0xFF, 0, 0, 0, 16, .one, 0x0, .const, .no, 0x0, 0xFF⟩,
  ⟨"COMP_IRQ_MASK", 0x300604, 1, 0x4, 1, 0x4, 0xFF, 0, 0, 0, 0, 0, 16, .one, 0x0, .const, .no, 0x0, 0xFF⟩,
  ⟨"COMP_SIG_MISMATCH", 0x300608, 1, 0x4, 1, 0x4, 0, 0, 0xFFFF, 0, 0, 0, 16, .one, 0x0, .const, .no, 0x0, 0x0⟩,
  ⟨"COMP_TONE_LUT", 0x301000, 1025, 0x4, 1, 0x4, 0, 0xFFFFF, 0, 0, 0, 0, 2, .one, 0x0, .lut, .yes, 0x0, 0xFFFFF⟩,
  ⟨"COMP_SIG.CFG", 0x303000, 16, 0x20, 1, 0x20, 0, 0xFFFF03FF, 0, 0, 0, 0, 3, .one, 0x0, .const, .yes, 0x0, 0xFFFF03FF⟩,
  ⟨"COMP_SIG.RECT_XY", 0x303004, 16, 0x20, 1, 0x20, 0, 0xFFFFFFFF, 0, 0, 0, 0, 3, .one, 0x0, .const, .yes, 0x0, 0xFFFFFFFF⟩,
  ⟨"COMP_SIG.RECT_WH", 0x303008, 16, 0x20, 1, 0x20, 0, 0xFFFFFFFF, 0, 0, 0, 0, 3, .one, 0x0, .const, .yes, 0x0, 0xFFFFFFFF⟩,
  ⟨"COMP_SIG.EXPECT", 0x30300C, 16, 0x20, 1, 0x20, 0, 0xFFFFFFFF, 0, 0, 0, 0, 3, .one, 0x0, .const, .yes, 0x0, 0xFFFFFFFF⟩,
  ⟨"COMP_SIG.LAST", 0x303010, 16, 0x20, 1, 0x20, 0, 0, 0, 0, 0, 0, 16, .one, 0x0, .const, .no, 0x0, 0x0⟩,
  ⟨"COMP_SIG.STAT", 0x303014, 16, 0x20, 1, 0x20, 0, 0, 0, 0xFFFF0000, 0, 0, 16, .one, 0x0, .const, .no, 0x0, 0x0⟩,
  ⟨"COMP_SIG.CTRL", 0x303018, 16, 0x20, 1, 0x20, 0, 0, 0, 0, 0, 0x1, 16, .one, 0x0, .const, .yes, 0x0, 0x0⟩]

/-- All rows of the COMP window. -/
def regsComp : List RegInfo := regsComp0 ++ regsComp1

/-- Rows of the BLT window, 0x340000 to 0x37FFFF. -/
def regsBlt : List RegInfo := [
  ⟨"BLT_CAP", 0x340000, 1, 0x4, 1, 0x4, 0, 0, 0, 0, 0, 0, 16, .one, 0x243F, .const, .no, 0x0, 0x0⟩,
  ⟨"BLT_CTRL", 0x340004, 1, 0x4, 1, 0x4, 0, 0, 0, 0, 0, 0xFFFF0001, 16, .one, 0x0, .const, .no, 0x0, 0x0⟩,
  ⟨"BLT_CUE_CTRL", 0x340008, 1, 0x4, 1, 0x4, 0, 0xF, 0, 0, 0, 0, 4, .one, 0xF, .const, .yes, 0x0, 0xF⟩,
  ⟨"BLT_CUE", 0x34000C, 1, 0x4, 1, 0x4, 0, 0, 0, 0xFFFFFFFF, 0, 0, 16, .one, 0x0, .const, .no, 0x0, 0x0⟩,
  ⟨"BLT_RING_BASE_LO", 0x340100, 1, 0x4, 1, 0x4, 0xFFFFF000, 0, 0, 0, 0, 0, 16, .lo, 0x0, .const, .no, 0x0, 0xFFFFF000⟩,
  ⟨"BLT_RING_BASE_HI", 0x340104, 1, 0x4, 1, 0x4, 0xFFFFFFFF, 0, 0, 0, 0, 0, 16, .hi, 0x0, .const, .no, 0x0, 0xFFFFFFFF⟩,
  ⟨"BLT_RING_SIZE", 0x340108, 1, 0x4, 1, 0x4, 0xF, 0, 0, 0, 0, 0, 16, .one, 0x0, .const, .no, 0x0, 0xF⟩,
  ⟨"BLT_RING_HEAD", 0x34010C, 1, 0x4, 1, 0x4, 0xFFF, 0, 0, 0, 0, 0, 16, .one, 0x0, .const, .no, 0x0, 0xFFF⟩,
  ⟨"BLT_RING_TAIL", 0x340110, 1, 0x4, 1, 0x4, 0, 0, 0, 0, 0, 0, 16, .one, 0x0, .const, .no, 0x0, 0xFFF⟩,
  ⟨"BLT_RING_STAT", 0x340114, 1, 0x4, 1, 0x4, 0, 0, 0, 0, 0, 0, 16, .one, 0x0, .const, .no, 0x0, 0x7FF⟩,
  ⟨"BLT_RING_CTRL", 0x340118, 1, 0x4, 1, 0x4, 0, 0, 0, 0, 0, 0x7, 16, .one, 0x0, .const, .no, 0x0, 0x7⟩,
  ⟨"BLT_DONE_COUNT", 0x340200, 1, 0x4, 1, 0x4, 0, 0, 0, 0xFFFFFFFF, 0, 0, 16, .one, 0x0, .const, .no, 0x0, 0x0⟩,
  ⟨"BLT_LAST_ERR", 0x340204, 1, 0x4, 1, 0x4, 0, 0, 0, 0, 0, 0, 16, .one, 0x0, .const, .no, 0x0, 0x0⟩,
  ⟨"BLT_WM.CFG", 0x340300, 4, 0x10, 1, 0x10, 0, 0, 0, 0, 0x80037FFF, 0, 16, .one, 0x0, .const, .no, 0x0, 0x0⟩,
  ⟨"BLT_WM.STAT", 0x340304, 4, 0x10, 1, 0x10, 0, 0, 0, 0, 0, 0, 16, .one, 0x0, .const, .no, 0x0, 0x0⟩,
  ⟨"BLT_IRQ_STATUS", 0x340400, 1, 0x4, 1, 0x4, 0, 0, 0xFF, 0, 0, 0, 16, .one, 0x0, .const, .no, 0x0, 0xFF⟩,
  ⟨"BLT_IRQ_MASK", 0x340404, 1, 0x4, 1, 0x4, 0xFF, 0, 0, 0, 0, 0, 16, .one, 0x0, .const, .no, 0x0, 0xFF⟩]

/-- Rows of the PSEQ window, 0x380000 to 0x3BFFFF. -/
def regsPseq0 : List RegInfo := [
  ⟨"PSEQ_CAP", 0x380000, 1, 0x4, 1, 0x4, 0, 0, 0, 0, 0, 0, 16, .one, 0x8450, .const, .no, 0x0, 0x0⟩,
  ⟨"PSEQ_CTRL", 0x380004, 1, 0x4, 1, 0x4, 0, 0x1F, 0, 0, 0, 0, 5, .one, 0x3, .const, .yes, 0x0, 0x1F⟩,
  ⟨"PSEQ_VTIME", 0x380010, 1, 0x4, 1, 0x4, 0, 0xFFFFFFFF, 0, 0, 0, 0, 6, .one, 0x40004, .const, .yes, 0x0, 0xFFFFFFFF⟩,
  ⟨"PSEQ_VTIME2", 0x380014, 1, 0x4, 1, 0x4, 0, 0xFFFF, 0, 0, 0, 0, 6, .one, 0x58, .const, .yes, 0x0, 0xFFFFFFFF⟩,
  ⟨"PSEQ_HTIME", 0x380018, 1, 0x4, 1, 0x4, 0, 0xFFFFFFFF, 0, 0, 0, 0, 6, .one, 0x20036, .const, .yes, 0x0, 0xFFFFFFFF⟩,
  ⟨"PSEQ_HTIME2", 0x38001C, 1, 0x4, 1, 0x4, 0, 0xFFFFFFFF, 0, 0, 0, 0, 6, .one, 0x60002, .const, .yes, 0x0, 0xFFFFFFFF⟩,
  ⟨"PSEQ_ANCHOR_LO", 0x380020, 1, 0x4, 1, 0x4, 0, 0xFFFFFFFF, 0, 0, 0, 0, 6, .lo, 0x0, .const, .yes, 0x0, 0xFFFFFFFF⟩,
  ⟨"PSEQ_ANCHOR_HI", 0x380024, 1, 0x4, 1, 0x4, 0, 0xFFFFFFFF, 0, 0, 0, 0, 6, .hi, 0x0, .const, .yes, 0x0, 0xFFFFFFFF⟩,
  ⟨"PSEQ_STAT", 0x380030, 1, 0x4, 1, 0x4, 0, 0, 0, 0, 0, 0, 16, .one, 0x0, .const, .no, 0x0, 0x0⟩,
  ⟨"PSEQ_SF_LO", 0x380038, 1, 0x4, 1, 0x4, 0, 0, 0, 0xFFFFFFFF, 0, 0, 16, .lo, 0x0, .const, .no, 0x0, 0xFFFFFFFF⟩,
  ⟨"PSEQ_SF_HI", 0x38003C, 1, 0x4, 1, 0x4, 0, 0, 0, 0xFFFFFFFF, 0, 0, 16, .hi, 0x0, .const, .no, 0x0, 0xFFFFFFFF⟩,
  ⟨"PSEQ_TEMP", 0x380040, 1, 0x4, 1, 0x4, 0, 0, 0, 0, 0, 0, 16, .one, 0x0, .const, .no, 0x0, 0x0⟩,
  ⟨"PSEQ_EVENTS", 0x380044, 1, 0x4, 1, 0x4, 0, 0, 0, 0xFFFFFFFF, 0, 0, 16, .one, 0x0, .const, .no, 0x0, 0x0⟩,
  ⟨"PSEQ_HOLD_MAX", 0x380048, 1, 0x4, 1, 0x4, 0, 0xFF, 0, 0, 0, 0, 5, .one, 0x18, .const, .yes, 0x0, 0xFF⟩,
  ⟨"PSEQ_PATTERN", 0x380050, 1, 0x4, 1, 0x4, 0xFFF0003, 0, 0, 0, 0, 0, 16, .one, 0x8000001, .const, .yes, 0x0, 0xFFF0003⟩,
  ⟨"PSEQ_UNIF", 0x380060, 1, 0x4, 1, 0x4, 0, 0xFFFFFFFF, 0, 0, 0, 0, 5, .one, 0x0, .const, .yes, 0x0, 0xFFFFFFFF⟩,
  ⟨"PSEQ_UNIF_STAT", 0x380064, 1, 0x4, 1, 0x4, 0, 0, 0, 0, 0, 0, 16, .one, 0x0, .const, .no, 0x0, 0x0⟩,
  ⟨"PSEQ_UNIF_BYTES", 0x380068, 1, 0x4, 1, 0x4, 0, 0, 0, 0, 0, 0, 16, .one, 0x0, .const, .no, 0x0, 0x0⟩,
  ⟨"PSEQ_RECT_XY", 0x380070, 1, 0x4, 1, 0x4, 0xFFFFFFFF, 0, 0, 0, 0, 0, 16, .one, 0x0, .const, .yes, 0x0, 0xFFFFFFFF⟩,
  ⟨"PSEQ_RECT_WH", 0x380074, 1, 0x4, 1, 0x4, 0xFFFFFFFF, 0, 0, 0, 0, 0, 16, .one, 0x0, .const, .yes, 0x0, 0xFFFFFFFF⟩,
  ⟨"PSEQ_RECT_SUBMIT", 0x380078, 1, 0x4, 1, 0x4, 0, 0, 0, 0, 0, 0x7, 16, .one, 0x0, .const, .yes, 0x0, 0x0⟩,
  ⟨"PSEQ_RECT_STAT", 0x38007C, 1, 0x4, 1, 0x4, 0, 0, 0, 0, 0, 0, 16, .one, 0x0, .const, .no, 0x0, 0x0⟩,
  ⟨"PSEQ_RECT_VOID", 0x380080, 1, 0x4, 1, 0x4, 0, 0, 0, 0xFFFF, 0, 0, 16, .one, 0x0, .const, .no, 0x0, 0x0⟩,
  ⟨"PSEQ_MODE", 0x380100, 1, 0x4, 1, 0x4, 0, 0x3, 0, 0, 0, 0, 7, .one, 0x30, .const, .yes, 0x0, 0x3⟩]

/-- Rows of the PSEQ window, 0x380000 to 0x3BFFFF. -/
def regsPseq1 : List RegInfo := [
  ⟨"PSEQ_VCOM_CTRL", 0x380200, 1, 0x4, 1, 0x4, 0, 0xFFFFFFFF, 0, 0, 0, 0, 5, .one, 0x240, .const, .yes, 0x0, 0xFFFFFFFF⟩,
  ⟨"PSEQ_VCOM", 0x380210, 16, 0x4, 1, 0x4, 0, 0, 0, 0, 0x3FF, 0, 16, .one, 0x0, .const, .no, 0x0, 0x3FF⟩,
  ⟨"PSEQ_BAND", 0x380400, 8, 0x4, 1, 0x4, 0, 0, 0, 0, 0, 0, 16, .one, 0x0, .const, .no, 0x0, 0xFFFFF⟩,
  ⟨"PSEQ_PANEL_SIZE", 0x380500, 1, 0x4, 1, 0x4, 0, 0, 0, 0, 0, 0, 16, .one, 0x0, .const, .no, 0x0, 0xFFFFFFFF⟩,
  ⟨"PSEQ_PANEL_CAP", 0x380504, 1, 0x4, 1, 0x4, 0, 0, 0, 0, 0, 0, 16, .one, 0x0, .const, .no, 0x0, 0xFFFF07FF⟩,
  ⟨"PSEQ_PANEL_SERIAL_LO", 0x380508, 1, 0x4, 1, 0x4, 0, 0, 0, 0, 0, 0, 16, .lo, 0x0, .const, .no, 0x0, 0xFFFFFFFF⟩,
  ⟨"PSEQ_PANEL_SERIAL_HI", 0x38050C, 1, 0x4, 1, 0x4, 0, 0, 0, 0, 0, 0, 16, .hi, 0x0, .const, .no, 0x0, 0xFFFFFFFF⟩,
  ⟨"PSEQ_IRQ_STATUS", 0x380600, 1, 0x4, 1, 0x4, 0, 0, 0xFF, 0, 0, 0, 16, .one, 0x0, .const, .no, 0x0, 0xFF⟩,
  ⟨"PSEQ_IRQ_MASK", 0x380604, 1, 0x4, 1, 0x4, 0xFF, 0, 0, 0, 0, 0, 16, .one, 0x0, .const, .no, 0x0, 0xFF⟩,
  ⟨"PSEQ_OD", 0x384000, 24, 0x500, 289, 0x4, 0, 0xFFF, 0, 0, 0, 0, 5, .one, 0x0, .const, .yes, 0x0, 0xFFF⟩,
  ⟨"PSEQ_LENSWAVE", 0x38C000, 128, 0x80, 32, 0x4, 0, 0xFFFF, 0, 0, 0, 0, 7, .one, 0x0, .const, .yes, 0x0, 0xFFFF⟩]

/-- All rows of the PSEQ window. -/
def regsPseq : List RegInfo := regsPseq0 ++ regsPseq1

/-- Rows of the RAIL window, 0x3C0000 to 0x3FFFFF. -/
def regsRail : List RegInfo := [
  ⟨"RAIL_CAP", 0x3C0000, 1, 0x4, 1, 0x4, 0, 0, 0, 0, 0, 0, 16, .one, 0x286, .const, .no, 0x0, 0x3FF⟩,
  ⟨"RAIL_STAT", 0x3C0004, 1, 0x4, 1, 0x4, 0, 0, 0, 0, 0, 0, 16, .one, 0x0, .const, .no, 0x0, 0xF73F07⟩,
  ⟨"RAIL_CMD", 0x3C0008, 1, 0x4, 1, 0x4, 0, 0, 0, 0, 0, 0xFFFF000F, 16, .one, 0x0, .const, .no, 0x0, 0xFFFF000F⟩,
  ⟨"RAIL_RETRY", 0x3C000C, 1, 0x4, 1, 0x4, 0xF, 0, 0, 0, 0, 0, 16, .one, 0x3, .const, .yes, 0x0, 0xF⟩,
  ⟨"RAIL_FAULT", 0x3C0010, 1, 0x4, 1, 0x4, 0, 0, 0x7F, 0, 0, 0, 16, .one, 0x0, .const, .no, 0x0, 0x7F⟩,
  ⟨"RAIL_FAULT_INFO", 0x3C0014, 1, 0x4, 1, 0x4, 0, 0, 0, 0, 0, 0, 16, .one, 0x0, .const, .no, 0x0, 0xFFFF007F⟩,
  ⟨"RAIL_CH.MEAS", 0x3C0100, 6, 0x10, 1, 0x10, 0, 0, 0, 0, 0, 0, 16, .one, 0x0, .const, .no, 0x0, 0xFFFFFFFF⟩,
  ⟨"RAIL_CH.PEAK", 0x3C0104, 6, 0x10, 1, 0x10, 0, 0, 0, 0, 0xFFFF, 0, 16, .one, 0x0, .const, .no, 0x0, 0xFFFF⟩,
  ⟨"RAIL_CH.FAULTS", 0x3C0108, 6, 0x10, 1, 0x10, 0, 0, 0, 0xFFFFFFFF, 0, 0, 16, .one, 0x0, .const, .no, 0x0, 0xFFFFFFFF⟩,
  ⟨"RAIL_VCOM", 0x3C0200, 16, 0x4, 1, 0x4, 0, 0, 0, 0, 0, 0, 16, .one, 0x0, .const, .no, 0x0, 0x1FFFFFF⟩,
  ⟨"RAIL_CRACK_CTRL", 0x3C0300, 1, 0x4, 1, 0x4, 0xFFFF, 0, 0, 0, 0, 0, 16, .one, 0x4322, .const, .yes, 0x0, 0xFFFF⟩,
  ⟨"RAIL_CRACK.MEAS", 0x3C0310, 2, 0x10, 1, 0x10, 0, 0, 0, 0, 0, 0, 16, .one, 0x0, .const, .no, 0x0, 0xFFFFFFFF⟩,
  ⟨"RAIL_CRACK.STAT", 0x3C0314, 2, 0x10, 1, 0x10, 0, 0, 0, 0, 0, 0, 16, .one, 0x0, .const, .no, 0x0, 0xF03⟩,
  ⟨"RAIL_CRACK.EVENTS", 0x3C0318, 2, 0x10, 1, 0x10, 0, 0, 0, 0xFFFF, 0, 0, 16, .one, 0x0, .const, .no, 0x0, 0xFFFF⟩,
  ⟨"RAIL_IRQ_STATUS", 0x3C0400, 1, 0x4, 1, 0x4, 0, 0, 0x3F, 0, 0, 0, 16, .one, 0x0, .const, .no, 0x0, 0x3F⟩,
  ⟨"RAIL_IRQ_MASK", 0x3C0404, 1, 0x4, 1, 0x4, 0x3F, 0, 0, 0, 0, 0, 16, .one, 0x0, .const, .no, 0x0, 0x3F⟩]

/-- Rows of the LANE window, 0x400000 to 0x41D7FF. -/
def regsLane0 : List RegInfo := [
  ⟨"LANE.ID", 0x400000, 118, 0x400, 1, 0x400, 0, 0, 0, 0, 0, 0, 16, .one, 0x0, .laneId, .no, 0x0, 0x3FFF⟩,
  ⟨"LANE.STAT", 0x400004, 118, 0x400, 1, 0x400, 0, 0, 0, 0, 0, 0, 16, .one, 0x2, .const, .no, 0x0, 0x1F⟩,
  ⟨"LANE.EQ_TX", 0x400008, 64, 0x400, 1, 0x400, 0, 0x800003FF, 0, 0, 0, 0, 12, .one, 0x104, .const, .no, 0x0, 0x800003FF⟩,
  ⟨"LANE.EQ_TX", 0x412008, 4, 0x400, 1, 0x400, 0, 0x800003FF, 0, 0, 0, 0, 12, .one, 0x104, .const, .no, 0x0, 0x800003FF⟩,
  ⟨"LANE.EQ_TX", 0x413008, 9, 0x400, 1, 0x400, 0, 0x800003FF, 0, 0, 0, 0, 12, .one, 0x104, .const, .no, 0x0, 0x800003FF⟩,
  ⟨"LANE.EQ_TX", 0x417808, 4, 0x1800, 3, 0x400, 0, 0x800003FF, 0, 0, 0, 0, 12, .one, 0x104, .const, .no, 0x0, 0x800003FF⟩,
  ⟨"LANE.EQ_RX", 0x41000C, 8, 0x400, 1, 0x400, 0, 0x800003FF, 0, 0, 0, 0, 12, .one, 0x6, .const, .no, 0x0, 0x800003FF⟩,
  ⟨"LANE.EQ_RX", 0x41540C, 9, 0x400, 1, 0x400, 0, 0x800003FF, 0, 0, 0, 0, 12, .one, 0x6, .const, .no, 0x0, 0x800003FF⟩,
  ⟨"LANE.EQ_RX", 0x41840C, 4, 0x1800, 3, 0x400, 0, 0x800003FF, 0, 0, 0, 0, 12, .one, 0x6, .const, .no, 0x0, 0x800003FF⟩,
  ⟨"LANE.EQ_EFF", 0x400010, 118, 0x400, 1, 0x400, 0, 0, 0, 0, 0, 0, 16, .one, 0x0, .const, .no, 0x0, 0x7FFFFFF⟩,
  ⟨"LANE.EYE", 0x400014, 118, 0x400, 1, 0x400, 0, 0, 0, 0, 0, 0, 16, .one, 0x0, .const, .no, 0x0, 0x3F03FF⟩,
  ⟨"LANE.HDR_ERR", 0x400018, 118, 0x400, 1, 0x400, 0, 0, 0, 0xFFFFFFFF, 0, 0, 16, .one, 0x0, .const, .no, 0x0, 0xFFFFFFFF⟩,
  ⟨"LANE.PRBS_CTRL", 0x40001C, 118, 0x400, 1, 0x400, 0xF, 0, 0, 0, 0, 0, 16, .one, 0x0, .const, .no, 0x0, 0xF⟩,
  ⟨"LANE.PRBS_BITS_LO", 0x400020, 118, 0x400, 1, 0x400, 0, 0, 0, 0xFFFFFFFF, 0, 0, 16, .lo, 0x0, .const, .no, 0x0, 0xFFFFFFFF⟩,
  ⟨"LANE.PRBS_BITS_HI", 0x400024, 118, 0x400, 1, 0x400, 0, 0, 0, 0xFFFFFFFF, 0, 0, 16, .hi, 0x0, .const, .no, 0x0, 0xFFFFFFFF⟩,
  ⟨"LANE.PRBS_ERR", 0x400028, 118, 0x400, 1, 0x400, 0, 0, 0, 0xFFFFFFFF, 0, 0, 16, .one, 0x0, .const, .no, 0x0, 0xFFFFFFFF⟩,
  ⟨"LANE.INJECT", 0x40002C, 118, 0x400, 1, 0x400, 0, 0, 0, 0, 0, 0x1F, 16, .one, 0x0, .const, .no, 0x0, 0x1F⟩,
  ⟨"LANE.LOOP", 0x413030, 42, 0x400, 1, 0x400, 0x3, 0, 0, 0, 0, 0, 16, .one, 0x0, .const, .no, 0x0, 0x3⟩,
  ⟨"LANE_GRP.CTRL", 0x400100, 16, 0x1000, 1, 0x1000, 0, 0xFF7F, 0, 0, 0, 0, 12, .one, 0x1E2F, .const, .no, 0x0, 0xFF7F⟩,
  ⟨"LANE_GRP.CTRL", 0x410100, 6, 0x800, 1, 0x800, 0, 0xFF7F, 0, 0, 0, 0, 12, .one, 0x1E2F, .const, .no, 0x0, 0xFF7F⟩,
  ⟨"LANE_GRP.CTRL", 0x413100, 1, 0x4, 1, 0x4, 0, 0xFF7F, 0, 0, 0, 0, 12, .one, 0x1E2F, .const, .no, 0x0, 0xFF7F⟩,
  ⟨"LANE_GRP.CTRL", 0x417900, 4, 0x1800, 1, 0x1800, 0, 0xFF7F, 0, 0, 0, 0, 12, .one, 0x1E2F, .const, .no, 0x0, 0xFF7F⟩,
  ⟨"LANE_GRP.CMD", 0x400104, 16, 0x1000, 1, 0x1000, 0, 0, 0, 0, 0, 0xFFFF0007, 16, .one, 0x0, .const, .no, 0x0, 0xFFFF0007⟩,
  ⟨"LANE_GRP.CMD", 0x410104, 6, 0x800, 1, 0x800, 0, 0, 0, 0, 0, 0xFFFF0007, 16, .one, 0x0, .const, .no, 0x0, 0xFFFF0007⟩]

/-- Rows of the LANE window, 0x400000 to 0x41D7FF. -/
def regsLane1 : List RegInfo := [
  ⟨"LANE_GRP.CMD", 0x413104, 1, 0x4, 1, 0x4, 0, 0, 0, 0, 0, 0xFFFF0007, 16, .one, 0x0, .const, .no, 0x0, 0xFFFF0007⟩,
  ⟨"LANE_GRP.CMD", 0x417904, 4, 0x1800, 1, 0x1800, 0, 0, 0, 0, 0, 0xFFFF0007, 16, .one, 0x0, .const, .no, 0x0, 0xFFFF0007⟩,
  ⟨"LANE_GRP.STAT", 0x400108, 16, 0x1000, 1, 0x1000, 0, 0, 0, 0, 0, 0, 16, .one, 0xA00, .const, .no, 0x0, 0xFFF⟩,
  ⟨"LANE_GRP.STAT", 0x410108, 6, 0x800, 1, 0x800, 0, 0, 0, 0, 0, 0, 16, .one, 0xA00, .const, .no, 0x0, 0xFFF⟩,
  ⟨"LANE_GRP.STAT", 0x413108, 1, 0x4, 1, 0x4, 0, 0, 0, 0, 0, 0, 16, .one, 0xA00, .const, .no, 0x0, 0xFFF⟩,
  ⟨"LANE_GRP.STAT", 0x417908, 4, 0x1800, 1, 0x1800, 0, 0, 0, 0, 0, 0, 16, .one, 0xA00, .const, .no, 0x0, 0xFFF⟩,
  ⟨"LANE_GRP.COUNT", 0x40010C, 16, 0x1000, 1, 0x1000, 0, 0, 0, 0xFFFFFFFF, 0, 0, 16, .one, 0x0, .const, .no, 0x0, 0xFFFFFFFF⟩,
  ⟨"LANE_GRP.COUNT", 0x41010C, 6, 0x800, 1, 0x800, 0, 0, 0, 0xFFFFFFFF, 0, 0, 16, .one, 0x0, .const, .no, 0x0, 0xFFFFFFFF⟩,
  ⟨"LANE_GRP.COUNT", 0x41310C, 1, 0x4, 1, 0x4, 0, 0, 0, 0xFFFFFFFF, 0, 0, 16, .one, 0x0, .const, .no, 0x0, 0xFFFFFFFF⟩,
  ⟨"LANE_GRP.COUNT", 0x41790C, 4, 0x1800, 1, 0x1800, 0, 0, 0, 0xFFFFFFFF, 0, 0, 16, .one, 0x0, .const, .no, 0x0, 0xFFFFFFFF⟩,
  ⟨"LANE_GRP.EVENT", 0x400110, 16, 0x1000, 1, 0x1000, 0, 0, 0x1F, 0, 0, 0, 16, .one, 0x0, .const, .no, 0x0, 0x1F⟩,
  ⟨"LANE_GRP.EVENT", 0x410110, 6, 0x800, 1, 0x800, 0, 0, 0x1F, 0, 0, 0, 16, .one, 0x0, .const, .no, 0x0, 0x1F⟩,
  ⟨"LANE_GRP.EVENT", 0x413110, 1, 0x4, 1, 0x4, 0, 0, 0x1F, 0, 0, 0, 16, .one, 0x0, .const, .no, 0x0, 0x1F⟩,
  ⟨"LANE_GRP.EVENT", 0x417910, 4, 0x1800, 1, 0x1800, 0, 0, 0x1F, 0, 0, 0, 16, .one, 0x0, .const, .no, 0x0, 0x1F⟩,
  ⟨"LANE_IRQ_STATUS", 0x400300, 1, 0x4, 1, 0x4, 0, 0, 0x7, 0, 0, 0, 16, .one, 0x0, .const, .no, 0x0, 0x7⟩,
  ⟨"LANE_IRQ_MASK", 0x400304, 1, 0x4, 1, 0x4, 0x7, 0, 0, 0, 0, 0, 16, .one, 0x0, .const, .no, 0x0, 0x7⟩,
  ⟨"LANE_GRP_MAP", 0x400308, 1, 0x4, 1, 0x4, 0, 0, 0, 0, 0, 0, 16, .one, 0x0, .const, .no, 0x0, 0x7FFFFFF⟩,
  ⟨"LANE_PANEL", 0x40030C, 1, 0x4, 1, 0x4, 0, 0, 0, 0, 0, 0, 16, .one, 0x0, .const, .no, 0x0, 0xFFFF000F⟩]

/-- All rows of the LANE window. -/
def regsLane : List RegInfo := regsLane0 ++ regsLane1

/-- Rows of the MEM_C window, 0x480000 to 0x4DFFFF. -/
def regsMemC : List RegInfo := [
  ⟨"MEM_C.STAT", 0x480000, 6, 0x10000, 1, 0x10000, 0, 0, 0, 0, 0, 0, 16, .one, 0x0, .const, .no, 0x0, 0xFFFF07⟩,
  ⟨"MEM_C.ECC", 0x480004, 6, 0x10000, 1, 0x10000, 0, 0, 0, 0xFFFFFFFF, 0, 0, 16, .one, 0x0, .const, .no, 0x0, 0xFFFFFFFF⟩,
  ⟨"MEM_C.FRZ_INFO", 0x480008, 6, 0x10000, 1, 0x10000, 0, 0, 0, 0, 0, 0, 16, .one, 0x0, .const, .no, 0x0, 0xC003FFFF⟩,
  ⟨"MEM_C.FRZ_ADDR_LO", 0x480010, 6, 0x10000, 1, 0x10000, 0, 0, 0, 0, 0, 0, 16, .lo, 0x0, .const, .no, 0x0, 0xFFFFFFFF⟩,
  ⟨"MEM_C.FRZ_ADDR_HI", 0x480014, 6, 0x10000, 1, 0x10000, 0, 0, 0, 0, 0, 0, 16, .hi, 0x0, .const, .no, 0x0, 0xFFFFFFFF⟩,
  ⟨"MEM_C.FRZ_ROW", 0x480018, 6, 0x10000, 1, 0x10000, 0, 0, 0, 0, 0, 0, 16, .one, 0x0, .const, .no, 0x0, 0x3FFFF⟩,
  ⟨"MEM_C.CMD", 0x480020, 6, 0x10000, 1, 0x10000, 0, 0, 0, 0, 0, 0xFFFF0001, 16, .one, 0x0, .const, .no, 0x0, 0xFFFF0001⟩,
  ⟨"MEM_C.HIST", 0x480040, 6, 0x10000, 16, 0x4, 0, 0, 0, 0, 0, 0, 16, .one, 0x0, .const, .no, 0x0, 0xFFFFF7FF⟩,
  ⟨"MEM_C.BW_LO", 0x480080, 6, 0x10000, 4, 0x8, 0, 0, 0, 0xFFFFFFFF, 0, 0, 16, .lo, 0x0, .const, .no, 0x0, 0xFFFFFFFF⟩,
  ⟨"MEM_C.BW_HI", 0x480084, 6, 0x10000, 4, 0x8, 0, 0, 0, 0xFFFFFFFF, 0, 0, 16, .hi, 0x0, .const, .no, 0x0, 0xFFFFFFFF⟩,
  ⟨"MEM_CH.STAT", 0x481000, 6, 0x10000, 8, 0x100, 0, 0, 0, 0, 0, 0, 16, .one, 0x0, .const, .no, 0x0, 0xF11F⟩,
  ⟨"MEM_CH.EYE", 0x481004, 6, 0x10000, 8, 0x100, 0, 0, 0, 0, 0, 0, 16, .one, 0x0, .const, .no, 0x0, 0x3F3F3F3F⟩,
  ⟨"MEM_CH.REFRESH", 0x481008, 6, 0x10000, 8, 0x100, 0, 0, 0, 0xFFFFFFFF, 0, 0, 16, .one, 0x0, .const, .no, 0x0, 0xFFFFFFFF⟩,
  ⟨"MEM_CH.RH", 0x48100C, 6, 0x10000, 8, 0x100, 0, 0, 0, 0xFFFFFFFF, 0, 0, 16, .one, 0x0, .const, .no, 0x0, 0xFFFFFFFF⟩,
  ⟨"MEM_CH.RH_LAST", 0x481010, 6, 0x10000, 8, 0x100, 0, 0, 0, 0, 0, 0, 16, .one, 0x0, .const, .no, 0x0, 0xFFFFFFF⟩]

/-- Rows of the MEM window, 0x4F0000 to 0x4FFFFF. -/
def regsMem : List RegInfo := [
  ⟨"MEM_CAP", 0x4F0000, 1, 0x4, 1, 0x4, 0, 0, 0, 0, 0, 0, 16, .one, 0x7000630, .const, .no, 0x0, 0xFFFF073F⟩,
  ⟨"MEM_MAP_LO", 0x4F0008, 1, 0x4, 1, 0x4, 0, 0, 0, 0, 0, 0, 16, .lo, 0x0, .const, .no, 0x0, 0xFFFFFFFF⟩,
  ⟨"MEM_MAP_HI", 0x4F000C, 1, 0x4, 1, 0x4, 0, 0, 0, 0, 0, 0, 16, .hi, 0x0, .const, .no, 0x0, 0xFFFF⟩,
  ⟨"MEM_SIZE", 0x4F0010, 1, 0x4, 1, 0x4, 0, 0, 0, 0, 0, 0, 16, .one, 0x0, .const, .no, 0x0, 0xFFFFF⟩,
  ⟨"MEM_HOST", 0x4F0014, 1, 0x4, 1, 0x4, 0, 0, 0, 0, 0, 0, 16, .one, 0x0, .const, .no, 0x0, 0xFFFFF⟩,
  ⟨"MEM_FREE", 0x4F0018, 1, 0x4, 1, 0x4, 0, 0, 0, 0, 0, 0, 16, .one, 0x0, .const, .no, 0x0, 0xFFFFF⟩,
  ⟨"MEM_FREQ", 0x4F0020, 1, 0x4, 1, 0x4, 0x3, 0, 0x200, 0, 0, 0, 16, .one, 0x0, .const, .no, 0x0, 0x333⟩,
  ⟨"MEM_POLICY", 0x4F0024, 1, 0x4, 1, 0x4, 0xFF0FFF, 0, 0, 0, 0, 0, 16, .one, 0x180819, .const, .no, 0x0, 0xFF0FFF⟩,
  ⟨"MEM_RH", 0x4F0028, 1, 0x4, 1, 0x4, 0xFFFFFFFF, 0, 0, 0, 0, 0, 16, .one, 0x3E81000, .const, .no, 0x0, 0xFFFFFFFF⟩,
  ⟨"MEM_FREEZE_CTRL", 0x4F002C, 1, 0x4, 1, 0x4, 0xFFFF0001, 0, 0, 0, 0, 0, 16, .one, 0x1F40001, .const, .no, 0x0, 0xFFFF0001⟩,
  ⟨"MEM_IRQ_STATUS", 0x4F0100, 1, 0x4, 1, 0x4, 0, 0, 0x7F, 0, 0, 0, 16, .one, 0x0, .const, .no, 0x0, 0x7F⟩,
  ⟨"MEM_IRQ_MASK", 0x4F0104, 1, 0x4, 1, 0x4, 0x7F, 0, 0, 0, 0, 0, 16, .one, 0x0, .const, .no, 0x0, 0x7F⟩,
  ⟨"MEM_REGION.BASE", 0x4F1000, 64, 0x10, 1, 0x10, 0xFFFFFFFF, 0, 0, 0, 0, 0, 16, .one, 0x0, .const, .no, 0x0, 0xFFFFFFFF⟩,
  ⟨"MEM_REGION.LIMIT", 0x4F1004, 64, 0x10, 1, 0x10, 0xFFFFFFFF, 0, 0, 0, 0, 0, 16, .one, 0x0, .const, .no, 0x0, 0xFFFFFFFF⟩,
  ⟨"MEM_REGION.ATTR", 0x4F1008, 64, 0x10, 1, 0x10, 0x3F07, 0, 0, 0, 0, 0, 16, .one, 0x0, .const, .no, 0x0, 0x80003F07⟩]

/-- Rows of the PAIR window, 0x500000 to 0x53FFFF. -/
def regsPair : List RegInfo := [
  ⟨"PAIR_STAT", 0x500000, 1, 0x4, 1, 0x4, 0, 0, 0, 0, 0, 0, 16, .one, 0x0, .const, .no, 0x0, 0x3FF⟩,
  ⟨"PAIR_CTRL", 0x500004, 1, 0x4, 1, 0x4, 0, 0xFFFF, 0, 0, 0, 0, 13, .one, 0x3224, .const, .yes, 0x0, 0xFFFF⟩,
  ⟨"PAIR_CMD", 0x500008, 1, 0x4, 1, 0x4, 0, 0, 0, 0, 0, 0xFFFF0003, 16, .one, 0x0, .const, .no, 0x0, 0xFFFF0003⟩,
  ⟨"PAIR_FIT", 0x50000C, 1, 0x4, 1, 0x4, 0, 0, 0, 0, 0, 0, 16, .one, 0x0, .const, .no, 0x0, 0xFFFF⟩,
  ⟨"PAIR_PEER_LO", 0x500010, 1, 0x4, 1, 0x4, 0, 0, 0, 0, 0, 0, 16, .lo, 0x0, .const, .no, 0x0, 0xFFFFFFFF⟩,
  ⟨"PAIR_PEER_HI", 0x500014, 1, 0x4, 1, 0x4, 0, 0, 0, 0, 0, 0, 16, .hi, 0x0, .const, .no, 0x0, 0xFFFFFFFF⟩,
  ⟨"PAIR_COUNT", 0x500018, 1, 0x4, 1, 0x4, 0, 0, 0, 0xFFFFFFFF, 0, 0, 16, .one, 0x0, .const, .no, 0x0, 0xFFFFFFFF⟩,
  ⟨"PAIR_LAST", 0x50001C, 1, 0x4, 1, 0x4, 0, 0, 0, 0, 0, 0, 16, .one, 0x0, .const, .no, 0x0, 0xFFFFFFFF⟩,
  ⟨"PAIR_DIV", 0x500020, 1, 0x4, 1, 0x4, 0, 0, 0, 0xFFFFFFFF, 0, 0, 16, .one, 0x0, .const, .no, 0x0, 0xFFFFFFFF⟩,
  ⟨"PAIR_EXCUSED", 0x500024, 1, 0x4, 1, 0x4, 0, 0, 0, 0xFFFFFFFF, 0, 0, 16, .one, 0x0, .const, .no, 0x0, 0xFFFFFFFF⟩,
  ⟨"PAIR_DROP", 0x500028, 1, 0x4, 1, 0x4, 0, 0, 0, 0xFFFFFFFF, 0, 0, 16, .one, 0x0, .const, .no, 0x0, 0xFFFFFFFF⟩,
  ⟨"PAIR_DROP_ADDR", 0x50002C, 1, 0x4, 1, 0x4, 0, 0, 0, 0, 0, 0, 16, .one, 0x0, .const, .no, 0x0, 0x3FFFFFF⟩,
  ⟨"PAIR_LINK", 0x500030, 1, 0x4, 1, 0x4, 0, 0, 0, 0xFFFFFFFF, 0, 0, 16, .one, 0x0, .const, .no, 0x0, 0xFFFFFFFF⟩,
  ⟨"PAIR_IRQ_STATUS", 0x500040, 1, 0x4, 1, 0x4, 0, 0, 0xFF, 0, 0, 0, 16, .one, 0x0, .const, .no, 0x0, 0xFF⟩,
  ⟨"PAIR_IRQ_MASK", 0x500044, 1, 0x4, 1, 0x4, 0xFF, 0, 0, 0, 0, 0, 16, .one, 0x0, .const, .no, 0x0, 0xFF⟩]

/-- Rows of the ARRAY window, 0x540000 to 0x57FFFF. -/
def regsArray : List RegInfo := [
  ⟨"ARRAY_POS", 0x540000, 1, 0x4, 1, 0x4, 0x9F1F, 0, 0, 0, 0, 0, 16, .one, 0x0, .const, .no, 0x0, 0x9F1F⟩,
  ⟨"ARRAY_XCHK_LIM", 0x540004, 1, 0x4, 1, 0x4, 0xFFFF, 0, 0, 0, 0, 0, 16, .one, 0x32, .const, .no, 0x0, 0xFFFF⟩,
  ⟨"ARRAY_PORT.NBR", 0x540100, 4, 0x20, 1, 0x20, 0, 0, 0, 0, 0, 0, 16, .one, 0x0, .const, .no, 0x0, 0x3F07FF1F⟩,
  ⟨"ARRAY_PORT.XCHK", 0x540104, 4, 0x20, 1, 0x20, 0, 0, 0, 0, 0, 0, 16, .one, 0x0, .const, .no, 0x0, 0xFFFFFFFF⟩,
  ⟨"ARRAY_PORT.DELAY", 0x540108, 4, 0x20, 1, 0x20, 0, 0, 0, 0, 0, 0, 16, .one, 0x0, .const, .no, 0x0, 0xFFFF⟩,
  ⟨"ARRAY_PORT.COUNT", 0x54010C, 4, 0x20, 1, 0x20, 0, 0, 0, 0xFFFFFFFF, 0, 0, 16, .one, 0x0, .const, .no, 0x0, 0xFFFFFFFF⟩,
  ⟨"ARRAY_IRQ_STATUS", 0x540200, 1, 0x4, 1, 0x4, 0, 0, 0x7, 0, 0, 0, 16, .one, 0x0, .const, .no, 0x0, 0x7⟩,
  ⟨"ARRAY_IRQ_MASK", 0x540204, 1, 0x4, 1, 0x4, 0x7, 0, 0, 0, 0, 0, 16, .one, 0x0, .const, .no, 0x0, 0x7⟩]

/-- Rows of the HOST window, 0x580000 to 0x5BFFFF. -/
def regsHost : List RegInfo := [
  ⟨"HOST_ID", 0x580000, 1, 0x4, 1, 0x4, 0, 0, 0, 0, 0, 0, 16, .one, 0x9601E5A, .const, .no, 0x0, 0xFFFFFFFF⟩,
  ⟨"HOST_LINK", 0x580004, 1, 0x4, 1, 0x4, 0, 0, 0, 0xFFFF0000, 0, 0, 16, .one, 0x0, .const, .no, 0x0, 0xFFFF01F7⟩,
  ⟨"HOST_BAR2_BASE_LO", 0x580008, 1, 0x4, 1, 0x4, 0xFFE00000, 0, 0, 0, 0, 0, 16, .lo, 0x0, .const, .no, 0x0, 0xFFE00000⟩,
  ⟨"HOST_BAR2_BASE_HI", 0x58000C, 1, 0x4, 1, 0x4, 0xFFFFFFFF, 0, 0, 0, 0, 0, 16, .hi, 0x0, .const, .no, 0x0, 0xFFFFFFFF⟩,
  ⟨"HOST_BAR2_ERR", 0x580010, 1, 0x4, 1, 0x4, 0, 0, 0, 0xFFFFFFFF, 0, 0, 16, .one, 0x0, .const, .no, 0x0, 0xFFFFFFFF⟩,
  ⟨"HOST_BAR2_LAST", 0x580014, 1, 0x4, 1, 0x4, 0, 0, 0, 0, 0, 0, 16, .one, 0x0, .const, .no, 0x0, 0x7FFFFFFF⟩,
  ⟨"HOST_RESETS", 0x580018, 1, 0x4, 1, 0x4, 0, 0, 0, 0xFFFFFFFF, 0, 0, 16, .one, 0x0, .const, .no, 0x0, 0xFFFFFFFF⟩,
  ⟨"HOST_IRQ_STATUS", 0x580040, 1, 0x4, 1, 0x4, 0, 0, 0x7, 0, 0, 0, 16, .one, 0x0, .const, .no, 0x0, 0x7⟩,
  ⟨"HOST_IRQ_MASK", 0x580044, 1, 0x4, 1, 0x4, 0x7, 0, 0, 0, 0, 0, 16, .one, 0x0, .const, .no, 0x0, 0x7⟩,
  ⟨"HOST_MSIX.ADDR_LO", 0x581000, 64, 0x10, 1, 0x10, 0xFFFFFFFF, 0, 0, 0, 0, 0, 16, .lo, 0x0, .const, .no, 0x0, 0xFFFFFFFF⟩,
  ⟨"HOST_MSIX.ADDR_HI", 0x581004, 64, 0x10, 1, 0x10, 0xFFFFFFFF, 0, 0, 0, 0, 0, 16, .hi, 0x0, .const, .no, 0x0, 0xFFFFFFFF⟩,
  ⟨"HOST_MSIX.DATA", 0x581008, 64, 0x10, 1, 0x10, 0xFFFFFFFF, 0, 0, 0, 0, 0, 16, .one, 0x0, .const, .no, 0x0, 0xFFFFFFFF⟩,
  ⟨"HOST_MSIX.CTRL", 0x58100C, 64, 0x10, 1, 0x10, 0x1, 0, 0, 0, 0, 0, 16, .one, 0x1, .const, .no, 0x0, 0x1⟩,
  ⟨"HOST_MSIX_PBA_LO", 0x582000, 1, 0x4, 1, 0x4, 0, 0, 0, 0, 0, 0, 16, .lo, 0x0, .const, .no, 0x0, 0xFFFFFFFF⟩,
  ⟨"HOST_MSIX_PBA_HI", 0x582004, 1, 0x4, 1, 0x4, 0, 0, 0, 0, 0, 0, 16, .hi, 0x0, .const, .no, 0x0, 0xFFFFFFFF⟩]

/-- Rows of the ETH window, 0x5C0000 to 0x5FFFFF. -/
def regsEth : List RegInfo := [
  ⟨"ETH_CAGE.CTRL", 0x5C0000, 2, 0x100, 1, 0x100, 0, 0x3, 0, 0, 0, 0, 15, .one, 0x0, .const, .no, 0x0, 0x3⟩,
  ⟨"ETH_CAGE.STAT", 0x5C0004, 2, 0x100, 1, 0x100, 0, 0, 0, 0, 0, 0, 16, .one, 0x0, .const, .no, 0x0, 0xF3⟩,
  ⟨"ETH_PORT.MAC_LO", 0x5C1000, 8, 0x100, 1, 0x100, 0, 0, 0, 0, 0, 0, 16, .lo, 0x0, .const, .no, 0x0, 0xFFFFFFFF⟩,
  ⟨"ETH_PORT.MAC_HI", 0x5C1004, 8, 0x100, 1, 0x100, 0, 0, 0, 0, 0, 0, 16, .hi, 0x0, .const, .no, 0x0, 0xFFFF⟩,
  ⟨"ETH_PORT.IPV4", 0x5C1008, 8, 0x100, 1, 0x100, 0, 0xFFFFFFFF, 0, 0, 0, 0, 15, .one, 0x0, .const, .no, 0x0, 0xFFFFFFFF⟩,
  ⟨"ETH_PORT.CFG", 0x5C100C, 8, 0x100, 1, 0x100, 0, 0xFFFFF, 0, 0, 0, 0, 15, .one, 0x18, .const, .no, 0x0, 0xFFFFF⟩,
  ⟨"ETH_PORT.STAT", 0x5C1010, 8, 0x100, 1, 0x100, 0, 0, 0, 0, 0, 0, 16, .one, 0x0, .const, .no, 0x0, 0xF⟩,
  ⟨"ETH_PORT.RX_LO", 0x5C1018, 8, 0x100, 1, 0x100, 0, 0, 0, 0xFFFFFFFF, 0, 0, 16, .lo, 0x0, .const, .no, 0x0, 0xFFFFFFFF⟩,
  ⟨"ETH_PORT.RX_HI", 0x5C101C, 8, 0x100, 1, 0x100, 0, 0, 0, 0xFFFFFFFF, 0, 0, 16, .hi, 0x0, .const, .no, 0x0, 0xFFFFFFFF⟩,
  ⟨"ETH_PORT.ERR", 0x5C1020, 8, 0x100, 1, 0x100, 0, 0, 0, 0xFFFFFFFF, 0, 0, 16, .one, 0x0, .const, .no, 0x0, 0xFFFFFFFF⟩,
  ⟨"ETH_IRQ_STATUS", 0x5CF000, 1, 0x4, 1, 0x4, 0, 0, 0x3FF, 0, 0, 0, 16, .one, 0x0, .const, .no, 0x0, 0x3FF⟩,
  ⟨"ETH_IRQ_MASK", 0x5CF004, 1, 0x4, 1, 0x4, 0x3FF, 0, 0, 0, 0, 0, 16, .one, 0x0, .const, .no, 0x0, 0x3FF⟩]

/-- Rows of the DPRX window, 0x600000 to 0x60FFFF. -/
def regsDprx : List RegInfo := [
  ⟨"DPRX_CTRL", 0x600000, 1, 0x4, 1, 0x4, 0, 0x1F, 0, 0, 0, 0, 15, .one, 0x1D, .const, .no, 0x0, 0x1F⟩,
  ⟨"DPRX_STAT", 0x600004, 1, 0x4, 1, 0x4, 0, 0, 0, 0, 0, 0, 16, .one, 0x0, .const, .no, 0x0, 0x3FF⟩,
  ⟨"DPRX_SIZE", 0x600008, 1, 0x4, 1, 0x4, 0, 0, 0, 0, 0, 0, 16, .one, 0x0, .const, .no, 0x0, 0xFFFFFFFF⟩,
  ⟨"DPRX_FMT", 0x60000C, 1, 0x4, 1, 0x4, 0, 0, 0, 0, 0, 0, 16, .one, 0x0, .const, .no, 0x0, 0x1FFFFFFF⟩,
  ⟨"DPRX_ERR", 0x600010, 1, 0x4, 1, 0x4, 0, 0, 0, 0xFFFFFFFF, 0, 0, 16, .one, 0x0, .const, .no, 0x0, 0xFFFFFFFF⟩,
  ⟨"DPRX_IRQ_STATUS", 0x600040, 1, 0x4, 1, 0x4, 0, 0, 0x7, 0, 0, 0, 16, .one, 0x0, .const, .no, 0x0, 0x7⟩,
  ⟨"DPRX_IRQ_MASK", 0x600044, 1, 0x4, 1, 0x4, 0x7, 0, 0, 0, 0, 0, 16, .one, 0x0, .const, .no, 0x0, 0x7⟩]

/-- Rows of the DPTX window, 0x610000 to 0x61FFFF. -/
def regsDptx : List RegInfo := [
  ⟨"DPTX_CTRL", 0x610000, 1, 0x4, 1, 0x4, 0, 0x7, 0, 0, 0, 0, 15, .one, 0x7, .const, .no, 0x0, 0x7⟩,
  ⟨"DPTX_STAT", 0x610004, 1, 0x4, 1, 0x4, 0, 0, 0, 0, 0, 0, 16, .one, 0x0, .const, .no, 0x0, 0x1FF⟩,
  ⟨"DPTX_EDID", 0x610100, 64, 0x4, 1, 0x4, 0, 0, 0, 0, 0, 0, 16, .one, 0x0, .const, .no, 0x0, 0xFFFFFFFF⟩]

/-- Rows of the PREV window, 0x620000 to 0x62FFFF. -/
def regsPrev : List RegInfo := [
  ⟨"PREV_CTRL", 0x620000, 1, 0x4, 1, 0x4, 0, 0x7, 0, 0, 0, 0, 15, .one, 0x5, .const, .no, 0x0, 0x7⟩,
  ⟨"PREV_VIEW", 0x620004, 1, 0x4, 1, 0x4, 0, 0x3FFFFF, 0, 0, 0, 0, 15, .one, 0x0, .const, .no, 0x0, 0x3FFFFF⟩,
  ⟨"PREV_POS", 0x620008, 1, 0x4, 1, 0x4, 0, 0xFFFFFFFF, 0, 0, 0, 0, 15, .one, 0x0, .const, .no, 0x0, 0xFFFFFFFF⟩,
  ⟨"PREV_SURF_LO", 0x620010, 1, 0x4, 1, 0x4, 0, 0xFFFFFFFF, 0, 0, 0, 0, 15, .lo, 0x0, .const, .no, 0x0, 0xFFFFFFFF⟩,
  ⟨"PREV_SURF_HI", 0x620014, 1, 0x4, 1, 0x4, 0, 0xFFFFFFFF, 0, 0, 0, 0, 15, .hi, 0x0, .const, .no, 0x0, 0xFFFFFFFF⟩,
  ⟨"PREV_PITCH", 0x620018, 1, 0x4, 1, 0x4, 0, 0xFFFFF, 0, 0, 0, 0, 15, .one, 0x0, .const, .no, 0x0, 0xFFFFF⟩,
  ⟨"PREV_SIZE", 0x62001C, 1, 0x4, 1, 0x4, 0, 0xFFFFFFFF, 0, 0, 0, 0, 15, .one, 0x0, .const, .no, 0x0, 0xFFFFFFFF⟩,
  ⟨"PREV_FMT", 0x620020, 1, 0x4, 1, 0x4, 0, 0x3, 0, 0, 0, 0, 15, .one, 0x0, .const, .no, 0x0, 0x3⟩,
  ⟨"PREV_HTIME", 0x620030, 1, 0x4, 1, 0x4, 0, 0xFFFFFFFF, 0, 0, 0, 0, 15, .one, 0xB00F00, .const, .no, 0x0, 0xFFFFFFFF⟩,
  ⟨"PREV_HTIME2", 0x620034, 1, 0x4, 1, 0x4, 0, 0xFFFFFFFF, 0, 0, 0, 0, 15, .one, 0x1280058, .const, .no, 0x0, 0xFFFFFFFF⟩,
  ⟨"PREV_VTIME", 0x620038, 1, 0x4, 1, 0x4, 0, 0xFFFFFFFF, 0, 0, 0, 0, 15, .one, 0x80870, .const, .no, 0x0, 0xFFFFFFFF⟩,
  ⟨"PREV_VTIME2", 0x62003C, 1, 0x4, 1, 0x4, 0, 0xFFFFFFFF, 0, 0, 0, 0, 15, .one, 0x48000A, .const, .no, 0x0, 0xFFFFFFFF⟩,
  ⟨"PREV_CLK", 0x620040, 1, 0x4, 1, 0x4, 0, 0x3FFFFF, 0, 0, 0, 0, 15, .one, 0x391050, .const, .no, 0x0, 0x3FFFFF⟩,
  ⟨"PREV_STAT", 0x620050, 1, 0x4, 1, 0x4, 0, 0, 0, 0, 0, 0, 16, .one, 0x0, .const, .no, 0x0, 0x1F⟩,
  ⟨"PREV_LINE", 0x620054, 1, 0x4, 1, 0x4, 0, 0, 0, 0, 0, 0, 16, .one, 0x0, .const, .no, 0x0, 0xFFFF⟩,
  ⟨"PREV_FRAME_LO", 0x620058, 1, 0x4, 1, 0x4, 0, 0, 0, 0xFFFFFFFF, 0, 0, 16, .lo, 0x0, .const, .no, 0x0, 0xFFFFFFFF⟩,
  ⟨"PREV_FRAME_HI", 0x62005C, 1, 0x4, 1, 0x4, 0, 0, 0, 0xFFFFFFFF, 0, 0, 16, .hi, 0x0, .const, .no, 0x0, 0xFFFFFFFF⟩]

/-- Rows of the TEPH window, 0x700000 to 0x7FFFFF. -/
def regsTeph : List RegInfo := [
  ⟨"TEPH_FREEZE_CTRL", 0x700000, 1, 0x4, 1, 0x4, 0xFFFF000F, 0, 0, 0, 0, 0, 16, .one, 0x7, .const, .no, 0xFFFF000F, 0xFFFF000F⟩,
  ⟨"TEPH_FREEZE_POST", 0x700004, 1, 0x4, 1, 0x4, 0x1FFF, 0, 0, 0, 0, 0, 16, .one, 0x1000, .const, .no, 0x1FFF, 0x1FFF⟩,
  ⟨"TEPH_FREEZE_AT", 0x700008, 1, 0x4, 1, 0x4, 0, 0, 0, 0, 0, 0, 16, .one, 0x0, .const, .no, 0xFFFFFFFF, 0xFFFFFFFF⟩,
  ⟨"TEPH_STAT", 0x70000C, 1, 0x4, 1, 0x4, 0, 0, 0, 0, 0, 0, 16, .one, 0x0, .const, .no, 0x3FFFF, 0x3FFFF⟩,
  ⟨"TEPH_HEAD", 0x700010, 1, 0x4, 1, 0x4, 0, 0, 0, 0, 0, 0, 16, .one, 0x0, .const, .no, 0xFFFFFFFF, 0xFFFFFFFF⟩,
  ⟨"TEPH_LOST", 0x700014, 1, 0x4, 1, 0x4, 0, 0, 0, 0xFFFFFFFF, 0, 0, 16, .one, 0x0, .const, .no, 0xFFFFFFFF, 0xFFFFFFFF⟩,
  ⟨"TEPH_MIRROR", 0x700018, 1, 0x4, 1, 0x4, 0, 0, 0, 0, 0, 0, 16, .one, 0x0, .const, .no, 0xFFFFFFFF, 0xFFFFFFFF⟩,
  ⟨"TEPH_CMD", 0x70001C, 1, 0x4, 1, 0x4, 0, 0, 0, 0, 0, 0xFFFF0007, 16, .one, 0x0, .const, .no, 0xFFFF0007, 0xFFFF0007⟩,
  ⟨"TEPH_IRQ_STATUS", 0x700100, 1, 0x4, 1, 0x4, 0, 0, 0xF, 0, 0, 0, 16, .one, 0x0, .const, .no, 0xF, 0xF⟩,
  ⟨"TEPH_IRQ_MASK", 0x700104, 1, 0x4, 1, 0x4, 0xF, 0, 0, 0, 0, 0, 16, .one, 0x0, .const, .no, 0xF, 0xF⟩,
  ⟨"TEPH_RING", 0x710000, 8192, 0x20, 8, 0x4, 0, 0, 0, 0, 0, 0, 16, .one, 0x0, .const, .no, 0xFFFFFFFF, 0xFFFFFFFF⟩,
  ⟨"TEPH_PARTNER", 0x750000, 8192, 0x20, 8, 0x4, 0, 0, 0, 0, 0, 0, 16, .one, 0x0, .const, .no, 0xFFFFFFFF, 0xFFFFFFFF⟩,
  ⟨"TEPH_SAVED", 0x790000, 1024, 0x20, 8, 0x4, 0, 0, 0, 0, 0, 0, 16, .one, 0x0, .const, .no, 0xFFFFFFFF, 0xFFFFFFFF⟩,
  ⟨"TEPH_SAVED_HDR", 0x7A0000, 16, 0x4, 1, 0x4, 0, 0, 0, 0, 0, 0, 16, .one, 0x0, .const, .no, 0xFFFFFFFF, 0xFFFFFFFF⟩]

/-- The rows of the block window an offset lies in (Table 3.1); none outside every window (R62). -/
def windowOf (off : Nat) : List RegInfo :=
  if 0x000000 ≤ off ∧ off ≤ 0x00FFFF then regsCtl
  else if 0x010000 ≤ off ∧ off ≤ 0x01FFFF then regsRst
  else if 0x020000 ≤ off ∧ off ≤ 0x02FFFF then regsCare
  else if 0x030000 ≤ off ∧ off ≤ 0x03FFFF then regsSec
  else if 0x040000 ≤ off ∧ off ≤ 0x04FFFF then regsThm
  else if 0x050000 ≤ off ∧ off ≤ 0x05FFFF then regsCal
  else if 0x060000 ≤ off ∧ off ≤ 0x06FFFF then regsTime
  else if 0x080000 ≤ off ∧ off ≤ 0x0FFFFF then regsPers
  else if 0x100000 ≤ off ∧ off ≤ 0x163FFF then regsFabTile
  else if 0x1F0000 ≤ off ∧ off ≤ 0x1FFFFF then regsFab
  else if 0x200000 ≤ off ∧ off ≤ 0x23FFFF then regsView
  else if 0x240000 ≤ off ∧ off ≤ 0x27FFFF then regsIntk
  else if 0x280000 ≤ off ∧ off ≤ 0x2BFFFF then regsTdec
  else if 0x2C0000 ≤ off ∧ off ≤ 0x2FFFFF then regsLzc
  else if 0x300000 ≤ off ∧ off ≤ 0x33FFFF then regsComp
  else if 0x340000 ≤ off ∧ off ≤ 0x37FFFF then regsBlt
  else if 0x380000 ≤ off ∧ off ≤ 0x3BFFFF then regsPseq
  else if 0x3C0000 ≤ off ∧ off ≤ 0x3FFFFF then regsRail
  else if 0x400000 ≤ off ∧ off ≤ 0x41D7FF then regsLane
  else if 0x480000 ≤ off ∧ off ≤ 0x4DFFFF then regsMemC
  else if 0x4F0000 ≤ off ∧ off ≤ 0x4FFFFF then regsMem
  else if 0x500000 ≤ off ∧ off ≤ 0x53FFFF then regsPair
  else if 0x540000 ≤ off ∧ off ≤ 0x57FFFF then regsArray
  else if 0x580000 ≤ off ∧ off ≤ 0x5BFFFF then regsHost
  else if 0x5C0000 ≤ off ∧ off ≤ 0x5FFFFF then regsEth
  else if 0x600000 ≤ off ∧ off ≤ 0x60FFFF then regsDprx
  else if 0x610000 ≤ off ∧ off ≤ 0x61FFFF then regsDptx
  else if 0x620000 ≤ off ∧ off ≤ 0x62FFFF then regsPrev
  else if 0x700000 ≤ off ∧ off ≤ 0x7FFFFF then regsTeph
  else []

/-- SRC number of the block that owns an offset (Table 21.1: b of Table 3.4; 24 RST, 25 DPTX, 26 PREV). -/
def srcOf (off : Nat) : Nat :=
  if 0x000000 ≤ off ∧ off ≤ 0x00FFFF then 0
  else if 0x010000 ≤ off ∧ off ≤ 0x01FFFF then 24
  else if 0x020000 ≤ off ∧ off ≤ 0x02FFFF then 1
  else if 0x030000 ≤ off ∧ off ≤ 0x03FFFF then 2
  else if 0x040000 ≤ off ∧ off ≤ 0x04FFFF then 3
  else if 0x050000 ≤ off ∧ off ≤ 0x05FFFF then 4
  else if 0x060000 ≤ off ∧ off ≤ 0x06FFFF then 5
  else if 0x080000 ≤ off ∧ off ≤ 0x0FFFFF then 6
  else if 0x100000 ≤ off ∧ off ≤ 0x163FFF then 7
  else if 0x1F0000 ≤ off ∧ off ≤ 0x1FFFFF then 7
  else if 0x200000 ≤ off ∧ off ≤ 0x23FFFF then 8
  else if 0x240000 ≤ off ∧ off ≤ 0x27FFFF then 9
  else if 0x280000 ≤ off ∧ off ≤ 0x2BFFFF then 10
  else if 0x2C0000 ≤ off ∧ off ≤ 0x2FFFFF then 11
  else if 0x300000 ≤ off ∧ off ≤ 0x33FFFF then 12
  else if 0x340000 ≤ off ∧ off ≤ 0x37FFFF then 13
  else if 0x380000 ≤ off ∧ off ≤ 0x3BFFFF then 14
  else if 0x3C0000 ≤ off ∧ off ≤ 0x3FFFFF then 15
  else if 0x400000 ≤ off ∧ off ≤ 0x41D7FF then 16
  else if 0x480000 ≤ off ∧ off ≤ 0x4DFFFF then 17
  else if 0x4F0000 ≤ off ∧ off ≤ 0x4FFFFF then 17
  else if 0x500000 ≤ off ∧ off ≤ 0x53FFFF then 18
  else if 0x540000 ≤ off ∧ off ≤ 0x57FFFF then 19
  else if 0x580000 ≤ off ∧ off ≤ 0x5BFFFF then 20
  else if 0x5C0000 ≤ off ∧ off ≤ 0x5FFFFF then 21
  else if 0x600000 ≤ off ∧ off ≤ 0x60FFFF then 22
  else if 0x610000 ≤ off ∧ off ≤ 0x61FFFF then 25
  else if 0x620000 ≤ off ∧ off ≤ 0x62FFFF then 26
  else if 0x700000 ≤ off ∧ off ≤ 0x7FFFFF then 23
  else 0

/-! ### Field constants: R.<REGISTER> is the whole register, R.<REGISTER>_<FIELD> a field of it. -/

def R.CTL_ID : Fld := ⟨0x000000, 0x0, 0x0, 0, 32, 1, 1⟩
def R.CTL_REV : Fld := ⟨0x000004, 0x0, 0x0, 0, 32, 1, 1⟩
def R.CTL_REV_METAL : Fld := ⟨0x000004, 0x0, 0x0, 0, 8, 1, 1⟩
def R.CTL_REV_BASE : Fld := ⟨0x000004, 0x0, 0x0, 8, 8, 1, 1⟩
def R.CTL_REV_BOARD : Fld := ⟨0x000004, 0x0, 0x0, 16, 8, 1, 1⟩
def R.CTL_SCRATCH : Fld := ⟨0x000008, 0x0, 0x0, 0, 32, 1, 1⟩
def R.CTL_UPDATE : Fld := ⟨0x000010, 0x0, 0x0, 0, 32, 1, 1⟩
def R.CTL_UPDATE_GROUPS : Fld := ⟨0x000010, 0x0, 0x0, 0, 16, 1, 1⟩
def R.CTL_UPDATE_WHEN : Fld := ⟨0x000010, 0x0, 0x0, 16, 2, 1, 1⟩
def R.CTL_UPDATE_TIME : Fld := ⟨0x000014, 0x0, 0x0, 0, 32, 1, 1⟩
def R.CTL_UPDATE_STAT : Fld := ⟨0x000018, 0x0, 0x0, 0, 32, 1, 1⟩
def R.CTL_UPDATE_STAT_PENDING : Fld := ⟨0x000018, 0x0, 0x0, 0, 16, 1, 1⟩
def R.CTL_UPDATE_STAT_DONE : Fld := ⟨0x000018, 0x0, 0x0, 16, 16, 1, 1⟩
def R.CTL_UPDATE_LATE : Fld := ⟨0x00001C, 0x0, 0x0, 0, 32, 1, 1⟩
def R.CTL_UPDATE_LATE_LATE : Fld := ⟨0x00001C, 0x0, 0x0, 0, 16, 1, 1⟩
def R.CTL_UPDATE_LATE_REPLACED : Fld := ⟨0x00001C, 0x0, 0x0, 16, 16, 1, 1⟩
def R.CTL_BUSERR_ADDR : Fld := ⟨0x000030, 0x0, 0x0, 0, 24, 1, 1⟩
def R.CTL_BUSERR_INFO : Fld := ⟨0x000034, 0x0, 0x0, 0, 32, 1, 1⟩
def R.CTL_BUSERR_INFO_REQ : Fld := ⟨0x000034, 0x0, 0x0, 0, 2, 1, 1⟩
def R.CTL_BUSERR_INFO_WRITE : Fld := ⟨0x000034, 0x0, 0x0, 2, 1, 1, 1⟩
def R.CTL_BUSERR_INFO_KIND : Fld := ⟨0x000034, 0x0, 0x0, 3, 3, 1, 1⟩
def R.CTL_BUSERR_INFO_OVERFLOW : Fld := ⟨0x000034, 0x0, 0x0, 6, 1, 1, 1⟩
def R.CTL_BUSERR_INFO_VALID : Fld := ⟨0x000034, 0x0, 0x0, 31, 1, 1, 1⟩
def R.CTL_BUSERR_COUNT : Fld := ⟨0x000038, 0x0, 0x0, 0, 32, 1, 1⟩
def R.CTL_IRQ_STATUS : Fld := ⟨0x000040, 0x0, 0x0, 0, 32, 1, 1⟩
def R.CTL_IRQ_STATUS_BUSERR : Fld := ⟨0x000040, 0x0, 0x0, 0, 1, 1, 1⟩
def R.CTL_IRQ_STATUS_UPDATE : Fld := ⟨0x000040, 0x0, 0x0, 1, 1, 1, 1⟩
def R.CTL_IRQ_STATUS_LATE : Fld := ⟨0x000040, 0x0, 0x0, 2, 1, 1, 1⟩
def R.CTL_IRQ_STATUS_REPLACED : Fld := ⟨0x000040, 0x0, 0x0, 3, 1, 1, 1⟩
def R.CTL_IRQ_MASK : Fld := ⟨0x000044, 0x0, 0x0, 0, 4, 1, 1⟩
def R.CTL_IRQ_ROUTE : Fld := ⟨0x000100, 0x4, 0x0, 0, 6, 24, 1⟩
def R.RST_CAUSE : Fld := ⟨0x010000, 0x0, 0x0, 0, 32, 1, 1⟩
def R.RST_CAUSE_POR : Fld := ⟨0x010000, 0x0, 0x0, 0, 1, 1, 1⟩
def R.RST_CAUSE_PIN : Fld := ⟨0x010000, 0x0, 0x0, 1, 1, 1, 1⟩
def R.RST_CAUSE_WDOG : Fld := ⟨0x010000, 0x0, 0x0, 2, 1, 1, 1⟩
def R.RST_CAUSE_TAMPER : Fld := ⟨0x010000, 0x0, 0x0, 3, 1, 1, 1⟩
def R.RST_CAUSE_SW_SYS : Fld := ⟨0x010000, 0x0, 0x0, 4, 1, 1, 1⟩
def R.RST_CAUSE_SW_CORE : Fld := ⟨0x010000, 0x0, 0x0, 5, 1, 1, 1⟩
def R.RST_CAUSE_FABRIC_FATAL : Fld := ⟨0x010000, 0x0, 0x0, 6, 1, 1, 1⟩
def R.RST_CAUSE_LOAD_HELD : Fld := ⟨0x010000, 0x0, 0x0, 7, 1, 1, 1⟩
def R.RST_CAUSE_SYS_COUNT : Fld := ⟨0x010000, 0x0, 0x0, 16, 16, 1, 1⟩
def R.RST_REQ : Fld := ⟨0x010004, 0x0, 0x0, 0, 32, 1, 1⟩
def R.RST_REQ_LEVEL : Fld := ⟨0x010004, 0x0, 0x0, 0, 2, 1, 1⟩
def R.RST_REQ_KEY : Fld := ⟨0x010004, 0x0, 0x0, 16, 16, 1, 1⟩
def R.RST_STRAP : Fld := ⟨0x010008, 0x0, 0x0, 0, 32, 1, 1⟩
def R.RST_STRAP_READING : Fld := ⟨0x010008, 0x0, 0x0, 0, 10, 1, 1⟩
def R.RST_STRAP_CODE : Fld := ⟨0x010008, 0x0, 0x0, 16, 4, 1, 1⟩
def R.RST_STRAP_ROLE : Fld := ⟨0x010008, 0x0, 0x0, 20, 2, 1, 1⟩
def R.RST_STRAP_BOOT_SRC : Fld := ⟨0x010008, 0x0, 0x0, 22, 1, 1, 1⟩
def R.RST_STRAP_INPUT : Fld := ⟨0x010008, 0x0, 0x0, 23, 1, 1, 1⟩
def R.RST_STRAP_OPEN : Fld := ⟨0x010008, 0x0, 0x0, 24, 1, 1, 1⟩
def R.RST_STRAP_SHORT : Fld := ⟨0x010008, 0x0, 0x0, 25, 1, 1, 1⟩
def R.RST_STRAP_MARGIN : Fld := ⟨0x010008, 0x0, 0x0, 26, 1, 1, 1⟩
def R.RST_STAGE : Fld := ⟨0x01000C, 0x0, 0x0, 0, 32, 1, 1⟩
def R.RST_STAGE_STAGE : Fld := ⟨0x01000C, 0x0, 0x0, 0, 8, 1, 1⟩
def R.RST_STAGE_FAIL : Fld := ⟨0x01000C, 0x0, 0x0, 8, 1, 1, 1⟩
def R.RST_STAGE_ELAPSED_MS : Fld := ⟨0x01000C, 0x0, 0x0, 16, 16, 1, 1⟩
def R.CARE_STAT : Fld := ⟨0x020000, 0x0, 0x0, 0, 32, 1, 1⟩
def R.CARE_STAT_ROM : Fld := ⟨0x020000, 0x0, 0x0, 0, 1, 1, 1⟩
def R.CARE_STAT_RUNNING : Fld := ⟨0x020000, 0x0, 0x0, 1, 1, 1, 1⟩
def R.CARE_STAT_FW_VER : Fld := ⟨0x020000, 0x0, 0x0, 16, 16, 1, 1⟩
def R.CARE_MBX_DATA : Fld := ⟨0x020100, 0x10, 0x0, 0, 32, 32, 1⟩
def R.CARE_MBX_STAT : Fld := ⟨0x020104, 0x10, 0x0, 0, 32, 32, 1⟩
def R.CARE_MBX_STAT_FULL : Fld := ⟨0x020104, 0x10, 0x0, 0, 1, 32, 1⟩
def R.CARE_MBX_STAT_ACKED : Fld := ⟨0x020104, 0x10, 0x0, 1, 1, 32, 1⟩
def R.CARE_MBX_STAT_SEQ : Fld := ⟨0x020104, 0x10, 0x0, 2, 1, 32, 1⟩
def R.CARE_MBX_STAT_RET : Fld := ⟨0x020104, 0x10, 0x0, 16, 16, 32, 1⟩
def R.CARE_MBX_ACK : Fld := ⟨0x020108, 0x10, 0x0, 0, 16, 32, 1⟩
def R.CARE_MBX_CTRL : Fld := ⟨0x02010C, 0x10, 0x0, 0, 1, 32, 1⟩
def R.CARE_MBX_FULL : Fld := ⟨0x020400, 0x0, 0x0, 0, 32, 1, 1⟩
def R.CARE_MBX_COUNT : Fld := ⟨0x020404, 0x0, 0x0, 0, 32, 1, 1⟩
def R.CARE_MBX_COUNT_REJECTED : Fld := ⟨0x020404, 0x0, 0x0, 0, 16, 1, 1⟩
def R.CARE_MBX_COUNT_STRAY : Fld := ⟨0x020404, 0x0, 0x0, 16, 16, 1, 1⟩
def R.CARE_ARG : Fld := ⟨0x020500, 0x4, 0x0, 0, 32, 8, 1⟩
def R.CARE_RES : Fld := ⟨0x020520, 0x4, 0x0, 0, 32, 8, 1⟩
def R.CARE_RES_TAG : Fld := ⟨0x020540, 0x0, 0x0, 0, 8, 1, 1⟩
def R.CARE_LOCK : Fld := ⟨0x020600, 0x4, 0x0, 0, 3, 16, 1⟩
def R.CARE_LOCK_STAT : Fld := ⟨0x020680, 0x0, 0x0, 0, 32, 1, 1⟩
def R.CARE_LOCK_STAT_FAILED : Fld := ⟨0x020680, 0x0, 0x0, 0, 16, 1, 1⟩
def R.CARE_LOCK_STAT_STRAY : Fld := ⟨0x020680, 0x0, 0x0, 16, 16, 1, 1⟩
def R.CARE_IRQ_STATUS : Fld := ⟨0x020700, 0x0, 0x0, 0, 32, 1, 1⟩
def R.CARE_IRQ_STATUS_MBX_IN : Fld := ⟨0x020700, 0x0, 0x0, 0, 1, 1, 1⟩
def R.CARE_IRQ_STATUS_MBX_ACKED : Fld := ⟨0x020700, 0x0, 0x0, 1, 1, 1, 1⟩
def R.CARE_IRQ_STATUS_LOCK_FREED : Fld := ⟨0x020700, 0x0, 0x0, 2, 1, 1, 1⟩
def R.CARE_IRQ_STATUS_REJECTED : Fld := ⟨0x020700, 0x0, 0x0, 3, 1, 1, 1⟩
def R.CARE_IRQ_MASK : Fld := ⟨0x020704, 0x0, 0x0, 0, 4, 1, 1⟩
def R.SEC_STAT : Fld := ⟨0x030000, 0x0, 0x0, 0, 32, 1, 1⟩
def R.SEC_STAT_DEBUG : Fld := ⟨0x030000, 0x0, 0x0, 0, 1, 1, 1⟩
def R.SEC_STAT_DEBUG_LEVEL : Fld := ⟨0x030000, 0x0, 0x0, 1, 2, 1, 1⟩
def R.SEC_STAT_CHALLENGE : Fld := ⟨0x030000, 0x0, 0x0, 3, 1, 1, 1⟩
def R.SEC_STAT_HSS_LOW : Fld := ⟨0x030000, 0x0, 0x0, 4, 1, 1, 1⟩
def R.SEC_STAT_OWNER_ENROLLED : Fld := ⟨0x030000, 0x0, 0x0, 8, 4, 1, 1⟩
def R.SEC_STAT_OWNER_CLOSED : Fld := ⟨0x030000, 0x0, 0x0, 12, 4, 1, 1⟩
def R.SEC_STAT_FW_SLOT : Fld := ⟨0x030000, 0x0, 0x0, 16, 1, 1, 1⟩
def R.SEC_STAT_HOST_BOOT : Fld := ⟨0x030000, 0x0, 0x0, 17, 1, 1, 1⟩
def R.SEC_SVN_FW : Fld := ⟨0x030008, 0x0, 0x0, 0, 64, 1, 1⟩
def R.SEC_SVN_PERS : Fld := ⟨0x030010, 0x0, 0x0, 0, 64, 1, 1⟩
def R.SEC_SVN_ROWS : Fld := ⟨0x030018, 0x0, 0x0, 0, 32, 1, 1⟩
def R.SEC_SVN_ROWS_FW : Fld := ⟨0x030018, 0x0, 0x0, 0, 7, 1, 1⟩
def R.SEC_SVN_ROWS_PERS : Fld := ⟨0x030018, 0x0, 0x0, 8, 7, 1, 1⟩
def R.SEC_SVN_COMMIT : Fld := ⟨0x03001C, 0x0, 0x0, 0, 32, 1, 1⟩
def R.SEC_SVN_COMMIT_FW : Fld := ⟨0x03001C, 0x0, 0x0, 0, 1, 1, 1⟩
def R.SEC_SVN_COMMIT_PERS : Fld := ⟨0x03001C, 0x0, 0x0, 1, 1, 1, 1⟩
def R.SEC_SVN_COMMIT_KEY : Fld := ⟨0x03001C, 0x0, 0x0, 16, 16, 1, 1⟩
def R.SEC_SVN_RESULT : Fld := ⟨0x030020, 0x0, 0x0, 0, 32, 1, 1⟩
def R.SEC_SVN_RESULT_ERR : Fld := ⟨0x030020, 0x0, 0x0, 0, 8, 1, 1⟩
def R.SEC_SVN_RESULT_BUSY : Fld := ⟨0x030020, 0x0, 0x0, 8, 1, 1, 1⟩
def R.SEC_FW_SVN : Fld := ⟨0x030028, 0x0, 0x0, 0, 64, 1, 1⟩
def R.SEC_FW_DIGEST : Fld := ⟨0x030030, 0x4, 0x0, 0, 32, 12, 1⟩
def R.SEC_HSS_INDEX : Fld := ⟨0x030060, 0x0, 0x0, 0, 32, 1, 1⟩
def R.SEC_HSS_INDEX_NEXT : Fld := ⟨0x030060, 0x0, 0x0, 0, 20, 1, 1⟩
def R.SEC_HSS_INDEX_OUT : Fld := ⟨0x030060, 0x0, 0x0, 20, 1, 1, 1⟩
def R.SEC_HSS_LEFT : Fld := ⟨0x030064, 0x0, 0x0, 0, 21, 1, 1⟩
def R.SEC_DBG_ADDR : Fld := ⟨0x030070, 0x0, 0x0, 0, 64, 1, 1⟩
def R.SEC_DBG_LEN : Fld := ⟨0x030078, 0x0, 0x0, 0, 16, 1, 1⟩
def R.SEC_DBG_CMD : Fld := ⟨0x03007C, 0x0, 0x0, 0, 32, 1, 1⟩
def R.SEC_DBG_CMD_SUBMIT : Fld := ⟨0x03007C, 0x0, 0x0, 0, 1, 1, 1⟩
def R.SEC_DBG_CMD_LOCK : Fld := ⟨0x03007C, 0x0, 0x0, 1, 1, 1, 1⟩
def R.SEC_DBG_CMD_KEY : Fld := ⟨0x03007C, 0x0, 0x0, 16, 16, 1, 1⟩
def R.SEC_DBG_STAT : Fld := ⟨0x030080, 0x0, 0x0, 0, 32, 1, 1⟩
def R.SEC_DBG_STAT_ERR : Fld := ⟨0x030080, 0x0, 0x0, 0, 16, 1, 1⟩
def R.SEC_DBG_STAT_FAILED : Fld := ⟨0x030080, 0x0, 0x0, 16, 16, 1, 1⟩
def R.SEC_IRQ_STATUS : Fld := ⟨0x030100, 0x0, 0x0, 0, 32, 1, 1⟩
def R.SEC_IRQ_STATUS_COMMIT : Fld := ⟨0x030100, 0x0, 0x0, 0, 1, 1, 1⟩
def R.SEC_IRQ_STATUS_DEBUG : Fld := ⟨0x030100, 0x0, 0x0, 1, 1, 1, 1⟩
def R.SEC_IRQ_STATUS_DEBUG_FAIL : Fld := ⟨0x030100, 0x0, 0x0, 2, 1, 1, 1⟩
def R.SEC_IRQ_STATUS_HSS_LOW : Fld := ⟨0x030100, 0x0, 0x0, 3, 1, 1, 1⟩
def R.SEC_IRQ_STATUS_KEY_EXPIRED : Fld := ⟨0x030100, 0x0, 0x0, 4, 1, 1, 1⟩
def R.SEC_IRQ_MASK : Fld := ⟨0x030104, 0x0, 0x0, 0, 5, 1, 1⟩
def R.THM_CAP : Fld := ⟨0x040000, 0x0, 0x0, 0, 32, 1, 1⟩
def R.THM_CAP_SENSORS : Fld := ⟨0x040000, 0x0, 0x0, 0, 7, 1, 1⟩
def R.THM_CAP_ZONES : Fld := ⟨0x040000, 0x0, 0x0, 8, 4, 1, 1⟩
def R.THM_CAP_DOMAINS : Fld := ⟨0x040000, 0x0, 0x0, 16, 5, 1, 1⟩
def R.THM_CTRL : Fld := ⟨0x040004, 0x0, 0x0, 0, 1, 1, 1⟩
def R.THM_THRESH : Fld := ⟨0x040008, 0x0, 0x0, 0, 32, 1, 1⟩
def R.THM_THRESH_START : Fld := ⟨0x040008, 0x0, 0x0, 0, 8, 1, 1⟩
def R.THM_THRESH_FULL : Fld := ⟨0x040008, 0x0, 0x0, 8, 8, 1, 1⟩
def R.THM_THRESH_SHUTDOWN : Fld := ⟨0x040008, 0x0, 0x0, 16, 8, 1, 1⟩
def R.THM_STAT : Fld := ⟨0x04000C, 0x0, 0x0, 0, 32, 1, 1⟩
def R.THM_STAT_TMAX : Fld := ⟨0x04000C, 0x0, 0x0, 0, 16, 1, 1⟩
def R.THM_STAT_HOT_ZONE : Fld := ⟨0x04000C, 0x0, 0x0, 16, 3, 1, 1⟩
def R.THM_STAT_FAST : Fld := ⟨0x04000C, 0x0, 0x0, 19, 1, 1, 1⟩
def R.THM_STAT_LEVEL : Fld := ⟨0x04000C, 0x0, 0x0, 20, 7, 1, 1⟩
def R.THM_STAT_SHUTDOWN : Fld := ⟨0x04000C, 0x0, 0x0, 27, 1, 1, 1⟩
def R.THM_STAT_WAITING : Fld := ⟨0x04000C, 0x0, 0x0, 28, 1, 1, 1⟩
def R.THM_STAT_CUT : Fld := ⟨0x04000C, 0x0, 0x0, 29, 1, 1, 1⟩
def R.THM_THROTTLE : Fld := ⟨0x040010, 0x0, 0x0, 0, 32, 1, 1⟩
def R.THM_THROTTLE_BUDGET : Fld := ⟨0x040010, 0x0, 0x0, 0, 7, 1, 1⟩
def R.THM_THROTTLE_CLOCK : Fld := ⟨0x040010, 0x0, 0x0, 8, 11, 1, 1⟩
def R.THM_THROTTLE_VOLT_CAP : Fld := ⟨0x040010, 0x0, 0x0, 20, 10, 1, 1⟩
def R.THM_COUNT : Fld := ⟨0x040014, 0x0, 0x0, 0, 32, 1, 1⟩
def R.THM_COUNT_SHUTDOWNS : Fld := ⟨0x040014, 0x0, 0x0, 0, 16, 1, 1⟩
def R.THM_COUNT_BROKEN : Fld := ⟨0x040014, 0x0, 0x0, 16, 16, 1, 1⟩
def R.THM_VCORE : Fld := ⟨0x040018, 0x0, 0x0, 0, 10, 1, 1⟩
def R.THM_TCXO : Fld := ⟨0x04001C, 0x0, 0x0, 0, 16, 1, 1⟩
def R.THM_SENS_REARM : Fld := ⟨0x040020, 0x0, 0x0, 0, 32, 1, 1⟩
def R.THM_SENS_REARM_SENSOR : Fld := ⟨0x040020, 0x0, 0x0, 0, 7, 1, 1⟩
def R.THM_SENS_REARM_KEY : Fld := ⟨0x040020, 0x0, 0x0, 16, 16, 1, 1⟩
def R.THM_PWR_STAT : Fld := ⟨0x040030, 0x0, 0x0, 0, 28, 1, 1⟩
def R.THM_SENS : Fld := ⟨0x040100, 0x4, 0x0, 0, 32, 70, 1⟩
def R.THM_SENS_READING : Fld := ⟨0x040100, 0x4, 0x0, 0, 16, 70, 1⟩
def R.THM_SENS_BROKEN : Fld := ⟨0x040100, 0x4, 0x0, 16, 1, 70, 1⟩
def R.THM_SENS_CAUSE : Fld := ⟨0x040100, 0x4, 0x0, 17, 2, 70, 1⟩
def R.THM_SENS_ZONE : Fld := ⟨0x040100, 0x4, 0x0, 20, 4, 70, 1⟩
def R.THM_ZONE : Fld := ⟨0x040300, 0x4, 0x0, 0, 32, 8, 1⟩
def R.THM_ZONE_READING : Fld := ⟨0x040300, 0x4, 0x0, 0, 16, 8, 1⟩
def R.THM_ZONE_BROKEN : Fld := ⟨0x040300, 0x4, 0x0, 16, 4, 8, 1⟩
def R.THM_IRQ_STATUS : Fld := ⟨0x040600, 0x0, 0x0, 0, 32, 1, 1⟩
def R.THM_IRQ_STATUS_THROTTLE : Fld := ⟨0x040600, 0x0, 0x0, 0, 1, 1, 1⟩
def R.THM_IRQ_STATUS_BROKEN : Fld := ⟨0x040600, 0x0, 0x0, 1, 1, 1, 1⟩
def R.THM_IRQ_STATUS_SHUTDOWN : Fld := ⟨0x040600, 0x0, 0x0, 2, 1, 1, 1⟩
def R.THM_IRQ_STATUS_RESTART_OK : Fld := ⟨0x040600, 0x0, 0x0, 3, 1, 1, 1⟩
def R.THM_IRQ_STATUS_COLDPLATE : Fld := ⟨0x040600, 0x0, 0x0, 4, 1, 1, 1⟩
def R.THM_IRQ_MASK : Fld := ⟨0x040604, 0x0, 0x0, 0, 5, 1, 1⟩
def R.CAL_CTRL : Fld := ⟨0x050000, 0x0, 0x0, 0, 32, 1, 1⟩
def R.CAL_CTRL_EN : Fld := ⟨0x050000, 0x0, 0x0, 0, 4, 1, 1⟩
def R.CAL_CTRL_DELTA : Fld := ⟨0x050000, 0x0, 0x0, 4, 6, 1, 1⟩
def R.CAL_CTRL_PERIOD : Fld := ⟨0x050000, 0x0, 0x0, 16, 12, 1, 1⟩
def R.CAL_STAT : Fld := ⟨0x050004, 0x0, 0x0, 0, 32, 1, 1⟩
def R.CAL_STAT_RUNNING : Fld := ⟨0x050004, 0x0, 0x0, 0, 4, 1, 1⟩
def R.CAL_STAT_PENDING : Fld := ⟨0x050004, 0x0, 0x0, 8, 4, 1, 1⟩
def R.CAL_REQ : Fld := ⟨0x050008, 0x0, 0x0, 0, 32, 1, 1⟩
def R.CAL_REQ_SUBJECTS : Fld := ⟨0x050008, 0x0, 0x0, 0, 4, 1, 1⟩
def R.CAL_REQ_KEY : Fld := ⟨0x050008, 0x0, 0x0, 16, 16, 1, 1⟩
def R.CAL_SUBJ_LAST : Fld := ⟨0x050010, 0x10, 0x0, 0, 32, 4, 1⟩
def R.CAL_SUBJ_LAST_REF : Fld := ⟨0x050010, 0x10, 0x0, 0, 16, 4, 1⟩
def R.CAL_SUBJ_LAST_MINUTES : Fld := ⟨0x050010, 0x10, 0x0, 16, 16, 4, 1⟩
def R.CAL_SUBJ_COUNT : Fld := ⟨0x050014, 0x10, 0x0, 0, 32, 4, 1⟩
def R.CAL_SUBJ_COUNT_RUNS : Fld := ⟨0x050014, 0x10, 0x0, 0, 16, 4, 1⟩
def R.CAL_SUBJ_COUNT_TIMEOUTS : Fld := ⟨0x050014, 0x10, 0x0, 16, 16, 4, 1⟩
def R.CAL_IRQ_STATUS : Fld := ⟨0x050100, 0x0, 0x0, 0, 32, 1, 1⟩
def R.CAL_IRQ_STATUS_DONE : Fld := ⟨0x050100, 0x0, 0x0, 0, 1, 1, 1⟩
def R.CAL_IRQ_STATUS_TIMEOUT : Fld := ⟨0x050100, 0x0, 0x0, 1, 1, 1, 1⟩
def R.CAL_IRQ_MASK : Fld := ⟨0x050104, 0x0, 0x0, 0, 2, 1, 1⟩
def R.TIME_CTRL : Fld := ⟨0x060000, 0x0, 0x0, 0, 32, 1, 1⟩
def R.TIME_CTRL_SRC : Fld := ⟨0x060000, 0x0, 0x0, 0, 2, 1, 1⟩
def R.TIME_CTRL_AUTO_FIRST : Fld := ⟨0x060000, 0x0, 0x0, 2, 1, 1, 1⟩
def R.TIME_CTRL_PPS_OUT_EN : Fld := ⟨0x060000, 0x0, 0x0, 3, 1, 1, 1⟩
def R.TIME_CTRL_PPS_FREE : Fld := ⟨0x060000, 0x0, 0x0, 4, 1, 1, 1⟩
def R.TIME_STAT : Fld := ⟨0x060004, 0x0, 0x0, 0, 32, 1, 1⟩
def R.TIME_STAT_SRC_EFF : Fld := ⟨0x060004, 0x0, 0x0, 0, 3, 1, 1⟩
def R.TIME_STAT_LOCKED : Fld := ⟨0x060004, 0x0, 0x0, 3, 1, 1, 1⟩
def R.TIME_STAT_HOLDOVER : Fld := ⟨0x060004, 0x0, 0x0, 4, 1, 1, 1⟩
def R.TIME_STAT_JUMP_PEND : Fld := ⟨0x060004, 0x0, 0x0, 5, 1, 1, 1⟩
def R.TIME_STAT_SLEWING : Fld := ⟨0x060004, 0x0, 0x0, 6, 1, 1, 1⟩
def R.TIME_STAT_DIAG : Fld := ⟨0x060004, 0x0, 0x0, 8, 2, 1, 1⟩
def R.TIME_STAT_UPSTREAM : Fld := ⟨0x060004, 0x0, 0x0, 10, 2, 1, 1⟩
def R.TIME_STAT_HOPS : Fld := ⟨0x060004, 0x0, 0x0, 12, 6, 1, 1⟩
def R.TIME_NOW : Fld := ⟨0x060008, 0x0, 0x0, 0, 64, 1, 1⟩
def R.TIME_SHORT : Fld := ⟨0x060010, 0x0, 0x0, 0, 32, 1, 1⟩
def R.TIME_RAW : Fld := ⟨0x060018, 0x0, 0x0, 0, 64, 1, 1⟩
def R.TIME_RATE : Fld := ⟨0x060020, 0x0, 0x0, 0, 64, 1, 1⟩
def R.TIME_ADJ_RATE : Fld := ⟨0x060028, 0x0, 0x0, 0, 64, 1, 1⟩
def R.TIME_ADJ_STEP : Fld := ⟨0x060030, 0x0, 0x0, 0, 64, 1, 1⟩
def R.TIME_ADJ_FRAC : Fld := ⟨0x060038, 0x0, 0x0, 0, 16, 1, 1⟩
def R.TIME_JUMP_LIM : Fld := ⟨0x060040, 0x0, 0x0, 0, 32, 1, 1⟩
def R.TIME_CMD : Fld := ⟨0x060044, 0x0, 0x0, 0, 32, 1, 1⟩
def R.TIME_CMD_ACCEPT : Fld := ⟨0x060044, 0x0, 0x0, 0, 1, 1, 1⟩
def R.TIME_CMD_SLEW : Fld := ⟨0x060044, 0x0, 0x0, 1, 1, 1, 1⟩
def R.TIME_CMD_DISCARD : Fld := ⟨0x060044, 0x0, 0x0, 2, 1, 1, 1⟩
def R.TIME_CMD_KEY : Fld := ⟨0x060044, 0x0, 0x0, 16, 16, 1, 1⟩
def R.TIME_JUMP_PEND : Fld := ⟨0x060048, 0x0, 0x0, 0, 64, 1, 1⟩
def R.TIME_SLEW : Fld := ⟨0x060050, 0x0, 0x0, 0, 7, 1, 1⟩
def R.TIME_LOCK : Fld := ⟨0x060054, 0x0, 0x0, 0, 16, 1, 1⟩
def R.TIME_PTP : Fld := ⟨0x060060, 0x0, 0x0, 0, 32, 1, 1⟩
def R.TIME_PTP_PORT : Fld := ⟨0x060060, 0x0, 0x0, 0, 3, 1, 1⟩
def R.TIME_PTP_DOMAIN : Fld := ⟨0x060060, 0x0, 0x0, 8, 8, 1, 1⟩
def R.TIME_PTP_PROFILE : Fld := ⟨0x060060, 0x0, 0x0, 16, 1, 1, 1⟩
def R.TIME_PTP_IPV6 : Fld := ⟨0x060060, 0x0, 0x0, 17, 1, 1, 1⟩
def R.TIME_PTP_STAT : Fld := ⟨0x060064, 0x0, 0x0, 0, 32, 1, 1⟩
def R.TIME_PTP_STAT_STATE : Fld := ⟨0x060064, 0x0, 0x0, 0, 2, 1, 1⟩
def R.TIME_PTP_STAT_DELAY : Fld := ⟨0x060064, 0x0, 0x0, 8, 24, 1, 1⟩
def R.TIME_PTP_GM : Fld := ⟨0x060068, 0x0, 0x0, 0, 64, 1, 1⟩
def R.TIME_PTP_OFFSET : Fld := ⟨0x060070, 0x0, 0x0, 0, 32, 1, 1⟩
def R.TIME_PPS : Fld := ⟨0x060080, 0x0, 0x0, 0, 10, 1, 1⟩
def R.TIME_PPS_CAP : Fld := ⟨0x060088, 0x0, 0x0, 0, 64, 1, 1⟩
def R.TIME_LAUNCH : Fld := ⟨0x060100, 0x0, 0x0, 0, 32, 1, 1⟩
def R.TIME_LAUNCH_CTRL : Fld := ⟨0x060104, 0x0, 0x0, 0, 1, 1, 1⟩
def R.TIME_LAUNCH_STAT : Fld := ⟨0x060108, 0x0, 0x0, 0, 32, 1, 1⟩
def R.TIME_LAUNCH_STAT_QUEUED : Fld := ⟨0x060108, 0x0, 0x0, 0, 4, 1, 1⟩
def R.TIME_LAUNCH_STAT_DROPPED : Fld := ⟨0x060108, 0x0, 0x0, 16, 16, 1, 1⟩
def R.TIME_LAUNCH_LAST : Fld := ⟨0x060110, 0x0, 0x0, 0, 64, 1, 1⟩
def R.TIME_IRQ_STATUS : Fld := ⟨0x060200, 0x0, 0x0, 0, 32, 1, 1⟩
def R.TIME_IRQ_STATUS_LOCK_CHANGE : Fld := ⟨0x060200, 0x0, 0x0, 0, 1, 1, 1⟩
def R.TIME_IRQ_STATUS_JUMP_REFUSED : Fld := ⟨0x060200, 0x0, 0x0, 1, 1, 1, 1⟩
def R.TIME_IRQ_STATUS_SLEW_DONE : Fld := ⟨0x060200, 0x0, 0x0, 2, 1, 1, 1⟩
def R.TIME_IRQ_STATUS_DIAG : Fld := ⟨0x060200, 0x0, 0x0, 3, 1, 1, 1⟩
def R.TIME_IRQ_STATUS_PPS_IN : Fld := ⟨0x060200, 0x0, 0x0, 4, 1, 1, 1⟩
def R.TIME_IRQ_STATUS_LAUNCH_DONE : Fld := ⟨0x060200, 0x0, 0x0, 5, 1, 1, 1⟩
def R.TIME_IRQ_STATUS_LAUNCH_LATE : Fld := ⟨0x060200, 0x0, 0x0, 6, 1, 1, 1⟩
def R.TIME_IRQ_STATUS_LAUNCH_FULL : Fld := ⟨0x060200, 0x0, 0x0, 7, 1, 1, 1⟩
def R.TIME_IRQ_MASK : Fld := ⟨0x060204, 0x0, 0x0, 0, 8, 1, 1⟩
def R.PERS_CAP : Fld := ⟨0x080000, 0x0, 0x0, 0, 32, 1, 1⟩
def R.PERS_CAP_SLOTS : Fld := ⟨0x080000, 0x0, 0x0, 0, 4, 1, 1⟩
def R.PERS_CAP_MAX_MIB : Fld := ⟨0x080000, 0x0, 0x0, 4, 8, 1, 1⟩
def R.PERS_CAP_FMT_MAJOR : Fld := ⟨0x080000, 0x0, 0x0, 12, 4, 1, 1⟩
def R.PERS_STATE : Fld := ⟨0x080004, 0x0, 0x0, 0, 32, 1, 1⟩
def R.PERS_STATE_ACTIVE_SLOT : Fld := ⟨0x080004, 0x0, 0x0, 0, 3, 1, 1⟩
def R.PERS_STATE_ACTIVE_VALID : Fld := ⟨0x080004, 0x0, 0x0, 3, 1, 1, 1⟩
def R.PERS_STATE_STAGED_SLOT : Fld := ⟨0x080004, 0x0, 0x0, 4, 3, 1, 1⟩
def R.PERS_STATE_STAGED_VALID : Fld := ⟨0x080004, 0x0, 0x0, 7, 1, 1, 1⟩
def R.PERS_STATE_PRELOADING : Fld := ⟨0x080004, 0x0, 0x0, 8, 1, 1, 1⟩
def R.PERS_STATE_PENDING : Fld := ⟨0x080004, 0x0, 0x0, 9, 1, 1, 1⟩
def R.PERS_STATE_PENDING_SLOT : Fld := ⟨0x080004, 0x0, 0x0, 10, 3, 1, 1⟩
def R.PERS_STATE_RETIRED : Fld := ⟨0x080004, 0x0, 0x0, 16, 9, 1, 1⟩
def R.PERS_STATE_SPARES_LEFT : Fld := ⟨0x080004, 0x0, 0x0, 25, 5, 1, 1⟩
def R.PERS_ACT : Fld := ⟨0x080008, 0x0, 0x0, 0, 32, 1, 1⟩
def R.PERS_ACT_SLOT : Fld := ⟨0x080008, 0x0, 0x0, 0, 3, 1, 1⟩
def R.PERS_ACT_WHEN : Fld := ⟨0x080008, 0x0, 0x0, 4, 2, 1, 1⟩
def R.PERS_ACT_TIME : Fld := ⟨0x08000C, 0x0, 0x0, 0, 32, 1, 1⟩
def R.PERS_CTRL : Fld := ⟨0x080010, 0x0, 0x0, 0, 1, 1, 1⟩
def R.PERS_LAST : Fld := ⟨0x080014, 0x0, 0x0, 0, 32, 1, 1⟩
def R.PERS_LAST_SLOT : Fld := ⟨0x080014, 0x0, 0x0, 0, 3, 1, 1⟩
def R.PERS_LAST_ERR : Fld := ⟨0x080014, 0x0, 0x0, 8, 8, 1, 1⟩
def R.PERS_LAST_COUNT : Fld := ⟨0x080014, 0x0, 0x0, 16, 16, 1, 1⟩
def R.PERS_CONTENTION : Fld := ⟨0x080018, 0x0, 0x0, 0, 32, 1, 1⟩
def R.PERS_CONTENTION_DEFERRED : Fld := ⟨0x080018, 0x0, 0x0, 0, 16, 1, 1⟩
def R.PERS_CONTENTION_ABANDONED : Fld := ⟨0x080018, 0x0, 0x0, 16, 16, 1, 1⟩
def R.PERS_PARTIAL_COUNT : Fld := ⟨0x08001C, 0x0, 0x0, 0, 32, 1, 1⟩
def R.PERS_IRQ_STATUS : Fld := ⟨0x080020, 0x0, 0x0, 0, 32, 1, 1⟩
def R.PERS_IRQ_STATUS_LOAD_DONE : Fld := ⟨0x080020, 0x0, 0x0, 0, 1, 1, 1⟩
def R.PERS_IRQ_STATUS_PRELOAD_DONE : Fld := ⟨0x080020, 0x0, 0x0, 1, 1, 1, 1⟩
def R.PERS_IRQ_STATUS_ACTIVATED : Fld := ⟨0x080020, 0x0, 0x0, 2, 1, 1, 1⟩
def R.PERS_IRQ_STATUS_REFUSED : Fld := ⟨0x080020, 0x0, 0x0, 3, 1, 1, 1⟩
def R.PERS_IRQ_STATUS_PRELOAD_ABANDONED : Fld := ⟨0x080020, 0x0, 0x0, 4, 1, 1, 1⟩
def R.PERS_IRQ_STATUS_ACT_SLIPPED : Fld := ⟨0x080020, 0x0, 0x0, 5, 1, 1, 1⟩
def R.PERS_IRQ_STATUS_SWAP_TIMEOUT : Fld := ⟨0x080020, 0x0, 0x0, 6, 1, 1, 1⟩
def R.PERS_IRQ_STATUS_AUTO : Fld := ⟨0x080020, 0x0, 0x0, 7, 1, 1, 1⟩
def R.PERS_IRQ_MASK : Fld := ⟨0x080024, 0x0, 0x0, 0, 8, 1, 1⟩
def R.PERS_PARAM : Fld := ⟨0x080400, 0x4, 0x0, 0, 32, 64, 1⟩
def R.PERS_SLOT_SRC : Fld := ⟨0x081000, 0x100, 0x0, 0, 64, 8, 1⟩
def R.PERS_SLOT_LEN : Fld := ⟨0x081008, 0x100, 0x0, 0, 32, 8, 1⟩
def R.PERS_SLOT_CMD : Fld := ⟨0x08100C, 0x100, 0x0, 0, 4, 8, 1⟩
def R.PERS_SLOT_STAT : Fld := ⟨0x081010, 0x100, 0x0, 0, 32, 8, 1⟩
def R.PERS_SLOT_STAT_STATE : Fld := ⟨0x081010, 0x100, 0x0, 0, 3, 8, 1⟩
def R.PERS_SLOT_STAT_ERR : Fld := ⟨0x081010, 0x100, 0x0, 8, 8, 8, 1⟩
def R.PERS_SLOT_STAT_CMD_ERR : Fld := ⟨0x081010, 0x100, 0x0, 16, 8, 8, 1⟩
def R.PERS_SLOT_ERR_OFFSET : Fld := ⟨0x081014, 0x100, 0x0, 0, 32, 8, 1⟩
def R.PERS_SLOT_ID : Fld := ⟨0x081018, 0x100, 0x0, 0, 64, 8, 1⟩
def R.PERS_SLOT_FMT : Fld := ⟨0x081020, 0x100, 0x0, 0, 64, 8, 1⟩
def R.PERS_SLOT_COVER : Fld := ⟨0x081028, 0x100, 0x0, 0, 32, 8, 1⟩
def R.PERS_SLOT_COVER_MODES : Fld := ⟨0x081028, 0x100, 0x0, 0, 7, 8, 1⟩
def R.PERS_SLOT_COVER_PROFILES : Fld := ⟨0x081028, 0x100, 0x0, 8, 3, 8, 1⟩
def R.PERS_SLOT_COVER_RATES : Fld := ⟨0x081028, 0x100, 0x0, 16, 4, 8, 1⟩
def R.PERS_SLOT_COVER_KEY_SET : Fld := ⟨0x081028, 0x100, 0x0, 24, 1, 8, 1⟩
def R.PERS_SLOT_SV : Fld := ⟨0x081030, 0x100, 0x0, 0, 64, 8, 1⟩
def R.FAB_TILE_STAT : Fld := ⟨0x100000, 0x400, 0x0, 0, 32, 400, 1⟩
def R.FAB_TILE_STAT_STATE : Fld := ⟨0x100000, 0x400, 0x0, 0, 3, 400, 1⟩
def R.FAB_TILE_STAT_FUNC : Fld := ⟨0x100000, 0x400, 0x0, 4, 10, 400, 1⟩
def R.FAB_TILE_STAT_QUAD : Fld := ⟨0x100000, 0x400, 0x0, 14, 2, 400, 1⟩
def R.FAB_TILE_STAT_CLASS : Fld := ⟨0x100000, 0x400, 0x0, 16, 9, 400, 1⟩
def R.FAB_TILE_HEALTH : Fld := ⟨0x100004, 0x400, 0x0, 0, 32, 400, 1⟩
def R.FAB_TILE_HEALTH_SCORE : Fld := ⟨0x100004, 0x400, 0x0, 0, 8, 400, 1⟩
def R.FAB_TILE_HEALTH_THRESH : Fld := ⟨0x100004, 0x400, 0x0, 8, 8, 400, 1⟩
def R.FAB_TILE_HEALTH_PENALTY : Fld := ⟨0x100004, 0x400, 0x0, 16, 16, 400, 1⟩
def R.FAB_TILE_ERR : Fld := ⟨0x100008, 0x400, 0x0, 0, 32, 400, 1⟩
def R.FAB_TILE_ERR_CORR : Fld := ⟨0x100008, 0x400, 0x0, 0, 16, 400, 1⟩
def R.FAB_TILE_ERR_REFETCH : Fld := ⟨0x100008, 0x400, 0x0, 16, 8, 400, 1⟩
def R.FAB_TILE_ERR_RESIDUE : Fld := ⟨0x100008, 0x400, 0x0, 24, 8, 400, 1⟩
def R.FAB_TILE_MARGIN : Fld := ⟨0x10000C, 0x400, 0x0, 0, 32, 400, 1⟩
def R.FAB_TILE_MARGIN_ALARMS : Fld := ⟨0x10000C, 0x400, 0x0, 0, 16, 400, 1⟩
def R.FAB_TILE_MARGIN_STRETCHED : Fld := ⟨0x10000C, 0x400, 0x0, 16, 16, 400, 1⟩
def R.FAB_TILE_CLK : Fld := ⟨0x100010, 0x400, 0x0, 0, 32, 400, 1⟩
def R.FAB_TILE_CLK_MEAN : Fld := ⟨0x100010, 0x400, 0x0, 0, 11, 400, 1⟩
def R.FAB_TILE_CLK_TARGET : Fld := ⟨0x100010, 0x400, 0x0, 16, 11, 400, 1⟩
def R.FAB_TILE_BUDGET : Fld := ⟨0x100014, 0x400, 0x0, 0, 7, 400, 1⟩
def R.FAB_TILE_TOKENS : Fld := ⟨0x100018, 0x400, 0x0, 0, 64, 400, 1⟩
def R.FAB_TILE_DROP : Fld := ⟨0x100020, 0x400, 0x0, 0, 32, 400, 1⟩
def R.FAB_TILE_DROP_DISPATCH : Fld := ⟨0x100020, 0x400, 0x0, 0, 16, 400, 1⟩
def R.FAB_TILE_DROP_MISUSE : Fld := ⟨0x100020, 0x400, 0x0, 16, 16, 400, 1⟩
def R.FAB_TILE_ERRX : Fld := ⟨0x100024, 0x400, 0x0, 0, 32, 400, 1⟩
def R.FAB_TILE_ERRX_POISON : Fld := ⟨0x100024, 0x400, 0x0, 0, 16, 400, 1⟩
def R.FAB_TILE_ERRX_OVERRUN : Fld := ⟨0x100024, 0x400, 0x0, 16, 16, 400, 1⟩
def R.FAB_TILE_EVENT : Fld := ⟨0x100028, 0x400, 0x0, 0, 32, 400, 1⟩
def R.FAB_TILE_EVENT_UNCORR : Fld := ⟨0x100028, 0x400, 0x0, 0, 1, 400, 1⟩
def R.FAB_TILE_EVENT_POISON : Fld := ⟨0x100028, 0x400, 0x0, 1, 1, 400, 1⟩
def R.FAB_TILE_EVENT_TAG_MISUSE : Fld := ⟨0x100028, 0x400, 0x0, 2, 1, 400, 1⟩
def R.FAB_TILE_EVENT_BAD_OP : Fld := ⟨0x100028, 0x400, 0x0, 3, 1, 400, 1⟩
def R.FAB_TILE_EVENT_OVERRUN : Fld := ⟨0x100028, 0x400, 0x0, 4, 1, 400, 1⟩
def R.FAB_TILE_EVENT_DRAIN_TIMEOUT : Fld := ⟨0x100028, 0x400, 0x0, 5, 1, 400, 1⟩
def R.FAB_TILE_EVENT_KAT_FAIL : Fld := ⟨0x100028, 0x400, 0x0, 6, 1, 400, 1⟩
def R.FAB_TILE_CTRL : Fld := ⟨0x10002C, 0x400, 0x0, 0, 32, 400, 1⟩
def R.FAB_TILE_CTRL_MIGRATE : Fld := ⟨0x10002C, 0x400, 0x0, 0, 1, 400, 1⟩
def R.FAB_TILE_CTRL_KAT : Fld := ⟨0x10002C, 0x400, 0x0, 1, 1, 400, 1⟩
def R.FAB_TILE_CTRL_KEY : Fld := ⟨0x10002C, 0x400, 0x0, 16, 16, 400, 1⟩
def R.FAB_TILE_INJECT : Fld := ⟨0x100030, 0x400, 0x0, 0, 3, 400, 1⟩
def R.FAB_TILE_KAT : Fld := ⟨0x100034, 0x400, 0x0, 0, 32, 400, 1⟩
def R.FAB_TILE_KAT_DONE : Fld := ⟨0x100034, 0x400, 0x0, 0, 1, 400, 1⟩
def R.FAB_TILE_KAT_PASS : Fld := ⟨0x100034, 0x400, 0x0, 1, 1, 400, 1⟩
def R.FAB_TILE_KAT_COUNT : Fld := ⟨0x100034, 0x400, 0x0, 16, 16, 400, 1⟩
def R.FAB_CAP : Fld := ⟨0x1F0000, 0x0, 0x0, 0, 32, 1, 1⟩
def R.FAB_CAP_TILES : Fld := ⟨0x1F0000, 0x0, 0x0, 0, 9, 1, 1⟩
def R.FAB_CAP_LANES : Fld := ⟨0x1F0000, 0x0, 0x0, 9, 4, 1, 1⟩
def R.FAB_CAP_PORTS : Fld := ⟨0x1F0000, 0x0, 0x0, 13, 5, 1, 1⟩
def R.FAB_CTRL : Fld := ⟨0x1F0004, 0x0, 0x0, 0, 32, 1, 1⟩
def R.FAB_CTRL_INJECT_EN : Fld := ⟨0x1F0004, 0x0, 0x0, 0, 1, 1, 1⟩
def R.FAB_CTRL_KAT_PERIOD : Fld := ⟨0x1F0004, 0x0, 0x0, 8, 8, 1, 1⟩
def R.FAB_STAT : Fld := ⟨0x1F0008, 0x0, 0x0, 0, 32, 1, 1⟩
def R.FAB_STAT_ACTIVE_TILES : Fld := ⟨0x1F0008, 0x0, 0x0, 0, 9, 1, 1⟩
def R.FAB_STAT_MIGRATING : Fld := ⟨0x1F0008, 0x0, 0x0, 16, 1, 1, 1⟩
def R.FAB_STAT_SPARES_OUT : Fld := ⟨0x1F0008, 0x0, 0x0, 17, 1, 1, 1⟩
def R.FAB_STAT_DEGRADED : Fld := ⟨0x1F0008, 0x0, 0x0, 18, 1, 1, 1⟩
def R.FAB_HEALTH_WEIGHT : Fld := ⟨0x1F000C, 0x0, 0x0, 0, 32, 1, 1⟩
def R.FAB_HEALTH_WEIGHT_ECC : Fld := ⟨0x1F000C, 0x0, 0x0, 0, 8, 1, 1⟩
def R.FAB_HEALTH_WEIGHT_REFETCH : Fld := ⟨0x1F000C, 0x0, 0x0, 8, 8, 1, 1⟩
def R.FAB_HEALTH_WEIGHT_RESIDUE : Fld := ⟨0x1F000C, 0x0, 0x0, 16, 8, 1, 1⟩
def R.FAB_HEALTH_WEIGHT_MARGIN : Fld := ⟨0x1F000C, 0x0, 0x0, 24, 8, 1, 1⟩
def R.FAB_MIG_COUNT : Fld := ⟨0x1F0010, 0x0, 0x0, 0, 32, 1, 1⟩
def R.FAB_MIG_COUNT_MIGRATIONS : Fld := ⟨0x1F0010, 0x0, 0x0, 0, 16, 1, 1⟩
def R.FAB_MIG_COUNT_RESTARTS : Fld := ⟨0x1F0010, 0x0, 0x0, 16, 16, 1, 1⟩
def R.FAB_MIG_LAST : Fld := ⟨0x1F0014, 0x0, 0x0, 0, 32, 1, 1⟩
def R.FAB_MIG_LAST_FROM : Fld := ⟨0x1F0014, 0x0, 0x0, 0, 9, 1, 1⟩
def R.FAB_MIG_LAST_TO : Fld := ⟨0x1F0014, 0x0, 0x0, 16, 9, 1, 1⟩
def R.FAB_MIG_LAST_CAUSE : Fld := ⟨0x1F0014, 0x0, 0x0, 25, 3, 1, 1⟩
def R.FAB_MIG_LAST_RESULT : Fld := ⟨0x1F0014, 0x0, 0x0, 28, 3, 1, 1⟩
def R.FAB_IRQ_STATUS : Fld := ⟨0x1F0020, 0x0, 0x0, 0, 32, 1, 1⟩
def R.FAB_IRQ_STATUS_MIGRATED : Fld := ⟨0x1F0020, 0x0, 0x0, 0, 1, 1, 1⟩
def R.FAB_IRQ_STATUS_SPARES_OUT : Fld := ⟨0x1F0020, 0x0, 0x0, 1, 1, 1, 1⟩
def R.FAB_IRQ_STATUS_TILE_EVENT : Fld := ⟨0x1F0020, 0x0, 0x0, 2, 1, 1, 1⟩
def R.FAB_IRQ_STATUS_AT_LIMIT : Fld := ⟨0x1F0020, 0x0, 0x0, 3, 1, 1, 1⟩
def R.FAB_IRQ_MASK : Fld := ⟨0x1F0024, 0x0, 0x0, 0, 4, 1, 1⟩
def R.FAB_QUAD_VOLT : Fld := ⟨0x1F0100, 0x10, 0x0, 0, 10, 4, 1⟩
def R.FAB_QUAD_FREQ : Fld := ⟨0x1F0104, 0x10, 0x0, 0, 11, 4, 1⟩
def R.FAB_QUAD_LIMIT : Fld := ⟨0x1F0108, 0x10, 0x0, 0, 32, 4, 1⟩
def R.FAB_QUAD_LIMIT_AT_LIMIT : Fld := ⟨0x1F0108, 0x10, 0x0, 0, 1, 4, 1⟩
def R.FAB_QUAD_LIMIT_LIMIT_COUNT : Fld := ⟨0x1F0108, 0x10, 0x0, 16, 16, 4, 1⟩
def R.FAB_EVENT_MAP : Fld := ⟨0x1F0200, 0x4, 0x0, 0, 32, 13, 1⟩
def R.VIEW_MODE : Fld := ⟨0x200000, 0x0, 0x0, 0, 32, 1, 1⟩
def R.VIEW_MODE_LAYOUT : Fld := ⟨0x200000, 0x0, 0x0, 0, 2, 1, 1⟩
def R.VIEW_MODE_TEMPORAL : Fld := ⟨0x200000, 0x0, 0x0, 2, 2, 1, 1⟩
def R.VIEW_MODE_FAMILY : Fld := ⟨0x200000, 0x0, 0x0, 4, 2, 1, 1⟩
def R.VIEW_MODE_FLAT_MULT : Fld := ⟨0x200000, 0x0, 0x0, 6, 2, 1, 1⟩
def R.VIEW_MODE_PROFILE : Fld := ⟨0x200000, 0x0, 0x0, 8, 2, 1, 1⟩
def R.VIEW_MODE_EFF : Fld := ⟨0x200004, 0x0, 0x0, 0, 32, 1, 1⟩
def R.VIEW_MODE_EFF_MODE : Fld := ⟨0x200004, 0x0, 0x0, 0, 10, 1, 1⟩
def R.VIEW_MODE_EFF_STEER_OFF : Fld := ⟨0x200004, 0x0, 0x0, 10, 1, 1, 1⟩
def R.VIEW_MODE_EFF_VIEWS_X : Fld := ⟨0x200004, 0x0, 0x0, 16, 7, 1, 1⟩
def R.VIEW_MODE_EFF_VIEWS_Y : Fld := ⟨0x200004, 0x0, 0x0, 23, 6, 1, 1⟩
def R.VIEW_MODE_EFF_PHASES : Fld := ⟨0x200004, 0x0, 0x0, 29, 3, 1, 1⟩
def R.VIEW_CTRL : Fld := ⟨0x200008, 0x0, 0x0, 0, 32, 1, 1⟩
def R.VIEW_CTRL_MODE_SRC : Fld := ⟨0x200008, 0x0, 0x0, 0, 1, 1, 1⟩
def R.VIEW_CTRL_DEPTH_SRC : Fld := ⟨0x200008, 0x0, 0x0, 1, 1, 1, 1⟩
def R.VIEW_CTRL_DITHER : Fld := ⟨0x200008, 0x0, 0x0, 4, 2, 1, 1⟩
def R.VIEW_CTRL_RESID_EN : Fld := ⟨0x200008, 0x0, 0x0, 6, 1, 1, 1⟩
def R.VIEW_REFUSE : Fld := ⟨0x20000C, 0x0, 0x0, 0, 32, 1, 1⟩
def R.VIEW_REFUSE_REQUEST : Fld := ⟨0x20000C, 0x0, 0x0, 0, 10, 1, 1⟩
def R.VIEW_REFUSE_REASON : Fld := ⟨0x20000C, 0x0, 0x0, 12, 3, 1, 1⟩
def R.VIEW_REFUSE_COUNT : Fld := ⟨0x20000C, 0x0, 0x0, 16, 16, 1, 1⟩
def R.VIEW_IGNORED : Fld := ⟨0x200010, 0x0, 0x0, 0, 32, 1, 1⟩
def R.VIEW_IGNORED_MODE : Fld := ⟨0x200010, 0x0, 0x0, 0, 16, 1, 1⟩
def R.VIEW_IGNORED_DEPTH : Fld := ⟨0x200010, 0x0, 0x0, 16, 16, 1, 1⟩
def R.VIEW_LENS : Fld := ⟨0x200020, 0x0, 0x0, 0, 32, 1, 1⟩
def R.VIEW_LENS_PITCH_COLS : Fld := ⟨0x200020, 0x0, 0x0, 0, 7, 1, 1⟩
def R.VIEW_LENS_PITCH_ROWS : Fld := ⟨0x200020, 0x0, 0x0, 8, 5, 1, 1⟩
def R.VIEW_LENS_CELLS_X : Fld := ⟨0x200020, 0x0, 0x0, 16, 5, 1, 1⟩
def R.VIEW_LENS_CELLS_Y : Fld := ⟨0x200020, 0x0, 0x0, 24, 5, 1, 1⟩
def R.VIEW_FOCAL_FULL : Fld := ⟨0x200024, 0x0, 0x0, 0, 32, 1, 1⟩
def R.VIEW_FOCAL_FULL_KX : Fld := ⟨0x200024, 0x0, 0x0, 0, 16, 1, 1⟩
def R.VIEW_FOCAL_FULL_KY : Fld := ⟨0x200024, 0x0, 0x0, 16, 16, 1, 1⟩
def R.VIEW_FOCAL_HORIZ : Fld := ⟨0x200028, 0x0, 0x0, 0, 32, 1, 1⟩
def R.VIEW_FOCAL_HORIZ_KX : Fld := ⟨0x200028, 0x0, 0x0, 0, 16, 1, 1⟩
def R.VIEW_FOCAL_HORIZ_VSLOPE : Fld := ⟨0x200028, 0x0, 0x0, 16, 16, 1, 1⟩
def R.VIEW_STEER : Fld := ⟨0x200040, 0x10, 0x4, 0, 32, 4, 4⟩
def R.VIEW_STEER_SX : Fld := ⟨0x200040, 0x10, 0x4, 0, 16, 4, 4⟩
def R.VIEW_STEER_SY : Fld := ⟨0x200040, 0x10, 0x4, 16, 16, 4, 4⟩
def R.VIEW_DEPTH_COUNT : Fld := ⟨0x200080, 0x0, 0x0, 0, 7, 1, 1⟩
def R.VIEW_RESID : Fld := ⟨0x200084, 0x0, 0x0, 0, 32, 1, 1⟩
def R.VIEW_RESID_ANCHORS_X : Fld := ⟨0x200084, 0x0, 0x0, 0, 4, 1, 1⟩
def R.VIEW_RESID_ANCHORS_Y : Fld := ⟨0x200084, 0x0, 0x0, 4, 4, 1, 1⟩
def R.VIEW_RESID_PRESENT : Fld := ⟨0x200084, 0x0, 0x0, 8, 1, 1, 1⟩
def R.VIEW_RAYS : Fld := ⟨0x200100, 0x0, 0x0, 0, 64, 1, 1⟩
def R.VIEW_CUT : Fld := ⟨0x200108, 0x0, 0x0, 0, 32, 1, 1⟩
def R.VIEW_BLACK : Fld := ⟨0x20010C, 0x0, 0x0, 0, 32, 1, 1⟩
def R.VIEW_BAND : Fld := ⟨0x200110, 0x0, 0x0, 0, 32, 1, 1⟩
def R.VIEW_BAND_BAND : Fld := ⟨0x200110, 0x0, 0x0, 0, 7, 1, 1⟩
def R.VIEW_BAND_SUBFRAME : Fld := ⟨0x200110, 0x0, 0x0, 16, 16, 1, 1⟩
def R.VIEW_IRQ_STATUS : Fld := ⟨0x200200, 0x0, 0x0, 0, 32, 1, 1⟩
def R.VIEW_IRQ_STATUS_MODE_REFUSED : Fld := ⟨0x200200, 0x0, 0x0, 0, 1, 1, 1⟩
def R.VIEW_IRQ_STATUS_MODE_APPLIED : Fld := ⟨0x200200, 0x0, 0x0, 1, 1, 1, 1⟩
def R.VIEW_IRQ_STATUS_BAD_DEPTH : Fld := ⟨0x200200, 0x0, 0x0, 2, 1, 1, 1⟩
def R.VIEW_IRQ_STATUS_GEOM_CLAMP : Fld := ⟨0x200200, 0x0, 0x0, 3, 1, 1, 1⟩
def R.VIEW_IRQ_STATUS_VIEWS_CHANGED : Fld := ⟨0x200200, 0x0, 0x0, 4, 1, 1, 1⟩
def R.VIEW_IRQ_STATUS_OVERRUN : Fld := ⟨0x200200, 0x0, 0x0, 5, 1, 1, 1⟩
def R.VIEW_IRQ_MASK : Fld := ⟨0x200204, 0x0, 0x0, 0, 6, 1, 1⟩
def R.VIEW_DEPTH_Z : Fld := ⟨0x201000, 0x20, 0x0, 0, 32, 64, 1⟩
def R.VIEW_DEPTH_ORG_X : Fld := ⟨0x201004, 0x20, 0x0, 0, 32, 64, 1⟩
def R.VIEW_DEPTH_ORG_Y : Fld := ⟨0x201008, 0x20, 0x0, 0, 32, 64, 1⟩
def R.VIEW_DEPTH_SCALE : Fld := ⟨0x20100C, 0x20, 0x0, 0, 24, 64, 1⟩
def R.VIEW_DEPTH_SIZE : Fld := ⟨0x201010, 0x20, 0x0, 0, 32, 64, 1⟩
def R.VIEW_DEPTH_SIZE_W : Fld := ⟨0x201010, 0x20, 0x0, 0, 8, 64, 1⟩
def R.VIEW_DEPTH_SIZE_H : Fld := ⟨0x201010, 0x20, 0x0, 8, 8, 64, 1⟩
def R.VIEW_DEPTH_FLAGS : Fld := ⟨0x201014, 0x20, 0x0, 0, 32, 64, 1⟩
def R.VIEW_DEPTH_FLAGS_EDGE : Fld := ⟨0x201014, 0x20, 0x0, 0, 1, 64, 1⟩
def R.VIEW_DEPTH_FLAGS_OVERLAY : Fld := ⟨0x201014, 0x20, 0x0, 1, 1, 64, 1⟩
def R.INTK_CTRL : Fld := ⟨0x240000, 0x0, 0x0, 0, 32, 1, 1⟩
def R.INTK_CTRL_SRC : Fld := ⟨0x240000, 0x0, 0x0, 0, 2, 1, 1⟩
def R.INTK_CTRL_ETH_PORT : Fld := ⟨0x240000, 0x0, 0x0, 2, 3, 1, 1⟩
def R.INTK_CTRL_OVLY_CUE : Fld := ⟨0x240000, 0x0, 0x0, 5, 1, 1, 1⟩
def R.INTK_CTRL_SIG_CUE : Fld := ⟨0x240000, 0x0, 0x0, 6, 1, 1, 1⟩
def R.INTK_CTRL_REQ_ENC : Fld := ⟨0x240000, 0x0, 0x0, 7, 1, 1, 1⟩
def R.INTK_STAT : Fld := ⟨0x240004, 0x0, 0x0, 0, 32, 1, 1⟩
def R.INTK_STAT_FORMAT : Fld := ⟨0x240004, 0x0, 0x0, 0, 6, 1, 1⟩
def R.INTK_STAT_ADAPTER : Fld := ⟨0x240004, 0x0, 0x0, 6, 3, 1, 1⟩
def R.INTK_STAT_PLAYING : Fld := ⟨0x240004, 0x0, 0x0, 9, 1, 1, 1⟩
def R.INTK_STAT_SSRC_LOCK : Fld := ⟨0x240004, 0x0, 0x0, 10, 1, 1, 1⟩
def R.INTK_STAT_REASON : Fld := ⟨0x240004, 0x0, 0x0, 12, 3, 1, 1⟩
def R.INTK_STAT_TRACKS : Fld := ⟨0x240004, 0x0, 0x0, 16, 5, 1, 1⟩
def R.INTK_RTP : Fld := ⟨0x240008, 0x0, 0x0, 0, 32, 1, 1⟩
def R.INTK_RTP_UDP_PORT : Fld := ⟨0x240008, 0x0, 0x0, 0, 16, 1, 1⟩
def R.INTK_RTP_PT : Fld := ⟨0x240008, 0x0, 0x0, 16, 7, 1, 1⟩
def R.INTK_RTP_PT_ANY : Fld := ⟨0x240008, 0x0, 0x0, 23, 1, 1, 1⟩
def R.INTK_MCAST4 : Fld := ⟨0x24000C, 0x0, 0x0, 0, 32, 1, 1⟩
def R.INTK_MCAST6 : Fld := ⟨0x240010, 0x4, 0x0, 0, 32, 4, 1⟩
def R.INTK_WINDOW : Fld := ⟨0x240020, 0x0, 0x0, 0, 16, 1, 1⟩
def R.INTK_SSRC : Fld := ⟨0x240024, 0x0, 0x0, 0, 32, 1, 1⟩
def R.INTK_DMA_BASE : Fld := ⟨0x240100, 0x0, 0x0, 12, 52, 1, 1⟩
def R.INTK_DMA_SIZE : Fld := ⟨0x240108, 0x0, 0x0, 0, 4, 1, 1⟩
def R.INTK_DMA_HEAD : Fld := ⟨0x24010C, 0x0, 0x0, 0, 12, 1, 1⟩
def R.INTK_DMA_TAIL : Fld := ⟨0x240110, 0x0, 0x0, 0, 12, 1, 1⟩
def R.INTK_DMA_STAT : Fld := ⟨0x240114, 0x0, 0x0, 0, 32, 1, 1⟩
def R.INTK_DMA_STAT_ERR : Fld := ⟨0x240114, 0x0, 0x0, 0, 8, 1, 1⟩
def R.INTK_DMA_STAT_HALTED : Fld := ⟨0x240114, 0x0, 0x0, 8, 1, 1, 1⟩
def R.INTK_DMA_STAT_RUNNING : Fld := ⟨0x240114, 0x0, 0x0, 9, 1, 1, 1⟩
def R.INTK_DMA_CTRL : Fld := ⟨0x240118, 0x0, 0x0, 0, 32, 1, 1⟩
def R.INTK_DMA_CTRL_START : Fld := ⟨0x240118, 0x0, 0x0, 0, 1, 1, 1⟩
def R.INTK_DMA_CTRL_RESTART : Fld := ⟨0x240118, 0x0, 0x0, 1, 1, 1, 1⟩
def R.INTK_DMA_CTRL_STOP : Fld := ⟨0x240118, 0x0, 0x0, 2, 1, 1, 1⟩
def R.INTK_DMA_WB : Fld := ⟨0x240120, 0x0, 0x0, 0, 64, 1, 1⟩
def R.INTK_CONCEAL : Fld := ⟨0x240200, 0x4, 0x0, 0, 32, 14, 1⟩
def R.INTK_IRQ_STATUS : Fld := ⟨0x240300, 0x0, 0x0, 0, 32, 1, 1⟩
def R.INTK_IRQ_STATUS_SEQ : Fld := ⟨0x240300, 0x0, 0x0, 0, 1, 1, 1⟩
def R.INTK_IRQ_STATUS_REFUSED : Fld := ⟨0x240300, 0x0, 0x0, 1, 1, 1, 1⟩
def R.INTK_IRQ_STATUS_CONCEAL : Fld := ⟨0x240300, 0x0, 0x0, 2, 1, 1, 1⟩
def R.INTK_IRQ_STATUS_DMA_ERR : Fld := ⟨0x240300, 0x0, 0x0, 3, 1, 1, 1⟩
def R.INTK_IRQ_STATUS_DMA_DESC : Fld := ⟨0x240300, 0x0, 0x0, 4, 1, 1, 1⟩
def R.INTK_IRQ_STATUS_PTS_WINDOW : Fld := ⟨0x240300, 0x0, 0x0, 5, 1, 1, 1⟩
def R.INTK_IRQ_STATUS_KEY_MISSING : Fld := ⟨0x240300, 0x0, 0x0, 6, 1, 1, 1⟩
def R.INTK_IRQ_STATUS_SSRC_LOST : Fld := ⟨0x240300, 0x0, 0x0, 7, 1, 1, 1⟩
def R.INTK_IRQ_MASK : Fld := ⟨0x240304, 0x0, 0x0, 0, 8, 1, 1⟩
def R.INTK_KEY_KID : Fld := ⟨0x241000, 0x20, 0x4, 0, 32, 64, 4⟩
def R.INTK_KEY_STAT : Fld := ⟨0x241010, 0x20, 0x0, 0, 32, 64, 1⟩
def R.INTK_KEY_STAT_VALID : Fld := ⟨0x241010, 0x20, 0x0, 0, 1, 64, 1⟩
def R.INTK_KEY_STAT_IN_USE : Fld := ⟨0x241010, 0x20, 0x0, 1, 1, 64, 1⟩
def R.INTK_KEY_STAT_LOADS : Fld := ⟨0x241010, 0x20, 0x0, 16, 16, 64, 1⟩
def R.TDEC_CAP : Fld := ⟨0x280000, 0x10000, 0x0, 0, 32, 4, 1⟩
def R.TDEC_CAP_CODECS : Fld := ⟨0x280000, 0x10000, 0x0, 0, 3, 4, 1⟩
def R.TDEC_CAP_TRACKS : Fld := ⟨0x280000, 0x10000, 0x0, 8, 3, 4, 1⟩
def R.TDEC_CAP_RATE_M : Fld := ⟨0x280000, 0x10000, 0x0, 16, 16, 4, 1⟩
def R.TDEC_CTRL : Fld := ⟨0x280004, 0x10000, 0x0, 0, 1, 4, 1⟩
def R.TDEC_STAT : Fld := ⟨0x280008, 0x10000, 0x0, 0, 32, 4, 1⟩
def R.TDEC_STAT_TRACKS : Fld := ⟨0x280008, 0x10000, 0x0, 0, 3, 4, 1⟩
def R.TDEC_STAT_BUSY : Fld := ⟨0x280008, 0x10000, 0x0, 3, 1, 4, 1⟩
def R.TDEC_STAT_CODEC : Fld := ⟨0x280008, 0x10000, 0x0, 4, 2, 4, 1⟩
def R.TDEC_STAT_OFF_PENDING : Fld := ⟨0x280008, 0x10000, 0x0, 6, 1, 4, 1⟩
def R.TDEC_STAT_LOAD : Fld := ⟨0x280008, 0x10000, 0x0, 8, 8, 4, 1⟩
def R.TDEC_ERR : Fld := ⟨0x28000C, 0x10000, 0x0, 0, 32, 4, 1⟩
def R.TDEC_ERR_CORRUPT : Fld := ⟨0x28000C, 0x10000, 0x0, 0, 16, 4, 1⟩
def R.TDEC_ERR_UNSUPP : Fld := ⟨0x28000C, 0x10000, 0x0, 16, 16, 4, 1⟩
def R.TDEC_PICS : Fld := ⟨0x280010, 0x10000, 0x0, 0, 64, 4, 1⟩
def R.TDEC_LATE : Fld := ⟨0x280018, 0x10000, 0x0, 0, 32, 4, 1⟩
def R.TDEC_IRQ_STATUS : Fld := ⟨0x28F000, 0x0, 0x0, 0, 32, 1, 1⟩
def R.TDEC_IRQ_STATUS_ERR : Fld := ⟨0x28F000, 0x0, 0x0, 0, 4, 1, 1⟩
def R.TDEC_IRQ_STATUS_LATE : Fld := ⟨0x28F000, 0x0, 0x0, 4, 4, 1, 1⟩
def R.TDEC_IRQ_MASK : Fld := ⟨0x28F004, 0x0, 0x0, 0, 8, 1, 1⟩
def R.LZC_CAP : Fld := ⟨0x2C0000, 0x0, 0x0, 0, 32, 1, 1⟩
def R.LZC_CAP_ENGINES : Fld := ⟨0x2C0000, 0x0, 0x0, 0, 2, 1, 1⟩
def R.LZC_CAP_FORMATS : Fld := ⟨0x2C0000, 0x0, 0x0, 4, 4, 1, 1⟩
def R.LZC_CAP_CWLOG_MAX : Fld := ⟨0x2C0000, 0x0, 0x0, 8, 8, 1, 1⟩
def R.LZC_CAP_DWLOG_MAX : Fld := ⟨0x2C0000, 0x0, 0x0, 16, 8, 1, 1⟩
def R.LZC_CTRL : Fld := ⟨0x2C0004, 0x0, 0x0, 0, 2, 1, 1⟩
def R.LZC_RING_BASE : Fld := ⟨0x2C0100, 0x0, 0x0, 12, 52, 1, 1⟩
def R.LZC_RING_SIZE : Fld := ⟨0x2C0108, 0x0, 0x0, 0, 4, 1, 1⟩
def R.LZC_RING_HEAD : Fld := ⟨0x2C010C, 0x0, 0x0, 0, 12, 1, 1⟩
def R.LZC_RING_TAIL : Fld := ⟨0x2C0110, 0x0, 0x0, 0, 12, 1, 1⟩
def R.LZC_RING_STAT : Fld := ⟨0x2C0114, 0x0, 0x0, 0, 32, 1, 1⟩
def R.LZC_RING_STAT_ERR : Fld := ⟨0x2C0114, 0x0, 0x0, 0, 8, 1, 1⟩
def R.LZC_RING_STAT_HALTED : Fld := ⟨0x2C0114, 0x0, 0x0, 8, 1, 1, 1⟩
def R.LZC_RING_STAT_RUNNING : Fld := ⟨0x2C0114, 0x0, 0x0, 9, 1, 1, 1⟩
def R.LZC_RING_CTRL : Fld := ⟨0x2C0118, 0x0, 0x0, 0, 32, 1, 1⟩
def R.LZC_RING_CTRL_START : Fld := ⟨0x2C0118, 0x0, 0x0, 0, 1, 1, 1⟩
def R.LZC_RING_CTRL_RESTART : Fld := ⟨0x2C0118, 0x0, 0x0, 1, 1, 1, 1⟩
def R.LZC_RING_CTRL_STOP : Fld := ⟨0x2C0118, 0x0, 0x0, 2, 1, 1, 1⟩
def R.LZC_DONE_COUNT : Fld := ⟨0x2C0200, 0x0, 0x0, 0, 32, 1, 1⟩
def R.LZC_ERR_COUNT : Fld := ⟨0x2C0204, 0x0, 0x0, 0, 32, 1, 1⟩
def R.LZC_LAST_ERR : Fld := ⟨0x2C0208, 0x0, 0x0, 0, 32, 1, 1⟩
def R.LZC_LAST_ERR_ERR : Fld := ⟨0x2C0208, 0x0, 0x0, 0, 8, 1, 1⟩
def R.LZC_LAST_ERR_INDEX : Fld := ⟨0x2C0208, 0x0, 0x0, 16, 12, 1, 1⟩
def R.LZC_LAST_ERR_ENGINE : Fld := ⟨0x2C0208, 0x0, 0x0, 28, 1, 1, 1⟩
def R.LZC_LAST_ERR_CLASS : Fld := ⟨0x2C0208, 0x0, 0x0, 29, 3, 1, 1⟩
def R.LZC_LAST_ERR_OFF : Fld := ⟨0x2C0210, 0x0, 0x0, 0, 64, 1, 1⟩
def R.LZC_IRQ_STATUS : Fld := ⟨0x2C0300, 0x0, 0x0, 0, 32, 1, 1⟩
def R.LZC_IRQ_STATUS_JOB_DONE : Fld := ⟨0x2C0300, 0x0, 0x0, 0, 1, 1, 1⟩
def R.LZC_IRQ_STATUS_JOB_ERR : Fld := ⟨0x2C0300, 0x0, 0x0, 1, 1, 1, 1⟩
def R.LZC_IRQ_STATUS_RING_ERR : Fld := ⟨0x2C0300, 0x0, 0x0, 2, 1, 1, 1⟩
def R.LZC_IRQ_STATUS_INTERNAL_ERR : Fld := ⟨0x2C0300, 0x0, 0x0, 3, 1, 1, 1⟩
def R.LZC_IRQ_MASK : Fld := ⟨0x2C0304, 0x0, 0x0, 0, 4, 1, 1⟩
def R.LZC_ENG_STAT : Fld := ⟨0x2C1000, 0x100, 0x0, 0, 32, 2, 1⟩
def R.LZC_ENG_STAT_BUSY : Fld := ⟨0x2C1000, 0x100, 0x0, 0, 1, 2, 1⟩
def R.LZC_ENG_STAT_CLASS : Fld := ⟨0x2C1000, 0x100, 0x0, 1, 3, 2, 1⟩
def R.LZC_ENG_STAT_OP : Fld := ⟨0x2C1000, 0x100, 0x0, 4, 1, 2, 1⟩
def R.LZC_ENG_STAT_FORMAT : Fld := ⟨0x2C1000, 0x100, 0x0, 5, 2, 2, 1⟩
def R.LZC_ENG_IN : Fld := ⟨0x2C1008, 0x100, 0x0, 0, 64, 2, 1⟩
def R.LZC_ENG_OUT : Fld := ⟨0x2C1010, 0x100, 0x0, 0, 64, 2, 1⟩
def R.LZC_ENG_JOBS : Fld := ⟨0x2C1018, 0x100, 0x0, 0, 32, 2, 1⟩
def R.LZC_ENG_JOBS_JOBS : Fld := ⟨0x2C1018, 0x100, 0x0, 0, 16, 2, 1⟩
def R.LZC_ENG_JOBS_SUSPENSIONS : Fld := ⟨0x2C1018, 0x100, 0x0, 16, 16, 2, 1⟩
def R.LZC_ENG_CTRL : Fld := ⟨0x2C101C, 0x100, 0x0, 0, 32, 2, 1⟩
def R.LZC_ENG_CTRL_ABORT : Fld := ⟨0x2C101C, 0x100, 0x0, 0, 1, 2, 1⟩
def R.LZC_ENG_CTRL_KEY : Fld := ⟨0x2C101C, 0x100, 0x0, 16, 16, 2, 1⟩
def R.COMP_CAP : Fld := ⟨0x300000, 0x0, 0x0, 0, 32, 1, 1⟩
def R.COMP_CAP_OVERLAYS : Fld := ⟨0x300000, 0x0, 0x0, 0, 3, 1, 1⟩
def R.COMP_CAP_REGIONS : Fld := ⟨0x300000, 0x0, 0x0, 3, 5, 1, 1⟩
def R.COMP_CAP_BUFFERS : Fld := ⟨0x300000, 0x0, 0x0, 8, 5, 1, 1⟩
def R.COMP_CTRL : Fld := ⟨0x300004, 0x0, 0x0, 0, 32, 1, 1⟩
def R.COMP_CTRL_GUARD : Fld := ⟨0x300004, 0x0, 0x0, 0, 2, 1, 1⟩
def R.COMP_CTRL_SINTER_EN : Fld := ⟨0x300004, 0x0, 0x0, 2, 1, 1, 1⟩
def R.COMP_CTRL_STATIC_FRAMES : Fld := ⟨0x300004, 0x0, 0x0, 4, 4, 1, 1⟩
def R.COMP_SEQ : Fld := ⟨0x300008, 0x0, 0x0, 0, 32, 1, 1⟩
def R.COMP_SEQ_DONE : Fld := ⟨0x30000C, 0x0, 0x0, 0, 32, 1, 1⟩
def R.COMP_STAT : Fld := ⟨0x300010, 0x0, 0x0, 0, 32, 1, 1⟩
def R.COMP_STAT_FREE_TILES : Fld := ⟨0x300010, 0x0, 0x0, 0, 21, 1, 1⟩
def R.COMP_STAT_READY : Fld := ⟨0x300010, 0x0, 0x0, 21, 1, 1, 1⟩
def R.COMP_POOL_SHORT : Fld := ⟨0x300014, 0x0, 0x0, 0, 32, 1, 1⟩
def R.COMP_CAL_INDEX : Fld := ⟨0x300020, 0x0, 0x0, 0, 20, 1, 1⟩
def R.COMP_CAL_DATA : Fld := ⟨0x300024, 0x4, 0x0, 0, 32, 4, 1⟩
def R.COMP_STATIC_TILES : Fld := ⟨0x300040, 0x0, 0x0, 0, 21, 1, 1⟩
def R.COMP_SINTER_STAT : Fld := ⟨0x300044, 0x0, 0x0, 0, 32, 1, 1⟩
def R.COMP_SINTER_STAT_GROUPS : Fld := ⟨0x300044, 0x0, 0x0, 0, 13, 1, 1⟩
def R.COMP_SINTER_STAT_USED_MIB : Fld := ⟨0x300044, 0x0, 0x0, 16, 12, 1, 1⟩
def R.COMP_SINTER_COUNT : Fld := ⟨0x300048, 0x0, 0x0, 0, 32, 1, 1⟩
def R.COMP_SINTER_COUNT_FLATTENED : Fld := ⟨0x300048, 0x0, 0x0, 0, 16, 1, 1⟩
def R.COMP_SINTER_COUNT_INVALIDATED : Fld := ⟨0x300048, 0x0, 0x0, 16, 16, 1, 1⟩
def R.COMP_SINTER_CAP : Fld := ⟨0x30004C, 0x0, 0x0, 0, 12, 1, 1⟩
def R.COMP_GUARD_COUNT : Fld := ⟨0x300050, 0x0, 0x0, 0, 32, 1, 1⟩
def R.COMP_GUARD_COUNT_LIVE_WRITES : Fld := ⟨0x300050, 0x0, 0x0, 0, 16, 1, 1⟩
def R.COMP_GUARD_COUNT_EXPIRED : Fld := ⟨0x300050, 0x0, 0x0, 16, 16, 1, 1⟩
def R.COMP_TONE : Fld := ⟨0x300100, 0x0, 0x0, 0, 32, 1, 1⟩
def R.COMP_TONE_CURVE : Fld := ⟨0x300100, 0x0, 0x0, 0, 2, 1, 1⟩
def R.COMP_TONE_METHOD : Fld := ⟨0x300100, 0x0, 0x0, 2, 1, 1, 1⟩
def R.COMP_TONE_HINTS : Fld := ⟨0x300100, 0x0, 0x0, 3, 1, 1, 1⟩
def R.COMP_TONE_SDR_WHITE : Fld := ⟨0x300100, 0x0, 0x0, 16, 16, 1, 1⟩
def R.COMP_TONE_LIN : Fld := ⟨0x300104, 0x0, 0x0, 0, 32, 1, 1⟩
def R.COMP_TONE_LIN_LIN_PEAK : Fld := ⟨0x300104, 0x0, 0x0, 0, 16, 1, 1⟩
def R.COMP_TONE_LIN_KNEE : Fld := ⟨0x300104, 0x0, 0x0, 16, 7, 1, 1⟩
def R.COMP_TONE_EFF : Fld := ⟨0x300108, 0x0, 0x0, 0, 32, 1, 1⟩
def R.COMP_TONE_EFF_SRC_PEAK : Fld := ⟨0x300108, 0x0, 0x0, 0, 16, 1, 1⟩
def R.COMP_TONE_EFF_TRANSFER : Fld := ⟨0x300108, 0x0, 0x0, 16, 3, 1, 1⟩
def R.COMP_PANEL_RANGE : Fld := ⟨0x30010C, 0x0, 0x0, 0, 32, 1, 1⟩
def R.COMP_PANEL_RANGE_PEAK : Fld := ⟨0x30010C, 0x0, 0x0, 0, 16, 1, 1⟩
def R.COMP_PANEL_RANGE_BLACK : Fld := ⟨0x30010C, 0x0, 0x0, 16, 16, 1, 1⟩
def R.COMP_SAFE_CFG : Fld := ⟨0x300200, 0x0, 0x0, 0, 32, 1, 1⟩
def R.COMP_SAFE_CFG_BUF : Fld := ⟨0x300200, 0x0, 0x0, 0, 4, 1, 1⟩
def R.COMP_SAFE_CFG_VALID : Fld := ⟨0x300200, 0x0, 0x0, 4, 1, 1, 1⟩
def R.COMP_SAFE_CTRL : Fld := ⟨0x300204, 0x0, 0x0, 0, 32, 1, 1⟩
def R.COMP_SAFE_CTRL_RELEASE : Fld := ⟨0x300204, 0x0, 0x0, 0, 1, 1, 1⟩
def R.COMP_SAFE_CTRL_FORCE : Fld := ⟨0x300204, 0x0, 0x0, 1, 1, 1, 1⟩
def R.COMP_SAFE_STAT : Fld := ⟨0x300208, 0x0, 0x0, 0, 32, 1, 1⟩
def R.COMP_SAFE_STAT_ACTIVE : Fld := ⟨0x300208, 0x0, 0x0, 0, 1, 1, 1⟩
def R.COMP_SAFE_STAT_REGION : Fld := ⟨0x300208, 0x0, 0x0, 4, 4, 1, 1⟩
def R.COMP_SAFE_STAT_FORCED : Fld := ⟨0x300208, 0x0, 0x0, 8, 1, 1, 1⟩
def R.COMP_SAFE_STAT_COUNT : Fld := ⟨0x300208, 0x0, 0x0, 16, 16, 1, 1⟩
def R.COMP_OVLY_CFG : Fld := ⟨0x300300, 0x20, 0x0, 0, 32, 4, 1⟩
def R.COMP_OVLY_CFG_EN : Fld := ⟨0x300300, 0x20, 0x0, 0, 1, 4, 1⟩
def R.COMP_OVLY_CFG_PREMUL : Fld := ⟨0x300300, 0x20, 0x0, 1, 1, 4, 1⟩
def R.COMP_OVLY_CFG_FRONT : Fld := ⟨0x300300, 0x20, 0x0, 2, 4, 4, 1⟩
def R.COMP_OVLY_CFG_BACK : Fld := ⟨0x300300, 0x20, 0x0, 6, 4, 4, 1⟩
def R.COMP_OVLY_CFG_BACK_VALID : Fld := ⟨0x300300, 0x20, 0x0, 10, 1, 4, 1⟩
def R.COMP_OVLY_SRC : Fld := ⟨0x300304, 0x20, 0x0, 0, 32, 4, 1⟩
def R.COMP_OVLY_SRC_SRC_X : Fld := ⟨0x300304, 0x20, 0x0, 0, 16, 4, 1⟩
def R.COMP_OVLY_SRC_SRC_Y : Fld := ⟨0x300304, 0x20, 0x0, 16, 16, 4, 1⟩
def R.COMP_OVLY_STAT : Fld := ⟨0x300308, 0x20, 0x0, 0, 32, 4, 1⟩
def R.COMP_OVLY_STAT_FRONT : Fld := ⟨0x300308, 0x20, 0x0, 0, 4, 4, 1⟩
def R.COMP_OVLY_STAT_BACK : Fld := ⟨0x300308, 0x20, 0x0, 4, 4, 4, 1⟩
def R.COMP_OVLY_STAT_EN : Fld := ⟨0x300308, 0x20, 0x0, 8, 1, 4, 1⟩
def R.COMP_OVLY_STAT_RANGE : Fld := ⟨0x300308, 0x20, 0x0, 9, 1, 4, 1⟩
def R.COMP_BUF_BASE : Fld := ⟨0x300400, 0x20, 0x0, 0, 64, 16, 1⟩
def R.COMP_BUF_PITCH : Fld := ⟨0x300408, 0x20, 0x0, 0, 20, 16, 1⟩
def R.COMP_BUF_SIZE : Fld := ⟨0x30040C, 0x20, 0x0, 0, 32, 16, 1⟩
def R.COMP_BUF_SIZE_W : Fld := ⟨0x30040C, 0x20, 0x0, 0, 16, 16, 1⟩
def R.COMP_BUF_SIZE_H : Fld := ⟨0x30040C, 0x20, 0x0, 16, 16, 16, 1⟩
def R.COMP_BUF_FMT : Fld := ⟨0x300410, 0x20, 0x0, 0, 32, 16, 1⟩
def R.COMP_BUF_FMT_FMT : Fld := ⟨0x300410, 0x20, 0x0, 0, 1, 16, 1⟩
def R.COMP_BUF_FMT_VALID : Fld := ⟨0x300410, 0x20, 0x0, 31, 1, 16, 1⟩
def R.COMP_BUF_STAT : Fld := ⟨0x300414, 0x20, 0x0, 0, 32, 16, 1⟩
def R.COMP_BUF_STAT_STATE : Fld := ⟨0x300414, 0x20, 0x0, 0, 2, 16, 1⟩
def R.COMP_BUF_STAT_ERR : Fld := ⟨0x300414, 0x20, 0x0, 8, 8, 16, 1⟩
def R.COMP_BUF_RELEASE_SEQ : Fld := ⟨0x300418, 0x20, 0x0, 0, 32, 16, 1⟩
def R.COMP_BUF_GUARD : Fld := ⟨0x30041C, 0x20, 0x0, 0, 32, 16, 1⟩
def R.COMP_BUF_GUARD_HELD : Fld := ⟨0x30041C, 0x20, 0x0, 0, 16, 16, 1⟩
def R.COMP_BUF_GUARD_FLAGGED : Fld := ⟨0x30041C, 0x20, 0x0, 16, 16, 16, 1⟩
def R.COMP_IRQ_STATUS : Fld := ⟨0x300600, 0x0, 0x0, 0, 32, 1, 1⟩
def R.COMP_IRQ_STATUS_GUARD : Fld := ⟨0x300600, 0x0, 0x0, 0, 1, 1, 1⟩
def R.COMP_IRQ_STATUS_GUARD_EXPIRED : Fld := ⟨0x300600, 0x0, 0x0, 1, 1, 1, 1⟩
def R.COMP_IRQ_STATUS_SIG_MISMATCH : Fld := ⟨0x300600, 0x0, 0x0, 2, 1, 1, 1⟩
def R.COMP_IRQ_STATUS_SAFE_ON : Fld := ⟨0x300600, 0x0, 0x0, 3, 1, 1, 1⟩
def R.COMP_IRQ_STATUS_POOL_SHORT : Fld := ⟨0x300600, 0x0, 0x0, 4, 1, 1, 1⟩
def R.COMP_IRQ_STATUS_SINTER_FULL : Fld := ⟨0x300600, 0x0, 0x0, 5, 1, 1, 1⟩
def R.COMP_IRQ_STATUS_OVLY_RANGE : Fld := ⟨0x300600, 0x0, 0x0, 6, 1, 1, 1⟩
def R.COMP_IRQ_STATUS_BUF_ERR : Fld := ⟨0x300600, 0x0, 0x0, 7, 1, 1, 1⟩
def R.COMP_IRQ_MASK : Fld := ⟨0x300604, 0x0, 0x0, 0, 8, 1, 1⟩
def R.COMP_SIG_MISMATCH : Fld := ⟨0x300608, 0x0, 0x0, 0, 16, 1, 1⟩
def R.COMP_TONE_LUT : Fld := ⟨0x301000, 0x4, 0x0, 0, 20, 1025, 1⟩
def R.COMP_SIG_CFG : Fld := ⟨0x303000, 0x20, 0x0, 0, 32, 16, 1⟩
def R.COMP_SIG_CFG_EN : Fld := ⟨0x303000, 0x20, 0x0, 0, 1, 16, 1⟩
def R.COMP_SIG_CFG_SRC : Fld := ⟨0x303000, 0x20, 0x0, 1, 1, 16, 1⟩
def R.COMP_SIG_CFG_ACTION : Fld := ⟨0x303000, 0x20, 0x0, 2, 2, 16, 1⟩
def R.COMP_SIG_CFG_PERSIST : Fld := ⟨0x303000, 0x20, 0x0, 4, 4, 16, 1⟩
def R.COMP_SIG_CFG_PHASE : Fld := ⟨0x303000, 0x20, 0x0, 8, 2, 16, 1⟩
def R.COMP_SIG_CFG_VIEW : Fld := ⟨0x303000, 0x20, 0x0, 16, 16, 16, 1⟩
def R.COMP_SIG_RECT_XY : Fld := ⟨0x303004, 0x20, 0x0, 0, 32, 16, 1⟩
def R.COMP_SIG_RECT_XY_X : Fld := ⟨0x303004, 0x20, 0x0, 0, 16, 16, 1⟩
def R.COMP_SIG_RECT_XY_Y : Fld := ⟨0x303004, 0x20, 0x0, 16, 16, 16, 1⟩
def R.COMP_SIG_RECT_WH : Fld := ⟨0x303008, 0x20, 0x0, 0, 32, 16, 1⟩
def R.COMP_SIG_RECT_WH_W : Fld := ⟨0x303008, 0x20, 0x0, 0, 16, 16, 1⟩
def R.COMP_SIG_RECT_WH_H : Fld := ⟨0x303008, 0x20, 0x0, 16, 16, 16, 1⟩
def R.COMP_SIG_EXPECT : Fld := ⟨0x30300C, 0x20, 0x0, 0, 32, 16, 1⟩
def R.COMP_SIG_LAST : Fld := ⟨0x303010, 0x20, 0x0, 0, 32, 16, 1⟩
def R.COMP_SIG_STAT : Fld := ⟨0x303014, 0x20, 0x0, 0, 32, 16, 1⟩
def R.COMP_SIG_STAT_MATCH : Fld := ⟨0x303014, 0x20, 0x0, 0, 1, 16, 1⟩
def R.COMP_SIG_STAT_BAD : Fld := ⟨0x303014, 0x20, 0x0, 1, 1, 16, 1⟩
def R.COMP_SIG_STAT_SKIPPED : Fld := ⟨0x303014, 0x20, 0x0, 16, 8, 16, 1⟩
def R.COMP_SIG_STAT_MISMATCHES : Fld := ⟨0x303014, 0x20, 0x0, 24, 8, 16, 1⟩
def R.COMP_SIG_CTRL : Fld := ⟨0x303018, 0x20, 0x0, 0, 1, 16, 1⟩
def R.BLT_CAP : Fld := ⟨0x340000, 0x0, 0x0, 0, 32, 1, 1⟩
def R.BLT_CAP_FORMATS : Fld := ⟨0x340000, 0x0, 0x0, 0, 6, 1, 1⟩
def R.BLT_CAP_CLIPS : Fld := ⟨0x340000, 0x0, 0x0, 8, 3, 1, 1⟩
def R.BLT_CAP_WMARKS : Fld := ⟨0x340000, 0x0, 0x0, 11, 3, 1, 1⟩
def R.BLT_CTRL : Fld := ⟨0x340004, 0x0, 0x0, 0, 32, 1, 1⟩
def R.BLT_CTRL_ABORT : Fld := ⟨0x340004, 0x0, 0x0, 0, 1, 1, 1⟩
def R.BLT_CTRL_KEY : Fld := ⟨0x340004, 0x0, 0x0, 16, 16, 1, 1⟩
def R.BLT_CUE_CTRL : Fld := ⟨0x340008, 0x0, 0x0, 0, 4, 1, 1⟩
def R.BLT_CUE : Fld := ⟨0x34000C, 0x0, 0x0, 0, 32, 1, 1⟩
def R.BLT_CUE_REJECTED : Fld := ⟨0x34000C, 0x0, 0x0, 0, 16, 1, 1⟩
def R.BLT_CUE_SLIPPED : Fld := ⟨0x34000C, 0x0, 0x0, 16, 16, 1, 1⟩
def R.BLT_RING_BASE : Fld := ⟨0x340100, 0x0, 0x0, 12, 52, 1, 1⟩
def R.BLT_RING_SIZE : Fld := ⟨0x340108, 0x0, 0x0, 0, 4, 1, 1⟩
def R.BLT_RING_HEAD : Fld := ⟨0x34010C, 0x0, 0x0, 0, 12, 1, 1⟩
def R.BLT_RING_TAIL : Fld := ⟨0x340110, 0x0, 0x0, 0, 12, 1, 1⟩
def R.BLT_RING_STAT : Fld := ⟨0x340114, 0x0, 0x0, 0, 32, 1, 1⟩
def R.BLT_RING_STAT_ERR : Fld := ⟨0x340114, 0x0, 0x0, 0, 8, 1, 1⟩
def R.BLT_RING_STAT_HALTED : Fld := ⟨0x340114, 0x0, 0x0, 8, 1, 1, 1⟩
def R.BLT_RING_STAT_RUNNING : Fld := ⟨0x340114, 0x0, 0x0, 9, 1, 1, 1⟩
def R.BLT_RING_STAT_WAITING : Fld := ⟨0x340114, 0x0, 0x0, 10, 1, 1, 1⟩
def R.BLT_RING_CTRL : Fld := ⟨0x340118, 0x0, 0x0, 0, 32, 1, 1⟩
def R.BLT_RING_CTRL_START : Fld := ⟨0x340118, 0x0, 0x0, 0, 1, 1, 1⟩
def R.BLT_RING_CTRL_RESTART : Fld := ⟨0x340118, 0x0, 0x0, 1, 1, 1, 1⟩
def R.BLT_RING_CTRL_STOP : Fld := ⟨0x340118, 0x0, 0x0, 2, 1, 1, 1⟩
def R.BLT_DONE_COUNT : Fld := ⟨0x340200, 0x0, 0x0, 0, 32, 1, 1⟩
def R.BLT_LAST_ERR : Fld := ⟨0x340204, 0x0, 0x0, 0, 32, 1, 1⟩
def R.BLT_LAST_ERR_ERR : Fld := ⟨0x340204, 0x0, 0x0, 0, 8, 1, 1⟩
def R.BLT_LAST_ERR_INDEX : Fld := ⟨0x340204, 0x0, 0x0, 8, 12, 1, 1⟩
def R.BLT_LAST_ERR_CUE : Fld := ⟨0x340204, 0x0, 0x0, 20, 1, 1, 1⟩
def R.BLT_WM_CFG : Fld := ⟨0x340300, 0x10, 0x0, 0, 32, 4, 1⟩
def R.BLT_WM_CFG_LINE : Fld := ⟨0x340300, 0x10, 0x0, 0, 15, 4, 1⟩
def R.BLT_WM_CFG_OVERLAY : Fld := ⟨0x340300, 0x10, 0x0, 16, 2, 4, 1⟩
def R.BLT_WM_CFG_ARM : Fld := ⟨0x340300, 0x10, 0x0, 31, 1, 4, 1⟩
def R.BLT_WM_STAT : Fld := ⟨0x340304, 0x10, 0x0, 0, 32, 4, 1⟩
def R.BLT_WM_STAT_SF : Fld := ⟨0x340304, 0x10, 0x0, 0, 16, 4, 1⟩
def R.BLT_WM_STAT_BAND : Fld := ⟨0x340304, 0x10, 0x0, 16, 7, 4, 1⟩
def R.BLT_WM_STAT_FIRES : Fld := ⟨0x340304, 0x10, 0x0, 24, 8, 4, 1⟩
def R.BLT_IRQ_STATUS : Fld := ⟨0x340400, 0x0, 0x0, 0, 32, 1, 1⟩
def R.BLT_IRQ_STATUS_DONE : Fld := ⟨0x340400, 0x0, 0x0, 0, 1, 1, 1⟩
def R.BLT_IRQ_STATUS_ERR : Fld := ⟨0x340400, 0x0, 0x0, 1, 1, 1, 1⟩
def R.BLT_IRQ_STATUS_RING_ERR : Fld := ⟨0x340400, 0x0, 0x0, 2, 1, 1, 1⟩
def R.BLT_IRQ_STATUS_CUE : Fld := ⟨0x340400, 0x0, 0x0, 3, 1, 1, 1⟩
def R.BLT_IRQ_STATUS_WM : Fld := ⟨0x340400, 0x0, 0x0, 4, 4, 1, 1⟩
def R.BLT_IRQ_MASK : Fld := ⟨0x340404, 0x0, 0x0, 0, 8, 1, 1⟩
def R.PSEQ_CAP : Fld := ⟨0x380000, 0x0, 0x0, 0, 32, 1, 1⟩
def R.PSEQ_CAP_GROUPS : Fld := ⟨0x380000, 0x0, 0x0, 0, 5, 1, 1⟩
def R.PSEQ_CAP_LENS_GROUPS : Fld := ⟨0x380000, 0x0, 0x0, 5, 2, 1, 1⟩
def R.PSEQ_CAP_BANDS : Fld := ⟨0x380000, 0x0, 0x0, 7, 4, 1, 1⟩
def R.PSEQ_CAP_RECTS : Fld := ⟨0x380000, 0x0, 0x0, 11, 5, 1, 1⟩
def R.PSEQ_CTRL : Fld := ⟨0x380004, 0x0, 0x0, 0, 32, 1, 1⟩
def R.PSEQ_CTRL_OD_EN : Fld := ⟨0x380004, 0x0, 0x0, 0, 1, 1, 1⟩
def R.PSEQ_CTRL_UNIF_EN : Fld := ⟨0x380004, 0x0, 0x0, 1, 1, 1, 1⟩
def R.PSEQ_CTRL_PARTIAL : Fld := ⟨0x380004, 0x0, 0x0, 2, 1, 1, 1⟩
def R.PSEQ_CTRL_VCOM_METHOD : Fld := ⟨0x380004, 0x0, 0x0, 3, 2, 1, 1⟩
def R.PSEQ_VTIME : Fld := ⟨0x380010, 0x0, 0x0, 0, 32, 1, 1⟩
def R.PSEQ_VTIME_VFP : Fld := ⟨0x380010, 0x0, 0x0, 0, 16, 1, 1⟩
def R.PSEQ_VTIME_VSYNC : Fld := ⟨0x380010, 0x0, 0x0, 16, 16, 1, 1⟩
def R.PSEQ_VTIME2 : Fld := ⟨0x380014, 0x0, 0x0, 0, 32, 1, 1⟩
def R.PSEQ_VTIME2_VBP : Fld := ⟨0x380014, 0x0, 0x0, 0, 16, 1, 1⟩
def R.PSEQ_VTIME2_VACT : Fld := ⟨0x380014, 0x0, 0x0, 16, 16, 1, 1⟩
def R.PSEQ_HTIME : Fld := ⟨0x380018, 0x0, 0x0, 0, 32, 1, 1⟩
def R.PSEQ_HTIME_HACT : Fld := ⟨0x380018, 0x0, 0x0, 0, 16, 1, 1⟩
def R.PSEQ_HTIME_HFP : Fld := ⟨0x380018, 0x0, 0x0, 16, 16, 1, 1⟩
def R.PSEQ_HTIME2 : Fld := ⟨0x38001C, 0x0, 0x0, 0, 32, 1, 1⟩
def R.PSEQ_HTIME2_HSYNC : Fld := ⟨0x38001C, 0x0, 0x0, 0, 16, 1, 1⟩
def R.PSEQ_HTIME2_HBP : Fld := ⟨0x38001C, 0x0, 0x0, 16, 16, 1, 1⟩
def R.PSEQ_ANCHOR : Fld := ⟨0x380020, 0x0, 0x0, 0, 64, 1, 1⟩
def R.PSEQ_STAT : Fld := ⟨0x380030, 0x0, 0x0, 0, 32, 1, 1⟩
def R.PSEQ_STAT_BAND : Fld := ⟨0x380030, 0x0, 0x0, 0, 7, 1, 1⟩
def R.PSEQ_STAT_HOLDING : Fld := ⟨0x380030, 0x0, 0x0, 8, 1, 1, 1⟩
def R.PSEQ_STAT_PATTERN_ON : Fld := ⟨0x380030, 0x0, 0x0, 9, 1, 1, 1⟩
def R.PSEQ_STAT_FULL : Fld := ⟨0x380030, 0x0, 0x0, 10, 1, 1, 1⟩
def R.PSEQ_STAT_IN_FLIGHT : Fld := ⟨0x380030, 0x0, 0x0, 11, 5, 1, 1⟩
def R.PSEQ_STAT_LINE : Fld := ⟨0x380030, 0x0, 0x0, 16, 13, 1, 1⟩
def R.PSEQ_SF : Fld := ⟨0x380038, 0x0, 0x0, 0, 64, 1, 1⟩
def R.PSEQ_TEMP : Fld := ⟨0x380040, 0x0, 0x0, 0, 32, 1, 1⟩
def R.PSEQ_TEMP_TEMP : Fld := ⟨0x380040, 0x0, 0x0, 0, 16, 1, 1⟩
def R.PSEQ_TEMP_BAND_LV : Fld := ⟨0x380040, 0x0, 0x0, 16, 3, 1, 1⟩
def R.PSEQ_TEMP_BAND_LENS : Fld := ⟨0x380040, 0x0, 0x0, 20, 3, 1, 1⟩
def R.PSEQ_TEMP_SRC : Fld := ⟨0x380040, 0x0, 0x0, 24, 1, 1, 1⟩
def R.PSEQ_EVENTS : Fld := ⟨0x380044, 0x0, 0x0, 0, 32, 1, 1⟩
def R.PSEQ_EVENTS_SKIPPED : Fld := ⟨0x380044, 0x0, 0x0, 0, 16, 1, 1⟩
def R.PSEQ_EVENTS_BAND_CHANGES : Fld := ⟨0x380044, 0x0, 0x0, 16, 16, 1, 1⟩
def R.PSEQ_HOLD_MAX : Fld := ⟨0x380048, 0x0, 0x0, 0, 8, 1, 1⟩
def R.PSEQ_PATTERN : Fld := ⟨0x380050, 0x0, 0x0, 0, 32, 1, 1⟩
def R.PSEQ_PATTERN_SEL : Fld := ⟨0x380050, 0x0, 0x0, 0, 2, 1, 1⟩
def R.PSEQ_PATTERN_LEVEL : Fld := ⟨0x380050, 0x0, 0x0, 16, 12, 1, 1⟩
def R.PSEQ_UNIF : Fld := ⟨0x380060, 0x0, 0x0, 0, 32, 1, 1⟩
def R.PSEQ_UNIF_T_COOL : Fld := ⟨0x380060, 0x0, 0x0, 0, 16, 1, 1⟩
def R.PSEQ_UNIF_T_WARM : Fld := ⟨0x380060, 0x0, 0x0, 16, 16, 1, 1⟩
def R.PSEQ_UNIF_STAT : Fld := ⟨0x380064, 0x0, 0x0, 0, 32, 1, 1⟩
def R.PSEQ_UNIF_STAT_LOADED : Fld := ⟨0x380064, 0x0, 0x0, 0, 1, 1, 1⟩
def R.PSEQ_UNIF_STAT_SERIAL : Fld := ⟨0x380064, 0x0, 0x0, 1, 1, 1, 1⟩
def R.PSEQ_UNIF_STAT_CRC : Fld := ⟨0x380064, 0x0, 0x0, 2, 1, 1, 1⟩
def R.PSEQ_UNIF_STAT_TOO_BIG : Fld := ⟨0x380064, 0x0, 0x0, 3, 1, 1, 1⟩
def R.PSEQ_UNIF_STAT_W : Fld := ⟨0x380064, 0x0, 0x0, 8, 9, 1, 1⟩
def R.PSEQ_UNIF_BYTES : Fld := ⟨0x380068, 0x0, 0x0, 0, 32, 1, 1⟩
def R.PSEQ_RECT_XY : Fld := ⟨0x380070, 0x0, 0x0, 0, 32, 1, 1⟩
def R.PSEQ_RECT_XY_X : Fld := ⟨0x380070, 0x0, 0x0, 0, 16, 1, 1⟩
def R.PSEQ_RECT_XY_Y : Fld := ⟨0x380070, 0x0, 0x0, 16, 16, 1, 1⟩
def R.PSEQ_RECT_WH : Fld := ⟨0x380074, 0x0, 0x0, 0, 32, 1, 1⟩
def R.PSEQ_RECT_WH_W : Fld := ⟨0x380074, 0x0, 0x0, 0, 16, 1, 1⟩
def R.PSEQ_RECT_WH_H : Fld := ⟨0x380074, 0x0, 0x0, 16, 16, 1, 1⟩
def R.PSEQ_RECT_SUBMIT : Fld := ⟨0x380078, 0x0, 0x0, 0, 3, 1, 1⟩
def R.PSEQ_RECT_STAT : Fld := ⟨0x38007C, 0x0, 0x0, 0, 32, 1, 1⟩
def R.PSEQ_RECT_STAT_QUEUED : Fld := ⟨0x38007C, 0x0, 0x0, 0, 5, 1, 1⟩
def R.PSEQ_RECT_STAT_IN_FLIGHT : Fld := ⟨0x38007C, 0x0, 0x0, 8, 5, 1, 1⟩
def R.PSEQ_RECT_VOID : Fld := ⟨0x380080, 0x0, 0x0, 0, 16, 1, 1⟩
def R.PSEQ_MODE : Fld := ⟨0x380100, 0x0, 0x0, 0, 32, 1, 1⟩
def R.PSEQ_MODE_COLD_PHASE : Fld := ⟨0x380100, 0x0, 0x0, 0, 2, 1, 1⟩
def R.PSEQ_MODE_STEER_OFF : Fld := ⟨0x380100, 0x0, 0x0, 2, 1, 1, 1⟩
def R.PSEQ_MODE_LAYOUT : Fld := ⟨0x380100, 0x0, 0x0, 3, 2, 1, 1⟩
def R.PSEQ_MODE_PHASES : Fld := ⟨0x380100, 0x0, 0x0, 5, 3, 1, 1⟩
def R.PSEQ_VCOM_CTRL : Fld := ⟨0x380200, 0x0, 0x0, 0, 32, 1, 1⟩
def R.PSEQ_VCOM_CTRL_WINDOW : Fld := ⟨0x380200, 0x0, 0x0, 0, 8, 1, 1⟩
def R.PSEQ_VCOM_CTRL_THRESH : Fld := ⟨0x380200, 0x0, 0x0, 8, 8, 1, 1⟩
def R.PSEQ_VCOM_CTRL_EXT_TARGET : Fld := ⟨0x380200, 0x0, 0x0, 16, 16, 1, 1⟩
def R.PSEQ_VCOM : Fld := ⟨0x380210, 0x4, 0x0, 0, 32, 16, 1⟩
def R.PSEQ_VCOM_CODE : Fld := ⟨0x380210, 0x4, 0x0, 0, 10, 16, 1⟩
def R.PSEQ_VCOM_ERR : Fld := ⟨0x380210, 0x4, 0x0, 16, 10, 16, 1⟩
def R.PSEQ_VCOM_AT_LIMIT : Fld := ⟨0x380210, 0x4, 0x0, 31, 1, 16, 1⟩
def R.PSEQ_BAND : Fld := ⟨0x380400, 0x4, 0x0, 0, 32, 8, 1⟩
def R.PSEQ_BAND_LOW : Fld := ⟨0x380400, 0x4, 0x0, 0, 16, 8, 1⟩
def R.PSEQ_BAND_STEER_OK : Fld := ⟨0x380400, 0x4, 0x0, 16, 1, 8, 1⟩
def R.PSEQ_BAND_WAVE : Fld := ⟨0x380400, 0x4, 0x0, 17, 3, 8, 1⟩
def R.PSEQ_PANEL_SIZE : Fld := ⟨0x380500, 0x0, 0x0, 0, 32, 1, 1⟩
def R.PSEQ_PANEL_SIZE_WIDTH : Fld := ⟨0x380500, 0x0, 0x0, 0, 16, 1, 1⟩
def R.PSEQ_PANEL_SIZE_HEIGHT : Fld := ⟨0x380500, 0x0, 0x0, 16, 16, 1, 1⟩
def R.PSEQ_PANEL_CAP : Fld := ⟨0x380504, 0x0, 0x0, 0, 32, 1, 1⟩
def R.PSEQ_PANEL_CAP_LENS_CAP : Fld := ⟨0x380504, 0x0, 0x0, 0, 2, 1, 1⟩
def R.PSEQ_PANEL_CAP_MAX_GEN : Fld := ⟨0x380504, 0x0, 0x0, 2, 2, 1, 1⟩
def R.PSEQ_PANEL_CAP_SENSORS : Fld := ⟨0x380504, 0x0, 0x0, 4, 4, 1, 1⟩
def R.PSEQ_PANEL_CAP_SETTLE : Fld := ⟨0x380504, 0x0, 0x0, 8, 3, 1, 1⟩
def R.PSEQ_PANEL_CAP_LINE_MIN : Fld := ⟨0x380504, 0x0, 0x0, 16, 16, 1, 1⟩
def R.PSEQ_PANEL_SERIAL : Fld := ⟨0x380508, 0x0, 0x0, 0, 64, 1, 1⟩
def R.PSEQ_IRQ_STATUS : Fld := ⟨0x380600, 0x0, 0x0, 0, 32, 1, 1⟩
def R.PSEQ_IRQ_STATUS_BAND_CHANGE : Fld := ⟨0x380600, 0x0, 0x0, 0, 1, 1, 1⟩
def R.PSEQ_IRQ_STATUS_STEER_CHANGE : Fld := ⟨0x380600, 0x0, 0x0, 1, 1, 1, 1⟩
def R.PSEQ_IRQ_STATUS_SKIPPED : Fld := ⟨0x380600, 0x0, 0x0, 2, 1, 1, 1⟩
def R.PSEQ_IRQ_STATUS_TIMING_REFUSED : Fld := ⟨0x380600, 0x0, 0x0, 3, 1, 1, 1⟩
def R.PSEQ_IRQ_STATUS_VCOM_LIMIT : Fld := ⟨0x380600, 0x0, 0x0, 4, 1, 1, 1⟩
def R.PSEQ_IRQ_STATUS_UNIF_ERR : Fld := ⟨0x380600, 0x0, 0x0, 5, 1, 1, 1⟩
def R.PSEQ_IRQ_STATUS_RECT_FULL : Fld := ⟨0x380600, 0x0, 0x0, 6, 1, 1, 1⟩
def R.PSEQ_IRQ_STATUS_POWER_FAIL : Fld := ⟨0x380600, 0x0, 0x0, 7, 1, 1, 1⟩
def R.PSEQ_IRQ_MASK : Fld := ⟨0x380604, 0x0, 0x0, 0, 8, 1, 1⟩
def R.PSEQ_OD : Fld := ⟨0x384000, 0x500, 0x4, 0, 12, 24, 289⟩
def R.PSEQ_LENSWAVE : Fld := ⟨0x38C000, 0x80, 0x4, 0, 32, 128, 32⟩
def R.PSEQ_LENSWAVE_X : Fld := ⟨0x38C000, 0x80, 0x4, 0, 8, 128, 32⟩
def R.PSEQ_LENSWAVE_Y : Fld := ⟨0x38C000, 0x80, 0x4, 8, 8, 128, 32⟩
def R.RAIL_CAP : Fld := ⟨0x3C0000, 0x0, 0x0, 0, 32, 1, 1⟩
def R.RAIL_CAP_CHANNELS : Fld := ⟨0x3C0000, 0x0, 0x0, 0, 3, 1, 1⟩
def R.RAIL_CAP_VCOM_REGIONS : Fld := ⟨0x3C0000, 0x0, 0x0, 3, 5, 1, 1⟩
def R.RAIL_CAP_LOOPS : Fld := ⟨0x3C0000, 0x0, 0x0, 8, 2, 1, 1⟩
def R.RAIL_STAT : Fld := ⟨0x3C0004, 0x0, 0x0, 0, 32, 1, 1⟩
def R.RAIL_STAT_STATE : Fld := ⟨0x3C0004, 0x0, 0x0, 0, 3, 1, 1⟩
def R.RAIL_STAT_PG : Fld := ⟨0x3C0004, 0x0, 0x0, 8, 6, 1, 1⟩
def R.RAIL_STAT_DRIVE : Fld := ⟨0x3C0004, 0x0, 0x0, 16, 1, 1, 1⟩
def R.RAIL_STAT_VCOM_SW : Fld := ⟨0x3C0004, 0x0, 0x0, 17, 1, 1, 1⟩
def R.RAIL_STAT_DISCHARGE_SKIPPED : Fld := ⟨0x3C0004, 0x0, 0x0, 18, 1, 1, 1⟩
def R.RAIL_STAT_RETRIES : Fld := ⟨0x3C0004, 0x0, 0x0, 20, 4, 1, 1⟩
def R.RAIL_CMD : Fld := ⟨0x3C0008, 0x0, 0x0, 0, 32, 1, 1⟩
def R.RAIL_CMD_ON : Fld := ⟨0x3C0008, 0x0, 0x0, 0, 1, 1, 1⟩
def R.RAIL_CMD_OFF : Fld := ⟨0x3C0008, 0x0, 0x0, 1, 1, 1, 1⟩
def R.RAIL_CMD_RESTART : Fld := ⟨0x3C0008, 0x0, 0x0, 2, 1, 1, 1⟩
def R.RAIL_CMD_RELEARN : Fld := ⟨0x3C0008, 0x0, 0x0, 3, 1, 1, 1⟩
def R.RAIL_CMD_KEY : Fld := ⟨0x3C0008, 0x0, 0x0, 16, 16, 1, 1⟩
def R.RAIL_RETRY : Fld := ⟨0x3C000C, 0x0, 0x0, 0, 4, 1, 1⟩
def R.RAIL_FAULT : Fld := ⟨0x3C0010, 0x0, 0x0, 0, 32, 1, 1⟩
def R.RAIL_FAULT_UV : Fld := ⟨0x3C0010, 0x0, 0x0, 0, 1, 1, 1⟩
def R.RAIL_FAULT_OC : Fld := ⟨0x3C0010, 0x0, 0x0, 1, 1, 1, 1⟩
def R.RAIL_FAULT_SHORT : Fld := ⟨0x3C0010, 0x0, 0x0, 2, 1, 1, 1⟩
def R.RAIL_FAULT_OV : Fld := ⟨0x3C0010, 0x0, 0x0, 3, 1, 1, 1⟩
def R.RAIL_FAULT_TEMP : Fld := ⟨0x3C0010, 0x0, 0x0, 4, 1, 1, 1⟩
def R.RAIL_FAULT_VCOM_OC : Fld := ⟨0x3C0010, 0x0, 0x0, 5, 1, 1, 1⟩
def R.RAIL_FAULT_PANEL : Fld := ⟨0x3C0010, 0x0, 0x0, 6, 1, 1, 1⟩
def R.RAIL_FAULT_INFO : Fld := ⟨0x3C0014, 0x0, 0x0, 0, 32, 1, 1⟩
def R.RAIL_FAULT_INFO_CHANNEL : Fld := ⟨0x3C0014, 0x0, 0x0, 0, 4, 1, 1⟩
def R.RAIL_FAULT_INFO_KIND : Fld := ⟨0x3C0014, 0x0, 0x0, 4, 3, 1, 1⟩
def R.RAIL_FAULT_INFO_SF : Fld := ⟨0x3C0014, 0x0, 0x0, 16, 16, 1, 1⟩
def R.RAIL_CH_MEAS : Fld := ⟨0x3C0100, 0x10, 0x0, 0, 32, 6, 1⟩
def R.RAIL_CH_MEAS_MV : Fld := ⟨0x3C0100, 0x10, 0x0, 0, 16, 6, 1⟩
def R.RAIL_CH_MEAS_MA : Fld := ⟨0x3C0100, 0x10, 0x0, 16, 16, 6, 1⟩
def R.RAIL_CH_PEAK : Fld := ⟨0x3C0104, 0x10, 0x0, 0, 16, 6, 1⟩
def R.RAIL_CH_FAULTS : Fld := ⟨0x3C0108, 0x10, 0x0, 0, 32, 6, 1⟩
def R.RAIL_CH_FAULTS_UV : Fld := ⟨0x3C0108, 0x10, 0x0, 0, 8, 6, 1⟩
def R.RAIL_CH_FAULTS_OC : Fld := ⟨0x3C0108, 0x10, 0x0, 8, 8, 6, 1⟩
def R.RAIL_CH_FAULTS_OV : Fld := ⟨0x3C0108, 0x10, 0x0, 16, 8, 6, 1⟩
def R.RAIL_CH_FAULTS_TEMP : Fld := ⟨0x3C0108, 0x10, 0x0, 24, 8, 6, 1⟩
def R.RAIL_VCOM : Fld := ⟨0x3C0200, 0x4, 0x0, 0, 32, 16, 1⟩
def R.RAIL_VCOM_MV : Fld := ⟨0x3C0200, 0x4, 0x0, 0, 16, 16, 1⟩
def R.RAIL_VCOM_MA : Fld := ⟨0x3C0200, 0x4, 0x0, 16, 8, 16, 1⟩
def R.RAIL_VCOM_SINK : Fld := ⟨0x3C0200, 0x4, 0x0, 24, 1, 16, 1⟩
def R.RAIL_CRACK_CTRL : Fld := ⟨0x3C0300, 0x0, 0x0, 0, 32, 1, 1⟩
def R.RAIL_CRACK_CTRL_ACT_INNER : Fld := ⟨0x3C0300, 0x0, 0x0, 0, 2, 1, 1⟩
def R.RAIL_CRACK_CTRL_ACT_OUTER : Fld := ⟨0x3C0300, 0x0, 0x0, 2, 2, 1, 1⟩
def R.RAIL_CRACK_CTRL_HIGH_PCT : Fld := ⟨0x3C0300, 0x0, 0x0, 4, 8, 1, 1⟩
def R.RAIL_CRACK_CTRL_CONSEC : Fld := ⟨0x3C0300, 0x0, 0x0, 12, 4, 1, 1⟩
def R.RAIL_CRACK_MEAS : Fld := ⟨0x3C0310, 0x10, 0x0, 0, 32, 2, 1⟩
def R.RAIL_CRACK_MEAS_OHM : Fld := ⟨0x3C0310, 0x10, 0x0, 0, 16, 2, 1⟩
def R.RAIL_CRACK_MEAS_BASE : Fld := ⟨0x3C0310, 0x10, 0x0, 16, 16, 2, 1⟩
def R.RAIL_CRACK_STAT : Fld := ⟨0x3C0314, 0x10, 0x0, 0, 32, 2, 1⟩
def R.RAIL_CRACK_STAT_CLASS : Fld := ⟨0x3C0314, 0x10, 0x0, 0, 2, 2, 1⟩
def R.RAIL_CRACK_STAT_RUN : Fld := ⟨0x3C0314, 0x10, 0x0, 8, 4, 2, 1⟩
def R.RAIL_CRACK_EVENTS : Fld := ⟨0x3C0318, 0x10, 0x0, 0, 16, 2, 1⟩
def R.RAIL_IRQ_STATUS : Fld := ⟨0x3C0400, 0x0, 0x0, 0, 32, 1, 1⟩
def R.RAIL_IRQ_STATUS_FAULT : Fld := ⟨0x3C0400, 0x0, 0x0, 0, 1, 1, 1⟩
def R.RAIL_IRQ_STATUS_CRACK : Fld := ⟨0x3C0400, 0x0, 0x0, 1, 1, 1, 1⟩
def R.RAIL_IRQ_STATUS_OFF_DONE : Fld := ⟨0x3C0400, 0x0, 0x0, 2, 1, 1, 1⟩
def R.RAIL_IRQ_STATUS_ON_DONE : Fld := ⟨0x3C0400, 0x0, 0x0, 3, 1, 1, 1⟩
def R.RAIL_IRQ_STATUS_LOCKED : Fld := ⟨0x3C0400, 0x0, 0x0, 4, 1, 1, 1⟩
def R.RAIL_IRQ_STATUS_TRANSFER : Fld := ⟨0x3C0400, 0x0, 0x0, 5, 1, 1, 1⟩
def R.RAIL_IRQ_MASK : Fld := ⟨0x3C0404, 0x0, 0x0, 0, 6, 1, 1⟩
def R.LANE_ID : Fld := ⟨0x400000, 0x400, 0x0, 0, 32, 118, 1⟩
def R.LANE_ID_LINK : Fld := ⟨0x400000, 0x400, 0x0, 0, 4, 118, 1⟩
def R.LANE_ID_INDEX : Fld := ⟨0x400000, 0x400, 0x0, 4, 4, 118, 1⟩
def R.LANE_ID_POS : Fld := ⟨0x400000, 0x400, 0x0, 8, 4, 118, 1⟩
def R.LANE_ID_RX : Fld := ⟨0x400000, 0x400, 0x0, 12, 1, 118, 1⟩
def R.LANE_ID_PRIV : Fld := ⟨0x400000, 0x400, 0x0, 13, 1, 118, 1⟩
def R.LANE_STAT : Fld := ⟨0x400004, 0x400, 0x0, 0, 32, 118, 1⟩
def R.LANE_STAT_PWR : Fld := ⟨0x400004, 0x400, 0x0, 0, 2, 118, 1⟩
def R.LANE_STAT_BIT_LOCK : Fld := ⟨0x400004, 0x400, 0x0, 2, 1, 118, 1⟩
def R.LANE_STAT_BLOCK_LOCK : Fld := ⟨0x400004, 0x400, 0x0, 3, 1, 118, 1⟩
def R.LANE_STAT_PRBS_LOCK : Fld := ⟨0x400004, 0x400, 0x0, 4, 1, 118, 1⟩
def R.LANE_EQ_TX : Fld := ⟨0x400008, 0x400, 0x0, 0, 32, 118, 1⟩
def R.LANE_EQ_TX_PRE : Fld := ⟨0x400008, 0x400, 0x0, 0, 5, 118, 1⟩
def R.LANE_EQ_TX_POST : Fld := ⟨0x400008, 0x400, 0x0, 5, 5, 118, 1⟩
def R.LANE_EQ_TX_OVR : Fld := ⟨0x400008, 0x400, 0x0, 31, 1, 118, 1⟩
def R.LANE_EQ_RX : Fld := ⟨0x40000C, 0x400, 0x0, 0, 32, 118, 1⟩
def R.LANE_EQ_RX_CTLE : Fld := ⟨0x40000C, 0x400, 0x0, 0, 4, 118, 1⟩
def R.LANE_EQ_RX_DFE : Fld := ⟨0x40000C, 0x400, 0x0, 4, 6, 118, 1⟩
def R.LANE_EQ_RX_OVR : Fld := ⟨0x40000C, 0x400, 0x0, 31, 1, 118, 1⟩
def R.LANE_EQ_EFF : Fld := ⟨0x400010, 0x400, 0x0, 0, 32, 118, 1⟩
def R.LANE_EQ_EFF_PRE : Fld := ⟨0x400010, 0x400, 0x0, 0, 5, 118, 1⟩
def R.LANE_EQ_EFF_POST : Fld := ⟨0x400010, 0x400, 0x0, 5, 5, 118, 1⟩
def R.LANE_EQ_EFF_MAIN : Fld := ⟨0x400010, 0x400, 0x0, 10, 7, 118, 1⟩
def R.LANE_EQ_EFF_CTLE : Fld := ⟨0x400010, 0x400, 0x0, 17, 4, 118, 1⟩
def R.LANE_EQ_EFF_DFE : Fld := ⟨0x400010, 0x400, 0x0, 21, 6, 118, 1⟩
def R.LANE_EYE : Fld := ⟨0x400014, 0x400, 0x0, 0, 32, 118, 1⟩
def R.LANE_EYE_HEIGHT : Fld := ⟨0x400014, 0x400, 0x0, 0, 10, 118, 1⟩
def R.LANE_EYE_WIDTH : Fld := ⟨0x400014, 0x400, 0x0, 16, 6, 118, 1⟩
def R.LANE_HDR_ERR : Fld := ⟨0x400018, 0x400, 0x0, 0, 32, 118, 1⟩
def R.LANE_PRBS_CTRL : Fld := ⟨0x40001C, 0x400, 0x0, 0, 32, 118, 1⟩
def R.LANE_PRBS_CTRL_GEN_EN : Fld := ⟨0x40001C, 0x400, 0x0, 0, 1, 118, 1⟩
def R.LANE_PRBS_CTRL_CHK_EN : Fld := ⟨0x40001C, 0x400, 0x0, 1, 1, 118, 1⟩
def R.LANE_PRBS_CTRL_POLY : Fld := ⟨0x40001C, 0x400, 0x0, 2, 2, 118, 1⟩
def R.LANE_PRBS_BITS : Fld := ⟨0x400020, 0x400, 0x0, 0, 64, 118, 1⟩
def R.LANE_PRBS_ERR : Fld := ⟨0x400028, 0x400, 0x0, 0, 32, 118, 1⟩
def R.LANE_INJECT : Fld := ⟨0x40002C, 0x400, 0x0, 0, 32, 118, 1⟩
def R.LANE_INJECT_ONE : Fld := ⟨0x40002C, 0x400, 0x0, 0, 1, 118, 1⟩
def R.LANE_INJECT_RATE : Fld := ⟨0x40002C, 0x400, 0x0, 1, 4, 118, 1⟩
def R.LANE_LOOP : Fld := ⟨0x400030, 0x400, 0x0, 0, 2, 118, 1⟩
def R.LANE_GRP_CTRL : Fld := ⟨0x400100, 0x400, 0x0, 0, 32, 118, 1⟩
def R.LANE_GRP_CTRL_EN : Fld := ⟨0x400100, 0x400, 0x0, 0, 1, 118, 1⟩
def R.LANE_GRP_CTRL_MAX_GEN : Fld := ⟨0x400100, 0x400, 0x0, 1, 2, 118, 1⟩
def R.LANE_GRP_CTRL_DEEPEST : Fld := ⟨0x400100, 0x400, 0x0, 3, 2, 118, 1⟩
def R.LANE_GRP_CTRL_TEST_GEN : Fld := ⟨0x400100, 0x400, 0x0, 5, 2, 118, 1⟩
def R.LANE_GRP_CTRL_EYE_MIN : Fld := ⟨0x400100, 0x400, 0x0, 8, 8, 118, 1⟩
def R.LANE_GRP_CMD : Fld := ⟨0x400104, 0x400, 0x0, 0, 32, 118, 1⟩
def R.LANE_GRP_CMD_RETRAIN : Fld := ⟨0x400104, 0x400, 0x0, 0, 1, 118, 1⟩
def R.LANE_GRP_CMD_TEST : Fld := ⟨0x400104, 0x400, 0x0, 1, 1, 118, 1⟩
def R.LANE_GRP_CMD_TEST_EXIT : Fld := ⟨0x400104, 0x400, 0x0, 2, 1, 118, 1⟩
def R.LANE_GRP_CMD_KEY : Fld := ⟨0x400104, 0x400, 0x0, 16, 16, 118, 1⟩
def R.LANE_GRP_STAT : Fld := ⟨0x400108, 0x400, 0x0, 0, 32, 118, 1⟩
def R.LANE_GRP_STAT_STAGE : Fld := ⟨0x400108, 0x400, 0x0, 0, 3, 118, 1⟩
def R.LANE_GRP_STAT_GEN : Fld := ⟨0x400108, 0x400, 0x0, 3, 2, 118, 1⟩
def R.LANE_GRP_STAT_FAR_GEN : Fld := ⟨0x400108, 0x400, 0x0, 5, 2, 118, 1⟩
def R.LANE_GRP_STAT_FELL : Fld := ⟨0x400108, 0x400, 0x0, 7, 1, 118, 1⟩
def R.LANE_GRP_STAT_TX_PWR : Fld := ⟨0x400108, 0x400, 0x0, 8, 2, 118, 1⟩
def R.LANE_GRP_STAT_RX_PWR : Fld := ⟨0x400108, 0x400, 0x0, 10, 2, 118, 1⟩
def R.LANE_GRP_COUNT : Fld := ⟨0x40010C, 0x400, 0x0, 0, 32, 118, 1⟩
def R.LANE_GRP_COUNT_RETRAINS : Fld := ⟨0x40010C, 0x400, 0x0, 0, 16, 118, 1⟩
def R.LANE_GRP_COUNT_FALLBACKS : Fld := ⟨0x40010C, 0x400, 0x0, 16, 16, 118, 1⟩
def R.LANE_GRP_EVENT : Fld := ⟨0x400110, 0x400, 0x0, 0, 32, 118, 1⟩
def R.LANE_GRP_EVENT_LOST : Fld := ⟨0x400110, 0x400, 0x0, 0, 1, 118, 1⟩
def R.LANE_GRP_EVENT_FELL : Fld := ⟨0x400110, 0x400, 0x0, 1, 1, 118, 1⟩
def R.LANE_GRP_EVENT_FAILED : Fld := ⟨0x400110, 0x400, 0x0, 2, 1, 118, 1⟩
def R.LANE_GRP_EVENT_EQ_CLAMP : Fld := ⟨0x400110, 0x400, 0x0, 3, 1, 118, 1⟩
def R.LANE_GRP_EVENT_UP : Fld := ⟨0x400110, 0x400, 0x0, 4, 1, 118, 1⟩
def R.LANE_IRQ_STATUS : Fld := ⟨0x400300, 0x0, 0x0, 0, 32, 1, 1⟩
def R.LANE_IRQ_STATUS_GRP_EVENT : Fld := ⟨0x400300, 0x0, 0x0, 0, 1, 1, 1⟩
def R.LANE_IRQ_STATUS_FALLBACK : Fld := ⟨0x400300, 0x0, 0x0, 1, 1, 1, 1⟩
def R.LANE_IRQ_STATUS_PANEL_RATE : Fld := ⟨0x400300, 0x0, 0x0, 2, 1, 1, 1⟩
def R.LANE_IRQ_MASK : Fld := ⟨0x400304, 0x0, 0x0, 0, 3, 1, 1⟩
def R.LANE_GRP_MAP : Fld := ⟨0x400308, 0x0, 0x0, 0, 27, 1, 1⟩
def R.LANE_PANEL : Fld := ⟨0x40030C, 0x0, 0x0, 0, 32, 1, 1⟩
def R.LANE_PANEL_SLOWEST : Fld := ⟨0x40030C, 0x0, 0x0, 0, 2, 1, 1⟩
def R.LANE_PANEL_LENS_OK : Fld := ⟨0x40030C, 0x0, 0x0, 2, 1, 1, 1⟩
def R.LANE_PANEL_FALLBACK : Fld := ⟨0x40030C, 0x0, 0x0, 3, 1, 1, 1⟩
def R.LANE_PANEL_FAILED : Fld := ⟨0x40030C, 0x0, 0x0, 16, 16, 1, 1⟩
def R.MEM_C_STAT : Fld := ⟨0x480000, 0x10000, 0x0, 0, 32, 6, 1⟩
def R.MEM_C_STAT_STATE : Fld := ⟨0x480000, 0x10000, 0x0, 0, 3, 6, 1⟩
def R.MEM_C_STAT_CHANNELS : Fld := ⟨0x480000, 0x10000, 0x0, 8, 8, 6, 1⟩
def R.MEM_C_STAT_HOT : Fld := ⟨0x480000, 0x10000, 0x0, 16, 8, 6, 1⟩
def R.MEM_C_ECC : Fld := ⟨0x480004, 0x10000, 0x0, 0, 32, 6, 1⟩
def R.MEM_C_ECC_ACCESS : Fld := ⟨0x480004, 0x10000, 0x0, 0, 16, 6, 1⟩
def R.MEM_C_ECC_SCRUB : Fld := ⟨0x480004, 0x10000, 0x0, 16, 16, 6, 1⟩
def R.MEM_C_FRZ_INFO : Fld := ⟨0x480008, 0x10000, 0x0, 0, 32, 6, 1⟩
def R.MEM_C_FRZ_INFO_CHANNEL : Fld := ⟨0x480008, 0x10000, 0x0, 0, 3, 6, 1⟩
def R.MEM_C_FRZ_INFO_CAUSE : Fld := ⟨0x480008, 0x10000, 0x0, 3, 3, 6, 1⟩
def R.MEM_C_FRZ_INFO_BANK : Fld := ⟨0x480008, 0x10000, 0x0, 6, 4, 6, 1⟩
def R.MEM_C_FRZ_INFO_SYNDROME : Fld := ⟨0x480008, 0x10000, 0x0, 10, 8, 6, 1⟩
def R.MEM_C_FRZ_INFO_OVERFLOW : Fld := ⟨0x480008, 0x10000, 0x0, 30, 1, 6, 1⟩
def R.MEM_C_FRZ_INFO_VALID : Fld := ⟨0x480008, 0x10000, 0x0, 31, 1, 6, 1⟩
def R.MEM_C_FRZ_ADDR : Fld := ⟨0x480010, 0x10000, 0x0, 0, 64, 6, 1⟩
def R.MEM_C_FRZ_ROW : Fld := ⟨0x480018, 0x10000, 0x0, 0, 18, 6, 1⟩
def R.MEM_C_CMD : Fld := ⟨0x480020, 0x10000, 0x0, 0, 32, 6, 1⟩
def R.MEM_C_CMD_UNFREEZE : Fld := ⟨0x480020, 0x10000, 0x0, 0, 1, 6, 1⟩
def R.MEM_C_CMD_KEY : Fld := ⟨0x480020, 0x10000, 0x0, 16, 16, 6, 1⟩
def R.MEM_C_HIST : Fld := ⟨0x480040, 0x10000, 0x4, 0, 32, 6, 16⟩
def R.MEM_C_HIST_CMD : Fld := ⟨0x480040, 0x10000, 0x4, 0, 4, 6, 16⟩
def R.MEM_C_HIST_BANK : Fld := ⟨0x480040, 0x10000, 0x4, 4, 4, 6, 16⟩
def R.MEM_C_HIST_CHANNEL : Fld := ⟨0x480040, 0x10000, 0x4, 8, 3, 6, 16⟩
def R.MEM_C_HIST_TIME : Fld := ⟨0x480040, 0x10000, 0x4, 12, 20, 6, 16⟩
def R.MEM_C_BW : Fld := ⟨0x480080, 0x10000, 0x8, 0, 64, 6, 4⟩
def R.MEM_CH_STAT : Fld := ⟨0x481000, 0x10000, 0x100, 0, 32, 6, 8⟩
def R.MEM_CH_STAT_TRAIN : Fld := ⟨0x481000, 0x10000, 0x100, 0, 2, 6, 8⟩
def R.MEM_CH_STAT_MR4 : Fld := ⟨0x481000, 0x10000, 0x100, 2, 3, 6, 8⟩
def R.MEM_CH_STAT_HOT : Fld := ⟨0x481000, 0x10000, 0x100, 8, 1, 6, 8⟩
def R.MEM_CH_STAT_DEBT : Fld := ⟨0x481000, 0x10000, 0x100, 12, 4, 6, 8⟩
def R.MEM_CH_EYE : Fld := ⟨0x481004, 0x10000, 0x100, 0, 32, 6, 8⟩
def R.MEM_CH_EYE_RD0 : Fld := ⟨0x481004, 0x10000, 0x100, 0, 6, 6, 8⟩
def R.MEM_CH_EYE_WR0 : Fld := ⟨0x481004, 0x10000, 0x100, 8, 6, 6, 8⟩
def R.MEM_CH_EYE_RD1 : Fld := ⟨0x481004, 0x10000, 0x100, 16, 6, 6, 8⟩
def R.MEM_CH_EYE_WR1 : Fld := ⟨0x481004, 0x10000, 0x100, 24, 6, 6, 8⟩
def R.MEM_CH_REFRESH : Fld := ⟨0x481008, 0x10000, 0x100, 0, 32, 6, 8⟩
def R.MEM_CH_REFRESH_BURSTS : Fld := ⟨0x481008, 0x10000, 0x100, 0, 16, 6, 8⟩
def R.MEM_CH_REFRESH_FORCED : Fld := ⟨0x481008, 0x10000, 0x100, 16, 16, 6, 8⟩
def R.MEM_CH_RH : Fld := ⟨0x48100C, 0x10000, 0x100, 0, 32, 6, 8⟩
def R.MEM_CH_RH_RFM : Fld := ⟨0x48100C, 0x10000, 0x100, 0, 16, 6, 8⟩
def R.MEM_CH_RH_THROTTLES : Fld := ⟨0x48100C, 0x10000, 0x100, 16, 16, 6, 8⟩
def R.MEM_CH_RH_LAST : Fld := ⟨0x481010, 0x10000, 0x100, 0, 32, 6, 8⟩
def R.MEM_CH_RH_LAST_ROW : Fld := ⟨0x481010, 0x10000, 0x100, 0, 18, 6, 8⟩
def R.MEM_CH_RH_LAST_BANK : Fld := ⟨0x481010, 0x10000, 0x100, 18, 4, 6, 8⟩
def R.MEM_CH_RH_LAST_REQ : Fld := ⟨0x481010, 0x10000, 0x100, 22, 6, 6, 8⟩
def R.MEM_CAP : Fld := ⟨0x4F0000, 0x0, 0x0, 0, 32, 1, 1⟩
def R.MEM_CAP_CHANNELS : Fld := ⟨0x4F0000, 0x0, 0x0, 0, 6, 1, 1⟩
def R.MEM_CAP_CONTROLLERS : Fld := ⟨0x4F0000, 0x0, 0x0, 8, 3, 1, 1⟩
def R.MEM_CAP_CH_MIB : Fld := ⟨0x4F0000, 0x0, 0x0, 16, 16, 1, 1⟩
def R.MEM_MAP : Fld := ⟨0x4F0008, 0x0, 0x0, 0, 48, 1, 1⟩
def R.MEM_SIZE : Fld := ⟨0x4F0010, 0x0, 0x0, 0, 20, 1, 1⟩
def R.MEM_HOST : Fld := ⟨0x4F0014, 0x0, 0x0, 0, 20, 1, 1⟩
def R.MEM_FREE : Fld := ⟨0x4F0018, 0x0, 0x0, 0, 20, 1, 1⟩
def R.MEM_FREQ : Fld := ⟨0x4F0020, 0x0, 0x0, 0, 32, 1, 1⟩
def R.MEM_FREQ_REQ : Fld := ⟨0x4F0020, 0x0, 0x0, 0, 2, 1, 1⟩
def R.MEM_FREQ_EFF : Fld := ⟨0x4F0020, 0x0, 0x0, 4, 2, 1, 1⟩
def R.MEM_FREQ_BUSY : Fld := ⟨0x4F0020, 0x0, 0x0, 8, 1, 1, 1⟩
def R.MEM_FREQ_REFUSED : Fld := ⟨0x4F0020, 0x0, 0x0, 9, 1, 1, 1⟩
def R.MEM_POLICY : Fld := ⟨0x4F0024, 0x0, 0x0, 0, 32, 1, 1⟩
def R.MEM_POLICY_IDLE : Fld := ⟨0x4F0024, 0x0, 0x0, 0, 8, 1, 1⟩
def R.MEM_POLICY_POSTPONE_MAX : Fld := ⟨0x4F0024, 0x0, 0x0, 8, 4, 1, 1⟩
def R.MEM_POLICY_SCRUB_H : Fld := ⟨0x4F0024, 0x0, 0x0, 16, 8, 1, 1⟩
def R.MEM_RH : Fld := ⟨0x4F0028, 0x0, 0x0, 0, 32, 1, 1⟩
def R.MEM_RH_THRESH : Fld := ⟨0x4F0028, 0x0, 0x0, 0, 16, 1, 1⟩
def R.MEM_RH_THROTTLE_NS : Fld := ⟨0x4F0028, 0x0, 0x0, 16, 16, 1, 1⟩
def R.MEM_FREEZE_CTRL : Fld := ⟨0x4F002C, 0x0, 0x0, 0, 32, 1, 1⟩
def R.MEM_FREEZE_CTRL_AUTO_CORE : Fld := ⟨0x4F002C, 0x0, 0x0, 0, 1, 1, 1⟩
def R.MEM_FREEZE_CTRL_DELAY_MS : Fld := ⟨0x4F002C, 0x0, 0x0, 16, 16, 1, 1⟩
def R.MEM_IRQ_STATUS : Fld := ⟨0x4F0100, 0x0, 0x0, 0, 32, 1, 1⟩
def R.MEM_IRQ_STATUS_CORR : Fld := ⟨0x4F0100, 0x0, 0x0, 0, 1, 1, 1⟩
def R.MEM_IRQ_STATUS_FROZEN : Fld := ⟨0x4F0100, 0x0, 0x0, 1, 1, 1, 1⟩
def R.MEM_IRQ_STATUS_HOT : Fld := ⟨0x4F0100, 0x0, 0x0, 2, 1, 1, 1⟩
def R.MEM_IRQ_STATUS_RH : Fld := ⟨0x4F0100, 0x0, 0x0, 3, 1, 1, 1⟩
def R.MEM_IRQ_STATUS_EYE_LOW : Fld := ⟨0x4F0100, 0x0, 0x0, 4, 1, 1, 1⟩
def R.MEM_IRQ_STATUS_FREQ_DONE : Fld := ⟨0x4F0100, 0x0, 0x0, 5, 1, 1, 1⟩
def R.MEM_IRQ_STATUS_FREQ_REFUSED : Fld := ⟨0x4F0100, 0x0, 0x0, 6, 1, 1, 1⟩
def R.MEM_IRQ_MASK : Fld := ⟨0x4F0104, 0x0, 0x0, 0, 7, 1, 1⟩
def R.MEM_REGION_BASE : Fld := ⟨0x4F1000, 0x10, 0x0, 0, 32, 64, 1⟩
def R.MEM_REGION_LIMIT : Fld := ⟨0x4F1004, 0x10, 0x0, 0, 32, 64, 1⟩
def R.MEM_REGION_ATTR : Fld := ⟨0x4F1008, 0x10, 0x0, 0, 32, 64, 1⟩
def R.MEM_REGION_ATTR_VALID : Fld := ⟨0x4F1008, 0x10, 0x0, 0, 1, 64, 1⟩
def R.MEM_REGION_ATTR_READ : Fld := ⟨0x4F1008, 0x10, 0x0, 1, 1, 64, 1⟩
def R.MEM_REGION_ATTR_WRITE : Fld := ⟨0x4F1008, 0x10, 0x0, 2, 1, 64, 1⟩
def R.MEM_REGION_ATTR_PERS : Fld := ⟨0x4F1008, 0x10, 0x0, 8, 1, 64, 1⟩
def R.MEM_REGION_ATTR_INTK : Fld := ⟨0x4F1008, 0x10, 0x0, 9, 1, 64, 1⟩
def R.MEM_REGION_ATTR_LZC : Fld := ⟨0x4F1008, 0x10, 0x0, 10, 1, 64, 1⟩
def R.MEM_REGION_ATTR_BLT : Fld := ⟨0x4F1008, 0x10, 0x0, 11, 1, 64, 1⟩
def R.MEM_REGION_ATTR_COMP : Fld := ⟨0x4F1008, 0x10, 0x0, 12, 1, 64, 1⟩
def R.MEM_REGION_ATTR_BAR2 : Fld := ⟨0x4F1008, 0x10, 0x0, 13, 1, 64, 1⟩
def R.MEM_REGION_ATTR_REFUSED : Fld := ⟨0x4F1008, 0x10, 0x0, 31, 1, 64, 1⟩
def R.PAIR_STAT : Fld := ⟨0x500000, 0x0, 0x0, 0, 32, 1, 1⟩
def R.PAIR_STAT_LETTER : Fld := ⟨0x500000, 0x0, 0x0, 0, 2, 1, 1⟩
def R.PAIR_STAT_STATE : Fld := ⟨0x500000, 0x0, 0x0, 2, 3, 1, 1⟩
def R.PAIR_STAT_DRIVE : Fld := ⟨0x500000, 0x0, 0x0, 5, 1, 1, 1⟩
def R.PAIR_STAT_PORT : Fld := ⟨0x500000, 0x0, 0x0, 6, 1, 1, 1⟩
def R.PAIR_STAT_PARTNER_LOST : Fld := ⟨0x500000, 0x0, 0x0, 7, 1, 1, 1⟩
def R.PAIR_STAT_OUT_OF_STEP : Fld := ⟨0x500000, 0x0, 0x0, 8, 1, 1, 1⟩
def R.PAIR_STAT_RESYNC : Fld := ⟨0x500000, 0x0, 0x0, 9, 1, 1, 1⟩
def R.PAIR_CTRL : Fld := ⟨0x500004, 0x0, 0x0, 0, 32, 1, 1⟩
def R.PAIR_CTRL_HB_MISS : Fld := ⟨0x500004, 0x0, 0x0, 0, 4, 1, 1⟩
def R.PAIR_CTRL_DIV_PERSIST : Fld := ⟨0x500004, 0x0, 0x0, 4, 4, 1, 1⟩
def R.PAIR_CTRL_LEAD_US : Fld := ⟨0x500004, 0x0, 0x0, 8, 8, 1, 1⟩
def R.PAIR_CMD : Fld := ⟨0x500008, 0x0, 0x0, 0, 32, 1, 1⟩
def R.PAIR_CMD_HANDOVER : Fld := ⟨0x500008, 0x0, 0x0, 0, 1, 1, 1⟩
def R.PAIR_CMD_RESYNC : Fld := ⟨0x500008, 0x0, 0x0, 1, 1, 1, 1⟩
def R.PAIR_CMD_KEY : Fld := ⟨0x500008, 0x0, 0x0, 16, 16, 1, 1⟩
def R.PAIR_FIT : Fld := ⟨0x50000C, 0x0, 0x0, 0, 32, 1, 1⟩
def R.PAIR_FIT_FIT : Fld := ⟨0x50000C, 0x0, 0x0, 0, 8, 1, 1⟩
def R.PAIR_FIT_PEER_FIT : Fld := ⟨0x50000C, 0x0, 0x0, 8, 8, 1, 1⟩
def R.PAIR_PEER : Fld := ⟨0x500010, 0x0, 0x0, 0, 64, 1, 1⟩
def R.PAIR_COUNT : Fld := ⟨0x500018, 0x0, 0x0, 0, 32, 1, 1⟩
def R.PAIR_COUNT_TAKEOVERS : Fld := ⟨0x500018, 0x0, 0x0, 0, 16, 1, 1⟩
def R.PAIR_COUNT_HANDOVERS : Fld := ⟨0x500018, 0x0, 0x0, 16, 16, 1, 1⟩
def R.PAIR_LAST : Fld := ⟨0x50001C, 0x0, 0x0, 0, 32, 1, 1⟩
def R.PAIR_LAST_CAUSE : Fld := ⟨0x50001C, 0x0, 0x0, 0, 3, 1, 1⟩
def R.PAIR_LAST_FAIL_CAUSE : Fld := ⟨0x50001C, 0x0, 0x0, 3, 5, 1, 1⟩
def R.PAIR_LAST_FIT : Fld := ⟨0x50001C, 0x0, 0x0, 8, 8, 1, 1⟩
def R.PAIR_LAST_SF : Fld := ⟨0x50001C, 0x0, 0x0, 16, 16, 1, 1⟩
def R.PAIR_DIV : Fld := ⟨0x500020, 0x0, 0x0, 0, 32, 1, 1⟩
def R.PAIR_DIV_MISMATCH : Fld := ⟨0x500020, 0x0, 0x0, 0, 16, 1, 1⟩
def R.PAIR_DIV_UNRESOLVED : Fld := ⟨0x500020, 0x0, 0x0, 16, 16, 1, 1⟩
def R.PAIR_EXCUSED : Fld := ⟨0x500024, 0x0, 0x0, 0, 32, 1, 1⟩
def R.PAIR_DROP : Fld := ⟨0x500028, 0x0, 0x0, 0, 32, 1, 1⟩
def R.PAIR_DROP_ADDR : Fld := ⟨0x50002C, 0x0, 0x0, 0, 32, 1, 1⟩
def R.PAIR_DROP_ADDR_OFFSET : Fld := ⟨0x50002C, 0x0, 0x0, 0, 24, 1, 1⟩
def R.PAIR_DROP_ADDR_REQ : Fld := ⟨0x50002C, 0x0, 0x0, 24, 2, 1, 1⟩
def R.PAIR_LINK : Fld := ⟨0x500030, 0x0, 0x0, 0, 32, 1, 1⟩
def R.PAIR_LINK_RESENDS : Fld := ⟨0x500030, 0x0, 0x0, 0, 16, 1, 1⟩
def R.PAIR_LINK_HB_MISSED : Fld := ⟨0x500030, 0x0, 0x0, 16, 16, 1, 1⟩
def R.PAIR_IRQ_STATUS : Fld := ⟨0x500040, 0x0, 0x0, 0, 32, 1, 1⟩
def R.PAIR_IRQ_STATUS_TAKEOVER : Fld := ⟨0x500040, 0x0, 0x0, 0, 1, 1, 1⟩
def R.PAIR_IRQ_STATUS_YIELDED : Fld := ⟨0x500040, 0x0, 0x0, 1, 1, 1, 1⟩
def R.PAIR_IRQ_STATUS_PARTNER_LOST : Fld := ⟨0x500040, 0x0, 0x0, 2, 1, 1, 1⟩
def R.PAIR_IRQ_STATUS_DIVERGED : Fld := ⟨0x500040, 0x0, 0x0, 3, 1, 1, 1⟩
def R.PAIR_IRQ_STATUS_TAKEOVER_BLOCKED : Fld := ⟨0x500040, 0x0, 0x0, 4, 1, 1, 1⟩
def R.PAIR_IRQ_STATUS_HANDOVER_REFUSED : Fld := ⟨0x500040, 0x0, 0x0, 5, 1, 1, 1⟩
def R.PAIR_IRQ_STATUS_ROLE_CONFLICT : Fld := ⟨0x500040, 0x0, 0x0, 6, 1, 1, 1⟩
def R.PAIR_IRQ_STATUS_FIT_CHANGED : Fld := ⟨0x500040, 0x0, 0x0, 7, 1, 1, 1⟩
def R.PAIR_IRQ_MASK : Fld := ⟨0x500044, 0x0, 0x0, 0, 8, 1, 1⟩
def R.ARRAY_POS : Fld := ⟨0x540000, 0x0, 0x0, 0, 32, 1, 1⟩
def R.ARRAY_POS_X : Fld := ⟨0x540000, 0x0, 0x0, 0, 5, 1, 1⟩
def R.ARRAY_POS_Y : Fld := ⟨0x540000, 0x0, 0x0, 8, 5, 1, 1⟩
def R.ARRAY_POS_VALID : Fld := ⟨0x540000, 0x0, 0x0, 15, 1, 1, 1⟩
def R.ARRAY_XCHK_LIM : Fld := ⟨0x540004, 0x0, 0x0, 0, 16, 1, 1⟩
def R.ARRAY_PORT_NBR : Fld := ⟨0x540100, 0x20, 0x0, 0, 32, 4, 1⟩
def R.ARRAY_PORT_NBR_X : Fld := ⟨0x540100, 0x20, 0x0, 0, 5, 4, 1⟩
def R.ARRAY_PORT_NBR_Y : Fld := ⟨0x540100, 0x20, 0x0, 8, 5, 4, 1⟩
def R.ARRAY_PORT_NBR_VALID : Fld := ⟨0x540100, 0x20, 0x0, 13, 1, 4, 1⟩
def R.ARRAY_PORT_NBR_LETTER : Fld := ⟨0x540100, 0x20, 0x0, 14, 2, 4, 1⟩
def R.ARRAY_PORT_NBR_PRESENT : Fld := ⟨0x540100, 0x20, 0x0, 16, 1, 4, 1⟩
def R.ARRAY_PORT_NBR_CONFLICT : Fld := ⟨0x540100, 0x20, 0x0, 17, 1, 4, 1⟩
def R.ARRAY_PORT_NBR_LOCKED : Fld := ⟨0x540100, 0x20, 0x0, 18, 1, 4, 1⟩
def R.ARRAY_PORT_NBR_HOPS : Fld := ⟨0x540100, 0x20, 0x0, 24, 6, 4, 1⟩
def R.ARRAY_PORT_XCHK : Fld := ⟨0x540104, 0x20, 0x0, 0, 32, 4, 1⟩
def R.ARRAY_PORT_DELAY : Fld := ⟨0x540108, 0x20, 0x0, 0, 16, 4, 1⟩
def R.ARRAY_PORT_COUNT : Fld := ⟨0x54010C, 0x20, 0x0, 0, 32, 4, 1⟩
def R.ARRAY_PORT_COUNT_EXCHANGES : Fld := ⟨0x54010C, 0x20, 0x0, 0, 16, 4, 1⟩
def R.ARRAY_PORT_COUNT_BAD : Fld := ⟨0x54010C, 0x20, 0x0, 16, 16, 4, 1⟩
def R.ARRAY_IRQ_STATUS : Fld := ⟨0x540200, 0x0, 0x0, 0, 32, 1, 1⟩
def R.ARRAY_IRQ_STATUS_NBR_CHANGE : Fld := ⟨0x540200, 0x0, 0x0, 0, 1, 1, 1⟩
def R.ARRAY_IRQ_STATUS_POS_CONFLICT : Fld := ⟨0x540200, 0x0, 0x0, 1, 1, 1, 1⟩
def R.ARRAY_IRQ_STATUS_HOP_LIMIT : Fld := ⟨0x540200, 0x0, 0x0, 2, 1, 1, 1⟩
def R.ARRAY_IRQ_MASK : Fld := ⟨0x540204, 0x0, 0x0, 0, 3, 1, 1⟩
def R.HOST_ID : Fld := ⟨0x580000, 0x0, 0x0, 0, 32, 1, 1⟩
def R.HOST_ID_VENDOR : Fld := ⟨0x580000, 0x0, 0x0, 0, 16, 1, 1⟩
def R.HOST_ID_DEVICE : Fld := ⟨0x580000, 0x0, 0x0, 16, 16, 1, 1⟩
def R.HOST_LINK : Fld := ⟨0x580004, 0x0, 0x0, 0, 32, 1, 1⟩
def R.HOST_LINK_GEN : Fld := ⟨0x580004, 0x0, 0x0, 0, 3, 1, 1⟩
def R.HOST_LINK_WIDTH : Fld := ⟨0x580004, 0x0, 0x0, 4, 4, 1, 1⟩
def R.HOST_LINK_DL_UP : Fld := ⟨0x580004, 0x0, 0x0, 8, 1, 1, 1⟩
def R.HOST_LINK_DOWNS : Fld := ⟨0x580004, 0x0, 0x0, 16, 16, 1, 1⟩
def R.HOST_BAR2_BASE : Fld := ⟨0x580008, 0x0, 0x0, 21, 43, 1, 1⟩
def R.HOST_BAR2_ERR : Fld := ⟨0x580010, 0x0, 0x0, 0, 32, 1, 1⟩
def R.HOST_BAR2_LAST : Fld := ⟨0x580014, 0x0, 0x0, 0, 32, 1, 1⟩
def R.HOST_BAR2_LAST_OFFSET : Fld := ⟨0x580014, 0x0, 0x0, 0, 28, 1, 1⟩
def R.HOST_BAR2_LAST_WRITE : Fld := ⟨0x580014, 0x0, 0x0, 28, 1, 1, 1⟩
def R.HOST_BAR2_LAST_CAUSE : Fld := ⟨0x580014, 0x0, 0x0, 29, 2, 1, 1⟩
def R.HOST_RESETS : Fld := ⟨0x580018, 0x0, 0x0, 0, 32, 1, 1⟩
def R.HOST_RESETS_PORT : Fld := ⟨0x580018, 0x0, 0x0, 0, 16, 1, 1⟩
def R.HOST_RESETS_FLR : Fld := ⟨0x580018, 0x0, 0x0, 16, 16, 1, 1⟩
def R.HOST_IRQ_STATUS : Fld := ⟨0x580040, 0x0, 0x0, 0, 32, 1, 1⟩
def R.HOST_IRQ_STATUS_LINK_CHANGE : Fld := ⟨0x580040, 0x0, 0x0, 0, 1, 1, 1⟩
def R.HOST_IRQ_STATUS_BAR2_ERR : Fld := ⟨0x580040, 0x0, 0x0, 1, 1, 1, 1⟩
def R.HOST_IRQ_STATUS_PORT_RESET : Fld := ⟨0x580040, 0x0, 0x0, 2, 1, 1, 1⟩
def R.HOST_IRQ_MASK : Fld := ⟨0x580044, 0x0, 0x0, 0, 3, 1, 1⟩
def R.HOST_MSIX_ADDR : Fld := ⟨0x581000, 0x10, 0x0, 0, 64, 64, 1⟩
def R.HOST_MSIX_DATA : Fld := ⟨0x581008, 0x10, 0x0, 0, 32, 64, 1⟩
def R.HOST_MSIX_CTRL : Fld := ⟨0x58100C, 0x10, 0x0, 0, 1, 64, 1⟩
def R.HOST_MSIX_PBA : Fld := ⟨0x582000, 0x0, 0x0, 0, 64, 1, 1⟩
def R.ETH_CAGE_CTRL : Fld := ⟨0x5C0000, 0x100, 0x0, 0, 2, 2, 1⟩
def R.ETH_CAGE_STAT : Fld := ⟨0x5C0004, 0x100, 0x0, 0, 32, 2, 1⟩
def R.ETH_CAGE_STAT_PRESENT : Fld := ⟨0x5C0004, 0x100, 0x0, 0, 1, 2, 1⟩
def R.ETH_CAGE_STAT_POWER_DENIED : Fld := ⟨0x5C0004, 0x100, 0x0, 1, 1, 2, 1⟩
def R.ETH_CAGE_STAT_CLASS : Fld := ⟨0x5C0004, 0x100, 0x0, 4, 4, 2, 1⟩
def R.ETH_PORT_MAC : Fld := ⟨0x5C1000, 0x100, 0x0, 0, 48, 8, 1⟩
def R.ETH_PORT_IPV4 : Fld := ⟨0x5C1008, 0x100, 0x0, 0, 32, 8, 1⟩
def R.ETH_PORT_CFG : Fld := ⟨0x5C100C, 0x100, 0x0, 0, 32, 8, 1⟩
def R.ETH_PORT_CFG_PREFIX : Fld := ⟨0x5C100C, 0x100, 0x0, 0, 6, 8, 1⟩
def R.ETH_PORT_CFG_VLAN : Fld := ⟨0x5C100C, 0x100, 0x0, 6, 12, 8, 1⟩
def R.ETH_PORT_CFG_FEC : Fld := ⟨0x5C100C, 0x100, 0x0, 18, 2, 8, 1⟩
def R.ETH_PORT_STAT : Fld := ⟨0x5C1010, 0x100, 0x0, 0, 32, 8, 1⟩
def R.ETH_PORT_STAT_LINK : Fld := ⟨0x5C1010, 0x100, 0x0, 0, 1, 8, 1⟩
def R.ETH_PORT_STAT_SPEED : Fld := ⟨0x5C1010, 0x100, 0x0, 1, 2, 8, 1⟩
def R.ETH_PORT_STAT_DHCP : Fld := ⟨0x5C1010, 0x100, 0x0, 3, 1, 8, 1⟩
def R.ETH_PORT_RX : Fld := ⟨0x5C1018, 0x100, 0x0, 0, 64, 8, 1⟩
def R.ETH_PORT_ERR : Fld := ⟨0x5C1020, 0x100, 0x0, 0, 32, 8, 1⟩
def R.ETH_PORT_ERR_FCS_ERR : Fld := ⟨0x5C1020, 0x100, 0x0, 0, 16, 8, 1⟩
def R.ETH_PORT_ERR_RX_DROP : Fld := ⟨0x5C1020, 0x100, 0x0, 16, 16, 8, 1⟩
def R.ETH_IRQ_STATUS : Fld := ⟨0x5CF000, 0x0, 0x0, 0, 32, 1, 1⟩
def R.ETH_IRQ_STATUS_LINK : Fld := ⟨0x5CF000, 0x0, 0x0, 0, 8, 1, 1⟩
def R.ETH_IRQ_STATUS_CAGE : Fld := ⟨0x5CF000, 0x0, 0x0, 8, 2, 1, 1⟩
def R.ETH_IRQ_MASK : Fld := ⟨0x5CF004, 0x0, 0x0, 0, 10, 1, 1⟩
def R.DPRX_CTRL : Fld := ⟨0x600000, 0x0, 0x0, 0, 32, 1, 1⟩
def R.DPRX_CTRL_EN : Fld := ⟨0x600000, 0x0, 0x0, 0, 1, 1, 1⟩
def R.DPRX_CTRL_MAX_RATE : Fld := ⟨0x600000, 0x0, 0x0, 1, 3, 1, 1⟩
def R.DPRX_CTRL_HDCP_EN : Fld := ⟨0x600000, 0x0, 0x0, 4, 1, 1, 1⟩
def R.DPRX_STAT : Fld := ⟨0x600004, 0x0, 0x0, 0, 32, 1, 1⟩
def R.DPRX_STAT_HPD : Fld := ⟨0x600004, 0x0, 0x0, 0, 1, 1, 1⟩
def R.DPRX_STAT_RATE : Fld := ⟨0x600004, 0x0, 0x0, 1, 3, 1, 1⟩
def R.DPRX_STAT_LANES : Fld := ⟨0x600004, 0x0, 0x0, 4, 3, 1, 1⟩
def R.DPRX_STAT_VIDEO : Fld := ⟨0x600004, 0x0, 0x0, 7, 1, 1, 1⟩
def R.DPRX_STAT_HDCP : Fld := ⟨0x600004, 0x0, 0x0, 8, 2, 1, 1⟩
def R.DPRX_SIZE : Fld := ⟨0x600008, 0x0, 0x0, 0, 32, 1, 1⟩
def R.DPRX_SIZE_W : Fld := ⟨0x600008, 0x0, 0x0, 0, 16, 1, 1⟩
def R.DPRX_SIZE_H : Fld := ⟨0x600008, 0x0, 0x0, 16, 16, 1, 1⟩
def R.DPRX_FMT : Fld := ⟨0x60000C, 0x0, 0x0, 0, 32, 1, 1⟩
def R.DPRX_FMT_RATE_MHZ : Fld := ⟨0x60000C, 0x0, 0x0, 0, 20, 1, 1⟩
def R.DPRX_FMT_BITS : Fld := ⟨0x60000C, 0x0, 0x0, 20, 4, 1, 1⟩
def R.DPRX_FMT_ENC : Fld := ⟨0x60000C, 0x0, 0x0, 24, 2, 1, 1⟩
def R.DPRX_FMT_TRANSFER : Fld := ⟨0x60000C, 0x0, 0x0, 26, 2, 1, 1⟩
def R.DPRX_FMT_LIMITED : Fld := ⟨0x60000C, 0x0, 0x0, 28, 1, 1, 1⟩
def R.DPRX_ERR : Fld := ⟨0x600010, 0x0, 0x0, 0, 32, 1, 1⟩
def R.DPRX_ERR_SYMBOL : Fld := ⟨0x600010, 0x0, 0x0, 0, 16, 1, 1⟩
def R.DPRX_ERR_UNSUPP : Fld := ⟨0x600010, 0x0, 0x0, 16, 16, 1, 1⟩
def R.DPRX_IRQ_STATUS : Fld := ⟨0x600040, 0x0, 0x0, 0, 32, 1, 1⟩
def R.DPRX_IRQ_STATUS_LINK : Fld := ⟨0x600040, 0x0, 0x0, 0, 1, 1, 1⟩
def R.DPRX_IRQ_STATUS_TIMING : Fld := ⟨0x600040, 0x0, 0x0, 1, 1, 1, 1⟩
def R.DPRX_IRQ_STATUS_HDCP : Fld := ⟨0x600040, 0x0, 0x0, 2, 1, 1, 1⟩
def R.DPRX_IRQ_MASK : Fld := ⟨0x600044, 0x0, 0x0, 0, 3, 1, 1⟩
def R.DPTX_CTRL : Fld := ⟨0x610000, 0x0, 0x0, 0, 32, 1, 1⟩
def R.DPTX_CTRL_EN : Fld := ⟨0x610000, 0x0, 0x0, 0, 1, 1, 1⟩
def R.DPTX_CTRL_MAX_RATE : Fld := ⟨0x610000, 0x0, 0x0, 1, 2, 1, 1⟩
def R.DPTX_STAT : Fld := ⟨0x610004, 0x0, 0x0, 0, 32, 1, 1⟩
def R.DPTX_STAT_HPD : Fld := ⟨0x610004, 0x0, 0x0, 0, 1, 1, 1⟩
def R.DPTX_STAT_RATE : Fld := ⟨0x610004, 0x0, 0x0, 1, 2, 1, 1⟩
def R.DPTX_STAT_LANES : Fld := ⟨0x610004, 0x0, 0x0, 3, 3, 1, 1⟩
def R.DPTX_STAT_TRAINED : Fld := ⟨0x610004, 0x0, 0x0, 6, 1, 1, 1⟩
def R.DPTX_STAT_BW_ERR : Fld := ⟨0x610004, 0x0, 0x0, 7, 1, 1, 1⟩
def R.DPTX_STAT_TEN_BIT : Fld := ⟨0x610004, 0x0, 0x0, 8, 1, 1, 1⟩
def R.DPTX_EDID : Fld := ⟨0x610100, 0x4, 0x0, 0, 32, 64, 1⟩
def R.PREV_CTRL : Fld := ⟨0x620000, 0x0, 0x0, 0, 32, 1, 1⟩
def R.PREV_CTRL_EN : Fld := ⟨0x620000, 0x0, 0x0, 0, 1, 1, 1⟩
def R.PREV_CTRL_SRC : Fld := ⟨0x620000, 0x0, 0x0, 1, 1, 1, 1⟩
def R.PREV_CTRL_AUTO : Fld := ⟨0x620000, 0x0, 0x0, 2, 1, 1, 1⟩
def R.PREV_VIEW : Fld := ⟨0x620004, 0x0, 0x0, 0, 32, 1, 1⟩
def R.PREV_VIEW_VIEW : Fld := ⟨0x620004, 0x0, 0x0, 0, 16, 1, 1⟩
def R.PREV_VIEW_PHASE : Fld := ⟨0x620004, 0x0, 0x0, 16, 2, 1, 1⟩
def R.PREV_VIEW_DECIM_X : Fld := ⟨0x620004, 0x0, 0x0, 18, 2, 1, 1⟩
def R.PREV_VIEW_DECIM_Y : Fld := ⟨0x620004, 0x0, 0x0, 20, 2, 1, 1⟩
def R.PREV_POS : Fld := ⟨0x620008, 0x0, 0x0, 0, 32, 1, 1⟩
def R.PREV_POS_X : Fld := ⟨0x620008, 0x0, 0x0, 0, 16, 1, 1⟩
def R.PREV_POS_Y : Fld := ⟨0x620008, 0x0, 0x0, 16, 16, 1, 1⟩
def R.PREV_SURF : Fld := ⟨0x620010, 0x0, 0x0, 0, 64, 1, 1⟩
def R.PREV_PITCH : Fld := ⟨0x620018, 0x0, 0x0, 0, 20, 1, 1⟩
def R.PREV_SIZE : Fld := ⟨0x62001C, 0x0, 0x0, 0, 32, 1, 1⟩
def R.PREV_SIZE_W : Fld := ⟨0x62001C, 0x0, 0x0, 0, 16, 1, 1⟩
def R.PREV_SIZE_H : Fld := ⟨0x62001C, 0x0, 0x0, 16, 16, 1, 1⟩
def R.PREV_FMT : Fld := ⟨0x620020, 0x0, 0x0, 0, 2, 1, 1⟩
def R.PREV_HTIME : Fld := ⟨0x620030, 0x0, 0x0, 0, 32, 1, 1⟩
def R.PREV_HTIME_HACT : Fld := ⟨0x620030, 0x0, 0x0, 0, 16, 1, 1⟩
def R.PREV_HTIME_HFP : Fld := ⟨0x620030, 0x0, 0x0, 16, 16, 1, 1⟩
def R.PREV_HTIME2 : Fld := ⟨0x620034, 0x0, 0x0, 0, 32, 1, 1⟩
def R.PREV_HTIME2_HSYNC : Fld := ⟨0x620034, 0x0, 0x0, 0, 16, 1, 1⟩
def R.PREV_HTIME2_HBP : Fld := ⟨0x620034, 0x0, 0x0, 16, 16, 1, 1⟩
def R.PREV_VTIME : Fld := ⟨0x620038, 0x0, 0x0, 0, 32, 1, 1⟩
def R.PREV_VTIME_VACT : Fld := ⟨0x620038, 0x0, 0x0, 0, 16, 1, 1⟩
def R.PREV_VTIME_VFP : Fld := ⟨0x620038, 0x0, 0x0, 16, 16, 1, 1⟩
def R.PREV_VTIME2 : Fld := ⟨0x62003C, 0x0, 0x0, 0, 32, 1, 1⟩
def R.PREV_VTIME2_VSYNC : Fld := ⟨0x62003C, 0x0, 0x0, 0, 16, 1, 1⟩
def R.PREV_VTIME2_VBP : Fld := ⟨0x62003C, 0x0, 0x0, 16, 16, 1, 1⟩
def R.PREV_CLK : Fld := ⟨0x620040, 0x0, 0x0, 0, 32, 1, 1⟩
def R.PREV_CLK_KHZ : Fld := ⟨0x620040, 0x0, 0x0, 0, 20, 1, 1⟩
def R.PREV_CLK_HPOL : Fld := ⟨0x620040, 0x0, 0x0, 20, 1, 1, 1⟩
def R.PREV_CLK_VPOL : Fld := ⟨0x620040, 0x0, 0x0, 21, 1, 1, 1⟩
def R.PREV_STAT : Fld := ⟨0x620050, 0x0, 0x0, 0, 32, 1, 1⟩
def R.PREV_STAT_STALE : Fld := ⟨0x620050, 0x0, 0x0, 0, 1, 1, 1⟩
def R.PREV_STAT_PROTECTED : Fld := ⟨0x620050, 0x0, 0x0, 1, 1, 1, 1⟩
def R.PREV_STAT_SRC_ERR : Fld := ⟨0x620050, 0x0, 0x0, 2, 1, 1, 1⟩
def R.PREV_STAT_TIMING_ERR : Fld := ⟨0x620050, 0x0, 0x0, 3, 1, 1, 1⟩
def R.PREV_STAT_BUFFER : Fld := ⟨0x620050, 0x0, 0x0, 4, 1, 1, 1⟩
def R.PREV_LINE : Fld := ⟨0x620054, 0x0, 0x0, 0, 16, 1, 1⟩
def R.PREV_FRAME : Fld := ⟨0x620058, 0x0, 0x0, 0, 64, 1, 1⟩
def R.TEPH_FREEZE_CTRL : Fld := ⟨0x700000, 0x0, 0x0, 0, 32, 1, 1⟩
def R.TEPH_FREEZE_CTRL_SEV_EN : Fld := ⟨0x700000, 0x0, 0x0, 0, 1, 1, 1⟩
def R.TEPH_FREEZE_CTRL_SEV : Fld := ⟨0x700000, 0x0, 0x0, 1, 2, 1, 1⟩
def R.TEPH_FREEZE_CTRL_CODE_EN : Fld := ⟨0x700000, 0x0, 0x0, 3, 1, 1, 1⟩
def R.TEPH_FREEZE_CTRL_CODE : Fld := ⟨0x700000, 0x0, 0x0, 16, 16, 1, 1⟩
def R.TEPH_FREEZE_POST : Fld := ⟨0x700004, 0x0, 0x0, 0, 13, 1, 1⟩
def R.TEPH_FREEZE_AT : Fld := ⟨0x700008, 0x0, 0x0, 0, 32, 1, 1⟩
def R.TEPH_STAT : Fld := ⟨0x70000C, 0x0, 0x0, 0, 32, 1, 1⟩
def R.TEPH_STAT_FROZEN : Fld := ⟨0x70000C, 0x0, 0x0, 0, 1, 1, 1⟩
def R.TEPH_STAT_COUNTING : Fld := ⟨0x70000C, 0x0, 0x0, 1, 1, 1, 1⟩
def R.TEPH_STAT_SAVED : Fld := ⟨0x70000C, 0x0, 0x0, 2, 1, 1, 1⟩
def R.TEPH_STAT_MIRRORING : Fld := ⟨0x70000C, 0x0, 0x0, 3, 1, 1, 1⟩
def R.TEPH_STAT_HELD : Fld := ⟨0x70000C, 0x0, 0x0, 4, 14, 1, 1⟩
def R.TEPH_HEAD : Fld := ⟨0x700010, 0x0, 0x0, 0, 32, 1, 1⟩
def R.TEPH_LOST : Fld := ⟨0x700014, 0x0, 0x0, 0, 32, 1, 1⟩
def R.TEPH_LOST_QUEUE : Fld := ⟨0x700014, 0x0, 0x0, 0, 16, 1, 1⟩
def R.TEPH_LOST_FROZEN : Fld := ⟨0x700014, 0x0, 0x0, 16, 16, 1, 1⟩
def R.TEPH_MIRROR : Fld := ⟨0x700018, 0x0, 0x0, 0, 32, 1, 1⟩
def R.TEPH_CMD : Fld := ⟨0x70001C, 0x0, 0x0, 0, 32, 1, 1⟩
def R.TEPH_CMD_FREEZE : Fld := ⟨0x70001C, 0x0, 0x0, 0, 1, 1, 1⟩
def R.TEPH_CMD_RESUME : Fld := ⟨0x70001C, 0x0, 0x0, 1, 1, 1, 1⟩
def R.TEPH_CMD_CLEAR : Fld := ⟨0x70001C, 0x0, 0x0, 2, 1, 1, 1⟩
def R.TEPH_CMD_KEY : Fld := ⟨0x70001C, 0x0, 0x0, 16, 16, 1, 1⟩
def R.TEPH_IRQ_STATUS : Fld := ⟨0x700100, 0x0, 0x0, 0, 32, 1, 1⟩
def R.TEPH_IRQ_STATUS_FROZEN : Fld := ⟨0x700100, 0x0, 0x0, 0, 1, 1, 1⟩
def R.TEPH_IRQ_STATUS_LOST : Fld := ⟨0x700100, 0x0, 0x0, 1, 1, 1, 1⟩
def R.TEPH_IRQ_STATUS_SAVED : Fld := ⟨0x700100, 0x0, 0x0, 2, 1, 1, 1⟩
def R.TEPH_IRQ_STATUS_MIRROR_GAP : Fld := ⟨0x700100, 0x0, 0x0, 3, 1, 1, 1⟩
def R.TEPH_IRQ_MASK : Fld := ⟨0x700104, 0x0, 0x0, 0, 4, 1, 1⟩
def R.TEPH_RING : Fld := ⟨0x710000, 0x20, 0x4, 0, 32, 8192, 8⟩
def R.TEPH_PARTNER : Fld := ⟨0x750000, 0x20, 0x4, 0, 32, 8192, 8⟩
def R.TEPH_SAVED : Fld := ⟨0x790000, 0x20, 0x4, 0, 32, 1024, 8⟩
def R.TEPH_SAVED_HDR : Fld := ⟨0x7A0000, 0x4, 0x0, 0, 32, 16, 1⟩

/-! ### Finding a register and its reset value -/

/-- The element indices (i, j) of offset `off` in row `r`, if the row implements that offset. -/
def RegInfo.index? (r : RegInfo) (off : Nat) : Option (Nat × Nat) :=
  if off < r.base then none
  else
    let d := off - r.base
    let i := d / r.s1
    let e := d % r.s1
    let j := e / r.s2
    if i < r.n1 ∧ j < r.n2 ∧ e % r.s2 = 0 then some (i, j) else none

/-- The first row of a table that implements offset `off`, with the element indices. -/
def findReg (off : Nat) : List RegInfo → Option (RegInfo × Nat × Nat)
  | [] => none
  | r :: rs =>
    match r.index? off with
    | some (i, j) => some (r, i, j)
    | none => findReg off rs

/-- The register at a BAR0 offset; none for a reserved or unimplemented offset (R62, R63). -/
def regAt (off : Nat) : Option (RegInfo × Nat × Nat) := findReg off (windowOf off)

/-- Table 6.2's default steering offsets of set `m`, phase `p`, as the word SY:SX. -/
def steerDefault (m p : Nat) : Nat :=
  let w (x y : Int) : Nat := Word.wrap 16 x + 65536 * Word.wrap 16 y
  match m, p with
  | 0, 0 => w (-64) (-64)
  | 0, 1 => w 64 (-64)
  | 0, 2 => w (-64) 64
  | 0, 3 => w 64 64
  | 1, 0 => w (-64) 0
  | 1, 1 => w 64 0
  | 2, 0 => w (-96) 0
  | 2, 1 => w (-32) 0
  | 2, 2 => w 32 0
  | 2, 3 => w 96 0
  | 3, 0 => w (-64) 0
  | 3, 1 => w 64 0
  | _, _ => 0

/-- The leading lane of group `j` (Table 13.1). -/
def leadLane (j : Nat) : Nat :=
  if j < 16 then 4 * j else if j < 20 then 64 + 2 * (j - 16) else if j < 22 then 72 + 2 * (j - 20)
  else if j = 22 then 76 else 94 + 6 * (j - 23)

/-- The group of lane `n` (Table 13.1). -/
def groupOfLane (n : Nat) : Nat :=
  if n < 64 then n / 4 else if n < 72 then 16 + (n - 64) / 2 else if n < 76 then 20 + (n - 72) / 2
  else if n < 94 then 22 else 23 + (n - 94) / 6

/-- LANE[n].ID as Tables 13.1 and 13.5 give it: LINK, INDEX, POS, RX, PRIV. -/
def laneId (n : Nat) : Nat :=
  let w (link idx pos rx priv : Nat) := link + 16 * idx + 256 * pos + 4096 * rx + 8192 * priv
  if n < 64 then w 0 (n / 4) (n % 4) 0 0
  else if n < 72 then w 1 ((n - 64) / 2) ((n - 64) % 2) 1 0
  else if n < 76 then w 2 ((n - 72) / 2) ((n - 72) % 2) 0 0
  else if n < 85 then w 3 0 (n - 76) 0 1
  else if n < 94 then w 3 0 (n - 85) 1 1
  else
    let k := (n - 94) % 6
    w 4 ((n - 94) / 6) (k % 3) (k / 3) 1

/-- The quadrant of tile `n` (R131). -/
def quadOfTile (n : Nat) : Nat := 2 * (n / 20 / 10) + n % 20 / 10

/-- The reset word of element (i, j) of a row (R9). -/
def RegInfo.resetAt (r : RegInfo) (i j : Nat) : Nat :=
  match r.kind with
  | .const => r.reset
  | .index => i
  | .quad => r.reset + 2 ^ 14 * quadOfTile i
  | .steer => steerDefault i j
  | .mcast6 => if i = 0 then 0xFF050000 else if i = 3 then 0x960 else 0
  | .lut => i * 102375 / 100
  | .laneId => laneId i

/-- The reset word of the register at an offset; 0 where no register is implemented. -/
def resetWord (off : Nat) : Word :=
  match regAt off with
  | some (r, i, j) => BitVec.ofNat 32 (r.resetAt i j)
  | none => 0

/-- The offset of element (i, j) of a field's register. -/
def Fld.off (f : Fld) (i j : Nat) : Nat := f.base + i * f.s1 + j * f.s2

/-- Whether element (i, j) is one of those the field counts. -/
abbrev Fld.inRange (f : Fld) (i j : Nat) : Prop := i < f.n1 ∧ j < f.n2

end Sys2Proof.Machine
end

