-- ==== Sys2Proof/Machine/Sparse.lean ====
section
/-!
DEFINITION. Sparse data by key in ONE canonical form: keys strictly rising, and no entry equal to what an unlisted key
reads as. The register files (R8) and module DRAM are held so.
-/

namespace Sys2Proof.Machine

/-- The value at key `k`: the listed one, or the default. -/
def Sparse.get {α : Type} (dflt : Nat → α) : List (Nat × α) → Nat → α
  | [], k => dflt k
  | (i, v) :: l, k => if i = k then v else Sparse.get dflt l k

/-- The list without the entries of key `k`. -/
def Sparse.drop {α : Type} (k : Nat) : List (Nat × α) → List (Nat × α)
  | [] => []
  | (i, v) :: l => if i = k then Sparse.drop k l else (i, v) :: Sparse.drop k l

/-- Lists `v` at `k`, or removes `k` when `v` is what an unlisted `k` reads as. -/
def Sparse.set {α : Type} [DecidableEq α] (dflt : Nat → α) : List (Nat × α) → Nat → α → List (Nat × α)
  | [], k, v => if v = dflt k then [] else [(k, v)]
  | (i, w) :: l, k, v =>
    if k < i then (if v = dflt k then Sparse.drop k ((i, w) :: l) else (k, v) :: (i, w) :: l)
    else if i = k then (if v = dflt k then Sparse.drop k l else (k, v) :: l)
    else (i, w) :: Sparse.set dflt l k v

/-- Every listed key is above `b`, keys rise strictly, and no entry holds its default. -/
def Sparse.wfFrom {α : Type} [DecidableEq α] (dflt : Nat → α) : Option Nat → List (Nat × α) → Bool
  | _, [] => true
  | b, (i, v) :: l =>
    (match b with | none => true | some k => decide (k < i)) && decide (v ≠ dflt i) && Sparse.wfFrom dflt (some i) l

/-- The canonical form. -/
def Sparse.wf {α : Type} [DecidableEq α] (dflt : Nat → α) (l : List (Nat × α)) : Bool := Sparse.wfFrom dflt none l

/-- Keeps of every entry what `f` makes of its value, dropping entries that become the default. -/
def Sparse.mapKeep {α : Type} [DecidableEq α] (dflt : Nat → α) (f : Nat → α → α) : List (Nat × α) → List (Nat × α)
  | [] => []
  | (i, v) :: l =>
    let w := f i v
    if w = dflt i then Sparse.mapKeep dflt f l else (i, w) :: Sparse.mapKeep dflt f l

end Sys2Proof.Machine
end

