-- ==== Sys2Proof/Machine/State.lean ====
section
/-!
DEFINITION. The state of the module as plain data: the register file of BAR0, what the blocks hold beside registers, module
DRAM, non-volatile memory, pins, the outbox and the queue of waiting commands. Faults, refusals and the state after reset.
-/

namespace Sys2Proof.Machine

/-- Faults. No command of this hardware ends in one: a bus error is an effect on State (R65). The type is closed. -/
inductive Fault where
  /-- Raised by nothing: kept so that the type has a name for a stop the spec does not describe. Safe. -/
  | unreachable
  deriving DecidableEq, Repr

/-- Refusals. -/
inductive Refusal where
  /-- Raised by an arm of `exec` for a command that has no meaning yet. Safe. -/
  | notModelled (mnemonic : String)
  deriving DecidableEq, Repr

/-! ### Reset, bus, strobes -/

/-- Which reset level holds the module: POR, SYS, the option and trim load, CORE, or none (R31, R40). -/
inductive Hold where
  | por | sys | load | core | run
  deriving DecidableEq, Repr

/-- The reset controller beside its registers: what holds; the sources of Table 2.2 that may outlast a wider reset (RESET_N, TAMPER_N, a fatal fabric error); entries in progress (R32,
R33); a SYS source held off during a load (R41); the host-boot wait (R60); the panel retry (Table 2.5); whether the boot comes
from SYS; ns towards the next ELAPSED_MS; what the stages 0x07, 0x09 and 0x0A of Timing 2.1 wait for; whether too few DRAM channels trained
(Table 2.5); whether Ethernet bring-up found no link, ns spent in stage 0x08, and whether the baseline placement could not be filled (Table 2.5);
pins (0 RESET_N, 1 TAMPER_N) held off by a power-fail save (R601); the boot SRAM of R524; the entry, if any, that caused the reset last asked for (R570). -/
structure RstState where
  hold : Hold
  srcPin : Bool
  srcTamper : Bool
  srcFatal : Bool
  sysEntering : Bool
  coreEntering : Bool
  loadHeld : Bool
  hostBootWait : Bool
  panelRetry : Bool
  afterSys : Bool
  elapsedNs : Nat
  patternLit : Bool
  inputReady : Bool
  frameLit : Bool
  dramFail : Bool
  inputFail : Bool
  inputNs : Nat
  placeFail : Bool
  pfHeld : List Nat
  bootSram : List Host.Cell
  cause : Option Nat
  deriving DecidableEq, Repr

/-- A read shadow or a write holding register (R72): the pair it is tagged with and its data. -/
structure Shadow where
  pair : Nat
  data : Word
  deriving DecidableEq, Repr

/-- What the requester of the last register access saw (R65, R68). -/
inductive BusResp where
  | none
  | done
  | data (w : Word)
  | data64 (lo hi : Word)
  | bytes (l : List Byte)
  | completerAbort
  | dropped
  | busFault
  | partnerError
  deriving DecidableEq, Repr

/-- Read shadows and write holding registers of the three requesters, and the last response. -/
structure BusState where
  shadowHost : Option Shadow
  shadowCare : Option Shadow
  shadowPartner : Option Shadow
  holdHost : Option Shadow
  holdCare : Option Shadow
  holdPartner : Option Shadow
  resp : BusResp
  deriving DecidableEq, Repr

/-- A pending update strobe of one group (R85): its timing; for at-time, the instant; in a pair, the earliest point it may
apply at, in ns or as a subframe number (R447). -/
structure Strobe where
  group : Nat
  timing : When
  instant : Nat
  notBefore : Nat
  targetSf : Option Nat
  deriving DecidableEq, Repr

/-- The output pins of the SYS header (Table 22.3): what the module asserts, and which of them are enabled (a pin that is not is
high-impedance, R43, R587); PWR_FAIL_N after the AO supply fell (R589). -/
structure PinState where
  alert : Bool
  pwrFail : Bool
  pwrFailHiZ : Bool
  alertEn : Bool
  pwrFailEn : Bool
  ppsEn : Bool
  ppsOut : Bool
  deriving DecidableEq, Repr

/-! ### The tephra record -/

/-- ARG2 of an offered entry: a plain value, or a cause link to the offer with that identifier (R570). -/
inductive Arg2 where
  | val (n : Nat)
  | link (cause : Option Nat)
  deriving DecidableEq, Repr

/-- An entry offered to the recorder's queue (R572): an entry without SEQ, with the model's identifier of the offer. -/
structure Offer where
  id : Nat
  time : Nat
  src : Nat
  sev : Nat
  rung : Nat
  injected : Bool
  unlocked : Bool
  code : Nat
  a0 : Nat
  a1 : Nat
  a2 : Arg2
  trigger : Bool
  deriving DecidableEq, Repr

/-- A ring slot: the entry and the identifier of its offer. -/
structure Slot where
  id : Nat
  entry : TEntry
  deriving DecidableEq, Repr

/-- A save area of module flash (R577, Table 21.6). -/
structure SaveArea where
  cause : Nat
  serial : Nat
  firstSeq : Nat
  entries : List TEntry
  headerOk : Bool
  age : Nat
  deriving DecidableEq, Repr

/-- The recorder: queue of 64, the ring (oldest first, at most 8,192), the partner ring, the saved window and its header, the
post count of a freeze being armed, losses not yet reported with the SEQ of the entry before the first; entries the partner
misses (first SEQ, count); a save due (CAUSE), and its window where the cutoff has passed. -/
structure TephState where
  queue : List Offer
  ring : List Slot
  partner : List TEntry
  saved : List TEntry
  savedHdr : Option SaveArea
  post : Option Nat
  nextId : Nat
  lostPending : Nat
  lostAfter : Nat
  gap : Option (Nat × Nat)
  saveDue : Option Nat
  saveCut : Option (List TEntry)
  deriving DecidableEq, Repr

/-! ### Rails -/

/-- Where a rail sequence stands (Timing 12.1, Timing 12.2): idle; ramping with a rail's power-good awaited; waiting for the
lines of the subframe in flight (R365); in phase k of the power-off (0: all-gates-on discharge, 1 lens rails, 2 VCOM, 3 VGH,
4 VGL, 5 NAVDD, 6 AVDD). -/
inductive RailSeq where
  | idle
  | ramp (channel : Nat)
  | waitLines
  | off (phase : Nat)
  deriving DecidableEq, Repr

/-- The rail block beside its registers. -/
structure RailState where
  seq : RailSeq
  standby : Bool
  endLocked : Bool
  byFault : Bool
  skipDischarge : Bool
  stopped : List Nat
  hot : List Nat
  retryDue : Bool
  relearn : Bool
  latchedInner : Bool
  latchedOuter : Bool
  partnerFault : Option (Nat × Nat)
  transferDue : Bool
  vcomNext : Nat
  crackNext : Nat
  deriving DecidableEq, Repr

/-! ### Views -/

/-- View synthesis beside its registers: the modes requested last and accepted (as VIEW_MODE); modes the stream supplies with a frame
that is to commit (VIEW_MODE[7:0]), and those it supplied last (R196); VIEW_CTRL in effect (R200); the SLOWEST generation of a fallback; whether group 0 was strobed at
this boundary; sequence number of the subframe being rendered; that of the first subframe of the
light-field frame the fabric begun last. -/
structure ViewState where
  want : Nat
  stream : Option Nat
  supplied : Option Nat
  ctrl : Nat
  fallGen : Nat
  asked : Bool
  renderSf : Nat
  begun : Option Nat
  deriving DecidableEq, Repr

/-! ### Intake -/

/-- A depth table entry (R177): Z and origins in 1/256 pixel pitch, SCALE in 8.16, size in tiles, EDGE, OVERLAY. -/
structure DepthEntry where
  z : Int
  ox : Int
  oy : Int
  scale : Nat
  w : Nat
  h : Nat
  edge : Bool
  overlay : Bool
  deriving DecidableEq, Repr

/-- An atlas track of a sequence header (Table 7.5). -/
structure Track where
  width : Nat
  height : Nat
  div : Nat
  x : Nat
  y : Nat
  deriving DecidableEq, Repr

/-- A checked sequence (R214, R215, R225): its header's payload, generation and fields, format number, the engine each track is bound
to, whether it waits for an automatic activation (R124), FRAME_SEQ of its first frame, once a RAP frame of it has come. -/
structure SeqHdr where
  raw : List Byte
  gen : Nat
  profile : Nat
  codec : Nat
  depth : Nat
  matrix : Nat
  mode : Nat
  transfer : Nat
  anchors : Nat
  format : Nat
  tracks : List Track
  bind : List (Option Nat)
  auto : Bool
  first : Option Nat
  deriving DecidableEq, Repr

/-- A unit in the intake buffer: the number of the arrival of its first byte, the fragments received (offset, bytes; RTP), or its
bytes once complete. -/
structure PartUnit where
  frame : Nat
  unit : Nat
  born : Nat
  frags : List (Nat × List Byte)
  total : Option Nat
  deriving DecidableEq, Repr

/-- A complete unit waiting to be read. -/
structure VssUnit where
  born : Nat
  bytes : List Byte
  deriving DecidableEq, Repr

/-- A region of an atlas (Table 7.8). -/
structure RegionE where
  atx : Nat
  aty : Nat
  w : Nat
  h : Nat
  plane : Nat
  alpha : Bool
  ptx : Nat
  pty : Nat
  hint : Bool
  deriving DecidableEq, Repr

/-- A picture in a decoder's queue: engine, frame and its presentation time, unit number, track, regions, coded picture, whether its
deadline has passed (R229). -/
structure DecJob where
  engine : Nat
  frame : Nat
  time : Int
  unit : Nat
  track : Nat
  regions : List RegionE
  coded : List Byte
  late : Bool
  deriving DecidableEq, Repr

/-- A residual set (Table 7.9): anchors, cells across and down, and for each occupied cell its corrections. -/
structure ResidSet where
  anchors : Nat
  cellsX : Nat
  cellsY : Nat
  cells : List (Nat × List Int)
  deriving DecidableEq, Repr

/-- An overlay cue (Table 7.10). -/
structure OvlyCue where
  frame : Nat
  ovly : Nat
  action : Nat
  x : Nat
  y : Nat
  w : Nat
  h : Nat
  fmt : Nat
  pixels : List Byte
  deriving DecidableEq, Repr

/-- A light-field frame between its frame header and its commit: FRAME_SEQ; its presentation time on the module's timescale; RAP;
whether it belongs to the new sequence; the depth table it carries (its origins shifted, R219), and whether that breaks R178; whether
residuals come with it; the TONE hints; units announced; atlas, mask and residual units that have come; atlas and mask units done; its
residual set; signature cues; whether its deadline has passed; the modes of a DisplayPort picture that starts a sequence. -/
structure FrameSt where
  seq : Nat
  time : Int
  rap : Bool
  fresh : Bool
  table : Option (List DepthEntry)
  bad : Bool
  resid : Bool
  tone : Option (List Nat)
  atlases : Nat
  masks : Nat
  atlasIn : Nat
  maskIn : Nat
  residIn : Nat
  atlasDone : Nat
  maskDone : Nat
  residSet : Option ResidSet
  sigs : List (List Nat)
  closed : Bool
  dp : Option (Option Nat)
  deriving DecidableEq, Repr

/-- A key loaded into a slot (R232): KID, key, NOT_AFTER, the arrival number it counts from, and, once replaced, the one it counted to. -/
structure KeySlot where
  slot : Nat
  kid : List Byte
  key : List Byte
  notAfter : Nat
  since : Nat
  till : Option Nat
  deriving DecidableEq, Repr

/-- Concealment events of one frame and kind (an index of INTK_CONCEAL) not yet recorded (R234): their number and the first plane named. -/
structure Note where
  frame : Nat
  kind : Nat
  count : Nat
  plane : Option Nat
  deriving DecidableEq, Repr

/-- The intake beside its registers: SRC in effect; the RTP sequence number expected; units partly received and complete; the DMA byte
stream, descriptor in flight (address, length, FLAGS) and whether it scans for a header; arrivals counted; the sequence in effect and a
new one; whether the stream is refused; frames; the pictures queued; tracks with a corrupt picture; the residual set in effect and the
last good one; key bindings (from frame, index, KID) and key slots; the reference of R227; frames out of the window in a row; whether the
next RAP frame is a new reference; concealment events noted and entries written (frame, kind); FRAME_SEQ of the last frame committed; the
DisplayPort timing
(width, height, bits, rate, encoding, transfer); how the frame last begun fares (0 new, 1 lost, 2 none due, 3 held); the RAW instant of
the last new frame and of the R53 event; whether stand-alone play has begun; whether the DMA ring waits for room
(R207); whether the frame shown is of profile S; FRAME_SEQ of frames discarded lately, and of frames whose deadline passed lately; units
received whole lately (frame, unit; R204) and the bytes they take in the buffer (frame, bytes; R205). -/
structure IntakeState where
  src : Nat
  rtpSeq : Option Nat
  parts : List PartUnit
  ready : List VssUnit
  stream : List Byte
  dma : Option (Nat × Nat × Nat)
  scan : Bool
  arrivals : Nat
  cur : Option SeqHdr
  next : Option SeqHdr
  refused : Bool
  frames : List FrameSt
  jobs : List DecJob
  corrupt : List Nat
  resid : Option ResidSet
  residLast : Option ResidSet
  binds : List (Nat × Nat × List Byte)
  keys : List KeySlot
  ref : Option Int
  outRun : Nat
  rebase : Bool
  notes : List Note
  told : List (Nat × Nat)
  shown : Option Nat
  dpTiming : Option (List Nat)
  outcome : Nat
  dpSeq : Nat
  dpSource : Bool
  lastNew : Nat
  mark : Option Nat
  standalone : Bool
  stall : Bool
  still : Bool
  gone : List Nat
  closed : List Nat
  whole : List (Nat × Nat)
  kept : List (Nat × Nat)
  deriving DecidableEq, Repr

/-! ### Lossless codec -/

/-- A codec job an engine runs (R244, R254): engine, class, ring index, descriptor (64 bytes), its address; for a job of the module's own,
that job. -/
structure LzcJob where
  engine : Nat
  cls : Nat
  index : Nat
  desc : List Byte
  addr : Nat
  inner : Option InnerJob
  deriving DecidableEq, Repr

/-- A stream context (R242, R249): its address, OP, FORMAT; LEVEL, WLOG and REQ_CHECK of the job that began it; the source bytes taken so far
as runs, each with the flush that ended it; the content size a Zstandard frame states (R238); the output bytes delivered so far; the flush
whose output a full destination cut off (0 none). -/
structure LzcCtx where
  addr : Nat
  op : Nat
  format : Nat
  level : Nat
  wlog : Nat
  req : Bool
  runs : List (List Byte × Nat)
  size : Option Nat
  given : Nat
  flushing : Nat
  deriving DecidableEq, Repr

/-- The codec beside its registers: jobs running, valid contexts, for each engine its starts of classes 1 to 3 one after the other while a job
of class 4 or 5 waited, the ring indices passed over because a job of the same context ran (R244), and the module's own jobs that wait, oldest
first (R254). -/
structure LzcState where
  jobs : List LzcJob
  ctxs : List LzcCtx
  run : List Nat
  skipped : List Nat
  queue : List InnerJob
  deriving DecidableEq, Repr

/-! ### Blitter -/

/-- A blitter command in flight (R303): ring index (0 for a cue), descriptor address, FLAGS, pixels written, bytes per pixel of the
destination; for a cue its frame, overlay, and whether it is drawn into BACK. -/
structure BltCmd where
  index : Nat
  addr : Nat
  flags : Nat
  pixels : Nat
  bpp : Nat
  cue : Option (Nat × Nat × Bool)
  deriving DecidableEq, Repr

/-- A rectangle of a surface, in pixels. -/
structure Box where
  x : Nat
  y : Nat
  w : Nat
  h : Nat
  deriving DecidableEq, Repr

/-- Rectangles of an overlay (R278): those drawn into FRONT that BACK does not hold, and those drawn into BACK that FRONT does not; at
most 17 are listed, and more than 16 stand for the whole surface. -/
structure Drawn where
  ovly : Nat
  front : List Box
  back : List Box
  deriving DecidableEq, Repr

/-- The blitter beside its registers: the command in flight; the watermarks that have fired since the command at TAIL reached it; overlay
cues waiting; rectangles drawn, by overlay; cue draws into BACK that are done (frame, overlay, the RAW instant); what cues bring (frame,
overlay, action: 0 hide, 1 show, 3 exchange, 4 an exchange that slipped). -/
structure BltState where
  cmd : Option BltCmd
  fired : List Nat
  cues : List OvlyCue
  drawn : List Drawn
  doneBack : List (Nat × Nat × Nat)
  actions : List (Nat × Nat × Nat)
  deriving DecidableEq, Repr

/-! ### Pair link -/

/-- A sequenced packet sent and not yet acknowledged (R444). -/
structure Sent where
  seq : Nat
  msg : PairMsg
  deriving DecidableEq, Repr

/-- A takeover claimed and not yet on the panel (R455): cause (PAIR_LAST.CAUSE), notice cause, fitness at the trigger, the
earliest launch instant, the subframe a handover names. -/
structure Claim where
  cause : Nat
  failCause : Nat
  fit : Nat
  notBefore : Nat
  targetSf : Option Nat
  deriving DecidableEq, Repr

/-- Band signatures of one subframe with their excuse flags (R460) and, by band, the tiles that emitted its rays (R459; this module's
own only). -/
structure SigSet where
  sf : Nat
  sigs : List Nat
  excused : List Bool
  tiles : List (List Nat)
  deriving DecidableEq, Repr

/-- The pair link beside its registers: sequence numbers, unacknowledged packets and resend rounds (R444); cause of the last notice
sent; whether the partner reported a panel fault (R379); the partner's state; a claim not yet on the panel; the subframe a handover
names; signatures of this module and of the partner; runs of mismatching and of matching subframes; tiles and bands a divergence
test is due on and its results (tested, failed); a snapshot received, and one owed; a delta received, and whether the whole state
is owed; blocks of registered buffers written since the last commit; frames in step since the snapshot. -/
structure PairState where
  txSeq : Nat
  unacked : List Sent
  resends : Nat
  rxSeq : Nat
  lastCause : Nat
  panelFault : Bool
  peerState : Nat
  claim : Option Claim
  handover : Option Nat
  own : List SigSet
  peer : List SigSet
  mismatchRun : Nat
  matchRun : Nat
  mapped : List Nat
  divBands : Nat
  testPending : Bool
  ownKat : Option (List Nat × List Nat)
  peerKat : Option (List Nat × List Nat)
  snapshot : Option SnapshotMsg
  snapshotDue : Bool
  delta : Option DeltaMsg
  wholeDue : Bool
  written : List Nat
  stepFrames : Nat
  deriving DecidableEq, Repr

/-! ### Panel sequencer -/

/-- A rectangle in flight: the rectangle, the subframes still to write, whether this is its first subframe, its band. -/
structure Flight where
  rect : Rect
  left : Nat
  first : Bool
  band : Nat
  deriving DecidableEq, Repr

/-- The verified panel descriptor, what Table 11.1 gives beside the tables that live in registers. -/
structure PanelDesc where
  serial : Nat
  width : Nat
  height : Nat
  lensCap : Nat
  maxGen : Nat
  sensors : Nat
  settle : Nat
  lineMin : Nat
  vblankMin : Nat
  peak : Nat
  black : Nat
  primaries : List Nat
  response : List Nat
  deriving DecidableEq, Repr

/-- The running window of a VCOM region (R353): sum of errors, reports, subframes; whether VREF_EXT was out of range in it (R591);
whether its last window's mean error lay within THRESH (R355). -/
structure VcomWin where
  sum : Int
  count : Nat
  subframes : Nat
  taint : Bool
  settled : Bool
  deriving DecidableEq, Repr

/-- A row band in its buffer (R193): sequence number of its subframe, band, whether it is excused from comparison (R460), the values
(row, subpixel column, 12 bits), its signatures in the top and the bottom half (R459), the tiles that emitted its rays. -/
structure BandBuf where
  sf : Nat
  band : Nat
  excused : Bool
  vals : List (Nat × Nat × Nat)
  sigs : List Nat
  tiles : List Nat
  deriving DecidableEq, Repr

/-- A lens slot (R330, R331, R338): mode word, lens band, phase, and whether steering is off in its cycle. -/
structure LensSlot where
  mode : Nat
  band : Nat
  phase : Nat
  off : Bool
  deriving DecidableEq, Repr

/-- The panel sequencer beside its registers. `grid` is the anchor in effect; `next` the index n of the next grid point (R322);
`rateNum`/`rateDen` the subframe rate and `phases` the phase count in effect; `earliest` the instant E of R325; whether a subframe is
being sent; whether launches have ended (R357); its phase; bands of it already sent; a full write due; subframes since the last full
one; whether hold symbols last until READY (R299); the lens step; the band of the band temperature; subframes without a reading;
rectangles queued and in flight; whether the rest of a STILL subframe is written in full (R348); the history by subpixel index; rows whose polarity is inverted; CRC of each STILL update tile; whether maps and history
serve; the maps; VCOM windows; modes and an anchor to be taken at the next frame launch (R324); a start from the launch queue; row
bands in their buffers; the band signatures of the subframe being sent; a black subframe due (R558); the lens slot of the subframe in
flight and of the one before; the pattern in effect and its level; whether VREF_EXT is out of range (R591); samples of the panel's
sensors, newest first (raw code, reading), and which are broken (R555). -/
structure PseqState where
  desc : Option PanelDesc
  grid : Int
  next : Nat
  rateNum : Nat
  rateDen : Nat
  phases : Nat
  earliest : Int
  inFlight : Bool
  noLaunch : Bool
  phase : Nat
  sentBands : Nat
  fullDue : Bool
  held : Nat
  waitReady : Bool
  lensStep : Nat
  band : Nat
  noReading : Nat
  queued : List Rect
  flights : List Flight
  stillFull : Bool
  hist : List (Nat × Nat)
  pol : List Nat
  tileCrc : List (Nat × Nat)
  histReady : Bool
  maps : Option (UnifMap × UnifMap)
  vcom : List VcomWin
  modes : Option Nat
  anchor : Option Nat
  start : Option Nat
  bands : List BandBuf
  sigs : SigSet
  black : Bool
  slot : LensSlot
  slotOld : List (Int × Int)
  pat : Nat
  patLevel : Nat
  vrefBad : Bool
  sensors : List (List (Nat × Int))
  broken : Nat
  deriving DecidableEq, Repr

/-! ### Lanes -/

/-- The lanes beside their registers: PRBS injection rates by lane, single errors waiting to be sent by lane (R405), whether the fallback
pattern of R609 is shown, groups that TEST_EXIT disabled, and the PRBS checkers that run. -/
structure LaneState where
  rate : List (Nat × Nat)
  one : List Nat
  fallbackPattern : Bool
  parked : List Nat
  prbs : List PrbsRun
  deriving DecidableEq, Repr

/-! ### Memory controllers -/

/-- Activations of one row in the current window (R421): channel, bank, row, count, activations by requester. -/
structure RowCount where
  ch : Nat
  bank : Nat
  row : Nat
  count : Nat
  by_ : List (Nat × Nat)
  deriving DecidableEq, Repr

/-- The controllers beside their registers: initialisation ended; self-refresh held; requests ready
and not yet served; row counts; throttled (requester, channel, bank, RAW of
its last activation); delays of the two byte lanes of each channel (read 0, write 0, read 1, write 1), and those stored for the other rates
(R426); a frequency request accepted and one held;
open rows (channel, bank, row); the last answer to a read (its bytes, and whether they are poisoned); a freeze
waiting for CORE, and the entry the last freeze wrote. -/
structure MemState where
  ready : Bool
  selfRefresh : Bool
  queue : List MemReq
  rows : List RowCount
  throttled : List (Nat × Nat × Nat × Nat)
  delays : List (Nat × List Int)
  stored : List (Nat × List (Nat × List Int))
  freqNext : Option Nat
  freqHeld : Option Nat
  open_ : List (Nat × Nat × Nat)
  lastRead : List Byte
  lastPoison : Bool
  freezeDue : Option Nat
  freezeId : Option Nat
  deriving DecidableEq, Repr

/-! ### Time unit, PTP, array ports -/

/-- A refused step held pending (R481): its size in 2^-16 ns and the source that measured it (Table 16.2). -/
structure PendStep where
  step : Int
  src : Nat
  deriving DecidableEq, Repr

/-- The PTP protocol engine (R476): chosen master; its last Announce; the stamps of the exchange in progress; state of the best
master clock algorithm, one entry per master heard (identity, priority1, class, accuracy, variance, priority2, steps removed). -/
structure PtpState where
  master : Option Nat
  masters : List (Nat × List Nat)
  t1 : Option Nat
  t2 : Option Nat
  t3 : Option Nat
  syncSeq : Option Nat
  delaySeq : Nat
  pathDelay : Int
  deriving DecidableEq, Repr

/-- The time unit beside its registers: RAW; BASE in 2^-16 ns and RAW_BASE (R471); the source's own RATE without a slew; the
slew added to it; the pending step; whether the next correction is a first one (R475); the source before holdover; the run of
measurements within the threshold (R474); the launch queue, ascending; the last PPS_IN edge on RAW. -/
structure TimeState where
  raw : Nat
  base : Int
  rawBase : Nat
  rate : Int
  slew : Int
  pend : Option PendStep
  first : Bool
  lastSrc : Nat
  run : Nat
  launches : List Nat
  ppsInLast : Option Nat
  syncId : Nat
  exchange : Option (Nat × Nat)
  ptp : PtpState
  deriving DecidableEq, Repr

/-- An array port beside its registers: sequence numbers, unacknowledged packets and resend rounds (R444, R469); the number of the last SYNC,
and number and stamp t1 of the one in flight; the neighbour's STEP_PEND, grandmaster and source; the serial its HELLO carried. -/
structure PortState where
  txSeq : Nat
  rxSeq : Nat
  unacked : List (Nat × ArrayMsg)
  resends : Nat
  syncId : Nat
  syncAt : Option (Nat × Nat)
  stepPend : Bool
  nbrSource : Nat
  gm : Nat
  serial : Nat
  deriving DecidableEq, Repr

/-- The four array ports, N, E, S, W, and what the last STATUS said: source, LOCKED, HOPS, grandmaster. -/
structure ArrayState where
  north : PortState
  east : PortState
  south : PortState
  west : PortState
  status : Nat × Bool × Nat × Nat
  deriving DecidableEq, Repr

/-! ### Ports -/

/-- A picture of the preview head (R505): width, height, words in XRGB2101010. -/
structure PrevPic where
  w : Nat
  h : Nat
  words : List Nat
  deriving DecidableEq, Repr

/-- The ports beside their registers: MSI-X Enable and Function Mask of the capability (R91); Ethernet cages that retrain (R497); IPv4
addresses acquired by port, and the IPv6 prefixes of 64 bits advertised to a port (R499); points of the capture running (point column, point row, channel, 10-bit value) and whether its last
band is in (R505); a capture complete and not yet shown; the two capture buffers; the monitor's highest
rate, its lanes and whether it accepts 10 bits (R509); the RAW instant at which the preview frame being sent began. -/
structure HostState where
  msixEnable : Bool
  functionMask : Bool
  cages : List Nat
  ip : List (Nat × Nat)
  prefixes : List (Nat × Nat)
  cap : List (Nat × Nat × Nat × Nat)
  capDone : Bool
  prevNew : Option Nat
  prev0 : PrevPic
  prev1 : PrevPic
  sink : Option (Nat × Nat × Bool)
  frameAt : Nat
  deriving DecidableEq, Repr

/-! ### Security -/

/-- Security beside its registers: BASE_SVN of the running firmware (R538); the pending challenge (NONCE, RAW instant of issue; R546);
the commits being programmed, oldest first (whether PERS, the value; R538); digest of the panel descriptor (R541); the sealed blobs accepted, by key slot
(R545); whether debug was unlocked since POR, and whether it was when the keys were derived (R540, R541); whether the boot ROM has locked the UDS (R530). -/
structure SecState where
  baseSvn : Nat
  challenge : Option (List Byte × Nat)
  commit : List (Bool × Nat)
  descDigest : List Byte
  blobs : List (Nat × List Byte)
  debugSeen : Bool
  aliasDebug : Bool
  udsLocked : Bool
  deriving DecidableEq, Repr

/-! ### Personalities and the fabric -/

/-- A pending activation (R116, R117): slot; instant of an at-time request; earliest instant after its preload; in a pair, the
subframe both modules switch at (R447). -/
structure PendAct where
  slot : Nat
  at_ : Option Nat
  notBefore : Nat
  targetSf : Option Nat
  deriving DecidableEq, Repr

/-- The personality engine beside its registers: SHA-384 digests recorded at load by slot (R110); slots whose LOAD waits, oldest
first; the load in progress (slot, source,
length, whether it passed the region check); the pending activation; the active and staged placements, function to tile
(R114); for each retired tile the spare that took its work (R114); whether the preload of CORE exit runs, and the slot that becomes
active again before the first frame after it (R129). The files
themselves lie in the slot memory of module DRAM. -/
structure PersState where
  digest : List (Nat × List Byte)
  waiting : List Nat
  loading : Option (Nat × Nat × Nat × Bool)
  pend : Option PendAct
  act : List (Nat × Nat)
  stg : List (Nat × Nat)
  moved : List (Nat × Nat)
  coreExit : Bool
  reload : Option Nat
  deriving DecidableEq, Repr

/-- A route port (R136): an output port, the tile or endpoint it leads to (0xFF00 + p a fetch port, 0xFFF0 the output stage), the input
port there, the virtual channel. -/
structure RoutePort where
  out : Nat
  dst : Nat
  inp : Nat
  vc : Nat
  deriving DecidableEq, Repr

/-- A configuration plane that is not idle (R113, Table 5.1): the slot it was written from, its function and class; its frame (CONFIG words,
program, local-memory initialisers as START, COUNT, FILL), its dispatch table, its route ports, and the input ports routes lead to. -/
structure Plane where
  slot : Nat
  func : Nat
  cls : Nat
  config : List Nat
  prog : List Nat
  init : List (Nat × Nat × Nat)
  table : List Nat
  outs : List RoutePort
  ins : List Nat
  deriving DecidableEq, Repr

/-- A flit on the mesh (R136): the tile that sent it, or 400 + p for fetch port p; the tile and the port it goes to; the token; the routers
on its way. -/
structure Flit where
  src : Nat
  dst : Nat
  port : Nat
  tok : Token
  path : List Nat
  deriving DecidableEq, Repr

/-- What stands in a fetch port (R132, R133, R140): a request with the tile that issued it, or a boundary token the port sends once it has
answered what stands before it (tag, payload, subframe sequence number). -/
inductive FetchItem where
  | request (tile : Nat) (tok : Token)
  | mark (tag payload sf : Nat)
  deriving DecidableEq, Repr

/-- A fetch port (R132): its route ports, those of the standby placement, what it holds in order, tokens that wait for room, whether a swap
is owed, the subframe whose boundary token it sent last. -/
structure FetchPt where
  outs : List RoutePort
  next : List RoutePort
  queue : List FetchItem
  outq : List (RoutePort × Token)
  swapDue : Bool
  seen : Option Nat
  deriving DecidableEq, Repr

/-- A busy thread: program counter, 32 registers, whether a poisoned token started it, the lanes it waits for. -/
structure Thread where
  pc : Nat
  regs : List Nat
  poison : Bool
  waits : Nat
  deriving DecidableEq, Repr

/-- A plane-sample issued to a lane and not complete (R147 SAMPLE): the thread, the descriptor and the coordinates. -/
structure LaneJob where
  thread : Nat
  desc : Nat
  coord : Nat
  deriving DecidableEq, Repr

/-- The ray a thread works on (R183, R185): accumulated colour and alpha in 20 bits, ordinary budget left, samples spent, cut by the
budget. -/
structure RayAcc where
  c : Nat
  a : Nat
  left : Nat
  spent : Nat
  cut : Bool
  deriving DecidableEq, Repr

/-- A ray tile beside its registers: its two planes; subframe tokens that have come and are not yet passed on (port, payload), oldest
first; ports that wait for a drain marker, each with the spare whose tokens are held there (R159), and those tokens; input buffers by
port, oldest first (a boundary token stays at the head of its port until the tile passes it on); forwards held for want of room (port,
output port, token); boundary tokens and markers that wait for room at an output port; busy threads; lane jobs by lane; rays by thread;
local memory; the texel cache, by line of module DRAM, oldest first; penalties charged since the last boundary (P itself is
HEALTH.PENALTY); stretched cycles short of 1,024; the frequency its generator is set to in MHz (R149); the subframe whose boundary it passed
on last; rays begun and samples spent in the row band (R19); an uncorrectable error; a swap owed; a known-answer test asked for; SPARES_OUT
already raised for the score; whether an injected event stands in P (R169); the budget an overrun lowered it to (R26). -/
structure TileRt where
  active : Option Plane
  standby : Option Plane
  subSeen : List (Nat × Nat)
  drainWait : List (Nat × Nat)
  spareHeld : List (Nat × Token)
  buf : List (Nat × Token)
  fwd : List (Nat × Nat × Token)
  outq : List (RoutePort × Token)
  threads : List (Nat × Thread)
  jobs : List (Nat × LaneJob)
  rays : List (Nat × RayAcc)
  lmem : List (Nat × Byte)
  cache : List Nat
  charged : Nat
  stretch : Nat
  freq : Nat
  seen : Option Nat
  begun : Nat
  used : Nat
  dead : Bool
  swapDue : Bool
  katDue : Bool
  below : Bool
  injected : Bool
  lowered : Option Nat
  deriving DecidableEq, Repr

/-- Where a migration stands (R158): deferred behind a preload (R125); merged into an activation (R127); step 1, 2 or 3. -/
inductive MigStep where
  | deferred | merged | copy | redirect | drain
  deriving DecidableEq, Repr

/-- A migration: failing tile, spare, cause (FAB_MIG_LAST.CAUSE), step, the RAW instant it started at, the entry that caused it, whether
an injected event did (R169); whether a merged one's writes are done (R127); of the redirect the subframe whose boundary it took, and
whether that boundary has come at every input of the failing tile (R158). -/
structure Mig where
  tile : Nat
  spare : Nat
  cause : Nat
  step : MigStep
  start : Nat
  entry : Option Nat
  injected : Bool
  copied : Bool
  sf : Nat
  closed : Bool
  deriving DecidableEq, Repr

/-- Corrections of one block and kind since the last summary (R582): SRC, kind (Table 21.2), injected, count, first place. -/
structure Corr where
  src : Nat
  kind : Nat
  injected : Bool
  count : Nat
  first : Nat
  deriving DecidableEq, Repr

/-- The fabric beside its registers: tiles by number (an unlisted tile is idle and empty); flits on the mesh in the order they were sent
(R136); fetch ports by number (R132); ray tokens that the row-band buffers have taken for the band being rendered, with the tile that sent
each (R137); migrations in progress; staged partial frames to write after a redirect (failed tile, spare; R126); corrections since the last
summary (R582). -/
structure FabState where
  tiles : List (Nat × TileRt)
  mesh : List Flit
  fetch : List (Nat × FetchPt)
  rayOut : List (Nat × Token)
  migs : List Mig
  stagedDue : List (Nat × Nat)
  corr : List Corr
  deriving DecidableEq, Repr

/-! ### Mailboxes -/

/-- The caretaker firmware beside its registers: the sequence number of the next notice; notices queued behind a FULL mailbox 8,
oldest first (R523); by inbound mailbox the SEQ bit last accepted and the code last returned (R519); the command word it runs; its
arguments. -/
structure CareState where
  noticeSeq : Nat
  notices : List Nat
  inbound : List (Nat × Nat × Nat)
  running : Option Nat
  args : List Nat
  deriving DecidableEq, Repr

/-- OTP contents and the HSS flash index (R530, R537, R543): owner public keys by slot, ENROLLED and CLOSED bits, the rows
of the two counters, oldest first (none: incomplete), the burned anchor bits, the next index in flash; the MAC address of Ethernet port 0 (R498,
R603). -/
structure OtpState where
  ownerKeys : List (Nat × List Byte)
  enrolled : Nat
  closed : Nat
  fwRows : List (Option Nat)
  persRows : List (Option Nat)
  hssAnchor : Nat
  hssFlash : Nat
  mac : Nat
  deriving DecidableEq, Repr

/-! ### Heat, power and calibration -/

/-- One calibration subject beside its registers (Table 20.4): running since which RAW instant, wanted, run of steps made, the RAW
instant of its last run. -/
structure CalRun where
  since : Option Nat
  lastAt : Option Nat
  steps : Nat
  deriving DecidableEq, Repr

/-- Thermal control beside its registers: the throttle level in effect; by sensor its last 4,096 samples, newest first, each the raw
code and the reading (R553); RAW instants since every sensor has stayed more than 10 °C from its thresholds, and since every zone
has stayed below START (R552, R560); the orderly shutdown's step (R558: 0 none, 1 a handover awaited, 2 the panel, 3 the record, 4
done); a restart allowed; the four calibration subjects; CALIBRATE subjects not yet ended and, from bit 4, those completed; zone readings
at the last run of subject 3. -/
structure ThmState where
  level : Nat
  hist : List (List (Nat × Int))
  calmSince : Option Nat
  coolSince : Option Nat
  step : Nat
  allowed : Bool
  cal : List CalRun
  calCmd : Nat
  calZones : List Int
  deriving DecidableEq, Repr

/-! ### The compositor -/

/-- A caldera descriptor (Table 9.1); its index gives PLANE. -/
structure Desc where
  valid : Bool
  addr : Nat
  sig : Nat
  sinterRef : Nat
  unchanged : Nat
  fmt : Nat
  static : Bool
  hint : Bool
  ovly : Nat
  releaseSeq : Nat
  deriving DecidableEq, Repr

/-- A tile written for a frame to come (R217, R261): FRAME_SEQ, caldera index, fresh address; the colour and the alpha written, each with
its place in the order of R217 (unit order, then table order), and the STATIC_HINT of the last region. -/
structure Written where
  frame : Nat
  idx : Nat
  addr : Nat
  colour : Option (Nat × List Nat)
  alpha : Option (Nat × List Nat)
  hint : Option (Nat × Bool)
  deriving DecidableEq, Repr

/-- A flattened group (R269 to R275): its number, region, entries k0 to k1, whether rearmost; whether it is flattened (else the
flattening runs), usable, changed meanwhile; its compressed bytes, pool tiles of its expansion (tile, address), its depth. -/
structure SinterGroup where
  ref : Nat
  region : Nat
  k0 : Nat
  k1 : Nat
  rear : Bool
  flattened : Bool
  usable : Bool
  stale : Bool
  size : Nat
  expansion : List (Nat × Nat)
  z : Int
  deriving DecidableEq, Repr

/-- A write the use guard holds, or an access that waits behind it (R281, R282): bytes into a buffer; a BAR0 access (offset, width in bytes,
the data of a write); a BAR2 access (offset, length, the bytes of a write, and what it meets in DRAM). -/
inductive HeldItem where
  | bytes (addr : Nat) (data : List Byte)
  | reg (off width : Nat) (data : Option Nat)
  | bar2 (base : Option Nat) (off len : Nat) (data : Option (List Byte)) (ecc : EccOutcome)
  deriving DecidableEq, Repr

/-- A held item, the RAW instant it arrived, and whether the guard has examined it and held it. -/
structure HeldWrite where
  item : HeldItem
  since : Nat
  met : Bool
  deriving DecidableEq, Repr

/-- The compositor beside its registers: the caldera table; tiles written for frames to come; surface blocks touched (buffer, column, row);
pool tiles in use; pool tiles to return once a sequence number is done; groups; held writes of the host and of the blitter, oldest
first; consecutive mismatches and LEARN flags of the 16 regions; values collected for the region signatures (region, row, column,
value); a substitution decided (RAW instant, region), FORCE and RELEASE waiting for a commit; buffers flagged since the last commit;
transfer, luminances of HDR_STATIC and TONE hints in effect; overlays whose FRONT changed; regions checked in the frame being rendered (R293); overlays an unfinished cue will unlink;
the RAW instant of CORE exit while READY is awaited. -/
structure CompState where
  caldera : List (Nat × Desc)
  wrote : List Written
  touched : List (Nat × Nat × Nat)
  used : List Nat
  releases : List (Nat × Nat)
  groups : List SinterGroup
  nextRef : Nat
  heldHost : List HeldWrite
  heldBlt : List HeldWrite
  sigRun : List Nat
  learn : Nat
  sigVals : List (Nat × Nat × Nat × Nat)
  safeDue : Option (Nat × Nat)
  safeForce : Bool
  safeRelease : Bool
  flagged : List Nat
  transfer : Nat
  hdr : List Nat
  tone : Option (List Nat)
  fronts : List Nat
  checked : List Nat
  coreExit : Option Nat
  deriving DecidableEq, Repr

/-! ### Non-volatile memory -/

/-- Module flash and OTP: the module serial; crack baselines with the panel serial they were learnt on (R376); the two save
areas (R577); the two uniformity maps (R341); the stored region table, as (BASE, LIMIT, ATTR) (R424). -/
structure NvState where
  serial : Nat
  crack : Option (Nat × Nat × Nat)
  saveA : Option SaveArea
  saveB : Option SaveArea
  maps : Option (UnifMap × UnifMap)
  regions : List (Nat × Nat × Nat)
  deriving DecidableEq, Repr

/-! ### What leaves the module -/

/-- The caretaker's answer to a message of its protocols (Table 17.4): an ARP reply for an address, an echo reply, a neighbour advertisement for
an address, a report of the groups joined (the intake's, as words; whether the PTP groups of IEEE 1588 too). -/
inductive CareReply where
  | arp (addr : Nat)
  | echo (v6 : Bool)
  | neighbour (addr : List Nat)
  | groups (v6 : Bool) (intake : List Nat) (ptp : Bool)
  deriving DecidableEq, Repr

/-- Things the module sends or drives, in the order they happen. -/
inductive Emit where
  /-- An MSI-X message (R90): vector, address, data. -/
  | msix (vector : Nat) (addr : Nat) (data : Word)
  /-- A packet on the pair link (Table 15.2): SEQ (0 for unsequenced types) and content. -/
  | pairPkt (seq : Nat) (m : PairMsg)
  /-- A HELLO on an array port (R468): X, Y, VALID, letter, serial. -/
  | arrayHello (port x y : Nat) (valid : Bool) (letter serial : Nat)
  /-- A STATUS on an array port: source, LOCKED, HOPS, grandmaster. -/
  | arrayStatus (port source : Nat) (locked : Bool) (hops gm : Nat)
  /-- A TIME packet on an array port. -/
  | arrayTime (port : Nat) (k : TimeKind) (i : TimeInfo)
  /-- An acknowledgement on an array port. -/
  | arrayAck (port seq : Nat)
  /-- A PTP Delay_Req. -/
  | ptpDelayReq (seq : Nat)
  /-- Control blocks on every panel (and lens) group in use: hold symbols, a start of subframe, a drive claim. -/
  | hold
  | sof (sf : Nat) (full : Bool) (phase : Nat)
  | claim
  /-- One row of drive codes of a subframe: row, first subpixel column and code pairs, polarity. -/
  | drive (row : Nat) (codes : List (Nat × Nat)) (polarity : Bool)
  /-- One lens step: segment (half, index), codes on X and Y. -/
  | lens (half seg : Nat) (x y : Int)
  /-- PPS_OUT rises for so many milliseconds. -/
  | pps (widthMs : Nat)
  /-- A power-state or test action on a lane group: WAKE blocks sent. -/
  | wake (group : Nat)
  /-- In EXCHANGE, the highest generation on offer (R393): group, generation. -/
  | offer (group gen : Nat)
  /-- A texel fetch, a texture read: module DRAM address and length. -/
  | fetch (addr len : Nat)
  /-- A token on an output port without a route: tile, port, tag, virtual channel, POISON, payload (log entry 88). -/
  | token (tile port : Nat) (words : List Nat)
  /-- The boundary token of the intake (R119, R140): tag, payload. -/
  | intakeToken (tag payload : Nat)
  /-- A write to host memory over PCI Express (write-backs and completion words): bus address, bytes. -/
  | hostWrite (addr : Nat) (bytes : List Byte)
  /-- A picture the preview head sends (R507, R508): its format code (4: an 8-bit narrowing of format 3), first column and line, width,
  pixel words. -/
  | preview (fmt col line w : Nat) (pixels : List Nat)
  /-- An Ethernet frame of the caretaker's own protocols, tagged with the port's VLAN. -/
  | frame (port vlan : Nat) (m : CareReply)
  deriving DecidableEq, Repr

/-! ### The state -/

/-- The state of the module. -/
@[ext]
structure State where
  /-- The BAR0 register file (R8): every register bit in effect, by offset; an unlisted offset reads as its reset value (R9). LO and HI halves of a pair are two words. -/
  regs : List (Nat × Word)
  /-- The staged values of RWS fields (R10), by offset; an unlisted offset reads as its reset value. -/
  staged : List (Nat × Word)
  /-- The reset controller. -/
  rst : RstState
  /-- Shadows, holding registers and the last bus response. -/
  bus : BusState
  /-- Pending update strobes, at most one per group (R85). -/
  strobes : List Strobe
  /-- Output pins. -/
  pins : PinState
  /-- The tephra recorder. -/
  teph : TephState
  /-- What survives without power: module flash and OTP. -/
  nv : NvState
  /-- The rail block. -/
  rail : RailState
  /-- The pair link. -/
  pair : PairState
  /-- The panel sequencer. -/
  pseq : PseqState
  /-- The serial lanes. -/
  lane : LaneState
  /-- The memory controllers. -/
  mem : MemState
  /-- The personality engine. -/
  pers : PersState
  /-- The ray fabric. -/
  fab : FabState
  /-- The caretaker firmware. -/
  care : CareState
  /-- One-time-programmable memory and the HSS index. -/
  otp : OtpState
  /-- Thermal control and calibration. -/
  thm : ThmState
  /-- The compositor. -/
  comp : CompState
  /-- View synthesis. -/
  view : ViewState
  /-- The intake and the texture decoders. -/
  intk : IntakeState
  /-- The lossless codec. -/
  lzc : LzcState
  /-- The overlay blitter. -/
  blt : BltState
  /-- Module DRAM (Table 14.3), by byte address; an unlisted byte reads 0 (R424). -/
  dram : List Host.Cell
  /-- The time unit. -/
  time : TimeState
  /-- The array ports. -/
  array : ArrayState
  /-- The PCI Express, Ethernet and preview ports. -/
  host : HostState
  /-- Security. -/
  sec : SecState
  /-- The model's own: which free value is taken next (log entry 1). -/
  freeCtr : Nat
  /-- The model's own: what the module has sent since the last idle step, newest first (log entry 4). -/
  out : List Emit
  /-- The lanes that have sent blocks (R385, R387). -/
  wires : List (Nat × TxLane)
  /-- The commands waiting, first in, first out. -/
  pending : List Instr
  deriving DecidableEq, Repr

/-- The machine right after power-on reset has been asserted (R31): every register at its reset value, everything else empty, POR
holding the module. -/
def State.reset : State where
  regs := []
  staged := []
  rst := ⟨.por, false, false, false, false, false, false, false, false, false, 0, false, false, false, false, false, 0, false, [], [], none⟩
  bus := ⟨none, none, none, none, none, none, .none⟩
  strobes := []
  pins := ⟨false, false, false, false, false, false, false⟩
  teph := ⟨[], [], [], [], none, none, 0, 0, 0, none, none, none⟩
  nv := ⟨0, none, none, none, none, []⟩
  rail := ⟨.idle, false, false, false, false, [], [], false, false, false, false, none, false, 0, 0⟩
  pair := ⟨0, [], 0, 0, 0, false, 0, none, none, [], [], 0, 0, [], 0, false, none, none, none, false, none, false, [], 0⟩
  pseq := ⟨none, 0, 0, 60, 1, 1, 0, false, false, 0, 0, true, 0, false, 0, 0, 0, [], [], false, [], [], [], false, none, [], none, none, none, [], ⟨0, [], [], []⟩, false, ⟨0x132, 0, 0, false⟩, [], 1, 2048, false, [], 0⟩
  lane := ⟨[], [], false, [], []⟩
  mem := ⟨false, false, [], [], [], [], [], none, none, [], [], false, none, none⟩
  pers := ⟨[], [], none, none, [], [], [], false, none⟩
  fab := ⟨[], [], [], [], [], [], []⟩
  care := ⟨0, [], [], none, []⟩
  otp := ⟨[], 0, 0, [some 0], [some 0], 0, 0, 0⟩
  thm := ⟨0, [], none, none, 0, false, [⟨none, none, 0⟩, ⟨none, none, 0⟩, ⟨none, none, 0⟩, ⟨none, none, 0⟩], 0, []⟩
  comp := ⟨[], [], [], [], [], [], 0, [], [], List.replicate 16 0, 0, [], none, false, false, [], 0, [0, 0], none, [], [], none⟩
  view := ⟨0x132, none, none, 0x63, 0, false, 0, none⟩
  intk := ⟨3, none, [], [], [], none, false, 0, none, none, false, [], [], [], none, none, [], [], none, 0, false, [], [], none, none, 2, 0, false, 0, none, false, false, false, [], [], [], []⟩
  lzc := ⟨[], [], [0, 0], [], []⟩
  blt := ⟨none, [], [], [], [], []⟩
  dram := []
  time := ⟨0, 0, 0, 0, 0, none, true, 0, 0, [], none, 0, none, ⟨none, [], none, none, none, none, 0, 0⟩⟩
  array := ⟨⟨0, 0, [], 0, 0, none, false, 0, 0, 0⟩, ⟨0, 0, [], 0, 0, none, false, 0, 0, 0⟩, ⟨0, 0, [], 0, 0, none, false, 0, 0, 0⟩,
    ⟨0, 0, [], 0, 0, none, false, 0, 0, 0⟩, (0, false, 63, 0)⟩
  host := ⟨false, false, [], [], [], [], false, none, ⟨0, 0, []⟩, ⟨0, 0, []⟩, none, 0⟩
  sec := ⟨0, none, [], [], [], false, false, false⟩
  freeCtr := 0
  out := []
  wires := []
  pending := []

end Sys2Proof.Machine
end

