-- ==== Sys2Proof/Machine/Coding.lean ====
section
/-!
DEFINITION. The coding of the serial lanes (spec/13, R385, R386): 64b/66b blocks, the scrambler, control
blocks; CRC-32C.
-/

namespace Sys2Proof.Machine

open Sys2Proof

/-! ### Lanes of a group (Table 13.1) -/

/-- The lanes of group `j` that transmit. -/
def txLanes (j : Nat) : List Nat :=
  if j < 16 then [4 * j, 4 * j + 1, 4 * j + 2, 4 * j + 3]
  else if j < 20 then []
  else if j < 22 then [leadLane j, leadLane j + 1]
  else if j = 22 then (List.range 9).map (· + 76)
  else [leadLane j, leadLane j + 1, leadLane j + 2]

/-- The lanes of group `j` that receive. -/
def rxLanes (j : Nat) : List Nat :=
  if j < 16 then []
  else if j < 20 then [leadLane j, leadLane j + 1]
  else if j < 22 then []
  else if j = 22 then (List.range 9).map (· + 85)
  else [leadLane j + 3, leadLane j + 4, leadLane j + 5]

/-- Whether lane `n` carries data (POS is not 0). -/
def isDataLane (n : Nat) : Bool := laneId n / 256 % 16 ≠ 0

/-- The data lanes on which group `j` sends. -/
def sendLanes (j : Nat) : List Nat := (txLanes j).filter isDataLane

/-! ### Blocks (R385, R386) -/

/-- Whether a sync header and, of a control block, its type are ones that R385 and Table 13.3 give. -/
def blockValid (header ty : Nat) : Bool :=
  decide (header = 1) ||
    (decide (header = 2) && [0x1E, 0x2D, 0x33, 0x4B, 0x55, 0x66, 0x78, 0x87, 0x99, 0xB4].contains ty)

/-- `n` bits of `d` through the scrambler, the first in bit 0; bit k of `st` is the bit sent k + 1 bits before. -/
def scrambleGo : Nat → Nat → Nat → Nat × Nat
  | 0, _, st => (0, st)
  | n + 1, d, st =>
    let b := (d % 2 + st / 2 ^ 38 % 2 + st / 2 ^ 57 % 2) % 2
    let r := scrambleGo n (d / 2) ((2 * st + b) % 2 ^ 58)
    (b + 2 * r.1, r.2)

/-- A payload of 64 bits through 1 + x^39 + x^58, and the scrambler after it. -/
def scramble (d st : Nat) : Nat × Nat := scrambleGo 64 d st

/-- `n` bits of `d` through a receiver's descrambler. -/
def descrambleGo : Nat → Nat → Nat → Nat × Nat
  | 0, _, st => (0, st)
  | n + 1, d, st =>
    let b := (d % 2 + st / 2 ^ 38 % 2 + st / 2 ^ 57 % 2) % 2
    let r := descrambleGo n (d / 2) ((2 * st + d % 2) % 2 ^ 58)
    (b + 2 * r.1, r.2)

/-- A payload of 64 bits as a receiver descrambles it. -/
def descramble (d st : Nat) : Nat × Nat := descrambleGo 64 d st

/-- The payload of a control block: its type, then 7 bytes, the first lowest. -/
def ctlPayload (ty : Nat) (bytes : List Nat) : Nat := (ty :: bytes).foldr (fun b n => b % 256 + 256 * n) 0

/-! ### Sending -/

/-- The state of a transmitting lane before anything was sent: DESIGN CHOICE (log entry 95), the spec gives its scrambler no reset value. -/
def txFresh : TxLane := ⟨0, 0, 0, []⟩

/-- The state of a transmitting lane. -/
def State.txLane (s : State) (n : Nat) : TxLane :=
  match s.wires.find? (fun p => p.1 = n) with
  | some p => p.2
  | none => txFresh

/-- Sets the state of a transmitting lane. -/
def State.setTxLane (s : State) (n : Nat) (t : TxLane) : State :=
  { s with wires := (n, t) :: s.wires.filter (fun p => p.1 ≠ n) }

/-- Sends one block on lane `n`, its payload scrambled. -/
def State.sendBlock (s : State) (n header payload : Nat) : State :=
  let t := s.txLane n
  let r := scramble payload t.scr
  s.setTxLane n { t with scr := r.2, sent := (header, r.1) :: t.sent }


/-! ### CRC-32C (R292) -/

/-- One bit of CRC-32C, reflected polynomial 0x82F63B78. -/
def crcBit (c : Nat) : Nat := if c % 2 = 1 then (c / 2) ^^^ 0x82F63B78 else c / 2

/-- One byte of CRC-32C. -/
def crcByte (c : Nat) (b : Nat) : Nat := crcBit (crcBit (crcBit (crcBit (crcBit (crcBit (crcBit (crcBit (c ^^^ b))))))))

/-- CRC-32C of a list of byte values. -/
def crc32c (bs : List Nat) : Nat := (bs.foldl crcByte 0xFFFFFFFF) ^^^ 0xFFFFFFFF

/-- CRC-32C of a list of bytes. -/
def crc32cB (bs : List Byte) : Nat := crc32c (bs.map (·.toNat))

end Sys2Proof.Machine
end

