-- ==== Sys2Proof/Machine/Packet.lean ====
section
/-!
DEFINITION. The packets of the pair link and the array ports (spec/15, R443; spec/16, R469; Tables 15.2, 15.3, 16.1, 16.3): their bytes, and the
data blocks that carry them.
-/

namespace Sys2Proof.Machine

open Sys2Proof

/-! ### Frames (Table 15.2) -/

/-- The most bytes a packet's payload has. -/
def payloadMax : Nat := 4096

/-- A packet: header, payload, CRC-32C, zeros to a multiple of 8 bytes. -/
def frameBytes (ty : Nat) (last : Bool) (seq : Nat) (payload : List Byte) : List Byte :=
  let b := Word.toLe 1 ty ++ Word.toLe 1 (Word.ofBool last) ++ Word.toLe 2 payload.length ++ Word.toLe 4 seq ++ payload
  let c := b ++ Word.toLe 4 (crc32cB b)
  c ++ List.replicate ((8 - c.length % 8) % 8) 0

/-- Whether bytes are a packet as a receiver takes it: its length and its CRC (R444). -/
def frameOk (f : List Byte) : Bool :=
  let n := Word.le ((f.drop 2).take 2)
  decide (n ≤ payloadMax ∧ n + 12 ≤ f.length) && decide (Word.le ((f.drop (n + 8)).take 4) = crc32cB (f.take (n + 8)))

/-- How many packets carry a payload. -/
def partsOf (n : Nat) : Nat := max 1 ((n + payloadMax - 1) / payloadMax)

/-- Sends a packet in data blocks: 8-byte word w on data lane w mod `n` of those from lane `base` on. -/
def State.sendFrame (s : State) (base n : Nat) (f : List Byte) : State :=
  (List.range (f.length / 8)).foldl (fun t w => t.sendBlock (base + w % n) 1 (Word.le ((f.drop (8 * w)).take 8))) s

/-- Sends a message in as many packets as it needs; `seq`: the number of the first, none for an unsequenced type. -/
def State.sendMessage (s : State) (base n ty : Nat) (seq : Option Nat) (payload : List Byte) : State :=
  let k := partsOf payload.length
  (List.range k).foldl (fun t i =>
    let q := match seq with | some q => (q + i) % 2 ^ 32 | none => 0
    t.sendFrame base n (frameBytes ty (decide (i + 1 = k)) q ((payload.drop (payloadMax * i)).take payloadMax))) s

/-! ### The pair link (Table 15.3) -/

/-- NOTICE type numbers of Table 15.3. -/
def noticeCode : Notice → Nat
  | .fail => 1 | .handover => 2 | .panelFault => 3 | .mirrorDown => 4

/-- The 32 bytes of an entry (Table 21.1). -/
def TEntry.bytes (e : TEntry) : List Byte :=
  let flags := Word.ofBool e.injected + 2 * Word.ofBool e.unlocked + 4 * Word.ofBool e.partner
  let b := Word.toLe 8 e.time ++ Word.toLe 4 e.seq ++ Word.toLe 1 e.src ++ Word.toLe 1 (e.sev + 4 * e.rung + 32 * flags) ++
    Word.toLe 2 e.code ++ Word.toLe 4 e.a0 ++ Word.toLe 4 e.a1 ++ Word.toLe 4 e.a2
  b ++ Word.toLe 4 (crc32cB b)

/-- Flags as bytes, the first in bit 0. -/
def bitBytes (n : Nat) (l : List Bool) : List Byte :=
  (List.range n).map (fun i => BitVec.ofNat 8 ((List.range 8).foldl (fun m b => m + 2 ^ b * Word.ofBool (l.getD (8 * i + b) false)) 0))

/-- Tiles as a 400-bit map. -/
def tileMap (l : List Nat) : List Byte := bitBytes 50 ((List.range 400).map (fun n => l.contains n))

/-- The payload of a TIME packet (Table 16.3). -/
def timeBytes (k : TimeKind) (i : TimeInfo) : List Byte :=
  let head (kind : Nat) : List Byte :=
    Word.toLe 1 kind ++ Word.toLe 1 i.hops ++ Word.toLe 1 (Word.ofBool i.locked + 2 * Word.ofBool i.stepPend) ++ Word.toLe 1 0
  match k with
  | .sync id t1 => head 1 ++ Word.toLe 4 id ++ Word.toLe 8 t1 ++ Word.toLe 8 0
  | .reply id t2 t3 => head 2 ++ Word.toLe 4 id ++ Word.toLe 8 t2 ++ Word.toLe 8 t3
  | .launch a => head 3 ++ Word.toLe 4 0 ++ Word.toLe 8 a ++ Word.toLe 8 0

/-- The TYPE of a message. -/
def PairMsg.ty : PairMsg → Nat
  | .heartbeat .. => 0x01
  | .notice .. => 0x02
  | .ack _ => 0x0B
  | .signatures .. => 0x05
  | .katResult .. => 0x06
  | .write .. => 0x03
  | .strobe .. => 0x04
  | .time .. => 0x08
  | .mailbox .. => 0x0A
  | .delta _ => 0x07
  | .snapshot _ => 0x0C
  | .tephra _ | .tephraGap .. => 0x09

/-- Its payload. DESIGN CHOICE (log entry 95): where Table 15.3 names fields and gives no widths or no order, they stand as here. -/
def PairMsg.payload : PairMsg → List Byte
  | .heartbeat time sf state fit cause => Word.toLe 8 time ++ Word.toLe 8 sf ++ Word.toLe 1 state ++ Word.toLe 1 fit ++ Word.toLe 1 cause
  | .notice kind cause target => Word.toLe 1 (noticeCode kind) ++ Word.toLe 1 cause ++ Word.toLe 8 target
  | .ack seq => Word.toLe 4 seq
  | .signatures sf sigs excused => Word.toLe 8 sf ++ (sigs.take 136).flatMap (Word.toLe 4) ++ bitBytes 17 excused
  | .katResult tested failed => tileMap tested ++ tileMap failed
  | .write off data => Word.toLe 4 off ++ Word.toLe 4 data.toNat
  | .strobe value time target digest act =>
    Word.toLe 4 value.toNat ++ Word.toLe 1 (Word.ofBool time + 2 * Word.ofBool act) ++ Word.toLe 8 target ++ digest.take 48
  | .time k i => timeBytes k i
  | .mailbox m word ack ret seq =>
    Word.toLe 1 m ++ Word.toLe 1 (seq % 2 + 2 * Word.ofBool ack) ++ Word.toLe 2 ret ++ Word.toLe 4 word.toNat
  | .delta d => Config.deltaBytes d
  | .snapshot x => Config.snapshotBytes x
  | .tephra e => TEntry.bytes e
  | .tephraGap first count => Word.toLe 4 first ++ Word.toLe 4 count

/-- How many packets a message takes: one, but for a DELTA and a SNAPSHOT. -/
def PairMsg.parts : PairMsg → Nat
  | .delta d => partsOf (Config.deltaBytes d).length
  | .snapshot x => partsOf (Config.snapshotBytes x).length
  | _ => 1

/-- Puts a message on the 8 data lanes of the pair link. -/
def State.pairFrames (s : State) (m : PairMsg) (seq : Option Nat) : State := s.sendMessage 77 8 (PairMsg.ty m) seq (PairMsg.payload m)

/-! ### Array ports (Table 16.1) -/

/-- TYPE of a sequenced packet. -/
def ArrayMsg.ty : ArrayMsg → Nat
  | .hello .. => 0x21
  | .status .. => 0x22

/-- Its payload. -/
def ArrayMsg.payload : ArrayMsg → List Byte
  | .hello x y valid letter serial =>
    Word.toLe 1 x ++ Word.toLe 1 y ++ Word.toLe 1 (Word.ofBool valid + 2 * (letter % 4)) ++ Word.toLe 5 serial
  | .status source locked hops gm => Word.toLe 1 source ++ Word.toLe 1 (Word.ofBool locked) ++ Word.toLe 1 hops ++ Word.toLe 8 gm

/-- Puts a packet on the two data lanes of array port `a`. -/
def State.arrayFrame (s : State) (a ty : Nat) (seq : Option Nat) (payload : List Byte) : State :=
  s.sendMessage (95 + 6 * a) 2 ty seq payload

end Sys2Proof.Machine
end

