-- ==== Sys2Proof/Machine/Ops.lean ====
section
/-!
DEFINITION. The named operations every meaning is written with: registers and their fields, interrupts (R89 to R91), the
tephra offer (R568 to R573), free values, module DRAM, the region check (R435), time (R471), the outbox.
-/

namespace Sys2Proof.Machine

open Sys2Proof

/-- The answer of a meaning. -/
abbrev Out := Host.Outcome State Fault Refusal

/-! ### Registers -/

/-- The word in effect at an offset. -/
def State.word (s : State) (off : Nat) : Word := Sparse.get resetWord s.regs off

/-- Sets the word in effect at an offset. -/
def State.setWord (s : State) (off : Nat) (w : Word) : State := { s with regs := Sparse.set resetWord s.regs off w }

/-- The staged word at an offset (R10). -/
def State.stagedWord (s : State) (off : Nat) : Word := Sparse.get resetWord s.staged off

/-- Sets the staged word at an offset. -/
def State.setStagedWord (s : State) (off : Nat) (w : Word) : State := { s with staged := Sparse.set resetWord s.staged off w }

/-- `old` with the bits of `mask` taken from `new`. -/
def mergeBits (mask old new : Word) : Word := (old &&& ~~~mask) ||| (new &&& mask)

/-- The mask of `width` bits from `lsb` in a 32-bit word. -/
def fieldMask (lsb width : Nat) : Word := BitVec.ofNat 32 ((2 ^ width - 1) * 2 ^ lsb)

/-- The value in effect of field `f` of element (i, j); a field above bit 31 or wider than its word spans a pair. -/
def State.get (s : State) (f : Fld) (i : Nat := 0) (j : Nat := 0) : Nat :=
  let o := f.off i j
  if f.lsb + f.width ≤ 32 then (s.word o).toNat / 2 ^ f.lsb % 2 ^ f.width
  else ((s.word o).toNat + 2 ^ 32 * (s.word (o + 4)).toNat) / 2 ^ f.lsb % 2 ^ f.width

/-- Sets field `f` of element (i, j) to `v`, wrapped to the field's width; other bits stay. No register stands beyond the elements the
field counts, and nothing is written there. -/
def State.put (s : State) (f : Fld) (v : Nat) (i : Nat := 0) (j : Nat := 0) : State :=
  let o := f.off i j
  if f.inRange i j then
    if f.lsb + f.width ≤ 32 then
      s.setWord o (mergeBits (fieldMask f.lsb f.width) (s.word o) (BitVec.ofNat 32 (v * 2 ^ f.lsb)))
    else
      let all := (2 ^ f.width - 1) * 2 ^ f.lsb
      let val := (v % 2 ^ f.width) * 2 ^ f.lsb
      let s1 := s.setWord o (mergeBits (BitVec.ofNat 32 all) (s.word o) (BitVec.ofNat 32 val))
      s1.setWord (o + 4) (mergeBits (BitVec.ofNat 32 (all / 2 ^ 32)) (s1.word (o + 4)) (BitVec.ofNat 32 (val / 2 ^ 32)))
  else s

/-- A one-bit field as a Bool. -/
def State.flag (s : State) (f : Fld) (i : Nat := 0) (j : Nat := 0) : Bool := s.get f i j = 1

/-- Sets a one-bit field from a Bool. -/
def State.putB (s : State) (f : Fld) (b : Bool) (i : Nat := 0) (j : Nat := 0) : State := s.put f (Word.ofBool b) i j

/-- A field read as two's complement. -/
def State.getI (s : State) (f : Fld) (i : Nat := 0) (j : Nat := 0) : Int := Word.signed f.width (s.get f i j)

/-- Sets a field to a signed value, two's complement, saturating. -/
def State.putI (s : State) (f : Fld) (z : Int) (i : Nat := 0) (j : Nat := 0) : State := s.put f (Word.satS f.width z) i j

/-- Puts an element into a sorted list, before its equals. -/
def insertBy {α : Type} (le : α → α → Bool) (a : α) : List α → List α
  | [] => [a]
  | b :: l => if le a b then a :: b :: l else b :: insertBy le a l

/-- A list sorted, equals in the order they stood. -/
def sortBy {α : Type} (le : α → α → Bool) (l : List α) : List α := l.foldr (insertBy le) []

/-- Advances a counter by `n`, saturating at its width (R80). -/
def State.bumpBy (s : State) (f : Fld) (n : Nat) (i : Nat := 0) (j : Nat := 0) : State :=
  s.put f (min (s.get f i j + n) (2 ^ f.width - 1)) i j

/-- Advances a counter by one, saturating. -/
def State.bump (s : State) (f : Fld) (i : Nat := 0) (j : Nat := 0) : State := s.bumpBy f 1 i j

/-- Advances a 64-bit counter, wrapping (the spec says of no such counter that it saturates). -/
def State.count (s : State) (f : Fld) (n : Nat) (i : Nat := 0) (j : Nat := 0) : State := s.put f (s.get f i j + n) i j

/-- The staged value of an RWS field. -/
def State.getStaged (s : State) (f : Fld) (i : Nat := 0) (j : Nat := 0) : Nat :=
  ({ s with regs := s.staged } : State).get f i j

/-- Whether the words and bits of two field elements have nothing in common. -/
abbrev Fld.apart (f : Fld) (i j : Nat) (g : Fld) (k l : Nat) : Prop :=
  (g.off k l ≠ f.off i j ∨ (f.lsb + f.width ≤ 32 ∧ g.lsb + g.width ≤ 32 ∧ (f.lsb + f.width ≤ g.lsb ∨ g.lsb + g.width ≤ f.lsb))) ∧
  (f.lsb + f.width ≤ 32 ∨ g.off k l ≠ f.off i j + 4) ∧
  (g.lsb + g.width ≤ 32 ∨ g.off k l + 4 ≠ f.off i j) ∧
  (f.lsb + f.width ≤ 32 ∨ g.lsb + g.width ≤ 32 ∨ g.off k l ≠ f.off i j)

/-- Sets the staged value of an RWS field. -/
def State.putStaged (s : State) (f : Fld) (v : Nat) (i : Nat := 0) (j : Nat := 0) : State :=
  { s with staged := (({ s with regs := s.staged } : State).put f v i j).regs }

/-! ### Free values, the outbox -/

/-- A free value of `w` bits (log entry 1): taken in order, never chosen. -/
def State.freeNat (s : State) (w : Nat) (k : Nat := 0) : Nat := (Config.freeValue w (s.freeCtr + k)).toNat

/-- Moves past `n` free values. -/
def State.tookFree (s : State) (n : Nat := 1) : State := { s with freeCtr := s.freeCtr + n }

/-- Sends or drives something. -/
def State.emit (s : State) (e : Emit) : State := { s with out := e :: s.out }

/-! ### Time (R470, R471) -/

/-- The largest RATE magnitude, ±200 ppm in units of 2⁻⁴⁸ (R471). -/
def rateLimit : Int := 56294995342

/-- TIME in 2⁻¹⁶ ns (R471), RATE being the one in effect. -/
def State.timeFx (s : State) : Int :=
  let d : Int := (s.time.raw : Int) - s.time.rawBase
  s.time.base + d * 65536 + Int.fdiv (d * (s.time.rate + s.time.slew)) (2 ^ 32)

/-- TIME in ns, 64 bits (R471, TIME_NOW). -/
def State.now (s : State) : Nat := Word.wrap 64 (Int.fdiv s.timeFx 65536)

/-- A TIME_SHORT value as the 64-bit instant nearest to TIME (R84, R485). -/
def State.extend (s : State) (short : Nat) : Nat :=
  let d := (short % 2 ^ 32 + 2 ^ 32 - s.now % 2 ^ 32) % 2 ^ 32
  if d < 2 ^ 31 then (s.now + d) % 2 ^ 64 else (s.now + 2 ^ 64 + d - 2 ^ 32) % 2 ^ 64

/-! ### Interrupts (R89 to R91, Table 3.4) -/

/-- The interrupt source blocks of Table 3.4. -/
inductive Blk where
  | ctl | care | sec | thm | cal | time | pers | fab | view | intk | tdec | lzc | comp | blt | pseq | rail | lane | mem | pair
  | array | host | eth | dprx | teph
  deriving DecidableEq, Repr

/-- The block's number b in Table 3.4. -/
def Blk.num : Blk → Nat
  | .ctl => 0 | .care => 1 | .sec => 2 | .thm => 3 | .cal => 4 | .time => 5 | .pers => 6 | .fab => 7 | .view => 8 | .intk => 9
  | .tdec => 10 | .lzc => 11 | .comp => 12 | .blt => 13 | .pseq => 14 | .rail => 15 | .lane => 16 | .mem => 17 | .pair => 18
  | .array => 19 | .host => 20 | .eth => 21 | .dprx => 22 | .teph => 23

/-- The offset of the block's IRQ_STATUS register. -/
def Blk.status : Blk → Nat
  | .ctl => R.CTL_IRQ_STATUS.base | .care => R.CARE_IRQ_STATUS.base | .sec => R.SEC_IRQ_STATUS.base
  | .thm => R.THM_IRQ_STATUS.base | .cal => R.CAL_IRQ_STATUS.base | .time => R.TIME_IRQ_STATUS.base
  | .pers => R.PERS_IRQ_STATUS.base | .fab => R.FAB_IRQ_STATUS.base | .view => R.VIEW_IRQ_STATUS.base
  | .intk => R.INTK_IRQ_STATUS.base | .tdec => R.TDEC_IRQ_STATUS.base | .lzc => R.LZC_IRQ_STATUS.base
  | .comp => R.COMP_IRQ_STATUS.base | .blt => R.BLT_IRQ_STATUS.base | .pseq => R.PSEQ_IRQ_STATUS.base
  | .rail => R.RAIL_IRQ_STATUS.base | .lane => R.LANE_IRQ_STATUS.base | .mem => R.MEM_IRQ_STATUS.base
  | .pair => R.PAIR_IRQ_STATUS.base | .array => R.ARRAY_IRQ_STATUS.base | .host => R.HOST_IRQ_STATUS.base
  | .eth => R.ETH_IRQ_STATUS.base | .dprx => R.DPRX_IRQ_STATUS.base | .teph => R.TEPH_IRQ_STATUS.base

/-- The block whose IRQ_STATUS (or, one word on, IRQ_MASK) register lies at an offset. -/
def blkAt (off : Nat) : Option Blk :=
  [Blk.ctl, .care, .sec, .thm, .cal, .time, .pers, .fab, .view, .intk, .tdec, .lzc, .comp, .blt, .pseq, .rail, .lane, .mem,
    .pair, .array, .host, .eth, .dprx, .teph].find? (fun b => b.status = off || b.status + 4 = off)

/-- The block's interrupt line: the OR of STATUS AND MASK (R90). -/
def State.irqLine (s : State) (b : Blk) : Bool := (s.word b.status &&& s.word (b.status + 4)) ≠ 0

/-- Sends the message of a vector, or sets its pending bit while the vector, the function or MSI-X masks it (R91). -/
def State.msixSend (s : State) (v : Nat) : State :=
  if s.host.msixEnable && !s.host.functionMask && !s.flag R.HOST_MSIX_CTRL v then
    s.emit (.msix v (s.get R.HOST_MSIX_ADDR v) (BitVec.ofNat 32 (s.get R.HOST_MSIX_DATA v)))
  else s.put R.HOST_MSIX_PBA (Word.setBit (s.get R.HOST_MSIX_PBA) v)

/-- Sends the block's message when its line rose from `before` (R90). -/
def State.irqEdge (s : State) (b : Blk) (before : Bool) : State :=
  if !before && s.irqLine b then s.msixSend (s.get R.CTL_IRQ_ROUTE b.num) else s

/-- Sets flag `bit` of the block's IRQ_STATUS, whatever the mask holds (R89), and sends the message a rising line gives. -/
def State.raise (s : State) (b : Blk) (bit : Nat) : State :=
  let before := s.irqLine b
  let s1 := s.setWord b.status (s.word b.status ||| BitVec.ofNat 32 (2 ^ bit))
  s1.irqEdge b before

/-- `raise` under a condition. -/
def State.raiseIf (s : State) (c : Bool) (b : Blk) (bit : Nat) : State := if c then s.raise b bit else s

/-! ### The tephra offer (R568 to R573) -/

/-- The loss of an offered entry: a full queue (R573) or a frozen ring (R575). -/
def State.tephLose (s : State) (frozen : Bool) : State :=
  let s1 := if frozen then s.bump R.TEPH_LOST_FROZEN else s.bump R.TEPH_LOST_QUEUE
  let s2 := s1.raise .teph 1
  if frozen then
    let g := s2.teph.gap.getD (s2.get R.TEPH_HEAD, 0)
    { s2 with teph := { s2.teph with gap := some (g.1, g.2 + 1) } }
  else
    { s2 with teph := { s2.teph with
        lostPending := s2.teph.lostPending + 1
        lostAfter := if s2.teph.lostPending = 0 then (s2.get R.TEPH_HEAD + s2.teph.queue.length + 2 ^ 32 - 1) % 2 ^ 32
          else s2.teph.lostAfter } }

/-- Hands one entry to the recorder's queue of 64. -/
def State.offerFull (s : State) (src sev rung code a0 a1 : Nat) (a2 : Arg2) (injected trigger : Bool) : State :=
  let e : Offer := ⟨s.teph.nextId, s.now, src, sev, rung, injected, !s.flag R.TIME_STAT_LOCKED, code, a0 % 2 ^ 32, a1 % 2 ^ 32,
    a2, trigger⟩
  let s1 := { s with teph := { s.teph with nextId := s.teph.nextId + 1 } }
  if s.flag R.TEPH_STAT_FROZEN then s1.tephLose true
  else if 64 ≤ s.teph.queue.length then s1.tephLose false
  else { s1 with teph := { s1.teph with queue := s1.teph.queue ++ [e] } }

/-- An entry of Table 21.2 that is neither injected nor a FREEZE command. -/
def State.offer (s : State) (src sev rung code a0 a1 : Nat) (a2 : Arg2) : State :=
  s.offerFull src sev rung code a0 a1 a2 false false

/-- WRITE_IGNORED (0x0010): a write ignored, voided or dropped "and recorded" (Table 21.2). -/
def State.ignored (s : State) (off : Nat) (data : Nat) (r : Req) : State :=
  s.offer (srcOf off) 0 0 0x10 off data (.val r.code)

/-- An event with a flag in IRQ_STATUS and no code of its own: 0x1000 plus the bit, ARG0 the status after it (R569). The spec
states no ARG1 and ARG2: free values (log entry 1). -/
def State.recIrq (s : State) (b : Blk) (bit : Nat) : State :=
  (s.offer b.num 1 0 (0x1000 + bit) (s.word b.status).toNat (s.freeNat 32) (.val (s.freeNat 32 1))).tookFree 2

/-- An event without a flag and without a code: 0x0F00 with the register that reports it (R569). -/
def State.recOther (s : State) (off : Nat) : State :=
  (s.offer (srcOf off) 1 0 0xF00 off (s.word off).toNat (.val (s.freeNat 32))).tookFree 1

/-- Sets a flag and records the event under it. -/
def State.raiseRec (s : State) (b : Blk) (bit : Nat) : State := (s.raise b bit).recIrq b bit

/-- Asserts ALERT_N; it is released 100 ms after the last assertion (R595). -/
def State.alert (s : State) : State := { s with pins := { s.pins with alert := true } }

/-! ### Module DRAM (R409 to R412, R434 to R436) -/

/-- What an unlisted DRAM byte reads as: 0, which the initialisation after training wrote (R424). -/
def dramDefault (_ : Nat) : Byte := 0

/-- One byte of module DRAM. -/
def State.readByte (s : State) (a : Nat) : Byte := Sparse.get dramDefault s.dram a

/-- Writes one byte of module DRAM. -/
def State.writeByte (s : State) (a : Nat) (b : Byte) : State := { s with dram := Sparse.set dramDefault s.dram a b }

/-- `n` bytes from address `a`. -/
def State.readBytes (s : State) (a : Nat) : Nat → List Byte
  | 0 => []
  | n + 1 => s.readByte a :: s.readBytes (a + 1) n

/-- Writes bytes from address `a` on. -/
def State.writeBytes (s : State) (a : Nat) : List Byte → State
  | [] => s
  | b :: bs => (s.writeByte a b).writeBytes (a + 1) bs

/-- A little-endian value of `n` bytes at address `a`. -/
def State.readLe (s : State) (a n : Nat) : Nat := Word.le (s.readBytes a n)

/-- Writes a little-endian value of `n` bytes at address `a`. -/
def State.writeLe (s : State) (a n v : Nat) : State := s.writeBytes a (Word.toLe n v)

/-- 1.0 of a 20-bit colour or alpha (R183): 4,095 × 256. -/
def fullScale : Nat := 1048320

/-- One MiB. -/
def mib : Nat := 2 ^ 20

/-- Bytes of data space, C of Table 14.3. -/
def State.dataSpace (s : State) : Nat := s.get R.MEM_SIZE * mib

/-- Bytes of the host area (R412). -/
def State.hostArea (s : State) : Nat := s.get R.MEM_HOST * mib

/-- Start of the plane pool, the personality slots, the intake buffer (Table 14.3). -/
def State.planePool (s : State) : Nat := s.dataSpace - 35200 * mib
def State.slotArea (s : State) (slot : Nat) : Nat := s.dataSpace - 2432 * mib + slot * 64 * mib
def State.intakeArea (s : State) : Nat := s.dataSpace - 1920 * mib

/-- The users of the region table: the bit of MEM_REGION ATTR that names each (Table 14.6). -/
inductive User where
  | pers | intk | lzc | blt | comp | bar2
  deriving DecidableEq, Repr

/-- The ATTR bit of a user. -/
def User.bit : User → Nat
  | .pers => 8 | .intk => 9 | .lzc => 10 | .blt => 11 | .comp => 12 | .bar2 => 13

/-- Whether entry `i` is valid, names the user, grants the access and covers [a, a + len) (R435). -/
def State.regionGrants (s : State) (u : User) (write : Bool) (a len i : Nat) : Bool :=
  let at_ := s.get R.MEM_REGION_ATTR i
  at_.testBit 0 && at_.testBit u.bit && at_.testBit (if write then 2 else 1) &&
    decide (s.get R.MEM_REGION_BASE i * 4096 ≤ a) && decide (a + len - 1 ≤ s.get R.MEM_REGION_LIMIT i * 4096 + 4095)

/-- A region check (R435): sums beyond 2⁶⁴ fail; a length of 0 checks no bytes. -/
def State.regionOk (s : State) (u : User) (write : Bool) (a len : Nat) : Bool :=
  len = 0 || (decide (a + len ≤ 2 ^ 64) && (List.range 64).any (s.regionGrants u write a len))

/-- A region check of a buffer that is read and written (R246): one region grants both. -/
def State.regionBoth (s : State) (u : User) (a len : Nat) : Bool :=
  len = 0 || (decide (a + len ≤ 2 ^ 64) && (List.range 64).any (fun i => s.regionGrants u false a len i && s.regionGrants u true a len i))

/-- The controller and channel of a DRAM address: granules of 512 bytes over the channels in use (R410). -/
def State.channelOf (s : State) (a : Nat) : Nat :=
  let used := (List.range 48).filter (fun k => (s.get R.MEM_MAP).testBit k)
  used.getD (a / 512 % used.length) 0

/-- Whether the controller that serves an address is frozen (R431). -/
def State.frozenAt (s : State) (a : Nat) : Bool := s.get R.MEM_C_STAT_STATE (s.channelOf a / 8) = 5

/-- Whether the controllers serve requests: initialised, out of self-refresh, no frequency change running (R424, R428, R429). -/
def State.memOpen (s : State) : Bool := s.mem.ready && !s.mem.selfRefresh && !s.flag R.MEM_FREQ_BUSY

/-- Whether BAR2 shows the boot SRAM (R524): the boot ROM waits for a host image. -/
def State.bootWindow (s : State) : Bool := s.rst.hostBootWait && decide (s.rst.hold ≠ .por) && decide (s.rst.hold ≠ .sys)

/-- Whether any controller is frozen. -/
def State.anyFrozen (s : State) : Bool := (List.range 6).any (fun c => s.get R.MEM_C_STAT_STATE c = 5)

/-! ### Who may write (R61, R380, R465 and the like) -/

/-- A keyed command register: a write from the partner is ignored and recorded; a wrong key voids the write, which is then
recorded; otherwise `act` happens. -/
def State.keyed (s : State) (off : Nat) (r : Req) (key want data : Nat) (act : State → State) : State :=
  if r = .partner then s.ignored off data r
  else if key ≠ want then s.ignored off data r
  else act s

/-- Whether the pair link is ACTIVE: group 22 in stage 5 (Timing 13.1). -/
def State.pairUp (s : State) : Bool := s.get R.LANE_GRP_STAT_STAGE (leadLane 22) = 5

/-- PAIR_STAT.STATE values: 2 ACTIVE, 3 MIRROR, 4 SOLO, 5 DETACHED. -/
def State.isActive (s : State) : Bool := s.get R.PAIR_STAT_STATE = 2
def State.isMirror (s : State) : Bool := s.get R.PAIR_STAT_STATE = 3

/-- Whether the module belongs to a pair whose partner answers: ACTIVE or MIRROR (R440). -/
def State.inPair (s : State) : Bool := s.isActive || s.isMirror

/-- Puts a message on the pair link: sequenced types take the next SEQ of each of their packets and wait for an ACK (R443, R444, Table 15.3). -/
def State.sendPair (s : State) (m : PairMsg) : State :=
  if !s.pairUp then s
  else
    match m with
    | .heartbeat .. | .ack .. => (s.pairFrames m none).emit (.pairPkt 0 m)
    | _ =>
      let n := (s.pair.txSeq + PairMsg.parts m) % 2 ^ 32
      ({ s.pairFrames m (some (s.pair.txSeq + 1)) with
        pair := { s.pair with txSeq := n, unacked := s.pair.unacked ++ [Sent.mk n m] } } : State).emit (.pairPkt n m)

/-- Sends a sequenced message again (R444). -/
def State.resendPair (s : State) (x : Sent) : State :=
  (s.pairFrames x.msg (some (x.seq + 2 ^ 32 + 1 - PairMsg.parts x.msg))).emit (.pairPkt x.seq x.msg)

/-- The number by which `Config.noticeCauseCode` is asked for a cause's code. -/
def noticeIndex : NoticeCause → Nat
  | .coreEntry => 0 | .sysEntry => 1 | .memFreeze => 2 | .thermal => 3 | .sparesOut => 4 | .railFault c => 16 + c
  | .powerFail => 5 | .groupLost => 6 | .handover => 7 | .divergence => 8 | .crack => 9 | .fitness => 10

/-- The byte that carries a cause: the spec gives no values (log entry 3). -/
def causeCode (c : NoticeCause) : Nat := (Config.noticeCauseCode (noticeIndex c)).toNat

/-- Sends a NOTICE and records NOTICE_SENT (0x0401) with a link to its cause. -/
def State.sendNotice (s : State) (k : Notice) (c : NoticeCause) (target : Nat) (cause : Option Nat) : State :=
  let s1 := s.sendPair (.notice k (causeCode c) target)
  let s2 := { s1 with pair := { s1.pair with lastCause := (causeCode c) } }
  s2.offer 18 2 4 0x401 (noticeCode k) (causeCode c) (.link cause)

/-- The explicit failure notice (R454): sent by the module that holds the drive in a pair. -/
def State.sendFail (s : State) (c : NoticeCause) (cause : Option Nat) : State :=
  if s.isActive then s.sendNotice .fail c 0 cause else s

/-- The offset of the subframe sequence number, and its low bits. -/
def State.sf (s : State) : Nat := s.get R.PSEQ_SF

/-- Trained channels in use. -/
def State.trainedChannels (s : State) : Nat := ((List.range 48).filter (fun k => (s.get R.MEM_MAP).testBit k)).length

/-- The health bar (R52): 2 red when the module cannot play (a stream refused, R56; a frozen controller; stage 0x08 failed, or its
personality gone), 1 amber when an item has been flagged, else 0 green; what counts as such is the model's reading (log entry 59). -/
def State.healthBar (s : State) : Nat :=
  let stage := s.get R.RST_STAGE_STAGE
  let fail := s.flag R.RST_STAGE_FAIL
  if s.intk.refused = true ∨ s.anyFrozen = true ∨ (stage = 7 ∧ fail = true) ∨ (8 ≤ stage ∧ s.flag R.PERS_STATE_ACTIVE_VALID = false) then 2
  else if (3 ≤ stage ∧ s.get R.MEM_SIZE ≠ 0 ∧ s.trainedChannels < 48) ∨ fail = true ∨ s.get R.LANE_PANEL_FAILED ≠ 0 ∨ s.get R.PERS_STATE_RETIRED ≠ 0 ∨
      s.flag R.RST_STRAP_OPEN = true ∨ s.flag R.RST_STRAP_SHORT = true ∨ s.flag R.RST_STRAP_MARGIN = true ∨
      s.flag R.FAB_STAT_DEGRADED = true ∨ s.flag R.FAB_STAT_SPARES_OUT = true ∨
      (List.range 70).any (fun n => s.flag R.THM_SENS_BROKEN n) = true then 1
  else 0

/-! ### Boot stages (Timing 2.1) -/

/-- The panel groups the panel's geometry uses: WIDTH / 1,920 from G0 and from G8 (R320). -/
def State.groupsInUse (s : State) : List Nat :=
  match s.pseq.desc with
  | none => []
  | some d => (List.range 16).filter (fun g => g % 8 < d.width / 1920)

/-- The stage of a lane group. -/
def State.groupStage (s : State) (j : Nat) : Nat := s.get R.LANE_GRP_STAT_STAGE (leadLane j)

/-- What lets the boot enter stage `n` from the one before it (Timing 2.1, R394). -/
def State.stageMet (s : State) (n : Nat) : Bool :=
  match n with
  | 4 => s.pseq.desc.isSome && s.groupsInUse.all (fun g => s.groupStage (16 + g / 4) = 5)
  | 5 => s.get R.RAIL_STAT_STATE = 2 || s.get R.RAIL_STAT_STATE = 3
  | 6 => s.groupsInUse.all (fun g => s.groupStage g = 5 || s.groupStage g = 6) && s.groupsInUse.any (fun g => s.groupStage g = 5)
  | 7 => s.rst.patternLit
  | 8 => s.flag R.PERS_STATE_ACTIVE_VALID
  | 9 => s.rst.inputReady
  | 10 => s.rst.frameLit
  | _ => false

/-- In stand-alone play, the host having chosen no input, the caretaker sets SRC from the strap at stage 0x09 (R201). -/
def State.inputFromStrap (s : State) : State :=
  if s.get R.INTK_CTRL_SRC = 3 ∧ s.getStaged R.INTK_CTRL_SRC = 3 then
    let v := if s.flag R.RST_STRAP_INPUT then 2 else 0
    let s1 := (s.put R.INTK_CTRL_SRC v).putStaged R.INTK_CTRL_SRC v
    { s1 with intk := { s1.intk with src := v } }
  else s

/-- Enters as many stages, at most `k`, as are met one after the other (R50). A sequence that a failure stopped goes on once its stage
is met after all (Table 2.5: the retries), except after a failure of the DRAM. -/
def State.enterStages : Nat → State → State
  | 0, s => s
  | k + 1, s =>
    let n := s.get R.RST_STAGE_STAGE + 1
    if 4 ≤ n ∧ s.stageMet n = true ∧ s.rst.dramFail = false then
      let t := (s.put R.RST_STAGE_STAGE n).put R.RST_STAGE_FAIL 0
      (if n = 9 then t.inputFromStrap else t).enterStages k
    else s

/-- A failed stage stops the sequence: FAIL, ALERT_N, the entry STAGE_FAIL (R59). The spec numbers no reasons: ARG1 is free. -/
def State.stageFail (s : State) (stage : Nat) : State :=
  let s1 := (s.put R.RST_STAGE_FAIL 1).alert
  (s1.offer 24 2 0 2 stage (s1.freeNat 32) (.val 0)).tookFree 1

/-- Stage 0x09 fails when the stand-alone Ethernet input was brought up without a link (Table 2.5). -/
def State.inputJudge (s : State) : State :=
  if s.get R.RST_STAGE_STAGE = 8 ∧ s.flag R.RST_STAGE_FAIL = false ∧ s.rst.inputReady = false ∧ s.rst.inputFail = true then s.stageFail 9 else s

/-- The boot goes on as far as its stages are met. -/
def State.boot (s : State) : State := (s.enterStages 7).inputJudge

/-- Whether every domain but AO, HOSTP, RAILS and the controllers' is off (Table 20.3): after an orderly shutdown, or a cut. -/
def State.powerDown (s : State) : Bool := s.flag R.THM_STAT_CUT || decide (s.thm.step = 4)

/-- The panel's size, in pixels. -/
def State.panelW (s : State) : Nat := match s.pseq.desc with | some d => d.width | none => 15360
def State.panelH (s : State) : Nat := match s.pseq.desc with | some d => d.height | none => 8640

/-! ### Network addresses (R54, R499) -/

/-- The IPv4 address of port `p` (R499): the static one when it is not 0, else the one acquired; 0 for none. -/
def State.ipv4 (s : State) (p : Nat) : Nat :=
  if s.get R.ETH_PORT_IPV4 p ≠ 0 then s.get R.ETH_PORT_IPV4 p else ((s.host.ip.find? (fun x => x.1 = p)).map (·.2)).getD 0

/-- The interface identifier of a MAC address: ff:fe between its halves, the universal bit inverted (RFC 4291; log entry 90). -/
def interfaceId (mac : Nat) : List Nat :=
  let hi := mac / 2 ^ 24 % 2 ^ 24
  [Nat.xor (hi / 2 ^ 8) 0x0200 * 2 ^ 16 + hi % 2 ^ 8 * 2 ^ 8 + 0xFF, 0xFE * 2 ^ 24 + mac % 2 ^ 24]

/-- The IPv6 addresses of port `p` (R54, R499): the link-local one it always forms, and one for each prefix a router advertised there. -/
def State.ipv6 (s : State) (p : Nat) : List (List Nat) :=
  let id := interfaceId (s.get R.ETH_PORT_MAC p)
  ([0xFE800000, 0] ++ id) :: (s.host.prefixes.filter (fun x => x.1 = p)).map (fun x => [x.2 / 2 ^ 32 % 2 ^ 32, x.2 % 2 ^ 32] ++ id)

end Sys2Proof.Machine
end

