-- ==== Sys2Proof/Machine/Mail.lean ====
section
/-!
DEFINITION. Mailboxes, notices and locks (spec/18, R512 to R519, R523, R525 to R528).
-/

namespace Sys2Proof.Machine

open Sys2Proof

/-- The party that writes DATA and CTRL of mailbox `m` (Table 18.1). -/
def mbxSender (m : Nat) : Party :=
  if m < 8 then .host else if m < 20 then .caretaker else if m < 24 then .partner else if m < 28 then .fabric else .caretaker

/-- The party that writes ACK of mailbox `m` (Table 18.1). -/
def mbxReceiver (m : Nat) : Party :=
  if m < 8 then .caretaker else if m < 16 then .host else if m < 20 then .partner else if m < 28 then .caretaker else .fabric

/-- A party as Table 21.2 codes a requester; the spec gives the fabric no code: a free value (log entry 1). -/
def State.partyCode (s : State) : Party → Nat
  | .host => 1 | .caretaker => 2 | .partner => 3 | .fabric => s.freeNat 2

/-- WRITE_IGNORED for a mailbox or lock access of a party. -/
def State.ignoredBy (s : State) (off data : Nat) (p : Party) : State :=
  (s.offer 1 0 0 0x10 off data (.val (s.partyCode p))).tookFree (if p = .fabric then 1 else 0)

/-- Counts a stray access (R512, R514, R515). -/
def State.stray (s : State) : State := s.bump R.CARE_MBX_COUNT_STRAY

/-- Sends an outbound message in a MAILBOX packet (R518). -/
def State.mbxTransmit (s : State) (m : Nat) : State :=
  s.sendPair (.mailbox (m + 4) (s.word (R.CARE_MBX_DATA.off m 0)) false 0 (s.get R.CARE_MBX_STAT_SEQ m))

/-- The pair link is ACTIVE again (R519): every outbound mailbox whose FULL is 1 is sent again. -/
def State.mbxResend (s : State) : State :=
  [16, 17, 18, 19].foldl (fun t m => if t.flag R.CARE_MBX_STAT_FULL m then t.mbxTransmit m else t) s

/-- A post by a party that may post (R513): FULL rejects it; else the word is stored, FULL set, ACKED cleared, the doorbell rung. -/
def State.mbxPost (s : State) (m : Nat) (word : Nat) : State :=
  if s.flag R.CARE_MBX_STAT_FULL m then (s.bump R.CARE_MBX_COUNT_REJECTED).raiseRec .care 3
  else
    let s1 := ((s.put R.CARE_MBX_DATA word m).put R.CARE_MBX_STAT_FULL 1 m).put R.CARE_MBX_STAT_ACKED 0 m
    if 8 ≤ m ∧ m < 16 then s1.raise .care 0
    else if 16 ≤ m ∧ m < 20 then (s1.put R.CARE_MBX_STAT_SEQ (1 - s1.get R.CARE_MBX_STAT_SEQ m) m).mbxTransmit m
    else s1

/-- Posts the oldest queued notice while mailbox 8 is free (R523). -/
def State.noticeNext (s : State) : State :=
  match s.care.notices with
  | [] => s
  | w :: rest =>
    if s.flag R.CARE_MBX_STAT_FULL 8 then s
    else ({ s with care := { s.care with notices := rest } } : State).mbxPost 8 w

/-- The caretaker posts a notice (R523): EVENT, sequence number, PARAM. At most 32 wait; a 33rd drops the oldest, recorded. -/
def State.notice (s : State) (event param : Nat) : State :=
  let w := event % 256 + s.care.noticeSeq % 256 * 256 + param % 65536 * 65536
  let s1 : State := { s with care := { s.care with noticeSeq := (s.care.noticeSeq + 1) % 256 } }
  if !s1.flag R.CARE_MBX_STAT_FULL 8 && s1.care.notices.isEmpty then s1.mbxPost 8 w
  else if s1.care.notices.length < 32 then { s1 with care := { s1.care with notices := s1.care.notices ++ [w] } }
  else
    ({ s1 with care := { s1.care with notices := s1.care.notices.drop 1 ++ [w] } } : State).recOther (R.CARE_MBX_STAT.off 8 0)

/-- An acknowledgement that applies (R514): FULL cleared, ACKED set, RET stored, the sender's doorbell rung; a code for an inbound
mailbox travels back to the partner (R518); mailbox 8 takes the next notice. -/
def State.mbxDone (s : State) (m ret : Nat) : State :=
  let s1 := ((s.put R.CARE_MBX_STAT_FULL 0 m).put R.CARE_MBX_STAT_ACKED 1 m).put R.CARE_MBX_STAT_RET ret m
  let s2 := s1.raiseIf (m < 8) .care 1
  if 20 ≤ m ∧ m < 24 then
    let q := s2.get R.CARE_MBX_STAT_SEQ m
    let t : State := { s2 with care := { s2.care with inbound := (m, q, ret % 65536) :: s2.care.inbound.filter (·.1 ≠ m) } }
    t.sendPair (.mailbox (m - 4) 0 true (ret % 65536) q)
  else if m = 8 then s2.noticeNext
  else s2

/-- MBX_POST (R512, R513). -/
def execMbxPost (p : Party) (m : Nat) (word : Word) (s : State) : Out :=
  if 32 ≤ m then .next s
  else if p ≠ mbxSender m then .next (s.stray.ignoredBy (R.CARE_MBX_DATA.off m 0) word.toNat p)
  else .next (s.mbxPost m word.toNat)

/-- MBX_ACK (R512, R514). -/
def execMbxAck (p : Party) (m : Nat) (ret : Nat) (s : State) : Out :=
  if 32 ≤ m then .next s
  else if p ≠ mbxReceiver m ∨ s.flag R.CARE_MBX_STAT_FULL m = false then
    .next (s.stray.ignoredBy (R.CARE_MBX_ACK.off m 0) (ret % 65536) p)
  else .next (s.mbxDone m (ret % 65536))

/-- MBX_WITHDRAW (R515): the sender of mailboxes 0 to 15 ends the wait with 0xFFFF. -/
def execMbxWithdraw (p : Party) (m : Nat) (s : State) : Out :=
  if 32 ≤ m then .next s
  else if p ≠ mbxSender m then .next (s.stray.ignoredBy (R.CARE_MBX_CTRL.off m 0) 1 p)
  else if 16 ≤ m ∨ s.flag R.CARE_MBX_STAT_FULL m = false then .next s.stray
  else
    let s1 := ((s.put R.CARE_MBX_STAT_FULL 0 m).put R.CARE_MBX_STAT_ACKED 1 m).put R.CARE_MBX_STAT_RET 0xFFFF m
    .next (if m = 8 then s1.noticeNext else s1)

/-- A command of mailbox 0 ends (R520): results, then TAG, then the acknowledgement. A running command only. -/
def State.cmdEnd (s : State) (ret : Nat) (res : List Nat) : State :=
  match s.care.running with
  | none => s
  | some w =>
    let s1 := (List.range res.length).foldl (fun t i => t.put R.CARE_RES (res.getD i 0) i) s
    let s2 := s1.put R.CARE_RES_TAG (w / 256)
    let s3 : State := { s2 with care := { s2.care with running := none, args := [] } }
    if s3.flag R.CARE_MBX_STAT_FULL 0 then s3.mbxDone 0 ret else s3

/-- Ends the running command when it is operation `op` with PARAM `param`. -/
def State.cmdEndIf (s : State) (op param ret : Nat) (res : List Nat) : State :=
  match s.care.running with
  | some w => if w % 256 = op ∧ w / 65536 = param then s.cmdEnd ret res else s
  | none => s

/-! ### Locks -/

/-- LOCK_CLAIM (R525): takes a free lock; a claim by the owner changes nothing; any other fails. -/
def execLockClaim (p : Party) (k : Nat) (s : State) : Out :=
  if 16 ≤ k then .next s
  else
    let o := s.get R.CARE_LOCK k
    .next (if o = 0 then s.put R.CARE_LOCK p.owner k else if o = p.owner then s else s.bump R.CARE_LOCK_STAT_FAILED)

/-- LOCK_RELEASE (R526): the owner frees the lock; any other write of 0 is ignored, counted and recorded. -/
def execLockRelease (p : Party) (k : Nat) (s : State) : Out :=
  if 16 ≤ k then .next s
  else if s.get R.CARE_LOCK k = p.owner then .next (s.put R.CARE_LOCK 0 k)
  else .next ((s.bump R.CARE_LOCK_STAT_STRAY).ignoredBy (R.CARE_LOCK.off k 0) 0 p)

/-- Forcibly releases the locks a requester owns: each sets LOCK_FREED and is recorded (R528). -/
def State.releaseLocks (s : State) (owner : Nat) : State :=
  ((List.range 16).filter (fun k => s.get R.CARE_LOCK k = owner)).foldl (fun t k => (t.put R.CARE_LOCK 0 k).raiseRec .care 2) s

end Sys2Proof.Machine
end

