-- ==== Sys2Proof/Machine/Rail.lean ====
section
/-!
DEFINITION. The rail block and the crack loops (spec/12): power-on, power-off, rail faults, retries, sharing in a pair.
-/

namespace Sys2Proof.Machine

open Sys2Proof

/-! ### Crack loops (R375 to R379) -/

/-- The class of a reading: 0 OK, 1 HIGH, 2 OPEN, 3 LOW (R377). A loop without a baseline is OPEN (R376). -/
def crackClass (base pct : Nat) (rd : CrackRead) : Nat :=
  if rd.above then 2
  else if rd.below then 3
  else if base = 0 then 2
  else if 2 * rd.ohm < base then 3
  else if 20000 ≤ rd.ohm then 2
  else if base * (100 + max 1 pct) / 100 < rd.ohm then 1
  else 0

/-- The action of loop `l` (0 inner, 1 outer): 0 FLAG, 1 ALERT, 2 or 3 SHUTDOWN. -/
def State.crackAction (s : State) (l : Nat) : Nat :=
  if l = 0 then s.get R.RAIL_CRACK_CTRL_ACT_INNER else s.get R.RAIL_CRACK_CTRL_ACT_OUTER

/-- Whether an event of loop `l` waits for an OK reading before the next. -/
def State.crackLatched (s : State) (l : Nat) : Bool := if l = 0 then s.rail.latchedInner else s.rail.latchedOuter

/-- Sets or clears that latch. -/
def State.setLatched (s : State) (l : Nat) (b : Bool) : State :=
  if l = 0 then { s with rail := { s.rail with latchedInner := b } } else { s with rail := { s.rail with latchedOuter := b } }

/-- Takes one reading of loop `l`: MEAS, class, consecutive count, and an event with FLAG or ALERT done. The Bool says that the
event's action is SHUTDOWN (R377). -/
def State.crackReading (s : State) (l : Nat) (rd : CrackRead) : State × Bool :=
  let cls := crackClass (s.get R.RAIL_CRACK_MEAS_BASE l) (s.get R.RAIL_CRACK_CTRL_HIGH_PCT) rd
  let run := if cls = 1 ∨ cls = 2 then min 15 (s.get R.RAIL_CRACK_STAT_RUN l + 1) else 0
  let s1 := ((s.put R.RAIL_CRACK_MEAS_OHM (min rd.ohm 65535) l).put R.RAIL_CRACK_STAT_CLASS cls l).put R.RAIL_CRACK_STAT_RUN run l
  if cls = 0 then (s1.setLatched l false, false)
  else if !s.crackLatched l && (cls = 3 || decide (max 1 (s.get R.RAIL_CRACK_CTRL_CONSEC) ≤ run)) then
    let s2 := (((s1.setLatched l true).bump R.RAIL_CRACK_EVENTS l).raise .rail 1).recIrq .rail 1
    let act := s.crackAction l
    (if 1 ≤ act then s2.alert else s2, decide (2 ≤ act))
  else (s1, false)

/-- Takes readings of the two loops, inner first and alternating (R375). -/
def State.crackReadings : State → Nat → List CrackRead → State × Bool
  | s, _, [] => (s, false)
  | s, l, rd :: rest =>
    let (s1, b1) := s.crackReading l rd
    let (s2, b2) := s1.crackReadings (1 - l) rest
    (s2, b1 || b2)

/-- The readings of one loop out of an alternating list. -/
def loopOf (outer : Bool) : List CrackRead → List Nat
  | a :: b :: rest => (if outer then b.ohm else a.ohm) :: loopOf outer rest
  | [a] => if outer then [] else [a.ohm]
  | [] => []

/-- The median of readings, rounded down between the two middle ones (log entry 12). -/
def median (l : List Nat) : Nat :=
  let m := sortBy (fun a b => decide (a ≤ b)) l
  (m.getD ((m.length - 1) / 2) 0 + m.getD (m.length / 2) 0) / 2

/-- The baseline a median gives: none outside 10 to 10,000 Ω (R376). -/
def baseline (m : Nat) : Nat := if 10 ≤ m ∧ m ≤ 10000 then m else 0

/-- The baselines of a power-on: the stored ones while the panel is the one they were learnt on and RELEARN was not ordered, else
the medians of the readings; a median that is not stored leaves 0 (R376). -/
def State.crackLearn (s : State) (readings : List CrackRead) : State :=
  let serial := s.get R.PSEQ_PANEL_SERIAL
  let kept : Nat × Nat :=
    match s.nv.crack with
    | some (ser, bi, bo) => if ser = serial ∧ s.rail.relearn = false then (bi, bo) else (0, 0)
    | none => (0, 0)
  let bi := if kept.1 = 0 then baseline (median (loopOf false readings)) else kept.1
  let bo := if kept.2 = 0 then baseline (median (loopOf true readings)) else kept.2
  let s1 := (s.put R.RAIL_CRACK_MEAS_BASE bi 0).put R.RAIL_CRACK_MEAS_BASE bo 1
  { s1 with nv := { s1.nv with crack := some (serial, bi, bo) }, rail := { s1.rail with relearn := false } }

/-- The ACTIVE sends the baselines, which are mirrored, to its MIRROR (R379, R446). -/
def State.crackForward (s : State) : State :=
  if s.isActive then
    [0, 1].foldl (fun (t : State) l =>
      let off := R.RAIL_CRACK_MEAS.base + 0x10 * l
      t.sendPair (.write off (t.word off))) s
  else s

/-- A forwarded baseline of loop `l` (R379, R446): the partner's write of RAIL_CRACK_MEAS sets BASE alone. -/
def State.crackBaseWrite (s : State) (r : Req) (l data : Nat) : State :=
  if r = .partner then s.put R.RAIL_CRACK_MEAS_BASE (data / 65536) l else s

/-! ### Power-off (R365 to R367) -/

/-- The state becomes LOCKED_OFF. -/
def State.railLock (s : State) : State := (s.put R.RAIL_STAT_STATE 5).raise .rail 4

/-- Starts an orderly power-off; `lock`: it ends in LOCKED_OFF. The sequencer launches nothing more (R365). A power-off already
running is unchanged but for where it ends (Table 12.3). -/
def State.railOff (s : State) (lock : Bool) : State :=
  let st := s.get R.RAIL_STAT_STATE
  if st = 0 then (if lock then s.railLock else s)
  else if st = 5 then s
  else if st = 4 then { s with rail := { s.rail with endLocked := s.rail.endLocked || lock } }
  else
    let s1 := s.put R.RAIL_STAT_STATE 4
    { s1 with
      rail := { s1.rail with seq := .waitLines, endLocked := lock, byFault := false, skipDischarge := false, stopped := [] }
      pseq := { s1.pseq with noLaunch := true } }

/-- A crack event with SHUTDOWN outside power-on: the partner is told (R379) and an orderly power-off ends in LOCKED_OFF. -/
def State.crackShutdown (s : State) : State :=
  (if s.isActive then s.sendNotice .panelFault .crack 0 none else s).railOff true

/-! ### Power-on (R363, R364, R372) -/

/-- A power-on request: both loops are measured, then AVDD starts; a SHUTDOWN reading leaves LOCKED_OFF and, in the boot, stops
stage 0x05 (R364). -/
def State.railOn (s : State) (readings : List CrackRead) : State :=
  let s0 := ((s.put R.RAIL_STAT_STATE 1).crackLearn readings).crackForward
  let s1 := { s0 with rail := { s0.rail with standby := false, stopped := [], retryDue := false } }
  let (s2, stop) := s1.crackReadings 0 readings
  if stop then
    let s3 := s2.railLock.alert
    let s4 := { s3 with rail := { s3.rail with seq := .idle } }
    if s4.get R.RST_STAGE_STAGE = 4 then s4.stageFail 5 else s4.recIrq .rail 4
  else { s2 with rail := { s2.rail with seq := .ramp 0 } }

/-- A module in STANDBY brings its rails up in the same order, without crack readings (R372, R379). -/
def State.railStandby (s : State) : State :=
  let s1 := s.put R.RAIL_STAT_STATE 1
  { s1 with rail := { s1.rail with seq := .ramp 0, standby := true, stopped := [] } }

/-- All rails are power-good: ON, or STANDBY for a module that does not hold the drive (Timing 12.1, R372). -/
def State.railsUp (s : State) : State :=
  let up := s.rail.standby
  let s1 := (((s.put R.RAIL_STAT_STATE (if up then 3 else 2)).putB R.RAIL_STAT_DRIVE !up).putB R.RAIL_STAT_VCOM_SW !up).raise .rail 3
  let s2 := { s1 with
    rail := { s1.rail with seq := .idle }
    pseq := { s1.pseq with noLaunch := false, fullDue := true } }
  s2.boot

/-- The rail after rail `ch` in Timing 12.1: AVDD, NAVDD, VGL, VGH, then VCOM ramps and the two lens rails start. -/
def nextRail : Nat → Nat
  | 0 => 1 | 1 => 3 | 3 => 2 | _ => 4

/-- RAIL_POWER_GOOD (R363): the rail awaited is within its accuracy; the next starts. `mv`, `ma`: what the converter measures. -/
def execRailPowerGood (ch : Nat) (mv : Int) (ma : Nat) (s : State) : Out :=
  match s.rail.seq with
  | .ramp c =>
    if ch = c ∨ (c = 4 ∧ ch = 5) then
      let s1 := ((s.put R.RAIL_STAT_PG (Word.setBit (s.get R.RAIL_STAT_PG) ch)).putI R.RAIL_CH_MEAS_MV mv ch).put R.RAIL_CH_MEAS_MA
        (min ma 65535) ch
      let s2 := s1.put R.RAIL_CH_PEAK (max (s1.get R.RAIL_CH_PEAK ch) (min ma 65535)) ch
      if c = 4 then
        .next (if (s2.get R.RAIL_STAT_PG).testBit 4 && (s2.get R.RAIL_STAT_PG).testBit 5 then s2.railsUp else s2)
      else .next { s2 with rail := { s2.rail with seq := .ramp (nextRail c) } }
    else .next s
  | _ => .next s

/-! ### Faults (R369 to R371, R374) -/

/-- Advances the fault counter of a channel for a fault of bit `kind` (Table 12.5). -/
def State.faultCount (s : State) (kind ch : Nat) : State :=
  match kind with
  | 0 => s.bump R.RAIL_CH_FAULTS_UV ch
  | 1 | 2 => s.bump R.RAIL_CH_FAULTS_OC ch
  | 3 => s.bump R.RAIL_CH_FAULTS_OV ch
  | _ => s.bump R.RAIL_CH_FAULTS_TEMP ch

/-- What every rail fault does (R369): its bit, FAULT_INFO naming channel `ch`, the flag, ALERT_N, one entry. -/
def State.faultReport (s : State) (kind ch : Nat) : State :=
  let s1 := s.put R.RAIL_FAULT (Word.setBit (s.get R.RAIL_FAULT) kind)
  let s2 := ((s1.put R.RAIL_FAULT_INFO_CHANNEL ch).put R.RAIL_FAULT_INFO_KIND kind).put R.RAIL_FAULT_INFO_SF (s.sf % 65536)
  (s2.raise .rail 0).alert.recIrq .rail 0

/-- The panel's own fault (R374): the partner faulted on the same channel, this module took over, and less than 100 ms passed. -/
def State.panelFault (s : State) (chs : List Nat) : Bool :=
  match s.rail.partnerFault with
  | some (c, t) => chs.contains c && decide (s.time.raw ≤ t + 100000000)
  | none => false

/-- The discharge is skipped, or ends early (R367): recorded, and the lens rails fall. -/
def State.dischargeSkip (s : State) : State :=
  let s1 := (s.put R.RAIL_STAT_DISCHARGE_SKIPPED 1).recOther R.RAIL_STAT.base
  { s1 with rail := { s1.rail with seq := .off 1 } }

/-- A fault of bit `kind` on channels `chs` at once (Table 12.3: FAULT_INFO names the lowest): fast power-off, or, while a
power-off runs, only the converter stops, and a discharge that needs it ends (R366, R371). The panel's own fault runs the fast power-off with
its discharge, where R367 allows it; another of a paired ACTIVE does without (R374). -/
def State.railFault (s : State) (kind : Nat) (chs : List Nat) : State :=
  let chs := chs.filter (· < 6)
  let st := s.get R.RAIL_STAT_STATE
  if chs = [] ∨ st = 0 ∨ st = 5 then s
  else
    let low := chs.foldl min 5
    let id := s.teph.nextId
    let s1 := (chs.foldl (fun t c => t.faultCount kind c) s).faultReport kind low
    let panel := s.panelFault chs
    let s2 := if panel then s1.put R.RAIL_FAULT_PANEL 1 else s1
    let s3 := s2.put R.RAIL_STAT_PG (chs.foldl Word.clearBit (s2.get R.RAIL_STAT_PG))
    let atLimit := !s.inPair && decide (s.get R.RAIL_RETRY ≤ s.get R.RAIL_STAT_RETRIES)
    let lock := kind = 3 || panel || atLimit
    let s4 := if s.isActive then s3.sendFail (.railFault low) (some id) else s3
    let running : Bool := st = 4
    let s5 := if running then s4 else s4.put R.RAIL_STAT_STATE 4
    let s6 : State := { s5 with
      rail := { s5.rail with
        seq := if running then s5.rail.seq else .waitLines
        byFault := true
        endLocked := s5.rail.endLocked && running || lock
        skipDischarge := (s5.rail.skipDischarge && running) || (s.isActive && !panel)
        stopped := if running then s5.rail.stopped ++ chs else chs
        hot := if kind = 4 then s5.rail.hot ++ chs else s5.rail.hot }
      pseq := { s5.pseq with noLaunch := true, inFlight := s5.pseq.inFlight && running } }
    if s6.rail.seq = .off 0 ∧ [0, 2, 3].any (fun c => chs.contains c) = true then s6.dischargeSkip else s6

/-- RAIL_PG_TIMEOUT (R363): a rail is not power-good within twice its soft-start: an undervoltage fault. -/
def execRailPgTimeout (ch : Nat) (s : State) : Out :=
  match s.rail.seq with
  | .ramp c => .next (if ch = c ∨ (c = 4 ∧ ch = 5) then s.railFault 0 [ch] else s)
  | _ => .next s

/-- RAIL_FAULT_UV (R369): below the threshold for 20 µs while ON (or at the standby level). -/
def execRailFaultUv (chs : List Nat) (s : State) : Out := .next (s.railFault 0 chs)

/-- RAIL_FAULT_OC (R369). -/
def execRailFaultOc (chs : List Nat) (s : State) : Out := .next (s.railFault 1 chs)

/-- RAIL_FAULT_SHORT (R369). -/
def execRailFaultShort (chs : List Nat) (s : State) : Out := .next (s.railFault 2 chs)

/-- RAIL_FAULT_OV (R369): LOCKED_OFF at the end, no retry. -/
def execRailFaultOv (chs : List Nat) (s : State) : Out := .next (s.railFault 3 chs)

/-- RAIL_FAULT_TEMP (R369): the retry waits for the converter to cool. -/
def execRailFaultTemp (chs : List Nat) (s : State) : Out := .next (s.railFault 4 chs)

/-- RAIL_CONVERTER_COOLED (R369): below 120 °C, the automatic retry is allowed again. -/
def execRailConverterCooled (ch : Nat) (s : State) : Out :=
  .next { s with rail := { s.rail with hot := s.rail.hot.filter (· ≠ ch) } }

/-- VCOM_OC (R362): a buffer at 50 mA for 1 ms; the rails stay ON. -/
def execVcomOc (region : Nat) (sink : Bool) (s : State) : Out :=
  if 16 ≤ region then .next s
  else .next (((s.faultReport 5 region).put R.RAIL_VCOM_MA 50 region).putB R.RAIL_VCOM_SINK sink region)

/-! ### Commands (R380, Table 12.3) -/

/-- Whether the panel's rails are the partner's to hold: MIRROR or DETACHED (R372). -/
def State.railGuest (s : State) : Bool := s.isMirror || decide (s.get R.PAIR_STAT_STATE = 5)

/-- RAIL_CMD_ON: power on from OFF; otherwise ignored and recorded. A module that does not hold the drive takes no crack reading and waits
for the panel rails (R372, R379). -/
def execRailCmdOn (r : Req) (key : Nat) (readings : List CrackRead) (s : State) : Out :=
  .next (s.keyed R.RAIL_CMD.base r key 0x0A11 (key * 65536 + 1) (fun t =>
    if t.get R.RAIL_STAT_STATE = 0 then (if t.railGuest then t else t.railOn readings)
    else t.ignored R.RAIL_CMD.base (key * 65536 + 1) r))

/-- RAIL_CMD_OFF: an orderly power-off (R365). -/
def execRailCmdOff (r : Req) (key : Nat) (s : State) : Out :=
  .next (s.keyed R.RAIL_CMD.base r key 0x0A11 (key * 65536 + 2) (fun t => t.railOff false))

/-- RAIL_CMD_RESTART: power on from LOCKED_OFF, measuring the loops first; otherwise ignored and recorded. -/
def execRailCmdRestart (r : Req) (key : Nat) (readings : List CrackRead) (s : State) : Out :=
  .next (s.keyed R.RAIL_CMD.base r key 0x0A11 (key * 65536 + 4) (fun t =>
    if t.get R.RAIL_STAT_STATE = 5 then (if t.railGuest then t.put R.RAIL_STAT_STATE 0 else t.railOn readings)
    else t.ignored R.RAIL_CMD.base (key * 65536 + 4) r))

/-- RAIL_CMD_RELEARN: the baselines are learnt again at the next power-on (R376). -/
def execRailCmdRelearn (r : Req) (key : Nat) (s : State) : Out :=
  .next (s.keyed R.RAIL_CMD.base r key 0x0A11 (key * 65536 + 8) (fun t => { t with rail := { t.rail with relearn := true } }))

/-! ### The power-off sequence (Timing 12.2) -/

/-- Whether the discharge is skipped (R367, R358, R374): AVDD, VGH or VGL faulted or is not power-good, or the partner holds the
drive. -/
def State.dischargeSkipped (s : State) : Bool :=
  s.rail.skipDischarge || [0, 2, 3].any (fun c => s.rail.stopped.contains c || !(s.get R.RAIL_STAT_PG).testBit c) ||
    s.railGuest

/-- DISCHARGE_START (R365): the lines ended or the cap expired; the discharge begins, or is skipped and recorded. -/
def execDischargeStart (atLineEnd : Bool) (s : State) : Out :=
  match s.rail.seq with
  | .waitLines =>
    let s1 := { s with pseq := { s.pseq with inFlight := false, sentBands := if atLineEnd then s.pseq.sentBands else 0 } }
    if s.dischargeSkipped then .next s1.dischargeSkip
    else
      let s2 := s1.put R.RAIL_STAT_DISCHARGE_SKIPPED 0
      .next { s2 with rail := { s2.rail with seq := .off 0 } }
  | _ => .next s

/-- The rails a phase of Timing 12.2 takes to off. -/
def phaseRails : Nat → List Nat
  | 1 => [4, 5] | 3 => [2] | 4 => [3] | 5 => [1] | 6 => [0] | _ => []

/-- The end of the power-off: OFF or LOCKED_OFF; after a fault, unpaired, a retry comes due (R370). -/
def State.railsDown (s : State) : State :=
  let s1 := ((s.put R.RAIL_STAT_PG 0).put R.RAIL_STAT_DRIVE 0).put R.RAIL_STAT_VCOM_SW 0
  let s2 := if s.rail.endLocked then s1.railLock else s1.put R.RAIL_STAT_STATE 0
  let s3 := s2.raise .rail 2
  { s3 with
    rail := { s3.rail with
      seq := .idle
      retryDue := s.rail.byFault && !s.rail.endLocked && !s.inPair
      stopped := [] }
    pseq := { s3.pseq with fullDue := true } }

/-- POWER_OFF_PHASE_END (R366, Timing 12.2): the phase's rail is off and the next falls. -/
def execPowerOffPhaseEnd (s : State) : Out :=
  match s.rail.seq with
  | .off p =>
    let s1 := s.put R.RAIL_STAT_PG ((phaseRails p).foldl Word.clearBit (s.get R.RAIL_STAT_PG))
    let s2 := if p = 2 then s1.put R.RAIL_STAT_VCOM_SW 0 else s1
    .next (if 6 ≤ p then s2.railsDown else { s2 with rail := { s2.rail with seq := .off (p + 1) } })
  | _ => .next s

/-! ### Retries, sharing, the 10 ms timer -/

/-- RAIL_RETRY_TIMER (R370): 1,000 ms after a fault's power-off the rails power on again, a converter that faulted on TEMP having
cooled. -/
def execRailRetryTimer (readings : List CrackRead) (s : State) : Out :=
  if s.rail.retryDue && s.rail.hot.isEmpty && s.get R.RAIL_STAT_STATE = 0 then
    .next ((s.bump R.RAIL_STAT_RETRIES).railOn readings)
  else .next s

/-- RETRY_COUNT_RESET (R370): 60 s ON without a fault. -/
def execRetryCountReset (s : State) : Out :=
  .next (if s.get R.RAIL_STAT_STATE = 2 then s.put R.RAIL_STAT_RETRIES 0 else s)

/-- LOAD_TRANSFER_DONE (R373). -/
def execLoadTransferDone (s : State) : Out :=
  if s.rail.transferDue then
    let s1 := s.raise .rail 5
    .next { s1 with rail := { s1.rail with transferDue := false } }
  else .next s

/-- CRACK_TIMER (R375): while the rails are OFF or ramping, each loop is measured every 10 ms; in a pair only by the module that
holds the drive (R379). While they fall too: Table 12.3 has crack events during a power-off (log entry 12). -/
def execCrackTimer (reading : CrackRead) (outer : Bool) (s : State) : Out :=
  let st := s.get R.RAIL_STAT_STATE
  if (st = 0 ∨ st = 1 ∨ st = 4 ∨ st = 5) ∧ s.railGuest = false ∧ s.rail.standby = false then
    let (s1, stop) := s.crackReading (Word.ofBool outer) reading
    .next (if stop then s1.crackShutdown else s1)
  else .next s

/-- STANDBY_RAIL_SENSE (R372): a module that does not hold the drive senses the panel rails at power-good. -/
def execStandbyRailSense (panelUp : Bool) (s : State) : Out :=
  if panelUp && s.railGuest && s.get R.RAIL_STAT_STATE = 0 then .next s.railStandby
  else .next s

end Sys2Proof.Machine
end

