-- ==== Sys2Proof/Machine/Rst.lean ====
section
/-!
DEFINITION. Asserting reset sources (R32 to R34, R36, R37, R39, R41, Table 2.2).
-/

namespace Sys2Proof.Machine

open Sys2Proof

/-- A source of SYS reach asserts: its RST_CAUSE flag sets. During a load it is held off (R41); while POR or SYS holds it is absorbed
or stays pending; else the ACTIVE module sends the failure notice (R34) and the rail block starts the power-off (R32). -/
def State.sysSource (s : State) (flag : Fld) (cause : NoticeCause) (entry : Option Nat) : State :=
  let s1 := s.put flag 1
  match s1.rst.hold with
  | .por | .sys => s1
  | .load => { s1.put R.RST_CAUSE_LOAD_HELD 1 with rst := { s1.rst with loadHeld := true } }
  | _ =>
    if s1.rst.sysEntering then s1
    else
      let s2 := (s1.sendFail cause entry).railOff false
      { s2 with rst := { s2.rst with sysEntering := true, cause := entry } }

/-- A source of CORE reach asserts: its flag sets; a request for a level in progress is absorbed; else the ACTIVE module sends the
failure notice first (R34). -/
def State.coreSource (s : State) (flag : Fld) (cause : NoticeCause) (entry : Option Nat) : State :=
  let s1 := s.put flag 1
  if s1.rst.hold = .run ∧ s1.rst.coreEntering = false then
    let s2 := s1.sendFail cause entry
    { s2 with rst := { s2.rst with coreEntering := true, cause := entry } }
  else s1

/-- The caretaker requests SYS through RST_REQ and posts SYS_PENDING with a reason (R433, Table 18.4); it records why, and that entry is the
cause of what follows (R570). -/
def State.caretakerSys (s : State) (off reason : Nat) : State :=
  ((s.recOther off).notice 2 reason).sysSource R.RST_CAUSE_SW_SYS .sysEntry (some s.teph.nextId)

end Sys2Proof.Machine
end

