-- ==== Sys2Proof/Machine/PersFile.lean ====
section
/-!
DEFINITION. The personality file (R94 to R109), the signature rule (R531) and the load checks of Table 4.8. A file is read
through a getter: `g off n` is the little-endian value of `n` bytes at file offset `off`.
-/

namespace Sys2Proof.Machine

open Sys2Proof

/-- A file as a getter of little-endian values. -/
abbrev Get := Nat → Nat → Nat

/-- A failed check: code of Table 4.8 and file offset. -/
abbrev Bad := Option (Nat × Nat)

/-- The first of a list of (offset, holds) that does not hold, under a code. -/
def firstBad (code : Nat) (l : List (Nat × Bool)) : Bad := (l.find? (fun p => !p.2)).map (fun p => (code, p.1))

/-- Whether `n` bytes from `off` are all 0. -/
def zeros (g : Get) (off n : Nat) : Bool := g off n = 0

/-! ### Signatures (R531, Table 4.7) -/

/-- The order of the P-384 group (FIPS 186-5, which R531 names). -/
def p384Order : Nat :=
  0xFFFFFFFFFFFFFFFFFFFFFFFFFFFFFFFFFFFFFFFFFFFFFFFFC7634D81F4372DDF581A0DB248B0A77AECEC196ACCC52973

/-- A big-endian value. -/
def beNat (bs : List Byte) : Nat := bs.foldl (fun a b => a * 256 + b.toNat) 0

/-- Bytes [a, a + n) of a list. -/
def slice (bs : List Byte) (a n : Nat) : List Byte := (bs.drop a).take n

/-- The public keys a SIG section names: the Dravuc pair, or an enrolled owner slot that is not closed (R535). -/
def State.sigKeys (s : State) (keySet slot : Nat) : Option (List Byte) :=
  if keySet = 0 then some Config.dravucKeys
  else if keySet = 1 ∧ slot < 4 ∧ s.otp.enrolled.testBit slot = true ∧ s.otp.closed.testBit slot = false then
    (s.otp.ownerKeys.find? (fun p => p.1 = slot)).map (·.2)
  else none

/-- ECDSA: r and s within 1 to n − 1, and the signature verifies. -/
def ecdsaOk (key digest sig : List Byte) : Bool :=
  let r := beNat (slice sig 0 48)
  let t := beNat (slice sig 48 48)
  decide (1 ≤ r ∧ r < p384Order ∧ 1 ≤ t ∧ t < p384Order) && Config.ecdsaVerify key digest sig

/-- HSS: two levels, LM-OTS type 3 and LMS type 6 at each (places by the lengths of R109), and the signature verifies. -/
def hssOk (key digest sig : List Byte) : Bool :=
  decide (beNat (slice sig 0 4) = 1) && decide (beNat (slice sig 8 4) = 3) && decide (beNat (slice sig 2188 4) = 6) &&
    decide (beNat (slice sig 2512 4) = 6) && decide (beNat (slice sig 2516 4) = 3) && decide (beNat (slice sig 2572 4) = 3) &&
    decide (beNat (slice sig 4752 4) = 6) && Config.hssVerify key digest sig

/-- The signature rule: code (0, or 0x06 to 0x09 of Table 4.8) and the place in the SIG section (R110, R531). -/
def State.sigCheck (s : State) (digest sig : List Byte) : Nat × Nat :=
  let ks := (sig.getD 0 0).toNat
  match s.sigKeys ks (sig.getD 1 0).toNat with
  | none => (0x09, if 2 ≤ ks then 0 else 1)
  | some key =>
    let e := ecdsaOk (key.take 96) digest (slice sig 4 96)
    let h := hssOk (key.drop 96) digest (slice sig 104 5076)
    if e && h then (0, 0) else if h then (0x06, 4) else if e then (0x07, 104) else (0x08, 4)

/-! ### Counters of OTP (R537) -/

/-- The value of a counter: that of its highest row whose check bits are valid. -/
def rowValue (rows : List (Option Nat)) : Nat := rows.foldl (fun a r => match r with | some v => v | none => a) 0

/-! ### Header and section table (R95, R97 to R99) -/

/-- A section table entry, with the file offset of the entry. -/
structure Sect where
  at_ : Nat
  typ : Nat
  off : Nat
  len : Nat
  crc : Nat
  deriving DecidableEq, Repr

/-- The section table. -/
def sections (g : Get) : List Sect :=
  (List.range (g 0x28 2)).map (fun i =>
    let a := 0x40 + 16 * i
    ⟨a, g a 4, g (a + 4) 4, g (a + 8) 4, g (a + 12) 4⟩)

/-- The offset of the section of a type; 0 where there is none. -/
def sectOff (g : Get) (typ : Nat) : Nat := ((sections g).find? (fun e => e.typ = typ)).elim 0 (·.off)

/-- The exact LENGTH of a section (Table 4.3). -/
def exactLen (g : Get) (typ off : Nat) : Nat :=
  match typ with
  | 1 => 64 + g off 2 * 4096
  | 2 => 8 + g off 2 * 8
  | 3 => 64 + g off 2 * 16384
  | 4 => 8 + g off 4 * 12
  | 5 => 8 + g off 2 * 4 + g (off + 2) 2 * 2
  | 6 => 64
  | _ => 5180

/-- Table checks of the entries in file order; `seen` the mandatory types so far, `prev` the end of what lies before (R98, R99). -/
def tableEntries (g : Get) (total : Nat) : List Sect → List Nat → Nat → Bad
  | [], _, _ => none
  | e :: rest, seen, prev =>
    let legal := decide (1 ≤ e.typ ∧ e.typ ≤ 7) || decide (0x100 ≤ e.typ ∧ e.typ ≤ 0x1FF)
    let len := decide (e.off + e.len ≤ total) && (decide (7 < e.typ) || decide (e.len = exactLen g e.typ e.off))
    firstBad 0x04 [(e.at_, legal && !seen.contains e.typ), (e.at_ + 4, decide (e.off % 64 = 0 ∧ prev ≤ e.off)),
        (e.at_ + 8, len)] <|>
      tableEntries g total rest (if e.typ ≤ 7 then e.typ :: seen else seen) (e.off + max e.len 1)

/-- BAD_TABLE (R98, R99, Table 4.8). -/
def checkTable (g : Get) : Bad :=
  let n := g 0x28 2
  if n < 7 ∨ 16 < n then some (0x04, 0x28)
  else
    let l := sections g
    let total := g 0x1C 4
    let last := l.getLast?.getD ⟨0, 0, 0, 0, 0⟩
    tableEntries g total l [] (0x40 + 16 * n) <|>
      firstBad 0x04 [(0x28, (List.range 7).all (fun t => l.any (fun e => e.typ = t + 1))), (last.at_, last.typ = 7),
        (last.at_ + 4, last.off + last.len = total), (last.at_ + 12, last.crc = 0),
        (last.off + 1, !(g last.off 1 = 0) || g (last.off + 1) 1 = 0), (last.off + 2, zeros g (last.off + 2) 2),
        (last.off + 100, g (last.off + 100) 4 = 5076)]

/-- BAD_LENGTH, BAD_MAGIC, BAD_FMT (R94, R95, R99). -/
def checkHeader (g : Get) (len : Nat) : Bad :=
  firstBad 0x03 [(0, decide (64 ≤ len ∧ len ≤ 67108864)), (0x1C, g 0x1C 4 = len)] <|>
    firstBad 0x01 [(0, g 0 4 = 0x42504941)] <|>
    firstBad 0x02 [(4, g 4 2 = 1), (0x10, g 0x10 8 / 2 ^ 42 = 0), (0x18, g 0x18 2 / 2 ^ 7 = 0), (0x1A, g 0x1A 1 / 8 = 0),
      (0x1B, g 0x1B 1 / 16 = 0), (0x2A, zeros g 0x2A 22)]

/-! ### Sections (R100 to R108) -/

/-- Whether CONFIG word `i` may hold `v` (R146, Table 5.5). -/
def configOk (i v : Nat) : Bool :=
  if i = 0 then decide (1 ≤ v ∧ v ≤ 255)
  else if i = 1 then decide (v < 4)
  else if i = 2 then decide (2048 ≤ v ∧ v ≤ 4095)
  else if i = 3 then decide (1 ≤ v ∧ v ≤ 8)
  else if i = 4 then decide (v ≤ 63)
  else if i = 5 then decide (1 ≤ v ∧ v ≤ 32)
  else if 8 ≤ i ∧ i ≤ 39 then true
  else v = 0

/-- The offset of frame `c` of the TILECFG section. -/
def frameOff (tcfg c : Nat) : Nat := tcfg + 64 + c * 4096

/-- One frame against R100 and R146. -/
def checkFrame (g : Get) (tcfg c : Nat) : Bad :=
  let f := frameOff tcfg c
  firstBad 0x0B [(f, g f 2 = c), (f + 2, g (f + 2) 2 = 1), (f + 4, zeros g (f + 4) 4)] <|>
    firstBad 0x0B ((List.range 62).map (fun i => (f + 8 + 4 * i, configOk i (g (f + 8 + 4 * i) 4)))) <|>
    firstBad 0x0B ((List.range 31).map (fun i =>
      let a := f + 0xF00 + 8 * i
      (a, decide (g a 2 + g (a + 2) 2 ≤ 1024)))) <|>
    firstBad 0x0B [(f + 0xFF8, zeros g (f + 0xFF8) 4)]

/-- BAD_TILECFG. -/
def checkTilecfg (g : Get) : Bad :=
  let o := sectOff g 1
  let n := g o 2
  firstBad 0x0B [(o, decide (1 ≤ n ∧ n ≤ 384)), (o + 2, zeros g (o + 2) 62)] <|> (List.range n).findSome? (checkFrame g o)

/-- A route of the ROUTE section: source function and port, virtual channel, destination function and port. -/
structure Route where
  src : Nat
  out : Nat
  vc : Nat
  dst : Nat
  inp : Nat
  deriving DecidableEq, Repr

/-- Route `i` of the section at `o`. -/
def routeAt (g : Get) (o i : Nat) : Route :=
  let a := o + 8 + 8 * i
  ⟨g a 2, g (a + 2) 1, g (a + 3) 1, g (a + 4) 2, g (a + 6) 1⟩

/-- The routes of a file. -/
def routes (g : Get) : List Route := let o := sectOff g 2; (List.range (g o 2)).map (routeAt g o)

/-- Whether a value names a function or a named endpoint (R101). -/
def funcOk (n f : Nat) : Bool := decide (f < n) || decide (0xFF00 ≤ f ∧ f ≤ 0xFF17) || decide (f = 0xFFF0)

/-- Route `i` against R101, with the routes before it. -/
def checkRouteAt (g : Get) (o nf i : Nat) : Bad :=
  let a := o + 8 + 8 * i
  let r := routeAt g o i
  let before := (List.range i).map (routeAt g o)
  firstBad 0x0C [(a, funcOk nf r.src && !before.any (fun q => q.src = r.src && q.out = r.out)), (a + 2, r.out ≤ 7),
    (a + 3, r.vc ≤ 3), (a + 4, funcOk nf r.dst && !before.any (fun q => q.dst = r.dst && q.inp = r.inp)), (a + 6, r.inp ≤ 7),
    (a + 7, zeros g (a + 7) 1)]

/-- BAD_ROUTE. -/
def checkRoute (g : Get) : Bad :=
  let o := sectOff g 2
  let n := g o 2
  firstBad 0x0C [(o, decide (n ≤ 3072)), (o + 2, zeros g (o + 2) 6)] <|>
    (List.range n).findSome? (checkRouteAt g o (g (sectOff g 5) 2))

/-- A dispatch entry for tag `t` against R102 and R103. -/
def entryOk (t e : Nat) : Bool :=
  decide (e % 256 ≤ 3) && decide (e / 256 % 1024 ≤ 895) && decide (e / 2 ^ 21 = 0) && (decide (t < 0xFF0) || decide (e = 0))

/-- BAD_DISPATCH. -/
def checkDispatch (g : Get) : Bad :=
  let o := sectOff g 3
  let n := g (sectOff g 1) 2
  firstBad 0x0D [(o, g o 2 = n), (o + 2, zeros g (o + 2) 62)] <|>
    (List.range n).findSome? (fun c => firstBad 0x0D ((List.range 4096).map (fun t =>
      let a := o + 64 + c * 16384 + 4 * t
      (a, entryOk t (g a 4)))))

/-- BAD_PRESET (R104). -/
def checkPreset (g : Get) : Bad :=
  let o := sectOff g 4
  let n := g o 4
  firstBad 0x0E [(o, decide (n ≤ 4096)), (o + 4, zeros g (o + 4) 4)] <|>
    (List.range n).findSome? (fun i =>
      let a := o + 8 + 12 * i
      firstBad 0x0E [(a, decide (g a 4 % 4 = 0 ∧ 0x080400 ≤ g a 4 ∧ g a 4 ≤ 0x0804FC))])

/-- The presets of a file: offset, mask, value, in file order. -/
def presets (g : Get) : List (Nat × Nat × Nat) :=
  let o := sectOff g 4
  (List.range (g o 4)).map (fun i => let a := o + 8 + 12 * i; (g a 4, g (a + 4) 4, g (a + 8) 4))

/-- Functions of PLACE, in order: tile and class. -/
def placeFuncs (g : Get) : List (Nat × Nat) :=
  let o := sectOff g 5
  (List.range (g o 2)).map (fun i => (g (o + 8 + 4 * i) 2, g (o + 10 + 4 * i) 2))

/-- The spare list of PLACE. -/
def placeSpares (g : Get) : List Nat :=
  let o := sectOff g 5
  (List.range (g (o + 2) 2)).map (fun i => g (o + 8 + 4 * g o 2 + 2 * i) 2)

/-- HEALTH_THRESH and SPARE_POLICY of PLACE. -/
def placeThresh (g : Get) : Nat := g (sectOff g 5 + 4) 2
def placePolicy (g : Get) : Nat := g (sectOff g 5 + 6) 1

/-- BAD_PLACE (R107). -/
def checkPlace (g : Get) : Bad :=
  let o := sectOff g 5
  let nf := g o 2
  let ns := g (o + 2) 2
  let cc := g (sectOff g 1) 2
  firstBad 0x0F [(o, decide (1 ≤ nf ∧ nf ≤ 384)), (o + 2, decide (ns ≤ 16)), (o + 4, decide (1 ≤ g (o + 4) 2 ∧ g (o + 4) 2 ≤ 255)),
      (o + 6, decide (g (o + 6) 1 ≤ 1)), (o + 7, zeros g (o + 7) 1)] <|>
    (let fs := placeFuncs g
     let sp := placeSpares g
     firstBad 0x0F ((List.range nf).flatMap (fun i =>
        let t := (fs.getD i (0, 0)).1
        let a := o + 8 + 4 * i
        [(a, decide (t < 400) && !(fs.take i).any (fun p => p.1 = t)), (a + 2, decide ((fs.getD i (0, 0)).2 < cc))])) <|>
      firstBad 0x0F ((List.range ns).map (fun i =>
        let t := sp.getD i 0
        (o + 8 + 4 * nf + 2 * i, decide (t < 400) && !fs.any (fun p => p.1 = t) && !(sp.take i).contains t))))

/-- NEEDS_STATIC (Table 4.6), against the module's revision and firmware version. -/
def checkNeeds (g : Get) (base metal fw : Nat) : Bad :=
  let o := sectOff g 6
  firstBad 0x10 [(o + 4, decide (g (o + 4) 4 ≤ 2048)), (o + 0xC, decide (1 ≤ g (o + 0xC) 2 ∧ g (o + 0xC) 2 ≤ 48)),
    (o + 0xE, decide (g (o + 0xE) 1 ≤ base)), (o + 0xF, !(g (o + 0xE) 1 = base) || decide (g (o + 0xF) 1 ≤ metal)),
    (o + 0x10, decide (g (o + 0x10) 4 ≤ fw)), (o + 0x14, zeros g (o + 0x14) 44)]

/-- SECT_CRC: section CRCs in file order, then frame FCRCs (R97, R100). `crc a n` is the CRC-32C of `n` bytes at `a`. -/
def checkCrc (g : Get) (crc : Nat → Nat → Nat) : Bad :=
  firstBad 0x05 (((sections g).filter (fun e => e.typ ≠ 7)).map (fun e => (e.off, decide (crc e.off e.len = e.crc)))) <|>
    (let o := sectOff g 1
     firstBad 0x05 ((List.range (g o 2)).map (fun c =>
       let f := frameOff o c
       (f, decide (crc f 0xFFC = g (f + 0xFFC) 4)))))

/-- The file of length `len` at DRAM address `a`, as a getter. -/
def State.fileAt (s : State) (a : Nat) : Get := fun off n => s.readLe (a + off) n

/-- The file in a slot. -/
def State.slotFile (s : State) (slot : Nat) : Get := s.fileAt (s.slotArea slot)

/-- The checks of Table 4.8 after REGION, over a file of `len` bytes at `a`: the first that fails. -/
def State.checkFile (s : State) (a len : Nat) : Bad :=
  let g := s.fileAt a
  checkHeader g len <|> checkTable g <|> checkCrc g (fun o n => crc32cB (s.readBytes (a + o) n)) <|>
    (let so := sectOff g 7
     let r := s.sigCheck (Config.sha384 (s.readBytes a so)) (s.readBytes (a + so) 5180)
     if r.1 = 0 then none else some (r.1, so + r.2)) <|>
    firstBad 0x0A [(0x20, decide (rowValue s.otp.persRows ≤ g 0x20 8))] <|>
    checkTilecfg g <|> checkRoute g <|> checkDispatch g <|> checkPreset g <|> checkPlace g <|>
    checkNeeds g (s.get R.CTL_REV_BASE) (s.get R.CTL_REV_METAL) (s.get R.CARE_STAT_FW_VER)

/-! ### NEEDS at activation (R108) and coverage (R95) -/

/-- DRAM_MIB + SINTER_MIB, BW_X10 and MIN_CHANNELS of a file. -/
def needMib (g : Get) : Nat := let o := sectOff g 6; g o 4 + g (o + 4) 4
def needBw (g : Get) : Nat := g (sectOff g 6 + 8) 4
def needChannels (g : Get) : Nat := g (sectOff g 6 + 0xC) 2

/-! ### The baseline personality (R606) -/

/-- Whether a file is a baseline personality of firmware whose BASE_SVN is `svn`: the properties of R606. -/
def isBaseline (g : Get) (svn : Nat) : Bool :=
  let need := sectOff g 6
  decide (g 8 8 = 0x0000096000000001 ∧ g 0x10 8 = 0x3FFFFFFFFFF ∧ g 0x18 2 = 0x7F ∧ g 0x1A 1 = 2 ∧ g 0x1B 1 = 0xF ∧ g 0x20 8 = svn) &&
    decide (g (sectOff g 7) 1 = 0 ∧ (placeFuncs g).map (·.1) = List.range 384 ∧ placeSpares g = (List.range 16).map (384 + ·)) &&
    decide (placePolicy g = 0 ∧ placeThresh g = 16) &&
    (List.range (g (sectOff g 1) 2)).all (fun c => g (frameOff (sectOff g 1) c + 16) 4 = 4064) &&
    decide (g need 4 = 0 ∧ g (need + 4) 4 = 1024 ∧ g (need + 8) 4 = 4320 ∧ g (need + 0xC) 2 = 44 ∧ g (need + 0xE) 2 = 1 ∧ g (need + 0x10) 4 = 0)

end Sys2Proof.Machine
end

