-- ==== Sys2Proof/Machine/Mesh.lean ====
section
/-!
DEFINITION. Tiles, configuration planes, the mesh and the fetch ports (R113, R130 to R141): what a tile holds, route ports through a
placement, how a token travels, and the boundary tokens of the sources.
-/

namespace Sys2Proof.Machine

open Sys2Proof

/-! ### Tiles -/

/-- A tile that is idle and empty. -/
def idleTile : TileRt :=
  ⟨none, none, [], [], [], [], [], [], [], [], [], [], [], 0, 0, 0, none, 0, 0, false, false, false, false, false, none⟩

/-- What an unlisted tile is. -/
def tileDefault (_ : Nat) : TileRt := idleTile

/-- Tile `n` beside its registers. -/
def State.tile (s : State) (n : Nat) : TileRt := Sparse.get tileDefault s.fab.tiles n

/-- Sets tile `n`. -/
def State.setTile (s : State) (n : Nat) (t : TileRt) : State :=
  { s with fab := { s.fab with tiles := Sparse.set tileDefault s.fab.tiles n t } }

/-! ### Fetch ports (R132) -/

/-- A fetch port without routes, empty. -/
def idleFetch : FetchPt := ⟨[], [], [], [], false, none⟩

/-- What an unlisted fetch port is. -/
def fetchDefault (_ : Nat) : FetchPt := idleFetch

/-- Fetch port `p`. -/
def State.fetchPt (s : State) (p : Nat) : FetchPt := Sparse.get fetchDefault s.fab.fetch p

/-- Sets fetch port `p`. -/
def State.setFetch (s : State) (p : Nat) (f : FetchPt) : State :=
  { s with fab := { s.fab with fetch := Sparse.set fetchDefault s.fab.fetch p f } }

/-- The edge tiles the 24 fetch ports attach to, in port order (Table 5.2; tile 20 × row + column). -/
def fetchTiles : List Nat :=
  [1, 4, 7, 12, 15, 18, 39, 99, 159, 259, 319, 379, 398, 395, 392, 387, 384, 381, 360, 300, 240, 140, 80, 20]

/-- The fetch port that serves a DRAM channel (R132). -/
def fetchOfChannel (ch : Nat) : Nat := ch / 2

/-! ### Placements and planes (R101, R113, R115, R136) -/

/-- Where a route leads under a placement: its endpoint, or the tile that holds its function. -/
def routePort (place : List (Nat × Nat)) (r : Route) : RoutePort :=
  ⟨r.out, if 0xFF00 ≤ r.dst then r.dst else ((place.find? (fun p => p.1 = r.dst)).map (·.2)).getD 0xFFFF, r.inp, r.vc⟩

/-- The class of a function of a slot. -/
def State.classOf (s : State) (slot f : Nat) : Nat := ((placeFuncs (s.slotFile slot)).getD f (0, 0)).2

/-- The plane of function `f` of a slot under a placement: the frame and dispatch table of its class, the route ports of the function. -/
def State.planeFor (s : State) (slot : Nat) (place : List (Nat × Nat)) (f : Nat) : Plane :=
  let g := s.slotFile slot
  let c := s.classOf slot f
  let a := frameOff (sectOff g 1) c
  { slot := slot, func := f, cls := c
    config := (List.range 62).map (fun i => g (a + 8 + 4 * i) 4)
    prog := (List.range 896).map (fun i => g (a + 0x100 + 4 * i) 4)
    init := (List.range 31).map (fun i => (g (a + 0xF00 + 8 * i) 2, g (a + 0xF02 + 8 * i) 2, g (a + 0xF04 + 8 * i) 4))
    table := (List.range 4096).map (fun t => g (sectOff g 3 + 64 + c * 16384 + 4 * t) 4)
    outs := ((routes g).filter (fun r => r.src = f)).map (routePort place)
    ins := ((routes g).filter (fun r => r.dst = f)).map (·.inp) }

/-- The route ports of fetch port `p` of a slot under a placement. -/
def State.fetchOuts (s : State) (slot : Nat) (place : List (Nat × Nat)) (p : Nat) : List RoutePort :=
  ((routes (s.slotFile slot)).filter (fun r => r.src = 0xFF00 + p)).map (routePort place)

/-- CONFIG word `i` of a plane (Table 5.5). -/
def Plane.configWord (p : Plane) (i : Nat) : Nat := p.config.getD i 0

/-- The dispatch entry of a plane for a tag (Table 4.5). -/
def Plane.entry (p : Plane) (tag : Nat) : Nat := p.table.getD tag 0

/-- The instruction at `pc` of a plane's program store; outside its 896 words the spec states none: a free value. -/
def State.program (s : State) (p : Plane) (pc : Nat) : Nat := if pc < 896 then p.prog.getD pc 0 else s.freeNat 32

/-- Route ports that led to tile `a` lead to tile `b`. -/
def reroute (a b : Nat) (l : List RoutePort) : List RoutePort := l.map (fun r => if r.dst = a then { r with dst := b } else r)

/-- A plane whose route ports are led anew. -/
def Plane.reroute (p : Plane) (a b : Nat) : Plane := { p with outs := Machine.reroute a b p.outs }

/-! ### The mesh (R136 to R139) -/

/-- The steps from `a` to `b` in one direction, both ends included. -/
def walk (a b : Nat) : List Nat := if a ≤ b then (List.range (b - a + 1)).map (a + ·) else (List.range (a - b + 1)).map (a - ·)

/-- The routers between two tiles: first along the row to the destination's column, then along that column (R136). -/
def meshPath (a b : Nat) : List Nat :=
  (walk (a % 20) (b % 20)).map (20 * (a / 20) + ·) ++ ((walk (a / 20) (b / 20)).drop 1).map (fun r => 20 * r + b % 20)

/-- Whether a virtual channel of an input has a credit left: 16 flits, those on their way counted (R130, R139). -/
def State.room (s : State) (d port vc : Nat) : Bool :=
  let t := s.tile d
  let mine (q : Nat × Token) : Bool := decide (q.1 = port ∧ q.2.vc = vc)
  decide ((t.buf.filter mine).length + (t.spareHeld.filter mine).length +
    (s.fab.mesh.filter (fun f => decide (f.dst = d ∧ f.port = port ∧ f.tok.vc = vc))).length < 16)

/-- Whether a route port has room at its end. The output stage and the fetch ports take what comes: Table 5.1 gives them no buffer. -/
def State.routeRoom (s : State) (r : RoutePort) : Bool := decide (400 ≤ r.dst) || s.room r.dst r.inp r.vc

/-- A fetch port takes a read request with the tile that issued it (R133); boundary tokens are no requests. -/
def State.fetchRequest (s : State) (p src : Nat) (tok : Token) : State :=
  if 24 ≤ p ∨ 0xFF0 ≤ tok.tag then s
  else s.setFetch p { s.fetchPt p with queue := (s.fetchPt p).queue ++ [.request src tok] }

/-- A token leaves tile `start` on a route port, sent by `src`: over the mesh to a tile, to a fetch port, or through the ray output port
straight to the row-band buffers (R137). -/
def State.travel (s : State) (src start : Nat) (r : RoutePort) (tok : Token) : State :=
  let t : Token := { tok with vc := r.vc }
  if r.dst = 0xFFF0 then { s with fab := { s.fab with rayOut := s.fab.rayOut ++ [(src, t)] } }
  else if 0xFF00 ≤ r.dst then s.fetchRequest (r.dst - 0xFF00) src t
  else { s with fab := { s.fab with mesh := s.fab.mesh ++ [⟨src, r.dst, r.inp, t, meshPath start r.dst⟩] } }

/-- Sends a token from a tile's output port along its route port; none while the port waits for room (R138, R139). A port without a route
leads nowhere (log entry 88). -/
def State.sendToken (s : State) (n : Nat) (p : Plane) (port : Nat) (tok : Token) : Option State :=
  if (s.tile n).outq.any (fun q => q.1.out = port) then none
  else
    match p.outs.find? (fun r => r.out = port) with
    | none => some (s.emit (.token n port [tok.tag, tok.vc, Word.ofBool tok.poison, tok.payload]))
    | some r => if s.routeRoom r then some (s.travel n n r tok) else none

/-- Sends a fabric token on a route port of a tile; without room it waits at the port, and nothing passes it (R138, R139). -/
def State.sendQueued (s : State) (n : Nat) (r : RoutePort) (tok : Token) : State :=
  let t := s.tile n
  if t.outq.any (fun q => q.1.out = r.out) || !s.routeRoom r then s.setTile n { t with outq := t.outq ++ [(r, tok)] }
  else s.travel n n r tok

/-- Sends a fabric token on every output port of a plane. -/
def State.sendFabric (s : State) (n : Nat) (p : Plane) (tag payload : Nat) : State :=
  p.outs.foldl (fun t r => t.sendQueued n r ⟨tag, 0, false, payload⟩) s

/-- Tokens that waited at a tile's output ports go as far as there is room, in their order. -/
def State.flushOut (s : State) (n : Nat) : State :=
  let q := (s.tile n).outq
  q.foldl (fun t x => t.sendQueued n x.1 x.2) (s.setTile n { s.tile n with outq := [] })

/-! ### What a fetch port sends (R119, R133, R140) -/

/-- The migrations whose redirect lies at the boundary of subframe `sf` (R158). -/
def State.redirectsAt (s : State) (sf : Nat) : List Mig := s.fab.migs.filter (fun m => m.step = .drain && m.sf = sf)

/-- The route ports a source or a tile has once it has sent the boundary token of subframe `sf` (R158). -/
def State.routesAfter (s : State) (sf : Nat) (l : List RoutePort) : List RoutePort :=
  (s.redirectsAt sf).foldl (fun a m => reroute m.tile m.spare a) l

/-- A fetch port sends a token on a route port, or keeps it while there is no room. -/
def State.fetchSend (s : State) (p : Nat) (r : RoutePort) (tok : Token) : State :=
  let f := s.fetchPt p
  if f.outq.any (fun q => q.1.out = r.out) || !s.routeRoom r then s.setFetch p { f with outq := f.outq ++ [(r, tok)] }
  else s.travel (400 + p) (fetchTiles.getD p 0) r tok

/-- A fetch port sends a boundary token on every route port, changes the ports a redirect leads elsewhere, and swaps when it owes a swap. -/
def State.fetchMark (s : State) (p tag payload sf : Nat) : State :=
  let s1 := (s.fetchPt p).outs.foldl (fun t r => t.fetchSend p r ⟨tag, 0, false, payload⟩) s
  let f := s1.fetchPt p
  let f1 : FetchPt := { f with seen := some sf }
  if tag = 0xFFF ∧ f.swapDue = true then s1.setFetch p { f1 with outs := f.next, next := s1.routesAfter sf f.outs, swapDue := false }
  else s1.setFetch p { f1 with outs := s1.routesAfter sf f.outs }

/-- A fetch port sends the boundary tokens that stand at its head. -/
def State.fetchMarks (s : State) (p : Nat) : Nat → State
  | 0 => s
  | k + 1 =>
    match (s.fetchPt p).queue with
    | .mark tag payload sf :: rest => ((s.setFetch p { s.fetchPt p with queue := rest }).fetchMark p tag payload sf).fetchMarks p k
    | _ => s

/-- A fetch port goes on: what waited for room, then the boundary tokens at its head. -/
def State.fetchRun (s : State) (p : Nat) : State :=
  let q := (s.fetchPt p).outq
  let s1 := q.foldl (fun t x => t.fetchSend p x.1 x.2) (s.setFetch p { s.fetchPt p with outq := [] })
  s1.fetchMarks p (s1.fetchPt p).queue.length

/-- Every token source sends the boundary token of the subframe `sf` that the fabric begins, after its last token of the one before (R119,
R140): the fetch ports behind the requests they hold, and the intake. -/
def State.sourceTokens (s : State) (tag payload sf : Nat) : State :=
  let s1 := s.emit (.intakeToken tag payload)
  (List.range 24).foldl (fun t p =>
    let f := t.fetchPt p
    if f.outs.isEmpty && !f.swapDue then t
    else (t.setFetch p { f with queue := f.queue ++ [.mark tag payload sf] }).fetchRun p) s1

/-- A fetch port poisons the tokens it holds (R134). -/
def State.fetchPoison (s : State) (p : Nat) : State :=
  let f := s.fetchPt p
  s.setFetch p { f with
    queue := f.queue.map (fun x => match x with | .request n t => .request n { t with poison := true } | y => y)
    outq := f.outq.map (fun x => if x.2.tag < 0xFF0 then (x.1, { x.2 with poison := true }) else x) }

/-- The reply of fetch port `p` to its oldest request (R133): it goes to the tile that issued the request, on the route port that leads to
that tile, else to the port named; the last token of the reply ends the request. A poisoned request's reply carries POISON, and so does
every reply while the controller of the port's channels is frozen (R408, R431). None when another tile's request is the oldest, or there is
no room. -/
def State.fetchReply (s : State) (n port p : Nat) (tok : Token) (last : Bool) : Option State :=
  let f := s.fetchPt p
  match f.queue with
  | .request t q :: rest =>
    let r : RoutePort := (f.outs.find? (fun r => r.dst = n)).getD ⟨8, n, port, tok.vc⟩
    if t = n ∧ r.inp = port ∧ f.outq.isEmpty = true ∧ s.room n r.inp r.vc = true then
      let s1 := s.travel (400 + p) (fetchTiles.getD p 0) r { tok with poison := tok.poison || q.poison || decide (s.get R.MEM_C_STAT_STATE (p / 4) = 5) }
      some (if last then (s1.setFetch p { s1.fetchPt p with queue := rest }).fetchRun p else s1)
    else none
  | _ => none

/-! ### Arrival (R138, R159) -/

/-- Takes the oldest flit on its way to a port that `ok` admits, with the rest of the mesh. -/
def takeFlit (ok : Flit → Bool) : List Flit → Option (Flit × List Flit)
  | [] => none
  | f :: l => if ok f then some (f, l) else (takeFlit ok l).map (fun p => (p.1, f :: p.2))

/-- Whether a tile's port holds what a source sends behind a drain marker (R159). -/
def TileRt.waitsFor (t : TileRt) (port src : Nat) : Bool := t.drainWait.any (fun q => q.1 = port && q.2 = src)

/-- A flit reaches its port: behind what the port has received, or with the spare's tokens while the drain marker is awaited. A tile
without a plane has no input: what reaches it is lost with its function. -/
def State.land (s : State) (f : Flit) : State :=
  let t := s.tile f.dst
  if t.waitsFor f.port f.src then s.setTile f.dst { t with spareHeld := t.spareHeld ++ [(f.port, f.tok)] }
  else if t.active.isNone then s
  else s.setTile f.dst { t with buf := t.buf ++ [(f.port, f.tok)] }

/-- The oldest flit for a port arrives, when it is of the kind `ok`; none when another stands before it. Flits of a spare that wait behind a
drain marker come as soon as they can. -/
def State.arrive (s : State) (n port : Nat) (ok : Token → Bool) : Option State :=
  match takeFlit (fun f => decide (f.dst = n ∧ f.port = port)) s.fab.mesh with
  | some (f, rest) => if ok f.tok then some (({ s with fab := { s.fab with mesh := rest } } : State).land f) else none
  | none => none

end Sys2Proof.Machine
end

