-- ==== Sys2Proof/Machine/Pers.lean ====
section
/-!
DEFINITION. Personalities (spec/04) and the moves of functions between tiles (spec/05, R148, R154 to R167): slots, loads,
preloads, activation requests, spares and migrations.
-/

namespace Sys2Proof.Machine

open Sys2Proof

/-! ### Tile registers -/

/-- FAB_TILE[n].STAT.STATE: 0 IDLE, 1 ACTIVE, 2 SPARE, 3 MIGRATING, 4 SINK, 5 RETIRED. -/
def State.tileState (s : State) (n : Nat) : Nat := s.get R.FAB_TILE_STAT_STATE n

/-- Counts the tiles in service into FAB_STAT.ACTIVE_TILES. -/
def State.countTiles (s : State) : State :=
  s.put R.FAB_STAT_ACTIVE_TILES ((List.range 400).filter (fun n => s.tileState n = 1 || s.tileState n = 3 || s.tileState n = 4)).length

/-- Sets a tile's state, function and class registers (Table 5.10). -/
def State.setStat (s : State) (n st func cls : Nat) : State :=
  (((s.put R.FAB_TILE_STAT_STATE st n).put R.FAB_TILE_STAT_FUNC func n).put R.FAB_TILE_STAT_CLASS cls n)

/-- A FAB_TILE[n].EVENT bit sets, with FAB_IRQ_STATUS.TILE_EVENT. -/
def State.tileEvent (s : State) (n bit : Nat) : State :=
  (s.put R.FAB_TILE_EVENT (Word.setBit (s.get R.FAB_TILE_EVENT n) bit) n).raise .fab 2

/-! ### Budgets and clocks (R19, R26, R150, R166, R557) -/

/-- The profile in effect: 0 PEAK, 1 BALANCED, 2 FRUGAL. -/
def State.profile (s : State) : Nat := s.get R.VIEW_MODE_EFF_MODE / 256

/-- The plane budget of a profile (Table 1.3). -/
def profileBudget (p : Nat) : Nat := if p = 0 then 64 else if p = 1 then 32 else 12

/-- One profile step below a budget, 12 the floor (R26). -/
def stepDown (b : Nat) : Nat := if 32 < b then 32 else 12

/-- round(a / b) to the nearest, halves up. -/
def roundDiv (a b : Nat) : Nat := (2 * a + b) / (2 * b)

/-- A budget lowered at throttle level `x` (R557). -/
def throttled (p x : Nat) : Nat := p - roundDiv (x * (p - 12)) 64

/-- The budget every tile has before its own overruns: the smallest of R557 and R166, never below 12. -/
def State.baseBudget (s : State) : Nat :=
  let p := profileBudget s.profile
  max 12 (min (throttled p s.thm.level) (if s.flag R.FAB_STAT_DEGRADED then stepDown p else p))

/-- The budget of tile `n`. -/
def State.tileBudget (s : State) (n : Nat) : Nat :=
  match (s.tile n).lowered with
  | some b => min s.baseBudget b
  | none => s.baseBudget

/-- The clock target in MHz (R150, R557): PEAK from 1,450, BALANCED 1,250, FRUGAL 750. -/
def State.clockTarget (s : State) : Nat :=
  let f := if s.profile = 0 then 1450 else if s.profile = 1 then 1250 else 750
  f - Word.cdiv (s.thm.level * (f - 600)) 64

/-- Writes BUDGET and CLK.TARGET of every tile in service. -/
def State.applyBudgets (s : State) : State :=
  (List.range 400).foldl (fun t n =>
    if t.tileState n = 1 ∨ t.tileState n = 3 ∨ t.tileState n = 4 then
      (t.put R.FAB_TILE_BUDGET (t.tileBudget n) n).put R.FAB_TILE_CLK_TARGET t.clockTarget n
    else t) s

/-! ### The grid (R322) -/

/-- The launch instant of subframe `n` of the grid in effect. -/
def State.gridTime (s : State) (n : Nat) : Int :=
  s.pseq.grid + Int.fdiv (2 * ((n * 1000000000 * s.pseq.rateDen : Nat) : Int) + s.pseq.rateNum) ((2 * s.pseq.rateNum : Nat) : Int)

/-- The first grid index, not below the next one due, whose launch lies at or after `t`, and which is a multiple of `m`. -/
def State.gridFrom (s : State) (t : Int) (m : Nat) : Nat :=
  let guess := ((t - s.pseq.grid) * s.pseq.rateNum / ((1000000000 * s.pseq.rateDen : Nat) : Int) - 1).toNat
  let start := max guess s.pseq.next
  let up := (start + m - 1) / max 1 m * m
  ((List.range 8).map (fun k => up + k * m)).find? (fun n => decide (t ≤ s.gridTime n)) |>.getD up

/-- The grid index of the light-field frame boundary a pending activation applies at (R116, R117, R605). -/
def State.actIndex (s : State) (p : PendAct) : Nat :=
  s.gridFrom (max (p.notBefore : Int) (match p.at_ with | some t => (t : Int) | none => 0)) s.pseq.phases

/-! ### Spares (R107, R157) -/

/-- Mesh hops between two tiles. -/
def hops (a b : Nat) : Nat :=
  (max (a / 20) (b / 20) - min (a / 20) (b / 20)) + (max (a % 20) (b % 20) - min (a % 20) (b % 20))

/-- The spare a policy takes for a tile: the first listed, or the nearest with ties in list order. -/
def pickSpare (policy tile : Nat) (l : List Nat) : Option Nat :=
  if policy = 0 then l.head?
  else l.foldl (fun a n => match a with | none => some n | some m => if hops tile n < hops tile m then some n else a) none

/-- Whether a tile is the spare of a migration in progress. -/
def State.isTarget (s : State) (n : Nat) : Bool := s.fab.migs.any (fun m => m.spare = n && m.step ≠ .deferred)

/-- The spares of a slot's list neither retired, used by a placement nor taken by a migration in progress (R157). -/
def State.usableSpares (s : State) (slot : Nat) (place : List (Nat × Nat)) : List Nat :=
  (placeSpares (s.slotFile slot)).filter (fun n => !(s.tileState n = 5) && !place.any (fun p => p.2 = n) && !s.isTarget n)

/-- The active slot. -/
def State.activeSlot (s : State) : Nat := s.get R.PERS_STATE_ACTIVE_SLOT

/-- Brings PERS_STATE.SPARES_LEFT up to date: a spare is used once its migration has completed (R161). -/
def State.countSpares (s : State) : State :=
  if s.flag R.PERS_STATE_ACTIVE_VALID then
    s.put R.PERS_STATE_SPARES_LEFT ((placeSpares (s.slotFile s.activeSlot)).filter (fun n =>
      !(s.tileState n = 5) && (!s.pers.act.any (fun p => p.2 = n) || s.isTarget n))).length
  else s

/-- Retires a tile (R114): idle plane, state RETIRED, counted in PERS_STATE.RETIRED. -/
def State.retire (s : State) (n : Nat) : State :=
  if s.tileState n = 5 then s
  else
    let s1 := (s.setStat n 5 0x3FF 0x1FF).put R.PERS_STATE_RETIRED (s.get R.PERS_STATE_RETIRED + 1)
    ((s1.setTile n { idleTile with dead := (s.tile n).dead, outq := (s.tile n).outq }).countTiles).countSpares

/-- Remembers that the work of `n` moved to `m` (R114). -/
def State.noteMove (s : State) (n m : Nat) : State :=
  { s with pers := { s.pers with
      moved := (n, m) :: ((s.pers.moved.filter (fun p => p.1 ≠ n)).map (fun p => if p.2 = n then (p.1, m) else p)) } }

/-- A slot's placement with every retired tile replaced (R114); none when the retired tiles outnumber the spares. -/
def State.placement (s : State) (slot : Nat) : Option (List (Nat × Nat)) :=
  let g := s.slotFile slot
  let fs := (placeFuncs g).map (·.1)
  let sp := placeSpares g
  let bad := (List.range 400).filter (fun n => s.tileState n = 5 && fs.contains n)
  let same := bad.foldl (fun (l : List (Nat × Nat)) n =>
    match s.pers.moved.find? (fun p => p.1 = n) with
    | some p => if sp.contains p.2 && !(s.tileState p.2 = 5) && !l.any (fun q => q.2 = p.2) then l ++ [p] else l
    | none => l) []
  let free := sp.filter (fun n => !(s.tileState n = 5) && !same.any (fun p => p.2 = n))
  let rest := bad.filter (fun n => !same.any (fun p => p.1 = n))
  let r := rest.foldl (fun (acc : Option (List (Nat × Nat) × List Nat)) n =>
    match acc with
    | none => none
    | some (m, l) =>
      match pickSpare (placePolicy g) n l with
      | none => none
      | some k => some ((n, k) :: m, l.filter (· ≠ k))) (some (same, free))
  match r with
  | none => none
  | some (m, _) =>
    some ((List.range fs.length).map (fun f =>
      let t := fs.getD f 0
      (f, ((m.find? (fun p => p.1 = t)).map (·.2)).getD t)))

/-! ### Slots (R110 to R112) -/

/-- A slot's STATE: 0 EMPTY, 1 LOADING, 2 VERIFIED, 3 REJECTED, 4 PRELOADING, 5 STAGED, 6 ACTIVE. -/
def State.slotState (s : State) (slot : Nat) : Nat := s.get R.PERS_SLOT_STAT_STATE slot

/-- Clears the ID, FMT, COVER and SV registers of a slot. -/
def State.clearIds (s : State) (slot : Nat) : State :=
  (((s.put R.PERS_SLOT_ID 0 slot).put R.PERS_SLOT_FMT 0 slot).put R.PERS_SLOT_COVER 0 slot).put R.PERS_SLOT_SV 0 slot

/-- Fills them from the file in the slot (Table 4.9). -/
def State.fillIds (s : State) (slot : Nat) : State :=
  let g := s.slotFile slot
  let s1 := ((s.put R.PERS_SLOT_ID (g 8 8) slot).put R.PERS_SLOT_FMT (g 0x10 8) slot).put R.PERS_SLOT_SV (g 0x20 8) slot
  (((s1.put R.PERS_SLOT_COVER_MODES (g 0x18 2) slot).put R.PERS_SLOT_COVER_PROFILES (g 0x1A 1) slot).put R.PERS_SLOT_COVER_RATES
    (g 0x1B 1) slot).put R.PERS_SLOT_COVER_KEY_SET (g (sectOff g 7) 1) slot

/-- A refused or failed slot command. -/
def State.slotRefuse (s : State) (slot code : Nat) : State := s.put R.PERS_SLOT_STAT_CMD_ERR code slot

/-- Drops whatever is STAGED or PRELOADING: its slot returns to VERIFIED, the standby planes no longer count. -/
def State.dropStaging (s : State) : State :=
  if s.flag R.PERS_STATE_STAGED_VALID then
    let k := s.get R.PERS_STATE_STAGED_SLOT
    let s1 := if s.slotState k = 4 ∨ s.slotState k = 5 then s.put R.PERS_SLOT_STAT_STATE 2 k else s
    let s2 := (s1.put R.PERS_STATE_STAGED_VALID 0).put R.PERS_STATE_PRELOADING 0
    { s2 with pers := { s2.pers with stg := [] } }
  else s

/-- A load begins: the slot becomes LOADING; the region check is made (R435); the source and length are taken (log entry 15). -/
def State.loadBegin (s : State) (slot : Nat) : State :=
  let src := s.get R.PERS_SLOT_SRC slot
  let len := s.get R.PERS_SLOT_LEN slot
  let s1 := (s.put R.PERS_SLOT_STAT_STATE 1 slot).clearIds slot
  { s1 with pers := { s1.pers with
      loading := some (slot, src, len, decide (src % 64 = 0) && s.regionOk .pers false src len)
      waiting := s1.pers.waiting.filter (· ≠ slot)
      digest := s1.pers.digest.filter (·.1 ≠ slot) } }

/-- Whether a pending activation names a slot. -/
def State.pendNames (s : State) (slot : Nat) : Bool := match s.pers.pend with | some p => p.slot = slot | none => false

/-- Whether a slot is named by a pending activation or waits to be active again after CORE (R129). -/
def State.pendingOn (s : State) (slot : Nat) : Bool := s.pendNames slot || decide (s.pers.reload = some slot)

/-- The code that refuses a command to a slot (R112), the first rule that applies; 0 when none does. `op`: 1 LOAD, 2 PRELOAD,
3 EVICT. -/
def State.slotCheck (s : State) (slot op : Nat) : Nat :=
  let st := s.slotState slot
  if st = 6 then 0x18
  else if s.pers.waiting.contains slot then 0x16
  else if op ≠ 2 ∧ (st = 1 ∨ st = 4 ∨ s.pendingOn slot = true) then 0x16
  else if op = 2 ∧ (st = 0 ∨ st = 1 ∨ st = 3) then 0x16
  else if op = 2 ∧ (s.flag R.PERS_STATE_PRELOADING = true ∨ s.pers.pend.isSome = true ∨ s.pers.reload.isSome = true) then 0x16
  else 0

/-- A LOAD command (R110, R112): a staging is dropped when the load begins; a slot that waits keeps its state until then. -/
def State.slotLoad (s : State) (slot : Nat) : State :=
  if s.pers.loading.isNone && s.pers.waiting.isEmpty then (if s.slotState slot = 5 then s.dropStaging else s).loadBegin slot
  else { s with pers := { s.pers with waiting := s.pers.waiting ++ [slot] } }

/-- PERS_SLOT_LOAD (R110, R112). -/
def execPersSlotLoad (slot : Nat) (s : State) : Out :=
  if 8 ≤ slot then .next s
  else
    let c := s.slotCheck slot 1
    .next (if c = 0 then s.slotLoad slot else s.slotRefuse slot c)

/-- A preload begins (R113): any other slot drops from STAGED. -/
def State.preloadBegin (s : State) (slot : Nat) : State :=
  let s1 := s.dropStaging
  (((s1.put R.PERS_SLOT_STAT_STATE 4 slot).put R.PERS_STATE_STAGED_SLOT slot).put R.PERS_STATE_STAGED_VALID 1).put
    R.PERS_STATE_PRELOADING 1

/-- PERS_SLOT_PRELOAD (R112, R113): a STAGED slot needs nothing. -/
def execPersSlotPreload (slot : Nat) (s : State) : Out :=
  if 8 ≤ slot then .next s
  else
    let c := s.slotCheck slot 2
    .next (if c ≠ 0 then s.slotRefuse slot c else if s.slotState slot = 5 then s else s.preloadBegin slot)

/-- Empties a slot. -/
def State.slotEmpty (s : State) (slot : Nat) : State :=
  let s1 := if s.slotState slot = 5 then s.dropStaging else s
  let s2 := (((s1.put R.PERS_SLOT_STAT_STATE 0 slot).put R.PERS_SLOT_STAT_ERR 0 slot).put R.PERS_SLOT_ERR_OFFSET 0 slot).clearIds slot
  { s2 with pers := { s2.pers with digest := s2.pers.digest.filter (·.1 ≠ slot) } }

/-- PERS_SLOT_EVICT (R112). -/
def execPersSlotEvict (slot : Nat) (s : State) : Out :=
  if 8 ≤ slot then .next s
  else
    let c := s.slotCheck slot 3
    .next (if c ≠ 0 then s.slotRefuse slot c else s.slotEmpty slot)

/-- PERS_LOAD_BEGIN (R112): the oldest waiting load begins once no load runs. A slot that has meanwhile become ACTIVE, PRELOADING or
named by a pending activation has the load refused as at its command (log entry 16). -/
def execPersLoadBegin (s : State) : Out :=
  match s.pers.loading, s.pers.waiting with
  | none, slot :: rest =>
    let s1 : State := { s with pers := { s.pers with waiting := rest } }
    let c := s1.slotCheck slot 1
    .next (if c = 0 then (if s1.slotState slot = 5 then s1.dropStaging else s1).loadBegin slot
      else
        let s2 := s1.slotRefuse slot c
        s2.cmdEndIf 1 slot (0x100 + c) [s2.get R.PERS_SLOT_STAT slot])
  | _, _ => .next s

/-- A slot becomes REJECTED with a code; a STAGED slot loses its staging (R110, R129, R536, R539). -/
def State.slotReject (s : State) (slot code off : Nat) : State :=
  let s1 := if s.slotState slot = 4 ∨ s.slotState slot = 5 then s.dropStaging else s
  let s2 := (((s1.put R.PERS_SLOT_STAT_STATE 3 slot).put R.PERS_SLOT_STAT_ERR code slot).put R.PERS_SLOT_ERR_OFFSET off slot).clearIds slot
  { s2 with pers := { s2.pers with digest := s2.pers.digest.filter (·.1 ≠ slot) } }

/-- A checked file makes its slot VERIFIED, its digest recorded (R110). -/
def State.slotVerify (s : State) (slot len : Nat) : State :=
  let s1 := (((s.put R.PERS_SLOT_STAT_STATE 2 slot).put R.PERS_SLOT_STAT_ERR 0 slot).put R.PERS_SLOT_ERR_OFFSET 0 slot).fillIds slot
  { s1 with pers := { s1.pers with digest :=
      (slot, Config.sha384 (s1.readBytes (s1.slotArea slot) len)) :: s1.pers.digest.filter (·.1 ≠ slot) } }

/-- Copies `len` bytes of module DRAM. -/
def State.copyBytes (s : State) (src dst len : Nat) : State := s.writeBytes dst (s.readBytes src len)

/-- The end of a load into a slot from bytes at `src` (R110): REGION copies nothing; a length no slot can hold copies nothing. -/
def State.loadEnd (s : State) (slot src len : Nat) (region : Bool) : State :=
  if region = false then s.slotReject slot 0x17 0
  else if len < 64 ∨ 67108864 < len then s.slotReject slot 0x03 0
  else
    let s1 := s.copyBytes src (s.slotArea slot) len
    match s1.checkFile (s1.slotArea slot) len with
    | some (code, off) => s1.slotReject slot code off
    | none => s1.slotVerify slot len

/-- PERS_LOAD_DONE (R110): the load in progress ends; a PERS_LOAD command of the caretaker that waited for it is acknowledged. -/
def execPersLoadDone (s : State) : Out :=
  match s.pers.loading with
  | none => .next s
  | some (slot, src, len, region) =>
    let s1 := (({ s with pers := { s.pers with loading := none } } : State).loadEnd slot src len region).raise .pers 0
    let code := s1.get R.PERS_SLOT_STAT_ERR slot
    .next (s1.cmdEndIf 1 slot (if s1.slotState slot = 2 then 0 else 0x100 + code) [s1.get R.PERS_SLOT_STAT slot])

/-! ### Activation requests (R116, R117) -/

/-- Sets or clears the pending activation and its bits of PERS_STATE. -/
def State.setPend (s : State) (p : Option PendAct) : State :=
  let s1 : State := { s with pers := { s.pers with pend := p } }
  match p with
  | some q => (s1.put R.PERS_STATE_PENDING 1).put R.PERS_STATE_PENDING_SLOT q.slot
  | none => s1.put R.PERS_STATE_PENDING 0

/-- An activation is refused: PERS_LAST, REFUSED; a PERS_ACTIVATE command that waited for it is acknowledged. -/
def State.actRefuse (s : State) (slot code : Nat) : State :=
  let s1 := (((s.put R.PERS_LAST_SLOT slot).put R.PERS_LAST_ERR code).bump R.PERS_LAST_COUNT).raise .pers 3
  s1.cmdEndIf 2 slot (0x100 + code) [s1.get R.PERS_LAST]

/-- Refuses the pending activation when it names a slot. -/
def State.actRefuseOn (s : State) (slot code : Nat) : State :=
  if s.pendNames slot then (s.setPend none).actRefuse slot code else s

/-- The pending activation is replaced or cancelled: a PERS_ACTIVATE command that waited for it ends DENIED (log entry 25). -/
def State.actDropped (s : State) : State :=
  match s.pers.pend with
  | some p => s.cmdEndIf 2 p.slot 4 [s.get R.PERS_LAST]
  | none => s

/-- An activation request (R116): the ACTIVE slot is ignored; an EMPTY, LOADING or REJECTED one refused; a VERIFIED one preloads
first; a new request replaces a pending one. -/
def State.actRequest (s : State) (slot : Nat) (at_ target : Option Nat) : State :=
  let st := s.slotState slot
  if st = 6 ∨ s.pers.reload = some slot then s
  else if st = 0 ∨ st = 1 ∨ st = 3 then s.actRefuse slot 0x16
  else
    let s0 := if s.pendNames slot then s else s.actDropped
    let s1 := if st = 2 ∧ s.pers.reload = none then s0.preloadBegin slot else s0
    s1.setPend (some ⟨slot, at_, 0, target⟩)

/-- The pending activation goes on after CORE (R116, R129): its slot, VERIFIED by then, preloads first. -/
def State.pendResume (s : State) : State :=
  match s.pers.pend with
  | some p => if s.slotState p.slot = 2 then s.preloadBegin p.slot else s
  | none => s

/-! ### Migrations (R156 to R167) -/

/-- Removes a migration of tile `n`. -/
def State.dropMig (s : State) (n : Nat) : State :=
  let l := s.fab.migs.filter (fun m => m.tile ≠ n)
  ({ s with fab := { s.fab with migs := l } } : State).putB R.FAB_STAT_MIGRATING (!l.isEmpty)

/-- Adds or replaces the migration of a tile. -/
def State.putMig (s : State) (m : Mig) : State :=
  ({ s with fab := { s.fab with migs := s.fab.migs.filter (fun k => k.tile ≠ m.tile) ++ [m] } } : State).put R.FAB_STAT_MIGRATING 1

/-- The migration of tile `n`. -/
def State.migOf (s : State) (n : Nat) : Option Mig := s.fab.migs.find? (fun m => m.tile = n)

/-- Migrations in ascending tile number, the order in which those that start in one cycle are served (R157). -/
def ascending (l : List Mig) : List Mig := sortBy (fun a b => decide (a.tile ≤ b.tile)) l

/-- The fatal fabric error of Table 2.2: its CORE source stays asserted until the caretaker has cleared the fault. -/
def State.fabricFatal (s : State) (entry : Option Nat) : State :=
  let s1 := s.coreSource R.RST_CAUSE_FABRIC_FATAL .sparesOut entry
  { s1 with rst := { s1.rst with srcFatal := true } }

/-- A tile whose migration cannot go on returns to service (R166). -/
def State.backToService (s : State) (n : Nat) : State := if s.tileState n = 3 then s.put R.FAB_TILE_STAT_STATE 1 n else s

/-- No usable spare is left (R166): after a health trigger the tile stays in service, and the module degrades or its partner takes over;
after an uncorrectable error or a missed swap the error is fatal. -/
def State.sparesOut (s : State) (n cause : Nat) (entry : Option Nat) (injected : Bool) : State :=
  let s0 := (((s.put R.FAB_MIG_LAST_FROM n).put R.FAB_MIG_LAST_TO 0).put R.FAB_MIG_LAST_CAUSE cause).put R.FAB_MIG_LAST_RESULT 2
  let s1 := ((s0.put R.FAB_STAT_SPARES_OUT 1).raise .fab 1).alert
  let id := s1.teph.nextId
  if cause = 2 ∨ cause = 4 then
    (s1.offerFull 7 3 2 0x204 n (s1.get R.FAB_STAT) (.link entry) injected false).fabricFatal (some id)
  else
    let s2 := (s1.offerFull 7 2 2 0x204 n (s1.get R.FAB_STAT) (.link entry) injected false).backToService n
    let s3 := s2.setTile n { s2.tile n with below := true }
    if s3.inPair then s3.sendFail .sparesOut (some id) else (s3.put R.FAB_STAT_DEGRADED 1).applyBudgets

/-- Whether a migration that starts now merges into the pending activation (R127): its slot is STAGED, places a function on the
tile, and the first subframe boundary at least 50 µs away is the boundary the activation applies at. -/
def State.merges (s : State) (n : Nat) : Bool :=
  match s.pers.pend with
  | none => false
  | some p =>
    s.slotState p.slot = 5 && s.pers.stg.any (fun q => q.2 = n) &&
      decide (s.gridFrom ((s.now : Int) + 50000) 1 = s.actIndex p)

/-- A migration starts (R126, R127, R157, R158): it merges into an activation, or its copy to the chosen spare begins. -/
def State.migStart (s : State) (n cause : Nat) (entry : Option Nat) (injected noMerge : Bool) : State :=
  if !noMerge && s.merges n then
    let slot := s.get R.PERS_STATE_STAGED_SLOT
    match pickSpare (placePolicy (s.slotFile slot)) n (s.usableSpares slot s.pers.stg) with
    | none => s.sparesOut n cause entry injected
    | some k =>
      let s1 := s.putMig ⟨n, k, cause, .merged, s.time.raw, entry, injected, false, 0, false⟩
      let s2 := if s1.tileState n = 1 then s1.put R.FAB_TILE_STAT_STATE 3 n else s1
      s2.offerFull 7 1 2 0x202 n k (.link entry) injected false
  else
    let slot := s.activeSlot
    match pickSpare (placePolicy (s.slotFile slot)) n (s.usableSpares slot s.pers.act) with
    | none => s.sparesOut n cause entry injected
    | some k =>
      let s1 := s.putMig ⟨n, k, cause, .copy, s.time.raw, entry, injected, false, 0, false⟩
      if s1.tileState n = 1 then s1.put R.FAB_TILE_STAT_STATE 3 n else s1

/-- Deferred migrations start in the cycle the preload ends, in ascending tile number (R125, R157). -/
def State.startDeferred (s : State) : State :=
  (ascending (s.fab.migs.filter (fun m => m.step = .deferred))).foldl
    (fun t m => (t.dropMig m.tile).migStart m.tile m.cause m.entry m.injected false) s

/-- The preload is abandoned for an uncorrectable error of tile `n` (R125); the cause is the tile's TILE_UNCORR entry. With the preload the
deferral of every migration ends; the preload of CORE exit then begins again (R129). -/
def State.preloadAbandon (s : State) (n : Nat) (entry : Option Nat) (injected : Bool) : State :=
  let slot := s.get R.PERS_STATE_STAGED_SLOT
  let s1 := ((s.dropStaging.bump R.PERS_CONTENTION_ABANDONED).raise .pers 4).offerFull 6 2 2 0x203 slot n (.link entry) injected false
  let s2 := (s1.actRefuseOn slot 0x15).startDeferred
  if s2.pers.reload = some slot then s2.preloadBegin slot else s2

/-- A migration trigger on tile `n` (R125, R156, R162): cause 1 health, 2 uncorrectable, 3 MIGRATE, 4 swap timeout. A tile already
migrating is left, except that an uncorrectable error during a deferral abandons the preload and becomes the cause. -/
def State.migTrigger (s : State) (n cause : Nat) (entry : Option Nat) (injected : Bool) : State :=
  let unc := decide (cause = 2 ∨ cause = 4)
  let wait : Mig := ⟨n, 0x1FF, cause, .deferred, s.time.raw, entry, injected, false, 0, false⟩
  match s.migOf n with
  | some m => if m.step = .deferred && unc then (s.putMig wait).preloadAbandon n entry injected else s
  | none =>
    if s.flag R.PERS_STATE_PRELOADING then
      if unc then (s.putMig wait).preloadAbandon n entry injected
      else
        let s1 := (s.bump R.PERS_CONTENTION_DEFERRED).offerFull 7 1 2 0x201 n (s.get R.PERS_STATE_STAGED_SLOT) (.link entry) injected false
        s1.putMig wait
    else s.migStart n cause entry injected false

/-- A preload ends well (R113, R114): standby planes of the listed tiles, idle planes elsewhere, route ports of the fetch ports. DESIGN
CHOICE (log entry 87): a migration whose copy or redirect is under way keeps its spare's standby plane, which the preload leaves; the
staged function of that spare is written with the staged partial frame (R126). -/
def State.preloadStage (s : State) (slot : Nat) (place : List (Nat × Nat)) : State :=
  let taken (n : Nat) : Bool := s.fab.migs.any (fun m => m.spare = n && (m.step = .copy || m.step = .redirect))
  let s1 := (List.range 400).foldl (fun t n =>
    if taken n then t
    else t.setTile n { t.tile n with standby := (place.find? (fun p => p.2 = n)).map (fun p => t.planeFor slot place p.1) }) s
  let s2 := (List.range 24).foldl (fun t p => t.setFetch p { t.fetchPt p with next := t.fetchOuts slot place p }) s1
  let s3 := ((s2.put R.PERS_SLOT_STAT_STATE 5 slot).put R.PERS_STATE_PRELOADING 0)
  let s4 : State := { s3 with pers := { s3.pers with stg := place } }
  let s5 := match s4.pers.pend with
    | some p => if p.slot = slot then s4.setPend (some { p with notBefore := s4.now + 50000 }) else s4
    | none => s4
  s5.raise .pers 1

/-- A preload stops for want of spares (R114). -/
def State.preloadShort (s : State) (slot : Nat) : State :=
  ((s.dropStaging.slotRefuse slot 0x14).raise .pers 1).actRefuseOn slot 0x14

/-- PERS_PRELOAD_DONE (R113, R114, R125): deferred migrations then start. At CORE exit SPARES_SHORT makes the caretaker request SYS
and record why; at boot it stops stage 0x08 (R167). -/
def execPersPreloadDone (s : State) : Out :=
  if s.flag R.PERS_STATE_PRELOADING = false then .next s
  else
    let slot := s.get R.PERS_STATE_STAGED_SLOT
    match s.placement slot with
    | some place =>
      let s1 := (s.preloadStage slot place).startDeferred
      .next { s1 with pers := { s1.pers with coreExit := false } }
    | none =>
      let s1 := s.preloadShort slot
      .next (
        if s1.pers.coreExit then
          let s2 : State := { s1 with pers := { s1.pers with coreExit := false, reload := none } }
          s2.caretakerSys (R.PERS_SLOT_STAT.off slot 0) 0x14
        else if s1.get R.RST_STAGE_STAGE = 7 ∧ s1.flag R.RST_STAGE_FAIL = false then
          let s2 := s1.stageFail 8
          ({ s2 with rst := { s2.rst with placeFail := true } } : State).startDeferred
        else s1.startDeferred)

/-- The reset of local memory by the initialisers of a plane (R120, R148): FILL in every unit of [START, START + COUNT). -/
def State.lmInit (s : State) (n : Nat) (p : Plane) : State :=
  p.init.foldl (fun t i =>
    let fill := Word.toLe 4 i.2.2
    let mem := (List.range (i.2.1 * 64)).foldl (fun m k => Sparse.set dramDefault m (i.1 * 64 + k) (fill.getD (k % 4) 0)) (t.tile n).lmem
    t.setTile n { t.tile n with lmem := mem }) s

/-- Route ports of standby planes and fetch ports that led to tile `a` lead to `b`. -/
def State.standbyReroute (s : State) (a b : Nat) : State :=
  let s1 := (s.fab.tiles.map (·.1)).foldl (fun t n =>
    match (t.tile n).standby with
    | some p => t.setTile n { t.tile n with standby := some (p.reroute a b) }
    | none => t) s
  (s1.fab.fetch.map (·.1)).foldl (fun t p => t.setFetch p { t.fetchPt p with next := reroute a b (t.fetchPt p).next }) s1

/-- The staged personality's share of the failed tile `n` goes to spare `k`: its partial frame into the spare's standby plane, an idle
plane into the tile's (R126, R127). -/
def State.stagedWrite (s : State) (n k : Nat) : State :=
  let stg := s.pers.stg.map (fun q => if q.2 = n then (q.1, k) else q)
  match stg.find? (fun q => q.2 = k) with
  | some q =>
    let s1 := s.setTile k { s.tile k with standby := some (s.planeFor (s.get R.PERS_STATE_STAGED_SLOT) stg q.1) }
    let s2 := s1.setTile n { s1.tile n with standby := none }
    ({ s2 with pers := { s2.pers with stg := stg } } : State).standbyReroute n k
  | none => s

/-- A spare that is the target of a running migration fails, or is retired: the migration restarts at step 1 with the next spare (R163).
After the redirect the failing tile takes its function back: route ports lead to it again, tokens held for the drain marker are released,
and a boundary it kept back goes on. -/
def State.spareFails (s : State) (m : Mig) : State :=
  let s1 := (s.retire m.spare).bump R.FAB_MIG_COUNT_RESTARTS
  let s2 : State := { s1 with fab := { s1.fab with stagedDue := s1.fab.stagedDue.filter (fun p => p.2 ≠ m.spare) } }
  let s3 := if m.step = .drain then
      let back : State := { s2 with
        pers := { s2.pers with act := s2.pers.act.map (fun q => if q.2 = m.spare then (q.1, m.tile) else q) } }
      let tiles := (back.fab.tiles.map (·.1)).foldl (fun t n =>
        let x := t.tile n
        let held := x.spareHeld.filter (fun q => x.drainWait.any (fun w => w.1 = q.1 && w.2 = m.spare))
        t.setTile n { x with
          active := x.active.map (fun p => p.reroute m.spare m.tile)
          buf := x.buf ++ held
          spareHeld := x.spareHeld.filter (fun q => !x.drainWait.any (fun w => w.1 = q.1 && w.2 = m.spare))
          drainWait := x.drainWait.filter (fun w => w.2 ≠ m.spare) }) back
      let all := (tiles.fab.fetch.map (·.1)).foldl (fun t p =>
        t.setFetch p { t.fetchPt p with outs := reroute m.spare m.tile (t.fetchPt p).outs }) tiles
      match m.closed, (all.tile m.tile).active with
      | true, some p => all.sendFabric m.tile p 0xFFE (m.sf % 2 ^ 32)
      | _, _ => all
    else s2
  let s4 := if s3.pers.stg.any (fun q => q.2 = m.spare) then
      let stg := s3.pers.stg.map (fun q => if q.2 = m.spare then (q.1, m.tile) else q)
      ({ s3 with pers := { s3.pers with stg := stg } } : State).standbyReroute m.spare m.tile
    else s3
  (s4.dropMig m.tile).migStart m.tile m.cause m.entry m.injected false

/-- A spare goes out of service (R155, R163, R164): retired, with a restart of a migration it is the target of. -/
def State.retireSpare (s : State) (n : Nat) : State :=
  match s.fab.migs.find? (fun m => m.spare = n && m.step ≠ .deferred) with
  | some m => s.spareFails m
  | none => s.retire n

/-- MIGRATION_COPY_DONE (R126, R127, R158, R163): the partial frame is written and read back. A spare that fails the read-back is retired
and the migration restarts with the next. Merged, the staged share is written; after a redirect the same writes go to the staged planes,
and a write whose read-back fails is made again. -/
def execMigrationCopyDone (n : Nat) (good : Bool) (s : State) : Out :=
  match s.migOf n with
  | some m =>
    let s1 := s.bump R.PERS_PARTIAL_COUNT
    if m.step = .copy then
      if good then
        match s1.pers.act.find? (fun p => p.2 = n) with
        | some p =>
          .next ((s1.setTile m.spare { s1.tile m.spare with standby := some (s1.planeFor s1.activeSlot s1.pers.act p.1) }).putMig
            { m with step := .redirect })
        | none => .next (s1.dropMig n)
      else .next (s1.spareFails m)
    else if m.step = .merged ∧ m.copied = false then
      .next (if good then (s1.stagedWrite n m.spare).putMig { m with copied := true } else s1.spareFails m)
    else .next s
  | none =>
    match s.fab.stagedDue.find? (fun p => p.1 = n) with
    | some (_, k) =>
      let s1 := s.bump R.PERS_PARTIAL_COUNT
      .next (if good then
          ({ s1 with fab := { s1.fab with stagedDue := s1.fab.stagedDue.filter (fun p => p.1 ≠ n) } } : State).stagedWrite n k
        else s1)
    | none => .next s

/-- A migration completes (R161): the tile is retired, whose work now lies on the spare; counts, FAB_MIG_LAST, MIGRATED, the entry.
`result` is FAB_MIG_LAST.RESULT. -/
def State.migComplete (s : State) (m : Mig) (result : Nat) : State :=
  let s2 := (((s.retire m.tile).noteMove m.tile m.spare).dropMig m.tile).countSpares
  let s3 := ((((s2.put R.FAB_MIG_LAST_FROM m.tile).put R.FAB_MIG_LAST_TO m.spare).put R.FAB_MIG_LAST_CAUSE m.cause).put
    R.FAB_MIG_LAST_RESULT result).bump R.FAB_MIG_COUNT_MIGRATIONS
  (s3.raise .fab 0).offerFull 7 1 2 0x200 (s3.get R.FAB_MIG_LAST) (s3.time.raw - m.start) (.link m.entry) m.injected false

/-- The failing tile sends the drain marker, in place of its boundary token, on every output port (R158, Table 5.4). -/
def State.sendMarker (s : State) (m : Mig) : State :=
  match (s.tile m.tile).active with
  | some p => s.sendFabric m.tile p 0xFFD (m.sf % 2 ^ 32 + m.tile * 2 ^ 32)
  | none => s

/-- Route ports that lead to the failing tile after a redirect at the boundary of subframe `sf` (R158): planes written for later, and
those of the tiles and fetch ports that have sent the boundary token already; the others change when they send it. -/
def State.redirectRoutes (s : State) (n k sf : Nat) : State :=
  let s1 := (s.fab.tiles.map (·.1)).foldl (fun t d =>
    let x := t.tile d
    let on : Option Plane := if x.seen = some sf then x.active.map (fun p => p.reroute n k) else x.active
    let later : Option Plane := x.standby.map (fun p => if p.slot = t.activeSlot then p.reroute n k else p)
    t.setTile d { x with active := on, standby := later }) s
  (s1.fab.fetch.map (·.1)).foldl (fun t p =>
    let f := t.fetchPt p
    if f.seen = some sf then t.setFetch p { f with outs := reroute n k f.outs } else t) s1

/-- The spare takes over (R158): its planes swap, it applies LMINIT, and the placement leads to it. -/
def State.spareStart (s : State) (m : Mig) (pl : Plane) (sf : Nat) : State :=
  let s1 := s.setTile m.spare { idleTile with active := some pl, lmem := (s.tile m.spare).lmem, cache := (s.tile m.spare).cache, seen := some sf }
  let s2 := (s1.lmInit m.spare pl).setStat m.spare 1 pl.func pl.cls
  let s3 := ((s2.put R.FAB_TILE_HEALTH_SCORE 255 m.spare).put R.FAB_TILE_HEALTH_PENALTY 0 m.spare).put
    R.FAB_TILE_HEALTH_THRESH (placeThresh (s2.slotFile pl.slot)) m.spare
  { s3 with pers := { s3.pers with act := s3.pers.act.map (fun q => if q.2 = m.tile then (q.1, m.spare) else q) } }

/-- MIGRATION_REDIRECT (R126, R158, R159): at the boundary of the subframe the fabric renders, which the failing tile has not passed on:
the spare takes over; input ports the failing tile leads to hold the spare's tokens until the drain marker; staged writes become due
while a slot is STAGED. A tile retired for a missed swap (R122) drains nothing and its migration completes. -/
def execMigrationRedirect (n : Nat) (s : State) : Out :=
  match s.migOf n with
  | none => .next s
  | some m =>
    let sf := s.view.renderSf % 2 ^ 32
    match (s.tile m.spare).standby with
    | none => .next s
    | some pl =>
      if m.step ≠ .redirect ∨ (s.tile n).seen = some sf then .next s
      else
        let s1 := (s.spareStart m pl sf).redirectRoutes n m.spare sf
        let due := if s1.flag R.PERS_STATE_STAGED_VALID && s1.pers.stg.any (fun q => q.2 = n || q.2 = m.spare) then
          s1.fab.stagedDue ++ [(n, m.spare)] else s1.fab.stagedDue
        let s2 : State := { s1 with fab := { s1.fab with stagedDue := due } }
        match (s2.tile n).active with
        | none => .next ((s2.migComplete m 0).applyBudgets)
        | some old =>
          let s3 := (old.outs.filter (fun r => r.dst < 400)).foldl (fun t r =>
            let x := t.tile r.dst
            t.setTile r.dst { x with drainWait := (r.inp, m.spare) :: x.drainWait.filter (fun w => w.1 ≠ r.inp) }) s2
          .next ((s3.putMig { m with step := .drain, sf := sf, closed := old.ins.isEmpty }).applyBudgets)

/-- Whether the failing tile has finished every token it accepted before the boundary (R158). -/
def State.drained (s : State) (m : Mig) : Bool :=
  let t := s.tile m.tile
  m.closed && t.threads.isEmpty && t.fwd.isEmpty && !t.buf.any (fun q => q.2.tag < 0xFF0)

/-- MIGRATION_DRAIN_DONE (R158, R161). -/
def execMigrationDrainDone (n : Nat) (s : State) : Out :=
  match s.migOf n with
  | some m => .next (if m.step = .drain ∧ s.drained m = true then (s.sendMarker m).migComplete m 0 else s)
  | none => .next s

/-- DRAIN_TIMEOUT (R160): the failing tile drops the tokens it holds and sends the drain marker at once. -/
def execDrainTimeout (n : Nat) (s : State) : Out :=
  match s.migOf n with
  | some m =>
    if m.step = .drain then
      let s1 := s.setTile n { s.tile n with buf := [], fwd := [], threads := [], jobs := [] }
      .next ((((s1.tileEvent n 5).recIrq .fab 2).sendMarker m).migComplete m 3)
    else .next s
  | none => .next s

/-! ### Slips (R126, R127) -/

/-- Whether a migration's writes stand in the way of an activation (R126): a copy or redirect still to come, a staged write, or the writes
of a merged one. -/
def State.stagedBusy (s : State) : Bool :=
  !s.fab.stagedDue.isEmpty || s.fab.migs.any (fun m => m.step = .copy || m.step = .redirect || (m.step = .merged && !m.copied))

/-- Merged migrations whose activation does not apply go on as ordinary ones, with the same spare (R127): the active personality's partial
frame is to be copied, and the bound counts afresh. -/
def State.unmerge (s : State) : State :=
  (ascending (s.fab.migs.filter (fun m => m.step = .merged))).foldl
    (fun t m => t.putMig { m with step := .copy, start := t.time.raw, copied := false }) s

/-- The pending activation slips to the next light-field frame boundary (R126). -/
def State.actSlip (s : State) (p : PendAct) : State :=
  ((s.setPend (some { p with notBefore := (s.gridTime (s.actIndex p) + 1).toNat })).raiseRec .pers 5).unmerge

/-- ACT_SLIP (R126): writes unfinished 50 µs before the boundary make the activation slip. -/
def execActSlip (s : State) : Out :=
  match s.pers.pend with
  | some p => .next (if s.stagedBusy then s.actSlip p else s)
  | none => .next s

/-- MIGRATE (R156, R164): an active tile's request is a health trigger; a spare is retired; other tiles do nothing. -/
def State.tileMigrate (s : State) (n : Nat) : State :=
  if s.tileState n = 1 then s.migTrigger n 3 none false
  else if s.tileState n = 2 then s.retireSpare n
  else s

/-- TILE_CTRL_MIGRATE (R164): a keyed write of FAB_TILE[n].CTRL with MIGRATE. -/
def execTileCtrlMigrate (r : Req) (key n : Nat) (s : State) : Out :=
  if 400 ≤ n then .next s
  else if key ≠ 0x0FAB then .next (s.ignored (R.FAB_TILE_CTRL.off n 0) (key * 65536 + 1) r)
  else .next (s.tileMigrate n)

/-- TILE_CTRL_KAT (R155): the known-answer test in the next vertical blanking; ignored for ACTIVE, MIGRATING and SINK tiles. -/
def execTileCtrlKat (r : Req) (key n : Nat) (s : State) : Out :=
  if 400 ≤ n then .next s
  else if key ≠ 0x0FAB then .next (s.ignored (R.FAB_TILE_CTRL.off n 0) (key * 65536 + 2) r)
  else if s.tileState n = 1 ∨ s.tileState n = 3 ∨ s.tileState n = 4 then .next s
  else .next (s.setTile n { s.tile n with katDue := true })

/-- A known-answer test of tile `n` ends (R155): a spare that fails is retired. -/
def State.katEnd (s : State) (n : Nat) (pass : Bool) : State :=
  let s1 := (((s.put R.FAB_TILE_KAT_DONE 1 n).putB R.FAB_TILE_KAT_PASS pass n).bump R.FAB_TILE_KAT_COUNT n).setTile n
    { s.tile n with katDue := false }
  if pass then s1
  else
    let s2 := (s1.tileEvent n 6).recIrq .fab 2
    if s2.tileState n = 2 then s2.retireSpare n else s2

/-- SPARE_KAT (R155): in one vertical blanking each spare, and each tile asked for, runs its test; `failed` lists those that fail.
`periodic`: FAB_CTRL.KAT_PERIOD has passed since the last of these tests (log entry 78). -/
def execSpareKat (periodic : Bool) (failed : List Nat) (s : State) : Out :=
  .next (((List.range 400).filter (fun n => (periodic && s.tileState n = 2) || (s.tile n).katDue)).foldl
    (fun t n => t.katEnd n (!failed.contains n)) s)

/-! ### Health (R153, R154, R156, R162) -/

/-- The running sum of corrections for the summaries of R582. -/
def State.noteCorr (s : State) (src kind : Nat) (injected : Bool) (first : Nat) : State :=
  let l := s.fab.corr
  let l' := if l.any (fun c => c.src = src && c.kind = kind && c.injected = injected) then
      l.map (fun c => if c.src = src && c.kind = kind && c.injected = injected then { c with count := c.count + 1 } else c)
    else l ++ [⟨src, kind, injected, 1, first⟩]
  { s with fab := { s.fab with corr := l' } }

/-- Charges penalty points to an active tile (R153); an injected event marks what comes of them (R169). -/
def State.charge (s : State) (n weight : Nat) (injected : Bool) : State :=
  if s.tileState n = 1 ∨ s.tileState n = 3 then
    s.setTile n { s.tile n with charged := (s.tile n).charged + weight, injected := (s.tile n).injected || (injected && decide (weight ≠ 0)) }
  else s

/-- DEGRADED clears when no tile in service is below threshold (R166). -/
def State.recheckDegraded (s : State) : State :=
  let low := (List.range 400).any (fun n => (s.tileState n = 1 || s.tileState n = 3 || s.tileState n = 4) &&
    decide (s.get R.FAB_TILE_HEALTH_SCORE n < s.get R.FAB_TILE_HEALTH_THRESH n))
  if s.flag R.FAB_STAT_DEGRADED && !low then (s.put R.FAB_STAT_DEGRADED 0).applyBudgets else s

/-- The health update at a subframe boundary as the tile sees it (R154, R156). While the score stays low after SPARES_OUT, R156 triggers
again once a spare is usable (DESIGN CHOICE: the same lack of spares is not reported anew at each boundary, log entry 87). -/
def State.healthUpdate (s : State) (n : Nat) : State :=
  let t := s.tile n
  if s.tileState n ≠ 1 ∧ s.tileState n ≠ 3 ∧ s.tileState n ≠ 4 then s
  else
    let p := s.get R.FAB_TILE_HEALTH_PENALTY n
    let p' := min 65535 (p - Word.cdiv p 16 + t.charged)
    let score := if t.dead then 0 else 255 - min p' 255
    let s1 := ((s.setTile n { t with
      charged := 0, injected := t.injected && decide (p' ≠ 0)
      below := t.below && decide (score < s.get R.FAB_TILE_HEALTH_THRESH n) }).put R.FAB_TILE_HEALTH_PENALTY p' n).put
      R.FAB_TILE_HEALTH_SCORE score n
    let s2 := s1.recheckDegraded
    if s2.tileState n = 1 ∧ score < s2.get R.FAB_TILE_HEALTH_THRESH n ∧
        ((s2.tile n).below = false ∨ (s2.usableSpares s2.activeSlot s2.pers.act).isEmpty = false) then
      s2.migTrigger n 1 none (s2.tile n).injected
    else s2

/-- A corrected single-bit error of tile `n` (Table 5.7). -/
def State.eccCorrect (s : State) (n : Nat) (flit injected : Bool) : State :=
  ((s.bump R.FAB_TILE_ERR_CORR n).charge n (s.get R.FAB_HEALTH_WEIGHT_ECC) injected).noteCorr 7 (if flit then 3 else 1) injected n

/-- ECC_CORRECT (R153). -/
def execEccCorrect (n : Nat) (flit : Bool) (s : State) : Out := .next (if n < 400 then s.eccCorrect n flit false else s)

/-- A texel cache line that failed is discarded and fetched again. -/
def State.cacheRefetch (s : State) (n line : Nat) (injected : Bool) : State :=
  ((s.bump R.FAB_TILE_ERR_REFETCH n).charge n (s.get R.FAB_HEALTH_WEIGHT_REFETCH) injected).emit (.fetch (128 * line) 128)

/-- CACHE_REFETCH (R153). -/
def execCacheRefetch (n line : Nat) (s : State) : Out := .next (if n < 400 then s.cacheRefetch n line false else s)

/-- A residue mismatch, correct on retry (R153, R582 kind 4). -/
def State.residueRetry (s : State) (n : Nat) (injected : Bool) : State :=
  ((s.bump R.FAB_TILE_ERR_RESIDUE n).charge n (s.get R.FAB_HEALTH_WEIGHT_RESIDUE) injected).noteCorr 7 4 injected n

/-- A timing-margin alarm after stretching. -/
def State.marginAlarm (s : State) (n : Nat) (injected : Bool) : State :=
  (s.bump R.FAB_TILE_MARGIN_ALARMS n).charge n (s.get R.FAB_HEALTH_WEIGHT_MARGIN) injected

/-- MARGIN_ALARM (R153). -/
def execMarginAlarm (n : Nat) (s : State) : Out := .next (if n < 400 then s.marginAlarm n false else s)

/-- SWAP_TIMEOUT (R122): a tile that has not swapped is retired at once, its function migrated under the new personality; the
activation stands. With no usable spare the error is fatal (R166). DESIGN CHOICE (log entry 87): the retired tile's boundary token goes out
with it, so that no tile behind it waits for one that cannot come. -/
def execSwapTimeout (n : Nat) (s : State) : Out :=
  if 400 ≤ n ∨ (s.tile n).swapDue = false then .next s
  else
    let id := s.teph.nextId
    let s0 := s.raiseRec .pers 6
    let s1 := match (s0.tile n).active with
      | some p => s0.sendFabric n p 0xFFF (s0.get R.COMP_SEQ)
      | none => s0
    match s1.migOf n with
    | some m => .next (if m.step = .merged then s1.migComplete m 1 else s1.retire n)
    | none =>
      match s1.pers.act.find? (fun p => p.2 = n) with
      | none => .next (s1.retire n)
      | some _ =>
        let slot := s1.activeSlot
        match pickSpare (placePolicy (s1.slotFile slot)) n (s1.usableSpares slot s1.pers.act) with
        | none => .next ((s1.retire n).sparesOut n 4 (some id) false)
        | some k =>
          let s2 := s1.retire n
          .next (s2.putMig ⟨n, k, 4, .copy, s2.time.raw, some id, false, false, 0, false⟩)

end Sys2Proof.Machine
end

