-- ==== Sys2Proof/Machine/Fab.lean ====
section
/-!
DEFINITION. Tokens, boundary tokens and the local decision of a tile (R119 to R123, R135 to R147, R159), clocks and voltage
(R149 to R152).
-/

namespace Sys2Proof.Machine

open Sys2Proof

/-! ### Boundary tokens (R119 to R123, R140, R141, R158, R159) -/

/-- The token at the head of a port. -/
def TileRt.head (t : TileRt) (port : Nat) : Option Token := (t.buf.find? (fun q => q.1 = port)).map (·.2)

/-- Takes the head of a port off its buffer. -/
def popPort (port : Nat) : List (Nat × Token) → List (Nat × Token)
  | [] => []
  | q :: rest => if q.1 = port then rest else q :: popPort port rest

/-- The state a tile has under its plane: ACTIVE with a function, SPARE or IDLE without. -/
def State.planeState (s : State) (n : Nat) (p : Option Plane) : State :=
  match p with
  | some pl => s.setStat n 1 pl.func pl.cls
  | none => s.setStat n (if (placeSpares (s.slotFile s.activeSlot)).contains n then 2 else 0) 0x3FF 0x1FF

/-- A tile swaps planes (R120, R123): LMINIT of the new frame; the rest of local memory and the texel cache stay; SPARES_OUT may be raised
anew; a merged migration completes (R127). -/
def State.swapTile (s : State) (n : Nat) : State :=
  if s.tileState n = 5 then s.setTile n { s.tile n with swapDue := false }
  else
    let t := s.tile n
    let s1 := s.setTile n { t with active := t.standby, standby := t.active, swapDue := false, below := false }
    let s2 := match t.standby with | some p => s1.lmInit n p | none => s1
    let s3 := (s2.planeState n t.standby).put R.FAB_TILE_HEALTH_THRESH
      (if t.standby.isSome then placeThresh (s2.slotFile s2.activeSlot) else 0) n
    let s4 := if t.dead && t.standby.isSome then s3.put R.FAB_TILE_STAT_STATE 4 n else s3
    match s4.migOf n with
    | some m => if m.step = .merged then s4.migComplete m 1 else s4
    | none => s4

/-- A tile passes the boundary token of subframe `sf` on to every output of the plane it ran: the failing tile of a redirect at that
boundary keeps it back and drains (R158); else route ports to a failing tile then lead to its spare. -/
def State.passOn (s : State) (n : Nat) (p : Plane) (tag payload sf : Nat) : State :=
  match (s.redirectsAt sf).find? (fun m => m.tile = n) with
  | some m => s.putMig { m with closed := true }
  | none =>
    let s1 := s.sendFabric n p tag payload
    let t := s1.tile n
    s1.setTile n { t with seen := some sf, active := t.active.map (fun q => { q with outs := s1.routesAfter sf q.outs }) }

/-- Whether every input port of the tile's plane has its boundary token at the head, and every token before it is finished. -/
def State.boundaryReady (s : State) (n : Nat) (p : Plane) : Bool :=
  let t := s.tile n
  p.ins.all (fun k => match t.head k with | some q => q.tag = 0xFFF | none => false) && t.threads.isEmpty && t.fwd.isEmpty

/-- Once the boundary token is at every input (R120): health, the swap if one is due, the token on every output of the old plane,
the held tokens released. The token carries the light-field frame's sequence number. -/
def State.tryBoundary (s : State) (n : Nat) : State :=
  match (s.tile n).active with
  | none => s
  | some p =>
    if !p.ins.isEmpty && s.boundaryReady n p then
      let t := s.tile n
      let frame := (p.ins.findSome? (fun k => t.head k)).elim 0 (·.payload)
      let s1 := s.setTile n { t with buf := p.ins.foldl (fun b k => popPort k b) t.buf }
      let s2 := s1.healthUpdate n
      let s3 := if (s2.tile n).swapDue then s2.swapTile n else s2
      (s3.passOn n p 0xFFF frame ((s3.view.begun.getD 0) % 2 ^ 32)).countTiles
    else s

/-- Takes the subframe tokens at the heads of a tile's ports. -/
def State.takeSub (s : State) (n : Nat) : Nat → State
  | 0 => s
  | k + 1 =>
    let t := s.tile n
    match (t.active.elim [] (·.ins)).find? (fun q => match t.head q with | some x => x.tag = 0xFFE | none => false) with
    | some q =>
      let x := ((t.head q).map (·.payload)).getD 0
      (s.setTile n { t with buf := popPort q t.buf, subSeen := t.subSeen ++ [(q, x)] }).takeSub n k
    | none => s

/-- Passes on the subframe tokens that have come at every input, one boundary after another, with a health update at each (R141, R154). -/
def State.passSub (s : State) (n : Nat) : Nat → State
  | 0 => s
  | k + 1 =>
    let t := s.tile n
    match t.active with
    | none => s
    | some p =>
      if !p.ins.isEmpty && p.ins.all (fun q => t.subSeen.any (fun x => x.1 = q)) then
        let payload := (t.subSeen.find? (fun x => p.ins.contains x.1)).elim 0 (·.2)
        let rest := p.ins.foldl (fun l q => l.eraseP (fun x => x.1 = q)) t.subSeen
        let s1 := (s.setTile n { t with subSeen := rest }).passOn n p 0xFFE payload (payload % 2 ^ 32)
        (s1.healthUpdate n).passSub n k
      else s

/-- The boundary tokens a tile holds go as far as they can. -/
def State.settle (s : State) (n : Nat) : State :=
  let k := (s.tile n).buf.length
  let s1 := (s.takeSub n k).passSub n (k + (s.tile n).subSeen.length)
  let s2 := s1.tryBoundary n
  (s2.takeSub n k).passSub n k

/-- The boundary token of a tag, if it is the oldest flit on its way to a port, arrives and the tile goes on. -/
def State.fabricArrive (s : State) (n port tag : Nat) : State :=
  match s.arrive n port (fun t => t.tag = tag) with
  | some s1 => s1.settle n
  | none => s

/-- BOUNDARY_TOKEN_ARRIVE (R119, R120): the token takes its place behind what the port has received. A tile without a plane, or without an
input, swaps over the configuration network and has nothing to wait for. -/
def execBoundaryTokenArrive (n port : Nat) (s : State) : Out :=
  if 400 ≤ n ∨ 8 ≤ port then .next s
  else
    match (s.tile n).active with
    | none => .next (if (s.tile n).swapDue then s.swapTile n else s)
    | some p =>
      if p.ins.isEmpty then
        .next (if (s.tile n).swapDue = true ∧ (s.tile n).threads.isEmpty = true then
          ((s.healthUpdate n).swapTile n).passOn n p 0xFFF (s.get R.COMP_SEQ) (s.view.begun.getD 0 % 2 ^ 32) else s)
      else .next (s.fabricArrive n port 0xFFF)

/-- SUBFRAME_TOKEN_ARRIVE (R140, R141). -/
def execSubframeTokenArrive (n port : Nat) (s : State) : Out :=
  .next (if 400 ≤ n ∨ 8 ≤ port then s else s.fabricArrive n port 0xFFE)

/-- The boundary token a drain marker counts as (R159): that of the boundary its redirect took, the light-field frame's when the subframe
was the first of its frame. -/
def State.markAs (s : State) (sf : Nat) : Token :=
  let first := s.view.begun.getD 0 % 2 ^ 32
  if s.view.begun.isSome ∧ sf = first then ⟨0xFFF, 0, false, s.get R.COMP_SEQ⟩
  else ⟨0xFFE, 0, false, sf + (sf + 2 ^ 32 - first) % 4 * 2 ^ 32⟩

/-- DRAIN_MARKER_ARRIVE (R159): it counts as the port's boundary token and releases the port to the spare. -/
def execDrainMarkerArrive (n port : Nat) (s : State) : Out :=
  if 400 ≤ n ∨ 8 ≤ port then .next s
  else
    let t := s.tile n
    match takeFlit (fun f => decide (f.dst = n ∧ f.port = port) && !t.waitsFor port f.src) s.fab.mesh with
    | some (f, rest) =>
      if f.tok.tag ≠ 0xFFD then .next s
      else
        let s1 : State := { s with fab := { s.fab with mesh := rest } }
        .next ((s1.setTile n { t with
          drainWait := t.drainWait.filter (fun w => w.1 ≠ port)
          buf := t.buf ++ (port, s.markAs (f.tok.payload % 2 ^ 32)) :: t.spareHeld.filter (fun q => q.1 = port)
          spareHeld := t.spareHeld.filter (fun q => q.1 ≠ port) }).settle n)
    | none => .next s

/-! ### Uncorrectable errors and injection (R153, R162, R169) -/

/-- A tile reports an uncorrectable error (R162): UNCORR, score 0 held, SINK, threads stopped and what they held for forwarding discarded,
its entry, and a migration; a spare is retired (R155), with a restart of a migration it is the target of (R163). Boundary tokens that
waited for the threads go on. -/
def State.tileUncorr (s : State) (n : Nat) (injected : Bool) : State :=
  let st := s.tileState n
  if st = 5 ∨ (s.tile n).dead then s
  else
    let s1 := s.tileEvent n 0
    let id := s1.teph.nextId
    let s2 := s1.offerFull 7 2 2 0x205 n (s1.get R.FAB_TILE_EVENT n) (.link none) injected false
    let held := (s2.tile n).fwd.length
    let s3 := (s2.setTile n { s2.tile n with dead := true, threads := [], jobs := [], rays := [], fwd := [] }).bumpBy R.FAB_TILE_DROP_DISPATCH held n
    if st = 2 ∨ s3.isTarget n = true then s3.retireSpare n
    else if st = 1 ∨ st = 3 then
      let s4 := (s3.put R.FAB_TILE_HEALTH_SCORE 0 n).put R.FAB_TILE_STAT_STATE 4 n
      (s4.migTrigger n 2 (some id) injected).settle n
    else s3

/-- TILE_UNCORRECTABLE (R153, R162). -/
def execTileUncorrectable (n : Nat) (_err : TileErr) (s : State) : Out := .next (if n < 400 then s.tileUncorr n false else s)

/-- RESIDUE_RETRY (R153): run again once; a second mismatch is uncorrectable. -/
def execResidueRetry (n : Nat) (again : Bool) (s : State) : Out :=
  .next (if 400 ≤ n then s else if again then s.tileUncorr n false else s.residueRetry n false)

/-- TILE_INJECT (R169): acts only while FAB_CTRL.INJECT_EN is 1; handled as a real event, its records marked. The cache line that an
injected double-bit error meets is the oldest one held. -/
def execTileInject (n kind : Nat) (s : State) : Out :=
  .next (
    if 400 ≤ n ∨ s.flag R.FAB_CTRL_INJECT_EN = false then s
    else match kind % 8 with
      | 1 => s.eccCorrect n false true
      | 2 => s.cacheRefetch n ((s.tile n).cache.headD 0) true
      | 3 => s.eccCorrect n false true
      | 4 => s.tileUncorr n true
      | 5 => s.residueRetry n true
      | 6 => s.marginAlarm n true
      | _ => s)

/-! ### Accepting a token (R142 to R145, R162) -/

/-- The smallest thread number not in use. -/
def freeThread (t : TileRt) (limit : Nat) : Option Nat := (List.range (min 32 limit)).find? (fun k => !t.threads.any (fun q => q.1 = k))

/-- The budget of a ray in PEAK (R19): 64 planes, or what is left of the allowance of 40 for each ray of the tile's share of the row band
after 12 planes are set aside for each ray still to come, whichever is smaller. `rays` of the share, `begun` before this one, `used` samples
spent. -/
def peakBudget (rays begun used : Nat) : Nat := min 64 (40 * rays - used - 12 * (rays - begun - 1))

/-- The rays of a tile's share of a row band where no command lists them: an equal share for each tile in service (DEDUCED from Table 5.9's
example, log entry 87). -/
def State.equalShare (s : State) : Nat := Word.cdiv (128 * 3 * s.panelW) (max 1 (s.get R.FAB_STAT_ACTIVE_TILES))

/-- The budget B of a ray of tile `n` (R19, R26, R166, R185), never below 12: `rays` of its share of the row band, `begun` before this one,
`used` samples spent. -/
def State.rayBudget (s : State) (n rays begun used : Nat) : Nat :=
  if s.profile = 0 then max 12 (min (s.tileBudget n) (peakBudget rays begun used)) else s.tileBudget n

/-- The budget of the ray a thread of tile `n` begins. -/
def State.nextBudget (s : State) (n : Nat) : Nat := s.rayBudget n s.equalShare (s.tile n).begun (s.tile n).used

/-- The ordinary budget of a ray of tile `n` (R185): B less the residual anchors, the overlays and the sinter background, at
least 3. A background is reserved for while any region has one in use: a token does not say its region (log entry 23). -/
def State.ordinaryBudget (s : State) (n : Nat) : Nat :=
  let anchors := if s.flag R.VIEW_RESID_PRESENT && s.view.ctrl.testBit 6 then
    (if s.get R.VIEW_MODE_EFF_MODE % 4 = 0 then 4 else if s.get R.VIEW_MODE_EFF_MODE % 4 = 1 then 2 else 0) else 0
  let overlays := ((List.range (min 64 (s.get R.VIEW_DEPTH_COUNT))).filter (fun k => s.flag R.VIEW_DEPTH_FLAGS_OVERLAY k)).length
  max 3 (s.nextBudget n - anchors - overlays - (if s.comp.groups.any (fun g => g.usable && !g.expansion.isEmpty && g.rear) then 1 else 0))

/-- The registers of a started thread: the four words of the flit in R0 to R3 (log entry 21); the spec states no others: free
values. -/
def State.startRegs (s : State) (tok : Token) : List Nat :=
  let w := tok.tag + tok.vc * 2 ^ 12 + Word.ofBool tok.poison * 2 ^ 14 + tok.payload * 2 ^ 16
  [w % 2 ^ 32, w / 2 ^ 32 % 2 ^ 32, w / 2 ^ 64 % 2 ^ 32, w / 2 ^ 96 % 2 ^ 32] ++ (List.range 28).map (fun k => s.freeNat 32 k)

/-- Starts a thread at an entry point with a token; its ray starts at 0 with the budget in effect (R143, R183, R185). -/
def State.startThread (s : State) (n k entry : Nat) (tok : Token) : State :=
  let t := s.tile n
  let th : Thread := ⟨entry, s.startRegs tok, tok.poison, 0⟩
  let ray : RayAcc := ⟨0, 0, s.ordinaryBudget n, 0, false⟩
  (s.setTile n { t with
    threads := t.threads ++ [(k, th)], rays := (k, ray) :: t.rays.filter (fun q => q.1 ≠ k), begun := t.begun + 1 }).tookFree 28

/-- Counts an accepted token, and its poison (R145). -/
def State.accepted (s : State) (n : Nat) (tok : Token) : State :=
  let s1 := s.count R.FAB_TILE_TOKENS 1 n
  if tok.poison then (s1.bump R.FAB_TILE_ERRX_POISON n).tileEvent n 1 else s1

/-- Whether a port takes nothing before the swap: an input under the new plane only (R120). -/
def TileRt.newOnly (t : TileRt) (port : Nat) : Bool :=
  t.swapDue && !(t.active.elim [] (·.ins)).contains port && (t.standby.elim [] (·.ins)).contains port

/-- The tile accepts the token at the head of a port and acts by its dispatch entry (R143, R144, R162); it stays in the buffer while
no thread is free, or a FORWARD has no room. A port with a held forward accepts nothing. -/
def State.acceptHead (s : State) (n port : Nat) : State :=
  let t := s.tile n
  match t.active, t.head port with
  | some p, some tok =>
    if 0xFF0 ≤ tok.tag ∨ t.newOnly port = true then s
    else
      let took : State := (s.setTile n { t with buf := popPort port t.buf }).accepted n tok
      if t.dead then (took.bump R.FAB_TILE_DROP_DISPATCH n).settle n
      else if t.fwd.any (fun q => q.1 = port) then s
      else
        let e := p.entry tok.tag
        let action := e % 256
        let entry := e / 256 % 1024
        let out := e / 2 ^ 18 % 8
        if action = 0 then (took.bump R.FAB_TILE_DROP_DISPATCH n).settle n
        else if action = 2 then
          match took.sendToken n p out tok with
          | some s1 => s1.settle n
          | none => s
        else
          match freeThread t (p.configWord 5) with
          | none => s
          | some k =>
            let s1 := took.startThread n k entry tok
            if action = 3 then
              match s1.sendToken n p out tok with
              | some s2 => s2.settle n
              | none => s1.setTile n { s1.tile n with fwd := (s1.tile n).fwd ++ [(port, out, tok)] }
            else s1.settle n
  | _, _ => s

/-- A token comes to a port: the oldest flit on its way, the reply of a fetch port, or a token of the intake. -/
def State.bring (s : State) (n port : Nat) : Arrival → State
  | .mesh => (s.arrive n port (fun t => decide (t.tag < 0xFF0))).getD s
  | .reply p tok last =>
    if 24 ≤ p ∨ 0xFF0 ≤ tok.tag then s
    else
      match s.fetchReply n port p tok last with
      | some s1 => (s1.arrive n port (fun t => decide (t.tag < 0xFF0))).getD s1
      | none => s
  | .intake tok =>
    if 0xFF0 ≤ tok.tag ∨ s.room n port tok.vc = false then s
    else s.setTile n { s.tile n with buf := (s.tile n).buf ++ [(port, tok)] }

/-- TOKEN_DISPATCH (R133, R136, R143): a token arrives at a port, if one is named, and the tile accepts the oldest token of that port if it
can. -/
def execTokenDispatch (n port : Nat) (arrive : Option Arrival) (s : State) : Out :=
  if 400 ≤ n ∨ 8 ≤ port then .next s
  else .next ((match arrive with | some a => s.bring n port a | none => s).acceptHead n port)

/-- Marks the token at the head of a port as poisoned. -/
def poisonHead (port : Nat) : List (Nat × Token) → List (Nat × Token)
  | [] => []
  | q :: rest => if q.1 = port then (q.1, { q.2 with poison := true }) :: rest else q :: poisonHead port rest

/-- FLIT_POISON (R153): a double-bit error in the flit the tile is about to accept: the token is accepted with POISON set. -/
def execFlitPoison (n port : Nat) (s : State) : Out :=
  if 400 ≤ n ∨ 8 ≤ port then .next s
  else
    match (s.tile n).head port with
    | some tok =>
      if 0xFF0 ≤ tok.tag then .next s
      else
        let s1 := s.charge n (s.get R.FAB_HEALTH_WEIGHT_REFETCH) false
        .next ((s1.setTile n { s1.tile n with buf := poisonHead port (s1.tile n).buf }).acceptHead n port)
    | none => .next s

/-- TOKEN_FORWARD_RETRY (R144): what waits for room goes on: boundary tokens at the tile's output ports and at the fetch ports, then the
forward an input port holds, which is released. -/
def execTokenForwardRetry (n port : Nat) (s : State) : Out :=
  let s0 := (s.fab.fetch.map (·.1)).foldl (fun t p => t.fetchRun p) (s.flushOut n)
  let t := s0.tile n
  match t.active, t.fwd.find? (fun q => q.1 = port) with
  | some p, some (_, out, tok) =>
    let s1 := s0.setTile n { t with fwd := t.fwd.filter (fun q => q.1 ≠ port) }
    match s1.sendToken n p out tok with
    | some s2 => .next (s2.settle n)
    | none => .next s0
  | _, _ => .next s0

/-- THREAD_START_HELD (R143): a token held for want of a thread starts one. -/
def execThreadStartHeld (n port : Nat) (s : State) : Out := .next (if n < 400 then s.acceptHead n port else s)

/-! ### Droop and voltage (R149 to R152) -/

/-- DROOP_DETECT (R149): the next cycle is stretched; MARGIN counts stretched cycles in units of 1,024. -/
def execDroopDetect (n : Nat) (s : State) : Out :=
  if 400 ≤ n then .next s
  else
    let c := (s.tile n).stretch + 1
    let s1 := s.setTile n { s.tile n with stretch := c % 1024 }
    .next (if c = 1024 then s1.bump R.FAB_TILE_MARGIN_STRETCHED n else s1)

/-- The highest voltage of a quadrant rail in mV (R151, R557). -/
def State.voltCap (s : State) : Nat :=
  let c := 880 - s.thm.level * 160 / 320 * 5
  if s.profile = 2 then min 720 c else c

/-- What a tile's generator is set to (R149): the slower of the replica and the target, within 0.6 to 1.45 GHz. -/
def State.generatorFreq (s : State) (replica : Nat) : Nat := Word.clamp 600 1450 (min replica s.clockTarget)

/-- A tile's clock over an interval (R149, R150): what its generator is set to, and its mean frequency, which is never above it. -/
def State.tileClock (s : State) (c : TileClock) : State :=
  let f := s.generatorFreq c.replica
  (s.setTile c.tile { s.tile c.tile with freq := f }).put R.FAB_TILE_CLK_MEAN (min c.mean f) c.tile

/-- The slowest of a quadrant's active tiles: the lowest replica frequency, the first listed among equals (R151). -/
def slowest : List TileClock → Option TileClock
  | [] => none
  | c :: l => some (l.foldl (fun a b => if b.replica < a.replica then b else a) c)

/-- QUAD_VOLTAGE_LOOP (R151, R152): the rail of quadrant `q` moves one step of 5 mV towards the voltage at which its slowest active tile just
meets its target, or towards its cap when that has fallen below it. A rail that stood at 0 starts from its floor (DESIGN CHOICE, log entry
87: the spec gives no first voltage). At the cap, a tile whose replica still misses its target sets AT_LIMIT. -/
def execQuadVoltageLoop (q : Nat) (clocks : List TileClock) (s : State) : Out :=
  if 4 ≤ q then .next s
  else
    let mine := clocks.filter (fun c => decide (c.tile < 400) && quadOfTile c.tile = q &&
      (s.tileState c.tile = 1 || s.tileState c.tile = 3 || s.tileState c.tile = 4))
    let cap := s.voltCap
    let v := max 620 (s.get R.FAB_QUAD_VOLT q)
    let s1 := mine.foldl (fun t c => t.tileClock c) s
    match slowest mine with
    | none => .next (s1.put R.FAB_QUAD_VOLT v q)
    | some c =>
      let want := Word.clamp 620 cap c.want
      let v' := if v < want then min want (v + 5) else if want < v then max want (v - 5) else v
      let low := mine.foldl (fun a b => min a (min b.mean (s.generatorFreq b.replica))) 2047
      let s2 := (s1.put R.FAB_QUAD_VOLT v' q).put R.FAB_QUAD_FREQ low q
      .next (if cap ≤ v' ∧ c.replica < s.clockTarget then
          ((s2.put R.FAB_QUAD_LIMIT_AT_LIMIT 1 q).bump R.FAB_QUAD_LIMIT_LIMIT_COUNT q).raise .fab 3
        else s2)

end Sys2Proof.Machine
end

