-- ==== Sys2Proof/Machine/Mem.lean ====
section
/-!
DEFINITION. The memory controllers (spec/14): requests by class, ECC, freezes, refresh, row disturbance, tracking, frequency
changes, the region table.
-/

namespace Sys2Proof.Machine

open Sys2Proof

/-! ### Classes and history (R413, R431) -/

/-- The class of a request: 0 P, 1 D, 2 M, 3 B (Table 14.2). A lossless engine's request has the class of its job: intake D, pair M, the
others B. -/
def memCls (q : MemReq) : Nat :=
  let n := q.requester
  if n < 24 ∨ n = 33 then 0
  else if n < 28 ∨ n = 30 ∨ n = 31 then 1
  else if n < 30 then (if q.jobClass = 1 then 1 else if q.jobClass = 2 then 2 else 3)
  else if n = 34 then 2
  else 3

/-- The bytes a request moves. -/
def memSize (q : MemReq) : Nat := match q.write with | some bs => bs.length | none => q.len

/-- The address of a byte within its channel (R410). -/
def State.channelAddr (s : State) (a : Nat) : Nat := a / 512 / max 1 s.trainedChannels * 512 + a % 512

/-- The row of an address (R410). -/
def State.rowOf (s : State) (a : Nat) : Nat := (Config.rowOf (s.channelAddr a)).toNat

/-- The bank of an address: the low row bits XORed with column bits (R410). -/
def State.bankOf (s : State) (a : Nat) : Nat :=
  (BitVec.ofNat 4 (s.rowOf a) ^^^ Config.columnAbove (s.channelAddr a)).toNat

/-- Whether the row of an address stands open (R417). -/
def State.rowOpen (s : State) (a : Nat) : Bool := s.mem.open_.any (fun o => o == (s.channelOf a, s.bankOf a, s.rowOf a))

/-- Whether a request is one a requester of Table 14.2 can make to controller `c`: inside the data space (R409), a fetch port on its own two
channels (R132, R408), a lossless engine for the job it runs. -/
def State.memAdmits (s : State) (c : Nat) (q : MemReq) : Bool :=
  let ch := s.channelOf q.addr
  decide (ch / 8 = c ∧ q.requester ≤ 37 ∧ q.addr + memSize q ≤ s.dataSpace ∧ (q.requester < 24 → ch / 2 = q.requester)) &&
    (!decide (q.requester = 28 ∨ q.requester = 29) ||
      s.lzc.jobs.any (fun j => decide (j.engine + 28 = q.requester ∧ j.cls = q.jobClass)))

/-- STAT.STATE of controller `c`: 0 OFF, 1 TRAINING, 2 READY, 3 SELF_REFRESH, 4 FREQ_CHANGE, 5 FROZEN. -/
def State.ctrlState (s : State) (c : Nat) : Nat := s.get R.MEM_C_STAT_STATE c

/-- The command history of controller `c` takes one entry, newest first. The spec numbers no commands: the code is a free value
(log entry 1). -/
def State.memHist (s : State) (c bank ch : Nat) : State :=
  let s1 := (List.range 15).foldl (fun t k => t.put R.MEM_C_HIST (s.get R.MEM_C_HIST c k) c (k + 1)) s
  ((((s1.put R.MEM_C_HIST_CMD (s.freeNat 4) c 0).put R.MEM_C_HIST_BANK bank c 0).put R.MEM_C_HIST_CHANNEL ch c 0).put
    R.MEM_C_HIST_TIME (s.now % 2 ^ 20) c 0).tookFree 1

/-- A request is ready of class P for channel `ch`. -/
def State.classPReady (s : State) (ch : Nat) : Bool := s.mem.queue.any (fun q => memCls q = 0 && s.channelOf q.addr = ch)

/-! ### Freeze (R430 to R432) -/

/-- An uncorrectable error of an access freezes the controller of its channel: capture, FROZEN, ALERT_N, the fatal entry, the failure notice of a
module that holds the drive, the request to the host for CORE. A further error sets OVERFLOW only. -/
def State.memFreeze (s : State) (cause addr syndrome : Nat) : State :=
  let ch := s.channelOf addr
  let c := ch / 8
  if s.ctrlState c = 5 then s.put R.MEM_C_FRZ_INFO_OVERFLOW 1 c
  else
    let s1 := ((((s.put R.MEM_C_FRZ_INFO (ch % 8) c).put R.MEM_C_FRZ_INFO_CAUSE cause c).put R.MEM_C_FRZ_INFO_BANK (s.bankOf addr) c).put
      R.MEM_C_FRZ_INFO_SYNDROME syndrome c).put R.MEM_C_FRZ_INFO_VALID 1 c
    let s2 := ((s1.put R.MEM_C_FRZ_ADDR addr c).put R.MEM_C_FRZ_ROW (s.rowOf addr) c).put R.MEM_C_STAT_STATE 5 c
    let id := s2.teph.nextId
    let s3 := ((s2.raise .mem 1).alert).offer 17 3 0 0x500 (s2.get R.MEM_C_FRZ_INFO c) (addr % 2 ^ 32) (.val (addr / 2 ^ 32))
    let s4 := (s3.sendFail .memFreeze (some id)).notice 1 c
    { s4 with mem := { s4.mem with freezeDue := some s4.time.raw, freezeId := some id } }

/-- A corrected single-bit error (R415, R582): the counter of accesses or of the scrubber, CORR. -/
def State.memCorrect (s : State) (scrub : Bool) (addr : Nat) : State :=
  let c := s.channelOf addr / 8
  let s1 := if scrub then s.bump R.MEM_C_ECC_SCRUB c else s.bump R.MEM_C_ECC_ACCESS c
  (s1.raise .mem 0).noteCorr 17 2 false addr

/-! ### Row disturbance (R421, R422) -/

/-- The requester that made most of a row's activations. -/
def mostOf (l : List (Nat × Nat)) : Nat := (l.foldl (fun a b => if a.2 < b.2 then b else a) (0, 0)).1

/-- Counts one more activation by a requester. -/
def countBy (r : Nat) (l : List (Nat × Nat)) : List (Nat × Nat) :=
  if l.any (fun p => p.1 = r) then l.map (fun p => if p.1 = r then (r, p.2 + 1) else p) else l ++ [(r, 1)]

/-- Counts an activation of a row; at the threshold a refresh-management command, and a throttle for a requester not of class P. -/
def State.activate (s : State) (q : MemReq) (ch : Nat) : State :=
  let bank := s.bankOf q.addr
  let row := s.rowOf q.addr
  let same (x : RowCount) : Bool := x.ch = ch && x.bank = bank && x.row = row
  let old := (s.mem.rows.find? same).getD ⟨ch, bank, row, 0, []⟩
  let new : RowCount := { old with count := old.count + 1, by_ := countBy q.requester old.by_ }
  let rest := s.mem.rows.filter (fun x => !same x)
  let open1 := (ch, bank, row) :: s.mem.open_.filter (fun o => !(o.1 = ch && o.2.1 = bank))
  let thr := s.mem.throttled.map (fun t =>
    if t.1 = q.requester ∧ t.2.1 = ch ∧ t.2.2.1 = bank then (t.1, t.2.1, t.2.2.1, s.time.raw) else t)
  let s1 : State := { s with mem := { s.mem with open_ := open1, throttled := thr } }
  if new.count < max 256 (s.get R.MEM_RH_THRESH) then { s1 with mem := { s1.mem with rows := new :: rest } }
  else
    let who := mostOf new.by_
    let s2 : State := { s1 with mem := { s1.mem with rows := rest } }
    let s3 := (((s2.bump R.MEM_CH_RH_RFM (ch / 8) (ch % 8)).put R.MEM_CH_RH_LAST_ROW row (ch / 8) (ch % 8)).put R.MEM_CH_RH_LAST_BANK
      bank (ch / 8) (ch % 8)).put R.MEM_CH_RH_LAST_REQ who (ch / 8) (ch % 8)
    if memCls { q with requester := who } = 0 then s3
    else
      let s4 := (s3.bump R.MEM_CH_RH_THROTTLES (ch / 8) (ch % 8)).raise .mem 3
      { s4 with mem := { s4.mem with throttled := s4.mem.throttled ++ [(who, ch, bank, s4.time.raw)] } }

/-- Whether a throttle holds a request back now (R422). -/
def State.throttleHolds (s : State) (q : MemReq) : Bool :=
  !s.rowOpen q.addr && s.mem.throttled.any (fun t => t.1 = q.requester && t.2.1 = s.channelOf q.addr && t.2.2.1 = s.bankOf q.addr &&
    decide (s.time.raw < t.2.2.2 + max 1 (s.get R.MEM_RH_THROTTLE_NS)))

/-! ### Serving (R413, R415, R431) -/

/-- A frozen controller answers: reads are poisoned, writes discarded; BAR2 writes are recorded (R431). -/
def State.frozenServe (s : State) (q : MemReq) : State :=
  match q.write with
  | some _ => if q.requester = 35 then s.recOther (R.MEM_C_STAT.off (s.channelOf q.addr / 8) 0) else s
  | none => { s with mem := { s.mem with lastRead := [], lastPoison := true } }

/-- The access itself. -/
def State.memAccess (s : State) (q : MemReq) : State :=
  match q.write with
  | some bs => s.writeBytes q.addr bs
  | none => { s with mem := { s.mem with lastRead := s.readBytes q.addr q.len, lastPoison := false } }

/-- An open page closes: another row of its bank is needed, or the idle time has passed (R417). -/
def State.pageClose (s : State) (ch bank : Nat) : State :=
  { s with mem := { s.mem with open_ := s.mem.open_.filter (fun o => !(o.1 = ch && o.2.1 = bank)) } }

/-- What the ECC logic does with an access at an address (R415, R430, R134): an error in a fetch port poisons what that port holds. -/
def State.eccEffect (s : State) (ecc : EccOutcome) (addr cause : Nat) : State :=
  match ecc with
  | .clean => s
  | .single => s.memCorrect (decide (cause = 4)) addr
  | .double syn => s.memFreeze cause addr syn
  | .parity => s.memFreeze 2 addr 0
  | .fetchPort => (s.fetchPoison (fetchOfChannel (s.channelOf addr))).memFreeze 3 addr 0

/-- Serves one request: data of a controller that is frozen, or that this access freezes, are poisoned. With IDLE at 0 the page closes after
the access. -/
def State.memServe (s : State) (q : MemReq) : State :=
  let ch := s.channelOf q.addr
  let c := ch / 8
  if s.ctrlState c = 5 then s.frozenServe q
  else
    let s1 := (s.memHist c (s.bankOf q.addr) (ch % 8)).count R.MEM_C_BW (memSize q) c (memCls q)
    let s2 := if s.rowOpen q.addr then s1 else s1.activate q ch
    let s3 := s2.eccEffect q.ecc q.addr 1
    let s4 := if s3.ctrlState c = 5 then s3.frozenServe q else s3.memAccess q
    if s.get R.MEM_POLICY_IDLE = 0 then s4.pageClose ch (s.bankOf q.addr) else s4

/-- The request controller `c` serves next: of the highest class with one that no throttle holds, the oldest, or with `pass` the oldest to an
open row (R413). -/
def State.memNext (s : State) (c : Nat) (pass : Bool) : Option MemReq :=
  let mine := s.mem.queue.filter (fun q => s.channelOf q.addr / 8 = c && !s.throttleHolds q)
  (List.range 4).findSome? (fun k =>
    let l := mine.filter (fun q => memCls q = k)
    ((if pass then l.find? (fun q => s.rowOpen q.addr) else none)).or l.head?)

/-- Whether controller `c` serves requests now: READY or FROZEN, initialised, no change running (R424, R428, R429). -/
def State.memServes (s : State) (c : Nat) : Bool :=
  s.mem.ready && (s.ctrlState c = 2 || (s.ctrlState c = 5 && !s.mem.selfRefresh && !s.flag R.MEM_FREQ_BUSY))

/-- MEM_REQUEST (R413): a request becomes ready, if one is given; the controller serves the one class order picks; `pass`: a request to an
open row passes older ones. -/
def execMemRequest (c : Nat) (arrive : Option MemReq) (pass : Bool) (s : State) : Out :=
  let s1 : State := match arrive with
    | some q => if s.memAdmits c q then { s with mem := { s.mem with queue := s.mem.queue ++ [q] } } else s
    | none => s
  if s1.memServes c then
    match s1.memNext c pass with
    | some q => .next (({ s1 with mem := { s1.mem with queue := s1.mem.queue.erase q } } : State).memServe q)
    | none => .next s1
  else .next s1

/-- RH_WINDOW_END (R421, R422): counts and throttles of the window end. -/
def execRhWindowEnd (s : State) : Out := .next { s with mem := { s.mem with rows := [], throttled := [] } }

/-- Whether the scrubber reads an address now (R416): it runs, the controller serves, and no request of a higher class waits there. -/
def State.scrubs (s : State) (addr : Nat) : Bool :=
  let c := s.channelOf addr / 8
  decide (s.get R.MEM_POLICY_SCRUB_H ≠ 0 ∧ s.ctrlState c = 2 ∧ addr < s.dataSpace) && s.memServes c &&
    (s.memNext c false).all (fun q => memCls q = 3)

/-- SCRUB_READ (R416): the scrubber corrects, or its uncorrectable error freezes the controller with cause 4. -/
def execScrubRead (addr : Nat) (ecc : EccOutcome) (s : State) : Out :=
  .next (if s.scrubs addr then s.eccEffect ecc addr 4 else s)

/-- PAGE_IDLE_CLOSE (R417): the bank has been idle for IDLE × 8 ns. -/
def execPageIdleClose (ch bank : Nat) (s : State) : Out := .next (s.pageClose ch bank)

/-! ### Refresh (R418 to R420) -/

/-- The postponement limit of a channel: 1 to 8, at most 4 in the hot range. -/
def State.postponeMax (s : State) (ch : Nat) : Nat :=
  let m := Word.clamp 1 8 (s.get R.MEM_POLICY_POSTPONE_MAX)
  if s.flag R.MEM_CH_STAT_HOT (ch / 8) (ch % 8) then min 4 m else m

/-- REFRESH_DUE (R418): issued, or postponed while class P is ready; at the limit it is issued at once and FORCED advances. Only a
controller that serves or is frozen issues refreshes (R427, R429, R431). -/
def execRefreshDue (ch : Nat) (postpone : Bool) (s : State) : Out :=
  if 48 ≤ ch ∨ s.memServes (ch / 8) = false then .next s
  else
    let debt := s.get R.MEM_CH_STAT_DEBT (ch / 8) (ch % 8)
    .next (if s.postponeMax ch ≤ debt then s.bump R.MEM_CH_REFRESH_FORCED (ch / 8) (ch % 8)
      else if s.classPReady ch && postpone then s.put R.MEM_CH_STAT_DEBT (debt + 1) (ch / 8) (ch % 8)
      else s)

/-- Pays the debt of a channel back to back (R419). -/
def State.geyser (s : State) (ch : Nat) : State :=
  if s.get R.MEM_CH_STAT_DEBT (ch / 8) (ch % 8) = 0 then s
  else (s.put R.MEM_CH_STAT_DEBT 0 (ch / 8) (ch % 8)).bump R.MEM_CH_REFRESH_BURSTS (ch / 8) (ch % 8)

/-- GEYSER_BURST (R419): only with no class P request ready. -/
def execGeyserBurst (ch : Nat) (s : State) : Out := .next (if ch < 48 ∧ s.classPReady ch = false then s.geyser ch else s)

/-- MR4_READ (R420): the code is kept; the hot range is entered at twice the base rate, and left at a reading of the base rate. -/
def execMr4Read (ch code : Nat) (rate : Mr4Rate) (s : State) : Out :=
  if 48 ≤ ch then .next s
  else
    let c := ch / 8
    let k := ch % 8
    let s1 := s.put R.MEM_CH_STAT_MR4 code c k
    let hot := s.flag R.MEM_CH_STAT_HOT c k
    match rate with
    | .twice =>
      if hot then .next s1
      else
        let s2 := ((s1.put R.MEM_CH_STAT_HOT 1 c k).put R.MEM_C_STAT_HOT (Word.setBit (s1.get R.MEM_C_STAT_HOT c) k) c).raise .mem 2
        .next (if 4 < s2.get R.MEM_CH_STAT_DEBT c k then
            (s2.put R.MEM_CH_STAT_DEBT 4 c k).bump R.MEM_CH_REFRESH_BURSTS c k else s2)
    | .above => .next s1
    | _ =>
      .next (if hot then (s1.put R.MEM_CH_STAT_HOT 0 c k).put R.MEM_C_STAT_HOT (Word.clearBit (s1.get R.MEM_C_STAT_HOT c) k) c else s1)

/-! ### Tracking (R425) -/

/-- A delay moves one step towards a centre that has moved by 2 steps or more. -/
def trackStep (delay centre : Int) : Int :=
  if 2 ≤ centre - delay then delay + 1 else if 2 ≤ delay - centre then delay - 1 else delay

/-- EYE_TRACK (R425): widths and centres of read 0, write 0, read 1, write 1; a width below 12/64 UI sets EYE_LOW and is recorded. -/
def execEyeTrack (ch r0 w0 r1 w1 : Nat) (centres : List Int) (s : State) : Out :=
  if 48 ≤ ch ∨ (s.get R.MEM_MAP).testBit ch = false then .next s
  else
    let s1 := (((s.put R.MEM_CH_EYE_RD0 (min 63 r0) (ch / 8) (ch % 8)).put R.MEM_CH_EYE_WR0 (min 63 w0) (ch / 8) (ch % 8)).put
      R.MEM_CH_EYE_RD1 (min 63 r1) (ch / 8) (ch % 8)).put R.MEM_CH_EYE_WR1 (min 63 w1) (ch / 8) (ch % 8)
    let old := ((s1.mem.delays.find? (fun p => p.1 = ch)).map (·.2)).getD centres
    let new := old.zipWith trackStep centres
    let s2 : State := { s1 with mem := { s1.mem with delays := (ch, new) :: s1.mem.delays.filter (fun p => p.1 ≠ ch) } }
    .next (if r0 < 12 ∨ w0 < 12 ∨ r1 < 12 ∨ w1 < 12 then s2.raiseRec .mem 4 else s2)

/-! ### Frequency change (R426 to R429) -/

/-- The data rate a code of REQ or EFF stands for. -/
def memRate (v : Nat) : Nat := if v = 1 then 6400 else if v = 2 then 3200 else 9600

/-- Whether `bw` in 0.1 GB/s fits the usable bandwidth at a rate (R108, R414, R426): 650 GB/s × N / 48 × rate / 9,600. -/
def State.bandwidthFits (s : State) (bw rate : Nat) : Bool := decide (bw * 48 * 9600 ≤ 6500 * s.trainedChannels * rate)

/-- BW_X10 of the active personality; 0 when none is. -/
def State.activeBw (s : State) : Nat := if s.flag R.PERS_STATE_ACTIVE_VALID then needBw (s.slotFile s.activeSlot) else 0

/-- Judges a request for a rate (R426): refused, or accepted for the next end of active lines. -/
def State.freqJudge (s : State) (v : Nat) : State :=
  if v = s.get R.MEM_FREQ_EFF ∨ s.anyFrozen = true ∨ s.bandwidthFits s.activeBw (memRate v) = false then
    (s.put R.MEM_FREQ_REFUSED 1).raise .mem 6
  else { s with mem := { s.mem with freqNext := some v } }

/-- A write of MEM_FREQ.REQ (R426): 3 acts as 0; while a change runs the last request is held. -/
def State.freqRequest (s : State) (v : Nat) : State :=
  let s1 := s.put R.MEM_FREQ_REQ v
  let w := if v % 4 = 3 then 0 else v % 4
  if s1.flag R.MEM_FREQ_BUSY then { s1 with mem := { s1.mem with freqHeld := some w } } else s1.freqJudge w

/-- MEM_FREQ_REQUEST (R426). -/
def execMemFreqRequest (v : Nat) (s : State) : Out := .next (s.freqRequest v)

/-- Serves every request of the queue in order of class and age (R427 step 1). -/
def State.memDrain : Nat → State → State
  | 0, s => s
  | k + 1, s =>
    match (List.range 4).findSome? (fun c => s.mem.queue.find? (fun q => memCls q = c)) with
    | some q => (({ s with mem := { s.mem with queue := s.mem.queue.erase q } } : State).memServe q).memDrain k
    | none => s

/-- MEM_FREQ_CHANGE_START (R427): no line of a subframe is being sent; accepted requests are served, the debt is paid, all controllers change
together. -/
def execMemFreqChangeStart (s : State) : Out :=
  match s.mem.freqNext with
  | some _ =>
    if s.mem.selfRefresh ∨ s.flag R.MEM_FREQ_BUSY = true ∨ s.pseq.inFlight = true then .next s
    else
      let s1 := s.memDrain s.mem.queue.length
      let s2 := (List.range 48).foldl State.geyser s1
      let s3 := (List.range 6).foldl (fun t c => if t.ctrlState c = 2 then t.put R.MEM_C_STAT_STATE 4 c else t) s2
      .next (s3.put R.MEM_FREQ_BUSY 1)
  | none => .next s

/-- Each rate has its own training results (R426): those of the rate left are stored, those of the rate entered are in effect. -/
def State.swapTraining (s : State) (old new : Nat) : State :=
  let mine := ((s.mem.stored.find? (fun p => p.1 = new)).map (·.2)).getD []
  { s with mem := { s.mem with
    delays := mine
    stored := (old, s.mem.delays) :: s.mem.stored.filter (fun p => p.1 ≠ old ∧ p.1 ≠ new) } }

/-- The end of a frequency change (R427): EFF, FREQ_DONE; the controllers serve again; a held request is judged. -/
def State.freqDone (s : State) (v : Nat) : State :=
  let s1 := (List.range 6).foldl (fun t c => if t.ctrlState c = 4 then t.put R.MEM_C_STAT_STATE 2 c else t) s
  let s2 := (((s1.swapTraining (s.get R.MEM_FREQ_EFF) v).put R.MEM_FREQ_BUSY 0).put R.MEM_FREQ_EFF v).raise .mem 5
  let s3 : State := { s2 with mem := { s2.mem with freqNext := none, freqHeld := none } }
  match s2.mem.freqHeld with
  | some w => s3.freqJudge w
  | none => s3

/-- All controllers enter or leave self-refresh (R429); a frozen controller stays frozen. -/
def State.memSelfRefresh (s : State) (enter : Bool) : State :=
  let s1 := (List.range 6).foldl (fun t c =>
    if enter ∧ (t.ctrlState c = 2 ∨ t.ctrlState c = 4) then t.put R.MEM_C_STAT_STATE 3 c
    else if enter = false ∧ t.ctrlState c = 3 then t.put R.MEM_C_STAT_STATE 2 c else t) s
  { s1 with mem := { s1.mem with selfRefresh := enter } }

/-! ### UNFREEZE, the CORE request, the region table (R432 to R434) -/

/-- MEM_UNFREEZE (R433): only from the caretaker, and only while CORE holds; anything else is ignored and recorded. -/
def execMemUnfreeze (r : Req) (key c : Nat) (s : State) : Out :=
  if 6 ≤ c then .next s
  else if key ≠ 0x4D45 ∨ r ≠ .caretaker ∨ s.rst.hold ≠ .core then .next (s.ignored (R.MEM_C_CMD.off c 0) (key * 65536 + 1) r)
  else if s.ctrlState c ≠ 5 then .next s
  else
    let s1 := (s.put R.MEM_C_FRZ_INFO_VALID 0 c).put R.MEM_C_STAT_STATE 3 c
    .next (if s1.anyFrozen then s1 else { s1 with mem := { s1.mem with freezeDue := none } })

/-- FREEZE_CORE_TIMEOUT (R432): with AUTO_CORE, when no CORE has begun DELAY_MS after the freeze, the caretaker requests it. -/
def execFreezeCoreTimeout (s : State) : Out :=
  match s.mem.freezeDue with
  | some _ =>
    let s1 : State := { s with mem := { s.mem with freezeDue := none } }
    .next (if s.flag R.MEM_FREEZE_CTRL_AUTO_CORE ∧ s.rst.hold = .run then s1.coreSource R.RST_CAUSE_SW_CORE .coreEntry s.mem.freezeId else s1)
  | none => .next s

/-- Judges entry `i` after a write: a valid entry outside the host area, or with BASE above LIMIT, is refused (R434). -/
def State.regionJudge (s : State) (i : Nat) : State :=
  let b := s.get R.MEM_REGION_BASE i
  let l := s.get R.MEM_REGION_LIMIT i
  if s.flag R.MEM_REGION_ATTR_VALID i then
    if b ≤ l ∧ l * 4096 + 4095 < s.hostArea then s.put R.MEM_REGION_ATTR_REFUSED 0 i
    else (s.put R.MEM_REGION_ATTR_VALID 0 i).put R.MEM_REGION_ATTR_REFUSED 1 i
  else s

/-- The implemented bits of ATTR (Table 14.6). -/
def attrMask : Word := 0x3F07

/-- The caretaker writes a word of an entry: 0 BASE, 1 LIMIT, 2 ATTR. -/
def State.regionPut (s : State) (i k : Nat) (data : Word) : State :=
  let s1 :=
    if k = 0 then s.put R.MEM_REGION_BASE data.toNat i
    else if k = 1 then s.put R.MEM_REGION_LIMIT data.toNat i
    else (s.put R.MEM_REGION_ATTR (data &&& attrMask).toNat i)
  s1.regionJudge i

/-- REGION_WRITE (R434): from the host or the partner it is ignored and recorded. -/
def execRegionWrite (r : Req) (i k : Nat) (data : Word) (s : State) : Out :=
  if 64 ≤ i ∨ 3 ≤ k then .next s
  else if r ≠ .caretaker then .next (s.ignored (R.MEM_REGION_BASE.off i 0 + 4 * k) data.toNat r)
  else .next (s.regionPut i k data)

end Sys2Proof.Machine
end

