-- ==== Sys2Proof/Machine/Operands.lean ====
section
/-!
DEFINITION. Operand forms that several commands share: component widths (R209, R301), the surface formats of Table 10.1, signed
and unsigned fields of descriptors in memory.
-/

namespace Sys2Proof.Machine

open Sys2Proof

/-- An `n`-bit component widened to 12 bits by bit replication (R209); 8, 6 and 5 bits among them; 1 to 4 bits never occur. -/
def widen (n v : Nat) : Nat :=
  if n = 5 then v * 2 ^ 7 + v * 4 + v / 8
  else if n < 12 then v * 2 ^ (12 - n) + v / 2 ^ (2 * n - 12)
  else v

/-- A 12-bit value narrowed to `n` bits (R301). -/
def narrow (n v : Nat) : Nat := (v * (2 ^ n - 1) + 2047) / 4095

/-- Bytes per pixel of a surface format (Table 10.1). -/
def formatBytes (code : Nat) : Nat := [4, 4, 2, 1, 2, 8].getD code 4

/-- A stored pixel as 12-bit R, G, B, A. -/
def readPixel (code p : Nat) : List Nat :=
  let byte (i : Nat) : Nat := p / 256 ^ i % 256
  let slot (i : Nat) : Nat := p / 65536 ^ i % 4096
  match code with
  | 0 => [widen 8 (byte 2), widen 8 (byte 1), widen 8 (byte 0), widen 8 (byte 3)]
  | 1 => [widen 8 (byte 2), widen 8 (byte 1), widen 8 (byte 0), 4095]
  | 2 => [widen 5 (p / 2 ^ 11 % 32), widen 6 (p / 32 % 64), widen 5 (p % 32), 4095]
  | 3 => [0, 0, 0, widen 8 (byte 0)]
  | 4 => [0, 0, 0, p % 4096]
  | _ => [slot 2, slot 1, slot 0, slot 3]

/-- The pixel stored for 12-bit R, G, B, A. -/
def writePixel (code : Nat) (l : List Nat) : Nat :=
  let c (i : Nat) : Nat := l.getD i 0
  match code with
  | 0 => narrow 8 (c 2) + 256 * narrow 8 (c 1) + 65536 * narrow 8 (c 0) + 2 ^ 24 * narrow 8 (c 3)
  | 1 => narrow 8 (c 2) + 256 * narrow 8 (c 1) + 65536 * narrow 8 (c 0) + 2 ^ 24 * 255
  | 2 => narrow 5 (c 2) + 32 * narrow 6 (c 1) + 2 ^ 11 * narrow 5 (c 0)
  | 3 => narrow 8 (c 3)
  | 4 => c 3
  | _ => c 2 + 65536 * c 1 + 2 ^ 32 * c 0 + 2 ^ 48 * c 3

/-- `n` bytes of a descriptor from offset `a`, little-endian. -/
def leAt (d : List Byte) (a n : Nat) : Nat := Word.le ((d.drop a).take n)

/-- The same, as two's complement. -/
def leAtI (d : List Byte) (a n : Nat) : Int := Word.signed (8 * n) (leAt d a n)

/-- `n` bytes from offset `a`, most significant first. -/
def beAt (d : List Byte) (a n : Nat) : Nat := Word.le ((d.drop a).take n).reverse

/-- The entries of a ring: 2^SIZE, SIZE values outside 4 to 12 acting as 4. -/
def ringEntries (v : Nat) : Nat := 2 ^ (if 4 ≤ v ∧ v ≤ 12 then v else 4)

end Sys2Proof.Machine
end

