-- ==== Sys2Proof/Machine/Inflate.lean ====
section
/-!
DEFINITION. Decompression of the DEFLATE formats (R238, R248, R251, R252): raw DEFLATE (RFC 1951), zlib (RFC 1950) and gzip (RFC 1952). The
RFCs the spec names are outside it; what they say is PRESUMED (log entry 18). A decoder works on all bytes of a stream so far: what it answers
for a prefix is a prefix of what it answers for more.
-/

namespace Sys2Proof.Machine

open Sys2Proof

/-! ### Reading bits -/

/-- Why decoding stops: the bytes ran out; they ran out where a gzip member or a Zstandard frame had ended (R248); or a code of Table 8.5 at a
byte offset. -/
inductive Halt where
  | more
  | between
  | bad (code off : Nat)
  deriving DecidableEq, Repr

/-- A decoder's position in bits, its output, and where the history begins. -/
structure DecSt where
  pos : Nat
  out : Array Byte
  base : Nat
  deriving DecidableEq, Repr

/-- A decoding step: it may stop, and its output stays. -/
abbrev Dec := ExceptT Halt (StateM DecSt)

/-- The byte the last bit read lies in. -/
def Dec.here : Dec Nat := do return ((← get).pos - 1) / 8

/-- Stops with a code at the byte of the last bit read. -/
def Dec.fail {α : Type} (code : Nat) : Dec α := do throw (.bad code (← Dec.here))

/-- Stops with a code at a byte. -/
def Dec.failAt {α : Type} (code off : Nat) : Dec α := throw (.bad code off)

/-- The next bit. -/
def Dec.bit (a : Array Byte) : Dec Nat := do
  let p := (← get).pos
  if p / 8 < a.size then
    modify (fun s => { s with pos := p + 1 })
    return (a.getD (p / 8) 0).toNat / 2 ^ (p % 8) % 2
  else throw .more

/-- The next `n` bits as a number, the first the least significant. -/
def Dec.bits (a : Array Byte) : Nat → Dec Nat
  | 0 => return 0
  | n + 1 => do
    let b ← Dec.bit a
    let r ← Dec.bits a n
    return b + 2 * r

/-- Skips to a byte boundary. -/
def Dec.align : Dec Unit := modify (fun s => { s with pos := (s.pos + 7) / 8 * 8 })

/-- The next `n` bytes, the reader standing at a byte boundary. -/
def Dec.bytes (a : Array Byte) : Nat → Dec (List Byte)
  | 0 => return []
  | n + 1 => do
    let b ← Dec.bits a 8
    let l ← Dec.bytes a n
    return BitVec.ofNat 8 b :: l

/-- Whether the reader stands behind the last byte. -/
def Dec.atEnd (a : Array Byte) : Dec Bool := do return decide (a.size * 8 ≤ (← get).pos)

/-- The offset in bytes of the reader. -/
def Dec.off : Dec Nat := do return (← get).pos / 8

/-- Output of one byte. -/
def Dec.put (b : Byte) : Dec Unit := modify (fun s => { s with out := s.out.push b })

/-- Output of bytes. -/
def Dec.puts : List Byte → Dec Unit
  | [] => return ()
  | b :: l => do
    Dec.put b
    Dec.puts l

/-- Copies `n` bytes from `dist` bytes back. -/
def Dec.copy (dist : Nat) : Nat → Dec Unit
  | 0 => return ()
  | n + 1 => do
    let o := (← get).out
    Dec.put (o.getD (o.size - dist) 0)
    Dec.copy dist n

/-- Bytes of history: those since the member or frame began. -/
def Dec.history : Dec Nat := do return (← get).out.size - (← get).base

/-- Begins a history (R248: each member and each frame has its own). -/
def Dec.fresh : Dec Unit := modify (fun s => { s with base := s.out.size })

/-! ### Check values (R251) -/

/-- CRC-32 of bytes (RFC 1952). -/
def crc32 (l : List Byte) : Nat :=
  let byte (c : BitVec 32) (b : Byte) : BitVec 32 :=
    (List.range 8).foldl (fun x _ => if x.getLsbD 0 then (x >>> 1) ^^^ 0xEDB88320#32 else x >>> 1) (c ^^^ b.setWidth 32)
  (~~~ (l.foldl byte 0xFFFFFFFF#32)).toNat

/-- Adler-32 of bytes (RFC 1950). -/
def adler32 (l : List Byte) : Nat :=
  let (a, b) := l.foldl (fun (p : Nat × Nat) x =>
    let a := (p.1 + x.toNat) % 65521
    (a, (p.2 + a) % 65521)) (1, 0)
  65536 * b + a

/-! ### Prefix codes (RFC 1951, 3.2.2) -/

/-- The symbols with codes of `n` bits, ascending. -/
def symsOf (lens : List Nat) (n : Nat) : List Nat := (List.range lens.length).filter (fun i => lens.getD i 0 = n)

/-- The next symbol: `n` further lengths to try, the code read so far, the first code of its length, the length. -/
def Dec.symGo (a : Array Byte) (lens : List Nat) : Nat → Nat → Nat → Nat → Dec Nat
  | 0, _, _, _ => Dec.fail 0x34
  | n + 1, code, first, len => do
    let c := code + (← Dec.bit a)
    let l := symsOf lens len
    if c < first + l.length then return l.getD (c - first) 0
    else Dec.symGo a lens n (2 * c) (2 * (first + l.length)) (len + 1)

/-- The next symbol of a code given by its lengths. -/
def Dec.sym (a : Array Byte) (lens : List Nat) : Dec Nat := Dec.symGo a lens 15 0 0 1

/-- Room a set of code lengths leaves, in codes of 15 bits; negative when there are too many codes. -/
def codeRoom (lens : List Nat) : Int :=
  (2 ^ 15 : Int) - (((lens.filter (fun n => n ≠ 0)).map (fun n => 2 ^ (15 - n))).foldl (· + ·) 0 : Nat)

/-- Whether code lengths make a code: complete, or for literals and distances a single code of one bit, or none at all for distances. -/
def codeOk (lens : List Nat) (dist : Bool) : Bool :=
  let used := lens.filter (fun n => n ≠ 0)
  decide (codeRoom lens = 0) || decide (used = [1]) || (dist && used.isEmpty)

/-! ### Blocks (RFC 1951, 3.2.3 to 3.2.7) -/

/-- Base and extra bits of the length symbols 257 to 285, and of the distance symbols 0 to 29. -/
def lenBase : List Nat := [3, 4, 5, 6, 7, 8, 9, 10, 11, 13, 15, 17, 19, 23, 27, 31, 35, 43, 51, 59, 67, 83, 99, 115, 131, 163, 195, 227, 258]
def lenExtra : List Nat := [0, 0, 0, 0, 0, 0, 0, 0, 1, 1, 1, 1, 2, 2, 2, 2, 3, 3, 3, 3, 4, 4, 4, 4, 5, 5, 5, 5, 0]
def distBase : List Nat := [1, 2, 3, 4, 5, 7, 9, 13, 17, 25, 33, 49, 65, 97, 129, 193, 257, 385, 513, 769, 1025, 1537, 2049, 3073, 4097, 6145, 8193, 12289, 16385, 24577]
def distExtra : List Nat := [0, 0, 0, 0, 1, 1, 2, 2, 3, 3, 4, 4, 5, 5, 6, 6, 7, 7, 8, 8, 9, 9, 10, 10, 11, 11, 12, 12, 13, 13]

/-- The fixed codes. -/
def fixedLit : List Nat := List.replicate 144 8 ++ List.replicate 112 9 ++ List.replicate 24 7 ++ List.replicate 8 8
def fixedDist : List Nat := List.replicate 32 5

/-- Symbols up to the end of a block; `n` bounds the work. -/
def Dec.symbols (a : Array Byte) (ll dl : List Nat) : Nat → Dec Unit
  | 0 => throw .more
  | n + 1 => do
    let s ← Dec.sym a ll
    if s < 256 then
      Dec.put (BitVec.ofNat 8 s)
      Dec.symbols a ll dl n
    else if s = 256 then return ()
    else if 285 < s then Dec.fail 0x34
    else
      let x ← Dec.bits a (lenExtra.getD (s - 257) 0)
      let d ← Dec.sym a dl
      if 29 < d then Dec.fail 0x34
      else
        let y ← Dec.bits a (distExtra.getD d 0)
        let dist := distBase.getD d 0 + y
        if (← Dec.history) < dist then Dec.fail 0x34
        else
          Dec.copy dist (lenBase.getD (s - 257) 0 + x)
          Dec.symbols a ll dl n

/-- The order of the code length code. -/
def clOrder : List Nat := [16, 17, 18, 0, 8, 7, 9, 6, 10, 5, 11, 4, 12, 3, 13, 2, 14, 1, 15]

/-- Code lengths up to `n` in number, coded with the code length code; `k` bounds the work. -/
def Dec.lengths (a : Array Byte) (cl : List Nat) (n : Nat) : Nat → List Nat → Dec (List Nat)
  | 0, acc => return acc
  | k + 1, acc =>
    if n ≤ acc.length then return acc
    else do
      let s ← Dec.sym a cl
      if s < 16 then Dec.lengths a cl n k (acc ++ [s])
      else if s = 16 then
        match acc.getLast? with
        | none => Dec.fail 0x34
        | some p => do
          let r ← Dec.bits a 2
          Dec.lengths a cl n k (acc ++ List.replicate (3 + r) p)
      else
        let r ← Dec.bits a (if s = 17 then 3 else 7)
        Dec.lengths a cl n k (acc ++ List.replicate ((if s = 17 then 3 else 11) + r) 0)

/-- `n` numbers of 3 bits. -/
def Dec.threes (a : Array Byte) : Nat → Dec (List Nat)
  | 0 => return []
  | n + 1 => do
    let x ← Dec.bits a 3
    let l ← Dec.threes a n
    return x :: l

/-- The codes of a dynamic block. -/
def Dec.dynamic (a : Array Byte) : Dec (List Nat × List Nat) := do
  let hlit := 257 + (← Dec.bits a 5)
  let hdist := 1 + (← Dec.bits a 5)
  let hclen := 4 + (← Dec.bits a 4)
  if 286 < hlit ∨ 30 < hdist then Dec.fail 0x34
  else
    let t ← Dec.threes a hclen
    let cl := (List.range 19).map (fun i => ((clOrder.zip t).find? (fun p => p.1 = i)).map (·.2) |>.getD 0)
    if codeRoom cl ≠ 0 then Dec.fail 0x34
    else
      let l ← Dec.lengths a cl (hlit + hdist) (hlit + hdist) []
      let ll := l.take hlit
      let dl := l.drop hlit
      if l.length ≠ hlit + hdist ∨ ll.getD 256 0 = 0 ∨ codeOk ll false = false ∨ codeOk dl true = false then Dec.fail 0x34
      else return (ll, dl)

/-- `n` bytes straight to the output. -/
def Dec.raw (a : Array Byte) : Nat → Dec Unit
  | 0 => return ()
  | n + 1 => do
    let b ← Dec.bits a 8
    Dec.put (BitVec.ofNat 8 b)
    Dec.raw a n

/-- A stored block. -/
def Dec.stored (a : Array Byte) : Dec Unit := do
  Dec.align
  let n ← Dec.bits a 16
  let m ← Dec.bits a 16
  if n + m ≠ 65535 then Dec.fail 0x34 else Dec.raw a n

/-- Blocks up to the final one; `n` bounds the work. -/
def Dec.blocks (a : Array Byte) : Nat → Dec Unit
  | 0 => throw .more
  | n + 1 => do
    let final ← Dec.bit a
    let t ← Dec.bits a 2
    match t with
    | 0 => Dec.stored a
    | 1 => Dec.symbols a fixedLit fixedDist (8 * a.size + 1)
    | 2 => do
      let c ← Dec.dynamic a
      Dec.symbols a c.1 c.2 (8 * a.size + 1)
    | _ => Dec.fail 0x34
    if final = 1 then return () else Dec.blocks a n

/-- A DEFLATE stream. -/
def Dec.deflate (a : Array Byte) : Dec Unit := do
  Dec.fresh
  Dec.blocks a (8 * a.size + 1)

/-- The bytes put out since the history began. -/
def Dec.since : Dec (List Byte) := do
  let s ← get
  return s.out.toList.drop s.base

/-! ### zlib and gzip -/

/-- A zlib stream (RFC 1950): FDICT is refused with 0x37, a CINFO above 7 with 0x33. -/
def Dec.zlib (a : Array Byte) : Dec Unit := do
  let cmf ← Dec.bits a 8
  if cmf % 16 ≠ 8 ∨ 7 < cmf / 16 then Dec.fail 0x33
  else
    let flg ← Dec.bits a 8
    if (256 * cmf + flg) % 31 ≠ 0 then Dec.fail 0x33
    else if flg.testBit 5 then Dec.fail 0x37
    else
      Dec.deflate a
      Dec.align
      let o ← Dec.off
      let t ← Dec.bytes a 4
      if beAt t 0 4 ≠ adler32 (← Dec.since) then Dec.failAt 0x35 o else return ()

/-- Skips a string and its final zero byte; `n` bounds the work. -/
def Dec.cstring (a : Array Byte) : Nat → Dec Unit
  | 0 => throw .more
  | n + 1 => do
    let b ← Dec.bits a 8
    if b = 0 then return () else Dec.cstring a n

/-- The header of a gzip member (RFC 1952) behind its first byte: FEXTRA, FNAME and FCOMMENT are skipped, FHCRC is verified. -/
def Dec.gzipHead (a : Array Byte) (start : Nat) : Dec Unit := do
  let cm ← Dec.bits a 8
  if cm ≠ 8 then Dec.fail 0x33
  else
    let flg ← Dec.bits a 8
    if 32 ≤ flg then Dec.fail 0x33
    else
      let _ ← Dec.bytes a 6
      if flg.testBit 2 then
        let n ← Dec.bits a 16
        let _ ← Dec.bytes a n
      if flg.testBit 3 then Dec.cstring a (a.size + 1)
      if flg.testBit 4 then Dec.cstring a (a.size + 1)
      if flg.testBit 1 then
        let o ← Dec.off
        let t ← Dec.bits a 16
        if t ≠ crc32 ((a.toList.drop start).take (o - start)) % 65536 then Dec.failAt 0x35 o else return ()
      else return ()

/-- Consecutive gzip members, decoded into one output (R248): `first` while none has ended; `n` bounds the work. -/
def Dec.gzip (a : Array Byte) : Nat → Bool → Dec Unit
  | 0, _ => throw .more
  | n + 1, first => do
    let start ← Dec.off
    if !first && (← Dec.atEnd a) then throw .between
    else
      let i ← Dec.bits a 8
      if i ≠ 0x1F then Dec.failAt 0x33 start
      else
        let j ← Dec.bits a 8
        if j ≠ 0x8B then Dec.failAt 0x33 (if first then start + 1 else start)
        else
          Dec.gzipHead a start
          Dec.deflate a
          Dec.align
          let o ← Dec.off
          let c ← Dec.bits a 32
          let l ← Dec.since
          if c ≠ crc32 l then Dec.failAt 0x35 o
          else
            let z ← Dec.bits a 32
            if z ≠ l.length % 2 ^ 32 then Dec.failAt 0x35 (o + 4) else Dec.gzip a n false

end Sys2Proof.Machine
end

