-- ==== Sys2Proof/Machine/Zstd.lean ====
section
/-!
DEFINITION. Decompression of Zstandard frames (R238, R248, R251, R252; RFC 8878, whose text is outside the spec: PRESUMED, log entry 18).
-/

namespace Sys2Proof.Machine

open Sys2Proof

/-! ### XXH64 (R251) -/

/-- The primes of XXH64. -/
def xxP1 : BitVec 64 := 0x9E3779B185EBCA87#64
def xxP2 : BitVec 64 := 0xC2B2AE3D27D4EB4F#64
def xxP3 : BitVec 64 := 0x165667B19E3779F9#64
def xxP4 : BitVec 64 := 0x85EBCA77C2B2AE63#64
def xxP5 : BitVec 64 := 0x27D4EB2F165667C5#64

def xxRound (acc x : BitVec 64) : BitVec 64 := ((acc + x * xxP2).rotateLeft 31) * xxP1
def xxMerge (acc v : BitVec 64) : BitVec 64 := (acc ^^^ xxRound 0 v) * xxP1 + xxP4

/-- Lane of 8 bytes from offset `o`. -/
def xxLane (l : List Byte) (o : Nat) : BitVec 64 := BitVec.ofNat 64 (leAt l o 8)

/-- The four accumulators over `n` stripes of 32 bytes. -/
def xxStripes : Nat → List Byte → List (BitVec 64) → List (BitVec 64) × List Byte
  | 0, l, acc => (acc, l)
  | n + 1, l, acc => xxStripes n (l.drop 32) (acc.zipIdx.map (fun p => xxRound p.1 (xxLane l (8 * p.2))))

/-- What is left behind the stripes: `n` bounds the work. -/
def xxTail : Nat → List Byte → BitVec 64 → BitVec 64
  | 0, _, h => h
  | n + 1, l, h =>
    if 8 ≤ l.length then xxTail n (l.drop 8) (((h ^^^ xxRound 0 (xxLane l 0)).rotateLeft 27) * xxP1 + xxP4)
    else if 4 ≤ l.length then xxTail n (l.drop 4) (((h ^^^ (BitVec.ofNat 64 (leAt l 0 4) * xxP1)).rotateLeft 23) * xxP2 + xxP3)
    else match l with
      | [] => h
      | b :: t => xxTail n t (((h ^^^ (b.setWidth 64 * xxP5)).rotateLeft 11) * xxP1)

/-- XXH64 of bytes with seed 0. -/
def xxh64 (l : List Byte) : BitVec 64 :=
  let (h0, rest) :=
    if 32 ≤ l.length then
      let (acc, rest) := xxStripes (l.length / 32) l [xxP1 + xxP2, xxP2, 0, 0 - xxP1]
      let a (i : Nat) : BitVec 64 := acc.getD i 0
      let h := (a 0).rotateLeft 1 + (a 1).rotateLeft 7 + (a 2).rotateLeft 12 + (a 3).rotateLeft 18
      (acc.foldl xxMerge h, rest)
    else (xxP5, l)
  let h1 := xxTail (l.length + 1) rest (h0 + BitVec.ofNat 64 l.length)
  let h2 := (h1 ^^^ (h1 >>> 33)) * xxP2
  let h3 := (h2 ^^^ (h2 >>> 29)) * xxP3
  h3 ^^^ (h3 >>> 32)

/-! ### Finite state entropy tables -/

/-- A cell of a decoding table: its symbol, the bits to read, the base of the next state. -/
structure FseCell where
  sym : Nat
  bits : Nat
  base : Nat
  deriving DecidableEq, Repr

/-- A decoding table of 2^log cells. -/
structure FseTable where
  log : Nat
  cells : List FseCell
  deriving DecidableEq, Repr

/-- The positions symbols of probability -1 leave free, in the order the spreading visits them. -/
def fseOrder (log lows : Nat) : List Nat :=
  let n := 2 ^ log
  let step := n / 2 + n / 8 + 3
  ((List.range n).map (fun i => i * step % n)).filter (fun p => p < n - lows)

/-- The table of a distribution; -1 stands for a probability below 1. -/
def fseTable (log : Nat) (probs : List Int) : FseTable :=
  let n := 2 ^ log
  let low := (List.range probs.length).filter (fun s => probs.getD s 0 = -1)
  let spread := (List.range probs.length).flatMap (fun s => List.replicate (probs.getD s 0).toNat s)
  let place := (fseOrder log low.length).zip spread
  let symAt (p : Nat) : Nat :=
    if n - low.length ≤ p then low.getD (n - 1 - p) 0 else ((place.find? (fun q => q.1 = p)).map (·.2)).getD 0
  let syms := (List.range n).map symAt
  let cell (i : Nat) : FseCell :=
    let s := syms.getD i 0
    let next := (max 1 (probs.getD s 0).natAbs) + ((syms.take i).filter (fun x => x = s)).length
    let b := log - Nat.log2 next
    ⟨s, b, next * 2 ^ b - n⟩
  ⟨log, (List.range n).map cell⟩

/-- A table with one symbol. -/
def fseRle (s : Nat) : FseTable := ⟨0, [⟨s, 0, 0⟩]⟩

/-- The distributions every decoder knows: literal lengths, offsets, match lengths. -/
def fseLit : FseTable := fseTable 6 [4, 3, 2, 2, 2, 2, 2, 2, 2, 2, 2, 2, 2, 1, 1, 1, 2, 2, 2, 2, 2, 2, 2, 2, 2, 3, 2, 1, 1, 1, 1, 1, -1, -1, -1, -1]
def fseOff : FseTable := fseTable 5 [1, 1, 1, 1, 1, 1, 2, 2, 2, 1, 1, 1, 1, 1, 1, 1, 1, 1, 1, 1, 1, 1, 1, 1, -1, -1, -1, -1, -1]
def fseMatch : FseTable :=
  fseTable 6 ([1, 4, 3, 2, 2, 2, 2, 2, 2] ++ List.replicate 37 1 ++ [-1, -1, -1, -1, -1, -1, -1])

/-- Zero flags of a distribution: runs of 3 go on. -/
def fseZeros (a : Array Byte) : Nat → Dec Nat
  | 0 => return 0
  | n + 1 => do
    let r ← Dec.bits a 2
    if r = 3 then return 3 + (← fseZeros a n) else return r

/-- The probabilities of a distribution: what is left of 2^log plus one, those read; `k` bounds the work. -/
def fseProbs (a : Array Byte) (most : Nat) : Nat → Nat → List Int → Dec (List Int)
  | 0, _, _ => Dec.fail 0x34
  | k + 1, left, acc =>
    if left ≤ 1 then return acc
    else if most ≤ acc.length then Dec.fail 0x34
    else do
      let bits := Nat.log2 left + 1
      let v ← Dec.bits a (bits - 1)
      let spare := 2 ^ bits - 1 - left
      let p ← if v < spare then pure v
        else do
          let b ← Dec.bit a
          let w := v + b * 2 ^ (bits - 1)
          pure (if w < 2 ^ (bits - 1) then w else w - spare)
      let prob : Int := (p : Int) - 1
      let left1 := left - prob.natAbs
      if prob = 0 then
        let z ← fseZeros a most
        fseProbs a most k left1 (acc ++ List.replicate (1 + z) 0)
      else fseProbs a most k left1 (acc ++ [prob])

/-- A distribution of at most `most` symbols in the bytes, its accuracy at most `lim`. -/
def Dec.fse (a : Array Byte) (lim most : Nat) : Dec FseTable := do
  let log := 5 + (← Dec.bits a 4)
  if lim < log then Dec.fail 0x34
  else
    let l ← fseProbs a most (most + 2) (2 ^ log + 1) []
    if most < l.length ∨ (l.map Int.natAbs).foldl (· + ·) 0 ≠ 2 ^ log then Dec.fail 0x34
    else
      Dec.align
      return fseTable log l

/-! ### Bit streams read backwards -/

/-- The bits of a stream read from its end: the last byte's highest 1 marks where they begin; none without that mark. -/
def backBits (l : List Byte) : Option (List Bool) :=
  match l.reverse with
  | [] => none
  | b :: _ =>
    if b = 0 then none
    else some (((l.reverse.flatMap (fun x => (List.range 8).map (fun i => x.getLsbD (7 - i)))).dropWhile (fun x => x = false)).drop 1)

/-- The number the next `n` bits spell, most significant first, missing bits as 0. -/
def peekBits (l : List Bool) (n : Nat) : Nat := (List.range n).foldl (fun v i => 2 * v + (if l.getD i false then 1 else 0)) 0

/-- Takes `n` bits; none when there are too few. -/
def takeBits (l : List Bool) (n : Nat) : Option (Nat × List Bool) := if l.length < n then none else some (peekBits l n, l.drop n)

/-! ### Huffman-coded literals -/

/-- Weights read with two interleaved states until the bits run out; `n` bounds the work. -/
def weightsGo (t : FseTable) : Nat → List Bool → Nat → Nat → List Nat → Option (List Nat)
  | 0, _, _, _, _ => none
  | n + 1, l, s, other, acc =>
    match t.cells[s]? with
    | none => none
    | some c =>
      match takeBits l c.bits with
      | none => (t.cells[other]?).map (fun d => acc ++ [c.sym, d.sym])
      | some (v, rest) => weightsGo t n rest other (c.base + v) (acc ++ [c.sym])

/-- Code lengths of the symbols, from all weights but the last (RFC 8878, 4.2.1): a set that leaves no power of two is bad. -/
def huffLengths (w : List Nat) : Option (List Nat) :=
  let sum := (w.map (fun x => if x = 0 then 0 else 2 ^ (x - 1))).foldl (· + ·) 0
  if sum = 0 then none
  else
    let most := Nat.log2 sum + 1
    let left := 2 ^ most - sum
    if 11 < most ∨ left ≠ 2 ^ Nat.log2 left ∨ 256 ≤ w.length then none
    else some ((w ++ [Nat.log2 left + 1]).map (fun x => if x = 0 then 0 else most + 1 - x))

/-- A Huffman tree: the lengths of its codes, and the longest. -/
structure HuffTree where
  lens : List Nat
  most : Nat
  deriving DecidableEq, Repr

/-- The symbol of the next bits, and how many they are: codes count up from the longest, within a length by symbol. -/
def HuffTree.find (t : HuffTree) (v : Nat) : Option (Nat × Nat) :=
  let order := (List.range t.most).flatMap (fun i => (symsOf t.lens (t.most - i)).map (fun s => (s, t.most - i)))
  (order.foldl (fun (p : Nat × Option (Nat × Nat)) x =>
    let up := p.1 + 2 ^ (t.most - x.2)
    (up, if p.2.isNone ∧ v < up then some x else p.2)) (0, none)).2

/-- `n` literals of a stream, which must end with them. -/
def huffLits (t : HuffTree) : Nat → List Bool → Option (List Byte)
  | 0, l => if l.isEmpty then some [] else none
  | n + 1, l =>
    match t.find (peekBits l t.most) with
    | none => none
    | some (s, b) => if l.length < b then none else (huffLits t n (l.drop b)).map (BitVec.ofNat 8 s :: ·)

/-- Runs a reading of bytes by itself: what it answers, and the bytes it leaves. -/
def readAlone {α : Type} (l : List Byte) (r : Array Byte → Dec α) : Option (α × List Byte) :=
  match (r l.toArray).run ⟨0, #[], 0⟩ with
  | (.ok x, s) => some (x, l.drop ((s.pos + 7) / 8))
  | _ => none

/-- The tree at the front of the bytes, and the bytes behind it. -/
def huffTree (l : List Byte) : Option (HuffTree × List Byte) :=
  let mk (w : List Nat) (rest : List Byte) : Option (HuffTree × List Byte) :=
    (huffLengths w).map (fun x => (⟨x, x.foldl max 0⟩, rest))
  match l with
  | [] => none
  | h :: t =>
    let n := h.toNat
    if n < 128 then
      if t.length < n then none
      else
        match readAlone (t.take n) (fun a => Dec.fse a 6 13) with
        | none => none
        | some (table, rest) =>
          match (backBits rest).bind (fun b => (takeBits b table.log).bind (fun p => (takeBits p.2 table.log).map (fun q => (p.1, q.1, q.2)))) with
          | none => none
          | some (s1, s2, b) => (weightsGo table 256 b s1 s2 []).bind (fun w => mk w (t.drop n))
    else
      let k := n - 127
      let bytes := (k + 1) / 2
      if t.length < bytes then none
      else mk ((List.range k).map (fun i => let b := (t.getD (i / 2) 0).toNat; if i % 2 = 0 then b / 16 else b % 16)) (t.drop bytes)

/-- The literals of streams of a tree: one, or four behind a table of three sizes. -/
def huffStreams (t : HuffTree) (n : Nat) (four : Bool) (l : List Byte) : Option (List Byte) :=
  if four then
    let s1 := leAt l 0 2
    let s2 := leAt l 2 2
    let s3 := leAt l 4 2
    let d := l.drop 6
    let q := (n + 3) / 4
    if l.length < 6 ∨ d.length < s1 + s2 + s3 ∨ n < 3 * q then none
    else do
      let a ← (backBits (d.take s1)).bind (huffLits t q)
      let b ← (backBits ((d.drop s1).take s2)).bind (huffLits t q)
      let c ← (backBits ((d.drop (s1 + s2)).take s3)).bind (huffLits t q)
      let e ← (backBits (d.drop (s1 + s2 + s3))).bind (huffLits t (n - 3 * q))
      return a ++ b ++ c ++ e
  else (backBits l).bind (huffLits t n)

/-- What a frame carries from block to block: its tree and tables, and the three repeat offsets. -/
structure ZstdTables where
  huff : Option HuffTree
  lit : Option FseTable
  off : Option FseTable
  mat : Option FseTable
  reps : List Nat
  deriving DecidableEq, Repr

/-- The literals section: the literals, the tree kept, the bytes behind it. -/
def zstdLits (z : ZstdTables) (l : List Byte) : Option (List Byte × Option HuffTree × List Byte) :=
  let b0 := leAt l 0 1
  let t := b0 % 4
  let sf := b0 / 4 % 4
  if l.isEmpty then none
  else if t < 2 then
    let hl := if sf = 1 then 2 else if sf = 3 then 3 else 1
    let n := if sf = 1 ∨ sf = 3 then leAt l 0 hl / 16 else b0 / 8
    let d := l.drop hl
    if l.length < hl then none
    else if t = 0 then (if d.length < n then none else some (d.take n, z.huff, d.drop n))
    else match d with
      | [] => none
      | b :: rest => some (List.replicate n b, z.huff, rest)
  else
    let hl := if sf < 2 then 3 else sf + 2
    let w := if sf < 2 then 10 else if sf = 2 then 14 else 18
    let v := leAt l 0 hl / 16
    let n := v % 2 ^ w
    let c := v / 2 ^ w
    let d := (l.drop hl).take c
    if l.length < hl + c then none
    else
      let tree := if t = 2 then huffTree d else z.huff.map (fun h => (h, d))
      match tree with
      | none => none
      | some (h, streams) => (huffStreams h n (decide (sf ≠ 0)) streams).map (fun x => (x, some h, l.drop (hl + c)))

/-! ### Sequences -/

/-- Base and extra bits of the literal length codes and of the match length codes. -/
def zLitBase (c : Nat) : Nat × Nat :=
  if c < 16 then (c, 0)
  else ([(16, 1), (18, 1), (20, 1), (22, 1), (24, 2), (28, 2), (32, 3), (40, 3), (48, 4), (64, 6), (128, 7), (256, 8), (512, 9), (1024, 10), (2048, 11),
    (4096, 12), (8192, 13), (16384, 14), (32768, 15), (65536, 16)] : List (Nat × Nat)).getD (c - 16) (0, 0)
def zMatchBase (c : Nat) : Nat × Nat :=
  if c < 32 then (c + 3, 0)
  else ([(35, 1), (37, 1), (39, 1), (41, 1), (43, 2), (47, 2), (51, 3), (59, 3), (67, 4), (83, 4), (99, 5), (131, 7), (259, 8), (515, 9), (1027, 10),
    (2051, 11), (4099, 12), (8195, 13), (16387, 14), (32771, 15), (65539, 16)] : List (Nat × Nat)).getD (c - 32) (0, 0)

/-- A sequence: literals before the match, its length, its offset. -/
structure ZSeq where
  lits : Nat
  len : Nat
  dist : Nat
  deriving DecidableEq, Repr

/-- The offset a value stands for and the repeat offsets after it; none: an offset of 0. -/
def zOffset (reps : List Nat) (v lits : Nat) : Option (Nat × List Nat) :=
  let r (i : Nat) : Nat := reps.getD i 1
  if 3 < v then some (v - 3, [v - 3, r 0, r 1])
  else
    let k := if lits = 0 then v + 1 else v
    if k = 1 then some (r 0, reps)
    else if k = 2 then some (r 1, [r 1, r 0, r 2])
    else
      let d := if k = 3 then r 2 else r 0 - 1
      if d = 0 then none else some (d, [d, r 0, r 1])

/-- `n` sequences: the states, the bits, the repeat offsets. The bits must end with them. -/
def zSeqs (lt ot mt : FseTable) : Nat → Nat → Nat → Nat → List Bool → List Nat → Option (List ZSeq × List Nat)
  | 0, _, _, _, l, reps => if l.isEmpty then some ([], reps) else none
  | n + 1, ls, os, ms, l, reps => do
    let lc ← lt.cells[ls]?
    let oc ← ot.cells[os]?
    let mc ← mt.cells[ms]?
    if 31 < oc.sym ∨ 35 < lc.sym ∨ 52 < mc.sym then none
    else
      let (ov, l1) ← takeBits l oc.sym
      let (mv, l2) ← takeBits l1 (zMatchBase mc.sym).2
      let (lv, l3) ← takeBits l2 (zLitBase lc.sym).2
      let lits := (zLitBase lc.sym).1 + lv
      let (d, reps1) ← zOffset reps (2 ^ oc.sym + ov) lits
      let q : ZSeq := ⟨lits, (zMatchBase mc.sym).1 + mv, d⟩
      if n = 0 then (if l3.isEmpty then some ([q], reps1) else none)
      else
        let (a, l4) ← takeBits l3 lc.bits
        let (b, l5) ← takeBits l4 mc.bits
        let (c, l6) ← takeBits l5 oc.bits
        let (rest, reps2) ← zSeqs lt ot mt n (lc.base + a) (oc.base + c) (mc.base + b) l6 reps1
        return (q :: rest, reps2)

/-- The table of a mode: predefined, one symbol, a distribution, or the one before. -/
def zTable (mode lim most : Nat) (pre : FseTable) (old : Option FseTable) (l : List Byte) : Option (FseTable × List Byte) :=
  if mode = 0 then some (pre, l)
  else if mode = 1 then (match l with | b :: t => some (fseRle b.toNat, t) | [] => none)
  else if mode = 2 then readAlone l (fun a => Dec.fse a lim most)
  else old.map (fun t => (t, l))

/-- The sequences section: the sequences, and the tables kept. -/
def zstdSeqs (z : ZstdTables) (l : List Byte) : Option (List ZSeq × ZstdTables) := do
  let b0 := leAt l 0 1
  if l.isEmpty then none
  else if b0 = 0 then (if l.length = 1 then some ([], z) else none)
  else
    let (n, hl) := if b0 < 128 then (b0, 1) else if b0 < 255 then ((b0 - 128) * 256 + leAt l 1 1, 2) else (leAt l 1 2 + 0x7F00, 3)
    let m := leAt l hl 1
    if l.length ≤ hl ∨ m % 4 ≠ 0 then none
    else
      let (lt, d1) ← zTable (m / 64) 9 36 fseLit z.lit (l.drop (hl + 1))
      let (ot, d2) ← zTable (m / 16 % 4) 8 32 fseOff z.off d1
      let (mt, d3) ← zTable (m / 4 % 4) 9 53 fseMatch z.mat d2
      let bits ← backBits d3
      let (ls, l1) ← takeBits bits lt.log
      let (os, l2) ← takeBits l1 ot.log
      let (ms, l3) ← takeBits l2 mt.log
      let (q, reps) ← zSeqs lt ot mt n ls os ms l3 z.reps
      return (q, { z with lit := some lt, off := some ot, mat := some mt, reps := reps })

/-- A compressed block: its literals, its sequences, the tables kept; none when it is bad. -/
def zstdBlock (z : ZstdTables) (l : List Byte) : Option (List Byte × List ZSeq × ZstdTables) := do
  let (lits, h, rest) ← zstdLits z l
  let (q, z1) ← zstdSeqs z rest
  return (lits, q, { z1 with huff := h })

/-! ### Frames -/

/-- Carries out sequences; bad data answers false. -/
def Dec.perform (window : Nat) : List ZSeq → List Byte → Dec Bool
  | [], lits => do
    Dec.puts lits
    return true
  | q :: l, lits => do
    if lits.length < q.lits then return false
    else
      Dec.puts (lits.take q.lits)
      let h ← Dec.history
      if min h window < q.dist ∨ q.dist = 0 then return false
      else
        Dec.copy q.dist q.len
        Dec.perform window l (lits.drop q.lits)

/-- What a frame header says: window, content size, checksum. -/
structure ZHead where
  window : Nat
  size : Option Nat
  check : Bool
  deriving DecidableEq, Repr

/-- The header behind the magic number (R238, R251): a window above 2^`wlog` is refused with 0x36, a dictionary with 0x37, a frame without a
checksum, when one is required, with 0x3C. -/
def Dec.zHead (a : Array Byte) (wlog : Nat) (req : Bool) : Dec ZHead := do
  let d ← Dec.bits a 8
  if d.testBit 3 then Dec.fail 0x33
  else
    let single := d.testBit 5
    let w ← if single then pure 0 else Dec.bits a 8
    let win := 2 ^ (10 + w / 8) + 2 ^ (10 + w / 8) / 8 * (w % 8)
    if single = false ∧ 2 ^ wlog < win then Dec.fail 0x36
    else
      let dict ← Dec.bits a (8 * [0, 1, 2, 4].getD (d % 4) 0)
      if dict ≠ 0 then Dec.fail 0x37
      else
        let fl := if d / 64 = 0 then (if single then 1 else 0) else 2 ^ (d / 64)
        let v ← Dec.bits a (8 * fl)
        let size := if d / 64 = 1 then v + 256 else v
        if single = true ∧ 2 ^ wlog < size then Dec.fail 0x36
        else if req ∧ d.testBit 2 = false then Dec.fail 0x3C
        else return ⟨if single then size else win, if fl = 0 then none else some size, d.testBit 2⟩

/-- Blocks of a frame up to the last; `n` bounds the work. A bad compressed block is reported at a byte of it that the RFC does not name: a
free value (log entry 18). -/
def Dec.zBlocks (a : Array Byte) (h : ZHead) : Nat → ZstdTables → Dec Unit
  | 0, _ => throw .more
  | n + 1, z => do
    let b ← Dec.bits a 24
    let last := b.testBit 0
    let t := b / 2 % 4
    let size := b / 8
    if t = 3 ∨ min h.window 131072 < size then Dec.fail 0x34
    else
      let o ← Dec.off
      let z1 ← match t with
        | 0 => do
          Dec.raw a size
          pure z
        | 1 => do
          let x ← Dec.bits a 8
          Dec.puts (List.replicate size (BitVec.ofNat 8 x))
          pure z
        | _ => do
          let l ← Dec.bytes a size
          let bad := Dec.failAt 0x34 (o + (Config.badByte l).toNat % max 1 size)
          match zstdBlock z l with
          | none => bad
          | some (lits, q, z2) => do
            let before ← Dec.history
            let good ← Dec.perform h.window q lits
            let after ← Dec.history
            if good = false ∨ min h.window 131072 < after - before then bad else pure z2
      let got ← Dec.history
      let excess := match h.size with | some v => decide (v < got) || (last && decide (v ≠ got)) | none => false
      if excess then Dec.fail 0x39
      else if last then return ()
      else Dec.zBlocks a h n z1

/-- The magic number at the front of a frame: bytes that begin no frame are refused as soon as one shows it, at `start` (R248). `n` bytes to go,
those read. -/
def Dec.magic (a : Array Byte) (start : Nat) : Nat → List Nat → Dec Nat
  | 0, l => return l.foldr (fun b v => b + 256 * v) 0
  | n + 1, l => do
    let l1 := l ++ [← Dec.bits a 8]
    let frame := decide (l1 = ([0x28, 0xB5, 0x2F, 0xFD] : List Nat).take l1.length)
    let skip := decide (l1.headD 0 / 16 = 5) && decide (l1.tail = ([0x2A, 0x4D, 0x18] : List Nat).take (l1.length - 1))
    if frame || skip then Dec.magic a start n l1 else Dec.failAt 0x33 start

/-- Consecutive Zstandard frames, decoded into one output; skippable frames are skipped: `first` while none has ended; `n` bounds the work. -/
def Dec.zstd (a : Array Byte) (wlog : Nat) (req : Bool) : Nat → Bool → Dec Unit
  | 0, _ => throw .more
  | n + 1, first => do
    let start ← Dec.off
    if !first && (← Dec.atEnd a) then throw .between
    else
      let m ← Dec.magic a start 4 []
      if m / 16 = 0x184D2A5 then
        let k ← Dec.bits a 32
        let _ ← Dec.bytes a k
        Dec.zstd a wlog req n false
      else
        Dec.fresh
        let h ← Dec.zHead a wlog req
        Dec.zBlocks a h (8 * a.size + 1) ⟨none, none, none, none, [1, 4, 8]⟩
        if h.check then
          let o ← Dec.off
          let c ← Dec.bits a 32
          if c ≠ (xxh64 (← Dec.since)).toNat % 2 ^ 32 then Dec.failAt 0x35 o
        Dec.zstd a wlog req n false

/-! ### Any format -/

/-- Decodes a stream so far: the bytes put out, the byte offset where decoding stopped, and why (none: the stream ended). -/
def decodeStream (format wlog : Nat) (req : Bool) (bytes : List Byte) : List Byte × Nat × Option Halt :=
  let a := bytes.toArray
  let d : Dec Unit := match format with
    | 0 => Dec.deflate a
    | 1 => Dec.zlib a
    | 2 => Dec.gzip a (a.size + 1) true
    | _ => Dec.zstd a wlog req (a.size + 1) true
  match d.run ⟨0, #[], 0⟩ with
  | (.ok _, s) => (s.out.toList, (s.pos + 7) / 8, none)
  | (.error (.bad c o), s) => (s.out.toList, o, some (.bad c o))
  | (.error h, s) => (s.out.toList, bytes.length, some h)

end Sys2Proof.Machine
end

