-- ==== Sys2Proof/Machine/Compress.lean ====
section
/-!
DEFINITION. Compression (R238, R240, R241, R247, R253): the match search of Table 8.2, DEFLATE streams with zlib and gzip around them, and
Zstandard frames. How the input is cut into blocks, which kind each is and which codes it uses the spec leaves to the engine: opaque choices
(log entry 18), taken where they spell valid blocks of the very symbols the search finds, within the bound of R253.
-/

namespace Sys2Proof.Machine

open Sys2Proof

/-! ### The match search (R240, Table 8.2) -/

/-- The chain depth, the nice length and lazy matching of a level. -/
def chainDepth (level : Nat) : Nat := [4, 8, 16, 32, 64, 128, 256, 1024, 4096].getD (level - 1) 128
def niceLength (zstd : Bool) (level : Nat) : Nat :=
  [8, 16, 32, 16, 32, 128, 128, 258, 258].getD (level - 1) 128 * (if zstd ∧ 8 ≤ level then 4 else 1)
def lazyMatch (level : Nat) : Bool := decide (4 ≤ level)

/-- What a search works with: the bytes of the stream, where its history begins, the window, the level, the longest match, Zstandard or not. -/
structure Search where
  a : Array Byte
  lo : Nat
  window : Nat
  level : Nat
  longest : Nat
  zstd : Bool

/-- The chain a position is on: the hash of its 3-byte string (the spec names no hash; log entry 18). -/
def Search.hash (q : Search) (p : Nat) : BitVec 15 := Config.hash3 (q.a.getD p 0) (q.a.getD (p + 1) 0) (q.a.getD (p + 2) 0)

/-- Positions along the chain of `p`, nearest first, inside the window, as far as the level looks. -/
def Search.chain (q : Search) (p : Nat) : List Nat :=
  let far := max q.lo (p - q.window)
  (((List.range (p - far)).map (fun i => p - 1 - i)).filter (fun k => q.hash k = q.hash p)).take (chainDepth q.level)

/-- How many bytes from `k` and from `p` agree, at most `n`. -/
def Search.agree (q : Search) (k p : Nat) : Nat → Nat → Nat
  | 0, m => m
  | n + 1, m => if q.a.getD (k + m) 0 = q.a.getD (p + m) 0 then q.agree k p n (m + 1) else m

/-- The longest match along a chain, the nearest of equals: length and distance; a match of the nice length ends the search. -/
def Search.best (q : Search) (p lim : Nat) : List Nat → Nat × Nat → Nat × Nat
  | [], b => b
  | k :: l, b =>
    let n := q.agree k p lim 0
    let b1 := if b.1 < n then (n, p - k) else b
    if niceLength q.zstd q.level ≤ n then b1 else q.best p lim l b1

/-- The match found at `p` before `stop`; (0, 0) below the minimum of 3 bytes. -/
def Search.find (q : Search) (stop p : Nat) : Nat × Nat :=
  let lim := min q.longest (stop - p)
  if lim < 3 then (0, 0)
  else
    let b := q.best p lim (q.chain p) (0, 0)
    if b.1 < 3 then (0, 0) else b

/-- The symbol at `p`: (0, byte) a literal, (length, distance) a match, deferred by one byte when the next position gives a longer one. -/
def Search.sym (q : Search) (stop p : Nat) : Nat × Nat :=
  let m := q.find stop p
  if m.1 = 0 ∨ (lazyMatch q.level = true ∧ m.1 < (q.find stop (p + 1)).1) then (0, (q.a.getD p 0).toNat) else m

/-- The bytes a symbol covers. -/
def symLen (x : Nat × Nat) : Nat := max 1 x.1

/-- The symbols from `p` to `stop`; `n` bounds the work. -/
def Search.parse (q : Search) (stop : Nat) : Nat → Nat → List (Nat × Nat)
  | 0, _ => []
  | n + 1, p => if stop ≤ p then [] else let x := q.sym stop p; x :: q.parse stop n (p + symLen x)

/-! ### DEFLATE (RFC 1951) -/

/-- `n` bits of a number, the least significant first. -/
def numBits : Nat → Nat → List Bool
  | 0, _ => []
  | n + 1, v => decide (v % 2 = 1) :: numBits n (v / 2)

/-- The first code of each length: counted up as RFC 1951 says. -/
def firstCode (lens : List Nat) : Nat → Nat
  | 0 => 0
  | n + 1 => 2 * (firstCode lens n + (if n = 0 then 0 else (symsOf lens n).length))

/-- The bits of a symbol's code, the most significant first. -/
def codeBits (lens : List Nat) (s : Nat) : List Bool :=
  let n := lens.getD s 0
  let rank := ((symsOf lens n).takeWhile (fun x => x ≠ s)).length
  (numBits n (firstCode lens n + rank)).reverse

/-- The symbol of a value under a list of bases: the last base not above it. -/
def baseIndex (bases : List Nat) (v : Nat) : Nat := (bases.filter (fun b => b ≤ v)).length - 1

/-- The symbols a literal or a match is coded with: literal or length, and the distance if there is one. -/
def litSym (x : Nat × Nat) : Nat := if x.1 = 0 then x.2 else 257 + baseIndex lenBase x.1
def distSym (x : Nat × Nat) : Nat := baseIndex distBase x.2

/-- The bits of a literal or a match. -/
def symBits (ll dl : List Nat) (x : Nat × Nat) : List Bool :=
  if x.1 = 0 then codeBits ll x.2
  else
    let i := baseIndex lenBase x.1
    let d := distSym x
    codeBits ll (257 + i) ++ numBits (lenExtra.getD i 0) (x.1 - lenBase.getD i 0) ++ codeBits dl d ++
      numBits (distExtra.getD d 0) (x.2 - distBase.getD d 0)

/-- The bytes of bits, the last one filled with zeros. -/
def packBits (l : List Bool) : List Byte :=
  (List.range (Word.cdiv l.length 8)).map (fun i =>
    BitVec.ofNat 8 ((List.range 8).foldl (fun v j => v + (if l.getD (8 * i + j) false then 2 ^ j else 0)) 0))

/-- The codes a dynamic header spells, when it is one and gives every symbol of a block, and the end of block, a code. -/
def headerCodes (h : List Bool) (syms : List (Nat × Nat)) : Option (List Nat × List Nat) :=
  match (Dec.dynamic (packBits h).toArray).run ⟨0, #[], 0⟩ with
  | (.ok (ll, dl), s) =>
    if s.pos = h.length ∧ syms.all (fun x => decide (ll.getD (litSym x) 0 ≠ 0) && (decide (x.1 = 0) || decide (dl.getD (distSym x) 0 ≠ 0))) = true then
      some (ll, dl)
    else none
  | _ => none

/-- A stored block of `bytes` at bit `pos`. -/
def storedBits (final : Bool) (pos : Nat) (bytes : List Byte) : List Bool :=
  [final, false, false] ++ List.replicate ((8 - (pos + 3) % 8) % 8) false ++ numBits 16 bytes.length ++ numBits 16 (65535 - bytes.length) ++
    bytes.flatMap (fun b => numBits 8 b.toNat)

/-- A block of the kind chosen (0 stored, 2 dynamic with a header that spells codes for its symbols, else fixed). -/
def blockBits (final : Bool) (kind : Nat) (h : List Bool) (pos : Nat) (bytes : List Byte) (syms : List (Nat × Nat)) : List Bool :=
  let coded (t : Nat) (ll dl : List Nat) : List Bool :=
    final :: numBits 2 t ++ (if t = 2 then h else []) ++ syms.flatMap (symBits ll dl) ++ codeBits ll 256
  if kind = 0 then storedBits final pos bytes
  else
    match if kind = 2 then headerCodes h syms else none with
    | some c => coded 2 c.1 c.2
    | none => coded 1 fixedLit fixedDist

/-- The blocks of a stretch as chosen: the number of symbols, the kind and the header of each; what is left is the last, a fixed one. -/
def planBits (final : Bool) : List (Nat × Nat × List Bool) → Nat → List Byte → List (Nat × Nat) → List Bool
  | [], pos, bytes, syms => blockBits final 1 [] pos bytes syms
  | b :: l, pos, bytes, syms =>
    if b.1 = 0 ∨ syms.length ≤ b.1 then blockBits final b.2.1 b.2.2 pos bytes syms
    else
      let now := syms.take b.1
      let n := (now.map symLen).foldl (· + ·) 0
      let x := blockBits false b.2.1 b.2.2 pos (bytes.take n) now
      x ++ planBits final l (pos + x.length) (bytes.drop n) (syms.drop b.1)

/-- A stretch of at most 65,535 bytes from `c` to `e`, at bit `pos`: its blocks as chosen, or where they would take more, one stored block
(R253). -/
def stretchBits (q : Search) (final : Bool) (pos c e : Nat) : List Bool :=
  let syms := q.parse e (e - c) c
  let bytes := (q.a.toList.drop c).take (e - c)
  let coded := planBits final (Config.blockPlan q.level syms) pos bytes syms
  let plain := storedBits final pos bytes
  if plain.length < coded.length then plain else coded

/-- `k` stretches from `c`, inside a run that ends at `e`; `last`: the final one ends the stream. -/
def stretches (q : Search) (last : Bool) (e : Nat) : Nat → Nat → Nat → List Bool
  | 0, _, _ => []
  | k + 1, c, pos =>
    let x := stretchBits q (last && decide (k = 0)) pos c (min e (c + 65535))
    x ++ stretches q last e k (c + 65535) (pos + x.length)

/-- The bits of a run of `n` bytes from `b` (R247). Without a flush the stretches that more bytes follow are complete; a flush completes all: sync
and full add an empty stored block, finish ends the stream at a byte boundary. -/
def runBits (q : Search) (flush b n pos : Nat) : List Bool :=
  let k := if flush = 0 then (n - 1) / 65535 else if flush = 3 then max 1 (Word.cdiv n 65535) else Word.cdiv n 65535
  let x := stretches q (decide (flush = 3)) (b + n) k b pos
  if flush = 1 ∨ flush = 2 then x ++ storedBits false (pos + x.length) []
  else if flush = 3 then x ++ List.replicate ((8 - (pos + x.length) % 8) % 8) false
  else x

/-- The bits of all runs: a full flush begins a new history. -/
def deflateBits (a : Array Byte) (level : Nat) : List (List Byte × Nat) → Nat → Nat → Nat → List Bool
  | [], _, _, _ => []
  | r :: l, lo, b, pos =>
    let x := runBits ⟨a, lo, 32768, level, 258, false⟩ r.2 b r.1.length pos
    x ++ deflateBits a level l (if r.2 = 2 then b + r.1.length else lo) (b + r.1.length) (pos + x.length)

/-- All bytes of a stream's runs; whether it has been finished. -/
def runBytes (runs : List (List Byte × Nat)) : List Byte := runs.flatMap (·.1)
def runsDone (runs : List (List Byte × Nat)) : Bool := runs.any (fun r => r.2 = 3)

/-- The whole bytes of the DEFLATE bits so far. -/
def deflateBytes (level : Nat) (runs : List (List Byte × Nat)) : List Byte :=
  let l := deflateBits (runBytes runs).toArray level runs 0 0 0
  packBits (l.take (l.length / 8 * 8))

/-- A number, most significant byte first. -/
def bigEnd (n v : Nat) : List Byte := (Word.toLe n v).reverse

/-- The zlib header: a 32 KiB window, FLEVEL of the level (which the spec does not give), no dictionary. -/
def zlibHead (level : Nat) : List Byte :=
  let v := 0x7800 + 64 * (Config.flevel level).toNat
  bigEnd 2 (v + (31 - v % 31) % 31)

/-- The gzip header: no optional fields, OS 255; MTIME and XFL the spec does not give. -/
def gzipHead (level : Nat) : List Byte := [0x1F, 0x8B, 8, 0] ++ Word.toLe 5 (Config.gzipTime level).toNat ++ [0xFF]

/-! ### Zstandard (RFC 8878) -/

/-- The literals and sequences of symbols. -/
def zSplit : List (Nat × Nat) → Nat → List Byte × List ZSeq
  | [], _ => ([], [])
  | x :: l, n =>
    if x.1 = 0 then
      let r := zSplit l (n + 1)
      (BitVec.ofNat 8 x.2 :: r.1, r.2)
    else
      let r := zSplit l 0
      (r.1, ⟨n, x.1, x.2⟩ :: r.2)

/-- A block header. -/
def zBlockHead (last : Bool) (kind size : Nat) : List Byte := Word.toLe 3 (Word.ofBool last + 2 * kind + 8 * size)

/-- A block of the bytes from `c` to `e`, and the tables after it: the content chosen, where it spells the symbols found and is shorter than
the bytes (R253); a repeated byte where that is chosen; else the bytes themselves. -/
def zBlock (q : Search) (last : Bool) (z : ZstdTables) (c e : Nat) : List Byte × ZstdTables :=
  let syms := q.parse e (e - c) c
  let bytes := (q.a.toList.drop c).take (e - c)
  let (kind, content) := Config.zstdBlock q.level syms
  let raw := (zBlockHead last 0 bytes.length ++ bytes, z)
  if kind.toNat = 2 then
    match zstdBlock z content with
    | some (lits, seqs, z1) =>
      if content.length < bytes.length ∧ (lits, seqs) = zSplit syms 0 then (zBlockHead last 2 content.length ++ content, z1) else raw
    | none => raw
  else if kind.toNat = 1 ∧ bytes ≠ [] ∧ bytes.all (fun b => b = bytes.headD 0) = true then (zBlockHead last 1 bytes.length ++ bytes.take 1, z)
  else raw

/-- `k` blocks of at most `m` bytes from `c`, inside a run that ends at `e`. -/
def zBlocks (q : Search) (last : Bool) (m e : Nat) : Nat → Nat → ZstdTables → List Byte × ZstdTables
  | 0, _, z => ([], z)
  | k + 1, c, z =>
    let x := zBlock q (last && decide (k = 0)) z c (min e (c + m))
    let r := zBlocks q last m e k (c + m) x.2
    (x.1 ++ r.1, r.2)

/-- The tables a frame begins with. -/
def zFresh : ZstdTables := ⟨none, none, none, none, [1, 4, 8]⟩

/-- A frame header: a window of 2^`wlog`, a checksum, and the content size when the whole input is in one job with FLUSH finish (R238); which
of the sizes its field may have the spec does not say. -/
def zHeadBytes (wlog : Nat) (size : Option Nat) : List Byte :=
  let flag := match size with
    | none => 0
    | some n =>
      let f := (Config.sizeFlag n).toNat
      if (f = 1 ∧ 256 ≤ n ∧ n < 65792) ∨ (f = 2 ∧ n < 2 ^ 32) then f else 3
  let fcs : List Byte := match size with
    | none => []
    | some n => if flag = 1 then Word.toLe 2 (n - 256) else Word.toLe (2 ^ flag) n
  Word.toLe 4 0xFD2FB528 ++ [BitVec.ofNat 8 (64 * flag + 4), BitVec.ofNat 8 (8 * (wlog - 10))] ++ fcs

/-- The bytes of all runs: a full flush ends the frame with its checksum and begins a new one. `lo`: where the frame began. -/
def zstdRuns (a : Array Byte) (level wlog : Nat) : List (List Byte × Nat) → Nat → Nat → ZstdTables → List Byte
  | [], _, _, _ => []
  | r :: l, lo, b, z =>
    let n := r.1.length
    let m := min (2 ^ wlog) 131072
    let ends := decide (r.2 = 2 ∨ r.2 = 3)
    let k := if r.2 = 0 then (n - 1) / m else if ends then max 1 (Word.cdiv n m) else Word.cdiv n m
    let x := zBlocks ⟨a, lo, 2 ^ wlog, level, m, true⟩ ends m (b + n) k b z
    let sum : List Byte := Word.toLe 4 (xxh64 ((a.toList.drop lo).take (b + n - lo))).toNat
    if r.2 = 3 then x.1 ++ sum
    else if r.2 = 2 then x.1 ++ sum ++ zHeadBytes wlog none ++ zstdRuns a level wlog l (b + n) (b + n) zFresh
    else x.1 ++ zstdRuns a level wlog l lo (b + n) x.2

/-! ### Any format -/

/-- The compressed bytes of a stream so far (R241): its format, level, WLOG, the content size its header states, and its runs, each with the
flush that ended it (0 none yet). -/
def encodeStream (format level wlog : Nat) (size : Option Nat) (runs : List (List Byte × Nat)) : List Byte :=
  let d := runBytes runs
  let done := runsDone runs
  match format with
  | 0 => deflateBytes level runs
  | 1 => zlibHead level ++ deflateBytes level runs ++ (if done then bigEnd 4 (adler32 d) else [])
  | 2 => gzipHead level ++ deflateBytes level runs ++ (if done then Word.toLe 4 (crc32 d) ++ Word.toLe 4 d.length else [])
  | _ => zHeadBytes wlog size ++ zstdRuns d.toArray level wlog runs 0 0 zFresh

/-- A whole buffer compressed in one job with FLUSH finish. -/
def compressAll (format level wlog : Nat) (bytes : List Byte) : List Byte := encodeStream format level wlog (some bytes.length) [(bytes, 3)]

end Sys2Proof.Machine
end

