-- ==== Sys2Proof/Machine/Lzc.lean ====
section
/-!
DEFINITION. Lossless codec (spec/08): the host ring, the module's own queue, the choice of a job, the checks of a descriptor, the end of a
job. The jobs of the module's own (classes 1, 2, 3 and 5) stand here with what an engine shows of them; what they mean to their user is in the
user's commands, which put them into the queue.
-/

namespace Sys2Proof.Machine

open Sys2Proof

/-! ### Streams (R241, R247 to R250) -/

/-- Adds source bytes to a stream: bytes that follow a run without a flush join it (R241, R250). -/
def addRun (runs : List (List Byte × Nat)) (bytes : List Byte) (flush : Nat) : List (List Byte × Nat) :=
  match runs.getLast? with
  | some (b, 0) => runs.dropLast ++ [(b ++ bytes, flush)]
  | _ => runs ++ [(bytes, flush)]

/-- The runs of a stream once a job's source and flush have joined it. A job without source that names the flush a full destination cut off
goes on with that flush (R249). -/
def LzcCtx.join (c : LzcCtx) (src : List Byte) (flush : Nat) : List (List Byte × Nat) :=
  if c.flushing = 0 then addRun c.runs src flush
  else
    let r := addRun c.runs [] c.flushing
    if src = [] ∧ flush = c.flushing then r else addRun r src flush

/-- The compressed bytes of a stream's runs. -/
def LzcCtx.encoded (c : LzcCtx) (runs : List (List Byte × Nat)) : List Byte := encodeStream c.format c.level c.wlog c.size runs

/-- What a stream's source decodes to. -/
def LzcCtx.decoded (c : LzcCtx) (runs : List (List Byte × Nat)) : List Byte × Nat × Option Halt := decodeStream c.format c.wlog c.req (runBytes runs)

/-! ### Descriptors (Table 8.3) -/

def jobOp (d : List Byte) : Nat := leAt d 0 1
def jobFormat (d : List Byte) : Nat := leAt d 1 1
def jobLevel (d : List Byte) : Nat := leAt d 2 1
def jobFlush (d : List Byte) : Nat := leAt d 3 1
def jobFlags (d : List Byte) : Nat := leAt d 4 2
def jobWlog (d : List Byte) : Nat := leAt d 6 1
def jobSrc (d : List Byte) : Nat := leAt d 8 8
def jobDst (d : List Byte) : Nat := leAt d 16 8
def jobCtx (d : List Byte) : Nat := leAt d 24 8
def jobSrcLen (d : List Byte) : Nat := leAt d 32 4
def jobDstLen (d : List Byte) : Nat := leAt d 36 4
def jobCtxLen (d : List Byte) : Nat := leAt d 40 4

/-- The window of a Zstandard job: 0 means 26 in decompression. -/
def jobWindow (d : List Byte) : Nat := if jobOp d = 1 ∧ jobWlog d = 0 then 26 else jobWlog d

/-- The bytes a context needs (R242). -/
def ctxNeed (d : List Byte) : Nat := if jobFormat d = 3 then 2 ^ jobWindow d + 4096 else 36864

/-- Whether a field lies outside Table 8.3 (R245, check 1). -/
def jobFieldsBad (d : List Byte) : Bool :=
  let levelOk := if jobOp d = 0 then decide (1 ≤ jobLevel d ∧ jobLevel d ≤ 9) else decide (jobLevel d = 0)
  let wlogOk := if jobFormat d ≠ 3 then decide (jobWlog d = 0)
    else if jobOp d = 0 then decide (10 ≤ jobWlog d ∧ jobWlog d ≤ 23)
    else decide (jobWlog d = 0 ∨ (10 ≤ jobWlog d ∧ jobWlog d ≤ 26))
  !(decide (jobOp d ≤ 1) && decide (jobFormat d ≤ 3) && levelOk && decide (jobFlush d ≤ 3) && decide (jobFlags d < 8) && wlogOk &&
    decide (leAt d 7 1 = 0) && decide (leAt d 44 4 = 0))

/-- Whether [a, a + m) and [b, b + n) share a byte. -/
def overlap (a m b n : Nat) : Bool := decide (0 < m) && decide (0 < n) && decide (a < b + n) && decide (b < a + m)

/-- The context held at an address, when it is valid for the OP and FORMAT of a descriptor. -/
def State.ctxFor (s : State) (d : List Byte) : Option LzcCtx :=
  s.lzc.ctxs.find? (fun c => c.addr = jobCtx d && c.op = jobOp d && c.format = jobFormat d)

/-- The checks of R245, in their order: the code of the first that fails, or 0. -/
def State.jobCheck (s : State) (d : List Byte) : Nat :=
  let src := s.regionOk .lzc false (jobSrc d) (jobSrcLen d)
  let dst := s.regionOk .lzc true (jobDst d) (jobDstLen d)
  let ctx := s.regionBoth .lzc (jobCtx d) (jobCtxLen d)
  if jobFieldsBad d then 0x30
  else if jobDstLen d < 64 then 0x31
  else if !(src && dst && ctx) then 0x17
  else if overlap (jobSrc d) (jobSrcLen d) (jobDst d) (jobDstLen d) || overlap (jobSrc d) (jobSrcLen d) (jobCtx d) (jobCtxLen d) ||
      overlap (jobDst d) (jobDstLen d) (jobCtx d) (jobCtxLen d) then 0x3A
  else if jobCtx d % 64 ≠ 0 ∨ jobCtxLen d < ctxNeed d ∨ ((jobFlags d).testBit 1 = true ∧ (s.ctxFor d).isNone = true) then 0x32
  else 0

/-! ### The end of a job (R243, R252, R255) -/

/-- What a job reports: STATUS, ERR, SRC_USED, the bytes written, the stream offset of an error. -/
structure JobResult where
  status : Nat
  err : Nat
  used : Nat
  out : List Byte
  offset : Nat
  deriving DecidableEq, Repr

/-- The registers an error leaves, its flag and its entry. -/
def State.codecError (s : State) (engine cls index code offset : Nat) : State :=
  let s1 := ((((s.bump R.LZC_ERR_COUNT).put R.LZC_LAST_ERR_ERR code).put R.LZC_LAST_ERR_INDEX index).put R.LZC_LAST_ERR_ENGINE engine).put
    R.LZC_LAST_ERR_CLASS cls
  (s1.put R.LZC_LAST_ERR_OFF offset).raiseRec .lzc (if cls = 4 then 1 else 3)

/-- The engine's counters. -/
def State.engineCount (s : State) (e used written : Nat) (suspended : Bool) : State :=
  let s1 := (((s.count R.LZC_ENG_IN used e).count R.LZC_ENG_OUT written e).bump R.LZC_ENG_JOBS_JOBS e).put R.LZC_ENG_STAT 0 e
  if suspended then s1.bump R.LZC_ENG_JOBS_SUSPENSIONS e else s1

/-- A ring job ends with a result: the output is in DRAM first, then the completion words in one write. -/
def State.jobFinish (s : State) (j : LzcJob) (r : JobResult) : State :=
  let s1 := s.writeBytes (jobDst j.desc) r.out
  let s2 := s1.writeBytes (j.addr + 0x30) ([BitVec.ofNat 8 r.status, BitVec.ofNat 8 r.err, 0, 0] ++ Word.toLe 4 r.used ++
    Word.toLe 4 r.out.length ++ [0, 0, 0, 0])
  let s3 : State := { s2 with lzc := { s2.lzc with jobs := s2.lzc.jobs.filter (fun x => x.engine ≠ j.engine) } }
  let s4 := (s3.engineCount j.engine r.used r.out.length (decide (r.status = 1))).bump R.LZC_DONE_COUNT
  let s5 := s4.raiseIf ((jobFlags j.desc).testBit 0) .lzc 0
  if r.status = 3 then s5.codecError j.engine 4 j.index r.err r.offset else s5

/-- Drops the context at an address. -/
def State.dropCtx (s : State) (a : Nat) : State :=
  { s with lzc := { s.lzc with ctxs := s.lzc.ctxs.filter (fun c => c.addr ≠ a) } }

/-- Keeps a context; the bytes at CTX are the engine's own and the spec gives them no layout: free values (log entry 1). -/
def State.keepCtx (s : State) (d : List Byte) (c : LzcCtx) : State :=
  let n := ctxNeed d
  let s1 := (s.writeBytes (jobCtx d) ((List.range n).map (fun k => BitVec.ofNat 8 (s.freeNat 8 k)))).tookFree n
  let s2 := s1.dropCtx c.addr
  { s2 with lzc := { s2.lzc with ctxs := c :: s2.lzc.ctxs } }

/-- The stream a job goes on with: the context's when CONT is set, else a new one. DESIGN CHOICE (log entry 18): LEVEL, WLOG and REQ_CHECK
are those of the job that began the stream. -/
def State.jobStream (s : State) (d : List Byte) : LzcCtx :=
  match if (jobFlags d).testBit 1 then s.ctxFor d else none with
  | some c => c
  | none => ⟨jobCtx d, jobOp d, jobFormat d, jobLevel d, jobWindow d, decide (jobFormat d = 3) && (jobFlags d).testBit 2, [],
      if jobOp d = 0 ∧ jobFlush d = 3 then some (jobSrcLen d) else none, 0, 0⟩

/-- Source bytes a stream has taken. -/
def LzcCtx.used (c : LzcCtx) : Nat := (runBytes c.runs).length

/-- The fewest source bytes, of `n`, that give output of `want` bytes. -/
def needed (n want : Nat) (len : Nat → Nat) : Nat := ((List.range n).find? (fun u => want ≤ len u)).getD n

/-- SRC_USED of a suspended job (R249): every byte taken into the state. How many beyond those the output needed the spec leaves open: a free
value (log entry 1). -/
def State.taken (s : State) (n need : Nat) : Nat := need + s.freeNat 32 % (n - need + 1)

/-- A compression job runs to its end (R247, R249). STATUS after a sync or full flush (0 or 2) the spec leaves open: a free value (log
entry 1). -/
def State.runEncode (s : State) (d : List Byte) : JobResult × Option LzcCtx :=
  let c := s.jobStream d
  let src := s.readBytes (jobSrc d) (jobSrcLen d)
  let runs := c.join src (jobFlush d)
  let rest := (c.encoded runs).drop c.given
  let want := c.given + jobDstLen d
  if jobDstLen d < rest.length then
    let out := rest.take (jobDstLen d)
    if src = [] ∧ c.flushing ≠ 0 ∧ jobFlush d = c.flushing then (⟨1, 0, 0, out, 0⟩, some { c with given := want })
    else if want ≤ (c.encoded (c.join src 0)).length then
      let u := s.taken (jobSrcLen d) (needed (jobSrcLen d) want (fun u => (c.encoded (c.join (src.take u) 0)).length))
      (⟨1, 0, u, out, 0⟩, some { c with runs := c.join (src.take u) 0, given := want, flushing := 0 })
    else (⟨1, 0, jobSrcLen d, out, 0⟩, some { c with runs := c.join src 0, given := want, flushing := jobFlush d })
  else if jobFlush d = 3 then (⟨0, 0, jobSrcLen d, rest, 0⟩, none)
  else
    let st := if jobFlush d = 0 then 2 else 2 * (s.freeNat 1)
    (⟨st, 0, jobSrcLen d, rest, 0⟩, some { c with runs := runs, given := c.given + rest.length, flushing := 0 })

/-- A decompression job runs to its end (R248, R249, R251, R252). -/
def State.runDecode (s : State) (d : List Byte) : JobResult × Option LzcCtx :=
  let c := s.jobStream d
  let src := s.readBytes (jobSrc d) (jobSrcLen d)
  let runs := addRun c.runs src 0
  let (all, stop, why) := c.decoded runs
  let rest := all.drop c.given
  let want := c.given + jobDstLen d
  let on : LzcCtx := { c with runs := runs, given := c.given + rest.length }
  if jobDstLen d < rest.length then
    let u := s.taken (jobSrcLen d) (needed (jobSrcLen d) want (fun u => (c.decoded (addRun c.runs (src.take u) 0)).1.length))
    (⟨1, 0, u, rest.take (jobDstLen d), 0⟩, some { c with runs := addRun c.runs (src.take u) 0, given := want })
  else
    match why with
    | none => (⟨0, 0, stop - c.used, rest, 0⟩, none)
    | some (.bad code off) => (⟨3, code, off - c.used, rest, off⟩, none)
    | some .between => if jobFlush d = 3 then (⟨0, 0, jobSrcLen d, rest, 0⟩, none) else (⟨2, 0, jobSrcLen d, rest, 0⟩, some on)
    | some .more =>
      if jobFlush d = 3 then (⟨3, 0x38, jobSrcLen d, rest, c.used + jobSrcLen d⟩, none) else (⟨2, 0, jobSrcLen d, rest, 0⟩, some on)

/-- A running ring job comes to its end. -/
def State.jobRun (s : State) (j : LzcJob) : State :=
  let (r, c) := if jobOp j.desc = 0 then s.runEncode j.desc else s.runDecode j.desc
  let s1 := (s.tookFree 1).jobFinish j r
  match c with
  | some c => s1.keepCtx j.desc c
  | none => s1.dropCtx (jobCtx j.desc)

/-- LZC_JOB_END (R243, R247 to R252, R255): the job of engine `e` ends. -/
def execLzcJobEnd (e : Nat) (s : State) : Out :=
  match s.lzc.jobs.find? (fun j => j.engine = e) with
  | none => .next s
  | some j =>
    match j.inner with
    | none => .next (s.jobRun j)
    | some q =>
      let s1 : State := { s with lzc := { s.lzc with jobs := s.lzc.jobs.filter (fun x => x.engine ≠ e) } }
      let s2 := s1.engineCount e q.used q.written false
      .next (if q.err = 0 then s2 else s2.codecError e j.cls 0 q.err q.offset)

/-- The abort of the job an engine runs (ERR 0x3B). How far it came is free: the bytes written are correct output (R252). -/
def State.jobAbort (s : State) (e : Nat) : State :=
  match s.lzc.jobs.find? (fun j => j.engine = e) with
  | none => s
  | some j =>
    if j.inner.isNone then
      let r := (if jobOp j.desc = 0 then s.runEncode j.desc else s.runDecode j.desc).1
      let u := s.freeNat 32 1 % (jobSrcLen j.desc + 1)
      let w := s.freeNat 32 2 % (r.out.length + 1)
      ((s.tookFree 3).jobFinish j ⟨3, 0x3B, u, r.out.take w, (s.jobStream j.desc).used + u⟩).dropCtx (jobCtx j.desc)
    else
      let s1 : State := { s with lzc := { s.lzc with jobs := s.lzc.jobs.filter (fun x => x.engine ≠ e) } }
      (s1.engineCount e 0 0 false).codecError e j.cls 0 0x3B 0

/-- LZC_ENG[e].CTRL: the key is checked, ABORT acts on the running job. -/
def State.lzcEngCtrl (s : State) (r : Req) (e data : Nat) : State :=
  if data / 65536 ≠ 0x0C0D then s.ignored (R.LZC_ENG_CTRL.off e 0) data r
  else if data.testBit 0 then s.jobAbort e else s

/-- LZC_ABORT (R252, Table 8.8). -/
def execLzcAbort (r : Req) (e key : Nat) (s : State) : Out := .next (s.lzcEngCtrl r (e % 2) (1 + 65536 * (key % 65536)))

/-! ### The ring (R244) -/

def State.lzcEntries (s : State) : Nat := ringEntries (s.get R.LZC_RING_SIZE)

/-- The address of a ring index. -/
def State.lzcAddr (s : State) (i : Nat) : Nat := s.get R.LZC_RING_BASE * 4096 + 64 * i

/-- LZC_RING_HEAD takes an index below 2^SIZE; another write is ignored with ERR 0x24. -/
def State.lzcHead (s : State) (v : Nat) : State :=
  if v % 4096 < s.lzcEntries then s.put R.LZC_RING_HEAD v else s.put R.LZC_RING_STAT_ERR 0x24

/-- LZC_HEAD_WRITE. -/
def execLzcHeadWrite (_r : Req) (v : Nat) (s : State) : Out := .next (s.lzcHead v)

/-- START, RESTART and STOP of LZC_RING_CTRL (Table 8.7). -/
def State.lzcStart (s : State) : State := if s.flag R.LZC_RING_STAT_HALTED then s else s.put R.LZC_RING_STAT_RUNNING 1
def State.lzcRestart (s : State) : State :=
  let s1 := if s.flag R.LZC_RING_STAT_HALTED then s.put R.LZC_RING_STAT_RUNNING 1 else s
  (s1.put R.LZC_RING_STAT_ERR 0).put R.LZC_RING_STAT_HALTED 0
def State.lzcStop (s : State) : State := s.put R.LZC_RING_STAT_RUNNING 0
def State.lzcCtrl (s : State) (data : Nat) : State :=
  let s1 := if data.testBit 0 then s.lzcStart else s
  let s2 := if data.testBit 1 then s1.lzcRestart else s1
  if data.testBit 2 then s2.lzcStop else s2

/-- LZC_RING_START. -/
def execLzcRingStart (_r : Req) (s : State) : Out := .next s.lzcStart

/-- LZC_RING_RESTART. -/
def execLzcRingRestart (_r : Req) (s : State) : Out := .next s.lzcRestart

/-- LZC_RING_STOP. -/
def execLzcRingStop (_r : Req) (s : State) : Out := .next s.lzcStop

/-- The ring halts on its descriptor with ERR 0x17. -/
def State.lzcHalt (s : State) : State :=
  (((s.put R.LZC_RING_STAT_ERR 0x17).put R.LZC_RING_STAT_HALTED 1).put R.LZC_RING_STAT_RUNNING 0).raise .lzc 2

/-- Ring indices that wait: those passed over, then TAIL to HEAD - 1. -/
def State.lzcQueue (s : State) : List Nat :=
  if s.flag R.LZC_RING_STAT_RUNNING && !s.flag R.LZC_RING_STAT_HALTED then
    let n := s.lzcEntries
    let t := s.get R.LZC_RING_TAIL
    s.lzc.skipped ++ (List.range ((s.get R.LZC_RING_HEAD + n - t) % n)).map (fun k => (t + k) % n)
  else []

/-- Whether the ring's base and a descriptor of it lie inside the DMA region table (R244). -/
def State.lzcRegion (s : State) (i : Nat) : Bool := s.regionOk .lzc false (s.lzcAddr 0) 1 && s.regionOk .lzc false (s.lzcAddr i) 64

/-- The first waiting descriptor an engine may take, scanning past those whose CTX a running or an earlier waiting job holds: its
index, or that the ring must halt there (none). -/
def State.lzcPick (s : State) : List Nat → List Nat → Option (Nat × Option (List Byte))
  | [], _ => none
  | i :: l, busy =>
    if s.lzcRegion i then
      let d := s.readBytes (s.lzcAddr i) 48
      if busy.contains (jobCtx d) then s.lzcPick l (jobCtx d :: busy) else some (i, some d)
    else some (i, none)

/-- What the ring offers an engine now. -/
def State.lzcOffer (s : State) : Option (Nat × Option (List Byte)) :=
  s.lzcPick s.lzcQueue ((s.lzc.jobs.filter (fun j => j.cls = 4)).map (fun j => jobCtx j.desc))

/-- Index `i` is taken: TAIL moves past it; indices between that stay wait on. DESIGN CHOICE (log entry 91): TAIL then stands past descriptors
that still wait for their CTX, and each of these is read from the ring again when it is taken. -/
def State.lzcTaken (s : State) (i : Nat) : State :=
  if s.lzc.skipped.contains i then { s with lzc := { s.lzc with skipped := s.lzc.skipped.filter (· ≠ i) } }
  else
    let n := s.lzcEntries
    let t := s.get R.LZC_RING_TAIL
    let between := (List.range ((i + n - t) % n)).map (fun k => (t + k) % n)
    let s1 := s.put R.LZC_RING_TAIL ((i + 1) % n)
    { s1 with lzc := { s1.lzc with skipped := s1.lzc.skipped ++ between } }

/-- An engine starts a job: STAT. -/
def State.engineStart (s : State) (j : LzcJob) (op format : Nat) : State :=
  let s1 := (((s.put R.LZC_ENG_STAT_BUSY 1 j.engine).put R.LZC_ENG_STAT_CLASS j.cls j.engine).put R.LZC_ENG_STAT_OP op j.engine).put
    R.LZC_ENG_STAT_FORMAT format j.engine
  { s1 with lzc := { s1.lzc with jobs := s1.lzc.jobs ++ [j] } }

/-- A ring job starts on engine `e`, or ends at once on a check of R245. -/
def State.ringStart (s : State) (e i : Nat) (d : List Byte) : State :=
  let s1 := s.lzcTaken i
  let j : LzcJob := ⟨e, 4, i, d, s.lzcAddr i, none⟩
  let code := s1.jobCheck d
  if code = 0 then s1.engineStart j (jobOp d) (jobFormat d)
  else (s1.jobFinish j ⟨3, code, 0, [], (s1.jobStream d).used⟩).dropCtx (jobCtx d)

/-- A job of the module's own joins the internal queue (R254). -/
def State.innerJob (s : State) (q : InnerJob) : State := { s with lzc := { s.lzc with queue := s.lzc.queue ++ [q] } }

/-- The job of a delta (class 2 of Table 8.6), whose layout the spec does not give: its byte counts, and of a failure the code and the offset,
are free values (log entry 1). -/
def State.deltaJob (s : State) (op : Nat) (ok : Bool) : State :=
  let code := [0x33, 0x34, 0x35, 0x36, 0x37, 0x38, 0x39, 0x3C].getD (s.freeNat 3 2) 0x34
  (s.innerJob ⟨2, op, 3, s.freeNat 32, s.freeNat 32 1, if ok then 0 else code, s.freeNat 32 3⟩).tookFree 4

/-- A section the module decompresses for itself with FLUSH finish, a window of 8 MiB and REQ_CHECK (R223): its bytes, none when the codec
refuses it, and the job. -/
def sectionJob (cls format : Nat) (bytes : List Byte) : Option (List Byte) × InnerJob :=
  match decodeStream format 23 (decide (format = 3)) bytes with
  | (out, _, some (.bad code off)) => (none, ⟨cls, 1, format, off, out.length, code, off⟩)
  | (out, _, some .more) => (none, ⟨cls, 1, format, bytes.length, out.length, 0x38, bytes.length⟩)
  | (out, stop, _) => (some out, ⟨cls, 1, format, stop, out.length, 0, 0⟩)

/-- Starts of classes 1 to 3 an engine has made while a lower class waited. -/
def State.lzcRun (s : State) (e n : Nat) : State := { s with lzc := { s.lzc with run := s.lzc.run.set e n } }

/-- An engine starts a job of the internal queue. -/
def State.innerStart (s : State) (e : Nat) (q : InnerJob) : State :=
  ({ s with lzc := { s.lzc with queue := s.lzc.queue.erase q } } : State).engineStart ⟨e, q.cls, 0, [], 0, some q⟩ (q.op % 2) (q.format % 4)

/-- An engine starts a job of class 4, or of class 5 when none of class 4 waits; whether one waits stands in `ring` and `export_`. -/
def State.lowStart (s : State) (e : Nat) (ring : Option (Nat × Option (List Byte))) (export_ : Option InnerJob) : State :=
  match ring, export_ with
  | some (i, some d), _ => (s.lzcRun e 0).ringStart e i d
  | some (_, none), _ => (s.lzcRun e 0).lzcHalt
  | none, some x => (s.lzcRun e 0).innerStart e x
  | none, none => s

/-- LZC_JOB_TAKE (R244, R245, R254, R256): engine `e` takes the waiting job of the highest class; after 7 starts of classes 1 to 3 while one of
class 4 or 5 waits, the next start is class 4, then 5. -/
def execLzcJobTake (e : Nat) (s : State) : Out :=
  if !(decide (e < 2) && (s.get R.LZC_CTRL).testBit e && s.lzc.jobs.all (fun j => j.engine ≠ e)) then .next s
  else
    let ring := s.lzcOffer
    let export_ := s.lzc.queue.find? (fun q => q.cls = 5)
    let low := ring.isSome || export_.isSome
    match [1, 2, 3].findSome? (fun c => s.lzc.queue.find? (fun q => q.cls = c)) with
    | some q =>
      let n := s.lzc.run.getD e 0
      if low && decide (7 ≤ n) then .next (s.lowStart e ring export_)
      else .next ((s.lzcRun e (if low then n + 1 else 0)).innerStart e q)
    | none => .next (s.lowStart e ring export_)

/-- CORE (R257): every job in flight ends without completion words, its context is invalid, the ring halts; descriptors no engine has taken
still wait. -/
def State.lzcCore (s : State) : State :=
  let held := (s.lzc.jobs.filter (fun j => j.inner.isNone)).map (fun j => jobCtx j.desc)
  let s1 : State := { s with lzc := { State.reset.lzc with ctxs := s.lzc.ctxs.filter (fun c => !held.contains c.addr), skipped := s.lzc.skipped } }
  (s1.put R.LZC_RING_STAT_HALTED 1).put R.LZC_RING_STAT_RUNNING 0

end Sys2Proof.Machine
end

