-- ==== Sys2Proof/Machine/Link.lean ====
section
/-!
DEFINITION. What the blocks send over the panel, lens and pair lanes (spec/13, R386, R387, R400, R402).
-/

namespace Sys2Proof.Machine

open Sys2Proof

/-- Sends a control block on every data lane of group `j`. -/
def State.sendCtl (s : State) (j ty : Nat) (bytes : List Nat) : State :=
  (sendLanes j).foldl (fun t n => t.sendBlock n 2 (ctlPayload ty bytes)) s

/-- The groups of the panel link that are ACTIVE, and with `lens` those of the lens link. -/
def State.panelLinks (s : State) (lens : Bool) : List Nat :=
  ((List.range 16).filter (fun g => s.groupsInUse.contains g) ++ (if lens then [20, 21] else [])).filter (fun j => s.groupStage j = 5)

/-- Sends a control block on the panel link. -/
def State.sendPanel (s : State) (lens : Bool) (ty : Nat) (bytes : List Nat) : State :=
  (s.panelLinks lens).foldl (fun t j => t.sendCtl j ty bytes) s

/-- The payload bytes of a SOF block. -/
def sofBytes (sf : Nat) (full : Bool) (phase : Nat) : List Nat :=
  [sf % 256, sf / 256 % 256, sf / 65536 % 256, sf / 16777216 % 256, Word.ofBool full + 2 * (phase % 4), 0, 0]

/-- A start of subframe on the panel and lens links of the module that holds the drive; the other sends IDLE blocks (R58, R400). -/
def State.sendSof (s : State) (sf : Nat) (full : Bool) (phase : Nat) : State :=
  if s.flag R.PAIR_STAT_DRIVE then (s.sendPanel true 0x33 (sofBytes sf full phase)).emit (.sof sf full phase) else s

/-- HOLD blocks on the panel and lens links of the module that holds the drive (R33, R327). -/
def State.sendHold (s : State) : State :=
  if s.flag R.PAIR_STAT_DRIVE then (s.sendPanel true 0x55 (List.replicate 7 0)).emit .hold else s

/-- CLAIM blocks on every panel and lens group (Timing 15.2). What their payload holds is left open. -/
def State.sendClaim (s : State) : State := (s.sendPanel true 0x99 Config.claimBytes).emit .claim

/-- One row of drive codes with its SOL blocks on the groups it is written in, by the module that holds the drive. The place of a code in the
data blocks is left open: the codes leave as one event. -/
def State.sendLine (s : State) (row : Nat) (codes : List (Nat × Nat)) (inv : Bool) : State :=
  if s.flag R.PAIR_STAT_DRIVE then
    let h := match s.pseq.desc with | some d => Word.ofBool (decide (d.height / 2 ≤ row)) | none => 0
    let line := match s.pseq.desc with | some d => row - h * (d.height / 2) | none => row
    let gs := (s.panelLinks false).filter (fun g => codes.any (fun c => decide (8 * h + c.1 / 5760 = g)))
    (gs.foldl (fun t g => t.sendCtl g 0x4B [line % 256, line / 256 % 256, h + 2 * Word.ofBool inv, 0, 0, 0, 0]) s).emit (.drive row codes inv)
  else s

/-- 16 WAKE blocks on a group whose transmitters wake (R402). -/
def State.sendWake (s : State) (j : Nat) : State :=
  ((List.range 16).foldl (fun t _ => t.sendCtl j 0xB4 (List.replicate 7 0)) s).emit (.wake j)

/-! ### Markers (R387) -/

/-- Blocks between two markers of a lane. -/
def markerGap : Nat := 16384

/-- A MARKER on lane `n`: its position in the group and its count (Table 13.3). -/
def State.laneMarker (s : State) (n : Nat) : State :=
  let c := (s.txLane n).marks
  let t := s.sendBlock n 2 (ctlPayload 0x2D [laneId n / 256 % 16 - 1, c % 256, c / 256, 0, 0, 0, 0])
  t.setTxLane n { t.txLane n with marks := (c + 1) % 65536 }

/-- `k` blocks pass on lane `n`, IDLE blocks among them: a MARKER in place of the first IDLE block 16,384 or more blocks after the one before. -/
def State.lanePass (s : State) (n k : Nat) : State :=
  let t := s.txLane n
  let s1 := s.setTxLane n { t with since := (t.since + k) % markerGap }
  (List.range ((t.since + k) / markerGap)).foldl (fun u _ => u.laneMarker n) s1

/-- The rate of group `j` in Gbit/s: 8, 16, 32 by generation, 4 of a return channel (R382). -/
def State.laneRate (s : State) (j : Nat) : Nat :=
  match s.get R.LANE_GRP_STAT_GEN (leadLane j) with
  | 0 => 4
  | g => 4 * 2 ^ g

/-- The markers that fall within one subframe, on every ACTIVE group that sends. DESIGN CHOICE (log entry 95): they are sent together at the
launch. -/
def State.laneMarkers (s : State) : State :=
  let ns := 1000000000 * s.pseq.rateDen / max 1 s.pseq.rateNum
  ((List.range 27).filter (fun j => s.groupStage j = 5 && s.get R.LANE_GRP_STAT_TX_PWR (leadLane j) = 0)).foldl (fun t j =>
    (sendLanes j).foldl (fun u n => u.lanePass n (ns * s.laneRate j / 66)) t) s

end Sys2Proof.Machine
end

