-- ==== Sys2Proof/Machine/Role.lean ====
section
/-!
DEFINITION. What the blocks tell the pair logic: dropped writes (R450), fitness bits (R453), and a module becoming MIRROR or
ACTIVE (R440, R441, R452, R489).
-/

namespace Sys2Proof.Machine

open Sys2Proof

/-- A write dropped on the MIRROR (R450): PAIR_DROP, PAIR_DROP_ADDR and the entry MIRROR_DROP. `req` is 1 host, 2 caretaker, 3 blitter. -/
def State.mirrorDrop (s : State) (off req data : Nat) : State :=
  let s1 := ((s.bump R.PAIR_DROP).put R.PAIR_DROP_ADDR_OFFSET off).put R.PAIR_DROP_ADDR_REQ req
  s1.offer 18 0 0 0x12 (s1.word R.PAIR_DROP_ADDR.base).toNat data (.val 0)

/-- Sets fitness bit `b` (R453): a change sets FIT_CHANGED; a fit MIRROR that loses a bit other than LINK sends NOTICE MIRROR_DOWN. -/
def State.setFit (s : State) (b : Nat) (on : Bool) : State :=
  let f := s.get R.PAIR_FIT_FIT
  if f.testBit b = on then s
  else
    let s1 := (s.put R.PAIR_FIT_FIT (if on then Word.setBit f b else Word.clearBit f b)).raise .pair 7
    if s.isMirror && decide (f = 0xFF) && decide (b ≠ 0) then s1.sendNotice .mirrorDown .fitness 0 none else s1

/-- Sets the launch queue and TIME_LAUNCH_STAT.QUEUED. -/
def State.setLaunches (s : State) (l : List Nat) : State :=
  { (s.put R.TIME_LAUNCH_STAT_QUEUED l.length) with time := { s.time with launches := l } }

/-- The module becomes MIRROR: it waits for a snapshot (R452), and its launch queue is emptied (R489). -/
def State.becomeMirror (s : State) : State :=
  let s1 := ((((s.put R.PAIR_STAT_STATE 3).put R.PAIR_STAT_DRIVE 0).put R.PAIR_STAT_RESYNC 1).setFit 3 false).setLaunches []
  { s1 with pair := { s1.pair with snapshot := none, delta := none, stepFrames := 0 } }

/-- The module becomes ACTIVE beside a partner, which it owes a snapshot (R452). -/
def State.becomeActive (s : State) : State :=
  let s1 := ((s.put R.PAIR_STAT_STATE 2).put R.PAIR_STAT_DRIVE 1).put R.PAIR_STAT_RESYNC 1
  { s1 with pair := { s1.pair with snapshotDue := true } }

end Sys2Proof.Machine
end

