-- ==== Sys2Proof/Machine/Tephra.lean ====
section
/-!
DEFINITION. The tephra recorder (spec/21, R568 to R583) and the release of ALERT_N (R588).
-/

namespace Sys2Proof.Machine

open Sys2Proof

/-- The SEQ that a cause link resolves to (R570): that of the cause's entry in the ring, else the entry's own. -/
def State.linkSeq (s : State) (own : Nat) : Arg2 → Nat
  | .val n => n % 2 ^ 32
  | .link none => own
  | .link (some c) => match s.teph.ring.find? (fun x => x.id = c) with
    | some x => x.entry.seq
    | none => own

/-- Recording stops (R575). -/
def State.freezeRing (s : State) : State :=
  ({ ((s.put R.TEPH_STAT_COUNTING 0).put R.TEPH_STAT_FROZEN 1) with teph := { s.teph with post := none } } : State).raise .teph 0

/-- Whether an entry is a trigger (R575). -/
def State.triggers (s : State) (o : Offer) : Bool :=
  o.trigger || (s.flag R.TEPH_FREEZE_CTRL_SEV_EN && decide (s.get R.TEPH_FREEZE_CTRL_SEV ≤ o.sev)) ||
    (s.flag R.TEPH_FREEZE_CTRL_CODE_EN && decide (o.code = s.get R.TEPH_FREEZE_CTRL_CODE))

/-- What a written entry does to the freeze (R575, R576): it counts down a running post count, or as a trigger starts one. -/
def State.freezeStep (s : State) (o : Offer) (seq : Nat) : State :=
  match s.teph.post with
  | some k => if k ≤ 1 then s.freezeRing else { s with teph := { s.teph with post := some (k - 1) } }
  | none =>
    if s.triggers o then
      let s1 := s.put R.TEPH_FREEZE_AT seq
      let n := s1.get R.TEPH_FREEZE_POST
      if n = 0 then s1.freezeRing
      else { (s1.put R.TEPH_STAT_COUNTING 1) with teph := { s1.teph with post := some n } }
    else s

/-- Puts an entry into the ring (R571): slot SEQ mod 8,192, the oldest giving way; then sends it to the partner (R578). -/
def State.ringPut (s : State) (o : Offer) : State :=
  let seq := s.get R.TEPH_HEAD
  let e : TEntry := ⟨o.time, seq, o.src, o.sev, o.rung, o.injected, o.unlocked, false, o.code, o.a0, o.a1, s.linkSeq seq o.a2⟩
  let l := s.teph.ring ++ [⟨o.id, e⟩]
  let l' := if 8192 < l.length then l.drop 1 else l
  let s1 : State := { s with teph := { s.teph with ring := l' } }
  ((s1.put R.TEPH_HEAD (seq + 1)).put R.TEPH_STAT_HELD l'.length).sendPair (.tephra e)

/-- TEPHRA_WRITE (R572): the next queued entry. Once recording has stopped it is not stored (R575). -/
def execTephraWrite (s : State) : Out :=
  match s.teph.queue with
  | [] => .next s
  | o :: rest =>
    let s1 : State := { s with teph := { s.teph with queue := rest } }
    if s1.flag R.TEPH_STAT_FROZEN then .next (s1.tephLose true)
    else .next ((s1.ringPut o).freezeStep o (s1.get R.TEPH_HEAD))

/-- TEPHRA_LOST_ENTRY (R573): one LOST entry once the queue has room. -/
def execTephraLostEntry (s : State) : Out :=
  if s.teph.lostPending = 0 ∨ 64 ≤ s.teph.queue.length then .next s
  else
    let s1 := s.offer 23 1 0 0x20 s.teph.lostPending s.teph.lostAfter (.val 0)
    .next { s1 with teph := { s1.teph with lostPending := 0 } }

/-- The FREEZE_CMD marker (R575): its severity and arguments are not stated: free values (log entry 1). -/
def State.tephFreeze (s : State) : State :=
  (s.offerFull 23 (s.freeNat 2) 0 0xF01 (s.freeNat 32 1) (s.freeNat 32 2) (.val (s.freeNat 32 3)) false true).tookFree 4

/-- RESUME (R576): ends a freeze or cancels a post count. -/
def State.tephResume (s : State) : State :=
  { ((s.put R.TEPH_STAT_FROZEN 0).put R.TEPH_STAT_COUNTING 0) with teph := { s.teph with post := none } }

/-- CLEAR (R574): empties the ring and ends any freeze; SEQ keeps running. -/
def State.tephClear (s : State) : State :=
  let s1 := s.tephResume.put R.TEPH_STAT_HELD 0
  { s1 with teph := { s1.teph with ring := [] } }

/-- TEPH_FREEZE. -/
def execTephFreeze (r : Req) (key : Nat) (s : State) : Out :=
  .next (s.keyed R.TEPH_CMD.base r key 0x7E9A (key * 65536 + 1) State.tephFreeze)

/-- TEPH_RESUME. -/
def execTephResume (r : Req) (key : Nat) (s : State) : Out :=
  .next (s.keyed R.TEPH_CMD.base r key 0x7E9A (key * 65536 + 2) State.tephResume)

/-- TEPH_CLEAR. -/
def execTephClear (r : Req) (key : Nat) (s : State) : Out :=
  .next (s.keyed R.TEPH_CMD.base r key 0x7E9A (key * 65536 + 4) State.tephClear)

/-- The window of R577: the newest 1,024 entries; frozen or counting down, at most 512 after the trigger and what fills before. -/
def State.saveWindow (s : State) : List TEntry :=
  let l := s.teph.ring.map (·.entry)
  if s.flag R.TEPH_STAT_FROZEN || s.flag R.TEPH_STAT_COUNTING then
    let at_ := s.get R.TEPH_FREEZE_AT
    let upTo := l.takeWhile (fun e => e.seq ≠ at_) ++ (l.dropWhile (fun e => e.seq ≠ at_)).take 1
    let after := ((l.dropWhile (fun e => e.seq ≠ at_)).drop 1).take 512
    upTo.drop (upTo.length - (1024 - after.length)) ++ after
  else l.drop (l.length - 1024)

/-- The save (R577): the window goes to the older save area. Only with a save due. -/
def State.tephSave (s : State) : State :=
  match s.teph.saveDue with
  | none => s
  | some cause =>
    let w := s.teph.saveCut.getD s.saveWindow
    let age (a : Option SaveArea) : Nat := match a with | some x => x.age + 1 | none => 0
    let a : SaveArea := ⟨cause, s.nv.serial, (w.head?.map (·.seq)).getD 0, w, true, max (age s.nv.saveA) (age s.nv.saveB)⟩
    let n := if age s.nv.saveA ≤ age s.nv.saveB then { s.nv with saveA := some a } else { s.nv with saveB := some a }
    { s with nv := n, teph := { s.teph with saveDue := none, saveCut := none } }

/-- Step 4 of an orderly shutdown begins: its window is the one at this instant (R577). A power-fail save that is due stays. -/
def State.saveShutdown (s : State) : State :=
  if s.teph.saveDue.isSome then s else { s with teph := { s.teph with saveDue := some 2, saveCut := some s.saveWindow } }

/-- At stage 0x03 the newer area whose header verifies becomes the saved window (R577). -/
def State.savedCopy (s : State) : State :=
  let ok (a : Option SaveArea) : Option SaveArea := a.filter (·.headerOk)
  let best := match ok s.nv.saveA, ok s.nv.saveB with
    | some a, some b => some (if a.age < b.age then b else a)
    | some a, none => some a
    | none, b => b
  match best with
  | none => s
  | some a => (({ s with teph := { s.teph with saved := a.entries, savedHdr := some a } } : State).put R.TEPH_STAT_SAVED 1).raise .teph 2

/-- The 64 header bytes of a save area (Table 21.6). -/
def SaveArea.header (a : SaveArea) : List Byte :=
  let b := [0x41, 0x54, 0x50, 0x48] ++ Word.toLe 2 1 ++ Word.toLe 1 a.cause ++ Word.toLe 1 0 ++ Word.toLe 8 a.serial ++
    Word.toLe 4 a.firstSeq ++ Word.toLe 4 a.entries.length ++ List.replicate 36 0
  b ++ Word.toLe 4 (crc32cB b)

/-- A partner entry that skips SEQ values, or announced losses (R578): one MIRROR_GAP entry in this ring. -/
def State.mirrorGap (s : State) (first count : Nat) : State :=
  (s.raise .teph 3).offer 23 1 0 0x21 first count (.val 0)

/-- TEPHRA_PACKET (R578): stored in the partner ring of 8,192 with FLAGS.PARTNER, in slot SEQ mod 8,192. An entry already stored, resent because its
acknowledgement was lost, changes nothing; a lower SEQ with other content is that of a partner that has had a POR. -/
def execTephraPacket (e : TEntry) (s : State) : Out :=
  let want := match s.teph.partner.getLast? with
    | some l => (l.seq + 1) % 2 ^ 32
    | none => e.seq
  let miss := (e.seq + 2 ^ 32 - want) % 2 ^ 32
  if s.teph.partner.contains { e with partner := true } then .next s
  else
    let s1 := if miss = 0 ∨ 2 ^ 31 ≤ miss then s else s.mirrorGap want miss
    .next { s1 with teph := { s1.teph with partner := s1.teph.partner.filter (fun x => x.seq % 8192 ≠ e.seq % 8192) ++ [{ e with partner := true }] } }

/-- The pair link is ACTIVE again (R578): entries the ring no longer holds, and those a freeze kept from being stored, are announced;
every entry after ACKED that the ring still holds is sent again. -/
def State.tephResend (s : State) : State :=
  let acked := s.get R.TEPH_MIRROR
  let again := (s.teph.ring.map (·.entry)).filter (fun e => !Word.reached acked e.seq)
  let missing := (s.get R.TEPH_HEAD + 2 ^ 32 - (acked + 1)) % 2 ^ 32 - again.length
  let froze := s.teph.gap.getD (0, 0)
  let s1 : State := { s with teph := { s.teph with gap := none } }
  let s2 := if missing + froze.2 = 0 then s1
    else s1.sendPair (.tephraGap (if missing = 0 then froze.1 else (acked + 1) % 2 ^ 32) (missing + froze.2))
  again.foldl (fun t e => t.sendPair (.tephra e)) s2

/-- CORR_SUMMARY (R582): one entry per block and kind, and one marked injected, for what was corrected since the last. -/
def execCorrSummary (s : State) : Out :=
  let s1 := s.fab.corr.foldl (fun t c => t.offerFull c.src 0 1 0x100 c.count c.first (.val c.kind) c.injected false) s
  .next { s1 with fab := { s1.fab with corr := [] } }

/-- ALERT_TIMEOUT (R588): ALERT_N is released. -/
def execAlertTimeout (s : State) : Out :=
  .next (if s.pins.alertEn then { s with pins := { s.pins with alert := false } } else s)

end Sys2Proof.Machine
end

