-- ==== Sys2Proof/Machine/Lane.lean ====
section
/-!
DEFINITION. The serial lanes (spec/13): bring-up, loss, equaliser tracking, power states, test.
-/

namespace Sys2Proof.Machine

open Sys2Proof

/-! ### Groups (Table 13.1) -/

/-- The data lanes whose eyes decide the training of group `j`. -/
def dataLanes (j : Nat) : List Nat := (txLanes j ++ rxLanes j).filter isDataLane

/-- Whether lane `n` is a privileged lane: pair or array. -/
def privileged (n : Nat) : Bool := 76 ≤ n && n < 118

/-- The highest generation of group `j` (R383, R321): its link's ceiling, lowered by CTRL.MAX_GEN; 0 for a return channel. -/
def State.ceiling (s : State) (j : Nat) : Nat :=
  let link :=
    if j < 16 then (match s.pseq.desc with | some d => min 3 d.maxGen | none => 3)
    else if j < 20 then 0
    else if j < 22 then 1
    else if j = 22 then 3
    else 2
  min link (max 1 (s.get R.LANE_GRP_CTRL_MAX_GEN (leadLane j)))

/-- Whether the module powers the lanes at all: not while POR, SYS or the load holds it (R43), nor after a shutdown or a cut (Table 20.3). -/
def State.lanesOn (s : State) : Bool := (s.rst.hold = .run || s.rst.hold = .core) && !s.powerDown

/-- Whether group `j` may be in DETECT (R392, R394, R439): enabled, not parked; for a panel group, its return channel ACTIVE and
the rails up; the pair link only with a strap other than unpaired; unused panel groups sleep (R320). -/
def State.mayDetect (s : State) (j : Nat) : Bool :=
  s.lanesOn && s.flag R.LANE_GRP_CTRL_EN (leadLane j) && !s.lane.parked.contains j &&
    (if j < 16 then
      s.groupsInUse.contains j && s.groupStage (16 + j / 4) = 5 && (s.get R.RAIL_STAT_STATE = 2 || s.get R.RAIL_STAT_STATE = 3)
    else if j = 22 then s.get R.RST_STRAP_ROLE ≠ 0 else true)

/-- Sets a field of group `j`. -/
def State.grpPut (s : State) (f : Fld) (v j : Nat) : State := s.put f v (leadLane j)

/-- Sets an EVENT bit of group `j` and the block's flag. -/
def State.grpEvent (s : State) (j bit : Nat) : State :=
  (s.put R.LANE_GRP_EVENT (Word.setBit (s.get R.LANE_GRP_EVENT (leadLane j)) bit) (leadLane j)).raise .lane 0

/-- Sets the power state of one direction of group `j` and of its lanes (R401). -/
def State.grpPower (s : State) (j : Nat) (tx : Bool) (pwr : Nat) : State :=
  let s1 := s.grpPut (if tx then R.LANE_GRP_STAT_TX_PWR else R.LANE_GRP_STAT_RX_PWR) pwr j
  (if tx then txLanes j else rxLanes j).foldl (fun t n => t.put R.LANE_STAT_PWR pwr n) s1

/-- Clears the lock flags of every lane of group `j`. -/
def State.grpUnlock (s : State) (j : Nat) : State :=
  (txLanes j ++ rxLanes j).foldl (fun t n => (t.put R.LANE_STAT_BIT_LOCK 0 n).put R.LANE_STAT_BLOCK_LOCK 0 n) s

/-- Brings LANE_PANEL up to date: the slowest ACTIVE panel group in use, the lens groups, the failed groups; a change of SLOWEST
sets PANEL_RATE (R384). -/
def State.lanePanel (s : State) : State :=
  let gens := (s.groupsInUse.filter (fun g => s.groupStage g = 5)).map (fun g => s.get R.LANE_GRP_STAT_GEN (leadLane g))
  let slow := match gens with | [] => 0 | g :: gs => gs.foldl min g
  let failed := (s.groupsInUse.filter (fun g => s.groupStage g = 6)).foldl (fun m g => Word.setBit m g) 0
  let old := s.get R.LANE_PANEL_SLOWEST
  let s1 := ((s.put R.LANE_PANEL_SLOWEST slow).putB R.LANE_PANEL_LENS_OK (s.groupStage 20 = 5 && s.groupStage 21 = 5)).put
    R.LANE_PANEL_FAILED failed
  s1.raiseIf (slow ≠ old) .lane 2

/-- Puts group `j` into TRAIN at generation `g`, from the taps in effect (R392, R397): its lanes send and receive. -/
def State.grpTrain (s : State) (j g : Nat) : State :=
  let s1 := (((((s.grpUnlock j).grpPower j true 0).grpPower j false 0).grpPut R.LANE_GRP_STAT_STAGE 2 j).grpPut R.LANE_GRP_STAT_GEN g j)
  (s1.grpPut R.LANE_GRP_STAT_FELL (Word.ofBool (decide (g < s.ceiling j))) j).lanePanel

/-- The settings in effect on a lane, with MAIN = 64 − PRE − POST (R389). -/
def State.setTaps (s : State) (n pre post ctle dfe : Nat) : State :=
  ((((s.put R.LANE_EQ_EFF_PRE pre n).put R.LANE_EQ_EFF_POST post n).put R.LANE_EQ_EFF_MAIN (64 - pre - post) n).put
    R.LANE_EQ_EFF_CTLE ctle n).put R.LANE_EQ_EFF_DFE dfe n

/-! ### Bring-up (R392 to R395) -/

/-- LANE_DETECT_CHECK (R392): every 100 ms a group in DETECT looks for far-end termination. -/
def execLaneDetectCheck (j : Nat) (terminated : Bool) (s : State) : Out :=
  let st := s.groupStage j
  if 27 ≤ j ∨ s.mayDetect j = false ∨ (st ≠ 0 ∧ st ≠ 1) then .next s
  else if terminated then
    let s1 := ((txLanes j).foldl (fun t n => if t.flag R.LANE_EQ_TX_OVR n then t else t.setTaps n 4 8 0 0) s)
    .next (s1.grpTrain j (s1.ceiling j))
  else .next (((s.grpPut R.LANE_GRP_STAT_STAGE 1 j).grpPower j true 2).grpPower j false 2)

/-- Takes a lane's eye and, unless its override stops adaptation, the settings training reached (R389, R391). -/
def State.takeEye (s : State) (e : LaneEye) : State :=
  let s1 := (s.put R.LANE_EYE_HEIGHT e.height e.lane).put R.LANE_EYE_WIDTH e.width e.lane
  let tx := laneId e.lane / 4096 % 2 = 0
  let ovr := if tx then s.flag R.LANE_EQ_TX_OVR e.lane else s.flag R.LANE_EQ_RX_OVR e.lane
  if ovr then s1
  else if tx then s1.setTaps e.lane (min 16 e.pre) (min 24 e.post) 0 0
  else s1.setTaps e.lane 0 0 e.ctle e.dfe

/-- Whether every data lane of group `j` reports an eye of at least EYE_MIN and 16/64 UI (R390). -/
def State.eyesMet (s : State) (j : Nat) (eyes : List LaneEye) : Bool :=
  (dataLanes j).all (fun n => eyes.any (fun e => e.lane = n && decide (s.get R.LANE_GRP_CTRL_EYE_MIN (leadLane j) ≤ e.height) &&
    decide (16 ≤ e.width)))

/-- LANE_TRAIN_DONE (R390): the eyes meet the limits; the group goes to LOCK. -/
def execLaneTrainDone (j : Nat) (eyes : List LaneEye) (s : State) : Out :=
  if 27 ≤ j ∨ s.groupStage j ≠ 2 ∨ s.eyesMet j eyes = false then .next s
  else
    let s1 := (eyes.filter (fun e => (dataLanes j).contains e.lane)).foldl State.takeEye s
    .next (s1.grpPut R.LANE_GRP_STAT_STAGE 3 j)

/-- A stage of bring-up fails (R392): one generation lower, or FAILED at DPL1, for a lens group and for a return channel. -/
def State.stageFails (s : State) (j : Nat) : State :=
  let g := s.get R.LANE_GRP_STAT_GEN (leadLane j)
  let s1 := s.bump R.LANE_GRP_COUNT_FALLBACKS (leadLane j)
  if 2 ≤ g then
    let s2 := (s1.grpEvent j 1).recIrq .lane 0
    s2.grpTrain j (g - 1)
  else
    let s2 := ((s1.grpUnlock j).grpPut R.LANE_GRP_STAT_STAGE 6 j).grpEvent j 2
    let s3 := (s2.recIrq .lane 0).lanePanel
    if s3.get R.RST_STAGE_STAGE = 5 ∧ s3.groupsInUse ≠ [] ∧ s3.groupsInUse.all (fun k => s3.groupStage k = 6) = true ∧
      s3.flag R.RST_STAGE_FAIL = false then s3.stageFail 6 else s3.boot

/-- LANE_TRAIN_TIMEOUT (R392): TRAIN, LOCK or EXCHANGE exceeds its limit. -/
def execLaneTrainTimeout (j : Nat) (s : State) : Out :=
  let st := s.groupStage j
  .next (if 27 ≤ j ∨ st < 2 ∨ 4 < st then s else s.stageFails j)

/-- Whether the markers of some lanes, at the bit times given by lane, arrive within 2 blocks, 132 bit times, of each other (R387). -/
def deskewOk (lanes : List Nat) (at_ : List (Nat × Nat)) : Bool :=
  let l := (at_.filter (fun p => lanes.contains p.1)).map (·.2)
  l.all (fun a => l.all (fun b => decide (a ≤ b + 132)))

/-- In EXCHANGE the pair link sends PAIR_HELLO (R438): the strap's role, the low 40 bits of the serial. -/
def State.pairHello (s : State) (j : Nat) : State :=
  if j = 22 then
    let n := s.nv.serial
    s.sendCtl 22 0x87 [0x50, s.get R.RST_STRAP_ROLE, n % 256, n / 2 ^ 8 % 256, n / 2 ^ 16 % 256, n / 2 ^ 24 % 256, n / 2 ^ 32 % 256]
  else s

/-- LANE_LOCK_DONE (Timing 13.1, R387): every data lane has bit lock and valid headers; `at_` is when each lane's MARKER came. Within 2 blocks
the group is deskewed; a larger skew fails LOCK. -/
def execLaneLockDone (j : Nat) (at_ : List (Nat × Nat)) (s : State) : Out :=
  if 27 ≤ j ∨ s.groupStage j ≠ 3 then .next s
  else if (deskewOk (txLanes j) at_ && deskewOk (rxLanes j) at_) = false then .next (s.stageFails j)
  else
    let s1 := (dataLanes j).foldl (fun t n => (t.put R.LANE_STAT_BIT_LOCK 1 n).put R.LANE_STAT_BLOCK_LOCK 1 n) s
    .next (((s1.grpPut R.LANE_GRP_STAT_STAGE 4 j).pairHello j).emit (.offer j (s1.ceiling j)))

/-- Port `a`. -/
def State.port (s : State) (a : Nat) : PortState :=
  if a = 0 then s.array.north else if a = 1 then s.array.east else if a = 2 then s.array.south else s.array.west

/-- Sets port `a`. -/
def State.setPort (s : State) (a : Nat) (p : PortState) : State :=
  if a = 0 then { s with array := { s.array with north := p } }
  else if a = 1 then { s with array := { s.array with east := p } }
  else if a = 2 then { s with array := { s.array with south := p } }
  else { s with array := { s.array with west := p } }

/-- Sends a sequenced packet on array port `a`, which waits for its ACK (R444, R469). -/
def State.sendArray (s : State) (a : Nat) (m : ArrayMsg) : State :=
  let p := s.port a
  let n := (p.txSeq + 1) % 2 ^ 32
  (s.setPort a { p with txSeq := n, unacked := p.unacked ++ [(n, m)] }).arrayFrame a (ArrayMsg.ty m) (some n) (ArrayMsg.payload m)

/-- Sends a HELLO on array port `a` (R468). -/
def State.sendHello (s : State) (a : Nat) : State :=
  let x := s.get R.ARRAY_POS_X
  let y := s.get R.ARRAY_POS_Y
  let v := s.flag R.ARRAY_POS_VALID
  let l := s.get R.PAIR_STAT_LETTER
  let n := s.nv.serial % 2 ^ 40
  (s.sendArray a (.hello x y v l n)).emit (.arrayHello a x y v l n)

/-- A group reaches ACTIVE (Timing 13.1): its transmitters and receivers are awake, the summary is brought up to date, the boot goes
on; the pair link resends the record and FULL outbound mailboxes (R519, R578) and settles SOLO and DETACHED (R441); an array port sends its HELLO. -/
def State.grpActive (s : State) (j : Nat) : State :=
  let s1 := (((s.grpPut R.LANE_GRP_STAT_STAGE 5 j).grpPower j true 0).grpPower j false 0).grpEvent j 4
  let s2 := s1.lanePanel
  let s3 : State :=
    if j = 22 then
      let t := ((s2.tephResend.mbxResend).put R.PAIR_STAT_PARTNER_LOST 0)
      let t1 : State := { t with pair := { t.pair with resends := 0, panelFault := false } }
      if t1.get R.PAIR_STAT_STATE = 4 then t1.becomeActive
      else if t1.get R.PAIR_STAT_STATE = 5 then t1.becomeMirror
      else t1
    else if 23 ≤ j then s2.sendHello (j - 23)
    else s2
  s3.boot

/-- LANE_EXCHANGE (R393): the ends agree, or go back to TRAIN at the lower offer; no failure is counted. A panel's offer is its
MAX_GEN. -/
def execLaneExchange (j : Nat) (offered : Nat) (s : State) : Out :=
  if 27 ≤ j ∨ s.groupStage j ≠ 4 then .next s
  else
    let offer := if j < 16 then (match s.pseq.desc with | some d => d.maxGen | none => offered) else offered
    let s1 := s.grpPut R.LANE_GRP_STAT_FAR_GEN offer j
    let g := s.get R.LANE_GRP_STAT_GEN (leadLane j)
    if offer < g ∧ 1 ≤ offer then .next (s1.grpTrain j offer) else .next (s1.grpActive j)

/-- LANE_FAILED_RETRY (R392): a FAILED group goes back to DETECT every 1,000 ms. -/
def execLaneFailedRetry (j : Nat) (s : State) : Out :=
  if 27 ≤ j ∨ s.groupStage j ≠ 6 ∨ s.flag R.LANE_GRP_CTRL_EN (leadLane j) = false then .next s
  else .next ((((s.grpPut R.LANE_GRP_STAT_STAGE 1 j).grpPut R.LANE_GRP_STAT_GEN 0 j).grpPower j true 2).lanePanel)

/-! ### ACTIVE (R390, R391, R397) -/

/-- EQ_TRACK_STEP (R390): every millisecond one tap of an ACTIVE transmitter moves at most one unit. -/
def execEqTrackStep (n : Nat) (post up : Bool) (s : State) : Out :=
  if 118 ≤ n ∨ s.groupStage (groupOfLane n) ≠ 5 ∨ s.flag R.LANE_EQ_TX_OVR n ∨ laneId n / 4096 % 2 = 1 ∨ isDataLane n = false then
    .next s
  else
    let move (v top : Nat) : Nat := if up then min top (v + 1) else v - 1
    let pre := s.get R.LANE_EQ_EFF_PRE n
    let pst := s.get R.LANE_EQ_EFF_POST n
    .next (if post then s.setTaps n pre (move pst 24) 0 0 else s.setTaps n (move pre 16) pst 0 0)

/-- LANE_INVALID_HEADER (R385, R386, R388): a block with sync header `header`, of a control block type `ty`, that R385 and Table 13.3 do not
give is counted; the panel holds that block's drive. -/
def execLaneInvalidHeader (n header ty : Nat) (s : State) : Out :=
  .next (if n < 118 ∧ blockValid header ty = false then s.bump R.LANE_HDR_ERR n else s)

/-- A group loses its link (R397): LOST, RETRAINS, one entry; back to TRAIN at its generation. In a pair whose partner is ready, a
panel or lens group of the driving module sends the failure notice (R399). -/
def State.linkLost (s : State) (j : Nat) : State :=
  let g := s.get R.LANE_GRP_STAT_GEN (leadLane j)
  let id := s.teph.nextId
  let s1 := ((s.grpEvent j 0).bump R.LANE_GRP_COUNT_RETRAINS (leadLane j)).recIrq .lane 0
  let s2 := s1.grpTrain j g
  if j = 22 then
    let t := s2.releaseLocks 3
    { t with pair := { t.pair with unacked := [], resends := 0, snapshot := none, delta := none } }
  else if 23 ≤ j then
    let t := s2.put R.ARRAY_PORT_NBR_PRESENT 0 (j - 23)
    (t.setPort (j - 23) { t.port (j - 23) with unacked := [], resends := 0, syncAt := none }).raise .array 0
  else if (j < 16 ∨ 20 ≤ j) ∧ s2.isActive = true ∧ (s2.get R.PAIR_FIT_PEER_FIT).testBit 4 = true then
    s2.sendFail .groupLost (some id)
  else s2

/-- The domains of the lanes are switched off (Table 20.3): every group is DISABLED and asleep, and the array ports have lost their neighbours. -/
def State.linksOff (s : State) : State :=
  let s1 := (List.range 27).foldl (fun t j => (((t.grpUnlock j).grpPower j true 2).grpPower j false 2).grpPut R.LANE_GRP_STAT_STAGE 0 j) s
  ([0, 1, 2, 3].foldl (fun (t : State) a =>
    (t.put R.ARRAY_PORT_NBR_PRESENT 0 a).setPort a { t.port a with unacked := [], resends := 0, syncAt := none }) s1).lanePanel

/-- LANE_LINK_LOST (R397). -/
def execLaneLinkLost (j : Nat) (s : State) : Out :=
  .next (if 27 ≤ j ∨ s.groupStage j ≠ 5 then s else s.linkLost j)

/-! ### Group commands (R395, R404, Table 13.6) -/

/-- The BAR0 offset of LANE_GRP[j].CMD. -/
def grpCmdOff (j : Nat) : Nat := R.LANE_GRP_CMD.off (leadLane j) 0

/-- LANE_RETRAIN (R395): bring-up again from TRAIN at the ceiling; ignored in TRAIN, LOCK and EXCHANGE, and where no bring-up can
start (DISABLED, DETECT, TEST; log entry 14). -/
def execLaneRetrain (r : Req) (key j : Nat) (s : State) : Out :=
  if 27 ≤ j then .next s
  else if key ≠ 0x1A4E then .next (s.ignored (grpCmdOff j) (key * 65536 + 1) r)
  else .next (if s.groupStage j = 5 ∨ s.groupStage j = 6 then s.grpTrain j (s.ceiling j) else s)

/-- LANE_TEST (R404): from DISABLED or FAILED only, otherwise ignored and recorded. -/
def execLaneTest (r : Req) (key j : Nat) (s : State) : Out :=
  if 27 ≤ j then .next s
  else if key ≠ 0x1A4E then .next (s.ignored (grpCmdOff j) (key * 65536 + 2) r)
  else if s.groupStage j = 0 ∨ s.groupStage j = 6 then
    let s1 := ((s.grpPut R.LANE_GRP_STAT_STAGE 7 j).grpPower j true 0).grpPower j false 0
    .next (s1.grpPut R.LANE_GRP_STAT_GEN (if 16 ≤ j ∧ j < 20 then 0 else max 1 (s.get R.LANE_GRP_CTRL_TEST_GEN (leadLane j))) j).lanePanel
  else .next (s.ignored (grpCmdOff j) (key * 65536 + 2) r)

/-- LANE_TEST_EXIT (R404): back to DISABLED; a strobe that sets EN to 1 starts bring-up again. -/
def execLaneTestExit (r : Req) (key j : Nat) (s : State) : Out :=
  if 27 ≤ j then .next s
  else if key ≠ 0x1A4E then .next (s.ignored (grpCmdOff j) (key * 65536 + 4) r)
  else if s.groupStage j = 7 then
    let s1 := (((s.grpPut R.LANE_GRP_STAT_STAGE 0 j).grpPut R.LANE_GRP_STAT_GEN 0 j).grpPower j true 2).grpPower j false 2
    let s2 := (rxLanes j).foldl (fun t n => t.put R.LANE_STAT_PRBS_LOCK 0 n) s1
    .next { s2 with lane := { s2.lane with
      parked := j :: s2.lane.parked.filter (· ≠ j)
      prbs := s2.lane.prbs.filter (fun p => groupOfLane p.lane ≠ j) } }
  else .next s

/-- LANE_LOOP_WRITE (R406): a loopback of a privileged lane in TEST; elsewhere ignored and recorded. (On another lane the offset is
reserved: REGISTER_WRITE gives the bus error.) -/
def execLaneLoopWrite (r : Req) (n mode : Nat) (s : State) : Out :=
  if privileged n = false then .next s
  else if s.groupStage (groupOfLane n) = 7 then .next (s.put R.LANE_LOOP mode n)
  else .next (s.ignored (R.LANE_LOOP.off n 0) mode r)

/-- INJECT_ONE (R405): one bit error in the pattern lane `n` sends; PRBS operates only in TEST. -/
def execInjectOne (n : Nat) (s : State) : Out :=
  if n < 118 ∧ s.groupStage (groupOfLane n) = 7 then
    .next { s with lane := { s.lane with one := s.lane.one ++ [n] } }
  else .next s

/-- INJECT_RATE (R405): one error every 2^(k + 9) bits; 0 adds none. -/
def execInjectRate (n k : Nat) (s : State) : Out :=
  if n < 118 ∧ s.groupStage (groupOfLane n) = 7 then
    let rest := s.lane.rate.filter (fun p => p.1 ≠ n)
    .next { s with lane := { s.lane with rate := if k % 16 = 0 then rest else (n, k % 16) :: rest } }
  else .next s

/-- A write of PRBS_CTRL in TEST (R405): a checker that is turned on begins anew, one that is turned off lets go its lock. -/
def State.prbsWrite (s : State) (n : Nat) : State :=
  let s1 := s.put R.LANE_STAT_PRBS_LOCK 0 n
  let rest := s1.lane.prbs.filter (fun p => p.lane ≠ n)
  { s1 with lane := { s1.lane with prbs := if s1.flag R.LANE_PRBS_CTRL_CHK_EN n then ⟨n, 0, 0⟩ :: rest else rest } }

/-- The transmit lane paired by position with receive lane `n` (R406). -/
def pairedTx (n : Nat) : Nat := if n < 94 then n - 9 else n - 3

/-- The pattern that reaches the checker of receive lane `n`: its paired transmitter's, through a loopback of R406 inside the module, of the same
polynomial. DESIGN CHOICE (log entry 31): from outside the module comes nothing that locks a checker. -/
def State.prbsFed (s : State) (n : Nat) : Bool :=
  let t := pairedTx n
  let loop (k : Nat) : Bool := decide (s.get R.LANE_LOOP k = 1 ∨ s.get R.LANE_LOOP k = 2)
  privileged n && decide (laneId n / 4096 % 2 = 1) && (loop n || loop t) && s.flag R.LANE_PRBS_CTRL_GEN_EN t &&
    decide (s.get R.LANE_PRBS_CTRL_POLY t = s.get R.LANE_PRBS_CTRL_POLY n)

/-- Errors injected into the pattern of lane `t` while a checker sees bits `a` to `a + k - 1` (R405). -/
def State.prbsErrors (s : State) (t a k : Nat) : Nat :=
  let every := match s.lane.rate.find? (fun p => p.1 = t) with
    | some p => (a + k) / 2 ^ (p.2 + 9) - a / 2 ^ (p.2 + 9)
    | none => 0
  (s.lane.one.filter (· = t)).length + every

/-- One nanosecond of a running checker: locked after 64 error-free bits, it counts bits and bit errors. -/
def State.prbsRun (s : State) (p : PrbsRun) : State :=
  if s.prbsFed p.lane then
    let k := s.laneRate (groupOfLane p.lane)
    let t := pairedTx p.lane
    let e := s.prbsErrors t p.seen k
    let s1 : State := { s with lane := { s.lane with
      one := s.lane.one.filter (· ≠ t)
      prbs := s.lane.prbs.map (fun q => if q.lane = p.lane then ⟨p.lane, p.seen + k, if e = 0 then min 64 (p.clean + k) else 0⟩ else q) } }
    if s.flag R.LANE_STAT_PRBS_LOCK p.lane then
      (s1.count R.LANE_PRBS_BITS k p.lane).bumpBy R.LANE_PRBS_ERR e p.lane
    else if e = 0 ∧ 64 ≤ p.clean + k then s1.put R.LANE_STAT_PRBS_LOCK 1 p.lane
    else s1
  else s

/-- One nanosecond of the lanes in TEST. -/
def State.prbsTick (s : State) : State := s.lane.prbs.foldl State.prbsRun s

/-! ### Power states (R401 to R403) -/

/-- The deepest state CTRL.DEEPEST allows: 0 ACTIVE, 1 IDLE, 2 SLEEP (3 acts as 2). -/
def State.deepest (s : State) (j : Nat) : Nat := min 2 (s.get R.LANE_GRP_CTRL_DEEPEST (leadLane j))

/-- Whether R402 lets a direction of group `j` leave ACTIVE: not a lens group while the layout is FULL or HORIZ, not a return
channel's receiver while the rails are ON. -/
def State.mayRest (s : State) (j : Nat) : Bool :=
  if 16 ≤ j ∧ j < 20 then s.get R.RAIL_STAT_STATE ≠ 2
  else if 20 ≤ j ∧ j < 22 then s.get R.PSEQ_MODE_LAYOUT = 2
  else true

/-- LANE_POWER_DOWN (R402): after 4 IDLE blocks a transmitter enters IDLE or SLEEP within DEEPEST; on the pair link and the array
ports only after a handshake (`agreed`), and then the receiver of the direction follows. -/
def execLanePowerDown (j : Nat) (tx : Bool) (pwr : Nat) (agreed : Bool) (s : State) : Out :=
  if 27 ≤ j ∨ s.groupStage j ≠ 5 ∨ pwr = 0 ∨ s.deepest j < pwr ∨ s.mayRest j = false ∨ (22 ≤ j ∧ agreed = false) then .next s
  else
    let s1 := if tx then (List.range 4).foldl (fun t _ => t.sendCtl j 0x1E (List.replicate 7 0)) s else s
    .next (s1.grpPower j tx pwr)

/-- LANE_WAKE (R402): the lanes wake to ACTIVE; a transmitter sends 16 WAKE blocks. -/
def execLaneWake (j : Nat) (tx : Bool) (s : State) : Out :=
  if 27 ≤ j ∨ s.groupStage j ≠ 5 then .next s
  else
    let s1 := s.grpPower j tx 0
    .next (if tx then s1.sendWake j else s1)

/-! ### What a group 12 strobe does to the lanes (R391, R395, R403) -/

/-- Applies the overrides of one lane: PRE above 16 or POST above 24 is limited and sets EQ_CLAMP. -/
def State.applyEq (s : State) (n : Nat) : State :=
  if laneId n / 4096 % 2 = 0 then
    if s.flag R.LANE_EQ_TX_OVR n then
      let pre := s.get R.LANE_EQ_TX_PRE n
      let post := s.get R.LANE_EQ_TX_POST n
      let s1 := s.setTaps n (min 16 pre) (min 24 post) 0 0
      if 16 < pre ∨ 24 < post then s1.grpEvent (groupOfLane n) 3 else s1
    else s
  else if s.flag R.LANE_EQ_RX_OVR n then s.setTaps n 0 0 (s.get R.LANE_EQ_RX_CTLE n) (s.get R.LANE_EQ_RX_DFE n)
  else s

/-- Applies CTRL of one group: EN 0 disables it in any stage, EN 1 starts a DISABLED group at DETECT; a state DEEPEST forbids wakes
the group. -/
def State.applyGrp (s : State) (j : Nat) : State :=
  let st := s.groupStage j
  if s.flag R.LANE_GRP_CTRL_EN (leadLane j) = false then
    if st = 7 then s
    else (((((s.grpUnlock j).grpPut R.LANE_GRP_STAT_STAGE 0 j).grpPut R.LANE_GRP_STAT_GEN 0 j).grpPower j true 2).grpPower j false 2).lanePanel
  else
    let s1 := { s with lane := { s.lane with parked := s.lane.parked.filter (· ≠ j) } }
    let s2 := if st = 0 ∧ s1.mayDetect j = true then s1.grpPut R.LANE_GRP_STAT_STAGE 1 j else s1
    let wakeDir (t : State) (tx : Bool) : State :=
      let p := t.get (if tx then R.LANE_GRP_STAT_TX_PWR else R.LANE_GRP_STAT_RX_PWR) (leadLane j)
      if st = 5 ∧ t.deepest j < p then t.grpPower j tx 0 else t
    wakeDir (wakeDir s2 true) false

/-- All lane effects of a group 12 strobe. -/
def State.applyLink (s : State) : State :=
  let s1 := (List.range 118).foldl State.applyEq s
  (List.range 27).foldl State.applyGrp s1

end Sys2Proof.Machine
end

