-- ==== Sys2Proof/Machine/Time.lean ====
section
/-!
DEFINITION. The time unit, PTP and the array ports (spec/16, R467 to R491, R604; R562).
-/

namespace Sys2Proof.Machine

open Sys2Proof

/-! ### The clock (R470 to R472, R483) -/

/-- Re-anchors BASE and RAW_BASE to this instant (R471). -/
def State.timeAnchor (s : State) : State := { s with time := { s.time with base := s.timeFx, rawBase := s.time.raw } }

/-- `z` within ±200 ppm. -/
def rateClamp (z : Int) : Int := Word.clampI (-rateLimit) rateLimit z

/-- A change of RATE (R471): re-anchored, limited; a slew shrinks where the sum would leave the limit (R482). -/
def State.setRate (s : State) (r : Int) : State :=
  let s1 := s.timeAnchor
  let r1 := rateClamp r
  { s1 with time := { s1.time with rate := r1, slew := rateClamp (r1 + s1.time.slew) - r1 } }

/-- How an applied step reaches the grid (R483): E moves with TIME; a backward step of more than a light-field frame makes the next
launch the first multiple of the phase count, and skips what was left of the interrupted frame. -/
def State.gridStep (s : State) (moved : Int) (q : Int) : State :=
  let e := s.pseq.earliest + moved
  let s1 : State := { s with pseq := { s.pseq with earliest := e } }
  let period : Int := ((65536 * 1000000000 * s.pseq.phases * s.pseq.rateDen : Nat) : Int)
  if q < 0 ∧ period < -q * s.pseq.rateNum then
    let left := (s.pseq.phases - s.pseq.next % max 1 s.pseq.phases) % max 1 s.pseq.phases
    let z : State := { s1 with pseq := { s1.pseq with next := 0 } }
    let s2 : State := { s1 with pseq := { s1.pseq with next := z.gridFrom e s.pseq.phases } }
    if left = 0 then s2 else (s2.bumpBy R.PSEQ_EVENTS_SKIPPED left).raise .pseq 2
  else s1

/-- A step of TIME by `q` in 2⁻¹⁶ ns (R471). -/
def State.timeStep (s : State) (q : Int) : State :=
  let before := Int.fdiv s.timeFx 65536
  let s1 := s.timeAnchor
  let s2 : State := { s1 with time := { s1.time with base := s1.time.base + q } }
  s2.gridStep (Int.fdiv s2.timeFx 65536 - before) q

/-! ### Sources, lock, corrections -/

/-- Sets LOCKED; a change is flagged and recorded (R474). -/
def State.setLocked (s : State) (on : Bool) : State :=
  if s.flag R.TIME_STAT_LOCKED = on then s else (s.putB R.TIME_STAT_LOCKED on).raiseRec .time 0

/-- Drops the pending step, or replaces it. -/
def State.setStep (s : State) (p : Option PendStep) : State :=
  { (s.putB R.TIME_STAT_JUMP_PEND p.isSome) with time := { s.time with pend := p } }

/-- The source that TIME_CTRL.SRC and the pair state choose (Table 16.2). -/
def State.srcChosen (s : State) : Nat := if s.isMirror then 4 else s.get R.TIME_CTRL_SRC

/-- The usable upstream port (R479): LOCKED, no CONFLICT, lowest HOPS below 63, ties to N, E, S, W. -/
def State.upstream (s : State) : Option Nat :=
  ((List.range 4).filter (fun a => s.flag R.ARRAY_PORT_NBR_PRESENT a && s.flag R.ARRAY_PORT_NBR_LOCKED a &&
      !s.flag R.ARRAY_PORT_NBR_CONFLICT a && decide (s.get R.ARRAY_PORT_NBR_HOPS a < 63))).foldl
    (fun best a => match best with
      | none => some a
      | some b => if s.get R.ARRAY_PORT_NBR_HOPS a < s.get R.ARRAY_PORT_NBR_HOPS b then some a else best) none

/-- The module's own hop count (R479): 0 when LOCKED to PTP; the upstream's plus 1; else 63. -/
def State.setHops (s : State) : State :=
  let eff := s.get R.TIME_STAT_SRC_EFF
  s.put R.TIME_STAT_HOPS
    (if eff = 1 ∧ s.flag R.TIME_STAT_LOCKED = true then 0
     else if eff = 2 then min 63 (s.get R.ARRAY_PORT_NBR_HOPS (s.get R.TIME_STAT_UPSTREAM) + 1)
     else if eff = 4 then s.get R.TIME_STAT_HOPS
     else 63)

/-- A change of the source in effect (R475, R481): the first correction is due again, and a step pending from another source is
dropped, which is recorded. -/
def State.srcChange (s : State) (src : Nat) : State :=
  let s1 := (s.put R.TIME_STAT_SRC_EFF src).put R.TIME_STAT_HOLDOVER 0
  let s2 : State := { s1 with time := { s1.time with first := true, run := 0 } }
  let s3 := match s2.time.pend with
    | some p => if p.src = src then s2 else (s2.setStep none).recOther R.TIME_STAT.base
    | none => s2
  s3.setLocked false

/-- Source `src` delivers (R473, R475): the source that was in effect before holdover comes back without a change. -/
def State.srcEffect (s : State) (src : Nat) : State :=
  if s.flag R.TIME_STAT_HOLDOVER = true ∧ s.time.lastSrc = src then
    (s.put R.TIME_STAT_SRC_EFF src).put R.TIME_STAT_HOLDOVER 0
  else if s.get R.TIME_STAT_SRC_EFF = src ∧ s.flag R.TIME_STAT_HOLDOVER = false then s
  else s.srcChange src

/-- Classes a step pending from PTP by the neighbours' offsets (R484). -/
def State.diagnose (s : State) : State :=
  match s.time.pend with
  | some p =>
    if p.src ≠ 1 then s
    else
      let lim : Int := ((max 1 (s.get R.ARRAY_XCHK_LIM) : Nat) : Int)
      let ns := (List.range 4).filter (fun a => s.flag R.ARRAY_PORT_NBR_PRESENT a && s.flag R.ARRAY_PORT_NBR_LOCKED a &&
        !s.flag R.ARRAY_PORT_NBR_CONFLICT a)
      let c :=
        if ns.isEmpty then 0
        else if ns.all (fun a => decide (-lim ≤ s.getI R.ARRAY_PORT_XCHK a ∧ s.getI R.ARRAY_PORT_XCHK a ≤ lim)) then 1
        else if ns.all (fun a => (s.port a).stepPend && decide ((s.getI R.ARRAY_PORT_XCHK a * 65536 - p.step).natAbs ≤ (lim * 65536).natAbs)) then 2
        else 3
      (s.put R.TIME_STAT_DIAG c).raise .time 3
  | none => s

/-- Counts a measurement towards LOCKED (R474). -/
def State.lockRun (s : State) (inside : Bool) : State :=
  let n := if inside then min 16 (s.time.run + 1) else 0
  let s1 : State := { s with time := { s.time with run := n } }
  (s1.setLocked (n = 16)).setHops

/-- A measurement of the source in effect, `q` in 2⁻¹⁶ ns (R604): a step that is accepted (R475, R481) or refused, or a change of RATE,
whose gain is the firmware's own: a free value. A slew in progress takes none. `always` marks a host step. -/
def State.timeMeasure (s : State) (src : Nat) (q : Int) (always : Bool) : State :=
  let s0 := s.srcEffect src
  if s0.flag R.TIME_STAT_SLEWING then s0
  else
    match s0.time.pend with
    | some _ => (s0.setStep (some ⟨q, src⟩)).diagnose
    | none =>
      let thresh := max 1 (s0.get R.TIME_LOCK) * 65536
      let accept := s0.time.first && s0.flag R.TIME_CTRL_AUTO_FIRST
      let s1 : State := { s0 with time := { s0.time with first := false } }
      if always || decide (thresh < q.natAbs) then
        if max 1 (s1.get R.TIME_JUMP_LIM) * 65536 < q.natAbs ∧ accept = false then
          ((((s1.lockRun false).setStep (some ⟨q, src⟩)).raiseRec .time 1)).diagnose
        else (s1.timeStep q).lockRun (q.natAbs ≤ thresh)
      else
        ((s1.setRate (Word.signed 38 (s1.freeNat 38))).tookFree).lockRun true

/-- The source in effect follows the array neighbours (R479): a new upstream makes the next correction a first one only when its offset
exceeds TIME_JUMP_LIM. -/
def State.arraySource (s : State) : State :=
  if s.srcChosen ≠ 2 then s
  else
    let reach := (List.range 4).any (fun a => s.flag R.ARRAY_PORT_NBR_PRESENT a && s.flag R.ARRAY_PORT_NBR_LOCKED a &&
      !s.flag R.ARRAY_PORT_NBR_CONFLICT a && decide (63 ≤ s.get R.ARRAY_PORT_NBR_HOPS a))
    match s.upstream with
    | none => s.raiseIf reach .array 2
    | some p =>
      let far := decide ((max 1 (s.get R.TIME_JUMP_LIM) : Nat) < (s.getI R.ARRAY_PORT_XCHK p).natAbs)
      let moved := s.get R.TIME_STAT_SRC_EFF = 2 ∧ s.get R.TIME_STAT_UPSTREAM ≠ p
      let s1 := (s.put R.TIME_STAT_UPSTREAM p).srcEffect 2
      let s2 : State := if moved ∧ far = true then { s1 with time := { s1.time with first := true } } else s1
      s2.setHops

/-- Whether array port `a` is ACTIVE: its lane group stands in stage 5. -/
def State.portUp (s : State) (a : Nat) : Bool := s.groupStage (23 + a) = 5

/-- Acknowledges a sequenced packet of port `a` (R469). -/
def State.portAck (s : State) (a : Nat) : State :=
  let p := s.port a
  let n := (p.rxSeq + 1) % 2 ^ 32
  ((s.setPort a { p with rxSeq := n }).arrayFrame a 0x0B none (Word.toLe 4 n)).emit (.arrayAck a n)

/-- An ACK arrives on array port `a` (R444, R469). -/
def State.arrayAcked (s : State) (a seq : Nat) : State :=
  let p := s.port a
  let rest := p.unacked.filter (fun x => !Word.reached seq x.1)
  s.setPort a { p with unacked := rest, resends := if rest.length = p.unacked.length then p.resends else 0 }

/-- Array port `a` sends again from its first unacknowledged packet on; eight rounds without success lose the link (R444, R469). -/
def State.arrayResend (s : State) (a : Nat) : State :=
  let p := s.port a
  if p.unacked.isEmpty || !s.portUp a then s
  else if 8 ≤ p.resends then s.linkLost (23 + a)
  else p.unacked.foldl (fun t x => t.arrayFrame a (ArrayMsg.ty x.2) (some x.1) (ArrayMsg.payload x.2))
    (s.setPort a { p with resends := p.resends + 1 })

/-- What a STATUS packet says of this module (Table 16.1). -/
def State.statusOf (s : State) : Nat × Bool × Nat × Nat :=
  (s.get R.TIME_STAT_SRC_EFF, s.flag R.TIME_STAT_LOCKED, s.get R.TIME_STAT_HOPS, s.get R.TIME_PTP_GM)

/-- Sends STATUS on every ACTIVE array port (R469). -/
def State.sendStatus (s : State) : State :=
  let q := s.statusOf
  let s1 : State := { s with array := { s.array with status := q } }
  (List.range 4).foldl (fun t a =>
    if t.portUp a then (t.sendArray a (.status q.1 q.2.1 q.2.2.1 q.2.2.2)).emit (.arrayStatus a q.1 q.2.1 q.2.2.1 q.2.2.2) else t) s1

/-- STATUS goes out on every change (R469). -/
def State.statusNow (s : State) : State := if s.statusOf = s.array.status then s else s.sendStatus

/-- A group 11 strobe has applied (R473, R604): a source that is no longer chosen leaves effect; under SRC 3 the host's rate and step
apply, the rate held while a step is pending (R481). -/
def State.timeStrobe (s : State) : State :=
  let want := s.srcChosen
  let cur := if s.flag R.TIME_STAT_HOLDOVER then s.time.lastSrc else s.get R.TIME_STAT_SRC_EFF
  let s1 := if want = 4 ∨ want = cur then s else ((s.srcChange (if want = 3 then 3 else 0)).arraySource).setHops
  if want = 3 then
    let s2 := s1.srcEffect 3
    let s3 := if s2.time.pend.isSome then s2 else s2.setRate (s2.getI R.TIME_ADJ_RATE)
    (s3.timeMeasure 3 (s3.getI R.TIME_ADJ_STEP * 65536 + s3.get R.TIME_ADJ_FRAC) true).statusNow
  else s1.statusNow

/-! ### Array ports -/

/-- What this module's TIME packets say of it (Table 16.3). -/
def State.timeInfo (s : State) : TimeInfo :=
  ⟨s.get R.TIME_STAT_HOPS, s.flag R.TIME_STAT_LOCKED, s.flag R.TIME_STAT_JUMP_PEND⟩

/-- The position a module expects of the neighbour on port `a` (R468). -/
def State.expected (s : State) (a : Nat) : Int × Int :=
  let x : Int := s.get R.ARRAY_POS_X
  let y : Int := s.get R.ARRAY_POS_Y
  if a = 0 then (x, y - 1) else if a = 1 then (x + 1, y) else if a = 2 then (x, y + 1) else (x - 1, y)

/-- Judges the neighbour of port `a` (R468): a new conflict is flagged and recorded. -/
def State.conflictCheck (s : State) (a : Nat) : State :=
  let e := s.expected a
  let bad := s.flag R.ARRAY_POS_VALID && s.flag R.ARRAY_PORT_NBR_PRESENT a && s.flag R.ARRAY_PORT_NBR_VALID a &&
    !(decide (e.1 = (s.get R.ARRAY_PORT_NBR_X a : Int)) && decide (e.2 = (s.get R.ARRAY_PORT_NBR_Y a : Int)))
  let s1 := s.putB R.ARRAY_PORT_NBR_CONFLICT bad a
  if bad && !s.flag R.ARRAY_PORT_NBR_CONFLICT a then s1.raiseRec .array 1 else s1

/-- ARRAY_POS or the letter changed (R468): HELLO on every ACTIVE port, and every neighbour is judged again. -/
def State.helloAll (s : State) : State :=
  (List.range 4).foldl (fun t a => (if t.portUp a then t.sendHello a else t).conflictCheck a) s

/-- ARRAY_HELLO (R468): the neighbour's position, letter and serial; a change sets NBR_CHANGE; the position is judged. -/
def execArrayHello (a : Nat) (x y : Nat) (valid : Bool) (letter serial : Nat) (s : State) : Out :=
  if 4 ≤ a ∨ s.portUp a = false then .next s
  else
    let w0 := s.get R.ARRAY_PORT_NBR_X a + 32 * s.get R.ARRAY_PORT_NBR_Y a + 1024 * s.get R.ARRAY_PORT_NBR_VALID a +
      2048 * s.get R.ARRAY_PORT_NBR_LETTER a + 8192 * s.get R.ARRAY_PORT_NBR_PRESENT a
    let w1 := x % 32 + 32 * (y % 32) + 1024 * Word.ofBool valid + 2048 * (letter % 4) + 8192
    let changed := w0 ≠ w1 ∨ (s.port a).serial ≠ serial % 2 ^ 40
    let s1 := ((((s.put R.ARRAY_PORT_NBR_X x a).put R.ARRAY_PORT_NBR_Y y a).putB R.ARRAY_PORT_NBR_VALID valid a).put
      R.ARRAY_PORT_NBR_LETTER letter a).put R.ARRAY_PORT_NBR_PRESENT 1 a
    let s2 := s1.setPort a { s1.port a with serial := serial % 2 ^ 40 }
    .next (((s2.raiseIf changed .array 0).conflictCheck a).portAck a).arraySource.statusNow

/-- ARRAY_STATUS (R469, R479). -/
def execArrayStatus (a : Nat) (src : Nat) (locked : Bool) (hops gm : Nat) (s : State) : Out :=
  if 4 ≤ a ∨ s.portUp a = false then .next s
  else
    let p := s.port a
    let changed := p.nbrSource ≠ src ∨ p.gm ≠ gm ∨ s.flag R.ARRAY_PORT_NBR_LOCKED a ≠ locked ∨ s.get R.ARRAY_PORT_NBR_HOPS a ≠ min 63 hops
    let s1 := (s.putB R.ARRAY_PORT_NBR_LOCKED locked a).put R.ARRAY_PORT_NBR_HOPS (min 63 hops) a
    let s2 := s1.setPort a { p with nbrSource := src, gm := gm }
    .next (((s2.raiseIf changed .array 0).portAck a).arraySource.statusNow)

/-- ARRAY_STATUS_SEND (R469): at least every 100 ms, on every ACTIVE port. -/
def execArrayStatusSend (s : State) : Out := .next s.sendStatus

/-- ARRAY_BAD_PACKET (R469): discarded and counted. -/
def execArrayBadPacket (a : Nat) (s : State) : Out :=
  if 4 ≤ a then .next s else .next (s.bump R.ARRAY_PORT_COUNT_BAD a)

/-- ARRAY_TIME_EXCHANGE (R478): the port sends a SYNC stamped t1. -/
def execArrayTimeExchange (a : Nat) (s : State) : Out :=
  if 4 ≤ a ∨ s.portUp a = false then .next s
  else
    let p := s.port a
    let id := (p.syncId + 1) % 2 ^ 32
    let k : TimeKind := .sync id s.now
    .next (((s.setPort a { p with syncId := id, syncAt := some (id, s.now) }).arrayFrame a 0x08 none (timeBytes k s.timeInfo)).emit
      (.arrayTime a k s.timeInfo))

/-- PAIR_TIME_EXCHANGE (R480): the MIRROR sends a SYNC to the ACTIVE. -/
def execPairTimeExchange (s : State) : Out :=
  if s.isMirror && s.pairUp then
    let id := (s.time.syncId + 1) % 2 ^ 32
    let s1 : State := { s with time := { s.time with syncId := id, exchange := some (id, s.now) } }
    .next (s1.sendPair (.time (.sync id s.now) s.timeInfo))
  else .next s

/-- The offset of R477 in 2⁻¹⁶ ns, and the delay in ns. -/
def exchange (t1 t2 t3 t4 : Nat) : Int × Nat :=
  ((((t2 : Int) - t1) - ((t4 : Int) - t3)) * 32768, (Int.fdiv (((t2 : Int) - t1) + ((t4 : Int) - t3)) 2).toNat)

/-- A REPLY on array port `a` (R478, R479): XCHK, DELAY and the count; the upstream's offset is a measurement. -/
def State.arrayReply (s : State) (a id t2 t3 : Nat) : State :=
  match (s.port a).syncAt.filter (fun p => p.1 = id) with
  | none => s
  | some (_, t1) =>
    let (q, d) := exchange t1 t2 t3 s.now
    let s1 := s.setPort a { s.port a with syncAt := none }
    let s2 := ((s1.putI R.ARRAY_PORT_XCHK (Int.fdiv q 65536) a).put R.ARRAY_PORT_DELAY (Word.satU 16 d) a).bump
      R.ARRAY_PORT_COUNT_EXCHANGES a
    let s3 := s2.diagnose
    if s3.srcChosen = 2 then
      let s4 := s3.arraySource
      if s4.upstream = some a then s4.timeMeasure 2 q false else s4
    else s3

/-- A REPLY on the pair link (R451, R480): the MIRROR follows; fitness bit TIME tells whether within 20 ns (R453). -/
def State.pairReply (s : State) (id t2 t3 : Nat) (hops : Nat) : State :=
  match s.time.exchange.filter (fun p => decide (p.1 = id) && s.isMirror) with
  | none => s
  | some (_, t1) =>
    let (q, _) := exchange t1 t2 t3 s.now
    let s1 : State := { s with time := { s.time with exchange := none } }
    let s2 := (s1.timeMeasure 4 q false).put R.TIME_STAT_HOPS (min 63 (hops + 1))
    s2.setFit 1 (q.natAbs ≤ 20 * 65536)

/-- TIME_PACKET (R477 to R480): a SYNC is answered; a REPLY that echoes the SYNC in flight gives offset and delay. A LAUNCH is the
command LAUNCH_PACKET. -/
def execTimePacket (link : Option Nat) (k : TimeKind) (i : TimeInfo) (s : State) : Out :=
  match link with
  | some a =>
    if 4 ≤ a ∨ s.portUp a = false then .next s
    else
      let s0 := s.setPort a { s.port a with stepPend := i.stepPend }
      let s1 := (s0.putB R.ARRAY_PORT_NBR_LOCKED i.locked a).put R.ARRAY_PORT_NBR_HOPS (min 63 i.hops) a
      match k with
      | .sync id _ =>
        let k : TimeKind := .reply id s1.now s1.now
        .next ((s1.arraySource.arrayFrame a 0x08 none (timeBytes k s1.timeInfo)).emit (.arrayTime a k s1.timeInfo)).statusNow
      | .reply id t2 t3 => .next (s1.arrayReply a id t2 t3).statusNow
      | .launch _ => .next s1
  | none =>
    if s.pairUp = false then .next s
    else
      match k with
      | .sync id _ => .next (s.sendPair (.time (.reply id s.now s.now) s.timeInfo))
      | .reply id t2 t3 => .next (s.pairReply id t2 t3 i.hops).statusNow
      | .launch _ => .next s

/-! ### PTP (R476, Table 16.4) -/

/-- Lexicographic comparison of Announce rankings. -/
def rankLt : List Nat → List Nat → Bool
  | [], [] => false
  | [], _ => true
  | _, [] => false
  | a :: as, b :: bs => if a < b then true else if b < a then false else rankLt as bs

/-- The best master heard: the lowest ranking, ties to the lower identity. -/
def bestMaster (l : List (Nat × List Nat)) : Option (Nat × List Nat) :=
  l.foldl (fun best m => match best with
    | none => some m
    | some b => if rankLt m.2 b.2 || (!rankLt b.2 m.2 && decide (m.1 < b.1)) then some m else best) none

/-- Chooses the best master: a new one restarts the exchange; STATE is listening without one. The grandmaster identity is the sixth
field an Announce compares by. -/
def State.ptpChoose (s : State) : State :=
  match bestMaster s.time.ptp.masters with
  | none =>
    let p : PtpState := { s.time.ptp with master := none, t1 := none, t2 := none, t3 := none, syncSeq := none }
    ({ ((s.put R.TIME_PTP_STAT_STATE 0).put R.TIME_PTP_GM 0) with time := { s.time with ptp := p } } : State)
  | some m =>
    let s1 := s.put R.TIME_PTP_GM (m.2.getD 5 m.1)
    if s.time.ptp.master = some m.1 then s1
    else
      let p : PtpState := { s.time.ptp with master := some m.1, t1 := none, t2 := none, t3 := none, syncSeq := none }
      ({ (s1.put R.TIME_PTP_STAT_STATE 1) with time := { s.time with ptp := p } } : State)

/-- Both stamps of a Sync are known: the module asks for the delay. -/
def State.ptpAsk (s : State) : State :=
  if s.time.ptp.t1.isSome && s.time.ptp.t2.isSome then
    let n := (s.time.ptp.delaySeq + 1) % 65536
    ({ s with time := { s.time with ptp := { s.time.ptp with delaySeq := n, t3 := none } } } : State).emit (.ptpDelayReq n)
  else s

/-- The four stamps of a request–response exchange give offset and path delay (R604). -/
def State.ptpMeasure (s : State) (t1 t2 t3 t4 : Nat) : State :=
  let q : Int := (((t1 : Int) - t2) + ((t4 : Int) - t3)) * 32768
  let d := (Int.fdiv (((t2 : Int) - t1) + ((t4 : Int) - t3)) 2).toNat
  let p : PtpState := { s.time.ptp with t1 := none, t2 := none, t3 := none, pathDelay := d }
  let s1 : State := { s with time := { s.time with ptp := p } }
  let s2 := ((s1.put R.TIME_PTP_STAT_STATE 2).put R.TIME_PTP_STAT_DELAY (Word.satU 24 d)).putI R.TIME_PTP_OFFSET (Int.fdiv q 65536)
  if s2.srcChosen = 1 then s2.timeMeasure 1 q false else s2

/-- A PTP message (R473, R476): messages of another domain or another master are not used. -/
def State.ptpTake (s : State) (m : PtpMsg) : State :=
  let dom := s.get R.TIME_PTP_DOMAIN
  let p := s.time.ptp
  match m with
  | .announce master ranking d =>
    if d ≠ dom then s
    else
      let l := (master, ranking) :: p.masters.filter (fun x => x.1 ≠ master)
      (({ s with time := { s.time with ptp := { p with masters := l } } } : State).ptpChoose)
  | .sync master seq twoStep origin stamp d =>
    if d ≠ dom ∨ p.master ≠ some master then s
    else
      let q : PtpState := { p with t2 := some stamp, t1 := if twoStep then none else some origin, syncSeq := some seq }
      let s1 : State := { s with time := { s.time with ptp := q } }
      let s2 := if s1.srcChosen = 1 then (s1.srcEffect 1).setHops else s1
      s2.ptpAsk
  | .followUp master seq origin d =>
    if d ≠ dom ∨ p.master ≠ some master ∨ p.syncSeq ≠ some seq ∨ p.t1.isSome = true then s
    else (({ s with time := { s.time with ptp := { p with t1 := some origin } } } : State).ptpAsk)
  | .delayReqSent stamp => ({ s with time := { s.time with ptp := { p with t3 := some stamp } } })
  | .delayResp master seq received d =>
    if d ≠ dom ∨ p.master ≠ some master ∨ seq ≠ p.delaySeq then s
    else
      match p.t1, p.t2, p.t3 with
      | some t1, some t2, some t3 => (s.ptpMeasure t1 t2 t3 received)
      | _, _, _ => s
  | .other => s

/-- PTP_MESSAGE (R476): one that arrives on Ethernet port `port`, over IPv6 or IPv4; only those of TIME_PTP.PORT over the IP it names are used. -/
def execPtpMessage (port : Nat) (v6 : Bool) (m : PtpMsg) (s : State) : Out :=
  .next (if port = s.get R.TIME_PTP_PORT ∧ v6 = s.flag R.TIME_PTP_IPV6 then (s.ptpTake m).statusNow else s)

/-- PTP_ANNOUNCE_TIMEOUT (R476): the chosen master is dropped and the next best one chosen. -/
def execPtpAnnounceTimeout (s : State) : Out :=
  match s.time.ptp.master with
  | none => .next s
  | some m =>
    let p : PtpState := { s.time.ptp with masters := s.time.ptp.masters.filter (fun x => x.1 ≠ m) }
    .next (({ s with time := { s.time with ptp := p } } : State).ptpChoose).statusNow

/-- Holdover at the last RATE (R473, R474); a pending step stays (R481). -/
def State.holdover (s : State) : State :=
  let eff := s.get R.TIME_STAT_SRC_EFF
  if eff = 0 then s
  else
    let s1 := (s.put R.TIME_STAT_SRC_EFF 0).put R.TIME_STAT_HOLDOVER 1
    let s2 : State := { s1 with time := { s1.time with lastSrc := eff, run := 0 } }
    (s2.setLocked false).setHops

/-- SOURCE_TIMEOUT. -/
def execSourceTimeout (s : State) : Out := .next s.holdover.statusNow

/-! ### Commands on a pending step (R482) -/

/-- TIME_CMD_ACCEPT. -/
def execTimeCmdAccept (r : Req) (key : Nat) (s : State) : Out :=
  .next (s.keyed R.TIME_CMD.base r key 0x71AE (key * 65536 + 1) (fun t =>
    match t.time.pend with
    | none => t
    | some p => (((t.setStep none).timeStep p.step).lockRun false).statusNow))

/-- One part per million in units of 2⁻⁴⁸. -/
def ppmUnit : Int := 281474976

/-- TIME_CMD_SLEW: PPM from 1 to 100, shrunk to the room left; within 1 ppm of the limit it is ignored and recorded. -/
def execTimeCmdSlew (r : Req) (key : Nat) (s : State) : Out :=
  .next (s.keyed R.TIME_CMD.base r key 0x71AE (key * 65536 + 2) (fun t =>
    match t.time.pend with
    | none => t
    | some p =>
      let room : Int := if 0 < p.step then rateLimit - t.time.rate else rateLimit + t.time.rate
      if room ≤ ppmUnit then t.ignored R.TIME_CMD.base (key * 65536 + 2) r
      else
        let want : Int := Int.fdiv ((Word.clamp 1 100 (t.get R.TIME_SLEW) : Int) * 2 ^ 48) 1000000
        let k := min want room
        let t1 := (t.setStep none).timeAnchor
        ({ t1 with time := { t1.time with slew := if 0 < p.step then k else -k } } : State).put R.TIME_STAT_SLEWING 1))

/-- TIME_CMD_DISCARD: the step is dropped and the source resumes. -/
def execTimeCmdDiscard (r : Req) (key : Nat) (s : State) : Out :=
  .next (s.keyed R.TIME_CMD.base r key 0x71AE (key * 65536 + 4) (fun t =>
    match t.time.pend with
    | none => t
    | some _ => t.setStep none))

/-- SLEW_DONE (R482): the rate returns to the source's. -/
def execSlewDone (s : State) : Out :=
  if s.flag R.TIME_STAT_SLEWING then
    let s1 := s.timeAnchor
    let s2 : State := { s1 with time := { s1.time with slew := 0 } }
    .next ((s2.put R.TIME_STAT_SLEWING 0).raise .time 2)
  else .next s

/-! ### Pulse per second, the launch queue, the TCXO -/

/-- PPS_OUT_EDGE (R486): only with PPS_OUT_EN, and with LOCKED or PPS_FREE. -/
def execPpsOutEdge (s : State) : Out :=
  if s.flag R.TIME_CTRL_PPS_OUT_EN && (s.flag R.TIME_STAT_LOCKED || s.flag R.TIME_CTRL_PPS_FREE) && s.pins.ppsEn then
    .next (({ s with pins := { s.pins with ppsOut := true } } : State).emit (.pps (Word.clamp 1 900 (s.get R.TIME_PPS))))
  else .next s

/-- PPS_IN_EDGE (R486): an edge within 100 ms of the last stamped one is ignored. -/
def execPpsInEdge (s : State) : Out :=
  let near := match s.time.ppsInLast with
    | some t => decide (s.time.raw ≤ t + 100000000)
    | none => false
  if near then .next s
  else
    let s1 : State := { s with time := { s.time with ppsInLast := some s.time.raw } }
    .next ((s1.put R.TIME_PPS_CAP s.now).raise .time 4)

/-- Inserts an instant into an ascending list, equal ones merging. -/
def launchInsert (t : Nat) : List Nat → List Nat
  | [] => [t]
  | u :: us => if t < u then t :: u :: us else if t = u then u :: us else u :: launchInsert t us

/-- A write to TIME_LAUNCH (R487, R489). -/
def execTimeLaunchWrite (r : Req) (short : Nat) (s : State) : Out :=
  if s.isMirror then .next (s.mirrorDrop R.TIME_LAUNCH.base r.code (short % 2 ^ 32))
  else
    let t := s.extend short
    if s.time.launches.contains t then .next s
    else if 8 ≤ s.time.launches.length then .next (s.raise .time 7)
    else .next (s.setLaunches (launchInsert t s.time.launches))

/-- A write to TIME_LAUNCH_CTRL (R487, R489): bit 0 empties the queue. -/
def execTimeLaunchFlush (r : Req) (data : Nat) (s : State) : Out :=
  if s.isMirror then .next (s.mirrorDrop R.TIME_LAUNCH_CTRL.base r.code data)
  else if data.testBit 0 then .next (s.setLaunches []) else .next s

/-- TCXO_TRIM (R562): at most 0.01 ppm towards the table's value. -/
def execTcxoTrim (table : Int) (s : State) : Out :=
  let cur := s.getI R.THM_TCXO
  .next (s.putI R.THM_TCXO (cur + Word.clampI (-10) 10 (table - cur)))

end Sys2Proof.Machine
end

