-- ==== Sys2Proof/Machine/Pair.lean ====
section
/-!
DEFINITION. Pairs: letters and roles, the pair link, fitness, taking and handing over the drive, divergence (spec/15, R438 to R465;
R489, R518, R519).
-/

namespace Sys2Proof.Machine

open Sys2Proof

/-! ### Fitness (R453) -/

/-- Whether the lanes serve a subframe rate of num/den Hz with a lens layout (R22, R398): no FAILED group, a slowest group fast enough
(60, 120, 240 Hz at DPL1, 2, 3), lens groups ACTIVE unless FLAT. -/
def State.lanesServe (s : State) (num den layout : Nat) : Bool :=
  let g := s.get R.LANE_PANEL_SLOWEST
  decide (1 ≤ g) && decide (s.get R.LANE_PANEL_FAILED = 0) && decide (num ≤ 60 * 2 ^ (g - 1) * den) &&
    (decide (layout = 2) || s.flag R.LANE_PANEL_LENS_OK)

/-- The condition of fitness bit LANES. -/
def State.fitLanes (s : State) : Bool :=
  s.groupsInUse.all (fun g => s.groupStage g = 5) && s.lanesServe s.pseq.rateNum s.pseq.rateDen (s.get R.PSEQ_MODE_LAYOUT)

/-- Brings the bits that follow from other blocks up to date: LINK, LANES, RAILS, HEALTH. -/
def State.fitNow (s : State) : State :=
  (((s.setFit 0 s.pairUp).setFit 4 s.fitLanes).setFit 5 (s.get R.RAIL_STAT_STATE = 3)).setFit 7
    (!s.anyFrozen && !s.flag R.FAB_STAT_SPARES_OUT && decide (s.thm.step = 0))

/-- The module comes into or out of step (R448, R449). -/
def State.outOfStep (s : State) : State :=
  let s1 := (s.put R.PAIR_STAT_OUT_OF_STEP 1).setFit 3 false
  { s1 with pair := { s1.pair with stepFrames := 0 } }

/-! ### Letters and roles (R438 to R442) -/

/-- The letter of Table 15.1: strap roles 1 A, 2 B, 3 auto; answers the letter and whether the straps conflict. -/
def letterOf (own peer : Nat) (ownSerial peerSerial : Nat) : Nat × Bool :=
  let byserial := if ownSerial < peerSerial then 1 else 2
  if own = 0 then (0, false)
  else if own = 3 ∧ peer = 3 then (byserial, false)
  else if own = 3 then (if peer = 1 then 2 else 1, false)
  else if own = peer then (byserial, true)
  else (own, false)

/-- PAIR_HELLO (R438): the letter settles; a conflict of straps is flagged, alerted and recorded. -/
def execPairHello (role serial : Nat) (s : State) : Out :=
  let own := s.get R.RST_STRAP_ROLE
  if own = 0 then .next s
  else
    let (l, bad) := letterOf own role (s.nv.serial % 2 ^ 40) (serial % 2 ^ 40)
    let s1 := (s.put R.PAIR_PEER (serial % 2 ^ 40)).put R.PAIR_STAT_LETTER l
    let s2 := if s.get R.PAIR_STAT_LETTER = l then s1 else s1.helloAll
    let s3 := if s2.get R.PAIR_STAT_STATE = 0 then s2.put R.PAIR_STAT_STATE 1 else s2
    .next (if bad then (s3.alert).raiseRec .pair 6 else s3)

/-- The module claims the drive without a partner that holds it. -/
def State.claimDrive (s : State) (state : Nat) : State :=
  let s1 := (s.put R.PAIR_STAT_STATE state).put R.PAIR_STAT_DRIVE 1
  s1.sendClaim

/-- ROLE_SETTLE (R440): ACTIVE, MIRROR, SOLO or DETACHED, from the link, the letter, the partner's state and the panel's port status.
A state once settled is not settled again. -/
def execRoleSettle (otherHolds : Bool) (port : Nat) (s : State) : Out :=
  if 2 ≤ s.get R.PAIR_STAT_STATE then .next s
  else
    let s1 := s.put R.PAIR_STAT_PORT port
    if s.pairUp then
      if otherHolds || decide (s.pair.peerState = 2) || decide (s.pair.peerState = 4) || decide (s.get R.PAIR_STAT_LETTER = 2) then
        .next s1.becomeMirror
      else .next ((s1.becomeActive).sendClaim)
    else if otherHolds then .next ((s1.put R.PAIR_STAT_STATE 5).put R.PAIR_STAT_DRIVE 0)
    else .next (s1.claimDrive 4)

/-- The rails of a module that lost the drive go to the standby level (R373). -/
def State.railYield (s : State) : State :=
  if s.get R.RAIL_STAT_STATE = 2 then
    let s1 := ((s.put R.RAIL_STAT_STATE 3).put R.RAIL_STAT_DRIVE 0).put R.RAIL_STAT_VCOM_SW 0
    { s1 with rail := { s1.rail with standby := true } }
  else s

/-- The set points of a claiming module rise to nominal (R373). -/
def State.railRise (s : State) : State :=
  if s.get R.RAIL_STAT_STATE = 3 then
    let s1 := (s.put R.RAIL_STAT_STATE 2).put R.RAIL_STAT_DRIVE 1
    { s1 with rail := { s1.rail with standby := false, transferDue := true } }
  else s

/-- A module that no longer is MIRROR takes its time from its own source again (Table 16.2). -/
def State.timeRole (s : State) : State :=
  if s.get R.TIME_STAT_SRC_EFF = 4 ∧ s.isMirror = false then
    ((s.srcChange (if s.srcChosen = 3 then 3 else 0)).arraySource).setHops
  else s

/-- DRIVE_GRANT_REPORT (R442, R455): the module that lost the port switch becomes MIRROR, or DETACHED without the link. -/
def execDriveGrantReport (own : Bool) (s : State) : Out :=
  if own then .next s
  else if s.flag R.PAIR_STAT_DRIVE then
    let s1 := s.railYield
    let s2 := if s1.pair.handover.isSome then s1.bump R.PAIR_COUNT_HANDOVERS else s1
    let s3 : State := { s2 with pair := { s2.pair with handover := none } }
    let s4 := if s3.pairUp then s3.becomeMirror else (s3.put R.PAIR_STAT_STATE 5).put R.PAIR_STAT_DRIVE 0
    let s5 := s4.raiseRec .pair 1
    .next (s5.cmdEndIf 8 1 0 [s5.get R.PAIR_STAT])
  else .next s

/-! ### The link (R444, R445) -/

/-- A sequenced packet has arrived in order. -/
def State.rxNext (s : State) : State := { s with pair := { s.pair with rxSeq := (s.pair.rxSeq + 1) % 2 ^ 32 } }

/-- HEARTBEAT_SEND (R445): every 25 µs while the link is ACTIVE. -/
def execHeartbeatSend (s : State) : Out :=
  let s1 := s.fitNow
  .next (s1.sendPair (.heartbeat s1.now s1.sf (s1.get R.PAIR_STAT_STATE) (s1.get R.PAIR_FIT_FIT) s1.pair.lastCause))

/-- HEARTBEAT (R445): the partner's state and fitness. An ACTIVE whose partner has become MIRROR owes it a snapshot (R452, R456), and
the whole state when the MIRROR has fallen out of step (R449). -/
def execHeartbeat (_time _sf : Nat) (state fit _cause : Nat) (s : State) : Out :=
  if s.pairUp = false then .next s
  else
    let was := s.get R.PAIR_FIT_PEER_FIT
    let s1 := (s.put R.PAIR_FIT_PEER_FIT fit).put R.PAIR_STAT_PARTNER_LOST 0
    let s2 := s1.raiseIf (was ≠ fit % 256) .pair 7
    let joins := s2.isActive && decide (state = 3) && decide (s.pair.peerState ≠ 3)
    let out := s2.isActive && was.testBit 3 && !fit.testBit 3
    .next { s2 with pair := { s2.pair with
      peerState := state
      snapshotDue := s2.pair.snapshotDue || joins
      wholeDue := s2.pair.wholeDue || out } }

/-- PAIR_ACK_SEND (R444): the highest SEQ received in order. -/
def execPairAckSend (s : State) : Out := .next (s.sendPair (.ack s.pair.rxSeq))

/-- PAIR_ACK (R444, R469, R578): on the pair link (`link` none) or an array port, acknowledged packets are done; TEPH_MIRROR.ACKED follows the
entries among them. -/
def execPairAck (link : Option Nat) (seq : Nat) (s : State) : Out :=
  match link with
  | some a => .next (if a < 4 then s.arrayAcked a seq else s)
  | none =>
  let done := s.pair.unacked.filter (fun x => Word.reached seq x.seq)
  let rest := s.pair.unacked.filter (fun x => !Word.reached seq x.seq)
  let s1 : State := { s with pair := { s.pair with unacked := rest, resends := if done.isEmpty then s.pair.resends else 0 } }
  .next (done.foldl (fun t x => match x.msg with
    | .tephra e => t.put R.TEPH_MIRROR e.seq
    | _ => t) s1)

/-- PAIR_RESEND_TIMEOUT (R444, R469): from the first unacknowledged packet on; eight rounds without success lose the link. -/
def execPairResendTimeout (link : Option Nat) (s : State) : Out :=
  match link with
  | some a => .next (if a < 4 then s.arrayResend a else s)
  | none =>
  if s.pair.unacked.isEmpty || !s.pairUp then .next s
  else if 8 ≤ s.pair.resends then .next (s.linkLost 22)
  else
    let s1 := s.bump R.PAIR_LINK_RESENDS
    let s2 : State := { s1 with pair := { s1.pair with resends := s1.pair.resends + 1 } }
    .next (s2.pair.unacked.foldl State.resendPair s2)

/-! ### Taking the drive (R454 to R458) -/

/-- A trigger (R454): acts only with fitness bit LANES, and not after a panel fault (R379) nor in a module whose baseline could not be placed
(Table 2.5); the claim waits for the next launch at
least 2 µs later, or for the subframe a handover names. A running divergence test is abandoned (R457). -/
def State.takeDrive (s0 : State) (cause failCause : Nat) (target : Option Nat) : State :=
  let s := s0.fitNow
  if s.pair.claim.isSome || s.pair.panelFault || s.rst.placeFail then s
  else if (s.get R.PAIR_FIT_FIT).testBit 4 = false then s.raiseRec .pair 4
  else
    let c : Claim := ⟨cause, failCause, s.get R.PAIR_FIT_FIT, s.now + 2000, target⟩
    let s1 : State := { s with pair := { s.pair with claim := some c, testPending := false, ownKat := none, peerKat := none } }
    s1.sendClaim.railRise

/-- Whether triggers 2 and 3 act: on a MIRROR and on a DETACHED module. -/
def State.mayTake (s : State) : Bool := s.isMirror || decide (s.get R.PAIR_STAT_STATE = 5)

/-- HEARTBEAT_MISS (R454): HB_MISS intervals have passed. -/
def execHeartbeatMiss (s : State) : Out :=
  if s.inPair then
    let s1 := (s.bumpBy R.PAIR_LINK_HB_MISSED (max 2 (s.get R.PAIR_CTRL_HB_MISS))).put R.PAIR_STAT_PARTNER_LOST 1
    let s2 := s1.raise .pair 2
    .next (if s2.isMirror then s2.takeDrive 1 0 none else s2)
  else .next s

/-- NOTICE_FAIL (R454): trigger 2; a rail fault of the partner is remembered (R374). -/
def execNoticeFail (cause : NoticeCause) (s : State) : Out :=
  let s1 := s.rxNext
  if s1.mayTake then
    let s2 : State := match cause with
      | .railFault c => { s1 with rail := { s1.rail with partnerFault := some (c, s1.time.raw) } }
      | _ => s1
    .next (s2.takeDrive 2 (causeCode cause) none)
  else .next s1

/-- NOTICE_HANDOVER (R458, R462): the MIRROR claims for the subframe named. -/
def execNoticeHandover (cause : NoticeCause) (sf : Nat) (s : State) : Out :=
  let s1 := s.rxNext
  if s1.isMirror then .next (s1.takeDrive (if cause = .divergence then 5 else 4) (causeCode cause) (some sf)) else .next s1

/-- NOTICE_PANEL_FAULT (R379, R457): neither module claims, and both end LOCKED_OFF. -/
def execNoticePanelFault (_cause : NoticeCause) (s : State) : Out :=
  let s1 := s.rxNext
  .next (({ s1 with pair := { s1.pair with panelFault := true, claim := none } } : State).railOff true)

/-- NOTICE_MIRROR_DOWN (R453): the ACTIVE records it and carries on. -/
def execNoticeMirrorDown (_cause : NoticeCause) (s : State) : Out :=
  let s1 := s.rxNext
  .next (if s1.isActive then s1.recOther R.PAIR_FIT.base else s1)

/-- PANEL_PORT_LOST_REPORT (R454): trigger 3. -/
def execPanelPortLostReport (s : State) : Out :=
  .next (if s.mayTake then s.takeDrive 3 0 none else s)

/-- A claim reaches the panel at the launch of subframe `sf` (R455, R456): the module drives, writes in full, and records it. -/
def State.claimLaunch (s : State) (c : Claim) (sf : Nat) : State :=
  let s1 := if s.pairUp then s.becomeActive else (s.put R.PAIR_STAT_STATE 4).put R.PAIR_STAT_DRIVE 1
  let s2 := (((s1.put R.PAIR_LAST_CAUSE c.cause).put R.PAIR_LAST_FAIL_CAUSE c.failCause).put R.PAIR_LAST_FIT c.fit).put R.PAIR_LAST_SF sf
  let s3 := (if c.cause = 4 ∨ c.cause = 5 then s2.bump R.PAIR_COUNT_HANDOVERS else s2.bump R.PAIR_COUNT_TAKEOVERS).put
    R.RAIL_STAT_VCOM_SW 1
  let s4 := (s3.raise .pair 0).offer 18 2 4 0x400 (s3.word R.PAIR_LAST.base).toNat (s3.word R.PAIR_FIT.base).toNat (.link none)
  ({ s4 with
    pair := { s4.pair with claim := none }
    pseq := { s4.pseq with fullDue := true } } : State).timeRole

/-- The claim, if its launch has come. -/
def State.claimDue (s : State) (at_ : Int) (sf : Nat) : Option Claim :=
  s.pair.claim.filter (fun c => match c.targetSf with
    | some t => Word.reached sf t
    | none => decide ((c.notBefore : Int) ≤ at_))

/-- LEAD_US in ns, values below 20 acting as 20. -/
def State.leadNs (s : State) : Nat := 1000 * max 20 (s.get R.PAIR_CTRL_LEAD_US)

/-- The sequence number of the subframe launched at the first grid point at or after `t`. -/
def State.sfAt (s : State) (t : Int) : Nat := s.sf + 1 + (s.gridFrom t 1 - s.pseq.next)

/-- Hands the drive over (R458): refused while the MIRROR is not fit; answers whether it began. -/
def State.handOver (s : State) (cause : NoticeCause) (entry : Option Nat) : State × Bool :=
  if s.get R.PAIR_FIT_PEER_FIT = 0xFF then
    let target := s.sfAt ((s.now : Int) + s.leadNs)
    let s1 : State := { s with pair := { s.pair with handover := some target } }
    (s1.sendNotice .handover cause target entry, true)
  else (s.raise .pair 5, false)

/-- PAIR_CMD_HANDOVER (R458): ignored except on the ACTIVE. -/
def execPairCmdHandover (r : Req) (key : Nat) (s : State) : Out :=
  .next (s.keyed R.PAIR_CMD.base r key 0x9A1E (key * 65536 + 1) (fun t => if t.isActive then (t.handOver .handover none).1 else t))

/-- PAIR_CMD_RESYNC (R452): ignored except on the ACTIVE. -/
def execPairCmdResync (r : Req) (key : Nat) (s : State) : Out :=
  .next (s.keyed R.PAIR_CMD.base r key 0x9A1E (key * 65536 + 2) (fun t =>
    if t.isActive then { (t.put R.PAIR_STAT_RESYNC 1) with pair := { t.pair with snapshotDue := true } } else t))

/-! ### Deltas, snapshots, anchors, mailboxes -/

/-- DELTA (R449): held for its commit; one that fails under R255, or finds both codec engines disabled (R256), leaves the MIRROR on its previous
decisions and out of step. -/
def execDelta (d : DeltaMsg) (s : State) : Out :=
  let s1 := s.rxNext
  if s1.isMirror = false then .next s1
  else if s1.get R.LZC_CTRL = 0 then .next s1.outOfStep
  else if d.okR255 then .next (({ s1 with pair := { s1.pair with delta := some d } } : State).deltaJob 1 true)
  else .next (s1.outOfStep.deltaJob 1 false)

/-- SNAPSHOT (R452, R453): held for the first commit after it has arrived; the digest of the ACTIVE's active slot settles bit PERS. -/
def execSnapshot (d : SnapshotMsg) (digest : List Byte) (s : State) : Out :=
  let s1 := s.rxNext
  if s1.isMirror = false then .next s1
  else
    let own := (s1.pers.digest.find? (fun x => x.1 = s1.activeSlot)).map (·.2)
    let s2 := s1.setFit 2 (s1.flag R.PERS_STATE_ACTIVE_VALID && decide (own = some digest))
    .next { s2 with pair := { s2.pair with snapshot := some d } }

/-- LAUNCH_PACKET (R489): the MIRROR's sequencer takes the anchor at the same launch. -/
def execLaunchPacket (anchor : Nat) (s : State) : Out :=
  let s1 := s.rxNext
  .next (if s1.isMirror then { s1 with pseq := { s1.pseq with start := some anchor } } else s1)

/-- MAILBOX_PACKET (R518, R519): a post arrives at inbound mailbox 20 + i, or a return code at outbound mailbox 16 + i. A repeated SEQ is
not posted again: the code given last is repeated. -/
def execMailboxPacket (i : Nat) (word : Word) (ack : Bool) (ret seq : Nat) (s : State) : Out :=
  let s1 := s.rxNext
  if 4 ≤ i then .next s1
  else if ack then
    .next (if s1.flag R.CARE_MBX_STAT_FULL (16 + i) && decide (s1.get R.CARE_MBX_STAT_SEQ (16 + i) = seq % 2) then
      s1.mbxDone (16 + i) ret else s1)
  else
    let m := 20 + i
    match s1.care.inbound.find? (fun x => x.1 = m) with
    | some (_, q, last) =>
      if q = seq % 2 then
        .next (if s1.flag R.CARE_MBX_STAT_FULL m then s1 else s1.sendPair (.mailbox (16 + i) 0 true last q))
      else
        let t : State := { s1 with care := { s1.care with inbound := (m, seq % 2, 0) :: s1.care.inbound.filter (·.1 ≠ m) } }
        .next ((t.put R.CARE_MBX_STAT_SEQ seq m).mbxPost m word.toNat)
    | none =>
      let t : State := { s1 with care := { s1.care with inbound := (m, seq % 2, 0) :: s1.care.inbound } }
      .next ((t.put R.CARE_MBX_STAT_SEQ seq m).mbxPost m word.toNat)

/-! ### Divergence (R459 to R462) -/

/-- The bands of two signature sets that differ and that neither module excuses. -/
def mismatches (a b : SigSet) : List Nat :=
  (List.range (max a.sigs.length b.sigs.length)).filter (fun k =>
    decide (a.sigs.getD k 0 ≠ b.sigs.getD k 0) && !a.excused.getD k false && !b.excused.getD k false)

/-- Compares the two sets of a subframe once both are here (R461). -/
def State.sigCompare (s : State) (sf : Nat) : State :=
  match s.pair.own.find? (fun x => x.sf = sf), s.pair.peer.find? (fun x => x.sf = sf) with
  | some a, some b =>
    let bad := mismatches a b
    let s0 : State := { s with pair := { s.pair with
      own := s.pair.own.filter (fun x => x.sf ≠ sf), peer := s.pair.peer.filter (fun x => x.sf ≠ sf) } }
    if bad.isEmpty then
      let n := min 2 (s0.pair.matchRun + 1)
      let s1 : State := { s0 with pair := { s0.pair with mismatchRun := 0, matchRun := n, mapped := [] } }
      if n = 2 then s1.setFit 6 true else s1
    else
      let s1 := (s0.bump R.PAIR_DIV_MISMATCH).setFit 6 false
      let tiles := bad.foldl (fun l k => l ++ (a.tiles.getD k []).filter (fun n => !l.contains n)) s1.pair.mapped
      let run := s1.pair.mismatchRun + 1
      { s1 with pair := { s1.pair with
        mismatchRun := run
        matchRun := 0
        mapped := tiles
        divBands := bad.length
        testPending := s1.pair.testPending || decide (max 1 (s1.get R.PAIR_CTRL_DIV_PERSIST) ≤ run) } }
  | _, _ => s

/-- This module's set of a subframe is complete (R460): sent, its excused bands counted, compared. -/
def State.sigSend (s : State) (x : SigSet) : State :=
  if s.inPair then
    let s1 := s.bumpBy R.PAIR_EXCUSED (x.excused.filter id).length
    let s2 : State := { s1 with pair := { s1.pair with own := (s1.pair.own ++ [x]).drop (s1.pair.own.length - 3) } }
    (s2.sendPair (.signatures x.sf x.sigs x.excused)).sigCompare x.sf
  else s

/-- SIGNATURES (R461). -/
def execSignatures (sf : Nat) (sigs : List Nat) (excused : List Bool) (s : State) : Out :=
  let s1 := s.rxNext
  if s1.inPair then
    let l := s1.pair.peer.filter (fun x => x.sf ≠ sf)
    .next (({ s1 with pair := { s1.pair with peer := (l ++ [SigSet.mk sf sigs excused []]).drop (l.length - 3) } } : State).sigCompare sf)
  else .next s1

/-- The outcome of a test once both results are here (R462, Table 15.5): failed tiles count as uncorrectable errors, in ascending number
(R157). -/
def State.divergeEnd (s : State) : State :=
  match s.pair.ownKat, s.pair.peerKat with
  | some (_, mine), some (_, theirs) =>
    let own := !mine.isEmpty
    let peer := !theirs.isEmpty
    let (act, mir) := if s.isActive then (own, peer) else (peer, own)
    let row := if act && !mir then 1 else if !act && mir then 2 else if act then 3 else 4
    let id := s.teph.nextId
    let s1 := (s.raise .pair 3).offer 18 2 4 0x402 s.pair.divBands row (.link none)
    let s2 : State := { s1 with pair := { s1.pair with ownKat := none, peerKat := none, mapped := [], mismatchRun := 0 } }
    let s3 := ((List.range 400).filter (fun n => mine.contains n)).foldl (fun t n => t.tileUncorr n false) s2
    if row = 1 ∧ s3.isActive = true then (s3.handOver .divergence (some id)).1
    else if row = 2 ∧ s3.isMirror = true then
      ({ s3 with pair := { s3.pair with matchRun := 0 } } : State).setFit 6 false
    else if row = 4 then
      let s4 := s3.bump R.PAIR_DIV_UNRESOLVED
      if s4.isActive then { (s4.put R.PAIR_STAT_RESYNC 1) with pair := { s4.pair with snapshotDue := true } } else s4
    else s3
  | _, _ => s

/-- DIVERGENCE_KAT (R461): in the next blanking interval every active tile in the maps is tested; the result is sent. -/
def execDivergenceKat (failed : List Nat) (s : State) : Out :=
  if s.pair.testPending then
    let tested := s.pair.mapped.filter (fun n => s.tileState n = 1)
    let bad := tested.filter (fun n => failed.contains n)
    let s1 : State := { s with pair := { s.pair with testPending := false, ownKat := some (tested, bad) } }
    .next (s1.sendPair (.katResult tested bad)).divergeEnd
  else .next s

/-- KAT_RESULT (R462). -/
def execKatResult (tested failed : List Nat) (s : State) : Out :=
  let s1 := s.rxNext
  if s1.inPair then .next (({ s1 with pair := { s1.pair with peerKat := some (tested, failed) } } : State).divergeEnd) else .next s1

/-! ### Activation requests (R116, R117, R124, R447) -/

/-- The sequence number of the first light-field frame boundary launched at or after `t`. -/
def State.frameSfAt (s : State) (t : Int) : Nat := s.sf + 1 + (s.gridFrom t (max 1 s.pseq.phases) - s.pseq.next)

/-- The digest recorded for a slot. -/
def State.slotDigest (s : State) (slot : Nat) : List Byte := ((s.pers.digest.find? (fun x => x.1 = slot)).map (·.2)).getD []

/-- A write of PERS_ACT: `value` as written, `at_` the instant of an at-time request, none for the next frame. On the ACTIVE it is
forwarded with its target point and the slot's digest; on the MIRROR it is dropped. -/
def State.actBy (s : State) (r : Req) (value slot : Nat) (at_ : Option Nat) : State :=
  if 8 ≤ slot then s
  else if r ≠ .partner ∧ s.isMirror = true then s.mirrorDrop R.PERS_ACT.base r.code value
  else if s.isActive then
    let target := s.frameSfAt ((s.now : Int) + s.leadNs)
    let msg : PairMsg := match at_ with
      | some t => .strobe (BitVec.ofNat 32 value) true t (s.slotDigest slot) true
      | none => .strobe (BitVec.ofNat 32 value) false target (s.slotDigest slot) true
    (s.actRequest slot at_ (if at_.isSome then none else some target)).sendPair msg
  else s.actRequest slot at_ none

/-- The automatic choice of R124 activates as PERS_ACT with next-frame timing would, in a pair at the target both modules share. The MIRROR
takes the activation the ACTIVE forwards. -/
def State.actAuto (s : State) (slot : Nat) : State := if s.isMirror then s else s.actBy .caretaker slot slot none

end Sys2Proof.Machine
end

