-- ==== Sys2Proof/Machine/View.lean ====
section
/-!
DEFINITION. View synthesis (spec/06, spec/01): modes and their check, application at a boundary, the lane fallback, the depth
table, cold views, ray addressing, and the write of VIEW_CTRL.
-/

namespace Sys2Proof.Machine

open Sys2Proof

/-! ### Mode words (VIEW_MODE) -/

/-- The fields of a mode word: LAYOUT, TEMPORAL, FAMILY, FLAT_MULT, PROFILE. -/
def mLayout (m : Nat) : Nat := m % 4
def mTemporal (m : Nat) : Nat := m / 4 % 4
def mFamily (m : Nat) : Nat := m / 16 % 4
def mMult (m : Nat) : Nat := m / 64 % 4
def mProfile (m : Nat) : Nat := m / 256 % 4

/-- A mode word of its fields. -/
def modeWord (layout temporal family mult profile : Nat) : Nat := layout + 4 * temporal + 16 * family + 64 * mult + 256 * profile

/-- Steering phases of a mode (Table 1.2). -/
def modePhases (m : Nat) : Nat := if mLayout m = 2 then 1 else if mTemporal m = 1 then 2 else 4

/-- The base rate of a family in Hz, as a fraction. -/
def familyRate (f : Nat) : Nat × Nat := if f = 0 then (48, 1) else if f = 1 then (50, 1) else if f = 2 then (60000, 1001) else (60, 1)

/-- The subframe rate of a mode (R13, R322): four times the base rate with a lens, FLAT at base × 1, 2 or 4. -/
def modeRate (m : Nat) : Nat × Nat :=
  let b := familyRate (mFamily m)
  (b.1 * (if mLayout m = 2 then 2 ^ mMult m else 4), b.2)

/-- Whether the encoding is valid (R198, reason 1). -/
def modeEncodes (m : Nat) : Bool :=
  decide (mLayout m ≠ 3) && decide (mTemporal m ≠ 3) && decide (mMult m ≠ 3) && decide (mProfile m ≠ 3) &&
    (if mLayout m = 2 then decide (mTemporal m = 0) else decide (mMult m = 0))

/-- Views of a mode (Table 6.2), and those of a cold band (R176). -/
def modeViews (m : Nat) (cold : Bool) : Nat × Nat :=
  if mLayout m = 0 then (if cold then (16, 16) else if mTemporal m = 1 then (32, 16) else (32, 32))
  else if mLayout m = 1 then (if cold then (24, 1) else if mTemporal m = 1 then (48, 1) else (96, 1))
  else (1, 1)

/-- The bit of MODES that serves a mode (Table 4.1). -/
def modeBit (m : Nat) : Nat := if mLayout m = 2 then 6 else 3 * mLayout m + mTemporal m

/-- Whether the personality in a slot serves a mode (R21). -/
def State.slotServes (s : State) (slot m : Nat) : Bool :=
  (s.get R.PERS_SLOT_COVER_MODES slot).testBit (modeBit m) && (s.get R.PERS_SLOT_COVER_PROFILES slot).testBit (mProfile m) &&
    (s.get R.PERS_SLOT_COVER_RATES slot).testBit (mFamily m)

/-! ### Panel timing (R325, R328, R329) -/

/-- Lines of a subframe, VTOTAL; gate-clock cycles of a line, HTOTAL. -/
def State.vtotal (s : State) : Nat :=
  s.get R.PSEQ_VTIME2_VACT + s.get R.PSEQ_VTIME_VFP + s.get R.PSEQ_VTIME_VSYNC + s.get R.PSEQ_VTIME2_VBP
def State.htotal (s : State) : Nat :=
  s.get R.PSEQ_HTIME_HACT + s.get R.PSEQ_HTIME_HFP + s.get R.PSEQ_HTIME2_HSYNC + s.get R.PSEQ_HTIME2_HBP

/-- Whether the line time at num/den Hz reaches LINE_MIN. -/
def State.lineFits (s : State) (num den : Nat) : Bool :=
  match s.pseq.desc with
  | some d => decide (d.lineMin * num * s.vtotal ≤ 1000000000 * den)
  | none => true

/-! ### The check (R198) -/

/-- Whether the lanes and the panel serve a mode (R22, R321, R610; lens groups as R398). -/
def State.lanesFit (s : State) (m : Nat) : Bool :=
  let r := modeRate m
  let g := s.get R.LANE_PANEL_SLOWEST
  decide (1 ≤ g) && decide (r.1 ≤ 60 * 2 ^ (g - 1) * r.2) &&
    (decide (mLayout m = 2) ||
      (s.flag R.LANE_PANEL_LENS_OK && (match s.pseq.desc with | some d => d.lensCap.testBit (mLayout m) | none => false))) &&
    s.lineFits r.1 r.2

/-- The reason a requested mode is refused for under the personality of a slot, 0 for none. Every rate FAMILY and FLAT_MULT can name is in
Table 1.2, so reason 2 never arises. -/
def State.modeCheckOn (s : State) (slot : Option Nat) (m : Nat) : Nat :=
  if modeEncodes m = false then 1
  else if s.lanesFit m = false then 3
  else match slot with
    | some k => if s.slotServes k m then 0 else 4
    | none => 4

/-- The slot of the active personality, if there is one. -/
def State.activeSlot? (s : State) : Option Nat := if s.flag R.PERS_STATE_ACTIVE_VALID then some s.activeSlot else none

/-- The same under the active personality. -/
def State.modeCheck (s : State) (m : Nat) : Nat := s.modeCheckOn s.activeSlot? m

/-- A refusal (R198): VIEW_REFUSE, MODE_REFUSED and one entry with the request and the reason. -/
def State.modeRefuse (s : State) (m reason : Nat) : State :=
  let s1 := ((s.put R.VIEW_REFUSE_REQUEST m).put R.VIEW_REFUSE_REASON reason).bump R.VIEW_REFUSE_COUNT
  let s2 := s1.raise .view 0
  (s2.offer 8 1 0 0x1000 (s2.word R.VIEW_IRQ_STATUS.base).toNat (s2.word R.VIEW_REFUSE.base).toNat (.val (s2.freeNat 32))).tookFree 1

/-! ### Application -/

/-- Views in effect. -/
def State.views (s : State) : Nat × Nat := (s.get R.VIEW_MODE_EFF_VIEWS_X, s.get R.VIEW_MODE_EFF_VIEWS_Y)

/-- Sets VIEWS_X and VIEWS_Y; a change sets VIEWS_CHANGED (R176). -/
def State.setViews (s : State) (v : Nat × Nat) : State :=
  if s.views = v then s else ((s.put R.VIEW_MODE_EFF_VIEWS_X v.1).put R.VIEW_MODE_EFF_VIEWS_Y v.2).raise .view 4

/-- VIEW_LENS of a layout. -/
def State.setLens (s : State) (layout : Nat) : State :=
  let p := if layout = 0 then (48, 16, 16, 16) else if layout = 1 then (24, 1, 24, 1) else (3, 1, 1, 1)
  (((s.put R.VIEW_LENS_PITCH_COLS p.1).put R.VIEW_LENS_PITCH_ROWS p.2.1).put R.VIEW_LENS_CELLS_X p.2.2.1).put
    R.VIEW_LENS_CELLS_Y p.2.2.2

/-- A mode takes effect at the fabric's instant of a boundary (R20, R605): the sequencer takes it at the launch (R324); a change of
lens layout forces a full refresh. -/
def State.modeApply (s : State) (m : Nat) : State :=
  let old := s.get R.VIEW_MODE_EFF_MODE
  if old = m then s
  else
    let s1 := ((s.put R.VIEW_MODE_EFF_MODE m).put R.VIEW_MODE_EFF_PHASES (modePhases m)).setLens (mLayout m)
    let s2 := (s1.setViews (modeViews m (s.flag R.VIEW_MODE_EFF_STEER_OFF))).raise .view 1
    let s3 : State := { s2 with pseq := { s2.pseq with modes := some m, fullDue := s2.pseq.fullDue || decide (mLayout old ≠ mLayout m) } }
    s3.applyBudgets

/-- The pattern forced for want of a personality that serves FLAT ends (R609). -/
def State.unforce (s : State) : State := { s with lane := { s.lane with fallbackPattern := false } }

/-! ### Lane fallback (R398, R399, R609, R610) -/

/-- FLAT_MULT of a fallback by the slowest generation: × 4, × 2, × 1 at DPL3, DPL2, DPL1. -/
def fallMult (gen : Nat) : Nat := gen - 1

/-- The modes of a fallback: FLAT, ANGULAR, the FAMILY and the PROFILE kept. -/
def fallMode (m gen : Nat) : Nat := modeWord 2 0 (mFamily m) (fallMult gen) (mProfile m)

/-- Whether the lanes no longer serve the modes in effect (the cases of R398). -/
def State.lanesShort (s : State) (m : Nat) : Bool :=
  let g := s.get R.LANE_PANEL_SLOWEST
  let r := modeRate m
  decide (60 * 2 ^ (g - 1) * r.2 < r.1) || decide (s.get R.LANE_PANEL_FAILED ≠ 0) ||
    (decide (mLayout m ≠ 2) && !s.flag R.LANE_PANEL_LENS_OK)

/-- The fallback is made (R398): its modes applied as if by the stream, or the pattern shown when no personality serves them (R609). -/
def State.fallBack (s : State) : State :=
  let gen := s.get R.LANE_PANEL_SLOWEST
  let m := fallMode (s.get R.VIEW_MODE_EFF_MODE) gen
  let reason := s.modeCheck m
  let s1 := (s.put R.LANE_PANEL_FALLBACK 1).raise .lane 1
  let s2 : State := { s1 with view := { s1.view with fallGen := gen } }
  if reason = 0 then (s2.modeApply m).unforce.raise .view 1
  else if reason = 4 then ({ s2 with lane := { s2.lane with fallbackPattern := true } } : State).raise .view 1
  else s2.modeRefuse m reason

/-- Whether the partner reports every panel and lens group ACTIVE at generations that serve the modes in effect (R399): bit LANES of
PEER_FIT. -/
def State.peerLanes (s : State) : Bool := s.isActive && s.pairUp && (s.get R.PAIR_FIT_PEER_FIT).testBit 4

/-- The fallback's part of a boundary. -/
def State.fallbackStep (s : State) : State :=
  if s.get R.LANE_PANEL_SLOWEST = 0 then s
  else if s.flag R.LANE_PANEL_FALLBACK then
    let m := s.view.want
    if !s.lanesShort m && decide (s.modeCheck m = 0) then
      ((s.modeApply m).put R.LANE_PANEL_FALLBACK 0).unforce
    else if s.lane.fallbackPattern || decide (s.get R.LANE_PANEL_SLOWEST ≠ s.view.fallGen ∧ s.lanesShort (s.get R.VIEW_MODE_EFF_MODE) = true) then
      s.fallBack
    else s
  else if s.lanesShort (s.get R.VIEW_MODE_EFF_MODE) then
    if s.peerLanes then s.sendFail .groupLost none else s.fallBack
  else s

/-! ### The mode check of a boundary (R86, R196, R198, R605) -/

/-- The request at a boundary: the stream's modes with PROFILE from software while MODE_SRC is 1, else VIEW_MODE as strobed. -/
def State.modeRequest (s : State) : Option Nat :=
  let sw := s.get R.VIEW_MODE % 1024
  if s.view.ctrl.testBit 0 then
    if s.view.stream.isSome || s.view.asked then
      let low := (s.view.stream.getD s.view.want) % 256
      some (low + 256 * (if s.view.asked then mProfile sw else mProfile s.view.want))
    else none
  else if s.view.asked then some sw
  else none

/-- The mode check, and what follows it. -/
def State.modeStep (s : State) : State :=
  let s1 : State := { s with view := { s.view with stream := none, asked := false } }
  let s2 :=
    match s.modeRequest with
    | none => s1
    | some m =>
      let reason := s1.modeCheck m
      if reason = 0 then
        ({ ((s1.modeApply m).put R.LANE_PANEL_FALLBACK 0).unforce with view := { s1.view with want := m } } : State)
      else (s1.modeRefuse m reason).setWord R.VIEW_MODE.base (BitVec.ofNat 32 s1.view.want)
  s2.fallbackStep

/-! ### Cold bands (R23, R176, R337, R338) -/

/-- The lens band is latched from the band temperature when the fabric begins a light-field frame. In FLAT no lens band is
latched (R332) and steering is not off. -/
def State.lensLatch (s : State) : State :=
  let b := s.pseq.band
  let m := s.get R.VIEW_MODE_EFF_MODE
  let s1 := if mLayout m = 2 then s else s.put R.PSEQ_TEMP_BAND_LENS b
  let off := decide (mLayout m ≠ 2) && !s1.flag R.PSEQ_BAND_STEER_OK b
  if s1.flag R.VIEW_MODE_EFF_STEER_OFF = off then s1
  else
    let s2 := ((s1.putB R.VIEW_MODE_EFF_STEER_OFF off).putB R.PSEQ_MODE_STEER_OFF off).raise .pseq 1
    let s3 := (s2.setViews (modeViews m off)).raise .view 4
    s3.recIrq .view 4

/-- The phase a subframe is rendered at: its own, or COLD_PHASE, one not below the phase count acting as 0 (R338). -/
def State.renderPhase (s : State) (p : Nat) : Nat :=
  if s.flag R.VIEW_MODE_EFF_STEER_OFF then
    let c := s.get R.PSEQ_MODE_COLD_PHASE
    if c < s.get R.VIEW_MODE_EFF_PHASES then c else 0
  else p

/-! ### Depth tables (R177, R178, R197) -/

/-- Whether a depth table is valid (R178). -/
def depthValid (l : List DepthEntry) : Bool :=
  decide (l.length ≤ 64) &&
    l.all (fun e => decide (e.scale ≠ 0) && decide (1 ≤ e.w ∧ e.w ≤ 128) && decide (1 ≤ e.h ∧ e.h ≤ 128)) &&
    (l.zip l.tail).all (fun p => decide (p.1.z ≤ p.2.z)) && decide ((l.filter (·.overlay)).length ≤ 4)

/-- Entry `k` of the registers as `regs` holds them. -/
def State.depthEntry (s : State) (k : Nat) : DepthEntry :=
  ⟨s.getI R.VIEW_DEPTH_Z k, s.getI R.VIEW_DEPTH_ORG_X k, s.getI R.VIEW_DEPTH_ORG_Y k, s.get R.VIEW_DEPTH_SCALE k,
    s.get R.VIEW_DEPTH_SIZE_W k, s.get R.VIEW_DEPTH_SIZE_H k, s.flag R.VIEW_DEPTH_FLAGS_EDGE k, s.flag R.VIEW_DEPTH_FLAGS_OVERLAY k⟩

/-- The stack in effect. -/
def State.depthTable (s : State) : List DepthEntry := (List.range (min 64 (s.get R.VIEW_DEPTH_COUNT))).map s.depthEntry

/-- Whether the staged table (R81) is valid. -/
def State.stagedDepthOk (s : State) : Bool :=
  let t : State := { s with regs := s.staged }
  decide (t.get R.VIEW_DEPTH_COUNT ≤ 64) && depthValid t.depthTable

/-- Writes one entry of the registers in effect. -/
def State.putDepth (s : State) (k : Nat) (e : DepthEntry) : State :=
  ((((((((s.putI R.VIEW_DEPTH_Z e.z k).putI R.VIEW_DEPTH_ORG_X e.ox k).putI R.VIEW_DEPTH_ORG_Y e.oy k).put R.VIEW_DEPTH_SCALE e.scale k).put
    R.VIEW_DEPTH_SIZE_W e.w k).put R.VIEW_DEPTH_SIZE_H e.h k).putB R.VIEW_DEPTH_FLAGS_EDGE e.edge k).putB R.VIEW_DEPTH_FLAGS_OVERLAY
    e.overlay k)

/-- Writes the entries from index `k` on. -/
def State.putDepths (s : State) (k : Nat) : List DepthEntry → State
  | [] => s
  | e :: l => (s.putDepth k e).putDepths (k + 1) l

/-- The stream's table takes effect (R197). -/
def State.depthStream (s : State) (l : List DepthEntry) : State :=
  let gone := (List.range (s.get R.VIEW_DEPTH_COUNT)).filter (l.length ≤ ·)
  let s1 := gone.foldl (fun t k => t.putDepth k ⟨0, 0, 0, 0, 0, 0, false, false⟩) s
  (s1.putDepths 0 l).put R.VIEW_DEPTH_COUNT l.length

/-! ### Ray addressing (R170 to R175) -/

/-- The steering set of a mode word (Table 6.2). -/
def steerSet (m : Nat) : Nat := 2 * mLayout m + (if mTemporal m = 1 then 1 else 0)

/-- The view number of subpixel (column, row) at phase `p` (R172, Table 6.2). -/
def viewNumber (m c r p : Nat) : Nat :=
  if mLayout m = 0 then
    let i := c / 3 % 16
    let j := r % 16
    if mTemporal m = 1 then j * 32 + 2 * i + p else (2 * j + p / 2) * 32 + 2 * i + p % 2
  else if mLayout m = 1 then (if mTemporal m = 1 then 2 * (c % 24) + p else 4 * (c % 24) + p)
  else 0

/-! ### The next boundary (R605) -/

/-- The index of the next boundary to launch. -/
def State.nextBoundary (s : State) : Nat := (s.pseq.next + s.pseq.phases - 1) / max 1 s.pseq.phases * max 1 s.pseq.phases

/-- The sequence number of the subframe of grid index `n`. -/
def State.sfOf (s : State) (n : Nat) : Nat := (s.sf + 1 + (n - s.pseq.next)) % 2 ^ 32

/-- Whether the fabric has begun the light-field frame of the next boundary. -/
def State.nextBegun (s : State) : Bool := decide (s.view.begun = some (s.sfOf s.nextBoundary))

/-! ### VIEW_CTRL -/

/-- A write to a mirrored register (R446, R450): dropped on the MIRROR unless it comes from the partner; on the ACTIVE it takes effect
and is sent to the MIRROR. -/
def State.mirrored (s : State) (off : Nat) (r : Req) (data : Nat) (act : State → State) : State :=
  if r ≠ .partner ∧ s.isMirror = true then s.mirrorDrop off r.code data
  else
    let s1 := act s
    if r ≠ .partner ∧ s1.isActive = true then s1.sendPair (.write off (BitVec.ofNat 32 data)) else s1

/-- VIEW_CTRL_WRITE (R200): the register takes the value; it is used from the next light-field frame boundary on. -/
def execViewCtrlWrite (r : Req) (data : Nat) (s : State) : Out :=
  .next (s.mirrored R.VIEW_CTRL.base r (data % 2 ^ 32) (fun t =>
    t.setWord R.VIEW_CTRL.base (mergeBits 0x73 (t.word R.VIEW_CTRL.base) (BitVec.ofNat 32 data))))

end Sys2Proof.Machine
end

