-- ==== Sys2Proof/Machine/Comp.lean ====
section
/-!
DEFINITION. The plane compositor (spec/09): caldera table, plane pool, static tiles, sinter cache, overlays, guarded buffers,
region signatures, the safe image.
-/

namespace Sys2Proof.Machine

open Sys2Proof

/-! ### Caldera table and plane pool (R258 to R264) -/

/-- A descriptor that holds nothing. -/
def noDesc : Desc := ⟨false, 0, 0, 0xFFFF, 0, 0, false, false, 0, 0⟩

/-- What an unlisted index holds. -/
def descDefault (_ : Nat) : Desc := noDesc

/-- The descriptor at an index. -/
def State.desc (s : State) (i : Nat) : Desc := Sparse.get descDefault s.comp.caldera i

/-- Sets the descriptor at an index. -/
def State.setDesc (s : State) (i : Nat) (d : Desc) : State :=
  { s with comp := { s.comp with caldera := Sparse.set descDefault s.comp.caldera i d } }

/-- The index of tile (PTX, PTY) of plane `k` (R258). -/
def calIndex (k ptx pty : Nat) : Nat := k * 16384 + pty * 128 + ptx

/-- The four words of a descriptor (Table 9.1); the PLANE of an index is index / 16,384. -/
def descWords (i : Nat) (d : Desc) : List Nat :=
  [d.addr % 2 ^ 31 + 2 ^ 31 * Word.ofBool d.valid, d.sig,
    d.sinterRef + 2 ^ 16 * d.unchanged + 2 ^ 20 * (i / 16384) + 2 ^ 26 * d.fmt + 2 ^ 28 * Word.ofBool d.static + 2 ^ 29 * Word.ofBool d.hint +
      2 ^ 30 * d.ovly, d.releaseSeq]

/-- Pool tiles and bytes of a tile (R261, R259). -/
def poolTiles : Nat := 1398101
def tileBytes : Nat := 24576

/-- The DRAM address of pool tile `i`. -/
def State.poolAddr (s : State) (i : Nat) : Nat := s.planePool + i * tileBytes

/-- FREE_TILES follows the tiles in use. -/
def State.countFree (s : State) : State := s.put R.COMP_STAT_FREE_TILES (poolTiles - s.comp.used.length)

/-- The lowest free pool tile. -/
def State.firstFree (s : State) : Option Nat :=
  if s.comp.used.length < poolTiles then (List.range (s.comp.used.length + 1)).find? (fun i => !s.comp.used.contains i) else none

/-- Takes a pool tile into use. -/
def State.takeTile (s : State) (i : Nat) : State := ({ s with comp := { s.comp with used := i :: s.comp.used } } : State).countFree

/-- Frees the expansion of the oldest group that has one (R264, R275); none to free: false. -/
def State.freeExpansion (s : State) : State × Bool :=
  match s.comp.groups.find? (fun g => !g.expansion.isEmpty) with
  | none => (s, false)
  | some g =>
    let tiles := g.expansion.map (·.2)
    (({ s with comp := { s.comp with
        used := s.comp.used.filter (fun i => !tiles.contains i)
        groups := s.comp.groups.map (fun x => if x.ref = g.ref then { x with expansion := [] } else x) } } : State).countFree, true)

/-- A fresh pool tile for a write: expansions give way first; none is left when even that frees nothing. -/
def State.freshTile (s : State) : State × Option Nat :=
  match s.firstFree with
  | some i => (s.takeTile i, some i)
  | none =>
    let (s1, freed) := s.freeExpansion
    match freed, s1.firstFree with
    | true, some i => (s1.takeTile i, some i)
    | _, _ => ((s1.bump R.COMP_POOL_SHORT).raise .comp 4, none)

/-- Tiles whose last reader is done return to the pool (R263, R265). -/
def State.returnTiles (s : State) : State :=
  let done := s.get R.COMP_SEQ_DONE
  let back := (s.comp.releases.filter (fun p => Word.reached done p.2)).map (·.1)
  ({ s with comp := { s.comp with
      releases := s.comp.releases.filter (fun p => !Word.reached done p.2)
      used := s.comp.used.filter (fun i => !back.contains i) } } : State).countFree

/-- The four components of texel `i` of a stored tile: R, G, B, A of 12 bits. -/
def State.texel (s : State) (a i : Nat) : List Nat :=
  let v := s.readLe (a + 6 * i) 6
  [v % 4096, v / 4096 % 4096, v / 2 ^ 24 % 4096, v / 2 ^ 36 % 4096]

/-- The 48-bit group of a texel's components. -/
def texelWord (l : List Nat) : Nat := l.getD 0 0 + 4096 * l.getD 1 0 + 2 ^ 24 * l.getD 2 0 + 2 ^ 36 * l.getD 3 0

/-! ### Tiles written for a frame (R217, R261) -/

/-- The pending write of a frame's tile. -/
def State.writtenAt (s : State) (frame idx : Nat) : Option Written :=
  s.comp.wrote.find? (fun w => w.frame = frame && w.idx = idx)

/-- Puts a pending write in place of the one of its frame and tile. -/
def State.putWritten (s : State) (w : Written) : State :=
  { s with comp := { s.comp with wrote := s.comp.wrote.filter (fun x => !(x.frame = w.frame && x.idx = w.idx)) ++ [w] } }

/-- The later of two writes by the order of R217. -/
def later {α : Type} (old : Option (Nat × α)) (order : Nat) (v : α) : Option (Nat × α) :=
  match old with
  | some p => if order < p.1 then some p else some (order, v)
  | none => some (order, v)

/-- A region writes colour (12,288 components) or alpha (4,096) of a tile for a frame; a tile that finds no pool tile is dropped
(R264). -/
def State.tileWrite (s : State) (frame idx order : Nat) (alpha : Bool) (vals : List Nat) (hint : Option Bool) : State :=
  let put (t : State) (w : Written) : State :=
    let w1 : Written := if alpha then { w with alpha := later w.alpha order vals } else { w with colour := later w.colour order vals }
    t.putWritten (match hint with | some h => { w1 with hint := later w1.hint order h } | none => w1)
  match s.writtenAt frame idx with
  | some w => put s w
  | none =>
    match s.freshTile with
    | (s1, some i) => put s1 ⟨frame, idx, i, none, none, none⟩
    | (s1, none) => s1

/-- Drops the pending writes of a frame; their tiles return. -/
def State.dropWritten (s : State) (frame : Nat) : State :=
  let gone := (s.comp.wrote.filter (fun w => w.frame = frame)).map (·.addr)
  ({ s with comp := { s.comp with
      wrote := s.comp.wrote.filter (fun w => w.frame ≠ frame)
      used := s.comp.used.filter (fun i => !gone.contains i) } } : State).countFree

/-- The bytes a written tile gets: what is not written comes from the tile's content before. -/
def State.mergeTile (s : State) (w : Written) (d : Desc) : List Byte :=
  (List.range 4096).flatMap (fun i =>
    let old := if d.valid then s.texel (d.addr * 64) i else [0, 0, 0, 0]
    let c := match w.colour with | some p => [p.2.getD (3 * i) 0, p.2.getD (3 * i + 1) 0, p.2.getD (3 * i + 2) 0] | none => old.take 3
    let a := match w.alpha with | some p => p.2.getD i 0 | none => old.getD 3 0
    Word.toLe 6 (texelWord (c ++ [a])))

/-- UNCHANGED one further, saturating at 15 (R266). -/
def Desc.age (d : Desc) : Desc := { d with unchanged := min 15 (d.unchanged + 1) }

/-- Commits one written tile (R262, R263, R266): equal content keeps the old buffer; other content takes the fresh one. -/
def State.commitTile (s : State) (w : Written) : State :=
  let d := s.desc w.idx
  let bytes := s.mergeTile w d
  let hint := match w.hint with | some p => p.2 | none => d.hint
  let seq := s.get R.COMP_SEQ
  if d.valid ∧ d.fmt = 0 ∧ s.readBytes (d.addr * 64) tileBytes = bytes then
    let s1 := s.setDesc w.idx { d.age with hint := hint }
    { s1 with comp := { s1.comp with releases := s1.comp.releases ++ [(w.addr, seq)] } }
  else
    let s1 := s.writeBytes (s.poolAddr w.addr) bytes
    let s2 := s1.setDesc w.idx ⟨true, s.poolAddr w.addr / 64, crc32cB bytes, 0xFFFF, 0, 0, false, hint, 0, seq⟩
    if d.valid ∧ d.fmt = 0 then
      { s2 with comp := { s2.comp with releases := s2.comp.releases ++ [((d.addr * 64 - s.planePool) / tileBytes, seq)] } }
    else s2

/-- STATIC of a descriptor (R267). -/
def State.staticNow (s : State) (d : Desc) : Bool :=
  d.valid && (decide (max 1 (s.get R.COMP_CTRL_STATIC_FRAMES) ≤ d.unchanged) || (d.hint && decide (1 ≤ d.unchanged)))

/-- STATIC of every tile, and COMP_STATIC_TILES; the MIRROR does not decide for itself (R449). -/
def State.statics (s : State) : State :=
  let s1 := if s.isMirror then s
    else { s with comp := { s.comp with caldera := s.comp.caldera.map (fun p => (p.1, { p.2 with static := s.staticNow p.2 })) } }
  s1.put R.COMP_STATIC_TILES (s1.comp.caldera.filter (fun p => p.2.static)).length

/-! ### Guarded buffers (R279 to R283) -/

/-- Bytes per pixel, address, extent of buffer `b`. -/
def State.bufBpp (s : State) (b : Nat) : Nat := if s.get R.COMP_BUF_FMT_FMT b = 1 then 8 else 4
def State.bufBase (s : State) (b : Nat) : Nat := s.get R.COMP_BUF_BASE b
def State.bufLen (s : State) (b : Nat) : Nat :=
  (s.get R.COMP_BUF_SIZE_H b - 1) * s.get R.COMP_BUF_PITCH b + s.get R.COMP_BUF_SIZE_W b * s.bufBpp b

/-- Whether a buffer is registered. -/
def State.registered (s : State) (b : Nat) : Bool := s.flag R.COMP_BUF_FMT_VALID b

/-- Whether two byte ranges meet. -/
def overlaps (a la b lb : Nat) : Bool := decide (a < b + lb) && decide (b < a + la)

/-- The registered buffers a byte range falls in. -/
def State.buffersOf (s : State) (a len : Nat) : List Nat :=
  (List.range 16).filter (fun b => s.registered b && overlaps a len (s.bufBase b) (s.bufLen b))

/-- Whether a buffer is named in effect by an overlay's FRONT or the active safe image (R280). -/
def State.linked (s : State) (b : Nat) : Bool :=
  (List.range 4).any (fun n => s.get R.COMP_OVLY_CFG_FRONT n = b) || (s.flag R.COMP_SAFE_STAT_ACTIVE && decide (s.get R.COMP_SAFE_CFG_BUF = b))

/-- The pending strobe of a group. -/
def State.strobeOf (s : State) (g : Nat) : Option Strobe := s.strobes.find? (fun x => x.group = g)

/-- The buffer overlay `n` shows once the pending strobe of group 4 and the cues that wait have applied (R278). -/
def State.frontAfter (s : State) (n : Nat) : Nat :=
  let staged := (s.strobeOf 4).isSome
  if s.blt.actions.any (fun a => a.2.1 = n && decide (3 ≤ a.2.2)) then
    (if staged then s.getStaged R.COMP_OVLY_CFG_BACK n else s.get R.COMP_OVLY_CFG_BACK n)
  else if staged then s.getStaged R.COMP_OVLY_CFG_FRONT n
  else s.get R.COMP_OVLY_CFG_FRONT n

/-- Whether the pending strobes of groups 3 and 4, and cues, unlink a linked buffer: once they have applied, nothing names it (R280). -/
def State.unlinking (s : State) (b : Nat) : Bool :=
  let safe := if (s.strobeOf 3).isSome then decide (s.getStaged R.COMP_SAFE_CFG_BUF = b ∧ s.getStaged R.COMP_SAFE_CFG_VALID = 1)
    else decide (s.get R.COMP_SAFE_CFG_BUF = b)
  !((List.range 4).any (fun n => s.frontAfter n = b) || (s.flag R.COMP_SAFE_STAT_ACTIVE && safe))

/-- The number of light-field frames the fabric begins before the one whose boundary a strobe applies at. -/
def State.framesBefore (s : State) (x : Strobe) : Nat :=
  let ph := max 1 s.pseq.phases
  let n := match x.targetSf with
    | some t => s.pseq.next + (t - (s.sf + 1))
    | none => s.gridFrom (if x.timing = .atTime then (x.instant : Int) else (x.notBefore : Int)) ph
  ((n + ph - 1) / ph - s.nextBoundary / ph) - Word.ofBool s.nextBegun

/-- The sequence number of the last frame that reads a buffer the pending strobes unlink: the frame being rendered, or the one before the
boundary the later of the strobes applies at. -/
def State.lastReader (s : State) : Nat :=
  let n := [3, 4].foldl (fun a g => match s.strobeOf g with | some x => max a (s.framesBefore x) | none => a) 0
  (s.get R.COMP_SEQ + n) % 2 ^ 32

/-- Brings STAT.STATE of buffer `b` up to date (R280). `start`: a light-field frame begins, so every earlier reader is done. -/
def State.bufState (s : State) (start : Bool) (b : Nat) : State :=
  let old := s.get R.COMP_BUF_STAT_STATE b
  if !s.registered b then s.put R.COMP_BUF_STAT_STATE 3 b
  else if s.linked b then
    if s.unlinking b then (s.put R.COMP_BUF_STAT_STATE 2 b).put R.COMP_BUF_RELEASE_SEQ s.lastReader b
    else s.put R.COMP_BUF_STAT_STATE 1 b
  else if start then
    let s1 := if old = 1 ∨ old = 2 then s.put R.COMP_BUF_RELEASE_SEQ (s.get R.COMP_SEQ_DONE) b else s
    s1.put R.COMP_BUF_STAT_STATE 0 b
  else if old = 1 ∨ old = 2 then (s.put R.COMP_BUF_STAT_STATE 2 b).put R.COMP_BUF_RELEASE_SEQ (s.get R.COMP_SEQ) b
  else s.put R.COMP_BUF_STAT_STATE 0 b

/-- All buffers. -/
def State.bufStates (s : State) (start : Bool) : State := (List.range 16).foldl (fun t b => t.bufState start b) s

/-- A failure of registration or of a write to a buffer's registers (R279). -/
def State.bufFail (s : State) (b code : Nat) : State := (s.put R.COMP_BUF_STAT_ERR code b).raiseRec .comp 7

/-- Why buffer `b` as its registers hold it, with format `fmt`, cannot be registered; 0 for nothing. -/
def State.bufCheck (s : State) (b fmt : Nat) : Nat :=
  let t := s.put R.COMP_BUF_FMT_FMT fmt b
  let base := t.bufBase b
  let pitch := t.get R.COMP_BUF_PITCH b
  let len := t.bufLen b
  if t.regionOk .comp true base len = false then 0x17
  else if base % (if fmt = 1 then 128 else 64) ≠ 0 ∨ pitch % 64 ≠ 0 ∨ pitch < t.get R.COMP_BUF_SIZE_W b * t.bufBpp b then 0x41
  else if (List.range 16).any (fun x => x ≠ b && t.registered x && overlaps base len (t.bufBase x) (t.bufLen x)) then 0x40
  else 0

/-- A write of COMP_BUF[b].FMT (R279): it registers the buffer, unregisters it, or fails with a code. A failed registration leaves
VALID 0 (log entry 24). -/
def State.bufFmt (s : State) (b data : Nat) : State :=
  let st := s.get R.COMP_BUF_STAT_STATE b
  let fmt := data % 2
  if st = 1 ∨ st = 2 then s.bufFail b 0x42
  else
    let s1 := s.put R.COMP_BUF_FMT_VALID 0 b
    if data.testBit 31 then
      match s1.bufCheck b fmt with
      | 0 => (((s1.put R.COMP_BUF_FMT_FMT fmt b).put R.COMP_BUF_FMT_VALID 1 b).put R.COMP_BUF_STAT_ERR 0 b).bufState true b
      | code => ((s1.put R.COMP_BUF_FMT_FMT fmt b).put R.COMP_BUF_STAT_STATE 3 b).bufFail b code
    else ((s1.put R.COMP_BUF_FMT_FMT fmt b).put R.COMP_BUF_STAT_STATE 3 b)

/-- BUF_REGISTER: a write of COMP_BUF[b].FMT, a mirrored register. -/
def execBufRegister (r : Req) (b data : Nat) (s : State) : Out :=
  .next (if b < 16 then s.mirrored (R.COMP_BUF_FMT.off b 0) r data (fun t => t.bufFmt b data) else s)

/-! ### Writes into buffers -/

/-- The blocks of 64 × 64 pixels a byte range of buffer `b` touches, as (buffer, column, row). -/
def State.blocksOf (s : State) (b a len : Nat) : List (Nat × Nat × Nat) :=
  let base := s.bufBase b
  let pitch := max 1 (s.get R.COMP_BUF_PITCH b)
  let wide := 64 * s.bufBpp b
  let lo := max a base - base
  let hi := min (a + len) (base + s.bufLen b) - base
  if hi ≤ lo then []
  else
    let y0 := lo / pitch
    let y1 := (hi - 1) / pitch
    let x0 := if y0 = y1 then lo % pitch / wide else 0
    let x1 := if y0 = y1 then (hi - 1) % pitch / wide else (pitch - 1) / wide
    (List.range (y1 / 64 - y0 / 64 + 1)).flatMap (fun r => (List.range (x1 - x0 + 1)).map (fun c => (b, x0 + c, y0 / 64 + r)))

/-- Bytes reach module DRAM; blocks of a registered buffer they touch are noted for R268 and, on the ACTIVE, for the next DELTA
(R449). -/
def State.bufBytes (s : State) (a : Nat) (bytes : List Byte) : State :=
  let s1 := s.writeBytes a bytes
  let blocks := (s.buffersOf a bytes.length).flatMap (fun b => s.blocksOf b a bytes.length)
  if blocks.isEmpty then s1
  else
    let fresh := blocks.filter (fun x => !s.comp.touched.contains x)
    let ids := blocks.map (fun x => x.1 * 2 ^ 20 + x.2.2 * 2 ^ 10 + x.2.1)
    { s1 with
      comp := { s1.comp with touched := s1.comp.touched ++ fresh }
      pair := { s1.pair with written := s1.pair.written ++ ids.filter (fun i => !s1.pair.written.contains i) } }

/-- The record of overlay `n`. -/
def State.drawnOf (s : State) (n : Nat) : Drawn := (s.blt.drawn.find? (fun x => x.ovly = n)).getD ⟨n, [], []⟩

/-- Sets the record of an overlay. -/
def State.setDrawn (s : State) (x : Drawn) : State :=
  { s with blt := { s.blt with drawn := x :: s.blt.drawn.filter (fun y => y.ovly ≠ x.ovly) } }

/-- The rectangle of a command as far as it lies in its surface. -/
def boxOf (x y : Int) (w h sw sh : Nat) : Box :=
  let x0 := (max 0 x).toNat
  let y0 := (max 0 y).toNat
  ⟨x0, y0, (min (x + w) (sw : Int)).toNat - x0, (min (y + h) (sh : Int)).toNat - y0⟩

/-- Notes a rectangle drawn into a buffer: into FRONT or into BACK of every overlay that names it. -/
def State.noteDrawn (s : State) (b : Nat) (x : Box) : State :=
  (List.range 4).foldl (fun t n =>
    let r := t.drawnOf n
    if t.get R.COMP_OVLY_CFG_FRONT n = b then t.setDrawn { r with front := (r.front ++ [x]).take 17 }
    else if t.flag R.COMP_OVLY_CFG_BACK_VALID n && decide (t.get R.COMP_OVLY_CFG_BACK n = b) then
      t.setDrawn { r with back := (r.back ++ [x]).take 17 }
    else t) s

/-- The rectangle of buffer `b` that a byte range touches: part of one row, or whole rows. -/
def State.boxIn (s : State) (b a len : Nat) : Box :=
  let pitch := max 1 (s.get R.COMP_BUF_PITCH b)
  let lo := max a (s.bufBase b) - s.bufBase b
  let hi := min (a + len) (s.bufBase b + s.bufLen b) - s.bufBase b
  let y := lo / pitch
  let y1 := (hi - 1) / pitch
  if y = y1 then ⟨lo % pitch / s.bufBpp b, y, (hi - 1) % pitch / s.bufBpp b + 1 - lo % pitch / s.bufBpp b, 1⟩
  else ⟨0, y, s.get R.COMP_BUF_SIZE_W b, y1 + 1 - y⟩

/-- Bytes the host writes through BAR2: what they draw into an overlay's surfaces is noted too (R278). -/
def State.hostBytes (s : State) (a : Nat) (bytes : List Byte) : State :=
  (s.buffersOf a bytes.length).foldl (fun t b => t.noteDrawn b (s.boxIn b a bytes.length)) (s.bufBytes a bytes)

/-- Whether the guard holds a write into buffer `b`. -/
def State.holds (s : State) (b : Nat) : Bool := decide (s.get R.COMP_BUF_STAT_STATE b = 2) && decide (2 ≤ s.get R.COMP_CTRL_GUARD)

/-- One entry per buffer per frame under FLAG (Table 9.2). -/
def State.flagWrite (s : State) (b : Nat) : State :=
  let s1 := (s.bump R.COMP_BUF_GUARD_FLAGGED b).raise .comp 0
  if s1.comp.flagged.contains b then s1
  else ({ s1 with comp := { s1.comp with flagged := b :: s1.comp.flagged } } : State).recIrq .comp 0

/-- The use guard on a write into buffer `b` (R281, Table 9.2). -/
def State.guardOne (s : State) (b : Nat) : State :=
  let st := s.get R.COMP_BUF_STAT_STATE b
  if st = 1 then s.bump R.COMP_GUARD_COUNT_LIVE_WRITES
  else if st = 2 then
    if s.get R.COMP_CTRL_GUARD = 0 then s
    else if s.get R.COMP_CTRL_GUARD = 1 then s.flagWrite b
    else (s.bump R.COMP_BUF_GUARD_HELD b).raise .comp 0
  else s

/-- The use guard on a write that nothing is queued ahead of, in every buffer it falls in; true when it is to be held. -/
def State.guard (s : State) (a len : Nat) : State × Bool :=
  let l := s.buffersOf a len
  (l.foldl State.guardOne s, l.any s.holds)

/-- A write into DRAM by the host through BAR2 or by the blitter, arrived at `since`: the MIRROR drops it when it falls in a registered buffer (R450);
otherwise the guard lets it through or holds it, and it keeps its place behind writes already held (R282). -/
def State.guardedWrite (s : State) (blt : Bool) (a : Nat) (bytes : List Byte) (since : Nat) : State :=
  if s.isMirror ∧ (s.buffersOf a bytes.length).isEmpty = false then
    s.mirrorDrop 0xFFFFFF (if blt then 3 else 1) (Word.le (bytes.take 4))
  else
    if blt then
      if s.comp.heldBlt.isEmpty then
        match s.guard a bytes.length with
        | (s1, true) => { s1 with comp := { s1.comp with heldBlt := [⟨.bytes a bytes, since, true⟩] } }
        | (s1, false) => s1.bufBytes a bytes
      else { s with comp := { s.comp with heldBlt := s.comp.heldBlt ++ [⟨.bytes a bytes, since, false⟩] } }
    else if s.comp.heldHost.isEmpty then
      match s.guard a bytes.length with
      | (s1, true) => { s1 with comp := { s1.comp with heldHost := [⟨.bytes a bytes, since, true⟩] } }
      | (s1, false) => s1.hostBytes a bytes
    else { s with comp := { s.comp with heldHost := s.comp.heldHost ++ [⟨.bytes a bytes, since, false⟩] } }

/-- GUARDED_WRITE: a write into a registered buffer by the host or the blitter. -/
def execGuardedWrite (blt : Bool) (a : Nat) (bytes : List Byte) (s : State) : Out := .next (s.guardedWrite blt a bytes s.time.raw)

/-- Completes one held item of the blitter (`blt`) or of the host: `reg` performs an access of the host that waited. -/
def State.completeItem (s : State) (blt : Bool) (reg : State → HeldWrite → State) (h : HeldWrite) : State :=
  match h.item with
  | .bytes a bytes => if blt then s.bufBytes a bytes else s.hostBytes a bytes
  | _ => reg s h

/-- An access of the host waits behind those already held (R70, R282). -/
def State.hostWaits (s : State) (i : HeldItem) : State :=
  { s with comp := { s.comp with heldHost := s.comp.heldHost ++ [⟨i, s.time.raw, false⟩] } }

/-- HOST_BAR2_BASE is about to change in another way than by a host write that waits in its turn: the BAR2 accesses already accepted keep the old
base (R495). -/
def State.bindBase (s : State) : State :=
  let b := s.get R.HOST_BAR2_BASE
  { s with comp := { s.comp with heldHost := s.comp.heldHost.map (fun h => match h.item with
    | .bar2 none off len data ecc => { h with item := .bar2 (some b) off len data ecc }
    | _ => h) } }

/-- A reset of the host port discards the read completions still owed; posted writes already received stay (Table 17.2). -/
def State.dropReads (s : State) : State :=
  { s with comp := { s.comp with heldHost := s.comp.heldHost.filter (fun h => match h.item with
    | .reg _ _ none | .bar2 _ _ _ none _ => false
    | _ => true) } }

/-- Whether the item at the front goes on waiting: bytes while their buffer is held, a BAR2 access while the controllers hold it (R428, R429).
Bytes that waited behind others meet the guard only now, and are counted if it holds them (R281, R282). -/
def State.frontWaits (s : State) (h : HeldWrite) : State × Bool :=
  match h.item with
  | .bytes a bytes =>
    if h.met then (s, (s.buffersOf a bytes.length).any s.holds)
    else s.guard a bytes.length
  | .bar2 .. => (s, !s.memOpen && !s.bootWindow)
  | .reg .. => (s, false)

/-- Completes held items of one requester in order, as far as they may; what a completed item leaves held stands before the rest. -/
def State.drain (s : State) (blt : Bool) (reg : State → HeldWrite → State) : List HeldWrite → State × List HeldWrite
  | [] => (s, [])
  | h :: l =>
    match s.frontWaits h with
    | (s1, true) => (s1, { h with met := true } :: l)
    | (s1, false) =>
      let s2 := s1.completeItem blt reg h
      if s2.comp.heldHost.isEmpty then s2.drain blt reg l else (s2, s2.comp.heldHost ++ l)

/-- HELD_WRITE_RELEASE for both requesters (R281 to R283). -/
def State.releaseHeld (s : State) (reg : State → HeldWrite → State) : State :=
  let host := s.comp.heldHost
  let (s1, h) := ({ s with comp := { s.comp with heldHost := [] } } : State).drain false reg host
  let blt := s1.comp.heldBlt
  let (s2, b) := ({ s1 with comp := { s1.comp with heldHost := [], heldBlt := [] } } : State).drain true reg blt
  { s2 with comp := { s2.comp with heldHost := h, heldBlt := b } }

/-- Every held write completes, its buffers being FREE (CORE entry, R298); BAR2 accesses the controllers hold stay. -/
def State.completeAll (s : State) (reg : State → HeldWrite → State) : State :=
  ((List.range 16).foldl (fun t b => if t.registered b then t.put R.COMP_BUF_STAT_STATE 0 b else t) s).releaseHeld reg

/-- One light-field frame period, in ns. -/
def State.framePeriod (s : State) : Nat := s.pseq.phases * 1000000000 * s.pseq.rateDen / max 1 s.pseq.rateNum

/-- A write still held one frame period after it arrived completes at once (R282), and those behind it as far as they may. -/
def State.guardExpiry (s : State) (reg : State → HeldWrite → State) : State :=
  let old (h : HeldWrite) : Bool := h.met && (match h.item with | .bytes .. => true | _ => false) && decide (h.since + s.framePeriod ≤ s.time.raw)
  let expire (t : State) : State := (t.bump R.COMP_GUARD_COUNT_EXPIRED).raise .comp 1
  let s1 := match s.comp.heldHost with
    | h :: l => if old h then (expire ({ s with comp := { s.comp with heldHost := l } } : State)).completeItem false reg h else s
    | [] => s
  let s2 := match s1.comp.heldBlt with
    | h :: l => if old h then (expire ({ s1 with comp := { s1.comp with heldBlt := l } } : State)).completeItem true reg h else s1
    | [] => s1
  s2.releaseHeld reg

/-! ### The sinter cache (R269 to R275) -/

/-- The largest slope of the rays in effect, in units of 2⁻²⁴ (R174, R270). -/
def State.maxSlope (s : State) : Nat :=
  let m := s.get R.VIEW_MODE_EFF_MODE
  let set := steerSet m
  let top (f : Fld) : Nat := (List.range (modePhases m)).foldl (fun a p => max a (s.getI f set p).natAbs) 0
  let k (f : Fld) : Nat := max 1 (s.get f)
  if mLayout m = 0 then
    max (k R.VIEW_FOCAL_FULL_KX * (1920 + top R.VIEW_STEER_SX)) (k R.VIEW_FOCAL_FULL_KY * (1920 + top R.VIEW_STEER_SY))
  else if mLayout m = 1 then
    max (k R.VIEW_FOCAL_HORIZ_KX * (2944 + top R.VIEW_STEER_SX)) (256 * (s.getI R.VIEW_FOCAL_HORIZ_VSLOPE).natAbs)
  else 0

/-- The tiles on one axis of a plane that positions `lo` to `hi` (pixels), widened by slope × |Z|, can reach: the coordinate is
(x − ORG/256) × SCALE/65,536 texels, a footprint one texel wide, clipped to `n` tiles. -/
def axisTiles (lo hi : Nat) (slope : Nat) (z org : Int) (scale n : Nat) : List Nat :=
  let w : Int := Int.ofNat (slope * z.natAbs / 2 ^ 24 + 1)
  let coord (x : Int) : Int := Int.fdiv ((x * 256 - org) * (scale : Int)) (2 ^ 24)
  let wide : Int := Int.fdiv w 256 + 1
  let a := Int.fdiv (coord ((lo : Int) - wide) - 1) 64
  let b := Int.fdiv (coord ((hi : Int) + wide) + 1) 64
  let top : Int := (n : Int) - 1
  let a1 := (Word.clampI 0 top a).toNat
  let b1 := (Word.clampI 0 top b).toNat
  (List.range (b1 - a1 + 1)).map (· + a1)

/-- Caldera indices of the tiles of plane `k` that rays of a region can reach. -/
def State.reach (s : State) (region k : Nat) : List Nat :=
  let e := s.depthEntry k
  let t := s.maxSlope
  let rx := region % 60 * 256
  let ry := region / 60 * 256
  let xs := axisTiles rx (rx + 255) t e.z e.ox e.scale e.w
  let ys := axisTiles ry (ry + 255) t e.z e.oy e.scale e.h
  ys.flatMap (fun y => xs.map (fun x => calIndex k x y))

/-- The entries of a group. -/
def span (k0 k1 : Nat) : List Nat := (List.range (k1 + 1 - k0)).map (· + k0)

/-- The member tiles a group covers. -/
def State.groupTiles (s : State) (g : SinterGroup) : List Nat := (span g.k0 g.k1).flatMap (s.reach g.region)

/-- Whether entry `k` is the rearmost ordinary entry of the stack. -/
def State.rearmost (s : State) (k : Nat) : Bool :=
  !(s.depthEntry k).overlay && (List.range (s.get R.VIEW_DEPTH_COUNT)).all (fun j => decide (j ≤ k) || (s.depthEntry j).overlay)

/-- Whether (k0, k1) is a candidate of a region that meets R269 and R270. -/
def State.candidate (s : State) (region k0 k1 : Nat) : Bool :=
  let l := (span k0 k1).map s.depthEntry
  let zs := l.map (·.z)
  let zmax := zs.foldl max (zs.headD 0)
  let zmin := zs.foldl min (zs.headD 0)
  let sc := (l.map (·.scale)).foldl max 0
  let mine := s.comp.groups.filter (fun g => g.region = region)
  decide (region < 2040) && decide (k0 ≤ k1 ∧ k1 < s.get R.VIEW_DEPTH_COUNT) &&
    ((decide (k0 < k1) && (l.all (·.overlay) || l.all (fun e => !e.overlay))) || (decide (k0 = k1) && s.rearmost k0)) &&
    decide (mine.length < 4) && mine.all (fun g => decide (g.k1 < k0 ∨ k1 < g.k0)) &&
    ((span k0 k1).flatMap (s.reach region)).all (fun i => (s.desc i).static) &&
    decide ((s.maxSlope : Int) * (zmax - zmin) * (sc : Int) * 4 < 2 ^ 48)

/-- Depth of a group: floor((Zmin + Zmax) / 2). -/
def State.groupDepth (s : State) (k0 k1 : Nat) : Int :=
  let zs := (span k0 k1).map (fun k => (s.depthEntry k).z)
  Int.fdiv (zs.foldl max (zs.headD 0) + zs.foldl min (zs.headD 0)) 2

/-- Texel (x, y) of a tile as the fabric sees it (R260, R276): pool tiles as stored; surface blocks converted, colour multiplied by
alpha / 4,095 where the overlay's PREMUL is 0. -/
def State.tileTexel (s : State) (d : Desc) (x y : Nat) : List Nat :=
  if !d.valid then [0, 0, 0, 0]
  else if d.fmt = 0 then s.texel (d.addr * 64) (y * 64 + x)
  else
    let bpp := if d.fmt = 1 then 8 else 4
    let pitch := s.get R.COMP_BUF_PITCH (s.get R.COMP_OVLY_CFG_FRONT d.ovly)
    let p := readPixel (if d.fmt = 1 then 5 else 0) (s.readLe (d.addr * 64 + y * pitch + x * bpp) bpp)
    if s.flag R.COMP_OVLY_CFG_PREMUL d.ovly then p
    else
      let a := p.getD 3 0
      (p.take 3).map (fun c => (2 * c * a + 4095) / 8190) ++ [a]

/-- One plane-sample of plane `k` at a coordinate in 1/256 texel (R179, R182): 20-bit colour channels and alpha. -/
def State.planeSample (s : State) (k : Nat) (u v : Int) : List Nat :=
  let e := s.depthEntry k
  let a := Int.fdiv (u - 128) 256
  let b := Int.fdiv (v - 128) 256
  let fx := ((u - 128) % 256).toNat
  let fy := ((v - 128) % 256).toNat
  let wide : Int := (e.w : Int) * 64
  let high : Int := (e.h : Int) * 64
  let at_ (x y : Int) : List Nat :=
    let inside := decide (0 ≤ x ∧ x < wide ∧ 0 ≤ y ∧ y < high)
    if !inside && !e.edge then [0, 0, 0, 0]
    else
      let cx := (Word.clampI 0 (wide - 1) x).toNat
      let cy := (Word.clampI 0 (high - 1) y).toNat
      s.tileTexel (s.desc (calIndex k (cx / 64) (cy / 64))) (cx % 64) (cy % 64)
  let t00 := at_ a b
  let t10 := at_ (a + 1) b
  let t01 := at_ a (b + 1)
  let t11 := at_ (a + 1) (b + 1)
  (List.range 4).map (fun c =>
    ((256 - fx) * (256 - fy) * t00.getD c 0 + fx * (256 - fy) * t10.getD c 0 + (256 - fx) * fy * t01.getD c 0 + fx * fy * t11.getD c 0 + 128) / 256)

/-- The over operator (R183), on colours and alpha. -/
def overColours (acc smp : List Nat) : List Nat :=
  let a := acc.getD 3 0
  (List.range 4).map (fun c => min fullScale (acc.getD c 0 + (smp.getD c 0 * (fullScale - a) + fullScale / 2) / fullScale))

/-- First tile and number of tiles, on one axis, of a group's own grid that cover positions `lo` to `hi` widened by slope × |Zg|
(R271); the grid starts at the front member's origin and may begin before it. -/
def groupAxis (lo hi slope : Nat) (z org : Int) (scale : Nat) : Int × Nat :=
  let wide : Int := Int.fdiv (Int.ofNat (slope * z.natAbs / 2 ^ 24 + 1)) 256 + 1
  let coord (x : Int) : Int := Int.fdiv ((x * 256 - org) * (scale : Int)) (2 ^ 24)
  let a := Int.fdiv (coord ((lo : Int) - wide) - 1) 64
  let b := Int.fdiv (coord ((hi : Int) + wide) + 1) 64
  (a, (b - a + 1).toNat)

/-- Largest member SCALE of a group. -/
def State.groupScale (s : State) (g : SinterGroup) : Nat := max 1 (((span g.k0 g.k1).map (fun k => (s.depthEntry k).scale)).foldl max 0)

/-- First tile and number of tiles of a group's own grid, across and down. -/
def State.groupAxes (s : State) (g : SinterGroup) : (Int × Nat) × (Int × Nat) :=
  let e := s.depthEntry g.k0
  let rx := g.region % 60 * 256
  let ry := g.region / 60 * 256
  (groupAxis rx (rx + 255) s.maxSlope g.z e.ox (s.groupScale g), groupAxis ry (ry + 255) s.maxSlope g.z e.oy (s.groupScale g))

/-- The tiles of a group's expansion as (column, row) of its own grid, in raster order. -/
def State.groupGrid (s : State) (g : SinterGroup) : List (Int × Int) :=
  let xs := (s.groupAxes g).1
  let ys := (s.groupAxes g).2
  (List.range ys.2).flatMap (fun (y : Nat) => (List.range xs.2).map (fun (x : Nat) => (xs.1 + (x : Int), ys.1 + (y : Int))))

/-- Texel (x, y) of a group (R271): the members at the same screen position, seen straight on, rounded to 12 bits. -/
def State.groupTexel (s : State) (g : SinterGroup) (x y : Int) : List Nat :=
  let front := s.depthEntry g.k0
  let sc := s.groupScale g
  let pos (p : Int) (org : Int) : Int := org * 65536 + Int.fdiv ((2 * p + 1) * 2 ^ 39) (sc : Int)
  let coord (p : Int) (org : Int) (e : DepthEntry) (eo : Int) : Int :=
    Int.fdiv ((pos p org - eo * 65536) * (e.scale : Int) + 2 ^ 31) (2 ^ 32)
  let acc := (span g.k0 g.k1).foldl (fun a k =>
    let e := s.depthEntry k
    overColours a (s.planeSample k (coord x front.ox e e.ox) (coord y front.oy e e.oy))) [0, 0, 0, 0]
  acc.map (fun v => min 4095 ((v + 128) / 256))

/-- The bytes of one tile of a group's expansion. -/
def State.groupBytes (s : State) (g : SinterGroup) (t : Int × Int) : List Byte :=
  (List.range 4096).flatMap (fun (i : Nat) =>
    Word.toLe 6 (texelWord (s.groupTexel g (64 * t.1 + ((i % 64 : Nat) : Int)) (64 * t.2 + ((i / 64 : Nat) : Int)))))

/-- Takes a pool tile for each tile of an expansion and writes it; stops short when none is free. -/
def State.expand (s : State) (g : SinterGroup) : List (Int × Int) → List (Nat × Nat) → State × Option (List (Nat × Nat))
  | [], acc => (s, some acc)
  | i :: l, acc =>
    match s.firstFree with
    | some t =>
      let s1 := (s.takeTile t).writeBytes (s.poolAddr t) (s.groupBytes g i)
      s1.expand g l (acc ++ [(acc.length, t)])
    | none => (s, none)

/-- The expansion of a group is a job of class 3 too (Table 8.6): its compressed bytes, its tiles. -/
def State.expandJob (s : State) (size tiles : Nat) : State := s.innerJob ⟨3, 1, 3, size, 24576 * tiles, 0, 0⟩

/-- Removes a group that is not usable. -/
def State.dropGroup (s : State) (ref : Nat) : State :=
  { s with comp := { s.comp with groups := s.comp.groups.filter (fun g => g.ref ≠ ref) } }

/-- Compressed bytes the cache holds. -/
def State.sinterUsed (s : State) : Nat := (s.comp.groups.map (·.size)).foldl (· + ·) 0

/-- COMP_SINTER_STAT. -/
def State.sinterStat (s : State) : State :=
  (s.put R.COMP_SINTER_STAT_GROUPS (s.comp.groups.filter (·.usable)).length).put R.COMP_SINTER_STAT_USED_MIB (Word.cdiv s.sinterUsed mib)

/-- The bytes a flattening compresses. -/
def State.groupData (s : State) (g : SinterGroup) : List Byte := (s.groupGrid g).flatMap (s.groupBytes g)

/-- SINTER_FLATTEN_START (R269, R270, R274, R256): not on the MIRROR, nor with both codec engines disabled. The compression joins the codec's
queue as class 3 (Table 8.6). -/
def execSinterFlattenStart (region k0 k1 : Nat) (s : State) : Out :=
  if s.flag R.COMP_CTRL_SINTER_EN && decide (s.get R.COMP_SINTER_CAP ≠ 0) && !s.isMirror && decide (s.get R.LZC_CTRL ≠ 0) &&
      s.candidate region k0 k1 then
    let g : SinterGroup := ⟨s.comp.nextRef % 0xFFFF, region, k0, k1, s.rearmost k1, false, false, false, 0, [], s.groupDepth k0 k1⟩
    let d := s.groupData g
    .next (({ s with comp := { s.comp with nextRef := s.comp.nextRef + 1, groups := s.comp.groups ++ [g] } } : State).innerJob
      ⟨3, 0, 3, d.length, (compressAll 3 3 22 d).length, 0, 0⟩)
  else .next s

/-- SINTER_FLATTEN_DONE (R271, R272, R274, R255): discarded when a member changed meanwhile; not kept when it does not fit or when
the codec failed. Without pool tiles for its expansion it waits for one (R275, log entry 92). -/
def execSinterFlattenDone (ref : Nat) (ok : Bool) (s : State) : Out :=
  match s.comp.groups.find? (fun g => g.ref = ref && !g.flattened) with
  | none => .next s
  | some g =>
    if !ok then .next ((s.dropGroup ref).raise .lzc 3)
    else if g.stale then .next (s.dropGroup ref)
    else
      let tiles := s.groupGrid g
      let size := (compressAll 3 3 22 (s.groupData g)).length
      if s.get R.COMP_SINTER_CAP * mib < s.sinterUsed + size then .next ((s.dropGroup ref).raise .comp 5)
      else
        match s.expand g tiles [] with
        | (_, none) =>
          .next ({ s with comp := { s.comp with groups := s.comp.groups.map (fun x => if x.ref = ref then { g with flattened := true, size := size } else x) } } :
            State).sinterStat
        | (s1, some ex) =>
          let g1 : SinterGroup := { g with flattened := true, size := size, expansion := ex }
          .next (({ s1 with comp := { s1.comp with groups := s1.comp.groups.map (fun x => if x.ref = ref then g1 else x) } } : State).expandJob
            size ex.length).sinterStat

/-- Ends groups (R273): a usable one is invalidated, counted, its space released under R263; one still flattened goes stale. -/
def State.endGroups (s : State) (p : SinterGroup → Bool) : State :=
  let gone := s.comp.groups.filter (fun g => g.flattened && p g)
  let seq := s.get R.COMP_SEQ
  let tiles := gone.flatMap (fun g => g.expansion.map (fun e => (e.2, seq)))
  let s1 : State := { s with comp := { s.comp with
    groups := (s.comp.groups.filter (fun g => !(g.flattened && p g))).map (fun g => if p g then { g with stale := true } else g)
    releases := s.comp.releases ++ tiles } }
  s1.bumpBy R.COMP_SINTER_COUNT_INVALIDATED (gone.filter (·.usable)).length

/-- SINTER_REF of every descriptor follows the usable groups. -/
def State.sinterRefs (s : State) : State :=
  let cover := (s.comp.groups.filter (·.usable)).map (fun g => (g.ref, s.groupTiles g))
  let ref (i : Nat) : Nat := ((cover.find? (fun p => p.2.contains i)).map (·.1)).getD 0xFFFF
  { s with comp := { s.comp with caldera := s.comp.caldera.map (fun p => (p.1, { p.2 with sinterRef := if p.2.valid then ref p.1 else 0xFFFF })) } }

/-- A group that lost its expansion is expanded again when pool tiles are free (R275), for a later commit. -/
def State.expandAgain (s : State) : State :=
  match s.comp.groups.find? (fun g => g.flattened && g.expansion.isEmpty) with
  | none => s
  | some g =>
    match s.expand g (s.groupGrid g) [] with
    | (_, none) => s
    | (s1, some ex) => ({ s1 with comp := { s1.comp with groups := s1.comp.groups.map (fun x =>
        if x.ref = g.ref then { x with expansion := ex } else x) } } : State).expandJob g.size ex.length

/-- Flattened groups with their expansion become usable (R272, R275); those without one expand again when tiles are free. -/
def State.useGroups (s : State) : State :=
  let fresh := s.comp.groups.filter (fun g => g.flattened && !g.usable && !g.expansion.isEmpty)
  let s1 : State := { s with comp := { s.comp with groups := s.comp.groups.map (fun g =>
    { g with usable := g.flattened && !g.expansion.isEmpty }) } }
  ((s1.bumpBy R.COMP_SINTER_COUNT_FLATTENED fresh.length).sinterRefs.sinterStat).expandAgain

/-! ### Overlays (R276, R277) -/

/-- The number of the overlay that entry `k` is: the n-th OVERLAY entry. -/
def State.ovlyOf (s : State) (k : Nat) : Nat := ((List.range k).filter (fun j => (s.depthEntry j).overlay)).length

/-- The pixel a block of overlay `n` starts at, and whether the whole block lies in the surface. -/
def State.ovlyBlock (s : State) (n ptx pty : Nat) : Nat × Nat × Bool :=
  let b := s.get R.COMP_OVLY_CFG_FRONT n
  let x := s.get R.COMP_OVLY_SRC_SRC_X n / 64 * 64 + 64 * ptx
  let y := s.get R.COMP_OVLY_SRC_SRC_Y n / 64 * 64 + 64 * pty
  (x, y, decide (x + 64 ≤ s.get R.COMP_BUF_SIZE_W b) && decide (y + 64 ≤ s.get R.COMP_BUF_SIZE_H b))

/-- The surface tile (PTX, PTY) of overlay `n` as entry `k`, at a commit (R268, R276). -/
def State.surfaceTile (s : State) (fresh : Bool) (k n : Nat) (touched : List (Nat × Nat × Nat)) (ptx pty : Nat) : State :=
  let i := calIndex k ptx pty
  let d := s.desc i
  let b := s.get R.COMP_OVLY_CFG_FRONT n
  if !s.flag R.COMP_OVLY_CFG_EN n || !s.registered b then s.setDesc i noDesc
  else
    let (x, y, inside) := s.ovlyBlock n ptx pty
    if !inside then ((s.setDesc i noDesc).put R.COMP_OVLY_STAT_RANGE 1 n).raise .comp 6
    else
      let a := (s.bufBase b + y * s.get R.COMP_BUF_PITCH b + x * s.bufBpp b) / 64
      let fmt := if s.bufBpp b = 8 then 1 else 2
      let same := d.valid && decide (d.fmt = fmt) && decide (d.addr = a) && !touched.contains (b, x / 64, y / 64) && !s.comp.fronts.contains n
      let d1 : Desc := if same then (if fresh then d.age else d) else ⟨true, a, 0, 0xFFFF, 0, fmt, false, false, n, s.get R.COMP_SEQ⟩
      s.setDesc i d1

/-- All surface tiles of the overlays in the stack; an entry that is no overlay keeps no surface tile. `fresh`: a new frame commits, so tiles
age (R266); a repeated one commits nothing (R262). -/
def State.surfaces (s : State) (fresh : Bool) : State :=
  let touched := s.comp.touched
  let gone := s.comp.caldera.filter (fun p => p.2.fmt ≠ 0 && !(decide (p.1 / 16384 < s.get R.VIEW_DEPTH_COUNT) && (s.depthEntry (p.1 / 16384)).overlay))
  let s1 := gone.foldl (fun t p => t.setDesc p.1 noDesc) s
  let s2 := (List.range (s.get R.VIEW_DEPTH_COUNT)).foldl (fun t k =>
    let e := t.depthEntry k
    if e.overlay then
      let n := t.ovlyOf k
      let t1 := t.put R.COMP_OVLY_STAT_RANGE 0 n
      (List.range e.h).foldl (fun u y => (List.range e.w).foldl (fun v x => v.surfaceTile fresh k n touched x y) u) t1
    else t) s1
  { s2 with comp := { s2.comp with touched := [], fronts := [] } }

/-- COMP_OVLY[n].STAT after a change of CFG in effect; a FRONT that names an unregistered buffer sets BUF_ERR (R277). -/
def State.ovlyStat (s : State) (n : Nat) : State :=
  let f := s.get R.COMP_OVLY_CFG_FRONT n
  let changed := decide (s.get R.COMP_OVLY_STAT_FRONT n ≠ f)
  let s1 := ((s.put R.COMP_OVLY_STAT_FRONT f n).put R.COMP_OVLY_STAT_BACK (s.get R.COMP_OVLY_CFG_BACK n) n).put R.COMP_OVLY_STAT_EN
    (s.get R.COMP_OVLY_CFG_EN n) n
  let s2 : State := if changed then { s1 with comp := { s1.comp with fronts := n :: s1.comp.fronts } } else s1
  s2.raiseIf (!s2.registered f) .comp 7

/-! ### Tone state (R285, R286) -/

/-- The TRANSFER code of COMP_TONE_EFF for a stream's TRANSFER: 1 SDR, 16 PQ, 18 HLG, 8 linear. -/
def toneCode (transfer : Nat) : Nat :=
  if transfer = 1 then 1 else if transfer = 16 then 2 else if transfer = 18 then 3 else if transfer = 8 then 4 else 0

/-- COMP_TONE_EFF: transfer and source peak Ls in effect. -/
def State.toneEff (s : State) : State :=
  let c := toneCode s.comp.transfer
  let hints := s.flag R.COMP_TONE_HINTS
  let peak := match s.comp.tone with | some l => if hints then l.getD 0 0 else 0 | none => 0
  let lum := s.comp.hdr.getD 0 0
  let cll := s.comp.hdr.getD 1 0
  let white := max 1 (s.get R.COMP_TONE_SDR_WHITE)
  let ls :=
    if c = 2 then (if peak ≠ 0 then peak else if cll ≠ 0 then cll else if lum ≠ 0 then lum else 10000)
    else if c = 3 then s.get R.COMP_PANEL_RANGE_PEAK
    else if c = 4 then (if peak ≠ 0 then peak else max 1 (s.get R.COMP_TONE_LIN_LIN_PEAK))
    else white
  (s.put R.COMP_TONE_EFF_TRANSFER c).put R.COMP_TONE_EFF_SRC_PEAK (min 65535 ls)

/-! ### Region signatures (R291 to R295) -/

/-- Width and height of the image of one view. -/
def imageSize (m : Nat) : Nat × Nat := if mLayout m = 0 then (960, 540) else if mLayout m = 1 then (1920, 8640) else (15360, 8640)

/-- Whether a cell yields view `v` in phase `p` (Table 6.2). -/
def viewInPhase (m v p : Nat) : Bool :=
  if mLayout m = 0 then
    if mTemporal m = 1 then decide (v / 32 < 16) && decide (v % 32 % 2 = p) else decide (v < 1024) && decide (v % 2 = p % 2) && decide (v / 32 % 2 = p / 2)
  else if mLayout m = 1 then (if mTemporal m = 1 then decide (v < 48) && decide (v % 2 = p) else decide (v < 96) && decide (v % 4 = p))
  else decide (v = 0)

/-- Whether region `r` is BAD (R291). -/
def State.regionBad (s : State) (r : Nat) : Bool :=
  let m := s.get R.VIEW_MODE_EFF_MODE
  let p := s.get R.COMP_SIG_CFG_PHASE r
  let w := s.get R.COMP_SIG_RECT_WH_W r
  let h := s.get R.COMP_SIG_RECT_WH_H r
  let im := imageSize m
  !viewInPhase m (s.get R.COMP_SIG_CFG_VIEW r) p || decide (modePhases m ≤ p) || decide (w = 0 ∨ h = 0) ||
    decide (im.1 < s.get R.COMP_SIG_RECT_XY_X r + w ∨ im.2 < s.get R.COMP_SIG_RECT_XY_Y r + h)

/-- BAD of every region, at a commit. -/
def State.regionsBad (s : State) : State := (List.range 16).foldl (fun t r => t.putB R.COMP_SIG_STAT_BAD (t.regionBad r) r) s

/-- Insertion by raster order. -/
def rasterInsert (x : Nat × Nat × Nat) : List (Nat × Nat × Nat) → List (Nat × Nat × Nat)
  | [] => [x]
  | y :: l => if x.1 < y.1 ∨ (x.1 = y.1 ∧ x.2.1 ≤ y.2.1) then x :: y :: l else y :: rasterInsert x l

/-- The signature of a region over the values collected for it (R292): raster order, then ascending columns. -/
def State.regionSig (s : State) (r : Nat) : Nat :=
  let vals := (s.comp.sigVals.filter (fun v => v.1 = r)).map (fun v => (v.2.1, v.2.2.1, v.2.2.2))
  let sorted := vals.foldr rasterInsert []
  crc32c (sorted.flatMap (fun v => [v.2.2 % 256, v.2.2 / 256]))

/-- The consecutive mismatches of a region. -/
def State.setRun (s : State) (r n : Nat) : State := { s with comp := { s.comp with sigRun := s.comp.sigRun.set r n } }

/-- A mismatch (R295). -/
def State.sigMismatch (s : State) (r : Nat) : State :=
  let n := s.comp.sigRun.getD r 0 + 1
  let s1 := ((s.bump R.COMP_SIG_STAT_MISMATCHES r).put R.COMP_SIG_MISMATCH (Word.setBit (s.get R.COMP_SIG_MISMATCH) r)).setRun r n
  let act := s1.get R.COMP_SIG_CFG_ACTION r
  let due := decide (max 1 (s1.get R.COMP_SIG_CFG_PERSIST r) ≤ n) && decide (1 ≤ act)
  let s2 := if due then (s1.raise .comp 2).recIrq .comp 2 else s1.recOther R.COMP_SIG_MISMATCH.base
  if due && decide (2 ≤ act) && s2.comp.safeDue.isNone then { s2 with comp := { s2.comp with safeDue := some (s2.time.raw, r) } } else s2

/-- SIGNATURE_CHECK (R292 to R295): an enabled region that is not BAD, once in a light-field frame. -/
def execSignatureCheck (r : Nat) (s : State) : Out :=
  if r < 16 ∧ s.flag R.COMP_SIG_CFG_EN r = true ∧ s.flag R.COMP_SIG_STAT_BAD r = false ∧ s.comp.checked.contains r = false then
    let clear (t : State) : State :=
      { t with comp := { t.comp with sigVals := t.comp.sigVals.filter (fun v => v.1 ≠ r), checked := r :: t.comp.checked } }
    let p := s.get R.COMP_SIG_CFG_PHASE r
    if s.intk.outcome ≠ 0 ∨ s.flag R.COMP_SAFE_STAT_ACTIVE = true ∨ s.renderPhase p ≠ p then
      .next (clear (s.bump R.COMP_SIG_STAT_SKIPPED r))
    else
      let sig := s.regionSig r
      let s1 := (clear s).put R.COMP_SIG_LAST sig r
      if s1.comp.learn.testBit r then
        .next { ((s1.put R.COMP_SIG_EXPECT sig r).putStaged R.COMP_SIG_EXPECT sig r) with
          comp := { s1.comp with learn := Word.clearBit s1.comp.learn r } }
      else if sig = s1.get R.COMP_SIG_EXPECT r then .next ((s1.put R.COMP_SIG_STAT_MATCH 1 r).setRun r 0)
      else .next ((s1.put R.COMP_SIG_STAT_MATCH 0 r).sigMismatch r)
  else .next s

/-- Writes of the command registers COMP_SIG[r].CTRL and COMP_SAFE_CTRL. -/
def State.sigCtrl (s : State) (r data : Nat) : State :=
  if data.testBit 0 then { s with comp := { s.comp with learn := Word.setBit s.comp.learn r } } else s

def State.safeCtrl (s : State) (data : Nat) : State :=
  let s1 : State := if data.testBit 0 then { s with comp := { s.comp with safeRelease := true, safeDue := none, sigRun := List.replicate 16 0 } } else s
  if data.testBit 1 then { s1 with comp := { s1.comp with safeForce := true } } else s1

/-- SIG_LEARN (R294). -/
def execSigLearn (r : Req) (i : Nat) (s : State) : Out :=
  .next (if i < 16 then s.mirrored (R.COMP_SIG_CTRL.off i 0) r 1 (fun t => t.sigCtrl i 1) else s)

/-- SAFE_RELEASE (R297). -/
def execSafeRelease (r : Req) (s : State) : Out := .next (s.mirrored R.COMP_SAFE_CTRL.base r 1 (fun t => t.safeCtrl 1))

/-- SAFE_FORCE (R297). -/
def execSafeForce (r : Req) (s : State) : Out := .next (s.mirrored R.COMP_SAFE_CTRL.base r 2 (fun t => t.safeCtrl 2))

/-- The safe image at a commit (R296, R297): RELEASE, then FORCE or a substitution decided at least 50 µs ago. -/
def State.safeCommit (s : State) : State :=
  let s1 : State :=
    if s.comp.safeRelease then
      { ((s.put R.COMP_SAFE_STAT_ACTIVE 0).put R.COMP_SAFE_STAT_FORCED 0) with comp := { s.comp with safeRelease := false } }
    else s
  let ripe := match s1.comp.safeDue with | some p => decide (p.1 + 50000 ≤ s1.time.raw) | none => false
  if s1.comp.safeForce ∨ ripe = true then
    let region := match s1.comp.safeDue with | some p => if ripe then p.2 else s1.get R.COMP_SAFE_STAT_REGION | none => s1.get R.COMP_SAFE_STAT_REGION
    let forced := s1.comp.safeForce
    let s2 : State := { s1 with comp := { s1.comp with safeForce := false, safeDue := if ripe then none else s1.comp.safeDue } }
    if s2.flag R.COMP_SAFE_STAT_ACTIVE then s2
    else if s2.flag R.COMP_SAFE_CFG_VALID && s2.registered (s2.get R.COMP_SAFE_CFG_BUF) then
      (((((s2.put R.COMP_SAFE_STAT_ACTIVE 1).putB R.COMP_SAFE_STAT_FORCED forced).put R.COMP_SAFE_STAT_REGION region).bump
        R.COMP_SAFE_STAT_COUNT).raise .comp 3).recIrq .comp 3
    else s2.recOther R.COMP_SAFE_CFG.base
  else s1

/-- CAL_INDEX_WRITE: latches the entry's four words. -/
def State.calIndexWrite (s : State) (data : Nat) : State :=
  let i := data % 2 ^ 20
  let w := descWords i (s.desc i)
  (List.range 4).foldl (fun t k => t.put R.COMP_CAL_DATA (w.getD k 0) k) (s.put R.COMP_CAL_INDEX i)

/-- CAL_INDEX_WRITE by any requester. -/
def execCalIndexWrite (_r : Req) (data : Nat) (s : State) : Out := .next (s.calIndexWrite data)

/-- READY becomes 1 (R299). -/
def State.compReady (s : State) : State :=
  { (s.put R.COMP_STAT_READY 1) with
    comp := { s.comp with coreExit := none }
    pseq := { s.pseq with waitReady := false } }

/-- READY_TIMEOUT (R299): 2,000 ms after CORE exit the stack plays as it stands, and the event is recorded. -/
def execReadyTimeout (s : State) : Out :=
  .next (if s.comp.coreExit.isSome ∧ s.flag R.COMP_STAT_READY = false then
    ({ s with comp := { s.comp with coreExit := none }, pseq := { s.pseq with waitReady := false } } : State).recOther R.COMP_STAT.base
  else s)

end Sys2Proof.Machine
end

