-- ==== Sys2Proof/Machine/Intake.lean ====
section
/-!
DEFINITION. Scene stream intake, transport (spec/07): RTP packets, the DMA ring, assembly of VSS units, concealment counters,
stand-alone play.
-/

namespace Sys2Proof.Machine

open Sys2Proof

/-! ### Concealment (R233, R234) -/

/-- An event of a frame and kind is noted. -/
def addNote (frame kind n : Nat) (plane : Option Nat) : List Note → List Note
  | [] => [⟨frame, kind, n, plane⟩]
  | x :: l =>
    if x.frame = frame ∧ x.kind = kind then { x with count := x.count + n, plane := x.plane.or plane } :: l
    else x :: addNote frame kind n plane l

/-- Advances INTK_CONCEAL[i] by `n`, sets CONCEAL, and notes the events for the one entry of their frame and kind. -/
def State.conceal (s : State) (i n frame : Nat) (plane : Option Nat) : State :=
  if n = 0 then s
  else
    let s1 := (s.bumpBy R.INTK_CONCEAL n i).raise .intk 2
    if s1.intk.told.contains (frame, i) then s1
    else { s1 with intk := { s1.intk with notes := addNote frame i n plane s1.intk.notes } }

/-- Whether anything of a frame was concealed. -/
def State.concealed (s : State) (frame : Nat) : Bool :=
  s.intk.notes.any (fun x => x.frame = frame) || s.intk.told.any (fun x => x.1 = frame)

/-- The entry of a frame and kind (R234): FRAME_SEQ, the number of events with the kind, the first plane affected. -/
def State.tellNote (s : State) (x : Note) : State :=
  let s1 : State := { s with intk := { s.intk with told := ((x.frame, x.kind) :: s.intk.told).take 4096 } }
  s1.offer 9 1 3 0x300 x.frame (min x.count 65535 + 65536 * x.kind) (.val (x.plane.getD 0))

/-! ### VSS units (R211, R213) -/

/-- Fields of the unit header (Table 7.3) and the payload. -/
def uType (u : List Byte) : Nat := leAt u 2 1
def uGen (u : List Byte) : Nat := leAt u 3 1
def uFlags (u : List Byte) : Nat := leAt u 4 2
def uNo (u : List Byte) : Nat := leAt u 6 2
def uFrame (u : List Byte) : Nat := leAt u 8 4
def uLen (u : List Byte) : Nat := leAt u 12 4
def uPayload (u : List Byte) : List Byte := (u.drop 16).take (uLen u)
def uSync (u : List Byte) : Bool := decide (leAt u 0 2 = 0x5356)

/-- Payload limit of a unit type (Table 7.4); none: the type is refused. -/
def unitLimit (t : Nat) : Option Nat :=
  if t = 1 then some 192 else if t = 2 then some 2080 else if t = 3 ∨ t = 4 ∨ t = 5 then some 33554432 else if t = 6 then some 16777216
  else if t = 7 then some 260 else if t = 8 then some 324 else if 0x80 ≤ t then some 33554432 else none

/-- Whether the flags of a unit are those its type allows: bit 0 ENC, bit 1 COMP, the others 0. -/
def flagsOk (t f : Nat) : Bool :=
  if 0x80 ≤ t then true
  else decide (f / 4 = 0) && (!f.testBit 0 || decide (3 ≤ t ∧ t ≤ 5)) && (!f.testBit 1 || decide (t = 2 ∨ t = 4 ∨ t = 5 ∨ t = 6))

/-- The newest sequence accepted. -/
def State.seqHdr (s : State) : Option SeqHdr := match s.intk.next with | some h => some h | none => s.intk.cur

/-- The sequence a frame belongs to: the new one from its first frame on (R215). -/
def State.frameSeq (s : State) (f : FrameSt) : Option SeqHdr := if f.fresh && s.intk.next.isSome then s.intk.next else s.intk.cur

/-- The sequences whose GEN a unit may have (R213): that of its frame, once its header is known, else those accepted. -/
def State.unitSeqs (s : State) (frame : Nat) : List SeqHdr :=
  match s.intk.frames.find? (fun x => x.seq = frame) with
  | some f => (s.frameSeq f).toList
  | none => s.intk.cur.toList ++ s.intk.next.toList

/-- Whether a unit breaks Table 7.4 (R213). -/
def State.unitBad (s : State) (u : List Byte) : Bool :=
  match unitLimit (uType u) with
  | none => true
  | some lim => decide (lim < uLen u) || !flagsOk (uType u) (uFlags u) ||
      (decide (uType u ≠ 1 ∧ uType u < 0x80) && !(s.unitSeqs (uFrame u)).isEmpty && !(s.unitSeqs (uFrame u)).any (fun h => h.gen = uGen u))

/-- Drops the units for which `p` holds. -/
def State.dropUnits (s : State) (p : VssUnit → Bool) : State :=
  { s with intk := { s.intk with ready := s.intk.ready.filter (fun u => !p u) } }

/-- A unit is complete; it takes room in the intake buffer while its frame is displayed or to come (R205). -/
def State.unitReady (s : State) (born : Nat) (bytes : List Byte) : State :=
  { s with intk := { s.intk with
    ready := s.intk.ready ++ [VssUnit.mk born bytes]
    kept := s.intk.kept ++ [(uFrame bytes, bytes.length)] } }

/-! ### RTP (R202 to R205) -/

/-- Fields of an RTP packet (RFC 3550): version, payload type, sequence number, SSRC. -/
def rtpVersion (b : List Byte) : Nat := beAt b 0 1 / 64
def rtpPt (b : List Byte) : Nat := beAt b 1 1 % 128
def rtpSeqNo (b : List Byte) : Nat := beAt b 2 2
def rtpSsrc (b : List Byte) : Nat := beAt b 8 4

/-- Whether a packet is RTCP: its packet type, 192 to 223, stands where the marker and payload type of RTP do (RFC 5761; log entry 90). -/
def rtcp (b : List Byte) : Bool := decide (192 ≤ beAt b 1 1 ∧ beAt b 1 1 ≤ 223)

/-- The payload of an RTP packet, CSRC list, header extension and padding skipped; none when they do not fit. -/
def rtpPayload (b : List Byte) : Option (List Byte) :=
  let csrc := 12 + 4 * (beAt b 0 1 % 16)
  let head := if (beAt b 0 1).testBit 4 then csrc + 4 + 4 * beAt b (csrc + 2) 2 else csrc
  let pad := if (beAt b 0 1).testBit 5 then beAt b (b.length - 1) 1 else 0
  if head + pad ≤ b.length then some ((b.take (b.length - pad)).drop head) else none

/-- Whether an address is the unicast address of the Ethernet port, or a group the intake has joined (R202). -/
def State.rtpAddressed (s : State) (port : Nat) : IpDst → Bool
  | .v4 a => decide (a ≠ 0) && (decide (a = s.ipv4 port) || decide (a = s.get R.INTK_MCAST4))
  | .v6 w =>
    let mine := (List.range 4).map (fun i => s.get R.INTK_MCAST6 i)
    (s.ipv6 port).contains w || (decide (w = mine) && mine.any (fun x => decide (x ≠ 0)))

/-- Whether an RTP packet is one the intake takes (R202). -/
def State.rtpMine (s : State) (p : RtpPacket) : Bool :=
  !s.powerDown && decide (s.intk.src = 0) && decide (p.port = s.get R.INTK_CTRL_ETH_PORT) && s.rtpAddressed p.port p.dst &&
    decide (p.udp = s.get R.INTK_RTP_UDP_PORT) && decide (rtpVersion p.bytes = 2) && !rtcp p.bytes &&
    (s.flag R.INTK_RTP_PT_ANY || decide (rtpPt p.bytes = s.get R.INTK_RTP_PT)) && (rtpPayload p.bytes).isSome

/-- The byte at position `i` of a unit: the first fragment received that holds it. -/
def fragByte (frags : List (Nat × List Byte)) (i : Nat) : Option Byte :=
  (frags.find? (fun f => decide (f.1 ≤ i ∧ i < f.1 + f.2.length))).bind (fun f => f.2[i - f.1]?)

/-- The bytes of a unit, once all `n` have arrived. -/
def fragBytes (frags : List (Nat × List Byte)) (n : Nat) : Option (List Byte) := (List.range n).mapM (fragByte frags)

/-- The unit's bytes when it is complete (R204): every byte from 0 to 15 + LENGTH. -/
def PartUnit.whole (p : PartUnit) : Option (List Byte) :=
  match fragBytes p.frags 16 with
  | none => none
  | some h => fragBytes p.frags (16 + uLen h)

/-- Light-field frames with units in the intake buffer that are not yet displayed. -/
def State.bufferedFrames (s : State) : List Nat :=
  let l := s.intk.frames.map (·.seq) ++ s.intk.ready.map (fun u => uFrame u.bytes) ++ s.intk.parts.map (·.frame)
  (l.filter (fun f => match s.intk.shown with | some d => decide (f ≠ d) | none => true)).eraseDups

/-- Bytes in the intake buffer (R205): units of the displayed frame and of later ones, partly received units, the DMA stream. -/
def State.intakeBytes (s : State) : Nat :=
  let held := s.intk.kept.filter (fun k => decide (s.intk.shown = some k.1) || s.bufferedFrames.contains k.1)
  (held.map (·.2)).foldl (· + ·) 0 + (s.intk.parts.map (fun p => (p.frags.map (·.2.length)).foldl (· + ·) 0)).foldl (· + ·) 0 +
    s.intk.stream.length

/-- Drops the partial units of the oldest incomplete frame (R205). -/
def State.dropOldest (s : State) : State :=
  match s.intk.parts with
  | [] => s
  | p :: l =>
    let f := (l.map (·.frame)).foldl (fun a b => if Word.reached b a then a else b) p.frame
    { s with intk := { s.intk with parts := s.intk.parts.filter (fun x => x.frame ≠ f) } }

/-- Places one fragment (R204, R205); one of a unit received whole is a duplicate. -/
def State.placeFragment (s : State) (frame unit off : Nat) (bytes : List Byte) : State :=
  if s.intk.whole.contains (frame, unit) then s
  else
    let fresh := !s.bufferedFrames.contains frame
    let s1 := if (fresh && decide (4 ≤ s.bufferedFrames.length)) || decide (512 * mib < s.intakeBytes + bytes.length) then s.dropOldest else s
    let old := s1.intk.parts.find? (fun p => p.frame = frame && p.unit = unit)
    let p : PartUnit := match old with
      | some p => { p with frags := p.frags ++ [(off, bytes)] }
      | none => ⟨frame, unit, s1.intk.arrivals, [(off, bytes)], none⟩
    let rest := s1.intk.parts.filter (fun p => !(p.frame = frame && p.unit = unit))
    match p.whole with
    | some b =>
      ({ s1 with intk := { s1.intk with parts := rest, whole := ((frame, unit) :: s1.intk.whole).take 4096 } } : State).unitReady p.born b
    | none => { s1 with intk := { s1.intk with parts := rest ++ [p] } }

/-- Counts a gap in RTP sequence numbers (R205). -/
def State.rtpGap (s : State) (seq frame : Nat) : State :=
  let s1 : State := { s with intk := { s.intk with rtpSeq := some ((seq + 1) % 65536) } }
  match s.intk.rtpSeq with
  | none => s1
  | some e =>
    let d := (seq + 65536 - e) % 65536
    if d = 0 then s1 else if d < 32768 then s1.conceal 9 d frame none else s

/-- An RTP packet (R202 to R205). A payload too short for the header of Table 7.1 is discarded as one of the wrong version is. Until the
first sequence header locks an SSRC, other packets are discarded and count nothing. -/
def State.rtpTake (s : State) (p : RtpPacket) : State :=
  if s.rtpMine p then
    let load := (rtpPayload p.bytes).getD []
    let frame := beAt load 4 4
    let off := beAt load 8 4
    let body := load.drop 12
    let locked := s.flag R.INTK_STAT_SSRC_LOCK
    let opens := decide (off = 0) && uSync body && decide (uType body = 1)
    if locked ∧ rtpSsrc p.bytes ≠ s.get R.INTK_SSRC then s.conceal 8 1 frame none
    else if load.length < 12 ∨ leAt load 0 1 / 64 ≠ 1 then s.conceal 7 1 frame none
    else if !locked && !opens then s
    else
      let s1 := if locked then s else (s.put R.INTK_SSRC (rtpSsrc p.bytes)).put R.INTK_STAT_SSRC_LOCK 1
      let s2 := s1.rtpGap (rtpSeqNo p.bytes) frame
      let s3 : State := { s2 with intk := { s2.intk with arrivals := s2.intk.arrivals + 1 } }
      s3.placeFragment frame (beAt load 2 2) off body
  else s

/-- RTP_PACKET. -/
def execRtpPacket (p : RtpPacket) (s : State) : Out := .next (s.rtpTake p)

/-- The SSRC lock is released (R203): the stream has ended, and the next one sets a reference of its own (R55, R227). -/
def State.ssrcRelease (s : State) : State :=
  if s.flag R.INTK_STAT_SSRC_LOCK then
    ({ (s.put R.INTK_STAT_SSRC_LOCK 0) with intk := { s.intk with rtpSeq := none, ref := none, rebase := false, outRun := 0 } } : State).raise .intk 7
  else s

/-- The input of stand-alone play is gone or changed: the 5 s of R53 run from the first such event. -/
def State.inputMark (s : State) : State :=
  if s.intk.mark.isNone then { s with intk := { s.intk with mark := some s.time.raw } } else s

/-- SSRC_TIMEOUT: 2,000 ms without a packet of the locked SSRC. -/
def execSsrcTimeout (s : State) : Out := .next (if s.flag R.INTK_STAT_SSRC_LOCK then s.ssrcRelease.inputMark else s)

/-- INTK_STAT of the sequence in effect. -/
def State.seqStat (s : State) (h : Option SeqHdr) : State :=
  match h with
  | some q => (((s.put R.INTK_STAT_FORMAT q.format).put R.INTK_STAT_ADAPTER q.gen).put R.INTK_STAT_PLAYING 1).put R.INTK_STAT_TRACKS
      (q.bind.filter (·.isSome)).length
  | none => (((s.put R.INTK_STAT_FORMAT 0x3F).put R.INTK_STAT_ADAPTER 0).put R.INTK_STAT_PLAYING 0).put R.INTK_STAT_TRACKS 0

/-- IN_USE of every key slot (Table 7.15): bound by a key cue of the sequence in effect, that is of its first frame or a later one. -/
def State.keysInUse (s : State) : State :=
  let bound (kid : List Byte) : Bool := match s.intk.cur with
    | some h => s.intk.binds.any (fun b => decide (b.2.2 = kid) && (match h.first with | some f => Word.reached b.1 f | none => true))
    | none => false
  (List.range 64).foldl (fun t n =>
    match s.intk.keys.find? (fun k => decide (k.slot = n ∧ k.till = none)) with
    | some k => t.putB R.INTK_KEY_STAT_IN_USE (bound k.kid) n
    | none => t.put R.INTK_KEY_STAT_IN_USE 0 n) s

/-- A change of SRC takes effect (R201): partly received units of the old input are discarded, with the bytes of a descriptor in flight, the
SSRC lock is released, and the last frame repeats until the new input delivers a sequence. -/
def State.srcSwitch (s : State) : State :=
  let src := s.get R.INTK_CTRL_SRC
  if s.intk.src = src then s
  else
    let s1 := s.ssrcRelease.inputMark.seqStat none
    ({ s1 with
      intk := { s1.intk with
        src := src, parts := [], ready := [], stream := [], dma := none, stall := false, scan := false, frames := [], cur := none, next := none,
        refused := false, ref := none, outRun := 0, rebase := false, dpTiming := none, whole := [] }
      comp := { s1.comp with
        wrote := []
        used := s1.comp.used.filter (fun i => !(s1.comp.wrote.map (·.addr)).contains i) } } : State).keysInUse

/-! ### Host DMA (R206 to R208, R212) -/

/-- Entries of the intake ring. -/
def State.dmaEntries (s : State) : Nat := ringEntries (s.get R.INTK_DMA_SIZE)

/-- A ring error: ERR, DMA_ERR; `halt`: the ring halts at its descriptor. -/
def State.dmaError (s : State) (code : Nat) (halt : Bool) : State :=
  let s1 := s.put R.INTK_DMA_STAT_ERR code
  (if halt then (s1.put R.INTK_DMA_STAT_HALTED 1).put R.INTK_DMA_STAT_RUNNING 0 else s1).raise .intk 3

/-- INTK_DMA_HEAD takes an index below 2^SIZE; another write is ignored with ERR 0x24. -/
def State.dmaHead (s : State) (v : Nat) : State :=
  if v % 4096 < s.dmaEntries then s.put R.INTK_DMA_HEAD v else s.dmaError 0x24 false

/-- INTK_DMA_CTRL: START, RESTART, STOP. -/
def State.dmaStart (s : State) : State := if s.flag R.INTK_DMA_STAT_HALTED then s else s.put R.INTK_DMA_STAT_RUNNING 1
def State.dmaRestart (s : State) : State :=
  let s1 := if s.flag R.INTK_DMA_STAT_HALTED then s.put R.INTK_DMA_STAT_RUNNING 1 else s
  (s1.put R.INTK_DMA_STAT_ERR 0).put R.INTK_DMA_STAT_HALTED 0
def State.dmaStop (s : State) : State := s.put R.INTK_DMA_STAT_RUNNING 0
def State.dmaCtrl (s : State) (data : Nat) : State :=
  let s1 := if data.testBit 0 then s.dmaStart else s
  let s2 := if data.testBit 1 then s1.dmaRestart else s1
  if data.testBit 2 then s2.dmaStop else s2

/-- DMA_HEAD_WRITE (R206, R208). -/
def execDmaHeadWrite (_r : Req) (v : Nat) (s : State) : Out := .next (s.dmaHead v)

/-- DMA_START. -/
def execDmaStart (_r : Req) (s : State) : Out := .next s.dmaStart

/-- DMA_RESTART. -/
def execDmaRestart (_r : Req) (s : State) : Out := .next s.dmaRestart

/-- DMA_STOP. -/
def execDmaStop (_r : Req) (s : State) : Out := .next s.dmaStop

/-- Whether all units of a frame have arrived (R216): those taken, and those that wait to be read. -/
def State.arrived (s : State) (f : FrameSt) : Bool :=
  let waiting (t : Nat) : Nat := (s.intk.ready.filter (fun u => uFrame u.bytes = f.seq && uType u.bytes = t)).length
  decide (f.atlases ≤ f.atlasIn + waiting 3) && decide (f.masks ≤ f.maskIn + waiting 4) && (!f.resid || decide (1 ≤ f.residIn + waiting 5))

/-- Whether the ring must stall (R207): the buffer holds 4 complete frames beyond the displayed one, or is full. -/
def State.dmaFull (s : State) : Bool :=
  decide (4 ≤ (s.intk.frames.filter s.arrived).length) || decide (512 * mib ≤ s.intakeBytes)

/-- TAIL advances and is written back (R206); a descriptor with IRQ sets DMA_DESC. -/
def State.dmaAdvance (s : State) (flags : Nat) : State :=
  let s1 := s.put R.INTK_DMA_TAIL ((s.get R.INTK_DMA_TAIL + 1) % s.dmaEntries)
  let wb := s1.get R.INTK_DMA_WB
  let s2 := if wb ≠ 0 then s1.emit (.hostWrite wb (Word.toLe 4 (s1.get R.INTK_DMA_TAIL))) else s1
  s2.raiseIf (flags.testBit 1) .intk 4

/-- Checks the descriptor at TAIL and starts moving its bytes, or halts the ring (R208); checks go in the order of the table. -/
def State.dmaTake (s : State) (d : List Byte) : State :=
  let addr := leAt d 0 8
  let len := leAt d 8 4
  let flags := leAt d 12 4
  if flags.testBit 0 ∧ s.regionOk .intk false addr len = false then s.dmaError 0x17 true
  else if 16777216 < len then s.dmaError 0x20 true
  else if 4 ≤ flags then s.dmaError 0x21 true
  else if 2 ^ 64 < addr + len then s.dmaError 0x22 true
  else if len = 0 then s.dmaAdvance flags
  else { s with intk := { s.intk with dma := some (addr, len, flags) } }

/-- Whether a descriptor waits at TAIL and may be looked at. -/
def State.dmaReady (s : State) : Bool :=
  s.flag R.INTK_DMA_STAT_RUNNING && !s.flag R.INTK_DMA_STAT_HALTED && decide (s.get R.INTK_DMA_TAIL ≠ s.get R.INTK_DMA_HEAD) &&
    s.intk.dma.isNone && decide (s.intk.src = 1) && !s.powerDown

/-- The descriptor at TAIL is read from host memory, or that read ends in an error (R208). -/
def State.dmaRead (s : State) (d : Option (List Byte)) : State :=
  match d with
  | some b => s.dmaTake b
  | none => s.dmaError 0x23 true

/-- DMA_DESCRIPTOR_PROCESS (R206 to R208): `d` is the descriptor the module reads at TAIL, none when the host's answer is an error. -/
def execDmaDescriptorProcess (d : Option (List Byte)) (s : State) : Out :=
  .next (if s.dmaReady && !s.intk.stall then (if s.dmaFull then { s with intk := { s.intk with stall := true } } else s.dmaRead d) else s)

/-- DMA_RING_RESUME (R207): frames have been displayed, and the descriptor at TAIL is processed. -/
def execDmaRingResume (d : Option (List Byte)) (s : State) : Out :=
  if s.intk.stall ∧ s.dmaFull = false then
    let s1 : State := { s with intk := { s.intk with stall := false } }
    .next (if s1.dmaReady then s1.dmaRead d else s1)
  else .next s

/-- Whether a header on the byte stream opens a unit (R212): SYNC, GEN 1 to 5; while scanning also a type that is not refused and a
LENGTH within its limit, otherwise a LENGTH no unit exceeds. -/
def opensUnit (scan : Bool) (l : List Byte) : Bool :=
  uSync l && decide (1 ≤ uGen l ∧ uGen l ≤ 5) &&
    (match unitLimit (uType l) with
     | some lim => if scan then decide (uLen l ≤ lim) else decide (uLen l ≤ 33554432)
     | none => !scan && decide (uLen l ≤ 33554432))

/-- Takes units off the byte stream, skipping bytes where no header is valid; `k` bounds the work. Answers the stream left, whether it
scans, the units, and the bytes skipped. -/
def parseStream : Nat → Bool → List Byte → List (List Byte) → Nat → Bool × List Byte × List (List Byte) × Nat
  | 0, scan, l, us, n => (scan, l, us, n)
  | k + 1, scan, l, us, n =>
    if l.length < 16 then (scan, l, us, n)
    else if opensUnit scan l then
      if l.length < 16 + uLen l then (false, l, us, n)
      else parseStream k false (l.drop (16 + uLen l)) (us ++ [l.take (16 + uLen l)]) n
    else parseStream k true (l.drop 1) us (n + 1)

/-- Bytes join the stream and complete units are taken off it. -/
def State.streamBytes (s : State) (bytes : List Byte) : State :=
  let l := s.intk.stream ++ bytes
  let (scan, rest, us, skipped) := parseStream (l.length + 1) s.intk.scan l [] 0
  let born := s.intk.arrivals + 1
  let s1 : State := { s with intk := { s.intk with stream := rest, scan := scan, arrivals := born } }
  (us.foldl (fun t u => t.unitReady born u) s1).conceal 11 skipped (s.intk.shown.getD 0) none

/-- A host read has ended in an error (R208): the units complete by then stay, the one left incomplete is lost, and the ring halts. -/
def State.dmaAbort (s : State) (bytes : List Byte) : State :=
  let s1 := s.streamBytes bytes
  ({ s1 with intk := { s1.intk with stream := [], scan := false } } : State).dmaError 0x23 true

/-- DMA_DESCRIPTOR_DONE (R206, R208): the descriptor's bytes are in; `bytes` are those the host answered with, `abort` a read that
ended in an error (the bytes moved before it stay). -/
def execDmaDescriptorDone (bytes : List Byte) (abort : Bool) (s : State) : Out :=
  match s.intk.dma with
  | none => .next s
  | some (addr, len, flags) =>
    let s1 : State := { s with intk := { s.intk with dma := none } }
    if flags.testBit 0 then .next ((s1.streamBytes (s1.readBytes addr len)).dmaAdvance flags)
    else if abort ∨ bytes.length < len then .next (s1.dmaAbort (bytes.take len))
    else .next ((s1.streamBytes (bytes.take len)).dmaAdvance flags)

end Sys2Proof.Machine
end

