-- ==== Sys2Proof/Machine/Blt.lean ====
section
/-!
DEFINITION. Overlay blitter (spec/10): the checks of a command, its pixels, the ring, overlay cues, watermarks. A command's pixels are
written when it is taken; its completion words come with BLT_COMMAND_DONE.
-/

namespace Sys2Proof.Machine

open Sys2Proof

/-! ### Descriptors (Table 10.2) and surfaces (R300) -/

def bltOp (d : List Byte) : Nat := leAt d 0 1
def bltFlags (d : List Byte) : Nat := leAt d 1 1
def bltClips (d : List Byte) : Nat := leAt d 2 1
def bltDstFmt (d : List Byte) : Nat := leAt d 3 1 % 16
def bltSrcFmt (d : List Byte) : Nat := leAt d 3 1 / 16
def bltW (d : List Byte) : Nat := leAt d 4 2
def bltH (d : List Byte) : Nat := leAt d 6 2
def bltDstX (d : List Byte) : Int := leAtI d 8 2
def bltDstY (d : List Byte) : Int := leAtI d 10 2
def bltSrcX (d : List Byte) : Nat := leAt d 12 2
def bltSrcY (d : List Byte) : Nat := leAt d 14 2
def bltWait (d : List Byte) : Bool := (bltFlags d).testBit 1
def bltWm (d : List Byte) : Nat := bltFlags d / 4 % 4
def bltColor (d : List Byte) : List Nat := readPixel 5 (leAt d 0x30 8)

/-- A surface: address, pitch, width, height, format. -/
structure Surface where
  addr : Nat
  pitch : Nat
  w : Nat
  h : Nat
  fmt : Nat
  deriving DecidableEq, Repr

def bltDst (d : List Byte) : Surface := ⟨leAt d 0x10 8, leAt d 0x18 4, leAt d 0x1C 2, leAt d 0x1E 2, bltDstFmt d⟩
def bltSrc (d : List Byte) : Surface := ⟨leAt d 0x20 8, leAt d 0x28 4, leAt d 0x2C 2, leAt d 0x2E 2, bltSrcFmt d⟩

/-- Size of a surface out of range. -/
def Surface.sizeBad (f : Surface) : Bool := decide (f.w = 0 ∨ 32768 < f.w ∨ f.h = 0 ∨ 32768 < f.h)

/-- Pitch or address alignment broken. -/
def Surface.alignBad (f : Surface) : Bool :=
  decide (f.pitch % 64 ≠ 0 ∨ f.pitch < 64 ∨ 1048512 < f.pitch ∨ f.pitch < f.w * formatBytes f.fmt ∨
    f.addr % (if f.fmt = 5 then 128 else 64) ≠ 0)

/-- Bytes of the footprint. -/
def Surface.len (f : Surface) : Nat := f.pitch * (f.h - 1) + f.w * formatBytes f.fmt

/-- The address of a pixel. -/
def Surface.at_ (f : Surface) (x y : Nat) : Nat := f.addr + y * f.pitch + x * formatBytes f.fmt

/-! ### Checks (R304, Table 10.3, R305) -/

/-- A reserved bit or field that is not 0. -/
def bltReserved (d : List Byte) : Bool := decide (16 ≤ bltFlags d ∨ leAt d 0x38 8 ≠ 0 ∨ leAt d 0x60 16 ≠ 0)

/-- Check 1. -/
def bltDescBad (d : List Byte) : Bool :=
  if bltOp d = 0 then bltReserved d
  else
    bltReserved d || decide (3 < bltOp d ∨ 5 < bltDstFmt d ∨ 4 < bltClips d ∨ 32768 < bltW d ∨ 32768 < bltH d) || (bltDst d).sizeBad ||
      (decide (bltOp d ≠ 2) && (decide (5 < bltSrcFmt d) || (bltSrc d).sizeBad))

/-- The code of the first check that fails, or 0. -/
def State.bltCheck (s : State) (d : List Byte) : Nat :=
  let src := bltSrc d
  let dst := bltDst d
  let two := decide (bltOp d ≠ 2)
  if bltDescBad d then 0x50
  else if bltOp d = 0 ∨ bltW d = 0 ∨ bltH d = 0 then 0
  else if dst.alignBad || (two && src.alignBad) then 0x51
  else if !s.regionOk .blt true dst.addr dst.len || (two && !s.regionOk .blt false src.addr src.len) then 0x17
  else if two && decide (src.w < bltSrcX d + bltW d ∨ src.h < bltSrcY d + bltH d) then 0x52
  else if bltOp d = 3 ∧ dst.fmt ≠ 0 ∧ dst.fmt ≠ 5 then 0x53
  else if two && overlaps src.addr src.len dst.addr dst.len && decide (src.addr ≠ dst.addr ∨ src.pitch ≠ dst.pitch ∨ src.fmt ≠ dst.fmt) then 0x54
  else 0

/-! ### Pixels (R306 to R309) -/

/-- Whether a destination pixel is written (R306). -/
def bltClip (d : List Byte) (x y : Int) : Bool :=
  let dst := bltDst d
  let inBox (i : Nat) : Bool :=
    let o := 0x40 + 8 * i
    let cx := leAtI d o 2
    let cy := leAtI d (o + 2) 2
    decide (cx ≤ x ∧ x < cx + (leAt d (o + 4) 2 : Int) ∧ cy ≤ y ∧ y < cy + (leAt d (o + 6) 2 : Int))
  decide (0 ≤ x ∧ x < (dst.w : Int) ∧ 0 ≤ y ∧ y < (dst.h : Int)) && (decide (bltClips d = 0) || (List.range (bltClips d)).any inBox)

/-- A pixel of a surface, in 12-bit R, G, B, A. -/
def State.pixel (s : State) (f : Surface) (x y : Nat) : List Nat := readPixel f.fmt (s.readLe (f.at_ x y) (formatBytes f.fmt))

/-- A 12-bit value scaled by m / 4,095 (R309). -/
def scale12 (v m : Nat) : Nat := (v * m + 2047) / 4095

/-- DRAW of a source pixel over a destination pixel (R309). -/
def drawPixel (srcFmt : Nat) (color src dst : List Nat) : List Nat :=
  let m := src.getD 3 0
  let smp := if srcFmt = 3 ∨ srcFmt = 4 then color.map (fun c => scale12 c m) else src
  let a := smp.getD 3 0
  (List.range 4).map (fun i => min 4095 (smp.getD i 0 + scale12 (dst.getD i 0) (4095 - a)))

/-- The value a command writes at offset (i, j) of its rectangle. -/
def State.bltPixel (s : State) (d : List Byte) (x y i j : Nat) : List Nat :=
  match bltOp d with
  | 1 => s.pixel (bltSrc d) (bltSrcX d + i) (bltSrcY d + j)
  | 2 => bltColor d
  | _ => drawPixel (bltSrcFmt d) (bltColor d) (s.pixel (bltSrc d) (bltSrcX d + i) (bltSrcY d + j)) (s.pixel (bltDst d) x y)

/-- Adjacent bytes joined into runs. -/
def joinRuns : List (Nat × List Byte) → List (Nat × List Byte)
  | [] => []
  | (a, b) :: l =>
    match joinRuns l with
    | (c, e) :: r => if c = a + b.length then (a, b ++ e) :: r else (a, b) :: (c, e) :: r
    | [] => [(a, b)]

/-- The pixels row `j` of a command writes, all read before anything is written (R308). -/
def State.bltRow (s : State) (d : List Byte) (j : Nat) : List (Nat × List Byte) :=
  let dst := bltDst d
  let y := bltDstY d + (j : Int)
  (List.range (bltW d)).filterMap (fun (i : Nat) =>
    let x := bltDstX d + (i : Int)
    if bltClip d x y then
      some (dst.at_ x.toNat y.toNat, Word.toLe (formatBytes dst.fmt) (writePixel dst.fmt (s.bltPixel d x.toNat y.toNat i j)))
    else none)

/-- All pixels of a command, row by row. -/
def State.bltPixels (s : State) (d : List Byte) : List (List (Nat × List Byte)) := (List.range (bltH d)).map (s.bltRow d)

/-- Writes rows of pixels as the blitter does, each run of adjacent pixels in one write (R310). -/
def State.bltWrite (s : State) (rows : List (List (Nat × List Byte))) : State :=
  rows.foldl (fun t r => (joinRuns r).foldl (fun u w => u.guardedWrite true w.1 w.2 u.time.raw) t) s

/-! ### What was drawn into an overlay's surfaces (R278) -/

/-- Notes what a ring command drew: its rectangle when its surface is the buffer's, else the whole buffer. -/
def State.noteCommand (s : State) (d : List Byte) : State :=
  let dst := bltDst d
  match (s.buffersOf dst.addr dst.len).head? with
  | none => s
  | some b =>
    let same := decide (dst.addr = s.bufBase b ∧ dst.pitch = s.get R.COMP_BUF_PITCH b)
    s.noteDrawn b (if same then boxOf (bltDstX d) (bltDstY d) (bltW d) (bltH d) dst.w dst.h
      else ⟨0, 0, s.get R.COMP_BUF_SIZE_W b, s.get R.COMP_BUF_SIZE_H b⟩)

/-! ### The ring (R303) -/

def State.bltEntries (s : State) : Nat := ringEntries (s.get R.BLT_RING_SIZE)

/-- The address of the descriptor at TAIL. -/
def State.bltAddr (s : State) : Nat := s.get R.BLT_RING_BASE * 4096 + 128 * s.get R.BLT_RING_TAIL

/-- Whether a command stands at TAIL of a running ring. -/
def State.bltWaiting (s : State) : Bool :=
  s.flag R.BLT_RING_STAT_RUNNING && !s.flag R.BLT_RING_STAT_HALTED && decide (s.get R.BLT_RING_TAIL ≠ s.get R.BLT_RING_HEAD)

/-- The command at TAIL has just reached it: fires before this do not count for its WAIT. -/
def State.bltReached (s : State) : State := { (s.put R.BLT_RING_STAT_WAITING 0) with blt := { s.blt with fired := [] } }

/-- BLT_RING_HEAD takes an index below 2^SIZE; another write is ignored with ERR 0x24. -/
def State.bltHead (s : State) (v : Nat) : State :=
  if v % 4096 < s.bltEntries then
    let s1 := s.put R.BLT_RING_HEAD v
    if s.get R.BLT_RING_HEAD = s.get R.BLT_RING_TAIL then s1.bltReached else s1
  else s.put R.BLT_RING_STAT_ERR 0x24

/-- BLT_HEAD_WRITE. -/
def execBltHeadWrite (_r : Req) (v : Nat) (s : State) : Out := .next (s.bltHead v)

/-- START, RESTART and STOP of BLT_RING_CTRL. -/
def State.bltStart (s : State) : State := if s.flag R.BLT_RING_STAT_HALTED then s else s.put R.BLT_RING_STAT_RUNNING 1
def State.bltRestart (s : State) : State :=
  let s1 := if s.flag R.BLT_RING_STAT_HALTED then s.put R.BLT_RING_STAT_RUNNING 1 else s
  (s1.put R.BLT_RING_STAT_ERR 0).put R.BLT_RING_STAT_HALTED 0
def State.bltStop (s : State) : State := (s.put R.BLT_RING_STAT_RUNNING 0).put R.BLT_RING_STAT_WAITING 0
def State.bltRingCtrl (s : State) (data : Nat) : State :=
  let s1 := if data.testBit 0 then s.bltStart else s
  let s2 := if data.testBit 1 then s1.bltRestart else s1
  if data.testBit 2 then s2.bltStop else s2

/-- BLT_RING_START. -/
def execBltRingStart (_r : Req) (s : State) : Out := .next s.bltStart

/-- BLT_RING_RESTART. -/
def execBltRingRestart (_r : Req) (s : State) : Out := .next s.bltRestart

/-- BLT_RING_STOP. -/
def execBltRingStop (_r : Req) (s : State) : Out := .next s.bltStop

/-- Whether the ring's base and the descriptor at TAIL lie in the region table (R244). -/
def State.bltRegion (s : State) : Bool :=
  s.regionOk .blt false (s.get R.BLT_RING_BASE * 4096) 1 && s.regionOk .blt false s.bltAddr 128

/-- The ring halts on its descriptor with ERR 0x17. -/
def State.bltHalt (s : State) : State :=
  (((s.put R.BLT_RING_STAT_ERR 0x17).put R.BLT_RING_STAT_HALTED 1).put R.BLT_RING_STAT_RUNNING 0).raise .blt 2

/-- The completion words of a ring command, in one write; the counters and flags of its end. -/
def State.bltEnd (s : State) (c : BltCmd) (err : Nat) : State :=
  let words := [BitVec.ofNat 8 (if err = 0 then 0 else 3), BitVec.ofNat 8 err, 0, 0] ++ Word.toLe 4 (if err = 0 ∨ err = 0x55 then c.pixels else 0) ++
    Word.toLe 8 0
  let s1 := if c.cue.isNone then s.writeBytes (c.addr + 0x70) words else s
  let s2 := (s1.bump R.BLT_DONE_COUNT).raiseIf (c.flags.testBit 0) .blt 0
  let s3 := if err = 0 then s2
    else (((s2.put R.BLT_LAST_ERR_ERR err).put R.BLT_LAST_ERR_INDEX c.index).putB R.BLT_LAST_ERR_CUE c.cue.isSome).raise .blt 1
  { s3 with blt := { s3.blt with cmd := none } }

/-- Takes the ring command at TAIL when it is of a kind `want` names: R303's order and WAIT, R304's checks, its pixels. -/
def State.bltTake (s : State) (want : Nat → Bool) : State :=
  if !(s.bltWaiting && s.blt.cmd.isNone && s.blt.cues.isEmpty && s.comp.heldBlt.isEmpty) then s
  else if !s.bltRegion then s.bltHalt
  else
    let d := s.readBytes s.bltAddr 112
    if !want (bltOp d) then s
    else if bltWait d && !s.blt.fired.contains (bltWm d) then s.put R.BLT_RING_STAT_WAITING 1
    else
      let c : BltCmd := ⟨s.get R.BLT_RING_TAIL, s.bltAddr, bltFlags d, 0, formatBytes (bltDstFmt d), none⟩
      let s1 := (s.put R.BLT_RING_TAIL ((s.get R.BLT_RING_TAIL + 1) % s.bltEntries)).bltReached
      match s.bltCheck d with
      | 0 =>
        let rows : List (List (Nat × List Byte)) := if bltOp d = 0 then [] else s.bltPixels d
        let n : Nat := (rows.map List.length).foldl (· + ·) 0
        let s2 := s1.bltWrite rows
        let s3 := if n = 0 then s2 else s2.noteCommand d
        { s3 with blt := { s3.blt with cmd := some { c with pixels := n } } }
      | code => s1.bltEnd c code

/-- NOP (R305); a descriptor whose OP is above 3 is taken here too, and fails check 1. -/
def execNop (s : State) : Out := .next (s.bltTake (fun op => op = 0 || decide (3 < op)))

/-- COPY (R307, R308). -/
def execCopy (s : State) : Out := .next (s.bltTake (fun op => op = 1))

/-- FILL (R307). -/
def execFill (s : State) : Out := .next (s.bltTake (fun op => op = 2))

/-- DRAW (R309). -/
def execDraw (s : State) : Out := .next (s.bltTake (fun op => op = 3))

/-- BLT_COMMAND_DONE (R303, R310): the command in flight ends once none of its writes is held. A cue drawn into BACK is then ready for
its exchange (R312). -/
def execBltCommandDone (s : State) : Out :=
  match s.blt.cmd with
  | none => .next s
  | some c =>
    if !s.comp.heldBlt.isEmpty then .next s
    else
      let s1 := s.bltEnd c 0
      match c.cue with
      | some (f, n, true) => .next { s1 with blt := { s1.blt with doneBack := s1.blt.doneBack ++ [(f, n, s1.time.raw)] } }
      | _ => .next s1

/-- The exchange of a cue whose draw never completes is dropped (log entry 92). -/
def State.cueEnded (s : State) (cue : Option (Nat × Nat × Bool)) : State :=
  match cue with
  | some (f, n, true) =>
    ({ s with blt := { s.blt with actions := s.blt.actions.filter (fun a => !(a.1 = f && a.2.1 = n && decide (3 ≤ a.2.2))) } } : State).bufStates false
  | _ => s

/-- BLT_CTRL: the key is checked; ABORT ends the command in flight with ERR 0x55, and its held writes are never made. -/
def State.bltCtrl (s : State) (r : Req) (data : Nat) : State :=
  if data / 65536 ≠ 0x0B17 then s.ignored R.BLT_CTRL.base data r
  else if !data.testBit 0 then s
  else
    match s.blt.cmd with
    | none => s
    | some c =>
      let held := (s.comp.heldBlt.map (fun h => match h.item with | .bytes _ b => b.length | .reg .. | .bar2 .. => 0)).foldl (· + ·) 0
      let s1 : State := { s with comp := { s.comp with heldBlt := [] } }
      (s1.bltEnd { c with pixels := c.pixels - held / max 1 c.bpp } 0x55).cueEnded c.cue

/-- BLT_ABORT. -/
def execBltAbort (r : Req) (key : Nat) (s : State) : Out := .next (s.bltCtrl r (1 + 65536 * (key % 65536)))

/-! ### Overlay cues (R278, R311, R312) -/

/-- A buffer as a surface. -/
def State.bufSurface (s : State) (b : Nat) : Surface :=
  ⟨s.bufBase b, s.get R.COMP_BUF_PITCH b, s.get R.COMP_BUF_SIZE_W b, s.get R.COMP_BUF_SIZE_H b, if s.bufBpp b = 8 then 5 else 0⟩

/-- Copies a rectangle from one surface to the same place of another. -/
def State.copyBox (s : State) (src dst : Surface) (x : Box) : State :=
  let w := min (x.x + x.w) (min src.w dst.w) - x.x
  let h := min (x.y + x.h) (min src.h dst.h) - x.y
  s.bltWrite ((List.range h).map (fun j => (List.range w).map (fun i =>
    (dst.at_ (x.x + i) (x.y + j), Word.toLe (formatBytes dst.fmt) (writePixel dst.fmt (s.pixel src (x.x + i) (x.y + j)))))))

/-- The pixels a cue writes into a surface. -/
def cuePixels (c : OvlyCue) (dst : Surface) : List (List (Nat × List Byte)) :=
  (List.range c.h).map (fun j => (List.range c.w).filterMap (fun i =>
    let n := formatBytes c.fmt
    if c.x + i < dst.w ∧ c.y + j < dst.h then
      some (dst.at_ (c.x + i) (c.y + j), Word.toLe (formatBytes dst.fmt) (writePixel dst.fmt (readPixel c.fmt (leAt c.pixels ((j * c.w + i) * n) n))))
    else none))

/-- A discarded cue (R311). -/
def State.cueReject (s : State) : State := (s.bump R.BLT_CUE_REJECTED).raiseRec .blt 3

/-- CUE_DRAW: the first waiting cue, after the command in progress and ahead of host commands not yet taken. -/
def execCueDraw (s : State) : Out :=
  match s.blt.cues with
  | [] => .next s
  | c :: rest =>
    if s.blt.cmd.isSome || !s.comp.heldBlt.isEmpty then .next s
    else
      let s1 : State := { s with blt := { s.blt with cues := rest } }
      let toBack := s1.flag R.COMP_OVLY_CFG_BACK_VALID c.ovly
      let b := if toBack then s1.get R.COMP_OVLY_CFG_BACK c.ovly else s1.get R.COMP_OVLY_CFG_FRONT c.ovly
      let bad := !s1.flag { R.BLT_CUE_CTRL with lsb := c.ovly, width := 1 } || !(c.fmt = 0 || c.fmt = 5) || decide (32768 < c.w) || decide (32768 < c.h) ||
        !s1.registered b || decide (c.pixels.length < c.w * c.h * formatBytes c.fmt)
      if bad then .next s1.cueReject
      else
        let dst := s1.bufSurface b
        let old := s1.drawnOf c.ovly
        let front := s1.get R.COMP_OVLY_CFG_FRONT c.ovly
        let src := s1.bufSurface front
        let boxes := if 16 < old.front.length then [Box.mk 0 0 src.w src.h] else old.front
        let s2 := if toBack && s1.registered front then boxes.foldl (fun t x => t.copyBox src dst x) (s1.setDrawn { old with front := [] }) else s1
        let rows := cuePixels c dst
        let n : Nat := (rows.map List.length).foldl (· + ·) 0
        let s3 := (s2.bltWrite rows).noteDrawn b (boxOf c.x c.y c.w c.h dst.w dst.h)
        let cmd : BltCmd := ⟨0, 0, 0, n, formatBytes dst.fmt, some (c.frame, c.ovly, toBack)⟩
        let acts := if toBack then s3.blt.actions ++ [(c.frame, c.ovly, 3)] else s3.blt.actions
        let s4 : State := { s3 with blt := { s3.blt with cmd := some cmd, actions := acts } }
        .next (s4.bufStates false)

/-- FRONT and BACK of overlay `n` change places in effect. -/
def State.exchange (s : State) (n : Nat) : State :=
  let f := s.get R.COMP_OVLY_CFG_FRONT n
  let b := s.get R.COMP_OVLY_CFG_BACK n
  let r := s.drawnOf n
  (((s.put R.COMP_OVLY_CFG_FRONT b n).put R.COMP_OVLY_CFG_BACK f n).setDrawn { r with front := r.back, back := r.front }).ovlyStat n

/-- Whether a frame number has come at the commit of `frame`. -/
def dueAt (frame f : Nat) : Bool := Word.reached frame f

/-- The cues of the frames up to `frame` at a commit on RAW instant `at_` (R278, R312): show and hide apply; an exchange applies when the
draw was done 50 µs before, else it slips. -/
def State.cueCommit (s : State) (frame at_ : Nat) : State :=
  s.blt.actions.foldl (fun t a =>
    if !dueAt frame a.1 then t
    else
      let drop (u : State) : State := { u with blt := { u.blt with actions := u.blt.actions.erase a } }
      if a.2.2 < 2 then (drop (t.put R.COMP_OVLY_CFG_EN a.2.2 a.2.1)).ovlyStat a.2.1
      else
        match t.blt.doneBack.find? (fun d => d.1 = a.1 && d.2.1 = a.2.1 && decide (d.2.2 + 50000 ≤ at_)) with
        | some d =>
          let t1 := (drop t).exchange a.2.1
          { t1 with blt := { t1.blt with doneBack := t1.blt.doneBack.erase d } }
        | none =>
          if a.2.2 = 3 then
            let t1 := (t.bump R.BLT_CUE_SLIPPED).raise .blt 3
            { t1 with blt := { t1.blt with actions := t1.blt.actions.map (fun x => if x = a then (a.1, a.2.1, 4) else x) } }
          else t) s

/-! ### Watermarks (R313 to R315) -/

/-- WM_ARM: a write of BLT_WM[w].CFG. -/
def State.wmCfg (s : State) (w data : Nat) : State :=
  ((s.put R.BLT_WM_CFG_LINE data w).put R.BLT_WM_CFG_OVERLAY (data / 65536) w).put R.BLT_WM_CFG_ARM (data / 2 ^ 31) w

/-- WM_ARM. -/
def execWmArm (_r : Req) (w data : Nat) (s : State) : Out := .next (if w < 4 then s.wmCfg w data else s)

/-- The band whose completion passes line L of watermark `w`; none: the last band of the subframe (R313, R314). -/
def State.wmBand (s : State) (w : Nat) : Option Nat :=
  let n := s.get R.BLT_WM_CFG_OVERLAY w
  match (List.range (s.get R.VIEW_DEPTH_COUNT)).find? (fun k => (s.depthEntry k).overlay && decide (s.ovlyOf k = n)) with
  | none => none
  | some k =>
    let e := s.depthEntry k
    let sc := max 1 e.scale
    let den : Int := ((sc * 2 ^ 32 : Nat) : Int)
    let line : Int := (s.get R.BLT_WM_CFG_LINE w : Int) - ((s.get R.COMP_OVLY_SRC_SRC_Y n / 64 * 64 : Nat) : Int)
    let m : Int := ((s.maxSlope * e.z.natAbs * sc : Nat) : Int)
    let p : Int := (s.get R.VIEW_LENS_PITCH_ROWS : Int) * den
    let org : Int := e.oy * ((2 ^ 24 * sc : Nat) : Int)
    let yL := -(Int.fdiv (-(org + (line + 1) * (2 ^ 48 : Nat) + m + p)) den)
    let yF := Int.fdiv (org + line * (2 ^ 48 : Nat) - m - p) den
    let h := s.panelH
    let row (z : Int) : Nat := (Word.clampI 0 ((h : Int) - 1) z).toNat
    let right := e.ox * (sc : Int) + ((64 * e.w * 2 ^ 24 : Nat) : Int)
    let down := e.oy * (sc : Int) + ((64 * e.h * 2 ^ 24 : Nat) : Int)
    let off := decide (e.ox ≥ ((256 * s.panelW : Nat) : Int) ∨ e.oy ≥ ((256 * h : Nat) : Int) ∨ right ≤ 0 ∨ down ≤ 0)
    if !s.flag R.COMP_OVLY_CFG_EN n || off || decide (row yL / (h / 2) ≠ row yF / (h / 2)) then none
    else some (row yL % (h / 2) / 64)

/-- The fabric has completed `band` of subframe `sf`; `last`: it is the subframe's last. Armed watermarks whose line this passes fire. -/
def State.wmPass (s : State) (sf band : Nat) (last : Bool) : State :=
  (List.range 4).foldl (fun t w =>
    let hit := match t.wmBand w with | some b => decide (b = band) | none => last
    if t.flag R.BLT_WM_CFG_ARM w && hit then
      let t1 := (((t.put R.BLT_WM_CFG_ARM 0 w).put R.BLT_WM_STAT_SF sf w).put R.BLT_WM_STAT_BAND band w).bump R.BLT_WM_STAT_FIRES w
      ({ t1 with blt := { t1.blt with fired := w :: t1.blt.fired.filter (· ≠ w) } } : State).raise .blt (4 + w)
    else t) s

/-- CORE (R317): the command in flight ends without completion words, the ring halts. -/
def State.bltCore (s : State) : State :=
  let s1 : State := { s with blt := ⟨none, [], [], [], [], []⟩ }
  ((s1.put R.BLT_RING_STAT_HALTED 1).put R.BLT_RING_STAT_RUNNING 0).put R.BLT_RING_STAT_WAITING 0

end Sys2Proof.Machine
end

