-- ==== Sys2Proof/Machine/MicroSeq.lean ====
section
/-!
DEFINITION. The micro-sequencer operations of Table 5.6 (R147) and the sample lanes (R181 to R187).
-/

namespace Sys2Proof.Machine

open Sys2Proof

/-- The fields of an instruction (R147). -/
def opField (w : Nat) : Nat := w / 2 ^ 26 % 64
def dField (w : Nat) : Nat := w / 2 ^ 21 % 32
def aField (w : Nat) : Nat := w / 2 ^ 16 % 32
def immField (w : Nat) : Nat := w % 65536
def bField (w : Nat) : Nat := w % 32

/-- A thread of a tile. -/
def State.thread (s : State) (n t : Nat) : Option Thread := ((s.tile n).threads.find? (fun q => q.1 = t)).map (·.2)

/-- Replaces a thread. -/
def State.setThread (s : State) (n t : Nat) (th : Thread) : State :=
  s.setTile n { s.tile n with threads := (s.tile n).threads.map (fun q => if q.1 = t then (t, th) else q) }

/-- Ends a thread; a boundary the tile waits at may now pass (R120). -/
def State.endThread (s : State) (n t : Nat) : State :=
  let tl := s.tile n
  let s1 := s.setTile n { tl with threads := tl.threads.filter (fun q => q.1 ≠ t), rays := tl.rays.filter (fun q => q.1 ≠ t),
                                  jobs := tl.jobs.filter (fun q => q.2.thread ≠ t) }
  s1.settle n

/-- The instruction a thread stands at, with the thread and its plane: none while it waits for lanes that are busy (WAIT). -/
def State.fetchOp (s : State) (n t : Nat) : Option (Nat × Thread × Plane) :=
  match (s.tile n).active, s.thread n t with
  | some p, some th =>
    if (s.tile n).jobs.any (fun j => th.waits.testBit j.1) then none else some (s.program p th.pc, th, p)
  | _, _ => none

/-- Register `r` of a thread. -/
def Thread.reg (th : Thread) (r : Nat) : Nat := th.regs.getD (r % 32) 0

/-- Goes on to the next instruction. -/
def Thread.step (th : Thread) : Thread := { th with pc := th.pc + 1, waits := 0 }

/-- Writes register `d` and goes on. -/
def Thread.write (th : Thread) (d v : Nat) : Thread := { th.step with regs := th.regs.set (d % 32) (v % 2 ^ 32) }

/-- Runs operation `op` of thread `t` when the thread stands at it; an event that is not the thread's next instruction does not
happen. -/
def State.micro (s : State) (n t op : Nat) (f : Nat → Thread → Plane → State) : Out :=
  match s.fetchOp n t with
  | some (w, th, p) => .next (if opField w = op then f w th p else s)
  | none => .next s

/-- An operation on registers A and B[4:0], result to D. -/
def State.microBinary (s : State) (n t op : Nat) (g : Word → Word → Word) : Out :=
  s.micro n t op (fun w th _ =>
    s.setThread n t (th.write (dField w) (g (BitVec.ofNat 32 (th.reg (aField w))) (BitVec.ofNat 32 (th.reg (bField w)))).toNat))

/-- END: ends the thread. -/
def execEndThread (n t : Nat) (s : State) : Out := s.micro n t 0x00 (fun _ _ _ => s.endThread n t)

/-- ADD: D = A + B. -/
def execAdd (n t : Nat) (s : State) : Out := s.microBinary n t 0x01 (fun a b => a + b)

/-- SUB: D = A − B. -/
def execSub (n t : Nat) (s : State) : Out := s.microBinary n t 0x02 (fun a b => a - b)

/-- MUL: D = A × B, the low 32 bits. -/
def execMul (n t : Nat) (s : State) : Out := s.microBinary n t 0x03 (fun a b => a * b)

/-- AND. -/
def execAnd (n t : Nat) (s : State) : Out := s.microBinary n t 0x04 (fun a b => a &&& b)

/-- OR. -/
def execOr (n t : Nat) (s : State) : Out := s.microBinary n t 0x05 (fun a b => a ||| b)

/-- XOR. -/
def execXor (n t : Nat) (s : State) : Out := s.microBinary n t 0x06 (fun a b => a ^^^ b)

/-- SHIFT: the result is `Config.shift` of A and B, open (log entry 17). -/
def execShift (n t : Nat) (s : State) : Out := s.microBinary n t 0x07 Config.shift

/-- LDI: D = IMM, sign-extended. -/
def execLdi (n t : Nat) (s : State) : Out :=
  s.micro n t 0x08 (fun w th _ => s.setThread n t (th.write (dField w) (Word.wrap 32 (Word.signed 16 (immField w)))))

/-- FSTEP: D = A + B as 16.8 fixed point, held in 32 bits. -/
def execFstep (n t : Nat) (s : State) : Out := s.microBinary n t 0x09 (fun a b => a + b)

/-- SAMPLE: issues a plane-sample to lane IMM[2:0] with the descriptor in A and the coordinates in B[4:0]; a busy lane makes the
thread wait. DESIGN CHOICE (log entry 87): a lane that LANE_EN does not enable takes no sample, and the thread goes on. -/
def execSample (n t : Nat) (s : State) : Out :=
  s.micro n t 0x0A (fun w th p =>
    let lane := immField w % 8
    let tl := s.tile n
    if (p.configWord 0).testBit lane = false then s.setThread n t th.step
    else if tl.jobs.any (fun j => j.1 = lane) then s
    else
      (s.setThread n t th.step).setTile n { (s.setThread n t th.step).tile n with
        jobs := tl.jobs ++ [(lane, ⟨t, th.reg (aField w), th.reg (bField w)⟩)] })

/-! ### The sample lanes -/

/-- The bilinear sample of one channel (R182). -/
def bilinear (t00 t10 t01 t11 fx fy : Nat) : Nat :=
  ((256 - fx) * (256 - fy) * t00 + fx * (256 - fy) * t10 + (256 - fx) * fy * t01 + fx * fy * t11 + 128) / 256

/-- The nearest texel of one channel, at 20 bits (LANE_MODE[0] = 1). -/
def nearest (t00 t10 t01 t11 fx fy : Nat) : Nat :=
  256 * (if fy < 128 then (if fx < 128 then t00 else t10) else (if fx < 128 then t01 else t11))

/-- The over operator of R183 on one accumulator: `v` under accumulated alpha `a`. -/
def overOne (acc v a : Nat) : Nat := min fullScale (acc + (v * (fullScale - a) + fullScale / 2) / fullScale)

/-- Composites a sample into a ray (R183). -/
def RayAcc.composite (r : RayAcc) (c a : Nat) : RayAcc := { r with c := overOne r.c c r.a, a := overOne r.a a r.a, spent := r.spent + 1 }

/-- One sample against the stop and the budget (R184 to R187): above the threshold nothing more is composited; an overlay and the
background come from the reserve; an ordinary plane without budget cuts the ray. -/
def RayAcc.take (r : RayAcc) (stop c a : Nat) (kind : SampleKind) : RayAcc :=
  if stop ≤ r.a then r
  else
    match kind with
    | .ordinary => if 0 < r.left then { r.composite c a with left := r.left - 1 } else { r with cut := true }
    | _ => r.composite c a

/-- The colour and alpha of a plane-sample: bilinear or nearest; poisoned data read as fully transparent (R145). -/
def quadSample (q : TexelQuad) (near : Bool) : Nat × Nat :=
  if q.poison then (0, 0)
  else if near then (nearest q.c00 q.c10 q.c01 q.c11 q.fx q.fy, nearest q.a00 q.a10 q.a01 q.a11 q.fx q.fy)
  else (bilinear q.c00 q.c10 q.c01 q.c11 q.fx q.fy, bilinear q.a00 q.a10 q.a01 q.a11 q.fx q.fy)

/-- The set of a cache line: the low 8 bits of its number (DESIGN CHOICE, log entry 87: R130 gives 8 ways and 2,048 lines, no index). -/
def cacheSet (line : Nat) : Nat := line % 256

/-- A line of plane texels enters a cache that keeps `ways` ways for them; of a full set the line that came first leaves (log entry 87). -/
def cacheFill (ways line : Nat) (c : List Nat) : List Nat :=
  if c.contains line then c
  else
    let mine := c.filter (fun x => cacheSet x = cacheSet line)
    (if ways ≤ mine.length then c.filter (fun x => decide (cacheSet x ≠ cacheSet line) || (mine.drop (mine.length + 1 - ways)).contains x) else c) ++ [line]

/-- The lines a sample reads come into the texel cache (R130, Table 5.5): each line not held is fetched from module DRAM, with the PREFETCH
lines behind it (log entry 87). -/
def State.cacheRead (s : State) (n : Nat) (p : Plane) (lines : List Nat) : State :=
  lines.foldl (fun t line =>
    if (t.tile n).cache.contains line then t
    else
      ((List.range (p.configWord 4 + 1)).map (line + ·)).foldl (fun u l =>
        if (u.tile n).cache.contains l then u
        else (u.setTile n { u.tile n with cache := cacheFill (p.configWord 3) l (u.tile n).cache }).emit (.fetch (128 * l) 128)) t) s

/-- LANE_SAMPLE_DONE (R182 to R187): the lane completes its sample, which read the `lines` of module DRAM; with LANE_MODE[1] it composites
it into the thread's ray. DESIGN CHOICE (log entry 87): with LANE_MODE[1] = 0 the result reaches no register, of which Table 5.5 names none.
A ray that was cut is counted with its row band. -/
def execLaneSampleDone (n lane : Nat) (q : TexelQuad) (lines : List Nat) (s : State) : Out :=
  match (s.tile n).active, (s.tile n).jobs.find? (fun j => j.1 = lane) with
  | some p, some (_, job) =>
    let s1 := s.cacheRead n p lines
    let tl := s1.tile n
    let mode := p.configWord 1
    let tl1 := { tl with jobs := tl.jobs.filter (fun j => j.1 ≠ lane) }
    match tl.rays.find? (fun r => r.1 = job.thread) with
    | some (_, r) =>
      if mode / 2 % 2 = 0 then .next (s1.setTile n tl1)
      else
        let (c, a) := quadSample q (mode % 2 = 1)
        let r1 := r.take (p.configWord 2 * 256) c a q.kind
        .next (s1.setTile n { tl1 with
          rays := tl.rays.map (fun x => if x.1 = job.thread then (x.1, r1) else x), used := tl.used + (r1.spent - r.spent) })
    | none => .next (s1.setTile n tl1)
  | _, _ => .next s

/-! ### Local memory, tokens, control -/

/-- LD: D = the 32-bit word of local memory at byte A + IMM (log entry 22); beyond the 64 KiB a free value. -/
def execLd (n t : Nat) (s : State) : Out :=
  s.micro n t 0x0B (fun w th _ =>
    let a := th.reg (aField w) + immField w
    if a + 4 ≤ 65536 then
      s.setThread n t (th.write (dField w) (Word.le ((List.range 4).map (fun k => Sparse.get dramDefault (s.tile n).lmem (a + k)))))
    else (s.setThread n t (th.write (dField w) (s.freeNat 32))).tookFree 1)

/-- ST: stores D to local memory at byte A + IMM; beyond the 64 KiB there is nothing to store to. -/
def execSt (n t : Nat) (s : State) : Out :=
  s.micro n t 0x0C (fun w th _ =>
    let a := th.reg (aField w) + immField w
    let s1 := s.setThread n t th.step
    if a + 4 ≤ 65536 then
      let bs := Word.toLe 4 (th.reg (dField w))
      let mem := (List.range 4).foldl (fun m k => Sparse.set dramDefault m (a + k) (bs.getD k 0)) (s1.tile n).lmem
      s1.setTile n { s1.tile n with lmem := mem }
    else s1)

/-- EMIT: sends a token with tag IMM[11:0] and the payload of registers D to D + 3 on output port A[2:0]; a fabric tag is dropped
and counted (R142); a token of a poisoned thread carries POISON (R145); a full destination makes the thread wait. -/
def execEmit (n t : Nat) (s : State) : Out :=
  s.micro n t 0x0D (fun w th p =>
    let tag := immField w % 4096
    let s1 := s.setThread n t th.step
    if 0xFF0 ≤ tag then (s1.bump R.FAB_TILE_DROP_MISUSE n).tileEvent n 2
    else
      let d := dField w
      let v := th.reg d + th.reg (d + 1) * 2 ^ 32 + th.reg (d + 2) * 2 ^ 64 + th.reg (d + 3) * 2 ^ 96
      match s1.sendToken n p (aField w % 8) ⟨tag, 0, th.poison, v % 2 ^ 112⟩ with
      | some s2 => s2
      | none => s)

/-- BR: branches to IMM[9:0] when register A is not 0. -/
def execBr (n t : Nat) (s : State) : Out :=
  s.micro n t 0x0E (fun w th _ =>
    s.setThread n t (if th.reg (aField w) ≠ 0 then { th with pc := immField w % 1024, waits := 0 } else th.step))

/-- WAIT: waits for the lanes named in IMM[7:0]: the next instruction runs once none of them is busy. -/
def execWait (n t : Nat) (s : State) : Out :=
  s.micro n t 0x0F (fun w th _ => s.setThread n t { th.step with waits := immField w % 256 })

/-- CONST: D = CONST[IMM[4:0]]. -/
def execConst (n t : Nat) (s : State) : Out :=
  s.micro n t 0x10 (fun w th p => s.setThread n t (th.write (dField w) (p.configWord (8 + immField w % 32))))

/-- BUDGET: D = the plane budget now in effect for the tile. -/
def execBudget (n t : Nat) (s : State) : Out :=
  s.micro n t 0x11 (fun w th _ => s.setThread n t (th.write (dField w) (s.get R.FAB_TILE_BUDGET n)))

/-- PARAM: D = PERS_PARAM[IMM[5:0]], the value in effect. -/
def execParam (n t : Nat) (s : State) : Out :=
  s.micro n t 0x12 (fun w th _ => s.setThread n t (th.write (dField w) (s.get R.PERS_PARAM (immField w % 64))))

/-- BAD_OP: any other OP ends the thread and drops its token (R147). -/
def execBadOp (n t : Nat) (s : State) : Out :=
  match s.fetchOp n t with
  | some (w, _, _) =>
    .next (if 0x12 < opField w then ((s.bump R.FAB_TILE_DROP_MISUSE n).tileEvent n 3).endThread n t else s)
  | none => .next s

end Sys2Proof.Machine
end

