-- ==== Sys2Proof/Machine/Ray.lean ====
section
/-!
DEFINITION. One ray, from its subpixel to its 20-bit value (spec/06, R170 to R188): address, slope, coordinates, the stack as the fabric
sees it, budget, residuals.
-/

namespace Sys2Proof.Machine

open Sys2Proof

/-! ### The entries of a ray's stack (R177, R268, R271, R275, R277, R296) -/

/-- An entry as a ray meets it: its place, its texels from column x0, row y0 up to column x1, row y1, its EDGE flag, what it is charged
to, whether rays meet it at all, and its texels. -/
structure RayEntry where
  z : Int
  ox : Int
  oy : Int
  scale : Nat
  x0 : Int
  y0 : Int
  x1 : Int
  y1 : Int
  edge : Bool
  kind : SampleKind
  shown : Bool
  texel : Nat → Nat → List Nat

/-- Depth table entry `k`. An overlay that is off, or whose FRONT is not registered, is missed by every ray (R277). -/
def State.planeEntry (s : State) (k : Nat) : RayEntry :=
  let e := s.depthEntry k
  let n := s.ovlyOf k
  { z := e.z, ox := e.ox, oy := e.oy, scale := e.scale, x0 := 0, y0 := 0, x1 := (e.w : Int) * 64, y1 := (e.h : Int) * 64, edge := e.edge
    kind := if e.overlay then .overlay else .ordinary
    shown := !e.overlay || (s.flag R.COMP_OVLY_CFG_EN n && s.registered (s.get R.COMP_OVLY_CFG_FRONT n))
    texel := fun x y => s.tileTexel (s.desc (calIndex k (x / 64) (y / 64))) (x % 64) (y % 64) }

/-- A usable sinter group (R271, R275): its own depth, the largest member SCALE, the front member's origin, texels from its expansion; one
that is rearmost is the background of its region. Its texels are counted from the corner of its expansion. -/
def State.groupEntry (s : State) (g : SinterGroup) : RayEntry :=
  let e := s.depthEntry g.k0
  let ax := s.groupAxes g
  let cell (x y : Nat) : Nat := y / 64 * ax.1.2 + x / 64
  { z := g.z, ox := e.ox, oy := e.oy, scale := s.groupScale g, x0 := 64 * ax.1.1, y0 := 64 * ax.2.1
    x1 := 64 * (ax.1.1 + (ax.1.2 : Int)), y1 := 64 * (ax.2.1 + (ax.2.2 : Int)), edge := false
    kind := if g.rear then .background else if e.overlay then .overlay else .ordinary
    shown := true
    texel := fun x y => match g.expansion.find? (fun p => p.1 = cell x y) with
      | some p => s.texel (s.poolAddr p.2) (y % 64 * 64 + x % 64)
      | none => [0, 0, 0, 0] }

/-- The depth entry of a W × H picture (R210). -/
def State.dpEntry (s : State) (w h : Nat) : DepthEntry :=
  let sc := max (roundDiv (65536 * w) s.panelW) (roundDiv (65536 * h) s.panelH)
  let org (p v : Nat) : Int := Int.fdiv (2 * (128 * ((p * sc : Nat) : Int) - ((128 * 65536 * v : Nat) : Int)) + (sc : Int)) ((2 * max 1 sc : Nat) : Int)
  ⟨0, org s.panelW w, max 0 (org s.panelH h), sc, Word.cdiv w 64, Word.cdiv h 64, false, false⟩

/-- The safe image as the one entry of the stack (R296): a picture of its buffer's size, placed as R210 places one. Its components are
used as the buffer holds them (log entry 82). -/
def State.safeEntry (s : State) : RayEntry :=
  let b := s.get R.COMP_SAFE_CFG_BUF
  let w := s.get R.COMP_BUF_SIZE_W b
  let h := s.get R.COMP_BUF_SIZE_H b
  let e := s.dpEntry w h
  let bpp := s.bufBpp b
  { z := e.z, ox := e.ox, oy := e.oy, scale := e.scale, x0 := 0, y0 := 0, x1 := (e.w : Int) * 64, y1 := (e.h : Int) * 64, edge := e.edge
    kind := .ordinary, shown := true
    texel := fun x y =>
      if x < w ∧ y < h then readPixel (if bpp = 8 then 5 else 0) (s.readLe (s.bufBase b + y * s.get R.COMP_BUF_PITCH b + x * bpp) bpp)
      else [0, 0, 0, 0] }

/-- Whether a group is sampled in place of its members (R272, R275). -/
def SinterGroup.inUse (g : SinterGroup) : Bool := g.usable && !g.expansion.isEmpty

/-- The sinter region of a pixel (R269). -/
def rayRegion (x row : Nat) : Nat := row / 256 * 60 + x / 256

/-- The stack of a region, front to back: a group stands at the place of its front member. -/
def State.rayStack (s : State) (region : Nat) : List RayEntry :=
  if s.flag R.COMP_SAFE_STAT_ACTIVE then [s.safeEntry]
  else
    let groups := s.comp.groups.filter (fun g => g.inUse && decide (g.region = region))
    (List.range (min 64 (s.get R.VIEW_DEPTH_COUNT))).filterMap (fun k =>
      match groups.find? (fun g => decide (g.k0 ≤ k ∧ k ≤ g.k1)) with
      | none => some (s.planeEntry k)
      | some g => if g.k0 = k then some (s.groupEntry g) else none)

/-! ### Address and slope (R170 to R174) -/

/-- A ray's address: its cell on each axis, the seed cell of its lenslet (R180), twice the lenslet centre on each axis, its colour. -/
structure RayAddr where
  i : Nat
  j : Nat
  seed : Nat
  cx : Nat
  cy : Nat
  colour : Nat
  deriving DecidableEq, Repr

/-- The address of subpixel column `c`, row `r` in mode `m` (Table 6.1). -/
def rayAddr (m c r : Nat) : RayAddr :=
  let x := c / 3
  if mLayout m = 0 then ⟨x % 16, r % 16, 0, 2 * (16 * (x / 16) + 8), 2 * (16 * (r / 16) + 8), c % 3⟩
  else if mLayout m = 1 then ⟨c % 24, 0, if c % 24 < 12 then 0 else 12, 2 * (8 * (c / 24) + 4), 2 * r + 1, c % 3⟩
  else ⟨0, 0, 0, 2 * x + 1, 2 * r + 1, c % 3⟩

/-- The slope of cell `i`, `j` in phase `p`, in units of 2⁻²⁴ (R172 to R174). -/
def State.raySlope (s : State) (m i j p : Nat) : Int × Int :=
  let sx := s.getI R.VIEW_STEER_SX (steerSet m) p
  let sy := s.getI R.VIEW_STEER_SY (steerSet m) p
  if mLayout m = 0 then
    ((max 1 (s.get R.VIEW_FOCAL_FULL_KX) : Nat) * (256 * (i : Int) - 1920 + sx), (max 1 (s.get R.VIEW_FOCAL_FULL_KY) : Nat) * (256 * (j : Int) - 1920 + sy))
  else if mLayout m = 1 then
    ((max 1 (s.get R.VIEW_FOCAL_HORIZ_KX) : Nat) * (256 * (i : Int) - 2944 + sx), 256 * s.getI R.VIEW_FOCAL_HORIZ_VSLOPE)
  else (0, 0)

/-- KX of a layout. -/
def State.rayK (s : State) (m : Nat) : Nat :=
  if mLayout m = 0 then max 1 (s.get R.VIEW_FOCAL_FULL_KX) else if mLayout m = 1 then max 1 (s.get R.VIEW_FOCAL_HORIZ_KX) else 0

/-! ### Coordinates (R179 to R181) -/

/-- The reference coordinate on one axis in 1/256 texel: twice the lenslet centre, slope, depth, origin, SCALE (R179). -/
def refCoord (c2 : Nat) (t z org : Int) (scale : Nat) : Int :=
  Int.fdiv ((2 ^ 31 * (c2 : Int) + t * z - 2 ^ 24 * org) * (scale : Int) + 2 ^ 39) (2 ^ 40)

/-- The step from cell to cell in 1/256 texel (R180). -/
def stepCoord (k : Nat) (z : Int) (scale : Nat) : Int := Int.fdiv ((k : Int) * z * (scale : Int) + 2 ^ 31) (2 ^ 32)

/-- Whether a coordinate is in the 16.8 range. -/
def inRange (q : Int) : Bool := decide (-(2 ^ 23) ≤ q) && decide (q < 2 ^ 23)

/-- The coordinates a ray samples an entry at; none where it misses it (R179 to R181, R277). DESIGN CHOICE (log entry 81): when the seed of
its lenslet lies outside the 16.8 range the ray misses the plane, although the stepped coordinate of its cell may lie inside. -/
def State.rayCoords (s : State) (m p : Nat) (a : RayAddr) (e : RayEntry) : Option (Int × Int) :=
  let seedT := (s.raySlope m a.seed a.j p).1
  let u0 := refCoord a.cx seedT e.z e.ox e.scale
  let u := u0 + ((a.i : Int) - (a.seed : Int)) * stepCoord (s.rayK m) e.z e.scale
  let v := refCoord a.cy (s.raySlope m a.i a.j p).2 e.z e.oy e.scale
  let x := Int.fdiv (u - 128) 256
  let y := Int.fdiv (v - 128) 256
  if e.shown && inRange u0 && inRange u && inRange v &&
      (e.edge || (decide (e.x0 ≤ x + 1 ∧ x < e.x1) && decide (e.y0 ≤ y + 1 ∧ y < e.y1))) then some (u, v)
  else none

/-! ### Samples (R182) -/

/-- The texel of an entry at a column and a row: beyond its texels transparent, or with EDGE the nearest one (R181). -/
def RayEntry.at (e : RayEntry) (x y : Int) : List Nat :=
  if e.edge || decide (e.x0 ≤ x ∧ x < e.x1 ∧ e.y0 ≤ y ∧ y < e.y1) then
    e.texel (Word.clampI e.x0 (e.x1 - 1) x - e.x0).toNat (Word.clampI e.y0 (e.y1 - 1) y - e.y0).toNat
  else [0, 0, 0, 0]

/-- The plane-sample of an entry: colour `colour` and alpha, in 20 bits. -/
def RayEntry.sample (e : RayEntry) (colour : Nat) (uv : Int × Int) : Nat × Nat :=
  let x := Int.fdiv (uv.1 - 128) 256
  let y := Int.fdiv (uv.2 - 128) 256
  let fx := ((uv.1 - 128) % 256).toNat
  let fy := ((uv.2 - 128) % 256).toNat
  let t00 := e.at x y
  let t10 := e.at (x + 1) y
  let t01 := e.at x (y + 1)
  let t11 := e.at (x + 1) (y + 1)
  let one (c : Nat) : Nat := bilinear (t00.getD c 0) (t10.getD c 0) (t01.getD c 0) (t11.getD c 0) fx fy
  (one colour, one 3)

/-! ### Residuals (R188) -/

/-- Whether the rays in effect take residuals. -/
def State.residOn (s : State) : Bool :=
  s.flag R.VIEW_RESID_PRESENT && s.view.ctrl.testBit 6 && decide (mLayout (s.get R.VIEW_MODE_EFF_MODE) ≤ 1)

/-- The two anchors that bracket a view coordinate and the weight of the second: of `n` anchors over `views` views. -/
def bracket (x views n : Nat) : Nat × Nat × Nat :=
  if n ≤ 1 ∨ views ≤ 1 then (0, 0, 0)
  else
    let lo := x * (n - 1) / (views - 1)
    if n - 1 ≤ lo then (n - 1, n - 1, 0)
    else (lo, lo + 1, (512 * (x * (n - 1) % (views - 1)) + (views - 1)) / (2 * (views - 1)))

/-- The correction of a ray at view coordinates (h, v) in residual cell (cx, cy); an empty cell contributes 0. -/
def ResidSet.correction (q : ResidSet) (ax ay h v cx cy colour : Nat) (views : Nat × Nat) : Int :=
  match q.cells.find? (fun p => p.1 = cy * q.cellsX + cx) with
  | none => 0
  | some (_, l) =>
    let bx := bracket h views.1 ax
    let byy := bracket v views.2 ay
    let r (a b : Nat) : Int := l.getD (3 * (b * ax + a) + colour) 0
    let fx := bx.2.2
    let fy := byy.2.2
    let sum : Int := ((256 - fx) * (256 - fy) : Nat) * r bx.1 byy.1 + (fx * (256 - fy) : Nat) * r bx.2.1 byy.1 +
      ((256 - fx) * fy : Nat) * r bx.1 byy.2.1 + (fx * fy : Nat) * r bx.2.1 byy.2.1
    Int.fdiv (sum * 256 + 32768) 65536

/-- The correction of subpixel column `c`, row `r` in phase `p`. -/
def State.residual (s : State) (m c r p : Nat) : Int :=
  match s.intk.resid with
  | none => 0
  | some q =>
    let views := modeViews m false
    let n := viewNumber m c r p
    let ax := s.get R.VIEW_RESID_ANCHORS_X
    if mLayout m = 0 then q.correction ax (s.get R.VIEW_RESID_ANCHORS_Y) (n % 32) (n / 32) (c / 3 / 64) (r / 64) (c % 3) views
    else q.correction ax 1 n 0 (c / 96) (r / 16) (c % 3) views

/-! ### The ray (R183 to R188) -/

/-- The alpha threshold (R184): CONFIG word 2 of the class whose lanes composite; 4,064 while no tile holds one (log entry 81). -/
def State.alphaStop (s : State) : Nat :=
  let word := s.fab.tiles.findSome? (fun q =>
    match q.2.active with
    | some p => if (p.configWord 1).testBit 1 then some (p.configWord 2) else none
    | none => none)
  256 * word.getD 4064

/-- Samples reserved for the residual anchors (R185). -/
def State.anchorSamples (s : State) : Nat := if s.residOn then (if mLayout (s.get R.VIEW_MODE_EFF_MODE) = 0 then 4 else 2) else 0

/-- A ray of budget `b` begins at 0 with the part of it that is for ordinary planes: B less the anchors, the overlays and its background, at
least 3 (R183, R185). -/
def State.rayStart (s : State) (b : Nat) (l : List RayEntry) : RayAcc :=
  let overlays := if s.flag R.COMP_SAFE_STAT_ACTIVE then 0 else (s.depthTable.filter (·.overlay)).length
  let back := (l.filter (fun e => decide (e.kind = .background))).length
  ⟨0, 0, max 3 (b - s.anchorSamples - overlays - back), 0, false⟩

/-- A finished ray: its value, whether the budget cut it, whether it was then finished against black, the samples it spent. -/
structure RayOut where
  c : Nat
  cut : Bool
  black : Bool
  spent : Nat
  deriving DecidableEq, Repr

/-- The ray walks its stack front to back (R184 to R187). -/
def rayWalk (stop : Nat) (coords : RayEntry → Option (Int × Int)) (colour : Nat) : List RayEntry → RayAcc → RayAcc
  | [], r => r
  | e :: l, r =>
    if stop ≤ r.a then r
    else if e.kind = .background then rayWalk stop coords colour l r
    else
      match coords e with
      | none => rayWalk stop coords colour l r
      | some uv =>
        let t := e.sample colour uv
        rayWalk stop coords colour l (r.take stop t.1 t.2 e.kind)

/-- The background finishes a ray that has not reached the threshold (R185). -/
def rayBackground (stop : Nat) (coords : RayEntry → Option (Int × Int)) (colour : Nat) (l : List RayEntry) (r : RayAcc) : RayAcc :=
  match l.find? (fun e => decide (e.kind = .background)) with
  | none => r
  | some e =>
    match coords e with
    | none => r
    | some uv =>
      let t := e.sample colour uv
      r.take stop t.1 t.2 .background

/-- Entries whose plane-samples are poisoned: each is sampled as transparent and charged (R145, R183). -/
def spoil (bad : List Nat) (l : List RayEntry) : List RayEntry :=
  l.zipIdx.map (fun q => if bad.contains q.2 then { q.1 with texel := fun _ _ => [0, 0, 0, 0] } else q.1)

/-- Whether the residual cell of a ray is occupied: only then are its anchor samples spent (R188). -/
def State.residHeld (s : State) (m c r : Nat) : Bool :=
  match s.intk.resid with
  | none => false
  | some q => q.cells.any (fun p => decide (p.1 = if mLayout m = 0 then r / 64 * q.cellsX + c / 3 / 64 else r / 16 * q.cellsX + c / 96))

/-- The ray of subpixel column `c`, row `r` in the subframe of phase `p`, with budget `b`, over the stack of its region (R180, R190). One that
had `walked` so many entries when its band was sent is finished at once with what it has accumulated, without its residual; the
background ends it, or it is finished against black (R26). -/
def State.ray (s : State) (stop b : Nat) (walked : Option Nat) (l : List RayEntry) (c r p : Nat) : RayOut :=
  let m := s.get R.VIEW_MODE_EFF_MODE
  let a := rayAddr m c r
  let coords := s.rayCoords m p a
  let r0 := rayWalk stop coords a.colour (match walked with | some k => l.take k | none => l) (s.rayStart b l)
  let r1 := rayBackground stop coords a.colour l r0
  let resid := s.residOn && walked.isNone
  let v := if resid then (Word.clampI 0 fullScale ((r1.c : Int) + s.residual m c r p)).toNat else r1.c
  ⟨v, r0.cut, (r0.cut || walked.isSome) && decide (r0.a < stop) && !l.any (fun e => decide (e.kind = .background)),
    r1.spent + (if resid && s.residHeld m c r then s.anchorSamples else 0)⟩

/-! ### The rays of a row band (R19, R26, R190, R193) -/

/-- What the rays of a row band depend on beside the state: the alpha threshold; triples that an owner-signed personality made otherwise
than this chapter (R190); the tiles' shares; poisoned samples; rays unfinished when the band was sent; by tile the rays of its share. -/
structure BandJob where
  stop : Nat
  own : List Ray
  shares : List Share
  poisoned : List RayAt
  unfinished : List RayAt
  totals : List (Nat × Nat)

/-- The rays a tile has begun in a band and the samples they spent. -/
structure TileSpend where
  tile : Nat
  begun : Nat
  used : Nat
  deriving DecidableEq, Repr

/-- The tile that renders a pixel; rays that no share lists are taken as the share of one more tile, number 400 (log entry 81). -/
def tileAt (l : List Share) (row x : Nat) : Nat := ((l.find? (fun q => decide (q.row = row ∧ q.x ≤ x ∧ x < q.x + q.w))).map (·.tile)).getD 400

/-- What a tile has begun and spent. -/
def spendOf (l : List TileSpend) (n : Nat) : TileSpend := (l.find? (fun q => q.tile = n)).getD ⟨n, 0, 0⟩

/-- One ray of a band: its tile's budget, its end, what it leaves of the tile's allowance. -/
def State.bandRay (s : State) (j : BandJob) (l : List RayEntry) (n row col p : Nat) (sp : List TileSpend) : RayOut × List TileSpend :=
  let t := spendOf sp n
  let rays := ((j.totals.find? (fun q => q.1 = n)).map (·.2)).getD 0
  let mine (q : RayAt) : Bool := decide (q.row = row ∧ q.col = col)
  let o := s.ray j.stop (s.rayBudget n rays t.begun t.used) ((j.unfinished.find? mine).map (·.entry))
    (spoil ((j.poisoned.filter mine).map (·.entry)) l) col row p
  (o, ⟨n, t.begun + 1, t.used + o.spent⟩ :: sp.filter (fun q => q.tile ≠ n))

/-- The triple of pixel column `x` in a row (R284). -/
def State.rayTriple (s : State) (j : BandJob) (row x p : Nat) (sp : List TileSpend) : Ray × List TileSpend :=
  match j.own.find? (fun q => decide (q.row = row ∧ q.x = x)) with
  | some q => (q, sp)
  | none =>
    let l := s.rayStack (rayRegion x row)
    let n := tileAt j.shares row x
    let r := s.bandRay j l n row (3 * x) p sp
    let g := s.bandRay j l n row (3 * x + 1) p r.2
    let b := s.bandRay j l n row (3 * x + 2) p g.2
    let count (f : RayOut → Bool) : Nat := Word.ofBool (f r.1) + Word.ofBool (f g.1) + Word.ofBool (f b.1)
    (⟨row, x, r.1.c, g.1.c, b.1.c, count (·.cut), count (·.black)⟩, b.2)

/-- The triples of a list of pixels (row, column), in panel scan order (R193), each tile's allowance running along. -/
def State.rayTriples (s : State) (j : BandJob) (p : Nat) : List (Nat × Nat) → List TileSpend → List Ray
  | [], _ => []
  | (row, x) :: rest, sp =>
    let q := s.rayTriple j row x p sp
    q.1 :: s.rayTriples j p rest q.2

end Sys2Proof.Machine
end

