-- ==== Sys2Proof/Machine/Sensor.lean ====
section
/-!
DEFINITION. How a temperature sensor is judged (R553 to R555). The samples of a sensor are held newest first, each its raw code and its
reading in 0.1 °C, at most 4,096 of them.
-/

namespace Sys2Proof.Machine

open Sys2Proof

/-- The window of the stuck test. -/
def sensorWindow : Nat := 4096

/-- Adds a sample. -/
def addSample (l : List (Nat × Int)) (x : Nat × Int) : List (Nat × Int) := (x :: l).take sensorWindow

/-- Whether a reading moved by 2.0 °C or more over the samples. -/
def movedTwo (l : List (Nat × Int)) : Bool :=
  match l with
  | [] => false
  | x :: _ =>
    let hi := l.foldl (fun a y => max a y.2) x.2
    let lo := l.foldl (fun a y => min a y.2) x.2
    decide (20 ≤ hi - lo)

/-- Stuck: the raw code has not changed over 4,096 samples while another sensor of the zone moved by 2.0 °C or more. -/
def stuck (mine : List (Nat × Int)) (others : List (List (Nat × Int))) : Bool :=
  match mine with
  | [] => false
  | x :: _ => decide (mine.length = sensorWindow) && mine.all (fun y => y.1 = x.1) && others.any movedTwo

/-- Out of range: below -55.0 °C or above 175.0 °C. -/
def outOfRange (r : Int) : Bool := decide (r < -550 ∨ 1750 < r)

/-- Twice the median of some readings. -/
def median2 (l : List Int) : Int :=
  let m := sortBy (fun a b => decide (a ≤ b)) l
  m.getD ((m.length - 1) / 2) 0 + m.getD (m.length / 2) 0

/-- Disagreeing: more than 15.0 °C from the median of the zone's other sensors that are not broken. -/
def disagrees (r : Int) (others : List Int) : Bool := !others.isEmpty && decide (300 < (2 * r - median2 others).natAbs)

/-- Why a sensor is broken: 1 stuck, 2 range, 3 disagree; 0 when it is not. `zone`: it has a zone to disagree with. -/
def judge (mine : List (Nat × Int)) (others : List (List (Nat × Int))) (good : List Int) (zone : Bool) : Nat :=
  let r := (mine.headD (0, 0)).2
  if stuck mine others then 1
  else if outOfRange r then 2
  else if zone && disagrees r good then 3
  else 0

end Sys2Proof.Machine
end

