-- ==== Sys2Proof/Machine/Tone.lean ====
section
/-!
DEFINITION. The output stage's tone mapping (spec/09, R284 to R288, R607, R608) in exact arithmetic, the transcendental functions and the
rounding that R288 allows left open (log entry 19).
-/

namespace Sys2Proof.Machine

open Sys2Proof

/-! ### Primaries (R284 step 2, R285, R607) -/

/-- Three numbers: R, G, B or X, Y, Z. -/
abbrev Triple := Rat × Rat × Rat

/-- The determinant of three columns. -/
def det3 (a b c : Triple) : Rat :=
  a.1 * (b.2.1 * c.2.2 - c.2.1 * b.2.2) - b.1 * (a.2.1 * c.2.2 - c.2.1 * a.2.2) + c.1 * (a.2.1 * b.2.2 - b.2.1 * a.2.2)

/-- The weights of the columns `a`, `b`, `c` that sum to `v`. -/
def solve3 (a b c v : Triple) : Triple :=
  let d := det3 a b c
  (det3 v b c / d, det3 a v c / d, det3 a b v / d)

/-- A column times a number; the sum of two columns. -/
def scale3 (k : Rat) (a : Triple) : Triple := (k * a.1, k * a.2.1, k * a.2.2)
def add3 (a b : Triple) : Triple := (a.1 + b.1, a.2.1 + b.2.1, a.2.2 + b.2.2)

/-- The chromaticity (x, y, z) of entry `i` of a list of x, y in units of 0.00002. -/
def chroma (p : List Nat) (i : Nat) : Triple :=
  let x : Rat := (p.getD (2 * i) 0 : Nat) / 50000
  let y : Rat := (p.getD (2 * i + 1) 0 : Nat) / 50000
  (x, y, 1 - x - y)

/-- The columns that take R, G, B to X, Y, Z, for primaries R, G, B and a white. -/
def rgbColumns (p : List Nat) : Triple × Triple × Triple :=
  let w := chroma p 3
  let s := solve3 (chroma p 0) (chroma p 1) (chroma p 2) (scale3 (1 / w.2.1) w)
  (scale3 s.1 (chroma p 0), scale3 s.2.1 (chroma p 1), scale3 s.2.2 (chroma p 2))

/-- BT.709 and BT.2020: x and y of R, G, B and D65 in units of 0.00002 (log entry 85). -/
def bt709 : List Nat := [32000, 16500, 15000, 30000, 7500, 3000, 15635, 16450]
def bt2020 : List Nat := [35400, 14600, 8500, 39850, 6550, 2300, 15635, 16450]

/-- Twice the area of the triangle of three chromaticities. -/
def triangle (a b c : Int × Int) : Int := (b.1 - a.1) * (c.2 - a.2) - (c.1 - a.1) * (b.2 - a.2)

/-- Whether primaries and white (x, y of R, G, B, white) give an invertible matrix (R607). -/
def invertible (p : List Nat) : Bool :=
  let q (i : Nat) : Int × Int := ((p.getD (2 * i) 0 : Nat), (p.getD (2 * i + 1) 0 : Nat))
  (List.range 4).all (fun i => decide ((q i).2 ≠ 0)) && decide (triangle (q 0) (q 1) (q 2) ≠ 0) && decide (triangle (q 3) (q 1) (q 2) ≠ 0) &&
    decide (triangle (q 0) (q 3) (q 2) ≠ 0) && decide (triangle (q 0) (q 1) (q 3) ≠ 0)

/-- Linear light in source primaries in the panel's primaries, negative results clipped; unchanged where the panel's give no invertible
matrix (R607). -/
def toPanel (source panel : List Nat) (v : Triple) : Triple :=
  if invertible panel then
    let m := rgbColumns source
    let n := rgbColumns panel
    let w := solve3 n.1 n.2.1 n.2.2 (add3 (add3 (scale3 v.1 m.1) (scale3 v.2.1 m.2.1)) (scale3 v.2.2 m.2.2))
    (max 0 w.1, max 0 w.2.1, max 0 w.2.2)
  else v

/-! ### The tone curve (R287) -/

/-- AUTO: source peak, panel peak, knee. -/
def autoCurve (ls lp k l : Rat) : Rat :=
  if ls ≤ lp ∨ lp ≤ k then min l lp
  else if l ≤ k then l
  else if ls < l then lp
  else
    let a := (l - k) / (lp - k)
    let m := (ls - k) / (lp - k)
    k + (lp - k) * (a * (1 + a / (m * m)) / (1 + a))

/-- TABLE: interpolated linearly between entries in PQ codes. -/
def tableCurve (lut : Nat → Nat) (l : Rat) : Rat :=
  let x := max 0 (min 1024 (1024 * Config.pqCode l))
  let i := min 1023 x.floor.toNat
  let f := x - (i : Nat)
  Config.pqLight (((lut i : Nat) + f * (((lut (i + 1) : Nat) : Rat) - (lut i : Nat))) / (fullScale : Nat))

/-- The knee K: KNEE % of Lp, or the frame's ANCHOR when that is not 0 and smaller. -/
def State.knee (s : State) (lp : Rat) : Rat :=
  let k : Rat := lp * (min 100 (s.get R.COMP_TONE_LIN_KNEE) : Nat) / 100
  let anchor : Nat := match s.comp.tone with | some l => if s.flag R.COMP_TONE_HINTS then l.getD 2 0 else 0 | none => 0
  if anchor ≠ 0 ∧ ((anchor : Nat) : Rat) < k then ((anchor : Nat) : Rat) else k

/-- T(L) in effect, for panel peak `lp`; Ls is SDR_WHITE for SDR and before any stream (R285, R286). -/
def State.toneCurve (s : State) (lp l : Rat) : Rat :=
  let c := s.get R.COMP_TONE_CURVE
  if c = 2 then min l lp
  else if c = 1 then tableCurve (fun i => s.get R.COMP_TONE_LUT i) l
  else
    let ls := if s.get R.COMP_TONE_EFF_TRANSFER ≤ 1 then max 1 (s.get R.COMP_TONE_SDR_WHITE) else s.get R.COMP_TONE_EFF_SRC_PEAK
    autoCurve (ls : Nat) lp (s.knee lp) l

/-! ### The steps (R284) -/

/-- Step 1 (R285): codes to light in cd/m². -/
def State.toneDecode (s : State) (t : Nat × Nat × Nat) : Triple :=
  let v (n : Nat) : Rat := (n : Nat) / (fullScale : Nat)
  let each (f : Rat → Rat) : Triple := (f (v t.1), f (v t.2.1), f (v t.2.2))
  let c := s.get R.COMP_TONE_EFF_TRANSFER
  if c = 2 then each Config.pqLight
  else if c = 3 then Config.hlgLight (s.get R.COMP_PANEL_RANGE_PEAK) (each (fun x => x))
  else if c = 4 then each (fun x => x * ((max 1 (s.get R.COMP_TONE_LIN_LIN_PEAK) : Nat) : Rat))
  else each (fun x => ((max 1 (s.get R.COMP_TONE_SDR_WHITE) : Nat) : Rat) * Config.sdrPower x)

/-- Step 3: with METHOD 0 the curve acts on the largest channel, with METHOD 1 on each. -/
def State.toneApply (s : State) (lp : Rat) (v : Triple) : Triple :=
  if s.flag R.COMP_TONE_METHOD then (s.toneCurve lp v.1, s.toneCurve lp v.2.1, s.toneCurve lp v.2.2)
  else
    let m := max v.1 (max v.2.1 v.2.2)
    if m = 0 then v else scale3 (s.toneCurve lp m / m) v

/-- Step 5 (R608): the lowest drive, a code with fraction, at which the interpolated response reaches `r`. -/
def driveOf (resp : List Nat) (r : Rat) : Rat :=
  let e (n : Nat) : Rat := ((resp.getD n 0 : Nat) : Rat)
  let c (n : Nat) : Rat := ((min (128 * n) 4095 : Nat) : Rat)
  if r ≤ e 0 then 0
  else
    match (List.range 32).find? (fun n => decide (r ≤ e (n + 1))) with
    | none => 4095
    | some n => c n + (r - e n) / (e (n + 1) - e n) * (c (n + 1) - c n)

/-- The exact 20-bit values of a triple. -/
def State.toneExact (s : State) (t : Nat × Nat × Nat) : Nat × Nat × Nat :=
  let d : PanelDesc := s.pseq.desc.getD ⟨0, 0, 0, 0, 0, 0, 0, 0, 0, 0, 0, [], []⟩
  let lp : Rat := (d.peak : Nat)
  let lb : Rat := (d.black : Nat) / 10000
  let source := if s.get R.COMP_TONE_EFF_TRANSFER ≤ 1 then bt709 else bt2020
  let v := s.toneApply lp (toPanel source d.primaries (s.toneDecode t))
  let out (l : Rat) : Nat := (256 * driveOf d.response (65535 * (lb + l * (lp - lb) / lp) / lp) + 1 / 2).floor.toNat
  (out v.1, out v.2.1, out v.2.2)

/-- What the open part of the tone mapping depends on: settings in effect, transfer, luminances, hints, the panel's description, the
table. -/
def State.toneKey (s : State) : List Nat :=
  let d := match s.pseq.desc with | some d => [d.peak, d.black] ++ d.primaries ++ d.response | none => []
  [(s.word R.COMP_TONE.base).toNat, (s.word R.COMP_TONE_LIN.base).toNat, s.comp.transfer] ++ s.comp.hdr ++ s.comp.tone.getD [] ++ d ++
    (if s.get R.COMP_TONE_CURVE = 1 then (List.range 1025).map (fun i => s.get R.COMP_TONE_LUT i) else [])

/-- A triple of 20-bit values tone-mapped (R284): each output within 16 of the exact one, the same for equal inputs and settings
(R288). -/
def State.toneMap (s : State) (t : Nat × Nat × Nat) : Nat × Nat × Nat :=
  let x := s.toneExact t
  let near (v : Nat) (ch : Nat) : Nat := min fullScale (v + (Config.toneError s.toneKey t ch).val - 16)
  (near x.1 0, near x.2.1 1, near x.2.2 2)

end Sys2Proof.Machine
end

