-- ==== Sys2Proof/Machine/Pseq.lean ====
section
/-!
DEFINITION. Panel sequencer (spec/11) and the output stage (R192 to R194, R459, R460): row bands, drive values, lens steps, temperature
bands, rectangles, VCOM, patterns, the power-fail warning.
-/

namespace Sys2Proof.Machine

open Sys2Proof

/-! ### Geometry (R193, R320) -/

/-- Rows of a half; row bands of a half. -/
def State.halfRows (s : State) : Nat := s.panelH / 2
def State.bandCount (s : State) : Nat := Word.cdiv s.panelH 128

/-- The panel rows of band `k` in half `h`. -/
def State.bandRows (s : State) (h k : Nat) : List Nat :=
  (List.range (min 64 (s.halfRows - 64 * k))).map (fun i => h * s.halfRows + 64 * k + i)

/-- Subpixel columns. -/
def State.columns (s : State) : Nat := 3 * s.panelW

/-- The half a row lies in. -/
def State.halfOf (s : State) (row : Nat) : Nat := if row < s.halfRows then 0 else 1

/-! ### Tone mapping and dither (R192, R284) -/

/-- Table 6.3. -/
def ditherMatrix : List Nat := [0, 8, 2, 10, 12, 4, 14, 6, 3, 11, 1, 9, 15, 7, 13, 5]

/-- The dither in effect: 1 in STILL (R347), 3 acting as 2. -/
def State.ditherMode (s : State) : Nat :=
  if mTemporal (s.get R.VIEW_MODE_EFF_MODE) = 2 then 1 else min 2 (s.view.ctrl / 16 % 4)

/-- A 20-bit value reduced to 12 bits at (row, column) of subframe `sf`. -/
def dither (mode sf row col v : Nat) : Nat :=
  let m := ditherMatrix.getD (row % 4 * 4 + col % 4) 0
  let d := if mode = 0 then 128 else if mode = 1 then 16 * m + 8 else 16 * ((m + 4 * (sf % 4)) % 16) + 8
  min 4095 ((v + d) / 256)

/-- The value a signature takes of a tone-mapped one (R292). -/
def sigValue (v : Nat) : Nat := min 4095 ((v + 128) / 256)

/-- The tone-mapped subpixels of a band: row, column, 20-bit value. -/
def State.toneBand (s : State) (rays : List Ray) : List (Nat × Nat × Nat) :=
  rays.flatMap (fun q =>
    let t := s.toneMap (q.r, q.g, q.b)
    [(q.row, 3 * q.x, t.1), (q.row, 3 * q.x + 1, t.2.1), (q.row, 3 * q.x + 2, t.2.2)])

/-! ### A row band is finished (R193, R194, R26) -/

/-- The phase of the subframe being rendered: the one in flight, or the next to launch. -/
def State.renderIndexPhase (s : State) : Nat :=
  if s.view.renderSf = s.sf then s.pseq.phase
  else if s.pseq.modes.isSome then 0
  else s.pseq.next % max 1 s.pseq.phases

/-- Whether concealment, an overrun budget, the safe image, a pattern or a missing step excuses bands from comparison (R460), beside an
overrun of the band itself. -/
def State.excusedNow (s : State) : Bool :=
  (match s.intk.shown with | some f => s.concealed f | none => false) ||
    s.flag R.FAB_STAT_DEGRADED || decide (0 < s.thm.level) || s.flag R.COMP_SAFE_STAT_ACTIVE || s.flag R.PSEQ_STAT_PATTERN_ON ||
    s.flag R.PAIR_STAT_OUT_OF_STEP || s.flag R.PAIR_STAT_RESYNC

/-- Region `r` collects the values of a band that lie in it (R291, R292). -/
def State.collectRegion (s : State) (phase : Nat) (vals : List (Nat × Nat × Nat)) (r : Nat) : List (Nat × Nat × Nat × Nat) :=
  let m := s.get R.VIEW_MODE_EFF_MODE
  if s.flag R.COMP_SIG_CFG_EN r && !s.flag R.COMP_SIG_STAT_BAD r && decide (s.get R.COMP_SIG_CFG_PHASE r = phase) then
    let pitchX := if mLayout m = 0 then 48 else if mLayout m = 1 then 24 else 3
    let pitchY := if mLayout m = 0 then 16 else 1
    vals.filterMap (fun v =>
      let px := v.2.1 / pitchX
      let py := v.1 / pitchY
      let x := s.get R.COMP_SIG_RECT_XY_X r
      let y := s.get R.COMP_SIG_RECT_XY_Y r
      if x ≤ px ∧ px < x + s.get R.COMP_SIG_RECT_WH_W r ∧ y ≤ py ∧ py < y + s.get R.COMP_SIG_RECT_WH_H r ∧
          viewNumber m v.2.1 v.1 phase = s.get R.COMP_SIG_CFG_VIEW r then
        some (r, v.1, v.2.1, sigValue v.2.2)
      else none)
  else []

/-- The view and phase the preview captures (R505): those of PREV_VIEW, or with AUTO the central view of Table 6.2 in phase 0. -/
def State.prevTarget (s : State) : Nat × Nat :=
  if s.flag R.PREV_CTRL_AUTO then
    let m := s.get R.VIEW_MODE_EFF_MODE
    let v := modeViews m false
    (v.2 / 2 * (if mLayout m = 0 then 32 else 0) + v.1 / 2, 0)
  else (s.get R.PREV_VIEW_VIEW, s.get R.PREV_VIEW_PHASE)

/-- The points of a view in a phase that values (row, subpixel column, value) belong to (R291, R505): point column, point row, channel,
value in 10 bits. -/
def viewPoints (m view phase : Nat) (vals : List (Nat × Nat × Nat)) : List (Nat × Nat × Nat × Nat) :=
  vals.filterMap (fun v =>
    let c := v.2.1
    if mLayout m = 1 then
      let cell := 3 * (c % 24 / 3)
      if (List.range 3).any (fun k => viewNumber m (cell + k) v.1 phase = view) then some (c / 24, v.1, c % 3, sigValue v.2.2 / 4) else none
    else if viewNumber m c v.1 phase = view then
      (if mLayout m = 0 then some (c / 48, v.1 / 16, c % 3, sigValue v.2.2 / 4) else some (c / 3, v.1, c % 3, sigValue v.2.2 / 4))
    else none)

/-- What the capture takes of a band in the subframe of index phase `p` (R505); with the last band it is complete. In a cold band the cells
are taken at COLD_PHASE. -/
def State.captureBand (s : State) (p : Nat) (vals : List (Nat × Nat × Nat)) (last : Bool) : State :=
  let t := s.prevTarget
  if s.flag R.PREV_CTRL_SRC ∨ p ≠ s.renderPhase t.2 then s
  else { s with host := { s.host with
    cap := s.host.cap ++ viewPoints (s.get R.VIEW_MODE_EFF_MODE) t.1 t.2 vals
    capDone := s.host.capDone || last } }

/-- The subframe boundary tokens of the subframe the fabric goes on to, unless it begins a light-field frame, whose boundary token
FABRIC_FRAME_START sends (R119, R140). -/
def State.subframeTokens (s : State) : State :=
  let sf := s.view.renderSf % 2 ^ 32
  let p := s.renderIndexPhase
  if p = 0 then s else s.sourceTokens 0xFFE (sf + p % 4 * 2 ^ 32) sf

/-- The tiles begin a row band: their allowances are whole (R19), the row-band buffers hold none of its rays yet. -/
def State.bandBegin (s : State) : State :=
  let s1 := (s.fab.tiles.map (·.1)).foldl (fun t n => t.setTile n { t.tile n with begun := 0, used := 0 }) s
  { s1 with fab := { s1.fab with rayOut := [] } }

/-- The fabric goes on to the band after `k` (VIEW_BAND); after the last one to band 0 of the next subframe. -/
def State.nextBand (s : State) (k : Nat) : State :=
  let last := decide (s.bandCount ≤ k + 1)
  let sf := if last then (s.view.renderSf + 1) % 2 ^ 64 else s.view.renderSf
  let s1 : State := { s with view := { s.view with renderSf := sf } }
  let s2 := s1.bandBegin.setWord R.VIEW_BAND.base (BitVec.ofNat 32 ((if last then 0 else k + 1) + 65536 * (sf % 65536)))
  if last then s2.subframeTokens else s2

/-- The signature of the values of a band in half `h` (R459). -/
def State.bandSig (s : State) (h : Nat) (vals : List (Nat × Nat × Nat)) : Nat :=
  crc32c ((vals.filter (fun v => decide (s.halfOf v.1 = h))).flatMap (fun v => [sigValue v.2.2 % 256, sigValue v.2.2 / 256]))

/-- A tile that completed a band without an overrun takes its own budget again (R26). -/
def State.recoverTile (s : State) (n : Nat) : State :=
  if (s.tile n).lowered.isSome then
    let s1 := s.setTile n { s.tile n with lowered := none }
    s1.put R.FAB_TILE_BUDGET (s1.tileBudget n) n
  else s

/-- The pixels of band `k`, both halves (R193). -/
def State.bandPixels (s : State) (k : Nat) : List (Nat × Nat) :=
  (List.range 2).flatMap (fun h => (s.bandRows h k).flatMap (fun row => (List.range s.panelW).map (fun x => (row, x))))

/-- What the rays of band `k` depend on: triples other than this chapter's only under an owner-signed personality (R190, R191). -/
def State.bandJob (s : State) (k : Nat) (own : List Ray) (shares : List Share) (poisoned unfinished : List RayAt) : BandJob :=
  let tiles := 400 :: shares.map (·.tile)
  { stop := s.alphaStop
    own := if s.get R.PERS_SLOT_COVER_KEY_SET s.activeSlot = 1 then own else []
    shares := shares, poisoned := poisoned, unfinished := unfinished
    totals := tiles.map (fun n => (n, 3 * ((s.bandPixels k).filter (fun q => tileAt shares q.1 q.2 = n)).length)) }

/-- The triples of band `k`, both halves, rendered in phase `p`. -/
def State.bandTriples (s : State) (k p : Nat) (j : BandJob) : List Ray := s.rayTriples j p (s.bandPixels k) []

/-- Each number of a list once. -/
def distinct : List Nat → List Nat
  | [] => []
  | a :: l => a :: (distinct l).filter (· ≠ a)

/-- Band `k` is finished and goes into its buffer; the tiles of its shares that are not `late` completed it without an overrun. -/
def State.bandFinish (s : State) (k : Nat) (j : BandJob) (late : List Nat) (overran : Bool) : State :=
  let sf := s.view.renderSf
  let p := s.renderIndexPhase
  let rays := s.bandTriples k (s.renderPhase p) j
  let tiles := (distinct (j.shares.map (·.tile))).filter (· < 400)
  let vals := s.toneBand rays
  let mode := s.ditherMode
  let buf : BandBuf := ⟨sf, k, overran || s.excusedNow, vals.map (fun v => (v.1, v.2.1, dither mode sf v.1 v.2.1 v.2.2)),
    [s.bandSig 0 vals, s.bandSig 1 vals], tiles⟩
  let got := (List.range 16).flatMap (s.collectRegion p vals)
  let total (f : Ray → Nat) : Nat := (rays.map f).foldl (· + ·) 0
  let s1 := ((s.count R.VIEW_RAYS (3 * rays.length)).bumpBy R.VIEW_CUT (total (·.cut))).bumpBy R.VIEW_BLACK (total (·.black))
  let s2 : State := { s1 with
    comp := { s1.comp with sigVals := s1.comp.sigVals ++ got }
    pseq := { s1.pseq with bands := s1.pseq.bands ++ [buf] } }
  let s3 := (tiles.filter (fun n => !late.contains n)).foldl (fun t n => t.recoverTile n) s2
  let last := decide (s.bandCount ≤ k + 1)
  ((s3.captureBand p vals last).wmPass sf k last).nextBand k

/-- ROW_BAND_COMPLETE (R194): the band being rendered is complete; its buffer must have been free, and the fabric out of reset. -/
def execRowBandComplete (own : List Ray) (shares : List Share) (poisoned : List RayAt) (s : State) : Out :=
  let k := s.get R.VIEW_BAND % 128
  .next (if s.rst.hold = .run ∧ s.pseq.bands.isEmpty = true then s.bandFinish k (s.bandJob k own shares poisoned []) [] false else s)

/-- Tile `n` overran a band (R26): its own budget falls one step from the next band on. -/
def State.tileOverran (s : State) (n : Nat) : State :=
  let s1 := s.setTile n { s.tile n with lowered := some (stepDown (s.tileBudget n)) }
  ((s1.put R.FAB_TILE_BUDGET (s1.tileBudget n) n).bump R.FAB_TILE_ERRX_OVERRUN n).tileEvent n 4

/-- Band `k` is not complete when the sequencer sends it (R26): the tiles that overran it are named (FAB_TILE EVENT), each once. -/
def State.bandOverrun (s : State) (k : Nat) (j : BandJob) (slow : List Nat) : State :=
  let late := (distinct slow).filter (· < 400)
  let s1 := s.bandFinish k j late true
  let s2 := late.foldl (fun t n => t.tileOverran n) s1
  (s2.raise .view 5).offer 8 1 3 0x302 k late.length (.link none)

/-! ### From ray to drive value (R339 to R345) -/

/-- Whether the maps and the history can be read (R356). -/
def State.corrected (s : State) : Bool := s.pseq.histReady && !s.anyFrozen

/-- Why two maps do not serve (R342): bit 0 a serial that is not the panel's, bit 1 a block whose CRC fails, bit 2 a map that is too long. -/
def State.mapsBad (s : State) (a b : UnifMap) : Nat :=
  let ser := s.get R.PSEQ_PANEL_SERIAL
  Word.ofBool (decide (a.serial ≠ ser ∨ b.serial ≠ ser)) + 2 * Word.ofBool (!(a.blocks ++ b.blocks).all (·.crcOk)) +
    4 * Word.ofBool (decide (200000000 < a.totalLen ∨ 200000000 < b.totalLen))

/-- What PSEQ_UNIF_STAT and PSEQ_UNIF_BYTES show of the maps flash holds, and whether those in DRAM are in use (R342); CORE clears the
registers and leaves the maps (R360). -/
def State.unifReport (s : State) : State :=
  match s.nv.maps with
  | none => s
  | some (a, b) =>
    let bad := s.mapsBad a b
    ((((s.putB R.PSEQ_UNIF_STAT_SERIAL (bad.testBit 0)).putB R.PSEQ_UNIF_STAT_CRC (bad.testBit 1)).putB R.PSEQ_UNIF_STAT_TOO_BIG
      (bad.testBit 2)).put R.PSEQ_UNIF_BYTES (a.totalLen + b.totalLen)).putB R.PSEQ_UNIF_STAT_LOADED s.pseq.maps.isSome

/-- Gain and offset of a map at a subpixel. -/
def mapAt (m : UnifMap) (row col : Nat) : Nat × Int :=
  let b := m.blocks.getD (row / 64 * m.blocksX + col / 64) ⟨[], [], true⟩
  let i := row % 64 * 64 + col % 64
  (b.gains.getD i 16384, b.offsets.getD i 0)

/-- Uniformity correction (R340) with the weight W in effect; off, T = V. -/
def State.target (s : State) (row col v : Nat) : Nat :=
  match s.pseq.maps with
  | some (c, w) =>
    if s.corrected && s.flag R.PSEQ_CTRL_UNIF_EN && s.flag R.PSEQ_UNIF_STAT_LOADED then
      let a := mapAt c row col
      let b := mapAt w row col
      let k : Int := (s.get R.PSEQ_UNIF_STAT_W : Nat)
      let g : Int := (a.1 : Int) + Int.fdiv (((b.1 : Int) - (a.1 : Int)) * k + 128) 256
      let o : Int := a.2 + Int.fdiv ((b.2 - a.2) * k + 128) 256
      (Word.clampI 0 4095 (Int.fdiv ((v : Int) * g + 8192) 16384 + o)).toNat
    else v
  | none => v

/-- The weight W for a band temperature (R340). -/
def unifWeight (temp cool warm : Int) : Nat :=
  if warm ≤ cool then (if cool ≤ temp then 256 else 0)
  else (Word.clampI 0 256 (Int.fdiv (256 * (temp - cool)) (warm - cool))).toNat

/-- Overdrive (R343): band `b`, column, previous value `p`, target `t`. -/
def State.overdrive (s : State) (b col p t : Nat) : Nat :=
  let tab := 3 * b + col % 3
  let i := min (p / 256) 15
  let j := min (t / 256) 15
  let fi := p - 256 * i
  let fj := t - 256 * j
  let od (x y : Nat) : Nat := s.get R.PSEQ_OD tab (17 * x + y)
  let sum := (256 - fi) * (256 - fj) * od i j + fi * (256 - fj) * od (i + 1) j + (256 - fi) * fj * od i (j + 1) + fi * fj * od (i + 1) (j + 1)
  min 4095 ((sum + 32768) / 65536)

/-- The history of a subpixel, its index, and what a target leaves there (R344). -/
def histDefault (_ : Nat) : Nat := 0
def State.histIndex (s : State) (row col : Nat) : Nat := row * s.columns + col
def histOf (t : Nat) : Nat := (t * 63 + 2047) / 4095

/-- Whether a rectangle covers a subpixel. -/
def rectCovers (r : Rect) (row col : Nat) : Bool := decide (r.x ≤ col ∧ col < r.x + r.w ∧ r.y ≤ row ∧ row < r.y + r.h)

/-- How a subpixel is written: not at all; with overdrive of a band; or with drive code T (R346). -/
inductive WriteKind where
  | held
  | full (band : Nat)
  | plain
  deriving DecidableEq, Repr

/-- The kind of write of a subpixel in the subframe in flight. -/
def State.writeKind (s : State) (row col : Nat) : WriteKind :=
  if s.flag R.PSEQ_STAT_FULL || s.pseq.stillFull then .full (s.get R.PSEQ_TEMP_BAND_LV)
  else
    match s.pseq.flights.find? (fun f => rectCovers f.rect row col) with
    | none => .held
    | some f => if f.first then .full f.band else .plain

/-- The drive code of a subpixel, the history updated (R339). -/
def State.driveCode (s : State) (k : WriteKind) (row col v : Nat) : State × Nat :=
  let t := s.target row col v
  if s.corrected then
    let i := s.histIndex row col
    let code := match k with
      | .full b => if s.flag R.PSEQ_CTRL_OD_EN then s.overdrive b col (65 * Sparse.get histDefault s.pseq.hist i) t else t
      | _ => t
    ({ s with pseq := { s.pseq with hist := Sparse.set histDefault s.pseq.hist i (histOf t) } }, code)
  else (s, t)

/-- The written subpixels of one row: history, drive codes. -/
def State.driveRow (s : State) (row : Nat) : List (Nat × Nat) → State × List (Nat × Nat)
  | [] => (s, [])
  | (col, v) :: l =>
    match s.writeKind row col with
    | .held => s.driveRow row l
    | k =>
      let (s1, code) := s.driveCode k row col v
      let (s2, rest) := s1.driveRow row l
      (s2, (col, code) :: rest)

/-- Sends one row: nothing when it is held; else its codes with the row's polarity, which alternates (R339, R346). -/
def State.sendRow (s : State) (row : Nat) (vals : List (Nat × Nat)) : State :=
  match s.driveRow row vals with
  | (_, []) => s
  | (s1, codes) =>
    let inv := s1.pseq.pol.contains row
    let pol := if inv then s1.pseq.pol.filter (· ≠ row) else row :: s1.pseq.pol
    ({ s1 with pseq := { s1.pseq with pol := pol } } : State).sendLine row codes inv

/-! ### STILL (R347, R348) -/

/-- The update tile of a subpixel, numbered by half, band and 720-column tile. -/
def State.tileKey (s : State) (h k t : Nat) : Nat := (h * s.bandCount + k) * 64 + t

/-- CRC of the values of an update tile. -/
def tileCrcOf (vals : List (Nat × Nat × Nat)) : Nat := crc32c (vals.flatMap (fun v => [v.2.2 % 256, v.2.2 / 256]))

/-- The values of tile `t` of half `h` in a band. -/
def State.tileVals (s : State) (h t : Nat) (vals : List (Nat × Nat × Nat)) : List (Nat × Nat × Nat) :=
  vals.filter (fun v => decide (s.halfOf v.1 = h ∧ v.2.1 / 720 = t))

/-- Consecutive numbers joined into runs (start, length). -/
def runsOf : List Nat → List (Nat × Nat)
  | [] => []
  | a :: l =>
    match runsOf l with
    | (b, n) :: r => if b = a + 1 then (a, n + 1) :: r else (a, 1) :: (b, n) :: r
    | [] => [(a, 1)]

/-- Whether two rectangles meet. -/
def rectMeets (a b : Rect) : Bool := decide (a.x < b.x + b.w ∧ b.x < a.x + a.w ∧ a.y < b.y + b.h ∧ b.y < a.y + a.h)

/-- One run of changed tiles: it extends the rectangle of the band above, waits for one in flight, or opens a rectangle; a 17th makes
the rest of the subframe a full write. -/
def State.openRun (s : State) (h k : Nat) (run : Nat × Nat) : State :=
  if s.pseq.stillFull then s
  else
    let rows := s.bandRows h k
    let y := rows.headD 0
    let r : Rect := ⟨720 * run.1, y, min (720 * run.2) (s.columns - 720 * run.1), rows.length, max 1 (s.get R.PSEQ_BAND_WAVE (s.get R.PSEQ_TEMP_BAND_LV))⟩
    let extends_ (f : Flight) : Bool := f.first && decide (f.rect.x = r.x ∧ f.rect.w = r.w ∧ f.rect.y + f.rect.h = y ∧ 0 < k)
    if s.pseq.flights.any (fun f => !f.first && rectMeets f.rect r) then s
    else if s.pseq.flights.any extends_ then
      { s with pseq := { s.pseq with flights := s.pseq.flights.map (fun f => if extends_ f then { f with rect := { f.rect with h := f.rect.h + r.h } } else f) } }
    else if 16 ≤ (s.pseq.flights.filter (·.first)).length then { s with pseq := { s.pseq with stillFull := true } }
    else { s with pseq := { s.pseq with flights := s.pseq.flights ++ [⟨r, r.wave - 1, true, s.get R.PSEQ_TEMP_BAND_LV⟩] } }

/-- The sequencer finds the changed area of a band in one half. -/
def State.stillBand (s : State) (k : Nat) (vals : List (Nat × Nat × Nat)) (h : Nat) : State :=
  let changed := (List.range 64).filter (fun t =>
    let v := s.tileVals h t vals
    !v.isEmpty && decide (s.pseq.tileCrc.find? (fun c => c.1 = s.tileKey h k t) ≠ some (s.tileKey h k t, tileCrcOf v)))
  (runsOf changed).foldl (fun t run => t.openRun h k run) s

/-- The CRCs of the tiles a band writes whole (R347); of a tile written in part no CRC of what it shows is known. -/
def State.keepCrcs (s : State) (k : Nat) (vals : List (Nat × Nat × Nat)) : State :=
  let keys := (List.range 2).flatMap (fun h => (List.range 64).map (fun t => (h, t)))
  let written := keys.filterMap (fun q =>
    let v := s.tileVals q.1 q.2 vals
    if v.all (fun x => decide (s.writeKind x.1 x.2.1 = .held)) then none
    else some (s.tileKey q.1 k q.2, v.all (fun x => decide (s.writeKind x.1 x.2.1 ≠ .held)), tileCrcOf v))
  let fresh := (written.filter (·.2.1)).map (fun w => (w.1, w.2.2))
  { s with pseq := { s.pseq with tileCrc := fresh ++ s.pseq.tileCrc.filter (fun c => !written.any (fun d => d.1 = c.1)) } }

/-! ### Patterns (R52, R356) -/

/-- What the text of the identification pattern says (R52): the last 6 hexadecimal digits of the serial; ARRAY_POS, or "--" while it is
unset; the pair role; the firmware version. -/
def State.patternKey (s : State) : List Nat :=
  [s.nv.serial % 2 ^ 24, if s.flag R.ARRAY_POS_VALID then 1 + s.get R.ARRAY_POS_X + 32 * s.get R.ARRAY_POS_Y else 0, s.get R.RST_STRAP_ROLE,
    s.get R.CARE_STAT_FW_VER]

/-- What stands at a pixel of the identification pattern (R52): none the white border, else a colour of `Config.idColour`: a centred text
block, the health bar beneath it, and the mid-grey field around them. -/
def State.patternPart (s : State) (row x : Nat) : Option Nat :=
  let (tw, th, gap, bw, bh) := Config.idSizes
  let x0 := (s.panelW - tw) / 2
  let y0 := (s.panelH - th) / 2
  let bx := (s.panelW - bw) / 2
  let bandY := y0 + th + gap
  if x < 64 ∨ s.panelW ≤ x + 64 ∨ row < 64 ∨ s.panelH ≤ row + 64 then none
  else if x0 ≤ x ∧ x < x0 + tw ∧ y0 ≤ row ∧ row < y0 + th ∧ Config.idText s.patternKey (row - y0) (x - x0) = true then some 1
  else if bx ≤ x ∧ x < bx + bw ∧ bandY ≤ row ∧ row < bandY + bh then some (2 + s.healthBar)
  else some 0

/-- A value of the pattern in effect: the identification pattern (its field is grey: one value for the three channels), a flat field, a
value by group. -/
def State.patternValue (s : State) (row col : Nat) : Nat :=
  if s.pseq.pat = 2 then s.pseq.patLevel
  else if s.pseq.pat = 3 then 256 * (8 * s.halfOf row + col / 5760) + 128
  else
    match s.patternPart row (col / 3) with
    | none => 4095
    | some 0 => (Config.idColour 0 0).toNat
    | some k => (Config.idColour k (col % 3)).toNat

/-- The band of a pattern. -/
def State.patternBand (s : State) (k : Nat) : List (Nat × Nat × Nat) :=
  (List.range 2).flatMap (fun h => (s.bandRows h k).flatMap (fun row => (List.range s.columns).map (fun col => (row, col, s.patternValue row col))))

/-! ### A band is sent (R194, R344, R351) -/

/-- The lanes of a panel group: IDLE during a band in which nothing of the group is written (R351, R402). -/
def State.groupIdle (s : State) (sent : List (Nat × Nat)) (g : Nat) : State :=
  if s.groupStage g = 5 ∧ s.flag R.PAIR_STAT_DRIVE = true then
    let busy := sent.any (fun q => decide (s.halfOf q.1 = g / 8 ∧ q.2 / 5760 = g % 8))
    let want := if busy then 0 else min 1 (s.get R.LANE_GRP_CTRL_DEEPEST (leadLane g))
    let now := s.get R.LANE_GRP_STAT_TX_PWR (leadLane g)
    if now = want then s
    else
      let s1 := s.grpPower g true want
      if want = 0 then s1.sendWake g else s1
  else s

/-- Sends the values of band `k`: STILL's rectangles, drive codes, lane power, the band's signatures. What the valve then holds is known by
its CRCs in every mode, so that STILL rewrites what differs from it whatever wrote it (R16). -/
def State.bandSend (s : State) (k : Nat) (vals : List (Nat × Nat × Nat)) : State :=
  let still := decide (mTemporal s.pseq.slot.mode = 2) && decide (mLayout s.pseq.slot.mode ≠ 2)
  let s1 := if still && !s.flag R.PSEQ_STAT_FULL then (List.range 2).foldl (fun t h => t.stillBand k vals h) s else s
  let s2 := s1.keepCrcs k vals
  let rows := (List.range 2).flatMap (s2.bandRows · k)
  let sent := (vals.filter (fun v => decide (s2.writeKind v.1 v.2.1 ≠ .held))).map (fun v => (v.1, v.2.1))
  let s3 := s2.groupsInUse.foldl (fun t g => t.groupIdle sent g) s2
  rows.foldl (fun t row => t.sendRow row ((vals.filter (fun v => v.1 = row)).map (fun v => (v.2.1, v.2.2)))) s3

/-- The registers of rectangles in flight and queued. -/
def State.rectStat (s : State) : State :=
  ((s.put R.PSEQ_RECT_STAT_QUEUED s.pseq.queued.length).put R.PSEQ_RECT_STAT_IN_FLIGHT s.pseq.flights.length).put R.PSEQ_STAT_IN_FLIGHT
    s.pseq.flights.length

/-- The last band of a subframe has been sent: signatures go to the partner; a STILL subframe written to its end in full resets the
count of R352. -/
def State.subframeSent (s : State) : State :=
  let set := s.pseq.sigs
  let s1 : State := { s with pseq := { s.pseq with
    inFlight := false, held := if s.pseq.stillFull then 1 else s.pseq.held, sigs := ⟨0, [], [], []⟩ } }
  s1.sigSend set

/-- ROW_BAND_DEADLINE (R194): the panel begins the band's first line and the sequencer sends it. The operands say of
an unfinished band which tiles rendered it, which overran it, which rays were unfinished (R26); they are not looked at when the band is
complete or a pattern is shown. -/
def execRowBandDeadline (own : List Ray) (shares : List Share) (slow : List Nat) (poisoned unfinished : List RayAt) (s : State) : Out :=
  if s.pseq.inFlight = false then .next s
  else
    let k := s.pseq.sentBands
    let pattern := s.flag R.PSEQ_STAT_PATTERN_ON
    let mine (b : BandBuf) : Bool := decide (b.sf = s.sf ∧ b.band = k)
    let s1 := if s.pseq.bands.any mine then s
      else if pattern then (if s.view.renderSf = s.sf ∧ s.get R.VIEW_BAND % 128 = k then s.nextBand k else s)
      else s.bandOverrun k (s.bandJob k own shares poisoned unfinished) slow
    let buf := s1.pseq.bands.find? mine
    let vals := if pattern then s1.patternBand k else match buf with | some b => b.vals | none => []
    let s2 : State := { s1 with pseq := { s1.pseq with bands := s1.pseq.bands.filter (fun b => !mine b) } }
    let s3 := ((s2.put R.PSEQ_STAT_BAND k).put R.PSEQ_STAT_LINE (64 * k)).bandSend k vals
    let g := s3.pseq.sigs
    let sigs := match buf with | some b => b.sigs | none => [0, 0]
    let exc := pattern || (match buf with | some b => b.excused | none => true)
    let own := match buf with | some b => b.tiles | none => []
    let set : SigSet := ⟨s3.sf, g.sigs ++ sigs, g.excused ++ [exc, exc], g.tiles ++ [own, own]⟩
    let s4 : State := ({ s3 with pseq := { s3.pseq with sigs := set, sentBands := k + 1 } } : State).rectStat
    .next (if s4.bandCount ≤ k + 1 then s4.subframeSent else s4)

/-! ### Lens steps (R330 to R333, R338) -/

/-- A signed lens code, -128 acting as -127. -/
def lensCode (n : Nat) : Int := max (-127) (Word.signed 8 n)

/-- The codes a segment drives in step `st` of a slot: nothing in FLAT; X alone in HORIZ; the settled step of COLD_PHASE while steering
is off. -/
def State.lensDrive (s : State) (q : LensSlot) (st : Nat) : Int × Int :=
  if mLayout q.mode = 2 then (0, 0)
  else
    let cold := s.get R.PSEQ_MODE_COLD_PHASE
    let p := if q.off then (if cold < modePhases q.mode then cold else 0) else q.phase
    let i := 16 * q.band + 4 * steerSet q.mode + p
    let t := if q.off then 31 else st
    let x := lensCode (s.get R.PSEQ_LENSWAVE_X i t)
    (x, if mLayout q.mode = 1 then 0 else lensCode (s.get R.PSEQ_LENSWAVE_Y i t))

/-- Segment `k` of a half at step `st` of the subframe: its slot begins when line 64k does; before that it ends the slot before. -/
def State.segmentDrive (s : State) (k st : Nat) : Int × Int :=
  let v := max 1 s.vtotal
  let pos := Int.fdiv ((st * v : Nat) - (2048 * k : Nat) : Int) v
  if 0 ≤ pos then s.lensDrive s.pseq.slot pos.toNat else s.pseq.slotOld.getD (max 0 (pos + 32)).toNat (0, 0)

/-- LENS_STEP (R331): every segment drives its next step, from the module that holds the drive (R58). -/
def execLensStep (s : State) : Out :=
  let st := s.pseq.lensStep
  if 32 ≤ st then .next s
  else
    let segs := (List.range 2).flatMap (fun h => (List.range s.bandCount).map (fun k => (h, k)))
    let s1 := if s.flag R.PAIR_STAT_DRIVE then
      segs.foldl (fun t q => let c := s.segmentDrive q.2 st; t.emit (.lens q.1 q.2 c.1 c.2)) s else s
    .next { s1 with pseq := { s1.pseq with lensStep := st + 1 } }

/-! ### Temperature bands (R334, R335, R555) -/

/-- The highest band whose LOW is at or below a temperature; band 0 reaches down. -/
def State.bandFor (s : State) (t : Int) : Nat :=
  (List.range 8).foldl (fun b k => if 0 < k ∧ s.getI R.PSEQ_BAND_LOW k ≤ t then k else b) 0

/-- The band temperature becomes `t`: the band follows with the hysteresis of R335. -/
def State.bandTemp (s : State) (t : Int) : State :=
  let s1 := s.putI R.PSEQ_TEMP_TEMP t
  let b := s.pseq.band
  let n := s1.bandFor t
  let b' := if b < n then n else if n < b ∧ t < s1.getI R.PSEQ_BAND_LOW b - 20 then n else b
  if b' = b then s1
  else (({ s1 with pseq := { s1.pseq with band := b' } } : State).bump R.PSEQ_EVENTS_BAND_CHANGES).raiseRec .pseq 0

/-- Takes the readings (sensor, raw code, reading) of a blanking interval and judges the sensors. -/
def State.panelSensors (s : State) (l : List (Nat × Nat × Int)) : State :=
  let n := match s.pseq.desc with | some d => d.sensors | none => 0
  let now := (List.range n).map (fun i => match l.find? (fun q => q.1 = i) with
    | some q => addSample (s.pseq.sensors.getD i []) (q.2.1, q.2.2)
    | none => s.pseq.sensors.getD i [])
  let bad := (List.range n).foldl (fun m i =>
    if m.testBit i || !l.any (fun q => q.1 = i) then m
    else
      let rest := (List.range n).filter (· ≠ i)
      let good := (rest.filter (fun j => !m.testBit j && l.any (fun q => q.1 = j))).map (fun j => ((now.getD j []).headD (0, 0)).2)
      if judge (now.getD i []) (rest.map (fun j => now.getD j [])) good true = 0 then m else Word.setBit m i) s.pseq.broken
  { s with pseq := { s.pseq with sensors := now, broken := bad } }

/-- PANEL_TEMP_READING (R334, R555). -/
def execPanelTempReading (readings : List (Nat × Nat × Int)) (s : State) : Out :=
  let s1 := s.panelSensors readings
  let n := match s.pseq.desc with | some d => d.sensors | none => 0
  match (readings.filter (fun q => decide (q.1 < n) && !s1.pseq.broken.testBit q.1)).map (fun q => q.2.2) with
  | [] => .next s1
  | t :: l =>
    let s2 := (({ s1 with pseq := { s1.pseq with noReading := 0 } } : State).put R.PSEQ_TEMP_SRC 0)
    .next (s2.bandTemp (l.foldl min t))

/-- The coldplate sensor stands in for the panel's; a broken one is left out (R554). -/
def State.coldplateTemp (s : State) : State := if s.flag R.THM_SENS_BROKEN 64 then s else s.bandTemp (s.getI R.THM_SENS_READING 64)

/-- PANEL_TEMP_TIMEOUT (R334): 16 subframes without a valid reading. -/
def execPanelTempTimeout (s : State) : Out :=
  if s.pseq.noReading < 16 then .next s
  else
    let s1 := if s.flag R.PSEQ_TEMP_SRC then s else (s.put R.PSEQ_TEMP_SRC 1).recOther R.PSEQ_TEMP.base
    .next s1.coldplateTemp

/-! ### Rectangles (R349) -/

/-- The write of PSEQ_RECT_SUBMIT. -/
def State.rectSubmit (s : State) (data : Nat) : State :=
  let x := s.get R.PSEQ_RECT_XY_X
  let y := s.get R.PSEQ_RECT_XY_Y
  let w := s.get R.PSEQ_RECT_WH_W
  let h := s.get R.PSEQ_RECT_WH_H
  let m := s.get R.VIEW_MODE_EFF_MODE
  if w = 0 ∨ h = 0 ∨ s.panelW < x + w ∨ s.panelH < y + h ∨ mLayout m ≠ 2 ∨ s.flag R.PSEQ_CTRL_PARTIAL = false then s.bump R.PSEQ_RECT_VOID
  else if 16 ≤ s.pseq.queued.length + s.pseq.flights.length then (s.bump R.PSEQ_RECT_VOID).raise .pseq 6
  else
    let r : Rect := ⟨3 * x, y, 3 * w, h, Word.clamp 1 4 (data % 8)⟩
    ({ s with pseq := { s.pseq with queued := s.pseq.queued ++ [r] } } : State).rectStat

/-- RECT_SUBMIT. -/
def execRectSubmit (r : Req) (data : Nat) (s : State) : Out :=
  .next (s.mirrored R.PSEQ_RECT_SUBMIT.base r (data % 8) (fun t => t.rectSubmit (data % 8)))

/-! ### VCOM (R353 to R355, R372, R378, R591) -/

/-- The window of region `r`: 8 while the calibrator runs VCOM and the region has not settled; 0 acts as 1. -/
def State.vcomWindow (s : State) (w : VcomWin) : Nat :=
  if (s.get R.CAL_STAT_RUNNING).testBit 0 && !w.settled then 8 else max 1 (s.get R.PSEQ_VCOM_CTRL_WINDOW)

/-- Moves the code of region `r` one step up or down, within 0 to 1,023 (R355). -/
def State.vcomStep (s : State) (r : Nat) (up : Bool) : State :=
  let c := s.get R.PSEQ_VCOM_CODE r
  if (up = true ∧ c = 1023) ∨ (up = false ∧ c = 0) then (s.put R.PSEQ_VCOM_AT_LIMIT 1 r).raise .pseq 4
  else (s.put R.PSEQ_VCOM_CODE (if up then c + 1 else c - 1) r).put R.PSEQ_VCOM_AT_LIMIT 0 r

/-- The window of a region in `vcom`. -/
def State.vcomWin (s : State) (r : Nat) : VcomWin := s.pseq.vcom.getD r ⟨0, 0, 0, false, false⟩

/-- Sets it. -/
def State.setVcomWin (s : State) (r : Nat) (w : VcomWin) : State :=
  { s with pseq := { s.pseq with vcom := (List.range 16).map (fun i => if i = r then w else s.vcomWin i) } }

/-- One subframe of region `r`'s window, with at most one error `e` (mV) in it; at its end the code moves one step when the mean exceeds
`thresh` in magnitude. How a mean that is no whole number is rounded in ERR is open: one of its two neighbours (log entry 1). -/
def State.vcomSample (s : State) (thresh : Nat) (r : Nat) (e : Option Int) (taint : Bool) : State :=
  let w := s.vcomWin r
  let w1 : VcomWin := { w with
    sum := w.sum + e.getD 0, count := w.count + (if e.isSome then 1 else 0), subframes := w.subframes + 1, taint := w.taint || taint }
  if w1.subframes < s.vcomWindow w then s.setVcomWin r w1
  else
    let big := decide (thresh * w1.count < w1.sum.natAbs)
    let s1 := s.setVcomWin r ⟨0, 0, 0, false, decide (0 < w1.count) && !big⟩
    if w1.count = 0 ∨ w1.taint = true then s1
    else
      let low := Int.fdiv w1.sum (w1.count : Int)
      let exact := decide (low * (w1.count : Int) = w1.sum)
      let mean := if exact then low else low + (s1.freeNat 1 : Nat)
      let s2 := (s1.tookFree 1).putI R.PSEQ_VCOM_ERR mean r
      if big then s2.vcomStep r (decide (0 < w1.sum)) else s2

/-- Whether the module moves VCOM codes by a loop: it holds the drive, its rails are ON. -/
def State.vcomLoops (s : State) : Bool := decide (s.get R.RAIL_STAT_STATE = 2)

/-- VCOM_ERROR_REPORT (R353): the errors the column drivers return in a blanking interval, under method 0. -/
def execVcomErrorReport (l : List VcomErr) (s : State) : Out :=
  if s.get R.PSEQ_CTRL_VCOM_METHOD ≠ 0 ∨ s.vcomLoops = false then .next s
  else .next ((List.range 16).foldl (fun t r =>
    t.vcomSample (t.get R.PSEQ_VCOM_CTRL_THRESH) r ((l.find? (fun e => e.region = r)).map (·.err)) false) s)

/-- A blanking interval in ns. -/
def State.blankingNs (s : State) : Nat :=
  (s.get R.PSEQ_VTIME_VFP + s.get R.PSEQ_VTIME_VSYNC + s.get R.PSEQ_VTIME2_VBP) * 1000000000 * s.pseq.rateDen / max 1 (s.pseq.rateNum * s.vtotal)

/-- The regions `n` measurements take, from where the last interval stopped. -/
def State.vcomTurn (s : State) (n : Nat) : List Nat := (List.range (min 16 n)).map (fun i => (s.rail.vcomNext + i) % 16)

/-- The measurements of method 1 in an interval with `ns` left: `vref` and the regions' voltages in mV; the codes step towards EXT_TARGET. -/
def State.vcomExternal (s : State) (ns vref : Nat) (volts : List Nat) : State :=
  let bad := decide (vref < 2450 ∨ 2550 < vref)
  let s1 := if bad && !s.pseq.vrefBad then (s.offer 14 1 0 0xF00 0x380004 vref (.val (s.freeNat 32))).tookFree 1 else s
  let turn := s1.vcomTurn (ns / 8000)
  let target : Int := (s1.get R.PSEQ_VCOM_CTRL_EXT_TARGET : Nat)
  let s2 : State := { s1 with
    pseq := { s1.pseq with vrefBad := bad }
    rail := { s1.rail with vcomNext := (s1.rail.vcomNext + turn.length) % 16 } }
  let s3 := turn.foldl (fun t r => match volts[r]? with | some v => t.put R.RAIL_VCOM_MV v r | none => t) s2
  (List.range 16).foldl (fun t r =>
    t.vcomSample 0 r (if turn.contains r then (volts[r]?).map (fun v => target - (v : Int)) else none) bad) s3

/-- A module in STANDBY sets the codes to the voltages it measures (R372): region r drives 4,000 mV + 5 mV × CODE (R362). -/
def State.vcomTrack (s : State) (volts : List Nat) : State :=
  let turn := s.vcomTurn (s.blankingNs / 8000)
  let s1 := turn.foldl (fun t r => match volts[r]? with
    | some v => (t.put R.RAIL_VCOM_MV v r).put R.PSEQ_VCOM_CODE (min 1023 ((v - 4000) / 5)) r
    | none => t) s
  { s1 with rail := { s1.rail with vcomNext := (s1.rail.vcomNext + turn.length) % 16 } }

/-- BLANKING_START (R375, R378, R379, R372, R354): the crack reading of the loop whose turn it is, about 30 µs; then VCOM measurements of
8 µs in region order; then the calibrator's requests. `volts`: the 16 regions' voltages in mV. -/
def execBlankingStart (crack : CrackRead) (vref : Nat) (volts : List Nat) (s : State) : Out :=
  if s.get R.RAIL_STAT_STATE = 3 then .next (s.vcomTrack volts)
  else if s.get R.RAIL_STAT_STATE = 2 then
    let l := s.rail.crackNext % 2
    let (s1, stop) := s.crackReading l crack
    let s2 : State := { s1 with rail := { s1.rail with crackNext := 1 - l } }
    let s3 := if stop then s2.crackShutdown else s2
    .next (if s3.get R.PSEQ_CTRL_VCOM_METHOD = 1 then s3.vcomExternal (s3.blankingNs - 30000) vref volts else s3)
  else .next s

/-! ### Pattern, launch queue, power failure -/

/-- PATTERN_SELECT (R356): PSEQ_PATTERN takes effect at the next launch. -/
def State.patternSelect (s : State) (data : Nat) : State := (s.put R.PSEQ_PATTERN_SEL data).put R.PSEQ_PATTERN_LEVEL (data / 65536)
def execPatternSelect (r : Req) (data : Nat) (s : State) : Out :=
  .next (s.mirrored R.PSEQ_PATTERN.base r (data % 2 ^ 32) (fun t => t.patternSelect data))

/-- One subframe period of the rate in effect, in ns. -/
def State.subPeriod (s : State) : Nat := 1000000000 * s.pseq.rateDen / max 1 s.pseq.rateNum

/-- LAUNCH_HANDOVER (R488): the earliest entry goes to the sequencer from 1 ms before its time, or is dropped when TIME exceeds it by more
than one subframe period. -/
def execLaunchHandover (s : State) : Out :=
  match s.time.launches with
  | [] => .next s
  | t :: rest =>
    if s.now + 1000000 < t then .next s
    else
      let s1 := s.setLaunches rest
      if t + s.subPeriod < s.now then .next ((s1.bump R.TIME_LAUNCH_STAT_DROPPED).raise .time 6)
      else .next { s1 with pseq := { s1.pseq with start := some t } }

/-- POWER_FAIL_WARNING (R357, R358, R365, R577, R589): PWR_FAIL_N falls, rectangles are abandoned, nothing more is launched, the
power-off begins, the save is due, ALERT_N is asserted (Table 22.11); a paired ACTIVE sends its notice. -/
def execPowerFailWarning (s : State) : Out :=
  if s.pins.pwrFail then .next s
  else
    let n := s.pseq.flights.length + s.pseq.queued.length
    let id := s.teph.nextId
    let s1 := (s.raise .pseq 7).offer 14 2 0 0x700 (s.sf % 2 ^ 32) n (.val 0)
    let s2 := s1.sendFail .powerFail (some id)
    let s3 : State := ({ s2 with
      pins := { s2.pins with pwrFail := true, alert := true }
      pseq := { s2.pseq with queued := [], flights := [], noLaunch := true }
      teph := { s2.teph with saveDue := some 1, saveCut := none } } : State).rectStat
    .next (s3.railOff false)

end Sys2Proof.Machine
end

