-- ==== Sys2Proof/Machine/Scene.lean ====
section
/-!
DEFINITION. Scene stream intake, content (spec/07): sequence and frame headers, atlases, masks, residual sets, cues, decryption,
lossless sections, the texture decoders, DisplayPort pictures, deadlines.
-/

namespace Sys2Proof.Machine

open Sys2Proof

/-! ### Sequences (R214, R215, R219, R225) -/

/-- Position of an element in a list. -/
def position (l : List Nat) (x : Nat) : Option Nat := (l.zipIdx.find? (fun p => p.1 = x)).map (·.2)

/-- The format a header's four fields name (Table 4.2). -/
def formatNumber (gen profile codec depth : Nat) : Option Nat :=
  let d := if depth = 12 then 1 else 0
  let pick (first : Nat) (profiles codecs : List Nat) : Option Nat :=
    match position profiles profile, position codecs codec with
    | some i, some c => if depth = 12 then some (first + 2 * i + c) else none
    | _, _ => none
  if depth ≠ 10 ∧ depth ≠ 12 then none
  else if gen = 1 then (if codec = 1 then (position [0, 5] profile).map (fun i => 2 * i + d) else none)
  else if gen = 2 then (if codec = 1 then (position [0, 1, 5] profile).map (fun i => 4 + 2 * i + d) else none)
  else if gen = 3 then pick 10 [0, 1, 2, 5] [1, 2]
  else if gen = 4 then pick 18 [0, 1, 2, 3, 4, 5] [1, 2]
  else if gen = 5 then pick 30 [1, 2, 4, 5, 6, 7] [2, 3]
  else none

/-- Whether a profile carries residual sets; whether its alpha comes from mask sections (Table 7.6). -/
def profileResid (p : Nat) : Bool := p = 2 || p = 4 || p = 7
def profileMasks (p : Nat) : Bool := p = 1 || p = 6 || p = 7

/-- Whether the layout meets Table 7.6. -/
def profileLayout (p layout : Nat) : Bool :=
  if p = 2 ∨ p = 7 then decide (layout = 0) else if p = 3 ∨ p = 4 then decide (layout = 1) else true

/-- Track `t` of a header's payload, and whether its entry is in range. -/
def trackAt (d : List Byte) (t : Nat) : Track × Bool :=
  let o := 0x40 + 8 * t
  let k : Track := ⟨leAt d o 2, leAt d (o + 2) 2, leAt d (o + 4) 1, leAt d (o + 5) 1, leAt d (o + 6) 1⟩
  (k, decide (k.width % 64 = 0 ∧ 64 ≤ k.width ∧ k.width ≤ 8192 ∧ k.height % 64 = 0 ∧ 64 ≤ k.height ∧ k.height ≤ 4352) &&
    decide (k.div = 1 ∨ k.div = 2 ∨ k.div = 4) && decide (k.x < 32 ∨ k.x = 255) && decide (k.y < 32 ∨ k.y = 255) &&
    decide (leAt d (o + 7) 1 = 0))

/-- A header's fields (Table 7.5), when it is valid (R214). DESIGN CHOICE (log entry 90): a MODE byte that no mode has is no field out of range
here; it is refused with the mode (reason 3). -/
def parseSeq (gen : Nat) (d : List Byte) : Option SeqHdr :=
  let profile := leAt d 4 1
  let codec := leAt d 5 1
  let depth := leAt d 6 1
  let matrix := leAt d 7 1
  let mode := leAt d 8 1
  let transfer := leAt d 9 1
  let tc := leAt d 10 1
  let anchors := leAt d 11 1
  let planes := leAt d 12 1
  let tracks := (List.range tc).map (trackAt d)
  let ax := anchors % 16
  let ay := anchors / 16
  let ok := decide (d.length = 0x40 + 8 * tc) && decide (1 ≤ tc ∧ tc ≤ 16) && decide (1 ≤ planes ∧ planes ≤ 64) &&
    decide (leAt d 13 3 = 0) && decide (leAt d 0x28 24 = 0) && decide (matrix = 0 ∨ matrix = 1 ∨ matrix = 9) &&
    decide (transfer = 1 ∨ transfer = 16 ∨ transfer = 18 ∨ (transfer = 8 ∧ gen = 5)) && tracks.all (·.2) &&
    profileLayout profile (mLayout mode) &&
    (if profileResid profile then
      decide (2 ≤ ax ∧ ax ≤ 9) && (if mLayout mode = 1 then decide (ay = 1) else decide (2 ≤ ay ∧ ay ≤ 9))
     else decide (anchors = 0))
  match formatNumber gen profile codec depth with
  | some f => if ok then some ⟨d, gen, profile, codec, depth, matrix, mode, transfer, anchors, f, tracks.map (·.1), [], false, none⟩ else none
  | none => none

/-- The module's position in the wall (R219). -/
def State.wallPos (s : State) : Nat × Nat :=
  if s.flag R.ARRAY_POS_VALID then (s.get R.ARRAY_POS_X, s.get R.ARRAY_POS_Y) else (0, 0)

/-- Binds tracks in order (R225): four accumulators of committed rate and of tracks; the rates carry the factor 4 × den × phases. -/
def bindTracks (cap : Nat) (rate : Track → Nat) (mine : Track → Bool) (en : Nat → Bool) :
    List Track → List Nat → List Nat → Option (List (Option Nat))
  | [], _, _ => some []
  | t :: ts, loads, counts =>
    if !mine t then (bindTracks cap rate mine en ts loads counts).map (none :: ·)
    else
      let fits := (List.range 4).filter (fun e => en e && decide (counts.getD e 0 < 4) && decide (loads.getD e 0 + rate t ≤ cap))
      match fits with
      | [] => none
      | e0 :: es =>
        let e := es.foldl (fun a b => if loads.getD b 0 < loads.getD a 0 then b else a) e0
        (bindTracks cap rate mine en ts (loads.set e (loads.getD e 0 + rate t)) (counts.set e (counts.getD e 0 + 1))).map (some e :: ·)

/-- Capacity of one engine, in samples per second. -/
def engineRate : Nat := 4278190080

/-- The scaled rate of a track under a mode, and the scaled capacity. -/
def trackRate (m : Nat) (t : Track) : Nat := t.width * t.height * (modeRate m).1 * (4 / max 1 t.div)
def scaledCap (m : Nat) : Nat := engineRate * (modeRate m).2 * modePhases m * 4

/-- The engines the tracks of a sequence bind to. -/
def State.bindSeq (s : State) (h : SeqHdr) (m : Nat) : Option (List (Option Nat)) :=
  let pos := s.wallPos
  let mine (t : Track) : Bool :=
    if h.profile = 6 ∨ h.profile = 7 then decide (t.x = 255 ∨ t.x = pos.1) && decide (t.y = 255 ∨ t.y = pos.2) else true
  bindTracks (scaledCap m) (trackRate m) mine (fun e => s.flag R.TDEC_CTRL e) h.tracks [0, 0, 0, 0] [0, 0, 0, 0]

/-- Drops every pending frame and its tiles. -/
def State.dropFrames (s : State) : State :=
  let gone := s.comp.wrote.map (·.addr)
  ({ s with
    intk := { s.intk with frames := [] }
    comp := { s.comp with wrote := [], used := s.comp.used.filter (fun i => !gone.contains i) } } : State).countFree

/-- A stream is refused (R215, R235). -/
def State.streamRefuse (s : State) (reason : Nat) : State :=
  let s1 := ((s.dropFrames.seqStat none).put R.INTK_STAT_REASON reason).raiseRec .intk 1
  ({ s1 with intk := { s1.intk with cur := none, next := none, refused := true, ready := [] } } : State).keysInUse

/-- The slot R124 would activate for a format. -/
def State.autoSlot (s : State) (fmt : Nat) : Option Nat :=
  (List.range 8).find? (fun k => (s.slotState k = 2 || s.slotState k = 4 || s.slotState k = 5) && (s.get R.PERS_SLOT_FMT k).testBit fmt &&
    s.slotServes k (s.get R.VIEW_MODE_EFF_MODE))

/-- Whether the active personality serves a format. -/
def State.formatServed (s : State) (fmt : Nat) : Bool :=
  s.flag R.PERS_STATE_ACTIVE_VALID && (s.get R.PERS_SLOT_FMT s.activeSlot).testBit fmt

/-- The modes a sequence asks for: its own with PROFILE from software while MODE_SRC is 1 (R196), else those in effect. -/
def State.seqModes (s : State) (h : SeqHdr) : Nat :=
  if s.view.ctrl.testBit 0 then h.mode + 256 * mProfile s.view.want else s.get R.VIEW_MODE_EFF_MODE

/-- Format, modes and tracks of a valid header are checked (R215 reasons 2 to 4), and the new sequence waits for its RAP frame. The slot that
R124 would activate is activated when all checks have passed; until then the modes are checked against it (log entry 90). -/
def State.seqCheck (s : State) (h : SeqHdr) : State :=
  let served := s.formatServed h.format
  let slot := if served then none else if s.flag R.PERS_CTRL then s.autoSlot h.format else none
  if !served && slot.isNone then s.streamRefuse 2
  else
    let m := s.seqModes h
    let why := if s.view.ctrl.testBit 0 then s.modeCheckOn (slot.or s.activeSlot?) m else 0
    if why ≠ 0 then (s.modeRefuse m why).streamRefuse 3
    else
      match s.bindSeq h m with
      | none => s.streamRefuse 4
      | some b =>
        let s1 : State := { s with intk := { s.intk with refused := false, next := some { h with bind := b, auto := !served } } }
        match slot with
        | some k => (s1.actAuto k).raiseRec .pers 7
        | none => s1

/-- Whether a header is a repeat of a sequence known (R215). -/
def State.seqKnown (s : State) (gen : Nat) (d : List Byte) : Bool :=
  let same (h : Option SeqHdr) : Bool := match h with | some q => decide (q.gen = gen ∧ q.raw = d) | none => false
  same s.intk.cur || same s.intk.next

/-! ### Due boundaries and deadlines (R227, R229) -/

/-- 2 × num × (T + 2P), and twice num × an instant: instants compared without rounding, P = phases × 10⁹ × den / num ns (R227). -/
def State.dueScaled (s : State) (t : Int) : Int :=
  2 * t * (s.pseq.rateNum : Int) + ((4 * s.pseq.phases * 1000000000 * s.pseq.rateDen : Nat) : Int)
def State.atScaled (s : State) (t : Int) : Int := 2 * t * (s.pseq.rateNum : Int)

/-- One period P, scaled as an instant is not doubled: half of it either side of a boundary. -/
def State.halfScaled (s : State) : Int := ((s.pseq.phases * 1000000000 * s.pseq.rateDen : Nat) : Int)

/-- How many boundaries past the next one a frame of presentation time `t` is due (R227): the nearest to T + 2P, a tie to the later. -/
def State.dueAfter (s : State) (t : Int) : Int :=
  Int.fdiv (s.dueScaled t - s.atScaled (s.gridTime s.nextBoundary) + s.halfScaled) (2 * s.halfScaled)

/-- The grid index of the boundary a frame is due at; one already past is none. -/
def State.dueIndex (s : State) (t : Int) : Option Nat :=
  let j := s.dueAfter t
  if j < 0 then none else some (s.nextBoundary + j.toNat * max 1 s.pseq.phases)

/-- The commit of the frame launched at index `n` (R605): the fabric works one row band ahead of the panel (R26), so it begins when the
sequencer sends the last band of the subframe before. -/
def State.commitAt (s : State) (n : Nat) : Int :=
  let lines := s.vtotal - 64 * (Word.cdiv (match s.pseq.desc with | some d => d.height | none => 8640) 128 - 1)
  s.gridTime n - ((lines * 1000000000 * s.pseq.rateDen / max 1 (s.pseq.rateNum * s.vtotal) : Nat) : Int)

/-- The decode deadline of a frame launched at index `n` (R227). -/
def State.deadlineAt (s : State) (n : Nat) : Int := min (s.gridTime n - 500000) (s.commitAt n - 50000)

/-- Whether the decode deadline of a presentation time has passed. -/
def State.timeLate (s : State) (t : Int) : Bool :=
  match s.dueIndex t with
  | none => true
  | some n => decide (s.deadlineAt n < (s.now : Int)) || (decide (n = s.nextBoundary) && s.nextBegun)

/-- Whether units of a frame are late: its deadline has passed, or it is not after the frame shown. -/
def State.frameLate (s : State) (f : Nat) : Bool :=
  match s.intk.frames.find? (fun x => x.seq = f) with
  | some x => x.closed || s.timeLate x.time
  | none => s.intk.closed.contains f || (match s.intk.shown with | some d => Word.reached d f | none => false)

/-! ### Taking units -/

/-- Whether a unit may be handled now: headers and key cues at once, others once their frame's header is known, or when they are
late, or when they will be discarded. -/
def State.unitDue (s : State) (u : List Byte) : Bool :=
  decide (uType u ≤ 2) || decide (uType u = 8) || decide (0x80 ≤ uType u) || s.seqHdr.isNone || s.frameLate (uFrame u) ||
    s.intk.gone.contains (uFrame u) || s.intk.frames.any (fun x => x.seq = uFrame u)

/-- Takes the first unit that satisfies `p` out of the buffer. -/
def State.takeUnit (s : State) (p : List Byte → Bool) : Option (VssUnit × State) :=
  match s.intk.ready.find? (fun u => p u.bytes) with
  | none => none
  | some u => some (u, { s with intk := { s.intk with ready := s.intk.ready.erase u } })

/-- Takes the first good unit of a type that may be handled. -/
def State.takeType (s : State) (t : Nat) : Option (VssUnit × State) :=
  s.takeUnit (fun u => decide (uType u = t) && !s.unitBad u && s.unitDue u)

/-- SEQUENCE_HEADER (R214, R215). -/
def execSequenceHeader (s : State) : Out :=
  match s.takeType 1 with
  | none => .next s
  | some (u, s1) =>
    let d := uPayload u.bytes
    if s1.seqKnown (uGen u.bytes) d then .next s1
    else
      match parseSeq (uGen u.bytes) d with
      | none => .next (s1.streamRefuse 1)
      | some h => .next (s1.seqCheck h)

/-! ### Lossless sections and decryption (R223, R231, R232, R255, R256) -/

/-- Decodes a lossless section of a generation: missing when both engines are disabled, bad when the codec refuses it. The job joins the
internal queue; an error shows when it ends (R255). -/
def State.inflate (s : State) (gen : Nat) (bytes : List Byte) : State × Option (List Byte) :=
  if s.get R.LZC_CTRL = 0 then (s, none)
  else
    let r := sectionJob 1 (if gen ≤ 2 then 1 else 3) bytes
    (s.innerJob r.2, r.1)

/-- Clear and protected byte counts of the subsamples of a prefix; with none, the whole remainder of `n` bytes is protected. -/
def subsamples (d : List Byte) (n : Nat) : List (Nat × Nat) :=
  if leAt d 20 2 = 0 then [(0, n)] else (List.range (leAt d 20 2)).map (fun i => (leAt d (24 + 6 * i) 2, leAt d (26 + 6 * i) 4))

/-- Whether the first `n` bytes after the prefix lie in no protected range. -/
def clearHead (subs : List (Nat × Nat)) (n : Nat) : Bool :=
  (subs.foldl (fun (a : Nat × Bool) p =>
    let start := a.1 + p.1
    (start + p.2, a.2 && (decide (p.2 = 0) || decide (n ≤ start)))) (0, true)).2

/-- The KID bound to an index for a frame (R222): the binding of the last frame among that frame and earlier ones; of one frame's, the one
that arrived last (log entry 90). -/
def State.boundKid (s : State) (frame index : Nat) : Option (List Byte) :=
  let l := s.intk.binds.filter (fun b => b.2.1 = index && Word.reached frame b.1)
  match l with
  | [] => none
  | b :: l => some (l.foldl (fun a x => if Word.reached x.1 a.1 then x else a) b).2.2

/-- The key of a KID for a unit whose first byte was arrival `born` (R232): one loaded before it, and not replaced before it. -/
def State.keyFor (s : State) (kid : List Byte) (born : Nat) : Option (List Byte) :=
  (s.intk.keys.find? (fun k => decide (k.kid = kid ∧ k.since < born) && (match k.till with | some t => decide (born ≤ t) | none => true))).map (·.key)

/-- An AES block from 16 bytes, the first the most significant, and back. -/
def aesBlock (l : List Byte) : BitVec 128 := BitVec.ofNat 128 (beAt (l ++ List.replicate 16 0) 0 16)
def aesBytes (b : BitVec 128) : List Byte := (Word.toLe 16 b.toNat).reverse

/-- The exclusive or of bytes. -/
def xorBytes (a b : List Byte) : List Byte := List.zipWith (· ^^^ ·) a b

/-- Bytes `o` to `o + n - 1` of the key stream of `cenc`: the block counter is the low 8 bytes of the counter block, which starts as IV
(ISO/IEC 23001-7; log entry 90). -/
def ctrBytes (key iv : List Byte) (o n : Nat) : List Byte :=
  ((List.range (Word.cdiv (o + n) 16 - o / 16)).flatMap (fun i =>
    aesBytes (Config.aesEncrypt (aesBlock key) (aesBlock (iv.take 8 ++ (Word.toLe 8 (beAt iv 8 8 + o / 16 + i)).reverse))))).drop (o % 16)

/-- `cenc` (R231): CTR mode across the protected bytes of all subsamples taken together, of which `o` have come. -/
def cencBytes (key iv : List Byte) : Nat → List (Nat × Nat) → List Byte → List Byte
  | _, [], d => d
  | o, p :: l, d => d.take p.1 ++ xorBytes ((d.drop p.1).take p.2) (ctrBytes key iv o p.2) ++ cencBytes key iv (o + p.2) l (d.drop (p.1 + p.2))

/-- CBC mode with a pattern of crypt and skip blocks over the blocks of a protected range: blocks to go, those done, the cipher block
before. What is left of a block stays clear. -/
def cbcBytes (key : List Byte) (crypt skip : Nat) : Nat → Nat → List Byte → List Byte → List Byte
  | 0, _, _, d => d
  | n + 1, k, prev, d =>
    let b := d.take 16
    if skip = 0 ∨ k % (crypt + skip) < crypt then
      xorBytes (aesBytes (Config.aesDecrypt (aesBlock key) (aesBlock b))) prev ++ cbcBytes key crypt skip n (k + 1) b (d.drop 16)
    else b ++ cbcBytes key crypt skip n (k + 1) prev (d.drop 16)

/-- `cbcs` (R231): each subsample's protected range, the IV restored. A pattern without skip blocks covers every block. -/
def cbcsBytes (key iv : List Byte) (crypt skip : Nat) : List (Nat × Nat) → List Byte → List Byte
  | [], d => d
  | p :: l, d => d.take p.1 ++ cbcBytes key crypt skip (p.2 / 16) 0 iv ((d.drop p.1).take p.2) ++ cbcsBytes key iv crypt skip l (d.drop (p.1 + p.2))

/-- Decrypts a unit's payload (R231); none: undecryptable. -/
def State.decryptUnit (s : State) (u : VssUnit) : Option (List Byte) :=
  let d := uPayload u.bytes
  let n := leAt d 20 2
  let hdr := 24 + 6 * n
  let rest := d.drop hdr
  let subs := subsamples d rest.length
  let scheme := leAt d 1 1
  let ivSize := leAt d 2 1
  let iv := slice d 4 16
  let total := (subs.map (fun p => p.1 + p.2)).foldl (· + ·) 0
  let table := if uType u.bytes = 3 then 8 + 12 * leAt rest 2 2 else 0
  let ok := decide (hdr ≤ d.length) && decide (n ≤ 4096) && decide (total = rest.length) && clearHead subs table &&
    ((decide (scheme = 1) && decide (ivSize = 8 ∨ ivSize = 16)) || (decide (scheme = 2) && decide (ivSize = 16)))
  if !ok then none
  else
    match s.boundKid (uFrame u.bytes) (leAt d 0 1) with
    | none => none
    | some kid =>
      match s.keyFor kid u.born with
      | none => none
      | some key => some (if scheme = 1 then cencBytes key iv 0 subs rest else cbcsBytes key iv (leAt d 3 1 / 16) (leAt d 3 1 % 16) subs rest)

/-- An undecryptable unit (R231, R232). -/
def State.keyMissing (s : State) (frame : Nat) : State := (s.conceal 5 1 frame none).raise .intk 6

/-- The clear, decoded payload of a unit: decryption (or REQ_ENC's refusal of a clear atlas, mask or residual unit), then lossless
decoding, whose output has the payload limit too (R220). -/
def State.openUnit (s : State) (u : VssUnit) : State × Option (List Byte) :=
  let f := uFlags u.bytes
  let t := uType u.bytes
  let (s1, d) :=
    if f.testBit 0 then
      match s.decryptUnit u with
      | some d => (s, some d)
      | none => (s.keyMissing (uFrame u.bytes), none)
    else if s.flag R.INTK_CTRL_REQ_ENC ∧ 3 ≤ t ∧ t ≤ 5 then (s.keyMissing (uFrame u.bytes), none)
    else (s, some (uPayload u.bytes))
  match d with
  | none => (s1, none)
  | some d =>
    if f.testBit 1 then
      let r := s1.inflate (uGen u.bytes) d
      (r.1, r.2.filter (fun b => match unitLimit t with | some lim => decide (b.length ≤ lim) | none => false))
    else (s1, some d)

/-! ### Frames (R216, R227 to R229) -/

/-- Notes a discarded frame; its units in the buffer go with it. -/
def State.frameGone (s : State) (f : Nat) : State :=
  { s with intk := { s.intk with
    gone := (f :: s.intk.gone).take 64
    ready := s.intk.ready.filter (fun u => !(uFrame u.bytes = f && uType u.bytes ≠ 1)) } }

/-- A depth entry of a frame header (the fields of Table 6.8). -/
def depthAt (d : List Byte) (k : Nat) : DepthEntry :=
  let o := 32 * k
  let fl := leAt d (o + 0x14) 4
  ⟨leAtI d o 4, leAtI d (o + 4) 4, leAtI d (o + 8) 4, leAt d (o + 12) 3, leAt d (o + 16) 1, leAt d (o + 17) 1, fl.testBit 0, fl.testBit 1⟩

/-- The shift of W and WR origins (R219). -/
def State.shiftTable (s : State) (profile : Nat) (l : List DepthEntry) : List DepthEntry :=
  if profile = 6 ∨ profile = 7 then
    let p := s.wallPos
    let w := match s.pseq.desc with | some d => d.width | none => 15360
    let h := match s.pseq.desc with | some d => d.height | none => 8640
    l.map (fun e => { e with ox := e.ox - ((256 * w * p.1 : Nat) : Int), oy := e.oy - ((256 * h * p.2 : Nat) : Int) })
  else l

/-- The reference of R227: set by the first RAP frame, and again after a third frame in a row outside the window. -/
def State.takeRef (s : State) (rap : Bool) (pts : Nat) : State :=
  if rap && (s.intk.ref.isNone || s.intk.rebase) then
    let r : Int := if s.flag R.TIME_STAT_LOCKED then 0 else (s.now : Int) - (pts : Int)
    { s with intk := { s.intk with ref := some r, rebase := false, outRun := 0 } }
  else s

/-- A frame outside the window (R229). -/
def State.outOfWindow (s : State) (f : Nat) : State :=
  let s1 := ((s.conceal 13 1 f none).raise .intk 5).frameGone f
  if s1.flag R.TIME_STAT_LOCKED then s1
  else
    let n := s1.intk.outRun + 1
    { s1 with intk := { s1.intk with outRun := n, rebase := s1.intk.rebase || decide (3 ≤ n) } }

/-- The deadline of a frame has passed: its number is kept while units of it may still come. -/
def State.frameClosed (s : State) (f : Nat) : State := { s with intk := { s.intk with closed := (f :: s.intk.closed).take 64 } }

/-- A header that comes after the deadline (R229): late; its frame is lost. -/
def State.headerLate (s : State) (f : Nat) : State := ((s.conceal 6 1 f none).frameGone f).frameClosed f

/-- Checks a frame's time and adds the frame: outside the window, late, or pending. -/
def State.addFrame (s : State) (f : FrameSt) : State :=
  let window : Int := ((max 1 (s.get R.INTK_WINDOW) * 1000000 : Nat) : Int)
  match s.dueIndex f.time with
  | none => s.outOfWindow f.seq
  | some n =>
    if (s.now : Int) + window < s.gridTime n then s.outOfWindow f.seq
    else if s.timeLate f.time then s.headerLate f.seq
    else { s with intk := { s.intk with outRun := 0, frames := s.intk.frames.filter (fun x => x.seq ≠ f.seq) ++ [f] } }

/-- The fields of a frame header (Table 7.7), when they are in range. -/
def frameFields (d : List Byte) : Option (Nat × Nat × Nat × Nat × Nat × List Nat) :=
  let flags := leAt d 8 2
  let a := leAt d 10 1
  let m := leAt d 11 1
  let k := leAt d 12 1
  if 0x20 ≤ d.length ∧ flags < 16 ∧ a ≤ 16 ∧ m ≤ 64 ∧ k ≤ 64 ∧ leAt d 13 3 = 0 then
    some (leAt d 0 8, flags, a, m, k, [leAt d 0x10 2, leAt d 0x12 2, leAt d 0x14 2])
  else none

/-- The depth table of a header: its bytes decoded, of the length DEPTH_COUNT says, valid under R178. -/
def State.headerTable (s : State) (u : VssUnit) (count : Nat) : State × Option (List DepthEntry) :=
  let d := (uPayload u.bytes).drop 0x20
  let (s1, bytes) := if (uFlags u.bytes).testBit 1 then s.inflate (uGen u.bytes) d else (s, some d)
  match bytes with
  | none => (s1, none)
  | some b =>
    let l := (List.range count).map (depthAt b)
    (s1, if b.length = 32 * count ∧ depthValid l = true then some l else none)

/-- Which sequence a frame belongs to while a new one waits (R215): the new one (true) from its first RAP frame on, the old one (false) until
then; none when neither can have it. -/
def State.frameOwner (s : State) (f gen : Nat) (rap : Bool) : Option Bool :=
  let old : Option Bool := match s.intk.cur with | some c => if c.gen = gen then some false else none | none => none
  match s.intk.next with
  | none => old
  | some q =>
    match q.first with
    | some f0 => if Word.reached f f0 then some true else old
    | none => if rap ∧ gen = q.gen then some true else old

/-- The first RAP frame of a new sequence has come. -/
def State.rapCome (s : State) (f : Nat) : State :=
  { s with intk := { s.intk with next := s.intk.next.map (fun q => { q with first := some (q.first.getD f) }) } }

/-- FRAME_HEADER (R215, R216, R227, R229). A header out of range is a bad unit; one of a sequence not yet at a RAP frame is dropped, and counts
nothing (Table 7.13). -/
def execFrameHeader (s : State) : Out :=
  match s.takeType 2 with
  | none => .next s
  | some (u, s1) =>
    let fseq := uFrame u.bytes
    if s1.seqHdr.isNone then .next s1
    else if s1.intk.closed.contains fseq then .next (s1.conceal 6 1 fseq none)
    else
      match frameFields (uPayload u.bytes) with
      | none => .next (s1.conceal 7 1 fseq none)
      | some (pts, flags, a, m, k, tone) =>
        let rap := flags.testBit 0
        match s1.frameOwner fseq (uGen u.bytes) rap with
        | none => .next (s1.frameGone fseq)
        | some fresh =>
          let s2 := s1.takeRef rap pts
          let h := if fresh then s2.intk.next else s2.intk.cur
          match s2.intk.ref, h with
          | some r, some q =>
            let (s3, table) := if flags.testBit 1 then s2.headerTable u k else (s2, none)
            let s4 := if fresh then s3.rapCome fseq else s3
            .next (s4.addFrame ⟨fseq, (pts : Int) + r, rap, fresh, table.map (s4.shiftTable q.profile), flags.testBit 1 && table.isNone,
              flags.testBit 2 && profileResid q.profile, if flags.testBit 3 then some tone else none, a, m, 0, 0, 0, 0, 0, none, [], false, none⟩)
          | _, _ => .next (s2.frameGone fseq)

/-- The table of the frame shown before `f` among those in the buffer. -/
def State.tableBefore (s : State) (f : Nat) : Option (List DepthEntry) :=
  let l := s.intk.frames.filter (fun x => x.table.isSome && decide (x.seq ≠ f) && Word.reached f x.seq)
  match l with
  | [] => none
  | x :: l => (l.foldl (fun a b => if Word.reached b.seq a.seq then b else a) x).table

/-- The depth table a frame will be shown with: its own, that of the frame before it in the buffer, or the one in effect; with DEPTH_SRC at 0
the software's (R197). -/
def State.frameTable (s : State) (f : FrameSt) : List DepthEntry :=
  if s.view.ctrl.testBit 1 then (f.table.or (s.tableBefore f.seq)).getD s.depthTable else s.depthTable

/-- The frame of a unit, for handling it; none when the unit is to be discarded: no sequence, a discarded frame, or late (counted in
INTK_CONCEAL[6]). -/
def State.unitFrame (s : State) (u : VssUnit) : State × Option FrameSt :=
  let f := uFrame u.bytes
  if s.seqHdr.isNone then (s, none)
  else if s.frameLate f && !(s.intk.gone.contains f && !s.intk.closed.contains f) then (s.conceal 6 1 f none, none)
  else if s.intk.gone.contains f then (s, none)
  else (s, s.intk.frames.find? (fun x => x.seq = f))

/-- Changes the frame of a number, if it is in the buffer. -/
def State.onFrame (s : State) (f : Nat) (g : FrameSt → FrameSt) : State :=
  { s with intk := { s.intk with frames := s.intk.frames.map (fun x => if x.seq = f then g x else x) } }

/-! ### Plane atlases and the texture decoders (R217, R218, R224, R226) -/

/-- A region entry (Table 7.8). DESIGN CHOICE (log entry 90): a KIND other than 1 is a colour region. -/
def regionAt (d : List Byte) (i : Nat) : RegionE :=
  let o := 8 + 12 * i
  ⟨leAt d o 1, leAt d (o + 1) 1, leAt d (o + 2) 1, leAt d (o + 3) 1, leAt d (o + 4) 1, leAt d (o + 5) 1 = 1, leAt d (o + 6) 1,
    leAt d (o + 7) 1, leAt d (o + 8) 1 % 2 = 1⟩

/-- One more of a frame's atlas units is done with. -/
def State.atlasCounted (s : State) (frame : Nat) : State := s.onFrame frame (fun x => { x with atlasDone := x.atlasDone + 1 })

/-- BUSY of an engine follows its queue. -/
def State.engineBusy (s : State) (e : Nat) : State := s.putB R.TDEC_STAT_BUSY (s.intk.jobs.any (fun j => j.engine = e)) e

/-- TRACK of an atlas unit, which is clear in an encrypted one too (R231). -/
def atlasTrack (u : List Byte) : Nat :=
  let d := uPayload u
  leAt d (if (uFlags u).testBit 0 then 24 + 6 * leAt d 20 2 else 0) 1

/-- PLANE_ATLAS (R213, R217 to R219, R231): the picture goes to the engine its track is bound to; a unit of a track of another position is
skipped. -/
def execPlaneAtlas (s : State) : Out :=
  match s.takeType 3 with
  | none => .next s
  | some (u, s1) =>
    match s1.unitFrame u with
    | (s2, none) => .next s2
    | (s2, some f) =>
      let s3 := s2.onFrame f.seq (fun x => { x with atlasIn := x.atlasIn + 1 })
      let tracks := match s3.frameSeq f with | some h => h.bind | none => []
      if tracks[atlasTrack u.bytes]? = some none then .next (s3.atlasCounted f.seq)
      else
        match s3.openUnit u with
        | (s4, none) => .next s4
        | (s4, some d) =>
          let track := leAt d 0 1
          let n := leAt d 2 2
          let len := leAt d 4 4
          match tracks.getD track none with
          | none => .next (s4.conceal 7 1 f.seq none)
          | some e =>
            if n = 0 ∨ 8704 < n ∨ d.length ≠ 8 + 12 * n + len then .next (s4.conceal 7 1 f.seq none)
            else
              let job : DecJob := ⟨e, f.seq, f.time, uNo u.bytes, track, (List.range n).map (regionAt d), (d.drop (8 + 12 * n)).take len, false⟩
              .next (({ s4 with intk := { s4.intk with jobs := s4.intk.jobs ++ [job] } } : State).engineBusy e)

/-- A component of a picture at a luma position, chroma repeated over its co-located luma positions, widened to 12 bits. -/
def pictureComp (p : Picture) (c x y : Nat) : Nat :=
  if c = 0 then widen p.bits (p.c0.getD (y * p.width + x) 0)
  else if p.mono then 2048
  else
    let cw := (p.width + 2 ^ p.subX - 1) / 2 ^ p.subX
    let l := if c = 1 then p.c1 else p.c2
    widen p.bits (l.getD (y / 2 ^ p.subY * cw + x / 2 ^ p.subX) 0)

/-- n / d rounded to nearest and clipped to 0 to 4,095. -/
def clip12 (n : Int) (d : Nat) : Nat := (Word.clampI 0 4095 (Int.fdiv (2 * n + (d : Int)) ((2 * d : Nat) : Int))).toNat

/-- Full-range R, G, B of a texel (R226): matrix 0 identity (G, B, R), 1 BT.709, 9 BT.2020; full or limited range in 12 bits. -/
def pictureRgb (p : Picture) (matrix x y : Nat) : List Nat :=
  let v (c : Nat) : Int := (pictureComp p c x y : Int)
  let yo : Int := if p.full then 0 else 256
  let yr : Nat := if p.full then 4095 else 3504
  let cr : Nat := if p.full then 4095 else 3584
  if matrix = 0 then
    let s (c : Nat) : Nat := clip12 ((v c - yo) * 4095) yr
    [s 2, s 0, s 1]
  else
    let kr : Int := if matrix = 1 then 2126 else 2627
    let kb : Int := if matrix = 1 then 722 else 593
    let kg : Int := 10000 - kr - kb
    let l := (v 0 - yo) * (cr : Int) * 10000 * kg
    let u := (v 1 - 2048) * (yr : Int)
    let w := (v 2 - 2048) * (yr : Int)
    let d := yr * cr * 10000 * kg.toNat
    [clip12 ((l + 2 * (10000 - kr) * w * kg) * 4095) d,
      clip12 ((l - 2 * (10000 - kr) * kr * w - 2 * (10000 - kb) * kb * u) * 4095) d,
      clip12 ((l + 2 * (10000 - kb) * u * kg) * 4095) d]

/-- Whether a region is discarded (R217). -/
def regionBadFor (h : SeqHdr) (t : Track) (table : List DepthEntry) (g : RegionE) : Bool :=
  match table[g.plane]? with
  | none => true
  | some e => decide (g.w = 0 ∨ g.h = 0) || decide (t.width < 64 * (g.atx + g.w) ∨ t.height < 64 * (g.aty + g.h)) ||
      decide (e.w < g.ptx + g.w ∨ e.h < g.pty + g.h) || (g.alpha && profileMasks h.profile)

/-- Writes one region of a decoded picture, in place `order` of its frame. -/
def State.writeRegion (s : State) (h : SeqHdr) (p : Picture) (frame order : Nat) (g : RegionE) : State :=
  (List.range g.h).foldl (fun t j => (List.range g.w).foldl (fun u i =>
    let at_ (k : Nat) : Nat × Nat := (64 * (g.atx + i) + k % 64, 64 * (g.aty + j) + k / 64)
    let vals := (List.range 4096).flatMap (fun k => if g.alpha then [pictureComp p 0 (at_ k).1 (at_ k).2] else pictureRgb p h.matrix (at_ k).1 (at_ k).2)
    u.tileWrite frame (calIndex g.plane (g.ptx + i) (g.pty + j)) order g.alpha vals (some g.hint)) t) s

/-- Writes the regions of a picture; those R217 discards count in INTK_CONCEAL[12]. -/
def State.writeRegions (s : State) (h : SeqHdr) (f : FrameSt) (j : DecJob) (p : Picture) : State :=
  let table := s.frameTable f
  let t := h.tracks.getD j.track ⟨0, 0, 1, 255, 255⟩
  (j.regions.zipIdx).foldl (fun u g =>
    if regionBadFor h t table g.1 then u.conceal 12 1 f.seq (some g.1.plane) else u.writeRegion h p f.seq (j.unit * 16384 + g.2) g.1) s

/-- A picture that does not reach its planes: counted under `kind`. -/
def State.pictureMissing (s : State) (j : DecJob) (kind : Nat) : State :=
  (s.conceal kind 1 j.frame (j.regions.map (·.plane)).head?).atlasCounted j.frame

/-- Whether Table 7.11 excludes a feature for a codec (R224). SEI messages are ignored, and film grain is parsed and not applied: neither
excludes a picture. -/
def excluded (codec : Nat) : PicFeature → Bool
  | .otherProfile => true
  | .level l => if codec = 2 then decide (63 < l) else decide (62 < l)
  | .interlaced => decide (codec = 1)
  | .multiLayer => decide (codec = 1 ∨ codec = 3)
  | .screenContent => decide (codec = 1)
  | .sei => false
  | .operatingPoint n => decide (codec = 2 ∧ n ≠ 0)
  | .largeScaleTile => decide (codec = 2)
  | .filmGrain => false
  | .lengthDelimited => decide (codec = 2)

/-- The picture an engine decodes next (R228): the first in presentation order of the track that has waited longest. -/
def State.nextJob (s : State) (e : Nat) : Option DecJob :=
  match s.intk.jobs.filter (fun j => j.engine = e) with
  | [] => none
  | j :: l => some ((l.filter (fun x => x.track = j.track)).foldl (fun a x => if x.time < a.time then x else a) j)

/-- Whether a decoded picture is not the one its track announces (R226): bit depth, or size, for which the spec names no handling (DESIGN
CHOICE, log entry 90: it counts as corrupt). -/
def pictureWrong (h : SeqHdr) (j : DecJob) (p : Picture) : Bool :=
  let t := h.tracks.getD j.track ⟨0, 0, 1, 255, 255⟩
  decide (p.bits ≠ h.depth) || decide (p.width ≠ t.width) || decide (p.height ≠ t.height)

/-- A corrupt picture (R233): counted in `fld`, and the track waits for a random-access picture. -/
def State.pictureCorrupt (s : State) (j : DecJob) (fld : Fld) : State :=
  let t1 := (s.bump fld j.engine).raise .tdec j.engine
  let t2 : State := { t1 with intk := { t1.intk with corrupt := if t1.intk.corrupt.contains j.track then t1.intk.corrupt else j.track :: t1.intk.corrupt } }
  t2.pictureMissing j 1

/-- PICTURE_DECODED (R224, R226, R228, R229, R233) on engine `e`. A picture whose frame's deadline has passed is kept as a reference and writes
nothing. -/
def execPictureDecoded (e : Nat) (r : PicResult) (s : State) : Out :=
  match s.nextJob e with
  | none => .next s
  | some j =>
    let s1 := ((({ s with intk := { s.intk with jobs := s.intk.jobs.erase j } } : State).engineBusy e).count R.TDEC_PICS 1 e)
    let late := j.late || s1.timeLate j.time
    let f := s1.intk.frames.find? (fun x => x.seq = j.frame && !x.closed && !late)
    let s2 := if late then (s1.bump R.TDEC_LATE e).raise .tdec (4 + e) else s1
    let h := match f with | some x => s2.frameSeq x | none => s2.intk.cur
    match r with
    | .corrupt => .next (s2.pictureCorrupt j R.TDEC_ERR_CORRUPT)
    | .ok p uses =>
      if uses.any (excluded (match h with | some q => q.codec | none => 0)) then .next (s2.pictureCorrupt j R.TDEC_ERR_UNSUPP)
      else if (match h with | some q => pictureWrong q j p | none => false) then .next (s2.pictureCorrupt j R.TDEC_ERR_CORRUPT)
      else if s2.intk.corrupt.contains j.track && !p.random then .next (if f.isSome then s2.pictureMissing j 0 else s2)
      else
        let s3 : State := { s2 with intk := { s2.intk with corrupt := s2.intk.corrupt.filter (· ≠ j.track) } }
        match f, h with
        | some x, some q => .next ((s3.writeRegions q x j p).atlasCounted j.frame)
        | _, _ => .next s3

/-! ### Mask sections and residual sets (R220, R221) -/

/-- The tiles of a mask section: (PTX, PTY, 4,096 alpha values); none when it is bad, its length not that of its tiles included. -/
def parseMask (d : List Byte) : Option (Nat × List (Nat × Nat × List Nat)) :=
  let n := leAt d 2 2
  if 1 ≤ n ∧ n ≤ 4094 ∧ d.length = 4 + 8194 * n then
    some (leAt d 0 1, (List.range n).map (fun i =>
      (leAt d (4 + 2 * i) 1, leAt d (5 + 2 * i) 1, (List.range 4096).map (fun k => leAt d (4 + 2 * n + 8192 * i + 2 * k) 2 % 4096))))
  else none

/-- MASK_SECTION (R217, R220, R223, R231). -/
def execMaskSection (s : State) : Out :=
  match s.takeType 4 with
  | none => .next s
  | some (u, s1) =>
    match s1.unitFrame u with
    | (s2, none) => .next s2
    | (s2, some f) =>
      match (s2.onFrame f.seq (fun x => { x with maskIn := x.maskIn + 1 })).openUnit u with
      | (s3, none) => .next s3
      | (s3, some d) =>
        match parseMask d with
        | none => .next s3
        | some (k, tiles) =>
          let e := (s3.frameTable f)[k]?
          let s4 := (tiles.zipIdx).foldl (fun t m =>
            let inside := match e with | some x => decide (m.1.1 < x.w) && decide (m.1.2.1 < x.h) | none => false
            if inside then t.tileWrite f.seq (calIndex k m.1.1 m.1.2.1) (uNo u.bytes * 16384 + m.2) true m.1.2.2 none
            else t.conceal 12 1 f.seq (some k)) s3
          .next (s4.onFrame f.seq (fun x => { x with maskDone := x.maskDone + 1 }))

/-- Residual cells across and down (R221): panel lenslets, 4 × 4 in FULL, 4 columns × 16 rows in HORIZ. -/
def State.residCells (s : State) (layout : Nat) : Nat × Nat :=
  let w := match s.pseq.desc with | some d => d.width | none => 15360
  let h := match s.pseq.desc with | some d => d.height | none => 8640
  if layout = 1 then (Word.cdiv (w / 8) 4, Word.cdiv h 16) else (Word.cdiv (Word.cdiv w 16) 4, Word.cdiv (Word.cdiv h 16) 4)

/-- A residual set, when it is good (R221); a lossless-coded one has exactly the length its occupancy requires (R223). -/
def State.parseResid (s : State) (h : SeqHdr) (coded : Bool) (d : List Byte) : Option ResidSet :=
  let cx := leAt d 2 2
  let cy := leAt d 4 2
  let n := cx * cy
  let want := s.residCells (mLayout h.mode)
  let occ := (List.range n).filter (fun i => (leAt d (8 + i / 8) 1).testBit (i % 8))
  let per := 3 * (h.anchors % 16) * (h.anchors / 16)
  let base := 8 + Word.cdiv n 8
  let size := base + 2 * per * occ.length
  if leAt d 0 1 = h.anchors ∧ (cx, cy) = want ∧ size ≤ d.length ∧ (coded = true → d.length = size) then
    some ⟨h.anchors, cx, cy, occ.zipIdx.map (fun p =>
      (p.1, (List.range per).map (fun k => Word.clampI (-2048) 2047 (leAtI d (base + 2 * (per * p.2 + k)) 2))))⟩
  else none

/-- RESIDUAL_SET (R221, R223, R231). -/
def execResidualSet (s : State) : Out :=
  match s.takeType 5 with
  | none => .next s
  | some (u, s1) =>
    match s1.unitFrame u with
    | (s2, none) => .next s2
    | (s2, some f) =>
      match (s2.onFrame f.seq (fun x => { x with residIn := x.residIn + 1 })).openUnit u with
      | (s3, none) => .next s3
      | (s3, some d) =>
        match (s3.frameSeq f).bind (fun h => s3.parseResid h ((uFlags u.bytes).testBit 1) d) with
        | none => .next s3
        | some r => .next (s3.onFrame f.seq (fun x => { x with residSet := some r }))

/-! ### Cues (R222) -/

/-- OVERLAY_CUE: submitted to the blitter, or discarded with OVLY_CUE at 0. One whose lossless section is bad is treated as missing (R223). -/
def execOverlayCue (s : State) : Out :=
  match s.takeType 6 with
  | none => .next s
  | some (u, s1) =>
    match s1.unitFrame u with
    | (s2, none) => .next s2
    | (s2, some f) =>
      if s2.flag R.INTK_CTRL_OVLY_CUE = false then .next s2
      else
        match s2.openUnit u with
        | (s3, none) => .next s3
        | (s3, some d) =>
          let n := leAt d 0 1
          let act := leAt d 1 1
          let size := 14 + (if act = 2 then leAt d 6 2 * leAt d 8 2 * formatBytes (leAt d 10 1) else 0)
          if 4 ≤ n ∨ 3 ≤ act ∨ d.length < 14 then .next (s3.conceal 7 1 f.seq none)
          else if (uFlags u.bytes).testBit 1 = true ∧ d.length ≠ size then .next s3
          else if act < 2 then .next { s3 with blt := { s3.blt with actions := s3.blt.actions ++ [(f.seq, n, act)] } }
          else
            let c : OvlyCue := ⟨f.seq, n, act, leAt d 2 2, leAt d 4 2, leAt d 6 2, leAt d 8 2, leAt d 10 1, d.drop 14⟩
            .next { s3 with blt := { s3.blt with cues := s3.blt.cues ++ [c] } }

/-- An entry of a signature cue: REGION, PHASE, VIEW, X, Y, W, H, CRC. -/
def sigEntry (d : List Byte) (i : Nat) : List Nat :=
  let o := 4 + 16 * i
  [leAt d o 1, leAt d (o + 1) 1, leAt d (o + 2) 2, leAt d (o + 4) 2, leAt d (o + 6) 2, leAt d (o + 8) 2, leAt d (o + 10) 2, leAt d (o + 12) 4]

/-- SIGNATURE_CUE: kept for its frame's commit, or discarded with SIG_CUE at 0. -/
def execSignatureCue (s : State) : Out :=
  match s.takeType 7 with
  | none => .next s
  | some (u, s1) =>
    match s1.unitFrame u with
    | (s2, none) => .next s2
    | (s2, some f) =>
      let d := uPayload u.bytes
      let n := leAt d 0 1
      let l := (List.range n).map (sigEntry d)
      if s2.flag R.INTK_CTRL_SIG_CUE = false then .next s2
      else if n = 0 ∨ 16 < n ∨ d.length < 4 + 16 * n ∨ l.any (fun e => 16 ≤ e.getD 0 0) = true then .next (s2.conceal 7 1 f.seq none)
      else .next (s2.onFrame f.seq (fun x => { x with sigs := x.sigs ++ l }))

/-- KEY_CUE: binds indices to KIDs from its frame onwards; a later cue rebinds an index. -/
def execKeyCue (s : State) : Out :=
  match s.takeType 8 with
  | none => .next s
  | some (u, s1) =>
    let d := uPayload u.bytes
    let n := leAt d 0 1
    let l := (List.range n).map (fun i => (uFrame u.bytes, leAt d (4 + 20 * i) 1, (d.drop (8 + 20 * i)).take 16))
    if s1.seqHdr.isNone then .next s1
    else if n = 0 ∨ 16 < n ∨ d.length < 4 + 20 * n ∨ l.any (fun e => 16 ≤ e.2.1) = true then .next (s1.conceal 7 1 (uFrame u.bytes) none)
    else .next (({ s1 with intk := { s1.intk with binds := s1.intk.binds ++ l } } : State).keysInUse)

/-- PRIVATE_UNIT: skipped, counted in nothing. -/
def execPrivateUnit (s : State) : Out :=
  match s.takeUnit (fun u => decide (0x80 ≤ uType u) && !s.unitBad u) with
  | none => .next s
  | some (_, s1) => .next s1

/-- REFUSED_UNIT (R213): discarded, counted in INTK_CONCEAL[7]; while no stream is accepted it is only discarded (R235). -/
def execRefusedUnit (s : State) : Out :=
  match s.takeUnit s.unitBad with
  | none => .next s
  | some (u, s1) => .next (if s1.intk.refused then s1 else s1.conceal 7 1 (uFrame u.bytes) none)

/-! ### Deadlines -/

/-- Pictures of a frame still queued are late. -/
def State.jobsLate (s : State) (f : Nat) : State :=
  { s with intk := { s.intk with jobs := s.intk.jobs.map (fun j => if j.frame = f then { j with late := true } else j) } }

/-- The decode deadline of a frame: what has not come is missing; a frame without its header is lost. -/
def State.deadline (s : State) (f : Nat) : State :=
  match s.intk.frames.find? (fun x => x.seq = f) with
  | some x =>
    if x.closed then s
    else
      let s1 := ((s.onFrame f (fun y => { y with closed := true })).jobsLate f).frameClosed f
      let s2 := s1.conceal 0 (x.atlases - x.atlasDone) f ((s1.intk.jobs.filter (fun j => j.frame = f)).flatMap (fun j => j.regions.map (·.plane))).head?
      (s2.conceal 2 (x.masks - x.maskDone) f none).conceal 3 (if x.resid && x.residSet.isNone then 1 else 0) f none
  | none =>
    let some_ := s.intk.ready.any (fun u => uFrame u.bytes = f && uType u.bytes ≠ 1) || s.intk.parts.any (fun p => p.frame = f)
    if some_ && s.seqHdr.isSome then
      let s1 := s.frameClosed f
      { s1 with intk := { s1.intk with
        ready := s1.intk.ready.filter (fun u => !(uFrame u.bytes = f && uType u.bytes ≠ 1))
        parts := s1.intk.parts.filter (fun p => p.frame ≠ f) } }
    else s

/-- DECODE_DEADLINE (R227, R229, R233). -/
def execDecodeDeadline (f : Nat) (s : State) : Out := .next (s.deadline f)

/-! ### DisplayPort (R57, R209, R210, R502, R504) -/

/-- A video timing: width, height, rate in Hz, bits per component. -/
structure DpLimit where
  width : Nat
  height : Nat
  hz : Nat
  bits : Nat
  deriving DecidableEq, Repr

/-- The preferred timing of the sink's EDID, with reduced blanking (R57, R501). -/
def dpPreferred : DpLimit := ⟨7680, 4320, 60, 10⟩

/-- The largest timings of Table 17.5; the EDID offers none beyond them (R501). -/
def dpLimits : List DpLimit := [dpPreferred, ⟨3840, 2160, 120, 12⟩]

/-- Whether a picture keeps to Table 17.5 (R501, R504): progressive, its bits those of its encoding, and within one of the limits. -/
def dpFits (d : DpPicture) : Bool :=
  d.progressive && (if d.ycc then [8, 10, 12] else [6, 8, 10, 12]).contains d.pic.bits &&
    dpLimits.any (fun l => decide (d.pic.width ≤ l.width) && decide (d.pic.height ≤ l.height) && decide (d.rateNum ≤ l.hz * max 1 d.rateDen) &&
      decide (d.pic.bits ≤ l.bits))

/-- The transfer a picture's colorimetry sets (R501, R502): PQ or HLG, else SDR. -/
def dpTransfer (d : DpPicture) : Nat := if d.transfer = 16 ∨ d.transfer = 18 then d.transfer else 1

/-- The mode a source's rate gives: FLAT at a rate of Table 1.2 equal to it in mHz, else 60 Hz; and whether it was listed. -/
def dpMode (num den : Nat) : Nat × Bool :=
  let mhz (a b : Nat) : Nat := roundDiv (1000 * a) (max 1 b)
  let all := (List.range 4).flatMap (fun f => (List.range 3).map (fun m => modeWord 2 0 f m 0))
  match all.find? (fun m => mhz (modeRate m).1 (modeRate m).2 = mhz num den) with
  | some m => (m, true)
  | none => (modeWord 2 0 3 0 0, false)

/-- An RGB component of a DisplayPort picture: limited range expanded, then widened. -/
def dpRgb (p : Picture) (i : Nat) (l : List Nat) : Nat :=
  let v := l.getD i 0
  let top := 2 ^ p.bits - 1
  if p.full then widen p.bits v
  else
    let lo := 16 * 2 ^ p.bits / 256
    let span := 219 * 2 ^ p.bits / 256
    widen p.bits (min top (((v - lo) * top * 2 + span) / (2 * span)))

/-- A texel of a DisplayPort picture in R, G, B (R502). -/
def dpTexel (d : DpPicture) (x y : Nat) : List Nat :=
  if d.ycc then pictureRgb d.pic (if dpTransfer d = 1 then 1 else 9) x y
  else [dpRgb d.pic (y * d.pic.width + x) d.pic.c0, dpRgb d.pic (y * d.pic.width + x) d.pic.c1, dpRgb d.pic (y * d.pic.width + x) d.pic.c2]

/-- The tiles of a picture written for frame `f`: alpha 4,095 inside, (0, 0, 0, 0) beyond the picture. -/
def State.dpTiles (s : State) (f : Nat) (d : DpPicture) : State :=
  let tw := Word.cdiv d.pic.width 64
  let th := Word.cdiv d.pic.height 64
  (List.range th).foldl (fun t j => (List.range tw).foldl (fun u i =>
    let pos (k : Nat) : Nat × Nat := (64 * i + k % 64, 64 * j + k / 64)
    let inside (k : Nat) : Bool := decide ((pos k).1 < d.pic.width) && decide ((pos k).2 < d.pic.height)
    let col := (List.range 4096).flatMap (fun k => if inside k then dpTexel d (pos k).1 (pos k).2 else [0, 0, 0])
    let alp := (List.range 4096).map (fun k => if inside k then 4095 else 0)
    (u.tileWrite f (calIndex 0 i j) 0 false col none).tileWrite f (calIndex 0 i j) 0 true alp none) t) s

/-- DP_PICTURE (R57, R209, R210, R501, R504), while the receiver is enabled. A picture in a new timing starts a sequence, checked as a stream's is. -/
def execDpPicture (d : DpPicture) (s : State) : Out :=
  if s.intk.src ≠ 2 ∨ s.flag R.DPRX_CTRL_EN = false then .next s
  else if dpFits d = false then .next (s.bump R.DPRX_ERR_UNSUPP)
  else
    let timing := [d.pic.width, d.pic.height, d.pic.bits, d.rateNum, d.rateDen, Word.ofBool d.ycc, dpTransfer d]
    let fresh := decide (s.intk.dpTiming ≠ some timing)
    if s.intk.refused && !fresh then .next s
    else
      let s1 : State := { s with intk := { s.intk with dpTiming := some timing } }
      let m := dpMode d.rateNum d.rateDen
      let s2 := if fresh && !m.2 then s1.recOther R.DPRX_FMT.base else s1
      let req := m.1 + 256 * mProfile s2.view.want
      let why := if !fresh then 0 else if s2.view.ctrl.testBit 0 then s2.modeCheck req
        else if s2.flag R.PERS_STATE_ACTIVE_VALID && (s2.get R.PERS_SLOT_COVER_MODES s2.activeSlot).testBit 6 then 0 else 4
      if why ≠ 0 then .next ((if s2.view.ctrl.testBit 0 then s2.modeRefuse req why else s2).streamRefuse 3)
      else
        let f := (s2.intk.dpSeq + 1) % 2 ^ 32
        let s3 : State := { s2 with intk := { s2.intk with dpSeq := f, refused := false } }
        let fr : FrameSt := ⟨f, (s3.now : Int), true, fresh, some [s3.dpEntry d.pic.width d.pic.height], false, false, some [dpTransfer d], 0, 0, 0, 0,
          0, 0, 0, none, [], false, some (if fresh then some m.1 else none)⟩
        .next ((s3.dpTiles f d).addFrame fr)

/-- DP_TIMING_CHANGE (R504): the registers take the new timing; the first complete picture in it starts a new sequence. `trans` is
TRANSFER as DPRX_FMT codes it. -/
def execDpTimingChange (w h mhz bits enc trans : Nat) (limited : Bool) (s : State) : Out :=
  let s1 := ((((((s.put R.DPRX_SIZE_W w).put R.DPRX_SIZE_H h).put R.DPRX_FMT_RATE_MHZ mhz).put R.DPRX_FMT_BITS bits).put R.DPRX_FMT_ENC enc).put
    R.DPRX_FMT_TRANSFER trans).putB R.DPRX_FMT_LIMITED limited
  .next (({ s1 with intk := { s1.intk with dpTiming := none } } : State).raise .dprx 1)

/-- The DisplayPort link is lost (R504, R53): the last frame repeats; the 5 s run from here. -/
def State.dpLost (s : State) : State :=
  let s1 := (((s.put R.DPRX_STAT_VIDEO 0).put R.DPRX_STAT_LANES 0).put R.DPRX_STAT_HDCP 0).raise .dprx 0
  let s2 : State := { s1 with intk := { s1.intk with dpTiming := none } }
  if s2.intk.src = 2 then s2.inputMark else s2

/-- DP_LINK_LOSS. -/
def execDpLinkLoss (s : State) : Out := .next s.dpLost

/-! ### A sequence takes effect (R215, R225, R196) -/

/-- TDEC_STAT of the engines under a binding. -/
def State.engineStat (s : State) (h : SeqHdr) (m : Nat) : State :=
  (List.range 4).foldl (fun t e =>
    let mine := (h.tracks.zip h.bind).filter (fun p => p.2 = some e)
    let load := (mine.map (fun p => trackRate m p.1)).foldl (· + ·) 0
    (((t.put R.TDEC_STAT_TRACKS mine.length e).put R.TDEC_STAT_CODEC (if mine.isEmpty then 0 else h.codec) e).put R.TDEC_STAT_LOAD
      (100 * load / max 1 (scaledCap m)) e).putB R.TDEC_STAT_OFF_PENDING (!mine.isEmpty && !t.flag R.TDEC_CTRL e) e) s

/-- OFF_PENDING after a group 9 strobe. -/
def State.engineOff (s : State) : State :=
  (List.range 4).foldl (fun t e => t.putB R.TDEC_STAT_OFF_PENDING (decide (t.get R.TDEC_STAT_TRACKS e ≠ 0) && !t.flag R.TDEC_CTRL e) e) s

/-- The new sequence takes effect (R215, R225): its tracks bind to the engines enabled now. -/
def State.seqEffect (s : State) (h : SeqHdr) : State :=
  let m := s.seqModes h
  let q : SeqHdr := { h with bind := (s.bindSeq h m).getD h.bind }
  let s1 : State := { s with
    intk := { s.intk with cur := some q, next := none, corrupt := [], dpSource := false, residLast := none }
    view := { s.view with
      stream := if s.view.ctrl.testBit 0 then some h.mode else s.view.stream
      supplied := some h.mode } }
  (((s1.seqStat (some q)).engineStat q m).keysInUse).raise .intk 0

end Sys2Proof.Machine
end

