-- ==== Sys2Proof/Machine/Ports.lean ====
section
/-!
DEFINITION. Host, network, DisplayPort and preview ports (spec/17): resets of the PCI Express port, BAR2, Ethernet frames, cages and
links, DHCP, HDCP, the preview head, and what group 15 strobes do.
-/

namespace Sys2Proof.Machine

open Sys2Proof

/-! ### PCI Express (R493 to R496) -/

/-- What every reset of the host port does (Table 17.2): configuration space, MSI-X table and pending bits to their reset values,
HOST_BAR2_BASE and HOST_IRQ_MASK to 0, a running intake ring halts with 0x23, the host's locks are released (R528). -/
def State.hostReset (s : State) : State :=
  let regs := (List.range 64).flatMap (fun v => (List.range 4).map (fun k => 0x581000 + 16 * v + 4 * k)) ++
    [0x582000, 0x582004, 0x580008, 0x58000C, 0x580044]
  let s1 := regs.foldl (fun t o => t.setWord o (resetWord o)) s.dropReads.bindBase
  let s2 : State := { s1 with
    host := { s1.host with msixEnable := false, functionMask := false }
    intk := { s1.intk with dma := none } }
  let s3 := if s2.flag R.INTK_DMA_STAT_RUNNING then s2.dmaError 0x23 true else s2
  (s3.releaseLocks 1).raiseRec .host 2

/-- HOST_PORT_RESET (R496, R35): a fundamental reset, a hot reset or link down; the link trains again from Detect. -/
def execHostPortReset (s : State) : Out :=
  let up := s.flag R.HOST_LINK_DL_UP
  let s1 := ((s.put R.HOST_LINK_GEN 0).put R.HOST_LINK_WIDTH 0).put R.HOST_LINK_DL_UP 0
  let s2 := if up then (s1.bump R.HOST_LINK_DOWNS).raise .host 0 else s1
  .next ((s2.bump R.HOST_RESETS_PORT).hostReset)

/-- FUNCTION_LEVEL_RESET (R496): the link stays up. -/
def execFunctionLevelReset (s : State) : Out := .next ((s.bump R.HOST_RESETS_FLR).hostReset)

/-- HOST_LINK_UP (R493, R496): the link reaches DL_UP at a generation and a width of Table 17.1. -/
def execHostLinkUp (gen width : Nat) (s : State) : Out :=
  if 1 ≤ gen ∧ gen ≤ 5 ∧ (width = 1 ∨ width = 2 ∨ width = 4 ∨ width = 8) then
    .next ((((s.put R.HOST_LINK_GEN gen).put R.HOST_LINK_WIDTH width).put R.HOST_LINK_DL_UP 1).raise .host 0)
  else .next s

/-- The host has written the MSI-X capability's control word: pending messages whose vector is not masked are sent (R91). -/
def State.msixFlush (s : State) : State :=
  if s.host.msixEnable && !s.host.functionMask then
    (List.range 64).foldl (fun t v =>
      if (t.get R.HOST_MSIX_PBA).testBit v && !t.flag R.HOST_MSIX_CTRL v then
        (t.put R.HOST_MSIX_PBA (Word.clearBit (t.get R.HOST_MSIX_PBA) v)).msixSend v
      else t) s
  else s

/-- MSIX_PENDING_SEND (R91): MSI-X Enable and Function Mask as the host has them now; what may be sent is sent. -/
def execMsixPendingSend (enable mask : Bool) (s : State) : Out :=
  .next (({ s with host := { s.host with msixEnable := enable, functionMask := mask } } : State).msixFlush)

/-- Why a BAR2 access fails (R495, HOST_BAR2_LAST.CAUSE): 1 outside the host area, 2 no region, 3 frozen; 0: it may proceed. -/
def State.bar2Cause (s : State) (write : Bool) (a len : Nat) : Nat :=
  if s.hostArea < a + len then 1
  else if s.regionOk .bar2 write a len = false then 2
  else if (List.range (len / 512 + 2)).any (fun k => decide (a / 512 + k ≤ (a + len - 1) / 512) && s.frozenAt ((a / 512 + k) * 512)) then 3
  else 0

/-- A failed BAR2 access: counted, captured, flagged; a read completes with Completer Abort, a write is dropped. -/
def State.bar2Fail (s : State) (write : Bool) (off cause : Nat) : State :=
  let s1 := s.bump R.HOST_BAR2_ERR
  let s2 := ((s1.put R.HOST_BAR2_LAST_OFFSET off).putB R.HOST_BAR2_LAST_WRITE write).put R.HOST_BAR2_LAST_CAUSE cause
  let s3 := s2.raise .host 1
  let s4 := if write && decide (cause = 3) then s3.recOther R.HOST_BAR2_LAST.base else s3
  { s4 with bus := { s4.bus with resp := if write then .dropped else .completerAbort } }

/-- A BAR2 access, arrived at `since`, that nothing is queued ahead of (R495, R524); `base`: the window base it was accepted at, if that has
changed since. -/
def State.bar2Now (base : Option Nat) (off len : Nat) (data : Option (List Byte)) (ecc : EccOutcome) (since : Nat) (s : State) : State :=
  let write := data.isSome
  let n := match data with | some d => d.length | none => len
  let answer (t : State) (r : BusResp) : State := { t with bus := { t.bus with resp := r } }
  if n = 0 ∨ 2 ^ 28 < off + n then s
  else if s.bootWindow then
    if 8388608 < off + n then s.bar2Fail write off 1
    else
      match data with
      | some d =>
        let sram := (d.zipIdx).foldl (fun l p => Sparse.set dramDefault l (off + p.2) p.1) s.rst.bootSram
        answer ({ s with rst := { s.rst with bootSram := sram } } : State) .done
      | none => answer s (.bytes ((List.range n).map (fun i => Sparse.get dramDefault s.rst.bootSram (off + i))))
  else
    let a := base.getD (s.get R.HOST_BAR2_BASE) * 2 ^ 21 + off
    let cause := s.bar2Cause write a n
    if cause ≠ 0 then s.bar2Fail write off cause
    else
      let s1 := s.eccEffect ecc a 1
      if s1.frozenAt a then s1.bar2Fail write off 3
      else
        match data with
        | some d => answer (s1.guardedWrite false a d since) .done
        | none => answer s1 (.bytes (s1.readBytes a n))

/-- BAR2_ACCESS (R495, R524): `data` is what is written, or none for a read of `len` bytes; `ecc`: what the access meets in DRAM (R415,
R430). It waits behind what is held (R282), and while the controllers hold requests (R428, R429). -/
def execBar2Access (off len : Nat) (data : Option (List Byte)) (ecc : EccOutcome) (s : State) : Out :=
  .next (if s.comp.heldHost.isEmpty && (s.memOpen || s.bootWindow) then State.bar2Now none off len data ecc s.time.raw s
    else s.hostWaits (.bar2 none off len data ecc))

/-! ### Ethernet (R497 to R500) -/

/-- Whether port `p` exists under the mode of its cage. -/
def State.portExists (s : State) (p : Nat) : Bool :=
  let m := s.get R.ETH_CAGE_CTRL (p / 4)
  decide (p < 8) && (if m = 0 then decide (p % 4 = 0) else decide (m ≠ 3))

/-- Speed code of a cage mode. -/
def cageSpeed (m : Nat) : Nat := if m = 0 then 3 else if m = 1 then 2 else 1

/-- Sets the address acquired on port `p`, and whether it is a lease. -/
def State.setIp (s : State) (p : Nat) (a : Option Nat) (lease : Bool) : State :=
  let l := s.host.ip.filter (fun x => x.1 ≠ p)
  ({ s with host := { s.host with ip := match a with | some v => (p, v % 2 ^ 32) :: l | none => l } } : State).putB R.ETH_PORT_STAT_DHCP
    (a.isSome && lease) p

/-- Port `p`'s link goes down: LINK is set, an intake input lost starts the 5 s of R53. -/
def State.ethDown (s : State) (p : Nat) : State :=
  if s.flag R.ETH_PORT_STAT_LINK p then
    let s1 := ((s.put R.ETH_PORT_STAT_LINK 0 p).put R.ETH_PORT_STAT_SPEED 0 p).raise .eth p
    if s1.intk.src = 0 ∧ s1.get R.INTK_CTRL_ETH_PORT = p then s1.inputMark else s1
  else s

/-- Port `p`'s link comes up; a module left unpowered brings none up (R497). -/
def State.ethUp (s : State) (p : Nat) : State :=
  if s.portExists p && !s.powerDown && !s.flag R.ETH_CAGE_STAT_POWER_DENIED (p / 4) && !s.flag R.ETH_PORT_STAT_LINK p then
    ((s.put R.ETH_PORT_STAT_LINK 1 p).put R.ETH_PORT_STAT_SPEED (cageSpeed (s.get R.ETH_CAGE_CTRL (p / 4))) p).raise .eth p
  else s

/-- The domain of a PTP message, none for one that has none. -/
def ptpDomain : PtpMsg → Option Nat
  | .announce _ _ d | .sync _ _ _ _ _ d | .followUp _ _ _ d | .delayResp _ _ _ d => some d
  | .delayReqSent _ | .other => none

/-- The groups port `p` has joined (R499, Table 17.4): the intake's on the intake port while it is the Ethernet input, the PTP ones on the PTP
port, over the transport it uses. -/
def State.joined (s : State) (p : Nat) (v6 : Bool) : CareReply :=
  let intake := if p = s.get R.INTK_CTRL_ETH_PORT then
      (if v6 then (List.range 4).map (fun i => s.get R.INTK_MCAST6 i) else [s.get R.INTK_MCAST4])
    else []
  .groups v6 intake (decide (p = s.get R.TIME_PTP_PORT) && (v6 == s.flag R.TIME_PTP_IPV6))

/-- What the caretaker makes of a message of its protocols on port `p` (R498, R499): its answer, or the prefix a router advertises, from which the
port forms an address. -/
def State.careTake (s : State) (p : Nat) (m : CareMsg) : State :=
  let answer (r : CareReply) : State := s.emit (.frame p (s.get R.ETH_PORT_CFG_VLAN p) r)
  match m with
  | .arp a => if a ≠ 0 ∧ a = s.ipv4 p then answer (.arp a) else s
  | .echo v6 => answer (.echo v6)
  | .solicit a => if (s.ipv6 p).contains a then answer (.neighbour a) else s
  | .router (some x) => { s with host := { s.host with prefixes := (p, x % 2 ^ 64) :: s.host.prefixes.filter (fun y => y ≠ (p, x % 2 ^ 64)) } }
  | .router none | .silent => s
  | .query v6 => answer (s.joined p v6)

/-- ETH_FRAME (R498): the first destination the frame matches. The stamp of R500 comes with a PTP event message; the caretaker answers its
own protocols. A pause frame, a frame over 9,216 bytes and one of another VLAN are dropped and counted with the rest. -/
def execEthFrame (p : Nat) (f : EthFrame) (s : State) : Out :=
  if s.portExists p = false ∨ s.host.cages.contains (p / 4) = true ∨ s.powerDown = true then .next s
  else
    let s1 := s.count R.ETH_PORT_RX 1 p
    let drop : State := s1.bump R.ETH_PORT_ERR_RX_DROP p
    if f.fcsOk = false then .next (s1.bump R.ETH_PORT_ERR_FCS_ERR p)
    else if f.pause ∨ 9216 < f.len ∨ f.vlan ≠ s1.get R.ETH_PORT_CFG_VLAN p then .next drop
    else
      match f.kind with
      | .ptp m =>
        if p = s1.get R.TIME_PTP_PORT ∧ ptpDomain m = some (s1.get R.TIME_PTP_DOMAIN) then .next (s1.ptpTake m) else .next drop
      | .rtp q => if q.port = p ∧ s1.rtpMine q = true then .next (s1.rtpTake q) else .next drop
      | .care m => .next (s1.careTake p m)
      | .other => .next drop

/-- Cage `k` begins to train again after a change of MODE (R497): its links drop; a PTP port in it that disciplines the clock leaves
the unit in holdover (R473). -/
def State.cageDrop (s : State) (k : Nat) : State :=
  let s1 := [4 * k, 4 * k + 1, 4 * k + 2, 4 * k + 3].foldl (fun t p => t.ethDown p) s
  if s1.get R.TIME_PTP_PORT / 4 = k ∧ s1.get R.TIME_STAT_SRC_EFF = 1 then s1.holdover else s1

/-- CAGE_RETRAIN_DONE (R497): the ports named have trained in the new configuration. -/
def execCageRetrainDone (k : Nat) (links : List Nat) (s : State) : Out :=
  if s.host.cages.contains k then
    let s1 : State := { s with host := { s.host with cages := s.host.cages.filter (· ≠ k) } }
    .next ((links.filter (fun p => p / 4 = k)).foldl (fun t p => t.ethUp p) s1)
  else .next s

/-- QSFP_PLUG (R497): a module with its power class and that class's power in mW, or none. One above 3.5 W stays unpowered. -/
def execQsfpPlug (k : Nat) (plugged : Option (Nat × Nat)) (s : State) : Out :=
  if 2 ≤ k then .next s
  else
    let s1 := match plugged with
      | some (cls, mw) => ((s.put R.ETH_CAGE_STAT_PRESENT 1 k).put R.ETH_CAGE_STAT_CLASS cls k).putB R.ETH_CAGE_STAT_POWER_DENIED (decide (3500 < mw)) k
      | none => s.put R.ETH_CAGE_STAT 0 k
    let s2 := if s1.flag R.ETH_CAGE_STAT_PRESENT k && !s1.flag R.ETH_CAGE_STAT_POWER_DENIED k then s1 else
      [4 * k, 4 * k + 1, 4 * k + 2, 4 * k + 3].foldl (fun t p => t.ethDown p) s1
    .next (s2.raise .eth (8 + k))

/-- ETH_LINK_CHANGE (R497). -/
def execEthLinkChange (p : Nat) (up : Bool) (s : State) : Out :=
  if 8 ≤ p then .next s else .next (if up then (if s.host.cages.contains (p / 4) then s else s.ethUp p) else s.ethDown p)

/-- DHCP_LEASE_TIMER (R499): a lease renewed, or, at its expiry, dropped. -/
def execDhcpLeaseTimer (p : Nat) (renewed : Option Nat) (expired : Bool) (s : State) : Out :=
  if s.flag R.ETH_PORT_STAT_DHCP p = false ∨ 8 ≤ p then .next s
  else
    match renewed with
    | some a => .next (s.setIp p (some a) true)
    | none => .next (if expired then s.setIp p none false else s)

/-! ### DisplayPort receiver (R501 to R504) -/

/-- Whether the sink asserts HPD (R501). -/
def State.dpHpd (s : State) : Bool := s.flag R.DPRX_CTRL_EN && !s.powerDown && decide (3 ≤ s.get R.RST_STAGE_STAGE)

/-- DP_LINK_TRAINED (R501): the link is up at a rate no higher than MAX_RATE; a stand-alone DisplayPort input is ready (stage 0x09). -/
def execDpLinkTrained (rate lanes : Nat) (s : State) : Out :=
  if s.dpHpd = false ∨ s.get R.DPRX_CTRL_MAX_RATE < rate ∨ (lanes ≠ 1 ∧ lanes ≠ 2 ∧ lanes ≠ 4) then .next s
  else
    let s1 := (((s.put R.DPRX_STAT_RATE rate).put R.DPRX_STAT_LANES lanes).put R.DPRX_STAT_VIDEO 1).raise .dprx 0
    .next (if s1.flag R.RST_STRAP_INPUT then ({ s1 with rst := { s1.rst with inputReady := true } } : State).boot else s1)

/-- HDCP_STATE_CHANGE (R503): 0 none, 1 authenticating, 2 authenticated, 3 encrypted. -/
def execHdcpStateChange (v : Nat) (s : State) : Out :=
  if 4 ≤ v ∨ (s.flag R.DPRX_CTRL_HDCP_EN = false ∧ v ≠ 0) then .next s
  else .next ((s.put R.DPRX_STAT_HDCP v).raise .dprx 2)

/-! ### Preview head (R505 to R509) -/

/-- Whether the captured picture is protected (R506): a key slot in use, or an encrypted DisplayPort input that is selected. -/
def State.prevProtected (s : State) : Bool :=
  (List.range 64).any (fun k => s.flag R.INTK_KEY_STAT_IN_USE k) || (decide (s.intk.src = 2) && decide (s.get R.DPRX_STAT_HDCP = 3))

/-- Whether a view occurs in a phase under a mode (R505). -/
def viewOccurs (m view phase : Nat) : Bool :=
  decide (phase < modePhases m) && (List.range 16).any (fun r => (List.range 48).any (fun c => viewNumber m c r phase = view))

/-- Width and height of a view's image in points (R291). -/
def State.viewSize (s : State) : Nat × Nat :=
  let m := s.get R.VIEW_MODE_EFF_MODE
  if mLayout m = 0 then (s.panelW / 16, s.panelH / 16) else if mLayout m = 1 then (s.panelW / 8, s.panelH) else (s.panelW, s.panelH)

/-- One channel of a decimated point: the box average, rounded down. -/
def boxValue (pts : List (Nat × Nat × Nat × Nat)) (dx dy x y c : Nat) : Nat :=
  ((pts.filter (fun q => q.1 / dx = x && q.2.1 / dy = y && q.2.2.1 = c)).map (fun q => q.2.2.2)).foldl (· + ·) 0 / (dx * dy)

/-- The captured picture (R505): decimated, cropped, packed; black when protected. -/
def State.prevImage (s : State) : PrevPic :=
  let dx := 2 ^ s.get R.PREV_VIEW_DECIM_X
  let dy := 2 ^ s.get R.PREV_VIEW_DECIM_Y
  let x0 := s.get R.PREV_POS_X
  let y0 := s.get R.PREV_POS_Y
  let w := min 3840 (s.viewSize.1 / dx - x0)
  let h := min 2160 (s.viewSize.2 / dy - y0)
  let black := s.prevProtected
  ⟨w, h, (List.range (w * h)).map (fun i =>
    let x := x0 + i % w
    let y := y0 + i / w
    if black then 0
    else boxValue s.host.cap dx dy x y 2 + 2 ^ 10 * boxValue s.host.cap dx dy x y 1 + 2 ^ 20 * boxValue s.host.cap dx dy x y 0)⟩

/-- PREVIEW_CAPTURE_DONE (R505, R506): the picture goes into the buffer not shown. -/
def execPreviewCaptureDone (s : State) : Out :=
  if s.host.capDone = false ∨ s.flag R.PREV_CTRL_SRC = true then .next s
  else
    let img := s.prevImage
    let b := 1 - s.get R.PREV_STAT_BUFFER
    let h := if b = 0 then { s.host with prev0 := img } else { s.host with prev1 := img }
    .next (({ s with host := { h with cap := [], capDone := false, prevNew := some b } } : State).putB R.PREV_STAT_PROTECTED s.prevProtected)

/-- A light-field frame begins: a view or phase that does not occur leaves the last capture shown and sets STALE (R505). -/
def State.captureBegin (s : State) : State :=
  let s1 : State := { s with host := { s.host with cap := [], capDone := false } }
  let t := s1.prevTarget
  if s1.flag R.PREV_CTRL_SRC = false ∧ viewOccurs (s1.get R.VIEW_MODE_EFF_MODE) t.1 t.2 = false then s1.put R.PREV_STAT_STALE 1 else s1

/-- Whether the host's surface may be shown (R507): wholly in the host area, its pitch a multiple of 64. -/
def State.surfaceOk (s : State) : Bool :=
  let bpp := [2, 3, 4, 4].getD (s.get R.PREV_FMT) 4
  let w := s.get R.PREV_SIZE_W
  let h := s.get R.PREV_SIZE_H
  decide (s.get R.PREV_PITCH % 64 = 0) &&
    decide (w * h = 0 ∨ s.get R.PREV_SURF + (h - 1) * s.get R.PREV_PITCH + w * bpp ≤ s.hostArea)

/-- The surface as it stands, cropped from PREV_POS. -/
def State.surfacePic (s : State) : PrevPic :=
  let bpp := [2, 3, 4, 4].getD (s.get R.PREV_FMT) 4
  let w := s.get R.PREV_SIZE_W - s.get R.PREV_POS_X
  let h := s.get R.PREV_SIZE_H - s.get R.PREV_POS_Y
  ⟨w, h, (List.range (w * h)).map (fun i => s.readLe (s.get R.PREV_SURF + (s.get R.PREV_POS_Y + i / w) * s.get R.PREV_PITCH +
    (s.get R.PREV_POS_X + i % w) * bpp) bpp)⟩

/-- A 10-bit pixel narrowed to 8 bits per channel (R509): B [7:0], G [15:8], R [23:16]. -/
def narrowPixel (p : Nat) : Nat :=
  let n (v : Nat) : Nat := (v * 255 + 511) / 1023
  n (Word.bits p 0 10) + 2 ^ 8 * n (Word.bits p 10 10) + 2 ^ 16 * n (Word.bits p 20 10)

/-- Sends a picture, centred (R508), in the depth DPTX runs at (R509); nothing while DPTX cannot or the output is blanked. -/
def State.prevSend (s : State) (fmt : Nat) (p : PrevPic) : State :=
  if s.flag R.PREV_CTRL_EN && s.flag R.DPTX_STAT_TRAINED && !s.flag R.DPTX_STAT_BW_ERR then
    let ten := s.flag R.DPTX_STAT_TEN_BIT
    let col := (s.get R.PREV_HTIME_HACT - p.w) / 2
    let line := (s.get R.PREV_VTIME_VACT - p.h) / 2
    if fmt = 3 ∧ ten = false then s.emit (.preview 4 col line p.w (p.words.map narrowPixel)) else s.emit (.preview fmt col line p.w p.words)
  else s

/-- PREVIEW_FRAME (R505, R507, R508): a preview frame begins; it is counted, and shows the latest complete capture or the surface. -/
def execPreviewFrame (s : State) : Out :=
  let s1 : State := { (s.count R.PREV_FRAME 1) with host := { s.host with frameAt := s.time.raw } }
  if s1.flag R.PREV_CTRL_SRC then
    if s1.surfaceOk then .next ((s1.put R.PREV_STAT_SRC_ERR 0).prevSend (s1.get R.PREV_FMT) s1.surfacePic)
    else .next ((s1.put R.PREV_STAT_SRC_ERR 1).prevSend 3 ⟨0, 0, []⟩)
  else
    let s2 := match s1.host.prevNew with
      | some b => (({ s1 with host := { s1.host with prevNew := none } } : State).put R.PREV_STAT_BUFFER b).put R.PREV_STAT_STALE 0
      | none => s1
    .next (s2.prevSend 3 (if s2.flag R.PREV_STAT_BUFFER then s2.host.prev1 else s2.host.prev0))

/-- The line the preview head is sending, counted from the first active line (Table 17.9): lines of the timing since the frame began, the last of
them until the next frame begins. -/
def State.prevLine (s : State) : Nat :=
  let h := s.get R.PREV_HTIME_HACT + s.get R.PREV_HTIME_HFP + s.get R.PREV_HTIME2_HSYNC + s.get R.PREV_HTIME2_HBP
  let v := s.get R.PREV_VTIME_VACT + s.get R.PREV_VTIME_VFP + s.get R.PREV_VTIME2_VSYNC + s.get R.PREV_VTIME2_VBP
  min (v - 1) ((s.time.raw - s.host.frameAt) * s.get R.PREV_CLK_KHZ / (1000000 * max 1 h))

/-- Kbit/s of a rate code, RBR to HBR3. -/
def dptxRate (r : Nat) : Nat := [1620000, 2700000, 5400000, 8100000].getD r 8100000

/-- DPTX chooses 10 or 8 bits, or reports BW_ERR (R509). The host's surface uses 10 bits in format 3 only; a capture is in format 3. -/
def State.dptxChoose (s : State) : State :=
  if s.flag R.DPTX_STAT_TRAINED then
    let room := s.get R.DPTX_STAT_LANES * dptxRate (s.get R.DPTX_STAT_RATE) * 8 / 10
    let clk := s.get R.PREV_CLK_KHZ
    let deep := !s.flag R.PREV_CTRL_SRC || decide (s.get R.PREV_FMT = 3)
    let ten := deep && (match s.host.sink with | some k => k.2.2 | none => false) && decide (clk * 30 ≤ room)
    (s.putB R.DPTX_STAT_TEN_BIT ten).putB R.DPTX_STAT_BW_ERR (!ten && decide (room < clk * 24))
  else (s.put R.DPTX_STAT_TEN_BIT 0).put R.DPTX_STAT_BW_ERR 0

/-- DPTX trains its link with the monitor (R509): the monitor's highest rate up to MAX_RATE, its widest lane count up to 4; without a monitor or
with EN 0 it lets the link go. -/
def State.dptxTrain (s : State) : State :=
  match s.host.sink, s.flag R.DPTX_CTRL_EN with
  | some (rate, lanes, _), true =>
    (((s.put R.DPTX_STAT_RATE (min rate (s.get R.DPTX_CTRL_MAX_RATE))).put R.DPTX_STAT_LANES
      (if 4 ≤ lanes then 4 else if 2 ≤ lanes then 2 else 1)).put R.DPTX_STAT_TRAINED 1).dptxChoose
  | _, _ => (((s.put R.DPTX_STAT_TRAINED 0).put R.DPTX_STAT_RATE 0).put R.DPTX_STAT_LANES 0).dptxChoose

/-- DPTX_HOTPLUG (R509): the monitor asserts HPD, with its highest rate (0 RBR to 3 HBR3), its lanes, whether it accepts 10 bits, and its EDID; or
drops HPD. -/
def execDptxHotplug (hpd : Bool) (rate lanes : Nat) (ten : Bool) (edid : List Byte) (s : State) : Out :=
  if hpd = false then .next (({ (s.put R.DPTX_STAT_HPD 0) with host := { s.host with sink := none } } : State).dptxTrain)
  else
    let s1 := (List.range 64).foldl (fun t i => t.put R.DPTX_EDID (leAt edid (4 * i) 4) i) (s.put R.DPTX_STAT_HPD 1)
    .next (({ s1 with host := { s1.host with sink := some (rate, lanes, ten) } } : State).dptxTrain)

/-- Whether a preview timing is one the head takes (R508). -/
def State.prevTimingOk (s : State) : Bool :=
  decide (s.get R.PREV_HTIME_HACT ≤ 3840) && decide (s.get R.PREV_VTIME_VACT ≤ 2160) &&
    [s.get R.PREV_HTIME_HFP, s.get R.PREV_HTIME2_HSYNC, s.get R.PREV_HTIME2_HBP, s.get R.PREV_VTIME_VFP, s.get R.PREV_VTIME2_VSYNC,
      s.get R.PREV_VTIME2_VBP].all (fun v => decide (v ≠ 0)) &&
    decide (25000 ≤ s.get R.PREV_CLK_KHZ) && decide (s.get R.PREV_CLK_KHZ ≤ 594000)

/-- The preview timing registers. -/
def prevTimingRegs : List Nat := [0x620030, 0x620034, 0x620038, 0x62003C, 0x620040]

/-- What a group 15 strobe does beside its copy; `old` is the state before it: cages whose MODE changed train again (R497), a timing is
refused (R508), receiver and transmitter follow their enables. -/
def State.portStrobe (s old : State) : State :=
  let cages := (List.range 2).filter (fun k => s.get R.ETH_CAGE_CTRL k ≠ old.get R.ETH_CAGE_CTRL k)
  let s1 : State := { s with host := { s.host with cages := s.host.cages.filter (fun k => !cages.contains k) ++ cages } }
  let s2 := cages.foldl (fun t k => t.cageDrop k) s1
  let s3 := if s2.prevTimingOk then s2.put R.PREV_STAT_TIMING_ERR 0
    else (prevTimingRegs.foldl (fun t o => t.setWord o (old.word o)) s2).put R.PREV_STAT_TIMING_ERR 1
  let s4 := if s3.flag R.DPRX_CTRL_EN = false ∧ s3.get R.DPRX_STAT_LANES ≠ 0 then s3.dpLost else s3
  let s5 := if s4.flag R.DPRX_CTRL_HDCP_EN then s4 else s4.put R.DPRX_STAT_HDCP 0
  s5.dptxTrain

end Sys2Proof.Machine
end

