-- ==== Sys2Proof/Machine/Strobe.lean ====
section
/-!
DEFINITION. Staged settings and update strobes (R10, R81 to R88, R605), their forwarding in a pair (R447, R448), and requests of an
activation (R116, R117).
-/

namespace Sys2Proof.Machine

open Sys2Proof

/-! ### Groups (Table 3.3) -/

/-- Where a group may apply: 0 at once, 1 subframe boundary at the fabric's instant, 2 subframe boundary at the launch, 3 light-field
frame boundary at the fabric's instant, 4 at the launch (Table 3.3, R605). -/
def pointOf (g : Nat) : Nat :=
  if g = 3 ∨ g = 13 then 1 else if g = 5 then 2 else if g = 6 ∨ g = 7 then 4 else if g ≤ 4 ∨ g = 14 then 3 else 0

/-- Whether a group holds mirrored fields (Table 15.4). -/
def groupMirrored (g : Nat) : Bool := decide (g ≤ 8) || g = 13 || g = 14

/-- Whether a pending strobe may apply at a boundary that launches at `launch` as subframe `sf`; `frame`: a light-field frame boundary. -/
def strobeDue (x : Strobe) (launch : Int) (sf : Nat) (frame : Bool) : Bool :=
  decide ((x.notBefore : Int) ≤ launch) && (match x.targetSf with | some t => Word.reached sf t | none => true) &&
    (match x.timing with
     | .immediate | .nextSubframe => true
     | .nextFrame => frame
     | .atTime => decide ((x.instant : Int) ≤ launch))

/-- Whether a pending strobe of a group that applies at once is due now (R83, R84). -/
def State.strobeNow (s : State) (x : Strobe) : Bool :=
  match x.timing with
  | .immediate => decide (x.notBefore ≤ s.now)
  | .atTime => decide (x.notBefore ≤ s.now) && decide (x.instant ≤ s.now)
  | .nextSubframe | .nextFrame => false

/-! ### Application (R81, R87) -/

/-- Copies the staged values of the RWS fields of group `g` into effect, for the offsets `sel` admits. -/
def State.copyGroup (s : State) (g : Nat) (sel : Nat → Bool) : State :=
  (s.regs.map (·.1) ++ s.staged.map (·.1)).foldl (fun t k =>
    match regAt k with
    | some (r, _, _) =>
      if r.group = g ∧ r.rws ≠ 0 ∧ sel k = true then t.setWord k (mergeBits (BitVec.ofNat 32 r.rws) (t.word k) (t.stagedWord k)) else t
    | none => t) s

/-- The group's strobe has applied: its PENDING bit clears, its DONE bit and UPDATE set. -/
def State.strobeDone (s : State) (g : Nat) : State :=
  let s1 : State := { s with strobes := s.strobes.filter (fun x => x.group ≠ g) }
  let s2 := s1.put R.CTL_UPDATE_STAT_PENDING (Word.clearBit (s1.get R.CTL_UPDATE_STAT_PENDING) g)
  (s2.put R.CTL_UPDATE_STAT_DONE (Word.setBit (s2.get R.CTL_UPDATE_STAT_DONE) g)).raise .ctl 1

/-- VIEW_DEPTH_COUNT, VIEW_RESID and VIEW_DEPTH: fields of group 1 only while DEPTH_SRC in effect is 0 (R197). -/
def depthReg (off : Nat) : Bool := off = 0x200080 || off = 0x200084 || (decide (0x201000 ≤ off) && decide (off < 0x201800))

/-- Steering offsets of more than half a cell apply as ±128 (R173). -/
def State.steerClamp (s : State) : State :=
  (List.range 4).foldl (fun t m => (List.range 4).foldl (fun u p =>
    let x := u.getI R.VIEW_STEER_SX m p
    let y := u.getI R.VIEW_STEER_SY m p
    if 128 < x.natAbs ∨ 128 < y.natAbs then
      ((u.putI R.VIEW_STEER_SX (Word.clampI (-128) 128 x) m p).putI R.VIEW_STEER_SY (Word.clampI (-128) 128 y) m p).raise .view 3
    else u) t) s

/-- A group 1 strobe (R173, R178, R197): an invalid table of software is not applied; VIEW_RESID, which is no part of it, is. -/
def State.geomStrobe (s : State) : State :=
  let host := !s.view.ctrl.testBit 1
  let ok := s.stagedDepthOk
  let s1 := (s.copyGroup 1 (fun k => !depthReg k || (host && (ok || decide (k = R.VIEW_RESID_PRESENT.base))))).steerClamp
  s1.raiseIf (host && !ok) .view 2

/-- Drawing records follow a FRONT that a strobe changed (R278): an exchange keeps them, any other change starts them afresh. -/
def State.drawnStrobe (s old : State) (n : Nat) : State :=
  let f := s.get R.COMP_OVLY_CFG_FRONT n
  if f = old.get R.COMP_OVLY_CFG_FRONT n then s
  else if f = old.get R.COMP_OVLY_CFG_BACK n then
    let r := s.drawnOf n
    s.setDrawn { r with front := r.back, back := r.front }
  else s.setDrawn ⟨n, [], []⟩

/-- Whether the timing in effect is one the sequencer takes (R329). -/
def State.timingOk (s : State) : Bool :=
  let g (f : Fld) := s.get f
  let num := s.pseq.rateNum
  let den := s.pseq.rateDen
  let minBlank := match s.pseq.desc with | some d => d.vblankMin | none => 0
  [R.PSEQ_VTIME_VFP, R.PSEQ_VTIME_VSYNC, R.PSEQ_VTIME2_VBP, R.PSEQ_HTIME_HFP, R.PSEQ_HTIME2_HSYNC, R.PSEQ_HTIME2_HBP].all (fun f => decide (g f ≠ 0)) &&
    decide (minBlank ≤ g R.PSEQ_VTIME_VFP + g R.PSEQ_VTIME_VSYNC + g R.PSEQ_VTIME2_VBP) && s.lineFits num den &&
    (s.groupsInUse.filter (fun j => s.groupStage j = 5)).all (fun j =>
      decide (12 * 5760 * 66 * s.htotal * num * s.vtotal ≤
        3 * 8 * 2 ^ (s.get R.LANE_GRP_STAT_GEN (leadLane j) - 1) * 64 * den * 1000000000 * g R.PSEQ_HTIME_HACT))

/-- The panel timing registers of R329. -/
def timingRegs : List Nat := [0x380010, 0x380014, 0x380018, 0x38001C]

/-- A group 6 strobe (R329, R323): a timing refused leaves the previous values; a new ANCHOR is taken at this launch. -/
def State.timingStrobe (s old : State) : State :=
  let s1 := s.copyGroup 6 (fun _ => true)
  let s2 := if s1.timingOk then s1 else (timingRegs.foldl (fun t o => t.setWord o (old.word o)) s1).raise .pseq 3
  if s2.get R.PSEQ_ANCHOR = old.get R.PSEQ_ANCHOR then s2
  else { s2 with pseq := { s2.pseq with anchor := some (s2.get R.PSEQ_ANCHOR) } }

/-- A region whose SRC is 1 keeps the fields of its signature cues (R294). -/
def State.sigStrobe (s old : State) (r : Nat) : State :=
  if s.flag R.COMP_SIG_CFG_SRC r then
    ((((s.put R.COMP_SIG_CFG_PHASE (old.get R.COMP_SIG_CFG_PHASE r) r).put R.COMP_SIG_CFG_VIEW (old.get R.COMP_SIG_CFG_VIEW r) r).put
      R.COMP_SIG_RECT_XY (old.get R.COMP_SIG_RECT_XY r) r).put R.COMP_SIG_RECT_WH (old.get R.COMP_SIG_RECT_WH r) r).put R.COMP_SIG_EXPECT
      (old.get R.COMP_SIG_EXPECT r) r
  else s

/-- What a strobe of a group does beside the copy of its staged values. -/
def State.strobeEffect (s old : State) (g : Nat) : State :=
  match g with
  | 0 => { s with view := { s.view with asked := true } }
  | 2 => s.toneEff
  | 3 => ((List.range 16).foldl (fun t r => t.sigStrobe old r) s).bufStates false
  | 4 => ((List.range 4).foldl (fun t n => (t.drawnStrobe old n).ovlyStat n) s).bufStates false
  | 8 => s.srcSwitch
  | 9 => s.engineOff
  | 11 => s.timeStrobe
  | 12 => s.applyLink
  | 15 => s.portStrobe old
  | _ => s

/-- A strobe applies group `g` (R81, R87). -/
def State.strobeApply (s : State) (g : Nat) : State :=
  let s1 := if g = 1 then s.geomStrobe else if g = 6 then s.timingStrobe s else (s.copyGroup g (fun _ => true)).strobeEffect s g
  s1.strobeDone g

/-- Applies the groups of a list whose strobes are due, in ascending order (R86). -/
def State.strobesAt (s : State) (gs : List Nat) (launch : Int) (sf : Nat) (frame : Bool) : State :=
  gs.foldl (fun t g =>
    match t.strobes.find? (fun x => x.group = g) with
    | some x => if strobeDue x launch sf frame then t.strobeApply g else t
    | none => t) s

/-- The launch instant and the sequence number of the subframe the fabric renders. -/
def State.renderPoint (s : State) : Int × Nat :=
  let sf := if Word.reached s.view.renderSf (s.sf + 1) then s.view.renderSf else s.sf + 1
  (s.gridTime (s.pseq.next + (sf - (s.sf + 1))), sf)

/-- STROBE_APPLY: a pending strobe of group `g` reaches its permitted point: at once, or at the fabric's instant of a subframe boundary.
The strobes of the other groups apply in FABRIC_FRAME_START and SUBFRAME_LAUNCH. -/
def execStrobeApply (g : Nat) (s : State) : Out :=
  match s.strobes.find? (fun x => x.group = g) with
  | none => .next s
  | some x =>
    let p := s.renderPoint
    .next (if (pointOf g = 0 ∧ s.strobeNow x = true) ∨ (pointOf g = 1 ∧ strobeDue x p.1 p.2 false = true) then s.strobeApply g else s)

/-! ### CTL_UPDATE (R82 to R85, R447) -/

/-- The pending strobe of a group is set; one already pending is replaced (R85). -/
def State.strobeSet (s : State) (x : Strobe) : State :=
  let again := s.strobes.any (fun y => y.group = x.group)
  let s1 : State := { s with strobes := s.strobes.filter (fun y => y.group ≠ x.group) ++ [x] }
  let s2 := s1.put R.CTL_UPDATE_STAT_PENDING (Word.setBit (s1.get R.CTL_UPDATE_STAT_PENDING) x.group)
  if again then (s2.put R.CTL_UPDATE_LATE_REPLACED (Word.setBit (s2.get R.CTL_UPDATE_LATE_REPLACED) x.group)).raise .ctl 3 else s2

/-- A group applies late (R84, R448). -/
def State.strobeLate (s : State) (g : Nat) : State :=
  (s.put R.CTL_UPDATE_LATE_LATE (Word.setBit (s.get R.CTL_UPDATE_LATE_LATE) g)).raise .ctl 2

/-- The strobe of one group as this module sets it, and whether its target is a time (R447): alone, by R83 and R84; an ACTIVE delays a
group with mirrored fields by LEAD_US. -/
def State.strobeFor (s : State) (g : Nat) (w : When) : Strobe :=
  let lead := s.isActive && groupMirrored g
  let at_ := s.extend (s.get R.CTL_UPDATE_TIME)
  let from_ : Int := (s.now : Int) + s.leadNs
  match w with
  | .atTime => ⟨g, .atTime, at_, 0, none⟩
  | .nextFrame => ⟨g, .nextFrame, 0, 0, if lead then some (s.frameSfAt from_) else none⟩
  | _ =>
    if lead = false then ⟨g, w, 0, 0, none⟩
    else if pointOf g = 0 ∧ w = .immediate then ⟨g, w, 0, s.now + s.leadNs, none⟩
    else ⟨g, w, 0, 0, some (if 3 ≤ pointOf g then s.frameSfAt from_ else s.sfAt from_)⟩

/-- The code of WHEN. -/
def whenCode : When → Nat
  | .immediate => 0 | .nextSubframe => 1 | .nextFrame => 2 | .atTime => 3

/-- Forwards the strobe of one group with its target point (R447). -/
def State.strobeForward (s : State) (x : Strobe) : State :=
  if s.isActive && groupMirrored x.group then
    let v := BitVec.ofNat 32 (2 ^ x.group + 65536 * whenCode x.timing)
    let target := match x.timing, x.targetSf with
      | .atTime, _ => (true, x.instant)
      | _, some t => (false, t)
      | _, none => (true, x.notBefore)
    s.sendPair (.strobe v target.1 target.2 [] false)
  else s

/-- A write of CTL_UPDATE (R82 to R85): each group it names. An instant that has passed counts as late. -/
def State.update (s : State) (groups : Nat) (w : When) : State :=
  let s1 := ((List.range 16).filter (groups.testBit ·)).foldl (fun t g =>
    let x := t.strobeFor g w
    let t1 := if w = .atTime ∧ x.instant < t.now then t.strobeLate g else t
    (t1.strobeSet x).strobeForward x) s
  s1.bufStates false

/-- CTL_UPDATE by a requester: on the MIRROR a write that names a group with mirrored fields is dropped (R450). -/
def State.updateBy (s : State) (r : Req) (groups : Nat) (w : When) : State :=
  if r ≠ .partner ∧ s.isMirror = true ∧ (List.range 16).any (fun g => groups.testBit g && groupMirrored g) = true then
    s.mirrorDrop R.CTL_UPDATE.base r.code (groups % 65536 + 65536 * whenCode w)
  else s.update groups w

/-- A write of CTL_UPDATE by a requester: a host write waits behind those held (R70, R282). -/
def State.updateIn (s : State) (r : Req) (groups : Nat) (w : When) : State :=
  if r = .host ∧ s.comp.heldHost.isEmpty = false then s.hostWaits (.reg R.CTL_UPDATE.base 4 (some (groups % 65536 + 65536 * whenCode w)))
  else s.updateBy r groups w

/-- UPDATE_IMMEDIATE (R83). -/
def execUpdateImmediate (r : Req) (groups : Nat) (s : State) : Out := .next (s.updateIn r groups .immediate)

/-- UPDATE_NEXT_SUBFRAME (R83). -/
def execUpdateNextSubframe (r : Req) (groups : Nat) (s : State) : Out := .next (s.updateIn r groups .nextSubframe)

/-- UPDATE_NEXT_FRAME (R83). -/
def execUpdateNextFrame (r : Req) (groups : Nat) (s : State) : Out := .next (s.updateIn r groups .nextFrame)

/-- UPDATE_AT_TIME (R84). -/
def execUpdateAtTime (r : Req) (groups : Nat) (s : State) : Out := .next (s.updateIn r groups .atTime)

/-! ### Activation requests (R116, R117, R447) -/

/-- PERS_ACT_NEXT_FRAME (R116). -/
def execPersActNextFrame (r : Req) (slot : Nat) (s : State) : Out := .next (s.actBy r slot slot none)

/-- PERS_ACT_AT_TIME (R117): the first boundary at or after the instant of PERS_ACT_TIME. -/
def execPersActAtTime (r : Req) (slot : Nat) (s : State) : Out :=
  .next (s.actBy r (slot + 16) slot (some (s.extend (s.get R.PERS_ACT_TIME))))

/-- PERS_ACT_CANCEL: the pending activation is cancelled, on both modules of a pair. -/
def execPersActCancel (r : Req) (s : State) : Out :=
  if r ≠ .partner ∧ s.isMirror = true then .next (s.mirrorDrop R.PERS_ACT.base r.code 32)
  else
    let s1 := s.actDropped.setPend none
    .next (if s.isActive then s1.sendPair (.strobe 32 false s.sf [] true) else s1)

/-- MIRROR_STROBE (R447, R448): a forwarded strobe or activation is scheduled at its target point. One that arrives after its point
applies at the first permitted one, late, and leaves the MIRROR out of step; an activation whose digest this module's slot does not hold
is refused with 0x1A. -/
def execMirrorStrobe (value : Word) (time : Bool) (target : Nat) (digest : List Byte) (act : Bool) (s : State) : Out :=
  let s1 := s.rxNext
  let v := value.toNat
  if s1.isMirror = false then .next s1
  else if act then
    let slot := v % 8
    if v / 16 % 4 = 2 then .next (s1.actDropped.setPend none)
    else if s1.slotDigest slot ≠ digest then .next ((s1.actRefuse slot 0x1A).setFit 2 false)
    else .next (s1.actRequest slot (if time then some target else none) (if time then none else some target))
  else
    let at_ : Bool := decide (v / 65536 % 4 = 3)
    let w : When := if at_ then .atTime else if v / 65536 % 4 = 0 then .immediate else if v / 65536 % 4 = 1 then .nextSubframe else .nextFrame
    let late := if time then decide (target < s1.now) else Word.reached s1.sf target
    .next (((List.range 16).filter (v.testBit ·)).foldl (fun t g =>
      let x : Strobe := ⟨g, w, if at_ then target else 0, if time && !at_ then target else 0,
        if time then none else some target⟩
      let t1 := t.strobeSet x
      if late then (t1.strobeLate g).outOfStep else t1) s1)

end Sys2Proof.Machine
end

