-- ==== Sys2Proof/Machine/Thm.lean ====
section
/-!
DEFINITION. Heat, power and calibration (spec/20, R550 to R567; R562 is in Time): sensors, throttling, shutdown, cut, restart, VCORE,
the calibrator.
-/

namespace Sys2Proof.Machine

open Sys2Proof

/-! ### Sensors (R550 to R554) -/

/-- The zone of an on-die sensor (Table 20.1); 15 for module sensors. -/
def zoneOf (n : Nat) : Nat :=
  if n < 40 then n / 10 else if n < 48 then 4 else if n < 52 then 5 else if n < 58 then 6 else if n < 64 then 7 else 15

/-- The sensors of a zone. -/
def zoneSensors (z : Nat) : List Nat := (List.range 64).filter (fun n => zoneOf n = z)

/-- T_START, T_FULL and T_SHUTDOWN in 0.1 °C, values outside their ranges acting as the nearer limit. -/
def State.thresholds (s : State) : Int × Int × Int :=
  let a := Word.clamp 100 130 (s.get R.THM_THRESH_START)
  let b := Word.clamp (a + 2) 140 (s.get R.THM_THRESH_FULL)
  let c := Word.clamp (b + 2) 150 (s.get R.THM_THRESH_SHUTDOWN)
  ((10 * a : Nat), (10 * b : Nat), (10 * c : Nat))

/-- The reading of a sensor as used (R554). -/
def State.sensorUsed (s : State) (n : Nat) (r : Int) : Int :=
  if s.flag R.THM_SENS_BROKEN n then (if n < 64 then 1400 else -32768) else r

/-- Why sensor `n` is broken by its samples, the sensors broken before them left out of the median (R553). -/
def State.sensorJudge (s : State) (hist : List (List (Nat × Int))) (n : Nat) : Nat :=
  let others := if n < 64 then (zoneSensors (zoneOf n)).filter (· ≠ n) else []
  let good := (others.filter (fun k => !s.flag R.THM_SENS_BROKEN k)).map (fun k => ((hist.getD k []).headD (0, 0)).2)
  judge (hist.getD n []) (others.map (fun k => hist.getD k [])) good (decide (n < 64))

/-- A sensor is found broken (R554). -/
def State.sensorBroken (s : State) (n cause : Nat) : State :=
  ((((s.put R.THM_SENS_BROKEN 1 n).put R.THM_SENS_CAUSE cause n).bump R.THM_COUNT_BROKEN).raise .thm 1).alert.recIrq .thm 1

/-- What a DRAM report reads for a refresh-rate code (R551). -/
def refreshReading (code : Nat) : Int := if Config.refreshOver code then 1500 else Config.refreshEdge code

/-- A sample of DRAM report `g` of 3, sensor 67 + g (R420, R550): of its 16 channels, those in use, the hottest: its code and its reading; none while
none is in use. -/
def State.dramSample (s : State) (g : Nat) : Option (Nat × Int) :=
  ((List.range 16).filter (fun i => (s.get R.MEM_MAP).testBit (16 * g + i))).foldl (fun (a : Option (Nat × Int)) i =>
    let code := s.get R.MEM_CH_STAT_MR4 (2 * g + i / 8) (i % 8)
    match a with
    | some x => if x.2 < refreshReading code then some (code, refreshReading code) else some x
    | none => some (code, refreshReading code)) none

/-- The samples of one instant, those of the DRAM reports taken from the controllers. -/
def State.allSamples (s : State) (l : List (Option (Nat × Int))) : List (Option (Nat × Int)) :=
  (List.range 70).map (fun n => if n < 67 then l.getD n none else s.dramSample (n - 67))

/-- The samples of one instant: kept, judged, shown. A sensor without a sample keeps its history. -/
def State.sensorsTake (s : State) (l : List (Option (Nat × Int))) : State :=
  let hist := (List.range 70).map (fun n => match l.getD n none with
    | some x => addSample (s.thm.hist.getD n []) x
    | none => s.thm.hist.getD n [])
  let why := (List.range 70).map (fun n =>
    if s.flag R.THM_SENS_BROKEN n ∨ (hist.getD n []).isEmpty = true then 0 else s.sensorJudge hist n)
  let s1 : State := { s with thm := { s.thm with hist := hist } }
  let s2 := (List.range 70).foldl (fun t n => if why.getD n 0 = 0 then t else t.sensorBroken n (why.getD n 0)) s1
  (List.range 70).foldl (fun t n =>
    if (hist.getD n []).isEmpty then t else t.putI R.THM_SENS_READING (t.sensorUsed n ((hist.getD n []).headD (0, 0)).2) n) s2

/-- Zone readings (R554, R556): the highest of the zone's sensors, 150.0 °C with two or more broken ones. -/
def State.zonesTake (s : State) : State :=
  (List.range 8).foldl (fun t z =>
    let l := zoneSensors z
    let bad := (l.filter (fun n => t.flag R.THM_SENS_BROKEN n)).length
    let top := l.foldl (fun (a : Int) n => max a (t.getI R.THM_SENS_READING n)) (t.getI R.THM_SENS_READING (l.headD 0))
    (t.put R.THM_ZONE_BROKEN bad z).putI R.THM_ZONE_READING (if 2 ≤ bad then 1500 else top) z) s

/-- Tmax and the zone it is of. -/
def State.hottest (s : State) : Int × Nat :=
  (List.range 8).foldl (fun (a : Int × Nat) z => if a.1 < s.getI R.THM_ZONE_READING z then (s.getI R.THM_ZONE_READING z, z) else a)
    (s.getI R.THM_ZONE_READING 0, 0)

/-! ### Throttling (R552, R556, R557, R561) -/

/-- The level x (R556). -/
def throttleLevel (tmax start full : Int) : Nat := (Word.clampI 0 64 (Int.fdiv (64 * (tmax - start)) (full - start))).toNat

/-- Tmax and the level follow the zones; a change of x from 0, or back to 0, is flagged and recorded. -/
def State.levelTake (s : State) : State :=
  let h := s.hottest
  let t := s.thresholds
  let x := throttleLevel h.1 t.1 t.2.1
  let s1 := ((s.putI R.THM_STAT_TMAX h.1).put R.THM_STAT_HOT_ZONE h.2).put R.THM_STAT_LEVEL x
  if (s.get R.THM_STAT_LEVEL = 0) = (x = 0) then s1 else s1.raiseRec .thm 0

/-- The thresholds that apply to sensor `n`: the three of THM_THRESH and the cut on the die, the operating range of the coldplate, the
operating limit of the DRAM. -/
def State.sensorLimits (s : State) (n : Nat) : List Int :=
  let t := s.thresholds
  if n < 64 then [t.1, t.2.1, t.2.2, 1550] else if n = 64 then [-400, 1250] else if 67 ≤ n then [1500] else []

/-- Whether some sensor in use reads within `d` of a threshold that applies to it. -/
def State.sensorNear (s : State) (d : Nat) : Bool :=
  (List.range 70).any (fun n => (decide (n < 64) || !s.flag R.THM_SENS_BROKEN n) &&
    (s.sensorLimits n).any (fun x => decide ((s.getI R.THM_SENS_READING n - x).natAbs ≤ d)))

/-- The sampling rate (R552): fast within 8.0 °C, slow again after 100 ms beyond 10.0 °C. -/
def State.fastTake (s : State) : State :=
  if s.sensorNear 80 then { (s.put R.THM_STAT_FAST 1) with thm := { s.thm with calmSince := none } }
  else if s.sensorNear 100 then { s with thm := { s.thm with calmSince := none } }
  else
    match s.thm.calmSince with
    | none => { s with thm := { s.thm with calmSince := some s.time.raw } }
    | some t => if t + 100000000 ≤ s.time.raw then s.put R.THM_STAT_FAST 0 else s

/-- The coldplate leaves its operating range (R561). `was`: the reading before. -/
def State.coldplateTake (s : State) (was : Int) : State :=
  let out (r : Int) : Bool := decide (r < -400 ∨ 1250 < r)
  if !s.flag R.THM_SENS_BROKEN 64 && out (s.getI R.THM_SENS_READING 64) && !out was then (s.raise .thm 4).alert.recIrq .thm 4 else s

/-- The instant since which every zone has stayed below START (R560). -/
def State.coolTake (s : State) : State :=
  let cool := (List.range 8).all (fun z => decide (s.getI R.THM_ZONE_READING z < s.thresholds.1))
  let since := if cool then some (s.thm.coolSince.getD s.time.raw) else none
  { s with thm := { s.thm with coolSince := since } }

/-- The level in effect follows LEVEL at a subframe boundary (R556): budgets and clock targets. -/
def State.throttleApply (s : State) : State :=
  let x := s.get R.THM_STAT_LEVEL
  if x = s.thm.level then s else ({ s with thm := { s.thm with level := x } } : State).applyBudgets

/-! ### Shutdown (R558) -/

/-- Step 2: a module that holds the drive with its rails ON writes one black subframe before they power off; any other lowers its own
rails. -/
def State.shutdownPanel (s : State) : State :=
  let s1 : State := { s with thm := { s.thm with step := 2 } }
  if s1.flag R.PAIR_STAT_DRIVE && decide (s1.get R.RAIL_STAT_STATE = 2) && !s1.pseq.noLaunch then
    { s1 with pseq := { s1.pseq with black := true } }
  else s1.railOff false

/-- An orderly shutdown starts: its entry, the notice to the host, ALERT_N; then step 1. -/
def State.shutdownStart (s : State) : State :=
  let id := s.teph.nextId
  let s1 := (((s.put R.THM_STAT_SHUTDOWN 1).bump R.THM_COUNT_SHUTDOWNS).raise .thm 2).alert
  let s2 := (s1.offer 3 3 0 0x600 (s1.get R.THM_STAT) (s1.get R.THM_STAT_HOT_ZONE) (.val 0)).notice 3 1
  if s2.isActive then
    let h := s2.handOver .thermal (some id)
    if h.2 then { h.1 with thm := { h.1.thm with step := 1 } } else (h.1.sendFail .thermal (some id)).shutdownPanel
  else s2.shutdownPanel

/-- The sequencer through CORE (R33, R327, R345, R360): the panel, grid, rates, history, maps, tables and sensors stay; the subframe, its
bands, rectangles and VCOM windows go; the next subframe is a full one, once the stack is ready. -/
def PseqState.afterCore (p : PseqState) : PseqState :=
  { p with
    inFlight := false
    sentBands := 0
    fullDue := true
    waitReady := true
    queued := []
    flights := []
    bands := []
    sigs := State.reset.pseq.sigs
    vcom := []
    tileCrc := []
    black := false }

/-- The intake through CORE (R236): what SRC selects stays. A DisplayPort picture then starts a sequence anew. -/
def IntakeState.afterCore (i : IntakeState) : IntakeState :=
  { State.reset.intk with src := i.src, standalone := i.standalone, lastNew := i.lastNew }

/-- Whether CORE spares the block that makes a request (R429): the pair link, BAR2, the caretaker, and the controllers' own scrubber. -/
def coreSpares (q : MemReq) : Bool := decide (34 ≤ q.requester)

/-- Table 20.3: of the blocks whose domains are off, what they held beside their registers is lost; they start again as after CORE (R564). -/
def State.blocksOff (s : State) : State :=
  { s with
    pseq := s.pseq.afterCore
    fab := { State.reset.fab with corr := s.fab.corr }
    comp := { State.reset.comp with heldHost := s.comp.heldHost }
    intk := s.intk.afterCore
    blt := State.reset.blt }

/-- The caretaker goes on with the steps of a shutdown, one when the one before has ended: the drive given up, the rails off, the record
saved; then every domain but AO, HOSTP, RAILS and the controllers' is off. It looks at every sample. -/
def State.shutdownGoOn (s : State) : State :=
  if s.thm.step = 1 then (if s.flag R.PAIR_STAT_DRIVE then s else s.shutdownPanel)
  else if s.thm.step = 2 then
    if !s.pseq.black && (s.get R.RAIL_STAT_STATE = 0 || s.get R.RAIL_STAT_STATE = 5) then
      let s1 := (s.memSelfRefresh true).saveShutdown
      { s1 with thm := { s1.thm with step := 3 } }
    else s
  else if s.thm.step = 3 ∧ s.teph.saveDue.isNone = true then ({ s with thm := { s.thm with step := 4 } } : State).linksOff.blocksOff
  else s

/-- What starts a shutdown: Tmax at the threshold, or a DRAM report of 150.0 °C. -/
def State.shutdownDue (s : State) : Bool :=
  decide (s.thresholds.2.2 ≤ s.getI R.THM_STAT_TMAX) ||
    [67, 68, 69].any (fun n => !s.flag R.THM_SENS_BROKEN n && decide (1500 ≤ s.getI R.THM_SENS_READING n))

/-- While subject 3 runs, a sensor without a sample has given its slot to its calibration and holds its last reading (Table 20.4): one step each. -/
def State.calSlots (s : State) (l : List (Option (Nat × Int))) : State :=
  if (s.get R.CAL_STAT_RUNNING).testBit 3 then
    let c := s.thm.cal.getD 3 ⟨none, none, 0⟩
    { s with thm := { s.thm with cal := s.thm.cal.set 3 { c with steps := c.steps + (l.filter (·.isNone)).length } } }
  else s

/-- SENSOR_SAMPLE (R552 to R558, R560, R561): one sample of each sensor (raw code, reading in 0.1 °C), sensor 0 first; none for a sensor
that is being calibrated and holds its last reading. Those of the DRAM reports are the controllers' own (R550). -/
def execSensorSample (l : List (Option (Nat × Int))) (s : State) : Out :=
  let was := s.getI R.THM_SENS_READING 64
  let s1 := (((((s.calSlots l).sensorsTake (s.allSamples l)).zonesTake.levelTake).fastTake).coldplateTake was).coolTake
  let s2 := if s1.flag R.PSEQ_TEMP_SRC then s1.coldplateTemp else s1
  .next (if s2.thm.step = 0 ∧ s2.shutdownDue = true ∧ s2.flag R.THM_STAT_CUT = false then s2.shutdownStart else s2.shutdownGoOn)

/-- THERMAL_CUT (R559): an unmasked 155 °C comparator trips: the failure notice, DRAM lost, a fast power-off of the rails. -/
def execThermalCut (n : Nat) (reading : Int) (s : State) : Out :=
  if 64 ≤ n ∨ s.flag R.THM_SENS_BROKEN n = true ∨ s.flag R.THM_STAT_CUT = true then .next s
  else
    let id := s.teph.nextId
    let s1 := (s.put R.THM_STAT_CUT 1).offer 3 3 0 0x601 n (Word.wrap 32 reading) (.val 0)
    let s2 := s1.sendFail .thermal (some id)
    let s3 : State := { ((List.range 6).foldl (fun t c => t.put R.MEM_C_STAT_STATE 0 c) s2) with
      dram := []
      mem := { s2.mem with ready := false }
      pseq := { s2.pseq with inFlight := false, black := false }
      thm := { s2.thm with step := 4 } }
    .next ((s3.railOff false).linksOff.blocksOff)

/-- The caretaker requests SYS to restart after a shutdown or a cut (R560). -/
def State.thermalRestart (s : State) : State :=
  (s.put R.THM_STAT_WAITING 0).sysSource R.RST_CAUSE_SW_SYS .sysEntry none

/-- RESTART_ALLOWED (R560): every zone has stayed below START for 10 s after a shutdown or cut. -/
def execRestartAllowed (s : State) : Out :=
  if s.thm.step = 4 ∧ s.thm.allowed = false ∧ s.thm.coolSince.isSome = true then
    let s1 := ({ s with thm := { s.thm with allowed := true } } : State).raise .thm 3
    .next (if s1.flag R.THM_CTRL then (s1.put R.THM_STAT_WAITING 1).notice 3 2 else s1.thermalRestart)
  else .next s

/-- SENS_REARM (R553, R567): clears the broken state of a sensor; its samples start afresh. -/
def execSensRearm (r : Req) (key n : Nat) (s : State) : Out :=
  .next (s.keyed R.THM_SENS_REARM.base r key 0x7E4A (key * 65536 + n) (fun t =>
    if 70 ≤ n then t
    else
      let t1 := (t.put R.THM_SENS_BROKEN 0 n).put R.THM_SENS_CAUSE 0 n
      { t1 with thm := { t1.thm with hist := t1.thm.hist.set n [] } }))

/-- VCORE_LOOP (R563): every 1 ms VCORE moves 5 mV towards the voltage at which the path monitors are just quiet, within 0.70 V to
0.85 V. -/
def execVcoreLoop (want : Nat) (s : State) : Out :=
  let v := s.get R.THM_VCORE
  let v1 := if v < want then v + 5 else if want < v then v - 5 else v
  .next (s.put R.THM_VCORE (Word.clamp 700 850 v1))

/-! ### Calibration (R565, R566) -/

/-- Subject `i` beside its registers. -/
def State.calRun (s : State) (i : Nat) : CalRun := s.thm.cal.getD i ⟨none, none, 0⟩

/-- Sets it. -/
def State.setCal (s : State) (i : Nat) (c : CalRun) : State := { s with thm := { s.thm with cal := s.thm.cal.set i c } }

/-- The reference temperature of subjects 0 to 2 (Table 20.4); subject 3 refers to every zone, and which LAST shows is open: a free
value (log entry 1). -/
def State.calRef (s : State) (i : Nat) : Int :=
  if i < 2 then s.getI R.PSEQ_TEMP_TEMP else if i = 2 then s.getI R.THM_ZONE_READING 7 else Word.signed 16 (s.freeNat 16)

/-- Zone readings. -/
def State.zoneReadings (s : State) : List Int := (List.range 8).map (fun (z : Nat) => s.getI R.THM_ZONE_READING z)

/-- Whether a subject may run: 0 and 1 only while the module holds the drive with its rails ON (R566). -/
def State.calMay (s : State) (i : Nat) : Bool := decide (2 ≤ i) || (s.flag R.PAIR_STAT_DRIVE && decide (s.get R.RAIL_STAT_STATE = 2))

/-- Starts the pending subjects that may run and do not run. -/
def State.calStart (s : State) : State :=
  (List.range 4).foldl (fun t i =>
    if (t.get R.CAL_STAT_PENDING).testBit i && !(t.get R.CAL_STAT_RUNNING).testBit i && t.calMay i then
      let t1 := (t.put R.CAL_STAT_PENDING (Word.clearBit (t.get R.CAL_STAT_PENDING) i)).put R.CAL_STAT_RUNNING
        (Word.setBit (t.get R.CAL_STAT_RUNNING) i)
      let t2 := t1.setCal i { t1.calRun i with since := some t1.time.raw, steps := 0 }
      if i = 0 then { t2 with pseq := { t2.pseq with vcom := (List.range 16).map (fun r => { t2.vcomWin r with settled := false }) } } else t2
    else t) s

/-- Schedules subjects; one that runs is not run twice (R566). -/
def State.calRequest (s : State) (mask : Nat) : State :=
  let fresh := (List.range 4).filter (fun i => mask.testBit i && !(s.get R.CAL_STAT_RUNNING).testBit i)
  (s.put R.CAL_STAT_PENDING (fresh.foldl Word.setBit (s.get R.CAL_STAT_PENDING))).calStart

/-- CAL_REQ (R565, R567). -/
def execCalReq (r : Req) (key mask : Nat) (s : State) : Out :=
  .next (s.keyed R.CAL_REQ.base r key 0xCA1B (key * 65536 + mask % 16) (fun t => t.calRequest mask))

/-- Whether the reference temperature of a subject has moved by more than DELTA since its last run. -/
def State.calMoved (s : State) (i : Nat) : Bool :=
  let d := 10 * max 1 (s.get R.CAL_CTRL_DELTA)
  if (s.calRun i).lastAt.isNone then false
  else if i = 3 then (s.zoneReadings.zip s.thm.calZones).any (fun p => decide (d < (p.1 - p.2).natAbs))
  else decide (d < (s.calRef i - s.getI R.CAL_SUBJ_LAST_REF i).natAbs)

/-- Whether PERIOD minutes have passed since a subject's last run; one that never ran counts from RAW 0. -/
def State.calPeriod (s : State) (i : Nat) : Bool :=
  let p := s.get R.CAL_CTRL_PERIOD
  decide (p ≠ 0) && decide ((s.calRun i).lastAt.getD 0 + p * 60000000000 ≤ s.time.raw)

/-- CAL_SCHEDULE (R565): every enabled subject whose temperature moved or whose period elapsed is scheduled. -/
def execCalSchedule (s : State) : Out :=
  let due := (List.range 4).filter (fun i => (s.get R.CAL_CTRL_EN).testBit i && (s.calMoved i || s.calPeriod i))
  .next (s.calRequest (due.foldl Word.setBit 0))

/-- A launch (R566): waiting subjects start, running ones take their next step. -/
def State.calStep (s : State) : State :=
  let s1 := s.calStart
  { s1 with thm := { s1.thm with cal := s1.thm.cal.zipIdx.map (fun p =>
      if (s1.get R.CAL_STAT_RUNNING).testBit p.2 ∧ p.2 ≠ 3 then { p.1 with steps := p.1.steps + 1 } else p.1) } }

/-- A subject of a CALIBRATE command has ended; with the last one the command ends (Table 18.3). -/
def State.calCmdEnd (s : State) (i : Nat) (done : Bool) : State :=
  let m := s.thm.calCmd
  if m.testBit i then
    let m1 := Word.clearBit m i
    let m2 := if done then Word.setBit m1 (4 + i) else m1
    let s1 : State := { s with thm := { s.thm with calCmd := m2 } }
    if m2 % 16 = 0 then ({ s1 with thm := { s1.thm with calCmd := 0 } } : State).cmdEnd 0 [m2 / 16] else s1
  else s

/-- Whether a run may be over: every VCOM region settled; every source-driver group stepped; every sensor given its slot (Table 20.4). -/
def State.calOver (s : State) (i : Nat) : Bool :=
  (s.get R.CAL_STAT_RUNNING).testBit i &&
    (if i = 0 then (List.range 16).all (fun r => (s.vcomWin r).settled) else if i = 1 then decide (16 ≤ (s.calRun i).steps)
      else if i = 3 then decide (70 ≤ (s.calRun i).steps) else true)

/-- CAL_RUN_DONE (R565, R566). -/
def execCalRunDone (i : Nat) (s : State) : Out :=
  if i < 4 ∧ s.calOver i = true then
    let s1 := ((s.put R.CAL_STAT_RUNNING (Word.clearBit (s.get R.CAL_STAT_RUNNING) i)).bump R.CAL_SUBJ_COUNT_RUNS i).putI R.CAL_SUBJ_LAST_REF
      (s.calRef i) i
    let s2 := s1.setCal i ⟨none, some s.time.raw, (s.calRun i).steps⟩
    let s3 : State := if i = 3 then ({ s2 with thm := { s2.thm with calZones := s.zoneReadings } } : State).tookFree else s2
    .next ((s3.raise .cal 0).calCmdEnd i true)
  else .next s

/-- CAL_TIMEOUT (R566): a run unfinished after 10 s is abandoned, its steps kept. -/
def execCalTimeout (i : Nat) (s : State) : Out :=
  if i < 4 ∧ (s.get R.CAL_STAT_RUNNING).testBit i = true then
    let s1 := ((s.put R.CAL_STAT_RUNNING (Word.clearBit (s.get R.CAL_STAT_RUNNING) i)).bump R.CAL_SUBJ_COUNT_TIMEOUTS i).setCal i
      { s.calRun i with since := none }
    .next ((s1.raiseRec .cal 1).calCmdEnd i false)
  else .next s

end Sys2Proof.Machine
end

