-- ==== Sys2Proof/Machine/Frame.lean ====
section
/-!
DEFINITION. The two instants of a boundary (R605): FABRIC_FRAME_START, where the fabric begins a light-field frame (activation, strobes,
modes, the compositor's commit), and SUBFRAME_LAUNCH, where the sequencer launches a subframe on its grid; and the return to the pattern
(R53).
-/

namespace Sys2Proof.Machine

open Sys2Proof

/-! ### Activation (R105, R118 to R123, R127) -/

/-- The checks of R118, in order; 0: the activation applies. -/
def State.actCheck (s : State) (slot : Nat) : Nat :=
  let g := s.slotFile slot
  let held := if s.flag R.PERS_STATE_ACTIVE_VALID then needMib (s.slotFile s.activeSlot) else 0
  if s.get R.MEM_FREE + held < needMib g then 0x11
  else if s.trainedChannels < needChannels g ∨ s.bandwidthFits (needBw g) (memRate (s.get R.MEM_FREQ_EFF)) = false then 0x12
  else if s.slotServes slot (s.get R.VIEW_MODE_EFF_MODE) then 0
  else 0x13

/-- One preset (R104, R105), whose offset is a PERS_PARAM register: into the value in effect, and into the staged one unless a group 14
strobe is pending. -/
def State.preset (s : State) (p : Nat × Nat × Nat) : State :=
  let k := (p.1 - R.PERS_PARAM.base) / 4
  let m := BitVec.ofNat 32 p.2.1
  let v := BitVec.ofNat 32 p.2.2
  let s1 := s.put R.PERS_PARAM (mergeBits m (BitVec.ofNat 32 (s.get R.PERS_PARAM k)) v).toNat k
  if (s.strobeOf 14).isSome then s1
  else s1.putStaged R.PERS_PARAM (mergeBits m (BitVec.ofNat 32 (s1.getStaged R.PERS_PARAM k)) v).toNat k

/-- The planes swap (R119, R120): a tile without a plane at once, every other when its boundary tokens have arrived; the fetch ports as they
send the boundary token. -/
def State.swapAll (s : State) : State :=
  let s1 := (List.range 24).foldl (fun t p => t.setFetch p { t.fetchPt p with swapDue := true }) s
  (List.range 400).foldl (fun t n =>
    if (t.tile n).active.isNone then t.swapTile n else t.setTile n { t.tile n with swapDue := true }) s1

/-- The activation of a slot applies (R118 to R123); after CORE it may be the ACTIVE slot's own (R129). -/
def State.actApply (s : State) (slot : Nat) : State :=
  let g := s.slotFile slot
  let old := s.activeSlot
  let valid := s.flag R.PERS_STATE_ACTIVE_VALID
  let had := valid && decide (old ≠ slot)
  let held := if valid then needMib (s.slotFile old) else 0
  let s1 := (presets g).foldl (fun t p => t.preset p) s
  let s2 := if had then s1.put R.PERS_SLOT_STAT_STATE 5 old else s1
  let s3 := ((((s2.put R.PERS_SLOT_STAT_STATE 6 slot).put R.PERS_STATE_ACTIVE_SLOT slot).put R.PERS_STATE_ACTIVE_VALID 1).put
    R.PERS_STATE_STAGED_SLOT old).putB R.PERS_STATE_STAGED_VALID had
  let s4 : State := { s3 with pers := { s3.pers with act := s.pers.stg, stg := if had then s.pers.act else [] } }
  let s5 := (s4.put R.MEM_FREE (s.get R.MEM_FREE + held - needMib g)).put R.COMP_SINTER_CAP (g (sectOff g 6 + 4) 4)
  let s6 := ((s5.swapAll.countTiles).countSpares).applyBudgets
  ((s6.raiseRec .pers 2).cmdEndIf 2 slot 0 [s6.get R.PERS_LAST]).boot

/-- Whether the pending activation is due at a boundary launched at `l` as subframe `sf` (R116, R117, R447). -/
def State.actDue (s : State) (p : PendAct) (l : Int) (sf : Nat) : Bool :=
  decide (s.slotState p.slot = 5) && decide ((p.notBefore : Int) ≤ l) &&
    (match p.at_ with | some t => decide ((t : Int) ≤ l) | none => true) &&
    (match p.targetSf with | some t => Word.reached sf t | none => true)

/-- The pending activation at a boundary, after CORE the active slot first (R129); true when one applied. One whose migration's writes are
unfinished slips (R126). DESIGN CHOICE (log entry 87): the checks of R118 are made of the active slot too when it becomes active again
after CORE, where R129 says only that the module activates it. -/
def State.actStep (s : State) (l : Int) (sf : Nat) : State × Bool :=
  match s.pers.reload, s.pers.pend with
  | some slot, _ =>
    if s.slotState slot = 5 ∧ s.stagedBusy = false then
      let s1 : State := { s with pers := { s.pers with reload := none } }
      match s1.actCheck slot with
      | 0 => ((s1.actApply slot).pendResume, true)
      | c => ((((s1.actRefuse slot c).recIrq .pers 3).unmerge).pendResume, false)
    else (s, false)
  | none, none => (s, false)
  | none, some p =>
    if s.actDue p l sf then
      if s.stagedBusy then (s.actSlip p, false)
      else
        match s.actCheck p.slot with
        | 0 => ((s.setPend none).actApply p.slot, true)
        | c => ((((s.setPend none).actRefuse p.slot c).recIrq .pers 3).unmerge, false)
    else (s, false)

/-! ### The frame due (R227, R230, R216, R215) -/

/-- A frame is discarded at a boundary and counted in INTK_CONCEAL[`i`]. -/
def State.discard (s : State) (i : Nat) (f : FrameSt) : State :=
  let s1 : State := { s with intk := { s.intk with frames := s.intk.frames.filter (fun x => x.seq ≠ f.seq) } }
  (((s1.dropWritten f.seq).conceal i 1 f.seq none).frameGone f.seq).jobsLate f.seq

/-- Concealment of frames that have left the buffer is recorded (R234), and their units free their room (R205). -/
def State.tellNotes (s : State) : State :=
  let l := s.bufferedFrames
  let s1 : State := { s with intk := { s.intk with
    notes := s.intk.notes.filter (fun x => l.contains x.frame)
    kept := s.intk.kept.filter (fun k => decide (s.intk.shown = some k.1) || l.contains k.1) } }
  (s.intk.notes.filter (fun x => !l.contains x.frame)).foldl (fun t x => t.tellNote x) s1

/-- The frame due at the boundary launched at `l`, its deadline passed: the highest FRAME_SEQ of those nearest to it. Frames due at an
earlier boundary that never came are past. -/
def State.pickFrame (s : State) (l : Int) : State × Option FrameSt :=
  let lo := s.atScaled l - s.halfScaled
  let hi := s.atScaled l + s.halfScaled
  let past := s.intk.frames.filter (fun f => decide (s.dueScaled f.time < lo))
  let due := s.intk.frames.filter (fun f => decide (lo ≤ s.dueScaled f.time ∧ s.dueScaled f.time < hi))
  let s1 := past.foldl (fun t f => t.discard 13 f) s
  match due with
  | [] => (s1, none)
  | f :: l =>
    let top := l.foldl (fun (a : FrameSt) b => if Word.reached b.seq a.seq then b else a) f
    let s2 := ((due.filter (fun x => x.seq ≠ top.seq)).foldl (fun t x => t.discard 10 x) s1).deadline top.seq
    (s2, s2.intk.frames.find? (fun x => x.seq = top.seq))

/-- How the frame due fares: 0 shown, 1 lost (a depth table that breaks R178 while the stream's is used), 2 none due, 3 held for its sequence,
4 its sequence's tracks no longer bind (R225). -/
def State.frameFate (s : State) : Option FrameSt → Nat
  | none => 2
  | some f =>
    if f.dp.isSome then 0
    else if f.bad && s.view.ctrl.testBit 1 then 1
    else
      match s.intk.next with
      | some q =>
        if f.fresh && (!f.rap || (q.auto && !s.formatServed q.format)) then 3
        else if f.fresh && (s.bindSeq q (s.seqModes q)).isNone then 4
        else 0
      | none => 0

/-- A DisplayPort picture in a new timing takes effect as a sequence (R504, R57). -/
def State.dpEffect (s : State) (mode : Nat) : State :=
  let s1 := (((s.put R.INTK_STAT_FORMAT 0x3F).put R.INTK_STAT_ADAPTER 7).put R.INTK_STAT_PLAYING 1).put R.INTK_STAT_TRACKS 0
  ({ s1 with
    intk := { s1.intk with cur := none, next := none, corrupt := [], dpSource := true, residLast := none }
    view := { s1.view with
      stream := if s1.view.ctrl.testBit 0 then some mode else s1.view.stream
      supplied := some mode } } : State).keysInUse.raise .intk 0

/-- The residual set a frame is shown with (R233): its own, or when it announces one that has not come, the last good one. -/
def State.frameResid (s : State) (f : FrameSt) : Option ResidSet := if f.resid then f.residSet.or s.intk.residLast else none

/-- What the stream supplies with a frame before the mode check (R196, R197, R215): its sequence, its depth table, its residual layout. -/
def State.frameBegin (s : State) (f : FrameSt) : State :=
  let s1 := match f.dp with
    | some (some m) => s.dpEffect m
    | some none => s
    | none => if f.fresh then (match s.intk.next with | some q => s.seqEffect q | none => s) else s
  if s1.view.ctrl.testBit 1 then
    let s2 := match f.table with | some l => s1.depthStream l | none => s1
    let a := match s2.intk.cur with | some q => q.anchors | none => 0
    ((s2.put R.VIEW_RESID_ANCHORS_X a).put R.VIEW_RESID_ANCHORS_Y (a / 16)).putB R.VIEW_RESID_PRESENT (s2.frameResid f).isSome
  else s1

/-- The previous frame is rendered again (R25): counted and recorded, unless the frame shown stays shown (R230) or a sequence waits for its RAP
frame (Table 7.13). -/
def State.frameRepeat (s : State) (sf code : Nat) (f : Option FrameSt) : State :=
  match s.intk.shown with
  | none => s
  | some d =>
    if code = 3 ∨ (code = 2 ∧ (s.intk.still = true ∨ s.intk.next.isSome = true)) then s
    else
      let n := match f with | some x => x.seq | none => d
      (s.conceal 4 1 n none).offer 14 1 3 0x301 (sf % 2 ^ 32) code (.link none)

/-- A frame that is not shown leaves the buffer; one whose sequence waits for an activation that no longer is pending refuses the stream
(R215 reason 2), and so does one whose tracks no longer bind (reason 4). -/
def State.frameMissed (s : State) (code : Nat) (f : Option FrameSt) : State :=
  match f with
  | none => s
  | some x =>
    let s1 : State := (({ s with intk := { s.intk with frames := s.intk.frames.filter (fun y => y.seq ≠ x.seq) } } : State).dropWritten
      x.seq).frameGone x.seq
    if code = 3 ∧ x.rap = true ∧ s1.pers.pend.isNone = true then s1.streamRefuse 2
    else if code = 4 then s1.streamRefuse 4
    else s1

/-! ### The compositor's commit (R262 to R275, R290, R294, R296) -/

/-- A signature cue's entry takes effect for a region whose SRC is 1 (R294). -/
def State.sigCue (s : State) (e : List Nat) : State :=
  let r := e.getD 0 0
  let v (i : Nat) : Nat := e.getD i 0
  if s.flag R.COMP_SIG_CFG_SRC r then
    (((s.put R.COMP_SIG_CFG_PHASE (v 1) r).put R.COMP_SIG_CFG_VIEW (v 2) r).put R.COMP_SIG_RECT_XY (v 3 + 65536 * v 4) r).put
      R.COMP_SIG_RECT_WH (v 5 + 65536 * v 6) r |>.put R.COMP_SIG_EXPECT (v 7) r
  else s

/-- The tiles of a frame (R262, R263, R266): those not written age, those written are committed. -/
def State.tilesCommit (s : State) (frame : Nat) : State :=
  let mine := s.comp.wrote.filter (fun w => w.frame = frame)
  let s1 : State := { s with comp := { s.comp with
    wrote := s.comp.wrote.filter (fun w => w.frame ≠ frame)
    caldera := s.comp.caldera.map (fun p =>
      (p.1, if p.2.valid && decide (p.2.fmt = 0) && !mine.any (fun w => w.idx = p.1) then p.2.age else p.2)) } }
  mine.foldl (fun t w => t.commitTile w) s1

/-- What a new frame brings to the compositor and the intake. -/
def State.frameCommit (s : State) (f : FrameSt) : State :=
  let s1 := s.tilesCommit f.seq
  let h := s1.intk.cur
  let transfer := match f.dp, f.tone, h with
    | some _, some l, _ => l.headD 1
    | _, _, some q => q.transfer
    | _, _, none => s1.comp.transfer
  let hdr := match f.dp, h with
    | none, some q => [leAt q.raw 0x20 2, leAt q.raw 0x24 2]
    | _, _ => [0, 0]
  let s2 : State := { s1 with
    comp := { s1.comp with transfer := transfer, hdr := hdr, tone := if f.dp.isSome then none else f.tone }
    intk := { s1.intk with
      frames := s1.intk.frames.filter (fun x => x.seq ≠ f.seq)
      resid := s1.frameResid f
      residLast := f.residSet.or s1.intk.residLast
      shown := some f.seq
      still := f.dp.isNone && (match h with | some q => decide (q.profile = 5) | none => false)
      lastNew := s1.time.raw
      mark := none } }
  let s3 := (f.sigs.foldl (fun t e => t.sigCue e) s2).toneEff
  if f.rap ∨ f.dp.isSome = true then s3.compReady else s3

/-- Whether a boundary changes what a group was flattened from (R273). `s`: before it, `t`: with the new tiles and settings. -/
def groupEnds (s t : State) (activated : Bool) (g : SinterGroup) : Bool :=
  let behind (u : State) : Option DepthEntry := if g.k1 + 1 < u.get R.VIEW_DEPTH_COUNT then some (u.depthEntry (g.k1 + 1)) else none
  activated || decide (s.maxSlope ≠ t.maxSlope) || decide (t.get R.VIEW_DEPTH_COUNT ≤ g.k1) ||
    (span g.k0 g.k1).any (fun k => decide (s.depthEntry k ≠ t.depthEntry k)) ||
    (decide (s.get R.VIEW_DEPTH_COUNT ≠ t.get R.VIEW_DEPTH_COUNT) && decide (behind s ≠ behind t)) ||
    (s.groupTiles g).any (fun i =>
      let a := s.desc i
      let b := t.desc i
      decide (a.addr ≠ b.addr) || decide (a.valid ≠ b.valid) || (b.valid && decide (b.unchanged = 0 ∧ b.releaseSeq = t.get R.COMP_SEQ)))

/-- The compositor at a boundary: a new frame's tiles, overlays, groups, static tiles, the safe image; then the frame is begun (R265).
`s0`: the state before the boundary. A repeated frame commits no tile and no flag of one (R262). -/
def State.compBoundary (s s0 : State) (f : Option FrameSt) (activated : Bool) : State :=
  let s1 := match f with | some x => s.frameCommit x | none => s
  let s2 := match s1.intk.shown with | some n => s1.cueCommit n s1.time.raw | none => s1
  let s3 := s2.surfaces f.isSome
  let s4 := if s3.comp.groups.isEmpty then s3 else s3.endGroups (groupEnds s0 s3 activated)
  let s5 := if f.isSome then (if s4.isMirror then s4.sinterRefs else s4.useGroups).statics else s4
  let s6 := s5.safeCommit.regionsBad
  let n := (s6.get R.COMP_SEQ + 1) % 2 ^ 32
  let s7 := ((s6.put R.COMP_SEQ n).put R.COMP_SEQ_DONE (n + 2 ^ 32 - 1)).returnTiles.bufStates true
  { s7 with comp := { s7.comp with flagged := [], checked := [] } }

/-! ### Pairs at a boundary (R448, R449, R452) -/

/-- Whether a register is mirrored (R446). -/
def isMirrored (off : Nat) : Bool := match regAt off with | some (r, _, _) => decide (r.mir = .yes ∨ r.mir = .hostDepth) | none => false

/-- A snapshot of this module (R452): every mirrored register, the registered buffers, the compositor's static tiles and usable groups;
COMP_SEQ goes with the compositor's state. A group's members are its region and its first and last entry. -/
def State.snapshotOf (s : State) : SnapshotMsg :=
  ⟨s.regs.filter (fun p => isMirrored p.1) ++ [(R.COMP_SEQ.base, s.word R.COMP_SEQ.base), (R.COMP_SEQ_DONE.base, s.word R.COMP_SEQ_DONE.base)],
    s.staged.filter (fun p => isMirrored p.1),
    ((List.range 16).filter (fun b => s.registered b)).map (fun b => (s.bufBase b, s.readBytes (s.bufBase b) (s.bufLen b))),
    (s.comp.caldera.filter (fun p => p.2.static)).map (·.1),
    (s.comp.groups.filter (·.usable)).map (fun g => (g.ref, [g.region, g.k0, g.k1]))⟩

/-- The content of a written block of a registered buffer: its rows, as (address, bytes). -/
def State.blockRows (s : State) (id : Nat) : List (Nat × List Byte) :=
  let b := id / 2 ^ 20
  let row := id / 2 ^ 10 % 2 ^ 10
  let wide := 64 * s.bufBpp b
  let len := min wide (s.get R.COMP_BUF_SIZE_W b * s.bufBpp b - id % 2 ^ 10 * wide)
  (List.range (min 64 (s.get R.COMP_BUF_SIZE_H b - 64 * row))).map (fun y =>
    let a := s.bufBase b + (64 * row + y) * s.get R.COMP_BUF_PITCH b + id % 2 ^ 10 * wide
    (a, s.readBytes a len))

/-- The delta of a commit (R449), `s0` being the state before it; all of the state in place of the changes when it is owed. -/
def State.deltaOf (s s0 : State) : DeltaMsg :=
  let all := s.pair.wholeDue
  let stat := s.comp.caldera.filter (fun p => all || decide ((s0.desc p.1).static ≠ p.2.static))
  let had := (s0.comp.groups.filter (·.usable)).map (·.ref)
  let has := s.comp.groups.filter (·.usable)
  ⟨s.get R.COMP_SEQ, stat.map (fun p => (p.1, p.2.static)),
    (has.filter (fun g => all || !had.contains g.ref)).map (fun g => (g.ref, [g.region, g.k0, g.k1])),
    had.filter (fun r => !has.any (fun g => g.ref = r)),
    s.pair.written.flatMap s.blockRows, true, all⟩

/-- The ACTIVE at a commit: a snapshot that is owed, else a delta. With both codec engines disabled none is made, and the next one carries the
whole state (R256, R449). -/
def State.activeCommit (s s0 : State) : State :=
  if s.isActive && s.pairUp then
    let done (t : State) : State := { t with pair := { t.pair with wholeDue := false, written := [] } }
    if s.pair.snapshotDue then
      let s1 := (s.sendPair (.snapshot s.snapshotOf)).put R.PAIR_STAT_RESYNC 0
      done { s1 with pair := { s1.pair with snapshotDue := false } }
    else if s.get R.LZC_CTRL = 0 then { s with pair := { s.pair with wholeDue := true } }
    else done ((s.sendPair (.delta (s.deltaOf s0))).deltaJob 0 true)
  else { s with pair := { s.pair with written := [] } }

/-- A group the ACTIVE made usable, with its expansion. -/
def State.groupMade (s : State) (m : Nat × List Nat) : State :=
  let region := m.2.getD 0 0
  let k0 := m.2.getD 1 0
  let k1 := m.2.getD 2 0
  let g : SinterGroup := ⟨m.1, region, k0, k1, s.rearmost k1, true, true, false, 0, [], s.groupDepth k0 k1⟩
  match s.expand g (s.groupGrid g) [] with
  | (s1, some ex) =>
    { s1 with comp := { s1.comp with groups := s1.comp.groups.filter (fun x => x.ref ≠ m.1) ++ [{ g with expansion := ex }] } }
  | (_, none) => s

/-- STATIC of a tile as the ACTIVE decided it. -/
def State.staticSet (s : State) (p : Nat × Bool) : State := s.setDesc p.1 { s.desc p.1 with static := p.2 }

/-- Whether a snapshot sets the word at an offset: the mirrored registers and the two sequence counts. -/
def inSnapshot (off : Nat) : Bool := isMirrored off || decide (off = R.COMP_SEQ.base ∨ off = R.COMP_SEQ_DONE.base)

/-- The words of a snapshot replace every mirrored register. -/
def snapWords (old new : List (Nat × Word)) : List (Nat × Word) :=
  (new.filter (fun p => inSnapshot p.1)).foldl (fun l p => Sparse.set resetWord l p.1 p.2) (old.filter (fun p => !isMirrored p.1))

/-- A snapshot is applied (R452); a new anchor and new modes then wait for their boundary. -/
def State.snapApply (s : State) (m : SnapshotMsg) : State :=
  let s1 : State := { s with regs := snapWords s.regs m.regs, staged := snapWords s.staged m.staged }
  let s2 := m.buffers.foldl (fun t b => t.writeBytes b.1 b.2) s1
  let s3 := (s2.comp.caldera.map (·.1)).foldl (fun t i => t.staticSet (i, m.statics.contains i)) s2
  let s4 := m.groups.foldl (fun t g => t.groupMade g) (s3.endGroups (fun _ => true))
  let s5 := (s4.sinterRefs.sinterStat.bufStates true).put R.PAIR_STAT_RESYNC 0
  let a := s5.get R.PSEQ_ANCHOR
  { s5 with
    pair := { s5.pair with snapshot := none, delta := none, stepFrames := 0 }
    pseq := { s5.pseq with anchor := if a = s.get R.PSEQ_ANCHOR then s5.pseq.anchor else some a }
    view := { s5.view with asked := s5.view.asked || decide (s5.word R.VIEW_MODE.base ≠ s.word R.VIEW_MODE.base) } }

/-- A delta is applied at its commit (R449). -/
def State.deltaApply (s : State) (d : DeltaMsg) : State :=
  let s1 := d.statics.foldl (fun t p => t.staticSet p) s
  let s2 := s1.endGroups (fun g => d.invalidated.contains g.ref)
  let s3 := d.usable.foldl (fun t g => t.groupMade g) s2
  let s4 := (d.blocks.foldl (fun t b => t.bufBytes b.1 b.2) s3).sinterRefs.sinterStat
  { s4 with pair := { s4.pair with delta := none } }

/-- The MIRROR at a boundary: OUT_OF_STEP ends (R448); a full frame in step since the snapshot makes bit SYNC (R453). -/
def State.mirrorStep (s : State) : State :=
  if s.isMirror && !s.flag R.PAIR_STAT_RESYNC then
    if s.flag R.PAIR_STAT_OUT_OF_STEP then { (s.put R.PAIR_STAT_OUT_OF_STEP 0) with pair := { s.pair with stepFrames := 0 } }
    else ({ s with pair := { s.pair with stepFrames := s.pair.stepFrames + 1 } } : State).setFit 3 true
  else s

/-- The MIRROR at a commit: the snapshot that has arrived, else the delta of this commit; without it the module is out of step. -/
def State.mirrorCommit (s : State) : State :=
  if s.isMirror then
    match s.pair.snapshot, s.pair.delta with
    | some m, _ => s.snapApply m
    | none, some d => if d.commit = s.get R.COMP_SEQ then s.deltaApply d else s.outOfStep
    | none, none => if s.flag R.PAIR_STAT_RESYNC || !s.pairUp then s else s.outOfStep
  else s

/-! ### FABRIC_FRAME_START (R605, R86) -/

/-- The fabric begins the light-field frame of the next boundary. -/
def State.frameStart (s : State) : State :=
  let nb := s.nextBoundary
  let l := s.gridTime nb
  let sf := s.sfOf nb
  let (s1, activated) := s.mirrorStep.actStep l sf
  let s2 : State := { s1 with view := { s1.view with ctrl := s1.get R.VIEW_CTRL } }
  let (s3, f) := (s2.strobesAt [0, 1, 2, 3, 4, 13, 14] l sf true).pickFrame l
  let code := s3.frameFate f
  let shown := if code = 0 then f else none
  let s4 := match shown with
    | some x => s3.frameBegin x
    | none => (s3.frameMissed code f).frameRepeat sf code f
  let s5 : State := { s4.modeStep.lensLatch with intk := { s4.modeStep.lensLatch.intk with outcome := code } }
  let s6 := (s5.compBoundary s shown activated).captureBegin
  let s7 := (s6.mirrorCommit).activeCommit s |>.tellNotes
  let s8 := ({ s7 with view := { s7.view with begun := some sf } } : State).sourceTokens 0xFFF (s7.get R.COMP_SEQ) (sf % 2 ^ 32)
  if Word.reached s8.view.renderSf sf then s8
  else
    ({ s8 with view := { s8.view with renderSf := sf } } : State).setWord R.VIEW_BAND.base (BitVec.ofNat 32 (65536 * (sf % 65536)))

/-- FABRIC_FRAME_START (R605). A frame is begun once; under a reset, or switched off (Table 20.3), the fabric begins none. -/
def execFabricFrameStart (s : State) : Out :=
  .next (if s.rst.hold = .run ∧ s.powerDown = false ∧ s.nextBegun = false then s.frameStart else s)

/-! ### SUBFRAME_LAUNCH (R322 to R327) -/

/-- Grid points passed over before the earliest launch (R325). -/
def State.skip (s : State) (n : Nat) : State :=
  if n = 0 then s else (s.bumpBy R.PSEQ_EVENTS_SKIPPED n).raise .pseq 2

/-- The first grid point at or after E and after the points that passed while nothing was launched, which are no skips. -/
def State.pointNext (s : State) : State :=
  let due := s.gridFrom s.pseq.earliest 1
  let base := s.gridFrom ((s.now : Int) - ((s.subPeriod / 2 : Nat) : Int)) 1
  let n := max due base
  let s1 := s.skip (min due n - s.pseq.next)
  { s1 with pseq := { s1.pseq with next := n } }

/-- A start of the launch queue takes the next point when that would not come before it (R326, R488): a new grid anchored at max(t, E),
the rest of the interrupted frame skipped; the ACTIVE sends the anchor (R489). -/
def State.startTake (s : State) (t : Nat) : State :=
  let a := max (t : Int) s.pseq.earliest
  if s.gridTime s.pseq.next < a then s
  else
    let ph := max 1 s.pseq.phases
    let s1 := s.skip ((ph - s.pseq.next % ph) % ph)
    let s2 : State := { s1 with pseq := { s1.pseq with grid := a, next := 0, start := none } }
    let s3 := ((s2.put R.PSEQ_ANCHOR (Word.wrap 64 a)).put R.TIME_LAUNCH_LAST (Word.wrap 64 a)).raise .time 5
    if s3.isActive then s3.sendPair (.time (.launch (Word.wrap 64 a)) ⟨s3.get R.TIME_STAT_HOPS, s3.flag R.TIME_STAT_LOCKED, s3.time.pend.isSome⟩)
    else s3

/-- The point of this launch: its index is `next`. -/
def State.launchPoint (s : State) : State :=
  let s1 := s.pointNext
  match s1.pseq.start with
  | some t => s1.startTake t
  | none => s1

/-- The modes taken at a frame's launch (R324): a change of rate, phases or temporal mode anchors a new grid at this launch, unless a new
ANCHOR is taken with it. -/
def State.takeModes (s : State) (t : Int) (m : Nat) : State :=
  let r := modeRate m
  let same := decide (r.1 * s.pseq.rateDen = s.pseq.rateNum * r.2) && decide (modePhases m = s.pseq.phases) &&
    decide (mTemporal m = mTemporal s.pseq.slot.mode)
  let s1 : State := { s with pseq := { s.pseq with modes := none, rateNum := r.1, rateDen := r.2, phases := modePhases m } }
  let s2 : State := if same then s1 else { s1 with pseq := { s1.pseq with grid := t, next := 1 } }
  (s2.put R.PSEQ_MODE_LAYOUT (mLayout m)).put R.PSEQ_MODE_PHASES (modePhases m)

/-- A new ANCHOR (R322, R324): n runs over all integers, so a later ANCHOR stands for the same grid moved down by whole seconds. -/
def State.takeAnchor (s : State) (t a : Int) : State :=
  let second : Int := ((1000000000 * s.pseq.rateDen : Nat) : Int)
  let k : Int := if t < a then Int.fdiv (a - t + second - 1) second else 0
  let s1 : State := { s with pseq := { s.pseq with anchor := none, grid := a - k * second, next := 0 } }
  { s1 with pseq := { s1.pseq with next := s1.gridFrom (t + 1) 1 } }

/-- Strobes that apply at a launch, in ascending order of their groups (R86): 5 at any launch; 6 and 7 at a frame's first launch, which takes
the frame's modes; and those of the groups that may apply at once whose strobe waits for a boundary. DESIGN CHOICE (log entry 48): R605
names no instant of a boundary for the groups 8 to 12 and 15, and the model takes its launch. -/
def State.launchStrobes (s : State) (t : Int) (sf : Nat) (fresh : Bool) : State :=
  let timed := s.strobes.filter (fun x => pointOf x.group = 0 && (x.timing = .nextSubframe || x.timing = .nextFrame || x.targetSf.isSome))
  let s1 := match s.pseq.modes with | some m => if fresh then s.takeModes t m else s | none => s
  let s2 := s1.strobesAt ([5] ++ (if fresh then [6, 7] else []) ++ [8, 9, 10, 11, 12, 15].filter (fun g => timed.any (fun x => x.group = g))) t sf fresh
  match s2.pseq.anchor with
  | some a => if fresh then s2.takeAnchor t (a : Int) else s2
  | none => s2

/-- HOLD_MAX: 0 acts as 1, values above 240 as 240. -/
def State.holdMax (s : State) : Nat := Word.clamp 1 240 (s.get R.PSEQ_HOLD_MAX)

/-- Whether subframes may hold rows: STILL with a lens, FLAT with PARTIAL (R347, R349). -/
def State.mayHold (s : State) : Bool :=
  let m := s.pseq.slot.mode
  if mLayout m = 2 then s.flag R.PSEQ_CTRL_PARTIAL else decide (mTemporal m = 2)

/-- Rectangles at a launch (R346, R350): those in flight advance; queued ones that meet none in flight start in order. -/
def State.rectLaunch (s : State) : State :=
  let on := (s.pseq.flights.filter (fun f => f.left ≠ 0)).map (fun f => { f with left := f.left - 1, first := false })
  let start := s.pseq.queued.foldl (fun (a : List Flight × List Rect) r =>
    if a.1.any (fun f => rectMeets f.rect r) then (a.1, a.2 ++ [r])
    else (a.1 ++ [⟨r, r.wave - 1, true, s.pseq.band⟩], a.2)) (on, [])
  ({ s with pseq := { s.pseq with flights := start.1, queued := start.2 } } : State).rectStat

/-- The pattern of a launch (R356): PSEQ_PATTERN, the pattern forced under R609, or the black subframe of a shutdown (R558). -/
def State.patternLaunch (s : State) : State :=
  let sel := if s.pseq.black then 2 else if s.lane.fallbackPattern then 1 else s.get R.PSEQ_PATTERN_SEL
  let lv := if s.pseq.black then 0 else s.get R.PSEQ_PATTERN_LEVEL
  ({ s with pseq := { s.pseq with pat := sel, patLevel := lv } } : State).putB R.PSEQ_STAT_PATTERN_ON (decide (sel ≠ 0))

/-- The lens slot and the phase of a launch (R331, R337): a frame's first launch takes the modes and the lens band of its cycle. -/
def State.slotLaunch (s : State) (p : Nat) (fresh : Bool) : State :=
  let q : LensSlot := if fresh then ⟨s.get R.VIEW_MODE_EFF_MODE, s.get R.PSEQ_TEMP_BAND_LENS, p, s.flag R.PSEQ_MODE_STEER_OFF⟩
    else { s.pseq.slot with phase := p }
  { s with pseq := { s.pseq with slot := q, phase := p, lensStep := 0 } }

/-- The first frame of an input is lit (R53, R50): the pattern selected until then ends. -/
def State.frameLight (s : State) : State :=
  if s.intk.outcome = 0 ∧ s.intk.standalone = false then
    let s1 := if s.get R.PSEQ_PATTERN_SEL = 1 then s.put R.PSEQ_PATTERN_SEL 0 else s
    ({ s1 with intk := { s1.intk with standalone := true }, rst := { s1.rst with frameLit := true } } : State).boot
  else s

/-- The pattern is lit (Timing 2.1 stage 0x07). -/
def State.patternLight (s : State) : State :=
  if s.flag R.PSEQ_STAT_PATTERN_ON ∧ s.get R.RST_STAGE_STAGE = 6 then
    ({ s with rst := { s.rst with patternLit := true } } : State).boot
  else s

/-- E of the subframe after one launched at `t` (R325). -/
def State.earliestAfter (s : State) (t : Int) : Int :=
  let lines := s.get R.PSEQ_VTIME2_VACT + (match s.pseq.desc with | some d => d.vblankMin | none => 0)
  t + ((Word.cdiv (lines * 1000000000 * s.pseq.rateDen) (max 1 (s.pseq.rateNum * s.vtotal)) : Nat) : Int)

/-- A subframe is sent from `t` on: settings latched at its launch (R336, R340, R350, R352), control blocks, what follows for rows. The
subframe before a handover writes every row (R458). -/
def State.subframeStart (s : State) (t : Int) (p : Nat) (fresh : Bool) : State :=
  let s1 := (if fresh then s.frameLight else s).patternLaunch.slotLaunch p fresh
  let w := unifWeight (s1.getI R.PSEQ_TEMP_TEMP) (s1.getI R.PSEQ_UNIF_T_COOL) (s1.getI R.PSEQ_UNIF_T_WARM)
  let full := s1.pseq.fullDue || s1.pseq.black || decide (s1.pair.handover = some (s1.sf + 1)) || decide (s1.holdMax ≤ s1.pseq.held) || !s1.mayHold
  let s2 := ((((s1.put R.PSEQ_TEMP_BAND_LV s1.pseq.band).put R.PSEQ_UNIF_STAT_W w).putB R.PSEQ_STAT_FULL full).put R.PSEQ_STAT_HOLDING 0).put
    R.PSEQ_STAT_BAND 0
  let s3 := s2.rectLaunch
  let sf := s3.sf
  let s4 : State := { s3 with
    pseq := { s3.pseq with
      noReading := s3.pseq.noReading + 1, held := if full then 1 else s3.pseq.held + 1, fullDue := false, stillFull := false,
      earliest := s3.earliestAfter t, sentBands := 0, inFlight := true, sigs := ⟨sf, [], [], []⟩,
      bands := s3.pseq.bands.filter (fun b => Word.reached b.sf sf) }
    view := { s3.view with renderSf := if Word.reached s3.view.renderSf sf then s3.view.renderSf else sf } }
  let s5 := s4.sendSof sf full p
  let s6 := if s4.view.renderSf = s3.view.renderSf then s5
    else (s5.bandBegin.setWord R.VIEW_BAND.base (BitVec.ofNat 32 (65536 * (sf % 65536)))).subframeTokens
  s6.patternLight

/-- The black subframe of a shutdown is the last (R558): its rails power off behind it. -/
def State.blackLast (s : State) : State :=
  if s.pseq.black then ({ s with pseq := { s.pseq with black := false } } : State).railOff false else s

/-- Hold symbols in place of a subframe (R327; after a freeze of an unpaired module, R432). -/
def State.holdLaunch (s : State) : State :=
  let s1 := (s.put R.PSEQ_STAT_HOLDING 1).sendHold
  { s1 with pseq := { s1.pseq with inFlight := false } }

/-- The codes of the slot that ends, before anything that applies at the launch (R331, R337). -/
def State.slotEnds (s : State) : State :=
  { s with pseq := { s.pseq with slotOld := (List.range 32).map (fun i => s.lensDrive s.pseq.slot i) } }

/-- A launch at the grid point `next`. -/
def State.launch (s : State) : State :=
  let n := s.pseq.next
  let t := s.gridTime n
  let p := n % max 1 s.pseq.phases
  let fresh := decide (p = 0) || decide (p ≤ s.pseq.phase)
  let s1 := s.put R.PSEQ_SF ((s.get R.PSEQ_SF + 1) % 2 ^ 64)
  let s2 := ({ s1 with pseq := { s1.pseq with next := n + 1 } } : State).slotEnds
  let s3 := ((s2.laneMarkers.launchStrobes t s2.sf fresh).throttleApply).calStep
  if s3.rst.hold = .core ∨ s3.pseq.waitReady = true ∨ (s3.anyFrozen = true ∧ s3.inPair = false) then s3.holdLaunch
  else
    let s4 := match s3.claimDue t s3.sf with | some c => s3.claimLaunch c s3.sf | none => s3
    (s4.subframeStart t p fresh).blackLast

/-- Whether the sequencer launches: its rails up, the panel link and its timing ready (Timing 2.1 stage 0x06, R357, R365). -/
def State.launches (s : State) : Bool :=
  !s.pseq.noLaunch && decide (6 ≤ s.get R.RST_STAGE_STAGE) && (decide (s.get R.RAIL_STAT_STATE = 2) || decide (s.get R.RAIL_STAT_STATE = 3))

/-- SUBFRAME_LAUNCH (R322): the grid reaches a launch. While nothing is launched the grid goes on, and no subframe is counted. -/
def execSubframeLaunch (s : State) : Out :=
  if s.rst.hold ≠ .run ∧ s.rst.hold ≠ .core then .next s
  else if s.launches then .next s.launchPoint.launch
  else .next { s with pseq := { s.pseq with next := s.pseq.next + 1, inFlight := false } }

/-! ### Stand-alone play (R53) -/

/-- INPUT_IDLE_TIMEOUT (R53): 5 s without a new frame after stand-alone play has begun: the pattern returns. A frame of profile S stays
until its input is lost. -/
def execInputIdleTimeout (s : State) : Out :=
  if s.intk.standalone = true ∧ (s.intk.still = false ∨ s.intk.mark.isSome = true) then
    let s1 := s.put R.PSEQ_PATTERN_SEL 1
    .next { s1 with intk := { s1.intk with standalone := false, mark := none, outcome := 2 } }
  else .next s

end Sys2Proof.Machine
end

