-- ==== Sys2Proof/Machine/Sec.lean ====
section
/-!
DEFINITION. Security (spec/19): OTP and its registers, anti-rollback commits, owner keys, attestation, sealed keys, debug.
-/

namespace Sys2Proof.Machine

open Sys2Proof

/-! ### OTP in the SEC registers (R530, R537, R542, R543) -/

/-- The indices of the HSS identity key: how many, and how many are left. -/
def hssTotal : Nat := 1048576
def State.hssLeft (s : State) : Nat := hssTotal - s.otp.hssFlash

/-- SEC_HSS_INDEX, SEC_HSS_LEFT, HSS_LOW. -/
def State.hssShow (s : State) : State :=
  let low := decide (s.hssLeft < 65536)
  let s1 := ((s.put R.SEC_HSS_INDEX_NEXT s.otp.hssFlash).putB R.SEC_HSS_INDEX_OUT (decide (s.hssLeft = 0))).put R.SEC_HSS_LEFT s.hssLeft
  (s1.putB R.SEC_STAT_HSS_LOW low).raiseIf (low && !s.flag R.SEC_STAT_HSS_LOW) .sec 3

/-- What the SEC registers show of OTP. -/
def State.otpShow (s : State) : State :=
  let s1 := ((s.put R.SEC_STAT_OWNER_ENROLLED s.otp.enrolled).put R.SEC_STAT_OWNER_CLOSED s.otp.closed).put R.SEC_SVN_FW (rowValue s.otp.fwRows)
  ((s1.put R.SEC_SVN_PERS (rowValue s.otp.persRows)).put R.SEC_SVN_ROWS_FW s.otp.fwRows.length).put R.SEC_SVN_ROWS_PERS s.otp.persRows.length

/-- The caretaker at its start: the larger of the flash index and 4,096 times the highest burned anchor bit (R543). -/
def State.hssStart (s : State) : State :=
  ({ s with otp := { s.otp with hssFlash := max s.otp.hssFlash (4096 * Nat.log2 s.otp.hssAnchor) } } : State).hssShow

/-- The next HSS index is used: its block's anchor bit burned before the first of the block, the index written to flash (R542, R543). -/
def State.hssUse (s : State) : State :=
  let i := s.otp.hssFlash
  ({ s with otp := { s.otp with hssFlash := i + 1, hssAnchor := Word.setBit s.otp.hssAnchor (i / 4096) } } : State).hssShow

/-! ### Commits (R538, R539) -/

/-- A commit ends with a code. -/
def State.commitEnd (s : State) (err : Nat) : State :=
  ((s.put R.SEC_SVN_RESULT_ERR err).putB R.SEC_SVN_RESULT_BUSY (!s.sec.commit.isEmpty)).raise .sec 0

/-- A commit of `v` to a counter whose rows are `rows0`: nothing to raise, no row left, or programming begins. Commits of the counter still being
programmed count as rows. -/
def State.commitBegin (s : State) (pers : Bool) (rows0 : List (Option Nat)) (v : Nat) : State :=
  let rows := rows0 ++ (s.sec.commit.filter (fun c => c.1 = pers)).map (fun c => some c.2)
  if v ≤ rowValue rows then s.commitEnd 0
  else if 64 ≤ rows.length then s.commitEnd 0x64
  else ({ s with sec := { s.sec with commit := s.sec.commit ++ [(pers, v)] } } : State).put R.SEC_SVN_RESULT_BUSY 1

/-- FW: to the SEC_VERSION of the running firmware. -/
def State.commitFw (s : State) : State := s.commitBegin false s.otp.fwRows (s.get R.SEC_FW_SVN)

/-- PERS: to the SEC_VERSION of the ACTIVE slot. -/
def State.commitPers (s : State) : State :=
  if s.flag R.PERS_STATE_ACTIVE_VALID = false then s.commitEnd 0x04
  else
    let v := s.get R.PERS_SLOT_SV s.activeSlot
    if s.sec.baseSvn < v then s.commitEnd 0x63 else s.commitBegin true s.otp.persRows v

/-- A write of SEC_SVN_COMMIT. -/
def State.svnCommit (s : State) (r : Req) (data : Nat) : State :=
  s.keyed R.SEC_SVN_COMMIT.base r (data / 65536) 0x5EC0 data (fun t =>
    let t1 := if data.testBit 0 then t.commitFw else t
    if data.testBit 1 then t1.commitPers else t1)

/-- SVN_COMMIT_FW. -/
def execSvnCommitFw (r : Req) (key : Nat) (s : State) : Out := .next (s.svnCommit r (key * 65536 + 1))

/-- SVN_COMMIT_PERS. -/
def execSvnCommitPers (r : Req) (key : Nat) (s : State) : Out := .next (s.svnCommit r (key * 65536 + 2))

/-- Slots that hold a checked file and do not play. -/
def State.resident (s : State) : List Nat :=
  (List.range 8).filter (fun k => s.slotState k = 2 || s.slotState k = 4 || s.slotState k = 5)

/-- A resident slot is rejected, and a pending activation of it refused (R536, R539). -/
def State.slotRevoke (s : State) (slot code off : Nat) : State := (s.actRefuseOn slot code).slotReject slot code off

/-- Resident slots whose SEC_VERSION is below the personality counter become REJECTED. -/
def State.rollSlots (s : State) : State :=
  (s.resident.filter (fun k => decide (s.get R.PERS_SLOT_SV k < rowValue s.otp.persRows))).foldl (fun t k => t.slotRevoke k 0x0A 0x20) s

/-- SVN_COMMIT_DONE: the row of the oldest commit is programmed. -/
def execSvnCommitDone (s : State) : Out :=
  match s.sec.commit with
  | [] => .next s
  | (pers, v) :: rest =>
    let s1 : State := { s with
      sec := { s.sec with commit := rest }
      otp := if pers then { s.otp with persRows := s.otp.persRows ++ [some v] } else { s.otp with fwRows := s.otp.fwRows ++ [some v] } }
    let s2 := s1.otpShow.commitEnd 0
    .next (if pers then s2.rollSlots else s2)

/-- Power is lost while a row is being programmed: the row stays incomplete (R537). -/
def State.commitCut (s : State) : State :=
  match s.sec.commit with
  | [] => s
  | (pers, _) :: _ =>
    { s with otp := if pers then { s.otp with persRows := s.otp.persRows ++ [none] } else { s.otp with fwRows := s.otp.fwRows ++ [none] } }

/-! ### The caretaker's objects in DRAM -/

/-- A region check for the caretaker (Table 18.3): no ATTR bit names it, so a valid entry that grants the access is enough, whatever users
it names. -/
def State.careRegion (s : State) (write : Bool) (a len : Nat) : Bool :=
  len = 0 || (decide (a + len ≤ 2 ^ 64) && (List.range 64).any (fun i =>
    let t := s.get R.MEM_REGION_ATTR i
    t.testBit 0 && t.testBit (if write then 2 else 1) && decide (s.get R.MEM_REGION_BASE i * 4096 ≤ a) &&
      decide (a + len - 1 ≤ s.get R.MEM_REGION_LIMIT i * 4096 + 4095)))

/-- Bytes of the SIG section. -/
def sigLen : Nat := 5180

/-- The signature rule over an object that ends in its SIG section (R531). -/
def State.objectSig (s : State) (o : List Byte) : Nat :=
  (s.sigCheck (Config.sha384 (o.take (o.length - sigLen))) (o.drop (o.length - sigLen))).1

/-- Whether an object opens with a magic and FMT_MAJOR 1. -/
def opens (o : List Byte) (magic : Nat) : Bool := decide (leAt o 0 4 = magic) && decide (leAt o 4 2 = 1)

/-- The module serial as 64 bits. -/
def State.serial (s : State) : Nat := s.nv.serial % 2 ^ 64

/-! ### Owner keys (R535, R536) -/

/-- The slots signed with the keys of an owner slot. -/
def State.signedBy (s : State) (k owner : Nat) : Bool :=
  let g := s.slotFile k
  decide (g (sectOff g 7) 1 = 1) && decide (g (sectOff g 7 + 1) 1 = owner)

/-- A key package acts on owner slot `p`; the code of KEY_ENROLL. -/
def State.enroll (s : State) (p : Nat) (o : List Byte) : State × Nat :=
  let act := leAt o 6 1
  let ser := leAt o 8 8
  if o.length ≠ 0xC0 + sigLen ∨ opens o 0x4B4F4941 = false ∨ (act ≠ 1 ∧ act ≠ 2) ∨ leAt o 7 1 ≠ p ∨ leAt o 0xAC 20 ≠ 0 ∨ leAt o 0xC0 1 ≠ 0 then
    (s, 0x160)
  else if ser ≠ s.serial ∧ ser ≠ 0xFFFFFFFFFFFFFFFF then (s, 0x161)
  else
    match s.objectSig o with
    | 0 =>
      if act = 1 then
        if s.otp.enrolled.testBit p ∨ s.otp.closed.testBit p = true then (s, 0x162)
        else
          (({ s with otp := { s.otp with
            ownerKeys := (p, slice o 0x10 156) :: s.otp.ownerKeys.filter (fun x => x.1 ≠ p)
            enrolled := Word.setBit s.otp.enrolled p } } : State).otpShow, 0)
      else
        let s1 := ({ s with otp := { s.otp with closed := Word.setBit s.otp.closed p } } : State).otpShow
        ((s1.resident.filter (fun k => s1.signedBy k p)).foldl (fun t k =>
          let g := t.slotFile k
          t.slotRevoke k 0x09 (sectOff g 7 + 1)) s1, 0)
    | c => (s, 0x100 + c)

/-! ### The module's own keys (R540) -/

/-- The bytes of a label. -/
def labelBytes (l : List Nat) : List Byte := l.map (BitVec.ofNat 8)

/-- The DeviceID key, the seal key and the HSS identity key: from the UDS, with the labels "DEVID", "SEAL" and "HSSID". -/
def deviceKey : List Byte := Config.hkdf Config.uds [] (labelBytes [0x44, 0x45, 0x56, 0x49, 0x44]) 48
def sealKey : List Byte := Config.hkdf Config.uds [] (labelBytes [0x53, 0x45, 0x41, 0x4C]) 48
def hssKey : List Byte := Config.hkdf Config.uds [] (labelBytes [0x48, 0x53, 0x53, 0x49, 0x44]) 48

/-- The alias key of a firmware digest and the debug state: from CDI = HMAC-SHA-384(UDS, FW_DIGEST ‖ D). -/
def aliasKey (fw : List Byte) (debug : Bool) : List Byte := Config.hmac Config.uds (fw ++ [if debug then 1 else 0])

/-- What the boot ROM signs with the DeviceID key before it erases it: ALIAS_PUB ‖ SEAL_PUB ‖ FW_DIGEST. -/
def aliasEndorse (fw : List Byte) (debug : Bool) : List Byte :=
  Config.ecSign deviceKey (Config.sha384 (Config.ecPublic (aliasKey fw debug) ++ Config.ecPublic sealKey ++ fw))

/-! ### Attestation (R541 to R543) -/

/-- A list cut or filled with zeros to `n` bytes. -/
def padTo (n : Nat) (l : List Byte) : List Byte := (l ++ List.replicate n 0).take n

/-- FW_DIGEST as the registers hold it. -/
def State.fwDigest (s : State) : List Byte := (List.range 12).flatMap (fun i => Word.toLe 4 (s.get R.SEC_FW_DIGEST i))

/-- Whether the ACTIVE slot is owner-signed. -/
def State.activeOwner (s : State) : Bool :=
  s.flag R.PERS_STATE_ACTIVE_VALID && decide (s.slotFile s.activeSlot (sectOff (s.slotFile s.activeSlot) 7) 1 = 1)

/-- Bytes 0x000 to 0x21F of the report with index `i` and a nonce (Table 19.4). -/
def State.reportHead (s : State) (i : Nat) (nonce : List Byte) : List Byte :=
  let act := s.flag R.PERS_STATE_ACTIVE_VALID
  let flags := Word.ofBool s.sec.debugSeen + 2 * Word.ofBool s.activeOwner + 4 * s.get R.SEC_STAT_HOST_BOOT
  let time := s.now % 2 ^ 63 + 2 ^ 63 * Word.ofBool (!s.flag R.TIME_STAT_LOCKED)
  let fw := s.fwDigest
  let ap := padTo 96 (Config.ecPublic (aliasKey fw s.sec.aliasDebug))
  let sp := padTo 96 (Config.ecPublic sealKey)
  Word.toLe 4 0x54414941 ++ Word.toLe 2 1 ++ Word.toLe 2 flags ++ Word.toLe 4 5720 ++ Word.toLe 4 i ++ padTo 32 nonce ++
    Word.toLe 8 s.serial ++ Word.toLe 4 (s.get R.CTL_ID) ++ Word.toLe 4 (s.get R.CTL_REV) ++ Word.toLe 8 time ++
    Word.toLe 8 (s.get R.SEC_FW_SVN) ++ Word.toLe 8 (rowValue s.otp.fwRows) ++ Word.toLe 8 (rowValue s.otp.persRows) ++ padTo 48 fw ++
    padTo 48 (if act then s.slotDigest s.activeSlot else []) ++ Word.toLe 8 (if act then s.get R.PERS_SLOT_ID s.activeSlot else 0) ++
    padTo 48 s.sec.descDigest ++ Word.toLe 1 (s.otp.enrolled % 16 + 16 * (s.otp.closed % 16)) ++ List.replicate 7 0 ++ ap ++
    padTo 96 (aliasEndorse fw s.sec.aliasDebug) ++ sp

/-- The whole report. -/
def State.report (s : State) (i : Nat) (nonce : List Byte) : List Byte :=
  let h := s.reportHead i nonce
  let d := Config.sha384 h
  h ++ padTo 96 (Config.ecSign (aliasKey s.fwDigest s.sec.aliasDebug) d) ++ Word.toLe 4 5076 ++ padTo 5076 (Config.hssSign hssKey i d)

/-- ATTEST: nonce from `from_`, report to `to_` with `room` bytes. -/
def State.attest (s : State) (from_ to_ room : Nat) : State × Nat × Nat :=
  if room < 5720 then (s, 3, 0)
  else if s.careRegion false from_ 32 = false ∨ s.careRegion true to_ 5720 = false then (s, 0x117, 0)
  else if s.hssLeft = 0 then (s, 0x168, 0)
  else
    let i := s.otp.hssFlash
    let r := s.report i (s.readBytes from_ 32)
    (s.hssUse.writeBytes to_ r, 0, 5720)

/-! ### Sealed content keys (R544, R545) -/

/-- A key slot as the INTK registers show it. -/
def State.keyShow (s : State) (n : Nat) (kid : List Byte) (valid : Bool) : State :=
  let s1 := (List.range 4).foldl (fun t j => t.put R.INTK_KEY_KID (leAt kid (4 * j) 4) n j) s
  (s1.putB R.INTK_KEY_STAT_VALID valid n).keysInUse

/-- The content of a blob (R544): Z = ECDH(seal key, EPH_PUB); a key from Z with SERIAL as salt; AES-256-GCM over bytes 0x00 to 0x87 as
additional data. -/
def blobOpen (b : List Byte) : Option (List Byte) :=
  match Config.ecdh sealKey (slice b 0x10 96) with
  | none => none
  | some z => Config.gcmOpen (Config.hkdf z (slice b 8 8) [] 32) (slice b 0x78 12) (b.take 0x88) (slice b 0x88 32) (slice b 0xA8 16)

/-- Why a blob is refused; none when it opens: NOT_AFTER, KID, key. -/
def State.openBlob (s : State) (b : List Byte) : Nat × Nat × List Byte :=
  let na := leAt b 0x70 8
  if b.length ≠ 0xB8 ∨ opens b 0x424B4941 = false ∨ leAt b 6 2 ≠ 0 ∨ leAt b 0x84 4 ≠ 0 then (0x160, 0, [])
  else if leAt b 8 8 ≠ s.serial then (0x161, 0, [])
  else
    match blobOpen b with
    | none => (0x165, 0, [])
    | some c =>
      if na ≠ 0 ∧ (s.flag R.TIME_STAT_LOCKED = false ∨ na ≤ s.now) then (0x166, 0, [])
      else if s.flag R.SEC_STAT_DEBUG then (0x167, 0, [])
      else (0, na, padTo 32 c)

/-- A key goes into slot `n` (R232). The key it replaces serves units whose first byte came before, while any of them is in the buffer. -/
def State.keyPut (s : State) (n : Nat) (k : KeySlot) : State :=
  let needed (x : KeySlot) : Bool := match x.till with
    | none => true
    | some t => s.intk.ready.any (fun u => decide (u.born ≤ t)) || s.intk.parts.any (fun p => decide (p.born ≤ t))
  let old := s.intk.keys.map (fun x => if x.slot = n ∧ x.till = none then { x with till := some s.intk.arrivals } else x)
  { s with intk := { s.intk with keys := old.filter needed ++ [k] } }

/-- A blob goes into key slot `n`; its code. -/
def State.keyLoad (s : State) (n : Nat) (b : List Byte) : State × Nat :=
  match s.openBlob b with
  | (0, na, c) =>
    let kid := c.take 16
    let s1 : State := { s.keyPut n ⟨n, kid, c.drop 16, na, s.intk.arrivals, none⟩ with
      sec := { s.sec with blobs := s.sec.blobs.filter (fun x => x.1 ≠ n) ++ [(n, b)] } }
    ((s1.keyShow n kid true).bump R.INTK_KEY_STAT_LOADS n, 0)
  | (c, _, _) => (s, c)

/-- A key slot is cleared, with the keys it held before. -/
def State.keyClear (s : State) (n : Nat) : State :=
  ({ s with
    intk := { s.intk with keys := s.intk.keys.filter (fun x => x.slot ≠ n) }
    sec := { s.sec with blobs := s.sec.blobs.filter (fun x => x.1 ≠ n) } } : State).keyShow n [] false

/-- After CORE the caretaker loads the blobs it keeps again (R236, R545). -/
def State.keysReload (s : State) : State := s.sec.blobs.foldl (fun t b => (t.keyLoad b.1 b.2).1) s

/-- KEY_EXPIRY (R545). -/
def execKeyExpiry (n : Nat) (s : State) : Out :=
  .next (match s.intk.keys.find? (fun k => decide (k.slot = n ∧ k.till = none)) with
    | some k => if k.notAfter ≠ 0 ∧ k.notAfter ≤ s.now then (s.keyClear n).raise .sec 4 else s
    | none => s)

/-! ### Debug (R546 to R548) -/

/-- The pending challenge is consumed or dropped. -/
def State.challengeDrop (s : State) : State := ({ s with sec := { s.sec with challenge := none } } : State).put R.SEC_STAT_CHALLENGE 0

/-- A challenge's life on RAW: 300 s. -/
def challengeLife : Nat := 300000000000

/-- DEBUG_CHALLENGE: the nonce comes from the true random generator, a free value (log entry 1). -/
def State.challengeIssue (s : State) (to_ room : Nat) : State × Nat × Nat :=
  if room < 56 then (s, 3, 0)
  else if s.careRegion true to_ 56 = false then (s, 0x117, 0)
  else
    let nonce := Word.toLe 32 (s.freeNat 256)
    let msg := Word.toLe 4 0x43444941 ++ Word.toLe 2 1 ++ Word.toLe 2 0 ++ Word.toLe 8 s.serial ++ nonce ++ Word.toLe 8 s.now
    let s1 : State := { s.tookFree with sec := { s.sec with challenge := some (nonce, s.time.raw) } }
    ((s1.put R.SEC_STAT_CHALLENGE 1).writeBytes to_ msg, 0, 56)

/-- CHALLENGE_EXPIRY. -/
def execChallengeExpiry (s : State) : Out :=
  .next (match s.sec.challenge with
    | some c => if c.2 + challengeLife ≤ s.time.raw then s.challengeDrop else s
    | none => s)

/-- The judgement of a response: 0, or the code of SEC_DBG_STAT.ERR (R547: of Table 4.8, or 0x169); and the LEVEL it asks for. -/
def State.dbgJudge (s : State) : Nat × Nat :=
  let a := s.get R.SEC_DBG_ADDR
  let n := s.get R.SEC_DBG_LEN
  match s.sec.challenge with
  | none => (0x169, 0)
  | some c =>
    if c.2 + challengeLife ≤ s.time.raw then (0x169, 0)
    else if s.careRegion false a n = false then (0x117, 0)
    else
      let o := s.readBytes a n
      let lv := leAt o 6 1
      if o.length ≠ 0x40 + sigLen then (0x103, 0)
      else if leAt o 0 4 ≠ 0x52444941 then (0x101, 0)
      else if leAt o 4 2 ≠ 1 then (0x102, 0)
      else if (lv ≠ 1 ∧ lv ≠ 2) ∨ leAt o 8 8 ≠ s.serial ∨ slice o 0x10 32 ≠ c.1 then (0x169, 0)
      else if leAt o 0x40 1 ≠ 0 then (0x109, 0)
      else match s.objectSig o with
        | 0 => (0, lv)
        | e => (0x100 + e, 0)

/-- SUBMIT: the challenge is consumed whether the response passes or fails. -/
def State.dbgSubmit (s : State) : State :=
  let j := s.dbgJudge
  let s1 := s.challengeDrop.put R.SEC_DBG_STAT_ERR j.1
  if j.1 = 0 then
    let s2 := (List.range 64).foldl (fun t n => if t.flag R.INTK_KEY_STAT_VALID n then t.keyClear n else t) s1
    let s3 := if s2.get R.DPRX_STAT_HDCP = 0 then s2 else (s2.put R.DPRX_STAT_HDCP 0).raise .dprx 2
    (({ s3 with sec := { s3.sec with debugSeen := true } } : State).put R.SEC_STAT_DEBUG 1).put R.SEC_STAT_DEBUG_LEVEL j.2 |>.raise .sec 1
  else (s1.bump R.SEC_DBG_STAT_FAILED).raise .sec 2

/-- LOCK: a challenge pending is consumed. -/
def State.dbgLock (s : State) : State :=
  let s1 := ((s.put R.SEC_STAT_DEBUG 0).put R.SEC_STAT_DEBUG_LEVEL 0).challengeDrop
  s1.raiseIf (s.flag R.SEC_STAT_DEBUG) .sec 1

/-- A write of SEC_DBG_CMD: with both bits, LOCK comes first. -/
def State.dbgCmd (s : State) (r : Req) (data : Nat) : State :=
  s.keyed R.SEC_DBG_CMD.base r (data / 65536) 0xDB60 data (fun t =>
    let t1 := if data.testBit 1 then t.dbgLock else t
    if data.testBit 0 then t1.dbgSubmit else t1)

/-- DBG_SUBMIT. -/
def execDbgSubmit (r : Req) (key : Nat) (s : State) : Out := .next (s.dbgCmd r (key * 65536 + 1))

/-- DBG_LOCK. -/
def execDbgLock (r : Req) (key : Nat) (s : State) : Out := .next (s.dbgCmd r (key * 65536 + 2))

end Sys2Proof.Machine
end

