-- ==== Sys2Proof/Machine/Unif.lean ====
section
/-!
DEFINITION. The uniformity map file (spec/11, R341, Table 11.4): its header, its blocks, the Rice code of their deltas.
-/

namespace Sys2Proof.Machine

open Sys2Proof

/-- The bits of bytes, least significant first. -/
def lsbBits (l : List Byte) : List Bool := l.flatMap (fun b => (List.range 8).map (fun i => b.toNat.testBit i))

/-- The ones in front and what follows the zero that ends them; none where no zero does. -/
def unary : List Bool → Option (Nat × List Bool)
  | [] => none
  | false :: l => some (0, l)
  | true :: l => (unary l).map (fun r => (r.1 + 1, r.2))

/-- The number that bits spell, least significant first. -/
def bitsNat (l : List Bool) : Nat := l.foldr (fun b n => 2 * n + Word.ofBool b) 0

/-- One Rice code with parameter `k` (R341); none where the bits end in it. -/
def riceCode (k : Nat) (l : List Bool) : Option (Nat × List Bool) :=
  match unary l with
  | none => none
  | some (q, r) => if r.length < k then none else some (q * 2 ^ k + bitsNat (r.take k), r.drop k)

/-- `n` Rice codes in a row. -/
def riceCodes (k : Nat) : Nat → List Bool → Option (List Nat × List Bool)
  | 0, l => some ([], l)
  | n + 1, l =>
    match riceCode k l with
    | none => none
    | some (u, r) => (riceCodes k n r).map (fun q => (u :: q.1, q.2))

/-- The delta that a code stands for. -/
def riceDelta (u : Nat) : Int := if u % 2 = 0 then (u / 2 : Nat) else -((u + 1) / 2 : Nat)

/-- A block that does not serve. -/
def unifBad : UnifBlock := ⟨[], [], false⟩

/-- The block at offset `o` of a map file. DESIGN CHOICE (log entry 94): a block that leaves the file, or whose body does not spell 8,192
deltas from -8 to +7, counts as one whose CRC fails. -/
def unifBlock (f : List Byte) (o : Nat) : UnifBlock :=
  let len := leAt f (o + 8) 4
  let body := slice f (o + 16) len
  if f.length < o + 16 + len ∨ leAt f (o + 12) 4 ≠ crc32cB body then unifBad
  else
    let ks := leAt f (o + 6) 1
    match riceCodes (ks % 4) 4096 (lsbBits body) with
    | none => unifBad
    | some (g, r) =>
      match riceCodes (ks / 4 % 4) 4096 r with
      | none => unifBad
      | some (d, _) =>
        if (g ++ d).any (fun u => decide (16 ≤ u)) then unifBad
        else ⟨g.map (fun u => (Word.clampI 0 65535 ((leAt f o 2 : Nat) + riceDelta u * (leAt f (o + 4) 1 : Nat))).toNat),
          d.map (fun u => leAtI f (o + 2) 2 + riceDelta u * (leAt f (o + 5) 1 : Nat)), true⟩

/-- A map file. DESIGN CHOICE (log entry 94): a file without the MAGIC and FMT_MAJOR of Table 11.4 counts as one with a block that does not
serve. -/
def unifFile (f : List Byte) : UnifMap :=
  let x := leAt f 0x10 2
  let n := x * leAt f 0x12 2
  let shaped := decide (leAt f 0 4 = 0x504D5541 ∧ leAt f 4 2 = 1 ∧ 0x40 + 4 * n ≤ f.length)
  ⟨leAtI f 6 2, leAt f 8 8, x, leAt f 0x14 4,
    if shaped then (List.range n).map (fun i => unifBlock f (leAt f (0x40 + 4 * i) 4)) else [unifBad]⟩

end Sys2Proof.Machine
end

