-- ==== Sys2Proof/Machine/Boot.lean ====
section
/-!
DEFINITION. From reset to play (spec/02, R40 to R60; R318, R319, R341, R423, R424, R533): the load, the boot ROM, DRAM, the panel
descriptor, the baseline personality, the stand-alone input.
-/

namespace Sys2Proof.Machine

open Sys2Proof

/-! ### The option and trim load (R40 to R49) -/

/-- CODE of a strap reading: 0 when the pin is shorted or open (R46, R48). -/
def strapCode (reading : Nat) : Nat := if reading < 16 ∨ 1008 ≤ reading then 0 else reading / 64

/-- RST_STRAP as a reading decodes (R46, R48, R49). -/
def State.strapSet (s : State) (reading : Nat) : State :=
  let c := strapCode reading
  let s1 := (((s.put R.RST_STRAP_READING reading).put R.RST_STRAP_CODE c).put R.RST_STRAP_ROLE (c / 4)).put R.RST_STRAP_BOOT_SRC (c / 2 % 2)
  let s2 := ((s1.put R.RST_STRAP_INPUT (c % 2)).putB R.RST_STRAP_OPEN (decide (1008 ≤ reading))).putB R.RST_STRAP_SHORT (decide (reading < 16))
  let classed := decide (reading < 16 ∨ 1008 ≤ reading)
  let margin := !classed && decide (reading % 64 < 4 ∨ 60 ≤ reading % 64)
  let s3 := s2.putB R.RST_STRAP_MARGIN margin
  if classed then s3.alert.recOther R.RST_STRAP.base else if margin then s3.recOther R.RST_STRAP.base else s3

/-- ETH_PORT[p].MAC from OTP: port p has the address of port 0 plus p (R498, R603). -/
def State.macShow (s : State) : State :=
  (List.range 8).foldl (fun t p => t.put R.ETH_PORT_MAC ((s.otp.mac + p) % 2 ^ 48) p) s

/-- The load ends: shadow registers, the strap, stage 0x02; the boot ROM runs and enables ALERT_N and PWR_FAIL_N (R43, R587). With the
host boot source it waits for an image (R60). -/
def State.loadEnds (s : State) (reading : Nat) : State :=
  let s1 := s.strapSet (min reading 1023)
  let s2 := ((s1.put R.RST_STAGE_STAGE 2).put R.CARE_STAT_ROM 1).otpShow.macShow
  { s2 with
    rst := { s2.rst with hold := .run, hostBootWait := s2.flag R.RST_STRAP_BOOT_SRC, bootSram := [] }
    pins := { s2.pins with alertEn := true, pwrFailEn := true } }

/-! ### The boot ROM and the firmware (R50, R51, R60, R524, R533) -/

/-- Why an image is not run: 0 when it is, else a code of Table 4.8. -/
def State.imageCheck (s : State) (img : List Byte) : Nat :=
  let o := img.length - sigLen
  if leAt img 0 4 ≠ 0x57464941 then 1
  else if leAt img 4 2 ≠ 1 then 2
  else if leAt img 8 4 ≠ img.length ∨ 8388608 < img.length ∨ img.length < 0x40 + sigLen then 3
  else if leAt img o 1 ≠ 0 then 9
  else
    match s.objectSig img with
    | 0 => if leAt img 0x10 8 < rowValue s.otp.fwRows then 0x0A else 0
    | c => c

/-- What the caretaker shows from flash when it starts: the crack baselines (R380). -/
def State.flashShow (s : State) : State :=
  match s.nv.crack with
  | some (_, bi, bo) => (s.put R.RAIL_CRACK_MEAS_BASE bi 0).put R.RAIL_CRACK_MEAS_BASE bo 1
  | none => s

/-- The caretaker runs an image: the boot ROM has derived the keys and locked the UDS (R530, R540); stage 0x03. DRAM training begins; the saved window is copied (R577); a command found in mailbox 0 after a
SYS is acknowledged INTERRUPTED (R521); RESET is recorded, linked to its cause (Table 21.2, R570). The engine core stays in CORE while a fatal fabric error is
still asserted (R38). -/
def State.fwRun (s : State) (img : List Byte) (slot : Nat) (host : Bool) : State :=
  let d := Config.sha384 (img.take (img.length - sigLen))
  let s1 := ((s.put R.CARE_STAT_ROM 0).put R.CARE_STAT_RUNNING 1).put R.CARE_STAT_FW_VER (leAt img 6 2)
  let s2 := (List.range 12).foldl (fun t i => t.put R.SEC_FW_DIGEST (leAt d (4 * i) 4) i) (s1.put R.SEC_FW_SVN (leAt img 0x10 8))
  let s3 := ((s2.put R.SEC_STAT_FW_SLOT slot).putB R.SEC_STAT_HOST_BOOT host).put R.RST_STAGE_FAIL 0 |>.put R.RST_STAGE_STAGE 3
  let after := s3.rst.afterSys
  let s4 : State := { s3 with
    sec := { s3.sec with baseSvn := leAt img 0x18 8, aliasDebug := s3.flag R.SEC_STAT_DEBUG, udsLocked := true }
    rst := { s3.rst with
      hostBootWait := false
      bootSram := []
      afterSys := false }
    pins := { s3.pins with ppsEn := true } }
  let s5 := (List.range 6).foldl (fun t c => t.put R.MEM_C_STAT_STATE 1 c) s4.hssStart.savedCopy.flashShow
  let s6 := if after && s5.flag R.CARE_MBX_STAT_FULL 0 then s5.mbxDone 0 7 else s5
  s6.offer 24 1 0 1 (s6.word R.RST_CAUSE.base).toNat (s6.word R.RST_STAGE.base).toNat (.link s.rst.cause)

/-- Boot from flash: the slot with the higher security version first, slot 0 of equals; with neither, stage 0x02 fails and the ROM waits for
a host image (R51, Table 2.5). -/
def State.flashBoot (s : State) (slot0 slot1 : List Byte) : State :=
  let one := decide (leAt slot0 0x10 8 < leAt slot1 0x10 8)
  let (a, b) := if one then (slot1, slot0) else (slot0, slot1)
  if s.imageCheck a = 0 then s.fwRun a (Word.ofBool one) false
  else if s.imageCheck b = 0 then s.fwRun b (Word.ofBool (!one)) false
  else
    let s1 := s.stageFail 2
    { s1 with rst := { s1.rst with hostBootWait := true } }

/-- A host boot has failed: the module boots from flash; the fallback is recorded and the host told (R60, Table 18.4). -/
def State.hostFallback (s : State) (slot0 slot1 : List Byte) : State :=
  let s1 : State := { s with rst := { s.rst with hostBootWait := false } }
  ((s1.recOther R.RST_STRAP.base).notice 5 0).flashBoot slot0 slot1

/-- Whether the boot ROM runs: POR, SYS and the load hold the caretaker, CORE does not (R31, R38). -/
def State.inRom (s : State) : Bool := s.flag R.CARE_STAT_ROM && decide (s.rst.hold = .run ∨ s.rst.hold = .core)

/-- FIRMWARE_VERIFY_DONE (R51, R533): the images of the two flash slots, which are outside the model, come as operands. -/
def execFirmwareVerifyDone (slot0 slot1 : List Byte) (s : State) : Out :=
  .next (if s.inRom && !s.rst.hostBootWait then s.flashBoot slot0 slot1 else s)

/-- HOST_BOOT_TIMEOUT (R60): 20 s without a host image, under the host boot source. -/
def execHostBootTimeout (slot0 slot1 : List Byte) (s : State) : Out :=
  .next (if s.inRom && s.rst.hostBootWait && s.flag R.RST_STRAP_BOOT_SRC && !s.flag R.RST_STAGE_FAIL then s.hostFallback slot0 slot1 else s)

/-! ### DRAM (R411, R423, R424, R433) -/

/-- Whether a channel passed: both byte lanes, reads and writes, at least 16/64 UI wide. -/
def chanOk (c : ChanTrain) : Bool := decide (c.widths.length = 4) && c.widths.all (fun w => decide (16 ≤ w))

/-- The result of training on one channel. -/
def State.chanSet (s : State) (l : List ChanTrain) (k : Nat) : State :=
  match l.find? (fun c => c.ch = k) with
  | none => s.put R.MEM_CH_STAT_TRAIN 2 (k / 8) (k % 8)
  | some c =>
    let w (i : Nat) : Nat := min 63 (c.widths.getD i 0)
    let s1 := (((s.put R.MEM_CH_EYE_RD0 (w 0) (k / 8) (k % 8)).put R.MEM_CH_EYE_WR0 (w 1) (k / 8) (k % 8)).put
      R.MEM_CH_EYE_RD1 (w 2) (k / 8) (k % 8)).put R.MEM_CH_EYE_WR1 (w 3) (k / 8) (k % 8)
    let s2 := s1.put R.MEM_CH_STAT_TRAIN (if chanOk c then 1 else 2) (k / 8) (k % 8)
    { s2 with mem := { s2.mem with delays := (k, c.centres) :: s2.mem.delays.filter (fun p => p.1 ≠ k) } }

/-- Training at boot: failing channels are mapped out; fewer than 44 stop stage 0x03. -/
def State.trainBoot (s : State) (l : List ChanTrain) : State :=
  let used := (List.range 48).filter (fun k => l.any (fun c => c.ch = k && chanOk c))
  let s1 := (List.range 48).foldl (fun t k => t.chanSet l k) s
  let s2 := (((s1.put R.MEM_MAP (used.foldl Word.setBit 0)).put R.MEM_SIZE (1792 * used.length)).put R.MEM_HOST 16384)
  let s3 := (List.range 6).foldl (fun t c =>
    t.put R.MEM_C_STAT_CHANNELS ((used.filter (fun k => k / 8 = c)).foldl (fun a k => Word.setBit a (k % 8)) 0) c) s2
  if used.length < 44 then ({ s3 with rst := { s3.rst with dramFail := true } } : State).stageFail 3 else s3

/-- The frozen controllers' failing channels. -/
def State.frozenChans (s : State) : List Nat :=
  ((List.range 6).filter (fun c => s.get R.MEM_C_STAT_STATE c = 5)).map (fun c => 8 * c + s.get R.MEM_C_FRZ_INFO_CHANNEL c)

/-- DRAM_TRAINING_DONE (R423): at boot, all channels at once; while CORE holds with a controller frozen, its failing channel (R433): one that
fails again makes the caretaker request SYS. -/
def execDramTrainingDone (l : List ChanTrain) (s : State) : Out :=
  if s.get R.MEM_C_STAT_STATE 0 = 1 ∧ s.get R.MEM_SIZE = 0 then .next (s.trainBoot l)
  else if s.rst.hold = .core ∧ s.anyFrozen = true then
    let bad := s.frozenChans.filter (fun k => !l.any (fun c => c.ch = k && chanOk c))
    let s1 := (s.frozenChans.filter (fun k => !bad.contains k)).foldl (fun t k => t.chanSet l k) s
    .next (match bad with
      | [] => s1
      | k :: _ => s1.caretakerSys (R.MEM_CH_STAT.off (k / 8) (k % 8)) (k % 2 ^ 16))
  else .next s

/-- The region table as the caretaker writes it at the end of stage 0x03 (R424): from flash, or entry 0 over the whole host area. -/
def State.regionBoot (s : State) : State :=
  let l := if s.nv.regions.isEmpty then [(0, s.get R.MEM_HOST * 256 - 1, 0x3F07)] else s.nv.regions
  (List.range (min 64 l.length)).foldl (fun t i =>
    let e := l.getD i (0, 0, 0)
    ((t.regionPut i 0 (BitVec.ofNat 32 e.1)).regionPut i 1 (BitVec.ofNat 32 e.2.1)).regionPut i 2 (BitVec.ofNat 32 e.2.2)) s

/-- The uniformity maps are copied from flash to DRAM (R341, R342): T_COOL and T_WARM take the temperatures of the cool and the warm map; maps
that do not serve leave the correction off. -/
def State.mapsLoad (s : State) : State :=
  match s.nv.maps with
  | none => s
  | some (a, b) =>
    let cool := min a.temp b.temp
    let warm := max a.temp b.temp
    let s1 := (s.putI R.PSEQ_UNIF_T_COOL cool).putI R.PSEQ_UNIF_T_WARM warm
    let s2 := (s1.putStaged R.PSEQ_UNIF_T_COOL (Word.satS 16 cool)).putStaged R.PSEQ_UNIF_T_WARM (Word.satS 16 warm)
    if s2.mapsBad a b = 0 then
      ({ s2 with pseq := { s2.pseq with maps := some (if b.temp < a.temp then (b, a) else (a, b)) } } : State).unifReport
    else s2.unifReport.raiseRec .pseq 5

/-- DRAM_INIT_DONE (R341, R342, R356, R424): every location holds zeros; the controllers serve; the region table is written; FREE_MIB is the
working pool (R412). The history is set up, and the two map files that flash holds, which come as the operand, are copied; the next subframe
is written in full. -/
def execDramInitDone (maps : Option (List Byte × List Byte)) (s : State) : Out :=
  if s.get R.MEM_C_STAT_STATE 0 ≠ 1 ∨ s.get R.MEM_SIZE = 0 ∨ s.rst.dramFail = true then .next s
  else
    let s1 : State := { s with dram := [], mem := { s.mem with ready := true } }
    let s2 := (List.range 6).foldl (fun t c => t.put R.MEM_C_STAT_STATE (if t.get R.MEM_C_STAT_CHANNELS c = 0 then 0 else 2) c) s1
    let s3 := (s2.put R.MEM_FREE (s2.get R.MEM_SIZE - 35200 - s2.get R.MEM_HOST)).regionBoot
    .next ({ s3 with
      pseq := { s3.pseq with histReady := true, fullDue := true }
      nv := { s3.nv with maps := maps.map (fun p => (unifFile p.1, unifFile p.2)) } } : State).mapsLoad

/-! ### The panel descriptor (R318, R319, R607) -/

/-- Whether bytes [a, a + n) are all 0. -/
def zeroBytes (o : List Byte) (a n : Nat) : Bool := (slice o a n).all (fun b => b = 0)

/-- Whether a list does not decrease. -/
def nonDecreasing : List Nat → Bool
  | a :: b :: l => decide (a ≤ b) && nonDecreasing (b :: l)
  | _ => true

/-- Whether a list of signed values increases. -/
def increasing : List Int → Bool
  | a :: b :: l => decide (a < b) && increasing (b :: l)
  | _ => true

/-- LOW of band `b`. -/
def descLow (o : List Byte) (b : Nat) : Int := leAtI o (0xC0 + 8 * b) 2

/-- Whether a descriptor keeps the layout and the ranges of Table 11.1. -/
def descLayout (o : List Byte) : Bool :=
  let w := leAt o 0x10 2
  let h := leAt o 0x12 2
  decide (o.length = 27772) && decide (leAt o 0 4 = 0x53445041) && decide (leAt o 4 2 = 1) && decide (leAt o 0x1C 4 = 27772) &&
    decide (3840 ≤ w ∧ w ≤ 15360 ∧ w % 1920 = 0) && decide (2160 ≤ h ∧ h ≤ 8640 ∧ h % 16 = 0) &&
    decide (leAt o 0x14 1 < 4) && decide (1 ≤ leAt o 0x15 1 ∧ leAt o 0x15 1 ≤ 3) && decide (1 ≤ leAt o 0x16 1 ∧ leAt o 0x16 1 ≤ 8) &&
    decide (1 ≤ leAt o 0x17 1 ∧ leAt o 0x17 1 ≤ 4) && decide (8 ≤ leAt o 0x1A 2 ∧ leAt o 0x1A 2 ≤ 1024) &&
    zeroBytes o 0x34 12 && zeroBytes o 0x82 62 && zeroBytes o 0x120 224 && zeroBytes o 0x3830 16 &&
    nonDecreasing ((List.range 33).map (fun i => leAt o (0x40 + 2 * i) 2)) &&
    (List.range 8).all (fun b =>
      zeroBytes o (0xC4 + 8 * b) 4 && decide (leAt o (0xC2 + 8 * b) 1 < 2) && decide (1 ≤ leAt o (0xC3 + 8 * b) 1 ∧ leAt o (0xC3 + 8 * b) 1 ≤ 4)) &&
    increasing ((List.range 7).map (fun b => descLow o (b + 1))) &&
    (List.range 16).all (fun r => decide (leAt o (0x100 + 2 * r) 2 < 1024)) &&
    (List.range 6936).all (fun k => decide (leAt o (0x200 + 2 * k) 2 < 4096))

/-- Sets a field in effect and staged. -/
def State.putBoth (s : State) (f : Fld) (v : Nat) (i : Nat) (j : Nat) : State := (s.put f v i j).putStaged f v i j

/-- COMP_PANEL_RANGE reports Lp and Lb of the descriptor. -/
def State.panelRange (s : State) : State :=
  match s.pseq.desc with
  | some d => (s.put R.COMP_PANEL_RANGE_PEAK d.peak).put R.COMP_PANEL_RANGE_BLACK d.black
  | none => s

/-- The tables and registers that a descriptor fills (R318, R360). -/
def State.descLoad (s : State) (o : List Byte) : State :=
  let d : PanelDesc := ⟨leAt o 8 8, leAt o 0x10 2, leAt o 0x12 2, leAt o 0x14 1, leAt o 0x15 1, leAt o 0x16 1, leAt o 0x17 1, leAt o 0x18 2,
    leAt o 0x1A 2, leAt o 0x30 2, leAt o 0x32 2, (List.range 8).map (fun i => leAt o (0x20 + 2 * i) 2),
    (List.range 33).map (fun i => leAt o (0x40 + 2 * i) 2)⟩
  let s1 := ((s.put R.PSEQ_PANEL_SIZE_WIDTH d.width).put R.PSEQ_PANEL_SIZE_HEIGHT d.height).put R.PSEQ_VTIME2_VACT (d.height / 2)
  let s2 := ((s1.put R.PSEQ_PANEL_CAP_LENS_CAP d.lensCap).put R.PSEQ_PANEL_CAP_MAX_GEN d.maxGen).put R.PSEQ_PANEL_CAP_SENSORS d.sensors
  let s3 := ((s2.put R.PSEQ_PANEL_CAP_SETTLE d.settle).put R.PSEQ_PANEL_CAP_LINE_MIN d.lineMin).put R.PSEQ_PANEL_SERIAL d.serial
  let s4 := (List.range 8).foldl (fun t b =>
    ((t.put R.PSEQ_BAND_LOW (leAt o (0xC0 + 8 * b) 2) b).put R.PSEQ_BAND_STEER_OK (leAt o (0xC2 + 8 * b) 1) b).put R.PSEQ_BAND_WAVE
      (leAt o (0xC3 + 8 * b) 1) b) s3
  let s5 := (List.range 16).foldl (fun t r => t.put R.PSEQ_VCOM_CODE (leAt o (0x100 + 2 * r) 2) r) s4
  let s6 := (List.range 24).foldl (fun t k => (List.range 289).foldl (fun u n =>
    u.putBoth R.PSEQ_OD (leAt o (0x200 + 2 * (289 * k + n)) 2) k n) t) s5
  let s7 := (List.range 128).foldl (fun t k => (List.range 32).foldl (fun u i =>
    (u.putBoth R.PSEQ_LENSWAVE_X (leAt o (0x3840 + 64 * k + 2 * i) 1) k i).putBoth R.PSEQ_LENSWAVE_Y
      (leAt o (0x3840 + 64 * k + 2 * i + 1) 1) k i) t) s6
  let s8 : State := { s7 with
    pseq := { s7.pseq with desc := some d }
    sec := { s7.sec with descDigest := Config.sha384 (o.take 0x5840) }
    rst := { s7.rst with panelRetry := false } }
  let s9 := s8.panelRange
  if invertible d.primaries then s9 else s9.recOther R.PSEQ_PANEL_SIZE.base

/-- PANEL_DESCRIPTOR_VERIFIED (R318, R586, Table 2.5): the bytes read, or none when no panel answers, and the panel port that each return
channel reports. A failure leaves the rails off and waits for the retry timer. -/
def execPanelDescriptorVerified (bytes : Option (List Byte)) (ports : List Nat) (s : State) : Out :=
  if s.flag R.CARE_STAT_RUNNING = false ∨ s.pseq.desc.isSome = true ∨ s.rst.panelRetry = true then .next s
  else
    let good := match bytes with
      | none => false
      | some o => descLayout o && decide (s.objectSig o = 0) && ports.all (fun p => p = ports.getD 0 0)
    if good then .next (s.descLoad (bytes.getD [])).boot
    else
      let s1 := s.stageFail 4
      .next { s1 with rst := { s1.rst with panelRetry := true } }

/-- PANEL_RETRY_TIMER: the panel may be read again. -/
def execPanelRetryTimer (s : State) : Out := .next { s with rst := { s.rst with panelRetry := false } }

/-! ### Stage 0x08 (R128, R129, R167) -/

/-- The known-answer test of every tile at boot; those that fail are retired (R167). -/
def State.katBoot (s : State) (failed : List Nat) : State :=
  (List.range 400).foldl (fun t n =>
    let bad := failed.contains n
    let t1 := ((t.put R.FAB_TILE_KAT_DONE 1 n).putB R.FAB_TILE_KAT_PASS (!bad) n).bump R.FAB_TILE_KAT_COUNT n
    if bad then t1.retire n else t1) s

/-- The baseline personality goes into slot 0 and is checked like any file; verified, its activation is requested. -/
def State.baseLoad (s : State) (file : List Byte) : State :=
  let n := file.length
  let s1 := if 67108864 < n then s.slotReject 0 0x03 0
    else
      let t := s.writeBytes (s.slotArea 0) file
      match t.checkFile (t.slotArea 0) n with
      | some (code, off) => t.slotReject 0 code off
      | none => t.slotVerify 0 n
  let s2 := s1.raise .pers 0
  if s2.slotState 0 = 2 then s2.actRequest 0 none none
  else if s2.get R.RST_STAGE_STAGE = 7 then s2.stageFail 8 else s2

/-- BASELINE_LOAD (R128, R129): the baseline file of the running firmware, which the model does not unpack, and the tiles that fail their
known-answer test come as operands; a file without the properties of R606 is not that file. Only with no personality active, none pending of
slot 0 and with DRAM ready; a boot that stopped at stage 0x08 does not try again. -/
def execBaselineLoad (file : List Byte) (failed : List Nat) (s : State) : Out :=
  let st := s.get R.RST_STAGE_STAGE
  if s.mem.ready = false ∨ st < 7 ∨ s.flag R.PERS_STATE_ACTIVE_VALID = true ∨ s.pendNames 0 = true ∨ s.pers.loading.isSome = true ∨
      (st = 7 ∧ s.flag R.RST_STAGE_FAIL = true) ∨ s.rst.hold ≠ .run ∨ isBaseline (fun off n => leAt file off n) s.sec.baseSvn = false then
    .next s
  else
    let s1 := if st = 7 then s.katBoot failed else s
    .next (s1.baseLoad file)

/-! ### The stand-alone input (R54, R201, R499) -/

/-- ETH_BRINGUP (R54): the mode cage 0 trained in (0 one port, 1 and 2 four), or none; the ports whose links came up; the lease. Port 0 joined
to the default groups makes the Ethernet input ready. -/
def execEthBringup (mode : Option Nat) (links : List Nat) (lease : Option Nat) (s : State) : Out :=
  if s.flag R.CARE_STAT_RUNNING = false then .next s
  else
    match mode with
    | none =>
      .next (if s.flag R.RST_STRAP_INPUT = false then ({ s with rst := { s.rst with inputFail := true } } : State).inputJudge else s)
    | some m =>
      if 3 ≤ m then .next s
      else
        let s1 := s.putBoth R.ETH_CAGE_CTRL m 0 0
        let s2 := (links.filter (fun p => decide (p < 4))).foldl (fun t p => t.ethUp p) s1
        let s3 : State := match lease with | some a => s2.setIp 0 (some a) true | none => s2
        .next (if !s3.flag R.RST_STRAP_INPUT && s3.flag R.ETH_PORT_STAT_LINK 0 then
          ({ s3 with rst := { s3.rst with inputReady := true, inputFail := false } } : State).boot
        else s3)

/-- DHCP_TIMEOUT (R54, R499): a link-local address, whose choice is RFC 3927's and comes as an operand. -/
def execDhcpTimeout (addr : Nat) (s : State) : Out :=
  .next (if s.flag R.ETH_PORT_STAT_LINK 0 && decide (s.ipv4 0 = 0) then s.setIp 0 (some (0xA9FE0000 + addr % 2 ^ 16)) false else s)

end Sys2Proof.Machine
end

