-- ==== Sys2Proof/Machine/Care.lean ====
section
/-!
DEFINITION. The caretaker's commands (spec/18, R520 to R524, Table 18.3). Each meaning is the caretaker, or the boot ROM, turning to the
command word that stands in mailbox 0.
-/

namespace Sys2Proof.Machine

open Sys2Proof

/-- The argument pair `i`, `i + 1` of the running command as an address. -/
def State.argAddr (s : State) (i : Nat) : Nat := s.care.args.getD i 0 + 2 ^ 32 * s.care.args.getD (i + 1) 0

/-- Argument `i` of the running command. -/
def State.argAt (s : State) (i : Nat) : Nat := s.care.args.getD i 0

/-- The caretaker begins the command in mailbox 0: its word and its arguments are taken (R520). -/
def State.commandTake (s : State) : State :=
  { s with care := { s.care with
      running := some (s.get R.CARE_MBX_DATA 0)
      args := (List.range 8).map (fun i => s.get R.CARE_ARG i) } }

/-- Whether mailbox 0 holds a command with operation `op`, and none runs. -/
def State.commandIs (s : State) (op : Nat) : Bool :=
  s.flag R.CARE_MBX_STAT_FULL 0 && s.care.running.isNone && decide (s.get R.CARE_MBX_DATA 0 % 256 = op)

/-- What every command but BOOT does first (R520, R524): the boot ROM answers NOT_READY while it waits for a host image; one that needs the
engine core or DRAM waits through CORE; one that needs DRAM is NOT_READY before stage 0x08. `act` takes PARAM. -/
def State.command (s : State) (op : Nat) (core dram : Bool) (act : State → Nat → State) : State :=
  if s.commandIs op = false then s
  else if s.inRom then (if s.rst.hostBootWait then s.commandTake.cmdEnd 5 [] else s)
  else if s.flag R.CARE_STAT_RUNNING = false ∨ ((core || dram) = true ∧ s.rst.hold = .core) then s
  else if dram = true ∧ s.get R.RST_STAGE_STAGE < 8 then s.commandTake.cmdEnd 5 []
  else act s.commandTake (s.get R.CARE_MBX_DATA 0 / 65536)

/-- CMD_PERS_LOAD (R110, R112, R520): it ends with the load. -/
def execCmdPersLoad (s : State) : Out :=
  .next (s.command 1 false true (fun t p =>
    let a := t.argAddr 0
    let n := t.argAt 2
    if 8 ≤ p then t.cmdEnd 3 []
    else if t.careRegion false a n = false then t.cmdEnd 0x117 [t.get R.PERS_SLOT_STAT p]
    else
      let t1 := (t.put R.PERS_SLOT_SRC a p).put R.PERS_SLOT_LEN n p
      match t1.slotCheck p 1 with
      | 0 => t1.slotLoad p
      | c =>
        let t2 := t1.slotRefuse p c
        t2.cmdEnd (0x100 + c) [t2.get R.PERS_SLOT_STAT p]))

/-- CMD_PERS_ACTIVATE (R116, R117, R520): it ends when the activation applies or is refused; WHEN 2 cancels and WHEN 3 does nothing, and both
end at once, as does a request for the ACTIVE slot. -/
def execCmdPersActivate (s : State) : Out :=
  .next (s.command 2 true true (fun t p =>
    let w := t.argAt 0
    if 8 ≤ p ∨ 4 ≤ w then t.cmdEnd 3 []
    else if t.isMirror then (t.mirrorDrop R.PERS_ACT.base 2 (p + 16 * w)).cmdEnd 4 [t.get R.PERS_LAST]
    else if w = 2 then
      let t1 := (t.actDropped).setPend none
      let t2 := if t1.isActive then t1.sendPair (.strobe 32 false t1.sf [] true) else t1
      t2.cmdEnd 0 [t2.get R.PERS_LAST]
    else if w = 3 ∨ t.slotState p = 6 ∨ t.pers.reload = some p then t.cmdEnd 0 [t.get R.PERS_LAST]
    else t.actBy .caretaker (p + 16 * w) p (if w = 1 then some (t.extend (t.argAt 1)) else none)))

/-- CMD_HEALTH. -/
def execCmdHealth (s : State) : Out :=
  .next (s.command 3 false false (fun t p =>
    if p ≠ 0 then t.cmdEnd 3 []
    else t.cmdEnd 0 [t.healthBar, t.get R.FAB_STAT, t.get R.PERS_STATE, t.get R.PAIR_STAT, t.trainedChannels]))

/-- CMD_KEY_LOAD (R544, R545). -/
def execCmdKeyLoad (s : State) : Out :=
  .next (s.command 4 false true (fun t p =>
    let a := t.argAddr 0
    let n := t.argAt 2
    if 64 ≤ p then t.cmdEnd 3 []
    else if t.careRegion false a n = false then t.cmdEnd 0x117 [t.get R.INTK_KEY_STAT p]
    else
      let (t1, c) := t.keyLoad p (t.readBytes a n)
      t1.cmdEnd c [t1.get R.INTK_KEY_STAT p]))

/-- CMD_ATTEST (R541, R542). -/
def execCmdAttest (s : State) : Out :=
  .next (s.command 5 false true (fun t p =>
    if p ≠ 0 then t.cmdEnd 3 []
    else
      let (t1, c, n) := t.attest (t.argAddr 0) (t.argAddr 2) (t.argAt 4)
      t1.cmdEnd c [n]))

/-- CMD_CALIBRATE (R565): it ends when the runs named have ended. -/
def execCmdCalibrate (s : State) : Out :=
  .next (s.command 6 true false (fun t p =>
    if 16 ≤ p then t.cmdEnd 3 []
    else if p = 0 then t.cmdEnd 0 [0]
    else ({ t with thm := { t.thm with calCmd := p } } : State).calRequest p))

/-- A section of an export: SEQ of its first entry and its count. -/
def sectionHead (l : List TEntry) : List Byte := Word.toLe 4 ((l.head?.map (·.seq)).getD 0) ++ Word.toLe 4 l.length

/-- The snapshot of an export (R579): header, ring, partner ring, saved window. The spec gives the header's fields and no places: MAGIC,
FMT_MAJOR and SERIAL stand as in Table 21.6, the rest follows in order (log entry 26). -/
def State.exportBytes (s : State) : List Byte :=
  let ring := s.teph.ring.map (·.entry)
  padTo 64 ([0x41, 0x54, 0x45, 0x58] ++ Word.toLe 2 1 ++ Word.toLe 2 0 ++ Word.toLe 8 s.serial ++ Word.toLe 8 s.now ++ sectionHead ring ++
    sectionHead s.teph.partner ++ sectionHead s.teph.saved) ++ (ring ++ s.teph.partner ++ s.teph.saved).flatMap TEntry.bytes

/-- CMD_TEPHRA_EXPORT (R579): gzip at level 6. A power-fail warning governs: nothing is written or acknowledged while its save is due. -/
def execCmdTephraExport (s : State) : Out :=
  .next (s.command 7 true true (fun t p =>
    let a := t.argAddr 0
    if p ≠ 0 ∨ t.argAt 2 < 557183 then t.cmdEnd 3 []
    else if t.teph.saveDue = some 1 then s
    else
      let o := compressAll 2 6 15 t.exportBytes
      if t.careRegion true a o.length = false then t.cmdEnd 0x117 [0]
      else ((t.writeBytes a o).innerJob ⟨5, 0, 2, t.exportBytes.length, o.length, 0, 0⟩).cmdEnd 0 [o.length]))

/-- CMD_ROLE (R458): it ends when the drive has been given up, or at once when the handover is refused or the module does not hold it. -/
def execCmdRole (s : State) : Out :=
  .next (s.command 8 false false (fun t p =>
    if p ≠ 1 then t.cmdEnd 3 []
    else if t.isActive = false then t.cmdEnd 4 [t.get R.PAIR_STAT]
    else
      let (t1, ok) := t.handOver .handover none
      if ok then t1 else t1.cmdEnd 4 [t1.get R.PAIR_STAT]))

/-- CMD_KEY_ENROLL (R535). -/
def execCmdKeyEnroll (s : State) : Out :=
  .next (s.command 9 false true (fun t p =>
    let a := t.argAddr 0
    let n := t.argAt 2
    if 4 ≤ p then t.cmdEnd 3 []
    else if t.careRegion false a n = false then t.cmdEnd 0x117 []
    else
      let (t1, c) := t.enroll p (t.readBytes a n)
      t1.cmdEnd c []))

/-- CMD_DEBUG_CHALLENGE (R546). -/
def execCmdDebugChallenge (s : State) : Out :=
  .next (s.command 0xA false true (fun t p =>
    if p ≠ 0 then t.cmdEnd 3 []
    else
      let (t1, c, n) := t.challengeIssue (t.argAddr 0) (t.argAt 2)
      t1.cmdEnd c [n]))

/-- CMD_RESTART (R560): only while the module waits for it. -/
def execCmdRestart (s : State) : Out :=
  .next (s.command 0xB false false (fun t p =>
    if p ≠ 0 then t.cmdEnd 3 []
    else if t.flag R.THM_STAT_WAITING then (t.cmdEnd 0 []).thermalRestart
    else t.cmdEnd 4 []))

/-- CMD_BOOT (R524, R60): the boot ROM verifies the image in the boot SRAM and runs it; under the host boot source a failure boots from flash,
whose slots come as operands. The firmware does not know the operation. -/
def execCmdBoot (slot0 slot1 : List Byte) (s : State) : Out :=
  if s.commandIs 0x10 = false then .next s
  else if s.inRom then
    if s.rst.hostBootWait = false then .next s
    else
      let n := s.get R.CARE_ARG 0
      let t := s.commandTake
      if n = 0 ∨ 8388608 < n then .next (t.cmdEnd 3 [])
      else
        let img := (List.range n).map (fun i => Sparse.get dramDefault s.rst.bootSram i)
        match t.imageCheck img with
        | 0 => .next ((t.cmdEnd 0 []).fwRun img 0 true)
        | c =>
          let u := t.cmdEnd (0x100 + c) []
          .next (if u.flag R.RST_STRAP_BOOT_SRC && !u.flag R.RST_STAGE_FAIL then u.hostFallback slot0 slot1 else u)
  else .next (s.command 0x10 false false (fun t _ => t.cmdEnd 2 []))

/-- The operations of Table 18.3. -/
def knownOps : List Nat := [1, 2, 3, 4, 5, 6, 7, 8, 9, 0xA, 0xB, 0x10]

/-- CMD_UNKNOWN (R522, Table 18.1): an undefined OP in mailbox 0, or a post in mailbox `m` of 1 to 7. -/
def execCmdUnknown (m : Nat) (s : State) : Out :=
  if m = 0 then
    let op := s.get R.CARE_MBX_DATA 0 % 256
    .next (if knownOps.contains op then s else s.command op false false (fun t _ => t.cmdEnd 2 []))
  else if m < 8 ∧ s.flag R.CARE_STAT_RUNNING = true ∧ s.flag R.CARE_MBX_STAT_FULL m = true then .next (s.mbxDone m 2)
  else .next s

end Sys2Proof.Machine
end

