-- ==== Sys2Proof/Machine/Flags.lean ====
section
/-!
DEFINITION. What a software write does to each field type of a register (Table 0.3, R10, R68, R79, R80), and the interrupt messages a
write gives (R90).
-/

namespace Sys2Proof.Machine

open Sys2Proof

/-- The bits a write sets to what it carries: RW, RWH and CNT (Table 0.3, R80). -/
def RegInfo.plainMask (i : RegInfo) : Word := BitVec.ofNat 32 (i.rw ||| i.rwh ||| i.cnt)

/-- The word in effect after a write: W1C flags written 1 clear, RO, WO, staged and reserved bits stay (R68). -/
def RegInfo.afterWrite (i : RegInfo) (old data : Word) : Word :=
  mergeBits i.plainMask old data &&& ~~~(BitVec.ofNat 32 i.w1c &&& data)

/-- What a read shows of a register: staged values of RWS fields, 0 for WO fields (R10, R68). -/
def RegInfo.shown (i : RegInfo) (effect staged : Word) : Word :=
  mergeBits (BitVec.ofNat 32 i.rws) effect staged &&& ~~~(BitVec.ofNat 32 i.wo)

/-- The messages after a write at an offset: a write of IRQ_STATUS sends one if the line is still 1; a write of IRQ_MASK when the line
rises (R90). `before`: the state before the write. -/
def State.irqAfterWrite (s : State) (before : State) (off : Nat) : State :=
  match blkAt off with
  | some b =>
    if off = b.status then (if s.irqLine b then s.msixSend (s.get R.CTL_IRQ_ROUTE b.num) else s)
    else s.irqEdge b (before.irqLine b)
  | none => s

/-- A write to a register without behaviour of its own: fields by their type, staged values staged, then the messages. -/
def State.plainWrite (s : State) (i : RegInfo) (off : Nat) (data : Word) : State :=
  let s1 := s.setWord off (i.afterWrite (s.word off) data)
  let s2 := if i.rws = 0 then s1 else s1.setStagedWord off (mergeBits (BitVec.ofNat 32 i.rws) (s1.stagedWord off) data)
  s2.irqAfterWrite s off

end Sys2Proof.Machine
end

