-- ==== Sys2Proof/Machine/Access.lean ====
section
/-!
DEFINITION. Accesses to BAR0 (spec/03): what a read shows, what a write does (every register with behaviour of its own is handed to the
meaning of its command), 64-bit pairs, bus errors, mirrored registers, host writes held behind a guarded one.
-/

namespace Sys2Proof.Machine

open Sys2Proof

/-! ### What a read shows -/

/-- Power domain `d` on (R564, Table 20.3). -/
def State.domainOn (s : State) (d : Nat) : Bool :=
  let cut := s.flag R.THM_STAT_CUT
  let down := cut || decide (s.thm.step = 4)
  if d = 0 then true
  else if d = 1 then !cut
  else if d = 2 then !down && !(decide (s.get R.ETH_CAGE_CTRL 0 = 3) && decide (s.get R.ETH_CAGE_CTRL 1 = 3))
  else if d = 3 then !down && (s.flag R.DPRX_CTRL_EN || s.flag R.DPTX_CTRL_EN)
  else if d = 4 then !down && decide (s.get R.RST_STRAP_ROLE ≠ 0)
  else if d = 8 then !down && decide (s.get R.PSEQ_PANEL_CAP_LENS_CAP ≠ 0)
  else if d = 10 then !(cut && (s.get R.RAIL_STAT_STATE = 0 || s.get R.RAIL_STAT_STATE = 5))
  else if 11 ≤ d ∧ d ≤ 16 then !cut
  else if 17 ≤ d ∧ d ≤ 20 then !down && (s.flag R.TDEC_CTRL (d - 17) || decide (s.get R.TDEC_STAT_TRACKS (d - 17) ≠ 0))
  else !down

/-- The number whose bit `k` of `n` is `f k`. -/
def bitsOf (n : Nat) (f : Nat → Bool) : Nat := (List.range n).foldl (fun a k => if f k then a + 2 ^ k else a) 0

/-- Word `k` of a list of bytes. -/
def wordAt (l : List Byte) (k : Nat) : Nat := leAt l (4 * k) 4

/-- Word `j` of slot `i` of the record windows (R571, R577, R578); 0 where no entry lies. -/
def State.recordWord (s : State) (base i j : Nat) : Nat :=
  if base = R.TEPH_RING.base then
    (match s.teph.ring.find? (fun x => x.entry.seq % 8192 = i) with | some x => wordAt (TEntry.bytes x.entry) j | none => 0)
  else if base = R.TEPH_PARTNER.base then
    (match s.teph.partner.find? (fun e => e.seq % 8192 = i) with | some e => wordAt (TEntry.bytes e) j | none => 0)
  else if base = R.TEPH_SAVED.base then (match s.teph.saved[i]? with | some e => wordAt (TEntry.bytes e) j | none => 0)
  else (match s.teph.savedHdr with | some a => wordAt a.header i | none => 0)

/-- What a read of CARE_LOCK[k] returns (R525): 0 to the owner, the owner's number to others, 7 while free. -/
def State.lockShown (s : State) (r : Req) (k : Nat) : Nat :=
  let o := s.get R.CARE_LOCK k
  if o = 0 then 7 else if o = r.code then 0 else o

/-- Registers that report something this model holds elsewhere, by offset: time, mailboxes, throttling, domains, event maps, the record. -/
def State.computed (s : State) (r : Req) (base off i j : Nat) : Option Nat :=
  if base = R.CARE_MBX_FULL.base then some (bitsOf 32 (fun m => s.flag R.CARE_MBX_STAT_FULL m))
  else if base = R.CARE_LOCK.base then some (s.lockShown r i)
  else if base = R.THM_THROTTLE.base then some (s.baseBudget + 2 ^ 8 * s.clockTarget + 2 ^ 20 * s.voltCap)
  else if base = R.THM_PWR_STAT.base then some (bitsOf 28 s.domainOn)
  else if base = R.CAL_SUBJ_LAST.base then
    let m := match (s.calRun i).lastAt with | some t => min 65535 ((s.time.raw - t) / 60000000000) | none => 0
    some (s.get R.CAL_SUBJ_LAST_REF i + 65536 * m)
  else if base = R.TIME_NOW.base then some (s.now % 2 ^ 32)
  else if base = R.TIME_NOW.base + 4 then some (s.now / 2 ^ 32)
  else if base = R.TIME_SHORT.base then some (s.now % 2 ^ 32)
  else if base = R.TIME_RAW.base then some (s.time.raw % 2 ^ 32)
  else if base = R.TIME_RAW.base + 4 then some (s.time.raw / 2 ^ 32)
  else if base = R.TIME_RATE.base then some (Word.wrap 64 (s.time.rate + s.time.slew) % 2 ^ 32)
  else if base = R.TIME_RATE.base + 4 then some (Word.wrap 64 (s.time.rate + s.time.slew) / 2 ^ 32)
  else if base = R.FAB_EVENT_MAP.base then some (bitsOf 32 (fun b => decide (32 * i + b < 400) && decide (s.get R.FAB_TILE_EVENT (32 * i + b) ≠ 0)))
  else if base = R.LANE_GRP_MAP.base then some (bitsOf 27 (fun k => decide (s.get R.LANE_GRP_EVENT (leadLane k) ≠ 0)))
  else if base = R.DPRX_STAT.base then some ((s.word off).toNat / 2 * 2 + Word.ofBool s.dpHpd)
  else if base = R.PREV_LINE.base then some (s.prevLine % 65536)
  else if base = R.TEPH_STAT.base then some ((s.word off).toNat - 8 * s.get R.TEPH_STAT_MIRRORING + 8 * Word.ofBool s.pairUp)
  else if base = R.TEPH_RING.base ∨ base = R.TEPH_PARTNER.base ∨ base = R.TEPH_SAVED.base ∨ base = R.TEPH_SAVED_HDR.base then
    some (s.recordWord base i j)
  else none

/-- The depth source in effect is the stream (R197). -/
def State.depthFromStream (s : State) : Bool := s.view.ctrl.testBit 1

/-- The 32-bit word a read of an implemented offset returns to a requester, whatever its shadow holds. -/
def State.shownAt (s : State) (r : Req) (off : Nat) : Word :=
  match regAt off with
  | none => 0
  | some (info, i, j) =>
    match s.computed r info.base off i j with
    | some v => BitVec.ofNat 32 v
    | none => if info.mir = .hostDepth && s.depthFromStream then s.word off else info.shown (s.word off) (s.stagedWord off)

/-! ### Shadows and holding registers (R72) -/

/-- A requester's read shadow. -/
def BusState.shadow (b : BusState) : Req → Option Shadow
  | .host => b.shadowHost
  | .caretaker => b.shadowCare
  | .partner => b.shadowPartner

/-- Sets a requester's read shadow. -/
def State.setShadow (s : State) (r : Req) (x : Option Shadow) : State :=
  match r with
  | .host => { s with bus := { s.bus with shadowHost := x } }
  | .caretaker => { s with bus := { s.bus with shadowCare := x } }
  | .partner => { s with bus := { s.bus with shadowPartner := x } }

/-- A requester's write holding register. -/
def BusState.hold (b : BusState) : Req → Option Shadow
  | .host => b.holdHost
  | .caretaker => b.holdCare
  | .partner => b.holdPartner

/-- Sets a requester's holding register. -/
def State.setHold (s : State) (r : Req) (x : Option Shadow) : State :=
  match r with
  | .host => { s with bus := { s.bus with holdHost := x } }
  | .caretaker => { s with bus := { s.bus with holdCare := x } }
  | .partner => { s with bus := { s.bus with holdPartner := x } }

/-- What the requester of an access sees. -/
def State.respond (s : State) (x : BusResp) : State := { s with bus := { s.bus with resp := x } }

/-! ### Bus errors (R64 to R67) -/

/-- The KIND of the bus error an access of `width` bytes raises, by the precedence of R66; none for a valid access. -/
def busKind (off width : Nat) : Option Nat :=
  if 8 < width then some 4
  else if width ≠ 4 ∧ width ≠ 8 then some 1
  else if off % width ≠ 0 then some 2
  else
    match regAt off with
    | some (info, _, _) => if width = 8 ∧ info.half ≠ .lo then some 3 else none
    | none => if width = 8 then some 3 else some 0

/-- A bus error (R65, R66): counted, flagged, captured when no capture is held, and answered as the requester's path does. -/
def State.busError (s : State) (r : Req) (write : Bool) (off kind : Nat) : State :=
  let s1 := (s.bump R.CTL_BUSERR_COUNT).raise .ctl 0
  let s2 :=
    if s1.flag R.CTL_BUSERR_INFO_VALID then s1.put R.CTL_BUSERR_INFO_OVERFLOW 1
    else
      let t := ((((s1.put R.CTL_BUSERR_ADDR off).put R.CTL_BUSERR_INFO_REQ r.code).putB R.CTL_BUSERR_INFO_WRITE write).put
        R.CTL_BUSERR_INFO_KIND kind).put R.CTL_BUSERR_INFO_VALID 1
      t.offer 0 1 0 0x11 (t.word R.CTL_BUSERR_ADDR.base).toNat (t.word R.CTL_BUSERR_INFO.base).toNat (.val 0)
  s2.respond (match r with
    | .host => if write then .dropped else .completerAbort
    | .caretaker => .busFault
    | .partner => .partnerError)

/-- Whether register accesses of a requester arrive: not while POR, the load or SYS holds the module, nor from the host once a thermal cut
has switched its port off (R559, Table 20.3). -/
def State.reaches (s : State) (r : Req) : Bool :=
  (match s.rst.hold with | .core | .run => true | _ => false) && !(decide (r = .host) && s.flag R.THM_STAT_CUT)

/-! ### Reads (R69, R73, R74, R77) -/

/-- One 32-bit read: LO latches the shadow, HI takes it. -/
def State.readWord (s : State) (r : Req) (off : Nat) : State × Word :=
  match regAt off with
  | none => (s, 0)
  | some (info, _, _) =>
    match info.half with
    | .one => (s, s.shownAt r off)
    | .lo => (s.setShadow r (some ⟨off, s.shownAt r (off + 4)⟩), s.shownAt r off)
    | .hi =>
      match s.bus.shadow r with
      | some x => if x.pair + 4 = off then (s.setShadow r none, x.data) else (s, s.shownAt r off)
      | none => (s, s.shownAt r off)

/-- A read of `width` bytes as the bus performs it. -/
def State.readNow (s : State) (r : Req) (off width : Nat) : State :=
  match busKind off width with
  | some k => s.busError r false off k
  | none =>
    let (s1, lo) := s.readWord r off
    if width = 4 then s1.respond (.data lo)
    else
      let (s2, hi) := s1.readWord r (off + 4)
      s2.respond (.data64 lo hi)

/-- A read of `width` bytes: a host read waits behind the writes that are held (R70, R282). -/
def State.busRead (s : State) (r : Req) (off width : Nat) : State :=
  if s.reaches r = false then s.respond .none
  else if r = .host ∧ s.comp.heldHost.isEmpty = false then s.hostWaits (.reg off width none)
  else s.readNow r off width

/-! ### Writes with behaviour of their own -/

/-- The state a meaning leads to. -/
def after (o : Out) (s : State) : State :=
  match o with
  | .next t => t
  | _ => s

/-- `f` applied when bit `k` of the data is set. -/
def onBit (data k : Nat) (f : State → State) (s : State) : State := if data.testBit k then f s else s

/-- The party a requester is (R512). -/
def reqParty : Req → Party
  | .host => .host
  | .caretaker => .caretaker
  | .partner => .partner

/-- CTL and RST: CTL_UPDATE (R83), RST_REQ (R39). -/
def State.writeCtl (s : State) (r : Req) (base data : Nat) : Option State :=
  if base = R.CTL_UPDATE.base then
    let w : When := if data / 65536 % 4 = 0 then .immediate else if data / 65536 % 4 = 1 then .nextSubframe else if data / 65536 % 4 = 2 then .nextFrame else .atTime
    some (s.updateBy r (data % 65536) w)
  else if base = R.RST_REQ.base then
    some (s.keyed base r (data / 65536) 0xC0DE data (fun t =>
      if data % 4 = 1 then t.coreSource R.RST_CAUSE_SW_CORE .coreEntry none
      else if data % 4 = 2 then t.sysSource R.RST_CAUSE_SW_SYS .sysEntry none
      else t))
  else none

/-- CARE: mailboxes, arguments, locks (R512 to R526). -/
def State.writeCare (s : State) (r : Req) (info : RegInfo) (off i data : Nat) : Option State :=
  if info.base = R.CARE_MBX_DATA.base then some (after (execMbxPost (reqParty r) i (BitVec.ofNat 32 data) s) s)
  else if info.base = R.CARE_MBX_ACK.base then some (after (execMbxAck (reqParty r) i (data % 65536) s) s)
  else if info.base = R.CARE_MBX_CTRL.base then 
    some (if data.testBit 0 then after (execMbxWithdraw (reqParty r) i s) s
      else if reqParty r ≠ mbxSender i then s.stray.ignoredBy off data (reqParty r)
      else s)
  else if info.base = R.CARE_ARG.base then
    some (if r ≠ .host then s
      else if s.flag R.CARE_MBX_STAT_FULL 0 then (s.bump R.CARE_MBX_COUNT_REJECTED).raise .care 3
      else s.plainWrite info off (BitVec.ofNat 32 data))
  else if info.base = R.CARE_LOCK.base then
    some (if data.testBit 0 then after (execLockClaim (reqParty r) i s) s else after (execLockRelease (reqParty r) i s) s)
  else none

/-- SEC, THM, CAL, TIME: keyed commands and the launch queue. -/
def State.writeSys (s : State) (r : Req) (base data : Nat) : Option State :=
  if base = R.SEC_SVN_COMMIT.base then some (s.svnCommit r data)
  else if base = R.SEC_DBG_CMD.base then some (s.dbgCmd r data)
  else if base = R.THM_SENS_REARM.base then some (after (execSensRearm r (data / 65536) (data % 128) s) s)
  else if base = R.CAL_REQ.base then some (after (execCalReq r (data / 65536) (data % 16) s) s)
  else if base = R.TIME_CMD.base then
    some (s.keyed base r (data / 65536) 0x71AE data (fun t =>
      if data % 8 = 1 then after (execTimeCmdAccept r 0x71AE t) t
      else if data % 8 = 2 then after (execTimeCmdSlew r 0x71AE t) t
      else if data % 8 = 4 then after (execTimeCmdDiscard r 0x71AE t) t
      else if data % 8 = 0 then t
      else t.ignored base data r))
  else if base = R.TIME_LAUNCH.base then some (after (execTimeLaunchWrite r data s) s)
  else if base = R.TIME_LAUNCH_CTRL.base then some (after (execTimeLaunchFlush r data s) s)
  else none

/-- PERS: the activation request and the slot commands. -/
def State.writePers (s : State) (r : Req) (base i data : Nat) : Option State :=
  if base = R.PERS_ACT.base then
    some (match data / 16 % 4 with
      | 0 => s.actBy r (data % 8) (data % 8) none
      | 1 => s.actBy r (data % 8 + 16) (data % 8) (some (s.extend (s.get R.PERS_ACT_TIME)))
      | 2 => after (execPersActCancel r s) s
      | _ => s)
  else if base = R.PERS_SLOT_CMD.base then
    some (match data % 16 with
      | 1 => after (execPersSlotLoad i s) s
      | 2 => after (execPersSlotPreload i s) s
      | 3 => after (execPersSlotEvict i s) s
      | _ => s)
  else none

/-- FAB: tile commands and error injection. -/
def State.writeFab (s : State) (r : Req) (base i data : Nat) : Option State :=
  if base = R.FAB_TILE_CTRL.base then
    some (if data / 65536 ≠ 0x0FAB then s.ignored (R.FAB_TILE_CTRL.off i 0) data r
      else onBit data 1 (fun t => after (execTileCtrlKat r 0x0FAB i t) t) (onBit data 0 (fun t => after (execTileCtrlMigrate r 0x0FAB i t) t) s))
  else if base = R.FAB_TILE_INJECT.base then some (after (execTileInject i (data % 8) s) s)
  else none

/-- VIEW: modes, depth table and control as R196, R197 and R200 give them. -/
def State.writeView (s : State) (r : Req) (info : RegInfo) (off data : Nat) : Option State :=
  if info.base = R.VIEW_CTRL.base then some (after (execViewCtrlWrite r data s) s)
  else if info.base = R.VIEW_MODE.base then
    some (s.mirrored off r data (fun t =>
      if t.view.ctrl.testBit 0 then
        let t1 := t.putStaged R.VIEW_MODE_PROFILE (data / 256)
        if data % 256 ≠ (t.view.supplied.getD t.view.want) % 256 then t1.bump R.VIEW_IGNORED_MODE else t1
      else t.plainWrite info off (BitVec.ofNat 32 data)))
  else if info.mir = .hostDepth then
    some (if s.depthFromStream then s.bump R.VIEW_IGNORED_DEPTH
      else s.mirrored off r data (fun t => t.plainWrite info off (BitVec.ofNat 32 data)))
  else none

/-- INTK, LZC, BLT: rings and engine commands. -/
def State.writeRing (s : State) (r : Req) (base i data : Nat) : Option State :=
  if base = R.INTK_DMA_HEAD.base then some (s.dmaHead data)
  else if base = R.INTK_DMA_CTRL.base then some (s.dmaCtrl data)
  else if base = R.LZC_RING_HEAD.base then some (s.lzcHead data)
  else if base = R.LZC_RING_CTRL.base then some (s.lzcCtrl data)
  else if base = R.LZC_ENG_CTRL.base then some (s.lzcEngCtrl r i data)
  else if base = R.BLT_RING_HEAD.base then some (s.bltHead data)
  else if base = R.BLT_RING_CTRL.base then some (s.bltRingCtrl data)
  else if base = R.BLT_CTRL.base then some (s.bltCtrl r data)
  else if base = R.BLT_WM_CFG.base then some (s.wmCfg i data)
  else none

/-- COMP: buffers, signatures, safe image, descriptor window (R277, R279, R294, R297). -/
def State.writeComp (s : State) (r : Req) (info : RegInfo) (off i data : Nat) : Option State :=
  if info.base = R.COMP_CAL_INDEX.base then some (s.calIndexWrite data)
  else if info.base = R.COMP_SAFE_CTRL.base then some (s.mirrored off r data (fun t => t.safeCtrl data))
  else if info.base = R.COMP_SIG_CTRL.base then some (s.mirrored off r data (fun t => t.sigCtrl i data))
  else if info.base = R.COMP_OVLY_CFG.base ∨ info.base = R.COMP_SAFE_CFG.base then
    some (s.mirrored off r data (fun t => (t.plainWrite info off (BitVec.ofNat 32 data)).bufStates false))
  else if info.base = R.COMP_BUF_FMT.base then some (s.mirrored off r data (fun t => t.bufFmt i data))
  else if info.base = R.COMP_BUF_PITCH.base ∨ info.base = R.COMP_BUF_SIZE.base then
    some (s.mirrored off r data (fun t =>
      if t.get R.COMP_BUF_STAT_STATE i = 1 ∨ t.get R.COMP_BUF_STAT_STATE i = 2 then t.bufFail i 0x42
      else t.plainWrite info off (BitVec.ofNat 32 data)))
  else none

/-- PSEQ, RAIL, PAIR, ARRAY, HOST, TEPH: commands and registers with effects. -/
def State.writePort (s : State) (r : Req) (info : RegInfo) (off data : Nat) (readings : List CrackRead) : Option State :=
  if info.base = R.PSEQ_RECT_SUBMIT.base then some (after (execRectSubmit r data s) s)
  else if info.base = R.PSEQ_PATTERN.base then some (after (execPatternSelect r data s) s)
  else if info.base = R.RAIL_CMD.base then
    some (s.keyed off r (data / 65536) 0x0A11 data (fun t =>
      onBit data 3 (fun u => after (execRailCmdRelearn r 0x0A11 u) u)
        (onBit data 2 (fun u => after (execRailCmdRestart r 0x0A11 readings u) u)
          (onBit data 1 (fun u => after (execRailCmdOff r 0x0A11 u) u)
            (onBit data 0 (fun u => after (execRailCmdOn r 0x0A11 readings u) u) t)))))
  else if info.base = R.PAIR_CMD.base then
    some (s.keyed off r (data / 65536) 0x9A1E data (fun t =>
      onBit data 1 (fun u => after (execPairCmdResync r 0x9A1E u) u) (onBit data 0 (fun u => after (execPairCmdHandover r 0x9A1E u) u) t)))
  else if info.base = R.RAIL_CRACK_MEAS.base then some (s.crackBaseWrite r ((off - R.RAIL_CRACK_MEAS.base) / 0x10) data)
  else if info.base = R.ARRAY_POS.base then some (s.plainWrite info off (BitVec.ofNat 32 data)).helloAll
  else if info.base = R.HOST_MSIX_CTRL.base then some (s.plainWrite info off (BitVec.ofNat 32 data)).msixFlush
  else if info.base = R.TEPH_CMD.base then
    some (s.keyed off r (data / 65536) 0x7E9A data (fun t =>
      onBit data 0 State.tephFreeze (onBit data 1 State.tephResume (onBit data 2 State.tephClear t))))
  else none

/-- LANE: commands of a group, loopback, patterns (R395, R404 to R406). -/
def State.writeLane (s : State) (r : Req) (info : RegInfo) (off data : Nat) : Option State :=
  let n := (off - 0x400000) / 0x400
  let j := groupOfLane n
  if info.name = "LANE_GRP.CMD" then
    some (if data / 65536 ≠ 0x1A4E then s.ignored off data r
      else onBit data 2 (fun t => after (execLaneTestExit r 0x1A4E j t) t)
        (onBit data 1 (fun t => after (execLaneTest r 0x1A4E j t) t) (onBit data 0 (fun t => after (execLaneRetrain r 0x1A4E j t) t) s)))
  else if info.name = "LANE.LOOP" then some (after (execLaneLoopWrite r n (data % 4) s) s)
  else if info.name = "LANE.PRBS_CTRL" then some (if s.groupStage j = 7 then (s.plainWrite info off (BitVec.ofNat 32 data)).prbsWrite n else s)
  else if info.name = "LANE.INJECT" then
    some (onBit data 0 (fun t => after (execInjectOne n t) t) (after (execInjectRate n (data / 2 % 16) s) s))
  else none

/-- MEM: unfreeze, frequency requests, the region table. -/
def State.writeMem (s : State) (r : Req) (info : RegInfo) (off i data : Nat) : Option State :=
  if info.base = R.MEM_C_CMD.base then
    some (if data / 65536 = 0x4D45 ∧ data.testBit 0 = false then s
      else if data / 65536 ≠ 0x4D45 then s.ignored off data r else after (execMemUnfreeze r 0x4D45 i s) s)
  else if info.base = R.MEM_FREQ.base then
    some ((if data.testBit 9 then s.put R.MEM_FREQ_REFUSED 0 else s).freqRequest (data % 4))
  else if info.base = R.MEM_REGION_BASE.base then some (after (execRegionWrite r i 0 (BitVec.ofNat 32 data) s) s)
  else if info.base = R.MEM_REGION_LIMIT.base then some (after (execRegionWrite r i 1 (BitVec.ofNat 32 data) s) s)
  else if info.base = R.MEM_REGION_ATTR.base then some (after (execRegionWrite r i 2 (BitVec.ofNat 32 data) s) s)
  else none

/-- The write of a register with behaviour of its own; none: a plain register. -/
def State.writeSpecial (s : State) (r : Req) (info : RegInfo) (off i data : Nat) (readings : List CrackRead) : Option State :=
  if off < 0x020000 then s.writeCtl r info.base data
  else if off < 0x030000 then s.writeCare r info off i data
  else if off < 0x080000 then s.writeSys r info.base data
  else if off < 0x100000 then s.writePers r info.base i data
  else if off < 0x200000 then s.writeFab r info.base i data
  else if off < 0x240000 then s.writeView r info off data
  else if off < 0x300000 then s.writeRing r info.base i data
  else if off < 0x340000 then s.writeComp r info off i data
  else if off < 0x380000 then s.writeRing r info.base i data
  else if off < 0x400000 then s.writePort r info off data readings
  else if off < 0x480000 then s.writeLane r info off data
  else if off < 0x500000 then s.writeMem r info off i data
  else s.writePort r info off data readings

/-- One 32-bit write of a register that is no half of a pair. -/
def State.writeOne (s : State) (r : Req) (info : RegInfo) (off i data : Nat) (readings : List CrackRead) : State :=
  match s.writeSpecial r info off i data readings with
  | some t => t
  | none =>
    let act (t : State) : State := t.plainWrite info off (BitVec.ofNat 32 data)
    if info.mir = .yes then s.mirrored off r data act else act s

/-! ### Pairs (R75, R76, R446) -/

/-- Whether the bit counter of lane `n` runs: its checker is on in a group in TEST (R80, R405). -/
def State.prbsRuns (s : State) (n : Nat) : Bool := s.flag R.LANE_PRBS_CTRL_CHK_EN n && decide (s.groupStage (groupOfLane n) = 7)

/-- Commits a write of HI at `off`, with the LO half held for this pair, if any; a registered buffer in use keeps its base (R279), and BAR2
accesses already accepted keep the window's (R495). -/
def State.commitHi (s : State) (r : Req) (info : RegInfo) (off i : Nat) (data : Word) : State :=
  let lo := match s.bus.hold r with
    | some x => if x.pair + 4 = off then some x.data else none
    | none => none
  let s1 := s.setHold r none
  if info.base = R.LANE_PRBS_BITS.base + 4 ∧ s1.prbsRuns i = true then s1
  else if info.base = R.COMP_BUF_BASE.base + 4 ∧ (s1.get R.COMP_BUF_STAT_STATE i = 1 ∨ s1.get R.COMP_BUF_STAT_STATE i = 2) then s1.bufFail i 0x42
  else
    let s2 := if info.base = R.HOST_BAR2_BASE.base + 4 ∧ r ≠ .host then s1.bindBase else s1
    let s3 := match lo, regAt (off - 4) with
      | some w, some (infoLo, _, _) => s2.plainWrite infoLo (off - 4) w
      | _, _ => s2
    s3.plainWrite info off data

/-- One 32-bit write of a LO or HI half: on the MIRROR a mirrored pair drops it, on the ACTIVE the commit is forwarded as LO then HI. -/
def State.writeHalf (s : State) (r : Req) (info : RegInfo) (off i : Nat) (data : Word) : State :=
  if info.mir = .yes ∧ r ≠ .partner ∧ s.isMirror = true then s.mirrorDrop off r.code data.toNat
  else if info.half = .lo then s.setHold r (some ⟨off, data⟩)
  else
    let held := match s.bus.hold r with
      | some x => if x.pair + 4 = off then some x.data else none
      | none => none
    let s1 := s.commitHi r info off i data
    if info.mir = .yes ∧ r ≠ .partner ∧ s1.isActive = true then
      let s2 := match held with | some w => s1.sendPair (.write (off - 4) w) | none => s1
      s2.sendPair (.write off data)
    else s1

/-- One 32-bit write of an implemented offset. -/
def State.writeWord (s : State) (r : Req) (off data : Nat) (readings : List CrackRead) : State :=
  match regAt off with
  | none => s
  | some (info, i, _) =>
    let d := data % 2 ^ 32
    if info.half = .one then s.writeOne r info off i d readings else s.writeHalf r info off i (BitVec.ofNat 32 d)

/-- A write of `width` bytes as the bus performs it, whatever is held: bus errors, one word, or LO then HI (R77). -/
def State.writeNow (s : State) (r : Req) (off width data : Nat) (readings : List CrackRead) : State :=
  match busKind off width with
  | some k => s.busError r true off k
  | none =>
    let s1 := s.writeWord r off data readings
    (if width = 4 then s1 else s1.writeWord r (off + 4) (data / 2 ^ 32) readings).respond .done

/-- An access of the host that waited is performed. -/
def State.heldReg (s : State) (h : HeldWrite) : State :=
  match h.item with
  | .bytes a bytes => s.hostBytes a bytes
  | .reg off width (some data) => s.writeNow .host off width data []
  | .reg off width none => s.readNow .host off width
  | .bar2 base off len data ecc => State.bar2Now base off len data ecc h.since s

/-- Once GUARD leaves HOLD, the writes held complete (R283). -/
def State.guardOpen (s : State) (before : Nat) : State :=
  if 2 ≤ before ∧ s.get R.COMP_CTRL_GUARD < 2 then s.releaseHeld State.heldReg else s

/-- A write of `width` bytes: a host write waits behind the held ones (R70, R281). -/
def State.busWrite (s : State) (r : Req) (off width data : Nat) (readings : List CrackRead) : State :=
  if s.reaches r = false then s.respond .none
  else if r = .host ∧ s.comp.heldHost.isEmpty = false then
    (s.hostWaits (.reg off width (some data))).respond .done
  else (s.writeNow r off width data readings).guardOpen (s.get R.COMP_CTRL_GUARD)

/-- The words an access of `width` bytes at `off` can commit: HI commits its LO half too (R76). -/
def wordsOf (off width : Nat) : List Nat :=
  match regAt off with
  | some (info, _, _) => if info.half = .hi then [off - 4, off] else if width = 8 then [off, off + 4] else [off]
  | none => []

/-- The CNT bits of the words `l` as they were in `old`: a software write in the cycle of a hardware advance is ignored (Table 3.2). -/
def State.countersKept (s old : State) (l : List Nat) : State :=
  l.foldl (fun t k =>
    match regAt k with
    | some (info, _, _) => t.setWord k (mergeBits (BitVec.ofNat 32 info.cnt) (t.word k) (old.word k))
    | none => t) s

/-- A write of `width` bytes; `adv`: counters of the register advance in this very cycle, so that their fields ignore it (R79). The advance
itself is the effect of the command that brings it. -/
def State.busWriteIn (s : State) (r : Req) (off width data : Nat) (readings : List CrackRead) (adv : Bool) : State :=
  let t := s.busWrite r off width data readings
  if adv then t.countersKept s (wordsOf off width) else t

/-! ### The commands -/

/-- REGISTER_WRITE (R64 to R71, R79 to R81): `readings`: the crack loops, should the write power the rails on; `others`: writes of other
requesters that reach the register in the same cycle, served in the order host, caretaker, partner (R71); `adv`: counters of the register
advance in this cycle (Table 3.2). -/
def execRegisterWrite (r : Req) (off width data : Nat) (readings : List CrackRead) (others : List (Req × Nat)) (adv : Bool) (s : State) : Out :=
  .next ((sortBy (fun x y => decide (x.1.code ≤ y.1.code)) ((r, data) :: others)).foldl (fun t x => t.busWriteIn x.1 off width x.2 readings adv) s)

/-- PAIR_LO_READ (R73), and a 32-bit read of any other offset (R69). -/
def execPairLoRead (r : Req) (off : Nat) (s : State) : Out := .next (s.busRead r off 4)

/-- PAIR_HI_READ (R74), and a read of any other offset with a width. -/
def execPairHiRead (r : Req) (off width : Nat) (s : State) : Out := .next (s.busRead r off width)

/-- PAIR_LO_WRITE (R75). -/
def execPairLoWrite (r : Req) (off : Nat) (data : Word) (s : State) : Out := .next (s.busWrite r off 4 data.toNat [])

/-- PAIR_HI_WRITE (R76); `adv`: the pair's counter advances in this cycle, and both halves of the write are ignored (Table 3.2). -/
def execPairHiWrite (r : Req) (off : Nat) (data : Word) (adv : Bool) (s : State) : Out := .next (s.busWriteIn r off 4 data.toNat [] adv)

/-- PAIR_ACCESS_64 (R77): a read, or a write of 64 bits, `adv` as for PAIR_HI_WRITE. -/
def execPairAccess64 (r : Req) (off : Nat) (data : Option Nat) (adv : Bool) (s : State) : Out :=
  .next (match data with
    | none => s.busRead r off 8
    | some d => s.busWriteIn r off 8 (d % 2 ^ 64) [] adv)

/-- MIRROR_WRITE (R446): a forwarded write, applied as a partner access on the MIRROR. -/
def execMirrorWrite (off : Nat) (data : Word) (s : State) : Out :=
  let s1 := s.rxNext
  .next (if s1.isMirror then s1.busWrite .partner off 4 data.toNat [] else s1)

/-- MEM_FREQ_CHANGE_DONE (R427, R428): the new rate is in effect, and requests held since the change began are served. -/
def execMemFreqChangeDone (s : State) : Out :=
  .next (match s.flag R.MEM_FREQ_BUSY, s.mem.freqNext with
    | true, some v => (s.freqDone v).releaseHeld State.heldReg
    | _, _ => s)

/-- HELD_WRITE_RELEASE (R283): the held writes whose buffers are free complete in order. -/
def execHeldWriteRelease (s : State) : Out := .next (s.releaseHeld State.heldReg)

/-- GUARD_EXPIRY (R282): a write held one light-field frame period completes and is counted. -/
def execGuardExpiry (s : State) : Out := .next (s.guardExpiry State.heldReg)

end Sys2Proof.Machine
end

