-- ==== Sys2Proof/Machine/Reset.lean ====
section
/-!
DEFINITION. Reset (spec/02, R31 to R41; R78, R114, R129, R265, R298, R299, R360, R429, R528): the sources, POR, SYS and CORE taking hold,
leaving them, the end of the option and trim load.
-/

namespace Sys2Proof.Machine

open Sys2Proof

/-! ### POR and SYS -/

/-- The machine while POR holds (R31): everything at its reset value but flash, OTP and the pins that hold SYS sources; a commit being
programmed leaves an incomplete row. -/
def State.porState (s : State) : State :=
  let c := s.commitCut
  let t : State := { State.reset with
    nv := c.nv
    otp := c.otp
    rst := { State.reset.rst with srcPin := c.rst.srcPin, srcTamper := c.rst.srcTamper }
    freeCtr := c.freeCtr
    out := c.out
    pending := c.pending }
  (t.putB R.RST_CAUSE_PIN c.rst.srcPin).putB R.RST_CAUSE_TAMPER c.rst.srcTamper

/-- The word of an offset that a reset leaves: the bits of `keep` as they were, the others at their reset value. -/
def keptWord (keep : RegInfo → Nat) (off : Nat) (w : Word) : Word :=
  match regAt off with
  | some (i, _, _) => mergeBits (BitVec.ofNat 32 (keep i)) (resetWord off) w
  | none => resetWord off

/-- SYS takes hold (R31, Table 2.1): debug logic, RST_CAUSE, the mailboxes and the tephra record stay; locks of the caretaker and the fabric
are released (R528); every staged value and pending strobe is discarded (R88). -/
def State.sysHold (s : State) : State :=
  let c := ((s.releaseLocks 2).releaseLocks 4).commitCut
  let t : State := { State.reset with
    regs := Sparse.mapKeep resetWord (keptWord RegInfo.sysKeep) c.regs
    nv := c.nv
    otp := c.otp
    teph := c.teph
    care := { State.reset.care with inbound := c.care.inbound }
    sec := { State.reset.sec with debugSeen := c.sec.debugSeen }
    pins := { State.reset.pins with pwrFail := c.pins.pwrFail }
    rst := { State.reset.rst with
      hold := .sys
      srcPin := c.rst.srcPin
      srcTamper := c.rst.srcTamper
      srcFatal := c.rst.srcFatal
      afterSys := true
      elapsedNs := c.rst.elapsedNs
      cause := c.rst.cause }
    freeCtr := c.freeCtr
    out := c.out
    pending := c.pending }
  t.bump R.RST_CAUSE_SYS_COUNT

/-- The option and trim load begins (R40): stage 0x01. -/
def State.trimLoad (s : State) : State :=
  let s1 := (s.put R.RST_STAGE_STAGE 1).put R.RST_STAGE_FAIL 0
  { s1 with rst := { s1.rst with hold := .load } }

/-! ### CORE -/

/-- Whether a pair at an offset lies in a block that CORE clears (R78, Table 2.1): FAB, INTK, TDEC, LZC, COMP, BLT, PSEQ. -/
def coreClears (off : Nat) : Bool := decide (0x100000 ≤ off ∧ off < 0x200000) || decide (0x240000 ≤ off ∧ off < 0x3C0000)

/-- CORE invalidates the shadows and holding registers of the pairs it clears (R78). -/
def BusState.afterCore (b : BusState) : BusState :=
  let f (x : Option Shadow) : Option Shadow := x.filter (fun y => !coreClears y.pair)
  ⟨f b.shadowHost, f b.shadowCare, f b.shadowPartner, f b.holdHost, f b.holdCare, f b.holdPartner, b.resp⟩

/-- The registers after CORE: the bits each block keeps, staged and in effect (R88); RETIRED tiles (R114) and COMP_SEQ (R265) stay; every
registered buffer is FREE (R298). -/
def State.coreRegs (s : State) : State :=
  let t : State := { s with
    regs := Sparse.mapKeep resetWord (keptWord RegInfo.coreKeep) s.regs
    staged := Sparse.mapKeep resetWord (keptWord RegInfo.coreKeep) s.staged }
  let t1 := (List.range 400).foldl (fun u n => if s.tileState n = 5 then u.put R.FAB_TILE_STAT_STATE 5 n else u) t
  let t2 := (List.range 16).foldl (fun u b => if u.registered b then u.put R.COMP_BUF_STAT_STATE 0 b else u) t1
  ((t2.put R.COMP_SEQ (s.get R.COMP_SEQ)).put R.COMP_SEQ_DONE (s.get R.COMP_SEQ_DONE)).panelRange

/-- CORE takes hold (R33, R31): held writes complete (R298), the engine core is cleared, DRAM enters self-refresh and holds the requests of
blocks that CORE spares (R429), the panel link sends hold symbols, and the entry RESET is written, linked to its cause (R570, Table 21.4). -/
def State.coreHold (s : State) : State :=
  let s1 := ((s.completeAll State.heldReg).releaseLocks 4).coreRegs
  let s2 := s1.lzcCore.bltCore
  let s3 := ((s2.put R.INTK_DMA_STAT_HALTED 1).put R.INTK_DMA_STAT_RUNNING 0).put R.PREV_STAT_STALE 1
  let s4 : State := { s3 with
    fab := { State.reset.fab with corr := s3.fab.corr }
    intk := s3.intk.afterCore
    comp := { State.reset.comp with heldHost := s3.comp.heldHost }
    view := { s3.view with stream := none, begun := none, asked := false }
    pseq := s3.pseq.afterCore
    pers := { s3.pers with act := [], stg := [], coreExit := false, reload := none }
    host := { s3.host with cap := [], capDone := false }
    mem := { s3.mem with queue := s3.mem.queue.filter coreSpares, freezeDue := none }
    bus := s3.bus.afterCore
    rst := { s3.rst with hold := .core, coreEntering := false } }
  let s5 := (s4.dropStaging.memSelfRefresh true).sendHold
  s5.offer 24 1 0 1 (s5.word R.RST_CAUSE.base).toNat (s5.word R.RST_STAGE.base).toNat (.link s.rst.cause)

/-- The active personality at CORE exit (R129): a slot whose digest still matches preloads and activates again before the first frame; else
it is REJECTED and its memory given back. -/
def State.coreReload (s : State) : State :=
  if s.flag R.PERS_STATE_ACTIVE_VALID = false then s.pendResume
  else
    let slot := s.activeSlot
    let g := s.slotFile slot
    if s.slotDigest slot = Config.sha384 (s.readBytes (s.slotArea slot) (g 0x1C 4)) then
      let s1 := s.preloadBegin slot
      { s1 with pers := { s1.pers with coreExit := true, reload := some slot } }
    else
      let s1 := (s.put R.MEM_FREE (s.get R.MEM_FREE + needMib g)).put R.PERS_STATE_ACTIVE_VALID 0
      (s1.slotReject slot 0x19 0).pendResume

/-- The module leaves CORE (R38, R129, R299, R427, R429): DRAM leaves self-refresh, a held frequency request is judged, the maps still in DRAM
are reported, key slots are loaded again, the stack is not READY, and accesses the controllers held are served. -/
def State.coreExit (s : State) : State :=
  let s0 := s.memSelfRefresh false
  let held := s0.mem.freqHeld
  let s1 : State := { s0 with
    rst := { s0.rst with hold := .run, srcFatal := false }
    mem := { s0.mem with freqHeld := none }
    comp := { s0.comp with coreExit := some s0.time.raw } }
  let s2 := match held with
    | some v => s1.freqJudge v
    | none => s1
  (((s2.put R.COMP_STAT_READY 0).unifReport.keysReload).coreReload).releaseHeld State.heldReg

/-! ### The commands -/

/-- POR_ASSERT (R36, R41): a supply monitor or mains power-good; a load in progress is aborted. -/
def execPorAssert (_src : PorSource) (s : State) : Out := .next s.porState

/-- A pin source of SYS: held off while a power-fail save is due (Table 22.11). -/
def State.pinSource (s : State) (tamper : Bool) : State :=
  if s.teph.saveDue = some 1 then
    { s with rst := { s.rst with pfHeld := s.rst.pfHeld.filter (· ≠ Word.ofBool tamper) ++ [Word.ofBool tamper] } }
  else
    let s1 := s.sysSource (if tamper then R.RST_CAUSE_TAMPER else R.RST_CAUSE_PIN) .sysEntry none
    { s1 with rst := if tamper then { s1.rst with srcTamper := true } else { s1.rst with srcPin := true } }

/-- RESET_PIN (R36): RESET_N low for 1 µs. -/
def execResetPin (s : State) : Out := .next (s.pinSource false)

/-- TAMPER_EVENT (R36). -/
def execTamperEvent (s : State) : Out := .next (s.pinSource true)

/-- WATCHDOG_EXPIRY (R511): only a running caretaker has a watchdog. -/
def execWatchdogExpiry (s : State) : Out :=
  .next (if s.flag R.CARE_STAT_RUNNING then s.sysSource R.RST_CAUSE_WDOG .sysEntry none else s)

/-- RST_REQ_CORE (R39, R61). -/
def execRstReqCore (r : Req) (key : Nat) (s : State) : Out :=
  .next (s.keyed R.RST_REQ.base r key 0xC0DE (key * 65536 + 1) (fun t => t.coreSource R.RST_CAUSE_SW_CORE .coreEntry none))

/-- RST_REQ_SYS (R39, R61). -/
def execRstReqSys (r : Req) (key : Nat) (s : State) : Out :=
  .next (s.keyed R.RST_REQ.base r key 0xC0DE (key * 65536 + 2) (fun t => t.sysSource R.RST_CAUSE_SW_SYS .sysEntry none))

/-- FABRIC_FATAL (R166, Table 2.2): only a fabric that is not held in a wider reset reports it. -/
def execFabricFatal (s : State) : Out :=
  .next (match s.rst.hold with
    | .run | .core => s.fabricFatal none
    | _ => s)

/-- SYS_TAKES_HOLD (R32): SYS is entered and the rails have powered off. -/
def execSysTakesHold (s : State) : Out :=
  .next (if s.rst.sysEntering ∧ (s.get R.RAIL_STAT_STATE = 0 ∨ s.get R.RAIL_STAT_STATE = 5) then s.sysHold else s)

/-- CORE_TAKES_HOLD (R33): at once for a fatal error, else after the subframe in flight. -/
def execCoreTakesHold (s : State) : Out :=
  .next (if s.rst.coreEntering ∧ s.rst.hold = .run ∧ (s.rst.srcFatal = true ∨ s.pseq.inFlight = false) then s.coreHold else s)

/-- RESET_RELEASE (R37, R38): every source of the level that holds releases; a narrower one still asserted holds next. -/
def execResetRelease (s : State) : Out :=
  .next (match s.rst.hold with
    | .por =>
      if s.rst.srcPin || s.rst.srcTamper then s.sysHold else s.trimLoad
    | .sys =>
      let s1 : State := { s with rst := { s.rst with srcPin := false, srcTamper := false } }
      s1.trimLoad
    | .core => s.coreExit
    | _ => s)

/-- TRIM_LOAD_DONE (R40, R41): `reading` is what the converter measured at CFG_SENSE. A SYS source held off during the load applies now; a
fatal fabric error still pending keeps the engine core in CORE (R38). -/
def execTrimLoadDone (reading : Nat) (s : State) : Out :=
  .next (match s.rst.hold with
    | .load =>
      if s.rst.loadHeld then s.sysHold
      else
        let s1 := s.loadEnds reading
        if s1.rst.srcFatal then { s1 with rst := { s1.rst with hold := .core } } else s1
    | _ => s)

end Sys2Proof.Machine
end

