-- ==== Sys2Proof/Machine/Pins.lean ====
section
/-!
DEFINITION. Power-fail save and the supply (spec/21 R577, spec/22 R589, R593, R594, R601).
-/

namespace Sys2Proof.Machine

open Sys2Proof

/-- TEPHRA_SAVE (R577): the save that is due; the SYS sources held off until it ended then apply (Table 22.11). -/
def execTephraSave (s : State) : Out :=
  let s1 := s.tephSave
  let held := s1.rst.pfHeld
  let s2 : State := { s1 with rst := { s1.rst with pfHeld := [] } }
  .next (if s.teph.saveDue.isSome then held.foldl (fun t k => t.pinSource (decide (k = 1))) s2 else s)

/-- AO_SUPPLY_FALL (R589): PWR_FAIL_N becomes high-impedance once the AO supply falls below 2.9 V. -/
def execAoSupplyFall (s : State) : Out := .next { s with pins := { s.pins with pwrFailHiZ := true } }

/-- MAINS_RETURN (R594): after a warning the power-fail sequence runs to its end and the module passes through POR. -/
def execMainsReturn (s : State) : Out := .next (if s.pins.pwrFail then s.tephSave.porState else s)

/-! ### Idling -/

/-- One millisecond more since POR was released, until stage 0x0A or a failure (RST_STAGE.ELAPSED_MS). -/
def State.tickElapsed (s : State) : State :=
  if s.rst.hold = .por ∨ 10 ≤ s.get R.RST_STAGE_STAGE ∨ s.flag R.RST_STAGE_FAIL = true then s
  else if s.rst.elapsedNs + 1 < 1000000 then { s with rst := { s.rst with elapsedNs := s.rst.elapsedNs + 1 } }
  else ({ s with rst := { s.rst with elapsedNs := 0 } } : State).bump R.RST_STAGE_ELAPSED_MS

/-- One idle nanosecond of stage 0x08: without a DisplayPort source, strapped as the input, stage 0x09 fails 600 ms after stage 0x08 was
reached, the times of Timing 2.1 apart (Table 2.5, log entry 86). -/
def State.tickInput (s : State) : State :=
  if s.get R.RST_STAGE_STAGE = 8 ∧ s.flag R.RST_STAGE_FAIL = false ∧ s.flag R.RST_STRAP_INPUT = true ∧ s.rst.inputReady = false then
    let s1 : State := { s with rst := { s.rst with inputNs := s.rst.inputNs + 1 } }
    if s1.rst.inputNs < 600000000 then s1 else s1.stageFail 9
  else s

/-- One idle nanosecond (log entry 5): RAW advances unless POR or SYS holds, what was sent has left, the PRBS checkers
that run see their bits (R405). -/
def State.tick (s : State) : State :=
  let s0 := s.tickElapsed.tickInput
  let s1 : State := { s0 with out := [], wires := s0.wires.map (fun p => (p.1, { p.2 with sent := [] })) }
  match s1.rst.hold with
  | .por | .sys => s1
  | _ => ({ s1 with time := { s1.time with raw := s1.time.raw + 1 } } : State).prbsTick

end Sys2Proof.Machine
end

