-- ==== Sys2Proof/Machine/Dispatch.lean ====
section
/-!
DEFINITION. Execution: one arm per command, each a direct call of its meaning.
-/

namespace Sys2Proof.Machine

open Sys2Proof

/-- The effect of a command on everything but the queue. -/
def exec (i : Instr) (s : State) : Host.Outcome State Fault Refusal :=
  match i with
  | .porAssert src => Sys2Proof.Machine.execPorAssert src s
  | .resetPin => Sys2Proof.Machine.execResetPin s
  | .tamperEvent => Sys2Proof.Machine.execTamperEvent s
  | .watchdogExpiry => Sys2Proof.Machine.execWatchdogExpiry s
  | .rstReqCore r key => Sys2Proof.Machine.execRstReqCore r key s
  | .rstReqSys r key => Sys2Proof.Machine.execRstReqSys r key s
  | .fabricFatal => Sys2Proof.Machine.execFabricFatal s
  | .sysTakesHold => Sys2Proof.Machine.execSysTakesHold s
  | .coreTakesHold => Sys2Proof.Machine.execCoreTakesHold s
  | .resetRelease => Sys2Proof.Machine.execResetRelease s
  | .trimLoadDone reading => Sys2Proof.Machine.execTrimLoadDone reading s
  | .firmwareVerifyDone slot0 slot1 => Sys2Proof.Machine.execFirmwareVerifyDone slot0 slot1 s
  | .dramTrainingDone l => Sys2Proof.Machine.execDramTrainingDone l s
  | .dramInitDone maps => Sys2Proof.Machine.execDramInitDone maps s
  | .panelDescriptorVerified bytes ports => Sys2Proof.Machine.execPanelDescriptorVerified bytes ports s
  | .panelRetryTimer => Sys2Proof.Machine.execPanelRetryTimer s
  | .baselineLoad file failed => Sys2Proof.Machine.execBaselineLoad file failed s
  | .ethBringup mode links lease => Sys2Proof.Machine.execEthBringup mode links lease s
  | .dhcpTimeout addr => Sys2Proof.Machine.execDhcpTimeout addr s
  | .hostBootTimeout slot0 slot1 => Sys2Proof.Machine.execHostBootTimeout slot0 slot1 s
  | .inputIdleTimeout => Sys2Proof.Machine.execInputIdleTimeout s
  | .registerWrite r off width data readings others adv => Sys2Proof.Machine.execRegisterWrite r off width data readings others adv s
  | .pairLoRead r off => Sys2Proof.Machine.execPairLoRead r off s
  | .pairHiRead r off width => Sys2Proof.Machine.execPairHiRead r off width s
  | .pairLoWrite r off data => Sys2Proof.Machine.execPairLoWrite r off data s
  | .pairHiWrite r off data adv => Sys2Proof.Machine.execPairHiWrite r off data adv s
  | .pairAccess64 r off data adv => Sys2Proof.Machine.execPairAccess64 r off data adv s
  | .updateImmediate r groups => Sys2Proof.Machine.execUpdateImmediate r groups s
  | .updateNextSubframe r groups => Sys2Proof.Machine.execUpdateNextSubframe r groups s
  | .updateNextFrame r groups => Sys2Proof.Machine.execUpdateNextFrame r groups s
  | .updateAtTime r groups => Sys2Proof.Machine.execUpdateAtTime r groups s
  | .strobeApply g => Sys2Proof.Machine.execStrobeApply g s
  | .msixPendingSend enable mask => Sys2Proof.Machine.execMsixPendingSend enable mask s
  | .subframeLaunch => Sys2Proof.Machine.execSubframeLaunch s
  | .fabricFrameStart => Sys2Proof.Machine.execFabricFrameStart s
  | .viewCtrlWrite r data => Sys2Proof.Machine.execViewCtrlWrite r data s
  | .persSlotLoad slot => Sys2Proof.Machine.execPersSlotLoad slot s
  | .persSlotPreload slot => Sys2Proof.Machine.execPersSlotPreload slot s
  | .persSlotEvict slot => Sys2Proof.Machine.execPersSlotEvict slot s
  | .persLoadBegin => Sys2Proof.Machine.execPersLoadBegin s
  | .persLoadDone => Sys2Proof.Machine.execPersLoadDone s
  | .persPreloadDone => Sys2Proof.Machine.execPersPreloadDone s
  | .persActNextFrame r slot => Sys2Proof.Machine.execPersActNextFrame r slot s
  | .persActAtTime r slot => Sys2Proof.Machine.execPersActAtTime r slot s
  | .persActCancel r => Sys2Proof.Machine.execPersActCancel r s
  | .actSlip => Sys2Proof.Machine.execActSlip s
  | .boundaryTokenArrive n port => Sys2Proof.Machine.execBoundaryTokenArrive n port s
  | .swapTimeout n => Sys2Proof.Machine.execSwapTimeout n s
  | .subframeTokenArrive n port => Sys2Proof.Machine.execSubframeTokenArrive n port s
  | .drainMarkerArrive n port => Sys2Proof.Machine.execDrainMarkerArrive n port s
  | .tokenDispatch n port arrive => Sys2Proof.Machine.execTokenDispatch n port arrive s
  | .tokenForwardRetry n port => Sys2Proof.Machine.execTokenForwardRetry n port s
  | .threadStartHeld n port => Sys2Proof.Machine.execThreadStartHeld n port s
  | .endThread n t => Sys2Proof.Machine.execEndThread n t s
  | .add n t => Sys2Proof.Machine.execAdd n t s
  | .sub n t => Sys2Proof.Machine.execSub n t s
  | .mul n t => Sys2Proof.Machine.execMul n t s
  | .and n t => Sys2Proof.Machine.execAnd n t s
  | .or n t => Sys2Proof.Machine.execOr n t s
  | .xor n t => Sys2Proof.Machine.execXor n t s
  | .shift n t => Sys2Proof.Machine.execShift n t s
  | .ldi n t => Sys2Proof.Machine.execLdi n t s
  | .fstep n t => Sys2Proof.Machine.execFstep n t s
  | .sample n t => Sys2Proof.Machine.execSample n t s
  | .laneSampleDone n lane q lines => Sys2Proof.Machine.execLaneSampleDone n lane q lines s
  | .ld n t => Sys2Proof.Machine.execLd n t s
  | .st n t => Sys2Proof.Machine.execSt n t s
  | .emit n t => Sys2Proof.Machine.execEmit n t s
  | .br n t => Sys2Proof.Machine.execBr n t s
  | .wait n t => Sys2Proof.Machine.execWait n t s
  | .const n t => Sys2Proof.Machine.execConst n t s
  | .budget n t => Sys2Proof.Machine.execBudget n t s
  | .param n t => Sys2Proof.Machine.execParam n t s
  | .badOp n t => Sys2Proof.Machine.execBadOp n t s
  | .droopDetect n => Sys2Proof.Machine.execDroopDetect n s
  | .quadVoltageLoop q clocks => Sys2Proof.Machine.execQuadVoltageLoop q clocks s
  | .eccCorrect n flit => Sys2Proof.Machine.execEccCorrect n flit s
  | .cacheRefetch n line => Sys2Proof.Machine.execCacheRefetch n line s
  | .flitPoison n port => Sys2Proof.Machine.execFlitPoison n port s
  | .residueRetry n again => Sys2Proof.Machine.execResidueRetry n again s
  | .marginAlarm n => Sys2Proof.Machine.execMarginAlarm n s
  | .tileUncorrectable n err => Sys2Proof.Machine.execTileUncorrectable n err s
  | .spareKat periodic failed => Sys2Proof.Machine.execSpareKat periodic failed s
  | .tileCtrlKat r key n => Sys2Proof.Machine.execTileCtrlKat r key n s
  | .tileCtrlMigrate r key n => Sys2Proof.Machine.execTileCtrlMigrate r key n s
  | .tileInject n kind => Sys2Proof.Machine.execTileInject n kind s
  | .migrationCopyDone n good => Sys2Proof.Machine.execMigrationCopyDone n good s
  | .migrationRedirect n => Sys2Proof.Machine.execMigrationRedirect n s
  | .migrationDrainDone n => Sys2Proof.Machine.execMigrationDrainDone n s
  | .drainTimeout n => Sys2Proof.Machine.execDrainTimeout n s
  | .rowBandComplete own shares poisoned => Sys2Proof.Machine.execRowBandComplete own shares poisoned s
  | .rowBandDeadline own shares late poisoned unfinished => Sys2Proof.Machine.execRowBandDeadline own shares late poisoned unfinished s
  | .signatureCheck r => Sys2Proof.Machine.execSignatureCheck r s
  | .sigLearn r k => Sys2Proof.Machine.execSigLearn r k s
  | .safeRelease r => Sys2Proof.Machine.execSafeRelease r s
  | .safeForce r => Sys2Proof.Machine.execSafeForce r s
  | .rtpPacket p => Sys2Proof.Machine.execRtpPacket p s
  | .ssrcTimeout => Sys2Proof.Machine.execSsrcTimeout s
  | .dmaHeadWrite r v => Sys2Proof.Machine.execDmaHeadWrite r v s
  | .dmaStart r => Sys2Proof.Machine.execDmaStart r s
  | .dmaRestart r => Sys2Proof.Machine.execDmaRestart r s
  | .dmaStop r => Sys2Proof.Machine.execDmaStop r s
  | .dmaDescriptorProcess d => Sys2Proof.Machine.execDmaDescriptorProcess d s
  | .dmaDescriptorDone bytes abort => Sys2Proof.Machine.execDmaDescriptorDone bytes abort s
  | .dmaRingResume d => Sys2Proof.Machine.execDmaRingResume d s
  | .sequenceHeader => Sys2Proof.Machine.execSequenceHeader s
  | .frameHeader => Sys2Proof.Machine.execFrameHeader s
  | .planeAtlas => Sys2Proof.Machine.execPlaneAtlas s
  | .maskSection => Sys2Proof.Machine.execMaskSection s
  | .residualSet => Sys2Proof.Machine.execResidualSet s
  | .overlayCue => Sys2Proof.Machine.execOverlayCue s
  | .signatureCue => Sys2Proof.Machine.execSignatureCue s
  | .keyCue => Sys2Proof.Machine.execKeyCue s
  | .privateUnit => Sys2Proof.Machine.execPrivateUnit s
  | .refusedUnit => Sys2Proof.Machine.execRefusedUnit s
  | .pictureDecoded e r => Sys2Proof.Machine.execPictureDecoded e r s
  | .decodeDeadline f => Sys2Proof.Machine.execDecodeDeadline f s
  | .dpPicture d => Sys2Proof.Machine.execDpPicture d s
  | .dpTimingChange w h mhz bits enc curve limited => Sys2Proof.Machine.execDpTimingChange w h mhz bits enc curve limited s
  | .dpLinkLoss => Sys2Proof.Machine.execDpLinkLoss s
  | .lzcHeadWrite r v => Sys2Proof.Machine.execLzcHeadWrite r v s
  | .lzcRingStart r => Sys2Proof.Machine.execLzcRingStart r s
  | .lzcRingRestart r => Sys2Proof.Machine.execLzcRingRestart r s
  | .lzcRingStop r => Sys2Proof.Machine.execLzcRingStop r s
  | .lzcJobTake e => Sys2Proof.Machine.execLzcJobTake e s
  | .lzcJobEnd e => Sys2Proof.Machine.execLzcJobEnd e s
  | .lzcAbort r e key => Sys2Proof.Machine.execLzcAbort r e key s
  | .sinterFlattenStart region k0 k1 => Sys2Proof.Machine.execSinterFlattenStart region k0 k1 s
  | .sinterFlattenDone ref ok => Sys2Proof.Machine.execSinterFlattenDone ref ok s
  | .bufRegister r b data => Sys2Proof.Machine.execBufRegister r b data s
  | .guardedWrite blt a bytes => Sys2Proof.Machine.execGuardedWrite blt a bytes s
  | .heldWriteRelease => Sys2Proof.Machine.execHeldWriteRelease s
  | .guardExpiry => Sys2Proof.Machine.execGuardExpiry s
  | .calIndexWrite r data => Sys2Proof.Machine.execCalIndexWrite r data s
  | .readyTimeout => Sys2Proof.Machine.execReadyTimeout s
  | .bltHeadWrite r v => Sys2Proof.Machine.execBltHeadWrite r v s
  | .bltRingStart r => Sys2Proof.Machine.execBltRingStart r s
  | .bltRingRestart r => Sys2Proof.Machine.execBltRingRestart r s
  | .bltRingStop r => Sys2Proof.Machine.execBltRingStop r s
  | .nop => Sys2Proof.Machine.execNop s
  | .copy => Sys2Proof.Machine.execCopy s
  | .fill => Sys2Proof.Machine.execFill s
  | .draw => Sys2Proof.Machine.execDraw s
  | .bltCommandDone => Sys2Proof.Machine.execBltCommandDone s
  | .bltAbort r key => Sys2Proof.Machine.execBltAbort r key s
  | .cueDraw => Sys2Proof.Machine.execCueDraw s
  | .wmArm r w data => Sys2Proof.Machine.execWmArm r w data s
  | .launchHandover => Sys2Proof.Machine.execLaunchHandover s
  | .panelTempReading readings => Sys2Proof.Machine.execPanelTempReading readings s
  | .panelTempTimeout => Sys2Proof.Machine.execPanelTempTimeout s
  | .lensStep => Sys2Proof.Machine.execLensStep s
  | .rectSubmit r data => Sys2Proof.Machine.execRectSubmit r data s
  | .blankingStart crack vref volts => Sys2Proof.Machine.execBlankingStart crack vref volts s
  | .vcomErrorReport l => Sys2Proof.Machine.execVcomErrorReport l s
  | .patternSelect r data => Sys2Proof.Machine.execPatternSelect r data s
  | .powerFailWarning => Sys2Proof.Machine.execPowerFailWarning s
  | .railPowerGood ch mv ma => Sys2Proof.Machine.execRailPowerGood ch mv ma s
  | .railPgTimeout ch => Sys2Proof.Machine.execRailPgTimeout ch s
  | .railCmdOn r key readings => Sys2Proof.Machine.execRailCmdOn r key readings s
  | .railCmdOff r key => Sys2Proof.Machine.execRailCmdOff r key s
  | .railCmdRestart r key readings => Sys2Proof.Machine.execRailCmdRestart r key readings s
  | .railCmdRelearn r key => Sys2Proof.Machine.execRailCmdRelearn r key s
  | .dischargeStart atLineEnd => Sys2Proof.Machine.execDischargeStart atLineEnd s
  | .powerOffPhaseEnd => Sys2Proof.Machine.execPowerOffPhaseEnd s
  | .railFaultUv chs => Sys2Proof.Machine.execRailFaultUv chs s
  | .railFaultOc chs => Sys2Proof.Machine.execRailFaultOc chs s
  | .railFaultShort chs => Sys2Proof.Machine.execRailFaultShort chs s
  | .railFaultOv chs => Sys2Proof.Machine.execRailFaultOv chs s
  | .railFaultTemp chs => Sys2Proof.Machine.execRailFaultTemp chs s
  | .vcomOc region sink => Sys2Proof.Machine.execVcomOc region sink s
  | .railRetryTimer readings => Sys2Proof.Machine.execRailRetryTimer readings s
  | .retryCountReset => Sys2Proof.Machine.execRetryCountReset s
  | .loadTransferDone => Sys2Proof.Machine.execLoadTransferDone s
  | .crackTimer reading outer => Sys2Proof.Machine.execCrackTimer reading outer s
  | .laneDetectCheck j terminated => Sys2Proof.Machine.execLaneDetectCheck j terminated s
  | .laneTrainDone j eyes => Sys2Proof.Machine.execLaneTrainDone j eyes s
  | .laneTrainTimeout j => Sys2Proof.Machine.execLaneTrainTimeout j s
  | .laneLockDone j at_ => Sys2Proof.Machine.execLaneLockDone j at_ s
  | .laneExchange j offer => Sys2Proof.Machine.execLaneExchange j offer s
  | .laneFailedRetry j => Sys2Proof.Machine.execLaneFailedRetry j s
  | .eqTrackStep n post up => Sys2Proof.Machine.execEqTrackStep n post up s
  | .laneInvalidHeader n header ty => Sys2Proof.Machine.execLaneInvalidHeader n header ty s
  | .laneLinkLost j => Sys2Proof.Machine.execLaneLinkLost j s
  | .laneRetrain r key j => Sys2Proof.Machine.execLaneRetrain r key j s
  | .laneTest r key j => Sys2Proof.Machine.execLaneTest r key j s
  | .laneTestExit r key j => Sys2Proof.Machine.execLaneTestExit r key j s
  | .laneLoopWrite r n mode => Sys2Proof.Machine.execLaneLoopWrite r n mode s
  | .injectOne n => Sys2Proof.Machine.execInjectOne n s
  | .injectRate n k => Sys2Proof.Machine.execInjectRate n k s
  | .lanePowerDown j tx pwr agreed => Sys2Proof.Machine.execLanePowerDown j tx pwr agreed s
  | .laneWake j tx => Sys2Proof.Machine.execLaneWake j tx s
  | .memRequest c arrive pass => Sys2Proof.Machine.execMemRequest c arrive pass s
  | .rhWindowEnd => Sys2Proof.Machine.execRhWindowEnd s
  | .scrubRead addr ecc => Sys2Proof.Machine.execScrubRead addr ecc s
  | .pageIdleClose ch bank => Sys2Proof.Machine.execPageIdleClose ch bank s
  | .refreshDue ch postpone => Sys2Proof.Machine.execRefreshDue ch postpone s
  | .geyserBurst ch => Sys2Proof.Machine.execGeyserBurst ch s
  | .mr4Read ch code rate => Sys2Proof.Machine.execMr4Read ch code rate s
  | .eyeTrack ch r0 w0 r1 w1 centres => Sys2Proof.Machine.execEyeTrack ch r0 w0 r1 w1 centres s
  | .memFreqRequest v => Sys2Proof.Machine.execMemFreqRequest v s
  | .memFreqChangeStart => Sys2Proof.Machine.execMemFreqChangeStart s
  | .memFreqChangeDone => Sys2Proof.Machine.execMemFreqChangeDone s
  | .memUnfreeze r key c => Sys2Proof.Machine.execMemUnfreeze r key c s
  | .freezeCoreTimeout => Sys2Proof.Machine.execFreezeCoreTimeout s
  | .regionWrite r e k data => Sys2Proof.Machine.execRegionWrite r e k data s
  | .pairHello role serial => Sys2Proof.Machine.execPairHello role serial s
  | .roleSettle otherHolds port => Sys2Proof.Machine.execRoleSettle otherHolds port s
  | .driveGrantReport own => Sys2Proof.Machine.execDriveGrantReport own s
  | .heartbeatSend => Sys2Proof.Machine.execHeartbeatSend s
  | .heartbeat time sf state fit cause => Sys2Proof.Machine.execHeartbeat time sf state fit cause s
  | .heartbeatMiss => Sys2Proof.Machine.execHeartbeatMiss s
  | .pairAckSend => Sys2Proof.Machine.execPairAckSend s
  | .pairAck link seq => Sys2Proof.Machine.execPairAck link seq s
  | .pairResendTimeout link => Sys2Proof.Machine.execPairResendTimeout link s
  | .noticeFail cause => Sys2Proof.Machine.execNoticeFail cause s
  | .noticeHandover cause sf => Sys2Proof.Machine.execNoticeHandover cause sf s
  | .noticePanelFault cause => Sys2Proof.Machine.execNoticePanelFault cause s
  | .noticeMirrorDown cause => Sys2Proof.Machine.execNoticeMirrorDown cause s
  | .panelPortLostReport => Sys2Proof.Machine.execPanelPortLostReport s
  | .mirrorWrite off data => Sys2Proof.Machine.execMirrorWrite off data s
  | .mirrorStrobe value time target digest act => Sys2Proof.Machine.execMirrorStrobe value time target digest act s
  | .delta d => Sys2Proof.Machine.execDelta d s
  | .snapshot d digest => Sys2Proof.Machine.execSnapshot d digest s
  | .pairCmdHandover r key => Sys2Proof.Machine.execPairCmdHandover r key s
  | .pairCmdResync r key => Sys2Proof.Machine.execPairCmdResync r key s
  | .signatures sf sigs excused => Sys2Proof.Machine.execSignatures sf sigs excused s
  | .divergenceKat failed => Sys2Proof.Machine.execDivergenceKat failed s
  | .katResult tested failed => Sys2Proof.Machine.execKatResult tested failed s
  | .timePacket link k info => Sys2Proof.Machine.execTimePacket link k info s
  | .launchPacket anchor => Sys2Proof.Machine.execLaunchPacket anchor s
  | .mailboxPacket m word ack ret seq => Sys2Proof.Machine.execMailboxPacket m word ack ret seq s
  | .tephraPacket e => Sys2Proof.Machine.execTephraPacket e s
  | .arrayHello a x y valid letter serial => Sys2Proof.Machine.execArrayHello a x y valid letter serial s
  | .arrayStatus a src locked hops gm => Sys2Proof.Machine.execArrayStatus a src locked hops gm s
  | .arrayStatusSend => Sys2Proof.Machine.execArrayStatusSend s
  | .arrayBadPacket a => Sys2Proof.Machine.execArrayBadPacket a s
  | .arrayTimeExchange a => Sys2Proof.Machine.execArrayTimeExchange a s
  | .pairTimeExchange => Sys2Proof.Machine.execPairTimeExchange s
  | .ptpMessage port v6 m => Sys2Proof.Machine.execPtpMessage port v6 m s
  | .sourceTimeout => Sys2Proof.Machine.execSourceTimeout s
  | .timeCmdAccept r key => Sys2Proof.Machine.execTimeCmdAccept r key s
  | .timeCmdSlew r key => Sys2Proof.Machine.execTimeCmdSlew r key s
  | .timeCmdDiscard r key => Sys2Proof.Machine.execTimeCmdDiscard r key s
  | .slewDone => Sys2Proof.Machine.execSlewDone s
  | .ppsOutEdge => Sys2Proof.Machine.execPpsOutEdge s
  | .ppsInEdge => Sys2Proof.Machine.execPpsInEdge s
  | .timeLaunchWrite r short => Sys2Proof.Machine.execTimeLaunchWrite r short s
  | .timeLaunchFlush r data => Sys2Proof.Machine.execTimeLaunchFlush r data s
  | .tcxoTrim table => Sys2Proof.Machine.execTcxoTrim table s
  | .hostPortReset => Sys2Proof.Machine.execHostPortReset s
  | .functionLevelReset => Sys2Proof.Machine.execFunctionLevelReset s
  | .bar2Access off len data ecc => Sys2Proof.Machine.execBar2Access off len data ecc s
  | .ethFrame p f => Sys2Proof.Machine.execEthFrame p f s
  | .cageRetrainDone k links => Sys2Proof.Machine.execCageRetrainDone k links s
  | .qsfpPlug k plugged => Sys2Proof.Machine.execQsfpPlug k plugged s
  | .previewFrame => Sys2Proof.Machine.execPreviewFrame s
  | .previewCaptureDone => Sys2Proof.Machine.execPreviewCaptureDone s
  | .mbxPost p m word => Sys2Proof.Machine.execMbxPost p m word s
  | .mbxAck p m ret => Sys2Proof.Machine.execMbxAck p m ret s
  | .mbxWithdraw p m => Sys2Proof.Machine.execMbxWithdraw p m s
  | .cmdPersLoad => Sys2Proof.Machine.execCmdPersLoad s
  | .cmdPersActivate => Sys2Proof.Machine.execCmdPersActivate s
  | .cmdHealth => Sys2Proof.Machine.execCmdHealth s
  | .cmdKeyLoad => Sys2Proof.Machine.execCmdKeyLoad s
  | .cmdAttest => Sys2Proof.Machine.execCmdAttest s
  | .cmdCalibrate => Sys2Proof.Machine.execCmdCalibrate s
  | .cmdTephraExport => Sys2Proof.Machine.execCmdTephraExport s
  | .cmdRole => Sys2Proof.Machine.execCmdRole s
  | .cmdKeyEnroll => Sys2Proof.Machine.execCmdKeyEnroll s
  | .cmdDebugChallenge => Sys2Proof.Machine.execCmdDebugChallenge s
  | .cmdRestart => Sys2Proof.Machine.execCmdRestart s
  | .cmdBoot slot0 slot1 => Sys2Proof.Machine.execCmdBoot slot0 slot1 s
  | .cmdUnknown m => Sys2Proof.Machine.execCmdUnknown m s
  | .lockClaim p k => Sys2Proof.Machine.execLockClaim p k s
  | .lockRelease p k => Sys2Proof.Machine.execLockRelease p k s
  | .svnCommitFw r key => Sys2Proof.Machine.execSvnCommitFw r key s
  | .svnCommitPers r key => Sys2Proof.Machine.execSvnCommitPers r key s
  | .svnCommitDone => Sys2Proof.Machine.execSvnCommitDone s
  | .dbgSubmit r key => Sys2Proof.Machine.execDbgSubmit r key s
  | .dbgLock r key => Sys2Proof.Machine.execDbgLock r key s
  | .challengeExpiry => Sys2Proof.Machine.execChallengeExpiry s
  | .keyExpiry n => Sys2Proof.Machine.execKeyExpiry n s
  | .sensorSample l => Sys2Proof.Machine.execSensorSample l s
  | .thermalCut n reading => Sys2Proof.Machine.execThermalCut n reading s
  | .restartAllowed => Sys2Proof.Machine.execRestartAllowed s
  | .sensRearm r key n => Sys2Proof.Machine.execSensRearm r key n s
  | .vcoreLoop want => Sys2Proof.Machine.execVcoreLoop want s
  | .calReq r key mask => Sys2Proof.Machine.execCalReq r key mask s
  | .calSchedule => Sys2Proof.Machine.execCalSchedule s
  | .calRunDone k => Sys2Proof.Machine.execCalRunDone k s
  | .calTimeout k => Sys2Proof.Machine.execCalTimeout k s
  | .tephraWrite => Sys2Proof.Machine.execTephraWrite s
  | .tephraLostEntry => Sys2Proof.Machine.execTephraLostEntry s
  | .tephFreeze r key => Sys2Proof.Machine.execTephFreeze r key s
  | .tephResume r key => Sys2Proof.Machine.execTephResume r key s
  | .tephClear r key => Sys2Proof.Machine.execTephClear r key s
  | .tephraSave => Sys2Proof.Machine.execTephraSave s
  | .corrSummary => Sys2Proof.Machine.execCorrSummary s
  | .alertTimeout => Sys2Proof.Machine.execAlertTimeout s
  | .aoSupplyFall => Sys2Proof.Machine.execAoSupplyFall s
  | .mainsReturn => Sys2Proof.Machine.execMainsReturn s
  | .ethLinkChange p up => Sys2Proof.Machine.execEthLinkChange p up s
  | .hostLinkUp gen width => Sys2Proof.Machine.execHostLinkUp gen width s
  | .dpLinkTrained rate lanes => Sys2Proof.Machine.execDpLinkTrained rate lanes s
  | .hdcpStateChange v => Sys2Proof.Machine.execHdcpStateChange v s
  | .dptxHotplug hpd rate lanes ten edid => Sys2Proof.Machine.execDptxHotplug hpd rate lanes ten edid s
  | .ptpAnnounceTimeout => Sys2Proof.Machine.execPtpAnnounceTimeout s
  | .dhcpLeaseTimer p renewed expired => Sys2Proof.Machine.execDhcpLeaseTimer p renewed expired s
  | .standbyRailSense panelUp => Sys2Proof.Machine.execStandbyRailSense panelUp s
  | .railConverterCooled ch => Sys2Proof.Machine.execRailConverterCooled ch s

end Sys2Proof.Machine
end

