-- ==== Sys2Proof/Safety.lean ====
section
/-!
DEFINITION. What counts as a safe state and a safe run: the sparse registers, staged values and module DRAM keep their canonical form, and
no run ends in a fault or a refusal.
-/

namespace Sys2Proof

open Sys2Proof.Machine

/-- The memories of a state keep their canonical form. -/
def State.memoriesWf (s : Machine.State) : Bool :=
  Sparse.wf resetWord s.regs && Sparse.wf resetWord s.staged && Sparse.wf dramDefault s.dram

/-- The parts of a state beside the registers in effect and the queue; what the module sends goes with its lane transmitters. -/
inductive Part where
  | staged | rst | bus | strobes | pins | teph | nv | rail | pair | pseq | lane | mem | pers | fab | care | otp | thm | comp
  | view | intk | lzc | blt | dram | time | array | host | sec | freeCtr | out
  deriving DecidableEq, Repr

/-- A part's number. -/
def Part.num : Part → Nat
  | .staged => 0 | .rst => 1 | .bus => 2 | .strobes => 3 | .pins => 4 | .teph => 5 | .nv => 6 | .rail => 7 | .pair => 8
  | .pseq => 9 | .lane => 10 | .mem => 11 | .pers => 12 | .fab => 13 | .care => 14 | .otp => 15 | .thm => 16 | .comp => 17
  | .view => 18 | .intk => 19 | .lzc => 20 | .blt => 21 | .dram => 22 | .time => 23 | .array => 24 | .host => 25 | .sec => 26
  | .freeCtr => 27 | .out => 28

/-- Whether a part is the same in both states. -/
def Part.same (p : Part) (s t : Machine.State) : Prop :=
  match p with
  | .staged => t.staged = s.staged | .rst => t.rst = s.rst | .bus => t.bus = s.bus | .strobes => t.strobes = s.strobes
  | .pins => t.pins = s.pins | .teph => t.teph = s.teph | .nv => t.nv = s.nv | .rail => t.rail = s.rail | .pair => t.pair = s.pair
  | .pseq => t.pseq = s.pseq | .lane => t.lane = s.lane | .mem => t.mem = s.mem | .pers => t.pers = s.pers | .fab => t.fab = s.fab
  | .care => t.care = s.care | .otp => t.otp = s.otp | .thm => t.thm = s.thm | .comp => t.comp = s.comp | .view => t.view = s.view
  | .intk => t.intk = s.intk | .lzc => t.lzc = s.lzc | .blt => t.blt = s.blt | .dram => t.dram = s.dram | .time => t.time = s.time
  | .array => t.array = s.array | .host => t.host = s.host | .sec => t.sec = s.sec | .freeCtr => t.freeCtr = s.freeCtr
  | .out => (t.out, t.wires) = (s.out, s.wires)

/-- Whether an offset is a word of some element of the field's register. -/
def Machine.Fld.covers (f : Fld) (k : Nat) : Prop :=
  ∃ i j, f.inRange i j ∧ (k = f.off i j ∨ (32 < f.lsb + f.width ∧ k = f.off i j + 4))

/-- The registers with staged fields, which strobes copy (R81), and those a snapshot carries (R452). -/
def sharedWord (k : Nat) : Bool :=
  inSnapshot k || (match regAt k with | some (r, _, _) => decide (r.rws ≠ 0) | none => false)

/-! ### What a command may change -/

/-- Which registers a command may write: those it names, also every register with staged fields or of a snapshot, or any, as when it
writes a register by its address or resets the module. -/
inductive Extent where
  | own | shared | every
  deriving DecidableEq, Repr

/-- What a command may change: registers, in every element of an array, and parts of the state. -/
structure Reach where
  written : Extent
  regs : List Fld
  parts : List Part
  deriving DecidableEq, Repr

/-- Whether a command may write the word at an offset. -/
def Reach.covers (r : Reach) (k : Nat) : Prop :=
  match r.written with
  | .own => ∃ f ∈ r.regs, f.covers k
  | .shared => sharedWord k = true ∨ ∃ f ∈ r.regs, f.covers k
  | .every => True

/-- The registers of an event beside its own: the losses of the tephra record with their flag, and the pending bits of MSI-X (R91,
R573); the parts: the tephra record, the free values, what is sent. -/
def eventRegs : List Fld := [R.TEPH_LOST, R.TEPH_IRQ_STATUS, R.HOST_MSIX_PBA]
def eventParts : List Part := [.teph, .freeCtr, .out]

/-- The registers of a command the caretaker answers (R515, Table 18.3). -/
def answerRegs : List Fld :=
  [R.CARE_MBX_DATA, R.CARE_MBX_STAT, R.CARE_MBX_COUNT, R.CARE_RES, R.CARE_RES_TAG, R.CARE_IRQ_STATUS]

/-- The registers of a swap of planes and of a migration (R119 to R128). -/
def swapRegs : List Fld :=
  [R.PERS_STATE, R.PERS_IRQ_STATUS, R.FAB_TILE_STAT, R.FAB_TILE_CLK, R.FAB_TILE_BUDGET, R.FAB_STAT, R.FAB_MIG_LAST,
  R.FAB_IRQ_STATUS]

/-- Every part but those listed. -/
def allBut (l : List Part) : List Part :=
  [.staged, .rst, .bus, .strobes, .pins, .teph, .nv, .rail, .pair, .pseq, .lane, .mem, .pers, .fab, .care, .otp, .thm, .comp, .view, .intk,
    .lzc, .blt, .dram, .time, .array, .host, .sec, .freeCtr, .out].filter (fun p => !l.contains p)

/-- What each command may change beside the queue. -/
def Instr.reach : Instr → Reach
  | .porAssert .. | .mainsReturn .. =>
    ⟨.every, [],
      allBut []⟩
  | .resetPin .. | .tamperEvent .. | .watchdogExpiry .. | .rstReqSys .. =>
    ⟨.own, eventRegs ++ [R.RST_CAUSE, R.RAIL_STAT, R.RAIL_IRQ_STATUS],
      [.rst, .teph, .rail, .pair, .pseq, .out]⟩
  | .rstReqCore .. | .fabricFatal .. =>
    ⟨.own, eventRegs ++ [R.RST_CAUSE],
      [.rst, .teph, .pair, .out]⟩
  | .sysTakesHold .. =>
    ⟨.every, [],
      allBut []⟩
  | .coreTakesHold .. =>
    ⟨.every, [],
      allBut [.otp]⟩
  | .resetRelease .. =>
    ⟨.every, [],
      allBut []⟩
  | .trimLoadDone .. =>
    ⟨.every, [],
      allBut []⟩
  | .firmwareVerifyDone .. | .hostBootTimeout .. =>
    ⟨.own, eventRegs ++ [R.RST_STAGE, R.CARE_STAT, R.CARE_MBX_DATA, R.CARE_MBX_STAT, R.CARE_MBX_COUNT, R.CARE_IRQ_STATUS, R.SEC_STAT, R.SEC_FW_SVN,
      R.SEC_FW_DIGEST, R.SEC_HSS_INDEX, R.SEC_HSS_LEFT, R.SEC_IRQ_STATUS, R.RAIL_CRACK_MEAS, R.MEM_C_STAT, R.TEPH_STAT],
      eventParts ++ [.rst, .pins, .pair, .care, .otp, .sec]⟩
  | .dramTrainingDone .. =>
    ⟨.own, eventRegs ++ [R.RST_CAUSE, R.RST_STAGE, R.CARE_MBX_DATA, R.CARE_MBX_STAT, R.CARE_MBX_COUNT, R.CARE_IRQ_STATUS, R.RAIL_STAT,
      R.RAIL_IRQ_STATUS, R.MEM_C_STAT, R.MEM_CH_STAT, R.MEM_CH_EYE, R.MEM_MAP, R.MEM_SIZE, R.MEM_HOST],
      eventParts ++ [.rst, .pins, .rail, .pair, .pseq, .mem, .care]⟩
  | .dramInitDone .. =>
    ⟨.own, eventRegs ++ [R.PSEQ_UNIF, R.PSEQ_UNIF_STAT, R.PSEQ_UNIF_BYTES, R.PSEQ_IRQ_STATUS, R.MEM_C_STAT, R.MEM_FREE, R.MEM_REGION_BASE,
      R.MEM_REGION_LIMIT, R.MEM_REGION_ATTR],
      eventParts ++ [.staged, .nv, .pseq, .mem, .dram]⟩
  | .panelDescriptorVerified .. =>
    ⟨.own, eventRegs ++ [R.RST_STAGE, R.INTK_CTRL, R.COMP_PANEL_RANGE, R.PSEQ_VTIME2, R.PSEQ_VCOM, R.PSEQ_BAND, R.PSEQ_PANEL_SIZE, R.PSEQ_PANEL_CAP,
      R.PSEQ_PANEL_SERIAL, R.PSEQ_OD, R.PSEQ_LENSWAVE],
      eventParts ++ [.staged, .rst, .pins, .pseq, .intk, .sec]⟩
  | .panelRetryTimer .. =>
    ⟨.own, [],
      [.rst]⟩
  | .baselineLoad .. =>
    ⟨.own, eventRegs ++ answerRegs ++ [R.RST_STAGE, R.PERS_STATE, R.PERS_LAST, R.PERS_IRQ_STATUS, R.PERS_SLOT_STAT, R.PERS_SLOT_ERR_OFFSET, R.PERS_SLOT_ID,
      R.PERS_SLOT_FMT, R.PERS_SLOT_COVER, R.PERS_SLOT_SV, R.FAB_TILE_STAT, R.FAB_TILE_KAT, R.FAB_STAT],
      eventParts ++ [.pins, .pair, .pers, .fab, .care, .dram]⟩
  | .ethBringup .. =>
    ⟨.own, eventRegs ++ [R.RST_STAGE, R.INTK_CTRL, R.ETH_CAGE_CTRL, R.ETH_PORT_STAT, R.ETH_IRQ_STATUS],
      eventParts ++ [.staged, .rst, .pins, .intk, .host]⟩
  | .dhcpTimeout .. | .dhcpLeaseTimer .. =>
    ⟨.own, [R.ETH_PORT_STAT],
      [.host]⟩
  | .inputIdleTimeout .. =>
    ⟨.own, [R.PSEQ_PATTERN],
      [.intk]⟩
  | .registerWrite .. | .pairLoWrite .. | .pairHiWrite .. | .pairAccess64 .. | .heldWriteRelease .. | .guardExpiry .. |
    .memFreqChangeDone .. | .mirrorWrite .. =>
    ⟨.every, [],
      allBut [.otp, .view, .host]⟩
  | .pairLoRead .. | .pairHiRead .. =>
    ⟨.own, eventRegs ++ [R.CTL_BUSERR_ADDR, R.CTL_BUSERR_INFO, R.CTL_BUSERR_COUNT, R.CTL_IRQ_STATUS],
      [.bus, .teph, .comp, .out]⟩
  | .updateImmediate .. | .updateNextSubframe .. | .updateNextFrame .. | .updateAtTime .. =>
    ⟨.own, eventRegs ++ [R.CTL_UPDATE_STAT, R.CTL_UPDATE_LATE, R.CTL_IRQ_STATUS, R.COMP_BUF_STAT, R.COMP_BUF_RELEASE_SEQ, R.PAIR_DROP,
      R.PAIR_DROP_ADDR],
      [.strobes, .teph, .pair, .comp, .out]⟩
  | .strobeApply .. =>
    ⟨.shared, eventRegs ++ [R.CTL_UPDATE_STAT, R.CTL_IRQ_STATUS, R.TIME_STAT, R.TIME_IRQ_STATUS, R.VIEW_STEER, R.VIEW_IRQ_STATUS, R.INTK_STAT,
      R.INTK_IRQ_STATUS, R.INTK_KEY_STAT, R.TDEC_STAT, R.COMP_TONE_EFF, R.COMP_OVLY_STAT, R.COMP_BUF_STAT, R.COMP_BUF_RELEASE_SEQ,
      R.COMP_IRQ_STATUS, R.COMP_SIG_CFG, R.COMP_SIG_RECT_XY, R.COMP_SIG_RECT_WH, R.COMP_SIG_EXPECT, R.PSEQ_EVENTS,
      R.PSEQ_IRQ_STATUS, R.LANE_STAT, R.LANE_EQ_EFF, R.LANE_GRP_STAT, R.LANE_GRP_EVENT, R.LANE_IRQ_STATUS, R.LANE_PANEL,
      R.ARRAY_IRQ_STATUS, R.ETH_PORT_STAT, R.ETH_IRQ_STATUS, R.DPRX_STAT, R.DPRX_IRQ_STATUS, R.DPTX_STAT, R.PREV_STAT],
      eventParts ++ [.strobes, .pseq, .lane, .comp, .view, .intk, .blt, .time, .array, .host]⟩
  | .msixPendingSend .. =>
    ⟨.own, [R.HOST_MSIX_PBA],
      [.host, .out]⟩
  | .subframeLaunch .. =>
    ⟨.shared, eventRegs ++ [R.CTL_UPDATE_STAT, R.CTL_IRQ_STATUS, R.RST_STAGE, R.CAL_STAT, R.TIME_STAT, R.TIME_LAUNCH_LAST, R.TIME_IRQ_STATUS,
      R.FAB_TILE_CLK, R.FAB_TILE_BUDGET, R.VIEW_STEER, R.VIEW_BAND, R.VIEW_IRQ_STATUS, R.INTK_CTRL, R.INTK_STAT, R.INTK_IRQ_STATUS,
      R.INTK_KEY_STAT, R.TDEC_STAT, R.COMP_TONE_EFF, R.COMP_OVLY_STAT, R.COMP_BUF_STAT, R.COMP_BUF_RELEASE_SEQ, R.COMP_IRQ_STATUS,
      R.COMP_SIG_CFG, R.COMP_SIG_RECT_XY, R.COMP_SIG_RECT_WH, R.COMP_SIG_EXPECT, R.PSEQ_ANCHOR, R.PSEQ_STAT, R.PSEQ_SF,
      R.PSEQ_TEMP, R.PSEQ_EVENTS, R.PSEQ_PATTERN, R.PSEQ_UNIF_STAT, R.PSEQ_RECT_STAT, R.PSEQ_MODE, R.PSEQ_IRQ_STATUS, R.RAIL_STAT,
      R.RAIL_IRQ_STATUS, R.LANE_STAT, R.LANE_EQ_EFF, R.LANE_GRP_STAT, R.LANE_GRP_EVENT, R.LANE_IRQ_STATUS, R.LANE_PANEL,
      R.PAIR_STAT, R.PAIR_COUNT, R.PAIR_LAST, R.PAIR_IRQ_STATUS, R.ARRAY_IRQ_STATUS, R.ETH_PORT_STAT, R.ETH_IRQ_STATUS,
      R.DPRX_STAT, R.DPRX_IRQ_STATUS, R.DPTX_STAT, R.PREV_STAT],
      eventParts ++ [.staged, .rst, .strobes, .pins, .rail, .pair, .pseq, .lane, .fab, .thm, .comp, .view, .intk, .blt, .time, .array, .host]⟩
  | .fabricFrameStart .. =>
    ⟨.shared, eventRegs ++ answerRegs ++ swapRegs ++ [R.CTL_UPDATE_STAT, R.CTL_IRQ_STATUS, R.RST_STAGE, R.TIME_STAT, R.TIME_IRQ_STATUS, R.PERS_LAST, R.PERS_PARAM,
      R.PERS_SLOT_STAT, R.FAB_TILE_HEALTH, R.FAB_MIG_COUNT, R.VIEW_MODE, R.VIEW_MODE_EFF, R.VIEW_REFUSE, R.VIEW_LENS, R.VIEW_STEER,
      R.VIEW_DEPTH_COUNT, R.VIEW_RESID, R.VIEW_BAND, R.VIEW_IRQ_STATUS, R.VIEW_DEPTH_Z, R.VIEW_DEPTH_ORG_X, R.VIEW_DEPTH_ORG_Y,
      R.VIEW_DEPTH_SCALE, R.VIEW_DEPTH_SIZE, R.VIEW_DEPTH_FLAGS, R.INTK_CTRL, R.INTK_STAT, R.INTK_CONCEAL, R.INTK_IRQ_STATUS,
      R.INTK_KEY_STAT, R.TDEC_STAT, R.COMP_SEQ, R.COMP_SEQ_DONE, R.COMP_STAT, R.COMP_STATIC_TILES, R.COMP_SINTER_STAT,
      R.COMP_SINTER_COUNT, R.COMP_SINTER_CAP, R.COMP_TONE_EFF, R.COMP_SAFE_STAT, R.COMP_OVLY_CFG, R.COMP_OVLY_STAT,
      R.COMP_BUF_STAT, R.COMP_BUF_RELEASE_SEQ, R.COMP_IRQ_STATUS, R.COMP_SIG_CFG, R.COMP_SIG_RECT_XY, R.COMP_SIG_RECT_WH,
      R.COMP_SIG_EXPECT, R.COMP_SIG_STAT, R.BLT_CUE, R.BLT_IRQ_STATUS, R.PSEQ_TEMP, R.PSEQ_EVENTS, R.PSEQ_MODE, R.PSEQ_IRQ_STATUS,
      R.LANE_STAT, R.LANE_EQ_EFF, R.LANE_GRP_STAT, R.LANE_GRP_EVENT, R.LANE_IRQ_STATUS, R.LANE_PANEL, R.MEM_FREE, R.PAIR_STAT,
      R.PAIR_FIT, R.PAIR_IRQ_STATUS, R.ARRAY_IRQ_STATUS, R.ETH_PORT_STAT, R.ETH_IRQ_STATUS, R.DPRX_STAT, R.DPRX_IRQ_STATUS,
      R.DPTX_STAT, R.PREV_STAT],
      eventParts ++ [.staged, .strobes, .pins, .pair, .pseq, .lane, .pers, .fab, .care, .comp, .view, .intk, .lzc, .blt, .dram, .time, .array,
      .host]⟩
  | .viewCtrlWrite .. =>
    ⟨.own, eventRegs ++ [R.VIEW_CTRL, R.PAIR_DROP, R.PAIR_DROP_ADDR],
      [.teph, .pair, .out]⟩
  | .persSlotLoad .. =>
    ⟨.own, [R.PERS_STATE, R.PERS_SLOT_STAT, R.PERS_SLOT_ID, R.PERS_SLOT_FMT, R.PERS_SLOT_COVER, R.PERS_SLOT_SV],
      [.pers]⟩
  | .persSlotPreload .. =>
    ⟨.own, [R.PERS_STATE, R.PERS_SLOT_STAT],
      [.pers]⟩
  | .persSlotEvict .. =>
    ⟨.own, [R.PERS_STATE, R.PERS_SLOT_STAT, R.PERS_SLOT_ERR_OFFSET, R.PERS_SLOT_ID, R.PERS_SLOT_FMT, R.PERS_SLOT_COVER, R.PERS_SLOT_SV],
      [.pers]⟩
  | .persLoadBegin .. =>
    ⟨.own, eventRegs ++ answerRegs ++ [R.PERS_STATE, R.PERS_SLOT_STAT, R.PERS_SLOT_ID, R.PERS_SLOT_FMT, R.PERS_SLOT_COVER, R.PERS_SLOT_SV],
      eventParts ++ [.pair, .pers, .care]⟩
  | .persLoadDone .. =>
    ⟨.own, eventRegs ++ answerRegs ++ [R.PERS_STATE, R.PERS_IRQ_STATUS, R.PERS_SLOT_STAT, R.PERS_SLOT_ERR_OFFSET, R.PERS_SLOT_ID, R.PERS_SLOT_FMT,
      R.PERS_SLOT_COVER, R.PERS_SLOT_SV],
      eventParts ++ [.pair, .pers, .care, .dram]⟩
  | .persPreloadDone .. =>
    ⟨.own, eventRegs ++ answerRegs ++ swapRegs ++ [R.RST_CAUSE, R.RST_STAGE, R.PERS_LAST, R.PERS_SLOT_STAT, R.RAIL_STAT, R.RAIL_IRQ_STATUS],
      eventParts ++ [.rst, .pins, .rail, .pair, .pseq, .pers, .fab, .care]⟩
  | .persActNextFrame .. | .persActAtTime .. | .cmdPersActivate .. =>
    ⟨.own, eventRegs ++ answerRegs ++ [R.PERS_STATE, R.PERS_LAST, R.PERS_IRQ_STATUS, R.PERS_SLOT_STAT, R.PAIR_DROP, R.PAIR_DROP_ADDR],
      eventParts ++ [.pair, .pers, .care]⟩
  | .persActCancel .. =>
    ⟨.own, eventRegs ++ answerRegs ++ [R.PERS_STATE, R.PAIR_DROP, R.PAIR_DROP_ADDR],
      eventParts ++ [.pair, .pers, .care]⟩
  | .actSlip .. =>
    ⟨.own, eventRegs ++ [R.PERS_STATE, R.PERS_IRQ_STATUS, R.FAB_STAT],
      eventParts ++ [.pers, .fab]⟩
  | .boundaryTokenArrive .. | .subframeTokenArrive .. | .drainMarkerArrive .. | .tokenForwardRetry .. | .endThread .. =>
    ⟨.own, eventRegs ++ answerRegs ++ swapRegs ++ [R.RST_CAUSE, R.PERS_LAST, R.PERS_CONTENTION, R.PERS_SLOT_STAT, R.FAB_TILE_HEALTH, R.FAB_MIG_COUNT],
      eventParts ++ [.rst, .pins, .pair, .pers, .fab, .care]⟩
  | .swapTimeout .. =>
    ⟨.own, eventRegs ++ swapRegs ++ [R.RST_CAUSE, R.FAB_MIG_COUNT],
      eventParts ++ [.rst, .pins, .pair, .pers, .fab]⟩
  | .tokenDispatch .. | .threadStartHeld .. | .flitPoison .. =>
    ⟨.own, eventRegs ++ answerRegs ++ swapRegs ++ [R.RST_CAUSE, R.PERS_LAST, R.PERS_CONTENTION, R.PERS_SLOT_STAT, R.FAB_TILE_HEALTH, R.FAB_TILE_TOKENS, R.FAB_TILE_DROP,
      R.FAB_TILE_ERRX, R.FAB_TILE_EVENT, R.FAB_MIG_COUNT],
      eventParts ++ [.rst, .pins, .pair, .pers, .fab, .care]⟩
  | .add .. | .sub .. | .mul .. | .and .. | .or .. | .xor .. | .shift .. | .ldi .. | .fstep .. | .sample .. | .st .. | .br .. |
    .wait .. | .const .. | .budget .. | .param .. =>
    ⟨.own, [],
      [.fab]⟩
  | .laneSampleDone .. =>
    ⟨.own, [],
      [.fab, .out]⟩
  | .ld .. =>
    ⟨.own, [],
      [.fab, .freeCtr]⟩
  | .emit .. =>
    ⟨.own, [R.FAB_TILE_DROP, R.FAB_TILE_EVENT, R.FAB_IRQ_STATUS, R.HOST_MSIX_PBA],
      [.fab, .out]⟩
  | .badOp .. | .tileUncorrectable .. =>
    ⟨.own, eventRegs ++ answerRegs ++ swapRegs ++ [R.RST_CAUSE, R.PERS_LAST, R.PERS_CONTENTION, R.PERS_SLOT_STAT, R.FAB_TILE_HEALTH, R.FAB_TILE_DROP, R.FAB_TILE_EVENT,
      R.FAB_MIG_COUNT],
      eventParts ++ [.rst, .pins, .pair, .pers, .fab, .care]⟩
  | .droopDetect .. | .marginAlarm .. =>
    ⟨.own, [R.FAB_TILE_MARGIN],
      [.fab]⟩
  | .quadVoltageLoop .. =>
    ⟨.own, [R.FAB_TILE_CLK, R.FAB_IRQ_STATUS, R.FAB_QUAD_VOLT, R.FAB_QUAD_FREQ, R.FAB_QUAD_LIMIT, R.HOST_MSIX_PBA],
      [.fab, .out]⟩
  | .eccCorrect .. =>
    ⟨.own, [R.FAB_TILE_ERR],
      [.fab]⟩
  | .cacheRefetch .. =>
    ⟨.own, [R.FAB_TILE_ERR],
      [.fab, .out]⟩
  | .residueRetry .. =>
    ⟨.own, eventRegs ++ answerRegs ++ swapRegs ++ [R.RST_CAUSE, R.PERS_LAST, R.PERS_CONTENTION, R.PERS_SLOT_STAT, R.FAB_TILE_HEALTH, R.FAB_TILE_ERR, R.FAB_TILE_DROP,
      R.FAB_TILE_EVENT, R.FAB_MIG_COUNT],
      eventParts ++ [.rst, .pins, .pair, .pers, .fab, .care]⟩
  | .spareKat .. =>
    ⟨.own, eventRegs ++ [R.RST_CAUSE, R.PERS_STATE, R.FAB_TILE_STAT, R.FAB_TILE_CLK, R.FAB_TILE_BUDGET, R.FAB_TILE_EVENT, R.FAB_TILE_KAT, R.FAB_STAT,
      R.FAB_MIG_COUNT, R.FAB_MIG_LAST, R.FAB_IRQ_STATUS],
      eventParts ++ [.rst, .pins, .pair, .pers, .fab]⟩
  | .tileCtrlKat .. | .corrSummary .. =>
    ⟨.own, eventRegs,
      [.teph, .fab, .out]⟩
  | .tileCtrlMigrate .. =>
    ⟨.own, eventRegs ++ answerRegs ++ swapRegs ++ [R.RST_CAUSE, R.PERS_LAST, R.PERS_CONTENTION, R.PERS_SLOT_STAT, R.FAB_MIG_COUNT],
      eventParts ++ [.rst, .pins, .pair, .pers, .fab, .care]⟩
  | .tileInject .. =>
    ⟨.own, eventRegs ++ answerRegs ++ swapRegs ++ [R.RST_CAUSE, R.PERS_LAST, R.PERS_CONTENTION, R.PERS_SLOT_STAT, R.FAB_TILE_HEALTH, R.FAB_TILE_ERR, R.FAB_TILE_MARGIN,
      R.FAB_TILE_DROP, R.FAB_TILE_EVENT, R.FAB_MIG_COUNT],
      eventParts ++ [.rst, .pins, .pair, .pers, .fab, .care]⟩
  | .migrationCopyDone .. =>
    ⟨.own, eventRegs ++ [R.RST_CAUSE, R.PERS_STATE, R.PERS_PARTIAL_COUNT, R.FAB_TILE_STAT, R.FAB_TILE_CLK, R.FAB_TILE_BUDGET, R.FAB_STAT,
      R.FAB_MIG_COUNT, R.FAB_MIG_LAST, R.FAB_IRQ_STATUS],
      [.rst, .pins, .teph, .pair, .pers, .fab, .out]⟩
  | .migrationRedirect .. =>
    ⟨.own, eventRegs ++ [R.PERS_STATE, R.FAB_TILE_STAT, R.FAB_TILE_HEALTH, R.FAB_TILE_CLK, R.FAB_TILE_BUDGET, R.FAB_STAT, R.FAB_MIG_COUNT,
      R.FAB_MIG_LAST, R.FAB_IRQ_STATUS],
      [.teph, .pers, .fab, .out]⟩
  | .migrationDrainDone .. =>
    ⟨.own, eventRegs ++ [R.PERS_STATE, R.FAB_TILE_STAT, R.FAB_STAT, R.FAB_MIG_COUNT, R.FAB_MIG_LAST, R.FAB_IRQ_STATUS],
      [.teph, .pers, .fab, .out]⟩
  | .drainTimeout .. =>
    ⟨.own, eventRegs ++ [R.PERS_STATE, R.FAB_TILE_STAT, R.FAB_TILE_EVENT, R.FAB_STAT, R.FAB_MIG_COUNT, R.FAB_MIG_LAST, R.FAB_IRQ_STATUS],
      eventParts ++ [.pers, .fab]⟩
  | .rowBandComplete .. =>
    ⟨.own, [R.FAB_TILE_BUDGET, R.VIEW_RAYS, R.VIEW_CUT, R.VIEW_BLACK, R.VIEW_BAND, R.BLT_WM_CFG, R.BLT_WM_STAT, R.BLT_IRQ_STATUS,
      R.HOST_MSIX_PBA],
      [.pseq, .fab, .comp, .view, .blt, .host, .out]⟩
  | .rowBandDeadline .. =>
    ⟨.own, eventRegs ++ [R.FAB_TILE_BUDGET, R.FAB_TILE_ERRX, R.FAB_TILE_EVENT, R.FAB_IRQ_STATUS, R.VIEW_RAYS, R.VIEW_CUT, R.VIEW_BLACK, R.VIEW_BAND,
      R.VIEW_IRQ_STATUS, R.BLT_WM_CFG, R.BLT_WM_STAT, R.BLT_IRQ_STATUS, R.PSEQ_STAT, R.PSEQ_RECT_STAT, R.LANE_STAT,
      R.LANE_GRP_STAT, R.PAIR_FIT, R.PAIR_DIV, R.PAIR_EXCUSED, R.PAIR_IRQ_STATUS],
      [.teph, .pair, .pseq, .fab, .comp, .view, .blt, .host, .out]⟩
  | .signatureCheck .. =>
    ⟨.own, eventRegs ++ [R.COMP_IRQ_STATUS, R.COMP_SIG_MISMATCH, R.COMP_SIG_EXPECT, R.COMP_SIG_LAST, R.COMP_SIG_STAT],
      eventParts ++ [.staged, .comp]⟩
  | .sigLearn .. | .safeRelease .. | .safeForce .. =>
    ⟨.own, eventRegs ++ [R.PAIR_DROP, R.PAIR_DROP_ADDR],
      [.teph, .pair, .comp, .out]⟩
  | .rtpPacket .. =>
    ⟨.own, [R.INTK_STAT, R.INTK_SSRC, R.INTK_CONCEAL, R.INTK_IRQ_STATUS, R.HOST_MSIX_PBA],
      [.intk, .out]⟩
  | .ssrcTimeout .. =>
    ⟨.own, [R.INTK_STAT, R.INTK_IRQ_STATUS, R.HOST_MSIX_PBA],
      [.intk, .out]⟩
  | .dmaHeadWrite .. =>
    ⟨.own, [R.INTK_DMA_HEAD, R.INTK_DMA_STAT, R.INTK_IRQ_STATUS, R.HOST_MSIX_PBA],
      [.out]⟩
  | .dmaStart .. | .dmaRestart .. | .dmaStop .. =>
    ⟨.own, [R.INTK_DMA_STAT],
      []⟩
  | .dmaDescriptorProcess .. | .dmaRingResume .. =>
    ⟨.own, [R.INTK_DMA_TAIL, R.INTK_DMA_STAT, R.INTK_IRQ_STATUS, R.HOST_MSIX_PBA],
      [.intk, .out]⟩
  | .dmaDescriptorDone .. =>
    ⟨.own, [R.INTK_DMA_TAIL, R.INTK_DMA_STAT, R.INTK_CONCEAL, R.INTK_IRQ_STATUS, R.HOST_MSIX_PBA],
      [.intk, .out]⟩
  | .sequenceHeader .. =>
    ⟨.own, eventRegs ++ answerRegs ++ [R.PERS_STATE, R.PERS_LAST, R.PERS_IRQ_STATUS, R.PERS_SLOT_STAT, R.VIEW_REFUSE, R.VIEW_IRQ_STATUS, R.INTK_STAT,
      R.INTK_IRQ_STATUS, R.INTK_KEY_STAT, R.COMP_STAT, R.PAIR_DROP, R.PAIR_DROP_ADDR],
      eventParts ++ [.pair, .pers, .care, .comp, .intk]⟩
  | .frameHeader .. | .residualSet .. =>
    ⟨.own, [R.INTK_CONCEAL, R.INTK_IRQ_STATUS, R.HOST_MSIX_PBA],
      [.intk, .lzc, .out]⟩
  | .planeAtlas .. =>
    ⟨.own, [R.INTK_CONCEAL, R.INTK_IRQ_STATUS, R.TDEC_STAT, R.HOST_MSIX_PBA],
      [.intk, .lzc, .out]⟩
  | .maskSection .. =>
    ⟨.own, [R.INTK_CONCEAL, R.INTK_IRQ_STATUS, R.COMP_STAT, R.COMP_POOL_SHORT, R.COMP_IRQ_STATUS, R.HOST_MSIX_PBA],
      [.comp, .intk, .lzc, .out]⟩
  | .overlayCue .. =>
    ⟨.own, [R.INTK_CONCEAL, R.INTK_IRQ_STATUS, R.HOST_MSIX_PBA],
      [.intk, .lzc, .blt, .out]⟩
  | .signatureCue .. | .refusedUnit .. | .decodeDeadline .. =>
    ⟨.own, [R.INTK_CONCEAL, R.INTK_IRQ_STATUS, R.HOST_MSIX_PBA],
      [.intk, .out]⟩
  | .keyCue .. =>
    ⟨.own, [R.INTK_CONCEAL, R.INTK_IRQ_STATUS, R.INTK_KEY_STAT, R.HOST_MSIX_PBA],
      [.intk, .out]⟩
  | .privateUnit .. =>
    ⟨.own, [],
      [.intk]⟩
  | .pictureDecoded .. =>
    ⟨.own, [R.INTK_CONCEAL, R.INTK_IRQ_STATUS, R.TDEC_STAT, R.TDEC_ERR, R.TDEC_PICS, R.TDEC_LATE, R.TDEC_IRQ_STATUS, R.COMP_STAT,
      R.COMP_POOL_SHORT, R.COMP_IRQ_STATUS, R.HOST_MSIX_PBA],
      [.comp, .intk, .out]⟩
  | .dpPicture .. =>
    ⟨.own, eventRegs ++ [R.VIEW_REFUSE, R.VIEW_IRQ_STATUS, R.INTK_STAT, R.INTK_CONCEAL, R.INTK_IRQ_STATUS, R.INTK_KEY_STAT, R.COMP_STAT,
      R.COMP_POOL_SHORT, R.COMP_IRQ_STATUS, R.DPRX_ERR],
      eventParts ++ [.comp, .intk]⟩
  | .dpTimingChange .. =>
    ⟨.own, [R.HOST_MSIX_PBA, R.DPRX_SIZE, R.DPRX_FMT, R.DPRX_IRQ_STATUS],
      [.intk, .out]⟩
  | .dpLinkLoss .. =>
    ⟨.own, [R.HOST_MSIX_PBA, R.DPRX_STAT, R.DPRX_IRQ_STATUS],
      [.intk, .out]⟩
  | .lzcHeadWrite .. =>
    ⟨.own, [R.LZC_RING_HEAD, R.LZC_RING_STAT],
      []⟩
  | .lzcRingStart .. | .lzcRingRestart .. | .lzcRingStop .. =>
    ⟨.own, [R.LZC_RING_STAT],
      []⟩
  | .lzcJobTake .. =>
    ⟨.own, eventRegs ++ [R.LZC_RING_TAIL, R.LZC_RING_STAT, R.LZC_DONE_COUNT, R.LZC_ERR_COUNT, R.LZC_LAST_ERR, R.LZC_LAST_ERR_OFF, R.LZC_IRQ_STATUS,
      R.LZC_ENG_STAT, R.LZC_ENG_IN, R.LZC_ENG_OUT, R.LZC_ENG_JOBS],
      eventParts ++ [.lzc, .dram]⟩
  | .lzcJobEnd .. | .lzcAbort .. =>
    ⟨.own, eventRegs ++ [R.LZC_DONE_COUNT, R.LZC_ERR_COUNT, R.LZC_LAST_ERR, R.LZC_LAST_ERR_OFF, R.LZC_IRQ_STATUS, R.LZC_ENG_STAT, R.LZC_ENG_IN,
      R.LZC_ENG_OUT, R.LZC_ENG_JOBS],
      eventParts ++ [.lzc, .dram]⟩
  | .sinterFlattenStart .. =>
    ⟨.own, [],
      [.comp, .lzc]⟩
  | .sinterFlattenDone .. =>
    ⟨.own, [R.LZC_IRQ_STATUS, R.COMP_STAT, R.COMP_SINTER_STAT, R.COMP_IRQ_STATUS, R.HOST_MSIX_PBA],
      [.comp, .lzc, .dram, .out]⟩
  | .bufRegister .. =>
    ⟨.own, eventRegs ++ [R.COMP_BUF_FMT, R.COMP_BUF_STAT, R.COMP_BUF_RELEASE_SEQ, R.COMP_IRQ_STATUS, R.PAIR_DROP, R.PAIR_DROP_ADDR],
      eventParts ++ [.pair]⟩
  | .guardedWrite .. =>
    ⟨.own, eventRegs ++ [R.COMP_GUARD_COUNT, R.COMP_BUF_GUARD, R.COMP_IRQ_STATUS, R.PAIR_DROP, R.PAIR_DROP_ADDR],
      eventParts ++ [.pair, .comp, .blt, .dram]⟩
  | .calIndexWrite .. =>
    ⟨.own, [R.COMP_CAL_INDEX, R.COMP_CAL_DATA],
      []⟩
  | .readyTimeout .. =>
    ⟨.own, eventRegs,
      eventParts ++ [.pseq, .comp]⟩
  | .bltHeadWrite .. =>
    ⟨.own, [R.BLT_RING_HEAD, R.BLT_RING_STAT],
      [.blt]⟩
  | .bltRingStart .. | .bltRingRestart .. | .bltRingStop .. =>
    ⟨.own, [R.BLT_RING_STAT],
      []⟩
  | .nop .. | .copy .. | .fill .. | .draw .. =>
    ⟨.own, eventRegs ++ [R.COMP_GUARD_COUNT, R.COMP_BUF_GUARD, R.COMP_IRQ_STATUS, R.BLT_RING_TAIL, R.BLT_RING_STAT, R.BLT_DONE_COUNT, R.BLT_LAST_ERR,
      R.BLT_IRQ_STATUS, R.PAIR_DROP, R.PAIR_DROP_ADDR],
      eventParts ++ [.pair, .comp, .blt, .dram]⟩
  | .bltCommandDone .. =>
    ⟨.own, [R.BLT_DONE_COUNT, R.BLT_LAST_ERR, R.BLT_IRQ_STATUS, R.HOST_MSIX_PBA],
      [.blt, .dram, .out]⟩
  | .bltAbort .. =>
    ⟨.own, eventRegs ++ [R.COMP_BUF_STAT, R.COMP_BUF_RELEASE_SEQ, R.BLT_DONE_COUNT, R.BLT_LAST_ERR, R.BLT_IRQ_STATUS],
      [.teph, .comp, .blt, .dram, .out]⟩
  | .cueDraw .. =>
    ⟨.own, eventRegs ++ [R.COMP_GUARD_COUNT, R.COMP_BUF_STAT, R.COMP_BUF_RELEASE_SEQ, R.COMP_BUF_GUARD, R.COMP_IRQ_STATUS, R.BLT_CUE,
      R.BLT_IRQ_STATUS, R.PAIR_DROP, R.PAIR_DROP_ADDR],
      eventParts ++ [.pair, .comp, .blt, .dram]⟩
  | .wmArm .. =>
    ⟨.own, [R.BLT_WM_CFG],
      []⟩
  | .launchHandover .. =>
    ⟨.own, [R.TIME_LAUNCH_STAT, R.TIME_IRQ_STATUS, R.HOST_MSIX_PBA],
      [.pseq, .time, .out]⟩
  | .panelTempReading .. | .panelTempTimeout .. =>
    ⟨.own, eventRegs ++ [R.PSEQ_TEMP, R.PSEQ_EVENTS, R.PSEQ_IRQ_STATUS],
      eventParts ++ [.pseq]⟩
  | .lensStep .. =>
    ⟨.own, [],
      [.pseq, .out]⟩
  | .rectSubmit .. =>
    ⟨.own, eventRegs ++ [R.PSEQ_STAT, R.PSEQ_RECT_STAT, R.PSEQ_RECT_VOID, R.PSEQ_IRQ_STATUS, R.PAIR_DROP, R.PAIR_DROP_ADDR],
      [.teph, .pair, .pseq, .out]⟩
  | .blankingStart .. =>
    ⟨.own, eventRegs ++ [R.PSEQ_VCOM, R.PSEQ_IRQ_STATUS, R.RAIL_STAT, R.RAIL_VCOM, R.RAIL_CRACK_MEAS, R.RAIL_CRACK_STAT, R.RAIL_CRACK_EVENTS,
      R.RAIL_IRQ_STATUS],
      eventParts ++ [.pins, .rail, .pair, .pseq]⟩
  | .vcomErrorReport .. =>
    ⟨.own, [R.PSEQ_VCOM, R.PSEQ_IRQ_STATUS, R.HOST_MSIX_PBA],
      [.pseq, .freeCtr, .out]⟩
  | .patternSelect .. =>
    ⟨.own, eventRegs ++ [R.PSEQ_PATTERN, R.PAIR_DROP, R.PAIR_DROP_ADDR],
      [.teph, .pair, .out]⟩
  | .powerFailWarning .. =>
    ⟨.own, eventRegs ++ [R.PSEQ_STAT, R.PSEQ_RECT_STAT, R.PSEQ_IRQ_STATUS, R.RAIL_STAT, R.RAIL_IRQ_STATUS],
      [.pins, .teph, .rail, .pair, .pseq, .out]⟩
  | .railPowerGood .. =>
    ⟨.own, eventRegs ++ [R.RST_STAGE, R.INTK_CTRL, R.RAIL_STAT, R.RAIL_CH_MEAS, R.RAIL_CH_PEAK, R.RAIL_IRQ_STATUS],
      eventParts ++ [.staged, .pins, .rail, .pseq, .intk]⟩
  | .railPgTimeout .. | .railFaultUv .. | .railFaultOc .. | .railFaultShort .. | .railFaultOv .. | .railFaultTemp .. =>
    ⟨.own, eventRegs ++ [R.RAIL_STAT, R.RAIL_FAULT, R.RAIL_FAULT_INFO, R.RAIL_CH_FAULTS, R.RAIL_IRQ_STATUS],
      eventParts ++ [.pins, .rail, .pair, .pseq]⟩
  | .railCmdOn .. | .railCmdRestart .. | .railRetryTimer .. =>
    ⟨.own, eventRegs ++ [R.RST_STAGE, R.RAIL_STAT, R.RAIL_CRACK_MEAS, R.RAIL_CRACK_STAT, R.RAIL_CRACK_EVENTS, R.RAIL_IRQ_STATUS],
      eventParts ++ [.pins, .nv, .rail, .pair]⟩
  | .railCmdOff .. =>
    ⟨.own, eventRegs ++ [R.RAIL_STAT, R.RAIL_IRQ_STATUS],
      [.teph, .rail, .pseq, .out]⟩
  | .railCmdRelearn .. =>
    ⟨.own, eventRegs,
      [.teph, .rail, .out]⟩
  | .dischargeStart .. =>
    ⟨.own, eventRegs ++ [R.RAIL_STAT],
      eventParts ++ [.rail, .pseq]⟩
  | .powerOffPhaseEnd .. =>
    ⟨.own, [R.RAIL_STAT, R.RAIL_IRQ_STATUS, R.HOST_MSIX_PBA],
      [.rail, .pseq, .out]⟩
  | .vcomOc .. =>
    ⟨.own, eventRegs ++ [R.RAIL_FAULT, R.RAIL_FAULT_INFO, R.RAIL_VCOM, R.RAIL_IRQ_STATUS],
      eventParts ++ [.pins]⟩
  | .retryCountReset .. =>
    ⟨.own, [R.RAIL_STAT],
      []⟩
  | .loadTransferDone .. =>
    ⟨.own, [R.RAIL_IRQ_STATUS, R.HOST_MSIX_PBA],
      [.rail, .out]⟩
  | .crackTimer .. =>
    ⟨.own, eventRegs ++ [R.RAIL_STAT, R.RAIL_CRACK_MEAS, R.RAIL_CRACK_STAT, R.RAIL_CRACK_EVENTS, R.RAIL_IRQ_STATUS],
      eventParts ++ [.pins, .rail, .pair, .pseq]⟩
  | .laneDetectCheck .. =>
    ⟨.own, [R.LANE_STAT, R.LANE_EQ_EFF, R.LANE_GRP_STAT, R.LANE_IRQ_STATUS, R.LANE_PANEL, R.HOST_MSIX_PBA],
      [.out]⟩
  | .laneTrainDone .. =>
    ⟨.own, [R.LANE_EQ_EFF, R.LANE_EYE, R.LANE_GRP_STAT],
      []⟩
  | .laneTrainTimeout .. | .laneLockDone .. =>
    ⟨.own, eventRegs ++ [R.RST_STAGE, R.INTK_CTRL, R.LANE_STAT, R.LANE_GRP_STAT, R.LANE_GRP_COUNT, R.LANE_GRP_EVENT, R.LANE_IRQ_STATUS, R.LANE_PANEL],
      eventParts ++ [.staged, .pins, .intk]⟩
  | .laneExchange .. =>
    ⟨.own, eventRegs ++ [R.RST_STAGE, R.TIME_LAUNCH_STAT, R.INTK_CTRL, R.LANE_STAT, R.LANE_GRP_STAT, R.LANE_GRP_EVENT, R.LANE_IRQ_STATUS,
      R.LANE_PANEL, R.PAIR_STAT, R.PAIR_FIT, R.PAIR_IRQ_STATUS],
      eventParts ++ [.staged, .pins, .pair, .intk, .time, .array]⟩
  | .laneFailedRetry .. =>
    ⟨.own, [R.LANE_STAT, R.LANE_GRP_STAT, R.LANE_IRQ_STATUS, R.LANE_PANEL, R.HOST_MSIX_PBA],
      [.out]⟩
  | .eqTrackStep .. =>
    ⟨.own, [R.LANE_EQ_EFF],
      []⟩
  | .laneInvalidHeader .. =>
    ⟨.own, [R.LANE_HDR_ERR],
      []⟩
  | .laneLinkLost .. =>
    ⟨.own, eventRegs ++ [R.CARE_LOCK, R.CARE_IRQ_STATUS, R.LANE_STAT, R.LANE_GRP_STAT, R.LANE_GRP_COUNT, R.LANE_GRP_EVENT, R.LANE_IRQ_STATUS,
      R.LANE_PANEL, R.ARRAY_PORT_NBR, R.ARRAY_IRQ_STATUS],
      eventParts ++ [.pair, .array]⟩
  | .laneRetrain .. | .laneTest .. =>
    ⟨.own, eventRegs ++ [R.LANE_STAT, R.LANE_GRP_STAT, R.LANE_IRQ_STATUS, R.LANE_PANEL],
      [.teph, .out]⟩
  | .laneTestExit .. =>
    ⟨.own, eventRegs ++ [R.LANE_STAT, R.LANE_GRP_STAT],
      [.teph, .lane, .out]⟩
  | .laneLoopWrite .. =>
    ⟨.own, eventRegs ++ [R.LANE_LOOP],
      [.teph, .out]⟩
  | .injectOne .. | .injectRate .. =>
    ⟨.own, [],
      [.lane]⟩
  | .lanePowerDown .. | .laneWake .. =>
    ⟨.own, [R.LANE_STAT, R.LANE_GRP_STAT],
      [.out]⟩
  | .memRequest .. =>
    ⟨.own, eventRegs ++ [R.CARE_MBX_DATA, R.CARE_MBX_STAT, R.CARE_MBX_COUNT, R.CARE_IRQ_STATUS, R.MEM_C_STAT, R.MEM_C_ECC, R.MEM_C_FRZ_INFO,
      R.MEM_C_FRZ_ADDR, R.MEM_C_FRZ_ROW, R.MEM_C_HIST, R.MEM_C_BW, R.MEM_CH_RH, R.MEM_CH_RH_LAST, R.MEM_IRQ_STATUS],
      eventParts ++ [.pins, .pair, .mem, .fab, .care, .dram]⟩
  | .rhWindowEnd .. | .pageIdleClose .. =>
    ⟨.own, [],
      [.mem]⟩
  | .scrubRead .. =>
    ⟨.own, eventRegs ++ [R.CARE_MBX_DATA, R.CARE_MBX_STAT, R.CARE_MBX_COUNT, R.CARE_IRQ_STATUS, R.MEM_C_STAT, R.MEM_C_ECC, R.MEM_C_FRZ_INFO,
      R.MEM_C_FRZ_ADDR, R.MEM_C_FRZ_ROW, R.MEM_IRQ_STATUS],
      eventParts ++ [.pins, .pair, .mem, .fab, .care]⟩
  | .refreshDue .. | .geyserBurst .. =>
    ⟨.own, [R.MEM_CH_STAT, R.MEM_CH_REFRESH],
      []⟩
  | .mr4Read .. =>
    ⟨.own, [R.MEM_C_STAT, R.MEM_CH_STAT, R.MEM_CH_REFRESH, R.MEM_IRQ_STATUS, R.HOST_MSIX_PBA],
      [.out]⟩
  | .eyeTrack .. =>
    ⟨.own, eventRegs ++ [R.MEM_CH_EYE, R.MEM_IRQ_STATUS],
      eventParts ++ [.mem]⟩
  | .memFreqRequest .. =>
    ⟨.own, [R.MEM_FREQ, R.MEM_IRQ_STATUS, R.HOST_MSIX_PBA],
      [.mem, .out]⟩
  | .memFreqChangeStart .. =>
    ⟨.own, eventRegs ++ [R.CARE_MBX_DATA, R.CARE_MBX_STAT, R.CARE_MBX_COUNT, R.CARE_IRQ_STATUS, R.MEM_C_STAT, R.MEM_C_ECC, R.MEM_C_FRZ_INFO,
      R.MEM_C_FRZ_ADDR, R.MEM_C_FRZ_ROW, R.MEM_C_HIST, R.MEM_C_BW, R.MEM_CH_STAT, R.MEM_CH_REFRESH, R.MEM_CH_RH, R.MEM_CH_RH_LAST,
      R.MEM_FREQ, R.MEM_IRQ_STATUS],
      eventParts ++ [.pins, .pair, .mem, .fab, .care, .dram]⟩
  | .memUnfreeze .. =>
    ⟨.own, eventRegs ++ [R.MEM_C_STAT, R.MEM_C_FRZ_INFO],
      [.teph, .mem, .out]⟩
  | .freezeCoreTimeout .. =>
    ⟨.own, eventRegs ++ [R.RST_CAUSE],
      [.rst, .teph, .pair, .mem, .out]⟩
  | .regionWrite .. =>
    ⟨.own, eventRegs ++ [R.MEM_REGION_BASE, R.MEM_REGION_LIMIT, R.MEM_REGION_ATTR],
      [.teph, .out]⟩
  | .pairHello .. =>
    ⟨.own, eventRegs ++ [R.PAIR_STAT, R.PAIR_PEER, R.PAIR_IRQ_STATUS, R.ARRAY_PORT_NBR, R.ARRAY_IRQ_STATUS],
      eventParts ++ [.pins, .array]⟩
  | .roleSettle .. =>
    ⟨.own, eventRegs ++ [R.TIME_LAUNCH_STAT, R.PAIR_STAT, R.PAIR_FIT, R.PAIR_IRQ_STATUS],
      [.teph, .pair, .time, .out]⟩
  | .driveGrantReport .. =>
    ⟨.own, eventRegs ++ answerRegs ++ [R.TIME_LAUNCH_STAT, R.RAIL_STAT, R.PAIR_STAT, R.PAIR_FIT, R.PAIR_COUNT, R.PAIR_IRQ_STATUS],
      eventParts ++ [.rail, .pair, .care, .time]⟩
  | .heartbeatSend .. | .snapshot .. =>
    ⟨.own, eventRegs ++ [R.PAIR_FIT, R.PAIR_IRQ_STATUS],
      [.teph, .pair, .out]⟩
  | .heartbeat .. =>
    ⟨.own, [R.PAIR_STAT, R.PAIR_FIT, R.PAIR_IRQ_STATUS, R.HOST_MSIX_PBA],
      [.pair, .out]⟩
  | .heartbeatMiss .. =>
    ⟨.own, eventRegs ++ [R.RAIL_STAT, R.PAIR_STAT, R.PAIR_FIT, R.PAIR_LINK, R.PAIR_IRQ_STATUS],
      eventParts ++ [.rail, .pair]⟩
  | .pairAckSend .. =>
    ⟨.own, [],
      [.pair, .out]⟩
  | .pairAck .. =>
    ⟨.own, [R.TEPH_MIRROR],
      [.pair, .array]⟩
  | .pairResendTimeout .. =>
    ⟨.own, eventRegs ++ [R.CARE_LOCK, R.CARE_IRQ_STATUS, R.LANE_STAT, R.LANE_GRP_STAT, R.LANE_GRP_COUNT, R.LANE_GRP_EVENT, R.LANE_IRQ_STATUS,
      R.LANE_PANEL, R.PAIR_LINK, R.ARRAY_PORT_NBR, R.ARRAY_IRQ_STATUS],
      eventParts ++ [.pair, .array]⟩
  | .noticeFail .. | .noticeHandover .. | .panelPortLostReport .. =>
    ⟨.own, eventRegs ++ [R.RAIL_STAT, R.PAIR_FIT, R.PAIR_IRQ_STATUS],
      eventParts ++ [.rail, .pair]⟩
  | .noticePanelFault .. =>
    ⟨.own, [R.RAIL_STAT, R.RAIL_IRQ_STATUS, R.HOST_MSIX_PBA],
      [.rail, .pair, .pseq, .out]⟩
  | .noticeMirrorDown .. =>
    ⟨.own, eventRegs,
      eventParts ++ [.pair]⟩
  | .mirrorStrobe .. =>
    ⟨.own, eventRegs ++ answerRegs ++ [R.CTL_UPDATE_STAT, R.CTL_UPDATE_LATE, R.CTL_IRQ_STATUS, R.PERS_STATE, R.PERS_LAST, R.PERS_IRQ_STATUS, R.PERS_SLOT_STAT,
      R.PAIR_STAT, R.PAIR_FIT, R.PAIR_IRQ_STATUS],
      eventParts ++ [.strobes, .pair, .pers, .care]⟩
  | .delta .. =>
    ⟨.own, eventRegs ++ [R.PAIR_STAT, R.PAIR_FIT, R.PAIR_IRQ_STATUS],
      eventParts ++ [.pair, .lzc]⟩
  | .pairCmdHandover .. =>
    ⟨.own, eventRegs ++ [R.PAIR_IRQ_STATUS],
      [.teph, .pair, .out]⟩
  | .pairCmdResync .. =>
    ⟨.own, eventRegs ++ [R.PAIR_STAT],
      [.teph, .pair, .out]⟩
  | .signatures .. =>
    ⟨.own, eventRegs ++ [R.PAIR_FIT, R.PAIR_DIV, R.PAIR_IRQ_STATUS],
      [.teph, .pair, .out]⟩
  | .divergenceKat .. | .katResult .. =>
    ⟨.own, eventRegs ++ answerRegs ++ swapRegs ++ [R.RST_CAUSE, R.PERS_LAST, R.PERS_CONTENTION, R.PERS_SLOT_STAT, R.FAB_TILE_HEALTH, R.FAB_TILE_DROP, R.FAB_TILE_EVENT,
      R.FAB_MIG_COUNT, R.PAIR_STAT, R.PAIR_FIT, R.PAIR_DIV, R.PAIR_IRQ_STATUS],
      eventParts ++ [.rst, .pins, .pair, .pers, .fab, .care]⟩
  | .timePacket .. =>
    ⟨.own, eventRegs ++ [R.TIME_STAT, R.TIME_IRQ_STATUS, R.PSEQ_EVENTS, R.PSEQ_IRQ_STATUS, R.PAIR_FIT, R.PAIR_IRQ_STATUS, R.ARRAY_PORT_NBR,
      R.ARRAY_PORT_XCHK, R.ARRAY_PORT_DELAY, R.ARRAY_PORT_COUNT, R.ARRAY_IRQ_STATUS],
      eventParts ++ [.pair, .pseq, .time, .array]⟩
  | .launchPacket .. =>
    ⟨.own, [],
      [.pair, .pseq]⟩
  | .mailboxPacket .. | .mbxAck .. | .mbxWithdraw .. =>
    ⟨.own, eventRegs ++ [R.CARE_MBX_DATA, R.CARE_MBX_STAT, R.CARE_MBX_COUNT, R.CARE_IRQ_STATUS],
      eventParts ++ [.pair, .care]⟩
  | .tephraPacket .. | .tephraLostEntry .. =>
    ⟨.own, eventRegs,
      [.teph, .out]⟩
  | .arrayHello .. | .arrayStatus .. =>
    ⟨.own, eventRegs ++ [R.TIME_STAT, R.TIME_IRQ_STATUS, R.ARRAY_PORT_NBR, R.ARRAY_IRQ_STATUS],
      eventParts ++ [.time, .array]⟩
  | .arrayStatusSend .. | .arrayTimeExchange .. =>
    ⟨.own, [],
      [.array, .out]⟩
  | .arrayBadPacket .. =>
    ⟨.own, [R.ARRAY_PORT_COUNT],
      []⟩
  | .pairTimeExchange .. =>
    ⟨.own, [],
      [.pair, .time, .out]⟩
  | .ptpMessage .. =>
    ⟨.own, eventRegs ++ [R.TIME_STAT, R.TIME_PTP_STAT, R.TIME_PTP_GM, R.TIME_PTP_OFFSET, R.TIME_IRQ_STATUS, R.PSEQ_EVENTS, R.PSEQ_IRQ_STATUS],
      eventParts ++ [.pseq, .time, .array]⟩
  | .sourceTimeout .. =>
    ⟨.own, eventRegs ++ [R.TIME_STAT, R.TIME_IRQ_STATUS],
      eventParts ++ [.time, .array]⟩
  | .timeCmdAccept .. =>
    ⟨.own, eventRegs ++ [R.TIME_STAT, R.TIME_IRQ_STATUS, R.PSEQ_EVENTS, R.PSEQ_IRQ_STATUS],
      eventParts ++ [.pseq, .time, .array]⟩
  | .timeCmdSlew .. | .timeCmdDiscard .. =>
    ⟨.own, eventRegs ++ [R.TIME_STAT],
      [.teph, .time, .out]⟩
  | .slewDone .. =>
    ⟨.own, [R.TIME_STAT, R.TIME_IRQ_STATUS, R.HOST_MSIX_PBA],
      [.time, .out]⟩
  | .ppsOutEdge .. =>
    ⟨.own, [],
      [.pins, .out]⟩
  | .ppsInEdge .. =>
    ⟨.own, [R.TIME_PPS_CAP, R.TIME_IRQ_STATUS, R.HOST_MSIX_PBA],
      [.time, .out]⟩
  | .timeLaunchWrite .. =>
    ⟨.own, eventRegs ++ [R.TIME_LAUNCH_STAT, R.TIME_IRQ_STATUS, R.PAIR_DROP, R.PAIR_DROP_ADDR],
      [.teph, .time, .out]⟩
  | .timeLaunchFlush .. =>
    ⟨.own, eventRegs ++ [R.TIME_LAUNCH_STAT, R.PAIR_DROP, R.PAIR_DROP_ADDR],
      [.teph, .time, .out]⟩
  | .tcxoTrim .. =>
    ⟨.own, [R.THM_TCXO],
      []⟩
  | .hostPortReset .. =>
    ⟨.own, eventRegs ++ [R.CARE_LOCK, R.CARE_IRQ_STATUS, R.INTK_DMA_STAT, R.INTK_IRQ_STATUS, R.HOST_LINK, R.HOST_BAR2_BASE, R.HOST_RESETS,
      R.HOST_IRQ_STATUS, R.HOST_IRQ_MASK, R.HOST_MSIX_ADDR, R.HOST_MSIX_DATA, R.HOST_MSIX_CTRL],
      eventParts ++ [.comp, .intk, .host]⟩
  | .functionLevelReset .. =>
    ⟨.own, eventRegs ++ [R.CARE_LOCK, R.CARE_IRQ_STATUS, R.INTK_DMA_STAT, R.INTK_IRQ_STATUS, R.HOST_BAR2_BASE, R.HOST_RESETS, R.HOST_IRQ_STATUS,
      R.HOST_IRQ_MASK, R.HOST_MSIX_ADDR, R.HOST_MSIX_DATA, R.HOST_MSIX_CTRL],
      eventParts ++ [.comp, .intk, .host]⟩
  | .bar2Access .. =>
    ⟨.own, eventRegs ++ [R.CARE_MBX_DATA, R.CARE_MBX_STAT, R.CARE_MBX_COUNT, R.CARE_IRQ_STATUS, R.COMP_GUARD_COUNT, R.COMP_BUF_GUARD,
      R.COMP_IRQ_STATUS, R.MEM_C_STAT, R.MEM_C_ECC, R.MEM_C_FRZ_INFO, R.MEM_C_FRZ_ADDR, R.MEM_C_FRZ_ROW, R.MEM_IRQ_STATUS,
      R.PAIR_DROP, R.PAIR_DROP_ADDR, R.HOST_BAR2_ERR, R.HOST_BAR2_LAST, R.HOST_IRQ_STATUS],
      eventParts ++ [.rst, .bus, .pins, .pair, .mem, .fab, .care, .comp, .blt, .dram]⟩
  | .ethFrame .. =>
    ⟨.own, eventRegs ++ [R.TIME_STAT, R.TIME_PTP_STAT, R.TIME_PTP_GM, R.TIME_PTP_OFFSET, R.TIME_IRQ_STATUS, R.INTK_STAT, R.INTK_SSRC, R.INTK_CONCEAL,
      R.INTK_IRQ_STATUS, R.PSEQ_EVENTS, R.PSEQ_IRQ_STATUS, R.ETH_PORT_RX, R.ETH_PORT_ERR],
      eventParts ++ [.pseq, .intk, .time, .host]⟩
  | .cageRetrainDone .. =>
    ⟨.own, [R.HOST_MSIX_PBA, R.ETH_PORT_STAT, R.ETH_IRQ_STATUS],
      [.host, .out]⟩
  | .qsfpPlug .. =>
    ⟨.own, [R.HOST_MSIX_PBA, R.ETH_CAGE_STAT, R.ETH_PORT_STAT, R.ETH_IRQ_STATUS],
      [.intk, .out]⟩
  | .previewFrame .. =>
    ⟨.own, [R.PREV_STAT, R.PREV_FRAME],
      [.host, .out]⟩
  | .previewCaptureDone .. =>
    ⟨.own, [R.PREV_STAT],
      [.host]⟩
  | .mbxPost .. =>
    ⟨.own, eventRegs ++ [R.CARE_MBX_DATA, R.CARE_MBX_STAT, R.CARE_MBX_COUNT, R.CARE_IRQ_STATUS],
      eventParts ++ [.pair]⟩
  | .cmdPersLoad .. =>
    ⟨.own, eventRegs ++ answerRegs ++ [R.PERS_STATE, R.PERS_SLOT_SRC, R.PERS_SLOT_LEN, R.PERS_SLOT_STAT, R.PERS_SLOT_ID, R.PERS_SLOT_FMT, R.PERS_SLOT_COVER,
      R.PERS_SLOT_SV],
      eventParts ++ [.pair, .pers, .care]⟩
  | .cmdHealth .. | .cmdUnknown .. =>
    ⟨.own, eventRegs ++ answerRegs,
      eventParts ++ [.pair, .care]⟩
  | .cmdKeyLoad .. =>
    ⟨.own, eventRegs ++ answerRegs ++ [R.INTK_KEY_KID, R.INTK_KEY_STAT],
      eventParts ++ [.pair, .care, .intk, .sec]⟩
  | .cmdAttest .. =>
    ⟨.own, eventRegs ++ answerRegs ++ [R.SEC_STAT, R.SEC_HSS_INDEX, R.SEC_HSS_LEFT, R.SEC_IRQ_STATUS],
      eventParts ++ [.pair, .care, .otp, .dram]⟩
  | .cmdCalibrate .. =>
    ⟨.own, eventRegs ++ answerRegs ++ [R.CAL_STAT],
      eventParts ++ [.pair, .pseq, .care, .thm]⟩
  | .cmdTephraExport .. =>
    ⟨.own, eventRegs ++ answerRegs,
      eventParts ++ [.pair, .care, .lzc, .dram]⟩
  | .cmdRole .. =>
    ⟨.own, eventRegs ++ answerRegs ++ [R.PAIR_IRQ_STATUS],
      eventParts ++ [.pair, .care]⟩
  | .cmdKeyEnroll .. =>
    ⟨.own, eventRegs ++ answerRegs ++ [R.SEC_STAT, R.SEC_SVN_FW, R.SEC_SVN_PERS, R.SEC_SVN_ROWS, R.PERS_STATE, R.PERS_LAST, R.PERS_IRQ_STATUS, R.PERS_SLOT_STAT,
      R.PERS_SLOT_ERR_OFFSET, R.PERS_SLOT_ID, R.PERS_SLOT_FMT, R.PERS_SLOT_COVER, R.PERS_SLOT_SV],
      eventParts ++ [.pair, .pers, .care, .otp]⟩
  | .cmdDebugChallenge .. =>
    ⟨.own, eventRegs ++ answerRegs ++ [R.SEC_STAT],
      eventParts ++ [.pair, .care, .dram, .sec]⟩
  | .cmdRestart .. =>
    ⟨.own, eventRegs ++ answerRegs ++ [R.RST_CAUSE, R.THM_STAT, R.RAIL_STAT, R.RAIL_IRQ_STATUS],
      eventParts ++ [.rst, .rail, .pair, .pseq, .care]⟩
  | .cmdBoot .. =>
    ⟨.own, eventRegs ++ answerRegs ++ [R.RST_STAGE, R.CARE_STAT, R.SEC_STAT, R.SEC_FW_SVN, R.SEC_FW_DIGEST, R.SEC_HSS_INDEX, R.SEC_HSS_LEFT, R.SEC_IRQ_STATUS,
      R.RAIL_CRACK_MEAS, R.MEM_C_STAT, R.TEPH_STAT],
      eventParts ++ [.rst, .pins, .pair, .care, .otp, .sec]⟩
  | .lockClaim .. =>
    ⟨.own, [R.CARE_LOCK, R.CARE_LOCK_STAT],
      []⟩
  | .lockRelease .. =>
    ⟨.own, eventRegs ++ [R.CARE_LOCK, R.CARE_LOCK_STAT],
      [.teph, .freeCtr, .out]⟩
  | .svnCommitFw .. | .svnCommitPers .. =>
    ⟨.own, eventRegs ++ [R.SEC_SVN_RESULT, R.SEC_IRQ_STATUS],
      [.teph, .sec, .out]⟩
  | .svnCommitDone .. =>
    ⟨.own, eventRegs ++ answerRegs ++ [R.SEC_STAT, R.SEC_SVN_FW, R.SEC_SVN_PERS, R.SEC_SVN_ROWS, R.SEC_SVN_RESULT, R.SEC_IRQ_STATUS, R.PERS_STATE, R.PERS_LAST,
      R.PERS_IRQ_STATUS, R.PERS_SLOT_STAT, R.PERS_SLOT_ERR_OFFSET, R.PERS_SLOT_ID, R.PERS_SLOT_FMT, R.PERS_SLOT_COVER,
      R.PERS_SLOT_SV],
      eventParts ++ [.pair, .pers, .care, .otp, .sec]⟩
  | .dbgSubmit .. | .dbgLock .. =>
    ⟨.own, eventRegs ++ [R.SEC_STAT, R.SEC_DBG_STAT, R.SEC_IRQ_STATUS, R.INTK_KEY_KID, R.INTK_KEY_STAT, R.DPRX_STAT, R.DPRX_IRQ_STATUS],
      [.teph, .intk, .sec, .out]⟩
  | .challengeExpiry .. =>
    ⟨.own, [R.SEC_STAT],
      [.sec]⟩
  | .keyExpiry .. =>
    ⟨.own, [R.SEC_IRQ_STATUS, R.INTK_KEY_KID, R.INTK_KEY_STAT, R.HOST_MSIX_PBA],
      [.intk, .sec, .out]⟩
  | .sensorSample .. =>
    ⟨.own, eventRegs ++ [R.CARE_MBX_DATA, R.CARE_MBX_STAT, R.CARE_MBX_COUNT, R.CARE_IRQ_STATUS, R.THM_STAT, R.THM_COUNT, R.THM_SENS, R.THM_ZONE,
      R.THM_IRQ_STATUS, R.PSEQ_TEMP, R.PSEQ_EVENTS, R.PSEQ_IRQ_STATUS, R.RAIL_STAT, R.RAIL_IRQ_STATUS, R.LANE_STAT,
      R.LANE_GRP_STAT, R.LANE_IRQ_STATUS, R.LANE_PANEL, R.MEM_C_STAT, R.PAIR_IRQ_STATUS, R.ARRAY_PORT_NBR],
      eventParts ++ [.pins, .rail, .pair, .pseq, .mem, .care, .thm, .fab, .comp, .intk, .blt, .array]⟩
  | .thermalCut .. =>
    ⟨.own, eventRegs ++ [R.THM_STAT, R.RAIL_STAT, R.RAIL_IRQ_STATUS, R.LANE_STAT, R.LANE_GRP_STAT, R.LANE_IRQ_STATUS, R.LANE_PANEL, R.MEM_C_STAT,
      R.ARRAY_PORT_NBR],
      [.teph, .rail, .pair, .pseq, .mem, .thm, .fab, .comp, .intk, .blt, .dram, .array, .out]⟩
  | .restartAllowed .. =>
    ⟨.own, eventRegs ++ [R.RST_CAUSE, R.CARE_MBX_DATA, R.CARE_MBX_STAT, R.CARE_MBX_COUNT, R.CARE_IRQ_STATUS, R.THM_STAT, R.THM_IRQ_STATUS,
      R.RAIL_STAT, R.RAIL_IRQ_STATUS],
      eventParts ++ [.rst, .rail, .pair, .pseq, .care, .thm]⟩
  | .sensRearm .. =>
    ⟨.own, eventRegs ++ [R.THM_SENS],
      [.teph, .thm, .out]⟩
  | .vcoreLoop .. =>
    ⟨.own, [R.THM_VCORE],
      []⟩
  | .calReq .. =>
    ⟨.own, eventRegs ++ [R.CAL_STAT],
      [.teph, .pseq, .thm, .out]⟩
  | .calSchedule .. =>
    ⟨.own, [R.CAL_STAT],
      [.pseq, .thm]⟩
  | .calRunDone .. =>
    ⟨.own, eventRegs ++ answerRegs ++ [R.CAL_STAT, R.CAL_SUBJ_LAST, R.CAL_SUBJ_COUNT, R.CAL_IRQ_STATUS],
      eventParts ++ [.pair, .care, .thm]⟩
  | .calTimeout .. =>
    ⟨.own, eventRegs ++ answerRegs ++ [R.CAL_STAT, R.CAL_SUBJ_COUNT, R.CAL_IRQ_STATUS],
      eventParts ++ [.pair, .care, .thm]⟩
  | .tephraWrite .. =>
    ⟨.own, eventRegs ++ [R.TEPH_FREEZE_AT, R.TEPH_STAT, R.TEPH_HEAD],
      [.teph, .pair, .out]⟩
  | .tephFreeze .. =>
    ⟨.own, eventRegs,
      [.teph, .freeCtr, .out]⟩
  | .tephResume .. | .tephClear .. =>
    ⟨.own, eventRegs ++ [R.TEPH_STAT],
      [.teph, .out]⟩
  | .tephraSave .. =>
    ⟨.own, eventRegs ++ [R.RST_CAUSE, R.RAIL_STAT, R.RAIL_IRQ_STATUS],
      [.rst, .teph, .nv, .rail, .pair, .pseq, .out]⟩
  | .alertTimeout .. | .aoSupplyFall .. =>
    ⟨.own, [],
      [.pins]⟩
  | .ethLinkChange .. =>
    ⟨.own, [R.HOST_MSIX_PBA, R.ETH_PORT_STAT, R.ETH_IRQ_STATUS],
      [.intk, .out]⟩
  | .hostLinkUp .. =>
    ⟨.own, [R.HOST_LINK, R.HOST_IRQ_STATUS, R.HOST_MSIX_PBA],
      [.out]⟩
  | .dpLinkTrained .. =>
    ⟨.own, eventRegs ++ [R.RST_STAGE, R.INTK_CTRL, R.DPRX_STAT, R.DPRX_IRQ_STATUS],
      eventParts ++ [.staged, .rst, .pins, .intk]⟩
  | .hdcpStateChange .. =>
    ⟨.own, [R.HOST_MSIX_PBA, R.DPRX_STAT, R.DPRX_IRQ_STATUS],
      [.out]⟩
  | .dptxHotplug .. =>
    ⟨.own, [R.DPTX_STAT, R.DPTX_EDID],
      [.host]⟩
  | .ptpAnnounceTimeout .. =>
    ⟨.own, [R.TIME_PTP_STAT, R.TIME_PTP_GM],
      [.time, .array, .out]⟩
  | .standbyRailSense .. =>
    ⟨.own, [R.RAIL_STAT],
      [.rail]⟩
  | .railConverterCooled .. =>
    ⟨.own, [],
      [.rail]⟩

/-- From `s` to `t` nothing changes that the command may not change. -/
def Stays (c : Instr) (s t : Machine.State) : Prop :=
  t.pending = s.pending ∧ (∀ p, p ∉ c.reach.parts → p.same s t) ∧ ∀ k, ¬ c.reach.covers k → t.word k = s.word k

/-- Every register word outside the listed offsets is the same in both states. -/
def Only (words : List Nat) (s t : Machine.State) : Prop := ∀ k, k ∉ words → t.word k = s.word k

/-- The words any event may change beside its own: the losses of the tephra record with their flag, and the pending bits of MSI-X
(R91, R573). -/
def eventWords : List Nat :=
  [R.TEPH_LOST.base, R.TEPH_IRQ_STATUS.base, R.HOST_MSIX_PBA.base, R.HOST_MSIX_PBA.base + 4]

/-- Nothing but registers, pins, the tephra record, what is sent and the counter of free values differs. -/
def SameBlocks (s t : Machine.State) : Prop :=
  t = { s with regs := t.regs, pins := t.pins, teph := t.teph, out := t.out, wires := t.wires, freeCtr := t.freeCtr }

/-- One-time-programmable memory only grows: the rows of both counters stay and come after one another, no bit of ENROLLED, CLOSED or the
HSS anchor clears, and the HSS index never goes back (R530, R537, R543). -/
def OtpGrows (a b : OtpState) : Prop :=
  a.fwRows <+: b.fwRows ∧ a.persRows <+: b.persRows ∧ (∀ n, a.enrolled.testBit n = true → b.enrolled.testBit n = true) ∧
    (∀ n, a.closed.testBit n = true → b.closed.testBit n = true) ∧
    (∀ n, a.hssAnchor.testBit n = true → b.hssAnchor.testBit n = true) ∧ a.hssFlash ≤ b.hssFlash

/-- The command answers a next state of which `p` holds. -/
def Runs (c : Instr) (s : Machine.State) (p : Machine.State → Prop) : Prop := ∃ t, Machine.exec c s = .next t ∧ p t

/-- An outcome that lets the run go on. -/
def Goes (o : Host.Outcome Machine.State Fault Refusal) : Prop := ∃ t, o = .next t

end Sys2Proof
end

