-- ==== Sys2Proof/Certificates/Slice0/Obligations.lean ====
section
/-!
DEFINITION. What is claimed of this model, each claim stated from the numbered rules of spec/. Where a clause concludes
`∃ t, exec c s = .next t ∧ …`, the command completes: its outcome is a next state, and of that state the rest holds.
-/

open Sys2Proof Sys2Proof.Machine

/-- For every command c, queue rest and state s, a step of s with c in front of rest is exec of c on s with the queue rest: first in, first out. What this says of the queue is the model's, a block having no program. -/
def Obligations.StepRunsFrontCommand : Prop :=
  ∀ (c : Instr) (rest : List Instr) (s : State), step { s with pending := c :: rest } = exec c { s with pending := rest }

/-- DESIGN CHOICE (log entries 5, 31 and 86): with no command waiting the block idles for one nanosecond. What was sent has left, RAW is one more unless POR or SYS holds, and no memory, staged value or OTP bit changes. Unless the wait of stage 0x09 for a DisplayPort source ends with that nanosecond, tephra takes no entry and of the registers only RST_STAGE.ELAPSED_MS and, of each lane whose PRBS checker runs, its lock, bit count and error count change; where that wait ends, stage 0x09 has failed and ALERT_N is asserted. -/
def Obligations.IdleStepPassesOneNanosecond : Prop :=
  ∀ s : State, s.pending = [] →
    ∃ t, step s = .next t ∧ t.out = [] ∧ (∀ p ∈ t.wires, p.2.sent = []) ∧ t.pending = [] ∧ t.rst.hold = s.rst.hold ∧ t.staged = s.staged ∧
      t.dram = s.dram ∧ t.nv = s.nv ∧ t.otp = s.otp ∧
      t.time.raw = (if s.rst.hold = .por ∨ s.rst.hold = .sys then s.time.raw else s.time.raw + 1) ∧
      let waits := s.get R.RST_STAGE_STAGE = 8 ∧ s.flag R.RST_STAGE_FAIL = false ∧ s.flag R.RST_STRAP_INPUT = true ∧ s.rst.inputReady = false
      (¬ (waits ∧ 600000000 ≤ s.rst.inputNs + 1) →
        t.teph = s.teph ∧
        ∀ k, k ≠ R.RST_STAGE_ELAPSED_MS.base →
          (∀ p ∈ s.lane.prbs, k ≠ R.LANE_STAT_PRBS_LOCK.off p.lane 0 ∧ k ≠ R.LANE_PRBS_BITS.off p.lane 0 ∧ k ≠ R.LANE_PRBS_BITS.off p.lane 0 + 4 ∧
            k ≠ R.LANE_PRBS_ERR.off p.lane 0) → t.word k = s.word k) ∧
      (waits ∧ 600000000 ≤ s.rst.inputNs + 1 → t.flag R.RST_STAGE_FAIL = true ∧ t.get R.RST_STAGE_STAGE = 8 ∧ t.pins.alert = true)

/-- State.reset is the module while POR holds: every word reads the reset value its field table gives, nothing is staged, no DRAM byte is listed, the tephra queue and ring, the strobes and the command queue are empty, and the sparse memories have their canonical form (keys strictly rising, no entry equal to what an unlisted key reads as). Where a field table gives no reset value the model's log names the one it takes. -/
def Obligations.ResetHoldsPorWithEveryRegisterAtItsReset : Prop :=
  State.reset.rst.hold = .por ∧ (∀ k, State.reset.word k = resetWord k) ∧ (∀ k, State.reset.stagedWord k = resetWord k) ∧
    (∀ a, State.reset.readByte a = 0) ∧ State.reset.teph.queue = [] ∧ State.reset.teph.ring = [] ∧ State.reset.strobes = [] ∧
    State.reset.pending = [] ∧ State.memoriesWf State.reset = true

/-- From every state whose sparse memories have their canonical form, a step that answers a next state gives one whose memories have it, whatever command is in front of the queue. So equal memories are equal data. -/
def Obligations.MemoriesStayCanonical : Prop :=
  ∀ s t : State, State.memoriesWf s = true → step s = .next t → State.memoriesWf t = true

/-- Whatever command runs, the rows of both security-version counters stay and new ones come after them, no ENROLLED, CLOSED or HSS anchor bit clears, and the HSS flash index never goes back; outside the eleven commands that burn OTP it is unchanged whole. -/
def Obligations.OtpOnlyGrows : Prop :=
  (∀ s t : State, step s = .next t → OtpGrows s.otp t.otp) ∧
  (∀ (c : Instr) (s t : State), Part.otp ∉ c.reach.parts → exec c s = .next t → t.otp = s.otp)

/-- For every state a step that answers a next state leaves the queue without its front command, and exec of any command leaves the queue it is given unchanged. -/
def Obligations.QueueIsFirstInFirstOut : Prop :=
  (∀ s t : State, step s = .next t → t.pending = s.pending.tail) ∧ ∀ (c : Instr) (s t : State), exec c s = .next t → t.pending = s.pending

/-- For every command and every state, exec answers a next state: a command whose condition does not hold changes nothing, and a bus error is an effect on the state. -/
def Obligations.EveryCommandCompletes : Prop :=
  ∀ (c : Instr) (s : State), ∃ t, exec c s = .next t

/-- Instr.reach names for each of the 310 commands the registers it may write and the parts of the state it may change. Whenever exec answers a next state, every register word outside those registers reads as before, every other part (staged values, each block, OTP, flash, module DRAM with every byte of it) is the same, and so is the queue. A command that writes a register by its address, and one that resets the module, may write any register. -/
def Obligations.FrameOfEveryCommand : Prop :=
  ∀ (c : Instr) (s t : State), exec c s = .next t → Stays c s t

/-- For a field of at most one pair of words and an element it counts: after a write the field reads the value modulo its width; a field of other words, or of other bits of the same word, reads as before; beyond the elements the field counts nothing is written. -/
def Obligations.FieldReadAfterWrite : Prop :=
  (∀ (s : State) (f : Fld) (v i j : Nat), f.lsb + f.width ≤ 64 → f.inRange i j → (s.put f v i j).get f i j = v % 2 ^ f.width) ∧
  (∀ (s : State) (f g : Fld) (v i j k l : Nat), f.apart i j g k l → (s.put f v i j).get g k l = s.get g k l) ∧
  (∀ (s : State) (f : Fld) (v i j : Nat), ¬ f.inRange i j → s.put f v i j = s)

/-- Of every block: raising flag n sets bit n of IRQ_STATUS and no other bit; when the line (the OR of STATUS and MASK) rises, the message of the routed vector is sent if MSI-X is enabled and neither function nor vector masks it, else the vector's pending bit is set; when the line does not rise nothing is sent. MSIX_PENDING_SEND takes the capability's Enable and Function Mask as the host has set them. Afterwards a vector's pending bit stands only if it stood before and the vector, the function or a disabled MSI-X masks it; for a vector that was pending and is masked no more its message, with the address and data of its table entry, is among what was sent.

Each clause concludes that exec answers a next state. Commands it says so of: msixPendingSend. -/
def Obligations.RaisedFlagSetsStatusAndSendsOnRise : Prop :=
  (∀ (s : State) (b : Blk) (n : Nat), n < 32 → (s.raise b n).word b.status = s.word b.status ||| BitVec.ofNat 32 (2 ^ n)) ∧
  (∀ (s : State) (b : Blk) (n : Nat), s.irqLine b = true → (s.raise b n).out = s.out ∧ (s.raise b n).get R.HOST_MSIX_PBA = s.get R.HOST_MSIX_PBA) ∧
  (∀ (s : State) (b : Blk) (n v : Nat), n < 32 → s.irqLine b = false → (s.word (b.status + 4)).getLsbD n = true →
    s.get R.CTL_IRQ_ROUTE b.num = v → v < 64 →
    (s.host.msixEnable = true ∧ s.host.functionMask = false ∧ s.flag R.HOST_MSIX_CTRL v = false →
      (s.raise b n).out = .msix v (s.get R.HOST_MSIX_ADDR v) (BitVec.ofNat 32 (s.get R.HOST_MSIX_DATA v)) :: s.out) ∧
    (s.host.msixEnable = false ∨ s.host.functionMask = true ∨ s.flag R.HOST_MSIX_CTRL v = true →
      (s.raise b n).out = s.out ∧ ((s.raise b n).get R.HOST_MSIX_PBA).testBit v = true)) ∧
  (∀ (s : State) (enable mask : Bool), ∃ t, exec (.msixPendingSend enable mask) s = .next t ∧
      t.host.msixEnable = enable ∧ t.host.functionMask = mask ∧
      (∀ v, v < 64 → (t.get R.HOST_MSIX_PBA).testBit v = ((s.get R.HOST_MSIX_PBA).testBit v && (!enable || mask || s.flag R.HOST_MSIX_CTRL v))) ∧
      (∀ v, v < 64 → ((s.get R.HOST_MSIX_PBA).testBit v && enable && !mask && !s.flag R.HOST_MSIX_CTRL v) = true → Emit.msix v (s.get R.HOST_MSIX_ADDR v) (BitVec.ofNat 32 (s.get R.HOST_MSIX_DATA v)) ∈ t.out) ∧
      t.teph = s.teph)

/-- POR_ASSERT leaves the machine as after reset but for flash, OTP and the queue. In a module that runs: RESET_N (unless a power-fail save is due), TAMPER_N and the watchdog of a running caretaker set PIN, TAMPER, WDOG and SYS begins to be entered; a software request with the right key sets SW_SYS or SW_CORE and begins that level; a fatal fabric error sets FABRIC_FATAL and begins CORE. A rail that was ON is being powered off for SYS. During the option and trim load a SYS source sets its flag and LOAD_HELD and the load goes on. While SYS is being entered, or POR or SYS holds, another SYS request only sets its flag. A RST_REQ write of the partner, or one with a wrong key, sets no flag and enters no level.

Each clause concludes that exec answers a next state. Commands it says so of: porAssert, resetPin, tamperEvent, watchdogExpiry, rstReqSys, rstReqCore, fabricFatal. -/
def Obligations.ResetSourcesSetCauseAndEnterOrWait : Prop :=
  (∀ (s : State) (src : PorSource), ∃ t, exec (.porAssert src) s = .next t ∧
      t.rst.hold = .por ∧
      t.nv = s.nv ∧
      t.dram = [] ∧
      t.staged = [] ∧
      t.pending = s.pending ∧
      (∀ k, k ≠ R.RST_CAUSE.base → t.word k = resetWord k)) ∧
  (∀ (s : State), s.rst.hold = .run → s.rst.sysEntering = false → s.teph.saveDue ≠ some 1 → ∃ t, exec (.resetPin) s = .next t ∧
      t.flag R.RST_CAUSE_PIN = true ∧
      t.rst.srcPin = true ∧
      t.rst.sysEntering = true ∧
      (s.get R.RAIL_STAT_STATE = 2 → t.get R.RAIL_STAT_STATE = 4)) ∧
  (∀ (s : State), s.rst.hold = .run → s.rst.sysEntering = false → s.teph.saveDue ≠ some 1 → ∃ t, exec (.tamperEvent) s = .next t ∧
      t.flag R.RST_CAUSE_TAMPER = true ∧
      t.rst.srcTamper = true ∧
      t.rst.sysEntering = true) ∧
  (∀ (s : State),
      s.rst.hold = .run → s.rst.sysEntering = false → s.flag R.CARE_STAT_RUNNING = true →
      ∃ t, exec (.watchdogExpiry) s = .next t ∧
      t.flag R.RST_CAUSE_WDOG = true ∧
      t.rst.sysEntering = true) ∧
  (∀ (s : State) (r : Req),
      s.rst.hold = .run → s.rst.sysEntering = false → r ≠ .partner →
      ∃ t, exec (.rstReqSys r 0xC0DE) s = .next t ∧
      t.flag R.RST_CAUSE_SW_SYS = true ∧
      t.rst.sysEntering = true) ∧
  (∀ (s : State) (r : Req),
      s.rst.hold = .run → s.rst.coreEntering = false → r ≠ .partner →
      ∃ t, exec (.rstReqCore r 0xC0DE) s = .next t ∧
      t.flag R.RST_CAUSE_SW_CORE = true ∧
      t.rst.coreEntering = true ∧
      t.rst.hold = .run) ∧
  (∀ (s : State), s.rst.hold = .run → s.rst.coreEntering = false → ∃ t, exec (.fabricFatal) s = .next t ∧
      t.flag R.RST_CAUSE_FABRIC_FATAL = true ∧
      t.rst.srcFatal = true ∧
      t.rst.coreEntering = true) ∧
  (∀ (s : State), s.rst.hold = .load → s.teph.saveDue ≠ some 1 → ∃ t, exec (.resetPin) s = .next t ∧
      t.flag R.RST_CAUSE_PIN = true ∧
      t.flag R.RST_CAUSE_LOAD_HELD = true ∧
      t.rst.loadHeld = true ∧
      t.rst.hold = .load) ∧
  (∀ (s : State) (r : Req),
      (s.rst.sysEntering = true ∨ s.rst.hold = .sys) → s.rst.hold ≠ .load → r ≠ .partner →
      ∃ t, exec (.rstReqSys r 0xC0DE) s = .next t ∧
      t = s.put R.RST_CAUSE_SW_SYS 1) ∧
  (∀ (s : State) (r : Req) (key : Nat), (r = .partner ∨ key ≠ 0xC0DE) → ∃ t, exec (.rstReqSys r key) s = .next t ∧
      t.get R.RST_CAUSE = s.get R.RST_CAUSE ∧
      t.rst = s.rst) ∧
  (∀ (s : State) (r : Req) (key : Nat), (r = .partner ∨ key ≠ 0xC0DE) → ∃ t, exec (.rstReqCore r key) s = .next t ∧
      t.get R.RST_CAUSE = s.get R.RST_CAUSE ∧
      t.rst = s.rst)

/-- SYS takes hold once the rails are off: flash, OTP and the tephra record stay, the cause flags stay, everything else beside the caretaker's inbound codes is as after reset and SYS_COUNT advances. CORE takes hold when no subframe is in flight, or at once for a fatal fabric error: no tile holds a personality, no picture, band or blitter command is in progress, a module that holds the drive sends hold symbols, the memory requests of blocks that CORE spares wait, and OTP is untouched. Releasing CORE lets the module run with the compositor not READY; an active slot whose digest still matches preloads again, and a pending activation stays; releasing SYS starts the option and trim load. The end of the load with a SYS source held off is SYS; else the module runs, or stays in CORE for a fatal error still pending.

Each clause concludes that exec answers a next state. Commands it says so of: sysTakesHold, coreTakesHold, resetRelease, trimLoadDone. -/
def Obligations.ResetLevelsTakeHoldAndRelease : Prop :=
  (∀ (s : State),
      s.rst.sysEntering = true → (s.get R.RAIL_STAT_STATE = 0 ∨ s.get R.RAIL_STAT_STATE = 5) →
      ∃ t, exec (.sysTakesHold) s = .next t ∧
      t.rst.hold = .sys ∧
      t.nv = s.nv ∧
      t.rst.sysEntering = false ∧
      t.dram = [] ∧
      t.staged = [] ∧
      t.flag R.RST_CAUSE_PIN = s.flag R.RST_CAUSE_PIN ∧
      t.flag R.RST_CAUSE_SW_SYS = s.flag R.RST_CAUSE_SW_SYS ∧
      t.get R.RST_CAUSE_SYS_COUNT = min (s.get R.RST_CAUSE_SYS_COUNT + 1) 65535 ∧
      t.teph.ring = s.teph.ring) ∧
  (∀ (s : State),
      s.rst.coreEntering = true → s.rst.hold = .run → (s.rst.srcFatal = true ∨ s.pseq.inFlight = false) →
      ∃ t, exec (.coreTakesHold) s = .next t ∧
      t.rst.hold = .core ∧
      t.rst.coreEntering = false ∧
      t.fab.tiles = [] ∧
      t.intk.jobs = [] ∧
      t.pseq.bands = [] ∧
      t.blt.cmd = none ∧
      t.mem.queue = s.mem.queue.filter coreSpares ∧
      t.otp = s.otp ∧
      (t.flag R.PAIR_STAT_DRIVE = true → .hold ∈ t.out)) ∧
  (∀ (s : State),
      s.rst.hold = .core → s.flag R.PERS_STATE_ACTIVE_VALID = false → s.mem.freqHeld = none →
      ∃ t, exec (.resetRelease) s = .next t ∧
      t.rst.hold = .run ∧
      t.rst.srcFatal = false ∧
      t.flag R.COMP_STAT_READY = false) ∧
  (∀ (s : State),
      s.rst.hold = .core → s.flag R.PERS_STATE_ACTIVE_VALID = true → s.sec.blobs = [] → s.slotDigest s.activeSlot = Config.sha384 (s.readBytes (s.slotArea s.activeSlot) (s.slotFile s.activeSlot 0x1C 4)) →
      ∃ t, exec (.resetRelease) s = .next t ∧
      t.rst.hold = .run ∧
      t.pers.reload = some s.activeSlot ∧
      t.slotState s.activeSlot = 4 ∧
      t.flag R.PERS_STATE_PRELOADING = true ∧
      t.pers.pend = s.pers.pend) ∧
  (∀ (s : State), s.rst.hold = .sys → ∃ t, exec (.resetRelease) s = .next t ∧
      t.rst.hold = .load ∧
      t.rst.srcPin = false ∧
      t.rst.srcTamper = false) ∧
  (∀ (s : State) (reading : Nat), s.rst.hold = .load → s.rst.loadHeld = true → ∃ t, exec (.trimLoadDone reading) s = .next t ∧
      t.rst.hold = .sys ∧
      t.rst.loadHeld = false) ∧
  (∀ (s : State) (reading : Nat), s.rst.hold = .load → s.rst.loadHeld = false → ∃ t, exec (.trimLoadDone reading) s = .next t ∧
      (t.rst.hold = (if s.rst.srcFatal then .core else .run)) ∧
      t.get R.RST_STRAP_READING = min reading 1023 ∧
      t.get R.RST_STAGE_STAGE = 2)

/-- RAIL_CMD ON from OFF and RESTART from LOCKED_OFF start the power-on (RAIL_STAT.STATE 1, AVDD first) unless a crack reading locks the rails; a MIRROR or a DETACHED module waits for the panel's rails instead (RESTART takes it to OFF); OFF starts the power-off; RELEARN orders new baselines. A power-good of the rail awaited sets its PG bit and the next rail of Timing 12.1 starts. At the end of the lines the discharge starts or is skipped; each phase end takes its rails' power-good and starts the next phase, and after the sixth the rails are OFF or LOCKED_OFF with OFF_DONE. A module without the drive raises its rails to standby when it senses the panel up.

Each clause concludes that exec answers a next state. Commands it says so of: railCmdOn, railCmdOff, railCmdRestart, railCmdRelearn, railPowerGood, dischargeStart, powerOffPhaseEnd, standbyRailSense. -/
def Obligations.RailPowerOnAndOff : Prop :=
  (∀ (s : State) (r : Req) (readings : List CrackRead),
      r ≠ .partner → s.get R.RAIL_STAT_STATE = 0 → s.railGuest = false →
      ∃ t, exec (.railCmdOn r 0x0A11 readings) s = .next t ∧
      (t.get R.RAIL_STAT_STATE = 1 ∨ t.get R.RAIL_STAT_STATE = 5) ∧
      (readings = [] → t.get R.RAIL_STAT_STATE = 1 ∧ t.rail.seq = .ramp 0) ∧
      t.rail.relearn = false) ∧
  (∀ (s : State) (r : Req),
      r ≠ .partner → (s.get R.RAIL_STAT_STATE = 1 ∨ s.get R.RAIL_STAT_STATE = 2 ∨ s.get R.RAIL_STAT_STATE = 3) →
      ∃ t, exec (.railCmdOff r 0x0A11) s = .next t ∧
      t.get R.RAIL_STAT_STATE = 4 ∧
      t.rail.seq = .waitLines ∧
      t.pseq.noLaunch = true ∧
      t.rail.endLocked = false) ∧
  (∀ (s : State) (r : Req) (readings : List CrackRead),
      r ≠ .partner → s.get R.RAIL_STAT_STATE = 5 → s.railGuest = false →
      ∃ t, exec (.railCmdRestart r 0x0A11 readings) s = .next t ∧
      (t.get R.RAIL_STAT_STATE = 1 ∨ t.get R.RAIL_STAT_STATE = 5) ∧
      (readings = [] → t.get R.RAIL_STAT_STATE = 1 ∧ t.rail.seq = .ramp 0)) ∧
  (∀ (s : State) (r : Req) (readings : List CrackRead),
      r ≠ .partner → s.get R.RAIL_STAT_STATE = 0 → s.railGuest = true →
      ∃ t, exec (.railCmdOn r 0x0A11 readings) s = .next t ∧
      t = s) ∧
  (∀ (s : State) (r : Req) (readings : List CrackRead),
      r ≠ .partner → s.get R.RAIL_STAT_STATE = 5 → s.railGuest = true →
      ∃ t, exec (.railCmdRestart r 0x0A11 readings) s = .next t ∧
      t = s.put R.RAIL_STAT_STATE 0) ∧
  (∀ (s : State) (r : Req), r ≠ .partner → ∃ t, exec (.railCmdRelearn r 0x0A11) s = .next t ∧
      t = { s with rail := { s.rail with relearn := true } }) ∧
  (∀ (s : State) (ch : Nat) (mv : Int) (ma : Nat),
      s.rail.seq = .ramp ch → ch < 4 →
      ∃ t, exec (.railPowerGood ch mv ma) s = .next t ∧
      t.get R.RAIL_STAT_PG = Word.setBit (s.get R.RAIL_STAT_PG) ch ∧
      t.rail.seq = .ramp (nextRail ch) ∧
      t.get R.RAIL_CH_MEAS_MA ch = min ma 65535 ∧
      t.get R.RAIL_CH_PEAK ch = max (s.get R.RAIL_CH_PEAK ch) (min ma 65535)) ∧
  (∀ (s : State) (ch : Nat) (mv : Int) (ma : Nat),
      s.rail.seq = .ramp 4 → (ch = 4 ∨ ch = 5) → (s.get R.RAIL_STAT_PG).testBit (9 - ch) = true →
      ∃ t, exec (.railPowerGood ch mv ma) s = .next t ∧
      t.rail.seq = .idle ∧
      (t.get R.RAIL_STAT_STATE = (if s.rail.standby then 3 else 2)) ∧
      t.flag R.RAIL_STAT_DRIVE = !s.rail.standby ∧
      t.flag R.RAIL_IRQ_STATUS_ON_DONE = true ∧
      t.pseq.noLaunch = false) ∧
  (∀ (s : State) (atLineEnd : Bool), s.rail.seq = .waitLines → ∃ t, exec (.dischargeStart atLineEnd) s = .next t ∧
      (t.rail.seq = (if s.dischargeSkipped then .off 1 else .off 0)) ∧
      t.flag R.RAIL_STAT_DISCHARGE_SKIPPED = s.dischargeSkipped ∧
      t.pseq.inFlight = false) ∧
  (∀ (s : State) (p : Nat), s.rail.seq = .off p → p < 6 → ∃ t, exec (.powerOffPhaseEnd) s = .next t ∧
      t.rail.seq = .off (p + 1) ∧
      t.get R.RAIL_STAT_PG = (phaseRails p).foldl Word.clearBit (s.get R.RAIL_STAT_PG) ∧
      (p = 2 → t.get R.RAIL_STAT_VCOM_SW = 0)) ∧
  (∀ (s : State), s.rail.seq = .off 6 → ∃ t, exec (.powerOffPhaseEnd) s = .next t ∧
      t.rail.seq = .idle ∧
      (t.get R.RAIL_STAT_STATE = (if s.rail.endLocked then 5 else 0)) ∧
      t.get R.RAIL_STAT_PG = 0 ∧
      t.get R.RAIL_STAT_DRIVE = 0 ∧
      t.get R.RAIL_STAT_VCOM_SW = 0 ∧
      t.flag R.RAIL_IRQ_STATUS_OFF_DONE = true ∧
      t.rail.retryDue = (s.rail.byFault && !s.rail.endLocked && !s.inPair)) ∧
  (∀ (s : State), s.isMirror = true → s.get R.RAIL_STAT_STATE = 0 → ∃ t, exec (.standbyRailSense true) s = .next t ∧
      t.get R.RAIL_STAT_STATE = 1 ∧
      t.rail.seq = .ramp 0 ∧
      t.rail.standby = true)

/-- A fault of each kind on channels below 6, with the rails up, sets its bit of RAIL_FAULT, advances the counter of the channel, names the lowest channel in FAULT_INFO, sets the FAULT flag and ALERT_N, and starts the fast power-off, which overvoltage ends in LOCKED_OFF; a power-good that never comes is an undervoltage. VCOM overcurrent reports its region at 50 mA and the rails stay. A retry that is due and cooled powers on and counts; 60 s without a fault clear the count. A crack reading of a loop is reported with its class.

Each clause concludes that exec answers a next state. Commands it says so of: railFaultUv, railFaultOc, railFaultShort, railFaultOv, railFaultTemp, railPgTimeout, railConverterCooled, vcomOc, railRetryTimer, retryCountReset, loadTransferDone, crackTimer. -/
def Obligations.RailFaultsRetriesAndCracks : Prop :=
  (∀ (s : State) (c : Nat), c < 6 → s.get R.RAIL_STAT_STATE = 2 → ∃ t, exec (.railFaultUv [c]) s = .next t ∧
      t.flag R.RAIL_FAULT_UV = true ∧
      t.get R.RAIL_CH_FAULTS_UV c = min (s.get R.RAIL_CH_FAULTS_UV c + 1) (2 ^ R.RAIL_CH_FAULTS_UV.width - 1) ∧
      t.get R.RAIL_FAULT_INFO_CHANNEL = c ∧
      t.get R.RAIL_FAULT_INFO_KIND = 0 ∧
      t.flag R.RAIL_IRQ_STATUS_FAULT = true ∧
      t.pins.alert = true ∧
      t.get R.RAIL_STAT_STATE = 4 ∧
      t.rail.seq = .waitLines) ∧
  (∀ (s : State) (c : Nat), c < 6 → s.get R.RAIL_STAT_STATE = 2 → ∃ t, exec (.railFaultOc [c]) s = .next t ∧
      t.flag R.RAIL_FAULT_OC = true ∧
      t.get R.RAIL_CH_FAULTS_OC c = min (s.get R.RAIL_CH_FAULTS_OC c + 1) (2 ^ R.RAIL_CH_FAULTS_OC.width - 1) ∧
      t.get R.RAIL_FAULT_INFO_CHANNEL = c ∧
      t.get R.RAIL_FAULT_INFO_KIND = 1 ∧
      t.get R.RAIL_STAT_STATE = 4) ∧
  (∀ (s : State) (c : Nat), c < 6 → s.get R.RAIL_STAT_STATE = 2 → ∃ t, exec (.railFaultShort [c]) s = .next t ∧
      t.flag R.RAIL_FAULT_SHORT = true ∧
      t.get R.RAIL_CH_FAULTS_OC c = min (s.get R.RAIL_CH_FAULTS_OC c + 1) (2 ^ R.RAIL_CH_FAULTS_OC.width - 1) ∧
      t.get R.RAIL_FAULT_INFO_KIND = 2 ∧
      t.get R.RAIL_STAT_STATE = 4) ∧
  (∀ (s : State) (c : Nat), c < 6 → s.get R.RAIL_STAT_STATE = 2 → ∃ t, exec (.railFaultOv [c]) s = .next t ∧
      t.flag R.RAIL_FAULT_OV = true ∧
      t.get R.RAIL_CH_FAULTS_OV c = min (s.get R.RAIL_CH_FAULTS_OV c + 1) (2 ^ R.RAIL_CH_FAULTS_OV.width - 1) ∧
      t.get R.RAIL_FAULT_INFO_KIND = 3 ∧
      t.get R.RAIL_STAT_STATE = 4 ∧
      t.rail.endLocked = true) ∧
  (∀ (s : State) (c : Nat), c < 6 → s.get R.RAIL_STAT_STATE = 2 → ∃ t, exec (.railFaultTemp [c]) s = .next t ∧
      t.flag R.RAIL_FAULT_TEMP = true ∧
      t.get R.RAIL_CH_FAULTS_TEMP c = min (s.get R.RAIL_CH_FAULTS_TEMP c + 1) (2 ^ R.RAIL_CH_FAULTS_TEMP.width - 1) ∧
      t.get R.RAIL_FAULT_INFO_KIND = 4 ∧
      t.get R.RAIL_STAT_STATE = 4 ∧
      t.rail.hot = s.rail.hot ++ [c]) ∧
  (∀ (s : State) (c d : Nat), c < d → d < 6 → s.get R.RAIL_STAT_STATE = 2 → ∃ t, exec (.railFaultOc [d, c]) s = .next t ∧
      t.get R.RAIL_FAULT_INFO_CHANNEL = c ∧
      t.rail.stopped = [d, c]) ∧
  (∀ (s : State) (ch : Nat),
      s.rail.seq = .ramp ch → ch < 5 → s.get R.RAIL_STAT_STATE = 1 →
      ∃ t, exec (.railPgTimeout ch) s = .next t ∧
      t.flag R.RAIL_FAULT_UV = true ∧
      t.get R.RAIL_FAULT_INFO_CHANNEL = ch ∧
      t.get R.RAIL_STAT_STATE = 4) ∧
  (∀ (s : State) (ch : Nat), ∃ t, exec (.railConverterCooled ch) s = .next t ∧
      t = { s with rail := { s.rail with hot := s.rail.hot.filter (· ≠ ch) } }) ∧
  (∀ (s : State) (region : Nat) (sink : Bool), region < 16 → ∃ t, exec (.vcomOc region sink) s = .next t ∧
      t.get R.RAIL_VCOM_MA region = 50 ∧
      t.flag R.RAIL_VCOM_SINK region = sink ∧
      t.flag R.RAIL_FAULT_VCOM_OC = true ∧
      t.flag R.RAIL_IRQ_STATUS_FAULT = true ∧
      t.get R.RAIL_STAT_STATE = s.get R.RAIL_STAT_STATE) ∧
  (∀ (s : State) (readings : List CrackRead),
      s.rail.retryDue = true → s.rail.hot = [] → s.get R.RAIL_STAT_STATE = 0 →
      ∃ t, exec (.railRetryTimer readings) s = .next t ∧
      t.get R.RAIL_STAT_RETRIES = min (s.get R.RAIL_STAT_RETRIES + 1) (2 ^ R.RAIL_STAT_RETRIES.width - 1) ∧
      (t.get R.RAIL_STAT_STATE = 1 ∨ t.get R.RAIL_STAT_STATE = 5) ∧
      t.rail.retryDue = false) ∧
  (∀ (s : State), s.get R.RAIL_STAT_STATE = 2 → ∃ t, exec (.retryCountReset) s = .next t ∧
      t = s.put R.RAIL_STAT_RETRIES 0) ∧
  (∀ (s : State), s.rail.transferDue = true → ∃ t, exec (.loadTransferDone) s = .next t ∧
      t.flag R.RAIL_IRQ_STATUS_TRANSFER = true ∧
      t.rail.transferDue = false) ∧
  (∀ (s : State) (reading : CrackRead) (outer : Bool),
      (s.get R.RAIL_STAT_STATE = 0 ∨ s.get R.RAIL_STAT_STATE = 1 ∨ s.get R.RAIL_STAT_STATE = 5) → s.isMirror = false → s.rail.standby = false →
      ∃ t, exec (.crackTimer reading outer) s = .next t ∧
      t.get R.RAIL_CRACK_MEAS_OHM (Word.ofBool outer) = min reading.ohm 65535 ∧
      t.get R.RAIL_CRACK_STAT_CLASS (Word.ofBool outer) = crackClass (s.get R.RAIL_CRACK_MEAS_BASE (Word.ofBool outer)) (s.get R.RAIL_CRACK_CTRL_HIGH_PCT) reading)

/-- FIRMWARE_VERIFY_DONE takes the slot with the higher SVN first, slot 0 of equals: an image that passes the checks runs (CARE_STAT RUNNING, ROM clear, stage 0x03, FW_SLOT naming its slot, FW_SVN its version); if neither passes, FAIL is set, ALERT_N asserted and the ROM waits for a host image. HOST_BOOT_TIMEOUT under the host boot source does the same after recording the fallback. Whether an image verifies rests on the signature functions, which are free.

Each clause concludes that exec answers a next state. Commands it says so of: firmwareVerifyDone, hostBootTimeout. -/
def Obligations.BootRomRunsAVerifiedImage : Prop :=
  (∀ (s : State) (slot0 slot1 : List Byte), let first := if leAt slot0 0x10 8 < leAt slot1 0x10 8 then slot1 else slot0
      let second := if leAt slot0 0x10 8 < leAt slot1 0x10 8 then slot0 else slot1
      let ran := decide (s.imageCheck first = 0 ∨ s.imageCheck second = 0)
      s.inRom = true → s.rst.hostBootWait = false → ∃ t, exec (.firmwareVerifyDone slot0 slot1) s = .next t ∧
      t.rst.hostBootWait = !ran ∧
      (t.get R.RST_STAGE_STAGE = (if ran then 3 else s.get R.RST_STAGE_STAGE)) ∧
      (t.get R.RST_STAGE_FAIL = (if ran then 0 else 1)) ∧
      t.flag R.CARE_STAT_RUNNING = (ran || s.flag R.CARE_STAT_RUNNING) ∧
      t.flag R.CARE_STAT_ROM = !ran ∧
      t.pins.alert = (s.pins.alert || !ran)) ∧
  (∀ (s : State) (slot0 slot1 : List Byte), let first := if leAt slot0 0x10 8 < leAt slot1 0x10 8 then slot1 else slot0
      let second := if leAt slot0 0x10 8 < leAt slot1 0x10 8 then slot0 else slot1
      let ran := decide (s.imageCheck first = 0 ∨ s.imageCheck second = 0)
      s.inRom = true → s.rst.hostBootWait = true → s.flag R.RST_STRAP_BOOT_SRC = true → s.flag R.RST_STAGE_FAIL = false → ∃ t, exec (.hostBootTimeout slot0 slot1) s = .next t ∧
      t.rst.hostBootWait = !ran ∧
      (t.get R.RST_STAGE_FAIL = (if ran then 0 else 1)) ∧
      t.flag R.CARE_STAT_ROM = !ran)

/-- DRAM_TRAINING_DONE during boot sets MEM_MAP to the channels whose read and write eyes of both byte lanes are at least 16/64 UI wide, MEM_SIZE to 1,792 MiB each and MEM_HOST to 16,384; with fewer than 44 the stage fails. With CORE holding and a controller frozen, the failing channels are trained again: one that fails again makes the caretaker request SYS. DRAM_INIT_DONE leaves every location zero, every controller with a channel serving, and FREE_MIB the working pool.

Each clause concludes that exec answers a next state. Commands it says so of: dramTrainingDone, dramInitDone. -/
def Obligations.BootDramTrainsAndInitialises : Prop :=
  (∀ (s : State) (l : List ChanTrain), let used := (List.range 48).filter (fun k => l.any (fun c => c.ch = k && chanOk c))
      s.get R.MEM_C_STAT_STATE 0 = 1 → s.get R.MEM_SIZE = 0 → ∃ t, exec (.dramTrainingDone l) s = .next t ∧
      t.get R.MEM_MAP = used.foldl Word.setBit 0 ∧
      t.get R.MEM_SIZE = 1792 * used.length ∧
      t.get R.MEM_HOST = 16384 ∧
      t.rst.dramFail = (decide (used.length < 44) || s.rst.dramFail) ∧
      (used.length < 44 → t.flag R.RST_STAGE_FAIL = true)) ∧
  (∀ (s : State) (l : List ChanTrain),
      s.get R.MEM_SIZE ≠ 0 → s.rst.hold = .core → s.anyFrozen = true → s.rst.sysEntering = false → (s.frozenChans.any (fun k => !l.any (fun c => c.ch = k && chanOk c)) = true) →
      ∃ t, exec (.dramTrainingDone l) s = .next t ∧
      t.rst.sysEntering = true) ∧
  (∀ (s : State) (l : List ChanTrain) (k : Nat) (c : ChanTrain),
      s.get R.MEM_SIZE ≠ 0 → s.rst.hold = .core → s.frozenChans = [k] → (l.find? (fun c => c.ch = k) = some c) → chanOk c = true → c.ch = k →
      ∃ t, exec (.dramTrainingDone l) s = .next t ∧
      t.get R.MEM_CH_STAT_TRAIN (k / 8) (k % 8) = 1 ∧
      t.get R.MEM_CH_EYE_RD0 (k / 8) (k % 8) = min 63 (c.widths.getD 0 0) ∧
      t.get R.MEM_CH_EYE_WR1 (k / 8) (k % 8) = min 63 (c.widths.getD 3 0) ∧
      t.rst = s.rst) ∧
  (∀ (s : State) (maps : Option (List Byte × List Byte)),
      s.get R.MEM_C_STAT_STATE 0 = 1 → s.get R.MEM_SIZE ≠ 0 → s.rst.dramFail = false →
      ∃ t, exec (.dramInitDone maps) s = .next t ∧
      t.dram = [] ∧
      t.mem.ready = true ∧
      t.get R.MEM_FREE = (s.get R.MEM_SIZE - 35200 - s.get R.MEM_HOST) % 2 ^ 32 ∧
      (∀ a, t.readByte a = 0) ∧
      (∀ c, c < 6 → t.get R.MEM_C_STAT_STATE c = if s.get R.MEM_C_STAT_CHANNELS c = 0 then 0 else 2) ∧
      t.pseq.histReady = true ∧
      t.pseq.fullDue = true ∧
      (t.nv.maps = maps.map (fun p => (unifFile p.1, unifFile p.2))))

/-- PANEL_DESCRIPTOR_VERIFIED with a running caretaker takes the descriptor when it keeps Table 11.1 and verifies; otherwise FAIL is set and the retry timer runs, whose end lets the panel be read again. BASELINE_LOAD takes only the baseline of R606; with DRAM ready and no personality it loads slot 0: a file that fails a check of Table 4.8 is rejected with its code and stops stage 0x08, one that passes preloads with its activation pending; at stage 0x07 every tile ran its known-answer test. ETH_BRINGUP trains cage 0 in the mode given, and without a mode stops stage 0x09 of a stand-alone boot from Ethernet. DHCP_TIMEOUT gives a linked port 0 without an address a link-local one.

Each clause concludes that exec answers a next state. Commands it says so of: panelDescriptorVerified, panelRetryTimer, baselineLoad, ethBringup, dhcpTimeout. -/
def Obligations.BootPanelBaselineAndInput : Prop :=
  (∀ (s : State) (o : List Byte) (ports : List Nat),
      let good := descLayout o && decide (s.objectSig o = 0) && ports.all (fun p => p = ports.getD 0 0)
      s.flag R.CARE_STAT_RUNNING = true → s.pseq.desc = none → s.rst.panelRetry = false →
      ∃ t, exec (.panelDescriptorVerified (some o) ports) s = .next t ∧
      t.pseq.desc.isSome = good ∧
      t.rst.panelRetry = !good ∧
      (t.get R.PSEQ_PANEL_SIZE_WIDTH = (if good then leAt o 0x10 2 else s.get R.PSEQ_PANEL_SIZE_WIDTH)) ∧
      (t.get R.PSEQ_VCOM_CODE 15 = (if good then leAt o 0x11E 2 else s.get R.PSEQ_VCOM_CODE 15)) ∧
      t.pins.alert = (s.pins.alert || !good)) ∧
  (∀ (s : State) (ports : List Nat),
      s.flag R.CARE_STAT_RUNNING = true → s.pseq.desc = none → s.rst.panelRetry = false →
      ∃ t, exec (.panelDescriptorVerified none ports) s = .next t ∧
      t.flag R.RST_STAGE_FAIL = true ∧
      t.rst.panelRetry = true ∧
      t.pins.alert = true) ∧
  (∀ (s : State), ∃ t, exec (.panelRetryTimer) s = .next t ∧
      t.rst.panelRetry = false) ∧
  (∀ (s : State) (file : List Byte) (failed : List Nat),
      s.mem.ready = true → s.get R.RST_STAGE_STAGE = 7 → s.flag R.RST_STAGE_FAIL = false → s.flag R.PERS_STATE_ACTIVE_VALID = false → s.pers.pend = none → s.pers.loading = none → s.pers.reload = none → s.rst.hold = .run → (isBaseline (fun off n => leAt file off n) s.sec.baseSvn = true) → file.length ≤ 67108864 →
      ∃ t, exec (.baselineLoad file failed) s = .next t ∧
      (match (s.writeBytes (s.slotArea 0) file).checkFile (s.slotArea 0) file.length with
      | some (code, _) => t.get R.PERS_SLOT_STAT_STATE 0 = 3 ∧ t.get R.PERS_SLOT_STAT_ERR 0 = code % 2 ^ R.PERS_SLOT_STAT_ERR.width ∧ t.flag R.RST_STAGE_FAIL = true
      | none => t.get R.PERS_SLOT_STAT_STATE 0 = 4 ∧ t.pers.pend = some ⟨0, none, 0, none⟩ ∧ t.flag R.PERS_STATE_PRELOADING = true) ∧
      (∀ n, n < 400 → t.get R.FAB_TILE_KAT_DONE n = 1 ∧ t.flag R.FAB_TILE_KAT_PASS n = !failed.contains n)) ∧
  (∀ (s : State) (file : List Byte) (failed : List Nat),
      (isBaseline (fun off n => leAt file off n) s.sec.baseSvn = false) →
      ∃ t, exec (.baselineLoad file failed) s = .next t ∧
      t = s) ∧
  (∀ (s : State) (m : Nat) (links : List Nat) (lease : Option Nat),
      s.flag R.CARE_STAT_RUNNING = true → m < 3 →
      ∃ t, exec (.ethBringup (some m) links lease) s = .next t ∧
      t.get R.ETH_CAGE_CTRL 0 = m ∧
      t.getStaged R.ETH_CAGE_CTRL 0 = m ∧
      (0 ∈ links ∧ s.powerDown = false ∧ s.flag R.ETH_CAGE_STAT_POWER_DENIED 0 = false → t.flag R.ETH_PORT_STAT_LINK 0 = true)) ∧
  (∀ (s : State) (links : List Nat) (lease : Option Nat),
      s.flag R.CARE_STAT_RUNNING = true → s.get R.RST_STAGE_STAGE = 8 → s.flag R.RST_STAGE_FAIL = false → s.flag R.RST_STRAP_INPUT = false → s.rst.inputReady = false →
      ∃ t, exec (.ethBringup none links lease) s = .next t ∧
      t.flag R.RST_STAGE_FAIL = true ∧
      t.pins.alert = true) ∧
  (∀ (s : State) (addr : Nat), s.flag R.ETH_PORT_STAT_LINK 0 = true → s.ipv4 0 = 0 → ∃ t, exec (.dhcpTimeout addr) s = .next t ∧
      t.ipv4 0 = 0xA9FE0000 + addr % 2 ^ 16)

/-- For every requester whose accesses arrive and every 64-bit pair: a read of the LO half answers bits [31:0] and puts bits [63:32] in the requester's shadow, tagged with the pair, in place of any other; a read of the HI half answers the shadow when it is valid and tagged with this pair, and the shadow is then invalid; otherwise it answers the live bits. Nothing else of the machine changes, and the other requesters' shadows stay.

Each clause concludes that exec answers a next state. Commands it says so of: pairLoRead, pairHiRead. -/
def Obligations.PairReadsGoThroughTheShadow : Prop :=
  (∀ (s : State) (r q : Req) (off : Nat),
      s.reaches r = true → busKind off 4 = none → ((regAt off).map (fun p => p.1.half) = some Half.lo) → (r ≠ .host ∨ s.comp.heldHost = []) → q ≠ r →
      ∃ t, exec (.pairLoRead r off) s = .next t ∧
      t.bus.resp = .data (s.shownAt r off) ∧
      t.bus.shadow r = some ⟨off, s.shownAt r (off + 4)⟩ ∧
      t.bus.shadow q = s.bus.shadow q ∧
      t.bus.holdHost = s.bus.holdHost ∧ t.bus.holdCare = s.bus.holdCare ∧ t.bus.holdPartner = s.bus.holdPartner ∧
      { t with bus := s.bus } = s) ∧
  (∀ (s : State) (r q : Req) (off : Nat) (x : Shadow),
      s.reaches r = true → busKind off 4 = none → ((regAt off).map (fun p => p.1.half) = some Half.hi) → s.bus.shadow r = some x → x.pair + 4 = off → (r ≠ .host ∨ s.comp.heldHost = []) → q ≠ r →
      ∃ t, exec (.pairHiRead r off 4) s = .next t ∧
      t.bus.resp = .data x.data ∧
      t.bus.shadow r = none ∧
      t.bus.shadow q = s.bus.shadow q ∧
      { t with bus := s.bus } = s) ∧
  (∀ (s : State) (r : Req) (off : Nat),
      s.reaches r = true → busKind off 4 = none → ((regAt off).map (fun p => p.1.half) = some Half.hi) → ((s.bus.shadow r).all (fun x => x.pair + 4 ≠ off) = true) → (r ≠ .host ∨ s.comp.heldHost = []) →
      ∃ t, exec (.pairHiRead r off 4) s = .next t ∧
      t.bus.resp = .data (s.shownAt r off) ∧
      { t with bus := { t.bus with resp := s.bus.resp } } = s)

/-- R75, R76 and R77 for accesses that nothing held makes wait. A LO write changes no value. A HI write changes the HI half by its field types and, with a held LO half of this pair, the LO half as well, and invalidates the holding register; without one the LO half stays. A 64-bit read answers the LO half and the HI half of one instant; a 64-bit write is LO then HI in one step. A mirrored pair written on the MIRROR is dropped and counted (R450); the bit counter of a PRBS checker that runs takes no write (R80).

Each clause concludes that exec answers a next state. Commands it says so of: pairLoWrite, pairHiWrite, pairAccess64. -/
def Obligations.PairWritesGoThroughTheHoldingRegister : Prop :=
  (∀ (s : State) (r : Req) (off : Nat) (data : Word) (info : RegInfo),
      s.reaches r = true → busKind off 4 = none → ((regAt off).map (fun p => p.1) = some info) → info.half = .lo → (info.mir ≠ .yes ∨ r = .partner ∨ s.isMirror = false) → s.comp.heldHost = [] →
      ∃ t, exec (.pairLoWrite r off data) s = .next t ∧
      t.bus.hold r = some ⟨off, data⟩ ∧
      t.bus.resp = .done ∧
      { t with bus := s.bus } = s) ∧
  (∀ (s : State) (r : Req) (off : Nat) (data : Word) (info lo : RegInfo),
      let held := (s.bus.hold r).filter (fun x => decide (x.pair + 4 = off))
      s.reaches r = true → busKind off 4 = none → ((regAt off).map (fun p => p.1) = some info) → ((regAt (off - 4)).map (fun p => p.1) = some lo) → info.half = .hi → (info.mir ≠ .yes ∨ (s.isMirror = false ∧ s.isActive = false)) → (info.base ≠ R.COMP_BUF_BASE.base + 4 ∨ (s.get R.COMP_BUF_STAT_STATE ((off - R.COMP_BUF_BASE.base - 4) / R.COMP_BUF_BASE.s1) ≠ 1 ∧ s.get R.COMP_BUF_STAT_STATE ((off - R.COMP_BUF_BASE.base - 4) / R.COMP_BUF_BASE.s1) ≠ 2)) → (info.base ≠ R.LANE_PRBS_BITS.base + 4 ∨ s.prbsRuns ((off - R.LANE_PRBS_BITS.base - 4) / R.LANE_PRBS_BITS.s1) = false) → s.comp.heldHost = [] →
      ∃ t, exec (.pairHiWrite r off data false) s = .next t ∧
      t.bus.hold r = none ∧
      t.bus.resp = .done ∧
      t.word off = info.afterWrite (s.word off) data ∧
      (t.word (off - 4) = (match held with | some x => lo.afterWrite (s.word (off - 4)) x.data | none => s.word (off - 4))) ∧
      (info.rws ≠ 0 → t.stagedWord off = mergeBits (BitVec.ofNat 32 info.rws) (s.stagedWord off) data) ∧
      t.time = s.time ∧
      t.pers = s.pers) ∧
  (∀ (s : State) (r : Req) (off : Nat) (adv : Bool),
      s.reaches r = true → busKind off 8 = none → (r ≠ .host ∨ s.comp.heldHost = []) →
      ∃ t, exec (.pairAccess64 r off none adv) s = .next t ∧
      t.bus.resp = .data64 (s.shownAt r off) (s.shownAt r (off + 4)) ∧
      t.bus.shadow r = none ∧
      { t with bus := s.bus } = s) ∧
  (∀ (s : State) (r : Req) (off d : Nat) (lo info : RegInfo),
      s.reaches r = true → busKind off 8 = none → ((regAt off).map (fun p => p.1) = some lo) → ((regAt (off + 4)).map (fun p => p.1) = some info) → lo.half = .lo → info.half = .hi → lo.mir ≠ .yes → info.mir ≠ .yes → info.base ≠ R.COMP_BUF_BASE.base + 4 → info.base ≠ R.LANE_PRBS_BITS.base + 4 → s.comp.heldHost = [] →
      ∃ t, exec (.pairAccess64 r off (some d) false) s = .next t ∧
      t.bus.hold r = none ∧
      t.bus.resp = .done ∧
      t.word off = lo.afterWrite (s.word off) (BitVec.ofNat 32 d) ∧
      t.word (off + 4) = info.afterWrite (s.word (off + 4)) (BitVec.ofNat 32 (d / 2 ^ 32)) ∧
      t.time = s.time) ∧
  (∀ (s : State) (r : Req) (off : Nat) (data : Word) (adv : Bool) (info : RegInfo),
      s.reaches r = true → busKind off 4 = none → ((regAt off).map (fun p => p.1) = some info) → info.half = .hi → info.mir = .yes → r ≠ .partner → s.isMirror = true → s.comp.heldHost = [] →
      ∃ t, exec (.pairHiWrite r off data adv) s = .next t ∧
      t.word off = s.word off ∧
      t.word (off - 4) = s.word (off - 4) ∧
      t.staged = s.staged ∧
      t.bus.hold r = s.bus.hold r ∧
      t.get R.PAIR_DROP = min (s.get R.PAIR_DROP + 1) (2 ^ 32 - 1)) ∧
  (∀ (s : State) (r : Req) (n : Nat) (data : Word) (adv : Bool),
      s.reaches r = true → n < 120 → s.prbsRuns n = true → s.comp.heldHost = [] →
      ∃ t, exec (.pairHiWrite r (R.LANE_PRBS_BITS.off n 0 + 4) data adv) s = .next t ∧
      t.word (R.LANE_PRBS_BITS.off n 0) = s.word (R.LANE_PRBS_BITS.off n 0) ∧
      t.word (R.LANE_PRBS_BITS.off n 0 + 4) = s.word (R.LANE_PRBS_BITS.off n 0 + 4) ∧
      t.bus.resp = .done)

/-- A 32-bit write that arrives at a register without behaviour of its own, neither mirrored nor a pair half: RW and CNT bits take the data, W1C bits written 1 clear, RO and reserved bits stay, RWS bits are staged and keep their value in effect; the response is done. In the cycle of a hardware advance CNT bits ignore the write; writes of several requesters in one cycle are served host, caretaker, partner. An access that breaks R64 or R67 advances CTL_BUSERR_COUNT, sets BUSERR, captures offset and KIND by the precedence of R66 when no capture is held and sets only OVERFLOW when one is; a host write is dropped, a caretaker's gets a bus fault. While POR, SYS or the load holds the module nothing arrives.

Each clause concludes that exec answers a next state. Commands it says so of: registerWrite. -/
def Obligations.RegisterWritesFollowTheFieldTypes : Prop :=
  (∀ (s : State) (off data : Nat) (info : RegInfo),
      s.reaches .host = true → busKind off 4 = none → ((regAt off).map (fun p => p.1) = some info) → info.half = .one → info.mir = .no → (s.writeSpecial .host info off (((regAt off).map (fun p => p.2.1)).getD 0) (data % 2 ^ 32) [] = none) → s.comp.heldHost = [] → s.get R.COMP_CTRL_GUARD < 2 → blkAt off = none →
      ∃ t, exec (.registerWrite .host off 4 data [] [] false) s = .next t ∧
      t.word off = info.afterWrite (s.word off) (BitVec.ofNat 32 data) ∧
      (info.rws ≠ 0 → t.stagedWord off = mergeBits (BitVec.ofNat 32 info.rws) (s.stagedWord off) (BitVec.ofNat 32 data)) ∧
      (info.rws = 0 → t.staged = s.staged) ∧
      t.bus.resp = .done ∧
      t.dram = s.dram ∧
      t.out = s.out) ∧
  (∀ (s : State) (r : Req) (off width data kind : Nat) (l : List CrackRead),
      s.reaches r = true → busKind off width = some kind → (r ≠ .host ∨ s.comp.heldHost = []) → s.flag R.CTL_BUSERR_INFO_VALID = false →
      ∃ t, exec (.registerWrite r off width data l [] false) s = .next t ∧
      t.get R.CTL_BUSERR_COUNT = min (s.get R.CTL_BUSERR_COUNT + 1) (2 ^ 32 - 1) ∧
      t.flag R.CTL_IRQ_STATUS_BUSERR = true ∧
      t.get R.CTL_BUSERR_ADDR = off % 2 ^ 24 ∧
      t.get R.CTL_BUSERR_INFO_REQ = r.code ∧
      t.get R.CTL_BUSERR_INFO_KIND = kind ∧
      t.flag R.CTL_BUSERR_INFO_WRITE = true ∧
      t.flag R.CTL_BUSERR_INFO_VALID = true ∧
      (t.bus.resp = (match r with | .host => .dropped | .caretaker => .busFault | .partner => .partnerError)) ∧
      t.staged = s.staged ∧
      t.dram = s.dram) ∧
  (∀ (s : State) (r : Req) (off width data kind : Nat) (l : List CrackRead),
      s.reaches r = true → busKind off width = some kind → (r ≠ .host ∨ s.comp.heldHost = []) → s.flag R.CTL_BUSERR_INFO_VALID = true →
      ∃ t, exec (.registerWrite r off width data l [] false) s = .next t ∧
      t.get R.CTL_BUSERR_COUNT = min (s.get R.CTL_BUSERR_COUNT + 1) (2 ^ 32 - 1) ∧
      t.flag R.CTL_BUSERR_INFO_OVERFLOW = true ∧
      t.get R.CTL_BUSERR_ADDR = s.get R.CTL_BUSERR_ADDR ∧
      t.get R.CTL_BUSERR_INFO_KIND = s.get R.CTL_BUSERR_INFO_KIND ∧
      t.teph.queue = s.teph.queue) ∧
  (∀ (s : State) (r : Req) (off width data : Nat) (l : List CrackRead),
      s.reaches r = false →
      ∃ t, exec (.registerWrite r off width data l [] false) s = .next t ∧
      t.bus.resp = .none ∧
      { t with bus := s.bus } = s) ∧
  (∀ (s : State) (off data : Nat) (info : RegInfo),
      s.reaches .host = true → busKind off 4 = none → ((regAt off).map (fun p => p.1) = some info) → info.half = .one → info.mir = .no → (s.writeSpecial .host info off (((regAt off).map (fun p => p.2.1)).getD 0) (data % 2 ^ 32) [] = none) → s.comp.heldHost = [] → s.get R.COMP_CTRL_GUARD < 2 → blkAt off = none →
      ∃ t, exec (.registerWrite .host off 4 data [] [] true) s = .next t ∧
      t.word off = mergeBits (BitVec.ofNat 32 info.cnt) (info.afterWrite (s.word off) (BitVec.ofNat 32 data)) (s.word off) ∧
      t.bus.resp = .done) ∧
  (∀ (s : State) (r q : Req) (off width data other : Nat) (l : List CrackRead) (adv : Bool),
      r.code < q.code →
      ∃ t, exec (.registerWrite r off width data l [(q, other)] adv) s = .next t ∧
      (∃ u, exec (.registerWrite r off width data l [] adv) s = .next u ∧ exec (.registerWrite q off width other l [] adv) u = .next t)) ∧
  (∀ (s : State) (r q : Req) (off width data other : Nat) (l : List CrackRead) (adv : Bool),
      q.code < r.code →
      ∃ t, exec (.registerWrite r off width data l [(q, other)] adv) s = .next t ∧
      (∃ u, exec (.registerWrite q off width other l [] adv) s = .next u ∧ exec (.registerWrite r off width data l [] adv) u = .next t))

/-- For every requester and offset where a 32-bit read is valid: nothing outside the bus ports changes; a register that is no half of a pair leaves every shadow and holding register as it was. A host read behind writes that are held (R70) joins them and changes nothing else. Only a LO half latches the shadow, and only a HI half takes it.

Each clause concludes that exec answers a next state. Commands it says so of: pairHiRead, pairLoRead. -/
def Obligations.ReadsHaveNoSideEffects : Prop :=
  (∀ (s : State) (r : Req) (off : Nat),
      s.reaches r = true → busKind off 4 = none → (r ≠ .host ∨ s.comp.heldHost = []) →
      ∃ t, exec (.pairHiRead r off 4) s = .next t ∧
      { t with bus := s.bus } = s ∧
      t.bus.holdHost = s.bus.holdHost ∧ t.bus.holdCare = s.bus.holdCare ∧ t.bus.holdPartner = s.bus.holdPartner ∧
      ((regAt off).map (fun p => p.1.half) = some Half.one → { t.bus with resp := s.bus.resp } = s.bus ∧ t.bus.resp = .data (s.shownAt r off))) ∧
  (∀ (s : State) (off : Nat), s.reaches .host = true → s.comp.heldHost ≠ [] → ∃ t, exec (.pairLoRead .host off) s = .next t ∧
      t.comp.heldHost = s.comp.heldHost ++ [⟨.reg off 4 none, s.time.raw, false⟩] ∧
      { t with comp := s.comp } = s)

/-- A write of CTL_UPDATE sets the PENDING bit of every group it names and only those, each with the timing written; an at-time strobe carries the instant nearest TIME, and one already past sets LATE and applies at the next point. A group already pending sets REPLACED. On the ACTIVE a group with mirrored fields takes the point that LEAD_US gives (R447): an instant for a group that applies at once, else a subframe. A host write behind held writes waits with them. On the MIRROR a write by its own host or caretaker that names a group with mirrored fields is dropped and counted.

Each clause concludes that exec answers a next state. Commands it says so of: updateImmediate, updateNextSubframe, updateNextFrame, updateAtTime. -/
def Obligations.StrobesArePendingUntilTheyApply : Prop :=
  (∀ (s : State) (r : Req) (groups : Nat),
      (r = .partner ∨ s.isMirror = false) → (r ≠ .host ∨ s.comp.heldHost = []) →
      ∃ t, exec (.updateImmediate r groups) s = .next t ∧
      (∀ g, g < 16 → (t.get R.CTL_UPDATE_STAT_PENDING).testBit g = (groups.testBit g || (s.get R.CTL_UPDATE_STAT_PENDING).testBit g)) ∧
      (∀ g, g < 16 → (t.get R.CTL_UPDATE_LATE_REPLACED).testBit g = ((groups.testBit g && s.strobes.any (fun x => x.group = g)) || (s.get R.CTL_UPDATE_LATE_REPLACED).testBit g)) ∧
      (∀ g, g < 16 → groups.testBit g = true → t.strobes.find? (fun x => x.group = g) = some (if (s.isActive && groupMirrored g) = false then ⟨g, .immediate, 0, 0, none⟩ else if pointOf g = 0 then ⟨g, .immediate, 0, s.now + s.leadNs, none⟩ else ⟨g, .immediate, 0, 0, some (if 3 ≤ pointOf g then s.frameSfAt (s.now + s.leadNs) else s.sfAt (s.now + s.leadNs))⟩)) ∧
      (∀ g, g < 16 → groups.testBit g = false → t.strobes.find? (fun x => x.group = g) = s.strobes.find? (fun x => x.group = g)) ∧
      t.staged = s.staged) ∧
  (∀ (s : State) (r : Req) (groups : Nat),
      (r = .partner ∨ s.isMirror = false) → (r ≠ .host ∨ s.comp.heldHost = []) →
      ∃ t, exec (.updateNextSubframe r groups) s = .next t ∧
      (∀ g, g < 16 → groups.testBit g = true → t.strobes.find? (fun x => x.group = g) = some (if (s.isActive && groupMirrored g) = false then ⟨g, .nextSubframe, 0, 0, none⟩ else ⟨g, .nextSubframe, 0, 0, some (if 3 ≤ pointOf g then s.frameSfAt (s.now + s.leadNs) else s.sfAt (s.now + s.leadNs))⟩)) ∧
      (∀ g, g < 16 → (t.get R.CTL_UPDATE_STAT_PENDING).testBit g = (groups.testBit g || (s.get R.CTL_UPDATE_STAT_PENDING).testBit g))) ∧
  (∀ (s : State) (r : Req) (groups : Nat),
      (r = .partner ∨ s.isMirror = false) → (r ≠ .host ∨ s.comp.heldHost = []) →
      ∃ t, exec (.updateNextFrame r groups) s = .next t ∧
      (∀ g, g < 16 → groups.testBit g = true → t.strobes.find? (fun x => x.group = g) = some ⟨g, .nextFrame, 0, 0, if (s.isActive && groupMirrored g) = false then none else some (s.frameSfAt (s.now + s.leadNs))⟩) ∧
      (∀ g, g < 16 → (t.get R.CTL_UPDATE_STAT_PENDING).testBit g = (groups.testBit g || (s.get R.CTL_UPDATE_STAT_PENDING).testBit g))) ∧
  (∀ (s : State) (r : Req) (groups : Nat),
      (r = .partner ∨ s.isMirror = false) → (r ≠ .host ∨ s.comp.heldHost = []) →
      ∃ t, exec (.updateAtTime r groups) s = .next t ∧
      (∀ g, g < 16 → groups.testBit g = true → t.strobes.find? (fun x => x.group = g) = some ⟨g, .atTime, s.extend (s.get R.CTL_UPDATE_TIME), 0, none⟩) ∧
      (∀ g, g < 16 → (t.get R.CTL_UPDATE_LATE_LATE).testBit g = ((groups.testBit g && decide (s.extend (s.get R.CTL_UPDATE_TIME) < s.now)) || (s.get R.CTL_UPDATE_LATE_LATE).testBit g)) ∧
      (∀ g, g < 16 → (t.get R.CTL_UPDATE_STAT_PENDING).testBit g = (groups.testBit g || (s.get R.CTL_UPDATE_STAT_PENDING).testBit g))) ∧
  (∀ (s : State) (r : Req) (groups : Nat),
      s.isMirror = true → r ≠ .partner → ((List.range 16).any (fun g => groups.testBit g && groupMirrored g) = true) → (r ≠ .host ∨ s.comp.heldHost = []) →
      ∃ t, exec (.updateImmediate r groups) s = .next t ∧
      t.strobes = s.strobes ∧
      t.get R.CTL_UPDATE_STAT = s.get R.CTL_UPDATE_STAT) ∧
  (∀ (s : State) (groups : Nat), s.comp.heldHost ≠ [] → ∃ t, exec (.updateNextFrame .host groups) s = .next t ∧
      t.strobes = s.strobes ∧
      t.comp.heldHost = s.comp.heldHost ++ [⟨.reg R.CTL_UPDATE.base 4 (some (groups % 65536 + 65536 * 2)), s.time.raw, false⟩] ∧
      { t with comp := s.comp } = s)

/-- STROBE_APPLY of a group with a pending strobe that is due: PENDING clears, DONE and CTL_IRQ_STATUS.UPDATE are set, the strobe is gone, and staged values stay. For group 10 (nothing but the copy) every word in effect takes the RWS bits of its staged word and keeps its other bits. A group whose strobe is not due, and one without a pending strobe, leave everything as it was. VIEW_CTRL's writable bits take what is written.

Each clause concludes that exec answers a next state. Commands it says so of: strobeApply, viewCtrlWrite. -/
def Obligations.StrobesApplyTheStagedValues : Prop :=
  (∀ (s : State) (g : Nat) (x : Strobe),
      g < 16 → (s.strobes.find? (fun x => x.group = g) = some x) → ((pointOf g = 0 ∧ s.strobeNow x = true) ∨ (pointOf g = 1 ∧ strobeDue x s.renderPoint.1 s.renderPoint.2 false = true)) →
      ∃ t, exec (.strobeApply g) s = .next t ∧
      (t.get R.CTL_UPDATE_STAT_PENDING).testBit g = false ∧
      (t.get R.CTL_UPDATE_STAT_DONE).testBit g = true ∧
      t.flag R.CTL_IRQ_STATUS_UPDATE = true ∧
      (t.strobes.find? (fun x => x.group = g) = none)) ∧
  (∀ (s : State) (x : Strobe) (off : Nat) (info : RegInfo),
      (s.strobes.find? (fun x => x.group = 10) = some x) → s.strobeNow x = true → ((regAt off).map (fun p => p.1) = some info) → info.group = 10 → info.rws ≠ 0 →
      ∃ t, exec (.strobeApply 10) s = .next t ∧
      t.word off = mergeBits (BitVec.ofNat 32 info.rws) (s.word off) (s.stagedWord off) ∧
      t.staged = s.staged) ∧
  (∀ (s : State) (g : Nat), (s.strobes.find? (fun x => x.group = g) = none) → ∃ t, exec (.strobeApply g) s = .next t ∧
      t = s) ∧
  (∀ (s : State) (r : Req) (data : Nat),
      (s.isMirror = false ∨ r = .partner) → s.isActive = false →
      ∃ t, exec (.viewCtrlWrite r data) s = .next t ∧
      t.word R.VIEW_CTRL.base = mergeBits 0x73 (s.word R.VIEW_CTRL.base) (BitVec.ofNat 32 (data % 2 ^ 32)) ∧
      t.view.ctrl = s.view.ctrl)

/-- SUBFRAME_LAUNCH while the sequencer launches: PSEQ_SF advances by one; with the grid unchanged the next point follows, the subframe's phase is its index modulo the phases and the panel is in flight, and the module that holds the drive (no other) sends a start of frame with number and phase. Under CORE, before READY, or with a frozen controller outside a pair, it sends hold symbols instead. While it does not launch, the point passes and no subframe is sent. LAUNCH_HANDOVER gives the earliest queued instant to the sequencer, or drops and counts one past by more than a subframe period; LAUNCH_PACKET gives the MIRROR the ACTIVE's anchor; INPUT_IDLE_TIMEOUT brings the pattern back.

Each clause concludes that exec answers a next state. Commands it says so of: subframeLaunch, launchHandover, launchPacket, inputIdleTimeout. -/
def Obligations.SubframesLaunchOnTheGrid : Prop :=
  (∀ (s : State), let n := s.pointNext.pseq.next
      s.rst.hold = .run → s.launches = true → s.pseq.waitReady = false → s.anyFrozen = false → s.pseq.start = none → s.pseq.modes = none → s.pseq.anchor = none → s.pseq.black = false → s.strobes = [] → ∃ t, exec (.subframeLaunch) s = .next t ∧
      t.get R.PSEQ_SF = (s.get R.PSEQ_SF + 1) % 2 ^ 64 ∧
      t.pseq.next = n + 1 ∧
      t.pseq.phase = n % max 1 s.pseq.phases ∧
      t.pseq.inFlight = true ∧
      t.flag R.PSEQ_STAT_HOLDING = false ∧
      (t.flag R.PAIR_STAT_DRIVE = true → .sof ((s.get R.PSEQ_SF + 1) % 2 ^ 64) (t.flag R.PSEQ_STAT_FULL) (n % max 1 s.pseq.phases) ∈ t.out) ∧
      (t.flag R.PAIR_STAT_DRIVE = false → t.out.filter (fun e => match e with | .sof .. => true | _ => false) = s.out.filter (fun e => match e with | .sof .. => true | _ => false)) ∧
      t.pseq.grid = s.pseq.grid ∧
      t.dram = s.dram) ∧
  (∀ (s : State),
      (s.rst.hold = .core ∨ (s.rst.hold = .run ∧ s.pseq.waitReady = true)) → s.launches = true → s.pseq.start = none → s.strobes = [] →
      ∃ t, exec (.subframeLaunch) s = .next t ∧
      t.get R.PSEQ_SF = (s.get R.PSEQ_SF + 1) % 2 ^ 64 ∧
      (t.flag R.PAIR_STAT_DRIVE = true → .hold ∈ t.out) ∧
      t.flag R.PSEQ_STAT_HOLDING = true ∧
      t.pseq.inFlight = false) ∧
  (∀ (s : State), (s.rst.hold = .run ∨ s.rst.hold = .core) → s.launches = false → ∃ t, exec (.subframeLaunch) s = .next t ∧
      t.pseq.next = s.pseq.next + 1 ∧
      t.pseq.inFlight = false ∧
      t.regs = s.regs ∧
      t.out = s.out) ∧
  (∀ (s : State) (l : Nat) (rest : List Nat),
      s.time.launches = l :: rest → l ≤ s.now + 1000000 → s.now ≤ l + s.subPeriod →
      ∃ t, exec (.launchHandover) s = .next t ∧
      t.pseq.start = some l ∧
      t.time.launches = rest ∧
      t.get R.TIME_LAUNCH_STAT_DROPPED = s.get R.TIME_LAUNCH_STAT_DROPPED) ∧
  (∀ (s : State) (l : Nat) (rest : List Nat),
      s.time.launches = l :: rest → l + s.subPeriod < s.now →
      ∃ t, exec (.launchHandover) s = .next t ∧
      t.pseq.start = s.pseq.start ∧
      t.time.launches = rest ∧
      t.get R.TIME_LAUNCH_STAT_DROPPED = min (s.get R.TIME_LAUNCH_STAT_DROPPED + 1) (2 ^ R.TIME_LAUNCH_STAT_DROPPED.width - 1) ∧
      (t.word R.TIME_IRQ_STATUS.base).getLsbD 6 = true) ∧
  (∀ (s : State) (anchor : Nat), s.isMirror = true → ∃ t, exec (.launchPacket anchor) s = .next t ∧
      t.pseq.start = some anchor ∧
      t.pair.rxSeq = (s.pair.rxSeq + 1) % 2 ^ 32) ∧
  (∀ (s : State),
      s.intk.standalone = true → (s.intk.still = false ∨ s.intk.mark.isSome = true) →
      ∃ t, exec (.inputIdleTimeout) s = .next t ∧
      t.get R.PSEQ_PATTERN_SEL = 1 ∧
      t.intk.standalone = false ∧
      t.intk.outcome = 2)

/-- FABRIC_FRAME_START in a powered module outside a pair role of MIRROR, with no strobe nor activation pending: COMP_SEQ advances, VIEW_CTRL is in effect, the frame of the next boundary is begun. A sole complete frame due at the boundary, of the sequence in effect, is shown and leaves the buffer. With no frame buffered, no sequence waiting for its first frame, and a frame shown that is no still picture, that frame repeats and INTK_CONCEAL[4] counts. A second start for the same boundary changes nothing.

Each clause concludes that exec answers a next state. Commands it says so of: fabricFrameStart. -/
def Obligations.FabricBeginsEachFrameOnce : Prop :=
  (∀ (s : State) (f : FrameSt), let l := s.gridTime s.nextBoundary
      s.rst.hold = .run → s.powerDown = false → s.nextBegun = false → s.isMirror = false → s.strobes = [] → s.pers.pend = none → s.pers.reload = none → s.intk.next = none → s.intk.frames = [f] → (f.dp = none ∧ f.bad = false ∧ f.fresh = false ∧ f.closed = true) → (s.atScaled l - s.halfScaled ≤ s.dueScaled f.time ∧ s.dueScaled f.time < s.atScaled l + s.halfScaled) → ∃ t, exec (.fabricFrameStart) s = .next t ∧
      t.intk.outcome = 0 ∧
      t.intk.shown = some f.seq ∧
      t.intk.frames = [] ∧
      t.get R.COMP_SEQ = (s.get R.COMP_SEQ + 1) % 2 ^ 32 ∧
      t.view.ctrl = s.get R.VIEW_CTRL ∧
      t.view.begun = some (s.sfOf s.nextBoundary) ∧
      (f.rap = true → t.flag R.COMP_STAT_READY = true)) ∧
  (∀ (s : State) (d : Nat),
      s.rst.hold = .run → s.powerDown = false → s.nextBegun = false → s.isMirror = false → s.strobes = [] → s.pers.pend = none → s.pers.reload = none → s.intk.frames = [] → s.intk.shown = some d → s.intk.still = false → s.intk.next = none →
      ∃ t, exec (.fabricFrameStart) s = .next t ∧
      t.intk.outcome = 2 ∧
      t.intk.shown = some d ∧
      t.get R.INTK_CONCEAL 4 = min (s.get R.INTK_CONCEAL 4 + 1) (2 ^ R.INTK_CONCEAL.width - 1) ∧
      t.get R.COMP_SEQ = (s.get R.COMP_SEQ + 1) % 2 ^ 32 ∧
      t.view.begun = some (s.sfOf s.nextBoundary)) ∧
  (∀ (s : State), s.nextBegun = true → ∃ t, exec (.fabricFrameStart) s = .next t ∧
      t = s)

/-- LOAD of an idle engine makes the slot LOADING with the source and length of its registers; behind another load it waits in order and begins when that has ended. At the end the file stands in the slot's memory and the slot is VERIFIED or REJECTED with its code: 0x17 for a region failure, 0x03 for a length no slot holds. PRELOAD of a VERIFIED slot makes it PRELOADING and the only staging; at its end every function has its tile and the slot is STAGED. EVICT empties a slot. An ACTIVE slot refuses every command with 0x18.

Each clause concludes that exec answers a next state. Commands it says so of: persSlotLoad, persSlotPreload, persSlotEvict, persLoadBegin, persLoadDone, persPreloadDone. -/
def Obligations.PersonalitySlotsLoadAndPreload : Prop :=
  (∀ (s : State) (slot : Nat),
      slot < 8 → s.slotState slot = 0 → s.pendingOn slot = false → s.pers.loading = none → s.pers.waiting = [] →
      ∃ t, exec (.persSlotLoad slot) s = .next t ∧
      t.slotState slot = 1 ∧
      t.pers.loading = some (slot, s.get R.PERS_SLOT_SRC slot, s.get R.PERS_SLOT_LEN slot, decide (s.get R.PERS_SLOT_SRC slot % 64 = 0) && s.regionOk .pers false (s.get R.PERS_SLOT_SRC slot) (s.get R.PERS_SLOT_LEN slot)) ∧
      t.dram = s.dram) ∧
  (∀ (s : State) (slot : Nat), slot < 8 → s.slotState slot = 6 → ∃ t, exec (.persSlotLoad slot) s = .next t ∧
      t = s.put R.PERS_SLOT_STAT_CMD_ERR 0x18 slot) ∧
  (∀ (s : State) (slot : Nat),
      slot < 8 → s.slotState slot = 2 → s.pers.waiting.contains slot = false → s.flag R.PERS_STATE_PRELOADING = false → s.pers.pend = none → s.pers.reload = none → (s.flag R.PERS_STATE_STAGED_VALID = true → s.get R.PERS_STATE_STAGED_SLOT ≠ slot) →
      ∃ t, exec (.persSlotPreload slot) s = .next t ∧
      t.slotState slot = 4 ∧
      t.get R.PERS_STATE_STAGED_SLOT = slot ∧
      t.flag R.PERS_STATE_STAGED_VALID = true ∧
      t.flag R.PERS_STATE_PRELOADING = true ∧
      (s.flag R.PERS_STATE_STAGED_VALID = true → s.slotState (s.get R.PERS_STATE_STAGED_SLOT) = 5 → t.slotState (s.get R.PERS_STATE_STAGED_SLOT) = 2)) ∧
  (∀ (s : State) (slot : Nat),
      slot < 8 → (s.slotState slot = 2 ∨ s.slotState slot = 3) → s.pers.waiting.contains slot = false → s.pendingOn slot = false →
      ∃ t, exec (.persSlotEvict slot) s = .next t ∧
      t.slotState slot = 0 ∧
      t.get R.PERS_SLOT_ID slot = 0 ∧
      t.get R.PERS_SLOT_SV slot = 0 ∧
      (t.pers.digest.find? (fun x => x.1 = slot) = none)) ∧
  (∀ (s : State) (slot : Nat) (rest : List Nat),
      slot < 8 → s.pers.loading = none → s.pers.waiting = slot :: rest → slot ∉ rest → (s.slotState slot = 0 ∨ s.slotState slot = 3) → s.pendingOn slot = false →
      ∃ t, exec (.persLoadBegin) s = .next t ∧
      t.slotState slot = 1 ∧
      (t.pers.loading.map (fun x => (x.1, x.2.1, x.2.2.1)) = some (slot, s.get R.PERS_SLOT_SRC slot, s.get R.PERS_SLOT_LEN slot)) ∧
      t.pers.waiting = rest) ∧
  (∀ (s : State) (slot src len : Nat),
      slot < 8 → s.pers.loading = some (slot, src, len, true) → (64 ≤ len ∧ len ≤ 67108864) →
      ∃ t, exec (.persLoadDone) s = .next t ∧
      t.readBytes (s.slotArea slot) len = s.readBytes src len ∧
      (∀ a, a < s.slotArea slot ∨ s.slotArea slot + len ≤ a → t.readByte a = s.readByte a) ∧
      (t.slotState slot = 2 ∨ (t.slotState slot = 3 ∧ t.get R.PERS_SLOT_STAT_ERR slot ≠ 0)) ∧
      t.pers.loading = none ∧
      (t.word R.PERS_IRQ_STATUS.base).getLsbD 0 = true) ∧
  (∀ (s : State) (slot src len : Nat) (region : Bool),
      slot < 8 → s.pers.loading = some (slot, src, len, region) → (region = false ∨ len < 64) →
      ∃ t, exec (.persLoadDone) s = .next t ∧
      t.slotState slot = 3 ∧
      (t.get R.PERS_SLOT_STAT_ERR slot = (if region then 0x03 else 0x17)) ∧
      t.dram = s.dram) ∧
  (∀ (s : State) (place : List (Nat × Nat)), let slot := s.get R.PERS_STATE_STAGED_SLOT
      s.flag R.PERS_STATE_PRELOADING = true → s.placement slot = some place → s.fab.migs = [] → ∃ t, exec (.persPreloadDone) s = .next t ∧
      t.slotState slot = 5 ∧
      t.flag R.PERS_STATE_PRELOADING = false ∧
      t.pers.stg = place ∧
      (∀ n, n < 400 → (t.tile n).standby = (place.find? (fun p => p.2 = n)).map (fun p => s.planeFor slot place p.1)) ∧
      (t.word R.PERS_IRQ_STATUS.base).getLsbD 1 = true)

/-- Outside a pair, a request for a STAGED slot is pending for the next frame, or for the first boundary at or after its instant; for a VERIFIED slot its preload begins too; for the ACTIVE slot nothing happens; for an EMPTY, LOADING or REJECTED slot it is refused with 0x16 and counted. A cancel removes the pending request. ACT_SLIP moves the pending activation beyond its boundary while staged writes are due. SWAP_TIMEOUT retires the tile and migrates its function to the spare the policy picks; with none left the error is fatal.

Each clause concludes that exec answers a next state. Commands it says so of: persActNextFrame, persActAtTime, persActCancel, actSlip, swapTimeout. -/
def Obligations.ActivationsArePendingUntilTheirBoundary : Prop :=
  (∀ (s : State) (r : Req) (slot : Nat),
      slot < 8 → (s.isMirror = false ∧ s.isActive = false) → s.slotState slot = 5 → s.pers.reload = none →
      ∃ t, exec (.persActNextFrame r slot) s = .next t ∧
      t.pers.pend = some ⟨slot, none, 0, none⟩ ∧
      t.flag R.PERS_STATE_PENDING = true ∧
      t.get R.PERS_STATE_PENDING_SLOT = slot) ∧
  (∀ (s : State) (r : Req) (slot : Nat),
      slot < 8 → (s.isMirror = false ∧ s.isActive = false) → s.slotState slot = 2 → s.pers.reload = none →
      ∃ t, exec (.persActAtTime r slot) s = .next t ∧
      t.pers.pend = some ⟨slot, some (s.extend (s.get R.PERS_ACT_TIME)), 0, none⟩ ∧
      t.slotState slot = 4 ∧
      t.flag R.PERS_STATE_PRELOADING = true ∧
      t.flag R.PERS_STATE_PENDING = true) ∧
  (∀ (s : State) (r : Req) (slot : Nat),
      slot < 8 → (s.isMirror = false ∧ s.isActive = false) → (s.slotState slot = 0 ∨ s.slotState slot = 1 ∨ s.slotState slot = 3) → s.pers.reload ≠ some slot →
      ∃ t, exec (.persActNextFrame r slot) s = .next t ∧
      t.get R.PERS_LAST_SLOT = slot ∧
      t.get R.PERS_LAST_ERR = 0x16 ∧
      t.get R.PERS_LAST_COUNT = min (s.get R.PERS_LAST_COUNT + 1) (2 ^ R.PERS_LAST_COUNT.width - 1) ∧
      t.pers.pend = s.pers.pend ∧
      (t.word R.PERS_IRQ_STATUS.base).getLsbD 3 = true) ∧
  (∀ (s : State) (r : Req) (slot : Nat),
      slot < 8 → (s.isMirror = false ∧ s.isActive = false) → s.slotState slot = 6 →
      ∃ t, exec (.persActNextFrame r slot) s = .next t ∧
      t = s) ∧
  (∀ (s : State) (r : Req), (s.isMirror = false ∨ r = .partner) → ∃ t, exec (.persActCancel r) s = .next t ∧
      t.pers.pend = none ∧
      t.flag R.PERS_STATE_PENDING = false) ∧
  (∀ (s : State) (p : PendAct), s.pers.pend = some p → s.stagedBusy = true → ∃ t, exec (.actSlip) s = .next t ∧
      t.pers.pend = some { p with notBefore := (s.gridTime (s.actIndex p) + 1).toNat } ∧
      (t.word R.PERS_IRQ_STATUS.base).getLsbD 5 = true) ∧
  (∀ (s : State) (n spare : Nat),
      n < 400 → (s.tile n).swapDue = true → s.migOf n = none → (s.pers.act.any (fun p => p.2 = n) = true) → pickSpare (placePolicy (s.slotFile s.activeSlot)) n (s.usableSpares s.activeSlot s.pers.act) = some spare → s.tileState n ≠ 5 →
      ∃ t, exec (.swapTimeout n) s = .next t ∧
      t.tileState n = 5 ∧
      ((t.migOf n).map (fun m => (m.spare, m.cause, m.step)) = some (spare, 4, .copy)) ∧
      t.flag R.FAB_STAT_MIGRATING = true ∧
      (t.word R.PERS_IRQ_STATUS.base).getLsbD 6 = true) ∧
  (∀ (s : State) (n : Nat),
      n < 400 → s.rst.hold = .run → s.rst.coreEntering = false → (s.tile n).swapDue = true → s.migOf n = none → (s.pers.act.any (fun p => p.2 = n) = true) → pickSpare (placePolicy (s.slotFile s.activeSlot)) n (s.usableSpares s.activeSlot s.pers.act) = none →
      ∃ t, exec (.swapTimeout n) s = .next t ∧
      t.tileState n = 5 ∧
      t.rst.coreEntering = true ∧
      t.flag R.FAB_STAT_SPARES_OUT = true ∧
      t.flag R.RST_CAUSE_FABRIC_FATAL = true)

/-- TOKEN_DISPATCH of the token at the head of a port of a live tile with no forward held there: TOKENS counts; by its dispatch entry the token is dropped and counted, sent on its output port (a flit on the mesh to the tile its route leads to, a request at a fetch port, a ray token to the row-band buffers), or starts the smallest free thread at the entry point with the flit in R0 to R3. A tile with an uncorrectable error drops it. The oldest flit for a port arrives first; the reply to the oldest request of a fetch port goes to the tile that issued it, poisoned when the request is. A held forward leaves and frees its port; a token held for want of a thread starts one. A boundary token, once every input has one and no work is left, makes a tile swap when a swap is due; it or a subframe token with another input missing, or work left, only waits; a subframe token passes on with a health update. A drain marker frees its port, counts as the port's boundary token, and the held tokens follow it.

Each clause concludes that exec answers a next state. Commands it says so of: tokenDispatch, threadStartHeld, tokenForwardRetry, boundaryTokenArrive, subframeTokenArrive, drainMarkerArrive. -/
def Obligations.TokensWaitDispatchAndPass : Prop :=
  (∀ (s : State) (n port : Nat) (tok : Token) (p : Plane),
      (n < 400 ∧ port < 8) → tok.tag < 0xFF0 → (s.tile n).active = some p → ((s.tile n).buf = [(port, tok)] ∧ (s.tile n).subSeen = [] ∧ (s.tile n).swapDue = false) → ((s.tile n).dead = true ∨ ((s.tile n).fwd.any (fun q => q.1 = port) = false ∧ p.entry tok.tag % 256 = 0)) → p.ins ≠ [] →
      ∃ t, exec (.tokenDispatch n port none) s = .next t ∧
      t.get R.FAB_TILE_TOKENS n = (s.get R.FAB_TILE_TOKENS n + 1) % 2 ^ R.FAB_TILE_TOKENS.width ∧
      t.get R.FAB_TILE_DROP_DISPATCH n = min (s.get R.FAB_TILE_DROP_DISPATCH n + 1) (2 ^ R.FAB_TILE_DROP_DISPATCH.width - 1) ∧
      (t.tile n).buf = [] ∧
      (t.tile n).threads = (s.tile n).threads) ∧
  (∀ (s : State) (n port : Nat) (tok : Token) (p : Plane) (r : RoutePort),
      (n < 400 ∧ port < 8) → tok.tag < 0xFF0 → (s.tile n).active = some p → ((s.tile n).buf = [(port, tok)] ∧ (s.tile n).subSeen = [] ∧ (s.tile n).swapDue = false ∧ (s.tile n).dead = false) → ((s.tile n).fwd.any (fun q => q.1 = port) = false) → p.ins ≠ [] → p.entry tok.tag % 256 = 2 → (p.outs.find? (fun r => r.out = p.entry tok.tag / 2 ^ 18 % 8) = some r) → ((s.tile n).outq.any (fun q => q.1.out = p.entry tok.tag / 2 ^ 18 % 8) = false) → (r.dst < 400 → s.room r.dst r.inp r.vc = true) →
      ∃ t, exec (.tokenDispatch n port none) s = .next t ∧
      t.get R.FAB_TILE_TOKENS n = (s.get R.FAB_TILE_TOKENS n + 1) % 2 ^ R.FAB_TILE_TOKENS.width ∧
      (t.tile n).buf = [] ∧
      (t.fab.rayOut = s.fab.rayOut ++ (if r.dst = 0xFFF0 then [(n, { tok with vc := r.vc })] else [])) ∧
      (t.fab.mesh = s.fab.mesh ++ (if r.dst < 0xFF00 then [⟨n, r.dst, r.inp, { tok with vc := r.vc }, meshPath n r.dst⟩] else [])) ∧
      (0xFF00 ≤ r.dst ∧ r.dst < 0xFF18 → (t.fetchPt (r.dst - 0xFF00)).queue = (s.fetchPt (r.dst - 0xFF00)).queue ++ [.request n { tok with vc := r.vc }])) ∧
  (∀ (s : State) (n port h : Nat) (tok : Token) (p : Plane),
      (n < 400 ∧ port < 8) → tok.tag < 0xFF0 → (s.tile n).active = some p → ((s.tile n).buf = [(port, tok)] ∧ (s.tile n).subSeen = [] ∧ (s.tile n).swapDue = false ∧ (s.tile n).dead = false) → ((s.tile n).fwd.any (fun q => q.1 = port) = false) → p.ins ≠ [] → p.entry tok.tag % 256 = 1 → freeThread (s.tile n) (p.configWord 5) = some h →
      ∃ t, exec (.tokenDispatch n port none) s = .next t ∧
      t.get R.FAB_TILE_TOKENS n = (s.get R.FAB_TILE_TOKENS n + 1) % 2 ^ R.FAB_TILE_TOKENS.width ∧
      (t.tile n).buf = [] ∧
      (t.tile n).threads.map (·.1) = (s.tile n).threads.map (·.1) ++ [h] ∧
      ((t.thread n h).map (fun x => (x.pc, x.poison, x.waits)) = some (p.entry tok.tag / 256 % 1024, tok.poison, 0)) ∧
      ((t.thread n h).map (fun x => x.regs.length) = some 32) ∧
      ((t.thread n h).map (fun x => x.regs.getD 0 0) = some ((tok.tag + tok.vc * 2 ^ 12 + Word.ofBool tok.poison * 2 ^ 14 + tok.payload * 2 ^ 16) % 2 ^ 32))) ∧
  (∀ (s : State) (n port : Nat) (f : Flit) (rest : List Flit) (p : Plane),
      (n < 400 ∧ port < 8) → (s.tile n).active = some p → (takeFlit (fun f => decide (f.dst = n ∧ f.port = port)) s.fab.mesh = some (f, rest)) → (f.dst = n ∧ f.port = port) → f.tok.tag < 0xFF0 → (s.tile n).waitsFor port f.src = false → ((s.tile n).dead = false ∧ (s.tile n).fwd.any (fun q => q.1 = port) = true) →
      ∃ t, exec (.tokenDispatch n port (some .mesh)) s = .next t ∧
      (t.tile n).buf = (s.tile n).buf ++ [(port, f.tok)] ∧
      t.fab.mesh = rest ∧
      t.regs = s.regs) ∧
  (∀ (s : State) (n port q : Nat) (tok req : Token) (rest : List FetchItem) (r : RoutePort) (p : Plane),
      (n < 400 ∧ port < 8 ∧ q < 24) → tok.tag < 0xFF0 → (s.fetchPt q).queue = .request n req :: rest → (s.fetchPt q).outq = [] → ((s.fetchPt q).outs.find? (fun r => r.dst = n) = some r) → (r.inp = port ∧ r.vc = tok.vc ∧ r.dst = n) → s.room n port r.vc = true → s.fab.mesh = [] → (s.tile n).active = some p → (s.tile n).waitsFor port (400 + q) = false → ((s.tile n).dead = false ∧ (s.tile n).fwd.any (fun q => q.1 = port) = true) →
      ∃ t, exec (.tokenDispatch n port (some (.reply q tok false))) s = .next t ∧
      (t.tile n).buf = (s.tile n).buf ++ [(port, { tok with poison := tok.poison || req.poison || decide (s.get R.MEM_C_STAT_STATE (q / 4) = 5) })] ∧
      (t.fetchPt q).queue = (s.fetchPt q).queue ∧
      t.regs = s.regs) ∧
  (∀ (s : State) (n port q m : Nat) (tok req : Token) (last : Bool) (rest : List FetchItem),
      (n < 400 ∧ port < 8 ∧ q < 24) → (s.fetchPt q).queue = .request m req :: rest → m ≠ n → (s.tile n).buf = [] →
      ∃ t, exec (.tokenDispatch n port (some (.reply q tok last))) s = .next t ∧
      t = s) ∧
  (∀ (s : State) (n port h : Nat) (tok : Token) (p : Plane),
      n < 400 → (s.tile n).active = some p → ((s.tile n).buf = [(port, tok)] ∧ (s.tile n).subSeen = [] ∧ (s.tile n).swapDue = false ∧ (s.tile n).dead = false) → ((s.tile n).fwd.any (fun q => q.1 = port) = false) → p.ins ≠ [] → tok.tag < 0xFF0 → p.entry tok.tag % 256 = 1 → freeThread (s.tile n) (p.configWord 5) = some h →
      ∃ t, exec (.threadStartHeld n port) s = .next t ∧
      (t.tile n).buf = [] ∧
      (t.tile n).threads.map (·.1) = (s.tile n).threads.map (·.1) ++ [h] ∧
      ((t.thread n h).map (fun x => (x.pc, x.poison)) = some (p.entry tok.tag / 256 % 1024, tok.poison))) ∧
  (∀ (s : State) (n port out : Nat) (tok : Token) (p : Plane) (r : RoutePort),
      (s.tile n).active = some p → (s.tile n).fwd = [(port, out, tok)] → ((s.tile n).buf = [] ∧ (s.tile n).subSeen = [] ∧ (s.tile n).outq = []) → p.ins ≠ [] → (p.outs.find? (fun r => r.out = out) = some r) → r.dst < 400 → s.room r.dst r.inp r.vc = true → s.fab.fetch = [] →
      ∃ t, exec (.tokenForwardRetry n port) s = .next t ∧
      (t.tile n).fwd = [] ∧
      t.fab.mesh = s.fab.mesh ++ [⟨n, r.dst, r.inp, { tok with vc := r.vc }, meshPath n r.dst⟩] ∧
      t.regs = s.regs) ∧
  (∀ (s : State) (n port : Nat) (f : Flit) (rest : List Flit) (p : Plane),
      (n < 400 ∧ port < 8) → (s.tile n).active = some p → p.ins = [port] → ((s.tile n).buf = [] ∧ (s.tile n).subSeen = [] ∧ (s.tile n).threads = [] ∧ (s.tile n).fwd = [] ∧ (s.tile n).dead = false) → (s.tile n).swapDue = true → s.get R.FAB_TILE_HEALTH_THRESH n = 0 → s.tileState n = 1 → s.migOf n = none → s.redirectsAt (s.view.begun.getD 0 % 2 ^ 32) = [] → (takeFlit (fun f => decide (f.dst = n ∧ f.port = port)) s.fab.mesh = some (f, rest)) → (f.dst = n ∧ f.port = port) → f.tok.tag = 0xFFF → (s.tile n).waitsFor port f.src = false →
      ∃ t, exec (.boundaryTokenArrive n port) s = .next t ∧
      (t.tile n).active = (s.tile n).standby ∧
      (t.tile n).standby = some p ∧
      (t.tile n).swapDue = false ∧
      (t.tile n).buf = [] ∧
      (t.tile n).seen = some (s.view.begun.getD 0 % 2 ^ 32)) ∧
  (∀ (s : State) (n port : Nat) (f : Flit) (rest : List Flit) (p : Plane),
      (n < 400 ∧ port < 8) → (s.tile n).active = some p → p.ins.contains port = true → ((s.tile n).buf = [] ∧ (s.tile n).subSeen = []) → ((s.tile n).threads ≠ [] ∨ (s.tile n).fwd ≠ [] ∨ p.ins.any (fun q => q ≠ port) = true) → (takeFlit (fun f => decide (f.dst = n ∧ f.port = port)) s.fab.mesh = some (f, rest)) → (f.dst = n ∧ f.port = port) → f.tok.tag = 0xFFF → (s.tile n).waitsFor port f.src = false →
      ∃ t, exec (.boundaryTokenArrive n port) s = .next t ∧
      (t.tile n).buf = [(port, f.tok)] ∧
      (t.tile n).active = some p ∧
      t.regs = s.regs ∧ t.out = s.out) ∧
  (∀ (s : State) (n port : Nat) (f : Flit) (rest : List Flit) (p : Plane) (r : RoutePort),
      let pen := s.get R.FAB_TILE_HEALTH_PENALTY n
      (n < 400 ∧ port < 8) → (s.tile n).active = some p → p.ins = [port] → p.outs = [r] → r.dst < 400 → ((s.tile n).buf = [] ∧ (s.tile n).subSeen = [] ∧ (s.tile n).outq = []) → s.get R.FAB_TILE_HEALTH_THRESH n = 0 → s.tileState n = 1 → (s.tile n).dead = false → (takeFlit (fun f => decide (f.dst = n ∧ f.port = port)) s.fab.mesh = some (f, rest)) → (f.dst = n ∧ f.port = port) → f.tok.tag = 0xFFE → (s.tile n).waitsFor port f.src = false → s.redirectsAt (f.tok.payload % 2 ^ 32) = [] → s.room r.dst r.inp r.vc = true →
      ∃ t, exec (.subframeTokenArrive n port) s = .next t ∧
      (t.tile n).buf = [] ∧ (t.tile n).subSeen = [] ∧
      (t.tile n).charged = 0 ∧
      t.get R.FAB_TILE_HEALTH_PENALTY n = min 65535 (pen - (pen + 15) / 16 + (s.tile n).charged) ∧
      t.get R.FAB_TILE_HEALTH_SCORE n = 255 - min (t.get R.FAB_TILE_HEALTH_PENALTY n) 255 ∧
      t.fab.mesh = rest ++ [⟨n, r.dst, r.inp, ⟨0xFFE, r.vc, false, f.tok.payload⟩, meshPath n r.dst⟩]) ∧
  (∀ (s : State) (n port q : Nat) (f : Flit) (rest : List Flit) (p : Plane),
      (n < 400 ∧ port < 8) → (s.tile n).active = some p → (p.ins = [port, q] ∧ q ≠ port) → ((s.tile n).buf = [] ∧ (s.tile n).subSeen = []) → (takeFlit (fun f => decide (f.dst = n ∧ f.port = port) && !(s.tile n).waitsFor port f.src) s.fab.mesh = some (f, rest)) → f.tok.tag = 0xFFD → (s.view.begun.map (fun b => b % 2 ^ 32) = some (f.tok.payload % 2 ^ 32)) →
      ∃ t, exec (.drainMarkerArrive n port) s = .next t ∧
      ((t.tile n).drainWait.any (fun w => w.1 = port) = false) ∧
      ((t.tile n).buf = (port, ⟨0xFFF, 0, false, s.get R.COMP_SEQ⟩) :: (s.tile n).spareHeld.filter (fun x => x.1 = port)) ∧
      ((t.tile n).spareHeld = (s.tile n).spareHeld.filter (fun x => x.1 ≠ port)) ∧
      t.fab.mesh = rest) ∧
  (∀ (s : State) (n port q : Nat) (f : Flit) (rest : List Flit) (p : Plane),
      (n < 400 ∧ port < 8) → (s.tile n).active = some p → (p.ins = [port, q] ∧ q ≠ port) → ((s.tile n).buf = [] ∧ (s.tile n).subSeen = [] ∧ (s.tile n).spareHeld = []) → (takeFlit (fun f => decide (f.dst = n ∧ f.port = port) && !(s.tile n).waitsFor port f.src) s.fab.mesh = some (f, rest)) → f.tok.tag = 0xFFD → s.view.begun = none →
      ∃ t, exec (.drainMarkerArrive n port) s = .next t ∧
      ((t.tile n).drainWait.any (fun w => w.1 = port) = false) ∧
      (t.tile n).buf = [] ∧ (t.tile n).subSeen = [(port, f.tok.payload % 2 ^ 32 + f.tok.payload % 2 ^ 32 % 4 * 2 ^ 32)] ∧
      t.regs = s.regs)

/-- For a thread that stands at the operation and waits for no lane: ADD, SUB and MUL are modulo 2^32 (MUL the low word, the model's choice), AND, OR and XOR bitwise, LDI the sign-extended immediate, FSTEP the 32-bit sum of two 16.8 values (the model's choice), SHIFT the free function of its operands, CONST a CONST word of the frame, BUDGET the tile's budget, PARAM the parameter in effect; D takes the value, the thread goes on to the next instruction, other threads, registers and memory stay. BR goes to IMM[9:0] when A is not 0. END ends the thread, and an unknown operation ends it, counts MISUSE and sets the tile's event.

Each clause concludes that exec answers a next state. Commands it says so of: add, sub, mul, and, or, xor, shift, fstep, ldi, const, budget, param, br, endThread, badOp. -/
def Obligations.MicroSequencerArithmetic : Prop :=
  (∀ (s : State) (n h w : Nat) (th : Thread) (p : Plane),
      s.fetchOp n h = some (w, th, p) → opField w = 1 →
      ∃ t, exec (.add n h) s = .next t ∧
      t.thread n h = some ⟨th.pc + 1, th.regs.set (dField w) ((th.reg (aField w) + th.reg (bField w)) % 2 ^ 32), th.poison, 0⟩ ∧
      (∀ u, u ≠ h → t.thread n u = s.thread n u) ∧
      t.regs = s.regs ∧
      t.dram = s.dram) ∧
  (∀ (s : State) (n h w : Nat) (th : Thread) (p : Plane),
      s.fetchOp n h = some (w, th, p) → opField w = 2 →
      ∃ t, exec (.sub n h) s = .next t ∧
      t.thread n h = some ⟨th.pc + 1, th.regs.set (dField w) ((th.reg (aField w) % 2 ^ 32 + 2 ^ 32 - th.reg (bField w) % 2 ^ 32) % 2 ^ 32), th.poison, 0⟩ ∧
      (∀ u, u ≠ h → t.thread n u = s.thread n u) ∧
      t.regs = s.regs ∧
      t.dram = s.dram) ∧
  (∀ (s : State) (n h w : Nat) (th : Thread) (p : Plane),
      s.fetchOp n h = some (w, th, p) → opField w = 3 →
      ∃ t, exec (.mul n h) s = .next t ∧
      t.thread n h = some ⟨th.pc + 1, th.regs.set (dField w) (th.reg (aField w) * th.reg (bField w) % 2 ^ 32), th.poison, 0⟩ ∧
      (∀ u, u ≠ h → t.thread n u = s.thread n u) ∧
      t.regs = s.regs ∧
      t.dram = s.dram) ∧
  (∀ (s : State) (n h w : Nat) (th : Thread) (p : Plane),
      s.fetchOp n h = some (w, th, p) → opField w = 4 →
      ∃ t, exec (.and n h) s = .next t ∧
      t.thread n h = some ⟨th.pc + 1, th.regs.set (dField w) ((th.reg (aField w) % 2 ^ 32) &&& (th.reg (bField w) % 2 ^ 32)), th.poison, 0⟩ ∧
      (∀ u, u ≠ h → t.thread n u = s.thread n u) ∧
      t.regs = s.regs ∧
      t.dram = s.dram) ∧
  (∀ (s : State) (n h w : Nat) (th : Thread) (p : Plane),
      s.fetchOp n h = some (w, th, p) → opField w = 5 →
      ∃ t, exec (.or n h) s = .next t ∧
      t.thread n h = some ⟨th.pc + 1, th.regs.set (dField w) ((th.reg (aField w) % 2 ^ 32) ||| (th.reg (bField w) % 2 ^ 32)), th.poison, 0⟩ ∧
      (∀ u, u ≠ h → t.thread n u = s.thread n u) ∧
      t.regs = s.regs ∧
      t.dram = s.dram) ∧
  (∀ (s : State) (n h w : Nat) (th : Thread) (p : Plane),
      s.fetchOp n h = some (w, th, p) → opField w = 6 →
      ∃ t, exec (.xor n h) s = .next t ∧
      t.thread n h = some ⟨th.pc + 1, th.regs.set (dField w) ((th.reg (aField w) % 2 ^ 32) ^^^ (th.reg (bField w) % 2 ^ 32)), th.poison, 0⟩ ∧
      (∀ u, u ≠ h → t.thread n u = s.thread n u) ∧
      t.regs = s.regs ∧
      t.dram = s.dram) ∧
  (∀ (s : State) (n h w : Nat) (th : Thread) (p : Plane),
      s.fetchOp n h = some (w, th, p) → opField w = 7 →
      ∃ t, exec (.shift n h) s = .next t ∧
      t.thread n h = some ⟨th.pc + 1, th.regs.set (dField w) ((Config.shift (BitVec.ofNat 32 (th.reg (aField w))) (BitVec.ofNat 32 (th.reg (bField w)))).toNat), th.poison, 0⟩ ∧
      (∀ u, u ≠ h → t.thread n u = s.thread n u) ∧
      t.regs = s.regs ∧
      t.dram = s.dram) ∧
  (∀ (s : State) (n h w : Nat) (th : Thread) (p : Plane),
      s.fetchOp n h = some (w, th, p) → opField w = 9 →
      ∃ t, exec (.fstep n h) s = .next t ∧
      t.thread n h = some ⟨th.pc + 1, th.regs.set (dField w) ((th.reg (aField w) + th.reg (bField w)) % 2 ^ 32), th.poison, 0⟩ ∧
      (∀ u, u ≠ h → t.thread n u = s.thread n u) ∧
      t.regs = s.regs ∧
      t.dram = s.dram) ∧
  (∀ (s : State) (n h w : Nat) (th : Thread) (p : Plane),
      s.fetchOp n h = some (w, th, p) → opField w = 8 →
      ∃ t, exec (.ldi n h) s = .next t ∧
      (t.thread n h = some ⟨th.pc + 1, th.regs.set (dField w) (if immField w < 2 ^ 15 then immField w else immField w + 2 ^ 32 - 2 ^ 16), th.poison, 0⟩) ∧
      (∀ u, u ≠ h → t.thread n u = s.thread n u) ∧
      t.regs = s.regs ∧
      t.dram = s.dram) ∧
  (∀ (s : State) (n h w : Nat) (th : Thread) (p : Plane),
      s.fetchOp n h = some (w, th, p) → opField w = 0x10 →
      ∃ t, exec (.const n h) s = .next t ∧
      t.thread n h = some ⟨th.pc + 1, th.regs.set (dField w) (p.configWord (8 + immField w % 32) % 2 ^ 32), th.poison, 0⟩ ∧
      (∀ u, u ≠ h → t.thread n u = s.thread n u) ∧
      t.regs = s.regs ∧
      t.dram = s.dram) ∧
  (∀ (s : State) (n h w : Nat) (th : Thread) (p : Plane),
      s.fetchOp n h = some (w, th, p) → opField w = 0x11 →
      ∃ t, exec (.budget n h) s = .next t ∧
      t.thread n h = some ⟨th.pc + 1, th.regs.set (dField w) (s.get R.FAB_TILE_BUDGET n), th.poison, 0⟩ ∧
      (∀ u, u ≠ h → t.thread n u = s.thread n u) ∧
      t.regs = s.regs ∧
      t.dram = s.dram) ∧
  (∀ (s : State) (n h w : Nat) (th : Thread) (p : Plane),
      s.fetchOp n h = some (w, th, p) → opField w = 0x12 →
      ∃ t, exec (.param n h) s = .next t ∧
      t.thread n h = some ⟨th.pc + 1, th.regs.set (dField w) (s.get R.PERS_PARAM (immField w % 64)), th.poison, 0⟩ ∧
      (∀ u, u ≠ h → t.thread n u = s.thread n u) ∧
      t.regs = s.regs ∧
      t.dram = s.dram) ∧
  (∀ (s : State) (n h w : Nat) (th : Thread) (p : Plane),
      s.fetchOp n h = some (w, th, p) → opField w = 0x0E →
      ∃ t, exec (.br n h) s = .next t ∧
      (t.thread n h = some { th with pc := if th.reg (aField w) = 0 then th.pc + 1 else immField w % 1024, waits := 0 }) ∧
      t.regs = s.regs ∧
      t.dram = s.dram) ∧
  (∀ (s : State) (n h w : Nat) (th : Thread) (p : Plane),
      s.fetchOp n h = some (w, th, p) → opField w = 0 → ((s.tile n).subSeen = [] ∧ (s.tile n).buf.any (fun q => decide (0xFF0 ≤ q.2.tag)) = false) →
      ∃ t, exec (.endThread n h) s = .next t ∧
      t.thread n h = none ∧
      (∀ u, u ≠ h → t.thread n u = s.thread n u) ∧
      t.regs = s.regs ∧
      t.dram = s.dram) ∧
  (∀ (s : State) (n h w : Nat) (th : Thread) (p : Plane),
      s.fetchOp n h = some (w, th, p) → 0x12 < opField w → ((s.tile n).subSeen = [] ∧ (s.tile n).buf.any (fun q => decide (0xFF0 ≤ q.2.tag)) = false) → n < 400 →
      ∃ t, exec (.badOp n h) s = .next t ∧
      t.thread n h = none ∧
      t.get R.FAB_TILE_DROP_MISUSE n = min (s.get R.FAB_TILE_DROP_MISUSE n + 1) (2 ^ R.FAB_TILE_DROP_MISUSE.width - 1) ∧
      (t.get R.FAB_TILE_EVENT n).testBit 3 = true ∧
      (t.word R.FAB_IRQ_STATUS.base).getLsbD 2 = true)

/-- LD reads the little-endian word at A + IMM of the 64 KiB local memory, ST writes exactly those four bytes (byte order is the model's reading). SAMPLE issues a job to a free lane that LANE_EN enables (one to a disabled lane has no effect: the model's choice, log entry 87); WAIT names the lanes the next instruction waits for. A completed sample leaves its lane, brings the texel lines it read into the tile's cache, fetching those it does not hold, and, in compositing mode, goes over what the ray accumulated, taking one of its budget when it is an ordinary plane; a poisoned sample is transparent. EMIT of a tag below 0xFF0 sends the token with the thread's poison along its port's route: over the mesh to a tile with room, to a fetch port, or to the row-band buffers; a fabric tag is dropped, counted and flagged.

Each clause concludes that exec answers a next state. Commands it says so of: ld, st, sample, wait, emit, laneSampleDone. -/
def Obligations.MicroSequencerMemorySamplesAndTokens : Prop :=
  (∀ (s : State) (n h w : Nat) (th : Thread) (p : Plane),
      s.fetchOp n h = some (w, th, p) → opField w = 0x0B → (th.reg (aField w) + immField w) + 4 ≤ 65536 →
      ∃ t, exec (.ld n h) s = .next t ∧
      (t.thread n h = some ⟨th.pc + 1, th.regs.set (dField w) ((List.range 4).foldl (fun a i => a + (Sparse.get dramDefault (s.tile n).lmem ((th.reg (aField w) + immField w) + i)).toNat * 2 ^ (8 * i)) 0), th.poison, 0⟩) ∧
      (∀ u, u ≠ h → t.thread n u = s.thread n u) ∧
      t.regs = s.regs ∧
      t.dram = s.dram) ∧
  (∀ (s : State) (n h w : Nat) (th : Thread) (p : Plane),
      s.fetchOp n h = some (w, th, p) → opField w = 0x0C → (th.reg (aField w) + immField w) + 4 ≤ 65536 →
      ∃ t, exec (.st n h) s = .next t ∧
      (∀ i, i < 4 → Sparse.get dramDefault (t.tile n).lmem ((th.reg (aField w) + immField w) + i) = BitVec.ofNat 8 (th.reg (dField w) / 2 ^ (8 * i))) ∧
      (∀ a, a < (th.reg (aField w) + immField w) ∨ (th.reg (aField w) + immField w) + 4 ≤ a → Sparse.get dramDefault (t.tile n).lmem a = Sparse.get dramDefault (s.tile n).lmem a) ∧
      t.thread n h = some th.step ∧
      t.regs = s.regs ∧
      t.dram = s.dram) ∧
  (∀ (s : State) (n h w : Nat) (th : Thread) (p : Plane),
      s.fetchOp n h = some (w, th, p) → opField w = 0x0A → (p.configWord 0).testBit (immField w % 8) = true → ((s.tile n).jobs.any (fun j => j.1 = immField w % 8) = false) →
      ∃ t, exec (.sample n h) s = .next t ∧
      (t.tile n).jobs = (s.tile n).jobs ++ [(immField w % 8, ⟨h, th.reg (aField w), th.reg (bField w)⟩)] ∧
      t.thread n h = some th.step ∧
      t.regs = s.regs) ∧
  (∀ (s : State) (n h w : Nat) (th : Thread) (p : Plane),
      s.fetchOp n h = some (w, th, p) → opField w = 0x0F →
      ∃ t, exec (.wait n h) s = .next t ∧
      t.thread n h = some { th with pc := th.pc + 1, waits := immField w % 256 } ∧
      t.regs = s.regs ∧
      t.dram = s.dram) ∧
  (∀ (s : State) (n h w : Nat) (th : Thread) (p : Plane) (r : RoutePort),
      let tok : Token := ⟨immField w % 4096, r.vc, th.poison, (th.reg (dField w) + th.reg (dField w + 1) * 2 ^ 32 + th.reg (dField w + 2) * 2 ^ 64 + th.reg (dField w + 3) * 2 ^ 96) % 2 ^ 112⟩
      s.fetchOp n h = some (w, th, p) → opField w = 0x0D → immField w % 4096 < 0xFF0 → (p.outs.find? (fun r => r.out = aField w % 8) = some r) → ((s.tile n).outq.any (fun q => q.1.out = aField w % 8) = false) → (r.dst < 400 → s.room r.dst r.inp r.vc = true) →
      ∃ t, exec (.emit n h) s = .next t ∧
      (t.fab.mesh = s.fab.mesh ++ (if r.dst < 0xFF00 then [⟨n, r.dst, r.inp, tok, meshPath n r.dst⟩] else [])) ∧
      (t.fab.rayOut = s.fab.rayOut ++ (if r.dst = 0xFFF0 then [(n, tok)] else [])) ∧
      (0xFF00 ≤ r.dst ∧ r.dst < 0xFF18 → (t.fetchPt (r.dst - 0xFF00)).queue = (s.fetchPt (r.dst - 0xFF00)).queue ++ [.request n tok]) ∧
      t.thread n h = some th.step ∧
      t.regs = s.regs) ∧
  (∀ (s : State) (n h w : Nat) (th : Thread) (p : Plane),
      s.fetchOp n h = some (w, th, p) → opField w = 0x0D → 0xFF0 ≤ immField w % 4096 → n < 400 →
      ∃ t, exec (.emit n h) s = .next t ∧
      t.get R.FAB_TILE_DROP_MISUSE n = min (s.get R.FAB_TILE_DROP_MISUSE n + 1) (2 ^ R.FAB_TILE_DROP_MISUSE.width - 1) ∧
      (t.get R.FAB_TILE_EVENT n).testBit 2 = true ∧
      t.thread n h = some th.step) ∧
  (∀ (s : State) (n h w : Nat) (th : Thread) (p : Plane),
      s.fetchOp n h = some (w, th, p) → opField w = 0x0A → (p.configWord 0).testBit (immField w % 8) = false →
      ∃ t, exec (.sample n h) s = .next t ∧
      (t.tile n).jobs = (s.tile n).jobs ∧
      t.thread n h = some th.step ∧
      t.regs = s.regs) ∧
  (∀ (s : State) (n lane : Nat) (q : TexelQuad) (lines : List Nat) (p : Plane) (job : LaneJob) (r : RayAcc),
      let c := quadSample q (p.configWord 1 % 2 = 1)
      let shown := decide (r.a < p.configWord 2 * 256) && (decide (q.kind ≠ .ordinary) || decide (0 < r.left))
      (s.tile n).active = some p → (s.tile n).jobs = [(lane, job)] → (s.tile n).rays = [(job.thread, r)] → p.configWord 1 / 2 % 2 = 1 →
      ∃ t, exec (.laneSampleDone n lane q lines) s = .next t ∧
      (t.tile n).jobs = [] ∧
      (((t.tile n).rays.map (fun x => (x.1, x.2.c, x.2.a, x.2.spent))) = [(job.thread, if shown then (min fullScale (r.c + (c.1 * (fullScale - r.a) + fullScale / 2) / fullScale), min fullScale (r.a + (c.2 * (fullScale - r.a) + fullScale / 2) / fullScale), r.spent + 1) else (r.c, r.a, r.spent))]) ∧
      (q.poison = true → c = (0, 0)) ∧
      (((t.tile n).rays.map (fun x => x.2.left)) = [if shown && decide (q.kind = .ordinary) then r.left - 1 else r.left]) ∧
      ((t.tile n).used = (s.tile n).used + (if shown then 1 else 0))) ∧
  (∀ (s : State) (n lane l : Nat) (q : TexelQuad) (p : Plane) (job : LaneJob),
      (s.tile n).active = some p → (s.tile n).jobs = [(lane, job)] → p.configWord 4 = 0 →
      ∃ t, exec (.laneSampleDone n lane q [l]) s = .next t ∧
      (t.tile n).jobs = [] ∧
      (t.tile n).cache.contains l = true ∧
      (t.out = if (s.tile n).cache.contains l then s.out else .fetch (128 * l) 128 :: s.out) ∧
      t.regs = s.regs)

/-- Corrected ECC, cache refetch, residue retry and margin alarm each advance their counter and charge an active tile the weight of FAB_HEALTH_WEIGHT; a poisoned flit charges the refetch weight and enters with POISON. An uncorrectable error, or a residue mismatch again, sets the tile's event 0, stops its threads, and begins a migration of an active tile to the spare its policy picks. INJECT acts only when enabled. A keyed MIGRATE does the same for a healthy tile; a keyed KAT is run in the next test, and a spare that fails is retired. A droop counts in units of 1,024; a quadrant rail moves one step of 5 mV towards the voltage its slowest active tile needs, never below 620 mV, towards its cap where that is lower, and AT_LIMIT reports a tile that misses its target there; a tile's generator runs at the slower of its replica and its target, within 0.6 to 1.45 GHz. A refetch fetches the line again.

Each clause concludes that exec answers a next state. Commands it says so of: eccCorrect, cacheRefetch, residueRetry, marginAlarm, flitPoison, tileUncorrectable, tileInject, tileCtrlMigrate, tileCtrlKat, spareKat, droopDetect, quadVoltageLoop. -/
def Obligations.TileHealthErrorsAndVoltage : Prop :=
  (∀ (s : State) (n : Nat) (flit : Bool), let charges := decide (s.tileState n = 1 ∨ s.tileState n = 3)
      n < 400 → ∃ t, exec (.eccCorrect n flit) s = .next t ∧
      t.get R.FAB_TILE_ERR_CORR n = min (s.get R.FAB_TILE_ERR_CORR n + 1) (2 ^ R.FAB_TILE_ERR_CORR.width - 1) ∧
      ((t.tile n).charged = (s.tile n).charged + (if charges then s.get R.FAB_HEALTH_WEIGHT_ECC else 0)) ∧
      (t.fab.corr.any (fun c => c.src = 7 && c.kind = (if flit then 3 else 1)) = true)) ∧
  (∀ (s : State) (n line : Nat), let charges := decide (s.tileState n = 1 ∨ s.tileState n = 3)
      n < 400 → ∃ t, exec (.cacheRefetch n line) s = .next t ∧
      t.out = .fetch (128 * line) 128 :: s.out ∧
      t.get R.FAB_TILE_ERR_REFETCH n = min (s.get R.FAB_TILE_ERR_REFETCH n + 1) (2 ^ R.FAB_TILE_ERR_REFETCH.width - 1) ∧
      ((t.tile n).charged = (s.tile n).charged + (if charges then s.get R.FAB_HEALTH_WEIGHT_REFETCH else 0))) ∧
  (∀ (s : State) (n : Nat), let charges := decide (s.tileState n = 1 ∨ s.tileState n = 3)
      n < 400 → ∃ t, exec (.residueRetry n false) s = .next t ∧
      t.get R.FAB_TILE_ERR_RESIDUE n = min (s.get R.FAB_TILE_ERR_RESIDUE n + 1) (2 ^ R.FAB_TILE_ERR_RESIDUE.width - 1) ∧
      ((t.tile n).charged = (s.tile n).charged + (if charges then s.get R.FAB_HEALTH_WEIGHT_RESIDUE else 0))) ∧
  (∀ (s : State) (n : Nat), let charges := decide (s.tileState n = 1 ∨ s.tileState n = 3)
      n < 400 → ∃ t, exec (.marginAlarm n) s = .next t ∧
      t.get R.FAB_TILE_MARGIN_ALARMS n = min (s.get R.FAB_TILE_MARGIN_ALARMS n + 1) (2 ^ R.FAB_TILE_MARGIN_ALARMS.width - 1) ∧
      ((t.tile n).charged = (s.tile n).charged + (if charges then s.get R.FAB_HEALTH_WEIGHT_MARGIN else 0))) ∧
  (∀ (s : State) (n port : Nat) (tok : Token), let charges := decide (s.tileState n = 1 ∨ s.tileState n = 3)
      (n < 400 ∧ port < 8) → (s.tile n).head port = some tok → tok.tag < 0xFF0 → ((s.tile n).active = none ∨ ((s.tile n).dead = false ∧ (s.tile n).fwd.any (fun q => q.1 = port) = true)) → ∃ t, exec (.flitPoison n port) s = .next t ∧
      (t.tile n).buf = poisonHead port (s.tile n).buf ∧
      (t.tile n).head port = some { tok with poison := true } ∧
      ((t.tile n).charged = (s.tile n).charged + (if charges then s.get R.FAB_HEALTH_WEIGHT_REFETCH else 0))) ∧
  (∀ (s : State) (n port : Nat) (tok : Token) (p : Plane),
      (n < 400 ∧ port < 8) → tok.tag < 0xFF0 → (s.tile n).active = some p → ((s.tile n).buf = [(port, tok)] ∧ (s.tile n).subSeen = [] ∧ (s.tile n).swapDue = false ∧ (s.tile n).dead = false) → ((s.tile n).fwd.any (fun q => q.1 = port) = false) → p.ins ≠ [] → p.entry tok.tag % 256 = 0 →
      ∃ t, exec (.flitPoison n port) s = .next t ∧
      t.get R.FAB_TILE_TOKENS n = (s.get R.FAB_TILE_TOKENS n + 1) % 2 ^ R.FAB_TILE_TOKENS.width ∧
      t.get R.FAB_TILE_ERRX_POISON n = min (s.get R.FAB_TILE_ERRX_POISON n + 1) (2 ^ R.FAB_TILE_ERRX_POISON.width - 1) ∧
      (t.get R.FAB_TILE_EVENT n).testBit 1 = true) ∧
  (∀ (s : State) (n spare : Nat) (err : TileErr),
      n < 400 → s.tileState n = 1 → ((s.tile n).dead = false ∧ (s.tile n).swapDue = false) → s.fab.migs = [] → s.flag R.PERS_STATE_PRELOADING = false → s.pers.pend = none → pickSpare (placePolicy (s.slotFile s.activeSlot)) n (s.usableSpares s.activeSlot s.pers.act) = some spare →
      ∃ t, exec (.tileUncorrectable n err) s = .next t ∧
      (t.get R.FAB_TILE_EVENT n).testBit 0 = true ∧
      (t.tile n).dead = true ∧ (t.tile n).threads = [] ∧
      t.get R.FAB_TILE_HEALTH_SCORE n = 0 ∧
      t.tileState n = 4 ∧
      ((t.migOf n).map (fun m => (m.spare, m.cause, m.step)) = some (spare, 2, .copy))) ∧
  (∀ (s : State) (n : Nat),
      n < 400 → s.tileState n = 2 → (s.tile n).dead = false → s.fab.migs = [] →
      ∃ t, exec (.residueRetry n true) s = .next t ∧
      t.tileState n = 5 ∧
      (t.get R.FAB_TILE_EVENT n).testBit 0 = true ∧
      t.get R.PERS_STATE_RETIRED = (s.get R.PERS_STATE_RETIRED + 1) % 2 ^ R.PERS_STATE_RETIRED.width) ∧
  (∀ (s : State) (n kind : Nat),
      n < 400 → s.flag R.FAB_CTRL_INJECT_EN = true → (kind % 8 = 1 ∨ kind % 8 = 3) →
      ∃ t, exec (.tileInject n kind) s = .next t ∧
      t.get R.FAB_TILE_ERR_CORR n = min (s.get R.FAB_TILE_ERR_CORR n + 1) (2 ^ R.FAB_TILE_ERR_CORR.width - 1) ∧
      (t.fab.corr.any (fun c => c.src = 7 && c.kind = 1 && c.injected) = true)) ∧
  (∀ (s : State) (n kind : Nat), s.flag R.FAB_CTRL_INJECT_EN = false → ∃ t, exec (.tileInject n kind) s = .next t ∧
      t = s) ∧
  (∀ (s : State) (r : Req) (n spare : Nat),
      n < 400 → s.tileState n = 1 → s.migOf n = none → s.flag R.PERS_STATE_PRELOADING = false → s.pers.pend = none → pickSpare (placePolicy (s.slotFile s.activeSlot)) n (s.usableSpares s.activeSlot s.pers.act) = some spare →
      ∃ t, exec (.tileCtrlMigrate r 0x0FAB n) s = .next t ∧
      t.tileState n = 3 ∧
      ((t.migOf n).map (fun m => (m.spare, m.cause, m.step)) = some (spare, 3, .copy)) ∧
      t.flag R.FAB_STAT_MIGRATING = true) ∧
  (∀ (s : State) (r : Req) (n : Nat),
      n < 400 → (s.tileState n = 0 ∨ s.tileState n = 2 ∨ s.tileState n = 5) →
      ∃ t, exec (.tileCtrlKat r 0x0FAB n) s = .next t ∧
      (t.tile n).katDue = true ∧
      t.regs = s.regs) ∧
  (∀ (s : State) (periodic : Bool) (failed : List Nat), ∃ t, exec (.spareKat periodic failed) s = .next t ∧
      (∀ n, n < 400 → ((periodic = true ∧ s.tileState n = 2) ∨ (s.tile n).katDue = true) → t.get R.FAB_TILE_KAT_DONE n = 1 ∧ t.flag R.FAB_TILE_KAT_PASS n = !failed.contains n ∧ (t.tile n).katDue = false ∧ (s.tileState n = 2 → failed.contains n = true → t.tileState n = 5))) ∧
  (∀ (s : State) (n : Nat), n < 400 → ∃ t, exec (.droopDetect n) s = .next t ∧
      (t.tile n).stretch = ((s.tile n).stretch + 1) % 1024 ∧
      (t.get R.FAB_TILE_MARGIN_STRETCHED n = (if (s.tile n).stretch = 1023 then min (s.get R.FAB_TILE_MARGIN_STRETCHED n + 1) (2 ^ R.FAB_TILE_MARGIN_STRETCHED.width - 1) else s.get R.FAB_TILE_MARGIN_STRETCHED n))) ∧
  (∀ (s : State) (q : Nat) (clocks : List TileClock) (c : TileClock),
      let mine := clocks.filter (fun c => decide (c.tile < 400) && quadOfTile c.tile = q && (s.tileState c.tile = 1 || s.tileState c.tile = 3 || s.tileState c.tile = 4))
      let v := max 620 (s.get R.FAB_QUAD_VOLT q)
      let want := Word.clamp 620 s.voltCap c.want
      let next := if v < want then min want (v + 5) else if want < v then max want (v - 5) else v
      q < 4 → slowest mine = some c →
      ∃ t, exec (.quadVoltageLoop q clocks) s = .next t ∧
      t.get R.FAB_QUAD_VOLT q = next % 2 ^ R.FAB_QUAD_VOLT.width ∧
      (t.get R.FAB_QUAD_FREQ q ≤ min 2047 (min c.mean (s.generatorFreq c.replica))) ∧
      (s.voltCap ≤ next ∧ c.replica < s.clockTarget → t.flag R.FAB_QUAD_LIMIT_AT_LIMIT q = true ∧ t.get R.FAB_QUAD_LIMIT_LIMIT_COUNT q = min (s.get R.FAB_QUAD_LIMIT_LIMIT_COUNT q + 1) (2 ^ R.FAB_QUAD_LIMIT_LIMIT_COUNT.width - 1) ∧ (t.word R.FAB_IRQ_STATUS.base).getLsbD 3 = true) ∧
      (clocks = [c] → (t.tile c.tile).freq = s.generatorFreq c.replica ∧ 600 ≤ (t.tile c.tile).freq ∧ (t.tile c.tile).freq ≤ 1450 ∧ t.get R.FAB_TILE_CLK_MEAN c.tile = min c.mean (s.generatorFreq c.replica) % 2 ^ R.FAB_TILE_CLK_MEAN.width)) ∧
  (∀ (s : State) (q : Nat), q < 4 → ∃ t, exec (.quadVoltageLoop q []) s = .next t ∧
      t = s.put R.FAB_QUAD_VOLT (max 620 (s.get R.FAB_QUAD_VOLT q)) q)

/-- MIGRATION_COPY_DONE counts a partial load; a good copy puts the function's plane on standby at the spare and the redirect follows, a bad one retires the spare and the migration starts again. The redirect, at a boundary the failing tile has not passed on, makes the spare the function's tile, and the ports the failing tile leads to hold the spare's tokens. Only once the failing tile has finished its tokens does the drain end; it sends the drain marker on its outputs. That end, or the timeout with its tokens dropped, retires the tile, reports it in FAB_MIG_LAST and counts it. A complete row band enters its buffer, counts three rays for each pixel of its rows, and the fabric goes on to the next. At its deadline the band leaves its buffer and is sent; one not complete is an overrun, flagged; at the last band the subframe ends.

Each clause concludes that exec answers a next state. Commands it says so of: migrationCopyDone, migrationRedirect, migrationDrainDone, drainTimeout, rowBandComplete, rowBandDeadline. -/
def Obligations.MigrationsAndRowBands : Prop :=
  (∀ (s : State) (n : Nat) (m : Mig) (f : Nat),
      (n < 400 ∧ m.spare < 400) → s.fab.migs = [m] → (m.tile = n ∧ m.step = .copy) → (s.pers.act.find? (fun p => p.2 = n) = some (f, n)) →
      ∃ t, exec (.migrationCopyDone n true) s = .next t ∧
      (t.tile m.spare).standby = some (s.planeFor s.activeSlot s.pers.act f) ∧
      t.migOf n = some { m with step := .redirect } ∧
      t.get R.PERS_PARTIAL_COUNT = min (s.get R.PERS_PARTIAL_COUNT + 1) (2 ^ R.PERS_PARTIAL_COUNT.width - 1)) ∧
  (∀ (s : State) (n : Nat) (m : Mig),
      (n < 400 ∧ m.spare < 400) → s.fab.migs = [m] → (m.tile = n ∧ m.step = .copy) → s.tileState m.spare ≠ 5 → m.spare ≠ n →
      ∃ t, exec (.migrationCopyDone n false) s = .next t ∧
      t.tileState m.spare = 5 ∧
      t.get R.FAB_MIG_COUNT_RESTARTS = min (s.get R.FAB_MIG_COUNT_RESTARTS + 1) (2 ^ R.FAB_MIG_COUNT_RESTARTS.width - 1) ∧
      ((t.migOf n).all (fun x => x.spare ≠ m.spare) = true)) ∧
  (∀ (s : State) (n : Nat) (m : Mig) (p old : Plane),
      (n < 400 ∧ m.spare < 400 ∧ m.spare ≠ n) → s.fab.migs = [m] → (m.tile = n ∧ m.step = .redirect) → (s.tile m.spare).standby = some p → (s.tile n).active = some old → (s.tile n).seen ≠ some (s.view.renderSf % 2 ^ 32) → (p.func < 1024 ∧ p.cls < 512) →
      ∃ t, exec (.migrationRedirect n) s = .next t ∧
      (t.tile m.spare).active = some (p.reroute n m.spare) ∧
      t.tileState m.spare = 1 ∧
      t.get R.FAB_TILE_STAT_FUNC m.spare = p.func ∧
      (t.pers.act = s.pers.act.map (fun q => if q.2 = n then (q.1, m.spare) else q)) ∧
      t.migOf n = some { m with step := .drain, sf := s.view.renderSf % 2 ^ 32, closed := old.ins.isEmpty } ∧
      (old.outs.all (fun r => decide (400 ≤ r.dst) || (t.tile r.dst).drainWait.contains (r.inp, m.spare)) = true)) ∧
  (∀ (s : State) (n : Nat) (m : Mig),
      (n < 400 ∧ m.spare < 400) → s.fab.migs = [m] → (m.tile = n ∧ m.step = .drain) → s.drained m = true →
      ∃ t, exec (.migrationDrainDone n) s = .next t ∧
      t.tileState n = 5 ∧
      t.migOf n = none ∧
      t.get R.FAB_MIG_LAST_FROM = n ∧
      t.get R.FAB_MIG_LAST_TO = m.spare ∧
      t.get R.FAB_MIG_LAST_RESULT = 0 ∧
      t.get R.FAB_MIG_COUNT_MIGRATIONS = min (s.get R.FAB_MIG_COUNT_MIGRATIONS + 1) (2 ^ R.FAB_MIG_COUNT_MIGRATIONS.width - 1) ∧
      t.flag R.FAB_STAT_MIGRATING = false ∧
      (t.word R.FAB_IRQ_STATUS.base).getLsbD 0 = true) ∧
  (∀ (s : State) (n : Nat) (m : Mig) (p : Plane) (r : RoutePort),
      (n < 400 ∧ m.spare < 400) → s.fab.migs = [m] → (m.tile = n ∧ m.step = .drain) → s.drained m = true → (s.tile n).active = some p → (p.outs = [r] ∧ r.dst < 400) → (s.tile n).outq = [] → s.room r.dst r.inp r.vc = true →
      ∃ t, exec (.migrationDrainDone n) s = .next t ∧
      t.fab.mesh = s.fab.mesh ++ [⟨n, r.dst, r.inp, ⟨0xFFD, r.vc, false, m.sf % 2 ^ 32 + n * 2 ^ 32⟩, meshPath n r.dst⟩] ∧
      t.tileState n = 5) ∧
  (∀ (s : State) (n : Nat) (m : Mig),
      s.fab.migs = [m] → (m.tile = n ∧ m.step = .drain) → s.drained m = false →
      ∃ t, exec (.migrationDrainDone n) s = .next t ∧
      t = s) ∧
  (∀ (s : State) (n : Nat) (m : Mig),
      (n < 400 ∧ m.spare < 400) → s.fab.migs = [m] → (m.tile = n ∧ m.step = .drain) → s.tileState n ≠ 5 →
      ∃ t, exec (.drainTimeout n) s = .next t ∧
      t.tileState n = 5 ∧
      (t.tile n).buf = [] ∧ (t.tile n).threads = [] ∧
      (t.get R.FAB_TILE_EVENT n).testBit 5 = true ∧
      t.get R.FAB_MIG_LAST_RESULT = 3 ∧
      t.migOf n = none) ∧
  (∀ (s : State) (own : List Ray) (shares : List Share) (poisoned : List RayAt),
      s.rst.hold = .run → s.pseq.bands = [] → s.get R.VIEW_BAND % 128 + 1 < s.bandCount →
      ∃ t, exec (.rowBandComplete own shares poisoned) s = .next t ∧
      t.get R.VIEW_RAYS = (s.get R.VIEW_RAYS + 3 * (2 * min 64 (s.halfRows - 64 * (s.get R.VIEW_BAND % 128)) * s.panelW)) % 2 ^ R.VIEW_RAYS.width ∧
      (t.pseq.bands.map (fun b => (b.sf, b.band, b.tiles)) = [(s.view.renderSf, s.get R.VIEW_BAND % 128, (distinct (shares.map (·.tile))).filter (· < 400))]) ∧
      (t.pseq.bands.all (fun b => b.vals.length = 3 * (2 * min 64 (s.halfRows - 64 * (s.get R.VIEW_BAND % 128)) * s.panelW) && b.sigs.length = 2) = true) ∧
      t.get R.VIEW_BAND % 128 = s.get R.VIEW_BAND % 128 + 1 ∧
      t.fab.rayOut = []) ∧
  (∀ (s : State) (own : List Ray) (shares : List Share) (slow : List Nat) (poisoned unfinished : List RayAt) (b : BandBuf),
      s.pseq.inFlight = true → s.flag R.PSEQ_STAT_PATTERN_ON = false → s.pseq.bands = [b] → (b.sf = s.sf ∧ b.band = s.pseq.sentBands) → s.pseq.sentBands + 1 < s.bandCount → s.groupsInUse = [] →
      ∃ t, exec (.rowBandDeadline own shares slow poisoned unfinished) s = .next t ∧
      t.pseq.bands = [] ∧
      t.pseq.sentBands = s.pseq.sentBands + 1 ∧
      t.pseq.inFlight = true ∧
      t.pseq.sigs.sigs = s.pseq.sigs.sigs ++ b.sigs ∧
      t.get R.PSEQ_STAT_BAND = s.pseq.sentBands % 2 ^ R.PSEQ_STAT_BAND.width) ∧
  (∀ (s : State) (own : List Ray) (shares : List Share) (slow : List Nat) (poisoned unfinished : List RayAt),
      s.pseq.inFlight = true → s.flag R.PSEQ_STAT_PATTERN_ON = false → s.pseq.bands = [] → s.view.renderSf = s.sf → s.pseq.sentBands + 1 < s.bandCount → s.groupsInUse = [] →
      ∃ t, exec (.rowBandDeadline own shares slow poisoned unfinished) s = .next t ∧
      (t.word R.VIEW_IRQ_STATUS.base).getLsbD 5 = true ∧
      (∀ n, n < 400 → n ∈ slow → (t.tile n).lowered.isSome = true ∧ (t.get R.FAB_TILE_EVENT n).testBit 4 = true) ∧
      t.pseq.sentBands = s.pseq.sentBands + 1 ∧
      t.pseq.sigs.excused = s.pseq.sigs.excused ++ [true, true] ∧
      t.pseq.sigs.sigs.length = s.pseq.sigs.sigs.length + 2)

/-- Of every ray of every layout: where it meets an entry, v is the reference value of R179 and u lies within 8/256 texel of it, in HORIZ within 6/256; its value is at most full scale. With a valid depth table and at most one background, what a ray spends together with its residual anchors is within its budget, of whatever 12 planes or more. A tile's budget is never below 12 and, in PEAK, leaves 12 planes for each ray to come within 40 for each ray of its share. Tone mapping leaves each output within 16 of its exact value. The triples of a band are those of its pixels in scan order, and outside PEAK, where no ray is poisoned, unfinished or an owner-signed personality's own, each is the ray of chapter 6 with its tile's budget. A completed band holds their tone-mapped and dithered values in the phase rendered (log entry 81).

Each clause concludes that exec answers a next state. Commands it says so of: rowBandComplete. -/
def Obligations.RaysStayWithinStepsAndBudget : Prop :=
  (∀ (s : State) (c r p : Nat) (e : RayEntry) (u v : Int),
    let m := s.get R.VIEW_MODE_EFF_MODE
    let a := rayAddr m c r
    s.rayCoords m p a e = some (u, v) →
      v = refCoord a.cy (s.raySlope m a.i a.j p).2 e.z e.oy e.scale ∧
      (u - refCoord a.cx (s.raySlope m a.i a.j p).1 e.z e.ox e.scale).natAbs ≤ (if mLayout m = 1 then 6 else 8)) ∧
  (∀ (s : State) (stop b c r p : Nat) (walked : Option Nat) (l : List RayEntry), (s.ray stop b walked l c r p).c ≤ fullScale) ∧
  (∀ (s : State) (region stop b c r p : Nat) (walked : Option Nat),
    let l := s.rayStack region
    depthValid s.depthTable = true → (l.filter (fun e => decide (e.kind = .background))).length ≤ 1 → 12 ≤ b →
      (s.ray stop b walked l c r p).spent ≤ b) ∧
  (∀ (s : State) (n rays begun used : Nat), (s.tile n).lowered.all (12 ≤ ·) = true → 12 ≤ s.rayBudget n rays begun used) ∧
  (∀ rays begun used : Nat, begun < rays → used + 12 * (rays - begun) ≤ 40 * rays →
    12 ≤ peakBudget rays begun used ∧ used + peakBudget rays begun used + 12 * (rays - begun - 1) ≤ 40 * rays) ∧
  (∀ (s : State) (v : Nat × Nat × Nat),
    ((s.toneMap v).1 ≤ (s.toneExact v).1 + 16 ∧ (s.toneExact v).1 ≤ (s.toneMap v).1 + 16) ∧
    ((s.toneMap v).2.1 ≤ (s.toneExact v).2.1 + 16 ∧ (s.toneExact v).2.1 ≤ (s.toneMap v).2.1 + 16) ∧
    (s.toneMap v).2.2 ≤ (s.toneExact v).2.2 + 16 ∧ (s.toneExact v).2.2 ≤ (s.toneMap v).2.2 + 16) ∧
  (∀ (s : State) (k p : Nat) (j : BandJob), (s.bandTriples k p j).map (fun q => (q.row, q.x)) = s.bandPixels k) ∧
  (∀ (s : State) (k p row x : Nat) (j : BandJob), (row, x) ∈ s.bandPixels k → s.profile ≠ 0 → j.own = [] → j.poisoned = [] → j.unfinished = [] →
    let v (c : Nat) := s.ray j.stop (s.tileBudget (tileAt j.shares row x)) none (s.rayStack (rayRegion x row)) c row p
    ∃ cut black, ⟨row, x, (v (3 * x)).c, (v (3 * x + 1)).c, (v (3 * x + 2)).c, cut, black⟩ ∈ s.bandTriples k p j) ∧
  (∀ (s : State) (own : List Ray) (shares : List Share) (poisoned : List RayAt), let k := s.get R.VIEW_BAND % 128
      s.rst.hold = .run → s.pseq.bands = [] → k + 1 < s.bandCount → ∃ t, exec (.rowBandComplete own shares poisoned) s = .next t ∧
      (t.pseq.bands.map (fun b => b.vals) = [(s.toneBand (s.bandTriples k (s.renderPhase s.renderIndexPhase) (s.bandJob k own shares poisoned []))).map
      (fun v => (v.1, v.2.1, dither s.ditherMode s.view.renderSf v.1 v.2.1 v.2.2))]))

/-- A HEAD below 2^SIZE is taken; any other leaves HEAD as it is with ERR 0x24. START runs a ring that is not halted, RESTART clears ERR and HALTED, STOP stops. A descriptor with LEN 0 advances TAIL and moves nothing; a bad one halts the ring with 0x17, 0x20, 0x21 or 0x22, TAIL staying; a good one is put in flight; a full buffer stalls the ring without loss until it has room. When the bytes are in, TAIL advances and is written back; a host read that ends in an error, of the descriptor or of its bytes, halts with 0x23, and the unit left incomplete is lost. A descriptor of module DRAM takes its bytes from there. The order of the checks is this model's choice (log entry 33).

Each clause concludes that exec answers a next state. Commands it says so of: dmaHeadWrite, dmaStart, dmaRestart, dmaStop, dmaDescriptorProcess, dmaRingResume, dmaDescriptorDone. -/
def Obligations.IntakeRingFollowsHeadAndHalts : Prop :=
  (∀ (s : State) (r : Req) (v : Nat), v < 4096 → v < s.dmaEntries → ∃ t, exec (.dmaHeadWrite r v) s = .next t ∧
      t.get R.INTK_DMA_HEAD = v ∧
      t.get R.INTK_DMA_TAIL = s.get R.INTK_DMA_TAIL ∧
      t.intk = s.intk) ∧
  (∀ (s : State) (r : Req) (v : Nat), v < 4096 → s.dmaEntries ≤ v → ∃ t, exec (.dmaHeadWrite r v) s = .next t ∧
      t.get R.INTK_DMA_HEAD = s.get R.INTK_DMA_HEAD ∧
      t.get R.INTK_DMA_STAT_ERR = 0x24 ∧
      (t.word R.INTK_IRQ_STATUS.base).getLsbD 3 = true) ∧
  (∀ (s : State) (r : Req), ∃ t, exec (.dmaStart r) s = .next t ∧
      (t.flag R.INTK_DMA_STAT_RUNNING = if s.flag R.INTK_DMA_STAT_HALTED then s.flag R.INTK_DMA_STAT_RUNNING else true) ∧
      t.flag R.INTK_DMA_STAT_HALTED = s.flag R.INTK_DMA_STAT_HALTED) ∧
  (∀ (s : State) (r : Req), ∃ t, exec (.dmaRestart r) s = .next t ∧
      t.flag R.INTK_DMA_STAT_HALTED = false ∧
      t.get R.INTK_DMA_STAT_ERR = 0 ∧
      (t.flag R.INTK_DMA_STAT_RUNNING = if s.flag R.INTK_DMA_STAT_HALTED then true else s.flag R.INTK_DMA_STAT_RUNNING)) ∧
  (∀ (s : State) (r : Req), ∃ t, exec (.dmaStop r) s = .next t ∧
      t.flag R.INTK_DMA_STAT_RUNNING = false ∧
      t.intk.dma = s.intk.dma) ∧
  (∀ (s : State) (d : List Byte),
      s.dmaReady = true → s.intk.stall = false → s.dmaFull = false → leAt d 8 4 = 0 → leAt d 12 4 < 4 → leAt d 0 8 < 2 ^ 64 →
      ∃ t, exec (.dmaDescriptorProcess (some d)) s = .next t ∧
      t.get R.INTK_DMA_TAIL = (s.get R.INTK_DMA_TAIL + 1) % s.dmaEntries ∧
      t.intk = s.intk) ∧
  (∀ (s : State) (d : List Byte),
      s.dmaReady = true → s.intk.stall = false → s.dmaFull = false → (leAt d 12 4).testBit 0 = false → 0 < leAt d 8 4 →
      ∃ t, exec (.dmaDescriptorProcess (some d)) s = .next t ∧
      t.get R.INTK_DMA_TAIL = s.get R.INTK_DMA_TAIL ∧
      (if 16777216 < leAt d 8 4 then t.get R.INTK_DMA_STAT_ERR = 0x20 ∧ t.flag R.INTK_DMA_STAT_HALTED = true ∧ t.intk.dma = none
      else if 4 ≤ leAt d 12 4 then t.get R.INTK_DMA_STAT_ERR = 0x21 ∧ t.flag R.INTK_DMA_STAT_HALTED = true ∧ t.intk.dma = none
      else if 2 ^ 64 < leAt d 0 8 + leAt d 8 4 then t.get R.INTK_DMA_STAT_ERR = 0x22 ∧ t.flag R.INTK_DMA_STAT_HALTED = true ∧ t.intk.dma = none
      else t.intk.dma = some (leAt d 0 8, leAt d 8 4, leAt d 12 4) ∧ t.flag R.INTK_DMA_STAT_HALTED = false)) ∧
  (∀ (s : State) (d : List Byte),
      s.dmaReady = true → s.intk.stall = false → s.dmaFull = false → (leAt d 12 4).testBit 0 = true → s.regionOk .intk false (leAt d 0 8) (leAt d 8 4) = false →
      ∃ t, exec (.dmaDescriptorProcess (some d)) s = .next t ∧
      t.get R.INTK_DMA_STAT_ERR = 0x17 ∧
      t.flag R.INTK_DMA_STAT_HALTED = true ∧
      t.get R.INTK_DMA_TAIL = s.get R.INTK_DMA_TAIL ∧
      (t.word R.INTK_IRQ_STATUS.base).getLsbD 3 = true) ∧
  (∀ (s : State) (d : List Byte),
      s.dmaReady = true → s.intk.stall = false → s.dmaFull = true →
      ∃ t, exec (.dmaDescriptorProcess (some d)) s = .next t ∧
      t = { s with intk := { s.intk with stall := true } }) ∧
  (∀ (s : State),
      s.dmaReady = true → s.intk.stall = false → s.dmaFull = false →
      ∃ t, exec (.dmaDescriptorProcess none) s = .next t ∧
      t.get R.INTK_DMA_STAT_ERR = 0x23 ∧
      t.flag R.INTK_DMA_STAT_HALTED = true ∧
      t.get R.INTK_DMA_TAIL = s.get R.INTK_DMA_TAIL ∧
      t.intk = s.intk) ∧
  (∀ (s : State) (d : List Byte),
      s.intk.stall = true → s.dmaFull = false → s.dmaReady = true → (leAt d 12 4).testBit 0 = false → 0 < leAt d 8 4 → leAt d 8 4 ≤ 16777216 → leAt d 12 4 < 4 → leAt d 0 8 + leAt d 8 4 ≤ 2 ^ 64 →
      ∃ t, exec (.dmaRingResume (some d)) s = .next t ∧
      t = { s with intk := { s.intk with stall := false, dma := some (leAt d 0 8, leAt d 8 4, leAt d 12 4) } }) ∧
  (∀ (s : State) (bytes : List Byte) (addr len flags : Nat),
      s.intk.dma = some (addr, len, flags) → flags.testBit 0 = false → len = bytes.length →
      ∃ t, exec (.dmaDescriptorDone bytes false) s = .next t ∧
      t.get R.INTK_DMA_TAIL = (s.get R.INTK_DMA_TAIL + 1) % s.dmaEntries ∧
      t.intk.dma = none ∧
      (s.get R.INTK_DMA_WB ≠ 0 → .hostWrite (s.get R.INTK_DMA_WB) (Word.toLe 4 (t.get R.INTK_DMA_TAIL)) ∈ t.out) ∧
      (flags.testBit 1 = true → (t.word R.INTK_IRQ_STATUS.base).getLsbD 4 = true)) ∧
  (∀ (s : State) (bytes : List Byte) (addr len flags : Nat),
      s.intk.dma = some (addr, len, flags) → flags.testBit 0 = false → len = bytes.length → s.intk.stream = [] → s.intk.scan = false → opensUnit false bytes = true → bytes.length = 16 + uLen bytes →
      ∃ t, exec (.dmaDescriptorDone bytes false) s = .next t ∧
      t.intk.ready = s.intk.ready ++ [⟨s.intk.arrivals + 1, bytes⟩] ∧
      t.intk.stream = []) ∧
  (∀ (s : State) (bytes : List Byte) (addr len flags : Nat),
      s.intk.dma = some (addr, len, flags) → flags.testBit 0 = false →
      ∃ t, exec (.dmaDescriptorDone bytes true) s = .next t ∧
      t.get R.INTK_DMA_STAT_ERR = 0x23 ∧
      t.flag R.INTK_DMA_STAT_HALTED = true ∧
      t.get R.INTK_DMA_TAIL = s.get R.INTK_DMA_TAIL ∧
      t.intk.stream = []) ∧
  (∀ (s : State) (bytes : List Byte) (abort : Bool) (addr len flags : Nat),
      s.intk.dma = some (addr, len, flags) → flags.testBit 0 = true → s.intk.stream = [] → s.intk.scan = false → opensUnit false (s.readBytes addr len) = true → len = 16 + uLen (s.readBytes addr len) →
      ∃ t, exec (.dmaDescriptorDone bytes abort) s = .next t ∧
      t.get R.INTK_DMA_TAIL = (s.get R.INTK_DMA_TAIL + 1) % s.dmaEntries ∧
      t.intk.dma = none ∧
      t.intk.ready = s.intk.ready ++ [⟨s.intk.arrivals + 1, s.readBytes addr len⟩])

/-- Only RTP packets (no RTCP) of version 2 on the selected port, to the module's address or a group it joined, with its UDP port and payload type count at all. A packet of another SSRC than the locked one counts in INTK_CONCEAL[8], one with another header version in [7], and neither is placed. A packet that carries a whole unit makes that unit ready; with no lock, one that opens a sequence header locks the intake to its SSRC. A fragment of a unit that stays incomplete is kept as a part; one of a unit received whole is ignored. When 2,000 ms have passed without a packet of the locked SSRC the lock is released with SSRC_LOST, and the next stream sets a reference of its own.

Each clause concludes that exec answers a next state. Commands it says so of: rtpPacket, ssrcTimeout. -/
def Obligations.RtpFragmentsBecomeUnits : Prop :=
  (∀ (s : State) (p : RtpPacket), s.rtpMine p = false → ∃ t, exec (.rtpPacket p) s = .next t ∧
      t = s) ∧
  (∀ (s : State) (p : RtpPacket), let load := (rtpPayload p.bytes).getD []
      s.rtpMine p = true → s.flag R.INTK_STAT_SSRC_LOCK = true → rtpSsrc p.bytes ≠ s.get R.INTK_SSRC → ∃ t, exec (.rtpPacket p) s = .next t ∧
      t.get R.INTK_CONCEAL 8 = min (s.get R.INTK_CONCEAL 8 + 1) (2 ^ R.INTK_CONCEAL.width - 1) ∧
      (t.word R.INTK_IRQ_STATUS.base).getLsbD 2 = true ∧
      t.intk.ready = s.intk.ready ∧
      t.intk.parts = s.intk.parts) ∧
  (∀ (s : State) (p : RtpPacket), let load := (rtpPayload p.bytes).getD []
      s.rtpMine p = true → s.flag R.INTK_STAT_SSRC_LOCK = true → rtpSsrc p.bytes = s.get R.INTK_SSRC → leAt load 0 1 / 64 ≠ 1 → ∃ t, exec (.rtpPacket p) s = .next t ∧
      t.get R.INTK_CONCEAL 7 = min (s.get R.INTK_CONCEAL 7 + 1) (2 ^ R.INTK_CONCEAL.width - 1) ∧
      t.intk.ready = s.intk.ready ∧
      t.intk.parts = s.intk.parts) ∧
  (∀ (s : State) (p : RtpPacket), let load := (rtpPayload p.bytes).getD []
      s.rtpMine p = true → s.flag R.INTK_STAT_SSRC_LOCK = true → rtpSsrc p.bytes = s.get R.INTK_SSRC → 28 ≤ load.length → leAt load 0 1 / 64 = 1 → beAt load 8 4 = 0 → (load.drop 12).length = 16 + uLen (load.drop 12) → s.intk.whole.contains (beAt load 4 4, beAt load 2 2) = false → s.intk.parts = [] → s.intakeBytes + (load.drop 12).length ≤ 512 * mib → ∃ t, exec (.rtpPacket p) s = .next t ∧
      t.intk.ready = s.intk.ready ++ [⟨s.intk.arrivals + 1, load.drop 12⟩] ∧
      t.intk.parts = []) ∧
  (∀ (s : State) (p : RtpPacket), let load := (rtpPayload p.bytes).getD []
      s.rtpMine p = true → s.flag R.INTK_STAT_SSRC_LOCK = true → rtpSsrc p.bytes = s.get R.INTK_SSRC → 12 ≤ load.length → leAt load 0 1 / 64 = 1 → (load.drop 12).length < 16 → s.intk.whole.contains (beAt load 4 4, beAt load 2 2) = false → s.intk.parts = [] → s.intakeBytes + (load.drop 12).length ≤ 512 * mib → ∃ t, exec (.rtpPacket p) s = .next t ∧
      t.intk.ready = s.intk.ready ∧
      t.intk.parts = [⟨beAt load 4 4, beAt load 2 2, s.intk.arrivals + 1, [(beAt load 8 4, load.drop 12)], none⟩]) ∧
  (∀ (s : State) (p : RtpPacket), let load := (rtpPayload p.bytes).getD []
      s.rtpMine p = true → s.flag R.INTK_STAT_SSRC_LOCK = true → s.intk.whole.contains (beAt load 4 4, beAt load 2 2) = true → ∃ t, exec (.rtpPacket p) s = .next t ∧
      t.intk.ready = s.intk.ready ∧
      t.intk.parts = s.intk.parts) ∧
  (∀ (s : State) (p : RtpPacket), let load := (rtpPayload p.bytes).getD []
      s.rtpMine p = true → s.flag R.INTK_STAT_SSRC_LOCK = false → 12 ≤ load.length → leAt load 0 1 / 64 = 1 → beAt load 8 4 = 0 → uSync (load.drop 12) = true → uType (load.drop 12) = 1 → ∃ t, exec (.rtpPacket p) s = .next t ∧
      t.get R.INTK_SSRC = rtpSsrc p.bytes % 2 ^ 32 ∧
      t.flag R.INTK_STAT_SSRC_LOCK = true) ∧
  (∀ (s : State), s.flag R.INTK_STAT_SSRC_LOCK = true → ∃ t, exec (.ssrcTimeout) s = .next t ∧
      t.flag R.INTK_STAT_SSRC_LOCK = false ∧
      (t.word R.INTK_IRQ_STATUS.base).getLsbD 7 = true ∧
      t.intk.rtpSeq = none ∧
      t.intk.ref = none) ∧
  (∀ (s : State), s.flag R.INTK_STAT_SSRC_LOCK = false → ∃ t, exec (.ssrcTimeout) s = .next t ∧
      t = s)

/-- A repeated sequence header changes nothing else; an invalid one refuses the stream with reason 1, one of a format no active or automatic personality serves with reason 2, one whose modes fail the checks with reason 3, one whose tracks cannot be bound with reason 4, and a good one is held as the next sequence with its tracks bound. A good atlas unit's picture joins the queue of the engine its track is bound to, or is skipped for a track of another module. Mask tiles inside the plane are written, others counted in [12], a residual set is kept for its frame; overlay, signature and key cues are kept as their fields say, or discarded with their enable at 0. A private unit is skipped, a unit that breaks Table 7.4 counts in [7].

Each clause concludes that exec answers a next state. Commands it says so of: sequenceHeader, planeAtlas, maskSection, residualSet, overlayCue, signatureCue, keyCue, privateUnit, refusedUnit. -/
def Obligations.SceneUnitsAreReadByType : Prop :=
  (∀ (s s1 : State) (u : VssUnit),
      s.takeType 1 = some (u, s1) → s1.seqKnown (uGen u.bytes) (uPayload u.bytes) = true →
      ∃ t, exec (.sequenceHeader) s = .next t ∧
      t = { s with intk := { s.intk with ready := s.intk.ready.erase u } }) ∧
  (∀ (s s1 : State) (u : VssUnit),
      s.takeType 1 = some (u, s1) → s1.seqKnown (uGen u.bytes) (uPayload u.bytes) = false → parseSeq (uGen u.bytes) (uPayload u.bytes) = none →
      ∃ t, exec (.sequenceHeader) s = .next t ∧
      t.intk.refused = true ∧
      t.get R.INTK_STAT_REASON = 1 ∧
      t.flag R.INTK_STAT_PLAYING = false ∧
      (t.word R.INTK_IRQ_STATUS.base).getLsbD 1 = true ∧
      t.intk.next = none) ∧
  (∀ (s s1 : State) (u : VssUnit) (h : SeqHdr),
      s.takeType 1 = some (u, s1) → s1.seqKnown (uGen u.bytes) (uPayload u.bytes) = false → parseSeq (uGen u.bytes) (uPayload u.bytes) = some h → s1.formatServed h.format = false → (s1.flag R.PERS_CTRL = true → s1.autoSlot h.format = none) →
      ∃ t, exec (.sequenceHeader) s = .next t ∧
      t.intk.refused = true ∧
      t.get R.INTK_STAT_REASON = 2) ∧
  (∀ (s s1 : State) (u : VssUnit) (h : SeqHdr),
      s.takeType 1 = some (u, s1) → s1.seqKnown (uGen u.bytes) (uPayload u.bytes) = false → parseSeq (uGen u.bytes) (uPayload u.bytes) = some h → s1.formatServed h.format = true → s1.view.ctrl.testBit 0 = true → s1.modeCheckOn s1.activeSlot? (h.mode + 256 * mProfile s1.view.want) ≠ 0 →
      ∃ t, exec (.sequenceHeader) s = .next t ∧
      t.intk.refused = true ∧
      t.get R.INTK_STAT_REASON = 3 ∧
      t.flag R.INTK_STAT_PLAYING = false ∧
      t.intk.next = none) ∧
  (∀ (s s1 : State) (u : VssUnit) (h : SeqHdr),
      s.takeType 1 = some (u, s1) → s1.seqKnown (uGen u.bytes) (uPayload u.bytes) = false → parseSeq (uGen u.bytes) (uPayload u.bytes) = some h → s1.formatServed h.format = true → s1.view.ctrl.testBit 0 = false → modeEncodes (s1.get R.VIEW_MODE_EFF_MODE) = true →
      ∃ t, exec (.sequenceHeader) s = .next t ∧
      (match s1.bindSeq h (s1.get R.VIEW_MODE_EFF_MODE) with
      | none => t.intk.refused = true ∧ t.get R.INTK_STAT_REASON = 4
      | some b => t.intk.refused = false ∧ t.intk.next = some { h with bind := b, auto := false } ∧ t.intk.cur = s.intk.cur)) ∧
  (∀ (s s1 : State) (u : VssUnit) (f : FrameSt) (d : List Byte) (e : Nat),
      s.takeType 3 = some (u, s1) → s1.unitFrame u = (s1, some f) → (((s1.frameSeq f).map (fun h => h.bind.getD (atlasTrack u.bytes) none)) = some (some e)) → ((s1.onFrame f.seq (fun x => { x with atlasIn := x.atlasIn + 1 })).openUnit u = (s1.onFrame f.seq (fun x => { x with atlasIn := x.atlasIn + 1 }), some d)) → leAt d 0 1 = atlasTrack u.bytes → 1 ≤ leAt d 2 2 → leAt d 2 2 ≤ 8704 → d.length = 8 + 12 * leAt d 2 2 + leAt d 4 4 →
      ∃ t, exec (.planeAtlas) s = .next t ∧
      t.intk.jobs = s.intk.jobs ++ [⟨e, uFrame u.bytes, f.time, uNo u.bytes, leAt d 0 1, (List.range (leAt d 2 2)).map (regionAt d), (d.drop (8 + 12 * leAt d 2 2)).take (leAt d 4 4), false⟩] ∧
      t.intk.ready = s.intk.ready.erase u ∧
      (e < 4 → t.flag R.TDEC_STAT_BUSY e = true) ∧
      (t.intk.frames = s.intk.frames.map (fun g => if g.seq = f.seq then { g with atlasIn := g.atlasIn + 1 } else g))) ∧
  (∀ (s s1 : State) (u : VssUnit) (f : FrameSt),
      s.takeType 3 = some (u, s1) → s1.unitFrame u = (s1, some f) → (((s1.frameSeq f).bind (fun h => h.bind[atlasTrack u.bytes]?)) = some none) →
      ∃ t, exec (.planeAtlas) s = .next t ∧
      t.intk.jobs = s.intk.jobs ∧
      t.intk.ready = s.intk.ready.erase u ∧
      (t.intk.frames = s.intk.frames.map (fun g => if g.seq = f.seq then { g with atlasIn := g.atlasIn + 1, atlasDone := g.atlasDone + 1 } else g)) ∧
      t.regs = s.regs ∧
      t.comp = s.comp) ∧
  (∀ (s s1 s3 : State) (u : VssUnit) (f : FrameSt) (d : List Byte) (pl x y : Nat) (vals : List Nat),
      s.takeType 4 = some (u, s1) → s1.unitFrame u = (s1, some f) → ((s1.onFrame f.seq (fun x => { x with maskIn := x.maskIn + 1 })).openUnit u = (s3, some d)) → parseMask d = some (pl, [(x, y, vals)]) →
      ∃ t, exec (.maskSection) s = .next t ∧
      t.intk.ready = s.intk.ready.erase u ∧
      (t.intk.frames = s.intk.frames.map (fun g => if g.seq = f.seq then { g with maskIn := g.maskIn + 1, maskDone := g.maskDone + 1 } else g)) ∧
      (match (s1.frameTable f)[pl]? with
      | some e => if x < e.w ∧ y < e.h then t.comp = (s3.tileWrite f.seq (calIndex pl x y) (uNo u.bytes * 16384) true vals none).comp
      else t.comp = s.comp ∧ t.get R.INTK_CONCEAL 12 = min (s.get R.INTK_CONCEAL 12 + 1) (2 ^ R.INTK_CONCEAL.width - 1)
      | none => t.comp = s.comp ∧ t.get R.INTK_CONCEAL 12 = min (s.get R.INTK_CONCEAL 12 + 1) (2 ^ R.INTK_CONCEAL.width - 1))) ∧
  (∀ (s s1 s3 : State) (u : VssUnit) (f : FrameSt) (d : List Byte),
      s.takeType 5 = some (u, s1) → s1.unitFrame u = (s1, some f) → ((s1.onFrame f.seq (fun x => { x with residIn := x.residIn + 1 })).openUnit u = (s3, some d)) →
      ∃ t, exec (.residualSet) s = .next t ∧
      t.intk.ready = s.intk.ready.erase u ∧
      (match (s1.frameSeq f).bind (fun h => s1.parseResid h ((uFlags u.bytes).testBit 1) d) with
      | some r => t.intk.frames = s.intk.frames.map (fun g => if g.seq = f.seq then { g with residIn := g.residIn + 1, residSet := some r } else g)
      | none => t.intk.frames = s.intk.frames.map (fun g => if g.seq = f.seq then { g with residIn := g.residIn + 1 } else g)) ∧
      t.regs = s3.regs ∧
      t.comp = s3.comp) ∧
  (∀ (s s1 s3 : State) (u : VssUnit) (f : FrameSt) (d : List Byte),
      s.takeType 6 = some (u, s1) → s1.unitFrame u = (s1, some f) → s.flag R.INTK_CTRL_OVLY_CUE = true → s1.openUnit u = (s3, some d) → leAt d 0 1 < 4 → leAt d 1 1 < 3 → 14 ≤ d.length → ((uFlags u.bytes).testBit 1 = true → d.length = 14 + (if leAt d 1 1 = 2 then leAt d 6 2 * leAt d 8 2 * formatBytes (leAt d 10 1) else 0)) →
      ∃ t, exec (.overlayCue) s = .next t ∧
      t.intk.ready = s.intk.ready.erase u ∧
      (if leAt d 1 1 < 2 then t.blt = { s.blt with actions := s.blt.actions ++ [(uFrame u.bytes, leAt d 0 1, leAt d 1 1)] }
      else t.blt = { s.blt with cues := s.blt.cues ++ [⟨uFrame u.bytes, leAt d 0 1, leAt d 1 1, leAt d 2 2, leAt d 4 2, leAt d 6 2, leAt d 8 2, leAt d 10 1, d.drop 14⟩] })) ∧
  (∀ (s s1 : State) (u : VssUnit) (f : FrameSt),
      s.takeType 6 = some (u, s1) → s1.unitFrame u = (s1, some f) → s.flag R.INTK_CTRL_OVLY_CUE = false →
      ∃ t, exec (.overlayCue) s = .next t ∧
      t = { s with intk := { s.intk with ready := s.intk.ready.erase u } }) ∧
  (∀ (s s1 : State) (u : VssUnit) (f : FrameSt),
      s.takeType 7 = some (u, s1) → s1.unitFrame u = (s1, some f) → 1 ≤ leAt (uPayload u.bytes) 0 1 → leAt (uPayload u.bytes) 0 1 ≤ 16 → 4 + 16 * leAt (uPayload u.bytes) 0 1 ≤ (uPayload u.bytes).length → (((List.range (leAt (uPayload u.bytes) 0 1)).map (sigEntry (uPayload u.bytes))).any (fun e => 16 ≤ e.getD 0 0) = false) →
      ∃ t, exec (.signatureCue) s = .next t ∧
      t.intk.ready = s.intk.ready.erase u ∧
      (t.intk.frames = if s.flag R.INTK_CTRL_SIG_CUE = false then s.intk.frames else s.intk.frames.map (fun g => if g.seq = f.seq then
      { g with sigs := g.sigs ++ (List.range (leAt (uPayload u.bytes) 0 1)).map (sigEntry (uPayload u.bytes)) } else g))) ∧
  (∀ (s s1 : State) (u : VssUnit),
      s.takeType 8 = some (u, s1) → s1.seqHdr.isSome = true → 1 ≤ leAt (uPayload u.bytes) 0 1 → leAt (uPayload u.bytes) 0 1 ≤ 16 → 4 + 20 * leAt (uPayload u.bytes) 0 1 ≤ (uPayload u.bytes).length → ((List.range (leAt (uPayload u.bytes) 0 1)).all (fun i => leAt (uPayload u.bytes) (4 + 20 * i) 1 < 16) = true) →
      ∃ t, exec (.keyCue) s = .next t ∧
      t.intk.ready = s.intk.ready.erase u ∧
      (t.intk.binds = s.intk.binds ++ (List.range (leAt (uPayload u.bytes) 0 1)).map (fun i => (uFrame u.bytes, leAt (uPayload u.bytes) (4 + 20 * i) 1, ((uPayload u.bytes).drop (8 + 20 * i)).take 16))) ∧
      t.intk.frames = s.intk.frames) ∧
  (∀ (s s1 : State) (u : VssUnit),
      (s.takeUnit (fun u => decide (0x80 ≤ uType u) && !s.unitBad u) = some (u, s1)) →
      ∃ t, exec (.privateUnit) s = .next t ∧
      t = { s with intk := { s.intk with ready := s.intk.ready.erase u } }) ∧
  (∀ (s s1 : State) (u : VssUnit),
      s.takeUnit s.unitBad = some (u, s1) → s.intk.refused = false →
      ∃ t, exec (.refusedUnit) s = .next t ∧
      t.intk.ready = s.intk.ready.erase u ∧
      t.get R.INTK_CONCEAL 7 = min (s.get R.INTK_CONCEAL 7 + 1) (2 ^ R.INTK_CONCEAL.width - 1) ∧
      t.intk.frames = s.intk.frames)

/-- A frame header within range adds the frame with its presentation time mapped by the reference, unless its boundary lies outside the window, which counts in INTK_CONCEAL[13] with PTS_WINDOW. A decoded picture leaves the queue and PICS advances; corrupt and unsupported ones count in their own TDEC_ERR field and in [1] and write no tile; a late one counts in TDEC_LATE and writes none. At its deadline a frame closes and its missing atlases, masks and residual set count in [0], [2] and [3]. A supported DisplayPort picture becomes a frame with plane 0; a timing change and a loss of the link set their registers and flags.

Each clause concludes that exec answers a next state. Commands it says so of: frameHeader, pictureDecoded, decodeDeadline, dpPicture, dpTimingChange, dpLinkLoss. -/
def Obligations.FramesAreTimedDecodedAndConcealed : Prop :=
  (∀ (s s1 : State) (u : VssUnit) (h : SeqHdr) (pts flags a m k : Nat) (tone : List Nat) (r : Int),
      s.takeType 2 = some (u, s1) → s1.seqHdr = some h → s.intk.next = none → s.intk.closed.contains (uFrame u.bytes) = false → frameFields (uPayload u.bytes) = some (pts, flags, a, m, k, tone) → flags.testBit 1 = false → s.intk.ref = some r → s.intk.rebase = false →
      ∃ t, exec (.frameHeader) s = .next t ∧
      (match s.dueIndex ((pts : Int) + r) with
      | none => t.intk.frames = s.intk.frames ∧ (t.word R.INTK_IRQ_STATUS.base).getLsbD 5 = true ∧
      t.get R.INTK_CONCEAL 13 = min (s.get R.INTK_CONCEAL 13 + 1) (2 ^ R.INTK_CONCEAL.width - 1)
      | some n => if (s.now : Int) + ((max 1 (s.get R.INTK_WINDOW) * 1000000 : Nat) : Int) < s.gridTime n then
      t.intk.frames = s.intk.frames ∧ (t.word R.INTK_IRQ_STATUS.base).getLsbD 5 = true ∧
      t.get R.INTK_CONCEAL 13 = min (s.get R.INTK_CONCEAL 13 + 1) (2 ^ R.INTK_CONCEAL.width - 1)
      else if s.timeLate ((pts : Int) + r) = true then
      t.intk.frames = s.intk.frames ∧ t.intk.closed.contains (uFrame u.bytes) = true ∧
      t.get R.INTK_CONCEAL 6 = min (s.get R.INTK_CONCEAL 6 + 1) (2 ^ R.INTK_CONCEAL.width - 1)
      else t.intk.frames = s.intk.frames.filter (fun x => x.seq ≠ uFrame u.bytes) ++ [⟨uFrame u.bytes, (pts : Int) + r, flags.testBit 0, false, none, false,
      flags.testBit 2 && profileResid h.profile, if flags.testBit 3 then some tone else none, a, m, 0, 0, 0, 0, 0, none, [], false, none⟩])) ∧
  (∀ (s s1 : State) (u : VssUnit),
      s.takeType 2 = some (u, s1) → s.seqHdr.isSome = true → s.intk.closed.contains (uFrame u.bytes) = true →
      ∃ t, exec (.frameHeader) s = .next t ∧
      t.get R.INTK_CONCEAL 6 = min (s.get R.INTK_CONCEAL 6 + 1) (2 ^ R.INTK_CONCEAL.width - 1) ∧
      t.intk.frames = s.intk.frames ∧
      t.intk.ready = s.intk.ready.erase u) ∧
  (∀ (s : State) (e : Nat) (j : DecJob), e < 4 → s.nextJob e = some j → ∃ t, exec (.pictureDecoded e .corrupt) s = .next t ∧
      t.intk.jobs = s.intk.jobs.erase j ∧
      t.get R.TDEC_PICS e = (s.get R.TDEC_PICS e + 1) % 2 ^ R.TDEC_PICS.width ∧
      t.get R.TDEC_ERR_CORRUPT e = min (s.get R.TDEC_ERR_CORRUPT e + 1) 65535 ∧
      (t.word R.TDEC_IRQ_STATUS.base).getLsbD e = true ∧
      t.get R.INTK_CONCEAL 1 = min (s.get R.INTK_CONCEAL 1 + 1) (2 ^ R.INTK_CONCEAL.width - 1) ∧
      t.intk.corrupt.contains j.track = true ∧
      t.comp.wrote = s.comp.wrote) ∧
  (∀ (s : State) (e : Nat) (j : DecJob) (p : Picture) (uses : List PicFeature) (h : Option SeqHdr),
      let late : Bool := j.late || s.timeLate j.time
      e < 4 → s.nextJob e = some j → (h = (match s.intk.frames.find? (fun x => x.seq = j.frame && !x.closed && !late) with | some x => s.frameSeq x | none => s.intk.cur)) → (uses.any (excluded (match h with | some q => q.codec | none => 0)) = true) →
      ∃ t, exec (.pictureDecoded e (.ok p uses)) s = .next t ∧
      t.intk.jobs = s.intk.jobs.erase j ∧
      t.get R.TDEC_ERR_UNSUPP e = min (s.get R.TDEC_ERR_UNSUPP e + 1) 65535 ∧
      t.get R.INTK_CONCEAL 1 = min (s.get R.INTK_CONCEAL 1 + 1) (2 ^ R.INTK_CONCEAL.width - 1) ∧
      t.intk.corrupt.contains j.track = true ∧
      t.comp.wrote = s.comp.wrote) ∧
  (∀ (s : State) (e : Nat) (j : DecJob) (f : FrameSt) (h : SeqHdr) (p : Picture) (uses : List PicFeature),
      e < 4 → s.nextJob e = some j → (j.late || s.timeLate j.time) = false → (s.intk.frames.find? (fun x => x.seq = j.frame && !x.closed) = some f) → s.frameSeq f = some h → uses.any (excluded h.codec) = false → pictureWrong h j p = false → (j.track ∈ s.intk.corrupt → p.random = true) → j.regions.length = 1 →
      ∃ t, exec (.pictureDecoded e (.ok p uses)) s = .next t ∧
      t.intk.jobs = s.intk.jobs.erase j ∧
      t.get R.TDEC_PICS e = (s.get R.TDEC_PICS e + 1) % 2 ^ R.TDEC_PICS.width ∧
      (if regionBadFor h (h.tracks.getD j.track ⟨0, 0, 1, 255, 255⟩) (s.frameTable f) (j.regions.getD 0 ⟨0, 0, 0, 0, 0, false, 0, 0, false⟩) = true then
      t.get R.INTK_CONCEAL 12 = min (s.get R.INTK_CONCEAL 12 + 1) (2 ^ R.INTK_CONCEAL.width - 1) ∧ t.comp.wrote = s.comp.wrote
      else t.comp.wrote = (s.writeRegion h p f.seq (j.unit * 16384) (j.regions.getD 0 ⟨0, 0, 0, 0, 0, false, 0, 0, false⟩)).comp.wrote) ∧
      (t.intk.frames = s.intk.frames.map (fun x => if x.seq = j.frame then { x with atlasDone := x.atlasDone + 1 } else x)) ∧
      t.intk.corrupt = s.intk.corrupt.filter (· ≠ j.track)) ∧
  (∀ (s : State) (e : Nat) (j : DecJob) (r : PicResult),
      e < 4 → s.nextJob e = some j → (j.late || s.timeLate j.time) = true →
      ∃ t, exec (.pictureDecoded e r) s = .next t ∧
      t.intk.jobs = s.intk.jobs.erase j ∧
      t.get R.TDEC_LATE e = min (s.get R.TDEC_LATE e + 1) (2 ^ R.TDEC_LATE.width - 1) ∧
      (t.word R.TDEC_IRQ_STATUS.base).getLsbD (4 + e) = true ∧
      t.comp.wrote = s.comp.wrote) ∧
  (∀ (s : State) (f : Nat) (x : FrameSt),
      (s.intk.frames.find? (fun g => g.seq = f) = some x) → x.closed = false →
      ∃ t, exec (.decodeDeadline f) s = .next t ∧
      t.get R.INTK_CONCEAL 0 = min (s.get R.INTK_CONCEAL 0 + (x.atlases - x.atlasDone)) (2 ^ R.INTK_CONCEAL.width - 1) ∧
      t.get R.INTK_CONCEAL 2 = min (s.get R.INTK_CONCEAL 2 + (x.masks - x.maskDone)) (2 ^ R.INTK_CONCEAL.width - 1) ∧
      (t.get R.INTK_CONCEAL 3 = min (s.get R.INTK_CONCEAL 3 + if x.resid && x.residSet.isNone then 1 else 0) (2 ^ R.INTK_CONCEAL.width - 1)) ∧
      (t.intk.frames = s.intk.frames.map (fun g => if g.seq = f then { g with closed := true } else g)) ∧
      (t.intk.jobs = s.intk.jobs.map (fun j => if j.frame = f then { j with late := true } else j)) ∧
      t.intk.closed.contains f = true) ∧
  (∀ (s : State) (d : DpPicture),
      s.intk.src = 2 → s.flag R.DPRX_CTRL_EN = true → dpFits d = true → s.intk.dpTiming = some [d.pic.width, d.pic.height, d.pic.bits, d.rateNum, d.rateDen, Word.ofBool d.ycc, dpTransfer d] → s.intk.refused = false →
      ∃ t, exec (.dpPicture d) s = .next t ∧
      t.intk.dpSeq = (s.intk.dpSeq + 1) % 2 ^ 32 ∧
      (∀ x ∈ t.intk.frames, x.seq = t.intk.dpSeq → x.table = some [s.dpEntry d.pic.width d.pic.height] ∧ x.time = (s.now : Int) ∨ x ∈ s.intk.frames) ∧
      t.intk.jobs = s.intk.jobs) ∧
  (∀ (s : State) (d : DpPicture),
      s.intk.src = 2 → s.flag R.DPRX_CTRL_EN = true → dpFits d = false →
      ∃ t, exec (.dpPicture d) s = .next t ∧
      t = s.bump R.DPRX_ERR_UNSUPP) ∧
  (∀ (s : State) (d : DpPicture), (s.intk.src ≠ 2 ∨ s.flag R.DPRX_CTRL_EN = false) → ∃ t, exec (.dpPicture d) s = .next t ∧
      t = s) ∧
  (∀ (s : State) (w h mhz bits enc curve : Nat) (limited : Bool),
      
      ∃ t, exec (.dpTimingChange w h mhz bits enc curve limited) s = .next t ∧
      t.get R.DPRX_SIZE_W = w % 2 ^ R.DPRX_SIZE_W.width ∧
      t.get R.DPRX_SIZE_H = h % 2 ^ R.DPRX_SIZE_H.width ∧
      t.get R.DPRX_FMT_RATE_MHZ = mhz % 2 ^ R.DPRX_FMT_RATE_MHZ.width ∧
      (t.word R.DPRX_IRQ_STATUS.base).getLsbD 1 = true ∧
      t.intk.dpTiming = none) ∧
  (∀ (s : State), ∃ t, exec (.dpLinkLoss) s = .next t ∧
      t.flag R.DPRX_STAT_VIDEO = false ∧
      (t.word R.DPRX_IRQ_STATUS.base).getLsbD 0 = true ∧
      t.intk.frames = s.intk.frames ∧
      (s.intk.src = 2 → t.intk.mark.isSome = true))

/-- A HEAD below 2^SIZE is taken, any other leaves HEAD with ERR 0x24; START, RESTART and STOP act as on every ring. A free enabled engine takes the module's own waiting job of the highest class 1 to 3, unless a job of class 4 or 5 waits and the engine has made seven such starts in a row; else the job the ring offers: if it passes the checks it runs, else its completion words say ERROR with the code of the first failing check; a base or descriptor outside every region halts the ring with 0x17; else a job of class 5. A job's end frees its engine and advances its counters, a finishing compression without CONT writes its encoding and COMPLETE; a keyed ABORT ends it with 0x3B, and a wrong key acts on nothing.

Each clause concludes that exec answers a next state. Commands it says so of: lzcHeadWrite, lzcRingStart, lzcRingRestart, lzcRingStop, lzcJobTake, lzcJobEnd, lzcAbort. -/
def Obligations.CodecRingTakesAndEndsJobs : Prop :=
  (∀ (s : State) (r : Req) (v : Nat), v < 4096 → v < s.lzcEntries → ∃ t, exec (.lzcHeadWrite r v) s = .next t ∧
      t = s.put R.LZC_RING_HEAD v ∧
      t.get R.LZC_RING_HEAD = v) ∧
  (∀ (s : State) (r : Req) (v : Nat), v < 4096 → s.lzcEntries ≤ v → ∃ t, exec (.lzcHeadWrite r v) s = .next t ∧
      t.get R.LZC_RING_HEAD = s.get R.LZC_RING_HEAD ∧
      t.get R.LZC_RING_STAT_ERR = 0x24) ∧
  (∀ (s : State) (r : Req), ∃ t, exec (.lzcRingStart r) s = .next t ∧
      t.flag R.LZC_RING_STAT_RUNNING = (s.flag R.LZC_RING_STAT_RUNNING || !s.flag R.LZC_RING_STAT_HALTED) ∧
      t.lzc = s.lzc) ∧
  (∀ (s : State) (r : Req), ∃ t, exec (.lzcRingRestart r) s = .next t ∧
      t.flag R.LZC_RING_STAT_HALTED = false ∧
      t.get R.LZC_RING_STAT_ERR = 0 ∧
      t.flag R.LZC_RING_STAT_RUNNING = (s.flag R.LZC_RING_STAT_RUNNING || s.flag R.LZC_RING_STAT_HALTED)) ∧
  (∀ (s : State) (r : Req), ∃ t, exec (.lzcRingStop r) s = .next t ∧
      t.flag R.LZC_RING_STAT_RUNNING = false ∧
      t.lzc = s.lzc) ∧
  (∀ (s : State) (e i : Nat) (d : List Byte),
      e < 2 → (s.get R.LZC_CTRL).testBit e = true → (s.lzc.jobs.all (fun j => j.engine ≠ e) = true) → (s.lzc.queue.any (fun q => decide (1 ≤ q.cls ∧ q.cls ≤ 3)) = false ∨ 7 ≤ s.lzc.run.getD e 0) → s.lzcOffer = some (i, some d) → s.jobCheck d = 0 →
      ∃ t, exec (.lzcJobTake e) s = .next t ∧
      t.lzc.jobs = s.lzc.jobs ++ [⟨e, 4, i, d, s.lzcAddr i, none⟩] ∧
      t.flag R.LZC_ENG_STAT_BUSY e = true ∧
      t.get R.LZC_ENG_STAT_CLASS e = 4 ∧
      t.lzc.queue = s.lzc.queue ∧
      t.lzc.run = s.lzc.run.set e 0 ∧
      t.dram = s.dram ∧
      (s.lzc.skipped.contains i = false → i < s.lzcEntries → t.get R.LZC_RING_TAIL = (i + 1) % s.lzcEntries)) ∧
  (∀ (s : State) (e i : Nat) (d : List Byte),
      e < 2 → (s.get R.LZC_CTRL).testBit e = true → (s.lzc.jobs.all (fun j => j.engine ≠ e) = true) → (s.lzc.queue.any (fun q => decide (1 ≤ q.cls ∧ q.cls ≤ 3)) = false ∨ 7 ≤ s.lzc.run.getD e 0) → s.lzcOffer = some (i, some d) → s.jobCheck d ≠ 0 →
      ∃ t, exec (.lzcJobTake e) s = .next t ∧
      t.readBytes (s.lzcAddr i + 0x30) 2 = [3, BitVec.ofNat 8 (s.jobCheck d)] ∧
      t.get R.LZC_LAST_ERR_ERR = s.jobCheck d % 2 ^ R.LZC_LAST_ERR_ERR.width ∧
      t.lzc.jobs = s.lzc.jobs ∧
      (t.word R.LZC_IRQ_STATUS.base).getLsbD 1 = true) ∧
  (∀ (s : State) (e i : Nat),
      e < 2 → (s.get R.LZC_CTRL).testBit e = true → (s.lzc.jobs.all (fun j => j.engine ≠ e) = true) → (s.lzc.queue.any (fun q => decide (1 ≤ q.cls ∧ q.cls ≤ 3)) = false ∨ 7 ≤ s.lzc.run.getD e 0) → s.lzcOffer = some (i, none) →
      ∃ t, exec (.lzcJobTake e) s = .next t ∧
      t.get R.LZC_RING_STAT_ERR = 0x17 ∧
      t.flag R.LZC_RING_STAT_HALTED = true ∧
      t.flag R.LZC_RING_STAT_RUNNING = false ∧
      t.get R.LZC_RING_TAIL = s.get R.LZC_RING_TAIL ∧
      (t.word R.LZC_IRQ_STATUS.base).getLsbD 2 = true) ∧
  (∀ (s : State) (e : Nat) (q : InnerJob),
      e < 2 → (s.get R.LZC_CTRL).testBit e = true → (s.lzc.jobs.all (fun j => j.engine ≠ e) = true) → ([1, 2, 3].findSome? (fun c => s.lzc.queue.find? (fun q => q.cls = c)) = some q) → ((s.lzcOffer.isSome || s.lzc.queue.any (fun q => q.cls = 5)) = false ∨ s.lzc.run.getD e 0 < 7) →
      ∃ t, exec (.lzcJobTake e) s = .next t ∧
      t.lzc.jobs = s.lzc.jobs ++ [⟨e, q.cls, 0, [], 0, some q⟩] ∧
      t.lzc.queue = s.lzc.queue.erase q ∧
      t.flag R.LZC_ENG_STAT_BUSY e = true ∧
      t.get R.LZC_ENG_STAT_CLASS e = q.cls % 2 ^ R.LZC_ENG_STAT_CLASS.width ∧
      t.get R.LZC_RING_TAIL = s.get R.LZC_RING_TAIL ∧
      (t.lzc.run = s.lzc.run.set e (if s.lzcOffer.isSome || s.lzc.queue.any (fun q => q.cls = 5) then s.lzc.run.getD e 0 + 1 else 0))) ∧
  (∀ (s : State) (e : Nat) (q : InnerJob),
      e < 2 → (s.get R.LZC_CTRL).testBit e = true → (s.lzc.jobs.all (fun j => j.engine ≠ e) = true) → (s.lzc.queue.any (fun q => decide (1 ≤ q.cls ∧ q.cls ≤ 3)) = false ∨ 7 ≤ s.lzc.run.getD e 0) → s.lzcOffer = none → (s.lzc.queue.find? (fun q => q.cls = 5) = some q) →
      ∃ t, exec (.lzcJobTake e) s = .next t ∧
      t.lzc.jobs = s.lzc.jobs ++ [⟨e, 5, 0, [], 0, some q⟩] ∧
      t.lzc.queue = s.lzc.queue.erase q ∧
      t.flag R.LZC_ENG_STAT_BUSY e = true) ∧
  (∀ (s : State) (e : Nat) (j : LzcJob),
      e < 2 → (s.lzc.jobs.find? (fun x => x.engine = e) = some j) →
      ∃ t, exec (.lzcJobEnd e) s = .next t ∧
      (t.lzc.jobs = s.lzc.jobs.filter (fun x => x.engine ≠ e)) ∧
      t.get R.LZC_ENG_STAT e = 0 ∧
      t.get R.LZC_ENG_JOBS_JOBS e = min (s.get R.LZC_ENG_JOBS_JOBS e + 1) (2 ^ R.LZC_ENG_JOBS_JOBS.width - 1) ∧
      (t.get R.LZC_DONE_COUNT = if j.inner.isNone then min (s.get R.LZC_DONE_COUNT + 1) (2 ^ R.LZC_DONE_COUNT.width - 1) else s.get R.LZC_DONE_COUNT) ∧
      t.lzc.queue = s.lzc.queue) ∧
  (∀ (s : State) (e : Nat) (j : LzcJob) (q : InnerJob),
      e < 2 → (s.lzc.jobs.find? (fun x => x.engine = e) = some j) → j.inner = some q →
      ∃ t, exec (.lzcJobEnd e) s = .next t ∧
      t.get R.LZC_ENG_IN e = (s.get R.LZC_ENG_IN e + q.used) % 2 ^ R.LZC_ENG_IN.width ∧
      t.get R.LZC_ENG_OUT e = (s.get R.LZC_ENG_OUT e + q.written) % 2 ^ R.LZC_ENG_OUT.width ∧
      (q.err ≠ 0 → t.get R.LZC_LAST_ERR_ERR = q.err % 2 ^ R.LZC_LAST_ERR_ERR.width ∧ (t.word R.LZC_IRQ_STATUS.base).getLsbD (if j.cls = 4 then 1 else 3) = true) ∧
      t.dram = s.dram) ∧
  (∀ (s : State) (e : Nat) (j : LzcJob),
      let out : List Byte := encodeStream (jobFormat j.desc) (jobLevel j.desc) (jobWindow j.desc) (some (jobSrcLen j.desc)) [(s.readBytes (jobSrc j.desc) (jobSrcLen j.desc), 3)]
      e < 2 → (s.lzc.jobs.find? (fun x => x.engine = e) = some j) → j.inner = none → jobOp j.desc = 0 → jobFlush j.desc = 3 → (jobFlags j.desc).testBit 1 = false → out.length ≤ jobDstLen j.desc →
      ∃ t, exec (.lzcJobEnd e) s = .next t ∧
      t.readBytes (j.addr + 0x30) 2 = [0, 0] ∧
      t.get R.LZC_ENG_IN e = (s.get R.LZC_ENG_IN e + jobSrcLen j.desc) % 2 ^ R.LZC_ENG_IN.width ∧
      t.get R.LZC_ENG_OUT e = (s.get R.LZC_ENG_OUT e + out.length) % 2 ^ R.LZC_ENG_OUT.width ∧
      t.dram = ((s.writeBytes (jobDst j.desc) out).writeBytes (j.addr + 0x30) ([0, 0, 0, 0] ++ Word.toLe 4 (jobSrcLen j.desc) ++ Word.toLe 4 out.length ++ [0, 0, 0, 0])).dram) ∧
  (∀ (s : State) (e : Nat) (j : LzcJob) (out : List Byte) (stop : Nat),
      e < 2 → (s.lzc.jobs.find? (fun x => x.engine = e) = some j) → j.inner = none → jobOp j.desc = 1 → (jobFlags j.desc).testBit 1 = false → decodeStream (jobFormat j.desc) (jobWindow j.desc) (decide (jobFormat j.desc = 3) && (jobFlags j.desc).testBit 2) (s.readBytes (jobSrc j.desc) (jobSrcLen j.desc)) = (out, stop, none) → out.length ≤ jobDstLen j.desc →
      ∃ t, exec (.lzcJobEnd e) s = .next t ∧
      t.readBytes (j.addr + 0x30) 2 = [0, 0] ∧
      t.get R.LZC_ENG_IN e = (s.get R.LZC_ENG_IN e + stop) % 2 ^ R.LZC_ENG_IN.width ∧
      t.get R.LZC_ENG_OUT e = (s.get R.LZC_ENG_OUT e + out.length) % 2 ^ R.LZC_ENG_OUT.width ∧
      t.dram = ((s.writeBytes (jobDst j.desc) out).writeBytes (j.addr + 0x30) ([0, 0, 0, 0] ++ Word.toLe 4 stop ++ Word.toLe 4 out.length ++ [0, 0, 0, 0])).dram) ∧
  (∀ (s : State) (r : Req) (e : Nat) (j : LzcJob),
      e < 2 → (s.lzc.jobs.find? (fun x => x.engine = e) = some j) →
      ∃ t, exec (.lzcAbort r e 0x0C0D) s = .next t ∧
      (t.lzc.jobs = s.lzc.jobs.filter (fun x => x.engine ≠ e)) ∧
      t.get R.LZC_LAST_ERR_ERR = 0x3B ∧
      t.get R.LZC_LAST_ERR_ENGINE = e ∧
      t.get R.LZC_ENG_STAT e = 0) ∧
  (∀ (s : State) (r : Req) (e key : Nat), key % 65536 ≠ 0x0C0D → ∃ t, exec (.lzcAbort r e key) s = .next t ∧
      t.lzc = s.lzc ∧
      t.dram = s.dram)

/-- A HEAD below 2^SIZE is taken, any other leaves HEAD with ERR 0x24; START, RESTART and STOP act as on every ring. With nothing in flight, no cue and no held write before it, a NOP, COPY, FILL or DRAW at TAIL is taken: TAIL advances; a command that fails a check has ERROR and the code of the first in its completion words, one that passes is in flight with its pixels written. A FILL of one pixel leaves COLOR in the destination's format there, a COPY the source pixel. A descriptor that waits on a watermark not yet fired sets WAITING. The end, and a keyed ABORT with 0x55, write the completion words.

Each clause concludes that exec answers a next state. Commands it says so of: bltHeadWrite, bltRingStart, bltRingRestart, bltRingStop, nop, fill, copy, draw, bltCommandDone, bltAbort, cueDraw, wmArm. -/
def Obligations.BlitterCommandsFollowTheRing : Prop :=
  (∀ (s : State) (r : Req) (v : Nat), v < 4096 → v < s.bltEntries → ∃ t, exec (.bltHeadWrite r v) s = .next t ∧
      t.get R.BLT_RING_HEAD = v ∧
      t.get R.BLT_RING_TAIL = s.get R.BLT_RING_TAIL) ∧
  (∀ (s : State) (r : Req) (v : Nat), v < 4096 → s.bltEntries ≤ v → ∃ t, exec (.bltHeadWrite r v) s = .next t ∧
      t.get R.BLT_RING_HEAD = s.get R.BLT_RING_HEAD ∧
      t.get R.BLT_RING_STAT_ERR = 0x24) ∧
  (∀ (s : State) (r : Req), ∃ t, exec (.bltRingStart r) s = .next t ∧
      t.flag R.BLT_RING_STAT_RUNNING = (s.flag R.BLT_RING_STAT_RUNNING || !s.flag R.BLT_RING_STAT_HALTED) ∧
      t.blt = s.blt) ∧
  (∀ (s : State) (r : Req), ∃ t, exec (.bltRingRestart r) s = .next t ∧
      t.flag R.BLT_RING_STAT_HALTED = false ∧
      t.get R.BLT_RING_STAT_ERR = 0 ∧
      t.flag R.BLT_RING_STAT_RUNNING = (s.flag R.BLT_RING_STAT_RUNNING || s.flag R.BLT_RING_STAT_HALTED)) ∧
  (∀ (s : State) (r : Req), ∃ t, exec (.bltRingStop r) s = .next t ∧
      t.flag R.BLT_RING_STAT_RUNNING = false ∧
      t.blt = s.blt) ∧
  (∀ (s : State) (d : List Byte),
      s.bltWaiting = true → s.blt.cmd = none → s.blt.cues = [] → s.comp.heldBlt = [] → s.regionOk .blt false s.bltAddr 128 = true → d = s.readBytes s.bltAddr 112 → bltOp d = 0 → (bltWait d = false ∨ s.blt.fired.contains (bltWm d) = true) →
      ∃ t, exec (.nop) s = .next t ∧
      t.get R.BLT_RING_TAIL = (s.get R.BLT_RING_TAIL + 1) % s.bltEntries ∧
      (if bltReserved d then t.readBytes (s.bltAddr + 0x70) 2 = [3, 0x50] ∧ t.blt.cmd = none ∧ t.get R.BLT_LAST_ERR_ERR = 0x50
      else t.dram = s.dram ∧ t.blt.cmd = some ⟨s.get R.BLT_RING_TAIL, s.bltAddr, bltFlags d, 0, formatBytes (bltDstFmt d), none⟩)) ∧
  (∀ (s : State) (d : List Byte),
      s.bltWaiting = true → s.blt.cmd = none → s.blt.cues = [] → s.comp.heldBlt = [] → s.regionOk .blt false s.bltAddr 128 = true → d = s.readBytes s.bltAddr 112 → bltOp d = 2 → (bltWait d = false ∨ s.blt.fired.contains (bltWm d) = true) →
      ∃ t, exec (.fill) s = .next t ∧
      t.get R.BLT_RING_TAIL = (s.get R.BLT_RING_TAIL + 1) % s.bltEntries ∧
      (if s.bltCheck d = 0 then t.dram = (s.bltWrite (s.bltPixels d)).dram ∧ t.blt.cmd.isSome = true
      else t.readBytes (s.bltAddr + 0x70) 2 = [3, BitVec.ofNat 8 (s.bltCheck d)] ∧ t.blt.cmd = none ∧ (t.word R.BLT_IRQ_STATUS.base).getLsbD 1 = true)) ∧
  (∀ (s : State) (d : List Byte),
      s.bltWaiting = true → s.blt.cmd = none → s.blt.cues = [] → s.comp.heldBlt = [] → s.regionOk .blt false s.bltAddr 128 = true → d = s.readBytes s.bltAddr 112 → bltOp d = 2 → (bltWait d = false ∨ s.blt.fired.contains (bltWm d) = true) → s.bltCheck d = 0 → bltW d = 1 → bltH d = 1 → bltClip d (bltDstX d) (bltDstY d) = true → s.buffersOf ((bltDst d).at_ (bltDstX d).toNat (bltDstY d).toNat) (formatBytes (bltDstFmt d)) = [] →
      ∃ t, exec (.fill) s = .next t ∧
      t.readBytes ((bltDst d).at_ (bltDstX d).toNat (bltDstY d).toNat) (formatBytes (bltDstFmt d)) = Word.toLe (formatBytes (bltDstFmt d)) (writePixel (bltDstFmt d) (bltColor d)) ∧
      t.blt.cmd.map (·.pixels) = some 1) ∧
  (∀ (s : State) (d : List Byte),
      s.bltWaiting = true → s.blt.cmd = none → s.blt.cues = [] → s.comp.heldBlt = [] → s.regionOk .blt false s.bltAddr 128 = true → d = s.readBytes s.bltAddr 112 → bltOp d = 1 → (bltWait d = false ∨ s.blt.fired.contains (bltWm d) = true) →
      ∃ t, exec (.copy) s = .next t ∧
      t.get R.BLT_RING_TAIL = (s.get R.BLT_RING_TAIL + 1) % s.bltEntries ∧
      (if s.bltCheck d = 0 then t.dram = (s.bltWrite (s.bltPixels d)).dram ∧ t.blt.cmd.isSome = true
      else t.readBytes (s.bltAddr + 0x70) 2 = [3, BitVec.ofNat 8 (s.bltCheck d)] ∧ t.blt.cmd = none ∧ (t.word R.BLT_IRQ_STATUS.base).getLsbD 1 = true)) ∧
  (∀ (s : State) (d : List Byte),
      s.bltWaiting = true → s.blt.cmd = none → s.blt.cues = [] → s.comp.heldBlt = [] → s.regionOk .blt false s.bltAddr 128 = true → d = s.readBytes s.bltAddr 112 → bltOp d = 3 → (bltWait d = false ∨ s.blt.fired.contains (bltWm d) = true) →
      ∃ t, exec (.draw) s = .next t ∧
      t.get R.BLT_RING_TAIL = (s.get R.BLT_RING_TAIL + 1) % s.bltEntries ∧
      (if s.bltCheck d = 0 then t.dram = (s.bltWrite (s.bltPixels d)).dram ∧ t.blt.cmd.isSome = true
      else t.readBytes (s.bltAddr + 0x70) 2 = [3, BitVec.ofNat 8 (s.bltCheck d)] ∧ t.blt.cmd = none ∧ (t.word R.BLT_IRQ_STATUS.base).getLsbD 1 = true)) ∧
  (∀ (s : State) (d : List Byte),
      s.bltWaiting = true → s.blt.cmd = none → s.blt.cues = [] → s.comp.heldBlt = [] → s.regionOk .blt false s.bltAddr 128 = true → d = s.readBytes s.bltAddr 112 → bltOp d = 3 → bltWait d = true → s.blt.fired.contains (bltWm d) = false →
      ∃ t, exec (.draw) s = .next t ∧
      t = s.put R.BLT_RING_STAT_WAITING 1) ∧
  (∀ (s : State) (c : BltCmd), s.blt.cmd = some c → s.comp.heldBlt = [] → ∃ t, exec (.bltCommandDone) s = .next t ∧
      t.blt.cmd = none ∧
      t.get R.BLT_DONE_COUNT = min (s.get R.BLT_DONE_COUNT + 1) (2 ^ R.BLT_DONE_COUNT.width - 1) ∧
      (c.cue = none → t.readBytes (c.addr + 0x70) 8 = [0, 0, 0, 0] ++ Word.toLe 4 c.pixels) ∧
      (c.flags.testBit 0 = true → (t.word R.BLT_IRQ_STATUS.base).getLsbD 0 = true)) ∧
  (∀ (s : State) (r : Req) (c : BltCmd), s.blt.cmd = some c → s.comp.heldBlt = [] → ∃ t, exec (.bltAbort r 0x0B17) s = .next t ∧
      t.blt.cmd = none ∧
      t.get R.BLT_LAST_ERR_ERR = 0x55 ∧
      (c.cue = none → t.readBytes (c.addr + 0x70) 8 = [3, 0x55, 0, 0] ++ Word.toLe 4 c.pixels)) ∧
  (∀ (s : State) (c : OvlyCue) (rest : List OvlyCue),
      s.blt.cues = c :: rest → s.blt.cmd = none → s.comp.heldBlt = [] → c.ovly < 4 → (s.flag { R.BLT_CUE_CTRL with lsb := c.ovly, width := 1 } = false ∨ (c.fmt ≠ 0 ∧ c.fmt ≠ 5)) →
      ∃ t, exec (.cueDraw) s = .next t ∧
      t.blt.cues = rest ∧
      t.blt.cmd = none ∧
      t.get R.BLT_CUE_REJECTED = min (s.get R.BLT_CUE_REJECTED + 1) (2 ^ R.BLT_CUE_REJECTED.width - 1) ∧
      t.dram = s.dram) ∧
  (∀ (s : State) (c : OvlyCue) (rest : List OvlyCue),
      s.blt.cues = c :: rest → s.blt.cmd = none → s.comp.heldBlt = [] → c.ovly < 4 → s.flag { R.BLT_CUE_CTRL with lsb := c.ovly, width := 1 } = true → (c.fmt = 0 ∨ c.fmt = 5) → c.w ≤ 32768 → c.h ≤ 32768 → s.flag R.COMP_OVLY_CFG_BACK_VALID c.ovly = false → s.registered (s.get R.COMP_OVLY_CFG_FRONT c.ovly) = true → c.w * c.h * formatBytes c.fmt ≤ c.pixels.length →
      ∃ t, exec (.cueDraw) s = .next t ∧
      t.blt.cues = rest ∧
      t.blt.cmd.map (·.cue) = some (some (c.frame, c.ovly, false)) ∧
      t.dram = (s.bltWrite (cuePixels c (s.bufSurface (s.get R.COMP_OVLY_CFG_FRONT c.ovly)))).dram) ∧
  (∀ (s : State) (r : Req) (w data : Nat), w < 4 → ∃ t, exec (.wmArm r w data) s = .next t ∧
      t.get R.BLT_WM_CFG_LINE w = data % 2 ^ R.BLT_WM_CFG_LINE.width ∧
      t.flag R.BLT_WM_CFG_ARM w = decide (data / 2 ^ 31 % 2 = 1) ∧
      t.blt = s.blt)

/-- The lowest valid panel reading becomes the band temperature with SRC 0; the band follows, downwards only below LOW − 2.0 °C. After 16 subframes without one the coldplate reading is used with SRC 1. Each lens step drives every segment once, from the module that holds the drive. A rectangle outside the panel, or outside FLAT PARTIAL, is void, the 17th sets RECT_FULL, else it is queued. In blanking with the rails ON the crack loop whose turn it is is measured; in STANDBY the codes follow the voltages. Under method 0 a window's mean error above THRESH moves its region's code one step. PATTERN takes SEL and LEVEL. A power-fail warning drops PWR_FAIL_N, abandons rectangles and begins the power-off. What makes a submission void is partly this model's choice (log entry 38).

Each clause concludes that exec answers a next state. Commands it says so of: panelTempReading, panelTempTimeout, lensStep, rectSubmit, blankingStart, vcomErrorReport, patternSelect, powerFailWarning. -/
def Obligations.PanelTemperatureRectanglesAndVcom : Prop :=
  (∀ (s : State) (l : List (Nat × Nat × Int)) (a : Int) (rest : List Int),
      ((l.filter (fun q => decide (q.1 < (match s.pseq.desc with | some d => d.sensors | none => 0)) && !(s.panelSensors l).pseq.broken.testBit q.1)).map (fun q => q.2.2) = a :: rest) → -32768 ≤ rest.foldl min a → rest.foldl min a < 32768 →
      ∃ t, exec (.panelTempReading l) s = .next t ∧
      t.getI R.PSEQ_TEMP_TEMP = rest.foldl min a ∧
      t.get R.PSEQ_TEMP_SRC = 0 ∧
      t.pseq.noReading = 0 ∧
      (t.pseq.band = if s.pseq.band < s.bandFor (rest.foldl min a) then s.bandFor (rest.foldl min a)
      else if s.bandFor (rest.foldl min a) < s.pseq.band ∧ rest.foldl min a < s.getI R.PSEQ_BAND_LOW s.pseq.band - 20 then s.bandFor (rest.foldl min a) else s.pseq.band) ∧
      (t.pseq.band ≠ s.pseq.band → t.get R.PSEQ_EVENTS_BAND_CHANGES = min (s.get R.PSEQ_EVENTS_BAND_CHANGES + 1) (2 ^ R.PSEQ_EVENTS_BAND_CHANGES.width - 1) ∧ (t.word R.PSEQ_IRQ_STATUS.base).getLsbD 0 = true)) ∧
  (∀ (s : State), 16 ≤ s.pseq.noReading → s.flag R.THM_SENS_BROKEN 64 = false → ∃ t, exec (.panelTempTimeout) s = .next t ∧
      t.get R.PSEQ_TEMP_SRC = 1 ∧
      t.getI R.PSEQ_TEMP_TEMP = s.getI R.THM_SENS_READING 64) ∧
  (∀ (s : State), s.pseq.noReading < 16 → ∃ t, exec (.panelTempTimeout) s = .next t ∧
      t = s) ∧
  (∀ (s : State), s.pseq.lensStep < 32 → ∃ t, exec (.lensStep) s = .next t ∧
      t.pseq = { s.pseq with lensStep := s.pseq.lensStep + 1 } ∧
      t.regs = s.regs ∧
      (t.out = (if s.flag R.PAIR_STAT_DRIVE then ((List.range 2).flatMap (fun h => (List.range s.bandCount).map (fun k => Emit.lens h k (s.segmentDrive k s.pseq.lensStep).1 (s.segmentDrive k s.pseq.lensStep).2))) else []).reverse ++ s.out) ∧
      (t.out.length = s.out.length + if s.flag R.PAIR_STAT_DRIVE then 2 * s.bandCount else 0)) ∧
  (∀ (s : State) (r : Req) (data : Nat),
      (s.isMirror = false ∨ r = .partner) → s.isActive = false → s.get R.PSEQ_RECT_WH_W ≠ 0 → s.get R.PSEQ_RECT_WH_H ≠ 0 → s.get R.PSEQ_RECT_XY_X + s.get R.PSEQ_RECT_WH_W ≤ s.panelW → s.get R.PSEQ_RECT_XY_Y + s.get R.PSEQ_RECT_WH_H ≤ s.panelH → mLayout (s.get R.VIEW_MODE_EFF_MODE) = 2 → s.flag R.PSEQ_CTRL_PARTIAL = true →
      ∃ t, exec (.rectSubmit r data) s = .next t ∧
      (if s.pseq.queued.length + s.pseq.flights.length < 16 then
      t.pseq.queued = s.pseq.queued ++ [⟨3 * s.get R.PSEQ_RECT_XY_X, s.get R.PSEQ_RECT_XY_Y, 3 * s.get R.PSEQ_RECT_WH_W, s.get R.PSEQ_RECT_WH_H, Word.clamp 1 4 (data % 8)⟩]
      else t.pseq = s.pseq ∧ (t.word R.PSEQ_IRQ_STATUS.base).getLsbD 6 = true)) ∧
  (∀ (s : State) (r : Req) (data : Nat),
      (s.isMirror = false ∨ r = .partner) → s.isActive = false → (s.panelW < s.get R.PSEQ_RECT_XY_X + s.get R.PSEQ_RECT_WH_W ∨ mLayout (s.get R.VIEW_MODE_EFF_MODE) ≠ 2 ∨ s.flag R.PSEQ_CTRL_PARTIAL = false) →
      ∃ t, exec (.rectSubmit r data) s = .next t ∧
      t = s.bump R.PSEQ_RECT_VOID) ∧
  (∀ (s : State) (crack : CrackRead) (vref : Nat) (volts : List Nat),
      s.get R.RAIL_STAT_STATE = 2 → s.rail.crackNext < 2 → s.get R.PSEQ_CTRL_VCOM_METHOD ≠ 1 →
      ∃ t, exec (.blankingStart crack vref volts) s = .next t ∧
      t.get R.RAIL_CRACK_MEAS_OHM s.rail.crackNext = min crack.ohm 65535 ∧
      t.get R.RAIL_CRACK_STAT_CLASS s.rail.crackNext = crackClass (s.get R.RAIL_CRACK_MEAS_BASE s.rail.crackNext) (s.get R.RAIL_CRACK_CTRL_HIGH_PCT) crack ∧
      t.rail.crackNext = 1 - s.rail.crackNext) ∧
  (∀ (s : State) (crack : CrackRead) (vref : Nat) (volts : List Nat),
      s.get R.RAIL_STAT_STATE = 3 → volts.length = 16 →
      ∃ t, exec (.blankingStart crack vref volts) s = .next t ∧
      (∀ r ∈ s.vcomTurn (s.blankingNs / 8000), t.get R.PSEQ_VCOM_CODE r = min 1023 ((volts.getD r 0 - 4000) / 5)) ∧
      t.pseq = s.pseq) ∧
  (∀ (s : State) (crack : CrackRead) (vref : Nat) (volts : List Nat),
      s.get R.RAIL_STAT_STATE ≠ 2 → s.get R.RAIL_STAT_STATE ≠ 3 →
      ∃ t, exec (.blankingStart crack vref volts) s = .next t ∧
      t = s) ∧
  (∀ (s : State) (r : Nat) (e : Int),
      r < 16 → s.get R.PSEQ_CTRL_VCOM_METHOD = 0 → s.get R.RAIL_STAT_STATE = 2 → s.vcomWin r = ⟨0, 0, 0, false, true⟩ → s.get R.PSEQ_VCOM_CTRL_WINDOW ≤ 1 → -512 ≤ e → e < 512 →
      ∃ t, exec (.vcomErrorReport [⟨r, e⟩]) s = .next t ∧
      t.getI R.PSEQ_VCOM_ERR r = e ∧
      (t.get R.PSEQ_VCOM_CODE r = if e.natAbs ≤ s.get R.PSEQ_VCOM_CTRL_THRESH then s.get R.PSEQ_VCOM_CODE r
      else if 0 < e then min 1023 (s.get R.PSEQ_VCOM_CODE r + 1) else s.get R.PSEQ_VCOM_CODE r - 1) ∧
      (s.get R.PSEQ_VCOM_CTRL_THRESH < e.natAbs → (t.flag R.PSEQ_VCOM_AT_LIMIT r = decide (0 < e ∧ s.get R.PSEQ_VCOM_CODE r = 1023 ∨ e < 0 ∧ s.get R.PSEQ_VCOM_CODE r = 0)))) ∧
  (∀ (s : State) (r : Req) (data : Nat), (s.isMirror = false ∨ r = .partner) → ∃ t, exec (.patternSelect r data) s = .next t ∧
      t.get R.PSEQ_PATTERN_SEL = data % 4 ∧
      t.get R.PSEQ_PATTERN_LEVEL = data / 65536 % 4096 ∧
      t.pseq = s.pseq) ∧
  (∀ (s : State), s.pins.pwrFail = false → ∃ t, exec (.powerFailWarning) s = .next t ∧
      t.pins.pwrFail = true ∧
      t.pseq.queued = [] ∧
      t.pseq.flights = [] ∧
      t.pseq.noLaunch = true ∧
      t.teph.saveDue = some 1 ∧
      (t.word R.PSEQ_IRQ_STATUS.base).getLsbD 7 = true ∧
      (s.get R.RAIL_STAT_STATE = 2 → t.get R.RAIL_STAT_STATE = 4)) ∧
  (∀ (s : State), s.pins.pwrFail = true → ∃ t, exec (.powerFailWarning) s = .next t ∧
      t = s)

/-- A group in DETECT that sees termination begins TRAIN at its ceiling, otherwise it rests in SLEEP. TRAIN ends in LOCK once the eyes meet the limits, with the adapted settings unless overridden; LOCK ends in EXCHANGE with bit and block lock, its offer and on the pair link a PAIR_HELLO block on every data lane, and fails where the markers lie further than 2 blocks apart; EXCHANGE ends in ACTIVE, or back in TRAIN at a lower offer without a failure counted. A failed stage counts FALLBACKS and retries one generation lower, or makes the group FAILED at DPL1; a FAILED group returns to DETECT. A lost link sets LOST, advances RETRAINS and trains at its generation.

Each clause concludes that exec answers a next state. Commands it says so of: laneDetectCheck, laneTrainDone, laneTrainTimeout, laneLockDone, laneExchange, laneFailedRetry, laneLinkLost. -/
def Obligations.LaneGroupsBringUpAndFallBack : Prop :=
  (∀ (s : State) (j : Nat),
      j < 27 → s.mayDetect j = true → (s.groupStage j = 0 ∨ s.groupStage j = 1) →
      ∃ t, exec (.laneDetectCheck j true) s = .next t ∧
      t.groupStage j = 2 ∧
      t.get R.LANE_GRP_STAT_GEN (leadLane j) = s.ceiling j ∧
      t.get R.LANE_GRP_STAT_FELL (leadLane j) = 0) ∧
  (∀ (s : State) (j : Nat),
      j < 27 → s.mayDetect j = true → (s.groupStage j = 0 ∨ s.groupStage j = 1) →
      ∃ t, exec (.laneDetectCheck j false) s = .next t ∧
      t.groupStage j = 1 ∧
      t.get R.LANE_GRP_STAT_TX_PWR (leadLane j) = 2) ∧
  (∀ (s : State) (j : Nat) (eyes : List LaneEye),
      j < 27 → s.groupStage j = 2 → s.eyesMet j eyes = true →
      ∃ t, exec (.laneTrainDone j eyes) s = .next t ∧
      t.groupStage j = 3 ∧
      t.get R.LANE_GRP_STAT_GEN (leadLane j) = s.get R.LANE_GRP_STAT_GEN (leadLane j)) ∧
  (∀ (s : State) (j n : Nat) (e : LaneEye),
      j < 27 → s.groupStage j = 2 → s.eyesMet j [e] = true → dataLanes j = [n] → e.lane = n → laneId n / 4096 % 2 = 1 → s.flag R.LANE_EQ_RX_OVR n = false →
      ∃ t, exec (.laneTrainDone j [e]) s = .next t ∧
      t.get R.LANE_EYE_HEIGHT n = e.height % 2 ^ R.LANE_EYE_HEIGHT.width ∧
      t.get R.LANE_EQ_EFF_CTLE n = e.ctle % 2 ^ R.LANE_EQ_EFF_CTLE.width) ∧
  (∀ (s : State) (j : Nat),
      j < 27 → 2 ≤ s.groupStage j → s.groupStage j ≤ 4 → 2 ≤ s.get R.LANE_GRP_STAT_GEN (leadLane j) →
      ∃ t, exec (.laneTrainTimeout j) s = .next t ∧
      t.groupStage j = 2 ∧
      t.get R.LANE_GRP_STAT_GEN (leadLane j) = s.get R.LANE_GRP_STAT_GEN (leadLane j) - 1 ∧
      t.get R.LANE_GRP_COUNT_FALLBACKS (leadLane j) = min (s.get R.LANE_GRP_COUNT_FALLBACKS (leadLane j) + 1) (2 ^ R.LANE_GRP_COUNT_FALLBACKS.width - 1) ∧
      (t.word R.LANE_IRQ_STATUS.base).getLsbD 0 = true) ∧
  (∀ (s : State) (j : Nat),
      j < 27 → 2 ≤ s.groupStage j → s.groupStage j ≤ 4 → s.get R.LANE_GRP_STAT_GEN (leadLane j) < 2 →
      ∃ t, exec (.laneTrainTimeout j) s = .next t ∧
      t.groupStage j = 6 ∧
      (t.get R.LANE_GRP_EVENT (leadLane j)).testBit 2 = true) ∧
  (∀ (s : State) (j : Nat) (times : List (Nat × Nat)),
      j < 27 → s.groupStage j = 3 → deskewOk (txLanes j) times = true → deskewOk (rxLanes j) times = true →
      ∃ t, exec (.laneLockDone j times) s = .next t ∧
      t.groupStage j = 4 ∧
      (∀ n ∈ dataLanes j, t.get R.LANE_STAT_BIT_LOCK n = 1 ∧ t.get R.LANE_STAT_BLOCK_LOCK n = 1) ∧
      t.out = .offer j (s.ceiling j) :: s.out ∧
      (j = 22 → (sendLanes 22).all (fun n => decide ((t.txLane n).sent = (2, (scramble (ctlPayload 0x87 [0x50, s.get R.RST_STRAP_ROLE, s.nv.serial % 256, s.nv.serial / 2 ^ 8 % 256, s.nv.serial / 2 ^ 16 % 256, s.nv.serial / 2 ^ 24 % 256, s.nv.serial / 2 ^ 32 % 256]) (s.txLane n).scr).1) :: (s.txLane n).sent)) = true)) ∧
  (∀ (s : State) (j : Nat) (times : List (Nat × Nat)),
      j < 27 → s.groupStage j = 3 → (deskewOk (txLanes j) times = false ∨ deskewOk (rxLanes j) times = false) →
      ∃ t, exec (.laneLockDone j times) s = .next t ∧
      t.get R.LANE_GRP_COUNT_FALLBACKS (leadLane j) = min (s.get R.LANE_GRP_COUNT_FALLBACKS (leadLane j) + 1) (2 ^ R.LANE_GRP_COUNT_FALLBACKS.width - 1) ∧
      (if 2 ≤ s.get R.LANE_GRP_STAT_GEN (leadLane j) then t.groupStage j = 2 ∧ t.get R.LANE_GRP_STAT_GEN (leadLane j) = s.get R.LANE_GRP_STAT_GEN (leadLane j) - 1
      else t.groupStage j = 6)) ∧
  (∀ (s : State) (j offer : Nat),
      let o : Nat := match (if j < 16 then s.pseq.desc else none) with | some d => d.maxGen | none => offer
      j < 27 → s.groupStage j = 4 → o < s.get R.LANE_GRP_STAT_GEN (leadLane j) → 1 ≤ o →
      ∃ t, exec (.laneExchange j offer) s = .next t ∧
      t.groupStage j = 2 ∧
      t.get R.LANE_GRP_STAT_GEN (leadLane j) = o ∧
      t.get R.LANE_GRP_COUNT_FALLBACKS (leadLane j) = s.get R.LANE_GRP_COUNT_FALLBACKS (leadLane j)) ∧
  (∀ (s : State) (j offer : Nat),
      let o : Nat := match (if j < 16 then s.pseq.desc else none) with | some d => d.maxGen | none => offer
      j < 27 → s.groupStage j = 4 → (s.get R.LANE_GRP_STAT_GEN (leadLane j) ≤ o ∨ o = 0) →
      ∃ t, exec (.laneExchange j offer) s = .next t ∧
      t.groupStage j = 5 ∧
      t.get R.LANE_GRP_STAT_GEN (leadLane j) = s.get R.LANE_GRP_STAT_GEN (leadLane j) ∧
      t.get R.LANE_GRP_STAT_TX_PWR (leadLane j) = 0 ∧
      t.get R.LANE_GRP_STAT_RX_PWR (leadLane j) = 0) ∧
  (∀ (s : State) (j : Nat),
      j < 27 → s.groupStage j = 6 → s.flag R.LANE_GRP_CTRL_EN (leadLane j) = true →
      ∃ t, exec (.laneFailedRetry j) s = .next t ∧
      t.groupStage j = 1 ∧
      t.get R.LANE_GRP_STAT_GEN (leadLane j) = 0) ∧
  (∀ (s : State) (j : Nat), j < 27 → s.groupStage j = 5 → ∃ t, exec (.laneLinkLost j) s = .next t ∧
      t.groupStage j = 2 ∧
      t.get R.LANE_GRP_STAT_GEN (leadLane j) = s.get R.LANE_GRP_STAT_GEN (leadLane j) ∧
      t.get R.LANE_GRP_COUNT_RETRAINS (leadLane j) = min (s.get R.LANE_GRP_COUNT_RETRAINS (leadLane j) + 1) (2 ^ R.LANE_GRP_COUNT_RETRAINS.width - 1) ∧
      (t.get R.LANE_GRP_EVENT (leadLane j)).testBit 0 = true ∧
      (j = 22 → t.pair.unacked = []))

/-- RETRAIN with its key trains an ACTIVE or FAILED group at its ceiling and changes no other; TEST enters TEST from DISABLED or FAILED only, otherwise it is ignored and recorded, and TEST_EXIT leaves it DISABLED. An ACTIVE transmitter's tracking step moves one tap one unit, MAIN keeping the sum 64. LOOP, INJECT.ONE and INJECT.RATE act in TEST only. A block of an invalid sync header or type counts. What a receiver descrambles is what was scrambled. A direction powers down only within DEEPEST and where R402 lets it; a wake brings it to ACTIVE, the transmitter sending its WAKE blocks. That RETRAIN does nothing in DISABLED, DETECT and TEST is deduced (log entry 14).

Each clause concludes that exec answers a next state. Commands it says so of: laneRetrain, laneTest, laneTestExit, eqTrackStep, laneInvalidHeader, laneLoopWrite, injectOne, injectRate, lanePowerDown, laneWake. -/
def Obligations.LaneCommandsTapsAndPowerStates : Prop :=
  (∀ (s : State) (r : Req) (j : Nat), j < 27 → ∃ t, exec (.laneRetrain r 0x1A4E j) s = .next t ∧
      (if s.groupStage j = 5 ∨ s.groupStage j = 6 then t.groupStage j = 2 ∧ t.get R.LANE_GRP_STAT_GEN (leadLane j) = s.ceiling j else t = s)) ∧
  (∀ (s : State) (r : Req) (j : Nat),
      j < 27 → (s.groupStage j = 0 ∨ s.groupStage j = 6) →
      ∃ t, exec (.laneTest r 0x1A4E j) s = .next t ∧
      t.groupStage j = 7) ∧
  (∀ (s : State) (r : Req) (j : Nat),
      j < 27 → s.groupStage j ≠ 0 → s.groupStage j ≠ 6 →
      ∃ t, exec (.laneTest r 0x1A4E j) s = .next t ∧
      t.groupStage j = s.groupStage j ∧
      t.teph.nextId = s.teph.nextId + 1 ∧
      t.lane = s.lane) ∧
  (∀ (s : State) (r : Req) (j key : Nat), j < 27 → key ≠ 0x1A4E → ∃ t, exec (.laneTestExit r key j) s = .next t ∧
      t.groupStage j = s.groupStage j ∧
      t.teph.nextId = s.teph.nextId + 1) ∧
  (∀ (s : State) (r : Req) (j : Nat), j < 27 → s.groupStage j = 7 → ∃ t, exec (.laneTestExit r 0x1A4E j) s = .next t ∧
      t.groupStage j = 0 ∧
      t.get R.LANE_GRP_STAT_GEN (leadLane j) = 0 ∧
      t.lane.parked.contains j = true) ∧
  (∀ (s : State) (n : Nat) (post up : Bool),
      n < 118 → s.groupStage (groupOfLane n) = 5 → s.flag R.LANE_EQ_TX_OVR n = false → laneId n / 4096 % 2 = 0 → isDataLane n = true → s.get R.LANE_EQ_EFF_PRE n ≤ 16 → s.get R.LANE_EQ_EFF_POST n ≤ 24 →
      ∃ t, exec (.eqTrackStep n post up) s = .next t ∧
      t.get R.LANE_EQ_EFF_MAIN n + t.get R.LANE_EQ_EFF_PRE n + t.get R.LANE_EQ_EFF_POST n = 64 ∧
      (t.get R.LANE_EQ_EFF_PRE n = if post then s.get R.LANE_EQ_EFF_PRE n else if up then min 16 (s.get R.LANE_EQ_EFF_PRE n + 1) else s.get R.LANE_EQ_EFF_PRE n - 1) ∧
      (t.get R.LANE_EQ_EFF_POST n = if post then (if up then min 24 (s.get R.LANE_EQ_EFF_POST n + 1) else s.get R.LANE_EQ_EFF_POST n - 1) else s.get R.LANE_EQ_EFF_POST n)) ∧
  (∀ (s : State) (n header ty : Nat), n < 118 → ∃ t, exec (.laneInvalidHeader n header ty) s = .next t ∧
      (t = if header = 1 ∨ (header = 2 ∧ ty ∈ [0x1E, 0x2D, 0x33, 0x4B, 0x55, 0x66, 0x78, 0x87, 0x99, 0xB4]) then s else s.bump R.LANE_HDR_ERR n)) ∧
  (∀ (s : State) (r : Req) (n mode : Nat), privileged n = true → ∃ t, exec (.laneLoopWrite r n mode) s = .next t ∧
      (if s.groupStage (groupOfLane n) = 7 then t.get R.LANE_LOOP n = mode % 2 ^ R.LANE_LOOP.width else t.get R.LANE_LOOP n = s.get R.LANE_LOOP n ∧ t.teph.nextId = s.teph.nextId + 1)) ∧
  (∀ (s : State) (n : Nat), n < 118 → ∃ t, exec (.injectOne n) s = .next t ∧
      (t.lane.one = if s.groupStage (groupOfLane n) = 7 then s.lane.one ++ [n] else s.lane.one) ∧
      t.regs = s.regs) ∧
  (∀ (s : State) (n k : Nat), n < 118 → ∃ t, exec (.injectRate n k) s = .next t ∧
      (t.lane.rate = if s.groupStage (groupOfLane n) = 7 then (if k % 16 = 0 then s.lane.rate.filter (fun p => p.1 ≠ n) else (n, k % 16) :: s.lane.rate.filter (fun p => p.1 ≠ n)) else s.lane.rate) ∧
      t.regs = s.regs) ∧
  (∀ (s : State) (j pwr : Nat) (tx agreed : Bool), j < 27 → 1 ≤ pwr → ∃ t, exec (.lanePowerDown j tx pwr agreed) s = .next t ∧
      (if pwr ≤ s.deepest j ∧ s.mayRest j = true ∧ (j < 22 ∨ agreed = true) then
      t.get (if tx then R.LANE_GRP_STAT_TX_PWR else R.LANE_GRP_STAT_RX_PWR) (leadLane j) = pwr
      else t = s)) ∧
  (∀ (s : State) (j : Nat) (tx : Bool), j < 27 → ∃ t, exec (.laneWake j tx) s = .next t ∧
      (t.get (if tx then R.LANE_GRP_STAT_TX_PWR else R.LANE_GRP_STAT_RX_PWR) (leadLane j) = 0) ∧
      (t.out = if tx then .wake j :: s.out else s.out) ∧
      (tx = true → ∀ n ∈ sendLanes j, (t.txLane n).sent.length = (s.txLane n).sent.length + 16 ∧ ((t.txLane n).sent.map (·.1)).take 16 = List.replicate 16 2) ∧
      (∀ d st : Nat, descramble (scramble d st).1 st = (d % 2 ^ 64, (scramble d st).2)))

/-- The request served leaves the queue and is one of the highest class among those no throttle holds. A clean write stores its bytes and nothing else, a clean read answers the bytes stored; a single-bit error is also counted. An uncorrectable error freezes the controller with its cause, address and row captured and ALERT_N asserted; a frozen controller answers reads poisoned and drops writes. The scrubber corrects and counts, or freezes with cause 4. Only the caretaker's keyed UNFREEZE while CORE holds ends a freeze. A region entry takes a caretaker's write, and becomes invalid and REFUSED if it leaves the host area; others' writes are ignored and recorded.

Each clause concludes that exec answers a next state. Commands it says so of: memRequest, scrubRead, memUnfreeze, freezeCoreTimeout, regionWrite. -/
def Obligations.MemoryServesByClassCorrectsAndFreezes : Prop :=
  (∀ (s : State) (c : Nat) (q : MemReq) (pass : Bool),
      s.memServes c = true → s.memNext c pass = some q →
      ∃ t, exec (.memRequest c none pass) s = .next t ∧
      t.mem.queue = s.mem.queue.erase q ∧
      q ∈ s.mem.queue ∧
      (∀ x ∈ s.mem.queue, s.channelOf x.addr / 8 = c → s.throttleHolds x = false → memCls q ≤ memCls x) ∧
      (pass = false → (s.mem.queue.filter (fun x => s.channelOf x.addr / 8 = c && !s.throttleHolds x && memCls x = memCls q)).head? = some q) ∧
      (pass = true → s.rowOpen q.addr = true ∨ (s.mem.queue.filter (fun x => s.channelOf x.addr / 8 = c && !s.throttleHolds x && memCls x = memCls q)).any (fun x => s.rowOpen x.addr) = false)) ∧
  (∀ (s : State) (c : Nat) (q : MemReq) (bs : List Byte) (pass : Bool),
      s.memServes c = true → s.memAdmits c q = true → s.ctrlState c = 2 → s.mem.queue = [] → s.mem.throttled = [] → q.write = some bs → (q.ecc = .clean ∨ q.ecc = .single) →
      ∃ t, exec (.memRequest c (some q) pass) s = .next t ∧
      t.dram = (s.writeBytes q.addr bs).dram ∧
      t.mem.queue = [] ∧
      (t.get R.MEM_C_ECC_ACCESS c = if q.ecc = .single then min (s.get R.MEM_C_ECC_ACCESS c + 1) (2 ^ R.MEM_C_ECC_ACCESS.width - 1) else s.get R.MEM_C_ECC_ACCESS c) ∧
      (s.get R.MEM_POLICY_IDLE = 0 → t.rowOpen q.addr = false)) ∧
  (∀ (s : State) (c : Nat) (q : MemReq) (pass : Bool),
      s.memServes c = true → s.memAdmits c q = true → s.ctrlState c = 2 → s.mem.queue = [] → s.mem.throttled = [] → q.write = none → (q.ecc = .clean ∨ q.ecc = .single) →
      ∃ t, exec (.memRequest c (some q) pass) s = .next t ∧
      t.mem.lastRead = s.readBytes q.addr q.len ∧
      t.mem.lastPoison = false ∧
      t.dram = s.dram) ∧
  (∀ (s : State) (c : Nat) (q : MemReq) (syn cause : Nat) (pass : Bool),
      s.memServes c = true → s.memAdmits c q = true → s.ctrlState c = 2 → s.mem.queue = [] → s.mem.throttled = [] → (q.ecc = .double syn ∧ cause = 1 ∨ q.ecc = .parity ∧ cause = 2 ∨ q.ecc = .fetchPort ∧ cause = 3) →
      ∃ t, exec (.memRequest c (some q) pass) s = .next t ∧
      t.ctrlState c = 5 ∧
      t.get R.MEM_C_FRZ_INFO_CAUSE c = cause ∧
      t.flag R.MEM_C_FRZ_INFO_VALID c = true ∧
      t.get R.MEM_C_FRZ_ADDR c = q.addr % 2 ^ R.MEM_C_FRZ_ADDR.width ∧
      t.get R.MEM_C_FRZ_ROW c = s.rowOf q.addr % 2 ^ R.MEM_C_FRZ_ROW.width ∧
      (cause = 1 → t.get R.MEM_C_FRZ_INFO_SYNDROME c = syn % 2 ^ R.MEM_C_FRZ_INFO_SYNDROME.width) ∧
      t.dram = s.dram ∧
      t.pins.alert = true ∧
      (q.write = none → t.mem.lastPoison = true) ∧
      (t.word R.MEM_IRQ_STATUS.base).getLsbD 1 = true ∧
      t.mem.freezeDue = some s.time.raw) ∧
  (∀ (s : State) (c : Nat) (q : MemReq) (pass : Bool),
      s.memServes c = true → s.memAdmits c q = true → s.ctrlState c = 5 → s.mem.queue = [] → s.mem.throttled = [] →
      ∃ t, exec (.memRequest c (some q) pass) s = .next t ∧
      t.dram = s.dram ∧
      (q.write = none → t.mem.lastPoison = true) ∧
      t.ctrlState c = 5) ∧
  (∀ (s : State) (c : Nat) (q : MemReq) (pass : Bool),
      (s.memAdmits c q = false ∨ s.memServes c = false) → (s.memServes c = false ∨ s.memNext c pass = none) →
      ∃ t, exec (.memRequest c (some q) pass) s = .next t ∧
      (t = { s with mem := { s.mem with queue := if s.memAdmits c q then s.mem.queue ++ [q] else s.mem.queue } })) ∧
  (∀ (s : State) (addr syn : Nat) (ecc : EccOutcome),
      s.scrubs addr = true → s.channelOf addr < 48 →
      ∃ t, exec (.scrubRead addr ecc) s = .next t ∧
      (ecc = .clean → t = s) ∧
      (ecc = .single → t.get R.MEM_C_ECC_SCRUB (s.channelOf addr / 8) = min (s.get R.MEM_C_ECC_SCRUB (s.channelOf addr / 8) + 1) (2 ^ R.MEM_C_ECC_SCRUB.width - 1)) ∧
      (ecc = .double syn → t.ctrlState (s.channelOf addr / 8) = 5 ∧ t.get R.MEM_C_FRZ_INFO_CAUSE (s.channelOf addr / 8) = 4) ∧
      t.dram = s.dram) ∧
  (∀ (s : State) (addr : Nat) (ecc : EccOutcome), s.scrubs addr = false → ∃ t, exec (.scrubRead addr ecc) s = .next t ∧
      t = s) ∧
  (∀ (s : State) (c : Nat),
      c < 6 → s.rst.hold = .core → s.ctrlState c = 5 →
      ∃ t, exec (.memUnfreeze .caretaker 0x4D45 c) s = .next t ∧
      t.ctrlState c = 3 ∧
      t.flag R.MEM_C_FRZ_INFO_VALID c = false) ∧
  (∀ (s : State) (r : Req) (key c : Nat),
      c < 6 → (key ≠ 0x4D45 ∨ r ≠ .caretaker ∨ s.rst.hold ≠ .core) →
      ∃ t, exec (.memUnfreeze r key c) s = .next t ∧
      t.ctrlState c = s.ctrlState c ∧
      t.teph.nextId = s.teph.nextId + 1 ∧
      t.mem = s.mem) ∧
  (∀ (s : State) (x : Nat), s.mem.freezeDue = some x → ∃ t, exec (.freezeCoreTimeout) s = .next t ∧
      t.mem.freezeDue = none ∧
      (s.flag R.MEM_FREEZE_CTRL_AUTO_CORE = false → t.rst = s.rst) ∧
      (s.flag R.MEM_FREEZE_CTRL_AUTO_CORE = true → s.rst.hold = .run → t.flag R.RST_CAUSE_SW_CORE = true)) ∧
  (∀ (s : State) (i k : Nat) (data : Word), i < 64 → k < 3 → ∃ t, exec (.regionWrite .caretaker i k data) s = .next t ∧
      (k = 0 → t.get R.MEM_REGION_BASE i = data.toNat % 2 ^ R.MEM_REGION_BASE.width) ∧
      (k = 1 → t.get R.MEM_REGION_LIMIT i = data.toNat % 2 ^ R.MEM_REGION_LIMIT.width) ∧
      (t.flag R.MEM_REGION_ATTR_VALID i = true → t.get R.MEM_REGION_BASE i ≤ t.get R.MEM_REGION_LIMIT i ∧ t.get R.MEM_REGION_LIMIT i * 4096 + 4095 < s.hostArea) ∧
      (k = 2 → data.getLsbD 0 = true → t.flag R.MEM_REGION_ATTR_VALID i = false → t.flag R.MEM_REGION_ATTR_REFUSED i = true)) ∧
  (∀ (s : State) (r : Req) (i k : Nat) (data : Word),
      i < 64 → k < 3 → r ≠ .caretaker →
      ∃ t, exec (.regionWrite r i k data) s = .next t ∧
      t.get R.MEM_REGION_ATTR i = s.get R.MEM_REGION_ATTR i ∧
      t.get R.MEM_REGION_BASE i = s.get R.MEM_REGION_BASE i ∧
      t.teph.nextId = s.teph.nextId + 1)

/-- The end of the refresh window clears counts and throttles; an idle page closes. A refresh postponed while class P is ready adds to the debt up to the limit of the channel (4 when hot), then FORCED advances. A geyser burst with no class P ready pays the whole debt. A reading of twice the base rate makes the channel hot, one of the base rate or less ends it. Eye tracking stores the widths and moves each delay one step, a width below 12 sets EYE_LOW. A rate that is in effect, or does not fit the active personality, or is asked with a frozen controller, is refused; else the change runs from its start to its end, when EFF reads it.

Each clause concludes that exec answers a next state. Commands it says so of: rhWindowEnd, pageIdleClose, refreshDue, geyserBurst, mr4Read, eyeTrack, memFreqRequest, memFreqChangeStart, memFreqChangeDone. -/
def Obligations.MemoryRefreshTrackingAndRate : Prop :=
  (∀ (s : State), ∃ t, exec (.rhWindowEnd) s = .next t ∧
      t = { s with mem := { s.mem with rows := [], throttled := [] } }) ∧
  (∀ (s : State) (ch bank : Nat), ∃ t, exec (.pageIdleClose ch bank) s = .next t ∧
      (t.mem.open_ = s.mem.open_.filter (fun o => !(o.1 = ch && o.2.1 = bank))) ∧
      t.regs = s.regs ∧
      t.dram = s.dram) ∧
  (∀ (s : State) (ch : Nat) (postpone : Bool),
      ch < 48 → s.memServes (ch / 8) = true →
      ∃ t, exec (.refreshDue ch postpone) s = .next t ∧
      (if s.postponeMax ch ≤ s.get R.MEM_CH_STAT_DEBT (ch / 8) (ch % 8) then
      t.get R.MEM_CH_STAT_DEBT (ch / 8) (ch % 8) = s.get R.MEM_CH_STAT_DEBT (ch / 8) (ch % 8) ∧
      t.get R.MEM_CH_REFRESH_FORCED (ch / 8) (ch % 8) = min (s.get R.MEM_CH_REFRESH_FORCED (ch / 8) (ch % 8) + 1) (2 ^ R.MEM_CH_REFRESH_FORCED.width - 1)
      else t.get R.MEM_CH_STAT_DEBT (ch / 8) (ch % 8) = s.get R.MEM_CH_STAT_DEBT (ch / 8) (ch % 8) + if s.classPReady ch && postpone then 1 else 0) ∧
      t.mem = s.mem) ∧
  (∀ (s : State) (ch : Nat) (postpone : Bool),
      (48 ≤ ch ∨ s.memServes (ch / 8) = false) →
      ∃ t, exec (.refreshDue ch postpone) s = .next t ∧
      t = s) ∧
  (∀ (s : State) (ch : Nat), ch < 48 → s.classPReady ch = false → ∃ t, exec (.geyserBurst ch) s = .next t ∧
      t.get R.MEM_CH_STAT_DEBT (ch / 8) (ch % 8) = 0 ∧
      (t.get R.MEM_CH_REFRESH_BURSTS (ch / 8) (ch % 8) = if s.get R.MEM_CH_STAT_DEBT (ch / 8) (ch % 8) = 0 then s.get R.MEM_CH_REFRESH_BURSTS (ch / 8) (ch % 8)
      else min (s.get R.MEM_CH_REFRESH_BURSTS (ch / 8) (ch % 8) + 1) (2 ^ R.MEM_CH_REFRESH_BURSTS.width - 1))) ∧
  (∀ (s : State) (ch code : Nat) (rate : Mr4Rate), ch < 48 → ∃ t, exec (.mr4Read ch code rate) s = .next t ∧
      t.get R.MEM_CH_STAT_MR4 (ch / 8) (ch % 8) = code % 2 ^ R.MEM_CH_STAT_MR4.width ∧
      (t.flag R.MEM_CH_STAT_HOT (ch / 8) (ch % 8) = if rate = .twice then true else if rate = .above then s.flag R.MEM_CH_STAT_HOT (ch / 8) (ch % 8) else false) ∧
      (rate = .twice → s.flag R.MEM_CH_STAT_HOT (ch / 8) (ch % 8) = false → t.get R.MEM_CH_STAT_DEBT (ch / 8) (ch % 8) ≤ 4 ∧ (t.word R.MEM_IRQ_STATUS.base).getLsbD 2 = true)) ∧
  (∀ (s : State) (ch r0 w0 r1 w1 : Nat) (centres delays : List Int),
      ch < 48 → (s.get R.MEM_MAP).testBit ch = true → (s.mem.delays.find? (fun p => p.1 = ch) = some (ch, delays)) →
      ∃ t, exec (.eyeTrack ch r0 w0 r1 w1 centres) s = .next t ∧
      t.get R.MEM_CH_EYE_RD0 (ch / 8) (ch % 8) = min 63 r0 ∧
      t.get R.MEM_CH_EYE_WR1 (ch / 8) (ch % 8) = min 63 w1 ∧
      (t.mem.delays.find? (fun p => p.1 = ch) = some (ch, delays.zipWith trackStep centres)) ∧
      (r0 < 12 → (t.word R.MEM_IRQ_STATUS.base).getLsbD 4 = true)) ∧
  (∀ (s : State) (v : Nat), v < 3 → s.flag R.MEM_FREQ_BUSY = false → ∃ t, exec (.memFreqRequest v) s = .next t ∧
      t.get R.MEM_FREQ_REQ = v ∧
      (if v = s.get R.MEM_FREQ_EFF ∨ s.anyFrozen = true ∨ s.bandwidthFits s.activeBw (memRate v) = false then
      t.flag R.MEM_FREQ_REFUSED = true ∧ (t.word R.MEM_IRQ_STATUS.base).getLsbD 6 = true ∧ t.mem.freqNext = s.mem.freqNext
      else t.mem.freqNext = some v)) ∧
  (∀ (s : State) (v : Nat), v < 3 → s.flag R.MEM_FREQ_BUSY = true → ∃ t, exec (.memFreqRequest v) s = .next t ∧
      t.mem.freqHeld = some v ∧
      t.mem.freqNext = s.mem.freqNext) ∧
  (∀ (s : State) (v : Nat),
      s.mem.freqNext = some v → s.mem.selfRefresh = false → s.flag R.MEM_FREQ_BUSY = false → s.pseq.inFlight = false →
      ∃ t, exec (.memFreqChangeStart) s = .next t ∧
      t.flag R.MEM_FREQ_BUSY = true ∧
      t.mem.queue = [] ∧
      (∀ c, c < 6 → t.ctrlState c ≠ 2) ∧
      (∀ c, c < 6 → s.mem.queue = [] → s.ctrlState c = 2 → t.ctrlState c = 4)) ∧
  (∀ (s : State) (v : Nat),
      v < 3 → s.mem.freqNext = some v → s.mem.freqHeld = none → s.flag R.MEM_FREQ_BUSY = true →
      ∃ t, exec (.memFreqChangeDone) s = .next t ∧
      t.flag R.MEM_FREQ_BUSY = false ∧
      t.get R.MEM_FREQ_EFF = v ∧
      (∀ c, c < 6 → s.ctrlState c = 4 → t.ctrlState c = 2) ∧
      (t.word R.MEM_IRQ_STATUS.base).getLsbD 5 = true ∧
      t.mem.freqNext = none)

/-- A HELLO settles the letter of Table 15.1, a conflict of straps is flagged. Before stage 5 the role is MIRROR or ACTIVE with the link, DETACHED or SOLO without it. A module that loses the port switch becomes MIRROR or DETACHED and its rails yield. A HEARTBEAT carries and updates state and fitness; every packet's bytes pass a receiver's length and CRC checks; a miss sets PARTNER_LOST. Acknowledged packets are done; a timeout resends all, or after eight rounds loses the link. HANDOVER and RESYNC act on the ACTIVE only. A forwarded write acts on the MIRROR as a partner's, a forwarded strobe is set for its target point. A partner mailbox post is stored once; a partner entry joins the partner ring.

Each clause concludes that exec answers a next state. Commands it says so of: pairHello, roleSettle, driveGrantReport, heartbeatSend, heartbeat, heartbeatMiss, pairAckSend, pairAck, pairResendTimeout, pairCmdHandover, pairCmdResync, mirrorWrite, mirrorStrobe, mailboxPacket, tephraPacket. -/
def Obligations.PairLettersRolesAndLink : Prop :=
  (∀ (s : State) (role serial : Nat), s.get R.RST_STRAP_ROLE ≠ 0 → ∃ t, exec (.pairHello role serial) s = .next t ∧
      t.get R.PAIR_STAT_LETTER = (letterOf (s.get R.RST_STRAP_ROLE) role (s.nv.serial % 2 ^ 40) (serial % 2 ^ 40)).1 ∧
      t.get R.PAIR_PEER = serial % 2 ^ 40 ∧
      ((letterOf (s.get R.RST_STRAP_ROLE) role (s.nv.serial % 2 ^ 40) (serial % 2 ^ 40)).2 = true → t.pins.alert = true ∧ (t.word R.PAIR_IRQ_STATUS.base).getLsbD 6 = true)) ∧
  (∀ (s : State) (role serial : Nat), s.get R.RST_STRAP_ROLE = 0 → ∃ t, exec (.pairHello role serial) s = .next t ∧
      t = s) ∧
  (∀ (s : State) (otherHolds : Bool) (port : Nat),
      s.get R.PAIR_STAT_STATE < 2 →
      ∃ t, exec (.roleSettle otherHolds port) s = .next t ∧
      (t.get R.PAIR_STAT_STATE = if s.pairUp then (if otherHolds || decide (s.pair.peerState = 2) || decide (s.pair.peerState = 4) || decide (s.get R.PAIR_STAT_LETTER = 2) then 3 else 2) else if otherHolds then 5 else 4) ∧
      (t.get R.PAIR_STAT_DRIVE = if t.get R.PAIR_STAT_STATE = 2 ∨ t.get R.PAIR_STAT_STATE = 4 then 1 else 0) ∧
      (t.get R.PAIR_STAT_STATE = 2 → t.pair.snapshotDue = true)) ∧
  (∀ (s : State) (otherHolds : Bool) (port : Nat),
      2 ≤ s.get R.PAIR_STAT_STATE →
      ∃ t, exec (.roleSettle otherHolds port) s = .next t ∧
      t = s) ∧
  (∀ (s : State), s.flag R.PAIR_STAT_DRIVE = true → ∃ t, exec (.driveGrantReport false) s = .next t ∧
      (t.get R.PAIR_STAT_STATE = if s.pairUp then 3 else 5) ∧
      t.flag R.PAIR_STAT_DRIVE = false ∧
      (t.get R.RAIL_STAT_STATE = if s.get R.RAIL_STAT_STATE = 2 then 3 else s.get R.RAIL_STAT_STATE) ∧
      (t.word R.PAIR_IRQ_STATUS.base).getLsbD 1 = true ∧
      (t.get R.PAIR_COUNT_HANDOVERS = if s.pair.handover.isSome then min (s.get R.PAIR_COUNT_HANDOVERS + 1) (2 ^ R.PAIR_COUNT_HANDOVERS.width - 1) else s.get R.PAIR_COUNT_HANDOVERS)) ∧
  (∀ (s : State), s.pairUp = true → ∃ t, exec (.heartbeatSend) s = .next t ∧
      t.out = .pairPkt 0 (.heartbeat s.now s.sf (s.get R.PAIR_STAT_STATE) (s.fitNow.get R.PAIR_FIT_FIT) s.fitNow.pair.lastCause) :: s.fitNow.out ∧
      (t.get R.PAIR_FIT_FIT).testBit 0 = true ∧
      (t.get R.PAIR_FIT_FIT).testBit 5 = decide (s.get R.RAIL_STAT_STATE = 3)) ∧
  (∀ (s : State) (time sf state fit cause : Nat), s.pairUp = true → ∃ t, exec (.heartbeat time sf state fit cause) s = .next t ∧
      t.get R.PAIR_FIT_PEER_FIT = fit % 256 ∧
      t.flag R.PAIR_STAT_PARTNER_LOST = false ∧
      t.pair.peerState = state ∧
      t.pair.snapshotDue = (s.pair.snapshotDue || (s.isActive && decide (state = 3) && decide (s.pair.peerState ≠ 3))) ∧
      (s.get R.PAIR_FIT_PEER_FIT ≠ fit % 256 → (t.word R.PAIR_IRQ_STATUS.base).getLsbD 7 = true)) ∧
  (∀ (s : State), s.inPair = true → ∃ t, exec (.heartbeatMiss) s = .next t ∧
      t.flag R.PAIR_STAT_PARTNER_LOST = true ∧
      (t.word R.PAIR_IRQ_STATUS.base).getLsbD 2 = true ∧
      t.get R.PAIR_LINK_HB_MISSED = min (s.get R.PAIR_LINK_HB_MISSED + max 2 (s.get R.PAIR_CTRL_HB_MISS)) (2 ^ R.PAIR_LINK_HB_MISSED.width - 1) ∧
      (s.isActive = true → t.pair.claim = s.pair.claim) ∧
      (s.isMirror = true → s.pair.claim = none → s.pair.panelFault = false → s.rst.placeFail = false → (s.fitNow.get R.PAIR_FIT_FIT).testBit 4 = true → t.pair.claim.map (·.cause) = some 1)) ∧
  (∀ (s : State), s.inPair = false → ∃ t, exec (.heartbeatMiss) s = .next t ∧
      t = s) ∧
  (∀ (s : State), s.pairUp = true → ∃ t, exec (.pairAckSend) s = .next t ∧
      t.out = .pairPkt 0 (.ack s.pair.rxSeq) :: s.out ∧
      t.regs = s.regs ∧
      t.pair = s.pair ∧
      (t.txLane 77).sent.length = (s.txLane 77).sent.length + 1 ∧
      (∀ (ty seq : Nat) (last : Bool) (payload : List Byte), payload.length ≤ 4096 → frameOk (frameBytes ty last seq payload) = true)) ∧
  (∀ (s : State) (seq : Nat), ∃ t, exec (.pairAck none seq) s = .next t ∧
      (t.pair.unacked = s.pair.unacked.filter (fun x => !Word.reached seq x.seq)) ∧
      (s.pair.unacked.any (fun x => Word.reached seq x.seq) = true → t.pair.resends = 0)) ∧
  (∀ (s : State), s.pair.unacked ≠ [] → s.pairUp = true → s.pair.resends < 8 → ∃ t, exec (.pairResendTimeout none) s = .next t ∧
      t.get R.PAIR_LINK_RESENDS = min (s.get R.PAIR_LINK_RESENDS + 1) (2 ^ R.PAIR_LINK_RESENDS.width - 1) ∧
      (t.out = (s.pair.unacked.map (fun x => Emit.pairPkt x.seq x.msg)).reverse ++ s.out) ∧
      t.pair = { s.pair with resends := s.pair.resends + 1 }) ∧
  (∀ (s : State), s.pair.unacked ≠ [] → s.pairUp = true → 8 ≤ s.pair.resends → ∃ t, exec (.pairResendTimeout none) s = .next t ∧
      t.groupStage 22 = 2 ∧
      t.pair.unacked = []) ∧
  (∀ (s : State) (r : Req), r ≠ .partner → ∃ t, exec (.pairCmdHandover r 0x9A1E) s = .next t ∧
      (if s.isActive then (if s.get R.PAIR_FIT_PEER_FIT = 0xFF then t.pair.handover = some (s.sfAt ((s.now : Int) + s.leadNs)) else t.pair = s.pair ∧ (t.word R.PAIR_IRQ_STATUS.base).getLsbD 5 = true) else t = s)) ∧
  (∀ (s : State) (r : Req), r ≠ .partner → ∃ t, exec (.pairCmdResync r 0x9A1E) s = .next t ∧
      (if s.isActive then t.flag R.PAIR_STAT_RESYNC = true ∧ t.pair.snapshotDue = true else t = s)) ∧
  (∀ (s : State) (r : Req) (key : Nat), (key ≠ 0x9A1E ∨ r = .partner) → ∃ t, exec (.pairCmdResync r key) s = .next t ∧
      t.pair = s.pair ∧
      t.teph.nextId = s.teph.nextId + 1) ∧
  (∀ (s : State) (data : Word),
      s.isMirror = true → s.rst.hold = .run →
      ∃ t, exec (.mirrorWrite R.PSEQ_PATTERN.base data) s = .next t ∧
      t.get R.PSEQ_PATTERN_SEL = data.toNat % 4 ∧
      t.get R.PSEQ_PATTERN_LEVEL = data.toNat / 65536 % 4096 ∧
      t.pair.rxSeq = (s.pair.rxSeq + 1) % 2 ^ 32) ∧
  (∀ (s : State) (off : Nat) (data : Word), s.isMirror = false → ∃ t, exec (.mirrorWrite off data) s = .next t ∧
      t = { s with pair := { s.pair with rxSeq := (s.pair.rxSeq + 1) % 2 ^ 32 } }) ∧
  (∀ (s : State) (value : Word) (target g : Nat),
      s.isMirror = true → g < 16 → value.getLsbD g = true → value.toNat / 65536 % 4 = 1 → Word.reached s.sf target = false →
      ∃ t, exec (.mirrorStrobe value false target [] false) s = .next t ∧
      ⟨g, .nextSubframe, 0, 0, some target⟩ ∈ t.strobes ∧
      t.flag R.PAIR_STAT_OUT_OF_STEP = s.flag R.PAIR_STAT_OUT_OF_STEP) ∧
  (∀ (s : State) (value : Word) (target g : Nat),
      s.isMirror = true → g < 16 → value.getLsbD g = true → value.toNat / 65536 % 4 = 1 → Word.reached s.sf target = true →
      ∃ t, exec (.mirrorStrobe value false target [] false) s = .next t ∧
      (t.get R.CTL_UPDATE_LATE_LATE).testBit g = true ∧
      t.flag R.PAIR_STAT_OUT_OF_STEP = true) ∧
  (∀ (s : State) (value : Word) (time : Bool) (target : Nat) (digest : List Byte),
      s.isMirror = true → value.toNat / 16 % 4 ≠ 2 → s.slotDigest (value.toNat % 8) ≠ digest →
      ∃ t, exec (.mirrorStrobe value time target digest true) s = .next t ∧
      t.get R.PERS_LAST_ERR = 0x1A ∧
      t.get R.PERS_LAST_SLOT = value.toNat % 8 ∧
      (t.get R.PAIR_FIT_FIT).testBit 2 = false) ∧
  (∀ (s : State) (i seq : Nat) (word : Word),
      i < 4 → s.flag R.CARE_MBX_STAT_FULL (20 + i) = false → ((s.care.inbound.find? (fun x => x.1 = 20 + i)).map (fun x => x.2.1) ≠ some (seq % 2)) →
      ∃ t, exec (.mailboxPacket i word false 0 seq) s = .next t ∧
      t.get R.CARE_MBX_DATA (20 + i) = word.toNat ∧
      t.flag R.CARE_MBX_STAT_FULL (20 + i) = true ∧
      t.get R.CARE_MBX_STAT_SEQ (20 + i) = seq % 2) ∧
  (∀ (s : State) (i seq q last : Nat) (word : Word),
      i < 4 → (s.care.inbound.find? (fun x => x.1 = 20 + i) = some (20 + i, q, last)) → q = seq % 2 →
      ∃ t, exec (.mailboxPacket i word false 0 seq) s = .next t ∧
      t.get R.CARE_MBX_DATA (20 + i) = s.get R.CARE_MBX_DATA (20 + i) ∧
      t.flag R.CARE_MBX_STAT_FULL (20 + i) = s.flag R.CARE_MBX_STAT_FULL (20 + i)) ∧
  (∀ (s : State) (i seq ret : Nat) (word : Word),
      i < 4 → s.flag R.CARE_MBX_STAT_FULL (16 + i) = true → s.get R.CARE_MBX_STAT_SEQ (16 + i) = seq % 2 →
      ∃ t, exec (.mailboxPacket i word true ret seq) s = .next t ∧
      t.flag R.CARE_MBX_STAT_FULL (16 + i) = false ∧
      t.get R.CARE_MBX_STAT_RET (16 + i) = ret % 65536) ∧
  (∀ (s : State) (e l : TEntry),
      s.teph.partner.getLast? = some l → (e.seq + 2 ^ 32 - (l.seq + 1) % 2 ^ 32) % 2 ^ 32 < 2 ^ 31 → s.teph.partner.length < 8192 →
      ∃ t, exec (.tephraPacket e) s = .next t ∧
      t.teph.partner = s.teph.partner ++ [{ e with partner := true }] ∧
      (e.seq ≠ l.seq + 1 → e.seq < 2 ^ 32 → l.seq + 1 < 2 ^ 32 → (t.word R.TEPH_IRQ_STATUS.base).getLsbD 3 = true))

/-- A FAIL notice, a HANDOVER notice or a lost port makes the module claim the drive with its cause, no earlier than 2 µs later or at the subframe named, unless its lanes are not fit, when it flags that instead, or after a panel fault or a baseline that could not be placed. A panel fault notice drops a claim and powers off to LOCKED_OFF. The ACTIVE records MIRROR_DOWN. A good DELTA and a SNAPSHOT are held on the MIRROR; a bad DELTA, or one with both codec engines disabled, leaves it out of step; a DELTA is a job of an engine. Compared signatures that differ in a band neither excuses count a mismatch and clear fitness bit SIG; a pending test reports its failed tiles, and two results with none failed count as unresolved.

Each clause concludes that exec answers a next state. Commands it says so of: noticeFail, noticeHandover, noticePanelFault, noticeMirrorDown, panelPortLostReport, delta, snapshot, signatures, divergenceKat, katResult. -/
def Obligations.PairTakeoverMirroringAndDivergence : Prop :=
  (∀ (s : State) (cause : NoticeCause),
      s.mayTake = true → s.pair.claim = none → s.pair.panelFault = false → s.rst.placeFail = false → s.fitLanes = true →
      ∃ t, exec (.noticeFail cause) s = .next t ∧
      (t.pair.claim.map (fun c => (c.cause, c.failCause, c.targetSf)) = some (2, causeCode cause, none)) ∧
      t.pair.claim.map (·.notBefore) = some (s.now + 2000) ∧
      Emit.claim ∈ t.out ∧
      t.pair.rxSeq = (s.pair.rxSeq + 1) % 2 ^ 32) ∧
  (∀ (s : State) (cause : NoticeCause),
      s.mayTake = true → s.pair.claim = none → s.pair.panelFault = false → s.rst.placeFail = false → s.fitLanes = false →
      ∃ t, exec (.noticeFail cause) s = .next t ∧
      t.pair.claim = none ∧
      (t.word R.PAIR_IRQ_STATUS.base).getLsbD 4 = true) ∧
  (∀ (s : State) (cause : NoticeCause),
      s.mayTake = true → (s.pair.panelFault = true ∨ s.rst.placeFail = true) →
      ∃ t, exec (.noticeFail cause) s = .next t ∧
      t.pair.claim = s.pair.claim ∧
      t.pair.rxSeq = (s.pair.rxSeq + 1) % 2 ^ 32) ∧
  (∀ (s : State) (cause : NoticeCause) (sf : Nat),
      s.isMirror = true → s.pair.claim = none → s.pair.panelFault = false → s.rst.placeFail = false → s.fitLanes = true →
      ∃ t, exec (.noticeHandover cause sf) s = .next t ∧
      (t.pair.claim.map (fun c => (c.cause, c.targetSf)) = some (if cause = .divergence then 5 else 4, some sf))) ∧
  (∀ (s : State) (cause : NoticeCause), ∃ t, exec (.noticePanelFault cause) s = .next t ∧
      t.pair.panelFault = true ∧
      t.pair.claim = none ∧
      (s.get R.RAIL_STAT_STATE = 2 → t.get R.RAIL_STAT_STATE = 4 ∧ t.rail.endLocked = true)) ∧
  (∀ (s : State) (cause : NoticeCause), ∃ t, exec (.noticeMirrorDown cause) s = .next t ∧
      (t.teph.nextId = if s.isActive then s.teph.nextId + 1 else s.teph.nextId) ∧
      (t.regs = s.regs ∨ s.isActive = true)) ∧
  (∀ (s : State),
      s.mayTake = true → s.pair.claim = none → s.pair.panelFault = false → s.rst.placeFail = false → s.fitLanes = true →
      ∃ t, exec (.panelPortLostReport) s = .next t ∧
      t.pair.claim.map (·.cause) = some 3 ∧
      (s.get R.RAIL_STAT_STATE = 3 → t.get R.RAIL_STAT_STATE = 2 ∧ t.rail.transferDue = true)) ∧
  (∀ (s : State), s.mayTake = false → ∃ t, exec (.panelPortLostReport) s = .next t ∧
      t = s) ∧
  (∀ (s : State) (d : DeltaMsg), s.isMirror = true → ∃ t, exec (.delta d) s = .next t ∧
      (if s.get R.LZC_CTRL ≠ 0 ∧ d.okR255 = true then t.pair.delta = some d ∧ t.regs = s.regs else t.pair.delta = s.pair.delta ∧ t.flag R.PAIR_STAT_OUT_OF_STEP = true) ∧
      (t.lzc.queue.length = s.lzc.queue.length + if s.get R.LZC_CTRL = 0 then 0 else 1)) ∧
  (∀ (s : State) (d : SnapshotMsg) (digest : List Byte), s.isMirror = true → ∃ t, exec (.snapshot d digest) s = .next t ∧
      t.pair.snapshot = some d ∧
      ((t.get R.PAIR_FIT_FIT).testBit 2 = (s.flag R.PERS_STATE_ACTIVE_VALID && decide ((s.pers.digest.find? (fun x => x.1 = s.activeSlot)).map (·.2) = some digest)))) ∧
  (∀ (s : State) (sf : Nat) (sigs : List Nat) (excused : List Bool) (a : SigSet),
      s.inPair = true → (s.pair.own.find? (fun x => x.sf = sf) = some a) → s.pair.peer = [] →
      ∃ t, exec (.signatures sf sigs excused) s = .next t ∧
      (if mismatches a ⟨sf, sigs, excused, []⟩ = [] then t.get R.PAIR_DIV_MISMATCH = s.get R.PAIR_DIV_MISMATCH ∧ t.pair.mismatchRun = 0
      else t.get R.PAIR_DIV_MISMATCH = min (s.get R.PAIR_DIV_MISMATCH + 1) (2 ^ R.PAIR_DIV_MISMATCH.width - 1) ∧ (t.get R.PAIR_FIT_FIT).testBit 6 = false ∧
      t.pair.mismatchRun = s.pair.mismatchRun + 1 ∧ (max 1 (s.get R.PAIR_CTRL_DIV_PERSIST) ≤ s.pair.mismatchRun + 1 → t.pair.testPending = true))) ∧
  (∀ (s : State) (failed : List Nat),
      s.pair.testPending = true → s.pair.peerKat = none →
      ∃ t, exec (.divergenceKat failed) s = .next t ∧
      t.pair.testPending = false ∧
      (t.pair.ownKat = some (s.pair.mapped.filter (fun n => s.tileState n = 1), (s.pair.mapped.filter (fun n => s.tileState n = 1)).filter (fun n => failed.contains n)))) ∧
  (∀ (s : State) (tested failed own : List Nat),
      s.inPair = true → s.pair.ownKat = some (own, []) → failed = [] →
      ∃ t, exec (.katResult tested failed) s = .next t ∧
      t.pair.ownKat = none ∧
      t.pair.peerKat = none ∧
      t.get R.PAIR_DIV_UNRESOLVED = min (s.get R.PAIR_DIV_UNRESOLVED + 1) (2 ^ R.PAIR_DIV_UNRESOLVED.width - 1) ∧
      (t.word R.PAIR_IRQ_STATUS.base).getLsbD 3 = true ∧
      (s.isActive = true → t.pair.snapshotDue = true)) ∧
  (∀ (s : State) (tested failed : List Nat),
      s.inPair = true → s.pair.ownKat = none →
      ∃ t, exec (.katResult tested failed) s = .next t ∧
      t.pair.peerKat = some (tested, failed))

/-- A HELLO stores the neighbour's position, letter and serial, is acknowledged, and sets CONFLICT when the position is not the one expected. A STATUS stores lock and hops; STATUS goes to every ACTIVE port; a bad packet counts. A SYNC is answered with a REPLY that echoes it; only the REPLY that echoes the SYNC in flight gives XCHK and DELAY. An ACK frees packets, a timeout sends them again, the ninth loses the link. PTP messages count on TIME_PTP.PORT over its IP only. The MIRROR exchanges time over the pair link. An Announce ranks its master, Sync and delay messages of the chosen master give the offset and path delay. A source that falls silent leaves SRC_EFF 0 in holdover, unlocked, at the last rate.

Each clause concludes that exec answers a next state. Commands it says so of: arrayHello, arrayStatus, arrayStatusSend, arrayBadPacket, arrayTimeExchange, pairTimeExchange, timePacket, pairAck, pairResendTimeout, ptpMessage, ptpAnnounceTimeout, sourceTimeout. -/
def Obligations.ArrayPortsAndTimeExchanges : Prop :=
  (∀ (s : State) (a x y letter serial : Nat) (valid : Bool),
      a < 4 → s.portUp a = true →
      ∃ t, exec (.arrayHello a x y valid letter serial) s = .next t ∧
      t.get R.ARRAY_PORT_NBR_X a = x % 32 ∧
      t.get R.ARRAY_PORT_NBR_Y a = y % 32 ∧
      t.flag R.ARRAY_PORT_NBR_VALID a = valid ∧
      t.get R.ARRAY_PORT_NBR_LETTER a = letter % 4 ∧
      t.flag R.ARRAY_PORT_NBR_PRESENT a = true ∧
      t.flag R.ARRAY_PORT_NBR_CONFLICT a = (s.flag R.ARRAY_POS_VALID && valid && !(decide ((s.expected a).1 = ((x % 32 : Nat) : Int)) && decide ((s.expected a).2 = ((y % 32 : Nat) : Int)))) ∧
      Emit.arrayAck a (((s.port a).rxSeq + 1) % 2 ^ 32) ∈ t.out ∧
      (t.port a).serial = serial % 2 ^ 40) ∧
  (∀ (s : State) (a x y letter serial : Nat) (valid : Bool),
      s.portUp a = false →
      ∃ t, exec (.arrayHello a x y valid letter serial) s = .next t ∧
      t = s) ∧
  (∀ (s : State) (a src hops gm : Nat) (locked : Bool),
      a < 4 → s.portUp a = true →
      ∃ t, exec (.arrayStatus a src locked hops gm) s = .next t ∧
      t.flag R.ARRAY_PORT_NBR_LOCKED a = locked ∧
      t.get R.ARRAY_PORT_NBR_HOPS a = min 63 hops ∧
      (t.port a).nbrSource = src ∧
      Emit.arrayAck a (((s.port a).rxSeq + 1) % 2 ^ 32) ∈ t.out) ∧
  (∀ (s : State), ∃ t, exec (.arrayStatusSend) s = .next t ∧
      t.regs = s.regs ∧
      (t.out = (((List.range 4).filter (fun a => s.portUp a)).map (fun a => Emit.arrayStatus a (s.get R.TIME_STAT_SRC_EFF) (s.flag R.TIME_STAT_LOCKED) (s.get R.TIME_STAT_HOPS) (s.get R.TIME_PTP_GM))).reverse ++ s.out)) ∧
  (∀ (s : State) (a : Nat), a < 4 → ∃ t, exec (.arrayBadPacket a) s = .next t ∧
      t = s.bump R.ARRAY_PORT_COUNT_BAD a) ∧
  (∀ (s : State) (a : Nat), a < 4 → s.portUp a = true → ∃ t, exec (.arrayTimeExchange a) s = .next t ∧
      (t.port a).syncAt = some (((s.port a).syncId + 1) % 2 ^ 32, s.now) ∧
      t.out = .arrayTime a (.sync (((s.port a).syncId + 1) % 2 ^ 32) s.now) s.timeInfo :: s.out ∧
      (t.txLane (95 + 6 * a)).sent.length = (s.txLane (95 + 6 * a)).sent.length + 3 ∧
      t.regs = s.regs) ∧
  (∀ (s : State), ∃ t, exec (.pairTimeExchange) s = .next t ∧
      (if s.isMirror && s.pairUp then t.time.exchange = some ((s.time.syncId + 1) % 2 ^ 32, s.now) ∧ t.pair.txSeq = (s.pair.txSeq + 1) % 2 ^ 32 else t = s)) ∧
  (∀ (s : State) (a id t1 : Nat) (i : TimeInfo),
      a < 4 → s.portUp a = true →
      ∃ t, exec (.timePacket (some a) (.sync id t1) i) s = .next t ∧
      (((t.out.take (t.out.length - s.out.length)).any (fun e => match e with
      | .arrayTime b k _ => decide (b = a ∧ k = .reply id s.now s.now)
      | _ => false)) = true) ∧
      t.flag R.ARRAY_PORT_NBR_LOCKED a = i.locked ∧
      t.get R.ARRAY_PORT_NBR_HOPS a = min 63 i.hops) ∧
  (∀ (s : State) (a id t1 t2 t3 : Nat) (i : TimeInfo),
      a < 4 → s.portUp a = true → (s.port a).syncAt = some (id, t1) → s.srcChosen ≠ 2 → -(2 ^ 31) ≤ Int.fdiv (((t2 : Int) - t1) - ((s.now : Int) - t3)) 2 → Int.fdiv (((t2 : Int) - t1) - ((s.now : Int) - t3)) 2 < 2 ^ 31 →
      ∃ t, exec (.timePacket (some a) (.reply id t2 t3) i) s = .next t ∧
      t.getI R.ARRAY_PORT_XCHK a = Int.fdiv (((t2 : Int) - t1) - ((s.now : Int) - t3)) 2 ∧
      t.get R.ARRAY_PORT_DELAY a = min 65535 (Int.fdiv (((t2 : Int) - t1) + ((s.now : Int) - t3)) 2).toNat ∧
      (t.port a).syncAt = none) ∧
  (∀ (s : State) (a id t2 t3 : Nat) (i : TimeInfo),
      a < 4 → s.portUp a = true → (s.port a).syncAt.map (·.1) ≠ some id →
      ∃ t, exec (.timePacket (some a) (.reply id t2 t3) i) s = .next t ∧
      t.get R.ARRAY_PORT_XCHK a = s.get R.ARRAY_PORT_XCHK a ∧
      t.get R.ARRAY_PORT_DELAY a = s.get R.ARRAY_PORT_DELAY a ∧
      t.time = s.time) ∧
  (∀ (s : State) (a seq : Nat), a < 4 → ∃ t, exec (.pairAck (some a) seq) s = .next t ∧
      ((t.port a).unacked = (s.port a).unacked.filter (fun x => !Word.reached seq x.1)) ∧
      t.pair = s.pair ∧
      t.regs = s.regs) ∧
  (∀ (s : State) (a : Nat),
      a < 4 → s.portUp a = true → (s.port a).unacked ≠ [] →
      ∃ t, exec (.pairResendTimeout (some a)) s = .next t ∧
      (if 8 ≤ (s.port a).resends then t.groupStage (23 + a) = 2 ∧ t.flag R.ARRAY_PORT_NBR_PRESENT a = false ∧ (t.port a).unacked = []
      else (t.port a).resends = (s.port a).resends + 1 ∧ (t.port a).unacked = (s.port a).unacked) ∧
      t.pair = s.pair) ∧
  (∀ (s : State) (id t1 : Nat) (i : TimeInfo), s.pairUp = true → ∃ t, exec (.timePacket none (.sync id t1) i) s = .next t ∧
      t.out.head? = some (.pairPkt ((s.pair.txSeq + 1) % 2 ^ 32) (.time (.reply id s.now s.now) s.timeInfo))) ∧
  (∀ (s : State) (port : Nat) (v6 : Bool) (master : Nat) (ranking : List Nat),
      port = s.get R.TIME_PTP_PORT → v6 = s.flag R.TIME_PTP_IPV6 → s.time.ptp.masters = [] → s.time.ptp.master = none →
      ∃ t, exec (.ptpMessage port v6 (.announce master ranking (s.get R.TIME_PTP_DOMAIN))) s = .next t ∧
      t.time.ptp.master = some master ∧
      t.time.ptp.masters = [(master, ranking)] ∧
      t.get R.TIME_PTP_STAT_STATE = 1) ∧
  (∀ (s : State) (port : Nat) (v6 : Bool) (m : PtpMsg) (master d seq origin stamp : Nat),
      m = .sync master seq false origin stamp d → (d ≠ s.get R.TIME_PTP_DOMAIN ∨ s.time.ptp.master ≠ some master) →
      ∃ t, exec (.ptpMessage port v6 m) s = .next t ∧
      t.time = s.time ∧
      t.regs = s.regs) ∧
  (∀ (s : State) (port : Nat) (v6 : Bool) (m : PtpMsg),
      (port ≠ s.get R.TIME_PTP_PORT ∨ v6 ≠ s.flag R.TIME_PTP_IPV6) →
      ∃ t, exec (.ptpMessage port v6 m) s = .next t ∧
      t = s) ∧
  (∀ (s : State) (port : Nat) (v6 : Bool) (master seq received x1 x2 x3 : Nat),
      port = s.get R.TIME_PTP_PORT → v6 = s.flag R.TIME_PTP_IPV6 → s.time.ptp.master = some master → seq = s.time.ptp.delaySeq → s.time.ptp.t1 = some x1 → s.time.ptp.t2 = some x2 → s.time.ptp.t3 = some x3 → s.srcChosen ≠ 1 → -(2 ^ 31) ≤ Int.fdiv (((x1 : Int) - x2) + ((received : Int) - x3)) 2 → Int.fdiv (((x1 : Int) - x2) + ((received : Int) - x3)) 2 < 2 ^ 31 →
      ∃ t, exec (.ptpMessage port v6 (.delayResp master seq received (s.get R.TIME_PTP_DOMAIN))) s = .next t ∧
      t.getI R.TIME_PTP_OFFSET = Int.fdiv (((x1 : Int) - x2) + ((received : Int) - x3)) 2 ∧
      t.get R.TIME_PTP_STAT_DELAY = min (2 ^ 24 - 1) (Int.fdiv (((x2 : Int) - x1) + ((received : Int) - x3)) 2).toNat ∧
      t.get R.TIME_PTP_STAT_STATE = 2) ∧
  (∀ (s : State) (m : Nat), s.time.ptp.master = some m → ∃ t, exec (.ptpAnnounceTimeout) s = .next t ∧
      (t.time.ptp.masters = s.time.ptp.masters.filter (fun x => x.1 ≠ m)) ∧
      (t.time.ptp.master = (bestMaster (s.time.ptp.masters.filter (fun x => x.1 ≠ m))).map (·.1))) ∧
  (∀ (s : State), s.get R.TIME_STAT_SRC_EFF ≠ 0 → ∃ t, exec (.sourceTimeout) s = .next t ∧
      t.get R.TIME_STAT_SRC_EFF = 0 ∧
      t.flag R.TIME_STAT_HOLDOVER = true ∧
      t.flag R.TIME_STAT_LOCKED = false ∧
      t.time.rate = s.time.rate ∧
      t.time.pend = s.time.pend ∧
      t.time.lastSrc = s.get R.TIME_STAT_SRC_EFF)

/-- With the key, ACCEPT applies the whole pending step to TIME at once, DISCARD drops it, and SLEW begins to absorb it without moving TIME, unless no room is left, when it is ignored and recorded; the end of the slew leaves TIME as it is. PPS_OUT rises only when enabled and locked or free; an edge of PPS_IN stamps TIME unless it comes within 100 ms. A launch is inserted at the instant nearest TIME, a repeat is ignored, a ninth is refused with its flag, and FLUSH empties the queue; the MIRROR drops both. The TCXO trim moves at most 0.01 ppm.

Each clause concludes that exec answers a next state. Commands it says so of: timeCmdAccept, timeCmdDiscard, timeCmdSlew, slewDone, ppsOutEdge, ppsInEdge, timeLaunchWrite, timeLaunchFlush, tcxoTrim. -/
def Obligations.TimeStepsSlewsPulsesAndLaunches : Prop :=
  (∀ (s : State) (r : Req) (p : PendStep), r ≠ .partner → s.time.pend = some p → ∃ t, exec (.timeCmdAccept r 0x71AE) s = .next t ∧
      t.timeFx = s.timeFx + p.step ∧
      t.time.pend = none ∧
      t.flag R.TIME_STAT_JUMP_PEND = false ∧
      t.flag R.TIME_STAT_LOCKED = false) ∧
  (∀ (s : State) (r : Req) (p : PendStep), r ≠ .partner → s.time.pend = some p → ∃ t, exec (.timeCmdDiscard r 0x71AE) s = .next t ∧
      t.timeFx = s.timeFx ∧
      t.time.pend = none ∧
      t.flag R.TIME_STAT_JUMP_PEND = false) ∧
  (∀ (s : State) (r : Req) (p : PendStep), r ≠ .partner → s.time.pend = some p → ∃ t, exec (.timeCmdSlew r 0x71AE) s = .next t ∧
      t.timeFx = s.timeFx ∧
      (if (if 0 < p.step then rateLimit - s.time.rate else rateLimit + s.time.rate) ≤ ppmUnit then t.time.pend = some p ∧ t.teph.nextId = s.teph.nextId + 1
      else t.time.pend = none ∧ t.flag R.TIME_STAT_SLEWING = true ∧
      t.time.slew = (if 0 < p.step then 1 else -1) * min (Int.fdiv ((Word.clamp 1 100 (s.get R.TIME_SLEW) : Int) * 2 ^ 48) 1000000) (if 0 < p.step then rateLimit - s.time.rate else rateLimit + s.time.rate))) ∧
  (∀ (s : State) (r : Req) (key : Nat), (key ≠ 0x71AE ∨ r = .partner) → ∃ t, exec (.timeCmdAccept r key) s = .next t ∧
      t.time = s.time ∧
      t.teph.nextId = s.teph.nextId + 1) ∧
  (∀ (s : State), s.flag R.TIME_STAT_SLEWING = true → ∃ t, exec (.slewDone) s = .next t ∧
      t.timeFx = s.timeFx ∧
      t.time.slew = 0 ∧
      t.flag R.TIME_STAT_SLEWING = false ∧
      (t.word R.TIME_IRQ_STATUS.base).getLsbD 2 = true) ∧
  (∀ (s : State), ∃ t, exec (.ppsOutEdge) s = .next t ∧
      (if s.flag R.TIME_CTRL_PPS_OUT_EN && (s.flag R.TIME_STAT_LOCKED || s.flag R.TIME_CTRL_PPS_FREE) && s.pins.ppsEn then
      t.pins.ppsOut = true ∧ t.out = .pps (Word.clamp 1 900 (s.get R.TIME_PPS)) :: s.out else t = s)) ∧
  (∀ (s : State),
      (s.time.ppsInLast = none ∨ (s.time.ppsInLast.getD 0) + 100000000 < s.time.raw) →
      ∃ t, exec (.ppsInEdge) s = .next t ∧
      t.get R.TIME_PPS_CAP = s.now ∧
      t.time.ppsInLast = some s.time.raw ∧
      (t.word R.TIME_IRQ_STATUS.base).getLsbD 4 = true) ∧
  (∀ (s : State) (x : Nat), s.time.ppsInLast = some x → s.time.raw ≤ x + 100000000 → ∃ t, exec (.ppsInEdge) s = .next t ∧
      t = s) ∧
  (∀ (s : State) (r : Req) (short : Nat), s.isMirror = false → ∃ t, exec (.timeLaunchWrite r short) s = .next t ∧
      (if s.time.launches.contains (s.extend short) then t = s
      else if 8 ≤ s.time.launches.length then t.time.launches = s.time.launches ∧ (t.word R.TIME_IRQ_STATUS.base).getLsbD 7 = true
      else t.time.launches = launchInsert (s.extend short) s.time.launches ∧ t.get R.TIME_LAUNCH_STAT_QUEUED = s.time.launches.length + 1)) ∧
  (∀ (s : State) (r : Req) (short : Nat), s.isMirror = true → ∃ t, exec (.timeLaunchWrite r short) s = .next t ∧
      t.time = s.time ∧
      t.get R.PAIR_DROP = min (s.get R.PAIR_DROP + 1) (2 ^ R.PAIR_DROP.width - 1)) ∧
  (∀ (s : State) (r : Req) (data : Nat), s.isMirror = false → ∃ t, exec (.timeLaunchFlush r data) s = .next t ∧
      (if data.testBit 0 then t.time.launches = [] ∧ t.get R.TIME_LAUNCH_STAT_QUEUED = 0 else t = s)) ∧
  (∀ (s : State) (table : Int), -32000 ≤ s.getI R.THM_TCXO → s.getI R.THM_TCXO ≤ 32000 → ∃ t, exec (.tcxoTrim table) s = .next t ∧
      t.getI R.THM_TCXO = s.getI R.THM_TCXO + Word.clampI (-10) 10 (table - s.getI R.THM_TCXO))

/-- After a sample a zone with two broken sensors reads 150.0 °C, TMAX is the highest zone and LEVEL is 64 (Tmax − START) / (FULL − START) within 0 to 64; Tmax at the shutdown threshold starts a shutdown. A comparator trip sets CUT, loses the DRAM and what the fabric, intake and blitter held beside their registers, and ends in step 4, a broken sensor's does nothing. Ten cool seconds later a restart is made, or awaited with HOLD set. REARM clears a sensor's broken state. VCORE moves 5 mV within 700 to 850. A requested subject runs as soon as it may; its end counts and records its reference; a timeout keeps its steps. That a shutdown's steps go on at sensor samples is a choice (log entry 45).

Each clause concludes that exec answers a next state. Commands it says so of: sensorSample, thermalCut, restartAllowed, sensRearm, vcoreLoop, calReq, calSchedule, calRunDone, calTimeout. -/
def Obligations.ThermalControlAndCalibration : Prop :=
  (∀ (s : State) (l : List (Option (Nat × Int))), ∃ t, exec (.sensorSample l) s = .next t ∧
      t.getI R.THM_STAT_TMAX = t.hottest.1 ∧
      t.get R.THM_STAT_LEVEL = throttleLevel t.hottest.1 t.thresholds.1 t.thresholds.2.1 ∧
      (∀ z, z < 8 → t.getI R.THM_ZONE_READING z ≤ t.hottest.1) ∧
      (∀ z, z < 8 → 2 ≤ ((zoneSensors z).filter (fun n => t.flag R.THM_SENS_BROKEN n)).length → t.getI R.THM_ZONE_READING z = 1500) ∧
      (s.thm.step = 0 → s.flag R.THM_STAT_CUT = false → t.thresholds.2.2 ≤ t.getI R.THM_STAT_TMAX → t.flag R.THM_STAT_SHUTDOWN = true ∧ t.pins.alert = true)) ∧
  (∀ (s : State) (l : List (Option (Nat × Int))) (n raw : Nat) (x : Int),
      n < 64 → l.getD n none = some (raw, x) → -550 ≤ x → x ≤ 1750 →
      ∃ t, exec (.sensorSample l) s = .next t ∧
      (t.getI R.THM_SENS_READING n = if t.flag R.THM_SENS_BROKEN n then 1400 else x)) ∧
  (∀ (s : State) (n : Nat) (reading : Int),
      n < 64 → s.flag R.THM_SENS_BROKEN n = false → s.flag R.THM_STAT_CUT = false →
      ∃ t, exec (.thermalCut n reading) s = .next t ∧
      t.flag R.THM_STAT_CUT = true ∧
      t.dram = [] ∧
      t.mem.ready = false ∧
      t.thm.step = 4 ∧
      t.pseq.inFlight = false ∧
      t.fab.tiles = [] ∧
      t.intk.frames = [] ∧
      t.blt.cmd = none ∧
      (s.get R.RAIL_STAT_STATE = 2 → t.get R.RAIL_STAT_STATE = 4)) ∧
  (∀ (s : State) (n : Nat) (reading : Int),
      n < 64 → (s.flag R.THM_SENS_BROKEN n = true ∨ s.flag R.THM_STAT_CUT = true) →
      ∃ t, exec (.thermalCut n reading) s = .next t ∧
      t = s) ∧
  (∀ (s : State),
      s.thm.step = 4 → s.thm.allowed = false → s.thm.coolSince.isSome = true → s.rst.hold = .run →
      ∃ t, exec (.restartAllowed) s = .next t ∧
      (if s.flag R.THM_CTRL then t.flag R.THM_STAT_WAITING = true ∧ t.thm.allowed = true ∧ t.rst = s.rst else t.flag R.RST_CAUSE_SW_SYS = true)) ∧
  (∀ (s : State) (r : Req) (n : Nat), r ≠ .partner → n < 70 → ∃ t, exec (.sensRearm r 0x7E4A n) s = .next t ∧
      t.flag R.THM_SENS_BROKEN n = false ∧
      t.get R.THM_SENS_CAUSE n = 0 ∧
      t.thm.hist = s.thm.hist.set n []) ∧
  (∀ (s : State) (r : Req) (key n : Nat), (key ≠ 0x7E4A ∨ r = .partner) → ∃ t, exec (.sensRearm r key n) s = .next t ∧
      t.thm = s.thm ∧
      t.teph.nextId = s.teph.nextId + 1) ∧
  (∀ (s : State) (want : Nat), ∃ t, exec (.vcoreLoop want) s = .next t ∧
      (t.get R.THM_VCORE = Word.clamp 700 850 (if s.get R.THM_VCORE < want then s.get R.THM_VCORE + 5 else if want < s.get R.THM_VCORE then s.get R.THM_VCORE - 5 else s.get R.THM_VCORE)) ∧
      t.thm = s.thm) ∧
  (∀ (s : State) (r : Req) (mask i : Nat),
      r ≠ .partner → i < 4 → mask.testBit i = true → (s.get R.CAL_STAT_RUNNING).testBit i = false →
      ∃ t, exec (.calReq r 0xCA1B mask) s = .next t ∧
      (t.get R.CAL_STAT_RUNNING).testBit i = s.calMay i ∧
      (t.get R.CAL_STAT_PENDING).testBit i = !s.calMay i) ∧
  (∀ (s : State) (i : Nat),
      i < 4 → (s.get R.CAL_CTRL_EN).testBit i = true → (s.calMoved i = true ∨ s.calPeriod i = true) →
      ∃ t, exec (.calSchedule) s = .next t ∧
      ((t.get R.CAL_STAT_RUNNING).testBit i = true ∨ (t.get R.CAL_STAT_PENDING).testBit i = true)) ∧
  (∀ (s : State) (i : Nat),
      i < 4 → s.calOver i = true → s.thm.cal.length = 4 → s.thm.calCmd = 0 →
      ∃ t, exec (.calRunDone i) s = .next t ∧
      (t.get R.CAL_STAT_RUNNING).testBit i = false ∧
      t.get R.CAL_SUBJ_COUNT_RUNS i = min (s.get R.CAL_SUBJ_COUNT_RUNS i + 1) (2 ^ R.CAL_SUBJ_COUNT_RUNS.width - 1) ∧
      (i < 2 → t.getI R.CAL_SUBJ_LAST_REF i = s.getI R.PSEQ_TEMP_TEMP) ∧
      (i = 2 → t.getI R.CAL_SUBJ_LAST_REF i = s.getI R.THM_ZONE_READING 7) ∧
      (t.calRun i).lastAt = some s.time.raw ∧
      (t.word R.CAL_IRQ_STATUS.base).getLsbD 0 = true) ∧
  (∀ (s : State) (i : Nat),
      i < 4 → (s.get R.CAL_STAT_RUNNING).testBit i = true → s.thm.cal.length = 4 → s.thm.calCmd = 0 →
      ∃ t, exec (.calTimeout i) s = .next t ∧
      (t.get R.CAL_STAT_RUNNING).testBit i = false ∧
      t.get R.CAL_SUBJ_COUNT_TIMEOUTS i = min (s.get R.CAL_SUBJ_COUNT_TIMEOUTS i + 1) (2 ^ R.CAL_SUBJ_COUNT_TIMEOUTS.width - 1) ∧
      (t.calRun i).steps = (s.calRun i).steps ∧
      (t.word R.CAL_IRQ_STATUS.base).getLsbD 1 = true)

/-- The oldest queued entry enters the ring with SEQ, the newest 8,192 stay, and HEAD advances; while frozen it counts in LOST.FROZEN. A trigger sets FREEZE_AT and freezes at once or after the post count. Lost entries are reported by one LOST entry once there is room. FREEZE queues its marker, RESUME ends a freeze, CLEAR empties the ring with SEQ running on; a wrong key is ignored and recorded. A save due writes the window into the older area. Each second corrections are summarised. ALERT_N is released by its timeout, PWR_FAIL_N becomes high-impedance as the AO supply falls, and mains that return after a warning bring POR.

Each clause concludes that exec answers a next state. Commands it says so of: tephraWrite, tephraLostEntry, tephFreeze, tephResume, tephClear, tephraSave, corrSummary, alertTimeout, aoSupplyFall, mainsReturn. -/
def Obligations.RecorderWritesFreezesAndSaves : Prop :=
  (∀ (s : State) (o : Offer) (rest : List Offer),
      s.teph.queue = o :: rest → s.flag R.TEPH_STAT_FROZEN = false → s.teph.ring.length < 8192 → s.teph.post = none →
      ∃ t, exec (.tephraWrite) s = .next t ∧
      t.teph.queue = rest ∧
      t.teph.ring = s.teph.ring ++ [⟨o.id, ⟨o.time, s.get R.TEPH_HEAD, o.src, o.sev, o.rung, o.injected, o.unlocked, false, o.code, o.a0, o.a1, s.linkSeq (s.get R.TEPH_HEAD) o.a2⟩⟩] ∧
      t.get R.TEPH_HEAD = (s.get R.TEPH_HEAD + 1) % 2 ^ 32 ∧
      t.get R.TEPH_STAT_HELD = s.teph.ring.length + 1 ∧
      t.flag R.TEPH_STAT_FROZEN = (s.triggers o && decide (s.get R.TEPH_FREEZE_POST = 0)) ∧
      (s.triggers o = true → t.get R.TEPH_FREEZE_AT = s.get R.TEPH_HEAD) ∧
      (s.triggers o = true → s.get R.TEPH_FREEZE_POST ≠ 0 → t.teph.post = some (s.get R.TEPH_FREEZE_POST) ∧ t.flag R.TEPH_STAT_COUNTING = true)) ∧
  (∀ (s : State) (o : Offer) (rest : List Offer) (n : Nat),
      s.teph.queue = o :: rest → s.flag R.TEPH_STAT_FROZEN = false → s.teph.post = some n →
      ∃ t, exec (.tephraWrite) s = .next t ∧
      (if n ≤ 1 then t.flag R.TEPH_STAT_FROZEN = true ∧ t.teph.post = none ∧ (t.word R.TEPH_IRQ_STATUS.base).getLsbD 0 = true else t.teph.post = some (n - 1))) ∧
  (∀ (s : State) (o : Offer) (rest : List Offer),
      s.teph.queue = o :: rest → s.flag R.TEPH_STAT_FROZEN = true →
      ∃ t, exec (.tephraWrite) s = .next t ∧
      t.teph.queue = rest ∧
      t.teph.ring = s.teph.ring ∧
      t.get R.TEPH_HEAD = s.get R.TEPH_HEAD ∧
      t.get R.TEPH_LOST_FROZEN = min (s.get R.TEPH_LOST_FROZEN + 1) (2 ^ R.TEPH_LOST_FROZEN.width - 1)) ∧
  (∀ (s : State),
      s.teph.lostPending ≠ 0 → s.teph.queue.length < 64 → s.flag R.TEPH_STAT_FROZEN = false →
      ∃ t, exec (.tephraLostEntry) s = .next t ∧
      t.teph.lostPending = 0 ∧
      t.teph.queue.length = s.teph.queue.length + 1 ∧
      ((t.teph.queue.getLast?.map (fun o => (o.src, o.code, o.a0, o.a1))) = some (23, 0x20, s.teph.lostPending % 2 ^ 32, s.teph.lostAfter % 2 ^ 32))) ∧
  (∀ (s : State) (r : Req),
      r ≠ .partner → s.teph.queue.length < 64 → s.flag R.TEPH_STAT_FROZEN = false →
      ∃ t, exec (.tephFreeze r 0x7E9A) s = .next t ∧
      t.teph.queue.length = s.teph.queue.length + 1 ∧
      ((t.teph.queue.getLast?.map (fun o => (o.code, o.trigger))) = some (0xF01, true)) ∧
      t.regs = s.regs) ∧
  (∀ (s : State) (r : Req), r ≠ .partner → ∃ t, exec (.tephResume r 0x7E9A) s = .next t ∧
      t.flag R.TEPH_STAT_FROZEN = false ∧
      t.flag R.TEPH_STAT_COUNTING = false ∧
      t.teph.post = none ∧
      t.teph.ring = s.teph.ring) ∧
  (∀ (s : State) (r : Req), r ≠ .partner → ∃ t, exec (.tephClear r 0x7E9A) s = .next t ∧
      t.teph.ring = [] ∧
      t.get R.TEPH_STAT_HELD = 0 ∧
      t.flag R.TEPH_STAT_FROZEN = false ∧
      t.get R.TEPH_HEAD = s.get R.TEPH_HEAD) ∧
  (∀ (s : State) (r : Req) (key : Nat), (key ≠ 0x7E9A ∨ r = .partner) → ∃ t, exec (.tephClear r key) s = .next t ∧
      t.teph.ring = s.teph.ring ∧
      t.teph.nextId = s.teph.nextId + 1) ∧
  (∀ (s : State) (cause : Nat), s.teph.saveDue = some cause → s.rst.pfHeld = [] → ∃ t, exec (.tephraSave) s = .next t ∧
      t.teph.saveDue = none ∧
      (((if (s.nv.saveA.map (·.age + 1)).getD 0 ≤ (s.nv.saveB.map (·.age + 1)).getD 0 then t.nv.saveA else t.nv.saveB).map (fun a => (a.cause, a.entries))) = some (cause, s.teph.saveCut.getD s.saveWindow)) ∧
      (if (s.nv.saveA.map (·.age + 1)).getD 0 ≤ (s.nv.saveB.map (·.age + 1)).getD 0 then t.nv.saveB = s.nv.saveB else t.nv.saveA = s.nv.saveA)) ∧
  (∀ (s : State), s.teph.saveDue = none → ∃ t, exec (.tephraSave) s = .next t ∧
      t.nv = s.nv ∧
      t.teph = s.teph) ∧
  (∀ (s : State), ∃ t, exec (.corrSummary) s = .next t ∧
      t.fab.corr = [] ∧
      t.teph.nextId = s.teph.nextId + s.fab.corr.length) ∧
  (∀ (s : State), ∃ t, exec (.alertTimeout) s = .next t ∧
      (t = if s.pins.alertEn then { s with pins := { s.pins with alert := false } } else s)) ∧
  (∀ (s : State), ∃ t, exec (.aoSupplyFall) s = .next t ∧
      t = { s with pins := { s.pins with pwrFailHiZ := true } }) ∧
  (∀ (s : State), s.pins.pwrFail = true → ∃ t, exec (.mainsReturn) s = .next t ∧
      t.rst.hold = .por ∧
      (s.teph.saveDue = none → t.nv = s.nv)) ∧
  (∀ (s : State), s.pins.pwrFail = false → ∃ t, exec (.mainsReturn) s = .next t ∧
      t = s)

/-- BUF_REGISTER with VALID outside a pair leaves the buffer VALID with no error when the checks pass, else not VALID and UNREGISTERED (state 3) with the code; in use it answers 0x42. A write into no registered buffer, or one the guard passes, reaches exactly its bytes of DRAM. A write that falls in a RELEASING buffer under HOLD is held, counted and flagged and DRAM stays; behind a held write of the same requester it queues; on the MIRROR a write into a registered buffer is dropped. A release writes the bytes of a held write whose buffers are free and leaves one whose buffer is not; a held write that has waited a frame period completes and is counted.

Each clause concludes that exec answers a next state. Commands it says so of: bufRegister, guardedWrite, heldWriteRelease, guardExpiry. -/
def Obligations.BuffersRegisterAndTheGuardHolds : Prop :=
  (∀ (s : State) (r : Req) (b data : Nat), let code := (s.put R.COMP_BUF_FMT_VALID 0 b).bufCheck b (data % 2)
      b < 16 → s.isMirror = false → s.isActive = false → (s.get R.COMP_BUF_STAT_STATE b ≠ 1 ∧ s.get R.COMP_BUF_STAT_STATE b ≠ 2) → data.testBit 31 = true → ∃ t, exec (.bufRegister r b data) s = .next t ∧
      t.flag R.COMP_BUF_FMT_VALID b = decide (code = 0) ∧
      t.get R.COMP_BUF_FMT_FMT b = data % 2 ∧
      t.get R.COMP_BUF_STAT_ERR b = code % 256 ∧
      (code ≠ 0 → t.get R.COMP_BUF_STAT_STATE b = 3) ∧
      t.dram = s.dram) ∧
  (∀ (s : State) (r : Req) (b data : Nat),
      b < 16 → s.isMirror = false → s.isActive = false → (s.get R.COMP_BUF_STAT_STATE b = 1 ∨ s.get R.COMP_BUF_STAT_STATE b = 2) →
      ∃ t, exec (.bufRegister r b data) s = .next t ∧
      t.get R.COMP_BUF_STAT_ERR b = 0x42 ∧
      t.get R.COMP_BUF_FMT b = s.get R.COMP_BUF_FMT b) ∧
  (∀ (s : State) (blt : Bool) (a : Nat) (bytes : List Byte),
      s.buffersOf a bytes.length = [] → ((if blt then s.comp.heldBlt else s.comp.heldHost) = []) →
      ∃ t, exec (.guardedWrite blt a bytes) s = .next t ∧
      t.readBytes a bytes.length = bytes ∧
      (∀ k, k < a ∨ a + bytes.length ≤ k → t.readByte k = s.readByte k) ∧
      t.regs = s.regs ∧
      t.comp = s.comp) ∧
  (∀ (s : State) (blt : Bool) (a b : Nat) (bytes : List Byte),
      s.isMirror = false → b ∈ s.buffersOf a bytes.length → s.get R.COMP_BUF_STAT_STATE b = 2 → 2 ≤ s.get R.COMP_CTRL_GUARD → ((if blt then s.comp.heldBlt else s.comp.heldHost) = []) →
      ∃ t, exec (.guardedWrite blt a bytes) s = .next t ∧
      ((if blt then t.comp.heldBlt else t.comp.heldHost) = [⟨.bytes a bytes, s.time.raw, true⟩]) ∧
      (b < 16 → t.get R.COMP_BUF_GUARD_HELD b = min (s.get R.COMP_BUF_GUARD_HELD b + 1) 65535) ∧
      (t.word R.COMP_IRQ_STATUS.base).getLsbD 0 = true ∧
      t.dram = s.dram) ∧
  (∀ (s : State) (blt : Bool) (a : Nat) (bytes : List Byte),
      (s.isMirror = false ∨ s.buffersOf a bytes.length = []) → ((if blt then s.comp.heldBlt else s.comp.heldHost) ≠ []) →
      ∃ t, exec (.guardedWrite blt a bytes) s = .next t ∧
      ((if blt then t.comp.heldBlt else t.comp.heldHost) = (if blt then s.comp.heldBlt else s.comp.heldHost) ++ [⟨.bytes a bytes, s.time.raw, false⟩]) ∧
      t.dram = s.dram ∧
      t.regs = s.regs) ∧
  (∀ (s : State) (blt : Bool) (a : Nat) (bytes : List Byte),
      s.isMirror = true → s.buffersOf a bytes.length ≠ [] →
      ∃ t, exec (.guardedWrite blt a bytes) s = .next t ∧
      t.dram = s.dram ∧
      t.comp = s.comp ∧
      t.get R.PAIR_DROP = min (s.get R.PAIR_DROP + 1) (2 ^ R.PAIR_DROP.width - 1)) ∧
  (∀ (s : State) (a n : Nat) (bytes : List Byte) (met : Bool),
      s.comp.heldHost = [⟨.bytes a bytes, n, met⟩] → s.comp.heldBlt = [] → ((s.buffersOf a bytes.length).all (fun b => !s.holds b) = true) →
      ∃ t, exec (.heldWriteRelease) s = .next t ∧
      t.comp.heldHost = [] ∧
      t.readBytes a bytes.length = bytes ∧
      (∀ k, k < a ∨ a + bytes.length ≤ k → t.readByte k = s.readByte k) ∧
      (met = true → t.regs = s.regs)) ∧
  (∀ (s : State) (a n : Nat) (bytes : List Byte) (met : Bool),
      s.comp.heldHost = [⟨.bytes a bytes, n, met⟩] → s.comp.heldBlt = [] → ((s.buffersOf a bytes.length).any (fun b => s.holds b) = true) →
      ∃ t, exec (.heldWriteRelease) s = .next t ∧
      t.comp.heldHost = [⟨.bytes a bytes, n, true⟩] ∧
      t.dram = s.dram) ∧
  (∀ (s : State) (a n : Nat) (bytes : List Byte),
      s.comp.heldHost = [⟨.bytes a bytes, n, true⟩] → s.comp.heldBlt = [] → n + s.framePeriod ≤ s.time.raw →
      ∃ t, exec (.guardExpiry) s = .next t ∧
      t.comp.heldHost = [] ∧
      t.readBytes a bytes.length = bytes ∧
      t.get R.COMP_GUARD_COUNT_EXPIRED = min (s.get R.COMP_GUARD_COUNT_EXPIRED + 1) 65535 ∧
      (t.word R.COMP_IRQ_STATUS.base).getLsbD 1 = true)

/-- SINTER_FLATTEN_START with the cache enabled adds exactly one group with the entries given, its depth the floor of half the sum of its extremes. SINTER_FLATTEN_DONE of a group that runs: a codec failure drops it and sets LZC's flag 3; a group whose member changed is dropped; one that does not fit the cache is dropped with COMP's flag 5; else it is flattened with its expansion in pool tiles, or dropped for want of them.

Each clause concludes that exec answers a next state. Commands it says so of: sinterFlattenStart, sinterFlattenDone. -/
def Obligations.SinterGroupsFlatten : Prop :=
  (∀ (s : State) (region k0 k1 : Nat),
      s.flag R.COMP_CTRL_SINTER_EN = true → s.get R.COMP_SINTER_CAP ≠ 0 → s.isMirror = false → s.get R.LZC_CTRL ≠ 0 → s.candidate region k0 k1 = true →
      ∃ t, exec (.sinterFlattenStart region k0 k1) s = .next t ∧
      t.comp.groups.length = s.comp.groups.length + 1 ∧
      t.comp.groups.getLast? = some ⟨s.comp.nextRef % 0xFFFF, region, k0, k1, s.rearmost k1, false, false, false, 0, [], s.groupDepth k0 k1⟩ ∧
      t.regs = s.regs ∧
      t.dram = s.dram) ∧
  (∀ (s : State) (ref : Nat) (g : SinterGroup),
      (s.comp.groups.find? (fun g => g.ref = ref && !g.flattened) = some g) →
      ∃ t, exec (.sinterFlattenDone ref false) s = .next t ∧
      (t.comp.groups = s.comp.groups.filter (fun x => x.ref ≠ ref)) ∧
      (t.word R.LZC_IRQ_STATUS.base).getLsbD 3 = true ∧
      t.dram = s.dram) ∧
  (∀ (s : State) (ref : Nat) (g : SinterGroup),
      (s.comp.groups.find? (fun g => g.ref = ref && !g.flattened) = some g) → g.stale = true →
      ∃ t, exec (.sinterFlattenDone ref true) s = .next t ∧
      t = s.dropGroup ref) ∧
  (∀ (s : State) (ref : Nat) (g : SinterGroup),
      s.comp.groups = [g] → g.ref = ref → g.flattened = false → g.stale = false →
      ∃ t, exec (.sinterFlattenDone ref true) s = .next t ∧
      t.comp.groups.length ≤ 1 ∧
      (t.comp.groups.all (fun x => x.ref = ref && x.flattened && x.size ≤ s.get R.COMP_SINTER_CAP * mib && x.expansion.length = (s.groupGrid g).length) = true) ∧
      t.comp.caldera = s.comp.caldera)

/-- The first SIGNATURE_CHECK in a frame of an enabled region that is not BAD in its phase of a new frame with no safe image: while learning, EXPECT takes the signature; equal to EXPECT, MATCH is 1 and the run ends; else MATCH is 0, MISMATCHES counts and the region's bit is set. Otherwise SKIPPED counts. SIG_LEARN, SAFE_RELEASE and SAFE_FORCE outside a pair are remembered. READY_TIMEOUT lets the stack play; CAL_INDEX_WRITE latches the four words of the entry.

Each clause concludes that exec answers a next state. Commands it says so of: signatureCheck, sigLearn, safeRelease, safeForce, readyTimeout, calIndexWrite. -/
def Obligations.RegionSignaturesAndTheSafeImage : Prop :=
  (∀ (s : State) (r : Nat), let learning := s.comp.learn.testBit r
      let same := decide (s.regionSig r = s.get R.COMP_SIG_EXPECT r)
      r < 16 → s.flag R.COMP_SIG_CFG_EN r = true → s.flag R.COMP_SIG_STAT_BAD r = false → s.comp.checked.contains r = false → s.intk.outcome = 0 → s.flag R.COMP_SAFE_STAT_ACTIVE = false → s.renderPhase (s.get R.COMP_SIG_CFG_PHASE r) = s.get R.COMP_SIG_CFG_PHASE r → s.comp.sigRun.length = 16 → ∃ t, exec (.signatureCheck r) s = .next t ∧
      t.get R.COMP_SIG_LAST r = s.regionSig r % 2 ^ 32 ∧
      (learning = true → t.get R.COMP_SIG_EXPECT r = s.regionSig r % 2 ^ 32 ∧ t.comp.learn.testBit r = false) ∧
      (learning = false → t.flag R.COMP_SIG_STAT_MATCH r = same) ∧
      (learning = false → same = true → t.comp.sigRun.getD r 0 = 0) ∧
      (learning = false → same = false → t.comp.sigRun.getD r 0 = s.comp.sigRun.getD r 0 + 1 ∧ (t.get R.COMP_SIG_MISMATCH).testBit r = true)) ∧
  (∀ (s : State) (r : Nat),
      r < 16 → s.flag R.COMP_SIG_CFG_EN r = true → s.flag R.COMP_SIG_STAT_BAD r = false → s.comp.checked.contains r = false → (s.intk.outcome ≠ 0 ∨ s.flag R.COMP_SAFE_STAT_ACTIVE = true) →
      ∃ t, exec (.signatureCheck r) s = .next t ∧
      t.get R.COMP_SIG_STAT_SKIPPED r = min (s.get R.COMP_SIG_STAT_SKIPPED r + 1) (2 ^ R.COMP_SIG_STAT_SKIPPED.width - 1) ∧
      t.get R.COMP_SIG_LAST r = s.get R.COMP_SIG_LAST r) ∧
  (∀ (s : State) (r : Nat), s.comp.checked.contains r = true → ∃ t, exec (.signatureCheck r) s = .next t ∧
      t = s) ∧
  (∀ (s : State) (r : Req) (i : Nat), i < 16 → (s.isMirror = false ∧ s.isActive = false) → ∃ t, exec (.sigLearn r i) s = .next t ∧
      t.comp.learn.testBit i = true ∧
      t.regs = s.regs) ∧
  (∀ (s : State) (r : Req), (s.isMirror = false ∧ s.isActive = false) → ∃ t, exec (.safeRelease r) s = .next t ∧
      t.comp.safeRelease = true ∧ t.comp.safeDue = none ∧
      t.comp.safeForce = s.comp.safeForce ∧
      t.regs = s.regs) ∧
  (∀ (s : State) (r : Req), (s.isMirror = false ∧ s.isActive = false) → ∃ t, exec (.safeForce r) s = .next t ∧
      t.comp.safeForce = true ∧
      t.comp.safeRelease = s.comp.safeRelease ∧
      t.regs = s.regs) ∧
  (∀ (s : State), s.comp.coreExit.isSome = true → s.flag R.COMP_STAT_READY = false → ∃ t, exec (.readyTimeout) s = .next t ∧
      t.comp.coreExit = none ∧
      t.pseq.waitReady = false ∧
      t.flag R.COMP_STAT_READY = false) ∧
  (∀ (s : State) (r : Req) (data : Nat), ∃ t, exec (.calIndexWrite r data) s = .next t ∧
      t.get R.COMP_CAL_INDEX = data % 2 ^ 20 ∧
      (∀ w, w < 4 → t.get R.COMP_CAL_DATA w = (descWords (data % 2 ^ 20) (s.desc (data % 2 ^ 20))).getD w 0 % 2 ^ 32) ∧
      t.comp = s.comp)

/-- A port reset counts, drops the link and clears MSI-X enables, BAR2_BASE and the host's mask; a function level reset counts and keeps the link. HOST_LINK_UP reports generation and width. A BAR2 write that passes the checks, clean in DRAM and not held by the guard, changes exactly the bytes at BASE × 2 MiB plus its offset; a read answers them; a failing access counts, is captured with its cause and answered as an abort or a drop. While the ROM waits for an image, BAR2 is the boot SRAM. Behind held accesses, or while the controllers hold requests, it waits.

Each clause concludes that exec answers a next state. Commands it says so of: hostPortReset, functionLevelReset, hostLinkUp, bar2Access. -/
def Obligations.HostPortResetsAndBar2 : Prop :=
  (∀ (s : State), ∃ t, exec (.hostPortReset) s = .next t ∧
      t.get R.HOST_RESETS_PORT = min (s.get R.HOST_RESETS_PORT + 1) 65535 ∧
      t.flag R.HOST_LINK_DL_UP = false ∧
      (t.get R.HOST_LINK_DOWNS = (if s.flag R.HOST_LINK_DL_UP then min (s.get R.HOST_LINK_DOWNS + 1) (2 ^ R.HOST_LINK_DOWNS.width - 1) else s.get R.HOST_LINK_DOWNS)) ∧
      t.host.msixEnable = false ∧ t.host.functionMask = false ∧
      t.get R.HOST_BAR2_BASE = 0 ∧
      t.intk.dma = none ∧
      t.dram = s.dram) ∧
  (∀ (s : State), ∃ t, exec (.functionLevelReset) s = .next t ∧
      t.get R.HOST_RESETS_FLR = min (s.get R.HOST_RESETS_FLR + 1) 65535 ∧
      t.get R.HOST_LINK = s.get R.HOST_LINK ∧
      t.host.msixEnable = false ∧ t.host.functionMask = false ∧
      t.get R.HOST_BAR2_BASE = 0 ∧
      t.dram = s.dram) ∧
  (∀ (s : State) (gen width : Nat),
      (1 ≤ gen ∧ gen ≤ 5) → (width = 1 ∨ width = 2 ∨ width = 4 ∨ width = 8) →
      ∃ t, exec (.hostLinkUp gen width) s = .next t ∧
      t.get R.HOST_LINK_GEN = gen ∧
      t.get R.HOST_LINK_WIDTH = width ∧
      t.flag R.HOST_LINK_DL_UP = true ∧
      (t.word R.HOST_IRQ_STATUS.base).getLsbD 0 = true) ∧
  (∀ (s : State) (off len : Nat) (d : List Byte), let a := s.get R.HOST_BAR2_BASE * 2 ^ 21 + off
      d ≠ [] → off + d.length ≤ 2 ^ 28 → s.bootWindow = false → s.memOpen = true → s.bar2Cause true a d.length = 0 → s.buffersOf a d.length = [] → s.comp.heldHost = [] → s.frozenAt a = false → ∃ t, exec (.bar2Access off len (some d) .clean) s = .next t ∧
      t.readBytes a d.length = d ∧
      (∀ k, k < a ∨ a + d.length ≤ k → t.readByte k = s.readByte k) ∧
      t.bus.resp = .done ∧
      t.regs = s.regs) ∧
  (∀ (s : State) (off len : Nat), let a := s.get R.HOST_BAR2_BASE * 2 ^ 21 + off
      len ≠ 0 → off + len ≤ 2 ^ 28 → s.bootWindow = false → (s.comp.heldHost = [] ∧ s.memOpen = true) → s.bar2Cause false a len = 0 → s.frozenAt a = false → ∃ t, exec (.bar2Access off len none .clean) s = .next t ∧
      t.bus.resp = .bytes (s.readBytes a len) ∧
      { t with bus := s.bus } = s) ∧
  (∀ (s : State) (off len cause : Nat) (data : Option (List Byte)) (ecc : EccOutcome),
      let n := match data with | some d => d.length | none => len
      n ≠ 0 → off + n ≤ 2 ^ 28 → s.bootWindow = false → (s.comp.heldHost = [] ∧ s.memOpen = true) → s.bar2Cause data.isSome (s.get R.HOST_BAR2_BASE * 2 ^ 21 + off) n = cause → cause ≠ 0 →
      ∃ t, exec (.bar2Access off len data ecc) s = .next t ∧
      t.get R.HOST_BAR2_ERR = min (s.get R.HOST_BAR2_ERR + 1) (2 ^ R.HOST_BAR2_ERR.width - 1) ∧
      t.get R.HOST_BAR2_LAST_CAUSE = cause ∧
      t.get R.HOST_BAR2_LAST_OFFSET = off % 2 ^ 28 ∧
      t.flag R.HOST_BAR2_LAST_WRITE = data.isSome ∧
      (t.word R.HOST_IRQ_STATUS.base).getLsbD 1 = true ∧
      (t.bus.resp = (if data.isSome then .dropped else .completerAbort)) ∧
      t.dram = s.dram) ∧
  (∀ (s : State) (off len : Nat) (d : List Byte) (ecc : EccOutcome),
      s.bootWindow = true → s.comp.heldHost = [] → d ≠ [] → off + d.length ≤ 8388608 →
      ∃ t, exec (.bar2Access off len (some d) ecc) s = .next t ∧
      (∀ i, i < d.length → Sparse.get dramDefault t.rst.bootSram (off + i) = d.getD i 0) ∧
      t.bus.resp = .done ∧
      t.dram = s.dram ∧
      t.regs = s.regs) ∧
  (∀ (s : State) (off len : Nat) (data : Option (List Byte)) (ecc : EccOutcome),
      (s.comp.heldHost ≠ [] ∨ (s.memOpen = false ∧ s.bootWindow = false)) →
      ∃ t, exec (.bar2Access off len data ecc) s = .next t ∧
      t.comp.heldHost = s.comp.heldHost ++ [⟨.bar2 none off len data ecc, s.time.raw, false⟩] ∧
      { t with comp := s.comp } = s)

/-- On an existing port of a trained cage every frame counts in RX; one with a bad FCS counts FCS_ERR and goes no further; a pause frame, one over 9,216 bytes or of another VLAN, and one nobody takes counts RX_DROP; the caretaker answers ARP and neighbour solicitations for its own addresses, echo requests and membership queries, and forms an address from a router's prefix. CAGE_RETRAIN_DONE ends the retraining of a cage and brings up the ports named. QSFP_PLUG reports presence and class and refuses power above 3.5 W. ETH_LINK_CHANGE down clears LINK and SPEED. A renewed lease is the port's address, an expired one is dropped.

Each clause concludes that exec answers a next state. Commands it says so of: ethFrame, cageRetrainDone, qsfpPlug, ethLinkChange, dhcpLeaseTimer. -/
def Obligations.EthernetPortsCountDropAndTrain : Prop :=
  (∀ (s : State) (p : Nat) (f : EthFrame),
      s.portExists p = true → (s.host.cages.contains (p / 4) = false ∧ s.powerDown = false) → f.fcsOk = false →
      ∃ t, exec (.ethFrame p f) s = .next t ∧
      t.get R.ETH_PORT_RX p = (s.get R.ETH_PORT_RX p + 1) % 2 ^ 64 ∧
      t.get R.ETH_PORT_ERR_FCS_ERR p = min (s.get R.ETH_PORT_ERR_FCS_ERR p + 1) 65535 ∧
      t.get R.ETH_PORT_ERR_RX_DROP p = s.get R.ETH_PORT_ERR_RX_DROP p ∧
      t.intk = s.intk ∧ t.time = s.time ∧ t.dram = s.dram) ∧
  (∀ (s : State) (p : Nat) (f : EthFrame),
      s.portExists p = true → (s.host.cages.contains (p / 4) = false ∧ s.powerDown = false) → f.fcsOk = true → (f.pause = true ∨ 9216 < f.len ∨ f.vlan ≠ s.get R.ETH_PORT_CFG_VLAN p ∨ f.kind = .other) →
      ∃ t, exec (.ethFrame p f) s = .next t ∧
      t.get R.ETH_PORT_RX p = (s.get R.ETH_PORT_RX p + 1) % 2 ^ 64 ∧
      t.get R.ETH_PORT_ERR_FCS_ERR p = s.get R.ETH_PORT_ERR_FCS_ERR p ∧
      t.get R.ETH_PORT_ERR_RX_DROP p = min (s.get R.ETH_PORT_ERR_RX_DROP p + 1) 65535 ∧
      t.intk = s.intk ∧ t.time = s.time ∧ t.dram = s.dram ∧ t.out = s.out) ∧
  (∀ (s : State) (p len a : Nat),
      s.portExists p = true → (s.host.cages.contains (p / 4) = false ∧ s.powerDown = false) → len ≤ 9216 → a ≠ 0 →
      ∃ t, exec (.ethFrame p ⟨true, false, len, s.get R.ETH_PORT_CFG_VLAN p, .care (.arp a)⟩) s = .next t ∧
      t.get R.ETH_PORT_RX p = (s.get R.ETH_PORT_RX p + 1) % 2 ^ 64 ∧
      (t.out = (if a = s.ipv4 p then [.frame p (s.get R.ETH_PORT_CFG_VLAN p) (.arp a)] else []) ++ s.out) ∧
      t.host = s.host ∧ t.dram = s.dram ∧ t.intk = s.intk) ∧
  (∀ (s : State) (p len w : Nat),
      s.portExists p = true → (s.host.cages.contains (p / 4) = false ∧ s.powerDown = false) → len ≤ 9216 →
      ∃ t, exec (.ethFrame p ⟨true, false, len, s.get R.ETH_PORT_CFG_VLAN p, .care (.echo (decide (w = 6)))⟩) s = .next t ∧
      t.get R.ETH_PORT_RX p = (s.get R.ETH_PORT_RX p + 1) % 2 ^ 64 ∧
      t.out = .frame p (s.get R.ETH_PORT_CFG_VLAN p) (.echo (decide (w = 6))) :: s.out ∧
      t.host = s.host ∧ t.dram = s.dram) ∧
  (∀ (s : State) (p len : Nat) (a : List Nat),
      s.portExists p = true → (s.host.cages.contains (p / 4) = false ∧ s.powerDown = false) → len ≤ 9216 →
      ∃ t, exec (.ethFrame p ⟨true, false, len, s.get R.ETH_PORT_CFG_VLAN p, .care (.solicit a)⟩) s = .next t ∧
      t.get R.ETH_PORT_RX p = (s.get R.ETH_PORT_RX p + 1) % 2 ^ 64 ∧
      (t.out = (if (s.ipv6 p).contains a then [.frame p (s.get R.ETH_PORT_CFG_VLAN p) (.neighbour a)] else []) ++ s.out) ∧
      t.host = s.host ∧ t.dram = s.dram) ∧
  (∀ (s : State) (p len x : Nat),
      s.portExists p = true → (s.host.cages.contains (p / 4) = false ∧ s.powerDown = false) → len ≤ 9216 →
      ∃ t, exec (.ethFrame p ⟨true, false, len, s.get R.ETH_PORT_CFG_VLAN p, .care (.router (some x))⟩) s = .next t ∧
      t.get R.ETH_PORT_RX p = (s.get R.ETH_PORT_RX p + 1) % 2 ^ 64 ∧
      (t.ipv6 p).contains ([x / 2 ^ 32 % 2 ^ 32, x % 2 ^ 32] ++ interfaceId (s.get R.ETH_PORT_MAC p)) = true ∧
      t.out = s.out) ∧
  (∀ (s : State) (p len w : Nat),
      s.portExists p = true → (s.host.cages.contains (p / 4) = false ∧ s.powerDown = false) → len ≤ 9216 →
      ∃ t, exec (.ethFrame p ⟨true, false, len, s.get R.ETH_PORT_CFG_VLAN p, .care (.query (decide (w = 6)))⟩) s = .next t ∧
      t.get R.ETH_PORT_RX p = (s.get R.ETH_PORT_RX p + 1) % 2 ^ 64 ∧
      t.out = .frame p (s.get R.ETH_PORT_CFG_VLAN p) (s.joined p (decide (w = 6))) :: s.out ∧
      t.host = s.host ∧ t.dram = s.dram) ∧
  (∀ (s : State) (c p : Nat),
      s.host.cages = [c] → p / 4 = c → (s.portExists p = true ∧ s.powerDown = false) → s.flag R.ETH_CAGE_STAT_POWER_DENIED c = false →
      ∃ t, exec (.cageRetrainDone c [p]) s = .next t ∧
      t.host.cages = [] ∧
      t.flag R.ETH_PORT_STAT_LINK p = true ∧
      (s.flag R.ETH_PORT_STAT_LINK p = false → t.get R.ETH_PORT_STAT_SPEED p = cageSpeed (s.get R.ETH_CAGE_CTRL c))) ∧
  (∀ (s : State) (c cls mw : Nat), c < 2 → ∃ t, exec (.qsfpPlug c (some (cls, mw))) s = .next t ∧
      t.flag R.ETH_CAGE_STAT_PRESENT c = true ∧
      t.get R.ETH_CAGE_STAT_CLASS c = cls % 2 ^ R.ETH_CAGE_STAT_CLASS.width ∧
      t.flag R.ETH_CAGE_STAT_POWER_DENIED c = decide (3500 < mw) ∧
      (∀ p, p < 8 → 3500 < mw → p / 4 = c → t.flag R.ETH_PORT_STAT_LINK p = false)) ∧
  (∀ (s : State) (c : Nat), c < 2 → ∃ t, exec (.qsfpPlug c none) s = .next t ∧
      t.get R.ETH_CAGE_STAT c = 0 ∧
      (∀ p, p < 8 → p / 4 = c → t.flag R.ETH_PORT_STAT_LINK p = false)) ∧
  (∀ (s : State) (p : Nat), p < 8 → s.flag R.ETH_PORT_STAT_LINK p = true → ∃ t, exec (.ethLinkChange p false) s = .next t ∧
      t.flag R.ETH_PORT_STAT_LINK p = false ∧
      t.get R.ETH_PORT_STAT_SPEED p = 0 ∧
      (t.word R.ETH_IRQ_STATUS.base).getLsbD p = true) ∧
  (∀ (s : State) (p a : Nat),
      p < 8 → s.flag R.ETH_PORT_STAT_DHCP p = true → s.get R.ETH_PORT_IPV4 p = 0 →
      ∃ t, exec (.dhcpLeaseTimer p (some a) false) s = .next t ∧
      t.ipv4 p = a % 2 ^ 32 ∧
      t.flag R.ETH_PORT_STAT_DHCP p = true) ∧
  (∀ (s : State) (p : Nat), p < 8 → s.flag R.ETH_PORT_STAT_DHCP p = true → ∃ t, exec (.dhcpLeaseTimer p none true) s = .next t ∧
      t.flag R.ETH_PORT_STAT_DHCP p = false ∧
      t.ipv4 p = s.get R.ETH_PORT_IPV4 p)

/-- A DisplayPort link that trains within MAX_RATE while HPD is asserted sets VIDEO, RATE and LANES. An HDCP state is reported. A monitor's hot plug trains DPTX as enabled and reads its EDID; unplugging drops the link. PREVIEW_FRAME counts and restarts the line; with SRC 1 a surface outside the host area sets SRC_ERR, with SRC 0 the newest complete capture is shown and STALE cleared. PREVIEW_CAPTURE_DONE fills the buffer not shown, every word 0 when the content is protected, and says so.

Each clause concludes that exec answers a next state. Commands it says so of: dpLinkTrained, hdcpStateChange, dptxHotplug, previewFrame, previewCaptureDone. -/
def Obligations.DisplayPortAndPreview : Prop :=
  (∀ (s : State) (rate lanes : Nat),
      s.dpHpd = true → rate ≤ s.get R.DPRX_CTRL_MAX_RATE → (lanes = 1 ∨ lanes = 2 ∨ lanes = 4) →
      ∃ t, exec (.dpLinkTrained rate lanes) s = .next t ∧
      t.get R.DPRX_STAT_RATE = rate ∧
      t.get R.DPRX_STAT_LANES = lanes ∧
      t.flag R.DPRX_STAT_VIDEO = true ∧
      (t.word R.DPRX_IRQ_STATUS.base).getLsbD 0 = true) ∧
  (∀ (s : State) (v : Nat), v < 4 → (s.flag R.DPRX_CTRL_HDCP_EN = true ∨ v = 0) → ∃ t, exec (.hdcpStateChange v) s = .next t ∧
      t.get R.DPRX_STAT_HDCP = v ∧
      (t.word R.DPRX_IRQ_STATUS.base).getLsbD 2 = true) ∧
  (∀ (s : State) (rate lanes : Nat) (ten : Bool) (edid : List Byte),
      s.flag R.DPTX_CTRL_EN = true → rate < 4 → (lanes = 1 ∨ lanes = 2 ∨ lanes = 4) →
      ∃ t, exec (.dptxHotplug true rate lanes ten edid) s = .next t ∧
      t.flag R.DPTX_STAT_HPD = true ∧
      t.flag R.DPTX_STAT_TRAINED = true ∧
      t.get R.DPTX_STAT_RATE = min rate (s.get R.DPTX_CTRL_MAX_RATE) ∧
      t.get R.DPTX_STAT_LANES = lanes ∧
      t.host.sink = some (rate, lanes, ten) ∧
      (∀ i, i < 64 → t.get R.DPTX_EDID i = leAt edid (4 * i) 4)) ∧
  (∀ (s : State) (rate lanes : Nat) (ten : Bool) (edid : List Byte),
      
      ∃ t, exec (.dptxHotplug false rate lanes ten edid) s = .next t ∧
      t.flag R.DPTX_STAT_HPD = false ∧
      t.flag R.DPTX_STAT_TRAINED = false ∧
      t.flag R.DPTX_STAT_TEN_BIT = false ∧
      t.host.sink = none) ∧
  (∀ (s : State), s.flag R.PREV_CTRL_SRC = true → ∃ t, exec (.previewFrame) s = .next t ∧
      t.get R.PREV_FRAME = (s.get R.PREV_FRAME + 1) % 2 ^ R.PREV_FRAME.width ∧
      t.prevLine = 0 ∧
      t.flag R.PREV_STAT_SRC_ERR = !s.surfaceOk ∧
      t.host = { s.host with frameAt := s.time.raw } ∧
      (s.surfaceOk = true → s.flag R.PREV_CTRL_EN = true → s.flag R.DPTX_STAT_TRAINED = true → s.flag R.DPTX_STAT_BW_ERR = false → s.get R.PREV_FMT ≠ 3 → t.out = .preview (s.get R.PREV_FMT) ((s.get R.PREV_HTIME_HACT - s.surfacePic.w) / 2) ((s.get R.PREV_VTIME_VACT - s.surfacePic.h) / 2) s.surfacePic.w s.surfacePic.words :: s.out)) ∧
  (∀ (s : State) (b : Nat), s.flag R.PREV_CTRL_SRC = false → s.host.prevNew = some b → ∃ t, exec (.previewFrame) s = .next t ∧
      t.get R.PREV_FRAME = (s.get R.PREV_FRAME + 1) % 2 ^ R.PREV_FRAME.width ∧
      t.get R.PREV_STAT_BUFFER = b % 2 ∧
      t.flag R.PREV_STAT_STALE = false ∧
      t.host.prevNew = none) ∧
  (∀ (s : State), let b := 1 - s.get R.PREV_STAT_BUFFER
      s.host.capDone = true → s.flag R.PREV_CTRL_SRC = false → ∃ t, exec (.previewCaptureDone) s = .next t ∧
      t.host.prevNew = some b ∧
      ((if b = 0 then t.host.prev0 else t.host.prev1) = s.prevImage) ∧
      (if b = 0 then t.host.prev1 = s.host.prev1 else t.host.prev0 = s.host.prev0) ∧
      t.flag R.PREV_STAT_PROTECTED = s.prevProtected ∧
      (s.prevProtected = true → (if b = 0 then t.host.prev0 else t.host.prev1).words.all (fun w => w = 0) = true))

/-- SEC_SVN_COMMIT with the right key, from host or caretaker: FW to the running firmware's version, PERS to the active slot's version. At or below the counter it ends at once without error; with all 64 rows used it ends with 0x64; without an active slot PERS ends with 0x04, above the firmware's BASE_SVN with 0x63; else BUSY is set and the commit queued. Rows being programmed count. SVN_COMMIT_DONE appends the row of the oldest commit and ends with 0. A wrong key or the partner is ignored. DBG_SUBMIT with the right key always consumes the pending challenge and reports the judgement in ERR: with 0, DEBUG is 1, every content key is cleared and HDCP dropped; else FAILED counts and DEBUG stays. Whether a signature verifies is a free value. Without a challenge the code is 0x169. DBG_LOCK clears DEBUG and LEVEL and consumes a challenge. A challenge older than 300 s of RAW is dropped, a key whose NOT_AFTER has passed is cleared.

Each clause concludes that exec answers a next state. Commands it says so of: svnCommitFw, svnCommitPers, svnCommitDone, dbgSubmit, dbgLock, challengeExpiry, keyExpiry. -/
def Obligations.SecurityCommitsAndDebugUnlocks : Prop :=
  (∀ (s : State) (r : Req), let rows := s.otp.fwRows ++ (s.sec.commit.filter (fun c => c.1 = false)).map (fun c => some c.2)
      r ≠ .partner → rowValue rows < s.get R.SEC_FW_SVN → rows.length < 64 → ∃ t, exec (.svnCommitFw r 0x5EC0) s = .next t ∧
      t.sec.commit = s.sec.commit ++ [(false, s.get R.SEC_FW_SVN)] ∧
      t.flag R.SEC_SVN_RESULT_BUSY = true ∧
      t.otp = s.otp) ∧
  (∀ (s : State) (r : Req), let rows := s.otp.fwRows ++ (s.sec.commit.filter (fun c => c.1 = false)).map (fun c => some c.2)
      let code := if s.get R.SEC_FW_SVN ≤ rowValue rows then 0 else 0x64
      r ≠ .partner → (s.get R.SEC_FW_SVN ≤ rowValue rows ∨ 64 ≤ rows.length) → ∃ t, exec (.svnCommitFw r 0x5EC0) s = .next t ∧
      t.get R.SEC_SVN_RESULT_ERR = code ∧
      (t.word R.SEC_IRQ_STATUS.base).getLsbD 0 = true ∧
      t.sec.commit = s.sec.commit ∧
      t.otp = s.otp) ∧
  (∀ (s : State) (r : Req), let v := s.get R.PERS_SLOT_SV s.activeSlot
      let rows := s.otp.persRows ++ (s.sec.commit.filter (fun c => c.1 = true)).map (fun c => some c.2)
      r ≠ .partner → s.flag R.PERS_STATE_ACTIVE_VALID = true → rowValue rows < v → v ≤ s.sec.baseSvn → rows.length < 64 → ∃ t, exec (.svnCommitPers r 0x5EC0) s = .next t ∧
      t.sec.commit = s.sec.commit ++ [(true, v)] ∧
      t.flag R.SEC_SVN_RESULT_BUSY = true ∧
      t.otp = s.otp) ∧
  (∀ (s : State) (r : Req),
      r ≠ .partner → s.flag R.PERS_STATE_ACTIVE_VALID = false →
      ∃ t, exec (.svnCommitPers r 0x5EC0) s = .next t ∧
      t.get R.SEC_SVN_RESULT_ERR = 0x04 ∧
      t.sec.commit = s.sec.commit ∧ t.otp = s.otp) ∧
  (∀ (s : State) (r : Req) (key : Nat), (r = .partner ∨ key ≠ 0x5EC0) → ∃ t, exec (.svnCommitPers r key) s = .next t ∧
      t.sec = s.sec ∧ t.otp = s.otp ∧
      t.get R.SEC_SVN_RESULT = s.get R.SEC_SVN_RESULT) ∧
  (∀ (s : State) (pers : Bool) (v : Nat) (rest : List (Bool × Nat)),
      s.sec.commit = (pers, v) :: rest →
      ∃ t, exec (.svnCommitDone) s = .next t ∧
      (t.otp = (if pers then { s.otp with persRows := s.otp.persRows ++ [some v] } else { s.otp with fwRows := s.otp.fwRows ++ [some v] })) ∧
      t.sec.commit = rest ∧
      t.get R.SEC_SVN_RESULT_ERR = 0 ∧
      t.flag R.SEC_SVN_RESULT_BUSY = !rest.isEmpty ∧
      (t.word R.SEC_IRQ_STATUS.base).getLsbD 0 = true ∧
      (t.get (if pers then R.SEC_SVN_ROWS_PERS else R.SEC_SVN_ROWS_FW) = ((if pers then s.otp.persRows else s.otp.fwRows).length + 1) % 256)) ∧
  (∀ (s : State) (r : Req), r ≠ .partner → ∃ t, exec (.dbgSubmit r 0xDB60) s = .next t ∧
      t.sec.challenge = none ∧
      t.flag R.SEC_STAT_CHALLENGE = false ∧
      t.get R.SEC_DBG_STAT_ERR = s.dbgJudge.1 % 2 ^ R.SEC_DBG_STAT_ERR.width ∧
      (t.flag R.SEC_STAT_DEBUG = (if s.dbgJudge.1 = 0 then true else s.flag R.SEC_STAT_DEBUG)) ∧
      (s.dbgJudge.1 ≠ 0 → t.get R.SEC_DBG_STAT_FAILED = min (s.get R.SEC_DBG_STAT_FAILED + 1) (2 ^ R.SEC_DBG_STAT_FAILED.width - 1)) ∧
      (∀ n, n < 64 → t.flag R.INTK_KEY_STAT_VALID n = (if s.dbgJudge.1 = 0 then false else s.flag R.INTK_KEY_STAT_VALID n))) ∧
  (∀ (s : State) (r : Req), r ≠ .partner → s.sec.challenge = none → ∃ t, exec (.dbgSubmit r 0xDB60) s = .next t ∧
      t.get R.SEC_DBG_STAT_ERR = 0x169 ∧
      t.flag R.SEC_STAT_DEBUG = s.flag R.SEC_STAT_DEBUG ∧
      (t.word R.SEC_IRQ_STATUS.base).getLsbD 2 = true) ∧
  (∀ (s : State) (r : Req), r ≠ .partner → ∃ t, exec (.dbgLock r 0xDB60) s = .next t ∧
      t.flag R.SEC_STAT_DEBUG = false ∧
      t.get R.SEC_STAT_DEBUG_LEVEL = 0 ∧
      t.sec.challenge = none ∧
      (s.flag R.SEC_STAT_DEBUG = true → (t.word R.SEC_IRQ_STATUS.base).getLsbD 1 = true)) ∧
  (∀ (s : State) (nonce : List Byte) (n : Nat),
      s.sec.challenge = some (nonce, n) → n + challengeLife ≤ s.time.raw →
      ∃ t, exec (.challengeExpiry) s = .next t ∧
      t.sec.challenge = none ∧
      t.flag R.SEC_STAT_CHALLENGE = false) ∧
  (∀ (s : State) (n : Nat) (x : KeySlot),
      n < 64 → (s.intk.keys.find? (fun y => y.slot = n) = some x) → x.notAfter ≠ 0 → x.notAfter ≤ s.now →
      ∃ t, exec (.keyExpiry n) s = .next t ∧
      (t.intk.keys.find? (fun y => y.slot = n) = none) ∧
      (t.sec.blobs.find? (fun y => y.1 = n) = none) ∧
      t.flag R.INTK_KEY_STAT_VALID n = false ∧
      t.flag R.INTK_KEY_STAT_IN_USE n = false ∧
      (t.word R.SEC_IRQ_STATUS.base).getLsbD 4 = true)

/-- A post by the mailbox's sender: with FULL 0 the word is stored, FULL is set, ACKED cleared and, for the host's mailboxes, MBX_IN set; with FULL 1 the word is not stored, REJECTED advances and the event is recorded. An acknowledgement by the receiver clears FULL, sets ACKED and RET, and for the host's commands MBX_ACKED. A withdrawal by the sender of mailboxes 0 to 15 ends the wait with 0xFFFF. An access of anyone else changes no mailbox and counts as stray.

Each clause concludes that exec answers a next state. Commands it says so of: mbxPost, mbxAck, mbxWithdraw. -/
def Obligations.MailboxesPostAcknowledgeWithdraw : Prop :=
  (∀ (s : State) (m : Nat) (word : Word),
      m < 32 → s.flag R.CARE_MBX_STAT_FULL m = false →
      ∃ t, exec (.mbxPost (mbxSender m) m word) s = .next t ∧
      t.get R.CARE_MBX_DATA m = word.toNat ∧
      t.flag R.CARE_MBX_STAT_FULL m = true ∧
      t.flag R.CARE_MBX_STAT_ACKED m = false ∧
      (8 ≤ m → m < 16 → (t.word R.CARE_IRQ_STATUS.base).getLsbD 0 = true) ∧
      (∀ k, k < 32 → k ≠ m → t.get R.CARE_MBX_DATA k = s.get R.CARE_MBX_DATA k ∧ t.get R.CARE_MBX_STAT k = s.get R.CARE_MBX_STAT k)) ∧
  (∀ (s : State) (m : Nat) (word : Word),
      m < 32 → s.flag R.CARE_MBX_STAT_FULL m = true →
      ∃ t, exec (.mbxPost (mbxSender m) m word) s = .next t ∧
      t.get R.CARE_MBX_COUNT_REJECTED = min (s.get R.CARE_MBX_COUNT_REJECTED + 1) (2 ^ R.CARE_MBX_COUNT_REJECTED.width - 1) ∧
      (∀ k, k < 32 → t.get R.CARE_MBX_DATA k = s.get R.CARE_MBX_DATA k ∧ t.get R.CARE_MBX_STAT k = s.get R.CARE_MBX_STAT k) ∧
      (s.flag R.TEPH_STAT_FROZEN = false → s.teph.queue.length < 64 → t.teph.queue.length = s.teph.queue.length + 1) ∧
      (s.flag R.TEPH_STAT_FROZEN = true ∨ 64 ≤ s.teph.queue.length → (t.word R.TEPH_IRQ_STATUS.base).getLsbD 1 = true)) ∧
  (∀ (s : State) (m ret : Nat),
      m < 32 → s.flag R.CARE_MBX_STAT_FULL m = true → (m ≠ 8 ∨ s.care.notices = []) →
      ∃ t, exec (.mbxAck (mbxReceiver m) m ret) s = .next t ∧
      t.flag R.CARE_MBX_STAT_FULL m = false ∧
      t.flag R.CARE_MBX_STAT_ACKED m = true ∧
      t.get R.CARE_MBX_STAT_RET m = ret % 65536 ∧
      (m < 8 → (t.word R.CARE_IRQ_STATUS.base).getLsbD 1 = true) ∧
      t.get R.CARE_MBX_DATA m = s.get R.CARE_MBX_DATA m) ∧
  (∀ (s : State) (m : Nat),
      m < 16 → s.flag R.CARE_MBX_STAT_FULL m = true → (m ≠ 8 ∨ s.care.notices = []) →
      ∃ t, exec (.mbxWithdraw (mbxSender m) m) s = .next t ∧
      t.flag R.CARE_MBX_STAT_FULL m = false ∧
      t.flag R.CARE_MBX_STAT_ACKED m = true ∧
      t.get R.CARE_MBX_STAT_RET m = 0xFFFF) ∧
  (∀ (s : State) (p : Party) (m : Nat) (word : Word), m < 32 → p ≠ mbxSender m → ∃ t, exec (.mbxPost p m word) s = .next t ∧
      t.get R.CARE_MBX_COUNT_STRAY = min (s.get R.CARE_MBX_COUNT_STRAY + 1) (2 ^ R.CARE_MBX_COUNT_STRAY.width - 1) ∧
      (∀ k, k < 32 → t.get R.CARE_MBX_DATA k = s.get R.CARE_MBX_DATA k ∧ t.get R.CARE_MBX_STAT k = s.get R.CARE_MBX_STAT k) ∧
      t.teph.nextId = s.teph.nextId + 1)

/-- A claim of a free lock makes the claimant its owner; by the owner it changes nothing; on a lock held by another it fails and only FAILED advances. The owner's write of 0 frees the lock. A write of 0 by anyone who is not the owner, on a held or a free lock, leaves every lock as it is, advances STRAY and is recorded.

Each clause concludes that exec answers a next state. Commands it says so of: lockClaim, lockRelease. -/
def Obligations.LocksAreClaimedAndReleased : Prop :=
  (∀ (s : State) (p : Party) (k : Nat), k < 16 → s.get R.CARE_LOCK k = 0 → ∃ t, exec (.lockClaim p k) s = .next t ∧
      t = s.put R.CARE_LOCK p.owner k) ∧
  (∀ (s : State) (p : Party) (k : Nat), k < 16 → s.get R.CARE_LOCK k = p.owner → ∃ t, exec (.lockClaim p k) s = .next t ∧
      t = s) ∧
  (∀ (s : State) (p : Party) (k : Nat),
      k < 16 → s.get R.CARE_LOCK k ≠ 0 → s.get R.CARE_LOCK k ≠ p.owner →
      ∃ t, exec (.lockClaim p k) s = .next t ∧
      t = s.bump R.CARE_LOCK_STAT_FAILED) ∧
  (∀ (s : State) (p : Party) (k : Nat), k < 16 → s.get R.CARE_LOCK k = p.owner → ∃ t, exec (.lockRelease p k) s = .next t ∧
      t = s.put R.CARE_LOCK 0 k) ∧
  (∀ (s : State) (p : Party) (k : Nat), k < 16 → s.get R.CARE_LOCK k ≠ p.owner → ∃ t, exec (.lockRelease p k) s = .next t ∧
      (∀ i, i < 16 → t.get R.CARE_LOCK i = s.get R.CARE_LOCK i) ∧
      t.get R.CARE_LOCK_STAT_STRAY = min (s.get R.CARE_LOCK_STAT_STRAY + 1) (2 ^ R.CARE_LOCK_STAT_STRAY.width - 1) ∧
      (s.flag R.TEPH_STAT_FROZEN = false → s.teph.queue.length < 64 → (t.teph.queue.getLast?.map (fun e => (e.code, e.a0))) = some (0x10, R.CARE_LOCK.off k 0)) ∧
      (s.flag R.TEPH_STAT_FROZEN = true ∨ 64 ≤ s.teph.queue.length → (t.word R.TEPH_IRQ_STATUS.base).getLsbD 1 = true))

/-- With the firmware running and no command in progress: HEALTH returns five results; RESTART of a waiting module restarts it; KEY_LOAD, KEY_ENROLL and ATTEST end with the code of what they do (which rests on free signature values), ATTEST without room or region stores nothing; DEBUG_CHALLENGE issues a nonce and stores 56 bytes; TEPHRA_EXPORT stores the record's gzip in a granted region; PERS_LOAD begins the load of an empty slot; PERS_ACTIVATE requests the activation; CALIBRATE of nothing ends at once; ROLE on a module that does not hold the drive ends with 0x0004; BOOT under the firmware and an unknown operation with 0x0002; a DRAM command before stage 0x08 with 0x0005.

Each clause concludes that exec answers a next state. Commands it says so of: cmdHealth, cmdRestart, cmdKeyLoad, cmdKeyEnroll, cmdAttest, cmdDebugChallenge, cmdTephraExport, cmdPersLoad, cmdPersActivate, cmdCalibrate, cmdRole, cmdBoot, cmdUnknown. -/
def Obligations.CaretakerCommandsEndWithTheirCode : Prop :=
  (∀ (s : State),
      s.commandIs 3 = true → s.flag R.CARE_STAT_ROM = false → s.flag R.CARE_STAT_RUNNING = true → s.rst.hold ≠ .core → s.get R.CARE_MBX_DATA 0 / 65536 = 0 →
      ∃ t, exec (.cmdHealth) s = .next t ∧
      t.get R.CARE_MBX_STAT_RET 0 = 0 ∧
      t.flag R.CARE_MBX_STAT_FULL 0 = false ∧
      t.flag R.CARE_MBX_STAT_ACKED 0 = true ∧
      t.get R.CARE_RES_TAG = s.get R.CARE_MBX_DATA 0 / 256 % 256 ∧
      t.care.running = none ∧
      (t.word R.CARE_IRQ_STATUS.base).getLsbD 1 = true ∧
      t.get R.CARE_RES 0 = s.healthBar ∧
      t.get R.CARE_RES 1 = s.get R.FAB_STAT ∧
      t.get R.CARE_RES 3 = s.get R.PAIR_STAT ∧
      t.get R.CARE_RES 4 = s.trainedChannels) ∧
  (∀ (s : State),
      s.commandIs 0xB = true → s.flag R.CARE_STAT_ROM = false → s.flag R.CARE_STAT_RUNNING = true → s.rst.hold ≠ .core → s.get R.CARE_MBX_DATA 0 / 65536 = 0 → s.flag R.THM_STAT_WAITING = false →
      ∃ t, exec (.cmdRestart) s = .next t ∧
      t.get R.CARE_MBX_STAT_RET 0 = 4 ∧
      t.flag R.CARE_MBX_STAT_FULL 0 = false ∧
      t.flag R.CARE_MBX_STAT_ACKED 0 = true ∧
      t.get R.CARE_RES_TAG = s.get R.CARE_MBX_DATA 0 / 256 % 256 ∧
      t.care.running = none ∧
      (t.word R.CARE_IRQ_STATUS.base).getLsbD 1 = true) ∧
  (∀ (s : State),
      s.commandIs 0xB = true → s.flag R.CARE_STAT_ROM = false → s.flag R.CARE_STAT_RUNNING = true → s.rst.hold ≠ .core → s.get R.CARE_MBX_DATA 0 / 65536 = 0 → s.flag R.THM_STAT_WAITING = true → s.rst.sysEntering = false →
      ∃ t, exec (.cmdRestart) s = .next t ∧
      t.rst.sysEntering = true ∧
      t.flag R.RST_CAUSE_SW_SYS = true ∧
      t.flag R.THM_STAT_WAITING = false ∧
      t.get R.CARE_MBX_STAT_RET 0 = 0) ∧
  (∀ (s : State) (p : Nat), let b := s.readBytes (s.get R.CARE_ARG 0 + 2 ^ 32 * s.get R.CARE_ARG 1) (s.get R.CARE_ARG 2)
      s.commandIs 4 = true → s.flag R.CARE_STAT_ROM = false → s.flag R.CARE_STAT_RUNNING = true → s.rst.hold ≠ .core → 8 ≤ s.get R.RST_STAGE_STAGE → s.get R.CARE_MBX_DATA 0 / 65536 = p → p < 64 → s.careRegion false (s.get R.CARE_ARG 0 + 2 ^ 32 * s.get R.CARE_ARG 1) (s.get R.CARE_ARG 2) = true → ∃ t, exec (.cmdKeyLoad) s = .next t ∧
      t.get R.CARE_MBX_STAT_RET 0 = (s.openBlob b).1 % 65536 ∧
      t.flag R.CARE_MBX_STAT_FULL 0 = false ∧
      t.flag R.CARE_MBX_STAT_ACKED 0 = true ∧
      t.get R.CARE_RES_TAG = s.get R.CARE_MBX_DATA 0 / 256 % 256 ∧
      t.care.running = none ∧
      (t.word R.CARE_IRQ_STATUS.base).getLsbD 1 = true ∧
      ((s.openBlob b).1 = 0 → t.flag R.INTK_KEY_STAT_VALID p = true) ∧
      ((s.openBlob b).1 ≠ 0 → t.intk.keys = s.intk.keys) ∧
      t.get R.CARE_RES 0 = t.get R.INTK_KEY_STAT p) ∧
  (∀ (s : State) (p : Nat), let b := s.readBytes (s.get R.CARE_ARG 0 + 2 ^ 32 * s.get R.CARE_ARG 1) (s.get R.CARE_ARG 2)
      s.commandIs 9 = true → s.flag R.CARE_STAT_ROM = false → s.flag R.CARE_STAT_RUNNING = true → s.rst.hold ≠ .core → 8 ≤ s.get R.RST_STAGE_STAGE → s.get R.CARE_MBX_DATA 0 / 65536 = p → p < 4 → s.careRegion false (s.get R.CARE_ARG 0 + 2 ^ 32 * s.get R.CARE_ARG 1) (s.get R.CARE_ARG 2) = true → ∃ t, exec (.cmdKeyEnroll) s = .next t ∧
      t.get R.CARE_MBX_STAT_RET 0 = (s.enroll p b).2 % 65536 ∧
      t.flag R.CARE_MBX_STAT_FULL 0 = false ∧
      t.flag R.CARE_MBX_STAT_ACKED 0 = true ∧
      t.get R.CARE_RES_TAG = s.get R.CARE_MBX_DATA 0 / 256 % 256 ∧
      t.care.running = none ∧
      (t.word R.CARE_IRQ_STATUS.base).getLsbD 1 = true ∧
      t.otp = (s.enroll p b).1.otp) ∧
  (∀ (s : State),
      s.commandIs 5 = true → s.flag R.CARE_STAT_ROM = false → s.flag R.CARE_STAT_RUNNING = true → s.rst.hold ≠ .core → 8 ≤ s.get R.RST_STAGE_STAGE → s.get R.CARE_MBX_DATA 0 / 65536 = 0 → 5720 ≤ s.get R.CARE_ARG 4 → s.careRegion false (s.get R.CARE_ARG 0 + 2 ^ 32 * s.get R.CARE_ARG 1) 32 = true → s.careRegion true (s.get R.CARE_ARG 2 + 2 ^ 32 * s.get R.CARE_ARG 3) 5720 = true → s.otp.hssFlash < hssTotal →
      ∃ t, exec (.cmdAttest) s = .next t ∧
      t.get R.CARE_MBX_STAT_RET 0 = 0 ∧
      t.flag R.CARE_MBX_STAT_FULL 0 = false ∧
      t.flag R.CARE_MBX_STAT_ACKED 0 = true ∧
      t.get R.CARE_RES_TAG = s.get R.CARE_MBX_DATA 0 / 256 % 256 ∧
      t.care.running = none ∧
      (t.word R.CARE_IRQ_STATUS.base).getLsbD 1 = true ∧
      t.get R.CARE_RES 0 = 5720 ∧
      t.otp.hssFlash = s.otp.hssFlash + 1 ∧
      (∀ k, k < (s.get R.CARE_ARG 2 + 2 ^ 32 * s.get R.CARE_ARG 3) ∨ (s.get R.CARE_ARG 2 + 2 ^ 32 * s.get R.CARE_ARG 3) + (s.report s.otp.hssFlash (s.readBytes (s.get R.CARE_ARG 0 + 2 ^ 32 * s.get R.CARE_ARG 1) 32)).length ≤ k → t.readByte k = s.readByte k) ∧
      t.readLe (s.get R.CARE_ARG 2 + 2 ^ 32 * s.get R.CARE_ARG 3) 4 = 0x54414941) ∧
  (∀ (s : State),
      s.commandIs 5 = true → s.flag R.CARE_STAT_ROM = false → s.flag R.CARE_STAT_RUNNING = true → s.rst.hold ≠ .core → 8 ≤ s.get R.RST_STAGE_STAGE → s.get R.CARE_MBX_DATA 0 / 65536 = 0 → s.get R.CARE_ARG 4 < 5720 →
      ∃ t, exec (.cmdAttest) s = .next t ∧
      t.get R.CARE_MBX_STAT_RET 0 = 3 ∧
      t.flag R.CARE_MBX_STAT_FULL 0 = false ∧
      t.flag R.CARE_MBX_STAT_ACKED 0 = true ∧
      t.get R.CARE_RES_TAG = s.get R.CARE_MBX_DATA 0 / 256 % 256 ∧
      t.care.running = none ∧
      (t.word R.CARE_IRQ_STATUS.base).getLsbD 1 = true ∧
      t.otp = s.otp ∧
      t.dram = s.dram) ∧
  (∀ (s : State),
      s.commandIs 0xA = true → s.flag R.CARE_STAT_ROM = false → s.flag R.CARE_STAT_RUNNING = true → s.rst.hold ≠ .core → 8 ≤ s.get R.RST_STAGE_STAGE → s.get R.CARE_MBX_DATA 0 / 65536 = 0 → 56 ≤ s.get R.CARE_ARG 2 → s.careRegion true (s.get R.CARE_ARG 0 + 2 ^ 32 * s.get R.CARE_ARG 1) 56 = true →
      ∃ t, exec (.cmdDebugChallenge) s = .next t ∧
      t.get R.CARE_MBX_STAT_RET 0 = 0 ∧
      t.flag R.CARE_MBX_STAT_FULL 0 = false ∧
      t.flag R.CARE_MBX_STAT_ACKED 0 = true ∧
      t.get R.CARE_RES_TAG = s.get R.CARE_MBX_DATA 0 / 256 % 256 ∧
      t.care.running = none ∧
      (t.word R.CARE_IRQ_STATUS.base).getLsbD 1 = true ∧
      t.get R.CARE_RES 0 = 56 ∧
      t.flag R.SEC_STAT_CHALLENGE = true ∧
      t.sec.challenge.map (·.2) = some s.time.raw ∧
      t.sec.challenge.map (·.1) = some (t.readBytes ((s.get R.CARE_ARG 0 + 2 ^ 32 * s.get R.CARE_ARG 1) + 16) 32) ∧
      (∀ k, k < (s.get R.CARE_ARG 0 + 2 ^ 32 * s.get R.CARE_ARG 1) ∨ (s.get R.CARE_ARG 0 + 2 ^ 32 * s.get R.CARE_ARG 1) + 56 ≤ k → t.readByte k = s.readByte k)) ∧
  (∀ (s : State), let o := compressAll 2 6 15 s.exportBytes
      s.commandIs 7 = true → s.flag R.CARE_STAT_ROM = false → s.flag R.CARE_STAT_RUNNING = true → s.rst.hold ≠ .core → 8 ≤ s.get R.RST_STAGE_STAGE → s.get R.CARE_MBX_DATA 0 / 65536 = 0 → 557183 ≤ s.get R.CARE_ARG 2 → s.teph.saveDue ≠ some 1 → ∃ t, exec (.cmdTephraExport) s = .next t ∧
      (t.get R.CARE_MBX_STAT_RET 0 = (if s.careRegion true (s.get R.CARE_ARG 0 + 2 ^ 32 * s.get R.CARE_ARG 1) o.length then 0 else 0x117)) ∧
      t.flag R.CARE_MBX_STAT_FULL 0 = false ∧
      t.flag R.CARE_MBX_STAT_ACKED 0 = true ∧
      t.get R.CARE_RES_TAG = s.get R.CARE_MBX_DATA 0 / 256 % 256 ∧
      t.care.running = none ∧
      (t.word R.CARE_IRQ_STATUS.base).getLsbD 1 = true ∧
      (t.dram = (if s.careRegion true (s.get R.CARE_ARG 0 + 2 ^ 32 * s.get R.CARE_ARG 1) o.length then (s.writeBytes (s.get R.CARE_ARG 0 + 2 ^ 32 * s.get R.CARE_ARG 1) o).dram else s.dram))) ∧
  (∀ (s : State) (p : Nat),
      s.commandIs 1 = true → s.flag R.CARE_STAT_ROM = false → s.flag R.CARE_STAT_RUNNING = true → s.rst.hold ≠ .core → 8 ≤ s.get R.RST_STAGE_STAGE → s.get R.CARE_MBX_DATA 0 / 65536 = p → p < 8 → s.careRegion false (s.get R.CARE_ARG 0 + 2 ^ 32 * s.get R.CARE_ARG 1) (s.get R.CARE_ARG 2) = false →
      ∃ t, exec (.cmdPersLoad) s = .next t ∧
      t.get R.CARE_MBX_STAT_RET 0 = 0x117 ∧
      t.flag R.CARE_MBX_STAT_FULL 0 = false ∧
      t.flag R.CARE_MBX_STAT_ACKED 0 = true ∧
      t.get R.CARE_RES_TAG = s.get R.CARE_MBX_DATA 0 / 256 % 256 ∧
      t.care.running = none ∧
      (t.word R.CARE_IRQ_STATUS.base).getLsbD 1 = true ∧
      t.pers = s.pers) ∧
  (∀ (s : State) (p : Nat),
      s.commandIs 1 = true → s.flag R.CARE_STAT_ROM = false → s.flag R.CARE_STAT_RUNNING = true → s.rst.hold ≠ .core → 8 ≤ s.get R.RST_STAGE_STAGE → s.get R.CARE_MBX_DATA 0 / 65536 = p → p < 8 → s.careRegion false (s.get R.CARE_ARG 0 + 2 ^ 32 * s.get R.CARE_ARG 1) (s.get R.CARE_ARG 2) = true → s.slotState p = 0 → s.pers.loading = none → s.pers.waiting = [] → s.pendingOn p = false →
      ∃ t, exec (.cmdPersLoad) s = .next t ∧
      t.get R.PERS_SLOT_STAT_STATE p = 1 ∧
      (t.pers.loading.map (fun x => (x.1, x.2.1, x.2.2.1)) = some (p, t.get R.PERS_SLOT_SRC p, t.get R.PERS_SLOT_LEN p)) ∧
      t.care.running.isSome = true ∧
      t.flag R.CARE_MBX_STAT_FULL 0 = true) ∧
  (∀ (s : State) (p : Nat),
      s.commandIs 2 = true → s.flag R.CARE_STAT_ROM = false → s.flag R.CARE_STAT_RUNNING = true → s.rst.hold ≠ .core → 8 ≤ s.get R.RST_STAGE_STAGE → s.get R.CARE_MBX_DATA 0 / 65536 = p → p < 8 → (s.isMirror = false ∧ s.isActive = false) → s.get R.CARE_ARG 0 = 0 → s.slotState p = 5 → s.pers.pend = none → s.pers.reload = none →
      ∃ t, exec (.cmdPersActivate) s = .next t ∧
      t.pers.pend = some ⟨p, none, 0, none⟩ ∧
      t.care.running.isSome = true ∧
      t.flag R.CARE_MBX_STAT_FULL 0 = true) ∧
  (∀ (s : State),
      s.commandIs 6 = true → s.flag R.CARE_STAT_ROM = false → s.flag R.CARE_STAT_RUNNING = true → s.rst.hold ≠ .core → s.get R.CARE_MBX_DATA 0 / 65536 = 0 →
      ∃ t, exec (.cmdCalibrate) s = .next t ∧
      t.get R.CARE_MBX_STAT_RET 0 = 0 ∧
      t.flag R.CARE_MBX_STAT_FULL 0 = false ∧
      t.flag R.CARE_MBX_STAT_ACKED 0 = true ∧
      t.get R.CARE_RES_TAG = s.get R.CARE_MBX_DATA 0 / 256 % 256 ∧
      t.care.running = none ∧
      (t.word R.CARE_IRQ_STATUS.base).getLsbD 1 = true ∧
      t.get R.CARE_RES 0 = 0 ∧
      t.thm = s.thm) ∧
  (∀ (s : State) (p : Nat),
      s.commandIs 6 = true → s.flag R.CARE_STAT_ROM = false → s.flag R.CARE_STAT_RUNNING = true → s.rst.hold ≠ .core → s.get R.CARE_MBX_DATA 0 / 65536 = p → (0 < p ∧ p < 16) →
      ∃ t, exec (.cmdCalibrate) s = .next t ∧
      t.thm.calCmd = p ∧
      (∀ i, i < 4 → p.testBit i = true → ((t.get R.CAL_STAT_PENDING).testBit i || (t.get R.CAL_STAT_RUNNING).testBit i) = true) ∧
      t.care.running.isSome = true) ∧
  (∀ (s : State),
      s.commandIs 8 = true → s.flag R.CARE_STAT_ROM = false → s.flag R.CARE_STAT_RUNNING = true → s.rst.hold ≠ .core → s.get R.CARE_MBX_DATA 0 / 65536 = 1 → s.isActive = false →
      ∃ t, exec (.cmdRole) s = .next t ∧
      t.get R.CARE_MBX_STAT_RET 0 = 4 ∧
      t.flag R.CARE_MBX_STAT_FULL 0 = false ∧
      t.flag R.CARE_MBX_STAT_ACKED 0 = true ∧
      t.get R.CARE_RES_TAG = s.get R.CARE_MBX_DATA 0 / 256 % 256 ∧
      t.care.running = none ∧
      (t.word R.CARE_IRQ_STATUS.base).getLsbD 1 = true ∧
      t.get R.CARE_RES 0 = s.get R.PAIR_STAT ∧
      t.pair = s.pair) ∧
  (∀ (s : State),
      s.commandIs 8 = true → s.flag R.CARE_STAT_ROM = false → s.flag R.CARE_STAT_RUNNING = true → s.rst.hold ≠ .core → s.get R.CARE_MBX_DATA 0 / 65536 = 1 → s.isActive = true → s.get R.PAIR_FIT_PEER_FIT = 0xFF →
      ∃ t, exec (.cmdRole) s = .next t ∧
      t.pair.handover = some (s.sfAt ((s.now : Int) + s.leadNs)) ∧
      t.care.running.isSome = true ∧
      t.pair.lastCause = causeCode .handover) ∧
  (∀ (s : State) (slot0 slot1 : List Byte),
      s.commandIs 0x10 = true → s.flag R.CARE_STAT_ROM = false → s.flag R.CARE_STAT_RUNNING = true → s.rst.hold ≠ .core →
      ∃ t, exec (.cmdBoot slot0 slot1) s = .next t ∧
      t.get R.CARE_MBX_STAT_RET 0 = 2 ∧
      t.flag R.CARE_MBX_STAT_FULL 0 = false ∧
      t.flag R.CARE_MBX_STAT_ACKED 0 = true ∧
      t.get R.CARE_RES_TAG = s.get R.CARE_MBX_DATA 0 / 256 % 256 ∧
      t.care.running = none ∧
      (t.word R.CARE_IRQ_STATUS.base).getLsbD 1 = true ∧
      t.rst = s.rst) ∧
  (∀ (s : State) (slot0 slot1 : List Byte),
      let img := (List.range (s.get R.CARE_ARG 0)).map (fun i => Sparse.get dramDefault s.rst.bootSram i)
      s.commandIs 0x10 = true → s.inRom = true → s.rst.hostBootWait = true → (0 < s.get R.CARE_ARG 0 ∧ s.get R.CARE_ARG 0 ≤ 8388608) → s.flag R.RST_STRAP_BOOT_SRC = false →
      ∃ t, exec (.cmdBoot slot0 slot1) s = .next t ∧
      (t.get R.CARE_MBX_STAT_RET 0 = (if s.imageCheck img = 0 then 0 else 0x100 + s.imageCheck img) % 65536) ∧
      t.flag R.CARE_STAT_RUNNING = (decide (s.imageCheck img = 0) || s.flag R.CARE_STAT_RUNNING) ∧
      (t.get R.RST_STAGE_STAGE = (if s.imageCheck img = 0 then 3 else s.get R.RST_STAGE_STAGE)) ∧
      t.rst.hostBootWait = !decide (s.imageCheck img = 0)) ∧
  (∀ (s : State) (op : Nat),
      s.commandIs op = true → s.flag R.CARE_STAT_ROM = false → s.flag R.CARE_STAT_RUNNING = true → s.rst.hold ≠ .core → knownOps.contains op = false →
      ∃ t, exec (.cmdUnknown 0) s = .next t ∧
      t.get R.CARE_MBX_STAT_RET 0 = 2 ∧
      t.flag R.CARE_MBX_STAT_FULL 0 = false ∧
      t.flag R.CARE_MBX_STAT_ACKED 0 = true ∧
      t.get R.CARE_RES_TAG = s.get R.CARE_MBX_DATA 0 / 256 % 256 ∧
      t.care.running = none ∧
      (t.word R.CARE_IRQ_STATUS.base).getLsbD 1 = true) ∧
  (∀ (s : State) (m : Nat),
      (0 < m ∧ m < 8) → s.flag R.CARE_STAT_RUNNING = true → s.flag R.CARE_MBX_STAT_FULL m = true →
      ∃ t, exec (.cmdUnknown m) s = .next t ∧
      t.get R.CARE_MBX_STAT_RET m = 2 ∧
      t.flag R.CARE_MBX_STAT_FULL m = false) ∧
  (∀ (s : State),
      s.commandIs 5 = true → s.flag R.CARE_STAT_ROM = false → s.flag R.CARE_STAT_RUNNING = true → s.rst.hold ≠ .core → s.get R.RST_STAGE_STAGE < 8 →
      ∃ t, exec (.cmdAttest) s = .next t ∧
      t.get R.CARE_MBX_STAT_RET 0 = 5 ∧
      t.flag R.CARE_MBX_STAT_FULL 0 = false ∧
      t.flag R.CARE_MBX_STAT_ACKED 0 = true ∧
      t.get R.CARE_RES_TAG = s.get R.CARE_MBX_DATA 0 / 256 % 256 ∧
      t.care.running = none ∧
      (t.word R.CARE_IRQ_STATUS.base).getLsbD 1 = true ∧
      t.otp = s.otp ∧
      t.dram = s.dram) ∧
  (∀ (s : State),
      s.commandIs 1 = true → s.flag R.CARE_STAT_ROM = false → s.rst.hold = .core →
      ∃ t, exec (.cmdPersLoad) s = .next t ∧
      t = s) ∧
  (∀ (s : State),
      s.commandIs 2 = true → s.flag R.CARE_STAT_ROM = false → s.rst.hold = .core →
      ∃ t, exec (.cmdPersActivate) s = .next t ∧
      t = s) ∧
  (∀ (s : State), s.commandIs 5 = true → s.flag R.CARE_STAT_ROM = false → s.rst.hold = .core → ∃ t, exec (.cmdAttest) s = .next t ∧
      t = s) ∧
  (∀ (s : State),
      s.commandIs 7 = true → s.flag R.CARE_STAT_ROM = false → s.rst.hold = .core →
      ∃ t, exec (.cmdTephraExport) s = .next t ∧
      t = s) ∧
  (∀ (s : State),
      s.commandIs 10 = true → s.flag R.CARE_STAT_ROM = false → s.rst.hold = .core →
      ∃ t, exec (.cmdDebugChallenge) s = .next t ∧
      t = s)
end

