-- ==== Sys2Proof/Laws/Sparse.lean ====
section
/-!
SUPPORT. Laws of sparse data: a read after a write to the same key gives the value written, a write leaves every other key alone,
and every operation keeps the canonical form.
-/

namespace Sys2Proof.Machine

variable {α : Type} [DecidableEq α] (dflt : Nat → α)

omit [DecidableEq α] in
@[simp] theorem Sparse.get_nil (k : Nat) : Sparse.get dflt [] k = dflt k := rfl

omit [DecidableEq α] in
@[simp] theorem Sparse.get_drop_self (l : List (Nat × α)) (k : Nat) : Sparse.get dflt (Sparse.drop k l) k = dflt k := by
  induction l with
  | nil => rfl
  | cons p l ih => obtain ⟨i, v⟩ := p; by_cases h : i = k <;> simp [Sparse.drop, Sparse.get, h, ih]

omit [DecidableEq α] in
theorem Sparse.get_drop_ne (l : List (Nat × α)) {k k' : Nat} (h : k' ≠ k) :
    Sparse.get dflt (Sparse.drop k l) k' = Sparse.get dflt l k' := by
  have h' : k ≠ k' := fun e => h e.symm
  induction l with
  | nil => rfl
  | cons p l ih =>
    obtain ⟨i, v⟩ := p
    by_cases hi : i = k
    · subst hi; simp [Sparse.drop, Sparse.get, h', ih]
    · simp [Sparse.drop, Sparse.get, hi, ih]

/-- A write leaves every other key alone. -/
theorem Sparse.get_set_ne (l : List (Nat × α)) {k k' : Nat} (v : α) (h : k' ≠ k) :
    Sparse.get dflt (Sparse.set dflt l k v) k' = Sparse.get dflt l k' := by
  have h' : k ≠ k' := fun e => h e.symm
  induction l with
  | nil => simp only [Sparse.set]; split <;> simp [Sparse.get, h']
  | cons p l ih =>
    obtain ⟨i, w⟩ := p
    simp only [Sparse.set]
    split
    · split
      · rw [Sparse.get_drop_ne dflt _ h]
      · simp [Sparse.get, h']
    · split
      · rename_i hi
        subst hi
        split
        · rw [Sparse.get_drop_ne dflt _ h]; simp [Sparse.get, h']
        · simp [Sparse.get, h']
      · simp [Sparse.get, ih]

/-- A read after a write to the same key gives the value written. -/
@[simp] theorem Sparse.get_set_self (l : List (Nat × α)) (k : Nat) (v : α) :
    Sparse.get dflt (Sparse.set dflt l k v) k = v := by
  induction l with
  | nil => simp only [Sparse.set]; split <;> simp_all [Sparse.get]
  | cons p l ih =>
    obtain ⟨i, w⟩ := p
    simp only [Sparse.set]
    split
    · split <;> simp_all [Sparse.get]
    · split
      · split <;> simp_all [Sparse.get]
      · rename_i hne
        simp only [Sparse.get, hne, if_false]
        exact ih

/-- In a canonical list whose keys all exceed `b` no key at most `b` is listed. -/
theorem Sparse.drop_eq {l : List (Nat × α)} {b k : Nat} (h : Sparse.wfFrom dflt (some b) l = true) (hk : k ≤ b) :
    Sparse.drop k l = l := by
  induction l generalizing b with
  | nil => rfl
  | cons p l ih =>
    obtain ⟨i, v⟩ := p
    simp only [Sparse.wfFrom, Bool.and_eq_true, decide_eq_true_eq] at h
    have hne : i ≠ k := by omega
    simp only [Sparse.drop, hne, if_false, ih h.2 (by omega : k ≤ i)]

theorem Sparse.wfFrom_mono {l : List (Nat × α)} {b c : Nat} (h : Sparse.wfFrom dflt (some b) l = true) (hc : c ≤ b) :
    Sparse.wfFrom dflt (some c) l = true := by
  cases l with
  | nil => rfl
  | cons p l =>
    obtain ⟨i, v⟩ := p
    simp only [Sparse.wfFrom, Bool.and_eq_true, decide_eq_true_eq] at h ⊢
    exact ⟨⟨by omega, h.1.2⟩, h.2⟩

theorem Sparse.wf_of_wfFrom {l : List (Nat × α)} {b : Option Nat} (h : Sparse.wfFrom dflt b l = true) :
    Sparse.wf dflt l = true := by
  cases l with
  | nil => rfl
  | cons p l =>
    obtain ⟨i, v⟩ := p
    cases b <;> simp_all [Sparse.wf, Sparse.wfFrom]

theorem Sparse.set_wfFrom {l : List (Nat × α)} {b : Option Nat} (k : Nat) (v : α)
    (hb : ∀ c, b = some c → c < k) (h : Sparse.wfFrom dflt b l = true) :
    Sparse.wfFrom dflt b (Sparse.set dflt l k v) = true := by
  induction l generalizing b with
  | nil =>
    simp only [Sparse.set]
    split
    · rfl
    · cases b with
      | none => simp_all [Sparse.wfFrom]
      | some c => simp_all [Sparse.wfFrom]
  | cons p l ih =>
    obtain ⟨i, w⟩ := p
    have h0 := h
    simp only [Sparse.wfFrom, Bool.and_eq_true, decide_eq_true_eq] at h
    simp only [Sparse.set]
    split
    · rename_i hki
      split
      · have hne : i ≠ k := by omega
        simp only [Sparse.drop, hne, if_false, Sparse.drop_eq dflt h.2 (Nat.le_of_lt hki)]
        exact h0
      · cases b <;> simp_all [Sparse.wfFrom]
    · split
      · rename_i hi
        subst hi
        split
        · rw [Sparse.drop_eq dflt h.2 (Nat.le_refl _)]
          cases b with
          | none => exact Sparse.wf_of_wfFrom dflt h.2
          | some c => exact Sparse.wfFrom_mono dflt h.2 (Nat.le_of_lt (hb c rfl))
        · cases b <;> simp_all [Sparse.wfFrom]
      · have hlt : i < k := by omega
        simp only [Sparse.wfFrom, Bool.and_eq_true, decide_eq_true_eq]
        exact ⟨h.1, ih (fun c hc => by cases hc; exact hlt) h.2⟩

/-- A write keeps the canonical form. -/
theorem Sparse.set_wf {l : List (Nat × α)} (k : Nat) (v : α) (h : Sparse.wf dflt l = true) :
    Sparse.wf dflt (Sparse.set dflt l k v) = true :=
  Sparse.set_wfFrom dflt k v (fun c hc => by cases hc) h

theorem Sparse.mapKeep_wfFrom (f : Nat → α → α) {l : List (Nat × α)} {b : Option Nat} (h : Sparse.wfFrom dflt b l = true) :
    Sparse.wfFrom dflt b (Sparse.mapKeep dflt f l) = true := by
  induction l generalizing b with
  | nil => rfl
  | cons p l ih =>
    obtain ⟨i, w⟩ := p
    simp only [Sparse.wfFrom, Bool.and_eq_true, decide_eq_true_eq] at h
    have ih' := ih h.2
    simp only [Sparse.mapKeep]
    split
    · cases b with
      | none => exact Sparse.wf_of_wfFrom dflt ih'
      | some c => exact Sparse.wfFrom_mono dflt ih' (by simp at h; omega)
    · cases b <;> simp_all [Sparse.wfFrom]

/-- A reset that keeps part of every entry keeps the canonical form. -/
theorem Sparse.mapKeep_wf (f : Nat → α → α) {l : List (Nat × α)} (h : Sparse.wf dflt l = true) :
    Sparse.wf dflt (Sparse.mapKeep dflt f l) = true := Sparse.mapKeep_wfFrom dflt f h

theorem Sparse.filter_wfFrom (p : Nat × α → Bool) {l : List (Nat × α)} {b : Option Nat} (h : Sparse.wfFrom dflt b l = true) :
    Sparse.wfFrom dflt b (l.filter p) = true := by
  induction l generalizing b with
  | nil => rfl
  | cons q l ih =>
    obtain ⟨i, w⟩ := q
    simp only [Sparse.wfFrom, Bool.and_eq_true, decide_eq_true_eq] at h
    have ih' := ih h.2
    simp only [List.filter]
    split
    · simp only [Sparse.wfFrom, Bool.and_eq_true, decide_eq_true_eq]
      exact ⟨h.1, ih'⟩
    · cases b with
      | none => exact Sparse.wf_of_wfFrom dflt ih'
      | some c => exact Sparse.wfFrom_mono dflt ih' (by simp at h; omega)

/-- Leaving entries out keeps the canonical form. -/
theorem Sparse.filter_wf (p : Nat × α → Bool) {l : List (Nat × α)} (h : Sparse.wf dflt l = true) :
    Sparse.wf dflt (l.filter p) = true := Sparse.filter_wfFrom dflt p h

/-- A key whose entries stay reads as before. -/
theorem Sparse.get_filter (p : Nat × α → Bool) (l : List (Nat × α)) (k : Nat) (h : ∀ v, p (k, v) = true) :
    Sparse.get dflt (l.filter p) k = Sparse.get dflt l k := by
  induction l with
  | nil => rfl
  | cons q l ih =>
    obtain ⟨i, w⟩ := q
    by_cases hp : p (i, w) = true
    · rw [List.filter_cons_of_pos hp]
      simp only [Sparse.get, ih]
    · rw [List.filter_cons_of_neg hp]
      have hi : i ≠ k := fun e => hp (e ▸ h w)
      simp only [Sparse.get, hi, if_false, ih]

@[simp] theorem Sparse.wf_nil : Sparse.wf dflt ([] : List (Nat × α)) = true := rfl

end Sys2Proof.Machine
end

