-- ==== Sys2Proof/Laws/State.lean ====
section
/-!
SUPPORT. What the primitive updates of State leave alone: one lemma per field per update, each true by definition. `put` and its
kin change the register file only.
-/

namespace Sys2Proof.Machine

open Sys2Proof

@[simp] theorem State.setWord_staged (s : State) (off : Nat) (w : Word) : (s.setWord off w).staged = s.staged := rfl
@[simp] theorem State.setWord_rst (s : State) (off : Nat) (w : Word) : (s.setWord off w).rst = s.rst := rfl
@[simp] theorem State.setWord_bus (s : State) (off : Nat) (w : Word) : (s.setWord off w).bus = s.bus := rfl
@[simp] theorem State.setWord_strobes (s : State) (off : Nat) (w : Word) : (s.setWord off w).strobes = s.strobes := rfl
@[simp] theorem State.setWord_pins (s : State) (off : Nat) (w : Word) : (s.setWord off w).pins = s.pins := rfl
@[simp] theorem State.setWord_teph (s : State) (off : Nat) (w : Word) : (s.setWord off w).teph = s.teph := rfl
@[simp] theorem State.setWord_nv (s : State) (off : Nat) (w : Word) : (s.setWord off w).nv = s.nv := rfl
@[simp] theorem State.setWord_wires (s : State) (off : Nat) (w : Word) : (s.setWord off w).wires = s.wires := rfl
@[simp] theorem State.setWord_rail (s : State) (off : Nat) (w : Word) : (s.setWord off w).rail = s.rail := rfl
@[simp] theorem State.setWord_pair (s : State) (off : Nat) (w : Word) : (s.setWord off w).pair = s.pair := rfl
@[simp] theorem State.setWord_pseq (s : State) (off : Nat) (w : Word) : (s.setWord off w).pseq = s.pseq := rfl
@[simp] theorem State.setWord_lane (s : State) (off : Nat) (w : Word) : (s.setWord off w).lane = s.lane := rfl
@[simp] theorem State.setWord_mem (s : State) (off : Nat) (w : Word) : (s.setWord off w).mem = s.mem := rfl
@[simp] theorem State.setWord_pers (s : State) (off : Nat) (w : Word) : (s.setWord off w).pers = s.pers := rfl
@[simp] theorem State.setWord_fab (s : State) (off : Nat) (w : Word) : (s.setWord off w).fab = s.fab := rfl
@[simp] theorem State.setWord_care (s : State) (off : Nat) (w : Word) : (s.setWord off w).care = s.care := rfl
@[simp] theorem State.setWord_otp (s : State) (off : Nat) (w : Word) : (s.setWord off w).otp = s.otp := rfl
@[simp] theorem State.setWord_thm (s : State) (off : Nat) (w : Word) : (s.setWord off w).thm = s.thm := rfl
@[simp] theorem State.setWord_comp (s : State) (off : Nat) (w : Word) : (s.setWord off w).comp = s.comp := rfl
@[simp] theorem State.setWord_view (s : State) (off : Nat) (w : Word) : (s.setWord off w).view = s.view := rfl
@[simp] theorem State.setWord_intk (s : State) (off : Nat) (w : Word) : (s.setWord off w).intk = s.intk := rfl
@[simp] theorem State.setWord_lzc (s : State) (off : Nat) (w : Word) : (s.setWord off w).lzc = s.lzc := rfl
@[simp] theorem State.setWord_blt (s : State) (off : Nat) (w : Word) : (s.setWord off w).blt = s.blt := rfl
@[simp] theorem State.setWord_dram (s : State) (off : Nat) (w : Word) : (s.setWord off w).dram = s.dram := rfl
@[simp] theorem State.setWord_time (s : State) (off : Nat) (w : Word) : (s.setWord off w).time = s.time := rfl
@[simp] theorem State.setWord_array (s : State) (off : Nat) (w : Word) : (s.setWord off w).array = s.array := rfl
@[simp] theorem State.setWord_host (s : State) (off : Nat) (w : Word) : (s.setWord off w).host = s.host := rfl
@[simp] theorem State.setWord_sec (s : State) (off : Nat) (w : Word) : (s.setWord off w).sec = s.sec := rfl
@[simp] theorem State.setWord_freeCtr (s : State) (off : Nat) (w : Word) : (s.setWord off w).freeCtr = s.freeCtr := rfl
@[simp] theorem State.setWord_out (s : State) (off : Nat) (w : Word) : (s.setWord off w).out = s.out := rfl
@[simp] theorem State.setWord_pending (s : State) (off : Nat) (w : Word) : (s.setWord off w).pending = s.pending := rfl

@[simp] theorem State.setStagedWord_regs (s : State) (off : Nat) (w : Word) : (s.setStagedWord off w).regs = s.regs := rfl
@[simp] theorem State.setStagedWord_rst (s : State) (off : Nat) (w : Word) : (s.setStagedWord off w).rst = s.rst := rfl
@[simp] theorem State.setStagedWord_bus (s : State) (off : Nat) (w : Word) : (s.setStagedWord off w).bus = s.bus := rfl
@[simp] theorem State.setStagedWord_strobes (s : State) (off : Nat) (w : Word) : (s.setStagedWord off w).strobes = s.strobes := rfl
@[simp] theorem State.setStagedWord_pins (s : State) (off : Nat) (w : Word) : (s.setStagedWord off w).pins = s.pins := rfl
@[simp] theorem State.setStagedWord_teph (s : State) (off : Nat) (w : Word) : (s.setStagedWord off w).teph = s.teph := rfl
@[simp] theorem State.setStagedWord_nv (s : State) (off : Nat) (w : Word) : (s.setStagedWord off w).nv = s.nv := rfl
@[simp] theorem State.setStagedWord_wires (s : State) (off : Nat) (w : Word) : (s.setStagedWord off w).wires = s.wires := rfl
@[simp] theorem State.setStagedWord_rail (s : State) (off : Nat) (w : Word) : (s.setStagedWord off w).rail = s.rail := rfl
@[simp] theorem State.setStagedWord_pair (s : State) (off : Nat) (w : Word) : (s.setStagedWord off w).pair = s.pair := rfl
@[simp] theorem State.setStagedWord_pseq (s : State) (off : Nat) (w : Word) : (s.setStagedWord off w).pseq = s.pseq := rfl
@[simp] theorem State.setStagedWord_lane (s : State) (off : Nat) (w : Word) : (s.setStagedWord off w).lane = s.lane := rfl
@[simp] theorem State.setStagedWord_mem (s : State) (off : Nat) (w : Word) : (s.setStagedWord off w).mem = s.mem := rfl
@[simp] theorem State.setStagedWord_pers (s : State) (off : Nat) (w : Word) : (s.setStagedWord off w).pers = s.pers := rfl
@[simp] theorem State.setStagedWord_fab (s : State) (off : Nat) (w : Word) : (s.setStagedWord off w).fab = s.fab := rfl
@[simp] theorem State.setStagedWord_care (s : State) (off : Nat) (w : Word) : (s.setStagedWord off w).care = s.care := rfl
@[simp] theorem State.setStagedWord_otp (s : State) (off : Nat) (w : Word) : (s.setStagedWord off w).otp = s.otp := rfl
@[simp] theorem State.setStagedWord_thm (s : State) (off : Nat) (w : Word) : (s.setStagedWord off w).thm = s.thm := rfl
@[simp] theorem State.setStagedWord_comp (s : State) (off : Nat) (w : Word) : (s.setStagedWord off w).comp = s.comp := rfl
@[simp] theorem State.setStagedWord_view (s : State) (off : Nat) (w : Word) : (s.setStagedWord off w).view = s.view := rfl
@[simp] theorem State.setStagedWord_intk (s : State) (off : Nat) (w : Word) : (s.setStagedWord off w).intk = s.intk := rfl
@[simp] theorem State.setStagedWord_lzc (s : State) (off : Nat) (w : Word) : (s.setStagedWord off w).lzc = s.lzc := rfl
@[simp] theorem State.setStagedWord_blt (s : State) (off : Nat) (w : Word) : (s.setStagedWord off w).blt = s.blt := rfl
@[simp] theorem State.setStagedWord_dram (s : State) (off : Nat) (w : Word) : (s.setStagedWord off w).dram = s.dram := rfl
@[simp] theorem State.setStagedWord_time (s : State) (off : Nat) (w : Word) : (s.setStagedWord off w).time = s.time := rfl
@[simp] theorem State.setStagedWord_array (s : State) (off : Nat) (w : Word) : (s.setStagedWord off w).array = s.array := rfl
@[simp] theorem State.setStagedWord_host (s : State) (off : Nat) (w : Word) : (s.setStagedWord off w).host = s.host := rfl
@[simp] theorem State.setStagedWord_sec (s : State) (off : Nat) (w : Word) : (s.setStagedWord off w).sec = s.sec := rfl
@[simp] theorem State.setStagedWord_freeCtr (s : State) (off : Nat) (w : Word) : (s.setStagedWord off w).freeCtr = s.freeCtr := rfl
@[simp] theorem State.setStagedWord_out (s : State) (off : Nat) (w : Word) : (s.setStagedWord off w).out = s.out := rfl
@[simp] theorem State.setStagedWord_pending (s : State) (off : Nat) (w : Word) : (s.setStagedWord off w).pending = s.pending := rfl

@[simp] theorem State.writeByte_regs (s : State) (a : Nat) (b : Byte) : (s.writeByte a b).regs = s.regs := rfl
@[simp] theorem State.writeByte_staged (s : State) (a : Nat) (b : Byte) : (s.writeByte a b).staged = s.staged := rfl
@[simp] theorem State.writeByte_rst (s : State) (a : Nat) (b : Byte) : (s.writeByte a b).rst = s.rst := rfl
@[simp] theorem State.writeByte_bus (s : State) (a : Nat) (b : Byte) : (s.writeByte a b).bus = s.bus := rfl
@[simp] theorem State.writeByte_strobes (s : State) (a : Nat) (b : Byte) : (s.writeByte a b).strobes = s.strobes := rfl
@[simp] theorem State.writeByte_pins (s : State) (a : Nat) (b : Byte) : (s.writeByte a b).pins = s.pins := rfl
@[simp] theorem State.writeByte_teph (s : State) (a : Nat) (b : Byte) : (s.writeByte a b).teph = s.teph := rfl
@[simp] theorem State.writeByte_nv (s : State) (a : Nat) (b : Byte) : (s.writeByte a b).nv = s.nv := rfl
@[simp] theorem State.writeByte_wires (s : State) (a : Nat) (b : Byte) : (s.writeByte a b).wires = s.wires := rfl
@[simp] theorem State.writeByte_rail (s : State) (a : Nat) (b : Byte) : (s.writeByte a b).rail = s.rail := rfl
@[simp] theorem State.writeByte_pair (s : State) (a : Nat) (b : Byte) : (s.writeByte a b).pair = s.pair := rfl
@[simp] theorem State.writeByte_pseq (s : State) (a : Nat) (b : Byte) : (s.writeByte a b).pseq = s.pseq := rfl
@[simp] theorem State.writeByte_lane (s : State) (a : Nat) (b : Byte) : (s.writeByte a b).lane = s.lane := rfl
@[simp] theorem State.writeByte_mem (s : State) (a : Nat) (b : Byte) : (s.writeByte a b).mem = s.mem := rfl
@[simp] theorem State.writeByte_pers (s : State) (a : Nat) (b : Byte) : (s.writeByte a b).pers = s.pers := rfl
@[simp] theorem State.writeByte_fab (s : State) (a : Nat) (b : Byte) : (s.writeByte a b).fab = s.fab := rfl
@[simp] theorem State.writeByte_care (s : State) (a : Nat) (b : Byte) : (s.writeByte a b).care = s.care := rfl
@[simp] theorem State.writeByte_otp (s : State) (a : Nat) (b : Byte) : (s.writeByte a b).otp = s.otp := rfl
@[simp] theorem State.writeByte_thm (s : State) (a : Nat) (b : Byte) : (s.writeByte a b).thm = s.thm := rfl
@[simp] theorem State.writeByte_comp (s : State) (a : Nat) (b : Byte) : (s.writeByte a b).comp = s.comp := rfl
@[simp] theorem State.writeByte_view (s : State) (a : Nat) (b : Byte) : (s.writeByte a b).view = s.view := rfl
@[simp] theorem State.writeByte_intk (s : State) (a : Nat) (b : Byte) : (s.writeByte a b).intk = s.intk := rfl
@[simp] theorem State.writeByte_lzc (s : State) (a : Nat) (b : Byte) : (s.writeByte a b).lzc = s.lzc := rfl
@[simp] theorem State.writeByte_blt (s : State) (a : Nat) (b : Byte) : (s.writeByte a b).blt = s.blt := rfl
@[simp] theorem State.writeByte_time (s : State) (a : Nat) (b : Byte) : (s.writeByte a b).time = s.time := rfl
@[simp] theorem State.writeByte_array (s : State) (a : Nat) (b : Byte) : (s.writeByte a b).array = s.array := rfl
@[simp] theorem State.writeByte_host (s : State) (a : Nat) (b : Byte) : (s.writeByte a b).host = s.host := rfl
@[simp] theorem State.writeByte_sec (s : State) (a : Nat) (b : Byte) : (s.writeByte a b).sec = s.sec := rfl
@[simp] theorem State.writeByte_freeCtr (s : State) (a : Nat) (b : Byte) : (s.writeByte a b).freeCtr = s.freeCtr := rfl
@[simp] theorem State.writeByte_out (s : State) (a : Nat) (b : Byte) : (s.writeByte a b).out = s.out := rfl
@[simp] theorem State.writeByte_pending (s : State) (a : Nat) (b : Byte) : (s.writeByte a b).pending = s.pending := rfl

@[simp] theorem State.emit_regs (s : State) (e : Emit) : (s.emit e).regs = s.regs := rfl
@[simp] theorem State.emit_staged (s : State) (e : Emit) : (s.emit e).staged = s.staged := rfl
@[simp] theorem State.emit_rst (s : State) (e : Emit) : (s.emit e).rst = s.rst := rfl
@[simp] theorem State.emit_bus (s : State) (e : Emit) : (s.emit e).bus = s.bus := rfl
@[simp] theorem State.emit_strobes (s : State) (e : Emit) : (s.emit e).strobes = s.strobes := rfl
@[simp] theorem State.emit_pins (s : State) (e : Emit) : (s.emit e).pins = s.pins := rfl
@[simp] theorem State.emit_teph (s : State) (e : Emit) : (s.emit e).teph = s.teph := rfl
@[simp] theorem State.emit_nv (s : State) (e : Emit) : (s.emit e).nv = s.nv := rfl
@[simp] theorem State.emit_wires (s : State) (e : Emit) : (s.emit e).wires = s.wires := rfl
@[simp] theorem State.emit_rail (s : State) (e : Emit) : (s.emit e).rail = s.rail := rfl
@[simp] theorem State.emit_pair (s : State) (e : Emit) : (s.emit e).pair = s.pair := rfl
@[simp] theorem State.emit_pseq (s : State) (e : Emit) : (s.emit e).pseq = s.pseq := rfl
@[simp] theorem State.emit_lane (s : State) (e : Emit) : (s.emit e).lane = s.lane := rfl
@[simp] theorem State.emit_mem (s : State) (e : Emit) : (s.emit e).mem = s.mem := rfl
@[simp] theorem State.emit_pers (s : State) (e : Emit) : (s.emit e).pers = s.pers := rfl
@[simp] theorem State.emit_fab (s : State) (e : Emit) : (s.emit e).fab = s.fab := rfl
@[simp] theorem State.emit_care (s : State) (e : Emit) : (s.emit e).care = s.care := rfl
@[simp] theorem State.emit_otp (s : State) (e : Emit) : (s.emit e).otp = s.otp := rfl
@[simp] theorem State.emit_thm (s : State) (e : Emit) : (s.emit e).thm = s.thm := rfl
@[simp] theorem State.emit_comp (s : State) (e : Emit) : (s.emit e).comp = s.comp := rfl
@[simp] theorem State.emit_view (s : State) (e : Emit) : (s.emit e).view = s.view := rfl
@[simp] theorem State.emit_intk (s : State) (e : Emit) : (s.emit e).intk = s.intk := rfl
@[simp] theorem State.emit_lzc (s : State) (e : Emit) : (s.emit e).lzc = s.lzc := rfl
@[simp] theorem State.emit_blt (s : State) (e : Emit) : (s.emit e).blt = s.blt := rfl
@[simp] theorem State.emit_dram (s : State) (e : Emit) : (s.emit e).dram = s.dram := rfl
@[simp] theorem State.emit_time (s : State) (e : Emit) : (s.emit e).time = s.time := rfl
@[simp] theorem State.emit_array (s : State) (e : Emit) : (s.emit e).array = s.array := rfl
@[simp] theorem State.emit_host (s : State) (e : Emit) : (s.emit e).host = s.host := rfl
@[simp] theorem State.emit_sec (s : State) (e : Emit) : (s.emit e).sec = s.sec := rfl
@[simp] theorem State.emit_freeCtr (s : State) (e : Emit) : (s.emit e).freeCtr = s.freeCtr := rfl
@[simp] theorem State.emit_pending (s : State) (e : Emit) : (s.emit e).pending = s.pending := rfl

@[simp] theorem State.tookFree_regs (s : State) (n : Nat) : (s.tookFree n).regs = s.regs := rfl
@[simp] theorem State.tookFree_staged (s : State) (n : Nat) : (s.tookFree n).staged = s.staged := rfl
@[simp] theorem State.tookFree_rst (s : State) (n : Nat) : (s.tookFree n).rst = s.rst := rfl
@[simp] theorem State.tookFree_bus (s : State) (n : Nat) : (s.tookFree n).bus = s.bus := rfl
@[simp] theorem State.tookFree_strobes (s : State) (n : Nat) : (s.tookFree n).strobes = s.strobes := rfl
@[simp] theorem State.tookFree_pins (s : State) (n : Nat) : (s.tookFree n).pins = s.pins := rfl
@[simp] theorem State.tookFree_teph (s : State) (n : Nat) : (s.tookFree n).teph = s.teph := rfl
@[simp] theorem State.tookFree_nv (s : State) (n : Nat) : (s.tookFree n).nv = s.nv := rfl
@[simp] theorem State.tookFree_wires (s : State) (n : Nat) : (s.tookFree n).wires = s.wires := rfl
@[simp] theorem State.tookFree_rail (s : State) (n : Nat) : (s.tookFree n).rail = s.rail := rfl
@[simp] theorem State.tookFree_pair (s : State) (n : Nat) : (s.tookFree n).pair = s.pair := rfl
@[simp] theorem State.tookFree_pseq (s : State) (n : Nat) : (s.tookFree n).pseq = s.pseq := rfl
@[simp] theorem State.tookFree_lane (s : State) (n : Nat) : (s.tookFree n).lane = s.lane := rfl
@[simp] theorem State.tookFree_mem (s : State) (n : Nat) : (s.tookFree n).mem = s.mem := rfl
@[simp] theorem State.tookFree_pers (s : State) (n : Nat) : (s.tookFree n).pers = s.pers := rfl
@[simp] theorem State.tookFree_fab (s : State) (n : Nat) : (s.tookFree n).fab = s.fab := rfl
@[simp] theorem State.tookFree_care (s : State) (n : Nat) : (s.tookFree n).care = s.care := rfl
@[simp] theorem State.tookFree_otp (s : State) (n : Nat) : (s.tookFree n).otp = s.otp := rfl
@[simp] theorem State.tookFree_thm (s : State) (n : Nat) : (s.tookFree n).thm = s.thm := rfl
@[simp] theorem State.tookFree_comp (s : State) (n : Nat) : (s.tookFree n).comp = s.comp := rfl
@[simp] theorem State.tookFree_view (s : State) (n : Nat) : (s.tookFree n).view = s.view := rfl
@[simp] theorem State.tookFree_intk (s : State) (n : Nat) : (s.tookFree n).intk = s.intk := rfl
@[simp] theorem State.tookFree_lzc (s : State) (n : Nat) : (s.tookFree n).lzc = s.lzc := rfl
@[simp] theorem State.tookFree_blt (s : State) (n : Nat) : (s.tookFree n).blt = s.blt := rfl
@[simp] theorem State.tookFree_dram (s : State) (n : Nat) : (s.tookFree n).dram = s.dram := rfl
@[simp] theorem State.tookFree_time (s : State) (n : Nat) : (s.tookFree n).time = s.time := rfl
@[simp] theorem State.tookFree_array (s : State) (n : Nat) : (s.tookFree n).array = s.array := rfl
@[simp] theorem State.tookFree_host (s : State) (n : Nat) : (s.tookFree n).host = s.host := rfl
@[simp] theorem State.tookFree_sec (s : State) (n : Nat) : (s.tookFree n).sec = s.sec := rfl
@[simp] theorem State.tookFree_out (s : State) (n : Nat) : (s.tookFree n).out = s.out := rfl
@[simp] theorem State.tookFree_pending (s : State) (n : Nat) : (s.tookFree n).pending = s.pending := rfl

@[simp] theorem State.alert_regs (s : State) : (s.alert).regs = s.regs := rfl
@[simp] theorem State.alert_staged (s : State) : (s.alert).staged = s.staged := rfl
@[simp] theorem State.alert_rst (s : State) : (s.alert).rst = s.rst := rfl
@[simp] theorem State.alert_bus (s : State) : (s.alert).bus = s.bus := rfl
@[simp] theorem State.alert_strobes (s : State) : (s.alert).strobes = s.strobes := rfl
@[simp] theorem State.alert_teph (s : State) : (s.alert).teph = s.teph := rfl
@[simp] theorem State.alert_nv (s : State) : (s.alert).nv = s.nv := rfl
@[simp] theorem State.alert_wires (s : State) : (s.alert).wires = s.wires := rfl
@[simp] theorem State.alert_rail (s : State) : (s.alert).rail = s.rail := rfl
@[simp] theorem State.alert_pair (s : State) : (s.alert).pair = s.pair := rfl
@[simp] theorem State.alert_pseq (s : State) : (s.alert).pseq = s.pseq := rfl
@[simp] theorem State.alert_lane (s : State) : (s.alert).lane = s.lane := rfl
@[simp] theorem State.alert_mem (s : State) : (s.alert).mem = s.mem := rfl
@[simp] theorem State.alert_pers (s : State) : (s.alert).pers = s.pers := rfl
@[simp] theorem State.alert_fab (s : State) : (s.alert).fab = s.fab := rfl
@[simp] theorem State.alert_care (s : State) : (s.alert).care = s.care := rfl
@[simp] theorem State.alert_otp (s : State) : (s.alert).otp = s.otp := rfl
@[simp] theorem State.alert_thm (s : State) : (s.alert).thm = s.thm := rfl
@[simp] theorem State.alert_comp (s : State) : (s.alert).comp = s.comp := rfl
@[simp] theorem State.alert_view (s : State) : (s.alert).view = s.view := rfl
@[simp] theorem State.alert_intk (s : State) : (s.alert).intk = s.intk := rfl
@[simp] theorem State.alert_lzc (s : State) : (s.alert).lzc = s.lzc := rfl
@[simp] theorem State.alert_blt (s : State) : (s.alert).blt = s.blt := rfl
@[simp] theorem State.alert_dram (s : State) : (s.alert).dram = s.dram := rfl
@[simp] theorem State.alert_time (s : State) : (s.alert).time = s.time := rfl
@[simp] theorem State.alert_array (s : State) : (s.alert).array = s.array := rfl
@[simp] theorem State.alert_host (s : State) : (s.alert).host = s.host := rfl
@[simp] theorem State.alert_sec (s : State) : (s.alert).sec = s.sec := rfl
@[simp] theorem State.alert_freeCtr (s : State) : (s.alert).freeCtr = s.freeCtr := rfl
@[simp] theorem State.alert_out (s : State) : (s.alert).out = s.out := rfl
@[simp] theorem State.alert_pending (s : State) : (s.alert).pending = s.pending := rfl

@[simp] theorem State.emit_out (s : State) (e : Emit) : (s.emit e).out = e :: s.out := rfl
@[simp] theorem State.tookFree_freeCtr (s : State) (n : Nat) : (s.tookFree n).freeCtr = s.freeCtr + n := rfl
@[simp] theorem State.alert_pin (s : State) : s.alert.pins.alert = true := rfl

@[simp] theorem State.put_staged (s : State) (g : Fld) (v i j : Nat) : (s.put g v i j).staged = s.staged := by
  unfold State.put; (repeat' split) <;> rfl
@[simp] theorem State.put_rst (s : State) (g : Fld) (v i j : Nat) : (s.put g v i j).rst = s.rst := by
  unfold State.put; (repeat' split) <;> rfl
@[simp] theorem State.put_bus (s : State) (g : Fld) (v i j : Nat) : (s.put g v i j).bus = s.bus := by
  unfold State.put; (repeat' split) <;> rfl
@[simp] theorem State.put_strobes (s : State) (g : Fld) (v i j : Nat) : (s.put g v i j).strobes = s.strobes := by
  unfold State.put; (repeat' split) <;> rfl
@[simp] theorem State.put_pins (s : State) (g : Fld) (v i j : Nat) : (s.put g v i j).pins = s.pins := by
  unfold State.put; (repeat' split) <;> rfl
@[simp] theorem State.put_teph (s : State) (g : Fld) (v i j : Nat) : (s.put g v i j).teph = s.teph := by
  unfold State.put; (repeat' split) <;> rfl
@[simp] theorem State.put_nv (s : State) (g : Fld) (v i j : Nat) : (s.put g v i j).nv = s.nv := by
  unfold State.put; (repeat' split) <;> rfl
@[simp] theorem State.put_wires (s : State) (g : Fld) (v i j : Nat) : (s.put g v i j).wires = s.wires := by
  unfold State.put; (repeat' split) <;> rfl
@[simp] theorem State.put_rail (s : State) (g : Fld) (v i j : Nat) : (s.put g v i j).rail = s.rail := by
  unfold State.put; (repeat' split) <;> rfl
@[simp] theorem State.put_pair (s : State) (g : Fld) (v i j : Nat) : (s.put g v i j).pair = s.pair := by
  unfold State.put; (repeat' split) <;> rfl
@[simp] theorem State.put_pseq (s : State) (g : Fld) (v i j : Nat) : (s.put g v i j).pseq = s.pseq := by
  unfold State.put; (repeat' split) <;> rfl
@[simp] theorem State.put_lane (s : State) (g : Fld) (v i j : Nat) : (s.put g v i j).lane = s.lane := by
  unfold State.put; (repeat' split) <;> rfl
@[simp] theorem State.put_mem (s : State) (g : Fld) (v i j : Nat) : (s.put g v i j).mem = s.mem := by
  unfold State.put; (repeat' split) <;> rfl
@[simp] theorem State.put_pers (s : State) (g : Fld) (v i j : Nat) : (s.put g v i j).pers = s.pers := by
  unfold State.put; (repeat' split) <;> rfl
@[simp] theorem State.put_fab (s : State) (g : Fld) (v i j : Nat) : (s.put g v i j).fab = s.fab := by
  unfold State.put; (repeat' split) <;> rfl
@[simp] theorem State.put_care (s : State) (g : Fld) (v i j : Nat) : (s.put g v i j).care = s.care := by
  unfold State.put; (repeat' split) <;> rfl
@[simp] theorem State.put_otp (s : State) (g : Fld) (v i j : Nat) : (s.put g v i j).otp = s.otp := by
  unfold State.put; (repeat' split) <;> rfl
@[simp] theorem State.put_thm (s : State) (g : Fld) (v i j : Nat) : (s.put g v i j).thm = s.thm := by
  unfold State.put; (repeat' split) <;> rfl
@[simp] theorem State.put_comp (s : State) (g : Fld) (v i j : Nat) : (s.put g v i j).comp = s.comp := by
  unfold State.put; (repeat' split) <;> rfl
@[simp] theorem State.put_view (s : State) (g : Fld) (v i j : Nat) : (s.put g v i j).view = s.view := by
  unfold State.put; (repeat' split) <;> rfl
@[simp] theorem State.put_intk (s : State) (g : Fld) (v i j : Nat) : (s.put g v i j).intk = s.intk := by
  unfold State.put; (repeat' split) <;> rfl
@[simp] theorem State.put_lzc (s : State) (g : Fld) (v i j : Nat) : (s.put g v i j).lzc = s.lzc := by
  unfold State.put; (repeat' split) <;> rfl
@[simp] theorem State.put_blt (s : State) (g : Fld) (v i j : Nat) : (s.put g v i j).blt = s.blt := by
  unfold State.put; (repeat' split) <;> rfl
@[simp] theorem State.put_dram (s : State) (g : Fld) (v i j : Nat) : (s.put g v i j).dram = s.dram := by
  unfold State.put; (repeat' split) <;> rfl
@[simp] theorem State.put_time (s : State) (g : Fld) (v i j : Nat) : (s.put g v i j).time = s.time := by
  unfold State.put; (repeat' split) <;> rfl
@[simp] theorem State.put_array (s : State) (g : Fld) (v i j : Nat) : (s.put g v i j).array = s.array := by
  unfold State.put; (repeat' split) <;> rfl
@[simp] theorem State.put_host (s : State) (g : Fld) (v i j : Nat) : (s.put g v i j).host = s.host := by
  unfold State.put; (repeat' split) <;> rfl
@[simp] theorem State.put_sec (s : State) (g : Fld) (v i j : Nat) : (s.put g v i j).sec = s.sec := by
  unfold State.put; (repeat' split) <;> rfl
@[simp] theorem State.put_freeCtr (s : State) (g : Fld) (v i j : Nat) : (s.put g v i j).freeCtr = s.freeCtr := by
  unfold State.put; (repeat' split) <;> rfl
@[simp] theorem State.put_out (s : State) (g : Fld) (v i j : Nat) : (s.put g v i j).out = s.out := by
  unfold State.put; (repeat' split) <;> rfl
@[simp] theorem State.put_pending (s : State) (g : Fld) (v i j : Nat) : (s.put g v i j).pending = s.pending := by
  unfold State.put; (repeat' split) <;> rfl

@[simp] theorem State.putB_staged (s : State) (g : Fld) (b : Bool) (i j : Nat) : (s.putB g b i j).staged = s.staged :=
  State.put_staged ..
@[simp] theorem State.putB_rst (s : State) (g : Fld) (b : Bool) (i j : Nat) : (s.putB g b i j).rst = s.rst :=
  State.put_rst ..
@[simp] theorem State.putB_bus (s : State) (g : Fld) (b : Bool) (i j : Nat) : (s.putB g b i j).bus = s.bus :=
  State.put_bus ..
@[simp] theorem State.putB_strobes (s : State) (g : Fld) (b : Bool) (i j : Nat) : (s.putB g b i j).strobes = s.strobes :=
  State.put_strobes ..
@[simp] theorem State.putB_pins (s : State) (g : Fld) (b : Bool) (i j : Nat) : (s.putB g b i j).pins = s.pins :=
  State.put_pins ..
@[simp] theorem State.putB_teph (s : State) (g : Fld) (b : Bool) (i j : Nat) : (s.putB g b i j).teph = s.teph :=
  State.put_teph ..
@[simp] theorem State.putB_nv (s : State) (g : Fld) (b : Bool) (i j : Nat) : (s.putB g b i j).nv = s.nv :=
  State.put_nv ..
@[simp] theorem State.putB_wires (s : State) (g : Fld) (b : Bool) (i j : Nat) : (s.putB g b i j).wires = s.wires :=
  State.put_wires ..
@[simp] theorem State.putB_rail (s : State) (g : Fld) (b : Bool) (i j : Nat) : (s.putB g b i j).rail = s.rail :=
  State.put_rail ..
@[simp] theorem State.putB_pair (s : State) (g : Fld) (b : Bool) (i j : Nat) : (s.putB g b i j).pair = s.pair :=
  State.put_pair ..
@[simp] theorem State.putB_pseq (s : State) (g : Fld) (b : Bool) (i j : Nat) : (s.putB g b i j).pseq = s.pseq :=
  State.put_pseq ..
@[simp] theorem State.putB_lane (s : State) (g : Fld) (b : Bool) (i j : Nat) : (s.putB g b i j).lane = s.lane :=
  State.put_lane ..
@[simp] theorem State.putB_mem (s : State) (g : Fld) (b : Bool) (i j : Nat) : (s.putB g b i j).mem = s.mem :=
  State.put_mem ..
@[simp] theorem State.putB_pers (s : State) (g : Fld) (b : Bool) (i j : Nat) : (s.putB g b i j).pers = s.pers :=
  State.put_pers ..
@[simp] theorem State.putB_fab (s : State) (g : Fld) (b : Bool) (i j : Nat) : (s.putB g b i j).fab = s.fab :=
  State.put_fab ..
@[simp] theorem State.putB_care (s : State) (g : Fld) (b : Bool) (i j : Nat) : (s.putB g b i j).care = s.care :=
  State.put_care ..
@[simp] theorem State.putB_otp (s : State) (g : Fld) (b : Bool) (i j : Nat) : (s.putB g b i j).otp = s.otp :=
  State.put_otp ..
@[simp] theorem State.putB_thm (s : State) (g : Fld) (b : Bool) (i j : Nat) : (s.putB g b i j).thm = s.thm :=
  State.put_thm ..
@[simp] theorem State.putB_comp (s : State) (g : Fld) (b : Bool) (i j : Nat) : (s.putB g b i j).comp = s.comp :=
  State.put_comp ..
@[simp] theorem State.putB_view (s : State) (g : Fld) (b : Bool) (i j : Nat) : (s.putB g b i j).view = s.view :=
  State.put_view ..
@[simp] theorem State.putB_intk (s : State) (g : Fld) (b : Bool) (i j : Nat) : (s.putB g b i j).intk = s.intk :=
  State.put_intk ..
@[simp] theorem State.putB_lzc (s : State) (g : Fld) (b : Bool) (i j : Nat) : (s.putB g b i j).lzc = s.lzc :=
  State.put_lzc ..
@[simp] theorem State.putB_blt (s : State) (g : Fld) (b : Bool) (i j : Nat) : (s.putB g b i j).blt = s.blt :=
  State.put_blt ..
@[simp] theorem State.putB_dram (s : State) (g : Fld) (b : Bool) (i j : Nat) : (s.putB g b i j).dram = s.dram :=
  State.put_dram ..
@[simp] theorem State.putB_time (s : State) (g : Fld) (b : Bool) (i j : Nat) : (s.putB g b i j).time = s.time :=
  State.put_time ..
@[simp] theorem State.putB_array (s : State) (g : Fld) (b : Bool) (i j : Nat) : (s.putB g b i j).array = s.array :=
  State.put_array ..
@[simp] theorem State.putB_host (s : State) (g : Fld) (b : Bool) (i j : Nat) : (s.putB g b i j).host = s.host :=
  State.put_host ..
@[simp] theorem State.putB_sec (s : State) (g : Fld) (b : Bool) (i j : Nat) : (s.putB g b i j).sec = s.sec :=
  State.put_sec ..
@[simp] theorem State.putB_freeCtr (s : State) (g : Fld) (b : Bool) (i j : Nat) : (s.putB g b i j).freeCtr = s.freeCtr :=
  State.put_freeCtr ..
@[simp] theorem State.putB_out (s : State) (g : Fld) (b : Bool) (i j : Nat) : (s.putB g b i j).out = s.out :=
  State.put_out ..
@[simp] theorem State.putB_pending (s : State) (g : Fld) (b : Bool) (i j : Nat) : (s.putB g b i j).pending = s.pending :=
  State.put_pending ..

@[simp] theorem State.putI_staged (s : State) (g : Fld) (z : Int) (i j : Nat) : (s.putI g z i j).staged = s.staged :=
  State.put_staged ..
@[simp] theorem State.putI_rst (s : State) (g : Fld) (z : Int) (i j : Nat) : (s.putI g z i j).rst = s.rst :=
  State.put_rst ..
@[simp] theorem State.putI_bus (s : State) (g : Fld) (z : Int) (i j : Nat) : (s.putI g z i j).bus = s.bus :=
  State.put_bus ..
@[simp] theorem State.putI_strobes (s : State) (g : Fld) (z : Int) (i j : Nat) : (s.putI g z i j).strobes = s.strobes :=
  State.put_strobes ..
@[simp] theorem State.putI_pins (s : State) (g : Fld) (z : Int) (i j : Nat) : (s.putI g z i j).pins = s.pins :=
  State.put_pins ..
@[simp] theorem State.putI_teph (s : State) (g : Fld) (z : Int) (i j : Nat) : (s.putI g z i j).teph = s.teph :=
  State.put_teph ..
@[simp] theorem State.putI_nv (s : State) (g : Fld) (z : Int) (i j : Nat) : (s.putI g z i j).nv = s.nv :=
  State.put_nv ..
@[simp] theorem State.putI_wires (s : State) (g : Fld) (z : Int) (i j : Nat) : (s.putI g z i j).wires = s.wires :=
  State.put_wires ..
@[simp] theorem State.putI_rail (s : State) (g : Fld) (z : Int) (i j : Nat) : (s.putI g z i j).rail = s.rail :=
  State.put_rail ..
@[simp] theorem State.putI_pair (s : State) (g : Fld) (z : Int) (i j : Nat) : (s.putI g z i j).pair = s.pair :=
  State.put_pair ..
@[simp] theorem State.putI_pseq (s : State) (g : Fld) (z : Int) (i j : Nat) : (s.putI g z i j).pseq = s.pseq :=
  State.put_pseq ..
@[simp] theorem State.putI_lane (s : State) (g : Fld) (z : Int) (i j : Nat) : (s.putI g z i j).lane = s.lane :=
  State.put_lane ..
@[simp] theorem State.putI_mem (s : State) (g : Fld) (z : Int) (i j : Nat) : (s.putI g z i j).mem = s.mem :=
  State.put_mem ..
@[simp] theorem State.putI_pers (s : State) (g : Fld) (z : Int) (i j : Nat) : (s.putI g z i j).pers = s.pers :=
  State.put_pers ..
@[simp] theorem State.putI_fab (s : State) (g : Fld) (z : Int) (i j : Nat) : (s.putI g z i j).fab = s.fab :=
  State.put_fab ..
@[simp] theorem State.putI_care (s : State) (g : Fld) (z : Int) (i j : Nat) : (s.putI g z i j).care = s.care :=
  State.put_care ..
@[simp] theorem State.putI_otp (s : State) (g : Fld) (z : Int) (i j : Nat) : (s.putI g z i j).otp = s.otp :=
  State.put_otp ..
@[simp] theorem State.putI_thm (s : State) (g : Fld) (z : Int) (i j : Nat) : (s.putI g z i j).thm = s.thm :=
  State.put_thm ..
@[simp] theorem State.putI_comp (s : State) (g : Fld) (z : Int) (i j : Nat) : (s.putI g z i j).comp = s.comp :=
  State.put_comp ..
@[simp] theorem State.putI_view (s : State) (g : Fld) (z : Int) (i j : Nat) : (s.putI g z i j).view = s.view :=
  State.put_view ..
@[simp] theorem State.putI_intk (s : State) (g : Fld) (z : Int) (i j : Nat) : (s.putI g z i j).intk = s.intk :=
  State.put_intk ..
@[simp] theorem State.putI_lzc (s : State) (g : Fld) (z : Int) (i j : Nat) : (s.putI g z i j).lzc = s.lzc :=
  State.put_lzc ..
@[simp] theorem State.putI_blt (s : State) (g : Fld) (z : Int) (i j : Nat) : (s.putI g z i j).blt = s.blt :=
  State.put_blt ..
@[simp] theorem State.putI_dram (s : State) (g : Fld) (z : Int) (i j : Nat) : (s.putI g z i j).dram = s.dram :=
  State.put_dram ..
@[simp] theorem State.putI_time (s : State) (g : Fld) (z : Int) (i j : Nat) : (s.putI g z i j).time = s.time :=
  State.put_time ..
@[simp] theorem State.putI_array (s : State) (g : Fld) (z : Int) (i j : Nat) : (s.putI g z i j).array = s.array :=
  State.put_array ..
@[simp] theorem State.putI_host (s : State) (g : Fld) (z : Int) (i j : Nat) : (s.putI g z i j).host = s.host :=
  State.put_host ..
@[simp] theorem State.putI_sec (s : State) (g : Fld) (z : Int) (i j : Nat) : (s.putI g z i j).sec = s.sec :=
  State.put_sec ..
@[simp] theorem State.putI_freeCtr (s : State) (g : Fld) (z : Int) (i j : Nat) : (s.putI g z i j).freeCtr = s.freeCtr :=
  State.put_freeCtr ..
@[simp] theorem State.putI_out (s : State) (g : Fld) (z : Int) (i j : Nat) : (s.putI g z i j).out = s.out :=
  State.put_out ..
@[simp] theorem State.putI_pending (s : State) (g : Fld) (z : Int) (i j : Nat) : (s.putI g z i j).pending = s.pending :=
  State.put_pending ..

@[simp] theorem State.bumpBy_staged (s : State) (g : Fld) (n : Nat) (i j : Nat) : (s.bumpBy g n i j).staged = s.staged :=
  State.put_staged ..
@[simp] theorem State.bumpBy_rst (s : State) (g : Fld) (n : Nat) (i j : Nat) : (s.bumpBy g n i j).rst = s.rst :=
  State.put_rst ..
@[simp] theorem State.bumpBy_bus (s : State) (g : Fld) (n : Nat) (i j : Nat) : (s.bumpBy g n i j).bus = s.bus :=
  State.put_bus ..
@[simp] theorem State.bumpBy_strobes (s : State) (g : Fld) (n : Nat) (i j : Nat) : (s.bumpBy g n i j).strobes = s.strobes :=
  State.put_strobes ..
@[simp] theorem State.bumpBy_pins (s : State) (g : Fld) (n : Nat) (i j : Nat) : (s.bumpBy g n i j).pins = s.pins :=
  State.put_pins ..
@[simp] theorem State.bumpBy_teph (s : State) (g : Fld) (n : Nat) (i j : Nat) : (s.bumpBy g n i j).teph = s.teph :=
  State.put_teph ..
@[simp] theorem State.bumpBy_nv (s : State) (g : Fld) (n : Nat) (i j : Nat) : (s.bumpBy g n i j).nv = s.nv :=
  State.put_nv ..
@[simp] theorem State.bumpBy_wires (s : State) (g : Fld) (n : Nat) (i j : Nat) : (s.bumpBy g n i j).wires = s.wires :=
  State.put_wires ..
@[simp] theorem State.bumpBy_rail (s : State) (g : Fld) (n : Nat) (i j : Nat) : (s.bumpBy g n i j).rail = s.rail :=
  State.put_rail ..
@[simp] theorem State.bumpBy_pair (s : State) (g : Fld) (n : Nat) (i j : Nat) : (s.bumpBy g n i j).pair = s.pair :=
  State.put_pair ..
@[simp] theorem State.bumpBy_pseq (s : State) (g : Fld) (n : Nat) (i j : Nat) : (s.bumpBy g n i j).pseq = s.pseq :=
  State.put_pseq ..
@[simp] theorem State.bumpBy_lane (s : State) (g : Fld) (n : Nat) (i j : Nat) : (s.bumpBy g n i j).lane = s.lane :=
  State.put_lane ..
@[simp] theorem State.bumpBy_mem (s : State) (g : Fld) (n : Nat) (i j : Nat) : (s.bumpBy g n i j).mem = s.mem :=
  State.put_mem ..
@[simp] theorem State.bumpBy_pers (s : State) (g : Fld) (n : Nat) (i j : Nat) : (s.bumpBy g n i j).pers = s.pers :=
  State.put_pers ..
@[simp] theorem State.bumpBy_fab (s : State) (g : Fld) (n : Nat) (i j : Nat) : (s.bumpBy g n i j).fab = s.fab :=
  State.put_fab ..
@[simp] theorem State.bumpBy_care (s : State) (g : Fld) (n : Nat) (i j : Nat) : (s.bumpBy g n i j).care = s.care :=
  State.put_care ..
@[simp] theorem State.bumpBy_otp (s : State) (g : Fld) (n : Nat) (i j : Nat) : (s.bumpBy g n i j).otp = s.otp :=
  State.put_otp ..
@[simp] theorem State.bumpBy_thm (s : State) (g : Fld) (n : Nat) (i j : Nat) : (s.bumpBy g n i j).thm = s.thm :=
  State.put_thm ..
@[simp] theorem State.bumpBy_comp (s : State) (g : Fld) (n : Nat) (i j : Nat) : (s.bumpBy g n i j).comp = s.comp :=
  State.put_comp ..
@[simp] theorem State.bumpBy_view (s : State) (g : Fld) (n : Nat) (i j : Nat) : (s.bumpBy g n i j).view = s.view :=
  State.put_view ..
@[simp] theorem State.bumpBy_intk (s : State) (g : Fld) (n : Nat) (i j : Nat) : (s.bumpBy g n i j).intk = s.intk :=
  State.put_intk ..
@[simp] theorem State.bumpBy_lzc (s : State) (g : Fld) (n : Nat) (i j : Nat) : (s.bumpBy g n i j).lzc = s.lzc :=
  State.put_lzc ..
@[simp] theorem State.bumpBy_blt (s : State) (g : Fld) (n : Nat) (i j : Nat) : (s.bumpBy g n i j).blt = s.blt :=
  State.put_blt ..
@[simp] theorem State.bumpBy_dram (s : State) (g : Fld) (n : Nat) (i j : Nat) : (s.bumpBy g n i j).dram = s.dram :=
  State.put_dram ..
@[simp] theorem State.bumpBy_time (s : State) (g : Fld) (n : Nat) (i j : Nat) : (s.bumpBy g n i j).time = s.time :=
  State.put_time ..
@[simp] theorem State.bumpBy_array (s : State) (g : Fld) (n : Nat) (i j : Nat) : (s.bumpBy g n i j).array = s.array :=
  State.put_array ..
@[simp] theorem State.bumpBy_host (s : State) (g : Fld) (n : Nat) (i j : Nat) : (s.bumpBy g n i j).host = s.host :=
  State.put_host ..
@[simp] theorem State.bumpBy_sec (s : State) (g : Fld) (n : Nat) (i j : Nat) : (s.bumpBy g n i j).sec = s.sec :=
  State.put_sec ..
@[simp] theorem State.bumpBy_freeCtr (s : State) (g : Fld) (n : Nat) (i j : Nat) : (s.bumpBy g n i j).freeCtr = s.freeCtr :=
  State.put_freeCtr ..
@[simp] theorem State.bumpBy_out (s : State) (g : Fld) (n : Nat) (i j : Nat) : (s.bumpBy g n i j).out = s.out :=
  State.put_out ..
@[simp] theorem State.bumpBy_pending (s : State) (g : Fld) (n : Nat) (i j : Nat) : (s.bumpBy g n i j).pending = s.pending :=
  State.put_pending ..

@[simp] theorem State.bump_staged (s : State) (g : Fld) (i j : Nat) : (s.bump g i j).staged = s.staged :=
  State.put_staged ..
@[simp] theorem State.bump_rst (s : State) (g : Fld) (i j : Nat) : (s.bump g i j).rst = s.rst :=
  State.put_rst ..
@[simp] theorem State.bump_bus (s : State) (g : Fld) (i j : Nat) : (s.bump g i j).bus = s.bus :=
  State.put_bus ..
@[simp] theorem State.bump_strobes (s : State) (g : Fld) (i j : Nat) : (s.bump g i j).strobes = s.strobes :=
  State.put_strobes ..
@[simp] theorem State.bump_pins (s : State) (g : Fld) (i j : Nat) : (s.bump g i j).pins = s.pins :=
  State.put_pins ..
@[simp] theorem State.bump_teph (s : State) (g : Fld) (i j : Nat) : (s.bump g i j).teph = s.teph :=
  State.put_teph ..
@[simp] theorem State.bump_nv (s : State) (g : Fld) (i j : Nat) : (s.bump g i j).nv = s.nv :=
  State.put_nv ..
@[simp] theorem State.bump_wires (s : State) (g : Fld) (i j : Nat) : (s.bump g i j).wires = s.wires :=
  State.put_wires ..
@[simp] theorem State.bump_rail (s : State) (g : Fld) (i j : Nat) : (s.bump g i j).rail = s.rail :=
  State.put_rail ..
@[simp] theorem State.bump_pair (s : State) (g : Fld) (i j : Nat) : (s.bump g i j).pair = s.pair :=
  State.put_pair ..
@[simp] theorem State.bump_pseq (s : State) (g : Fld) (i j : Nat) : (s.bump g i j).pseq = s.pseq :=
  State.put_pseq ..
@[simp] theorem State.bump_lane (s : State) (g : Fld) (i j : Nat) : (s.bump g i j).lane = s.lane :=
  State.put_lane ..
@[simp] theorem State.bump_mem (s : State) (g : Fld) (i j : Nat) : (s.bump g i j).mem = s.mem :=
  State.put_mem ..
@[simp] theorem State.bump_pers (s : State) (g : Fld) (i j : Nat) : (s.bump g i j).pers = s.pers :=
  State.put_pers ..
@[simp] theorem State.bump_fab (s : State) (g : Fld) (i j : Nat) : (s.bump g i j).fab = s.fab :=
  State.put_fab ..
@[simp] theorem State.bump_care (s : State) (g : Fld) (i j : Nat) : (s.bump g i j).care = s.care :=
  State.put_care ..
@[simp] theorem State.bump_otp (s : State) (g : Fld) (i j : Nat) : (s.bump g i j).otp = s.otp :=
  State.put_otp ..
@[simp] theorem State.bump_thm (s : State) (g : Fld) (i j : Nat) : (s.bump g i j).thm = s.thm :=
  State.put_thm ..
@[simp] theorem State.bump_comp (s : State) (g : Fld) (i j : Nat) : (s.bump g i j).comp = s.comp :=
  State.put_comp ..
@[simp] theorem State.bump_view (s : State) (g : Fld) (i j : Nat) : (s.bump g i j).view = s.view :=
  State.put_view ..
@[simp] theorem State.bump_intk (s : State) (g : Fld) (i j : Nat) : (s.bump g i j).intk = s.intk :=
  State.put_intk ..
@[simp] theorem State.bump_lzc (s : State) (g : Fld) (i j : Nat) : (s.bump g i j).lzc = s.lzc :=
  State.put_lzc ..
@[simp] theorem State.bump_blt (s : State) (g : Fld) (i j : Nat) : (s.bump g i j).blt = s.blt :=
  State.put_blt ..
@[simp] theorem State.bump_dram (s : State) (g : Fld) (i j : Nat) : (s.bump g i j).dram = s.dram :=
  State.put_dram ..
@[simp] theorem State.bump_time (s : State) (g : Fld) (i j : Nat) : (s.bump g i j).time = s.time :=
  State.put_time ..
@[simp] theorem State.bump_array (s : State) (g : Fld) (i j : Nat) : (s.bump g i j).array = s.array :=
  State.put_array ..
@[simp] theorem State.bump_host (s : State) (g : Fld) (i j : Nat) : (s.bump g i j).host = s.host :=
  State.put_host ..
@[simp] theorem State.bump_sec (s : State) (g : Fld) (i j : Nat) : (s.bump g i j).sec = s.sec :=
  State.put_sec ..
@[simp] theorem State.bump_freeCtr (s : State) (g : Fld) (i j : Nat) : (s.bump g i j).freeCtr = s.freeCtr :=
  State.put_freeCtr ..
@[simp] theorem State.bump_out (s : State) (g : Fld) (i j : Nat) : (s.bump g i j).out = s.out :=
  State.put_out ..
@[simp] theorem State.bump_pending (s : State) (g : Fld) (i j : Nat) : (s.bump g i j).pending = s.pending :=
  State.put_pending ..

@[simp] theorem State.count_staged (s : State) (g : Fld) (n : Nat) (i j : Nat) : (s.count g n i j).staged = s.staged :=
  State.put_staged ..
@[simp] theorem State.count_rst (s : State) (g : Fld) (n : Nat) (i j : Nat) : (s.count g n i j).rst = s.rst :=
  State.put_rst ..
@[simp] theorem State.count_bus (s : State) (g : Fld) (n : Nat) (i j : Nat) : (s.count g n i j).bus = s.bus :=
  State.put_bus ..
@[simp] theorem State.count_strobes (s : State) (g : Fld) (n : Nat) (i j : Nat) : (s.count g n i j).strobes = s.strobes :=
  State.put_strobes ..
@[simp] theorem State.count_pins (s : State) (g : Fld) (n : Nat) (i j : Nat) : (s.count g n i j).pins = s.pins :=
  State.put_pins ..
@[simp] theorem State.count_teph (s : State) (g : Fld) (n : Nat) (i j : Nat) : (s.count g n i j).teph = s.teph :=
  State.put_teph ..
@[simp] theorem State.count_nv (s : State) (g : Fld) (n : Nat) (i j : Nat) : (s.count g n i j).nv = s.nv :=
  State.put_nv ..
@[simp] theorem State.count_wires (s : State) (g : Fld) (n : Nat) (i j : Nat) : (s.count g n i j).wires = s.wires :=
  State.put_wires ..
@[simp] theorem State.count_rail (s : State) (g : Fld) (n : Nat) (i j : Nat) : (s.count g n i j).rail = s.rail :=
  State.put_rail ..
@[simp] theorem State.count_pair (s : State) (g : Fld) (n : Nat) (i j : Nat) : (s.count g n i j).pair = s.pair :=
  State.put_pair ..
@[simp] theorem State.count_pseq (s : State) (g : Fld) (n : Nat) (i j : Nat) : (s.count g n i j).pseq = s.pseq :=
  State.put_pseq ..
@[simp] theorem State.count_lane (s : State) (g : Fld) (n : Nat) (i j : Nat) : (s.count g n i j).lane = s.lane :=
  State.put_lane ..
@[simp] theorem State.count_mem (s : State) (g : Fld) (n : Nat) (i j : Nat) : (s.count g n i j).mem = s.mem :=
  State.put_mem ..
@[simp] theorem State.count_pers (s : State) (g : Fld) (n : Nat) (i j : Nat) : (s.count g n i j).pers = s.pers :=
  State.put_pers ..
@[simp] theorem State.count_fab (s : State) (g : Fld) (n : Nat) (i j : Nat) : (s.count g n i j).fab = s.fab :=
  State.put_fab ..
@[simp] theorem State.count_care (s : State) (g : Fld) (n : Nat) (i j : Nat) : (s.count g n i j).care = s.care :=
  State.put_care ..
@[simp] theorem State.count_otp (s : State) (g : Fld) (n : Nat) (i j : Nat) : (s.count g n i j).otp = s.otp :=
  State.put_otp ..
@[simp] theorem State.count_thm (s : State) (g : Fld) (n : Nat) (i j : Nat) : (s.count g n i j).thm = s.thm :=
  State.put_thm ..
@[simp] theorem State.count_comp (s : State) (g : Fld) (n : Nat) (i j : Nat) : (s.count g n i j).comp = s.comp :=
  State.put_comp ..
@[simp] theorem State.count_view (s : State) (g : Fld) (n : Nat) (i j : Nat) : (s.count g n i j).view = s.view :=
  State.put_view ..
@[simp] theorem State.count_intk (s : State) (g : Fld) (n : Nat) (i j : Nat) : (s.count g n i j).intk = s.intk :=
  State.put_intk ..
@[simp] theorem State.count_lzc (s : State) (g : Fld) (n : Nat) (i j : Nat) : (s.count g n i j).lzc = s.lzc :=
  State.put_lzc ..
@[simp] theorem State.count_blt (s : State) (g : Fld) (n : Nat) (i j : Nat) : (s.count g n i j).blt = s.blt :=
  State.put_blt ..
@[simp] theorem State.count_dram (s : State) (g : Fld) (n : Nat) (i j : Nat) : (s.count g n i j).dram = s.dram :=
  State.put_dram ..
@[simp] theorem State.count_time (s : State) (g : Fld) (n : Nat) (i j : Nat) : (s.count g n i j).time = s.time :=
  State.put_time ..
@[simp] theorem State.count_array (s : State) (g : Fld) (n : Nat) (i j : Nat) : (s.count g n i j).array = s.array :=
  State.put_array ..
@[simp] theorem State.count_host (s : State) (g : Fld) (n : Nat) (i j : Nat) : (s.count g n i j).host = s.host :=
  State.put_host ..
@[simp] theorem State.count_sec (s : State) (g : Fld) (n : Nat) (i j : Nat) : (s.count g n i j).sec = s.sec :=
  State.put_sec ..
@[simp] theorem State.count_freeCtr (s : State) (g : Fld) (n : Nat) (i j : Nat) : (s.count g n i j).freeCtr = s.freeCtr :=
  State.put_freeCtr ..
@[simp] theorem State.count_out (s : State) (g : Fld) (n : Nat) (i j : Nat) : (s.count g n i j).out = s.out :=
  State.put_out ..
@[simp] theorem State.count_pending (s : State) (g : Fld) (n : Nat) (i j : Nat) : (s.count g n i j).pending = s.pending :=
  State.put_pending ..

@[simp] theorem State.putStaged_regs (s : State) (g : Fld) (v i j : Nat) : (s.putStaged g v i j).regs = s.regs := rfl
@[simp] theorem State.putStaged_rst (s : State) (g : Fld) (v i j : Nat) : (s.putStaged g v i j).rst = s.rst := rfl
@[simp] theorem State.putStaged_bus (s : State) (g : Fld) (v i j : Nat) : (s.putStaged g v i j).bus = s.bus := rfl
@[simp] theorem State.putStaged_strobes (s : State) (g : Fld) (v i j : Nat) : (s.putStaged g v i j).strobes = s.strobes := rfl
@[simp] theorem State.putStaged_pins (s : State) (g : Fld) (v i j : Nat) : (s.putStaged g v i j).pins = s.pins := rfl
@[simp] theorem State.putStaged_teph (s : State) (g : Fld) (v i j : Nat) : (s.putStaged g v i j).teph = s.teph := rfl
@[simp] theorem State.putStaged_nv (s : State) (g : Fld) (v i j : Nat) : (s.putStaged g v i j).nv = s.nv := rfl
@[simp] theorem State.putStaged_wires (s : State) (g : Fld) (v i j : Nat) : (s.putStaged g v i j).wires = s.wires := rfl
@[simp] theorem State.putStaged_rail (s : State) (g : Fld) (v i j : Nat) : (s.putStaged g v i j).rail = s.rail := rfl
@[simp] theorem State.putStaged_pair (s : State) (g : Fld) (v i j : Nat) : (s.putStaged g v i j).pair = s.pair := rfl
@[simp] theorem State.putStaged_pseq (s : State) (g : Fld) (v i j : Nat) : (s.putStaged g v i j).pseq = s.pseq := rfl
@[simp] theorem State.putStaged_lane (s : State) (g : Fld) (v i j : Nat) : (s.putStaged g v i j).lane = s.lane := rfl
@[simp] theorem State.putStaged_mem (s : State) (g : Fld) (v i j : Nat) : (s.putStaged g v i j).mem = s.mem := rfl
@[simp] theorem State.putStaged_pers (s : State) (g : Fld) (v i j : Nat) : (s.putStaged g v i j).pers = s.pers := rfl
@[simp] theorem State.putStaged_fab (s : State) (g : Fld) (v i j : Nat) : (s.putStaged g v i j).fab = s.fab := rfl
@[simp] theorem State.putStaged_care (s : State) (g : Fld) (v i j : Nat) : (s.putStaged g v i j).care = s.care := rfl
@[simp] theorem State.putStaged_otp (s : State) (g : Fld) (v i j : Nat) : (s.putStaged g v i j).otp = s.otp := rfl
@[simp] theorem State.putStaged_thm (s : State) (g : Fld) (v i j : Nat) : (s.putStaged g v i j).thm = s.thm := rfl
@[simp] theorem State.putStaged_comp (s : State) (g : Fld) (v i j : Nat) : (s.putStaged g v i j).comp = s.comp := rfl
@[simp] theorem State.putStaged_view (s : State) (g : Fld) (v i j : Nat) : (s.putStaged g v i j).view = s.view := rfl
@[simp] theorem State.putStaged_intk (s : State) (g : Fld) (v i j : Nat) : (s.putStaged g v i j).intk = s.intk := rfl
@[simp] theorem State.putStaged_lzc (s : State) (g : Fld) (v i j : Nat) : (s.putStaged g v i j).lzc = s.lzc := rfl
@[simp] theorem State.putStaged_blt (s : State) (g : Fld) (v i j : Nat) : (s.putStaged g v i j).blt = s.blt := rfl
@[simp] theorem State.putStaged_dram (s : State) (g : Fld) (v i j : Nat) : (s.putStaged g v i j).dram = s.dram := rfl
@[simp] theorem State.putStaged_time (s : State) (g : Fld) (v i j : Nat) : (s.putStaged g v i j).time = s.time := rfl
@[simp] theorem State.putStaged_array (s : State) (g : Fld) (v i j : Nat) : (s.putStaged g v i j).array = s.array := rfl
@[simp] theorem State.putStaged_host (s : State) (g : Fld) (v i j : Nat) : (s.putStaged g v i j).host = s.host := rfl
@[simp] theorem State.putStaged_sec (s : State) (g : Fld) (v i j : Nat) : (s.putStaged g v i j).sec = s.sec := rfl
@[simp] theorem State.putStaged_freeCtr (s : State) (g : Fld) (v i j : Nat) : (s.putStaged g v i j).freeCtr = s.freeCtr := rfl
@[simp] theorem State.putStaged_out (s : State) (g : Fld) (v i j : Nat) : (s.putStaged g v i j).out = s.out := rfl
@[simp] theorem State.putStaged_pending (s : State) (g : Fld) (v i j : Nat) : (s.putStaged g v i j).pending = s.pending := rfl

end Sys2Proof.Machine
end

