-- ==== Sys2Proof/Laws/Field.lean ====
section
/-!
SUPPORT. Laws of registers and fields: a field read after a write to it gives the value wrapped to its width; a write leaves
every other word and every other field alone.
-/

namespace Sys2Proof.Machine

open Sys2Proof

@[simp] theorem State.word_setWord_self (s : State) (off : Nat) (w : Word) : (s.setWord off w).word off = w :=
  Sparse.get_set_self ..

theorem State.word_setWord_ne (s : State) {off k : Nat} (w : Word) (h : k ≠ off) : (s.setWord off w).word k = s.word k :=
  Sparse.get_set_ne _ _ w h

theorem State.word_eq_of_regs {s t : State} (h : t.regs = s.regs) (k : Nat) : t.word k = s.word k := by
  unfold State.word; rw [h]

/-- Bit `n` of a merged word. -/
theorem mergeBits_toNat_testBit (m a b : Word) (n : Nat) (hn : n < 32) :
    (mergeBits m a b).toNat.testBit n = if m.toNat.testBit n then b.toNat.testBit n else a.toNat.testBit n := by
  have : ∀ x : Word, x.toNat.testBit n = x.getLsbD n := fun _ => rfl
  simp only [this, mergeBits]
  simp only [BitVec.getLsbD_or, BitVec.getLsbD_and, BitVec.getLsbD_not, hn, decide_true, Bool.true_and]
  cases m.getLsbD n <;> simp

/-- Bit `n` of the mask of a field. -/
theorem mask_testBit (l w n : Nat) : ((2 ^ w - 1) * 2 ^ l).testBit n = (decide (l ≤ n) && decide (n - l < w)) := by
  rw [Nat.testBit_mul_two_pow, Nat.testBit_two_pow_sub_one]

/-- A field write leaves every word but the field's own alone. -/
theorem State.word_put_ne (s : State) (f : Fld) (v i j : Nat) {k : Nat} (h : k ≠ f.off i j)
    (h2 : f.lsb + f.width ≤ 32 ∨ k ≠ f.off i j + 4) : (s.put f v i j).word k = s.word k := by
  unfold State.put
  split
  · split
    · exact State.word_setWord_ne _ _ h
    · rename_i hw
      rw [State.word_setWord_ne _ _ (h2.resolve_left hw), State.word_setWord_ne _ _ h]
  · rfl

/-- A field depends on its own words only. -/
theorem State.get_congr {s t : State} (g : Fld) (k l : Nat) (h : t.word (g.off k l) = s.word (g.off k l))
    (h2 : g.lsb + g.width ≤ 32 ∨ t.word (g.off k l + 4) = s.word (g.off k l + 4)) : t.get g k l = s.get g k l := by
  unfold State.get
  split
  · simp only [h]
  · rename_i hw; simp only [h, h2.resolve_left hw]

theorem State.get_lt (s : State) (f : Fld) (i j : Nat) : s.get f i j < 2 ^ f.width := by
  unfold State.get
  split <;> exact Nat.mod_lt _ (Nat.two_pow_pos _)

/-- A narrow field read after a write to it. -/
theorem State.get_put_narrow (s : State) (f : Fld) (v i j : Nat) (h : f.lsb + f.width ≤ 32) (hr : f.inRange i j) :
    (s.put f v i j).get f i j = v % 2 ^ f.width := by
  unfold State.get State.put
  rw [if_pos hr]
  simp only [h, if_true, State.word_setWord_self]
  apply Nat.eq_of_testBit_eq
  intro n
  rw [Nat.testBit_mod_two_pow, Nat.testBit_mod_two_pow, Nat.testBit_div_two_pow]
  by_cases hn : n < f.width
  · have h1 : f.lsb + n < 32 := by omega
    rw [Nat.add_comm n f.lsb] at *
    rw [mergeBits_toNat_testBit _ _ _ _ h1]
    simp only [fieldMask, BitVec.toNat_ofNat, Nat.testBit_mod_two_pow, h1, Nat.testBit_mul_two_pow]
    simp [hn]
  · simp [hn]

/-- The bits of another narrow field of the same word stay. -/
theorem State.get_put_bits (s : State) (f g : Fld) (v i j k l : Nat) (hf : f.lsb + f.width ≤ 32) (hg : g.lsb + g.width ≤ 32)
    (ho : g.off k l = f.off i j) (hd : f.lsb + f.width ≤ g.lsb ∨ g.lsb + g.width ≤ f.lsb) :
    (s.put f v i j).get g k l = s.get g k l := by
  by_cases hr : f.inRange i j
  case neg => unfold State.put; rw [if_neg hr]
  unfold State.get State.put
  rw [if_pos hr]
  simp only [hf, hg, if_true, ho, State.word_setWord_self]
  apply Nat.eq_of_testBit_eq
  intro n
  rw [Nat.testBit_mod_two_pow, Nat.testBit_mod_two_pow, Nat.testBit_div_two_pow, Nat.testBit_div_two_pow]
  by_cases hn : n < g.width
  · have h1 : n + g.lsb < 32 := by omega
    rw [mergeBits_toNat_testBit _ _ _ _ h1]
    have : (BitVec.toNat (fieldMask f.lsb f.width)).testBit (n + g.lsb) = false := by
      simp only [fieldMask, BitVec.toNat_ofNat, Nat.testBit_mod_two_pow, mask_testBit]
      rcases hd with hd | hd
      · have : ¬ (n + g.lsb - f.lsb < f.width) := by omega
        simp [this]
      · have : ¬ (f.lsb ≤ n + g.lsb) := by omega
        simp [this]
    simp [this]
  · simp [hn]

/-- A field write leaves every field apart from it alone. -/
theorem State.get_put_apart (s : State) (f g : Fld) (v i j k l : Nat) (h : f.apart i j g k l) :
    (s.put f v i j).get g k l = s.get g k l := by
  obtain ⟨h1, h2, h3, h4⟩ := h
  by_cases ho : g.off k l = f.off i j
  · rcases h1 with h1 | ⟨hf, hg, hd⟩
    · exact absurd ho h1
    · exact State.get_put_bits s f g v i j k l hf hg ho hd
  · apply State.get_congr
    · exact State.word_put_ne s f v i j ho h2
    · rcases h3 with h3 | h3
      · exact Or.inl h3
      · right
        apply State.word_put_ne s f v i j h3
        by_cases hf : f.lsb + f.width ≤ 32
        · exact Or.inl hf
        · right; intro e; exact ho (by omega)

/-- Bit `n` of a pair of words. -/
theorem pair_testBit (lo hi : Word) (n : Nat) :
    (lo.toNat + 2 ^ 32 * hi.toNat).testBit n = if n < 32 then lo.toNat.testBit n else hi.toNat.testBit (n - 32) := by
  rw [Nat.add_comm, Nat.testBit_two_pow_mul_add _ lo.isLt]

/-- A field of a pair read after a write to it. -/
theorem State.get_put_wide (s : State) (f : Fld) (v i j : Nat) (h : ¬ f.lsb + f.width ≤ 32) (h64 : f.lsb + f.width ≤ 64)
    (hr : f.inRange i j) :
    (s.put f v i j).get f i j = v % 2 ^ f.width := by
  have hne : f.off i j ≠ f.off i j + 4 := by omega
  unfold State.get State.put
  rw [if_pos hr]
  simp only [h, if_false, State.word_setWord_self, State.word_setWord_ne _ _ hne,
    State.word_setWord_ne _ _ (Ne.symm hne)]
  apply Nat.eq_of_testBit_eq
  intro n
  rw [Nat.testBit_mod_two_pow, Nat.testBit_mod_two_pow, Nat.testBit_div_two_pow, pair_testBit]
  by_cases hn : n < f.width
  · split
    · rename_i hlt
      rw [mergeBits_toNat_testBit _ _ _ _ hlt]
      simp only [BitVec.toNat_ofNat, Nat.testBit_mod_two_pow, hlt, Nat.testBit_mul_two_pow]
      simp [hn]
    · rename_i hge
      have h1 : n + f.lsb - 32 < 32 := by omega
      have h2 : n + f.lsb - 32 + 32 = n + f.lsb := by omega
      rw [mergeBits_toNat_testBit _ _ _ _ h1]
      simp only [BitVec.toNat_ofNat, Nat.testBit_mod_two_pow, Nat.testBit_div_two_pow, h1, h2,
        Nat.testBit_mul_two_pow]
      simp [hn]
  · simp [hn]

/-- A field read after a write to it: the value wrapped to the field's width. -/
theorem State.get_put_self (s : State) (f : Fld) (v i j : Nat) (h : f.lsb + f.width ≤ 64) (hr : f.inRange i j) :
    (s.put f v i j).get f i j = v % 2 ^ f.width := by
  by_cases hw : f.lsb + f.width ≤ 32
  · exact State.get_put_narrow s f v i j hw hr
  · exact State.get_put_wide s f v i j hw h hr

/-- Beyond the elements a field counts nothing is written. -/
theorem State.put_of_not_inRange (s : State) (f : Fld) (v i j : Nat) (h : ¬ f.inRange i j) : s.put f v i j = s := by
  unfold State.put
  rw [if_neg h]

end Sys2Proof.Machine
end

