-- ==== Sys2Proof/Laws/Wires.lean ====
section
/-!
SUPPORT. What the operations that send blocks change: the lane transmitters (`State.wires`), nothing else.
-/

namespace Sys2Proof.Machine

open Sys2Proof

/-- A fold of operations that change the lane transmitters only changes nothing else. -/
theorem State.foldl_wires {α : Type} {f : State → α → State} (hf : ∀ s a, f s a = { s with wires := (f s a).wires }) (l : List α) (s : State) :
    l.foldl f s = { s with wires := (l.foldl f s).wires } := by
  induction l generalizing s with
  | nil => rfl
  | cons a l ih =>
    rw [List.foldl_cons, ih (f s a), hf s a]

theorem State.sendBlock_eq (s : State) (n header payload : Nat) :
    s.sendBlock n header payload = { s with wires := (s.sendBlock n header payload).wires } := rfl

theorem State.sendFrame_eq (s : State) (base n : Nat) (f : List Byte) :
    s.sendFrame base n f = { s with wires := (s.sendFrame base n f).wires } :=
  State.foldl_wires (fun _ _ => rfl) _ s

theorem State.sendMessage_eq (s : State) (base n ty : Nat) (seq : Option Nat) (payload : List Byte) :
    s.sendMessage base n ty seq payload = { s with wires := (s.sendMessage base n ty seq payload).wires } :=
  State.foldl_wires (fun _ _ => State.sendFrame_eq ..) _ s

theorem State.pairFrames_eq (s : State) (m : PairMsg) (q : Option Nat) :
    s.pairFrames m q = { s with wires := (s.pairFrames m q).wires } := State.sendMessage_eq ..

theorem State.arrayFrame_eq (s : State) (a ty : Nat) (q : Option Nat) (payload : List Byte) :
    s.arrayFrame a ty q payload = { s with wires := (s.arrayFrame a ty q payload).wires } := State.sendMessage_eq ..

theorem State.sendCtl_eq (s : State) (j ty : Nat) (bytes : List Nat) :
    s.sendCtl j ty bytes = { s with wires := (s.sendCtl j ty bytes).wires } :=
  State.foldl_wires (fun _ _ => rfl) _ s

theorem State.sendPanel_eq (s : State) (lens : Bool) (ty : Nat) (bytes : List Nat) :
    s.sendPanel lens ty bytes = { s with wires := (s.sendPanel lens ty bytes).wires } :=
  State.foldl_wires (fun _ _ => State.sendCtl_eq ..) _ s

@[simp] theorem State.pairFrames_regs (s : State) (m : PairMsg) (q : Option Nat) : (s.pairFrames m q).regs = s.regs := by rw [State.pairFrames_eq]
@[simp] theorem State.pairFrames_staged (s : State) (m : PairMsg) (q : Option Nat) : (s.pairFrames m q).staged = s.staged := by rw [State.pairFrames_eq]
@[simp] theorem State.pairFrames_rst (s : State) (m : PairMsg) (q : Option Nat) : (s.pairFrames m q).rst = s.rst := by rw [State.pairFrames_eq]
@[simp] theorem State.pairFrames_bus (s : State) (m : PairMsg) (q : Option Nat) : (s.pairFrames m q).bus = s.bus := by rw [State.pairFrames_eq]
@[simp] theorem State.pairFrames_strobes (s : State) (m : PairMsg) (q : Option Nat) : (s.pairFrames m q).strobes = s.strobes := by rw [State.pairFrames_eq]
@[simp] theorem State.pairFrames_pins (s : State) (m : PairMsg) (q : Option Nat) : (s.pairFrames m q).pins = s.pins := by rw [State.pairFrames_eq]
@[simp] theorem State.pairFrames_teph (s : State) (m : PairMsg) (q : Option Nat) : (s.pairFrames m q).teph = s.teph := by rw [State.pairFrames_eq]
@[simp] theorem State.pairFrames_nv (s : State) (m : PairMsg) (q : Option Nat) : (s.pairFrames m q).nv = s.nv := by rw [State.pairFrames_eq]
@[simp] theorem State.pairFrames_rail (s : State) (m : PairMsg) (q : Option Nat) : (s.pairFrames m q).rail = s.rail := by rw [State.pairFrames_eq]
@[simp] theorem State.pairFrames_pair (s : State) (m : PairMsg) (q : Option Nat) : (s.pairFrames m q).pair = s.pair := by rw [State.pairFrames_eq]
@[simp] theorem State.pairFrames_pseq (s : State) (m : PairMsg) (q : Option Nat) : (s.pairFrames m q).pseq = s.pseq := by rw [State.pairFrames_eq]
@[simp] theorem State.pairFrames_lane (s : State) (m : PairMsg) (q : Option Nat) : (s.pairFrames m q).lane = s.lane := by rw [State.pairFrames_eq]
@[simp] theorem State.pairFrames_mem (s : State) (m : PairMsg) (q : Option Nat) : (s.pairFrames m q).mem = s.mem := by rw [State.pairFrames_eq]
@[simp] theorem State.pairFrames_pers (s : State) (m : PairMsg) (q : Option Nat) : (s.pairFrames m q).pers = s.pers := by rw [State.pairFrames_eq]
@[simp] theorem State.pairFrames_fab (s : State) (m : PairMsg) (q : Option Nat) : (s.pairFrames m q).fab = s.fab := by rw [State.pairFrames_eq]
@[simp] theorem State.pairFrames_care (s : State) (m : PairMsg) (q : Option Nat) : (s.pairFrames m q).care = s.care := by rw [State.pairFrames_eq]
@[simp] theorem State.pairFrames_otp (s : State) (m : PairMsg) (q : Option Nat) : (s.pairFrames m q).otp = s.otp := by rw [State.pairFrames_eq]
@[simp] theorem State.pairFrames_thm (s : State) (m : PairMsg) (q : Option Nat) : (s.pairFrames m q).thm = s.thm := by rw [State.pairFrames_eq]
@[simp] theorem State.pairFrames_comp (s : State) (m : PairMsg) (q : Option Nat) : (s.pairFrames m q).comp = s.comp := by rw [State.pairFrames_eq]
@[simp] theorem State.pairFrames_view (s : State) (m : PairMsg) (q : Option Nat) : (s.pairFrames m q).view = s.view := by rw [State.pairFrames_eq]
@[simp] theorem State.pairFrames_intk (s : State) (m : PairMsg) (q : Option Nat) : (s.pairFrames m q).intk = s.intk := by rw [State.pairFrames_eq]
@[simp] theorem State.pairFrames_lzc (s : State) (m : PairMsg) (q : Option Nat) : (s.pairFrames m q).lzc = s.lzc := by rw [State.pairFrames_eq]
@[simp] theorem State.pairFrames_blt (s : State) (m : PairMsg) (q : Option Nat) : (s.pairFrames m q).blt = s.blt := by rw [State.pairFrames_eq]
@[simp] theorem State.pairFrames_dram (s : State) (m : PairMsg) (q : Option Nat) : (s.pairFrames m q).dram = s.dram := by rw [State.pairFrames_eq]
@[simp] theorem State.pairFrames_time (s : State) (m : PairMsg) (q : Option Nat) : (s.pairFrames m q).time = s.time := by rw [State.pairFrames_eq]
@[simp] theorem State.pairFrames_array (s : State) (m : PairMsg) (q : Option Nat) : (s.pairFrames m q).array = s.array := by rw [State.pairFrames_eq]
@[simp] theorem State.pairFrames_host (s : State) (m : PairMsg) (q : Option Nat) : (s.pairFrames m q).host = s.host := by rw [State.pairFrames_eq]
@[simp] theorem State.pairFrames_sec (s : State) (m : PairMsg) (q : Option Nat) : (s.pairFrames m q).sec = s.sec := by rw [State.pairFrames_eq]
@[simp] theorem State.pairFrames_freeCtr (s : State) (m : PairMsg) (q : Option Nat) : (s.pairFrames m q).freeCtr = s.freeCtr := by rw [State.pairFrames_eq]
@[simp] theorem State.pairFrames_out (s : State) (m : PairMsg) (q : Option Nat) : (s.pairFrames m q).out = s.out := by rw [State.pairFrames_eq]
@[simp] theorem State.pairFrames_pending (s : State) (m : PairMsg) (q : Option Nat) : (s.pairFrames m q).pending = s.pending := by rw [State.pairFrames_eq]

@[simp] theorem State.arrayFrame_regs (s : State) (a ty : Nat) (q : Option Nat) (p : List Byte) : (s.arrayFrame a ty q p).regs = s.regs := by rw [State.arrayFrame_eq]
@[simp] theorem State.arrayFrame_staged (s : State) (a ty : Nat) (q : Option Nat) (p : List Byte) : (s.arrayFrame a ty q p).staged = s.staged := by rw [State.arrayFrame_eq]
@[simp] theorem State.arrayFrame_rst (s : State) (a ty : Nat) (q : Option Nat) (p : List Byte) : (s.arrayFrame a ty q p).rst = s.rst := by rw [State.arrayFrame_eq]
@[simp] theorem State.arrayFrame_bus (s : State) (a ty : Nat) (q : Option Nat) (p : List Byte) : (s.arrayFrame a ty q p).bus = s.bus := by rw [State.arrayFrame_eq]
@[simp] theorem State.arrayFrame_strobes (s : State) (a ty : Nat) (q : Option Nat) (p : List Byte) : (s.arrayFrame a ty q p).strobes = s.strobes := by rw [State.arrayFrame_eq]
@[simp] theorem State.arrayFrame_pins (s : State) (a ty : Nat) (q : Option Nat) (p : List Byte) : (s.arrayFrame a ty q p).pins = s.pins := by rw [State.arrayFrame_eq]
@[simp] theorem State.arrayFrame_teph (s : State) (a ty : Nat) (q : Option Nat) (p : List Byte) : (s.arrayFrame a ty q p).teph = s.teph := by rw [State.arrayFrame_eq]
@[simp] theorem State.arrayFrame_nv (s : State) (a ty : Nat) (q : Option Nat) (p : List Byte) : (s.arrayFrame a ty q p).nv = s.nv := by rw [State.arrayFrame_eq]
@[simp] theorem State.arrayFrame_rail (s : State) (a ty : Nat) (q : Option Nat) (p : List Byte) : (s.arrayFrame a ty q p).rail = s.rail := by rw [State.arrayFrame_eq]
@[simp] theorem State.arrayFrame_pair (s : State) (a ty : Nat) (q : Option Nat) (p : List Byte) : (s.arrayFrame a ty q p).pair = s.pair := by rw [State.arrayFrame_eq]
@[simp] theorem State.arrayFrame_pseq (s : State) (a ty : Nat) (q : Option Nat) (p : List Byte) : (s.arrayFrame a ty q p).pseq = s.pseq := by rw [State.arrayFrame_eq]
@[simp] theorem State.arrayFrame_lane (s : State) (a ty : Nat) (q : Option Nat) (p : List Byte) : (s.arrayFrame a ty q p).lane = s.lane := by rw [State.arrayFrame_eq]
@[simp] theorem State.arrayFrame_mem (s : State) (a ty : Nat) (q : Option Nat) (p : List Byte) : (s.arrayFrame a ty q p).mem = s.mem := by rw [State.arrayFrame_eq]
@[simp] theorem State.arrayFrame_pers (s : State) (a ty : Nat) (q : Option Nat) (p : List Byte) : (s.arrayFrame a ty q p).pers = s.pers := by rw [State.arrayFrame_eq]
@[simp] theorem State.arrayFrame_fab (s : State) (a ty : Nat) (q : Option Nat) (p : List Byte) : (s.arrayFrame a ty q p).fab = s.fab := by rw [State.arrayFrame_eq]
@[simp] theorem State.arrayFrame_care (s : State) (a ty : Nat) (q : Option Nat) (p : List Byte) : (s.arrayFrame a ty q p).care = s.care := by rw [State.arrayFrame_eq]
@[simp] theorem State.arrayFrame_otp (s : State) (a ty : Nat) (q : Option Nat) (p : List Byte) : (s.arrayFrame a ty q p).otp = s.otp := by rw [State.arrayFrame_eq]
@[simp] theorem State.arrayFrame_thm (s : State) (a ty : Nat) (q : Option Nat) (p : List Byte) : (s.arrayFrame a ty q p).thm = s.thm := by rw [State.arrayFrame_eq]
@[simp] theorem State.arrayFrame_comp (s : State) (a ty : Nat) (q : Option Nat) (p : List Byte) : (s.arrayFrame a ty q p).comp = s.comp := by rw [State.arrayFrame_eq]
@[simp] theorem State.arrayFrame_view (s : State) (a ty : Nat) (q : Option Nat) (p : List Byte) : (s.arrayFrame a ty q p).view = s.view := by rw [State.arrayFrame_eq]
@[simp] theorem State.arrayFrame_intk (s : State) (a ty : Nat) (q : Option Nat) (p : List Byte) : (s.arrayFrame a ty q p).intk = s.intk := by rw [State.arrayFrame_eq]
@[simp] theorem State.arrayFrame_lzc (s : State) (a ty : Nat) (q : Option Nat) (p : List Byte) : (s.arrayFrame a ty q p).lzc = s.lzc := by rw [State.arrayFrame_eq]
@[simp] theorem State.arrayFrame_blt (s : State) (a ty : Nat) (q : Option Nat) (p : List Byte) : (s.arrayFrame a ty q p).blt = s.blt := by rw [State.arrayFrame_eq]
@[simp] theorem State.arrayFrame_dram (s : State) (a ty : Nat) (q : Option Nat) (p : List Byte) : (s.arrayFrame a ty q p).dram = s.dram := by rw [State.arrayFrame_eq]
@[simp] theorem State.arrayFrame_time (s : State) (a ty : Nat) (q : Option Nat) (p : List Byte) : (s.arrayFrame a ty q p).time = s.time := by rw [State.arrayFrame_eq]
@[simp] theorem State.arrayFrame_array (s : State) (a ty : Nat) (q : Option Nat) (p : List Byte) : (s.arrayFrame a ty q p).array = s.array := by rw [State.arrayFrame_eq]
@[simp] theorem State.arrayFrame_host (s : State) (a ty : Nat) (q : Option Nat) (p : List Byte) : (s.arrayFrame a ty q p).host = s.host := by rw [State.arrayFrame_eq]
@[simp] theorem State.arrayFrame_sec (s : State) (a ty : Nat) (q : Option Nat) (p : List Byte) : (s.arrayFrame a ty q p).sec = s.sec := by rw [State.arrayFrame_eq]
@[simp] theorem State.arrayFrame_freeCtr (s : State) (a ty : Nat) (q : Option Nat) (p : List Byte) : (s.arrayFrame a ty q p).freeCtr = s.freeCtr := by rw [State.arrayFrame_eq]
@[simp] theorem State.arrayFrame_out (s : State) (a ty : Nat) (q : Option Nat) (p : List Byte) : (s.arrayFrame a ty q p).out = s.out := by rw [State.arrayFrame_eq]
@[simp] theorem State.arrayFrame_pending (s : State) (a ty : Nat) (q : Option Nat) (p : List Byte) : (s.arrayFrame a ty q p).pending = s.pending := by rw [State.arrayFrame_eq]

@[simp] theorem State.sendPanel_regs (s : State) (b : Bool) (ty : Nat) (l : List Nat) : (s.sendPanel b ty l).regs = s.regs := by rw [State.sendPanel_eq]
@[simp] theorem State.sendPanel_staged (s : State) (b : Bool) (ty : Nat) (l : List Nat) : (s.sendPanel b ty l).staged = s.staged := by rw [State.sendPanel_eq]
@[simp] theorem State.sendPanel_rst (s : State) (b : Bool) (ty : Nat) (l : List Nat) : (s.sendPanel b ty l).rst = s.rst := by rw [State.sendPanel_eq]
@[simp] theorem State.sendPanel_bus (s : State) (b : Bool) (ty : Nat) (l : List Nat) : (s.sendPanel b ty l).bus = s.bus := by rw [State.sendPanel_eq]
@[simp] theorem State.sendPanel_strobes (s : State) (b : Bool) (ty : Nat) (l : List Nat) : (s.sendPanel b ty l).strobes = s.strobes := by rw [State.sendPanel_eq]
@[simp] theorem State.sendPanel_pins (s : State) (b : Bool) (ty : Nat) (l : List Nat) : (s.sendPanel b ty l).pins = s.pins := by rw [State.sendPanel_eq]
@[simp] theorem State.sendPanel_teph (s : State) (b : Bool) (ty : Nat) (l : List Nat) : (s.sendPanel b ty l).teph = s.teph := by rw [State.sendPanel_eq]
@[simp] theorem State.sendPanel_nv (s : State) (b : Bool) (ty : Nat) (l : List Nat) : (s.sendPanel b ty l).nv = s.nv := by rw [State.sendPanel_eq]
@[simp] theorem State.sendPanel_rail (s : State) (b : Bool) (ty : Nat) (l : List Nat) : (s.sendPanel b ty l).rail = s.rail := by rw [State.sendPanel_eq]
@[simp] theorem State.sendPanel_pair (s : State) (b : Bool) (ty : Nat) (l : List Nat) : (s.sendPanel b ty l).pair = s.pair := by rw [State.sendPanel_eq]
@[simp] theorem State.sendPanel_pseq (s : State) (b : Bool) (ty : Nat) (l : List Nat) : (s.sendPanel b ty l).pseq = s.pseq := by rw [State.sendPanel_eq]
@[simp] theorem State.sendPanel_lane (s : State) (b : Bool) (ty : Nat) (l : List Nat) : (s.sendPanel b ty l).lane = s.lane := by rw [State.sendPanel_eq]
@[simp] theorem State.sendPanel_mem (s : State) (b : Bool) (ty : Nat) (l : List Nat) : (s.sendPanel b ty l).mem = s.mem := by rw [State.sendPanel_eq]
@[simp] theorem State.sendPanel_pers (s : State) (b : Bool) (ty : Nat) (l : List Nat) : (s.sendPanel b ty l).pers = s.pers := by rw [State.sendPanel_eq]
@[simp] theorem State.sendPanel_fab (s : State) (b : Bool) (ty : Nat) (l : List Nat) : (s.sendPanel b ty l).fab = s.fab := by rw [State.sendPanel_eq]
@[simp] theorem State.sendPanel_care (s : State) (b : Bool) (ty : Nat) (l : List Nat) : (s.sendPanel b ty l).care = s.care := by rw [State.sendPanel_eq]
@[simp] theorem State.sendPanel_otp (s : State) (b : Bool) (ty : Nat) (l : List Nat) : (s.sendPanel b ty l).otp = s.otp := by rw [State.sendPanel_eq]
@[simp] theorem State.sendPanel_thm (s : State) (b : Bool) (ty : Nat) (l : List Nat) : (s.sendPanel b ty l).thm = s.thm := by rw [State.sendPanel_eq]
@[simp] theorem State.sendPanel_comp (s : State) (b : Bool) (ty : Nat) (l : List Nat) : (s.sendPanel b ty l).comp = s.comp := by rw [State.sendPanel_eq]
@[simp] theorem State.sendPanel_view (s : State) (b : Bool) (ty : Nat) (l : List Nat) : (s.sendPanel b ty l).view = s.view := by rw [State.sendPanel_eq]
@[simp] theorem State.sendPanel_intk (s : State) (b : Bool) (ty : Nat) (l : List Nat) : (s.sendPanel b ty l).intk = s.intk := by rw [State.sendPanel_eq]
@[simp] theorem State.sendPanel_lzc (s : State) (b : Bool) (ty : Nat) (l : List Nat) : (s.sendPanel b ty l).lzc = s.lzc := by rw [State.sendPanel_eq]
@[simp] theorem State.sendPanel_blt (s : State) (b : Bool) (ty : Nat) (l : List Nat) : (s.sendPanel b ty l).blt = s.blt := by rw [State.sendPanel_eq]
@[simp] theorem State.sendPanel_dram (s : State) (b : Bool) (ty : Nat) (l : List Nat) : (s.sendPanel b ty l).dram = s.dram := by rw [State.sendPanel_eq]
@[simp] theorem State.sendPanel_time (s : State) (b : Bool) (ty : Nat) (l : List Nat) : (s.sendPanel b ty l).time = s.time := by rw [State.sendPanel_eq]
@[simp] theorem State.sendPanel_array (s : State) (b : Bool) (ty : Nat) (l : List Nat) : (s.sendPanel b ty l).array = s.array := by rw [State.sendPanel_eq]
@[simp] theorem State.sendPanel_host (s : State) (b : Bool) (ty : Nat) (l : List Nat) : (s.sendPanel b ty l).host = s.host := by rw [State.sendPanel_eq]
@[simp] theorem State.sendPanel_sec (s : State) (b : Bool) (ty : Nat) (l : List Nat) : (s.sendPanel b ty l).sec = s.sec := by rw [State.sendPanel_eq]
@[simp] theorem State.sendPanel_freeCtr (s : State) (b : Bool) (ty : Nat) (l : List Nat) : (s.sendPanel b ty l).freeCtr = s.freeCtr := by rw [State.sendPanel_eq]
@[simp] theorem State.sendPanel_out (s : State) (b : Bool) (ty : Nat) (l : List Nat) : (s.sendPanel b ty l).out = s.out := by rw [State.sendPanel_eq]
@[simp] theorem State.sendPanel_pending (s : State) (b : Bool) (ty : Nat) (l : List Nat) : (s.sendPanel b ty l).pending = s.pending := by rw [State.sendPanel_eq]

end Sys2Proof.Machine
end

