-- ==== Sys2Proof/Laws/Events.lean ====
section
/-!
SUPPORT. What the shared operations that report an event change: a raised flag, an entry offered to the tephra record, a packet on
the pair link (R89 to R91, R444, R568 to R573). For each, the fields of State it leaves alone.
-/

namespace Sys2Proof.Machine

open Sys2Proof

@[simp] theorem State.msixSend_staged (s : State) (v : Nat) : (s.msixSend v).staged = s.staged := by
  unfold State.msixSend; repeat' (first | rfl | (simp; done) | split)
@[simp] theorem State.msixSend_rst (s : State) (v : Nat) : (s.msixSend v).rst = s.rst := by
  unfold State.msixSend; repeat' (first | rfl | (simp; done) | split)
@[simp] theorem State.msixSend_bus (s : State) (v : Nat) : (s.msixSend v).bus = s.bus := by
  unfold State.msixSend; repeat' (first | rfl | (simp; done) | split)
@[simp] theorem State.msixSend_strobes (s : State) (v : Nat) : (s.msixSend v).strobes = s.strobes := by
  unfold State.msixSend; repeat' (first | rfl | (simp; done) | split)
@[simp] theorem State.msixSend_pins (s : State) (v : Nat) : (s.msixSend v).pins = s.pins := by
  unfold State.msixSend; repeat' (first | rfl | (simp; done) | split)
@[simp] theorem State.msixSend_teph (s : State) (v : Nat) : (s.msixSend v).teph = s.teph := by
  unfold State.msixSend; repeat' (first | rfl | (simp; done) | split)
@[simp] theorem State.msixSend_nv (s : State) (v : Nat) : (s.msixSend v).nv = s.nv := by
  unfold State.msixSend; repeat' (first | rfl | (simp; done) | split)
@[simp] theorem State.msixSend_wires (s : State) (v : Nat) : (s.msixSend v).wires = s.wires := by
  unfold State.msixSend; repeat' (first | rfl | (simp; done) | split)
@[simp] theorem State.msixSend_rail (s : State) (v : Nat) : (s.msixSend v).rail = s.rail := by
  unfold State.msixSend; repeat' (first | rfl | (simp; done) | split)
@[simp] theorem State.msixSend_pair (s : State) (v : Nat) : (s.msixSend v).pair = s.pair := by
  unfold State.msixSend; repeat' (first | rfl | (simp; done) | split)
@[simp] theorem State.msixSend_pseq (s : State) (v : Nat) : (s.msixSend v).pseq = s.pseq := by
  unfold State.msixSend; repeat' (first | rfl | (simp; done) | split)
@[simp] theorem State.msixSend_lane (s : State) (v : Nat) : (s.msixSend v).lane = s.lane := by
  unfold State.msixSend; repeat' (first | rfl | (simp; done) | split)
@[simp] theorem State.msixSend_mem (s : State) (v : Nat) : (s.msixSend v).mem = s.mem := by
  unfold State.msixSend; repeat' (first | rfl | (simp; done) | split)
@[simp] theorem State.msixSend_pers (s : State) (v : Nat) : (s.msixSend v).pers = s.pers := by
  unfold State.msixSend; repeat' (first | rfl | (simp; done) | split)
@[simp] theorem State.msixSend_fab (s : State) (v : Nat) : (s.msixSend v).fab = s.fab := by
  unfold State.msixSend; repeat' (first | rfl | (simp; done) | split)
@[simp] theorem State.msixSend_care (s : State) (v : Nat) : (s.msixSend v).care = s.care := by
  unfold State.msixSend; repeat' (first | rfl | (simp; done) | split)
@[simp] theorem State.msixSend_otp (s : State) (v : Nat) : (s.msixSend v).otp = s.otp := by
  unfold State.msixSend; repeat' (first | rfl | (simp; done) | split)
@[simp] theorem State.msixSend_thm (s : State) (v : Nat) : (s.msixSend v).thm = s.thm := by
  unfold State.msixSend; repeat' (first | rfl | (simp; done) | split)
@[simp] theorem State.msixSend_comp (s : State) (v : Nat) : (s.msixSend v).comp = s.comp := by
  unfold State.msixSend; repeat' (first | rfl | (simp; done) | split)
@[simp] theorem State.msixSend_view (s : State) (v : Nat) : (s.msixSend v).view = s.view := by
  unfold State.msixSend; repeat' (first | rfl | (simp; done) | split)
@[simp] theorem State.msixSend_intk (s : State) (v : Nat) : (s.msixSend v).intk = s.intk := by
  unfold State.msixSend; repeat' (first | rfl | (simp; done) | split)
@[simp] theorem State.msixSend_lzc (s : State) (v : Nat) : (s.msixSend v).lzc = s.lzc := by
  unfold State.msixSend; repeat' (first | rfl | (simp; done) | split)
@[simp] theorem State.msixSend_blt (s : State) (v : Nat) : (s.msixSend v).blt = s.blt := by
  unfold State.msixSend; repeat' (first | rfl | (simp; done) | split)
@[simp] theorem State.msixSend_dram (s : State) (v : Nat) : (s.msixSend v).dram = s.dram := by
  unfold State.msixSend; repeat' (first | rfl | (simp; done) | split)
@[simp] theorem State.msixSend_time (s : State) (v : Nat) : (s.msixSend v).time = s.time := by
  unfold State.msixSend; repeat' (first | rfl | (simp; done) | split)
@[simp] theorem State.msixSend_array (s : State) (v : Nat) : (s.msixSend v).array = s.array := by
  unfold State.msixSend; repeat' (first | rfl | (simp; done) | split)
@[simp] theorem State.msixSend_host (s : State) (v : Nat) : (s.msixSend v).host = s.host := by
  unfold State.msixSend; repeat' (first | rfl | (simp; done) | split)
@[simp] theorem State.msixSend_sec (s : State) (v : Nat) : (s.msixSend v).sec = s.sec := by
  unfold State.msixSend; repeat' (first | rfl | (simp; done) | split)
@[simp] theorem State.msixSend_freeCtr (s : State) (v : Nat) : (s.msixSend v).freeCtr = s.freeCtr := by
  unfold State.msixSend; repeat' (first | rfl | (simp; done) | split)
@[simp] theorem State.msixSend_pending (s : State) (v : Nat) : (s.msixSend v).pending = s.pending := by
  unfold State.msixSend; repeat' (first | rfl | (simp; done) | split)

@[simp] theorem State.irqEdge_staged (s : State) (b : Blk) (c : Bool) : (s.irqEdge b c).staged = s.staged := by
  unfold State.irqEdge; repeat' (first | rfl | (simp; done) | split)
@[simp] theorem State.irqEdge_rst (s : State) (b : Blk) (c : Bool) : (s.irqEdge b c).rst = s.rst := by
  unfold State.irqEdge; repeat' (first | rfl | (simp; done) | split)
@[simp] theorem State.irqEdge_bus (s : State) (b : Blk) (c : Bool) : (s.irqEdge b c).bus = s.bus := by
  unfold State.irqEdge; repeat' (first | rfl | (simp; done) | split)
@[simp] theorem State.irqEdge_strobes (s : State) (b : Blk) (c : Bool) : (s.irqEdge b c).strobes = s.strobes := by
  unfold State.irqEdge; repeat' (first | rfl | (simp; done) | split)
@[simp] theorem State.irqEdge_pins (s : State) (b : Blk) (c : Bool) : (s.irqEdge b c).pins = s.pins := by
  unfold State.irqEdge; repeat' (first | rfl | (simp; done) | split)
@[simp] theorem State.irqEdge_teph (s : State) (b : Blk) (c : Bool) : (s.irqEdge b c).teph = s.teph := by
  unfold State.irqEdge; repeat' (first | rfl | (simp; done) | split)
@[simp] theorem State.irqEdge_nv (s : State) (b : Blk) (c : Bool) : (s.irqEdge b c).nv = s.nv := by
  unfold State.irqEdge; repeat' (first | rfl | (simp; done) | split)
@[simp] theorem State.irqEdge_wires (s : State) (b : Blk) (c : Bool) : (s.irqEdge b c).wires = s.wires := by
  unfold State.irqEdge; repeat' (first | rfl | (simp; done) | split)
@[simp] theorem State.irqEdge_rail (s : State) (b : Blk) (c : Bool) : (s.irqEdge b c).rail = s.rail := by
  unfold State.irqEdge; repeat' (first | rfl | (simp; done) | split)
@[simp] theorem State.irqEdge_pair (s : State) (b : Blk) (c : Bool) : (s.irqEdge b c).pair = s.pair := by
  unfold State.irqEdge; repeat' (first | rfl | (simp; done) | split)
@[simp] theorem State.irqEdge_pseq (s : State) (b : Blk) (c : Bool) : (s.irqEdge b c).pseq = s.pseq := by
  unfold State.irqEdge; repeat' (first | rfl | (simp; done) | split)
@[simp] theorem State.irqEdge_lane (s : State) (b : Blk) (c : Bool) : (s.irqEdge b c).lane = s.lane := by
  unfold State.irqEdge; repeat' (first | rfl | (simp; done) | split)
@[simp] theorem State.irqEdge_mem (s : State) (b : Blk) (c : Bool) : (s.irqEdge b c).mem = s.mem := by
  unfold State.irqEdge; repeat' (first | rfl | (simp; done) | split)
@[simp] theorem State.irqEdge_pers (s : State) (b : Blk) (c : Bool) : (s.irqEdge b c).pers = s.pers := by
  unfold State.irqEdge; repeat' (first | rfl | (simp; done) | split)
@[simp] theorem State.irqEdge_fab (s : State) (b : Blk) (c : Bool) : (s.irqEdge b c).fab = s.fab := by
  unfold State.irqEdge; repeat' (first | rfl | (simp; done) | split)
@[simp] theorem State.irqEdge_care (s : State) (b : Blk) (c : Bool) : (s.irqEdge b c).care = s.care := by
  unfold State.irqEdge; repeat' (first | rfl | (simp; done) | split)
@[simp] theorem State.irqEdge_otp (s : State) (b : Blk) (c : Bool) : (s.irqEdge b c).otp = s.otp := by
  unfold State.irqEdge; repeat' (first | rfl | (simp; done) | split)
@[simp] theorem State.irqEdge_thm (s : State) (b : Blk) (c : Bool) : (s.irqEdge b c).thm = s.thm := by
  unfold State.irqEdge; repeat' (first | rfl | (simp; done) | split)
@[simp] theorem State.irqEdge_comp (s : State) (b : Blk) (c : Bool) : (s.irqEdge b c).comp = s.comp := by
  unfold State.irqEdge; repeat' (first | rfl | (simp; done) | split)
@[simp] theorem State.irqEdge_view (s : State) (b : Blk) (c : Bool) : (s.irqEdge b c).view = s.view := by
  unfold State.irqEdge; repeat' (first | rfl | (simp; done) | split)
@[simp] theorem State.irqEdge_intk (s : State) (b : Blk) (c : Bool) : (s.irqEdge b c).intk = s.intk := by
  unfold State.irqEdge; repeat' (first | rfl | (simp; done) | split)
@[simp] theorem State.irqEdge_lzc (s : State) (b : Blk) (c : Bool) : (s.irqEdge b c).lzc = s.lzc := by
  unfold State.irqEdge; repeat' (first | rfl | (simp; done) | split)
@[simp] theorem State.irqEdge_blt (s : State) (b : Blk) (c : Bool) : (s.irqEdge b c).blt = s.blt := by
  unfold State.irqEdge; repeat' (first | rfl | (simp; done) | split)
@[simp] theorem State.irqEdge_dram (s : State) (b : Blk) (c : Bool) : (s.irqEdge b c).dram = s.dram := by
  unfold State.irqEdge; repeat' (first | rfl | (simp; done) | split)
@[simp] theorem State.irqEdge_time (s : State) (b : Blk) (c : Bool) : (s.irqEdge b c).time = s.time := by
  unfold State.irqEdge; repeat' (first | rfl | (simp; done) | split)
@[simp] theorem State.irqEdge_array (s : State) (b : Blk) (c : Bool) : (s.irqEdge b c).array = s.array := by
  unfold State.irqEdge; repeat' (first | rfl | (simp; done) | split)
@[simp] theorem State.irqEdge_host (s : State) (b : Blk) (c : Bool) : (s.irqEdge b c).host = s.host := by
  unfold State.irqEdge; repeat' (first | rfl | (simp; done) | split)
@[simp] theorem State.irqEdge_sec (s : State) (b : Blk) (c : Bool) : (s.irqEdge b c).sec = s.sec := by
  unfold State.irqEdge; repeat' (first | rfl | (simp; done) | split)
@[simp] theorem State.irqEdge_freeCtr (s : State) (b : Blk) (c : Bool) : (s.irqEdge b c).freeCtr = s.freeCtr := by
  unfold State.irqEdge; repeat' (first | rfl | (simp; done) | split)
@[simp] theorem State.irqEdge_pending (s : State) (b : Blk) (c : Bool) : (s.irqEdge b c).pending = s.pending := by
  unfold State.irqEdge; repeat' (first | rfl | (simp; done) | split)

@[simp] theorem State.raise_staged (s : State) (b : Blk) (n : Nat) : (s.raise b n).staged = s.staged := by
  unfold State.raise; repeat' (first | rfl | (simp; done) | split)
@[simp] theorem State.raise_rst (s : State) (b : Blk) (n : Nat) : (s.raise b n).rst = s.rst := by
  unfold State.raise; repeat' (first | rfl | (simp; done) | split)
@[simp] theorem State.raise_bus (s : State) (b : Blk) (n : Nat) : (s.raise b n).bus = s.bus := by
  unfold State.raise; repeat' (first | rfl | (simp; done) | split)
@[simp] theorem State.raise_strobes (s : State) (b : Blk) (n : Nat) : (s.raise b n).strobes = s.strobes := by
  unfold State.raise; repeat' (first | rfl | (simp; done) | split)
@[simp] theorem State.raise_pins (s : State) (b : Blk) (n : Nat) : (s.raise b n).pins = s.pins := by
  unfold State.raise; repeat' (first | rfl | (simp; done) | split)
@[simp] theorem State.raise_teph (s : State) (b : Blk) (n : Nat) : (s.raise b n).teph = s.teph := by
  unfold State.raise; repeat' (first | rfl | (simp; done) | split)
@[simp] theorem State.raise_nv (s : State) (b : Blk) (n : Nat) : (s.raise b n).nv = s.nv := by
  unfold State.raise; repeat' (first | rfl | (simp; done) | split)
@[simp] theorem State.raise_wires (s : State) (b : Blk) (n : Nat) : (s.raise b n).wires = s.wires := by
  unfold State.raise; repeat' (first | rfl | (simp; done) | split)
@[simp] theorem State.raise_rail (s : State) (b : Blk) (n : Nat) : (s.raise b n).rail = s.rail := by
  unfold State.raise; repeat' (first | rfl | (simp; done) | split)
@[simp] theorem State.raise_pair (s : State) (b : Blk) (n : Nat) : (s.raise b n).pair = s.pair := by
  unfold State.raise; repeat' (first | rfl | (simp; done) | split)
@[simp] theorem State.raise_pseq (s : State) (b : Blk) (n : Nat) : (s.raise b n).pseq = s.pseq := by
  unfold State.raise; repeat' (first | rfl | (simp; done) | split)
@[simp] theorem State.raise_lane (s : State) (b : Blk) (n : Nat) : (s.raise b n).lane = s.lane := by
  unfold State.raise; repeat' (first | rfl | (simp; done) | split)
@[simp] theorem State.raise_mem (s : State) (b : Blk) (n : Nat) : (s.raise b n).mem = s.mem := by
  unfold State.raise; repeat' (first | rfl | (simp; done) | split)
@[simp] theorem State.raise_pers (s : State) (b : Blk) (n : Nat) : (s.raise b n).pers = s.pers := by
  unfold State.raise; repeat' (first | rfl | (simp; done) | split)
@[simp] theorem State.raise_fab (s : State) (b : Blk) (n : Nat) : (s.raise b n).fab = s.fab := by
  unfold State.raise; repeat' (first | rfl | (simp; done) | split)
@[simp] theorem State.raise_care (s : State) (b : Blk) (n : Nat) : (s.raise b n).care = s.care := by
  unfold State.raise; repeat' (first | rfl | (simp; done) | split)
@[simp] theorem State.raise_otp (s : State) (b : Blk) (n : Nat) : (s.raise b n).otp = s.otp := by
  unfold State.raise; repeat' (first | rfl | (simp; done) | split)
@[simp] theorem State.raise_thm (s : State) (b : Blk) (n : Nat) : (s.raise b n).thm = s.thm := by
  unfold State.raise; repeat' (first | rfl | (simp; done) | split)
@[simp] theorem State.raise_comp (s : State) (b : Blk) (n : Nat) : (s.raise b n).comp = s.comp := by
  unfold State.raise; repeat' (first | rfl | (simp; done) | split)
@[simp] theorem State.raise_view (s : State) (b : Blk) (n : Nat) : (s.raise b n).view = s.view := by
  unfold State.raise; repeat' (first | rfl | (simp; done) | split)
@[simp] theorem State.raise_intk (s : State) (b : Blk) (n : Nat) : (s.raise b n).intk = s.intk := by
  unfold State.raise; repeat' (first | rfl | (simp; done) | split)
@[simp] theorem State.raise_lzc (s : State) (b : Blk) (n : Nat) : (s.raise b n).lzc = s.lzc := by
  unfold State.raise; repeat' (first | rfl | (simp; done) | split)
@[simp] theorem State.raise_blt (s : State) (b : Blk) (n : Nat) : (s.raise b n).blt = s.blt := by
  unfold State.raise; repeat' (first | rfl | (simp; done) | split)
@[simp] theorem State.raise_dram (s : State) (b : Blk) (n : Nat) : (s.raise b n).dram = s.dram := by
  unfold State.raise; repeat' (first | rfl | (simp; done) | split)
@[simp] theorem State.raise_time (s : State) (b : Blk) (n : Nat) : (s.raise b n).time = s.time := by
  unfold State.raise; repeat' (first | rfl | (simp; done) | split)
@[simp] theorem State.raise_array (s : State) (b : Blk) (n : Nat) : (s.raise b n).array = s.array := by
  unfold State.raise; repeat' (first | rfl | (simp; done) | split)
@[simp] theorem State.raise_host (s : State) (b : Blk) (n : Nat) : (s.raise b n).host = s.host := by
  unfold State.raise; repeat' (first | rfl | (simp; done) | split)
@[simp] theorem State.raise_sec (s : State) (b : Blk) (n : Nat) : (s.raise b n).sec = s.sec := by
  unfold State.raise; repeat' (first | rfl | (simp; done) | split)
@[simp] theorem State.raise_freeCtr (s : State) (b : Blk) (n : Nat) : (s.raise b n).freeCtr = s.freeCtr := by
  unfold State.raise; repeat' (first | rfl | (simp; done) | split)
@[simp] theorem State.raise_pending (s : State) (b : Blk) (n : Nat) : (s.raise b n).pending = s.pending := by
  unfold State.raise; repeat' (first | rfl | (simp; done) | split)

@[simp] theorem State.raiseIf_staged (s : State) (c : Bool) (b : Blk) (n : Nat) : (s.raiseIf c b n).staged = s.staged := by
  unfold State.raiseIf; repeat' (first | rfl | (simp; done) | split)
@[simp] theorem State.raiseIf_rst (s : State) (c : Bool) (b : Blk) (n : Nat) : (s.raiseIf c b n).rst = s.rst := by
  unfold State.raiseIf; repeat' (first | rfl | (simp; done) | split)
@[simp] theorem State.raiseIf_bus (s : State) (c : Bool) (b : Blk) (n : Nat) : (s.raiseIf c b n).bus = s.bus := by
  unfold State.raiseIf; repeat' (first | rfl | (simp; done) | split)
@[simp] theorem State.raiseIf_strobes (s : State) (c : Bool) (b : Blk) (n : Nat) : (s.raiseIf c b n).strobes = s.strobes := by
  unfold State.raiseIf; repeat' (first | rfl | (simp; done) | split)
@[simp] theorem State.raiseIf_pins (s : State) (c : Bool) (b : Blk) (n : Nat) : (s.raiseIf c b n).pins = s.pins := by
  unfold State.raiseIf; repeat' (first | rfl | (simp; done) | split)
@[simp] theorem State.raiseIf_teph (s : State) (c : Bool) (b : Blk) (n : Nat) : (s.raiseIf c b n).teph = s.teph := by
  unfold State.raiseIf; repeat' (first | rfl | (simp; done) | split)
@[simp] theorem State.raiseIf_nv (s : State) (c : Bool) (b : Blk) (n : Nat) : (s.raiseIf c b n).nv = s.nv := by
  unfold State.raiseIf; repeat' (first | rfl | (simp; done) | split)
@[simp] theorem State.raiseIf_wires (s : State) (c : Bool) (b : Blk) (n : Nat) : (s.raiseIf c b n).wires = s.wires := by
  unfold State.raiseIf; repeat' (first | rfl | (simp; done) | split)
@[simp] theorem State.raiseIf_rail (s : State) (c : Bool) (b : Blk) (n : Nat) : (s.raiseIf c b n).rail = s.rail := by
  unfold State.raiseIf; repeat' (first | rfl | (simp; done) | split)
@[simp] theorem State.raiseIf_pair (s : State) (c : Bool) (b : Blk) (n : Nat) : (s.raiseIf c b n).pair = s.pair := by
  unfold State.raiseIf; repeat' (first | rfl | (simp; done) | split)
@[simp] theorem State.raiseIf_pseq (s : State) (c : Bool) (b : Blk) (n : Nat) : (s.raiseIf c b n).pseq = s.pseq := by
  unfold State.raiseIf; repeat' (first | rfl | (simp; done) | split)
@[simp] theorem State.raiseIf_lane (s : State) (c : Bool) (b : Blk) (n : Nat) : (s.raiseIf c b n).lane = s.lane := by
  unfold State.raiseIf; repeat' (first | rfl | (simp; done) | split)
@[simp] theorem State.raiseIf_mem (s : State) (c : Bool) (b : Blk) (n : Nat) : (s.raiseIf c b n).mem = s.mem := by
  unfold State.raiseIf; repeat' (first | rfl | (simp; done) | split)
@[simp] theorem State.raiseIf_pers (s : State) (c : Bool) (b : Blk) (n : Nat) : (s.raiseIf c b n).pers = s.pers := by
  unfold State.raiseIf; repeat' (first | rfl | (simp; done) | split)
@[simp] theorem State.raiseIf_fab (s : State) (c : Bool) (b : Blk) (n : Nat) : (s.raiseIf c b n).fab = s.fab := by
  unfold State.raiseIf; repeat' (first | rfl | (simp; done) | split)
@[simp] theorem State.raiseIf_care (s : State) (c : Bool) (b : Blk) (n : Nat) : (s.raiseIf c b n).care = s.care := by
  unfold State.raiseIf; repeat' (first | rfl | (simp; done) | split)
@[simp] theorem State.raiseIf_otp (s : State) (c : Bool) (b : Blk) (n : Nat) : (s.raiseIf c b n).otp = s.otp := by
  unfold State.raiseIf; repeat' (first | rfl | (simp; done) | split)
@[simp] theorem State.raiseIf_thm (s : State) (c : Bool) (b : Blk) (n : Nat) : (s.raiseIf c b n).thm = s.thm := by
  unfold State.raiseIf; repeat' (first | rfl | (simp; done) | split)
@[simp] theorem State.raiseIf_comp (s : State) (c : Bool) (b : Blk) (n : Nat) : (s.raiseIf c b n).comp = s.comp := by
  unfold State.raiseIf; repeat' (first | rfl | (simp; done) | split)
@[simp] theorem State.raiseIf_view (s : State) (c : Bool) (b : Blk) (n : Nat) : (s.raiseIf c b n).view = s.view := by
  unfold State.raiseIf; repeat' (first | rfl | (simp; done) | split)
@[simp] theorem State.raiseIf_intk (s : State) (c : Bool) (b : Blk) (n : Nat) : (s.raiseIf c b n).intk = s.intk := by
  unfold State.raiseIf; repeat' (first | rfl | (simp; done) | split)
@[simp] theorem State.raiseIf_lzc (s : State) (c : Bool) (b : Blk) (n : Nat) : (s.raiseIf c b n).lzc = s.lzc := by
  unfold State.raiseIf; repeat' (first | rfl | (simp; done) | split)
@[simp] theorem State.raiseIf_blt (s : State) (c : Bool) (b : Blk) (n : Nat) : (s.raiseIf c b n).blt = s.blt := by
  unfold State.raiseIf; repeat' (first | rfl | (simp; done) | split)
@[simp] theorem State.raiseIf_dram (s : State) (c : Bool) (b : Blk) (n : Nat) : (s.raiseIf c b n).dram = s.dram := by
  unfold State.raiseIf; repeat' (first | rfl | (simp; done) | split)
@[simp] theorem State.raiseIf_time (s : State) (c : Bool) (b : Blk) (n : Nat) : (s.raiseIf c b n).time = s.time := by
  unfold State.raiseIf; repeat' (first | rfl | (simp; done) | split)
@[simp] theorem State.raiseIf_array (s : State) (c : Bool) (b : Blk) (n : Nat) : (s.raiseIf c b n).array = s.array := by
  unfold State.raiseIf; repeat' (first | rfl | (simp; done) | split)
@[simp] theorem State.raiseIf_host (s : State) (c : Bool) (b : Blk) (n : Nat) : (s.raiseIf c b n).host = s.host := by
  unfold State.raiseIf; repeat' (first | rfl | (simp; done) | split)
@[simp] theorem State.raiseIf_sec (s : State) (c : Bool) (b : Blk) (n : Nat) : (s.raiseIf c b n).sec = s.sec := by
  unfold State.raiseIf; repeat' (first | rfl | (simp; done) | split)
@[simp] theorem State.raiseIf_freeCtr (s : State) (c : Bool) (b : Blk) (n : Nat) : (s.raiseIf c b n).freeCtr = s.freeCtr := by
  unfold State.raiseIf; repeat' (first | rfl | (simp; done) | split)
@[simp] theorem State.raiseIf_pending (s : State) (c : Bool) (b : Blk) (n : Nat) : (s.raiseIf c b n).pending = s.pending := by
  unfold State.raiseIf; repeat' (first | rfl | (simp; done) | split)

@[simp] theorem State.tephLose_staged (s : State) (c : Bool) : (s.tephLose c).staged = s.staged := by
  unfold State.tephLose; repeat' (first | rfl | (simp; done) | split)
@[simp] theorem State.tephLose_rst (s : State) (c : Bool) : (s.tephLose c).rst = s.rst := by
  unfold State.tephLose; repeat' (first | rfl | (simp; done) | split)
@[simp] theorem State.tephLose_bus (s : State) (c : Bool) : (s.tephLose c).bus = s.bus := by
  unfold State.tephLose; repeat' (first | rfl | (simp; done) | split)
@[simp] theorem State.tephLose_strobes (s : State) (c : Bool) : (s.tephLose c).strobes = s.strobes := by
  unfold State.tephLose; repeat' (first | rfl | (simp; done) | split)
@[simp] theorem State.tephLose_pins (s : State) (c : Bool) : (s.tephLose c).pins = s.pins := by
  unfold State.tephLose; repeat' (first | rfl | (simp; done) | split)
@[simp] theorem State.tephLose_nv (s : State) (c : Bool) : (s.tephLose c).nv = s.nv := by
  unfold State.tephLose; repeat' (first | rfl | (simp; done) | split)
@[simp] theorem State.tephLose_wires (s : State) (c : Bool) : (s.tephLose c).wires = s.wires := by
  unfold State.tephLose; repeat' (first | rfl | (simp; done) | split)
@[simp] theorem State.tephLose_rail (s : State) (c : Bool) : (s.tephLose c).rail = s.rail := by
  unfold State.tephLose; repeat' (first | rfl | (simp; done) | split)
@[simp] theorem State.tephLose_pair (s : State) (c : Bool) : (s.tephLose c).pair = s.pair := by
  unfold State.tephLose; repeat' (first | rfl | (simp; done) | split)
@[simp] theorem State.tephLose_pseq (s : State) (c : Bool) : (s.tephLose c).pseq = s.pseq := by
  unfold State.tephLose; repeat' (first | rfl | (simp; done) | split)
@[simp] theorem State.tephLose_lane (s : State) (c : Bool) : (s.tephLose c).lane = s.lane := by
  unfold State.tephLose; repeat' (first | rfl | (simp; done) | split)
@[simp] theorem State.tephLose_mem (s : State) (c : Bool) : (s.tephLose c).mem = s.mem := by
  unfold State.tephLose; repeat' (first | rfl | (simp; done) | split)
@[simp] theorem State.tephLose_pers (s : State) (c : Bool) : (s.tephLose c).pers = s.pers := by
  unfold State.tephLose; repeat' (first | rfl | (simp; done) | split)
@[simp] theorem State.tephLose_fab (s : State) (c : Bool) : (s.tephLose c).fab = s.fab := by
  unfold State.tephLose; repeat' (first | rfl | (simp; done) | split)
@[simp] theorem State.tephLose_care (s : State) (c : Bool) : (s.tephLose c).care = s.care := by
  unfold State.tephLose; repeat' (first | rfl | (simp; done) | split)
@[simp] theorem State.tephLose_otp (s : State) (c : Bool) : (s.tephLose c).otp = s.otp := by
  unfold State.tephLose; repeat' (first | rfl | (simp; done) | split)
@[simp] theorem State.tephLose_thm (s : State) (c : Bool) : (s.tephLose c).thm = s.thm := by
  unfold State.tephLose; repeat' (first | rfl | (simp; done) | split)
@[simp] theorem State.tephLose_comp (s : State) (c : Bool) : (s.tephLose c).comp = s.comp := by
  unfold State.tephLose; repeat' (first | rfl | (simp; done) | split)
@[simp] theorem State.tephLose_view (s : State) (c : Bool) : (s.tephLose c).view = s.view := by
  unfold State.tephLose; repeat' (first | rfl | (simp; done) | split)
@[simp] theorem State.tephLose_intk (s : State) (c : Bool) : (s.tephLose c).intk = s.intk := by
  unfold State.tephLose; repeat' (first | rfl | (simp; done) | split)
@[simp] theorem State.tephLose_lzc (s : State) (c : Bool) : (s.tephLose c).lzc = s.lzc := by
  unfold State.tephLose; repeat' (first | rfl | (simp; done) | split)
@[simp] theorem State.tephLose_blt (s : State) (c : Bool) : (s.tephLose c).blt = s.blt := by
  unfold State.tephLose; repeat' (first | rfl | (simp; done) | split)
@[simp] theorem State.tephLose_dram (s : State) (c : Bool) : (s.tephLose c).dram = s.dram := by
  unfold State.tephLose; repeat' (first | rfl | (simp; done) | split)
@[simp] theorem State.tephLose_time (s : State) (c : Bool) : (s.tephLose c).time = s.time := by
  unfold State.tephLose; repeat' (first | rfl | (simp; done) | split)
@[simp] theorem State.tephLose_array (s : State) (c : Bool) : (s.tephLose c).array = s.array := by
  unfold State.tephLose; repeat' (first | rfl | (simp; done) | split)
@[simp] theorem State.tephLose_host (s : State) (c : Bool) : (s.tephLose c).host = s.host := by
  unfold State.tephLose; repeat' (first | rfl | (simp; done) | split)
@[simp] theorem State.tephLose_sec (s : State) (c : Bool) : (s.tephLose c).sec = s.sec := by
  unfold State.tephLose; repeat' (first | rfl | (simp; done) | split)
@[simp] theorem State.tephLose_freeCtr (s : State) (c : Bool) : (s.tephLose c).freeCtr = s.freeCtr := by
  unfold State.tephLose; repeat' (first | rfl | (simp; done) | split)
@[simp] theorem State.tephLose_pending (s : State) (c : Bool) : (s.tephLose c).pending = s.pending := by
  unfold State.tephLose; repeat' (first | rfl | (simp; done) | split)

@[simp] theorem State.offerFull_staged (s : State) (src sev rung code a0 a1 : Nat) (a2 : Arg2) (inj trig : Bool) : (s.offerFull src sev rung code a0 a1 a2 inj trig).staged = s.staged := by
  unfold State.offerFull; repeat' (first | rfl | (simp; done) | split)
@[simp] theorem State.offerFull_rst (s : State) (src sev rung code a0 a1 : Nat) (a2 : Arg2) (inj trig : Bool) : (s.offerFull src sev rung code a0 a1 a2 inj trig).rst = s.rst := by
  unfold State.offerFull; repeat' (first | rfl | (simp; done) | split)
@[simp] theorem State.offerFull_bus (s : State) (src sev rung code a0 a1 : Nat) (a2 : Arg2) (inj trig : Bool) : (s.offerFull src sev rung code a0 a1 a2 inj trig).bus = s.bus := by
  unfold State.offerFull; repeat' (first | rfl | (simp; done) | split)
@[simp] theorem State.offerFull_strobes (s : State) (src sev rung code a0 a1 : Nat) (a2 : Arg2) (inj trig : Bool) : (s.offerFull src sev rung code a0 a1 a2 inj trig).strobes = s.strobes := by
  unfold State.offerFull; repeat' (first | rfl | (simp; done) | split)
@[simp] theorem State.offerFull_pins (s : State) (src sev rung code a0 a1 : Nat) (a2 : Arg2) (inj trig : Bool) : (s.offerFull src sev rung code a0 a1 a2 inj trig).pins = s.pins := by
  unfold State.offerFull; repeat' (first | rfl | (simp; done) | split)
@[simp] theorem State.offerFull_nv (s : State) (src sev rung code a0 a1 : Nat) (a2 : Arg2) (inj trig : Bool) : (s.offerFull src sev rung code a0 a1 a2 inj trig).nv = s.nv := by
  unfold State.offerFull; repeat' (first | rfl | (simp; done) | split)
@[simp] theorem State.offerFull_wires (s : State) (src sev rung code a0 a1 : Nat) (a2 : Arg2) (inj trig : Bool) : (s.offerFull src sev rung code a0 a1 a2 inj trig).wires = s.wires := by
  unfold State.offerFull; repeat' (first | rfl | (simp; done) | split)
@[simp] theorem State.offerFull_rail (s : State) (src sev rung code a0 a1 : Nat) (a2 : Arg2) (inj trig : Bool) : (s.offerFull src sev rung code a0 a1 a2 inj trig).rail = s.rail := by
  unfold State.offerFull; repeat' (first | rfl | (simp; done) | split)
@[simp] theorem State.offerFull_pair (s : State) (src sev rung code a0 a1 : Nat) (a2 : Arg2) (inj trig : Bool) : (s.offerFull src sev rung code a0 a1 a2 inj trig).pair = s.pair := by
  unfold State.offerFull; repeat' (first | rfl | (simp; done) | split)
@[simp] theorem State.offerFull_pseq (s : State) (src sev rung code a0 a1 : Nat) (a2 : Arg2) (inj trig : Bool) : (s.offerFull src sev rung code a0 a1 a2 inj trig).pseq = s.pseq := by
  unfold State.offerFull; repeat' (first | rfl | (simp; done) | split)
@[simp] theorem State.offerFull_lane (s : State) (src sev rung code a0 a1 : Nat) (a2 : Arg2) (inj trig : Bool) : (s.offerFull src sev rung code a0 a1 a2 inj trig).lane = s.lane := by
  unfold State.offerFull; repeat' (first | rfl | (simp; done) | split)
@[simp] theorem State.offerFull_mem (s : State) (src sev rung code a0 a1 : Nat) (a2 : Arg2) (inj trig : Bool) : (s.offerFull src sev rung code a0 a1 a2 inj trig).mem = s.mem := by
  unfold State.offerFull; repeat' (first | rfl | (simp; done) | split)
@[simp] theorem State.offerFull_pers (s : State) (src sev rung code a0 a1 : Nat) (a2 : Arg2) (inj trig : Bool) : (s.offerFull src sev rung code a0 a1 a2 inj trig).pers = s.pers := by
  unfold State.offerFull; repeat' (first | rfl | (simp; done) | split)
@[simp] theorem State.offerFull_fab (s : State) (src sev rung code a0 a1 : Nat) (a2 : Arg2) (inj trig : Bool) : (s.offerFull src sev rung code a0 a1 a2 inj trig).fab = s.fab := by
  unfold State.offerFull; repeat' (first | rfl | (simp; done) | split)
@[simp] theorem State.offerFull_care (s : State) (src sev rung code a0 a1 : Nat) (a2 : Arg2) (inj trig : Bool) : (s.offerFull src sev rung code a0 a1 a2 inj trig).care = s.care := by
  unfold State.offerFull; repeat' (first | rfl | (simp; done) | split)
@[simp] theorem State.offerFull_otp (s : State) (src sev rung code a0 a1 : Nat) (a2 : Arg2) (inj trig : Bool) : (s.offerFull src sev rung code a0 a1 a2 inj trig).otp = s.otp := by
  unfold State.offerFull; repeat' (first | rfl | (simp; done) | split)
@[simp] theorem State.offerFull_thm (s : State) (src sev rung code a0 a1 : Nat) (a2 : Arg2) (inj trig : Bool) : (s.offerFull src sev rung code a0 a1 a2 inj trig).thm = s.thm := by
  unfold State.offerFull; repeat' (first | rfl | (simp; done) | split)
@[simp] theorem State.offerFull_comp (s : State) (src sev rung code a0 a1 : Nat) (a2 : Arg2) (inj trig : Bool) : (s.offerFull src sev rung code a0 a1 a2 inj trig).comp = s.comp := by
  unfold State.offerFull; repeat' (first | rfl | (simp; done) | split)
@[simp] theorem State.offerFull_view (s : State) (src sev rung code a0 a1 : Nat) (a2 : Arg2) (inj trig : Bool) : (s.offerFull src sev rung code a0 a1 a2 inj trig).view = s.view := by
  unfold State.offerFull; repeat' (first | rfl | (simp; done) | split)
@[simp] theorem State.offerFull_intk (s : State) (src sev rung code a0 a1 : Nat) (a2 : Arg2) (inj trig : Bool) : (s.offerFull src sev rung code a0 a1 a2 inj trig).intk = s.intk := by
  unfold State.offerFull; repeat' (first | rfl | (simp; done) | split)
@[simp] theorem State.offerFull_lzc (s : State) (src sev rung code a0 a1 : Nat) (a2 : Arg2) (inj trig : Bool) : (s.offerFull src sev rung code a0 a1 a2 inj trig).lzc = s.lzc := by
  unfold State.offerFull; repeat' (first | rfl | (simp; done) | split)
@[simp] theorem State.offerFull_blt (s : State) (src sev rung code a0 a1 : Nat) (a2 : Arg2) (inj trig : Bool) : (s.offerFull src sev rung code a0 a1 a2 inj trig).blt = s.blt := by
  unfold State.offerFull; repeat' (first | rfl | (simp; done) | split)
@[simp] theorem State.offerFull_dram (s : State) (src sev rung code a0 a1 : Nat) (a2 : Arg2) (inj trig : Bool) : (s.offerFull src sev rung code a0 a1 a2 inj trig).dram = s.dram := by
  unfold State.offerFull; repeat' (first | rfl | (simp; done) | split)
@[simp] theorem State.offerFull_time (s : State) (src sev rung code a0 a1 : Nat) (a2 : Arg2) (inj trig : Bool) : (s.offerFull src sev rung code a0 a1 a2 inj trig).time = s.time := by
  unfold State.offerFull; repeat' (first | rfl | (simp; done) | split)
@[simp] theorem State.offerFull_array (s : State) (src sev rung code a0 a1 : Nat) (a2 : Arg2) (inj trig : Bool) : (s.offerFull src sev rung code a0 a1 a2 inj trig).array = s.array := by
  unfold State.offerFull; repeat' (first | rfl | (simp; done) | split)
@[simp] theorem State.offerFull_host (s : State) (src sev rung code a0 a1 : Nat) (a2 : Arg2) (inj trig : Bool) : (s.offerFull src sev rung code a0 a1 a2 inj trig).host = s.host := by
  unfold State.offerFull; repeat' (first | rfl | (simp; done) | split)
@[simp] theorem State.offerFull_sec (s : State) (src sev rung code a0 a1 : Nat) (a2 : Arg2) (inj trig : Bool) : (s.offerFull src sev rung code a0 a1 a2 inj trig).sec = s.sec := by
  unfold State.offerFull; repeat' (first | rfl | (simp; done) | split)
@[simp] theorem State.offerFull_freeCtr (s : State) (src sev rung code a0 a1 : Nat) (a2 : Arg2) (inj trig : Bool) : (s.offerFull src sev rung code a0 a1 a2 inj trig).freeCtr = s.freeCtr := by
  unfold State.offerFull; repeat' (first | rfl | (simp; done) | split)
@[simp] theorem State.offerFull_pending (s : State) (src sev rung code a0 a1 : Nat) (a2 : Arg2) (inj trig : Bool) : (s.offerFull src sev rung code a0 a1 a2 inj trig).pending = s.pending := by
  unfold State.offerFull; repeat' (first | rfl | (simp; done) | split)

@[simp] theorem State.offer_staged (s : State) (src sev rung code a0 a1 : Nat) (a2 : Arg2) : (s.offer src sev rung code a0 a1 a2).staged = s.staged := by
  unfold State.offer; repeat' (first | rfl | (simp; done) | split)
@[simp] theorem State.offer_rst (s : State) (src sev rung code a0 a1 : Nat) (a2 : Arg2) : (s.offer src sev rung code a0 a1 a2).rst = s.rst := by
  unfold State.offer; repeat' (first | rfl | (simp; done) | split)
@[simp] theorem State.offer_bus (s : State) (src sev rung code a0 a1 : Nat) (a2 : Arg2) : (s.offer src sev rung code a0 a1 a2).bus = s.bus := by
  unfold State.offer; repeat' (first | rfl | (simp; done) | split)
@[simp] theorem State.offer_strobes (s : State) (src sev rung code a0 a1 : Nat) (a2 : Arg2) : (s.offer src sev rung code a0 a1 a2).strobes = s.strobes := by
  unfold State.offer; repeat' (first | rfl | (simp; done) | split)
@[simp] theorem State.offer_pins (s : State) (src sev rung code a0 a1 : Nat) (a2 : Arg2) : (s.offer src sev rung code a0 a1 a2).pins = s.pins := by
  unfold State.offer; repeat' (first | rfl | (simp; done) | split)
@[simp] theorem State.offer_nv (s : State) (src sev rung code a0 a1 : Nat) (a2 : Arg2) : (s.offer src sev rung code a0 a1 a2).nv = s.nv := by
  unfold State.offer; repeat' (first | rfl | (simp; done) | split)
@[simp] theorem State.offer_wires (s : State) (src sev rung code a0 a1 : Nat) (a2 : Arg2) : (s.offer src sev rung code a0 a1 a2).wires = s.wires := by
  unfold State.offer; repeat' (first | rfl | (simp; done) | split)
@[simp] theorem State.offer_rail (s : State) (src sev rung code a0 a1 : Nat) (a2 : Arg2) : (s.offer src sev rung code a0 a1 a2).rail = s.rail := by
  unfold State.offer; repeat' (first | rfl | (simp; done) | split)
@[simp] theorem State.offer_pair (s : State) (src sev rung code a0 a1 : Nat) (a2 : Arg2) : (s.offer src sev rung code a0 a1 a2).pair = s.pair := by
  unfold State.offer; repeat' (first | rfl | (simp; done) | split)
@[simp] theorem State.offer_pseq (s : State) (src sev rung code a0 a1 : Nat) (a2 : Arg2) : (s.offer src sev rung code a0 a1 a2).pseq = s.pseq := by
  unfold State.offer; repeat' (first | rfl | (simp; done) | split)
@[simp] theorem State.offer_lane (s : State) (src sev rung code a0 a1 : Nat) (a2 : Arg2) : (s.offer src sev rung code a0 a1 a2).lane = s.lane := by
  unfold State.offer; repeat' (first | rfl | (simp; done) | split)
@[simp] theorem State.offer_mem (s : State) (src sev rung code a0 a1 : Nat) (a2 : Arg2) : (s.offer src sev rung code a0 a1 a2).mem = s.mem := by
  unfold State.offer; repeat' (first | rfl | (simp; done) | split)
@[simp] theorem State.offer_pers (s : State) (src sev rung code a0 a1 : Nat) (a2 : Arg2) : (s.offer src sev rung code a0 a1 a2).pers = s.pers := by
  unfold State.offer; repeat' (first | rfl | (simp; done) | split)
@[simp] theorem State.offer_fab (s : State) (src sev rung code a0 a1 : Nat) (a2 : Arg2) : (s.offer src sev rung code a0 a1 a2).fab = s.fab := by
  unfold State.offer; repeat' (first | rfl | (simp; done) | split)
@[simp] theorem State.offer_care (s : State) (src sev rung code a0 a1 : Nat) (a2 : Arg2) : (s.offer src sev rung code a0 a1 a2).care = s.care := by
  unfold State.offer; repeat' (first | rfl | (simp; done) | split)
@[simp] theorem State.offer_otp (s : State) (src sev rung code a0 a1 : Nat) (a2 : Arg2) : (s.offer src sev rung code a0 a1 a2).otp = s.otp := by
  unfold State.offer; repeat' (first | rfl | (simp; done) | split)
@[simp] theorem State.offer_thm (s : State) (src sev rung code a0 a1 : Nat) (a2 : Arg2) : (s.offer src sev rung code a0 a1 a2).thm = s.thm := by
  unfold State.offer; repeat' (first | rfl | (simp; done) | split)
@[simp] theorem State.offer_comp (s : State) (src sev rung code a0 a1 : Nat) (a2 : Arg2) : (s.offer src sev rung code a0 a1 a2).comp = s.comp := by
  unfold State.offer; repeat' (first | rfl | (simp; done) | split)
@[simp] theorem State.offer_view (s : State) (src sev rung code a0 a1 : Nat) (a2 : Arg2) : (s.offer src sev rung code a0 a1 a2).view = s.view := by
  unfold State.offer; repeat' (first | rfl | (simp; done) | split)
@[simp] theorem State.offer_intk (s : State) (src sev rung code a0 a1 : Nat) (a2 : Arg2) : (s.offer src sev rung code a0 a1 a2).intk = s.intk := by
  unfold State.offer; repeat' (first | rfl | (simp; done) | split)
@[simp] theorem State.offer_lzc (s : State) (src sev rung code a0 a1 : Nat) (a2 : Arg2) : (s.offer src sev rung code a0 a1 a2).lzc = s.lzc := by
  unfold State.offer; repeat' (first | rfl | (simp; done) | split)
@[simp] theorem State.offer_blt (s : State) (src sev rung code a0 a1 : Nat) (a2 : Arg2) : (s.offer src sev rung code a0 a1 a2).blt = s.blt := by
  unfold State.offer; repeat' (first | rfl | (simp; done) | split)
@[simp] theorem State.offer_dram (s : State) (src sev rung code a0 a1 : Nat) (a2 : Arg2) : (s.offer src sev rung code a0 a1 a2).dram = s.dram := by
  unfold State.offer; repeat' (first | rfl | (simp; done) | split)
@[simp] theorem State.offer_time (s : State) (src sev rung code a0 a1 : Nat) (a2 : Arg2) : (s.offer src sev rung code a0 a1 a2).time = s.time := by
  unfold State.offer; repeat' (first | rfl | (simp; done) | split)
@[simp] theorem State.offer_array (s : State) (src sev rung code a0 a1 : Nat) (a2 : Arg2) : (s.offer src sev rung code a0 a1 a2).array = s.array := by
  unfold State.offer; repeat' (first | rfl | (simp; done) | split)
@[simp] theorem State.offer_host (s : State) (src sev rung code a0 a1 : Nat) (a2 : Arg2) : (s.offer src sev rung code a0 a1 a2).host = s.host := by
  unfold State.offer; repeat' (first | rfl | (simp; done) | split)
@[simp] theorem State.offer_sec (s : State) (src sev rung code a0 a1 : Nat) (a2 : Arg2) : (s.offer src sev rung code a0 a1 a2).sec = s.sec := by
  unfold State.offer; repeat' (first | rfl | (simp; done) | split)
@[simp] theorem State.offer_freeCtr (s : State) (src sev rung code a0 a1 : Nat) (a2 : Arg2) : (s.offer src sev rung code a0 a1 a2).freeCtr = s.freeCtr := by
  unfold State.offer; repeat' (first | rfl | (simp; done) | split)
@[simp] theorem State.offer_pending (s : State) (src sev rung code a0 a1 : Nat) (a2 : Arg2) : (s.offer src sev rung code a0 a1 a2).pending = s.pending := by
  unfold State.offer; repeat' (first | rfl | (simp; done) | split)

@[simp] theorem State.ignored_staged (s : State) (off data : Nat) (r : Req) : (s.ignored off data r).staged = s.staged := by
  unfold State.ignored; repeat' (first | rfl | (simp; done) | split)
@[simp] theorem State.ignored_rst (s : State) (off data : Nat) (r : Req) : (s.ignored off data r).rst = s.rst := by
  unfold State.ignored; repeat' (first | rfl | (simp; done) | split)
@[simp] theorem State.ignored_bus (s : State) (off data : Nat) (r : Req) : (s.ignored off data r).bus = s.bus := by
  unfold State.ignored; repeat' (first | rfl | (simp; done) | split)
@[simp] theorem State.ignored_strobes (s : State) (off data : Nat) (r : Req) : (s.ignored off data r).strobes = s.strobes := by
  unfold State.ignored; repeat' (first | rfl | (simp; done) | split)
@[simp] theorem State.ignored_pins (s : State) (off data : Nat) (r : Req) : (s.ignored off data r).pins = s.pins := by
  unfold State.ignored; repeat' (first | rfl | (simp; done) | split)
@[simp] theorem State.ignored_nv (s : State) (off data : Nat) (r : Req) : (s.ignored off data r).nv = s.nv := by
  unfold State.ignored; repeat' (first | rfl | (simp; done) | split)
@[simp] theorem State.ignored_wires (s : State) (off data : Nat) (r : Req) : (s.ignored off data r).wires = s.wires := by
  unfold State.ignored; repeat' (first | rfl | (simp; done) | split)
@[simp] theorem State.ignored_rail (s : State) (off data : Nat) (r : Req) : (s.ignored off data r).rail = s.rail := by
  unfold State.ignored; repeat' (first | rfl | (simp; done) | split)
@[simp] theorem State.ignored_pair (s : State) (off data : Nat) (r : Req) : (s.ignored off data r).pair = s.pair := by
  unfold State.ignored; repeat' (first | rfl | (simp; done) | split)
@[simp] theorem State.ignored_pseq (s : State) (off data : Nat) (r : Req) : (s.ignored off data r).pseq = s.pseq := by
  unfold State.ignored; repeat' (first | rfl | (simp; done) | split)
@[simp] theorem State.ignored_lane (s : State) (off data : Nat) (r : Req) : (s.ignored off data r).lane = s.lane := by
  unfold State.ignored; repeat' (first | rfl | (simp; done) | split)
@[simp] theorem State.ignored_mem (s : State) (off data : Nat) (r : Req) : (s.ignored off data r).mem = s.mem := by
  unfold State.ignored; repeat' (first | rfl | (simp; done) | split)
@[simp] theorem State.ignored_pers (s : State) (off data : Nat) (r : Req) : (s.ignored off data r).pers = s.pers := by
  unfold State.ignored; repeat' (first | rfl | (simp; done) | split)
@[simp] theorem State.ignored_fab (s : State) (off data : Nat) (r : Req) : (s.ignored off data r).fab = s.fab := by
  unfold State.ignored; repeat' (first | rfl | (simp; done) | split)
@[simp] theorem State.ignored_care (s : State) (off data : Nat) (r : Req) : (s.ignored off data r).care = s.care := by
  unfold State.ignored; repeat' (first | rfl | (simp; done) | split)
@[simp] theorem State.ignored_otp (s : State) (off data : Nat) (r : Req) : (s.ignored off data r).otp = s.otp := by
  unfold State.ignored; repeat' (first | rfl | (simp; done) | split)
@[simp] theorem State.ignored_thm (s : State) (off data : Nat) (r : Req) : (s.ignored off data r).thm = s.thm := by
  unfold State.ignored; repeat' (first | rfl | (simp; done) | split)
@[simp] theorem State.ignored_comp (s : State) (off data : Nat) (r : Req) : (s.ignored off data r).comp = s.comp := by
  unfold State.ignored; repeat' (first | rfl | (simp; done) | split)
@[simp] theorem State.ignored_view (s : State) (off data : Nat) (r : Req) : (s.ignored off data r).view = s.view := by
  unfold State.ignored; repeat' (first | rfl | (simp; done) | split)
@[simp] theorem State.ignored_intk (s : State) (off data : Nat) (r : Req) : (s.ignored off data r).intk = s.intk := by
  unfold State.ignored; repeat' (first | rfl | (simp; done) | split)
@[simp] theorem State.ignored_lzc (s : State) (off data : Nat) (r : Req) : (s.ignored off data r).lzc = s.lzc := by
  unfold State.ignored; repeat' (first | rfl | (simp; done) | split)
@[simp] theorem State.ignored_blt (s : State) (off data : Nat) (r : Req) : (s.ignored off data r).blt = s.blt := by
  unfold State.ignored; repeat' (first | rfl | (simp; done) | split)
@[simp] theorem State.ignored_dram (s : State) (off data : Nat) (r : Req) : (s.ignored off data r).dram = s.dram := by
  unfold State.ignored; repeat' (first | rfl | (simp; done) | split)
@[simp] theorem State.ignored_time (s : State) (off data : Nat) (r : Req) : (s.ignored off data r).time = s.time := by
  unfold State.ignored; repeat' (first | rfl | (simp; done) | split)
@[simp] theorem State.ignored_array (s : State) (off data : Nat) (r : Req) : (s.ignored off data r).array = s.array := by
  unfold State.ignored; repeat' (first | rfl | (simp; done) | split)
@[simp] theorem State.ignored_host (s : State) (off data : Nat) (r : Req) : (s.ignored off data r).host = s.host := by
  unfold State.ignored; repeat' (first | rfl | (simp; done) | split)
@[simp] theorem State.ignored_sec (s : State) (off data : Nat) (r : Req) : (s.ignored off data r).sec = s.sec := by
  unfold State.ignored; repeat' (first | rfl | (simp; done) | split)
@[simp] theorem State.ignored_freeCtr (s : State) (off data : Nat) (r : Req) : (s.ignored off data r).freeCtr = s.freeCtr := by
  unfold State.ignored; repeat' (first | rfl | (simp; done) | split)
@[simp] theorem State.ignored_pending (s : State) (off data : Nat) (r : Req) : (s.ignored off data r).pending = s.pending := by
  unfold State.ignored; repeat' (first | rfl | (simp; done) | split)

@[simp] theorem State.recIrq_staged (s : State) (b : Blk) (n : Nat) : (s.recIrq b n).staged = s.staged := by
  unfold State.recIrq; repeat' (first | rfl | (simp; done) | split)
@[simp] theorem State.recIrq_rst (s : State) (b : Blk) (n : Nat) : (s.recIrq b n).rst = s.rst := by
  unfold State.recIrq; repeat' (first | rfl | (simp; done) | split)
@[simp] theorem State.recIrq_bus (s : State) (b : Blk) (n : Nat) : (s.recIrq b n).bus = s.bus := by
  unfold State.recIrq; repeat' (first | rfl | (simp; done) | split)
@[simp] theorem State.recIrq_strobes (s : State) (b : Blk) (n : Nat) : (s.recIrq b n).strobes = s.strobes := by
  unfold State.recIrq; repeat' (first | rfl | (simp; done) | split)
@[simp] theorem State.recIrq_pins (s : State) (b : Blk) (n : Nat) : (s.recIrq b n).pins = s.pins := by
  unfold State.recIrq; repeat' (first | rfl | (simp; done) | split)
@[simp] theorem State.recIrq_nv (s : State) (b : Blk) (n : Nat) : (s.recIrq b n).nv = s.nv := by
  unfold State.recIrq; repeat' (first | rfl | (simp; done) | split)
@[simp] theorem State.recIrq_wires (s : State) (b : Blk) (n : Nat) : (s.recIrq b n).wires = s.wires := by
  unfold State.recIrq; repeat' (first | rfl | (simp; done) | split)
@[simp] theorem State.recIrq_rail (s : State) (b : Blk) (n : Nat) : (s.recIrq b n).rail = s.rail := by
  unfold State.recIrq; repeat' (first | rfl | (simp; done) | split)
@[simp] theorem State.recIrq_pair (s : State) (b : Blk) (n : Nat) : (s.recIrq b n).pair = s.pair := by
  unfold State.recIrq; repeat' (first | rfl | (simp; done) | split)
@[simp] theorem State.recIrq_pseq (s : State) (b : Blk) (n : Nat) : (s.recIrq b n).pseq = s.pseq := by
  unfold State.recIrq; repeat' (first | rfl | (simp; done) | split)
@[simp] theorem State.recIrq_lane (s : State) (b : Blk) (n : Nat) : (s.recIrq b n).lane = s.lane := by
  unfold State.recIrq; repeat' (first | rfl | (simp; done) | split)
@[simp] theorem State.recIrq_mem (s : State) (b : Blk) (n : Nat) : (s.recIrq b n).mem = s.mem := by
  unfold State.recIrq; repeat' (first | rfl | (simp; done) | split)
@[simp] theorem State.recIrq_pers (s : State) (b : Blk) (n : Nat) : (s.recIrq b n).pers = s.pers := by
  unfold State.recIrq; repeat' (first | rfl | (simp; done) | split)
@[simp] theorem State.recIrq_fab (s : State) (b : Blk) (n : Nat) : (s.recIrq b n).fab = s.fab := by
  unfold State.recIrq; repeat' (first | rfl | (simp; done) | split)
@[simp] theorem State.recIrq_care (s : State) (b : Blk) (n : Nat) : (s.recIrq b n).care = s.care := by
  unfold State.recIrq; repeat' (first | rfl | (simp; done) | split)
@[simp] theorem State.recIrq_otp (s : State) (b : Blk) (n : Nat) : (s.recIrq b n).otp = s.otp := by
  unfold State.recIrq; repeat' (first | rfl | (simp; done) | split)
@[simp] theorem State.recIrq_thm (s : State) (b : Blk) (n : Nat) : (s.recIrq b n).thm = s.thm := by
  unfold State.recIrq; repeat' (first | rfl | (simp; done) | split)
@[simp] theorem State.recIrq_comp (s : State) (b : Blk) (n : Nat) : (s.recIrq b n).comp = s.comp := by
  unfold State.recIrq; repeat' (first | rfl | (simp; done) | split)
@[simp] theorem State.recIrq_view (s : State) (b : Blk) (n : Nat) : (s.recIrq b n).view = s.view := by
  unfold State.recIrq; repeat' (first | rfl | (simp; done) | split)
@[simp] theorem State.recIrq_intk (s : State) (b : Blk) (n : Nat) : (s.recIrq b n).intk = s.intk := by
  unfold State.recIrq; repeat' (first | rfl | (simp; done) | split)
@[simp] theorem State.recIrq_lzc (s : State) (b : Blk) (n : Nat) : (s.recIrq b n).lzc = s.lzc := by
  unfold State.recIrq; repeat' (first | rfl | (simp; done) | split)
@[simp] theorem State.recIrq_blt (s : State) (b : Blk) (n : Nat) : (s.recIrq b n).blt = s.blt := by
  unfold State.recIrq; repeat' (first | rfl | (simp; done) | split)
@[simp] theorem State.recIrq_dram (s : State) (b : Blk) (n : Nat) : (s.recIrq b n).dram = s.dram := by
  unfold State.recIrq; repeat' (first | rfl | (simp; done) | split)
@[simp] theorem State.recIrq_time (s : State) (b : Blk) (n : Nat) : (s.recIrq b n).time = s.time := by
  unfold State.recIrq; repeat' (first | rfl | (simp; done) | split)
@[simp] theorem State.recIrq_array (s : State) (b : Blk) (n : Nat) : (s.recIrq b n).array = s.array := by
  unfold State.recIrq; repeat' (first | rfl | (simp; done) | split)
@[simp] theorem State.recIrq_host (s : State) (b : Blk) (n : Nat) : (s.recIrq b n).host = s.host := by
  unfold State.recIrq; repeat' (first | rfl | (simp; done) | split)
@[simp] theorem State.recIrq_sec (s : State) (b : Blk) (n : Nat) : (s.recIrq b n).sec = s.sec := by
  unfold State.recIrq; repeat' (first | rfl | (simp; done) | split)
@[simp] theorem State.recIrq_pending (s : State) (b : Blk) (n : Nat) : (s.recIrq b n).pending = s.pending := by
  unfold State.recIrq; repeat' (first | rfl | (simp; done) | split)

@[simp] theorem State.recOther_staged (s : State) (off : Nat) : (s.recOther off).staged = s.staged := by
  unfold State.recOther; repeat' (first | rfl | (simp; done) | split)
@[simp] theorem State.recOther_rst (s : State) (off : Nat) : (s.recOther off).rst = s.rst := by
  unfold State.recOther; repeat' (first | rfl | (simp; done) | split)
@[simp] theorem State.recOther_bus (s : State) (off : Nat) : (s.recOther off).bus = s.bus := by
  unfold State.recOther; repeat' (first | rfl | (simp; done) | split)
@[simp] theorem State.recOther_strobes (s : State) (off : Nat) : (s.recOther off).strobes = s.strobes := by
  unfold State.recOther; repeat' (first | rfl | (simp; done) | split)
@[simp] theorem State.recOther_pins (s : State) (off : Nat) : (s.recOther off).pins = s.pins := by
  unfold State.recOther; repeat' (first | rfl | (simp; done) | split)
@[simp] theorem State.recOther_nv (s : State) (off : Nat) : (s.recOther off).nv = s.nv := by
  unfold State.recOther; repeat' (first | rfl | (simp; done) | split)
@[simp] theorem State.recOther_wires (s : State) (off : Nat) : (s.recOther off).wires = s.wires := by
  unfold State.recOther; repeat' (first | rfl | (simp; done) | split)
@[simp] theorem State.recOther_rail (s : State) (off : Nat) : (s.recOther off).rail = s.rail := by
  unfold State.recOther; repeat' (first | rfl | (simp; done) | split)
@[simp] theorem State.recOther_pair (s : State) (off : Nat) : (s.recOther off).pair = s.pair := by
  unfold State.recOther; repeat' (first | rfl | (simp; done) | split)
@[simp] theorem State.recOther_pseq (s : State) (off : Nat) : (s.recOther off).pseq = s.pseq := by
  unfold State.recOther; repeat' (first | rfl | (simp; done) | split)
@[simp] theorem State.recOther_lane (s : State) (off : Nat) : (s.recOther off).lane = s.lane := by
  unfold State.recOther; repeat' (first | rfl | (simp; done) | split)
@[simp] theorem State.recOther_mem (s : State) (off : Nat) : (s.recOther off).mem = s.mem := by
  unfold State.recOther; repeat' (first | rfl | (simp; done) | split)
@[simp] theorem State.recOther_pers (s : State) (off : Nat) : (s.recOther off).pers = s.pers := by
  unfold State.recOther; repeat' (first | rfl | (simp; done) | split)
@[simp] theorem State.recOther_fab (s : State) (off : Nat) : (s.recOther off).fab = s.fab := by
  unfold State.recOther; repeat' (first | rfl | (simp; done) | split)
@[simp] theorem State.recOther_care (s : State) (off : Nat) : (s.recOther off).care = s.care := by
  unfold State.recOther; repeat' (first | rfl | (simp; done) | split)
@[simp] theorem State.recOther_otp (s : State) (off : Nat) : (s.recOther off).otp = s.otp := by
  unfold State.recOther; repeat' (first | rfl | (simp; done) | split)
@[simp] theorem State.recOther_thm (s : State) (off : Nat) : (s.recOther off).thm = s.thm := by
  unfold State.recOther; repeat' (first | rfl | (simp; done) | split)
@[simp] theorem State.recOther_comp (s : State) (off : Nat) : (s.recOther off).comp = s.comp := by
  unfold State.recOther; repeat' (first | rfl | (simp; done) | split)
@[simp] theorem State.recOther_view (s : State) (off : Nat) : (s.recOther off).view = s.view := by
  unfold State.recOther; repeat' (first | rfl | (simp; done) | split)
@[simp] theorem State.recOther_intk (s : State) (off : Nat) : (s.recOther off).intk = s.intk := by
  unfold State.recOther; repeat' (first | rfl | (simp; done) | split)
@[simp] theorem State.recOther_lzc (s : State) (off : Nat) : (s.recOther off).lzc = s.lzc := by
  unfold State.recOther; repeat' (first | rfl | (simp; done) | split)
@[simp] theorem State.recOther_blt (s : State) (off : Nat) : (s.recOther off).blt = s.blt := by
  unfold State.recOther; repeat' (first | rfl | (simp; done) | split)
@[simp] theorem State.recOther_dram (s : State) (off : Nat) : (s.recOther off).dram = s.dram := by
  unfold State.recOther; repeat' (first | rfl | (simp; done) | split)
@[simp] theorem State.recOther_time (s : State) (off : Nat) : (s.recOther off).time = s.time := by
  unfold State.recOther; repeat' (first | rfl | (simp; done) | split)
@[simp] theorem State.recOther_array (s : State) (off : Nat) : (s.recOther off).array = s.array := by
  unfold State.recOther; repeat' (first | rfl | (simp; done) | split)
@[simp] theorem State.recOther_host (s : State) (off : Nat) : (s.recOther off).host = s.host := by
  unfold State.recOther; repeat' (first | rfl | (simp; done) | split)
@[simp] theorem State.recOther_sec (s : State) (off : Nat) : (s.recOther off).sec = s.sec := by
  unfold State.recOther; repeat' (first | rfl | (simp; done) | split)
@[simp] theorem State.recOther_pending (s : State) (off : Nat) : (s.recOther off).pending = s.pending := by
  unfold State.recOther; repeat' (first | rfl | (simp; done) | split)

@[simp] theorem State.raiseRec_staged (s : State) (b : Blk) (n : Nat) : (s.raiseRec b n).staged = s.staged := by
  unfold State.raiseRec; repeat' (first | rfl | (simp; done) | split)
@[simp] theorem State.raiseRec_rst (s : State) (b : Blk) (n : Nat) : (s.raiseRec b n).rst = s.rst := by
  unfold State.raiseRec; repeat' (first | rfl | (simp; done) | split)
@[simp] theorem State.raiseRec_bus (s : State) (b : Blk) (n : Nat) : (s.raiseRec b n).bus = s.bus := by
  unfold State.raiseRec; repeat' (first | rfl | (simp; done) | split)
@[simp] theorem State.raiseRec_strobes (s : State) (b : Blk) (n : Nat) : (s.raiseRec b n).strobes = s.strobes := by
  unfold State.raiseRec; repeat' (first | rfl | (simp; done) | split)
@[simp] theorem State.raiseRec_pins (s : State) (b : Blk) (n : Nat) : (s.raiseRec b n).pins = s.pins := by
  unfold State.raiseRec; repeat' (first | rfl | (simp; done) | split)
@[simp] theorem State.raiseRec_nv (s : State) (b : Blk) (n : Nat) : (s.raiseRec b n).nv = s.nv := by
  unfold State.raiseRec; repeat' (first | rfl | (simp; done) | split)
@[simp] theorem State.raiseRec_wires (s : State) (b : Blk) (n : Nat) : (s.raiseRec b n).wires = s.wires := by
  unfold State.raiseRec; repeat' (first | rfl | (simp; done) | split)
@[simp] theorem State.raiseRec_rail (s : State) (b : Blk) (n : Nat) : (s.raiseRec b n).rail = s.rail := by
  unfold State.raiseRec; repeat' (first | rfl | (simp; done) | split)
@[simp] theorem State.raiseRec_pair (s : State) (b : Blk) (n : Nat) : (s.raiseRec b n).pair = s.pair := by
  unfold State.raiseRec; repeat' (first | rfl | (simp; done) | split)
@[simp] theorem State.raiseRec_pseq (s : State) (b : Blk) (n : Nat) : (s.raiseRec b n).pseq = s.pseq := by
  unfold State.raiseRec; repeat' (first | rfl | (simp; done) | split)
@[simp] theorem State.raiseRec_lane (s : State) (b : Blk) (n : Nat) : (s.raiseRec b n).lane = s.lane := by
  unfold State.raiseRec; repeat' (first | rfl | (simp; done) | split)
@[simp] theorem State.raiseRec_mem (s : State) (b : Blk) (n : Nat) : (s.raiseRec b n).mem = s.mem := by
  unfold State.raiseRec; repeat' (first | rfl | (simp; done) | split)
@[simp] theorem State.raiseRec_pers (s : State) (b : Blk) (n : Nat) : (s.raiseRec b n).pers = s.pers := by
  unfold State.raiseRec; repeat' (first | rfl | (simp; done) | split)
@[simp] theorem State.raiseRec_fab (s : State) (b : Blk) (n : Nat) : (s.raiseRec b n).fab = s.fab := by
  unfold State.raiseRec; repeat' (first | rfl | (simp; done) | split)
@[simp] theorem State.raiseRec_care (s : State) (b : Blk) (n : Nat) : (s.raiseRec b n).care = s.care := by
  unfold State.raiseRec; repeat' (first | rfl | (simp; done) | split)
@[simp] theorem State.raiseRec_otp (s : State) (b : Blk) (n : Nat) : (s.raiseRec b n).otp = s.otp := by
  unfold State.raiseRec; repeat' (first | rfl | (simp; done) | split)
@[simp] theorem State.raiseRec_thm (s : State) (b : Blk) (n : Nat) : (s.raiseRec b n).thm = s.thm := by
  unfold State.raiseRec; repeat' (first | rfl | (simp; done) | split)
@[simp] theorem State.raiseRec_comp (s : State) (b : Blk) (n : Nat) : (s.raiseRec b n).comp = s.comp := by
  unfold State.raiseRec; repeat' (first | rfl | (simp; done) | split)
@[simp] theorem State.raiseRec_view (s : State) (b : Blk) (n : Nat) : (s.raiseRec b n).view = s.view := by
  unfold State.raiseRec; repeat' (first | rfl | (simp; done) | split)
@[simp] theorem State.raiseRec_intk (s : State) (b : Blk) (n : Nat) : (s.raiseRec b n).intk = s.intk := by
  unfold State.raiseRec; repeat' (first | rfl | (simp; done) | split)
@[simp] theorem State.raiseRec_lzc (s : State) (b : Blk) (n : Nat) : (s.raiseRec b n).lzc = s.lzc := by
  unfold State.raiseRec; repeat' (first | rfl | (simp; done) | split)
@[simp] theorem State.raiseRec_blt (s : State) (b : Blk) (n : Nat) : (s.raiseRec b n).blt = s.blt := by
  unfold State.raiseRec; repeat' (first | rfl | (simp; done) | split)
@[simp] theorem State.raiseRec_dram (s : State) (b : Blk) (n : Nat) : (s.raiseRec b n).dram = s.dram := by
  unfold State.raiseRec; repeat' (first | rfl | (simp; done) | split)
@[simp] theorem State.raiseRec_time (s : State) (b : Blk) (n : Nat) : (s.raiseRec b n).time = s.time := by
  unfold State.raiseRec; repeat' (first | rfl | (simp; done) | split)
@[simp] theorem State.raiseRec_array (s : State) (b : Blk) (n : Nat) : (s.raiseRec b n).array = s.array := by
  unfold State.raiseRec; repeat' (first | rfl | (simp; done) | split)
@[simp] theorem State.raiseRec_host (s : State) (b : Blk) (n : Nat) : (s.raiseRec b n).host = s.host := by
  unfold State.raiseRec; repeat' (first | rfl | (simp; done) | split)
@[simp] theorem State.raiseRec_sec (s : State) (b : Blk) (n : Nat) : (s.raiseRec b n).sec = s.sec := by
  unfold State.raiseRec; repeat' (first | rfl | (simp; done) | split)
@[simp] theorem State.raiseRec_pending (s : State) (b : Blk) (n : Nat) : (s.raiseRec b n).pending = s.pending := by
  unfold State.raiseRec; repeat' (first | rfl | (simp; done) | split)

@[simp] theorem State.stageFail_staged (s : State) (n : Nat) : (s.stageFail n).staged = s.staged := by
  unfold State.stageFail; repeat' (first | rfl | (simp; done) | split)
@[simp] theorem State.stageFail_rst (s : State) (n : Nat) : (s.stageFail n).rst = s.rst := by
  unfold State.stageFail; repeat' (first | rfl | (simp; done) | split)
@[simp] theorem State.stageFail_bus (s : State) (n : Nat) : (s.stageFail n).bus = s.bus := by
  unfold State.stageFail; repeat' (first | rfl | (simp; done) | split)
@[simp] theorem State.stageFail_strobes (s : State) (n : Nat) : (s.stageFail n).strobes = s.strobes := by
  unfold State.stageFail; repeat' (first | rfl | (simp; done) | split)
@[simp] theorem State.stageFail_nv (s : State) (n : Nat) : (s.stageFail n).nv = s.nv := by
  unfold State.stageFail; repeat' (first | rfl | (simp; done) | split)
@[simp] theorem State.stageFail_wires (s : State) (n : Nat) : (s.stageFail n).wires = s.wires := by
  unfold State.stageFail; repeat' (first | rfl | (simp; done) | split)
@[simp] theorem State.stageFail_rail (s : State) (n : Nat) : (s.stageFail n).rail = s.rail := by
  unfold State.stageFail; repeat' (first | rfl | (simp; done) | split)
@[simp] theorem State.stageFail_pair (s : State) (n : Nat) : (s.stageFail n).pair = s.pair := by
  unfold State.stageFail; repeat' (first | rfl | (simp; done) | split)
@[simp] theorem State.stageFail_pseq (s : State) (n : Nat) : (s.stageFail n).pseq = s.pseq := by
  unfold State.stageFail; repeat' (first | rfl | (simp; done) | split)
@[simp] theorem State.stageFail_lane (s : State) (n : Nat) : (s.stageFail n).lane = s.lane := by
  unfold State.stageFail; repeat' (first | rfl | (simp; done) | split)
@[simp] theorem State.stageFail_mem (s : State) (n : Nat) : (s.stageFail n).mem = s.mem := by
  unfold State.stageFail; repeat' (first | rfl | (simp; done) | split)
@[simp] theorem State.stageFail_pers (s : State) (n : Nat) : (s.stageFail n).pers = s.pers := by
  unfold State.stageFail; repeat' (first | rfl | (simp; done) | split)
@[simp] theorem State.stageFail_fab (s : State) (n : Nat) : (s.stageFail n).fab = s.fab := by
  unfold State.stageFail; repeat' (first | rfl | (simp; done) | split)
@[simp] theorem State.stageFail_care (s : State) (n : Nat) : (s.stageFail n).care = s.care := by
  unfold State.stageFail; repeat' (first | rfl | (simp; done) | split)
@[simp] theorem State.stageFail_otp (s : State) (n : Nat) : (s.stageFail n).otp = s.otp := by
  unfold State.stageFail; repeat' (first | rfl | (simp; done) | split)
@[simp] theorem State.stageFail_thm (s : State) (n : Nat) : (s.stageFail n).thm = s.thm := by
  unfold State.stageFail; repeat' (first | rfl | (simp; done) | split)
@[simp] theorem State.stageFail_comp (s : State) (n : Nat) : (s.stageFail n).comp = s.comp := by
  unfold State.stageFail; repeat' (first | rfl | (simp; done) | split)
@[simp] theorem State.stageFail_view (s : State) (n : Nat) : (s.stageFail n).view = s.view := by
  unfold State.stageFail; repeat' (first | rfl | (simp; done) | split)
@[simp] theorem State.stageFail_intk (s : State) (n : Nat) : (s.stageFail n).intk = s.intk := by
  unfold State.stageFail; repeat' (first | rfl | (simp; done) | split)
@[simp] theorem State.stageFail_lzc (s : State) (n : Nat) : (s.stageFail n).lzc = s.lzc := by
  unfold State.stageFail; repeat' (first | rfl | (simp; done) | split)
@[simp] theorem State.stageFail_blt (s : State) (n : Nat) : (s.stageFail n).blt = s.blt := by
  unfold State.stageFail; repeat' (first | rfl | (simp; done) | split)
@[simp] theorem State.stageFail_dram (s : State) (n : Nat) : (s.stageFail n).dram = s.dram := by
  unfold State.stageFail; repeat' (first | rfl | (simp; done) | split)
@[simp] theorem State.stageFail_time (s : State) (n : Nat) : (s.stageFail n).time = s.time := by
  unfold State.stageFail; repeat' (first | rfl | (simp; done) | split)
@[simp] theorem State.stageFail_array (s : State) (n : Nat) : (s.stageFail n).array = s.array := by
  unfold State.stageFail; repeat' (first | rfl | (simp; done) | split)
@[simp] theorem State.stageFail_host (s : State) (n : Nat) : (s.stageFail n).host = s.host := by
  unfold State.stageFail; repeat' (first | rfl | (simp; done) | split)
@[simp] theorem State.stageFail_sec (s : State) (n : Nat) : (s.stageFail n).sec = s.sec := by
  unfold State.stageFail; repeat' (first | rfl | (simp; done) | split)
@[simp] theorem State.stageFail_pending (s : State) (n : Nat) : (s.stageFail n).pending = s.pending := by
  unfold State.stageFail; repeat' (first | rfl | (simp; done) | split)

/-- A message on the pair link changes the numbers of the link, what is sent and the lane transmitters, nothing else. -/
theorem State.sendPair_eq (s : State) (m : PairMsg) :
    s.sendPair m = { s with pair := (s.sendPair m).pair, out := (s.sendPair m).out, wires := (s.sendPair m).wires } := by
  have plain : ∀ (t u : State) (e : Emit), t = { s with wires := t.wires } → u = t.emit e →
      u = { s with pair := u.pair, out := u.out, wires := u.wires } := by
    intro t u e ht hu
    rw [hu, ht]
    rfl
  have numbered : ∀ (t u : State) (p : PairState) (e : Emit), t = { s with wires := t.wires } → u = ({ t with pair := p } : State).emit e →
      u = { s with pair := u.pair, out := u.out, wires := u.wires } := by
    intro t u p e ht hu
    rw [hu, ht]
    rfl
  generalize hu : s.sendPair m = u
  unfold State.sendPair at hu
  split at hu
  · subst hu; rfl
  · split at hu
    · exact plain _ _ _ (State.pairFrames_eq ..) hu.symm
    · exact plain _ _ _ (State.pairFrames_eq ..) hu.symm
    · exact numbered _ _ _ _ (State.pairFrames_eq ..) hu.symm

@[simp] theorem State.sendPair_regs (s : State) (m : PairMsg) : (s.sendPair m).regs = s.regs := by rw [State.sendPair_eq]
@[simp] theorem State.sendPair_staged (s : State) (m : PairMsg) : (s.sendPair m).staged = s.staged := by rw [State.sendPair_eq]
@[simp] theorem State.sendPair_rst (s : State) (m : PairMsg) : (s.sendPair m).rst = s.rst := by rw [State.sendPair_eq]
@[simp] theorem State.sendPair_bus (s : State) (m : PairMsg) : (s.sendPair m).bus = s.bus := by rw [State.sendPair_eq]
@[simp] theorem State.sendPair_strobes (s : State) (m : PairMsg) : (s.sendPair m).strobes = s.strobes := by rw [State.sendPair_eq]
@[simp] theorem State.sendPair_pins (s : State) (m : PairMsg) : (s.sendPair m).pins = s.pins := by rw [State.sendPair_eq]
@[simp] theorem State.sendPair_teph (s : State) (m : PairMsg) : (s.sendPair m).teph = s.teph := by rw [State.sendPair_eq]
@[simp] theorem State.sendPair_nv (s : State) (m : PairMsg) : (s.sendPair m).nv = s.nv := by rw [State.sendPair_eq]
@[simp] theorem State.sendPair_rail (s : State) (m : PairMsg) : (s.sendPair m).rail = s.rail := by rw [State.sendPair_eq]
@[simp] theorem State.sendPair_pseq (s : State) (m : PairMsg) : (s.sendPair m).pseq = s.pseq := by rw [State.sendPair_eq]
@[simp] theorem State.sendPair_lane (s : State) (m : PairMsg) : (s.sendPair m).lane = s.lane := by rw [State.sendPair_eq]
@[simp] theorem State.sendPair_mem (s : State) (m : PairMsg) : (s.sendPair m).mem = s.mem := by rw [State.sendPair_eq]
@[simp] theorem State.sendPair_pers (s : State) (m : PairMsg) : (s.sendPair m).pers = s.pers := by rw [State.sendPair_eq]
@[simp] theorem State.sendPair_fab (s : State) (m : PairMsg) : (s.sendPair m).fab = s.fab := by rw [State.sendPair_eq]
@[simp] theorem State.sendPair_care (s : State) (m : PairMsg) : (s.sendPair m).care = s.care := by rw [State.sendPair_eq]
@[simp] theorem State.sendPair_otp (s : State) (m : PairMsg) : (s.sendPair m).otp = s.otp := by rw [State.sendPair_eq]
@[simp] theorem State.sendPair_thm (s : State) (m : PairMsg) : (s.sendPair m).thm = s.thm := by rw [State.sendPair_eq]
@[simp] theorem State.sendPair_comp (s : State) (m : PairMsg) : (s.sendPair m).comp = s.comp := by rw [State.sendPair_eq]
@[simp] theorem State.sendPair_view (s : State) (m : PairMsg) : (s.sendPair m).view = s.view := by rw [State.sendPair_eq]
@[simp] theorem State.sendPair_intk (s : State) (m : PairMsg) : (s.sendPair m).intk = s.intk := by rw [State.sendPair_eq]
@[simp] theorem State.sendPair_lzc (s : State) (m : PairMsg) : (s.sendPair m).lzc = s.lzc := by rw [State.sendPair_eq]
@[simp] theorem State.sendPair_blt (s : State) (m : PairMsg) : (s.sendPair m).blt = s.blt := by rw [State.sendPair_eq]
@[simp] theorem State.sendPair_dram (s : State) (m : PairMsg) : (s.sendPair m).dram = s.dram := by rw [State.sendPair_eq]
@[simp] theorem State.sendPair_time (s : State) (m : PairMsg) : (s.sendPair m).time = s.time := by rw [State.sendPair_eq]
@[simp] theorem State.sendPair_array (s : State) (m : PairMsg) : (s.sendPair m).array = s.array := by rw [State.sendPair_eq]
@[simp] theorem State.sendPair_host (s : State) (m : PairMsg) : (s.sendPair m).host = s.host := by rw [State.sendPair_eq]
@[simp] theorem State.sendPair_sec (s : State) (m : PairMsg) : (s.sendPair m).sec = s.sec := by rw [State.sendPair_eq]
@[simp] theorem State.sendPair_freeCtr (s : State) (m : PairMsg) : (s.sendPair m).freeCtr = s.freeCtr := by rw [State.sendPair_eq]
@[simp] theorem State.sendPair_pending (s : State) (m : PairMsg) : (s.sendPair m).pending = s.pending := by rw [State.sendPair_eq]

@[simp] theorem State.sendNotice_staged (s : State) (k : Notice) (c : NoticeCause) (n : Nat) (l : Option Nat) : (s.sendNotice k c n l).staged = s.staged := by
  unfold State.sendNotice; repeat' (first | rfl | (simp; done) | split)
@[simp] theorem State.sendNotice_rst (s : State) (k : Notice) (c : NoticeCause) (n : Nat) (l : Option Nat) : (s.sendNotice k c n l).rst = s.rst := by
  unfold State.sendNotice; repeat' (first | rfl | (simp; done) | split)
@[simp] theorem State.sendNotice_bus (s : State) (k : Notice) (c : NoticeCause) (n : Nat) (l : Option Nat) : (s.sendNotice k c n l).bus = s.bus := by
  unfold State.sendNotice; repeat' (first | rfl | (simp; done) | split)
@[simp] theorem State.sendNotice_strobes (s : State) (k : Notice) (c : NoticeCause) (n : Nat) (l : Option Nat) : (s.sendNotice k c n l).strobes = s.strobes := by
  unfold State.sendNotice; repeat' (first | rfl | (simp; done) | split)
@[simp] theorem State.sendNotice_pins (s : State) (k : Notice) (c : NoticeCause) (n : Nat) (l : Option Nat) : (s.sendNotice k c n l).pins = s.pins := by
  unfold State.sendNotice; repeat' (first | rfl | (simp; done) | split)
@[simp] theorem State.sendNotice_nv (s : State) (k : Notice) (c : NoticeCause) (n : Nat) (l : Option Nat) : (s.sendNotice k c n l).nv = s.nv := by
  unfold State.sendNotice; repeat' (first | rfl | (simp; done) | split)
@[simp] theorem State.sendNotice_rail (s : State) (k : Notice) (c : NoticeCause) (n : Nat) (l : Option Nat) : (s.sendNotice k c n l).rail = s.rail := by
  unfold State.sendNotice; repeat' (first | rfl | (simp; done) | split)
@[simp] theorem State.sendNotice_pseq (s : State) (k : Notice) (c : NoticeCause) (n : Nat) (l : Option Nat) : (s.sendNotice k c n l).pseq = s.pseq := by
  unfold State.sendNotice; repeat' (first | rfl | (simp; done) | split)
@[simp] theorem State.sendNotice_lane (s : State) (k : Notice) (c : NoticeCause) (n : Nat) (l : Option Nat) : (s.sendNotice k c n l).lane = s.lane := by
  unfold State.sendNotice; repeat' (first | rfl | (simp; done) | split)
@[simp] theorem State.sendNotice_mem (s : State) (k : Notice) (c : NoticeCause) (n : Nat) (l : Option Nat) : (s.sendNotice k c n l).mem = s.mem := by
  unfold State.sendNotice; repeat' (first | rfl | (simp; done) | split)
@[simp] theorem State.sendNotice_pers (s : State) (k : Notice) (c : NoticeCause) (n : Nat) (l : Option Nat) : (s.sendNotice k c n l).pers = s.pers := by
  unfold State.sendNotice; repeat' (first | rfl | (simp; done) | split)
@[simp] theorem State.sendNotice_fab (s : State) (k : Notice) (c : NoticeCause) (n : Nat) (l : Option Nat) : (s.sendNotice k c n l).fab = s.fab := by
  unfold State.sendNotice; repeat' (first | rfl | (simp; done) | split)
@[simp] theorem State.sendNotice_care (s : State) (k : Notice) (c : NoticeCause) (n : Nat) (l : Option Nat) : (s.sendNotice k c n l).care = s.care := by
  unfold State.sendNotice; repeat' (first | rfl | (simp; done) | split)
@[simp] theorem State.sendNotice_otp (s : State) (k : Notice) (c : NoticeCause) (n : Nat) (l : Option Nat) : (s.sendNotice k c n l).otp = s.otp := by
  unfold State.sendNotice; repeat' (first | rfl | (simp; done) | split)
@[simp] theorem State.sendNotice_thm (s : State) (k : Notice) (c : NoticeCause) (n : Nat) (l : Option Nat) : (s.sendNotice k c n l).thm = s.thm := by
  unfold State.sendNotice; repeat' (first | rfl | (simp; done) | split)
@[simp] theorem State.sendNotice_comp (s : State) (k : Notice) (c : NoticeCause) (n : Nat) (l : Option Nat) : (s.sendNotice k c n l).comp = s.comp := by
  unfold State.sendNotice; repeat' (first | rfl | (simp; done) | split)
@[simp] theorem State.sendNotice_view (s : State) (k : Notice) (c : NoticeCause) (n : Nat) (l : Option Nat) : (s.sendNotice k c n l).view = s.view := by
  unfold State.sendNotice; repeat' (first | rfl | (simp; done) | split)
@[simp] theorem State.sendNotice_intk (s : State) (k : Notice) (c : NoticeCause) (n : Nat) (l : Option Nat) : (s.sendNotice k c n l).intk = s.intk := by
  unfold State.sendNotice; repeat' (first | rfl | (simp; done) | split)
@[simp] theorem State.sendNotice_lzc (s : State) (k : Notice) (c : NoticeCause) (n : Nat) (l : Option Nat) : (s.sendNotice k c n l).lzc = s.lzc := by
  unfold State.sendNotice; repeat' (first | rfl | (simp; done) | split)
@[simp] theorem State.sendNotice_blt (s : State) (k : Notice) (c : NoticeCause) (n : Nat) (l : Option Nat) : (s.sendNotice k c n l).blt = s.blt := by
  unfold State.sendNotice; repeat' (first | rfl | (simp; done) | split)
@[simp] theorem State.sendNotice_dram (s : State) (k : Notice) (c : NoticeCause) (n : Nat) (l : Option Nat) : (s.sendNotice k c n l).dram = s.dram := by
  unfold State.sendNotice; repeat' (first | rfl | (simp; done) | split)
@[simp] theorem State.sendNotice_time (s : State) (k : Notice) (c : NoticeCause) (n : Nat) (l : Option Nat) : (s.sendNotice k c n l).time = s.time := by
  unfold State.sendNotice; repeat' (first | rfl | (simp; done) | split)
@[simp] theorem State.sendNotice_array (s : State) (k : Notice) (c : NoticeCause) (n : Nat) (l : Option Nat) : (s.sendNotice k c n l).array = s.array := by
  unfold State.sendNotice; repeat' (first | rfl | (simp; done) | split)
@[simp] theorem State.sendNotice_host (s : State) (k : Notice) (c : NoticeCause) (n : Nat) (l : Option Nat) : (s.sendNotice k c n l).host = s.host := by
  unfold State.sendNotice; repeat' (first | rfl | (simp; done) | split)
@[simp] theorem State.sendNotice_sec (s : State) (k : Notice) (c : NoticeCause) (n : Nat) (l : Option Nat) : (s.sendNotice k c n l).sec = s.sec := by
  unfold State.sendNotice; repeat' (first | rfl | (simp; done) | split)
@[simp] theorem State.sendNotice_freeCtr (s : State) (k : Notice) (c : NoticeCause) (n : Nat) (l : Option Nat) : (s.sendNotice k c n l).freeCtr = s.freeCtr := by
  unfold State.sendNotice; repeat' (first | rfl | (simp; done) | split)
@[simp] theorem State.sendNotice_pending (s : State) (k : Notice) (c : NoticeCause) (n : Nat) (l : Option Nat) : (s.sendNotice k c n l).pending = s.pending := by
  unfold State.sendNotice; repeat' (first | rfl | (simp; done) | split)

@[simp] theorem State.sendFail_staged (s : State) (c : NoticeCause) (l : Option Nat) : (s.sendFail c l).staged = s.staged := by
  unfold State.sendFail; repeat' (first | rfl | (simp; done) | split)
@[simp] theorem State.sendFail_rst (s : State) (c : NoticeCause) (l : Option Nat) : (s.sendFail c l).rst = s.rst := by
  unfold State.sendFail; repeat' (first | rfl | (simp; done) | split)
@[simp] theorem State.sendFail_bus (s : State) (c : NoticeCause) (l : Option Nat) : (s.sendFail c l).bus = s.bus := by
  unfold State.sendFail; repeat' (first | rfl | (simp; done) | split)
@[simp] theorem State.sendFail_strobes (s : State) (c : NoticeCause) (l : Option Nat) : (s.sendFail c l).strobes = s.strobes := by
  unfold State.sendFail; repeat' (first | rfl | (simp; done) | split)
@[simp] theorem State.sendFail_pins (s : State) (c : NoticeCause) (l : Option Nat) : (s.sendFail c l).pins = s.pins := by
  unfold State.sendFail; repeat' (first | rfl | (simp; done) | split)
@[simp] theorem State.sendFail_nv (s : State) (c : NoticeCause) (l : Option Nat) : (s.sendFail c l).nv = s.nv := by
  unfold State.sendFail; repeat' (first | rfl | (simp; done) | split)
@[simp] theorem State.sendFail_rail (s : State) (c : NoticeCause) (l : Option Nat) : (s.sendFail c l).rail = s.rail := by
  unfold State.sendFail; repeat' (first | rfl | (simp; done) | split)
@[simp] theorem State.sendFail_pseq (s : State) (c : NoticeCause) (l : Option Nat) : (s.sendFail c l).pseq = s.pseq := by
  unfold State.sendFail; repeat' (first | rfl | (simp; done) | split)
@[simp] theorem State.sendFail_lane (s : State) (c : NoticeCause) (l : Option Nat) : (s.sendFail c l).lane = s.lane := by
  unfold State.sendFail; repeat' (first | rfl | (simp; done) | split)
@[simp] theorem State.sendFail_mem (s : State) (c : NoticeCause) (l : Option Nat) : (s.sendFail c l).mem = s.mem := by
  unfold State.sendFail; repeat' (first | rfl | (simp; done) | split)
@[simp] theorem State.sendFail_pers (s : State) (c : NoticeCause) (l : Option Nat) : (s.sendFail c l).pers = s.pers := by
  unfold State.sendFail; repeat' (first | rfl | (simp; done) | split)
@[simp] theorem State.sendFail_fab (s : State) (c : NoticeCause) (l : Option Nat) : (s.sendFail c l).fab = s.fab := by
  unfold State.sendFail; repeat' (first | rfl | (simp; done) | split)
@[simp] theorem State.sendFail_care (s : State) (c : NoticeCause) (l : Option Nat) : (s.sendFail c l).care = s.care := by
  unfold State.sendFail; repeat' (first | rfl | (simp; done) | split)
@[simp] theorem State.sendFail_otp (s : State) (c : NoticeCause) (l : Option Nat) : (s.sendFail c l).otp = s.otp := by
  unfold State.sendFail; repeat' (first | rfl | (simp; done) | split)
@[simp] theorem State.sendFail_thm (s : State) (c : NoticeCause) (l : Option Nat) : (s.sendFail c l).thm = s.thm := by
  unfold State.sendFail; repeat' (first | rfl | (simp; done) | split)
@[simp] theorem State.sendFail_comp (s : State) (c : NoticeCause) (l : Option Nat) : (s.sendFail c l).comp = s.comp := by
  unfold State.sendFail; repeat' (first | rfl | (simp; done) | split)
@[simp] theorem State.sendFail_view (s : State) (c : NoticeCause) (l : Option Nat) : (s.sendFail c l).view = s.view := by
  unfold State.sendFail; repeat' (first | rfl | (simp; done) | split)
@[simp] theorem State.sendFail_intk (s : State) (c : NoticeCause) (l : Option Nat) : (s.sendFail c l).intk = s.intk := by
  unfold State.sendFail; repeat' (first | rfl | (simp; done) | split)
@[simp] theorem State.sendFail_lzc (s : State) (c : NoticeCause) (l : Option Nat) : (s.sendFail c l).lzc = s.lzc := by
  unfold State.sendFail; repeat' (first | rfl | (simp; done) | split)
@[simp] theorem State.sendFail_blt (s : State) (c : NoticeCause) (l : Option Nat) : (s.sendFail c l).blt = s.blt := by
  unfold State.sendFail; repeat' (first | rfl | (simp; done) | split)
@[simp] theorem State.sendFail_dram (s : State) (c : NoticeCause) (l : Option Nat) : (s.sendFail c l).dram = s.dram := by
  unfold State.sendFail; repeat' (first | rfl | (simp; done) | split)
@[simp] theorem State.sendFail_time (s : State) (c : NoticeCause) (l : Option Nat) : (s.sendFail c l).time = s.time := by
  unfold State.sendFail; repeat' (first | rfl | (simp; done) | split)
@[simp] theorem State.sendFail_array (s : State) (c : NoticeCause) (l : Option Nat) : (s.sendFail c l).array = s.array := by
  unfold State.sendFail; repeat' (first | rfl | (simp; done) | split)
@[simp] theorem State.sendFail_host (s : State) (c : NoticeCause) (l : Option Nat) : (s.sendFail c l).host = s.host := by
  unfold State.sendFail; repeat' (first | rfl | (simp; done) | split)
@[simp] theorem State.sendFail_sec (s : State) (c : NoticeCause) (l : Option Nat) : (s.sendFail c l).sec = s.sec := by
  unfold State.sendFail; repeat' (first | rfl | (simp; done) | split)
@[simp] theorem State.sendFail_freeCtr (s : State) (c : NoticeCause) (l : Option Nat) : (s.sendFail c l).freeCtr = s.freeCtr := by
  unfold State.sendFail; repeat' (first | rfl | (simp; done) | split)
@[simp] theorem State.sendFail_pending (s : State) (c : NoticeCause) (l : Option Nat) : (s.sendFail c l).pending = s.pending := by
  unfold State.sendFail; repeat' (first | rfl | (simp; done) | split)

end Sys2Proof.Machine
end

