-- ==== Sys2Proof/Laws/Keep.lean ====
section
/-!
SUPPORT. `Keep`: what an update of the state leaves alone. Its area is a set of parts of the state and of registers, written as a number:
bit n stands for part n, bit 29 for the reset level that holds, bit 30 for every register, bit 31 for every register with staged fields
or of a snapshot, bit 32 + n for register `Area.cls n`. `Keep` is closed under every operation of the model.
-/

namespace Sys2Proof

open Sys2Proof.Machine

/-- Register `n`. -/
def Area.cls (n : Nat) : Fld :=
  bif Nat.blt n 139 then
   bif Nat.blt n 69 then
    bif Nat.blt n 34 then
     bif Nat.blt n 17 then
      bif Nat.blt n 8 then
       bif Nat.blt n 4 then
        bif Nat.blt n 2 then
         bif Nat.blt n 1 then R.CTL_UPDATE_STAT else R.CTL_UPDATE_LATE
        else
         bif Nat.blt n 3 then R.CTL_BUSERR_ADDR else R.CTL_BUSERR_INFO
       else
        bif Nat.blt n 6 then
         bif Nat.blt n 5 then R.CTL_BUSERR_COUNT else R.CTL_IRQ_STATUS
        else
         bif Nat.blt n 7 then R.RST_CAUSE else R.RST_STRAP
      else
       bif Nat.blt n 12 then
        bif Nat.blt n 10 then
         bif Nat.blt n 9 then R.RST_STAGE else R.CARE_STAT
        else
         bif Nat.blt n 11 then R.CARE_MBX_DATA else R.CARE_MBX_STAT
       else
        bif Nat.blt n 14 then
         bif Nat.blt n 13 then R.CARE_MBX_COUNT else R.CARE_RES
        else
         bif Nat.blt n 15 then
          R.CARE_RES_TAG
         else
          bif Nat.blt n 16 then R.CARE_LOCK else R.CARE_LOCK_STAT
     else
      bif Nat.blt n 25 then
       bif Nat.blt n 21 then
        bif Nat.blt n 19 then
         bif Nat.blt n 18 then R.CARE_IRQ_STATUS else R.SEC_STAT
        else
         bif Nat.blt n 20 then R.SEC_SVN_FW else R.SEC_SVN_PERS
       else
        bif Nat.blt n 23 then
         bif Nat.blt n 22 then R.SEC_SVN_ROWS else R.SEC_SVN_RESULT
        else
         bif Nat.blt n 24 then R.SEC_FW_SVN else R.SEC_FW_DIGEST
      else
       bif Nat.blt n 29 then
        bif Nat.blt n 27 then
         bif Nat.blt n 26 then R.SEC_HSS_INDEX else R.SEC_HSS_LEFT
        else
         bif Nat.blt n 28 then R.SEC_DBG_STAT else R.SEC_IRQ_STATUS
       else
        bif Nat.blt n 31 then
         bif Nat.blt n 30 then R.THM_STAT else R.THM_COUNT
        else
         bif Nat.blt n 32 then
          R.THM_VCORE
         else
          bif Nat.blt n 33 then R.THM_TCXO else R.THM_SENS
    else
     bif Nat.blt n 51 then
      bif Nat.blt n 42 then
       bif Nat.blt n 38 then
        bif Nat.blt n 36 then
         bif Nat.blt n 35 then R.THM_ZONE else R.THM_IRQ_STATUS
        else
         bif Nat.blt n 37 then R.CAL_STAT else R.CAL_SUBJ_LAST
       else
        bif Nat.blt n 40 then
         bif Nat.blt n 39 then R.CAL_SUBJ_COUNT else R.CAL_IRQ_STATUS
        else
         bif Nat.blt n 41 then R.TIME_STAT else R.TIME_PTP_STAT
      else
       bif Nat.blt n 46 then
        bif Nat.blt n 44 then
         bif Nat.blt n 43 then R.TIME_PTP_GM else R.TIME_PTP_OFFSET
        else
         bif Nat.blt n 45 then R.TIME_PPS_CAP else R.TIME_LAUNCH_STAT
       else
        bif Nat.blt n 48 then
         bif Nat.blt n 47 then R.TIME_LAUNCH_LAST else R.TIME_IRQ_STATUS
        else
         bif Nat.blt n 49 then
          R.PERS_STATE
         else
          bif Nat.blt n 50 then R.PERS_LAST else R.PERS_CONTENTION
     else
      bif Nat.blt n 60 then
       bif Nat.blt n 55 then
        bif Nat.blt n 53 then
         bif Nat.blt n 52 then R.PERS_PARTIAL_COUNT else R.PERS_IRQ_STATUS
        else
         bif Nat.blt n 54 then R.PERS_PARAM else R.PERS_SLOT_SRC
       else
        bif Nat.blt n 57 then
         bif Nat.blt n 56 then R.PERS_SLOT_LEN else R.PERS_SLOT_STAT
        else
         bif Nat.blt n 58 then
          R.PERS_SLOT_ERR_OFFSET
         else
          bif Nat.blt n 59 then R.PERS_SLOT_ID else R.PERS_SLOT_FMT
      else
       bif Nat.blt n 64 then
        bif Nat.blt n 62 then
         bif Nat.blt n 61 then R.PERS_SLOT_COVER else R.PERS_SLOT_SV
        else
         bif Nat.blt n 63 then R.FAB_TILE_STAT else R.FAB_TILE_HEALTH
       else
        bif Nat.blt n 66 then
         bif Nat.blt n 65 then R.FAB_TILE_ERR else R.FAB_TILE_MARGIN
        else
         bif Nat.blt n 67 then
          R.FAB_TILE_CLK
         else
          bif Nat.blt n 68 then R.FAB_TILE_BUDGET else R.FAB_TILE_TOKENS
   else
    bif Nat.blt n 104 then
     bif Nat.blt n 86 then
      bif Nat.blt n 77 then
       bif Nat.blt n 73 then
        bif Nat.blt n 71 then
         bif Nat.blt n 70 then R.FAB_TILE_DROP else R.FAB_TILE_ERRX
        else
         bif Nat.blt n 72 then R.FAB_TILE_EVENT else R.FAB_TILE_KAT
       else
        bif Nat.blt n 75 then
         bif Nat.blt n 74 then R.FAB_STAT else R.FAB_MIG_COUNT
        else
         bif Nat.blt n 76 then R.FAB_MIG_LAST else R.FAB_IRQ_STATUS
      else
       bif Nat.blt n 81 then
        bif Nat.blt n 79 then
         bif Nat.blt n 78 then R.FAB_QUAD_VOLT else R.FAB_QUAD_FREQ
        else
         bif Nat.blt n 80 then R.FAB_QUAD_LIMIT else R.VIEW_MODE
       else
        bif Nat.blt n 83 then
         bif Nat.blt n 82 then R.VIEW_MODE_EFF else R.VIEW_CTRL
        else
         bif Nat.blt n 84 then
          R.VIEW_REFUSE
         else
          bif Nat.blt n 85 then R.VIEW_IGNORED else R.VIEW_LENS
     else
      bif Nat.blt n 95 then
       bif Nat.blt n 90 then
        bif Nat.blt n 88 then
         bif Nat.blt n 87 then R.VIEW_STEER else R.VIEW_DEPTH_COUNT
        else
         bif Nat.blt n 89 then R.VIEW_RESID else R.VIEW_RAYS
       else
        bif Nat.blt n 92 then
         bif Nat.blt n 91 then R.VIEW_CUT else R.VIEW_BLACK
        else
         bif Nat.blt n 93 then
          R.VIEW_BAND
         else
          bif Nat.blt n 94 then R.VIEW_IRQ_STATUS else R.VIEW_DEPTH_Z
      else
       bif Nat.blt n 99 then
        bif Nat.blt n 97 then
         bif Nat.blt n 96 then R.VIEW_DEPTH_ORG_X else R.VIEW_DEPTH_ORG_Y
        else
         bif Nat.blt n 98 then R.VIEW_DEPTH_SCALE else R.VIEW_DEPTH_SIZE
       else
        bif Nat.blt n 101 then
         bif Nat.blt n 100 then R.VIEW_DEPTH_FLAGS else R.INTK_CTRL
        else
         bif Nat.blt n 102 then
          R.INTK_STAT
         else
          bif Nat.blt n 103 then R.INTK_SSRC else R.INTK_DMA_HEAD
    else
     bif Nat.blt n 121 then
      bif Nat.blt n 112 then
       bif Nat.blt n 108 then
        bif Nat.blt n 106 then
         bif Nat.blt n 105 then R.INTK_DMA_TAIL else R.INTK_DMA_STAT
        else
         bif Nat.blt n 107 then R.INTK_CONCEAL else R.INTK_IRQ_STATUS
       else
        bif Nat.blt n 110 then
         bif Nat.blt n 109 then R.INTK_KEY_KID else R.INTK_KEY_STAT
        else
         bif Nat.blt n 111 then R.TDEC_STAT else R.TDEC_ERR
      else
       bif Nat.blt n 116 then
        bif Nat.blt n 114 then
         bif Nat.blt n 113 then R.TDEC_PICS else R.TDEC_LATE
        else
         bif Nat.blt n 115 then R.TDEC_IRQ_STATUS else R.LZC_RING_HEAD
       else
        bif Nat.blt n 118 then
         bif Nat.blt n 117 then R.LZC_RING_TAIL else R.LZC_RING_STAT
        else
         bif Nat.blt n 119 then
          R.LZC_DONE_COUNT
         else
          bif Nat.blt n 120 then R.LZC_ERR_COUNT else R.LZC_LAST_ERR
     else
      bif Nat.blt n 130 then
       bif Nat.blt n 125 then
        bif Nat.blt n 123 then
         bif Nat.blt n 122 then R.LZC_LAST_ERR_OFF else R.LZC_IRQ_STATUS
        else
         bif Nat.blt n 124 then R.LZC_ENG_STAT else R.LZC_ENG_IN
       else
        bif Nat.blt n 127 then
         bif Nat.blt n 126 then R.LZC_ENG_OUT else R.LZC_ENG_JOBS
        else
         bif Nat.blt n 128 then
          R.COMP_SEQ
         else
          bif Nat.blt n 129 then R.COMP_SEQ_DONE else R.COMP_STAT
      else
       bif Nat.blt n 134 then
        bif Nat.blt n 132 then
         bif Nat.blt n 131 then R.COMP_POOL_SHORT else R.COMP_CAL_INDEX
        else
         bif Nat.blt n 133 then R.COMP_CAL_DATA else R.COMP_STATIC_TILES
       else
        bif Nat.blt n 136 then
         bif Nat.blt n 135 then R.COMP_SINTER_STAT else R.COMP_SINTER_COUNT
        else
         bif Nat.blt n 137 then
          R.COMP_SINTER_CAP
         else
          bif Nat.blt n 138 then R.COMP_GUARD_COUNT else R.COMP_TONE_EFF
  else
   bif Nat.blt n 208 then
    bif Nat.blt n 173 then
     bif Nat.blt n 156 then
      bif Nat.blt n 147 then
       bif Nat.blt n 143 then
        bif Nat.blt n 141 then
         bif Nat.blt n 140 then R.COMP_PANEL_RANGE else R.COMP_SAFE_STAT
        else
         bif Nat.blt n 142 then R.COMP_OVLY_CFG else R.COMP_OVLY_STAT
       else
        bif Nat.blt n 145 then
         bif Nat.blt n 144 then R.COMP_BUF_FMT else R.COMP_BUF_STAT
        else
         bif Nat.blt n 146 then R.COMP_BUF_RELEASE_SEQ else R.COMP_BUF_GUARD
      else
       bif Nat.blt n 151 then
        bif Nat.blt n 149 then
         bif Nat.blt n 148 then R.COMP_IRQ_STATUS else R.COMP_SIG_MISMATCH
        else
         bif Nat.blt n 150 then R.COMP_SIG_CFG else R.COMP_SIG_RECT_XY
       else
        bif Nat.blt n 153 then
         bif Nat.blt n 152 then R.COMP_SIG_RECT_WH else R.COMP_SIG_EXPECT
        else
         bif Nat.blt n 154 then
          R.COMP_SIG_LAST
         else
          bif Nat.blt n 155 then R.COMP_SIG_STAT else R.BLT_CUE
     else
      bif Nat.blt n 164 then
       bif Nat.blt n 160 then
        bif Nat.blt n 158 then
         bif Nat.blt n 157 then R.BLT_RING_HEAD else R.BLT_RING_TAIL
        else
         bif Nat.blt n 159 then R.BLT_RING_STAT else R.BLT_DONE_COUNT
       else
        bif Nat.blt n 162 then
         bif Nat.blt n 161 then R.BLT_LAST_ERR else R.BLT_WM_CFG
        else
         bif Nat.blt n 163 then R.BLT_WM_STAT else R.BLT_IRQ_STATUS
      else
       bif Nat.blt n 168 then
        bif Nat.blt n 166 then
         bif Nat.blt n 165 then R.PSEQ_VTIME2 else R.PSEQ_ANCHOR
        else
         bif Nat.blt n 167 then R.PSEQ_STAT else R.PSEQ_SF
       else
        bif Nat.blt n 170 then
         bif Nat.blt n 169 then R.PSEQ_TEMP else R.PSEQ_EVENTS
        else
         bif Nat.blt n 171 then
          R.PSEQ_PATTERN
         else
          bif Nat.blt n 172 then R.PSEQ_UNIF else R.PSEQ_UNIF_STAT
    else
     bif Nat.blt n 190 then
      bif Nat.blt n 181 then
       bif Nat.blt n 177 then
        bif Nat.blt n 175 then
         bif Nat.blt n 174 then R.PSEQ_UNIF_BYTES else R.PSEQ_RECT_STAT
        else
         bif Nat.blt n 176 then R.PSEQ_RECT_VOID else R.PSEQ_MODE
       else
        bif Nat.blt n 179 then
         bif Nat.blt n 178 then R.PSEQ_VCOM else R.PSEQ_BAND
        else
         bif Nat.blt n 180 then R.PSEQ_PANEL_SIZE else R.PSEQ_PANEL_CAP
      else
       bif Nat.blt n 185 then
        bif Nat.blt n 183 then
         bif Nat.blt n 182 then R.PSEQ_PANEL_SERIAL else R.PSEQ_IRQ_STATUS
        else
         bif Nat.blt n 184 then R.PSEQ_OD else R.PSEQ_LENSWAVE
       else
        bif Nat.blt n 187 then
         bif Nat.blt n 186 then R.RAIL_STAT else R.RAIL_FAULT
        else
         bif Nat.blt n 188 then
          R.RAIL_FAULT_INFO
         else
          bif Nat.blt n 189 then R.RAIL_CH_MEAS else R.RAIL_CH_PEAK
     else
      bif Nat.blt n 199 then
       bif Nat.blt n 194 then
        bif Nat.blt n 192 then
         bif Nat.blt n 191 then R.RAIL_CH_FAULTS else R.RAIL_VCOM
        else
         bif Nat.blt n 193 then R.RAIL_CRACK_MEAS else R.RAIL_CRACK_STAT
       else
        bif Nat.blt n 196 then
         bif Nat.blt n 195 then R.RAIL_CRACK_EVENTS else R.RAIL_IRQ_STATUS
        else
         bif Nat.blt n 197 then
          R.LANE_STAT
         else
          bif Nat.blt n 198 then R.LANE_EQ_EFF else R.LANE_EYE
      else
       bif Nat.blt n 203 then
        bif Nat.blt n 201 then
         bif Nat.blt n 200 then R.LANE_HDR_ERR else R.LANE_PRBS_BITS
        else
         bif Nat.blt n 202 then R.LANE_PRBS_ERR else R.LANE_LOOP
       else
        bif Nat.blt n 205 then
         bif Nat.blt n 204 then R.LANE_GRP_STAT else R.LANE_GRP_COUNT
        else
         bif Nat.blt n 206 then
          R.LANE_GRP_EVENT
         else
          bif Nat.blt n 207 then R.LANE_IRQ_STATUS else R.LANE_PANEL
   else
    bif Nat.blt n 243 then
     bif Nat.blt n 225 then
      bif Nat.blt n 216 then
       bif Nat.blt n 212 then
        bif Nat.blt n 210 then
         bif Nat.blt n 209 then R.MEM_C_STAT else R.MEM_C_ECC
        else
         bif Nat.blt n 211 then R.MEM_C_FRZ_INFO else R.MEM_C_FRZ_ADDR
       else
        bif Nat.blt n 214 then
         bif Nat.blt n 213 then R.MEM_C_FRZ_ROW else R.MEM_C_HIST
        else
         bif Nat.blt n 215 then R.MEM_C_BW else R.MEM_CH_STAT
      else
       bif Nat.blt n 220 then
        bif Nat.blt n 218 then
         bif Nat.blt n 217 then R.MEM_CH_EYE else R.MEM_CH_REFRESH
        else
         bif Nat.blt n 219 then R.MEM_CH_RH else R.MEM_CH_RH_LAST
       else
        bif Nat.blt n 222 then
         bif Nat.blt n 221 then R.MEM_MAP else R.MEM_SIZE
        else
         bif Nat.blt n 223 then
          R.MEM_HOST
         else
          bif Nat.blt n 224 then R.MEM_FREE else R.MEM_FREQ
     else
      bif Nat.blt n 234 then
       bif Nat.blt n 229 then
        bif Nat.blt n 227 then
         bif Nat.blt n 226 then R.MEM_IRQ_STATUS else R.MEM_REGION_BASE
        else
         bif Nat.blt n 228 then R.MEM_REGION_LIMIT else R.MEM_REGION_ATTR
       else
        bif Nat.blt n 231 then
         bif Nat.blt n 230 then R.PAIR_STAT else R.PAIR_FIT
        else
         bif Nat.blt n 232 then
          R.PAIR_PEER
         else
          bif Nat.blt n 233 then R.PAIR_COUNT else R.PAIR_LAST
      else
       bif Nat.blt n 238 then
        bif Nat.blt n 236 then
         bif Nat.blt n 235 then R.PAIR_DIV else R.PAIR_EXCUSED
        else
         bif Nat.blt n 237 then R.PAIR_DROP else R.PAIR_DROP_ADDR
       else
        bif Nat.blt n 240 then
         bif Nat.blt n 239 then R.PAIR_LINK else R.PAIR_IRQ_STATUS
        else
         bif Nat.blt n 241 then
          R.ARRAY_PORT_NBR
         else
          bif Nat.blt n 242 then R.ARRAY_PORT_XCHK else R.ARRAY_PORT_DELAY
    else
     bif Nat.blt n 260 then
      bif Nat.blt n 251 then
       bif Nat.blt n 247 then
        bif Nat.blt n 245 then
         bif Nat.blt n 244 then R.ARRAY_PORT_COUNT else R.ARRAY_IRQ_STATUS
        else
         bif Nat.blt n 246 then R.HOST_LINK else R.HOST_BAR2_BASE
       else
        bif Nat.blt n 249 then
         bif Nat.blt n 248 then R.HOST_BAR2_ERR else R.HOST_BAR2_LAST
        else
         bif Nat.blt n 250 then R.HOST_RESETS else R.HOST_IRQ_STATUS
      else
       bif Nat.blt n 255 then
        bif Nat.blt n 253 then
         bif Nat.blt n 252 then R.HOST_IRQ_MASK else R.HOST_MSIX_ADDR
        else
         bif Nat.blt n 254 then R.HOST_MSIX_DATA else R.HOST_MSIX_CTRL
       else
        bif Nat.blt n 257 then
         bif Nat.blt n 256 then R.HOST_MSIX_PBA else R.ETH_CAGE_CTRL
        else
         bif Nat.blt n 258 then
          R.ETH_CAGE_STAT
         else
          bif Nat.blt n 259 then R.ETH_PORT_MAC else R.ETH_PORT_STAT
     else
      bif Nat.blt n 269 then
       bif Nat.blt n 264 then
        bif Nat.blt n 262 then
         bif Nat.blt n 261 then R.ETH_PORT_RX else R.ETH_PORT_ERR
        else
         bif Nat.blt n 263 then R.ETH_IRQ_STATUS else R.DPRX_STAT
       else
        bif Nat.blt n 266 then
         bif Nat.blt n 265 then R.DPRX_SIZE else R.DPRX_FMT
        else
         bif Nat.blt n 267 then
          R.DPRX_ERR
         else
          bif Nat.blt n 268 then R.DPRX_IRQ_STATUS else R.DPTX_STAT
      else
       bif Nat.blt n 273 then
        bif Nat.blt n 271 then
         bif Nat.blt n 270 then R.DPTX_EDID else R.PREV_STAT
        else
         bif Nat.blt n 272 then R.PREV_FRAME else R.TEPH_FREEZE_AT
       else
        bif Nat.blt n 275 then
         bif Nat.blt n 274 then R.TEPH_STAT else R.TEPH_HEAD
        else
         bif Nat.blt n 276 then
          R.TEPH_LOST
         else
          bif Nat.blt n 277 then R.TEPH_MIRROR else R.TEPH_IRQ_STATUS

/-- The number of a field's register. -/
def Area.idx (f : Fld) : Nat :=
  bif Nat.blt f.base 0x30010C then
   bif Nat.blt f.base 0x100020 then
    bif Nat.blt f.base 0x40300 then
     bif Nat.blt f.base 0x20700 then
      bif Nat.blt f.base 0x1000C then
       bif Nat.blt f.base 0x38 then
        bif Nat.blt f.base 0x30 then
         bif Nat.blt f.base 0x1C then 0 else 1
        else
         bif Nat.blt f.base 0x34 then 2 else 3
       else
        bif Nat.blt f.base 0x10000 then
         bif Nat.blt f.base 0x40 then 4 else 5
        else
         bif Nat.blt f.base 0x10008 then 6 else 7
      else
       bif Nat.blt f.base 0x20404 then
        bif Nat.blt f.base 0x20100 then
         bif Nat.blt f.base 0x20000 then 8 else 9
        else
         bif Nat.blt f.base 0x20104 then 10 else 11
       else
        bif Nat.blt f.base 0x20540 then
         bif Nat.blt f.base 0x20520 then 12 else 13
        else
         bif Nat.blt f.base 0x20600 then
          14
         else
          bif Nat.blt f.base 0x20680 then 15 else 16
     else
      bif Nat.blt f.base 0x30060 then
       bif Nat.blt f.base 0x30018 then
        bif Nat.blt f.base 0x30008 then
         bif Nat.blt f.base 0x30000 then 17 else 18
        else
         bif Nat.blt f.base 0x30010 then 19 else 20
       else
        bif Nat.blt f.base 0x30028 then
         bif Nat.blt f.base 0x30020 then 21 else 22
        else
         bif Nat.blt f.base 0x30030 then 23 else 24
      else
       bif Nat.blt f.base 0x4000C then
        bif Nat.blt f.base 0x30080 then
         bif Nat.blt f.base 0x30064 then 25 else 26
        else
         bif Nat.blt f.base 0x30100 then 27 else 28
       else
        bif Nat.blt f.base 0x40018 then
         bif Nat.blt f.base 0x40014 then 29 else 30
        else
         bif Nat.blt f.base 0x4001C then
          31
         else
          bif Nat.blt f.base 0x40100 then 32 else 33
    else
     bif Nat.blt f.base 0x8001C then
      bif Nat.blt f.base 0x60068 then
       bif Nat.blt f.base 0x50014 then
        bif Nat.blt f.base 0x50004 then
         bif Nat.blt f.base 0x40600 then 34 else 35
        else
         bif Nat.blt f.base 0x50010 then 36 else 37
       else
        bif Nat.blt f.base 0x60004 then
         bif Nat.blt f.base 0x50100 then 38 else 39
        else
         bif Nat.blt f.base 0x60064 then 40 else 41
      else
       bif Nat.blt f.base 0x60110 then
        bif Nat.blt f.base 0x60088 then
         bif Nat.blt f.base 0x60070 then 42 else 43
        else
         bif Nat.blt f.base 0x60108 then 44 else 45
       else
        bif Nat.blt f.base 0x80004 then
         bif Nat.blt f.base 0x60200 then 46 else 47
        else
         bif Nat.blt f.base 0x80014 then
          48
         else
          bif Nat.blt f.base 0x80018 then 49 else 50
     else
      bif Nat.blt f.base 0x81028 then
       bif Nat.blt f.base 0x81008 then
        bif Nat.blt f.base 0x80400 then
         bif Nat.blt f.base 0x80020 then 51 else 52
        else
         bif Nat.blt f.base 0x81000 then 53 else 54
       else
        bif Nat.blt f.base 0x81014 then
         bif Nat.blt f.base 0x81010 then 55 else 56
        else
         bif Nat.blt f.base 0x81018 then
          57
         else
          bif Nat.blt f.base 0x81020 then 58 else 59
      else
       bif Nat.blt f.base 0x100008 then
        bif Nat.blt f.base 0x100000 then
         bif Nat.blt f.base 0x81030 then 60 else 61
        else
         bif Nat.blt f.base 0x100004 then 62 else 63
       else
        bif Nat.blt f.base 0x100010 then
         bif Nat.blt f.base 0x10000C then 64 else 65
        else
         bif Nat.blt f.base 0x100014 then
          66
         else
          bif Nat.blt f.base 0x100018 then 67 else 68
   else
    bif Nat.blt f.base 0x240110 then
     bif Nat.blt f.base 0x200040 then
      bif Nat.blt f.base 0x1F0100 then
       bif Nat.blt f.base 0x1F0008 then
        bif Nat.blt f.base 0x100028 then
         bif Nat.blt f.base 0x100024 then 69 else 70
        else
         bif Nat.blt f.base 0x100034 then 71 else 72
       else
        bif Nat.blt f.base 0x1F0014 then
         bif Nat.blt f.base 0x1F0010 then 73 else 74
        else
         bif Nat.blt f.base 0x1F0020 then 75 else 76
      else
       bif Nat.blt f.base 0x200004 then
        bif Nat.blt f.base 0x1F0108 then
         bif Nat.blt f.base 0x1F0104 then 77 else 78
        else
         bif Nat.blt f.base 0x200000 then 79 else 80
       else
        bif Nat.blt f.base 0x20000C then
         bif Nat.blt f.base 0x200008 then 81 else 82
        else
         bif Nat.blt f.base 0x200010 then
          83
         else
          bif Nat.blt f.base 0x200020 then 84 else 85
     else
      bif Nat.blt f.base 0x201004 then
       bif Nat.blt f.base 0x200108 then
        bif Nat.blt f.base 0x200084 then
         bif Nat.blt f.base 0x200080 then 86 else 87
        else
         bif Nat.blt f.base 0x200100 then 88 else 89
       else
        bif Nat.blt f.base 0x200110 then
         bif Nat.blt f.base 0x20010C then 90 else 91
        else
         bif Nat.blt f.base 0x200200 then
          92
         else
          bif Nat.blt f.base 0x201000 then 93 else 94
      else
       bif Nat.blt f.base 0x201014 then
        bif Nat.blt f.base 0x20100C then
         bif Nat.blt f.base 0x201008 then 95 else 96
        else
         bif Nat.blt f.base 0x201010 then 97 else 98
       else
        bif Nat.blt f.base 0x240004 then
         bif Nat.blt f.base 0x240000 then 99 else 100
        else
         bif Nat.blt f.base 0x240024 then
          101
         else
          bif Nat.blt f.base 0x24010C then 102 else 103
    else
     bif Nat.blt f.base 0x2C0210 then
      bif Nat.blt f.base 0x280010 then
       bif Nat.blt f.base 0x241000 then
        bif Nat.blt f.base 0x240200 then
         bif Nat.blt f.base 0x240114 then 104 else 105
        else
         bif Nat.blt f.base 0x240300 then 106 else 107
       else
        bif Nat.blt f.base 0x280008 then
         bif Nat.blt f.base 0x241010 then 108 else 109
        else
         bif Nat.blt f.base 0x28000C then 110 else 111
      else
       bif Nat.blt f.base 0x2C0110 then
        bif Nat.blt f.base 0x28F000 then
         bif Nat.blt f.base 0x280018 then 112 else 113
        else
         bif Nat.blt f.base 0x2C010C then 114 else 115
       else
        bif Nat.blt f.base 0x2C0200 then
         bif Nat.blt f.base 0x2C0114 then 116 else 117
        else
         bif Nat.blt f.base 0x2C0204 then
          118
         else
          bif Nat.blt f.base 0x2C0208 then 119 else 120
     else
      bif Nat.blt f.base 0x300014 then
       bif Nat.blt f.base 0x2C1010 then
        bif Nat.blt f.base 0x2C1000 then
         bif Nat.blt f.base 0x2C0300 then 121 else 122
        else
         bif Nat.blt f.base 0x2C1008 then 123 else 124
       else
        bif Nat.blt f.base 0x300008 then
         bif Nat.blt f.base 0x2C1018 then 125 else 126
        else
         bif Nat.blt f.base 0x30000C then
          127
         else
          bif Nat.blt f.base 0x300010 then 128 else 129
      else
       bif Nat.blt f.base 0x300044 then
        bif Nat.blt f.base 0x300024 then
         bif Nat.blt f.base 0x300020 then 130 else 131
        else
         bif Nat.blt f.base 0x300040 then 132 else 133
       else
        bif Nat.blt f.base 0x30004C then
         bif Nat.blt f.base 0x300048 then 134 else 135
        else
         bif Nat.blt f.base 0x300050 then
          136
         else
          bif Nat.blt f.base 0x300108 then 137 else 138
  else
   bif Nat.blt f.base 0x480000 then
    bif Nat.blt f.base 0x380068 then
     bif Nat.blt f.base 0x34010C then
      bif Nat.blt f.base 0x300600 then
       bif Nat.blt f.base 0x300410 then
        bif Nat.blt f.base 0x300300 then
         bif Nat.blt f.base 0x300208 then 139 else 140
        else
         bif Nat.blt f.base 0x300308 then 141 else 142
       else
        bif Nat.blt f.base 0x300418 then
         bif Nat.blt f.base 0x300414 then 143 else 144
        else
         bif Nat.blt f.base 0x30041C then 145 else 146
      else
       bif Nat.blt f.base 0x303008 then
        bif Nat.blt f.base 0x303000 then
         bif Nat.blt f.base 0x300608 then 147 else 148
        else
         bif Nat.blt f.base 0x303004 then 149 else 150
       else
        bif Nat.blt f.base 0x303010 then
         bif Nat.blt f.base 0x30300C then 151 else 152
        else
         bif Nat.blt f.base 0x303014 then
          153
         else
          bif Nat.blt f.base 0x34000C then 154 else 155
     else
      bif Nat.blt f.base 0x380014 then
       bif Nat.blt f.base 0x340204 then
        bif Nat.blt f.base 0x340114 then
         bif Nat.blt f.base 0x340110 then 156 else 157
        else
         bif Nat.blt f.base 0x340200 then 158 else 159
       else
        bif Nat.blt f.base 0x340304 then
         bif Nat.blt f.base 0x340300 then 160 else 161
        else
         bif Nat.blt f.base 0x340400 then 162 else 163
      else
       bif Nat.blt f.base 0x380040 then
        bif Nat.blt f.base 0x380030 then
         bif Nat.blt f.base 0x380020 then 164 else 165
        else
         bif Nat.blt f.base 0x380038 then 166 else 167
       else
        bif Nat.blt f.base 0x380050 then
         bif Nat.blt f.base 0x380044 then 168 else 169
        else
         bif Nat.blt f.base 0x380060 then
          170
         else
          bif Nat.blt f.base 0x380064 then 171 else 172
    else
     bif Nat.blt f.base 0x3C0108 then
      bif Nat.blt f.base 0x380508 then
       bif Nat.blt f.base 0x380210 then
        bif Nat.blt f.base 0x380080 then
         bif Nat.blt f.base 0x38007C then 173 else 174
        else
         bif Nat.blt f.base 0x380100 then 175 else 176
       else
        bif Nat.blt f.base 0x380500 then
         bif Nat.blt f.base 0x380400 then 177 else 178
        else
         bif Nat.blt f.base 0x380504 then 179 else 180
      else
       bif Nat.blt f.base 0x3C0004 then
        bif Nat.blt f.base 0x384000 then
         bif Nat.blt f.base 0x380600 then 181 else 182
        else
         bif Nat.blt f.base 0x38C000 then 183 else 184
       else
        bif Nat.blt f.base 0x3C0014 then
         bif Nat.blt f.base 0x3C0010 then 185 else 186
        else
         bif Nat.blt f.base 0x3C0100 then
          187
         else
          bif Nat.blt f.base 0x3C0104 then 188 else 189
     else
      bif Nat.blt f.base 0x400018 then
       bif Nat.blt f.base 0x3C0318 then
        bif Nat.blt f.base 0x3C0310 then
         bif Nat.blt f.base 0x3C0200 then 190 else 191
        else
         bif Nat.blt f.base 0x3C0314 then 192 else 193
       else
        bif Nat.blt f.base 0x400004 then
         bif Nat.blt f.base 0x3C0400 then 194 else 195
        else
         bif Nat.blt f.base 0x400010 then
          196
         else
          bif Nat.blt f.base 0x400014 then 197 else 198
      else
       bif Nat.blt f.base 0x400108 then
        bif Nat.blt f.base 0x400028 then
         bif Nat.blt f.base 0x400020 then 199 else 200
        else
         bif Nat.blt f.base 0x400030 then 201 else 202
       else
        bif Nat.blt f.base 0x400110 then
         bif Nat.blt f.base 0x40010C then 203 else 204
        else
         bif Nat.blt f.base 0x400300 then
          205
         else
          bif Nat.blt f.base 0x40030C then 206 else 207
   else
    bif Nat.blt f.base 0x54010C then
     bif Nat.blt f.base 0x4F0100 then
      bif Nat.blt f.base 0x481004 then
       bif Nat.blt f.base 0x480018 then
        bif Nat.blt f.base 0x480008 then
         bif Nat.blt f.base 0x480004 then 208 else 209
        else
         bif Nat.blt f.base 0x480010 then 210 else 211
       else
        bif Nat.blt f.base 0x480080 then
         bif Nat.blt f.base 0x480040 then 212 else 213
        else
         bif Nat.blt f.base 0x481000 then 214 else 215
      else
       bif Nat.blt f.base 0x4F0008 then
        bif Nat.blt f.base 0x48100C then
         bif Nat.blt f.base 0x481008 then 216 else 217
        else
         bif Nat.blt f.base 0x481010 then 218 else 219
       else
        bif Nat.blt f.base 0x4F0014 then
         bif Nat.blt f.base 0x4F0010 then 220 else 221
        else
         bif Nat.blt f.base 0x4F0018 then
          222
         else
          bif Nat.blt f.base 0x4F0020 then 223 else 224
     else
      bif Nat.blt f.base 0x500020 then
       bif Nat.blt f.base 0x500000 then
        bif Nat.blt f.base 0x4F1004 then
         bif Nat.blt f.base 0x4F1000 then 225 else 226
        else
         bif Nat.blt f.base 0x4F1008 then 227 else 228
       else
        bif Nat.blt f.base 0x500010 then
         bif Nat.blt f.base 0x50000C then 229 else 230
        else
         bif Nat.blt f.base 0x500018 then
          231
         else
          bif Nat.blt f.base 0x50001C then 232 else 233
      else
       bif Nat.blt f.base 0x500030 then
        bif Nat.blt f.base 0x500028 then
         bif Nat.blt f.base 0x500024 then 234 else 235
        else
         bif Nat.blt f.base 0x50002C then 236 else 237
       else
        bif Nat.blt f.base 0x540100 then
         bif Nat.blt f.base 0x500040 then 238 else 239
        else
         bif Nat.blt f.base 0x540104 then
          240
         else
          bif Nat.blt f.base 0x540108 then 241 else 242
    else
     bif Nat.blt f.base 0x5C1018 then
      bif Nat.blt f.base 0x580044 then
       bif Nat.blt f.base 0x580010 then
        bif Nat.blt f.base 0x580004 then
         bif Nat.blt f.base 0x540200 then 243 else 244
        else
         bif Nat.blt f.base 0x580008 then 245 else 246
       else
        bif Nat.blt f.base 0x580018 then
         bif Nat.blt f.base 0x580014 then 247 else 248
        else
         bif Nat.blt f.base 0x580040 then 249 else 250
      else
       bif Nat.blt f.base 0x582000 then
        bif Nat.blt f.base 0x581008 then
         bif Nat.blt f.base 0x581000 then 251 else 252
        else
         bif Nat.blt f.base 0x58100C then 253 else 254
       else
        bif Nat.blt f.base 0x5C0004 then
         bif Nat.blt f.base 0x5C0000 then 255 else 256
        else
         bif Nat.blt f.base 0x5C1000 then
          257
         else
          bif Nat.blt f.base 0x5C1010 then 258 else 259
     else
      bif Nat.blt f.base 0x610100 then
       bif Nat.blt f.base 0x600008 then
        bif Nat.blt f.base 0x5CF000 then
         bif Nat.blt f.base 0x5C1020 then 260 else 261
        else
         bif Nat.blt f.base 0x600004 then 262 else 263
       else
        bif Nat.blt f.base 0x600010 then
         bif Nat.blt f.base 0x60000C then 264 else 265
        else
         bif Nat.blt f.base 0x600040 then
          266
         else
          bif Nat.blt f.base 0x610004 then 267 else 268
      else
       bif Nat.blt f.base 0x70000C then
        bif Nat.blt f.base 0x620058 then
         bif Nat.blt f.base 0x620050 then 269 else 270
        else
         bif Nat.blt f.base 0x700008 then 271 else 272
       else
        bif Nat.blt f.base 0x700014 then
         bif Nat.blt f.base 0x700010 then 273 else 274
        else
         bif Nat.blt f.base 0x700018 then
          275
         else
          bif Nat.blt f.base 0x700100 then 276 else 277

/-- Whether the words of `f` are among those of `g`. -/
def Area.like (g f : Fld) : Bool :=
  g.base == f.base && g.s1 == f.s1 && g.s2 == f.s2 && g.n1 == f.n1 && g.n2 == f.n2 &&
    (decide (f.lsb + f.width ≤ 32) || decide (32 < g.lsb + g.width))

/-- Whether area `a` lies in area `b`. -/
def Area.sub (a b : Nat) : Bool := Nat.land a b == a

/-- Whether the area holds the register of a field. -/
def Area.fld (m : Nat) (f : Fld) : Bool := m.testBit 30 || (m.testBit (32 + Area.idx f) && Area.like (Area.cls (Area.idx f)) f)

/-- The IRQ_STATUS register of a block. -/
def Area.status : Blk → Fld
  | .ctl => R.CTL_IRQ_STATUS
  | .care => R.CARE_IRQ_STATUS
  | .sec => R.SEC_IRQ_STATUS
  | .thm => R.THM_IRQ_STATUS
  | .cal => R.CAL_IRQ_STATUS
  | .time => R.TIME_IRQ_STATUS
  | .pers => R.PERS_IRQ_STATUS
  | .fab => R.FAB_IRQ_STATUS
  | .view => R.VIEW_IRQ_STATUS
  | .intk => R.INTK_IRQ_STATUS
  | .tdec => R.TDEC_IRQ_STATUS
  | .lzc => R.LZC_IRQ_STATUS
  | .comp => R.COMP_IRQ_STATUS
  | .blt => R.BLT_IRQ_STATUS
  | .pseq => R.PSEQ_IRQ_STATUS
  | .rail => R.RAIL_IRQ_STATUS
  | .lane => R.LANE_IRQ_STATUS
  | .mem => R.MEM_IRQ_STATUS
  | .pair => R.PAIR_IRQ_STATUS
  | .array => R.ARRAY_IRQ_STATUS
  | .host => R.HOST_IRQ_STATUS
  | .eth => R.ETH_IRQ_STATUS
  | .dprx => R.DPRX_IRQ_STATUS
  | .teph => R.TEPH_IRQ_STATUS

/-- Whether the area holds the word at an offset. -/
def Area.word (m : Nat) (k : Nat) : Prop :=
  m.testBit 30 = true ∨ (m.testBit 31 = true ∧ sharedWord k = true) ∨ ∃ n, m.testBit (32 + n) = true ∧ (Area.cls n).covers k

theorem Area.sub_refl (a : Nat) : Area.sub a a = true := beq_iff_eq.mpr (Nat.and_self a)

theorem Area.bit_of_sub {a b : Nat} (h : Area.sub a b = true) (n : Nat) (hn : a.testBit n = true) : b.testBit n = true := by
  have e : Nat.land a b = a := by simpa [Area.sub] using h
  have e : a &&& b = a := e
  rw [← e, Nat.testBit_and] at hn
  simpa using (Bool.and_eq_true _ _ ▸ hn).2

theorem Area.no_bit {a b n : Nat} (h : Area.sub a b = true) (hb : b.testBit n = false) (ha : a.testBit n = true) : False := by
  rw [Area.bit_of_sub h n ha] at hb
  cases hb

theorem Area.sub_trans {a b c : Nat} (h : Area.sub a b = true) (h' : Area.sub b c = true) : Area.sub a c = true := by
  have e : a &&& c = a := by
    apply Nat.eq_of_testBit_eq
    intro n
    rw [Nat.testBit_and]
    cases ha : a.testBit n with
    | false => rfl
    | true => rw [Area.bit_of_sub h' n (Area.bit_of_sub h n ha)]; rfl
  exact beq_iff_eq.mpr e

theorem Area.fld_mono {a b : Nat} {f : Fld} (hf : Area.fld a f = true) (h : Area.sub a b = true) : Area.fld b f = true := by
  simp only [Area.fld, Bool.or_eq_true, Bool.and_eq_true] at hf ⊢
  rcases hf with hf | hf
  · exact .inl (Area.bit_of_sub h _ hf)
  · exact .inr ⟨Area.bit_of_sub h _ hf.1, hf.2⟩

theorem Area.fld_ite {m : Nat} {c : Prop} [Decidable c] {f g : Fld} (h : Area.fld m f = true) (h' : Area.fld m g = true) :
    Area.fld m (if c then f else g) = true := by split <;> assumption

theorem Area.word_any {m k : Nat} (h : m.testBit 30 = true) : Area.word m k := .inl h
theorem Area.word_shared {m k : Nat} (h : m.testBit 31 = true) (h' : sharedWord k = true) : Area.word m k := .inr (.inl ⟨h, h'⟩)

theorem Area.word_of {m : Nat} {f : Fld} {k : Nat} (hf : Area.fld m f = true) (hk : f.covers k) : Area.word m k := by
  simp only [Area.fld, Bool.or_eq_true, Bool.and_eq_true] at hf
  rcases hf with hf | ⟨h1, h2⟩
  · exact .inl hf
  · refine .inr (.inr ⟨_, h1, ?_⟩)
    obtain ⟨i, j, hr, hk⟩ := hk
    simp only [Area.like, Bool.and_eq_true, beq_iff_eq, Bool.or_eq_true, decide_eq_true_eq] at h2
    obtain ⟨⟨⟨⟨⟨e1, e2⟩, e3⟩, e4⟩, e5⟩, e6⟩ := h2
    refine ⟨i, j, ⟨e4 ▸ hr.1, e5 ▸ hr.2⟩, ?_⟩
    simp only [Fld.off, e1, e2, e3]
    rcases hk with hk | ⟨hw, hk⟩
    · exact .inl hk
    · exact .inr ⟨by omega, hk⟩

/-- From `s` to `t`, beside `OtpGrows`: the memories keep their canonical form, the queue is unchanged, and so is everything outside the
area. -/
def Keep (m : Nat) (s t : Machine.State) : Prop :=
  (State.memoriesWf s = true → State.memoriesWf t = true) ∧ t.pending = s.pending ∧ OtpGrows s.otp t.otp ∧
    (m.testBit 29 = false → t.rst.hold = s.rst.hold) ∧ (∀ k, ¬ Area.word m k → t.word k = s.word k) ∧
    (∀ p : Part, m.testBit p.num = false → p.same s t)

theorem OtpGrows.refl (a : OtpState) : OtpGrows a a :=
  ⟨List.prefix_refl _, List.prefix_refl _, fun _ => id, fun _ => id, fun _ => id, Nat.le_refl _⟩

theorem OtpGrows.trans {a b c : OtpState} (h : OtpGrows a b) (h' : OtpGrows b c) : OtpGrows a c :=
  ⟨h.1.trans h'.1, h.2.1.trans h'.2.1, fun n x => h'.2.2.1 n (h.2.2.1 n x), fun n x => h'.2.2.2.1 n (h.2.2.2.1 n x),
    fun n x => h'.2.2.2.2.1 n (h.2.2.2.2.1 n x), Nat.le_trans h.2.2.2.2.2 h'.2.2.2.2.2⟩

theorem OtpGrows.fwRow (a : OtpState) (v : Option Nat) : OtpGrows a { a with fwRows := a.fwRows ++ [v] } :=
  ⟨List.prefix_append _ _, List.prefix_refl _, fun _ => id, fun _ => id, fun _ => id, Nat.le_refl _⟩

theorem OtpGrows.persRow (a : OtpState) (v : Option Nat) : OtpGrows a { a with persRows := a.persRows ++ [v] } :=
  ⟨List.prefix_refl _, List.prefix_append _ _, fun _ => id, fun _ => id, fun _ => id, Nat.le_refl _⟩

theorem setBit_testBit {v k n : Nat} (h : v.testBit n = true) : (Word.setBit v k).testBit n = true := by
  unfold Word.setBit
  rw [Nat.testBit_or, h, Bool.true_or]

theorem Part.same_refl (p : Part) (s : Machine.State) : p.same s s := by cases p <;> rfl

theorem Part.same_trans {p : Part} {s t u : Machine.State} (h : p.same s t) (h' : p.same t u) : p.same s u := by
  cases p <;> exact h'.trans h

variable {m : Nat} {s t u : Machine.State}

theorem Keep.refl (s : Machine.State) : Keep m s s :=
  ⟨id, rfl, OtpGrows.refl _, fun _ => rfl, fun _ _ => rfl, fun p _ => p.same_refl s⟩

theorem Keep.trans (h : Keep m s t) (h' : Keep m t u) : Keep m s u := by
  obtain ⟨a, b, c, d, e, f⟩ := h
  obtain ⟨a', b', c', d', e', f'⟩ := h'
  exact ⟨fun x => a' (a x), b'.trans b, c.trans c', fun x => (d' x).trans (d x), fun k x => (e' k x).trans (e k x),
    fun p x => Part.same_trans (f p x) (f' p x)⟩

/-- `Keep` for the outcome of a meaning, for an optional state, for a unit read with a state, and for a state with a second result. -/
def KeepO (m : Nat) (s : Machine.State) (x : Out) : Prop := ∀ u, x = .next u → Keep m s u
def KeepSome (m : Nat) (s : Machine.State) (x : Option Machine.State) : Prop := ∀ u, x = some u → Keep m s u
def KeepFst {β : Type} (m : Nat) (s : Machine.State) (x : Machine.State × β) : Prop := Keep m s x.1
def KeepUnit (m : Nat) (s : Machine.State) (x : Option (VssUnit × Machine.State)) : Prop := ∀ v u, x = some (v, u) → Keep m s u

theorem KeepO.next (h : Keep m s t) : KeepO m s (.next t) := fun u e => by cases e; exact h
theorem KeepO.ite {c : Prop} [Decidable c] {x y : Out} (h : KeepO m s x) (h' : KeepO m s y) :
    KeepO m s (if c then x else y) := by split <;> assumption
theorem KeepSome.some (h : Keep m s t) : KeepSome m s (some t) := fun u e => by cases e; exact h
theorem KeepSome.none : KeepSome m s none := fun u e => by cases e
theorem KeepSome.ite {c : Prop} [Decidable c] {x y : Option Machine.State} (h : KeepSome m s x)
    (h' : KeepSome m s y) : KeepSome m s (if c then x else y) := by split <;> assumption
theorem KeepSome.of_eq {x : Option Machine.State} (h : KeepSome m s x) (e : x = Option.some t) : Keep m s t := h t e
theorem KeepSome.getD {x : Option Machine.State} (h : KeepSome m s x) (h' : Keep m s t) :
    Keep m s (x.getD t) := by
  cases x with
  | none => exact h'
  | some u => exact h u rfl
theorem KeepUnit.some {v : VssUnit} (h : Keep m s t) : KeepUnit m s (some (v, t)) :=
  fun v u e => by cases e; exact h
theorem KeepUnit.none : KeepUnit m s none := fun v u e => by cases e
theorem KeepUnit.ite {c : Prop} [Decidable c] {x y : Option (VssUnit × Machine.State)} (h : KeepUnit m s x)
    (h' : KeepUnit m s y) : KeepUnit m s (if c then x else y) := by split <;> assumption
theorem KeepUnit.of_eq {v : VssUnit} {x : Option (VssUnit × Machine.State)} (h : KeepUnit m s x)
    (e : x = Option.some (v, t)) : Keep m s t := h v t e
theorem KeepUnit.cut {G : Prop} (x : Option (VssUnit × Machine.State)) (h1 : KeepUnit m s x)
    (h2 : KeepUnit m s x → G) : G := h2 h1
theorem KeepFst.mk {β : Type} {b : β} (h : Keep m s t) : KeepFst m s (t, b) := h
theorem KeepFst.ite {β : Type} {c : Prop} [Decidable c] {x y : Machine.State × β} (h : KeepFst m s x)
    (h' : KeepFst m s y) : KeepFst m s (if c then x else y) := by split <;> assumption
theorem KeepFst.of_eq {β : Type} {b : β} {x : Machine.State × β} (h : KeepFst m s x) (e : x = (t, b)) :
    Keep m s t := by subst e; exact h
theorem KeepFst.fst {β : Type} {x : Machine.State × β} (h : KeepFst m s x) : Keep m s x.1 := h
theorem KeepFst.cut {β : Type} {G : Prop} (x : Machine.State × β) (h1 : KeepFst m s x)
    (h2 : Keep m s x.1 → G) : G := h2 h1
/-- One value at a time: what is shown of it serves every later use. -/
theorem Keep.cut (x : Machine.State) (h1 : Keep m s x) (h2 : Keep m s x → Keep m s u) :
    Keep m s u := h2 h1
theorem KeepO.cut {y : Out} (x : Machine.State) (h1 : Keep m s x) (h2 : Keep m s x → KeepO m s y) :
    KeepO m s y := h2 h1
theorem KeepFst.cut1 {β : Type} {y : Machine.State × β} (x : Machine.State) (h1 : Keep m s x)
    (h2 : Keep m s x → KeepFst m s y) : KeepFst m s y := h2 h1
theorem KeepSome.cut1 {y : Option Machine.State} (x : Machine.State) (h1 : Keep m s x)
    (h2 : Keep m s x → KeepSome m s y) : KeepSome m s y := h2 h1
theorem KeepUnit.cut1 {y : Option (VssUnit × Machine.State)} (x : Machine.State) (h1 : Keep m s x)
    (h2 : Keep m s x → KeepUnit m s y) : KeepUnit m s y := h2 h1

theorem KeepFst.foldl {α β : Type} {l : List α} {f : Machine.State × β → α → Machine.State × β} {p : Machine.State × β}
    (hf : ∀ t' x, KeepFst m s t' → KeepFst m s (f t' x)) (h : KeepFst m s p) :
    KeepFst m s (l.foldl f p) := by
  induction l generalizing p with
  | nil => exact h
  | cons a l ih => exact ih (hf p a h)

theorem Keep.ite {c : Prop} [Decidable c] (h : Keep m s t) (h' : Keep m s u) :
    Keep m s (if c then t else u) := by split <;> assumption

theorem Keep.foldl {α : Type} {l : List α} {f : Machine.State → α → Machine.State}
    (hf : ∀ t' x, Keep m s t' → Keep m s (f t' x)) (h : Keep m s t) :
    Keep m s (l.foldl f t) := by
  induction l generalizing t with
  | nil => exact h
  | cons a l ih => exact ih (hf t a h)

theorem Keep.foldr {α : Type} {l : List α} {f : α → Machine.State → Machine.State}
    (hf : ∀ x t', Keep m s t' → Keep m s (f x t')) (h : Keep m s t) :
    Keep m s (l.foldr f t) := by
  induction l with
  | nil => exact h
  | cons a l ih => exact hf a _ ih

theorem Keep.setWord {off : Nat} {w : Word} (hw : Area.word m off) (h : Keep m s t) : Keep m s (t.setWord off w) := by
  refine h.trans ⟨fun a => ?_, rfl, OtpGrows.refl _, fun _ => rfl, fun k hk => ?_, fun p _ => by cases p <;> rfl⟩
  · simp only [State.memoriesWf, Bool.and_eq_true] at a ⊢
    exact ⟨⟨Sparse.set_wf _ _ _ a.1.1, a.1.2⟩, a.2⟩
  · exact State.word_setWord_ne _ _ (fun e => hk (e ▸ hw))

theorem Keep.setBase {f : Fld} {w : Word} (hf : Area.fld m f = true) (hr : 0 < f.n1 ∧ 0 < f.n2) (h : Keep m s t) :
    Keep m s (t.setWord f.base w) :=
  h.setWord (Area.word_of hf ⟨0, 0, hr, .inl (by simp [Fld.off])⟩)

theorem Keep.setWords {l : List Nat} {g : Nat → Word} (hw : ∀ o ∈ l, Area.word m o) (h : Keep m s t) :
    Keep m s (l.foldl (fun t o => t.setWord o (g o)) t) := by
  induction l generalizing t with
  | nil => exact h
  | cons o l ih => exact ih (fun k hk => hw k (List.mem_cons_of_mem _ hk)) (h.setWord (hw o List.mem_cons_self))

theorem Keep.setStagedWord {off : Nat} {w : Word} (hb : Area.sub 1 m = true) (h : Keep m s t) : Keep m s (t.setStagedWord off w) := by
  refine h.trans ⟨fun a => ?_, rfl, OtpGrows.refl _, fun _ => rfl, fun _ _ => rfl, fun p b => ?_⟩
  · simp only [State.memoriesWf, Bool.and_eq_true] at a ⊢
    exact ⟨⟨a.1.1, Sparse.set_wf _ _ _ a.1.2⟩, a.2⟩
  · cases p <;> first | rfl | exact (Area.no_bit hb b (by decide)).elim

theorem Keep.writeByte {a : Nat} {b : Byte} (hb : Area.sub 0x400000 m = true) (h : Keep m s t) : Keep m s (t.writeByte a b) := by
  refine h.trans ⟨fun a => ?_, rfl, OtpGrows.refl _, fun _ => rfl, fun _ _ => rfl, fun p b => ?_⟩
  · simp only [State.memoriesWf, Bool.and_eq_true] at a ⊢
    exact ⟨a.1, Sparse.set_wf _ _ _ a.2⟩
  · cases p <;> first | rfl | exact (Area.no_bit hb b (by decide)).elim

theorem Keep.put {f : Fld} {v i j : Nat} (hf : Area.fld m f = true) (h : Keep m s t) : Keep m s (t.put f v i j) := by
  unfold Machine.State.put
  split
  · rename_i hr
    have h1 : Area.word m (f.off i j) := Area.word_of hf ⟨i, j, hr, .inl rfl⟩
    split
    · exact h.setWord h1
    · exact (h.setWord h1).setWord (Area.word_of hf ⟨i, j, hr, .inr ⟨by omega, rfl⟩⟩)
  · exact h

theorem Keep.putStaged {f : Fld} {v i j : Nat} (hb : Area.sub 1 m = true) (h : Keep m s t) : Keep m s (t.putStaged f v i j) := by
  refine h.trans ⟨fun a => ?_, rfl, OtpGrows.refl _, fun _ => rfl, fun _ _ => rfl, fun p b => ?_⟩
  · have hk : Keep (2 ^ 30) ({ t with regs := t.staged } : Machine.State) (({ t with regs := t.staged } : Machine.State).put f v i j) :=
      Keep.put (by simp only [Area.fld, Nat.testBit_two_pow_self, Bool.true_or]) (Keep.refl _)
    have h1 := hk.1
    simp only [State.memoriesWf, Bool.and_eq_true] at a h1 ⊢
    exact ⟨⟨a.1.1, (h1 ⟨⟨a.1.2, a.1.2⟩, a.2⟩).1.1⟩, a.2⟩
  · cases p <;> first | rfl | exact (Area.no_bit hb b (by decide)).elim

theorem Keep.putB {f : Fld} {b : Bool} {i j : Nat} (hf : Area.fld m f = true) (h : Keep m s t) : Keep m s (t.putB f b i j) := h.put hf
theorem Keep.putI {f : Fld} {z : Int} {i j : Nat} (hf : Area.fld m f = true) (h : Keep m s t) : Keep m s (t.putI f z i j) := h.put hf
theorem Keep.bumpBy {f : Fld} {n i j : Nat} (hf : Area.fld m f = true) (h : Keep m s t) : Keep m s (t.bumpBy f n i j) := h.put hf
theorem Keep.bump {f : Fld} {i j : Nat} (hf : Area.fld m f = true) (h : Keep m s t) : Keep m s (t.bump f i j) := h.put hf
theorem Keep.count {f : Fld} {n i j : Nat} (hf : Area.fld m f = true) (h : Keep m s t) : Keep m s (t.count f n i j) := h.put hf

theorem Keep.rec_array {xarray} (hb : Area.sub 0x1000000 m = true) (k : Keep m s t) :
    Keep m s ({ t with array := xarray } : Machine.State) := by
  refine k.trans ⟨id, rfl, OtpGrows.refl _, fun _ => rfl, fun _ _ => rfl, fun p b => ?_⟩
  cases p <;> first | rfl | exact (Area.no_bit hb b (by decide)).elim

theorem Keep.rec_blt {xblt} (hb : Area.sub 0x200000 m = true) (k : Keep m s t) :
    Keep m s ({ t with blt := xblt } : Machine.State) := by
  refine k.trans ⟨id, rfl, OtpGrows.refl _, fun _ => rfl, fun _ _ => rfl, fun p b => ?_⟩
  cases p <;> first | rfl | exact (Area.no_bit hb b (by decide)).elim

theorem Keep.rec_bus {xbus} (hb : Area.sub 0x4 m = true) (k : Keep m s t) :
    Keep m s ({ t with bus := xbus } : Machine.State) := by
  refine k.trans ⟨id, rfl, OtpGrows.refl _, fun _ => rfl, fun _ _ => rfl, fun p b => ?_⟩
  cases p <;> first | rfl | exact (Area.no_bit hb b (by decide)).elim

theorem Keep.rec_care {xcare} (hb : Area.sub 0x4000 m = true) (k : Keep m s t) :
    Keep m s ({ t with care := xcare } : Machine.State) := by
  refine k.trans ⟨id, rfl, OtpGrows.refl _, fun _ => rfl, fun _ _ => rfl, fun p b => ?_⟩
  cases p <;> first | rfl | exact (Area.no_bit hb b (by decide)).elim

theorem Keep.rec_comp {xcomp} (hb : Area.sub 0x20000 m = true) (k : Keep m s t) :
    Keep m s ({ t with comp := xcomp } : Machine.State) := by
  refine k.trans ⟨id, rfl, OtpGrows.refl _, fun _ => rfl, fun _ _ => rfl, fun p b => ?_⟩
  cases p <;> first | rfl | exact (Area.no_bit hb b (by decide)).elim

theorem Keep.rec_dram {xdram} (hb : Area.sub 0x400000 m = true) (e3 : [] = xdram) (k : Keep m s t) :
    Keep m s ({ t with dram := xdram } : Machine.State) := by
  subst e3
  refine k.trans ⟨fun w => ?_, rfl, OtpGrows.refl _, fun _ => rfl, fun _ _ => rfl, fun p b => ?_⟩
  · simp only [State.memoriesWf, Bool.and_eq_true] at w ⊢; exact ⟨w.1, rfl⟩
  · cases p <;> first | rfl | exact (Area.no_bit hb b (by decide)).elim

theorem Keep.rec_fab {xfab} (hb : Area.sub 0x2000 m = true) (k : Keep m s t) :
    Keep m s ({ t with fab := xfab } : Machine.State) := by
  refine k.trans ⟨id, rfl, OtpGrows.refl _, fun _ => rfl, fun _ _ => rfl, fun p b => ?_⟩
  cases p <;> first | rfl | exact (Area.no_bit hb b (by decide)).elim

theorem Keep.rec_freeCtr {xfreeCtr} (hb : Area.sub 0x8000000 m = true) (k : Keep m s t) :
    Keep m s ({ t with freeCtr := xfreeCtr } : Machine.State) := by
  refine k.trans ⟨id, rfl, OtpGrows.refl _, fun _ => rfl, fun _ _ => rfl, fun p b => ?_⟩
  cases p <;> first | rfl | exact (Area.no_bit hb b (by decide)).elim

theorem Keep.rec_host {xhost} (hb : Area.sub 0x2000000 m = true) (k : Keep m s t) :
    Keep m s ({ t with host := xhost } : Machine.State) := by
  refine k.trans ⟨id, rfl, OtpGrows.refl _, fun _ => rfl, fun _ _ => rfl, fun p b => ?_⟩
  cases p <;> first | rfl | exact (Area.no_bit hb b (by decide)).elim

theorem Keep.rec_intk {xintk} (hb : Area.sub 0x80000 m = true) (k : Keep m s t) :
    Keep m s ({ t with intk := xintk } : Machine.State) := by
  refine k.trans ⟨id, rfl, OtpGrows.refl _, fun _ => rfl, fun _ _ => rfl, fun p b => ?_⟩
  cases p <;> first | rfl | exact (Area.no_bit hb b (by decide)).elim

theorem Keep.rec_lane {xlane} (hb : Area.sub 0x400 m = true) (k : Keep m s t) :
    Keep m s ({ t with lane := xlane } : Machine.State) := by
  refine k.trans ⟨id, rfl, OtpGrows.refl _, fun _ => rfl, fun _ _ => rfl, fun p b => ?_⟩
  cases p <;> first | rfl | exact (Area.no_bit hb b (by decide)).elim

theorem Keep.rec_lzc {xlzc} (hb : Area.sub 0x100000 m = true) (k : Keep m s t) :
    Keep m s ({ t with lzc := xlzc } : Machine.State) := by
  refine k.trans ⟨id, rfl, OtpGrows.refl _, fun _ => rfl, fun _ _ => rfl, fun p b => ?_⟩
  cases p <;> first | rfl | exact (Area.no_bit hb b (by decide)).elim

theorem Keep.rec_mem {xmem} (hb : Area.sub 0x800 m = true) (k : Keep m s t) :
    Keep m s ({ t with mem := xmem } : Machine.State) := by
  refine k.trans ⟨id, rfl, OtpGrows.refl _, fun _ => rfl, fun _ _ => rfl, fun p b => ?_⟩
  cases p <;> first | rfl | exact (Area.no_bit hb b (by decide)).elim

theorem Keep.rec_otp {xotp} (hb : Area.sub 0x8000 m = true) (e4 : OtpGrows t.otp xotp) (k : Keep m s t) :
    Keep m s ({ t with otp := xotp } : Machine.State) := by
  refine k.trans ⟨id, rfl, e4, fun _ => rfl, fun _ _ => rfl, fun p b => ?_⟩
  cases p <;> first | rfl | exact (Area.no_bit hb b (by decide)).elim

theorem Keep.rec_out {xout} (hb : Area.sub 0x10000000 m = true) (k : Keep m s t) :
    Keep m s ({ t with out := xout } : Machine.State) := by
  refine k.trans ⟨id, rfl, OtpGrows.refl _, fun _ => rfl, fun _ _ => rfl, fun p b => ?_⟩
  cases p <;> first | rfl | exact (Area.no_bit hb b (by decide)).elim

theorem Keep.rec_pair {xpair} (hb : Area.sub 0x100 m = true) (k : Keep m s t) :
    Keep m s ({ t with pair := xpair } : Machine.State) := by
  refine k.trans ⟨id, rfl, OtpGrows.refl _, fun _ => rfl, fun _ _ => rfl, fun p b => ?_⟩
  cases p <;> first | rfl | exact (Area.no_bit hb b (by decide)).elim

theorem Keep.rec_pers {xpers} (hb : Area.sub 0x1000 m = true) (k : Keep m s t) :
    Keep m s ({ t with pers := xpers } : Machine.State) := by
  refine k.trans ⟨id, rfl, OtpGrows.refl _, fun _ => rfl, fun _ _ => rfl, fun p b => ?_⟩
  cases p <;> first | rfl | exact (Area.no_bit hb b (by decide)).elim

theorem Keep.rec_pins {xpins} (hb : Area.sub 0x10 m = true) (k : Keep m s t) :
    Keep m s ({ t with pins := xpins } : Machine.State) := by
  refine k.trans ⟨id, rfl, OtpGrows.refl _, fun _ => rfl, fun _ _ => rfl, fun p b => ?_⟩
  cases p <;> first | rfl | exact (Area.no_bit hb b (by decide)).elim

theorem Keep.rec_pseq {xpseq} (hb : Area.sub 0x200 m = true) (k : Keep m s t) :
    Keep m s ({ t with pseq := xpseq } : Machine.State) := by
  refine k.trans ⟨id, rfl, OtpGrows.refl _, fun _ => rfl, fun _ _ => rfl, fun p b => ?_⟩
  cases p <;> first | rfl | exact (Area.no_bit hb b (by decide)).elim

theorem Keep.rec_rail {xrail} (hb : Area.sub 0x80 m = true) (k : Keep m s t) :
    Keep m s ({ t with rail := xrail } : Machine.State) := by
  refine k.trans ⟨id, rfl, OtpGrows.refl _, fun _ => rfl, fun _ _ => rfl, fun p b => ?_⟩
  cases p <;> first | rfl | exact (Area.no_bit hb b (by decide)).elim

theorem Keep.rec_rst {xrst} (hb : Area.sub 0x2 m = true) (e : t.rst.hold = xrst.hold) (k : Keep m s t) :
    Keep m s ({ t with rst := xrst } : Machine.State) := by
  refine k.trans ⟨id, rfl, OtpGrows.refl _, fun _ => e.symm, fun _ _ => rfl, fun p b => ?_⟩
  cases p <;> first | rfl | exact (Area.no_bit hb b (by decide)).elim

theorem Keep.rec_rstH {xrst} (hb : Area.sub 0x20000002 m = true) (k : Keep m s t) :
    Keep m s ({ t with rst := xrst } : Machine.State) := by
  refine k.trans ⟨id, rfl, OtpGrows.refl _, fun b => (Area.no_bit hb b (by decide)).elim, fun _ _ => rfl, fun p b => ?_⟩
  cases p <;> first | rfl | exact (Area.no_bit hb b (by decide)).elim

theorem Keep.rec_sec {xsec} (hb : Area.sub 0x4000000 m = true) (k : Keep m s t) :
    Keep m s ({ t with sec := xsec } : Machine.State) := by
  refine k.trans ⟨id, rfl, OtpGrows.refl _, fun _ => rfl, fun _ _ => rfl, fun p b => ?_⟩
  cases p <;> first | rfl | exact (Area.no_bit hb b (by decide)).elim

theorem Keep.rec_strobes {xstrobes} (hb : Area.sub 0x8 m = true) (k : Keep m s t) :
    Keep m s ({ t with strobes := xstrobes } : Machine.State) := by
  refine k.trans ⟨id, rfl, OtpGrows.refl _, fun _ => rfl, fun _ _ => rfl, fun p b => ?_⟩
  cases p <;> first | rfl | exact (Area.no_bit hb b (by decide)).elim

theorem Keep.rec_teph {xteph} (hb : Area.sub 0x20 m = true) (k : Keep m s t) :
    Keep m s ({ t with teph := xteph } : Machine.State) := by
  refine k.trans ⟨id, rfl, OtpGrows.refl _, fun _ => rfl, fun _ _ => rfl, fun p b => ?_⟩
  cases p <;> first | rfl | exact (Area.no_bit hb b (by decide)).elim

theorem Keep.rec_thm {xthm} (hb : Area.sub 0x10000 m = true) (k : Keep m s t) :
    Keep m s ({ t with thm := xthm } : Machine.State) := by
  refine k.trans ⟨id, rfl, OtpGrows.refl _, fun _ => rfl, fun _ _ => rfl, fun p b => ?_⟩
  cases p <;> first | rfl | exact (Area.no_bit hb b (by decide)).elim

theorem Keep.rec_time {xtime} (hb : Area.sub 0x800000 m = true) (k : Keep m s t) :
    Keep m s ({ t with time := xtime } : Machine.State) := by
  refine k.trans ⟨id, rfl, OtpGrows.refl _, fun _ => rfl, fun _ _ => rfl, fun p b => ?_⟩
  cases p <;> first | rfl | exact (Area.no_bit hb b (by decide)).elim

theorem Keep.rec_view {xview} (hb : Area.sub 0x40000 m = true) (k : Keep m s t) :
    Keep m s ({ t with view := xview } : Machine.State) := by
  refine k.trans ⟨id, rfl, OtpGrows.refl _, fun _ => rfl, fun _ _ => rfl, fun p b => ?_⟩
  cases p <;> first | rfl | exact (Area.no_bit hb b (by decide)).elim

theorem Keep.rec_wires {xwires} (hb : Area.sub 0x10000000 m = true) (k : Keep m s t) :
    Keep m s ({ t with wires := xwires } : Machine.State) := by
  refine k.trans ⟨id, rfl, OtpGrows.refl _, fun _ => rfl, fun _ _ => rfl, fun p b => ?_⟩
  cases p <;> first | rfl | exact (Area.no_bit hb b (by decide)).elim

theorem Keep.rec_comp_intk {xcomp} {xintk} (hb : Area.sub 0xa0000 m = true) (k : Keep m s t) :
    Keep m s ({ t with comp := xcomp, intk := xintk } : Machine.State) := by
  refine k.trans ⟨id, rfl, OtpGrows.refl _, fun _ => rfl, fun _ _ => rfl, fun p b => ?_⟩
  cases p <;> first | rfl | exact (Area.no_bit hb b (by decide)).elim

theorem Keep.rec_intk_host {xintk} {xhost} (hb : Area.sub 0x2080000 m = true) (k : Keep m s t) :
    Keep m s ({ t with intk := xintk, host := xhost } : Machine.State) := by
  refine k.trans ⟨id, rfl, OtpGrows.refl _, fun _ => rfl, fun _ _ => rfl, fun p b => ?_⟩
  cases p <;> first | rfl | exact (Area.no_bit hb b (by decide)).elim

theorem Keep.rec_intk_sec {xintk} {xsec} (hb : Area.sub 0x4080000 m = true) (k : Keep m s t) :
    Keep m s ({ t with intk := xintk, sec := xsec } : Machine.State) := by
  refine k.trans ⟨id, rfl, OtpGrows.refl _, fun _ => rfl, fun _ _ => rfl, fun p b => ?_⟩
  cases p <;> first | rfl | exact (Area.no_bit hb b (by decide)).elim

theorem Keep.rec_mem_dram {xmem} {xdram} (hb : Area.sub 0x400800 m = true) (e3 : [] = xdram) (k : Keep m s t) :
    Keep m s ({ t with mem := xmem, dram := xdram } : Machine.State) := by
  subst e3
  refine k.trans ⟨fun w => ?_, rfl, OtpGrows.refl _, fun _ => rfl, fun _ _ => rfl, fun p b => ?_⟩
  · simp only [State.memoriesWf, Bool.and_eq_true] at w ⊢; exact ⟨w.1, rfl⟩
  · cases p <;> first | rfl | exact (Area.no_bit hb b (by decide)).elim

theorem Keep.rec_nv_pseq {xnv} {xpseq} (hb : Area.sub 0x240 m = true) (k : Keep m s t) :
    Keep m s ({ t with nv := xnv, pseq := xpseq } : Machine.State) := by
  refine k.trans ⟨id, rfl, OtpGrows.refl _, fun _ => rfl, fun _ _ => rfl, fun p b => ?_⟩
  cases p <;> first | rfl | exact (Area.no_bit hb b (by decide)).elim

theorem Keep.rec_nv_rail {xnv} {xrail} (hb : Area.sub 0xc0 m = true) (k : Keep m s t) :
    Keep m s ({ t with nv := xnv, rail := xrail } : Machine.State) := by
  refine k.trans ⟨id, rfl, OtpGrows.refl _, fun _ => rfl, fun _ _ => rfl, fun p b => ?_⟩
  cases p <;> first | rfl | exact (Area.no_bit hb b (by decide)).elim

theorem Keep.rec_otp_sec {xotp} {xsec} (hb : Area.sub 0x4008000 m = true) (e4 : OtpGrows t.otp xotp) (k : Keep m s t) :
    Keep m s ({ t with otp := xotp, sec := xsec } : Machine.State) := by
  refine k.trans ⟨id, rfl, e4, fun _ => rfl, fun _ _ => rfl, fun p b => ?_⟩
  cases p <;> first | rfl | exact (Area.no_bit hb b (by decide)).elim

theorem Keep.rec_out_wires {xout} {xwires} (hb : Area.sub 0x10000000 m = true) (k : Keep m s t) :
    Keep m s ({ t with out := xout, wires := xwires } : Machine.State) := by
  refine k.trans ⟨id, rfl, OtpGrows.refl _, fun _ => rfl, fun _ _ => rfl, fun p b => ?_⟩
  cases p <;> first | rfl | exact (Area.no_bit hb b (by decide)).elim

theorem Keep.rec_pair_comp {xpair} {xcomp} (hb : Area.sub 0x20100 m = true) (k : Keep m s t) :
    Keep m s ({ t with pair := xpair, comp := xcomp } : Machine.State) := by
  refine k.trans ⟨id, rfl, OtpGrows.refl _, fun _ => rfl, fun _ _ => rfl, fun p b => ?_⟩
  cases p <;> first | rfl | exact (Area.no_bit hb b (by decide)).elim

theorem Keep.rec_pair_pseq {xpair} {xpseq} (hb : Area.sub 0x300 m = true) (k : Keep m s t) :
    Keep m s ({ t with pair := xpair, pseq := xpseq } : Machine.State) := by
  refine k.trans ⟨id, rfl, OtpGrows.refl _, fun _ => rfl, fun _ _ => rfl, fun p b => ?_⟩
  cases p <;> first | rfl | exact (Area.no_bit hb b (by decide)).elim

theorem Keep.rec_pseq_comp {xpseq} {xcomp} (hb : Area.sub 0x20200 m = true) (k : Keep m s t) :
    Keep m s ({ t with pseq := xpseq, comp := xcomp } : Machine.State) := by
  refine k.trans ⟨id, rfl, OtpGrows.refl _, fun _ => rfl, fun _ _ => rfl, fun p b => ?_⟩
  cases p <;> first | rfl | exact (Area.no_bit hb b (by decide)).elim

theorem Keep.rec_pseq_view {xpseq} {xview} (hb : Area.sub 0x40200 m = true) (k : Keep m s t) :
    Keep m s ({ t with pseq := xpseq, view := xview } : Machine.State) := by
  refine k.trans ⟨id, rfl, OtpGrows.refl _, fun _ => rfl, fun _ _ => rfl, fun p b => ?_⟩
  cases p <;> first | rfl | exact (Area.no_bit hb b (by decide)).elim

theorem Keep.rec_rail_pseq {xrail} {xpseq} (hb : Area.sub 0x280 m = true) (k : Keep m s t) :
    Keep m s ({ t with rail := xrail, pseq := xpseq } : Machine.State) := by
  refine k.trans ⟨id, rfl, OtpGrows.refl _, fun _ => rfl, fun _ _ => rfl, fun p b => ?_⟩
  cases p <;> first | rfl | exact (Area.no_bit hb b (by decide)).elim

theorem Keep.rec_rst_bus {xrst} {xbus} (hb : Area.sub 0x6 m = true) (e : t.rst.hold = xrst.hold) (k : Keep m s t) :
    Keep m s ({ t with rst := xrst, bus := xbus } : Machine.State) := by
  refine k.trans ⟨id, rfl, OtpGrows.refl _, fun _ => e.symm, fun _ _ => rfl, fun p b => ?_⟩
  cases p <;> first | rfl | exact (Area.no_bit hb b (by decide)).elim

theorem Keep.rec_rst_busH {xrst} {xbus} (hb : Area.sub 0x20000006 m = true) (k : Keep m s t) :
    Keep m s ({ t with rst := xrst, bus := xbus } : Machine.State) := by
  refine k.trans ⟨id, rfl, OtpGrows.refl _, fun b => (Area.no_bit hb b (by decide)).elim, fun _ _ => rfl, fun p b => ?_⟩
  cases p <;> first | rfl | exact (Area.no_bit hb b (by decide)).elim

theorem Keep.rec_rst_intk {xrst} {xintk} (hb : Area.sub 0x80002 m = true) (e : t.rst.hold = xrst.hold) (k : Keep m s t) :
    Keep m s ({ t with rst := xrst, intk := xintk } : Machine.State) := by
  refine k.trans ⟨id, rfl, OtpGrows.refl _, fun _ => e.symm, fun _ _ => rfl, fun p b => ?_⟩
  cases p <;> first | rfl | exact (Area.no_bit hb b (by decide)).elim

theorem Keep.rec_rst_intkH {xrst} {xintk} (hb : Area.sub 0x20080002 m = true) (k : Keep m s t) :
    Keep m s ({ t with rst := xrst, intk := xintk } : Machine.State) := by
  refine k.trans ⟨id, rfl, OtpGrows.refl _, fun b => (Area.no_bit hb b (by decide)).elim, fun _ _ => rfl, fun p b => ?_⟩
  cases p <;> first | rfl | exact (Area.no_bit hb b (by decide)).elim

theorem Keep.rec_rst_pins {xrst} {xpins} (hb : Area.sub 0x12 m = true) (e : t.rst.hold = xrst.hold) (k : Keep m s t) :
    Keep m s ({ t with rst := xrst, pins := xpins } : Machine.State) := by
  refine k.trans ⟨id, rfl, OtpGrows.refl _, fun _ => e.symm, fun _ _ => rfl, fun p b => ?_⟩
  cases p <;> first | rfl | exact (Area.no_bit hb b (by decide)).elim

theorem Keep.rec_rst_pinsH {xrst} {xpins} (hb : Area.sub 0x20000012 m = true) (k : Keep m s t) :
    Keep m s ({ t with rst := xrst, pins := xpins } : Machine.State) := by
  refine k.trans ⟨id, rfl, OtpGrows.refl _, fun b => (Area.no_bit hb b (by decide)).elim, fun _ _ => rfl, fun p b => ?_⟩
  cases p <;> first | rfl | exact (Area.no_bit hb b (by decide)).elim

theorem Keep.rec_teph_nv {xteph} {xnv} (hb : Area.sub 0x60 m = true) (k : Keep m s t) :
    Keep m s ({ t with teph := xteph, nv := xnv } : Machine.State) := by
  refine k.trans ⟨id, rfl, OtpGrows.refl _, fun _ => rfl, fun _ _ => rfl, fun p b => ?_⟩
  cases p <;> first | rfl | exact (Area.no_bit hb b (by decide)).elim

theorem Keep.rec_view_intk {xview} {xintk} (hb : Area.sub 0xc0000 m = true) (k : Keep m s t) :
    Keep m s ({ t with view := xview, intk := xintk } : Machine.State) := by
  refine k.trans ⟨id, rfl, OtpGrows.refl _, fun _ => rfl, fun _ _ => rfl, fun p b => ?_⟩
  cases p <;> first | rfl | exact (Area.no_bit hb b (by decide)).elim

theorem Keep.rec_pair_pseq_view {xpair} {xpseq} {xview} (hb : Area.sub 0x40300 m = true) (k : Keep m s t) :
    Keep m s ({ t with pair := xpair, pseq := xpseq, view := xview } : Machine.State) := by
  refine k.trans ⟨id, rfl, OtpGrows.refl _, fun _ => rfl, fun _ _ => rfl, fun p b => ?_⟩
  cases p <;> first | rfl | exact (Area.no_bit hb b (by decide)).elim

theorem Keep.rec_pins_teph_pseq {xpins} {xteph} {xpseq} (hb : Area.sub 0x230 m = true) (k : Keep m s t) :
    Keep m s ({ t with pins := xpins, teph := xteph, pseq := xpseq } : Machine.State) := by
  refine k.trans ⟨id, rfl, OtpGrows.refl _, fun _ => rfl, fun _ _ => rfl, fun p b => ?_⟩
  cases p <;> first | rfl | exact (Area.no_bit hb b (by decide)).elim

theorem Keep.rec_rst_mem_comp {xrst} {xmem} {xcomp} (hb : Area.sub 0x20802 m = true) (e : t.rst.hold = xrst.hold) (k : Keep m s t) :
    Keep m s ({ t with rst := xrst, mem := xmem, comp := xcomp } : Machine.State) := by
  refine k.trans ⟨id, rfl, OtpGrows.refl _, fun _ => e.symm, fun _ _ => rfl, fun p b => ?_⟩
  cases p <;> first | rfl | exact (Area.no_bit hb b (by decide)).elim

theorem Keep.rec_rst_mem_compH {xrst} {xmem} {xcomp} (hb : Area.sub 0x20020802 m = true) (k : Keep m s t) :
    Keep m s ({ t with rst := xrst, mem := xmem, comp := xcomp } : Machine.State) := by
  refine k.trans ⟨id, rfl, OtpGrows.refl _, fun b => (Area.no_bit hb b (by decide)).elim, fun _ _ => rfl, fun p b => ?_⟩
  cases p <;> first | rfl | exact (Area.no_bit hb b (by decide)).elim

theorem Keep.rec_rst_pins_sec {xrst} {xpins} {xsec} (hb : Area.sub 0x4000012 m = true) (e : t.rst.hold = xrst.hold) (k : Keep m s t) :
    Keep m s ({ t with rst := xrst, pins := xpins, sec := xsec } : Machine.State) := by
  refine k.trans ⟨id, rfl, OtpGrows.refl _, fun _ => e.symm, fun _ _ => rfl, fun p b => ?_⟩
  cases p <;> first | rfl | exact (Area.no_bit hb b (by decide)).elim

theorem Keep.rec_rst_pins_secH {xrst} {xpins} {xsec} (hb : Area.sub 0x24000012 m = true) (k : Keep m s t) :
    Keep m s ({ t with rst := xrst, pins := xpins, sec := xsec } : Machine.State) := by
  refine k.trans ⟨id, rfl, OtpGrows.refl _, fun b => (Area.no_bit hb b (by decide)).elim, fun _ _ => rfl, fun p b => ?_⟩
  cases p <;> first | rfl | exact (Area.no_bit hb b (by decide)).elim

theorem Keep.rec_rst_pseq_sec {xrst} {xpseq} {xsec} (hb : Area.sub 0x4000202 m = true) (e : t.rst.hold = xrst.hold) (k : Keep m s t) :
    Keep m s ({ t with rst := xrst, pseq := xpseq, sec := xsec } : Machine.State) := by
  refine k.trans ⟨id, rfl, OtpGrows.refl _, fun _ => e.symm, fun _ _ => rfl, fun p b => ?_⟩
  cases p <;> first | rfl | exact (Area.no_bit hb b (by decide)).elim

theorem Keep.rec_rst_pseq_secH {xrst} {xpseq} {xsec} (hb : Area.sub 0x24000202 m = true) (k : Keep m s t) :
    Keep m s ({ t with rst := xrst, pseq := xpseq, sec := xsec } : Machine.State) := by
  refine k.trans ⟨id, rfl, OtpGrows.refl _, fun b => (Area.no_bit hb b (by decide)).elim, fun _ _ => rfl, fun p b => ?_⟩
  cases p <;> first | rfl | exact (Area.no_bit hb b (by decide)).elim

theorem Keep.rec_pseq_fab_comp_intk_blt {xpseq} {xfab} {xcomp} {xintk} {xblt} (hb : Area.sub 0x2a2200 m = true) (k : Keep m s t) :
    Keep m s ({ t with pseq := xpseq, fab := xfab, comp := xcomp, intk := xintk, blt := xblt } : Machine.State) := by
  refine k.trans ⟨id, rfl, OtpGrows.refl _, fun _ => rfl, fun _ _ => rfl, fun p b => ?_⟩
  cases p <;> first | rfl | exact (Area.no_bit hb b (by decide)).elim

theorem Keep.rec_pseq_mem_thm_dram {xpseq} {xmem} {xthm} {xdram} (hb : Area.sub 0x410a00 m = true) (e3 : [] = xdram) (k : Keep m s t) :
    Keep m s ({ t with pseq := xpseq, mem := xmem, thm := xthm, dram := xdram } : Machine.State) := by
  subst e3
  refine k.trans ⟨fun w => ?_, rfl, OtpGrows.refl _, fun _ => rfl, fun _ _ => rfl, fun p b => ?_⟩
  · simp only [State.memoriesWf, Bool.and_eq_true] at w ⊢; exact ⟨w.1, rfl⟩
  · cases p <;> first | rfl | exact (Area.no_bit hb b (by decide)).elim

theorem Keep.rec_rst_bus_pseq_mem_pers_fab_comp_view_intk_host {xrst} {xbus} {xpseq} {xmem} {xpers} {xfab} {xcomp} {xview} {xintk} {xhost} (hb : Area.sub 0x20e3a06 m = true) (e : t.rst.hold = xrst.hold) (k : Keep m s t) :
    Keep m s ({ t with rst := xrst, bus := xbus, pseq := xpseq, mem := xmem, pers := xpers, fab := xfab, comp := xcomp, view := xview, intk := xintk, host := xhost } : Machine.State) := by
  refine k.trans ⟨id, rfl, OtpGrows.refl _, fun _ => e.symm, fun _ _ => rfl, fun p b => ?_⟩
  cases p <;> first | rfl | exact (Area.no_bit hb b (by decide)).elim

theorem Keep.rec_rst_bus_pseq_mem_pers_fab_comp_view_intk_hostH {xrst} {xbus} {xpseq} {xmem} {xpers} {xfab} {xcomp} {xview} {xintk} {xhost} (hb : Area.sub 0x220e3a06 m = true) (k : Keep m s t) :
    Keep m s ({ t with rst := xrst, bus := xbus, pseq := xpseq, mem := xmem, pers := xpers, fab := xfab, comp := xcomp, view := xview, intk := xintk, host := xhost } : Machine.State) := by
  refine k.trans ⟨id, rfl, OtpGrows.refl _, fun b => (Area.no_bit hb b (by decide)).elim, fun _ _ => rfl, fun p b => ?_⟩
  cases p <;> first | rfl | exact (Area.no_bit hb b (by decide)).elim

end Sys2Proof
end

