-- ==== Sys2Proof/Laws/KeepCoding.lean ====
section
/-!
SUPPORT. The operations and meanings of Machine/Coding.lean keep what `Keep` says.
-/

namespace Sys2Proof

open Sys2Proof.Machine

variable {ar : Nat} {s t u : Machine.State}

def Touch.setTxLane : Nat := 0x10000000
theorem Keep.setTxLane {n : Nat} {a2 : Sys2Proof.TxLane}
    (har : Area.sub Touch.setTxLane ar = true) (h : Keep ar s t) : Keep ar s (Machine.State.setTxLane t n a2) := by
  unfold Machine.State.setTxLane
  repeat' (with_reducible first
    | assumption
    | (extract_lets +onlyGivenNames x; (apply Keep.cut x); rotate_left; intro _; clear_value x; rotate_right; subst x)
    | (extract_lets +onlyGivenNames x; have hf : (∀ z, x z = x z) := fun _ => rfl; clear hf; subst x; try dsimp -zeta only)
    | (extract_lets +onlyGivenNames x; clear_value x)
    | (refine Area.sub_trans (b := Touch.setTxLane) ?_ har; decide)
    | dsimp -zeta only
    | (refine Keep.rec_wires ?_ ?_; rotate_left; first | assumption))

def Touch.sendBlock : Nat := 0x10000000
theorem Keep.sendBlock {n : Nat} {header : Nat} {payload : Nat}
    (har : Area.sub Touch.sendBlock ar = true) (h : Keep ar s t) : Keep ar s (Machine.State.sendBlock t n header payload) := by
  unfold Machine.State.sendBlock
  repeat' (with_reducible first
    | assumption
    | (extract_lets +onlyGivenNames x; (apply Keep.cut x); rotate_left; intro _; clear_value x; rotate_right; subst x)
    | (extract_lets +onlyGivenNames x; clear_value x)
    | apply Keep.setTxLane
    | (refine Area.sub_trans (b := Touch.sendBlock) ?_ har; decide)
    | intro _ _ _
    | intro _ _)

end Sys2Proof
end

