-- ==== Sys2Proof/Laws/KeepPacket.lean ====
section
/-!
SUPPORT. The operations and meanings of Machine/Packet.lean keep what `Keep` says.
-/

namespace Sys2Proof

open Sys2Proof.Machine

variable {ar : Nat} {s t u : Machine.State}

def Touch.sendFrame : Nat := 0x10000000
theorem Keep.sendFrame {base : Nat} {n : Nat} {f : List Sys2Proof.Byte}
    (har : Area.sub Touch.sendFrame ar = true) (h : Keep ar s t) : Keep ar s (Machine.State.sendFrame t base n f) := by
  unfold Machine.State.sendFrame
  repeat' (with_reducible first
    | assumption
    | apply Keep.sendBlock
    | (refine Area.sub_trans (b := Touch.sendFrame) ?_ har; decide)
    | apply Keep.foldl
    | intro _ _ _
    | intro _ _)

def Touch.sendMessage : Nat := 0x10000000
theorem Keep.sendMessage {base : Nat} {n : Nat} {ty : Nat} {seq : Option Nat} {payload : List Sys2Proof.Byte}
    (har : Area.sub Touch.sendMessage ar = true) (h : Keep ar s t) : Keep ar s (Machine.State.sendMessage t base n ty seq payload) := by
  unfold Machine.State.sendMessage
  repeat' (with_reducible first
    | assumption
    | (extract_lets +onlyGivenNames x; (apply Keep.cut x); rotate_left; intro _; clear_value x; rotate_right; subst x)
    | (extract_lets +onlyGivenNames x; have hf : (∀ z, x z = x z) := fun _ => rfl; clear hf; subst x; try dsimp -zeta only)
    | (extract_lets +onlyGivenNames x; clear_value x)
    | apply Keep.sendFrame
    | (refine Area.sub_trans (b := Touch.sendMessage) ?_ har; decide)
    | apply Keep.foldl
    | dsimp -zeta only
    | split
    | intro _ _ _
    | intro _ _)

def Touch.pairFrames : Nat := 0x10000000
theorem Keep.pairFrames {m : Sys2Proof.PairMsg} {seq : Option Nat}
    (har : Area.sub Touch.pairFrames ar = true) (h : Keep ar s t) : Keep ar s (Machine.State.pairFrames t m seq) := by
  unfold Machine.State.pairFrames
  repeat' (with_reducible first
    | assumption
    | apply Keep.sendMessage
    | (refine Area.sub_trans (b := Touch.pairFrames) ?_ har; decide)
    | intro _ _ _
    | intro _ _)

def Touch.arrayFrame : Nat := 0x10000000
theorem Keep.arrayFrame {a : Nat} {ty : Nat} {seq : Option Nat} {payload : List Sys2Proof.Byte}
    (har : Area.sub Touch.arrayFrame ar = true) (h : Keep ar s t) : Keep ar s (Machine.State.arrayFrame t a ty seq payload) := by
  unfold Machine.State.arrayFrame
  repeat' (with_reducible first
    | assumption
    | apply Keep.sendMessage
    | (refine Area.sub_trans (b := Touch.arrayFrame) ?_ har; decide)
    | intro _ _ _
    | intro _ _)

end Sys2Proof
end

