-- ==== Sys2Proof/Laws/KeepOps.lean ====
section
/-!
SUPPORT. The operations and meanings of Machine/Ops.lean keep what `Keep` says.
-/

namespace Sys2Proof

open Sys2Proof.Machine

variable {ar : Nat} {s t u : Machine.State}

def Touch.emit : Nat := 0x10000000
theorem Keep.emit {e : Emit}
    (har : Area.sub Touch.emit ar = true) (h : Keep ar s t) : Keep ar s (Machine.State.emit t e) := by
  unfold Machine.State.emit
  repeat' (with_reducible first
    | assumption
    | (extract_lets +onlyGivenNames x; (apply Keep.cut x); rotate_left; intro _; clear_value x; rotate_right; subst x)
    | (extract_lets +onlyGivenNames x; clear_value x)
    | (refine Area.sub_trans (b := Touch.emit) ?_ har; decide)
    | (refine Keep.rec_out ?_ ?_; rotate_left; first | assumption))

def Touch.tookFree : Nat := 0x8000000
theorem Keep.tookFree {n : Nat}
    (har : Area.sub Touch.tookFree ar = true) (h : Keep ar s t) : Keep ar s (Machine.State.tookFree t n) := by
  unfold Machine.State.tookFree
  repeat' (with_reducible first
    | assumption
    | (extract_lets +onlyGivenNames x; (apply Keep.cut x); rotate_left; intro _; clear_value x; rotate_right; subst x)
    | (extract_lets +onlyGivenNames x; clear_value x)
    | (refine Area.sub_trans (b := Touch.tookFree) ?_ har; decide)
    | (refine Keep.rec_freeCtr ?_ ?_; rotate_left; first | assumption))

def Touch.msixSend : Nat := 0x800000000000000000000000000000000000000000000000000000000000000010000000
theorem Keep.msixSend {v : Nat}
    (har : Area.sub Touch.msixSend ar = true) (h : Keep ar s t) : Keep ar s (Machine.State.msixSend t v) := by
  unfold Machine.State.msixSend
  repeat' (with_reducible first
    | assumption
    | apply Keep.ite
    | apply Keep.put
    | apply Keep.emit
    | (refine Area.sub_trans (b := Touch.msixSend) ?_ har; decide)
    | (refine Area.fld_mono (a := Touch.msixSend) ?_ har; decide)
    | split
    | intro _ _ _
    | intro _ _)

def Touch.irqEdge : Nat := 0x800000000000000000000000000000000000000000000000000000000000000010000000
theorem Keep.irqEdge {b : Blk} {before : Bool}
    (har : Area.sub Touch.irqEdge ar = true) (h : Keep ar s t) : Keep ar s (Machine.State.irqEdge t b before) := by
  unfold Machine.State.irqEdge
  repeat' (with_reducible first
    | assumption
    | apply Keep.ite
    | apply Keep.msixSend
    | (refine Area.sub_trans (b := Touch.irqEdge) ?_ har; decide)
    | split
    | intro _ _ _
    | intro _ _)

def Touch.raise : Nat := 0x800000000000000000000000000000000000000000000000000000000000000010000000
theorem Keep.raise {b : Blk} (hb : Area.fld ar (Area.status b) = true) {bit : Nat}
    (har : Area.sub Touch.raise ar = true) (h : Keep ar s t) : Keep ar s (Machine.State.raise t b bit) := by
  have hw : Area.word ar b.status := by
    cases b <;> exact Area.word_of hb ⟨0, 0, ⟨by decide, by decide⟩, .inl rfl⟩
  unfold Machine.State.raise
  exact Keep.irqEdge (Area.sub_trans (b := Touch.raise) (by decide) har) (Keep.setWord hw h)

def Touch.tephLose : Nat := 0x280000800000000000000000000000000000000000000000000000000000000000000010000020
theorem Keep.tephLose {frozen : Bool}
    (har : Area.sub Touch.tephLose ar = true) (h : Keep ar s t) : Keep ar s (Machine.State.tephLose t frozen) := by
  unfold Machine.State.tephLose
  repeat' (with_reducible first
    | assumption
    | (extract_lets +onlyGivenNames x; (apply Keep.cut x); rotate_left; intro _; clear_value x; rotate_right; subst x)
    | (extract_lets +onlyGivenNames x; clear_value x)
    | apply Keep.ite
    | apply Keep.bump
    | apply Keep.raise
    | (refine Area.sub_trans (b := Touch.tephLose) ?_ har; decide)
    | (refine Area.fld_mono (a := Touch.tephLose) ?_ har; decide)
    | split
    | intro _ _ _
    | intro _ _
    | (refine Keep.rec_teph ?_ ?_; rotate_left; first | assumption | apply Keep.bump | apply Keep.raise | apply Keep.ite))

def Touch.offerFull : Nat := 0x280000800000000000000000000000000000000000000000000000000000000000000010000020
theorem Keep.offerFull {src : Nat} {sev : Nat} {rung : Nat} {code : Nat} {a0 : Nat} {a1 : Nat} {a2 : Arg2} {injected : Bool} {trigger : Bool}
    (har : Area.sub Touch.offerFull ar = true) (h : Keep ar s t) : Keep ar s (Machine.State.offerFull t src sev rung code a0 a1 a2 injected trigger) := by
  unfold Machine.State.offerFull
  repeat' (with_reducible first
    | assumption
    | (extract_lets +onlyGivenNames x; (apply Keep.cut x); rotate_left; intro _; clear_value x; rotate_right; subst x)
    | (extract_lets +onlyGivenNames x; clear_value x)
    | apply Keep.ite
    | apply Keep.tephLose
    | (refine Area.sub_trans (b := Touch.offerFull) ?_ har; decide)
    | split
    | intro _ _ _
    | intro _ _
    | (refine Keep.rec_teph ?_ ?_; rotate_left; first | assumption | apply Keep.tephLose | apply Keep.ite))

def Touch.sendPair : Nat := 0x10000100
theorem Keep.sendPair {m : Sys2Proof.PairMsg}
    (har : Area.sub Touch.sendPair ar = true) (h : Keep ar s t) : Keep ar s (Machine.State.sendPair t m) := by
  unfold Machine.State.sendPair
  repeat' (with_reducible first
    | assumption
    | (extract_lets +onlyGivenNames x; (apply Keep.cut x); rotate_left; intro _; clear_value x; rotate_right; subst x)
    | (extract_lets +onlyGivenNames x; clear_value x)
    | apply Keep.ite
    | apply Keep.emit
    | apply Keep.pairFrames
    | (refine Area.sub_trans (b := Touch.sendPair) ?_ har; decide)
    | split
    | intro _ _ _
    | intro _ _
    | (refine Keep.rec_pair ?_ ?_; rotate_left; first | assumption | apply Keep.emit | apply Keep.pairFrames | apply Keep.ite))

def Touch.offer : Nat := 0x280000800000000000000000000000000000000000000000000000000000000000000010000020
theorem Keep.offer {src : Nat} {sev : Nat} {rung : Nat} {code : Nat} {a0 : Nat} {a1 : Nat} {a2 : Arg2}
    (har : Area.sub Touch.offer ar = true) (h : Keep ar s t) : Keep ar s (Machine.State.offer t src sev rung code a0 a1 a2) := by
  unfold Machine.State.offer
  repeat' (with_reducible first
    | assumption
    | apply Keep.offerFull
    | (refine Area.sub_trans (b := Touch.offer) ?_ har; decide)
    | intro _ _ _
    | intro _ _)

def Touch.sendNotice : Nat := 0x280000800000000000000000000000000000000000000000000000000000000000000010000120
theorem Keep.sendNotice {k : Sys2Proof.Notice} {c : Sys2Proof.NoticeCause} {target : Nat} {cause : Option Nat}
    (har : Area.sub Touch.sendNotice ar = true) (h : Keep ar s t) : Keep ar s (Machine.State.sendNotice t k c target cause) := by
  unfold Machine.State.sendNotice
  repeat' (with_reducible first
    | assumption
    | (extract_lets +onlyGivenNames x; (apply Keep.cut x); rotate_left; intro _; clear_value x; rotate_right; subst x)
    | (extract_lets +onlyGivenNames x; clear_value x)
    | apply Keep.sendPair
    | apply Keep.offer
    | (refine Area.sub_trans (b := Touch.sendNotice) ?_ har; decide)
    | intro _ _ _
    | intro _ _
    | (refine Keep.rec_pair ?_ ?_; rotate_left; first | assumption | apply Keep.sendPair | apply Keep.offer))

def Touch.sendFail : Nat := 0x280000800000000000000000000000000000000000000000000000000000000000000010000120
theorem Keep.sendFail {c : Sys2Proof.NoticeCause} {cause : Option Nat}
    (har : Area.sub Touch.sendFail ar = true) (h : Keep ar s t) : Keep ar s (Machine.State.sendFail t c cause) := by
  unfold Machine.State.sendFail
  repeat' (with_reducible first
    | assumption
    | apply Keep.ite
    | apply Keep.sendNotice
    | (refine Area.sub_trans (b := Touch.sendFail) ?_ har; decide)
    | split
    | intro _ _ _
    | intro _ _)

def Touch.alert : Nat := 0x10
theorem Keep.alert
    (har : Area.sub Touch.alert ar = true) (h : Keep ar s t) : Keep ar s (Machine.State.alert t) := by
  unfold Machine.State.alert
  repeat' (with_reducible first
    | assumption
    | (extract_lets +onlyGivenNames x; (apply Keep.cut x); rotate_left; intro _; clear_value x; rotate_right; subst x)
    | (extract_lets +onlyGivenNames x; clear_value x)
    | (refine Area.sub_trans (b := Touch.alert) ?_ har; decide)
    | (refine Keep.rec_pins ?_ ?_; rotate_left; first | assumption))

def Touch.raiseIf : Nat := 0x800000000000000000000000000000000000000000000000000000000000000010000000
theorem Keep.raiseIf {c : Bool} {b : Blk} (hb : Area.fld ar (Area.status b) = true) {bit : Nat}
    (har : Area.sub Touch.raiseIf ar = true) (h : Keep ar s t) : Keep ar s (Machine.State.raiseIf t c b bit) := by
  unfold Machine.State.raiseIf
  repeat' (with_reducible first
    | assumption
    | apply Keep.ite
    | apply Keep.raise
    | (refine Area.sub_trans (b := Touch.raiseIf) ?_ har; decide)
    | split
    | intro _ _ _
    | intro _ _)

def Touch.recIrq : Nat := 0x280000800000000000000000000000000000000000000000000000000000000000000018000020
theorem Keep.recIrq {b : Blk} {bit : Nat}
    (har : Area.sub Touch.recIrq ar = true) (h : Keep ar s t) : Keep ar s (Machine.State.recIrq t b bit) := by
  unfold Machine.State.recIrq
  repeat' (with_reducible first
    | assumption
    | apply Keep.tookFree
    | apply Keep.offer
    | (refine Area.sub_trans (b := Touch.recIrq) ?_ har; decide)
    | intro _ _ _
    | intro _ _)

def Touch.raiseRec : Nat := 0x280000800000000000000000000000000000000000000000000000000000000000000018000020
theorem Keep.raiseRec {b : Blk} (hb : Area.fld ar (Area.status b) = true) {bit : Nat}
    (har : Area.sub Touch.raiseRec ar = true) (h : Keep ar s t) : Keep ar s (Machine.State.raiseRec t b bit) := by
  unfold Machine.State.raiseRec
  repeat' (with_reducible first
    | assumption
    | apply Keep.raise
    | apply Keep.recIrq
    | (refine Area.sub_trans (b := Touch.raiseRec) ?_ har; decide)
    | intro _ _ _
    | intro _ _)

def Touch.stageFail : Nat := 0x280000800000000000000000000000000000000000000000000000000000000000010018000030
theorem Keep.stageFail {stage : Nat}
    (har : Area.sub Touch.stageFail ar = true) (h : Keep ar s t) : Keep ar s (Machine.State.stageFail t stage) := by
  unfold Machine.State.stageFail
  repeat' (with_reducible first
    | assumption
    | (extract_lets +onlyGivenNames x; (apply Keep.cut x); rotate_left; intro _; clear_value x; rotate_right; subst x)
    | (extract_lets +onlyGivenNames x; clear_value x)
    | apply Keep.put
    | apply Keep.tookFree
    | apply Keep.offer
    | apply Keep.alert
    | (refine Area.sub_trans (b := Touch.stageFail) ?_ har; decide)
    | (refine Area.fld_mono (a := Touch.stageFail) ?_ har; decide)
    | intro _ _ _
    | intro _ _)

def Touch.inputJudge : Nat := 0x280000800000000000000000000000000000000000000000000000000000000000010018000030
theorem Keep.inputJudge
    (har : Area.sub Touch.inputJudge ar = true) (h : Keep ar s t) : Keep ar s (Machine.State.inputJudge t) := by
  unfold Machine.State.inputJudge
  repeat' (with_reducible first
    | assumption
    | apply Keep.ite
    | apply Keep.stageFail
    | (refine Area.sub_trans (b := Touch.inputJudge) ?_ har; decide)
    | split
    | intro _ _ _
    | intro _ _)

def Touch.inputFromStrap : Nat := 0x1000000000000000000000000000080001
theorem Keep.inputFromStrap
    (har : Area.sub Touch.inputFromStrap ar = true) (h : Keep ar s t) : Keep ar s (Machine.State.inputFromStrap t) := by
  unfold Machine.State.inputFromStrap
  repeat' (with_reducible first
    | assumption
    | (extract_lets +onlyGivenNames x; (apply Keep.cut x); rotate_left; intro _; clear_value x; rotate_right; subst x)
    | (extract_lets +onlyGivenNames x; clear_value x)
    | apply Keep.ite
    | apply Keep.put
    | apply Keep.putStaged
    | (refine Area.sub_trans (b := Touch.inputFromStrap) ?_ har; decide)
    | (refine Area.fld_mono (a := Touch.inputFromStrap) ?_ har; decide)
    | split
    | intro _ _ _
    | intro _ _
    | (refine Keep.rec_intk ?_ ?_; rotate_left; first | assumption | apply Keep.put | apply Keep.putStaged | apply Keep.ite))

def Touch.enterStages : Nat := 0x1000000000000000000000010000080001
theorem Keep.enterStages {a0 : Nat}
    (har : Area.sub Touch.enterStages ar = true) (h : Keep ar s t) : Keep ar s (Machine.State.enterStages a0 t) := by
  induction a0 generalizing t with
  | zero => exact h
  | succ k ih =>
    unfold Machine.State.enterStages
    dsimp only
    split
    · have h2 : ∀ x, Keep ar s ((t.put R.RST_STAGE_STAGE x).put R.RST_STAGE_FAIL 0) := fun x => (h.put (Area.fld_mono (a := Touch.enterStages) (by decide) har)).put (Area.fld_mono (a := Touch.enterStages) (by decide) har)
      apply ih
      split
      · exact Keep.inputFromStrap (Area.sub_trans (b := Touch.enterStages) (by decide) har) (h2 _)
      · exact h2 _
    · exact h

def Touch.boot : Nat := 0x280000800000000000000000000000000000000000001000000000000000000000010018080031
theorem Keep.boot
    (har : Area.sub Touch.boot ar = true) (h : Keep ar s t) : Keep ar s (Machine.State.boot t) := by
  unfold Machine.State.boot
  repeat' (with_reducible first
    | assumption
    | apply Keep.inputJudge
    | apply Keep.enterStages
    | (refine Area.sub_trans (b := Touch.boot) ?_ har; decide)
    | intro _ _ _
    | intro _ _)

def Touch.recOther : Nat := 0x280000800000000000000000000000000000000000000000000000000000000000000018000020
theorem Keep.recOther {off : Nat}
    (har : Area.sub Touch.recOther ar = true) (h : Keep ar s t) : Keep ar s (Machine.State.recOther t off) := by
  unfold Machine.State.recOther
  repeat' (with_reducible first
    | assumption
    | apply Keep.tookFree
    | apply Keep.offer
    | (refine Area.sub_trans (b := Touch.recOther) ?_ har; decide)
    | intro _ _ _
    | intro _ _)

def Touch.writeBytes : Nat := 0x400000
theorem Keep.writeBytes {a : Nat} {a2 : List Sys2Proof.Byte}
    (har : Area.sub Touch.writeBytes ar = true) (h : Keep ar s t) : Keep ar s (Machine.State.writeBytes t a a2) := by
  induction a2 generalizing a t with
  | nil => exact h
  | cons b l ih => exact ih (h.writeByte (Area.sub_trans (b := Touch.writeBytes) (by decide) har))

def Touch.ignored : Nat := 0x280000800000000000000000000000000000000000000000000000000000000000000010000020
theorem Keep.ignored {off : Nat} {data : Nat} {r : Sys2Proof.Req}
    (har : Area.sub Touch.ignored ar = true) (h : Keep ar s t) : Keep ar s (Machine.State.ignored t off data r) := by
  unfold Machine.State.ignored
  repeat' (with_reducible first
    | assumption
    | apply Keep.offer
    | (refine Area.sub_trans (b := Touch.ignored) ?_ har; decide)
    | intro _ _ _
    | intro _ _)

def Touch.keyed : Nat := 0x280000800000000000000000000000000000000000000000000000000000000000000010000020
theorem Keep.keyed {off : Nat} {r : Sys2Proof.Req} {key : Nat} {want : Nat} {data : Nat} {act : State → State} (hact : ∀ (z0 : Machine.State), Keep ar s z0 → Keep ar s (act z0))
    (har : Area.sub Touch.keyed ar = true) (h : Keep ar s t) : Keep ar s (Machine.State.keyed t off r key want data act) := by
  unfold Machine.State.keyed
  split
  · exact h.ignored (Area.sub_trans (b := Touch.keyed) (by decide) har)
  · split
    · exact h.ignored (Area.sub_trans (b := Touch.keyed) (by decide) har)
    · exact hact _ h

def Touch.resendPair : Nat := 0x10000000
theorem Keep.resendPair {x : Sent}
    (har : Area.sub Touch.resendPair ar = true) (h : Keep ar s t) : Keep ar s (Machine.State.resendPair t x) := by
  unfold Machine.State.resendPair
  repeat' (with_reducible first
    | assumption
    | apply Keep.emit
    | apply Keep.pairFrames
    | (refine Area.sub_trans (b := Touch.resendPair) ?_ har; decide)
    | intro _ _ _
    | intro _ _)

def Touch.writeLe : Nat := 0x400000
theorem Keep.writeLe {a : Nat} {n : Nat} {v : Nat}
    (har : Area.sub Touch.writeLe ar = true) (h : Keep ar s t) : Keep ar s (Machine.State.writeLe t a n v) := by
  unfold Machine.State.writeLe
  repeat' (with_reducible first
    | assumption
    | apply Keep.writeBytes
    | (refine Area.sub_trans (b := Touch.writeLe) ?_ har; decide)
    | intro _ _ _
    | intro _ _)

end Sys2Proof
end

