-- ==== Sys2Proof/Laws/KeepMail.lean ====
section
/-!
SUPPORT. The operations and meanings of Machine/Mail.lean keep what `Keep` says.
-/

namespace Sys2Proof

open Sys2Proof.Machine

variable {ar : Nat} {s t u : Machine.State}

def Touch.mbxTransmit : Nat := 0x10000100
theorem Keep.mbxTransmit {m : Nat}
    (har : Area.sub Touch.mbxTransmit ar = true) (h : Keep ar s t) : Keep ar s (Machine.State.mbxTransmit t m) := by
  unfold Machine.State.mbxTransmit
  repeat' (with_reducible first
    | assumption
    | apply Keep.sendPair
    | (refine Area.sub_trans (b := Touch.mbxTransmit) ?_ har; decide)
    | intro _ _ _
    | intro _ _)

def Touch.mbxPost : Nat := 0x2800008000000000000000000000000000000000000000000000000000000000021C0018000120
theorem Keep.mbxPost {m : Nat} {word : Nat}
    (har : Area.sub Touch.mbxPost ar = true) (h : Keep ar s t) : Keep ar s (Machine.State.mbxPost t m word) := by
  unfold Machine.State.mbxPost
  repeat' (with_reducible first
    | assumption
    | (extract_lets +onlyGivenNames x; (apply Keep.cut x); rotate_left; intro _; clear_value x; rotate_right; subst x)
    | (extract_lets +onlyGivenNames x; clear_value x)
    | apply Keep.ite
    | apply Keep.put
    | apply Keep.bump
    | apply Keep.raise
    | apply Keep.mbxTransmit
    | apply Keep.raiseRec
    | (refine Area.sub_trans (b := Touch.mbxPost) ?_ har; decide)
    | (refine Area.fld_mono (a := Touch.mbxPost) ?_ har; decide)
    | split
    | intro _ _ _
    | intro _ _)

def Touch.noticeNext : Nat := 0x2800008000000000000000000000000000000000000000000000000000000000021C0018004120
theorem Keep.noticeNext
    (har : Area.sub Touch.noticeNext ar = true) (h : Keep ar s t) : Keep ar s (Machine.State.noticeNext t) := by
  unfold Machine.State.noticeNext
  repeat' (with_reducible first
    | assumption
    | (extract_lets +onlyGivenNames x; (apply Keep.cut x); rotate_left; intro _; clear_value x; rotate_right; subst x)
    | (extract_lets +onlyGivenNames x; clear_value x)
    | apply Keep.ite
    | apply Keep.mbxPost
    | (refine Area.sub_trans (b := Touch.noticeNext) ?_ har; decide)
    | split
    | intro _ _ _
    | intro _ _
    | (refine Keep.rec_care ?_ ?_; rotate_left; first | assumption | apply Keep.mbxPost | apply Keep.ite))

def Touch.mbxDone : Nat := 0x2800008000000000000000000000000000000000000000000000000000000000021C0018004120
theorem Keep.mbxDone {m : Nat} {ret : Nat}
    (har : Area.sub Touch.mbxDone ar = true) (h : Keep ar s t) : Keep ar s (Machine.State.mbxDone t m ret) := by
  unfold Machine.State.mbxDone
  repeat' (with_reducible first
    | assumption
    | (extract_lets +onlyGivenNames x; (apply Keep.cut x); rotate_left; intro _; clear_value x; rotate_right; subst x)
    | (extract_lets +onlyGivenNames x; clear_value x)
    | apply Keep.ite
    | apply Keep.put
    | apply Keep.sendPair
    | apply Keep.raiseIf
    | apply Keep.noticeNext
    | (refine Area.sub_trans (b := Touch.mbxDone) ?_ har; decide)
    | (refine Area.fld_mono (a := Touch.mbxDone) ?_ har; decide)
    | split
    | intro _ _ _
    | intro _ _
    | (refine Keep.rec_care ?_ ?_; rotate_left; first | assumption | apply Keep.put | apply Keep.sendPair | apply Keep.raiseIf | apply Keep.noticeNext | apply Keep.ite))

def Touch.cmdEnd : Nat := 0x2800008000000000000000000000000000000000000000000000000000000000027C0018004120
theorem Keep.cmdEnd {ret : Nat} {res : List Nat}
    (har : Area.sub Touch.cmdEnd ar = true) (h : Keep ar s t) : Keep ar s (Machine.State.cmdEnd t ret res) := by
  unfold Machine.State.cmdEnd
  repeat' (with_reducible first
    | assumption
    | (extract_lets +onlyGivenNames x; (apply Keep.cut x); rotate_left; intro _; clear_value x; rotate_right; subst x)
    | (extract_lets +onlyGivenNames x; have hf : (∀ z, x z = x z) := fun _ => rfl; clear hf; subst x; try dsimp -zeta only)
    | (extract_lets +onlyGivenNames x; clear_value x)
    | apply Keep.ite
    | apply Keep.put
    | apply Keep.mbxDone
    | (refine Area.sub_trans (b := Touch.cmdEnd) ?_ har; decide)
    | (refine Area.fld_mono (a := Touch.cmdEnd) ?_ har; decide)
    | apply Keep.foldl
    | dsimp -zeta only
    | split
    | intro _ _ _
    | intro _ _
    | (refine Keep.rec_care ?_ ?_; rotate_left; first | assumption | apply Keep.put | apply Keep.mbxDone | apply Keep.ite | apply Keep.foldl))

def Touch.cmdEndIf : Nat := 0x2800008000000000000000000000000000000000000000000000000000000000027C0018004120
theorem Keep.cmdEndIf {op : Nat} {param : Nat} {ret : Nat} {res : List Nat}
    (har : Area.sub Touch.cmdEndIf ar = true) (h : Keep ar s t) : Keep ar s (Machine.State.cmdEndIf t op param ret res) := by
  unfold Machine.State.cmdEndIf
  repeat' (with_reducible first
    | assumption
    | (extract_lets +onlyGivenNames x; (apply Keep.cut x); rotate_left; intro _; clear_value x; rotate_right; subst x)
    | (extract_lets +onlyGivenNames x; clear_value x)
    | apply Keep.ite
    | apply Keep.cmdEnd
    | (refine Area.sub_trans (b := Touch.cmdEndIf) ?_ har; decide)
    | split
    | intro _ _ _
    | intro _ _)

def Touch.releaseLocks : Nat := 0x280000800000000000000000000000000000000000000000000000000000000002800018000020
theorem Keep.releaseLocks {owner : Nat}
    (har : Area.sub Touch.releaseLocks ar = true) (h : Keep ar s t) : Keep ar s (Machine.State.releaseLocks t owner) := by
  unfold Machine.State.releaseLocks
  repeat' (with_reducible first
    | assumption
    | apply Keep.put
    | apply Keep.raiseRec
    | (refine Area.sub_trans (b := Touch.releaseLocks) ?_ har; decide)
    | (refine Area.fld_mono (a := Touch.releaseLocks) ?_ har; decide)
    | apply Keep.foldl
    | intro _ _ _
    | intro _ _)

def Touch.notice : Nat := 0x2800008000000000000000000000000000000000000000000000000000000000021C0018004120
theorem Keep.notice {event : Nat} {param : Nat}
    (har : Area.sub Touch.notice ar = true) (h : Keep ar s t) : Keep ar s (Machine.State.notice t event param) := by
  unfold Machine.State.notice
  repeat' (with_reducible first
    | assumption
    | (extract_lets +onlyGivenNames x; (apply Keep.cut x); rotate_left; intro _; clear_value x; rotate_right; subst x)
    | (extract_lets +onlyGivenNames x; clear_value x)
    | apply Keep.ite
    | apply Keep.mbxPost
    | apply Keep.recOther
    | (refine Area.sub_trans (b := Touch.notice) ?_ har; decide)
    | split
    | intro _ _ _
    | intro _ _
    | (refine Keep.rec_care ?_ ?_; rotate_left; first | assumption | apply Keep.mbxPost | apply Keep.recOther | apply Keep.ite))

def Touch.ignoredBy : Nat := 0x280000800000000000000000000000000000000000000000000000000000000000000018000020
theorem Keep.ignoredBy {off : Nat} {data : Nat} {p : Sys2Proof.Party}
    (har : Area.sub Touch.ignoredBy ar = true) (h : Keep ar s t) : Keep ar s (Machine.State.ignoredBy t off data p) := by
  unfold Machine.State.ignoredBy
  repeat' (with_reducible first
    | assumption
    | apply Keep.ite
    | apply Keep.tookFree
    | apply Keep.offer
    | (refine Area.sub_trans (b := Touch.ignoredBy) ?_ har; decide)
    | split
    | intro _ _ _
    | intro _ _)

def Touch.stray : Nat := 0x100000000000
theorem Keep.stray
    (har : Area.sub Touch.stray ar = true) (h : Keep ar s t) : Keep ar s (Machine.State.stray t) := by
  unfold Machine.State.stray
  repeat' (with_reducible first
    | assumption
    | apply Keep.bump
    | (refine Area.sub_trans (b := Touch.stray) ?_ har; decide)
    | (refine Area.fld_mono (a := Touch.stray) ?_ har; decide)
    | intro _ _ _
    | intro _ _)

def Touch.execMbxAck : Nat := 0x2800008000000000000000000000000000000000000000000000000000000000021C0018004120
theorem Keep.execMbxAck {p : Sys2Proof.Party} {m : Nat} {ret : Nat}
    (har : Area.sub Touch.execMbxAck ar = true) (h : Keep ar s t) : KeepO ar s (Machine.execMbxAck p m ret t) := by
  unfold Machine.execMbxAck
  repeat' (with_reducible first
    | assumption
    | apply KeepO.next
    | apply KeepO.ite
    | apply Keep.ite
    | apply Keep.mbxDone
    | apply Keep.ignoredBy
    | apply Keep.stray
    | (refine Area.sub_trans (b := Touch.execMbxAck) ?_ har; decide)
    | split
    | intro _ _ _
    | intro _ _)

def Touch.execMbxPost : Nat := 0x2800008000000000000000000000000000000000000000000000000000000000021C0018000120
theorem Keep.execMbxPost {p : Sys2Proof.Party} {m : Nat} {word : Sys2Proof.Word}
    (har : Area.sub Touch.execMbxPost ar = true) (h : Keep ar s t) : KeepO ar s (Machine.execMbxPost p m word t) := by
  unfold Machine.execMbxPost
  repeat' (with_reducible first
    | assumption
    | apply KeepO.next
    | apply KeepO.ite
    | apply Keep.ite
    | apply Keep.mbxPost
    | apply Keep.ignoredBy
    | apply Keep.stray
    | (refine Area.sub_trans (b := Touch.execMbxPost) ?_ har; decide)
    | split
    | intro _ _ _
    | intro _ _)

def Touch.execLockRelease : Nat := 0x280000800000000000000000000000000000000000000000000000000000000001800018000020
theorem Keep.execLockRelease {p : Sys2Proof.Party} {k : Nat}
    (har : Area.sub Touch.execLockRelease ar = true) (h : Keep ar s t) : KeepO ar s (Machine.execLockRelease p k t) := by
  unfold Machine.execLockRelease
  repeat' (with_reducible first
    | assumption
    | apply KeepO.next
    | apply KeepO.ite
    | apply Keep.ite
    | apply Keep.put
    | apply Keep.bump
    | apply Keep.ignoredBy
    | (refine Area.sub_trans (b := Touch.execLockRelease) ?_ har; decide)
    | (refine Area.fld_mono (a := Touch.execLockRelease) ?_ har; decide)
    | split
    | intro _ _ _
    | intro _ _)

def Touch.execLockClaim : Nat := 0x1800000000000
theorem Keep.execLockClaim {p : Sys2Proof.Party} {k : Nat}
    (har : Area.sub Touch.execLockClaim ar = true) (h : Keep ar s t) : KeepO ar s (Machine.execLockClaim p k t) := by
  unfold Machine.execLockClaim
  repeat' (with_reducible first
    | assumption
    | apply KeepO.next
    | apply KeepO.ite
    | (extract_lets +onlyGivenNames x; (first | apply KeepO.cut x | apply Keep.cut x); rotate_left; intro _; clear_value x; rotate_right; subst x)
    | (extract_lets +onlyGivenNames x; clear_value x)
    | apply Keep.ite
    | apply Keep.put
    | apply Keep.bump
    | (refine Area.sub_trans (b := Touch.execLockClaim) ?_ har; decide)
    | (refine Area.fld_mono (a := Touch.execLockClaim) ?_ har; decide)
    | split
    | intro _ _ _
    | intro _ _)

def Touch.execMbxWithdraw : Nat := 0x2800008000000000000000000000000000000000000000000000000000000000021C0018004120
theorem Keep.execMbxWithdraw {p : Sys2Proof.Party} {m : Nat}
    (har : Area.sub Touch.execMbxWithdraw ar = true) (h : Keep ar s t) : KeepO ar s (Machine.execMbxWithdraw p m t) := by
  unfold Machine.execMbxWithdraw
  repeat' (with_reducible first
    | assumption
    | apply KeepO.next
    | apply KeepO.ite
    | (extract_lets +onlyGivenNames x; (first | apply KeepO.cut x | apply Keep.cut x); rotate_left; intro _; clear_value x; rotate_right; subst x)
    | (extract_lets +onlyGivenNames x; clear_value x)
    | apply Keep.ite
    | apply Keep.put
    | apply Keep.noticeNext
    | apply Keep.ignoredBy
    | apply Keep.stray
    | (refine Area.sub_trans (b := Touch.execMbxWithdraw) ?_ har; decide)
    | (refine Area.fld_mono (a := Touch.execMbxWithdraw) ?_ har; decide)
    | split
    | intro _ _ _
    | intro _ _)

def Touch.mbxResend : Nat := 0x10000100
theorem Keep.mbxResend
    (har : Area.sub Touch.mbxResend ar = true) (h : Keep ar s t) : Keep ar s (Machine.State.mbxResend t) := by
  unfold Machine.State.mbxResend
  repeat' (with_reducible first
    | assumption
    | apply Keep.ite
    | apply Keep.mbxTransmit
    | (refine Area.sub_trans (b := Touch.mbxResend) ?_ har; decide)
    | apply Keep.foldl
    | split
    | intro _ _ _
    | intro _ _)

end Sys2Proof
end

