-- ==== Sys2Proof/Laws/KeepRail.lean ====
section
/-!
SUPPORT. The operations and meanings of Machine/Rail.lean keep what `Keep` says.
-/

namespace Sys2Proof

open Sys2Proof.Machine

variable {ar : Nat} {s t u : Machine.State}

def Touch.railLock : Nat := 0x800000000000000802000000000000000000000000000000000000000000000010000000
theorem Keep.railLock
    (har : Area.sub Touch.railLock ar = true) (h : Keep ar s t) : Keep ar s (Machine.State.railLock t) := by
  unfold Machine.State.railLock
  repeat' (with_reducible first
    | assumption
    | apply Keep.put
    | apply Keep.raise
    | (refine Area.sub_trans (b := Touch.railLock) ?_ har; decide)
    | (refine Area.fld_mono (a := Touch.railLock) ?_ har; decide)
    | intro _ _ _
    | intro _ _)

def Touch.railOff : Nat := 0x800000000000000802000000000000000000000000000000000000000000000010000280
theorem Keep.railOff {lock : Bool}
    (har : Area.sub Touch.railOff ar = true) (h : Keep ar s t) : Keep ar s (Machine.State.railOff t lock) := by
  unfold Machine.State.railOff
  repeat' (with_reducible first
    | assumption
    | (extract_lets +onlyGivenNames x; (apply Keep.cut x); rotate_left; intro _; clear_value x; rotate_right; subst x)
    | (extract_lets +onlyGivenNames x; clear_value x)
    | apply Keep.ite
    | apply Keep.put
    | apply Keep.railLock
    | (refine Area.sub_trans (b := Touch.railOff) ?_ har; decide)
    | (refine Area.fld_mono (a := Touch.railOff) ?_ har; decide)
    | split
    | intro _ _ _
    | intro _ _
    | (refine Keep.rec_rail_pseq ?_ ?_; rotate_left; first | assumption | apply Keep.put | apply Keep.railLock | apply Keep.ite)
    | (refine Keep.rec_rail ?_ ?_; rotate_left; first | assumption | apply Keep.put | apply Keep.railLock | apply Keep.ite))

def Touch.execRailCmdRelearn : Nat := 0x2800008000000000000000000000000000000000000000000000000000000000000000100000A0
theorem Keep.execRailCmdRelearn {r : Sys2Proof.Req} {key : Nat}
    (har : Area.sub Touch.execRailCmdRelearn ar = true) (h : Keep ar s t) : KeepO ar s (Machine.execRailCmdRelearn r key t) := by
  unfold Machine.execRailCmdRelearn
  repeat' (with_reducible first
    | assumption
    | apply KeepO.next
    | apply KeepO.ite
    | (extract_lets +onlyGivenNames x; (first | apply KeepO.cut x | apply Keep.cut x); rotate_left; intro _; clear_value x; rotate_right; subst x)
    | (extract_lets +onlyGivenNames x; have hf : (∀ z, x z = x z) := fun _ => rfl; clear hf; subst x; try dsimp -zeta only)
    | (extract_lets +onlyGivenNames x; clear_value x)
    | apply Keep.keyed
    | (refine Area.sub_trans (b := Touch.execRailCmdRelearn) ?_ har; decide)
    | dsimp -zeta only
    | intro _ _ _
    | intro _ _
    | (refine Keep.rec_rail ?_ ?_; rotate_left; first | assumption | apply Keep.keyed))

def Touch.crackBaseWrite : Nat := 0x100000000000000000000000000000000000000000000000000000000
theorem Keep.crackBaseWrite {r : Sys2Proof.Req} {l : Nat} {data : Nat}
    (har : Area.sub Touch.crackBaseWrite ar = true) (h : Keep ar s t) : Keep ar s (Machine.State.crackBaseWrite t r l data) := by
  unfold Machine.State.crackBaseWrite
  repeat' (with_reducible first
    | assumption
    | apply Keep.ite
    | apply Keep.put
    | (refine Area.sub_trans (b := Touch.crackBaseWrite) ?_ har; decide)
    | (refine Area.fld_mono (a := Touch.crackBaseWrite) ?_ har; decide)
    | split
    | intro _ _ _
    | intro _ _)

def Touch.crackLearn : Nat := 0x1000000000000000000000000000000000000000000000000000000C0
theorem Keep.crackLearn {readings : List Sys2Proof.CrackRead}
    (har : Area.sub Touch.crackLearn ar = true) (h : Keep ar s t) : Keep ar s (Machine.State.crackLearn t readings) := by
  unfold Machine.State.crackLearn
  repeat' (with_reducible first
    | assumption
    | (extract_lets +onlyGivenNames x; (apply Keep.cut x); rotate_left; intro _; clear_value x; rotate_right; subst x)
    | (extract_lets +onlyGivenNames x; clear_value x)
    | apply Keep.ite
    | apply Keep.put
    | (refine Area.sub_trans (b := Touch.crackLearn) ?_ har; decide)
    | (refine Area.fld_mono (a := Touch.crackLearn) ?_ har; decide)
    | split
    | intro _ _ _
    | intro _ _
    | (refine Keep.rec_nv_rail ?_ ?_; rotate_left; first | assumption | apply Keep.put | apply Keep.ite))

def Touch.crackForward : Nat := 0x10000100
theorem Keep.crackForward
    (har : Area.sub Touch.crackForward ar = true) (h : Keep ar s t) : Keep ar s (Machine.State.crackForward t) := by
  unfold Machine.State.crackForward
  repeat' (with_reducible first
    | assumption
    | (extract_lets +onlyGivenNames x; (apply Keep.cut x); rotate_left; intro _; clear_value x; rotate_right; subst x)
    | (extract_lets +onlyGivenNames x; have hf : (∀ z, x z = x z) := fun _ => rfl; clear hf; subst x; try dsimp -zeta only)
    | (extract_lets +onlyGivenNames x; clear_value x)
    | apply Keep.ite
    | apply Keep.sendPair
    | (refine Area.sub_trans (b := Touch.crackForward) ?_ har; decide)
    | apply Keep.foldl
    | dsimp -zeta only
    | split
    | intro _ _ _
    | intro _ _)

def Touch.setLatched : Nat := 0x80
theorem Keep.setLatched {l : Nat} {b : Bool}
    (har : Area.sub Touch.setLatched ar = true) (h : Keep ar s t) : Keep ar s (Machine.State.setLatched t l b) := by
  unfold Machine.State.setLatched
  repeat' (with_reducible first
    | assumption
    | (extract_lets +onlyGivenNames x; (apply Keep.cut x); rotate_left; intro _; clear_value x; rotate_right; subst x)
    | (extract_lets +onlyGivenNames x; clear_value x)
    | apply Keep.ite
    | (refine Area.sub_trans (b := Touch.setLatched) ?_ har; decide)
    | split
    | (refine Keep.rec_rail ?_ ?_; rotate_left; first | assumption | apply Keep.ite))

def Touch.crackReading : Nat := 0x280000800000000000000F000000000000000000000000000000000000000000000000180000B0
theorem Keep.crackReading {l : Nat} {rd : Sys2Proof.CrackRead}
    (har : Area.sub Touch.crackReading ar = true) (h : Keep ar s t) : KeepFst ar s (Machine.State.crackReading t l rd) := by
  unfold Machine.State.crackReading
  repeat' (with_reducible first
    | assumption
    | apply KeepFst.mk
    | apply KeepFst.ite
    | (extract_lets +onlyGivenNames x; (first | apply KeepFst.cut1 x | apply Keep.cut x); rotate_left; intro _; clear_value x; rotate_right; subst x)
    | (extract_lets +onlyGivenNames x; clear_value x)
    | apply Keep.ite
    | apply Keep.put
    | apply Keep.bump
    | apply Keep.raise
    | apply Keep.alert
    | apply Keep.recIrq
    | apply Keep.setLatched
    | (refine Area.sub_trans (b := Touch.crackReading) ?_ har; decide)
    | (refine Area.fld_mono (a := Touch.crackReading) ?_ har; decide)
    | split
    | intro _ _ _
    | intro _ _)

def Touch.crackReadings : Nat := 0x280000800000000000000F000000000000000000000000000000000000000000000000180000B0
theorem Keep.crackReadings {a1 : Nat} {a2 : List Sys2Proof.CrackRead}
    (har : Area.sub Touch.crackReadings ar = true) (h : Keep ar s t) : KeepFst ar s (Machine.State.crackReadings t a1 a2) := by
  induction a2 generalizing a1 t with
  | nil => exact h
  | cons r l ih => exact ih (Keep.crackReading (Area.sub_trans (b := Touch.crackReadings) (by decide) har) h)

def Touch.railOn : Nat := 0x280000800000000000000F020000000000000000000000000000000000000000000100180001F0
theorem Keep.railOn {readings : List Sys2Proof.CrackRead}
    (har : Area.sub Touch.railOn ar = true) (h : Keep ar s t) : Keep ar s (Machine.State.railOn t readings) := by
  unfold Machine.State.railOn
  repeat' (with_reducible first
    | assumption
    | (extract_lets +onlyGivenNames x; (apply Keep.cut x); rotate_left; intro _; clear_value x; rotate_right; subst x)
    | (extract_lets +onlyGivenNames x; refine KeepFst.cut (m := ar) (s := s) x ?_ (fun hx => ?_); rotate_left; clear_value x; obtain ⟨x, y⟩ := x; dsimp -zeta only at hx ⊢; rotate_right; subst x)
    | (extract_lets +onlyGivenNames x; clear_value x)
    | apply Keep.ite
    | split
    | apply KeepFst.mk
    | apply KeepFst.ite
    | apply Keep.put
    | apply Keep.alert
    | apply Keep.recIrq
    | apply Keep.stageFail
    | apply Keep.railLock
    | apply Keep.crackLearn
    | apply Keep.crackForward
    | apply Keep.crackReadings
    | (refine KeepFst.of_eq ?_ (by assumption); first | apply Keep.crackReadings | apply KeepFst.ite)
    | (apply KeepFst.fst; first | apply Keep.crackReadings)
    | (refine Area.sub_trans (b := Touch.railOn) ?_ har; decide)
    | (refine Area.fld_mono (a := Touch.railOn) ?_ har; decide)
    | intro _ _ _
    | intro _ _
    | (refine Keep.rec_rail ?_ ?_; rotate_left; first | assumption | apply Keep.put | apply Keep.alert | apply Keep.recIrq | apply Keep.stageFail | apply Keep.railLock | apply Keep.crackLearn | apply Keep.crackForward | apply Keep.crackReadings | (refine KeepFst.of_eq ?_ (by assumption); first | apply Keep.crackReadings | apply KeepFst.ite) | (apply KeepFst.fst; first | apply Keep.crackReadings) | apply Keep.ite))

def Touch.execRailCmdRestart : Nat := 0x280000800000000000000F020000000000000000000000000000000000000000000100180001F0
theorem Keep.execRailCmdRestart {r : Sys2Proof.Req} {key : Nat} {readings : List Sys2Proof.CrackRead}
    (har : Area.sub Touch.execRailCmdRestart ar = true) (h : Keep ar s t) : KeepO ar s (Machine.execRailCmdRestart r key readings t) := by
  unfold Machine.execRailCmdRestart
  repeat' (with_reducible first
    | assumption
    | apply KeepO.next
    | apply KeepO.ite
    | apply Keep.ite
    | apply Keep.put
    | apply Keep.ignored
    | apply Keep.keyed
    | apply Keep.railOn
    | (refine Area.sub_trans (b := Touch.execRailCmdRestart) ?_ har; decide)
    | (refine Area.fld_mono (a := Touch.execRailCmdRestart) ?_ har; decide)
    | split
    | intro _ _ _
    | intro _ _)

def Touch.execRailCmdOn : Nat := 0x280000800000000000000F020000000000000000000000000000000000000000000100180001F0
theorem Keep.execRailCmdOn {r : Sys2Proof.Req} {key : Nat} {readings : List Sys2Proof.CrackRead}
    (har : Area.sub Touch.execRailCmdOn ar = true) (h : Keep ar s t) : KeepO ar s (Machine.execRailCmdOn r key readings t) := by
  unfold Machine.execRailCmdOn
  repeat' (with_reducible first
    | assumption
    | apply KeepO.next
    | apply KeepO.ite
    | apply Keep.ite
    | apply Keep.ignored
    | apply Keep.keyed
    | apply Keep.railOn
    | (refine Area.sub_trans (b := Touch.execRailCmdOn) ?_ har; decide)
    | split
    | intro _ _ _
    | intro _ _)

def Touch.execRailCmdOff : Nat := 0x2800008000000000000008020000000000000000000000000000000000000000000000100002A0
theorem Keep.execRailCmdOff {r : Sys2Proof.Req} {key : Nat}
    (har : Area.sub Touch.execRailCmdOff ar = true) (h : Keep ar s t) : KeepO ar s (Machine.execRailCmdOff r key t) := by
  unfold Machine.execRailCmdOff
  repeat' (with_reducible first
    | assumption
    | apply KeepO.next
    | apply KeepO.ite
    | apply Keep.railOff
    | apply Keep.keyed
    | (refine Area.sub_trans (b := Touch.execRailCmdOff) ?_ har; decide)
    | intro _ _ _
    | intro _ _)

def Touch.crackShutdown : Nat := 0x2800008000000000000008020000000000000000000000000000000000000000000000100003A0
theorem Keep.crackShutdown
    (har : Area.sub Touch.crackShutdown ar = true) (h : Keep ar s t) : Keep ar s (Machine.State.crackShutdown t) := by
  unfold Machine.State.crackShutdown
  repeat' (with_reducible first
    | assumption
    | apply Keep.ite
    | apply Keep.sendNotice
    | apply Keep.railOff
    | (refine Area.sub_trans (b := Touch.crackShutdown) ?_ har; decide)
    | split
    | intro _ _ _
    | intro _ _)

def Touch.dischargeSkip : Nat := 0x2800008000000000000000020000000000000000000000000000000000000000000000180000A0
theorem Keep.dischargeSkip
    (har : Area.sub Touch.dischargeSkip ar = true) (h : Keep ar s t) : Keep ar s (Machine.State.dischargeSkip t) := by
  unfold Machine.State.dischargeSkip
  repeat' (with_reducible first
    | assumption
    | (extract_lets +onlyGivenNames x; (apply Keep.cut x); rotate_left; intro _; clear_value x; rotate_right; subst x)
    | (extract_lets +onlyGivenNames x; clear_value x)
    | apply Keep.put
    | apply Keep.recOther
    | (refine Area.sub_trans (b := Touch.dischargeSkip) ?_ har; decide)
    | (refine Area.fld_mono (a := Touch.dischargeSkip) ?_ har; decide)
    | intro _ _ _
    | intro _ _
    | (refine Keep.rec_rail ?_ ?_; rotate_left; first | assumption | apply Keep.put | apply Keep.recOther))

def Touch.faultCount : Nat := 0x40000000000000000000000000000000000000000000000000000000
theorem Keep.faultCount {kind : Nat} {ch : Nat}
    (har : Area.sub Touch.faultCount ar = true) (h : Keep ar s t) : Keep ar s (Machine.State.faultCount t kind ch) := by
  unfold Machine.State.faultCount
  repeat' (with_reducible first
    | assumption
    | (extract_lets +onlyGivenNames x; (apply Keep.cut x); rotate_left; intro _; clear_value x; rotate_right; subst x)
    | (extract_lets +onlyGivenNames x; clear_value x)
    | apply Keep.bump
    | (refine Area.sub_trans (b := Touch.faultCount) ?_ har; decide)
    | (refine Area.fld_mono (a := Touch.faultCount) ?_ har; decide)
    | split
    | intro _ _ _
    | intro _ _)

def Touch.faultReport : Nat := 0x28000080000000000000080C000000000000000000000000000000000000000000000018000030
theorem Keep.faultReport {kind : Nat} {ch : Nat}
    (har : Area.sub Touch.faultReport ar = true) (h : Keep ar s t) : Keep ar s (Machine.State.faultReport t kind ch) := by
  unfold Machine.State.faultReport
  repeat' (with_reducible first
    | assumption
    | (extract_lets +onlyGivenNames x; (apply Keep.cut x); rotate_left; intro _; clear_value x; rotate_right; subst x)
    | (extract_lets +onlyGivenNames x; clear_value x)
    | apply Keep.put
    | apply Keep.raise
    | apply Keep.alert
    | apply Keep.recIrq
    | (refine Area.sub_trans (b := Touch.faultReport) ?_ har; decide)
    | (refine Area.fld_mono (a := Touch.faultReport) ?_ har; decide)
    | intro _ _ _
    | intro _ _)

def Touch.railFault : Nat := 0x28000080000000000000084E0000000000000000000000000000000000000000000000180003B0
theorem Keep.railFault {kind : Nat} {chs : List Nat}
    (har : Area.sub Touch.railFault ar = true) (h : Keep ar s t) : Keep ar s (Machine.State.railFault t kind chs) := by
  unfold Machine.State.railFault
  repeat' (with_reducible first
    | assumption
    | (extract_lets +onlyGivenNames x; (apply Keep.cut x); rotate_left; intro _; clear_value x; rotate_right; subst x)
    | (extract_lets +onlyGivenNames x; have hf : (∀ z, x z = x z) := fun _ => rfl; clear hf; subst x; try dsimp -zeta only)
    | (extract_lets +onlyGivenNames x; clear_value x)
    | apply Keep.ite
    | apply Keep.put
    | apply Keep.sendFail
    | apply Keep.dischargeSkip
    | apply Keep.faultCount
    | apply Keep.faultReport
    | (refine Area.sub_trans (b := Touch.railFault) ?_ har; decide)
    | (refine Area.fld_mono (a := Touch.railFault) ?_ har; decide)
    | apply Keep.foldl
    | dsimp -zeta only
    | split
    | intro _ _ _
    | intro _ _
    | (refine Keep.rec_rail_pseq ?_ ?_; rotate_left; first | assumption | apply Keep.put | apply Keep.sendFail | apply Keep.dischargeSkip | apply Keep.faultCount | apply Keep.faultReport | apply Keep.ite | apply Keep.foldl))

def Touch.railStandby : Nat := 0x2000000000000000000000000000000000000000000000000000080
theorem Keep.railStandby
    (har : Area.sub Touch.railStandby ar = true) (h : Keep ar s t) : Keep ar s (Machine.State.railStandby t) := by
  unfold Machine.State.railStandby
  repeat' (with_reducible first
    | assumption
    | (extract_lets +onlyGivenNames x; (apply Keep.cut x); rotate_left; intro _; clear_value x; rotate_right; subst x)
    | (extract_lets +onlyGivenNames x; clear_value x)
    | apply Keep.put
    | (refine Area.sub_trans (b := Touch.railStandby) ?_ har; decide)
    | (refine Area.fld_mono (a := Touch.railStandby) ?_ har; decide)
    | intro _ _ _
    | intro _ _
    | (refine Keep.rec_rail ?_ ?_; rotate_left; first | assumption | apply Keep.put))

def Touch.railsDown : Nat := 0x800000000000000802000000000000000000000000000000000000000000000010000280
theorem Keep.railsDown
    (har : Area.sub Touch.railsDown ar = true) (h : Keep ar s t) : Keep ar s (Machine.State.railsDown t) := by
  unfold Machine.State.railsDown
  repeat' (with_reducible first
    | assumption
    | (extract_lets +onlyGivenNames x; (apply Keep.cut x); rotate_left; intro _; clear_value x; rotate_right; subst x)
    | (extract_lets +onlyGivenNames x; clear_value x)
    | apply Keep.ite
    | apply Keep.put
    | apply Keep.raise
    | apply Keep.railLock
    | (refine Area.sub_trans (b := Touch.railsDown) ?_ har; decide)
    | (refine Area.fld_mono (a := Touch.railsDown) ?_ har; decide)
    | split
    | intro _ _ _
    | intro _ _
    | (refine Keep.rec_rail_pseq ?_ ?_; rotate_left; first | assumption | apply Keep.put | apply Keep.raise | apply Keep.railLock | apply Keep.ite))

def Touch.railsUp : Nat := 0x2800008000000000000008020000000000000000000010000000000000000000000100180802B1
theorem Keep.railsUp
    (har : Area.sub Touch.railsUp ar = true) (h : Keep ar s t) : Keep ar s (Machine.State.railsUp t) := by
  unfold Machine.State.railsUp
  repeat' (with_reducible first
    | assumption
    | (extract_lets +onlyGivenNames x; (apply Keep.cut x); rotate_left; intro _; clear_value x; rotate_right; subst x)
    | (extract_lets +onlyGivenNames x; clear_value x)
    | apply Keep.ite
    | apply Keep.put
    | apply Keep.putB
    | apply Keep.raise
    | apply Keep.boot
    | (refine Area.sub_trans (b := Touch.railsUp) ?_ har; decide)
    | (refine Area.fld_mono (a := Touch.railsUp) ?_ har; decide)
    | split
    | intro _ _ _
    | intro _ _
    | (refine Keep.rec_rail_pseq ?_ ?_; rotate_left; first | assumption | apply Keep.put | apply Keep.putB | apply Keep.raise | apply Keep.boot | apply Keep.ite))

def Touch.execPowerOffPhaseEnd : Nat := 0x800000000000000802000000000000000000000000000000000000000000000010000280
theorem Keep.execPowerOffPhaseEnd
    (har : Area.sub Touch.execPowerOffPhaseEnd ar = true) (h : Keep ar s t) : KeepO ar s (Machine.execPowerOffPhaseEnd t) := by
  unfold Machine.execPowerOffPhaseEnd
  repeat' (with_reducible first
    | assumption
    | apply KeepO.next
    | apply KeepO.ite
    | (extract_lets +onlyGivenNames x; (first | apply KeepO.cut x | apply Keep.cut x); rotate_left; intro _; clear_value x; rotate_right; subst x)
    | (extract_lets +onlyGivenNames x; clear_value x)
    | apply Keep.ite
    | apply Keep.put
    | apply Keep.railsDown
    | (refine Area.sub_trans (b := Touch.execPowerOffPhaseEnd) ?_ har; decide)
    | (refine Area.fld_mono (a := Touch.execPowerOffPhaseEnd) ?_ har; decide)
    | apply Keep.foldl
    | split
    | intro _ _ _
    | intro _ _
    | (refine Keep.rec_rail ?_ ?_; rotate_left; first | assumption | apply Keep.put | apply Keep.railsDown | apply Keep.ite | apply Keep.foldl))

def Touch.execRailPgTimeout : Nat := 0x28000080000000000000084E0000000000000000000000000000000000000000000000180003B0
theorem Keep.execRailPgTimeout {ch : Nat}
    (har : Area.sub Touch.execRailPgTimeout ar = true) (h : Keep ar s t) : KeepO ar s (Machine.execRailPgTimeout ch t) := by
  unfold Machine.execRailPgTimeout
  repeat' (with_reducible first
    | assumption
    | apply KeepO.next
    | apply KeepO.ite
    | (extract_lets +onlyGivenNames x; (first | apply KeepO.cut x | apply Keep.cut x); rotate_left; intro _; clear_value x; rotate_right; subst x)
    | (extract_lets +onlyGivenNames x; clear_value x)
    | apply Keep.ite
    | apply Keep.railFault
    | (refine Area.sub_trans (b := Touch.execRailPgTimeout) ?_ har; decide)
    | split
    | intro _ _ _
    | intro _ _)

def Touch.execStandbyRailSense : Nat := 0x2000000000000000000000000000000000000000000000000000080
theorem Keep.execStandbyRailSense {panelUp : Bool}
    (har : Area.sub Touch.execStandbyRailSense ar = true) (h : Keep ar s t) : KeepO ar s (Machine.execStandbyRailSense panelUp t) := by
  unfold Machine.execStandbyRailSense
  repeat' (with_reducible first
    | assumption
    | apply KeepO.next
    | apply KeepO.ite
    | apply Keep.ite
    | apply Keep.railStandby
    | (refine Area.sub_trans (b := Touch.execStandbyRailSense) ?_ har; decide)
    | split
    | intro _ _ _
    | intro _ _)

def Touch.execRailFaultUv : Nat := 0x28000080000000000000084E0000000000000000000000000000000000000000000000180003B0
theorem Keep.execRailFaultUv {chs : List Nat}
    (har : Area.sub Touch.execRailFaultUv ar = true) (h : Keep ar s t) : KeepO ar s (Machine.execRailFaultUv chs t) := by
  unfold Machine.execRailFaultUv
  repeat' (with_reducible first
    | assumption
    | apply KeepO.next
    | apply KeepO.ite
    | apply Keep.railFault
    | (refine Area.sub_trans (b := Touch.execRailFaultUv) ?_ har; decide)
    | intro _ _ _
    | intro _ _)

def Touch.execCrackTimer : Nat := 0x280000800000000000000F020000000000000000000000000000000000000000000000180003B0
theorem Keep.execCrackTimer {reading : Sys2Proof.CrackRead} {outer : Bool}
    (har : Area.sub Touch.execCrackTimer ar = true) (h : Keep ar s t) : KeepO ar s (Machine.execCrackTimer reading outer t) := by
  unfold Machine.execCrackTimer
  repeat' (with_reducible first
    | assumption
    | (extract_lets +onlyGivenNames x; (first | apply KeepO.cut x | apply Keep.cut x); rotate_left; intro _; clear_value x; rotate_right; subst x)
    | (extract_lets +onlyGivenNames x; refine KeepFst.cut (m := ar) (s := s) x ?_ (fun hx => ?_); rotate_left; clear_value x; obtain ⟨x, y⟩ := x; dsimp -zeta only at hx ⊢; rotate_right; subst x)
    | (extract_lets +onlyGivenNames x; clear_value x)
    | apply KeepO.ite
    | apply Keep.ite
    | split
    | apply KeepO.next
    | apply KeepFst.mk
    | apply KeepFst.ite
    | apply Keep.crackReading
    | apply Keep.crackShutdown
    | (refine KeepFst.of_eq ?_ (by assumption); first | apply Keep.crackReading | apply KeepFst.ite)
    | (apply KeepFst.fst; first | apply Keep.crackReading)
    | (refine Area.sub_trans (b := Touch.execCrackTimer) ?_ har; decide)
    | intro _ _ _
    | intro _ _)

def Touch.execVcomOc : Nat := 0x28000080000000000000088C000000000000000000000000000000000000000000000018000030
theorem Keep.execVcomOc {region : Nat} {sink : Bool}
    (har : Area.sub Touch.execVcomOc ar = true) (h : Keep ar s t) : KeepO ar s (Machine.execVcomOc region sink t) := by
  unfold Machine.execVcomOc
  repeat' (with_reducible first
    | assumption
    | apply KeepO.next
    | apply KeepO.ite
    | apply Keep.ite
    | apply Keep.put
    | apply Keep.putB
    | apply Keep.faultReport
    | (refine Area.sub_trans (b := Touch.execVcomOc) ?_ har; decide)
    | (refine Area.fld_mono (a := Touch.execVcomOc) ?_ har; decide)
    | split
    | intro _ _ _
    | intro _ _)

def Touch.execRailPowerGood : Nat := 0x2800008000000000000008320000000000000000000010000000000000000000000100180802B1
theorem Keep.execRailPowerGood {ch : Nat} {mv : Int} {ma : Nat}
    (har : Area.sub Touch.execRailPowerGood ar = true) (h : Keep ar s t) : KeepO ar s (Machine.execRailPowerGood ch mv ma t) := by
  unfold Machine.execRailPowerGood
  repeat' (with_reducible first
    | assumption
    | apply KeepO.next
    | apply KeepO.ite
    | (extract_lets +onlyGivenNames x; (first | apply KeepO.cut x | apply Keep.cut x); rotate_left; intro _; clear_value x; rotate_right; subst x)
    | (extract_lets +onlyGivenNames x; clear_value x)
    | apply Keep.ite
    | apply Keep.put
    | apply Keep.putI
    | apply Keep.railsUp
    | (refine Area.sub_trans (b := Touch.execRailPowerGood) ?_ har; decide)
    | (refine Area.fld_mono (a := Touch.execRailPowerGood) ?_ har; decide)
    | split
    | intro _ _ _
    | intro _ _
    | (refine Keep.rec_rail ?_ ?_; rotate_left; first | assumption | apply Keep.put | apply Keep.putI | apply Keep.railsUp | apply Keep.ite))

def Touch.execRailFaultOc : Nat := 0x28000080000000000000084E0000000000000000000000000000000000000000000000180003B0
theorem Keep.execRailFaultOc {chs : List Nat}
    (har : Area.sub Touch.execRailFaultOc ar = true) (h : Keep ar s t) : KeepO ar s (Machine.execRailFaultOc chs t) := by
  unfold Machine.execRailFaultOc
  repeat' (with_reducible first
    | assumption
    | apply KeepO.next
    | apply KeepO.ite
    | apply Keep.railFault
    | (refine Area.sub_trans (b := Touch.execRailFaultOc) ?_ har; decide)
    | intro _ _ _
    | intro _ _)

def Touch.execRailFaultOv : Nat := 0x28000080000000000000084E0000000000000000000000000000000000000000000000180003B0
theorem Keep.execRailFaultOv {chs : List Nat}
    (har : Area.sub Touch.execRailFaultOv ar = true) (h : Keep ar s t) : KeepO ar s (Machine.execRailFaultOv chs t) := by
  unfold Machine.execRailFaultOv
  repeat' (with_reducible first
    | assumption
    | apply KeepO.next
    | apply KeepO.ite
    | apply Keep.railFault
    | (refine Area.sub_trans (b := Touch.execRailFaultOv) ?_ har; decide)
    | intro _ _ _
    | intro _ _)

def Touch.execRailFaultTemp : Nat := 0x28000080000000000000084E0000000000000000000000000000000000000000000000180003B0
theorem Keep.execRailFaultTemp {chs : List Nat}
    (har : Area.sub Touch.execRailFaultTemp ar = true) (h : Keep ar s t) : KeepO ar s (Machine.execRailFaultTemp chs t) := by
  unfold Machine.execRailFaultTemp
  repeat' (with_reducible first
    | assumption
    | apply KeepO.next
    | apply KeepO.ite
    | apply Keep.railFault
    | (refine Area.sub_trans (b := Touch.execRailFaultTemp) ?_ har; decide)
    | intro _ _ _
    | intro _ _)

def Touch.execRailFaultShort : Nat := 0x28000080000000000000084E0000000000000000000000000000000000000000000000180003B0
theorem Keep.execRailFaultShort {chs : List Nat}
    (har : Area.sub Touch.execRailFaultShort ar = true) (h : Keep ar s t) : KeepO ar s (Machine.execRailFaultShort chs t) := by
  unfold Machine.execRailFaultShort
  repeat' (with_reducible first
    | assumption
    | apply KeepO.next
    | apply KeepO.ite
    | apply Keep.railFault
    | (refine Area.sub_trans (b := Touch.execRailFaultShort) ?_ har; decide)
    | intro _ _ _
    | intro _ _)

def Touch.execLoadTransferDone : Nat := 0x800000000000000800000000000000000000000000000000000000000000000010000080
theorem Keep.execLoadTransferDone
    (har : Area.sub Touch.execLoadTransferDone ar = true) (h : Keep ar s t) : KeepO ar s (Machine.execLoadTransferDone t) := by
  unfold Machine.execLoadTransferDone
  repeat' (with_reducible first
    | assumption
    | apply KeepO.next
    | apply KeepO.ite
    | (extract_lets +onlyGivenNames x; (first | apply KeepO.cut x | apply Keep.cut x); rotate_left; intro _; clear_value x; rotate_right; subst x)
    | (extract_lets +onlyGivenNames x; clear_value x)
    | apply Keep.ite
    | apply Keep.raise
    | (refine Area.sub_trans (b := Touch.execLoadTransferDone) ?_ har; decide)
    | (refine Area.fld_mono (a := Touch.execLoadTransferDone) ?_ har; decide)
    | split
    | intro _ _ _
    | intro _ _
    | (refine Keep.rec_rail ?_ ?_; rotate_left; first | assumption | apply Keep.raise | apply Keep.ite))

def Touch.execRailConverterCooled : Nat := 0x80
theorem Keep.execRailConverterCooled {ch : Nat}
    (har : Area.sub Touch.execRailConverterCooled ar = true) (h : Keep ar s t) : KeepO ar s (Machine.execRailConverterCooled ch t) := by
  unfold Machine.execRailConverterCooled
  repeat' (with_reducible first
    | assumption
    | apply KeepO.next
    | apply KeepO.ite
    | (extract_lets +onlyGivenNames x; (first | apply KeepO.cut x | apply Keep.cut x); rotate_left; intro _; clear_value x; rotate_right; subst x)
    | (extract_lets +onlyGivenNames x; clear_value x)
    | (refine Area.sub_trans (b := Touch.execRailConverterCooled) ?_ har; decide)
    | (refine Keep.rec_rail ?_ ?_; rotate_left; first | assumption))

def Touch.execRailRetryTimer : Nat := 0x280000800000000000000F020000000000000000000000000000000000000000000100180001F0
theorem Keep.execRailRetryTimer {readings : List Sys2Proof.CrackRead}
    (har : Area.sub Touch.execRailRetryTimer ar = true) (h : Keep ar s t) : KeepO ar s (Machine.execRailRetryTimer readings t) := by
  unfold Machine.execRailRetryTimer
  repeat' (with_reducible first
    | assumption
    | apply KeepO.next
    | apply KeepO.ite
    | apply Keep.ite
    | apply Keep.bump
    | apply Keep.railOn
    | (refine Area.sub_trans (b := Touch.execRailRetryTimer) ?_ har; decide)
    | (refine Area.fld_mono (a := Touch.execRailRetryTimer) ?_ har; decide)
    | split
    | intro _ _ _
    | intro _ _)

def Touch.execRetryCountReset : Nat := 0x2000000000000000000000000000000000000000000000000000000
theorem Keep.execRetryCountReset
    (har : Area.sub Touch.execRetryCountReset ar = true) (h : Keep ar s t) : KeepO ar s (Machine.execRetryCountReset t) := by
  unfold Machine.execRetryCountReset
  repeat' (with_reducible first
    | assumption
    | apply KeepO.next
    | apply KeepO.ite
    | apply Keep.ite
    | apply Keep.put
    | (refine Area.sub_trans (b := Touch.execRetryCountReset) ?_ har; decide)
    | (refine Area.fld_mono (a := Touch.execRetryCountReset) ?_ har; decide)
    | split
    | intro _ _ _
    | intro _ _)

def Touch.execDischargeStart : Nat := 0x2800008000000000000000020000000000000000000000000000000000000000000000180002A0
theorem Keep.execDischargeStart {atLineEnd : Bool}
    (har : Area.sub Touch.execDischargeStart ar = true) (h : Keep ar s t) : KeepO ar s (Machine.execDischargeStart atLineEnd t) := by
  unfold Machine.execDischargeStart
  repeat' (with_reducible first
    | assumption
    | apply KeepO.next
    | apply KeepO.ite
    | (extract_lets +onlyGivenNames x; (first | apply KeepO.cut x | apply Keep.cut x); rotate_left; intro _; clear_value x; rotate_right; subst x)
    | (extract_lets +onlyGivenNames x; clear_value x)
    | apply Keep.ite
    | apply Keep.put
    | apply Keep.dischargeSkip
    | (refine Area.sub_trans (b := Touch.execDischargeStart) ?_ har; decide)
    | (refine Area.fld_mono (a := Touch.execDischargeStart) ?_ har; decide)
    | split
    | intro _ _ _
    | intro _ _
    | (refine Keep.rec_pseq ?_ ?_; rotate_left; first | assumption | apply Keep.put | apply Keep.dischargeSkip | apply Keep.ite)
    | (refine Keep.rec_rail ?_ ?_; rotate_left; first | assumption | apply Keep.put | apply Keep.dischargeSkip | apply Keep.ite))

end Sys2Proof
end

