-- ==== Sys2Proof/Laws/KeepRst.lean ====
section
/-!
SUPPORT. The operations and meanings of Machine/Rst.lean keep what `Keep` says.
-/

namespace Sys2Proof

open Sys2Proof.Machine

variable {ar : Nat} {s t u : Machine.State}

def Touch.coreSource : Nat := 0x280000800000000000000000000000000000000000000000000000000000000000000010000122
theorem Keep.coreSource {flag : Fld} (hf : Area.fld ar flag = true) {cause : Sys2Proof.NoticeCause} {entry : Option Nat}
    (har : Area.sub Touch.coreSource ar = true) (h : Keep ar s t) : Keep ar s (Machine.State.coreSource t flag cause entry) := by
  unfold Machine.State.coreSource
  repeat' (with_reducible first
    | assumption
    | (extract_lets +onlyGivenNames x; (apply Keep.cut x); rotate_left; intro _; clear_value x; rotate_right; subst x)
    | (extract_lets +onlyGivenNames x; have hf : RstState := x; clear hf; subst x)
    | (extract_lets +onlyGivenNames x; clear_value x)
    | apply Keep.ite
    | apply Keep.put
    | apply Keep.sendFail
    | (refine Area.sub_trans (b := Touch.coreSource) ?_ har; decide)
    | split
    | intro _ _ _
    | intro _ _
    | (refine Keep.rec_rst ?_ rfl ?_; rotate_left; first | assumption | apply Keep.put | apply Keep.sendFail | apply Keep.ite))

def Touch.sysSource : Nat := 0x2800008000000000000008020000000000000000000000000000000000000000000040100003A2
theorem Keep.sysSource {flag : Fld} (hf : Area.fld ar flag = true) {cause : Sys2Proof.NoticeCause} {entry : Option Nat}
    (har : Area.sub Touch.sysSource ar = true) (h : Keep ar s t) : Keep ar s (Machine.State.sysSource t flag cause entry) := by
  have h1 : Keep ar s (t.put flag 1) := h.put hf
  have h2 : Keep ar s ((t.put flag 1).put R.RST_CAUSE_LOAD_HELD 1) := h1.put (Area.fld_mono (a := Touch.sysSource) (by decide) har)
  have e : ((t.put flag 1).put R.RST_CAUSE_LOAD_HELD 1).rst.hold = (t.put flag 1).rst.hold := by simp
  unfold Machine.State.sysSource
  dsimp only
  split
  · exact h1
  · exact h1
  · exact Keep.rec_rst (Area.sub_trans (b := Touch.sysSource) (by decide) har) e h2
  · split
    · exact h1
    · exact Keep.rec_rst (Area.sub_trans (b := Touch.sysSource) (by decide) har) rfl (Keep.railOff (lock := false) (Area.sub_trans (b := Touch.sysSource) (by decide) har) (Keep.sendFail (c := cause) (cause := entry) (Area.sub_trans (b := Touch.sysSource) (by decide) har) h1))

def Touch.caretakerSys : Nat := 0x2800008000000000000008020000000000000000000000000000000000000000021C40180043A2
theorem Keep.caretakerSys {off : Nat} {reason : Nat}
    (har : Area.sub Touch.caretakerSys ar = true) (h : Keep ar s t) : Keep ar s (Machine.State.caretakerSys t off reason) := by
  unfold Machine.State.caretakerSys
  repeat' (with_reducible first
    | assumption
    | apply Keep.recOther
    | apply Keep.notice
    | apply Keep.sysSource
    | (refine Area.sub_trans (b := Touch.caretakerSys) ?_ har; decide)
    | (refine Area.fld_mono (a := Touch.caretakerSys) ?_ har; decide)
    | intro _ _ _
    | intro _ _)

end Sys2Proof
end

