-- ==== Sys2Proof/Laws/KeepMesh.lean ====
section
/-!
SUPPORT. The operations and meanings of Machine/Mesh.lean keep what `Keep` says.
-/

namespace Sys2Proof

open Sys2Proof.Machine

variable {ar : Nat} {s t u : Machine.State}

def Touch.setFetch : Nat := 0x2000
theorem Keep.setFetch {p : Nat} {f : FetchPt}
    (har : Area.sub Touch.setFetch ar = true) (h : Keep ar s t) : Keep ar s (Machine.State.setFetch t p f) := by
  unfold Machine.State.setFetch
  repeat' (with_reducible first
    | assumption
    | (extract_lets +onlyGivenNames x; (apply Keep.cut x); rotate_left; intro _; clear_value x; rotate_right; subst x)
    | (extract_lets +onlyGivenNames x; clear_value x)
    | (refine Area.sub_trans (b := Touch.setFetch) ?_ har; decide)
    | (refine Keep.rec_fab ?_ ?_; rotate_left; first | assumption))

def Touch.fetchRequest : Nat := 0x2000
theorem Keep.fetchRequest {p : Nat} {src : Nat} {tok : Sys2Proof.Token}
    (har : Area.sub Touch.fetchRequest ar = true) (h : Keep ar s t) : Keep ar s (Machine.State.fetchRequest t p src tok) := by
  unfold Machine.State.fetchRequest
  repeat' (with_reducible first
    | assumption
    | (extract_lets +onlyGivenNames x; (apply Keep.cut x); rotate_left; intro _; clear_value x; rotate_right; subst x)
    | (extract_lets +onlyGivenNames x; clear_value x)
    | apply Keep.ite
    | apply Keep.setFetch
    | (refine Area.sub_trans (b := Touch.fetchRequest) ?_ har; decide)
    | split
    | intro _ _ _
    | intro _ _)

def Touch.travel : Nat := 0x2000
theorem Keep.travel {src : Nat} {start : Nat} {r : RoutePort} {tok : Sys2Proof.Token}
    (har : Area.sub Touch.travel ar = true) (h : Keep ar s t) : Keep ar s (Machine.State.travel t src start r tok) := by
  unfold Machine.State.travel
  repeat' (with_reducible first
    | assumption
    | (extract_lets +onlyGivenNames x; (apply Keep.cut x); rotate_left; intro _; clear_value x; rotate_right; subst x)
    | (extract_lets +onlyGivenNames x; clear_value x)
    | apply Keep.ite
    | apply Keep.fetchRequest
    | (refine Area.sub_trans (b := Touch.travel) ?_ har; decide)
    | split
    | intro _ _ _
    | intro _ _
    | (refine Keep.rec_fab ?_ ?_; rotate_left; first | assumption | apply Keep.fetchRequest | apply Keep.ite))

def Touch.sendToken : Nat := 0x10002000
theorem Keep.sendToken {n : Nat} {p : Plane} {port : Nat} {tok : Sys2Proof.Token}
    (har : Area.sub Touch.sendToken ar = true) (h : Keep ar s t) : KeepSome ar s (Machine.State.sendToken t n p port tok) := by
  unfold Machine.State.sendToken
  repeat' (with_reducible first
    | assumption
    | apply KeepSome.some
    | exact KeepSome.none
    | apply KeepSome.ite
    | (extract_lets +onlyGivenNames x; (first | apply KeepSome.cut1 x | apply Keep.cut x); rotate_left; intro _; clear_value x; rotate_right; subst x)
    | (extract_lets +onlyGivenNames x; have hf : (∀ z, x z = x z) := fun _ => rfl; clear hf; subst x; try dsimp -zeta only)
    | (extract_lets +onlyGivenNames x; clear_value x)
    | apply Keep.ite
    | apply Keep.emit
    | apply Keep.travel
    | (refine Area.sub_trans (b := Touch.sendToken) ?_ har; decide)
    | dsimp -zeta only
    | split
    | intro _ _ _
    | intro _ _)

def Touch.setTile : Nat := 0x2000
theorem Keep.setTile {n : Nat} {a2 : TileRt}
    (har : Area.sub Touch.setTile ar = true) (h : Keep ar s t) : Keep ar s (Machine.State.setTile t n a2) := by
  unfold Machine.State.setTile
  repeat' (with_reducible first
    | assumption
    | (extract_lets +onlyGivenNames x; (apply Keep.cut x); rotate_left; intro _; clear_value x; rotate_right; subst x)
    | (extract_lets +onlyGivenNames x; clear_value x)
    | (refine Area.sub_trans (b := Touch.setTile) ?_ har; decide)
    | (refine Keep.rec_fab ?_ ?_; rotate_left; first | assumption))

def Touch.sendQueued : Nat := 0x2000
theorem Keep.sendQueued {n : Nat} {r : RoutePort} {tok : Sys2Proof.Token}
    (har : Area.sub Touch.sendQueued ar = true) (h : Keep ar s t) : Keep ar s (Machine.State.sendQueued t n r tok) := by
  unfold Machine.State.sendQueued
  repeat' (with_reducible first
    | assumption
    | (extract_lets +onlyGivenNames x; (apply Keep.cut x); rotate_left; intro _; clear_value x; rotate_right; subst x)
    | (extract_lets +onlyGivenNames x; have hf : (∀ z, x z = x z) := fun _ => rfl; clear hf; subst x; try dsimp -zeta only)
    | (extract_lets +onlyGivenNames x; clear_value x)
    | apply Keep.ite
    | apply Keep.travel
    | apply Keep.setTile
    | (refine Area.sub_trans (b := Touch.sendQueued) ?_ har; decide)
    | dsimp -zeta only
    | split
    | intro _ _ _
    | intro _ _)

def Touch.sendFabric : Nat := 0x2000
theorem Keep.sendFabric {n : Nat} {p : Plane} {tag : Nat} {payload : Nat}
    (har : Area.sub Touch.sendFabric ar = true) (h : Keep ar s t) : Keep ar s (Machine.State.sendFabric t n p tag payload) := by
  unfold Machine.State.sendFabric
  repeat' (with_reducible first
    | assumption
    | apply Keep.sendQueued
    | (refine Area.sub_trans (b := Touch.sendFabric) ?_ har; decide)
    | apply Keep.foldl
    | intro _ _ _
    | intro _ _)

def Touch.land : Nat := 0x2000
theorem Keep.land {f : Flit}
    (har : Area.sub Touch.land ar = true) (h : Keep ar s t) : Keep ar s (Machine.State.land t f) := by
  unfold Machine.State.land
  repeat' (with_reducible first
    | assumption
    | (extract_lets +onlyGivenNames x; (apply Keep.cut x); rotate_left; intro _; clear_value x; rotate_right; subst x)
    | (extract_lets +onlyGivenNames x; clear_value x)
    | apply Keep.ite
    | apply Keep.setTile
    | (refine Area.sub_trans (b := Touch.land) ?_ har; decide)
    | split
    | intro _ _ _
    | intro _ _)

def Touch.arrive : Nat := 0x2000
theorem Keep.arrive {n : Nat} {port : Nat} {ok : Sys2Proof.Token → Bool}
    (har : Area.sub Touch.arrive ar = true) (h : Keep ar s t) : KeepSome ar s (Machine.State.arrive t n port ok) := by
  unfold Machine.State.arrive
  repeat' (with_reducible first
    | assumption
    | apply KeepSome.some
    | exact KeepSome.none
    | apply KeepSome.ite
    | (extract_lets +onlyGivenNames x; (first | apply KeepSome.cut1 x | apply Keep.cut x); rotate_left; intro _; clear_value x; rotate_right; subst x)
    | (extract_lets +onlyGivenNames x; have hf : (∀ z, x z = x z) := fun _ => rfl; clear hf; subst x; try dsimp -zeta only)
    | (extract_lets +onlyGivenNames x; clear_value x)
    | apply Keep.ite
    | apply Keep.land
    | (refine Area.sub_trans (b := Touch.arrive) ?_ har; decide)
    | dsimp -zeta only
    | split
    | intro _ _ _
    | intro _ _
    | (refine Keep.rec_fab ?_ ?_; rotate_left; first | assumption | apply Keep.land | apply Keep.ite))

def Touch.fetchSend : Nat := 0x2000
theorem Keep.fetchSend {p : Nat} {r : RoutePort} {tok : Sys2Proof.Token}
    (har : Area.sub Touch.fetchSend ar = true) (h : Keep ar s t) : Keep ar s (Machine.State.fetchSend t p r tok) := by
  unfold Machine.State.fetchSend
  repeat' (with_reducible first
    | assumption
    | (extract_lets +onlyGivenNames x; (apply Keep.cut x); rotate_left; intro _; clear_value x; rotate_right; subst x)
    | (extract_lets +onlyGivenNames x; have hf : (∀ z, x z = x z) := fun _ => rfl; clear hf; subst x; try dsimp -zeta only)
    | (extract_lets +onlyGivenNames x; clear_value x)
    | apply Keep.ite
    | apply Keep.setFetch
    | apply Keep.travel
    | (refine Area.sub_trans (b := Touch.fetchSend) ?_ har; decide)
    | dsimp -zeta only
    | split
    | intro _ _ _
    | intro _ _)

def Touch.fetchMark : Nat := 0x2000
theorem Keep.fetchMark {p : Nat} {tag : Nat} {payload : Nat} {sf : Nat}
    (har : Area.sub Touch.fetchMark ar = true) (h : Keep ar s t) : Keep ar s (Machine.State.fetchMark t p tag payload sf) := by
  unfold Machine.State.fetchMark
  repeat' (with_reducible first
    | assumption
    | (extract_lets +onlyGivenNames x; (apply Keep.cut x); rotate_left; intro _; clear_value x; rotate_right; subst x)
    | (extract_lets +onlyGivenNames x; have hf : (∀ z, x z = x z) := fun _ => rfl; clear hf; subst x; try dsimp -zeta only)
    | (extract_lets +onlyGivenNames x; clear_value x)
    | apply Keep.ite
    | apply Keep.setFetch
    | apply Keep.fetchSend
    | (refine Area.sub_trans (b := Touch.fetchMark) ?_ har; decide)
    | apply Keep.foldl
    | dsimp -zeta only
    | split
    | intro _ _ _
    | intro _ _)

def Touch.fetchMarks : Nat := 0x2000
theorem Keep.fetchMarks {p : Nat} {a2 : Nat}
    (har : Area.sub Touch.fetchMarks ar = true) (h : Keep ar s t) : Keep ar s (Machine.State.fetchMarks t p a2) := by
  induction a2 generalizing t with
  | zero => exact h
  | succ k ih =>
    unfold Machine.State.fetchMarks
    split
    · exact ih (Keep.fetchMark (Area.sub_trans (b := Touch.fetchMarks) (by decide) har) (Keep.setFetch (Area.sub_trans (b := Touch.fetchMarks) (by decide) har) h))
    · exact h

def Touch.fetchRun : Nat := 0x2000
theorem Keep.fetchRun {p : Nat}
    (har : Area.sub Touch.fetchRun ar = true) (h : Keep ar s t) : Keep ar s (Machine.State.fetchRun t p) := by
  unfold Machine.State.fetchRun
  repeat' (with_reducible first
    | assumption
    | (extract_lets +onlyGivenNames x; (apply Keep.cut x); rotate_left; intro _; clear_value x; rotate_right; subst x)
    | (extract_lets +onlyGivenNames x; have hf : (∀ z, x z = x z) := fun _ => rfl; clear hf; subst x; try dsimp -zeta only)
    | (extract_lets +onlyGivenNames x; clear_value x)
    | apply Keep.setFetch
    | apply Keep.fetchSend
    | apply Keep.fetchMarks
    | (refine Area.sub_trans (b := Touch.fetchRun) ?_ har; decide)
    | apply Keep.foldl
    | dsimp -zeta only
    | intro _ _ _
    | intro _ _)

def Touch.sourceTokens : Nat := 0x10002000
theorem Keep.sourceTokens {tag : Nat} {payload : Nat} {sf : Nat}
    (har : Area.sub Touch.sourceTokens ar = true) (h : Keep ar s t) : Keep ar s (Machine.State.sourceTokens t tag payload sf) := by
  unfold Machine.State.sourceTokens
  repeat' (with_reducible first
    | assumption
    | (extract_lets +onlyGivenNames x; (apply Keep.cut x); rotate_left; intro _; clear_value x; rotate_right; subst x)
    | (extract_lets +onlyGivenNames x; have hf : (∀ z, x z = x z) := fun _ => rfl; clear hf; subst x; try dsimp -zeta only)
    | (extract_lets +onlyGivenNames x; clear_value x)
    | apply Keep.ite
    | apply Keep.emit
    | apply Keep.setFetch
    | apply Keep.fetchRun
    | (refine Area.sub_trans (b := Touch.sourceTokens) ?_ har; decide)
    | apply Keep.foldl
    | dsimp -zeta only
    | split
    | intro _ _ _
    | intro _ _)

def Touch.fetchPoison : Nat := 0x2000
theorem Keep.fetchPoison {p : Nat}
    (har : Area.sub Touch.fetchPoison ar = true) (h : Keep ar s t) : Keep ar s (Machine.State.fetchPoison t p) := by
  unfold Machine.State.fetchPoison
  repeat' (with_reducible first
    | assumption
    | (extract_lets +onlyGivenNames x; (apply Keep.cut x); rotate_left; intro _; clear_value x; rotate_right; subst x)
    | (extract_lets +onlyGivenNames x; have hf : (∀ z, x z = x z) := fun _ => rfl; clear hf; subst x; try dsimp -zeta only)
    | (extract_lets +onlyGivenNames x; clear_value x)
    | apply Keep.ite
    | apply Keep.setFetch
    | (refine Area.sub_trans (b := Touch.fetchPoison) ?_ har; decide)
    | dsimp -zeta only
    | split
    | intro _ _ _
    | intro _ _)

def Touch.fetchReply : Nat := 0x2000
theorem Keep.fetchReply {n : Nat} {port : Nat} {p : Nat} {tok : Sys2Proof.Token} {last : Bool}
    (har : Area.sub Touch.fetchReply ar = true) (h : Keep ar s t) : KeepSome ar s (Machine.State.fetchReply t n port p tok last) := by
  unfold Machine.State.fetchReply
  repeat' (with_reducible first
    | assumption
    | apply KeepSome.some
    | exact KeepSome.none
    | apply KeepSome.ite
    | (extract_lets +onlyGivenNames x; (first | apply KeepSome.cut1 x | apply Keep.cut x); rotate_left; intro _; clear_value x; rotate_right; subst x)
    | (extract_lets +onlyGivenNames x; have hf : (∀ z, x z = x z) := fun _ => rfl; clear hf; subst x; try dsimp -zeta only)
    | (extract_lets +onlyGivenNames x; clear_value x)
    | apply Keep.ite
    | apply Keep.setFetch
    | apply Keep.travel
    | apply Keep.fetchRun
    | (refine Area.sub_trans (b := Touch.fetchReply) ?_ har; decide)
    | dsimp -zeta only
    | split
    | intro _ _ _
    | intro _ _)

def Touch.flushOut : Nat := 0x2000
theorem Keep.flushOut {n : Nat}
    (har : Area.sub Touch.flushOut ar = true) (h : Keep ar s t) : Keep ar s (Machine.State.flushOut t n) := by
  unfold Machine.State.flushOut
  repeat' (with_reducible first
    | assumption
    | (extract_lets +onlyGivenNames x; (apply Keep.cut x); rotate_left; intro _; clear_value x; rotate_right; subst x)
    | (extract_lets +onlyGivenNames x; have hf : (∀ z, x z = x z) := fun _ => rfl; clear hf; subst x; try dsimp -zeta only)
    | (extract_lets +onlyGivenNames x; clear_value x)
    | apply Keep.setTile
    | apply Keep.sendQueued
    | (refine Area.sub_trans (b := Touch.flushOut) ?_ har; decide)
    | apply Keep.foldl
    | dsimp -zeta only
    | intro _ _ _
    | intro _ _)

end Sys2Proof
end

