-- ==== Sys2Proof/Laws/KeepPers.lean ====
section
/-!
SUPPORT. The operations and meanings of Machine/Pers.lean keep what `Keep` says.
-/

namespace Sys2Proof

open Sys2Proof.Machine

variable {ar : Nat} {s t u : Machine.State}

def Touch.putMig : Nat := 0x200000000000000000000002000
theorem Keep.putMig {m : Mig}
    (har : Area.sub Touch.putMig ar = true) (h : Keep ar s t) : Keep ar s (Machine.State.putMig t m) := by
  unfold Machine.State.putMig
  repeat' (with_reducible first
    | assumption
    | (extract_lets +onlyGivenNames x; (apply Keep.cut x); rotate_left; intro _; clear_value x; rotate_right; subst x)
    | (extract_lets +onlyGivenNames x; have hf : (∀ z, x z = x z) := fun _ => rfl; clear hf; subst x; try dsimp -zeta only)
    | (extract_lets +onlyGivenNames x; clear_value x)
    | apply Keep.put
    | (refine Area.sub_trans (b := Touch.putMig) ?_ har; decide)
    | (refine Area.fld_mono (a := Touch.putMig) ?_ har; decide)
    | dsimp -zeta only
    | intro _ _ _
    | intro _ _
    | (refine Keep.rec_fab ?_ ?_; rotate_left; first | assumption | apply Keep.put))

def Touch.applyBudgets : Nat := 0xC000000000000000000000000
theorem Keep.applyBudgets
    (har : Area.sub Touch.applyBudgets ar = true) (h : Keep ar s t) : Keep ar s (Machine.State.applyBudgets t) := by
  unfold Machine.State.applyBudgets
  repeat' (with_reducible first
    | assumption
    | apply Keep.ite
    | apply Keep.put
    | (refine Area.sub_trans (b := Touch.applyBudgets) ?_ har; decide)
    | (refine Area.fld_mono (a := Touch.applyBudgets) ?_ har; decide)
    | apply Keep.foldl
    | split
    | intro _ _ _
    | intro _ _)

def Touch.recheckDegraded : Nat := 0x20C000000000000000000000000
theorem Keep.recheckDegraded
    (har : Area.sub Touch.recheckDegraded ar = true) (h : Keep ar s t) : Keep ar s (Machine.State.recheckDegraded t) := by
  unfold Machine.State.recheckDegraded
  repeat' (with_reducible first
    | assumption
    | (extract_lets +onlyGivenNames x; (apply Keep.cut x); rotate_left; intro _; clear_value x; rotate_right; subst x)
    | (extract_lets +onlyGivenNames x; have hf : (∀ z, x z = x z) := fun _ => rfl; clear hf; subst x; try dsimp -zeta only)
    | (extract_lets +onlyGivenNames x; clear_value x)
    | apply Keep.ite
    | apply Keep.put
    | apply Keep.applyBudgets
    | (refine Area.sub_trans (b := Touch.recheckDegraded) ?_ har; decide)
    | (refine Area.fld_mono (a := Touch.recheckDegraded) ?_ har; decide)
    | dsimp -zeta only
    | split
    | intro _ _ _
    | intro _ _)

def Touch.backToService : Nat := 0x400000000000000000000000
theorem Keep.backToService {n : Nat}
    (har : Area.sub Touch.backToService ar = true) (h : Keep ar s t) : Keep ar s (Machine.State.backToService t n) := by
  unfold Machine.State.backToService
  repeat' (with_reducible first
    | assumption
    | apply Keep.ite
    | apply Keep.put
    | (refine Area.sub_trans (b := Touch.backToService) ?_ har; decide)
    | (refine Area.fld_mono (a := Touch.backToService) ?_ har; decide)
    | split
    | intro _ _ _
    | intro _ _)

def Touch.fabricFatal : Nat := 0x280000800000000000000000000000000000000000000000000000000000000000004010000122
theorem Keep.fabricFatal {entry : Option Nat}
    (har : Area.sub Touch.fabricFatal ar = true) (h : Keep ar s t) : Keep ar s (Machine.State.fabricFatal t entry) := by
  unfold Machine.State.fabricFatal
  repeat' (with_reducible first
    | assumption
    | (extract_lets +onlyGivenNames x; (apply Keep.cut x); rotate_left; intro _; clear_value x; rotate_right; subst x)
    | (extract_lets +onlyGivenNames x; have hf : RstState := x; clear hf; subst x)
    | (extract_lets +onlyGivenNames x; clear_value x)
    | apply Keep.coreSource
    | (refine Area.sub_trans (b := Touch.fabricFatal) ?_ har; decide)
    | (refine Area.fld_mono (a := Touch.fabricFatal) ?_ har; decide)
    | intro _ _ _
    | intro _ _
    | (refine Keep.rec_rst ?_ rfl ?_; rotate_left; first | assumption | apply Keep.coreSource))

def Touch.sparesOut : Nat := 0x280000800000000000000000000000000000000000000000001A0C400000000000004010002132
theorem Keep.sparesOut {n : Nat} {cause : Nat} {entry : Option Nat} {injected : Bool}
    (har : Area.sub Touch.sparesOut ar = true) (h : Keep ar s t) : Keep ar s (Machine.State.sparesOut t n cause entry injected) := by
  unfold Machine.State.sparesOut
  repeat' (with_reducible first
    | assumption
    | (extract_lets +onlyGivenNames x; (apply Keep.cut x); rotate_left; intro _; clear_value x; rotate_right; subst x)
    | (extract_lets +onlyGivenNames x; clear_value x)
    | apply Keep.ite
    | apply Keep.put
    | apply Keep.setTile
    | apply Keep.applyBudgets
    | apply Keep.raise
    | apply Keep.offerFull
    | apply Keep.sendFail
    | apply Keep.alert
    | apply Keep.backToService
    | apply Keep.fabricFatal
    | (refine Area.sub_trans (b := Touch.sparesOut) ?_ har; decide)
    | (refine Area.fld_mono (a := Touch.sparesOut) ?_ har; decide)
    | split
    | intro _ _ _
    | intro _ _)

def Touch.migStart : Nat := 0x280000800000000000000000000000000000000000000000001A0C400000000000004010002132
theorem Keep.migStart {n : Nat} {cause : Nat} {entry : Option Nat} {injected : Bool} {noMerge : Bool}
    (har : Area.sub Touch.migStart ar = true) (h : Keep ar s t) : Keep ar s (Machine.State.migStart t n cause entry injected noMerge) := by
  unfold Machine.State.migStart
  repeat' (with_reducible first
    | assumption
    | (extract_lets +onlyGivenNames x; (apply Keep.cut x); rotate_left; intro _; clear_value x; rotate_right; subst x)
    | (extract_lets +onlyGivenNames x; clear_value x)
    | apply Keep.ite
    | apply Keep.put
    | apply Keep.putMig
    | apply Keep.offerFull
    | apply Keep.sparesOut
    | (refine Area.sub_trans (b := Touch.migStart) ?_ har; decide)
    | (refine Area.fld_mono (a := Touch.migStart) ?_ har; decide)
    | split
    | intro _ _ _
    | intro _ _)

def Touch.dropStaging : Nat := 0x10100000000000000001000
theorem Keep.dropStaging
    (har : Area.sub Touch.dropStaging ar = true) (h : Keep ar s t) : Keep ar s (Machine.State.dropStaging t) := by
  unfold Machine.State.dropStaging
  repeat' (with_reducible first
    | assumption
    | (extract_lets +onlyGivenNames x; (apply Keep.cut x); rotate_left; intro _; clear_value x; rotate_right; subst x)
    | (extract_lets +onlyGivenNames x; clear_value x)
    | apply Keep.ite
    | apply Keep.put
    | (refine Area.sub_trans (b := Touch.dropStaging) ?_ har; decide)
    | (refine Area.fld_mono (a := Touch.dropStaging) ?_ har; decide)
    | split
    | intro _ _ _
    | intro _ _
    | (refine Keep.rec_pers ?_ ?_; rotate_left; first | assumption | apply Keep.put | apply Keep.ite))

def Touch.actRefuse : Nat := 0x2800008000000000000000000000000000000000000000000000000012000000027C0018004120
theorem Keep.actRefuse {slot : Nat} {code : Nat}
    (har : Area.sub Touch.actRefuse ar = true) (h : Keep ar s t) : Keep ar s (Machine.State.actRefuse t slot code) := by
  unfold Machine.State.actRefuse
  repeat' (with_reducible first
    | assumption
    | (extract_lets +onlyGivenNames x; (apply Keep.cut x); rotate_left; intro _; clear_value x; rotate_right; subst x)
    | (extract_lets +onlyGivenNames x; clear_value x)
    | apply Keep.put
    | apply Keep.bump
    | apply Keep.raise
    | apply Keep.cmdEndIf
    | (refine Area.sub_trans (b := Touch.actRefuse) ?_ har; decide)
    | (refine Area.fld_mono (a := Touch.actRefuse) ?_ har; decide)
    | intro _ _ _
    | intro _ _)

def Touch.setPend : Nat := 0x100000000000000001000
theorem Keep.setPend {p : Option PendAct}
    (har : Area.sub Touch.setPend ar = true) (h : Keep ar s t) : Keep ar s (Machine.State.setPend t p) := by
  unfold Machine.State.setPend
  repeat' (with_reducible first
    | assumption
    | (extract_lets +onlyGivenNames x; (apply Keep.cut x); rotate_left; intro _; clear_value x; rotate_right; subst x)
    | (extract_lets +onlyGivenNames x; clear_value x)
    | apply Keep.put
    | (refine Area.sub_trans (b := Touch.setPend) ?_ har; decide)
    | (refine Area.fld_mono (a := Touch.setPend) ?_ har; decide)
    | split
    | intro _ _ _
    | intro _ _
    | (refine Keep.rec_pers ?_ ?_; rotate_left; first | assumption | apply Keep.put))

def Touch.actRefuseOn : Nat := 0x2800008000000000000000000000000000000000000000000000000013000000027C0018005120
theorem Keep.actRefuseOn {slot : Nat} {code : Nat}
    (har : Area.sub Touch.actRefuseOn ar = true) (h : Keep ar s t) : Keep ar s (Machine.State.actRefuseOn t slot code) := by
  unfold Machine.State.actRefuseOn
  repeat' (with_reducible first
    | assumption
    | apply Keep.ite
    | apply Keep.actRefuse
    | apply Keep.setPend
    | (refine Area.sub_trans (b := Touch.actRefuseOn) ?_ har; decide)
    | split
    | intro _ _ _
    | intro _ _)

def Touch.dropMig : Nat := 0x200000000000000000000002000
theorem Keep.dropMig {n : Nat}
    (har : Area.sub Touch.dropMig ar = true) (h : Keep ar s t) : Keep ar s (Machine.State.dropMig t n) := by
  unfold Machine.State.dropMig
  repeat' (with_reducible first
    | assumption
    | (extract_lets +onlyGivenNames x; (apply Keep.cut x); rotate_left; intro _; clear_value x; rotate_right; subst x)
    | (extract_lets +onlyGivenNames x; have hf : (∀ z, x z = x z) := fun _ => rfl; clear hf; subst x; try dsimp -zeta only)
    | (extract_lets +onlyGivenNames x; clear_value x)
    | apply Keep.putB
    | (refine Area.sub_trans (b := Touch.dropMig) ?_ har; decide)
    | (refine Area.fld_mono (a := Touch.dropMig) ?_ har; decide)
    | dsimp -zeta only
    | intro _ _ _
    | intro _ _
    | (refine Keep.rec_fab ?_ ?_; rotate_left; first | assumption | apply Keep.putB))

def Touch.startDeferred : Nat := 0x280000800000000000000000000000000000000000000000001A0C400000000000004010002132
theorem Keep.startDeferred
    (har : Area.sub Touch.startDeferred ar = true) (h : Keep ar s t) : Keep ar s (Machine.State.startDeferred t) := by
  unfold Machine.State.startDeferred
  repeat' (with_reducible first
    | assumption
    | apply Keep.migStart
    | apply Keep.dropMig
    | (refine Area.sub_trans (b := Touch.startDeferred) ?_ har; decide)
    | apply Keep.foldl
    | intro _ _ _
    | intro _ _)

def Touch.preloadBegin : Nat := 0x10100000000000000001000
theorem Keep.preloadBegin {slot : Nat}
    (har : Area.sub Touch.preloadBegin ar = true) (h : Keep ar s t) : Keep ar s (Machine.State.preloadBegin t slot) := by
  unfold Machine.State.preloadBegin
  repeat' (with_reducible first
    | assumption
    | (extract_lets +onlyGivenNames x; (apply Keep.cut x); rotate_left; intro _; clear_value x; rotate_right; subst x)
    | (extract_lets +onlyGivenNames x; clear_value x)
    | apply Keep.put
    | apply Keep.dropStaging
    | (refine Area.sub_trans (b := Touch.preloadBegin) ?_ har; decide)
    | (refine Area.fld_mono (a := Touch.preloadBegin) ?_ har; decide)
    | intro _ _ _
    | intro _ _)

def Touch.preloadAbandon : Nat := 0x280000800000000000000000000000000000000000000000001A0C4117000000027C4018007132
theorem Keep.preloadAbandon {n : Nat} {entry : Option Nat} {injected : Bool}
    (har : Area.sub Touch.preloadAbandon ar = true) (h : Keep ar s t) : Keep ar s (Machine.State.preloadAbandon t n entry injected) := by
  unfold Machine.State.preloadAbandon
  repeat' (with_reducible first
    | assumption
    | (extract_lets +onlyGivenNames x; (apply Keep.cut x); rotate_left; intro _; clear_value x; rotate_right; subst x)
    | (extract_lets +onlyGivenNames x; clear_value x)
    | apply Keep.ite
    | apply Keep.bump
    | apply Keep.raise
    | apply Keep.offerFull
    | apply Keep.dropStaging
    | apply Keep.actRefuseOn
    | apply Keep.startDeferred
    | apply Keep.preloadBegin
    | (refine Area.sub_trans (b := Touch.preloadAbandon) ?_ har; decide)
    | (refine Area.fld_mono (a := Touch.preloadAbandon) ?_ har; decide)
    | split
    | intro _ _ _
    | intro _ _)

def Touch.migTrigger : Nat := 0x280000800000000000000000000000000000000000000000001A0C4117000000027C4018007132
theorem Keep.migTrigger {n : Nat} {cause : Nat} {entry : Option Nat} {injected : Bool}
    (har : Area.sub Touch.migTrigger ar = true) (h : Keep ar s t) : Keep ar s (Machine.State.migTrigger t n cause entry injected) := by
  unfold Machine.State.migTrigger
  repeat' (with_reducible first
    | assumption
    | (extract_lets +onlyGivenNames x; (apply Keep.cut x); rotate_left; intro _; clear_value x; rotate_right; subst x)
    | (extract_lets +onlyGivenNames x; clear_value x)
    | apply Keep.ite
    | apply Keep.bump
    | apply Keep.putMig
    | apply Keep.offerFull
    | apply Keep.migStart
    | apply Keep.preloadAbandon
    | (refine Area.sub_trans (b := Touch.migTrigger) ?_ har; decide)
    | (refine Area.fld_mono (a := Touch.migTrigger) ?_ har; decide)
    | split
    | intro _ _ _
    | intro _ _)

def Touch.healthUpdate : Nat := 0x280000800000000000000000000000000000000000000000001A0CC117000000027C4018007132
theorem Keep.healthUpdate {n : Nat}
    (har : Area.sub Touch.healthUpdate ar = true) (h : Keep ar s t) : Keep ar s (Machine.State.healthUpdate t n) := by
  unfold Machine.State.healthUpdate
  repeat' (with_reducible first
    | assumption
    | (extract_lets +onlyGivenNames x; (apply Keep.cut x); rotate_left; intro _; clear_value x; rotate_right; subst x)
    | (extract_lets +onlyGivenNames x; clear_value x)
    | apply Keep.ite
    | apply Keep.put
    | apply Keep.setTile
    | apply Keep.recheckDegraded
    | apply Keep.migTrigger
    | (refine Area.sub_trans (b := Touch.healthUpdate) ?_ har; decide)
    | (refine Area.fld_mono (a := Touch.healthUpdate) ?_ har; decide)
    | split
    | intro _ _ _
    | intro _ _)

def Touch.setStat : Nat := 0x400000000000000000000000
theorem Keep.setStat {n : Nat} {st : Nat} {func : Nat} {cls : Nat}
    (har : Area.sub Touch.setStat ar = true) (h : Keep ar s t) : Keep ar s (Machine.State.setStat t n st func cls) := by
  unfold Machine.State.setStat
  repeat' (with_reducible first
    | assumption
    | apply Keep.put
    | (refine Area.sub_trans (b := Touch.setStat) ?_ har; decide)
    | (refine Area.fld_mono (a := Touch.setStat) ?_ har; decide)
    | intro _ _ _
    | intro _ _)

def Touch.lmInit : Nat := 0x2000
theorem Keep.lmInit {n : Nat} {p : Plane}
    (har : Area.sub Touch.lmInit ar = true) (h : Keep ar s t) : Keep ar s (Machine.State.lmInit t n p) := by
  unfold Machine.State.lmInit
  repeat' (with_reducible first
    | assumption
    | (extract_lets +onlyGivenNames x; (apply Keep.cut x); rotate_left; intro _; clear_value x; rotate_right; subst x)
    | (extract_lets +onlyGivenNames x; have hf : (∀ z, x z = x z) := fun _ => rfl; clear hf; subst x; try dsimp -zeta only)
    | (extract_lets +onlyGivenNames x; clear_value x)
    | apply Keep.setTile
    | (refine Area.sub_trans (b := Touch.lmInit) ?_ har; decide)
    | apply Keep.foldl
    | dsimp -zeta only
    | intro _ _ _
    | intro _ _)

def Touch.countTiles : Nat := 0x200000000000000000000000000
theorem Keep.countTiles
    (har : Area.sub Touch.countTiles ar = true) (h : Keep ar s t) : Keep ar s (Machine.State.countTiles t) := by
  unfold Machine.State.countTiles
  repeat' (with_reducible first
    | assumption
    | apply Keep.put
    | (refine Area.sub_trans (b := Touch.countTiles) ?_ har; decide)
    | (refine Area.fld_mono (a := Touch.countTiles) ?_ har; decide)
    | intro _ _ _
    | intro _ _)

def Touch.countSpares : Nat := 0x100000000000000000000
theorem Keep.countSpares
    (har : Area.sub Touch.countSpares ar = true) (h : Keep ar s t) : Keep ar s (Machine.State.countSpares t) := by
  unfold Machine.State.countSpares
  repeat' (with_reducible first
    | assumption
    | apply Keep.ite
    | apply Keep.put
    | (refine Area.sub_trans (b := Touch.countSpares) ?_ har; decide)
    | (refine Area.fld_mono (a := Touch.countSpares) ?_ har; decide)
    | split
    | intro _ _ _
    | intro _ _)

def Touch.retire : Nat := 0x200400100000000000000002000
theorem Keep.retire {n : Nat}
    (har : Area.sub Touch.retire ar = true) (h : Keep ar s t) : Keep ar s (Machine.State.retire t n) := by
  unfold Machine.State.retire
  repeat' (with_reducible first
    | assumption
    | (extract_lets +onlyGivenNames x; (apply Keep.cut x); rotate_left; intro _; clear_value x; rotate_right; subst x)
    | (extract_lets +onlyGivenNames x; clear_value x)
    | apply Keep.ite
    | apply Keep.put
    | apply Keep.setTile
    | apply Keep.setStat
    | apply Keep.countTiles
    | apply Keep.countSpares
    | (refine Area.sub_trans (b := Touch.retire) ?_ har; decide)
    | (refine Area.fld_mono (a := Touch.retire) ?_ har; decide)
    | split
    | intro _ _ _
    | intro _ _)

def Touch.noteMove : Nat := 0x1000
theorem Keep.noteMove {n : Nat} {m : Nat}
    (har : Area.sub Touch.noteMove ar = true) (h : Keep ar s t) : Keep ar s (Machine.State.noteMove t n m) := by
  unfold Machine.State.noteMove
  repeat' (with_reducible first
    | assumption
    | (extract_lets +onlyGivenNames x; (apply Keep.cut x); rotate_left; intro _; clear_value x; rotate_right; subst x)
    | (extract_lets +onlyGivenNames x; have hf : (∀ z, x z = x z) := fun _ => rfl; clear hf; subst x; try dsimp -zeta only)
    | (extract_lets +onlyGivenNames x; clear_value x)
    | apply Keep.ite
    | (refine Area.sub_trans (b := Touch.noteMove) ?_ har; decide)
    | dsimp -zeta only
    | split
    | (refine Keep.rec_pers ?_ ?_; rotate_left; first | assumption | apply Keep.ite))

def Touch.migComplete : Nat := 0x280000800000000000000000000000000000000000000000001E00400100000000000010003020
theorem Keep.migComplete {m : Mig} {result : Nat}
    (har : Area.sub Touch.migComplete ar = true) (h : Keep ar s t) : Keep ar s (Machine.State.migComplete t m result) := by
  unfold Machine.State.migComplete
  repeat' (with_reducible first
    | assumption
    | (extract_lets +onlyGivenNames x; (apply Keep.cut x); rotate_left; intro _; clear_value x; rotate_right; subst x)
    | (extract_lets +onlyGivenNames x; clear_value x)
    | apply Keep.put
    | apply Keep.bump
    | apply Keep.raise
    | apply Keep.offerFull
    | apply Keep.dropMig
    | apply Keep.countSpares
    | apply Keep.retire
    | apply Keep.noteMove
    | (refine Area.sub_trans (b := Touch.migComplete) ?_ har; decide)
    | (refine Area.fld_mono (a := Touch.migComplete) ?_ har; decide)
    | intro _ _ _
    | intro _ _)

def Touch.tileEvent : Nat := 0x800000000000000000000000000000000000000000001080000000000000000010000000
theorem Keep.tileEvent {n : Nat} {bit : Nat}
    (har : Area.sub Touch.tileEvent ar = true) (h : Keep ar s t) : Keep ar s (Machine.State.tileEvent t n bit) := by
  unfold Machine.State.tileEvent
  repeat' (with_reducible first
    | assumption
    | apply Keep.put
    | apply Keep.raise
    | (refine Area.sub_trans (b := Touch.tileEvent) ?_ har; decide)
    | (refine Area.fld_mono (a := Touch.tileEvent) ?_ har; decide)
    | intro _ _ _
    | intro _ _)

def Touch.actDropped : Nat := 0x2800008000000000000000000000000000000000000000000000000000000000027C0018004120
theorem Keep.actDropped
    (har : Area.sub Touch.actDropped ar = true) (h : Keep ar s t) : Keep ar s (Machine.State.actDropped t) := by
  unfold Machine.State.actDropped
  repeat' (with_reducible first
    | assumption
    | (extract_lets +onlyGivenNames x; (apply Keep.cut x); rotate_left; intro _; clear_value x; rotate_right; subst x)
    | (extract_lets +onlyGivenNames x; clear_value x)
    | apply Keep.cmdEndIf
    | (refine Area.sub_trans (b := Touch.actDropped) ?_ har; decide)
    | split
    | intro _ _ _
    | intro _ _)

def Touch.actRequest : Nat := 0x2800008000000000000000000000000000000000000000000000000113000000027C0018005120
theorem Keep.actRequest {slot : Nat} {at_ : Option Nat} {target : Option Nat}
    (har : Area.sub Touch.actRequest ar = true) (h : Keep ar s t) : Keep ar s (Machine.State.actRequest t slot at_ target) := by
  unfold Machine.State.actRequest
  repeat' (with_reducible first
    | assumption
    | (extract_lets +onlyGivenNames x; (apply Keep.cut x); rotate_left; intro _; clear_value x; rotate_right; subst x)
    | (extract_lets +onlyGivenNames x; clear_value x)
    | apply Keep.ite
    | apply Keep.actRefuse
    | apply Keep.setPend
    | apply Keep.preloadBegin
    | apply Keep.actDropped
    | (refine Area.sub_trans (b := Touch.actRequest) ?_ har; decide)
    | split
    | intro _ _ _
    | intro _ _)

def Touch.unmerge : Nat := 0x200000000000000000000002000
theorem Keep.unmerge
    (har : Area.sub Touch.unmerge ar = true) (h : Keep ar s t) : Keep ar s (Machine.State.unmerge t) := by
  unfold Machine.State.unmerge
  repeat' (with_reducible first
    | assumption
    | (extract_lets +onlyGivenNames x; (apply Keep.cut x); rotate_left; intro _; clear_value x; rotate_right; subst x)
    | (extract_lets +onlyGivenNames x; have hf : (∀ z, x z = x z) := fun _ => rfl; clear hf; subst x; try dsimp -zeta only)
    | (extract_lets +onlyGivenNames x; clear_value x)
    | apply Keep.putMig
    | (refine Area.sub_trans (b := Touch.unmerge) ?_ har; decide)
    | apply Keep.foldl
    | dsimp -zeta only
    | intro _ _ _
    | intro _ _)

def Touch.actSlip : Nat := 0x280000800000000000000000000000000000000000000000000200001100000000000018003020
theorem Keep.actSlip {p : PendAct}
    (har : Area.sub Touch.actSlip ar = true) (h : Keep ar s t) : Keep ar s (Machine.State.actSlip t p) := by
  unfold Machine.State.actSlip
  repeat' (with_reducible first
    | assumption
    | (extract_lets +onlyGivenNames x; (apply Keep.cut x); rotate_left; intro _; clear_value x; rotate_right; subst x)
    | (extract_lets +onlyGivenNames x; clear_value x)
    | apply Keep.raiseRec
    | apply Keep.setPend
    | apply Keep.unmerge
    | (refine Area.sub_trans (b := Touch.actSlip) ?_ har; decide)
    | (refine Area.fld_mono (a := Touch.actSlip) ?_ har; decide)
    | intro _ _ _
    | intro _ _)

def Touch.pendResume : Nat := 0x10100000000000000001000
theorem Keep.pendResume
    (har : Area.sub Touch.pendResume ar = true) (h : Keep ar s t) : Keep ar s (Machine.State.pendResume t) := by
  unfold Machine.State.pendResume
  repeat' (with_reducible first
    | assumption
    | (extract_lets +onlyGivenNames x; (apply Keep.cut x); rotate_left; intro _; clear_value x; rotate_right; subst x)
    | (extract_lets +onlyGivenNames x; clear_value x)
    | apply Keep.ite
    | apply Keep.preloadBegin
    | (refine Area.sub_trans (b := Touch.pendResume) ?_ har; decide)
    | split
    | intro _ _ _
    | intro _ _)

def Touch.noteCorr : Nat := 0x2000
theorem Keep.noteCorr {src : Nat} {kind : Nat} {injected : Bool} {first : Nat}
    (har : Area.sub Touch.noteCorr ar = true) (h : Keep ar s t) : Keep ar s (Machine.State.noteCorr t src kind injected first) := by
  unfold Machine.State.noteCorr
  repeat' (with_reducible first
    | assumption
    | (extract_lets +onlyGivenNames x; (apply Keep.cut x); rotate_left; intro _; clear_value x; rotate_right; subst x)
    | (extract_lets +onlyGivenNames x; have hf : (∀ z, x z = x z) := fun _ => rfl; clear hf; subst x; try dsimp -zeta only)
    | (extract_lets +onlyGivenNames x; clear_value x)
    | apply Keep.ite
    | (refine Area.sub_trans (b := Touch.noteCorr) ?_ har; decide)
    | dsimp -zeta only
    | split
    | (refine Keep.rec_fab ?_ ?_; rotate_left; first | assumption | apply Keep.ite))

def Touch.clearIds : Nat := 0x3C0000000000000000000000
theorem Keep.clearIds {slot : Nat}
    (har : Area.sub Touch.clearIds ar = true) (h : Keep ar s t) : Keep ar s (Machine.State.clearIds t slot) := by
  unfold Machine.State.clearIds
  repeat' (with_reducible first
    | assumption
    | apply Keep.put
    | (refine Area.sub_trans (b := Touch.clearIds) ?_ har; decide)
    | (refine Area.fld_mono (a := Touch.clearIds) ?_ har; decide)
    | intro _ _ _
    | intro _ _)

def Touch.slotReject : Nat := 0x3F0100000000000000001000
theorem Keep.slotReject {slot : Nat} {code : Nat} {off : Nat}
    (har : Area.sub Touch.slotReject ar = true) (h : Keep ar s t) : Keep ar s (Machine.State.slotReject t slot code off) := by
  unfold Machine.State.slotReject
  repeat' (with_reducible first
    | assumption
    | (extract_lets +onlyGivenNames x; (apply Keep.cut x); rotate_left; intro _; clear_value x; rotate_right; subst x)
    | (extract_lets +onlyGivenNames x; clear_value x)
    | apply Keep.ite
    | apply Keep.put
    | apply Keep.dropStaging
    | apply Keep.clearIds
    | (refine Area.sub_trans (b := Touch.slotReject) ?_ har; decide)
    | (refine Area.fld_mono (a := Touch.slotReject) ?_ har; decide)
    | split
    | intro _ _ _
    | intro _ _
    | (refine Keep.rec_pers ?_ ?_; rotate_left; first | assumption | apply Keep.put | apply Keep.dropStaging | apply Keep.clearIds | apply Keep.ite))

def Touch.fillIds : Nat := 0x3C0000000000000000000000
theorem Keep.fillIds {slot : Nat}
    (har : Area.sub Touch.fillIds ar = true) (h : Keep ar s t) : Keep ar s (Machine.State.fillIds t slot) := by
  unfold Machine.State.fillIds
  repeat' (with_reducible first
    | assumption
    | (extract_lets +onlyGivenNames x; (apply Keep.cut x); rotate_left; intro _; clear_value x; rotate_right; subst x)
    | (extract_lets +onlyGivenNames x; clear_value x)
    | apply Keep.put
    | (refine Area.sub_trans (b := Touch.fillIds) ?_ har; decide)
    | (refine Area.fld_mono (a := Touch.fillIds) ?_ har; decide)
    | intro _ _ _
    | intro _ _)

def Touch.slotVerify : Nat := 0x3F0000000000000000001000
theorem Keep.slotVerify {slot : Nat} {len : Nat}
    (har : Area.sub Touch.slotVerify ar = true) (h : Keep ar s t) : Keep ar s (Machine.State.slotVerify t slot len) := by
  unfold Machine.State.slotVerify
  repeat' (with_reducible first
    | assumption
    | (extract_lets +onlyGivenNames x; (apply Keep.cut x); rotate_left; intro _; clear_value x; rotate_right; subst x)
    | (extract_lets +onlyGivenNames x; clear_value x)
    | apply Keep.put
    | apply Keep.fillIds
    | (refine Area.sub_trans (b := Touch.slotVerify) ?_ har; decide)
    | (refine Area.fld_mono (a := Touch.slotVerify) ?_ har; decide)
    | intro _ _ _
    | intro _ _
    | (refine Keep.rec_pers ?_ ?_; rotate_left; first | assumption | apply Keep.put | apply Keep.fillIds))

def Touch.charge : Nat := 0x2000
theorem Keep.charge {n : Nat} {weight : Nat} {injected : Bool}
    (har : Area.sub Touch.charge ar = true) (h : Keep ar s t) : Keep ar s (Machine.State.charge t n weight injected) := by
  unfold Machine.State.charge
  repeat' (with_reducible first
    | assumption
    | (extract_lets +onlyGivenNames x; (apply Keep.cut x); rotate_left; intro _; clear_value x; rotate_right; subst x)
    | (extract_lets +onlyGivenNames x; clear_value x)
    | apply Keep.ite
    | apply Keep.setTile
    | (refine Area.sub_trans (b := Touch.charge) ?_ har; decide)
    | split
    | intro _ _ _
    | intro _ _)

def Touch.residueRetry : Nat := 0x1000000000000000000002000
theorem Keep.residueRetry {n : Nat} {injected : Bool}
    (har : Area.sub Touch.residueRetry ar = true) (h : Keep ar s t) : Keep ar s (Machine.State.residueRetry t n injected) := by
  unfold Machine.State.residueRetry
  repeat' (with_reducible first
    | assumption
    | apply Keep.bump
    | apply Keep.noteCorr
    | apply Keep.charge
    | (refine Area.sub_trans (b := Touch.residueRetry) ?_ har; decide)
    | (refine Area.fld_mono (a := Touch.residueRetry) ?_ har; decide)
    | intro _ _ _
    | intro _ _)

def Touch.marginAlarm : Nat := 0x2000000000000000000002000
theorem Keep.marginAlarm {n : Nat} {injected : Bool}
    (har : Area.sub Touch.marginAlarm ar = true) (h : Keep ar s t) : Keep ar s (Machine.State.marginAlarm t n injected) := by
  unfold Machine.State.marginAlarm
  repeat' (with_reducible first
    | assumption
    | apply Keep.bump
    | apply Keep.charge
    | (refine Area.sub_trans (b := Touch.marginAlarm) ?_ har; decide)
    | (refine Area.fld_mono (a := Touch.marginAlarm) ?_ har; decide)
    | intro _ _ _
    | intro _ _)

def Touch.standbyReroute : Nat := 0x2000
theorem Keep.standbyReroute {a : Nat} {b : Nat}
    (har : Area.sub Touch.standbyReroute ar = true) (h : Keep ar s t) : Keep ar s (Machine.State.standbyReroute t a b) := by
  unfold Machine.State.standbyReroute
  repeat' (with_reducible first
    | assumption
    | (extract_lets +onlyGivenNames x; (apply Keep.cut x); rotate_left; intro _; clear_value x; rotate_right; subst x)
    | (extract_lets +onlyGivenNames x; have hf : (∀ z, x z = x z) := fun _ => rfl; clear hf; subst x; try dsimp -zeta only)
    | (extract_lets +onlyGivenNames x; clear_value x)
    | apply Keep.setFetch
    | apply Keep.setTile
    | (refine Area.sub_trans (b := Touch.standbyReroute) ?_ har; decide)
    | apply Keep.foldl
    | dsimp -zeta only
    | split
    | intro _ _ _
    | intro _ _)

def Touch.spareFails : Nat := 0x280000800000000000000000000000000000000000000000001E0C400100000000004010003132
theorem Keep.spareFails {m : Mig}
    (har : Area.sub Touch.spareFails ar = true) (h : Keep ar s t) : Keep ar s (Machine.State.spareFails t m) := by
  unfold Machine.State.spareFails
  repeat' (with_reducible first
    | assumption
    | (extract_lets +onlyGivenNames x; (apply Keep.cut x); rotate_left; intro _; clear_value x; rotate_right; subst x)
    | (extract_lets +onlyGivenNames x; have hf : (∀ z, x z = x z) := fun _ => rfl; clear hf; subst x; try dsimp -zeta only)
    | (extract_lets +onlyGivenNames x; clear_value x)
    | apply Keep.ite
    | apply Keep.bump
    | apply Keep.setFetch
    | apply Keep.setTile
    | apply Keep.sendFabric
    | apply Keep.migStart
    | apply Keep.dropMig
    | apply Keep.retire
    | apply Keep.standbyReroute
    | (refine Area.sub_trans (b := Touch.spareFails) ?_ har; decide)
    | (refine Area.fld_mono (a := Touch.spareFails) ?_ har; decide)
    | apply Keep.foldl
    | dsimp -zeta only
    | split
    | intro _ _ _
    | intro _ _
    | (refine Keep.rec_fab ?_ ?_; rotate_left; first | assumption | apply Keep.bump | apply Keep.setFetch | apply Keep.setTile | apply Keep.sendFabric | apply Keep.migStart | apply Keep.dropMig | apply Keep.retire | apply Keep.standbyReroute | apply Keep.ite | apply Keep.foldl)
    | (refine Keep.rec_pers ?_ ?_; rotate_left; first | assumption | apply Keep.bump | apply Keep.setFetch | apply Keep.setTile | apply Keep.sendFabric | apply Keep.migStart | apply Keep.dropMig | apply Keep.retire | apply Keep.standbyReroute | apply Keep.ite | apply Keep.foldl))

def Touch.retireSpare : Nat := 0x280000800000000000000000000000000000000000000000001E0C400100000000004010003132
theorem Keep.retireSpare {n : Nat}
    (har : Area.sub Touch.retireSpare ar = true) (h : Keep ar s t) : Keep ar s (Machine.State.retireSpare t n) := by
  unfold Machine.State.retireSpare
  repeat' (with_reducible first
    | assumption
    | (extract_lets +onlyGivenNames x; (apply Keep.cut x); rotate_left; intro _; clear_value x; rotate_right; subst x)
    | (extract_lets +onlyGivenNames x; have hf : (∀ z, x z = x z) := fun _ => rfl; clear hf; subst x; try dsimp -zeta only)
    | (extract_lets +onlyGivenNames x; clear_value x)
    | apply Keep.retire
    | apply Keep.spareFails
    | (refine Area.sub_trans (b := Touch.retireSpare) ?_ har; decide)
    | dsimp -zeta only
    | split
    | intro _ _ _
    | intro _ _)

def Touch.eccCorrect : Nat := 0x1000000000000000000002000
theorem Keep.eccCorrect {n : Nat} {flit : Bool} {injected : Bool}
    (har : Area.sub Touch.eccCorrect ar = true) (h : Keep ar s t) : Keep ar s (Machine.State.eccCorrect t n flit injected) := by
  unfold Machine.State.eccCorrect
  repeat' (with_reducible first
    | assumption
    | apply Keep.ite
    | apply Keep.bump
    | apply Keep.noteCorr
    | apply Keep.charge
    | (refine Area.sub_trans (b := Touch.eccCorrect) ?_ har; decide)
    | (refine Area.fld_mono (a := Touch.eccCorrect) ?_ har; decide)
    | split
    | intro _ _ _
    | intro _ _)

def Touch.cacheRefetch : Nat := 0x1000000000000000010002000
theorem Keep.cacheRefetch {n : Nat} {line : Nat} {injected : Bool}
    (har : Area.sub Touch.cacheRefetch ar = true) (h : Keep ar s t) : Keep ar s (Machine.State.cacheRefetch t n line injected) := by
  unfold Machine.State.cacheRefetch
  repeat' (with_reducible first
    | assumption
    | apply Keep.bump
    | apply Keep.emit
    | apply Keep.charge
    | (refine Area.sub_trans (b := Touch.cacheRefetch) ?_ har; decide)
    | (refine Area.fld_mono (a := Touch.cacheRefetch) ?_ har; decide)
    | intro _ _ _
    | intro _ _)

def Touch.execTileCtrlKat : Nat := 0x280000800000000000000000000000000000000000000000000000000000000000000010002020
theorem Keep.execTileCtrlKat {r : Sys2Proof.Req} {key : Nat} {n : Nat}
    (har : Area.sub Touch.execTileCtrlKat ar = true) (h : Keep ar s t) : KeepO ar s (Machine.execTileCtrlKat r key n t) := by
  unfold Machine.execTileCtrlKat
  repeat' (with_reducible first
    | assumption
    | apply KeepO.next
    | apply KeepO.ite
    | (extract_lets +onlyGivenNames x; (first | apply KeepO.cut x | apply Keep.cut x); rotate_left; intro _; clear_value x; rotate_right; subst x)
    | (extract_lets +onlyGivenNames x; clear_value x)
    | apply Keep.ite
    | apply Keep.setTile
    | apply Keep.ignored
    | (refine Area.sub_trans (b := Touch.execTileCtrlKat) ?_ har; decide)
    | split
    | intro _ _ _
    | intro _ _)

def Touch.tileMigrate : Nat := 0x280000800000000000000000000000000000000000000000001E0C4117000000027C4018007132
theorem Keep.tileMigrate {n : Nat}
    (har : Area.sub Touch.tileMigrate ar = true) (h : Keep ar s t) : Keep ar s (Machine.State.tileMigrate t n) := by
  unfold Machine.State.tileMigrate
  repeat' (with_reducible first
    | assumption
    | apply Keep.ite
    | apply Keep.migTrigger
    | apply Keep.retireSpare
    | (refine Area.sub_trans (b := Touch.tileMigrate) ?_ har; decide)
    | split
    | intro _ _ _
    | intro _ _)

def Touch.execTileCtrlMigrate : Nat := 0x280000800000000000000000000000000000000000000000001E0C4117000000027C4018007132
theorem Keep.execTileCtrlMigrate {r : Sys2Proof.Req} {key : Nat} {n : Nat}
    (har : Area.sub Touch.execTileCtrlMigrate ar = true) (h : Keep ar s t) : KeepO ar s (Machine.execTileCtrlMigrate r key n t) := by
  unfold Machine.execTileCtrlMigrate
  repeat' (with_reducible first
    | assumption
    | apply KeepO.next
    | apply KeepO.ite
    | apply Keep.ite
    | apply Keep.ignored
    | apply Keep.tileMigrate
    | (refine Area.sub_trans (b := Touch.execTileCtrlMigrate) ?_ har; decide)
    | split
    | intro _ _ _
    | intro _ _)

def Touch.slotRefuse : Nat := 0x10000000000000000000000
theorem Keep.slotRefuse {slot : Nat} {code : Nat}
    (har : Area.sub Touch.slotRefuse ar = true) (h : Keep ar s t) : Keep ar s (Machine.State.slotRefuse t slot code) := by
  unfold Machine.State.slotRefuse
  repeat' (with_reducible first
    | assumption
    | apply Keep.put
    | (refine Area.sub_trans (b := Touch.slotRefuse) ?_ har; decide)
    | (refine Area.fld_mono (a := Touch.slotRefuse) ?_ har; decide)
    | intro _ _ _
    | intro _ _)

def Touch.execPersSlotPreload : Nat := 0x10100000000000000001000
theorem Keep.execPersSlotPreload {slot : Nat}
    (har : Area.sub Touch.execPersSlotPreload ar = true) (h : Keep ar s t) : KeepO ar s (Machine.execPersSlotPreload slot t) := by
  unfold Machine.execPersSlotPreload
  repeat' (with_reducible first
    | assumption
    | apply KeepO.next
    | apply KeepO.ite
    | (extract_lets +onlyGivenNames x; (first | apply KeepO.cut x | apply Keep.cut x); rotate_left; intro _; clear_value x; rotate_right; subst x)
    | (extract_lets +onlyGivenNames x; clear_value x)
    | apply Keep.ite
    | apply Keep.preloadBegin
    | apply Keep.slotRefuse
    | (refine Area.sub_trans (b := Touch.execPersSlotPreload) ?_ har; decide)
    | split
    | intro _ _ _
    | intro _ _)

def Touch.slotEmpty : Nat := 0x3F0100000000000000001000
theorem Keep.slotEmpty {slot : Nat}
    (har : Area.sub Touch.slotEmpty ar = true) (h : Keep ar s t) : Keep ar s (Machine.State.slotEmpty t slot) := by
  unfold Machine.State.slotEmpty
  repeat' (with_reducible first
    | assumption
    | (extract_lets +onlyGivenNames x; (apply Keep.cut x); rotate_left; intro _; clear_value x; rotate_right; subst x)
    | (extract_lets +onlyGivenNames x; clear_value x)
    | apply Keep.ite
    | apply Keep.put
    | apply Keep.dropStaging
    | apply Keep.clearIds
    | (refine Area.sub_trans (b := Touch.slotEmpty) ?_ har; decide)
    | (refine Area.fld_mono (a := Touch.slotEmpty) ?_ har; decide)
    | split
    | intro _ _ _
    | intro _ _
    | (refine Keep.rec_pers ?_ ?_; rotate_left; first | assumption | apply Keep.put | apply Keep.dropStaging | apply Keep.clearIds | apply Keep.ite))

def Touch.execPersSlotEvict : Nat := 0x3F0100000000000000001000
theorem Keep.execPersSlotEvict {slot : Nat}
    (har : Area.sub Touch.execPersSlotEvict ar = true) (h : Keep ar s t) : KeepO ar s (Machine.execPersSlotEvict slot t) := by
  unfold Machine.execPersSlotEvict
  repeat' (with_reducible first
    | assumption
    | apply KeepO.next
    | apply KeepO.ite
    | (extract_lets +onlyGivenNames x; (first | apply KeepO.cut x | apply Keep.cut x); rotate_left; intro _; clear_value x; rotate_right; subst x)
    | (extract_lets +onlyGivenNames x; clear_value x)
    | apply Keep.ite
    | apply Keep.slotRefuse
    | apply Keep.slotEmpty
    | (refine Area.sub_trans (b := Touch.execPersSlotEvict) ?_ har; decide)
    | split
    | intro _ _ _
    | intro _ _)

def Touch.loadBegin : Nat := 0x3D0000000000000000001000
theorem Keep.loadBegin {slot : Nat}
    (har : Area.sub Touch.loadBegin ar = true) (h : Keep ar s t) : Keep ar s (Machine.State.loadBegin t slot) := by
  unfold Machine.State.loadBegin
  repeat' (with_reducible first
    | assumption
    | (extract_lets +onlyGivenNames x; (apply Keep.cut x); rotate_left; intro _; clear_value x; rotate_right; subst x)
    | (extract_lets +onlyGivenNames x; clear_value x)
    | apply Keep.put
    | apply Keep.clearIds
    | (refine Area.sub_trans (b := Touch.loadBegin) ?_ har; decide)
    | (refine Area.fld_mono (a := Touch.loadBegin) ?_ har; decide)
    | intro _ _ _
    | intro _ _
    | (refine Keep.rec_pers ?_ ?_; rotate_left; first | assumption | apply Keep.put | apply Keep.clearIds))

def Touch.slotLoad : Nat := 0x3D0100000000000000001000
theorem Keep.slotLoad {slot : Nat}
    (har : Area.sub Touch.slotLoad ar = true) (h : Keep ar s t) : Keep ar s (Machine.State.slotLoad t slot) := by
  unfold Machine.State.slotLoad
  repeat' (with_reducible first
    | assumption
    | (extract_lets +onlyGivenNames x; (apply Keep.cut x); rotate_left; intro _; clear_value x; rotate_right; subst x)
    | (extract_lets +onlyGivenNames x; clear_value x)
    | apply Keep.ite
    | apply Keep.dropStaging
    | apply Keep.loadBegin
    | (refine Area.sub_trans (b := Touch.slotLoad) ?_ har; decide)
    | split
    | intro _ _ _
    | intro _ _
    | (refine Keep.rec_pers ?_ ?_; rotate_left; first | assumption | apply Keep.dropStaging | apply Keep.loadBegin | apply Keep.ite))

def Touch.execPersSlotLoad : Nat := 0x3D0100000000000000001000
theorem Keep.execPersSlotLoad {slot : Nat}
    (har : Area.sub Touch.execPersSlotLoad ar = true) (h : Keep ar s t) : KeepO ar s (Machine.execPersSlotLoad slot t) := by
  unfold Machine.execPersSlotLoad
  repeat' (with_reducible first
    | assumption
    | apply KeepO.next
    | apply KeepO.ite
    | (extract_lets +onlyGivenNames x; (first | apply KeepO.cut x | apply Keep.cut x); rotate_left; intro _; clear_value x; rotate_right; subst x)
    | (extract_lets +onlyGivenNames x; clear_value x)
    | apply Keep.ite
    | apply Keep.slotRefuse
    | apply Keep.slotLoad
    | (refine Area.sub_trans (b := Touch.execPersSlotLoad) ?_ har; decide)
    | split
    | intro _ _ _
    | intro _ _)

def Touch.copyBytes : Nat := 0x400000
theorem Keep.copyBytes {src : Nat} {dst : Nat} {len : Nat}
    (har : Area.sub Touch.copyBytes ar = true) (h : Keep ar s t) : Keep ar s (Machine.State.copyBytes t src dst len) := by
  unfold Machine.State.copyBytes
  repeat' (with_reducible first
    | assumption
    | apply Keep.writeBytes
    | (refine Area.sub_trans (b := Touch.copyBytes) ?_ har; decide)
    | intro _ _ _
    | intro _ _)

def Touch.katEnd : Nat := 0x280000800000000000000000000000000000000000000000001F8C400100000000004018003132
theorem Keep.katEnd {n : Nat} {pass : Bool}
    (har : Area.sub Touch.katEnd ar = true) (h : Keep ar s t) : Keep ar s (Machine.State.katEnd t n pass) := by
  unfold Machine.State.katEnd
  repeat' (with_reducible first
    | assumption
    | (extract_lets +onlyGivenNames x; (apply Keep.cut x); rotate_left; intro _; clear_value x; rotate_right; subst x)
    | (extract_lets +onlyGivenNames x; clear_value x)
    | apply Keep.ite
    | apply Keep.put
    | apply Keep.putB
    | apply Keep.bump
    | apply Keep.setTile
    | apply Keep.recIrq
    | apply Keep.tileEvent
    | apply Keep.retireSpare
    | (refine Area.sub_trans (b := Touch.katEnd) ?_ har; decide)
    | (refine Area.fld_mono (a := Touch.katEnd) ?_ har; decide)
    | split
    | intro _ _ _
    | intro _ _)

def Touch.loadEnd : Nat := 0x3F0100000000000000401000
theorem Keep.loadEnd {slot : Nat} {src : Nat} {len : Nat} {region : Bool}
    (har : Area.sub Touch.loadEnd ar = true) (h : Keep ar s t) : Keep ar s (Machine.State.loadEnd t slot src len region) := by
  unfold Machine.State.loadEnd
  repeat' (with_reducible first
    | assumption
    | (extract_lets +onlyGivenNames x; (apply Keep.cut x); rotate_left; intro _; clear_value x; rotate_right; subst x)
    | (extract_lets +onlyGivenNames x; clear_value x)
    | apply Keep.ite
    | apply Keep.slotReject
    | apply Keep.slotVerify
    | apply Keep.copyBytes
    | (refine Area.sub_trans (b := Touch.loadEnd) ?_ har; decide)
    | split
    | intro _ _ _
    | intro _ _)

def Touch.preloadShort : Nat := 0x2800008000000000000000000000000000000000000000000000000113000000027C0018005120
theorem Keep.preloadShort {slot : Nat}
    (har : Area.sub Touch.preloadShort ar = true) (h : Keep ar s t) : Keep ar s (Machine.State.preloadShort t slot) := by
  unfold Machine.State.preloadShort
  repeat' (with_reducible first
    | assumption
    | apply Keep.raise
    | apply Keep.dropStaging
    | apply Keep.actRefuseOn
    | apply Keep.slotRefuse
    | (refine Area.sub_trans (b := Touch.preloadShort) ?_ har; decide)
    | (refine Area.fld_mono (a := Touch.preloadShort) ?_ har; decide)
    | intro _ _ _
    | intro _ _)

def Touch.preloadStage : Nat := 0x800000000000000000000000000000000000000000000000011100000000000010003000
theorem Keep.preloadStage {slot : Nat} {place : List (Nat × Nat)}
    (har : Area.sub Touch.preloadStage ar = true) (h : Keep ar s t) : Keep ar s (Machine.State.preloadStage t slot place) := by
  unfold Machine.State.preloadStage
  repeat' (with_reducible first
    | assumption
    | (extract_lets +onlyGivenNames x; (apply Keep.cut x); rotate_left; intro _; clear_value x; rotate_right; subst x)
    | (extract_lets +onlyGivenNames x; have hf : (∀ z, x z = x z) := fun _ => rfl; clear hf; subst x; try dsimp -zeta only)
    | (extract_lets +onlyGivenNames x; clear_value x)
    | apply Keep.ite
    | apply Keep.put
    | apply Keep.setFetch
    | apply Keep.setTile
    | apply Keep.raise
    | apply Keep.setPend
    | (refine Area.sub_trans (b := Touch.preloadStage) ?_ har; decide)
    | (refine Area.fld_mono (a := Touch.preloadStage) ?_ har; decide)
    | apply Keep.foldl
    | dsimp -zeta only
    | split
    | intro _ _ _
    | intro _ _
    | (refine Keep.rec_pers ?_ ?_; rotate_left; first | assumption | apply Keep.put | apply Keep.setFetch | apply Keep.setTile | apply Keep.raise | apply Keep.setPend | apply Keep.ite | apply Keep.foldl))

def Touch.redirectRoutes : Nat := 0x2000
theorem Keep.redirectRoutes {n : Nat} {k : Nat} {sf : Nat}
    (har : Area.sub Touch.redirectRoutes ar = true) (h : Keep ar s t) : Keep ar s (Machine.State.redirectRoutes t n k sf) := by
  unfold Machine.State.redirectRoutes
  repeat' (with_reducible first
    | assumption
    | (extract_lets +onlyGivenNames x; (apply Keep.cut x); rotate_left; intro _; clear_value x; rotate_right; subst x)
    | (extract_lets +onlyGivenNames x; have hf : (∀ z, x z = x z) := fun _ => rfl; clear hf; subst x; try dsimp -zeta only)
    | (extract_lets +onlyGivenNames x; clear_value x)
    | apply Keep.ite
    | apply Keep.setFetch
    | apply Keep.setTile
    | (refine Area.sub_trans (b := Touch.redirectRoutes) ?_ har; decide)
    | apply Keep.foldl
    | dsimp -zeta only
    | split
    | intro _ _ _
    | intro _ _)

def Touch.sendMarker : Nat := 0x2000
theorem Keep.sendMarker {m : Mig}
    (har : Area.sub Touch.sendMarker ar = true) (h : Keep ar s t) : Keep ar s (Machine.State.sendMarker t m) := by
  unfold Machine.State.sendMarker
  repeat' (with_reducible first
    | assumption
    | (extract_lets +onlyGivenNames x; (apply Keep.cut x); rotate_left; intro _; clear_value x; rotate_right; subst x)
    | (extract_lets +onlyGivenNames x; clear_value x)
    | apply Keep.sendFabric
    | (refine Area.sub_trans (b := Touch.sendMarker) ?_ har; decide)
    | split
    | intro _ _ _
    | intro _ _)

def Touch.spareStart : Nat := 0xC00000000000000000003000
theorem Keep.spareStart {m : Mig} {pl : Plane} {sf : Nat}
    (har : Area.sub Touch.spareStart ar = true) (h : Keep ar s t) : Keep ar s (Machine.State.spareStart t m pl sf) := by
  unfold Machine.State.spareStart
  repeat' (with_reducible first
    | assumption
    | (extract_lets +onlyGivenNames x; (apply Keep.cut x); rotate_left; intro _; clear_value x; rotate_right; subst x)
    | (extract_lets +onlyGivenNames x; have hf : (∀ z, x z = x z) := fun _ => rfl; clear hf; subst x; try dsimp -zeta only)
    | (extract_lets +onlyGivenNames x; clear_value x)
    | apply Keep.ite
    | apply Keep.put
    | apply Keep.setTile
    | apply Keep.setStat
    | apply Keep.lmInit
    | (refine Area.sub_trans (b := Touch.spareStart) ?_ har; decide)
    | (refine Area.fld_mono (a := Touch.spareStart) ?_ har; decide)
    | dsimp -zeta only
    | split
    | intro _ _ _
    | intro _ _
    | (refine Keep.rec_pers ?_ ?_; rotate_left; first | assumption | apply Keep.put | apply Keep.setTile | apply Keep.setStat | apply Keep.lmInit | apply Keep.ite))

def Touch.stagedWrite : Nat := 0x3000
theorem Keep.stagedWrite {n : Nat} {k : Nat}
    (har : Area.sub Touch.stagedWrite ar = true) (h : Keep ar s t) : Keep ar s (Machine.State.stagedWrite t n k) := by
  unfold Machine.State.stagedWrite
  repeat' (with_reducible first
    | assumption
    | (extract_lets +onlyGivenNames x; (apply Keep.cut x); rotate_left; intro _; clear_value x; rotate_right; subst x)
    | (extract_lets +onlyGivenNames x; have hf : (∀ z, x z = x z) := fun _ => rfl; clear hf; subst x; try dsimp -zeta only)
    | (extract_lets +onlyGivenNames x; clear_value x)
    | apply Keep.ite
    | apply Keep.setTile
    | apply Keep.standbyReroute
    | (refine Area.sub_trans (b := Touch.stagedWrite) ?_ har; decide)
    | dsimp -zeta only
    | split
    | intro _ _ _
    | intro _ _
    | (refine Keep.rec_pers ?_ ?_; rotate_left; first | assumption | apply Keep.setTile | apply Keep.standbyReroute | apply Keep.ite))

def Touch.execSwapTimeout : Nat := 0x280000800000000000000000000000000000000000000000001E0C401100000000004018003132
theorem Keep.execSwapTimeout {n : Nat}
    (har : Area.sub Touch.execSwapTimeout ar = true) (h : Keep ar s t) : KeepO ar s (Machine.execSwapTimeout n t) := by
  unfold Machine.execSwapTimeout
  repeat' (with_reducible first
    | assumption
    | apply KeepO.next
    | apply KeepO.ite
    | (extract_lets +onlyGivenNames x; (first | apply KeepO.cut x | apply Keep.cut x); rotate_left; intro _; clear_value x; rotate_right; subst x)
    | (extract_lets +onlyGivenNames x; have hf : (∀ z, x z = x z) := fun _ => rfl; clear hf; subst x; try dsimp -zeta only)
    | (extract_lets +onlyGivenNames x; clear_value x)
    | apply Keep.ite
    | apply Keep.sendFabric
    | apply Keep.putMig
    | apply Keep.sparesOut
    | apply Keep.raiseRec
    | apply Keep.retire
    | apply Keep.migComplete
    | (refine Area.sub_trans (b := Touch.execSwapTimeout) ?_ har; decide)
    | (refine Area.fld_mono (a := Touch.execSwapTimeout) ?_ har; decide)
    | dsimp -zeta only
    | split
    | intro _ _ _
    | intro _ _)

def Touch.execCacheRefetch : Nat := 0x1000000000000000010002000
theorem Keep.execCacheRefetch {n : Nat} {line : Nat}
    (har : Area.sub Touch.execCacheRefetch ar = true) (h : Keep ar s t) : KeepO ar s (Machine.execCacheRefetch n line t) := by
  unfold Machine.execCacheRefetch
  repeat' (with_reducible first
    | assumption
    | apply KeepO.next
    | apply KeepO.ite
    | apply Keep.ite
    | apply Keep.cacheRefetch
    | (refine Area.sub_trans (b := Touch.execCacheRefetch) ?_ har; decide)
    | split
    | intro _ _ _
    | intro _ _)

def Touch.execSpareKat : Nat := 0x280000800000000000000000000000000000000000000000001F8C400100000000004018003132
theorem Keep.execSpareKat {periodic : Bool} {failed : List Nat}
    (har : Area.sub Touch.execSpareKat ar = true) (h : Keep ar s t) : KeepO ar s (Machine.execSpareKat periodic failed t) := by
  unfold Machine.execSpareKat
  repeat' (with_reducible first
    | assumption
    | apply KeepO.next
    | apply KeepO.ite
    | apply Keep.katEnd
    | (refine Area.sub_trans (b := Touch.execSpareKat) ?_ har; decide)
    | apply Keep.foldl
    | intro _ _ _
    | intro _ _)

def Touch.execMigrationCopyDone : Nat := 0x280000800000000000000000000000000000000000000000001E0C400900000000004010003132
theorem Keep.execMigrationCopyDone {n : Nat} {good : Bool}
    (har : Area.sub Touch.execMigrationCopyDone ar = true) (h : Keep ar s t) : KeepO ar s (Machine.execMigrationCopyDone n good t) := by
  unfold Machine.execMigrationCopyDone
  repeat' (with_reducible first
    | assumption
    | apply KeepO.next
    | apply KeepO.ite
    | (extract_lets +onlyGivenNames x; (first | apply KeepO.cut x | apply Keep.cut x); rotate_left; intro _; clear_value x; rotate_right; subst x)
    | (extract_lets +onlyGivenNames x; have hf : (∀ z, x z = x z) := fun _ => rfl; clear hf; subst x; try dsimp -zeta only)
    | (extract_lets +onlyGivenNames x; clear_value x)
    | apply Keep.ite
    | apply Keep.bump
    | apply Keep.setTile
    | apply Keep.putMig
    | apply Keep.dropMig
    | apply Keep.spareFails
    | apply Keep.stagedWrite
    | (refine Area.sub_trans (b := Touch.execMigrationCopyDone) ?_ har; decide)
    | (refine Area.fld_mono (a := Touch.execMigrationCopyDone) ?_ har; decide)
    | dsimp -zeta only
    | split
    | intro _ _ _
    | intro _ _
    | (refine Keep.rec_fab ?_ ?_; rotate_left; first | assumption | apply Keep.bump | apply Keep.setTile | apply Keep.putMig | apply Keep.dropMig | apply Keep.spareFails | apply Keep.stagedWrite | apply Keep.ite))

def Touch.execMarginAlarm : Nat := 0x2000000000000000000002000
theorem Keep.execMarginAlarm {n : Nat}
    (har : Area.sub Touch.execMarginAlarm ar = true) (h : Keep ar s t) : KeepO ar s (Machine.execMarginAlarm n t) := by
  unfold Machine.execMarginAlarm
  repeat' (with_reducible first
    | assumption
    | apply KeepO.next
    | apply KeepO.ite
    | apply Keep.ite
    | apply Keep.marginAlarm
    | (refine Area.sub_trans (b := Touch.execMarginAlarm) ?_ har; decide)
    | split
    | intro _ _ _
    | intro _ _)

def Touch.execMigrationRedirect : Nat := 0x280000800000000000000000000000000000000000000000001E0CC00100000000000010003020
theorem Keep.execMigrationRedirect {n : Nat}
    (har : Area.sub Touch.execMigrationRedirect ar = true) (h : Keep ar s t) : KeepO ar s (Machine.execMigrationRedirect n t) := by
  unfold Machine.execMigrationRedirect
  repeat' (with_reducible first
    | assumption
    | apply KeepO.next
    | apply KeepO.ite
    | (extract_lets +onlyGivenNames x; (first | apply KeepO.cut x | apply Keep.cut x); rotate_left; intro _; clear_value x; rotate_right; subst x)
    | (extract_lets +onlyGivenNames x; have hf : (∀ z, x z = x z) := fun _ => rfl; clear hf; subst x; try dsimp -zeta only)
    | (extract_lets +onlyGivenNames x; clear_value x)
    | apply Keep.ite
    | apply Keep.setTile
    | apply Keep.putMig
    | apply Keep.applyBudgets
    | apply Keep.migComplete
    | apply Keep.redirectRoutes
    | apply Keep.spareStart
    | (refine Area.sub_trans (b := Touch.execMigrationRedirect) ?_ har; decide)
    | apply Keep.foldl
    | dsimp -zeta only
    | split
    | intro _ _ _
    | intro _ _
    | (refine Keep.rec_fab ?_ ?_; rotate_left; first | assumption | apply Keep.setTile | apply Keep.putMig | apply Keep.applyBudgets | apply Keep.migComplete | apply Keep.redirectRoutes | apply Keep.spareStart | apply Keep.ite | apply Keep.foldl))

def Touch.execPersLoadBegin : Nat := 0x2800008000000000000000000000000000000000000000000000003D01000000027C0018005120
theorem Keep.execPersLoadBegin
    (har : Area.sub Touch.execPersLoadBegin ar = true) (h : Keep ar s t) : KeepO ar s (Machine.execPersLoadBegin t) := by
  unfold Machine.execPersLoadBegin
  repeat' (with_reducible first
    | assumption
    | apply KeepO.next
    | apply KeepO.ite
    | (extract_lets +onlyGivenNames x; (first | apply KeepO.cut x | apply Keep.cut x); rotate_left; intro _; clear_value x; rotate_right; subst x)
    | (extract_lets +onlyGivenNames x; clear_value x)
    | apply Keep.ite
    | apply Keep.dropStaging
    | apply Keep.cmdEndIf
    | apply Keep.slotRefuse
    | apply Keep.loadBegin
    | (refine Area.sub_trans (b := Touch.execPersLoadBegin) ?_ har; decide)
    | split
    | intro _ _ _
    | intro _ _
    | (refine Keep.rec_pers ?_ ?_; rotate_left; first | assumption | apply Keep.dropStaging | apply Keep.cmdEndIf | apply Keep.slotRefuse | apply Keep.loadBegin | apply Keep.ite))

def Touch.execDrainTimeout : Nat := 0x280000800000000000000000000000000000000000000000001E80400100000000000018003020
theorem Keep.execDrainTimeout {n : Nat}
    (har : Area.sub Touch.execDrainTimeout ar = true) (h : Keep ar s t) : KeepO ar s (Machine.execDrainTimeout n t) := by
  unfold Machine.execDrainTimeout
  repeat' (with_reducible first
    | assumption
    | apply KeepO.next
    | apply KeepO.ite
    | (extract_lets +onlyGivenNames x; (first | apply KeepO.cut x | apply Keep.cut x); rotate_left; intro _; clear_value x; rotate_right; subst x)
    | (extract_lets +onlyGivenNames x; clear_value x)
    | apply Keep.ite
    | apply Keep.setTile
    | apply Keep.recIrq
    | apply Keep.migComplete
    | apply Keep.tileEvent
    | apply Keep.sendMarker
    | (refine Area.sub_trans (b := Touch.execDrainTimeout) ?_ har; decide)
    | split
    | intro _ _ _
    | intro _ _)

def Touch.execPersPreloadDone : Nat := 0x280000800000000000000802000000000000000000000000001A0C4113000000027D40180073B2
theorem Keep.execPersPreloadDone
    (har : Area.sub Touch.execPersPreloadDone ar = true) (h : Keep ar s t) : KeepO ar s (Machine.execPersPreloadDone t) := by
  unfold Machine.execPersPreloadDone
  repeat' (with_reducible first
    | assumption
    | apply KeepO.next
    | apply KeepO.ite
    | (extract_lets +onlyGivenNames x; (first | apply KeepO.cut x | apply Keep.cut x); rotate_left; intro _; clear_value x; rotate_right; subst x)
    | (extract_lets +onlyGivenNames x; have hf : RstState := x; clear hf; subst x)
    | (extract_lets +onlyGivenNames x; clear_value x)
    | apply Keep.ite
    | apply Keep.startDeferred
    | apply Keep.stageFail
    | apply Keep.caretakerSys
    | apply Keep.preloadShort
    | apply Keep.preloadStage
    | (refine Area.sub_trans (b := Touch.execPersPreloadDone) ?_ har; decide)
    | split
    | intro _ _ _
    | intro _ _
    | (refine Keep.rec_pers ?_ ?_; rotate_left; first | assumption | apply Keep.startDeferred | apply Keep.stageFail | apply Keep.caretakerSys | apply Keep.preloadShort | apply Keep.preloadStage | apply Keep.ite)
    | (refine Keep.rec_rst ?_ rfl ?_; rotate_left; first | assumption | apply Keep.startDeferred | apply Keep.stageFail | apply Keep.caretakerSys | apply Keep.preloadShort | apply Keep.preloadStage | apply Keep.ite))

def Touch.execPersLoadDone : Nat := 0x2800008000000000000000000000000000000000000000000000003F11000000027C0018405120
theorem Keep.execPersLoadDone
    (har : Area.sub Touch.execPersLoadDone ar = true) (h : Keep ar s t) : KeepO ar s (Machine.execPersLoadDone t) := by
  unfold Machine.execPersLoadDone
  repeat' (with_reducible first
    | assumption
    | apply KeepO.next
    | apply KeepO.ite
    | (extract_lets +onlyGivenNames x; (first | apply KeepO.cut x | apply Keep.cut x); rotate_left; intro _; clear_value x; rotate_right; subst x)
    | (extract_lets +onlyGivenNames x; clear_value x)
    | apply Keep.ite
    | apply Keep.raise
    | apply Keep.cmdEndIf
    | apply Keep.loadEnd
    | (refine Area.sub_trans (b := Touch.execPersLoadDone) ?_ har; decide)
    | (refine Area.fld_mono (a := Touch.execPersLoadDone) ?_ har; decide)
    | split
    | intro _ _ _
    | intro _ _
    | (refine Keep.rec_pers ?_ ?_; rotate_left; first | assumption | apply Keep.raise | apply Keep.cmdEndIf | apply Keep.loadEnd | apply Keep.ite))

def Touch.execMigrationDrainDone : Nat := 0x280000800000000000000000000000000000000000000000001E00400100000000000010003020
theorem Keep.execMigrationDrainDone {n : Nat}
    (har : Area.sub Touch.execMigrationDrainDone ar = true) (h : Keep ar s t) : KeepO ar s (Machine.execMigrationDrainDone n t) := by
  unfold Machine.execMigrationDrainDone
  repeat' (with_reducible first
    | assumption
    | apply KeepO.next
    | apply KeepO.ite
    | (extract_lets +onlyGivenNames x; (first | apply KeepO.cut x | apply Keep.cut x); rotate_left; intro _; clear_value x; rotate_right; subst x)
    | (extract_lets +onlyGivenNames x; clear_value x)
    | apply Keep.ite
    | apply Keep.migComplete
    | apply Keep.sendMarker
    | (refine Area.sub_trans (b := Touch.execMigrationDrainDone) ?_ har; decide)
    | split
    | intro _ _ _
    | intro _ _)

def Touch.execEccCorrect : Nat := 0x1000000000000000000002000
theorem Keep.execEccCorrect {n : Nat} {flit : Bool}
    (har : Area.sub Touch.execEccCorrect ar = true) (h : Keep ar s t) : KeepO ar s (Machine.execEccCorrect n flit t) := by
  unfold Machine.execEccCorrect
  repeat' (with_reducible first
    | assumption
    | apply KeepO.next
    | apply KeepO.ite
    | apply Keep.ite
    | apply Keep.eccCorrect
    | (refine Area.sub_trans (b := Touch.execEccCorrect) ?_ har; decide)
    | split
    | intro _ _ _
    | intro _ _)

def Touch.execActSlip : Nat := 0x280000800000000000000000000000000000000000000000000200001100000000000018003020
theorem Keep.execActSlip
    (har : Area.sub Touch.execActSlip ar = true) (h : Keep ar s t) : KeepO ar s (Machine.execActSlip t) := by
  unfold Machine.execActSlip
  repeat' (with_reducible first
    | assumption
    | apply KeepO.next
    | apply KeepO.ite
    | (extract_lets +onlyGivenNames x; (first | apply KeepO.cut x | apply Keep.cut x); rotate_left; intro _; clear_value x; rotate_right; subst x)
    | (extract_lets +onlyGivenNames x; clear_value x)
    | apply Keep.ite
    | apply Keep.actSlip
    | (refine Area.sub_trans (b := Touch.execActSlip) ?_ har; decide)
    | split
    | intro _ _ _
    | intro _ _)

end Sys2Proof
end

