-- ==== Sys2Proof/Laws/KeepMem.lean ====
section
/-!
SUPPORT. The operations and meanings of Machine/Mem.lean keep what `Keep` says.
-/

namespace Sys2Proof

open Sys2Proof.Machine

variable {ar : Nat} {s t u : Machine.State}

def Touch.activate : Nat := 0x800000020C00000000000000000000000000000000000000000000000000000010000800
theorem Keep.activate {q : Sys2Proof.MemReq} {ch : Nat}
    (har : Area.sub Touch.activate ar = true) (h : Keep ar s t) : Keep ar s (Machine.State.activate t q ch) := by
  unfold Machine.State.activate
  repeat' (with_reducible first
    | assumption
    | (extract_lets +onlyGivenNames x; (apply Keep.cut x); rotate_left; intro _; clear_value x; rotate_right; subst x)
    | (extract_lets +onlyGivenNames x; have hf : (∀ z, x z = x z) := fun _ => rfl; clear hf; subst x; try dsimp -zeta only)
    | (extract_lets +onlyGivenNames x; clear_value x)
    | apply Keep.ite
    | apply Keep.put
    | apply Keep.bump
    | apply Keep.raise
    | (refine Area.sub_trans (b := Touch.activate) ?_ har; decide)
    | (refine Area.fld_mono (a := Touch.activate) ?_ har; decide)
    | dsimp -zeta only
    | split
    | intro _ _ _
    | intro _ _
    | (refine Keep.rec_mem ?_ ?_; rotate_left; first | assumption | apply Keep.put | apply Keep.bump | apply Keep.raise | apply Keep.ite))

def Touch.memFreeze : Nat := 0x28000080000002001D0000000000000000000000000000000000000000000000021C0018004930
theorem Keep.memFreeze {cause : Nat} {addr : Nat} {syndrome : Nat}
    (har : Area.sub Touch.memFreeze ar = true) (h : Keep ar s t) : Keep ar s (Machine.State.memFreeze t cause addr syndrome) := by
  unfold Machine.State.memFreeze
  repeat' (with_reducible first
    | assumption
    | (extract_lets +onlyGivenNames x; (apply Keep.cut x); rotate_left; intro _; clear_value x; rotate_right; subst x)
    | (extract_lets +onlyGivenNames x; clear_value x)
    | apply Keep.ite
    | apply Keep.put
    | apply Keep.raise
    | apply Keep.offer
    | apply Keep.sendFail
    | apply Keep.alert
    | apply Keep.notice
    | (refine Area.sub_trans (b := Touch.memFreeze) ?_ har; decide)
    | (refine Area.fld_mono (a := Touch.memFreeze) ?_ har; decide)
    | split
    | intro _ _ _
    | intro _ _
    | (refine Keep.rec_mem ?_ ?_; rotate_left; first | assumption | apply Keep.put | apply Keep.raise | apply Keep.offer | apply Keep.sendFail | apply Keep.alert | apply Keep.notice | apply Keep.ite))

def Touch.memCorrect : Nat := 0x800000020002000000000000000000000000000000000000000000000000000010002000
theorem Keep.memCorrect {scrub : Bool} {addr : Nat}
    (har : Area.sub Touch.memCorrect ar = true) (h : Keep ar s t) : Keep ar s (Machine.State.memCorrect t scrub addr) := by
  unfold Machine.State.memCorrect
  repeat' (with_reducible first
    | assumption
    | (extract_lets +onlyGivenNames x; (apply Keep.cut x); rotate_left; intro _; clear_value x; rotate_right; subst x)
    | (extract_lets +onlyGivenNames x; clear_value x)
    | apply Keep.ite
    | apply Keep.bump
    | apply Keep.raise
    | apply Keep.noteCorr
    | (refine Area.sub_trans (b := Touch.memCorrect) ?_ har; decide)
    | (refine Area.fld_mono (a := Touch.memCorrect) ?_ har; decide)
    | split
    | intro _ _ _
    | intro _ _)

def Touch.eccEffect : Nat := 0x28000080000002001F0000000000000000000000000000000000000000000000021C0018006930
theorem Keep.eccEffect {ecc : Sys2Proof.EccOutcome} {addr : Nat} {cause : Nat}
    (har : Area.sub Touch.eccEffect ar = true) (h : Keep ar s t) : Keep ar s (Machine.State.eccEffect t ecc addr cause) := by
  unfold Machine.State.eccEffect
  repeat' (with_reducible first
    | assumption
    | (extract_lets +onlyGivenNames x; (apply Keep.cut x); rotate_left; intro _; clear_value x; rotate_right; subst x)
    | (extract_lets +onlyGivenNames x; clear_value x)
    | apply Keep.memFreeze
    | apply Keep.memCorrect
    | apply Keep.fetchPoison
    | (refine Area.sub_trans (b := Touch.eccEffect) ?_ har; decide)
    | split
    | intro _ _ _
    | intro _ _)

def Touch.regionJudge : Nat := 0x100000000000000000000000000000000000000000000000000000000000000000
theorem Keep.regionJudge {i : Nat}
    (har : Area.sub Touch.regionJudge ar = true) (h : Keep ar s t) : Keep ar s (Machine.State.regionJudge t i) := by
  unfold Machine.State.regionJudge
  repeat' (with_reducible first
    | assumption
    | (extract_lets +onlyGivenNames x; (apply Keep.cut x); rotate_left; intro _; clear_value x; rotate_right; subst x)
    | (extract_lets +onlyGivenNames x; clear_value x)
    | apply Keep.ite
    | apply Keep.put
    | (refine Area.sub_trans (b := Touch.regionJudge) ?_ har; decide)
    | (refine Area.fld_mono (a := Touch.regionJudge) ?_ har; decide)
    | split
    | intro _ _ _
    | intro _ _)

def Touch.regionPut : Nat := 0x1C0000000000000000000000000000000000000000000000000000000000000000
theorem Keep.regionPut {i : Nat} {k : Nat} {data : Sys2Proof.Word}
    (har : Area.sub Touch.regionPut ar = true) (h : Keep ar s t) : Keep ar s (Machine.State.regionPut t i k data) := by
  unfold Machine.State.regionPut
  repeat' (with_reducible first
    | assumption
    | (extract_lets +onlyGivenNames x; (apply Keep.cut x); rotate_left; intro _; clear_value x; rotate_right; subst x)
    | (extract_lets +onlyGivenNames x; clear_value x)
    | apply Keep.ite
    | apply Keep.put
    | apply Keep.regionJudge
    | (refine Area.sub_trans (b := Touch.regionPut) ?_ har; decide)
    | (refine Area.fld_mono (a := Touch.regionPut) ?_ har; decide)
    | split
    | intro _ _ _
    | intro _ _)

def Touch.execRegionWrite : Nat := 0x2800008000001C0000000000000000000000000000000000000000000000000000000010000020
theorem Keep.execRegionWrite {r : Sys2Proof.Req} {i : Nat} {k : Nat} {data : Sys2Proof.Word}
    (har : Area.sub Touch.execRegionWrite ar = true) (h : Keep ar s t) : KeepO ar s (Machine.execRegionWrite r i k data t) := by
  unfold Machine.execRegionWrite
  repeat' (with_reducible first
    | assumption
    | apply KeepO.next
    | apply KeepO.ite
    | apply Keep.ite
    | apply Keep.ignored
    | apply Keep.regionPut
    | (refine Area.sub_trans (b := Touch.execRegionWrite) ?_ har; decide)
    | split
    | intro _ _ _
    | intro _ _)

def Touch.execMemUnfreeze : Nat := 0x280000800000000005000000000000000000000000000000000000000000000000000010000820
theorem Keep.execMemUnfreeze {r : Sys2Proof.Req} {key : Nat} {c : Nat}
    (har : Area.sub Touch.execMemUnfreeze ar = true) (h : Keep ar s t) : KeepO ar s (Machine.execMemUnfreeze r key c t) := by
  unfold Machine.execMemUnfreeze
  repeat' (with_reducible first
    | assumption
    | apply KeepO.next
    | apply KeepO.ite
    | (extract_lets +onlyGivenNames x; (first | apply KeepO.cut x | apply Keep.cut x); rotate_left; intro _; clear_value x; rotate_right; subst x)
    | (extract_lets +onlyGivenNames x; clear_value x)
    | apply Keep.ite
    | apply Keep.put
    | apply Keep.ignored
    | (refine Area.sub_trans (b := Touch.execMemUnfreeze) ?_ har; decide)
    | (refine Area.fld_mono (a := Touch.execMemUnfreeze) ?_ har; decide)
    | split
    | intro _ _ _
    | intro _ _
    | (refine Keep.rec_mem ?_ ?_; rotate_left; first | assumption | apply Keep.put | apply Keep.ignored | apply Keep.ite))

def Touch.freqJudge : Nat := 0x800000030000000000000000000000000000000000000000000000000000000010000800
theorem Keep.freqJudge {v : Nat}
    (har : Area.sub Touch.freqJudge ar = true) (h : Keep ar s t) : Keep ar s (Machine.State.freqJudge t v) := by
  unfold Machine.State.freqJudge
  repeat' (with_reducible first
    | assumption
    | (extract_lets +onlyGivenNames x; (apply Keep.cut x); rotate_left; intro _; clear_value x; rotate_right; subst x)
    | (extract_lets +onlyGivenNames x; clear_value x)
    | apply Keep.ite
    | apply Keep.put
    | apply Keep.raise
    | (refine Area.sub_trans (b := Touch.freqJudge) ?_ har; decide)
    | (refine Area.fld_mono (a := Touch.freqJudge) ?_ har; decide)
    | split
    | intro _ _ _
    | intro _ _
    | (refine Keep.rec_mem ?_ ?_; rotate_left; first | assumption | apply Keep.put | apply Keep.raise | apply Keep.ite))

def Touch.freqRequest : Nat := 0x800000030000000000000000000000000000000000000000000000000000000010000800
theorem Keep.freqRequest {v : Nat}
    (har : Area.sub Touch.freqRequest ar = true) (h : Keep ar s t) : Keep ar s (Machine.State.freqRequest t v) := by
  unfold Machine.State.freqRequest
  repeat' (with_reducible first
    | assumption
    | (extract_lets +onlyGivenNames x; (apply Keep.cut x); rotate_left; intro _; clear_value x; rotate_right; subst x)
    | (extract_lets +onlyGivenNames x; clear_value x)
    | apply Keep.ite
    | apply Keep.put
    | apply Keep.freqJudge
    | (refine Area.sub_trans (b := Touch.freqRequest) ?_ har; decide)
    | (refine Area.fld_mono (a := Touch.freqRequest) ?_ har; decide)
    | split
    | intro _ _ _
    | intro _ _
    | (refine Keep.rec_mem ?_ ?_; rotate_left; first | assumption | apply Keep.put | apply Keep.freqJudge | apply Keep.ite))

def Touch.memSelfRefresh : Nat := 0x1000000000000000000000000000000000000000000000000000000000800
theorem Keep.memSelfRefresh {enter : Bool}
    (har : Area.sub Touch.memSelfRefresh ar = true) (h : Keep ar s t) : Keep ar s (Machine.State.memSelfRefresh t enter) := by
  unfold Machine.State.memSelfRefresh
  repeat' (with_reducible first
    | assumption
    | (extract_lets +onlyGivenNames x; (apply Keep.cut x); rotate_left; intro _; clear_value x; rotate_right; subst x)
    | (extract_lets +onlyGivenNames x; have hf : (∀ z, x z = x z) := fun _ => rfl; clear hf; subst x; try dsimp -zeta only)
    | (extract_lets +onlyGivenNames x; clear_value x)
    | apply Keep.ite
    | apply Keep.put
    | (refine Area.sub_trans (b := Touch.memSelfRefresh) ?_ har; decide)
    | (refine Area.fld_mono (a := Touch.memSelfRefresh) ?_ har; decide)
    | apply Keep.foldl
    | dsimp -zeta only
    | split
    | intro _ _ _
    | intro _ _
    | (refine Keep.rec_mem ?_ ?_; rotate_left; first | assumption | apply Keep.put | apply Keep.ite | apply Keep.foldl))

def Touch.swapTraining : Nat := 0x800
theorem Keep.swapTraining {old : Nat} {new : Nat}
    (har : Area.sub Touch.swapTraining ar = true) (h : Keep ar s t) : Keep ar s (Machine.State.swapTraining t old new) := by
  unfold Machine.State.swapTraining
  repeat' (with_reducible first
    | assumption
    | (extract_lets +onlyGivenNames x; (apply Keep.cut x); rotate_left; intro _; clear_value x; rotate_right; subst x)
    | (extract_lets +onlyGivenNames x; have hf : (∀ z, x z = x z) := fun _ => rfl; clear hf; subst x; try dsimp -zeta only)
    | (extract_lets +onlyGivenNames x; clear_value x)
    | (refine Area.sub_trans (b := Touch.swapTraining) ?_ har; decide)
    | dsimp -zeta only
    | (refine Keep.rec_mem ?_ ?_; rotate_left; first | assumption))

def Touch.freqDone : Nat := 0x800000030001000000000000000000000000000000000000000000000000000010000800
theorem Keep.freqDone {v : Nat}
    (har : Area.sub Touch.freqDone ar = true) (h : Keep ar s t) : Keep ar s (Machine.State.freqDone t v) := by
  unfold Machine.State.freqDone
  repeat' (with_reducible first
    | assumption
    | (extract_lets +onlyGivenNames x; (apply Keep.cut x); rotate_left; intro _; clear_value x; rotate_right; subst x)
    | (extract_lets +onlyGivenNames x; have hf : (∀ z, x z = x z) := fun _ => rfl; clear hf; subst x; try dsimp -zeta only)
    | (extract_lets +onlyGivenNames x; clear_value x)
    | apply Keep.ite
    | apply Keep.put
    | apply Keep.raise
    | apply Keep.freqJudge
    | apply Keep.swapTraining
    | (refine Area.sub_trans (b := Touch.freqDone) ?_ har; decide)
    | (refine Area.fld_mono (a := Touch.freqDone) ?_ har; decide)
    | apply Keep.foldl
    | dsimp -zeta only
    | split
    | intro _ _ _
    | intro _ _
    | (refine Keep.rec_mem ?_ ?_; rotate_left; first | assumption | apply Keep.put | apply Keep.raise | apply Keep.freqJudge | apply Keep.swapTraining | apply Keep.ite | apply Keep.foldl))

def Touch.frozenServe : Nat := 0x280000800000000000000000000000000000000000000000000000000000000000000018000820
theorem Keep.frozenServe {q : Sys2Proof.MemReq}
    (har : Area.sub Touch.frozenServe ar = true) (h : Keep ar s t) : Keep ar s (Machine.State.frozenServe t q) := by
  unfold Machine.State.frozenServe
  repeat' (with_reducible first
    | assumption
    | (extract_lets +onlyGivenNames x; (apply Keep.cut x); rotate_left; intro _; clear_value x; rotate_right; subst x)
    | (extract_lets +onlyGivenNames x; clear_value x)
    | apply Keep.ite
    | apply Keep.recOther
    | (refine Area.sub_trans (b := Touch.frozenServe) ?_ har; decide)
    | split
    | intro _ _ _
    | intro _ _
    | (refine Keep.rec_mem ?_ ?_; rotate_left; first | assumption | apply Keep.recOther | apply Keep.ite))

def Touch.geyser : Nat := 0x280000000000000000000000000000000000000000000000000000000000000
theorem Keep.geyser {ch : Nat}
    (har : Area.sub Touch.geyser ar = true) (h : Keep ar s t) : Keep ar s (Machine.State.geyser t ch) := by
  unfold Machine.State.geyser
  repeat' (with_reducible first
    | assumption
    | apply Keep.ite
    | apply Keep.put
    | apply Keep.bump
    | (refine Area.sub_trans (b := Touch.geyser) ?_ har; decide)
    | (refine Area.fld_mono (a := Touch.geyser) ?_ har; decide)
    | split
    | intro _ _ _
    | intro _ _)

def Touch.memAccess : Nat := 0x400800
theorem Keep.memAccess {q : Sys2Proof.MemReq}
    (har : Area.sub Touch.memAccess ar = true) (h : Keep ar s t) : Keep ar s (Machine.State.memAccess t q) := by
  unfold Machine.State.memAccess
  repeat' (with_reducible first
    | assumption
    | (extract_lets +onlyGivenNames x; (apply Keep.cut x); rotate_left; intro _; clear_value x; rotate_right; subst x)
    | (extract_lets +onlyGivenNames x; clear_value x)
    | apply Keep.writeBytes
    | (refine Area.sub_trans (b := Touch.memAccess) ?_ har; decide)
    | split
    | intro _ _ _
    | intro _ _
    | (refine Keep.rec_mem ?_ ?_; rotate_left; first | assumption | apply Keep.writeBytes))

def Touch.pageClose : Nat := 0x800
theorem Keep.pageClose {ch : Nat} {bank : Nat}
    (har : Area.sub Touch.pageClose ar = true) (h : Keep ar s t) : Keep ar s (Machine.State.pageClose t ch bank) := by
  unfold Machine.State.pageClose
  repeat' (with_reducible first
    | assumption
    | (extract_lets +onlyGivenNames x; (apply Keep.cut x); rotate_left; intro _; clear_value x; rotate_right; subst x)
    | (extract_lets +onlyGivenNames x; have hf : (∀ z, x z = x z) := fun _ => rfl; clear hf; subst x; try dsimp -zeta only)
    | (extract_lets +onlyGivenNames x; clear_value x)
    | (refine Area.sub_trans (b := Touch.pageClose) ?_ har; decide)
    | dsimp -zeta only
    | (refine Keep.rec_mem ?_ ?_; rotate_left; first | assumption))

def Touch.memHist : Nat := 0x20000000000000000000000000000000000000000000000000000008000000
theorem Keep.memHist {c : Nat} {bank : Nat} {ch : Nat}
    (har : Area.sub Touch.memHist ar = true) (h : Keep ar s t) : Keep ar s (Machine.State.memHist t c bank ch) := by
  unfold Machine.State.memHist
  repeat' (with_reducible first
    | assumption
    | (extract_lets +onlyGivenNames x; (apply Keep.cut x); rotate_left; intro _; clear_value x; rotate_right; subst x)
    | (extract_lets +onlyGivenNames x; have hf : (∀ z, x z = x z) := fun _ => rfl; clear hf; subst x; try dsimp -zeta only)
    | (extract_lets +onlyGivenNames x; clear_value x)
    | apply Keep.put
    | apply Keep.tookFree
    | (refine Area.sub_trans (b := Touch.memHist) ?_ har; decide)
    | (refine Area.fld_mono (a := Touch.memHist) ?_ har; decide)
    | apply Keep.foldl
    | dsimp -zeta only
    | intro _ _ _
    | intro _ _)

def Touch.memServe : Nat := 0x280000800000020C7F0000000000000000000000000000000000000000000000021C0018406930
theorem Keep.memServe {q : Sys2Proof.MemReq}
    (har : Area.sub Touch.memServe ar = true) (h : Keep ar s t) : Keep ar s (Machine.State.memServe t q) := by
  unfold Machine.State.memServe
  repeat' (with_reducible first
    | assumption
    | (extract_lets +onlyGivenNames x; (apply Keep.cut x); rotate_left; intro _; clear_value x; rotate_right; subst x)
    | (extract_lets +onlyGivenNames x; clear_value x)
    | apply Keep.ite
    | apply Keep.count
    | apply Keep.activate
    | apply Keep.eccEffect
    | apply Keep.frozenServe
    | apply Keep.memAccess
    | apply Keep.pageClose
    | apply Keep.memHist
    | (refine Area.sub_trans (b := Touch.memServe) ?_ har; decide)
    | (refine Area.fld_mono (a := Touch.memServe) ?_ har; decide)
    | split
    | intro _ _ _
    | intro _ _)

def Touch.memDrain : Nat := 0x280000800000020C7F0000000000000000000000000000000000000000000000021C0018406930
theorem Keep.memDrain {a0 : Nat}
    (har : Area.sub Touch.memDrain ar = true) (h : Keep ar s t) : Keep ar s (Machine.State.memDrain a0 t) := by
  induction a0 generalizing t with
  | zero => exact h
  | succ k ih =>
    unfold Machine.State.memDrain
    split
    · exact ih (Keep.memServe (Area.sub_trans (b := Touch.memDrain) (by decide) har) (Keep.rec_mem (Area.sub_trans (b := Touch.memDrain) (by decide) har) h))
    · exact h

def Touch.execMr4Read : Nat := 0x800000020281000000000000000000000000000000000000000000000000000010000000
theorem Keep.execMr4Read {ch : Nat} {code : Nat} {rate : Sys2Proof.Mr4Rate}
    (har : Area.sub Touch.execMr4Read ar = true) (h : Keep ar s t) : KeepO ar s (Machine.execMr4Read ch code rate t) := by
  unfold Machine.execMr4Read
  repeat' (with_reducible first
    | assumption
    | apply KeepO.next
    | apply KeepO.ite
    | (extract_lets +onlyGivenNames x; (first | apply KeepO.cut x | apply Keep.cut x); rotate_left; intro _; clear_value x; rotate_right; subst x)
    | (extract_lets +onlyGivenNames x; clear_value x)
    | apply Keep.ite
    | apply Keep.put
    | apply Keep.bump
    | apply Keep.raise
    | (refine Area.sub_trans (b := Touch.execMr4Read) ?_ har; decide)
    | (refine Area.fld_mono (a := Touch.execMr4Read) ?_ har; decide)
    | split
    | intro _ _ _
    | intro _ _)

def Touch.execRefreshDue : Nat := 0x280000000000000000000000000000000000000000000000000000000000000
theorem Keep.execRefreshDue {ch : Nat} {postpone : Bool}
    (har : Area.sub Touch.execRefreshDue ar = true) (h : Keep ar s t) : KeepO ar s (Machine.execRefreshDue ch postpone t) := by
  unfold Machine.execRefreshDue
  repeat' (with_reducible first
    | assumption
    | apply KeepO.next
    | apply KeepO.ite
    | (extract_lets +onlyGivenNames x; (first | apply KeepO.cut x | apply Keep.cut x); rotate_left; intro _; clear_value x; rotate_right; subst x)
    | (extract_lets +onlyGivenNames x; clear_value x)
    | apply Keep.ite
    | apply Keep.put
    | apply Keep.bump
    | (refine Area.sub_trans (b := Touch.execRefreshDue) ?_ har; decide)
    | (refine Area.fld_mono (a := Touch.execRefreshDue) ?_ har; decide)
    | split
    | intro _ _ _
    | intro _ _)

def Touch.execMemFreqChangeStart : Nat := 0x280000800000030EFF0000000000000000000000000000000000000000000000021C0018406930
theorem Keep.execMemFreqChangeStart
    (har : Area.sub Touch.execMemFreqChangeStart ar = true) (h : Keep ar s t) : KeepO ar s (Machine.execMemFreqChangeStart t) := by
  unfold Machine.execMemFreqChangeStart
  repeat' (with_reducible first
    | assumption
    | apply KeepO.next
    | apply KeepO.ite
    | (extract_lets +onlyGivenNames x; (first | apply KeepO.cut x | apply Keep.cut x); rotate_left; intro _; clear_value x; rotate_right; subst x)
    | (extract_lets +onlyGivenNames x; have hf : (∀ z, x z = x z) := fun _ => rfl; clear hf; subst x; try dsimp -zeta only)
    | (extract_lets +onlyGivenNames x; clear_value x)
    | apply Keep.ite
    | apply Keep.put
    | apply Keep.geyser
    | apply Keep.memDrain
    | (refine Area.sub_trans (b := Touch.execMemFreqChangeStart) ?_ har; decide)
    | (refine Area.fld_mono (a := Touch.execMemFreqChangeStart) ?_ har; decide)
    | apply Keep.foldl
    | dsimp -zeta only
    | split
    | intro _ _ _
    | intro _ _)

def Touch.execFreezeCoreTimeout : Nat := 0x280000800000000000000000000000000000000000000000000000000000000000004010000922
theorem Keep.execFreezeCoreTimeout
    (har : Area.sub Touch.execFreezeCoreTimeout ar = true) (h : Keep ar s t) : KeepO ar s (Machine.execFreezeCoreTimeout t) := by
  unfold Machine.execFreezeCoreTimeout
  repeat' (with_reducible first
    | assumption
    | apply KeepO.next
    | apply KeepO.ite
    | (extract_lets +onlyGivenNames x; (first | apply KeepO.cut x | apply Keep.cut x); rotate_left; intro _; clear_value x; rotate_right; subst x)
    | (extract_lets +onlyGivenNames x; clear_value x)
    | apply Keep.ite
    | apply Keep.coreSource
    | (refine Area.sub_trans (b := Touch.execFreezeCoreTimeout) ?_ har; decide)
    | (refine Area.fld_mono (a := Touch.execFreezeCoreTimeout) ?_ har; decide)
    | split
    | intro _ _ _
    | intro _ _
    | (refine Keep.rec_mem ?_ ?_; rotate_left; first | assumption | apply Keep.coreSource | apply Keep.ite))

def Touch.execMemFreqRequest : Nat := 0x800000030000000000000000000000000000000000000000000000000000000010000800
theorem Keep.execMemFreqRequest {v : Nat}
    (har : Area.sub Touch.execMemFreqRequest ar = true) (h : Keep ar s t) : KeepO ar s (Machine.execMemFreqRequest v t) := by
  unfold Machine.execMemFreqRequest
  repeat' (with_reducible first
    | assumption
    | apply KeepO.next
    | apply KeepO.ite
    | apply Keep.freqRequest
    | (refine Area.sub_trans (b := Touch.execMemFreqRequest) ?_ har; decide)
    | intro _ _ _
    | intro _ _)

def Touch.execScrubRead : Nat := 0x28000080000002001F0000000000000000000000000000000000000000000000021C0018006930
theorem Keep.execScrubRead {addr : Nat} {ecc : Sys2Proof.EccOutcome}
    (har : Area.sub Touch.execScrubRead ar = true) (h : Keep ar s t) : KeepO ar s (Machine.execScrubRead addr ecc t) := by
  unfold Machine.execScrubRead
  repeat' (with_reducible first
    | assumption
    | apply KeepO.next
    | apply KeepO.ite
    | apply Keep.ite
    | apply Keep.eccEffect
    | (refine Area.sub_trans (b := Touch.execScrubRead) ?_ har; decide)
    | split
    | intro _ _ _
    | intro _ _)

def Touch.execMemRequest : Nat := 0x280000800000020C7F0000000000000000000000000000000000000000000000021C0018406930
theorem Keep.execMemRequest {c : Nat} {arrive : Option Sys2Proof.MemReq} {pass : Bool}
    (har : Area.sub Touch.execMemRequest ar = true) (h : Keep ar s t) : KeepO ar s (Machine.execMemRequest c arrive pass t) := by
  unfold Machine.execMemRequest
  extract_lets src s1
  have h1 : Keep ar s s1 := by
    dsimp -zeta only [s1]
    split
    · exact Keep.ite (Keep.rec_mem (Area.sub_trans (b := Touch.execMemRequest) (by decide) har) h) h
    · exact h
  clear_value s1
  split
  · split
    · exact KeepO.next (Keep.memServe (Area.sub_trans (b := Touch.execMemRequest) (by decide) har) (Keep.rec_mem (Area.sub_trans (b := Touch.execMemRequest) (by decide) har) h1))
    · exact KeepO.next h1
  · exact KeepO.next h1

def Touch.execGeyserBurst : Nat := 0x280000000000000000000000000000000000000000000000000000000000000
theorem Keep.execGeyserBurst {ch : Nat}
    (har : Area.sub Touch.execGeyserBurst ar = true) (h : Keep ar s t) : KeepO ar s (Machine.execGeyserBurst ch t) := by
  unfold Machine.execGeyserBurst
  repeat' (with_reducible first
    | assumption
    | apply KeepO.next
    | apply KeepO.ite
    | apply Keep.ite
    | apply Keep.geyser
    | (refine Area.sub_trans (b := Touch.execGeyserBurst) ?_ har; decide)
    | split
    | intro _ _ _
    | intro _ _)

def Touch.execPageIdleClose : Nat := 0x800
theorem Keep.execPageIdleClose {ch : Nat} {bank : Nat}
    (har : Area.sub Touch.execPageIdleClose ar = true) (h : Keep ar s t) : KeepO ar s (Machine.execPageIdleClose ch bank t) := by
  unfold Machine.execPageIdleClose
  repeat' (with_reducible first
    | assumption
    | apply KeepO.next
    | apply KeepO.ite
    | apply Keep.pageClose
    | (refine Area.sub_trans (b := Touch.execPageIdleClose) ?_ har; decide)
    | intro _ _ _
    | intro _ _)

def Touch.execRhWindowEnd : Nat := 0x800
theorem Keep.execRhWindowEnd
    (har : Area.sub Touch.execRhWindowEnd ar = true) (h : Keep ar s t) : KeepO ar s (Machine.execRhWindowEnd t) := by
  unfold Machine.execRhWindowEnd
  repeat' (with_reducible first
    | assumption
    | apply KeepO.next
    | apply KeepO.ite
    | (extract_lets +onlyGivenNames x; (first | apply KeepO.cut x | apply Keep.cut x); rotate_left; intro _; clear_value x; rotate_right; subst x)
    | (extract_lets +onlyGivenNames x; clear_value x)
    | (refine Area.sub_trans (b := Touch.execRhWindowEnd) ?_ har; decide)
    | (refine Keep.rec_mem ?_ ?_; rotate_left; first | assumption))

def Touch.execEyeTrack : Nat := 0x280000800000020100000000000000000000000000000000000000000000000000000018000820
theorem Keep.execEyeTrack {ch : Nat} {r0 : Nat} {w0 : Nat} {r1 : Nat} {w1 : Nat} {centres : List Int}
    (har : Area.sub Touch.execEyeTrack ar = true) (h : Keep ar s t) : KeepO ar s (Machine.execEyeTrack ch r0 w0 r1 w1 centres t) := by
  unfold Machine.execEyeTrack
  repeat' (with_reducible first
    | assumption
    | apply KeepO.next
    | apply KeepO.ite
    | (extract_lets +onlyGivenNames x; (first | apply KeepO.cut x | apply Keep.cut x); rotate_left; intro _; clear_value x; rotate_right; subst x)
    | (extract_lets +onlyGivenNames x; have hf : (∀ z, x z = x z) := fun _ => rfl; clear hf; subst x; try dsimp -zeta only)
    | (extract_lets +onlyGivenNames x; clear_value x)
    | apply Keep.ite
    | apply Keep.put
    | apply Keep.raiseRec
    | (refine Area.sub_trans (b := Touch.execEyeTrack) ?_ har; decide)
    | (refine Area.fld_mono (a := Touch.execEyeTrack) ?_ har; decide)
    | dsimp -zeta only
    | split
    | intro _ _ _
    | intro _ _
    | (refine Keep.rec_mem ?_ ?_; rotate_left; first | assumption | apply Keep.put | apply Keep.raiseRec | apply Keep.ite))

end Sys2Proof
end

