-- ==== Sys2Proof/Laws/KeepFab.lean ====
section
/-!
SUPPORT. The operations and meanings of Machine/Fab.lean keep what `Keep` says.
-/

namespace Sys2Proof

open Sys2Proof.Machine

variable {ar : Nat} {s t u : Machine.State}

def Touch.startThread : Nat := 0x8002000
theorem Keep.startThread {n : Nat} {k : Nat} {entry : Nat} {tok : Sys2Proof.Token}
    (har : Area.sub Touch.startThread ar = true) (h : Keep ar s t) : Keep ar s (Machine.State.startThread t n k entry tok) := by
  unfold Machine.State.startThread
  repeat' (with_reducible first
    | assumption
    | (extract_lets +onlyGivenNames x; (apply Keep.cut x); rotate_left; intro _; clear_value x; rotate_right; subst x)
    | (extract_lets +onlyGivenNames x; have hf : (∀ z, x z = x z) := fun _ => rfl; clear hf; subst x; try dsimp -zeta only)
    | (extract_lets +onlyGivenNames x; clear_value x)
    | apply Keep.tookFree
    | apply Keep.setTile
    | (refine Area.sub_trans (b := Touch.startThread) ?_ har; decide)
    | dsimp -zeta only
    | intro _ _ _
    | intro _ _)

def Touch.passOn : Nat := 0x200000000000000000000002000
theorem Keep.passOn {n : Nat} {p : Plane} {tag : Nat} {payload : Nat} {sf : Nat}
    (har : Area.sub Touch.passOn ar = true) (h : Keep ar s t) : Keep ar s (Machine.State.passOn t n p tag payload sf) := by
  unfold Machine.State.passOn
  repeat' (with_reducible first
    | assumption
    | (extract_lets +onlyGivenNames x; (apply Keep.cut x); rotate_left; intro _; clear_value x; rotate_right; subst x)
    | (extract_lets +onlyGivenNames x; have hf : (∀ z, x z = x z) := fun _ => rfl; clear hf; subst x; try dsimp -zeta only)
    | (extract_lets +onlyGivenNames x; clear_value x)
    | apply Keep.setTile
    | apply Keep.sendFabric
    | apply Keep.putMig
    | (refine Area.sub_trans (b := Touch.passOn) ?_ har; decide)
    | dsimp -zeta only
    | split
    | intro _ _ _
    | intro _ _)

def Touch.passSub : Nat := 0x280000800000000000000000000000000000000000000000001A0CC117000000027C4018007132
theorem Keep.passSub {n : Nat} {a2 : Nat}
    (har : Area.sub Touch.passSub ar = true) (h : Keep ar s t) : Keep ar s (Machine.State.passSub t n a2) := by
  induction a2 generalizing t with
  | zero => exact h
  | succ k ih =>
    unfold Machine.State.passSub
    dsimp only
    split
    · exact h
    · split
      · exact ih (Keep.healthUpdate (Area.sub_trans (b := Touch.passSub) (by decide) har) (Keep.passOn (Area.sub_trans (b := Touch.passSub) (by decide) har) (Keep.setTile (Area.sub_trans (b := Touch.passSub) (by decide) har) h)))
      · exact h

def Touch.planeState : Nat := 0x400000000000000000000000
theorem Keep.planeState {n : Nat} {p : Option Plane}
    (har : Area.sub Touch.planeState ar = true) (h : Keep ar s t) : Keep ar s (Machine.State.planeState t n p) := by
  unfold Machine.State.planeState
  repeat' (with_reducible first
    | assumption
    | (extract_lets +onlyGivenNames x; (apply Keep.cut x); rotate_left; intro _; clear_value x; rotate_right; subst x)
    | (extract_lets +onlyGivenNames x; have hf : (∀ z, x z = x z) := fun _ => rfl; clear hf; subst x; try dsimp -zeta only)
    | (extract_lets +onlyGivenNames x; clear_value x)
    | apply Keep.ite
    | apply Keep.setStat
    | (refine Area.sub_trans (b := Touch.planeState) ?_ har; decide)
    | dsimp -zeta only
    | split
    | intro _ _ _
    | intro _ _)

def Touch.swapTile : Nat := 0x280000800000000000000000000000000000000000000000001E00C00100000000000010003020
theorem Keep.swapTile {n : Nat}
    (har : Area.sub Touch.swapTile ar = true) (h : Keep ar s t) : Keep ar s (Machine.State.swapTile t n) := by
  unfold Machine.State.swapTile
  repeat' (with_reducible first
    | assumption
    | (extract_lets +onlyGivenNames x; (apply Keep.cut x); rotate_left; intro _; clear_value x; rotate_right; subst x)
    | (extract_lets +onlyGivenNames x; clear_value x)
    | apply Keep.ite
    | apply Keep.put
    | apply Keep.setTile
    | apply Keep.planeState
    | apply Keep.lmInit
    | apply Keep.migComplete
    | (refine Area.sub_trans (b := Touch.swapTile) ?_ har; decide)
    | (refine Area.fld_mono (a := Touch.swapTile) ?_ har; decide)
    | split
    | intro _ _ _
    | intro _ _)

def Touch.tryBoundary : Nat := 0x280000800000000000000000000000000000000000000000001E0CC117000000027C4018007132
theorem Keep.tryBoundary {n : Nat}
    (har : Area.sub Touch.tryBoundary ar = true) (h : Keep ar s t) : Keep ar s (Machine.State.tryBoundary t n) := by
  unfold Machine.State.tryBoundary
  repeat' (with_reducible first
    | assumption
    | (extract_lets +onlyGivenNames x; (apply Keep.cut x); rotate_left; intro _; clear_value x; rotate_right; subst x)
    | (extract_lets +onlyGivenNames x; have hf : (∀ z, x z = x z) := fun _ => rfl; clear hf; subst x; try dsimp -zeta only)
    | (extract_lets +onlyGivenNames x; clear_value x)
    | apply Keep.ite
    | apply Keep.setTile
    | apply Keep.passOn
    | apply Keep.healthUpdate
    | apply Keep.countTiles
    | apply Keep.swapTile
    | (refine Area.sub_trans (b := Touch.tryBoundary) ?_ har; decide)
    | apply Keep.foldl
    | dsimp -zeta only
    | split
    | intro _ _ _
    | intro _ _)

def Touch.takeSub : Nat := 0x2000
theorem Keep.takeSub {n : Nat} {a2 : Nat}
    (har : Area.sub Touch.takeSub ar = true) (h : Keep ar s t) : Keep ar s (Machine.State.takeSub t n a2) := by
  induction a2 generalizing t with
  | zero => exact h
  | succ k ih =>
    unfold Machine.State.takeSub
    dsimp only
    split
    · exact ih (Keep.setTile (Area.sub_trans (b := Touch.takeSub) (by decide) har) h)
    · exact h

def Touch.settle : Nat := 0x280000800000000000000000000000000000000000000000001E0CC117000000027C4018007132
theorem Keep.settle {n : Nat}
    (har : Area.sub Touch.settle ar = true) (h : Keep ar s t) : Keep ar s (Machine.State.settle t n) := by
  unfold Machine.State.settle
  repeat' (with_reducible first
    | assumption
    | (extract_lets +onlyGivenNames x; (apply Keep.cut x); rotate_left; intro _; clear_value x; rotate_right; subst x)
    | (extract_lets +onlyGivenNames x; clear_value x)
    | apply Keep.passSub
    | apply Keep.tryBoundary
    | apply Keep.takeSub
    | (refine Area.sub_trans (b := Touch.settle) ?_ har; decide)
    | intro _ _ _
    | intro _ _)

def Touch.accepted : Nat := 0x8000000000000000000000000000000000000000000010D0000000000000000010000000
theorem Keep.accepted {n : Nat} {tok : Sys2Proof.Token}
    (har : Area.sub Touch.accepted ar = true) (h : Keep ar s t) : Keep ar s (Machine.State.accepted t n tok) := by
  unfold Machine.State.accepted
  repeat' (with_reducible first
    | assumption
    | (extract_lets +onlyGivenNames x; (apply Keep.cut x); rotate_left; intro _; clear_value x; rotate_right; subst x)
    | (extract_lets +onlyGivenNames x; clear_value x)
    | apply Keep.ite
    | apply Keep.bump
    | apply Keep.count
    | apply Keep.tileEvent
    | (refine Area.sub_trans (b := Touch.accepted) ?_ har; decide)
    | (refine Area.fld_mono (a := Touch.accepted) ?_ har; decide)
    | split
    | intro _ _ _
    | intro _ _)

def Touch.acceptHead : Nat := 0x280000800000000000000000000000000000000000000000001EFCC117000000027C4018007132
theorem Keep.acceptHead {n : Nat} {port : Nat}
    (har : Area.sub Touch.acceptHead ar = true) (h : Keep ar s t) : Keep ar s (Machine.State.acceptHead t n port) := by
  unfold Machine.State.acceptHead
  repeat' (with_reducible first
    | assumption
    | (extract_lets +onlyGivenNames x; (apply Keep.cut x); rotate_left; intro _; clear_value x; rotate_right; subst x)
    | (extract_lets +onlyGivenNames x; have hf : (∀ z, x z = x z) := fun _ => rfl; clear hf; subst x; try dsimp -zeta only)
    | (extract_lets +onlyGivenNames x; clear_value x)
    | apply Keep.ite
    | apply Keep.bump
    | apply Keep.sendToken
    | apply Keep.setTile
    | apply Keep.startThread
    | apply Keep.settle
    | apply Keep.accepted
    | refine KeepSome.of_eq ?_ (by assumption)
    | apply KeepSome.getD
    | (refine Area.sub_trans (b := Touch.acceptHead) ?_ har; decide)
    | (refine Area.fld_mono (a := Touch.acceptHead) ?_ har; decide)
    | dsimp -zeta only
    | split
    | intro _ _ _
    | intro _ _)

def Touch.bring : Nat := 0x2000
theorem Keep.bring {n : Nat} {port : Nat} {a3 : Sys2Proof.Arrival}
    (har : Area.sub Touch.bring ar = true) (h : Keep ar s t) : Keep ar s (Machine.State.bring t n port a3) := by
  unfold Machine.State.bring
  repeat' (with_reducible first
    | assumption
    | (extract_lets +onlyGivenNames x; (apply Keep.cut x); rotate_left; intro _; clear_value x; rotate_right; subst x)
    | (extract_lets +onlyGivenNames x; have hf : (∀ z, x z = x z) := fun _ => rfl; clear hf; subst x; try dsimp -zeta only)
    | (extract_lets +onlyGivenNames x; clear_value x)
    | apply Keep.ite
    | apply Keep.setTile
    | apply Keep.arrive
    | apply Keep.fetchReply
    | refine KeepSome.of_eq ?_ (by assumption)
    | apply KeepSome.getD
    | (refine Area.sub_trans (b := Touch.bring) ?_ har; decide)
    | dsimp -zeta only
    | split
    | intro _ _ _
    | intro _ _)

def Touch.tileUncorr : Nat := 0x280000800000000000000000000000000000000000000000001EACC117000000027C4018007132
theorem Keep.tileUncorr {n : Nat} {injected : Bool}
    (har : Area.sub Touch.tileUncorr ar = true) (h : Keep ar s t) : Keep ar s (Machine.State.tileUncorr t n injected) := by
  unfold Machine.State.tileUncorr
  repeat' (with_reducible first
    | assumption
    | (extract_lets +onlyGivenNames x; (apply Keep.cut x); rotate_left; intro _; clear_value x; rotate_right; subst x)
    | (extract_lets +onlyGivenNames x; clear_value x)
    | apply Keep.ite
    | apply Keep.put
    | apply Keep.bumpBy
    | apply Keep.setTile
    | apply Keep.offerFull
    | apply Keep.migTrigger
    | apply Keep.settle
    | apply Keep.tileEvent
    | apply Keep.retireSpare
    | (refine Area.sub_trans (b := Touch.tileUncorr) ?_ har; decide)
    | (refine Area.fld_mono (a := Touch.tileUncorr) ?_ har; decide)
    | split
    | intro _ _ _
    | intro _ _)

def Touch.execTileInject : Nat := 0x280000800000000000000000000000000000000000000000001EAFC117000000027C4018007132
theorem Keep.execTileInject {n : Nat} {kind : Nat}
    (har : Area.sub Touch.execTileInject ar = true) (h : Keep ar s t) : KeepO ar s (Machine.execTileInject n kind t) := by
  unfold Machine.execTileInject
  repeat' (with_reducible first
    | assumption
    | apply KeepO.next
    | apply KeepO.ite
    | (extract_lets +onlyGivenNames x; (first | apply KeepO.cut x | apply Keep.cut x); rotate_left; intro _; clear_value x; rotate_right; subst x)
    | (extract_lets +onlyGivenNames x; clear_value x)
    | apply Keep.ite
    | apply Keep.residueRetry
    | apply Keep.marginAlarm
    | apply Keep.tileUncorr
    | apply Keep.eccCorrect
    | apply Keep.cacheRefetch
    | (refine Area.sub_trans (b := Touch.execTileInject) ?_ har; decide)
    | split
    | intro _ _ _
    | intro _ _)

def Touch.fabricArrive : Nat := 0x280000800000000000000000000000000000000000000000001E0CC117000000027C4018007132
theorem Keep.fabricArrive {n : Nat} {port : Nat} {tag : Nat}
    (har : Area.sub Touch.fabricArrive ar = true) (h : Keep ar s t) : Keep ar s (Machine.State.fabricArrive t n port tag) := by
  unfold Machine.State.fabricArrive
  repeat' (with_reducible first
    | assumption
    | (extract_lets +onlyGivenNames x; (apply Keep.cut x); rotate_left; intro _; clear_value x; rotate_right; subst x)
    | (extract_lets +onlyGivenNames x; have hf : (∀ z, x z = x z) := fun _ => rfl; clear hf; subst x; try dsimp -zeta only)
    | (extract_lets +onlyGivenNames x; clear_value x)
    | apply Keep.settle
    | apply Keep.arrive
    | refine KeepSome.of_eq ?_ (by assumption)
    | apply KeepSome.getD
    | (refine Area.sub_trans (b := Touch.fabricArrive) ?_ har; decide)
    | dsimp -zeta only
    | split
    | intro _ _ _
    | intro _ _)

def Touch.tileClock : Nat := 0x4000000000000000000002000
theorem Keep.tileClock {c : Sys2Proof.TileClock}
    (har : Area.sub Touch.tileClock ar = true) (h : Keep ar s t) : Keep ar s (Machine.State.tileClock t c) := by
  unfold Machine.State.tileClock
  repeat' (with_reducible first
    | assumption
    | (extract_lets +onlyGivenNames x; (apply Keep.cut x); rotate_left; intro _; clear_value x; rotate_right; subst x)
    | (extract_lets +onlyGivenNames x; clear_value x)
    | apply Keep.put
    | apply Keep.setTile
    | (refine Area.sub_trans (b := Touch.tileClock) ?_ har; decide)
    | (refine Area.fld_mono (a := Touch.tileClock) ?_ har; decide)
    | intro _ _ _
    | intro _ _)

def Touch.execBoundaryTokenArrive : Nat := 0x280000800000000000000000000000000000000000000000001E0CC117000000027C4018007132
theorem Keep.execBoundaryTokenArrive {n : Nat} {port : Nat}
    (har : Area.sub Touch.execBoundaryTokenArrive ar = true) (h : Keep ar s t) : KeepO ar s (Machine.execBoundaryTokenArrive n port t) := by
  unfold Machine.execBoundaryTokenArrive
  repeat' (with_reducible first
    | assumption
    | apply KeepO.next
    | apply KeepO.ite
    | (extract_lets +onlyGivenNames x; (first | apply KeepO.cut x | apply Keep.cut x); rotate_left; intro _; clear_value x; rotate_right; subst x)
    | (extract_lets +onlyGivenNames x; clear_value x)
    | apply Keep.ite
    | apply Keep.passOn
    | apply Keep.healthUpdate
    | apply Keep.swapTile
    | apply Keep.fabricArrive
    | (refine Area.sub_trans (b := Touch.execBoundaryTokenArrive) ?_ har; decide)
    | split
    | intro _ _ _
    | intro _ _)

def Touch.execResidueRetry : Nat := 0x280000800000000000000000000000000000000000000000001EADC117000000027C4018007132
theorem Keep.execResidueRetry {n : Nat} {again : Bool}
    (har : Area.sub Touch.execResidueRetry ar = true) (h : Keep ar s t) : KeepO ar s (Machine.execResidueRetry n again t) := by
  unfold Machine.execResidueRetry
  repeat' (with_reducible first
    | assumption
    | apply KeepO.next
    | apply KeepO.ite
    | apply Keep.ite
    | apply Keep.residueRetry
    | apply Keep.tileUncorr
    | (refine Area.sub_trans (b := Touch.execResidueRetry) ?_ har; decide)
    | split
    | intro _ _ _
    | intro _ _)

def Touch.execQuadVoltageLoop : Nat := 0x80000000000000000000000000000000000000000000F004000000000000000010002000
theorem Keep.execQuadVoltageLoop {q : Nat} {clocks : List Sys2Proof.TileClock}
    (har : Area.sub Touch.execQuadVoltageLoop ar = true) (h : Keep ar s t) : KeepO ar s (Machine.execQuadVoltageLoop q clocks t) := by
  unfold Machine.execQuadVoltageLoop
  repeat' (with_reducible first
    | assumption
    | apply KeepO.next
    | apply KeepO.ite
    | (extract_lets +onlyGivenNames x; (first | apply KeepO.cut x | apply Keep.cut x); rotate_left; intro _; clear_value x; rotate_right; subst x)
    | (extract_lets +onlyGivenNames x; have hf : (∀ z, x z = x z) := fun _ => rfl; clear hf; subst x; try dsimp -zeta only)
    | (extract_lets +onlyGivenNames x; clear_value x)
    | apply Keep.ite
    | apply Keep.put
    | apply Keep.bump
    | apply Keep.raise
    | apply Keep.tileClock
    | (refine Area.sub_trans (b := Touch.execQuadVoltageLoop) ?_ har; decide)
    | (refine Area.fld_mono (a := Touch.execQuadVoltageLoop) ?_ har; decide)
    | apply Keep.foldl
    | dsimp -zeta only
    | split
    | intro _ _ _
    | intro _ _)

def Touch.execDrainMarkerArrive : Nat := 0x280000800000000000000000000000000000000000000000001E0CC117000000027C4018007132
theorem Keep.execDrainMarkerArrive {n : Nat} {port : Nat}
    (har : Area.sub Touch.execDrainMarkerArrive ar = true) (h : Keep ar s t) : KeepO ar s (Machine.execDrainMarkerArrive n port t) := by
  unfold Machine.execDrainMarkerArrive
  repeat' (with_reducible first
    | assumption
    | apply KeepO.next
    | apply KeepO.ite
    | (extract_lets +onlyGivenNames x; (first | apply KeepO.cut x | apply Keep.cut x); rotate_left; intro _; clear_value x; rotate_right; subst x)
    | (extract_lets +onlyGivenNames x; have hf : (∀ z, x z = x z) := fun _ => rfl; clear hf; subst x; try dsimp -zeta only)
    | (extract_lets +onlyGivenNames x; clear_value x)
    | apply Keep.ite
    | apply Keep.setTile
    | apply Keep.settle
    | (refine Area.sub_trans (b := Touch.execDrainMarkerArrive) ?_ har; decide)
    | dsimp -zeta only
    | split
    | intro _ _ _
    | intro _ _
    | (refine Keep.rec_fab ?_ ?_; rotate_left; first | assumption | apply Keep.setTile | apply Keep.settle | apply Keep.ite))

def Touch.execThreadStartHeld : Nat := 0x280000800000000000000000000000000000000000000000001EFCC117000000027C4018007132
theorem Keep.execThreadStartHeld {n : Nat} {port : Nat}
    (har : Area.sub Touch.execThreadStartHeld ar = true) (h : Keep ar s t) : KeepO ar s (Machine.execThreadStartHeld n port t) := by
  unfold Machine.execThreadStartHeld
  repeat' (with_reducible first
    | assumption
    | apply KeepO.next
    | apply KeepO.ite
    | apply Keep.ite
    | apply Keep.acceptHead
    | (refine Area.sub_trans (b := Touch.execThreadStartHeld) ?_ har; decide)
    | split
    | intro _ _ _
    | intro _ _)

def Touch.execTokenDispatch : Nat := 0x280000800000000000000000000000000000000000000000001EFCC117000000027C4018007132
theorem Keep.execTokenDispatch {n : Nat} {port : Nat} {arrive : Option Sys2Proof.Arrival}
    (har : Area.sub Touch.execTokenDispatch ar = true) (h : Keep ar s t) : KeepO ar s (Machine.execTokenDispatch n port arrive t) := by
  unfold Machine.execTokenDispatch
  repeat' (with_reducible first
    | assumption
    | apply KeepO.next
    | apply KeepO.ite
    | (extract_lets +onlyGivenNames x; (first | apply KeepO.cut x | apply Keep.cut x); rotate_left; intro _; clear_value x; rotate_right; subst x)
    | (extract_lets +onlyGivenNames x; clear_value x)
    | apply Keep.ite
    | apply Keep.acceptHead
    | apply Keep.bring
    | (refine Area.sub_trans (b := Touch.execTokenDispatch) ?_ har; decide)
    | split
    | intro _ _ _
    | intro _ _)

def Touch.execDroopDetect : Nat := 0x2000000000000000000002000
theorem Keep.execDroopDetect {n : Nat}
    (har : Area.sub Touch.execDroopDetect ar = true) (h : Keep ar s t) : KeepO ar s (Machine.execDroopDetect n t) := by
  unfold Machine.execDroopDetect
  repeat' (with_reducible first
    | assumption
    | apply KeepO.next
    | apply KeepO.ite
    | (extract_lets +onlyGivenNames x; (first | apply KeepO.cut x | apply Keep.cut x); rotate_left; intro _; clear_value x; rotate_right; subst x)
    | (extract_lets +onlyGivenNames x; clear_value x)
    | apply Keep.ite
    | apply Keep.bump
    | apply Keep.setTile
    | (refine Area.sub_trans (b := Touch.execDroopDetect) ?_ har; decide)
    | (refine Area.fld_mono (a := Touch.execDroopDetect) ?_ har; decide)
    | split
    | intro _ _ _
    | intro _ _)

def Touch.execSubframeTokenArrive : Nat := 0x280000800000000000000000000000000000000000000000001E0CC117000000027C4018007132
theorem Keep.execSubframeTokenArrive {n : Nat} {port : Nat}
    (har : Area.sub Touch.execSubframeTokenArrive ar = true) (h : Keep ar s t) : KeepO ar s (Machine.execSubframeTokenArrive n port t) := by
  unfold Machine.execSubframeTokenArrive
  repeat' (with_reducible first
    | assumption
    | apply KeepO.next
    | apply KeepO.ite
    | apply Keep.ite
    | apply Keep.fabricArrive
    | (refine Area.sub_trans (b := Touch.execSubframeTokenArrive) ?_ har; decide)
    | split
    | intro _ _ _
    | intro _ _)

def Touch.execFlitPoison : Nat := 0x280000800000000000000000000000000000000000000000001EFCC117000000027C4018007132
theorem Keep.execFlitPoison {n : Nat} {port : Nat}
    (har : Area.sub Touch.execFlitPoison ar = true) (h : Keep ar s t) : KeepO ar s (Machine.execFlitPoison n port t) := by
  unfold Machine.execFlitPoison
  repeat' (with_reducible first
    | assumption
    | apply KeepO.next
    | apply KeepO.ite
    | (extract_lets +onlyGivenNames x; (first | apply KeepO.cut x | apply Keep.cut x); rotate_left; intro _; clear_value x; rotate_right; subst x)
    | (extract_lets +onlyGivenNames x; clear_value x)
    | apply Keep.ite
    | apply Keep.setTile
    | apply Keep.acceptHead
    | apply Keep.charge
    | (refine Area.sub_trans (b := Touch.execFlitPoison) ?_ har; decide)
    | split
    | intro _ _ _
    | intro _ _)

def Touch.execTileUncorrectable : Nat := 0x280000800000000000000000000000000000000000000000001EACC117000000027C4018007132
theorem Keep.execTileUncorrectable {n : Nat} {a1 : Sys2Proof.TileErr}
    (har : Area.sub Touch.execTileUncorrectable ar = true) (h : Keep ar s t) : KeepO ar s (Machine.execTileUncorrectable n a1 t) := by
  unfold Machine.execTileUncorrectable
  repeat' (with_reducible first
    | assumption
    | apply KeepO.next
    | apply KeepO.ite
    | apply Keep.ite
    | apply Keep.tileUncorr
    | (refine Area.sub_trans (b := Touch.execTileUncorrectable) ?_ har; decide)
    | split
    | intro _ _ _
    | intro _ _)

def Touch.execTokenForwardRetry : Nat := 0x280000800000000000000000000000000000000000000000001E0CC117000000027C4018007132
theorem Keep.execTokenForwardRetry {n : Nat} {port : Nat}
    (har : Area.sub Touch.execTokenForwardRetry ar = true) (h : Keep ar s t) : KeepO ar s (Machine.execTokenForwardRetry n port t) := by
  unfold Machine.execTokenForwardRetry
  repeat' (with_reducible first
    | assumption
    | apply KeepO.next
    | apply KeepO.ite
    | (extract_lets +onlyGivenNames x; (first | apply KeepO.cut x | apply Keep.cut x); rotate_left; intro _; clear_value x; rotate_right; subst x)
    | (extract_lets +onlyGivenNames x; have hf : (∀ z, x z = x z) := fun _ => rfl; clear hf; subst x; try dsimp -zeta only)
    | (extract_lets +onlyGivenNames x; clear_value x)
    | apply Keep.sendToken
    | apply Keep.setTile
    | apply Keep.settle
    | apply Keep.fetchRun
    | apply Keep.flushOut
    | refine KeepSome.of_eq ?_ (by assumption)
    | apply KeepSome.getD
    | (refine Area.sub_trans (b := Touch.execTokenForwardRetry) ?_ har; decide)
    | apply Keep.foldl
    | dsimp -zeta only
    | split
    | intro _ _ _
    | intro _ _)

end Sys2Proof
end

