-- ==== Sys2Proof/Laws/KeepLzc.lean ====
section
/-!
SUPPORT. The operations and meanings of Machine/Lzc.lean keep what `Keep` says.
-/

namespace Sys2Proof

open Sys2Proof.Machine

variable {ar : Nat} {s t u : Machine.State}

def Touch.innerJob : Nat := 0x100000
theorem Keep.innerJob {q : Sys2Proof.InnerJob}
    (har : Area.sub Touch.innerJob ar = true) (h : Keep ar s t) : Keep ar s (Machine.State.innerJob t q) := by
  unfold Machine.State.innerJob
  repeat' (with_reducible first
    | assumption
    | (extract_lets +onlyGivenNames x; (apply Keep.cut x); rotate_left; intro _; clear_value x; rotate_right; subst x)
    | (extract_lets +onlyGivenNames x; clear_value x)
    | (refine Area.sub_trans (b := Touch.innerJob) ?_ har; decide)
    | (refine Keep.rec_lzc ?_ ?_; rotate_left; first | assumption))

def Touch.deltaJob : Nat := 0x8100000
theorem Keep.deltaJob {op : Nat} {ok : Bool}
    (har : Area.sub Touch.deltaJob ar = true) (h : Keep ar s t) : Keep ar s (Machine.State.deltaJob t op ok) := by
  unfold Machine.State.deltaJob
  repeat' (with_reducible first
    | assumption
    | (extract_lets +onlyGivenNames x; (apply Keep.cut x); rotate_left; intro _; clear_value x; rotate_right; subst x)
    | (extract_lets +onlyGivenNames x; clear_value x)
    | apply Keep.ite
    | apply Keep.tookFree
    | apply Keep.innerJob
    | (refine Area.sub_trans (b := Touch.deltaJob) ?_ har; decide)
    | split
    | intro _ _ _
    | intro _ _)

def Touch.codecError : Nat := 0x280000800000000000000000000000000000000780000000000000000000000000000018000020
theorem Keep.codecError {engine : Nat} {cls : Nat} {index : Nat} {code : Nat} {offset : Nat}
    (har : Area.sub Touch.codecError ar = true) (h : Keep ar s t) : Keep ar s (Machine.State.codecError t engine cls index code offset) := by
  unfold Machine.State.codecError
  repeat' (with_reducible first
    | assumption
    | (extract_lets +onlyGivenNames x; (apply Keep.cut x); rotate_left; intro _; clear_value x; rotate_right; subst x)
    | (extract_lets +onlyGivenNames x; clear_value x)
    | apply Keep.ite
    | apply Keep.put
    | apply Keep.bump
    | apply Keep.raiseRec
    | (refine Area.sub_trans (b := Touch.codecError) ?_ har; decide)
    | (refine Area.fld_mono (a := Touch.codecError) ?_ har; decide)
    | split
    | intro _ _ _
    | intro _ _)

def Touch.engineCount : Nat := 0x7800000000000000000000000000000000000000
theorem Keep.engineCount {e : Nat} {used : Nat} {written : Nat} {suspended : Bool}
    (har : Area.sub Touch.engineCount ar = true) (h : Keep ar s t) : Keep ar s (Machine.State.engineCount t e used written suspended) := by
  unfold Machine.State.engineCount
  repeat' (with_reducible first
    | assumption
    | (extract_lets +onlyGivenNames x; (apply Keep.cut x); rotate_left; intro _; clear_value x; rotate_right; subst x)
    | (extract_lets +onlyGivenNames x; clear_value x)
    | apply Keep.ite
    | apply Keep.put
    | apply Keep.bump
    | apply Keep.count
    | (refine Area.sub_trans (b := Touch.engineCount) ?_ har; decide)
    | (refine Area.fld_mono (a := Touch.engineCount) ?_ har; decide)
    | split
    | intro _ _ _
    | intro _ _)

def Touch.jobFinish : Nat := 0x280000800000000000000000000000000000007FC0000000000000000000000000000018500020
theorem Keep.jobFinish {j : LzcJob} {r : JobResult}
    (har : Area.sub Touch.jobFinish ar = true) (h : Keep ar s t) : Keep ar s (Machine.State.jobFinish t j r) := by
  unfold Machine.State.jobFinish
  repeat' (with_reducible first
    | assumption
    | (extract_lets +onlyGivenNames x; (apply Keep.cut x); rotate_left; intro _; clear_value x; rotate_right; subst x)
    | (extract_lets +onlyGivenNames x; have hf : (∀ z, x z = x z) := fun _ => rfl; clear hf; subst x; try dsimp -zeta only)
    | (extract_lets +onlyGivenNames x; clear_value x)
    | apply Keep.ite
    | apply Keep.bump
    | apply Keep.raiseIf
    | apply Keep.writeBytes
    | apply Keep.codecError
    | apply Keep.engineCount
    | (refine Area.sub_trans (b := Touch.jobFinish) ?_ har; decide)
    | (refine Area.fld_mono (a := Touch.jobFinish) ?_ har; decide)
    | dsimp -zeta only
    | split
    | intro _ _ _
    | intro _ _
    | (refine Keep.rec_lzc ?_ ?_; rotate_left; first | assumption | apply Keep.bump | apply Keep.raiseIf | apply Keep.writeBytes | apply Keep.codecError | apply Keep.engineCount | apply Keep.ite))

def Touch.dropCtx : Nat := 0x100000
theorem Keep.dropCtx {a : Nat}
    (har : Area.sub Touch.dropCtx ar = true) (h : Keep ar s t) : Keep ar s (Machine.State.dropCtx t a) := by
  unfold Machine.State.dropCtx
  repeat' (with_reducible first
    | assumption
    | (extract_lets +onlyGivenNames x; (apply Keep.cut x); rotate_left; intro _; clear_value x; rotate_right; subst x)
    | (extract_lets +onlyGivenNames x; have hf : (∀ z, x z = x z) := fun _ => rfl; clear hf; subst x; try dsimp -zeta only)
    | (extract_lets +onlyGivenNames x; clear_value x)
    | (refine Area.sub_trans (b := Touch.dropCtx) ?_ har; decide)
    | dsimp -zeta only
    | (refine Keep.rec_lzc ?_ ?_; rotate_left; first | assumption))

def Touch.jobAbort : Nat := 0x280000800000000000000000000000000000007FC0000000000000000000000000000018500020
theorem Keep.jobAbort {e : Nat}
    (har : Area.sub Touch.jobAbort ar = true) (h : Keep ar s t) : Keep ar s (Machine.State.jobAbort t e) := by
  unfold Machine.State.jobAbort
  repeat' (with_reducible first
    | assumption
    | (extract_lets +onlyGivenNames x; (apply Keep.cut x); rotate_left; intro _; clear_value x; rotate_right; subst x)
    | (extract_lets +onlyGivenNames x; have hf : (∀ z, x z = x z) := fun _ => rfl; clear hf; subst x; try dsimp -zeta only)
    | (extract_lets +onlyGivenNames x; clear_value x)
    | apply Keep.ite
    | apply Keep.tookFree
    | apply Keep.codecError
    | apply Keep.engineCount
    | apply Keep.jobFinish
    | apply Keep.dropCtx
    | (refine Area.sub_trans (b := Touch.jobAbort) ?_ har; decide)
    | dsimp -zeta only
    | split
    | intro _ _ _
    | intro _ _
    | (refine Keep.rec_lzc ?_ ?_; rotate_left; first | assumption | apply Keep.tookFree | apply Keep.codecError | apply Keep.engineCount | apply Keep.jobFinish | apply Keep.dropCtx | apply Keep.ite))

def Touch.lzcEngCtrl : Nat := 0x280000800000000000000000000000000000007FC0000000000000000000000000000018500020
theorem Keep.lzcEngCtrl {r : Sys2Proof.Req} {e : Nat} {data : Nat}
    (har : Area.sub Touch.lzcEngCtrl ar = true) (h : Keep ar s t) : Keep ar s (Machine.State.lzcEngCtrl t r e data) := by
  unfold Machine.State.lzcEngCtrl
  repeat' (with_reducible first
    | assumption
    | apply Keep.ite
    | apply Keep.ignored
    | apply Keep.jobAbort
    | (refine Area.sub_trans (b := Touch.lzcEngCtrl) ?_ har; decide)
    | split
    | intro _ _ _
    | intro _ _)

def Touch.lzcHead : Nat := 0x28000000000000000000000000000000000000
theorem Keep.lzcHead {v : Nat}
    (har : Area.sub Touch.lzcHead ar = true) (h : Keep ar s t) : Keep ar s (Machine.State.lzcHead t v) := by
  unfold Machine.State.lzcHead
  repeat' (with_reducible first
    | assumption
    | apply Keep.ite
    | apply Keep.put
    | (refine Area.sub_trans (b := Touch.lzcHead) ?_ har; decide)
    | (refine Area.fld_mono (a := Touch.lzcHead) ?_ har; decide)
    | split
    | intro _ _ _
    | intro _ _)

def Touch.lzcStart : Nat := 0x20000000000000000000000000000000000000
theorem Keep.lzcStart
    (har : Area.sub Touch.lzcStart ar = true) (h : Keep ar s t) : Keep ar s (Machine.State.lzcStart t) := by
  unfold Machine.State.lzcStart
  repeat' (with_reducible first
    | assumption
    | apply Keep.ite
    | apply Keep.put
    | (refine Area.sub_trans (b := Touch.lzcStart) ?_ har; decide)
    | (refine Area.fld_mono (a := Touch.lzcStart) ?_ har; decide)
    | split
    | intro _ _ _
    | intro _ _)

def Touch.lzcStop : Nat := 0x20000000000000000000000000000000000000
theorem Keep.lzcStop
    (har : Area.sub Touch.lzcStop ar = true) (h : Keep ar s t) : Keep ar s (Machine.State.lzcStop t) := by
  unfold Machine.State.lzcStop
  repeat' (with_reducible first
    | assumption
    | apply Keep.put
    | (refine Area.sub_trans (b := Touch.lzcStop) ?_ har; decide)
    | (refine Area.fld_mono (a := Touch.lzcStop) ?_ har; decide)
    | intro _ _ _
    | intro _ _)

def Touch.lzcRestart : Nat := 0x20000000000000000000000000000000000000
theorem Keep.lzcRestart
    (har : Area.sub Touch.lzcRestart ar = true) (h : Keep ar s t) : Keep ar s (Machine.State.lzcRestart t) := by
  unfold Machine.State.lzcRestart
  repeat' (with_reducible first
    | assumption
    | (extract_lets +onlyGivenNames x; (apply Keep.cut x); rotate_left; intro _; clear_value x; rotate_right; subst x)
    | (extract_lets +onlyGivenNames x; clear_value x)
    | apply Keep.ite
    | apply Keep.put
    | (refine Area.sub_trans (b := Touch.lzcRestart) ?_ har; decide)
    | (refine Area.fld_mono (a := Touch.lzcRestart) ?_ har; decide)
    | split
    | intro _ _ _
    | intro _ _)

def Touch.lzcCtrl : Nat := 0x20000000000000000000000000000000000000
theorem Keep.lzcCtrl {data : Nat}
    (har : Area.sub Touch.lzcCtrl ar = true) (h : Keep ar s t) : Keep ar s (Machine.State.lzcCtrl t data) := by
  unfold Machine.State.lzcCtrl
  repeat' (with_reducible first
    | assumption
    | (extract_lets +onlyGivenNames x; (apply Keep.cut x); rotate_left; intro _; clear_value x; rotate_right; subst x)
    | (extract_lets +onlyGivenNames x; clear_value x)
    | apply Keep.ite
    | apply Keep.lzcStart
    | apply Keep.lzcStop
    | apply Keep.lzcRestart
    | (refine Area.sub_trans (b := Touch.lzcCtrl) ?_ har; decide)
    | split
    | intro _ _ _
    | intro _ _)

def Touch.lzcCore : Nat := 0x20000000000000000000000000000000100000
theorem Keep.lzcCore
    (har : Area.sub Touch.lzcCore ar = true) (h : Keep ar s t) : Keep ar s (Machine.State.lzcCore t) := by
  unfold Machine.State.lzcCore
  repeat' (with_reducible first
    | assumption
    | (extract_lets +onlyGivenNames x; (apply Keep.cut x); rotate_left; intro _; clear_value x; rotate_right; subst x)
    | (extract_lets +onlyGivenNames x; have hf : (∀ z, x z = x z) := fun _ => rfl; clear hf; subst x; try dsimp -zeta only)
    | (extract_lets +onlyGivenNames x; clear_value x)
    | apply Keep.put
    | (refine Area.sub_trans (b := Touch.lzcCore) ?_ har; decide)
    | (refine Area.fld_mono (a := Touch.lzcCore) ?_ har; decide)
    | dsimp -zeta only
    | intro _ _ _
    | intro _ _
    | (refine Keep.rec_lzc ?_ ?_; rotate_left; first | assumption | apply Keep.put))

def Touch.engineStart : Nat := 0x800000000000000000000000000000000100000
theorem Keep.engineStart {j : LzcJob} {op : Nat} {format : Nat}
    (har : Area.sub Touch.engineStart ar = true) (h : Keep ar s t) : Keep ar s (Machine.State.engineStart t j op format) := by
  unfold Machine.State.engineStart
  repeat' (with_reducible first
    | assumption
    | (extract_lets +onlyGivenNames x; (apply Keep.cut x); rotate_left; intro _; clear_value x; rotate_right; subst x)
    | (extract_lets +onlyGivenNames x; clear_value x)
    | apply Keep.put
    | (refine Area.sub_trans (b := Touch.engineStart) ?_ har; decide)
    | (refine Area.fld_mono (a := Touch.engineStart) ?_ har; decide)
    | intro _ _ _
    | intro _ _
    | (refine Keep.rec_lzc ?_ ?_; rotate_left; first | assumption | apply Keep.put))

def Touch.innerStart : Nat := 0x800000000000000000000000000000000100000
theorem Keep.innerStart {e : Nat} {q : Sys2Proof.InnerJob}
    (har : Area.sub Touch.innerStart ar = true) (h : Keep ar s t) : Keep ar s (Machine.State.innerStart t e q) := by
  unfold Machine.State.innerStart
  repeat' (with_reducible first
    | assumption
    | (extract_lets +onlyGivenNames x; (apply Keep.cut x); rotate_left; intro _; clear_value x; rotate_right; subst x)
    | (extract_lets +onlyGivenNames x; clear_value x)
    | apply Keep.engineStart
    | (refine Area.sub_trans (b := Touch.innerStart) ?_ har; decide)
    | intro _ _ _
    | intro _ _
    | (refine Keep.rec_lzc ?_ ?_; rotate_left; first | assumption | apply Keep.engineStart))

def Touch.keepCtx : Nat := 0x8500000
theorem Keep.keepCtx {d : List Sys2Proof.Byte} {c : LzcCtx}
    (har : Area.sub Touch.keepCtx ar = true) (h : Keep ar s t) : Keep ar s (Machine.State.keepCtx t d c) := by
  unfold Machine.State.keepCtx
  repeat' (with_reducible first
    | assumption
    | (extract_lets +onlyGivenNames x; (apply Keep.cut x); rotate_left; intro _; clear_value x; rotate_right; subst x)
    | (extract_lets +onlyGivenNames x; have hf : (∀ z, x z = x z) := fun _ => rfl; clear hf; subst x; try dsimp -zeta only)
    | (extract_lets +onlyGivenNames x; clear_value x)
    | apply Keep.tookFree
    | apply Keep.writeBytes
    | apply Keep.dropCtx
    | (refine Area.sub_trans (b := Touch.keepCtx) ?_ har; decide)
    | dsimp -zeta only
    | intro _ _ _
    | intro _ _
    | (refine Keep.rec_lzc ?_ ?_; rotate_left; first | assumption | apply Keep.tookFree | apply Keep.writeBytes | apply Keep.dropCtx))

def Touch.jobRun : Nat := 0x280000800000000000000000000000000000007FC0000000000000000000000000000018500020
theorem Keep.jobRun {j : LzcJob}
    (har : Area.sub Touch.jobRun ar = true) (h : Keep ar s t) : Keep ar s (Machine.State.jobRun t j) := by
  unfold Machine.State.jobRun
  repeat' (with_reducible first
    | assumption
    | (extract_lets +onlyGivenNames x; (apply Keep.cut x); rotate_left; intro _; clear_value x; rotate_right; subst x)
    | (extract_lets +onlyGivenNames x; clear_value x)
    | apply Keep.ite
    | apply Keep.tookFree
    | apply Keep.jobFinish
    | apply Keep.dropCtx
    | apply Keep.keepCtx
    | (refine Area.sub_trans (b := Touch.jobRun) ?_ har; decide)
    | split
    | intro _ _ _
    | intro _ _)

def Touch.lzcTaken : Nat := 0x10000000000000000000000000000000100000
theorem Keep.lzcTaken {i : Nat}
    (har : Area.sub Touch.lzcTaken ar = true) (h : Keep ar s t) : Keep ar s (Machine.State.lzcTaken t i) := by
  unfold Machine.State.lzcTaken
  repeat' (with_reducible first
    | assumption
    | (extract_lets +onlyGivenNames x; (apply Keep.cut x); rotate_left; intro _; clear_value x; rotate_right; subst x)
    | (extract_lets +onlyGivenNames x; have hf : (∀ z, x z = x z) := fun _ => rfl; clear hf; subst x; try dsimp -zeta only)
    | (extract_lets +onlyGivenNames x; clear_value x)
    | apply Keep.ite
    | apply Keep.put
    | (refine Area.sub_trans (b := Touch.lzcTaken) ?_ har; decide)
    | (refine Area.fld_mono (a := Touch.lzcTaken) ?_ har; decide)
    | dsimp -zeta only
    | split
    | intro _ _ _
    | intro _ _
    | (refine Keep.rec_lzc ?_ ?_; rotate_left; first | assumption | apply Keep.put | apply Keep.ite))

def Touch.ringStart : Nat := 0x280000800000000000000000000000000000007FD0000000000000000000000000000018500020
theorem Keep.ringStart {e : Nat} {i : Nat} {d : List Sys2Proof.Byte}
    (har : Area.sub Touch.ringStart ar = true) (h : Keep ar s t) : Keep ar s (Machine.State.ringStart t e i d) := by
  unfold Machine.State.ringStart
  repeat' (with_reducible first
    | assumption
    | (extract_lets +onlyGivenNames x; (apply Keep.cut x); rotate_left; intro _; clear_value x; rotate_right; subst x)
    | (extract_lets +onlyGivenNames x; clear_value x)
    | apply Keep.ite
    | apply Keep.jobFinish
    | apply Keep.dropCtx
    | apply Keep.engineStart
    | apply Keep.lzcTaken
    | (refine Area.sub_trans (b := Touch.ringStart) ?_ har; decide)
    | split
    | intro _ _ _
    | intro _ _)

def Touch.lzcRun : Nat := 0x100000
theorem Keep.lzcRun {e : Nat} {n : Nat}
    (har : Area.sub Touch.lzcRun ar = true) (h : Keep ar s t) : Keep ar s (Machine.State.lzcRun t e n) := by
  unfold Machine.State.lzcRun
  repeat' (with_reducible first
    | assumption
    | (extract_lets +onlyGivenNames x; (apply Keep.cut x); rotate_left; intro _; clear_value x; rotate_right; subst x)
    | (extract_lets +onlyGivenNames x; clear_value x)
    | (refine Area.sub_trans (b := Touch.lzcRun) ?_ har; decide)
    | (refine Keep.rec_lzc ?_ ?_; rotate_left; first | assumption))

def Touch.lzcHalt : Nat := 0x800000000000000000000000000000000420000000000000000000000000000010000000
theorem Keep.lzcHalt
    (har : Area.sub Touch.lzcHalt ar = true) (h : Keep ar s t) : Keep ar s (Machine.State.lzcHalt t) := by
  unfold Machine.State.lzcHalt
  repeat' (with_reducible first
    | assumption
    | apply Keep.put
    | apply Keep.raise
    | (refine Area.sub_trans (b := Touch.lzcHalt) ?_ har; decide)
    | (refine Area.fld_mono (a := Touch.lzcHalt) ?_ har; decide)
    | intro _ _ _
    | intro _ _)

def Touch.lowStart : Nat := 0x280000800000000000000000000000000000007FF0000000000000000000000000000018500020
theorem Keep.lowStart {e : Nat} {ring : Option (Nat × Option (List Sys2Proof.Byte))} {export_ : Option Sys2Proof.InnerJob}
    (har : Area.sub Touch.lowStart ar = true) (h : Keep ar s t) : Keep ar s (Machine.State.lowStart t e ring export_) := by
  unfold Machine.State.lowStart
  repeat' (with_reducible first
    | assumption
    | (extract_lets +onlyGivenNames x; (apply Keep.cut x); rotate_left; intro _; clear_value x; rotate_right; subst x)
    | (extract_lets +onlyGivenNames x; clear_value x)
    | apply Keep.innerStart
    | apply Keep.ringStart
    | apply Keep.lzcRun
    | apply Keep.lzcHalt
    | (refine Area.sub_trans (b := Touch.lowStart) ?_ har; decide)
    | split
    | intro _ _ _
    | intro _ _)

def Touch.execLzcRingStop : Nat := 0x20000000000000000000000000000000000000
theorem Keep.execLzcRingStop {a0 : Sys2Proof.Req}
    (har : Area.sub Touch.execLzcRingStop ar = true) (h : Keep ar s t) : KeepO ar s (Machine.execLzcRingStop a0 t) := by
  unfold Machine.execLzcRingStop
  repeat' (with_reducible first
    | assumption
    | apply KeepO.next
    | apply KeepO.ite
    | apply Keep.lzcStop
    | (refine Area.sub_trans (b := Touch.execLzcRingStop) ?_ har; decide)
    | intro _ _ _
    | intro _ _)

def Touch.execLzcRingRestart : Nat := 0x20000000000000000000000000000000000000
theorem Keep.execLzcRingRestart {a0 : Sys2Proof.Req}
    (har : Area.sub Touch.execLzcRingRestart ar = true) (h : Keep ar s t) : KeepO ar s (Machine.execLzcRingRestart a0 t) := by
  unfold Machine.execLzcRingRestart
  repeat' (with_reducible first
    | assumption
    | apply KeepO.next
    | apply KeepO.ite
    | apply Keep.lzcRestart
    | (refine Area.sub_trans (b := Touch.execLzcRingRestart) ?_ har; decide)
    | intro _ _ _
    | intro _ _)

def Touch.execLzcAbort : Nat := 0x280000800000000000000000000000000000007FC0000000000000000000000000000018500020
theorem Keep.execLzcAbort {r : Sys2Proof.Req} {e : Nat} {key : Nat}
    (har : Area.sub Touch.execLzcAbort ar = true) (h : Keep ar s t) : KeepO ar s (Machine.execLzcAbort r e key t) := by
  unfold Machine.execLzcAbort
  repeat' (with_reducible first
    | assumption
    | apply KeepO.next
    | apply KeepO.ite
    | apply Keep.lzcEngCtrl
    | (refine Area.sub_trans (b := Touch.execLzcAbort) ?_ har; decide)
    | intro _ _ _
    | intro _ _)

def Touch.execLzcJobTake : Nat := 0x280000800000000000000000000000000000007FF0000000000000000000000000000018500020
theorem Keep.execLzcJobTake {e : Nat}
    (har : Area.sub Touch.execLzcJobTake ar = true) (h : Keep ar s t) : KeepO ar s (Machine.execLzcJobTake e t) := by
  unfold Machine.execLzcJobTake
  repeat' (with_reducible first
    | assumption
    | apply KeepO.next
    | apply KeepO.ite
    | (extract_lets +onlyGivenNames x; (first | apply KeepO.cut x | apply Keep.cut x); rotate_left; intro _; clear_value x; rotate_right; subst x)
    | (extract_lets +onlyGivenNames x; have hf : (∀ z, x z = x z) := fun _ => rfl; clear hf; subst x; try dsimp -zeta only)
    | (extract_lets +onlyGivenNames x; clear_value x)
    | apply Keep.ite
    | apply Keep.innerStart
    | apply Keep.lzcRun
    | apply Keep.lowStart
    | (refine Area.sub_trans (b := Touch.execLzcJobTake) ?_ har; decide)
    | dsimp -zeta only
    | split
    | intro _ _ _
    | intro _ _)

def Touch.execLzcRingStart : Nat := 0x20000000000000000000000000000000000000
theorem Keep.execLzcRingStart {a0 : Sys2Proof.Req}
    (har : Area.sub Touch.execLzcRingStart ar = true) (h : Keep ar s t) : KeepO ar s (Machine.execLzcRingStart a0 t) := by
  unfold Machine.execLzcRingStart
  repeat' (with_reducible first
    | assumption
    | apply KeepO.next
    | apply KeepO.ite
    | apply Keep.lzcStart
    | (refine Area.sub_trans (b := Touch.execLzcRingStart) ?_ har; decide)
    | intro _ _ _
    | intro _ _)

def Touch.execLzcJobEnd : Nat := 0x280000800000000000000000000000000000007FC0000000000000000000000000000018500020
theorem Keep.execLzcJobEnd {e : Nat}
    (har : Area.sub Touch.execLzcJobEnd ar = true) (h : Keep ar s t) : KeepO ar s (Machine.execLzcJobEnd e t) := by
  unfold Machine.execLzcJobEnd
  repeat' (with_reducible first
    | assumption
    | apply KeepO.next
    | apply KeepO.ite
    | (extract_lets +onlyGivenNames x; (first | apply KeepO.cut x | apply Keep.cut x); rotate_left; intro _; clear_value x; rotate_right; subst x)
    | (extract_lets +onlyGivenNames x; have hf : (∀ z, x z = x z) := fun _ => rfl; clear hf; subst x; try dsimp -zeta only)
    | (extract_lets +onlyGivenNames x; clear_value x)
    | apply Keep.ite
    | apply Keep.codecError
    | apply Keep.engineCount
    | apply Keep.jobRun
    | (refine Area.sub_trans (b := Touch.execLzcJobEnd) ?_ har; decide)
    | dsimp -zeta only
    | split
    | intro _ _ _
    | intro _ _
    | (refine Keep.rec_lzc ?_ ?_; rotate_left; first | assumption | apply Keep.codecError | apply Keep.engineCount | apply Keep.jobRun | apply Keep.ite))

def Touch.execLzcHeadWrite : Nat := 0x28000000000000000000000000000000000000
theorem Keep.execLzcHeadWrite {a0 : Sys2Proof.Req} {v : Nat}
    (har : Area.sub Touch.execLzcHeadWrite ar = true) (h : Keep ar s t) : KeepO ar s (Machine.execLzcHeadWrite a0 v t) := by
  unfold Machine.execLzcHeadWrite
  repeat' (with_reducible first
    | assumption
    | apply KeepO.next
    | apply KeepO.ite
    | apply Keep.lzcHead
    | (refine Area.sub_trans (b := Touch.execLzcHeadWrite) ?_ har; decide)
    | intro _ _ _
    | intro _ _)

end Sys2Proof
end

