-- ==== Sys2Proof/Laws/KeepLink.lean ====
section
/-!
SUPPORT. The operations and meanings of Machine/Link.lean keep what `Keep` says.
-/

namespace Sys2Proof

open Sys2Proof.Machine

variable {ar : Nat} {s t u : Machine.State}

def Touch.sendCtl : Nat := 0x10000000
theorem Keep.sendCtl {j : Nat} {ty : Nat} {bytes : List Nat}
    (har : Area.sub Touch.sendCtl ar = true) (h : Keep ar s t) : Keep ar s (Machine.State.sendCtl t j ty bytes) := by
  unfold Machine.State.sendCtl
  repeat' (with_reducible first
    | assumption
    | apply Keep.sendBlock
    | (refine Area.sub_trans (b := Touch.sendCtl) ?_ har; decide)
    | apply Keep.foldl
    | intro _ _ _
    | intro _ _)

def Touch.sendLine : Nat := 0x10000000
theorem Keep.sendLine {row : Nat} {codes : List (Nat × Nat)} {inv : Bool}
    (har : Area.sub Touch.sendLine ar = true) (h : Keep ar s t) : Keep ar s (Machine.State.sendLine t row codes inv) := by
  unfold Machine.State.sendLine
  repeat' (with_reducible first
    | assumption
    | (extract_lets +onlyGivenNames x; (apply Keep.cut x); rotate_left; intro _; clear_value x; rotate_right; subst x)
    | (extract_lets +onlyGivenNames x; have hf : (∀ z, x z = x z) := fun _ => rfl; clear hf; subst x; try dsimp -zeta only)
    | (extract_lets +onlyGivenNames x; clear_value x)
    | apply Keep.ite
    | apply Keep.emit
    | apply Keep.sendCtl
    | (refine Area.sub_trans (b := Touch.sendLine) ?_ har; decide)
    | apply Keep.foldl
    | dsimp -zeta only
    | split
    | intro _ _ _
    | intro _ _)

def Touch.sendWake : Nat := 0x10000000
theorem Keep.sendWake {j : Nat}
    (har : Area.sub Touch.sendWake ar = true) (h : Keep ar s t) : Keep ar s (Machine.State.sendWake t j) := by
  unfold Machine.State.sendWake
  repeat' (with_reducible first
    | assumption
    | apply Keep.emit
    | apply Keep.sendCtl
    | (refine Area.sub_trans (b := Touch.sendWake) ?_ har; decide)
    | apply Keep.foldl
    | intro _ _ _
    | intro _ _)

def Touch.sendPanel : Nat := 0x10000000
theorem Keep.sendPanel {lens : Bool} {ty : Nat} {bytes : List Nat}
    (har : Area.sub Touch.sendPanel ar = true) (h : Keep ar s t) : Keep ar s (Machine.State.sendPanel t lens ty bytes) := by
  unfold Machine.State.sendPanel
  repeat' (with_reducible first
    | assumption
    | apply Keep.sendCtl
    | (refine Area.sub_trans (b := Touch.sendPanel) ?_ har; decide)
    | apply Keep.foldl
    | intro _ _ _
    | intro _ _)

def Touch.sendClaim : Nat := 0x10000000
theorem Keep.sendClaim
    (har : Area.sub Touch.sendClaim ar = true) (h : Keep ar s t) : Keep ar s (Machine.State.sendClaim t) := by
  unfold Machine.State.sendClaim
  repeat' (with_reducible first
    | assumption
    | apply Keep.emit
    | apply Keep.sendPanel
    | (refine Area.sub_trans (b := Touch.sendClaim) ?_ har; decide)
    | intro _ _ _
    | intro _ _)

def Touch.sendHold : Nat := 0x10000000
theorem Keep.sendHold
    (har : Area.sub Touch.sendHold ar = true) (h : Keep ar s t) : Keep ar s (Machine.State.sendHold t) := by
  unfold Machine.State.sendHold
  repeat' (with_reducible first
    | assumption
    | apply Keep.ite
    | apply Keep.emit
    | apply Keep.sendPanel
    | (refine Area.sub_trans (b := Touch.sendHold) ?_ har; decide)
    | split
    | intro _ _ _
    | intro _ _)

def Touch.laneMarker : Nat := 0x10000000
theorem Keep.laneMarker {n : Nat}
    (har : Area.sub Touch.laneMarker ar = true) (h : Keep ar s t) : Keep ar s (Machine.State.laneMarker t n) := by
  unfold Machine.State.laneMarker
  repeat' (with_reducible first
    | assumption
    | (extract_lets +onlyGivenNames x; (apply Keep.cut x); rotate_left; intro _; clear_value x; rotate_right; subst x)
    | (extract_lets +onlyGivenNames x; clear_value x)
    | apply Keep.setTxLane
    | apply Keep.sendBlock
    | (refine Area.sub_trans (b := Touch.laneMarker) ?_ har; decide)
    | intro _ _ _
    | intro _ _)

def Touch.lanePass : Nat := 0x10000000
theorem Keep.lanePass {n : Nat} {k : Nat}
    (har : Area.sub Touch.lanePass ar = true) (h : Keep ar s t) : Keep ar s (Machine.State.lanePass t n k) := by
  unfold Machine.State.lanePass
  repeat' (with_reducible first
    | assumption
    | (extract_lets +onlyGivenNames x; (apply Keep.cut x); rotate_left; intro _; clear_value x; rotate_right; subst x)
    | (extract_lets +onlyGivenNames x; have hf : (∀ z, x z = x z) := fun _ => rfl; clear hf; subst x; try dsimp -zeta only)
    | (extract_lets +onlyGivenNames x; clear_value x)
    | apply Keep.setTxLane
    | apply Keep.laneMarker
    | (refine Area.sub_trans (b := Touch.lanePass) ?_ har; decide)
    | apply Keep.foldl
    | dsimp -zeta only
    | intro _ _ _
    | intro _ _)

def Touch.laneMarkers : Nat := 0x10000000
theorem Keep.laneMarkers
    (har : Area.sub Touch.laneMarkers ar = true) (h : Keep ar s t) : Keep ar s (Machine.State.laneMarkers t) := by
  unfold Machine.State.laneMarkers
  repeat' (with_reducible first
    | assumption
    | (extract_lets +onlyGivenNames x; (apply Keep.cut x); rotate_left; intro _; clear_value x; rotate_right; subst x)
    | (extract_lets +onlyGivenNames x; have hf : (∀ z, x z = x z) := fun _ => rfl; clear hf; subst x; try dsimp -zeta only)
    | (extract_lets +onlyGivenNames x; clear_value x)
    | apply Keep.lanePass
    | (refine Area.sub_trans (b := Touch.laneMarkers) ?_ har; decide)
    | apply Keep.foldl
    | dsimp -zeta only
    | intro _ _ _
    | intro _ _)

def Touch.sendSof : Nat := 0x10000000
theorem Keep.sendSof {sf : Nat} {full : Bool} {phase : Nat}
    (har : Area.sub Touch.sendSof ar = true) (h : Keep ar s t) : Keep ar s (Machine.State.sendSof t sf full phase) := by
  unfold Machine.State.sendSof
  repeat' (with_reducible first
    | assumption
    | apply Keep.ite
    | apply Keep.emit
    | apply Keep.sendPanel
    | (refine Area.sub_trans (b := Touch.sendSof) ?_ har; decide)
    | split
    | intro _ _ _
    | intro _ _)

end Sys2Proof
end

