-- ==== Sys2Proof/Laws/KeepRole.lean ====
section
/-!
SUPPORT. The operations and meanings of Machine/Role.lean keep what `Keep` says.
-/

namespace Sys2Proof

open Sys2Proof.Machine

variable {ar : Nat} {s t u : Machine.State}

def Touch.mirrorDrop : Nat := 0x280000800030000000000000000000000000000000000000000000000000000000000010000020
theorem Keep.mirrorDrop {off : Nat} {req : Nat} {data : Nat}
    (har : Area.sub Touch.mirrorDrop ar = true) (h : Keep ar s t) : Keep ar s (Machine.State.mirrorDrop t off req data) := by
  unfold Machine.State.mirrorDrop
  repeat' (with_reducible first
    | assumption
    | (extract_lets +onlyGivenNames x; (apply Keep.cut x); rotate_left; intro _; clear_value x; rotate_right; subst x)
    | (extract_lets +onlyGivenNames x; clear_value x)
    | apply Keep.put
    | apply Keep.bump
    | apply Keep.offer
    | (refine Area.sub_trans (b := Touch.mirrorDrop) ?_ har; decide)
    | (refine Area.fld_mono (a := Touch.mirrorDrop) ?_ har; decide)
    | intro _ _ _
    | intro _ _)

def Touch.becomeActive : Nat := 0x200000000000000000000000000000000000000000000000000000000000000100
theorem Keep.becomeActive
    (har : Area.sub Touch.becomeActive ar = true) (h : Keep ar s t) : Keep ar s (Machine.State.becomeActive t) := by
  unfold Machine.State.becomeActive
  repeat' (with_reducible first
    | assumption
    | (extract_lets +onlyGivenNames x; (apply Keep.cut x); rotate_left; intro _; clear_value x; rotate_right; subst x)
    | (extract_lets +onlyGivenNames x; clear_value x)
    | apply Keep.put
    | (refine Area.sub_trans (b := Touch.becomeActive) ?_ har; decide)
    | (refine Area.fld_mono (a := Touch.becomeActive) ?_ har; decide)
    | intro _ _ _
    | intro _ _
    | (refine Keep.rec_pair ?_ ?_; rotate_left; first | assumption | apply Keep.put))

def Touch.setLaunches : Nat := 0x20000000000000800000
theorem Keep.setLaunches {l : List Nat}
    (har : Area.sub Touch.setLaunches ar = true) (h : Keep ar s t) : Keep ar s (Machine.State.setLaunches t l) := by
  unfold Machine.State.setLaunches
  repeat' (with_reducible first
    | assumption
    | (extract_lets +onlyGivenNames x; (apply Keep.cut x); rotate_left; intro _; clear_value x; rotate_right; subst x)
    | (extract_lets +onlyGivenNames x; clear_value x)
    | apply Keep.put
    | (refine Area.sub_trans (b := Touch.setLaunches) ?_ har; decide)
    | (refine Area.fld_mono (a := Touch.setLaunches) ?_ har; decide)
    | intro _ _ _
    | intro _ _
    | (refine Keep.rec_time ?_ ?_; rotate_left; first | assumption | apply Keep.put))

def Touch.setFit : Nat := 0x280000800080400000000000000000000000000000000000000000000000000000000010000120
theorem Keep.setFit {b : Nat} {on : Bool}
    (har : Area.sub Touch.setFit ar = true) (h : Keep ar s t) : Keep ar s (Machine.State.setFit t b on) := by
  unfold Machine.State.setFit
  repeat' (with_reducible first
    | assumption
    | (extract_lets +onlyGivenNames x; (apply Keep.cut x); rotate_left; intro _; clear_value x; rotate_right; subst x)
    | (extract_lets +onlyGivenNames x; clear_value x)
    | apply Keep.ite
    | apply Keep.put
    | apply Keep.raise
    | apply Keep.sendNotice
    | (refine Area.sub_trans (b := Touch.setFit) ?_ har; decide)
    | (refine Area.fld_mono (a := Touch.setFit) ?_ har; decide)
    | split
    | intro _ _ _
    | intro _ _)

def Touch.becomeMirror : Nat := 0x280000800080600000000000000000000000000000000000000000000020000000000010800120
theorem Keep.becomeMirror
    (har : Area.sub Touch.becomeMirror ar = true) (h : Keep ar s t) : Keep ar s (Machine.State.becomeMirror t) := by
  unfold Machine.State.becomeMirror
  repeat' (with_reducible first
    | assumption
    | (extract_lets +onlyGivenNames x; (apply Keep.cut x); rotate_left; intro _; clear_value x; rotate_right; subst x)
    | (extract_lets +onlyGivenNames x; clear_value x)
    | apply Keep.put
    | apply Keep.setLaunches
    | apply Keep.setFit
    | (refine Area.sub_trans (b := Touch.becomeMirror) ?_ har; decide)
    | (refine Area.fld_mono (a := Touch.becomeMirror) ?_ har; decide)
    | intro _ _ _
    | intro _ _
    | (refine Keep.rec_pair ?_ ?_; rotate_left; first | assumption | apply Keep.put | apply Keep.setLaunches | apply Keep.setFit))

end Sys2Proof
end

