-- ==== Sys2Proof/Laws/KeepTephra.lean ====
section
/-!
SUPPORT. The operations and meanings of Machine/Tephra.lean keep what `Keep` says.
-/

namespace Sys2Proof

open Sys2Proof.Machine

variable {ar : Nat} {s t u : Machine.State}

def Touch.tephResume : Nat := 0x20000000000000000000000000000000000000000000000000000000000000000000000000020
theorem Keep.tephResume
    (har : Area.sub Touch.tephResume ar = true) (h : Keep ar s t) : Keep ar s (Machine.State.tephResume t) := by
  unfold Machine.State.tephResume
  repeat' (with_reducible first
    | assumption
    | (extract_lets +onlyGivenNames x; (apply Keep.cut x); rotate_left; intro _; clear_value x; rotate_right; subst x)
    | (extract_lets +onlyGivenNames x; clear_value x)
    | apply Keep.put
    | (refine Area.sub_trans (b := Touch.tephResume) ?_ har; decide)
    | (refine Area.fld_mono (a := Touch.tephResume) ?_ har; decide)
    | intro _ _ _
    | intro _ _
    | (refine Keep.rec_teph ?_ ?_; rotate_left; first | assumption | apply Keep.put))

def Touch.tephClear : Nat := 0x20000000000000000000000000000000000000000000000000000000000000000000000000020
theorem Keep.tephClear
    (har : Area.sub Touch.tephClear ar = true) (h : Keep ar s t) : Keep ar s (Machine.State.tephClear t) := by
  unfold Machine.State.tephClear
  repeat' (with_reducible first
    | assumption
    | (extract_lets +onlyGivenNames x; (apply Keep.cut x); rotate_left; intro _; clear_value x; rotate_right; subst x)
    | (extract_lets +onlyGivenNames x; clear_value x)
    | apply Keep.put
    | apply Keep.tephResume
    | (refine Area.sub_trans (b := Touch.tephClear) ?_ har; decide)
    | (refine Area.fld_mono (a := Touch.tephClear) ?_ har; decide)
    | intro _ _ _
    | intro _ _
    | (refine Keep.rec_teph ?_ ?_; rotate_left; first | assumption | apply Keep.put | apply Keep.tephResume))

def Touch.tephFreeze : Nat := 0x280000800000000000000000000000000000000000000000000000000000000000000018000020
theorem Keep.tephFreeze
    (har : Area.sub Touch.tephFreeze ar = true) (h : Keep ar s t) : Keep ar s (Machine.State.tephFreeze t) := by
  unfold Machine.State.tephFreeze
  repeat' (with_reducible first
    | assumption
    | apply Keep.tookFree
    | apply Keep.offerFull
    | (refine Area.sub_trans (b := Touch.tephFreeze) ?_ har; decide)
    | intro _ _ _
    | intro _ _)

def Touch.savedCopy : Nat := 0x220000800000000000000000000000000000000000000000000000000000000000000010000020
theorem Keep.savedCopy
    (har : Area.sub Touch.savedCopy ar = true) (h : Keep ar s t) : Keep ar s (Machine.State.savedCopy t) := by
  unfold Machine.State.savedCopy
  repeat' (with_reducible first
    | assumption
    | (extract_lets +onlyGivenNames x; (apply Keep.cut x); rotate_left; intro _; clear_value x; rotate_right; subst x)
    | (extract_lets +onlyGivenNames x; have hf : (∀ z, x z = x z) := fun _ => rfl; clear hf; subst x; try dsimp -zeta only)
    | (extract_lets +onlyGivenNames x; clear_value x)
    | apply Keep.ite
    | apply Keep.put
    | apply Keep.raise
    | (refine Area.sub_trans (b := Touch.savedCopy) ?_ har; decide)
    | (refine Area.fld_mono (a := Touch.savedCopy) ?_ har; decide)
    | dsimp -zeta only
    | split
    | intro _ _ _
    | intro _ _
    | (refine Keep.rec_teph ?_ ?_; rotate_left; first | assumption | apply Keep.put | apply Keep.raise | apply Keep.ite))

def Touch.freezeRing : Nat := 0x220000800000000000000000000000000000000000000000000000000000000000000010000020
theorem Keep.freezeRing
    (har : Area.sub Touch.freezeRing ar = true) (h : Keep ar s t) : Keep ar s (Machine.State.freezeRing t) := by
  unfold Machine.State.freezeRing
  repeat' (with_reducible first
    | assumption
    | (extract_lets +onlyGivenNames x; (apply Keep.cut x); rotate_left; intro _; clear_value x; rotate_right; subst x)
    | (extract_lets +onlyGivenNames x; clear_value x)
    | apply Keep.put
    | apply Keep.raise
    | (refine Area.sub_trans (b := Touch.freezeRing) ?_ har; decide)
    | (refine Area.fld_mono (a := Touch.freezeRing) ?_ har; decide)
    | intro _ _ _
    | intro _ _
    | (refine Keep.rec_teph ?_ ?_; rotate_left; first | assumption | apply Keep.put | apply Keep.raise))

def Touch.freezeStep : Nat := 0x230000800000000000000000000000000000000000000000000000000000000000000010000020
theorem Keep.freezeStep {o : Offer} {seq : Nat}
    (har : Area.sub Touch.freezeStep ar = true) (h : Keep ar s t) : Keep ar s (Machine.State.freezeStep t o seq) := by
  unfold Machine.State.freezeStep
  repeat' (with_reducible first
    | assumption
    | (extract_lets +onlyGivenNames x; (apply Keep.cut x); rotate_left; intro _; clear_value x; rotate_right; subst x)
    | (extract_lets +onlyGivenNames x; clear_value x)
    | apply Keep.ite
    | apply Keep.put
    | apply Keep.freezeRing
    | (refine Area.sub_trans (b := Touch.freezeStep) ?_ har; decide)
    | (refine Area.fld_mono (a := Touch.freezeStep) ?_ har; decide)
    | split
    | intro _ _ _
    | intro _ _
    | (refine Keep.rec_teph ?_ ?_; rotate_left; first | assumption | apply Keep.put | apply Keep.freezeRing | apply Keep.ite))

def Touch.tephResend : Nat := 0x10000120
theorem Keep.tephResend
    (har : Area.sub Touch.tephResend ar = true) (h : Keep ar s t) : Keep ar s (Machine.State.tephResend t) := by
  unfold Machine.State.tephResend
  repeat' (with_reducible first
    | assumption
    | (extract_lets +onlyGivenNames x; (apply Keep.cut x); rotate_left; intro _; clear_value x; rotate_right; subst x)
    | (extract_lets +onlyGivenNames x; have hf : (∀ z, x z = x z) := fun _ => rfl; clear hf; subst x; try dsimp -zeta only)
    | (extract_lets +onlyGivenNames x; clear_value x)
    | apply Keep.ite
    | apply Keep.sendPair
    | (refine Area.sub_trans (b := Touch.tephResend) ?_ har; decide)
    | apply Keep.foldl
    | dsimp -zeta only
    | split
    | intro _ _ _
    | intro _ _
    | (refine Keep.rec_teph ?_ ?_; rotate_left; first | assumption | apply Keep.sendPair | apply Keep.ite | apply Keep.foldl))

def Touch.mirrorGap : Nat := 0x280000800000000000000000000000000000000000000000000000000000000000000010000020
theorem Keep.mirrorGap {first : Nat} {count : Nat}
    (har : Area.sub Touch.mirrorGap ar = true) (h : Keep ar s t) : Keep ar s (Machine.State.mirrorGap t first count) := by
  unfold Machine.State.mirrorGap
  repeat' (with_reducible first
    | assumption
    | apply Keep.raise
    | apply Keep.offer
    | (refine Area.sub_trans (b := Touch.mirrorGap) ?_ har; decide)
    | (refine Area.fld_mono (a := Touch.mirrorGap) ?_ har; decide)
    | intro _ _ _
    | intro _ _)

def Touch.ringPut : Nat := 0x60000000000000000000000000000000000000000000000000000000000000000000010000120
theorem Keep.ringPut {o : Offer}
    (har : Area.sub Touch.ringPut ar = true) (h : Keep ar s t) : Keep ar s (Machine.State.ringPut t o) := by
  unfold Machine.State.ringPut
  repeat' (with_reducible first
    | assumption
    | (extract_lets +onlyGivenNames x; (apply Keep.cut x); rotate_left; intro _; clear_value x; rotate_right; subst x)
    | (extract_lets +onlyGivenNames x; clear_value x)
    | apply Keep.ite
    | apply Keep.put
    | apply Keep.sendPair
    | (refine Area.sub_trans (b := Touch.ringPut) ?_ har; decide)
    | (refine Area.fld_mono (a := Touch.ringPut) ?_ har; decide)
    | split
    | intro _ _ _
    | intro _ _
    | (refine Keep.rec_teph ?_ ?_; rotate_left; first | assumption | apply Keep.put | apply Keep.sendPair | apply Keep.ite))

def Touch.saveShutdown : Nat := 0x20
theorem Keep.saveShutdown
    (har : Area.sub Touch.saveShutdown ar = true) (h : Keep ar s t) : Keep ar s (Machine.State.saveShutdown t) := by
  unfold Machine.State.saveShutdown
  repeat' (with_reducible first
    | assumption
    | (extract_lets +onlyGivenNames x; (apply Keep.cut x); rotate_left; intro _; clear_value x; rotate_right; subst x)
    | (extract_lets +onlyGivenNames x; clear_value x)
    | apply Keep.ite
    | (refine Area.sub_trans (b := Touch.saveShutdown) ?_ har; decide)
    | split
    | (refine Keep.rec_teph ?_ ?_; rotate_left; first | assumption | apply Keep.ite))

def Touch.tephSave : Nat := 0x60
theorem Keep.tephSave
    (har : Area.sub Touch.tephSave ar = true) (h : Keep ar s t) : Keep ar s (Machine.State.tephSave t) := by
  unfold Machine.State.tephSave
  repeat' (with_reducible first
    | assumption
    | (extract_lets +onlyGivenNames x; (apply Keep.cut x); rotate_left; intro _; clear_value x; rotate_right; subst x)
    | (extract_lets +onlyGivenNames x; have hf : (∀ z, x z = x z) := fun _ => rfl; clear hf; subst x; try dsimp -zeta only)
    | (extract_lets +onlyGivenNames x; clear_value x)
    | apply Keep.ite
    | (refine Area.sub_trans (b := Touch.tephSave) ?_ har; decide)
    | dsimp -zeta only
    | split
    | (refine Keep.rec_teph_nv ?_ ?_; rotate_left; first | assumption | apply Keep.ite))

def Touch.execTephFreeze : Nat := 0x280000800000000000000000000000000000000000000000000000000000000000000018000020
theorem Keep.execTephFreeze {r : Sys2Proof.Req} {key : Nat}
    (har : Area.sub Touch.execTephFreeze ar = true) (h : Keep ar s t) : KeepO ar s (Machine.execTephFreeze r key t) := by
  unfold Machine.execTephFreeze
  repeat' (with_reducible first
    | assumption
    | apply KeepO.next
    | apply KeepO.ite
    | apply Keep.keyed
    | apply Keep.tephFreeze
    | (refine Area.sub_trans (b := Touch.execTephFreeze) ?_ har; decide)
    | intro _ _ _
    | intro _ _)

def Touch.execTephResume : Nat := 0x2A0000800000000000000000000000000000000000000000000000000000000000000010000020
theorem Keep.execTephResume {r : Sys2Proof.Req} {key : Nat}
    (har : Area.sub Touch.execTephResume ar = true) (h : Keep ar s t) : KeepO ar s (Machine.execTephResume r key t) := by
  unfold Machine.execTephResume
  repeat' (with_reducible first
    | assumption
    | apply KeepO.next
    | apply KeepO.ite
    | apply Keep.keyed
    | apply Keep.tephResume
    | (refine Area.sub_trans (b := Touch.execTephResume) ?_ har; decide)
    | intro _ _ _
    | intro _ _)

def Touch.execTephClear : Nat := 0x2A0000800000000000000000000000000000000000000000000000000000000000000010000020
theorem Keep.execTephClear {r : Sys2Proof.Req} {key : Nat}
    (har : Area.sub Touch.execTephClear ar = true) (h : Keep ar s t) : KeepO ar s (Machine.execTephClear r key t) := by
  unfold Machine.execTephClear
  repeat' (with_reducible first
    | assumption
    | apply KeepO.next
    | apply KeepO.ite
    | apply Keep.keyed
    | apply Keep.tephClear
    | (refine Area.sub_trans (b := Touch.execTephClear) ?_ har; decide)
    | intro _ _ _
    | intro _ _)

def Touch.execAlertTimeout : Nat := 0x10
theorem Keep.execAlertTimeout
    (har : Area.sub Touch.execAlertTimeout ar = true) (h : Keep ar s t) : KeepO ar s (Machine.execAlertTimeout t) := by
  unfold Machine.execAlertTimeout
  repeat' (with_reducible first
    | assumption
    | apply KeepO.next
    | apply KeepO.ite
    | (extract_lets +onlyGivenNames x; (first | apply KeepO.cut x | apply Keep.cut x); rotate_left; intro _; clear_value x; rotate_right; subst x)
    | (extract_lets +onlyGivenNames x; clear_value x)
    | apply Keep.ite
    | (refine Area.sub_trans (b := Touch.execAlertTimeout) ?_ har; decide)
    | split
    | (refine Keep.rec_pins ?_ ?_; rotate_left; first | assumption | apply Keep.ite))

def Touch.execTephraWrite : Nat := 0x2F0000800000000000000000000000000000000000000000000000000000000000000010000120
theorem Keep.execTephraWrite
    (har : Area.sub Touch.execTephraWrite ar = true) (h : Keep ar s t) : KeepO ar s (Machine.execTephraWrite t) := by
  unfold Machine.execTephraWrite
  repeat' (with_reducible first
    | assumption
    | apply KeepO.next
    | apply KeepO.ite
    | (extract_lets +onlyGivenNames x; (first | apply KeepO.cut x | apply Keep.cut x); rotate_left; intro _; clear_value x; rotate_right; subst x)
    | (extract_lets +onlyGivenNames x; clear_value x)
    | apply Keep.ite
    | apply Keep.tephLose
    | apply Keep.freezeStep
    | apply Keep.ringPut
    | (refine Area.sub_trans (b := Touch.execTephraWrite) ?_ har; decide)
    | split
    | intro _ _ _
    | intro _ _
    | (refine Keep.rec_teph ?_ ?_; rotate_left; first | assumption | apply Keep.tephLose | apply Keep.freezeStep | apply Keep.ringPut | apply Keep.ite))

def Touch.execTephraLostEntry : Nat := 0x280000800000000000000000000000000000000000000000000000000000000000000010000020
theorem Keep.execTephraLostEntry
    (har : Area.sub Touch.execTephraLostEntry ar = true) (h : Keep ar s t) : KeepO ar s (Machine.execTephraLostEntry t) := by
  unfold Machine.execTephraLostEntry
  repeat' (with_reducible first
    | assumption
    | apply KeepO.next
    | apply KeepO.ite
    | (extract_lets +onlyGivenNames x; (first | apply KeepO.cut x | apply Keep.cut x); rotate_left; intro _; clear_value x; rotate_right; subst x)
    | (extract_lets +onlyGivenNames x; clear_value x)
    | apply Keep.ite
    | apply Keep.offer
    | (refine Area.sub_trans (b := Touch.execTephraLostEntry) ?_ har; decide)
    | split
    | intro _ _ _
    | intro _ _
    | (refine Keep.rec_teph ?_ ?_; rotate_left; first | assumption | apply Keep.offer | apply Keep.ite))

def Touch.execTephraPacket : Nat := 0x280000800000000000000000000000000000000000000000000000000000000000000010000020
theorem Keep.execTephraPacket {e : Sys2Proof.TEntry}
    (har : Area.sub Touch.execTephraPacket ar = true) (h : Keep ar s t) : KeepO ar s (Machine.execTephraPacket e t) := by
  unfold Machine.execTephraPacket
  repeat' (with_reducible first
    | assumption
    | apply KeepO.next
    | apply KeepO.ite
    | (extract_lets +onlyGivenNames x; (first | apply KeepO.cut x | apply Keep.cut x); rotate_left; intro _; clear_value x; rotate_right; subst x)
    | (extract_lets +onlyGivenNames x; have hf : (∀ z, x z = x z) := fun _ => rfl; clear hf; subst x; try dsimp -zeta only)
    | (extract_lets +onlyGivenNames x; clear_value x)
    | apply Keep.ite
    | apply Keep.mirrorGap
    | (refine Area.sub_trans (b := Touch.execTephraPacket) ?_ har; decide)
    | dsimp -zeta only
    | split
    | intro _ _ _
    | intro _ _
    | (refine Keep.rec_teph ?_ ?_; rotate_left; first | assumption | apply Keep.mirrorGap | apply Keep.ite))

def Touch.execCorrSummary : Nat := 0x280000800000000000000000000000000000000000000000000000000000000000000010002020
theorem Keep.execCorrSummary
    (har : Area.sub Touch.execCorrSummary ar = true) (h : Keep ar s t) : KeepO ar s (Machine.execCorrSummary t) := by
  unfold Machine.execCorrSummary
  repeat' (with_reducible first
    | assumption
    | apply KeepO.next
    | apply KeepO.ite
    | (extract_lets +onlyGivenNames x; (first | apply KeepO.cut x | apply Keep.cut x); rotate_left; intro _; clear_value x; rotate_right; subst x)
    | (extract_lets +onlyGivenNames x; have hf : (∀ z, x z = x z) := fun _ => rfl; clear hf; subst x; try dsimp -zeta only)
    | (extract_lets +onlyGivenNames x; clear_value x)
    | apply Keep.offerFull
    | (refine Area.sub_trans (b := Touch.execCorrSummary) ?_ har; decide)
    | apply Keep.foldl
    | dsimp -zeta only
    | intro _ _ _
    | intro _ _
    | (refine Keep.rec_fab ?_ ?_; rotate_left; first | assumption | apply Keep.offerFull | apply Keep.foldl))

end Sys2Proof
end

