-- ==== Sys2Proof/Laws/KeepLane.lean ====
section
/-!
SUPPORT. The operations and meanings of Machine/Lane.lean keep what `Keep` says.
-/

namespace Sys2Proof

open Sys2Proof.Machine

variable {ar : Nat} {s t u : Machine.State}

def Touch.setTaps : Nat := 0x2000000000000000000000000000000000000000000000000000000000
theorem Keep.setTaps {n : Nat} {pre : Nat} {post : Nat} {ctle : Nat} {dfe : Nat}
    (har : Area.sub Touch.setTaps ar = true) (h : Keep ar s t) : Keep ar s (Machine.State.setTaps t n pre post ctle dfe) := by
  unfold Machine.State.setTaps
  repeat' (with_reducible first
    | assumption
    | apply Keep.put
    | (refine Area.sub_trans (b := Touch.setTaps) ?_ har; decide)
    | (refine Area.fld_mono (a := Touch.setTaps) ?_ har; decide)
    | intro _ _ _
    | intro _ _)

def Touch.grpEvent : Nat := 0x800000000000600000000000000000000000000000000000000000000000000010000000
theorem Keep.grpEvent {j : Nat} {bit : Nat}
    (har : Area.sub Touch.grpEvent ar = true) (h : Keep ar s t) : Keep ar s (Machine.State.grpEvent t j bit) := by
  unfold Machine.State.grpEvent
  repeat' (with_reducible first
    | assumption
    | apply Keep.put
    | apply Keep.raise
    | (refine Area.sub_trans (b := Touch.grpEvent) ?_ har; decide)
    | (refine Area.fld_mono (a := Touch.grpEvent) ?_ har; decide)
    | intro _ _ _
    | intro _ _)

def Touch.applyEq : Nat := 0x800000000000602000000000000000000000000000000000000000000000000010000000
theorem Keep.applyEq {n : Nat}
    (har : Area.sub Touch.applyEq ar = true) (h : Keep ar s t) : Keep ar s (Machine.State.applyEq t n) := by
  unfold Machine.State.applyEq
  repeat' (with_reducible first
    | assumption
    | (extract_lets +onlyGivenNames x; (apply Keep.cut x); rotate_left; intro _; clear_value x; rotate_right; subst x)
    | (extract_lets +onlyGivenNames x; clear_value x)
    | apply Keep.ite
    | apply Keep.setTaps
    | apply Keep.grpEvent
    | (refine Area.sub_trans (b := Touch.applyEq) ?_ har; decide)
    | split
    | intro _ _ _
    | intro _ _)

def Touch.lanePanel : Nat := 0x800000000000C00000000000000000000000000000000000000000000000000010000000
theorem Keep.lanePanel
    (har : Area.sub Touch.lanePanel ar = true) (h : Keep ar s t) : Keep ar s (Machine.State.lanePanel t) := by
  unfold Machine.State.lanePanel
  repeat' (with_reducible first
    | assumption
    | (extract_lets +onlyGivenNames x; (apply Keep.cut x); rotate_left; intro _; clear_value x; rotate_right; subst x)
    | (extract_lets +onlyGivenNames x; have hf : (∀ z, x z = x z) := fun _ => rfl; clear hf; subst x; try dsimp -zeta only)
    | (extract_lets +onlyGivenNames x; clear_value x)
    | apply Keep.put
    | apply Keep.putB
    | apply Keep.raiseIf
    | (refine Area.sub_trans (b := Touch.lanePanel) ?_ har; decide)
    | (refine Area.fld_mono (a := Touch.lanePanel) ?_ har; decide)
    | apply Keep.foldl
    | dsimp -zeta only
    | split
    | intro _ _ _
    | intro _ _)

def Touch.grpPut : Nat := 0x0
theorem Keep.grpPut {f : Fld} (hf : Area.fld ar f = true) {v : Nat} {j : Nat}
    (har : Area.sub Touch.grpPut ar = true) (h : Keep ar s t) : Keep ar s (Machine.State.grpPut t f v j) := by
  unfold Machine.State.grpPut
  repeat' (with_reducible first
    | assumption
    | apply Keep.put
    | (refine Area.sub_trans (b := Touch.grpPut) ?_ har; decide)
    | intro _ _ _
    | intro _ _)

def Touch.grpPower : Nat := 0x81000000000000000000000000000000000000000000000000000000000
theorem Keep.grpPower {j : Nat} {tx : Bool} {pwr : Nat}
    (har : Area.sub Touch.grpPower ar = true) (h : Keep ar s t) : Keep ar s (Machine.State.grpPower t j tx pwr) := by
  unfold Machine.State.grpPower
  repeat' (with_reducible first
    | assumption
    | (extract_lets +onlyGivenNames x; (apply Keep.cut x); rotate_left; intro _; clear_value x; rotate_right; subst x)
    | (extract_lets +onlyGivenNames x; have hf : (∀ z, x z = x z) := fun _ => rfl; clear hf; subst x; try dsimp -zeta only)
    | (extract_lets +onlyGivenNames x; clear_value x)
    | apply Keep.ite
    | apply Keep.put
    | apply Keep.grpPut
    | apply Area.fld_ite
    | (refine Area.sub_trans (b := Touch.grpPower) ?_ har; decide)
    | (refine Area.fld_mono (a := Touch.grpPower) ?_ har; decide)
    | apply Keep.foldl
    | dsimp -zeta only
    | split
    | intro _ _ _
    | intro _ _)

def Touch.grpUnlock : Nat := 0x1000000000000000000000000000000000000000000000000000000000
theorem Keep.grpUnlock {j : Nat}
    (har : Area.sub Touch.grpUnlock ar = true) (h : Keep ar s t) : Keep ar s (Machine.State.grpUnlock t j) := by
  unfold Machine.State.grpUnlock
  repeat' (with_reducible first
    | assumption
    | apply Keep.put
    | (refine Area.sub_trans (b := Touch.grpUnlock) ?_ har; decide)
    | (refine Area.fld_mono (a := Touch.grpUnlock) ?_ har; decide)
    | apply Keep.foldl
    | intro _ _ _
    | intro _ _)

def Touch.applyGrp : Nat := 0x800000000000C81000000000000000000000000000000000000000000000000010000400
theorem Keep.applyGrp {j : Nat}
    (har : Area.sub Touch.applyGrp ar = true) (h : Keep ar s t) : Keep ar s (Machine.State.applyGrp t j) := by
  have sub {b : Nat} (hb : Area.sub b Touch.applyGrp = true) : Area.sub b ar = true := Area.sub_trans hb har
  have fld {f : Fld} (hf : Area.fld Touch.applyGrp f = true) : Area.fld ar f = true := Area.fld_mono hf har
  unfold Machine.State.applyGrp
  extract_lets st src s1 s2 wakeDir
  refine Keep.ite (Keep.ite h ?_) ?_
  · exact Keep.lanePanel (sub (by decide)) (Keep.grpPower (sub (by decide)) (Keep.grpPower (sub (by decide))
      (Keep.grpPut (fld (by decide)) (sub (by decide)) (Keep.grpPut (fld (by decide)) (sub (by decide)) (Keep.grpUnlock (sub (by decide)) h)))))
  · have h1 : Keep ar s s1 := Keep.rec_lane (sub (by decide)) h
    have h2 : Keep ar s s2 := Keep.ite (Keep.grpPut (fld (by decide)) (sub (by decide)) h1) h1
    have hw : ∀ {u : Machine.State} {b : Bool}, Keep ar s u → Keep ar s (wakeDir u b) :=
      fun hu => Keep.ite (Keep.grpPower (sub (by decide)) hu) hu
    exact hw (hw h2)

def Touch.applyLink : Nat := 0x800000000000E83000000000000000000000000000000000000000000000000010000400
theorem Keep.applyLink
    (har : Area.sub Touch.applyLink ar = true) (h : Keep ar s t) : Keep ar s (Machine.State.applyLink t) := by
  unfold Machine.State.applyLink
  repeat' (with_reducible first
    | assumption
    | (extract_lets +onlyGivenNames x; (apply Keep.cut x); rotate_left; intro _; clear_value x; rotate_right; subst x)
    | (extract_lets +onlyGivenNames x; clear_value x)
    | apply Keep.applyEq
    | apply Keep.applyGrp
    | (refine Area.sub_trans (b := Touch.applyLink) ?_ har; decide)
    | apply Keep.foldl
    | intro _ _ _
    | intro _ _)

def Touch.setPort : Nat := 0x1000000
theorem Keep.setPort {a : Nat} {p : PortState}
    (har : Area.sub Touch.setPort ar = true) (h : Keep ar s t) : Keep ar s (Machine.State.setPort t a p) := by
  unfold Machine.State.setPort
  repeat' (with_reducible first
    | assumption
    | (extract_lets +onlyGivenNames x; (apply Keep.cut x); rotate_left; intro _; clear_value x; rotate_right; subst x)
    | (extract_lets +onlyGivenNames x; clear_value x)
    | apply Keep.ite
    | (refine Area.sub_trans (b := Touch.setPort) ?_ har; decide)
    | split
    | (refine Keep.rec_array ?_ ?_; rotate_left; first | assumption | apply Keep.ite))

def Touch.grpTrain : Nat := 0x800000000000C81000000000000000000000000000000000000000000000000010000000
theorem Keep.grpTrain {j : Nat} {g : Nat}
    (har : Area.sub Touch.grpTrain ar = true) (h : Keep ar s t) : Keep ar s (Machine.State.grpTrain t j g) := by
  unfold Machine.State.grpTrain
  repeat' (with_reducible first
    | assumption
    | (extract_lets +onlyGivenNames x; (apply Keep.cut x); rotate_left; intro _; clear_value x; rotate_right; subst x)
    | (extract_lets +onlyGivenNames x; clear_value x)
    | apply Keep.lanePanel
    | apply Keep.grpPut
    | apply Keep.grpPower
    | apply Keep.grpUnlock
    | (refine Area.sub_trans (b := Touch.grpTrain) ?_ har; decide)
    | (refine Area.fld_mono (a := Touch.grpTrain) ?_ har; decide)
    | intro _ _ _
    | intro _ _)

def Touch.linkLost : Nat := 0x280000801100000000F81000000000000000000000000000000000000000000002800019000120
theorem Keep.linkLost {j : Nat}
    (har : Area.sub Touch.linkLost ar = true) (h : Keep ar s t) : Keep ar s (Machine.State.linkLost t j) := by
  unfold Machine.State.linkLost
  repeat' (with_reducible first
    | assumption
    | (extract_lets +onlyGivenNames x; (apply Keep.cut x); rotate_left; intro _; clear_value x; rotate_right; subst x)
    | (extract_lets +onlyGivenNames x; clear_value x)
    | apply Keep.ite
    | apply Keep.put
    | apply Keep.bump
    | apply Keep.raise
    | apply Keep.sendFail
    | apply Keep.recIrq
    | apply Keep.grpEvent
    | apply Keep.setPort
    | apply Keep.grpTrain
    | apply Keep.releaseLocks
    | (refine Area.sub_trans (b := Touch.linkLost) ?_ har; decide)
    | (refine Area.fld_mono (a := Touch.linkLost) ?_ har; decide)
    | split
    | intro _ _ _
    | intro _ _
    | (refine Keep.rec_pair ?_ ?_; rotate_left; first | assumption | apply Keep.put | apply Keep.bump | apply Keep.raise | apply Keep.sendFail | apply Keep.recIrq | apply Keep.grpEvent | apply Keep.setPort | apply Keep.grpTrain | apply Keep.releaseLocks | apply Keep.ite))

def Touch.execLaneRetrain : Nat := 0x280000800000000000C81000000000000000000000000000000000000000000000000010000020
theorem Keep.execLaneRetrain {r : Sys2Proof.Req} {key : Nat} {j : Nat}
    (har : Area.sub Touch.execLaneRetrain ar = true) (h : Keep ar s t) : KeepO ar s (Machine.execLaneRetrain r key j t) := by
  unfold Machine.execLaneRetrain
  repeat' (with_reducible first
    | assumption
    | apply KeepO.next
    | apply KeepO.ite
    | apply Keep.ite
    | apply Keep.grpTrain
    | apply Keep.ignored
    | (refine Area.sub_trans (b := Touch.execLaneRetrain) ?_ har; decide)
    | split
    | intro _ _ _
    | intro _ _)

def Touch.execLaneTest : Nat := 0x280000800000000000C81000000000000000000000000000000000000000000000000010000020
theorem Keep.execLaneTest {r : Sys2Proof.Req} {key : Nat} {j : Nat}
    (har : Area.sub Touch.execLaneTest ar = true) (h : Keep ar s t) : KeepO ar s (Machine.execLaneTest r key j t) := by
  unfold Machine.execLaneTest
  repeat' (with_reducible first
    | assumption
    | apply KeepO.next
    | apply KeepO.ite
    | (extract_lets +onlyGivenNames x; (first | apply KeepO.cut x | apply Keep.cut x); rotate_left; intro _; clear_value x; rotate_right; subst x)
    | (extract_lets +onlyGivenNames x; clear_value x)
    | apply Keep.ite
    | apply Keep.lanePanel
    | apply Keep.grpPut
    | apply Keep.grpPower
    | apply Keep.ignored
    | (refine Area.sub_trans (b := Touch.execLaneTest) ?_ har; decide)
    | (refine Area.fld_mono (a := Touch.execLaneTest) ?_ har; decide)
    | split
    | intro _ _ _
    | intro _ _)

def Touch.execLaneLoopWrite : Nat := 0x280000800000000000040000000000000000000000000000000000000000000000000010000020
theorem Keep.execLaneLoopWrite {r : Sys2Proof.Req} {n : Nat} {mode : Nat}
    (har : Area.sub Touch.execLaneLoopWrite ar = true) (h : Keep ar s t) : KeepO ar s (Machine.execLaneLoopWrite r n mode t) := by
  unfold Machine.execLaneLoopWrite
  repeat' (with_reducible first
    | assumption
    | apply KeepO.next
    | apply KeepO.ite
    | apply Keep.ite
    | apply Keep.put
    | apply Keep.ignored
    | (refine Area.sub_trans (b := Touch.execLaneLoopWrite) ?_ har; decide)
    | (refine Area.fld_mono (a := Touch.execLaneLoopWrite) ?_ har; decide)
    | split
    | intro _ _ _
    | intro _ _)

def Touch.prbsWrite : Nat := 0x1000000000000000000000000000000000000000000000000000000400
theorem Keep.prbsWrite {n : Nat}
    (har : Area.sub Touch.prbsWrite ar = true) (h : Keep ar s t) : Keep ar s (Machine.State.prbsWrite t n) := by
  unfold Machine.State.prbsWrite
  repeat' (with_reducible first
    | assumption
    | (extract_lets +onlyGivenNames x; (apply Keep.cut x); rotate_left; intro _; clear_value x; rotate_right; subst x)
    | (extract_lets +onlyGivenNames x; have hf : (∀ z, x z = x z) := fun _ => rfl; clear hf; subst x; try dsimp -zeta only)
    | (extract_lets +onlyGivenNames x; clear_value x)
    | apply Keep.ite
    | apply Keep.put
    | (refine Area.sub_trans (b := Touch.prbsWrite) ?_ har; decide)
    | (refine Area.fld_mono (a := Touch.prbsWrite) ?_ har; decide)
    | dsimp -zeta only
    | split
    | intro _ _ _
    | intro _ _
    | (refine Keep.rec_lane ?_ ?_; rotate_left; first | assumption | apply Keep.put | apply Keep.ite))

def Touch.execInjectOne : Nat := 0x400
theorem Keep.execInjectOne {n : Nat}
    (har : Area.sub Touch.execInjectOne ar = true) (h : Keep ar s t) : KeepO ar s (Machine.execInjectOne n t) := by
  unfold Machine.execInjectOne
  repeat' (with_reducible first
    | assumption
    | apply KeepO.next
    | apply KeepO.ite
    | (extract_lets +onlyGivenNames x; (first | apply KeepO.cut x | apply Keep.cut x); rotate_left; intro _; clear_value x; rotate_right; subst x)
    | (extract_lets +onlyGivenNames x; clear_value x)
    | apply Keep.ite
    | (refine Area.sub_trans (b := Touch.execInjectOne) ?_ har; decide)
    | split
    | (refine Keep.rec_lane ?_ ?_; rotate_left; first | assumption | apply Keep.ite))

def Touch.execInjectRate : Nat := 0x400
theorem Keep.execInjectRate {n : Nat} {k : Nat}
    (har : Area.sub Touch.execInjectRate ar = true) (h : Keep ar s t) : KeepO ar s (Machine.execInjectRate n k t) := by
  unfold Machine.execInjectRate
  repeat' (with_reducible first
    | assumption
    | apply KeepO.next
    | apply KeepO.ite
    | (extract_lets +onlyGivenNames x; (first | apply KeepO.cut x | apply Keep.cut x); rotate_left; intro _; clear_value x; rotate_right; subst x)
    | (extract_lets +onlyGivenNames x; have hf : (∀ z, x z = x z) := fun _ => rfl; clear hf; subst x; try dsimp -zeta only)
    | (extract_lets +onlyGivenNames x; clear_value x)
    | apply Keep.ite
    | (refine Area.sub_trans (b := Touch.execInjectRate) ?_ har; decide)
    | dsimp -zeta only
    | split
    | (refine Keep.rec_lane ?_ ?_; rotate_left; first | assumption | apply Keep.ite))

def Touch.execLaneTestExit : Nat := 0x280000800000000000081000000000000000000000000000000000000000000000000010000420
theorem Keep.execLaneTestExit {r : Sys2Proof.Req} {key : Nat} {j : Nat}
    (har : Area.sub Touch.execLaneTestExit ar = true) (h : Keep ar s t) : KeepO ar s (Machine.execLaneTestExit r key j t) := by
  unfold Machine.execLaneTestExit
  repeat' (with_reducible first
    | assumption
    | apply KeepO.next
    | apply KeepO.ite
    | (extract_lets +onlyGivenNames x; (first | apply KeepO.cut x | apply Keep.cut x); rotate_left; intro _; clear_value x; rotate_right; subst x)
    | (extract_lets +onlyGivenNames x; have hf : (∀ z, x z = x z) := fun _ => rfl; clear hf; subst x; try dsimp -zeta only)
    | (extract_lets +onlyGivenNames x; clear_value x)
    | apply Keep.ite
    | apply Keep.put
    | apply Keep.grpPut
    | apply Keep.grpPower
    | apply Keep.ignored
    | (refine Area.sub_trans (b := Touch.execLaneTestExit) ?_ har; decide)
    | (refine Area.fld_mono (a := Touch.execLaneTestExit) ?_ har; decide)
    | apply Keep.foldl
    | dsimp -zeta only
    | split
    | intro _ _ _
    | intro _ _
    | (refine Keep.rec_lane ?_ ?_; rotate_left; first | assumption | apply Keep.put | apply Keep.grpPut | apply Keep.grpPower | apply Keep.ignored | apply Keep.ite | apply Keep.foldl))

def Touch.sendArray : Nat := 0x11000000
theorem Keep.sendArray {a : Nat} {m : Sys2Proof.ArrayMsg}
    (har : Area.sub Touch.sendArray ar = true) (h : Keep ar s t) : Keep ar s (Machine.State.sendArray t a m) := by
  unfold Machine.State.sendArray
  repeat' (with_reducible first
    | assumption
    | (extract_lets +onlyGivenNames x; (apply Keep.cut x); rotate_left; intro _; clear_value x; rotate_right; subst x)
    | (extract_lets +onlyGivenNames x; clear_value x)
    | apply Keep.setPort
    | apply Keep.arrayFrame
    | (refine Area.sub_trans (b := Touch.sendArray) ?_ har; decide)
    | intro _ _ _
    | intro _ _)

def Touch.sendHello : Nat := 0x11000000
theorem Keep.sendHello {a : Nat}
    (har : Area.sub Touch.sendHello ar = true) (h : Keep ar s t) : Keep ar s (Machine.State.sendHello t a) := by
  unfold Machine.State.sendHello
  repeat' (with_reducible first
    | assumption
    | (extract_lets +onlyGivenNames x; (apply Keep.cut x); rotate_left; intro _; clear_value x; rotate_right; subst x)
    | (extract_lets +onlyGivenNames x; clear_value x)
    | apply Keep.emit
    | apply Keep.sendArray
    | (refine Area.sub_trans (b := Touch.sendHello) ?_ har; decide)
    | intro _ _ _
    | intro _ _)

def Touch.grpActive : Nat := 0x280000800080600000E81000000000000000000000001000000000000020000000010019880131
theorem Keep.grpActive {j : Nat}
    (har : Area.sub Touch.grpActive ar = true) (h : Keep ar s t) : Keep ar s (Machine.State.grpActive t j) := by
  unfold Machine.State.grpActive
  repeat' (with_reducible first
    | assumption
    | (extract_lets +onlyGivenNames x; (apply Keep.cut x); rotate_left; intro _; clear_value x; rotate_right; subst x)
    | (extract_lets +onlyGivenNames x; clear_value x)
    | apply Keep.ite
    | apply Keep.put
    | apply Keep.boot
    | apply Keep.grpEvent
    | apply Keep.lanePanel
    | apply Keep.grpPut
    | apply Keep.grpPower
    | apply Keep.becomeActive
    | apply Keep.becomeMirror
    | apply Keep.sendHello
    | apply Keep.tephResend
    | apply Keep.mbxResend
    | (refine Area.sub_trans (b := Touch.grpActive) ?_ har; decide)
    | (refine Area.fld_mono (a := Touch.grpActive) ?_ har; decide)
    | split
    | intro _ _ _
    | intro _ _
    | (refine Keep.rec_pair ?_ ?_; rotate_left; first | assumption | apply Keep.put | apply Keep.boot | apply Keep.grpEvent | apply Keep.lanePanel | apply Keep.grpPut | apply Keep.grpPower | apply Keep.becomeActive | apply Keep.becomeMirror | apply Keep.sendHello | apply Keep.tephResend | apply Keep.mbxResend | apply Keep.ite))

def Touch.linksOff : Nat := 0x800100000000C81000000000000000000000000000000000000000000000000011000000
theorem Keep.linksOff
    (har : Area.sub Touch.linksOff ar = true) (h : Keep ar s t) : Keep ar s (Machine.State.linksOff t) := by
  unfold Machine.State.linksOff
  repeat' (with_reducible first
    | assumption
    | (extract_lets +onlyGivenNames x; (apply Keep.cut x); rotate_left; intro _; clear_value x; rotate_right; subst x)
    | (extract_lets +onlyGivenNames x; have hf : (∀ z, x z = x z) := fun _ => rfl; clear hf; subst x; try dsimp -zeta only)
    | (extract_lets +onlyGivenNames x; clear_value x)
    | apply Keep.put
    | apply Keep.lanePanel
    | apply Keep.grpPut
    | apply Keep.grpPower
    | apply Keep.grpUnlock
    | apply Keep.setPort
    | (refine Area.sub_trans (b := Touch.linksOff) ?_ har; decide)
    | (refine Area.fld_mono (a := Touch.linksOff) ?_ har; decide)
    | apply Keep.foldl
    | dsimp -zeta only
    | intro _ _ _
    | intro _ _)

def Touch.pairHello : Nat := 0x10000000
theorem Keep.pairHello {j : Nat}
    (har : Area.sub Touch.pairHello ar = true) (h : Keep ar s t) : Keep ar s (Machine.State.pairHello t j) := by
  unfold Machine.State.pairHello
  repeat' (with_reducible first
    | assumption
    | (extract_lets +onlyGivenNames x; (apply Keep.cut x); rotate_left; intro _; clear_value x; rotate_right; subst x)
    | (extract_lets +onlyGivenNames x; clear_value x)
    | apply Keep.ite
    | apply Keep.sendCtl
    | (refine Area.sub_trans (b := Touch.pairHello) ?_ har; decide)
    | split
    | intro _ _ _
    | intro _ _)

def Touch.prbsRun : Nat := 0x31000000000000000000000000000000000000000000000000000000400
theorem Keep.prbsRun {p : Sys2Proof.PrbsRun}
    (har : Area.sub Touch.prbsRun ar = true) (h : Keep ar s t) : Keep ar s (Machine.State.prbsRun t p) := by
  unfold Machine.State.prbsRun
  repeat' (with_reducible first
    | assumption
    | (extract_lets +onlyGivenNames x; (apply Keep.cut x); rotate_left; intro _; clear_value x; rotate_right; subst x)
    | (extract_lets +onlyGivenNames x; have hf : (∀ z, x z = x z) := fun _ => rfl; clear hf; subst x; try dsimp -zeta only)
    | (extract_lets +onlyGivenNames x; clear_value x)
    | apply Keep.ite
    | apply Keep.put
    | apply Keep.bumpBy
    | apply Keep.count
    | (refine Area.sub_trans (b := Touch.prbsRun) ?_ har; decide)
    | (refine Area.fld_mono (a := Touch.prbsRun) ?_ har; decide)
    | dsimp -zeta only
    | split
    | intro _ _ _
    | intro _ _
    | (refine Keep.rec_lane ?_ ?_; rotate_left; first | assumption | apply Keep.put | apply Keep.bumpBy | apply Keep.count | apply Keep.ite))

def Touch.prbsTick : Nat := 0x31000000000000000000000000000000000000000000000000000000400
theorem Keep.prbsTick
    (har : Area.sub Touch.prbsTick ar = true) (h : Keep ar s t) : Keep ar s (Machine.State.prbsTick t) := by
  unfold Machine.State.prbsTick
  repeat' (with_reducible first
    | assumption
    | apply Keep.prbsRun
    | (refine Area.sub_trans (b := Touch.prbsTick) ?_ har; decide)
    | apply Keep.foldl
    | intro _ _ _
    | intro _ _)

def Touch.stageFails : Nat := 0x280000800000000000F81000000000000000000000001000000000000000000000010018080031
theorem Keep.stageFails {j : Nat}
    (har : Area.sub Touch.stageFails ar = true) (h : Keep ar s t) : Keep ar s (Machine.State.stageFails t j) := by
  unfold Machine.State.stageFails
  repeat' (with_reducible first
    | assumption
    | (extract_lets +onlyGivenNames x; (apply Keep.cut x); rotate_left; intro _; clear_value x; rotate_right; subst x)
    | (extract_lets +onlyGivenNames x; have hf : (∀ z, x z = x z) := fun _ => rfl; clear hf; subst x; try dsimp -zeta only)
    | (extract_lets +onlyGivenNames x; clear_value x)
    | apply Keep.ite
    | apply Keep.bump
    | apply Keep.recIrq
    | apply Keep.stageFail
    | apply Keep.boot
    | apply Keep.grpEvent
    | apply Keep.lanePanel
    | apply Keep.grpPut
    | apply Keep.grpUnlock
    | apply Keep.grpTrain
    | (refine Area.sub_trans (b := Touch.stageFails) ?_ har; decide)
    | (refine Area.fld_mono (a := Touch.stageFails) ?_ har; decide)
    | dsimp -zeta only
    | split
    | intro _ _ _
    | intro _ _)

def Touch.takeEye : Nat := 0x6000000000000000000000000000000000000000000000000000000000
theorem Keep.takeEye {e : Sys2Proof.LaneEye}
    (har : Area.sub Touch.takeEye ar = true) (h : Keep ar s t) : Keep ar s (Machine.State.takeEye t e) := by
  unfold Machine.State.takeEye
  repeat' (with_reducible first
    | assumption
    | (extract_lets +onlyGivenNames x; (apply Keep.cut x); rotate_left; intro _; clear_value x; rotate_right; subst x)
    | (extract_lets +onlyGivenNames x; clear_value x)
    | apply Keep.ite
    | apply Keep.put
    | apply Keep.setTaps
    | (refine Area.sub_trans (b := Touch.takeEye) ?_ har; decide)
    | (refine Area.fld_mono (a := Touch.takeEye) ?_ har; decide)
    | split
    | intro _ _ _
    | intro _ _)

def Touch.execLaneWake : Nat := 0x81000000000000000000000000000000000000000000000000010000000
theorem Keep.execLaneWake {j : Nat} {tx : Bool}
    (har : Area.sub Touch.execLaneWake ar = true) (h : Keep ar s t) : KeepO ar s (Machine.execLaneWake j tx t) := by
  unfold Machine.execLaneWake
  repeat' (with_reducible first
    | assumption
    | apply KeepO.next
    | apply KeepO.ite
    | (extract_lets +onlyGivenNames x; (first | apply KeepO.cut x | apply Keep.cut x); rotate_left; intro _; clear_value x; rotate_right; subst x)
    | (extract_lets +onlyGivenNames x; clear_value x)
    | apply Keep.ite
    | apply Keep.grpPower
    | apply Keep.sendWake
    | (refine Area.sub_trans (b := Touch.execLaneWake) ?_ har; decide)
    | split
    | intro _ _ _
    | intro _ _)

def Touch.execEqTrackStep : Nat := 0x2000000000000000000000000000000000000000000000000000000000
theorem Keep.execEqTrackStep {n : Nat} {post : Bool} {up : Bool}
    (har : Area.sub Touch.execEqTrackStep ar = true) (h : Keep ar s t) : KeepO ar s (Machine.execEqTrackStep n post up t) := by
  unfold Machine.execEqTrackStep
  repeat' (with_reducible first
    | assumption
    | apply KeepO.next
    | apply KeepO.ite
    | (extract_lets +onlyGivenNames x; (first | apply KeepO.cut x | apply Keep.cut x); rotate_left; intro _; clear_value x; rotate_right; subst x)
    | (extract_lets +onlyGivenNames x; have hf : (∀ z, x z = x z) := fun _ => rfl; clear hf; subst x; try dsimp -zeta only)
    | (extract_lets +onlyGivenNames x; clear_value x)
    | apply Keep.ite
    | apply Keep.setTaps
    | (refine Area.sub_trans (b := Touch.execEqTrackStep) ?_ har; decide)
    | dsimp -zeta only
    | split
    | intro _ _ _
    | intro _ _)

def Touch.execLaneExchange : Nat := 0x280000800080600000E81000000000000000000000001000000000000020000000010019880131
theorem Keep.execLaneExchange {j : Nat} {offered : Nat}
    (har : Area.sub Touch.execLaneExchange ar = true) (h : Keep ar s t) : KeepO ar s (Machine.execLaneExchange j offered t) := by
  unfold Machine.execLaneExchange
  repeat' (with_reducible first
    | assumption
    | apply KeepO.next
    | apply KeepO.ite
    | (extract_lets +onlyGivenNames x; (first | apply KeepO.cut x | apply Keep.cut x); rotate_left; intro _; clear_value x; rotate_right; subst x)
    | (extract_lets +onlyGivenNames x; clear_value x)
    | apply Keep.ite
    | apply Keep.grpPut
    | apply Keep.grpTrain
    | apply Keep.grpActive
    | (refine Area.sub_trans (b := Touch.execLaneExchange) ?_ har; decide)
    | (refine Area.fld_mono (a := Touch.execLaneExchange) ?_ har; decide)
    | split
    | intro _ _ _
    | intro _ _)

def Touch.execLanePowerDown : Nat := 0x81000000000000000000000000000000000000000000000000010000000
theorem Keep.execLanePowerDown {j : Nat} {tx : Bool} {pwr : Nat} {agreed : Bool}
    (har : Area.sub Touch.execLanePowerDown ar = true) (h : Keep ar s t) : KeepO ar s (Machine.execLanePowerDown j tx pwr agreed t) := by
  unfold Machine.execLanePowerDown
  repeat' (with_reducible first
    | assumption
    | apply KeepO.next
    | apply KeepO.ite
    | (extract_lets +onlyGivenNames x; (first | apply KeepO.cut x | apply Keep.cut x); rotate_left; intro _; clear_value x; rotate_right; subst x)
    | (extract_lets +onlyGivenNames x; have hf : (∀ z, x z = x z) := fun _ => rfl; clear hf; subst x; try dsimp -zeta only)
    | (extract_lets +onlyGivenNames x; clear_value x)
    | apply Keep.ite
    | apply Keep.grpPower
    | apply Keep.sendCtl
    | (refine Area.sub_trans (b := Touch.execLanePowerDown) ?_ har; decide)
    | apply Keep.foldl
    | dsimp -zeta only
    | split
    | intro _ _ _
    | intro _ _)

def Touch.execLaneTrainDone : Nat := 0x86000000000000000000000000000000000000000000000000000000000
theorem Keep.execLaneTrainDone {j : Nat} {eyes : List Sys2Proof.LaneEye}
    (har : Area.sub Touch.execLaneTrainDone ar = true) (h : Keep ar s t) : KeepO ar s (Machine.execLaneTrainDone j eyes t) := by
  unfold Machine.execLaneTrainDone
  repeat' (with_reducible first
    | assumption
    | apply KeepO.next
    | apply KeepO.ite
    | (extract_lets +onlyGivenNames x; (first | apply KeepO.cut x | apply Keep.cut x); rotate_left; intro _; clear_value x; rotate_right; subst x)
    | (extract_lets +onlyGivenNames x; have hf : (∀ z, x z = x z) := fun _ => rfl; clear hf; subst x; try dsimp -zeta only)
    | (extract_lets +onlyGivenNames x; clear_value x)
    | apply Keep.ite
    | apply Keep.grpPut
    | apply Keep.takeEye
    | (refine Area.sub_trans (b := Touch.execLaneTrainDone) ?_ har; decide)
    | (refine Area.fld_mono (a := Touch.execLaneTrainDone) ?_ har; decide)
    | apply Keep.foldl
    | dsimp -zeta only
    | split
    | intro _ _ _
    | intro _ _)

def Touch.execLaneFailedRetry : Nat := 0x800000000000C81000000000000000000000000000000000000000000000000010000000
theorem Keep.execLaneFailedRetry {j : Nat}
    (har : Area.sub Touch.execLaneFailedRetry ar = true) (h : Keep ar s t) : KeepO ar s (Machine.execLaneFailedRetry j t) := by
  unfold Machine.execLaneFailedRetry
  repeat' (with_reducible first
    | assumption
    | apply KeepO.next
    | apply KeepO.ite
    | apply Keep.ite
    | apply Keep.lanePanel
    | apply Keep.grpPut
    | apply Keep.grpPower
    | (refine Area.sub_trans (b := Touch.execLaneFailedRetry) ?_ har; decide)
    | (refine Area.fld_mono (a := Touch.execLaneFailedRetry) ?_ har; decide)
    | split
    | intro _ _ _
    | intro _ _)

def Touch.execLaneTrainTimeout : Nat := 0x280000800000000000F81000000000000000000000001000000000000000000000010018080031
theorem Keep.execLaneTrainTimeout {j : Nat}
    (har : Area.sub Touch.execLaneTrainTimeout ar = true) (h : Keep ar s t) : KeepO ar s (Machine.execLaneTrainTimeout j t) := by
  unfold Machine.execLaneTrainTimeout
  repeat' (with_reducible first
    | assumption
    | apply KeepO.next
    | apply KeepO.ite
    | (extract_lets +onlyGivenNames x; (first | apply KeepO.cut x | apply Keep.cut x); rotate_left; intro _; clear_value x; rotate_right; subst x)
    | (extract_lets +onlyGivenNames x; clear_value x)
    | apply Keep.ite
    | apply Keep.stageFails
    | (refine Area.sub_trans (b := Touch.execLaneTrainTimeout) ?_ har; decide)
    | split
    | intro _ _ _
    | intro _ _)

def Touch.execLaneLockDone : Nat := 0x280000800000000000F81000000000000000000000001000000000000000000000010018080031
theorem Keep.execLaneLockDone {j : Nat} {at_ : List (Nat × Nat)}
    (har : Area.sub Touch.execLaneLockDone ar = true) (h : Keep ar s t) : KeepO ar s (Machine.execLaneLockDone j at_ t) := by
  unfold Machine.execLaneLockDone
  repeat' (with_reducible first
    | assumption
    | apply KeepO.next
    | apply KeepO.ite
    | (extract_lets +onlyGivenNames x; (first | apply KeepO.cut x | apply Keep.cut x); rotate_left; intro _; clear_value x; rotate_right; subst x)
    | (extract_lets +onlyGivenNames x; have hf : (∀ z, x z = x z) := fun _ => rfl; clear hf; subst x; try dsimp -zeta only)
    | (extract_lets +onlyGivenNames x; clear_value x)
    | apply Keep.ite
    | apply Keep.put
    | apply Keep.emit
    | apply Keep.grpPut
    | apply Keep.pairHello
    | apply Keep.stageFails
    | (refine Area.sub_trans (b := Touch.execLaneLockDone) ?_ har; decide)
    | (refine Area.fld_mono (a := Touch.execLaneLockDone) ?_ har; decide)
    | apply Keep.foldl
    | dsimp -zeta only
    | split
    | intro _ _ _
    | intro _ _)

def Touch.execLaneDetectCheck : Nat := 0x800000000000C83000000000000000000000000000000000000000000000000010000000
theorem Keep.execLaneDetectCheck {j : Nat} {terminated : Bool}
    (har : Area.sub Touch.execLaneDetectCheck ar = true) (h : Keep ar s t) : KeepO ar s (Machine.execLaneDetectCheck j terminated t) := by
  unfold Machine.execLaneDetectCheck
  repeat' (with_reducible first
    | assumption
    | apply KeepO.next
    | apply KeepO.ite
    | (extract_lets +onlyGivenNames x; (first | apply KeepO.cut x | apply Keep.cut x); rotate_left; intro _; clear_value x; rotate_right; subst x)
    | (extract_lets +onlyGivenNames x; have hf : (∀ z, x z = x z) := fun _ => rfl; clear hf; subst x; try dsimp -zeta only)
    | (extract_lets +onlyGivenNames x; clear_value x)
    | apply Keep.ite
    | apply Keep.setTaps
    | apply Keep.grpPut
    | apply Keep.grpPower
    | apply Keep.grpTrain
    | (refine Area.sub_trans (b := Touch.execLaneDetectCheck) ?_ har; decide)
    | (refine Area.fld_mono (a := Touch.execLaneDetectCheck) ?_ har; decide)
    | apply Keep.foldl
    | dsimp -zeta only
    | split
    | intro _ _ _
    | intro _ _)

def Touch.execLaneLinkLost : Nat := 0x280000801100000000F81000000000000000000000000000000000000000000002800019000120
theorem Keep.execLaneLinkLost {j : Nat}
    (har : Area.sub Touch.execLaneLinkLost ar = true) (h : Keep ar s t) : KeepO ar s (Machine.execLaneLinkLost j t) := by
  unfold Machine.execLaneLinkLost
  repeat' (with_reducible first
    | assumption
    | apply KeepO.next
    | apply KeepO.ite
    | apply Keep.ite
    | apply Keep.linkLost
    | (refine Area.sub_trans (b := Touch.execLaneLinkLost) ?_ har; decide)
    | split
    | intro _ _ _
    | intro _ _)

def Touch.execLaneInvalidHeader : Nat := 0x8000000000000000000000000000000000000000000000000000000000
theorem Keep.execLaneInvalidHeader {n : Nat} {header : Nat} {ty : Nat}
    (har : Area.sub Touch.execLaneInvalidHeader ar = true) (h : Keep ar s t) : KeepO ar s (Machine.execLaneInvalidHeader n header ty t) := by
  unfold Machine.execLaneInvalidHeader
  repeat' (with_reducible first
    | assumption
    | apply KeepO.next
    | apply KeepO.ite
    | apply Keep.ite
    | apply Keep.bump
    | (refine Area.sub_trans (b := Touch.execLaneInvalidHeader) ?_ har; decide)
    | (refine Area.fld_mono (a := Touch.execLaneInvalidHeader) ?_ har; decide)
    | split
    | intro _ _ _
    | intro _ _)

end Sys2Proof
end

