-- ==== Sys2Proof/Laws/KeepTime.lean ====
section
/-!
SUPPORT. The operations and meanings of Machine/Time.lean keep what `Keep` says.
-/

namespace Sys2Proof

open Sys2Proof.Machine

variable {ar : Nat} {s t u : Machine.State}

def Touch.arrayAcked : Nat := 0x1000000
theorem Keep.arrayAcked {a : Nat} {seq : Nat}
    (har : Area.sub Touch.arrayAcked ar = true) (h : Keep ar s t) : Keep ar s (Machine.State.arrayAcked t a seq) := by
  unfold Machine.State.arrayAcked
  repeat' (with_reducible first
    | assumption
    | (extract_lets +onlyGivenNames x; (apply Keep.cut x); rotate_left; intro _; clear_value x; rotate_right; subst x)
    | (extract_lets +onlyGivenNames x; have hf : (∀ z, x z = x z) := fun _ => rfl; clear hf; subst x; try dsimp -zeta only)
    | (extract_lets +onlyGivenNames x; clear_value x)
    | apply Keep.ite
    | apply Keep.setPort
    | (refine Area.sub_trans (b := Touch.arrayAcked) ?_ har; decide)
    | dsimp -zeta only
    | split
    | intro _ _ _
    | intro _ _)

def Touch.gridStep : Nat := 0x800000000000000000400200000000000000000000000000000000000000000010000200
theorem Keep.gridStep {moved : Int} {q : Int}
    (har : Area.sub Touch.gridStep ar = true) (h : Keep ar s t) : Keep ar s (Machine.State.gridStep t moved q) := by
  unfold Machine.State.gridStep
  repeat' (with_reducible first
    | assumption
    | (extract_lets +onlyGivenNames x; (apply Keep.cut x); rotate_left; intro _; clear_value x; rotate_right; subst x)
    | (extract_lets +onlyGivenNames x; clear_value x)
    | apply Keep.ite
    | apply Keep.bumpBy
    | apply Keep.raise
    | (refine Area.sub_trans (b := Touch.gridStep) ?_ har; decide)
    | (refine Area.fld_mono (a := Touch.gridStep) ?_ har; decide)
    | split
    | intro _ _ _
    | intro _ _
    | (refine Keep.rec_pseq ?_ ?_; rotate_left; first | assumption | apply Keep.bumpBy | apply Keep.raise | apply Keep.ite))

def Touch.timeAnchor : Nat := 0x800000
theorem Keep.timeAnchor
    (har : Area.sub Touch.timeAnchor ar = true) (h : Keep ar s t) : Keep ar s (Machine.State.timeAnchor t) := by
  unfold Machine.State.timeAnchor
  repeat' (with_reducible first
    | assumption
    | (extract_lets +onlyGivenNames x; (apply Keep.cut x); rotate_left; intro _; clear_value x; rotate_right; subst x)
    | (extract_lets +onlyGivenNames x; clear_value x)
    | (refine Area.sub_trans (b := Touch.timeAnchor) ?_ har; decide)
    | (refine Keep.rec_time ?_ ?_; rotate_left; first | assumption))

def Touch.timeStep : Nat := 0x800000000000000000400200000000000000000000000000000000000000000010800200
theorem Keep.timeStep {q : Int}
    (har : Area.sub Touch.timeStep ar = true) (h : Keep ar s t) : Keep ar s (Machine.State.timeStep t q) := by
  unfold Machine.State.timeStep
  repeat' (with_reducible first
    | assumption
    | (extract_lets +onlyGivenNames x; (apply Keep.cut x); rotate_left; intro _; clear_value x; rotate_right; subst x)
    | (extract_lets +onlyGivenNames x; clear_value x)
    | apply Keep.gridStep
    | apply Keep.timeAnchor
    | (refine Area.sub_trans (b := Touch.timeStep) ?_ har; decide)
    | intro _ _ _
    | intro _ _
    | (refine Keep.rec_time ?_ ?_; rotate_left; first | assumption | apply Keep.gridStep | apply Keep.timeAnchor))

def Touch.setRate : Nat := 0x800000
theorem Keep.setRate {r : Int}
    (har : Area.sub Touch.setRate ar = true) (h : Keep ar s t) : Keep ar s (Machine.State.setRate t r) := by
  unfold Machine.State.setRate
  repeat' (with_reducible first
    | assumption
    | (extract_lets +onlyGivenNames x; (apply Keep.cut x); rotate_left; intro _; clear_value x; rotate_right; subst x)
    | (extract_lets +onlyGivenNames x; clear_value x)
    | apply Keep.timeAnchor
    | (refine Area.sub_trans (b := Touch.setRate) ?_ har; decide)
    | intro _ _ _
    | intro _ _
    | (refine Keep.rec_time ?_ ?_; rotate_left; first | assumption | apply Keep.timeAnchor))

def Touch.setStep : Nat := 0x1000000000000800000
theorem Keep.setStep {p : Option PendStep}
    (har : Area.sub Touch.setStep ar = true) (h : Keep ar s t) : Keep ar s (Machine.State.setStep t p) := by
  unfold Machine.State.setStep
  repeat' (with_reducible first
    | assumption
    | (extract_lets +onlyGivenNames x; (apply Keep.cut x); rotate_left; intro _; clear_value x; rotate_right; subst x)
    | (extract_lets +onlyGivenNames x; clear_value x)
    | apply Keep.putB
    | (refine Area.sub_trans (b := Touch.setStep) ?_ har; decide)
    | (refine Area.fld_mono (a := Touch.setStep) ?_ har; decide)
    | intro _ _ _
    | intro _ _
    | (refine Keep.rec_time ?_ ?_; rotate_left; first | assumption | apply Keep.putB))

def Touch.setLocked : Nat := 0x280000800000000000000000000000000000000000000000000000000081000000000018000020
theorem Keep.setLocked {on : Bool}
    (har : Area.sub Touch.setLocked ar = true) (h : Keep ar s t) : Keep ar s (Machine.State.setLocked t on) := by
  unfold Machine.State.setLocked
  repeat' (with_reducible first
    | assumption
    | apply Keep.ite
    | apply Keep.putB
    | apply Keep.raiseRec
    | (refine Area.sub_trans (b := Touch.setLocked) ?_ har; decide)
    | (refine Area.fld_mono (a := Touch.setLocked) ?_ har; decide)
    | split
    | intro _ _ _
    | intro _ _)

def Touch.srcChange : Nat := 0x280000800000000000000000000000000000000000000000000000000081000000000018800020
theorem Keep.srcChange {src : Nat}
    (har : Area.sub Touch.srcChange ar = true) (h : Keep ar s t) : Keep ar s (Machine.State.srcChange t src) := by
  unfold Machine.State.srcChange
  repeat' (with_reducible first
    | assumption
    | (extract_lets +onlyGivenNames x; (apply Keep.cut x); rotate_left; intro _; clear_value x; rotate_right; subst x)
    | (extract_lets +onlyGivenNames x; clear_value x)
    | apply Keep.ite
    | apply Keep.put
    | apply Keep.setStep
    | apply Keep.setLocked
    | apply Keep.recOther
    | (refine Area.sub_trans (b := Touch.srcChange) ?_ har; decide)
    | (refine Area.fld_mono (a := Touch.srcChange) ?_ har; decide)
    | split
    | intro _ _ _
    | intro _ _
    | (refine Keep.rec_time ?_ ?_; rotate_left; first | assumption | apply Keep.put | apply Keep.setStep | apply Keep.setLocked | apply Keep.recOther | apply Keep.ite))

def Touch.srcEffect : Nat := 0x280000800000000000000000000000000000000000000000000000000081000000000018800020
theorem Keep.srcEffect {src : Nat}
    (har : Area.sub Touch.srcEffect ar = true) (h : Keep ar s t) : Keep ar s (Machine.State.srcEffect t src) := by
  unfold Machine.State.srcEffect
  repeat' (with_reducible first
    | assumption
    | apply Keep.ite
    | apply Keep.put
    | apply Keep.srcChange
    | (refine Area.sub_trans (b := Touch.srcEffect) ?_ har; decide)
    | (refine Area.fld_mono (a := Touch.srcEffect) ?_ har; decide)
    | split
    | intro _ _ _
    | intro _ _)

def Touch.setHops : Nat := 0x1000000000000000000
theorem Keep.setHops
    (har : Area.sub Touch.setHops ar = true) (h : Keep ar s t) : Keep ar s (Machine.State.setHops t) := by
  unfold Machine.State.setHops
  repeat' (with_reducible first
    | assumption
    | (extract_lets +onlyGivenNames x; (apply Keep.cut x); rotate_left; intro _; clear_value x; rotate_right; subst x)
    | (extract_lets +onlyGivenNames x; clear_value x)
    | apply Keep.ite
    | apply Keep.put
    | (refine Area.sub_trans (b := Touch.setHops) ?_ har; decide)
    | (refine Area.fld_mono (a := Touch.setHops) ?_ har; decide)
    | split
    | intro _ _ _
    | intro _ _)

def Touch.lockRun : Nat := 0x280000800000000000000000000000000000000000000000000000000081000000000018800020
theorem Keep.lockRun {inside : Bool}
    (har : Area.sub Touch.lockRun ar = true) (h : Keep ar s t) : Keep ar s (Machine.State.lockRun t inside) := by
  unfold Machine.State.lockRun
  repeat' (with_reducible first
    | assumption
    | (extract_lets +onlyGivenNames x; (apply Keep.cut x); rotate_left; intro _; clear_value x; rotate_right; subst x)
    | (extract_lets +onlyGivenNames x; clear_value x)
    | apply Keep.ite
    | apply Keep.setLocked
    | apply Keep.setHops
    | (refine Area.sub_trans (b := Touch.lockRun) ?_ har; decide)
    | split
    | intro _ _ _
    | intro _ _
    | (refine Keep.rec_time ?_ ?_; rotate_left; first | assumption | apply Keep.setLocked | apply Keep.setHops | apply Keep.ite))

def Touch.diagnose : Nat := 0x800000000000000000000000000000000000000000000000000081000000000010000000
theorem Keep.diagnose
    (har : Area.sub Touch.diagnose ar = true) (h : Keep ar s t) : Keep ar s (Machine.State.diagnose t) := by
  unfold Machine.State.diagnose
  repeat' (with_reducible first
    | assumption
    | (extract_lets +onlyGivenNames x; (apply Keep.cut x); rotate_left; intro _; clear_value x; rotate_right; subst x)
    | (extract_lets +onlyGivenNames x; have hf : (∀ z, x z = x z) := fun _ => rfl; clear hf; subst x; try dsimp -zeta only)
    | (extract_lets +onlyGivenNames x; clear_value x)
    | apply Keep.ite
    | apply Keep.put
    | apply Keep.raise
    | (refine Area.sub_trans (b := Touch.diagnose) ?_ har; decide)
    | (refine Area.fld_mono (a := Touch.diagnose) ?_ har; decide)
    | dsimp -zeta only
    | split
    | intro _ _ _
    | intro _ _)

def Touch.timeMeasure : Nat := 0x280000800000000000000000400200000000000000000000000000000081000000000018800220
theorem Keep.timeMeasure {src : Nat} {q : Int} {always : Bool}
    (har : Area.sub Touch.timeMeasure ar = true) (h : Keep ar s t) : Keep ar s (Machine.State.timeMeasure t src q always) := by
  unfold Machine.State.timeMeasure
  repeat' (with_reducible first
    | assumption
    | (extract_lets +onlyGivenNames x; (apply Keep.cut x); rotate_left; intro _; clear_value x; rotate_right; subst x)
    | (extract_lets +onlyGivenNames x; clear_value x)
    | apply Keep.ite
    | apply Keep.tookFree
    | apply Keep.raiseRec
    | apply Keep.timeStep
    | apply Keep.setRate
    | apply Keep.setStep
    | apply Keep.srcEffect
    | apply Keep.lockRun
    | apply Keep.diagnose
    | (refine Area.sub_trans (b := Touch.timeMeasure) ?_ har; decide)
    | (refine Area.fld_mono (a := Touch.timeMeasure) ?_ har; decide)
    | split
    | intro _ _ _
    | intro _ _
    | (refine Keep.rec_time ?_ ?_; rotate_left; first | assumption | apply Keep.tookFree | apply Keep.raiseRec | apply Keep.timeStep | apply Keep.setRate | apply Keep.setStep | apply Keep.srcEffect | apply Keep.lockRun | apply Keep.diagnose | apply Keep.ite))

def Touch.arraySource : Nat := 0x280000801000000000000000000000000000000000000000000000000081000000000018800020
theorem Keep.arraySource
    (har : Area.sub Touch.arraySource ar = true) (h : Keep ar s t) : Keep ar s (Machine.State.arraySource t) := by
  unfold Machine.State.arraySource
  repeat' (with_reducible first
    | assumption
    | (extract_lets +onlyGivenNames x; (apply Keep.cut x); rotate_left; intro _; clear_value x; rotate_right; subst x)
    | (extract_lets +onlyGivenNames x; have hf : (∀ z, x z = x z) := fun _ => rfl; clear hf; subst x; try dsimp -zeta only)
    | (extract_lets +onlyGivenNames x; clear_value x)
    | apply Keep.ite
    | apply Keep.put
    | apply Keep.raiseIf
    | apply Keep.srcEffect
    | apply Keep.setHops
    | (refine Area.sub_trans (b := Touch.arraySource) ?_ har; decide)
    | (refine Area.fld_mono (a := Touch.arraySource) ?_ har; decide)
    | dsimp -zeta only
    | split
    | intro _ _ _
    | intro _ _
    | (refine Keep.rec_time ?_ ?_; rotate_left; first | assumption | apply Keep.put | apply Keep.raiseIf | apply Keep.srcEffect | apply Keep.setHops | apply Keep.ite))

def Touch.arrayReply : Nat := 0x280000801E00000000000000400200000000000000000000000000000081000000000019800220
theorem Keep.arrayReply {a : Nat} {id : Nat} {t2 : Nat} {t3 : Nat}
    (har : Area.sub Touch.arrayReply ar = true) (h : Keep ar s t) : Keep ar s (Machine.State.arrayReply t a id t2 t3) := by
  unfold Machine.State.arrayReply
  repeat' (with_reducible first
    | assumption
    | (extract_lets +onlyGivenNames x; (apply Keep.cut x); rotate_left; intro _; clear_value x; rotate_right; subst x)
    | (extract_lets +onlyGivenNames x; have hf : (∀ z, x z = x z) := fun _ => rfl; clear hf; subst x; try dsimp -zeta only)
    | (extract_lets +onlyGivenNames x; clear_value x)
    | apply Keep.ite
    | apply Keep.put
    | apply Keep.putI
    | apply Keep.bump
    | apply Keep.setPort
    | apply Keep.diagnose
    | apply Keep.timeMeasure
    | apply Keep.arraySource
    | (refine Area.sub_trans (b := Touch.arrayReply) ?_ har; decide)
    | (refine Area.fld_mono (a := Touch.arrayReply) ?_ har; decide)
    | dsimp -zeta only
    | split
    | intro _ _ _
    | intro _ _)

def Touch.arrayResend : Nat := 0x280000801100000000F81000000000000000000000000000000000000000000002800019000120
theorem Keep.arrayResend {a : Nat}
    (har : Area.sub Touch.arrayResend ar = true) (h : Keep ar s t) : Keep ar s (Machine.State.arrayResend t a) := by
  unfold Machine.State.arrayResend
  repeat' (with_reducible first
    | assumption
    | (extract_lets +onlyGivenNames x; (apply Keep.cut x); rotate_left; intro _; clear_value x; rotate_right; subst x)
    | (extract_lets +onlyGivenNames x; have hf : (∀ z, x z = x z) := fun _ => rfl; clear hf; subst x; try dsimp -zeta only)
    | (extract_lets +onlyGivenNames x; clear_value x)
    | apply Keep.ite
    | apply Keep.setPort
    | apply Keep.arrayFrame
    | apply Keep.linkLost
    | (refine Area.sub_trans (b := Touch.arrayResend) ?_ har; decide)
    | apply Keep.foldl
    | dsimp -zeta only
    | split
    | intro _ _ _
    | intro _ _)

def Touch.sendStatus : Nat := 0x11000000
theorem Keep.sendStatus
    (har : Area.sub Touch.sendStatus ar = true) (h : Keep ar s t) : Keep ar s (Machine.State.sendStatus t) := by
  unfold Machine.State.sendStatus
  repeat' (with_reducible first
    | assumption
    | (extract_lets +onlyGivenNames x; (apply Keep.cut x); rotate_left; intro _; clear_value x; rotate_right; subst x)
    | (extract_lets +onlyGivenNames x; have hf : (∀ z, x z = x z) := fun _ => rfl; clear hf; subst x; try dsimp -zeta only)
    | (extract_lets +onlyGivenNames x; clear_value x)
    | apply Keep.ite
    | apply Keep.emit
    | apply Keep.sendArray
    | (refine Area.sub_trans (b := Touch.sendStatus) ?_ har; decide)
    | apply Keep.foldl
    | dsimp -zeta only
    | split
    | intro _ _ _
    | intro _ _
    | (refine Keep.rec_array ?_ ?_; rotate_left; first | assumption | apply Keep.emit | apply Keep.sendArray | apply Keep.ite | apply Keep.foldl))

def Touch.statusNow : Nat := 0x11000000
theorem Keep.statusNow
    (har : Area.sub Touch.statusNow ar = true) (h : Keep ar s t) : Keep ar s (Machine.State.statusNow t) := by
  unfold Machine.State.statusNow
  repeat' (with_reducible first
    | assumption
    | apply Keep.ite
    | apply Keep.sendStatus
    | (refine Area.sub_trans (b := Touch.statusNow) ?_ har; decide)
    | split
    | intro _ _ _
    | intro _ _)

def Touch.execTimeCmdAccept : Nat := 0x280000800000000000000000400200000000000000000000000000000081000000000019800220
theorem Keep.execTimeCmdAccept {r : Sys2Proof.Req} {key : Nat}
    (har : Area.sub Touch.execTimeCmdAccept ar = true) (h : Keep ar s t) : KeepO ar s (Machine.execTimeCmdAccept r key t) := by
  unfold Machine.execTimeCmdAccept
  repeat' (with_reducible first
    | assumption
    | apply KeepO.next
    | apply KeepO.ite
    | (extract_lets +onlyGivenNames x; (first | apply KeepO.cut x | apply Keep.cut x); rotate_left; intro _; clear_value x; rotate_right; subst x)
    | (extract_lets +onlyGivenNames x; have hf : (∀ z, x z = x z) := fun _ => rfl; clear hf; subst x; try dsimp -zeta only)
    | (extract_lets +onlyGivenNames x; clear_value x)
    | apply Keep.timeStep
    | apply Keep.setStep
    | apply Keep.lockRun
    | apply Keep.keyed
    | apply Keep.statusNow
    | (refine Area.sub_trans (b := Touch.execTimeCmdAccept) ?_ har; decide)
    | dsimp -zeta only
    | split
    | intro _ _ _
    | intro _ _)

def Touch.execTimeLaunchFlush : Nat := 0x280000800030000000000000000000000000000000000000000000000020000000000010800020
theorem Keep.execTimeLaunchFlush {r : Sys2Proof.Req} {data : Nat}
    (har : Area.sub Touch.execTimeLaunchFlush ar = true) (h : Keep ar s t) : KeepO ar s (Machine.execTimeLaunchFlush r data t) := by
  unfold Machine.execTimeLaunchFlush
  repeat' (with_reducible first
    | assumption
    | apply KeepO.next
    | apply KeepO.ite
    | apply Keep.ite
    | apply Keep.mirrorDrop
    | apply Keep.setLaunches
    | (refine Area.sub_trans (b := Touch.execTimeLaunchFlush) ?_ har; decide)
    | split
    | intro _ _ _
    | intro _ _)

def Touch.execTimeLaunchWrite : Nat := 0x2800008000300000000000000000000000000000000000000000000000A0000000000010800020
theorem Keep.execTimeLaunchWrite {r : Sys2Proof.Req} {short : Nat}
    (har : Area.sub Touch.execTimeLaunchWrite ar = true) (h : Keep ar s t) : KeepO ar s (Machine.execTimeLaunchWrite r short t) := by
  unfold Machine.execTimeLaunchWrite
  repeat' (with_reducible first
    | assumption
    | apply KeepO.next
    | apply KeepO.ite
    | (extract_lets +onlyGivenNames x; (first | apply KeepO.cut x | apply Keep.cut x); rotate_left; intro _; clear_value x; rotate_right; subst x)
    | (extract_lets +onlyGivenNames x; clear_value x)
    | apply Keep.ite
    | apply Keep.raise
    | apply Keep.mirrorDrop
    | apply Keep.setLaunches
    | (refine Area.sub_trans (b := Touch.execTimeLaunchWrite) ?_ har; decide)
    | (refine Area.fld_mono (a := Touch.execTimeLaunchWrite) ?_ har; decide)
    | split
    | intro _ _ _
    | intro _ _)

def Touch.execTimeCmdSlew : Nat := 0x280000800000000000000000000000000000000000000000000000000001000000000010800020
theorem Keep.execTimeCmdSlew {r : Sys2Proof.Req} {key : Nat}
    (har : Area.sub Touch.execTimeCmdSlew ar = true) (h : Keep ar s t) : KeepO ar s (Machine.execTimeCmdSlew r key t) := by
  unfold Machine.execTimeCmdSlew
  repeat' (with_reducible first
    | assumption
    | apply KeepO.next
    | apply KeepO.ite
    | (extract_lets +onlyGivenNames x; (first | apply KeepO.cut x | apply Keep.cut x); rotate_left; intro _; clear_value x; rotate_right; subst x)
    | (extract_lets +onlyGivenNames x; have hf : (∀ z, x z = x z) := fun _ => rfl; clear hf; subst x; try dsimp -zeta only)
    | (extract_lets +onlyGivenNames x; clear_value x)
    | apply Keep.ite
    | apply Keep.put
    | apply Keep.timeAnchor
    | apply Keep.setStep
    | apply Keep.ignored
    | apply Keep.keyed
    | (refine Area.sub_trans (b := Touch.execTimeCmdSlew) ?_ har; decide)
    | (refine Area.fld_mono (a := Touch.execTimeCmdSlew) ?_ har; decide)
    | dsimp -zeta only
    | split
    | intro _ _ _
    | intro _ _
    | (refine Keep.rec_time ?_ ?_; rotate_left; first | assumption | apply Keep.put | apply Keep.timeAnchor | apply Keep.setStep | apply Keep.ignored | apply Keep.keyed | apply Keep.ite))

def Touch.execTimeCmdDiscard : Nat := 0x280000800000000000000000000000000000000000000000000000000001000000000010800020
theorem Keep.execTimeCmdDiscard {r : Sys2Proof.Req} {key : Nat}
    (har : Area.sub Touch.execTimeCmdDiscard ar = true) (h : Keep ar s t) : KeepO ar s (Machine.execTimeCmdDiscard r key t) := by
  unfold Machine.execTimeCmdDiscard
  repeat' (with_reducible first
    | assumption
    | apply KeepO.next
    | apply KeepO.ite
    | (extract_lets +onlyGivenNames x; (first | apply KeepO.cut x | apply Keep.cut x); rotate_left; intro _; clear_value x; rotate_right; subst x)
    | (extract_lets +onlyGivenNames x; have hf : (∀ z, x z = x z) := fun _ => rfl; clear hf; subst x; try dsimp -zeta only)
    | (extract_lets +onlyGivenNames x; clear_value x)
    | apply Keep.setStep
    | apply Keep.keyed
    | (refine Area.sub_trans (b := Touch.execTimeCmdDiscard) ?_ har; decide)
    | dsimp -zeta only
    | split
    | intro _ _ _
    | intro _ _)

def Touch.conflictCheck : Nat := 0x280000801100000000000000000000000000000000000000000000000000000000000018000020
theorem Keep.conflictCheck {a : Nat}
    (har : Area.sub Touch.conflictCheck ar = true) (h : Keep ar s t) : Keep ar s (Machine.State.conflictCheck t a) := by
  unfold Machine.State.conflictCheck
  repeat' (with_reducible first
    | assumption
    | (extract_lets +onlyGivenNames x; (apply Keep.cut x); rotate_left; intro _; clear_value x; rotate_right; subst x)
    | (extract_lets +onlyGivenNames x; clear_value x)
    | apply Keep.ite
    | apply Keep.putB
    | apply Keep.raiseRec
    | (refine Area.sub_trans (b := Touch.conflictCheck) ?_ har; decide)
    | (refine Area.fld_mono (a := Touch.conflictCheck) ?_ har; decide)
    | split
    | intro _ _ _
    | intro _ _)

def Touch.helloAll : Nat := 0x280000801100000000000000000000000000000000000000000000000000000000000019000020
theorem Keep.helloAll
    (har : Area.sub Touch.helloAll ar = true) (h : Keep ar s t) : Keep ar s (Machine.State.helloAll t) := by
  unfold Machine.State.helloAll
  repeat' (with_reducible first
    | assumption
    | apply Keep.ite
    | apply Keep.sendHello
    | apply Keep.conflictCheck
    | (refine Area.sub_trans (b := Touch.helloAll) ?_ har; decide)
    | apply Keep.foldl
    | split
    | intro _ _ _
    | intro _ _)

def Touch.holdover : Nat := 0x280000800000000000000000000000000000000000000000000000000081000000000018800020
theorem Keep.holdover
    (har : Area.sub Touch.holdover ar = true) (h : Keep ar s t) : Keep ar s (Machine.State.holdover t) := by
  unfold Machine.State.holdover
  repeat' (with_reducible first
    | assumption
    | (extract_lets +onlyGivenNames x; (apply Keep.cut x); rotate_left; intro _; clear_value x; rotate_right; subst x)
    | (extract_lets +onlyGivenNames x; clear_value x)
    | apply Keep.ite
    | apply Keep.put
    | apply Keep.setLocked
    | apply Keep.setHops
    | (refine Area.sub_trans (b := Touch.holdover) ?_ har; decide)
    | (refine Area.fld_mono (a := Touch.holdover) ?_ har; decide)
    | split
    | intro _ _ _
    | intro _ _
    | (refine Keep.rec_time ?_ ?_; rotate_left; first | assumption | apply Keep.put | apply Keep.setLocked | apply Keep.setHops | apply Keep.ite))

def Touch.timeStrobe : Nat := 0x280000801000000000000000400200000000000000000000000000000081000000000019800220
theorem Keep.timeStrobe
    (har : Area.sub Touch.timeStrobe ar = true) (h : Keep ar s t) : Keep ar s (Machine.State.timeStrobe t) := by
  unfold Machine.State.timeStrobe
  repeat' (with_reducible first
    | assumption
    | (extract_lets +onlyGivenNames x; (apply Keep.cut x); rotate_left; intro _; clear_value x; rotate_right; subst x)
    | (extract_lets +onlyGivenNames x; clear_value x)
    | apply Keep.ite
    | apply Keep.setRate
    | apply Keep.srcChange
    | apply Keep.srcEffect
    | apply Keep.setHops
    | apply Keep.timeMeasure
    | apply Keep.arraySource
    | apply Keep.statusNow
    | (refine Area.sub_trans (b := Touch.timeStrobe) ?_ har; decide)
    | split
    | intro _ _ _
    | intro _ _)

def Touch.pairReply : Nat := 0x280000800080400000000000400200000000000000000000000000000081000000000018800320
theorem Keep.pairReply {id : Nat} {t2 : Nat} {t3 : Nat} {hops : Nat}
    (har : Area.sub Touch.pairReply ar = true) (h : Keep ar s t) : Keep ar s (Machine.State.pairReply t id t2 t3 hops) := by
  unfold Machine.State.pairReply
  repeat' (with_reducible first
    | assumption
    | (extract_lets +onlyGivenNames x; (apply Keep.cut x); rotate_left; intro _; clear_value x; rotate_right; subst x)
    | (extract_lets +onlyGivenNames x; have hf : (∀ z, x z = x z) := fun _ => rfl; clear hf; subst x; try dsimp -zeta only)
    | (extract_lets +onlyGivenNames x; clear_value x)
    | apply Keep.put
    | apply Keep.timeMeasure
    | apply Keep.setFit
    | (refine Area.sub_trans (b := Touch.pairReply) ?_ har; decide)
    | (refine Area.fld_mono (a := Touch.pairReply) ?_ har; decide)
    | dsimp -zeta only
    | split
    | intro _ _ _
    | intro _ _
    | (refine Keep.rec_time ?_ ?_; rotate_left; first | assumption | apply Keep.put | apply Keep.timeMeasure | apply Keep.setFit))

def Touch.portAck : Nat := 0x11000000
theorem Keep.portAck {a : Nat}
    (har : Area.sub Touch.portAck ar = true) (h : Keep ar s t) : Keep ar s (Machine.State.portAck t a) := by
  unfold Machine.State.portAck
  repeat' (with_reducible first
    | assumption
    | (extract_lets +onlyGivenNames x; (apply Keep.cut x); rotate_left; intro _; clear_value x; rotate_right; subst x)
    | (extract_lets +onlyGivenNames x; clear_value x)
    | apply Keep.emit
    | apply Keep.setPort
    | apply Keep.arrayFrame
    | (refine Area.sub_trans (b := Touch.portAck) ?_ har; decide)
    | intro _ _ _
    | intro _ _)

def Touch.ptpAsk : Nat := 0x10800000
theorem Keep.ptpAsk
    (har : Area.sub Touch.ptpAsk ar = true) (h : Keep ar s t) : Keep ar s (Machine.State.ptpAsk t) := by
  unfold Machine.State.ptpAsk
  repeat' (with_reducible first
    | assumption
    | (extract_lets +onlyGivenNames x; (apply Keep.cut x); rotate_left; intro _; clear_value x; rotate_right; subst x)
    | (extract_lets +onlyGivenNames x; clear_value x)
    | apply Keep.ite
    | apply Keep.emit
    | (refine Area.sub_trans (b := Touch.ptpAsk) ?_ har; decide)
    | split
    | intro _ _ _
    | intro _ _
    | (refine Keep.rec_time ?_ ?_; rotate_left; first | assumption | apply Keep.emit | apply Keep.ite))

def Touch.ptpChoose : Nat := 0x6000000000000800000
theorem Keep.ptpChoose
    (har : Area.sub Touch.ptpChoose ar = true) (h : Keep ar s t) : Keep ar s (Machine.State.ptpChoose t) := by
  unfold Machine.State.ptpChoose
  repeat' (with_reducible first
    | assumption
    | (extract_lets +onlyGivenNames x; (apply Keep.cut x); rotate_left; intro _; clear_value x; rotate_right; subst x)
    | (extract_lets +onlyGivenNames x; clear_value x)
    | apply Keep.ite
    | apply Keep.put
    | (refine Area.sub_trans (b := Touch.ptpChoose) ?_ har; decide)
    | (refine Area.fld_mono (a := Touch.ptpChoose) ?_ har; decide)
    | split
    | intro _ _ _
    | intro _ _
    | (refine Keep.rec_time ?_ ?_; rotate_left; first | assumption | apply Keep.put | apply Keep.ite))

def Touch.ptpMeasure : Nat := 0x28000080000000000000000040020000000000000000000000000000008B000000000018800220
theorem Keep.ptpMeasure {t1 : Nat} {t2 : Nat} {t3 : Nat} {t4 : Nat}
    (har : Area.sub Touch.ptpMeasure ar = true) (h : Keep ar s t) : Keep ar s (Machine.State.ptpMeasure t t1 t2 t3 t4) := by
  unfold Machine.State.ptpMeasure
  repeat' (with_reducible first
    | assumption
    | (extract_lets +onlyGivenNames x; (apply Keep.cut x); rotate_left; intro _; clear_value x; rotate_right; subst x)
    | (extract_lets +onlyGivenNames x; clear_value x)
    | apply Keep.ite
    | apply Keep.put
    | apply Keep.putI
    | apply Keep.timeMeasure
    | (refine Area.sub_trans (b := Touch.ptpMeasure) ?_ har; decide)
    | (refine Area.fld_mono (a := Touch.ptpMeasure) ?_ har; decide)
    | split
    | intro _ _ _
    | intro _ _
    | (refine Keep.rec_time ?_ ?_; rotate_left; first | assumption | apply Keep.put | apply Keep.putI | apply Keep.timeMeasure | apply Keep.ite))

def Touch.ptpTake : Nat := 0x28000080000000000000000040020000000000000000000000000000008F000000000018800220
theorem Keep.ptpTake {m : Sys2Proof.PtpMsg}
    (har : Area.sub Touch.ptpTake ar = true) (h : Keep ar s t) : Keep ar s (Machine.State.ptpTake t m) := by
  unfold Machine.State.ptpTake
  repeat' (with_reducible first
    | assumption
    | (extract_lets +onlyGivenNames x; (apply Keep.cut x); rotate_left; intro _; clear_value x; rotate_right; subst x)
    | (extract_lets +onlyGivenNames x; have hf : (∀ z, x z = x z) := fun _ => rfl; clear hf; subst x; try dsimp -zeta only)
    | (extract_lets +onlyGivenNames x; clear_value x)
    | apply Keep.ite
    | apply Keep.srcEffect
    | apply Keep.setHops
    | apply Keep.ptpAsk
    | apply Keep.ptpChoose
    | apply Keep.ptpMeasure
    | (refine Area.sub_trans (b := Touch.ptpTake) ?_ har; decide)
    | dsimp -zeta only
    | split
    | intro _ _ _
    | intro _ _
    | (refine Keep.rec_time ?_ ?_; rotate_left; first | assumption | apply Keep.srcEffect | apply Keep.setHops | apply Keep.ptpAsk | apply Keep.ptpChoose | apply Keep.ptpMeasure | apply Keep.ite))

def Touch.execPpsInEdge : Nat := 0x800000000000000000000000000000000000000000000000000090000000000010800000
theorem Keep.execPpsInEdge
    (har : Area.sub Touch.execPpsInEdge ar = true) (h : Keep ar s t) : KeepO ar s (Machine.execPpsInEdge t) := by
  unfold Machine.execPpsInEdge
  repeat' (with_reducible first
    | assumption
    | apply KeepO.next
    | apply KeepO.ite
    | (extract_lets +onlyGivenNames x; (first | apply KeepO.cut x | apply Keep.cut x); rotate_left; intro _; clear_value x; rotate_right; subst x)
    | (extract_lets +onlyGivenNames x; clear_value x)
    | apply Keep.ite
    | apply Keep.put
    | apply Keep.raise
    | (refine Area.sub_trans (b := Touch.execPpsInEdge) ?_ har; decide)
    | (refine Area.fld_mono (a := Touch.execPpsInEdge) ?_ har; decide)
    | split
    | intro _ _ _
    | intro _ _
    | (refine Keep.rec_time ?_ ?_; rotate_left; first | assumption | apply Keep.put | apply Keep.raise | apply Keep.ite))

def Touch.execPtpAnnounceTimeout : Nat := 0x6000000000011800000
theorem Keep.execPtpAnnounceTimeout
    (har : Area.sub Touch.execPtpAnnounceTimeout ar = true) (h : Keep ar s t) : KeepO ar s (Machine.execPtpAnnounceTimeout t) := by
  unfold Machine.execPtpAnnounceTimeout
  repeat' (with_reducible first
    | assumption
    | apply KeepO.next
    | apply KeepO.ite
    | (extract_lets +onlyGivenNames x; (first | apply KeepO.cut x | apply Keep.cut x); rotate_left; intro _; clear_value x; rotate_right; subst x)
    | (extract_lets +onlyGivenNames x; have hf : (∀ z, x z = x z) := fun _ => rfl; clear hf; subst x; try dsimp -zeta only)
    | (extract_lets +onlyGivenNames x; clear_value x)
    | apply Keep.statusNow
    | apply Keep.ptpChoose
    | (refine Area.sub_trans (b := Touch.execPtpAnnounceTimeout) ?_ har; decide)
    | dsimp -zeta only
    | split
    | intro _ _ _
    | intro _ _
    | (refine Keep.rec_time ?_ ?_; rotate_left; first | assumption | apply Keep.statusNow | apply Keep.ptpChoose))

def Touch.execTimePacket : Nat := 0x280000801F80400000000000400200000000000000000000000000000081000000000019800320
theorem Keep.execTimePacket {link : Option Nat} {k : Sys2Proof.TimeKind} {i : Sys2Proof.TimeInfo}
    (har : Area.sub Touch.execTimePacket ar = true) (h : Keep ar s t) : KeepO ar s (Machine.execTimePacket link k i t) := by
  unfold Machine.execTimePacket
  repeat' (with_reducible first
    | assumption
    | apply KeepO.next
    | apply KeepO.ite
    | (extract_lets +onlyGivenNames x; (first | apply KeepO.cut x | apply Keep.cut x); rotate_left; intro _; clear_value x; rotate_right; subst x)
    | (extract_lets +onlyGivenNames x; clear_value x)
    | apply Keep.ite
    | apply Keep.put
    | apply Keep.putB
    | apply Keep.emit
    | apply Keep.sendPair
    | apply Keep.setPort
    | apply Keep.arrayFrame
    | apply Keep.arraySource
    | apply Keep.arrayReply
    | apply Keep.statusNow
    | apply Keep.pairReply
    | (refine Area.sub_trans (b := Touch.execTimePacket) ?_ har; decide)
    | (refine Area.fld_mono (a := Touch.execTimePacket) ?_ har; decide)
    | split
    | intro _ _ _
    | intro _ _)

def Touch.execSourceTimeout : Nat := 0x280000800000000000000000000000000000000000000000000000000081000000000019800020
theorem Keep.execSourceTimeout
    (har : Area.sub Touch.execSourceTimeout ar = true) (h : Keep ar s t) : KeepO ar s (Machine.execSourceTimeout t) := by
  unfold Machine.execSourceTimeout
  repeat' (with_reducible first
    | assumption
    | apply KeepO.next
    | apply KeepO.ite
    | apply Keep.statusNow
    | apply Keep.holdover
    | (refine Area.sub_trans (b := Touch.execSourceTimeout) ?_ har; decide)
    | intro _ _ _
    | intro _ _)

def Touch.execArrayStatusSend : Nat := 0x11000000
theorem Keep.execArrayStatusSend
    (har : Area.sub Touch.execArrayStatusSend ar = true) (h : Keep ar s t) : KeepO ar s (Machine.execArrayStatusSend t) := by
  unfold Machine.execArrayStatusSend
  repeat' (with_reducible first
    | assumption
    | apply KeepO.next
    | apply KeepO.ite
    | apply Keep.sendStatus
    | (refine Area.sub_trans (b := Touch.execArrayStatusSend) ?_ har; decide)
    | intro _ _ _
    | intro _ _)

def Touch.execSlewDone : Nat := 0x800000000000000000000000000000000000000000000000000081000000000010800000
theorem Keep.execSlewDone
    (har : Area.sub Touch.execSlewDone ar = true) (h : Keep ar s t) : KeepO ar s (Machine.execSlewDone t) := by
  unfold Machine.execSlewDone
  repeat' (with_reducible first
    | assumption
    | apply KeepO.next
    | apply KeepO.ite
    | (extract_lets +onlyGivenNames x; (first | apply KeepO.cut x | apply Keep.cut x); rotate_left; intro _; clear_value x; rotate_right; subst x)
    | (extract_lets +onlyGivenNames x; clear_value x)
    | apply Keep.ite
    | apply Keep.put
    | apply Keep.raise
    | apply Keep.timeAnchor
    | (refine Area.sub_trans (b := Touch.execSlewDone) ?_ har; decide)
    | (refine Area.fld_mono (a := Touch.execSlewDone) ?_ har; decide)
    | split
    | intro _ _ _
    | intro _ _
    | (refine Keep.rec_time ?_ ?_; rotate_left; first | assumption | apply Keep.put | apply Keep.raise | apply Keep.timeAnchor | apply Keep.ite))

def Touch.execTcxoTrim : Nat := 0x10000000000000000
theorem Keep.execTcxoTrim {table : Int}
    (har : Area.sub Touch.execTcxoTrim ar = true) (h : Keep ar s t) : KeepO ar s (Machine.execTcxoTrim table t) := by
  unfold Machine.execTcxoTrim
  repeat' (with_reducible first
    | assumption
    | apply KeepO.next
    | apply KeepO.ite
    | (extract_lets +onlyGivenNames x; (first | apply KeepO.cut x | apply Keep.cut x); rotate_left; intro _; clear_value x; rotate_right; subst x)
    | (extract_lets +onlyGivenNames x; clear_value x)
    | apply Keep.putI
    | (refine Area.sub_trans (b := Touch.execTcxoTrim) ?_ har; decide)
    | (refine Area.fld_mono (a := Touch.execTcxoTrim) ?_ har; decide)
    | intro _ _ _
    | intro _ _)

def Touch.execArrayBadPacket : Nat := 0x800000000000000000000000000000000000000000000000000000000000000000000
theorem Keep.execArrayBadPacket {a : Nat}
    (har : Area.sub Touch.execArrayBadPacket ar = true) (h : Keep ar s t) : KeepO ar s (Machine.execArrayBadPacket a t) := by
  unfold Machine.execArrayBadPacket
  repeat' (with_reducible first
    | assumption
    | apply KeepO.next
    | apply KeepO.ite
    | apply Keep.ite
    | apply Keep.bump
    | (refine Area.sub_trans (b := Touch.execArrayBadPacket) ?_ har; decide)
    | (refine Area.fld_mono (a := Touch.execArrayBadPacket) ?_ har; decide)
    | split
    | intro _ _ _
    | intro _ _)

def Touch.execArrayHello : Nat := 0x280000801100000000000000000000000000000000000000000000000081000000000019800020
theorem Keep.execArrayHello {a : Nat} {x : Nat} {y : Nat} {valid : Bool} {letter : Nat} {serial : Nat}
    (har : Area.sub Touch.execArrayHello ar = true) (h : Keep ar s t) : KeepO ar s (Machine.execArrayHello a x y valid letter serial t) := by
  unfold Machine.execArrayHello
  repeat' (with_reducible first
    | assumption
    | apply KeepO.next
    | apply KeepO.ite
    | (extract_lets +onlyGivenNames x; (first | apply KeepO.cut x | apply Keep.cut x); rotate_left; intro _; clear_value x; rotate_right; subst x)
    | (extract_lets +onlyGivenNames x; clear_value x)
    | apply Keep.ite
    | apply Keep.put
    | apply Keep.putB
    | apply Keep.raiseIf
    | apply Keep.setPort
    | apply Keep.arraySource
    | apply Keep.statusNow
    | apply Keep.conflictCheck
    | apply Keep.portAck
    | (refine Area.sub_trans (b := Touch.execArrayHello) ?_ har; decide)
    | (refine Area.fld_mono (a := Touch.execArrayHello) ?_ har; decide)
    | split
    | intro _ _ _
    | intro _ _)

def Touch.execArrayTimeExchange : Nat := 0x11000000
theorem Keep.execArrayTimeExchange {a : Nat}
    (har : Area.sub Touch.execArrayTimeExchange ar = true) (h : Keep ar s t) : KeepO ar s (Machine.execArrayTimeExchange a t) := by
  unfold Machine.execArrayTimeExchange
  repeat' (with_reducible first
    | assumption
    | apply KeepO.next
    | apply KeepO.ite
    | (extract_lets +onlyGivenNames x; (first | apply KeepO.cut x | apply Keep.cut x); rotate_left; intro _; clear_value x; rotate_right; subst x)
    | (extract_lets +onlyGivenNames x; clear_value x)
    | apply Keep.ite
    | apply Keep.emit
    | apply Keep.setPort
    | apply Keep.arrayFrame
    | (refine Area.sub_trans (b := Touch.execArrayTimeExchange) ?_ har; decide)
    | split
    | intro _ _ _
    | intro _ _)

def Touch.execArrayStatus : Nat := 0x280000801100000000000000000000000000000000000000000000000081000000000019800020
theorem Keep.execArrayStatus {a : Nat} {src : Nat} {locked : Bool} {hops : Nat} {gm : Nat}
    (har : Area.sub Touch.execArrayStatus ar = true) (h : Keep ar s t) : KeepO ar s (Machine.execArrayStatus a src locked hops gm t) := by
  unfold Machine.execArrayStatus
  repeat' (with_reducible first
    | assumption
    | apply KeepO.next
    | apply KeepO.ite
    | (extract_lets +onlyGivenNames x; (first | apply KeepO.cut x | apply Keep.cut x); rotate_left; intro _; clear_value x; rotate_right; subst x)
    | (extract_lets +onlyGivenNames x; clear_value x)
    | apply Keep.ite
    | apply Keep.put
    | apply Keep.putB
    | apply Keep.raiseIf
    | apply Keep.setPort
    | apply Keep.arraySource
    | apply Keep.statusNow
    | apply Keep.portAck
    | (refine Area.sub_trans (b := Touch.execArrayStatus) ?_ har; decide)
    | (refine Area.fld_mono (a := Touch.execArrayStatus) ?_ har; decide)
    | split
    | intro _ _ _
    | intro _ _)

def Touch.execPpsOutEdge : Nat := 0x10000010
theorem Keep.execPpsOutEdge
    (har : Area.sub Touch.execPpsOutEdge ar = true) (h : Keep ar s t) : KeepO ar s (Machine.execPpsOutEdge t) := by
  unfold Machine.execPpsOutEdge
  repeat' (with_reducible first
    | assumption
    | apply KeepO.next
    | apply KeepO.ite
    | (extract_lets +onlyGivenNames x; (first | apply KeepO.cut x | apply Keep.cut x); rotate_left; intro _; clear_value x; rotate_right; subst x)
    | (extract_lets +onlyGivenNames x; clear_value x)
    | apply Keep.ite
    | apply Keep.emit
    | (refine Area.sub_trans (b := Touch.execPpsOutEdge) ?_ har; decide)
    | split
    | intro _ _ _
    | intro _ _
    | (refine Keep.rec_pins ?_ ?_; rotate_left; first | assumption | apply Keep.emit | apply Keep.ite))

def Touch.execPtpMessage : Nat := 0x28000080000000000000000040020000000000000000000000000000008F000000000019800220
theorem Keep.execPtpMessage {port : Nat} {v6 : Bool} {m : Sys2Proof.PtpMsg}
    (har : Area.sub Touch.execPtpMessage ar = true) (h : Keep ar s t) : KeepO ar s (Machine.execPtpMessage port v6 m t) := by
  unfold Machine.execPtpMessage
  repeat' (with_reducible first
    | assumption
    | apply KeepO.next
    | apply KeepO.ite
    | apply Keep.ite
    | apply Keep.statusNow
    | apply Keep.ptpTake
    | (refine Area.sub_trans (b := Touch.execPtpMessage) ?_ har; decide)
    | split
    | intro _ _ _
    | intro _ _)

def Touch.execPairTimeExchange : Nat := 0x10800100
theorem Keep.execPairTimeExchange
    (har : Area.sub Touch.execPairTimeExchange ar = true) (h : Keep ar s t) : KeepO ar s (Machine.execPairTimeExchange t) := by
  unfold Machine.execPairTimeExchange
  repeat' (with_reducible first
    | assumption
    | apply KeepO.next
    | apply KeepO.ite
    | (extract_lets +onlyGivenNames x; (first | apply KeepO.cut x | apply Keep.cut x); rotate_left; intro _; clear_value x; rotate_right; subst x)
    | (extract_lets +onlyGivenNames x; clear_value x)
    | apply Keep.ite
    | apply Keep.sendPair
    | (refine Area.sub_trans (b := Touch.execPairTimeExchange) ?_ har; decide)
    | split
    | intro _ _ _
    | intro _ _
    | (refine Keep.rec_time ?_ ?_; rotate_left; first | assumption | apply Keep.sendPair | apply Keep.ite))

end Sys2Proof
end

