-- ==== Sys2Proof/Laws/KeepPair.lean ====
section
/-!
SUPPORT. The operations and meanings of Machine/Pair.lean keep what `Keep` says.
-/

namespace Sys2Proof

open Sys2Proof.Machine

variable {ar : Nat} {s t u : Machine.State}

def Touch.actBy : Nat := 0x2800008000300000000000000000000000000000000000000000000113000000027C0018005120
theorem Keep.actBy {r : Sys2Proof.Req} {value : Nat} {slot : Nat} {at_ : Option Nat}
    (har : Area.sub Touch.actBy ar = true) (h : Keep ar s t) : Keep ar s (Machine.State.actBy t r value slot at_) := by
  unfold Machine.State.actBy
  repeat' (with_reducible first
    | assumption
    | (extract_lets +onlyGivenNames x; (apply Keep.cut x); rotate_left; intro _; clear_value x; rotate_right; subst x)
    | (extract_lets +onlyGivenNames x; clear_value x)
    | apply Keep.ite
    | apply Keep.sendPair
    | apply Keep.actRequest
    | apply Keep.mirrorDrop
    | (refine Area.sub_trans (b := Touch.actBy) ?_ har; decide)
    | split
    | intro _ _ _
    | intro _ _)

def Touch.actAuto : Nat := 0x2800008000300000000000000000000000000000000000000000000113000000027C0018005120
theorem Keep.actAuto {slot : Nat}
    (har : Area.sub Touch.actAuto ar = true) (h : Keep ar s t) : Keep ar s (Machine.State.actAuto t slot) := by
  unfold Machine.State.actAuto
  repeat' (with_reducible first
    | assumption
    | apply Keep.ite
    | apply Keep.actBy
    | (refine Area.sub_trans (b := Touch.actAuto) ?_ har; decide)
    | split
    | intro _ _ _
    | intro _ _)

def Touch.handOver : Nat := 0x280000800080000000000000000000000000000000000000000000000000000000000010000120
theorem Keep.handOver {cause : Sys2Proof.NoticeCause} {entry : Option Nat}
    (har : Area.sub Touch.handOver ar = true) (h : Keep ar s t) : KeepFst ar s (Machine.State.handOver t cause entry) := by
  unfold Machine.State.handOver
  repeat' (with_reducible first
    | assumption
    | apply KeepFst.mk
    | apply KeepFst.ite
    | (extract_lets +onlyGivenNames x; (first | apply KeepFst.cut1 x | apply Keep.cut x); rotate_left; intro _; clear_value x; rotate_right; subst x)
    | (extract_lets +onlyGivenNames x; clear_value x)
    | apply Keep.ite
    | apply Keep.raise
    | apply Keep.sendNotice
    | (refine Area.sub_trans (b := Touch.handOver) ?_ har; decide)
    | (refine Area.fld_mono (a := Touch.handOver) ?_ har; decide)
    | split
    | intro _ _ _
    | intro _ _
    | (refine Keep.rec_pair ?_ ?_; rotate_left; first | assumption | apply Keep.raise | apply Keep.sendNotice | apply Keep.ite))

def Touch.execPairCmdHandover : Nat := 0x280000800080000000000000000000000000000000000000000000000000000000000010000120
theorem Keep.execPairCmdHandover {r : Sys2Proof.Req} {key : Nat}
    (har : Area.sub Touch.execPairCmdHandover ar = true) (h : Keep ar s t) : KeepO ar s (Machine.execPairCmdHandover r key t) := by
  unfold Machine.execPairCmdHandover
  repeat' (with_reducible first
    | assumption
    | apply KeepO.ite
    | apply Keep.ite
    | split
    | apply KeepO.next
    | apply KeepFst.mk
    | apply KeepFst.ite
    | apply Keep.keyed
    | apply Keep.handOver
    | (refine KeepFst.of_eq ?_ (by assumption); first | apply Keep.handOver | apply KeepFst.ite)
    | (apply KeepFst.fst; first | apply Keep.handOver)
    | (refine Area.sub_trans (b := Touch.execPairCmdHandover) ?_ har; decide)
    | intro _ _ _
    | intro _ _)

def Touch.execPairCmdResync : Nat := 0x280000800000200000000000000000000000000000000000000000000000000000000010000120
theorem Keep.execPairCmdResync {r : Sys2Proof.Req} {key : Nat}
    (har : Area.sub Touch.execPairCmdResync ar = true) (h : Keep ar s t) : KeepO ar s (Machine.execPairCmdResync r key t) := by
  unfold Machine.execPairCmdResync
  repeat' (with_reducible first
    | assumption
    | apply KeepO.next
    | apply KeepO.ite
    | (extract_lets +onlyGivenNames x; (first | apply KeepO.cut x | apply Keep.cut x); rotate_left; intro _; clear_value x; rotate_right; subst x)
    | (extract_lets +onlyGivenNames x; have hf : (∀ z, x z = x z) := fun _ => rfl; clear hf; subst x; try dsimp -zeta only)
    | (extract_lets +onlyGivenNames x; clear_value x)
    | apply Keep.ite
    | apply Keep.put
    | apply Keep.keyed
    | (refine Area.sub_trans (b := Touch.execPairCmdResync) ?_ har; decide)
    | (refine Area.fld_mono (a := Touch.execPairCmdResync) ?_ har; decide)
    | dsimp -zeta only
    | split
    | intro _ _ _
    | intro _ _
    | (refine Keep.rec_pair ?_ ?_; rotate_left; first | assumption | apply Keep.put | apply Keep.keyed | apply Keep.ite))

def Touch.claimDrive : Nat := 0x200000000000000000000000000000000000000000000000000000000010000000
theorem Keep.claimDrive {state : Nat}
    (har : Area.sub Touch.claimDrive ar = true) (h : Keep ar s t) : Keep ar s (Machine.State.claimDrive t state) := by
  unfold Machine.State.claimDrive
  repeat' (with_reducible first
    | assumption
    | (extract_lets +onlyGivenNames x; (apply Keep.cut x); rotate_left; intro _; clear_value x; rotate_right; subst x)
    | (extract_lets +onlyGivenNames x; clear_value x)
    | apply Keep.put
    | apply Keep.sendClaim
    | (refine Area.sub_trans (b := Touch.claimDrive) ?_ har; decide)
    | (refine Area.fld_mono (a := Touch.claimDrive) ?_ har; decide)
    | intro _ _ _
    | intro _ _)

def Touch.timeRole : Nat := 0x280000801000000000000000000000000000000000000000000000000081000000000018800020
theorem Keep.timeRole
    (har : Area.sub Touch.timeRole ar = true) (h : Keep ar s t) : Keep ar s (Machine.State.timeRole t) := by
  unfold Machine.State.timeRole
  repeat' (with_reducible first
    | assumption
    | apply Keep.ite
    | apply Keep.srcChange
    | apply Keep.setHops
    | apply Keep.arraySource
    | (refine Area.sub_trans (b := Touch.timeRole) ?_ har; decide)
    | split
    | intro _ _ _
    | intro _ _)

def Touch.claimLaunch : Nat := 0x280000801083200000000002000000000000000000000000000000000081000000000018800320
theorem Keep.claimLaunch {c : Claim} {sf : Nat}
    (har : Area.sub Touch.claimLaunch ar = true) (h : Keep ar s t) : Keep ar s (Machine.State.claimLaunch t c sf) := by
  unfold Machine.State.claimLaunch
  repeat' (with_reducible first
    | assumption
    | (extract_lets +onlyGivenNames x; (apply Keep.cut x); rotate_left; intro _; clear_value x; rotate_right; subst x)
    | (extract_lets +onlyGivenNames x; clear_value x)
    | apply Keep.ite
    | apply Keep.put
    | apply Keep.bump
    | apply Keep.raise
    | apply Keep.offer
    | apply Keep.becomeActive
    | apply Keep.timeRole
    | (refine Area.sub_trans (b := Touch.claimLaunch) ?_ har; decide)
    | (refine Area.fld_mono (a := Touch.claimLaunch) ?_ har; decide)
    | split
    | intro _ _ _
    | intro _ _
    | (refine Keep.rec_pair_pseq ?_ ?_; rotate_left; first | assumption | apply Keep.put | apply Keep.bump | apply Keep.raise | apply Keep.offer | apply Keep.becomeActive | apply Keep.timeRole | apply Keep.ite))

def Touch.divergeEnd : Nat := 0x280000800084600000000000000000000000000000000000001EACC117000000027C4018007132
theorem Keep.divergeEnd
    (har : Area.sub Touch.divergeEnd ar = true) (h : Keep ar s t) : Keep ar s (Machine.State.divergeEnd t) := by
  unfold Machine.State.divergeEnd
  repeat' (with_reducible first
    | assumption
    | (extract_lets +onlyGivenNames x; (apply Keep.cut x); rotate_left; intro _; clear_value x; rotate_right; subst x)
    | (extract_lets +onlyGivenNames x; refine KeepFst.cut (m := ar) (s := s) x ?_ (fun hx => ?_); rotate_left; clear_value x; obtain ⟨x, y⟩ := x; dsimp -zeta only at hx ⊢; rotate_right; subst x)
    | (extract_lets +onlyGivenNames x; have hf : (∀ z, x z = x z) := fun _ => rfl; clear hf; subst x; try dsimp -zeta only)
    | (extract_lets +onlyGivenNames x; clear_value x)
    | apply Keep.ite
    | split
    | apply KeepFst.mk
    | apply KeepFst.ite
    | apply KeepFst.foldl
    | apply Keep.put
    | apply Keep.bump
    | apply Keep.raise
    | apply Keep.offer
    | apply Keep.setFit
    | apply Keep.tileUncorr
    | apply Keep.handOver
    | (refine KeepFst.of_eq ?_ (by assumption); first | apply Keep.handOver | apply KeepFst.ite)
    | (apply KeepFst.fst; first | apply Keep.handOver)
    | (refine Area.sub_trans (b := Touch.divergeEnd) ?_ har; decide)
    | (refine Area.fld_mono (a := Touch.divergeEnd) ?_ har; decide)
    | apply Keep.foldl
    | dsimp -zeta only
    | intro _ _ _
    | intro _ _
    | (refine Keep.rec_pair ?_ ?_; rotate_left; first | assumption | apply Keep.put | apply Keep.bump | apply Keep.raise | apply Keep.offer | apply Keep.setFit | apply Keep.tileUncorr | apply Keep.handOver | (refine KeepFst.of_eq ?_ (by assumption); first | apply Keep.handOver | apply KeepFst.ite) | (apply KeepFst.fst; first | apply Keep.handOver) | apply Keep.ite | apply Keep.foldl))

def Touch.fitNow : Nat := 0x280000800080400000000000000000000000000000000000000000000000000000000010000120
theorem Keep.fitNow
    (har : Area.sub Touch.fitNow ar = true) (h : Keep ar s t) : Keep ar s (Machine.State.fitNow t) := by
  unfold Machine.State.fitNow
  repeat' (with_reducible first
    | assumption
    | apply Keep.setFit
    | (refine Area.sub_trans (b := Touch.fitNow) ?_ har; decide)
    | intro _ _ _
    | intro _ _)

def Touch.outOfStep : Nat := 0x280000800080600000000000000000000000000000000000000000000000000000000010000120
theorem Keep.outOfStep
    (har : Area.sub Touch.outOfStep ar = true) (h : Keep ar s t) : Keep ar s (Machine.State.outOfStep t) := by
  unfold Machine.State.outOfStep
  repeat' (with_reducible first
    | assumption
    | (extract_lets +onlyGivenNames x; (apply Keep.cut x); rotate_left; intro _; clear_value x; rotate_right; subst x)
    | (extract_lets +onlyGivenNames x; clear_value x)
    | apply Keep.put
    | apply Keep.setFit
    | (refine Area.sub_trans (b := Touch.outOfStep) ?_ har; decide)
    | (refine Area.fld_mono (a := Touch.outOfStep) ?_ har; decide)
    | intro _ _ _
    | intro _ _
    | (refine Keep.rec_pair ?_ ?_; rotate_left; first | assumption | apply Keep.put | apply Keep.setFit))

def Touch.railRise : Nat := 0x2000000000000000000000000000000000000000000000000000080
theorem Keep.railRise
    (har : Area.sub Touch.railRise ar = true) (h : Keep ar s t) : Keep ar s (Machine.State.railRise t) := by
  unfold Machine.State.railRise
  repeat' (with_reducible first
    | assumption
    | (extract_lets +onlyGivenNames x; (apply Keep.cut x); rotate_left; intro _; clear_value x; rotate_right; subst x)
    | (extract_lets +onlyGivenNames x; clear_value x)
    | apply Keep.ite
    | apply Keep.put
    | (refine Area.sub_trans (b := Touch.railRise) ?_ har; decide)
    | (refine Area.fld_mono (a := Touch.railRise) ?_ har; decide)
    | split
    | intro _ _ _
    | intro _ _
    | (refine Keep.rec_rail ?_ ?_; rotate_left; first | assumption | apply Keep.put | apply Keep.ite))

def Touch.railYield : Nat := 0x2000000000000000000000000000000000000000000000000000080
theorem Keep.railYield
    (har : Area.sub Touch.railYield ar = true) (h : Keep ar s t) : Keep ar s (Machine.State.railYield t) := by
  unfold Machine.State.railYield
  repeat' (with_reducible first
    | assumption
    | (extract_lets +onlyGivenNames x; (apply Keep.cut x); rotate_left; intro _; clear_value x; rotate_right; subst x)
    | (extract_lets +onlyGivenNames x; clear_value x)
    | apply Keep.ite
    | apply Keep.put
    | (refine Area.sub_trans (b := Touch.railYield) ?_ har; decide)
    | (refine Area.fld_mono (a := Touch.railYield) ?_ har; decide)
    | split
    | intro _ _ _
    | intro _ _
    | (refine Keep.rec_rail ?_ ?_; rotate_left; first | assumption | apply Keep.put | apply Keep.ite))

def Touch.rxNext : Nat := 0x100
theorem Keep.rxNext
    (har : Area.sub Touch.rxNext ar = true) (h : Keep ar s t) : Keep ar s (Machine.State.rxNext t) := by
  unfold Machine.State.rxNext
  repeat' (with_reducible first
    | assumption
    | (extract_lets +onlyGivenNames x; (apply Keep.cut x); rotate_left; intro _; clear_value x; rotate_right; subst x)
    | (extract_lets +onlyGivenNames x; clear_value x)
    | (refine Area.sub_trans (b := Touch.rxNext) ?_ har; decide)
    | (refine Keep.rec_pair ?_ ?_; rotate_left; first | assumption))

def Touch.sigCompare : Nat := 0x280000800084400000000000000000000000000000000000000000000000000000000010000120
theorem Keep.sigCompare {sf : Nat}
    (har : Area.sub Touch.sigCompare ar = true) (h : Keep ar s t) : Keep ar s (Machine.State.sigCompare t sf) := by
  unfold Machine.State.sigCompare
  repeat' (with_reducible first
    | assumption
    | (extract_lets +onlyGivenNames x; (apply Keep.cut x); rotate_left; intro _; clear_value x; rotate_right; subst x)
    | (extract_lets +onlyGivenNames x; have hf : (∀ z, x z = x z) := fun _ => rfl; clear hf; subst x; try dsimp -zeta only)
    | (extract_lets +onlyGivenNames x; clear_value x)
    | apply Keep.ite
    | apply Keep.bump
    | apply Keep.setFit
    | (refine Area.sub_trans (b := Touch.sigCompare) ?_ har; decide)
    | (refine Area.fld_mono (a := Touch.sigCompare) ?_ har; decide)
    | apply Keep.foldl
    | dsimp -zeta only
    | split
    | intro _ _ _
    | intro _ _
    | (refine Keep.rec_pair ?_ ?_; rotate_left; first | assumption | apply Keep.bump | apply Keep.setFit | apply Keep.ite | apply Keep.foldl))

def Touch.sigSend : Nat := 0x28000080008C400000000000000000000000000000000000000000000000000000000010000120
theorem Keep.sigSend {x : SigSet}
    (har : Area.sub Touch.sigSend ar = true) (h : Keep ar s t) : Keep ar s (Machine.State.sigSend t x) := by
  unfold Machine.State.sigSend
  repeat' (with_reducible first
    | assumption
    | (extract_lets +onlyGivenNames x; (apply Keep.cut x); rotate_left; intro _; clear_value x; rotate_right; subst x)
    | (extract_lets +onlyGivenNames x; clear_value x)
    | apply Keep.ite
    | apply Keep.bumpBy
    | apply Keep.sendPair
    | apply Keep.sigCompare
    | (refine Area.sub_trans (b := Touch.sigSend) ?_ har; decide)
    | (refine Area.fld_mono (a := Touch.sigSend) ?_ har; decide)
    | split
    | intro _ _ _
    | intro _ _
    | (refine Keep.rec_pair ?_ ?_; rotate_left; first | assumption | apply Keep.bumpBy | apply Keep.sendPair | apply Keep.sigCompare | apply Keep.ite))

def Touch.takeDrive : Nat := 0x2800008000804000000000020000000000000000000000000000000000000000000000180001A0
theorem Keep.takeDrive {cause : Nat} {failCause : Nat} {target : Option Nat}
    (har : Area.sub Touch.takeDrive ar = true) (h : Keep ar s t) : Keep ar s (Machine.State.takeDrive t cause failCause target) := by
  unfold Machine.State.takeDrive
  repeat' (with_reducible first
    | assumption
    | (extract_lets +onlyGivenNames x; (apply Keep.cut x); rotate_left; intro _; clear_value x; rotate_right; subst x)
    | (extract_lets +onlyGivenNames x; clear_value x)
    | apply Keep.ite
    | apply Keep.raiseRec
    | apply Keep.sendClaim
    | apply Keep.fitNow
    | apply Keep.railRise
    | (refine Area.sub_trans (b := Touch.takeDrive) ?_ har; decide)
    | (refine Area.fld_mono (a := Touch.takeDrive) ?_ har; decide)
    | split
    | intro _ _ _
    | intro _ _
    | (refine Keep.rec_pair ?_ ?_; rotate_left; first | assumption | apply Keep.raiseRec | apply Keep.sendClaim | apply Keep.fitNow | apply Keep.railRise | apply Keep.ite))

def Touch.execKatResult : Nat := 0x280000800084600000000000000000000000000000000000001EACC117000000027C4018007132
theorem Keep.execKatResult {tested : List Nat} {failed : List Nat}
    (har : Area.sub Touch.execKatResult ar = true) (h : Keep ar s t) : KeepO ar s (Machine.execKatResult tested failed t) := by
  unfold Machine.execKatResult
  repeat' (with_reducible first
    | assumption
    | apply KeepO.next
    | apply KeepO.ite
    | (extract_lets +onlyGivenNames x; (first | apply KeepO.cut x | apply Keep.cut x); rotate_left; intro _; clear_value x; rotate_right; subst x)
    | (extract_lets +onlyGivenNames x; clear_value x)
    | apply Keep.ite
    | apply Keep.divergeEnd
    | apply Keep.rxNext
    | (refine Area.sub_trans (b := Touch.execKatResult) ?_ har; decide)
    | split
    | intro _ _ _
    | intro _ _
    | (refine Keep.rec_pair ?_ ?_; rotate_left; first | assumption | apply Keep.divergeEnd | apply Keep.rxNext | apply Keep.ite))

def Touch.execSignatures : Nat := 0x280000800084400000000000000000000000000000000000000000000000000000000010000120
theorem Keep.execSignatures {sf : Nat} {sigs : List Nat} {excused : List Bool}
    (har : Area.sub Touch.execSignatures ar = true) (h : Keep ar s t) : KeepO ar s (Machine.execSignatures sf sigs excused t) := by
  unfold Machine.execSignatures
  repeat' (with_reducible first
    | assumption
    | apply KeepO.next
    | apply KeepO.ite
    | (extract_lets +onlyGivenNames x; (first | apply KeepO.cut x | apply Keep.cut x); rotate_left; intro _; clear_value x; rotate_right; subst x)
    | (extract_lets +onlyGivenNames x; have hf : (∀ z, x z = x z) := fun _ => rfl; clear hf; subst x; try dsimp -zeta only)
    | (extract_lets +onlyGivenNames x; clear_value x)
    | apply Keep.ite
    | apply Keep.rxNext
    | apply Keep.sigCompare
    | (refine Area.sub_trans (b := Touch.execSignatures) ?_ har; decide)
    | dsimp -zeta only
    | split
    | intro _ _ _
    | intro _ _
    | (refine Keep.rec_pair ?_ ?_; rotate_left; first | assumption | apply Keep.rxNext | apply Keep.sigCompare | apply Keep.ite))

def Touch.execDelta : Nat := 0x280000800080600000000000000000000000000000000000000000000000000000000018100120
theorem Keep.execDelta {d : Sys2Proof.DeltaMsg}
    (har : Area.sub Touch.execDelta ar = true) (h : Keep ar s t) : KeepO ar s (Machine.execDelta d t) := by
  unfold Machine.execDelta
  repeat' (with_reducible first
    | assumption
    | apply KeepO.next
    | apply KeepO.ite
    | (extract_lets +onlyGivenNames x; (first | apply KeepO.cut x | apply Keep.cut x); rotate_left; intro _; clear_value x; rotate_right; subst x)
    | (extract_lets +onlyGivenNames x; clear_value x)
    | apply Keep.ite
    | apply Keep.deltaJob
    | apply Keep.outOfStep
    | apply Keep.rxNext
    | (refine Area.sub_trans (b := Touch.execDelta) ?_ har; decide)
    | split
    | intro _ _ _
    | intro _ _
    | (refine Keep.rec_pair ?_ ?_; rotate_left; first | assumption | apply Keep.deltaJob | apply Keep.outOfStep | apply Keep.rxNext | apply Keep.ite))

def Touch.execLaunchPacket : Nat := 0x300
theorem Keep.execLaunchPacket {anchor : Nat}
    (har : Area.sub Touch.execLaunchPacket ar = true) (h : Keep ar s t) : KeepO ar s (Machine.execLaunchPacket anchor t) := by
  unfold Machine.execLaunchPacket
  repeat' (with_reducible first
    | assumption
    | apply KeepO.next
    | apply KeepO.ite
    | (extract_lets +onlyGivenNames x; (first | apply KeepO.cut x | apply Keep.cut x); rotate_left; intro _; clear_value x; rotate_right; subst x)
    | (extract_lets +onlyGivenNames x; clear_value x)
    | apply Keep.ite
    | apply Keep.rxNext
    | (refine Area.sub_trans (b := Touch.execLaunchPacket) ?_ har; decide)
    | split
    | intro _ _ _
    | intro _ _
    | (refine Keep.rec_pseq ?_ ?_; rotate_left; first | assumption | apply Keep.rxNext | apply Keep.ite))

def Touch.execSnapshot : Nat := 0x280000800080400000000000000000000000000000000000000000000000000000000010000120
theorem Keep.execSnapshot {d : Sys2Proof.SnapshotMsg} {digest : List Sys2Proof.Byte}
    (har : Area.sub Touch.execSnapshot ar = true) (h : Keep ar s t) : KeepO ar s (Machine.execSnapshot d digest t) := by
  unfold Machine.execSnapshot
  repeat' (with_reducible first
    | assumption
    | apply KeepO.next
    | apply KeepO.ite
    | (extract_lets +onlyGivenNames x; (first | apply KeepO.cut x | apply Keep.cut x); rotate_left; intro _; clear_value x; rotate_right; subst x)
    | (extract_lets +onlyGivenNames x; have hf : (∀ z, x z = x z) := fun _ => rfl; clear hf; subst x; try dsimp -zeta only)
    | (extract_lets +onlyGivenNames x; clear_value x)
    | apply Keep.ite
    | apply Keep.setFit
    | apply Keep.rxNext
    | (refine Area.sub_trans (b := Touch.execSnapshot) ?_ har; decide)
    | dsimp -zeta only
    | split
    | intro _ _ _
    | intro _ _
    | (refine Keep.rec_pair ?_ ?_; rotate_left; first | assumption | apply Keep.setFit | apply Keep.rxNext | apply Keep.ite))

def Touch.execNoticePanelFault : Nat := 0x800000000000000802000000000000000000000000000000000000000000000010000380
theorem Keep.execNoticePanelFault {a0 : Sys2Proof.NoticeCause}
    (har : Area.sub Touch.execNoticePanelFault ar = true) (h : Keep ar s t) : KeepO ar s (Machine.execNoticePanelFault a0 t) := by
  unfold Machine.execNoticePanelFault
  repeat' (with_reducible first
    | assumption
    | apply KeepO.next
    | apply KeepO.ite
    | (extract_lets +onlyGivenNames x; (first | apply KeepO.cut x | apply Keep.cut x); rotate_left; intro _; clear_value x; rotate_right; subst x)
    | (extract_lets +onlyGivenNames x; clear_value x)
    | apply Keep.railOff
    | apply Keep.rxNext
    | (refine Area.sub_trans (b := Touch.execNoticePanelFault) ?_ har; decide)
    | intro _ _ _
    | intro _ _
    | (refine Keep.rec_pair ?_ ?_; rotate_left; first | assumption | apply Keep.railOff | apply Keep.rxNext))

def Touch.execHeartbeatMiss : Nat := 0x2800008000C06000000000020000000000000000000000000000000000000000000000180001A0
theorem Keep.execHeartbeatMiss
    (har : Area.sub Touch.execHeartbeatMiss ar = true) (h : Keep ar s t) : KeepO ar s (Machine.execHeartbeatMiss t) := by
  unfold Machine.execHeartbeatMiss
  repeat' (with_reducible first
    | assumption
    | apply KeepO.next
    | apply KeepO.ite
    | (extract_lets +onlyGivenNames x; (first | apply KeepO.cut x | apply Keep.cut x); rotate_left; intro _; clear_value x; rotate_right; subst x)
    | (extract_lets +onlyGivenNames x; clear_value x)
    | apply Keep.ite
    | apply Keep.put
    | apply Keep.bumpBy
    | apply Keep.raise
    | apply Keep.takeDrive
    | (refine Area.sub_trans (b := Touch.execHeartbeatMiss) ?_ har; decide)
    | (refine Area.fld_mono (a := Touch.execHeartbeatMiss) ?_ har; decide)
    | split
    | intro _ _ _
    | intro _ _)

def Touch.execNoticeHandover : Nat := 0x2800008000804000000000020000000000000000000000000000000000000000000000180001A0
theorem Keep.execNoticeHandover {cause : Sys2Proof.NoticeCause} {sf : Nat}
    (har : Area.sub Touch.execNoticeHandover ar = true) (h : Keep ar s t) : KeepO ar s (Machine.execNoticeHandover cause sf t) := by
  unfold Machine.execNoticeHandover
  repeat' (with_reducible first
    | assumption
    | apply KeepO.next
    | apply KeepO.ite
    | (extract_lets +onlyGivenNames x; (first | apply KeepO.cut x | apply Keep.cut x); rotate_left; intro _; clear_value x; rotate_right; subst x)
    | (extract_lets +onlyGivenNames x; clear_value x)
    | apply Keep.ite
    | apply Keep.rxNext
    | apply Keep.takeDrive
    | (refine Area.sub_trans (b := Touch.execNoticeHandover) ?_ har; decide)
    | split
    | intro _ _ _
    | intro _ _)

def Touch.execPairHello : Nat := 0x280000801180A00000000000000000000000000000000000000000000000000000000019000030
theorem Keep.execPairHello {role : Nat} {serial : Nat}
    (har : Area.sub Touch.execPairHello ar = true) (h : Keep ar s t) : KeepO ar s (Machine.execPairHello role serial t) := by
  unfold Machine.execPairHello
  repeat' (with_reducible first
    | assumption
    | apply KeepO.next
    | apply KeepO.ite
    | (extract_lets +onlyGivenNames x; (first | apply KeepO.cut x | apply Keep.cut x); rotate_left; intro _; clear_value x; rotate_right; subst x)
    | (extract_lets +onlyGivenNames x; clear_value x)
    | apply Keep.ite
    | apply Keep.put
    | apply Keep.alert
    | apply Keep.raiseRec
    | apply Keep.helloAll
    | (refine Area.sub_trans (b := Touch.execPairHello) ?_ har; decide)
    | (refine Area.fld_mono (a := Touch.execPairHello) ?_ har; decide)
    | split
    | intro _ _ _
    | intro _ _)

def Touch.execMailboxPacket : Nat := 0x2800008000000000000000000000000000000000000000000000000000000000021C0018004120
theorem Keep.execMailboxPacket {i : Nat} {word : Sys2Proof.Word} {ack : Bool} {ret : Nat} {seq : Nat}
    (har : Area.sub Touch.execMailboxPacket ar = true) (h : Keep ar s t) : KeepO ar s (Machine.execMailboxPacket i word ack ret seq t) := by
  unfold Machine.execMailboxPacket
  repeat' (with_reducible first
    | assumption
    | apply KeepO.next
    | apply KeepO.ite
    | (extract_lets +onlyGivenNames x; (first | apply KeepO.cut x | apply Keep.cut x); rotate_left; intro _; clear_value x; rotate_right; subst x)
    | (extract_lets +onlyGivenNames x; have hf : (∀ z, x z = x z) := fun _ => rfl; clear hf; subst x; try dsimp -zeta only)
    | (extract_lets +onlyGivenNames x; clear_value x)
    | apply Keep.ite
    | apply Keep.put
    | apply Keep.sendPair
    | apply Keep.mbxPost
    | apply Keep.mbxDone
    | apply Keep.rxNext
    | (refine Area.sub_trans (b := Touch.execMailboxPacket) ?_ har; decide)
    | (refine Area.fld_mono (a := Touch.execMailboxPacket) ?_ har; decide)
    | dsimp -zeta only
    | split
    | intro _ _ _
    | intro _ _
    | (refine Keep.rec_care ?_ ?_; rotate_left; first | assumption | apply Keep.put | apply Keep.sendPair | apply Keep.mbxPost | apply Keep.mbxDone | apply Keep.rxNext | apply Keep.ite))

def Touch.execPairResendTimeout : Nat := 0x280000801140000000F81000000000000000000000000000000000000000000002800019000120
theorem Keep.execPairResendTimeout {link : Option Nat}
    (har : Area.sub Touch.execPairResendTimeout ar = true) (h : Keep ar s t) : KeepO ar s (Machine.execPairResendTimeout link t) := by
  unfold Machine.execPairResendTimeout
  repeat' (with_reducible first
    | assumption
    | apply KeepO.next
    | apply KeepO.ite
    | (extract_lets +onlyGivenNames x; (first | apply KeepO.cut x | apply Keep.cut x); rotate_left; intro _; clear_value x; rotate_right; subst x)
    | (extract_lets +onlyGivenNames x; clear_value x)
    | apply Keep.ite
    | apply Keep.bump
    | apply Keep.linkLost
    | apply Keep.arrayResend
    | apply Keep.resendPair
    | (refine Area.sub_trans (b := Touch.execPairResendTimeout) ?_ har; decide)
    | (refine Area.fld_mono (a := Touch.execPairResendTimeout) ?_ har; decide)
    | apply Keep.foldl
    | split
    | intro _ _ _
    | intro _ _
    | (refine Keep.rec_pair ?_ ?_; rotate_left; first | assumption | apply Keep.bump | apply Keep.linkLost | apply Keep.arrayResend | apply Keep.resendPair | apply Keep.ite | apply Keep.foldl))

def Touch.execPanelPortLostReport : Nat := 0x2800008000804000000000020000000000000000000000000000000000000000000000180001A0
theorem Keep.execPanelPortLostReport
    (har : Area.sub Touch.execPanelPortLostReport ar = true) (h : Keep ar s t) : KeepO ar s (Machine.execPanelPortLostReport t) := by
  unfold Machine.execPanelPortLostReport
  repeat' (with_reducible first
    | assumption
    | apply KeepO.next
    | apply KeepO.ite
    | apply Keep.ite
    | apply Keep.takeDrive
    | (refine Area.sub_trans (b := Touch.execPanelPortLostReport) ?_ har; decide)
    | split
    | intro _ _ _
    | intro _ _)

def Touch.execDriveGrantReport : Nat := 0x2800008000816000000000020000000000000000000000000000000000200000027C00188041A0
theorem Keep.execDriveGrantReport {own : Bool}
    (har : Area.sub Touch.execDriveGrantReport ar = true) (h : Keep ar s t) : KeepO ar s (Machine.execDriveGrantReport own t) := by
  unfold Machine.execDriveGrantReport
  repeat' (with_reducible first
    | assumption
    | apply KeepO.next
    | apply KeepO.ite
    | (extract_lets +onlyGivenNames x; (first | apply KeepO.cut x | apply Keep.cut x); rotate_left; intro _; clear_value x; rotate_right; subst x)
    | (extract_lets +onlyGivenNames x; clear_value x)
    | apply Keep.ite
    | apply Keep.put
    | apply Keep.bump
    | apply Keep.raiseRec
    | apply Keep.cmdEndIf
    | apply Keep.becomeMirror
    | apply Keep.railYield
    | (refine Area.sub_trans (b := Touch.execDriveGrantReport) ?_ har; decide)
    | (refine Area.fld_mono (a := Touch.execDriveGrantReport) ?_ har; decide)
    | split
    | intro _ _ _
    | intro _ _
    | (refine Keep.rec_pair ?_ ?_; rotate_left; first | assumption | apply Keep.put | apply Keep.bump | apply Keep.raiseRec | apply Keep.cmdEndIf | apply Keep.becomeMirror | apply Keep.railYield | apply Keep.ite))

def Touch.execPairAck : Nat := 0x100000000000000000000000000000000000000000000000000000000000000000000001000100
theorem Keep.execPairAck {link : Option Nat} {seq : Nat}
    (har : Area.sub Touch.execPairAck ar = true) (h : Keep ar s t) : KeepO ar s (Machine.execPairAck link seq t) := by
  unfold Machine.execPairAck
  repeat' (with_reducible first
    | assumption
    | apply KeepO.next
    | apply KeepO.ite
    | (extract_lets +onlyGivenNames x; (first | apply KeepO.cut x | apply Keep.cut x); rotate_left; intro _; clear_value x; rotate_right; subst x)
    | (extract_lets +onlyGivenNames x; have hf : (∀ z, x z = x z) := fun _ => rfl; clear hf; subst x; try dsimp -zeta only)
    | (extract_lets +onlyGivenNames x; clear_value x)
    | apply Keep.ite
    | apply Keep.put
    | apply Keep.arrayAcked
    | (refine Area.sub_trans (b := Touch.execPairAck) ?_ har; decide)
    | (refine Area.fld_mono (a := Touch.execPairAck) ?_ har; decide)
    | apply Keep.foldl
    | dsimp -zeta only
    | split
    | intro _ _ _
    | intro _ _
    | (refine Keep.rec_pair ?_ ?_; rotate_left; first | assumption | apply Keep.put | apply Keep.arrayAcked | apply Keep.ite | apply Keep.foldl))

def Touch.execPairAckSend : Nat := 0x10000100
theorem Keep.execPairAckSend
    (har : Area.sub Touch.execPairAckSend ar = true) (h : Keep ar s t) : KeepO ar s (Machine.execPairAckSend t) := by
  unfold Machine.execPairAckSend
  repeat' (with_reducible first
    | assumption
    | apply KeepO.next
    | apply KeepO.ite
    | apply Keep.sendPair
    | (refine Area.sub_trans (b := Touch.execPairAckSend) ?_ har; decide)
    | intro _ _ _
    | intro _ _)

def Touch.execHeartbeatSend : Nat := 0x280000800080400000000000000000000000000000000000000000000000000000000010000120
theorem Keep.execHeartbeatSend
    (har : Area.sub Touch.execHeartbeatSend ar = true) (h : Keep ar s t) : KeepO ar s (Machine.execHeartbeatSend t) := by
  unfold Machine.execHeartbeatSend
  repeat' (with_reducible first
    | assumption
    | apply KeepO.next
    | apply KeepO.ite
    | (extract_lets +onlyGivenNames x; (first | apply KeepO.cut x | apply Keep.cut x); rotate_left; intro _; clear_value x; rotate_right; subst x)
    | (extract_lets +onlyGivenNames x; clear_value x)
    | apply Keep.sendPair
    | apply Keep.fitNow
    | (refine Area.sub_trans (b := Touch.execHeartbeatSend) ?_ har; decide)
    | intro _ _ _
    | intro _ _)

def Touch.execRoleSettle : Nat := 0x280000800080600000000000000000000000000000000000000000000020000000000010800120
theorem Keep.execRoleSettle {otherHolds : Bool} {port : Nat}
    (har : Area.sub Touch.execRoleSettle ar = true) (h : Keep ar s t) : KeepO ar s (Machine.execRoleSettle otherHolds port t) := by
  unfold Machine.execRoleSettle
  repeat' (with_reducible first
    | assumption
    | apply KeepO.next
    | apply KeepO.ite
    | (extract_lets +onlyGivenNames x; (first | apply KeepO.cut x | apply Keep.cut x); rotate_left; intro _; clear_value x; rotate_right; subst x)
    | (extract_lets +onlyGivenNames x; clear_value x)
    | apply Keep.ite
    | apply Keep.put
    | apply Keep.becomeActive
    | apply Keep.becomeMirror
    | apply Keep.sendClaim
    | apply Keep.claimDrive
    | (refine Area.sub_trans (b := Touch.execRoleSettle) ?_ har; decide)
    | (refine Area.fld_mono (a := Touch.execRoleSettle) ?_ har; decide)
    | split
    | intro _ _ _
    | intro _ _)

def Touch.execNoticeFail : Nat := 0x2800008000804000000000020000000000000000000000000000000000000000000000180001A0
theorem Keep.execNoticeFail {cause : Sys2Proof.NoticeCause}
    (har : Area.sub Touch.execNoticeFail ar = true) (h : Keep ar s t) : KeepO ar s (Machine.execNoticeFail cause t) := by
  unfold Machine.execNoticeFail
  repeat' (with_reducible first
    | assumption
    | apply KeepO.next
    | apply KeepO.ite
    | (extract_lets +onlyGivenNames x; (first | apply KeepO.cut x | apply Keep.cut x); rotate_left; intro _; clear_value x; rotate_right; subst x)
    | (extract_lets +onlyGivenNames x; clear_value x)
    | apply Keep.ite
    | apply Keep.rxNext
    | apply Keep.takeDrive
    | (refine Area.sub_trans (b := Touch.execNoticeFail) ?_ har; decide)
    | split
    | intro _ _ _
    | intro _ _
    | (refine Keep.rec_rail ?_ ?_; rotate_left; first | assumption | apply Keep.rxNext | apply Keep.takeDrive | apply Keep.ite))

def Touch.execNoticeMirrorDown : Nat := 0x280000800000000000000000000000000000000000000000000000000000000000000018000120
theorem Keep.execNoticeMirrorDown {a0 : Sys2Proof.NoticeCause}
    (har : Area.sub Touch.execNoticeMirrorDown ar = true) (h : Keep ar s t) : KeepO ar s (Machine.execNoticeMirrorDown a0 t) := by
  unfold Machine.execNoticeMirrorDown
  repeat' (with_reducible first
    | assumption
    | apply KeepO.next
    | apply KeepO.ite
    | (extract_lets +onlyGivenNames x; (first | apply KeepO.cut x | apply Keep.cut x); rotate_left; intro _; clear_value x; rotate_right; subst x)
    | (extract_lets +onlyGivenNames x; clear_value x)
    | apply Keep.ite
    | apply Keep.recOther
    | apply Keep.rxNext
    | (refine Area.sub_trans (b := Touch.execNoticeMirrorDown) ?_ har; decide)
    | split
    | intro _ _ _
    | intro _ _)

def Touch.execHeartbeat : Nat := 0x800080600000000000000000000000000000000000000000000000000000000010000100
theorem Keep.execHeartbeat {a0 : Nat} {a1 : Nat} {state : Nat} {fit : Nat} {a4 : Nat}
    (har : Area.sub Touch.execHeartbeat ar = true) (h : Keep ar s t) : KeepO ar s (Machine.execHeartbeat a0 a1 state fit a4 t) := by
  unfold Machine.execHeartbeat
  repeat' (with_reducible first
    | assumption
    | apply KeepO.next
    | apply KeepO.ite
    | (extract_lets +onlyGivenNames x; (first | apply KeepO.cut x | apply Keep.cut x); rotate_left; intro _; clear_value x; rotate_right; subst x)
    | (extract_lets +onlyGivenNames x; clear_value x)
    | apply Keep.ite
    | apply Keep.put
    | apply Keep.raiseIf
    | (refine Area.sub_trans (b := Touch.execHeartbeat) ?_ har; decide)
    | (refine Area.fld_mono (a := Touch.execHeartbeat) ?_ har; decide)
    | split
    | intro _ _ _
    | intro _ _
    | (refine Keep.rec_pair ?_ ?_; rotate_left; first | assumption | apply Keep.put | apply Keep.raiseIf | apply Keep.ite))

def Touch.execDivergenceKat : Nat := 0x280000800084600000000000000000000000000000000000001EACC117000000027C4018007132
theorem Keep.execDivergenceKat {failed : List Nat}
    (har : Area.sub Touch.execDivergenceKat ar = true) (h : Keep ar s t) : KeepO ar s (Machine.execDivergenceKat failed t) := by
  unfold Machine.execDivergenceKat
  repeat' (with_reducible first
    | assumption
    | apply KeepO.next
    | apply KeepO.ite
    | (extract_lets +onlyGivenNames x; (first | apply KeepO.cut x | apply Keep.cut x); rotate_left; intro _; clear_value x; rotate_right; subst x)
    | (extract_lets +onlyGivenNames x; have hf : (∀ z, x z = x z) := fun _ => rfl; clear hf; subst x; try dsimp -zeta only)
    | (extract_lets +onlyGivenNames x; clear_value x)
    | apply Keep.ite
    | apply Keep.sendPair
    | apply Keep.divergeEnd
    | (refine Area.sub_trans (b := Touch.execDivergenceKat) ?_ har; decide)
    | dsimp -zeta only
    | split
    | intro _ _ _
    | intro _ _
    | (refine Keep.rec_pair ?_ ?_; rotate_left; first | assumption | apply Keep.sendPair | apply Keep.divergeEnd | apply Keep.ite))

end Sys2Proof
end

