-- ==== Sys2Proof/Laws/KeepView.lean ====
section
/-!
SUPPORT. The operations and meanings of Machine/View.lean keep what `Keep` says.
-/

namespace Sys2Proof

open Sys2Proof.Machine

variable {ar : Nat} {s t u : Machine.State}

def Touch.mirrored : Nat := 0x280000800030000000000000000000000000000000000000000000000000000000000010000120
theorem Keep.mirrored {off : Nat} {r : Sys2Proof.Req} {data : Nat} {act : State → State} (hact : ∀ (z0 : Machine.State), Keep ar s z0 → Keep ar s (act z0))
    (har : Area.sub Touch.mirrored ar = true) (h : Keep ar s t) : Keep ar s (Machine.State.mirrored t off r data act) := by
  unfold Machine.State.mirrored
  repeat' (with_reducible first
    | assumption
    | (extract_lets +onlyGivenNames x; (apply Keep.cut x); rotate_left; intro _; clear_value x; rotate_right; subst x)
    | (extract_lets +onlyGivenNames x; clear_value x)
    | apply Keep.ite
    | apply Keep.sendPair
    | apply Keep.mirrorDrop
    | apply hact
    | (refine Area.sub_trans (b := Touch.mirrored) ?_ har; decide)
    | split
    | intro _ _ _
    | intro _ _)

def Touch.execViewCtrlWrite : Nat := 0x280000800030000000000000000000000000000000000000040000000000000000000010000120
theorem Keep.execViewCtrlWrite {r : Sys2Proof.Req} {data : Nat}
    (har : Area.sub Touch.execViewCtrlWrite ar = true) (h : Keep ar s t) : KeepO ar s (Machine.execViewCtrlWrite r data t) := by
  unfold Machine.execViewCtrlWrite
  repeat' (with_reducible first
    | assumption
    | apply KeepO.next
    | apply KeepO.ite
    | (refine Keep.setBase ?_ ⟨by decide, by decide⟩ ?_)
    | apply Keep.mirrored
    | (refine Area.sub_trans (b := Touch.execViewCtrlWrite) ?_ har; decide)
    | (refine Area.fld_mono (a := Touch.execViewCtrlWrite) ?_ har; decide)
    | intro _ _ _
    | intro _ _)

def Touch.putDepth : Nat := 0xFC0000000000000000000000000000000
theorem Keep.putDepth {k : Nat} {e : DepthEntry}
    (har : Area.sub Touch.putDepth ar = true) (h : Keep ar s t) : Keep ar s (Machine.State.putDepth t k e) := by
  unfold Machine.State.putDepth
  repeat' (with_reducible first
    | assumption
    | apply Keep.put
    | apply Keep.putB
    | apply Keep.putI
    | (refine Area.sub_trans (b := Touch.putDepth) ?_ har; decide)
    | (refine Area.fld_mono (a := Touch.putDepth) ?_ har; decide)
    | intro _ _ _
    | intro _ _)

def Touch.putDepths : Nat := 0xFC0000000000000000000000000000000
theorem Keep.putDepths {k : Nat} {a2 : List DepthEntry}
    (har : Area.sub Touch.putDepths ar = true) (h : Keep ar s t) : Keep ar s (Machine.State.putDepths t k a2) := by
  induction a2 generalizing k t with
  | nil => exact h
  | cons e l ih => exact ih (Keep.putDepth (Area.sub_trans (b := Touch.putDepths) (by decide) har) h)

def Touch.depthStream : Nat := 0xFC0800000000000000000000000000000
theorem Keep.depthStream {l : List DepthEntry}
    (har : Area.sub Touch.depthStream ar = true) (h : Keep ar s t) : Keep ar s (Machine.State.depthStream t l) := by
  unfold Machine.State.depthStream
  repeat' (with_reducible first
    | assumption
    | (extract_lets +onlyGivenNames x; (apply Keep.cut x); rotate_left; intro _; clear_value x; rotate_right; subst x)
    | (extract_lets +onlyGivenNames x; have hf : (∀ z, x z = x z) := fun _ => rfl; clear hf; subst x; try dsimp -zeta only)
    | (extract_lets +onlyGivenNames x; clear_value x)
    | apply Keep.put
    | apply Keep.putDepth
    | apply Keep.putDepths
    | (refine Area.sub_trans (b := Touch.depthStream) ?_ har; decide)
    | (refine Area.fld_mono (a := Touch.depthStream) ?_ har; decide)
    | apply Keep.foldl
    | dsimp -zeta only
    | intro _ _ _
    | intro _ _)

def Touch.setViews : Nat := 0x800000000000000000000000000000000000000020020000000000000000000010000000
theorem Keep.setViews {v : Nat × Nat}
    (har : Area.sub Touch.setViews ar = true) (h : Keep ar s t) : Keep ar s (Machine.State.setViews t v) := by
  unfold Machine.State.setViews
  repeat' (with_reducible first
    | assumption
    | apply Keep.ite
    | apply Keep.put
    | apply Keep.raise
    | (refine Area.sub_trans (b := Touch.setViews) ?_ har; decide)
    | (refine Area.fld_mono (a := Touch.setViews) ?_ har; decide)
    | split
    | intro _ _ _
    | intro _ _)

def Touch.setLens : Nat := 0x200000000000000000000000000000
theorem Keep.setLens {layout : Nat}
    (har : Area.sub Touch.setLens ar = true) (h : Keep ar s t) : Keep ar s (Machine.State.setLens t layout) := by
  unfold Machine.State.setLens
  repeat' (with_reducible first
    | assumption
    | (extract_lets +onlyGivenNames x; (apply Keep.cut x); rotate_left; intro _; clear_value x; rotate_right; subst x)
    | (extract_lets +onlyGivenNames x; clear_value x)
    | apply Keep.ite
    | apply Keep.put
    | (refine Area.sub_trans (b := Touch.setLens) ?_ har; decide)
    | (refine Area.fld_mono (a := Touch.setLens) ?_ har; decide)
    | split
    | intro _ _ _
    | intro _ _)

def Touch.modeApply : Nat := 0x80000000000000000000000000000000000000002022000C000000000000000010000200
theorem Keep.modeApply {m : Nat}
    (har : Area.sub Touch.modeApply ar = true) (h : Keep ar s t) : Keep ar s (Machine.State.modeApply t m) := by
  unfold Machine.State.modeApply
  repeat' (with_reducible first
    | assumption
    | (extract_lets +onlyGivenNames x; (apply Keep.cut x); rotate_left; intro _; clear_value x; rotate_right; subst x)
    | (extract_lets +onlyGivenNames x; clear_value x)
    | apply Keep.ite
    | apply Keep.put
    | apply Keep.applyBudgets
    | apply Keep.raise
    | apply Keep.setViews
    | apply Keep.setLens
    | (refine Area.sub_trans (b := Touch.modeApply) ?_ har; decide)
    | (refine Area.fld_mono (a := Touch.modeApply) ?_ har; decide)
    | split
    | intro _ _ _
    | intro _ _
    | (refine Keep.rec_pseq ?_ ?_; rotate_left; first | assumption | apply Keep.put | apply Keep.applyBudgets | apply Keep.raise | apply Keep.setViews | apply Keep.setLens | apply Keep.ite))

def Touch.modeRefuse : Nat := 0x280000800000000000000000000000000000000000000020080000000000000000000018000020
theorem Keep.modeRefuse {m : Nat} {reason : Nat}
    (har : Area.sub Touch.modeRefuse ar = true) (h : Keep ar s t) : Keep ar s (Machine.State.modeRefuse t m reason) := by
  unfold Machine.State.modeRefuse
  repeat' (with_reducible first
    | assumption
    | (extract_lets +onlyGivenNames x; (apply Keep.cut x); rotate_left; intro _; clear_value x; rotate_right; subst x)
    | (extract_lets +onlyGivenNames x; clear_value x)
    | apply Keep.put
    | apply Keep.bump
    | apply Keep.tookFree
    | apply Keep.raise
    | apply Keep.offer
    | (refine Area.sub_trans (b := Touch.modeRefuse) ?_ har; decide)
    | (refine Area.fld_mono (a := Touch.modeRefuse) ?_ har; decide)
    | intro _ _ _
    | intro _ _)

def Touch.unforce : Nat := 0x400
theorem Keep.unforce
    (har : Area.sub Touch.unforce ar = true) (h : Keep ar s t) : Keep ar s (Machine.State.unforce t) := by
  unfold Machine.State.unforce
  repeat' (with_reducible first
    | assumption
    | (extract_lets +onlyGivenNames x; (apply Keep.cut x); rotate_left; intro _; clear_value x; rotate_right; subst x)
    | (extract_lets +onlyGivenNames x; clear_value x)
    | (refine Area.sub_trans (b := Touch.unforce) ?_ har; decide)
    | (refine Keep.rec_lane ?_ ?_; rotate_left; first | assumption))

def Touch.fallBack : Nat := 0x280000800000000000C000000000000000000000000000202A000C000000000000000018040620
theorem Keep.fallBack
    (har : Area.sub Touch.fallBack ar = true) (h : Keep ar s t) : Keep ar s (Machine.State.fallBack t) := by
  unfold Machine.State.fallBack
  repeat' (with_reducible first
    | assumption
    | (extract_lets +onlyGivenNames x; (apply Keep.cut x); rotate_left; intro _; clear_value x; rotate_right; subst x)
    | (extract_lets +onlyGivenNames x; clear_value x)
    | apply Keep.ite
    | apply Keep.put
    | apply Keep.raise
    | apply Keep.modeApply
    | apply Keep.modeRefuse
    | apply Keep.unforce
    | (refine Area.sub_trans (b := Touch.fallBack) ?_ har; decide)
    | (refine Area.fld_mono (a := Touch.fallBack) ?_ har; decide)
    | split
    | intro _ _ _
    | intro _ _
    | (refine Keep.rec_lane ?_ ?_; rotate_left; first | assumption | apply Keep.put | apply Keep.raise | apply Keep.modeApply | apply Keep.modeRefuse | apply Keep.unforce | apply Keep.ite)
    | (refine Keep.rec_view ?_ ?_; rotate_left; first | assumption | apply Keep.put | apply Keep.raise | apply Keep.modeApply | apply Keep.modeRefuse | apply Keep.unforce | apply Keep.ite))

def Touch.fallbackStep : Nat := 0x280000800000000000C000000000000000000000000000202A000C000000000000000018040720
theorem Keep.fallbackStep
    (har : Area.sub Touch.fallbackStep ar = true) (h : Keep ar s t) : Keep ar s (Machine.State.fallbackStep t) := by
  unfold Machine.State.fallbackStep
  repeat' (with_reducible first
    | assumption
    | (extract_lets +onlyGivenNames x; (apply Keep.cut x); rotate_left; intro _; clear_value x; rotate_right; subst x)
    | (extract_lets +onlyGivenNames x; clear_value x)
    | apply Keep.ite
    | apply Keep.put
    | apply Keep.sendFail
    | apply Keep.modeApply
    | apply Keep.unforce
    | apply Keep.fallBack
    | (refine Area.sub_trans (b := Touch.fallbackStep) ?_ har; decide)
    | (refine Area.fld_mono (a := Touch.fallbackStep) ?_ har; decide)
    | split
    | intro _ _ _
    | intro _ _)

def Touch.modeStep : Nat := 0x280000800000000000C000000000000000000000000000202B000C000000000000000018040720
theorem Keep.modeStep
    (har : Area.sub Touch.modeStep ar = true) (h : Keep ar s t) : Keep ar s (Machine.State.modeStep t) := by
  unfold Machine.State.modeStep
  repeat' (with_reducible first
    | assumption
    | (extract_lets +onlyGivenNames x; (apply Keep.cut x); rotate_left; intro _; clear_value x; rotate_right; subst x)
    | (extract_lets +onlyGivenNames x; clear_value x)
    | apply Keep.ite
    | apply Keep.put
    | (refine Keep.setBase ?_ ⟨by decide, by decide⟩ ?_)
    | apply Keep.modeApply
    | apply Keep.modeRefuse
    | apply Keep.unforce
    | apply Keep.fallbackStep
    | (refine Area.sub_trans (b := Touch.modeStep) ?_ har; decide)
    | (refine Area.fld_mono (a := Touch.modeStep) ?_ har; decide)
    | split
    | intro _ _ _
    | intro _ _
    | (refine Keep.rec_view ?_ ?_; rotate_left; first | assumption | apply Keep.put | apply Keep.setWord | apply Keep.modeApply | apply Keep.modeRefuse | apply Keep.unforce | apply Keep.fallbackStep | apply Keep.ite))

def Touch.lensLatch : Nat := 0x280000800000000000000000410100000000000000000020020000000000000000000018000020
theorem Keep.lensLatch
    (har : Area.sub Touch.lensLatch ar = true) (h : Keep ar s t) : Keep ar s (Machine.State.lensLatch t) := by
  unfold Machine.State.lensLatch
  repeat' (with_reducible first
    | assumption
    | (extract_lets +onlyGivenNames x; (apply Keep.cut x); rotate_left; intro _; clear_value x; rotate_right; subst x)
    | (extract_lets +onlyGivenNames x; clear_value x)
    | apply Keep.ite
    | apply Keep.put
    | apply Keep.putB
    | apply Keep.raise
    | apply Keep.recIrq
    | apply Keep.setViews
    | (refine Area.sub_trans (b := Touch.lensLatch) ?_ har; decide)
    | (refine Area.fld_mono (a := Touch.lensLatch) ?_ har; decide)
    | split
    | intro _ _ _
    | intro _ _)

end Sys2Proof
end

