-- ==== Sys2Proof/Laws/KeepComp.lean ====
section
/-!
SUPPORT. The operations and meanings of Machine/Comp.lean keep what `Keep` says.
-/

namespace Sys2Proof

open Sys2Proof.Machine

variable {ar : Nat} {s t u : Machine.State}

def Touch.setDrawn : Nat := 0x200000
theorem Keep.setDrawn {x : Drawn}
    (har : Area.sub Touch.setDrawn ar = true) (h : Keep ar s t) : Keep ar s (Machine.State.setDrawn t x) := by
  unfold Machine.State.setDrawn
  repeat' (with_reducible first
    | assumption
    | (extract_lets +onlyGivenNames x; (apply Keep.cut x); rotate_left; intro _; clear_value x; rotate_right; subst x)
    | (extract_lets +onlyGivenNames x; have hf : (∀ z, x z = x z) := fun _ => rfl; clear hf; subst x; try dsimp -zeta only)
    | (extract_lets +onlyGivenNames x; clear_value x)
    | (refine Area.sub_trans (b := Touch.setDrawn) ?_ har; decide)
    | dsimp -zeta only
    | (refine Keep.rec_blt ?_ ?_; rotate_left; first | assumption))

def Touch.noteDrawn : Nat := 0x200000
theorem Keep.noteDrawn {b : Nat} {x : Box}
    (har : Area.sub Touch.noteDrawn ar = true) (h : Keep ar s t) : Keep ar s (Machine.State.noteDrawn t b x) := by
  unfold Machine.State.noteDrawn
  repeat' (with_reducible first
    | assumption
    | (extract_lets +onlyGivenNames x; (apply Keep.cut x); rotate_left; intro _; clear_value x; rotate_right; subst x)
    | (extract_lets +onlyGivenNames x; have hf : (∀ z, x z = x z) := fun _ => rfl; clear hf; subst x; try dsimp -zeta only)
    | (extract_lets +onlyGivenNames x; clear_value x)
    | apply Keep.ite
    | apply Keep.setDrawn
    | (refine Area.sub_trans (b := Touch.noteDrawn) ?_ har; decide)
    | apply Keep.foldl
    | dsimp -zeta only
    | split
    | intro _ _ _
    | intro _ _)

def Touch.bufBytes : Nat := 0x420100
theorem Keep.bufBytes {a : Nat} {bytes : List Sys2Proof.Byte}
    (har : Area.sub Touch.bufBytes ar = true) (h : Keep ar s t) : Keep ar s (Machine.State.bufBytes t a bytes) := by
  unfold Machine.State.bufBytes
  repeat' (with_reducible first
    | assumption
    | (extract_lets +onlyGivenNames x; (apply Keep.cut x); rotate_left; intro _; clear_value x; rotate_right; subst x)
    | (extract_lets +onlyGivenNames x; have hf : (∀ z, x z = x z) := fun _ => rfl; clear hf; subst x; try dsimp -zeta only)
    | (extract_lets +onlyGivenNames x; clear_value x)
    | apply Keep.ite
    | apply Keep.writeBytes
    | (refine Area.sub_trans (b := Touch.bufBytes) ?_ har; decide)
    | dsimp -zeta only
    | split
    | intro _ _ _
    | intro _ _
    | (refine Keep.rec_pair_comp ?_ ?_; rotate_left; first | assumption | apply Keep.writeBytes | apply Keep.ite))

def Touch.hostBytes : Nat := 0x620100
theorem Keep.hostBytes {a : Nat} {bytes : List Sys2Proof.Byte}
    (har : Area.sub Touch.hostBytes ar = true) (h : Keep ar s t) : Keep ar s (Machine.State.hostBytes t a bytes) := by
  unfold Machine.State.hostBytes
  repeat' (with_reducible first
    | assumption
    | apply Keep.noteDrawn
    | apply Keep.bufBytes
    | (refine Area.sub_trans (b := Touch.hostBytes) ?_ har; decide)
    | apply Keep.foldl
    | intro _ _ _
    | intro _ _)

def Touch.flagWrite : Nat := 0x280000800000000000000000000000000C00000000000000000000000000000000000018020020
theorem Keep.flagWrite {b : Nat}
    (har : Area.sub Touch.flagWrite ar = true) (h : Keep ar s t) : Keep ar s (Machine.State.flagWrite t b) := by
  unfold Machine.State.flagWrite
  repeat' (with_reducible first
    | assumption
    | (extract_lets +onlyGivenNames x; (apply Keep.cut x); rotate_left; intro _; clear_value x; rotate_right; subst x)
    | (extract_lets +onlyGivenNames x; clear_value x)
    | apply Keep.ite
    | apply Keep.bump
    | apply Keep.raise
    | apply Keep.recIrq
    | (refine Area.sub_trans (b := Touch.flagWrite) ?_ har; decide)
    | (refine Area.fld_mono (a := Touch.flagWrite) ?_ har; decide)
    | split
    | intro _ _ _
    | intro _ _
    | (refine Keep.rec_comp ?_ ?_; rotate_left; first | assumption | apply Keep.bump | apply Keep.raise | apply Keep.recIrq | apply Keep.ite))

def Touch.guardOne : Nat := 0x280000800000000000000000000000000C02000000000000000000000000000000000018020020
theorem Keep.guardOne {b : Nat}
    (har : Area.sub Touch.guardOne ar = true) (h : Keep ar s t) : Keep ar s (Machine.State.guardOne t b) := by
  unfold Machine.State.guardOne
  repeat' (with_reducible first
    | assumption
    | (extract_lets +onlyGivenNames x; (apply Keep.cut x); rotate_left; intro _; clear_value x; rotate_right; subst x)
    | (extract_lets +onlyGivenNames x; clear_value x)
    | apply Keep.ite
    | apply Keep.bump
    | apply Keep.raise
    | apply Keep.flagWrite
    | (refine Area.sub_trans (b := Touch.guardOne) ?_ har; decide)
    | (refine Area.fld_mono (a := Touch.guardOne) ?_ har; decide)
    | split
    | intro _ _ _
    | intro _ _)

def Touch.guard : Nat := 0x280000800000000000000000000000000C02000000000000000000000000000000000018020020
theorem Keep.guard {a : Nat} {len : Nat}
    (har : Area.sub Touch.guard ar = true) (h : Keep ar s t) : KeepFst ar s (Machine.State.guard t a len) := by
  unfold Machine.State.guard
  repeat' (with_reducible first
    | assumption
    | apply KeepFst.mk
    | apply KeepFst.ite
    | apply KeepFst.foldl
    | (extract_lets +onlyGivenNames x; (first | apply KeepFst.cut1 x | apply Keep.cut x); rotate_left; intro _; clear_value x; rotate_right; subst x)
    | (extract_lets +onlyGivenNames x; clear_value x)
    | apply Keep.guardOne
    | (refine Area.sub_trans (b := Touch.guard) ?_ har; decide)
    | apply Keep.foldl
    | intro _ _ _
    | intro _ _)

def Touch.guardedWrite : Nat := 0x280000800030000000000000000000000C02000000000000000000000000000000000018620120
theorem Keep.guardedWrite {blt : Bool} {a : Nat} {bytes : List Sys2Proof.Byte} {since : Nat}
    (har : Area.sub Touch.guardedWrite ar = true) (h : Keep ar s t) : Keep ar s (Machine.State.guardedWrite t blt a bytes since) := by
  unfold Machine.State.guardedWrite
  repeat' (with_reducible first
    | assumption
    | (extract_lets +onlyGivenNames x; (apply Keep.cut x); rotate_left; intro _; clear_value x; rotate_right; subst x)
    | (extract_lets +onlyGivenNames x; refine KeepFst.cut (m := ar) (s := s) x ?_ (fun hx => ?_); rotate_left; clear_value x; obtain ⟨x, y⟩ := x; dsimp -zeta only at hx ⊢; rotate_right; subst x)
    | (extract_lets +onlyGivenNames x; clear_value x)
    | apply Keep.ite
    | split
    | apply KeepFst.mk
    | apply KeepFst.ite
    | apply Keep.mirrorDrop
    | apply Keep.bufBytes
    | apply Keep.hostBytes
    | apply Keep.guard
    | (refine KeepFst.of_eq ?_ (by assumption); first | apply Keep.guard | apply KeepFst.ite)
    | (apply KeepFst.fst; first | apply Keep.guard)
    | (refine Area.sub_trans (b := Touch.guardedWrite) ?_ har; decide)
    | intro _ _ _
    | intro _ _
    | (refine Keep.rec_comp ?_ ?_; rotate_left; first | assumption | apply Keep.mirrorDrop | apply Keep.bufBytes | apply Keep.hostBytes | apply Keep.guard | (refine KeepFst.of_eq ?_ (by assumption); first | apply Keep.guard | apply KeepFst.ite) | (apply KeepFst.fst; first | apply Keep.guard) | apply Keep.ite))

def Touch.bindBase : Nat := 0x20000
theorem Keep.bindBase
    (har : Area.sub Touch.bindBase ar = true) (h : Keep ar s t) : Keep ar s (Machine.State.bindBase t) := by
  unfold Machine.State.bindBase
  repeat' (with_reducible first
    | assumption
    | (extract_lets +onlyGivenNames x; (apply Keep.cut x); rotate_left; intro _; clear_value x; rotate_right; subst x)
    | (extract_lets +onlyGivenNames x; have hf : (∀ z, x z = x z) := fun _ => rfl; clear hf; subst x; try dsimp -zeta only)
    | (extract_lets +onlyGivenNames x; clear_value x)
    | (refine Area.sub_trans (b := Touch.bindBase) ?_ har; decide)
    | dsimp -zeta only
    | split
    | (refine Keep.rec_comp ?_ ?_; rotate_left; first | assumption))

def Touch.bufState : Nat := 0x300000000000000000000000000000000000000000000
theorem Keep.bufState {start : Bool} {b : Nat}
    (har : Area.sub Touch.bufState ar = true) (h : Keep ar s t) : Keep ar s (Machine.State.bufState t start b) := by
  unfold Machine.State.bufState
  repeat' (with_reducible first
    | assumption
    | (extract_lets +onlyGivenNames x; (apply Keep.cut x); rotate_left; intro _; clear_value x; rotate_right; subst x)
    | (extract_lets +onlyGivenNames x; clear_value x)
    | apply Keep.ite
    | apply Keep.put
    | (refine Area.sub_trans (b := Touch.bufState) ?_ har; decide)
    | (refine Area.fld_mono (a := Touch.bufState) ?_ har; decide)
    | split
    | intro _ _ _
    | intro _ _)

def Touch.bufStates : Nat := 0x300000000000000000000000000000000000000000000
theorem Keep.bufStates {start : Bool}
    (har : Area.sub Touch.bufStates ar = true) (h : Keep ar s t) : Keep ar s (Machine.State.bufStates t start) := by
  unfold Machine.State.bufStates
  repeat' (with_reducible first
    | assumption
    | apply Keep.bufState
    | (refine Area.sub_trans (b := Touch.bufStates) ?_ har; decide)
    | apply Keep.foldl
    | intro _ _ _
    | intro _ _)

def Touch.bufFail : Nat := 0x280000800000000000000000000000000900000000000000000000000000000000000018000020
theorem Keep.bufFail {b : Nat} {code : Nat}
    (har : Area.sub Touch.bufFail ar = true) (h : Keep ar s t) : Keep ar s (Machine.State.bufFail t b code) := by
  unfold Machine.State.bufFail
  repeat' (with_reducible first
    | assumption
    | apply Keep.put
    | apply Keep.raiseRec
    | (refine Area.sub_trans (b := Touch.bufFail) ?_ har; decide)
    | (refine Area.fld_mono (a := Touch.bufFail) ?_ har; decide)
    | intro _ _ _
    | intro _ _)

def Touch.bufFmt : Nat := 0x280000800000000000000000000000000B80000000000000000000000000000000000018000020
theorem Keep.bufFmt {b : Nat} {data : Nat}
    (har : Area.sub Touch.bufFmt ar = true) (h : Keep ar s t) : Keep ar s (Machine.State.bufFmt t b data) := by
  unfold Machine.State.bufFmt
  repeat' (with_reducible first
    | assumption
    | (extract_lets +onlyGivenNames x; (apply Keep.cut x); rotate_left; intro _; clear_value x; rotate_right; subst x)
    | (extract_lets +onlyGivenNames x; clear_value x)
    | apply Keep.ite
    | apply Keep.put
    | apply Keep.bufState
    | apply Keep.bufFail
    | (refine Area.sub_trans (b := Touch.bufFmt) ?_ har; decide)
    | (refine Area.fld_mono (a := Touch.bufFmt) ?_ har; decide)
    | split
    | intro _ _ _
    | intro _ _)

def Touch.hostWaits : Nat := 0x20000
theorem Keep.hostWaits {i : HeldItem}
    (har : Area.sub Touch.hostWaits ar = true) (h : Keep ar s t) : Keep ar s (Machine.State.hostWaits t i) := by
  unfold Machine.State.hostWaits
  repeat' (with_reducible first
    | assumption
    | (extract_lets +onlyGivenNames x; (apply Keep.cut x); rotate_left; intro _; clear_value x; rotate_right; subst x)
    | (extract_lets +onlyGivenNames x; clear_value x)
    | (refine Area.sub_trans (b := Touch.hostWaits) ?_ har; decide)
    | (refine Keep.rec_comp ?_ ?_; rotate_left; first | assumption))

def Touch.sigCtrl : Nat := 0x20000
theorem Keep.sigCtrl {r : Nat} {data : Nat}
    (har : Area.sub Touch.sigCtrl ar = true) (h : Keep ar s t) : Keep ar s (Machine.State.sigCtrl t r data) := by
  unfold Machine.State.sigCtrl
  repeat' (with_reducible first
    | assumption
    | (extract_lets +onlyGivenNames x; (apply Keep.cut x); rotate_left; intro _; clear_value x; rotate_right; subst x)
    | (extract_lets +onlyGivenNames x; clear_value x)
    | apply Keep.ite
    | (refine Area.sub_trans (b := Touch.sigCtrl) ?_ har; decide)
    | split
    | (refine Keep.rec_comp ?_ ?_; rotate_left; first | assumption | apply Keep.ite))

def Touch.safeCtrl : Nat := 0x20000
theorem Keep.safeCtrl {data : Nat}
    (har : Area.sub Touch.safeCtrl ar = true) (h : Keep ar s t) : Keep ar s (Machine.State.safeCtrl t data) := by
  unfold Machine.State.safeCtrl
  repeat' (with_reducible first
    | assumption
    | (extract_lets +onlyGivenNames x; (apply Keep.cut x); rotate_left; intro _; clear_value x; rotate_right; subst x)
    | (extract_lets +onlyGivenNames x; clear_value x)
    | apply Keep.ite
    | (refine Area.sub_trans (b := Touch.safeCtrl) ?_ har; decide)
    | split
    | (refine Keep.rec_comp ?_ ?_; rotate_left; first | assumption | apply Keep.ite))

def Touch.calIndexWrite : Nat := 0x180000000000000000000000000000000000000000
theorem Keep.calIndexWrite {data : Nat}
    (har : Area.sub Touch.calIndexWrite ar = true) (h : Keep ar s t) : Keep ar s (Machine.State.calIndexWrite t data) := by
  unfold Machine.State.calIndexWrite
  repeat' (with_reducible first
    | assumption
    | (extract_lets +onlyGivenNames x; (apply Keep.cut x); rotate_left; intro _; clear_value x; rotate_right; subst x)
    | (extract_lets +onlyGivenNames x; have hf : (∀ z, x z = x z) := fun _ => rfl; clear hf; subst x; try dsimp -zeta only)
    | (extract_lets +onlyGivenNames x; clear_value x)
    | apply Keep.put
    | (refine Area.sub_trans (b := Touch.calIndexWrite) ?_ har; decide)
    | (refine Area.fld_mono (a := Touch.calIndexWrite) ?_ har; decide)
    | apply Keep.foldl
    | dsimp -zeta only
    | intro _ _ _
    | intro _ _)

def Touch.completeItem : Nat := 0x620100
theorem Keep.completeItem {blt : Bool} {reg : State → HeldWrite → State} {a3 : HeldWrite} (hreg : ∀ (z0 : Machine.State) (z1 : HeldWrite), Keep ar s z0 → Keep ar s (reg z0 z1))
    (har : Area.sub Touch.completeItem ar = true) (h : Keep ar s t) : Keep ar s (Machine.State.completeItem t blt reg a3) := by
  unfold Machine.State.completeItem
  repeat' (with_reducible first
    | assumption
    | (extract_lets +onlyGivenNames x; (apply Keep.cut x); rotate_left; intro _; clear_value x; rotate_right; subst x)
    | (extract_lets +onlyGivenNames x; clear_value x)
    | apply Keep.ite
    | apply Keep.bufBytes
    | apply Keep.hostBytes
    | apply hreg
    | (refine Area.sub_trans (b := Touch.completeItem) ?_ har; decide)
    | split
    | intro _ _ _
    | intro _ _)

def Touch.frontWaits : Nat := 0x280000800000000000000000000000000C02000000000000000000000000000000000018020020
theorem Keep.frontWaits {a1 : HeldWrite}
    (har : Area.sub Touch.frontWaits ar = true) (h : Keep ar s t) : KeepFst ar s (Machine.State.frontWaits t a1) := by
  unfold Machine.State.frontWaits
  repeat' (with_reducible first
    | assumption
    | (extract_lets +onlyGivenNames x; (first | apply KeepFst.cut1 x | apply Keep.cut x); rotate_left; intro _; clear_value x; rotate_right; subst x)
    | (extract_lets +onlyGivenNames x; refine KeepFst.cut (m := ar) (s := s) x ?_ (fun hx => ?_); rotate_left; clear_value x; obtain ⟨x, y⟩ := x; dsimp -zeta only at hx ⊢; rotate_right; subst x)
    | (extract_lets +onlyGivenNames x; clear_value x)
    | apply Keep.ite
    | split
    | apply KeepFst.mk
    | apply KeepFst.ite
    | apply Keep.guard
    | (refine KeepFst.of_eq ?_ (by assumption); first | apply Keep.guard | apply KeepFst.ite)
    | (apply KeepFst.fst; first | apply Keep.guard)
    | (refine Area.sub_trans (b := Touch.frontWaits) ?_ har; decide)
    | intro _ _ _
    | intro _ _)

def Touch.drain : Nat := 0x280000800000000000000000000000000C02000000000000000000000000000000000018620120
theorem Keep.drain {blt : Bool} {reg : State → HeldWrite → State} {a3 : List HeldWrite} (hreg : ∀ (z0 : Machine.State) (z1 : HeldWrite), Keep ar s z0 → Keep ar s (reg z0 z1))
    (har : Area.sub Touch.drain ar = true) (h : Keep ar s t) : KeepFst ar s (Machine.State.drain t blt reg a3) := by
  induction a3 generalizing t with
  | nil => exact h
  | cons w l ih =>
    have hf : KeepFst ar s (t.frontWaits w) := Keep.frontWaits (Area.sub_trans (b := Touch.drain) (by decide) har) h
    unfold Machine.State.drain
    split
    · rename_i s1 e
      rw [e] at hf
      exact hf
    · rename_i s1 e
      have h1 : Keep ar s s1 := by rw [e] at hf; exact hf
      have h2 := Keep.completeItem (blt := blt) (a3 := w) hreg (Area.sub_trans (b := Touch.drain) (by decide) har) h1
      dsimp only
      split
      · exact ih h2
      · exact h2

def Touch.releaseHeld : Nat := 0x280000800000000000000000000000000C02000000000000000000000000000000000018620120
theorem Keep.releaseHeld {reg : State → HeldWrite → State} (hreg : ∀ (z0 : Machine.State) (z1 : HeldWrite), Keep ar s z0 → Keep ar s (reg z0 z1))
    (har : Area.sub Touch.releaseHeld ar = true) (h : Keep ar s t) : Keep ar s (Machine.State.releaseHeld t reg) := by
  unfold Machine.State.releaseHeld
  repeat' (with_reducible first
    | assumption
    | (extract_lets +onlyGivenNames x; (apply Keep.cut x); rotate_left; intro _; clear_value x; rotate_right; subst x)
    | (extract_lets +onlyGivenNames x; refine KeepFst.cut (m := ar) (s := s) x ?_ (fun hx => ?_); rotate_left; clear_value x; obtain ⟨x, y⟩ := x; dsimp -zeta only at hx ⊢; rotate_right; subst x)
    | (extract_lets +onlyGivenNames x; clear_value x)
    | split
    | apply KeepFst.mk
    | apply KeepFst.ite
    | apply Keep.drain
    | apply hreg
    | (refine KeepFst.of_eq ?_ (by assumption); first | apply Keep.drain | apply KeepFst.ite)
    | (apply KeepFst.fst; first | apply Keep.drain)
    | (refine Area.sub_trans (b := Touch.releaseHeld) ?_ har; decide)
    | intro _ _ _
    | intro _ _
    | (refine Keep.rec_comp ?_ ?_; rotate_left; first | assumption | apply Keep.drain | apply hreg | (refine KeepFst.of_eq ?_ (by assumption); first | apply Keep.drain | apply KeepFst.ite) | (apply KeepFst.fst; first | apply Keep.drain)))

def Touch.setDesc : Nat := 0x20000
theorem Keep.setDesc {i : Nat} {d : Desc}
    (har : Area.sub Touch.setDesc ar = true) (h : Keep ar s t) : Keep ar s (Machine.State.setDesc t i d) := by
  unfold Machine.State.setDesc
  repeat' (with_reducible first
    | assumption
    | (extract_lets +onlyGivenNames x; (apply Keep.cut x); rotate_left; intro _; clear_value x; rotate_right; subst x)
    | (extract_lets +onlyGivenNames x; clear_value x)
    | (refine Area.sub_trans (b := Touch.setDesc) ?_ har; decide)
    | (refine Keep.rec_comp ?_ ?_; rotate_left; first | assumption))

def Touch.commitTile : Nat := 0x420000
theorem Keep.commitTile {w : Written}
    (har : Area.sub Touch.commitTile ar = true) (h : Keep ar s t) : Keep ar s (Machine.State.commitTile t w) := by
  unfold Machine.State.commitTile
  repeat' (with_reducible first
    | assumption
    | (extract_lets +onlyGivenNames x; (apply Keep.cut x); rotate_left; intro _; clear_value x; rotate_right; subst x)
    | (extract_lets +onlyGivenNames x; clear_value x)
    | apply Keep.ite
    | apply Keep.writeBytes
    | apply Keep.setDesc
    | (refine Area.sub_trans (b := Touch.commitTile) ?_ har; decide)
    | split
    | intro _ _ _
    | intro _ _
    | (refine Keep.rec_comp ?_ ?_; rotate_left; first | assumption | apply Keep.writeBytes | apply Keep.setDesc | apply Keep.ite))

def Touch.statics : Nat := 0x200000000000000000000000000000000000020000
theorem Keep.statics
    (har : Area.sub Touch.statics ar = true) (h : Keep ar s t) : Keep ar s (Machine.State.statics t) := by
  unfold Machine.State.statics
  repeat' (with_reducible first
    | assumption
    | (extract_lets +onlyGivenNames x; (apply Keep.cut x); rotate_left; intro _; clear_value x; rotate_right; subst x)
    | (extract_lets +onlyGivenNames x; have hf : (∀ z, x z = x z) := fun _ => rfl; clear hf; subst x; try dsimp -zeta only)
    | (extract_lets +onlyGivenNames x; clear_value x)
    | apply Keep.ite
    | apply Keep.put
    | (refine Area.sub_trans (b := Touch.statics) ?_ har; decide)
    | (refine Area.fld_mono (a := Touch.statics) ?_ har; decide)
    | dsimp -zeta only
    | split
    | intro _ _ _
    | intro _ _
    | (refine Keep.rec_comp ?_ ?_; rotate_left; first | assumption | apply Keep.put | apply Keep.ite))

def Touch.surfaceTile : Nat := 0x800000000000000000000000000840000000000000000000000000000000000010020000
theorem Keep.surfaceTile {fresh : Bool} {k : Nat} {n : Nat} {touched : List (Nat × Nat × Nat)} {ptx : Nat} {pty : Nat}
    (har : Area.sub Touch.surfaceTile ar = true) (h : Keep ar s t) : Keep ar s (Machine.State.surfaceTile t fresh k n touched ptx pty) := by
  unfold Machine.State.surfaceTile
  repeat' (with_reducible first
    | assumption
    | (extract_lets +onlyGivenNames x; (apply Keep.cut x); rotate_left; intro _; clear_value x; rotate_right; subst x)
    | (extract_lets +onlyGivenNames x; clear_value x)
    | apply Keep.ite
    | apply Keep.put
    | apply Keep.raise
    | apply Keep.setDesc
    | (refine Area.sub_trans (b := Touch.surfaceTile) ?_ har; decide)
    | (refine Area.fld_mono (a := Touch.surfaceTile) ?_ har; decide)
    | split
    | intro _ _ _
    | intro _ _)

def Touch.surfaces : Nat := 0x800000000000000000000000000840000000000000000000000000000000000010020000
theorem Keep.surfaces {fresh : Bool}
    (har : Area.sub Touch.surfaces ar = true) (h : Keep ar s t) : Keep ar s (Machine.State.surfaces t fresh) := by
  unfold Machine.State.surfaces
  repeat' (with_reducible first
    | assumption
    | (extract_lets +onlyGivenNames x; (apply Keep.cut x); rotate_left; intro _; clear_value x; rotate_right; subst x)
    | (extract_lets +onlyGivenNames x; have hf : (∀ z, x z = x z) := fun _ => rfl; clear hf; subst x; try dsimp -zeta only)
    | (extract_lets +onlyGivenNames x; clear_value x)
    | apply Keep.ite
    | apply Keep.put
    | apply Keep.setDesc
    | apply Keep.surfaceTile
    | (refine Area.sub_trans (b := Touch.surfaces) ?_ har; decide)
    | (refine Area.fld_mono (a := Touch.surfaces) ?_ har; decide)
    | apply Keep.foldl
    | dsimp -zeta only
    | split
    | intro _ _ _
    | intro _ _
    | (refine Keep.rec_comp ?_ ?_; rotate_left; first | assumption | apply Keep.put | apply Keep.setDesc | apply Keep.surfaceTile | apply Keep.ite | apply Keep.foldl))

def Touch.countFree : Nat := 0x20000000000000000000000000000000000000000
theorem Keep.countFree
    (har : Area.sub Touch.countFree ar = true) (h : Keep ar s t) : Keep ar s (Machine.State.countFree t) := by
  unfold Machine.State.countFree
  repeat' (with_reducible first
    | assumption
    | apply Keep.put
    | (refine Area.sub_trans (b := Touch.countFree) ?_ har; decide)
    | (refine Area.fld_mono (a := Touch.countFree) ?_ har; decide)
    | intro _ _ _
    | intro _ _)

def Touch.returnTiles : Nat := 0x20000000000000000000000000000000000020000
theorem Keep.returnTiles
    (har : Area.sub Touch.returnTiles ar = true) (h : Keep ar s t) : Keep ar s (Machine.State.returnTiles t) := by
  unfold Machine.State.returnTiles
  repeat' (with_reducible first
    | assumption
    | (extract_lets +onlyGivenNames x; (apply Keep.cut x); rotate_left; intro _; clear_value x; rotate_right; subst x)
    | (extract_lets +onlyGivenNames x; have hf : (∀ z, x z = x z) := fun _ => rfl; clear hf; subst x; try dsimp -zeta only)
    | (extract_lets +onlyGivenNames x; clear_value x)
    | apply Keep.countFree
    | (refine Area.sub_trans (b := Touch.returnTiles) ?_ har; decide)
    | dsimp -zeta only
    | intro _ _ _
    | intro _ _
    | (refine Keep.rec_comp ?_ ?_; rotate_left; first | assumption | apply Keep.countFree))

def Touch.regionsBad : Nat := 0x40000000000000000000000000000000000000000000000
theorem Keep.regionsBad
    (har : Area.sub Touch.regionsBad ar = true) (h : Keep ar s t) : Keep ar s (Machine.State.regionsBad t) := by
  unfold Machine.State.regionsBad
  repeat' (with_reducible first
    | assumption
    | apply Keep.putB
    | (refine Area.sub_trans (b := Touch.regionsBad) ?_ har; decide)
    | (refine Area.fld_mono (a := Touch.regionsBad) ?_ har; decide)
    | apply Keep.foldl
    | intro _ _ _
    | intro _ _)

def Touch.endGroups : Nat := 0x800000000000000000000000000000000000020000
theorem Keep.endGroups {p : SinterGroup → Bool}
    (har : Area.sub Touch.endGroups ar = true) (h : Keep ar s t) : Keep ar s (Machine.State.endGroups t p) := by
  unfold Machine.State.endGroups
  repeat' (with_reducible first
    | assumption
    | (extract_lets +onlyGivenNames x; (apply Keep.cut x); rotate_left; intro _; clear_value x; rotate_right; subst x)
    | (extract_lets +onlyGivenNames x; have hf : (∀ z, x z = x z) := fun _ => rfl; clear hf; subst x; try dsimp -zeta only)
    | (extract_lets +onlyGivenNames x; clear_value x)
    | apply Keep.ite
    | apply Keep.bumpBy
    | (refine Area.sub_trans (b := Touch.endGroups) ?_ har; decide)
    | (refine Area.fld_mono (a := Touch.endGroups) ?_ har; decide)
    | dsimp -zeta only
    | split
    | intro _ _ _
    | intro _ _
    | (refine Keep.rec_comp ?_ ?_; rotate_left; first | assumption | apply Keep.bumpBy | apply Keep.ite))

def Touch.sinterRefs : Nat := 0x20000
theorem Keep.sinterRefs
    (har : Area.sub Touch.sinterRefs ar = true) (h : Keep ar s t) : Keep ar s (Machine.State.sinterRefs t) := by
  unfold Machine.State.sinterRefs
  repeat' (with_reducible first
    | assumption
    | (extract_lets +onlyGivenNames x; (apply Keep.cut x); rotate_left; intro _; clear_value x; rotate_right; subst x)
    | (extract_lets +onlyGivenNames x; have hf : (∀ z, x z = x z) := fun _ => rfl; clear hf; subst x; try dsimp -zeta only)
    | (extract_lets +onlyGivenNames x; clear_value x)
    | apply Keep.ite
    | (refine Area.sub_trans (b := Touch.sinterRefs) ?_ har; decide)
    | dsimp -zeta only
    | split
    | (refine Keep.rec_comp ?_ ?_; rotate_left; first | assumption | apply Keep.ite))

def Touch.compReady : Nat := 0x20000000000000000000000000000000000020200
theorem Keep.compReady
    (har : Area.sub Touch.compReady ar = true) (h : Keep ar s t) : Keep ar s (Machine.State.compReady t) := by
  unfold Machine.State.compReady
  repeat' (with_reducible first
    | assumption
    | (extract_lets +onlyGivenNames x; (apply Keep.cut x); rotate_left; intro _; clear_value x; rotate_right; subst x)
    | (extract_lets +onlyGivenNames x; clear_value x)
    | apply Keep.put
    | (refine Area.sub_trans (b := Touch.compReady) ?_ har; decide)
    | (refine Area.fld_mono (a := Touch.compReady) ?_ har; decide)
    | intro _ _ _
    | intro _ _
    | (refine Keep.rec_pseq_comp ?_ ?_; rotate_left; first | assumption | apply Keep.put))

def Touch.toneEff : Nat := 0x4000000000000000000000000000000000000000000
theorem Keep.toneEff
    (har : Area.sub Touch.toneEff ar = true) (h : Keep ar s t) : Keep ar s (Machine.State.toneEff t) := by
  unfold Machine.State.toneEff
  repeat' (with_reducible first
    | assumption
    | (extract_lets +onlyGivenNames x; (apply Keep.cut x); rotate_left; intro _; clear_value x; rotate_right; subst x)
    | (extract_lets +onlyGivenNames x; clear_value x)
    | apply Keep.ite
    | apply Keep.put
    | (refine Area.sub_trans (b := Touch.toneEff) ?_ har; decide)
    | (refine Area.fld_mono (a := Touch.toneEff) ?_ har; decide)
    | split
    | intro _ _ _
    | intro _ _)

def Touch.ovlyStat : Nat := 0x800000000000000000000000000840000000000000000000000000000000000010020000
theorem Keep.ovlyStat {n : Nat}
    (har : Area.sub Touch.ovlyStat ar = true) (h : Keep ar s t) : Keep ar s (Machine.State.ovlyStat t n) := by
  unfold Machine.State.ovlyStat
  repeat' (with_reducible first
    | assumption
    | (extract_lets +onlyGivenNames x; (apply Keep.cut x); rotate_left; intro _; clear_value x; rotate_right; subst x)
    | (extract_lets +onlyGivenNames x; clear_value x)
    | apply Keep.ite
    | apply Keep.put
    | apply Keep.raiseIf
    | (refine Area.sub_trans (b := Touch.ovlyStat) ?_ har; decide)
    | (refine Area.fld_mono (a := Touch.ovlyStat) ?_ har; decide)
    | split
    | intro _ _ _
    | intro _ _
    | (refine Keep.rec_comp ?_ ?_; rotate_left; first | assumption | apply Keep.put | apply Keep.raiseIf | apply Keep.ite))

def Touch.sinterStat : Nat := 0x400000000000000000000000000000000000000000
theorem Keep.sinterStat
    (har : Area.sub Touch.sinterStat ar = true) (h : Keep ar s t) : Keep ar s (Machine.State.sinterStat t) := by
  unfold Machine.State.sinterStat
  repeat' (with_reducible first
    | assumption
    | apply Keep.put
    | (refine Area.sub_trans (b := Touch.sinterStat) ?_ har; decide)
    | (refine Area.fld_mono (a := Touch.sinterStat) ?_ har; decide)
    | intro _ _ _
    | intro _ _)

def Touch.expandJob : Nat := 0x100000
theorem Keep.expandJob {size : Nat} {tiles : Nat}
    (har : Area.sub Touch.expandJob ar = true) (h : Keep ar s t) : Keep ar s (Machine.State.expandJob t size tiles) := by
  unfold Machine.State.expandJob
  repeat' (with_reducible first
    | assumption
    | apply Keep.innerJob
    | (refine Area.sub_trans (b := Touch.expandJob) ?_ har; decide)
    | intro _ _ _
    | intro _ _)

def Touch.takeTile : Nat := 0x20000000000000000000000000000000000020000
theorem Keep.takeTile {i : Nat}
    (har : Area.sub Touch.takeTile ar = true) (h : Keep ar s t) : Keep ar s (Machine.State.takeTile t i) := by
  unfold Machine.State.takeTile
  repeat' (with_reducible first
    | assumption
    | (extract_lets +onlyGivenNames x; (apply Keep.cut x); rotate_left; intro _; clear_value x; rotate_right; subst x)
    | (extract_lets +onlyGivenNames x; clear_value x)
    | apply Keep.countFree
    | (refine Area.sub_trans (b := Touch.takeTile) ?_ har; decide)
    | intro _ _ _
    | intro _ _
    | (refine Keep.rec_comp ?_ ?_; rotate_left; first | assumption | apply Keep.countFree))

def Touch.expand : Nat := 0x20000000000000000000000000000000000420000
theorem Keep.expand {g : SinterGroup} {a2 : List (Int × Int)} {a3 : List (Nat × Nat)}
    (har : Area.sub Touch.expand ar = true) (h : Keep ar s t) : KeepFst ar s (Machine.State.expand t g a2 a3) := by
  induction a2 generalizing t a3 with
  | nil => exact h
  | cons i l ih =>
    unfold Machine.State.expand
    split
    · exact ih (Keep.writeBytes (Area.sub_trans (b := Touch.expand) (by decide) har) (Keep.takeTile (Area.sub_trans (b := Touch.expand) (by decide) har) h))
    · exact h

def Touch.expandAgain : Nat := 0x20000000000000000000000000000000000520000
theorem Keep.expandAgain
    (har : Area.sub Touch.expandAgain ar = true) (h : Keep ar s t) : Keep ar s (Machine.State.expandAgain t) := by
  unfold Machine.State.expandAgain
  repeat' (with_reducible first
    | assumption
    | (extract_lets +onlyGivenNames x; (apply Keep.cut x); rotate_left; intro _; clear_value x; rotate_right; subst x)
    | (extract_lets +onlyGivenNames x; refine KeepFst.cut (m := ar) (s := s) x ?_ (fun hx => ?_); rotate_left; clear_value x; obtain ⟨x, y⟩ := x; dsimp -zeta only at hx ⊢; rotate_right; subst x)
    | (extract_lets +onlyGivenNames x; have hf : (∀ z, x z = x z) := fun _ => rfl; clear hf; subst x; try dsimp -zeta only)
    | (extract_lets +onlyGivenNames x; clear_value x)
    | apply Keep.ite
    | split
    | apply KeepFst.mk
    | apply KeepFst.ite
    | apply Keep.expandJob
    | apply Keep.expand
    | (refine KeepFst.of_eq ?_ (by assumption); first | apply Keep.expand | apply KeepFst.ite)
    | (apply KeepFst.fst; first | apply Keep.expand)
    | (refine Area.sub_trans (b := Touch.expandAgain) ?_ har; decide)
    | dsimp -zeta only
    | intro _ _ _
    | intro _ _
    | (refine Keep.rec_comp ?_ ?_; rotate_left; first | assumption | apply Keep.expandJob | apply Keep.expand | (refine KeepFst.of_eq ?_ (by assumption); first | apply Keep.expand | apply KeepFst.ite) | (apply KeepFst.fst; first | apply Keep.expand) | apply Keep.ite))

def Touch.useGroups : Nat := 0xC20000000000000000000000000000000000520000
theorem Keep.useGroups
    (har : Area.sub Touch.useGroups ar = true) (h : Keep ar s t) : Keep ar s (Machine.State.useGroups t) := by
  unfold Machine.State.useGroups
  repeat' (with_reducible first
    | assumption
    | (extract_lets +onlyGivenNames x; (apply Keep.cut x); rotate_left; intro _; clear_value x; rotate_right; subst x)
    | (extract_lets +onlyGivenNames x; have hf : (∀ z, x z = x z) := fun _ => rfl; clear hf; subst x; try dsimp -zeta only)
    | (extract_lets +onlyGivenNames x; clear_value x)
    | apply Keep.bumpBy
    | apply Keep.sinterRefs
    | apply Keep.sinterStat
    | apply Keep.expandAgain
    | (refine Area.sub_trans (b := Touch.useGroups) ?_ har; decide)
    | (refine Area.fld_mono (a := Touch.useGroups) ?_ har; decide)
    | dsimp -zeta only
    | intro _ _ _
    | intro _ _
    | (refine Keep.rec_comp ?_ ?_; rotate_left; first | assumption | apply Keep.bumpBy | apply Keep.sinterRefs | apply Keep.sinterStat | apply Keep.expandAgain))

def Touch.safeCommit : Nat := 0x280000800000000000000000000000000810000000000000000000000000000000000018020020
theorem Keep.safeCommit
    (har : Area.sub Touch.safeCommit ar = true) (h : Keep ar s t) : Keep ar s (Machine.State.safeCommit t) := by
  have sub {b : Nat} (hb : Area.sub b Touch.safeCommit = true) : Area.sub b ar = true := Area.sub_trans hb har
  have fld {f : Fld} (hf : Area.fld Touch.safeCommit f = true) : Area.fld ar f = true := Area.fld_mono hf har
  unfold Machine.State.safeCommit
  extract_lets src1 src2 s1 ripe region forced src3 s2
  have h1 : Keep ar s s1 := Keep.ite (Keep.rec_comp (sub (by decide)) ((h.put (fld (by decide))).put (fld (by decide)))) h
  have h2 : Keep ar s s2 := Keep.rec_comp (sub (by decide)) h1
  exact Keep.ite (Keep.ite h2 (Keep.ite
    (Keep.recIrq (sub (by decide)) (Keep.raise (fld (by decide)) (sub (by decide))
      ((((h2.put (fld (by decide))).putB (fld (by decide))).put (fld (by decide))).bump (fld (by decide)))))
    (Keep.recOther (sub (by decide)) h2))) h1

def Touch.completeAll : Nat := 0x280000800000000000000000000000000D02000000000000000000000000000000000018620120
theorem Keep.completeAll {reg : State → HeldWrite → State} (hreg : ∀ (z0 : Machine.State) (z1 : HeldWrite), Keep ar s z0 → Keep ar s (reg z0 z1))
    (har : Area.sub Touch.completeAll ar = true) (h : Keep ar s t) : Keep ar s (Machine.State.completeAll t reg) := by
  unfold Machine.State.completeAll
  repeat' (with_reducible first
    | assumption
    | apply Keep.ite
    | apply Keep.put
    | apply Keep.releaseHeld
    | apply hreg
    | (refine Area.sub_trans (b := Touch.completeAll) ?_ har; decide)
    | (refine Area.fld_mono (a := Touch.completeAll) ?_ har; decide)
    | apply Keep.foldl
    | split
    | intro _ _ _
    | intro _ _)

def Touch.dropWritten : Nat := 0x20000000000000000000000000000000000020000
theorem Keep.dropWritten {frame : Nat}
    (har : Area.sub Touch.dropWritten ar = true) (h : Keep ar s t) : Keep ar s (Machine.State.dropWritten t frame) := by
  unfold Machine.State.dropWritten
  repeat' (with_reducible first
    | assumption
    | (extract_lets +onlyGivenNames x; (apply Keep.cut x); rotate_left; intro _; clear_value x; rotate_right; subst x)
    | (extract_lets +onlyGivenNames x; have hf : (∀ z, x z = x z) := fun _ => rfl; clear hf; subst x; try dsimp -zeta only)
    | (extract_lets +onlyGivenNames x; clear_value x)
    | apply Keep.countFree
    | (refine Area.sub_trans (b := Touch.dropWritten) ?_ har; decide)
    | dsimp -zeta only
    | intro _ _ _
    | intro _ _
    | (refine Keep.rec_comp ?_ ?_; rotate_left; first | assumption | apply Keep.countFree))

def Touch.freeExpansion : Nat := 0x20000000000000000000000000000000000020000
theorem Keep.freeExpansion
    (har : Area.sub Touch.freeExpansion ar = true) (h : Keep ar s t) : KeepFst ar s (Machine.State.freeExpansion t) := by
  unfold Machine.State.freeExpansion
  repeat' (with_reducible first
    | assumption
    | apply KeepFst.mk
    | apply KeepFst.ite
    | (extract_lets +onlyGivenNames x; (first | apply KeepFst.cut1 x | apply Keep.cut x); rotate_left; intro _; clear_value x; rotate_right; subst x)
    | (extract_lets +onlyGivenNames x; have hf : (∀ z, x z = x z) := fun _ => rfl; clear hf; subst x; try dsimp -zeta only)
    | (extract_lets +onlyGivenNames x; clear_value x)
    | apply Keep.ite
    | apply Keep.countFree
    | (refine Area.sub_trans (b := Touch.freeExpansion) ?_ har; decide)
    | dsimp -zeta only
    | split
    | intro _ _ _
    | intro _ _
    | (refine Keep.rec_comp ?_ ?_; rotate_left; first | assumption | apply Keep.countFree | apply Keep.ite))

def Touch.freshTile : Nat := 0x800000000000000000000000000800060000000000000000000000000000000010020000
theorem Keep.freshTile
    (har : Area.sub Touch.freshTile ar = true) (h : Keep ar s t) : KeepFst ar s (Machine.State.freshTile t) := by
  unfold Machine.State.freshTile
  repeat' (with_reducible first
    | assumption
    | (extract_lets +onlyGivenNames x; (first | apply KeepFst.cut1 x | apply Keep.cut x); rotate_left; intro _; clear_value x; rotate_right; subst x)
    | (extract_lets +onlyGivenNames x; refine KeepFst.cut (m := ar) (s := s) x ?_ (fun hx => ?_); rotate_left; clear_value x; obtain ⟨x, y⟩ := x; dsimp -zeta only at hx ⊢; rotate_right; subst x)
    | (extract_lets +onlyGivenNames x; clear_value x)
    | split
    | apply KeepFst.mk
    | apply KeepFst.ite
    | apply Keep.bump
    | apply Keep.raise
    | apply Keep.takeTile
    | apply Keep.freeExpansion
    | (refine KeepFst.of_eq ?_ (by assumption); first | apply Keep.freeExpansion | apply KeepFst.ite)
    | (apply KeepFst.fst; first | apply Keep.freeExpansion)
    | (refine Area.sub_trans (b := Touch.freshTile) ?_ har; decide)
    | (refine Area.fld_mono (a := Touch.freshTile) ?_ har; decide)
    | intro _ _ _
    | intro _ _)

def Touch.putWritten : Nat := 0x20000
theorem Keep.putWritten {w : Written}
    (har : Area.sub Touch.putWritten ar = true) (h : Keep ar s t) : Keep ar s (Machine.State.putWritten t w) := by
  unfold Machine.State.putWritten
  repeat' (with_reducible first
    | assumption
    | (extract_lets +onlyGivenNames x; (apply Keep.cut x); rotate_left; intro _; clear_value x; rotate_right; subst x)
    | (extract_lets +onlyGivenNames x; have hf : (∀ z, x z = x z) := fun _ => rfl; clear hf; subst x; try dsimp -zeta only)
    | (extract_lets +onlyGivenNames x; clear_value x)
    | (refine Area.sub_trans (b := Touch.putWritten) ?_ har; decide)
    | dsimp -zeta only
    | (refine Keep.rec_comp ?_ ?_; rotate_left; first | assumption))

def Touch.tileWrite : Nat := 0x800000000000000000000000000800060000000000000000000000000000000010020000
theorem Keep.tileWrite {frame : Nat} {idx : Nat} {order : Nat} {alpha : Bool} {vals : List Nat} {hint : Option Bool}
    (har : Area.sub Touch.tileWrite ar = true) (h : Keep ar s t) : Keep ar s (Machine.State.tileWrite t frame idx order alpha vals hint) := by
  unfold Machine.State.tileWrite
  repeat' (with_reducible first
    | assumption
    | (extract_lets +onlyGivenNames x; (apply Keep.cut x); rotate_left; intro _; clear_value x; rotate_right; subst x)
    | (extract_lets +onlyGivenNames x; refine KeepFst.cut (m := ar) (s := s) x ?_ (fun hx => ?_); rotate_left; clear_value x; obtain ⟨x, y⟩ := x; dsimp -zeta only at hx ⊢; rotate_right; subst x)
    | (extract_lets +onlyGivenNames x; have hf : (∀ z, x z = x z) := fun _ => rfl; clear hf; subst x; try dsimp -zeta only)
    | (extract_lets +onlyGivenNames x; clear_value x)
    | apply Keep.ite
    | split
    | apply KeepFst.mk
    | apply KeepFst.ite
    | apply Keep.freshTile
    | apply Keep.putWritten
    | (refine KeepFst.of_eq ?_ (by assumption); first | apply Keep.freshTile | apply KeepFst.ite)
    | (apply KeepFst.fst; first | apply Keep.freshTile)
    | (refine Area.sub_trans (b := Touch.tileWrite) ?_ har; decide)
    | dsimp -zeta only
    | intro _ _ _
    | intro _ _)

def Touch.dropGroup : Nat := 0x20000
theorem Keep.dropGroup {ref : Nat}
    (har : Area.sub Touch.dropGroup ar = true) (h : Keep ar s t) : Keep ar s (Machine.State.dropGroup t ref) := by
  unfold Machine.State.dropGroup
  repeat' (with_reducible first
    | assumption
    | (extract_lets +onlyGivenNames x; (apply Keep.cut x); rotate_left; intro _; clear_value x; rotate_right; subst x)
    | (extract_lets +onlyGivenNames x; have hf : (∀ z, x z = x z) := fun _ => rfl; clear hf; subst x; try dsimp -zeta only)
    | (extract_lets +onlyGivenNames x; clear_value x)
    | (refine Area.sub_trans (b := Touch.dropGroup) ?_ har; decide)
    | dsimp -zeta only
    | (refine Keep.rec_comp ?_ ?_; rotate_left; first | assumption))

def Touch.dropReads : Nat := 0x20000
theorem Keep.dropReads
    (har : Area.sub Touch.dropReads ar = true) (h : Keep ar s t) : Keep ar s (Machine.State.dropReads t) := by
  unfold Machine.State.dropReads
  repeat' (with_reducible first
    | assumption
    | (extract_lets +onlyGivenNames x; (apply Keep.cut x); rotate_left; intro _; clear_value x; rotate_right; subst x)
    | (extract_lets +onlyGivenNames x; have hf : (∀ z, x z = x z) := fun _ => rfl; clear hf; subst x; try dsimp -zeta only)
    | (extract_lets +onlyGivenNames x; clear_value x)
    | (refine Area.sub_trans (b := Touch.dropReads) ?_ har; decide)
    | dsimp -zeta only
    | split
    | (refine Keep.rec_comp ?_ ?_; rotate_left; first | assumption))

def Touch.guardExpiry : Nat := 0x280000800000000000000000000000000C02000000000000000000000000000000000018620120
theorem Keep.guardExpiry {reg : State → HeldWrite → State} (hreg : ∀ (z0 : Machine.State) (z1 : HeldWrite), Keep ar s z0 → Keep ar s (reg z0 z1))
    (har : Area.sub Touch.guardExpiry ar = true) (h : Keep ar s t) : Keep ar s (Machine.State.guardExpiry t reg) := by
  unfold Machine.State.guardExpiry
  repeat' (with_reducible first
    | assumption
    | (extract_lets +onlyGivenNames x; (apply Keep.cut x); rotate_left; intro _; clear_value x; rotate_right; subst x)
    | (extract_lets +onlyGivenNames x; have hf : (∀ z, x z = x z) := fun _ => rfl; clear hf; subst x; try dsimp -zeta only)
    | (extract_lets +onlyGivenNames x; clear_value x)
    | apply Keep.ite
    | apply Keep.bump
    | apply Keep.raise
    | apply Keep.completeItem
    | apply Keep.releaseHeld
    | apply hreg
    | (refine Area.sub_trans (b := Touch.guardExpiry) ?_ har; decide)
    | (refine Area.fld_mono (a := Touch.guardExpiry) ?_ har; decide)
    | dsimp -zeta only
    | split
    | intro _ _ _
    | intro _ _
    | (refine Keep.rec_comp ?_ ?_; rotate_left; first | assumption | apply Keep.bump | apply Keep.raise | apply Keep.completeItem | apply Keep.releaseHeld | apply hreg | apply Keep.ite))

def Touch.setRun : Nat := 0x20000
theorem Keep.setRun {r : Nat} {n : Nat}
    (har : Area.sub Touch.setRun ar = true) (h : Keep ar s t) : Keep ar s (Machine.State.setRun t r n) := by
  unfold Machine.State.setRun
  repeat' (with_reducible first
    | assumption
    | (extract_lets +onlyGivenNames x; (apply Keep.cut x); rotate_left; intro _; clear_value x; rotate_right; subst x)
    | (extract_lets +onlyGivenNames x; clear_value x)
    | (refine Area.sub_trans (b := Touch.setRun) ?_ har; decide)
    | (refine Keep.rec_comp ?_ ?_; rotate_left; first | assumption))

def Touch.sigMismatch : Nat := 0x280000800000000000000000000000041800000000000000000000000000000000000018020020
theorem Keep.sigMismatch {r : Nat}
    (har : Area.sub Touch.sigMismatch ar = true) (h : Keep ar s t) : Keep ar s (Machine.State.sigMismatch t r) := by
  unfold Machine.State.sigMismatch
  repeat' (with_reducible first
    | assumption
    | (extract_lets +onlyGivenNames x; (apply Keep.cut x); rotate_left; intro _; clear_value x; rotate_right; subst x)
    | (extract_lets +onlyGivenNames x; clear_value x)
    | apply Keep.ite
    | apply Keep.put
    | apply Keep.bump
    | apply Keep.raise
    | apply Keep.recIrq
    | apply Keep.recOther
    | apply Keep.setRun
    | (refine Area.sub_trans (b := Touch.sigMismatch) ?_ har; decide)
    | (refine Area.fld_mono (a := Touch.sigMismatch) ?_ har; decide)
    | split
    | intro _ _ _
    | intro _ _
    | (refine Keep.rec_comp ?_ ?_; rotate_left; first | assumption | apply Keep.put | apply Keep.bump | apply Keep.raise | apply Keep.recIrq | apply Keep.recOther | apply Keep.setRun | apply Keep.ite))

def Touch.execSignatureCheck : Nat := 0x280000800000000000000000000000071800000000000000000000000000000000000018020021
theorem Keep.execSignatureCheck {r : Nat}
    (har : Area.sub Touch.execSignatureCheck ar = true) (h : Keep ar s t) : KeepO ar s (Machine.execSignatureCheck r t) := by
  unfold Machine.execSignatureCheck
  repeat' (with_reducible first
    | assumption
    | apply KeepO.next
    | apply KeepO.ite
    | (extract_lets +onlyGivenNames x; (first | apply KeepO.cut x | apply Keep.cut x); rotate_left; intro _; clear_value x; rotate_right; subst x)
    | (extract_lets +onlyGivenNames x; have hf : (∀ z, x z = x z) := fun _ => rfl; clear hf; subst x; try dsimp -zeta only)
    | (extract_lets +onlyGivenNames x; clear_value x)
    | apply Keep.ite
    | apply Keep.put
    | apply Keep.bump
    | apply Keep.putStaged
    | apply Keep.setRun
    | apply Keep.sigMismatch
    | (refine Area.sub_trans (b := Touch.execSignatureCheck) ?_ har; decide)
    | (refine Area.fld_mono (a := Touch.execSignatureCheck) ?_ har; decide)
    | dsimp -zeta only
    | split
    | intro _ _ _
    | intro _ _
    | (refine Keep.rec_comp ?_ ?_; rotate_left; first | assumption | apply Keep.put | apply Keep.bump | apply Keep.putStaged | apply Keep.setRun | apply Keep.sigMismatch | apply Keep.ite))

def Touch.execGuardedWrite : Nat := 0x280000800030000000000000000000000C02000000000000000000000000000000000018620120
theorem Keep.execGuardedWrite {blt : Bool} {a : Nat} {bytes : List Sys2Proof.Byte}
    (har : Area.sub Touch.execGuardedWrite ar = true) (h : Keep ar s t) : KeepO ar s (Machine.execGuardedWrite blt a bytes t) := by
  unfold Machine.execGuardedWrite
  repeat' (with_reducible first
    | assumption
    | apply KeepO.next
    | apply KeepO.ite
    | apply Keep.guardedWrite
    | (refine Area.sub_trans (b := Touch.execGuardedWrite) ?_ har; decide)
    | intro _ _ _
    | intro _ _)

def Touch.execSinterFlattenStart : Nat := 0x120000
theorem Keep.execSinterFlattenStart {region : Nat} {k0 : Nat} {k1 : Nat}
    (har : Area.sub Touch.execSinterFlattenStart ar = true) (h : Keep ar s t) : KeepO ar s (Machine.execSinterFlattenStart region k0 k1 t) := by
  unfold Machine.execSinterFlattenStart
  repeat' (with_reducible first
    | assumption
    | apply KeepO.next
    | apply KeepO.ite
    | (extract_lets +onlyGivenNames x; (first | apply KeepO.cut x | apply Keep.cut x); rotate_left; intro _; clear_value x; rotate_right; subst x)
    | (extract_lets +onlyGivenNames x; clear_value x)
    | apply Keep.ite
    | apply Keep.innerJob
    | (refine Area.sub_trans (b := Touch.execSinterFlattenStart) ?_ har; decide)
    | split
    | intro _ _ _
    | intro _ _
    | (refine Keep.rec_comp ?_ ?_; rotate_left; first | assumption | apply Keep.innerJob | apply Keep.ite))

def Touch.execSafeForce : Nat := 0x280000800030000000000000000000000000000000000000000000000000000000000010020120
theorem Keep.execSafeForce {r : Sys2Proof.Req}
    (har : Area.sub Touch.execSafeForce ar = true) (h : Keep ar s t) : KeepO ar s (Machine.execSafeForce r t) := by
  unfold Machine.execSafeForce
  repeat' (with_reducible first
    | assumption
    | apply KeepO.next
    | apply KeepO.ite
    | apply Keep.mirrored
    | apply Keep.safeCtrl
    | (refine Area.sub_trans (b := Touch.execSafeForce) ?_ har; decide)
    | intro _ _ _
    | intro _ _)

def Touch.execSafeRelease : Nat := 0x280000800030000000000000000000000000000000000000000000000000000000000010020120
theorem Keep.execSafeRelease {r : Sys2Proof.Req}
    (har : Area.sub Touch.execSafeRelease ar = true) (h : Keep ar s t) : KeepO ar s (Machine.execSafeRelease r t) := by
  unfold Machine.execSafeRelease
  repeat' (with_reducible first
    | assumption
    | apply KeepO.next
    | apply KeepO.ite
    | apply Keep.mirrored
    | apply Keep.safeCtrl
    | (refine Area.sub_trans (b := Touch.execSafeRelease) ?_ har; decide)
    | intro _ _ _
    | intro _ _)

def Touch.execSinterFlattenDone : Nat := 0x800000000000000000000000000800420400000000000000000000000000000010520000
theorem Keep.execSinterFlattenDone {ref : Nat} {ok : Bool}
    (har : Area.sub Touch.execSinterFlattenDone ar = true) (h : Keep ar s t) : KeepO ar s (Machine.execSinterFlattenDone ref ok t) := by
  unfold Machine.execSinterFlattenDone
  repeat' (with_reducible first
    | assumption
    | (extract_lets +onlyGivenNames x; (first | apply KeepO.cut x | apply Keep.cut x); rotate_left; intro _; clear_value x; rotate_right; subst x)
    | (extract_lets +onlyGivenNames x; refine KeepFst.cut (m := ar) (s := s) x ?_ (fun hx => ?_); rotate_left; clear_value x; obtain ⟨x, y⟩ := x; dsimp -zeta only at hx ⊢; rotate_right; subst x)
    | (extract_lets +onlyGivenNames x; have hf : (∀ z, x z = x z) := fun _ => rfl; clear hf; subst x; try dsimp -zeta only)
    | (extract_lets +onlyGivenNames x; clear_value x)
    | apply KeepO.ite
    | apply Keep.ite
    | split
    | apply KeepO.next
    | apply KeepFst.mk
    | apply KeepFst.ite
    | apply Keep.raise
    | apply Keep.sinterStat
    | apply Keep.expandJob
    | apply Keep.expand
    | apply Keep.dropGroup
    | (refine KeepFst.of_eq ?_ (by assumption); first | apply Keep.expand | apply KeepFst.ite)
    | (apply KeepFst.fst; first | apply Keep.expand)
    | (refine Area.sub_trans (b := Touch.execSinterFlattenDone) ?_ har; decide)
    | (refine Area.fld_mono (a := Touch.execSinterFlattenDone) ?_ har; decide)
    | dsimp -zeta only
    | intro _ _ _
    | intro _ _
    | (refine Keep.rec_comp ?_ ?_; rotate_left; first | assumption | apply Keep.raise | apply Keep.sinterStat | apply Keep.expandJob | apply Keep.expand | apply Keep.dropGroup | (refine KeepFst.of_eq ?_ (by assumption); first | apply Keep.expand | apply KeepFst.ite) | (apply KeepFst.fst; first | apply Keep.expand) | apply Keep.ite))

def Touch.execCalIndexWrite : Nat := 0x180000000000000000000000000000000000000000
theorem Keep.execCalIndexWrite {a0 : Sys2Proof.Req} {data : Nat}
    (har : Area.sub Touch.execCalIndexWrite ar = true) (h : Keep ar s t) : KeepO ar s (Machine.execCalIndexWrite a0 data t) := by
  unfold Machine.execCalIndexWrite
  repeat' (with_reducible first
    | assumption
    | apply KeepO.next
    | apply KeepO.ite
    | apply Keep.calIndexWrite
    | (refine Area.sub_trans (b := Touch.execCalIndexWrite) ?_ har; decide)
    | intro _ _ _
    | intro _ _)

def Touch.execBufRegister : Nat := 0x280000800030000000000000000000000B80000000000000000000000000000000000018000120
theorem Keep.execBufRegister {r : Sys2Proof.Req} {b : Nat} {data : Nat}
    (har : Area.sub Touch.execBufRegister ar = true) (h : Keep ar s t) : KeepO ar s (Machine.execBufRegister r b data t) := by
  unfold Machine.execBufRegister
  repeat' (with_reducible first
    | assumption
    | apply KeepO.next
    | apply KeepO.ite
    | apply Keep.ite
    | apply Keep.bufFmt
    | apply Keep.mirrored
    | (refine Area.sub_trans (b := Touch.execBufRegister) ?_ har; decide)
    | split
    | intro _ _ _
    | intro _ _)

def Touch.execReadyTimeout : Nat := 0x280000800000000000000000000000000000000000000000000000000000000000000018020220
theorem Keep.execReadyTimeout
    (har : Area.sub Touch.execReadyTimeout ar = true) (h : Keep ar s t) : KeepO ar s (Machine.execReadyTimeout t) := by
  unfold Machine.execReadyTimeout
  repeat' (with_reducible first
    | assumption
    | apply KeepO.next
    | apply KeepO.ite
    | (extract_lets +onlyGivenNames x; (first | apply KeepO.cut x | apply Keep.cut x); rotate_left; intro _; clear_value x; rotate_right; subst x)
    | (extract_lets +onlyGivenNames x; clear_value x)
    | apply Keep.ite
    | apply Keep.recOther
    | (refine Area.sub_trans (b := Touch.execReadyTimeout) ?_ har; decide)
    | split
    | intro _ _ _
    | intro _ _
    | (refine Keep.rec_pseq_comp ?_ ?_; rotate_left; first | assumption | apply Keep.recOther | apply Keep.ite))

def Touch.execSigLearn : Nat := 0x280000800030000000000000000000000000000000000000000000000000000000000010020120
theorem Keep.execSigLearn {r : Sys2Proof.Req} {i : Nat}
    (har : Area.sub Touch.execSigLearn ar = true) (h : Keep ar s t) : KeepO ar s (Machine.execSigLearn r i t) := by
  unfold Machine.execSigLearn
  repeat' (with_reducible first
    | assumption
    | apply KeepO.next
    | apply KeepO.ite
    | apply Keep.ite
    | apply Keep.mirrored
    | apply Keep.sigCtrl
    | (refine Area.sub_trans (b := Touch.execSigLearn) ?_ har; decide)
    | split
    | intro _ _ _
    | intro _ _)

end Sys2Proof
end

