-- ==== Sys2Proof/Laws/KeepBlt.lean ====
section
/-!
SUPPORT. The operations and meanings of Machine/Blt.lean keep what `Keep` says.
-/

namespace Sys2Proof

open Sys2Proof.Machine

variable {ar : Nat} {s t u : Machine.State}

def Touch.wmPass : Nat := 0x80000000000000000000000E000000000000000000000000000000000000000010200000
theorem Keep.wmPass {sf : Nat} {band : Nat} {last : Bool}
    (har : Area.sub Touch.wmPass ar = true) (h : Keep ar s t) : Keep ar s (Machine.State.wmPass t sf band last) := by
  unfold Machine.State.wmPass
  repeat' (with_reducible first
    | assumption
    | (extract_lets +onlyGivenNames x; (apply Keep.cut x); rotate_left; intro _; clear_value x; rotate_right; subst x)
    | (extract_lets +onlyGivenNames x; have hf : (∀ z, x z = x z) := fun _ => rfl; clear hf; subst x; try dsimp -zeta only)
    | (extract_lets +onlyGivenNames x; clear_value x)
    | apply Keep.ite
    | apply Keep.put
    | apply Keep.bump
    | apply Keep.raise
    | (refine Area.sub_trans (b := Touch.wmPass) ?_ har; decide)
    | (refine Area.fld_mono (a := Touch.wmPass) ?_ har; decide)
    | apply Keep.foldl
    | dsimp -zeta only
    | split
    | intro _ _ _
    | intro _ _
    | (refine Keep.rec_blt ?_ ?_; rotate_left; first | assumption | apply Keep.put | apply Keep.bump | apply Keep.raise | apply Keep.ite | apply Keep.foldl))

def Touch.bltCore : Nat := 0x400000000000000000000000000000000000000000200000
theorem Keep.bltCore
    (har : Area.sub Touch.bltCore ar = true) (h : Keep ar s t) : Keep ar s (Machine.State.bltCore t) := by
  unfold Machine.State.bltCore
  repeat' (with_reducible first
    | assumption
    | (extract_lets +onlyGivenNames x; (apply Keep.cut x); rotate_left; intro _; clear_value x; rotate_right; subst x)
    | (extract_lets +onlyGivenNames x; clear_value x)
    | apply Keep.put
    | (refine Area.sub_trans (b := Touch.bltCore) ?_ har; decide)
    | (refine Area.fld_mono (a := Touch.bltCore) ?_ har; decide)
    | intro _ _ _
    | intro _ _
    | (refine Keep.rec_blt ?_ ?_; rotate_left; first | assumption | apply Keep.put))

def Touch.cueEnded : Nat := 0x300000000000000000000000000000000000000200000
theorem Keep.cueEnded {cue : Option (Nat × Nat × Bool)}
    (har : Area.sub Touch.cueEnded ar = true) (h : Keep ar s t) : Keep ar s (Machine.State.cueEnded t cue) := by
  unfold Machine.State.cueEnded
  repeat' (with_reducible first
    | assumption
    | (extract_lets +onlyGivenNames x; (apply Keep.cut x); rotate_left; intro _; clear_value x; rotate_right; subst x)
    | (extract_lets +onlyGivenNames x; have hf : (∀ z, x z = x z) := fun _ => rfl; clear hf; subst x; try dsimp -zeta only)
    | (extract_lets +onlyGivenNames x; clear_value x)
    | apply Keep.bufStates
    | (refine Area.sub_trans (b := Touch.cueEnded) ?_ har; decide)
    | dsimp -zeta only
    | split
    | intro _ _ _
    | intro _ _
    | (refine Keep.rec_blt ?_ ?_; rotate_left; first | assumption | apply Keep.bufStates))

def Touch.bltEnd : Nat := 0x800000000000000000000009800000000000000000000000000000000000000010600000
theorem Keep.bltEnd {c : BltCmd} {err : Nat}
    (har : Area.sub Touch.bltEnd ar = true) (h : Keep ar s t) : Keep ar s (Machine.State.bltEnd t c err) := by
  unfold Machine.State.bltEnd
  repeat' (with_reducible first
    | assumption
    | (extract_lets +onlyGivenNames x; (apply Keep.cut x); rotate_left; intro _; clear_value x; rotate_right; subst x)
    | (extract_lets +onlyGivenNames x; clear_value x)
    | apply Keep.ite
    | apply Keep.put
    | apply Keep.putB
    | apply Keep.bump
    | apply Keep.raise
    | apply Keep.raiseIf
    | apply Keep.writeBytes
    | (refine Area.sub_trans (b := Touch.bltEnd) ?_ har; decide)
    | (refine Area.fld_mono (a := Touch.bltEnd) ?_ har; decide)
    | split
    | intro _ _ _
    | intro _ _
    | (refine Keep.rec_blt ?_ ?_; rotate_left; first | assumption | apply Keep.put | apply Keep.putB | apply Keep.bump | apply Keep.raise | apply Keep.raiseIf | apply Keep.writeBytes | apply Keep.ite))

def Touch.bltCtrl : Nat := 0x280000800000000000000000000009800300000000000000000000000000000000000010620020
theorem Keep.bltCtrl {r : Sys2Proof.Req} {data : Nat}
    (har : Area.sub Touch.bltCtrl ar = true) (h : Keep ar s t) : Keep ar s (Machine.State.bltCtrl t r data) := by
  unfold Machine.State.bltCtrl
  repeat' (with_reducible first
    | assumption
    | (extract_lets +onlyGivenNames x; (apply Keep.cut x); rotate_left; intro _; clear_value x; rotate_right; subst x)
    | (extract_lets +onlyGivenNames x; have hf : (∀ z, x z = x z) := fun _ => rfl; clear hf; subst x; try dsimp -zeta only)
    | (extract_lets +onlyGivenNames x; clear_value x)
    | apply Keep.ite
    | apply Keep.cueEnded
    | apply Keep.ignored
    | apply Keep.bltEnd
    | (refine Area.sub_trans (b := Touch.bltCtrl) ?_ har; decide)
    | apply Keep.foldl
    | dsimp -zeta only
    | split
    | intro _ _ _
    | intro _ _
    | (refine Keep.rec_comp ?_ ?_; rotate_left; first | assumption | apply Keep.cueEnded | apply Keep.ignored | apply Keep.bltEnd | apply Keep.ite | apply Keep.foldl))

def Touch.bltHalt : Nat := 0x800000000000000000000008400000000000000000000000000000000000000010000000
theorem Keep.bltHalt
    (har : Area.sub Touch.bltHalt ar = true) (h : Keep ar s t) : Keep ar s (Machine.State.bltHalt t) := by
  unfold Machine.State.bltHalt
  repeat' (with_reducible first
    | assumption
    | apply Keep.put
    | apply Keep.raise
    | (refine Area.sub_trans (b := Touch.bltHalt) ?_ har; decide)
    | (refine Area.fld_mono (a := Touch.bltHalt) ?_ har; decide)
    | intro _ _ _
    | intro _ _)

def Touch.bltReached : Nat := 0x400000000000000000000000000000000000000000200000
theorem Keep.bltReached
    (har : Area.sub Touch.bltReached ar = true) (h : Keep ar s t) : Keep ar s (Machine.State.bltReached t) := by
  unfold Machine.State.bltReached
  repeat' (with_reducible first
    | assumption
    | (extract_lets +onlyGivenNames x; (apply Keep.cut x); rotate_left; intro _; clear_value x; rotate_right; subst x)
    | (extract_lets +onlyGivenNames x; clear_value x)
    | apply Keep.put
    | (refine Area.sub_trans (b := Touch.bltReached) ?_ har; decide)
    | (refine Area.fld_mono (a := Touch.bltReached) ?_ har; decide)
    | intro _ _ _
    | intro _ _
    | (refine Keep.rec_blt ?_ ?_; rotate_left; first | assumption | apply Keep.put))

def Touch.bltHead : Nat := 0x500000000000000000000000000000000000000000200000
theorem Keep.bltHead {v : Nat}
    (har : Area.sub Touch.bltHead ar = true) (h : Keep ar s t) : Keep ar s (Machine.State.bltHead t v) := by
  unfold Machine.State.bltHead
  repeat' (with_reducible first
    | assumption
    | (extract_lets +onlyGivenNames x; (apply Keep.cut x); rotate_left; intro _; clear_value x; rotate_right; subst x)
    | (extract_lets +onlyGivenNames x; clear_value x)
    | apply Keep.ite
    | apply Keep.put
    | apply Keep.bltReached
    | (refine Area.sub_trans (b := Touch.bltHead) ?_ har; decide)
    | (refine Area.fld_mono (a := Touch.bltHead) ?_ har; decide)
    | split
    | intro _ _ _
    | intro _ _)

def Touch.bltRestart : Nat := 0x400000000000000000000000000000000000000000000000
theorem Keep.bltRestart
    (har : Area.sub Touch.bltRestart ar = true) (h : Keep ar s t) : Keep ar s (Machine.State.bltRestart t) := by
  unfold Machine.State.bltRestart
  repeat' (with_reducible first
    | assumption
    | (extract_lets +onlyGivenNames x; (apply Keep.cut x); rotate_left; intro _; clear_value x; rotate_right; subst x)
    | (extract_lets +onlyGivenNames x; clear_value x)
    | apply Keep.ite
    | apply Keep.put
    | (refine Area.sub_trans (b := Touch.bltRestart) ?_ har; decide)
    | (refine Area.fld_mono (a := Touch.bltRestart) ?_ har; decide)
    | split
    | intro _ _ _
    | intro _ _)

def Touch.bltStop : Nat := 0x400000000000000000000000000000000000000000000000
theorem Keep.bltStop
    (har : Area.sub Touch.bltStop ar = true) (h : Keep ar s t) : Keep ar s (Machine.State.bltStop t) := by
  unfold Machine.State.bltStop
  repeat' (with_reducible first
    | assumption
    | apply Keep.put
    | (refine Area.sub_trans (b := Touch.bltStop) ?_ har; decide)
    | (refine Area.fld_mono (a := Touch.bltStop) ?_ har; decide)
    | intro _ _ _
    | intro _ _)

def Touch.bltStart : Nat := 0x400000000000000000000000000000000000000000000000
theorem Keep.bltStart
    (har : Area.sub Touch.bltStart ar = true) (h : Keep ar s t) : Keep ar s (Machine.State.bltStart t) := by
  unfold Machine.State.bltStart
  repeat' (with_reducible first
    | assumption
    | apply Keep.ite
    | apply Keep.put
    | (refine Area.sub_trans (b := Touch.bltStart) ?_ har; decide)
    | (refine Area.fld_mono (a := Touch.bltStart) ?_ har; decide)
    | split
    | intro _ _ _
    | intro _ _)

def Touch.bltRingCtrl : Nat := 0x400000000000000000000000000000000000000000000000
theorem Keep.bltRingCtrl {data : Nat}
    (har : Area.sub Touch.bltRingCtrl ar = true) (h : Keep ar s t) : Keep ar s (Machine.State.bltRingCtrl t data) := by
  unfold Machine.State.bltRingCtrl
  repeat' (with_reducible first
    | assumption
    | (extract_lets +onlyGivenNames x; (apply Keep.cut x); rotate_left; intro _; clear_value x; rotate_right; subst x)
    | (extract_lets +onlyGivenNames x; clear_value x)
    | apply Keep.ite
    | apply Keep.bltRestart
    | apply Keep.bltStop
    | apply Keep.bltStart
    | (refine Area.sub_trans (b := Touch.bltRingCtrl) ?_ har; decide)
    | split
    | intro _ _ _
    | intro _ _)

def Touch.bltWrite : Nat := 0x280000800030000000000000000000000C02000000000000000000000000000000000018620120
theorem Keep.bltWrite {rows : List (List (Nat × List Sys2Proof.Byte))}
    (har : Area.sub Touch.bltWrite ar = true) (h : Keep ar s t) : Keep ar s (Machine.State.bltWrite t rows) := by
  unfold Machine.State.bltWrite
  repeat' (with_reducible first
    | assumption
    | apply Keep.guardedWrite
    | (refine Area.sub_trans (b := Touch.bltWrite) ?_ har; decide)
    | apply Keep.foldl
    | intro _ _ _
    | intro _ _)

def Touch.noteCommand : Nat := 0x200000
theorem Keep.noteCommand {d : List Sys2Proof.Byte}
    (har : Area.sub Touch.noteCommand ar = true) (h : Keep ar s t) : Keep ar s (Machine.State.noteCommand t d) := by
  unfold Machine.State.noteCommand
  repeat' (with_reducible first
    | assumption
    | (extract_lets +onlyGivenNames x; (apply Keep.cut x); rotate_left; intro _; clear_value x; rotate_right; subst x)
    | (extract_lets +onlyGivenNames x; clear_value x)
    | apply Keep.ite
    | apply Keep.noteDrawn
    | (refine Area.sub_trans (b := Touch.noteCommand) ?_ har; decide)
    | split
    | intro _ _ _
    | intro _ _)

def Touch.bltTake : Nat := 0x280000800030000000000000000009E00C02000000000000000000000000000000000018620120
theorem Keep.bltTake {want : Nat → Bool}
    (har : Area.sub Touch.bltTake ar = true) (h : Keep ar s t) : Keep ar s (Machine.State.bltTake t want) := by
  unfold Machine.State.bltTake
  repeat' (with_reducible first
    | assumption
    | (extract_lets +onlyGivenNames x; (apply Keep.cut x); rotate_left; intro _; clear_value x; rotate_right; subst x)
    | (extract_lets +onlyGivenNames x; clear_value x)
    | apply Keep.ite
    | apply Keep.put
    | apply Keep.bltEnd
    | apply Keep.bltHalt
    | apply Keep.bltReached
    | apply Keep.bltWrite
    | apply Keep.noteCommand
    | (refine Area.sub_trans (b := Touch.bltTake) ?_ har; decide)
    | (refine Area.fld_mono (a := Touch.bltTake) ?_ har; decide)
    | apply Keep.foldl
    | split
    | intro _ _ _
    | intro _ _
    | (refine Keep.rec_blt ?_ ?_; rotate_left; first | assumption | apply Keep.put | apply Keep.bltEnd | apply Keep.bltHalt | apply Keep.bltReached | apply Keep.bltWrite | apply Keep.noteCommand | apply Keep.ite | apply Keep.foldl))

def Touch.wmCfg : Nat := 0x2000000000000000000000000000000000000000000000000
theorem Keep.wmCfg {w : Nat} {data : Nat}
    (har : Area.sub Touch.wmCfg ar = true) (h : Keep ar s t) : Keep ar s (Machine.State.wmCfg t w data) := by
  unfold Machine.State.wmCfg
  repeat' (with_reducible first
    | assumption
    | apply Keep.put
    | (refine Area.sub_trans (b := Touch.wmCfg) ?_ har; decide)
    | (refine Area.fld_mono (a := Touch.wmCfg) ?_ har; decide)
    | intro _ _ _
    | intro _ _)

def Touch.exchange : Nat := 0x800000000000000000000000000860000000000000000000000000000000000010220000
theorem Keep.exchange {n : Nat}
    (har : Area.sub Touch.exchange ar = true) (h : Keep ar s t) : Keep ar s (Machine.State.exchange t n) := by
  unfold Machine.State.exchange
  repeat' (with_reducible first
    | assumption
    | (extract_lets +onlyGivenNames x; (apply Keep.cut x); rotate_left; intro _; clear_value x; rotate_right; subst x)
    | (extract_lets +onlyGivenNames x; clear_value x)
    | apply Keep.put
    | apply Keep.setDrawn
    | apply Keep.ovlyStat
    | (refine Area.sub_trans (b := Touch.exchange) ?_ har; decide)
    | (refine Area.fld_mono (a := Touch.exchange) ?_ har; decide)
    | intro _ _ _
    | intro _ _)

def Touch.cueCommit : Nat := 0x800000000000000000000008080860000000000000000000000000000000000010220000
theorem Keep.cueCommit {frame : Nat} {at_ : Nat}
    (har : Area.sub Touch.cueCommit ar = true) (h : Keep ar s t) : Keep ar s (Machine.State.cueCommit t frame at_) := by
  unfold Machine.State.cueCommit
  repeat' (with_reducible first
    | assumption
    | (extract_lets +onlyGivenNames x; (apply Keep.cut x); rotate_left; intro _; clear_value x; rotate_right; subst x)
    | (extract_lets +onlyGivenNames x; have hf : (∀ z, x z = x z) := fun _ => rfl; clear hf; subst x; try dsimp -zeta only)
    | (extract_lets +onlyGivenNames x; clear_value x)
    | apply Keep.ite
    | apply Keep.put
    | apply Keep.bump
    | apply Keep.raise
    | apply Keep.ovlyStat
    | apply Keep.exchange
    | (refine Area.sub_trans (b := Touch.cueCommit) ?_ har; decide)
    | (refine Area.fld_mono (a := Touch.cueCommit) ?_ har; decide)
    | apply Keep.foldl
    | dsimp -zeta only
    | split
    | intro _ _ _
    | intro _ _
    | (refine Keep.rec_blt ?_ ?_; rotate_left; first | assumption | apply Keep.put | apply Keep.bump | apply Keep.raise | apply Keep.ovlyStat | apply Keep.exchange | apply Keep.ite | apply Keep.foldl))

def Touch.copyBox : Nat := 0x280000800030000000000000000000000C02000000000000000000000000000000000018620120
theorem Keep.copyBox {src : Surface} {dst : Surface} {x : Box}
    (har : Area.sub Touch.copyBox ar = true) (h : Keep ar s t) : Keep ar s (Machine.State.copyBox t src dst x) := by
  unfold Machine.State.copyBox
  repeat' (with_reducible first
    | assumption
    | (extract_lets +onlyGivenNames x; (apply Keep.cut x); rotate_left; intro _; clear_value x; rotate_right; subst x)
    | (extract_lets +onlyGivenNames x; have hf : (∀ z, x z = x z) := fun _ => rfl; clear hf; subst x; try dsimp -zeta only)
    | (extract_lets +onlyGivenNames x; clear_value x)
    | apply Keep.bltWrite
    | (refine Area.sub_trans (b := Touch.copyBox) ?_ har; decide)
    | dsimp -zeta only
    | intro _ _ _
    | intro _ _)

def Touch.cueReject : Nat := 0x280000800000000000000000000008080000000000000000000000000000000000000018000020
theorem Keep.cueReject
    (har : Area.sub Touch.cueReject ar = true) (h : Keep ar s t) : Keep ar s (Machine.State.cueReject t) := by
  unfold Machine.State.cueReject
  repeat' (with_reducible first
    | assumption
    | apply Keep.bump
    | apply Keep.raiseRec
    | (refine Area.sub_trans (b := Touch.cueReject) ?_ har; decide)
    | (refine Area.fld_mono (a := Touch.cueReject) ?_ har; decide)
    | intro _ _ _
    | intro _ _)

def Touch.execFill : Nat := 0x280000800030000000000000000009E00C02000000000000000000000000000000000018620120
theorem Keep.execFill
    (har : Area.sub Touch.execFill ar = true) (h : Keep ar s t) : KeepO ar s (Machine.execFill t) := by
  unfold Machine.execFill
  repeat' (with_reducible first
    | assumption
    | apply KeepO.next
    | apply KeepO.ite
    | apply Keep.bltTake
    | (refine Area.sub_trans (b := Touch.execFill) ?_ har; decide)
    | intro _ _ _
    | intro _ _)

def Touch.execBltHeadWrite : Nat := 0x500000000000000000000000000000000000000000200000
theorem Keep.execBltHeadWrite {a0 : Sys2Proof.Req} {v : Nat}
    (har : Area.sub Touch.execBltHeadWrite ar = true) (h : Keep ar s t) : KeepO ar s (Machine.execBltHeadWrite a0 v t) := by
  unfold Machine.execBltHeadWrite
  repeat' (with_reducible first
    | assumption
    | apply KeepO.next
    | apply KeepO.ite
    | apply Keep.bltHead
    | (refine Area.sub_trans (b := Touch.execBltHeadWrite) ?_ har; decide)
    | intro _ _ _
    | intro _ _)

def Touch.execBltCommandDone : Nat := 0x800000000000000000000009800000000000000000000000000000000000000010600000
theorem Keep.execBltCommandDone
    (har : Area.sub Touch.execBltCommandDone ar = true) (h : Keep ar s t) : KeepO ar s (Machine.execBltCommandDone t) := by
  unfold Machine.execBltCommandDone
  repeat' (with_reducible first
    | assumption
    | apply KeepO.next
    | apply KeepO.ite
    | (extract_lets +onlyGivenNames x; (first | apply KeepO.cut x | apply Keep.cut x); rotate_left; intro _; clear_value x; rotate_right; subst x)
    | (extract_lets +onlyGivenNames x; clear_value x)
    | apply Keep.ite
    | apply Keep.bltEnd
    | (refine Area.sub_trans (b := Touch.execBltCommandDone) ?_ har; decide)
    | split
    | intro _ _ _
    | intro _ _
    | (refine Keep.rec_blt ?_ ?_; rotate_left; first | assumption | apply Keep.bltEnd | apply Keep.ite))

def Touch.execDraw : Nat := 0x280000800030000000000000000009E00C02000000000000000000000000000000000018620120
theorem Keep.execDraw
    (har : Area.sub Touch.execDraw ar = true) (h : Keep ar s t) : KeepO ar s (Machine.execDraw t) := by
  unfold Machine.execDraw
  repeat' (with_reducible first
    | assumption
    | apply KeepO.next
    | apply KeepO.ite
    | apply Keep.bltTake
    | (refine Area.sub_trans (b := Touch.execDraw) ?_ har; decide)
    | intro _ _ _
    | intro _ _)

def Touch.execBltRingStart : Nat := 0x400000000000000000000000000000000000000000000000
theorem Keep.execBltRingStart {a0 : Sys2Proof.Req}
    (har : Area.sub Touch.execBltRingStart ar = true) (h : Keep ar s t) : KeepO ar s (Machine.execBltRingStart a0 t) := by
  unfold Machine.execBltRingStart
  repeat' (with_reducible first
    | assumption
    | apply KeepO.next
    | apply KeepO.ite
    | apply Keep.bltStart
    | (refine Area.sub_trans (b := Touch.execBltRingStart) ?_ har; decide)
    | intro _ _ _
    | intro _ _)

def Touch.execBltRingRestart : Nat := 0x400000000000000000000000000000000000000000000000
theorem Keep.execBltRingRestart {a0 : Sys2Proof.Req}
    (har : Area.sub Touch.execBltRingRestart ar = true) (h : Keep ar s t) : KeepO ar s (Machine.execBltRingRestart a0 t) := by
  unfold Machine.execBltRingRestart
  repeat' (with_reducible first
    | assumption
    | apply KeepO.next
    | apply KeepO.ite
    | apply Keep.bltRestart
    | (refine Area.sub_trans (b := Touch.execBltRingRestart) ?_ har; decide)
    | intro _ _ _
    | intro _ _)

def Touch.execCueDraw : Nat := 0x280000800030000000000000000008080F02000000000000000000000000000000000018620120
theorem Keep.execCueDraw
    (har : Area.sub Touch.execCueDraw ar = true) (h : Keep ar s t) : KeepO ar s (Machine.execCueDraw t) := by
  unfold Machine.execCueDraw
  repeat' (with_reducible first
    | assumption
    | apply KeepO.next
    | apply KeepO.ite
    | (extract_lets +onlyGivenNames x; (first | apply KeepO.cut x | apply Keep.cut x); rotate_left; intro _; clear_value x; rotate_right; subst x)
    | (extract_lets +onlyGivenNames x; have hf : (∀ z, x z = x z) := fun _ => rfl; clear hf; subst x; try dsimp -zeta only)
    | (extract_lets +onlyGivenNames x; clear_value x)
    | apply Keep.ite
    | apply Keep.setDrawn
    | apply Keep.noteDrawn
    | apply Keep.bufStates
    | apply Keep.bltWrite
    | apply Keep.copyBox
    | apply Keep.cueReject
    | (refine Area.sub_trans (b := Touch.execCueDraw) ?_ har; decide)
    | apply Keep.foldl
    | dsimp -zeta only
    | split
    | intro _ _ _
    | intro _ _
    | (refine Keep.rec_blt ?_ ?_; rotate_left; first | assumption | apply Keep.setDrawn | apply Keep.noteDrawn | apply Keep.bufStates | apply Keep.bltWrite | apply Keep.copyBox | apply Keep.cueReject | apply Keep.ite | apply Keep.foldl))

def Touch.execCopy : Nat := 0x280000800030000000000000000009E00C02000000000000000000000000000000000018620120
theorem Keep.execCopy
    (har : Area.sub Touch.execCopy ar = true) (h : Keep ar s t) : KeepO ar s (Machine.execCopy t) := by
  unfold Machine.execCopy
  repeat' (with_reducible first
    | assumption
    | apply KeepO.next
    | apply KeepO.ite
    | apply Keep.bltTake
    | (refine Area.sub_trans (b := Touch.execCopy) ?_ har; decide)
    | intro _ _ _
    | intro _ _)

def Touch.execBltRingStop : Nat := 0x400000000000000000000000000000000000000000000000
theorem Keep.execBltRingStop {a0 : Sys2Proof.Req}
    (har : Area.sub Touch.execBltRingStop ar = true) (h : Keep ar s t) : KeepO ar s (Machine.execBltRingStop a0 t) := by
  unfold Machine.execBltRingStop
  repeat' (with_reducible first
    | assumption
    | apply KeepO.next
    | apply KeepO.ite
    | apply Keep.bltStop
    | (refine Area.sub_trans (b := Touch.execBltRingStop) ?_ har; decide)
    | intro _ _ _
    | intro _ _)

def Touch.execNop : Nat := 0x280000800030000000000000000009E00C02000000000000000000000000000000000018620120
theorem Keep.execNop
    (har : Area.sub Touch.execNop ar = true) (h : Keep ar s t) : KeepO ar s (Machine.execNop t) := by
  unfold Machine.execNop
  repeat' (with_reducible first
    | assumption
    | apply KeepO.next
    | apply KeepO.ite
    | apply Keep.bltTake
    | (refine Area.sub_trans (b := Touch.execNop) ?_ har; decide)
    | intro _ _ _
    | intro _ _)

def Touch.execWmArm : Nat := 0x2000000000000000000000000000000000000000000000000
theorem Keep.execWmArm {a0 : Sys2Proof.Req} {w : Nat} {data : Nat}
    (har : Area.sub Touch.execWmArm ar = true) (h : Keep ar s t) : KeepO ar s (Machine.execWmArm a0 w data t) := by
  unfold Machine.execWmArm
  repeat' (with_reducible first
    | assumption
    | apply KeepO.next
    | apply KeepO.ite
    | apply Keep.ite
    | apply Keep.wmCfg
    | (refine Area.sub_trans (b := Touch.execWmArm) ?_ har; decide)
    | split
    | intro _ _ _
    | intro _ _)

def Touch.execBltAbort : Nat := 0x280000800000000000000000000009800300000000000000000000000000000000000010620020
theorem Keep.execBltAbort {r : Sys2Proof.Req} {key : Nat}
    (har : Area.sub Touch.execBltAbort ar = true) (h : Keep ar s t) : KeepO ar s (Machine.execBltAbort r key t) := by
  unfold Machine.execBltAbort
  repeat' (with_reducible first
    | assumption
    | apply KeepO.next
    | apply KeepO.ite
    | apply Keep.bltCtrl
    | (refine Area.sub_trans (b := Touch.execBltAbort) ?_ har; decide)
    | intro _ _ _
    | intro _ _)

end Sys2Proof
end

