-- ==== Sys2Proof/Laws/KeepIntake.lean ====
section
/-!
SUPPORT. The operations and meanings of Machine/Intake.lean keep what `Keep` says.
-/

namespace Sys2Proof

open Sys2Proof.Machine

variable {ar : Nat} {s t u : Machine.State}

def Touch.conceal : Nat := 0x8000000000000000000000000000000000000C0000000000000000000000000010080000
theorem Keep.conceal {i : Nat} {n : Nat} {frame : Nat} {plane : Option Nat}
    (har : Area.sub Touch.conceal ar = true) (h : Keep ar s t) : Keep ar s (Machine.State.conceal t i n frame plane) := by
  unfold Machine.State.conceal
  repeat' (with_reducible first
    | assumption
    | (extract_lets +onlyGivenNames x; (apply Keep.cut x); rotate_left; intro _; clear_value x; rotate_right; subst x)
    | (extract_lets +onlyGivenNames x; clear_value x)
    | apply Keep.ite
    | apply Keep.bumpBy
    | apply Keep.raise
    | (refine Area.sub_trans (b := Touch.conceal) ?_ har; decide)
    | (refine Area.fld_mono (a := Touch.conceal) ?_ har; decide)
    | split
    | intro _ _ _
    | intro _ _
    | (refine Keep.rec_intk ?_ ?_; rotate_left; first | assumption | apply Keep.bumpBy | apply Keep.raise | apply Keep.ite))

def Touch.dmaError : Nat := 0x8000000000000000000000000000000000000A0000000000000000000000000010000000
theorem Keep.dmaError {code : Nat} {halt : Bool}
    (har : Area.sub Touch.dmaError ar = true) (h : Keep ar s t) : Keep ar s (Machine.State.dmaError t code halt) := by
  unfold Machine.State.dmaError
  repeat' (with_reducible first
    | assumption
    | (extract_lets +onlyGivenNames x; (apply Keep.cut x); rotate_left; intro _; clear_value x; rotate_right; subst x)
    | (extract_lets +onlyGivenNames x; clear_value x)
    | apply Keep.ite
    | apply Keep.put
    | apply Keep.raise
    | (refine Area.sub_trans (b := Touch.dmaError) ?_ har; decide)
    | (refine Area.fld_mono (a := Touch.dmaError) ?_ har; decide)
    | split
    | intro _ _ _
    | intro _ _)

def Touch.dmaHead : Nat := 0x8000000000000000000000000000000000000A8000000000000000000000000010000000
theorem Keep.dmaHead {v : Nat}
    (har : Area.sub Touch.dmaHead ar = true) (h : Keep ar s t) : Keep ar s (Machine.State.dmaHead t v) := by
  unfold Machine.State.dmaHead
  repeat' (with_reducible first
    | assumption
    | apply Keep.ite
    | apply Keep.put
    | apply Keep.dmaError
    | (refine Area.sub_trans (b := Touch.dmaHead) ?_ har; decide)
    | (refine Area.fld_mono (a := Touch.dmaHead) ?_ har; decide)
    | split
    | intro _ _ _
    | intro _ _)

def Touch.dmaStop : Nat := 0x20000000000000000000000000000000000
theorem Keep.dmaStop
    (har : Area.sub Touch.dmaStop ar = true) (h : Keep ar s t) : Keep ar s (Machine.State.dmaStop t) := by
  unfold Machine.State.dmaStop
  repeat' (with_reducible first
    | assumption
    | apply Keep.put
    | (refine Area.sub_trans (b := Touch.dmaStop) ?_ har; decide)
    | (refine Area.fld_mono (a := Touch.dmaStop) ?_ har; decide)
    | intro _ _ _
    | intro _ _)

def Touch.dmaRestart : Nat := 0x20000000000000000000000000000000000
theorem Keep.dmaRestart
    (har : Area.sub Touch.dmaRestart ar = true) (h : Keep ar s t) : Keep ar s (Machine.State.dmaRestart t) := by
  unfold Machine.State.dmaRestart
  repeat' (with_reducible first
    | assumption
    | (extract_lets +onlyGivenNames x; (apply Keep.cut x); rotate_left; intro _; clear_value x; rotate_right; subst x)
    | (extract_lets +onlyGivenNames x; clear_value x)
    | apply Keep.ite
    | apply Keep.put
    | (refine Area.sub_trans (b := Touch.dmaRestart) ?_ har; decide)
    | (refine Area.fld_mono (a := Touch.dmaRestart) ?_ har; decide)
    | split
    | intro _ _ _
    | intro _ _)

def Touch.dmaStart : Nat := 0x20000000000000000000000000000000000
theorem Keep.dmaStart
    (har : Area.sub Touch.dmaStart ar = true) (h : Keep ar s t) : Keep ar s (Machine.State.dmaStart t) := by
  unfold Machine.State.dmaStart
  repeat' (with_reducible first
    | assumption
    | apply Keep.ite
    | apply Keep.put
    | (refine Area.sub_trans (b := Touch.dmaStart) ?_ har; decide)
    | (refine Area.fld_mono (a := Touch.dmaStart) ?_ har; decide)
    | split
    | intro _ _ _
    | intro _ _)

def Touch.dmaCtrl : Nat := 0x20000000000000000000000000000000000
theorem Keep.dmaCtrl {data : Nat}
    (har : Area.sub Touch.dmaCtrl ar = true) (h : Keep ar s t) : Keep ar s (Machine.State.dmaCtrl t data) := by
  unfold Machine.State.dmaCtrl
  repeat' (with_reducible first
    | assumption
    | (extract_lets +onlyGivenNames x; (apply Keep.cut x); rotate_left; intro _; clear_value x; rotate_right; subst x)
    | (extract_lets +onlyGivenNames x; clear_value x)
    | apply Keep.ite
    | apply Keep.dmaStop
    | apply Keep.dmaRestart
    | apply Keep.dmaStart
    | (refine Area.sub_trans (b := Touch.dmaCtrl) ?_ har; decide)
    | split
    | intro _ _ _
    | intro _ _)

def Touch.keysInUse : Nat := 0x200000000000000000000000000000000000
theorem Keep.keysInUse
    (har : Area.sub Touch.keysInUse ar = true) (h : Keep ar s t) : Keep ar s (Machine.State.keysInUse t) := by
  unfold Machine.State.keysInUse
  repeat' (with_reducible first
    | assumption
    | (extract_lets +onlyGivenNames x; (apply Keep.cut x); rotate_left; intro _; clear_value x; rotate_right; subst x)
    | (extract_lets +onlyGivenNames x; have hf : (∀ z, x z = x z) := fun _ => rfl; clear hf; subst x; try dsimp -zeta only)
    | (extract_lets +onlyGivenNames x; clear_value x)
    | apply Keep.put
    | apply Keep.putB
    | (refine Area.sub_trans (b := Touch.keysInUse) ?_ har; decide)
    | (refine Area.fld_mono (a := Touch.keysInUse) ?_ har; decide)
    | apply Keep.foldl
    | dsimp -zeta only
    | split
    | intro _ _ _
    | intro _ _)

def Touch.inputMark : Nat := 0x80000
theorem Keep.inputMark
    (har : Area.sub Touch.inputMark ar = true) (h : Keep ar s t) : Keep ar s (Machine.State.inputMark t) := by
  unfold Machine.State.inputMark
  repeat' (with_reducible first
    | assumption
    | (extract_lets +onlyGivenNames x; (apply Keep.cut x); rotate_left; intro _; clear_value x; rotate_right; subst x)
    | (extract_lets +onlyGivenNames x; clear_value x)
    | apply Keep.ite
    | (refine Area.sub_trans (b := Touch.inputMark) ?_ har; decide)
    | split
    | (refine Keep.rec_intk ?_ ?_; rotate_left; first | assumption | apply Keep.ite))

def Touch.unitReady : Nat := 0x80000
theorem Keep.unitReady {born : Nat} {bytes : List Sys2Proof.Byte}
    (har : Area.sub Touch.unitReady ar = true) (h : Keep ar s t) : Keep ar s (Machine.State.unitReady t born bytes) := by
  unfold Machine.State.unitReady
  repeat' (with_reducible first
    | assumption
    | (extract_lets +onlyGivenNames x; (apply Keep.cut x); rotate_left; intro _; clear_value x; rotate_right; subst x)
    | (extract_lets +onlyGivenNames x; clear_value x)
    | (refine Area.sub_trans (b := Touch.unitReady) ?_ har; decide)
    | (refine Keep.rec_intk ?_ ?_; rotate_left; first | assumption))

def Touch.streamBytes : Nat := 0x8000000000000000000000000000000000000C0000000000000000000000000010080000
theorem Keep.streamBytes {bytes : List Sys2Proof.Byte}
    (har : Area.sub Touch.streamBytes ar = true) (h : Keep ar s t) : Keep ar s (Machine.State.streamBytes t bytes) := by
  unfold Machine.State.streamBytes
  repeat' (with_reducible first
    | assumption
    | (extract_lets +onlyGivenNames x; (apply Keep.cut x); rotate_left; intro _; clear_value x; rotate_right; subst x)
    | (extract_lets +onlyGivenNames x; have hf : (∀ z, x z = x z) := fun _ => rfl; clear hf; subst x; try dsimp -zeta only)
    | (extract_lets +onlyGivenNames x; clear_value x)
    | apply Keep.conceal
    | apply Keep.unitReady
    | (refine Area.sub_trans (b := Touch.streamBytes) ?_ har; decide)
    | apply Keep.foldl
    | dsimp -zeta only
    | split
    | intro _ _ _
    | intro _ _
    | (refine Keep.rec_intk ?_ ?_; rotate_left; first | assumption | apply Keep.conceal | apply Keep.unitReady | apply Keep.foldl))

def Touch.dmaAbort : Nat := 0x8000000000000000000000000000000000000E0000000000000000000000000010080000
theorem Keep.dmaAbort {bytes : List Sys2Proof.Byte}
    (har : Area.sub Touch.dmaAbort ar = true) (h : Keep ar s t) : Keep ar s (Machine.State.dmaAbort t bytes) := by
  unfold Machine.State.dmaAbort
  repeat' (with_reducible first
    | assumption
    | (extract_lets +onlyGivenNames x; (apply Keep.cut x); rotate_left; intro _; clear_value x; rotate_right; subst x)
    | (extract_lets +onlyGivenNames x; clear_value x)
    | apply Keep.dmaError
    | apply Keep.streamBytes
    | (refine Area.sub_trans (b := Touch.dmaAbort) ?_ har; decide)
    | intro _ _ _
    | intro _ _
    | (refine Keep.rec_intk ?_ ?_; rotate_left; first | assumption | apply Keep.dmaError | apply Keep.streamBytes))

def Touch.dmaAdvance : Nat := 0x800000000000000000000000000000000000090000000000000000000000000010000000
theorem Keep.dmaAdvance {flags : Nat}
    (har : Area.sub Touch.dmaAdvance ar = true) (h : Keep ar s t) : Keep ar s (Machine.State.dmaAdvance t flags) := by
  unfold Machine.State.dmaAdvance
  repeat' (with_reducible first
    | assumption
    | (extract_lets +onlyGivenNames x; (apply Keep.cut x); rotate_left; intro _; clear_value x; rotate_right; subst x)
    | (extract_lets +onlyGivenNames x; clear_value x)
    | apply Keep.ite
    | apply Keep.put
    | apply Keep.emit
    | apply Keep.raiseIf
    | (refine Area.sub_trans (b := Touch.dmaAdvance) ?_ har; decide)
    | (refine Area.fld_mono (a := Touch.dmaAdvance) ?_ har; decide)
    | split
    | intro _ _ _
    | intro _ _)

def Touch.dmaTake : Nat := 0x8000000000000000000000000000000000000B0000000000000000000000000010080000
theorem Keep.dmaTake {d : List Sys2Proof.Byte}
    (har : Area.sub Touch.dmaTake ar = true) (h : Keep ar s t) : Keep ar s (Machine.State.dmaTake t d) := by
  unfold Machine.State.dmaTake
  repeat' (with_reducible first
    | assumption
    | (extract_lets +onlyGivenNames x; (apply Keep.cut x); rotate_left; intro _; clear_value x; rotate_right; subst x)
    | (extract_lets +onlyGivenNames x; clear_value x)
    | apply Keep.ite
    | apply Keep.dmaError
    | apply Keep.dmaAdvance
    | (refine Area.sub_trans (b := Touch.dmaTake) ?_ har; decide)
    | split
    | intro _ _ _
    | intro _ _
    | (refine Keep.rec_intk ?_ ?_; rotate_left; first | assumption | apply Keep.dmaError | apply Keep.dmaAdvance | apply Keep.ite))

def Touch.dmaRead : Nat := 0x8000000000000000000000000000000000000B0000000000000000000000000010080000
theorem Keep.dmaRead {d : Option (List Sys2Proof.Byte)}
    (har : Area.sub Touch.dmaRead ar = true) (h : Keep ar s t) : Keep ar s (Machine.State.dmaRead t d) := by
  unfold Machine.State.dmaRead
  repeat' (with_reducible first
    | assumption
    | (extract_lets +onlyGivenNames x; (apply Keep.cut x); rotate_left; intro _; clear_value x; rotate_right; subst x)
    | (extract_lets +onlyGivenNames x; clear_value x)
    | apply Keep.dmaError
    | apply Keep.dmaTake
    | (refine Area.sub_trans (b := Touch.dmaRead) ?_ har; decide)
    | split
    | intro _ _ _
    | intro _ _)

def Touch.dropOldest : Nat := 0x80000
theorem Keep.dropOldest
    (har : Area.sub Touch.dropOldest ar = true) (h : Keep ar s t) : Keep ar s (Machine.State.dropOldest t) := by
  unfold Machine.State.dropOldest
  repeat' (with_reducible first
    | assumption
    | (extract_lets +onlyGivenNames x; (apply Keep.cut x); rotate_left; intro _; clear_value x; rotate_right; subst x)
    | (extract_lets +onlyGivenNames x; have hf : (∀ z, x z = x z) := fun _ => rfl; clear hf; subst x; try dsimp -zeta only)
    | (extract_lets +onlyGivenNames x; clear_value x)
    | apply Keep.ite
    | (refine Area.sub_trans (b := Touch.dropOldest) ?_ har; decide)
    | apply Keep.foldl
    | dsimp -zeta only
    | split
    | intro _ _ _
    | intro _ _
    | (refine Keep.rec_intk ?_ ?_; rotate_left; first | assumption | apply Keep.ite | apply Keep.foldl))

def Touch.dropUnits : Nat := 0x80000
theorem Keep.dropUnits {p : VssUnit → Bool}
    (har : Area.sub Touch.dropUnits ar = true) (h : Keep ar s t) : Keep ar s (Machine.State.dropUnits t p) := by
  unfold Machine.State.dropUnits
  repeat' (with_reducible first
    | assumption
    | (extract_lets +onlyGivenNames x; (apply Keep.cut x); rotate_left; intro _; clear_value x; rotate_right; subst x)
    | (extract_lets +onlyGivenNames x; have hf : (∀ z, x z = x z) := fun _ => rfl; clear hf; subst x; try dsimp -zeta only)
    | (extract_lets +onlyGivenNames x; clear_value x)
    | (refine Area.sub_trans (b := Touch.dropUnits) ?_ har; decide)
    | dsimp -zeta only
    | (refine Keep.rec_intk ?_ ?_; rotate_left; first | assumption))

def Touch.seqStat : Nat := 0x2000000000000000000000000000000000
theorem Keep.seqStat {a1 : Option SeqHdr}
    (har : Area.sub Touch.seqStat ar = true) (h : Keep ar s t) : Keep ar s (Machine.State.seqStat t a1) := by
  unfold Machine.State.seqStat
  repeat' (with_reducible first
    | assumption
    | (extract_lets +onlyGivenNames x; (apply Keep.cut x); rotate_left; intro _; clear_value x; rotate_right; subst x)
    | (extract_lets +onlyGivenNames x; clear_value x)
    | apply Keep.put
    | (refine Area.sub_trans (b := Touch.seqStat) ?_ har; decide)
    | (refine Area.fld_mono (a := Touch.seqStat) ?_ har; decide)
    | split
    | intro _ _ _
    | intro _ _)

def Touch.tellNote : Nat := 0x280000800000000000000000000000000000000000000000000000000000000000000010080020
theorem Keep.tellNote {x : Note}
    (har : Area.sub Touch.tellNote ar = true) (h : Keep ar s t) : Keep ar s (Machine.State.tellNote t x) := by
  unfold Machine.State.tellNote
  repeat' (with_reducible first
    | assumption
    | (extract_lets +onlyGivenNames x; (apply Keep.cut x); rotate_left; intro _; clear_value x; rotate_right; subst x)
    | (extract_lets +onlyGivenNames x; clear_value x)
    | apply Keep.offer
    | (refine Area.sub_trans (b := Touch.tellNote) ?_ har; decide)
    | intro _ _ _
    | intro _ _
    | (refine Keep.rec_intk ?_ ?_; rotate_left; first | assumption | apply Keep.offer))

def Touch.ssrcRelease : Nat := 0x800000000000000000000000000000000000082000000000000000000000000010080000
theorem Keep.ssrcRelease
    (har : Area.sub Touch.ssrcRelease ar = true) (h : Keep ar s t) : Keep ar s (Machine.State.ssrcRelease t) := by
  unfold Machine.State.ssrcRelease
  repeat' (with_reducible first
    | assumption
    | (extract_lets +onlyGivenNames x; (apply Keep.cut x); rotate_left; intro _; clear_value x; rotate_right; subst x)
    | (extract_lets +onlyGivenNames x; clear_value x)
    | apply Keep.ite
    | apply Keep.put
    | apply Keep.raise
    | (refine Area.sub_trans (b := Touch.ssrcRelease) ?_ har; decide)
    | (refine Area.fld_mono (a := Touch.ssrcRelease) ?_ har; decide)
    | split
    | intro _ _ _
    | intro _ _
    | (refine Keep.rec_intk ?_ ?_; rotate_left; first | assumption | apply Keep.put | apply Keep.raise | apply Keep.ite))

def Touch.srcSwitch : Nat := 0x8000000000000000000000000000000000002820000000000000000000000000100A0000
theorem Keep.srcSwitch
    (har : Area.sub Touch.srcSwitch ar = true) (h : Keep ar s t) : Keep ar s (Machine.State.srcSwitch t) := by
  unfold Machine.State.srcSwitch
  repeat' (with_reducible first
    | assumption
    | (extract_lets +onlyGivenNames x; (apply Keep.cut x); rotate_left; intro _; clear_value x; rotate_right; subst x)
    | (extract_lets +onlyGivenNames x; have hf : (∀ z, x z = x z) := fun _ => rfl; clear hf; subst x; try dsimp -zeta only)
    | (extract_lets +onlyGivenNames x; clear_value x)
    | apply Keep.ite
    | apply Keep.keysInUse
    | apply Keep.inputMark
    | apply Keep.seqStat
    | apply Keep.ssrcRelease
    | (refine Area.sub_trans (b := Touch.srcSwitch) ?_ har; decide)
    | dsimp -zeta only
    | split
    | intro _ _ _
    | intro _ _
    | (refine Keep.rec_comp_intk ?_ ?_; rotate_left; first | assumption | apply Keep.keysInUse | apply Keep.inputMark | apply Keep.seqStat | apply Keep.ssrcRelease | apply Keep.ite))

def Touch.placeFragment : Nat := 0x80000
theorem Keep.placeFragment {frame : Nat} {unit : Nat} {off : Nat} {bytes : List Sys2Proof.Byte}
    (har : Area.sub Touch.placeFragment ar = true) (h : Keep ar s t) : Keep ar s (Machine.State.placeFragment t frame unit off bytes) := by
  unfold Machine.State.placeFragment
  repeat' (with_reducible first
    | assumption
    | (extract_lets +onlyGivenNames x; (apply Keep.cut x); rotate_left; intro _; clear_value x; rotate_right; subst x)
    | (extract_lets +onlyGivenNames x; have hf : (∀ z, x z = x z) := fun _ => rfl; clear hf; subst x; try dsimp -zeta only)
    | (extract_lets +onlyGivenNames x; clear_value x)
    | apply Keep.ite
    | apply Keep.unitReady
    | apply Keep.dropOldest
    | (refine Area.sub_trans (b := Touch.placeFragment) ?_ har; decide)
    | dsimp -zeta only
    | split
    | intro _ _ _
    | intro _ _
    | (refine Keep.rec_intk ?_ ?_; rotate_left; first | assumption | apply Keep.unitReady | apply Keep.dropOldest | apply Keep.ite))

def Touch.rtpGap : Nat := 0x8000000000000000000000000000000000000C0000000000000000000000000010080000
theorem Keep.rtpGap {seq : Nat} {frame : Nat}
    (har : Area.sub Touch.rtpGap ar = true) (h : Keep ar s t) : Keep ar s (Machine.State.rtpGap t seq frame) := by
  unfold Machine.State.rtpGap
  repeat' (with_reducible first
    | assumption
    | (extract_lets +onlyGivenNames x; (apply Keep.cut x); rotate_left; intro _; clear_value x; rotate_right; subst x)
    | (extract_lets +onlyGivenNames x; clear_value x)
    | apply Keep.ite
    | apply Keep.conceal
    | (refine Area.sub_trans (b := Touch.rtpGap) ?_ har; decide)
    | split
    | intro _ _ _
    | intro _ _
    | (refine Keep.rec_intk ?_ ?_; rotate_left; first | assumption | apply Keep.conceal | apply Keep.ite))

def Touch.rtpTake : Nat := 0x8000000000000000000000000000000000000C6000000000000000000000000010080000
theorem Keep.rtpTake {p : Sys2Proof.RtpPacket}
    (har : Area.sub Touch.rtpTake ar = true) (h : Keep ar s t) : Keep ar s (Machine.State.rtpTake t p) := by
  unfold Machine.State.rtpTake
  repeat' (with_reducible first
    | assumption
    | (extract_lets +onlyGivenNames x; (apply Keep.cut x); rotate_left; intro _; clear_value x; rotate_right; subst x)
    | (extract_lets +onlyGivenNames x; clear_value x)
    | apply Keep.ite
    | apply Keep.put
    | apply Keep.conceal
    | apply Keep.placeFragment
    | apply Keep.rtpGap
    | (refine Area.sub_trans (b := Touch.rtpTake) ?_ har; decide)
    | (refine Area.fld_mono (a := Touch.rtpTake) ?_ har; decide)
    | split
    | intro _ _ _
    | intro _ _
    | (refine Keep.rec_intk ?_ ?_; rotate_left; first | assumption | apply Keep.put | apply Keep.conceal | apply Keep.placeFragment | apply Keep.rtpGap | apply Keep.ite))

def Touch.execDmaHeadWrite : Nat := 0x8000000000000000000000000000000000000A8000000000000000000000000010000000
theorem Keep.execDmaHeadWrite {a0 : Sys2Proof.Req} {v : Nat}
    (har : Area.sub Touch.execDmaHeadWrite ar = true) (h : Keep ar s t) : KeepO ar s (Machine.execDmaHeadWrite a0 v t) := by
  unfold Machine.execDmaHeadWrite
  repeat' (with_reducible first
    | assumption
    | apply KeepO.next
    | apply KeepO.ite
    | apply Keep.dmaHead
    | (refine Area.sub_trans (b := Touch.execDmaHeadWrite) ?_ har; decide)
    | intro _ _ _
    | intro _ _)

def Touch.execDmaDescriptorProcess : Nat := 0x8000000000000000000000000000000000000B0000000000000000000000000010080000
theorem Keep.execDmaDescriptorProcess {d : Option (List Sys2Proof.Byte)}
    (har : Area.sub Touch.execDmaDescriptorProcess ar = true) (h : Keep ar s t) : KeepO ar s (Machine.execDmaDescriptorProcess d t) := by
  unfold Machine.execDmaDescriptorProcess
  repeat' (with_reducible first
    | assumption
    | apply KeepO.next
    | apply KeepO.ite
    | (extract_lets +onlyGivenNames x; (first | apply KeepO.cut x | apply Keep.cut x); rotate_left; intro _; clear_value x; rotate_right; subst x)
    | (extract_lets +onlyGivenNames x; clear_value x)
    | apply Keep.ite
    | apply Keep.dmaRead
    | (refine Area.sub_trans (b := Touch.execDmaDescriptorProcess) ?_ har; decide)
    | split
    | intro _ _ _
    | intro _ _
    | (refine Keep.rec_intk ?_ ?_; rotate_left; first | assumption | apply Keep.dmaRead | apply Keep.ite))

def Touch.execRtpPacket : Nat := 0x8000000000000000000000000000000000000C6000000000000000000000000010080000
theorem Keep.execRtpPacket {p : Sys2Proof.RtpPacket}
    (har : Area.sub Touch.execRtpPacket ar = true) (h : Keep ar s t) : KeepO ar s (Machine.execRtpPacket p t) := by
  unfold Machine.execRtpPacket
  repeat' (with_reducible first
    | assumption
    | apply KeepO.next
    | apply KeepO.ite
    | apply Keep.rtpTake
    | (refine Area.sub_trans (b := Touch.execRtpPacket) ?_ har; decide)
    | intro _ _ _
    | intro _ _)

def Touch.execDmaStop : Nat := 0x20000000000000000000000000000000000
theorem Keep.execDmaStop {a0 : Sys2Proof.Req}
    (har : Area.sub Touch.execDmaStop ar = true) (h : Keep ar s t) : KeepO ar s (Machine.execDmaStop a0 t) := by
  unfold Machine.execDmaStop
  repeat' (with_reducible first
    | assumption
    | apply KeepO.next
    | apply KeepO.ite
    | apply Keep.dmaStop
    | (refine Area.sub_trans (b := Touch.execDmaStop) ?_ har; decide)
    | intro _ _ _
    | intro _ _)

def Touch.execSsrcTimeout : Nat := 0x800000000000000000000000000000000000082000000000000000000000000010080000
theorem Keep.execSsrcTimeout
    (har : Area.sub Touch.execSsrcTimeout ar = true) (h : Keep ar s t) : KeepO ar s (Machine.execSsrcTimeout t) := by
  unfold Machine.execSsrcTimeout
  repeat' (with_reducible first
    | assumption
    | apply KeepO.next
    | apply KeepO.ite
    | apply Keep.ite
    | apply Keep.inputMark
    | apply Keep.ssrcRelease
    | (refine Area.sub_trans (b := Touch.execSsrcTimeout) ?_ har; decide)
    | split
    | intro _ _ _
    | intro _ _)

def Touch.execDmaStart : Nat := 0x20000000000000000000000000000000000
theorem Keep.execDmaStart {a0 : Sys2Proof.Req}
    (har : Area.sub Touch.execDmaStart ar = true) (h : Keep ar s t) : KeepO ar s (Machine.execDmaStart a0 t) := by
  unfold Machine.execDmaStart
  repeat' (with_reducible first
    | assumption
    | apply KeepO.next
    | apply KeepO.ite
    | apply Keep.dmaStart
    | (refine Area.sub_trans (b := Touch.execDmaStart) ?_ har; decide)
    | intro _ _ _
    | intro _ _)

def Touch.execDmaDescriptorDone : Nat := 0x8000000000000000000000000000000000000F0000000000000000000000000010080000
theorem Keep.execDmaDescriptorDone {bytes : List Sys2Proof.Byte} {abort : Bool}
    (har : Area.sub Touch.execDmaDescriptorDone ar = true) (h : Keep ar s t) : KeepO ar s (Machine.execDmaDescriptorDone bytes abort t) := by
  unfold Machine.execDmaDescriptorDone
  repeat' (with_reducible first
    | assumption
    | apply KeepO.next
    | apply KeepO.ite
    | (extract_lets +onlyGivenNames x; (first | apply KeepO.cut x | apply Keep.cut x); rotate_left; intro _; clear_value x; rotate_right; subst x)
    | (extract_lets +onlyGivenNames x; clear_value x)
    | apply Keep.ite
    | apply Keep.streamBytes
    | apply Keep.dmaAbort
    | apply Keep.dmaAdvance
    | (refine Area.sub_trans (b := Touch.execDmaDescriptorDone) ?_ har; decide)
    | split
    | intro _ _ _
    | intro _ _
    | (refine Keep.rec_intk ?_ ?_; rotate_left; first | assumption | apply Keep.streamBytes | apply Keep.dmaAbort | apply Keep.dmaAdvance | apply Keep.ite))

def Touch.execDmaRestart : Nat := 0x20000000000000000000000000000000000
theorem Keep.execDmaRestart {a0 : Sys2Proof.Req}
    (har : Area.sub Touch.execDmaRestart ar = true) (h : Keep ar s t) : KeepO ar s (Machine.execDmaRestart a0 t) := by
  unfold Machine.execDmaRestart
  repeat' (with_reducible first
    | assumption
    | apply KeepO.next
    | apply KeepO.ite
    | apply Keep.dmaRestart
    | (refine Area.sub_trans (b := Touch.execDmaRestart) ?_ har; decide)
    | intro _ _ _
    | intro _ _)

def Touch.execDmaRingResume : Nat := 0x8000000000000000000000000000000000000B0000000000000000000000000010080000
theorem Keep.execDmaRingResume {d : Option (List Sys2Proof.Byte)}
    (har : Area.sub Touch.execDmaRingResume ar = true) (h : Keep ar s t) : KeepO ar s (Machine.execDmaRingResume d t) := by
  unfold Machine.execDmaRingResume
  repeat' (with_reducible first
    | assumption
    | apply KeepO.next
    | apply KeepO.ite
    | (extract_lets +onlyGivenNames x; (first | apply KeepO.cut x | apply Keep.cut x); rotate_left; intro _; clear_value x; rotate_right; subst x)
    | (extract_lets +onlyGivenNames x; clear_value x)
    | apply Keep.ite
    | apply Keep.dmaRead
    | (refine Area.sub_trans (b := Touch.execDmaRingResume) ?_ har; decide)
    | split
    | intro _ _ _
    | intro _ _
    | (refine Keep.rec_intk ?_ ?_; rotate_left; first | assumption | apply Keep.dmaRead | apply Keep.ite))

end Sys2Proof
end

