-- ==== Sys2Proof/Laws/KeepMicroSeq.lean ====
section
/-!
SUPPORT. The operations and meanings of Machine/MicroSeq.lean keep what `Keep` says.
-/

namespace Sys2Proof

open Sys2Proof.Machine

variable {ar : Nat} {s t u : Machine.State}

def Touch.cacheRead : Nat := 0x10002000
theorem Keep.cacheRead {n : Nat} {p : Plane} {lines : List Nat}
    (har : Area.sub Touch.cacheRead ar = true) (h : Keep ar s t) : Keep ar s (Machine.State.cacheRead t n p lines) := by
  unfold Machine.State.cacheRead
  repeat' (with_reducible first
    | assumption
    | (extract_lets +onlyGivenNames x; (apply Keep.cut x); rotate_left; intro _; clear_value x; rotate_right; subst x)
    | (extract_lets +onlyGivenNames x; have hf : (∀ z, x z = x z) := fun _ => rfl; clear hf; subst x; try dsimp -zeta only)
    | (extract_lets +onlyGivenNames x; clear_value x)
    | apply Keep.ite
    | apply Keep.emit
    | apply Keep.setTile
    | (refine Area.sub_trans (b := Touch.cacheRead) ?_ har; decide)
    | apply Keep.foldl
    | dsimp -zeta only
    | split
    | intro _ _ _
    | intro _ _)

def Touch.endThread : Nat := 0x280000800000000000000000000000000000000000000000001E0CC117000000027C4018007132
theorem Keep.endThread {n : Nat} {a2 : Nat}
    (har : Area.sub Touch.endThread ar = true) (h : Keep ar s t) : Keep ar s (Machine.State.endThread t n a2) := by
  unfold Machine.State.endThread
  repeat' (with_reducible first
    | assumption
    | (extract_lets +onlyGivenNames x; (apply Keep.cut x); rotate_left; intro _; clear_value x; rotate_right; subst x)
    | (extract_lets +onlyGivenNames x; have hf : (∀ z, x z = x z) := fun _ => rfl; clear hf; subst x; try dsimp -zeta only)
    | (extract_lets +onlyGivenNames x; clear_value x)
    | apply Keep.setTile
    | apply Keep.settle
    | (refine Area.sub_trans (b := Touch.endThread) ?_ har; decide)
    | dsimp -zeta only
    | intro _ _ _
    | intro _ _)

def Touch.micro : Nat := 0x0
theorem Keep.micro {n : Nat} {a2 : Nat} {op : Nat} {f : Nat → Thread → Plane → State} (hf : ∀ (z0 : Nat) (z1 : Thread) (z2 : Plane), Keep ar s (f z0 z1 z2))
    (har : Area.sub Touch.micro ar = true) (h : Keep ar s t) : KeepO ar s (Machine.State.micro t n a2 op f) := by
  unfold Machine.State.micro
  repeat' (with_reducible first
    | assumption
    | apply KeepO.next
    | apply KeepO.ite
    | (extract_lets +onlyGivenNames x; (first | apply KeepO.cut x | apply Keep.cut x); rotate_left; intro _; clear_value x; rotate_right; subst x)
    | (extract_lets +onlyGivenNames x; clear_value x)
    | apply Keep.ite
    | apply hf
    | split
    | intro _ _ _
    | intro _ _)

def Touch.setThread : Nat := 0x2000
theorem Keep.setThread {n : Nat} {a2 : Nat} {th : Thread}
    (har : Area.sub Touch.setThread ar = true) (h : Keep ar s t) : Keep ar s (Machine.State.setThread t n a2 th) := by
  unfold Machine.State.setThread
  repeat' (with_reducible first
    | assumption
    | (extract_lets +onlyGivenNames x; (apply Keep.cut x); rotate_left; intro _; clear_value x; rotate_right; subst x)
    | (extract_lets +onlyGivenNames x; have hf : (∀ z, x z = x z) := fun _ => rfl; clear hf; subst x; try dsimp -zeta only)
    | (extract_lets +onlyGivenNames x; clear_value x)
    | apply Keep.ite
    | apply Keep.setTile
    | (refine Area.sub_trans (b := Touch.setThread) ?_ har; decide)
    | dsimp -zeta only
    | split
    | intro _ _ _
    | intro _ _)

def Touch.microBinary : Nat := 0x2000
theorem Keep.microBinary {n : Nat} {a2 : Nat} {op : Nat} {g : Sys2Proof.Word → Sys2Proof.Word → Sys2Proof.Word}
    (har : Area.sub Touch.microBinary ar = true) (h : Keep ar s t) : KeepO ar s (Machine.State.microBinary t n a2 op g) := by
  unfold Machine.State.microBinary
  repeat' (with_reducible first
    | assumption
    | apply KeepO.next
    | apply KeepO.ite
    | apply Keep.micro
    | apply Keep.setThread
    | (refine Area.sub_trans (b := Touch.microBinary) ?_ har; decide)
    | intro _ _ _
    | intro _ _)

def Touch.execConst : Nat := 0x2000
theorem Keep.execConst {n : Nat} {a1 : Nat}
    (har : Area.sub Touch.execConst ar = true) (h : Keep ar s t) : KeepO ar s (Machine.execConst n a1 t) := by
  unfold Machine.execConst
  repeat' (with_reducible first
    | assumption
    | apply KeepO.next
    | apply KeepO.ite
    | apply Keep.micro
    | apply Keep.setThread
    | (refine Area.sub_trans (b := Touch.execConst) ?_ har; decide)
    | intro _ _ _
    | intro _ _)

def Touch.execParam : Nat := 0x2000
theorem Keep.execParam {n : Nat} {a1 : Nat}
    (har : Area.sub Touch.execParam ar = true) (h : Keep ar s t) : KeepO ar s (Machine.execParam n a1 t) := by
  unfold Machine.execParam
  repeat' (with_reducible first
    | assumption
    | apply KeepO.next
    | apply KeepO.ite
    | apply Keep.micro
    | apply Keep.setThread
    | (refine Area.sub_trans (b := Touch.execParam) ?_ har; decide)
    | intro _ _ _
    | intro _ _)

def Touch.execFstep : Nat := 0x2000
theorem Keep.execFstep {n : Nat} {a1 : Nat}
    (har : Area.sub Touch.execFstep ar = true) (h : Keep ar s t) : KeepO ar s (Machine.execFstep n a1 t) := by
  unfold Machine.execFstep
  repeat' (with_reducible first
    | assumption
    | apply KeepO.next
    | apply KeepO.ite
    | apply Keep.microBinary
    | (refine Area.sub_trans (b := Touch.execFstep) ?_ har; decide)
    | intro _ _ _
    | intro _ _)

def Touch.execAnd : Nat := 0x2000
theorem Keep.execAnd {n : Nat} {a1 : Nat}
    (har : Area.sub Touch.execAnd ar = true) (h : Keep ar s t) : KeepO ar s (Machine.execAnd n a1 t) := by
  unfold Machine.execAnd
  repeat' (with_reducible first
    | assumption
    | apply KeepO.next
    | apply KeepO.ite
    | apply Keep.microBinary
    | (refine Area.sub_trans (b := Touch.execAnd) ?_ har; decide)
    | intro _ _ _
    | intro _ _)

def Touch.execEmit : Nat := 0x8000000000000000000000000000000000000000000010A0000000000000000010002000
theorem Keep.execEmit {n : Nat} {a1 : Nat}
    (har : Area.sub Touch.execEmit ar = true) (h : Keep ar s t) : KeepO ar s (Machine.execEmit n a1 t) := by
  unfold Machine.execEmit
  repeat' (with_reducible first
    | assumption
    | apply KeepO.next
    | apply KeepO.ite
    | (extract_lets +onlyGivenNames x; (first | apply KeepO.cut x | apply Keep.cut x); rotate_left; intro _; clear_value x; rotate_right; subst x)
    | (extract_lets +onlyGivenNames x; have hf : (∀ z, x z = x z) := fun _ => rfl; clear hf; subst x; try dsimp -zeta only)
    | (extract_lets +onlyGivenNames x; clear_value x)
    | apply Keep.ite
    | apply Keep.bump
    | apply Keep.sendToken
    | apply Keep.tileEvent
    | apply Keep.micro
    | apply Keep.setThread
    | refine KeepSome.of_eq ?_ (by assumption)
    | apply KeepSome.getD
    | (refine Area.sub_trans (b := Touch.execEmit) ?_ har; decide)
    | (refine Area.fld_mono (a := Touch.execEmit) ?_ har; decide)
    | dsimp -zeta only
    | split
    | intro _ _ _
    | intro _ _)

def Touch.execBadOp : Nat := 0x280000800000000000000000000000000000000000000000001EACC117000000027C4018007132
theorem Keep.execBadOp {n : Nat} {a1 : Nat}
    (har : Area.sub Touch.execBadOp ar = true) (h : Keep ar s t) : KeepO ar s (Machine.execBadOp n a1 t) := by
  unfold Machine.execBadOp
  repeat' (with_reducible first
    | assumption
    | apply KeepO.next
    | apply KeepO.ite
    | (extract_lets +onlyGivenNames x; (first | apply KeepO.cut x | apply Keep.cut x); rotate_left; intro _; clear_value x; rotate_right; subst x)
    | (extract_lets +onlyGivenNames x; clear_value x)
    | apply Keep.ite
    | apply Keep.bump
    | apply Keep.tileEvent
    | apply Keep.endThread
    | (refine Area.sub_trans (b := Touch.execBadOp) ?_ har; decide)
    | (refine Area.fld_mono (a := Touch.execBadOp) ?_ har; decide)
    | split
    | intro _ _ _
    | intro _ _)

def Touch.execAdd : Nat := 0x2000
theorem Keep.execAdd {n : Nat} {a1 : Nat}
    (har : Area.sub Touch.execAdd ar = true) (h : Keep ar s t) : KeepO ar s (Machine.execAdd n a1 t) := by
  unfold Machine.execAdd
  repeat' (with_reducible first
    | assumption
    | apply KeepO.next
    | apply KeepO.ite
    | apply Keep.microBinary
    | (refine Area.sub_trans (b := Touch.execAdd) ?_ har; decide)
    | intro _ _ _
    | intro _ _)

def Touch.execOr : Nat := 0x2000
theorem Keep.execOr {n : Nat} {a1 : Nat}
    (har : Area.sub Touch.execOr ar = true) (h : Keep ar s t) : KeepO ar s (Machine.execOr n a1 t) := by
  unfold Machine.execOr
  repeat' (with_reducible first
    | assumption
    | apply KeepO.next
    | apply KeepO.ite
    | apply Keep.microBinary
    | (refine Area.sub_trans (b := Touch.execOr) ?_ har; decide)
    | intro _ _ _
    | intro _ _)

def Touch.execLd : Nat := 0x8002000
theorem Keep.execLd {n : Nat} {a1 : Nat}
    (har : Area.sub Touch.execLd ar = true) (h : Keep ar s t) : KeepO ar s (Machine.execLd n a1 t) := by
  unfold Machine.execLd
  repeat' (with_reducible first
    | assumption
    | apply KeepO.next
    | apply KeepO.ite
    | (extract_lets +onlyGivenNames x; (first | apply KeepO.cut x | apply Keep.cut x); rotate_left; intro _; clear_value x; rotate_right; subst x)
    | (extract_lets +onlyGivenNames x; have hf : (∀ z, x z = x z) := fun _ => rfl; clear hf; subst x; try dsimp -zeta only)
    | (extract_lets +onlyGivenNames x; clear_value x)
    | apply Keep.ite
    | apply Keep.tookFree
    | apply Keep.micro
    | apply Keep.setThread
    | (refine Area.sub_trans (b := Touch.execLd) ?_ har; decide)
    | dsimp -zeta only
    | split
    | intro _ _ _
    | intro _ _)

def Touch.execShift : Nat := 0x2000
theorem Keep.execShift {n : Nat} {a1 : Nat}
    (har : Area.sub Touch.execShift ar = true) (h : Keep ar s t) : KeepO ar s (Machine.execShift n a1 t) := by
  unfold Machine.execShift
  repeat' (with_reducible first
    | assumption
    | apply KeepO.next
    | apply KeepO.ite
    | apply Keep.microBinary
    | (refine Area.sub_trans (b := Touch.execShift) ?_ har; decide)
    | intro _ _ _
    | intro _ _)

def Touch.execBudget : Nat := 0x2000
theorem Keep.execBudget {n : Nat} {a1 : Nat}
    (har : Area.sub Touch.execBudget ar = true) (h : Keep ar s t) : KeepO ar s (Machine.execBudget n a1 t) := by
  unfold Machine.execBudget
  repeat' (with_reducible first
    | assumption
    | apply KeepO.next
    | apply KeepO.ite
    | apply Keep.micro
    | apply Keep.setThread
    | (refine Area.sub_trans (b := Touch.execBudget) ?_ har; decide)
    | intro _ _ _
    | intro _ _)

def Touch.execXor : Nat := 0x2000
theorem Keep.execXor {n : Nat} {a1 : Nat}
    (har : Area.sub Touch.execXor ar = true) (h : Keep ar s t) : KeepO ar s (Machine.execXor n a1 t) := by
  unfold Machine.execXor
  repeat' (with_reducible first
    | assumption
    | apply KeepO.next
    | apply KeepO.ite
    | apply Keep.microBinary
    | (refine Area.sub_trans (b := Touch.execXor) ?_ har; decide)
    | intro _ _ _
    | intro _ _)

def Touch.execSt : Nat := 0x2000
theorem Keep.execSt {n : Nat} {a1 : Nat}
    (har : Area.sub Touch.execSt ar = true) (h : Keep ar s t) : KeepO ar s (Machine.execSt n a1 t) := by
  unfold Machine.execSt
  repeat' (with_reducible first
    | assumption
    | apply KeepO.next
    | apply KeepO.ite
    | (extract_lets +onlyGivenNames x; (first | apply KeepO.cut x | apply Keep.cut x); rotate_left; intro _; clear_value x; rotate_right; subst x)
    | (extract_lets +onlyGivenNames x; have hf : (∀ z, x z = x z) := fun _ => rfl; clear hf; subst x; try dsimp -zeta only)
    | (extract_lets +onlyGivenNames x; clear_value x)
    | apply Keep.ite
    | apply Keep.setTile
    | apply Keep.micro
    | apply Keep.setThread
    | (refine Area.sub_trans (b := Touch.execSt) ?_ har; decide)
    | apply Keep.foldl
    | dsimp -zeta only
    | split
    | intro _ _ _
    | intro _ _)

def Touch.execWait : Nat := 0x2000
theorem Keep.execWait {n : Nat} {a1 : Nat}
    (har : Area.sub Touch.execWait ar = true) (h : Keep ar s t) : KeepO ar s (Machine.execWait n a1 t) := by
  unfold Machine.execWait
  repeat' (with_reducible first
    | assumption
    | apply KeepO.next
    | apply KeepO.ite
    | (extract_lets +onlyGivenNames x; (first | apply KeepO.cut x | apply Keep.cut x); rotate_left; intro _; clear_value x; rotate_right; subst x)
    | (extract_lets +onlyGivenNames x; have hf : (∀ z, x z = x z) := fun _ => rfl; clear hf; subst x; try dsimp -zeta only)
    | (extract_lets +onlyGivenNames x; clear_value x)
    | apply Keep.micro
    | apply Keep.setThread
    | (refine Area.sub_trans (b := Touch.execWait) ?_ har; decide)
    | dsimp -zeta only
    | intro _ _ _
    | intro _ _)

def Touch.execMul : Nat := 0x2000
theorem Keep.execMul {n : Nat} {a1 : Nat}
    (har : Area.sub Touch.execMul ar = true) (h : Keep ar s t) : KeepO ar s (Machine.execMul n a1 t) := by
  unfold Machine.execMul
  repeat' (with_reducible first
    | assumption
    | apply KeepO.next
    | apply KeepO.ite
    | apply Keep.microBinary
    | (refine Area.sub_trans (b := Touch.execMul) ?_ har; decide)
    | intro _ _ _
    | intro _ _)

def Touch.execEndThread : Nat := 0x280000800000000000000000000000000000000000000000001E0CC117000000027C4018007132
theorem Keep.execEndThread {n : Nat} {a1 : Nat}
    (har : Area.sub Touch.execEndThread ar = true) (h : Keep ar s t) : KeepO ar s (Machine.execEndThread n a1 t) := by
  unfold Machine.execEndThread
  repeat' (with_reducible first
    | assumption
    | apply KeepO.next
    | apply KeepO.ite
    | apply Keep.endThread
    | apply Keep.micro
    | (refine Area.sub_trans (b := Touch.execEndThread) ?_ har; decide)
    | intro _ _ _
    | intro _ _)

def Touch.execBr : Nat := 0x2000
theorem Keep.execBr {n : Nat} {a1 : Nat}
    (har : Area.sub Touch.execBr ar = true) (h : Keep ar s t) : KeepO ar s (Machine.execBr n a1 t) := by
  unfold Machine.execBr
  repeat' (with_reducible first
    | assumption
    | apply KeepO.next
    | apply KeepO.ite
    | (extract_lets +onlyGivenNames x; (first | apply KeepO.cut x | apply Keep.cut x); rotate_left; intro _; clear_value x; rotate_right; subst x)
    | (extract_lets +onlyGivenNames x; have hf : (∀ z, x z = x z) := fun _ => rfl; clear hf; subst x; try dsimp -zeta only)
    | (extract_lets +onlyGivenNames x; clear_value x)
    | apply Keep.ite
    | apply Keep.micro
    | apply Keep.setThread
    | (refine Area.sub_trans (b := Touch.execBr) ?_ har; decide)
    | dsimp -zeta only
    | split
    | intro _ _ _
    | intro _ _)

def Touch.execLdi : Nat := 0x2000
theorem Keep.execLdi {n : Nat} {a1 : Nat}
    (har : Area.sub Touch.execLdi ar = true) (h : Keep ar s t) : KeepO ar s (Machine.execLdi n a1 t) := by
  unfold Machine.execLdi
  repeat' (with_reducible first
    | assumption
    | apply KeepO.next
    | apply KeepO.ite
    | apply Keep.micro
    | apply Keep.setThread
    | (refine Area.sub_trans (b := Touch.execLdi) ?_ har; decide)
    | intro _ _ _
    | intro _ _)

def Touch.execLaneSampleDone : Nat := 0x10002000
theorem Keep.execLaneSampleDone {n : Nat} {lane : Nat} {q : Sys2Proof.TexelQuad} {lines : List Nat}
    (har : Area.sub Touch.execLaneSampleDone ar = true) (h : Keep ar s t) : KeepO ar s (Machine.execLaneSampleDone n lane q lines t) := by
  unfold Machine.execLaneSampleDone
  repeat' (with_reducible first
    | assumption
    | apply KeepO.next
    | apply KeepO.ite
    | (extract_lets +onlyGivenNames x; (first | apply KeepO.cut x | apply Keep.cut x); rotate_left; intro _; clear_value x; rotate_right; subst x)
    | (extract_lets +onlyGivenNames x; have hf : (∀ z, x z = x z) := fun _ => rfl; clear hf; subst x; try dsimp -zeta only)
    | (extract_lets +onlyGivenNames x; clear_value x)
    | apply Keep.ite
    | apply Keep.setTile
    | apply Keep.cacheRead
    | (refine Area.sub_trans (b := Touch.execLaneSampleDone) ?_ har; decide)
    | dsimp -zeta only
    | split
    | intro _ _ _
    | intro _ _)

def Touch.execSample : Nat := 0x2000
theorem Keep.execSample {n : Nat} {a1 : Nat}
    (har : Area.sub Touch.execSample ar = true) (h : Keep ar s t) : KeepO ar s (Machine.execSample n a1 t) := by
  unfold Machine.execSample
  repeat' (with_reducible first
    | assumption
    | apply KeepO.next
    | apply KeepO.ite
    | (extract_lets +onlyGivenNames x; (first | apply KeepO.cut x | apply Keep.cut x); rotate_left; intro _; clear_value x; rotate_right; subst x)
    | (extract_lets +onlyGivenNames x; have hf : (∀ z, x z = x z) := fun _ => rfl; clear hf; subst x; try dsimp -zeta only)
    | (extract_lets +onlyGivenNames x; clear_value x)
    | apply Keep.ite
    | apply Keep.setTile
    | apply Keep.micro
    | apply Keep.setThread
    | (refine Area.sub_trans (b := Touch.execSample) ?_ har; decide)
    | dsimp -zeta only
    | split
    | intro _ _ _
    | intro _ _)

def Touch.execSub : Nat := 0x2000
theorem Keep.execSub {n : Nat} {a1 : Nat}
    (har : Area.sub Touch.execSub ar = true) (h : Keep ar s t) : KeepO ar s (Machine.execSub n a1 t) := by
  unfold Machine.execSub
  repeat' (with_reducible first
    | assumption
    | apply KeepO.next
    | apply KeepO.ite
    | apply Keep.microBinary
    | (refine Area.sub_trans (b := Touch.execSub) ?_ har; decide)
    | intro _ _ _
    | intro _ _)

end Sys2Proof
end

