-- ==== Sys2Proof/Laws/KeepPseq.lean ====
section
/-!
SUPPORT. The operations and meanings of Machine/Pseq.lean keep what `Keep` says.
-/

namespace Sys2Proof

open Sys2Proof.Machine

variable {ar : Nat} {s t u : Machine.State}

def Touch.bandBegin : Nat := 0x2000
theorem Keep.bandBegin
    (har : Area.sub Touch.bandBegin ar = true) (h : Keep ar s t) : Keep ar s (Machine.State.bandBegin t) := by
  unfold Machine.State.bandBegin
  repeat' (with_reducible first
    | assumption
    | (extract_lets +onlyGivenNames x; (apply Keep.cut x); rotate_left; intro _; clear_value x; rotate_right; subst x)
    | (extract_lets +onlyGivenNames x; have hf : (∀ z, x z = x z) := fun _ => rfl; clear hf; subst x; try dsimp -zeta only)
    | (extract_lets +onlyGivenNames x; clear_value x)
    | apply Keep.setTile
    | (refine Area.sub_trans (b := Touch.bandBegin) ?_ har; decide)
    | apply Keep.foldl
    | dsimp -zeta only
    | intro _ _ _
    | intro _ _
    | (refine Keep.rec_fab ?_ ?_; rotate_left; first | assumption | apply Keep.setTile | apply Keep.foldl))

def Touch.captureBand : Nat := 0x2000000
theorem Keep.captureBand {p : Nat} {vals : List (Nat × Nat × Nat)} {last : Bool}
    (har : Area.sub Touch.captureBand ar = true) (h : Keep ar s t) : Keep ar s (Machine.State.captureBand t p vals last) := by
  unfold Machine.State.captureBand
  repeat' (with_reducible first
    | assumption
    | (extract_lets +onlyGivenNames x; (apply Keep.cut x); rotate_left; intro _; clear_value x; rotate_right; subst x)
    | (extract_lets +onlyGivenNames x; clear_value x)
    | apply Keep.ite
    | (refine Area.sub_trans (b := Touch.captureBand) ?_ har; decide)
    | split
    | (refine Keep.rec_host ?_ ?_; rotate_left; first | assumption | apply Keep.ite))

def Touch.recoverTile : Nat := 0x8000000000000000000002000
theorem Keep.recoverTile {n : Nat}
    (har : Area.sub Touch.recoverTile ar = true) (h : Keep ar s t) : Keep ar s (Machine.State.recoverTile t n) := by
  unfold Machine.State.recoverTile
  repeat' (with_reducible first
    | assumption
    | (extract_lets +onlyGivenNames x; (apply Keep.cut x); rotate_left; intro _; clear_value x; rotate_right; subst x)
    | (extract_lets +onlyGivenNames x; clear_value x)
    | apply Keep.ite
    | apply Keep.put
    | apply Keep.setTile
    | (refine Area.sub_trans (b := Touch.recoverTile) ?_ har; decide)
    | (refine Area.fld_mono (a := Touch.recoverTile) ?_ har; decide)
    | split
    | intro _ _ _
    | intro _ _)

def Touch.subframeTokens : Nat := 0x10002000
theorem Keep.subframeTokens
    (har : Area.sub Touch.subframeTokens ar = true) (h : Keep ar s t) : Keep ar s (Machine.State.subframeTokens t) := by
  unfold Machine.State.subframeTokens
  repeat' (with_reducible first
    | assumption
    | (extract_lets +onlyGivenNames x; (apply Keep.cut x); rotate_left; intro _; clear_value x; rotate_right; subst x)
    | (extract_lets +onlyGivenNames x; clear_value x)
    | apply Keep.ite
    | apply Keep.sourceTokens
    | (refine Area.sub_trans (b := Touch.subframeTokens) ?_ har; decide)
    | split
    | intro _ _ _
    | intro _ _)

def Touch.nextBand : Nat := 0x10000000000000000000000010042000
theorem Keep.nextBand {k : Nat}
    (har : Area.sub Touch.nextBand ar = true) (h : Keep ar s t) : Keep ar s (Machine.State.nextBand t k) := by
  unfold Machine.State.nextBand
  repeat' (with_reducible first
    | assumption
    | (extract_lets +onlyGivenNames x; (apply Keep.cut x); rotate_left; intro _; clear_value x; rotate_right; subst x)
    | (extract_lets +onlyGivenNames x; clear_value x)
    | apply Keep.ite
    | (refine Keep.setBase ?_ ⟨by decide, by decide⟩ ?_)
    | apply Keep.bandBegin
    | apply Keep.subframeTokens
    | (refine Area.sub_trans (b := Touch.nextBand) ?_ har; decide)
    | (refine Area.fld_mono (a := Touch.nextBand) ?_ har; decide)
    | split
    | intro _ _ _
    | intro _ _
    | (refine Keep.rec_view ?_ ?_; rotate_left; first | assumption | apply Keep.setWord | apply Keep.bandBegin | apply Keep.subframeTokens | apply Keep.ite))

def Touch.bandFinish : Nat := 0x80000000000000000000000E00000000000000001E000008000000000000000012262200
theorem Keep.bandFinish {k : Nat} {j : BandJob} {late : List Nat} {overran : Bool}
    (har : Area.sub Touch.bandFinish ar = true) (h : Keep ar s t) : Keep ar s (Machine.State.bandFinish t k j late overran) := by
  unfold Machine.State.bandFinish
  repeat' (with_reducible first
    | assumption
    | (extract_lets +onlyGivenNames x; (apply Keep.cut x); rotate_left; intro _; clear_value x; rotate_right; subst x)
    | (extract_lets +onlyGivenNames x; have hf : (∀ z, x z = x z) := fun _ => rfl; clear hf; subst x; try dsimp -zeta only)
    | (extract_lets +onlyGivenNames x; clear_value x)
    | apply Keep.bumpBy
    | apply Keep.count
    | apply Keep.wmPass
    | apply Keep.captureBand
    | apply Keep.recoverTile
    | apply Keep.nextBand
    | (refine Area.sub_trans (b := Touch.bandFinish) ?_ har; decide)
    | (refine Area.fld_mono (a := Touch.bandFinish) ?_ har; decide)
    | apply Keep.foldl
    | dsimp -zeta only
    | intro _ _ _
    | intro _ _
    | (refine Keep.rec_pseq_comp ?_ ?_; rotate_left; first | assumption | apply Keep.bumpBy | apply Keep.count | apply Keep.wmPass | apply Keep.captureBand | apply Keep.recoverTile | apply Keep.nextBand | apply Keep.foldl))

def Touch.tileOverran : Nat := 0x8000000000000000000000000000000000000000000010C8000000000000000010002000
theorem Keep.tileOverran {n : Nat}
    (har : Area.sub Touch.tileOverran ar = true) (h : Keep ar s t) : Keep ar s (Machine.State.tileOverran t n) := by
  unfold Machine.State.tileOverran
  repeat' (with_reducible first
    | assumption
    | (extract_lets +onlyGivenNames x; (apply Keep.cut x); rotate_left; intro _; clear_value x; rotate_right; subst x)
    | (extract_lets +onlyGivenNames x; clear_value x)
    | apply Keep.put
    | apply Keep.bump
    | apply Keep.setTile
    | apply Keep.tileEvent
    | (refine Area.sub_trans (b := Touch.tileOverran) ?_ har; decide)
    | (refine Area.fld_mono (a := Touch.tileOverran) ?_ har; decide)
    | intro _ _ _
    | intro _ _)

def Touch.bandOverrun : Nat := 0x28000080000000000000000000000E00000000000000003E0010C8000000000000000012262220
theorem Keep.bandOverrun {k : Nat} {j : BandJob} {slow : List Nat}
    (har : Area.sub Touch.bandOverrun ar = true) (h : Keep ar s t) : Keep ar s (Machine.State.bandOverrun t k j slow) := by
  unfold Machine.State.bandOverrun
  repeat' (with_reducible first
    | assumption
    | (extract_lets +onlyGivenNames x; (apply Keep.cut x); rotate_left; intro _; clear_value x; rotate_right; subst x)
    | (extract_lets +onlyGivenNames x; have hf : (∀ z, x z = x z) := fun _ => rfl; clear hf; subst x; try dsimp -zeta only)
    | (extract_lets +onlyGivenNames x; clear_value x)
    | apply Keep.raise
    | apply Keep.offer
    | apply Keep.bandFinish
    | apply Keep.tileOverran
    | (refine Area.sub_trans (b := Touch.bandOverrun) ?_ har; decide)
    | (refine Area.fld_mono (a := Touch.bandOverrun) ?_ har; decide)
    | apply Keep.foldl
    | dsimp -zeta only
    | intro _ _ _
    | intro _ _)

def Touch.driveCode : Nat := 0x200
theorem Keep.driveCode {k : WriteKind} {row : Nat} {col : Nat} {v : Nat}
    (har : Area.sub Touch.driveCode ar = true) (h : Keep ar s t) : KeepFst ar s (Machine.State.driveCode t k row col v) := by
  unfold Machine.State.driveCode
  repeat' (with_reducible first
    | assumption
    | apply KeepFst.mk
    | apply KeepFst.ite
    | (extract_lets +onlyGivenNames x; (first | apply KeepFst.cut1 x | apply Keep.cut x); rotate_left; intro _; clear_value x; rotate_right; subst x)
    | (extract_lets +onlyGivenNames x; clear_value x)
    | apply Keep.ite
    | (refine Area.sub_trans (b := Touch.driveCode) ?_ har; decide)
    | split
    | (refine Keep.rec_pseq ?_ ?_; rotate_left; first | assumption | apply Keep.ite))

def Touch.driveRow : Nat := 0x200
theorem Keep.driveRow {row : Nat} {a2 : List (Nat × Nat)}
    (har : Area.sub Touch.driveRow ar = true) (h : Keep ar s t) : KeepFst ar s (Machine.State.driveRow t row a2) := by
  induction a2 generalizing t with
  | nil => exact h
  | cons e l ih =>
    unfold Machine.State.driveRow
    split
    · exact ih h
    · exact ih (Keep.driveCode (Area.sub_trans (b := Touch.driveRow) (by decide) har) h)

def Touch.sendRow : Nat := 0x10000200
theorem Keep.sendRow {row : Nat} {vals : List (Nat × Nat)}
    (har : Area.sub Touch.sendRow ar = true) (h : Keep ar s t) : Keep ar s (Machine.State.sendRow t row vals) := by
  unfold Machine.State.sendRow
  repeat' (with_reducible first
    | assumption
    | (extract_lets +onlyGivenNames x; (apply Keep.cut x); rotate_left; intro _; clear_value x; rotate_right; subst x)
    | (extract_lets +onlyGivenNames x; refine KeepFst.cut (m := ar) (s := s) x ?_ (fun hx => ?_); rotate_left; clear_value x; obtain ⟨x, y⟩ := x; dsimp -zeta only at hx ⊢; rotate_right; subst x)
    | (extract_lets +onlyGivenNames x; clear_value x)
    | apply Keep.ite
    | split
    | apply KeepFst.mk
    | apply KeepFst.ite
    | apply Keep.driveRow
    | apply Keep.sendLine
    | (refine KeepFst.of_eq ?_ (by assumption); first | apply Keep.driveRow | apply KeepFst.ite)
    | (apply KeepFst.fst; first | apply Keep.driveRow)
    | (refine Area.sub_trans (b := Touch.sendRow) ?_ har; decide)
    | intro _ _ _
    | intro _ _
    | (refine Keep.rec_pseq ?_ ?_; rotate_left; first | assumption | apply Keep.driveRow | apply Keep.sendLine | (refine KeepFst.of_eq ?_ (by assumption); first | apply Keep.driveRow | apply KeepFst.ite) | (apply KeepFst.fst; first | apply Keep.driveRow) | apply Keep.ite))

def Touch.groupIdle : Nat := 0x81000000000000000000000000000000000000000000000000010000000
theorem Keep.groupIdle {sent : List (Nat × Nat)} {g : Nat}
    (har : Area.sub Touch.groupIdle ar = true) (h : Keep ar s t) : Keep ar s (Machine.State.groupIdle t sent g) := by
  unfold Machine.State.groupIdle
  repeat' (with_reducible first
    | assumption
    | (extract_lets +onlyGivenNames x; (apply Keep.cut x); rotate_left; intro _; clear_value x; rotate_right; subst x)
    | (extract_lets +onlyGivenNames x; have hf : (∀ z, x z = x z) := fun _ => rfl; clear hf; subst x; try dsimp -zeta only)
    | (extract_lets +onlyGivenNames x; clear_value x)
    | apply Keep.ite
    | apply Keep.grpPower
    | apply Keep.sendWake
    | (refine Area.sub_trans (b := Touch.groupIdle) ?_ har; decide)
    | dsimp -zeta only
    | split
    | intro _ _ _
    | intro _ _)

def Touch.keepCrcs : Nat := 0x200
theorem Keep.keepCrcs {k : Nat} {vals : List (Nat × Nat × Nat)}
    (har : Area.sub Touch.keepCrcs ar = true) (h : Keep ar s t) : Keep ar s (Machine.State.keepCrcs t k vals) := by
  unfold Machine.State.keepCrcs
  repeat' (with_reducible first
    | assumption
    | (extract_lets +onlyGivenNames x; (apply Keep.cut x); rotate_left; intro _; clear_value x; rotate_right; subst x)
    | (extract_lets +onlyGivenNames x; have hf : (∀ z, x z = x z) := fun _ => rfl; clear hf; subst x; try dsimp -zeta only)
    | (extract_lets +onlyGivenNames x; clear_value x)
    | apply Keep.ite
    | (refine Area.sub_trans (b := Touch.keepCrcs) ?_ har; decide)
    | dsimp -zeta only
    | split
    | (refine Keep.rec_pseq ?_ ?_; rotate_left; first | assumption | apply Keep.ite))

def Touch.openRun : Nat := 0x200
theorem Keep.openRun {a1 : Nat} {k : Nat} {run : Nat × Nat}
    (har : Area.sub Touch.openRun ar = true) (h : Keep ar s t) : Keep ar s (Machine.State.openRun t a1 k run) := by
  unfold Machine.State.openRun
  repeat' (with_reducible first
    | assumption
    | (extract_lets +onlyGivenNames x; (apply Keep.cut x); rotate_left; intro _; clear_value x; rotate_right; subst x)
    | (extract_lets +onlyGivenNames x; have hf : (∀ z, x z = x z) := fun _ => rfl; clear hf; subst x; try dsimp -zeta only)
    | (extract_lets +onlyGivenNames x; clear_value x)
    | apply Keep.ite
    | (refine Area.sub_trans (b := Touch.openRun) ?_ har; decide)
    | dsimp -zeta only
    | split
    | (refine Keep.rec_pseq ?_ ?_; rotate_left; first | assumption | apply Keep.ite))

def Touch.stillBand : Nat := 0x200
theorem Keep.stillBand {k : Nat} {vals : List (Nat × Nat × Nat)} {a3 : Nat}
    (har : Area.sub Touch.stillBand ar = true) (h : Keep ar s t) : Keep ar s (Machine.State.stillBand t k vals a3) := by
  unfold Machine.State.stillBand
  repeat' (with_reducible first
    | assumption
    | (extract_lets +onlyGivenNames x; (apply Keep.cut x); rotate_left; intro _; clear_value x; rotate_right; subst x)
    | (extract_lets +onlyGivenNames x; have hf : (∀ z, x z = x z) := fun _ => rfl; clear hf; subst x; try dsimp -zeta only)
    | (extract_lets +onlyGivenNames x; clear_value x)
    | apply Keep.openRun
    | (refine Area.sub_trans (b := Touch.stillBand) ?_ har; decide)
    | apply Keep.foldl
    | dsimp -zeta only
    | intro _ _ _
    | intro _ _)

def Touch.bandSend : Nat := 0x81000000000000000000000000000000000000000000000000010000200
theorem Keep.bandSend {k : Nat} {vals : List (Nat × Nat × Nat)}
    (har : Area.sub Touch.bandSend ar = true) (h : Keep ar s t) : Keep ar s (Machine.State.bandSend t k vals) := by
  unfold Machine.State.bandSend
  repeat' (with_reducible first
    | assumption
    | (extract_lets +onlyGivenNames x; (apply Keep.cut x); rotate_left; intro _; clear_value x; rotate_right; subst x)
    | (extract_lets +onlyGivenNames x; have hf : (∀ z, x z = x z) := fun _ => rfl; clear hf; subst x; try dsimp -zeta only)
    | (extract_lets +onlyGivenNames x; clear_value x)
    | apply Keep.ite
    | apply Keep.sendRow
    | apply Keep.groupIdle
    | apply Keep.keepCrcs
    | apply Keep.stillBand
    | (refine Area.sub_trans (b := Touch.bandSend) ?_ har; decide)
    | apply Keep.foldl
    | dsimp -zeta only
    | split
    | intro _ _ _
    | intro _ _)

def Touch.bandTemp : Nat := 0x280000800000000000000000400300000000000000000000000000000000000000000018000220
theorem Keep.bandTemp {a1 : Int}
    (har : Area.sub Touch.bandTemp ar = true) (h : Keep ar s t) : Keep ar s (Machine.State.bandTemp t a1) := by
  unfold Machine.State.bandTemp
  repeat' (with_reducible first
    | assumption
    | (extract_lets +onlyGivenNames x; (apply Keep.cut x); rotate_left; intro _; clear_value x; rotate_right; subst x)
    | (extract_lets +onlyGivenNames x; clear_value x)
    | apply Keep.ite
    | apply Keep.putI
    | apply Keep.bump
    | apply Keep.raiseRec
    | (refine Area.sub_trans (b := Touch.bandTemp) ?_ har; decide)
    | (refine Area.fld_mono (a := Touch.bandTemp) ?_ har; decide)
    | split
    | intro _ _ _
    | intro _ _
    | (refine Keep.rec_pseq ?_ ?_; rotate_left; first | assumption | apply Keep.putI | apply Keep.bump | apply Keep.raiseRec | apply Keep.ite))

def Touch.patternSelect : Nat := 0x400000000000000000000000000000000000000000000000000
theorem Keep.patternSelect {data : Nat}
    (har : Area.sub Touch.patternSelect ar = true) (h : Keep ar s t) : Keep ar s (Machine.State.patternSelect t data) := by
  unfold Machine.State.patternSelect
  repeat' (with_reducible first
    | assumption
    | apply Keep.put
    | (refine Area.sub_trans (b := Touch.patternSelect) ?_ har; decide)
    | (refine Area.fld_mono (a := Touch.patternSelect) ?_ har; decide)
    | intro _ _ _
    | intro _ _)

def Touch.execPatternSelect : Nat := 0x280000800030000000000000000400000000000000000000000000000000000000000010000120
theorem Keep.execPatternSelect {r : Sys2Proof.Req} {data : Nat}
    (har : Area.sub Touch.execPatternSelect ar = true) (h : Keep ar s t) : KeepO ar s (Machine.execPatternSelect r data t) := by
  unfold Machine.execPatternSelect
  repeat' (with_reducible first
    | assumption
    | apply KeepO.next
    | apply KeepO.ite
    | apply Keep.mirrored
    | apply Keep.patternSelect
    | (refine Area.sub_trans (b := Touch.execPatternSelect) ?_ har; decide)
    | intro _ _ _
    | intro _ _)

def Touch.rectStat : Nat := 0x4040000000000000000000000000000000000000000000000000
theorem Keep.rectStat
    (har : Area.sub Touch.rectStat ar = true) (h : Keep ar s t) : Keep ar s (Machine.State.rectStat t) := by
  unfold Machine.State.rectStat
  repeat' (with_reducible first
    | assumption
    | apply Keep.put
    | (refine Area.sub_trans (b := Touch.rectStat) ?_ har; decide)
    | (refine Area.fld_mono (a := Touch.rectStat) ?_ har; decide)
    | intro _ _ _
    | intro _ _)

def Touch.rectSubmit : Nat := 0x80000000000000000040C040000000000000000000000000000000000000000010000200
theorem Keep.rectSubmit {data : Nat}
    (har : Area.sub Touch.rectSubmit ar = true) (h : Keep ar s t) : Keep ar s (Machine.State.rectSubmit t data) := by
  unfold Machine.State.rectSubmit
  repeat' (with_reducible first
    | assumption
    | (extract_lets +onlyGivenNames x; (apply Keep.cut x); rotate_left; intro _; clear_value x; rotate_right; subst x)
    | (extract_lets +onlyGivenNames x; clear_value x)
    | apply Keep.ite
    | apply Keep.bump
    | apply Keep.raise
    | apply Keep.rectStat
    | (refine Area.sub_trans (b := Touch.rectSubmit) ?_ har; decide)
    | (refine Area.fld_mono (a := Touch.rectSubmit) ?_ har; decide)
    | split
    | intro _ _ _
    | intro _ _
    | (refine Keep.rec_pseq ?_ ?_; rotate_left; first | assumption | apply Keep.bump | apply Keep.raise | apply Keep.rectStat | apply Keep.ite))

def Touch.execRectSubmit : Nat := 0x28000080003000000000000040C040000000000000000000000000000000000000000010000320
theorem Keep.execRectSubmit {r : Sys2Proof.Req} {data : Nat}
    (har : Area.sub Touch.execRectSubmit ar = true) (h : Keep ar s t) : KeepO ar s (Machine.execRectSubmit r data t) := by
  unfold Machine.execRectSubmit
  repeat' (with_reducible first
    | assumption
    | apply KeepO.next
    | apply KeepO.ite
    | apply Keep.mirrored
    | apply Keep.rectSubmit
    | (refine Area.sub_trans (b := Touch.execRectSubmit) ?_ har; decide)
    | intro _ _ _
    | intro _ _)

def Touch.coldplateTemp : Nat := 0x280000800000000000000000400300000000000000000000000000000000000000000018000220
theorem Keep.coldplateTemp
    (har : Area.sub Touch.coldplateTemp ar = true) (h : Keep ar s t) : Keep ar s (Machine.State.coldplateTemp t) := by
  unfold Machine.State.coldplateTemp
  repeat' (with_reducible first
    | assumption
    | apply Keep.ite
    | apply Keep.bandTemp
    | (refine Area.sub_trans (b := Touch.coldplateTemp) ?_ har; decide)
    | split
    | intro _ _ _
    | intro _ _)

def Touch.unifReport : Nat := 0x3000000000000000000000000000000000000000000000000000
theorem Keep.unifReport
    (har : Area.sub Touch.unifReport ar = true) (h : Keep ar s t) : Keep ar s (Machine.State.unifReport t) := by
  unfold Machine.State.unifReport
  repeat' (with_reducible first
    | assumption
    | (extract_lets +onlyGivenNames x; (apply Keep.cut x); rotate_left; intro _; clear_value x; rotate_right; subst x)
    | (extract_lets +onlyGivenNames x; clear_value x)
    | apply Keep.put
    | apply Keep.putB
    | (refine Area.sub_trans (b := Touch.unifReport) ?_ har; decide)
    | (refine Area.fld_mono (a := Touch.unifReport) ?_ har; decide)
    | split
    | intro _ _ _
    | intro _ _)

def Touch.panelSensors : Nat := 0x200
theorem Keep.panelSensors {l : List (Nat × Nat × Int)}
    (har : Area.sub Touch.panelSensors ar = true) (h : Keep ar s t) : Keep ar s (Machine.State.panelSensors t l) := by
  unfold Machine.State.panelSensors
  repeat' (with_reducible first
    | assumption
    | (extract_lets +onlyGivenNames x; (apply Keep.cut x); rotate_left; intro _; clear_value x; rotate_right; subst x)
    | (extract_lets +onlyGivenNames x; have hf : (∀ z, x z = x z) := fun _ => rfl; clear hf; subst x; try dsimp -zeta only)
    | (extract_lets +onlyGivenNames x; clear_value x)
    | apply Keep.ite
    | (refine Area.sub_trans (b := Touch.panelSensors) ?_ har; decide)
    | apply Keep.foldl
    | dsimp -zeta only
    | split
    | intro _ _ _
    | intro _ _
    | (refine Keep.rec_pseq ?_ ?_; rotate_left; first | assumption | apply Keep.ite | apply Keep.foldl))

def Touch.setVcomWin : Nat := 0x200
theorem Keep.setVcomWin {r : Nat} {w : VcomWin}
    (har : Area.sub Touch.setVcomWin ar = true) (h : Keep ar s t) : Keep ar s (Machine.State.setVcomWin t r w) := by
  unfold Machine.State.setVcomWin
  repeat' (with_reducible first
    | assumption
    | (extract_lets +onlyGivenNames x; (apply Keep.cut x); rotate_left; intro _; clear_value x; rotate_right; subst x)
    | (extract_lets +onlyGivenNames x; have hf : (∀ z, x z = x z) := fun _ => rfl; clear hf; subst x; try dsimp -zeta only)
    | (extract_lets +onlyGivenNames x; clear_value x)
    | apply Keep.ite
    | (refine Area.sub_trans (b := Touch.setVcomWin) ?_ har; decide)
    | dsimp -zeta only
    | split
    | (refine Keep.rec_pseq ?_ ?_; rotate_left; first | assumption | apply Keep.ite))

def Touch.subframeSent : Nat := 0x28000080008C400000000000000000000000000000000000000000000000000000000010000320
theorem Keep.subframeSent
    (har : Area.sub Touch.subframeSent ar = true) (h : Keep ar s t) : Keep ar s (Machine.State.subframeSent t) := by
  unfold Machine.State.subframeSent
  repeat' (with_reducible first
    | assumption
    | (extract_lets +onlyGivenNames x; (apply Keep.cut x); rotate_left; intro _; clear_value x; rotate_right; subst x)
    | (extract_lets +onlyGivenNames x; clear_value x)
    | apply Keep.ite
    | apply Keep.sigSend
    | (refine Area.sub_trans (b := Touch.subframeSent) ?_ har; decide)
    | split
    | intro _ _ _
    | intro _ _
    | (refine Keep.rec_pseq ?_ ?_; rotate_left; first | assumption | apply Keep.sigSend | apply Keep.ite))

def Touch.vcomStep : Nat := 0x800000000000000000420000000000000000000000000000000000000000000010000000
theorem Keep.vcomStep {r : Nat} {up : Bool}
    (har : Area.sub Touch.vcomStep ar = true) (h : Keep ar s t) : Keep ar s (Machine.State.vcomStep t r up) := by
  unfold Machine.State.vcomStep
  repeat' (with_reducible first
    | assumption
    | (extract_lets +onlyGivenNames x; (apply Keep.cut x); rotate_left; intro _; clear_value x; rotate_right; subst x)
    | (extract_lets +onlyGivenNames x; clear_value x)
    | apply Keep.ite
    | apply Keep.put
    | apply Keep.raise
    | (refine Area.sub_trans (b := Touch.vcomStep) ?_ har; decide)
    | (refine Area.fld_mono (a := Touch.vcomStep) ?_ har; decide)
    | split
    | intro _ _ _
    | intro _ _)

def Touch.vcomSample : Nat := 0x800000000000000000420000000000000000000000000000000000000000000018000200
theorem Keep.vcomSample {thresh : Nat} {r : Nat} {e : Option Int} {taint : Bool}
    (har : Area.sub Touch.vcomSample ar = true) (h : Keep ar s t) : Keep ar s (Machine.State.vcomSample t thresh r e taint) := by
  unfold Machine.State.vcomSample
  repeat' (with_reducible first
    | assumption
    | (extract_lets +onlyGivenNames x; (apply Keep.cut x); rotate_left; intro _; clear_value x; rotate_right; subst x)
    | (extract_lets +onlyGivenNames x; clear_value x)
    | apply Keep.ite
    | apply Keep.putI
    | apply Keep.tookFree
    | apply Keep.setVcomWin
    | apply Keep.vcomStep
    | (refine Area.sub_trans (b := Touch.vcomSample) ?_ har; decide)
    | (refine Area.fld_mono (a := Touch.vcomSample) ?_ har; decide)
    | split
    | intro _ _ _
    | intro _ _)

def Touch.vcomExternal : Nat := 0x2800008000000000000000804200000000000000000000000000000000000000000000180002A0
theorem Keep.vcomExternal {ns : Nat} {vref : Nat} {volts : List Nat}
    (har : Area.sub Touch.vcomExternal ar = true) (h : Keep ar s t) : Keep ar s (Machine.State.vcomExternal t ns vref volts) := by
  unfold Machine.State.vcomExternal
  repeat' (with_reducible first
    | assumption
    | (extract_lets +onlyGivenNames x; (apply Keep.cut x); rotate_left; intro _; clear_value x; rotate_right; subst x)
    | (extract_lets +onlyGivenNames x; have hf : (∀ z, x z = x z) := fun _ => rfl; clear hf; subst x; try dsimp -zeta only)
    | (extract_lets +onlyGivenNames x; clear_value x)
    | apply Keep.ite
    | apply Keep.put
    | apply Keep.tookFree
    | apply Keep.offer
    | apply Keep.vcomSample
    | (refine Area.sub_trans (b := Touch.vcomExternal) ?_ har; decide)
    | (refine Area.fld_mono (a := Touch.vcomExternal) ?_ har; decide)
    | apply Keep.foldl
    | dsimp -zeta only
    | split
    | intro _ _ _
    | intro _ _
    | (refine Keep.rec_rail_pseq ?_ ?_; rotate_left; first | assumption | apply Keep.put | apply Keep.tookFree | apply Keep.offer | apply Keep.vcomSample | apply Keep.ite | apply Keep.foldl))

def Touch.vcomTrack : Nat := 0x80020000000000000000000000000000000000000000000000000080
theorem Keep.vcomTrack {volts : List Nat}
    (har : Area.sub Touch.vcomTrack ar = true) (h : Keep ar s t) : Keep ar s (Machine.State.vcomTrack t volts) := by
  unfold Machine.State.vcomTrack
  repeat' (with_reducible first
    | assumption
    | (extract_lets +onlyGivenNames x; (apply Keep.cut x); rotate_left; intro _; clear_value x; rotate_right; subst x)
    | (extract_lets +onlyGivenNames x; have hf : (∀ z, x z = x z) := fun _ => rfl; clear hf; subst x; try dsimp -zeta only)
    | (extract_lets +onlyGivenNames x; clear_value x)
    | apply Keep.put
    | (refine Area.sub_trans (b := Touch.vcomTrack) ?_ har; decide)
    | (refine Area.fld_mono (a := Touch.vcomTrack) ?_ har; decide)
    | apply Keep.foldl
    | dsimp -zeta only
    | split
    | intro _ _ _
    | intro _ _
    | (refine Keep.rec_rail ?_ ?_; rotate_left; first | assumption | apply Keep.put | apply Keep.foldl))

def Touch.execRowBandDeadline : Nat := 0x28000080008C40000008100000404E00000000000000003E0010C8000000000000000012262320
theorem Keep.execRowBandDeadline {own : List Sys2Proof.Ray} {shares : List Sys2Proof.Share} {slow : List Nat} {poisoned : List Sys2Proof.RayAt} {unfinished : List Sys2Proof.RayAt}
    (har : Area.sub Touch.execRowBandDeadline ar = true) (h : Keep ar s t) : KeepO ar s (Machine.execRowBandDeadline own shares slow poisoned unfinished t) := by
  unfold Machine.execRowBandDeadline
  refine KeepO.ite (KeepO.next h) ?_
  extract_lets k pattern mine s1 buf vals p2 s2 s3 g sigs exc own set p4 s4
  have h1 : Keep ar s s1 := Keep.ite h (Keep.ite (Keep.ite (h.nextBand (Area.sub_trans (b := Touch.execRowBandDeadline) (by decide) har)) h) (h.bandOverrun (Area.sub_trans (b := Touch.execRowBandDeadline) (by decide) har)))
  have h3 : Keep ar s s3 := Keep.bandSend (Area.sub_trans (b := Touch.execRowBandDeadline) (by decide) har) (Keep.put (Area.fld_mono (a := Touch.execRowBandDeadline) (by decide) har) (Keep.put (Area.fld_mono (a := Touch.execRowBandDeadline) (by decide) har) (Keep.rec_pseq (Area.sub_trans (b := Touch.execRowBandDeadline) (by decide) har) h1)))
  have h4 : Keep ar s s4 := Keep.rectStat (Area.sub_trans (b := Touch.execRowBandDeadline) (by decide) har) (Keep.rec_pseq (Area.sub_trans (b := Touch.execRowBandDeadline) (by decide) har) h3)
  exact KeepO.next (Keep.ite (h4.subframeSent (Area.sub_trans (b := Touch.execRowBandDeadline) (by decide) har)) h4)

def Touch.execRowBandComplete : Nat := 0x80000000000000000000000E00000000000000001E000008000000000000000012262200
theorem Keep.execRowBandComplete {own : List Sys2Proof.Ray} {shares : List Sys2Proof.Share} {poisoned : List Sys2Proof.RayAt}
    (har : Area.sub Touch.execRowBandComplete ar = true) (h : Keep ar s t) : KeepO ar s (Machine.execRowBandComplete own shares poisoned t) := by
  unfold Machine.execRowBandComplete
  repeat' (with_reducible first
    | assumption
    | apply KeepO.next
    | apply KeepO.ite
    | (extract_lets +onlyGivenNames x; (first | apply KeepO.cut x | apply Keep.cut x); rotate_left; intro _; clear_value x; rotate_right; subst x)
    | (extract_lets +onlyGivenNames x; clear_value x)
    | apply Keep.ite
    | apply Keep.bandFinish
    | (refine Area.sub_trans (b := Touch.execRowBandComplete) ?_ har; decide)
    | split
    | intro _ _ _
    | intro _ _)

def Touch.execPowerFailWarning : Nat := 0x2800008000000000000008024040400000000000000000000000000000000000000000100003B0
theorem Keep.execPowerFailWarning
    (har : Area.sub Touch.execPowerFailWarning ar = true) (h : Keep ar s t) : KeepO ar s (Machine.execPowerFailWarning t) := by
  unfold Machine.execPowerFailWarning
  repeat' (with_reducible first
    | assumption
    | apply KeepO.next
    | apply KeepO.ite
    | (extract_lets +onlyGivenNames x; (first | apply KeepO.cut x | apply Keep.cut x); rotate_left; intro _; clear_value x; rotate_right; subst x)
    | (extract_lets +onlyGivenNames x; clear_value x)
    | apply Keep.ite
    | apply Keep.raise
    | apply Keep.offer
    | apply Keep.sendFail
    | apply Keep.railOff
    | apply Keep.rectStat
    | (refine Area.sub_trans (b := Touch.execPowerFailWarning) ?_ har; decide)
    | (refine Area.fld_mono (a := Touch.execPowerFailWarning) ?_ har; decide)
    | split
    | intro _ _ _
    | intro _ _
    | (refine Keep.rec_pins_teph_pseq ?_ ?_; rotate_left; first | assumption | apply Keep.raise | apply Keep.offer | apply Keep.sendFail | apply Keep.railOff | apply Keep.rectStat | apply Keep.ite))

def Touch.execLensStep : Nat := 0x10000200
theorem Keep.execLensStep
    (har : Area.sub Touch.execLensStep ar = true) (h : Keep ar s t) : KeepO ar s (Machine.execLensStep t) := by
  unfold Machine.execLensStep
  repeat' (with_reducible first
    | assumption
    | apply KeepO.next
    | apply KeepO.ite
    | (extract_lets +onlyGivenNames x; (first | apply KeepO.cut x | apply Keep.cut x); rotate_left; intro _; clear_value x; rotate_right; subst x)
    | (extract_lets +onlyGivenNames x; have hf : (∀ z, x z = x z) := fun _ => rfl; clear hf; subst x; try dsimp -zeta only)
    | (extract_lets +onlyGivenNames x; clear_value x)
    | apply Keep.ite
    | apply Keep.emit
    | (refine Area.sub_trans (b := Touch.execLensStep) ?_ har; decide)
    | apply Keep.foldl
    | dsimp -zeta only
    | split
    | intro _ _ _
    | intro _ _
    | (refine Keep.rec_pseq ?_ ?_; rotate_left; first | assumption | apply Keep.emit | apply Keep.ite | apply Keep.foldl))

def Touch.execPanelTempTimeout : Nat := 0x280000800000000000000000400300000000000000000000000000000000000000000018000220
theorem Keep.execPanelTempTimeout
    (har : Area.sub Touch.execPanelTempTimeout ar = true) (h : Keep ar s t) : KeepO ar s (Machine.execPanelTempTimeout t) := by
  unfold Machine.execPanelTempTimeout
  repeat' (with_reducible first
    | assumption
    | apply KeepO.next
    | apply KeepO.ite
    | (extract_lets +onlyGivenNames x; (first | apply KeepO.cut x | apply Keep.cut x); rotate_left; intro _; clear_value x; rotate_right; subst x)
    | (extract_lets +onlyGivenNames x; clear_value x)
    | apply Keep.ite
    | apply Keep.put
    | apply Keep.recOther
    | apply Keep.coldplateTemp
    | (refine Area.sub_trans (b := Touch.execPanelTempTimeout) ?_ har; decide)
    | (refine Area.fld_mono (a := Touch.execPanelTempTimeout) ?_ har; decide)
    | split
    | intro _ _ _
    | intro _ _)

def Touch.execPanelTempReading : Nat := 0x280000800000000000000000400300000000000000000000000000000000000000000018000220
theorem Keep.execPanelTempReading {readings : List (Nat × Nat × Int)}
    (har : Area.sub Touch.execPanelTempReading ar = true) (h : Keep ar s t) : KeepO ar s (Machine.execPanelTempReading readings t) := by
  unfold Machine.execPanelTempReading
  repeat' (with_reducible first
    | assumption
    | apply KeepO.next
    | apply KeepO.ite
    | (extract_lets +onlyGivenNames x; (first | apply KeepO.cut x | apply Keep.cut x); rotate_left; intro _; clear_value x; rotate_right; subst x)
    | (extract_lets +onlyGivenNames x; have hf : (∀ z, x z = x z) := fun _ => rfl; clear hf; subst x; try dsimp -zeta only)
    | (extract_lets +onlyGivenNames x; clear_value x)
    | apply Keep.put
    | apply Keep.bandTemp
    | apply Keep.panelSensors
    | (refine Area.sub_trans (b := Touch.execPanelTempReading) ?_ har; decide)
    | (refine Area.fld_mono (a := Touch.execPanelTempReading) ?_ har; decide)
    | apply Keep.foldl
    | dsimp -zeta only
    | split
    | intro _ _ _
    | intro _ _
    | (refine Keep.rec_pseq ?_ ?_; rotate_left; first | assumption | apply Keep.put | apply Keep.bandTemp | apply Keep.panelSensors | apply Keep.foldl))

def Touch.execVcomErrorReport : Nat := 0x800000000000000000420000000000000000000000000000000000000000000018000200
theorem Keep.execVcomErrorReport {l : List Sys2Proof.VcomErr}
    (har : Area.sub Touch.execVcomErrorReport ar = true) (h : Keep ar s t) : KeepO ar s (Machine.execVcomErrorReport l t) := by
  unfold Machine.execVcomErrorReport
  repeat' (with_reducible first
    | assumption
    | apply KeepO.next
    | apply KeepO.ite
    | apply Keep.ite
    | apply Keep.vcomSample
    | (refine Area.sub_trans (b := Touch.execVcomErrorReport) ?_ har; decide)
    | apply Keep.foldl
    | split
    | intro _ _ _
    | intro _ _)

def Touch.execBlankingStart : Nat := 0x280000800000000000000F824200000000000000000000000000000000000000000000180003B0
theorem Keep.execBlankingStart {crack : Sys2Proof.CrackRead} {vref : Nat} {volts : List Nat}
    (har : Area.sub Touch.execBlankingStart ar = true) (h : Keep ar s t) : KeepO ar s (Machine.execBlankingStart crack vref volts t) := by
  unfold Machine.execBlankingStart
  repeat' (with_reducible first
    | assumption
    | (extract_lets +onlyGivenNames x; (first | apply KeepO.cut x | apply Keep.cut x); rotate_left; intro _; clear_value x; rotate_right; subst x)
    | (extract_lets +onlyGivenNames x; refine KeepFst.cut (m := ar) (s := s) x ?_ (fun hx => ?_); rotate_left; clear_value x; obtain ⟨x, y⟩ := x; dsimp -zeta only at hx ⊢; rotate_right; subst x)
    | (extract_lets +onlyGivenNames x; clear_value x)
    | apply KeepO.ite
    | apply Keep.ite
    | split
    | apply KeepO.next
    | apply KeepFst.mk
    | apply KeepFst.ite
    | apply Keep.crackReading
    | apply Keep.crackShutdown
    | apply Keep.vcomExternal
    | apply Keep.vcomTrack
    | (refine KeepFst.of_eq ?_ (by assumption); first | apply Keep.crackReading | apply KeepFst.ite)
    | (apply KeepFst.fst; first | apply Keep.crackReading)
    | (refine Area.sub_trans (b := Touch.execBlankingStart) ?_ har; decide)
    | intro _ _ _
    | intro _ _
    | (refine Keep.rec_rail ?_ ?_; rotate_left; first | assumption | apply Keep.crackReading | apply Keep.crackShutdown | apply Keep.vcomExternal | apply Keep.vcomTrack | (refine KeepFst.of_eq ?_ (by assumption); first | apply Keep.crackReading | apply KeepFst.ite) | (apply KeepFst.fst; first | apply Keep.crackReading) | apply Keep.ite))

def Touch.execLaunchHandover : Nat := 0x8000000000000000000000000000000000000000000000000000A0000000000010800200
theorem Keep.execLaunchHandover
    (har : Area.sub Touch.execLaunchHandover ar = true) (h : Keep ar s t) : KeepO ar s (Machine.execLaunchHandover t) := by
  unfold Machine.execLaunchHandover
  repeat' (with_reducible first
    | assumption
    | apply KeepO.next
    | apply KeepO.ite
    | (extract_lets +onlyGivenNames x; (first | apply KeepO.cut x | apply Keep.cut x); rotate_left; intro _; clear_value x; rotate_right; subst x)
    | (extract_lets +onlyGivenNames x; clear_value x)
    | apply Keep.ite
    | apply Keep.bump
    | apply Keep.raise
    | apply Keep.setLaunches
    | (refine Area.sub_trans (b := Touch.execLaunchHandover) ?_ har; decide)
    | (refine Area.fld_mono (a := Touch.execLaunchHandover) ?_ har; decide)
    | split
    | intro _ _ _
    | intro _ _
    | (refine Keep.rec_pseq ?_ ?_; rotate_left; first | assumption | apply Keep.bump | apply Keep.raise | apply Keep.setLaunches | apply Keep.ite))

end Sys2Proof
end

