-- ==== Sys2Proof/Laws/KeepScene.lean ====
section
/-!
SUPPORT. The operations and meanings of Machine/Scene.lean keep what `Keep` says.
-/

namespace Sys2Proof

open Sys2Proof.Machine

variable {ar : Nat} {s t u : Machine.State}

def Touch.frameGone : Nat := 0x80000
theorem Keep.frameGone {f : Nat}
    (har : Area.sub Touch.frameGone ar = true) (h : Keep ar s t) : Keep ar s (Machine.State.frameGone t f) := by
  unfold Machine.State.frameGone
  repeat' (with_reducible first
    | assumption
    | (extract_lets +onlyGivenNames x; (apply Keep.cut x); rotate_left; intro _; clear_value x; rotate_right; subst x)
    | (extract_lets +onlyGivenNames x; have hf : (∀ z, x z = x z) := fun _ => rfl; clear hf; subst x; try dsimp -zeta only)
    | (extract_lets +onlyGivenNames x; clear_value x)
    | (refine Area.sub_trans (b := Touch.frameGone) ?_ har; decide)
    | dsimp -zeta only
    | (refine Keep.rec_intk ?_ ?_; rotate_left; first | assumption))

def Touch.outOfWindow : Nat := 0x8000000000000000000000000000000000000C0000000000000000000000000010080000
theorem Keep.outOfWindow {f : Nat}
    (har : Area.sub Touch.outOfWindow ar = true) (h : Keep ar s t) : Keep ar s (Machine.State.outOfWindow t f) := by
  unfold Machine.State.outOfWindow
  repeat' (with_reducible first
    | assumption
    | (extract_lets +onlyGivenNames x; (apply Keep.cut x); rotate_left; intro _; clear_value x; rotate_right; subst x)
    | (extract_lets +onlyGivenNames x; clear_value x)
    | apply Keep.ite
    | apply Keep.raise
    | apply Keep.frameGone
    | apply Keep.conceal
    | (refine Area.sub_trans (b := Touch.outOfWindow) ?_ har; decide)
    | (refine Area.fld_mono (a := Touch.outOfWindow) ?_ har; decide)
    | split
    | intro _ _ _
    | intro _ _
    | (refine Keep.rec_intk ?_ ?_; rotate_left; first | assumption | apply Keep.raise | apply Keep.frameGone | apply Keep.conceal | apply Keep.ite))

def Touch.frameClosed : Nat := 0x80000
theorem Keep.frameClosed {f : Nat}
    (har : Area.sub Touch.frameClosed ar = true) (h : Keep ar s t) : Keep ar s (Machine.State.frameClosed t f) := by
  unfold Machine.State.frameClosed
  repeat' (with_reducible first
    | assumption
    | (extract_lets +onlyGivenNames x; (apply Keep.cut x); rotate_left; intro _; clear_value x; rotate_right; subst x)
    | (extract_lets +onlyGivenNames x; clear_value x)
    | (refine Area.sub_trans (b := Touch.frameClosed) ?_ har; decide)
    | (refine Keep.rec_intk ?_ ?_; rotate_left; first | assumption))

def Touch.headerLate : Nat := 0x8000000000000000000000000000000000000C0000000000000000000000000010080000
theorem Keep.headerLate {f : Nat}
    (har : Area.sub Touch.headerLate ar = true) (h : Keep ar s t) : Keep ar s (Machine.State.headerLate t f) := by
  unfold Machine.State.headerLate
  repeat' (with_reducible first
    | assumption
    | apply Keep.frameGone
    | apply Keep.conceal
    | apply Keep.frameClosed
    | (refine Area.sub_trans (b := Touch.headerLate) ?_ har; decide)
    | intro _ _ _
    | intro _ _)

def Touch.addFrame : Nat := 0x8000000000000000000000000000000000000C0000000000000000000000000010080000
theorem Keep.addFrame {f : FrameSt}
    (har : Area.sub Touch.addFrame ar = true) (h : Keep ar s t) : Keep ar s (Machine.State.addFrame t f) := by
  unfold Machine.State.addFrame
  repeat' (with_reducible first
    | assumption
    | (extract_lets +onlyGivenNames x; (apply Keep.cut x); rotate_left; intro _; clear_value x; rotate_right; subst x)
    | (extract_lets +onlyGivenNames x; have hf : (∀ z, x z = x z) := fun _ => rfl; clear hf; subst x; try dsimp -zeta only)
    | (extract_lets +onlyGivenNames x; clear_value x)
    | apply Keep.ite
    | apply Keep.outOfWindow
    | apply Keep.headerLate
    | (refine Area.sub_trans (b := Touch.addFrame) ?_ har; decide)
    | dsimp -zeta only
    | split
    | intro _ _ _
    | intro _ _
    | (refine Keep.rec_intk ?_ ?_; rotate_left; first | assumption | apply Keep.outOfWindow | apply Keep.headerLate | apply Keep.ite))

def Touch.onFrame : Nat := 0x80000
theorem Keep.onFrame {f : Nat} {g : FrameSt → FrameSt}
    (har : Area.sub Touch.onFrame ar = true) (h : Keep ar s t) : Keep ar s (Machine.State.onFrame t f g) := by
  unfold Machine.State.onFrame
  repeat' (with_reducible first
    | assumption
    | (extract_lets +onlyGivenNames x; (apply Keep.cut x); rotate_left; intro _; clear_value x; rotate_right; subst x)
    | (extract_lets +onlyGivenNames x; have hf : (∀ z, x z = x z) := fun _ => rfl; clear hf; subst x; try dsimp -zeta only)
    | (extract_lets +onlyGivenNames x; clear_value x)
    | apply Keep.ite
    | (refine Area.sub_trans (b := Touch.onFrame) ?_ har; decide)
    | dsimp -zeta only
    | split
    | (refine Keep.rec_intk ?_ ?_; rotate_left; first | assumption | apply Keep.ite))

def Touch.atlasCounted : Nat := 0x80000
theorem Keep.atlasCounted {frame : Nat}
    (har : Area.sub Touch.atlasCounted ar = true) (h : Keep ar s t) : Keep ar s (Machine.State.atlasCounted t frame) := by
  unfold Machine.State.atlasCounted
  repeat' (with_reducible first
    | assumption
    | (extract_lets +onlyGivenNames x; (apply Keep.cut x); rotate_left; intro _; clear_value x; rotate_right; subst x)
    | (extract_lets +onlyGivenNames x; have hf : (∀ z, x z = x z) := fun _ => rfl; clear hf; subst x; try dsimp -zeta only)
    | (extract_lets +onlyGivenNames x; clear_value x)
    | apply Keep.onFrame
    | (refine Area.sub_trans (b := Touch.atlasCounted) ?_ har; decide)
    | dsimp -zeta only
    | intro _ _ _
    | intro _ _)

def Touch.jobsLate : Nat := 0x80000
theorem Keep.jobsLate {f : Nat}
    (har : Area.sub Touch.jobsLate ar = true) (h : Keep ar s t) : Keep ar s (Machine.State.jobsLate t f) := by
  unfold Machine.State.jobsLate
  repeat' (with_reducible first
    | assumption
    | (extract_lets +onlyGivenNames x; (apply Keep.cut x); rotate_left; intro _; clear_value x; rotate_right; subst x)
    | (extract_lets +onlyGivenNames x; have hf : (∀ z, x z = x z) := fun _ => rfl; clear hf; subst x; try dsimp -zeta only)
    | (extract_lets +onlyGivenNames x; clear_value x)
    | apply Keep.ite
    | (refine Area.sub_trans (b := Touch.jobsLate) ?_ har; decide)
    | dsimp -zeta only
    | split
    | (refine Keep.rec_intk ?_ ?_; rotate_left; first | assumption | apply Keep.ite))

def Touch.deadline : Nat := 0x8000000000000000000000000000000000000C0000000000000000000000000010080000
theorem Keep.deadline {f : Nat}
    (har : Area.sub Touch.deadline ar = true) (h : Keep ar s t) : Keep ar s (Machine.State.deadline t f) := by
  unfold Machine.State.deadline
  repeat' (with_reducible first
    | assumption
    | (extract_lets +onlyGivenNames x; (apply Keep.cut x); rotate_left; intro _; clear_value x; rotate_right; subst x)
    | (extract_lets +onlyGivenNames x; have hf : (∀ z, x z = x z) := fun _ => rfl; clear hf; subst x; try dsimp -zeta only)
    | (extract_lets +onlyGivenNames x; clear_value x)
    | apply Keep.ite
    | apply Keep.conceal
    | apply Keep.frameClosed
    | apply Keep.onFrame
    | apply Keep.jobsLate
    | (refine Area.sub_trans (b := Touch.deadline) ?_ har; decide)
    | dsimp -zeta only
    | split
    | intro _ _ _
    | intro _ _
    | (refine Keep.rec_intk ?_ ?_; rotate_left; first | assumption | apply Keep.conceal | apply Keep.frameClosed | apply Keep.onFrame | apply Keep.jobsLate | apply Keep.ite))

def Touch.dpLost : Nat := 0x880800000000000000000000000000000000000000000000000000000000000000010080000
theorem Keep.dpLost
    (har : Area.sub Touch.dpLost ar = true) (h : Keep ar s t) : Keep ar s (Machine.State.dpLost t) := by
  unfold Machine.State.dpLost
  repeat' (with_reducible first
    | assumption
    | (extract_lets +onlyGivenNames x; (apply Keep.cut x); rotate_left; intro _; clear_value x; rotate_right; subst x)
    | (extract_lets +onlyGivenNames x; clear_value x)
    | apply Keep.ite
    | apply Keep.put
    | apply Keep.raise
    | apply Keep.inputMark
    | (refine Area.sub_trans (b := Touch.dpLost) ?_ har; decide)
    | (refine Area.fld_mono (a := Touch.dpLost) ?_ har; decide)
    | split
    | intro _ _ _
    | intro _ _
    | (refine Keep.rec_intk ?_ ?_; rotate_left; first | assumption | apply Keep.put | apply Keep.raise | apply Keep.inputMark | apply Keep.ite))

def Touch.dpTiles : Nat := 0x800000000000000000000000000800060000000000000000000000000000000010020000
theorem Keep.dpTiles {f : Nat} {d : Sys2Proof.DpPicture}
    (har : Area.sub Touch.dpTiles ar = true) (h : Keep ar s t) : Keep ar s (Machine.State.dpTiles t f d) := by
  unfold Machine.State.dpTiles
  repeat' (with_reducible first
    | assumption
    | (extract_lets +onlyGivenNames x; (apply Keep.cut x); rotate_left; intro _; clear_value x; rotate_right; subst x)
    | (extract_lets +onlyGivenNames x; have hf : (∀ z, x z = x z) := fun _ => rfl; clear hf; subst x; try dsimp -zeta only)
    | (extract_lets +onlyGivenNames x; clear_value x)
    | apply Keep.ite
    | apply Keep.tileWrite
    | (refine Area.sub_trans (b := Touch.dpTiles) ?_ har; decide)
    | apply Keep.foldl
    | dsimp -zeta only
    | split
    | intro _ _ _
    | intro _ _)

def Touch.dropFrames : Nat := 0x200000000000000000000000000000000000A0000
theorem Keep.dropFrames
    (har : Area.sub Touch.dropFrames ar = true) (h : Keep ar s t) : Keep ar s (Machine.State.dropFrames t) := by
  unfold Machine.State.dropFrames
  repeat' (with_reducible first
    | assumption
    | (extract_lets +onlyGivenNames x; (apply Keep.cut x); rotate_left; intro _; clear_value x; rotate_right; subst x)
    | (extract_lets +onlyGivenNames x; have hf : (∀ z, x z = x z) := fun _ => rfl; clear hf; subst x; try dsimp -zeta only)
    | (extract_lets +onlyGivenNames x; clear_value x)
    | apply Keep.countFree
    | (refine Area.sub_trans (b := Touch.dropFrames) ?_ har; decide)
    | dsimp -zeta only
    | intro _ _ _
    | intro _ _
    | (refine Keep.rec_comp_intk ?_ ?_; rotate_left; first | assumption | apply Keep.countFree))

def Touch.engineBusy : Nat := 0x400000000000000000000000000000000000
theorem Keep.engineBusy {e : Nat}
    (har : Area.sub Touch.engineBusy ar = true) (h : Keep ar s t) : Keep ar s (Machine.State.engineBusy t e) := by
  unfold Machine.State.engineBusy
  repeat' (with_reducible first
    | assumption
    | apply Keep.putB
    | (refine Area.sub_trans (b := Touch.engineBusy) ?_ har; decide)
    | (refine Area.fld_mono (a := Touch.engineBusy) ?_ har; decide)
    | intro _ _ _
    | intro _ _)

def Touch.engineOff : Nat := 0x400000000000000000000000000000000000
theorem Keep.engineOff
    (har : Area.sub Touch.engineOff ar = true) (h : Keep ar s t) : Keep ar s (Machine.State.engineOff t) := by
  unfold Machine.State.engineOff
  repeat' (with_reducible first
    | assumption
    | apply Keep.putB
    | (refine Area.sub_trans (b := Touch.engineOff) ?_ har; decide)
    | (refine Area.fld_mono (a := Touch.engineOff) ?_ har; decide)
    | apply Keep.foldl
    | intro _ _ _
    | intro _ _)

def Touch.engineStat : Nat := 0x400000000000000000000000000000000000
theorem Keep.engineStat {a1 : SeqHdr} {m : Nat}
    (har : Area.sub Touch.engineStat ar = true) (h : Keep ar s t) : Keep ar s (Machine.State.engineStat t a1 m) := by
  unfold Machine.State.engineStat
  repeat' (with_reducible first
    | assumption
    | (extract_lets +onlyGivenNames x; (apply Keep.cut x); rotate_left; intro _; clear_value x; rotate_right; subst x)
    | (extract_lets +onlyGivenNames x; have hf : (∀ z, x z = x z) := fun _ => rfl; clear hf; subst x; try dsimp -zeta only)
    | (extract_lets +onlyGivenNames x; clear_value x)
    | apply Keep.ite
    | apply Keep.put
    | apply Keep.putB
    | (refine Area.sub_trans (b := Touch.engineStat) ?_ har; decide)
    | (refine Area.fld_mono (a := Touch.engineStat) ?_ har; decide)
    | apply Keep.foldl
    | dsimp -zeta only
    | split
    | intro _ _ _
    | intro _ _)

def Touch.seqEffect : Nat := 0x8000000000000000000000000000000000006820000000000000000000000000100C0000
theorem Keep.seqEffect {a1 : SeqHdr}
    (har : Area.sub Touch.seqEffect ar = true) (h : Keep ar s t) : Keep ar s (Machine.State.seqEffect t a1) := by
  unfold Machine.State.seqEffect
  repeat' (with_reducible first
    | assumption
    | (extract_lets +onlyGivenNames x; (apply Keep.cut x); rotate_left; intro _; clear_value x; rotate_right; subst x)
    | (extract_lets +onlyGivenNames x; clear_value x)
    | apply Keep.ite
    | apply Keep.raise
    | apply Keep.keysInUse
    | apply Keep.engineStat
    | apply Keep.seqStat
    | (refine Area.sub_trans (b := Touch.seqEffect) ?_ har; decide)
    | (refine Area.fld_mono (a := Touch.seqEffect) ?_ har; decide)
    | split
    | intro _ _ _
    | intro _ _
    | (refine Keep.rec_view_intk ?_ ?_; rotate_left; first | assumption | apply Keep.raise | apply Keep.keysInUse | apply Keep.engineStat | apply Keep.seqStat | apply Keep.ite))

def Touch.streamRefuse : Nat := 0x2800008000000000000000000000000000000200002820000000000000000000000000180A0020
theorem Keep.streamRefuse {reason : Nat}
    (har : Area.sub Touch.streamRefuse ar = true) (h : Keep ar s t) : Keep ar s (Machine.State.streamRefuse t reason) := by
  unfold Machine.State.streamRefuse
  repeat' (with_reducible first
    | assumption
    | (extract_lets +onlyGivenNames x; (apply Keep.cut x); rotate_left; intro _; clear_value x; rotate_right; subst x)
    | (extract_lets +onlyGivenNames x; clear_value x)
    | apply Keep.put
    | apply Keep.raiseRec
    | apply Keep.keysInUse
    | apply Keep.dropFrames
    | apply Keep.seqStat
    | (refine Area.sub_trans (b := Touch.streamRefuse) ?_ har; decide)
    | (refine Area.fld_mono (a := Touch.streamRefuse) ?_ har; decide)
    | intro _ _ _
    | intro _ _
    | (refine Keep.rec_intk ?_ ?_; rotate_left; first | assumption | apply Keep.put | apply Keep.raiseRec | apply Keep.keysInUse | apply Keep.dropFrames | apply Keep.seqStat))

def Touch.inflate : Nat := 0x100000
theorem Keep.inflate {gen : Nat} {bytes : List Sys2Proof.Byte}
    (har : Area.sub Touch.inflate ar = true) (h : Keep ar s t) : KeepFst ar s (Machine.State.inflate t gen bytes) := by
  unfold Machine.State.inflate
  repeat' (with_reducible first
    | assumption
    | apply KeepFst.mk
    | apply KeepFst.ite
    | (extract_lets +onlyGivenNames x; (first | apply KeepFst.cut1 x | apply Keep.cut x); rotate_left; intro _; clear_value x; rotate_right; subst x)
    | (extract_lets +onlyGivenNames x; clear_value x)
    | apply Keep.ite
    | apply Keep.innerJob
    | (refine Area.sub_trans (b := Touch.inflate) ?_ har; decide)
    | split
    | intro _ _ _
    | intro _ _)

def Touch.headerTable : Nat := 0x100000
theorem Keep.headerTable {a1 : VssUnit} {count : Nat}
    (har : Area.sub Touch.headerTable ar = true) (h : Keep ar s t) : KeepFst ar s (Machine.State.headerTable t a1 count) := by
  unfold Machine.State.headerTable
  repeat' (with_reducible first
    | assumption
    | (extract_lets +onlyGivenNames x; (first | apply KeepFst.cut1 x | apply Keep.cut x); rotate_left; intro _; clear_value x; rotate_right; subst x)
    | (extract_lets +onlyGivenNames x; refine KeepFst.cut (m := ar) (s := s) x ?_ (fun hx => ?_); rotate_left; clear_value x; obtain ⟨x, y⟩ := x; dsimp -zeta only at hx ⊢; rotate_right; subst x)
    | (extract_lets +onlyGivenNames x; clear_value x)
    | apply Keep.ite
    | split
    | apply KeepFst.mk
    | apply KeepFst.ite
    | apply Keep.inflate
    | (refine KeepFst.of_eq ?_ (by assumption); first | apply Keep.inflate | apply KeepFst.ite)
    | (apply KeepFst.fst; first | apply Keep.inflate)
    | (refine Area.sub_trans (b := Touch.headerTable) ?_ har; decide)
    | intro _ _ _
    | intro _ _)

def Touch.keyMissing : Nat := 0x8000000000000000000000000000000000000C0000000000000000000000000010080000
theorem Keep.keyMissing {frame : Nat}
    (har : Area.sub Touch.keyMissing ar = true) (h : Keep ar s t) : Keep ar s (Machine.State.keyMissing t frame) := by
  unfold Machine.State.keyMissing
  repeat' (with_reducible first
    | assumption
    | apply Keep.raise
    | apply Keep.conceal
    | (refine Area.sub_trans (b := Touch.keyMissing) ?_ har; decide)
    | (refine Area.fld_mono (a := Touch.keyMissing) ?_ har; decide)
    | intro _ _ _
    | intro _ _)

def Touch.openUnit : Nat := 0x8000000000000000000000000000000000000C0000000000000000000000000010180000
theorem Keep.openUnit {a1 : VssUnit}
    (har : Area.sub Touch.openUnit ar = true) (h : Keep ar s t) : KeepFst ar s (Machine.State.openUnit t a1) := by
  unfold Machine.State.openUnit
  repeat' (with_reducible first
    | assumption
    | (extract_lets +onlyGivenNames x; (first | apply KeepFst.cut1 x | apply Keep.cut x); rotate_left; intro _; clear_value x; rotate_right; subst x)
    | (extract_lets +onlyGivenNames x; refine KeepFst.cut (m := ar) (s := s) x ?_ (fun hx => ?_); rotate_left; clear_value x; obtain ⟨x, y⟩ := x; dsimp -zeta only at hx ⊢; rotate_right; subst x)
    | (extract_lets +onlyGivenNames x; have hf : (∀ z, x z = x z) := fun _ => rfl; clear hf; subst x; try dsimp -zeta only)
    | (extract_lets +onlyGivenNames x; clear_value x)
    | apply Keep.ite
    | split
    | apply KeepFst.mk
    | apply KeepFst.ite
    | apply Keep.inflate
    | apply Keep.keyMissing
    | (refine KeepFst.of_eq ?_ (by assumption); first | apply Keep.inflate | apply KeepFst.ite)
    | (apply KeepFst.fst; first | apply Keep.inflate)
    | (refine Area.sub_trans (b := Touch.openUnit) ?_ har; decide)
    | dsimp -zeta only
    | intro _ _ _
    | intro _ _)

def Touch.pictureMissing : Nat := 0x8000000000000000000000000000000000000C0000000000000000000000000010080000
theorem Keep.pictureMissing {j : DecJob} {kind : Nat}
    (har : Area.sub Touch.pictureMissing ar = true) (h : Keep ar s t) : Keep ar s (Machine.State.pictureMissing t j kind) := by
  unfold Machine.State.pictureMissing
  repeat' (with_reducible first
    | assumption
    | apply Keep.conceal
    | apply Keep.atlasCounted
    | (refine Area.sub_trans (b := Touch.pictureMissing) ?_ har; decide)
    | intro _ _ _
    | intro _ _)

def Touch.pictureCorrupt : Nat := 0x8000000000000000000000000000000000040C0000000000000000000000000010080000
theorem Keep.pictureCorrupt {j : DecJob} {fld : Fld} (hf : Area.fld ar fld = true)
    (har : Area.sub Touch.pictureCorrupt ar = true) (h : Keep ar s t) : Keep ar s (Machine.State.pictureCorrupt t j fld) := by
  unfold Machine.State.pictureCorrupt
  repeat' (with_reducible first
    | assumption
    | (extract_lets +onlyGivenNames x; (apply Keep.cut x); rotate_left; intro _; clear_value x; rotate_right; subst x)
    | (extract_lets +onlyGivenNames x; clear_value x)
    | apply Keep.ite
    | apply Keep.bump
    | apply Keep.raise
    | apply Keep.pictureMissing
    | (refine Area.sub_trans (b := Touch.pictureCorrupt) ?_ har; decide)
    | (refine Area.fld_mono (a := Touch.pictureCorrupt) ?_ har; decide)
    | split
    | intro _ _ _
    | intro _ _
    | (refine Keep.rec_intk ?_ ?_; rotate_left; first | assumption | apply Keep.bump | apply Keep.raise | apply Keep.pictureMissing | apply Keep.ite))

def Touch.rapCome : Nat := 0x80000
theorem Keep.rapCome {f : Nat}
    (har : Area.sub Touch.rapCome ar = true) (h : Keep ar s t) : Keep ar s (Machine.State.rapCome t f) := by
  unfold Machine.State.rapCome
  repeat' (with_reducible first
    | assumption
    | (extract_lets +onlyGivenNames x; (apply Keep.cut x); rotate_left; intro _; clear_value x; rotate_right; subst x)
    | (extract_lets +onlyGivenNames x; have hf : (∀ z, x z = x z) := fun _ => rfl; clear hf; subst x; try dsimp -zeta only)
    | (extract_lets +onlyGivenNames x; clear_value x)
    | (refine Area.sub_trans (b := Touch.rapCome) ?_ har; decide)
    | dsimp -zeta only
    | (refine Keep.rec_intk ?_ ?_; rotate_left; first | assumption))

def Touch.seqCheck : Nat := 0x2800008000300000000000000000000000000200002820200800000113000000027C00180A5120
theorem Keep.seqCheck {a1 : SeqHdr}
    (har : Area.sub Touch.seqCheck ar = true) (h : Keep ar s t) : Keep ar s (Machine.State.seqCheck t a1) := by
  unfold Machine.State.seqCheck
  repeat' (with_reducible first
    | assumption
    | (extract_lets +onlyGivenNames x; (apply Keep.cut x); rotate_left; intro _; clear_value x; rotate_right; subst x)
    | (extract_lets +onlyGivenNames x; clear_value x)
    | apply Keep.ite
    | apply Keep.raiseRec
    | apply Keep.actAuto
    | apply Keep.modeRefuse
    | apply Keep.streamRefuse
    | (refine Area.sub_trans (b := Touch.seqCheck) ?_ har; decide)
    | (refine Area.fld_mono (a := Touch.seqCheck) ?_ har; decide)
    | split
    | intro _ _ _
    | intro _ _
    | (refine Keep.rec_intk ?_ ?_; rotate_left; first | assumption | apply Keep.raiseRec | apply Keep.actAuto | apply Keep.modeRefuse | apply Keep.streamRefuse | apply Keep.ite))

def Touch.takeRef : Nat := 0x80000
theorem Keep.takeRef {rap : Bool} {pts : Nat}
    (har : Area.sub Touch.takeRef ar = true) (h : Keep ar s t) : Keep ar s (Machine.State.takeRef t rap pts) := by
  unfold Machine.State.takeRef
  repeat' (with_reducible first
    | assumption
    | (extract_lets +onlyGivenNames x; (apply Keep.cut x); rotate_left; intro _; clear_value x; rotate_right; subst x)
    | (extract_lets +onlyGivenNames x; clear_value x)
    | apply Keep.ite
    | (refine Area.sub_trans (b := Touch.takeRef) ?_ har; decide)
    | split
    | (refine Keep.rec_intk ?_ ?_; rotate_left; first | assumption | apply Keep.ite))

def Touch.takeUnit : Nat := 0x80000
theorem Keep.takeUnit {p : List Sys2Proof.Byte → Bool}
    (har : Area.sub Touch.takeUnit ar = true) (h : Keep ar s t) : KeepUnit ar s (Machine.State.takeUnit t p) := by
  unfold Machine.State.takeUnit
  repeat' (with_reducible first
    | assumption
    | apply KeepUnit.some
    | exact KeepUnit.none
    | apply KeepUnit.ite
    | (extract_lets +onlyGivenNames x; (first | apply KeepUnit.cut1 x | apply Keep.cut x); rotate_left; intro _; clear_value x; rotate_right; subst x)
    | (extract_lets +onlyGivenNames x; have hf : (∀ z, x z = x z) := fun _ => rfl; clear hf; subst x; try dsimp -zeta only)
    | (extract_lets +onlyGivenNames x; clear_value x)
    | (refine Area.sub_trans (b := Touch.takeUnit) ?_ har; decide)
    | dsimp -zeta only
    | split
    | (refine Keep.rec_intk ?_ ?_; rotate_left; first | assumption))

def Touch.takeType : Nat := 0x80000
theorem Keep.takeType {a1 : Nat}
    (har : Area.sub Touch.takeType ar = true) (h : Keep ar s t) : KeepUnit ar s (Machine.State.takeType t a1) := by
  unfold Machine.State.takeType
  repeat' (with_reducible first
    | assumption
    | apply KeepUnit.some
    | exact KeepUnit.none
    | apply KeepUnit.ite
    | apply Keep.takeUnit
    | (refine KeepUnit.of_eq ?_ (by assumption); first | assumption | apply Keep.takeUnit)
    | (refine Area.sub_trans (b := Touch.takeType) ?_ har; decide)
    | intro _ _ _
    | intro _ _)

def Touch.unitFrame : Nat := 0x8000000000000000000000000000000000000C0000000000000000000000000010080000
theorem Keep.unitFrame {a1 : VssUnit}
    (har : Area.sub Touch.unitFrame ar = true) (h : Keep ar s t) : KeepFst ar s (Machine.State.unitFrame t a1) := by
  unfold Machine.State.unitFrame
  repeat' (with_reducible first
    | assumption
    | apply KeepFst.mk
    | apply KeepFst.ite
    | (extract_lets +onlyGivenNames x; (first | apply KeepFst.cut1 x | apply Keep.cut x); rotate_left; intro _; clear_value x; rotate_right; subst x)
    | (extract_lets +onlyGivenNames x; have hf : (∀ z, x z = x z) := fun _ => rfl; clear hf; subst x; try dsimp -zeta only)
    | (extract_lets +onlyGivenNames x; clear_value x)
    | apply Keep.ite
    | apply Keep.conceal
    | (refine Area.sub_trans (b := Touch.unitFrame) ?_ har; decide)
    | dsimp -zeta only
    | split
    | intro _ _ _
    | intro _ _)

def Touch.writeRegion : Nat := 0x800000000000000000000000000800060000000000000000000000000000000010020000
theorem Keep.writeRegion {a1 : SeqHdr} {p : Sys2Proof.Picture} {frame : Nat} {order : Nat} {g : RegionE}
    (har : Area.sub Touch.writeRegion ar = true) (h : Keep ar s t) : Keep ar s (Machine.State.writeRegion t a1 p frame order g) := by
  unfold Machine.State.writeRegion
  repeat' (with_reducible first
    | assumption
    | (extract_lets +onlyGivenNames x; (apply Keep.cut x); rotate_left; intro _; clear_value x; rotate_right; subst x)
    | (extract_lets +onlyGivenNames x; have hf : (∀ z, x z = x z) := fun _ => rfl; clear hf; subst x; try dsimp -zeta only)
    | (extract_lets +onlyGivenNames x; clear_value x)
    | apply Keep.ite
    | apply Keep.tileWrite
    | (refine Area.sub_trans (b := Touch.writeRegion) ?_ har; decide)
    | apply Keep.foldl
    | dsimp -zeta only
    | split
    | intro _ _ _
    | intro _ _)

def Touch.writeRegions : Nat := 0x8000000000000000000000000008000600000C00000000000000000000000000100A0000
theorem Keep.writeRegions {a1 : SeqHdr} {f : FrameSt} {j : DecJob} {p : Sys2Proof.Picture}
    (har : Area.sub Touch.writeRegions ar = true) (h : Keep ar s t) : Keep ar s (Machine.State.writeRegions t a1 f j p) := by
  unfold Machine.State.writeRegions
  repeat' (with_reducible first
    | assumption
    | (extract_lets +onlyGivenNames x; (apply Keep.cut x); rotate_left; intro _; clear_value x; rotate_right; subst x)
    | (extract_lets +onlyGivenNames x; have hf : (∀ z, x z = x z) := fun _ => rfl; clear hf; subst x; try dsimp -zeta only)
    | (extract_lets +onlyGivenNames x; clear_value x)
    | apply Keep.ite
    | apply Keep.conceal
    | apply Keep.writeRegion
    | (refine Area.sub_trans (b := Touch.writeRegions) ?_ har; decide)
    | apply Keep.foldl
    | dsimp -zeta only
    | split
    | intro _ _ _
    | intro _ _)

def Touch.execSignatureCue : Nat := 0x8000000000000000000000000000000000000C0000000000000000000000000010080000
theorem Keep.execSignatureCue
    (har : Area.sub Touch.execSignatureCue ar = true) (h : Keep ar s t) : KeepO ar s (Machine.execSignatureCue t) := by
  unfold Machine.execSignatureCue
  repeat' (with_reducible first
    | assumption
    | (extract_lets +onlyGivenNames x; (first | apply KeepO.cut x | apply Keep.cut x); rotate_left; intro _; clear_value x; rotate_right; subst x)
    | (extract_lets +onlyGivenNames x; refine KeepUnit.cut (m := ar) (s := s) x ?_ (fun hx => ?_); rotate_left; clear_value x; rotate_right; subst x)
    | (extract_lets +onlyGivenNames x; refine KeepFst.cut (m := ar) (s := s) x ?_ (fun hx => ?_); rotate_left; clear_value x; obtain ⟨x, y⟩ := x; dsimp -zeta only at hx ⊢; rotate_right; subst x)
    | (extract_lets +onlyGivenNames x; have hf : (∀ z, x z = x z) := fun _ => rfl; clear hf; subst x; try dsimp -zeta only)
    | (extract_lets +onlyGivenNames x; clear_value x)
    | apply KeepO.ite
    | apply Keep.ite
    | split
    | apply KeepO.next
    | apply KeepFst.mk
    | apply KeepFst.ite
    | apply Keep.conceal
    | apply Keep.onFrame
    | apply Keep.takeType
    | apply Keep.unitFrame
    | (refine KeepUnit.of_eq ?_ (by assumption); first | assumption | apply Keep.takeType)
    | (refine KeepFst.of_eq ?_ (by assumption); first | apply Keep.unitFrame | apply KeepFst.ite)
    | (apply KeepFst.fst; first | apply Keep.unitFrame)
    | (refine Area.sub_trans (b := Touch.execSignatureCue) ?_ har; decide)
    | dsimp -zeta only
    | intro _ _ _
    | intro _ _)

def Touch.execDpLinkLoss : Nat := 0x880800000000000000000000000000000000000000000000000000000000000000010080000
theorem Keep.execDpLinkLoss
    (har : Area.sub Touch.execDpLinkLoss ar = true) (h : Keep ar s t) : KeepO ar s (Machine.execDpLinkLoss t) := by
  unfold Machine.execDpLinkLoss
  repeat' (with_reducible first
    | assumption
    | apply KeepO.next
    | apply KeepO.ite
    | apply Keep.dpLost
    | (refine Area.sub_trans (b := Touch.execDpLinkLoss) ?_ har; decide)
    | intro _ _ _
    | intro _ _)

def Touch.execDpPicture : Nat := 0x2804008000000000000000000000000008000600002C20200800000000000000000000180A0020
theorem Keep.execDpPicture {d : Sys2Proof.DpPicture}
    (har : Area.sub Touch.execDpPicture ar = true) (h : Keep ar s t) : KeepO ar s (Machine.execDpPicture d t) := by
  unfold Machine.execDpPicture
  split
  · exact KeepO.next h
  · split
    · exact KeepO.next (h.bump (Area.fld_mono (a := Touch.execDpPicture) (by decide) har))
    · extract_lets timing fresh src1 s1 m s2 req why f src2 s3 fr
      split
      · exact KeepO.next h
      · have h1 : Keep ar s s1 := Keep.rec_intk (Area.sub_trans (b := Touch.execDpPicture) (by decide) har) h
        have h2 : Keep ar s s2 := Keep.ite (h1.recOther (Area.sub_trans (b := Touch.execDpPicture) (by decide) har)) h1
        split
        · exact KeepO.next (Keep.streamRefuse (Area.sub_trans (b := Touch.execDpPicture) (by decide) har) (Keep.ite (h2.modeRefuse (Area.sub_trans (b := Touch.execDpPicture) (by decide) har)) h2))
        · exact KeepO.next (Keep.addFrame (Area.sub_trans (b := Touch.execDpPicture) (by decide) har) (Keep.dpTiles (Area.sub_trans (b := Touch.execDpPicture) (by decide) har) (Keep.rec_intk (Area.sub_trans (b := Touch.execDpPicture) (by decide) har) h2)))

def Touch.execKeyCue : Nat := 0x8000000000000000000000000000000000002C0000000000000000000000000010080000
theorem Keep.execKeyCue
    (har : Area.sub Touch.execKeyCue ar = true) (h : Keep ar s t) : KeepO ar s (Machine.execKeyCue t) := by
  unfold Machine.execKeyCue
  repeat' (with_reducible first
    | assumption
    | apply KeepO.next
    | apply KeepO.ite
    | (extract_lets +onlyGivenNames x; (first | apply KeepO.cut x | apply Keep.cut x); rotate_left; intro _; clear_value x; rotate_right; subst x)
    | (extract_lets +onlyGivenNames x; refine KeepUnit.cut (m := ar) (s := s) x ?_ (fun hx => ?_); rotate_left; clear_value x; rotate_right; subst x)
    | (extract_lets +onlyGivenNames x; have hf : (∀ z, x z = x z) := fun _ => rfl; clear hf; subst x; try dsimp -zeta only)
    | (extract_lets +onlyGivenNames x; clear_value x)
    | apply Keep.ite
    | apply Keep.conceal
    | apply Keep.keysInUse
    | apply Keep.takeType
    | (refine KeepUnit.of_eq ?_ (by assumption); first | assumption | apply Keep.takeType)
    | (refine Area.sub_trans (b := Touch.execKeyCue) ?_ har; decide)
    | dsimp -zeta only
    | split
    | intro _ _ _
    | intro _ _
    | (refine Keep.rec_intk ?_ ?_; rotate_left; first | assumption | apply Keep.conceal | apply Keep.keysInUse | apply Keep.takeType | (refine KeepUnit.of_eq ?_ (by assumption); first | assumption | apply Keep.takeType) | apply Keep.ite))

def Touch.execRefusedUnit : Nat := 0x8000000000000000000000000000000000000C0000000000000000000000000010080000
theorem Keep.execRefusedUnit
    (har : Area.sub Touch.execRefusedUnit ar = true) (h : Keep ar s t) : KeepO ar s (Machine.execRefusedUnit t) := by
  unfold Machine.execRefusedUnit
  repeat' (with_reducible first
    | assumption
    | apply KeepO.next
    | apply KeepO.ite
    | (extract_lets +onlyGivenNames x; (first | apply KeepO.cut x | apply Keep.cut x); rotate_left; intro _; clear_value x; rotate_right; subst x)
    | (extract_lets +onlyGivenNames x; refine KeepUnit.cut (m := ar) (s := s) x ?_ (fun hx => ?_); rotate_left; clear_value x; rotate_right; subst x)
    | (extract_lets +onlyGivenNames x; clear_value x)
    | apply Keep.ite
    | apply Keep.conceal
    | apply Keep.takeUnit
    | (refine KeepUnit.of_eq ?_ (by assumption); first | assumption | apply Keep.takeUnit)
    | (refine Area.sub_trans (b := Touch.execRefusedUnit) ?_ har; decide)
    | split
    | intro _ _ _
    | intro _ _)

def Touch.execFrameHeader : Nat := 0x8000000000000000000000000000000000000C0000000000000000000000000010180000
theorem Keep.execFrameHeader
    (har : Area.sub Touch.execFrameHeader ar = true) (h : Keep ar s t) : KeepO ar s (Machine.execFrameHeader t) := by
  unfold Machine.execFrameHeader
  repeat' (with_reducible first
    | assumption
    | (extract_lets +onlyGivenNames x; (first | apply KeepO.cut x | apply Keep.cut x); rotate_left; intro _; clear_value x; rotate_right; subst x)
    | (extract_lets +onlyGivenNames x; refine KeepUnit.cut (m := ar) (s := s) x ?_ (fun hx => ?_); rotate_left; clear_value x; rotate_right; subst x)
    | (extract_lets +onlyGivenNames x; refine KeepFst.cut (m := ar) (s := s) x ?_ (fun hx => ?_); rotate_left; clear_value x; obtain ⟨x, y⟩ := x; dsimp -zeta only at hx ⊢; rotate_right; subst x)
    | (extract_lets +onlyGivenNames x; clear_value x)
    | apply KeepO.ite
    | apply Keep.ite
    | split
    | apply KeepO.next
    | apply KeepFst.mk
    | apply KeepFst.ite
    | apply Keep.frameGone
    | apply Keep.conceal
    | apply Keep.addFrame
    | apply Keep.headerTable
    | apply Keep.rapCome
    | apply Keep.takeRef
    | apply Keep.takeType
    | (refine KeepUnit.of_eq ?_ (by assumption); first | assumption | apply Keep.takeType)
    | (refine KeepFst.of_eq ?_ (by assumption); first | apply Keep.headerTable | apply KeepFst.ite)
    | (apply KeepFst.fst; first | apply Keep.headerTable)
    | (refine Area.sub_trans (b := Touch.execFrameHeader) ?_ har; decide)
    | intro _ _ _
    | intro _ _)

def Touch.execMaskSection : Nat := 0x8000000000000000000000000008000600000C00000000000000000000000000101A0000
theorem Keep.execMaskSection
    (har : Area.sub Touch.execMaskSection ar = true) (h : Keep ar s t) : KeepO ar s (Machine.execMaskSection t) := by
  unfold Machine.execMaskSection
  repeat' (with_reducible first
    | assumption
    | (extract_lets +onlyGivenNames x; (first | apply KeepO.cut x | apply Keep.cut x); rotate_left; intro _; clear_value x; rotate_right; subst x)
    | (extract_lets +onlyGivenNames x; refine KeepUnit.cut (m := ar) (s := s) x ?_ (fun hx => ?_); rotate_left; clear_value x; rotate_right; subst x)
    | (extract_lets +onlyGivenNames x; refine KeepFst.cut (m := ar) (s := s) x ?_ (fun hx => ?_); rotate_left; clear_value x; obtain ⟨x, y⟩ := x; dsimp -zeta only at hx ⊢; rotate_right; subst x)
    | (extract_lets +onlyGivenNames x; have hf : (∀ z, x z = x z) := fun _ => rfl; clear hf; subst x; try dsimp -zeta only)
    | (extract_lets +onlyGivenNames x; clear_value x)
    | apply KeepO.ite
    | apply Keep.ite
    | split
    | apply KeepO.next
    | apply KeepFst.mk
    | apply KeepFst.ite
    | apply KeepFst.foldl
    | apply Keep.conceal
    | apply Keep.onFrame
    | apply Keep.tileWrite
    | apply Keep.openUnit
    | apply Keep.takeType
    | apply Keep.unitFrame
    | (refine KeepUnit.of_eq ?_ (by assumption); first | assumption | apply Keep.takeType)
    | (refine KeepFst.of_eq ?_ (by assumption); first | apply Keep.openUnit | apply Keep.unitFrame | apply KeepFst.ite)
    | (apply KeepFst.fst; first | apply Keep.openUnit | apply Keep.unitFrame)
    | (refine Area.sub_trans (b := Touch.execMaskSection) ?_ har; decide)
    | apply Keep.foldl
    | dsimp -zeta only
    | intro _ _ _
    | intro _ _)

def Touch.execResidualSet : Nat := 0x8000000000000000000000000000000000000C0000000000000000000000000010180000
theorem Keep.execResidualSet
    (har : Area.sub Touch.execResidualSet ar = true) (h : Keep ar s t) : KeepO ar s (Machine.execResidualSet t) := by
  unfold Machine.execResidualSet
  repeat' (with_reducible first
    | assumption
    | (extract_lets +onlyGivenNames x; (first | apply KeepO.cut x | apply Keep.cut x); rotate_left; intro _; clear_value x; rotate_right; subst x)
    | (extract_lets +onlyGivenNames x; refine KeepUnit.cut (m := ar) (s := s) x ?_ (fun hx => ?_); rotate_left; clear_value x; rotate_right; subst x)
    | (extract_lets +onlyGivenNames x; refine KeepFst.cut (m := ar) (s := s) x ?_ (fun hx => ?_); rotate_left; clear_value x; obtain ⟨x, y⟩ := x; dsimp -zeta only at hx ⊢; rotate_right; subst x)
    | (extract_lets +onlyGivenNames x; have hf : (∀ z, x z = x z) := fun _ => rfl; clear hf; subst x; try dsimp -zeta only)
    | (extract_lets +onlyGivenNames x; clear_value x)
    | split
    | apply KeepO.next
    | apply KeepO.ite
    | apply KeepFst.mk
    | apply KeepFst.ite
    | apply Keep.onFrame
    | apply Keep.openUnit
    | apply Keep.takeType
    | apply Keep.unitFrame
    | (refine KeepUnit.of_eq ?_ (by assumption); first | assumption | apply Keep.takeType)
    | (refine KeepFst.of_eq ?_ (by assumption); first | apply Keep.openUnit | apply Keep.unitFrame | apply KeepFst.ite)
    | (apply KeepFst.fst; first | apply Keep.openUnit | apply Keep.unitFrame)
    | (refine Area.sub_trans (b := Touch.execResidualSet) ?_ har; decide)
    | dsimp -zeta only
    | intro _ _ _
    | intro _ _)

def Touch.execPictureDecoded : Nat := 0x800000000000000000000000000800060007CC00000000000000000000000000100A0000
theorem Keep.execPictureDecoded {e : Nat} {r : Sys2Proof.PicResult}
    (har : Area.sub Touch.execPictureDecoded ar = true) (h : Keep ar s t) : KeepO ar s (Machine.execPictureDecoded e r t) := by
  unfold Machine.execPictureDecoded
  repeat' (with_reducible first
    | assumption
    | apply KeepO.next
    | apply KeepO.ite
    | (extract_lets +onlyGivenNames x; (first | apply KeepO.cut x | apply Keep.cut x); rotate_left; intro _; clear_value x; rotate_right; subst x)
    | (extract_lets +onlyGivenNames x; have hf : (∀ z, x z = x z) := fun _ => rfl; clear hf; subst x; try dsimp -zeta only)
    | (extract_lets +onlyGivenNames x; clear_value x)
    | apply Keep.ite
    | apply Keep.bump
    | apply Keep.count
    | apply Keep.raise
    | apply Keep.atlasCounted
    | apply Keep.engineBusy
    | apply Keep.pictureMissing
    | apply Keep.pictureCorrupt
    | apply Keep.writeRegions
    | (refine Area.sub_trans (b := Touch.execPictureDecoded) ?_ har; decide)
    | (refine Area.fld_mono (a := Touch.execPictureDecoded) ?_ har; decide)
    | dsimp -zeta only
    | split
    | intro _ _ _
    | intro _ _
    | (refine Keep.rec_intk ?_ ?_; rotate_left; first | assumption | apply Keep.bump | apply Keep.count | apply Keep.raise | apply Keep.atlasCounted | apply Keep.engineBusy | apply Keep.pictureMissing | apply Keep.pictureCorrupt | apply Keep.writeRegions | apply Keep.ite))

def Touch.execDpTimingChange : Nat := 0xB00800000000000000000000000000000000000000000000000000000000000000010080000
theorem Keep.execDpTimingChange {w : Nat} {a1 : Nat} {mhz : Nat} {bits : Nat} {enc : Nat} {trans : Nat} {limited : Bool}
    (har : Area.sub Touch.execDpTimingChange ar = true) (h : Keep ar s t) : KeepO ar s (Machine.execDpTimingChange w a1 mhz bits enc trans limited t) := by
  unfold Machine.execDpTimingChange
  repeat' (with_reducible first
    | assumption
    | apply KeepO.next
    | apply KeepO.ite
    | (extract_lets +onlyGivenNames x; (first | apply KeepO.cut x | apply Keep.cut x); rotate_left; intro _; clear_value x; rotate_right; subst x)
    | (extract_lets +onlyGivenNames x; clear_value x)
    | apply Keep.put
    | apply Keep.putB
    | apply Keep.raise
    | (refine Area.sub_trans (b := Touch.execDpTimingChange) ?_ har; decide)
    | (refine Area.fld_mono (a := Touch.execDpTimingChange) ?_ har; decide)
    | intro _ _ _
    | intro _ _
    | (refine Keep.rec_intk ?_ ?_; rotate_left; first | assumption | apply Keep.put | apply Keep.putB | apply Keep.raise))

def Touch.execPlaneAtlas : Nat := 0x8000000000000000000000000000000000004C0000000000000000000000000010180000
theorem Keep.execPlaneAtlas
    (har : Area.sub Touch.execPlaneAtlas ar = true) (h : Keep ar s t) : KeepO ar s (Machine.execPlaneAtlas t) := by
  unfold Machine.execPlaneAtlas
  repeat' (with_reducible first
    | assumption
    | (extract_lets +onlyGivenNames x; (first | apply KeepO.cut x | apply Keep.cut x); rotate_left; intro _; clear_value x; rotate_right; subst x)
    | (extract_lets +onlyGivenNames x; refine KeepUnit.cut (m := ar) (s := s) x ?_ (fun hx => ?_); rotate_left; clear_value x; rotate_right; subst x)
    | (extract_lets +onlyGivenNames x; refine KeepFst.cut (m := ar) (s := s) x ?_ (fun hx => ?_); rotate_left; clear_value x; obtain ⟨x, y⟩ := x; dsimp -zeta only at hx ⊢; rotate_right; subst x)
    | (extract_lets +onlyGivenNames x; have hf : (∀ z, x z = x z) := fun _ => rfl; clear hf; subst x; try dsimp -zeta only)
    | (extract_lets +onlyGivenNames x; clear_value x)
    | apply KeepO.ite
    | apply Keep.ite
    | split
    | apply KeepO.next
    | apply KeepFst.mk
    | apply KeepFst.ite
    | apply Keep.conceal
    | apply Keep.onFrame
    | apply Keep.atlasCounted
    | apply Keep.engineBusy
    | apply Keep.openUnit
    | apply Keep.takeType
    | apply Keep.unitFrame
    | (refine KeepUnit.of_eq ?_ (by assumption); first | assumption | apply Keep.takeType)
    | (refine KeepFst.of_eq ?_ (by assumption); first | apply Keep.openUnit | apply Keep.unitFrame | apply KeepFst.ite)
    | (apply KeepFst.fst; first | apply Keep.openUnit | apply Keep.unitFrame)
    | (refine Area.sub_trans (b := Touch.execPlaneAtlas) ?_ har; decide)
    | dsimp -zeta only
    | intro _ _ _
    | intro _ _
    | (refine Keep.rec_intk ?_ ?_; rotate_left; first | assumption | apply Keep.conceal | apply Keep.onFrame | apply Keep.atlasCounted | apply Keep.engineBusy | apply Keep.openUnit | apply Keep.takeType | apply Keep.unitFrame | (refine KeepUnit.of_eq ?_ (by assumption); first | assumption | apply Keep.takeType) | (refine KeepFst.of_eq ?_ (by assumption); first | apply Keep.openUnit | apply Keep.unitFrame | apply KeepFst.ite) | (apply KeepFst.fst; first | apply Keep.openUnit | apply Keep.unitFrame) | apply Keep.ite))

def Touch.execDecodeDeadline : Nat := 0x8000000000000000000000000000000000000C0000000000000000000000000010080000
theorem Keep.execDecodeDeadline {f : Nat}
    (har : Area.sub Touch.execDecodeDeadline ar = true) (h : Keep ar s t) : KeepO ar s (Machine.execDecodeDeadline f t) := by
  unfold Machine.execDecodeDeadline
  repeat' (with_reducible first
    | assumption
    | apply KeepO.next
    | apply KeepO.ite
    | apply Keep.deadline
    | (refine Area.sub_trans (b := Touch.execDecodeDeadline) ?_ har; decide)
    | intro _ _ _
    | intro _ _)

def Touch.execPrivateUnit : Nat := 0x80000
theorem Keep.execPrivateUnit
    (har : Area.sub Touch.execPrivateUnit ar = true) (h : Keep ar s t) : KeepO ar s (Machine.execPrivateUnit t) := by
  unfold Machine.execPrivateUnit
  repeat' (with_reducible first
    | assumption
    | apply KeepO.next
    | apply KeepO.ite
    | (extract_lets +onlyGivenNames x; (first | apply KeepO.cut x | apply Keep.cut x); rotate_left; intro _; clear_value x; rotate_right; subst x)
    | (extract_lets +onlyGivenNames x; refine KeepUnit.cut (m := ar) (s := s) x ?_ (fun hx => ?_); rotate_left; clear_value x; rotate_right; subst x)
    | (extract_lets +onlyGivenNames x; have hf : (∀ z, x z = x z) := fun _ => rfl; clear hf; subst x; try dsimp -zeta only)
    | (extract_lets +onlyGivenNames x; clear_value x)
    | apply Keep.takeUnit
    | (refine KeepUnit.of_eq ?_ (by assumption); first | assumption | apply Keep.takeUnit)
    | (refine Area.sub_trans (b := Touch.execPrivateUnit) ?_ har; decide)
    | dsimp -zeta only
    | split
    | intro _ _ _
    | intro _ _)

def Touch.execSequenceHeader : Nat := 0x2800008000300000000000000000000000000200002820200800000113000000027C00180A5120
theorem Keep.execSequenceHeader
    (har : Area.sub Touch.execSequenceHeader ar = true) (h : Keep ar s t) : KeepO ar s (Machine.execSequenceHeader t) := by
  unfold Machine.execSequenceHeader
  repeat' (with_reducible first
    | assumption
    | apply KeepO.next
    | apply KeepO.ite
    | (extract_lets +onlyGivenNames x; (first | apply KeepO.cut x | apply Keep.cut x); rotate_left; intro _; clear_value x; rotate_right; subst x)
    | (extract_lets +onlyGivenNames x; refine KeepUnit.cut (m := ar) (s := s) x ?_ (fun hx => ?_); rotate_left; clear_value x; rotate_right; subst x)
    | (extract_lets +onlyGivenNames x; clear_value x)
    | apply Keep.ite
    | apply Keep.streamRefuse
    | apply Keep.seqCheck
    | apply Keep.takeType
    | (refine KeepUnit.of_eq ?_ (by assumption); first | assumption | apply Keep.takeType)
    | (refine Area.sub_trans (b := Touch.execSequenceHeader) ?_ har; decide)
    | split
    | intro _ _ _
    | intro _ _)

def Touch.execOverlayCue : Nat := 0x8000000000000000000000000000000000000C0000000000000000000000000010380000
theorem Keep.execOverlayCue
    (har : Area.sub Touch.execOverlayCue ar = true) (h : Keep ar s t) : KeepO ar s (Machine.execOverlayCue t) := by
  unfold Machine.execOverlayCue
  repeat' (with_reducible first
    | assumption
    | (extract_lets +onlyGivenNames x; (first | apply KeepO.cut x | apply Keep.cut x); rotate_left; intro _; clear_value x; rotate_right; subst x)
    | (extract_lets +onlyGivenNames x; refine KeepUnit.cut (m := ar) (s := s) x ?_ (fun hx => ?_); rotate_left; clear_value x; rotate_right; subst x)
    | (extract_lets +onlyGivenNames x; refine KeepFst.cut (m := ar) (s := s) x ?_ (fun hx => ?_); rotate_left; clear_value x; obtain ⟨x, y⟩ := x; dsimp -zeta only at hx ⊢; rotate_right; subst x)
    | (extract_lets +onlyGivenNames x; clear_value x)
    | apply KeepO.ite
    | apply Keep.ite
    | split
    | apply KeepO.next
    | apply KeepFst.mk
    | apply KeepFst.ite
    | apply Keep.conceal
    | apply Keep.openUnit
    | apply Keep.takeType
    | apply Keep.unitFrame
    | (refine KeepUnit.of_eq ?_ (by assumption); first | assumption | apply Keep.takeType)
    | (refine KeepFst.of_eq ?_ (by assumption); first | apply Keep.openUnit | apply Keep.unitFrame | apply KeepFst.ite)
    | (apply KeepFst.fst; first | apply Keep.openUnit | apply Keep.unitFrame)
    | (refine Area.sub_trans (b := Touch.execOverlayCue) ?_ har; decide)
    | intro _ _ _
    | intro _ _
    | (refine Keep.rec_blt ?_ ?_; rotate_left; first | assumption | apply Keep.conceal | apply Keep.openUnit | apply Keep.takeType | apply Keep.unitFrame | (refine KeepUnit.of_eq ?_ (by assumption); first | assumption | apply Keep.takeType) | (refine KeepFst.of_eq ?_ (by assumption); first | apply Keep.openUnit | apply Keep.unitFrame | apply KeepFst.ite) | (apply KeepFst.fst; first | apply Keep.openUnit | apply Keep.unitFrame) | apply Keep.ite))

end Sys2Proof
end

