-- ==== Sys2Proof/Laws/KeepPorts.lean ====
section
/-!
SUPPORT. The operations and meanings of Machine/Ports.lean keep what `Keep` says.
-/

namespace Sys2Proof

open Sys2Proof.Machine

variable {ar : Nat} {s t u : Machine.State}

def Touch.bar2Fail : Nat := 0x280000858000000000000000000000000000000000000000000000000000000000000018000024
theorem Keep.bar2Fail {write : Bool} {off : Nat} {cause : Nat}
    (har : Area.sub Touch.bar2Fail ar = true) (h : Keep ar s t) : Keep ar s (Machine.State.bar2Fail t write off cause) := by
  unfold Machine.State.bar2Fail
  repeat' (with_reducible first
    | assumption
    | (extract_lets +onlyGivenNames x; (apply Keep.cut x); rotate_left; intro _; clear_value x; rotate_right; subst x)
    | (extract_lets +onlyGivenNames x; clear_value x)
    | apply Keep.ite
    | apply Keep.put
    | apply Keep.putB
    | apply Keep.bump
    | apply Keep.raise
    | apply Keep.recOther
    | (refine Area.sub_trans (b := Touch.bar2Fail) ?_ har; decide)
    | (refine Area.fld_mono (a := Touch.bar2Fail) ?_ har; decide)
    | split
    | intro _ _ _
    | intro _ _
    | (refine Keep.rec_bus ?_ ?_; rotate_left; first | assumption | apply Keep.put | apply Keep.putB | apply Keep.bump | apply Keep.raise | apply Keep.recOther | apply Keep.ite))

def Touch.bar2Now : Nat := 0x28000085803002001F000000000000000C020000000000000000000000000000021C0018626936
theorem Keep.bar2Now {base : Option Nat} {off : Nat} {len : Nat} {data : Option (List Sys2Proof.Byte)} {ecc : Sys2Proof.EccOutcome} {since : Nat}
    (har : Area.sub Touch.bar2Now ar = true) (h : Keep ar s t) : Keep ar s (Machine.State.bar2Now base off len data ecc since t) := by
  have ha : ∀ (x : Machine.State) (r : BusResp), Keep ar s x →
      Keep ar s ({ x with bus := { x.bus with resp := r } } : Machine.State) := fun _ _ k => Keep.rec_bus (Area.sub_trans (b := Touch.bar2Now) (by decide) har) k
  unfold Machine.State.bar2Now
  extract_lets write n answer src a cause s1

  have h1 : Keep ar s s1 := Keep.eccEffect (Area.sub_trans (b := Touch.bar2Now) (by decide) har) h
  split
  · exact h
  · split
    · split
      · exact Keep.bar2Fail (Area.sub_trans (b := Touch.bar2Now) (by decide) har) h
      · split
        · exact ha _ _ (Keep.rec_rst (Area.sub_trans (b := Touch.bar2Now) (by decide) har) rfl h)
        · exact ha _ _ h
    · split
      · exact Keep.bar2Fail (Area.sub_trans (b := Touch.bar2Now) (by decide) har) h
      · split
        · exact Keep.bar2Fail (Area.sub_trans (b := Touch.bar2Now) (by decide) har) h1
        · split
          · exact ha _ _ (Keep.guardedWrite (Area.sub_trans (b := Touch.bar2Now) (by decide) har) h1)
          · exact ha _ _ h1

def Touch.msixFlush : Nat := 0x800000000000000000000000000000000000000000000000000000000000000010000000
theorem Keep.msixFlush
    (har : Area.sub Touch.msixFlush ar = true) (h : Keep ar s t) : Keep ar s (Machine.State.msixFlush t) := by
  unfold Machine.State.msixFlush
  repeat' (with_reducible first
    | assumption
    | apply Keep.ite
    | apply Keep.put
    | apply Keep.msixSend
    | (refine Area.sub_trans (b := Touch.msixFlush) ?_ har; decide)
    | (refine Area.fld_mono (a := Touch.msixFlush) ?_ har; decide)
    | apply Keep.foldl
    | split
    | intro _ _ _
    | intro _ _)

def Touch.ethDown : Nat := 0x48800000000000000000000000000000000000000000000000000000000000000010080000
theorem Keep.ethDown {p : Nat}
    (har : Area.sub Touch.ethDown ar = true) (h : Keep ar s t) : Keep ar s (Machine.State.ethDown t p) := by
  unfold Machine.State.ethDown
  repeat' (with_reducible first
    | assumption
    | (extract_lets +onlyGivenNames x; (apply Keep.cut x); rotate_left; intro _; clear_value x; rotate_right; subst x)
    | (extract_lets +onlyGivenNames x; clear_value x)
    | apply Keep.ite
    | apply Keep.put
    | apply Keep.raise
    | apply Keep.inputMark
    | (refine Area.sub_trans (b := Touch.ethDown) ?_ har; decide)
    | (refine Area.fld_mono (a := Touch.ethDown) ?_ har; decide)
    | split
    | intro _ _ _
    | intro _ _)

def Touch.cageDrop : Nat := 0x280048800000000000000000000000000000000000000000000000000081000000000018880020
theorem Keep.cageDrop {k : Nat}
    (har : Area.sub Touch.cageDrop ar = true) (h : Keep ar s t) : Keep ar s (Machine.State.cageDrop t k) := by
  unfold Machine.State.cageDrop
  repeat' (with_reducible first
    | assumption
    | (extract_lets +onlyGivenNames x; (apply Keep.cut x); rotate_left; intro _; clear_value x; rotate_right; subst x)
    | (extract_lets +onlyGivenNames x; have hf : (∀ z, x z = x z) := fun _ => rfl; clear hf; subst x; try dsimp -zeta only)
    | (extract_lets +onlyGivenNames x; clear_value x)
    | apply Keep.ite
    | apply Keep.holdover
    | apply Keep.ethDown
    | (refine Area.sub_trans (b := Touch.cageDrop) ?_ har; decide)
    | apply Keep.foldl
    | dsimp -zeta only
    | split
    | intro _ _ _
    | intro _ _)

def Touch.captureBegin : Nat := 0x4000000000000000000000000000000000000000000000000000000000000000000002000000
theorem Keep.captureBegin
    (har : Area.sub Touch.captureBegin ar = true) (h : Keep ar s t) : Keep ar s (Machine.State.captureBegin t) := by
  unfold Machine.State.captureBegin
  repeat' (with_reducible first
    | assumption
    | (extract_lets +onlyGivenNames x; (apply Keep.cut x); rotate_left; intro _; clear_value x; rotate_right; subst x)
    | (extract_lets +onlyGivenNames x; clear_value x)
    | apply Keep.ite
    | apply Keep.put
    | (refine Area.sub_trans (b := Touch.captureBegin) ?_ har; decide)
    | (refine Area.fld_mono (a := Touch.captureBegin) ?_ har; decide)
    | split
    | intro _ _ _
    | intro _ _
    | (refine Keep.rec_host ?_ ?_; rotate_left; first | assumption | apply Keep.put | apply Keep.ite))

def Touch.careTake : Nat := 0x12000000
theorem Keep.careTake {p : Nat} {m : Sys2Proof.CareMsg}
    (har : Area.sub Touch.careTake ar = true) (h : Keep ar s t) : Keep ar s (Machine.State.careTake t p m) := by
  unfold Machine.State.careTake
  repeat' (with_reducible first
    | assumption
    | (extract_lets +onlyGivenNames x; (apply Keep.cut x); rotate_left; intro _; clear_value x; rotate_right; subst x)
    | (extract_lets +onlyGivenNames x; have hf : (∀ z, x z = x z) := fun _ => rfl; clear hf; subst x; try dsimp -zeta only)
    | (extract_lets +onlyGivenNames x; clear_value x)
    | apply Keep.ite
    | apply Keep.emit
    | (refine Area.sub_trans (b := Touch.careTake) ?_ har; decide)
    | dsimp -zeta only
    | split
    | intro _ _ _
    | intro _ _
    | (refine Keep.rec_host ?_ ?_; rotate_left; first | assumption | apply Keep.emit | apply Keep.ite))

def Touch.dptxChoose : Nat := 0x1000000000000000000000000000000000000000000000000000000000000000000000000000
theorem Keep.dptxChoose
    (har : Area.sub Touch.dptxChoose ar = true) (h : Keep ar s t) : Keep ar s (Machine.State.dptxChoose t) := by
  unfold Machine.State.dptxChoose
  repeat' (with_reducible first
    | assumption
    | (extract_lets +onlyGivenNames x; (apply Keep.cut x); rotate_left; intro _; clear_value x; rotate_right; subst x)
    | (extract_lets +onlyGivenNames x; clear_value x)
    | apply Keep.ite
    | apply Keep.put
    | apply Keep.putB
    | (refine Area.sub_trans (b := Touch.dptxChoose) ?_ har; decide)
    | (refine Area.fld_mono (a := Touch.dptxChoose) ?_ har; decide)
    | split
    | intro _ _ _
    | intro _ _)

def Touch.dptxTrain : Nat := 0x1000000000000000000000000000000000000000000000000000000000000000000000000000
theorem Keep.dptxTrain
    (har : Area.sub Touch.dptxTrain ar = true) (h : Keep ar s t) : Keep ar s (Machine.State.dptxTrain t) := by
  unfold Machine.State.dptxTrain
  repeat' (with_reducible first
    | assumption
    | (extract_lets +onlyGivenNames x; (apply Keep.cut x); rotate_left; intro _; clear_value x; rotate_right; subst x)
    | (extract_lets +onlyGivenNames x; clear_value x)
    | apply Keep.ite
    | apply Keep.put
    | apply Keep.dptxChoose
    | (refine Area.sub_trans (b := Touch.dptxTrain) ?_ har; decide)
    | (refine Area.fld_mono (a := Touch.dptxTrain) ?_ har; decide)
    | split
    | intro _ _ _
    | intro _ _)

def Touch.ethUp : Nat := 0x48800000000000000000000000000000000000000000000000000000000000000010000000
theorem Keep.ethUp {p : Nat}
    (har : Area.sub Touch.ethUp ar = true) (h : Keep ar s t) : Keep ar s (Machine.State.ethUp t p) := by
  unfold Machine.State.ethUp
  repeat' (with_reducible first
    | assumption
    | apply Keep.ite
    | apply Keep.put
    | apply Keep.raise
    | (refine Area.sub_trans (b := Touch.ethUp) ?_ har; decide)
    | (refine Area.fld_mono (a := Touch.ethUp) ?_ har; decide)
    | split
    | intro _ _ _
    | intro _ _)

def Touch.portStrobe : Nat := 0x2858C880000000000000000000000000000000000000000000000000008100000000009A880020
theorem Keep.portStrobe {old : Machine.State}
    (har : Area.sub Touch.portStrobe ar = true) (h : Keep ar s t) : Keep ar s (Machine.State.portStrobe t old) := by
  unfold Machine.State.portStrobe
  extract_lets cages v s1 s2 s3 s4 s5
  have h2 : Keep ar s s2 := Keep.foldl (fun _ _ k => k.cageDrop (Area.sub_trans (b := Touch.portStrobe) (by decide) har)) (Keep.rec_host (Area.sub_trans (b := Touch.portStrobe) (by decide) har) h)
  clear_value s2
  have h3 : Keep ar s s3 := Keep.ite (h2.put (Area.fld_mono (a := Touch.portStrobe) (by decide) har)) ((Keep.setWords (fun o ho => Area.word_shared (Area.bit_of_sub (a := Touch.portStrobe) har 31 (by decide))
    (List.all_eq_true.mp (by decide : prevTimingRegs.all sharedWord = true) o ho)) h2).put (Area.fld_mono (a := Touch.portStrobe) (by decide) har))
  clear_value s3
  have h4 : Keep ar s s4 := Keep.ite (h3.dpLost (Area.sub_trans (b := Touch.portStrobe) (by decide) har)) h3
  have h5 : Keep ar s s5 := Keep.ite h4 (h4.put (Area.fld_mono (a := Touch.portStrobe) (by decide) har))
  exact h5.dptxTrain (Area.sub_trans (b := Touch.portStrobe) (by decide) har)

def Touch.hostReset : Nat := 0x280000FC40000000000000000000000000000000000A000000000000000000000280001A0A0020
theorem Keep.hostReset
    (har : Area.sub Touch.hostReset ar = true) (h : Keep ar s t) : Keep ar s (Machine.State.hostReset t) := by
  unfold Machine.State.hostReset
  extract_lets regs s1 hs hi s2 s3
  have hw : ∀ o ∈ regs, Area.word ar o := by
    intro o ho
    simp only [regs, List.mem_append, List.mem_flatMap, List.mem_map, List.mem_range, List.mem_cons, List.not_mem_nil, or_false] at ho
    rcases ho with ⟨v, hv, k, hk, rfl⟩ | rfl | rfl | rfl | rfl | rfl
    · have hk4 : k = 0 ∨ k = 1 ∨ k = 2 ∨ k = 3 := by omega
      rcases hk4 with rfl | rfl | rfl | rfl
      · exact Area.word_of (f := R.HOST_MSIX_ADDR) (Area.fld_mono (a := Touch.hostReset) (by decide) har) ⟨v, 0, ⟨hv, by decide⟩, .inl (by simp [Fld.off, R.HOST_MSIX_ADDR]; omega)⟩
      · exact Area.word_of (f := R.HOST_MSIX_ADDR) (Area.fld_mono (a := Touch.hostReset) (by decide) har)
          ⟨v, 0, ⟨hv, by decide⟩, .inr ⟨by decide, by simp [Fld.off, R.HOST_MSIX_ADDR]; omega⟩⟩
      · exact Area.word_of (f := R.HOST_MSIX_DATA) (Area.fld_mono (a := Touch.hostReset) (by decide) har) ⟨v, 0, ⟨hv, by decide⟩, .inl (by simp [Fld.off, R.HOST_MSIX_DATA]; omega)⟩
      · exact Area.word_of (f := R.HOST_MSIX_CTRL) (Area.fld_mono (a := Touch.hostReset) (by decide) har) ⟨v, 0, ⟨hv, by decide⟩, .inl (by simp [Fld.off, R.HOST_MSIX_CTRL]; omega)⟩
    · exact Area.word_of (f := R.HOST_MSIX_PBA) (Area.fld_mono (a := Touch.hostReset) (by decide) har) ⟨0, 0, ⟨by decide, by decide⟩, .inl rfl⟩
    · exact Area.word_of (f := R.HOST_MSIX_PBA) (Area.fld_mono (a := Touch.hostReset) (by decide) har) ⟨0, 0, ⟨by decide, by decide⟩, .inr ⟨by decide, rfl⟩⟩
    · exact Area.word_of (f := R.HOST_BAR2_BASE) (Area.fld_mono (a := Touch.hostReset) (by decide) har) ⟨0, 0, ⟨by decide, by decide⟩, .inl rfl⟩
    · exact Area.word_of (f := R.HOST_BAR2_BASE) (Area.fld_mono (a := Touch.hostReset) (by decide) har) ⟨0, 0, ⟨by decide, by decide⟩, .inr ⟨by decide, rfl⟩⟩
    · exact Area.word_of (f := R.HOST_IRQ_MASK) (Area.fld_mono (a := Touch.hostReset) (by decide) har) ⟨0, 0, ⟨by decide, by decide⟩, .inl rfl⟩
  have h1 : Keep ar s s1 := Keep.setWords hw (Keep.bindBase (Area.sub_trans (b := Touch.hostReset) (by decide) har) (Keep.dropReads (Area.sub_trans (b := Touch.hostReset) (by decide) har) h))
  have h2 : Keep ar s s2 := Keep.rec_intk_host (Area.sub_trans (b := Touch.hostReset) (by decide) har) h1
  have h3 : Keep ar s s3 := Keep.ite (h2.dmaError (Area.sub_trans (b := Touch.hostReset) (by decide) har)) h2
  exact Keep.raiseRec (Area.fld_mono (a := Touch.hostReset) (by decide) har) (Area.sub_trans (b := Touch.hostReset) (by decide) har) (Keep.releaseLocks (Area.sub_trans (b := Touch.hostReset) (by decide) har) h3)

def Touch.prevSend : Nat := 0x10000000
theorem Keep.prevSend {fmt : Nat} {p : PrevPic}
    (har : Area.sub Touch.prevSend ar = true) (h : Keep ar s t) : Keep ar s (Machine.State.prevSend t fmt p) := by
  unfold Machine.State.prevSend
  repeat' (with_reducible first
    | assumption
    | (extract_lets +onlyGivenNames x; (apply Keep.cut x); rotate_left; intro _; clear_value x; rotate_right; subst x)
    | (extract_lets +onlyGivenNames x; clear_value x)
    | apply Keep.ite
    | apply Keep.emit
    | (refine Area.sub_trans (b := Touch.prevSend) ?_ har; decide)
    | split
    | intro _ _ _
    | intro _ _)

def Touch.setIp : Nat := 0x8000000000000000000000000000000000000000000000000000000000000000002000000
theorem Keep.setIp {p : Nat} {a : Option Nat} {lease : Bool}
    (har : Area.sub Touch.setIp ar = true) (h : Keep ar s t) : Keep ar s (Machine.State.setIp t p a lease) := by
  unfold Machine.State.setIp
  repeat' (with_reducible first
    | assumption
    | (extract_lets +onlyGivenNames x; (apply Keep.cut x); rotate_left; intro _; clear_value x; rotate_right; subst x)
    | (extract_lets +onlyGivenNames x; have hf : (∀ z, x z = x z) := fun _ => rfl; clear hf; subst x; try dsimp -zeta only)
    | (extract_lets +onlyGivenNames x; clear_value x)
    | apply Keep.putB
    | (refine Area.sub_trans (b := Touch.setIp) ?_ har; decide)
    | (refine Area.fld_mono (a := Touch.setIp) ?_ har; decide)
    | dsimp -zeta only
    | split
    | intro _ _ _
    | intro _ _
    | (refine Keep.rec_host ?_ ?_; rotate_left; first | assumption | apply Keep.putB))

def Touch.execDpLinkTrained : Nat := 0x280880800000000000000000000000000000000000001000000000000000000000010018080033
theorem Keep.execDpLinkTrained {rate : Nat} {lanes : Nat}
    (har : Area.sub Touch.execDpLinkTrained ar = true) (h : Keep ar s t) : KeepO ar s (Machine.execDpLinkTrained rate lanes t) := by
  unfold Machine.execDpLinkTrained
  repeat' (with_reducible first
    | assumption
    | apply KeepO.next
    | apply KeepO.ite
    | (extract_lets +onlyGivenNames x; (first | apply KeepO.cut x | apply Keep.cut x); rotate_left; intro _; clear_value x; rotate_right; subst x)
    | (extract_lets +onlyGivenNames x; have hf : RstState := x; clear hf; subst x)
    | (extract_lets +onlyGivenNames x; clear_value x)
    | apply Keep.ite
    | apply Keep.put
    | apply Keep.raise
    | apply Keep.boot
    | (refine Area.sub_trans (b := Touch.execDpLinkTrained) ?_ har; decide)
    | (refine Area.fld_mono (a := Touch.execDpLinkTrained) ?_ har; decide)
    | split
    | intro _ _ _
    | intro _ _
    | (refine Keep.rec_rst ?_ rfl ?_; rotate_left; first | assumption | apply Keep.put | apply Keep.raise | apply Keep.boot | apply Keep.ite))

def Touch.execHostPortReset : Nat := 0x280000FE60000000000000000000000000000000000A000000000000000000000280001A0A0020
theorem Keep.execHostPortReset
    (har : Area.sub Touch.execHostPortReset ar = true) (h : Keep ar s t) : KeepO ar s (Machine.execHostPortReset t) := by
  unfold Machine.execHostPortReset
  repeat' (with_reducible first
    | assumption
    | apply KeepO.next
    | apply KeepO.ite
    | (extract_lets +onlyGivenNames x; (first | apply KeepO.cut x | apply Keep.cut x); rotate_left; intro _; clear_value x; rotate_right; subst x)
    | (extract_lets +onlyGivenNames x; clear_value x)
    | apply Keep.ite
    | apply Keep.put
    | apply Keep.bump
    | apply Keep.raise
    | apply Keep.hostReset
    | (refine Area.sub_trans (b := Touch.execHostPortReset) ?_ har; decide)
    | (refine Area.fld_mono (a := Touch.execHostPortReset) ?_ har; decide)
    | split
    | intro _ _ _
    | intro _ _)

def Touch.execCageRetrainDone : Nat := 0x48800000000000000000000000000000000000000000000000000000000000000012000000
theorem Keep.execCageRetrainDone {k : Nat} {links : List Nat}
    (har : Area.sub Touch.execCageRetrainDone ar = true) (h : Keep ar s t) : KeepO ar s (Machine.execCageRetrainDone k links t) := by
  unfold Machine.execCageRetrainDone
  repeat' (with_reducible first
    | assumption
    | apply KeepO.next
    | apply KeepO.ite
    | (extract_lets +onlyGivenNames x; (first | apply KeepO.cut x | apply Keep.cut x); rotate_left; intro _; clear_value x; rotate_right; subst x)
    | (extract_lets +onlyGivenNames x; have hf : (∀ z, x z = x z) := fun _ => rfl; clear hf; subst x; try dsimp -zeta only)
    | (extract_lets +onlyGivenNames x; clear_value x)
    | apply Keep.ite
    | apply Keep.ethUp
    | (refine Area.sub_trans (b := Touch.execCageRetrainDone) ?_ har; decide)
    | apply Keep.foldl
    | dsimp -zeta only
    | split
    | intro _ _ _
    | intro _ _
    | (refine Keep.rec_host ?_ ?_; rotate_left; first | assumption | apply Keep.ethUp | apply Keep.ite | apply Keep.foldl))

def Touch.execBar2Access : Nat := 0x28000085803002001F000000000000000C020000000000000000000000000000021C0018626936
theorem Keep.execBar2Access {off : Nat} {len : Nat} {data : Option (List Sys2Proof.Byte)} {ecc : Sys2Proof.EccOutcome}
    (har : Area.sub Touch.execBar2Access ar = true) (h : Keep ar s t) : KeepO ar s (Machine.execBar2Access off len data ecc t) := by
  unfold Machine.execBar2Access
  repeat' (with_reducible first
    | assumption
    | apply KeepO.next
    | apply KeepO.ite
    | apply Keep.ite
    | apply Keep.bar2Now
    | apply Keep.hostWaits
    | (refine Area.sub_trans (b := Touch.execBar2Access) ?_ har; decide)
    | split
    | intro _ _ _
    | intro _ _
    | (refine Keep.rec_rst_bus ?_ rfl ?_; rotate_left; first | assumption | apply Keep.bar2Now | apply Keep.hostWaits | apply Keep.ite))

def Touch.execEthLinkChange : Nat := 0x48800000000000000000000000000000000000000000000000000000000000000010080000
theorem Keep.execEthLinkChange {p : Nat} {up : Bool}
    (har : Area.sub Touch.execEthLinkChange ar = true) (h : Keep ar s t) : KeepO ar s (Machine.execEthLinkChange p up t) := by
  unfold Machine.execEthLinkChange
  repeat' (with_reducible first
    | assumption
    | apply KeepO.next
    | apply KeepO.ite
    | apply Keep.ite
    | apply Keep.ethDown
    | apply Keep.ethUp
    | (refine Area.sub_trans (b := Touch.execEthLinkChange) ?_ har; decide)
    | split
    | intro _ _ _
    | intro _ _)

def Touch.execDptxHotplug : Nat := 0x3000000000000000000000000000000000000000000000000000000000000000000002000000
theorem Keep.execDptxHotplug {hpd : Bool} {rate : Nat} {lanes : Nat} {ten : Bool} {edid : List Sys2Proof.Byte}
    (har : Area.sub Touch.execDptxHotplug ar = true) (h : Keep ar s t) : KeepO ar s (Machine.execDptxHotplug hpd rate lanes ten edid t) := by
  unfold Machine.execDptxHotplug
  repeat' (with_reducible first
    | assumption
    | apply KeepO.next
    | apply KeepO.ite
    | (extract_lets +onlyGivenNames x; (first | apply KeepO.cut x | apply Keep.cut x); rotate_left; intro _; clear_value x; rotate_right; subst x)
    | (extract_lets +onlyGivenNames x; have hf : (∀ z, x z = x z) := fun _ => rfl; clear hf; subst x; try dsimp -zeta only)
    | (extract_lets +onlyGivenNames x; clear_value x)
    | apply Keep.ite
    | apply Keep.put
    | apply Keep.dptxTrain
    | (refine Area.sub_trans (b := Touch.execDptxHotplug) ?_ har; decide)
    | (refine Area.fld_mono (a := Touch.execDptxHotplug) ?_ har; decide)
    | apply Keep.foldl
    | dsimp -zeta only
    | split
    | intro _ _ _
    | intro _ _
    | (refine Keep.rec_host ?_ ?_; rotate_left; first | assumption | apply Keep.put | apply Keep.dptxTrain | apply Keep.ite | apply Keep.foldl))

def Touch.execDhcpLeaseTimer : Nat := 0x8000000000000000000000000000000000000000000000000000000000000000002000000
theorem Keep.execDhcpLeaseTimer {p : Nat} {renewed : Option Nat} {expired : Bool}
    (har : Area.sub Touch.execDhcpLeaseTimer ar = true) (h : Keep ar s t) : KeepO ar s (Machine.execDhcpLeaseTimer p renewed expired t) := by
  unfold Machine.execDhcpLeaseTimer
  repeat' (with_reducible first
    | assumption
    | apply KeepO.next
    | apply KeepO.ite
    | (extract_lets +onlyGivenNames x; (first | apply KeepO.cut x | apply Keep.cut x); rotate_left; intro _; clear_value x; rotate_right; subst x)
    | (extract_lets +onlyGivenNames x; clear_value x)
    | apply Keep.ite
    | apply Keep.setIp
    | (refine Area.sub_trans (b := Touch.execDhcpLeaseTimer) ?_ har; decide)
    | split
    | intro _ _ _
    | intro _ _)

def Touch.execHostLinkUp : Nat := 0x842000000000000000000000000000000000000000000000000000000000000010000000
theorem Keep.execHostLinkUp {gen : Nat} {width : Nat}
    (har : Area.sub Touch.execHostLinkUp ar = true) (h : Keep ar s t) : KeepO ar s (Machine.execHostLinkUp gen width t) := by
  unfold Machine.execHostLinkUp
  repeat' (with_reducible first
    | assumption
    | apply KeepO.next
    | apply KeepO.ite
    | apply Keep.ite
    | apply Keep.put
    | apply Keep.raise
    | (refine Area.sub_trans (b := Touch.execHostLinkUp) ?_ har; decide)
    | (refine Area.fld_mono (a := Touch.execHostLinkUp) ?_ har; decide)
    | split
    | intro _ _ _
    | intro _ _)

def Touch.execHdcpStateChange : Nat := 0x880800000000000000000000000000000000000000000000000000000000000000010000000
theorem Keep.execHdcpStateChange {v : Nat}
    (har : Area.sub Touch.execHdcpStateChange ar = true) (h : Keep ar s t) : KeepO ar s (Machine.execHdcpStateChange v t) := by
  unfold Machine.execHdcpStateChange
  repeat' (with_reducible first
    | assumption
    | apply KeepO.next
    | apply KeepO.ite
    | apply Keep.ite
    | apply Keep.put
    | apply Keep.raise
    | (refine Area.sub_trans (b := Touch.execHdcpStateChange) ?_ har; decide)
    | (refine Area.fld_mono (a := Touch.execHdcpStateChange) ?_ har; decide)
    | split
    | intro _ _ _
    | intro _ _)

def Touch.execEthFrame : Nat := 0x2800308000000000000000004002000000000000000C600000000000008F00000000001A880220
theorem Keep.execEthFrame {p : Nat} {f : Sys2Proof.EthFrame}
    (har : Area.sub Touch.execEthFrame ar = true) (h : Keep ar s t) : KeepO ar s (Machine.execEthFrame p f t) := by
  unfold Machine.execEthFrame
  repeat' (with_reducible first
    | assumption
    | apply KeepO.next
    | apply KeepO.ite
    | (extract_lets +onlyGivenNames x; (first | apply KeepO.cut x | apply Keep.cut x); rotate_left; intro _; clear_value x; rotate_right; subst x)
    | (extract_lets +onlyGivenNames x; clear_value x)
    | apply Keep.ite
    | apply Keep.bump
    | apply Keep.count
    | apply Keep.careTake
    | apply Keep.ptpTake
    | apply Keep.rtpTake
    | (refine Area.sub_trans (b := Touch.execEthFrame) ?_ har; decide)
    | (refine Area.fld_mono (a := Touch.execEthFrame) ?_ har; decide)
    | split
    | intro _ _ _
    | intro _ _)

def Touch.execPreviewCaptureDone : Nat := 0x4000000000000000000000000000000000000000000000000000000000000000000002000000
theorem Keep.execPreviewCaptureDone
    (har : Area.sub Touch.execPreviewCaptureDone ar = true) (h : Keep ar s t) : KeepO ar s (Machine.execPreviewCaptureDone t) := by
  unfold Machine.execPreviewCaptureDone
  repeat' (with_reducible first
    | assumption
    | apply KeepO.next
    | apply KeepO.ite
    | (extract_lets +onlyGivenNames x; (first | apply KeepO.cut x | apply Keep.cut x); rotate_left; intro _; clear_value x; rotate_right; subst x)
    | (extract_lets +onlyGivenNames x; clear_value x)
    | apply Keep.ite
    | apply Keep.putB
    | (refine Area.sub_trans (b := Touch.execPreviewCaptureDone) ?_ har; decide)
    | (refine Area.fld_mono (a := Touch.execPreviewCaptureDone) ?_ har; decide)
    | split
    | intro _ _ _
    | intro _ _
    | (refine Keep.rec_host ?_ ?_; rotate_left; first | assumption | apply Keep.putB | apply Keep.ite))

def Touch.execPreviewFrame : Nat := 0xC000000000000000000000000000000000000000000000000000000000000000000012000000
theorem Keep.execPreviewFrame
    (har : Area.sub Touch.execPreviewFrame ar = true) (h : Keep ar s t) : KeepO ar s (Machine.execPreviewFrame t) := by
  have h0 : Keep ar s (t.count R.PREV_FRAME 1) := h.count (Area.fld_mono (a := Touch.execPreviewFrame) (by decide) har)
  unfold Machine.execPreviewFrame
  extract_lets x src s1 src2 s2
  have h1 : Keep ar s s1 := Keep.rec_host (Area.sub_trans (b := Touch.execPreviewFrame) (by decide) har) h0
  have h2 : Keep ar s s2 := by
    dsimp -zeta only [s2]
    split
    · exact ((Keep.rec_host (Area.sub_trans (b := Touch.execPreviewFrame) (by decide) har) h1).put (Area.fld_mono (a := Touch.execPreviewFrame) (by decide) har)).put (Area.fld_mono (a := Touch.execPreviewFrame) (by decide) har)
    · exact h1
  clear_value s1 s2
  split
  · exact KeepO.ite (KeepO.next (Keep.prevSend (Area.sub_trans (b := Touch.execPreviewFrame) (by decide) har) (h1.put (Area.fld_mono (a := Touch.execPreviewFrame) (by decide) har)))) (KeepO.next (Keep.prevSend (Area.sub_trans (b := Touch.execPreviewFrame) (by decide) har) (h1.put (Area.fld_mono (a := Touch.execPreviewFrame) (by decide) har))))
  · exact KeepO.next (Keep.prevSend (Area.sub_trans (b := Touch.execPreviewFrame) (by decide) har) h2)

def Touch.execQsfpPlug : Nat := 0x4A800000000000000000000000000000000000000000000000000000000000000010080000
theorem Keep.execQsfpPlug {k : Nat} {plugged : Option (Nat × Nat)}
    (har : Area.sub Touch.execQsfpPlug ar = true) (h : Keep ar s t) : KeepO ar s (Machine.execQsfpPlug k plugged t) := by
  unfold Machine.execQsfpPlug
  repeat' (with_reducible first
    | assumption
    | apply KeepO.next
    | apply KeepO.ite
    | (extract_lets +onlyGivenNames x; (first | apply KeepO.cut x | apply Keep.cut x); rotate_left; intro _; clear_value x; rotate_right; subst x)
    | (extract_lets +onlyGivenNames x; have hf : (∀ z, x z = x z) := fun _ => rfl; clear hf; subst x; try dsimp -zeta only)
    | (extract_lets +onlyGivenNames x; clear_value x)
    | apply Keep.ite
    | apply Keep.put
    | apply Keep.putB
    | apply Keep.raise
    | apply Keep.ethDown
    | (refine Area.sub_trans (b := Touch.execQsfpPlug) ?_ har; decide)
    | (refine Area.fld_mono (a := Touch.execQsfpPlug) ?_ har; decide)
    | apply Keep.foldl
    | dsimp -zeta only
    | split
    | intro _ _ _
    | intro _ _)

def Touch.execFunctionLevelReset : Nat := 0x280000FE40000000000000000000000000000000000A000000000000000000000280001A0A0020
theorem Keep.execFunctionLevelReset
    (har : Area.sub Touch.execFunctionLevelReset ar = true) (h : Keep ar s t) : KeepO ar s (Machine.execFunctionLevelReset t) := by
  unfold Machine.execFunctionLevelReset
  repeat' (with_reducible first
    | assumption
    | apply KeepO.next
    | apply KeepO.ite
    | apply Keep.bump
    | apply Keep.hostReset
    | (refine Area.sub_trans (b := Touch.execFunctionLevelReset) ?_ har; decide)
    | (refine Area.fld_mono (a := Touch.execFunctionLevelReset) ?_ har; decide)
    | intro _ _ _
    | intro _ _)

def Touch.execMsixPendingSend : Nat := 0x800000000000000000000000000000000000000000000000000000000000000012000000
theorem Keep.execMsixPendingSend {enable : Bool} {mask : Bool}
    (har : Area.sub Touch.execMsixPendingSend ar = true) (h : Keep ar s t) : KeepO ar s (Machine.execMsixPendingSend enable mask t) := by
  unfold Machine.execMsixPendingSend
  repeat' (with_reducible first
    | assumption
    | apply KeepO.next
    | apply KeepO.ite
    | (extract_lets +onlyGivenNames x; (first | apply KeepO.cut x | apply Keep.cut x); rotate_left; intro _; clear_value x; rotate_right; subst x)
    | (extract_lets +onlyGivenNames x; have hf : (∀ z, x z = x z) := fun _ => rfl; clear hf; subst x; try dsimp -zeta only)
    | (extract_lets +onlyGivenNames x; clear_value x)
    | apply Keep.msixFlush
    | (refine Area.sub_trans (b := Touch.execMsixPendingSend) ?_ har; decide)
    | dsimp -zeta only
    | intro _ _ _
    | intro _ _
    | (refine Keep.rec_host ?_ ?_; rotate_left; first | assumption | apply Keep.msixFlush))

end Sys2Proof
end

