-- ==== Sys2Proof/Laws/KeepStrobe.lean ====
section
/-!
SUPPORT. The operations and meanings of Machine/Strobe.lean keep what `Keep` says.
-/

namespace Sys2Proof

open Sys2Proof.Machine

variable {ar : Nat} {s t u : Machine.State}

def Touch.strobeSet : Nat := 0x800000000000000000000000000000000000000000000000000000000000002310000008
theorem Keep.strobeSet {x : Strobe}
    (har : Area.sub Touch.strobeSet ar = true) (h : Keep ar s t) : Keep ar s (Machine.State.strobeSet t x) := by
  unfold Machine.State.strobeSet
  repeat' (with_reducible first
    | assumption
    | (extract_lets +onlyGivenNames x; (apply Keep.cut x); rotate_left; intro _; clear_value x; rotate_right; subst x)
    | (extract_lets +onlyGivenNames x; have hf : (∀ z, x z = x z) := fun _ => rfl; clear hf; subst x; try dsimp -zeta only)
    | (extract_lets +onlyGivenNames x; clear_value x)
    | apply Keep.ite
    | apply Keep.put
    | apply Keep.raise
    | (refine Area.sub_trans (b := Touch.strobeSet) ?_ har; decide)
    | (refine Area.fld_mono (a := Touch.strobeSet) ?_ har; decide)
    | dsimp -zeta only
    | split
    | intro _ _ _
    | intro _ _
    | (refine Keep.rec_strobes ?_ ?_; rotate_left; first | assumption | apply Keep.put | apply Keep.raise | apply Keep.ite))

def Touch.strobeForward : Nat := 0x10000100
theorem Keep.strobeForward {x : Strobe}
    (har : Area.sub Touch.strobeForward ar = true) (h : Keep ar s t) : Keep ar s (Machine.State.strobeForward t x) := by
  unfold Machine.State.strobeForward
  repeat' (with_reducible first
    | assumption
    | (extract_lets +onlyGivenNames x; (apply Keep.cut x); rotate_left; intro _; clear_value x; rotate_right; subst x)
    | (extract_lets +onlyGivenNames x; clear_value x)
    | apply Keep.ite
    | apply Keep.sendPair
    | (refine Area.sub_trans (b := Touch.strobeForward) ?_ har; decide)
    | split
    | intro _ _ _
    | intro _ _)

def Touch.strobeLate : Nat := 0x800000000000000000000000000000000000000000000000000000000000002210000000
theorem Keep.strobeLate {g : Nat}
    (har : Area.sub Touch.strobeLate ar = true) (h : Keep ar s t) : Keep ar s (Machine.State.strobeLate t g) := by
  unfold Machine.State.strobeLate
  repeat' (with_reducible first
    | assumption
    | apply Keep.put
    | apply Keep.raise
    | (refine Area.sub_trans (b := Touch.strobeLate) ?_ har; decide)
    | (refine Area.fld_mono (a := Touch.strobeLate) ?_ har; decide)
    | intro _ _ _
    | intro _ _)

def Touch.update : Nat := 0x800000000000000000000000000300000000000000000000000000000000002310000108
theorem Keep.update {groups : Nat} {w : Sys2Proof.When}
    (har : Area.sub Touch.update ar = true) (h : Keep ar s t) : Keep ar s (Machine.State.update t groups w) := by
  unfold Machine.State.update
  repeat' (with_reducible first
    | assumption
    | (extract_lets +onlyGivenNames x; (apply Keep.cut x); rotate_left; intro _; clear_value x; rotate_right; subst x)
    | (extract_lets +onlyGivenNames x; have hf : (∀ z, x z = x z) := fun _ => rfl; clear hf; subst x; try dsimp -zeta only)
    | (extract_lets +onlyGivenNames x; clear_value x)
    | apply Keep.ite
    | apply Keep.bufStates
    | apply Keep.strobeSet
    | apply Keep.strobeForward
    | apply Keep.strobeLate
    | (refine Area.sub_trans (b := Touch.update) ?_ har; decide)
    | apply Keep.foldl
    | dsimp -zeta only
    | split
    | intro _ _ _
    | intro _ _)

def Touch.updateBy : Nat := 0x280000800030000000000000000000000300000000000000000000000000000000002310000128
theorem Keep.updateBy {r : Sys2Proof.Req} {groups : Nat} {w : Sys2Proof.When}
    (har : Area.sub Touch.updateBy ar = true) (h : Keep ar s t) : Keep ar s (Machine.State.updateBy t r groups w) := by
  unfold Machine.State.updateBy
  repeat' (with_reducible first
    | assumption
    | apply Keep.ite
    | apply Keep.mirrorDrop
    | apply Keep.update
    | (refine Area.sub_trans (b := Touch.updateBy) ?_ har; decide)
    | split
    | intro _ _ _
    | intro _ _)

def Touch.execPersActCancel : Nat := 0x2800008000300000000000000000000000000000000000000000000001000000027C0018005120
theorem Keep.execPersActCancel {r : Sys2Proof.Req}
    (har : Area.sub Touch.execPersActCancel ar = true) (h : Keep ar s t) : KeepO ar s (Machine.execPersActCancel r t) := by
  unfold Machine.execPersActCancel
  repeat' (with_reducible first
    | assumption
    | apply KeepO.next
    | apply KeepO.ite
    | (extract_lets +onlyGivenNames x; (first | apply KeepO.cut x | apply Keep.cut x); rotate_left; intro _; clear_value x; rotate_right; subst x)
    | (extract_lets +onlyGivenNames x; clear_value x)
    | apply Keep.ite
    | apply Keep.sendPair
    | apply Keep.setPend
    | apply Keep.actDropped
    | apply Keep.mirrorDrop
    | (refine Area.sub_trans (b := Touch.execPersActCancel) ?_ har; decide)
    | split
    | intro _ _ _
    | intro _ _)

def Touch.copyGroup : Nat := 0x80000000
theorem Keep.copyGroup {g : Nat} {sel : Nat → Bool}
    (har : Area.sub Touch.copyGroup ar = true) (h : Keep ar s t) : Keep ar s (Machine.State.copyGroup t g sel) := by
  unfold Machine.State.copyGroup
  refine Keep.foldl (fun t' k h' => ?_) h
  split
  · rename_i r i j e
    split
    · rename_i hc
      refine h'.setWord (Area.word_shared (Area.bit_of_sub (a := Touch.copyGroup) har 31 (by decide)) ?_)
      unfold sharedWord
      rw [e]
      simp [hc.2.1]
    · exact h'
  · exact h'

def Touch.drawnStrobe : Nat := 0x200000
theorem Keep.drawnStrobe {old : Machine.State} {n : Nat}
    (har : Area.sub Touch.drawnStrobe ar = true) (h : Keep ar s t) : Keep ar s (Machine.State.drawnStrobe t old n) := by
  unfold Machine.State.drawnStrobe
  repeat' (with_reducible first
    | assumption
    | (extract_lets +onlyGivenNames x; (apply Keep.cut x); rotate_left; intro _; clear_value x; rotate_right; subst x)
    | (extract_lets +onlyGivenNames x; clear_value x)
    | apply Keep.ite
    | apply Keep.setDrawn
    | (refine Area.sub_trans (b := Touch.drawnStrobe) ?_ har; decide)
    | split
    | intro _ _ _
    | intro _ _)

def Touch.strobeDone : Nat := 0x800000000000000000000000000000000000000000000000000000000000002110000008
theorem Keep.strobeDone {g : Nat}
    (har : Area.sub Touch.strobeDone ar = true) (h : Keep ar s t) : Keep ar s (Machine.State.strobeDone t g) := by
  unfold Machine.State.strobeDone
  repeat' (with_reducible first
    | assumption
    | (extract_lets +onlyGivenNames x; (apply Keep.cut x); rotate_left; intro _; clear_value x; rotate_right; subst x)
    | (extract_lets +onlyGivenNames x; have hf : (∀ z, x z = x z) := fun _ => rfl; clear hf; subst x; try dsimp -zeta only)
    | (extract_lets +onlyGivenNames x; clear_value x)
    | apply Keep.put
    | apply Keep.raise
    | (refine Area.sub_trans (b := Touch.strobeDone) ?_ har; decide)
    | (refine Area.fld_mono (a := Touch.strobeDone) ?_ har; decide)
    | dsimp -zeta only
    | intro _ _ _
    | intro _ _
    | (refine Keep.rec_strobes ?_ ?_; rotate_left; first | assumption | apply Keep.put | apply Keep.raise))

def Touch.timingStrobe : Nat := 0x800000000000000000400000000000000000000000000000000000000000000090000200
theorem Keep.timingStrobe {old : Machine.State}
    (har : Area.sub Touch.timingStrobe ar = true) (h : Keep ar s t) : Keep ar s (Machine.State.timingStrobe t old) := by
  have h1 : Keep ar s (t.copyGroup 6 (fun _ => true)) := Keep.copyGroup (Area.sub_trans (b := Touch.timingStrobe) (by decide) har) h
  have h2 : Keep ar s (timingRegs.foldl (fun t o => t.setWord o (old.word o)) (t.copyGroup 6 (fun _ => true))) :=
    Keep.setWords (fun o ho => Area.word_shared (Area.bit_of_sub (a := Touch.timingStrobe) har 31 (by decide)) (List.all_eq_true.mp (by decide : timingRegs.all sharedWord = true) o ho)) h1
  have h3 := Keep.raise (b := .pseq) (bit := 3) (Area.fld_mono (a := Touch.timingStrobe) (by decide) har) (Area.sub_trans (b := Touch.timingStrobe) (by decide) har) h2
  unfold Machine.State.timingStrobe
  extract_lets s1 s2
  have hs : Keep ar s s2 := by
    dsimp -zeta only [s2]
    split <;> assumption
  clear_value s2
  split
  · exact hs
  · exact Keep.rec_pseq (Area.sub_trans (b := Touch.timingStrobe) (by decide) har) hs

def Touch.sigStrobe : Nat := 0x1E000000000000000000000000000000000000000000000
theorem Keep.sigStrobe {old : Machine.State} {r : Nat}
    (har : Area.sub Touch.sigStrobe ar = true) (h : Keep ar s t) : Keep ar s (Machine.State.sigStrobe t old r) := by
  unfold Machine.State.sigStrobe
  repeat' (with_reducible first
    | assumption
    | apply Keep.ite
    | apply Keep.put
    | (refine Area.sub_trans (b := Touch.sigStrobe) ?_ har; decide)
    | (refine Area.fld_mono (a := Touch.sigStrobe) ?_ har; decide)
    | split
    | intro _ _ _
    | intro _ _)

def Touch.strobeEffect : Nat := 0x2858C8801000000000E8300040020001EB4400000068200000000000008100000000009BAE0620
theorem Keep.strobeEffect {old : Machine.State} {g : Nat}
    (har : Area.sub Touch.strobeEffect ar = true) (h : Keep ar s t) : Keep ar s (Machine.State.strobeEffect t old g) := by
  unfold Machine.State.strobeEffect
  repeat' (with_reducible first
    | assumption
    | (extract_lets +onlyGivenNames x; (apply Keep.cut x); rotate_left; intro _; clear_value x; rotate_right; subst x)
    | (extract_lets +onlyGivenNames x; have hf : (∀ z, x z = x z) := fun _ => rfl; clear hf; subst x; try dsimp -zeta only)
    | (extract_lets +onlyGivenNames x; clear_value x)
    | apply Keep.applyLink
    | apply Keep.bufStates
    | apply Keep.toneEff
    | apply Keep.ovlyStat
    | apply Keep.drawnStrobe
    | apply Keep.engineOff
    | apply Keep.sigStrobe
    | apply Keep.timeStrobe
    | apply Keep.portStrobe
    | apply Keep.srcSwitch
    | (refine Area.sub_trans (b := Touch.strobeEffect) ?_ har; decide)
    | apply Keep.foldl
    | dsimp -zeta only
    | split
    | intro _ _ _
    | intro _ _
    | (refine Keep.rec_view ?_ ?_; rotate_left; first | assumption | apply Keep.applyLink | apply Keep.bufStates | apply Keep.toneEff | apply Keep.ovlyStat | apply Keep.drawnStrobe | apply Keep.engineOff | apply Keep.sigStrobe | apply Keep.timeStrobe | apply Keep.portStrobe | apply Keep.srcSwitch | apply Keep.foldl))

def Touch.steerClamp : Nat := 0x800000000000000000000000000000000000000020400000000000000000000010000000
theorem Keep.steerClamp
    (har : Area.sub Touch.steerClamp ar = true) (h : Keep ar s t) : Keep ar s (Machine.State.steerClamp t) := by
  unfold Machine.State.steerClamp
  repeat' (with_reducible first
    | assumption
    | (extract_lets +onlyGivenNames x; (apply Keep.cut x); rotate_left; intro _; clear_value x; rotate_right; subst x)
    | (extract_lets +onlyGivenNames x; have hf : (∀ z, x z = x z) := fun _ => rfl; clear hf; subst x; try dsimp -zeta only)
    | (extract_lets +onlyGivenNames x; clear_value x)
    | apply Keep.ite
    | apply Keep.putI
    | apply Keep.raise
    | (refine Area.sub_trans (b := Touch.steerClamp) ?_ har; decide)
    | (refine Area.fld_mono (a := Touch.steerClamp) ?_ har; decide)
    | apply Keep.foldl
    | dsimp -zeta only
    | split
    | intro _ _ _
    | intro _ _)

def Touch.geomStrobe : Nat := 0x800000000000000000000000000000000000000020400000000000000000000090000000
theorem Keep.geomStrobe
    (har : Area.sub Touch.geomStrobe ar = true) (h : Keep ar s t) : Keep ar s (Machine.State.geomStrobe t) := by
  unfold Machine.State.geomStrobe
  repeat' (with_reducible first
    | assumption
    | (extract_lets +onlyGivenNames x; (apply Keep.cut x); rotate_left; intro _; clear_value x; rotate_right; subst x)
    | (extract_lets +onlyGivenNames x; have hf : (∀ z, x z = x z) := fun _ => rfl; clear hf; subst x; try dsimp -zeta only)
    | (extract_lets +onlyGivenNames x; clear_value x)
    | apply Keep.raiseIf
    | apply Keep.copyGroup
    | apply Keep.steerClamp
    | (refine Area.sub_trans (b := Touch.geomStrobe) ?_ har; decide)
    | (refine Area.fld_mono (a := Touch.geomStrobe) ?_ har; decide)
    | dsimp -zeta only
    | intro _ _ _
    | intro _ _)

def Touch.strobeApply : Nat := 0x2858C8801000000000E8300040020001EB4400000068202040000000008100000000219BAE0628
theorem Keep.strobeApply {g : Nat}
    (har : Area.sub Touch.strobeApply ar = true) (h : Keep ar s t) : Keep ar s (Machine.State.strobeApply t g) := by
  unfold Machine.State.strobeApply
  repeat' (with_reducible first
    | assumption
    | (extract_lets +onlyGivenNames x; (apply Keep.cut x); rotate_left; intro _; clear_value x; rotate_right; subst x)
    | (extract_lets +onlyGivenNames x; have hf : (∀ z, x z = x z) := fun _ => rfl; clear hf; subst x; try dsimp -zeta only)
    | (extract_lets +onlyGivenNames x; clear_value x)
    | apply Keep.ite
    | apply Keep.copyGroup
    | apply Keep.strobeDone
    | apply Keep.timingStrobe
    | apply Keep.strobeEffect
    | apply Keep.geomStrobe
    | (refine Area.sub_trans (b := Touch.strobeApply) ?_ har; decide)
    | dsimp -zeta only
    | split
    | intro _ _ _
    | intro _ _)

def Touch.strobesAt : Nat := 0x2858C8801000000000E8300040020001EB4400000068202040000000008100000000219BAE0628
theorem Keep.strobesAt {gs : List Nat} {launch : Int} {sf : Nat} {frame : Bool}
    (har : Area.sub Touch.strobesAt ar = true) (h : Keep ar s t) : Keep ar s (Machine.State.strobesAt t gs launch sf frame) := by
  unfold Machine.State.strobesAt
  repeat' (with_reducible first
    | assumption
    | (extract_lets +onlyGivenNames x; (apply Keep.cut x); rotate_left; intro _; clear_value x; rotate_right; subst x)
    | (extract_lets +onlyGivenNames x; have hf : (∀ z, x z = x z) := fun _ => rfl; clear hf; subst x; try dsimp -zeta only)
    | (extract_lets +onlyGivenNames x; clear_value x)
    | apply Keep.ite
    | apply Keep.strobeApply
    | (refine Area.sub_trans (b := Touch.strobesAt) ?_ har; decide)
    | apply Keep.foldl
    | dsimp -zeta only
    | split
    | intro _ _ _
    | intro _ _)

def Touch.updateIn : Nat := 0x280000800030000000000000000000000300000000000000000000000000000000002310020128
theorem Keep.updateIn {r : Sys2Proof.Req} {groups : Nat} {w : Sys2Proof.When}
    (har : Area.sub Touch.updateIn ar = true) (h : Keep ar s t) : Keep ar s (Machine.State.updateIn t r groups w) := by
  unfold Machine.State.updateIn
  repeat' (with_reducible first
    | assumption
    | apply Keep.ite
    | apply Keep.hostWaits
    | apply Keep.updateBy
    | (refine Area.sub_trans (b := Touch.updateIn) ?_ har; decide)
    | split
    | intro _ _ _
    | intro _ _)

def Touch.execUpdateNextFrame : Nat := 0x280000800030000000000000000000000300000000000000000000000000000000002310020128
theorem Keep.execUpdateNextFrame {r : Sys2Proof.Req} {groups : Nat}
    (har : Area.sub Touch.execUpdateNextFrame ar = true) (h : Keep ar s t) : KeepO ar s (Machine.execUpdateNextFrame r groups t) := by
  unfold Machine.execUpdateNextFrame
  repeat' (with_reducible first
    | assumption
    | apply KeepO.next
    | apply KeepO.ite
    | apply Keep.updateIn
    | (refine Area.sub_trans (b := Touch.execUpdateNextFrame) ?_ har; decide)
    | intro _ _ _
    | intro _ _)

def Touch.execPersActNextFrame : Nat := 0x2800008000300000000000000000000000000000000000000000000113000000027C0018005120
theorem Keep.execPersActNextFrame {r : Sys2Proof.Req} {slot : Nat}
    (har : Area.sub Touch.execPersActNextFrame ar = true) (h : Keep ar s t) : KeepO ar s (Machine.execPersActNextFrame r slot t) := by
  unfold Machine.execPersActNextFrame
  repeat' (with_reducible first
    | assumption
    | apply KeepO.next
    | apply KeepO.ite
    | apply Keep.actBy
    | (refine Area.sub_trans (b := Touch.execPersActNextFrame) ?_ har; decide)
    | intro _ _ _
    | intro _ _)

def Touch.execMirrorStrobe : Nat := 0x2800008000806000000000000000000000000000000000000000000113000000027C2318005128
theorem Keep.execMirrorStrobe {value : Sys2Proof.Word} {time : Bool} {target : Nat} {digest : List Sys2Proof.Byte} {act : Bool}
    (har : Area.sub Touch.execMirrorStrobe ar = true) (h : Keep ar s t) : KeepO ar s (Machine.execMirrorStrobe value time target digest act t) := by
  unfold Machine.execMirrorStrobe
  repeat' (with_reducible first
    | assumption
    | apply KeepO.next
    | apply KeepO.ite
    | (extract_lets +onlyGivenNames x; (first | apply KeepO.cut x | apply Keep.cut x); rotate_left; intro _; clear_value x; rotate_right; subst x)
    | (extract_lets +onlyGivenNames x; have hf : (∀ z, x z = x z) := fun _ => rfl; clear hf; subst x; try dsimp -zeta only)
    | (extract_lets +onlyGivenNames x; clear_value x)
    | apply Keep.ite
    | apply Keep.actRefuse
    | apply Keep.setPend
    | apply Keep.actDropped
    | apply Keep.actRequest
    | apply Keep.setFit
    | apply Keep.strobeSet
    | apply Keep.strobeLate
    | apply Keep.outOfStep
    | apply Keep.rxNext
    | (refine Area.sub_trans (b := Touch.execMirrorStrobe) ?_ har; decide)
    | apply Keep.foldl
    | dsimp -zeta only
    | split
    | intro _ _ _
    | intro _ _)

def Touch.execUpdateAtTime : Nat := 0x280000800030000000000000000000000300000000000000000000000000000000002310020128
theorem Keep.execUpdateAtTime {r : Sys2Proof.Req} {groups : Nat}
    (har : Area.sub Touch.execUpdateAtTime ar = true) (h : Keep ar s t) : KeepO ar s (Machine.execUpdateAtTime r groups t) := by
  unfold Machine.execUpdateAtTime
  repeat' (with_reducible first
    | assumption
    | apply KeepO.next
    | apply KeepO.ite
    | apply Keep.updateIn
    | (refine Area.sub_trans (b := Touch.execUpdateAtTime) ?_ har; decide)
    | intro _ _ _
    | intro _ _)

def Touch.execUpdateNextSubframe : Nat := 0x280000800030000000000000000000000300000000000000000000000000000000002310020128
theorem Keep.execUpdateNextSubframe {r : Sys2Proof.Req} {groups : Nat}
    (har : Area.sub Touch.execUpdateNextSubframe ar = true) (h : Keep ar s t) : KeepO ar s (Machine.execUpdateNextSubframe r groups t) := by
  unfold Machine.execUpdateNextSubframe
  repeat' (with_reducible first
    | assumption
    | apply KeepO.next
    | apply KeepO.ite
    | apply Keep.updateIn
    | (refine Area.sub_trans (b := Touch.execUpdateNextSubframe) ?_ har; decide)
    | intro _ _ _
    | intro _ _)

def Touch.execPersActAtTime : Nat := 0x2800008000300000000000000000000000000000000000000000000113000000027C0018005120
theorem Keep.execPersActAtTime {r : Sys2Proof.Req} {slot : Nat}
    (har : Area.sub Touch.execPersActAtTime ar = true) (h : Keep ar s t) : KeepO ar s (Machine.execPersActAtTime r slot t) := by
  unfold Machine.execPersActAtTime
  repeat' (with_reducible first
    | assumption
    | apply KeepO.next
    | apply KeepO.ite
    | apply Keep.actBy
    | (refine Area.sub_trans (b := Touch.execPersActAtTime) ?_ har; decide)
    | intro _ _ _
    | intro _ _)

def Touch.execStrobeApply : Nat := 0x2858C8801000000000E8300040020001EB4400000068202040000000008100000000219BAE0628
theorem Keep.execStrobeApply {g : Nat}
    (har : Area.sub Touch.execStrobeApply ar = true) (h : Keep ar s t) : KeepO ar s (Machine.execStrobeApply g t) := by
  unfold Machine.execStrobeApply
  repeat' (with_reducible first
    | assumption
    | apply KeepO.next
    | apply KeepO.ite
    | (extract_lets +onlyGivenNames x; (first | apply KeepO.cut x | apply Keep.cut x); rotate_left; intro _; clear_value x; rotate_right; subst x)
    | (extract_lets +onlyGivenNames x; have hf : (∀ z, x z = x z) := fun _ => rfl; clear hf; subst x; try dsimp -zeta only)
    | (extract_lets +onlyGivenNames x; clear_value x)
    | apply Keep.ite
    | apply Keep.strobeApply
    | (refine Area.sub_trans (b := Touch.execStrobeApply) ?_ har; decide)
    | dsimp -zeta only
    | split
    | intro _ _ _
    | intro _ _)

def Touch.execUpdateImmediate : Nat := 0x280000800030000000000000000000000300000000000000000000000000000000002310020128
theorem Keep.execUpdateImmediate {r : Sys2Proof.Req} {groups : Nat}
    (har : Area.sub Touch.execUpdateImmediate ar = true) (h : Keep ar s t) : KeepO ar s (Machine.execUpdateImmediate r groups t) := by
  unfold Machine.execUpdateImmediate
  repeat' (with_reducible first
    | assumption
    | apply KeepO.next
    | apply KeepO.ite
    | apply Keep.updateIn
    | (refine Area.sub_trans (b := Touch.execUpdateImmediate) ?_ har; decide)
    | intro _ _ _
    | intro _ _)

end Sys2Proof
end

