-- ==== Sys2Proof/Laws/KeepThm.lean ====
section
/-!
SUPPORT. The operations and meanings of Machine/Thm.lean keep what `Keep` says.
-/

namespace Sys2Proof

open Sys2Proof.Machine

variable {ar : Nat} {s t u : Machine.State}

def Touch.setCal : Nat := 0x10000
theorem Keep.setCal {i : Nat} {c : CalRun}
    (har : Area.sub Touch.setCal ar = true) (h : Keep ar s t) : Keep ar s (Machine.State.setCal t i c) := by
  unfold Machine.State.setCal
  repeat' (with_reducible first
    | assumption
    | (extract_lets +onlyGivenNames x; (apply Keep.cut x); rotate_left; intro _; clear_value x; rotate_right; subst x)
    | (extract_lets +onlyGivenNames x; clear_value x)
    | (refine Area.sub_trans (b := Touch.setCal) ?_ har; decide)
    | (refine Keep.rec_thm ?_ ?_; rotate_left; first | assumption))

def Touch.calStart : Nat := 0x100000000000010200
theorem Keep.calStart
    (har : Area.sub Touch.calStart ar = true) (h : Keep ar s t) : Keep ar s (Machine.State.calStart t) := by
  unfold Machine.State.calStart
  repeat' (with_reducible first
    | assumption
    | (extract_lets +onlyGivenNames x; (apply Keep.cut x); rotate_left; intro _; clear_value x; rotate_right; subst x)
    | (extract_lets +onlyGivenNames x; have hf : (∀ z, x z = x z) := fun _ => rfl; clear hf; subst x; try dsimp -zeta only)
    | (extract_lets +onlyGivenNames x; clear_value x)
    | apply Keep.ite
    | apply Keep.put
    | apply Keep.setCal
    | (refine Area.sub_trans (b := Touch.calStart) ?_ har; decide)
    | (refine Area.fld_mono (a := Touch.calStart) ?_ har; decide)
    | apply Keep.foldl
    | dsimp -zeta only
    | split
    | intro _ _ _
    | intro _ _
    | (refine Keep.rec_pseq ?_ ?_; rotate_left; first | assumption | apply Keep.put | apply Keep.setCal | apply Keep.ite | apply Keep.foldl))

def Touch.calRequest : Nat := 0x100000000000010200
theorem Keep.calRequest {mask : Nat}
    (har : Area.sub Touch.calRequest ar = true) (h : Keep ar s t) : Keep ar s (Machine.State.calRequest t mask) := by
  unfold Machine.State.calRequest
  repeat' (with_reducible first
    | assumption
    | (extract_lets +onlyGivenNames x; (apply Keep.cut x); rotate_left; intro _; clear_value x; rotate_right; subst x)
    | (extract_lets +onlyGivenNames x; have hf : (∀ z, x z = x z) := fun _ => rfl; clear hf; subst x; try dsimp -zeta only)
    | (extract_lets +onlyGivenNames x; clear_value x)
    | apply Keep.put
    | apply Keep.calStart
    | (refine Area.sub_trans (b := Touch.calRequest) ?_ har; decide)
    | (refine Area.fld_mono (a := Touch.calRequest) ?_ har; decide)
    | apply Keep.foldl
    | dsimp -zeta only
    | intro _ _ _
    | intro _ _)

def Touch.execCalReq : Nat := 0x280000800000000000000000000000000000000000000000000000000000100000000010010220
theorem Keep.execCalReq {r : Sys2Proof.Req} {key : Nat} {mask : Nat}
    (har : Area.sub Touch.execCalReq ar = true) (h : Keep ar s t) : KeepO ar s (Machine.execCalReq r key mask t) := by
  unfold Machine.execCalReq
  repeat' (with_reducible first
    | assumption
    | apply KeepO.next
    | apply KeepO.ite
    | apply Keep.keyed
    | apply Keep.calRequest
    | (refine Area.sub_trans (b := Touch.execCalReq) ?_ har; decide)
    | intro _ _ _
    | intro _ _)

def Touch.execSensRearm : Nat := 0x280000800000000000000000000000000000000000000000000000000000020000000010010020
theorem Keep.execSensRearm {r : Sys2Proof.Req} {key : Nat} {n : Nat}
    (har : Area.sub Touch.execSensRearm ar = true) (h : Keep ar s t) : KeepO ar s (Machine.execSensRearm r key n t) := by
  unfold Machine.execSensRearm
  repeat' (with_reducible first
    | assumption
    | apply KeepO.next
    | apply KeepO.ite
    | (extract_lets +onlyGivenNames x; (first | apply KeepO.cut x | apply Keep.cut x); rotate_left; intro _; clear_value x; rotate_right; subst x)
    | (extract_lets +onlyGivenNames x; have hf : (∀ z, x z = x z) := fun _ => rfl; clear hf; subst x; try dsimp -zeta only)
    | (extract_lets +onlyGivenNames x; clear_value x)
    | apply Keep.ite
    | apply Keep.put
    | apply Keep.keyed
    | (refine Area.sub_trans (b := Touch.execSensRearm) ?_ har; decide)
    | (refine Area.fld_mono (a := Touch.execSensRearm) ?_ har; decide)
    | dsimp -zeta only
    | split
    | intro _ _ _
    | intro _ _
    | (refine Keep.rec_thm ?_ ?_; rotate_left; first | assumption | apply Keep.put | apply Keep.keyed | apply Keep.ite))

def Touch.calCmdEnd : Nat := 0x2800008000000000000000000000000000000000000000000000000000000000027C0018014120
theorem Keep.calCmdEnd {i : Nat} {done : Bool}
    (har : Area.sub Touch.calCmdEnd ar = true) (h : Keep ar s t) : Keep ar s (Machine.State.calCmdEnd t i done) := by
  unfold Machine.State.calCmdEnd
  repeat' (with_reducible first
    | assumption
    | (extract_lets +onlyGivenNames x; (apply Keep.cut x); rotate_left; intro _; clear_value x; rotate_right; subst x)
    | (extract_lets +onlyGivenNames x; clear_value x)
    | apply Keep.ite
    | apply Keep.cmdEnd
    | (refine Area.sub_trans (b := Touch.calCmdEnd) ?_ har; decide)
    | split
    | intro _ _ _
    | intro _ _
    | (refine Keep.rec_thm ?_ ?_; rotate_left; first | assumption | apply Keep.cmdEnd | apply Keep.ite))

def Touch.calSlots : Nat := 0x10000
theorem Keep.calSlots {l : List (Option (Nat × Int))}
    (har : Area.sub Touch.calSlots ar = true) (h : Keep ar s t) : Keep ar s (Machine.State.calSlots t l) := by
  unfold Machine.State.calSlots
  repeat' (with_reducible first
    | assumption
    | (extract_lets +onlyGivenNames x; (apply Keep.cut x); rotate_left; intro _; clear_value x; rotate_right; subst x)
    | (extract_lets +onlyGivenNames x; clear_value x)
    | apply Keep.ite
    | (refine Area.sub_trans (b := Touch.calSlots) ?_ har; decide)
    | split
    | (refine Keep.rec_thm ?_ ?_; rotate_left; first | assumption | apply Keep.ite))

def Touch.calStep : Nat := 0x100000000000010200
theorem Keep.calStep
    (har : Area.sub Touch.calStep ar = true) (h : Keep ar s t) : Keep ar s (Machine.State.calStep t) := by
  unfold Machine.State.calStep
  repeat' (with_reducible first
    | assumption
    | (extract_lets +onlyGivenNames x; (apply Keep.cut x); rotate_left; intro _; clear_value x; rotate_right; subst x)
    | (extract_lets +onlyGivenNames x; have hf : (∀ z, x z = x z) := fun _ => rfl; clear hf; subst x; try dsimp -zeta only)
    | (extract_lets +onlyGivenNames x; clear_value x)
    | apply Keep.ite
    | apply Keep.calStart
    | (refine Area.sub_trans (b := Touch.calStep) ?_ har; decide)
    | dsimp -zeta only
    | split
    | intro _ _ _
    | intro _ _
    | (refine Keep.rec_thm ?_ ?_; rotate_left; first | assumption | apply Keep.calStart | apply Keep.ite))

def Touch.coldplateTake : Nat := 0x280000800000000000000000000000000000000000000000000000000000080000000018000030
theorem Keep.coldplateTake {was : Int}
    (har : Area.sub Touch.coldplateTake ar = true) (h : Keep ar s t) : Keep ar s (Machine.State.coldplateTake t was) := by
  unfold Machine.State.coldplateTake
  repeat' (with_reducible first
    | assumption
    | (extract_lets +onlyGivenNames x; (apply Keep.cut x); rotate_left; intro _; clear_value x; rotate_right; subst x)
    | (extract_lets +onlyGivenNames x; have hf : (∀ z, x z = x z) := fun _ => rfl; clear hf; subst x; try dsimp -zeta only)
    | (extract_lets +onlyGivenNames x; clear_value x)
    | apply Keep.ite
    | apply Keep.raise
    | apply Keep.alert
    | apply Keep.recIrq
    | (refine Area.sub_trans (b := Touch.coldplateTake) ?_ har; decide)
    | (refine Area.fld_mono (a := Touch.coldplateTake) ?_ har; decide)
    | dsimp -zeta only
    | split
    | intro _ _ _
    | intro _ _)

def Touch.coolTake : Nat := 0x10000
theorem Keep.coolTake
    (har : Area.sub Touch.coolTake ar = true) (h : Keep ar s t) : Keep ar s (Machine.State.coolTake t) := by
  unfold Machine.State.coolTake
  repeat' (with_reducible first
    | assumption
    | (extract_lets +onlyGivenNames x; (apply Keep.cut x); rotate_left; intro _; clear_value x; rotate_right; subst x)
    | (extract_lets +onlyGivenNames x; have hf : (∀ z, x z = x z) := fun _ => rfl; clear hf; subst x; try dsimp -zeta only)
    | (extract_lets +onlyGivenNames x; clear_value x)
    | apply Keep.ite
    | (refine Area.sub_trans (b := Touch.coolTake) ?_ har; decide)
    | dsimp -zeta only
    | split
    | (refine Keep.rec_thm ?_ ?_; rotate_left; first | assumption | apply Keep.ite))

def Touch.fastTake : Nat := 0x2000000000010000
theorem Keep.fastTake
    (har : Area.sub Touch.fastTake ar = true) (h : Keep ar s t) : Keep ar s (Machine.State.fastTake t) := by
  unfold Machine.State.fastTake
  repeat' (with_reducible first
    | assumption
    | (extract_lets +onlyGivenNames x; (apply Keep.cut x); rotate_left; intro _; clear_value x; rotate_right; subst x)
    | (extract_lets +onlyGivenNames x; clear_value x)
    | apply Keep.ite
    | apply Keep.put
    | (refine Area.sub_trans (b := Touch.fastTake) ?_ har; decide)
    | (refine Area.fld_mono (a := Touch.fastTake) ?_ har; decide)
    | split
    | intro _ _ _
    | intro _ _
    | (refine Keep.rec_thm ?_ ?_; rotate_left; first | assumption | apply Keep.put | apply Keep.ite))

def Touch.throttleApply : Nat := 0xC000000000000000000010000
theorem Keep.throttleApply
    (har : Area.sub Touch.throttleApply ar = true) (h : Keep ar s t) : Keep ar s (Machine.State.throttleApply t) := by
  unfold Machine.State.throttleApply
  repeat' (with_reducible first
    | assumption
    | (extract_lets +onlyGivenNames x; (apply Keep.cut x); rotate_left; intro _; clear_value x; rotate_right; subst x)
    | (extract_lets +onlyGivenNames x; clear_value x)
    | apply Keep.ite
    | apply Keep.applyBudgets
    | (refine Area.sub_trans (b := Touch.throttleApply) ?_ har; decide)
    | split
    | intro _ _ _
    | intro _ _
    | (refine Keep.rec_thm ?_ ?_; rotate_left; first | assumption | apply Keep.applyBudgets | apply Keep.ite))

def Touch.levelTake : Nat := 0x280000800000000000000000000000000000000000000000000000000000082000000018000020
theorem Keep.levelTake
    (har : Area.sub Touch.levelTake ar = true) (h : Keep ar s t) : Keep ar s (Machine.State.levelTake t) := by
  unfold Machine.State.levelTake
  repeat' (with_reducible first
    | assumption
    | (extract_lets +onlyGivenNames x; (apply Keep.cut x); rotate_left; intro _; clear_value x; rotate_right; subst x)
    | (extract_lets +onlyGivenNames x; clear_value x)
    | apply Keep.ite
    | apply Keep.put
    | apply Keep.putI
    | apply Keep.raiseRec
    | (refine Area.sub_trans (b := Touch.levelTake) ?_ har; decide)
    | (refine Area.fld_mono (a := Touch.levelTake) ?_ har; decide)
    | split
    | intro _ _ _
    | intro _ _)

def Touch.sensorBroken : Nat := 0x2800008000000000000000000000000000000000000000000000000000000A4000000018000030
theorem Keep.sensorBroken {n : Nat} {cause : Nat}
    (har : Area.sub Touch.sensorBroken ar = true) (h : Keep ar s t) : Keep ar s (Machine.State.sensorBroken t n cause) := by
  unfold Machine.State.sensorBroken
  repeat' (with_reducible first
    | assumption
    | apply Keep.put
    | apply Keep.bump
    | apply Keep.raise
    | apply Keep.alert
    | apply Keep.recIrq
    | (refine Area.sub_trans (b := Touch.sensorBroken) ?_ har; decide)
    | (refine Area.fld_mono (a := Touch.sensorBroken) ?_ har; decide)
    | intro _ _ _
    | intro _ _)

def Touch.sensorsTake : Nat := 0x2800008000000000000000000000000000000000000000000000000000000A4000000018010030
theorem Keep.sensorsTake {l : List (Option (Nat × Int))}
    (har : Area.sub Touch.sensorsTake ar = true) (h : Keep ar s t) : Keep ar s (Machine.State.sensorsTake t l) := by
  unfold Machine.State.sensorsTake
  repeat' (with_reducible first
    | assumption
    | (extract_lets +onlyGivenNames x; (apply Keep.cut x); rotate_left; intro _; clear_value x; rotate_right; subst x)
    | (extract_lets +onlyGivenNames x; have hf : (∀ z, x z = x z) := fun _ => rfl; clear hf; subst x; try dsimp -zeta only)
    | (extract_lets +onlyGivenNames x; clear_value x)
    | apply Keep.ite
    | apply Keep.putI
    | apply Keep.sensorBroken
    | (refine Area.sub_trans (b := Touch.sensorsTake) ?_ har; decide)
    | (refine Area.fld_mono (a := Touch.sensorsTake) ?_ har; decide)
    | apply Keep.foldl
    | dsimp -zeta only
    | split
    | intro _ _ _
    | intro _ _
    | (refine Keep.rec_thm ?_ ?_; rotate_left; first | assumption | apply Keep.putI | apply Keep.sensorBroken | apply Keep.ite | apply Keep.foldl))

def Touch.shutdownPanel : Nat := 0x800000000000000802000000000000000000000000000000000000000000000010010280
theorem Keep.shutdownPanel
    (har : Area.sub Touch.shutdownPanel ar = true) (h : Keep ar s t) : Keep ar s (Machine.State.shutdownPanel t) := by
  unfold Machine.State.shutdownPanel
  repeat' (with_reducible first
    | assumption
    | (extract_lets +onlyGivenNames x; (apply Keep.cut x); rotate_left; intro _; clear_value x; rotate_right; subst x)
    | (extract_lets +onlyGivenNames x; clear_value x)
    | apply Keep.ite
    | apply Keep.railOff
    | (refine Area.sub_trans (b := Touch.shutdownPanel) ?_ har; decide)
    | split
    | intro _ _ _
    | intro _ _
    | (refine Keep.rec_pseq ?_ ?_; rotate_left; first | assumption | apply Keep.railOff | apply Keep.ite)
    | (refine Keep.rec_thm ?_ ?_; rotate_left; first | assumption | apply Keep.railOff | apply Keep.ite))

def Touch.blocksOff : Nat := 0x2A2200
theorem Keep.blocksOff
    (har : Area.sub Touch.blocksOff ar = true) (h : Keep ar s t) : Keep ar s (Machine.State.blocksOff t) :=
  Keep.rec_pseq_fab_comp_intk_blt har h

def Touch.shutdownGoOn : Nat := 0x800100000001C818020000000000000000000000000000000000000000000000112B2AA0
theorem Keep.shutdownGoOn
    (har : Area.sub Touch.shutdownGoOn ar = true) (h : Keep ar s t) : Keep ar s (Machine.State.shutdownGoOn t) := by
  unfold Machine.State.shutdownGoOn
  repeat' (with_reducible first
    | assumption
    | (extract_lets +onlyGivenNames x; (apply Keep.cut x); rotate_left; intro _; clear_value x; rotate_right; subst x)
    | (extract_lets +onlyGivenNames x; clear_value x)
    | apply Keep.ite
    | apply Keep.memSelfRefresh
    | apply Keep.blocksOff
    | apply Keep.linksOff
    | apply Keep.saveShutdown
    | apply Keep.shutdownPanel
    | (refine Area.sub_trans (b := Touch.shutdownGoOn) ?_ har; decide)
    | split
    | intro _ _ _
    | intro _ _
    | (refine Keep.rec_thm ?_ ?_; rotate_left; first | assumption | apply Keep.memSelfRefresh | apply Keep.blocksOff | apply Keep.linksOff | apply Keep.saveShutdown | apply Keep.shutdownPanel | apply Keep.ite))

def Touch.shutdownStart : Nat := 0x2800008000800000000008020000000000000000000000000000000000000860021C00180143B0
theorem Keep.shutdownStart
    (har : Area.sub Touch.shutdownStart ar = true) (h : Keep ar s t) : Keep ar s (Machine.State.shutdownStart t) := by
  unfold Machine.State.shutdownStart
  repeat' (with_reducible first
    | assumption
    | (extract_lets +onlyGivenNames x; (apply Keep.cut x); rotate_left; intro _; clear_value x; rotate_right; subst x)
    | (extract_lets +onlyGivenNames x; refine KeepFst.cut (m := ar) (s := s) x ?_ (fun hx => ?_); rotate_left; clear_value x; obtain ⟨x, y⟩ := x; dsimp -zeta only at hx ⊢; rotate_right; subst x)
    | (extract_lets +onlyGivenNames x; clear_value x)
    | apply Keep.ite
    | split
    | apply KeepFst.mk
    | apply KeepFst.ite
    | apply Keep.put
    | apply Keep.bump
    | apply Keep.raise
    | apply Keep.offer
    | apply Keep.sendFail
    | apply Keep.alert
    | apply Keep.notice
    | apply Keep.handOver
    | apply Keep.shutdownPanel
    | (refine KeepFst.of_eq ?_ (by assumption); first | apply Keep.handOver | apply KeepFst.ite)
    | (apply KeepFst.fst; first | apply Keep.handOver)
    | (refine Area.sub_trans (b := Touch.shutdownStart) ?_ har; decide)
    | (refine Area.fld_mono (a := Touch.shutdownStart) ?_ har; decide)
    | intro _ _ _
    | intro _ _
    | (refine Keep.rec_thm ?_ ?_; rotate_left; first | assumption | apply Keep.put | apply Keep.bump | apply Keep.raise | apply Keep.offer | apply Keep.sendFail | apply Keep.alert | apply Keep.notice | apply Keep.handOver | apply Keep.shutdownPanel | (refine KeepFst.of_eq ?_ (by assumption); first | apply Keep.handOver | apply KeepFst.ite) | (apply KeepFst.fst; first | apply Keep.handOver) | apply Keep.ite))

def Touch.thermalRestart : Nat := 0x2800008000000000000008020000000000000000000000000000000000000020000040100003A2
theorem Keep.thermalRestart
    (har : Area.sub Touch.thermalRestart ar = true) (h : Keep ar s t) : Keep ar s (Machine.State.thermalRestart t) := by
  unfold Machine.State.thermalRestart
  repeat' (with_reducible first
    | assumption
    | apply Keep.put
    | apply Keep.sysSource
    | (refine Area.sub_trans (b := Touch.thermalRestart) ?_ har; decide)
    | (refine Area.fld_mono (a := Touch.thermalRestart) ?_ har; decide)
    | intro _ _ _
    | intro _ _)

def Touch.zonesTake : Nat := 0x40000000000000000
theorem Keep.zonesTake
    (har : Area.sub Touch.zonesTake ar = true) (h : Keep ar s t) : Keep ar s (Machine.State.zonesTake t) := by
  unfold Machine.State.zonesTake
  repeat' (with_reducible first
    | assumption
    | (extract_lets +onlyGivenNames x; (apply Keep.cut x); rotate_left; intro _; clear_value x; rotate_right; subst x)
    | (extract_lets +onlyGivenNames x; have hf : (∀ z, x z = x z) := fun _ => rfl; clear hf; subst x; try dsimp -zeta only)
    | (extract_lets +onlyGivenNames x; clear_value x)
    | apply Keep.ite
    | apply Keep.put
    | apply Keep.putI
    | (refine Area.sub_trans (b := Touch.zonesTake) ?_ har; decide)
    | (refine Area.fld_mono (a := Touch.zonesTake) ?_ har; decide)
    | apply Keep.foldl
    | dsimp -zeta only
    | split
    | intro _ _ _
    | intro _ _)

def Touch.execCalSchedule : Nat := 0x100000000000010200
theorem Keep.execCalSchedule
    (har : Area.sub Touch.execCalSchedule ar = true) (h : Keep ar s t) : KeepO ar s (Machine.execCalSchedule t) := by
  unfold Machine.execCalSchedule
  repeat' (with_reducible first
    | assumption
    | apply KeepO.next
    | apply KeepO.ite
    | (extract_lets +onlyGivenNames x; (first | apply KeepO.cut x | apply Keep.cut x); rotate_left; intro _; clear_value x; rotate_right; subst x)
    | (extract_lets +onlyGivenNames x; have hf : (∀ z, x z = x z) := fun _ => rfl; clear hf; subst x; try dsimp -zeta only)
    | (extract_lets +onlyGivenNames x; clear_value x)
    | apply Keep.calRequest
    | (refine Area.sub_trans (b := Touch.execCalSchedule) ?_ har; decide)
    | apply Keep.foldl
    | dsimp -zeta only
    | intro _ _ _
    | intro _ _)

def Touch.execCalTimeout : Nat := 0x280000800000000000000000000000000000000000000000000000000000D000027C0018014120
theorem Keep.execCalTimeout {i : Nat}
    (har : Area.sub Touch.execCalTimeout ar = true) (h : Keep ar s t) : KeepO ar s (Machine.execCalTimeout i t) := by
  unfold Machine.execCalTimeout
  repeat' (with_reducible first
    | assumption
    | apply KeepO.next
    | apply KeepO.ite
    | (extract_lets +onlyGivenNames x; (first | apply KeepO.cut x | apply Keep.cut x); rotate_left; intro _; clear_value x; rotate_right; subst x)
    | (extract_lets +onlyGivenNames x; clear_value x)
    | apply Keep.ite
    | apply Keep.put
    | apply Keep.bump
    | apply Keep.raiseRec
    | apply Keep.setCal
    | apply Keep.calCmdEnd
    | (refine Area.sub_trans (b := Touch.execCalTimeout) ?_ har; decide)
    | (refine Area.fld_mono (a := Touch.execCalTimeout) ?_ har; decide)
    | split
    | intro _ _ _
    | intro _ _)

def Touch.execVcoreLoop : Nat := 0x8000000000000000
theorem Keep.execVcoreLoop {want : Nat}
    (har : Area.sub Touch.execVcoreLoop ar = true) (h : Keep ar s t) : KeepO ar s (Machine.execVcoreLoop want t) := by
  unfold Machine.execVcoreLoop
  repeat' (with_reducible first
    | assumption
    | apply KeepO.next
    | apply KeepO.ite
    | (extract_lets +onlyGivenNames x; (first | apply KeepO.cut x | apply Keep.cut x); rotate_left; intro _; clear_value x; rotate_right; subst x)
    | (extract_lets +onlyGivenNames x; clear_value x)
    | apply Keep.ite
    | apply Keep.put
    | (refine Area.sub_trans (b := Touch.execVcoreLoop) ?_ har; decide)
    | (refine Area.fld_mono (a := Touch.execVcoreLoop) ?_ har; decide)
    | split
    | intro _ _ _
    | intro _ _)

def Touch.execRestartAllowed : Nat := 0x2800008000000000000008020000000000000000000000000000000000000820021C40180143A2
theorem Keep.execRestartAllowed
    (har : Area.sub Touch.execRestartAllowed ar = true) (h : Keep ar s t) : KeepO ar s (Machine.execRestartAllowed t) := by
  unfold Machine.execRestartAllowed
  repeat' (with_reducible first
    | assumption
    | apply KeepO.next
    | apply KeepO.ite
    | (extract_lets +onlyGivenNames x; (first | apply KeepO.cut x | apply Keep.cut x); rotate_left; intro _; clear_value x; rotate_right; subst x)
    | (extract_lets +onlyGivenNames x; clear_value x)
    | apply Keep.ite
    | apply Keep.put
    | apply Keep.raise
    | apply Keep.notice
    | apply Keep.thermalRestart
    | (refine Area.sub_trans (b := Touch.execRestartAllowed) ?_ har; decide)
    | (refine Area.fld_mono (a := Touch.execRestartAllowed) ?_ har; decide)
    | split
    | intro _ _ _
    | intro _ _
    | (refine Keep.rec_thm ?_ ?_; rotate_left; first | assumption | apply Keep.put | apply Keep.raise | apply Keep.notice | apply Keep.thermalRestart | apply Keep.ite))

def Touch.execThermalCut : Nat := 0x280000800100000001C818020000000000000000000000000000000000000020000000116B2BA0
theorem Keep.execThermalCut {n : Nat} {reading : Int}
    (har : Area.sub Touch.execThermalCut ar = true) (h : Keep ar s t) : KeepO ar s (Machine.execThermalCut n reading t) := by
  unfold Machine.execThermalCut
  repeat' (with_reducible first
    | assumption
    | apply KeepO.next
    | apply KeepO.ite
    | (extract_lets +onlyGivenNames x; (first | apply KeepO.cut x | apply Keep.cut x); rotate_left; intro _; clear_value x; rotate_right; subst x)
    | (extract_lets +onlyGivenNames x; have hf : (∀ z, x z = x z) := fun _ => rfl; clear hf; subst x; try dsimp -zeta only)
    | (extract_lets +onlyGivenNames x; clear_value x)
    | apply Keep.ite
    | apply Keep.put
    | apply Keep.offer
    | apply Keep.sendFail
    | apply Keep.railOff
    | apply Keep.blocksOff
    | apply Keep.linksOff
    | (refine Area.sub_trans (b := Touch.execThermalCut) ?_ har; decide)
    | (refine Area.fld_mono (a := Touch.execThermalCut) ?_ har; decide)
    | apply Keep.foldl
    | dsimp -zeta only
    | split
    | intro _ _ _
    | intro _ _
    | (refine Keep.rec_pseq_mem_thm_dram ?_ rfl ?_; rotate_left; first | assumption | apply Keep.put | apply Keep.offer | apply Keep.sendFail | apply Keep.railOff | apply Keep.blocksOff | apply Keep.linksOff | apply Keep.ite | apply Keep.foldl))

def Touch.execCalRunDone : Nat := 0x280000800000000000000000000000000000000000000000000000000000F000027C0018014120
theorem Keep.execCalRunDone {i : Nat}
    (har : Area.sub Touch.execCalRunDone ar = true) (h : Keep ar s t) : KeepO ar s (Machine.execCalRunDone i t) := by
  unfold Machine.execCalRunDone
  repeat' (with_reducible first
    | assumption
    | apply KeepO.next
    | apply KeepO.ite
    | (extract_lets +onlyGivenNames x; (first | apply KeepO.cut x | apply Keep.cut x); rotate_left; intro _; clear_value x; rotate_right; subst x)
    | (extract_lets +onlyGivenNames x; clear_value x)
    | apply Keep.ite
    | apply Keep.put
    | apply Keep.putI
    | apply Keep.bump
    | apply Keep.tookFree
    | apply Keep.raise
    | apply Keep.setCal
    | apply Keep.calCmdEnd
    | (refine Area.sub_trans (b := Touch.execCalRunDone) ?_ har; decide)
    | (refine Area.fld_mono (a := Touch.execCalRunDone) ?_ har; decide)
    | split
    | intro _ _ _
    | intro _ _
    | (refine Keep.rec_thm ?_ ?_; rotate_left; first | assumption | apply Keep.put | apply Keep.putI | apply Keep.bump | apply Keep.tookFree | apply Keep.raise | apply Keep.setCal | apply Keep.calCmdEnd | apply Keep.ite))

def Touch.execSensorSample : Nat := 0x280000800180000001C818024003000000000000000000000000000000000E60021C00192B6BB0
theorem Keep.execSensorSample {l : List (Option (Nat × Int))}
    (har : Area.sub Touch.execSensorSample ar = true) (h : Keep ar s t) : KeepO ar s (Machine.execSensorSample l t) := by
  unfold Machine.execSensorSample
  repeat' (with_reducible first
    | assumption
    | apply KeepO.next
    | apply KeepO.ite
    | (extract_lets +onlyGivenNames x; (first | apply KeepO.cut x | apply Keep.cut x); rotate_left; intro _; clear_value x; rotate_right; subst x)
    | (extract_lets +onlyGivenNames x; clear_value x)
    | apply Keep.ite
    | apply Keep.calSlots
    | apply Keep.coldplateTake
    | apply Keep.coldplateTemp
    | apply Keep.coolTake
    | apply Keep.fastTake
    | apply Keep.levelTake
    | apply Keep.sensorsTake
    | apply Keep.shutdownGoOn
    | apply Keep.shutdownStart
    | apply Keep.zonesTake
    | (refine Area.sub_trans (b := Touch.execSensorSample) ?_ har; decide)
    | split
    | intro _ _ _
    | intro _ _)

end Sys2Proof
end

