-- ==== Sys2Proof/Laws/KeepFrame.lean ====
section
/-!
SUPPORT. The operations and meanings of Machine/Frame.lean keep what `Keep` says.
-/

namespace Sys2Proof

open Sys2Proof.Machine

variable {ar : Nat} {s t u : Machine.State}

def Touch.swapAll : Nat := 0x280000800000000000000000000000000000000000000000001E00C00100000000000010003020
theorem Keep.swapAll
    (har : Area.sub Touch.swapAll ar = true) (h : Keep ar s t) : Keep ar s (Machine.State.swapAll t) := by
  unfold Machine.State.swapAll
  repeat' (with_reducible first
    | assumption
    | (extract_lets +onlyGivenNames x; (apply Keep.cut x); rotate_left; intro _; clear_value x; rotate_right; subst x)
    | (extract_lets +onlyGivenNames x; have hf : (∀ z, x z = x z) := fun _ => rfl; clear hf; subst x; try dsimp -zeta only)
    | (extract_lets +onlyGivenNames x; clear_value x)
    | apply Keep.ite
    | apply Keep.setFetch
    | apply Keep.setTile
    | apply Keep.swapTile
    | (refine Area.sub_trans (b := Touch.swapAll) ?_ har; decide)
    | apply Keep.foldl
    | dsimp -zeta only
    | split
    | intro _ _ _
    | intro _ _)

def Touch.preset : Nat := 0x2000000000000000000001
theorem Keep.preset {p : Nat × Nat × Nat}
    (har : Area.sub Touch.preset ar = true) (h : Keep ar s t) : Keep ar s (Machine.State.preset t p) := by
  unfold Machine.State.preset
  repeat' (with_reducible first
    | assumption
    | (extract_lets +onlyGivenNames x; (apply Keep.cut x); rotate_left; intro _; clear_value x; rotate_right; subst x)
    | (extract_lets +onlyGivenNames x; clear_value x)
    | apply Keep.ite
    | apply Keep.put
    | apply Keep.putStaged
    | (refine Area.sub_trans (b := Touch.preset) ?_ har; decide)
    | (refine Area.fld_mono (a := Touch.preset) ?_ har; decide)
    | split
    | intro _ _ _
    | intro _ _)

def Touch.actApply : Nat := 0x280000800000008000000000000000000001000000001000001E0CC131000000027D0018087131
theorem Keep.actApply {slot : Nat}
    (har : Area.sub Touch.actApply ar = true) (h : Keep ar s t) : Keep ar s (Machine.State.actApply t slot) := by
  unfold Machine.State.actApply
  repeat' (with_reducible first
    | assumption
    | (extract_lets +onlyGivenNames x; (apply Keep.cut x); rotate_left; intro _; clear_value x; rotate_right; subst x)
    | (extract_lets +onlyGivenNames x; have hf : (∀ z, x z = x z) := fun _ => rfl; clear hf; subst x; try dsimp -zeta only)
    | (extract_lets +onlyGivenNames x; clear_value x)
    | apply Keep.ite
    | apply Keep.put
    | apply Keep.putB
    | apply Keep.applyBudgets
    | apply Keep.raiseRec
    | apply Keep.cmdEndIf
    | apply Keep.countTiles
    | apply Keep.countSpares
    | apply Keep.swapAll
    | apply Keep.preset
    | apply Keep.boot
    | (refine Area.sub_trans (b := Touch.actApply) ?_ har; decide)
    | (refine Area.fld_mono (a := Touch.actApply) ?_ har; decide)
    | apply Keep.foldl
    | dsimp -zeta only
    | split
    | intro _ _ _
    | intro _ _
    | (refine Keep.rec_pers ?_ ?_; rotate_left; first | assumption | apply Keep.put | apply Keep.putB | apply Keep.applyBudgets | apply Keep.raiseRec | apply Keep.cmdEndIf | apply Keep.countTiles | apply Keep.countSpares | apply Keep.swapAll | apply Keep.preset | apply Keep.boot | apply Keep.ite | apply Keep.foldl))

def Touch.actStep : Nat := 0x280000800000008000000000000000000001000000001000001E0CC133000000027D0018087131
theorem Keep.actStep {l : Int} {sf : Nat}
    (har : Area.sub Touch.actStep ar = true) (h : Keep ar s t) : KeepFst ar s (Machine.State.actStep t l sf) := by
  unfold Machine.State.actStep
  repeat' (with_reducible first
    | assumption
    | apply KeepFst.mk
    | apply KeepFst.ite
    | (extract_lets +onlyGivenNames x; (first | apply KeepFst.cut1 x | apply Keep.cut x); rotate_left; intro _; clear_value x; rotate_right; subst x)
    | (extract_lets +onlyGivenNames x; clear_value x)
    | apply Keep.ite
    | apply Keep.recIrq
    | apply Keep.actRefuse
    | apply Keep.setPend
    | apply Keep.actApply
    | apply Keep.unmerge
    | apply Keep.actSlip
    | apply Keep.pendResume
    | (refine Area.sub_trans (b := Touch.actStep) ?_ har; decide)
    | split
    | intro _ _ _
    | intro _ _
    | (refine Keep.rec_pers ?_ ?_; rotate_left; first | assumption | apply Keep.recIrq | apply Keep.actRefuse | apply Keep.setPend | apply Keep.actApply | apply Keep.unmerge | apply Keep.actSlip | apply Keep.pendResume | apply Keep.ite))

def Touch.activeCommit : Nat := 0x200000000000000000000000000000000000000000000000000000000018100100
theorem Keep.activeCommit {s0 : Machine.State}
    (har : Area.sub Touch.activeCommit ar = true) (h : Keep ar s t) : Keep ar s (Machine.State.activeCommit t s0) := by
  unfold Machine.State.activeCommit
  repeat' (with_reducible first
    | assumption
    | (extract_lets +onlyGivenNames x; (apply Keep.cut x); rotate_left; intro _; clear_value x; rotate_right; subst x)
    | (extract_lets +onlyGivenNames x; have hf : (∀ z, x z = x z) := fun _ => rfl; clear hf; subst x; try dsimp -zeta only)
    | (extract_lets +onlyGivenNames x; clear_value x)
    | apply Keep.ite
    | apply Keep.put
    | apply Keep.sendPair
    | apply Keep.deltaJob
    | (refine Area.sub_trans (b := Touch.activeCommit) ?_ har; decide)
    | (refine Area.fld_mono (a := Touch.activeCommit) ?_ har; decide)
    | dsimp -zeta only
    | split
    | intro _ _ _
    | intro _ _
    | (refine Keep.rec_pair ?_ ?_; rotate_left; first | assumption | apply Keep.put | apply Keep.sendPair | apply Keep.deltaJob | apply Keep.ite))

def Touch.blackLast : Nat := 0x800000000000000802000000000000000000000000000000000000000000000010000280
theorem Keep.blackLast
    (har : Area.sub Touch.blackLast ar = true) (h : Keep ar s t) : Keep ar s (Machine.State.blackLast t) := by
  unfold Machine.State.blackLast
  repeat' (with_reducible first
    | assumption
    | (extract_lets +onlyGivenNames x; (apply Keep.cut x); rotate_left; intro _; clear_value x; rotate_right; subst x)
    | (extract_lets +onlyGivenNames x; clear_value x)
    | apply Keep.ite
    | apply Keep.railOff
    | (refine Area.sub_trans (b := Touch.blackLast) ?_ har; decide)
    | split
    | intro _ _ _
    | intro _ _
    | (refine Keep.rec_pseq ?_ ?_; rotate_left; first | assumption | apply Keep.railOff | apply Keep.ite))

def Touch.tilesCommit : Nat := 0x420000
theorem Keep.tilesCommit {frame : Nat}
    (har : Area.sub Touch.tilesCommit ar = true) (h : Keep ar s t) : Keep ar s (Machine.State.tilesCommit t frame) := by
  unfold Machine.State.tilesCommit
  repeat' (with_reducible first
    | assumption
    | (extract_lets +onlyGivenNames x; (apply Keep.cut x); rotate_left; intro _; clear_value x; rotate_right; subst x)
    | (extract_lets +onlyGivenNames x; have hf : (∀ z, x z = x z) := fun _ => rfl; clear hf; subst x; try dsimp -zeta only)
    | (extract_lets +onlyGivenNames x; clear_value x)
    | apply Keep.ite
    | apply Keep.commitTile
    | (refine Area.sub_trans (b := Touch.tilesCommit) ?_ har; decide)
    | apply Keep.foldl
    | dsimp -zeta only
    | split
    | intro _ _ _
    | intro _ _
    | (refine Keep.rec_comp ?_ ?_; rotate_left; first | assumption | apply Keep.commitTile | apply Keep.ite | apply Keep.foldl))

def Touch.sigCue : Nat := 0x1E000000000000000000000000000000000000000000000
theorem Keep.sigCue {e : List Nat}
    (har : Area.sub Touch.sigCue ar = true) (h : Keep ar s t) : Keep ar s (Machine.State.sigCue t e) := by
  unfold Machine.State.sigCue
  repeat' (with_reducible first
    | assumption
    | (extract_lets +onlyGivenNames x; (apply Keep.cut x); rotate_left; intro _; clear_value x; rotate_right; subst x)
    | (extract_lets +onlyGivenNames x; have hf : (∀ z, x z = x z) := fun _ => rfl; clear hf; subst x; try dsimp -zeta only)
    | (extract_lets +onlyGivenNames x; clear_value x)
    | apply Keep.ite
    | apply Keep.put
    | (refine Area.sub_trans (b := Touch.sigCue) ?_ har; decide)
    | (refine Area.fld_mono (a := Touch.sigCue) ?_ har; decide)
    | dsimp -zeta only
    | split
    | intro _ _ _
    | intro _ _)

def Touch.frameCommit : Nat := 0x1E0040200000000000000000000000000000000004A0200
theorem Keep.frameCommit {f : FrameSt}
    (har : Area.sub Touch.frameCommit ar = true) (h : Keep ar s t) : Keep ar s (Machine.State.frameCommit t f) := by
  unfold Machine.State.frameCommit
  repeat' (with_reducible first
    | assumption
    | (extract_lets +onlyGivenNames x; (apply Keep.cut x); rotate_left; intro _; clear_value x; rotate_right; subst x)
    | (extract_lets +onlyGivenNames x; have hf : (∀ z, x z = x z) := fun _ => rfl; clear hf; subst x; try dsimp -zeta only)
    | (extract_lets +onlyGivenNames x; clear_value x)
    | apply Keep.ite
    | apply Keep.tilesCommit
    | apply Keep.sigCue
    | apply Keep.compReady
    | apply Keep.toneEff
    | (refine Area.sub_trans (b := Touch.frameCommit) ?_ har; decide)
    | apply Keep.foldl
    | dsimp -zeta only
    | split
    | intro _ _ _
    | intro _ _
    | (refine Keep.rec_comp_intk ?_ ?_; rotate_left; first | assumption | apply Keep.tilesCommit | apply Keep.sigCue | apply Keep.compReady | apply Keep.toneEff | apply Keep.ite | apply Keep.foldl))

def Touch.compBoundary : Nat := 0x2800008000000000000000000000080DEB74E380000000000000000000000000000000187A0220
theorem Keep.compBoundary {s0 : Machine.State} {f : Option FrameSt} {activated : Bool}
    (har : Area.sub Touch.compBoundary ar = true) (h : Keep ar s t) : Keep ar s (Machine.State.compBoundary t s0 f activated) := by
  unfold Machine.State.compBoundary
  repeat' (with_reducible first
    | assumption
    | (extract_lets +onlyGivenNames x; (apply Keep.cut x); rotate_left; intro _; clear_value x; rotate_right; subst x)
    | (extract_lets +onlyGivenNames x; clear_value x)
    | apply Keep.ite
    | apply Keep.put
    | apply Keep.bufStates
    | apply Keep.statics
    | apply Keep.surfaces
    | apply Keep.returnTiles
    | apply Keep.regionsBad
    | apply Keep.endGroups
    | apply Keep.sinterRefs
    | apply Keep.frameCommit
    | apply Keep.cueCommit
    | apply Keep.useGroups
    | apply Keep.safeCommit
    | (refine Area.sub_trans (b := Touch.compBoundary) ?_ har; decide)
    | (refine Area.fld_mono (a := Touch.compBoundary) ?_ har; decide)
    | split
    | intro _ _ _
    | intro _ _
    | (refine Keep.rec_comp ?_ ?_; rotate_left; first | assumption | apply Keep.put | apply Keep.bufStates | apply Keep.statics | apply Keep.surfaces | apply Keep.returnTiles | apply Keep.regionsBad | apply Keep.endGroups | apply Keep.sinterRefs | apply Keep.frameCommit | apply Keep.cueCommit | apply Keep.useGroups | apply Keep.safeCommit | apply Keep.ite))

def Touch.groupMade : Nat := 0x20000000000000000000000000000000000420000
theorem Keep.groupMade {m : Nat × List Nat}
    (har : Area.sub Touch.groupMade ar = true) (h : Keep ar s t) : Keep ar s (Machine.State.groupMade t m) := by
  unfold Machine.State.groupMade
  repeat' (with_reducible first
    | assumption
    | (extract_lets +onlyGivenNames x; (apply Keep.cut x); rotate_left; intro _; clear_value x; rotate_right; subst x)
    | (extract_lets +onlyGivenNames x; refine KeepFst.cut (m := ar) (s := s) x ?_ (fun hx => ?_); rotate_left; clear_value x; obtain ⟨x, y⟩ := x; dsimp -zeta only at hx ⊢; rotate_right; subst x)
    | (extract_lets +onlyGivenNames x; have hf : (∀ z, x z = x z) := fun _ => rfl; clear hf; subst x; try dsimp -zeta only)
    | (extract_lets +onlyGivenNames x; clear_value x)
    | split
    | apply KeepFst.mk
    | apply KeepFst.ite
    | apply Keep.expand
    | (refine KeepFst.of_eq ?_ (by assumption); first | apply Keep.expand | apply KeepFst.ite)
    | (apply KeepFst.fst; first | apply Keep.expand)
    | (refine Area.sub_trans (b := Touch.groupMade) ?_ har; decide)
    | dsimp -zeta only
    | intro _ _ _
    | intro _ _
    | (refine Keep.rec_comp ?_ ?_; rotate_left; first | assumption | apply Keep.expand | (refine KeepFst.of_eq ?_ (by assumption); first | apply Keep.expand | apply KeepFst.ite) | (apply KeepFst.fst; first | apply Keep.expand)))

def Touch.staticSet : Nat := 0x20000
theorem Keep.staticSet {p : Nat × Bool}
    (har : Area.sub Touch.staticSet ar = true) (h : Keep ar s t) : Keep ar s (Machine.State.staticSet t p) := by
  unfold Machine.State.staticSet
  repeat' (with_reducible first
    | assumption
    | (extract_lets +onlyGivenNames x; (apply Keep.cut x); rotate_left; intro _; clear_value x; rotate_right; subst x)
    | (extract_lets +onlyGivenNames x; clear_value x)
    | apply Keep.setDesc
    | (refine Area.sub_trans (b := Touch.staticSet) ?_ har; decide)
    | intro _ _ _
    | intro _ _)

def Touch.deltaApply : Nat := 0xC20000000000000000000000000000000000420100
theorem Keep.deltaApply {d : Sys2Proof.DeltaMsg}
    (har : Area.sub Touch.deltaApply ar = true) (h : Keep ar s t) : Keep ar s (Machine.State.deltaApply t d) := by
  unfold Machine.State.deltaApply
  repeat' (with_reducible first
    | assumption
    | (extract_lets +onlyGivenNames x; (apply Keep.cut x); rotate_left; intro _; clear_value x; rotate_right; subst x)
    | (extract_lets +onlyGivenNames x; have hf : (∀ z, x z = x z) := fun _ => rfl; clear hf; subst x; try dsimp -zeta only)
    | (extract_lets +onlyGivenNames x; clear_value x)
    | apply Keep.bufBytes
    | apply Keep.endGroups
    | apply Keep.sinterRefs
    | apply Keep.sinterStat
    | apply Keep.groupMade
    | apply Keep.staticSet
    | (refine Area.sub_trans (b := Touch.deltaApply) ?_ har; decide)
    | apply Keep.foldl
    | dsimp -zeta only
    | intro _ _ _
    | intro _ _
    | (refine Keep.rec_pair ?_ ?_; rotate_left; first | assumption | apply Keep.bufBytes | apply Keep.endGroups | apply Keep.sinterRefs | apply Keep.sinterStat | apply Keep.groupMade | apply Keep.staticSet | apply Keep.foldl))

def Touch.discard : Nat := 0x8000000000000000000000000000000200000C00000000000000000000000000100A0000
theorem Keep.discard {i : Nat} {f : FrameSt}
    (har : Area.sub Touch.discard ar = true) (h : Keep ar s t) : Keep ar s (Machine.State.discard t i f) := by
  unfold Machine.State.discard
  repeat' (with_reducible first
    | assumption
    | (extract_lets +onlyGivenNames x; (apply Keep.cut x); rotate_left; intro _; clear_value x; rotate_right; subst x)
    | (extract_lets +onlyGivenNames x; have hf : (∀ z, x z = x z) := fun _ => rfl; clear hf; subst x; try dsimp -zeta only)
    | (extract_lets +onlyGivenNames x; clear_value x)
    | apply Keep.frameGone
    | apply Keep.conceal
    | apply Keep.jobsLate
    | apply Keep.dropWritten
    | (refine Area.sub_trans (b := Touch.discard) ?_ har; decide)
    | dsimp -zeta only
    | intro _ _ _
    | intro _ _
    | (refine Keep.rec_intk ?_ ?_; rotate_left; first | assumption | apply Keep.frameGone | apply Keep.conceal | apply Keep.jobsLate | apply Keep.dropWritten))

def Touch.dpEffect : Nat := 0x8000000000000000000000000000000000002820000000000000000000000000100C0000
theorem Keep.dpEffect {mode : Nat}
    (har : Area.sub Touch.dpEffect ar = true) (h : Keep ar s t) : Keep ar s (Machine.State.dpEffect t mode) := by
  unfold Machine.State.dpEffect
  repeat' (with_reducible first
    | assumption
    | (extract_lets +onlyGivenNames x; (apply Keep.cut x); rotate_left; intro _; clear_value x; rotate_right; subst x)
    | (extract_lets +onlyGivenNames x; clear_value x)
    | apply Keep.ite
    | apply Keep.put
    | apply Keep.raise
    | apply Keep.keysInUse
    | (refine Area.sub_trans (b := Touch.dpEffect) ?_ har; decide)
    | (refine Area.fld_mono (a := Touch.dpEffect) ?_ har; decide)
    | split
    | intro _ _ _
    | intro _ _
    | (refine Keep.rec_view_intk ?_ ?_; rotate_left; first | assumption | apply Keep.put | apply Keep.raise | apply Keep.keysInUse | apply Keep.ite))

def Touch.frameBegin : Nat := 0x800000000000000000000000000000000000682FC18000000000000000000000100C0000
theorem Keep.frameBegin {f : FrameSt}
    (har : Area.sub Touch.frameBegin ar = true) (h : Keep ar s t) : Keep ar s (Machine.State.frameBegin t f) := by
  unfold Machine.State.frameBegin
  repeat' (with_reducible first
    | assumption
    | (extract_lets +onlyGivenNames x; (apply Keep.cut x); rotate_left; intro _; clear_value x; rotate_right; subst x)
    | (extract_lets +onlyGivenNames x; clear_value x)
    | apply Keep.ite
    | apply Keep.put
    | apply Keep.putB
    | apply Keep.depthStream
    | apply Keep.dpEffect
    | apply Keep.seqEffect
    | (refine Area.sub_trans (b := Touch.frameBegin) ?_ har; decide)
    | (refine Area.fld_mono (a := Touch.frameBegin) ?_ har; decide)
    | split
    | intro _ _ _
    | intro _ _)

def Touch.frameLight : Nat := 0x280000800000000000000000000400000000000000001000000000000000000000010018080033
theorem Keep.frameLight
    (har : Area.sub Touch.frameLight ar = true) (h : Keep ar s t) : Keep ar s (Machine.State.frameLight t) := by
  unfold Machine.State.frameLight
  repeat' (with_reducible first
    | assumption
    | (extract_lets +onlyGivenNames x; (apply Keep.cut x); rotate_left; intro _; clear_value x; rotate_right; subst x)
    | (extract_lets +onlyGivenNames x; have hf : RstState := x; clear hf; subst x)
    | (extract_lets +onlyGivenNames x; clear_value x)
    | apply Keep.ite
    | apply Keep.put
    | apply Keep.boot
    | (refine Area.sub_trans (b := Touch.frameLight) ?_ har; decide)
    | (refine Area.fld_mono (a := Touch.frameLight) ?_ har; decide)
    | split
    | intro _ _ _
    | intro _ _
    | (refine Keep.rec_rst_intk ?_ rfl ?_; rotate_left; first | assumption | apply Keep.put | apply Keep.boot | apply Keep.ite))

def Touch.frameMissed : Nat := 0x2800008000000000000000000000000000000200002820000000000000000000000000180A0020
theorem Keep.frameMissed {code : Nat} {f : Option FrameSt}
    (har : Area.sub Touch.frameMissed ar = true) (h : Keep ar s t) : Keep ar s (Machine.State.frameMissed t code f) := by
  unfold Machine.State.frameMissed
  repeat' (with_reducible first
    | assumption
    | (extract_lets +onlyGivenNames x; (apply Keep.cut x); rotate_left; intro _; clear_value x; rotate_right; subst x)
    | (extract_lets +onlyGivenNames x; have hf : (∀ z, x z = x z) := fun _ => rfl; clear hf; subst x; try dsimp -zeta only)
    | (extract_lets +onlyGivenNames x; clear_value x)
    | apply Keep.ite
    | apply Keep.frameGone
    | apply Keep.dropWritten
    | apply Keep.streamRefuse
    | (refine Area.sub_trans (b := Touch.frameMissed) ?_ har; decide)
    | dsimp -zeta only
    | split
    | intro _ _ _
    | intro _ _
    | (refine Keep.rec_intk ?_ ?_; rotate_left; first | assumption | apply Keep.frameGone | apply Keep.dropWritten | apply Keep.streamRefuse | apply Keep.ite))

def Touch.frameRepeat : Nat := 0x2800008000000000000000000000000000000000000C0000000000000000000000000010080020
theorem Keep.frameRepeat {sf : Nat} {code : Nat} {f : Option FrameSt}
    (har : Area.sub Touch.frameRepeat ar = true) (h : Keep ar s t) : Keep ar s (Machine.State.frameRepeat t sf code f) := by
  unfold Machine.State.frameRepeat
  repeat' (with_reducible first
    | assumption
    | (extract_lets +onlyGivenNames x; (apply Keep.cut x); rotate_left; intro _; clear_value x; rotate_right; subst x)
    | (extract_lets +onlyGivenNames x; clear_value x)
    | apply Keep.ite
    | apply Keep.offer
    | apply Keep.conceal
    | (refine Area.sub_trans (b := Touch.frameRepeat) ?_ har; decide)
    | split
    | intro _ _ _
    | intro _ _)

def Touch.pickFrame : Nat := 0x8000000000000000000000000000000200000C00000000000000000000000000100A0000
theorem Keep.pickFrame {l : Int}
    (har : Area.sub Touch.pickFrame ar = true) (h : Keep ar s t) : KeepFst ar s (Machine.State.pickFrame t l) := by
  unfold Machine.State.pickFrame
  repeat' (with_reducible first
    | assumption
    | apply KeepFst.mk
    | apply KeepFst.ite
    | apply KeepFst.foldl
    | (extract_lets +onlyGivenNames x; (first | apply KeepFst.cut1 x | apply Keep.cut x); rotate_left; intro _; clear_value x; rotate_right; subst x)
    | (extract_lets +onlyGivenNames x; have hf : (∀ z, x z = x z) := fun _ => rfl; clear hf; subst x; try dsimp -zeta only)
    | (extract_lets +onlyGivenNames x; clear_value x)
    | apply Keep.ite
    | apply Keep.deadline
    | apply Keep.discard
    | (refine Area.sub_trans (b := Touch.pickFrame) ?_ har; decide)
    | apply Keep.foldl
    | dsimp -zeta only
    | split
    | intro _ _ _
    | intro _ _)

def Touch.snapApply : Nat := 0x200000000000000000000300C20000000000000000000000000000000080460301
theorem snapWords_wf {old new : List (Nat × Word)} (h : Sparse.wf resetWord old = true) :
    Sparse.wf resetWord (snapWords old new) = true := by
  unfold snapWords
  generalize hl : old.filter (fun p => !isMirrored p.1) = l
  have hw : Sparse.wf resetWord l = true := by subst hl; exact Sparse.filter_wf _ _ h
  clear hl
  generalize new.filter (fun p => inSnapshot p.1) = new
  induction new generalizing l with
  | nil => exact hw
  | cons p ps ih => exact ih _ (Sparse.set_wf _ _ _ hw)

theorem snapWords_get {old new : List (Nat × Word)} {k : Nat} (h : inSnapshot k = false) :
    Sparse.get resetWord (snapWords old new) k = Sparse.get resetWord old k := by
  have hm : isMirrored k = false := by
    cases e : isMirrored k with
    | false => rfl
    | true => simp [inSnapshot, e] at h
  unfold snapWords
  have h1 : Sparse.get resetWord (old.filter (fun p => !isMirrored p.1)) k = Sparse.get resetWord old k := by
    apply Sparse.get_filter
    intro v
    simp [hm]
  rw [← h1]
  generalize old.filter (fun p => !isMirrored p.1) = l
  clear h1
  induction new generalizing l with
  | nil => rfl
  | cons p ps ih =>
    cases e : inSnapshot p.1 with
    | false => rw [List.filter_cons_of_neg (by simp [e])]; exact ih l
    | true =>
      rw [List.filter_cons_of_pos (by simp [e]), List.foldl_cons, ih]
      refine Sparse.get_set_ne _ _ _ (fun e' => ?_)
      rw [e', e] at h
      cases h

theorem Keep.snapApply {m : Sys2Proof.SnapshotMsg}
    (har : Area.sub Touch.snapApply ar = true) (h : Keep ar s t) : Keep ar s (Machine.State.snapApply t m) := by
  unfold Machine.State.snapApply
  extract_lets s1 s2 s3 s4 s5 a
  have h1 : Keep ar s s1 := by
    refine h.trans ⟨fun w => ?_, rfl, OtpGrows.refl _, fun _ => rfl, fun k hk => ?_, fun p b => ?_⟩
    · simp only [State.memoriesWf, Bool.and_eq_true] at w ⊢
      exact ⟨⟨snapWords_wf w.1.1, snapWords_wf w.1.2⟩, w.2⟩
    · apply snapWords_get
      cases e : inSnapshot k with
      | false => rfl
      | true => exact absurd (Area.word_shared (Area.bit_of_sub (a := Touch.snapApply) har 31 (by decide)) (by simp [sharedWord, e])) hk
    · cases p <;> first | rfl | exact (Area.no_bit (a := Touch.snapApply) har b (by decide)).elim
  have h2 : Keep ar s s2 := Keep.foldl (fun _ _ k => k.writeBytes (Area.sub_trans (b := Touch.snapApply) (by decide) har)) h1
  have h3 : Keep ar s s3 := Keep.foldl (fun _ _ k => k.staticSet (Area.sub_trans (b := Touch.snapApply) (by decide) har)) h2
  have h4 : Keep ar s s4 := Keep.foldl (fun _ _ k => k.groupMade (Area.sub_trans (b := Touch.snapApply) (by decide) har)) (h3.endGroups (Area.sub_trans (b := Touch.snapApply) (by decide) har))
  have h5 : Keep ar s s5 := Keep.put (Area.fld_mono (a := Touch.snapApply) (by decide) har) (Keep.bufStates (Area.sub_trans (b := Touch.snapApply) (by decide) har) (Keep.sinterStat (Area.sub_trans (b := Touch.snapApply) (by decide) har) (Keep.sinterRefs (Area.sub_trans (b := Touch.snapApply) (by decide) har) h4)))
  exact Keep.rec_pair_pseq_view (Area.sub_trans (b := Touch.snapApply) (by decide) har) h5

def Touch.mirrorCommit : Nat := 0x280000800080600000000000000000000300C20000000000000000000000000000000090460321
theorem Keep.mirrorCommit
    (har : Area.sub Touch.mirrorCommit ar = true) (h : Keep ar s t) : Keep ar s (Machine.State.mirrorCommit t) := by
  unfold Machine.State.mirrorCommit
  repeat' (with_reducible first
    | assumption
    | (extract_lets +onlyGivenNames x; (apply Keep.cut x); rotate_left; intro _; clear_value x; rotate_right; subst x)
    | (extract_lets +onlyGivenNames x; clear_value x)
    | apply Keep.ite
    | apply Keep.deltaApply
    | apply Keep.outOfStep
    | apply Keep.snapApply
    | (refine Area.sub_trans (b := Touch.mirrorCommit) ?_ har; decide)
    | split
    | intro _ _ _
    | intro _ _)

def Touch.mirrorStep : Nat := 0x280000800080600000000000000000000000000000000000000000000000000000000010000120
theorem Keep.mirrorStep
    (har : Area.sub Touch.mirrorStep ar = true) (h : Keep ar s t) : Keep ar s (Machine.State.mirrorStep t) := by
  unfold Machine.State.mirrorStep
  repeat' (with_reducible first
    | assumption
    | (extract_lets +onlyGivenNames x; (apply Keep.cut x); rotate_left; intro _; clear_value x; rotate_right; subst x)
    | (extract_lets +onlyGivenNames x; clear_value x)
    | apply Keep.ite
    | apply Keep.put
    | apply Keep.setFit
    | (refine Area.sub_trans (b := Touch.mirrorStep) ?_ har; decide)
    | (refine Area.fld_mono (a := Touch.mirrorStep) ?_ har; decide)
    | split
    | intro _ _ _
    | intro _ _
    | (refine Keep.rec_pair ?_ ?_; rotate_left; first | assumption | apply Keep.put | apply Keep.setFit | apply Keep.ite))

def Touch.tellNotes : Nat := 0x280000800000000000000000000000000000000000000000000000000000000000000010080020
theorem Keep.tellNotes
    (har : Area.sub Touch.tellNotes ar = true) (h : Keep ar s t) : Keep ar s (Machine.State.tellNotes t) := by
  unfold Machine.State.tellNotes
  repeat' (with_reducible first
    | assumption
    | (extract_lets +onlyGivenNames x; (apply Keep.cut x); rotate_left; intro _; clear_value x; rotate_right; subst x)
    | (extract_lets +onlyGivenNames x; have hf : (∀ z, x z = x z) := fun _ => rfl; clear hf; subst x; try dsimp -zeta only)
    | (extract_lets +onlyGivenNames x; clear_value x)
    | apply Keep.tellNote
    | (refine Area.sub_trans (b := Touch.tellNotes) ?_ har; decide)
    | apply Keep.foldl
    | dsimp -zeta only
    | intro _ _ _
    | intro _ _
    | (refine Keep.rec_intk ?_ ?_; rotate_left; first | assumption | apply Keep.tellNote | apply Keep.foldl))

def Touch.frameStart : Nat := 0x2858C8801080608000E830004103080DEB75E380006C3FF1EB1E0CC133810000027D219BFE7739
theorem Keep.frameStart
    (har : Area.sub Touch.frameStart ar = true) (h : Keep ar s t) : Keep ar s (Machine.State.frameStart t) := by
  unfold Machine.State.frameStart
  extract_lets nb l sf
  have ha : KeepFst ar s (t.mirrorStep.actStep l sf) := Keep.actStep (Area.sub_trans (b := Touch.frameStart) (by decide) har) (Keep.mirrorStep (Area.sub_trans (b := Touch.frameStart) (by decide) har) h)
  revert ha
  generalize t.mirrorStep.actStep l sf = p
  obtain ⟨s1, act⟩ := p
  intro ha
  replace ha : Keep ar s s1 := ha
  dsimp -zeta only
  extract_lets v s2 code shown s4 src src1 s5 s6 s7 v1 s8
  have hb : Keep ar s ((s2.strobesAt [0, 1, 2, 3, 4, 13, 14] l sf true).pickFrame l).1 :=
    Keep.pickFrame (Area.sub_trans (b := Touch.frameStart) (by decide) har) (Keep.strobesAt (Area.sub_trans (b := Touch.frameStart) (by decide) har) (Keep.rec_view (Area.sub_trans (b := Touch.frameStart) (by decide) har) ha))
  have h4 : Keep ar s s4 := by
    clear_value shown code
    dsimp -zeta only [s4]
    split
    · exact hb.frameBegin (Area.sub_trans (b := Touch.frameStart) (by decide) har)
    · exact (hb.frameMissed (Area.sub_trans (b := Touch.frameStart) (by decide) har)).frameRepeat (Area.sub_trans (b := Touch.frameStart) (by decide) har)
  have h5 : Keep ar s s5 := Keep.rec_intk (Area.sub_trans (b := Touch.frameStart) (by decide) har) ((h4.modeStep (Area.sub_trans (b := Touch.frameStart) (by decide) har)).lensLatch (Area.sub_trans (b := Touch.frameStart) (by decide) har))
  have h7 : Keep ar s s7 := Keep.tellNotes (Area.sub_trans (b := Touch.frameStart) (by decide) har) (Keep.activeCommit (Area.sub_trans (b := Touch.frameStart) (by decide) har) (Keep.mirrorCommit (Area.sub_trans (b := Touch.frameStart) (by decide) har) (Keep.captureBegin (Area.sub_trans (b := Touch.frameStart) (by decide) har) (Keep.compBoundary (Area.sub_trans (b := Touch.frameStart) (by decide) har) h5))))
  have h8 : Keep ar s s8 := Keep.sourceTokens (Area.sub_trans (b := Touch.frameStart) (by decide) har) (Keep.rec_view (Area.sub_trans (b := Touch.frameStart) (by decide) har) h7)
  split
  · exact h8
  · exact Keep.setBase (Area.fld_mono (a := Touch.frameStart) (by decide) har) ⟨by decide, by decide⟩ (Keep.rec_view (Area.sub_trans (b := Touch.frameStart) (by decide) har) h8)

def Touch.holdLaunch : Nat := 0x40000000000000000000000000000000000000000010000200
theorem Keep.holdLaunch
    (har : Area.sub Touch.holdLaunch ar = true) (h : Keep ar s t) : Keep ar s (Machine.State.holdLaunch t) := by
  unfold Machine.State.holdLaunch
  repeat' (with_reducible first
    | assumption
    | (extract_lets +onlyGivenNames x; (apply Keep.cut x); rotate_left; intro _; clear_value x; rotate_right; subst x)
    | (extract_lets +onlyGivenNames x; clear_value x)
    | apply Keep.put
    | apply Keep.sendHold
    | (refine Area.sub_trans (b := Touch.holdLaunch) ?_ har; decide)
    | (refine Area.fld_mono (a := Touch.holdLaunch) ?_ har; decide)
    | intro _ _ _
    | intro _ _
    | (refine Keep.rec_pseq ?_ ?_; rotate_left; first | assumption | apply Keep.put | apply Keep.sendHold))

def Touch.takeModes : Nat := 0x10000000000000000000000000000000000000000000000000200
theorem Keep.takeModes {a1 : Int} {m : Nat}
    (har : Area.sub Touch.takeModes ar = true) (h : Keep ar s t) : Keep ar s (Machine.State.takeModes t a1 m) := by
  unfold Machine.State.takeModes
  repeat' (with_reducible first
    | assumption
    | (extract_lets +onlyGivenNames x; (apply Keep.cut x); rotate_left; intro _; clear_value x; rotate_right; subst x)
    | (extract_lets +onlyGivenNames x; clear_value x)
    | apply Keep.ite
    | apply Keep.put
    | (refine Area.sub_trans (b := Touch.takeModes) ?_ har; decide)
    | (refine Area.fld_mono (a := Touch.takeModes) ?_ har; decide)
    | split
    | intro _ _ _
    | intro _ _
    | (refine Keep.rec_pseq ?_ ?_; rotate_left; first | assumption | apply Keep.put | apply Keep.ite))

def Touch.takeAnchor : Nat := 0x200
theorem Keep.takeAnchor {a1 : Int} {a : Int}
    (har : Area.sub Touch.takeAnchor ar = true) (h : Keep ar s t) : Keep ar s (Machine.State.takeAnchor t a1 a) := by
  unfold Machine.State.takeAnchor
  repeat' (with_reducible first
    | assumption
    | (extract_lets +onlyGivenNames x; (apply Keep.cut x); rotate_left; intro _; clear_value x; rotate_right; subst x)
    | (extract_lets +onlyGivenNames x; clear_value x)
    | apply Keep.ite
    | (refine Area.sub_trans (b := Touch.takeAnchor) ?_ har; decide)
    | split
    | (refine Keep.rec_pseq ?_ ?_; rotate_left; first | assumption | apply Keep.ite))

def Touch.launchStrobes : Nat := 0x2858C8801000000000E8300041020001EB4400000068202040000000008100000000219BAE0628
theorem Keep.launchStrobes {a1 : Int} {sf : Nat} {fresh : Bool}
    (har : Area.sub Touch.launchStrobes ar = true) (h : Keep ar s t) : Keep ar s (Machine.State.launchStrobes t a1 sf fresh) := by
  unfold Machine.State.launchStrobes
  repeat' (with_reducible first
    | assumption
    | (extract_lets +onlyGivenNames x; (apply Keep.cut x); rotate_left; intro _; clear_value x; rotate_right; subst x)
    | (extract_lets +onlyGivenNames x; have hf : (∀ z, x z = x z) := fun _ => rfl; clear hf; subst x; try dsimp -zeta only)
    | (extract_lets +onlyGivenNames x; clear_value x)
    | apply Keep.ite
    | apply Keep.strobesAt
    | apply Keep.takeModes
    | apply Keep.takeAnchor
    | (refine Area.sub_trans (b := Touch.launchStrobes) ?_ har; decide)
    | dsimp -zeta only
    | split
    | intro _ _ _
    | intro _ _)

def Touch.patternLaunch : Nat := 0x40000000000000000000000000000000000000000000000200
theorem Keep.patternLaunch
    (har : Area.sub Touch.patternLaunch ar = true) (h : Keep ar s t) : Keep ar s (Machine.State.patternLaunch t) := by
  exact Keep.putB (Area.fld_mono (a := Touch.patternLaunch) (by decide) har) (Keep.rec_pseq (Area.sub_trans (b := Touch.patternLaunch) (by decide) har) h)

def Touch.patternLight : Nat := 0x280000800000000000000000000000000000000000001000000000000000000000010018080033
theorem Keep.patternLight
    (har : Area.sub Touch.patternLight ar = true) (h : Keep ar s t) : Keep ar s (Machine.State.patternLight t) := by
  unfold Machine.State.patternLight
  repeat' (with_reducible first
    | assumption
    | (extract_lets +onlyGivenNames x; (apply Keep.cut x); rotate_left; intro _; clear_value x; rotate_right; subst x)
    | (extract_lets +onlyGivenNames x; have hf : RstState := x; clear hf; subst x)
    | (extract_lets +onlyGivenNames x; clear_value x)
    | apply Keep.ite
    | apply Keep.boot
    | (refine Area.sub_trans (b := Touch.patternLight) ?_ har; decide)
    | split
    | intro _ _ _
    | intro _ _
    | (refine Keep.rec_rst ?_ rfl ?_; rotate_left; first | assumption | apply Keep.boot | apply Keep.ite))

def Touch.slotLaunch : Nat := 0x200
theorem Keep.slotLaunch {p : Nat} {fresh : Bool}
    (har : Area.sub Touch.slotLaunch ar = true) (h : Keep ar s t) : Keep ar s (Machine.State.slotLaunch t p fresh) := by
  unfold Machine.State.slotLaunch
  repeat' (with_reducible first
    | assumption
    | (extract_lets +onlyGivenNames x; (apply Keep.cut x); rotate_left; intro _; clear_value x; rotate_right; subst x)
    | (extract_lets +onlyGivenNames x; clear_value x)
    | apply Keep.ite
    | (refine Area.sub_trans (b := Touch.slotLaunch) ?_ har; decide)
    | split
    | (refine Keep.rec_pseq ?_ ?_; rotate_left; first | assumption | apply Keep.ite))

def Touch.rectLaunch : Nat := 0x4040000000000000000000000000000000000000000000000200
theorem Keep.rectLaunch
    (har : Area.sub Touch.rectLaunch ar = true) (h : Keep ar s t) : Keep ar s (Machine.State.rectLaunch t) := by
  unfold Machine.State.rectLaunch
  repeat' (with_reducible first
    | assumption
    | (extract_lets +onlyGivenNames x; (apply Keep.cut x); rotate_left; intro _; clear_value x; rotate_right; subst x)
    | (extract_lets +onlyGivenNames x; have hf : (∀ z, x z = x z) := fun _ => rfl; clear hf; subst x; try dsimp -zeta only)
    | (extract_lets +onlyGivenNames x; clear_value x)
    | apply Keep.ite
    | apply Keep.rectStat
    | (refine Area.sub_trans (b := Touch.rectLaunch) ?_ har; decide)
    | apply Keep.foldl
    | dsimp -zeta only
    | split
    | intro _ _ _
    | intro _ _
    | (refine Keep.rec_pseq ?_ ?_; rotate_left; first | assumption | apply Keep.rectStat | apply Keep.ite | apply Keep.foldl))

def Touch.subframeStart : Nat := 0x2800008000000000000000000055400000000000000010100000000000000000000100180C2233
theorem Keep.subframeStart {a1 : Int} {p : Nat} {fresh : Bool}
    (har : Area.sub Touch.subframeStart ar = true) (h : Keep ar s t) : Keep ar s (Machine.State.subframeStart t a1 p fresh) := by
  unfold Machine.State.subframeStart
  repeat' (with_reducible first
    | assumption
    | (extract_lets +onlyGivenNames x; (apply Keep.cut x); rotate_left; intro _; clear_value x; rotate_right; subst x)
    | (extract_lets +onlyGivenNames x; have hf : (∀ z, x z = x z) := fun _ => rfl; clear hf; subst x; try dsimp -zeta only)
    | (extract_lets +onlyGivenNames x; clear_value x)
    | apply Keep.ite
    | apply Keep.put
    | apply Keep.putB
    | (refine Keep.setBase ?_ ⟨by decide, by decide⟩ ?_)
    | apply Keep.bandBegin
    | apply Keep.subframeTokens
    | apply Keep.frameLight
    | apply Keep.patternLaunch
    | apply Keep.patternLight
    | apply Keep.slotLaunch
    | apply Keep.sendSof
    | apply Keep.rectLaunch
    | (refine Area.sub_trans (b := Touch.subframeStart) ?_ har; decide)
    | (refine Area.fld_mono (a := Touch.subframeStart) ?_ har; decide)
    | dsimp -zeta only
    | split
    | intro _ _ _
    | intro _ _
    | (refine Keep.rec_pseq_view ?_ ?_; rotate_left; first | assumption | apply Keep.put | apply Keep.putB | apply Keep.setWord | apply Keep.bandBegin | apply Keep.subframeTokens | apply Keep.frameLight | apply Keep.patternLaunch | apply Keep.patternLight | apply Keep.slotLaunch | apply Keep.sendSof | apply Keep.rectLaunch | apply Keep.ite))

def Touch.slotEnds : Nat := 0x200
theorem Keep.slotEnds
    (har : Area.sub Touch.slotEnds ar = true) (h : Keep ar s t) : Keep ar s (Machine.State.slotEnds t) := by
  unfold Machine.State.slotEnds
  repeat' (with_reducible first
    | assumption
    | (extract_lets +onlyGivenNames x; (apply Keep.cut x); rotate_left; intro _; clear_value x; rotate_right; subst x)
    | (extract_lets +onlyGivenNames x; have hf : (∀ z, x z = x z) := fun _ => rfl; clear hf; subst x; try dsimp -zeta only)
    | (extract_lets +onlyGivenNames x; clear_value x)
    | (refine Area.sub_trans (b := Touch.slotEnds) ?_ har; decide)
    | dsimp -zeta only
    | (refine Keep.rec_pseq ?_ ?_; rotate_left; first | assumption))

def Touch.launch : Nat := 0x2858C8801083200000E838024157C001EB4400000068303040000C00008110000001219BAF27BB
theorem Keep.launch
    (har : Area.sub Touch.launch ar = true) (h : Keep ar s t) : Keep ar s (Machine.State.launch t) := by
  unfold Machine.State.launch
  repeat' (with_reducible first
    | assumption
    | (extract_lets +onlyGivenNames x; (apply Keep.cut x); rotate_left; intro _; clear_value x; rotate_right; subst x)
    | (extract_lets +onlyGivenNames x; clear_value x)
    | apply Keep.ite
    | apply Keep.put
    | apply Keep.blackLast
    | apply Keep.calStep
    | apply Keep.claimLaunch
    | apply Keep.holdLaunch
    | apply Keep.laneMarkers
    | apply Keep.launchStrobes
    | apply Keep.subframeStart
    | apply Keep.slotEnds
    | apply Keep.throttleApply
    | (refine Area.sub_trans (b := Touch.launch) ?_ har; decide)
    | (refine Area.fld_mono (a := Touch.launch) ?_ har; decide)
    | split
    | intro _ _ _
    | intro _ _
    | (refine Keep.rec_pseq ?_ ?_; rotate_left; first | assumption | apply Keep.put | apply Keep.blackLast | apply Keep.calStep | apply Keep.claimLaunch | apply Keep.holdLaunch | apply Keep.laneMarkers | apply Keep.launchStrobes | apply Keep.subframeStart | apply Keep.slotEnds | apply Keep.throttleApply | apply Keep.ite))

def Touch.skip : Nat := 0x800000000000000000400200000000000000000000000000000000000000000010000000
theorem Keep.skip {n : Nat}
    (har : Area.sub Touch.skip ar = true) (h : Keep ar s t) : Keep ar s (Machine.State.skip t n) := by
  unfold Machine.State.skip
  repeat' (with_reducible first
    | assumption
    | apply Keep.ite
    | apply Keep.bumpBy
    | apply Keep.raise
    | (refine Area.sub_trans (b := Touch.skip) ?_ har; decide)
    | (refine Area.fld_mono (a := Touch.skip) ?_ har; decide)
    | split
    | intro _ _ _
    | intro _ _)

def Touch.startTake : Nat := 0x8000000000000000004002200000000000000000000000000000C0000000000010000300
theorem Keep.startTake {a1 : Nat}
    (har : Area.sub Touch.startTake ar = true) (h : Keep ar s t) : Keep ar s (Machine.State.startTake t a1) := by
  unfold Machine.State.startTake
  repeat' (with_reducible first
    | assumption
    | (extract_lets +onlyGivenNames x; (apply Keep.cut x); rotate_left; intro _; clear_value x; rotate_right; subst x)
    | (extract_lets +onlyGivenNames x; clear_value x)
    | apply Keep.ite
    | apply Keep.put
    | apply Keep.raise
    | apply Keep.sendPair
    | apply Keep.skip
    | (refine Area.sub_trans (b := Touch.startTake) ?_ har; decide)
    | (refine Area.fld_mono (a := Touch.startTake) ?_ har; decide)
    | split
    | intro _ _ _
    | intro _ _
    | (refine Keep.rec_pseq ?_ ?_; rotate_left; first | assumption | apply Keep.put | apply Keep.raise | apply Keep.sendPair | apply Keep.skip | apply Keep.ite))

def Touch.pointNext : Nat := 0x800000000000000000400200000000000000000000000000000000000000000010000200
theorem Keep.pointNext
    (har : Area.sub Touch.pointNext ar = true) (h : Keep ar s t) : Keep ar s (Machine.State.pointNext t) := by
  unfold Machine.State.pointNext
  repeat' (with_reducible first
    | assumption
    | (extract_lets +onlyGivenNames x; (apply Keep.cut x); rotate_left; intro _; clear_value x; rotate_right; subst x)
    | (extract_lets +onlyGivenNames x; clear_value x)
    | apply Keep.skip
    | (refine Area.sub_trans (b := Touch.pointNext) ?_ har; decide)
    | intro _ _ _
    | intro _ _
    | (refine Keep.rec_pseq ?_ ?_; rotate_left; first | assumption | apply Keep.skip))

def Touch.launchPoint : Nat := 0x8000000000000000004002200000000000000000000000000000C0000000000010000300
theorem Keep.launchPoint
    (har : Area.sub Touch.launchPoint ar = true) (h : Keep ar s t) : Keep ar s (Machine.State.launchPoint t) := by
  unfold Machine.State.launchPoint
  repeat' (with_reducible first
    | assumption
    | (extract_lets +onlyGivenNames x; (apply Keep.cut x); rotate_left; intro _; clear_value x; rotate_right; subst x)
    | (extract_lets +onlyGivenNames x; clear_value x)
    | apply Keep.startTake
    | apply Keep.pointNext
    | (refine Area.sub_trans (b := Touch.launchPoint) ?_ har; decide)
    | split
    | intro _ _ _
    | intro _ _)

def Touch.execFabricFrameStart : Nat := 0x2858C8801080608000E830004103080DEB75E380006C3FF1EB1E0CC133810000027D219BFE7739
theorem Keep.execFabricFrameStart
    (har : Area.sub Touch.execFabricFrameStart ar = true) (h : Keep ar s t) : KeepO ar s (Machine.execFabricFrameStart t) := by
  unfold Machine.execFabricFrameStart
  repeat' (with_reducible first
    | assumption
    | apply KeepO.next
    | apply KeepO.ite
    | apply Keep.ite
    | apply Keep.frameStart
    | (refine Area.sub_trans (b := Touch.execFabricFrameStart) ?_ har; decide)
    | split
    | intro _ _ _
    | intro _ _)

def Touch.execSubframeLaunch : Nat := 0x2858C8801083200000E838024157E001EB4400000068303040000C0000C110000001219BAF27BB
theorem Keep.execSubframeLaunch
    (har : Area.sub Touch.execSubframeLaunch ar = true) (h : Keep ar s t) : KeepO ar s (Machine.execSubframeLaunch t) := by
  unfold Machine.execSubframeLaunch
  repeat' (with_reducible first
    | assumption
    | apply KeepO.next
    | apply KeepO.ite
    | (extract_lets +onlyGivenNames x; (first | apply KeepO.cut x | apply Keep.cut x); rotate_left; intro _; clear_value x; rotate_right; subst x)
    | (extract_lets +onlyGivenNames x; clear_value x)
    | apply Keep.ite
    | apply Keep.launch
    | apply Keep.launchPoint
    | (refine Area.sub_trans (b := Touch.execSubframeLaunch) ?_ har; decide)
    | split
    | intro _ _ _
    | intro _ _
    | (refine Keep.rec_pseq ?_ ?_; rotate_left; first | assumption | apply Keep.launch | apply Keep.launchPoint | apply Keep.ite))

def Touch.execInputIdleTimeout : Nat := 0x400000000000000000000000000000000000000000000080000
theorem Keep.execInputIdleTimeout
    (har : Area.sub Touch.execInputIdleTimeout ar = true) (h : Keep ar s t) : KeepO ar s (Machine.execInputIdleTimeout t) := by
  unfold Machine.execInputIdleTimeout
  repeat' (with_reducible first
    | assumption
    | apply KeepO.next
    | apply KeepO.ite
    | (extract_lets +onlyGivenNames x; (first | apply KeepO.cut x | apply Keep.cut x); rotate_left; intro _; clear_value x; rotate_right; subst x)
    | (extract_lets +onlyGivenNames x; clear_value x)
    | apply Keep.ite
    | apply Keep.put
    | (refine Area.sub_trans (b := Touch.execInputIdleTimeout) ?_ har; decide)
    | (refine Area.fld_mono (a := Touch.execInputIdleTimeout) ?_ har; decide)
    | split
    | intro _ _ _
    | intro _ _
    | (refine Keep.rec_intk ?_ ?_; rotate_left; first | assumption | apply Keep.put | apply Keep.ite))

end Sys2Proof
end

