-- ==== Sys2Proof/Laws/KeepSec.lean ====
section
/-!
SUPPORT. The operations and meanings of Machine/Sec.lean keep what `Keep` says.
-/

namespace Sys2Proof

open Sys2Proof.Machine

variable {ar : Nat} {s t u : Machine.State}

def Touch.hssShow : Nat := 0x800000000000000000000000000000000000000000000000000000001604000010000000
theorem Keep.hssShow
    (har : Area.sub Touch.hssShow ar = true) (h : Keep ar s t) : Keep ar s (Machine.State.hssShow t) := by
  unfold Machine.State.hssShow
  repeat' (with_reducible first
    | assumption
    | (extract_lets +onlyGivenNames x; (apply Keep.cut x); rotate_left; intro _; clear_value x; rotate_right; subst x)
    | (extract_lets +onlyGivenNames x; clear_value x)
    | apply Keep.put
    | apply Keep.putB
    | apply Keep.raiseIf
    | (refine Area.sub_trans (b := Touch.hssShow) ?_ har; decide)
    | (refine Area.fld_mono (a := Touch.hssShow) ?_ har; decide)
    | intro _ _ _
    | intro _ _)

def Touch.hssUse : Nat := 0x800000000000000000000000000000000000000000000000000000001604000010008000
theorem Keep.hssUse
    (har : Area.sub Touch.hssUse ar = true) (h : Keep ar s t) : Keep ar s (Machine.State.hssUse t) := by
  exact Keep.hssShow (Area.sub_trans (b := Touch.hssUse) (by decide) har) (Keep.rec_otp (Area.sub_trans (b := Touch.hssUse) (by decide) har)
    ⟨List.prefix_refl _, List.prefix_refl _, fun _ => id, fun _ => id, fun _ => setBit_testBit, Nat.le_succ _⟩ h)

def Touch.attest : Nat := 0x800000000000000000000000000000000000000000000000000000001604000010408000
theorem Keep.attest {from_ : Nat} {to_ : Nat} {room : Nat}
    (har : Area.sub Touch.attest ar = true) (h : Keep ar s t) : KeepFst ar s (Machine.State.attest t from_ to_ room) := by
  unfold Machine.State.attest
  repeat' (with_reducible first
    | assumption
    | apply KeepFst.mk
    | apply KeepFst.ite
    | (extract_lets +onlyGivenNames x; (first | apply KeepFst.cut1 x | apply Keep.cut x); rotate_left; intro _; clear_value x; rotate_right; subst x)
    | (extract_lets +onlyGivenNames x; clear_value x)
    | apply Keep.ite
    | apply Keep.writeBytes
    | apply Keep.hssUse
    | (refine Area.sub_trans (b := Touch.attest) ?_ har; decide)
    | split
    | intro _ _ _
    | intro _ _)

def Touch.challengeDrop : Nat := 0x4000004000000
theorem Keep.challengeDrop
    (har : Area.sub Touch.challengeDrop ar = true) (h : Keep ar s t) : Keep ar s (Machine.State.challengeDrop t) := by
  unfold Machine.State.challengeDrop
  repeat' (with_reducible first
    | assumption
    | (extract_lets +onlyGivenNames x; (apply Keep.cut x); rotate_left; intro _; clear_value x; rotate_right; subst x)
    | (extract_lets +onlyGivenNames x; clear_value x)
    | apply Keep.put
    | (refine Area.sub_trans (b := Touch.challengeDrop) ?_ har; decide)
    | (refine Area.fld_mono (a := Touch.challengeDrop) ?_ har; decide)
    | intro _ _ _
    | intro _ _
    | (refine Keep.rec_sec ?_ ?_; rotate_left; first | assumption | apply Keep.put))

def Touch.dbgLock : Nat := 0x800000000000000000000000000000000000000000000000000000001004000014000000
theorem Keep.dbgLock
    (har : Area.sub Touch.dbgLock ar = true) (h : Keep ar s t) : Keep ar s (Machine.State.dbgLock t) := by
  unfold Machine.State.dbgLock
  repeat' (with_reducible first
    | assumption
    | (extract_lets +onlyGivenNames x; (apply Keep.cut x); rotate_left; intro _; clear_value x; rotate_right; subst x)
    | (extract_lets +onlyGivenNames x; clear_value x)
    | apply Keep.put
    | apply Keep.raiseIf
    | apply Keep.challengeDrop
    | (refine Area.sub_trans (b := Touch.dbgLock) ?_ har; decide)
    | (refine Area.fld_mono (a := Touch.dbgLock) ?_ har; decide)
    | intro _ _ _
    | intro _ _)

def Touch.keyShow : Nat := 0x300000000000000000000000000000000000
theorem Keep.keyShow {n : Nat} {kid : List Sys2Proof.Byte} {valid : Bool}
    (har : Area.sub Touch.keyShow ar = true) (h : Keep ar s t) : Keep ar s (Machine.State.keyShow t n kid valid) := by
  unfold Machine.State.keyShow
  repeat' (with_reducible first
    | assumption
    | (extract_lets +onlyGivenNames x; (apply Keep.cut x); rotate_left; intro _; clear_value x; rotate_right; subst x)
    | (extract_lets +onlyGivenNames x; have hf : (∀ z, x z = x z) := fun _ => rfl; clear hf; subst x; try dsimp -zeta only)
    | (extract_lets +onlyGivenNames x; clear_value x)
    | apply Keep.put
    | apply Keep.putB
    | apply Keep.keysInUse
    | (refine Area.sub_trans (b := Touch.keyShow) ?_ har; decide)
    | (refine Area.fld_mono (a := Touch.keyShow) ?_ har; decide)
    | apply Keep.foldl
    | dsimp -zeta only
    | intro _ _ _
    | intro _ _)

def Touch.keyClear : Nat := 0x300000000000000000000000000004080000
theorem Keep.keyClear {n : Nat}
    (har : Area.sub Touch.keyClear ar = true) (h : Keep ar s t) : Keep ar s (Machine.State.keyClear t n) := by
  unfold Machine.State.keyClear
  repeat' (with_reducible first
    | assumption
    | (extract_lets +onlyGivenNames x; (apply Keep.cut x); rotate_left; intro _; clear_value x; rotate_right; subst x)
    | (extract_lets +onlyGivenNames x; have hf : (∀ z, x z = x z) := fun _ => rfl; clear hf; subst x; try dsimp -zeta only)
    | (extract_lets +onlyGivenNames x; clear_value x)
    | apply Keep.keyShow
    | (refine Area.sub_trans (b := Touch.keyClear) ?_ har; decide)
    | dsimp -zeta only
    | intro _ _ _
    | intro _ _
    | (refine Keep.rec_intk_sec ?_ ?_; rotate_left; first | assumption | apply Keep.keyShow))

def Touch.dbgSubmit : Nat := 0x880800000000000000000000000000000000000300000000000000000001804000014080000
theorem Keep.dbgSubmit
    (har : Area.sub Touch.dbgSubmit ar = true) (h : Keep ar s t) : Keep ar s (Machine.State.dbgSubmit t) := by
  unfold Machine.State.dbgSubmit
  repeat' (with_reducible first
    | assumption
    | (extract_lets +onlyGivenNames x; (apply Keep.cut x); rotate_left; intro _; clear_value x; rotate_right; subst x)
    | (extract_lets +onlyGivenNames x; have hf : (∀ z, x z = x z) := fun _ => rfl; clear hf; subst x; try dsimp -zeta only)
    | (extract_lets +onlyGivenNames x; clear_value x)
    | apply Keep.ite
    | apply Keep.put
    | apply Keep.bump
    | apply Keep.raise
    | apply Keep.challengeDrop
    | apply Keep.keyClear
    | (refine Area.sub_trans (b := Touch.dbgSubmit) ?_ har; decide)
    | (refine Area.fld_mono (a := Touch.dbgSubmit) ?_ har; decide)
    | apply Keep.foldl
    | dsimp -zeta only
    | split
    | intro _ _ _
    | intro _ _
    | (refine Keep.rec_sec ?_ ?_; rotate_left; first | assumption | apply Keep.put | apply Keep.bump | apply Keep.raise | apply Keep.challengeDrop | apply Keep.keyClear | apply Keep.ite | apply Keep.foldl))

def Touch.dbgCmd : Nat := 0x280880800000000000000000000000000000000000300000000000000000001804000014080020
theorem Keep.dbgCmd {r : Sys2Proof.Req} {data : Nat}
    (har : Area.sub Touch.dbgCmd ar = true) (h : Keep ar s t) : Keep ar s (Machine.State.dbgCmd t r data) := by
  unfold Machine.State.dbgCmd
  repeat' (with_reducible first
    | assumption
    | (extract_lets +onlyGivenNames x; (apply Keep.cut x); rotate_left; intro _; clear_value x; rotate_right; subst x)
    | (extract_lets +onlyGivenNames x; have hf : (∀ z, x z = x z) := fun _ => rfl; clear hf; subst x; try dsimp -zeta only)
    | (extract_lets +onlyGivenNames x; clear_value x)
    | apply Keep.ite
    | apply Keep.keyed
    | apply Keep.dbgLock
    | apply Keep.dbgSubmit
    | (refine Area.sub_trans (b := Touch.dbgCmd) ?_ har; decide)
    | dsimp -zeta only
    | split
    | intro _ _ _
    | intro _ _)

def Touch.commitEnd : Nat := 0x800000000000000000000000000000000000000000000000000000001040000010000000
theorem Keep.commitEnd {err : Nat}
    (har : Area.sub Touch.commitEnd ar = true) (h : Keep ar s t) : Keep ar s (Machine.State.commitEnd t err) := by
  unfold Machine.State.commitEnd
  repeat' (with_reducible first
    | assumption
    | apply Keep.put
    | apply Keep.putB
    | apply Keep.raise
    | (refine Area.sub_trans (b := Touch.commitEnd) ?_ har; decide)
    | (refine Area.fld_mono (a := Touch.commitEnd) ?_ har; decide)
    | intro _ _ _
    | intro _ _)

def Touch.commitBegin : Nat := 0x800000000000000000000000000000000000000000000000000000001040000014000000
theorem Keep.commitBegin {pers : Bool} {rows0 : List (Option Nat)} {v : Nat}
    (har : Area.sub Touch.commitBegin ar = true) (h : Keep ar s t) : Keep ar s (Machine.State.commitBegin t pers rows0 v) := by
  unfold Machine.State.commitBegin
  repeat' (with_reducible first
    | assumption
    | (extract_lets +onlyGivenNames x; (apply Keep.cut x); rotate_left; intro _; clear_value x; rotate_right; subst x)
    | (extract_lets +onlyGivenNames x; have hf : (∀ z, x z = x z) := fun _ => rfl; clear hf; subst x; try dsimp -zeta only)
    | (extract_lets +onlyGivenNames x; clear_value x)
    | apply Keep.ite
    | apply Keep.put
    | apply Keep.commitEnd
    | (refine Area.sub_trans (b := Touch.commitBegin) ?_ har; decide)
    | (refine Area.fld_mono (a := Touch.commitBegin) ?_ har; decide)
    | dsimp -zeta only
    | split
    | intro _ _ _
    | intro _ _
    | (refine Keep.rec_sec ?_ ?_; rotate_left; first | assumption | apply Keep.put | apply Keep.commitEnd | apply Keep.ite))

def Touch.commitFw : Nat := 0x800000000000000000000000000000000000000000000000000000001040000014000000
theorem Keep.commitFw
    (har : Area.sub Touch.commitFw ar = true) (h : Keep ar s t) : Keep ar s (Machine.State.commitFw t) := by
  unfold Machine.State.commitFw
  repeat' (with_reducible first
    | assumption
    | apply Keep.commitBegin
    | (refine Area.sub_trans (b := Touch.commitFw) ?_ har; decide)
    | intro _ _ _
    | intro _ _)

def Touch.commitPers : Nat := 0x800000000000000000000000000000000000000000000000000000001040000014000000
theorem Keep.commitPers
    (har : Area.sub Touch.commitPers ar = true) (h : Keep ar s t) : Keep ar s (Machine.State.commitPers t) := by
  unfold Machine.State.commitPers
  repeat' (with_reducible first
    | assumption
    | (extract_lets +onlyGivenNames x; (apply Keep.cut x); rotate_left; intro _; clear_value x; rotate_right; subst x)
    | (extract_lets +onlyGivenNames x; clear_value x)
    | apply Keep.ite
    | apply Keep.commitEnd
    | apply Keep.commitBegin
    | (refine Area.sub_trans (b := Touch.commitPers) ?_ har; decide)
    | split
    | intro _ _ _
    | intro _ _)

def Touch.svnCommit : Nat := 0x280000800000000000000000000000000000000000000000000000000000001040000014000020
theorem Keep.svnCommit {r : Sys2Proof.Req} {data : Nat}
    (har : Area.sub Touch.svnCommit ar = true) (h : Keep ar s t) : Keep ar s (Machine.State.svnCommit t r data) := by
  unfold Machine.State.svnCommit
  repeat' (with_reducible first
    | assumption
    | (extract_lets +onlyGivenNames x; (apply Keep.cut x); rotate_left; intro _; clear_value x; rotate_right; subst x)
    | (extract_lets +onlyGivenNames x; have hf : (∀ z, x z = x z) := fun _ => rfl; clear hf; subst x; try dsimp -zeta only)
    | (extract_lets +onlyGivenNames x; clear_value x)
    | apply Keep.ite
    | apply Keep.keyed
    | apply Keep.commitFw
    | apply Keep.commitPers
    | (refine Area.sub_trans (b := Touch.svnCommit) ?_ har; decide)
    | dsimp -zeta only
    | split
    | intro _ _ _
    | intro _ _)

def Touch.challengeIssue : Nat := 0x400000C400000
theorem Keep.challengeIssue {to_ : Nat} {room : Nat}
    (har : Area.sub Touch.challengeIssue ar = true) (h : Keep ar s t) : KeepFst ar s (Machine.State.challengeIssue t to_ room) := by
  unfold Machine.State.challengeIssue
  repeat' (with_reducible first
    | assumption
    | apply KeepFst.mk
    | apply KeepFst.ite
    | (extract_lets +onlyGivenNames x; (first | apply KeepFst.cut1 x | apply Keep.cut x); rotate_left; intro _; clear_value x; rotate_right; subst x)
    | (extract_lets +onlyGivenNames x; clear_value x)
    | apply Keep.ite
    | apply Keep.put
    | apply Keep.tookFree
    | apply Keep.writeBytes
    | (refine Area.sub_trans (b := Touch.challengeIssue) ?_ har; decide)
    | (refine Area.fld_mono (a := Touch.challengeIssue) ?_ har; decide)
    | split
    | intro _ _ _
    | intro _ _
    | (refine Keep.rec_sec ?_ ?_; rotate_left; first | assumption | apply Keep.put | apply Keep.tookFree | apply Keep.writeBytes | apply Keep.ite))

def Touch.commitCut : Nat := 0x8000
theorem Keep.commitCut
    (har : Area.sub Touch.commitCut ar = true) (h : Keep ar s t) : Keep ar s (Machine.State.commitCut t) := by
  unfold Machine.State.commitCut
  split
  · exact h
  · refine Keep.rec_otp (Area.sub_trans (b := Touch.commitCut) (by decide) har) ?_ h
    split
    · exact OtpGrows.persRow _ _
    · exact OtpGrows.fwRow _ _

def Touch.keyPut : Nat := 0x80000
theorem Keep.keyPut {n : Nat} {k : KeySlot}
    (har : Area.sub Touch.keyPut ar = true) (h : Keep ar s t) : Keep ar s (Machine.State.keyPut t n k) := by
  unfold Machine.State.keyPut
  repeat' (with_reducible first
    | assumption
    | (extract_lets +onlyGivenNames x; (apply Keep.cut x); rotate_left; intro _; clear_value x; rotate_right; subst x)
    | (extract_lets +onlyGivenNames x; have hf : (∀ z, x z = x z) := fun _ => rfl; clear hf; subst x; try dsimp -zeta only)
    | (extract_lets +onlyGivenNames x; clear_value x)
    | apply Keep.ite
    | (refine Area.sub_trans (b := Touch.keyPut) ?_ har; decide)
    | dsimp -zeta only
    | split
    | (refine Keep.rec_intk ?_ ?_; rotate_left; first | assumption | apply Keep.ite))

def Touch.keyLoad : Nat := 0x300000000000000000000000000004080000
theorem Keep.keyLoad {n : Nat} {b : List Sys2Proof.Byte}
    (har : Area.sub Touch.keyLoad ar = true) (h : Keep ar s t) : KeepFst ar s (Machine.State.keyLoad t n b) := by
  unfold Machine.State.keyLoad
  repeat' (with_reducible first
    | assumption
    | apply KeepFst.mk
    | apply KeepFst.ite
    | (extract_lets +onlyGivenNames x; (first | apply KeepFst.cut1 x | apply Keep.cut x); rotate_left; intro _; clear_value x; rotate_right; subst x)
    | (extract_lets +onlyGivenNames x; have hf : (∀ z, x z = x z) := fun _ => rfl; clear hf; subst x; try dsimp -zeta only)
    | (extract_lets +onlyGivenNames x; clear_value x)
    | apply Keep.bump
    | apply Keep.keyShow
    | apply Keep.keyPut
    | (refine Area.sub_trans (b := Touch.keyLoad) ?_ har; decide)
    | (refine Area.fld_mono (a := Touch.keyLoad) ?_ har; decide)
    | dsimp -zeta only
    | split
    | intro _ _ _
    | intro _ _
    | (refine Keep.rec_sec ?_ ?_; rotate_left; first | assumption | apply Keep.bump | apply Keep.keyShow | apply Keep.keyPut))

def Touch.keysReload : Nat := 0x300000000000000000000000000004080000
theorem Keep.keysReload
    (har : Area.sub Touch.keysReload ar = true) (h : Keep ar s t) : Keep ar s (Machine.State.keysReload t) := by
  unfold Machine.State.keysReload
  repeat' (with_reducible first
    | assumption
    | apply KeepFst.mk
    | apply KeepFst.ite
    | apply KeepFst.foldl
    | apply Keep.keyLoad
    | (refine KeepFst.of_eq ?_ (by assumption); first | apply Keep.keyLoad | apply KeepFst.ite)
    | (apply KeepFst.fst; first | apply Keep.keyLoad)
    | (refine Area.sub_trans (b := Touch.keysReload) ?_ har; decide)
    | apply Keep.foldl
    | intro _ _ _
    | intro _ _)

def Touch.slotRevoke : Nat := 0x2800008000000000000000000000000000000000000000000000003F13000000027C0018005120
theorem Keep.slotRevoke {slot : Nat} {code : Nat} {off : Nat}
    (har : Area.sub Touch.slotRevoke ar = true) (h : Keep ar s t) : Keep ar s (Machine.State.slotRevoke t slot code off) := by
  unfold Machine.State.slotRevoke
  repeat' (with_reducible first
    | assumption
    | apply Keep.actRefuseOn
    | apply Keep.slotReject
    | (refine Area.sub_trans (b := Touch.slotRevoke) ?_ har; decide)
    | intro _ _ _
    | intro _ _)

def Touch.otpShow : Nat := 0x3C000000000000
theorem Keep.otpShow
    (har : Area.sub Touch.otpShow ar = true) (h : Keep ar s t) : Keep ar s (Machine.State.otpShow t) := by
  unfold Machine.State.otpShow
  repeat' (with_reducible first
    | assumption
    | (extract_lets +onlyGivenNames x; (apply Keep.cut x); rotate_left; intro _; clear_value x; rotate_right; subst x)
    | (extract_lets +onlyGivenNames x; clear_value x)
    | apply Keep.put
    | (refine Area.sub_trans (b := Touch.otpShow) ?_ har; decide)
    | (refine Area.fld_mono (a := Touch.otpShow) ?_ har; decide)
    | intro _ _ _
    | intro _ _)

def Touch.enroll : Nat := 0x2800008000000000000000000000000000000000000000000000003F130000003E7C001800D120
theorem OtpGrows.enrolled (a : OtpState) (k : List (Nat × List Byte)) (p : Nat) :
    OtpGrows a { a with ownerKeys := k, enrolled := Word.setBit a.enrolled p } :=
  ⟨List.prefix_refl _, List.prefix_refl _, fun _ => setBit_testBit, fun _ => id, fun _ => id, Nat.le_refl _⟩

theorem OtpGrows.closed (a : OtpState) (p : Nat) : OtpGrows a { a with closed := Word.setBit a.closed p } :=
  ⟨List.prefix_refl _, List.prefix_refl _, fun _ => id, fun _ => setBit_testBit, fun _ => id, Nat.le_refl _⟩

theorem Keep.enroll {p : Nat} {o : List Sys2Proof.Byte}
    (har : Area.sub Touch.enroll ar = true) (h : Keep ar s t) : KeepFst ar s (Machine.State.enroll t p o) := by
  unfold Machine.State.enroll
  simp only []
  refine KeepFst.ite h (KeepFst.ite h ?_)
  split
  · refine KeepFst.ite (KeepFst.ite h ?_) ?_
    · exact Keep.otpShow (Area.sub_trans (b := Touch.enroll) (by decide) har) (Keep.rec_otp (Area.sub_trans (b := Touch.enroll) (by decide) har) (OtpGrows.enrolled _ _ _) h)
    · exact Keep.foldl (fun _ _ k => Keep.slotRevoke (Area.sub_trans (b := Touch.enroll) (by decide) har) k) (Keep.otpShow (Area.sub_trans (b := Touch.enroll) (by decide) har) (Keep.rec_otp (Area.sub_trans (b := Touch.enroll) (by decide) har) (OtpGrows.closed _ _) h))
  · exact h

def Touch.hssStart : Nat := 0x800000000000000000000000000000000000000000000000000000001604000010008000
theorem Keep.hssStart
    (har : Area.sub Touch.hssStart ar = true) (h : Keep ar s t) : Keep ar s (Machine.State.hssStart t) := by
  exact Keep.hssShow (Area.sub_trans (b := Touch.hssStart) (by decide) har) (Keep.rec_otp (Area.sub_trans (b := Touch.hssStart) (by decide) har)
    ⟨List.prefix_refl _, List.prefix_refl _, fun _ => id, fun _ => id, fun _ => id, Nat.le_max_left _ _⟩ h)

def Touch.rollSlots : Nat := 0x2800008000000000000000000000000000000000000000000000003F13000000027C0018005120
theorem Keep.rollSlots
    (har : Area.sub Touch.rollSlots ar = true) (h : Keep ar s t) : Keep ar s (Machine.State.rollSlots t) := by
  unfold Machine.State.rollSlots
  repeat' (with_reducible first
    | assumption
    | apply Keep.slotRevoke
    | (refine Area.sub_trans (b := Touch.rollSlots) ?_ har; decide)
    | apply Keep.foldl
    | intro _ _ _
    | intro _ _)

def Touch.execDbgLock : Nat := 0x280880800000000000000000000000000000000000300000000000000000001804000014080020
theorem Keep.execDbgLock {r : Sys2Proof.Req} {key : Nat}
    (har : Area.sub Touch.execDbgLock ar = true) (h : Keep ar s t) : KeepO ar s (Machine.execDbgLock r key t) := by
  unfold Machine.execDbgLock
  repeat' (with_reducible first
    | assumption
    | apply KeepO.next
    | apply KeepO.ite
    | apply Keep.dbgCmd
    | (refine Area.sub_trans (b := Touch.execDbgLock) ?_ har; decide)
    | intro _ _ _
    | intro _ _)

def Touch.execDbgSubmit : Nat := 0x280880800000000000000000000000000000000000300000000000000000001804000014080020
theorem Keep.execDbgSubmit {r : Sys2Proof.Req} {key : Nat}
    (har : Area.sub Touch.execDbgSubmit ar = true) (h : Keep ar s t) : KeepO ar s (Machine.execDbgSubmit r key t) := by
  unfold Machine.execDbgSubmit
  repeat' (with_reducible first
    | assumption
    | apply KeepO.next
    | apply KeepO.ite
    | apply Keep.dbgCmd
    | (refine Area.sub_trans (b := Touch.execDbgSubmit) ?_ har; decide)
    | intro _ _ _
    | intro _ _)

def Touch.execSvnCommitPers : Nat := 0x280000800000000000000000000000000000000000000000000000000000001040000014000020
theorem Keep.execSvnCommitPers {r : Sys2Proof.Req} {key : Nat}
    (har : Area.sub Touch.execSvnCommitPers ar = true) (h : Keep ar s t) : KeepO ar s (Machine.execSvnCommitPers r key t) := by
  unfold Machine.execSvnCommitPers
  repeat' (with_reducible first
    | assumption
    | apply KeepO.next
    | apply KeepO.ite
    | apply Keep.svnCommit
    | (refine Area.sub_trans (b := Touch.execSvnCommitPers) ?_ har; decide)
    | intro _ _ _
    | intro _ _)

def Touch.execKeyExpiry : Nat := 0x800000000000000000000000000000000000300000000000000000001000000014080000
theorem Keep.execKeyExpiry {n : Nat}
    (har : Area.sub Touch.execKeyExpiry ar = true) (h : Keep ar s t) : KeepO ar s (Machine.execKeyExpiry n t) := by
  unfold Machine.execKeyExpiry
  repeat' (with_reducible first
    | assumption
    | apply KeepO.next
    | apply KeepO.ite
    | (extract_lets +onlyGivenNames x; (first | apply KeepO.cut x | apply Keep.cut x); rotate_left; intro _; clear_value x; rotate_right; subst x)
    | (extract_lets +onlyGivenNames x; have hf : (∀ z, x z = x z) := fun _ => rfl; clear hf; subst x; try dsimp -zeta only)
    | (extract_lets +onlyGivenNames x; clear_value x)
    | apply Keep.ite
    | apply Keep.raise
    | apply Keep.keyClear
    | (refine Area.sub_trans (b := Touch.execKeyExpiry) ?_ har; decide)
    | (refine Area.fld_mono (a := Touch.execKeyExpiry) ?_ har; decide)
    | dsimp -zeta only
    | split
    | intro _ _ _
    | intro _ _)

def Touch.execChallengeExpiry : Nat := 0x4000004000000
theorem Keep.execChallengeExpiry
    (har : Area.sub Touch.execChallengeExpiry ar = true) (h : Keep ar s t) : KeepO ar s (Machine.execChallengeExpiry t) := by
  unfold Machine.execChallengeExpiry
  repeat' (with_reducible first
    | assumption
    | apply KeepO.next
    | apply KeepO.ite
    | (extract_lets +onlyGivenNames x; (first | apply KeepO.cut x | apply Keep.cut x); rotate_left; intro _; clear_value x; rotate_right; subst x)
    | (extract_lets +onlyGivenNames x; clear_value x)
    | apply Keep.ite
    | apply Keep.challengeDrop
    | (refine Area.sub_trans (b := Touch.execChallengeExpiry) ?_ har; decide)
    | split
    | intro _ _ _
    | intro _ _)

def Touch.execSvnCommitFw : Nat := 0x280000800000000000000000000000000000000000000000000000000000001040000014000020
theorem Keep.execSvnCommitFw {r : Sys2Proof.Req} {key : Nat}
    (har : Area.sub Touch.execSvnCommitFw ar = true) (h : Keep ar s t) : KeepO ar s (Machine.execSvnCommitFw r key t) := by
  unfold Machine.execSvnCommitFw
  repeat' (with_reducible first
    | assumption
    | apply KeepO.next
    | apply KeepO.ite
    | apply Keep.svnCommit
    | (refine Area.sub_trans (b := Touch.execSvnCommitFw) ?_ har; decide)
    | intro _ _ _
    | intro _ _)

def Touch.execSvnCommitDone : Nat := 0x2800008000000000000000000000000000000000000000000000003F130000107E7C001C00D120
theorem Keep.execSvnCommitDone
    (har : Area.sub Touch.execSvnCommitDone ar = true) (h : Keep ar s t) : KeepO ar s (Machine.execSvnCommitDone t) := by
  unfold Machine.execSvnCommitDone
  split
  · exact KeepO.next h
  · refine KeepO.next (Keep.ite (Keep.rollSlots (Area.sub_trans (b := Touch.execSvnCommitDone) (by decide) har) ?_) ?_) <;>
    · refine Keep.commitEnd (Area.sub_trans (b := Touch.execSvnCommitDone) (by decide) har) (Keep.otpShow (Area.sub_trans (b := Touch.execSvnCommitDone) (by decide) har) (Keep.rec_otp_sec (Area.sub_trans (b := Touch.execSvnCommitDone) (by decide) har) ?_ h))
      split
      · exact OtpGrows.persRow _ _
      · exact OtpGrows.fwRow _ _

end Sys2Proof
end

