-- ==== Sys2Proof/Laws/KeepBoot.lean ====
section
/-!
SUPPORT. The operations and meanings of Machine/Boot.lean keep what `Keep` says.
-/

namespace Sys2Proof

open Sys2Proof.Machine

variable {ar : Nat} {s t u : Machine.State}

def Touch.baseLoad : Nat := 0x2800008000000000000000000000000000000000000000000000003F13000000027D0018405130
theorem Keep.baseLoad {file : List Sys2Proof.Byte}
    (har : Area.sub Touch.baseLoad ar = true) (h : Keep ar s t) : Keep ar s (Machine.State.baseLoad t file) := by
  unfold Machine.State.baseLoad
  repeat' (with_reducible first
    | assumption
    | (extract_lets +onlyGivenNames x; (apply Keep.cut x); rotate_left; intro _; clear_value x; rotate_right; subst x)
    | (extract_lets +onlyGivenNames x; clear_value x)
    | apply Keep.ite
    | apply Keep.raise
    | apply Keep.stageFail
    | apply Keep.actRequest
    | apply Keep.writeBytes
    | apply Keep.slotReject
    | apply Keep.slotVerify
    | (refine Area.sub_trans (b := Touch.baseLoad) ?_ har; decide)
    | (refine Area.fld_mono (a := Touch.baseLoad) ?_ har; decide)
    | split
    | intro _ _ _
    | intro _ _)

def Touch.chanSet : Nat := 0x180000000000000000000000000000000000000000000000000000000000800
theorem Keep.chanSet {l : List Sys2Proof.ChanTrain} {k : Nat}
    (har : Area.sub Touch.chanSet ar = true) (h : Keep ar s t) : Keep ar s (Machine.State.chanSet t l k) := by
  unfold Machine.State.chanSet
  repeat' (with_reducible first
    | assumption
    | (extract_lets +onlyGivenNames x; (apply Keep.cut x); rotate_left; intro _; clear_value x; rotate_right; subst x)
    | (extract_lets +onlyGivenNames x; have hf : (∀ z, x z = x z) := fun _ => rfl; clear hf; subst x; try dsimp -zeta only)
    | (extract_lets +onlyGivenNames x; clear_value x)
    | apply Keep.ite
    | apply Keep.put
    | (refine Area.sub_trans (b := Touch.chanSet) ?_ har; decide)
    | (refine Area.fld_mono (a := Touch.chanSet) ?_ har; decide)
    | dsimp -zeta only
    | split
    | intro _ _ _
    | intro _ _
    | (refine Keep.rec_mem ?_ ?_; rotate_left; first | assumption | apply Keep.put | apply Keep.ite))

def Touch.panelRange : Nat := 0x8000000000000000000000000000000000000000000
theorem Keep.panelRange
    (har : Area.sub Touch.panelRange ar = true) (h : Keep ar s t) : Keep ar s (Machine.State.panelRange t) := by
  unfold Machine.State.panelRange
  repeat' (with_reducible first
    | assumption
    | (extract_lets +onlyGivenNames x; (apply Keep.cut x); rotate_left; intro _; clear_value x; rotate_right; subst x)
    | (extract_lets +onlyGivenNames x; clear_value x)
    | apply Keep.put
    | (refine Area.sub_trans (b := Touch.panelRange) ?_ har; decide)
    | (refine Area.fld_mono (a := Touch.panelRange) ?_ har; decide)
    | split
    | intro _ _ _
    | intro _ _)

def Touch.putBoth : Nat := 0x1
theorem Keep.putBoth {f : Fld} (hf : Area.fld ar f = true) {v : Nat} {i : Nat} {j : Nat}
    (har : Area.sub Touch.putBoth ar = true) (h : Keep ar s t) : Keep ar s (Machine.State.putBoth t f v i j) := by
  unfold Machine.State.putBoth
  repeat' (with_reducible first
    | assumption
    | apply Keep.put
    | apply Keep.putStaged
    | (refine Area.sub_trans (b := Touch.putBoth) ?_ har; decide)
    | intro _ _ _
    | intro _ _)

def Touch.descLoad : Nat := 0x280000800000000000000001BE001000000800000000000000000000000000000000001C000223
theorem Keep.descLoad {o : List Sys2Proof.Byte}
    (har : Area.sub Touch.descLoad ar = true) (h : Keep ar s t) : Keep ar s (Machine.State.descLoad t o) := by
  unfold Machine.State.descLoad
  repeat' (with_reducible first
    | assumption
    | (extract_lets +onlyGivenNames x; (apply Keep.cut x); rotate_left; intro _; clear_value x; rotate_right; subst x)
    | (extract_lets +onlyGivenNames x; have hf : (∀ z, x z = x z) := fun _ => rfl; clear hf; subst x; try dsimp -zeta only)
    | (extract_lets +onlyGivenNames x; have hf : RstState := x; clear hf; subst x)
    | (extract_lets +onlyGivenNames x; clear_value x)
    | apply Keep.ite
    | apply Keep.put
    | apply Keep.recOther
    | apply Keep.panelRange
    | apply Keep.putBoth
    | (refine Area.sub_trans (b := Touch.descLoad) ?_ har; decide)
    | (refine Area.fld_mono (a := Touch.descLoad) ?_ har; decide)
    | apply Keep.foldl
    | dsimp -zeta only
    | split
    | intro _ _ _
    | intro _ _
    | (refine Keep.rec_rst_pseq_sec ?_ rfl ?_; rotate_left; first | assumption | apply Keep.put | apply Keep.recOther | apply Keep.panelRange | apply Keep.putBoth | apply Keep.ite | apply Keep.foldl))

def Touch.flashShow : Nat := 0x100000000000000000000000000000000000000000000000000000000
theorem Keep.flashShow
    (har : Area.sub Touch.flashShow ar = true) (h : Keep ar s t) : Keep ar s (Machine.State.flashShow t) := by
  unfold Machine.State.flashShow
  repeat' (with_reducible first
    | assumption
    | (extract_lets +onlyGivenNames x; (apply Keep.cut x); rotate_left; intro _; clear_value x; rotate_right; subst x)
    | (extract_lets +onlyGivenNames x; clear_value x)
    | apply Keep.put
    | (refine Area.sub_trans (b := Touch.flashShow) ?_ har; decide)
    | (refine Area.fld_mono (a := Touch.flashShow) ?_ har; decide)
    | split
    | intro _ _ _
    | intro _ _)

def Touch.fwRun : Nat := 0x2A00008000000000010001000000000000000000000000000000000000000017861F001C00C132
theorem Keep.fwRun {img : List Sys2Proof.Byte} {slot : Nat} {host : Bool}
    (har : Area.sub Touch.fwRun ar = true) (h : Keep ar s t) : Keep ar s (Machine.State.fwRun t img slot host) := by
  unfold Machine.State.fwRun
  repeat' (with_reducible first
    | assumption
    | (extract_lets +onlyGivenNames x; (apply Keep.cut x); rotate_left; intro _; clear_value x; rotate_right; subst x)
    | (extract_lets +onlyGivenNames x; have hf : (∀ z, x z = x z) := fun _ => rfl; clear hf; subst x; try dsimp -zeta only)
    | (extract_lets +onlyGivenNames x; have hf : RstState := x; clear hf; subst x)
    | (extract_lets +onlyGivenNames x; clear_value x)
    | apply Keep.ite
    | apply Keep.put
    | apply Keep.putB
    | apply Keep.offer
    | apply Keep.mbxDone
    | apply Keep.hssStart
    | apply Keep.flashShow
    | apply Keep.savedCopy
    | (refine Area.sub_trans (b := Touch.fwRun) ?_ har; decide)
    | (refine Area.fld_mono (a := Touch.fwRun) ?_ har; decide)
    | apply Keep.foldl
    | dsimp -zeta only
    | split
    | intro _ _ _
    | intro _ _
    | (refine Keep.rec_rst_pins_sec ?_ rfl ?_; rotate_left; first | assumption | apply Keep.put | apply Keep.putB | apply Keep.offer | apply Keep.mbxDone | apply Keep.hssStart | apply Keep.flashShow | apply Keep.savedCopy | apply Keep.ite | apply Keep.foldl))

def Touch.flashBoot : Nat := 0x2A00008000000000010001000000000000000000000000000000000000000017861F001C00C132
theorem Keep.flashBoot {slot0 : List Sys2Proof.Byte} {slot1 : List Sys2Proof.Byte}
    (har : Area.sub Touch.flashBoot ar = true) (h : Keep ar s t) : Keep ar s (Machine.State.flashBoot t slot0 slot1) := by
  unfold Machine.State.flashBoot
  repeat' (with_reducible first
    | assumption
    | (extract_lets +onlyGivenNames x; (apply Keep.cut x); rotate_left; intro _; clear_value x; rotate_right; subst x)
    | (extract_lets +onlyGivenNames x; have hf : RstState := x; clear hf; subst x)
    | (extract_lets +onlyGivenNames x; clear_value x)
    | apply Keep.ite
    | apply Keep.stageFail
    | apply Keep.fwRun
    | (refine Area.sub_trans (b := Touch.flashBoot) ?_ har; decide)
    | split
    | intro _ _ _
    | intro _ _
    | (refine Keep.rec_rst ?_ rfl ?_; rotate_left; first | assumption | apply Keep.stageFail | apply Keep.fwRun | apply Keep.ite))

def Touch.hostFallback : Nat := 0x2A00008000000000010001000000000000000000000000000000000000000017861F001C00C132
theorem Keep.hostFallback {slot0 : List Sys2Proof.Byte} {slot1 : List Sys2Proof.Byte}
    (har : Area.sub Touch.hostFallback ar = true) (h : Keep ar s t) : Keep ar s (Machine.State.hostFallback t slot0 slot1) := by
  unfold Machine.State.hostFallback
  repeat' (with_reducible first
    | assumption
    | (extract_lets +onlyGivenNames x; (apply Keep.cut x); rotate_left; intro _; clear_value x; rotate_right; subst x)
    | (extract_lets +onlyGivenNames x; have hf : RstState := x; clear hf; subst x)
    | (extract_lets +onlyGivenNames x; clear_value x)
    | apply Keep.recOther
    | apply Keep.notice
    | apply Keep.flashBoot
    | (refine Area.sub_trans (b := Touch.hostFallback) ?_ har; decide)
    | intro _ _ _
    | intro _ _
    | (refine Keep.rec_rst ?_ rfl ?_; rotate_left; first | assumption | apply Keep.recOther | apply Keep.notice | apply Keep.flashBoot))

def Touch.katBoot : Nat := 0x300400100000000000000002000
theorem Keep.katBoot {failed : List Nat}
    (har : Area.sub Touch.katBoot ar = true) (h : Keep ar s t) : Keep ar s (Machine.State.katBoot t failed) := by
  unfold Machine.State.katBoot
  repeat' (with_reducible first
    | assumption
    | (extract_lets +onlyGivenNames x; (apply Keep.cut x); rotate_left; intro _; clear_value x; rotate_right; subst x)
    | (extract_lets +onlyGivenNames x; have hf : (∀ z, x z = x z) := fun _ => rfl; clear hf; subst x; try dsimp -zeta only)
    | (extract_lets +onlyGivenNames x; clear_value x)
    | apply Keep.ite
    | apply Keep.put
    | apply Keep.putB
    | apply Keep.bump
    | apply Keep.retire
    | (refine Area.sub_trans (b := Touch.katBoot) ?_ har; decide)
    | (refine Area.fld_mono (a := Touch.katBoot) ?_ har; decide)
    | apply Keep.foldl
    | dsimp -zeta only
    | split
    | intro _ _ _
    | intro _ _)

def Touch.macShow : Nat := 0x4000000000000000000000000000000000000000000000000000000000000000000000000
theorem Keep.macShow
    (har : Area.sub Touch.macShow ar = true) (h : Keep ar s t) : Keep ar s (Machine.State.macShow t) := by
  unfold Machine.State.macShow
  repeat' (with_reducible first
    | assumption
    | apply Keep.put
    | (refine Area.sub_trans (b := Touch.macShow) ?_ har; decide)
    | (refine Area.fld_mono (a := Touch.macShow) ?_ har; decide)
    | apply Keep.foldl
    | intro _ _ _
    | intro _ _)

def Touch.strapSet : Nat := 0x280000800000000000000000000000000000000000000000000000000000000000008018000030
theorem Keep.strapSet {reading : Nat}
    (har : Area.sub Touch.strapSet ar = true) (h : Keep ar s t) : Keep ar s (Machine.State.strapSet t reading) := by
  unfold Machine.State.strapSet
  repeat' (with_reducible first
    | assumption
    | (extract_lets +onlyGivenNames x; (apply Keep.cut x); rotate_left; intro _; clear_value x; rotate_right; subst x)
    | (extract_lets +onlyGivenNames x; clear_value x)
    | apply Keep.ite
    | apply Keep.put
    | apply Keep.putB
    | apply Keep.alert
    | apply Keep.recOther
    | (refine Area.sub_trans (b := Touch.strapSet) ?_ har; decide)
    | (refine Area.fld_mono (a := Touch.strapSet) ?_ har; decide)
    | split
    | intro _ _ _
    | intro _ _)

def Touch.loadEnds : Nat := 0x28000480000000000000000000000000000000000000000000000000000000003C038038000032
theorem Keep.loadEnds {reading : Nat}
    (har : Area.sub Touch.loadEnds ar = true) (h : Keep ar s t) : Keep ar s (Machine.State.loadEnds t reading) := by
  unfold Machine.State.loadEnds
  repeat' (with_reducible first
    | assumption
    | (extract_lets +onlyGivenNames x; (apply Keep.cut x); rotate_left; intro _; clear_value x; rotate_right; subst x)
    | (extract_lets +onlyGivenNames x; have hf : RstState := x; clear hf; subst x)
    | (extract_lets +onlyGivenNames x; clear_value x)
    | apply Keep.put
    | apply Keep.otpShow
    | apply Keep.macShow
    | apply Keep.strapSet
    | (refine Area.sub_trans (b := Touch.loadEnds) ?_ har; decide)
    | (refine Area.fld_mono (a := Touch.loadEnds) ?_ har; decide)
    | intro _ _ _
    | intro _ _
    | (refine Keep.rec_rst_pins ?_ rfl ?_; rotate_left; first | assumption | apply Keep.put | apply Keep.otpShow | apply Keep.macShow | apply Keep.strapSet)
    | (refine Keep.rec_rst_pinsH ?_ ?_; rotate_left; first | assumption | apply Keep.put | apply Keep.otpShow | apply Keep.macShow | apply Keep.strapSet))

def Touch.mapsLoad : Nat := 0x280000800000000000000000403800000000000000000000000000000000000000000018000221
theorem Keep.mapsLoad
    (har : Area.sub Touch.mapsLoad ar = true) (h : Keep ar s t) : Keep ar s (Machine.State.mapsLoad t) := by
  unfold Machine.State.mapsLoad
  repeat' (with_reducible first
    | assumption
    | (extract_lets +onlyGivenNames x; (apply Keep.cut x); rotate_left; intro _; clear_value x; rotate_right; subst x)
    | (extract_lets +onlyGivenNames x; clear_value x)
    | apply Keep.ite
    | apply Keep.putI
    | apply Keep.putStaged
    | apply Keep.raiseRec
    | apply Keep.unifReport
    | (refine Area.sub_trans (b := Touch.mapsLoad) ?_ har; decide)
    | (refine Area.fld_mono (a := Touch.mapsLoad) ?_ har; decide)
    | split
    | intro _ _ _
    | intro _ _
    | (refine Keep.rec_pseq ?_ ?_; rotate_left; first | assumption | apply Keep.putI | apply Keep.putStaged | apply Keep.raiseRec | apply Keep.unifReport | apply Keep.ite))

def Touch.regionBoot : Nat := 0x1C0000000000000000000000000000000000000000000000000000000000000000
theorem Keep.regionBoot
    (har : Area.sub Touch.regionBoot ar = true) (h : Keep ar s t) : Keep ar s (Machine.State.regionBoot t) := by
  unfold Machine.State.regionBoot
  repeat' (with_reducible first
    | assumption
    | (extract_lets +onlyGivenNames x; (apply Keep.cut x); rotate_left; intro _; clear_value x; rotate_right; subst x)
    | (extract_lets +onlyGivenNames x; have hf : (∀ z, x z = x z) := fun _ => rfl; clear hf; subst x; try dsimp -zeta only)
    | (extract_lets +onlyGivenNames x; clear_value x)
    | apply Keep.ite
    | apply Keep.regionPut
    | (refine Area.sub_trans (b := Touch.regionBoot) ?_ har; decide)
    | apply Keep.foldl
    | dsimp -zeta only
    | split
    | intro _ _ _
    | intro _ _)

def Touch.trainBoot : Nat := 0x280000800000007181000000000000000000000000000000000000000000000000010018000832
theorem Keep.trainBoot {l : List Sys2Proof.ChanTrain}
    (har : Area.sub Touch.trainBoot ar = true) (h : Keep ar s t) : Keep ar s (Machine.State.trainBoot t l) := by
  unfold Machine.State.trainBoot
  repeat' (with_reducible first
    | assumption
    | (extract_lets +onlyGivenNames x; (apply Keep.cut x); rotate_left; intro _; clear_value x; rotate_right; subst x)
    | (extract_lets +onlyGivenNames x; have hf : (∀ z, x z = x z) := fun _ => rfl; clear hf; subst x; try dsimp -zeta only)
    | (extract_lets +onlyGivenNames x; have hf : RstState := x; clear hf; subst x)
    | (extract_lets +onlyGivenNames x; clear_value x)
    | apply Keep.ite
    | apply Keep.put
    | apply Keep.stageFail
    | apply Keep.chanSet
    | (refine Area.sub_trans (b := Touch.trainBoot) ?_ har; decide)
    | (refine Area.fld_mono (a := Touch.trainBoot) ?_ har; decide)
    | apply Keep.foldl
    | dsimp -zeta only
    | split
    | intro _ _ _
    | intro _ _
    | (refine Keep.rec_rst ?_ rfl ?_; rotate_left; first | assumption | apply Keep.put | apply Keep.stageFail | apply Keep.chanSet | apply Keep.ite | apply Keep.foldl))

def Touch.execDhcpTimeout : Nat := 0x8000000000000000000000000000000000000000000000000000000000000000002000000
theorem Keep.execDhcpTimeout {addr : Nat}
    (har : Area.sub Touch.execDhcpTimeout ar = true) (h : Keep ar s t) : KeepO ar s (Machine.execDhcpTimeout addr t) := by
  unfold Machine.execDhcpTimeout
  repeat' (with_reducible first
    | assumption
    | apply KeepO.next
    | apply KeepO.ite
    | apply Keep.ite
    | apply Keep.setIp
    | (refine Area.sub_trans (b := Touch.execDhcpTimeout) ?_ har; decide)
    | split
    | intro _ _ _
    | intro _ _)

def Touch.execEthBringup : Nat := 0x28004980000000000000000000000000000000000000100000000000000000000001001A080033
theorem Keep.execEthBringup {mode : Option Nat} {links : List Nat} {lease : Option Nat}
    (har : Area.sub Touch.execEthBringup ar = true) (h : Keep ar s t) : KeepO ar s (Machine.execEthBringup mode links lease t) := by
  unfold Machine.execEthBringup
  repeat' (with_reducible first
    | assumption
    | apply KeepO.next
    | apply KeepO.ite
    | (extract_lets +onlyGivenNames x; (first | apply KeepO.cut x | apply Keep.cut x); rotate_left; intro _; clear_value x; rotate_right; subst x)
    | (extract_lets +onlyGivenNames x; have hf : (∀ z, x z = x z) := fun _ => rfl; clear hf; subst x; try dsimp -zeta only)
    | (extract_lets +onlyGivenNames x; have hf : RstState := x; clear hf; subst x)
    | (extract_lets +onlyGivenNames x; clear_value x)
    | apply Keep.ite
    | apply Keep.inputJudge
    | apply Keep.boot
    | apply Keep.putBoth
    | apply Keep.ethUp
    | apply Keep.setIp
    | (refine Area.sub_trans (b := Touch.execEthBringup) ?_ har; decide)
    | (refine Area.fld_mono (a := Touch.execEthBringup) ?_ har; decide)
    | apply Keep.foldl
    | dsimp -zeta only
    | split
    | intro _ _ _
    | intro _ _
    | (refine Keep.rec_rst ?_ rfl ?_; rotate_left; first | assumption | apply Keep.inputJudge | apply Keep.boot | apply Keep.putBoth | apply Keep.ethUp | apply Keep.setIp | apply Keep.ite | apply Keep.foldl))

def Touch.execPanelDescriptorVerified : Nat := 0x280000800000000000000001BE001000000800000000100000000000000000000001001C080233
theorem Keep.execPanelDescriptorVerified {bytes : Option (List Sys2Proof.Byte)} {ports : List Nat}
    (har : Area.sub Touch.execPanelDescriptorVerified ar = true) (h : Keep ar s t) : KeepO ar s (Machine.execPanelDescriptorVerified bytes ports t) := by
  unfold Machine.execPanelDescriptorVerified
  repeat' (with_reducible first
    | assumption
    | apply KeepO.next
    | apply KeepO.ite
    | (extract_lets +onlyGivenNames x; (first | apply KeepO.cut x | apply Keep.cut x); rotate_left; intro _; clear_value x; rotate_right; subst x)
    | (extract_lets +onlyGivenNames x; have hf : (∀ z, x z = x z) := fun _ => rfl; clear hf; subst x; try dsimp -zeta only)
    | (extract_lets +onlyGivenNames x; have hf : RstState := x; clear hf; subst x)
    | (extract_lets +onlyGivenNames x; clear_value x)
    | apply Keep.ite
    | apply Keep.stageFail
    | apply Keep.boot
    | apply Keep.descLoad
    | (refine Area.sub_trans (b := Touch.execPanelDescriptorVerified) ?_ har; decide)
    | dsimp -zeta only
    | split
    | intro _ _ _
    | intro _ _
    | (refine Keep.rec_rst ?_ rfl ?_; rotate_left; first | assumption | apply Keep.stageFail | apply Keep.boot | apply Keep.descLoad | apply Keep.ite))

def Touch.execDramInitDone : Nat := 0x2800008000001C8001000000403800000000000000000000000000000000000000000018400A61
theorem Keep.execDramInitDone {maps : Option (List Sys2Proof.Byte × List Sys2Proof.Byte)}
    (har : Area.sub Touch.execDramInitDone ar = true) (h : Keep ar s t) : KeepO ar s (Machine.execDramInitDone maps t) := by
  unfold Machine.execDramInitDone
  repeat' (with_reducible first
    | assumption
    | apply KeepO.next
    | apply KeepO.ite
    | (extract_lets +onlyGivenNames x; (first | apply KeepO.cut x | apply Keep.cut x); rotate_left; intro _; clear_value x; rotate_right; subst x)
    | (extract_lets +onlyGivenNames x; have hf : (∀ z, x z = x z) := fun _ => rfl; clear hf; subst x; try dsimp -zeta only)
    | (extract_lets +onlyGivenNames x; clear_value x)
    | apply Keep.ite
    | apply Keep.put
    | apply Keep.mapsLoad
    | apply Keep.regionBoot
    | (refine Area.sub_trans (b := Touch.execDramInitDone) ?_ har; decide)
    | (refine Area.fld_mono (a := Touch.execDramInitDone) ?_ har; decide)
    | apply Keep.foldl
    | dsimp -zeta only
    | split
    | intro _ _ _
    | intro _ _
    | (refine Keep.rec_mem_dram ?_ rfl ?_; rotate_left; first | assumption | apply Keep.put | apply Keep.mapsLoad | apply Keep.regionBoot | apply Keep.ite | apply Keep.foldl)
    | (refine Keep.rec_nv_pseq ?_ ?_; rotate_left; first | assumption | apply Keep.put | apply Keep.mapsLoad | apply Keep.regionBoot | apply Keep.ite | apply Keep.foldl))

def Touch.execDramTrainingDone : Nat := 0x2800008000000071810008020000000000000000000000000000000000000000021D4018004BB2
theorem Keep.execDramTrainingDone {l : List Sys2Proof.ChanTrain}
    (har : Area.sub Touch.execDramTrainingDone ar = true) (h : Keep ar s t) : KeepO ar s (Machine.execDramTrainingDone l t) := by
  unfold Machine.execDramTrainingDone
  repeat' (with_reducible first
    | assumption
    | apply KeepO.next
    | apply KeepO.ite
    | (extract_lets +onlyGivenNames x; (first | apply KeepO.cut x | apply Keep.cut x); rotate_left; intro _; clear_value x; rotate_right; subst x)
    | (extract_lets +onlyGivenNames x; have hf : (∀ z, x z = x z) := fun _ => rfl; clear hf; subst x; try dsimp -zeta only)
    | (extract_lets +onlyGivenNames x; clear_value x)
    | apply Keep.ite
    | apply Keep.caretakerSys
    | apply Keep.chanSet
    | apply Keep.trainBoot
    | (refine Area.sub_trans (b := Touch.execDramTrainingDone) ?_ har; decide)
    | apply Keep.foldl
    | dsimp -zeta only
    | split
    | intro _ _ _
    | intro _ _)

def Touch.execPanelRetryTimer : Nat := 0x2
theorem Keep.execPanelRetryTimer
    (har : Area.sub Touch.execPanelRetryTimer ar = true) (h : Keep ar s t) : KeepO ar s (Machine.execPanelRetryTimer t) := by
  unfold Machine.execPanelRetryTimer
  repeat' (with_reducible first
    | assumption
    | apply KeepO.next
    | apply KeepO.ite
    | (extract_lets +onlyGivenNames x; (first | apply KeepO.cut x | apply Keep.cut x); rotate_left; intro _; clear_value x; rotate_right; subst x)
    | (extract_lets +onlyGivenNames x; have hf : RstState := x; clear hf; subst x)
    | (extract_lets +onlyGivenNames x; clear_value x)
    | (refine Area.sub_trans (b := Touch.execPanelRetryTimer) ?_ har; decide)
    | (refine Keep.rec_rst ?_ rfl ?_; rotate_left; first | assumption))

def Touch.execFirmwareVerifyDone : Nat := 0x2A00008000000000010001000000000000000000000000000000000000000017861F001C00C132
theorem Keep.execFirmwareVerifyDone {slot0 : List Sys2Proof.Byte} {slot1 : List Sys2Proof.Byte}
    (har : Area.sub Touch.execFirmwareVerifyDone ar = true) (h : Keep ar s t) : KeepO ar s (Machine.execFirmwareVerifyDone slot0 slot1 t) := by
  unfold Machine.execFirmwareVerifyDone
  repeat' (with_reducible first
    | assumption
    | apply KeepO.next
    | apply KeepO.ite
    | apply Keep.ite
    | apply Keep.flashBoot
    | (refine Area.sub_trans (b := Touch.execFirmwareVerifyDone) ?_ har; decide)
    | split
    | intro _ _ _
    | intro _ _)

def Touch.execBaselineLoad : Nat := 0x2800008000000000000000000000000000000000000000000003007F13000000027D0018407130
theorem Keep.execBaselineLoad {file : List Sys2Proof.Byte} {failed : List Nat}
    (har : Area.sub Touch.execBaselineLoad ar = true) (h : Keep ar s t) : KeepO ar s (Machine.execBaselineLoad file failed t) := by
  unfold Machine.execBaselineLoad
  repeat' (with_reducible first
    | assumption
    | apply KeepO.next
    | apply KeepO.ite
    | (extract_lets +onlyGivenNames x; (first | apply KeepO.cut x | apply Keep.cut x); rotate_left; intro _; clear_value x; rotate_right; subst x)
    | (extract_lets +onlyGivenNames x; have hf : (∀ z, x z = x z) := fun _ => rfl; clear hf; subst x; try dsimp -zeta only)
    | (extract_lets +onlyGivenNames x; clear_value x)
    | apply Keep.ite
    | apply Keep.baseLoad
    | apply Keep.katBoot
    | (refine Area.sub_trans (b := Touch.execBaselineLoad) ?_ har; decide)
    | dsimp -zeta only
    | split
    | intro _ _ _
    | intro _ _)

def Touch.execHostBootTimeout : Nat := 0x2A00008000000000010001000000000000000000000000000000000000000017861F001C00C132
theorem Keep.execHostBootTimeout {slot0 : List Sys2Proof.Byte} {slot1 : List Sys2Proof.Byte}
    (har : Area.sub Touch.execHostBootTimeout ar = true) (h : Keep ar s t) : KeepO ar s (Machine.execHostBootTimeout slot0 slot1 t) := by
  unfold Machine.execHostBootTimeout
  repeat' (with_reducible first
    | assumption
    | apply KeepO.next
    | apply KeepO.ite
    | apply Keep.ite
    | apply Keep.hostFallback
    | (refine Area.sub_trans (b := Touch.execHostBootTimeout) ?_ har; decide)
    | split
    | intro _ _ _
    | intro _ _)

end Sys2Proof
end

