-- ==== Sys2Proof/Laws/KeepCare.lean ====
section
/-!
SUPPORT. The operations and meanings of Machine/Care.lean keep what `Keep` says.
-/

namespace Sys2Proof

open Sys2Proof.Machine

variable {ar : Nat} {s t u : Machine.State}

def Touch.commandTake : Nat := 0x4000
theorem Keep.commandTake
    (har : Area.sub Touch.commandTake ar = true) (h : Keep ar s t) : Keep ar s (Machine.State.commandTake t) := by
  unfold Machine.State.commandTake
  repeat' (with_reducible first
    | assumption
    | (extract_lets +onlyGivenNames x; (apply Keep.cut x); rotate_left; intro _; clear_value x; rotate_right; subst x)
    | (extract_lets +onlyGivenNames x; have hf : (∀ z, x z = x z) := fun _ => rfl; clear hf; subst x; try dsimp -zeta only)
    | (extract_lets +onlyGivenNames x; clear_value x)
    | (refine Area.sub_trans (b := Touch.commandTake) ?_ har; decide)
    | dsimp -zeta only
    | (refine Keep.rec_care ?_ ?_; rotate_left; first | assumption))

def Touch.command : Nat := 0x2800008000000000000000000000000000000000000000000000000000000000027C0018004120
theorem Keep.command {op : Nat} {core : Bool} {dram : Bool} {act : State → Nat → State} (hact : ∀ (z0 : Machine.State) (z1 : Nat), Keep ar s z0 → Keep ar s (act z0 z1))
    (har : Area.sub Touch.command ar = true) (h : Keep ar s t) : Keep ar s (Machine.State.command t op core dram act) := by
  unfold Machine.State.command
  repeat' (with_reducible first
    | assumption
    | apply Keep.ite
    | apply Keep.cmdEnd
    | apply Keep.commandTake
    | apply hact
    | (refine Area.sub_trans (b := Touch.command) ?_ har; decide)
    | split
    | intro _ _ _
    | intro _ _)

def Touch.execCmdHealth : Nat := 0x2800008000000000000000000000000000000000000000000000000000000000027C0018004120
theorem Keep.execCmdHealth
    (har : Area.sub Touch.execCmdHealth ar = true) (h : Keep ar s t) : KeepO ar s (Machine.execCmdHealth t) := by
  unfold Machine.execCmdHealth
  repeat' (with_reducible first
    | assumption
    | apply KeepO.next
    | apply KeepO.ite
    | apply Keep.ite
    | apply Keep.cmdEnd
    | apply Keep.command
    | (refine Area.sub_trans (b := Touch.execCmdHealth) ?_ har; decide)
    | split
    | intro _ _ _
    | intro _ _)

def Touch.execCmdPersLoad : Nat := 0x2800008000000000000000000000000000000000000000000000003DC1000000027C0018005120
theorem Keep.execCmdPersLoad
    (har : Area.sub Touch.execCmdPersLoad ar = true) (h : Keep ar s t) : KeepO ar s (Machine.execCmdPersLoad t) := by
  unfold Machine.execCmdPersLoad
  repeat' (with_reducible first
    | assumption
    | apply KeepO.next
    | apply KeepO.ite
    | (extract_lets +onlyGivenNames x; (first | apply KeepO.cut x | apply Keep.cut x); rotate_left; intro _; clear_value x; rotate_right; subst x)
    | (extract_lets +onlyGivenNames x; have hf : (∀ z, x z = x z) := fun _ => rfl; clear hf; subst x; try dsimp -zeta only)
    | (extract_lets +onlyGivenNames x; clear_value x)
    | apply Keep.ite
    | apply Keep.put
    | apply Keep.cmdEnd
    | apply Keep.slotRefuse
    | apply Keep.slotLoad
    | apply Keep.command
    | (refine Area.sub_trans (b := Touch.execCmdPersLoad) ?_ har; decide)
    | (refine Area.fld_mono (a := Touch.execCmdPersLoad) ?_ har; decide)
    | dsimp -zeta only
    | split
    | intro _ _ _
    | intro _ _)

def Touch.execCmdTephraExport : Nat := 0x2800008000000000000000000000000000000000000000000000000000000000027C0018504120
theorem Keep.execCmdTephraExport
    (har : Area.sub Touch.execCmdTephraExport ar = true) (h : Keep ar s t) : KeepO ar s (Machine.execCmdTephraExport t) := by
  unfold Machine.execCmdTephraExport
  repeat' (with_reducible first
    | assumption
    | apply KeepO.next
    | apply KeepO.ite
    | (extract_lets +onlyGivenNames x; (first | apply KeepO.cut x | apply Keep.cut x); rotate_left; intro _; clear_value x; rotate_right; subst x)
    | (extract_lets +onlyGivenNames x; have hf : (∀ z, x z = x z) := fun _ => rfl; clear hf; subst x; try dsimp -zeta only)
    | (extract_lets +onlyGivenNames x; clear_value x)
    | apply Keep.ite
    | apply Keep.cmdEnd
    | apply Keep.innerJob
    | apply Keep.writeBytes
    | apply Keep.command
    | (refine Area.sub_trans (b := Touch.execCmdTephraExport) ?_ har; decide)
    | dsimp -zeta only
    | split
    | intro _ _ _
    | intro _ _)

def Touch.execCmdDebugChallenge : Nat := 0x2800008000000000000000000000000000000000000000000000000000000000067C001C404120
theorem Keep.execCmdDebugChallenge
    (har : Area.sub Touch.execCmdDebugChallenge ar = true) (h : Keep ar s t) : KeepO ar s (Machine.execCmdDebugChallenge t) := by
  unfold Machine.execCmdDebugChallenge
  repeat' (with_reducible first
    | assumption
    | (extract_lets +onlyGivenNames x; (first | apply KeepO.cut x | apply Keep.cut x); rotate_left; intro _; clear_value x; rotate_right; subst x)
    | (extract_lets +onlyGivenNames x; refine KeepFst.cut (m := ar) (s := s) x ?_ (fun hx => ?_); rotate_left; clear_value x; obtain ⟨x, y⟩ := x; dsimp -zeta only at hx ⊢; rotate_right; subst x)
    | (extract_lets +onlyGivenNames x; have hf : (∀ z, x z = x z) := fun _ => rfl; clear hf; subst x; try dsimp -zeta only)
    | (extract_lets +onlyGivenNames x; clear_value x)
    | apply KeepO.ite
    | apply Keep.ite
    | split
    | apply KeepO.next
    | apply KeepFst.mk
    | apply KeepFst.ite
    | apply Keep.cmdEnd
    | apply Keep.challengeIssue
    | apply Keep.command
    | (refine KeepFst.of_eq ?_ (by assumption); first | apply Keep.challengeIssue | apply KeepFst.ite)
    | (apply KeepFst.fst; first | apply Keep.challengeIssue)
    | (refine Area.sub_trans (b := Touch.execCmdDebugChallenge) ?_ har; decide)
    | dsimp -zeta only
    | intro _ _ _
    | intro _ _)

def Touch.execCmdCalibrate : Nat := 0x2800008000000000000000000000000000000000000000000000000000001000027C0018014320
theorem Keep.execCmdCalibrate
    (har : Area.sub Touch.execCmdCalibrate ar = true) (h : Keep ar s t) : KeepO ar s (Machine.execCmdCalibrate t) := by
  unfold Machine.execCmdCalibrate
  repeat' (with_reducible first
    | assumption
    | apply KeepO.next
    | apply KeepO.ite
    | (extract_lets +onlyGivenNames x; (first | apply KeepO.cut x | apply Keep.cut x); rotate_left; intro _; clear_value x; rotate_right; subst x)
    | (extract_lets +onlyGivenNames x; have hf : (∀ z, x z = x z) := fun _ => rfl; clear hf; subst x; try dsimp -zeta only)
    | (extract_lets +onlyGivenNames x; clear_value x)
    | apply Keep.ite
    | apply Keep.cmdEnd
    | apply Keep.calRequest
    | apply Keep.command
    | (refine Area.sub_trans (b := Touch.execCmdCalibrate) ?_ har; decide)
    | dsimp -zeta only
    | split
    | intro _ _ _
    | intro _ _
    | (refine Keep.rec_thm ?_ ?_; rotate_left; first | assumption | apply Keep.cmdEnd | apply Keep.calRequest | apply Keep.command | apply Keep.ite))

def Touch.execCmdKeyEnroll : Nat := 0x2800008000000000000000000000000000000000000000000000003F130000003E7C001800D120
theorem Keep.execCmdKeyEnroll
    (har : Area.sub Touch.execCmdKeyEnroll ar = true) (h : Keep ar s t) : KeepO ar s (Machine.execCmdKeyEnroll t) := by
  unfold Machine.execCmdKeyEnroll
  repeat' (with_reducible first
    | assumption
    | (extract_lets +onlyGivenNames x; (first | apply KeepO.cut x | apply Keep.cut x); rotate_left; intro _; clear_value x; rotate_right; subst x)
    | (extract_lets +onlyGivenNames x; refine KeepFst.cut (m := ar) (s := s) x ?_ (fun hx => ?_); rotate_left; clear_value x; obtain ⟨x, y⟩ := x; dsimp -zeta only at hx ⊢; rotate_right; subst x)
    | (extract_lets +onlyGivenNames x; have hf : (∀ z, x z = x z) := fun _ => rfl; clear hf; subst x; try dsimp -zeta only)
    | (extract_lets +onlyGivenNames x; clear_value x)
    | apply KeepO.ite
    | apply Keep.ite
    | split
    | apply KeepO.next
    | apply KeepFst.mk
    | apply KeepFst.ite
    | apply Keep.cmdEnd
    | apply Keep.command
    | apply Keep.enroll
    | (refine KeepFst.of_eq ?_ (by assumption); first | apply Keep.enroll | apply KeepFst.ite)
    | (apply KeepFst.fst; first | apply Keep.enroll)
    | (refine Area.sub_trans (b := Touch.execCmdKeyEnroll) ?_ har; decide)
    | dsimp -zeta only
    | intro _ _ _
    | intro _ _)

def Touch.execCmdKeyLoad : Nat := 0x2800008000000000000000000000000000000000003000000000000000000000027C001C084120
theorem Keep.execCmdKeyLoad
    (har : Area.sub Touch.execCmdKeyLoad ar = true) (h : Keep ar s t) : KeepO ar s (Machine.execCmdKeyLoad t) := by
  unfold Machine.execCmdKeyLoad
  repeat' (with_reducible first
    | assumption
    | (extract_lets +onlyGivenNames x; (first | apply KeepO.cut x | apply Keep.cut x); rotate_left; intro _; clear_value x; rotate_right; subst x)
    | (extract_lets +onlyGivenNames x; refine KeepFst.cut (m := ar) (s := s) x ?_ (fun hx => ?_); rotate_left; clear_value x; obtain ⟨x, y⟩ := x; dsimp -zeta only at hx ⊢; rotate_right; subst x)
    | (extract_lets +onlyGivenNames x; have hf : (∀ z, x z = x z) := fun _ => rfl; clear hf; subst x; try dsimp -zeta only)
    | (extract_lets +onlyGivenNames x; clear_value x)
    | apply KeepO.ite
    | apply Keep.ite
    | split
    | apply KeepO.next
    | apply KeepFst.mk
    | apply KeepFst.ite
    | apply Keep.cmdEnd
    | apply Keep.command
    | apply Keep.keyLoad
    | (refine KeepFst.of_eq ?_ (by assumption); first | apply Keep.keyLoad | apply KeepFst.ite)
    | (apply KeepFst.fst; first | apply Keep.keyLoad)
    | (refine Area.sub_trans (b := Touch.execCmdKeyLoad) ?_ har; decide)
    | dsimp -zeta only
    | intro _ _ _
    | intro _ _)

def Touch.execCmdRestart : Nat := 0x2800008000000000000008020000000000000000000000000000000000000020027C40180043A2
theorem Keep.execCmdRestart
    (har : Area.sub Touch.execCmdRestart ar = true) (h : Keep ar s t) : KeepO ar s (Machine.execCmdRestart t) := by
  unfold Machine.execCmdRestart
  repeat' (with_reducible first
    | assumption
    | apply KeepO.next
    | apply KeepO.ite
    | apply Keep.ite
    | apply Keep.cmdEnd
    | apply Keep.command
    | apply Keep.thermalRestart
    | (refine Area.sub_trans (b := Touch.execCmdRestart) ?_ har; decide)
    | split
    | intro _ _ _
    | intro _ _)

def Touch.execCmdBoot : Nat := 0x2A00008000000000010001000000000000000000000000000000000000000017867F001C00C132
theorem Keep.execCmdBoot {slot0 : List Sys2Proof.Byte} {slot1 : List Sys2Proof.Byte}
    (har : Area.sub Touch.execCmdBoot ar = true) (h : Keep ar s t) : KeepO ar s (Machine.execCmdBoot slot0 slot1 t) := by
  unfold Machine.execCmdBoot
  repeat' (with_reducible first
    | assumption
    | apply KeepO.next
    | apply KeepO.ite
    | (extract_lets +onlyGivenNames x; (first | apply KeepO.cut x | apply Keep.cut x); rotate_left; intro _; clear_value x; rotate_right; subst x)
    | (extract_lets +onlyGivenNames x; have hf : (∀ z, x z = x z) := fun _ => rfl; clear hf; subst x; try dsimp -zeta only)
    | (extract_lets +onlyGivenNames x; clear_value x)
    | apply Keep.ite
    | apply Keep.cmdEnd
    | apply Keep.commandTake
    | apply Keep.command
    | apply Keep.fwRun
    | apply Keep.hostFallback
    | (refine Area.sub_trans (b := Touch.execCmdBoot) ?_ har; decide)
    | dsimp -zeta only
    | split
    | intro _ _ _
    | intro _ _)

def Touch.execCmdAttest : Nat := 0x2800008000000000000000000000000000000000000000000000000000000016067C001840C120
theorem Keep.execCmdAttest
    (har : Area.sub Touch.execCmdAttest ar = true) (h : Keep ar s t) : KeepO ar s (Machine.execCmdAttest t) := by
  unfold Machine.execCmdAttest
  repeat' (with_reducible first
    | assumption
    | (extract_lets +onlyGivenNames x; (first | apply KeepO.cut x | apply Keep.cut x); rotate_left; intro _; clear_value x; rotate_right; subst x)
    | (extract_lets +onlyGivenNames x; refine KeepFst.cut (m := ar) (s := s) x ?_ (fun hx => ?_); rotate_left; clear_value x; obtain ⟨x, y⟩ := x; dsimp -zeta only at hx ⊢; rotate_right; subst x)
    | (extract_lets +onlyGivenNames x; have hf : (∀ z, x z = x z) := fun _ => rfl; clear hf; subst x; try dsimp -zeta only)
    | (extract_lets +onlyGivenNames x; clear_value x)
    | apply KeepO.ite
    | apply Keep.ite
    | split
    | apply KeepO.next
    | apply KeepFst.mk
    | apply KeepFst.ite
    | apply Keep.cmdEnd
    | apply Keep.attest
    | apply Keep.command
    | (refine KeepFst.of_eq ?_ (by assumption); first | apply Keep.attest | apply KeepFst.ite)
    | (apply KeepFst.fst; first | apply Keep.attest)
    | (refine Area.sub_trans (b := Touch.execCmdAttest) ?_ har; decide)
    | dsimp -zeta only
    | intro _ _ _
    | intro _ _)

def Touch.execCmdRole : Nat := 0x2800008000800000000000000000000000000000000000000000000000000000027C0018004120
theorem Keep.execCmdRole
    (har : Area.sub Touch.execCmdRole ar = true) (h : Keep ar s t) : KeepO ar s (Machine.execCmdRole t) := by
  unfold Machine.execCmdRole
  repeat' (with_reducible first
    | assumption
    | (extract_lets +onlyGivenNames x; (first | apply KeepO.cut x | apply Keep.cut x); rotate_left; intro _; clear_value x; rotate_right; subst x)
    | (extract_lets +onlyGivenNames x; refine KeepFst.cut (m := ar) (s := s) x ?_ (fun hx => ?_); rotate_left; clear_value x; obtain ⟨x, y⟩ := x; dsimp -zeta only at hx ⊢; rotate_right; subst x)
    | (extract_lets +onlyGivenNames x; have hf : (∀ z, x z = x z) := fun _ => rfl; clear hf; subst x; try dsimp -zeta only)
    | (extract_lets +onlyGivenNames x; clear_value x)
    | apply KeepO.ite
    | apply Keep.ite
    | split
    | apply KeepO.next
    | apply KeepFst.mk
    | apply KeepFst.ite
    | apply Keep.cmdEnd
    | apply Keep.handOver
    | apply Keep.command
    | (refine KeepFst.of_eq ?_ (by assumption); first | apply Keep.handOver | apply KeepFst.ite)
    | (apply KeepFst.fst; first | apply Keep.handOver)
    | (refine Area.sub_trans (b := Touch.execCmdRole) ?_ har; decide)
    | dsimp -zeta only
    | intro _ _ _
    | intro _ _)

def Touch.execCmdPersActivate : Nat := 0x2800008000300000000000000000000000000000000000000000000113000000027C0018005120
theorem Keep.execCmdPersActivate
    (har : Area.sub Touch.execCmdPersActivate ar = true) (h : Keep ar s t) : KeepO ar s (Machine.execCmdPersActivate t) := by
  unfold Machine.execCmdPersActivate
  repeat' (with_reducible first
    | assumption
    | apply KeepO.next
    | apply KeepO.ite
    | (extract_lets +onlyGivenNames x; (first | apply KeepO.cut x | apply Keep.cut x); rotate_left; intro _; clear_value x; rotate_right; subst x)
    | (extract_lets +onlyGivenNames x; have hf : (∀ z, x z = x z) := fun _ => rfl; clear hf; subst x; try dsimp -zeta only)
    | (extract_lets +onlyGivenNames x; clear_value x)
    | apply Keep.ite
    | apply Keep.sendPair
    | apply Keep.cmdEnd
    | apply Keep.setPend
    | apply Keep.actDropped
    | apply Keep.mirrorDrop
    | apply Keep.actBy
    | apply Keep.command
    | (refine Area.sub_trans (b := Touch.execCmdPersActivate) ?_ har; decide)
    | dsimp -zeta only
    | split
    | intro _ _ _
    | intro _ _)

def Touch.execCmdUnknown : Nat := 0x2800008000000000000000000000000000000000000000000000000000000000027C0018004120
theorem Keep.execCmdUnknown {m : Nat}
    (har : Area.sub Touch.execCmdUnknown ar = true) (h : Keep ar s t) : KeepO ar s (Machine.execCmdUnknown m t) := by
  unfold Machine.execCmdUnknown
  repeat' (with_reducible first
    | assumption
    | apply KeepO.next
    | apply KeepO.ite
    | (extract_lets +onlyGivenNames x; (first | apply KeepO.cut x | apply Keep.cut x); rotate_left; intro _; clear_value x; rotate_right; subst x)
    | (extract_lets +onlyGivenNames x; have hf : (∀ z, x z = x z) := fun _ => rfl; clear hf; subst x; try dsimp -zeta only)
    | (extract_lets +onlyGivenNames x; clear_value x)
    | apply Keep.ite
    | apply Keep.mbxDone
    | apply Keep.cmdEnd
    | apply Keep.command
    | (refine Area.sub_trans (b := Touch.execCmdUnknown) ?_ har; decide)
    | dsimp -zeta only
    | split
    | intro _ _ _
    | intro _ _)

end Sys2Proof
end

