-- ==== Sys2Proof/Laws/KeepFlags.lean ====
section
/-!
SUPPORT. The operations and meanings of Machine/Flags.lean keep what `Keep` says.
-/

namespace Sys2Proof

open Sys2Proof.Machine

variable {ar : Nat} {s t u : Machine.State}

def Touch.irqAfterWrite : Nat := 0x800000000000000000000000000000000000000000000000000000000000000010000000
theorem Keep.irqAfterWrite {before : Machine.State} {off : Nat}
    (har : Area.sub Touch.irqAfterWrite ar = true) (h : Keep ar s t) : Keep ar s (Machine.State.irqAfterWrite t before off) := by
  unfold Machine.State.irqAfterWrite
  repeat' (with_reducible first
    | assumption
    | (extract_lets +onlyGivenNames x; (apply Keep.cut x); rotate_left; intro _; clear_value x; rotate_right; subst x)
    | (extract_lets +onlyGivenNames x; clear_value x)
    | apply Keep.ite
    | apply Keep.msixSend
    | apply Keep.irqEdge
    | (refine Area.sub_trans (b := Touch.irqAfterWrite) ?_ har; decide)
    | split
    | intro _ _ _
    | intro _ _)

def Touch.plainWrite : Nat := 0x800000000000000000000000000000000000000000000000000000000000000050000001
theorem Keep.plainWrite {i : RegInfo} {off : Nat} {data : Sys2Proof.Word}
    (har : Area.sub Touch.plainWrite ar = true) (h : Keep ar s t) : Keep ar s (Machine.State.plainWrite t i off data) := by
  unfold Machine.State.plainWrite
  repeat' (with_reducible first
    | assumption
    | (extract_lets +onlyGivenNames x; (apply Keep.cut x); rotate_left; intro _; clear_value x; rotate_right; subst x)
    | (extract_lets +onlyGivenNames x; clear_value x)
    | apply Keep.ite
    | apply Keep.setWord
    | apply Keep.setStagedWord
    | apply Keep.irqAfterWrite
    | (refine Area.sub_trans (b := Touch.plainWrite) ?_ har; decide)
    | (refine Area.word_any (Area.bit_of_sub har 30 ?_); decide)
    | split
    | intro _ _ _
    | intro _ _)

end Sys2Proof
end

