-- ==== Sys2Proof/Laws/KeepAccess.lean ====
section
/-!
SUPPORT. The operations and meanings of Machine/Access.lean keep what `Keep` says.
-/

namespace Sys2Proof

open Sys2Proof.Machine

variable {ar : Nat} {s t u : Machine.State}

def Touch.respond : Nat := 0x4
theorem Keep.respond {x : BusResp}
    (har : Area.sub Touch.respond ar = true) (h : Keep ar s t) : Keep ar s (Machine.State.respond t x) := by
  unfold Machine.State.respond
  repeat' (with_reducible first
    | assumption
    | (extract_lets +onlyGivenNames x; (apply Keep.cut x); rotate_left; intro _; clear_value x; rotate_right; subst x)
    | (extract_lets +onlyGivenNames x; clear_value x)
    | (refine Area.sub_trans (b := Touch.respond) ?_ har; decide)
    | (refine Keep.rec_bus ?_ ?_; rotate_left; first | assumption))

def Touch.busError : Nat := 0x280000800000000000000000000000000000000000000000000000000000000000003C10000024
theorem Keep.busError {r : Sys2Proof.Req} {write : Bool} {off : Nat} {kind : Nat}
    (har : Area.sub Touch.busError ar = true) (h : Keep ar s t) : Keep ar s (Machine.State.busError t r write off kind) := by
  unfold Machine.State.busError
  repeat' (with_reducible first
    | assumption
    | (extract_lets +onlyGivenNames x; (apply Keep.cut x); rotate_left; intro _; clear_value x; rotate_right; subst x)
    | (extract_lets +onlyGivenNames x; clear_value x)
    | apply Keep.ite
    | apply Keep.put
    | apply Keep.putB
    | apply Keep.bump
    | apply Keep.raise
    | apply Keep.offer
    | apply Keep.respond
    | (refine Area.sub_trans (b := Touch.busError) ?_ har; decide)
    | (refine Area.fld_mono (a := Touch.busError) ?_ har; decide)
    | split
    | intro _ _ _
    | intro _ _)

def Touch.setShadow : Nat := 0x4
theorem Keep.setShadow {r : Sys2Proof.Req} {x : Option Shadow}
    (har : Area.sub Touch.setShadow ar = true) (h : Keep ar s t) : Keep ar s (Machine.State.setShadow t r x) := by
  unfold Machine.State.setShadow
  repeat' (with_reducible first
    | assumption
    | (extract_lets +onlyGivenNames x; (apply Keep.cut x); rotate_left; intro _; clear_value x; rotate_right; subst x)
    | (extract_lets +onlyGivenNames x; clear_value x)
    | (refine Area.sub_trans (b := Touch.setShadow) ?_ har; decide)
    | split
    | (refine Keep.rec_bus ?_ ?_; rotate_left; first | assumption))

def Touch.readWord : Nat := 0x4
theorem Keep.readWord {r : Sys2Proof.Req} {off : Nat}
    (har : Area.sub Touch.readWord ar = true) (h : Keep ar s t) : KeepFst ar s (Machine.State.readWord t r off) := by
  unfold Machine.State.readWord
  repeat' (with_reducible first
    | assumption
    | apply KeepFst.mk
    | apply KeepFst.ite
    | (extract_lets +onlyGivenNames x; (first | apply KeepFst.cut1 x | apply Keep.cut x); rotate_left; intro _; clear_value x; rotate_right; subst x)
    | (extract_lets +onlyGivenNames x; clear_value x)
    | apply Keep.ite
    | apply Keep.setShadow
    | (refine Area.sub_trans (b := Touch.readWord) ?_ har; decide)
    | split
    | intro _ _ _
    | intro _ _)

def Touch.readNow : Nat := 0x280000800000000000000000000000000000000000000000000000000000000000003C10000024
theorem Keep.readNow {r : Sys2Proof.Req} {off : Nat} {width : Nat}
    (har : Area.sub Touch.readNow ar = true) (h : Keep ar s t) : Keep ar s (Machine.State.readNow t r off width) := by
  unfold Machine.State.readNow
  repeat' (with_reducible first
    | assumption
    | (extract_lets +onlyGivenNames x; (apply Keep.cut x); rotate_left; intro _; clear_value x; rotate_right; subst x)
    | (extract_lets +onlyGivenNames x; refine KeepFst.cut (m := ar) (s := s) x ?_ (fun hx => ?_); rotate_left; clear_value x; obtain ⟨x, y⟩ := x; dsimp -zeta only at hx ⊢; rotate_right; subst x)
    | (extract_lets +onlyGivenNames x; clear_value x)
    | apply Keep.ite
    | split
    | apply KeepFst.mk
    | apply KeepFst.ite
    | apply Keep.respond
    | apply Keep.busError
    | apply Keep.readWord
    | (refine KeepFst.of_eq ?_ (by assumption); first | apply Keep.readWord | apply KeepFst.ite)
    | (apply KeepFst.fst; first | apply Keep.readWord)
    | (refine Area.sub_trans (b := Touch.readNow) ?_ har; decide)
    | intro _ _ _
    | intro _ _)

def Touch.busRead : Nat := 0x280000800000000000000000000000000000000000000000000000000000000000003C10020024
theorem Keep.busRead {r : Sys2Proof.Req} {off : Nat} {width : Nat}
    (har : Area.sub Touch.busRead ar = true) (h : Keep ar s t) : Keep ar s (Machine.State.busRead t r off width) := by
  unfold Machine.State.busRead
  repeat' (with_reducible first
    | assumption
    | (extract_lets +onlyGivenNames x; (apply Keep.cut x); rotate_left; intro _; clear_value x; rotate_right; subst x)
    | (extract_lets +onlyGivenNames x; clear_value x)
    | apply Keep.ite
    | apply Keep.respond
    | apply Keep.readNow
    | apply Keep.hostWaits
    | (refine Area.sub_trans (b := Touch.busRead) ?_ har; decide)
    | split
    | intro _ _ _
    | intro _ _)

def Touch.setHold : Nat := 0x4
theorem Keep.setHold {r : Sys2Proof.Req} {x : Option Shadow}
    (har : Area.sub Touch.setHold ar = true) (h : Keep ar s t) : Keep ar s (Machine.State.setHold t r x) := by
  unfold Machine.State.setHold
  repeat' (with_reducible first
    | assumption
    | (extract_lets +onlyGivenNames x; (apply Keep.cut x); rotate_left; intro _; clear_value x; rotate_right; subst x)
    | (extract_lets +onlyGivenNames x; clear_value x)
    | (refine Area.sub_trans (b := Touch.setHold) ?_ har; decide)
    | split
    | (refine Keep.rec_bus ?_ ?_; rotate_left; first | assumption))

def Touch.commitHi : Nat := 0x280000800000000000000000000000000900000000000000000000000000000000000058020025
theorem Keep.commitHi {r : Sys2Proof.Req} {info : RegInfo} {off : Nat} {i : Nat} {data : Sys2Proof.Word}
    (har : Area.sub Touch.commitHi ar = true) (h : Keep ar s t) : Keep ar s (Machine.State.commitHi t r info off i data) := by
  unfold Machine.State.commitHi
  repeat' (with_reducible first
    | assumption
    | (extract_lets +onlyGivenNames x; (apply Keep.cut x); rotate_left; intro _; clear_value x; rotate_right; subst x)
    | (extract_lets +onlyGivenNames x; clear_value x)
    | apply Keep.ite
    | apply Keep.bindBase
    | apply Keep.bufFail
    | apply Keep.plainWrite
    | apply Keep.setHold
    | (refine Area.sub_trans (b := Touch.commitHi) ?_ har; decide)
    | split
    | intro _ _ _
    | intro _ _)

def Touch.writeHalf : Nat := 0x280000800030000000000000000000000900000000000000000000000000000000000058020125
theorem Keep.writeHalf {r : Sys2Proof.Req} {info : RegInfo} {off : Nat} {i : Nat} {data : Sys2Proof.Word}
    (har : Area.sub Touch.writeHalf ar = true) (h : Keep ar s t) : Keep ar s (Machine.State.writeHalf t r info off i data) := by
  unfold Machine.State.writeHalf
  repeat' (with_reducible first
    | assumption
    | (extract_lets +onlyGivenNames x; (apply Keep.cut x); rotate_left; intro _; clear_value x; rotate_right; subst x)
    | (extract_lets +onlyGivenNames x; clear_value x)
    | apply Keep.ite
    | apply Keep.sendPair
    | apply Keep.mirrorDrop
    | apply Keep.setHold
    | apply Keep.commitHi
    | (refine Area.sub_trans (b := Touch.writeHalf) ?_ har; decide)
    | split
    | intro _ _ _
    | intro _ _)

def Touch.onBit : Nat := 0x0
theorem Keep.onBit {data : Nat} {k : Nat} {f : State → State} (hf : ∀ (z0 : Machine.State), Keep ar s z0 → Keep ar s (f z0))
    (har : Area.sub Touch.onBit ar = true) (h : Keep ar s t) : Keep ar s (Machine.onBit data k f t) := by
  unfold Machine.onBit
  repeat' (with_reducible first
    | assumption
    | apply Keep.ite
    | apply hf
    | split
    | intro _ _ _
    | intro _ _)

def Touch.after : Nat := 0x0
theorem Keep.after {o : Out} (ho : KeepO ar s o)
    (har : Area.sub Touch.after ar = true) (h : Keep ar s t) : Keep ar s (Machine.after o t) := by
  unfold Machine.after
  split
  · exact ho _ rfl
  · exact h

def Touch.writeLane : Nat := 0x280000800000000000CC1000000000000000000000000000000000000000000000000050000421
theorem Keep.writeLane {r : Sys2Proof.Req} {info : RegInfo} {off : Nat} {data : Nat}
    (har : Area.sub Touch.writeLane ar = true) (h : Keep ar s t) : KeepSome ar s (Machine.State.writeLane t r info off data) := by
  unfold Machine.State.writeLane
  repeat' (with_reducible first
    | assumption
    | apply KeepSome.some
    | exact KeepSome.none
    | apply KeepSome.ite
    | (extract_lets +onlyGivenNames x; (first | apply KeepSome.cut1 x | apply Keep.cut x); rotate_left; intro _; clear_value x; rotate_right; subst x)
    | (extract_lets +onlyGivenNames x; have hf : (∀ z, x z = x z) := fun _ => rfl; clear hf; subst x; try dsimp -zeta only)
    | (extract_lets +onlyGivenNames x; clear_value x)
    | apply Keep.ite
    | apply Keep.ignored
    | apply Keep.plainWrite
    | apply Keep.execLaneRetrain
    | apply Keep.onBit
    | apply Keep.execLaneTest
    | apply Keep.execLaneLoopWrite
    | apply Keep.prbsWrite
    | apply Keep.execInjectOne
    | apply Keep.after
    | apply Keep.execInjectRate
    | apply Keep.execLaneTestExit
    | (refine Area.sub_trans (b := Touch.writeLane) ?_ har; decide)
    | dsimp -zeta only
    | split
    | intro _ _ _
    | intro _ _)

def Touch.writeFab : Nat := 0x280000800000000000000000000000000000000000000000001EAFC117000000027C4018007132
theorem Keep.writeFab {r : Sys2Proof.Req} {base : Nat} {i : Nat} {data : Nat}
    (har : Area.sub Touch.writeFab ar = true) (h : Keep ar s t) : KeepSome ar s (Machine.State.writeFab t r base i data) := by
  unfold Machine.State.writeFab
  repeat' (with_reducible first
    | assumption
    | apply KeepSome.some
    | exact KeepSome.none
    | apply KeepSome.ite
    | apply Keep.ite
    | apply Keep.ignored
    | apply Keep.onBit
    | apply Keep.after
    | apply Keep.execTileInject
    | apply Keep.execTileCtrlKat
    | apply Keep.execTileCtrlMigrate
    | (refine Area.sub_trans (b := Touch.writeFab) ?_ har; decide)
    | split
    | intro _ _ _
    | intro _ _)

def Touch.writeMem : Nat := 0x2800008000001F0005000000000000000000000000000000000000000000000000000010000820
theorem Keep.writeMem {r : Sys2Proof.Req} {info : RegInfo} {off : Nat} {i : Nat} {data : Nat}
    (har : Area.sub Touch.writeMem ar = true) (h : Keep ar s t) : KeepSome ar s (Machine.State.writeMem t r info off i data) := by
  unfold Machine.State.writeMem
  repeat' (with_reducible first
    | assumption
    | apply KeepSome.some
    | exact KeepSome.none
    | apply KeepSome.ite
    | apply Keep.ite
    | apply Keep.put
    | apply Keep.ignored
    | apply Keep.after
    | apply Keep.execRegionWrite
    | apply Keep.execMemUnfreeze
    | apply Keep.freqRequest
    | (refine Area.sub_trans (b := Touch.writeMem) ?_ har; decide)
    | (refine Area.fld_mono (a := Touch.writeMem) ?_ har; decide)
    | split
    | intro _ _ _
    | intro _ _)

def Touch.writeCtl : Nat := 0x2800008000300000000008020000000003000000000000000000000000000000000063100003AA
theorem Keep.writeCtl {r : Sys2Proof.Req} {base : Nat} {data : Nat}
    (har : Area.sub Touch.writeCtl ar = true) (h : Keep ar s t) : KeepSome ar s (Machine.State.writeCtl t r base data) := by
  unfold Machine.State.writeCtl
  repeat' (with_reducible first
    | assumption
    | apply KeepSome.some
    | exact KeepSome.none
    | apply KeepSome.ite
    | (extract_lets +onlyGivenNames x; (first | apply KeepSome.cut1 x | apply Keep.cut x); rotate_left; intro _; clear_value x; rotate_right; subst x)
    | (extract_lets +onlyGivenNames x; have hf : (∀ z, x z = x z) := fun _ => rfl; clear hf; subst x; try dsimp -zeta only)
    | (extract_lets +onlyGivenNames x; clear_value x)
    | apply Keep.ite
    | apply Keep.coreSource
    | apply Keep.sysSource
    | apply Keep.keyed
    | apply Keep.updateBy
    | (refine Area.sub_trans (b := Touch.writeCtl) ?_ har; decide)
    | (refine Area.fld_mono (a := Touch.writeCtl) ?_ har; decide)
    | dsimp -zeta only
    | split
    | intro _ _ _
    | intro _ _)

def Touch.writePers : Nat := 0x2800008000300000000000000000000000000000000000000000003F13000000027C0018005120
theorem Keep.writePers {r : Sys2Proof.Req} {base : Nat} {i : Nat} {data : Nat}
    (har : Area.sub Touch.writePers ar = true) (h : Keep ar s t) : KeepSome ar s (Machine.State.writePers t r base i data) := by
  unfold Machine.State.writePers
  repeat' (with_reducible first
    | assumption
    | apply KeepSome.some
    | exact KeepSome.none
    | apply KeepSome.ite
    | (extract_lets +onlyGivenNames x; (first | apply KeepSome.cut1 x | apply Keep.cut x); rotate_left; intro _; clear_value x; rotate_right; subst x)
    | (extract_lets +onlyGivenNames x; clear_value x)
    | apply Keep.ite
    | apply Keep.actBy
    | apply Keep.after
    | apply Keep.execPersSlotPreload
    | apply Keep.execPersActCancel
    | apply Keep.execPersSlotEvict
    | apply Keep.execPersSlotLoad
    | (refine Area.sub_trans (b := Touch.writePers) ?_ har; decide)
    | split
    | intro _ _ _
    | intro _ _)

def Touch.writeComp : Nat := 0x280000800030000000000000000000000B80180000000000000000000000000000000058020121
theorem Keep.writeComp {r : Sys2Proof.Req} {info : RegInfo} {off : Nat} {i : Nat} {data : Nat}
    (har : Area.sub Touch.writeComp ar = true) (h : Keep ar s t) : KeepSome ar s (Machine.State.writeComp t r info off i data) := by
  unfold Machine.State.writeComp
  repeat' (with_reducible first
    | assumption
    | apply KeepSome.some
    | exact KeepSome.none
    | apply KeepSome.ite
    | apply Keep.ite
    | apply Keep.bufStates
    | apply Keep.bufFail
    | apply Keep.bufFmt
    | apply Keep.plainWrite
    | apply Keep.mirrored
    | apply Keep.sigCtrl
    | apply Keep.safeCtrl
    | apply Keep.calIndexWrite
    | (refine Area.sub_trans (b := Touch.writeComp) ?_ har; decide)
    | split
    | intro _ _ _
    | intro _ _)

def Touch.writeRing : Nat := 0x28000080000000000000000000000BD00300007FE80A8000000000000000000000000018720020
theorem Keep.writeRing {r : Sys2Proof.Req} {base : Nat} {i : Nat} {data : Nat}
    (har : Area.sub Touch.writeRing ar = true) (h : Keep ar s t) : KeepSome ar s (Machine.State.writeRing t r base i data) := by
  unfold Machine.State.writeRing
  repeat' (with_reducible first
    | assumption
    | apply KeepSome.some
    | exact KeepSome.none
    | apply KeepSome.ite
    | apply Keep.ite
    | apply Keep.bltCtrl
    | apply Keep.bltHead
    | apply Keep.bltRingCtrl
    | apply Keep.dmaHead
    | apply Keep.wmCfg
    | apply Keep.lzcEngCtrl
    | apply Keep.dmaCtrl
    | apply Keep.lzcHead
    | apply Keep.lzcCtrl
    | (refine Area.sub_trans (b := Touch.writeRing) ?_ har; decide)
    | split
    | intro _ _ _
    | intro _ _)

def Touch.writeView : Nat := 0x280000800030000000000000000000000000000000000000140000000000000000000050000121
theorem Keep.writeView {r : Sys2Proof.Req} {info : RegInfo} {off : Nat} {data : Nat}
    (har : Area.sub Touch.writeView ar = true) (h : Keep ar s t) : KeepSome ar s (Machine.State.writeView t r info off data) := by
  unfold Machine.State.writeView
  repeat' (with_reducible first
    | assumption
    | apply KeepSome.some
    | exact KeepSome.none
    | apply KeepSome.ite
    | (extract_lets +onlyGivenNames x; (first | apply KeepSome.cut1 x | apply Keep.cut x); rotate_left; intro _; clear_value x; rotate_right; subst x)
    | (extract_lets +onlyGivenNames x; have hf : (∀ z, x z = x z) := fun _ => rfl; clear hf; subst x; try dsimp -zeta only)
    | (extract_lets +onlyGivenNames x; clear_value x)
    | apply Keep.ite
    | apply Keep.bump
    | apply Keep.putStaged
    | apply Keep.plainWrite
    | apply Keep.mirrored
    | apply Keep.after
    | apply Keep.execViewCtrlWrite
    | (refine Area.sub_trans (b := Touch.writeView) ?_ har; decide)
    | (refine Area.fld_mono (a := Touch.writeView) ?_ har; decide)
    | dsimp -zeta only
    | split
    | intro _ _ _
    | intro _ _)

def Touch.writeSys : Nat := 0x2808808000300000000000004002000000000000003000000000000000A112184400001D890220
theorem Keep.writeSys {r : Sys2Proof.Req} {base : Nat} {data : Nat}
    (har : Area.sub Touch.writeSys ar = true) (h : Keep ar s t) : KeepSome ar s (Machine.State.writeSys t r base data) := by
  unfold Machine.State.writeSys
  repeat' (with_reducible first
    | assumption
    | apply KeepSome.some
    | exact KeepSome.none
    | apply KeepSome.ite
    | apply Keep.ite
    | apply Keep.ignored
    | apply Keep.after
    | apply Keep.keyed
    | apply Keep.execCalReq
    | apply Keep.execTimeCmdAccept
    | apply Keep.execTimeLaunchFlush
    | apply Keep.dbgCmd
    | apply Keep.execSensRearm
    | apply Keep.execTimeLaunchWrite
    | apply Keep.execTimeCmdSlew
    | apply Keep.svnCommit
    | apply Keep.execTimeCmdDiscard
    | (refine Area.sub_trans (b := Touch.writeSys) ?_ har; decide)
    | split
    | intro _ _ _
    | intro _ _)

def Touch.writeCare : Nat := 0x2800008000000000000000000000000000000000000000000000000000000000039C0058004121
theorem Keep.writeCare {r : Sys2Proof.Req} {info : RegInfo} {off : Nat} {i : Nat} {data : Nat}
    (har : Area.sub Touch.writeCare ar = true) (h : Keep ar s t) : KeepSome ar s (Machine.State.writeCare t r info off i data) := by
  unfold Machine.State.writeCare
  repeat' (with_reducible first
    | assumption
    | apply KeepSome.some
    | exact KeepSome.none
    | apply KeepSome.ite
    | apply Keep.ite
    | apply Keep.bump
    | apply Keep.raise
    | apply Keep.plainWrite
    | apply Keep.after
    | apply Keep.ignoredBy
    | apply Keep.stray
    | apply Keep.execMbxAck
    | apply Keep.execMbxPost
    | apply Keep.execLockRelease
    | apply Keep.execLockClaim
    | apply Keep.execMbxWithdraw
    | (refine Area.sub_trans (b := Touch.writeCare) ?_ har; decide)
    | (refine Area.fld_mono (a := Touch.writeCare) ?_ har; decide)
    | split
    | intro _ _ _
    | intro _ _)

def Touch.writePort : Nat := 0x2A00008011B0200000000F0240C4400000000000000000000000000000000000000100590003F1
theorem Keep.writePort {r : Sys2Proof.Req} {info : RegInfo} {off : Nat} {data : Nat} {readings : List Sys2Proof.CrackRead}
    (har : Area.sub Touch.writePort ar = true) (h : Keep ar s t) : KeepSome ar s (Machine.State.writePort t r info off data readings) := by
  unfold Machine.State.writePort
  repeat' (with_reducible first
    | assumption
    | apply KeepSome.some
    | exact KeepSome.none
    | apply KeepSome.ite
    | apply Keep.ite
    | apply Keep.plainWrite
    | apply Keep.onBit
    | apply Keep.after
    | apply Keep.keyed
    | apply Keep.helloAll
    | apply Keep.tephResume
    | apply Keep.tephClear
    | apply Keep.execRailCmdRelearn
    | apply Keep.crackBaseWrite
    | apply Keep.execPairCmdHandover
    | apply Keep.execPairCmdResync
    | apply Keep.execPatternSelect
    | apply Keep.execRailCmdRestart
    | apply Keep.execRectSubmit
    | apply Keep.execRailCmdOn
    | apply Keep.tephFreeze
    | apply Keep.msixFlush
    | apply Keep.execRailCmdOff
    | (refine Area.sub_trans (b := Touch.writePort) ?_ har; decide)
    | split
    | intro _ _ _
    | intro _ _)

def Touch.writeSpecial : Nat := 0x2A08808011B03F0005CC1F0240C64BD00B80187FE83A8000141EAFFF17A1121847FD635DFB7FFB
theorem Keep.writeSpecial {r : Sys2Proof.Req} {info : RegInfo} {off : Nat} {i : Nat} {data : Nat} {readings : List Sys2Proof.CrackRead}
    (har : Area.sub Touch.writeSpecial ar = true) (h : Keep ar s t) : KeepSome ar s (Machine.State.writeSpecial t r info off i data readings) := by
  unfold Machine.State.writeSpecial
  repeat' (with_reducible first
    | assumption
    | apply KeepSome.some
    | exact KeepSome.none
    | apply KeepSome.ite
    | apply Keep.ite
    | apply Keep.writeLane
    | apply Keep.writeFab
    | apply Keep.writeMem
    | apply Keep.writeCtl
    | apply Keep.writePers
    | apply Keep.writeComp
    | apply Keep.writeRing
    | apply Keep.writeView
    | apply Keep.writeSys
    | apply Keep.writeCare
    | apply Keep.writePort
    | refine KeepSome.of_eq ?_ (by assumption)
    | apply KeepSome.getD
    | (refine Area.sub_trans (b := Touch.writeSpecial) ?_ har; decide)
    | split
    | intro _ _ _
    | intro _ _)

def Touch.writeOne : Nat := 0x2A08808011B03F0005CC1F0240C64BD00B80187FE83A8000141EAFFF17A1121847FD635DFB7FFB
theorem Keep.writeOne {r : Sys2Proof.Req} {info : RegInfo} {off : Nat} {i : Nat} {data : Nat} {readings : List Sys2Proof.CrackRead}
    (har : Area.sub Touch.writeOne ar = true) (h : Keep ar s t) : Keep ar s (Machine.State.writeOne t r info off i data readings) := by
  unfold Machine.State.writeOne
  repeat' (with_reducible first
    | assumption
    | (extract_lets +onlyGivenNames x; (apply Keep.cut x); rotate_left; intro _; clear_value x; rotate_right; subst x)
    | (extract_lets +onlyGivenNames x; have hf : (∀ z, x z = x z) := fun _ => rfl; clear hf; subst x; try dsimp -zeta only)
    | (extract_lets +onlyGivenNames x; clear_value x)
    | apply Keep.ite
    | apply Keep.plainWrite
    | apply Keep.mirrored
    | apply Keep.writeSpecial
    | refine KeepSome.of_eq ?_ (by assumption)
    | apply KeepSome.getD
    | (refine Area.sub_trans (b := Touch.writeOne) ?_ har; decide)
    | dsimp -zeta only
    | split
    | intro _ _ _
    | intro _ _)

def Touch.writeWord : Nat := 0x2A08808011B03F0005CC1F0240C64BD00B80187FE83A8000141EAFFF17A1121847FD635DFB7FFF
theorem Keep.writeWord {r : Sys2Proof.Req} {off : Nat} {data : Nat} {readings : List Sys2Proof.CrackRead}
    (har : Area.sub Touch.writeWord ar = true) (h : Keep ar s t) : Keep ar s (Machine.State.writeWord t r off data readings) := by
  unfold Machine.State.writeWord
  repeat' (with_reducible first
    | assumption
    | (extract_lets +onlyGivenNames x; (apply Keep.cut x); rotate_left; intro _; clear_value x; rotate_right; subst x)
    | (extract_lets +onlyGivenNames x; clear_value x)
    | apply Keep.ite
    | apply Keep.writeHalf
    | apply Keep.writeOne
    | (refine Area.sub_trans (b := Touch.writeWord) ?_ har; decide)
    | split
    | intro _ _ _
    | intro _ _)

def Touch.writeNow : Nat := 0x2A08808011B03F0005CC1F0240C64BD00B80187FE83A8000141EAFFF17A1121847FD7F5DFB7FFF
theorem Keep.writeNow {r : Sys2Proof.Req} {off : Nat} {width : Nat} {data : Nat} {readings : List Sys2Proof.CrackRead}
    (har : Area.sub Touch.writeNow ar = true) (h : Keep ar s t) : Keep ar s (Machine.State.writeNow t r off width data readings) := by
  unfold Machine.State.writeNow
  repeat' (with_reducible first
    | assumption
    | (extract_lets +onlyGivenNames x; (apply Keep.cut x); rotate_left; intro _; clear_value x; rotate_right; subst x)
    | (extract_lets +onlyGivenNames x; clear_value x)
    | apply Keep.ite
    | apply Keep.respond
    | apply Keep.busError
    | apply Keep.writeWord
    | (refine Area.sub_trans (b := Touch.writeNow) ?_ har; decide)
    | split
    | intro _ _ _
    | intro _ _)

def Touch.heldReg : Nat := 0x2A08808591B03F001FCC1F0240C64BD00F82187FE83A8000141EAFFF17A1121847FD7F5DFB7FFF
theorem Keep.heldReg {a1 : HeldWrite}
    (har : Area.sub Touch.heldReg ar = true) (h : Keep ar s t) : Keep ar s (Machine.State.heldReg t a1) := by
  unfold Machine.State.heldReg
  repeat' (with_reducible first
    | assumption
    | (extract_lets +onlyGivenNames x; (apply Keep.cut x); rotate_left; intro _; clear_value x; rotate_right; subst x)
    | (extract_lets +onlyGivenNames x; clear_value x)
    | apply Keep.hostBytes
    | apply Keep.bar2Now
    | apply Keep.readNow
    | apply Keep.writeNow
    | (refine Area.sub_trans (b := Touch.heldReg) ?_ har; decide)
    | split
    | intro _ _ _
    | intro _ _)

def Touch.guardOpen : Nat := 0x2A08808591B03F001FCC1F0240C64BD00F82187FE83A8000141EAFFF17A1121847FD7F5DFB7FFF
theorem Keep.guardOpen {before : Nat}
    (har : Area.sub Touch.guardOpen ar = true) (h : Keep ar s t) : Keep ar s (Machine.State.guardOpen t before) := by
  unfold Machine.State.guardOpen
  repeat' (with_reducible first
    | assumption
    | apply Keep.ite
    | apply Keep.heldReg
    | apply Keep.releaseHeld
    | (refine Area.sub_trans (b := Touch.guardOpen) ?_ har; decide)
    | split
    | intro _ _ _
    | intro _ _)

def Touch.busWrite : Nat := 0x2A08808591B03F001FCC1F0240C64BD00F82187FE83A8000141EAFFF17A1121847FD7F5DFB7FFF
theorem Keep.busWrite {r : Sys2Proof.Req} {off : Nat} {width : Nat} {data : Nat} {readings : List Sys2Proof.CrackRead}
    (har : Area.sub Touch.busWrite ar = true) (h : Keep ar s t) : Keep ar s (Machine.State.busWrite t r off width data readings) := by
  unfold Machine.State.busWrite
  repeat' (with_reducible first
    | assumption
    | apply Keep.ite
    | apply Keep.respond
    | apply Keep.hostWaits
    | apply Keep.writeNow
    | apply Keep.guardOpen
    | (refine Area.sub_trans (b := Touch.busWrite) ?_ har; decide)
    | split
    | intro _ _ _
    | intro _ _)

def Touch.countersKept : Nat := 0x40000000
theorem Keep.countersKept {old : Machine.State} {l : List Nat}
    (har : Area.sub Touch.countersKept ar = true) (h : Keep ar s t) : Keep ar s (Machine.State.countersKept t old l) := by
  unfold Machine.State.countersKept
  refine Keep.foldl (fun _ _ k => ?_) h
  split
  · exact k.setWord (Area.word_any (Area.bit_of_sub (a := Touch.countersKept) har 30 (by decide)))
  · exact k

def Touch.busWriteIn : Nat := 0x2A08808591B03F001FCC1F0240C64BD00F82187FE83A8000141EAFFF17A1121847FD7F5DFB7FFF
theorem Keep.busWriteIn {r : Sys2Proof.Req} {off : Nat} {width : Nat} {data : Nat} {readings : List Sys2Proof.CrackRead} {adv : Bool}
    (har : Area.sub Touch.busWriteIn ar = true) (h : Keep ar s t) : Keep ar s (Machine.State.busWriteIn t r off width data readings adv) := by
  unfold Machine.State.busWriteIn
  repeat' (with_reducible first
    | assumption
    | (extract_lets +onlyGivenNames x; (apply Keep.cut x); rotate_left; intro _; clear_value x; rotate_right; subst x)
    | (extract_lets +onlyGivenNames x; clear_value x)
    | apply Keep.ite
    | apply Keep.busWrite
    | apply Keep.countersKept
    | (refine Area.sub_trans (b := Touch.busWriteIn) ?_ har; decide)
    | split
    | intro _ _ _
    | intro _ _)

def Touch.execPairHiRead : Nat := 0x280000800000000000000000000000000000000000000000000000000000000000003C10020024
theorem Keep.execPairHiRead {r : Sys2Proof.Req} {off : Nat} {width : Nat}
    (har : Area.sub Touch.execPairHiRead ar = true) (h : Keep ar s t) : KeepO ar s (Machine.execPairHiRead r off width t) := by
  unfold Machine.execPairHiRead
  repeat' (with_reducible first
    | assumption
    | apply KeepO.next
    | apply KeepO.ite
    | apply Keep.busRead
    | (refine Area.sub_trans (b := Touch.execPairHiRead) ?_ har; decide)
    | intro _ _ _
    | intro _ _)

def Touch.execGuardExpiry : Nat := 0x2A08808591B03F001FCC1F0240C64BD00F82187FE83A8000141EAFFF17A1121847FD7F5DFB7FFF
theorem Keep.execGuardExpiry
    (har : Area.sub Touch.execGuardExpiry ar = true) (h : Keep ar s t) : KeepO ar s (Machine.execGuardExpiry t) := by
  unfold Machine.execGuardExpiry
  repeat' (with_reducible first
    | assumption
    | apply KeepO.next
    | apply KeepO.ite
    | apply Keep.heldReg
    | apply Keep.guardExpiry
    | (refine Area.sub_trans (b := Touch.execGuardExpiry) ?_ har; decide)
    | intro _ _ _
    | intro _ _)

def Touch.execMemFreqChangeDone : Nat := 0x2A08808591B03F001FCC1F0240C64BD00F82187FE83A8000141EAFFF17A1121847FD7F5DFB7FFF
theorem Keep.execMemFreqChangeDone
    (har : Area.sub Touch.execMemFreqChangeDone ar = true) (h : Keep ar s t) : KeepO ar s (Machine.execMemFreqChangeDone t) := by
  unfold Machine.execMemFreqChangeDone
  repeat' (with_reducible first
    | assumption
    | apply KeepO.next
    | apply KeepO.ite
    | (extract_lets +onlyGivenNames x; (first | apply KeepO.cut x | apply Keep.cut x); rotate_left; intro _; clear_value x; rotate_right; subst x)
    | (extract_lets +onlyGivenNames x; clear_value x)
    | apply Keep.heldReg
    | apply Keep.releaseHeld
    | apply Keep.freqDone
    | (refine Area.sub_trans (b := Touch.execMemFreqChangeDone) ?_ har; decide)
    | split
    | intro _ _ _
    | intro _ _)

def Touch.execHeldWriteRelease : Nat := 0x2A08808591B03F001FCC1F0240C64BD00F82187FE83A8000141EAFFF17A1121847FD7F5DFB7FFF
theorem Keep.execHeldWriteRelease
    (har : Area.sub Touch.execHeldWriteRelease ar = true) (h : Keep ar s t) : KeepO ar s (Machine.execHeldWriteRelease t) := by
  unfold Machine.execHeldWriteRelease
  repeat' (with_reducible first
    | assumption
    | apply KeepO.next
    | apply KeepO.ite
    | apply Keep.heldReg
    | apply Keep.releaseHeld
    | (refine Area.sub_trans (b := Touch.execHeldWriteRelease) ?_ har; decide)
    | intro _ _ _
    | intro _ _)

def Touch.execPairHiWrite : Nat := 0x2A08808591B03F001FCC1F0240C64BD00F82187FE83A8000141EAFFF17A1121847FD7F5DFB7FFF
theorem Keep.execPairHiWrite {r : Sys2Proof.Req} {off : Nat} {data : Sys2Proof.Word} {adv : Bool}
    (har : Area.sub Touch.execPairHiWrite ar = true) (h : Keep ar s t) : KeepO ar s (Machine.execPairHiWrite r off data adv t) := by
  unfold Machine.execPairHiWrite
  repeat' (with_reducible first
    | assumption
    | apply KeepO.next
    | apply KeepO.ite
    | apply Keep.busWriteIn
    | (refine Area.sub_trans (b := Touch.execPairHiWrite) ?_ har; decide)
    | intro _ _ _
    | intro _ _)

def Touch.execPairLoRead : Nat := 0x280000800000000000000000000000000000000000000000000000000000000000003C10020024
theorem Keep.execPairLoRead {r : Sys2Proof.Req} {off : Nat}
    (har : Area.sub Touch.execPairLoRead ar = true) (h : Keep ar s t) : KeepO ar s (Machine.execPairLoRead r off t) := by
  unfold Machine.execPairLoRead
  repeat' (with_reducible first
    | assumption
    | apply KeepO.next
    | apply KeepO.ite
    | apply Keep.busRead
    | (refine Area.sub_trans (b := Touch.execPairLoRead) ?_ har; decide)
    | intro _ _ _
    | intro _ _)

def Touch.execMirrorWrite : Nat := 0x2A08808591B03F001FCC1F0240C64BD00F82187FE83A8000141EAFFF17A1121847FD7F5DFB7FFF
theorem Keep.execMirrorWrite {off : Nat} {data : Sys2Proof.Word}
    (har : Area.sub Touch.execMirrorWrite ar = true) (h : Keep ar s t) : KeepO ar s (Machine.execMirrorWrite off data t) := by
  unfold Machine.execMirrorWrite
  repeat' (with_reducible first
    | assumption
    | apply KeepO.next
    | apply KeepO.ite
    | (extract_lets +onlyGivenNames x; (first | apply KeepO.cut x | apply Keep.cut x); rotate_left; intro _; clear_value x; rotate_right; subst x)
    | (extract_lets +onlyGivenNames x; clear_value x)
    | apply Keep.ite
    | apply Keep.busWrite
    | apply Keep.rxNext
    | (refine Area.sub_trans (b := Touch.execMirrorWrite) ?_ har; decide)
    | split
    | intro _ _ _
    | intro _ _)

def Touch.execPairLoWrite : Nat := 0x2A08808591B03F001FCC1F0240C64BD00F82187FE83A8000141EAFFF17A1121847FD7F5DFB7FFF
theorem Keep.execPairLoWrite {r : Sys2Proof.Req} {off : Nat} {data : Sys2Proof.Word}
    (har : Area.sub Touch.execPairLoWrite ar = true) (h : Keep ar s t) : KeepO ar s (Machine.execPairLoWrite r off data t) := by
  unfold Machine.execPairLoWrite
  repeat' (with_reducible first
    | assumption
    | apply KeepO.next
    | apply KeepO.ite
    | apply Keep.busWrite
    | (refine Area.sub_trans (b := Touch.execPairLoWrite) ?_ har; decide)
    | intro _ _ _
    | intro _ _)

def Touch.execRegisterWrite : Nat := 0x2A08808591B03F001FCC1F0240C64BD00F82187FE83A8000141EAFFF17A1121847FD7F5DFB7FFF
theorem Keep.execRegisterWrite {r : Sys2Proof.Req} {off : Nat} {width : Nat} {data : Nat} {readings : List Sys2Proof.CrackRead} {others : List (Sys2Proof.Req × Nat)} {adv : Bool}
    (har : Area.sub Touch.execRegisterWrite ar = true) (h : Keep ar s t) : KeepO ar s (Machine.execRegisterWrite r off width data readings others adv t) := by
  unfold Machine.execRegisterWrite
  repeat' (with_reducible first
    | assumption
    | apply KeepO.next
    | apply KeepO.ite
    | apply Keep.busWriteIn
    | (refine Area.sub_trans (b := Touch.execRegisterWrite) ?_ har; decide)
    | apply Keep.foldl
    | intro _ _ _
    | intro _ _)

def Touch.execPairAccess64 : Nat := 0x2A08808591B03F001FCC1F0240C64BD00F82187FE83A8000141EAFFF17A1121847FD7F5DFB7FFF
theorem Keep.execPairAccess64 {r : Sys2Proof.Req} {off : Nat} {data : Option Nat} {adv : Bool}
    (har : Area.sub Touch.execPairAccess64 ar = true) (h : Keep ar s t) : KeepO ar s (Machine.execPairAccess64 r off data adv t) := by
  unfold Machine.execPairAccess64
  repeat' (with_reducible first
    | assumption
    | apply KeepO.next
    | apply KeepO.ite
    | (extract_lets +onlyGivenNames x; (first | apply KeepO.cut x | apply Keep.cut x); rotate_left; intro _; clear_value x; rotate_right; subst x)
    | (extract_lets +onlyGivenNames x; clear_value x)
    | apply Keep.busRead
    | apply Keep.busWriteIn
    | (refine Area.sub_trans (b := Touch.execPairAccess64) ?_ har; decide)
    | split
    | intro _ _ _
    | intro _ _)

end Sys2Proof
end

