-- ==== Sys2Proof/Laws/KeepReset.lean ====
section
/-!
SUPPORT. The operations and meanings of Machine/Reset.lean keep what `Keep` says.
-/

namespace Sys2Proof

open Sys2Proof.Machine

variable {ar : Nat} {s t u : Machine.State}

def Touch.coreReload : Nat := 0x80000000000000000000000000000000000000003F0100000000000000001000
theorem Keep.coreReload
    (har : Area.sub Touch.coreReload ar = true) (h : Keep ar s t) : Keep ar s (Machine.State.coreReload t) := by
  unfold Machine.State.coreReload
  repeat' (with_reducible first
    | assumption
    | (extract_lets +onlyGivenNames x; (apply Keep.cut x); rotate_left; intro _; clear_value x; rotate_right; subst x)
    | (extract_lets +onlyGivenNames x; clear_value x)
    | apply Keep.ite
    | apply Keep.put
    | apply Keep.preloadBegin
    | apply Keep.pendResume
    | apply Keep.slotReject
    | (refine Area.sub_trans (b := Touch.coreReload) ?_ har; decide)
    | (refine Area.fld_mono (a := Touch.coreReload) ?_ har; decide)
    | split
    | intro _ _ _
    | intro _ _
    | (refine Keep.rec_pers ?_ ?_; rotate_left; first | assumption | apply Keep.put | apply Keep.preloadBegin | apply Keep.pendResume | apply Keep.slotReject | apply Keep.ite))

def Touch.coreExit : Nat := 0x2A08808591B03F801FCC1F0240F64BD00F821A7FE83A8000141EAFFF17A1121847FD7F7DFB7FFF
theorem Keep.coreExit
    (har : Area.sub Touch.coreExit ar = true) (h : Keep ar s t) : Keep ar s (Machine.State.coreExit t) := by
  unfold Machine.State.coreExit
  repeat' (with_reducible first
    | assumption
    | (extract_lets +onlyGivenNames x; (apply Keep.cut x); rotate_left; intro _; clear_value x; rotate_right; subst x)
    | (extract_lets +onlyGivenNames x; have hf : RstState := x; clear hf; subst x)
    | (extract_lets +onlyGivenNames x; clear_value x)
    | apply Keep.put
    | apply Keep.freqJudge
    | apply Keep.heldReg
    | apply Keep.releaseHeld
    | apply Keep.keysReload
    | apply Keep.unifReport
    | apply Keep.memSelfRefresh
    | apply Keep.coreReload
    | (refine Area.sub_trans (b := Touch.coreExit) ?_ har; decide)
    | (refine Area.fld_mono (a := Touch.coreExit) ?_ har; decide)
    | split
    | intro _ _ _
    | intro _ _
    | (refine Keep.rec_rst_mem_comp ?_ rfl ?_; rotate_left; first | assumption | apply Keep.put | apply Keep.freqJudge | apply Keep.heldReg | apply Keep.releaseHeld | apply Keep.keysReload | apply Keep.unifReport | apply Keep.memSelfRefresh | apply Keep.coreReload)
    | (refine Keep.rec_rst_mem_compH ?_ ?_; rotate_left; first | assumption | apply Keep.put | apply Keep.freqJudge | apply Keep.heldReg | apply Keep.releaseHeld | apply Keep.keysReload | apply Keep.unifReport | apply Keep.memSelfRefresh | apply Keep.coreReload))

def Touch.coreRegs : Nat := 0x108018000000000000000400000000000000040000001
theorem Keep.coreRegs
    (har : Area.sub Touch.coreRegs ar = true) (h : Keep ar s t) : Keep ar s (Machine.State.coreRegs t) := by
  unfold Machine.State.coreRegs
  extract_lets t0 t1 t2
  have h0 : Keep ar s t0 := by
    refine h.trans ⟨fun w => ?_, rfl, OtpGrows.refl _, fun _ => rfl, fun _ hk => (hk (Area.word_any (Area.bit_of_sub (a := Touch.coreRegs) har 30 (by decide)))).elim, fun p b => ?_⟩
    · simp only [State.memoriesWf, Bool.and_eq_true] at w ⊢
      exact ⟨⟨Sparse.mapKeep_wf _ _ w.1.1, Sparse.mapKeep_wf _ _ w.1.2⟩, w.2⟩
    · cases p <;> first | rfl | exact (Area.no_bit (a := Touch.coreRegs) har b (by decide)).elim
  have h1 : Keep ar s t1 := Keep.foldl (fun _ _ k => Keep.ite (k.put (Area.fld_mono (a := Touch.coreRegs) (by decide) har)) k) h0
  have h2 : Keep ar s t2 := Keep.foldl (fun _ _ k => Keep.ite (k.put (Area.fld_mono (a := Touch.coreRegs) (by decide) har)) k) h1
  exact Keep.panelRange (Area.sub_trans (b := Touch.coreRegs) (by decide) har) ((h2.put (Area.fld_mono (a := Touch.coreRegs) (by decide) har)).put (Area.fld_mono (a := Touch.coreRegs) (by decide) har))

def Touch.coreHold : Nat := 0x2A48808591B03F001FCC1F0240C64BD00F8A19FFE83A8000141EAFFF17A1121847FD7F7FFF7FFF
theorem Keep.coreHold
    (har : Area.sub Touch.coreHold ar = true) (h : Keep ar s t) : Keep ar s (Machine.State.coreHold t) := by
  unfold Machine.State.coreHold
  repeat' (with_reducible first
    | assumption
    | (extract_lets +onlyGivenNames x; (apply Keep.cut x); rotate_left; intro _; clear_value x; rotate_right; subst x)
    | (extract_lets +onlyGivenNames x; have hf : RstState := x; clear hf; subst x)
    | (extract_lets +onlyGivenNames x; clear_value x)
    | apply Keep.put
    | apply Keep.offer
    | apply Keep.dropStaging
    | apply Keep.releaseLocks
    | apply Keep.bltCore
    | apply Keep.heldReg
    | apply Keep.completeAll
    | apply Keep.memSelfRefresh
    | apply Keep.coreRegs
    | apply Keep.sendHold
    | apply Keep.lzcCore
    | (refine Area.sub_trans (b := Touch.coreHold) ?_ har; decide)
    | (refine Area.fld_mono (a := Touch.coreHold) ?_ har; decide)
    | intro _ _ _
    | intro _ _
    | (refine Keep.rec_rst_bus_pseq_mem_pers_fab_comp_view_intk_host ?_ rfl ?_; rotate_left; first | assumption | apply Keep.put | apply Keep.offer | apply Keep.dropStaging | apply Keep.releaseLocks | apply Keep.bltCore | apply Keep.heldReg | apply Keep.completeAll | apply Keep.memSelfRefresh | apply Keep.coreRegs | apply Keep.sendHold | apply Keep.lzcCore)
    | (refine Keep.rec_rst_bus_pseq_mem_pers_fab_comp_view_intk_hostH ?_ ?_; rotate_left; first | assumption | apply Keep.put | apply Keep.offer | apply Keep.dropStaging | apply Keep.releaseLocks | apply Keep.bltCore | apply Keep.heldReg | apply Keep.completeAll | apply Keep.memSelfRefresh | apply Keep.coreRegs | apply Keep.sendHold | apply Keep.lzcCore))

def Touch.pinSource : Nat := 0x2800008000000000000008020000000000000000000000000000000000000000000040100003A2
theorem Keep.pinSource {tamper : Bool}
    (har : Area.sub Touch.pinSource ar = true) (h : Keep ar s t) : Keep ar s (Machine.State.pinSource t tamper) := by
  unfold Machine.State.pinSource
  repeat' (with_reducible first
    | assumption
    | (extract_lets +onlyGivenNames x; (apply Keep.cut x); rotate_left; intro _; clear_value x; rotate_right; subst x)
    | (extract_lets +onlyGivenNames x; have hf : RstState := x; clear hf; subst x)
    | (extract_lets +onlyGivenNames x; clear_value x)
    | apply Keep.ite
    | apply Keep.sysSource
    | apply Area.fld_ite
    | (refine Area.sub_trans (b := Touch.pinSource) ?_ har; decide)
    | (refine Area.fld_mono (a := Touch.pinSource) ?_ har; decide)
    | split
    | intro _ _ _
    | intro _ _
    | (refine Keep.rec_rst ?_ rfl ?_; rotate_left; first | assumption | apply Keep.sysSource | apply Keep.ite))

def Touch.porState : Nat := 0x407FFFFFFF
theorem Keep.porState
    (har : Area.sub Touch.porState ar = true) (h : Keep ar s t) : Keep ar s (Machine.State.porState t) := by
  unfold Machine.State.porState
  extract_lets c rst r t0
  have hc : Keep ar s c := Keep.commitCut (Area.sub_trans (b := Touch.porState) (by decide) har) h
  have h0 : Keep ar s t0 :=
    hc.trans ⟨fun _ => rfl, rfl, OtpGrows.refl _, fun b => (Area.no_bit (a := Touch.porState) har b (by decide)).elim,
      fun _ hk => (hk (Area.word_any (Area.bit_of_sub (a := Touch.porState) har 30 (by decide)))).elim,
      fun p b => by cases p <;> first | rfl | exact (Area.no_bit (a := Touch.porState) har b (by decide)).elim⟩
  exact (h0.putB (Area.fld_mono (a := Touch.porState) (by decide) har)).putB (Area.fld_mono (a := Touch.porState) (by decide) har)

def Touch.sysHold : Nat := 0x28000080000000000000000000000000000000000000000000000000000000000280407FFFFFFF
theorem Keep.sysHold
    (har : Area.sub Touch.sysHold ar = true) (h : Keep ar s t) : Keep ar s (Machine.State.sysHold t) := by
  have hc : Keep ar s ((t.releaseLocks 2).releaseLocks 4).commitCut := Keep.commitCut (Area.sub_trans (b := Touch.sysHold) (by decide) har) (Keep.releaseLocks (Area.sub_trans (b := Touch.sysHold) (by decide) har) (Keep.releaseLocks (Area.sub_trans (b := Touch.sysHold) (by decide) har) h))
  unfold Machine.State.sysHold
  generalize ((t.releaseLocks 2).releaseLocks 4).commitCut = c at hc
  refine Keep.bump (Area.fld_mono (a := Touch.sysHold) (by decide) har) (hc.trans ⟨fun w => ?_, rfl, OtpGrows.refl _,
    fun b => (Area.no_bit (a := Touch.sysHold) har b (by decide)).elim, fun _ hk => (hk (Area.word_any (Area.bit_of_sub (a := Touch.sysHold) har 30 (by decide)))).elim,
    fun p b => by cases p <;> first | rfl | exact (Area.no_bit (a := Touch.sysHold) har b (by decide)).elim⟩)
  simp only [State.memoriesWf, Bool.and_eq_true] at w ⊢
  exact ⟨⟨Sparse.mapKeep_wf _ _ w.1.1, rfl⟩, rfl⟩

def Touch.trimLoad : Nat := 0x10020000002
theorem Keep.trimLoad
    (har : Area.sub Touch.trimLoad ar = true) (h : Keep ar s t) : Keep ar s (Machine.State.trimLoad t) := by
  unfold Machine.State.trimLoad
  repeat' (with_reducible first
    | assumption
    | (extract_lets +onlyGivenNames x; (apply Keep.cut x); rotate_left; intro _; clear_value x; rotate_right; subst x)
    | (extract_lets +onlyGivenNames x; have hf : RstState := x; clear hf; subst x)
    | (extract_lets +onlyGivenNames x; clear_value x)
    | apply Keep.put
    | (refine Area.sub_trans (b := Touch.trimLoad) ?_ har; decide)
    | (refine Area.fld_mono (a := Touch.trimLoad) ?_ har; decide)
    | intro _ _ _
    | intro _ _
    | (refine Keep.rec_rst ?_ rfl ?_; rotate_left; first | assumption | apply Keep.put)
    | (refine Keep.rec_rstH ?_ ?_; rotate_left; first | assumption | apply Keep.put))

def Touch.execRstReqSys : Nat := 0x2800008000000000000008020000000000000000000000000000000000000000000040100003A2
theorem Keep.execRstReqSys {r : Sys2Proof.Req} {key : Nat}
    (har : Area.sub Touch.execRstReqSys ar = true) (h : Keep ar s t) : KeepO ar s (Machine.execRstReqSys r key t) := by
  unfold Machine.execRstReqSys
  repeat' (with_reducible first
    | assumption
    | apply KeepO.next
    | apply KeepO.ite
    | apply Keep.sysSource
    | apply Keep.keyed
    | (refine Area.sub_trans (b := Touch.execRstReqSys) ?_ har; decide)
    | (refine Area.fld_mono (a := Touch.execRstReqSys) ?_ har; decide)
    | intro _ _ _
    | intro _ _)

def Touch.execFabricFatal : Nat := 0x280000800000000000000000000000000000000000000000000000000000000000004010000122
theorem Keep.execFabricFatal
    (har : Area.sub Touch.execFabricFatal ar = true) (h : Keep ar s t) : KeepO ar s (Machine.execFabricFatal t) := by
  unfold Machine.execFabricFatal
  repeat' (with_reducible first
    | assumption
    | apply KeepO.next
    | apply KeepO.ite
    | (extract_lets +onlyGivenNames x; (first | apply KeepO.cut x | apply Keep.cut x); rotate_left; intro _; clear_value x; rotate_right; subst x)
    | (extract_lets +onlyGivenNames x; clear_value x)
    | apply Keep.fabricFatal
    | (refine Area.sub_trans (b := Touch.execFabricFatal) ?_ har; decide)
    | split
    | intro _ _ _
    | intro _ _)

def Touch.execCoreTakesHold : Nat := 0x2A48808591B03F001FCC1F0240C64BD00F8A19FFE83A8000141EAFFF17A1121847FD7F7FFF7FFF
theorem Keep.execCoreTakesHold
    (har : Area.sub Touch.execCoreTakesHold ar = true) (h : Keep ar s t) : KeepO ar s (Machine.execCoreTakesHold t) := by
  unfold Machine.execCoreTakesHold
  repeat' (with_reducible first
    | assumption
    | apply KeepO.next
    | apply KeepO.ite
    | apply Keep.ite
    | apply Keep.coreHold
    | (refine Area.sub_trans (b := Touch.execCoreTakesHold) ?_ har; decide)
    | split
    | intro _ _ _
    | intro _ _)

def Touch.execTamperEvent : Nat := 0x2800008000000000000008020000000000000000000000000000000000000000000040100003A2
theorem Keep.execTamperEvent
    (har : Area.sub Touch.execTamperEvent ar = true) (h : Keep ar s t) : KeepO ar s (Machine.execTamperEvent t) := by
  unfold Machine.execTamperEvent
  repeat' (with_reducible first
    | assumption
    | apply KeepO.next
    | apply KeepO.ite
    | apply Keep.pinSource
    | (refine Area.sub_trans (b := Touch.execTamperEvent) ?_ har; decide)
    | intro _ _ _
    | intro _ _)

def Touch.execPorAssert : Nat := 0x407FFFFFFF
theorem Keep.execPorAssert {a0 : Sys2Proof.PorSource}
    (har : Area.sub Touch.execPorAssert ar = true) (h : Keep ar s t) : KeepO ar s (Machine.execPorAssert a0 t) := by
  unfold Machine.execPorAssert
  repeat' (with_reducible first
    | assumption
    | apply KeepO.next
    | apply KeepO.ite
    | apply Keep.porState
    | (refine Area.sub_trans (b := Touch.execPorAssert) ?_ har; decide)
    | intro _ _ _
    | intro _ _)

def Touch.execResetPin : Nat := 0x2800008000000000000008020000000000000000000000000000000000000000000040100003A2
theorem Keep.execResetPin
    (har : Area.sub Touch.execResetPin ar = true) (h : Keep ar s t) : KeepO ar s (Machine.execResetPin t) := by
  unfold Machine.execResetPin
  repeat' (with_reducible first
    | assumption
    | apply KeepO.next
    | apply KeepO.ite
    | apply Keep.pinSource
    | (refine Area.sub_trans (b := Touch.execResetPin) ?_ har; decide)
    | intro _ _ _
    | intro _ _)

def Touch.execResetRelease : Nat := 0x2A08808591B03F801FCC1F0240F64BD00F821A7FE83A8000141EAFFF17A1121847FD7F7FFFFFFF
theorem Keep.execResetRelease
    (har : Area.sub Touch.execResetRelease ar = true) (h : Keep ar s t) : KeepO ar s (Machine.execResetRelease t) := by
  unfold Machine.execResetRelease
  repeat' (with_reducible first
    | assumption
    | apply KeepO.next
    | apply KeepO.ite
    | (extract_lets +onlyGivenNames x; (first | apply KeepO.cut x | apply Keep.cut x); rotate_left; intro _; clear_value x; rotate_right; subst x)
    | (extract_lets +onlyGivenNames x; have hf : RstState := x; clear hf; subst x)
    | (extract_lets +onlyGivenNames x; clear_value x)
    | apply Keep.ite
    | apply Keep.coreExit
    | apply Keep.sysHold
    | apply Keep.trimLoad
    | (refine Area.sub_trans (b := Touch.execResetRelease) ?_ har; decide)
    | split
    | intro _ _ _
    | intro _ _
    | (refine Keep.rec_rst ?_ rfl ?_; rotate_left; first | assumption | apply Keep.coreExit | apply Keep.sysHold | apply Keep.trimLoad | apply Keep.ite))

def Touch.execRstReqCore : Nat := 0x280000800000000000000000000000000000000000000000000000000000000000004010000122
theorem Keep.execRstReqCore {r : Sys2Proof.Req} {key : Nat}
    (har : Area.sub Touch.execRstReqCore ar = true) (h : Keep ar s t) : KeepO ar s (Machine.execRstReqCore r key t) := by
  unfold Machine.execRstReqCore
  repeat' (with_reducible first
    | assumption
    | apply KeepO.next
    | apply KeepO.ite
    | apply Keep.coreSource
    | apply Keep.keyed
    | (refine Area.sub_trans (b := Touch.execRstReqCore) ?_ har; decide)
    | (refine Area.fld_mono (a := Touch.execRstReqCore) ?_ har; decide)
    | intro _ _ _
    | intro _ _)

def Touch.execTrimLoadDone : Nat := 0x28000480000000000000000000000000000000000000000000000000000000003E83C07FFFFFFF
theorem Keep.execTrimLoadDone {reading : Nat}
    (har : Area.sub Touch.execTrimLoadDone ar = true) (h : Keep ar s t) : KeepO ar s (Machine.execTrimLoadDone reading t) := by
  unfold Machine.execTrimLoadDone
  repeat' (with_reducible first
    | assumption
    | apply KeepO.next
    | apply KeepO.ite
    | (extract_lets +onlyGivenNames x; (first | apply KeepO.cut x | apply Keep.cut x); rotate_left; intro _; clear_value x; rotate_right; subst x)
    | (extract_lets +onlyGivenNames x; have hf : RstState := x; clear hf; subst x)
    | (extract_lets +onlyGivenNames x; clear_value x)
    | apply Keep.ite
    | apply Keep.loadEnds
    | apply Keep.sysHold
    | (refine Area.sub_trans (b := Touch.execTrimLoadDone) ?_ har; decide)
    | split
    | intro _ _ _
    | intro _ _
    | (refine Keep.rec_rst ?_ rfl ?_; rotate_left; first | assumption | apply Keep.loadEnds | apply Keep.sysHold | apply Keep.ite)
    | (refine Keep.rec_rstH ?_ ?_; rotate_left; first | assumption | apply Keep.loadEnds | apply Keep.sysHold | apply Keep.ite))

def Touch.execSysTakesHold : Nat := 0x28000080000000000000000000000000000000000000000000000000000000000280407FFFFFFF
theorem Keep.execSysTakesHold
    (har : Area.sub Touch.execSysTakesHold ar = true) (h : Keep ar s t) : KeepO ar s (Machine.execSysTakesHold t) := by
  unfold Machine.execSysTakesHold
  repeat' (with_reducible first
    | assumption
    | apply KeepO.next
    | apply KeepO.ite
    | apply Keep.ite
    | apply Keep.sysHold
    | (refine Area.sub_trans (b := Touch.execSysTakesHold) ?_ har; decide)
    | split
    | intro _ _ _
    | intro _ _)

def Touch.execWatchdogExpiry : Nat := 0x2800008000000000000008020000000000000000000000000000000000000000000040100003A2
theorem Keep.execWatchdogExpiry
    (har : Area.sub Touch.execWatchdogExpiry ar = true) (h : Keep ar s t) : KeepO ar s (Machine.execWatchdogExpiry t) := by
  unfold Machine.execWatchdogExpiry
  repeat' (with_reducible first
    | assumption
    | apply KeepO.next
    | apply KeepO.ite
    | apply Keep.ite
    | apply Keep.sysSource
    | (refine Area.sub_trans (b := Touch.execWatchdogExpiry) ?_ har; decide)
    | (refine Area.fld_mono (a := Touch.execWatchdogExpiry) ?_ har; decide)
    | split
    | intro _ _ _
    | intro _ _)

end Sys2Proof
end

