-- ==== Sys2Proof/Laws/KeepPins.lean ====
section
/-!
SUPPORT. The operations and meanings of Machine/Pins.lean keep what `Keep` says.
-/

namespace Sys2Proof

open Sys2Proof.Machine

variable {ar : Nat} {s t u : Machine.State}

def Touch.tickElapsed : Nat := 0x10000000002
theorem Keep.tickElapsed
    (har : Area.sub Touch.tickElapsed ar = true) (h : Keep ar s t) : Keep ar s (Machine.State.tickElapsed t) := by
  unfold Machine.State.tickElapsed
  repeat' (with_reducible first
    | assumption
    | (extract_lets +onlyGivenNames x; (apply Keep.cut x); rotate_left; intro _; clear_value x; rotate_right; subst x)
    | (extract_lets +onlyGivenNames x; have hf : RstState := x; clear hf; subst x)
    | (extract_lets +onlyGivenNames x; clear_value x)
    | apply Keep.ite
    | apply Keep.bump
    | (refine Area.sub_trans (b := Touch.tickElapsed) ?_ har; decide)
    | (refine Area.fld_mono (a := Touch.tickElapsed) ?_ har; decide)
    | split
    | intro _ _ _
    | intro _ _
    | (refine Keep.rec_rst ?_ rfl ?_; rotate_left; first | assumption | apply Keep.bump | apply Keep.ite))

def Touch.tickInput : Nat := 0x280000800000000000000000000000000000000000000000000000000000000000010018000032
theorem Keep.tickInput
    (har : Area.sub Touch.tickInput ar = true) (h : Keep ar s t) : Keep ar s (Machine.State.tickInput t) := by
  unfold Machine.State.tickInput
  repeat' (with_reducible first
    | assumption
    | (extract_lets +onlyGivenNames x; (apply Keep.cut x); rotate_left; intro _; clear_value x; rotate_right; subst x)
    | (extract_lets +onlyGivenNames x; have hf : RstState := x; clear hf; subst x)
    | (extract_lets +onlyGivenNames x; clear_value x)
    | apply Keep.ite
    | apply Keep.stageFail
    | (refine Area.sub_trans (b := Touch.tickInput) ?_ har; decide)
    | split
    | intro _ _ _
    | intro _ _
    | (refine Keep.rec_rst ?_ rfl ?_; rotate_left; first | assumption | apply Keep.stageFail | apply Keep.ite))

def Touch.tick : Nat := 0x280000800000000000031000000000000000000000000000000000000000000000010018800432
theorem Keep.tick
    (har : Area.sub Touch.tick ar = true) (h : Keep ar s t) : Keep ar s (Machine.State.tick t) := by
  unfold Machine.State.tick
  repeat' (with_reducible first
    | assumption
    | (extract_lets +onlyGivenNames x; (apply Keep.cut x); rotate_left; intro _; clear_value x; rotate_right; subst x)
    | (extract_lets +onlyGivenNames x; have hf : (∀ z, x z = x z) := fun _ => rfl; clear hf; subst x; try dsimp -zeta only)
    | (extract_lets +onlyGivenNames x; clear_value x)
    | apply Keep.prbsTick
    | apply Keep.tickElapsed
    | apply Keep.tickInput
    | (refine Area.sub_trans (b := Touch.tick) ?_ har; decide)
    | dsimp -zeta only
    | split
    | intro _ _ _
    | intro _ _
    | (refine Keep.rec_out_wires ?_ ?_; rotate_left; first | assumption | apply Keep.prbsTick | apply Keep.tickElapsed | apply Keep.tickInput)
    | (refine Keep.rec_time ?_ ?_; rotate_left; first | assumption | apply Keep.prbsTick | apply Keep.tickElapsed | apply Keep.tickInput))

def Touch.execMainsReturn : Nat := 0x407FFFFFFF
theorem Keep.execMainsReturn
    (har : Area.sub Touch.execMainsReturn ar = true) (h : Keep ar s t) : KeepO ar s (Machine.execMainsReturn t) := by
  unfold Machine.execMainsReturn
  repeat' (with_reducible first
    | assumption
    | apply KeepO.next
    | apply KeepO.ite
    | apply Keep.ite
    | apply Keep.porState
    | apply Keep.tephSave
    | (refine Area.sub_trans (b := Touch.execMainsReturn) ?_ har; decide)
    | split
    | intro _ _ _
    | intro _ _)

def Touch.execAoSupplyFall : Nat := 0x10
theorem Keep.execAoSupplyFall
    (har : Area.sub Touch.execAoSupplyFall ar = true) (h : Keep ar s t) : KeepO ar s (Machine.execAoSupplyFall t) := by
  unfold Machine.execAoSupplyFall
  repeat' (with_reducible first
    | assumption
    | apply KeepO.next
    | apply KeepO.ite
    | (extract_lets +onlyGivenNames x; (first | apply KeepO.cut x | apply Keep.cut x); rotate_left; intro _; clear_value x; rotate_right; subst x)
    | (extract_lets +onlyGivenNames x; clear_value x)
    | (refine Area.sub_trans (b := Touch.execAoSupplyFall) ?_ har; decide)
    | (refine Keep.rec_pins ?_ ?_; rotate_left; first | assumption))

def Touch.execTephraSave : Nat := 0x2800008000000000000008020000000000000000000000000000000000000000000040100003E2
theorem Keep.execTephraSave
    (har : Area.sub Touch.execTephraSave ar = true) (h : Keep ar s t) : KeepO ar s (Machine.execTephraSave t) := by
  unfold Machine.execTephraSave
  repeat' (with_reducible first
    | assumption
    | apply KeepO.next
    | apply KeepO.ite
    | (extract_lets +onlyGivenNames x; (first | apply KeepO.cut x | apply Keep.cut x); rotate_left; intro _; clear_value x; rotate_right; subst x)
    | (extract_lets +onlyGivenNames x; have hf : (∀ z, x z = x z) := fun _ => rfl; clear hf; subst x; try dsimp -zeta only)
    | (extract_lets +onlyGivenNames x; have hf : RstState := x; clear hf; subst x)
    | (extract_lets +onlyGivenNames x; clear_value x)
    | apply Keep.ite
    | apply Keep.pinSource
    | apply Keep.tephSave
    | (refine Area.sub_trans (b := Touch.execTephraSave) ?_ har; decide)
    | apply Keep.foldl
    | dsimp -zeta only
    | split
    | intro _ _ _
    | intro _ _
    | (refine Keep.rec_rst ?_ rfl ?_; rotate_left; first | assumption | apply Keep.pinSource | apply Keep.tephSave | apply Keep.ite | apply Keep.foldl))

end Sys2Proof
end

