-- ==== Sys2Proof/Laws/KeepExec.lean ====
section
/-!
SUPPORT. `Keep` for every command at once: what a command leaves alone.
-/

namespace Sys2Proof

open Sys2Proof.Machine

/-- The area of each command. -/
def Instr.area : Instr → Nat
  | .porAssert .. => Touch.execPorAssert
  | .resetPin .. => Touch.execResetPin
  | .tamperEvent .. => Touch.execTamperEvent
  | .watchdogExpiry .. => Touch.execWatchdogExpiry
  | .rstReqCore .. => Touch.execRstReqCore
  | .rstReqSys .. => Touch.execRstReqSys
  | .fabricFatal .. => Touch.execFabricFatal
  | .sysTakesHold .. => Touch.execSysTakesHold
  | .coreTakesHold .. => Touch.execCoreTakesHold
  | .resetRelease .. => Touch.execResetRelease
  | .trimLoadDone .. => Touch.execTrimLoadDone
  | .firmwareVerifyDone .. => Touch.execFirmwareVerifyDone
  | .dramTrainingDone .. => Touch.execDramTrainingDone
  | .dramInitDone .. => Touch.execDramInitDone
  | .panelDescriptorVerified .. => Touch.execPanelDescriptorVerified
  | .panelRetryTimer .. => Touch.execPanelRetryTimer
  | .baselineLoad .. => Touch.execBaselineLoad
  | .ethBringup .. => Touch.execEthBringup
  | .dhcpTimeout .. => Touch.execDhcpTimeout
  | .hostBootTimeout .. => Touch.execHostBootTimeout
  | .inputIdleTimeout .. => Touch.execInputIdleTimeout
  | .registerWrite .. => Touch.execRegisterWrite
  | .pairLoRead .. => Touch.execPairLoRead
  | .pairHiRead .. => Touch.execPairHiRead
  | .pairLoWrite .. => Touch.execPairLoWrite
  | .pairHiWrite .. => Touch.execPairHiWrite
  | .pairAccess64 .. => Touch.execPairAccess64
  | .updateImmediate .. => Touch.execUpdateImmediate
  | .updateNextSubframe .. => Touch.execUpdateNextSubframe
  | .updateNextFrame .. => Touch.execUpdateNextFrame
  | .updateAtTime .. => Touch.execUpdateAtTime
  | .strobeApply .. => Touch.execStrobeApply
  | .msixPendingSend .. => Touch.execMsixPendingSend
  | .subframeLaunch .. => Touch.execSubframeLaunch
  | .fabricFrameStart .. => Touch.execFabricFrameStart
  | .viewCtrlWrite .. => Touch.execViewCtrlWrite
  | .persSlotLoad .. => Touch.execPersSlotLoad
  | .persSlotPreload .. => Touch.execPersSlotPreload
  | .persSlotEvict .. => Touch.execPersSlotEvict
  | .persLoadBegin .. => Touch.execPersLoadBegin
  | .persLoadDone .. => Touch.execPersLoadDone
  | .persPreloadDone .. => Touch.execPersPreloadDone
  | .persActNextFrame .. => Touch.execPersActNextFrame
  | .persActAtTime .. => Touch.execPersActAtTime
  | .persActCancel .. => Touch.execPersActCancel
  | .actSlip .. => Touch.execActSlip
  | .boundaryTokenArrive .. => Touch.execBoundaryTokenArrive
  | .swapTimeout .. => Touch.execSwapTimeout
  | .subframeTokenArrive .. => Touch.execSubframeTokenArrive
  | .drainMarkerArrive .. => Touch.execDrainMarkerArrive
  | .tokenDispatch .. => Touch.execTokenDispatch
  | .tokenForwardRetry .. => Touch.execTokenForwardRetry
  | .threadStartHeld .. => Touch.execThreadStartHeld
  | .endThread .. => Touch.execEndThread
  | .add .. => Touch.execAdd
  | .sub .. => Touch.execSub
  | .mul .. => Touch.execMul
  | .and .. => Touch.execAnd
  | .or .. => Touch.execOr
  | .xor .. => Touch.execXor
  | .shift .. => Touch.execShift
  | .ldi .. => Touch.execLdi
  | .fstep .. => Touch.execFstep
  | .sample .. => Touch.execSample
  | .laneSampleDone .. => Touch.execLaneSampleDone
  | .ld .. => Touch.execLd
  | .st .. => Touch.execSt
  | .emit .. => Touch.execEmit
  | .br .. => Touch.execBr
  | .wait .. => Touch.execWait
  | .const .. => Touch.execConst
  | .budget .. => Touch.execBudget
  | .param .. => Touch.execParam
  | .badOp .. => Touch.execBadOp
  | .droopDetect .. => Touch.execDroopDetect
  | .quadVoltageLoop .. => Touch.execQuadVoltageLoop
  | .eccCorrect .. => Touch.execEccCorrect
  | .cacheRefetch .. => Touch.execCacheRefetch
  | .flitPoison .. => Touch.execFlitPoison
  | .residueRetry .. => Touch.execResidueRetry
  | .marginAlarm .. => Touch.execMarginAlarm
  | .tileUncorrectable .. => Touch.execTileUncorrectable
  | .spareKat .. => Touch.execSpareKat
  | .tileCtrlKat .. => Touch.execTileCtrlKat
  | .tileCtrlMigrate .. => Touch.execTileCtrlMigrate
  | .tileInject .. => Touch.execTileInject
  | .migrationCopyDone .. => Touch.execMigrationCopyDone
  | .migrationRedirect .. => Touch.execMigrationRedirect
  | .migrationDrainDone .. => Touch.execMigrationDrainDone
  | .drainTimeout .. => Touch.execDrainTimeout
  | .rowBandComplete .. => Touch.execRowBandComplete
  | .rowBandDeadline .. => Touch.execRowBandDeadline
  | .signatureCheck .. => Touch.execSignatureCheck
  | .sigLearn .. => Touch.execSigLearn
  | .safeRelease .. => Touch.execSafeRelease
  | .safeForce .. => Touch.execSafeForce
  | .rtpPacket .. => Touch.execRtpPacket
  | .ssrcTimeout .. => Touch.execSsrcTimeout
  | .dmaHeadWrite .. => Touch.execDmaHeadWrite
  | .dmaStart .. => Touch.execDmaStart
  | .dmaRestart .. => Touch.execDmaRestart
  | .dmaStop .. => Touch.execDmaStop
  | .dmaDescriptorProcess .. => Touch.execDmaDescriptorProcess
  | .dmaDescriptorDone .. => Touch.execDmaDescriptorDone
  | .dmaRingResume .. => Touch.execDmaRingResume
  | .sequenceHeader .. => Touch.execSequenceHeader
  | .frameHeader .. => Touch.execFrameHeader
  | .planeAtlas .. => Touch.execPlaneAtlas
  | .maskSection .. => Touch.execMaskSection
  | .residualSet .. => Touch.execResidualSet
  | .overlayCue .. => Touch.execOverlayCue
  | .signatureCue .. => Touch.execSignatureCue
  | .keyCue .. => Touch.execKeyCue
  | .privateUnit .. => Touch.execPrivateUnit
  | .refusedUnit .. => Touch.execRefusedUnit
  | .pictureDecoded .. => Touch.execPictureDecoded
  | .decodeDeadline .. => Touch.execDecodeDeadline
  | .dpPicture .. => Touch.execDpPicture
  | .dpTimingChange .. => Touch.execDpTimingChange
  | .dpLinkLoss .. => Touch.execDpLinkLoss
  | .lzcHeadWrite .. => Touch.execLzcHeadWrite
  | .lzcRingStart .. => Touch.execLzcRingStart
  | .lzcRingRestart .. => Touch.execLzcRingRestart
  | .lzcRingStop .. => Touch.execLzcRingStop
  | .lzcJobTake .. => Touch.execLzcJobTake
  | .lzcJobEnd .. => Touch.execLzcJobEnd
  | .lzcAbort .. => Touch.execLzcAbort
  | .sinterFlattenStart .. => Touch.execSinterFlattenStart
  | .sinterFlattenDone .. => Touch.execSinterFlattenDone
  | .bufRegister .. => Touch.execBufRegister
  | .guardedWrite .. => Touch.execGuardedWrite
  | .heldWriteRelease .. => Touch.execHeldWriteRelease
  | .guardExpiry .. => Touch.execGuardExpiry
  | .calIndexWrite .. => Touch.execCalIndexWrite
  | .readyTimeout .. => Touch.execReadyTimeout
  | .bltHeadWrite .. => Touch.execBltHeadWrite
  | .bltRingStart .. => Touch.execBltRingStart
  | .bltRingRestart .. => Touch.execBltRingRestart
  | .bltRingStop .. => Touch.execBltRingStop
  | .nop .. => Touch.execNop
  | .copy .. => Touch.execCopy
  | .fill .. => Touch.execFill
  | .draw .. => Touch.execDraw
  | .bltCommandDone .. => Touch.execBltCommandDone
  | .bltAbort .. => Touch.execBltAbort
  | .cueDraw .. => Touch.execCueDraw
  | .wmArm .. => Touch.execWmArm
  | .launchHandover .. => Touch.execLaunchHandover
  | .panelTempReading .. => Touch.execPanelTempReading
  | .panelTempTimeout .. => Touch.execPanelTempTimeout
  | .lensStep .. => Touch.execLensStep
  | .rectSubmit .. => Touch.execRectSubmit
  | .blankingStart .. => Touch.execBlankingStart
  | .vcomErrorReport .. => Touch.execVcomErrorReport
  | .patternSelect .. => Touch.execPatternSelect
  | .powerFailWarning .. => Touch.execPowerFailWarning
  | .railPowerGood .. => Touch.execRailPowerGood
  | .railPgTimeout .. => Touch.execRailPgTimeout
  | .railCmdOn .. => Touch.execRailCmdOn
  | .railCmdOff .. => Touch.execRailCmdOff
  | .railCmdRestart .. => Touch.execRailCmdRestart
  | .railCmdRelearn .. => Touch.execRailCmdRelearn
  | .dischargeStart .. => Touch.execDischargeStart
  | .powerOffPhaseEnd .. => Touch.execPowerOffPhaseEnd
  | .railFaultUv .. => Touch.execRailFaultUv
  | .railFaultOc .. => Touch.execRailFaultOc
  | .railFaultShort .. => Touch.execRailFaultShort
  | .railFaultOv .. => Touch.execRailFaultOv
  | .railFaultTemp .. => Touch.execRailFaultTemp
  | .vcomOc .. => Touch.execVcomOc
  | .railRetryTimer .. => Touch.execRailRetryTimer
  | .retryCountReset .. => Touch.execRetryCountReset
  | .loadTransferDone .. => Touch.execLoadTransferDone
  | .crackTimer .. => Touch.execCrackTimer
  | .laneDetectCheck .. => Touch.execLaneDetectCheck
  | .laneTrainDone .. => Touch.execLaneTrainDone
  | .laneTrainTimeout .. => Touch.execLaneTrainTimeout
  | .laneLockDone .. => Touch.execLaneLockDone
  | .laneExchange .. => Touch.execLaneExchange
  | .laneFailedRetry .. => Touch.execLaneFailedRetry
  | .eqTrackStep .. => Touch.execEqTrackStep
  | .laneInvalidHeader .. => Touch.execLaneInvalidHeader
  | .laneLinkLost .. => Touch.execLaneLinkLost
  | .laneRetrain .. => Touch.execLaneRetrain
  | .laneTest .. => Touch.execLaneTest
  | .laneTestExit .. => Touch.execLaneTestExit
  | .laneLoopWrite .. => Touch.execLaneLoopWrite
  | .injectOne .. => Touch.execInjectOne
  | .injectRate .. => Touch.execInjectRate
  | .lanePowerDown .. => Touch.execLanePowerDown
  | .laneWake .. => Touch.execLaneWake
  | .memRequest .. => Touch.execMemRequest
  | .rhWindowEnd .. => Touch.execRhWindowEnd
  | .scrubRead .. => Touch.execScrubRead
  | .pageIdleClose .. => Touch.execPageIdleClose
  | .refreshDue .. => Touch.execRefreshDue
  | .geyserBurst .. => Touch.execGeyserBurst
  | .mr4Read .. => Touch.execMr4Read
  | .eyeTrack .. => Touch.execEyeTrack
  | .memFreqRequest .. => Touch.execMemFreqRequest
  | .memFreqChangeStart .. => Touch.execMemFreqChangeStart
  | .memFreqChangeDone .. => Touch.execMemFreqChangeDone
  | .memUnfreeze .. => Touch.execMemUnfreeze
  | .freezeCoreTimeout .. => Touch.execFreezeCoreTimeout
  | .regionWrite .. => Touch.execRegionWrite
  | .pairHello .. => Touch.execPairHello
  | .roleSettle .. => Touch.execRoleSettle
  | .driveGrantReport .. => Touch.execDriveGrantReport
  | .heartbeatSend .. => Touch.execHeartbeatSend
  | .heartbeat .. => Touch.execHeartbeat
  | .heartbeatMiss .. => Touch.execHeartbeatMiss
  | .pairAckSend .. => Touch.execPairAckSend
  | .pairAck .. => Touch.execPairAck
  | .pairResendTimeout .. => Touch.execPairResendTimeout
  | .noticeFail .. => Touch.execNoticeFail
  | .noticeHandover .. => Touch.execNoticeHandover
  | .noticePanelFault .. => Touch.execNoticePanelFault
  | .noticeMirrorDown .. => Touch.execNoticeMirrorDown
  | .panelPortLostReport .. => Touch.execPanelPortLostReport
  | .mirrorWrite .. => Touch.execMirrorWrite
  | .mirrorStrobe .. => Touch.execMirrorStrobe
  | .delta .. => Touch.execDelta
  | .snapshot .. => Touch.execSnapshot
  | .pairCmdHandover .. => Touch.execPairCmdHandover
  | .pairCmdResync .. => Touch.execPairCmdResync
  | .signatures .. => Touch.execSignatures
  | .divergenceKat .. => Touch.execDivergenceKat
  | .katResult .. => Touch.execKatResult
  | .timePacket .. => Touch.execTimePacket
  | .launchPacket .. => Touch.execLaunchPacket
  | .mailboxPacket .. => Touch.execMailboxPacket
  | .tephraPacket .. => Touch.execTephraPacket
  | .arrayHello .. => Touch.execArrayHello
  | .arrayStatus .. => Touch.execArrayStatus
  | .arrayStatusSend .. => Touch.execArrayStatusSend
  | .arrayBadPacket .. => Touch.execArrayBadPacket
  | .arrayTimeExchange .. => Touch.execArrayTimeExchange
  | .pairTimeExchange .. => Touch.execPairTimeExchange
  | .ptpMessage .. => Touch.execPtpMessage
  | .sourceTimeout .. => Touch.execSourceTimeout
  | .timeCmdAccept .. => Touch.execTimeCmdAccept
  | .timeCmdSlew .. => Touch.execTimeCmdSlew
  | .timeCmdDiscard .. => Touch.execTimeCmdDiscard
  | .slewDone .. => Touch.execSlewDone
  | .ppsOutEdge .. => Touch.execPpsOutEdge
  | .ppsInEdge .. => Touch.execPpsInEdge
  | .timeLaunchWrite .. => Touch.execTimeLaunchWrite
  | .timeLaunchFlush .. => Touch.execTimeLaunchFlush
  | .tcxoTrim .. => Touch.execTcxoTrim
  | .hostPortReset .. => Touch.execHostPortReset
  | .functionLevelReset .. => Touch.execFunctionLevelReset
  | .bar2Access .. => Touch.execBar2Access
  | .ethFrame .. => Touch.execEthFrame
  | .cageRetrainDone .. => Touch.execCageRetrainDone
  | .qsfpPlug .. => Touch.execQsfpPlug
  | .previewFrame .. => Touch.execPreviewFrame
  | .previewCaptureDone .. => Touch.execPreviewCaptureDone
  | .mbxPost .. => Touch.execMbxPost
  | .mbxAck .. => Touch.execMbxAck
  | .mbxWithdraw .. => Touch.execMbxWithdraw
  | .cmdPersLoad .. => Touch.execCmdPersLoad
  | .cmdPersActivate .. => Touch.execCmdPersActivate
  | .cmdHealth .. => Touch.execCmdHealth
  | .cmdKeyLoad .. => Touch.execCmdKeyLoad
  | .cmdAttest .. => Touch.execCmdAttest
  | .cmdCalibrate .. => Touch.execCmdCalibrate
  | .cmdTephraExport .. => Touch.execCmdTephraExport
  | .cmdRole .. => Touch.execCmdRole
  | .cmdKeyEnroll .. => Touch.execCmdKeyEnroll
  | .cmdDebugChallenge .. => Touch.execCmdDebugChallenge
  | .cmdRestart .. => Touch.execCmdRestart
  | .cmdBoot .. => Touch.execCmdBoot
  | .cmdUnknown .. => Touch.execCmdUnknown
  | .lockClaim .. => Touch.execLockClaim
  | .lockRelease .. => Touch.execLockRelease
  | .svnCommitFw .. => Touch.execSvnCommitFw
  | .svnCommitPers .. => Touch.execSvnCommitPers
  | .svnCommitDone .. => Touch.execSvnCommitDone
  | .dbgSubmit .. => Touch.execDbgSubmit
  | .dbgLock .. => Touch.execDbgLock
  | .challengeExpiry .. => Touch.execChallengeExpiry
  | .keyExpiry .. => Touch.execKeyExpiry
  | .sensorSample .. => Touch.execSensorSample
  | .thermalCut .. => Touch.execThermalCut
  | .restartAllowed .. => Touch.execRestartAllowed
  | .sensRearm .. => Touch.execSensRearm
  | .vcoreLoop .. => Touch.execVcoreLoop
  | .calReq .. => Touch.execCalReq
  | .calSchedule .. => Touch.execCalSchedule
  | .calRunDone .. => Touch.execCalRunDone
  | .calTimeout .. => Touch.execCalTimeout
  | .tephraWrite .. => Touch.execTephraWrite
  | .tephraLostEntry .. => Touch.execTephraLostEntry
  | .tephFreeze .. => Touch.execTephFreeze
  | .tephResume .. => Touch.execTephResume
  | .tephClear .. => Touch.execTephClear
  | .tephraSave .. => Touch.execTephraSave
  | .corrSummary .. => Touch.execCorrSummary
  | .alertTimeout .. => Touch.execAlertTimeout
  | .aoSupplyFall .. => Touch.execAoSupplyFall
  | .mainsReturn .. => Touch.execMainsReturn
  | .ethLinkChange .. => Touch.execEthLinkChange
  | .hostLinkUp .. => Touch.execHostLinkUp
  | .dpLinkTrained .. => Touch.execDpLinkTrained
  | .hdcpStateChange .. => Touch.execHdcpStateChange
  | .dptxHotplug .. => Touch.execDptxHotplug
  | .ptpAnnounceTimeout .. => Touch.execPtpAnnounceTimeout
  | .dhcpLeaseTimer .. => Touch.execDhcpLeaseTimer
  | .standbyRailSense .. => Touch.execStandbyRailSense
  | .railConverterCooled .. => Touch.execRailConverterCooled

/-- What every command keeps. -/
theorem Keep.exec (c : Instr) (s : Machine.State) : KeepO c.area s (Machine.exec c s) := by
  cases c with
  | porAssert a0 => exact Keep.execPorAssert (a0 := a0) (Area.sub_refl _) (Keep.refl s)
  | resetPin => exact Keep.execResetPin (Area.sub_refl _) (Keep.refl s)
  | tamperEvent => exact Keep.execTamperEvent (Area.sub_refl _) (Keep.refl s)
  | watchdogExpiry => exact Keep.execWatchdogExpiry (Area.sub_refl _) (Keep.refl s)
  | rstReqCore _ _ => exact Keep.execRstReqCore (Area.sub_refl _) (Keep.refl s)
  | rstReqSys _ _ => exact Keep.execRstReqSys (Area.sub_refl _) (Keep.refl s)
  | fabricFatal => exact Keep.execFabricFatal (Area.sub_refl _) (Keep.refl s)
  | sysTakesHold => exact Keep.execSysTakesHold (Area.sub_refl _) (Keep.refl s)
  | coreTakesHold => exact Keep.execCoreTakesHold (Area.sub_refl _) (Keep.refl s)
  | resetRelease => exact Keep.execResetRelease (Area.sub_refl _) (Keep.refl s)
  | trimLoadDone _ => exact Keep.execTrimLoadDone (Area.sub_refl _) (Keep.refl s)
  | firmwareVerifyDone _ _ => exact Keep.execFirmwareVerifyDone (Area.sub_refl _) (Keep.refl s)
  | dramTrainingDone _ => exact Keep.execDramTrainingDone (Area.sub_refl _) (Keep.refl s)
  | dramInitDone _ => exact Keep.execDramInitDone (Area.sub_refl _) (Keep.refl s)
  | panelDescriptorVerified _ _ => exact Keep.execPanelDescriptorVerified (Area.sub_refl _) (Keep.refl s)
  | panelRetryTimer => exact Keep.execPanelRetryTimer (Area.sub_refl _) (Keep.refl s)
  | baselineLoad _ _ => exact Keep.execBaselineLoad (Area.sub_refl _) (Keep.refl s)
  | ethBringup _ _ _ => exact Keep.execEthBringup (Area.sub_refl _) (Keep.refl s)
  | dhcpTimeout _ => exact Keep.execDhcpTimeout (Area.sub_refl _) (Keep.refl s)
  | hostBootTimeout _ _ => exact Keep.execHostBootTimeout (Area.sub_refl _) (Keep.refl s)
  | inputIdleTimeout => exact Keep.execInputIdleTimeout (Area.sub_refl _) (Keep.refl s)
  | registerWrite _ _ _ _ _ _ _ => exact Keep.execRegisterWrite (Area.sub_refl _) (Keep.refl s)
  | pairLoRead _ _ => exact Keep.execPairLoRead (Area.sub_refl _) (Keep.refl s)
  | pairHiRead _ _ _ => exact Keep.execPairHiRead (Area.sub_refl _) (Keep.refl s)
  | pairLoWrite _ _ _ => exact Keep.execPairLoWrite (Area.sub_refl _) (Keep.refl s)
  | pairHiWrite _ _ _ _ => exact Keep.execPairHiWrite (Area.sub_refl _) (Keep.refl s)
  | pairAccess64 _ _ _ _ => exact Keep.execPairAccess64 (Area.sub_refl _) (Keep.refl s)
  | updateImmediate _ _ => exact Keep.execUpdateImmediate (Area.sub_refl _) (Keep.refl s)
  | updateNextSubframe _ _ => exact Keep.execUpdateNextSubframe (Area.sub_refl _) (Keep.refl s)
  | updateNextFrame _ _ => exact Keep.execUpdateNextFrame (Area.sub_refl _) (Keep.refl s)
  | updateAtTime _ _ => exact Keep.execUpdateAtTime (Area.sub_refl _) (Keep.refl s)
  | strobeApply _ => exact Keep.execStrobeApply (Area.sub_refl _) (Keep.refl s)
  | msixPendingSend _ _ => exact Keep.execMsixPendingSend (Area.sub_refl _) (Keep.refl s)
  | subframeLaunch => exact Keep.execSubframeLaunch (Area.sub_refl _) (Keep.refl s)
  | fabricFrameStart => exact Keep.execFabricFrameStart (Area.sub_refl _) (Keep.refl s)
  | viewCtrlWrite _ _ => exact Keep.execViewCtrlWrite (Area.sub_refl _) (Keep.refl s)
  | persSlotLoad _ => exact Keep.execPersSlotLoad (Area.sub_refl _) (Keep.refl s)
  | persSlotPreload _ => exact Keep.execPersSlotPreload (Area.sub_refl _) (Keep.refl s)
  | persSlotEvict _ => exact Keep.execPersSlotEvict (Area.sub_refl _) (Keep.refl s)
  | persLoadBegin => exact Keep.execPersLoadBegin (Area.sub_refl _) (Keep.refl s)
  | persLoadDone => exact Keep.execPersLoadDone (Area.sub_refl _) (Keep.refl s)
  | persPreloadDone => exact Keep.execPersPreloadDone (Area.sub_refl _) (Keep.refl s)
  | persActNextFrame _ _ => exact Keep.execPersActNextFrame (Area.sub_refl _) (Keep.refl s)
  | persActAtTime _ _ => exact Keep.execPersActAtTime (Area.sub_refl _) (Keep.refl s)
  | persActCancel _ => exact Keep.execPersActCancel (Area.sub_refl _) (Keep.refl s)
  | actSlip => exact Keep.execActSlip (Area.sub_refl _) (Keep.refl s)
  | boundaryTokenArrive _ _ => exact Keep.execBoundaryTokenArrive (Area.sub_refl _) (Keep.refl s)
  | swapTimeout _ => exact Keep.execSwapTimeout (Area.sub_refl _) (Keep.refl s)
  | subframeTokenArrive _ _ => exact Keep.execSubframeTokenArrive (Area.sub_refl _) (Keep.refl s)
  | drainMarkerArrive _ _ => exact Keep.execDrainMarkerArrive (Area.sub_refl _) (Keep.refl s)
  | tokenDispatch _ _ _ => exact Keep.execTokenDispatch (Area.sub_refl _) (Keep.refl s)
  | tokenForwardRetry _ _ => exact Keep.execTokenForwardRetry (Area.sub_refl _) (Keep.refl s)
  | threadStartHeld _ _ => exact Keep.execThreadStartHeld (Area.sub_refl _) (Keep.refl s)
  | endThread _ a1 => exact Keep.execEndThread (a1 := a1) (Area.sub_refl _) (Keep.refl s)
  | add _ a1 => exact Keep.execAdd (a1 := a1) (Area.sub_refl _) (Keep.refl s)
  | sub _ a1 => exact Keep.execSub (a1 := a1) (Area.sub_refl _) (Keep.refl s)
  | mul _ a1 => exact Keep.execMul (a1 := a1) (Area.sub_refl _) (Keep.refl s)
  | and _ a1 => exact Keep.execAnd (a1 := a1) (Area.sub_refl _) (Keep.refl s)
  | or _ a1 => exact Keep.execOr (a1 := a1) (Area.sub_refl _) (Keep.refl s)
  | xor _ a1 => exact Keep.execXor (a1 := a1) (Area.sub_refl _) (Keep.refl s)
  | shift _ a1 => exact Keep.execShift (a1 := a1) (Area.sub_refl _) (Keep.refl s)
  | ldi _ a1 => exact Keep.execLdi (a1 := a1) (Area.sub_refl _) (Keep.refl s)
  | fstep _ a1 => exact Keep.execFstep (a1 := a1) (Area.sub_refl _) (Keep.refl s)
  | sample _ a1 => exact Keep.execSample (a1 := a1) (Area.sub_refl _) (Keep.refl s)
  | laneSampleDone _ _ _ _ => exact Keep.execLaneSampleDone (Area.sub_refl _) (Keep.refl s)
  | ld _ a1 => exact Keep.execLd (a1 := a1) (Area.sub_refl _) (Keep.refl s)
  | st _ a1 => exact Keep.execSt (a1 := a1) (Area.sub_refl _) (Keep.refl s)
  | emit _ a1 => exact Keep.execEmit (a1 := a1) (Area.sub_refl _) (Keep.refl s)
  | br _ a1 => exact Keep.execBr (a1 := a1) (Area.sub_refl _) (Keep.refl s)
  | wait _ a1 => exact Keep.execWait (a1 := a1) (Area.sub_refl _) (Keep.refl s)
  | const _ a1 => exact Keep.execConst (a1 := a1) (Area.sub_refl _) (Keep.refl s)
  | budget _ a1 => exact Keep.execBudget (a1 := a1) (Area.sub_refl _) (Keep.refl s)
  | param _ a1 => exact Keep.execParam (a1 := a1) (Area.sub_refl _) (Keep.refl s)
  | badOp _ a1 => exact Keep.execBadOp (a1 := a1) (Area.sub_refl _) (Keep.refl s)
  | droopDetect _ => exact Keep.execDroopDetect (Area.sub_refl _) (Keep.refl s)
  | quadVoltageLoop _ _ => exact Keep.execQuadVoltageLoop (Area.sub_refl _) (Keep.refl s)
  | eccCorrect _ _ => exact Keep.execEccCorrect (Area.sub_refl _) (Keep.refl s)
  | cacheRefetch _ _ => exact Keep.execCacheRefetch (Area.sub_refl _) (Keep.refl s)
  | flitPoison _ _ => exact Keep.execFlitPoison (Area.sub_refl _) (Keep.refl s)
  | residueRetry _ _ => exact Keep.execResidueRetry (Area.sub_refl _) (Keep.refl s)
  | marginAlarm _ => exact Keep.execMarginAlarm (Area.sub_refl _) (Keep.refl s)
  | tileUncorrectable _ a1 => exact Keep.execTileUncorrectable (a1 := a1) (Area.sub_refl _) (Keep.refl s)
  | spareKat _ _ => exact Keep.execSpareKat (Area.sub_refl _) (Keep.refl s)
  | tileCtrlKat _ _ _ => exact Keep.execTileCtrlKat (Area.sub_refl _) (Keep.refl s)
  | tileCtrlMigrate _ _ _ => exact Keep.execTileCtrlMigrate (Area.sub_refl _) (Keep.refl s)
  | tileInject _ _ => exact Keep.execTileInject (Area.sub_refl _) (Keep.refl s)
  | migrationCopyDone _ _ => exact Keep.execMigrationCopyDone (Area.sub_refl _) (Keep.refl s)
  | migrationRedirect _ => exact Keep.execMigrationRedirect (Area.sub_refl _) (Keep.refl s)
  | migrationDrainDone _ => exact Keep.execMigrationDrainDone (Area.sub_refl _) (Keep.refl s)
  | drainTimeout _ => exact Keep.execDrainTimeout (Area.sub_refl _) (Keep.refl s)
  | rowBandComplete _ _ _ => exact Keep.execRowBandComplete (Area.sub_refl _) (Keep.refl s)
  | rowBandDeadline _ _ _ _ _ => exact Keep.execRowBandDeadline (Area.sub_refl _) (Keep.refl s)
  | signatureCheck _ => exact Keep.execSignatureCheck (Area.sub_refl _) (Keep.refl s)
  | sigLearn _ _ => exact Keep.execSigLearn (Area.sub_refl _) (Keep.refl s)
  | safeRelease _ => exact Keep.execSafeRelease (Area.sub_refl _) (Keep.refl s)
  | safeForce _ => exact Keep.execSafeForce (Area.sub_refl _) (Keep.refl s)
  | rtpPacket _ => exact Keep.execRtpPacket (Area.sub_refl _) (Keep.refl s)
  | ssrcTimeout => exact Keep.execSsrcTimeout (Area.sub_refl _) (Keep.refl s)
  | dmaHeadWrite a0 _ => exact Keep.execDmaHeadWrite (a0 := a0) (Area.sub_refl _) (Keep.refl s)
  | dmaStart a0 => exact Keep.execDmaStart (a0 := a0) (Area.sub_refl _) (Keep.refl s)
  | dmaRestart a0 => exact Keep.execDmaRestart (a0 := a0) (Area.sub_refl _) (Keep.refl s)
  | dmaStop a0 => exact Keep.execDmaStop (a0 := a0) (Area.sub_refl _) (Keep.refl s)
  | dmaDescriptorProcess _ => exact Keep.execDmaDescriptorProcess (Area.sub_refl _) (Keep.refl s)
  | dmaDescriptorDone _ _ => exact Keep.execDmaDescriptorDone (Area.sub_refl _) (Keep.refl s)
  | dmaRingResume _ => exact Keep.execDmaRingResume (Area.sub_refl _) (Keep.refl s)
  | sequenceHeader => exact Keep.execSequenceHeader (Area.sub_refl _) (Keep.refl s)
  | frameHeader => exact Keep.execFrameHeader (Area.sub_refl _) (Keep.refl s)
  | planeAtlas => exact Keep.execPlaneAtlas (Area.sub_refl _) (Keep.refl s)
  | maskSection => exact Keep.execMaskSection (Area.sub_refl _) (Keep.refl s)
  | residualSet => exact Keep.execResidualSet (Area.sub_refl _) (Keep.refl s)
  | overlayCue => exact Keep.execOverlayCue (Area.sub_refl _) (Keep.refl s)
  | signatureCue => exact Keep.execSignatureCue (Area.sub_refl _) (Keep.refl s)
  | keyCue => exact Keep.execKeyCue (Area.sub_refl _) (Keep.refl s)
  | privateUnit => exact Keep.execPrivateUnit (Area.sub_refl _) (Keep.refl s)
  | refusedUnit => exact Keep.execRefusedUnit (Area.sub_refl _) (Keep.refl s)
  | pictureDecoded _ _ => exact Keep.execPictureDecoded (Area.sub_refl _) (Keep.refl s)
  | decodeDeadline _ => exact Keep.execDecodeDeadline (Area.sub_refl _) (Keep.refl s)
  | dpPicture _ => exact Keep.execDpPicture (Area.sub_refl _) (Keep.refl s)
  | dpTimingChange _ a1 _ _ _ _ _ => exact Keep.execDpTimingChange (a1 := a1) (Area.sub_refl _) (Keep.refl s)
  | dpLinkLoss => exact Keep.execDpLinkLoss (Area.sub_refl _) (Keep.refl s)
  | lzcHeadWrite a0 _ => exact Keep.execLzcHeadWrite (a0 := a0) (Area.sub_refl _) (Keep.refl s)
  | lzcRingStart a0 => exact Keep.execLzcRingStart (a0 := a0) (Area.sub_refl _) (Keep.refl s)
  | lzcRingRestart a0 => exact Keep.execLzcRingRestart (a0 := a0) (Area.sub_refl _) (Keep.refl s)
  | lzcRingStop a0 => exact Keep.execLzcRingStop (a0 := a0) (Area.sub_refl _) (Keep.refl s)
  | lzcJobTake _ => exact Keep.execLzcJobTake (Area.sub_refl _) (Keep.refl s)
  | lzcJobEnd _ => exact Keep.execLzcJobEnd (Area.sub_refl _) (Keep.refl s)
  | lzcAbort _ _ _ => exact Keep.execLzcAbort (Area.sub_refl _) (Keep.refl s)
  | sinterFlattenStart _ _ _ => exact Keep.execSinterFlattenStart (Area.sub_refl _) (Keep.refl s)
  | sinterFlattenDone _ _ => exact Keep.execSinterFlattenDone (Area.sub_refl _) (Keep.refl s)
  | bufRegister _ _ _ => exact Keep.execBufRegister (Area.sub_refl _) (Keep.refl s)
  | guardedWrite _ _ _ => exact Keep.execGuardedWrite (Area.sub_refl _) (Keep.refl s)
  | heldWriteRelease => exact Keep.execHeldWriteRelease (Area.sub_refl _) (Keep.refl s)
  | guardExpiry => exact Keep.execGuardExpiry (Area.sub_refl _) (Keep.refl s)
  | calIndexWrite a0 _ => exact Keep.execCalIndexWrite (a0 := a0) (Area.sub_refl _) (Keep.refl s)
  | readyTimeout => exact Keep.execReadyTimeout (Area.sub_refl _) (Keep.refl s)
  | bltHeadWrite a0 _ => exact Keep.execBltHeadWrite (a0 := a0) (Area.sub_refl _) (Keep.refl s)
  | bltRingStart a0 => exact Keep.execBltRingStart (a0 := a0) (Area.sub_refl _) (Keep.refl s)
  | bltRingRestart a0 => exact Keep.execBltRingRestart (a0 := a0) (Area.sub_refl _) (Keep.refl s)
  | bltRingStop a0 => exact Keep.execBltRingStop (a0 := a0) (Area.sub_refl _) (Keep.refl s)
  | nop => exact Keep.execNop (Area.sub_refl _) (Keep.refl s)
  | copy => exact Keep.execCopy (Area.sub_refl _) (Keep.refl s)
  | fill => exact Keep.execFill (Area.sub_refl _) (Keep.refl s)
  | draw => exact Keep.execDraw (Area.sub_refl _) (Keep.refl s)
  | bltCommandDone => exact Keep.execBltCommandDone (Area.sub_refl _) (Keep.refl s)
  | bltAbort _ _ => exact Keep.execBltAbort (Area.sub_refl _) (Keep.refl s)
  | cueDraw => exact Keep.execCueDraw (Area.sub_refl _) (Keep.refl s)
  | wmArm a0 _ _ => exact Keep.execWmArm (a0 := a0) (Area.sub_refl _) (Keep.refl s)
  | launchHandover => exact Keep.execLaunchHandover (Area.sub_refl _) (Keep.refl s)
  | panelTempReading _ => exact Keep.execPanelTempReading (Area.sub_refl _) (Keep.refl s)
  | panelTempTimeout => exact Keep.execPanelTempTimeout (Area.sub_refl _) (Keep.refl s)
  | lensStep => exact Keep.execLensStep (Area.sub_refl _) (Keep.refl s)
  | rectSubmit _ _ => exact Keep.execRectSubmit (Area.sub_refl _) (Keep.refl s)
  | blankingStart _ _ _ => exact Keep.execBlankingStart (Area.sub_refl _) (Keep.refl s)
  | vcomErrorReport _ => exact Keep.execVcomErrorReport (Area.sub_refl _) (Keep.refl s)
  | patternSelect _ _ => exact Keep.execPatternSelect (Area.sub_refl _) (Keep.refl s)
  | powerFailWarning => exact Keep.execPowerFailWarning (Area.sub_refl _) (Keep.refl s)
  | railPowerGood _ _ _ => exact Keep.execRailPowerGood (Area.sub_refl _) (Keep.refl s)
  | railPgTimeout _ => exact Keep.execRailPgTimeout (Area.sub_refl _) (Keep.refl s)
  | railCmdOn _ _ _ => exact Keep.execRailCmdOn (Area.sub_refl _) (Keep.refl s)
  | railCmdOff _ _ => exact Keep.execRailCmdOff (Area.sub_refl _) (Keep.refl s)
  | railCmdRestart _ _ _ => exact Keep.execRailCmdRestart (Area.sub_refl _) (Keep.refl s)
  | railCmdRelearn _ _ => exact Keep.execRailCmdRelearn (Area.sub_refl _) (Keep.refl s)
  | dischargeStart _ => exact Keep.execDischargeStart (Area.sub_refl _) (Keep.refl s)
  | powerOffPhaseEnd => exact Keep.execPowerOffPhaseEnd (Area.sub_refl _) (Keep.refl s)
  | railFaultUv _ => exact Keep.execRailFaultUv (Area.sub_refl _) (Keep.refl s)
  | railFaultOc _ => exact Keep.execRailFaultOc (Area.sub_refl _) (Keep.refl s)
  | railFaultShort _ => exact Keep.execRailFaultShort (Area.sub_refl _) (Keep.refl s)
  | railFaultOv _ => exact Keep.execRailFaultOv (Area.sub_refl _) (Keep.refl s)
  | railFaultTemp _ => exact Keep.execRailFaultTemp (Area.sub_refl _) (Keep.refl s)
  | vcomOc _ _ => exact Keep.execVcomOc (Area.sub_refl _) (Keep.refl s)
  | railRetryTimer _ => exact Keep.execRailRetryTimer (Area.sub_refl _) (Keep.refl s)
  | retryCountReset => exact Keep.execRetryCountReset (Area.sub_refl _) (Keep.refl s)
  | loadTransferDone => exact Keep.execLoadTransferDone (Area.sub_refl _) (Keep.refl s)
  | crackTimer _ _ => exact Keep.execCrackTimer (Area.sub_refl _) (Keep.refl s)
  | laneDetectCheck _ _ => exact Keep.execLaneDetectCheck (Area.sub_refl _) (Keep.refl s)
  | laneTrainDone _ _ => exact Keep.execLaneTrainDone (Area.sub_refl _) (Keep.refl s)
  | laneTrainTimeout _ => exact Keep.execLaneTrainTimeout (Area.sub_refl _) (Keep.refl s)
  | laneLockDone _ _ => exact Keep.execLaneLockDone (Area.sub_refl _) (Keep.refl s)
  | laneExchange _ _ => exact Keep.execLaneExchange (Area.sub_refl _) (Keep.refl s)
  | laneFailedRetry _ => exact Keep.execLaneFailedRetry (Area.sub_refl _) (Keep.refl s)
  | eqTrackStep _ _ _ => exact Keep.execEqTrackStep (Area.sub_refl _) (Keep.refl s)
  | laneInvalidHeader _ _ _ => exact Keep.execLaneInvalidHeader (Area.sub_refl _) (Keep.refl s)
  | laneLinkLost _ => exact Keep.execLaneLinkLost (Area.sub_refl _) (Keep.refl s)
  | laneRetrain _ _ _ => exact Keep.execLaneRetrain (Area.sub_refl _) (Keep.refl s)
  | laneTest _ _ _ => exact Keep.execLaneTest (Area.sub_refl _) (Keep.refl s)
  | laneTestExit _ _ _ => exact Keep.execLaneTestExit (Area.sub_refl _) (Keep.refl s)
  | laneLoopWrite _ _ _ => exact Keep.execLaneLoopWrite (Area.sub_refl _) (Keep.refl s)
  | injectOne _ => exact Keep.execInjectOne (Area.sub_refl _) (Keep.refl s)
  | injectRate _ _ => exact Keep.execInjectRate (Area.sub_refl _) (Keep.refl s)
  | lanePowerDown _ _ _ _ => exact Keep.execLanePowerDown (Area.sub_refl _) (Keep.refl s)
  | laneWake _ _ => exact Keep.execLaneWake (Area.sub_refl _) (Keep.refl s)
  | memRequest _ _ _ => exact Keep.execMemRequest (Area.sub_refl _) (Keep.refl s)
  | rhWindowEnd => exact Keep.execRhWindowEnd (Area.sub_refl _) (Keep.refl s)
  | scrubRead _ _ => exact Keep.execScrubRead (Area.sub_refl _) (Keep.refl s)
  | pageIdleClose _ _ => exact Keep.execPageIdleClose (Area.sub_refl _) (Keep.refl s)
  | refreshDue _ _ => exact Keep.execRefreshDue (Area.sub_refl _) (Keep.refl s)
  | geyserBurst _ => exact Keep.execGeyserBurst (Area.sub_refl _) (Keep.refl s)
  | mr4Read _ _ _ => exact Keep.execMr4Read (Area.sub_refl _) (Keep.refl s)
  | eyeTrack _ _ _ _ _ _ => exact Keep.execEyeTrack (Area.sub_refl _) (Keep.refl s)
  | memFreqRequest _ => exact Keep.execMemFreqRequest (Area.sub_refl _) (Keep.refl s)
  | memFreqChangeStart => exact Keep.execMemFreqChangeStart (Area.sub_refl _) (Keep.refl s)
  | memFreqChangeDone => exact Keep.execMemFreqChangeDone (Area.sub_refl _) (Keep.refl s)
  | memUnfreeze _ _ _ => exact Keep.execMemUnfreeze (Area.sub_refl _) (Keep.refl s)
  | freezeCoreTimeout => exact Keep.execFreezeCoreTimeout (Area.sub_refl _) (Keep.refl s)
  | regionWrite _ _ _ _ => exact Keep.execRegionWrite (Area.sub_refl _) (Keep.refl s)
  | pairHello _ _ => exact Keep.execPairHello (Area.sub_refl _) (Keep.refl s)
  | roleSettle _ _ => exact Keep.execRoleSettle (Area.sub_refl _) (Keep.refl s)
  | driveGrantReport _ => exact Keep.execDriveGrantReport (Area.sub_refl _) (Keep.refl s)
  | heartbeatSend => exact Keep.execHeartbeatSend (Area.sub_refl _) (Keep.refl s)
  | heartbeat a0 a1 _ _ a4 => exact Keep.execHeartbeat (a0 := a0) (a1 := a1) (a4 := a4) (Area.sub_refl _) (Keep.refl s)
  | heartbeatMiss => exact Keep.execHeartbeatMiss (Area.sub_refl _) (Keep.refl s)
  | pairAckSend => exact Keep.execPairAckSend (Area.sub_refl _) (Keep.refl s)
  | pairAck _ _ => exact Keep.execPairAck (Area.sub_refl _) (Keep.refl s)
  | pairResendTimeout _ => exact Keep.execPairResendTimeout (Area.sub_refl _) (Keep.refl s)
  | noticeFail _ => exact Keep.execNoticeFail (Area.sub_refl _) (Keep.refl s)
  | noticeHandover _ _ => exact Keep.execNoticeHandover (Area.sub_refl _) (Keep.refl s)
  | noticePanelFault a0 => exact Keep.execNoticePanelFault (a0 := a0) (Area.sub_refl _) (Keep.refl s)
  | noticeMirrorDown a0 => exact Keep.execNoticeMirrorDown (a0 := a0) (Area.sub_refl _) (Keep.refl s)
  | panelPortLostReport => exact Keep.execPanelPortLostReport (Area.sub_refl _) (Keep.refl s)
  | mirrorWrite _ _ => exact Keep.execMirrorWrite (Area.sub_refl _) (Keep.refl s)
  | mirrorStrobe _ _ _ _ _ => exact Keep.execMirrorStrobe (Area.sub_refl _) (Keep.refl s)
  | delta _ => exact Keep.execDelta (Area.sub_refl _) (Keep.refl s)
  | snapshot _ _ => exact Keep.execSnapshot (Area.sub_refl _) (Keep.refl s)
  | pairCmdHandover _ _ => exact Keep.execPairCmdHandover (Area.sub_refl _) (Keep.refl s)
  | pairCmdResync _ _ => exact Keep.execPairCmdResync (Area.sub_refl _) (Keep.refl s)
  | signatures _ _ _ => exact Keep.execSignatures (Area.sub_refl _) (Keep.refl s)
  | divergenceKat _ => exact Keep.execDivergenceKat (Area.sub_refl _) (Keep.refl s)
  | katResult _ _ => exact Keep.execKatResult (Area.sub_refl _) (Keep.refl s)
  | timePacket _ _ _ => exact Keep.execTimePacket (Area.sub_refl _) (Keep.refl s)
  | launchPacket _ => exact Keep.execLaunchPacket (Area.sub_refl _) (Keep.refl s)
  | mailboxPacket _ _ _ _ _ => exact Keep.execMailboxPacket (Area.sub_refl _) (Keep.refl s)
  | tephraPacket _ => exact Keep.execTephraPacket (Area.sub_refl _) (Keep.refl s)
  | arrayHello _ _ _ _ _ _ => exact Keep.execArrayHello (Area.sub_refl _) (Keep.refl s)
  | arrayStatus _ _ _ _ _ => exact Keep.execArrayStatus (Area.sub_refl _) (Keep.refl s)
  | arrayStatusSend => exact Keep.execArrayStatusSend (Area.sub_refl _) (Keep.refl s)
  | arrayBadPacket _ => exact Keep.execArrayBadPacket (Area.sub_refl _) (Keep.refl s)
  | arrayTimeExchange _ => exact Keep.execArrayTimeExchange (Area.sub_refl _) (Keep.refl s)
  | pairTimeExchange => exact Keep.execPairTimeExchange (Area.sub_refl _) (Keep.refl s)
  | ptpMessage _ _ _ => exact Keep.execPtpMessage (Area.sub_refl _) (Keep.refl s)
  | sourceTimeout => exact Keep.execSourceTimeout (Area.sub_refl _) (Keep.refl s)
  | timeCmdAccept _ _ => exact Keep.execTimeCmdAccept (Area.sub_refl _) (Keep.refl s)
  | timeCmdSlew _ _ => exact Keep.execTimeCmdSlew (Area.sub_refl _) (Keep.refl s)
  | timeCmdDiscard _ _ => exact Keep.execTimeCmdDiscard (Area.sub_refl _) (Keep.refl s)
  | slewDone => exact Keep.execSlewDone (Area.sub_refl _) (Keep.refl s)
  | ppsOutEdge => exact Keep.execPpsOutEdge (Area.sub_refl _) (Keep.refl s)
  | ppsInEdge => exact Keep.execPpsInEdge (Area.sub_refl _) (Keep.refl s)
  | timeLaunchWrite _ _ => exact Keep.execTimeLaunchWrite (Area.sub_refl _) (Keep.refl s)
  | timeLaunchFlush _ _ => exact Keep.execTimeLaunchFlush (Area.sub_refl _) (Keep.refl s)
  | tcxoTrim _ => exact Keep.execTcxoTrim (Area.sub_refl _) (Keep.refl s)
  | hostPortReset => exact Keep.execHostPortReset (Area.sub_refl _) (Keep.refl s)
  | functionLevelReset => exact Keep.execFunctionLevelReset (Area.sub_refl _) (Keep.refl s)
  | bar2Access _ _ _ _ => exact Keep.execBar2Access (Area.sub_refl _) (Keep.refl s)
  | ethFrame _ _ => exact Keep.execEthFrame (Area.sub_refl _) (Keep.refl s)
  | cageRetrainDone _ _ => exact Keep.execCageRetrainDone (Area.sub_refl _) (Keep.refl s)
  | qsfpPlug _ _ => exact Keep.execQsfpPlug (Area.sub_refl _) (Keep.refl s)
  | previewFrame => exact Keep.execPreviewFrame (Area.sub_refl _) (Keep.refl s)
  | previewCaptureDone => exact Keep.execPreviewCaptureDone (Area.sub_refl _) (Keep.refl s)
  | mbxPost _ _ _ => exact Keep.execMbxPost (Area.sub_refl _) (Keep.refl s)
  | mbxAck _ _ _ => exact Keep.execMbxAck (Area.sub_refl _) (Keep.refl s)
  | mbxWithdraw _ _ => exact Keep.execMbxWithdraw (Area.sub_refl _) (Keep.refl s)
  | cmdPersLoad => exact Keep.execCmdPersLoad (Area.sub_refl _) (Keep.refl s)
  | cmdPersActivate => exact Keep.execCmdPersActivate (Area.sub_refl _) (Keep.refl s)
  | cmdHealth => exact Keep.execCmdHealth (Area.sub_refl _) (Keep.refl s)
  | cmdKeyLoad => exact Keep.execCmdKeyLoad (Area.sub_refl _) (Keep.refl s)
  | cmdAttest => exact Keep.execCmdAttest (Area.sub_refl _) (Keep.refl s)
  | cmdCalibrate => exact Keep.execCmdCalibrate (Area.sub_refl _) (Keep.refl s)
  | cmdTephraExport => exact Keep.execCmdTephraExport (Area.sub_refl _) (Keep.refl s)
  | cmdRole => exact Keep.execCmdRole (Area.sub_refl _) (Keep.refl s)
  | cmdKeyEnroll => exact Keep.execCmdKeyEnroll (Area.sub_refl _) (Keep.refl s)
  | cmdDebugChallenge => exact Keep.execCmdDebugChallenge (Area.sub_refl _) (Keep.refl s)
  | cmdRestart => exact Keep.execCmdRestart (Area.sub_refl _) (Keep.refl s)
  | cmdBoot _ _ => exact Keep.execCmdBoot (Area.sub_refl _) (Keep.refl s)
  | cmdUnknown _ => exact Keep.execCmdUnknown (Area.sub_refl _) (Keep.refl s)
  | lockClaim _ _ => exact Keep.execLockClaim (Area.sub_refl _) (Keep.refl s)
  | lockRelease _ _ => exact Keep.execLockRelease (Area.sub_refl _) (Keep.refl s)
  | svnCommitFw _ _ => exact Keep.execSvnCommitFw (Area.sub_refl _) (Keep.refl s)
  | svnCommitPers _ _ => exact Keep.execSvnCommitPers (Area.sub_refl _) (Keep.refl s)
  | svnCommitDone => exact Keep.execSvnCommitDone (Area.sub_refl _) (Keep.refl s)
  | dbgSubmit _ _ => exact Keep.execDbgSubmit (Area.sub_refl _) (Keep.refl s)
  | dbgLock _ _ => exact Keep.execDbgLock (Area.sub_refl _) (Keep.refl s)
  | challengeExpiry => exact Keep.execChallengeExpiry (Area.sub_refl _) (Keep.refl s)
  | keyExpiry _ => exact Keep.execKeyExpiry (Area.sub_refl _) (Keep.refl s)
  | sensorSample _ => exact Keep.execSensorSample (Area.sub_refl _) (Keep.refl s)
  | thermalCut _ _ => exact Keep.execThermalCut (Area.sub_refl _) (Keep.refl s)
  | restartAllowed => exact Keep.execRestartAllowed (Area.sub_refl _) (Keep.refl s)
  | sensRearm _ _ _ => exact Keep.execSensRearm (Area.sub_refl _) (Keep.refl s)
  | vcoreLoop _ => exact Keep.execVcoreLoop (Area.sub_refl _) (Keep.refl s)
  | calReq _ _ _ => exact Keep.execCalReq (Area.sub_refl _) (Keep.refl s)
  | calSchedule => exact Keep.execCalSchedule (Area.sub_refl _) (Keep.refl s)
  | calRunDone _ => exact Keep.execCalRunDone (Area.sub_refl _) (Keep.refl s)
  | calTimeout _ => exact Keep.execCalTimeout (Area.sub_refl _) (Keep.refl s)
  | tephraWrite => exact Keep.execTephraWrite (Area.sub_refl _) (Keep.refl s)
  | tephraLostEntry => exact Keep.execTephraLostEntry (Area.sub_refl _) (Keep.refl s)
  | tephFreeze _ _ => exact Keep.execTephFreeze (Area.sub_refl _) (Keep.refl s)
  | tephResume _ _ => exact Keep.execTephResume (Area.sub_refl _) (Keep.refl s)
  | tephClear _ _ => exact Keep.execTephClear (Area.sub_refl _) (Keep.refl s)
  | tephraSave => exact Keep.execTephraSave (Area.sub_refl _) (Keep.refl s)
  | corrSummary => exact Keep.execCorrSummary (Area.sub_refl _) (Keep.refl s)
  | alertTimeout => exact Keep.execAlertTimeout (Area.sub_refl _) (Keep.refl s)
  | aoSupplyFall => exact Keep.execAoSupplyFall (Area.sub_refl _) (Keep.refl s)
  | mainsReturn => exact Keep.execMainsReturn (Area.sub_refl _) (Keep.refl s)
  | ethLinkChange _ _ => exact Keep.execEthLinkChange (Area.sub_refl _) (Keep.refl s)
  | hostLinkUp _ _ => exact Keep.execHostLinkUp (Area.sub_refl _) (Keep.refl s)
  | dpLinkTrained _ _ => exact Keep.execDpLinkTrained (Area.sub_refl _) (Keep.refl s)
  | hdcpStateChange _ => exact Keep.execHdcpStateChange (Area.sub_refl _) (Keep.refl s)
  | dptxHotplug _ _ _ _ _ => exact Keep.execDptxHotplug (Area.sub_refl _) (Keep.refl s)
  | ptpAnnounceTimeout => exact Keep.execPtpAnnounceTimeout (Area.sub_refl _) (Keep.refl s)
  | dhcpLeaseTimer _ _ _ => exact Keep.execDhcpLeaseTimer (Area.sub_refl _) (Keep.refl s)
  | standbyRailSense _ => exact Keep.execStandbyRailSense (Area.sub_refl _) (Keep.refl s)
  | railConverterCooled _ => exact Keep.execRailConverterCooled (Area.sub_refl _) (Keep.refl s)

end Sys2Proof
end

