-- ==== Sys2Proof/Laws/Only.lean ====
section
/-!
SUPPORT. The register words an operation may change: how `Only` composes, and what it says of every shared operation that
reports an event (R89 to R91, R444, R568 to R573).
-/

namespace Sys2Proof

open Sys2Proof.Machine


theorem Only.refl (W : List Nat) (s : Machine.State) : Only W s s := fun _ _ => rfl

theorem Only.trans {W : List Nat} {s t u : Machine.State} (h : Only W s t) (h' : Only W t u) : Only W s u :=
  fun k hk => (h' k hk).trans (h k hk)

theorem Only.mono {V W : List Nat} {s t : Machine.State} (h : Only V s t) (hs : ∀ k, k ∈ V → k ∈ W) : Only W s t :=
  fun k hk => h k (fun hv => hk (hs k hv))

/-- An update that leaves the register file alone. -/
theorem Only.regs {W : List Nat} {s t u : Machine.State} (h : Only W s t) (e : u.regs = t.regs) : Only W s u :=
  fun k hk => (State.word_eq_of_regs e k).trans (h k hk)

theorem Only.setWord {W : List Nat} {s t : Machine.State} {off : Nat} {w : Word} (h : Only W s t) (h1 : off ∈ W) :
    Only W s (t.setWord off w) :=
  fun k hk => (State.word_setWord_ne t w (fun e => hk (by rw [e]; exact h1))).trans (h k hk)

theorem Only.put {W : List Nat} {s t : Machine.State} {f : Fld} {v i j : Nat} (h : Only W s t) (h1 : f.off i j ∈ W)
    (h2 : f.lsb + f.width ≤ 32 ∨ f.off i j + 4 ∈ W) : Only W s (t.put f v i j) :=
  fun k hk => (State.word_put_ne t f v i j (fun e => hk (by rw [e]; exact h1))
    (h2.imp id (fun hm e => hk (by rw [e]; exact hm)))).trans (h k hk)

theorem Only.putB {W : List Nat} {s t : Machine.State} {f : Fld} {b : Bool} {i j : Nat} (h : Only W s t) (h1 : f.off i j ∈ W)
    (h2 : f.lsb + f.width ≤ 32 ∨ f.off i j + 4 ∈ W) : Only W s (t.putB f b i j) := Only.put h h1 h2

theorem Only.putI {W : List Nat} {s t : Machine.State} {f : Fld} {z : Int} {i j : Nat} (h : Only W s t) (h1 : f.off i j ∈ W)
    (h2 : f.lsb + f.width ≤ 32 ∨ f.off i j + 4 ∈ W) : Only W s (t.putI f z i j) := Only.put h h1 h2

theorem Only.bumpBy {W : List Nat} {s t : Machine.State} {f : Fld} {n i j : Nat} (h : Only W s t) (h1 : f.off i j ∈ W)
    (h2 : f.lsb + f.width ≤ 32 ∨ f.off i j + 4 ∈ W) : Only W s (t.bumpBy f n i j) := Only.put h h1 h2

theorem Only.bump {W : List Nat} {s t : Machine.State} {f : Fld} {i j : Nat} (h : Only W s t) (h1 : f.off i j ∈ W)
    (h2 : f.lsb + f.width ≤ 32 ∨ f.off i j + 4 ∈ W) : Only W s (t.bump f i j) := Only.put h h1 h2

theorem Only.count {W : List Nat} {s t : Machine.State} {f : Fld} {n i j : Nat} (h : Only W s t) (h1 : f.off i j ∈ W)
    (h2 : f.lsb + f.width ≤ 32 ∨ f.off i j + 4 ∈ W) : Only W s (t.count f n i j) := Only.put h h1 h2

theorem Only.ite {W : List Nat} {s t u : Machine.State} {c : Prop} [Decidable c] (h : Only W s t) (h' : Only W s u) :
    Only W s (if c then t else u) := by split <;> assumption

theorem Only.foldl {α : Type} {W : List Nat} {s t : Machine.State} {l : List α} {f : Machine.State → α → Machine.State}
    (hf : ∀ t' x, x ∈ l → Only W s t' → Only W s (f t' x)) (h : Only W s t) : Only W s (l.foldl f t) := by
  induction l generalizing t with
  | nil => exact h
  | cons a l ih =>
    exact ih (fun t' x hx => hf t' x (List.mem_cons_of_mem _ hx)) (hf t a List.mem_cons_self h)

/-- The two words of the pending bits of MSI-X. -/
def pbaWords : List Nat := [R.HOST_MSIX_PBA.base, R.HOST_MSIX_PBA.base + 4]

theorem Only.msixSend {W : List Nat} {s t : Machine.State} {v : Nat} (h : Only W s t) (hW : ∀ k, k ∈ pbaWords → k ∈ W) :
    Only W s (t.msixSend v) := by
  unfold Machine.State.msixSend
  split
  · exact h.regs rfl
  · exact h.put (hW _ (by decide)) (Or.inr (hW _ (by decide)))

theorem Only.irqEdge {W : List Nat} {s t : Machine.State} {b : Blk} {c : Bool} (h : Only W s t) (hW : ∀ k, k ∈ pbaWords → k ∈ W) :
    Only W s (t.irqEdge b c) := by
  unfold Machine.State.irqEdge
  split
  · exact h.msixSend hW
  · exact h

/-- A raised flag changes the block's IRQ_STATUS and the pending bits of MSI-X. -/
theorem Only.raise {W : List Nat} {s t : Machine.State} {b : Blk} {n : Nat} (h : Only W s t) (hb : b.status ∈ W)
    (hW : ∀ k, k ∈ pbaWords → k ∈ W) : Only W s (t.raise b n) := (h.setWord hb).irqEdge hW

theorem Only.raiseIf {W : List Nat} {s t : Machine.State} {c : Bool} {b : Blk} {n : Nat} (h : Only W s t) (hb : b.status ∈ W)
    (hW : ∀ k, k ∈ pbaWords → k ∈ W) : Only W s (t.raiseIf c b n) := by
  unfold Machine.State.raiseIf; split
  · exact h.raise hb hW
  · exact h

theorem eventWords_pba {W : List Nat} (hW : ∀ k, k ∈ eventWords → k ∈ W) : ∀ k, k ∈ pbaWords → k ∈ W :=
  fun k hk => hW k (by
    simp only [pbaWords, eventWords, List.mem_cons, List.not_mem_nil, or_false] at *
    rcases hk with h | h <;> simp [h])

theorem Only.tephLose {W : List Nat} {s t : Machine.State} {c : Bool} (h : Only W s t) (hW : ∀ k, k ∈ eventWords → k ∈ W) :
    Only W s (t.tephLose c) := by
  have h1 : R.TEPH_LOST.base ∈ W := hW _ (by decide)
  have h2 : Blk.status .teph ∈ W := hW _ (by decide)
  have h3 : Only W s ((if c then t.bump R.TEPH_LOST_FROZEN else t.bump R.TEPH_LOST_QUEUE).raise .teph 1) :=
    Only.raise (Only.ite (Only.bump h h1 (Or.inl (by decide))) (Only.bump h h1 (Or.inl (by decide)))) h2 (eventWords_pba hW)
  unfold Machine.State.tephLose
  cases c
  · exact h3.regs rfl
  · exact h3.regs rfl

/-- An offered entry changes no register but those of `eventWords`. -/
theorem Only.offerFull {W : List Nat} {s t : Machine.State} {src sev rung code a0 a1 : Nat} {a2 : Arg2} {inj trig : Bool}
    (h : Only W s t) (hW : ∀ k, k ∈ eventWords → k ∈ W) : Only W s (t.offerFull src sev rung code a0 a1 a2 inj trig) := by
  unfold Machine.State.offerFull
  have h1 : Only W s { t with teph := { t.teph with nextId := t.teph.nextId + 1 } } := h.regs rfl
  simp only []
  split
  · exact h1.tephLose hW
  · split
    · exact h1.tephLose hW
    · exact h.regs rfl

theorem Only.offer {W : List Nat} {s t : Machine.State} {src sev rung code a0 a1 : Nat} {a2 : Arg2}
    (h : Only W s t) (hW : ∀ k, k ∈ eventWords → k ∈ W) : Only W s (t.offer src sev rung code a0 a1 a2) := h.offerFull hW

theorem Only.ignored {W : List Nat} {s t : Machine.State} {off data : Nat} {r : Req} (h : Only W s t)
    (hW : ∀ k, k ∈ eventWords → k ∈ W) : Only W s (t.ignored off data r) := h.offerFull hW

theorem Only.recIrq {W : List Nat} {s t : Machine.State} {b : Blk} {n : Nat} (h : Only W s t)
    (hW : ∀ k, k ∈ eventWords → k ∈ W) : Only W s (t.recIrq b n) := (h.offer hW).regs rfl

theorem Only.recOther {W : List Nat} {s t : Machine.State} {off : Nat} (h : Only W s t)
    (hW : ∀ k, k ∈ eventWords → k ∈ W) : Only W s (t.recOther off) := (h.offer hW).regs rfl

theorem Only.raiseRec {W : List Nat} {s t : Machine.State} {b : Blk} {n : Nat} (h : Only W s t) (hb : b.status ∈ W)
    (hW : ∀ k, k ∈ eventWords → k ∈ W) : Only W s (t.raiseRec b n) := (h.raise hb (eventWords_pba hW)).recIrq hW

theorem Only.alert {W : List Nat} {s t : Machine.State} (h : Only W s t) : Only W s t.alert := h.regs rfl

theorem Only.sendPair {W : List Nat} {s t : Machine.State} {m : PairMsg} (h : Only W s t) : Only W s (t.sendPair m) :=
  h.regs (State.sendPair_regs t m)

theorem Only.sendNotice {W : List Nat} {s t : Machine.State} {k : Notice} {c : NoticeCause} {n : Nat} {l : Option Nat} (h : Only W s t)
    (hW : ∀ k, k ∈ eventWords → k ∈ W) : Only W s (t.sendNotice k c n l) :=
  Only.offer ((Only.sendPair (m := .notice k (causeCode c) n) h).regs rfl) hW

theorem Only.sendFail {W : List Nat} {s t : Machine.State} {c : NoticeCause} {l : Option Nat} (h : Only W s t)
    (hW : ∀ k, k ∈ eventWords → k ∈ W) : Only W s (t.sendFail c l) := by
  unfold Machine.State.sendFail; split
  · exact h.sendNotice hW
  · exact h

theorem Only.stageFail {W : List Nat} {s t : Machine.State} {n : Nat} (h : Only W s t) (h1 : R.RST_STAGE_FAIL.base ∈ W)
    (hW : ∀ k, k ∈ eventWords → k ∈ W) : Only W s (t.stageFail n) :=
  ((Only.alert (Only.put (f := R.RST_STAGE_FAIL) (i := 0) (j := 0) h h1 (Or.inl (by decide)))).offer hW).regs rfl

/-- What `Only` says of one field. -/
theorem Only.get {W : List Nat} {s t : Machine.State} (h : Only W s t) (g : Fld) (k l : Nat) (h1 : g.off k l ∉ W)
    (h2 : g.lsb + g.width ≤ 32 ∨ g.off k l + 4 ∉ W) : t.get g k l = s.get g k l :=
  State.get_congr g k l (h _ h1) (h2.imp id (h _))

/-! ### Fields that events leave alone -/

theorem Machine.State.get_raise (s : Machine.State) (b : Blk) (n : Nat) (g : Fld) (k l : Nat) (h1 : g.off k l ∉ b.status :: pbaWords)
    (h2 : g.lsb + g.width ≤ 32 ∨ g.off k l + 4 ∉ b.status :: pbaWords) : (s.raise b n).get g k l = s.get g k l :=
  ((Only.refl _ s).raise List.mem_cons_self (fun _ => List.mem_cons_of_mem _)).get g k l h1 h2

theorem Machine.State.get_offer (s : Machine.State) (src sev rung code a0 a1 : Nat) (a2 : Arg2) (g : Fld) (k l : Nat)
    (h1 : g.off k l ∉ eventWords) (h2 : g.lsb + g.width ≤ 32 ∨ g.off k l + 4 ∉ eventWords) :
    (s.offer src sev rung code a0 a1 a2).get g k l = s.get g k l :=
  ((Only.refl _ s).offer (fun _ => id)).get g k l h1 h2

theorem Machine.State.get_ignored (s : Machine.State) (off data : Nat) (r : Req) (g : Fld) (k l : Nat)
    (h1 : g.off k l ∉ eventWords) (h2 : g.lsb + g.width ≤ 32 ∨ g.off k l + 4 ∉ eventWords) :
    (s.ignored off data r).get g k l = s.get g k l :=
  ((Only.refl _ s).ignored (fun _ => id)).get g k l h1 h2

theorem Machine.State.get_recIrq (s : Machine.State) (b : Blk) (n : Nat) (g : Fld) (k l : Nat)
    (h1 : g.off k l ∉ eventWords) (h2 : g.lsb + g.width ≤ 32 ∨ g.off k l + 4 ∉ eventWords) :
    (s.recIrq b n).get g k l = s.get g k l :=
  ((Only.refl _ s).recIrq (fun _ => id)).get g k l h1 h2

theorem Machine.State.get_recOther (s : Machine.State) (off : Nat) (g : Fld) (k l : Nat)
    (h1 : g.off k l ∉ eventWords) (h2 : g.lsb + g.width ≤ 32 ∨ g.off k l + 4 ∉ eventWords) :
    (s.recOther off).get g k l = s.get g k l :=
  ((Only.refl _ s).recOther (fun _ => id)).get g k l h1 h2

theorem Machine.State.get_raiseRec (s : Machine.State) (b : Blk) (n : Nat) (g : Fld) (k l : Nat)
    (h1 : g.off k l ∉ b.status :: eventWords) (h2 : g.lsb + g.width ≤ 32 ∨ g.off k l + 4 ∉ b.status :: eventWords) :
    (s.raiseRec b n).get g k l = s.get g k l :=
  ((Only.refl _ s).raiseRec List.mem_cons_self (fun _ => List.mem_cons_of_mem _)).get g k l h1 h2

theorem Machine.State.get_sendPair (s : Machine.State) (m : PairMsg) (g : Fld) (k l : Nat) :
    (s.sendPair m).get g k l = s.get g k l :=
  ((Only.refl [] s).sendPair).get g k l (by simp) (Or.inr (by simp))

theorem Machine.State.get_sendNotice (s : Machine.State) (m : Notice) (c : NoticeCause) (n : Nat) (x : Option Nat) (g : Fld) (k l : Nat)
    (h1 : g.off k l ∉ eventWords) (h2 : g.lsb + g.width ≤ 32 ∨ g.off k l + 4 ∉ eventWords) :
    (s.sendNotice m c n x).get g k l = s.get g k l :=
  ((Only.refl _ s).sendNotice (fun _ => id)).get g k l h1 h2

theorem Machine.State.get_sendFail (s : Machine.State) (c : NoticeCause) (x : Option Nat) (g : Fld) (k l : Nat)
    (h1 : g.off k l ∉ eventWords) (h2 : g.lsb + g.width ≤ 32 ∨ g.off k l + 4 ∉ eventWords) :
    (s.sendFail c x).get g k l = s.get g k l :=
  ((Only.refl _ s).sendFail (fun _ => id)).get g k l h1 h2

@[simp] theorem Machine.State.get_alert (s : Machine.State) (g : Fld) (k l : Nat) : s.alert.get g k l = s.get g k l := rfl
@[simp] theorem Machine.State.get_emit (s : Machine.State) (e : Emit) (g : Fld) (k l : Nat) :
    (s.emit e).get g k l = s.get g k l := rfl
@[simp] theorem Machine.State.get_tookFree (s : Machine.State) (n : Nat) (g : Fld) (k l : Nat) :
    (s.tookFree n).get g k l = s.get g k l := rfl

/-! ### What a raised flag does -/

theorem Machine.State.word_msixSend_ne (s : Machine.State) (v : Nat) {k : Nat} (h : k ∉ pbaWords) : (s.msixSend v).word k = s.word k :=
  (Only.refl pbaWords s).msixSend (fun _ => id) k h

/-- The flag's bit is set; the others of the block's IRQ_STATUS stay (R89). -/
theorem Machine.State.word_raise_self (s : Machine.State) (b : Blk) (n : Nat) :
    (s.raise b n).word b.status = s.word b.status ||| BitVec.ofNat 32 (2 ^ n) := by
  have h : b.status ∉ pbaWords := by cases b <;> decide
  unfold Machine.State.raise
  rw [((Only.refl pbaWords _).irqEdge (fun _ => id)) _ h, State.word_setWord_self]

end Sys2Proof
end

