-- ==== Sys2Proof/Laws/Reach.lean ====
section
/-!
SUPPORT. The area of a command (`Instr.area`) lies in what `Instr.reach` lets it change.
-/

namespace Sys2Proof

open Sys2Proof.Machine

/-- The registers of a list as an area. -/
def Area.ofRegs : List Fld → Nat
  | [] => 0
  | f :: l => (bif Area.like f (Area.cls (Area.idx f)) then 2 ^ (32 + Area.idx f) else 0) ||| Area.ofRegs l

/-- The parts of a list as an area. -/
def Area.ofParts : List Part → Nat
  | [] => 0
  | p :: l => 2 ^ p.num ||| Area.ofParts l

/-- What a command may change as an area. The level that holds belongs to the part `rst`. -/
def Reach.mask (r : Reach) : Nat :=
  Area.ofRegs r.regs ||| Area.ofParts r.parts ||| 2 ^ 29 |||
    (match r.written with | .own => 0 | .shared => 2 ^ 31 | .every => 2 ^ 30 + 2 ^ 31 + 2 ^ 400 - 2 ^ 32)

theorem testBit_bif {b : Bool} {k n : Nat} (h : (bif b then 2 ^ k else 0).testBit n = true) : b = true ∧ n = k := by
  cases b with
  | false => simp at h
  | true => exact ⟨rfl, by rw [cond_true, Nat.testBit_two_pow] at h; simpa using (of_decide_eq_true h).symm⟩

theorem Area.ofRegs_low {l : List Fld} {n : Nat} (h : n < 32) : (Area.ofRegs l).testBit n = false := by
  induction l with
  | nil => exact Nat.zero_testBit n
  | cons f l ih =>
    rw [Area.ofRegs, Nat.testBit_or, ih, Bool.or_false]
    cases e : (bif Area.like f (Area.cls (Area.idx f)) then 2 ^ (32 + Area.idx f) else 0).testBit n with
    | false => rfl
    | true => exact absurd (testBit_bif e).2 (by omega)

/-- A register of the area is one of the list, or holds only words of one. -/
theorem Area.ofRegs_bit {l : List Fld} {n : Nat} (h : (Area.ofRegs l).testBit (32 + n) = true) :
    ∃ f ∈ l, Area.like f (Area.cls n) = true := by
  induction l with
  | nil => simp [Area.ofRegs] at h
  | cons f l ih =>
    rw [Area.ofRegs, Nat.testBit_or, Bool.or_eq_true] at h
    rcases h with h | h
    · obtain ⟨h1, h2⟩ := testBit_bif h
      have : n = Area.idx f := by omega
      exact ⟨f, List.mem_cons_self, this ▸ h1⟩
    · obtain ⟨g, hg, hl⟩ := ih h
      exact ⟨g, List.mem_cons_of_mem _ hg, hl⟩

theorem Area.ofParts_bit {l : List Part} {n : Nat} (h : (Area.ofParts l).testBit n = true) : ∃ p ∈ l, p.num = n := by
  induction l with
  | nil => simp [Area.ofParts] at h
  | cons q l ih =>
    rw [Area.ofParts, Nat.testBit_or, Bool.or_eq_true] at h
    rcases h with h | h
    · rw [Nat.testBit_two_pow] at h
      exact ⟨q, List.mem_cons_self, of_decide_eq_true h⟩
    · obtain ⟨p, hp, hn⟩ := ih h
      exact ⟨p, List.mem_cons_of_mem _ hp, hn⟩

theorem Area.covers_of_like {f g : Fld} {k : Nat} (h : Area.like g f = true) (hk : f.covers k) : g.covers k := by
  obtain ⟨i, j, hr, hk⟩ := hk
  simp only [Area.like, Bool.and_eq_true, beq_iff_eq, Bool.or_eq_true, decide_eq_true_eq] at h
  obtain ⟨⟨⟨⟨⟨e1, e2⟩, e3⟩, e4⟩, e5⟩, e6⟩ := h
  refine ⟨i, j, ⟨e4 ▸ hr.1, e5 ▸ hr.2⟩, ?_⟩
  simp only [Fld.off, e1, e2, e3]
  rcases hk with hk | ⟨hw, hk⟩
  · exact .inl hk
  · exact .inr ⟨by omega, hk⟩

/-- The area of each command lies in what it may change. -/
theorem Instr.area_sub (c : Instr) : Area.sub c.area c.reach.mask = true := by
  cases c <;> (dsimp only [Instr.area, Instr.reach]; decide +kernel)

end Sys2Proof
end

