-- ==== Sys2Proof/WellFormed.lean ====
section
/-!
DEFINITION. Which commands are well formed: every operand that numbers an element of an array of the spec, or fills a field, lies in its
range. A meaning is total all the same: a command that is not well formed changes nothing, or acts on nothing.
-/

namespace Sys2Proof

/-- A ray tile (R131). -/
def tileOk (k : Nat) : Bool := decide (k < 400)

/-- A thread of a tile (Table 5.1). -/
def threadOk (k : Nat) : Bool := decide (k < 32)

/-- An input or output port or a sample lane of a tile (Table 5.1); an Ethernet port (R497). -/
def portOk (k : Nat) : Bool := decide (k < 8)

/-- A lane (Table 13.1). -/
def laneOk (k : Nat) : Bool := decide (k < 118)

/-- A lane group (Table 13.1). -/
def groupOk (k : Nat) : Bool := decide (k < 27)

/-- A mailbox (Table 18.1). -/
def mailboxOk (k : Nat) : Bool := decide (k < 32)

/-- One of sixteen: a lock, a VCOM region, a signature region, a buffer, an update group. -/
def sixteenOk (k : Nat) : Bool := decide (k < 16)

/-- A personality slot (R108). -/
def slotOk (k : Nat) : Bool := decide (k < 8)

/-- A rail channel (Table 12.1). -/
def railOk (k : Nat) : Bool := decide (k < 6)

/-- A DRAM channel (R409). -/
def channelOk (k : Nat) : Bool := decide (k < 48)

/-- A memory controller. -/
def controllerOk (k : Nat) : Bool := decide (k < 6)

/-- A region entry or a key slot. -/
def regionIdxOk (k : Nat) : Bool := decide (k < 64)

/-- A word of a region entry. -/
def regionWordOk (k : Nat) : Bool := decide (k < 3)

/-- One of four: a quadrant, an array port, a request class, a decoder, a watermark, a calibration subject. -/
def fourOk (k : Nat) : Bool := decide (k < 4)

/-- One of two: a codec engine, a cage. -/
def twoOk (k : Nat) : Bool := decide (k < 2)

/-- A sensor (Table 20.1). -/
def sensorOk (k : Nat) : Bool := decide (k < 70)

/-- An on-die sensor, which has a comparator (R559). -/
def dieSensorOk (k : Nat) : Bool := decide (k < 64)

/-- Update groups (R81). -/
def wordOk (k : Nat) : Bool := decide (k < 65536)

/-- A KEY field. -/
def keyOk (k : Nat) : Bool := decide (k < 65536)

/-- A converter reading (R46). -/
def readingOk (k : Nat) : Bool := decide (k < 1024)

/-- A BAR0 offset (R8). -/
def offsetOk (k : Nat) : Bool := decide (k < 16777216)

/-- The pair link, or an array port. -/
def linkOk (a : Option Nat) : Bool := a.all fourOk

/-- Rail channels. -/
def railsOk (l : List Nat) : Bool := l.all railOk

/-- Whether a command is well formed. -/
def Instr.wellFormed : Instr → Bool
  | .porAssert _ => true
  | .resetPin => true
  | .tamperEvent => true
  | .watchdogExpiry => true
  | .rstReqCore _ key => keyOk key
  | .rstReqSys _ key => keyOk key
  | .fabricFatal => true
  | .sysTakesHold => true
  | .coreTakesHold => true
  | .resetRelease => true
  | .trimLoadDone reading => readingOk reading
  | .firmwareVerifyDone _ _ => true
  | .dramTrainingDone _ => true
  | .dramInitDone _ => true
  | .panelDescriptorVerified _ ports => decide (ports.length ≤ 4)
  | .panelRetryTimer => true
  | .baselineLoad _ _ => true
  | .ethBringup _ _ _ => true
  | .dhcpTimeout _ => true
  | .hostBootTimeout _ _ => true
  | .inputIdleTimeout => true
  | .registerWrite r off _ _ _ others _ => offsetOk off && others.all (fun x => decide (x.1 ≠ r))
  | .pairLoRead _ off => offsetOk off
  | .pairHiRead _ off _ => offsetOk off
  | .pairLoWrite _ off _ => offsetOk off
  | .pairHiWrite _ off _ _ => offsetOk off
  | .pairAccess64 _ off _ _ => offsetOk off
  | .updateImmediate _ groups => wordOk groups
  | .updateNextSubframe _ groups => wordOk groups
  | .updateNextFrame _ groups => wordOk groups
  | .updateAtTime _ groups => wordOk groups
  | .strobeApply g => sixteenOk g
  | .msixPendingSend _ _ => true
  | .subframeLaunch => true
  | .fabricFrameStart => true
  | .viewCtrlWrite _ _ => true
  | .persSlotLoad slot => slotOk slot
  | .persSlotPreload slot => slotOk slot
  | .persSlotEvict slot => slotOk slot
  | .persLoadBegin => true
  | .persLoadDone => true
  | .persPreloadDone => true
  | .persActNextFrame _ slot => slotOk slot
  | .persActAtTime _ slot => slotOk slot
  | .persActCancel _ => true
  | .actSlip => true
  | .boundaryTokenArrive n port => tileOk n && portOk port
  | .swapTimeout n => tileOk n
  | .subframeTokenArrive n port => tileOk n && portOk port
  | .drainMarkerArrive n port => tileOk n && portOk port
  | .tokenDispatch n port _ => tileOk n && portOk port
  | .tokenForwardRetry n port => tileOk n && portOk port
  | .threadStartHeld n port => tileOk n && portOk port
  | .endThread n t => tileOk n && threadOk t
  | .add n t => tileOk n && threadOk t
  | .sub n t => tileOk n && threadOk t
  | .mul n t => tileOk n && threadOk t
  | .and n t => tileOk n && threadOk t
  | .or n t => tileOk n && threadOk t
  | .xor n t => tileOk n && threadOk t
  | .shift n t => tileOk n && threadOk t
  | .ldi n t => tileOk n && threadOk t
  | .fstep n t => tileOk n && threadOk t
  | .sample n t => tileOk n && threadOk t
  | .laneSampleDone n lane _ _ => tileOk n && portOk lane
  | .ld n t => tileOk n && threadOk t
  | .st n t => tileOk n && threadOk t
  | .emit n t => tileOk n && threadOk t
  | .br n t => tileOk n && threadOk t
  | .wait n t => tileOk n && threadOk t
  | .const n t => tileOk n && threadOk t
  | .budget n t => tileOk n && threadOk t
  | .param n t => tileOk n && threadOk t
  | .badOp n t => tileOk n && threadOk t
  | .droopDetect n => tileOk n
  | .quadVoltageLoop q _ => fourOk q
  | .eccCorrect n _ => tileOk n
  | .cacheRefetch n _ => tileOk n
  | .flitPoison n port => tileOk n && portOk port
  | .residueRetry n _ => tileOk n
  | .marginAlarm n => tileOk n
  | .tileUncorrectable n _ => tileOk n
  | .spareKat _ _ => true
  | .tileCtrlKat _ key n => tileOk n && keyOk key
  | .tileCtrlMigrate _ key n => tileOk n && keyOk key
  | .tileInject n _ => tileOk n
  | .migrationCopyDone n _ => tileOk n
  | .migrationRedirect n => tileOk n
  | .migrationDrainDone n => tileOk n
  | .drainTimeout n => tileOk n
  | .rowBandComplete _ _ _ => true
  | .rowBandDeadline _ _ _ _ _ => true
  | .signatureCheck r => sixteenOk r
  | .sigLearn _ k => sixteenOk k
  | .safeRelease _ => true
  | .safeForce _ => true
  | .rtpPacket _ => true
  | .ssrcTimeout => true
  | .dmaHeadWrite _ _ => true
  | .dmaStart _ => true
  | .dmaRestart _ => true
  | .dmaStop _ => true
  | .dmaDescriptorProcess _ => true
  | .dmaDescriptorDone _ _ => true
  | .dmaRingResume _ => true
  | .sequenceHeader => true
  | .frameHeader => true
  | .planeAtlas => true
  | .maskSection => true
  | .residualSet => true
  | .overlayCue => true
  | .signatureCue => true
  | .keyCue => true
  | .privateUnit => true
  | .refusedUnit => true
  | .pictureDecoded e _ => fourOk e
  | .decodeDeadline _ => true
  | .dpPicture _ => true
  | .dpTimingChange _ _ _ _ _ _ _ => true
  | .dpLinkLoss => true
  | .lzcHeadWrite _ _ => true
  | .lzcRingStart _ => true
  | .lzcRingRestart _ => true
  | .lzcRingStop _ => true
  | .lzcJobTake e => twoOk e
  | .lzcJobEnd e => twoOk e
  | .lzcAbort _ e key => twoOk e && keyOk key
  | .sinterFlattenStart _ _ _ => true
  | .sinterFlattenDone _ _ => true
  | .bufRegister _ b _ => sixteenOk b
  | .guardedWrite _ _ _ => true
  | .heldWriteRelease => true
  | .guardExpiry => true
  | .calIndexWrite _ _ => true
  | .readyTimeout => true
  | .bltHeadWrite _ _ => true
  | .bltRingStart _ => true
  | .bltRingRestart _ => true
  | .bltRingStop _ => true
  | .nop => true
  | .copy => true
  | .fill => true
  | .draw => true
  | .bltCommandDone => true
  | .bltAbort _ key => keyOk key
  | .cueDraw => true
  | .wmArm _ w _ => fourOk w
  | .launchHandover => true
  | .panelTempReading _ => true
  | .panelTempTimeout => true
  | .lensStep => true
  | .rectSubmit _ _ => true
  | .blankingStart _ _ _ => true
  | .vcomErrorReport _ => true
  | .patternSelect _ _ => true
  | .powerFailWarning => true
  | .railPowerGood ch _ _ => railOk ch
  | .railPgTimeout ch => railOk ch
  | .railCmdOn _ key _ => keyOk key
  | .railCmdOff _ key => keyOk key
  | .railCmdRestart _ key _ => keyOk key
  | .railCmdRelearn _ key => keyOk key
  | .dischargeStart _ => true
  | .powerOffPhaseEnd => true
  | .railFaultUv chs => railsOk chs
  | .railFaultOc chs => railsOk chs
  | .railFaultShort chs => railsOk chs
  | .railFaultOv chs => railsOk chs
  | .railFaultTemp chs => railsOk chs
  | .vcomOc region _ => sixteenOk region
  | .railRetryTimer _ => true
  | .retryCountReset => true
  | .loadTransferDone => true
  | .crackTimer _ _ => true
  | .laneDetectCheck j _ => groupOk j
  | .laneTrainDone j _ => groupOk j
  | .laneTrainTimeout j => groupOk j
  | .laneLockDone j _ => groupOk j
  | .laneExchange j _ => groupOk j
  | .laneFailedRetry j => groupOk j
  | .eqTrackStep n _ _ => laneOk n
  | .laneInvalidHeader n _ _ => laneOk n
  | .laneLinkLost j => groupOk j
  | .laneRetrain _ key j => groupOk j && keyOk key
  | .laneTest _ key j => groupOk j && keyOk key
  | .laneTestExit _ key j => groupOk j && keyOk key
  | .laneLoopWrite _ n _ => laneOk n
  | .injectOne n => laneOk n
  | .injectRate n _ => laneOk n
  | .lanePowerDown j _ _ _ => groupOk j
  | .laneWake j _ => groupOk j
  | .memRequest c _ _ => controllerOk c
  | .rhWindowEnd => true
  | .scrubRead _ _ => true
  | .pageIdleClose ch _ => channelOk ch
  | .refreshDue ch _ => channelOk ch
  | .geyserBurst ch => channelOk ch
  | .mr4Read ch _ _ => channelOk ch
  | .eyeTrack ch _ _ _ _ _ => channelOk ch
  | .memFreqRequest _ => true
  | .memFreqChangeStart => true
  | .memFreqChangeDone => true
  | .memUnfreeze _ key c => controllerOk c && keyOk key
  | .freezeCoreTimeout => true
  | .regionWrite _ e k _ => regionIdxOk e && regionWordOk k
  | .pairHello _ _ => true
  | .roleSettle _ _ => true
  | .driveGrantReport _ => true
  | .heartbeatSend => true
  | .heartbeat _ _ _ _ _ => true
  | .heartbeatMiss => true
  | .pairAckSend => true
  | .pairAck link _ => linkOk link
  | .pairResendTimeout link => linkOk link
  | .noticeFail _ => true
  | .noticeHandover _ _ => true
  | .noticePanelFault _ => true
  | .noticeMirrorDown _ => true
  | .panelPortLostReport => true
  | .mirrorWrite off _ => offsetOk off
  | .mirrorStrobe _ _ _ _ _ => true
  | .delta _ => true
  | .snapshot _ _ => true
  | .pairCmdHandover _ key => keyOk key
  | .pairCmdResync _ key => keyOk key
  | .signatures _ _ _ => true
  | .divergenceKat _ => true
  | .katResult _ _ => true
  | .timePacket _ _ _ => true
  | .launchPacket _ => true
  | .mailboxPacket _ _ _ _ _ => true
  | .tephraPacket _ => true
  | .arrayHello a _ _ _ _ _ => fourOk a
  | .arrayStatus a _ _ _ _ => fourOk a
  | .arrayStatusSend => true
  | .arrayBadPacket a => fourOk a
  | .arrayTimeExchange a => fourOk a
  | .pairTimeExchange => true
  | .ptpMessage p _ _ => portOk p
  | .sourceTimeout => true
  | .timeCmdAccept _ key => keyOk key
  | .timeCmdSlew _ key => keyOk key
  | .timeCmdDiscard _ key => keyOk key
  | .slewDone => true
  | .ppsOutEdge => true
  | .ppsInEdge => true
  | .timeLaunchWrite _ _ => true
  | .timeLaunchFlush _ _ => true
  | .tcxoTrim _ => true
  | .hostPortReset => true
  | .functionLevelReset => true
  | .bar2Access _ _ _ _ => true
  | .ethFrame p _ => portOk p
  | .cageRetrainDone k _ => twoOk k
  | .qsfpPlug k _ => twoOk k
  | .previewFrame => true
  | .previewCaptureDone => true
  | .mbxPost _ m _ => mailboxOk m
  | .mbxAck _ m _ => mailboxOk m
  | .mbxWithdraw _ m => mailboxOk m
  | .cmdPersLoad => true
  | .cmdPersActivate => true
  | .cmdHealth => true
  | .cmdKeyLoad => true
  | .cmdAttest => true
  | .cmdCalibrate => true
  | .cmdTephraExport => true
  | .cmdRole => true
  | .cmdKeyEnroll => true
  | .cmdDebugChallenge => true
  | .cmdRestart => true
  | .cmdBoot _ _ => true
  | .cmdUnknown m => mailboxOk m
  | .lockClaim _ k => sixteenOk k
  | .lockRelease _ k => sixteenOk k
  | .svnCommitFw _ key => keyOk key
  | .svnCommitPers _ key => keyOk key
  | .svnCommitDone => true
  | .dbgSubmit _ key => keyOk key
  | .dbgLock _ key => keyOk key
  | .challengeExpiry => true
  | .keyExpiry n => regionIdxOk n
  | .sensorSample _ => true
  | .thermalCut n _ => dieSensorOk n
  | .restartAllowed => true
  | .sensRearm _ key n => sensorOk n && keyOk key
  | .vcoreLoop _ => true
  | .calReq _ key _ => keyOk key
  | .calSchedule => true
  | .calRunDone k => fourOk k
  | .calTimeout k => fourOk k
  | .tephraWrite => true
  | .tephraLostEntry => true
  | .tephFreeze _ key => keyOk key
  | .tephResume _ key => keyOk key
  | .tephClear _ key => keyOk key
  | .tephraSave => true
  | .corrSummary => true
  | .alertTimeout => true
  | .aoSupplyFall => true
  | .mainsReturn => true
  | .ethLinkChange p _ => portOk p
  | .hostLinkUp _ _ => true
  | .dpLinkTrained _ _ => true
  | .hdcpStateChange _ => true
  | .dptxHotplug _ _ _ _ _ => true
  | .ptpAnnounceTimeout => true
  | .dhcpLeaseTimer p _ _ => portOk p
  | .standbyRailSense _ => true
  | .railConverterCooled ch => railOk ch

end Sys2Proof
end

