-- ==== Sys2Proof/Tests/Slice0.lean ====
section
/-!
SUPPORT. Tests: worked examples of the spec, small commands, the ill-formed commands that each check refuses, and for each statement of
Certificates/Slice0/Obligations.lean states and operands that meet its hypotheses together.
-/

open Sys2Proof Sys2Proof.Machine

set_option linter.unusedVariables false

/-! ### States for tests -/

/-- A module that runs, all registers at their reset values. -/
def wRun : State := { State.reset with rst := { State.reset.rst with hold := .run } }

def allRegs : List RegInfo := regsCtl ++ regsRst ++ regsCare ++ regsSec ++ regsThm ++ regsCal ++ regsTime ++ regsPers ++ regsFabTile ++ regsFab ++ regsView ++ regsIntk ++ regsTdec ++ regsLzc ++ regsComp ++ regsBlt ++ regsPseq ++ regsRail ++ regsLane ++ regsMemC ++ regsMem ++ regsPair ++ regsArray ++ regsHost ++ regsEth ++ regsDprx ++ regsDptx ++ regsPrev ++ regsTeph

def rnd (seed n : Nat) : Nat := ((seed * 6364136223846793005 + 1442695040888963407) % 2^64 / 2^20) % n

def wInfo (off : Nat) : RegInfo := ((regAt off).map (fun p => p.1)).getD ⟨"", 0, 0, 0, 0, 0, 0, 0, 0, 0, 0, 0, 0, .one, 0, .const, .no, 0, 0⟩

def dummyOffer (n : Nat) : Offer := ⟨n, 5, 1, 0, 0, false, false, 0, 0, 0, .val 0, false⟩

def wBaseline : List Byte :=
  let e (typ off : Nat) : List Byte := Word.toLe 4 typ ++ Word.toLe 4 off ++ List.replicate 8 0
  let place := Word.toLe 2 384 ++ Word.toLe 2 16 ++ Word.toLe 2 16 ++ Word.toLe 2 0 ++ (List.range 384).flatMap (fun i => Word.toLe 4 i) ++ (List.range 16).flatMap (fun i => Word.toLe 2 (384 + i))
  let need := Word.toLe 4 0 ++ Word.toLe 4 1024 ++ Word.toLe 4 4320 ++ Word.toLe 2 44 ++ Word.toLe 2 1 ++ Word.toLe 4 0
  List.replicate 8 0 ++ Word.toLe 8 0x0000096000000001 ++ Word.toLe 8 0x3FFFFFFFFFF ++ Word.toLe 2 0x7F ++ Word.toLe 1 2 ++ Word.toLe 1 0xF ++ Word.toLe 4 0 ++ Word.toLe 8 7 ++
    Word.toLe 1 4 ++ List.replicate 23 0 ++ e 1 0x780 ++ e 5 0x80 ++ e 6 0x6C0 ++ e 7 0x700 ++ place ++ List.replicate (0x6C0 - 0x80 - 1576) 0 ++ need ++ List.replicate 300 0

def wFile : List (Nat × Nat) := [(0x28, 4), (0x40, 1), (0x44, 0x3000), (0x50, 2), (0x54, 0x2000), (0x60, 3), (0x64, 0x8000), (0x70, 5), (0x74, 0x2100),
  (0x2000, 2), (0x2008, 0x01000001), (0x200C, 0x00030000), (0x2010, 0x00020000), (0x2014, 0x00010001),
  (0x2100, 0x00010002), (0x2104, 100), (0x2108, 5), (0x210C, 6), (0x2110, 9)]

/-- A state whose slot 0 holds a small personality: functions 0 and 1 on tiles 5 and 6, spare 9. -/
def wBase (s : State) (extra : List (Nat × Nat)) : State :=
  let s1 := (((s.put R.MEM_SIZE 0).put R.PERS_STATE_ACTIVE_SLOT 0).put R.PERS_STATE_ACTIVE_VALID 1)
  let s2 : State := { s1 with dram := [], pers := { s1.pers with act := [(0, 5), (1, 6)] }, fab := ⟨[], [], [], [], [], [], []⟩ }
  (wFile ++ extra).foldl (fun t p => t.writeLe p.1 4 p.2) s2

/-- A plane of slot 0 with a CONFIG, a program, a dispatch table, route ports and input ports. -/
def wPlane (config prog table : List Nat) (outs : List RoutePort) (ins : List Nat) : Plane := ⟨0, 0, 0, config, prog, [], table, outs, ins⟩

/-- Tile 5 active under `p` with one thread at pc 0, which has the registers `regs`, and one that waits for a lane. -/
def wTileP (s : State) (p : Plane) (regs : List Nat) : State :=
  { (s.put R.PERS_STATE_ACTIVE_SLOT 0) with fab := ⟨[(5, { idleTile with active := some p, threads := [(2, ⟨0, regs, false, 0⟩), (4, ⟨9, [], true, 1⟩)] })], [], [], [], [], [], []⟩ }

/-- Tile 5 active with one thread at pc 0 that stands at instruction `w`; CONFIG words 8 to 15 are constants. -/
def wThreadPlane (w : Nat) : Plane := wPlane [255, 3, 4000, 2, 1, 8, 0, 0, 3, 0xABCD1234, 5, 9] [w] [] [⟨8, 6, 3, 1⟩, ⟨9, 0xFFF0, 0, 0⟩] [3]

def wThread (s : State) (w : Nat) (regs : List Nat) : State := wTileP s (wThreadPlane w) regs

def wRegs (k : Nat) : List Nat := (List.range 32).map (fun i => (i * 0x12345679 + k * 7 + 1) % 2 ^ 32)

def wb (n v : Nat) : List Byte := Word.toLe n v

def wUnit (t gen fl no frame : Nat) (p : List Byte) : VssUnit := ⟨0, wb 2 0x5356 ++ wb 1 t ++ wb 1 gen ++ wb 2 fl ++ wb 2 no ++ wb 4 frame ++ wb 4 p.length ++ p⟩

def wFrameAt (n : Nat) (time : Int) : FrameSt := ⟨n, time, true, false, some [⟨0, 0, 0, 65536, 4, 4, false, false⟩], false, true, none, 1, 1, 0, 0, 0, 0, 0, none, [], false, none⟩

/-- A frame whose presentation time is now. -/
def wFrameT (s : State) (n : Nat) : FrameSt := wFrameAt n (s.now : Int)

def wSeq : SeqHdr := ⟨[], 1, 0, 1, 10, 1, 0, 1, 0x22, 0, [⟨256, 256, 1, 255, 255⟩], [some 1], false, some 0⟩

/-- An intake with the sequence `wSeq` in effect, frame 7 pending and the units `l` in its buffer. -/
def wIntk (s : State) (l : List VssUnit) : State :=
  { s with intk := { s.intk with cur := some wSeq, next := none, frames := [wFrameT s 7], ready := l, gone := [], closed := [], shown := some 6, refused := false } }

def wDesc (a l f : Nat) : List Byte := wb 8 a ++ wb 4 l ++ wb 4 f ++ wb 16 0

def wPow (s : State) : State := { s.put R.THM_STAT_CUT 0 with thm := { s.thm with step := 0 } }

def wRing (s0 : State) : State :=
  let s := wPow s0
  let t := ((((s.put R.INTK_DMA_SIZE 4).put R.INTK_DMA_HEAD 3).put R.INTK_DMA_TAIL 2).put R.INTK_DMA_STAT_RUNNING 1).put R.INTK_DMA_STAT_HALTED 0
  { t with intk := { t.intk with src := 1, dma := none, stall := false, frames := [], ready := [], parts := [], stream := [] } }

def wRtp (s0 : State) : State :=
  let s := (wPow s0).put R.ETH_PORT_IPV4 0x0A000001 1
  let t := ((((s.put R.INTK_CTRL_ETH_PORT 1).put R.INTK_RTP_UDP_PORT 5004).put R.INTK_RTP_PT 96).put R.INTK_STAT_SSRC_LOCK 1).put R.INTK_SSRC 77
  { t with intk := { t.intk with src := 0, rtpSeq := some 10, frames := [], ready := [], parts := [], stream := [], whole := [(3, 9)] } }

/-- An RTP packet of payload type 96 to the module's IPv4 address, whose payload is a fragment header and a body. -/
def wPkt (ssrc seq frame no off flags : Nat) (body : List Byte) : RtpPacket :=
  ⟨1, .v4 0x0A000001, 5004, wb 1 0x80 ++ wb 1 96 ++ (wb 2 seq).reverse ++ wb 4 0 ++ (wb 4 ssrc).reverse ++ wb 1 flags ++ wb 1 0 ++ (wb 2 no).reverse ++ (wb 4 frame).reverse ++ (wb 4 off).reverse ++ body⟩

def wHdr : List Byte := wb 4 9 ++ wb 1 0 ++ wb 1 1 ++ wb 1 10 ++ wb 1 1 ++ wb 1 0 ++ wb 1 1 ++ wb 1 1 ++ wb 1 0 ++ wb 1 4 ++ wb 3 0 ++ wb 24 0 ++ wb 24 0 ++ wb 2 64 ++ wb 2 64 ++ wb 1 1 ++ wb 1 255 ++ wb 1 255 ++ wb 1 0

def wHdrState (s : State) (k : Nat) (l : List VssUnit) : State :=
  let t := (((((wIntk s l).put R.PERS_STATE_ACTIVE_VALID 1).put R.PERS_STATE_ACTIVE_SLOT 0).put R.PERS_SLOT_FMT 1).put R.VIEW_MODE_EFF_MODE 0x132).put R.TDEC_CTRL (k % 2) 0 |>.put R.TDEC_CTRL (k % 2) 1 |>.put R.TDEC_CTRL (k % 2) 2 |>.put R.TDEC_CTRL 0 3
  { t with view := { t.view with ctrl := 0 } }

/-- `wHdrState` with MODE_SRC at 1 and no mode of the slot listed. -/
def wHdrBad (s : State) (k : Nat) (l : List VssUnit) : State :=
  let t := (wHdrState s k l).put R.PERS_SLOT_COVER_MODES 0
  { t with view := { t.view with ctrl := 1 } }

def wAtlas : List Byte := wb 1 0 ++ wb 1 0 ++ wb 2 1 ++ wb 4 5 ++ (wb 1 0 ++ wb 1 0 ++ wb 1 1 ++ wb 1 1 ++ wb 1 0 ++ wb 1 0 ++ wb 1 0 ++ wb 1 0 ++ wb 4 1) ++ wb 5 0xAABB

def wOther (s : State) : State := { s with intk := { s.intk with cur := some { wSeq with bind := [none] } } }

def wMask (x : Nat) : List Byte := wb 2 0 ++ wb 2 1 ++ wb 1 x ++ wb 1 1 ++ List.replicate 8192 0xFF#8

def wGen2 (s : State) : State := { s with intk := { s.intk with cur := some { wSeq with gen := 2, profile := 1 } } }

def wResid (k : Nat) : List Byte := wb 1 0x22 ++ wb 1 0 ++ wb 2 (if k % 2 = 0 then 240 else 3) ++ wb 2 135 ++ wb 2 0 ++ wb 4050 3 ++ wb 48 k

def wFh (pts : Nat) : List Byte := wb 8 pts ++ wb 2 1 ++ wb 1 2 ++ wb 1 0 ++ wb 1 0 ++ wb 3 0 ++ wb 16 0

def wRef (s : State) : State := { s with intk := { s.intk with ref := some 5, rebase := false } }

def wJ (s : State) (e : Nat) : DecJob := ⟨e, 7, (s.now : Int), 3, 0, [⟨0, 0, 9, 9, 0, false, 0, 0, false⟩], [], false⟩

def wJob (s : State) (e : Nat) : State := let x := wIntk s []; { x with intk := { x.intk with jobs := [wJ s 9, wJ s e], corrupt := [] } }

/-- A picture of the size of `wSeq`'s track. -/
def wPic (k : Nat) : Picture := ⟨256, 256, 10, 1, 1, false, false, true, List.replicate 4096 (k % 1024), [], []⟩

def wDpPic : DpPicture := ⟨⟨2, 2, 8, 0, 0, false, true, true, [1, 2, 3, 4], [5, 6, 7, 8], [9, 10, 11, 12]⟩, false, 1, 60, 1, true⟩

def wDp (s : State) : State := { s with intk := { s.intk with src := 2, refused := false, dpTiming := some [2, 2, 8, 60, 1, 0, 1], frames := [] } }

def wJ2 (s : State) (e : Nat) (good : Bool) : DecJob := ⟨e, 7, (s.now : Int), 3, 0, [⟨0, 0, 1, if good then 1 else 9, 0, false, 0, 0, false⟩], [], false⟩

def wJob2 (s : State) (e : Nat) (good : Bool) : State := let x := wIntk s []; { x with intk := { x.intk with jobs := [wJ s 9, wJ2 s e good], corrupt := [] } }

/-- Region 0 grants everything to everyone in the first 256 MiB. -/
def wRegion (s : State) : State := ((s.put R.MEM_REGION_ATTR 0xFF07).put R.MEM_REGION_BASE 0).put R.MEM_REGION_LIMIT 0xFFFF

/-- A codec ring at address 0 with one job at index 0, engines enabled and free. -/
def wCodec (s : State) (d : List Byte) : State :=
  let t := ((((((((wRegion s).put R.LZC_RING_SIZE 4).put R.LZC_RING_HEAD 1).put R.LZC_RING_TAIL 0).put R.LZC_RING_STAT_RUNNING 1).put R.LZC_RING_STAT_HALTED 0).put R.LZC_CTRL 3).put R.LZC_RING_BASE 0).put R.LZC_DONE_COUNT 4
  ({ t with lzc := ⟨[], [], [0, 0], [], []⟩, dram := [] } : State).writeBytes 0 d

def wLzJob (op fmt lvl fl : Nat) : List Byte := wb 1 op ++ wb 1 fmt ++ wb 1 lvl ++ wb 1 3 ++ wb 2 fl ++ wb 1 0 ++ wb 1 0 ++ wb 8 0x1000 ++ wb 8 0x2000 ++ wb 8 0x10000 ++ wb 4 16 ++ wb 4 64 ++ wb 4 36864 ++ wb 4 0

/-- A job of the module's own running on engine `k % 2`; a finishing compression job. -/
def wLzInner (k : Nat) : LzcJob := ⟨k % 2, 2, 0, [], 0, some ⟨2, 1, 3, 100 + k, 7, if k % 3 = 0 then 0 else 0x34, 5⟩⟩

def wLzFin (k : Nat) : List Byte := wb 1 0 ++ wb 1 (k % 4) ++ wb 1 (1 + k % 9) ++ wb 1 3 ++ wb 2 0 ++ wb 1 (if k % 4 = 3 then 10 else 0) ++ wb 1 0 ++ wb 8 0x1000 ++ wb 8 0x2000 ++ wb 8 0x10000 ++ wb 4 (k % 3) ++ wb 4 64 ++ wb 4 36864 ++ wb 4 0

/-- A decompression job of 3 bytes of raw Deflate. -/
def wLzDec : List Byte := wb 1 1 ++ wb 1 0 ++ wb 1 0 ++ wb 1 0 ++ wb 2 0 ++ wb 2 0 ++ wb 8 0x1000 ++ wb 8 0x2000 ++ wb 8 0x10000 ++ wb 4 3 ++ wb 4 64 ++ wb 4 36864 ++ wb 4 0

/-- Nothing of classes 1 to 3 waits (`n` below 2), or engine `e` has made seven such starts. -/
def wCodecRun (s : State) (e n : Nat) : State :=
  if n < 2 then s else { s with lzc := { s.lzc with run := [0, 0].set e 7, queue := [⟨2, 1, 3, 5, 5, 0, 0⟩] } }

/-- A blitter ring at address 0 with the descriptor `d` at index 0. -/
def wBlt (s : State) (d : List Byte) : State :=
  let t := ((((((wRegion s).put R.BLT_RING_SIZE 4).put R.BLT_RING_HEAD 1).put R.BLT_RING_TAIL 0).put R.BLT_RING_STAT_RUNNING 1).put R.BLT_RING_STAT_HALTED 0).put R.BLT_RING_BASE 0
  let u := (List.range 16).foldl (fun a b => a.put R.COMP_BUF_FMT_VALID 0 b) (t.put R.PAIR_STAT_STATE 4)
  ({ u with blt := ⟨none, [], [], [], [], []⟩, dram := [], comp := { u.comp with heldBlt := [] } } : State).writeBytes 0 d

def wBltCmd (op fl sf df : Nat) : List Byte := wb 1 op ++ wb 1 fl ++ wb 1 0 ++ wb 1 (16 * sf + df) ++ wb 2 1 ++ wb 2 1 ++ wb 2 1 ++ wb 2 0 ++ wb 2 0 ++ wb 2 0 ++
  wb 8 0x1000 ++ wb 4 64 ++ wb 2 4 ++ wb 2 1 ++ wb 8 0x2000 ++ wb 4 64 ++ wb 2 4 ++ wb 2 1 ++ wb 8 0x123456789ABCDEF0 ++ wb 8 0

def wCueBuf (s : State) : State :=
  let t := ((((s.put R.COMP_BUF_FMT_VALID 1 3).put R.COMP_BUF_SIZE_W 16 3).put R.COMP_BUF_SIZE_H 4 3).put R.COMP_BUF_PITCH 64 3)
  (List.range 4).foldl (fun a n => (a.put R.COMP_OVLY_CFG_FRONT 3 n).put R.COMP_OVLY_CFG_BACK_VALID 0 n) t

def wPanel : PanelDesc := ⟨0, 15360, 8640, 1, 3, 4, 1, 10, 8, 1000, 1, [], []⟩

def wPseq (s : State) : State :=
  let t := (((s.put R.PAIR_STAT_STATE 4).put R.PSEQ_CTRL_PARTIAL 1).put R.VIEW_MODE_EFF_MODE 0x132)
  { t with pseq := { t.pseq with desc := some wPanel } }

def wRect (s : State) (x w : Nat) : State := (((wPseq s).put R.PSEQ_RECT_XY_X x).put R.PSEQ_RECT_XY_Y 3).put R.PSEQ_RECT_WH_W w |>.put R.PSEQ_RECT_WH_H 9

def wLane (s : State) (j st g : Nat) : State :=
  let t := (((s.grpPut R.LANE_GRP_STAT_STAGE st j).grpPut R.LANE_GRP_STAT_GEN g j).grpPut R.LANE_GRP_CTRL_EN 1 j).grpPut R.LANE_GRP_CTRL_MAX_GEN 3 j
  { t with rst := { t.rst with hold := .run }, lane := { t.lane with parked := [] } }

def wMem (s : State) (st : Nat) : State :=
  let t := (((s.put R.MEM_MAP 0x3).put R.MEM_C_STAT_STATE st 0).put R.MEM_FREQ_BUSY 0).put R.MEM_SIZE 100
  { t with dram := [], mem := ⟨true, false, [], [], [], [], [], none, none, [], [], false, none, none⟩ }

def wReq (k n : Nat) (w : Option (List Byte)) (e : EccOutcome) : MemReq := ⟨n, k % 4, 512 * (k % 3) + 8, w, 16, e⟩

/-- Pair link up (or down), PAIR_STAT.STATE `st`, fitness full. -/
def wPair (s : State) (up : Bool) (st : Nat) : State :=
  let t := (((((s.put R.LANE_GRP_STAT_STAGE (if up then 5 else 2) (leadLane 22)).put R.PAIR_STAT_STATE st).put R.RST_STRAP_ROLE 3).put R.PAIR_FIT_FIT 0xFF).put R.PAIR_FIT_PEER_FIT 0xFF).put R.LANE_PANEL_SLOWEST 3
  let u := (t.put R.LANE_PANEL_FAILED 0).put R.LANE_PANEL_LENS_OK 1
  { u with pseq := { u.pseq with desc := none, rateNum := 60, rateDen := 1 }, pair := State.reset.pair, rst := { u.rst with placeFail := false } }

def wArray (s : State) (src : Nat) : State :=
  let t := (List.range 4).foldl (fun a p => a.put R.LANE_GRP_STAT_STAGE 5 (leadLane (23 + p))) (s.put R.TIME_CTRL_SRC src)
  let u := (List.range 4).foldl (fun a p => ((a.put R.ARRAY_PORT_NBR_PRESENT 0 p).put R.ARRAY_PORT_NBR_CONFLICT 0 p)) (t.put R.PAIR_STAT_STATE 4)
  { u with array := State.reset.array, time := { u.time with pend := none, ptp := State.reset.time.ptp, launches := [] } }

/-- Every array port waits for the REPLY to its SYNC number `n`, sent at `at0`. -/
def wPorts (p : ArrayState) (n at0 : Nat) : ArrayState :=
  let f (q : PortState) : PortState := { q with syncAt := some (n, at0) }
  ⟨f p.north, f p.east, f p.south, f p.west, p.status⟩

/-- PTP over Ethernet port `k % 2`, IPv6 when `k / 2` is odd. -/
def wPtp (s : State) (k : Nat) : State := (s.put R.TIME_PTP_PORT (k % 2)).putB R.TIME_PTP_IPV6 (k / 2 % 2 = 1)

def wPend (s : State) (q : Int) : State := let t := wArray (s.put R.TIME_STAT_SLEWING 0) 1; { t with time := { t.time with pend := some ⟨q, 1⟩, rate := 1000, slew := 0 } }

def wThm (s : State) : State :=
  let t := (List.range 70).foldl (fun a n => a.put R.THM_SENS_BROKEN 0 n) (s.put R.PAIR_STAT_STATE 4)
  { (t.put R.THM_STAT_CUT 0) with thm := State.reset.thm }

def wSamples (k : Nat) : List (Option (Nat × Int)) := (List.range 70).map (fun n => if n = k then none else some (n * 3 % 50, ((900 + 40 * (k % 15) + n % 7 : Nat) : Int)))

def wOffer (k sev : Nat) : Offer := ⟨50 + k, 999, 7, sev, 1, false, true, 0x123, k, 8, .val 9, false⟩

def wRec (s : State) (q : List Offer) : State :=
  let t := ((((s.put R.TEPH_STAT_FROZEN 0).put R.TEPH_HEAD 77).put R.LANE_GRP_STAT_STAGE 1 (leadLane 22)).put R.TEPH_FREEZE_CTRL_SEV_EN 0).put R.TEPH_FREEZE_CTRL_CODE_EN 0
  { t with teph := { State.reset.teph with queue := q, nextId := 100 } }

/-! ### Small commands and worked examples -/

/-- R46, R47: the worked example of 02_first_light.md, 14.7 kΩ: READING 609, CODE 9. -/
theorem test_strap_example : strapCode 609 = 9 := by decide

/-- R46: a short and an open reading give CODE 0. -/
theorem test_strap_limits : (strapCode 15, strapCode 16, strapCode 1007, strapCode 1008) = (0, 0, 15, 0) := by decide

/-- The worked example of 06_view_synthesis.md: column 23,050, row 4,410, phase 1 of FULL ANGULAR is view 647. -/
theorem test_view_number : viewNumber 0 23050 4410 1 = 647 := by decide

/-- R171, R179, R180: the worked example of spec/06 (column 23,050, row 4,410, phase 1). -/
theorem test_ray_address : rayAddr 0 23050 4410 = ⟨3, 10, 0, 15376, 8816, 1⟩ := by decide

/-- The slopes of the same ray with the reset geometry, times 2²⁴: 4,096 × −1,088 and 4,096 × 576. -/
theorem test_ray_slope : State.reset.raySlope 0 3 10 1 = (4096 * (-1088), 4096 * 576) := by decide

/-- The coordinates of the same ray on planes 0 and 1, and the step on plane 0. -/
theorem test_ray_coords :
    refCoord 15376 (4096 * (-1088)) (-65536) 0 16384 = 496384 ∧ refCoord 8816 (4096 * 576) (-65536) 0 16384 = 279808 ∧
    refCoord 15376 (4096 * (-1088)) 0 64 32768 = 984032 ∧ stepCoord 4096 (-65536) 16384 = -1024 := by decide

/-- R287: AUTO of the worked example of spec/09 (MAXCLL 4,000, Lp 1,500, K 900, L 2,000) is 1,314.9. -/
theorem test_tone_auto : (10 * autoCurve 4000 1500 900 2000 + 1 / 2).floor = 13149 := by decide +kernel

/-- R284, R607: equal primaries leave a colour unchanged, and white stays white between primaries of one white. -/
theorem test_tone_primaries : toPanel bt709 bt709 (1, 2, 3) = (1, 2, 3) ∧ toPanel bt709 bt2020 (1, 1, 1) = (1, 1, 1) := by decide +kernel

/-- R188: the residual of the same ray: 5 × 5 anchors, corrections +40, +16, −8 and 0. -/
theorem test_ray_residual :
    bracket 7 32 5 = (0, 1, 231) ∧ bracket 20 32 5 = (2, 3, 149) ∧
    (⟨0x55, 1, 1, [(0, List.replicate 30 0 ++ [0, 40, 0, 0, 16, 0] ++ List.replicate 9 0 ++ [0, -8, 0, 0, 0, 0])]⟩ : ResidSet).correction 5 5 7 20 0 0 1
      (32, 32) = 1846 := by decide

/-- The same example, plane 0: sC = 294,400 and sA = 486,400 of the four texels at fx = fy = 128. -/
theorem test_bilinear :
    (bilinear (1000 * 1) 1200 1000 1400 128 128, bilinear 1600 1600 2000 2400 128 128) = (294400, 486400) := by decide

/-- The same example, plane 1 under plane 0: C = 589,425 and A = 1,048,320. -/
theorem test_over :
    (let r := (RayAcc.composite ⟨294400, 486400, 28, 1, false⟩ 550400 1048320); (r.c, r.a)) = (589425, 1048320) := by decide

/-- The same example: DITHER 2 over subframes 1,000 to 1,003 gives 2,309, 2,309, 2,310, 2,310 in some order of launch, and 2,309 at 1,001. -/
theorem test_dither :
    dither 2 1001 4410 23050 591271 = 2309 ∧
    ((List.range 4).map (fun k => dither 2 (1000 + k) 4410 23050 591271)).sum = 2 * 2309 + 2 * 2310 := by decide

/-- The worked example of 11_panel_sequencer.md: W = 132 at 30.5 °C between 15.0 °C and 45.0 °C; the history of T = 3,000 is 46. -/
theorem test_uniformity_weight : unifWeight 305 150 450 = 132 ∧ histOf 3000 = 46 := by decide

/-- The same example: the drive code of P = 1,300 and T = 3,000 in band 4, green, is 3,424. -/
theorem test_overdrive :
    ((((((wRun.put R.PSEQ_OD 3240 13 (17 * 5 + 11)).put R.PSEQ_OD 3200 13 (17 * 6 + 11)).put R.PSEQ_OD 3500 13 (17 * 5 + 12)).put
      R.PSEQ_OD 3460 13 (17 * 6 + 12))).overdrive 4 23050 1300 3000) = 3424 := by decide

/-- 11_panel_sequencer.md: at 60 Hz ANGULAR t(1), t(2) and t(4) lie 4,166,667, 8,333,333 and 16,666,667 ns after ANCHOR. -/
theorem test_grid :
    (let s := { wRun with pseq := { wRun.pseq with grid := 0, rateNum := 240, rateDen := 1 } }
     (s.gridTime 1, s.gridTime 2, s.gridTime 4)) = (4166667, 8333333, 16666667) := by decide

/-- The worked example of 10_overlay_blitter.md: a mask byte of 128 widens to 2,056, which narrows to 128. -/
theorem test_widen_narrow : widen 8 128 = 2056 ∧ narrow 8 2056 = 128 := by decide

/-- The worked example of 07_scene_stream_intake.md: a 1,920 × 1,200 picture has SCALE 9,102, ORG (196,565, 0) and 30 × 19 tiles. -/
theorem test_dp_entry : wRun.dpEntry 1920 1200 = ⟨0, 196565, 0, 9102, 30, 19, false, false⟩ := by decide

set_option maxRecDepth 10000 in
/-- CRC-32C of the nine digits 1 to 9 is 0xE3069283 (the check value of the algorithm the spec names). -/
theorem test_crc32c : crc32c [0x31, 0x32, 0x33, 0x34, 0x35, 0x36, 0x37, 0x38, 0x39] = 0xE3069283 := by decide

/-- The worked example of 05_ray_fabric.md: P = 10 less ceil(10 / 16) and 9 more is 18, score 237; 18 − 2 + 248 = 264, score 0. -/
theorem test_health_example :
    (10 - Word.cdiv 10 16 + 9, 255 - min 255 (10 - Word.cdiv 10 16 + 9), 18 - Word.cdiv 18 16 + 248) = (18, 237, 264) := by decide

/-- The table gives no row bits, so no word spells a command. -/
theorem test_decode_none (nbits w : Nat) : decodeTableWord nbits w = none := rfl

/-- An empty queue idles: one nanosecond of RAW in a module that runs, none while POR holds. -/
theorem test_idle : (∃ t, step wRun = .next t ∧ t.time.raw = 1) ∧ (∃ t, step State.reset = .next t ∧ t.time.raw = 0) :=
  ⟨⟨_, rfl, by decide⟩, ⟨_, rfl, by decide⟩⟩

/-- R76: a HI write commits both halves. Here of PERS_SLOT[0].SRC. -/
theorem test_pair_write :
    (∃ t, exec (.pairLoWrite .caretaker R.PERS_SLOT_SRC.base 0x89ABCDEF#32) wRun = .next t ∧
      ∃ u, exec (.pairHiWrite .caretaker (R.PERS_SLOT_SRC.base + 4) 0x01234567#32 false) t = .next u ∧
        u.get R.PERS_SLOT_SRC = 0x0123456789ABCDEF) := ⟨_, rfl, _, rfl, by decide⟩

/-- R61: a RST_REQ write with the wrong key enters no level. -/
theorem test_rst_req_key : ∃ t, exec (.rstReqSys .host 0) wRun = .next t ∧ t.rst.hold = .run ∧ t.rst.sysEntering = false :=
  ⟨_, rfl, by decide⟩

/-- R36: RESET_N sets RST_CAUSE.PIN. -/
theorem test_reset_pin : ∃ t, exec .resetPin wRun = .next t ∧ t.flag R.RST_CAUSE_PIN = true := ⟨_, rfl, by decide⟩

/-- At reset the memories have their canonical form. -/
theorem reset_memoriesWf : State.memoriesWf State.reset = true := by decide

/-! ### Well-formedness: one ill-formed command per check, and one that is well formed -/

theorem test_wf_key : Instr.wellFormed (.rstReqCore .host 65536) = false ∧ Instr.wellFormed (.rstReqCore .host 65535) = true := by decide

theorem test_wf_reading : Instr.wellFormed (.trimLoadDone 1024) = false ∧ Instr.wellFormed (.trimLoadDone 1023) = true := by decide

theorem test_wf_offset : Instr.wellFormed (.pairLoRead .host 16777216) = false ∧ Instr.wellFormed (.pairLoRead .host 16777215) = true := by decide

theorem test_wf_groups : Instr.wellFormed (.updateImmediate .host 65536) = false ∧ Instr.wellFormed (.updateImmediate .host 65535) = true := by decide

theorem test_wf_sixteen : Instr.wellFormed (.strobeApply 16) = false ∧ Instr.wellFormed (.strobeApply 15) = true := by decide

theorem test_wf_slot : Instr.wellFormed (.persSlotLoad 8) = false ∧ Instr.wellFormed (.persSlotLoad 7) = true := by decide

theorem test_wf_tile : Instr.wellFormed (.swapTimeout 400) = false ∧ Instr.wellFormed (.swapTimeout 399) = true := by decide

theorem test_wf_thread : Instr.wellFormed (.endThread 0 32) = false ∧ Instr.wellFormed (.endThread 0 31) = true := by decide

theorem test_wf_port : Instr.wellFormed (.boundaryTokenArrive 0 8) = false ∧ Instr.wellFormed (.boundaryTokenArrive 0 7) = true := by decide

theorem test_wf_four : Instr.wellFormed (.calRunDone 4) = false ∧ Instr.wellFormed (.calRunDone 3) = true := by decide

theorem test_wf_two : Instr.wellFormed (.lzcJobTake 2) = false ∧ Instr.wellFormed (.lzcJobTake 1) = true := by decide

theorem test_wf_rail : Instr.wellFormed (.railPowerGood 6 0 0) = false ∧ Instr.wellFormed (.railPowerGood 5 0 0) = true := by decide

theorem test_wf_rails : Instr.wellFormed (.railFaultUv [0, 6]) = false ∧ Instr.wellFormed (.railFaultUv [0, 5]) = true := by decide

theorem test_wf_group : Instr.wellFormed (.laneDetectCheck 27 true) = false ∧ Instr.wellFormed (.laneDetectCheck 26 true) = true := by decide

theorem test_wf_lane : Instr.wellFormed (.eqTrackStep 118 true true) = false ∧ Instr.wellFormed (.eqTrackStep 117 true true) = true := by decide

theorem test_wf_channel : Instr.wellFormed (.pageIdleClose 48 0) = false ∧ Instr.wellFormed (.pageIdleClose 47 0) = true := by decide

theorem test_wf_controller : Instr.wellFormed (.memUnfreeze .host 0 6) = false ∧ Instr.wellFormed (.memUnfreeze .host 0 5) = true := by decide

theorem test_wf_regionIdx : Instr.wellFormed (.keyExpiry 64) = false ∧ Instr.wellFormed (.keyExpiry 63) = true := by decide

theorem test_wf_regionWord : Instr.wellFormed (.regionWrite .host 0 3 0) = false ∧ Instr.wellFormed (.regionWrite .host 0 2 0) = true := by decide

theorem test_wf_mailbox : Instr.wellFormed (.mbxPost .host 32 0) = false ∧ Instr.wellFormed (.mbxPost .host 31 0) = true := by decide

theorem test_wf_dieSensor : Instr.wellFormed (.thermalCut 64 0) = false ∧ Instr.wellFormed (.thermalCut 63 0) = true := by decide

theorem test_wf_sensor : Instr.wellFormed (.sensRearm .host 0 70) = false ∧ Instr.wellFormed (.sensRearm .host 0 69) = true := by decide

/-! ### Witnesses of the hypotheses of the statements over all states -/

theorem wit_IdleStepPassesOneNanosecond : ∃ s : State, s.pending = [] ∧ s.rst.hold = .run := ⟨wRun, rfl, rfl⟩

theorem wit_MemoriesStayCanonical : ∃ s t : State, State.memoriesWf s = true ∧ step s = .next t :=
  ⟨{ wRun with pending := [.resetPin] }, _, by decide, rfl⟩

theorem wit_OtpOnlyGrows : ∃ (c : Instr) (s t : State), Part.otp ∉ c.reach.parts ∧ exec c s = .next t := ⟨.resetPin, wRun, _, by decide, rfl⟩

theorem wit_QueueIsFirstInFirstOut : ∃ (c : Instr) (s t : State), exec c s = .next t ∧ step { s with pending := [c] } = .next t :=
  ⟨.resetPin, wRun, _, rfl, rfl⟩

theorem wit_FrameOfEveryCommand : ∃ (c : Instr) (s t : State), exec c s = .next t := ⟨.resetPin, wRun, _, rfl⟩

theorem wit_FieldReadAfterWrite_1 : ∃ (f : Fld) (i j : Nat), f.lsb + f.width ≤ 64 ∧ f.inRange i j := ⟨R.PSEQ_OD, 23, 288, by decide⟩

theorem wit_FieldReadAfterWrite_2 : ∃ (f g : Fld) (i j k l : Nat), f.apart i j g k l := ⟨R.RST_CAUSE_PIN, R.RST_CAUSE_TAMPER, 0, 0, 0, 0, by decide⟩

theorem wit_FieldReadAfterWrite_3 : ∃ (f : Fld) (i j : Nat), ¬ f.inRange i j := ⟨R.PSEQ_OD, 24, 0, by decide⟩

theorem wit_RaisedFlag_1 : ∃ (s : State) (b : Blk), s.irqLine b = true := ⟨(wRun.setWord (Blk.status .pers) 1).setWord (Blk.status .pers + 4) 1, .pers, by decide⟩

theorem wit_RaisedFlag_2 : ∃ (s : State) (b : Blk) (n v : Nat), n < 32 ∧ s.irqLine b = false ∧ (s.word (b.status + 4)).getLsbD n = true ∧
    s.get R.CTL_IRQ_ROUTE b.num = v ∧ v < 64 ∧ s.host.msixEnable = true ∧ s.host.functionMask = false ∧ s.flag R.HOST_MSIX_CTRL v = false :=
  ⟨{ (wRun.setWord (Blk.status .pers + 4) 1).put R.HOST_MSIX_CTRL 0 (wRun.get R.CTL_IRQ_ROUTE (Blk.num .pers)) with
      host := { wRun.host with msixEnable := true, functionMask := false } }, .pers, 0, _, by decide, by decide, by decide, rfl, by decide⟩

theorem wit_RaisedFlag_3 : ∃ (s : State) (b : Blk) (n v : Nat), n < 32 ∧ s.irqLine b = false ∧ (s.word (b.status + 4)).getLsbD n = true ∧
    s.get R.CTL_IRQ_ROUTE b.num = v ∧ v < 64 ∧ s.host.msixEnable = false :=
  ⟨wRun.setWord (Blk.status .pers + 4) 1, .pers, 0, _, by decide, by decide, by decide, rfl, by decide, rfl⟩

/-- A small panel that shows one plane of one tile. -/
def wPlanePanel : State :=
  let s := (wRun.putDepth 0 ⟨0, 0, 0, 65536, 1, 1, false, false⟩).put R.VIEW_DEPTH_COUNT 1
  { s with pseq := { s.pseq with desc := some ⟨0, 1, 130, 1, 3, 4, 1, 10, 8, 1000, 1, [], []⟩ } }

theorem wit_Rays_1 : ∃ (s : State) (c r p : Nat) (e : RayEntry) (u v : Int),
    s.rayCoords (s.get R.VIEW_MODE_EFF_MODE) p (rayAddr (s.get R.VIEW_MODE_EFF_MODE) c r) e = some (u, v) :=
  ⟨wPlanePanel, 30, 20, 0, wPlanePanel.planeEntry 0, _, _, rfl⟩

theorem wit_Rays_3 : ∃ (s : State) (region : Nat), depthValid s.depthTable = true ∧
    ((s.rayStack region).filter (fun e => decide (e.kind = .background))).length ≤ 1 ∧ (s.rayStack region).length = 1 :=
  ⟨wPlanePanel, 0, by decide, by decide, by decide⟩

theorem wit_Rays_4 : ∃ (s : State) (k h row x : Nat) (own : List Ray), h < 2 ∧ row ∈ s.bandRows h k ∧ x < s.panelW ∧
    (∀ q ∈ own, ¬ (q.row = row ∧ q.x = x)) :=
  ⟨wPlanePanel, 0, 1, 66, 0, [⟨65, 0, 1, 2, 3, 0, 0⟩], by decide, by decide, by decide, by decide⟩

/-! ### Witnesses of the hypotheses of each clause of the statements about commands -/

def wClear : State := wRun.put R.INTK_CTRL_REQ_ENC 0

theorem wUnit_read4 (p : List Byte) (hl : p.length = 8198) :
    (wIntk wClear [wUnit 4 1 0 0 7 p]).takeType 4 = some (wUnit 4 1 0 0 7 p, wIntk wClear []) ∧
    (wIntk wClear []).unitFrame (wUnit 4 1 0 0 7 p) = (wIntk wClear [], some (wFrameT wClear 7)) ∧
    ((wIntk wClear []).onFrame 7 (fun x => { x with maskIn := x.maskIn + 1 })).openUnit (wUnit 4 1 0 0 7 p) =
      ((wIntk wClear []).onFrame 7 (fun x => { x with maskIn := x.maskIn + 1 }), some p) := by
  obtain ⟨b, hb, hf, ht, hl2, hp, hg, hn⟩ : ∃ b : List Byte, wUnit 4 1 0 0 7 p = ⟨0, b⟩ ∧ uFlags b = 0 ∧ uType b = 4 ∧ uLen b = 8198 ∧
      uPayload b = p ∧ uGen b = 1 ∧ uFrame b = 7 := by
    have hu : uLen ([0x56#8, 0x53#8, 4#8, 1#8, 0#8, 0#8, 0#8, 0#8, 7#8, 0#8, 0#8, 0#8, 6#8, 32#8, 0#8, 0#8] ++ p) = 8198 := by simp [uLen, leAt, Word.le]
    refine ⟨[0x56#8, 0x53#8, 4#8, 1#8, 0#8, 0#8, 0#8, 0#8, 7#8, 0#8, 0#8, 0#8, 6#8, 32#8, 0#8, 0#8] ++ p, ?_, rfl, rfl, hu, ?_, rfl, rfl⟩
    · unfold wUnit
      rw [hl]
      rfl
    · unfold uPayload
      rw [hu]
      exact List.take_of_length_le (Nat.le_of_eq hl)
  rw [hb]
  have hr : ((wIntk wClear []).onFrame 7 (fun x => { x with maskIn := x.maskIn + 1 })).flag R.INTK_CTRL_REQ_ENC = false := by decide
  have hs : ∀ l, (wIntk wClear l).unitSeqs 7 = [wSeq] := fun _ => rfl
  have hw : ∀ l, (wIntk wClear l).intk.frames = [wFrameT wClear 7] := fun _ => rfl
  have hbad : (wIntk wClear [⟨0, b⟩]).unitBad b = false := by
    simp only [State.unitBad, ht, hl2, hf, hg, hn, hs]
    rfl
  have hdue : (wIntk wClear [⟨0, b⟩]).unitDue b = true := by
    simp only [State.unitDue, hn, hw]
    simp [wFrameT, wFrameAt]
  have hlate : (wIntk wClear []).frameLate 7 = false := by decide
  refine ⟨?_, ?_, ?_⟩
  · have hq : (fun u : VssUnit => decide (uType u.bytes = 4) && !(wIntk wClear [⟨0, b⟩]).unitBad u.bytes &&
        (wIntk wClear [⟨0, b⟩]).unitDue u.bytes) ⟨0, b⟩ = true := by simp [ht, hbad, hdue]
    have hfind : ∀ (f : VssUnit → Bool) (u : VssUnit), f u = true → [u].find? f = some u := fun f u h => by simp [h]
    unfold State.takeType State.takeUnit
    rw [show (wIntk wClear [⟨0, b⟩]).intk.ready = [⟨0, b⟩] from rfl, hfind _ _ hq]
    show some (_, wIntk wClear ([(⟨0, b⟩ : VssUnit)].erase ⟨0, b⟩)) = _
    rw [List.erase_cons_head]
  · unfold State.unitFrame
    simp only [hn, hlate]
    rfl
  · simp only [State.openUnit, hf, ht, hp, hr]
    rfl

theorem wUnit_read5 (p : List Byte) (hl : p.length = 4106) :
    (wIntk wClear [wUnit 5 1 0 0 7 p]).takeType 5 = some (wUnit 5 1 0 0 7 p, wIntk wClear []) ∧
    (wIntk wClear []).unitFrame (wUnit 5 1 0 0 7 p) = (wIntk wClear [], some (wFrameT wClear 7)) ∧
    ((wIntk wClear []).onFrame 7 (fun x => { x with residIn := x.residIn + 1 })).openUnit (wUnit 5 1 0 0 7 p) =
      ((wIntk wClear []).onFrame 7 (fun x => { x with residIn := x.residIn + 1 }), some p) := by
  obtain ⟨b, hb, hf, ht, hl2, hp, hg, hn⟩ : ∃ b : List Byte, wUnit 5 1 0 0 7 p = ⟨0, b⟩ ∧ uFlags b = 0 ∧ uType b = 5 ∧ uLen b = 4106 ∧
      uPayload b = p ∧ uGen b = 1 ∧ uFrame b = 7 := by
    have hu : uLen ([0x56#8, 0x53#8, 5#8, 1#8, 0#8, 0#8, 0#8, 0#8, 7#8, 0#8, 0#8, 0#8, 10#8, 16#8, 0#8, 0#8] ++ p) = 4106 := by simp [uLen, leAt, Word.le]
    refine ⟨[0x56#8, 0x53#8, 5#8, 1#8, 0#8, 0#8, 0#8, 0#8, 7#8, 0#8, 0#8, 0#8, 10#8, 16#8, 0#8, 0#8] ++ p, ?_, rfl, rfl, hu, ?_, rfl, rfl⟩
    · unfold wUnit
      rw [hl]
      rfl
    · unfold uPayload
      rw [hu]
      exact List.take_of_length_le (Nat.le_of_eq hl)
  rw [hb]
  have hr : ((wIntk wClear []).onFrame 7 (fun x => { x with residIn := x.residIn + 1 })).flag R.INTK_CTRL_REQ_ENC = false := by decide
  have hs : ∀ l, (wIntk wClear l).unitSeqs 7 = [wSeq] := fun _ => rfl
  have hw : ∀ l, (wIntk wClear l).intk.frames = [wFrameT wClear 7] := fun _ => rfl
  have hbad : (wIntk wClear [⟨0, b⟩]).unitBad b = false := by
    simp only [State.unitBad, ht, hl2, hf, hg, hn, hs]
    rfl
  have hdue : (wIntk wClear [⟨0, b⟩]).unitDue b = true := by
    simp only [State.unitDue, hn, hw]
    simp [wFrameT, wFrameAt]
  have hlate : (wIntk wClear []).frameLate 7 = false := by decide
  refine ⟨?_, ?_, ?_⟩
  · have hq : (fun u : VssUnit => decide (uType u.bytes = 5) && !(wIntk wClear [⟨0, b⟩]).unitBad u.bytes &&
        (wIntk wClear [⟨0, b⟩]).unitDue u.bytes) ⟨0, b⟩ = true := by simp [ht, hbad, hdue]
    have hfind : ∀ (f : VssUnit → Bool) (u : VssUnit), f u = true → [u].find? f = some u := fun f u h => by simp [h]
    unfold State.takeType State.takeUnit
    rw [show (wIntk wClear [⟨0, b⟩]).intk.ready = [⟨0, b⟩] from rfl, hfind _ _ hq]
    show some (_, wIntk wClear ([(⟨0, b⟩ : VssUnit)].erase ⟨0, b⟩)) = _
    rw [List.erase_cons_head]
  · unfold State.unitFrame
    simp only [hn, hlate]
    rfl
  · simp only [State.openUnit, hf, ht, hp, hr]
    rfl

theorem wResid_length (k : Nat) : (wResid k).length = 4106 := by
  have h8 : (wb 1 0x22 ++ wb 1 0 ++ wb 2 (if k % 2 = 0 then 240 else 3) ++ wb 2 135 ++ wb 2 0).length = 8 := rfl
  have h4 : ∀ n v : Nat, (wb n v).length = n := by
    intro n
    induction n with
    | zero => intro v; rfl
    | succ n ih => intro v; exact congrArg (· + 1) (ih (v / 256))
  unfold wResid
  rw [List.length_append, List.length_append, h8, h4, h4]

theorem wMask_parse (x : Nat) : (wMask x).length = 8198 ∧ parseMask (wMask x) = some (leAt (wMask x) 0 1,
    [(leAt (wMask x) 4 1, leAt (wMask x) 5 1, (List.range 4096).map (fun k => leAt (wMask x) (6 + 2 * k) 2 % 4096))]) := by
  have hl : (wMask x).length = 8198 := by
    unfold wMask
    have h6 : (wb 2 0 ++ wb 2 1 ++ wb 1 x ++ wb 1 1).length = 6 := rfl
    rw [List.length_append, List.length_replicate, h6]
  have h : leAt (wMask x) 2 2 = 1 := by
    unfold wMask
    generalize List.replicate 8192 0xFF#8 = q
    rfl
  refine ⟨hl, ?_⟩
  revert h hl
  generalize wMask x = d
  intro hl h
  unfold parseMask
  rw [h, hl]
  rfl

/-- A stretch takes no more bits than its bytes stored (R253). -/
theorem stretchBits_length_le (q : Search) (final : Bool) (pos c e : Nat) :
    (stretchBits q final pos c e).length ≤ (storedBits final pos ((q.a.toList.drop c).take (e - c))).length := by
  unfold stretchBits
  dsimp only
  split
  · exact Nat.le_refl _
  · exact Nat.le_of_not_lt ‹_›

/-- Nothing, finished, is at most five bytes of Deflate at level 1. -/
theorem deflate_nothing_length : (encodeStream 0 1 10 (some 0) [([], 3)]).length ≤ 64 := by
  have h := stretchBits_length_le ⟨#[], 0, 32768, 1, 258, false⟩ true 0 0 0
  have h40 : (storedBits true 0 ((Search.mk #[] 0 32768 1 258 false).a.toList.drop 0 |>.take (0 - 0))).length = 40 := by decide
  rw [h40] at h
  show (packBits _).length ≤ 64
  have hd : ∀ l : List Bool, l.length ≤ 56 → (packBits l).length ≤ 64 := by
    intro l hl
    unfold packBits
    simp only [List.length_map, List.length_range, Word.cdiv]
    omega
  apply hd
  rw [List.length_take]
  refine Nat.le_trans (Nat.min_le_right _ _) ?_
  show (deflateBits #[] 1 [([], 3)] 0 0 0).length ≤ 56
  show ((stretchBits ⟨#[], 0, 32768, 1, 258, false⟩ true 0 0 0 ++ [] ++ List.replicate _ false) ++ []).length ≤ 56
  simp only [List.append_nil, List.length_append, List.length_replicate]
  omega
theorem wit_ResetSourcesSetCauseAndEnterOrWait_2 : ∃ (s : State), s.rst.hold = .run ∧ s.rst.sysEntering = false ∧ s.teph.saveDue ≠ some 1 :=
  ⟨{ wRun.put R.RAIL_STAT_STATE (if 0 = 0 then 2 else 0) with rst := { wRun.rst with hold := .run, sysEntering := false }, teph := { wRun.teph with saveDue := none } }, by decide⟩

theorem wit_ResetSourcesSetCauseAndEnterOrWait_3 : ∃ (s : State), s.rst.hold = .run ∧ s.rst.sysEntering = false ∧ s.teph.saveDue ≠ some 1 :=
  ⟨{ wRun with rst := { wRun.rst with hold := .run, sysEntering := false }, teph := { wRun.teph with saveDue := none } }, by decide⟩

theorem wit_ResetSourcesSetCauseAndEnterOrWait_4 : ∃ (s : State), s.rst.hold = .run ∧ s.rst.sysEntering = false ∧ s.flag R.CARE_STAT_RUNNING = true :=
  ⟨{ wRun.put R.CARE_STAT_RUNNING 1 with rst := { wRun.rst with hold := .run, sysEntering := false } }, by decide⟩

theorem wit_ResetSourcesSetCauseAndEnterOrWait_5 : ∃ (s : State) (r : Req), s.rst.hold = .run ∧ s.rst.sysEntering = false ∧ r ≠ .partner :=
  ⟨{ wRun with rst := { wRun.rst with hold := .run, sysEntering := false } }, .host, by decide⟩

theorem wit_ResetSourcesSetCauseAndEnterOrWait_6 : ∃ (s : State) (r : Req), s.rst.hold = .run ∧ s.rst.coreEntering = false ∧ r ≠ .partner :=
  ⟨{ wRun with rst := { wRun.rst with hold := .run, coreEntering := false } }, .caretaker, by decide⟩

theorem wit_ResetSourcesSetCauseAndEnterOrWait_7 : ∃ (s : State), s.rst.hold = .run ∧ s.rst.coreEntering = false :=
  ⟨{ wRun with rst := { wRun.rst with hold := .run, coreEntering := false } }, by decide⟩

theorem wit_ResetSourcesSetCauseAndEnterOrWait_8 : ∃ (s : State), s.rst.hold = .load ∧ s.teph.saveDue ≠ some 1 :=
  ⟨{ wRun with rst := { wRun.rst with hold := .load }, teph := { wRun.teph with saveDue := none } }, by decide⟩

theorem wit_ResetSourcesSetCauseAndEnterOrWait_9 : ∃ (s : State) (r : Req), (s.rst.sysEntering = true ∨ s.rst.hold = .sys) ∧ s.rst.hold ≠ .load ∧ r ≠ .partner :=
  ⟨{ wRun with rst := { wRun.rst with hold := .run, sysEntering := true } }, .host, by decide⟩

theorem wit_ResetSourcesSetCauseAndEnterOrWait_10 : ∃ (s : State) (r : Req) (key : Nat), (r = .partner ∨ key ≠ 0xC0DE) :=
  ⟨wRun, .partner, 0xC0DE, by decide⟩

theorem wit_ResetSourcesSetCauseAndEnterOrWait_11 : ∃ (s : State) (r : Req) (key : Nat), (r = .partner ∨ key ≠ 0xC0DE) :=
  ⟨wRun, .host, 0xC0DF, by decide⟩

theorem wit_ResetLevelsTakeHoldAndRelease_1 : ∃ (s : State), s.rst.sysEntering = true ∧ (s.get R.RAIL_STAT_STATE = 0 ∨ s.get R.RAIL_STAT_STATE = 5) :=
  ⟨{ wRun.put R.RAIL_STAT_STATE 0 with rst := { wRun.rst with sysEntering := true } }, by decide⟩

theorem wit_ResetLevelsTakeHoldAndRelease_2 : ∃ (s : State), s.rst.coreEntering = true ∧ s.rst.hold = .run ∧ (s.rst.srcFatal = true ∨ s.pseq.inFlight = false) :=
  ⟨{ wRun with rst := { wRun.rst with hold := .run, coreEntering := true, srcFatal := true } }, by decide⟩

theorem wit_ResetLevelsTakeHoldAndRelease_3 : ∃ (s : State), s.rst.hold = .core ∧ s.flag R.PERS_STATE_ACTIVE_VALID = false ∧ s.mem.freqHeld = none :=
  ⟨{ wRun.put R.PERS_STATE_ACTIVE_VALID 0 with rst := { wRun.rst with hold := .core }, mem := { wRun.mem with freqHeld := none } }, by decide⟩

theorem wit_ResetLevelsTakeHoldAndRelease_4 : ∃ (s : State), s.rst.hold = .core ∧ s.flag R.PERS_STATE_ACTIVE_VALID = true ∧ s.sec.blobs = [] ∧ s.slotDigest s.activeSlot = Config.sha384 (s.readBytes (s.slotArea s.activeSlot) (s.slotFile s.activeSlot 0x1C 4)) :=
  ⟨{ (wRun.put R.PERS_STATE_ACTIVE_VALID 1).put R.PERS_STATE_ACTIVE_SLOT 7 with rst := { wRun.rst with hold := .core }, dram := [], pers := { wRun.pers with digest := [(7, Config.sha384 [])] } }, rfl, by decide, rfl, rfl⟩

theorem wit_ResetLevelsTakeHoldAndRelease_5 : ∃ (s : State), s.rst.hold = .sys :=
  ⟨{ wRun with rst := { wRun.rst with hold := .sys } }, by decide⟩

theorem wit_ResetLevelsTakeHoldAndRelease_6 : ∃ (s : State) (reading : Nat), s.rst.hold = .load ∧ s.rst.loadHeld = true :=
  ⟨{ wRun with rst := { wRun.rst with hold := .load, loadHeld := true } }, 500, by decide⟩

theorem wit_ResetLevelsTakeHoldAndRelease_7 : ∃ (s : State) (reading : Nat), s.rst.hold = .load ∧ s.rst.loadHeld = false :=
  ⟨{ wRun with rst := { wRun.rst with hold := .load, loadHeld := false, srcFatal := false } }, 511, by decide⟩

theorem wit_RailPowerOnAndOff_1 : ∃ (s : State) (r : Req) (readings : List CrackRead), r ≠ .partner ∧ s.get R.RAIL_STAT_STATE = 0 ∧ s.railGuest = false :=
  ⟨(wRun.put R.PAIR_STAT_STATE 4).put R.RAIL_STAT_STATE 0, .host, (if 0 % 2 = 0 then [] else [⟨0 * 13, false, false⟩, ⟨0 * 500, 0 % 3 = 0, false⟩]), by decide⟩

theorem wit_RailPowerOnAndOff_2 : ∃ (s : State) (r : Req), r ≠ .partner ∧ (s.get R.RAIL_STAT_STATE = 1 ∨ s.get R.RAIL_STAT_STATE = 2 ∨ s.get R.RAIL_STAT_STATE = 3) :=
  ⟨wRun.put R.RAIL_STAT_STATE (1 + 0 % 3), .caretaker, by decide⟩

theorem wit_RailPowerOnAndOff_3 : ∃ (s : State) (r : Req) (readings : List CrackRead), r ≠ .partner ∧ s.get R.RAIL_STAT_STATE = 5 ∧ s.railGuest = false :=
  ⟨(wRun.put R.PAIR_STAT_STATE 4).put R.RAIL_STAT_STATE 5, .host, (if 0 % 2 = 0 then [] else [⟨0 * 13, false, false⟩, ⟨0 * 500, 0 % 3 = 0, false⟩]), by decide⟩

theorem wit_RailPowerOnAndOff_4 : ∃ (s : State) (r : Req) (readings : List CrackRead), r ≠ .partner ∧ s.get R.RAIL_STAT_STATE = 0 ∧ s.railGuest = true :=
  ⟨(wRun.put R.PAIR_STAT_STATE 5).put R.RAIL_STAT_STATE 0, .host, [], by decide⟩

theorem wit_RailPowerOnAndOff_5 : ∃ (s : State) (r : Req) (readings : List CrackRead), r ≠ .partner ∧ s.get R.RAIL_STAT_STATE = 5 ∧ s.railGuest = true :=
  ⟨(wRun.put R.PAIR_STAT_STATE 3).put R.RAIL_STAT_STATE 5, .host, [], by decide⟩

theorem wit_RailPowerOnAndOff_6 : ∃ (s : State) (r : Req), r ≠ .partner :=
  ⟨wRun, .host, by decide⟩

theorem wit_RailPowerOnAndOff_7 : ∃ (s : State) (ch : Nat) (mv : Int) (ma : Nat), s.rail.seq = .ramp ch ∧ ch < 4 :=
  ⟨{ wRun with rail := { wRun.rail with seq := .ramp (0 % 4) } }, 0 % 4, 13000, 0 * 3000, by decide⟩

theorem wit_RailPowerOnAndOff_8 : ∃ (s : State) (ch : Nat) (mv : Int) (ma : Nat), s.rail.seq = .ramp 4 ∧ (ch = 4 ∨ ch = 5) ∧ (s.get R.RAIL_STAT_PG).testBit (9 - ch) = true :=
  ⟨{ wRun.put R.RAIL_STAT_PG 63 with rail := { wRun.rail with seq := .ramp 4 } }, 4 + 0 % 2, 100, 20, by decide⟩

theorem wit_RailPowerOnAndOff_9 : ∃ (s : State) (atLineEnd : Bool), s.rail.seq = .waitLines :=
  ⟨{ wRun with rail := { wRun.rail with seq := .waitLines } }, 0 % 2 = 0, by decide⟩

theorem wit_RailPowerOnAndOff_10 : ∃ (s : State) (p : Nat), s.rail.seq = .off p ∧ p < 6 :=
  ⟨{ wRun with rail := { wRun.rail with seq := .off (0 % 6) } }, 0 % 6, by decide⟩

theorem wit_RailPowerOnAndOff_11 : ∃ (s : State), s.rail.seq = .off 6 :=
  ⟨{ wRun with rail := { wRun.rail with seq := .off 6, endLocked := 0 % 2 = 1, byFault := 0 % 3 = 0 } }, by decide⟩

theorem wit_RailPowerOnAndOff_12 : ∃ (s : State), s.isMirror = true ∧ s.get R.RAIL_STAT_STATE = 0 :=
  ⟨(wRun.put R.PAIR_STAT_STATE 3).put R.RAIL_STAT_STATE 0, by decide⟩

theorem wit_RailFaultsRetriesAndCracks_1 : ∃ (s : State) (c : Nat), c < 6 ∧ s.get R.RAIL_STAT_STATE = 2 :=
  ⟨wRun.put R.RAIL_STAT_STATE 2, 0 % 6, by decide⟩

theorem wit_RailFaultsRetriesAndCracks_2 : ∃ (s : State) (c : Nat), c < 6 ∧ s.get R.RAIL_STAT_STATE = 2 :=
  ⟨wRun.put R.RAIL_STAT_STATE 2, 0 % 6, by decide⟩

theorem wit_RailFaultsRetriesAndCracks_3 : ∃ (s : State) (c : Nat), c < 6 ∧ s.get R.RAIL_STAT_STATE = 2 :=
  ⟨wRun.put R.RAIL_STAT_STATE 2, 0 % 6, by decide⟩

theorem wit_RailFaultsRetriesAndCracks_4 : ∃ (s : State) (c : Nat), c < 6 ∧ s.get R.RAIL_STAT_STATE = 2 :=
  ⟨wRun.put R.RAIL_STAT_STATE 2, 0 % 6, by decide⟩

theorem wit_RailFaultsRetriesAndCracks_5 : ∃ (s : State) (c : Nat), c < 6 ∧ s.get R.RAIL_STAT_STATE = 2 :=
  ⟨wRun.put R.RAIL_STAT_STATE 2, 0 % 6, by decide⟩

theorem wit_RailFaultsRetriesAndCracks_6 : ∃ (s : State) (c d : Nat), c < d ∧ d < 6 ∧ s.get R.RAIL_STAT_STATE = 2 :=
  ⟨wRun.put R.RAIL_STAT_STATE 2, 0 % 5, 5, by decide⟩

theorem wit_RailFaultsRetriesAndCracks_7 : ∃ (s : State) (ch : Nat), s.rail.seq = .ramp ch ∧ ch < 5 ∧ s.get R.RAIL_STAT_STATE = 1 :=
  ⟨{ wRun.put R.RAIL_STAT_STATE 1 with rail := { wRun.rail with seq := .ramp (0 % 5) } }, 0 % 5, by decide⟩

theorem wit_RailFaultsRetriesAndCracks_9 : ∃ (s : State) (region : Nat) (sink : Bool), region < 16 :=
  ⟨wRun, 15 - 0 % 16, 0 % 2 = 0, by decide⟩

theorem wit_RailFaultsRetriesAndCracks_10 : ∃ (s : State) (readings : List CrackRead), s.rail.retryDue = true ∧ s.rail.hot = [] ∧ s.get R.RAIL_STAT_STATE = 0 :=
  ⟨{ wRun.put R.RAIL_STAT_STATE 0 with rail := { wRun.rail with retryDue := true, hot := [] } }, [⟨0 * 13, false, false⟩, ⟨0 * 500, 0 % 3 = 0, false⟩], by decide⟩

theorem wit_RailFaultsRetriesAndCracks_11 : ∃ (s : State), s.get R.RAIL_STAT_STATE = 2 :=
  ⟨wRun.put R.RAIL_STAT_STATE 2, by decide⟩

theorem wit_RailFaultsRetriesAndCracks_12 : ∃ (s : State), s.rail.transferDue = true :=
  ⟨{ wRun with rail := { wRun.rail with transferDue := true } }, by decide⟩

theorem wit_RailFaultsRetriesAndCracks_13 : ∃ (s : State) (reading : CrackRead) (outer : Bool), (s.get R.RAIL_STAT_STATE = 0 ∨ s.get R.RAIL_STAT_STATE = 1 ∨ s.get R.RAIL_STAT_STATE = 5) ∧ s.isMirror = false ∧ s.rail.standby = false :=
  ⟨(wRun.put R.RAIL_STAT_STATE (if 0 % 2 = 0 then 0 else 5)).put R.PAIR_STAT_STATE 4, ⟨0 * 117, 0 % 5 = 0, 0 % 7 = 1⟩, 0 % 2 = 0, by decide⟩

theorem wit_BootRomRunsAVerifiedImage_1 : ∃ (s : State) (slot0 slot1 : List Byte), let first := if leAt slot0 0x10 8 < leAt slot1 0x10 8 then slot1 else slot0
    let second := if leAt slot0 0x10 8 < leAt slot1 0x10 8 then slot0 else slot1
    let ran := decide (s.imageCheck first = 0 ∨ s.imageCheck second = 0)
    s.inRom = true ∧ s.rst.hostBootWait = false :=
  ⟨{ wRun.put R.CARE_STAT_ROM 1 with rst := { wRun.rst with hold := .run, hostBootWait := false } }, [], List.replicate 0 7, by decide⟩

theorem wit_BootRomRunsAVerifiedImage_2 : ∃ (s : State) (slot0 slot1 : List Byte), let first := if leAt slot0 0x10 8 < leAt slot1 0x10 8 then slot1 else slot0
    let second := if leAt slot0 0x10 8 < leAt slot1 0x10 8 then slot0 else slot1
    let ran := decide (s.imageCheck first = 0 ∨ s.imageCheck second = 0)
    s.inRom = true ∧ s.rst.hostBootWait = true ∧ s.flag R.RST_STRAP_BOOT_SRC = true ∧ s.flag R.RST_STAGE_FAIL = false :=
  ⟨{ ((wRun.put R.CARE_STAT_ROM 1).put R.RST_STRAP_BOOT_SRC 1).put R.RST_STAGE_FAIL 0 with rst := { wRun.rst with hold := .run, hostBootWait := true } }, [], List.replicate 0 7, by decide⟩

theorem wit_BootDramTrainsAndInitialises_1 : ∃ (s : State) (l : List ChanTrain), let used := (List.range 48).filter (fun k => l.any (fun c => c.ch = k && chanOk c))
    s.get R.MEM_C_STAT_STATE 0 = 1 ∧ s.get R.MEM_SIZE = 0 :=
  ⟨(wRun.put R.MEM_C_STAT_STATE 1 0).put R.MEM_SIZE 0, (List.range (40 + 0 % 10)).map (fun c => ⟨c, [20, 16 + 0 % 2, 16, 30], [0, 0, 0, 0]⟩), by decide⟩

theorem wit_BootDramTrainsAndInitialises_2 : ∃ (s : State) (l : List ChanTrain), s.get R.MEM_SIZE ≠ 0 ∧ s.rst.hold = .core ∧ s.anyFrozen = true ∧ s.rst.sysEntering = false ∧ (s.frozenChans.any (fun k => !l.any (fun c => c.ch = k && chanOk c)) = true) :=
  ⟨{ (wRun.put R.MEM_C_STAT_STATE 5 2).put R.MEM_SIZE 84000 with rst := { wRun.rst with hold := .core, sysEntering := false } }, [], by decide⟩

theorem wit_BootDramTrainsAndInitialises_3 : ∃ (s : State) (l : List ChanTrain) (k : Nat) (c : ChanTrain), s.get R.MEM_SIZE ≠ 0 ∧ s.rst.hold = .core ∧ s.frozenChans = [k] ∧ (l.find? (fun c => c.ch = k) = some c) ∧ chanOk c = true ∧ c.ch = k :=
  ⟨{ ((List.range 6).foldl (fun t c => t.put R.MEM_C_STAT_STATE (if c = 3 then 5 else 2) c) wRun).put R.MEM_C_FRZ_INFO_CHANNEL 6 3 |>.put R.MEM_SIZE 84000 with rst := { wRun.rst with hold := .core, sysEntering := false } }, [⟨30, [20, 70, 22, 90], [0, 0, 0, 0]⟩], 30, ⟨30, [20, 70, 22, 90], [0, 0, 0, 0]⟩, by decide⟩

theorem wit_BootDramTrainsAndInitialises_4 : ∃ (s : State) (maps : Option (List Byte × List Byte)), s.get R.MEM_C_STAT_STATE 0 = 1 ∧ s.get R.MEM_SIZE ≠ 0 ∧ s.rst.dramFail = false :=
  ⟨{ (wRun.put R.MEM_C_STAT_STATE 1 0).put R.MEM_SIZE 84000 with rst := { wRun.rst with dramFail := false } }, (if 0 % 2 = 0 then none else some ([1, 2], List.replicate 0 5)), by decide⟩

theorem wit_BootPanelBaselineAndInput_1 : ∃ (s : State) (o : List Byte) (ports : List Nat), let good := descLayout o && decide (s.objectSig o = 0) && ports.all (fun p => p = ports.getD 0 0)
    s.flag R.CARE_STAT_RUNNING = true ∧ s.pseq.desc = none ∧ s.rst.panelRetry = false :=
  ⟨{ wRun.put R.CARE_STAT_RUNNING 1 with pseq := { wRun.pseq with desc := none }, rst := { wRun.rst with panelRetry := false } }, [1, 2, 3], [2, 2], by decide⟩

theorem wit_BootPanelBaselineAndInput_2 : ∃ (s : State) (ports : List Nat), s.flag R.CARE_STAT_RUNNING = true ∧ s.pseq.desc = none ∧ s.rst.panelRetry = false :=
  ⟨{ wRun.put R.CARE_STAT_RUNNING 1 with pseq := { wRun.pseq with desc := none }, rst := { wRun.rst with panelRetry := false } }, [], by decide⟩

theorem wit_BootPanelBaselineAndInput_4 : ∃ (s : State) (file : List Byte) (failed : List Nat), s.mem.ready = true ∧ s.get R.RST_STAGE_STAGE = 7 ∧ s.flag R.RST_STAGE_FAIL = false ∧ s.flag R.PERS_STATE_ACTIVE_VALID = false ∧ s.pers.pend = none ∧ s.pers.loading = none ∧ s.pers.reload = none ∧ s.rst.hold = .run ∧ (isBaseline (fun off n => leAt file off n) s.sec.baseSvn = true) ∧ file.length ≤ 67108864 :=
  ⟨{ ((wRun.put R.RST_STAGE_STAGE 7).put R.RST_STAGE_FAIL 0).put R.PERS_STATE_ACTIVE_VALID 0 with mem := { wRun.mem with ready := true }, pers := { wRun.pers with pend := none, loading := none, reload := none }, sec := { wRun.sec with baseSvn := 7 } }, wBaseline, [3, 5], by decide +kernel⟩

theorem wit_BootPanelBaselineAndInput_5 : ∃ (s : State) (file : List Byte) (failed : List Nat), (isBaseline (fun off n => leAt file off n) s.sec.baseSvn = false) :=
  ⟨wRun, [1, 2], [3, 5], by decide⟩

theorem wit_BootPanelBaselineAndInput_6 : ∃ (s : State) (m : Nat) (links : List Nat) (lease : Option Nat), s.flag R.CARE_STAT_RUNNING = true ∧ m < 3 :=
  ⟨wRun.put R.CARE_STAT_RUNNING 1, 0 % 3, [0, 0 % 5], (if 0 % 2 = 0 then none else some 77), by decide⟩

theorem wit_BootPanelBaselineAndInput_7 : ∃ (s : State) (links : List Nat) (lease : Option Nat), s.flag R.CARE_STAT_RUNNING = true ∧ s.get R.RST_STAGE_STAGE = 8 ∧ s.flag R.RST_STAGE_FAIL = false ∧ s.flag R.RST_STRAP_INPUT = false ∧ s.rst.inputReady = false :=
  ⟨{ (((wRun.put R.CARE_STAT_RUNNING 1).put R.RST_STAGE_STAGE 8).put R.RST_STAGE_FAIL 0).put R.RST_STRAP_INPUT 0 with rst := { wRun.rst with inputReady := false } }, [], none, by decide⟩

theorem wit_BootPanelBaselineAndInput_8 : ∃ (s : State) (addr : Nat), s.flag R.ETH_PORT_STAT_LINK 0 = true ∧ s.ipv4 0 = 0 :=
  ⟨{ (wRun.put R.ETH_PORT_STAT_LINK 1 0).put R.ETH_PORT_IPV4 0 0 with host := { wRun.host with ip := [] } }, 0 * 4099, by decide⟩

theorem wit_PairReadsGoThroughTheShadow_1 : ∃ (s : State) (r q : Req) (off : Nat), s.reaches r = true ∧ busKind off 4 = none ∧ ((regAt off).map (fun p => p.1.half) = some Half.lo) ∧ (r ≠ .host ∨ s.comp.heldHost = []) ∧ q ≠ r :=
  ⟨{ wRun.put R.THM_STAT_CUT 0 with rst := { wRun.rst with hold := .run } }, ([Req.host, .caretaker, .partner].getD (0 % 3) .host), ([Req.caretaker, .partner, .host].getD (0 % 3) .host), ([R.TIME_NOW.base, R.TIME_RAW.base, R.COMP_BUF_BASE.base, R.TIME_RATE.base].getD (0 % 4) 0), by decide⟩

theorem wit_PairReadsGoThroughTheShadow_2 : ∃ (s : State) (r q : Req) (off : Nat) (x : Shadow), s.reaches r = true ∧ busKind off 4 = none ∧ ((regAt off).map (fun p => p.1.half) = some Half.hi) ∧ s.bus.shadow r = some x ∧ x.pair + 4 = off ∧ (r ≠ .host ∨ s.comp.heldHost = []) ∧ q ≠ r :=
  ⟨{ wRun.put R.THM_STAT_CUT 0 with rst := { wRun.rst with hold := .run }, bus := { wRun.bus with shadowHost := some ⟨R.TIME_NOW.base, 77⟩ } }, .host, .partner, R.TIME_NOW.base + 4, ⟨R.TIME_NOW.base, 77⟩, by decide⟩

theorem wit_PairReadsGoThroughTheShadow_3 : ∃ (s : State) (r : Req) (off : Nat), s.reaches r = true ∧ busKind off 4 = none ∧ ((regAt off).map (fun p => p.1.half) = some Half.hi) ∧ ((s.bus.shadow r).all (fun x => x.pair + 4 ≠ off) = true) ∧ (r ≠ .host ∨ s.comp.heldHost = []) :=
  ⟨{ wRun.put R.THM_STAT_CUT 0 with rst := { wRun.rst with hold := .run }, bus := { wRun.bus with shadowHost := some ⟨R.TIME_NOW.base, 77⟩, shadowCare := none } }, (if 0 % 2 = 0 then .host else .caretaker), R.TIME_RAW.base + 4, by decide⟩

theorem wit_PairWritesGoThroughTheHoldingRegister_1 : ∃ (s : State) (r : Req) (off : Nat) (data : Word) (info : RegInfo), s.reaches r = true ∧ busKind off 4 = none ∧ ((regAt off).map (fun p => p.1) = some info) ∧ info.half = .lo ∧ (info.mir ≠ .yes ∨ r = .partner ∨ s.isMirror = false) ∧ s.comp.heldHost = [] :=
  ⟨{ (wRun.put R.THM_STAT_CUT 0).put R.PAIR_STAT_STATE 4 with rst := { wRun.rst with hold := .run }, comp := { wRun.comp with heldHost := [] } }, ([Req.host, .caretaker, .partner].getD (0 % 3) .host), ([R.PSEQ_ANCHOR.base, R.COMP_BUF_BASE.base].getD (0 % 2) 0), 0x1234567, (((regAt ([R.PSEQ_ANCHOR.base, R.COMP_BUF_BASE.base].getD (0 % 2) 0)).map (fun p => p.1)).getD ((regsCtl).headD (regsRst.headD ⟨"", 0, 0, 0, 0, 0, 0, 0, 0, 0, 0, 0, 0, .one, 0, .const, .no, 0, 0⟩))), by decide⟩

theorem wit_PairWritesGoThroughTheHoldingRegister_2 : ∃ (s : State) (r : Req) (off : Nat) (data : Word) (info lo : RegInfo), let held := (s.bus.hold r).filter (fun x => decide (x.pair + 4 = off))
    s.reaches r = true ∧ busKind off 4 = none ∧ ((regAt off).map (fun p => p.1) = some info) ∧ ((regAt (off - 4)).map (fun p => p.1) = some lo) ∧ info.half = .hi ∧ (info.mir ≠ .yes ∨ (s.isMirror = false ∧ s.isActive = false)) ∧ (info.base ≠ R.COMP_BUF_BASE.base + 4 ∨ (s.get R.COMP_BUF_STAT_STATE ((off - R.COMP_BUF_BASE.base - 4) / R.COMP_BUF_BASE.s1) ≠ 1 ∧ s.get R.COMP_BUF_STAT_STATE ((off - R.COMP_BUF_BASE.base - 4) / R.COMP_BUF_BASE.s1) ≠ 2)) ∧ (info.base ≠ R.LANE_PRBS_BITS.base + 4 ∨ s.prbsRuns ((off - R.LANE_PRBS_BITS.base - 4) / R.LANE_PRBS_BITS.s1) = false) ∧ s.comp.heldHost = [] :=
  ⟨{ (wRun.put R.THM_STAT_CUT 0).put R.PAIR_STAT_STATE 4 with rst := { wRun.rst with hold := .run }, comp := { wRun.comp with heldHost := [] }, bus := { wRun.bus with holdHost := if 0 % 3 = 0 then none else if 0 % 3 = 1 then some ⟨R.PSEQ_ANCHOR.base, 0xABCDEF⟩ else some ⟨R.COMP_BUF_BASE.base, 0xABCDEF⟩ } }, .host, R.PSEQ_ANCHOR.base + 4, 0x1234567, (((regAt (R.PSEQ_ANCHOR.base + 4)).map (fun p => p.1)).getD ((regsCtl).headD (regsRst.headD ⟨"", 0, 0, 0, 0, 0, 0, 0, 0, 0, 0, 0, 0, .one, 0, .const, .no, 0, 0⟩))), (((regAt (R.PSEQ_ANCHOR.base)).map (fun p => p.1)).getD ((regsCtl).headD (regsRst.headD ⟨"", 0, 0, 0, 0, 0, 0, 0, 0, 0, 0, 0, 0, .one, 0, .const, .no, 0, 0⟩))), by decide⟩

theorem wit_PairWritesGoThroughTheHoldingRegister_3 : ∃ (s : State) (r : Req) (off : Nat) (adv : Bool), s.reaches r = true ∧ busKind off 8 = none ∧ (r ≠ .host ∨ s.comp.heldHost = []) :=
  ⟨{ wRun.put R.THM_STAT_CUT 0 with rst := { wRun.rst with hold := .run } }, ([Req.host, .caretaker, .partner].getD (0 % 3) .host), ([R.TIME_NOW.base, R.TIME_RAW.base, R.COMP_BUF_BASE.base, R.TIME_RATE.base].getD (0 % 4) 0), 0 % 2 = 0, by decide⟩

theorem wit_PairWritesGoThroughTheHoldingRegister_4 : ∃ (s : State) (r : Req) (off d : Nat) (lo info : RegInfo), s.reaches r = true ∧ busKind off 8 = none ∧ ((regAt off).map (fun p => p.1) = some lo) ∧ ((regAt (off + 4)).map (fun p => p.1) = some info) ∧ lo.half = .lo ∧ info.half = .hi ∧ lo.mir ≠ .yes ∧ info.mir ≠ .yes ∧ info.base ≠ R.COMP_BUF_BASE.base + 4 ∧ info.base ≠ R.LANE_PRBS_BITS.base + 4 ∧ s.comp.heldHost = [] :=
  ⟨{ (wRun.put R.THM_STAT_CUT 0).put R.PAIR_STAT_STATE 4 with rst := { wRun.rst with hold := .run }, comp := { wRun.comp with heldHost := [] } }, ([Req.host, .caretaker, .partner].getD (0 % 3) .host), R.HOST_BAR2_BASE.base, 0 * 0x123456789AB, wInfo R.HOST_BAR2_BASE.base, wInfo (R.HOST_BAR2_BASE.base + 4), by decide⟩

theorem wit_PairWritesGoThroughTheHoldingRegister_5 : ∃ (s : State) (r : Req) (off : Nat) (data : Word) (adv : Bool) (info : RegInfo), s.reaches r = true ∧ busKind off 4 = none ∧ ((regAt off).map (fun p => p.1) = some info) ∧ info.half = .hi ∧ info.mir = .yes ∧ r ≠ .partner ∧ s.isMirror = true ∧ s.comp.heldHost = [] :=
  ⟨{ (wRun.put R.THM_STAT_CUT 0).put R.PAIR_STAT_STATE 3 with rst := { wRun.rst with hold := .run }, comp := { wRun.comp with heldHost := [] } }, (if 0 % 2 = 0 then .host else .caretaker), R.COMP_BUF_BASE.base + 4, 0x1234567, 0 % 3 = 0, wInfo (R.COMP_BUF_BASE.base + 4), by decide⟩

theorem wit_PairWritesGoThroughTheHoldingRegister_6 : ∃ (s : State) (r : Req) (n : Nat) (data : Word) (adv : Bool), s.reaches r = true ∧ n < 120 ∧ s.prbsRuns n = true ∧ s.comp.heldHost = [] :=
  ⟨{ ((wRun.put R.THM_STAT_CUT 0).put R.LANE_PRBS_CTRL_CHK_EN 1 77).grpPut R.LANE_GRP_STAT_STAGE 7 22 with rst := { wRun.rst with hold := .run }, comp := { wRun.comp with heldHost := [] } }, (if 0 % 2 = 0 then .host else .caretaker), 77, 0x1234567, 0 % 3 = 0, by decide⟩

theorem wit_RegisterWritesFollowTheFieldTypes_1 : ∃ (s : State) (off data : Nat) (info : RegInfo), s.reaches .host = true ∧ busKind off 4 = none ∧ ((regAt off).map (fun p => p.1) = some info) ∧ info.half = .one ∧ info.mir = .no ∧ (s.writeSpecial .host info off (((regAt off).map (fun p => p.2.1)).getD 0) (data % 2 ^ 32) [] = none) ∧ s.comp.heldHost = [] ∧ s.get R.COMP_CTRL_GUARD < 2 ∧ blkAt off = none :=
  ⟨{ (wRun.put R.THM_STAT_CUT 0).put R.COMP_CTRL_GUARD 1 with rst := { wRun.rst with hold := .run }, comp := { wRun.comp with heldHost := [] } }, ([R.CTL_SCRATCH.base, R.CTL_UPDATE_STAT.base, R.CTL_BUSERR_COUNT.base, R.CTL_ID.base, R.ETH_CAGE_CTRL.base].getD (0 % 5) 0), rnd 0 (2 ^ 32), (((regAt ([R.CTL_SCRATCH.base, R.CTL_UPDATE_STAT.base, R.CTL_BUSERR_COUNT.base, R.CTL_ID.base, R.ETH_CAGE_CTRL.base].getD (0 % 5) 0)).map (fun p => p.1)).getD ((regsCtl).headD ⟨"", 0, 0, 0, 0, 0, 0, 0, 0, 0, 0, 0, 0, .one, 0, .const, .no, 0, 0⟩)), by decide⟩

theorem wit_RegisterWritesFollowTheFieldTypes_2 : ∃ (s : State) (r : Req) (off width data kind : Nat) (l : List CrackRead), s.reaches r = true ∧ busKind off width = some kind ∧ (r ≠ .host ∨ s.comp.heldHost = []) ∧ s.flag R.CTL_BUSERR_INFO_VALID = false :=
  ⟨{ (wRun.put R.THM_STAT_CUT 0).put R.CTL_BUSERR_INFO_VALID 0 with rst := { wRun.rst with hold := .run }, comp := { wRun.comp with heldHost := [] } }, ([Req.host, .caretaker, .partner].getD (0 % 3) .host), ([0x9, 0xFFFFF0, 0x8, 0x10].getD (0 % 4) 0), ([4, 4, 8, 16].getD (0 % 4) 0), 0, ([2, 0, 3, 4].getD (0 % 4) 0), [], by decide⟩

theorem wit_RegisterWritesFollowTheFieldTypes_3 : ∃ (s : State) (r : Req) (off width data kind : Nat) (l : List CrackRead), s.reaches r = true ∧ busKind off width = some kind ∧ (r ≠ .host ∨ s.comp.heldHost = []) ∧ s.flag R.CTL_BUSERR_INFO_VALID = true :=
  ⟨{ (wRun.put R.THM_STAT_CUT 0).put R.CTL_BUSERR_INFO_VALID 1 with rst := { wRun.rst with hold := .run }, comp := { wRun.comp with heldHost := [] } }, ([Req.host, .caretaker, .partner].getD (0 % 3) .host), ([0x9, 0xFFFFF0, 0x8, 0x10].getD (0 % 4) 0), ([4, 4, 8, 16].getD (0 % 4) 0), 0, ([2, 0, 3, 4].getD (0 % 4) 0), [], by decide⟩

theorem wit_RegisterWritesFollowTheFieldTypes_4 : ∃ (s : State) (r : Req) (off width data : Nat) (l : List CrackRead), s.reaches r = false :=
  ⟨{ wRun with rst := { wRun.rst with hold := .load } }, .host, 8, 4, 5, [], by decide⟩

theorem wit_RegisterWritesFollowTheFieldTypes_5 : ∃ (s : State) (off data : Nat) (info : RegInfo), s.reaches .host = true ∧ busKind off 4 = none ∧ ((regAt off).map (fun p => p.1) = some info) ∧ info.half = .one ∧ info.mir = .no ∧ (s.writeSpecial .host info off (((regAt off).map (fun p => p.2.1)).getD 0) (data % 2 ^ 32) [] = none) ∧ s.comp.heldHost = [] ∧ s.get R.COMP_CTRL_GUARD < 2 ∧ blkAt off = none :=
  ⟨{ (wRun.put R.THM_STAT_CUT 0).put R.COMP_CTRL_GUARD 1 with rst := { wRun.rst with hold := .run }, comp := { wRun.comp with heldHost := [] } }, R.CTL_BUSERR_COUNT.base, rnd 0 (2 ^ 32), wInfo R.CTL_BUSERR_COUNT.base, by decide⟩

theorem wit_RegisterWritesFollowTheFieldTypes_6 : ∃ (s : State) (r q : Req) (off width data other : Nat) (l : List CrackRead) (adv : Bool), r.code < q.code :=
  ⟨wRun, .host, .partner, R.CTL_SCRATCH.base, 4, 7, 9, [], false, by decide⟩

theorem wit_RegisterWritesFollowTheFieldTypes_7 : ∃ (s : State) (r q : Req) (off width data other : Nat) (l : List CrackRead) (adv : Bool), q.code < r.code :=
  ⟨wRun, .partner, .caretaker, R.CTL_SCRATCH.base, 4, 7, 9, [], false, by decide⟩

theorem wit_ReadsHaveNoSideEffects_1 : ∃ (s : State) (r : Req) (off : Nat), s.reaches r = true ∧ busKind off 4 = none ∧ (r ≠ .host ∨ s.comp.heldHost = []) :=
  ⟨{ wRun.put R.THM_STAT_CUT 0 with rst := { wRun.rst with hold := .run } }, ([Req.host, .caretaker, .partner].getD (0 % 3) .host), ([R.TIME_NOW.base, R.CTL_ID.base, R.THM_THROTTLE.base, R.CARE_LOCK.base + 4, R.TEPH_RING.base, R.COMP_CAL_DATA.base].getD (0 % 6) 0), by decide⟩

theorem wit_ReadsHaveNoSideEffects_2 : ∃ (s : State) (off : Nat), s.reaches .host = true ∧ s.comp.heldHost ≠ [] :=
  ⟨{ wRun.put R.THM_STAT_CUT 0 with rst := { wRun.rst with hold := .run }, comp := { wRun.comp with heldHost := [⟨.bytes 5 [1], 3, true⟩] } }, R.CTL_ID.base, by decide⟩

theorem wit_StrobesArePendingUntilTheyApply_1 : ∃ (s : State) (r : Req) (groups : Nat), (r = .partner ∨ s.isMirror = false) ∧ (r ≠ .host ∨ s.comp.heldHost = []) :=
  ⟨{ wRun.put R.PAIR_STAT_STATE (if 0 % 2 = 0 then 4 else 2) with strobes := [⟨4, .atTime, 5, 0, none⟩, ⟨9, .nextFrame, 0, 0, none⟩], comp := { wRun.comp with heldHost := [] } }, .host, rnd 0 65536, by decide⟩

theorem wit_StrobesArePendingUntilTheyApply_2 : ∃ (s : State) (r : Req) (groups : Nat), (r = .partner ∨ s.isMirror = false) ∧ (r ≠ .host ∨ s.comp.heldHost = []) :=
  ⟨{ wRun.put R.PAIR_STAT_STATE (if 0 % 2 = 0 then 4 else 2) with strobes := [⟨4, .atTime, 5, 0, none⟩, ⟨9, .nextFrame, 0, 0, none⟩], comp := { wRun.comp with heldHost := [] } }, .host, rnd 0 65536, by decide⟩

theorem wit_StrobesArePendingUntilTheyApply_3 : ∃ (s : State) (r : Req) (groups : Nat), (r = .partner ∨ s.isMirror = false) ∧ (r ≠ .host ∨ s.comp.heldHost = []) :=
  ⟨{ wRun.put R.PAIR_STAT_STATE (if 0 % 2 = 0 then 4 else 2) with strobes := [⟨4, .atTime, 5, 0, none⟩, ⟨9, .nextFrame, 0, 0, none⟩], comp := { wRun.comp with heldHost := [] } }, .caretaker, rnd 0 65536, by decide⟩

theorem wit_StrobesArePendingUntilTheyApply_4 : ∃ (s : State) (r : Req) (groups : Nat), (r = .partner ∨ s.isMirror = false) ∧ (r ≠ .host ∨ s.comp.heldHost = []) :=
  ⟨{ (wRun.put R.PAIR_STAT_STATE (if 0 % 3 = 0 then 4 else 2)).put R.CTL_UPDATE_TIME (wRun.now + (if 0 % 2 = 0 then 5000 else 0) + 2^32 - 2000) with strobes := [⟨4, .atTime, 5, 0, none⟩, ⟨9, .nextFrame, 0, 0, none⟩], comp := { wRun.comp with heldHost := [] } }, .host, rnd 0 65536, by decide⟩

theorem wit_StrobesArePendingUntilTheyApply_5 : ∃ (s : State) (r : Req) (groups : Nat), s.isMirror = true ∧ r ≠ .partner ∧ ((List.range 16).any (fun g => groups.testBit g && groupMirrored g) = true) ∧ (r ≠ .host ∨ s.comp.heldHost = []) :=
  ⟨{ wRun.put R.PAIR_STAT_STATE 3 with comp := { wRun.comp with heldHost := [] } }, .host, 2 ^ (0 % 9), by decide⟩

theorem wit_StrobesArePendingUntilTheyApply_6 : ∃ (s : State) (groups : Nat), s.comp.heldHost ≠ [] :=
  ⟨{ wRun with comp := { wRun.comp with heldHost := [⟨.bytes 5 [1], 3, true⟩] } }, 2 ^ (0 % 9), by decide⟩

theorem wit_StrobesApplyTheStagedValues_1 : ∃ (s : State) (g : Nat) (x : Strobe), g < 16 ∧ (s.strobes.find? (fun x => x.group = g) = some x) ∧ ((pointOf g = 0 ∧ s.strobeNow x = true) ∨ (pointOf g = 1 ∧ strobeDue x s.renderPoint.1 s.renderPoint.2 false = true)) :=
  ⟨{ wRun with strobes := [⟨[8,9,10,11,12,13,15,3].getD (0 % 8) 0, (if ([8,9,10,11,12,13,15,3].getD (0 % 8) 0) ∈ [3, 13] then .nextSubframe else .immediate), 0, 0, none⟩] }, ([8,9,10,11,12,13,15,3].getD (0 % 8) 0), ⟨[8,9,10,11,12,13,15,3].getD (0 % 8) 0, (if ([8,9,10,11,12,13,15,3].getD (0 % 8) 0) ∈ [3, 13] then .nextSubframe else .immediate), 0, 0, none⟩, by decide⟩

theorem wit_StrobesApplyTheStagedValues_2 : ∃ (s : State) (x : Strobe) (off : Nat) (info : RegInfo), (s.strobes.find? (fun x => x.group = 10) = some x) ∧ s.strobeNow x = true ∧ ((regAt off).map (fun p => p.1) = some info) ∧ info.group = 10 ∧ info.rws ≠ 0 :=
  ⟨{ wRun with strobes := [⟨10, .immediate, 0, 0, none⟩] }, ⟨10, .immediate, 0, 0, none⟩, (((allRegs.filter (fun r => r.group = 10 && r.rws ≠ 0)).getD (0 % 2) ((regsCtl).headD ⟨"", 0, 0, 0, 0, 0, 0, 0, 0, 0, 0, 0, 0, .one, 0, .const, .no, 0, 0⟩))).base, ((allRegs.filter (fun r => r.group = 10 && r.rws ≠ 0)).getD (0 % 2) ((regsCtl).headD ⟨"", 0, 0, 0, 0, 0, 0, 0, 0, 0, 0, 0, 0, .one, 0, .const, .no, 0, 0⟩)), by decide⟩

theorem wit_StrobesApplyTheStagedValues_3 : ∃ (s : State) (g : Nat), (s.strobes.find? (fun x => x.group = g) = none) :=
  ⟨{ wRun with strobes := [] }, 0 % 16, by decide⟩

theorem wit_StrobesApplyTheStagedValues_4 : ∃ (s : State) (r : Req) (data : Nat), (s.isMirror = false ∨ r = .partner) ∧ s.isActive = false :=
  ⟨wRun.put R.PAIR_STAT_STATE 4, .host, rnd 0 (2 ^ 32), by decide⟩

theorem wit_SubframesLaunchOnTheGrid_1 : ∃ (s : State), let n := s.pointNext.pseq.next
    s.rst.hold = .run ∧ s.launches = true ∧ s.pseq.waitReady = false ∧ s.anyFrozen = false ∧ s.pseq.start = none ∧ s.pseq.modes = none ∧ s.pseq.anchor = none ∧ s.pseq.black = false ∧ s.strobes = [] :=
  ⟨{ ((List.range 6).foldl (fun t c => t.put R.MEM_C_STAT_STATE 2 c) ((wRun.put R.RAIL_STAT_STATE 2).put R.RST_STAGE_STAGE 9)) with rst := { wRun.rst with hold := .run }, strobes := [], pseq := { wRun.pseq with noLaunch := false, waitReady := false, start := none, modes := none, anchor := none, black := false, next := 5 * 0 } }, by decide⟩

theorem wit_SubframesLaunchOnTheGrid_2 : ∃ (s : State), (s.rst.hold = .core ∨ (s.rst.hold = .run ∧ s.pseq.waitReady = true)) ∧ s.launches = true ∧ s.pseq.start = none ∧ s.strobes = [] :=
  ⟨{ ((wRun.put R.RAIL_STAT_STATE 3).put R.RST_STAGE_STAGE 9) with rst := { wRun.rst with hold := if 0 % 2 = 0 then .core else .run }, strobes := [], pseq := { wRun.pseq with noLaunch := false, waitReady := true, start := none } }, by decide⟩

theorem wit_SubframesLaunchOnTheGrid_3 : ∃ (s : State), (s.rst.hold = .run ∨ s.rst.hold = .core) ∧ s.launches = false :=
  ⟨{ wRun with rst := { wRun.rst with hold := .run }, pseq := { wRun.pseq with noLaunch := true } }, by decide⟩

theorem wit_SubframesLaunchOnTheGrid_4 : ∃ (s : State) (l : Nat) (rest : List Nat), s.time.launches = l :: rest ∧ l ≤ s.now + 1000000 ∧ s.now ≤ l + s.subPeriod :=
  ⟨{ wRun with time := { wRun.time with launches := [wRun.now + 5, wRun.now + 99] } }, (let s : State := { wRun with time := { wRun.time with launches := [wRun.now + 5, wRun.now + 99] } }; s.now + 5), (let s : State := { wRun with time := { wRun.time with launches := [wRun.now + 5, wRun.now + 99] } }; [s.now + 99]), by decide⟩

theorem wit_SubframesLaunchOnTheGrid_5 : ∃ (s : State) (l : Nat) (rest : List Nat), s.time.launches = l :: rest ∧ l + s.subPeriod < s.now :=
  ⟨{ wRun with time := { wRun.time with base := 2 ^ 70, raw := 0, rawBase := 0, launches := [5, 2 ^ 60] } }, 5, [2 ^ 60], by decide⟩

theorem wit_SubframesLaunchOnTheGrid_6 : ∃ (s : State) (anchor : Nat), s.isMirror = true :=
  ⟨wRun.put R.PAIR_STAT_STATE 3, 0 * 1000, by decide⟩

theorem wit_SubframesLaunchOnTheGrid_7 : ∃ (s : State), s.intk.standalone = true ∧ (s.intk.still = false ∨ s.intk.mark.isSome = true) :=
  ⟨{ wRun with intk := { wRun.intk with standalone := true, still := false } }, by decide⟩

theorem wit_FabricBeginsEachFrameOnce_1 : ∃ (s : State) (f : FrameSt), let l := s.gridTime s.nextBoundary
    s.rst.hold = .run ∧ s.powerDown = false ∧ s.nextBegun = false ∧ s.isMirror = false ∧ s.strobes = [] ∧ s.pers.pend = none ∧ s.pers.reload = none ∧ s.intk.next = none ∧ s.intk.frames = [f] ∧ (f.dp = none ∧ f.bad = false ∧ f.fresh = false ∧ f.closed = true) ∧ (s.atScaled l - s.halfScaled ≤ s.dueScaled f.time ∧ s.dueScaled f.time < s.atScaled l + s.halfScaled) :=
  ⟨{ (((wRun.put R.PAIR_STAT_STATE 4).put R.VIEW_DEPTH_COUNT 0).put R.THM_STAT_CUT 0) with thm := { wRun.thm with step := 0 }, rst := { wRun.rst with hold := .run }, strobes := [], pers := { wRun.pers with pend := none }, view := { wRun.view with begun := none }, intk := { wRun.intk with next := none, frames := [⟨0, wRun.gridTime wRun.nextBoundary - 2 * wRun.halfScaled / wRun.pseq.rateNum, 0 % 2 = 0, false, none, false, false, none, 0, 0, 0, 0, 0, 0, 0, none, [], true, none⟩] } }, (let s : State := { (((wRun.put R.PAIR_STAT_STATE 4).put R.VIEW_DEPTH_COUNT 0).put R.THM_STAT_CUT 0) with thm := { wRun.thm with step := 0 }, rst := { wRun.rst with hold := .run }, strobes := [], pers := { wRun.pers with pend := none }, view := { wRun.view with begun := none }, intk := { wRun.intk with next := none, frames := [⟨0, wRun.gridTime wRun.nextBoundary - 2 * wRun.halfScaled / wRun.pseq.rateNum, 0 % 2 = 0, false, none, false, false, none, 0, 0, 0, 0, 0, 0, 0, none, [], true, none⟩] } }; ⟨0, s.gridTime s.nextBoundary - 2 * s.halfScaled / s.pseq.rateNum, 0 % 2 = 0, false, none, false, false, none, 0, 0, 0, 0, 0, 0, 0, none, [], true, none⟩), by decide⟩

theorem wit_FabricBeginsEachFrameOnce_2 : ∃ (s : State) (d : Nat), s.rst.hold = .run ∧ s.powerDown = false ∧ s.nextBegun = false ∧ s.isMirror = false ∧ s.strobes = [] ∧ s.pers.pend = none ∧ s.pers.reload = none ∧ s.intk.frames = [] ∧ s.intk.shown = some d ∧ s.intk.still = false ∧ s.intk.next = none :=
  ⟨{ (((wRun.put R.PAIR_STAT_STATE 4).put R.VIEW_DEPTH_COUNT 0).put R.THM_STAT_CUT 0) with thm := { wRun.thm with step := 0 }, rst := { wRun.rst with hold := .run }, strobes := [], pers := { wRun.pers with pend := none }, view := { wRun.view with begun := none }, intk := { wRun.intk with next := none, frames := [], shown := some 7, still := false } }, 7, by decide⟩

theorem wit_FabricBeginsEachFrameOnce_3 : ∃ (s : State), s.nextBegun = true :=
  ⟨{ wRun with view := { wRun.view with begun := some (wRun.sfOf wRun.nextBoundary) } }, by decide⟩

theorem wit_PersonalitySlotsLoadAndPreload_1 : ∃ (s : State) (slot : Nat), slot < 8 ∧ s.slotState slot = 0 ∧ s.pendingOn slot = false ∧ s.pers.loading = none ∧ s.pers.waiting = [] :=
  ⟨{ wRun.put R.PERS_SLOT_STAT_STATE 0 (0 % 8) with pers := { wRun.pers with loading := none, waiting := [], pend := none } }, 0 % 8, by decide⟩

theorem wit_PersonalitySlotsLoadAndPreload_2 : ∃ (s : State) (slot : Nat), slot < 8 ∧ s.slotState slot = 6 :=
  ⟨wRun.put R.PERS_SLOT_STAT_STATE 6 (0 % 8), 0 % 8, by decide⟩

theorem wit_PersonalitySlotsLoadAndPreload_3 : ∃ (s : State) (slot : Nat), slot < 8 ∧ s.slotState slot = 2 ∧ s.pers.waiting.contains slot = false ∧ s.flag R.PERS_STATE_PRELOADING = false ∧ s.pers.pend = none ∧ s.pers.reload = none ∧ (s.flag R.PERS_STATE_STAGED_VALID = true → s.get R.PERS_STATE_STAGED_SLOT ≠ slot) :=
  ⟨{ (((wRun.put R.PERS_SLOT_STAT_STATE 2 (0 % 8)).put R.PERS_STATE_PRELOADING 0).put R.PERS_STATE_STAGED_SLOT ((0 + 3) % 8)).put R.PERS_SLOT_STAT_STATE 5 ((0 + 3) % 8) with pers := { wRun.pers with waiting := [], pend := none } }, 0 % 8, by decide⟩

theorem wit_PersonalitySlotsLoadAndPreload_4 : ∃ (s : State) (slot : Nat), slot < 8 ∧ (s.slotState slot = 2 ∨ s.slotState slot = 3) ∧ s.pers.waiting.contains slot = false ∧ s.pendingOn slot = false :=
  ⟨{ wRun.put R.PERS_SLOT_STAT_STATE (2 + 0 % 2) (0 % 8) with pers := { wRun.pers with waiting := [], pend := none, digest := [(0 % 8, [1])] } }, 0 % 8, by decide⟩

theorem wit_PersonalitySlotsLoadAndPreload_5 : ∃ (s : State) (slot : Nat) (rest : List Nat), slot < 8 ∧ s.pers.loading = none ∧ s.pers.waiting = slot :: rest ∧ slot ∉ rest ∧ (s.slotState slot = 0 ∨ s.slotState slot = 3) ∧ s.pendingOn slot = false :=
  ⟨{ wRun.put R.PERS_SLOT_STAT_STATE (3 * (0 % 2)) (0 % 8) with pers := { wRun.pers with loading := none, waiting := [0 % 8, 9], pend := none } }, 0 % 8, [9], by decide⟩

theorem wit_PersonalitySlotsLoadAndPreload_6 : ∃ (s : State) (slot src len : Nat), slot < 8 ∧ s.pers.loading = some (slot, src, len, true) ∧ (64 ≤ len ∧ len ≤ 67108864) :=
  ⟨{ wRun.put R.MEM_SIZE 78848 with pers := { wRun.pers with loading := some (0 % 8, 4096, 64 + 0, true) }, dram := (List.range 70).map (fun i => (4096 + i, BitVec.ofNat 8 (i % 7 + 1))) }, 0 % 8, 4096, 64 + 0, by decide⟩

theorem wit_PersonalitySlotsLoadAndPreload_7 : ∃ (s : State) (slot src len : Nat) (region : Bool), slot < 8 ∧ s.pers.loading = some (slot, src, len, region) ∧ (region = false ∨ len < 64) :=
  ⟨{ wRun with pers := { wRun.pers with loading := some (0 % 8, 4096, 63, 0 % 2 = 0) } }, 0 % 8, 4096, 63, 0 % 2 = 0, by decide⟩

set_option maxRecDepth 4000 in
theorem wit_PersonalitySlotsLoadAndPreload_8 : ∃ (s : State) (place : List (Nat × Nat)), let slot := s.get R.PERS_STATE_STAGED_SLOT
    s.flag R.PERS_STATE_PRELOADING = true ∧ s.placement slot = some place ∧ s.fab.migs = [] :=
  ⟨((wBase ((List.range 10).foldl (fun t n => t.put R.FAB_TILE_STAT_STATE (if n = 6 ∧ 0 % 2 = 1 then 5 else 2) n) wRun) []).put R.PERS_STATE_PRELOADING 1).put R.PERS_STATE_STAGED_SLOT 0, [(0, 5), (1, if 0 % 2 = 1 then 9 else 6)], by decide⟩

theorem wit_ActivationsArePendingUntilTheirBoundary_1 : ∃ (s : State) (r : Req) (slot : Nat), slot < 8 ∧ (s.isMirror = false ∧ s.isActive = false) ∧ s.slotState slot = 5 ∧ s.pers.reload = none :=
  ⟨{ (wRun.put R.PERS_SLOT_STAT_STATE 5 (0 % 8)).put R.PAIR_STAT_STATE 4 with pers := { wRun.pers with pend := some ⟨7, none, 0, none⟩ } }, .host, 0 % 8, by decide⟩

theorem wit_ActivationsArePendingUntilTheirBoundary_2 : ∃ (s : State) (r : Req) (slot : Nat), slot < 8 ∧ (s.isMirror = false ∧ s.isActive = false) ∧ s.slotState slot = 2 ∧ s.pers.reload = none :=
  ⟨(wRun.put R.PERS_SLOT_STAT_STATE 2 (0 % 8)).put R.PAIR_STAT_STATE 4, .host, 0 % 8, by decide⟩

theorem wit_ActivationsArePendingUntilTheirBoundary_3 : ∃ (s : State) (r : Req) (slot : Nat), slot < 8 ∧ (s.isMirror = false ∧ s.isActive = false) ∧ (s.slotState slot = 0 ∨ s.slotState slot = 1 ∨ s.slotState slot = 3) ∧ s.pers.reload ≠ some slot :=
  ⟨(wRun.put R.PERS_SLOT_STAT_STATE (0 % 2) (0 % 8)).put R.PAIR_STAT_STATE 4, .host, 0 % 8, by decide⟩

theorem wit_ActivationsArePendingUntilTheirBoundary_4 : ∃ (s : State) (r : Req) (slot : Nat), slot < 8 ∧ (s.isMirror = false ∧ s.isActive = false) ∧ s.slotState slot = 6 :=
  ⟨(wRun.put R.PERS_SLOT_STAT_STATE 6 (0 % 8)).put R.PAIR_STAT_STATE 4, .host, 0 % 8, by decide⟩

theorem wit_ActivationsArePendingUntilTheirBoundary_5 : ∃ (s : State) (r : Req), (s.isMirror = false ∨ r = .partner) :=
  ⟨{ wRun.put R.PAIR_STAT_STATE (2 + 2 * (0 % 2)) with pers := { wRun.pers with pend := some ⟨7, none, 0, none⟩ } }, .host, by decide⟩

theorem wit_ActivationsArePendingUntilTheirBoundary_6 : ∃ (s : State) (p : PendAct), s.pers.pend = some p ∧ s.stagedBusy = true :=
  ⟨{ wRun with pers := { wRun.pers with pend := some ⟨7, none, 0, none⟩ }, fab := ⟨[], [], [], [], if 0 % 2 = 0 then [⟨3, 4, 1, .copy, 0, none, false, false, 0, false⟩] else [], if 0 % 2 = 1 then [(5, 9)] else [], []⟩ }, ⟨7, none, 0, none⟩, by decide⟩

theorem wit_ActivationsArePendingUntilTheirBoundary_7 : ∃ (s : State) (n spare : Nat), n < 400 ∧ (s.tile n).swapDue = true ∧ s.migOf n = none ∧ (s.pers.act.any (fun p => p.2 = n) = true) ∧ pickSpare (placePolicy (s.slotFile s.activeSlot)) n (s.usableSpares s.activeSlot s.pers.act) = some spare ∧ s.tileState n ≠ 5 :=
  ⟨(fun u : State => u.setTile 5 { u.tile 5 with swapDue := true }) (wBase ((wRun.put R.FAB_TILE_STAT_STATE 1 5).put R.FAB_TILE_STAT_STATE 2 9) []), 5, 9, by decide⟩

theorem wit_ActivationsArePendingUntilTheirBoundary_8 : ∃ (s : State) (n : Nat), n < 400 ∧ s.rst.hold = .run ∧ s.rst.coreEntering = false ∧ (s.tile n).swapDue = true ∧ s.migOf n = none ∧ (s.pers.act.any (fun p => p.2 = n) = true) ∧ pickSpare (placePolicy (s.slotFile s.activeSlot)) n (s.usableSpares s.activeSlot s.pers.act) = none :=
  ⟨{ (fun u : State => u.setTile 5 { u.tile 5 with swapDue := true }) (wBase ((wRun.put R.FAB_TILE_STAT_STATE 1 5).put R.FAB_TILE_STAT_STATE 5 9) []) with rst := { wRun.rst with hold := .run, coreEntering := false } }, 5, by decide⟩

theorem wit_TokensWaitDispatchAndPass_1 : ∃ (s : State) (n port : Nat) (tok : Token) (p : Plane), (n < 400 ∧ port < 8) ∧ tok.tag < 0xFF0 ∧ (s.tile n).active = some p ∧ ((s.tile n).buf = [(port, tok)] ∧ (s.tile n).subSeen = [] ∧ (s.tile n).swapDue = false) ∧ ((s.tile n).dead = true ∨ ((s.tile n).fwd.any (fun q => q.1 = port) = false ∧ p.entry tok.tag % 256 = 0)) ∧ p.ins ≠ [] :=
  ⟨(let u := wThread wRun 0 []; u.setTile 5 { u.tile 5 with buf := [(3, ⟨1, 0, 0 % 3 = 0, 77⟩)], dead := 0 % 2 = 0 }), 5, 3, ⟨1, 0, 0 % 3 = 0, 77⟩, wThreadPlane 0, by decide⟩

theorem wit_TokensWaitDispatchAndPass_2 : ∃ (s : State) (n port : Nat) (tok : Token) (p : Plane) (r : RoutePort), (n < 400 ∧ port < 8) ∧ tok.tag < 0xFF0 ∧ (s.tile n).active = some p ∧ ((s.tile n).buf = [(port, tok)] ∧ (s.tile n).subSeen = [] ∧ (s.tile n).swapDue = false ∧ (s.tile n).dead = false) ∧ ((s.tile n).fwd.any (fun q => q.1 = port) = false) ∧ p.ins ≠ [] ∧ p.entry tok.tag % 256 = 2 ∧ (p.outs.find? (fun r => r.out = p.entry tok.tag / 2 ^ 18 % 8) = some r) ∧ ((s.tile n).outq.any (fun q => q.1.out = p.entry tok.tag / 2 ^ 18 % 8) = false) ∧ (r.dst < 400 → s.room r.dst r.inp r.vc = true) :=
  ⟨(let u := wTileP wRun (wPlane [] [] [0, 2 + 3 * 2 ^ 18] [⟨3, [6, 0xFFF0, 0xFF05].getD (0 % 3) 0, 2, 1⟩] [3]) []; u.setTile 5 { u.tile 5 with buf := [(3, ⟨1, 0, 0 % 2 = 0, 77⟩)] }), 5, 3, ⟨1, 0, 0 % 2 = 0, 77⟩, wPlane [] [] [0, 2 + 3 * 2 ^ 18] [⟨3, [6, 0xFFF0, 0xFF05].getD (0 % 3) 0, 2, 1⟩] [3], ⟨3, [6, 0xFFF0, 0xFF05].getD (0 % 3) 0, 2, 1⟩, by decide⟩

theorem wit_TokensWaitDispatchAndPass_3 : ∃ (s : State) (n port h : Nat) (tok : Token) (p : Plane), (n < 400 ∧ port < 8) ∧ tok.tag < 0xFF0 ∧ (s.tile n).active = some p ∧ ((s.tile n).buf = [(port, tok)] ∧ (s.tile n).subSeen = [] ∧ (s.tile n).swapDue = false ∧ (s.tile n).dead = false) ∧ ((s.tile n).fwd.any (fun q => q.1 = port) = false) ∧ p.ins ≠ [] ∧ p.entry tok.tag % 256 = 1 ∧ freeThread (s.tile n) (p.configWord 5) = some h :=
  ⟨(let u := wTileP wRun (wPlane [0, 0, 0, 0, 0, 3] [] [0, 1 + 256 * 55] [] [3]) []; u.setTile 5 { u.tile 5 with buf := [(3, ⟨1, 0, 0 % 2 = 0, 77⟩)] }), 5, 3, 0, ⟨1, 0, 0 % 2 = 0, 77⟩, wPlane [0, 0, 0, 0, 0, 3] [] [0, 1 + 256 * 55] [] [3], by decide⟩

theorem wit_TokensWaitDispatchAndPass_4 : ∃ (s : State) (n port : Nat) (f : Flit) (rest : List Flit) (p : Plane), (n < 400 ∧ port < 8) ∧ (s.tile n).active = some p ∧ (takeFlit (fun f => decide (f.dst = n ∧ f.port = port)) s.fab.mesh = some (f, rest)) ∧ (f.dst = n ∧ f.port = port) ∧ f.tok.tag < 0xFF0 ∧ (s.tile n).waitsFor port f.src = false ∧ ((s.tile n).dead = false ∧ (s.tile n).fwd.any (fun q => q.1 = port) = true) :=
  ⟨(let u := wThread wRun 0 []; { (u.setTile 5 { u.tile 5 with fwd := [(3, 6, ⟨1, 0, false, 77⟩)] }) with fab := { (u.setTile 5 { u.tile 5 with fwd := [(3, 6, ⟨1, 0, false, 77⟩)] }).fab with mesh := [⟨7, 9, 3, ⟨8, 0, false, 1⟩, []⟩, ⟨7, 5, 3, ⟨1, 1, false, 0⟩, [7, 6, 5]⟩] } }), 5, 3, ⟨7, 5, 3, ⟨1, 1, false, 0⟩, [7, 6, 5]⟩, [⟨7, 9, 3, ⟨8, 0, false, 1⟩, []⟩], wThreadPlane 0, by decide⟩

theorem wit_TokensWaitDispatchAndPass_5 : ∃ (s : State) (n port q : Nat) (tok req : Token) (rest : List FetchItem) (r : RoutePort) (p : Plane), (n < 400 ∧ port < 8 ∧ q < 24) ∧ tok.tag < 0xFF0 ∧ (s.fetchPt q).queue = .request n req :: rest ∧ (s.fetchPt q).outq = [] ∧ ((s.fetchPt q).outs.find? (fun r => r.dst = n) = some r) ∧ (r.inp = port ∧ r.vc = tok.vc ∧ r.dst = n) ∧ s.room n port r.vc = true ∧ s.fab.mesh = [] ∧ (s.tile n).active = some p ∧ (s.tile n).waitsFor port (400 + q) = false ∧ ((s.tile n).dead = false ∧ (s.tile n).fwd.any (fun q => q.1 = port) = true) :=
  ⟨(let u := wThread wRun 0 []; (u.setTile 5 { u.tile 5 with fwd := [(3, 6, ⟨1, 0, false, 77⟩)] }).setFetch 4 { idleFetch with outs := [⟨0, 5, 3, 2⟩], queue := [.request 5 ⟨9, 0, 0 % 2 = 0, 1⟩] }), 5, 3, 4, ⟨12, 2, false, 0⟩, ⟨9, 0, 0 % 2 = 0, 1⟩, [], ⟨0, 5, 3, 2⟩, wThreadPlane 0, by decide⟩

theorem wit_TokensWaitDispatchAndPass_6 : ∃ (s : State) (n port q m : Nat) (tok req : Token) (last : Bool) (rest : List FetchItem), (n < 400 ∧ port < 8 ∧ q < 24) ∧ (s.fetchPt q).queue = .request m req :: rest ∧ m ≠ n ∧ (s.tile n).buf = [] :=
  ⟨(wThread wRun 0 []).setFetch 4 { idleFetch with outs := [⟨0, 5, 3, 2⟩], queue := [.request 9 ⟨9, 0, 0 % 2 = 0, 1⟩] }, 5, 3, 4, 9, ⟨12, 2, false, 0⟩, ⟨9, 0, 0 % 2 = 0, 1⟩, true, [], by decide⟩

theorem wit_TokensWaitDispatchAndPass_7 : ∃ (s : State) (n port h : Nat) (tok : Token) (p : Plane), n < 400 ∧ (s.tile n).active = some p ∧ ((s.tile n).buf = [(port, tok)] ∧ (s.tile n).subSeen = [] ∧ (s.tile n).swapDue = false ∧ (s.tile n).dead = false) ∧ ((s.tile n).fwd.any (fun q => q.1 = port) = false) ∧ p.ins ≠ [] ∧ tok.tag < 0xFF0 ∧ p.entry tok.tag % 256 = 1 ∧ freeThread (s.tile n) (p.configWord 5) = some h :=
  ⟨(let u := wTileP wRun (wPlane [0, 0, 0, 0, 0, 3] [] [0, 1 + 256 * 55] [] [3]) []; u.setTile 5 { u.tile 5 with buf := [(3, ⟨1, 0, false, 77⟩)] }), 5, 3, 0, ⟨1, 0, false, 77⟩, wPlane [0, 0, 0, 0, 0, 3] [] [0, 1 + 256 * 55] [] [3], by decide⟩

theorem wit_TokensWaitDispatchAndPass_8 : ∃ (s : State) (n port out : Nat) (tok : Token) (p : Plane) (r : RoutePort), (s.tile n).active = some p ∧ (s.tile n).fwd = [(port, out, tok)] ∧ ((s.tile n).buf = [] ∧ (s.tile n).subSeen = [] ∧ (s.tile n).outq = []) ∧ p.ins ≠ [] ∧ (p.outs.find? (fun r => r.out = out) = some r) ∧ r.dst < 400 ∧ s.room r.dst r.inp r.vc = true ∧ s.fab.fetch = [] :=
  ⟨(fun u : State => u.setTile 5 { u.tile 5 with fwd := [(3, 8, ⟨1, 0, false, 77⟩)] }) (wThread wRun 0 []), 5, 3, 8, ⟨1, 0, false, 77⟩, wThreadPlane 0, ⟨8, 6, 3, 1⟩, by decide⟩

theorem wit_TokensWaitDispatchAndPass_9 : ∃ (s : State) (n port : Nat) (f : Flit) (rest : List Flit) (p : Plane), (n < 400 ∧ port < 8) ∧ (s.tile n).active = some p ∧ p.ins = [port] ∧ ((s.tile n).buf = [] ∧ (s.tile n).subSeen = [] ∧ (s.tile n).threads = [] ∧ (s.tile n).fwd = [] ∧ (s.tile n).dead = false) ∧ (s.tile n).swapDue = true ∧ s.get R.FAB_TILE_HEALTH_THRESH n = 0 ∧ s.tileState n = 1 ∧ s.migOf n = none ∧ s.redirectsAt (s.view.begun.getD 0 % 2 ^ 32) = [] ∧ (takeFlit (fun f => decide (f.dst = n ∧ f.port = port)) s.fab.mesh = some (f, rest)) ∧ (f.dst = n ∧ f.port = port) ∧ f.tok.tag = 0xFFF ∧ (s.tile n).waitsFor port f.src = false :=
  ⟨(let u := wThread ((wRun.put R.FAB_TILE_HEALTH_THRESH 0 5).put R.FAB_TILE_STAT_STATE 1 5) 0 []; let v := u.setTile 5 { u.tile 5 with threads := [], swapDue := true, standby := if 0 % 2 = 0 then none else some (wPlane [1] [] [] [] [2]) }; { v with fab := { v.fab with mesh := [⟨7, 5, 3, ⟨0xFFF, 0, false, 0⟩, [7, 6, 5]⟩] } }), 5, 3, ⟨7, 5, 3, ⟨0xFFF, 0, false, 0⟩, [7, 6, 5]⟩, [], wThreadPlane 0, by decide⟩

theorem wit_TokensWaitDispatchAndPass_10 : ∃ (s : State) (n port : Nat) (f : Flit) (rest : List Flit) (p : Plane), (n < 400 ∧ port < 8) ∧ (s.tile n).active = some p ∧ p.ins.contains port = true ∧ ((s.tile n).buf = [] ∧ (s.tile n).subSeen = []) ∧ ((s.tile n).threads ≠ [] ∨ (s.tile n).fwd ≠ [] ∨ p.ins.any (fun q => q ≠ port) = true) ∧ (takeFlit (fun f => decide (f.dst = n ∧ f.port = port)) s.fab.mesh = some (f, rest)) ∧ (f.dst = n ∧ f.port = port) ∧ f.tok.tag = 0xFFF ∧ (s.tile n).waitsFor port f.src = false :=
  ⟨(let u := wThread wRun 0 []; { u with fab := { u.fab with mesh := [⟨7, 5, 3, ⟨0xFFF, 0, false, 0⟩, [7, 6, 5]⟩] } }), 5, 3, ⟨7, 5, 3, ⟨0xFFF, 0, false, 0⟩, [7, 6, 5]⟩, [], wThreadPlane 0, by decide⟩

theorem wit_TokensWaitDispatchAndPass_11 : ∃ (s : State) (n port : Nat) (f : Flit) (rest : List Flit) (p : Plane) (r : RoutePort), let pen := s.get R.FAB_TILE_HEALTH_PENALTY n
    (n < 400 ∧ port < 8) ∧ (s.tile n).active = some p ∧ p.ins = [port] ∧ p.outs = [r] ∧ r.dst < 400 ∧ ((s.tile n).buf = [] ∧ (s.tile n).subSeen = [] ∧ (s.tile n).outq = []) ∧ s.get R.FAB_TILE_HEALTH_THRESH n = 0 ∧ s.tileState n = 1 ∧ (s.tile n).dead = false ∧ (takeFlit (fun f => decide (f.dst = n ∧ f.port = port)) s.fab.mesh = some (f, rest)) ∧ (f.dst = n ∧ f.port = port) ∧ f.tok.tag = 0xFFE ∧ (s.tile n).waitsFor port f.src = false ∧ s.redirectsAt (f.tok.payload % 2 ^ 32) = [] ∧ s.room r.dst r.inp r.vc = true :=
  ⟨(let u := wTileP ((wRun.put R.FAB_TILE_HEALTH_THRESH 0 5).put R.FAB_TILE_STAT_STATE 1 5 |>.put R.FAB_STAT_DEGRADED 0) (wPlane [] [] [] [⟨2, 9, 1, 1⟩] [3]) []; let v := u.setTile 5 { u.tile 5 with charged := 0 * 20 }; { v with fab := { v.fab with mesh := [⟨7, 5, 3, ⟨0xFFE, 0, false, 0⟩, [7, 6, 5]⟩] } }), 5, 3, ⟨7, 5, 3, ⟨0xFFE, 0, false, 0⟩, [7, 6, 5]⟩, [], wPlane [] [] [] [⟨2, 9, 1, 1⟩] [3], ⟨2, 9, 1, 1⟩, by decide⟩

theorem wit_TokensWaitDispatchAndPass_12 : ∃ (s : State) (n port q : Nat) (f : Flit) (rest : List Flit) (p : Plane), (n < 400 ∧ port < 8) ∧ (s.tile n).active = some p ∧ (p.ins = [port, q] ∧ q ≠ port) ∧ ((s.tile n).buf = [] ∧ (s.tile n).subSeen = []) ∧ (takeFlit (fun f => decide (f.dst = n ∧ f.port = port) && !(s.tile n).waitsFor port f.src) s.fab.mesh = some (f, rest)) ∧ f.tok.tag = 0xFFD ∧ (s.view.begun.map (fun b => b % 2 ^ 32) = some (f.tok.payload % 2 ^ 32)) :=
  ⟨(let u := { wTileP wRun (wPlane [] [] [] [] [3, 2]) [] with view := { wRun.view with begun := some (0 + 2 ^ 32) } }; let v := u.setTile 5 { u.tile 5 with drainWait := [(2, 9), (3, 9)], spareHeld := [(3, ⟨4, 0, false, 1⟩), (2, ⟨5, 0, false, 1⟩)] }; { v with fab := { v.fab with mesh := [⟨9, 5, 3, ⟨8, 0, false, 1⟩, []⟩, ⟨6, 5, 3, ⟨0xFFD, 0, false, 0 + 6 * 2 ^ 32⟩, []⟩] } }), 5, 3, 2, ⟨6, 5, 3, ⟨0xFFD, 0, false, 0 + 6 * 2 ^ 32⟩, []⟩, [⟨9, 5, 3, ⟨8, 0, false, 1⟩, []⟩], wPlane [] [] [] [] [3, 2], by decide⟩

theorem wit_TokensWaitDispatchAndPass_13 : ∃ (s : State) (n port q : Nat) (f : Flit) (rest : List Flit) (p : Plane), (n < 400 ∧ port < 8) ∧ (s.tile n).active = some p ∧ (p.ins = [port, q] ∧ q ≠ port) ∧ ((s.tile n).buf = [] ∧ (s.tile n).subSeen = [] ∧ (s.tile n).spareHeld = []) ∧ (takeFlit (fun f => decide (f.dst = n ∧ f.port = port) && !(s.tile n).waitsFor port f.src) s.fab.mesh = some (f, rest)) ∧ f.tok.tag = 0xFFD ∧ s.view.begun = none :=
  ⟨(let u := { wTileP wRun (wPlane [] [] [] [] [3, 2]) [] with view := { wRun.view with begun := none } }; let v := u.setTile 5 { u.tile 5 with drainWait := [(2, 9), (3, 9)] }; { v with fab := { v.fab with mesh := [⟨9, 5, 3, ⟨8, 0, false, 1⟩, []⟩, ⟨6, 5, 3, ⟨0xFFD, 0, false, 0 + 6 * 2 ^ 32⟩, []⟩] } }), 5, 3, 2, ⟨6, 5, 3, ⟨0xFFD, 0, false, 0 + 6 * 2 ^ 32⟩, []⟩, [⟨9, 5, 3, ⟨8, 0, false, 1⟩, []⟩], wPlane [] [] [] [] [3, 2], by decide⟩

theorem wit_MicroSequencerArithmetic_1 : ∃ (s : State) (n h w : Nat) (th : Thread) (p : Plane), s.fetchOp n h = some (w, th, p) ∧ opField w = 1 :=
  ⟨wThread wRun (1 * 2 ^ 26 + (3 + 0) % 32 * 2 ^ 21 + (0 * 5) % 32 * 2 ^ 16 + (0 % 32)) (wRegs 0), 5, 2, (1 * 2 ^ 26 + (3 + 0) % 32 * 2 ^ 21 + (0 * 5) % 32 * 2 ^ 16 + (0 % 32)), ⟨0, wRegs 0, false, 0⟩, wThreadPlane (1 * 2 ^ 26 + (3 + 0) % 32 * 2 ^ 21 + (0 * 5) % 32 * 2 ^ 16 + (0 % 32)), by decide⟩

theorem wit_MicroSequencerArithmetic_2 : ∃ (s : State) (n h w : Nat) (th : Thread) (p : Plane), s.fetchOp n h = some (w, th, p) ∧ opField w = 2 :=
  ⟨wThread wRun (2 * 2 ^ 26 + (3 + 0) % 32 * 2 ^ 21 + (0 * 5) % 32 * 2 ^ 16 + (0 % 32)) (wRegs 0), 5, 2, (2 * 2 ^ 26 + (3 + 0) % 32 * 2 ^ 21 + (0 * 5) % 32 * 2 ^ 16 + (0 % 32)), ⟨0, wRegs 0, false, 0⟩, wThreadPlane (2 * 2 ^ 26 + (3 + 0) % 32 * 2 ^ 21 + (0 * 5) % 32 * 2 ^ 16 + (0 % 32)), by decide⟩

theorem wit_MicroSequencerArithmetic_3 : ∃ (s : State) (n h w : Nat) (th : Thread) (p : Plane), s.fetchOp n h = some (w, th, p) ∧ opField w = 3 :=
  ⟨wThread wRun (3 * 2 ^ 26 + (3 + 0) % 32 * 2 ^ 21 + (0 * 5) % 32 * 2 ^ 16 + (0 % 32)) (wRegs 0), 5, 2, (3 * 2 ^ 26 + (3 + 0) % 32 * 2 ^ 21 + (0 * 5) % 32 * 2 ^ 16 + (0 % 32)), ⟨0, wRegs 0, false, 0⟩, wThreadPlane (3 * 2 ^ 26 + (3 + 0) % 32 * 2 ^ 21 + (0 * 5) % 32 * 2 ^ 16 + (0 % 32)), by decide⟩

theorem wit_MicroSequencerArithmetic_4 : ∃ (s : State) (n h w : Nat) (th : Thread) (p : Plane), s.fetchOp n h = some (w, th, p) ∧ opField w = 4 :=
  ⟨wThread wRun (4 * 2 ^ 26 + (3 + 0) % 32 * 2 ^ 21 + (0 * 5) % 32 * 2 ^ 16 + (0 % 32)) (wRegs 0), 5, 2, (4 * 2 ^ 26 + (3 + 0) % 32 * 2 ^ 21 + (0 * 5) % 32 * 2 ^ 16 + (0 % 32)), ⟨0, wRegs 0, false, 0⟩, wThreadPlane (4 * 2 ^ 26 + (3 + 0) % 32 * 2 ^ 21 + (0 * 5) % 32 * 2 ^ 16 + (0 % 32)), by decide⟩

theorem wit_MicroSequencerArithmetic_5 : ∃ (s : State) (n h w : Nat) (th : Thread) (p : Plane), s.fetchOp n h = some (w, th, p) ∧ opField w = 5 :=
  ⟨wThread wRun (5 * 2 ^ 26 + (3 + 0) % 32 * 2 ^ 21 + (0 * 5) % 32 * 2 ^ 16 + (0 % 32)) (wRegs 0), 5, 2, (5 * 2 ^ 26 + (3 + 0) % 32 * 2 ^ 21 + (0 * 5) % 32 * 2 ^ 16 + (0 % 32)), ⟨0, wRegs 0, false, 0⟩, wThreadPlane (5 * 2 ^ 26 + (3 + 0) % 32 * 2 ^ 21 + (0 * 5) % 32 * 2 ^ 16 + (0 % 32)), by decide⟩

theorem wit_MicroSequencerArithmetic_6 : ∃ (s : State) (n h w : Nat) (th : Thread) (p : Plane), s.fetchOp n h = some (w, th, p) ∧ opField w = 6 :=
  ⟨wThread wRun (6 * 2 ^ 26 + (3 + 0) % 32 * 2 ^ 21 + (0 * 5) % 32 * 2 ^ 16 + (0 % 32)) (wRegs 0), 5, 2, (6 * 2 ^ 26 + (3 + 0) % 32 * 2 ^ 21 + (0 * 5) % 32 * 2 ^ 16 + (0 % 32)), ⟨0, wRegs 0, false, 0⟩, wThreadPlane (6 * 2 ^ 26 + (3 + 0) % 32 * 2 ^ 21 + (0 * 5) % 32 * 2 ^ 16 + (0 % 32)), by decide⟩

theorem wit_MicroSequencerArithmetic_7 : ∃ (s : State) (n h w : Nat) (th : Thread) (p : Plane), s.fetchOp n h = some (w, th, p) ∧ opField w = 7 :=
  ⟨wThread wRun (7 * 2 ^ 26 + (3 + 0) % 32 * 2 ^ 21 + (0 * 5) % 32 * 2 ^ 16 + (0 % 32)) (wRegs 0), 5, 2, (7 * 2 ^ 26 + (3 + 0) % 32 * 2 ^ 21 + (0 * 5) % 32 * 2 ^ 16 + (0 % 32)), ⟨0, wRegs 0, false, 0⟩, wThreadPlane (7 * 2 ^ 26 + (3 + 0) % 32 * 2 ^ 21 + (0 * 5) % 32 * 2 ^ 16 + (0 % 32)), by decide⟩

theorem wit_MicroSequencerArithmetic_8 : ∃ (s : State) (n h w : Nat) (th : Thread) (p : Plane), s.fetchOp n h = some (w, th, p) ∧ opField w = 9 :=
  ⟨wThread wRun (9 * 2 ^ 26 + (3 + 0) % 32 * 2 ^ 21 + (0 * 5) % 32 * 2 ^ 16 + (0 % 32)) (wRegs 0), 5, 2, (9 * 2 ^ 26 + (3 + 0) % 32 * 2 ^ 21 + (0 * 5) % 32 * 2 ^ 16 + (0 % 32)), ⟨0, wRegs 0, false, 0⟩, wThreadPlane (9 * 2 ^ 26 + (3 + 0) % 32 * 2 ^ 21 + (0 * 5) % 32 * 2 ^ 16 + (0 % 32)), by decide⟩

theorem wit_MicroSequencerArithmetic_9 : ∃ (s : State) (n h w : Nat) (th : Thread) (p : Plane), s.fetchOp n h = some (w, th, p) ∧ opField w = 8 :=
  ⟨wThread wRun (8 * 2 ^ 26 + (3 + 0) % 32 * 2 ^ 21 + (0 * 5) % 32 * 2 ^ 16 + (0 * 9000 % 65536)) (wRegs 0), 5, 2, (8 * 2 ^ 26 + (3 + 0) % 32 * 2 ^ 21 + (0 * 5) % 32 * 2 ^ 16 + (0 * 9000 % 65536)), ⟨0, wRegs 0, false, 0⟩, wThreadPlane (8 * 2 ^ 26 + (3 + 0) % 32 * 2 ^ 21 + (0 * 5) % 32 * 2 ^ 16 + (0 * 9000 % 65536)), by decide⟩

theorem wit_MicroSequencerArithmetic_10 : ∃ (s : State) (n h w : Nat) (th : Thread) (p : Plane), s.fetchOp n h = some (w, th, p) ∧ opField w = 0x10 :=
  ⟨wThread wRun (16 * 2 ^ 26 + (3 + 0) % 32 * 2 ^ 21 + (0 * 5) % 32 * 2 ^ 16 + (0 % 32 + 64)) (wRegs 0), 5, 2, (16 * 2 ^ 26 + (3 + 0) % 32 * 2 ^ 21 + (0 * 5) % 32 * 2 ^ 16 + (0 % 32 + 64)), ⟨0, wRegs 0, false, 0⟩, wThreadPlane (16 * 2 ^ 26 + (3 + 0) % 32 * 2 ^ 21 + (0 * 5) % 32 * 2 ^ 16 + (0 % 32 + 64)), by decide⟩

theorem wit_MicroSequencerArithmetic_11 : ∃ (s : State) (n h w : Nat) (th : Thread) (p : Plane), s.fetchOp n h = some (w, th, p) ∧ opField w = 0x11 :=
  ⟨wThread wRun (17 * 2 ^ 26 + (3 + 0) % 32 * 2 ^ 21 + (0 * 5) % 32 * 2 ^ 16 + (0 % 32)) (wRegs 0), 5, 2, (17 * 2 ^ 26 + (3 + 0) % 32 * 2 ^ 21 + (0 * 5) % 32 * 2 ^ 16 + (0 % 32)), ⟨0, wRegs 0, false, 0⟩, wThreadPlane (17 * 2 ^ 26 + (3 + 0) % 32 * 2 ^ 21 + (0 * 5) % 32 * 2 ^ 16 + (0 % 32)), by decide⟩

theorem wit_MicroSequencerArithmetic_12 : ∃ (s : State) (n h w : Nat) (th : Thread) (p : Plane), s.fetchOp n h = some (w, th, p) ∧ opField w = 0x12 :=
  ⟨wThread wRun (18 * 2 ^ 26 + (3 + 0) % 32 * 2 ^ 21 + (0 * 5) % 32 * 2 ^ 16 + (0 % 3)) (wRegs 0), 5, 2, (18 * 2 ^ 26 + (3 + 0) % 32 * 2 ^ 21 + (0 * 5) % 32 * 2 ^ 16 + (0 % 3)), ⟨0, wRegs 0, false, 0⟩, wThreadPlane (18 * 2 ^ 26 + (3 + 0) % 32 * 2 ^ 21 + (0 * 5) % 32 * 2 ^ 16 + (0 % 3)), by decide⟩

theorem wit_MicroSequencerArithmetic_13 : ∃ (s : State) (n h w : Nat) (th : Thread) (p : Plane), s.fetchOp n h = some (w, th, p) ∧ opField w = 0x0E :=
  ⟨wThread wRun (14 * 2 ^ 26 + (3 + 0) % 32 * 2 ^ 21 + (0 * 5) % 32 * 2 ^ 16 + (2000 + 0)) (if 0 % 2 = 0 then wRegs 0 else []), 5, 2, (14 * 2 ^ 26 + (3 + 0) % 32 * 2 ^ 21 + (0 * 5) % 32 * 2 ^ 16 + (2000 + 0)), ⟨0, (if 0 % 2 = 0 then wRegs 0 else []), false, 0⟩, wThreadPlane (14 * 2 ^ 26 + (3 + 0) % 32 * 2 ^ 21 + (0 * 5) % 32 * 2 ^ 16 + (2000 + 0)), by decide⟩

theorem wit_MicroSequencerArithmetic_14 : ∃ (s : State) (n h w : Nat) (th : Thread) (p : Plane), s.fetchOp n h = some (w, th, p) ∧ opField w = 0 ∧ ((s.tile n).subSeen = [] ∧ (s.tile n).buf.any (fun q => decide (0xFF0 ≤ q.2.tag)) = false) :=
  ⟨wThread wRun (0 * 2 ^ 26 + (3 + 0) % 32 * 2 ^ 21 + (0 * 5) % 32 * 2 ^ 16 + (0 % 32)) (wRegs 0), 5, 2, (0 * 2 ^ 26 + (3 + 0) % 32 * 2 ^ 21 + (0 * 5) % 32 * 2 ^ 16 + (0 % 32)), ⟨0, wRegs 0, false, 0⟩, wThreadPlane (0 * 2 ^ 26 + (3 + 0) % 32 * 2 ^ 21 + (0 * 5) % 32 * 2 ^ 16 + (0 % 32)), by decide⟩

theorem wit_MicroSequencerArithmetic_15 : ∃ (s : State) (n h w : Nat) (th : Thread) (p : Plane), s.fetchOp n h = some (w, th, p) ∧ 0x12 < opField w ∧ ((s.tile n).subSeen = [] ∧ (s.tile n).buf.any (fun q => decide (0xFF0 ≤ q.2.tag)) = false) ∧ n < 400 :=
  ⟨wThread wRun ((19 + 0) % 64 * 2 ^ 26 + 5) (wRegs 0), 5, 2, ((19 + 0) % 64 * 2 ^ 26 + 5), ⟨0, wRegs 0, false, 0⟩, wThreadPlane ((19 + 0) % 64 * 2 ^ 26 + 5), by decide⟩

theorem wit_MicroSequencerMemorySamplesAndTokens_1 : ∃ (s : State) (n h w : Nat) (th : Thread) (p : Plane), s.fetchOp n h = some (w, th, p) ∧ opField w = 0x0B ∧ (th.reg (aField w) + immField w) + 4 ≤ 65536 :=
  ⟨(fun u : State => u.setTile 5 { u.tile 5 with lmem := [(2, 9), (5, 77), (100, 3)] }) (wThread wRun (11 * 2 ^ 26 + (3 + 0) % 32 * 2 ^ 21 + (0 * 5) % 32 * 2 ^ 16 + (0 * 4)) (List.replicate 32 3)), 5, 2, (11 * 2 ^ 26 + (3 + 0) % 32 * 2 ^ 21 + (0 * 5) % 32 * 2 ^ 16 + (0 * 4)), ⟨0, List.replicate 32 3, false, 0⟩, wThreadPlane (11 * 2 ^ 26 + (3 + 0) % 32 * 2 ^ 21 + (0 * 5) % 32 * 2 ^ 16 + (0 * 4)), by decide⟩

theorem wit_MicroSequencerMemorySamplesAndTokens_2 : ∃ (s : State) (n h w : Nat) (th : Thread) (p : Plane), s.fetchOp n h = some (w, th, p) ∧ opField w = 0x0C ∧ (th.reg (aField w) + immField w) + 4 ≤ 65536 :=
  ⟨wThread wRun (12 * 2 ^ 26 + (3 + 0) % 32 * 2 ^ 21 + (0 * 5) % 32 * 2 ^ 16 + (0 * 4)) ((List.range 32).map (fun i => if i = (3 + 0) % 32 then 0x8899AABB + 0 else 7)), 5, 2, (12 * 2 ^ 26 + (3 + 0) % 32 * 2 ^ 21 + (0 * 5) % 32 * 2 ^ 16 + (0 * 4)), ⟨0, (List.range 32).map (fun i => if i = (3 + 0) % 32 then 0x8899AABB + 0 else 7), false, 0⟩, wThreadPlane (12 * 2 ^ 26 + (3 + 0) % 32 * 2 ^ 21 + (0 * 5) % 32 * 2 ^ 16 + (0 * 4)), by decide⟩

theorem wit_MicroSequencerMemorySamplesAndTokens_3 : ∃ (s : State) (n h w : Nat) (th : Thread) (p : Plane), s.fetchOp n h = some (w, th, p) ∧ opField w = 0x0A ∧ (p.configWord 0).testBit (immField w % 8) = true ∧ ((s.tile n).jobs.any (fun j => j.1 = immField w % 8) = false) :=
  ⟨wThread wRun (10 * 2 ^ 26 + (3 + 0) % 32 * 2 ^ 21 + (0 * 5) % 32 * 2 ^ 16 + (0 % 32)) (wRegs 0), 5, 2, (10 * 2 ^ 26 + (3 + 0) % 32 * 2 ^ 21 + (0 * 5) % 32 * 2 ^ 16 + (0 % 32)), ⟨0, wRegs 0, false, 0⟩, wThreadPlane (10 * 2 ^ 26 + (3 + 0) % 32 * 2 ^ 21 + (0 * 5) % 32 * 2 ^ 16 + (0 % 32)), by decide⟩

theorem wit_MicroSequencerMemorySamplesAndTokens_4 : ∃ (s : State) (n h w : Nat) (th : Thread) (p : Plane), s.fetchOp n h = some (w, th, p) ∧ opField w = 0x0F :=
  ⟨wThread wRun (15 * 2 ^ 26 + (3 + 0) % 32 * 2 ^ 21 + (0 * 5) % 32 * 2 ^ 16 + (0 * 77)) (wRegs 0), 5, 2, (15 * 2 ^ 26 + (3 + 0) % 32 * 2 ^ 21 + (0 * 5) % 32 * 2 ^ 16 + (0 * 77)), ⟨0, wRegs 0, false, 0⟩, wThreadPlane (15 * 2 ^ 26 + (3 + 0) % 32 * 2 ^ 21 + (0 * 5) % 32 * 2 ^ 16 + (0 * 77)), by decide⟩

theorem wit_MicroSequencerMemorySamplesAndTokens_5 : ∃ (s : State) (n h w : Nat) (th : Thread) (p : Plane) (r : RoutePort), let tok : Token := ⟨immField w % 4096, r.vc, th.poison, (th.reg (dField w) + th.reg (dField w + 1) * 2 ^ 32 + th.reg (dField w + 2) * 2 ^ 64 + th.reg (dField w + 3) * 2 ^ 96) % 2 ^ 112⟩
    s.fetchOp n h = some (w, th, p) ∧ opField w = 0x0D ∧ immField w % 4096 < 0xFF0 ∧ (p.outs.find? (fun r => r.out = aField w % 8) = some r) ∧ ((s.tile n).outq.any (fun q => q.1.out = aField w % 8) = false) ∧ (r.dst < 400 → s.room r.dst r.inp r.vc = true) :=
  ⟨wTileP wRun (wPlane [] [13 * 2 ^ 26 + (3 + 0) % 32 * 2 ^ 21 + (0 % 3 + 8) * 2 ^ 16 + 0 * 100] [] [⟨0, 6, 3, 1⟩, ⟨1, 0xFFF0, 0, 0⟩, ⟨2, 0xFF07, 0, 3⟩] []) (wRegs 0), 5, 2, (13 * 2 ^ 26 + (3 + 0) % 32 * 2 ^ 21 + (0 % 3 + 8) * 2 ^ 16 + 0 * 100), ⟨0, wRegs 0, false, 0⟩, (wPlane [] [13 * 2 ^ 26 + (3 + 0) % 32 * 2 ^ 21 + (0 % 3 + 8) * 2 ^ 16 + 0 * 100] [] [⟨0, 6, 3, 1⟩, ⟨1, 0xFFF0, 0, 0⟩, ⟨2, 0xFF07, 0, 3⟩] []), [⟨0, 6, 3, 1⟩, ⟨1, 0xFFF0, 0, 0⟩, ⟨2, 0xFF07, 0, 3⟩].getD (0 % 3) ⟨0, 0, 0, 0⟩, by decide⟩

theorem wit_MicroSequencerMemorySamplesAndTokens_6 : ∃ (s : State) (n h w : Nat) (th : Thread) (p : Plane), s.fetchOp n h = some (w, th, p) ∧ opField w = 0x0D ∧ 0xFF0 ≤ immField w % 4096 ∧ n < 400 :=
  ⟨wThread wRun (13 * 2 ^ 26 + 0xFF0 + 0 % 16) (wRegs 0), 5, 2, (13 * 2 ^ 26 + 0xFF0 + 0 % 16), ⟨0, wRegs 0, false, 0⟩, wThreadPlane (13 * 2 ^ 26 + 0xFF0 + 0 % 16), by decide⟩

theorem wit_MicroSequencerMemorySamplesAndTokens_7 : ∃ (s : State) (n h w : Nat) (th : Thread) (p : Plane), s.fetchOp n h = some (w, th, p) ∧ opField w = 0x0A ∧ (p.configWord 0).testBit (immField w % 8) = false :=
  ⟨wTileP wRun (wPlane [] [10 * 2 ^ 26 + 6 * 2 ^ 21 + 0 % 32] [] [] []) (wRegs 0), 5, 2, 10 * 2 ^ 26 + 6 * 2 ^ 21 + 0 % 32, ⟨0, wRegs 0, false, 0⟩, wPlane [] [10 * 2 ^ 26 + 6 * 2 ^ 21 + 0 % 32] [] [] [], by decide⟩

theorem wit_MicroSequencerMemorySamplesAndTokens_8 : ∃ (s : State) (n lane : Nat) (q : TexelQuad) (lines : List Nat) (p : Plane) (job : LaneJob) (r : RayAcc), let c := quadSample q (p.configWord 1 % 2 = 1)
    let shown := decide (r.a < p.configWord 2 * 256) && (decide (q.kind ≠ .ordinary) || decide (0 < r.left))
    (s.tile n).active = some p ∧ (s.tile n).jobs = [(lane, job)] ∧ (s.tile n).rays = [(job.thread, r)] ∧ p.configWord 1 / 2 % 2 = 1 :=
  ⟨(fun u : State => u.setTile 5 { u.tile 5 with jobs := [(3, ⟨2, 0, 0⟩)], rays := [(2, ⟨0 * 40000, 0 * 40000, 0 % 3, 0, false⟩)] }) (wTileP wRun (wPlane [8, 2 + 0 % 2, 4000, 2, 1] [] [] [] []) []), 5, 3, ⟨4095, 1000, 77, 0, 4095, 5, 0 * 100, 2000, 0 * 9, 200, 0 % 5 = 0, if 0 % 2 = 0 then .ordinary else .overlay⟩, [0, 0 + 1], wPlane [8, 2 + 0 % 2, 4000, 2, 1] [] [] [] [], ⟨2, 0, 0⟩, ⟨0 * 40000, 0 * 40000, 0 % 3, 0, false⟩, by decide⟩

theorem wit_MicroSequencerMemorySamplesAndTokens_9 : ∃ (s : State) (n lane l : Nat) (q : TexelQuad) (p : Plane) (job : LaneJob), (s.tile n).active = some p ∧ (s.tile n).jobs = [(lane, job)] ∧ p.configWord 4 = 0 :=
  ⟨(fun u : State => u.setTile 5 { u.tile 5 with jobs := [(3, ⟨2, 0, 0⟩)], cache := [1, 257, 3] }) (wTileP wRun (wPlane [8, 0, 4000, 2, 0] [] [] [] []) []), 5, 3, [1, 513, 4].getD (0 % 3) 0, ⟨4095, 1000, 77, 0, 4095, 5, 0 * 100, 2000, 0 * 9, 200, 0 % 5 = 0, .ordinary⟩, wPlane [8, 0, 4000, 2, 0] [] [] [] [], ⟨2, 0, 0⟩, by decide⟩

theorem wit_TileHealthErrorsAndVoltage_1 : ∃ (s : State) (n : Nat) (flit : Bool), let charges := decide (s.tileState n = 1 ∨ s.tileState n = 3)
    n < 400 :=
  ⟨wRun.put R.FAB_TILE_STAT_STATE (0 % 6) 0, 0, 0 % 2 = 0, by decide⟩

theorem wit_TileHealthErrorsAndVoltage_2 : ∃ (s : State) (n line : Nat), let charges := decide (s.tileState n = 1 ∨ s.tileState n = 3)
    n < 400 :=
  ⟨wRun.put R.FAB_TILE_STAT_STATE (0 % 6) 0, 0, 3 * 0, by decide⟩

theorem wit_TileHealthErrorsAndVoltage_3 : ∃ (s : State) (n : Nat), let charges := decide (s.tileState n = 1 ∨ s.tileState n = 3)
    n < 400 :=
  ⟨wRun.put R.FAB_TILE_STAT_STATE (0 % 6) 0, 0, by decide⟩

theorem wit_TileHealthErrorsAndVoltage_4 : ∃ (s : State) (n : Nat), let charges := decide (s.tileState n = 1 ∨ s.tileState n = 3)
    n < 400 :=
  ⟨wRun.put R.FAB_TILE_STAT_STATE (0 % 6) 0, 0, by decide⟩

theorem wit_TileHealthErrorsAndVoltage_5 : ∃ (s : State) (n port : Nat) (tok : Token), let charges := decide (s.tileState n = 1 ∨ s.tileState n = 3)
    (n < 400 ∧ port < 8) ∧ (s.tile n).head port = some tok ∧ tok.tag < 0xFF0 ∧ ((s.tile n).active = none ∨ ((s.tile n).dead = false ∧ (s.tile n).fwd.any (fun q => q.1 = port) = true)) :=
  ⟨(wRun.put R.FAB_TILE_STAT_STATE (0 % 6) 0).setTile 0 { idleTile with buf := [(2, ⟨6, 0, false, 6⟩), (3, ⟨5, 0, false, 6⟩)] }, 0, 3, ⟨5, 0, false, 6⟩, by decide⟩

theorem wit_TileHealthErrorsAndVoltage_6 : ∃ (s : State) (n port : Nat) (tok : Token) (p : Plane), (n < 400 ∧ port < 8) ∧ tok.tag < 0xFF0 ∧ (s.tile n).active = some p ∧ ((s.tile n).buf = [(port, tok)] ∧ (s.tile n).subSeen = [] ∧ (s.tile n).swapDue = false ∧ (s.tile n).dead = false) ∧ ((s.tile n).fwd.any (fun q => q.1 = port) = false) ∧ p.ins ≠ [] ∧ p.entry tok.tag % 256 = 0 :=
  ⟨(let u := wThread wRun 0 []; u.setTile 5 { u.tile 5 with buf := [(3, ⟨1, 0, false, 77⟩)] }), 5, 3, ⟨1, 0, false, 77⟩, wThreadPlane 0, by decide⟩

theorem wit_TileHealthErrorsAndVoltage_7 : ∃ (s : State) (n spare : Nat) (err : TileErr), n < 400 ∧ s.tileState n = 1 ∧ ((s.tile n).dead = false ∧ (s.tile n).swapDue = false) ∧ s.fab.migs = [] ∧ s.flag R.PERS_STATE_PRELOADING = false ∧ s.pers.pend = none ∧ pickSpare (placePolicy (s.slotFile s.activeSlot)) n (s.usableSpares s.activeSlot s.pers.act) = some spare :=
  ⟨{ wBase (((wRun.put R.FAB_TILE_STAT_STATE 1 5).put R.FAB_TILE_STAT_STATE 2 9).put R.PERS_STATE_PRELOADING 0) [] with pers := { (wBase wRun []).pers with pend := none } }, 5, 9, .programStore, by decide⟩

theorem wit_TileHealthErrorsAndVoltage_8 : ∃ (s : State) (n : Nat), n < 400 ∧ s.tileState n = 2 ∧ (s.tile n).dead = false ∧ s.fab.migs = [] :=
  ⟨{ wRun.put R.FAB_TILE_STAT_STATE 2 0 with fab := ⟨[], [], [], [], [], [], []⟩ }, 0, by decide⟩

theorem wit_TileHealthErrorsAndVoltage_9 : ∃ (s : State) (n kind : Nat), n < 400 ∧ s.flag R.FAB_CTRL_INJECT_EN = true ∧ (kind % 8 = 1 ∨ kind % 8 = 3) :=
  ⟨wRun.put R.FAB_CTRL_INJECT_EN 1, 0, 1 + 2 * (0 % 2), by decide⟩

theorem wit_TileHealthErrorsAndVoltage_10 : ∃ (s : State) (n kind : Nat), s.flag R.FAB_CTRL_INJECT_EN = false :=
  ⟨wRun.put R.FAB_CTRL_INJECT_EN 0, 0, 4, by decide⟩

theorem wit_TileHealthErrorsAndVoltage_11 : ∃ (s : State) (r : Req) (n spare : Nat), n < 400 ∧ s.tileState n = 1 ∧ s.migOf n = none ∧ s.flag R.PERS_STATE_PRELOADING = false ∧ s.pers.pend = none ∧ pickSpare (placePolicy (s.slotFile s.activeSlot)) n (s.usableSpares s.activeSlot s.pers.act) = some spare :=
  ⟨{ wBase (((wRun.put R.FAB_TILE_STAT_STATE 1 5).put R.FAB_TILE_STAT_STATE 2 9).put R.PERS_STATE_PRELOADING 0) [] with pers := { (wBase wRun []).pers with pend := none } }, .host, 5, 9, by decide⟩

theorem wit_TileHealthErrorsAndVoltage_12 : ∃ (s : State) (r : Req) (n : Nat), n < 400 ∧ (s.tileState n = 0 ∨ s.tileState n = 2 ∨ s.tileState n = 5) :=
  ⟨wRun.put R.FAB_TILE_STAT_STATE ([0, 2, 5].getD (0 % 3) 0) 0, .host, 0, by decide⟩

theorem wit_TileHealthErrorsAndVoltage_14 : ∃ (s : State) (n : Nat), n < 400 :=
  ⟨wRun.setTile 0 { idleTile with stretch := if 0 % 2 = 0 then 1023 else 0 }, 0, by decide⟩

theorem wit_TileHealthErrorsAndVoltage_15 : ∃ (s : State) (q : Nat) (clocks : List TileClock) (c : TileClock), let mine := clocks.filter (fun c => decide (c.tile < 400) && quadOfTile c.tile = q && (s.tileState c.tile = 1 || s.tileState c.tile = 3 || s.tileState c.tile = 4))
    let v := max 620 (s.get R.FAB_QUAD_VOLT q)
    let want := Word.clamp 620 s.voltCap c.want
    let next := if v < want then min want (v + 5) else if want < v then max want (v - 5) else v
    q < 4 ∧ slowest mine = some c :=
  ⟨(((wRun.put R.FAB_QUAD_VOLT (600 + 0 * 9) 0).put R.VIEW_MODE_EFF (0 % 3 * 256)).put R.FAB_TILE_STAT_STATE 1 3).put R.FAB_TILE_STAT_STATE 3 4, 0, (if 0 % 2 = 0 then [⟨3, 1200, 900, 640 + 6 * 0⟩] else [⟨4, 1500, 1499, 700⟩, ⟨3, 1200, 900, 640 + 6 * 0⟩, ⟨399, 3, 3, 3⟩]), ⟨3, 1200, 900, 640 + 6 * 0⟩, by decide⟩

theorem wit_TileHealthErrorsAndVoltage_16 : ∃ (s : State) (q : Nat), q < 4 :=
  ⟨wRun.put R.FAB_QUAD_VOLT (0 * 90) (0 % 4), 0 % 4, by decide⟩

theorem wit_MigrationsAndRowBands_1 : ∃ (s : State) (n : Nat) (m : Mig) (f : Nat), (n < 400 ∧ m.spare < 400) ∧ s.fab.migs = [m] ∧ (m.tile = n ∧ m.step = .copy) ∧ (s.pers.act.find? (fun p => p.2 = n) = some (f, n)) :=
  ⟨{ wBase wRun [] with fab := ⟨[], [], [], [], [⟨5, 9, 1, .copy, 3, none, false, false, 7, true⟩], [], []⟩ }, 5, ⟨5, 9, 1, .copy, 3, none, false, false, 7, true⟩, 0, by decide⟩

theorem wit_MigrationsAndRowBands_2 : ∃ (s : State) (n : Nat) (m : Mig), (n < 400 ∧ m.spare < 400) ∧ s.fab.migs = [m] ∧ (m.tile = n ∧ m.step = .copy) ∧ s.tileState m.spare ≠ 5 ∧ m.spare ≠ n :=
  ⟨{ wBase (wRun.put R.FAB_TILE_STAT_STATE 2 9) [] with fab := ⟨[], [], [], [], [⟨5, 9, 1, .copy, 3, none, false, false, 7, true⟩], [], []⟩ }, 5, ⟨5, 9, 1, .copy, 3, none, false, false, 7, true⟩, by decide⟩

theorem wit_MigrationsAndRowBands_3 : ∃ (s : State) (n : Nat) (m : Mig) (p old : Plane), (n < 400 ∧ m.spare < 400 ∧ m.spare ≠ n) ∧ s.fab.migs = [m] ∧ (m.tile = n ∧ m.step = .redirect) ∧ (s.tile m.spare).standby = some p ∧ (s.tile n).active = some old ∧ (s.tile n).seen ≠ some (s.view.renderSf % 2 ^ 32) ∧ (p.func < 1024 ∧ p.cls < 512) :=
  ⟨(fun u : State => (u.setTile 9 { idleTile with standby := some (wPlane [] [] [] [⟨0, 5, 2, 0⟩] [1]) }).setTile 5 { idleTile with active := some (wPlane [] [] [] [⟨0, 7, 2, 0⟩, ⟨1, 8, 2, 0⟩] [1]) }) { wBase wRun [] with fab := ⟨[], [], [], [], [⟨5, 9, 1, .redirect, 3, none, false, false, 7, true⟩], [], []⟩ }, 5, ⟨5, 9, 1, .redirect, 3, none, false, false, 7, true⟩, wPlane [] [] [] [⟨0, 5, 2, 0⟩] [1], wPlane [] [] [] [⟨0, 7, 2, 0⟩, ⟨1, 8, 2, 0⟩] [1], by decide⟩

theorem wit_MigrationsAndRowBands_4 : ∃ (s : State) (n : Nat) (m : Mig), (n < 400 ∧ m.spare < 400) ∧ s.fab.migs = [m] ∧ (m.tile = n ∧ m.step = .drain) ∧ s.drained m = true :=
  ⟨{ wBase (wRun.put R.FAB_TILE_STAT_STATE 3 5) [] with fab := ⟨[], [], [], [], [⟨5, 9, 1, .drain, 3, none, false, false, 7, true⟩], [], []⟩ }, 5, ⟨5, 9, 1, .drain, 3, none, false, false, 7, true⟩, by decide⟩

theorem wit_MigrationsAndRowBands_5 : ∃ (s : State) (n : Nat) (m : Mig) (p : Plane) (r : RoutePort), (n < 400 ∧ m.spare < 400) ∧ s.fab.migs = [m] ∧ (m.tile = n ∧ m.step = .drain) ∧ s.drained m = true ∧ (s.tile n).active = some p ∧ (p.outs = [r] ∧ r.dst < 400) ∧ (s.tile n).outq = [] ∧ s.room r.dst r.inp r.vc = true :=
  ⟨(fun u : State => u.setTile 5 { idleTile with active := some (wPlane [] [] [] [⟨0, 7, 2, 1⟩] [1]) }) { wBase (wRun.put R.FAB_TILE_STAT_STATE 3 5) [] with fab := ⟨[], [], [], [], [⟨5, 9, 1, .drain, 3, none, false, false, 7, true⟩], [], []⟩ }, 5, ⟨5, 9, 1, .drain, 3, none, false, false, 7, true⟩, wPlane [] [] [] [⟨0, 7, 2, 1⟩] [1], ⟨0, 7, 2, 1⟩, by decide⟩

theorem wit_MigrationsAndRowBands_6 : ∃ (s : State) (n : Nat) (m : Mig), s.fab.migs = [m] ∧ (m.tile = n ∧ m.step = .drain) ∧ s.drained m = false :=
  ⟨{ wBase wRun [] with fab := ⟨[(5, { idleTile with threads := [(2, ⟨0, [], false, 0⟩)] })], [], [], [], [⟨5, 9, 1, .drain, 3, none, false, false, 7, true⟩], [], []⟩ }, 5, ⟨5, 9, 1, .drain, 3, none, false, false, 7, true⟩, by decide⟩

theorem wit_MigrationsAndRowBands_7 : ∃ (s : State) (n : Nat) (m : Mig), (n < 400 ∧ m.spare < 400) ∧ s.fab.migs = [m] ∧ (m.tile = n ∧ m.step = .drain) ∧ s.tileState n ≠ 5 :=
  ⟨{ wBase (wRun.put R.FAB_TILE_STAT_STATE 3 5) [] with fab := ⟨[(5, { idleTile with buf := [(1, ⟨3, 0, false, 0⟩)], active := some (wPlane [] [] [] [] [1]) })], [], [], [], [⟨5, 9, 1, .drain, 3, none, false, false, 7, true⟩], [], []⟩ }, 5, ⟨5, 9, 1, .drain, 3, none, false, false, 7, true⟩, by decide⟩

theorem wit_MigrationsAndRowBands_8 : ∃ (s : State) (own : List Ray) (shares : List Share) (poisoned : List RayAt), s.rst.hold = .run ∧ s.pseq.bands = [] ∧ s.get R.VIEW_BAND % 128 + 1 < s.bandCount :=
  ⟨{ (wRun.put R.VIEW_BAND 0).put R.VIEW_DEPTH_COUNT (0 % 3) with rst := { wRun.rst with hold := .run }, pseq := { wRun.pseq with bands := [], desc := some ⟨0, 2, 130, 1, 3, 4, 1, 10, 8, 1000, 1, [], []⟩ } }, [⟨3, 1, 0, 2 * 0, 1048320, 0, 0 % 2⟩, ⟨4, 0, 1, 2, 3, 1, 0⟩], [⟨5, 3, 0, 2⟩, ⟨6, 4, 0, 1⟩], [⟨3, 0, 0⟩], by decide⟩

theorem wit_MigrationsAndRowBands_9 : ∃ (s : State) (own : List Ray) (shares : List Share) (slow : List Nat) (poisoned unfinished : List RayAt) (b : BandBuf), s.pseq.inFlight = true ∧ s.flag R.PSEQ_STAT_PATTERN_ON = false ∧ s.pseq.bands = [b] ∧ (b.sf = s.sf ∧ b.band = s.pseq.sentBands) ∧ s.pseq.sentBands + 1 < s.bandCount ∧ s.groupsInUse = [] :=
  ⟨{ wRun.put R.PSEQ_STAT_PATTERN_ON 0 with pseq := { wRun.pseq with inFlight := true, sentBands := 0 % 20, bands := [⟨wRun.sf, 0 % 20, false, [(3, 4, 5)], [7, 8], [9]⟩], desc := none } }, [], [], [], [], [], (let s : State := { wRun.put R.PSEQ_STAT_PATTERN_ON 0 with pseq := { wRun.pseq with inFlight := true, sentBands := 0 % 20, bands := [⟨wRun.sf, 0 % 20, false, [(3, 4, 5)], [7, 8], [9]⟩], desc := none } }; ⟨s.sf, 0 % 20, false, [(3, 4, 5)], [7, 8], [9]⟩), by decide⟩

theorem wit_MigrationsAndRowBands_10 : ∃ (s : State) (own : List Ray) (shares : List Share) (slow : List Nat) (poisoned unfinished : List RayAt), s.pseq.inFlight = true ∧ s.flag R.PSEQ_STAT_PATTERN_ON = false ∧ s.pseq.bands = [] ∧ s.view.renderSf = s.sf ∧ s.pseq.sentBands + 1 < s.bandCount ∧ s.groupsInUse = [] :=
  ⟨{ (wRun.put R.PSEQ_STAT_PATTERN_ON 0).put R.VIEW_DEPTH_COUNT (0 % 3) with pseq := { wRun.pseq with inFlight := true, sentBands := 0, bands := [], desc := some ⟨0, 2, 130, 1, 3, 4, 1, 10, 8, 1000, 1, [], []⟩ }, view := { wRun.view with renderSf := wRun.sf } }, [⟨3, 1, 0, 2 * 0, 1048320, 0, 1⟩], [⟨7, 3, 0, 1⟩], [7, 8], [], [⟨3, 0, 0⟩, ⟨4, 2, 1⟩], by decide⟩

theorem wit_RaysStayWithinStepsAndBudget_1 : ∃ (s : State) (own : List Ray) (shares : List Share) (poisoned : List RayAt), let k := s.get R.VIEW_BAND % 128
    s.rst.hold = .run ∧ s.pseq.bands = [] ∧ k + 1 < s.bandCount :=
  ⟨{ (wRun.put R.VIEW_BAND 0).put R.VIEW_DEPTH_COUNT (0 % 3) with rst := { wRun.rst with hold := .run }, pseq := { wRun.pseq with bands := [], desc := some ⟨0, 2, 130, 1, 3, 4, 1, 10, 8, 1000, 1, [], []⟩ } }, [⟨3, 1, 0, 2 * 0, 1048320, 0, 0 % 2⟩], [⟨5, 3, 0, 2⟩], [], by decide⟩

theorem wit_IntakeRingFollowsHeadAndHalts_1 : ∃ (s : State) (r : Req) (v : Nat), v < 4096 ∧ v < s.dmaEntries :=
  ⟨wRun.put R.INTK_DMA_SIZE 5, .host, 0 % 16, by decide⟩

theorem wit_IntakeRingFollowsHeadAndHalts_2 : ∃ (s : State) (r : Req) (v : Nat), v < 4096 ∧ s.dmaEntries ≤ v :=
  ⟨wRun.put R.INTK_DMA_SIZE 4, .host, 16 + 0 % 16, by decide⟩

theorem wit_IntakeRingFollowsHeadAndHalts_6 : ∃ (s : State) (d : List Byte), s.dmaReady = true ∧ s.intk.stall = false ∧ s.dmaFull = false ∧ leAt d 8 4 = 0 ∧ leAt d 12 4 < 4 ∧ leAt d 0 8 < 2 ^ 64 :=
  ⟨wRing wRun, wDesc 0 0 (0 % 4), by decide⟩

theorem wit_IntakeRingFollowsHeadAndHalts_7 : ∃ (s : State) (d : List Byte), s.dmaReady = true ∧ s.intk.stall = false ∧ s.dmaFull = false ∧ (leAt d 12 4).testBit 0 = false ∧ 0 < leAt d 8 4 :=
  ⟨wRing wRun, ([wDesc 0 100 2, wDesc 0 16777217 0, wDesc 0 16 6, wDesc (2 ^ 64 - 8) 9 0].getD (0 % 4) []), by decide⟩

theorem wit_IntakeRingFollowsHeadAndHalts_8 : ∃ (s : State) (d : List Byte), s.dmaReady = true ∧ s.intk.stall = false ∧ s.dmaFull = false ∧ (leAt d 12 4).testBit 0 = true ∧ s.regionOk .intk false (leAt d 0 8) (leAt d 8 4) = false :=
  ⟨wRing wRun, wDesc (2 ^ 63) 2 1, by decide⟩

theorem wit_IntakeRingFollowsHeadAndHalts_9 : ∃ (s : State) (d : List Byte), s.dmaReady = true ∧ s.intk.stall = false ∧ s.dmaFull = true :=
  ⟨{ wRing wRun with intk := { (wRing wRun).intk with stall := false, frames := List.replicate 4 { wFrameT wRun 1 with atlases := 0, masks := 0, resid := false } } }, wDesc 0 8 0, by decide⟩

theorem wit_IntakeRingFollowsHeadAndHalts_10 : ∃ (s : State), s.dmaReady = true ∧ s.intk.stall = false ∧ s.dmaFull = false :=
  ⟨wRing wRun, by decide⟩

theorem wit_IntakeRingFollowsHeadAndHalts_11 : ∃ (s : State) (d : List Byte), s.intk.stall = true ∧ s.dmaFull = false ∧ s.dmaReady = true ∧ (leAt d 12 4).testBit 0 = false ∧ 0 < leAt d 8 4 ∧ leAt d 8 4 ≤ 16777216 ∧ leAt d 12 4 < 4 ∧ leAt d 0 8 + leAt d 8 4 ≤ 2 ^ 64 :=
  ⟨{ wRing wRun with intk := { (wRing wRun).intk with stall := true } }, wDesc 0 8 2, by decide⟩

theorem wit_IntakeRingFollowsHeadAndHalts_12 : ∃ (s : State) (bytes : List Byte) (addr len flags : Nat), s.intk.dma = some (addr, len, flags) ∧ flags.testBit 0 = false ∧ len = bytes.length :=
  ⟨{ (wRing wRun).put R.INTK_DMA_WB (if 0 % 2 = 0 then 64 else 0) with intk := { (wRing wRun).intk with dma := some (5, 40, 2), scan := false } }, (wUnit 0x81 1 0 0 3 (wb 8 0)).bytes ++ wb 16 0, 5, 40, 2, by decide⟩

theorem wit_IntakeRingFollowsHeadAndHalts_13 : ∃ (s : State) (bytes : List Byte) (addr len flags : Nat), s.intk.dma = some (addr, len, flags) ∧ flags.testBit 0 = false ∧ len = bytes.length ∧ s.intk.stream = [] ∧ s.intk.scan = false ∧ opensUnit false bytes = true ∧ bytes.length = 16 + uLen bytes :=
  ⟨{ (wRing wRun).put R.INTK_DMA_WB (if 0 % 2 = 0 then 64 else 0) with intk := { (wRing wRun).intk with dma := some (5, 24, 2), scan := false } }, (wUnit 0x81 1 0 0 3 (wb 8 0)).bytes, 5, 24, 2, by decide⟩

theorem wit_IntakeRingFollowsHeadAndHalts_14 : ∃ (s : State) (bytes : List Byte) (addr len flags : Nat), s.intk.dma = some (addr, len, flags) ∧ flags.testBit 0 = false :=
  ⟨{ (wRing wRun) with intk := { (wRing wRun).intk with dma := some (5, 24, 2) } }, wb 9 0, 5, 24, 2, by decide⟩

theorem wit_IntakeRingFollowsHeadAndHalts_15 : ∃ (s : State) (bytes : List Byte) (abort : Bool) (addr len flags : Nat), s.intk.dma = some (addr, len, flags) ∧ flags.testBit 0 = true ∧ s.intk.stream = [] ∧ s.intk.scan = false ∧ opensUnit false (s.readBytes addr len) = true ∧ len = 16 + uLen (s.readBytes addr len) :=
  ⟨({ (wRing wRun) with dram := [], intk := { (wRing wRun).intk with dma := some (5, 24, 3), scan := false } } : State).writeBytes 5 (wUnit 0x81 1 0 0 3 (wb 8 0)).bytes, [], 0 % 2 = 0, 5, 24, 3, by decide⟩

theorem wit_RtpFragmentsBecomeUnits_1 : ∃ (s : State) (p : RtpPacket), s.rtpMine p = false :=
  ⟨wRtp wRun, { wPkt 77 10 3 0 0 0x70 [] with udp := 4 }, by decide⟩

theorem wit_RtpFragmentsBecomeUnits_2 : ∃ (s : State) (p : RtpPacket), let load := (rtpPayload p.bytes).getD []
    s.rtpMine p = true ∧ s.flag R.INTK_STAT_SSRC_LOCK = true ∧ rtpSsrc p.bytes ≠ s.get R.INTK_SSRC :=
  ⟨wRtp wRun, wPkt 78 10 3 0 0 0x70 [], by decide⟩

theorem wit_RtpFragmentsBecomeUnits_3 : ∃ (s : State) (p : RtpPacket), let load := (rtpPayload p.bytes).getD []
    s.rtpMine p = true ∧ s.flag R.INTK_STAT_SSRC_LOCK = true ∧ rtpSsrc p.bytes = s.get R.INTK_SSRC ∧ leAt load 0 1 / 64 ≠ 1 :=
  ⟨wRtp wRun, wPkt 77 10 3 0 0 0x30 (wUnit 2 1 0 0 3 (wb 8 0)).bytes, by decide⟩

theorem wit_RtpFragmentsBecomeUnits_4 : ∃ (s : State) (p : RtpPacket), let load := (rtpPayload p.bytes).getD []
    s.rtpMine p = true ∧ s.flag R.INTK_STAT_SSRC_LOCK = true ∧ rtpSsrc p.bytes = s.get R.INTK_SSRC ∧ 28 ≤ load.length ∧ leAt load 0 1 / 64 = 1 ∧ beAt load 8 4 = 0 ∧ (load.drop 12).length = 16 + uLen (load.drop 12) ∧ s.intk.whole.contains (beAt load 4 4, beAt load 2 2) = false ∧ s.intk.parts = [] ∧ s.intakeBytes + (load.drop 12).length ≤ 512 * mib :=
  ⟨wRtp wRun, wPkt 77 (0 % 20) 3 0 0 0x70 (wUnit 2 1 0 0 3 (wb 8 0)).bytes, by decide⟩

theorem wit_RtpFragmentsBecomeUnits_5 : ∃ (s : State) (p : RtpPacket), let load := (rtpPayload p.bytes).getD []
    s.rtpMine p = true ∧ s.flag R.INTK_STAT_SSRC_LOCK = true ∧ rtpSsrc p.bytes = s.get R.INTK_SSRC ∧ 12 ≤ load.length ∧ leAt load 0 1 / 64 = 1 ∧ (load.drop 12).length < 16 ∧ s.intk.whole.contains (beAt load 4 4, beAt load 2 2) = false ∧ s.intk.parts = [] ∧ s.intakeBytes + (load.drop 12).length ≤ 512 * mib :=
  ⟨wRtp wRun, wPkt 77 (0 % 20) 3 1 (0 % 40) 0x50 (wb 9 0), by decide⟩

theorem wit_RtpFragmentsBecomeUnits_6 : ∃ (s : State) (p : RtpPacket), let load := (rtpPayload p.bytes).getD []
    s.rtpMine p = true ∧ s.flag R.INTK_STAT_SSRC_LOCK = true ∧ s.intk.whole.contains (beAt load 4 4, beAt load 2 2) = true :=
  ⟨wRtp wRun, wPkt 77 (0 % 20) 3 9 0 0x70 (wUnit 2 1 0 0 3 (wb 8 0)).bytes, by decide⟩

theorem wit_RtpFragmentsBecomeUnits_7 : ∃ (s : State) (p : RtpPacket), let load := (rtpPayload p.bytes).getD []
    s.rtpMine p = true ∧ s.flag R.INTK_STAT_SSRC_LOCK = false ∧ 12 ≤ load.length ∧ leAt load 0 1 / 64 = 1 ∧ beAt load 8 4 = 0 ∧ uSync (load.drop 12) = true ∧ uType (load.drop 12) = 1 :=
  ⟨(wRtp wRun).put R.INTK_STAT_SSRC_LOCK 0, wPkt 99 (0 % 20) 3 1 0 0x70 (wUnit 1 1 0 0 3 (wb 8 0)).bytes, by decide⟩

theorem wit_RtpFragmentsBecomeUnits_8 : ∃ (s : State), s.flag R.INTK_STAT_SSRC_LOCK = true :=
  ⟨wRun.put R.INTK_STAT_SSRC_LOCK 1, by decide⟩

theorem wit_RtpFragmentsBecomeUnits_9 : ∃ (s : State), s.flag R.INTK_STAT_SSRC_LOCK = false :=
  ⟨wRun.put R.INTK_STAT_SSRC_LOCK 0, by decide⟩

theorem wit_SceneUnitsAreReadByType_1 : ∃ (s s1 : State) (u : VssUnit), s.takeType 1 = some (u, s1) ∧ s1.seqKnown (uGen u.bytes) (uPayload u.bytes) = true :=
  ⟨{ wIntk wRun [wUnit 1 1 0 0 7 []] with intk := { (wIntk wRun [wUnit 1 1 0 0 7 []]).intk with cur := some wSeq } }, (let s : State := { wIntk wRun [wUnit 1 1 0 0 7 []] with intk := { (wIntk wRun [wUnit 1 1 0 0 7 []]).intk with cur := some wSeq } }; { wIntk s [] with intk := { (wIntk s []).intk with cur := some wSeq } }), wUnit 1 1 0 0 7 [], by decide⟩

theorem wit_SceneUnitsAreReadByType_2 : ∃ (s s1 : State) (u : VssUnit), s.takeType 1 = some (u, s1) ∧ s1.seqKnown (uGen u.bytes) (uPayload u.bytes) = false ∧ parseSeq (uGen u.bytes) (uPayload u.bytes) = none :=
  ⟨wIntk wRun [wUnit 1 1 0 0 7 (wb 8 0)], (let s : State := wIntk wRun [wUnit 1 1 0 0 7 (wb 8 0)]; wIntk s []), wUnit 1 1 0 0 7 (wb 8 0), by decide⟩

theorem wit_SceneUnitsAreReadByType_3 : ∃ (s s1 : State) (u : VssUnit) (h : SeqHdr), s.takeType 1 = some (u, s1) ∧ s1.seqKnown (uGen u.bytes) (uPayload u.bytes) = false ∧ parseSeq (uGen u.bytes) (uPayload u.bytes) = some h ∧ s1.formatServed h.format = false ∧ (s1.flag R.PERS_CTRL = true → s1.autoSlot h.format = none) :=
  ⟨(wIntk wRun [wUnit 1 1 0 0 7 wHdr]).put R.PERS_CTRL 0 |>.put R.PERS_STATE_ACTIVE_VALID 0, (let s : State := (wIntk wRun [wUnit 1 1 0 0 7 wHdr]).put R.PERS_CTRL 0 |>.put R.PERS_STATE_ACTIVE_VALID 0; (wIntk s []).put R.PERS_CTRL 0 |>.put R.PERS_STATE_ACTIVE_VALID 0), wUnit 1 1 0 0 7 wHdr, ⟨wHdr, 1, 0, 1, 10, 1, 0, 1, 0, 0, [⟨64, 64, 1, 255, 255⟩], [], false, none⟩, by decide⟩

theorem wit_SceneUnitsAreReadByType_4 : ∃ (s s1 : State) (u : VssUnit) (h : SeqHdr), s.takeType 1 = some (u, s1) ∧ s1.seqKnown (uGen u.bytes) (uPayload u.bytes) = false ∧ parseSeq (uGen u.bytes) (uPayload u.bytes) = some h ∧ s1.formatServed h.format = true ∧ s1.view.ctrl.testBit 0 = true ∧ s1.modeCheckOn s1.activeSlot? (h.mode + 256 * mProfile s1.view.want) ≠ 0 :=
  ⟨wHdrBad wRun 0 [wUnit 1 1 0 0 7 wHdr], _, wUnit 1 1 0 0 7 wHdr, ⟨wHdr, 1, 0, 1, 10, 1, 0, 1, 0, 0, [⟨64, 64, 1, 255, 255⟩], [], false, none⟩, rfl, by decide, by decide, by decide, by decide, by decide⟩

theorem wit_SceneUnitsAreReadByType_5 : ∃ (s s1 : State) (u : VssUnit) (h : SeqHdr), s.takeType 1 = some (u, s1) ∧ s1.seqKnown (uGen u.bytes) (uPayload u.bytes) = false ∧ parseSeq (uGen u.bytes) (uPayload u.bytes) = some h ∧ s1.formatServed h.format = true ∧ s1.view.ctrl.testBit 0 = false ∧ modeEncodes (s1.get R.VIEW_MODE_EFF_MODE) = true :=
  ⟨wHdrState wRun 0 [wUnit 1 1 0 0 7 wHdr], _, wUnit 1 1 0 0 7 wHdr, ⟨wHdr, 1, 0, 1, 10, 1, 0, 1, 0, 0, [⟨64, 64, 1, 255, 255⟩], [], false, none⟩, rfl, by decide, by decide, by decide, by decide, by decide⟩

theorem wit_SceneUnitsAreReadByType_6 : ∃ (s s1 : State) (u : VssUnit) (f : FrameSt) (d : List Byte) (e : Nat), s.takeType 3 = some (u, s1) ∧ s1.unitFrame u = (s1, some f) ∧ (((s1.frameSeq f).map (fun h => h.bind.getD (atlasTrack u.bytes) none)) = some (some e)) ∧ ((s1.onFrame f.seq (fun x => { x with atlasIn := x.atlasIn + 1 })).openUnit u = (s1.onFrame f.seq (fun x => { x with atlasIn := x.atlasIn + 1 }), some d)) ∧ leAt d 0 1 = atlasTrack u.bytes ∧ 1 ≤ leAt d 2 2 ∧ leAt d 2 2 ≤ 8704 ∧ d.length = 8 + 12 * leAt d 2 2 + leAt d 4 4 :=
  ⟨(wIntk wRun [wUnit 3 1 0 2 7 wAtlas]).put R.INTK_CTRL_REQ_ENC 0, (let s : State := (wIntk wRun [wUnit 3 1 0 2 7 wAtlas]).put R.INTK_CTRL_REQ_ENC 0; (wIntk s []).put R.INTK_CTRL_REQ_ENC 0), wUnit 3 1 0 2 7 wAtlas, (let s : State := (wIntk wRun [wUnit 3 1 0 2 7 wAtlas]).put R.INTK_CTRL_REQ_ENC 0; wFrameT s 7), wAtlas, 1, by decide⟩

theorem wit_SceneUnitsAreReadByType_7 : ∃ (s s1 : State) (u : VssUnit) (f : FrameSt), s.takeType 3 = some (u, s1) ∧ s1.unitFrame u = (s1, some f) ∧ (((s1.frameSeq f).bind (fun h => h.bind[atlasTrack u.bytes]?)) = some none) :=
  ⟨wOther ((wIntk wRun [wUnit 3 1 0 2 7 wAtlas]).put R.INTK_CTRL_REQ_ENC (0 % 2)), (let s : State := wOther ((wIntk wRun [wUnit 3 1 0 2 7 wAtlas]).put R.INTK_CTRL_REQ_ENC (0 % 2)); wOther ((wIntk s []).put R.INTK_CTRL_REQ_ENC (0 % 2))), wUnit 3 1 0 2 7 wAtlas, (let s : State := wOther ((wIntk wRun [wUnit 3 1 0 2 7 wAtlas]).put R.INTK_CTRL_REQ_ENC (0 % 2)); wFrameT s 7), by decide⟩

theorem wit_SceneUnitsAreReadByType_8 : ∃ (s s1 s3 : State) (u : VssUnit) (f : FrameSt) (d : List Byte) (pl x y : Nat) (vals : List Nat), s.takeType 4 = some (u, s1) ∧ s1.unitFrame u = (s1, some f) ∧ ((s1.onFrame f.seq (fun x => { x with maskIn := x.maskIn + 1 })).openUnit u = (s3, some d)) ∧ parseMask d = some (pl, [(x, y, vals)]) :=
  ⟨wIntk wClear [wUnit 4 1 0 0 7 (wMask 3)], _, _, _, _, wMask 3, _, _, _, _, (wUnit_read4 _ (wMask_parse 3).1).1, (wUnit_read4 _ (wMask_parse 3).1).2.1, (wUnit_read4 _ (wMask_parse 3).1).2.2, (wMask_parse 3).2⟩

theorem wit_SceneUnitsAreReadByType_9 : ∃ (s s1 s3 : State) (u : VssUnit) (f : FrameSt) (d : List Byte), s.takeType 5 = some (u, s1) ∧ s1.unitFrame u = (s1, some f) ∧ ((s1.onFrame f.seq (fun x => { x with residIn := x.residIn + 1 })).openUnit u = (s3, some d)) :=
  ⟨wIntk wClear [wUnit 5 1 0 0 7 (wResid 0)], _, _, _, _, wResid 0, (wUnit_read5 _ (wResid_length 0)).1, (wUnit_read5 _ (wResid_length 0)).2.1, (wUnit_read5 _ (wResid_length 0)).2.2⟩

theorem wit_SceneUnitsAreReadByType_10 : ∃ (s s1 s3 : State) (u : VssUnit) (f : FrameSt) (d : List Byte), s.takeType 6 = some (u, s1) ∧ s1.unitFrame u = (s1, some f) ∧ s.flag R.INTK_CTRL_OVLY_CUE = true ∧ s1.openUnit u = (s3, some d) ∧ leAt d 0 1 < 4 ∧ leAt d 1 1 < 3 ∧ 14 ≤ d.length ∧ ((uFlags u.bytes).testBit 1 = true → d.length = 14 + (if leAt d 1 1 = 2 then leAt d 6 2 * leAt d 8 2 * formatBytes (leAt d 10 1) else 0)) :=
  ⟨(wIntk wRun [wUnit 6 1 0 2 7 (wb 1 (0 % 4) ++ wb 1 (0 % 3) ++ wb 14 77)]).putB R.INTK_CTRL_OVLY_CUE true, (let s : State := (wIntk wRun [wUnit 6 1 0 2 7 (wb 1 (0 % 4) ++ wb 1 (0 % 3) ++ wb 14 77)]).putB R.INTK_CTRL_OVLY_CUE true; (wIntk s []).putB R.INTK_CTRL_OVLY_CUE true), (let s : State := (wIntk wRun [wUnit 6 1 0 2 7 (wb 1 (0 % 4) ++ wb 1 (0 % 3) ++ wb 14 77)]).putB R.INTK_CTRL_OVLY_CUE true; (wIntk s []).putB R.INTK_CTRL_OVLY_CUE true), wUnit 6 1 0 2 7 (wb 1 (0 % 4) ++ wb 1 (0 % 3) ++ wb 14 77), (let s : State := (wIntk wRun [wUnit 6 1 0 2 7 (wb 1 (0 % 4) ++ wb 1 (0 % 3) ++ wb 14 77)]).putB R.INTK_CTRL_OVLY_CUE true; wFrameT s 7), wb 1 (0 % 4) ++ wb 1 (0 % 3) ++ wb 14 77, by decide⟩

theorem wit_SceneUnitsAreReadByType_11 : ∃ (s s1 : State) (u : VssUnit) (f : FrameSt), s.takeType 6 = some (u, s1) ∧ s1.unitFrame u = (s1, some f) ∧ s.flag R.INTK_CTRL_OVLY_CUE = false :=
  ⟨(wIntk wRun [wUnit 6 1 0 2 7 (wb 14 77)]).putB R.INTK_CTRL_OVLY_CUE false, (let s : State := (wIntk wRun [wUnit 6 1 0 2 7 (wb 14 77)]).putB R.INTK_CTRL_OVLY_CUE false; (wIntk s []).putB R.INTK_CTRL_OVLY_CUE false), wUnit 6 1 0 2 7 (wb 14 77), (let s : State := (wIntk wRun [wUnit 6 1 0 2 7 (wb 14 77)]).putB R.INTK_CTRL_OVLY_CUE false; wFrameT s 7), by decide⟩

theorem wit_SceneUnitsAreReadByType_12 : ∃ (s s1 : State) (u : VssUnit) (f : FrameSt), s.takeType 7 = some (u, s1) ∧ s1.unitFrame u = (s1, some f) ∧ 1 ≤ leAt (uPayload u.bytes) 0 1 ∧ leAt (uPayload u.bytes) 0 1 ≤ 16 ∧ 4 + 16 * leAt (uPayload u.bytes) 0 1 ≤ (uPayload u.bytes).length ∧ (((List.range (leAt (uPayload u.bytes) 0 1)).map (sigEntry (uPayload u.bytes))).any (fun e => 16 ≤ e.getD 0 0) = false) :=
  ⟨(wIntk wRun [wUnit 7 1 0 2 7 (wb 4 1 ++ wb 16 (0 * 65536 + 3))]).putB R.INTK_CTRL_SIG_CUE (0 % 5 ≠ 0), (let s : State := (wIntk wRun [wUnit 7 1 0 2 7 (wb 4 1 ++ wb 16 (0 * 65536 + 3))]).putB R.INTK_CTRL_SIG_CUE (0 % 5 ≠ 0); (wIntk s []).putB R.INTK_CTRL_SIG_CUE (0 % 5 ≠ 0)), wUnit 7 1 0 2 7 (wb 4 1 ++ wb 16 (0 * 65536 + 3)), (let s : State := (wIntk wRun [wUnit 7 1 0 2 7 (wb 4 1 ++ wb 16 (0 * 65536 + 3))]).putB R.INTK_CTRL_SIG_CUE (0 % 5 ≠ 0); wFrameT s 7), by decide⟩

theorem wit_SceneUnitsAreReadByType_13 : ∃ (s s1 : State) (u : VssUnit), s.takeType 8 = some (u, s1) ∧ s1.seqHdr.isSome = true ∧ 1 ≤ leAt (uPayload u.bytes) 0 1 ∧ leAt (uPayload u.bytes) 0 1 ≤ 16 ∧ 4 + 20 * leAt (uPayload u.bytes) 0 1 ≤ (uPayload u.bytes).length ∧ ((List.range (leAt (uPayload u.bytes) 0 1)).all (fun i => leAt (uPayload u.bytes) (4 + 20 * i) 1 < 16) = true) :=
  ⟨wIntk wRun [wUnit 8 1 0 2 9 (wb 4 1 ++ wb 4 (0 % 16) ++ wb 16 0)], (let s : State := wIntk wRun [wUnit 8 1 0 2 9 (wb 4 1 ++ wb 4 (0 % 16) ++ wb 16 0)]; wIntk s []), wUnit 8 1 0 2 9 (wb 4 1 ++ wb 4 (0 % 16) ++ wb 16 0), by decide⟩

theorem wit_SceneUnitsAreReadByType_14 : ∃ (s s1 : State) (u : VssUnit), (s.takeUnit (fun u => decide (0x80 ≤ uType u) && !s.unitBad u) = some (u, s1)) :=
  ⟨wIntk wRun [wUnit 0x90 1 0 2 9 (wb 4 1)], (let s : State := wIntk wRun [wUnit 0x90 1 0 2 9 (wb 4 1)]; wIntk s []), wUnit 0x90 1 0 2 9 (wb 4 1), by decide⟩

theorem wit_SceneUnitsAreReadByType_15 : ∃ (s s1 : State) (u : VssUnit), s.takeUnit s.unitBad = some (u, s1) ∧ s.intk.refused = false :=
  ⟨wIntk wRun [wUnit 0x30 1 0 2 9 (wb 4 1)], (let s : State := wIntk wRun [wUnit 0x30 1 0 2 9 (wb 4 1)]; wIntk s []), wUnit 0x30 1 0 2 9 (wb 4 1), by decide⟩

theorem wit_FramesAreTimedDecodedAndConcealed_1 : ∃ (s s1 : State) (u : VssUnit) (h : SeqHdr) (pts flags a m k : Nat) (tone : List Nat) (r : Int), s.takeType 2 = some (u, s1) ∧ s1.seqHdr = some h ∧ s.intk.next = none ∧ s.intk.closed.contains (uFrame u.bytes) = false ∧ frameFields (uPayload u.bytes) = some (pts, flags, a, m, k, tone) ∧ flags.testBit 1 = false ∧ s.intk.ref = some r ∧ s.intk.rebase = false :=
  ⟨wRef (wIntk wRun [wUnit 2 1 0 0 8 (wFh 0)]), wRef (wIntk wRun []), wUnit 2 1 0 0 8 (wFh 0), wSeq, 0, 1, 2, 0, 0, [0, 0, 0], 5, rfl, rfl, rfl, by decide, rfl, by decide, rfl, rfl⟩

theorem wit_FramesAreTimedDecodedAndConcealed_2 : ∃ (s s1 : State) (u : VssUnit), s.takeType 2 = some (u, s1) ∧ s.seqHdr.isSome = true ∧ s.intk.closed.contains (uFrame u.bytes) = true :=
  ⟨(let x := wIntk wRun [wUnit 2 1 0 0 8 (wFh 5)]; { x with intk := { x.intk with closed := [8] } }), (let s : State := (let x := wIntk wRun [wUnit 2 1 0 0 8 (wFh 5)]; { x with intk := { x.intk with closed := [8] } }); (let x := wIntk s []; { x with intk := { x.intk with closed := [8] } })), wUnit 2 1 0 0 8 (wFh 5), by decide⟩

theorem wit_FramesAreTimedDecodedAndConcealed_3 : ∃ (s : State) (e : Nat) (j : DecJob), e < 4 ∧ s.nextJob e = some j :=
  ⟨wJob wRun (0 % 4), 0 % 4, (let s : State := wJob wRun (0 % 4); wJ s (0 % 4)), by decide⟩

theorem wit_FramesAreTimedDecodedAndConcealed_4 : ∃ (s : State) (e : Nat) (j : DecJob) (p : Picture) (uses : List PicFeature) (h : Option SeqHdr), let late : Bool := j.late || s.timeLate j.time
    e < 4 ∧ s.nextJob e = some j ∧ (h = (match s.intk.frames.find? (fun x => x.seq = j.frame && !x.closed && !late) with | some x => s.frameSeq x | none => s.intk.cur)) ∧ (uses.any (excluded (match h with | some q => q.codec | none => 0)) = true) :=
  ⟨wJob wRun (0 % 4), 0 % 4, (let s : State := wJob wRun (0 % 4); wJ s (0 % 4)), wPic 0, (if 0 % 2 = 0 then [.sei, .interlaced] else [.level 63]), some wSeq, by decide⟩

theorem wit_FramesAreTimedDecodedAndConcealed_5 : ∃ (s : State) (e : Nat) (j : DecJob) (f : FrameSt) (h : SeqHdr) (p : Picture) (uses : List PicFeature), e < 4 ∧ s.nextJob e = some j ∧ (j.late || s.timeLate j.time) = false ∧ (s.intk.frames.find? (fun x => x.seq = j.frame && !x.closed) = some f) ∧ s.frameSeq f = some h ∧ uses.any (excluded h.codec) = false ∧ pictureWrong h j p = false ∧ (j.track ∈ s.intk.corrupt → p.random = true) ∧ j.regions.length = 1 :=
  ⟨wJob2 wRun (0 % 4) (0 % 2 = 0), 0 % 4, (let s : State := wJob2 wRun (0 % 4) (0 % 2 = 0); wJ2 s (0 % 4) (0 % 2 = 0)), (let s : State := wJob2 wRun (0 % 4) (0 % 2 = 0); wFrameT s 7), wSeq, wPic 0, [.sei, .filmGrain], by decide⟩

theorem wit_FramesAreTimedDecodedAndConcealed_6 : ∃ (s : State) (e : Nat) (j : DecJob) (r : PicResult), e < 4 ∧ s.nextJob e = some j ∧ (j.late || s.timeLate j.time) = true :=
  ⟨(let x := wJob wRun (0 % 4); { x with intk := { x.intk with jobs := [{ wJ wRun (0 % 4) with late := true }] } }), 0 % 4, (let s : State := (let x := wJob wRun (0 % 4); { x with intk := { x.intk with jobs := [{ wJ wRun (0 % 4) with late := true }] } }); { wJ s (0 % 4) with late := true }), (if 0 % 3 = 0 then .corrupt else .ok (wPic 0) []), by decide⟩

theorem wit_FramesAreTimedDecodedAndConcealed_7 : ∃ (s : State) (f : Nat) (x : FrameSt), (s.intk.frames.find? (fun g => g.seq = f) = some x) ∧ x.closed = false :=
  ⟨wJob wRun 1, 7, (let s : State := wJob wRun 1; wFrameT s 7), by decide⟩

theorem wit_FramesAreTimedDecodedAndConcealed_8 : ∃ (s : State) (d : DpPicture), s.intk.src = 2 ∧ s.flag R.DPRX_CTRL_EN = true ∧ dpFits d = true ∧ s.intk.dpTiming = some [d.pic.width, d.pic.height, d.pic.bits, d.rateNum, d.rateDen, Word.ofBool d.ycc, dpTransfer d] ∧ s.intk.refused = false :=
  ⟨(wDp wRun).put R.DPRX_CTRL_EN 1, wDpPic, by decide⟩

theorem wit_FramesAreTimedDecodedAndConcealed_9 : ∃ (s : State) (d : DpPicture), s.intk.src = 2 ∧ s.flag R.DPRX_CTRL_EN = true ∧ dpFits d = false :=
  ⟨(wDp wRun).put R.DPRX_CTRL_EN 1, { wDpPic with progressive := false }, by decide⟩

theorem wit_FramesAreTimedDecodedAndConcealed_10 : ∃ (s : State) (d : DpPicture), (s.intk.src ≠ 2 ∨ s.flag R.DPRX_CTRL_EN = false) :=
  ⟨(wDp wRun).put R.DPRX_CTRL_EN 0, wDpPic, by decide⟩

theorem wit_CodecRingTakesAndEndsJobs_1 : ∃ (s : State) (r : Req) (v : Nat), v < 4096 ∧ v < s.lzcEntries :=
  ⟨wRun.put R.LZC_RING_SIZE 5, .host, 0 % 16, by decide⟩

theorem wit_CodecRingTakesAndEndsJobs_2 : ∃ (s : State) (r : Req) (v : Nat), v < 4096 ∧ s.lzcEntries ≤ v :=
  ⟨wRun.put R.LZC_RING_SIZE 4, .host, 16 + 0 % 16, by decide⟩

theorem wit_CodecRingTakesAndEndsJobs_6 : ∃ (s : State) (e i : Nat) (d : List Byte), e < 2 ∧ (s.get R.LZC_CTRL).testBit e = true ∧ (s.lzc.jobs.all (fun j => j.engine ≠ e) = true) ∧ (s.lzc.queue.any (fun q => decide (1 ≤ q.cls ∧ q.cls ≤ 3)) = false ∨ 7 ≤ s.lzc.run.getD e 0) ∧ s.lzcOffer = some (i, some d) ∧ s.jobCheck d = 0 :=
  ⟨wCodecRun (wCodec wRun (wLzJob (0 % 2) 1 (if 0 % 2 = 0 then 5 else 0) 0)) (0 / 2 % 2) (0 % 3), 0 / 2 % 2, 0, wLzJob (0 % 2) 1 (if 0 % 2 = 0 then 5 else 0) 0, by decide⟩

theorem wit_CodecRingTakesAndEndsJobs_7 : ∃ (s : State) (e i : Nat) (d : List Byte), e < 2 ∧ (s.get R.LZC_CTRL).testBit e = true ∧ (s.lzc.jobs.all (fun j => j.engine ≠ e) = true) ∧ (s.lzc.queue.any (fun q => decide (1 ≤ q.cls ∧ q.cls ≤ 3)) = false ∨ 7 ≤ s.lzc.run.getD e 0) ∧ s.lzcOffer = some (i, some d) ∧ s.jobCheck d ≠ 0 :=
  ⟨wCodecRun (wCodec wRun (wLzJob (0 % 2) 1 5 (if 0 % 2 = 0 then 9 else 0))) (0 / 2 % 2) (0 % 3), 0 / 2 % 2, 0, wLzJob (0 % 2) 1 5 (if 0 % 2 = 0 then 9 else 0), by decide⟩

theorem wit_CodecRingTakesAndEndsJobs_8 : ∃ (s : State) (e i : Nat), e < 2 ∧ (s.get R.LZC_CTRL).testBit e = true ∧ (s.lzc.jobs.all (fun j => j.engine ≠ e) = true) ∧ (s.lzc.queue.any (fun q => decide (1 ≤ q.cls ∧ q.cls ≤ 3)) = false ∨ 7 ≤ s.lzc.run.getD e 0) ∧ s.lzcOffer = some (i, none) :=
  ⟨(List.range 64).foldl (fun a q => a.put R.MEM_REGION_ATTR 0 q) (wCodec wRun []), 0 % 2, 0, by decide⟩

theorem wit_CodecRingTakesAndEndsJobs_9 : ∃ (s : State) (e : Nat) (q : InnerJob), e < 2 ∧ (s.get R.LZC_CTRL).testBit e = true ∧ (s.lzc.jobs.all (fun j => j.engine ≠ e) = true) ∧ ([1, 2, 3].findSome? (fun c => s.lzc.queue.find? (fun q => q.cls = c)) = some q) ∧ ((s.lzcOffer.isSome || s.lzc.queue.any (fun q => q.cls = 5)) = false ∨ s.lzc.run.getD e 0 < 7) :=
  ⟨(let x := wCodec wRun (wLzJob 0 1 5 0); { x with lzc := { x.lzc with queue := [⟨3, 1, 3, 1, 1, 0, 0⟩, ⟨0 % 3 + 1, 1, 1, 10, 20, 0, 0⟩, ⟨0 % 3 + 1, 1, 3, 4, 2, 0, 0⟩] } }), 0 % 2, (if 0 % 3 = 2 then ⟨3, 1, 3, 1, 1, 0, 0⟩ else ⟨0 % 3 + 1, 1, 1, 10, 20, 0, 0⟩), by decide⟩

theorem wit_CodecRingTakesAndEndsJobs_10 : ∃ (s : State) (e : Nat) (q : InnerJob), e < 2 ∧ (s.get R.LZC_CTRL).testBit e = true ∧ (s.lzc.jobs.all (fun j => j.engine ≠ e) = true) ∧ (s.lzc.queue.any (fun q => decide (1 ≤ q.cls ∧ q.cls ≤ 3)) = false ∨ 7 ≤ s.lzc.run.getD e 0) ∧ s.lzcOffer = none ∧ (s.lzc.queue.find? (fun q => q.cls = 5) = some q) :=
  ⟨(let x := wCodecRun ((wCodec wRun []).put R.LZC_RING_HEAD 0) (0 % 2) (0 % 3); { x with lzc := { x.lzc with queue := x.lzc.queue ++ [⟨5, 0, 3, 4, 2, 0, 0⟩] } }), 0 % 2, ⟨5, 0, 3, 4, 2, 0, 0⟩, by decide⟩

theorem wit_CodecRingTakesAndEndsJobs_11 : ∃ (s : State) (e : Nat) (j : LzcJob), e < 2 ∧ (s.lzc.jobs.find? (fun x => x.engine = e) = some j) :=
  ⟨(let x := wCodec wRun []; { x with lzc := { x.lzc with jobs := [⟨1 - 0 % 2, 4, 0, [], 0, none⟩, wLzInner 0] } }), 0 % 2, wLzInner 0, by decide⟩

theorem wit_CodecRingTakesAndEndsJobs_12 : ∃ (s : State) (e : Nat) (j : LzcJob) (q : InnerJob), e < 2 ∧ (s.lzc.jobs.find? (fun x => x.engine = e) = some j) ∧ j.inner = some q :=
  ⟨(let x := wCodec wRun []; { x with lzc := { x.lzc with jobs := [wLzInner 0] } }), 0 % 2, wLzInner 0, ⟨2, 1, 3, 100 + 0, 7, if 0 % 3 = 0 then 0 else 0x34, 5⟩, by decide⟩

theorem wit_CodecRingTakesAndEndsJobs_13 : ∃ (s : State) (e : Nat) (j : LzcJob), let out : List Byte := encodeStream (jobFormat j.desc) (jobLevel j.desc) (jobWindow j.desc) (some (jobSrcLen j.desc)) [(s.readBytes (jobSrc j.desc) (jobSrcLen j.desc), 3)]
    e < 2 ∧ (s.lzc.jobs.find? (fun x => x.engine = e) = some j) ∧ j.inner = none ∧ jobOp j.desc = 0 ∧ jobFlush j.desc = 3 ∧ (jobFlags j.desc).testBit 1 = false ∧ out.length ≤ jobDstLen j.desc :=
  ⟨(let x := wCodec wRun []; { x with lzc := { x.lzc with jobs := [⟨0, 4, 0, wLzFin 0, 0, none⟩] } }), 0, ⟨0, 4, 0, wLzFin 0, 0, none⟩, by decide, by decide, by decide, by decide, by decide, by decide, deflate_nothing_length⟩

theorem wit_CodecRingTakesAndEndsJobs_14 : ∃ (s : State) (e : Nat) (j : LzcJob) (out : List Byte) (stop : Nat), e < 2 ∧ (s.lzc.jobs.find? (fun x => x.engine = e) = some j) ∧ j.inner = none ∧ jobOp j.desc = 1 ∧ (jobFlags j.desc).testBit 1 = false ∧ decodeStream (jobFormat j.desc) (jobWindow j.desc) (decide (jobFormat j.desc = 3) && (jobFlags j.desc).testBit 2) (s.readBytes (jobSrc j.desc) (jobSrcLen j.desc)) = (out, stop, none) ∧ out.length ≤ jobDstLen j.desc :=
  ⟨(let x := (wCodec wRun []).writeBytes 0x1000 [0x4B, 0x04, 0x00]; { x with lzc := { x.lzc with jobs := [⟨0, 4, 0, wLzDec, 0, none⟩] } }), 0, ⟨0, 4, 0, wLzDec, 0, none⟩, [0x61], 3, by decide +kernel⟩

theorem wit_CodecRingTakesAndEndsJobs_15 : ∃ (s : State) (r : Req) (e : Nat) (j : LzcJob), e < 2 ∧ (s.lzc.jobs.find? (fun x => x.engine = e) = some j) :=
  ⟨(let x := wCodec wRun []; { x with lzc := { x.lzc with jobs := [wLzInner 0] } }), .host, 0 % 2, wLzInner 0, by decide⟩

theorem wit_CodecRingTakesAndEndsJobs_16 : ∃ (s : State) (r : Req) (e key : Nat), key % 65536 ≠ 0x0C0D :=
  ⟨wRun, .host, 0 % 2, 0x0C0E, by decide⟩

theorem wit_BlitterCommandsFollowTheRing_1 : ∃ (s : State) (r : Req) (v : Nat), v < 4096 ∧ v < s.bltEntries :=
  ⟨wRun.put R.BLT_RING_SIZE 5, .host, 0 % 16, by decide⟩

theorem wit_BlitterCommandsFollowTheRing_2 : ∃ (s : State) (r : Req) (v : Nat), v < 4096 ∧ s.bltEntries ≤ v :=
  ⟨wRun.put R.BLT_RING_SIZE 4, .host, 16 + 0 % 16, by decide⟩

theorem wit_BlitterCommandsFollowTheRing_6 : ∃ (s : State) (d : List Byte), s.bltWaiting = true ∧ s.blt.cmd = none ∧ s.blt.cues = [] ∧ s.comp.heldBlt = [] ∧ s.regionOk .blt false s.bltAddr 128 = true ∧ d = s.readBytes s.bltAddr 112 ∧ bltOp d = 0 ∧ (bltWait d = false ∨ s.blt.fired.contains (bltWm d) = true) :=
  ⟨wBlt wRun (wBltCmd 0 (if 0 % 2 = 0 then 1 else 0x80) 0 0), (let s : State := wBlt wRun (wBltCmd 0 (if 0 % 2 = 0 then 1 else 0x80) 0 0); (wBlt s (wBltCmd 0 (if 0 % 2 = 0 then 1 else 0x80) 0 0)).readBytes 0 112), by decide⟩

theorem wit_BlitterCommandsFollowTheRing_7 : ∃ (s : State) (d : List Byte), s.bltWaiting = true ∧ s.blt.cmd = none ∧ s.blt.cues = [] ∧ s.comp.heldBlt = [] ∧ s.regionOk .blt false s.bltAddr 128 = true ∧ d = s.readBytes s.bltAddr 112 ∧ bltOp d = 2 ∧ (bltWait d = false ∨ s.blt.fired.contains (bltWm d) = true) :=
  ⟨wBlt wRun (wBltCmd 2 0 0 (0 % 7)), (let s : State := wBlt wRun (wBltCmd 2 0 0 (0 % 7)); (wBlt s (wBltCmd 2 0 0 (0 % 7))).readBytes 0 112), by decide⟩

theorem wit_BlitterCommandsFollowTheRing_8 : ∃ (s : State) (d : List Byte), s.bltWaiting = true ∧ s.blt.cmd = none ∧ s.blt.cues = [] ∧ s.comp.heldBlt = [] ∧ s.regionOk .blt false s.bltAddr 128 = true ∧ d = s.readBytes s.bltAddr 112 ∧ bltOp d = 2 ∧ (bltWait d = false ∨ s.blt.fired.contains (bltWm d) = true) ∧ s.bltCheck d = 0 ∧ bltW d = 1 ∧ bltH d = 1 ∧ bltClip d (bltDstX d) (bltDstY d) = true ∧ s.buffersOf ((bltDst d).at_ (bltDstX d).toNat (bltDstY d).toNat) (formatBytes (bltDstFmt d)) = [] :=
  ⟨wBlt wRun (wBltCmd 2 0 0 (0 % 6)), (let s : State := wBlt wRun (wBltCmd 2 0 0 (0 % 6)); (wBlt s (wBltCmd 2 0 0 (0 % 6))).readBytes 0 112), by decide⟩

theorem wit_BlitterCommandsFollowTheRing_9 : ∃ (s : State) (d : List Byte), s.bltWaiting = true ∧ s.blt.cmd = none ∧ s.blt.cues = [] ∧ s.comp.heldBlt = [] ∧ s.regionOk .blt false s.bltAddr 128 = true ∧ d = s.readBytes s.bltAddr 112 ∧ bltOp d = 1 ∧ (bltWait d = false ∨ s.blt.fired.contains (bltWm d) = true) :=
  ⟨wBlt wRun (wBltCmd 1 0 (0 % 7) 0), (let s : State := wBlt wRun (wBltCmd 1 0 (0 % 7) 0); (wBlt s (wBltCmd 1 0 (0 % 7) 0)).readBytes 0 112), by decide⟩

theorem wit_BlitterCommandsFollowTheRing_10 : ∃ (s : State) (d : List Byte), s.bltWaiting = true ∧ s.blt.cmd = none ∧ s.blt.cues = [] ∧ s.comp.heldBlt = [] ∧ s.regionOk .blt false s.bltAddr 128 = true ∧ d = s.readBytes s.bltAddr 112 ∧ bltOp d = 3 ∧ (bltWait d = false ∨ s.blt.fired.contains (bltWm d) = true) :=
  ⟨wBlt wRun (wBltCmd 3 0 (0 % 7) (0 / 2 % 2)), (let s : State := wBlt wRun (wBltCmd 3 0 (0 % 7) (0 / 2 % 2)); (wBlt s (wBltCmd 3 0 (0 % 7) (0 / 2 % 2))).readBytes 0 112), by decide⟩

theorem wit_BlitterCommandsFollowTheRing_11 : ∃ (s : State) (d : List Byte), s.bltWaiting = true ∧ s.blt.cmd = none ∧ s.blt.cues = [] ∧ s.comp.heldBlt = [] ∧ s.regionOk .blt false s.bltAddr 128 = true ∧ d = s.readBytes s.bltAddr 112 ∧ bltOp d = 3 ∧ bltWait d = true ∧ s.blt.fired.contains (bltWm d) = false :=
  ⟨wBlt wRun (wBltCmd 3 (2 + 4 * (0 % 4)) 0 0), (let s : State := wBlt wRun (wBltCmd 3 (2 + 4 * (0 % 4)) 0 0); (wBlt s (wBltCmd 3 (2 + 4 * (0 % 4)) 0 0)).readBytes 0 112), by decide⟩

theorem wit_BlitterCommandsFollowTheRing_12 : ∃ (s : State) (c : BltCmd), s.blt.cmd = some c ∧ s.comp.heldBlt = [] :=
  ⟨{ wBlt wRun [] with blt := ⟨some ⟨0, 64 * 0, 1, 7, 4, none⟩, [], [], [], [], []⟩ }, ⟨0, 64 * 0, 1, 7, 4, none⟩, by decide⟩

theorem wit_BlitterCommandsFollowTheRing_13 : ∃ (s : State) (r : Req) (c : BltCmd), s.blt.cmd = some c ∧ s.comp.heldBlt = [] :=
  ⟨{ wBlt wRun [] with blt := ⟨some ⟨0, 64 * 0, 1, 7, 4, none⟩, [], [], [], [], []⟩ }, .host, ⟨0, 64 * 0, 1, 7, 4, none⟩, by decide⟩

theorem wit_BlitterCommandsFollowTheRing_14 : ∃ (s : State) (c : OvlyCue) (rest : List OvlyCue), s.blt.cues = c :: rest ∧ s.blt.cmd = none ∧ s.comp.heldBlt = [] ∧ c.ovly < 4 ∧ (s.flag { R.BLT_CUE_CTRL with lsb := c.ovly, width := 1 } = false ∨ (c.fmt ≠ 0 ∧ c.fmt ≠ 5)) :=
  ⟨{ (wBlt wRun []).put R.BLT_CUE_CTRL 15 with blt := ⟨none, [], [⟨7, 0 % 4, 2, 0, 0, 1, 1, 3, []⟩], [], [], []⟩ }, ⟨7, 0 % 4, 2, 0, 0, 1, 1, 3, []⟩, [], by decide⟩

theorem wit_BlitterCommandsFollowTheRing_15 : ∃ (s : State) (c : OvlyCue) (rest : List OvlyCue), s.blt.cues = c :: rest ∧ s.blt.cmd = none ∧ s.comp.heldBlt = [] ∧ c.ovly < 4 ∧ s.flag { R.BLT_CUE_CTRL with lsb := c.ovly, width := 1 } = true ∧ (c.fmt = 0 ∨ c.fmt = 5) ∧ c.w ≤ 32768 ∧ c.h ≤ 32768 ∧ s.flag R.COMP_OVLY_CFG_BACK_VALID c.ovly = false ∧ s.registered (s.get R.COMP_OVLY_CFG_FRONT c.ovly) = true ∧ c.w * c.h * formatBytes c.fmt ≤ c.pixels.length :=
  ⟨{ wCueBuf ((wBlt wRun []).put R.BLT_CUE_CTRL 15) with blt := ⟨none, [], [⟨7, 0 % 4, 2, 0, 0, 2, 1, 0, wb 8 0⟩], [], [], []⟩ }, ⟨7, 0 % 4, 2, 0, 0, 2, 1, 0, wb 8 0⟩, [], by decide⟩

theorem wit_BlitterCommandsFollowTheRing_16 : ∃ (s : State) (r : Req) (w data : Nat), w < 4 :=
  ⟨wRun, .host, 0 % 4, 0x80020005 + 0, by decide⟩

theorem wit_PanelTemperatureRectanglesAndVcom_1 : ∃ (s : State) (l : List (Nat × Nat × Int)) (a : Int) (rest : List Int), ((l.filter (fun q => decide (q.1 < (match s.pseq.desc with | some d => d.sensors | none => 0)) && !(s.panelSensors l).pseq.broken.testBit q.1)).map (fun q => q.2.2) = a :: rest) ∧ -32768 ≤ rest.foldl min a ∧ rest.foldl min a < 32768 :=
  ⟨{ wPseq wRun with pseq := { (wPseq wRun).pseq with band := 0 % 8 } }, [(0, 100, 250 + (0 : Int)), (1, 101, 250), (2, 99, 251), (3, 99, 260)], 250 + (0 : Int), [250, 251, 260], by decide⟩

theorem wit_PanelTemperatureRectanglesAndVcom_2 : ∃ (s : State), 16 ≤ s.pseq.noReading ∧ s.flag R.THM_SENS_BROKEN 64 = false :=
  ⟨{ wRun.put R.THM_SENS_BROKEN 0 64 with pseq := { wRun.pseq with noReading := 16 + 0 } }, by decide⟩

theorem wit_PanelTemperatureRectanglesAndVcom_3 : ∃ (s : State), s.pseq.noReading < 16 :=
  ⟨wRun, by decide⟩

theorem wit_PanelTemperatureRectanglesAndVcom_4 : ∃ (s : State), s.pseq.lensStep < 32 :=
  ⟨(let x := (wPseq wRun).putB R.PAIR_STAT_DRIVE (0 % 3 ≠ 0); { x with pseq := { x.pseq with lensStep := 0 % 32 } }), by decide⟩

theorem wit_PanelTemperatureRectanglesAndVcom_5 : ∃ (s : State) (r : Req) (data : Nat), (s.isMirror = false ∨ r = .partner) ∧ s.isActive = false ∧ s.get R.PSEQ_RECT_WH_W ≠ 0 ∧ s.get R.PSEQ_RECT_WH_H ≠ 0 ∧ s.get R.PSEQ_RECT_XY_X + s.get R.PSEQ_RECT_WH_W ≤ s.panelW ∧ s.get R.PSEQ_RECT_XY_Y + s.get R.PSEQ_RECT_WH_H ≤ s.panelH ∧ mLayout (s.get R.VIEW_MODE_EFF_MODE) = 2 ∧ s.flag R.PSEQ_CTRL_PARTIAL = true :=
  ⟨(let x := wRect wRun (0 % 50) 77; if 0 % 3 = 0 then { x with pseq := { x.pseq with queued := List.replicate 16 ⟨0, 0, 3, 3, 1⟩ } } else x), .host, 0 % 8, by decide⟩

theorem wit_PanelTemperatureRectanglesAndVcom_6 : ∃ (s : State) (r : Req) (data : Nat), (s.isMirror = false ∨ r = .partner) ∧ s.isActive = false ∧ (s.panelW < s.get R.PSEQ_RECT_XY_X + s.get R.PSEQ_RECT_WH_W ∨ mLayout (s.get R.VIEW_MODE_EFF_MODE) ≠ 2 ∨ s.flag R.PSEQ_CTRL_PARTIAL = false) :=
  ⟨wRect wRun 15300 77, .host, 0 % 8, by decide⟩

theorem wit_PanelTemperatureRectanglesAndVcom_7 : ∃ (s : State) (crack : CrackRead) (vref : Nat) (volts : List Nat), s.get R.RAIL_STAT_STATE = 2 ∧ s.rail.crackNext < 2 ∧ s.get R.PSEQ_CTRL_VCOM_METHOD ≠ 1 :=
  ⟨{ (wRun.put R.RAIL_STAT_STATE 2).put R.PSEQ_CTRL_VCOM_METHOD 0 with rail := { wRun.rail with crackNext := 0 % 2 } }, ⟨500 + 5 * 0, false, 0 % 4 = 0⟩, 2500, [], by decide⟩

theorem wit_PanelTemperatureRectanglesAndVcom_8 : ∃ (s : State) (crack : CrackRead) (vref : Nat) (volts : List Nat), s.get R.RAIL_STAT_STATE = 3 ∧ volts.length = 16 :=
  ⟨(wRun.put R.RAIL_STAT_STATE 3), ⟨500, false, false⟩, 2500, (List.range 16).map (fun i => 3990 + 413 * i), by decide⟩

theorem wit_PanelTemperatureRectanglesAndVcom_9 : ∃ (s : State) (crack : CrackRead) (vref : Nat) (volts : List Nat), s.get R.RAIL_STAT_STATE ≠ 2 ∧ s.get R.RAIL_STAT_STATE ≠ 3 :=
  ⟨(wRun.put R.RAIL_STAT_STATE (0 % 2)), ⟨500, false, false⟩, 2500, [], by decide⟩

theorem wit_PanelTemperatureRectanglesAndVcom_10 : ∃ (s : State) (r : Nat) (e : Int), r < 16 ∧ s.get R.PSEQ_CTRL_VCOM_METHOD = 0 ∧ s.get R.RAIL_STAT_STATE = 2 ∧ s.vcomWin r = ⟨0, 0, 0, false, true⟩ ∧ s.get R.PSEQ_VCOM_CTRL_WINDOW ≤ 1 ∧ -512 ≤ e ∧ e < 512 :=
  ⟨{ (((wRun.put R.RAIL_STAT_STATE 2).put R.PSEQ_CTRL_VCOM_METHOD 0).put R.PSEQ_VCOM_CTRL_WINDOW (0 % 2)).put R.PSEQ_VCOM_CTRL_THRESH 20 with pseq := { wRun.pseq with vcom := List.replicate 16 ⟨0, 0, 0, false, true⟩ } }, 0 % 16, ((0 * 37 % 300 : Nat) : Int) - 150, by decide⟩

theorem wit_PanelTemperatureRectanglesAndVcom_11 : ∃ (s : State) (r : Req) (data : Nat), (s.isMirror = false ∨ r = .partner) :=
  ⟨wRun.put R.PAIR_STAT_STATE 2, .host, 0x0ABC0001 + 0, by decide⟩

theorem wit_PanelTemperatureRectanglesAndVcom_12 : ∃ (s : State), s.pins.pwrFail = false :=
  ⟨wRun.put R.RAIL_STAT_STATE 2, by decide⟩

theorem wit_PanelTemperatureRectanglesAndVcom_13 : ∃ (s : State), s.pins.pwrFail = true :=
  ⟨{ wRun with pins := { wRun.pins with pwrFail := true } }, by decide⟩

theorem wit_LaneGroupsBringUpAndFallBack_1 : ∃ (s : State) (j : Nat), j < 27 ∧ s.mayDetect j = true ∧ (s.groupStage j = 0 ∨ s.groupStage j = 1) :=
  ⟨(let x := wLane wRun (23 + 0 % 4) (0 % 2) 0; { x with pseq := { x.pseq with desc := none } }), 23 + 0 % 4, by decide⟩

theorem wit_LaneGroupsBringUpAndFallBack_2 : ∃ (s : State) (j : Nat), j < 27 ∧ s.mayDetect j = true ∧ (s.groupStage j = 0 ∨ s.groupStage j = 1) :=
  ⟨wLane wRun (23 + 0 % 4) (0 % 2) 0, 23 + 0 % 4, by decide⟩

theorem wit_LaneGroupsBringUpAndFallBack_3 : ∃ (s : State) (j : Nat) (eyes : List LaneEye), j < 27 ∧ s.groupStage j = 2 ∧ s.eyesMet j eyes = true :=
  ⟨wLane wRun (0 % 27) 2 (0 % 4), 0 % 27, (dataLanes (0 % 27)).map (fun n => ⟨n, 500, 40, 3, 5, 1, 1⟩), by decide⟩

theorem wit_LaneGroupsBringUpAndFallBack_4 : ∃ (s : State) (j n : Nat) (e : LaneEye), j < 27 ∧ s.groupStage j = 2 ∧ s.eyesMet j [e] = true ∧ dataLanes j = [n] ∧ e.lane = n ∧ laneId n / 4096 % 2 = 1 ∧ s.flag R.LANE_EQ_RX_OVR n = false :=
  ⟨(wLane wRun (16 + 0 % 4) 2 0).put R.LANE_EQ_RX_OVR 0 ((dataLanes (16 + 0 % 4)).headD 0) |>.put R.LANE_GRP_CTRL_EYE_MIN 30 (leadLane (16 + 0 % 4)), 16 + 0 % 4, (dataLanes (16 + 0 % 4)).headD 0, ⟨(dataLanes (16 + 0 % 4)).headD 0, 40, 40, 3, 5, 7, 1⟩, by decide⟩

theorem wit_LaneGroupsBringUpAndFallBack_5 : ∃ (s : State) (j : Nat), j < 27 ∧ 2 ≤ s.groupStage j ∧ s.groupStage j ≤ 4 ∧ 2 ≤ s.get R.LANE_GRP_STAT_GEN (leadLane j) :=
  ⟨wLane wRun (0 % 27) (2 + 0 % 3) (2 + 0 % 2), 0 % 27, by decide⟩

theorem wit_LaneGroupsBringUpAndFallBack_6 : ∃ (s : State) (j : Nat), j < 27 ∧ 2 ≤ s.groupStage j ∧ s.groupStage j ≤ 4 ∧ s.get R.LANE_GRP_STAT_GEN (leadLane j) < 2 :=
  ⟨wLane wRun (0 % 27) (2 + 0 % 3) (0 % 2), 0 % 27, by decide⟩

theorem wit_LaneGroupsBringUpAndFallBack_7 : ∃ (s : State) (j : Nat) (times : List (Nat × Nat)), j < 27 ∧ s.groupStage j = 3 ∧ deskewOk (txLanes j) times = true ∧ deskewOk (rxLanes j) times = true :=
  ⟨wLane wRun (0 % 27) 3 1, 0 % 27, (dataLanes (0 % 27)).map (fun n => (n, 1000 + n % 5 * 33)), by decide⟩

theorem wit_LaneGroupsBringUpAndFallBack_8 : ∃ (s : State) (j : Nat) (times : List (Nat × Nat)), j < 27 ∧ s.groupStage j = 3 ∧ (deskewOk (txLanes j) times = false ∨ deskewOk (rxLanes j) times = false) :=
  ⟨wLane wRun (0 % 27) 3 (0 % 4), 0 % 27, (dataLanes (0 % 27)).zipIdx.map (fun p => (p.1, 1000 + 133 * p.2)), by decide⟩

theorem wit_LaneGroupsBringUpAndFallBack_9 : ∃ (s : State) (j offer : Nat), let o : Nat := match (if j < 16 then s.pseq.desc else none) with | some d => d.maxGen | none => offer
    j < 27 ∧ s.groupStage j = 4 ∧ o < s.get R.LANE_GRP_STAT_GEN (leadLane j) ∧ 1 ≤ o :=
  ⟨wLane wRun (0 % 27) 4 3, 0 % 27, 1 + 0 % 2, by decide⟩

theorem wit_LaneGroupsBringUpAndFallBack_10 : ∃ (s : State) (j offer : Nat), let o : Nat := match (if j < 16 then s.pseq.desc else none) with | some d => d.maxGen | none => offer
    j < 27 ∧ s.groupStage j = 4 ∧ (s.get R.LANE_GRP_STAT_GEN (leadLane j) ≤ o ∨ o = 0) :=
  ⟨wLane wRun (0 % 27) 4 2, 0 % 27, 2 + 0 % 2, by decide⟩

theorem wit_LaneGroupsBringUpAndFallBack_11 : ∃ (s : State) (j : Nat), j < 27 ∧ s.groupStage j = 6 ∧ s.flag R.LANE_GRP_CTRL_EN (leadLane j) = true :=
  ⟨wLane wRun (0 % 27) 6 1, 0 % 27, by decide⟩

theorem wit_LaneGroupsBringUpAndFallBack_12 : ∃ (s : State) (j : Nat), j < 27 ∧ s.groupStage j = 5 :=
  ⟨wLane wRun (0 % 27) 5 2, 0 % 27, by decide⟩

theorem wit_LaneCommandsTapsAndPowerStates_1 : ∃ (s : State) (r : Req) (j : Nat), j < 27 :=
  ⟨(let x := wLane wRun (0 % 27) (0 % 8) 2; { x with pseq := { x.pseq with desc := none } }), .host, 0 % 27, by decide⟩

theorem wit_LaneCommandsTapsAndPowerStates_2 : ∃ (s : State) (r : Req) (j : Nat), j < 27 ∧ (s.groupStage j = 0 ∨ s.groupStage j = 6) :=
  ⟨wLane wRun (0 % 27) (6 * (0 % 2)) 2, .host, 0 % 27, by decide⟩

theorem wit_LaneCommandsTapsAndPowerStates_3 : ∃ (s : State) (r : Req) (j : Nat), j < 27 ∧ s.groupStage j ≠ 0 ∧ s.groupStage j ≠ 6 :=
  ⟨wLane wRun (0 % 27) (1 + 0 % 5) 2, .host, 0 % 27, by decide⟩

theorem wit_LaneCommandsTapsAndPowerStates_4 : ∃ (s : State) (r : Req) (j key : Nat), j < 27 ∧ key ≠ 0x1A4E :=
  ⟨wLane wRun (0 % 27) 7 2, .host, 0 % 27, 0, by decide⟩

theorem wit_LaneCommandsTapsAndPowerStates_5 : ∃ (s : State) (r : Req) (j : Nat), j < 27 ∧ s.groupStage j = 7 :=
  ⟨wLane wRun (0 % 27) 7 2, .host, 0 % 27, by decide⟩

theorem wit_LaneCommandsTapsAndPowerStates_6 : ∃ (s : State) (n : Nat) (post up : Bool), n < 118 ∧ s.groupStage (groupOfLane n) = 5 ∧ s.flag R.LANE_EQ_TX_OVR n = false ∧ laneId n / 4096 % 2 = 0 ∧ isDataLane n = true ∧ s.get R.LANE_EQ_EFF_PRE n ≤ 16 ∧ s.get R.LANE_EQ_EFF_POST n ≤ 24 :=
  ⟨(((wLane wRun (groupOfLane (4 * (0 % 10) + 1)) 5 2).put R.LANE_EQ_TX_OVR 0 (4 * (0 % 10) + 1)).put R.LANE_EQ_EFF_PRE (0 % 17) (4 * (0 % 10) + 1)).put R.LANE_EQ_EFF_POST (0 % 25) (4 * (0 % 10) + 1), 4 * (0 % 10) + 1, 0 % 2 = 0, 0 % 3 = 0, by decide⟩

theorem wit_LaneCommandsTapsAndPowerStates_7 : ∃ (s : State) (n header ty : Nat), n < 118 :=
  ⟨wRun, 0 % 118, 0 % 4, (if 0 % 3 = 0 then 0x1E else 0), by decide⟩

theorem wit_LaneCommandsTapsAndPowerStates_8 : ∃ (s : State) (r : Req) (n mode : Nat), privileged n = true :=
  ⟨wLane wRun (groupOfLane (76 + 0)) (if 0 % 2 = 0 then 7 else 5) 2, .host, 76 + 0, 0 % 4, by decide⟩

theorem wit_LaneCommandsTapsAndPowerStates_9 : ∃ (s : State) (n : Nat), n < 118 :=
  ⟨wLane wRun (groupOfLane (29 * 4)) (if 29 % 2 = 0 then 7 else 5) 2, 29 * 4, by decide⟩

theorem wit_LaneCommandsTapsAndPowerStates_10 : ∃ (s : State) (n k : Nat), n < 118 :=
  ⟨wLane wRun (groupOfLane (29 * 4)) (if 29 % 2 = 0 then 7 else 5) 2, 29 * 4, ((29 * 4) + 5) % 20, by decide⟩

theorem wit_LaneCommandsTapsAndPowerStates_11 : ∃ (s : State) (j pwr : Nat) (tx agreed : Bool), j < 27 ∧ 1 ≤ pwr :=
  ⟨wLane wRun (0 % 27) 5 2 |>.grpPut R.LANE_GRP_CTRL_DEEPEST (0 % 4) (0 % 27), 0 % 27, 1 + 0 % 2, 0 % 2 = 0, 0 % 3 = 0, by decide⟩

theorem wit_LaneCommandsTapsAndPowerStates_12 : ∃ (s : State) (j : Nat) (tx : Bool), j < 27 :=
  ⟨wLane wRun (0 % 27) 5 2, 0 % 27, 0 % 2 = 0, by decide⟩

theorem wit_MemoryServesByClassCorrectsAndFreezes_1 : ∃ (s : State) (c : Nat) (q : MemReq) (pass : Bool), s.memServes c = true ∧ s.memNext c pass = some q :=
  ⟨{ wMem wRun 2 with mem := { (wMem wRun 2).mem with queue := [wReq 0 28 none .single] } }, 0, wReq 0 28 none .single, true, by decide⟩

theorem wit_MemoryServesByClassCorrectsAndFreezes_2 : ∃ (s : State) (c : Nat) (q : MemReq) (bs : List Byte) (pass : Bool), s.memServes c = true ∧ s.memAdmits c q = true ∧ s.ctrlState c = 2 ∧ s.mem.queue = [] ∧ s.mem.throttled = [] ∧ q.write = some bs ∧ (q.ecc = .clean ∨ q.ecc = .single) :=
  ⟨wMem wRun 2, 0, wReq 0 30 (some (wb 9 (77 + 0))) (if 0 % 2 = 0 then .clean else .single), wb 9 (77 + 0), 0 % 3 = 0, by decide⟩

theorem wit_MemoryServesByClassCorrectsAndFreezes_3 : ∃ (s : State) (c : Nat) (q : MemReq) (pass : Bool), s.memServes c = true ∧ s.memAdmits c q = true ∧ s.ctrlState c = 2 ∧ s.mem.queue = [] ∧ s.mem.throttled = [] ∧ q.write = none ∧ (q.ecc = .clean ∨ q.ecc = .single) :=
  ⟨(wMem wRun 2).writeBytes 520 (wb 9 (12345 * 0 + 3)), 0, wReq 0 30 none (if 0 % 2 = 0 then .clean else .single), 0 % 3 = 0, by decide⟩

theorem wit_MemoryServesByClassCorrectsAndFreezes_4 : ∃ (s : State) (c : Nat) (q : MemReq) (syn cause : Nat) (pass : Bool), s.memServes c = true ∧ s.memAdmits c q = true ∧ s.ctrlState c = 2 ∧ s.mem.queue = [] ∧ s.mem.throttled = [] ∧ (q.ecc = .double syn ∧ cause = 1 ∨ q.ecc = .parity ∧ cause = 2 ∨ q.ecc = .fetchPort ∧ cause = 3) :=
  ⟨(wMem wRun 2), 0, wReq 0 30 (if 0 % 2 = 0 then none else some (wb 3 7)) ([EccOutcome.double 0, .parity, .fetchPort].getD (0 % 3) .parity), 0, 1 + 0 % 3, 0 % 5 = 0, by decide⟩

theorem wit_MemoryServesByClassCorrectsAndFreezes_5 : ∃ (s : State) (c : Nat) (q : MemReq) (pass : Bool), s.memServes c = true ∧ s.memAdmits c q = true ∧ s.ctrlState c = 5 ∧ s.mem.queue = [] ∧ s.mem.throttled = [] :=
  ⟨(wMem wRun 5), 0, wReq 0 35 (if 0 % 2 = 0 then none else some (wb 3 7)) .clean, 0 % 3 = 0, by decide⟩

theorem wit_MemoryServesByClassCorrectsAndFreezes_6 : ∃ (s : State) (c : Nat) (q : MemReq) (pass : Bool), (s.memAdmits c q = false ∨ s.memServes c = false) ∧ (s.memServes c = false ∨ s.memNext c pass = none) :=
  ⟨wMem wRun (if 0 % 2 = 0 then 0 else 2), 0, wReq 0 (if 0 % 2 = 0 then 30 else 38) none .clean, 0 % 3 = 0, by decide⟩

theorem wit_MemoryServesByClassCorrectsAndFreezes_7 : ∃ (s : State) (addr syn : Nat) (ecc : EccOutcome), s.scrubs addr = true ∧ s.channelOf addr < 48 :=
  ⟨(wMem wRun 2).put R.MEM_POLICY_SCRUB_H 3, 1000 * 0, 0, [EccOutcome.clean, .single, .double 0, .parity].getD (0 % 4) .clean, by decide⟩

theorem wit_MemoryServesByClassCorrectsAndFreezes_8 : ∃ (s : State) (addr : Nat) (ecc : EccOutcome), s.scrubs addr = false :=
  ⟨(wMem wRun 2).put R.MEM_POLICY_SCRUB_H 0, 1000 * 0, .single, by decide⟩

theorem wit_MemoryServesByClassCorrectsAndFreezes_9 : ∃ (s : State) (c : Nat), c < 6 ∧ s.rst.hold = .core ∧ s.ctrlState c = 5 :=
  ⟨{ (wMem wRun 5).put R.MEM_C_STAT_STATE 5 (0 % 6) with rst := { wRun.rst with hold := .core } }, 0 % 6, by decide⟩

theorem wit_MemoryServesByClassCorrectsAndFreezes_10 : ∃ (s : State) (r : Req) (key c : Nat), c < 6 ∧ (key ≠ 0x4D45 ∨ r ≠ .caretaker ∨ s.rst.hold ≠ .core) :=
  ⟨wRun, .host, 0x4D45, 0 % 6, by decide⟩

theorem wit_MemoryServesByClassCorrectsAndFreezes_11 : ∃ (s : State) (x : Nat), s.mem.freezeDue = some x :=
  ⟨{ (wMem wRun 5).put R.MEM_FREEZE_CTRL_AUTO_CORE (0 % 2) with mem := { (wMem wRun 5).mem with freezeDue := some 7 } }, 7, by decide⟩

theorem wit_MemoryServesByClassCorrectsAndFreezes_12 : ∃ (s : State) (i k : Nat) (data : Word), i < 64 ∧ k < 3 :=
  ⟨((wRun.put R.MEM_HOST 64).put R.MEM_REGION_BASE 3 (0 % 64)).put R.MEM_REGION_LIMIT (0 * 1700) (0 % 64), 0 % 64, 0 % 3, BitVec.ofNat 32 (3 + 40 * 0), by decide⟩

theorem wit_MemoryServesByClassCorrectsAndFreezes_13 : ∃ (s : State) (r : Req) (i k : Nat) (data : Word), i < 64 ∧ k < 3 ∧ r ≠ .caretaker :=
  ⟨wRun, .host, 0 % 64, 0 % 3, 3, by decide⟩

theorem wit_MemoryRefreshTrackingAndRate_3 : ∃ (s : State) (ch : Nat) (postpone : Bool), ch < 48 ∧ s.memServes (ch / 8) = true :=
  ⟨{ (wMem wRun 2).put R.MEM_CH_STAT_DEBT (0 % 9) 0 0 with mem := { (wMem wRun 2).mem with queue := [wReq 0 3 none .clean] } }, 0, 0 % 3 ≠ 0, by decide⟩

theorem wit_MemoryRefreshTrackingAndRate_4 : ∃ (s : State) (ch : Nat) (postpone : Bool), (48 ≤ ch ∨ s.memServes (ch / 8) = false) :=
  ⟨wMem wRun 0, 0 % 8, 0 % 2 = 0, by decide⟩

theorem wit_MemoryRefreshTrackingAndRate_5 : ∃ (s : State) (ch : Nat), ch < 48 ∧ s.classPReady ch = false :=
  ⟨(wMem wRun 2).put R.MEM_CH_STAT_DEBT (0 % 9) (0 / 8) (0 % 8), 0, by decide⟩

theorem wit_MemoryRefreshTrackingAndRate_6 : ∃ (s : State) (ch code : Nat) (rate : Mr4Rate), ch < 48 :=
  ⟨wRun, 0, 0, [Mr4Rate.slow, .base, .above, .twice].getD (0 % 4) .slow, by decide⟩

theorem wit_MemoryRefreshTrackingAndRate_7 : ∃ (s : State) (ch r0 w0 r1 w1 : Nat) (centres delays : List Int), ch < 48 ∧ (s.get R.MEM_MAP).testBit ch = true ∧ (s.mem.delays.find? (fun p => p.1 = ch) = some (ch, delays)) :=
  ⟨{ wMem wRun 2 with mem := { (wMem wRun 2).mem with delays := [(7, []), (0, [3, 4, 5])] } }, 0, 5 + 0, 70, 20, 13 + 0, [5, 1, (0 : Int)], [3, 4, 5], by decide⟩

theorem wit_MemoryRefreshTrackingAndRate_8 : ∃ (s : State) (v : Nat), v < 3 ∧ s.flag R.MEM_FREQ_BUSY = false :=
  ⟨(List.range 6).foldl (fun a c => a.put R.MEM_C_STAT_STATE 2 c) (wMem wRun 2) |>.put R.PERS_STATE_ACTIVE_VALID 0, 0 % 3, by decide⟩

theorem wit_MemoryRefreshTrackingAndRate_9 : ∃ (s : State) (v : Nat), v < 3 ∧ s.flag R.MEM_FREQ_BUSY = true :=
  ⟨wRun.put R.MEM_FREQ_BUSY 1, 0 % 3, by decide⟩

theorem wit_MemoryRefreshTrackingAndRate_10 : ∃ (s : State) (v : Nat), s.mem.freqNext = some v ∧ s.mem.selfRefresh = false ∧ s.flag R.MEM_FREQ_BUSY = false ∧ s.pseq.inFlight = false :=
  ⟨(let x := (List.range 6).foldl (fun a c => a.put R.MEM_C_STAT_STATE 2 c) (wMem wRun 2); { x with pseq := { x.pseq with inFlight := false }, mem := { x.mem with freqNext := some (0 % 3), queue := if 0 % 2 = 0 then [] else [wReq 0 30 none .clean, wReq 0 3 (some [1, 2]) .clean] } }), 0 % 3, by decide⟩

theorem wit_MemoryRefreshTrackingAndRate_11 : ∃ (s : State) (v : Nat), v < 3 ∧ s.mem.freqNext = some v ∧ s.mem.freqHeld = none ∧ s.flag R.MEM_FREQ_BUSY = true :=
  ⟨(let x := ((List.range 6).foldl (fun a c => a.put R.MEM_C_STAT_STATE 4 c) (wMem wRun 2)).put R.MEM_FREQ_BUSY 1; { x with mem := { x.mem with freqNext := some (0 % 3) } }), 0 % 3, by decide⟩

theorem wit_PairLettersRolesAndLink_1 : ∃ (s : State) (role serial : Nat), s.get R.RST_STRAP_ROLE ≠ 0 :=
  ⟨wRun.put R.RST_STRAP_ROLE (1 + 0 % 3), 0 / 3 % 4, 99 * 0, by decide⟩

theorem wit_PairLettersRolesAndLink_2 : ∃ (s : State) (role serial : Nat), s.get R.RST_STRAP_ROLE = 0 :=
  ⟨wRun.put R.RST_STRAP_ROLE 0, 1, 5, by decide⟩

theorem wit_PairLettersRolesAndLink_3 : ∃ (s : State) (otherHolds : Bool) (port : Nat), s.get R.PAIR_STAT_STATE < 2 :=
  ⟨(wPair wRun (0 % 2 = 0) (0 % 2)).put R.PAIR_STAT_LETTER (1 + 0 / 2 % 2), 0 % 3 = 0, 0 % 4, by decide⟩

theorem wit_PairLettersRolesAndLink_4 : ∃ (s : State) (otherHolds : Bool) (port : Nat), 2 ≤ s.get R.PAIR_STAT_STATE :=
  ⟨wPair wRun true (2 + 0 % 4), true, 0, by decide⟩

theorem wit_PairLettersRolesAndLink_5 : ∃ (s : State), s.flag R.PAIR_STAT_DRIVE = true :=
  ⟨{ (wPair wRun (0 % 2 = 0) 2).put R.PAIR_STAT_DRIVE 1 with pair := { State.reset.pair with handover := if 0 % 3 = 0 then some 7 else none } }, by decide⟩

theorem wit_PairLettersRolesAndLink_6 : ∃ (s : State), s.pairUp = true :=
  ⟨wPair wRun true (2 + 0 % 2), by decide⟩

theorem wit_PairLettersRolesAndLink_7 : ∃ (s : State) (time sf state fit cause : Nat), s.pairUp = true :=
  ⟨wPair wRun true (2 + 0 % 2), 1, 2, 2 + 0 / 2 % 2, 0, 0, by decide⟩

theorem wit_PairLettersRolesAndLink_8 : ∃ (s : State), s.inPair = true :=
  ⟨wPair wRun true (2 + 0 % 2), by decide⟩

theorem wit_PairLettersRolesAndLink_9 : ∃ (s : State), s.inPair = false :=
  ⟨wPair wRun true (4 + 0 % 2), by decide⟩

theorem wit_PairLettersRolesAndLink_10 : ∃ (s : State), s.pairUp = true :=
  ⟨wPair wRun true 3, by decide⟩

theorem wit_PairLettersRolesAndLink_12 : ∃ (s : State), s.pair.unacked ≠ [] ∧ s.pairUp = true ∧ s.pair.resends < 8 :=
  ⟨{ wPair wRun true 3 with pair := { State.reset.pair with resends := 0 % 8, unacked := [⟨4, .ack 1⟩, ⟨6, .ack 1⟩] } }, by decide⟩

theorem wit_PairLettersRolesAndLink_13 : ∃ (s : State), s.pair.unacked ≠ [] ∧ s.pairUp = true ∧ 8 ≤ s.pair.resends :=
  ⟨{ wPair wRun true 3 with pair := { State.reset.pair with resends := 8, unacked := [⟨4, .ack 1⟩, ⟨6, .ack 1⟩] } }, by decide⟩

theorem wit_PairLettersRolesAndLink_14 : ∃ (s : State) (r : Req), r ≠ .partner :=
  ⟨(wPair wRun true (2 + 0 % 3)).put R.PAIR_FIT_PEER_FIT (if 0 % 2 = 0 then 0xFF else 0xF7), .host, by decide⟩

theorem wit_PairLettersRolesAndLink_15 : ∃ (s : State) (r : Req), r ≠ .partner :=
  ⟨wPair wRun true (2 + 0 % 3), .host, by decide⟩

theorem wit_PairLettersRolesAndLink_16 : ∃ (s : State) (r : Req) (key : Nat), (key ≠ 0x9A1E ∨ r = .partner) :=
  ⟨wPair wRun true (2 + 0 % 3), .host, 0, by decide⟩

theorem wit_PairLettersRolesAndLink_17 : ∃ (s : State) (data : Word), s.isMirror = true ∧ s.rst.hold = .run :=
  ⟨{ wPair wRun true 3 with rst := { wRun.rst with hold := .run } }, BitVec.ofNat 32 (0x04560000 + 0), by decide⟩

theorem wit_PairLettersRolesAndLink_18 : ∃ (s : State) (off : Nat) (data : Word), s.isMirror = false :=
  ⟨wPair wRun true 2, 0 * 4, 5, by decide⟩

theorem wit_PairLettersRolesAndLink_19 : ∃ (s : State) (value : Word) (target g : Nat), s.isMirror = true ∧ g < 16 ∧ value.getLsbD g = true ∧ value.toNat / 65536 % 4 = 1 ∧ Word.reached s.sf target = false :=
  ⟨(wPair wRun true 3).put R.PSEQ_SF 100, BitVec.ofNat 32 (65536 + (2 ^ (0 % 16) ||| 1)), 101 + 0, 0 % 16, by decide⟩

theorem wit_PairLettersRolesAndLink_20 : ∃ (s : State) (value : Word) (target g : Nat), s.isMirror = true ∧ g < 16 ∧ value.getLsbD g = true ∧ value.toNat / 65536 % 4 = 1 ∧ Word.reached s.sf target = true :=
  ⟨(wPair wRun true 3).put R.PSEQ_SF 100, BitVec.ofNat 32 (65536 + (2 ^ (0 % 16) ||| 1)), 100 - 0, 0 % 16, by decide⟩

theorem wit_PairLettersRolesAndLink_21 : ∃ (s : State) (value : Word) (time : Bool) (target : Nat) (digest : List Byte), s.isMirror = true ∧ value.toNat / 16 % 4 ≠ 2 ∧ s.slotDigest (value.toNat % 8) ≠ digest :=
  ⟨wPair wRun true 3, BitVec.ofNat 32 (0 % 8), true, 5, [1, 2], by decide⟩

theorem wit_PairLettersRolesAndLink_22 : ∃ (s : State) (i seq : Nat) (word : Word), i < 4 ∧ s.flag R.CARE_MBX_STAT_FULL (20 + i) = false ∧ ((s.care.inbound.find? (fun x => x.1 = 20 + i)).map (fun x => x.2.1) ≠ some (seq % 2)) :=
  ⟨{ (wPair wRun true 3).put R.CARE_MBX_STAT_FULL 0 (20 + 0 % 4) with care := { wRun.care with inbound := [(20, 0, 5)] } }, 0 % 4, 1, 77, by decide⟩

theorem wit_PairLettersRolesAndLink_23 : ∃ (s : State) (i seq q last : Nat) (word : Word), i < 4 ∧ (s.care.inbound.find? (fun x => x.1 = 20 + i) = some (20 + i, q, last)) ∧ q = seq % 2 :=
  ⟨{ (wPair wRun true 3) with care := { wRun.care with inbound := [(20 + 0 % 4, 1, 5)] } }, 0 % 4, 1, 1, 5, 77, by decide⟩

theorem wit_PairLettersRolesAndLink_24 : ∃ (s : State) (i seq ret : Nat) (word : Word), i < 4 ∧ s.flag R.CARE_MBX_STAT_FULL (16 + i) = true ∧ s.get R.CARE_MBX_STAT_SEQ (16 + i) = seq % 2 :=
  ⟨((wPair wRun true 3).put R.CARE_MBX_STAT_FULL 1 (16 + 0 % 4)).put R.CARE_MBX_STAT_SEQ 1 (16 + 0 % 4), 0 % 4, 1, 70000 + 0, 77, by decide⟩

theorem wit_PairLettersRolesAndLink_25 : ∃ (s : State) (e l : TEntry), s.teph.partner.getLast? = some l ∧ (e.seq + 2 ^ 32 - (l.seq + 1) % 2 ^ 32) % 2 ^ 32 < 2 ^ 31 ∧ s.teph.partner.length < 8192 :=
  ⟨{ wRun with teph := { wRun.teph with partner := [⟨0, 40, 0, 0, 0, false, false, true, 0, 0, 0, 0⟩] } }, ⟨0, 41 + 0 % 5, 0, 0, 0, false, false, false, 0, 0, 0, 0⟩, ⟨0, 40, 0, 0, 0, false, false, true, 0, 0, 0, 0⟩, by decide⟩

theorem wit_PairTakeoverMirroringAndDivergence_1 : ∃ (s : State) (cause : NoticeCause), s.mayTake = true ∧ s.pair.claim = none ∧ s.pair.panelFault = false ∧ s.rst.placeFail = false ∧ s.fitLanes = true :=
  ⟨wPair wRun true 3, .thermal, by decide⟩

theorem wit_PairTakeoverMirroringAndDivergence_2 : ∃ (s : State) (cause : NoticeCause), s.mayTake = true ∧ s.pair.claim = none ∧ s.pair.panelFault = false ∧ s.rst.placeFail = false ∧ s.fitLanes = false :=
  ⟨(wPair wRun true 3).put R.LANE_PANEL_FAILED 1, .thermal, by decide⟩

theorem wit_PairTakeoverMirroringAndDivergence_3 : ∃ (s : State) (cause : NoticeCause), s.mayTake = true ∧ (s.pair.panelFault = true ∨ s.rst.placeFail = true) :=
  ⟨(let x := wPair wRun true 3; { x with rst := { x.rst with placeFail := 0 % 2 = 0 }, pair := { x.pair with panelFault := 0 % 2 ≠ 0 } }), .thermal, by decide⟩

theorem wit_PairTakeoverMirroringAndDivergence_4 : ∃ (s : State) (cause : NoticeCause) (sf : Nat), s.isMirror = true ∧ s.pair.claim = none ∧ s.pair.panelFault = false ∧ s.rst.placeFail = false ∧ s.fitLanes = true :=
  ⟨wPair wRun true 3, (if 0 % 2 = 0 then .divergence else .handover), 100 + 0, by decide⟩

theorem wit_PairTakeoverMirroringAndDivergence_7 : ∃ (s : State), s.mayTake = true ∧ s.pair.claim = none ∧ s.pair.panelFault = false ∧ s.rst.placeFail = false ∧ s.fitLanes = true :=
  ⟨(wPair wRun (0 % 2 = 0) (if 0 % 2 = 0 then 3 else 5)).put R.RAIL_STAT_STATE (2 + 0 % 2), by decide⟩

theorem wit_PairTakeoverMirroringAndDivergence_8 : ∃ (s : State), s.mayTake = false :=
  ⟨wPair wRun true 2, by decide⟩

theorem wit_PairTakeoverMirroringAndDivergence_9 : ∃ (s : State) (d : DeltaMsg), s.isMirror = true :=
  ⟨(wPair wRun true 3).put R.LZC_CTRL (0 % 3), ⟨5, [], [], [], [], 0 % 2 = 0, false⟩, by decide⟩

theorem wit_PairTakeoverMirroringAndDivergence_10 : ∃ (s : State) (d : SnapshotMsg) (digest : List Byte), s.isMirror = true :=
  ⟨(let x := ((wPair wRun true 3).put R.PERS_STATE_ACTIVE_VALID 1).put R.PERS_STATE_ACTIVE_SLOT 2; { x with pers := { x.pers with digest := [(2, [4])] } }), ⟨[], [], [], [], []⟩, [BitVec.ofNat 8 (4 + 0 % 2)], by decide⟩

theorem wit_PairTakeoverMirroringAndDivergence_11 : ∃ (s : State) (sf : Nat) (sigs : List Nat) (excused : List Bool) (a : SigSet), s.inPair = true ∧ (s.pair.own.find? (fun x => x.sf = sf) = some a) ∧ s.pair.peer = [] :=
  ⟨{ wPair wRun true (2 + 0 % 2) with pair := { State.reset.pair with own := [⟨9, [1, 2], [false, false], [[3], [4]]⟩] } }, 9, [1, 2 + 0 % 3], [false, 0 % 4 = 0], ⟨9, [1, 2], [false, false], [[3], [4]]⟩, by decide⟩

theorem wit_PairTakeoverMirroringAndDivergence_12 : ∃ (s : State) (failed : List Nat), s.pair.testPending = true ∧ s.pair.peerKat = none :=
  ⟨{ wPair wRun true (2 + 0 % 2) with pair := { State.reset.pair with testPending := true, mapped := [3, 4, 5] } }, [4, 0], by decide⟩

theorem wit_PairTakeoverMirroringAndDivergence_13 : ∃ (s : State) (tested failed own : List Nat), s.inPair = true ∧ s.pair.ownKat = some (own, []) ∧ failed = [] :=
  ⟨{ wPair wRun true (2 + 0 % 2) with pair := { State.reset.pair with ownKat := some ([3, 4], []) } }, [5], [], [3, 4], by decide⟩

theorem wit_PairTakeoverMirroringAndDivergence_14 : ∃ (s : State) (tested failed : List Nat), s.inPair = true ∧ s.pair.ownKat = none :=
  ⟨wPair wRun true (2 + 0 % 2), [5], [5], by decide⟩

theorem wit_ArrayPortsAndTimeExchanges_1 : ∃ (s : State) (a x y letter serial : Nat) (valid : Bool), a < 4 ∧ s.portUp a = true :=
  ⟨wArray wRun (0 % 4), 0 % 4, 0, 3, 1, 2 ^ 41 + 0, 0 % 3 = 0, by decide⟩

theorem wit_ArrayPortsAndTimeExchanges_2 : ∃ (s : State) (a x y letter serial : Nat) (valid : Bool), s.portUp a = false :=
  ⟨(wArray wRun 1).put R.LANE_GRP_STAT_STAGE 3 (leadLane (23 + 0 % 4)), 0 % 4, 0, 3, 1, 5, true, by decide⟩

theorem wit_ArrayPortsAndTimeExchanges_3 : ∃ (s : State) (a src hops gm : Nat) (locked : Bool), a < 4 ∧ s.portUp a = true :=
  ⟨wArray wRun (0 % 4), 0 % 4, 1, 3 * 0, 9, 0 % 2 = 0, by decide⟩

theorem wit_ArrayPortsAndTimeExchanges_5 : ∃ (s : State) (a : Nat), a < 4 :=
  ⟨wRun, 0 % 4, by decide⟩

theorem wit_ArrayPortsAndTimeExchanges_6 : ∃ (s : State) (a : Nat), a < 4 ∧ s.portUp a = true :=
  ⟨wArray wRun 1, 0 % 4, by decide⟩

theorem wit_ArrayPortsAndTimeExchanges_8 : ∃ (s : State) (a id t1 : Nat) (i : TimeInfo), a < 4 ∧ s.portUp a = true :=
  ⟨wArray wRun (0 % 4), 0 % 4, 7 + 0, 500 + 0, ⟨3, true, false⟩, by decide⟩

theorem wit_ArrayPortsAndTimeExchanges_9 : ∃ (s : State) (a id t1 t2 t3 : Nat) (i : TimeInfo), a < 4 ∧ s.portUp a = true ∧ (s.port a).syncAt = some (id, t1) ∧ s.srcChosen ≠ 2 ∧ -(2 ^ 31) ≤ Int.fdiv (((t2 : Int) - t1) - ((s.now : Int) - t3)) 2 ∧ Int.fdiv (((t2 : Int) - t1) - ((s.now : Int) - t3)) 2 < 2 ^ 31 :=
  ⟨(let x := wArray wRun 1; { x with array := wPorts x.array 9 100, time := { x.time with raw := 1000, base := 65536000, rawBase := 1000 } }), 0 % 4, 9, 100, 640 + 7 * 0, 650 + 7 * 0, ⟨3, true, false⟩, by decide⟩

theorem wit_ArrayPortsAndTimeExchanges_10 : ∃ (s : State) (a id t2 t3 : Nat) (i : TimeInfo), a < 4 ∧ s.portUp a = true ∧ (s.port a).syncAt.map (·.1) ≠ some id :=
  ⟨(let x := wArray wRun 1; { x with array := wPorts x.array 9 100 }), 0 % 4, 10 + 0, 640, 650, ⟨3, true, false⟩, by decide⟩

theorem wit_ArrayPortsAndTimeExchanges_11 : ∃ (s : State) (a seq : Nat), a < 4 :=
  ⟨(let x := wArray wRun 1; x.setPort (0 % 4) { x.port (0 % 4) with unacked := [(4, .status 1 true 2 3), (5, .status 1 true 2 3)], resends := 3 }), 0 % 4, 3 + 0 % 3, by decide⟩

theorem wit_ArrayPortsAndTimeExchanges_12 : ∃ (s : State) (a : Nat), a < 4 ∧ s.portUp a = true ∧ (s.port a).unacked ≠ [] :=
  ⟨(let x := wArray wRun 1; x.setPort (0 % 4) { x.port (0 % 4) with unacked := [(4, .status 1 true 2 3), (5, .status 1 true 2 3)], resends := 5 + 0 % 5 }), 0 % 4, by decide⟩

theorem wit_ArrayPortsAndTimeExchanges_13 : ∃ (s : State) (id t1 : Nat) (i : TimeInfo), s.pairUp = true :=
  ⟨wPair wRun true 2, 0, 500 + 0, ⟨3, true, false⟩, by decide⟩

theorem wit_ArrayPortsAndTimeExchanges_14 : ∃ (s : State) (port : Nat) (v6 : Bool) (master : Nat) (ranking : List Nat), port = s.get R.TIME_PTP_PORT ∧ v6 = s.flag R.TIME_PTP_IPV6 ∧ s.time.ptp.masters = [] ∧ s.time.ptp.master = none :=
  ⟨wPtp (wArray wRun 1) 0, 0 % 2, 0 / 2 % 2 = 1, 9, [1, 2, 3, 4, 5, 77], by decide⟩

theorem wit_ArrayPortsAndTimeExchanges_15 : ∃ (s : State) (port : Nat) (v6 : Bool) (m : PtpMsg) (master d seq origin stamp : Nat), m = .sync master seq false origin stamp d ∧ (d ≠ s.get R.TIME_PTP_DOMAIN ∨ s.time.ptp.master ≠ some master) :=
  ⟨wArray wRun 1, 0 % 2, 0 % 3 = 0, .sync 5 6 false 7 8 0, 5, 0, 6, 7, 8, by decide⟩

theorem wit_ArrayPortsAndTimeExchanges_16 : ∃ (s : State) (port : Nat) (v6 : Bool) (m : PtpMsg), (port ≠ s.get R.TIME_PTP_PORT ∨ v6 ≠ s.flag R.TIME_PTP_IPV6) :=
  ⟨wPtp (wArray wRun 1) 0, 0, true, .announce 3 [1] 0, by decide⟩

theorem wit_ArrayPortsAndTimeExchanges_17 : ∃ (s : State) (port : Nat) (v6 : Bool) (master seq received x1 x2 x3 : Nat), port = s.get R.TIME_PTP_PORT ∧ v6 = s.flag R.TIME_PTP_IPV6 ∧ s.time.ptp.master = some master ∧ seq = s.time.ptp.delaySeq ∧ s.time.ptp.t1 = some x1 ∧ s.time.ptp.t2 = some x2 ∧ s.time.ptp.t3 = some x3 ∧ s.srcChosen ≠ 1 ∧ -(2 ^ 31) ≤ Int.fdiv (((x1 : Int) - x2) + ((received : Int) - x3)) 2 ∧ Int.fdiv (((x1 : Int) - x2) + ((received : Int) - x3)) 2 < 2 ^ 31 :=
  ⟨(let x := wPtp (wArray wRun 0) 0; { x with time := { x.time with ptp := ⟨some 5, [], some 100, some (150 + 0), some 200, some 3, 7, 0⟩ } }), 0 % 2, 0 / 2 % 2 = 1, 5, 7, 230 + 2 * 0, 100, 150 + 0, 200, by decide⟩

theorem wit_ArrayPortsAndTimeExchanges_18 : ∃ (s : State) (m : Nat), s.time.ptp.master = some m :=
  ⟨(let x := wArray wRun 0; { x with time := { x.time with ptp := ⟨some 5, [(5, [1]), (0 % 8, [2])], none, none, none, none, 7, 0⟩ } }), 5, by decide⟩

theorem wit_ArrayPortsAndTimeExchanges_19 : ∃ (s : State), s.get R.TIME_STAT_SRC_EFF ≠ 0 :=
  ⟨wRun.put R.TIME_STAT_SRC_EFF (1 + 0 % 4), by decide⟩

theorem wit_TimeStepsSlewsPulsesAndLaunches_1 : ∃ (s : State) (r : Req) (p : PendStep), r ≠ .partner ∧ s.time.pend = some p :=
  ⟨wPend wRun (if 0 % 2 = 0 then 123456789 * 0 else -987654321), .host, ⟨(if 0 % 2 = 0 then 123456789 * 0 else -987654321), 1⟩, by decide⟩

theorem wit_TimeStepsSlewsPulsesAndLaunches_2 : ∃ (s : State) (r : Req) (p : PendStep), r ≠ .partner ∧ s.time.pend = some p :=
  ⟨wPend wRun 55, .host, ⟨55, 1⟩, by decide⟩

theorem wit_TimeStepsSlewsPulsesAndLaunches_3 : ∃ (s : State) (r : Req) (p : PendStep), r ≠ .partner ∧ s.time.pend = some p :=
  ⟨(let x := wPend wRun (if 0 % 2 = 0 then 5500 else -5500); { x with time := { x.time with rate := if 0 % 3 = 0 then rateLimit - 5 else 77 } }), .host, ⟨(if 0 % 2 = 0 then 5500 else -5500), 1⟩, by decide⟩

theorem wit_TimeStepsSlewsPulsesAndLaunches_4 : ∃ (s : State) (r : Req) (key : Nat), (key ≠ 0x71AE ∨ r = .partner) :=
  ⟨wPend wRun 55, .host, 0, by decide⟩

theorem wit_TimeStepsSlewsPulsesAndLaunches_5 : ∃ (s : State), s.flag R.TIME_STAT_SLEWING = true :=
  ⟨(let x := wRun.put R.TIME_STAT_SLEWING 1; { x with time := { x.time with slew := 777777, rate := 5 } }), by decide⟩

theorem wit_TimeStepsSlewsPulsesAndLaunches_7 : ∃ (s : State), (s.time.ppsInLast = none ∨ (s.time.ppsInLast.getD 0) + 100000000 < s.time.raw) :=
  ⟨{ wRun with time := { wRun.time with raw := 300000000, ppsInLast := if 0 % 2 = 0 then none else some 0 } }, by decide⟩

theorem wit_TimeStepsSlewsPulsesAndLaunches_8 : ∃ (s : State) (x : Nat), s.time.ppsInLast = some x ∧ s.time.raw ≤ x + 100000000 :=
  ⟨{ wRun with time := { wRun.time with ppsInLast := some (wRun.time.raw - 100000000 + 0) } }, (let s : State := { wRun with time := { wRun.time with ppsInLast := some (wRun.time.raw - 100000000 + 0) } }; s.time.raw - 100000000 + 0), by decide⟩

theorem wit_TimeStepsSlewsPulsesAndLaunches_9 : ∃ (s : State) (r : Req) (short : Nat), s.isMirror = false :=
  ⟨(let x := wArray wRun 1; { x with time := { x.time with raw := 5, rawBase := 5, base := 65536 * 1000, launches := (List.range (0 % 10)).map (fun i => 2000 + 10 * i) } }), .host, 1995 + 5 * (0 % 7), by decide⟩

theorem wit_TimeStepsSlewsPulsesAndLaunches_10 : ∃ (s : State) (r : Req) (short : Nat), s.isMirror = true :=
  ⟨wPair wRun true 3, .host, 0, by decide⟩

theorem wit_TimeStepsSlewsPulsesAndLaunches_11 : ∃ (s : State) (r : Req) (data : Nat), s.isMirror = false :=
  ⟨(let x := wArray wRun 1; { x with time := { x.time with launches := [1, 2] } }), .host, 0, by decide⟩

theorem wit_TimeStepsSlewsPulsesAndLaunches_12 : ∃ (s : State) (table : Int), -32000 ≤ s.getI R.THM_TCXO ∧ s.getI R.THM_TCXO ≤ 32000 :=
  ⟨wRun.putI R.THM_TCXO (3 * 0 - 20), (0 : Int) * 2 - 9, by decide⟩

theorem wit_ThermalControlAndCalibration_2 : ∃ (s : State) (l : List (Option (Nat × Int))) (n raw : Nat) (x : Int), n < 64 ∧ l.getD n none = some (raw, x) ∧ -550 ≤ x ∧ x ≤ 1750 :=
  ⟨wThm wRun, wSamples 0, 0 + 7, (0 + 7) * 3 % 50, ((900 + 40 * (0 % 15) + (0 + 7) % 7 : Nat) : Int), by decide⟩

theorem wit_ThermalControlAndCalibration_3 : ∃ (s : State) (n : Nat) (reading : Int), n < 64 ∧ s.flag R.THM_SENS_BROKEN n = false ∧ s.flag R.THM_STAT_CUT = false :=
  ⟨(wThm wRun).put R.RAIL_STAT_STATE 2, 0, 1550, by decide⟩

theorem wit_ThermalControlAndCalibration_4 : ∃ (s : State) (n : Nat) (reading : Int), n < 64 ∧ (s.flag R.THM_SENS_BROKEN n = true ∨ s.flag R.THM_STAT_CUT = true) :=
  ⟨(wThm wRun).put R.THM_SENS_BROKEN 1 0, 0, 1550, by decide⟩

theorem wit_ThermalControlAndCalibration_5 : ∃ (s : State), s.thm.step = 4 ∧ s.thm.allowed = false ∧ s.thm.coolSince.isSome = true ∧ s.rst.hold = .run :=
  ⟨{ (wThm wRun).put R.THM_CTRL (0 % 2) with thm := { State.reset.thm with step := 4, coolSince := some 5 }, rst := { wRun.rst with hold := .run } }, by decide⟩

theorem wit_ThermalControlAndCalibration_6 : ∃ (s : State) (r : Req) (n : Nat), r ≠ .partner ∧ n < 70 :=
  ⟨wRun, .host, 0, by decide⟩

theorem wit_ThermalControlAndCalibration_7 : ∃ (s : State) (r : Req) (key n : Nat), (key ≠ 0x7E4A ∨ r = .partner) :=
  ⟨wRun, .host, 0, 5, by decide⟩

theorem wit_ThermalControlAndCalibration_9 : ∃ (s : State) (r : Req) (mask i : Nat), r ≠ .partner ∧ i < 4 ∧ mask.testBit i = true ∧ (s.get R.CAL_STAT_RUNNING).testBit i = false :=
  ⟨(wRun.put R.CAL_STAT_RUNNING (15 - 2 ^ (0 % 4))).put R.PAIR_STAT_DRIVE (0 % 2) |>.put R.RAIL_STAT_STATE 2, .host, 2 ^ (0 % 4) ||| 8, 0 % 4, by decide⟩

theorem wit_ThermalControlAndCalibration_10 : ∃ (s : State) (i : Nat), i < 4 ∧ (s.get R.CAL_CTRL_EN).testBit i = true ∧ (s.calMoved i = true ∨ s.calPeriod i = true) :=
  ⟨{ (wRun.put R.CAL_CTRL_EN 15).put R.CAL_CTRL_PERIOD 1 with time := { wRun.time with raw := 70000000000 } }, 0 % 4, by decide⟩

theorem wit_ThermalControlAndCalibration_11 : ∃ (s : State) (i : Nat), i < 4 ∧ s.calOver i = true ∧ s.thm.cal.length = 4 ∧ s.thm.calCmd = 0 :=
  ⟨{ wRun.put R.CAL_STAT_RUNNING 12 with thm := State.reset.thm }, 2 + 38 % 2, by decide⟩

theorem wit_ThermalControlAndCalibration_12 : ∃ (s : State) (i : Nat), i < 4 ∧ (s.get R.CAL_STAT_RUNNING).testBit i = true ∧ s.thm.cal.length = 4 ∧ s.thm.calCmd = 0 :=
  ⟨{ wRun.put R.CAL_STAT_RUNNING 15 with thm := { State.reset.thm with cal := List.replicate 4 ⟨some 5, none, 7⟩ } }, 0 % 4, by decide⟩

theorem wit_RecorderWritesFreezesAndSaves_1 : ∃ (s : State) (o : Offer) (rest : List Offer), s.teph.queue = o :: rest ∧ s.flag R.TEPH_STAT_FROZEN = false ∧ s.teph.ring.length < 8192 ∧ s.teph.post = none :=
  ⟨((wRec wRun [wOffer 0 (0 % 4), wOffer 9 0]).put R.TEPH_FREEZE_CTRL_SEV_EN 1).put R.TEPH_FREEZE_POST (0 % 3), wOffer 0 (0 % 4), [wOffer 9 0], by decide⟩

theorem wit_RecorderWritesFreezesAndSaves_2 : ∃ (s : State) (o : Offer) (rest : List Offer) (n : Nat), s.teph.queue = o :: rest ∧ s.flag R.TEPH_STAT_FROZEN = false ∧ s.teph.post = some n :=
  ⟨(let x := wRec wRun [wOffer 0 1]; { x with teph := { x.teph with post := some (0 % 3) } }), wOffer 0 1, [], 0 % 3, by decide⟩

theorem wit_RecorderWritesFreezesAndSaves_3 : ∃ (s : State) (o : Offer) (rest : List Offer), s.teph.queue = o :: rest ∧ s.flag R.TEPH_STAT_FROZEN = true :=
  ⟨(wRec wRun [wOffer 0 1]).put R.TEPH_STAT_FROZEN 1, wOffer 0 1, [], by decide⟩

theorem wit_RecorderWritesFreezesAndSaves_4 : ∃ (s : State), s.teph.lostPending ≠ 0 ∧ s.teph.queue.length < 64 ∧ s.flag R.TEPH_STAT_FROZEN = false :=
  ⟨(let x := wRec wRun [wOffer 0 1]; { x with teph := { x.teph with lostPending := 1 + 0, lostAfter := 70 } }), by decide⟩

theorem wit_RecorderWritesFreezesAndSaves_5 : ∃ (s : State) (r : Req), r ≠ .partner ∧ s.teph.queue.length < 64 ∧ s.flag R.TEPH_STAT_FROZEN = false :=
  ⟨wRec wRun [wOffer 0 1], .host, by decide⟩

theorem wit_RecorderWritesFreezesAndSaves_6 : ∃ (s : State) (r : Req), r ≠ .partner :=
  ⟨wRun, .host, by decide⟩

theorem wit_RecorderWritesFreezesAndSaves_7 : ∃ (s : State) (r : Req), r ≠ .partner :=
  ⟨wRun, .host, by decide⟩

theorem wit_RecorderWritesFreezesAndSaves_8 : ∃ (s : State) (r : Req) (key : Nat), (key ≠ 0x7E9A ∨ r = .partner) :=
  ⟨wRun, .host, 0, by decide⟩

theorem wit_RecorderWritesFreezesAndSaves_9 : ∃ (s : State) (cause : Nat), s.teph.saveDue = some cause ∧ s.rst.pfHeld = [] :=
  ⟨(let x := wRec wRun [wOffer 0 1]; { x with teph := { x.teph with saveDue := some 2, ring := [⟨3, ⟨0, 41, 0, 0, 0, false, false, false, 0, 0, 0, 0⟩⟩] }, nv := { x.nv with saveA := if 0 % 2 = 0 then none else some ⟨1, 2, 3, [], true, 5⟩ }, rst := { x.rst with pfHeld := [] } }), 2, by decide⟩

theorem wit_RecorderWritesFreezesAndSaves_10 : ∃ (s : State), s.teph.saveDue = none :=
  ⟨wRun, by decide⟩

theorem wit_RecorderWritesFreezesAndSaves_14 : ∃ (s : State), s.pins.pwrFail = true :=
  ⟨{ wRun with pins := { wRun.pins with pwrFail := true } }, by decide⟩

theorem wit_RecorderWritesFreezesAndSaves_15 : ∃ (s : State), s.pins.pwrFail = false :=
  ⟨{ wRun with pins := { wRun.pins with pwrFail := false } }, by decide⟩

theorem wit_BuffersRegisterAndTheGuardHolds_1 : ∃ (s : State) (r : Req) (b data : Nat), let code := (s.put R.COMP_BUF_FMT_VALID 0 b).bufCheck b (data % 2)
    b < 16 ∧ s.isMirror = false ∧ s.isActive = false ∧ (s.get R.COMP_BUF_STAT_STATE b ≠ 1 ∧ s.get R.COMP_BUF_STAT_STATE b ≠ 2) ∧ data.testBit 31 = true :=
  ⟨((wRun.put R.PAIR_STAT_STATE 4).put R.COMP_BUF_STAT_STATE (3 * (0 % 2)) 3).put R.COMP_BUF_PITCH (if 0 % 3 = 0 then 4096 else 0) 3 |>.put R.COMP_BUF_SIZE_W 1024 3 |>.put R.COMP_BUF_SIZE_H 64 3 |>.put R.COMP_BUF_BASE (if 0 % 3 = 0 then 4096 else 0) 3 |>.put R.MEM_HOST 16384 |>.put R.MEM_REGION_ATTR 0x3F07 0 |>.put R.MEM_REGION_BASE 0 0 |>.put R.MEM_REGION_LIMIT 99999 0, .host, 3, 2 ^ 31, by decide⟩

theorem wit_BuffersRegisterAndTheGuardHolds_2 : ∃ (s : State) (r : Req) (b data : Nat), b < 16 ∧ s.isMirror = false ∧ s.isActive = false ∧ (s.get R.COMP_BUF_STAT_STATE b = 1 ∨ s.get R.COMP_BUF_STAT_STATE b = 2) :=
  ⟨(wRun.put R.PAIR_STAT_STATE 4).put R.COMP_BUF_STAT_STATE (1 + 0 % 2) 3, .host, 3, 2 ^ 31 + 0 % 2, by decide⟩

theorem wit_BuffersRegisterAndTheGuardHolds_3 : ∃ (s : State) (blt : Bool) (a : Nat) (bytes : List Byte), s.buffersOf a bytes.length = [] ∧ ((if blt then s.comp.heldBlt else s.comp.heldHost) = []) :=
  ⟨{ (List.range 16).foldl (fun t b => t.put R.COMP_BUF_FMT 0 b) wRun with comp := { wRun.comp with heldBlt := [], heldHost := [] } }, 0 % 2 = 0, 0 * 100, [1, 0, 255], by decide⟩

theorem wit_BuffersRegisterAndTheGuardHolds_4 : ∃ (s : State) (blt : Bool) (a b : Nat) (bytes : List Byte), s.isMirror = false ∧ b ∈ s.buffersOf a bytes.length ∧ s.get R.COMP_BUF_STAT_STATE b = 2 ∧ 2 ≤ s.get R.COMP_CTRL_GUARD ∧ ((if blt then s.comp.heldBlt else s.comp.heldHost) = []) :=
  ⟨{ ((((((List.range 16).foldl (fun t b => t.put R.COMP_BUF_FMT 0 b) wRun).put R.PAIR_STAT_STATE 4).put R.COMP_BUF_FMT (2 ^ 31) 2).put R.COMP_BUF_STAT_STATE 2 2).put R.COMP_BUF_BASE 4096 2 |>.put R.COMP_BUF_PITCH 4096 2 |>.put R.COMP_BUF_SIZE_W 1024 2 |>.put R.COMP_BUF_SIZE_H 64 2 |>.put R.COMP_CTRL_GUARD 2) with comp := { wRun.comp with heldBlt := [], heldHost := [] } }, 0 % 2 = 0, 8000 + 0, 2, [1, 2, 3], by decide⟩

theorem wit_BuffersRegisterAndTheGuardHolds_5 : ∃ (s : State) (blt : Bool) (a : Nat) (bytes : List Byte), (s.isMirror = false ∨ s.buffersOf a bytes.length = []) ∧ ((if blt then s.comp.heldBlt else s.comp.heldHost) ≠ []) :=
  ⟨{ wRun.put R.PAIR_STAT_STATE 4 with comp := { wRun.comp with heldBlt := [⟨.bytes 1 [2], 3, true⟩], heldHost := [⟨.reg 8 4 (some 5), 3, false⟩] } }, 0 % 2 = 0, 8000 + 0, [1, 2, 3], by decide⟩

theorem wit_BuffersRegisterAndTheGuardHolds_6 : ∃ (s : State) (blt : Bool) (a : Nat) (bytes : List Byte), s.isMirror = true ∧ s.buffersOf a bytes.length ≠ [] :=
  ⟨((((List.range 16).foldl (fun t b => t.put R.COMP_BUF_FMT 0 b) wRun).put R.PAIR_STAT_STATE 3).put R.COMP_BUF_FMT (2 ^ 31) 2).put R.COMP_BUF_STAT_STATE 2 2 |>.put R.COMP_BUF_BASE 4096 2 |>.put R.COMP_BUF_PITCH 4096 2 |>.put R.COMP_BUF_SIZE_W 1024 2 |>.put R.COMP_BUF_SIZE_H 64 2, 0 % 2 = 0, 8000 + 0, [1, 2, 3], by decide⟩

theorem wit_BuffersRegisterAndTheGuardHolds_7 : ∃ (s : State) (a n : Nat) (bytes : List Byte) (met : Bool), s.comp.heldHost = [⟨.bytes a bytes, n, met⟩] ∧ s.comp.heldBlt = [] ∧ ((s.buffersOf a bytes.length).all (fun b => !s.holds b) = true) :=
  ⟨{ wRun.put R.COMP_CTRL_GUARD 1 with comp := { wRun.comp with heldHost := [⟨.bytes 4096 [7, 8], 9, 0 % 2 = 0⟩], heldBlt := [] } }, 4096, 9, [7, 8], 0 % 2 = 0, by decide⟩

theorem wit_BuffersRegisterAndTheGuardHolds_8 : ∃ (s : State) (a n : Nat) (bytes : List Byte) (met : Bool), s.comp.heldHost = [⟨.bytes a bytes, n, met⟩] ∧ s.comp.heldBlt = [] ∧ ((s.buffersOf a bytes.length).any (fun b => s.holds b) = true) :=
  ⟨{ ((((((List.range 16).foldl (fun t b => t.put R.COMP_BUF_FMT 0 b) wRun).put R.PAIR_STAT_STATE 4).put R.COMP_BUF_FMT (2 ^ 31) 2).put R.COMP_BUF_STAT_STATE 2 2).put R.COMP_BUF_BASE 4096 2 |>.put R.COMP_BUF_PITCH 4096 2 |>.put R.COMP_BUF_SIZE_W 1024 2 |>.put R.COMP_BUF_SIZE_H 64 2 |>.put R.COMP_CTRL_GUARD 2) with comp := { wRun.comp with heldBlt := [], heldHost := [⟨.bytes (8000 + 0) [1, 2, 3], 9, 0 % 2 = 0⟩] } }, 8000 + 0, 9, [1, 2, 3], 0 % 2 = 0, by decide⟩

theorem wit_BuffersRegisterAndTheGuardHolds_9 : ∃ (s : State) (a n : Nat) (bytes : List Byte), s.comp.heldHost = [⟨.bytes a bytes, n, true⟩] ∧ s.comp.heldBlt = [] ∧ n + s.framePeriod ≤ s.time.raw :=
  ⟨{ wRun.put R.COMP_CTRL_GUARD 2 with time := { wRun.time with raw := 10 ^ 13 }, comp := { wRun.comp with heldHost := [⟨.bytes 4096 [7, 8], 9, true⟩], heldBlt := [] } }, 4096, 9, [7, 8], by decide⟩

theorem wit_SinterGroupsFlatten_1 : ∃ (s : State) (region k0 k1 : Nat), s.flag R.COMP_CTRL_SINTER_EN = true ∧ s.get R.COMP_SINTER_CAP ≠ 0 ∧ s.isMirror = false ∧ s.get R.LZC_CTRL ≠ 0 ∧ s.candidate region k0 k1 = true :=
  ⟨{ (((State.reset.put R.COMP_CTRL_SINTER_EN 1).put R.COMP_SINTER_CAP 3).put R.PAIR_STAT_STATE 4).put R.LZC_CTRL 1 |>.put R.VIEW_DEPTH_COUNT 1 |>.put R.VIEW_MODE_EFF_MODE 14 with comp := { wRun.comp with groups := [], caldera := [(0, ⟨true, 5, 0, 0xFFFF, 0, 0, true, false, 0, 0⟩)] } }, 0, 0, 0, by decide⟩

theorem wit_SinterGroupsFlatten_2 : ∃ (s : State) (ref : Nat) (g : SinterGroup), (s.comp.groups.find? (fun g => g.ref = ref && !g.flattened) = some g) :=
  ⟨{ wRun with comp := { wRun.comp with groups := [⟨7, 3, 0, 1, false, false, false, false, 0, [], 0⟩, ⟨8, 3, 2, 3, false, true, false, false, 0, [], 0⟩] } }, 7, ⟨7, 3, 0, 1, false, false, false, false, 0, [], 0⟩, by decide⟩

theorem wit_SinterGroupsFlatten_3 : ∃ (s : State) (ref : Nat) (g : SinterGroup), (s.comp.groups.find? (fun g => g.ref = ref && !g.flattened) = some g) ∧ g.stale = true :=
  ⟨{ wRun with comp := { wRun.comp with groups := [⟨7, 3, 0, 1, false, false, false, true, 0, [], 0⟩, ⟨8, 3, 2, 3, false, true, false, false, 0, [], 0⟩] } }, 7, ⟨7, 3, 0, 1, false, false, false, true, 0, [], 0⟩, by decide⟩

theorem wit_SinterGroupsFlatten_4 : ∃ (s : State) (ref : Nat) (g : SinterGroup), s.comp.groups = [g] ∧ g.ref = ref ∧ g.flattened = false ∧ g.stale = false :=
  ⟨{ ((State.reset.put R.COMP_SINTER_CAP 9).put R.VIEW_DEPTH_COUNT 1 |>.put R.VIEW_MODE_EFF_MODE 14) with comp := { wRun.comp with used := [], groups := [⟨7, 0, 0, 0, false, false, false, false, 0, [], 0⟩] } }, 7, ⟨7, 0, 0, 0, false, false, false, false, 0, [], 0⟩, by decide⟩

theorem wit_RegionSignaturesAndTheSafeImage_1 : ∃ (s : State) (r : Nat), let learning := s.comp.learn.testBit r
    let same := decide (s.regionSig r = s.get R.COMP_SIG_EXPECT r)
    r < 16 ∧ s.flag R.COMP_SIG_CFG_EN r = true ∧ s.flag R.COMP_SIG_STAT_BAD r = false ∧ s.comp.checked.contains r = false ∧ s.intk.outcome = 0 ∧ s.flag R.COMP_SAFE_STAT_ACTIVE = false ∧ s.renderPhase (s.get R.COMP_SIG_CFG_PHASE r) = s.get R.COMP_SIG_CFG_PHASE r ∧ s.comp.sigRun.length = 16 :=
  ⟨{ (((wRun.put R.COMP_SIG_CFG_EN 1 (0 % 16)).put R.COMP_SIG_STAT_BAD 0 (0 % 16)).put R.COMP_SAFE_STAT_ACTIVE 0).put R.COMP_SIG_CFG_PHASE (wRun.renderPhase 0) (0 % 16) |>.put R.COMP_SIG_EXPECT (if 0 % 3 = 0 then 0 else 0) (0 % 16) with intk := { wRun.intk with outcome := 0 }, comp := { wRun.comp with sigRun := List.replicate 16 1, checked := [20], learn := if 0 % 3 = 1 then 0xFFFF else 0 } }, 0 % 16, by decide⟩

theorem wit_RegionSignaturesAndTheSafeImage_2 : ∃ (s : State) (r : Nat), r < 16 ∧ s.flag R.COMP_SIG_CFG_EN r = true ∧ s.flag R.COMP_SIG_STAT_BAD r = false ∧ s.comp.checked.contains r = false ∧ (s.intk.outcome ≠ 0 ∨ s.flag R.COMP_SAFE_STAT_ACTIVE = true) :=
  ⟨{ ((wRun.put R.COMP_SIG_CFG_EN 1 (0 % 16)).put R.COMP_SIG_STAT_BAD 0 (0 % 16)).put R.COMP_SAFE_STAT_ACTIVE 1 with comp := { wRun.comp with checked := [] } }, 0 % 16, by decide⟩

theorem wit_RegionSignaturesAndTheSafeImage_3 : ∃ (s : State) (r : Nat), s.comp.checked.contains r = true :=
  ⟨{ wRun with comp := { wRun.comp with checked := [0 % 16] } }, 0 % 16, by decide⟩

theorem wit_RegionSignaturesAndTheSafeImage_4 : ∃ (s : State) (r : Req) (i : Nat), i < 16 ∧ (s.isMirror = false ∧ s.isActive = false) :=
  ⟨wRun.put R.PAIR_STAT_STATE 4, .host, 0 % 16, by decide⟩

theorem wit_RegionSignaturesAndTheSafeImage_5 : ∃ (s : State) (r : Req), (s.isMirror = false ∧ s.isActive = false) :=
  ⟨wRun.put R.PAIR_STAT_STATE 4, .host, by decide⟩

theorem wit_RegionSignaturesAndTheSafeImage_6 : ∃ (s : State) (r : Req), (s.isMirror = false ∧ s.isActive = false) :=
  ⟨wRun.put R.PAIR_STAT_STATE 4, .host, by decide⟩

theorem wit_RegionSignaturesAndTheSafeImage_7 : ∃ (s : State), s.comp.coreExit.isSome = true ∧ s.flag R.COMP_STAT_READY = false :=
  ⟨{ wRun.put R.COMP_STAT_READY 0 with comp := { wRun.comp with coreExit := some 4 } }, by decide⟩

theorem wit_HostPortResetsAndBar2_3 : ∃ (s : State) (gen width : Nat), (1 ≤ gen ∧ gen ≤ 5) ∧ (width = 1 ∨ width = 2 ∨ width = 4 ∨ width = 8) :=
  ⟨wRun, 1 + 0 % 5, 2 ^ (0 % 4), by decide⟩

theorem wit_HostPortResetsAndBar2_4 : ∃ (s : State) (off len : Nat) (d : List Byte), let a := s.get R.HOST_BAR2_BASE * 2 ^ 21 + off
    d ≠ [] ∧ off + d.length ≤ 2 ^ 28 ∧ s.bootWindow = false ∧ s.memOpen = true ∧ s.bar2Cause true a d.length = 0 ∧ s.buffersOf a d.length = [] ∧ s.comp.heldHost = [] ∧ s.frozenAt a = false :=
  ⟨{ (((((List.range 16).foldl (fun t b => t.put R.COMP_BUF_FMT 0 b) wRun).put R.MEM_HOST 16384).put R.MEM_MAP 255).put R.MEM_REGION_ATTR 0x3F07 0 |>.put R.MEM_REGION_BASE 0 0 |>.put R.MEM_REGION_LIMIT 0xFFFFF 0 |>.put R.MEM_C_STAT_STATE 2 0 |>.put R.HOST_BAR2_BASE (0 % 3) |>.put R.MEM_FREQ_BUSY 0) with comp := { wRun.comp with heldHost := [] }, rst := { wRun.rst with hostBootWait := false }, mem := { wRun.mem with ready := true, selfRefresh := false } }, 100 + 0, 3, [1, 2, 3], by decide⟩

theorem wit_HostPortResetsAndBar2_5 : ∃ (s : State) (off len : Nat), let a := s.get R.HOST_BAR2_BASE * 2 ^ 21 + off
    len ≠ 0 ∧ off + len ≤ 2 ^ 28 ∧ s.bootWindow = false ∧ (s.comp.heldHost = [] ∧ s.memOpen = true) ∧ s.bar2Cause false a len = 0 ∧ s.frozenAt a = false :=
  ⟨{ ((((List.range 16).foldl (fun t b => t.put R.COMP_BUF_FMT 0 b) wRun).put R.MEM_HOST 16384).put R.MEM_MAP 255).put R.MEM_REGION_ATTR 0x3F07 0 |>.put R.MEM_REGION_BASE 0 0 |>.put R.MEM_REGION_LIMIT 0xFFFFF 0 |>.put R.MEM_C_STAT_STATE 2 0 |>.put R.HOST_BAR2_BASE (0 % 3) |>.put R.MEM_FREQ_BUSY 0 with comp := { wRun.comp with heldHost := [] }, rst := { wRun.rst with hostBootWait := false }, dram := [(4, 7), (101, 9)], mem := { wRun.mem with ready := true, selfRefresh := false } }, 100 + 0, 3, by decide⟩

theorem wit_HostPortResetsAndBar2_6 : ∃ (s : State) (off len cause : Nat) (data : Option (List Byte)) (ecc : EccOutcome), let n := match data with | some d => d.length | none => len
    n ≠ 0 ∧ off + n ≤ 2 ^ 28 ∧ s.bootWindow = false ∧ (s.comp.heldHost = [] ∧ s.memOpen = true) ∧ s.bar2Cause data.isSome (s.get R.HOST_BAR2_BASE * 2 ^ 21 + off) n = cause ∧ cause ≠ 0 :=
  ⟨{ ((List.range 64).foldl (fun t e => t.put R.MEM_REGION_ATTR 0 e) wRun).put R.MEM_HOST (if 0 % 2 = 0 then 0 else 16384) |>.put R.MEM_FREQ_BUSY 0 with comp := { wRun.comp with heldHost := [] }, rst := { wRun.rst with hostBootWait := false }, mem := { wRun.mem with ready := true, selfRefresh := false } }, 100 + 0, 3, (let s : State := { ((List.range 64).foldl (fun t e => t.put R.MEM_REGION_ATTR 0 e) wRun).put R.MEM_HOST (if 0 % 2 = 0 then 0 else 16384) |>.put R.MEM_FREQ_BUSY 0 with comp := { wRun.comp with heldHost := [] }, rst := { wRun.rst with hostBootWait := false }, mem := { wRun.mem with ready := true, selfRefresh := false } }; s.bar2Cause (0 % 3 = 0) (s.get R.HOST_BAR2_BASE * 2 ^ 21 + (100 + 0)) (if 0 % 3 = 0 then 2 else 3)), (if 0 % 3 = 0 then some [1, 2] else none), .single, by decide⟩

theorem wit_HostPortResetsAndBar2_7 : ∃ (s : State) (off len : Nat) (d : List Byte) (ecc : EccOutcome), s.bootWindow = true ∧ s.comp.heldHost = [] ∧ d ≠ [] ∧ off + d.length ≤ 8388608 :=
  ⟨{ wRun with rst := { wRun.rst with hostBootWait := true, hold := .run, bootSram := [(3, 4), (102, 8)] }, comp := { wRun.comp with heldHost := [] } }, 100, 0, [0, 5, 6], .clean, by decide⟩

theorem wit_HostPortResetsAndBar2_8 : ∃ (s : State) (off len : Nat) (data : Option (List Byte)) (ecc : EccOutcome), (s.comp.heldHost ≠ [] ∨ (s.memOpen = false ∧ s.bootWindow = false)) :=
  ⟨if 0 % 2 = 0 then { wRun with comp := { wRun.comp with heldHost := [⟨.bytes 5 [1], 3, true⟩] } } else { wRun with comp := { wRun.comp with heldHost := [] }, rst := { wRun.rst with hostBootWait := false }, mem := { wRun.mem with selfRefresh := true } }, 100 + 0, 3, (if 0 % 3 = 0 then some [1, 2] else none), .single, by decide⟩

theorem wit_EthernetPortsCountDropAndTrain_1 : ∃ (s : State) (p : Nat) (f : EthFrame), s.portExists p = true ∧ (s.host.cages.contains (p / 4) = false ∧ s.powerDown = false) ∧ f.fcsOk = false :=
  ⟨{ wPow ((wRun.put R.ETH_CAGE_CTRL 1 0).put R.ETH_CAGE_CTRL 0 1) with host := { wRun.host with cages := [] } }, 0 % 5, ⟨false, false, 64, 0, .care .silent⟩, by decide⟩

theorem wit_EthernetPortsCountDropAndTrain_2 : ∃ (s : State) (p : Nat) (f : EthFrame), s.portExists p = true ∧ (s.host.cages.contains (p / 4) = false ∧ s.powerDown = false) ∧ f.fcsOk = true ∧ (f.pause = true ∨ 9216 < f.len ∨ f.vlan ≠ s.get R.ETH_PORT_CFG_VLAN p ∨ f.kind = .other) :=
  ⟨{ wPow ((wRun.put R.ETH_CAGE_CTRL 1 0).put R.ETH_CAGE_CTRL 0 1) with host := { wRun.host with cages := [] } }, 0 % 5, ⟨true, 0 % 3 = 0, (if 0 % 3 = 1 then 9217 else 64), 0, if 0 % 3 = 2 then .other else .care .silent⟩, by decide⟩

theorem wit_EthernetPortsCountDropAndTrain_3 : ∃ (s : State) (p len a : Nat), s.portExists p = true ∧ (s.host.cages.contains (p / 4) = false ∧ s.powerDown = false) ∧ len ≤ 9216 ∧ a ≠ 0 :=
  ⟨{ wPow ((wRun.put R.ETH_CAGE_CTRL 1 0).put R.ETH_CAGE_CTRL 0 1) with host := { wRun.host with cages := [] } }, 0 % 5, 9216, (let s : State := { wPow ((wRun.put R.ETH_CAGE_CTRL 1 0).put R.ETH_CAGE_CTRL 0 1) with host := { wRun.host with cages := [] } }; (if 0 % 2 = 0 then 77 else max 1 (s.ipv4 (0 % 5)))), by decide⟩

theorem wit_EthernetPortsCountDropAndTrain_4 : ∃ (s : State) (p len w : Nat), s.portExists p = true ∧ (s.host.cages.contains (p / 4) = false ∧ s.powerDown = false) ∧ len ≤ 9216 :=
  ⟨{ wPow ((wRun.put R.ETH_CAGE_CTRL 1 0).put R.ETH_CAGE_CTRL 0 1) with host := { wRun.host with cages := [] } }, 0 % 5, 64, 4 + 2 * (0 % 2), by decide⟩

theorem wit_EthernetPortsCountDropAndTrain_5 : ∃ (s : State) (p len : Nat) (a : List Nat), s.portExists p = true ∧ (s.host.cages.contains (p / 4) = false ∧ s.powerDown = false) ∧ len ≤ 9216 :=
  ⟨{ wPow ((wRun.put R.ETH_CAGE_CTRL 1 0).put R.ETH_CAGE_CTRL 0 1) with host := { wRun.host with cages := [] } }, 0 % 5, 64, (let s : State := { wPow ((wRun.put R.ETH_CAGE_CTRL 1 0).put R.ETH_CAGE_CTRL 0 1) with host := { wRun.host with cages := [] } }; (if 0 % 2 = 0 then [1, 2, 3, 4] else (s.ipv6 (0 % 5)).headD [])), by decide⟩

theorem wit_EthernetPortsCountDropAndTrain_6 : ∃ (s : State) (p len x : Nat), s.portExists p = true ∧ (s.host.cages.contains (p / 4) = false ∧ s.powerDown = false) ∧ len ≤ 9216 :=
  ⟨{ wPow ((wRun.put R.ETH_CAGE_CTRL 1 0).put R.ETH_CAGE_CTRL 0 1) with host := { wRun.host with cages := [] } }, 0 % 5, 64, 2 ^ 61 + 0 * 77777777777, by decide⟩

theorem wit_EthernetPortsCountDropAndTrain_7 : ∃ (s : State) (p len w : Nat), s.portExists p = true ∧ (s.host.cages.contains (p / 4) = false ∧ s.powerDown = false) ∧ len ≤ 9216 :=
  ⟨{ wPow ((wRun.put R.ETH_CAGE_CTRL 1 0).put R.ETH_CAGE_CTRL 0 1) with host := { wRun.host with cages := [] } }, 0 % 5, 64, 4 + 2 * (0 % 2), by decide⟩

theorem wit_EthernetPortsCountDropAndTrain_8 : ∃ (s : State) (c p : Nat), s.host.cages = [c] ∧ p / 4 = c ∧ (s.portExists p = true ∧ s.powerDown = false) ∧ s.flag R.ETH_CAGE_STAT_POWER_DENIED c = false :=
  ⟨{ wPow ((((wRun.put R.ETH_CAGE_STAT 0 0).put R.ETH_CAGE_STAT 0 1).put R.ETH_CAGE_CTRL 1 0).put R.ETH_CAGE_CTRL 2 1) with host := { wRun.host with cages := [0 % 2] } }, 0 % 2, 4 * (0 % 2) + 0 % 4, by decide⟩

theorem wit_EthernetPortsCountDropAndTrain_9 : ∃ (s : State) (c cls mw : Nat), c < 2 :=
  ⟨wRun, 0 % 2, 0 % 9, 0 * 400, by decide⟩

theorem wit_EthernetPortsCountDropAndTrain_10 : ∃ (s : State) (c : Nat), c < 2 :=
  ⟨wRun, 0 % 2, by decide⟩

theorem wit_EthernetPortsCountDropAndTrain_11 : ∃ (s : State) (p : Nat), p < 8 ∧ s.flag R.ETH_PORT_STAT_LINK p = true :=
  ⟨wRun.put R.ETH_PORT_STAT_LINK 1 (0 % 8), 0 % 8, by decide⟩

theorem wit_EthernetPortsCountDropAndTrain_12 : ∃ (s : State) (p a : Nat), p < 8 ∧ s.flag R.ETH_PORT_STAT_DHCP p = true ∧ s.get R.ETH_PORT_IPV4 p = 0 :=
  ⟨{ (wRun.put R.ETH_PORT_STAT_DHCP 1 (0 % 8)).put R.ETH_PORT_IPV4 0 (0 % 8) with host := { wRun.host with ip := [(0, 4)] } }, 0 % 8, 0 * 2 ^ 28, by decide⟩

theorem wit_EthernetPortsCountDropAndTrain_13 : ∃ (s : State) (p : Nat), p < 8 ∧ s.flag R.ETH_PORT_STAT_DHCP p = true :=
  ⟨{ wRun.put R.ETH_PORT_STAT_DHCP 1 (0 % 8) with host := { wRun.host with ip := [(0, 4), (1, 5)] } }, 0 % 8, by decide⟩

theorem wit_DisplayPortAndPreview_1 : ∃ (s : State) (rate lanes : Nat), s.dpHpd = true ∧ rate ≤ s.get R.DPRX_CTRL_MAX_RATE ∧ (lanes = 1 ∨ lanes = 2 ∨ lanes = 4) :=
  ⟨wPow (((wRun.put R.DPRX_CTRL_EN 1).put R.RST_STAGE_STAGE 5).put R.DPRX_CTRL_MAX_RATE 3), 0 % 4, 2 ^ (0 % 3), by decide⟩

theorem wit_DisplayPortAndPreview_2 : ∃ (s : State) (v : Nat), v < 4 ∧ (s.flag R.DPRX_CTRL_HDCP_EN = true ∨ v = 0) :=
  ⟨wRun.put R.DPRX_CTRL_HDCP_EN 1, 0 % 4, by decide⟩

theorem wit_DisplayPortAndPreview_3 : ∃ (s : State) (rate lanes : Nat) (ten : Bool) (edid : List Byte), s.flag R.DPTX_CTRL_EN = true ∧ rate < 4 ∧ (lanes = 1 ∨ lanes = 2 ∨ lanes = 4) :=
  ⟨(wRun.put R.DPTX_CTRL_EN 1).put R.DPTX_CTRL_MAX_RATE (0 % 4), 0 % 4, 2 ^ (0 % 3), 0 % 2 = 0, List.replicate 256 (BitVec.ofNat 8 0), by decide⟩

theorem wit_DisplayPortAndPreview_5 : ∃ (s : State), s.flag R.PREV_CTRL_SRC = true :=
  ⟨(((wRun.put R.PREV_CTRL_SRC 1).put R.PREV_SIZE_W 2).put R.PREV_SIZE_H 2).put R.PREV_PITCH (if 0 % 2 = 0 then 64 else 65) |>.put R.MEM_HOST 16384 |>.put R.PREV_POS 0 |>.put R.PREV_CTRL_EN 1 |>.put R.DPTX_STAT_TRAINED 1 |>.put R.DPTX_STAT_BW_ERR 0 |>.put R.PREV_SURF 64, by decide⟩

theorem wit_DisplayPortAndPreview_6 : ∃ (s : State) (b : Nat), s.flag R.PREV_CTRL_SRC = false ∧ s.host.prevNew = some b :=
  ⟨{ wRun.put R.PREV_CTRL_SRC 0 with host := { wRun.host with prevNew := some (0 % 2) } }, 0 % 2, by decide⟩

theorem wit_DisplayPortAndPreview_7 : ∃ (s : State), let b := 1 - s.get R.PREV_STAT_BUFFER
    s.host.capDone = true ∧ s.flag R.PREV_CTRL_SRC = false :=
  ⟨{ ((wRun.put R.PREV_CTRL_SRC 0).put R.PREV_VIEW 0xF00000).put R.PREV_POS 0xFFFFFFFF with host := { wRun.host with capDone := true } }, by decide⟩

theorem wit_SecurityCommitsAndDebugUnlocks_1 : ∃ (s : State) (r : Req), let rows := s.otp.fwRows ++ (s.sec.commit.filter (fun c => c.1 = false)).map (fun c => some c.2)
    r ≠ .partner ∧ rowValue rows < s.get R.SEC_FW_SVN ∧ rows.length < 64 :=
  ⟨{ wRun.put R.SEC_FW_SVN (0 + 9) with otp := { wRun.otp with fwRows := [some 3, none, some 5] }, sec := { wRun.sec with commit := [(true, 99), (false, 7)] } }, .host, by decide⟩

theorem wit_SecurityCommitsAndDebugUnlocks_2 : ∃ (s : State) (r : Req), let rows := s.otp.fwRows ++ (s.sec.commit.filter (fun c => c.1 = false)).map (fun c => some c.2)
    let code := if s.get R.SEC_FW_SVN ≤ rowValue rows then 0 else 0x64
    r ≠ .partner ∧ (s.get R.SEC_FW_SVN ≤ rowValue rows ∨ 64 ≤ rows.length) :=
  ⟨{ wRun.put R.SEC_FW_SVN (if 0 % 2 = 0 then 5 else 99) with otp := { wRun.otp with fwRows := if 0 % 2 = 0 then [some 3, none] else List.replicate 63 (some 7) }, sec := { wRun.sec with commit := [(false, 8)] } }, .caretaker, by decide⟩

theorem wit_SecurityCommitsAndDebugUnlocks_3 : ∃ (s : State) (r : Req), let v := s.get R.PERS_SLOT_SV s.activeSlot
    let rows := s.otp.persRows ++ (s.sec.commit.filter (fun c => c.1 = true)).map (fun c => some c.2)
    r ≠ .partner ∧ s.flag R.PERS_STATE_ACTIVE_VALID = true ∧ rowValue rows < v ∧ v ≤ s.sec.baseSvn ∧ rows.length < 64 :=
  ⟨{ (wRun.put R.PERS_STATE_ACTIVE_VALID 1).put R.PERS_SLOT_SV 20 (wRun.put R.PERS_STATE_ACTIVE_VALID 1).activeSlot with otp := { wRun.otp with persRows := [some 3] }, sec := { wRun.sec with baseSvn := 20, commit := [(false, 99), (true, 7)] } }, .host, by decide⟩

theorem wit_SecurityCommitsAndDebugUnlocks_4 : ∃ (s : State) (r : Req), r ≠ .partner ∧ s.flag R.PERS_STATE_ACTIVE_VALID = false :=
  ⟨wRun.put R.PERS_STATE_ACTIVE_VALID 0, .host, by decide⟩

theorem wit_SecurityCommitsAndDebugUnlocks_5 : ∃ (s : State) (r : Req) (key : Nat), (r = .partner ∨ key ≠ 0x5EC0) :=
  ⟨wRun, .partner, 0x5EC0, by decide⟩

theorem wit_SecurityCommitsAndDebugUnlocks_6 : ∃ (s : State) (pers : Bool) (v : Nat) (rest : List (Bool × Nat)), s.sec.commit = (pers, v) :: rest :=
  ⟨{ wRun with sec := { wRun.sec with commit := [(0 % 2 = 0, 50), (false, 60)] }, otp := { wRun.otp with fwRows := [some 2], persRows := [some 4, none] } }, 0 % 2 = 0, 50, [(false, 60)], by decide⟩

theorem wit_SecurityCommitsAndDebugUnlocks_7 : ∃ (s : State) (r : Req), r ≠ .partner :=
  ⟨{ wRun with sec := { wRun.sec with challenge := some (List.replicate 32 7, wRun.time.raw) } }, .host, by decide⟩

theorem wit_SecurityCommitsAndDebugUnlocks_8 : ∃ (s : State) (r : Req), r ≠ .partner ∧ s.sec.challenge = none :=
  ⟨{ wRun with sec := { wRun.sec with challenge := none } }, .host, by decide⟩

theorem wit_SecurityCommitsAndDebugUnlocks_9 : ∃ (s : State) (r : Req), r ≠ .partner :=
  ⟨wRun.put R.SEC_STAT_DEBUG (0 % 2), .caretaker, by decide⟩

theorem wit_SecurityCommitsAndDebugUnlocks_10 : ∃ (s : State) (nonce : List Byte) (n : Nat), s.sec.challenge = some (nonce, n) ∧ n + challengeLife ≤ s.time.raw :=
  ⟨{ wRun with sec := { wRun.sec with challenge := some ([1], 5) }, time := { wRun.time with raw := challengeLife + 5 + 0 } }, [1], 5, by decide⟩

theorem wit_SecurityCommitsAndDebugUnlocks_11 : ∃ (s : State) (n : Nat) (x : KeySlot), n < 64 ∧ (s.intk.keys.find? (fun y => y.slot = n) = some x) ∧ x.notAfter ≠ 0 ∧ x.notAfter ≤ s.now :=
  ⟨{ wRun with intk := { wRun.intk with keys := [⟨0, [1], [2], 1, 0, none⟩] }, time := { wRun.time with base := 2 ^ 50, raw := 0, rawBase := 0 } }, 0, ⟨0, [1], [2], 1, 0, none⟩, by decide⟩

theorem wit_MailboxesPostAcknowledgeWithdraw_1 : ∃ (s : State) (m : Nat) (word : Word), m < 32 ∧ s.flag R.CARE_MBX_STAT_FULL m = false :=
  ⟨wRun.put R.CARE_MBX_STAT_FULL 0 (0 % 32), 0 % 32, 0x1234, by decide⟩

theorem wit_MailboxesPostAcknowledgeWithdraw_2 : ∃ (s : State) (m : Nat) (word : Word), m < 32 ∧ s.flag R.CARE_MBX_STAT_FULL m = true :=
  ⟨wRun.put R.CARE_MBX_STAT_FULL 1 (0 % 32), 0 % 32, 0x1234, by decide⟩

theorem wit_MailboxesPostAcknowledgeWithdraw_3 : ∃ (s : State) (m ret : Nat), m < 32 ∧ s.flag R.CARE_MBX_STAT_FULL m = true ∧ (m ≠ 8 ∨ s.care.notices = []) :=
  ⟨wRun.put R.CARE_MBX_STAT_FULL 1 (0 % 32), 0 % 32, 70000 + 0, by decide⟩

theorem wit_MailboxesPostAcknowledgeWithdraw_4 : ∃ (s : State) (m : Nat), m < 16 ∧ s.flag R.CARE_MBX_STAT_FULL m = true ∧ (m ≠ 8 ∨ s.care.notices = []) :=
  ⟨wRun.put R.CARE_MBX_STAT_FULL 1 (0 % 16), 0 % 16, by decide⟩

theorem wit_MailboxesPostAcknowledgeWithdraw_5 : ∃ (s : State) (p : Party) (m : Nat) (word : Word), m < 32 ∧ p ≠ mbxSender m :=
  ⟨wRun, (if 0 % 32 < 8 then .partner else .host), 0 % 32, 4, by decide⟩

theorem wit_LocksAreClaimedAndReleased_1 : ∃ (s : State) (p : Party) (k : Nat), k < 16 ∧ s.get R.CARE_LOCK k = 0 :=
  ⟨wRun.put R.CARE_LOCK 0 (0 % 16), ([Party.host, .caretaker, .partner, .fabric].getD (0 % 4) .host), 0 % 16, by decide⟩

theorem wit_LocksAreClaimedAndReleased_2 : ∃ (s : State) (p : Party) (k : Nat), k < 16 ∧ s.get R.CARE_LOCK k = p.owner :=
  ⟨wRun.put R.CARE_LOCK (1 + 0 % 4) (0 % 16), ([Party.host, .caretaker, .partner, .fabric].getD (0 % 4) .host), 0 % 16, by decide⟩

theorem wit_LocksAreClaimedAndReleased_3 : ∃ (s : State) (p : Party) (k : Nat), k < 16 ∧ s.get R.CARE_LOCK k ≠ 0 ∧ s.get R.CARE_LOCK k ≠ p.owner :=
  ⟨wRun.put R.CARE_LOCK (1 + 0 % 4) (0 % 16), ([Party.caretaker, .partner, .fabric, .host].getD (0 % 4) .host), 0 % 16, by decide⟩

theorem wit_LocksAreClaimedAndReleased_4 : ∃ (s : State) (p : Party) (k : Nat), k < 16 ∧ s.get R.CARE_LOCK k = p.owner :=
  ⟨wRun.put R.CARE_LOCK (1 + 0 % 4) (0 % 16), ([Party.host, .caretaker, .partner, .fabric].getD (0 % 4) .host), 0 % 16, by decide⟩

theorem wit_LocksAreClaimedAndReleased_5 : ∃ (s : State) (p : Party) (k : Nat), k < 16 ∧ s.get R.CARE_LOCK k ≠ p.owner :=
  ⟨wRun.put R.CARE_LOCK (1 + 0 % 4) (0 % 16), ([Party.caretaker, .partner, .fabric, .host].getD (0 % 4) .host), 0 % 16, by decide⟩

theorem wit_CaretakerCommandsEndWithTheirCode_1 : ∃ (s : State), s.commandIs 3 = true ∧ s.flag R.CARE_STAT_ROM = false ∧ s.flag R.CARE_STAT_RUNNING = true ∧ s.rst.hold ≠ .core ∧ s.get R.CARE_MBX_DATA 0 / 65536 = 0 :=
  ⟨{ ((((wRun.put R.CARE_MBX_STAT_FULL 1 0).put R.CARE_MBX_DATA 0x4203 0).put R.CARE_STAT_ROM 0).put R.CARE_STAT_RUNNING 1).put R.RST_STAGE_STAGE 9 with rst := { wRun.rst with hold := .run }, care := { wRun.care with running := none } }, by decide⟩

theorem wit_CaretakerCommandsEndWithTheirCode_2 : ∃ (s : State), s.commandIs 0xB = true ∧ s.flag R.CARE_STAT_ROM = false ∧ s.flag R.CARE_STAT_RUNNING = true ∧ s.rst.hold ≠ .core ∧ s.get R.CARE_MBX_DATA 0 / 65536 = 0 ∧ s.flag R.THM_STAT_WAITING = false :=
  ⟨{ ((((wRun.put R.CARE_MBX_STAT_FULL 1 0).put R.CARE_MBX_DATA 0x420B 0).put R.CARE_STAT_ROM 0).put R.CARE_STAT_RUNNING 1).put R.RST_STAGE_STAGE 9|>.put R.THM_STAT_WAITING 0 with rst := { wRun.rst with hold := .run }, care := { wRun.care with running := none } }, by decide⟩

theorem wit_CaretakerCommandsEndWithTheirCode_3 : ∃ (s : State), s.commandIs 0xB = true ∧ s.flag R.CARE_STAT_ROM = false ∧ s.flag R.CARE_STAT_RUNNING = true ∧ s.rst.hold ≠ .core ∧ s.get R.CARE_MBX_DATA 0 / 65536 = 0 ∧ s.flag R.THM_STAT_WAITING = true ∧ s.rst.sysEntering = false :=
  ⟨{ ((((wRun.put R.CARE_MBX_STAT_FULL 1 0).put R.CARE_MBX_DATA 0x420B 0).put R.CARE_STAT_ROM 0).put R.CARE_STAT_RUNNING 1).put R.RST_STAGE_STAGE 9|>.put R.THM_STAT_WAITING 1 with rst := { wRun.rst with hold := .run, sysEntering := false }, care := { wRun.care with running := none } }, by decide⟩

theorem wit_CaretakerCommandsEndWithTheirCode_4 : ∃ (s : State) (p : Nat), let b := s.readBytes (s.get R.CARE_ARG 0 + 2 ^ 32 * s.get R.CARE_ARG 1) (s.get R.CARE_ARG 2)
    s.commandIs 4 = true ∧ s.flag R.CARE_STAT_ROM = false ∧ s.flag R.CARE_STAT_RUNNING = true ∧ s.rst.hold ≠ .core ∧ 8 ≤ s.get R.RST_STAGE_STAGE ∧ s.get R.CARE_MBX_DATA 0 / 65536 = p ∧ p < 64 ∧ s.careRegion false (s.get R.CARE_ARG 0 + 2 ^ 32 * s.get R.CARE_ARG 1) (s.get R.CARE_ARG 2) = true :=
  ⟨{ ((((wRun.put R.CARE_MBX_STAT_FULL 1 0).put R.CARE_MBX_DATA 0x54204 0).put R.CARE_STAT_ROM 0).put R.CARE_STAT_RUNNING 1).put R.RST_STAGE_STAGE 9|>.put R.CARE_ARG 0 0 |>.put R.CARE_ARG 0 1 |>.put R.CARE_ARG 0xB8 2 |>.put R.MEM_REGION_ATTR 0x3F07 0 |>.put R.MEM_REGION_BASE 0 0 |>.put R.MEM_REGION_LIMIT 0xFFFFF 0 with rst := { wRun.rst with hold := .run }, care := { wRun.care with running := none } }, 5, by decide⟩

theorem wit_CaretakerCommandsEndWithTheirCode_5 : ∃ (s : State) (p : Nat), let b := s.readBytes (s.get R.CARE_ARG 0 + 2 ^ 32 * s.get R.CARE_ARG 1) (s.get R.CARE_ARG 2)
    s.commandIs 9 = true ∧ s.flag R.CARE_STAT_ROM = false ∧ s.flag R.CARE_STAT_RUNNING = true ∧ s.rst.hold ≠ .core ∧ 8 ≤ s.get R.RST_STAGE_STAGE ∧ s.get R.CARE_MBX_DATA 0 / 65536 = p ∧ p < 4 ∧ s.careRegion false (s.get R.CARE_ARG 0 + 2 ^ 32 * s.get R.CARE_ARG 1) (s.get R.CARE_ARG 2) = true :=
  ⟨{ ((((wRun.put R.CARE_MBX_STAT_FULL 1 0).put R.CARE_MBX_DATA 0x24209 0).put R.CARE_STAT_ROM 0).put R.CARE_STAT_RUNNING 1).put R.RST_STAGE_STAGE 9|>.put R.CARE_ARG 0 0 |>.put R.CARE_ARG 0 1 |>.put R.CARE_ARG (0 * 100) 2 |>.put R.MEM_REGION_ATTR 0x3F07 0 |>.put R.MEM_REGION_BASE 0 0 |>.put R.MEM_REGION_LIMIT 0xFFFFF 0 with rst := { wRun.rst with hold := .run }, care := { wRun.care with running := none } }, 2, by decide⟩

theorem wit_CaretakerCommandsEndWithTheirCode_6 : ∃ (s : State), s.commandIs 5 = true ∧ s.flag R.CARE_STAT_ROM = false ∧ s.flag R.CARE_STAT_RUNNING = true ∧ s.rst.hold ≠ .core ∧ 8 ≤ s.get R.RST_STAGE_STAGE ∧ s.get R.CARE_MBX_DATA 0 / 65536 = 0 ∧ 5720 ≤ s.get R.CARE_ARG 4 ∧ s.careRegion false (s.get R.CARE_ARG 0 + 2 ^ 32 * s.get R.CARE_ARG 1) 32 = true ∧ s.careRegion true (s.get R.CARE_ARG 2 + 2 ^ 32 * s.get R.CARE_ARG 3) 5720 = true ∧ s.otp.hssFlash < hssTotal :=
  ⟨{ ((((wRun.put R.CARE_MBX_STAT_FULL 1 0).put R.CARE_MBX_DATA 0x4205 0).put R.CARE_STAT_ROM 0).put R.CARE_STAT_RUNNING 1).put R.RST_STAGE_STAGE 9|>.put R.CARE_ARG 64 0 |>.put R.CARE_ARG 0 1 |>.put R.CARE_ARG 4096 2 |>.put R.CARE_ARG 0 3 |>.put R.CARE_ARG 5720 4 |>.put R.MEM_REGION_ATTR 0x3F07 0 |>.put R.MEM_REGION_BASE 0 0 |>.put R.MEM_REGION_LIMIT 0xFFFFF 0 with rst := { wRun.rst with hold := .run }, care := { wRun.care with running := none } }, by decide⟩

theorem wit_CaretakerCommandsEndWithTheirCode_7 : ∃ (s : State), s.commandIs 5 = true ∧ s.flag R.CARE_STAT_ROM = false ∧ s.flag R.CARE_STAT_RUNNING = true ∧ s.rst.hold ≠ .core ∧ 8 ≤ s.get R.RST_STAGE_STAGE ∧ s.get R.CARE_MBX_DATA 0 / 65536 = 0 ∧ s.get R.CARE_ARG 4 < 5720 :=
  ⟨{ ((((wRun.put R.CARE_MBX_STAT_FULL 1 0).put R.CARE_MBX_DATA 0x4205 0).put R.CARE_STAT_ROM 0).put R.CARE_STAT_RUNNING 1).put R.RST_STAGE_STAGE 9|>.put R.CARE_ARG 5719 4 with rst := { wRun.rst with hold := .run }, care := { wRun.care with running := none } }, by decide⟩

theorem wit_CaretakerCommandsEndWithTheirCode_8 : ∃ (s : State), s.commandIs 0xA = true ∧ s.flag R.CARE_STAT_ROM = false ∧ s.flag R.CARE_STAT_RUNNING = true ∧ s.rst.hold ≠ .core ∧ 8 ≤ s.get R.RST_STAGE_STAGE ∧ s.get R.CARE_MBX_DATA 0 / 65536 = 0 ∧ 56 ≤ s.get R.CARE_ARG 2 ∧ s.careRegion true (s.get R.CARE_ARG 0 + 2 ^ 32 * s.get R.CARE_ARG 1) 56 = true :=
  ⟨{ ((((wRun.put R.CARE_MBX_STAT_FULL 1 0).put R.CARE_MBX_DATA 0x420A 0).put R.CARE_STAT_ROM 0).put R.CARE_STAT_RUNNING 1).put R.RST_STAGE_STAGE 9|>.put R.CARE_ARG 64 0 |>.put R.CARE_ARG 0 1 |>.put R.CARE_ARG 56 2 |>.put R.MEM_REGION_ATTR 0x3F07 0 |>.put R.MEM_REGION_BASE 0 0 |>.put R.MEM_REGION_LIMIT 0xFFFFF 0 with rst := { wRun.rst with hold := .run }, care := { wRun.care with running := none } }, by decide⟩

theorem wit_CaretakerCommandsEndWithTheirCode_9 : ∃ (s : State), let o := compressAll 2 6 15 s.exportBytes
    s.commandIs 7 = true ∧ s.flag R.CARE_STAT_ROM = false ∧ s.flag R.CARE_STAT_RUNNING = true ∧ s.rst.hold ≠ .core ∧ 8 ≤ s.get R.RST_STAGE_STAGE ∧ s.get R.CARE_MBX_DATA 0 / 65536 = 0 ∧ 557183 ≤ s.get R.CARE_ARG 2 ∧ s.teph.saveDue ≠ some 1 :=
  ⟨{ ((((wRun.put R.CARE_MBX_STAT_FULL 1 0).put R.CARE_MBX_DATA 0x4207 0).put R.CARE_STAT_ROM 0).put R.CARE_STAT_RUNNING 1).put R.RST_STAGE_STAGE 9|>.put R.CARE_ARG 64 0 |>.put R.CARE_ARG 0 1 |>.put R.CARE_ARG 557183 2 |>.put R.MEM_REGION_ATTR (if 0 % 2 = 0 then 0x3F07 else 0) 0 |>.put R.MEM_REGION_BASE 0 0 |>.put R.MEM_REGION_LIMIT 0xFFFFF 0 with rst := { wRun.rst with hold := .run }, care := { wRun.care with running := none }, teph := { wRun.teph with saveDue := none } }, by decide⟩

theorem wit_CaretakerCommandsEndWithTheirCode_10 : ∃ (s : State) (p : Nat), s.commandIs 1 = true ∧ s.flag R.CARE_STAT_ROM = false ∧ s.flag R.CARE_STAT_RUNNING = true ∧ s.rst.hold ≠ .core ∧ 8 ≤ s.get R.RST_STAGE_STAGE ∧ s.get R.CARE_MBX_DATA 0 / 65536 = p ∧ p < 8 ∧ s.careRegion false (s.get R.CARE_ARG 0 + 2 ^ 32 * s.get R.CARE_ARG 1) (s.get R.CARE_ARG 2) = false :=
  ⟨{ ((((wRun.put R.CARE_MBX_STAT_FULL 1 0).put R.CARE_MBX_DATA 0x54201 0).put R.CARE_STAT_ROM 0).put R.CARE_STAT_RUNNING 1).put R.RST_STAGE_STAGE 9|>.put R.CARE_ARG 0 0 |>.put R.CARE_ARG 0xF0000000 1 |>.put R.CARE_ARG 100 2 with rst := { wRun.rst with hold := .run }, care := { wRun.care with running := none } }, 5, by decide⟩

theorem wit_CaretakerCommandsEndWithTheirCode_11 : ∃ (s : State) (p : Nat), s.commandIs 1 = true ∧ s.flag R.CARE_STAT_ROM = false ∧ s.flag R.CARE_STAT_RUNNING = true ∧ s.rst.hold ≠ .core ∧ 8 ≤ s.get R.RST_STAGE_STAGE ∧ s.get R.CARE_MBX_DATA 0 / 65536 = p ∧ p < 8 ∧ s.careRegion false (s.get R.CARE_ARG 0 + 2 ^ 32 * s.get R.CARE_ARG 1) (s.get R.CARE_ARG 2) = true ∧ s.slotState p = 0 ∧ s.pers.loading = none ∧ s.pers.waiting = [] ∧ s.pendingOn p = false :=
  ⟨{ ((((wRun.put R.CARE_MBX_STAT_FULL 1 0).put R.CARE_MBX_DATA 0x54201 0).put R.CARE_STAT_ROM 0).put R.CARE_STAT_RUNNING 1).put R.RST_STAGE_STAGE 9|>.put R.CARE_ARG 0 0 |>.put R.CARE_ARG 0 1 |>.put R.CARE_ARG 100 2 |>.put R.MEM_REGION_ATTR 0x3F07 0 |>.put R.MEM_REGION_BASE 0 0 |>.put R.MEM_REGION_LIMIT 0xFFFFF 0 |>.put R.PERS_SLOT_STAT 0 5 with rst := { wRun.rst with hold := .run }, care := { wRun.care with running := none }, pers := { wRun.pers with loading := none, waiting := [], pend := none } }, 5, by decide⟩

theorem wit_CaretakerCommandsEndWithTheirCode_12 : ∃ (s : State) (p : Nat), s.commandIs 2 = true ∧ s.flag R.CARE_STAT_ROM = false ∧ s.flag R.CARE_STAT_RUNNING = true ∧ s.rst.hold ≠ .core ∧ 8 ≤ s.get R.RST_STAGE_STAGE ∧ s.get R.CARE_MBX_DATA 0 / 65536 = p ∧ p < 8 ∧ (s.isMirror = false ∧ s.isActive = false) ∧ s.get R.CARE_ARG 0 = 0 ∧ s.slotState p = 5 ∧ s.pers.pend = none ∧ s.pers.reload = none :=
  ⟨{ ((((wRun.put R.CARE_MBX_STAT_FULL 1 0).put R.CARE_MBX_DATA 0x54202 0).put R.CARE_STAT_ROM 0).put R.CARE_STAT_RUNNING 1).put R.RST_STAGE_STAGE 9|>.put R.CARE_ARG 0 0 |>.put R.PAIR_STAT_STATE 4 |>.put R.PERS_SLOT_STAT 5 5 with rst := { wRun.rst with hold := .run }, care := { wRun.care with running := none }, pers := { wRun.pers with pend := none, reload := none } }, 5, by decide⟩

theorem wit_CaretakerCommandsEndWithTheirCode_13 : ∃ (s : State), s.commandIs 6 = true ∧ s.flag R.CARE_STAT_ROM = false ∧ s.flag R.CARE_STAT_RUNNING = true ∧ s.rst.hold ≠ .core ∧ s.get R.CARE_MBX_DATA 0 / 65536 = 0 :=
  ⟨{ ((((wRun.put R.CARE_MBX_STAT_FULL 1 0).put R.CARE_MBX_DATA 0x4206 0).put R.CARE_STAT_ROM 0).put R.CARE_STAT_RUNNING 1).put R.RST_STAGE_STAGE 9 with rst := { wRun.rst with hold := .run }, care := { wRun.care with running := none } }, by decide⟩

theorem wit_CaretakerCommandsEndWithTheirCode_14 : ∃ (s : State) (p : Nat), s.commandIs 6 = true ∧ s.flag R.CARE_STAT_ROM = false ∧ s.flag R.CARE_STAT_RUNNING = true ∧ s.rst.hold ≠ .core ∧ s.get R.CARE_MBX_DATA 0 / 65536 = p ∧ (0 < p ∧ p < 16) :=
  ⟨{ ((((wRun.put R.CARE_MBX_STAT_FULL 1 0).put R.CARE_MBX_DATA 0x54206 0).put R.CARE_STAT_ROM 0).put R.CARE_STAT_RUNNING 1).put R.RST_STAGE_STAGE 9 with rst := { wRun.rst with hold := .run }, care := { wRun.care with running := none } }, 5, by decide⟩

theorem wit_CaretakerCommandsEndWithTheirCode_15 : ∃ (s : State), s.commandIs 8 = true ∧ s.flag R.CARE_STAT_ROM = false ∧ s.flag R.CARE_STAT_RUNNING = true ∧ s.rst.hold ≠ .core ∧ s.get R.CARE_MBX_DATA 0 / 65536 = 1 ∧ s.isActive = false :=
  ⟨{ ((((wRun.put R.CARE_MBX_STAT_FULL 1 0).put R.CARE_MBX_DATA 0x14208 0).put R.CARE_STAT_ROM 0).put R.CARE_STAT_RUNNING 1).put R.RST_STAGE_STAGE 9|>.put R.PAIR_STAT_STATE 3 with rst := { wRun.rst with hold := .run }, care := { wRun.care with running := none } }, by decide⟩

theorem wit_CaretakerCommandsEndWithTheirCode_16 : ∃ (s : State), s.commandIs 8 = true ∧ s.flag R.CARE_STAT_ROM = false ∧ s.flag R.CARE_STAT_RUNNING = true ∧ s.rst.hold ≠ .core ∧ s.get R.CARE_MBX_DATA 0 / 65536 = 1 ∧ s.isActive = true ∧ s.get R.PAIR_FIT_PEER_FIT = 0xFF :=
  ⟨{ ((((wRun.put R.CARE_MBX_STAT_FULL 1 0).put R.CARE_MBX_DATA 0x14208 0).put R.CARE_STAT_ROM 0).put R.CARE_STAT_RUNNING 1).put R.RST_STAGE_STAGE 9|>.put R.PAIR_STAT_STATE 2 |>.put R.PAIR_FIT_PEER_FIT 0xFF with rst := { wRun.rst with hold := .run }, care := { wRun.care with running := none } }, by decide⟩

theorem wit_CaretakerCommandsEndWithTheirCode_17 : ∃ (s : State) (slot0 slot1 : List Byte), s.commandIs 0x10 = true ∧ s.flag R.CARE_STAT_ROM = false ∧ s.flag R.CARE_STAT_RUNNING = true ∧ s.rst.hold ≠ .core :=
  ⟨{ ((((wRun.put R.CARE_MBX_STAT_FULL 1 0).put R.CARE_MBX_DATA 0x4210 0).put R.CARE_STAT_ROM 0).put R.CARE_STAT_RUNNING 1).put R.RST_STAGE_STAGE 9 with rst := { wRun.rst with hold := .run }, care := { wRun.care with running := none } }, [], [], by decide⟩

theorem wit_CaretakerCommandsEndWithTheirCode_18 : ∃ (s : State) (slot0 slot1 : List Byte), let img := (List.range (s.get R.CARE_ARG 0)).map (fun i => Sparse.get dramDefault s.rst.bootSram i)
    s.commandIs 0x10 = true ∧ s.inRom = true ∧ s.rst.hostBootWait = true ∧ (0 < s.get R.CARE_ARG 0 ∧ s.get R.CARE_ARG 0 ≤ 8388608) ∧ s.flag R.RST_STRAP_BOOT_SRC = false :=
  ⟨{ ((((wRun.put R.CARE_MBX_STAT_FULL 1 0).put R.CARE_MBX_DATA 0x4210 0).put R.CARE_STAT_ROM 1).put R.CARE_ARG 10 0).put R.RST_STRAP_BOOT_SRC 0 with rst := { wRun.rst with hold := .run, hostBootWait := true }, care := { wRun.care with running := none } }, [], [], by decide⟩

theorem wit_CaretakerCommandsEndWithTheirCode_19 : ∃ (s : State) (op : Nat), s.commandIs op = true ∧ s.flag R.CARE_STAT_ROM = false ∧ s.flag R.CARE_STAT_RUNNING = true ∧ s.rst.hold ≠ .core ∧ knownOps.contains op = false :=
  ⟨{ ((((wRun.put R.CARE_MBX_STAT_FULL 1 0).put R.CARE_MBX_DATA 0x42FE 0).put R.CARE_STAT_ROM 0).put R.CARE_STAT_RUNNING 1).put R.RST_STAGE_STAGE 9 with rst := { wRun.rst with hold := .run }, care := { wRun.care with running := none } }, 0xFE, by decide⟩

theorem wit_CaretakerCommandsEndWithTheirCode_20 : ∃ (s : State) (m : Nat), (0 < m ∧ m < 8) ∧ s.flag R.CARE_STAT_RUNNING = true ∧ s.flag R.CARE_MBX_STAT_FULL m = true :=
  ⟨((wRun.put R.CARE_STAT_RUNNING 1).put R.CARE_MBX_STAT_FULL 1 (1 + 0 % 7)), 1 + 0 % 7, by decide⟩

theorem wit_CaretakerCommandsEndWithTheirCode_21 : ∃ (s : State), s.commandIs 5 = true ∧ s.flag R.CARE_STAT_ROM = false ∧ s.flag R.CARE_STAT_RUNNING = true ∧ s.rst.hold ≠ .core ∧ s.get R.RST_STAGE_STAGE < 8 :=
  ⟨{ ((((wRun.put R.CARE_MBX_STAT_FULL 1 0).put R.CARE_MBX_DATA 0x4205 0).put R.CARE_STAT_ROM 0).put R.CARE_STAT_RUNNING 1).put R.RST_STAGE_STAGE 7 with rst := { wRun.rst with hold := .run }, care := { wRun.care with running := none } }, by decide⟩

theorem wit_CaretakerCommandsEndWithTheirCode_22 : ∃ (s : State), s.commandIs 1 = true ∧ s.flag R.CARE_STAT_ROM = false ∧ s.rst.hold = .core :=
  ⟨{ ((((wRun.put R.CARE_MBX_STAT_FULL 1 0).put R.CARE_MBX_DATA 16897 0).put R.CARE_STAT_ROM 0).put R.CARE_STAT_RUNNING 1).put R.RST_STAGE_STAGE 7 with rst := { wRun.rst with hold := .core }, care := { wRun.care with running := none } }, by decide⟩

theorem wit_CaretakerCommandsEndWithTheirCode_23 : ∃ (s : State), s.commandIs 2 = true ∧ s.flag R.CARE_STAT_ROM = false ∧ s.rst.hold = .core :=
  ⟨{ ((((wRun.put R.CARE_MBX_STAT_FULL 1 0).put R.CARE_MBX_DATA 16898 0).put R.CARE_STAT_ROM 0).put R.CARE_STAT_RUNNING 1).put R.RST_STAGE_STAGE 7 with rst := { wRun.rst with hold := .core }, care := { wRun.care with running := none } }, by decide⟩

theorem wit_CaretakerCommandsEndWithTheirCode_24 : ∃ (s : State), s.commandIs 5 = true ∧ s.flag R.CARE_STAT_ROM = false ∧ s.rst.hold = .core :=
  ⟨{ ((((wRun.put R.CARE_MBX_STAT_FULL 1 0).put R.CARE_MBX_DATA 16901 0).put R.CARE_STAT_ROM 0).put R.CARE_STAT_RUNNING 1).put R.RST_STAGE_STAGE 7 with rst := { wRun.rst with hold := .core }, care := { wRun.care with running := none } }, by decide⟩

theorem wit_CaretakerCommandsEndWithTheirCode_25 : ∃ (s : State), s.commandIs 7 = true ∧ s.flag R.CARE_STAT_ROM = false ∧ s.rst.hold = .core :=
  ⟨{ ((((wRun.put R.CARE_MBX_STAT_FULL 1 0).put R.CARE_MBX_DATA 16903 0).put R.CARE_STAT_ROM 0).put R.CARE_STAT_RUNNING 1).put R.RST_STAGE_STAGE 7 with rst := { wRun.rst with hold := .core }, care := { wRun.care with running := none } }, by decide⟩

theorem wit_CaretakerCommandsEndWithTheirCode_26 : ∃ (s : State), s.commandIs 10 = true ∧ s.flag R.CARE_STAT_ROM = false ∧ s.rst.hold = .core :=
  ⟨{ ((((wRun.put R.CARE_MBX_STAT_FULL 1 0).put R.CARE_MBX_DATA 16906 0).put R.CARE_STAT_ROM 0).put R.CARE_STAT_RUNNING 1).put R.RST_STAGE_STAGE 7 with rst := { wRun.rst with hold := .core }, care := { wRun.care with running := none } }, by decide⟩
end

/-!
SUPPORT. How a 32-bit read of a register acts (R69, R70, R73, R74): what it answers, what it does to the requester's shadow, and
that the rest of the machine stays. O18 and O21 are assembled from these rules.
-/

namespace Sys2Proof.Machine

/-! ### The shadow and the response -/

@[simp] theorem State.shadow_setShadow_self (s : State) (r : Req) (x : Option Shadow) : (s.setShadow r x).bus.shadow r = x := by
  cases r <;> rfl

/-- The shadows of the other requesters stay (R72). -/
theorem State.shadow_setShadow_ne (s : State) {r q : Req} (x : Option Shadow) (h : q ≠ r) :
    (s.setShadow r x).bus.shadow q = s.bus.shadow q := by
  cases r <;> cases q <;> simp [State.setShadow, BusState.shadow] at h ⊢

@[simp] theorem State.holdHost_setShadow (s : State) (r : Req) (x : Option Shadow) :
    (s.setShadow r x).bus.holdHost = s.bus.holdHost := by cases r <;> rfl
@[simp] theorem State.holdCare_setShadow (s : State) (r : Req) (x : Option Shadow) :
    (s.setShadow r x).bus.holdCare = s.bus.holdCare := by cases r <;> rfl
@[simp] theorem State.holdPartner_setShadow (s : State) (r : Req) (x : Option Shadow) :
    (s.setShadow r x).bus.holdPartner = s.bus.holdPartner := by cases r <;> rfl

/-- Setting a shadow changes nothing outside the bus ports. -/
@[simp] theorem State.with_bus_setShadow (s : State) (r : Req) (x : Option Shadow) (b : BusState) :
    { s.setShadow r x with bus := b } = { s with bus := b } := by cases r <;> rfl

@[simp] theorem State.resp_respond (s : State) (x : BusResp) : (s.respond x).bus.resp = x := rfl
@[simp] theorem State.shadow_respond (s : State) (x : BusResp) (q : Req) : (s.respond x).bus.shadow q = s.bus.shadow q := by
  cases q <;> rfl
@[simp] theorem State.holdHost_respond (s : State) (x : BusResp) : (s.respond x).bus.holdHost = s.bus.holdHost := rfl
@[simp] theorem State.holdCare_respond (s : State) (x : BusResp) : (s.respond x).bus.holdCare = s.bus.holdCare := rfl
@[simp] theorem State.holdPartner_respond (s : State) (x : BusResp) : (s.respond x).bus.holdPartner = s.bus.holdPartner := rfl

/-- A response changes nothing outside the bus ports. -/
@[simp] theorem State.with_bus_respond (s : State) (x : BusResp) (b : BusState) :
    { s.respond x with bus := b } = { s with bus := b } := rfl

/-! ### One 32-bit read, by the half of a pair that it reads -/

section
variable {off : Nat} {s : State} {r : Req}

/-- The register at an offset whose half is known. -/
theorem regAt_of_half {h : Half} (hh : (regAt off).map (fun p => p.1.half) = some h) :
    ∃ info ij, regAt off = some (info, ij) ∧ info.half = h := by
  obtain ⟨⟨info, ij⟩, hreg, hhalf⟩ := Option.map_eq_some_iff.1 hh
  exact ⟨info, ij, hreg, hhalf⟩

/-- A register that is no half of a pair shows its bits (R69). -/
theorem State.readWord_one (h : (regAt off).map (fun p => p.1.half) = some Half.one) : s.readWord r off = (s, s.shownAt r off) := by
  obtain ⟨info, ij, hreg, hhalf⟩ := regAt_of_half h
  simp only [State.readWord, hreg, hhalf]

/-- LO shows its bits and latches those of HI (R73). -/
theorem State.readWord_lo (h : (regAt off).map (fun p => p.1.half) = some Half.lo) :
    s.readWord r off = (s.setShadow r (some ⟨off, s.shownAt r (off + 4)⟩), s.shownAt r off) := by
  obtain ⟨info, ij, hreg, hhalf⟩ := regAt_of_half h
  simp only [State.readWord, hreg, hhalf]

/-- HI takes a shadow that is tagged with its pair (R74). -/
theorem State.readWord_hi_tagged {x : Shadow} (h : (regAt off).map (fun p => p.1.half) = some Half.hi)
    (hx : s.bus.shadow r = some x) (hp : x.pair + 4 = off) : s.readWord r off = (s.setShadow r none, x.data) := by
  obtain ⟨info, ij, hreg, hhalf⟩ := regAt_of_half h
  simp only [State.readWord, hreg, hhalf, hx, if_pos hp]

/-- HI shows its live bits when no shadow is tagged with its pair (R74). -/
theorem State.readWord_hi_live (h : (regAt off).map (fun p => p.1.half) = some Half.hi)
    (hx : (s.bus.shadow r).all (fun x => x.pair + 4 ≠ off) = true) : s.readWord r off = (s, s.shownAt r off) := by
  obtain ⟨info, ij, hreg, hhalf⟩ := regAt_of_half h
  cases hs : s.bus.shadow r with
  | none => simp only [State.readWord, hreg, hhalf, hs]
  | some x =>
    have hp : x.pair + 4 ≠ off := by simpa [hs] using hx
    simp only [State.readWord, hreg, hhalf, hs, if_neg hp]

/-- All that a 32-bit read can do to the machine: nothing, or the requester's shadow changes (R69). -/
theorem State.readWord_fst (s : State) (r : Req) (off : Nat) :
    (s.readWord r off).1 = s ∨ ∃ x, (s.readWord r off).1 = s.setShadow r x := by
  cases hreg : regAt off with
  | none => exact .inl (by simp only [State.readWord, hreg])
  | some p =>
    have hh : (regAt off).map (fun p => p.1.half) = some p.1.half := by rw [hreg]; rfl
    cases hhalf : p.1.half with
    | one => exact .inl (by rw [State.readWord_one (hhalf ▸ hh)])
    | lo => exact .inr ⟨_, by rw [State.readWord_lo (hhalf ▸ hh)]⟩
    | hi =>
      by_cases hx : ∃ x, s.bus.shadow r = some x ∧ x.pair + 4 = off
      · obtain ⟨x, hs, hp⟩ := hx
        exact .inr ⟨none, by rw [State.readWord_hi_tagged (hhalf ▸ hh) hs hp]⟩
      · have hlive : (s.bus.shadow r).all (fun x => x.pair + 4 ≠ off) = true :=
          Option.all_eq_true _ _ |>.2 fun x hs => decide_eq_true fun hp => hx ⟨x, hs, hp⟩
        exact .inl (by rw [State.readWord_hi_live (hhalf ▸ hh) hlive])

/-- A 32-bit read changes nothing outside the bus ports, and no holding register (R69). -/
theorem State.readWord_frame (s : State) (r : Req) (off : Nat) :
    { (s.readWord r off).1 with bus := s.bus } = s ∧ (s.readWord r off).1.bus.holdHost = s.bus.holdHost ∧
      (s.readWord r off).1.bus.holdCare = s.bus.holdCare ∧ (s.readWord r off).1.bus.holdPartner = s.bus.holdPartner := by
  rcases State.readWord_fst s r off with hs | ⟨x, hs⟩
  · rw [hs]; exact ⟨rfl, rfl, rfl, rfl⟩
  · simp [hs]

/-! ### The read as the bus performs it -/

/-- A valid 32-bit read that arrives and waits for nothing answers the word read. -/
theorem State.busRead_word (hr : s.reaches r = true) (hk : busKind off 4 = none) (hw : r ≠ .host ∨ s.comp.heldHost = []) :
    s.busRead r off 4 = (s.readWord r off).1.respond (.data (s.readWord r off).2) := by
  have hnow : ¬(r = .host ∧ s.comp.heldHost.isEmpty = false) := by
    rintro ⟨hhost, hheld⟩
    rcases hw with hw | hw
    · exact hw hhost
    · simp [hw] at hheld
  simp only [State.busRead, State.readNow, hr, hk, if_neg hnow, Bool.true_eq_false, if_false, if_true]

/-- A host read behind writes that are held waits with them (R70). -/
theorem State.busRead_host_waits {width : Nat} (hr : s.reaches .host = true) (hheld : s.comp.heldHost ≠ []) :
    s.busRead .host off width = s.hostWaits (.reg off width none) := by
  have hwait : s.comp.heldHost.isEmpty = false := by simpa using hheld
  simp only [State.busRead, hr, hwait, Bool.true_eq_false, if_false, and_self, if_true]

end

end Sys2Proof.Machine

section
open Sys2Proof Sys2Proof.Machine

/-- Settles O18: the three cases of `readWord` on a half of a pair, seen through `busRead_word`. -/
theorem pairReadsGoThroughTheShadow : Obligations.PairReadsGoThroughTheShadow := by
  refine ⟨?lo, ?tagged, ?live⟩
  case lo =>
    intro s r q off hr hk hlo hw hq
    refine ⟨_, rfl, ?_⟩
    rw [State.busRead_word hr hk hw, State.readWord_lo hlo]
    simp [State.shadow_setShadow_ne s _ hq]
  case tagged =>
    intro s r q off x hr hk hhi hx hp hw hq
    refine ⟨_, rfl, ?_⟩
    rw [State.busRead_word hr hk hw, State.readWord_hi_tagged hhi hx hp]
    simp [State.shadow_setShadow_ne s _ hq]
  case live =>
    intro s r off hr hk hhi hx hw
    refine ⟨_, rfl, ?_⟩
    rw [State.busRead_word hr hk hw, State.readWord_hi_live hhi hx]
    exact ⟨rfl, rfl⟩

/-- Settles O21: a read that is performed changes no holding register and nothing outside the bus ports
(`readWord_frame`); one that waits changes only the list of accesses held (`busRead_host_waits`). -/
theorem readsHaveNoSideEffects : Obligations.ReadsHaveNoSideEffects := by
  refine ⟨?performed, ?waits⟩
  case performed =>
    intro s r off hr hk hw
    refine ⟨_, rfl, ?_⟩
    rw [State.busRead_word hr hk hw]
    obtain ⟨hrest, hhost, hcare, hpartner⟩ := State.readWord_frame s r off
    refine ⟨hrest, hhost, hcare, hpartner, fun hone => ?_⟩
    rw [State.readWord_one hone]
    exact ⟨rfl, rfl⟩
  case waits =>
    intro s off hr hheld
    refine ⟨_, rfl, ?_⟩
    rw [State.busRead_host_waits hr hheld]
    exact ⟨rfl, rfl⟩

end

/-!
SUPPORT. What the shared operations that record an event do to the tephra record (R571 to R575): the number given out, the entry
queued, the flag a lost entry raises.
-/

namespace Sys2Proof.Machine

section
variable (s : State) (b : Blk) (n src sev rung code a0 a1 off data : Nat) (a2 : Arg2) (p : Party)

theorem State.flag_of_get {s t : State} {f : Fld} {i j : Nat} (h : t.get f i j = s.get f i j) : t.flag f i j = s.flag f i j := by
  unfold State.flag; rw [h]

/-- A raised flag reads 1 in the block's IRQ_STATUS (R89). -/
theorem State.getLsbD_raise_self {n : Nat} (hn : n < 32) : ((s.raise b n).word b.status).getLsbD n = true := by
  rw [State.word_raise_self, BitVec.getLsbD_or, BitVec.getLsbD_ofNat, decide_eq_true hn, Nat.testBit_two_pow_self, Bool.and_self,
    Bool.or_true]

@[simp] theorem State.nextId_tephLose (c : Bool) : (s.tephLose c).teph.nextId = s.teph.nextId := by
  cases c <;> simp only [State.tephLose, Bool.false_eq_true, if_false, if_true, State.raise_teph, State.bump_teph]

/-- A lost entry sets LOST of the recorder (R573, R575). -/
theorem State.lost_tephLose (c : Bool) : ((s.tephLose c).word R.TEPH_IRQ_STATUS.base).getLsbD 1 = true := by
  cases c
  · exact State.getLsbD_raise_self (s.bump R.TEPH_LOST_QUEUE) .teph (by decide)
  · exact State.getLsbD_raise_self (s.bump R.TEPH_LOST_FROZEN) .teph (by decide)

/-- Every offered entry takes a number, whether it is lost or not. -/
@[simp] theorem State.nextId_offer : (s.offer src sev rung code a0 a1 a2).teph.nextId = s.teph.nextId + 1 := by
  simp only [State.offer, State.offerFull]
  split
  · rw [State.nextId_tephLose]
  · split
    · rw [State.nextId_tephLose]
    · rfl

variable {s} in
/-- With the ring running and room in the queue, the entry offered is the queue's last. -/
theorem State.queue_offer (hf : s.flag R.TEPH_STAT_FROZEN = false) (hq : s.teph.queue.length < 64) :
    ∃ e, (s.offer src sev rung code a0 a1 a2).teph.queue = s.teph.queue ++ [e] ∧ e.code = code ∧ e.a0 = a0 % 2 ^ 32 := by
  simp only [State.offer, State.offerFull, hf, Nat.not_le.2 hq, Bool.false_eq_true, if_false]
  exact ⟨_, rfl, rfl, rfl⟩

variable {s} in
/-- With the ring frozen or the queue full, the entry offered is lost. -/
theorem State.lost_offer (h : s.flag R.TEPH_STAT_FROZEN = true ∨ 64 ≤ s.teph.queue.length) :
    ((s.offer src sev rung code a0 a1 a2).word R.TEPH_IRQ_STATUS.base).getLsbD 1 = true := by
  simp only [State.offer, State.offerFull]
  split
  · exact State.lost_tephLose _ true
  · rename_i hf
    rw [if_pos (h.resolve_left hf)]
    exact State.lost_tephLose _ false

variable {s} in
theorem State.queue_recIrq (hf : s.flag R.TEPH_STAT_FROZEN = false) (hq : s.teph.queue.length < 64) :
    ∃ e, (s.recIrq b n).teph.queue = s.teph.queue ++ [e] :=
  have ⟨e, he, _⟩ := State.queue_offer _ _ _ _ _ _ _ hf hq
  ⟨e, he⟩

variable {s} in
theorem State.lost_recIrq (h : s.flag R.TEPH_STAT_FROZEN = true ∨ 64 ≤ s.teph.queue.length) :
    ((s.recIrq b n).word R.TEPH_IRQ_STATUS.base).getLsbD 1 = true := State.lost_offer _ _ _ _ _ _ _ h

variable {s} in
/-- An ignored access is recorded as WRITE_IGNORED with its offset. -/
theorem State.queue_ignoredBy (hf : s.flag R.TEPH_STAT_FROZEN = false) (hq : s.teph.queue.length < 64) :
    ∃ e, (s.ignoredBy off data p).teph.queue = s.teph.queue ++ [e] ∧ e.code = 0x10 ∧ e.a0 = off % 2 ^ 32 :=
  State.queue_offer _ _ _ _ _ _ _ hf hq

variable {s} in
theorem State.lost_ignoredBy (h : s.flag R.TEPH_STAT_FROZEN = true ∨ 64 ≤ s.teph.queue.length) :
    ((s.ignoredBy off data p).word R.TEPH_IRQ_STATUS.base).getLsbD 1 = true := State.lost_offer _ _ _ _ _ _ _ h

theorem State.nextId_ignoredBy : (s.ignoredBy off data p).teph.nextId = s.teph.nextId + 1 := State.nextId_offer ..

/-- An ignored access changes no register but those of `eventWords`. -/
theorem State.get_ignoredBy (g : Fld) (k l : Nat) (h1 : g.off k l ∉ eventWords)
    (h2 : g.lsb + g.width ≤ 32 ∨ g.off k l + 4 ∉ eventWords) : (s.ignoredBy off data p).get g k l = s.get g k l :=
  State.get_offer _ _ _ _ _ _ _ _ g k l h1 h2

/-- A counter within one word after it advanced: it saturates at its width (R80). -/
theorem State.get_bump_self (f : Fld) (i j : Nat) (h : f.lsb + f.width ≤ 32) (hr : f.inRange i j) :
    (s.bump f i j).get f i j = min (s.get f i j + 1) (2 ^ f.width - 1) := by
  have hlt : min (s.get f i j + 1) (2 ^ f.width - 1) < 2 ^ f.width := by have := Nat.two_pow_pos f.width; omega
  exact (State.get_put_narrow _ _ _ _ _ h hr).trans (Nat.mod_eq_of_lt hlt)

end

/-! ### Locks (R525, R526) -/

section
variable {s : State} {p : Party} {k : Nat}

theorem Party.owner_ne_zero (p : Party) : p.owner ≠ 0 := by cases p <;> decide

theorem exec_lockClaim (hk : k < 16) : exec (.lockClaim p k) s = .next (if s.get R.CARE_LOCK k = 0 then s.put R.CARE_LOCK p.owner k
    else if s.get R.CARE_LOCK k = p.owner then s else s.bump R.CARE_LOCK_STAT_FAILED) :=
  if_neg (Nat.not_le.2 hk)

theorem exec_lockRelease_owner (hk : k < 16) (ho : s.get R.CARE_LOCK k = p.owner) :
    exec (.lockRelease p k) s = .next (s.put R.CARE_LOCK 0 k) :=
  (if_neg (Nat.not_le.2 hk)).trans (if_pos ho)

theorem exec_lockRelease_other (hk : k < 16) (ho : s.get R.CARE_LOCK k ≠ p.owner) :
    exec (.lockRelease p k) s = .next ((s.bump R.CARE_LOCK_STAT_STRAY).ignoredBy (R.CARE_LOCK.off k 0) 0 p) :=
  (if_neg (Nat.not_le.2 hk)).trans (if_neg ho)

theorem lock_off_lt (hk : k < 16) : R.CARE_LOCK.off k 0 < 2 ^ 32 := by
  simp only [Fld.off, R.CARE_LOCK]
  omega

theorem lock_off_notMem_eventWords (hk : k < 16) : R.CARE_LOCK.off k 0 ∉ eventWords := by
  simp only [eventWords, Fld.off, List.mem_cons, List.not_mem_nil, or_false, R.CARE_LOCK, R.HOST_MSIX_PBA, R.TEPH_LOST, R.TEPH_IRQ_STATUS]
  omega

/-- A lock register and the counters of the locks lie in different words. -/
theorem lockStat_apart_lock (hk : k < 16) : R.CARE_LOCK_STAT_STRAY.apart 0 0 R.CARE_LOCK k 0 := by
  simp only [Fld.apart, Fld.off, R.CARE_LOCK, R.CARE_LOCK_STAT_STRAY]
  omega

end

/-! ### Mailboxes (R512 to R515) -/

/-- A mailbox with a new word: stored, FULL set, ACKED cleared (R513). -/
def State.mbxFilled (s : State) (m word : Nat) : State :=
  ((s.put R.CARE_MBX_DATA word m).put R.CARE_MBX_STAT_FULL 1 m).put R.CARE_MBX_STAT_ACKED 0 m

/-- The doorbell of a mailbox that took a word: the host's flag, or the packet to the partner (R513, R518). -/
def State.mbxRung (s : State) (m : Nat) : State :=
  if 8 ≤ m ∧ m < 16 then s.raise .care 0
  else if 16 ≤ m ∧ m < 20 then (s.put R.CARE_MBX_STAT_SEQ (1 - s.get R.CARE_MBX_STAT_SEQ m) m).mbxTransmit m
  else s

/-- A mailbox whose message ended: FULL cleared, ACKED set, RET stored (R514, R515). -/
def State.mbxEnded (s : State) (m ret : Nat) : State :=
  ((s.put R.CARE_MBX_STAT_FULL 0 m).put R.CARE_MBX_STAT_ACKED 1 m).put R.CARE_MBX_STAT_RET ret m

/-- The words of mailbox `m` that a post or the end of a message changes. -/
def mbxWords (m : Nat) : List Nat := [R.CARE_MBX_DATA.off m 0, R.CARE_MBX_STAT.off m 0]

/-- The words the mailboxes report in: their counters, CARE_IRQ_STATUS and the words of any recorded event. -/
def mbxEventWords : List Nat := R.CARE_MBX_COUNT.base :: R.CARE_IRQ_STATUS.base :: eventWords

section
variable {s : State} {p : Party} {m k ret : Nat} {word : Word}

theorem State.mbxPost_empty (word : Nat) (h : s.flag R.CARE_MBX_STAT_FULL m = false) :
    s.mbxPost m word = (s.mbxFilled m word).mbxRung m := by
  simp only [State.mbxPost, h, Bool.false_eq_true, if_false, State.mbxFilled, State.mbxRung]

theorem State.mbxPost_full (word : Nat) (h : s.flag R.CARE_MBX_STAT_FULL m = true) :
    s.mbxPost m word = (s.bump R.CARE_MBX_COUNT_REJECTED).raiseRec .care 3 := if_pos h

theorem exec_mbxPost_sender (hm : m < 32) : exec (.mbxPost (mbxSender m) m word) s = .next (s.mbxPost m word.toNat) :=
  (if_neg (Nat.not_le.2 hm)).trans (if_neg (fun hne => hne rfl))

theorem exec_mbxPost_other (hm : m < 32) (hp : p ≠ mbxSender m) :
    exec (.mbxPost p m word) s = .next (s.stray.ignoredBy (R.CARE_MBX_DATA.off m 0) word.toNat p) :=
  (if_neg (Nat.not_le.2 hm)).trans (if_pos hp)

theorem exec_mbxAck_receiver (hm : m < 32) (hf : s.flag R.CARE_MBX_STAT_FULL m = true) :
    exec (.mbxAck (mbxReceiver m) m ret) s = .next (s.mbxDone m (ret % 65536)) :=
  (if_neg (Nat.not_le.2 hm)).trans (if_neg (by simp [hf]))

/-- Without a notice that waits, mailbox 8 stays empty when its message ends (R523). -/
theorem State.noticeNext_nil (h : s.care.notices = []) : s.noticeNext = s := by
  simp only [State.noticeNext, h]

theorem exec_mbxWithdraw_sender (hm : m < 16) (hf : s.flag R.CARE_MBX_STAT_FULL m = true) (h8 : m ≠ 8 ∨ s.care.notices = []) :
    exec (.mbxWithdraw (mbxSender m) m) s = .next (s.mbxEnded m 0xFFFF) := by
  have hq : (if m = 8 then (s.mbxEnded m 0xFFFF).noticeNext else s.mbxEnded m 0xFFFF) = s.mbxEnded m 0xFFFF := by
    split
    · rename_i hm8
      exact State.noticeNext_nil (by simpa [State.mbxEnded] using h8.resolve_left (fun hne => hne hm8))
    · rfl
  have h16 : ¬(16 ≤ m ∨ s.flag R.CARE_MBX_STAT_FULL m = false) := by simp [hf, hm]
  have hex : exec (.mbxWithdraw (mbxSender m) m) s =
      .next (if m = 8 then (s.mbxEnded m 0xFFFF).noticeNext else s.mbxEnded m 0xFFFF) :=
    ((if_neg (by omega)).trans (if_neg (fun hne => hne rfl))).trans (if_neg h16)
  rw [hex, hq]

/-- The registers after an acknowledgement: the message ended, the host's doorbell rung for mailboxes 0 to 7 (R514). -/
theorem State.regs_mbxDone (h8 : m ≠ 8 ∨ s.care.notices = []) :
    (s.mbxDone m ret).regs = ((s.mbxEnded m ret).raiseIf (m < 8) .care 1).regs := by
  simp only [State.mbxDone]
  split
  · exact State.sendPair_regs ..
  · split
    · rename_i hm8
      exact congrArg State.regs (State.noticeNext_nil (by simpa using h8.resolve_left (fun hne => hne hm8)))
    · rfl

/-! The words of the mailboxes -/

theorem mbxData_off_notMem_events (hk : k < 32) : R.CARE_MBX_DATA.off k 0 ∉ mbxEventWords := by
  simp only [mbxEventWords, eventWords, Fld.off, List.mem_cons, List.not_mem_nil, or_false, R.CARE_MBX_DATA, R.CARE_MBX_COUNT,
    R.CARE_IRQ_STATUS, R.HOST_MSIX_PBA, R.TEPH_LOST, R.TEPH_IRQ_STATUS]
  omega

theorem mbxStat_off_notMem_events (hk : k < 32) : R.CARE_MBX_STAT.off k 0 ∉ mbxEventWords := by
  simp only [mbxEventWords, eventWords, Fld.off, List.mem_cons, List.not_mem_nil, or_false, R.CARE_MBX_STAT, R.CARE_MBX_COUNT,
    R.CARE_IRQ_STATUS, R.HOST_MSIX_PBA, R.TEPH_LOST, R.TEPH_IRQ_STATUS]
  omega

theorem mbxData_off_ne_mbxStat_off (k m : Nat) : R.CARE_MBX_DATA.off k 0 ≠ R.CARE_MBX_STAT.off m 0 := by
  simp only [Fld.off, R.CARE_MBX_DATA, R.CARE_MBX_STAT]
  omega

theorem mbxData_off_notMem_mbxWords (h : k ≠ m) : R.CARE_MBX_DATA.off k 0 ∉ mbxWords m := by
  simp only [mbxWords, Fld.off, List.mem_cons, List.not_mem_nil, or_false, R.CARE_MBX_DATA, R.CARE_MBX_STAT]
  omega

theorem mbxStat_off_notMem_mbxWords (h : k ≠ m) : R.CARE_MBX_STAT.off k 0 ∉ mbxWords m := by
  simp only [mbxWords, Fld.off, List.mem_cons, List.not_mem_nil, or_false, R.CARE_MBX_DATA, R.CARE_MBX_STAT]
  omega

theorem careStatus_mem_mbxEventWords : Blk.status .care ∈ mbxEventWords := List.mem_cons_of_mem _ List.mem_cons_self

theorem eventWords_subset_mbxEventWords (a : Nat) (h : a ∈ eventWords) : a ∈ mbxEventWords :=
  List.mem_cons_of_mem _ (List.mem_cons_of_mem _ h)

/-- A mailbox whose two words are not among those that change. -/
theorem get_mbx_of_only {W : List Nat} {t : State} (h : Only W s t) (hd : R.CARE_MBX_DATA.off k 0 ∉ W)
    (hs : R.CARE_MBX_STAT.off k 0 ∉ W) :
    t.get R.CARE_MBX_DATA k = s.get R.CARE_MBX_DATA k ∧ t.get R.CARE_MBX_STAT k = s.get R.CARE_MBX_STAT k :=
  ⟨h.get R.CARE_MBX_DATA k 0 hd (.inl (by decide)), h.get R.CARE_MBX_STAT k 0 hs (.inl (by decide))⟩

/-- A rejected or a stray access changes no mailbox. -/
theorem get_mbx_of_only_events {t : State} (h : Only mbxEventWords s t) (hk : k < 32) :
    t.get R.CARE_MBX_DATA k = s.get R.CARE_MBX_DATA k ∧ t.get R.CARE_MBX_STAT k = s.get R.CARE_MBX_STAT k :=
  get_mbx_of_only h (mbxData_off_notMem_events hk) (mbxStat_off_notMem_events hk)

/-- A write to the status of a mailbox leaves its DATA. -/
theorem State.get_mbxData_put_stat (s : State) {f : Fld} (v : Nat) (ho : f.off m 0 = R.CARE_MBX_STAT.off m 0)
    (hw : f.lsb + f.width ≤ 32) :
    (s.put f v m).get R.CARE_MBX_DATA m = s.get R.CARE_MBX_DATA m :=
  State.get_put_apart _ _ _ _ _ _ _ _ ⟨.inl (ho ▸ mbxData_off_ne_mbxStat_off m m), .inl hw, .inl (by decide), .inl hw⟩

/-- A write to a field of the status of a mailbox leaves the fields beside it. -/
theorem State.get_put_mbxStat (s : State) {f g : Fld} (v : Nat)
    (h : f.lsb + f.width ≤ 32 ∧ g.lsb + g.width ≤ 32 ∧ (f.lsb + f.width ≤ g.lsb ∨ g.lsb + g.width ≤ f.lsb))
    (hf : f.off m 0 = R.CARE_MBX_STAT.off m 0 := by rfl) (hg : g.off m 0 = R.CARE_MBX_STAT.off m 0 := by rfl) :
    (s.put f v m).get g m = s.get g m :=
  State.get_put_bits _ _ _ _ _ _ _ _ h.1 h.2.1 (hg.trans hf.symm) h.2.2

/-! A mailbox that took a word -/

theorem State.get_mbxData_mbxFilled (hm : m < 32) : (s.mbxFilled m word.toNat).get R.CARE_MBX_DATA m = word.toNat := by
  rw [State.mbxFilled, State.get_mbxData_put_stat _ (f := R.CARE_MBX_STAT_ACKED) _ rfl (by decide),
    State.get_mbxData_put_stat _ (f := R.CARE_MBX_STAT_FULL) _ rfl (by decide),
    State.get_put_narrow _ _ _ _ _ (by decide) ⟨hm, by decide⟩]
  exact Nat.mod_eq_of_lt word.isLt

theorem State.full_mbxFilled (hm : m < 32) (w : Nat) : (s.mbxFilled m w).flag R.CARE_MBX_STAT_FULL m = true := by
  rw [State.flag, State.mbxFilled, State.get_put_mbxStat _ (f := R.CARE_MBX_STAT_ACKED) (g := R.CARE_MBX_STAT_FULL) _ (by decide),
    State.get_put_narrow _ _ _ _ _ (by decide) ⟨hm, by decide⟩]
  rfl

theorem State.acked_mbxFilled (hm : m < 32) (w : Nat) : (s.mbxFilled m w).flag R.CARE_MBX_STAT_ACKED m = false := by
  rw [State.flag, State.mbxFilled, State.get_put_narrow _ _ _ _ _ (by decide) ⟨hm, by decide⟩]
  rfl

/-- SEQ and the bits of a narrow field that does not hold bit 2. -/
theorem mbxSeq_apart {g : Fld} (hw : g.lsb + g.width ≤ 32) (hb : 3 ≤ g.lsb ∨ g.lsb + g.width ≤ 2) :
    R.CARE_MBX_STAT_SEQ.apart m 0 g m 0 :=
  ⟨.inr ⟨by decide, hw, hb⟩, .inl (by decide), .inl hw, .inl (by decide)⟩

/-- The doorbell leaves the fields of the mailbox other than SEQ. -/
theorem State.get_mbxRung (g : Fld) (hg : R.CARE_MBX_STAT_SEQ.apart m 0 g m 0) (hw : g.lsb + g.width ≤ 32)
    (h : g.off m 0 ∉ mbxEventWords) : (s.mbxRung m).get g m = s.get g m := by
  rw [State.mbxRung]
  split
  · exact ((Only.refl mbxEventWords s).raise careStatus_mem_mbxEventWords
      (eventWords_pba eventWords_subset_mbxEventWords)).get g m 0 h (.inl hw)
  · split
    · exact (State.get_sendPair ..).trans (State.get_put_apart _ _ _ _ _ _ _ _ hg)
    · rfl

theorem State.only_mbxFilled (w : Nat) : Only (mbxWords m) s (s.mbxFilled m w) :=
  have hd : R.CARE_MBX_DATA.off m 0 ∈ mbxWords m := List.mem_cons_self
  have hs : R.CARE_MBX_STAT.off m 0 ∈ mbxWords m := List.mem_cons_of_mem _ List.mem_cons_self
  (((Only.refl _ s).put hd (.inl (by decide))).put (f := R.CARE_MBX_STAT_FULL) hs (.inl (by decide))).put
    (f := R.CARE_MBX_STAT_ACKED) hs (.inl (by decide))

theorem State.only_mbxRung : Only (mbxWords m ++ mbxEventWords) s (s.mbxRung m) := by
  rw [State.mbxRung]
  split
  · exact (Only.refl _ s).raise (List.mem_append_right _ careStatus_mem_mbxEventWords)
      fun a ha => List.mem_append_right _ (eventWords_pba eventWords_subset_mbxEventWords a ha)
  · split
    · exact ((Only.refl _ s).put (f := R.CARE_MBX_STAT_SEQ) (List.mem_append_left _ (List.mem_cons_of_mem _ List.mem_cons_self))
        (.inl (by decide))).sendPair
    · exact Only.refl _ s

/-- A post changes no mailbox but its own. -/
theorem get_mbx_mbxRung_mbxFilled (w : Nat) (hk : k < 32) (hne : k ≠ m) :
    ((s.mbxFilled m w).mbxRung m).get R.CARE_MBX_DATA k = s.get R.CARE_MBX_DATA k ∧
      ((s.mbxFilled m w).mbxRung m).get R.CARE_MBX_STAT k = s.get R.CARE_MBX_STAT k := by
  have honly : Only (mbxWords m ++ mbxEventWords) s ((s.mbxFilled m w).mbxRung m) :=
    ((State.only_mbxFilled w).mono fun _ => List.mem_append_left _).trans State.only_mbxRung
  refine get_mbx_of_only honly ?_ ?_
  · simp only [List.mem_append, mbxData_off_notMem_mbxWords hne, mbxData_off_notMem_events hk, or_self, not_false_eq_true]
  · simp only [List.mem_append, mbxStat_off_notMem_mbxWords hne, mbxStat_off_notMem_events hk, or_self, not_false_eq_true]

/-! A mailbox whose message ended -/

theorem State.full_mbxEnded (hm : m < 32) : (s.mbxEnded m ret).flag R.CARE_MBX_STAT_FULL m = false := by
  rw [State.flag, State.mbxEnded, State.get_put_mbxStat _ (f := R.CARE_MBX_STAT_RET) (g := R.CARE_MBX_STAT_FULL) _ (by decide),
    State.get_put_mbxStat _ (f := R.CARE_MBX_STAT_ACKED) (g := R.CARE_MBX_STAT_FULL) _ (by decide),
    State.get_put_narrow _ _ _ _ _ (by decide) ⟨hm, by decide⟩]
  rfl

theorem State.acked_mbxEnded (hm : m < 32) : (s.mbxEnded m ret).flag R.CARE_MBX_STAT_ACKED m = true := by
  rw [State.flag, State.mbxEnded, State.get_put_mbxStat _ (f := R.CARE_MBX_STAT_RET) (g := R.CARE_MBX_STAT_ACKED) _ (by decide),
    State.get_put_narrow _ _ _ _ _ (by decide) ⟨hm, by decide⟩]
  rfl

theorem State.ret_mbxEnded (hm : m < 32) : (s.mbxEnded m ret).get R.CARE_MBX_STAT_RET m = ret % 65536 :=
  State.get_put_narrow _ _ _ _ _ (by decide) ⟨hm, by decide⟩

theorem State.get_mbxData_mbxEnded : (s.mbxEnded m ret).get R.CARE_MBX_DATA m = s.get R.CARE_MBX_DATA m := by
  rw [State.mbxEnded, State.get_mbxData_put_stat _ (f := R.CARE_MBX_STAT_RET) _ rfl (by decide),
    State.get_mbxData_put_stat _ (f := R.CARE_MBX_STAT_ACKED) _ rfl (by decide),
    State.get_mbxData_put_stat _ (f := R.CARE_MBX_STAT_FULL) _ rfl (by decide)]

/-- An acknowledgement leaves a field of the mailbox as the end of its message does (R514). -/
theorem State.get_mbxDone (g : Fld) (h8 : m ≠ 8 ∨ s.care.notices = []) (hw : g.lsb + g.width ≤ 32) (h : g.off m 0 ∉ mbxEventWords) :
    (s.mbxDone m ret).get g m = (s.mbxEnded m ret).get g m := by
  have honly : Only mbxEventWords (s.mbxEnded m ret) (s.mbxDone m ret) :=
    Only.regs ((Only.refl _ _).raiseIf careStatus_mem_mbxEventWords (eventWords_pba eventWords_subset_mbxEventWords))
      (State.regs_mbxDone h8)
  exact honly.get g m 0 h (.inl hw)

/-- The acknowledgement of a command of the host sets MBX_ACKED (R514). -/
theorem State.mbxAcked_mbxDone (hm : m < 8) :
    ((s.mbxDone m ret).word R.CARE_IRQ_STATUS.base).getLsbD 1 = true := by
  have h8 : m ≠ 8 ∨ s.care.notices = [] := .inl (Nat.ne_of_lt hm)
  rw [State.word_eq_of_regs (State.regs_mbxDone h8), State.raiseIf, decide_eq_true hm, if_pos rfl]
  exact State.getLsbD_raise_self _ .care (by decide)

end

end Sys2Proof.Machine

section
open Sys2Proof Sys2Proof.Machine

/-- Settles O58: a post by `mbxPost_empty` or `mbxPost_full`, an acknowledgement by `get_mbxDone`, a withdrawal by
`exec_mbxWithdraw_sender`; a stray post changes the words of the events only. -/
theorem mailboxesPostAcknowledgeWithdraw : Obligations.MailboxesPostAcknowledgeWithdraw := by
  refine ⟨?stored, ?rejected, ?acknowledged, ?withdrawn, ?stray⟩
  case stored =>
    intro s m word hm hfull
    refine ⟨_, exec_mbxPost_sender hm, ?_⟩
    rw [State.mbxPost_empty _ hfull]
    have hstat : R.CARE_MBX_STAT.off m 0 ∉ mbxEventWords := mbxStat_off_notMem_events hm
    refine ⟨?_, ?_, ?_, fun h8 h16 => ?_, fun k hk hne => get_mbx_mbxRung_mbxFilled _ hk hne⟩
    · have hdata : R.CARE_MBX_STAT_SEQ.apart m 0 R.CARE_MBX_DATA m 0 :=
        ⟨.inl (mbxData_off_ne_mbxStat_off m m), .inl (by decide), .inl (by decide), .inl (by decide)⟩
      rw [State.get_mbxRung _ hdata (by decide) (mbxData_off_notMem_events hm), State.get_mbxData_mbxFilled hm]
    · rw [State.flag_of_get (State.get_mbxRung R.CARE_MBX_STAT_FULL (mbxSeq_apart (by decide) (by decide)) (by decide) hstat),
        State.full_mbxFilled hm]
    · rw [State.flag_of_get (State.get_mbxRung R.CARE_MBX_STAT_ACKED (mbxSeq_apart (by decide) (by decide)) (by decide) hstat),
        State.acked_mbxFilled hm]
    · rw [State.mbxRung, if_pos ⟨h8, h16⟩]
      exact State.getLsbD_raise_self _ .care (by decide)
  case rejected =>
    intro s m word hm hfull
    refine ⟨_, exec_mbxPost_sender hm, ?_⟩
    rw [State.mbxPost_full _ hfull]
    have honly : Only mbxEventWords s ((s.bump R.CARE_MBX_COUNT_REJECTED).raiseRec .care 3) :=
      ((Only.refl _ s).bump (f := R.CARE_MBX_COUNT_REJECTED) List.mem_cons_self (.inl (by decide))).raiseRec
        careStatus_mem_mbxEventWords eventWords_subset_mbxEventWords
    refine ⟨?_, fun k hk => get_mbx_of_only_events honly hk, ?_⟩
    · rw [State.get_raiseRec _ _ _ _ _ _ (by decide) (.inl (by decide)), State.get_bump_self _ _ _ _ (by decide) (by decide)]
    · have hfrozen : ((s.bump R.CARE_MBX_COUNT_REJECTED).raise .care 3).flag R.TEPH_STAT_FROZEN = s.flag R.TEPH_STAT_FROZEN :=
        State.flag_of_get ((State.get_raise _ _ _ _ _ _ (by decide) (.inl (by decide))).trans
          (State.get_put_apart _ _ _ _ _ _ _ _ (by decide)))
      have hteph : ((s.bump R.CARE_MBX_COUNT_REJECTED).raise .care 3).teph = s.teph := by rw [State.raise_teph, State.bump_teph]
      rw [← hfrozen, ← hteph]
      refine ⟨fun hf hq => ?_, State.lost_recIrq _ _⟩
      obtain ⟨e, he⟩ := State.queue_recIrq .care 3 hf hq
      rw [State.raiseRec, he, List.length_append, List.length_singleton]
  case acknowledged =>
    intro s m ret hm hfull h8
    refine ⟨_, exec_mbxAck_receiver hm hfull, ?_, ?_, ?_, State.mbxAcked_mbxDone, ?_⟩
    · rw [State.flag_of_get (State.get_mbxDone R.CARE_MBX_STAT_FULL h8 (by decide) (mbxStat_off_notMem_events hm)),
        State.full_mbxEnded hm]
    · rw [State.flag_of_get (State.get_mbxDone R.CARE_MBX_STAT_ACKED h8 (by decide) (mbxStat_off_notMem_events hm)),
        State.acked_mbxEnded hm]
    · rw [State.get_mbxDone R.CARE_MBX_STAT_RET h8 (by decide) (mbxStat_off_notMem_events hm), State.ret_mbxEnded hm, Nat.mod_mod]
    · rw [State.get_mbxDone _ h8 (by decide) (mbxData_off_notMem_events hm), State.get_mbxData_mbxEnded]
  case withdrawn =>
    intro s m hm hfull h8
    have hm32 : m < 32 := by omega
    exact ⟨_, exec_mbxWithdraw_sender hm hfull h8, State.full_mbxEnded hm32, State.acked_mbxEnded hm32, State.ret_mbxEnded hm32⟩
  case stray =>
    intro s p m word hm hp
    refine ⟨_, exec_mbxPost_other hm hp, ?_⟩
    have honly : Only mbxEventWords s (s.stray.ignoredBy (R.CARE_MBX_DATA.off m 0) word.toNat p) :=
      Only.regs (((Only.refl _ s).bump (f := R.CARE_MBX_COUNT_STRAY) List.mem_cons_self (.inl (by decide))).offer
        eventWords_subset_mbxEventWords) rfl
    refine ⟨?_, fun k hk => get_mbx_of_only_events honly hk, State.nextId_ignoredBy ..⟩
    rw [State.get_ignoredBy _ _ _ _ _ _ _ (by decide) (.inl (by decide)), State.stray, State.get_bump_self _ _ _ _ (by decide) (by decide)]

/-- Settles O59: `exec_lockClaim` by the lock's three states, `exec_lockRelease_owner` and `exec_lockRelease_other`; the release that
is ignored changes the counter and the words of the events only. -/
theorem locksAreClaimedAndReleased : Obligations.LocksAreClaimedAndReleased := by
  refine ⟨?free, ?own, ?held, ?released, ?ignored⟩
  case free =>
    intro s p k hk hfree
    exact ⟨_, exec_lockClaim hk, if_pos hfree⟩
  case own =>
    intro s p k hk hown
    have hheld : s.get R.CARE_LOCK k ≠ 0 := hown ▸ Party.owner_ne_zero p
    exact ⟨_, exec_lockClaim hk, (if_neg hheld).trans (if_pos hown)⟩
  case held =>
    intro s p k hk hheld hother
    exact ⟨_, exec_lockClaim hk, (if_neg hheld).trans (if_neg hother)⟩
  case released =>
    intro s p k hk hown
    exact ⟨_, exec_lockRelease_owner hk hown, rfl⟩
  case ignored =>
    intro s p k hk hother
    refine ⟨_, exec_lockRelease_other hk hother, fun i hi => ?_, ?_, ?_⟩
    · rw [State.get_ignoredBy _ _ _ _ _ _ _ (lock_off_notMem_eventWords hi) (.inl (by decide))]
      exact State.get_put_apart _ _ _ _ _ _ _ _ (lockStat_apart_lock hi)
    · rw [State.get_ignoredBy _ _ _ _ _ _ _ (by decide) (.inl (by decide)), State.get_bump_self _ _ _ _ (by decide) (by decide)]
    · have hfrozen : (s.bump R.CARE_LOCK_STAT_STRAY).flag R.TEPH_STAT_FROZEN = s.flag R.TEPH_STAT_FROZEN :=
        State.flag_of_get (State.get_put_apart _ _ _ _ _ _ _ _ (by decide))
      have hteph : (s.bump R.CARE_LOCK_STAT_STRAY).teph = s.teph := State.bump_teph ..
      rw [← hfrozen, ← hteph]
      refine ⟨fun hf hq => ?_, State.lost_ignoredBy _ _ _⟩
      obtain ⟨e, he, hcode, harg⟩ := State.queue_ignoredBy (R.CARE_LOCK.off k 0) 0 p hf hq
      rw [he, List.getLast?_concat, Option.map_some, hcode, harg, Nat.mod_eq_of_lt (lock_off_lt hk)]

end
